-- ==== Sys2Proof/Word.lean ====
section
/-! DEFINITION. The words of the machine: bytes, 32-bit register words, and the sparse maps in which every large
array of State is held. -/

namespace Sys2Proof

/-- A byte of memory, of a frame or of a descriptor (R12: all little-endian). -/
abbrev Byte := BitVec 8

/-- A register: every register is 32 bits wide. -/
abbrev Word := BitVec 32

/-- A large array held as plain data: (index, value) pairs with strictly rising indices and no value equal to what an
unlisted index reads as (`SMap.wf`). -/
abbrev SMap (α : Type) := List (Nat × α)

end Sys2Proof
end

