-- ==== Sys2Proof/Syntax.lean ====
section
/-! DEFINITION. The commands of the block: one constructor per row of spec/opcode_table.json, with the operands that
the outside supplies, and the types of those operands. -/

namespace Sys2Proof

/-- What goes wrong with the reads of one sector, as the outside injects it: `reads` reads in a row find the bytes of `flip` XORed onto
the sector's 256 bytes and its side-band. The code corrects one wrong symbol of a chunk and detects two (R265); where a chunk has more,
its bit of `found` says whether the code detects them. -/
structure ReadErr where
  stack : Nat
  sector : Nat
  reads : Nat
  flip : List Byte
  found : Nat
deriving DecidableEq, Repr

/-- Errors that a read of core SRAM meets (R237): 64-bit words that are uncorrectable, and words of which one bit is corrected, each
with that bit of its 72-bit codeword. A word is numbered within its core, or `physical core · 2^20 + word` where a row reads
several cores. A word that the row does not read is no error. -/
structure SramErrs where
  ue : List Nat := []
  ce : List (Nat × Nat) := []
deriving DecidableEq, Repr

/-- Errors that one beat of an engine meets (R236, R237): of core SRAM; uncorrectable 64-bit words of the engine's accumulator
memory (two outputs each) and of the vector register file (two lanes each), and whether the replay-store entry itself is; and how
many single-bit errors these three arrays correct in the beat. -/
structure UnitErr where
  sram : SramErrs
  acc : List Nat
  reg : List Nat
  replay : Bool
  ce : Nat
deriving DecidableEq, Repr

/-- One completion toward the device of a request it made on the host bus: 0 success, 1 Unsupported Request,
2 Completer Abort, 3 poisoned; with the data. -/
structure HostRead where
  status : Nat
  data : List Byte
deriving DecidableEq, Repr

/-- A register access: the requester index (R20), whether it carries the T bit on the stream bound to its VF (R535,
R562), and the byte enables (R17): bits 0 to 3 of the dword, bits 4 to 7 of the high dword of an
8-byte access. -/
structure RegReq where
  who : Nat
  trusted : Bool
  be : Nat
deriving DecidableEq, Repr


/-- What an SPDM session over a port has shown of the peer, and what the keepers agreed on (R380 to R382): the certificate
chain verifies, the peer's life-cycle state, whether its firmware set is on the tested list, whether it is in the service
state, the keys of the two directions, and the bindings: local partition, peer partition, the peer partition's epoch. -/
structure LinkAuth where
  chain : Bool
  state : Nat
  listed : Bool
  service : Bool
  txKey : List Byte
  rxKey : List Byte
  binds : List (Nat × Nat × Nat)
deriving DecidableEq, Repr

/-- The issue of a period's mark: its partition, and whether its fetch meets an uncorrectable error (R113). -/
structure GateIssue where
  part : Nat
  ue : Bool
deriving DecidableEq, Repr

/-- What the scrubber finds in a codeword: no error, a single-bit error at a bit of the 72, or an uncorrectable error (R238). -/
inductive ScrubFinding where
  | clean
  | corrected (bit : Nat)
  | uncorrectable
deriving DecidableEq, Repr

/-- The load of a stack's tags: MCLK cycles in which a requester waited, and the tags held in each pseudo-channel (R276, R303). -/
structure TagLoad where
  cycles : Nat
  held : List Nat
deriving DecidableEq, Repr

/-- The start of a record: its stack, and the MCLK cycles by which the limiter has delayed it (R61). -/
structure NmeStart where
  stack : Nat
  delay : Nat
deriving DecidableEq, Repr

/-- An SPDM frame at a port, with the bindings that the keepers agree on with it, as in `LinkAuth` (R380, R382). -/
structure SpdmArrival where
  port : Nat
  binds : List (Nat × Nat × Nat)
deriving DecidableEq, Repr

/-- One direction of a port, 0 transmit and 1 receive (R385). -/
structure LinkDir where
  port : Nat
  dir : Nat
deriving DecidableEq, Repr

/-- The two messages that keeper A sends in a key update: KEY_UPDATE, or the request for one, and VerifyNewKey (R386). -/
structure RekeyMsgs where
  update : List Byte
  verify : List Byte
deriving DecidableEq, Repr

/-- A turn of the drain: whether the copy being served to a PULL sends, else the drain; and the errors that its reads meet (R457). -/
structure DrainTurn where
  serve : Bool
  errs : List ReadErr
deriving DecidableEq, Repr

/-- The engine of a Lake export, and the errors that its reads meet (R611). -/
structure LakeExport where
  engine : Nat
  errs : List ReadErr
deriving DecidableEq, Repr

/-- What fails at a reset: a bit for each stack that does not answer (R687), and the physical cores of which the engine self-test fails
(R244). -/
structure ResetFailures where
  stackMask : Nat
  cores : List Nat
deriving DecidableEq, Repr

/-- The commands. Each constructor is the row of spec/opcode_table.json whose name it spells. -/
inductive Instr where
  /-- R13: A write to a register field that has no row of its own takes effect per its access code, with undefined
  encodings kept under R16 and partial byte enables dropped under R17. A 4-byte write at register address `a` -/
  | registerWrite (r : RegReq) (a : Nat) (v : Word) (errs : List ReadErr)
  /-- R13: A read of an RC field returns the value and clears the field, keeping any same-cycle event contribution
  under R24. -/
  | rcRead (r : RegReq) (a : Nat)
  /-- R21: A 4-byte read of the _LO half of a 64-bit pair returns the low half and latches the high half into the
  requester's shadow. -/
  | loReadLatch (r : RegReq) (a : Nat)
  /-- R21: A 4-byte read of the _HI half returns and releases the requester's shadow, or the live high half when no
  shadow is held. -/
  | hiReadShadow (r : RegReq) (a : Nat)
  /-- R23: An 8-byte read of a 64-bit pair returns both halves sampled in one home-domain cycle, with no shadow set
  or released. -/
  | pairRead8byte (r : RegReq) (a : Nat)
  /-- R23: An 8-byte aligned write to a 64-bit pair writes both halves in one home-domain cycle. -/
  | pairWrite8byte (r : RegReq) (a : Nat) (lo : Word) (hi : Word)
  /-- R19: A register access whose home domain does not acknowledge within 4 µs completes: a read returns
  0xFFFF_FFFF and a write is dropped. -/
  | accessTimeout (r : RegReq) (a : Nat) (write : Bool)
  /-- R40: A mesh, light, temperature or VBAT tamper condition zeroes the root secret, empties every key slot and
  asserts the halt path. 1 mesh, 2 light, 3 temperature, 4 VBAT below 2.2 V while main power is absent. -/
  | tamperEvent (cause : Nat)
  /-- R49: A halt arriving from any source stops sequencer issue, abandons micro-ops, drains issued writes, stops
  fetch and records errors on fences of unfinished work. -/
  | halt
  /-- R748: The drain of issued memory writes after a halt completes, ending the data-plane stop. -/
  | haltStopComplete
  /-- R746: A keyed write of MGT_HALT_CTRL.HALT from PF0 or the management interfaces requests a halt. `v` is the
  word written to MGT_HALT_CTRL. -/
  | haltCmd (r : RegReq) (v : Word)
  /-- R652: Every 1 µs the limiter computes its estimate, takes the effective envelope, sets throttle holds and NME
  delay, and records throttle reasons. What the activity counts of the last µs give with gain 1, in mW: the whole
  estimate, the pool's, the memory base, the matrix engines and interface activity without throttle holds, the NME
  activity asked for -/
  | limiterEstimate (tot : Nat) (pool : Nat) (base : Nat) (eng : Nat) (nme : Nat) (i0 : Nat) (i1 : Nat)
  /-- R653: Every 10 ms the limiter compares the regulator measurement with its estimate, updating gain and
  cal_count or rejecting the window. -/
  | limiterCalibration
  /-- R660: Every 100 µs the thermal envelope is computed from the hottest compute-stack sensor and DRAM die, with
  hysteresis. The 64 compute-stack sensors in °C. -/
  | thermalEstimate (tjs : List Nat)
  /-- R661: Tj at or above 110 °C for 100 µs asserts the halt path, sets THERMTRIP, asserts MOD_ALERT_N and requests
  power removal. -/
  | thermtrip
  /-- R789: A write of DBG_STEP_CTRL.STEP while HOLD is 1 releases one beat of the held CCLK domain. The word
  written with `STEP` 1. -/
  | singleStep (r : RegReq) (v : Word)
  /-- R789: A write of DBG_STEP_CTRL.HOLD holds or releases the whole CCLK domain as under a throttle hold. -/
  | stepHoldWrite (r : RegReq) (v : Word)
  /-- R77: A write to a format-table header, entry or SR seed is accepted only while the partition's sequencer is
  stopped, else dropped with WR_REJECT. `off` within the FMT block. -/
  | fmtTableWrite (r : RegReq) (p : Nat) (off : Nat) (v : Word)
  /-- R162: SEQ_CTRL.RUN from STOPPED or FAULT loads and checks the image header and group table, clears LATE, loop
  counters and SEQ_ERR, writes the state record and fills the entry period. -/
  | seqRun (r : RegReq) (p : Nat) (errs : List ReadErr)
  /-- R163: SEQ_CTRL.CONT from STOPPED resumes at SEQ_PC without reloading the header or group table. -/
  | seqCont (r : RegReq) (p : Nat)
  /-- R163: SEQ_CTRL.STOP lets the current period end, then holds the successor's gate and enters STOPPED. -/
  | seqStop (r : RegReq) (p : Nat)
  /-- R165: SEQ_CTRL.RESUME releases a breakpoint hold so the gate is evaluated as usual. -/
  | seqResume (r : RegReq) (p : Nat)
  /-- R109: The fetch unit finishes filling the next period into its instruction SRAM half, verifying MACs, which
  satisfies the residency condition. -/
  | periodFillComplete (p : Nat) (errs : List ReadErr)
  /-- R185: At a beat boundary from the due beat with the gate closed, LATE rises by 1 and the beat counts as a
  gate-wait beat. -/
  | gateWaitBeat (p : Nat)
  /-- R179: At the first beat boundary where all explicit and implicit conditions hold, the MARK bundle issues as
  beat 0, starting the period, the next fill, any LIMREQ and a STEP_START norm clear. `ue`: an uncorrectable
  instruction-SRAM error (R113). -/
  | gateOpen (x : GateIssue)
  /-- R190: When LATE rises above SEQ_CATCHUP_LIMIT the sequencer sets LOST and SCHED_LOST, counts the episode and
  keeps running. -/
  | schedLost (p : Nat)
  /-- R191: A write of SEQ_CATCHUP_LIMIT takes effect at the next boundary and may start or end a schedule-lost
  episode. -/
  | catchupLimitWrite (r : RegReq) (p : Nat) (v : Word)
  /-- R118: An EXEC bundle issues at its beat, carrying its CTL operation, GRP starts and XFER operation. `ue`: an
  uncorrectable instruction-SRAM error (R113). -/
  | bundleExec (p : Nat) (ue : Bool)
  /-- R120: The CTL NOP operation does nothing for its beat. -/
  | ctlNop (p : Nat)
  /-- R120: The CTL IDLE operation makes the bundle occupy NM1+1 beats. -/
  | idle (p : Nat)
  /-- R122: FSIG signals its partition-relative fence at the bundle's issue beat. -/
  | fsig (p : Nat)
  /-- R123: A LOOP operation records a loop level, trip count and MARK target for the period-end successor choice,
  faulting LOOP_TARGET if the target is no MARK. -/
  | loopOp (p : Nat) (errs : List ReadErr)
  /-- R335: A COMMIT bundle makes the step's decision pending and sets UPD_STATUS.PENDING. -/
  | commit (p : Nat)
  /-- R186: A SLACK bundle consumes min(LATE, n) beats, lowering LATE, and executes the rest as idle beats. -/
  | slack (p : Nat) (ue : Bool)
  /-- R126: An END bundle stops the stream and waits for every completion set to empty. -/
  | endOp (p : Nat) (ue : Bool)
  /-- R126: When every completion set is empty after END, the sequencer signals FENCE if FV, enters STOPPED and sets
  SEQ_INT_STATUS.END. -/
  | endComplete (p : Nat)
  /-- R124: At a period's end the sequencer chooses the successor by commit decision, loop counter or fall-through,
  or enters STOPPED on a pending STOP. -/
  | periodEnd (p : Nat)
  /-- R130: A GRP slot start descriptor schedules a replay body in the named units of every core of a group,
  faulting START_LATE if SBEAT is too early. `d`: start descriptor 0 or 1. -/
  | grpStart (p : Nat) (d : Nat)
  /-- R131: At SBEAT every selected unit of every core of the group begins the body, faulting UNIT_CONFLICT or
  RPL_PENDING where applicable. -/
  | bodyStart (p : Nat)
  /-- R131: A body ends after its last trip's last micro-op, faulting BODY_OVERRUN if it runs past the allowed beat.
  `u`: 0 to 7 ME, 8 VE, 9 SE. -/
  | bodyEnd (p : Nat) (core : Nat) (u : Nat)
  /-- R151: MEMRD reads memory into core SRAM for each core of a group, counting parts in a completion set. -/
  | xferMemrd (p : Nat)
  /-- R151: MEMWR writes core SRAM to memory for each core of a group, counting parts in a completion set. -/
  | xferMemwr (p : Nat)
  /-- R156: A part of a MEMRD, MEMWR or ring transfer completes and its completion set falls by 1. `n` counts the
  partition's outstanding parts. -/
  | memTransferComplete (p : Nat) (n : Nat) (errs : List ReadErr) (bad : SramErrs)
  /-- R152: The XFER NME operation fetches command records and forwards them to each stack in STKMASK. -/
  | xferNme (p : Nat) (errs : List ReadErr)
  /-- R153: LLTX queues a reduction-buffer window for sending on each logical port in PMASK, completing at once for
  NULL and faulting RANGE on duplicate physical targets. -/
  | lltx (p : Nat)
  /-- R375: LLRX arms a receive window on a logical port and sends an ARM frame, or zero-fills and completes for
  NULL. -/
  | llrx (p : Nat)
  /-- R154: RLOAD writes micro-ops into replay stores of the named units of each core of a group. -/
  | rload (p : Nat)
  /-- R154: An RLOAD part lands after verification and its completion set falls by 1. -/
  | rloadComplete (p : Nat) (n : Nat) (errs : List ReadErr)
  /-- R155: UPD fetches an update descriptor and starts one update-unit stream. -/
  | xferUpd (p : Nat) (errs : List ReadErr)
  /-- R140: A matrix-engine NOP idles for DURM1+1 beats. One beat of the micro-op. -/
  | meNop (p : Nat) (core : Nat) (e : Nat) (err : UnitErr)
  /-- R141: WLOAD fills the shadow weight plane with one tile and its scales over 16 beats. One beat of the
  micro-op. -/
  | wload (p : Nat) (core : Nat) (e : Nat) (err : UnitErr)
  /-- R142: MMA streams activation vectors through the active plane, accumulating into rows under R79, optionally
  swapping the shadow plane first. One beat of the micro-op. -/
  | mma (p : Nat) (core : Nat) (e : Nat) (err : UnitErr)
  /-- R143: MOUT writes accumulator rows to core SRAM as FP32, one row per beat. One beat of the micro-op. -/
  | mout (p : Nat) (core : Nat) (e : Nat) (err : UnitErr)
  /-- R144: A vector-engine NOP idles for its beats. One beat of the micro-op. -/
  | veNop (p : Nat) (core : Nat) (err : UnitErr)
  /-- R145: VLD loads 512 elements into a register, widening and reading scales at the load scale pointer. One beat
  of the micro-op. -/
  | vld (p : Nat) (core : Nat) (err : UnitErr)
  /-- R145: VST converts a register to the target format by RNE or SR, computing or writing scales at the store
  scale pointer. One beat of the micro-op. -/
  | vst (p : Nat) (core : Nat) (err : UnitErr)
  /-- R144: VALU ADD adds register sets lane by lane with rne32. One beat of the micro-op. -/
  | valuAdd (p : Nat) (core : Nat) (err : UnitErr)
  /-- R144: VALU SUB subtracts register sets lane by lane. One beat of the micro-op. -/
  | valuSub (p : Nat) (core : Nat) (err : UnitErr)
  /-- R144: VALU MUL multiplies register sets lane by lane. One beat of the micro-op. -/
  | valuMul (p : Nat) (core : Nat) (err : UnitErr)
  /-- R144: VALU FMA computes VA × VB + VC with one rounding. One beat of the micro-op. -/
  | valuFma (p : Nat) (core : Nat) (err : UnitErr)
  /-- R222: VALU MAX takes the lane maximum with −0 below +0 and canonical NaN. One beat of the micro-op. -/
  | valuMax (p : Nat) (core : Nat) (err : UnitErr)
  /-- R222: VALU MIN takes the lane minimum with −0 below +0 and canonical NaN. One beat of the micro-op. -/
  | valuMin (p : Nat) (core : Nat) (err : UnitErr)
  /-- R82: VALU DIV divides VA by VB correctly rounded. One beat of the micro-op. -/
  | valuDiv (p : Nat) (core : Nat) (err : UnitErr)
  /-- R82: VALU SQRT takes the correctly rounded square root of VA. One beat of the micro-op. -/
  | valuSqrt (p : Nat) (core : Nat) (err : UnitErr)
  /-- R144: VALU ABS takes the absolute value of VA. One beat of the micro-op. -/
  | valuAbs (p : Nat) (core : Nat) (err : UnitErr)
  /-- R144: VALU NEG negates VA. One beat of the micro-op. -/
  | valuNeg (p : Nat) (core : Nat) (err : UnitErr)
  /-- R222: VALU SEL selects VA where VC is non-zero, else VB, treating NaN as non-zero. One beat of the micro-op. -/
  | valuSel (p : Nat) (core : Nat) (err : UnitErr)
  /-- R222: VALU CMPGT writes 1.0 or 0.0 by IEEE compareGreater. One beat of the micro-op. -/
  | valuCmpgt (p : Nat) (core : Nat) (err : UnitErr)
  /-- R144: VALU MOV copies VA. One beat of the micro-op. -/
  | valuMov (p : Nat) (core : Nat) (err : UnitErr)
  /-- R223: VTR EXP computes e^x by the fixed construction of R223. One beat of the micro-op. -/
  | vtrExp (p : Nat) (core : Nat) (err : UnitErr)
  /-- R223: VTR EXP2 computes 2^x by table and polynomial. One beat of the micro-op. -/
  | vtrExp2 (p : Nat) (core : Nat) (err : UnitErr)
  /-- R223: VTR LOG computes ln x by table and series. One beat of the micro-op. -/
  | vtrLog (p : Nat) (core : Nat) (err : UnitErr)
  /-- R223: VTR RECIP computes the correctly rounded reciprocal. One beat of the micro-op. -/
  | vtrRecip (p : Nat) (core : Nat) (err : UnitErr)
  /-- R223: VTR RSQRT computes the rounded reciprocal square root. One beat of the micro-op. -/
  | vtrRsqrt (p : Nat) (core : Nat) (err : UnitErr)
  /-- R223: VTR TANH computes tanh from EXP and RECIP. One beat of the micro-op. -/
  | vtrTanh (p : Nat) (core : Nat) (err : UnitErr)
  /-- R223: VTR SIGMOID computes 1/(1+e^−x). One beat of the micro-op. -/
  | vtrSigmoid (p : Nat) (core : Nat) (err : UnitErr)
  /-- R223: VTR GELU computes the tanh-form GELU. One beat of the micro-op. -/
  | vtrGelu (p : Nat) (core : Nat) (err : UnitErr)
  /-- R223: VTR SIN computes sine by exact reduction and polynomial. One beat of the micro-op. -/
  | vtrSin (p : Nat) (core : Nat) (err : UnitErr)
  /-- R223: VTR COS computes cosine by exact reduction and polynomial. One beat of the micro-op. -/
  | vtrCos (p : Nat) (core : Nat) (err : UnitErr)
  /-- R221: VRED SUM sums lanes by balanced tree in MODE 0 or accumulates lane by lane in MODE 1. One beat of the
  micro-op. -/
  | vredSum (p : Nat) (core : Nat) (err : UnitErr)
  /-- R221: VRED MAX reduces by maximum across lanes or lane by lane. One beat of the micro-op. -/
  | vredMax (p : Nat) (core : Nat) (err : UnitErr)
  /-- R221: VRED MIN reduces by minimum across lanes or lane by lane. One beat of the micro-op. -/
  | vredMin (p : Nat) (core : Nat) (err : UnitErr)
  /-- R221: VRED SUMSQ reduces the sum of squares across lanes or lane by lane. One beat of the micro-op. -/
  | vredSumsq (p : Nat) (core : Nat) (err : UnitErr)
  /-- R146: VRND writes r/65,536 from the SR generator to each lane. One beat of the micro-op. -/
  | vrnd (p : Nat) (core : Nat) (err : UnitErr)
  /-- R145: VSPTR sets the load or store scale pointer. One beat of the micro-op. -/
  | vsptr (p : Nat) (core : Nat) (err : UnitErr)
  /-- R147: A stream-engine NOP idles for its beats. One beat of the micro-op. -/
  | seNop (p : Nat) (core : Nat) (err : UnitErr)
  /-- R148: SCOPY moves core SRAM to another core of the partition over the mesh. One beat of the micro-op. -/
  | scopy (p : Nat) (core : Nat) (err : UnitErr)
  /-- R408: RBPUT sends core SRAM data to a reduction buffer, storing or adding by rne32. One beat of the micro-op. -/
  | rbput (p : Nat) (core : Nat) (err : UnitErr)
  /-- R408: RBGET reads a reduction buffer into core SRAM. One beat of the micro-op. -/
  | rbget (p : Nat) (core : Nat) (err : UnitErr)
  /-- R148: A scheduled mesh landing of SCOPY, RBPUT or RBGET data arrives at its core, two per beat with deferrals,
  adding on MODE 1 landings. The landings due at partition core `core` at its earliest beat. -/
  | meshLanding (p : Nat) (core : Nat) (bad : SramErrs)
  /-- R228: RGET issues a whole-burst read from a ring into core SRAM, counting it in a completion set. One beat of
  the micro-op. -/
  | rget (p : Nat) (core : Nat) (err : UnitErr)
  /-- R228: RPUT issues a whole-burst write from core SRAM into a ring, counting it in a completion set. One beat of
  the micro-op. -/
  | rput (p : Nat) (core : Nat) (err : UnitErr)
  /-- R229: An outstanding RGET burst moves whole once the fill or end-of-data allows, completing short under R230
  when needed. `bad` names uncorrectable 64-bit words of the core's SRAM. -/
  | rgetBurstMove (p : Nat) (core : Nat) (ring : Nat) (errs : List ReadErr) (bad : SramErrs)
  /-- R229: An outstanding RPUT burst moves whole once the ring has room, advancing the producer index after
  landing. `bad` names uncorrectable 64-bit words of the core's SRAM. -/
  | rputBurstMove (p : Nat) (core : Nat) (ring : Nat) (errs : List ReadErr) (bad : SramErrs)
  /-- R232: A write of SEQ_RING_PROD advances the producer index or is rejected with ERR_PROD. -/
  | ringProdWrite (r : RegReq) (p : Nat) (core : Nat) (ring : Nat) (v : Nat)
  /-- R232: A write of SEQ_RING_CONS advances the consumer index or is rejected with ERR_CONS. -/
  | ringConsWrite (r : RegReq) (p : Nat) (core : Nat) (ring : Nat) (v : Nat)
  /-- R231: A write of SEQ_RING_CTRL.EOD posts end-of-data and freezes the producer index. -/
  | ringEod (r : RegReq) (p : Nat) (core : Nat) (ring : Nat)
  /-- R249: SEQ_RING_CTRL.RESET clears both indices, EOD and ring status in a stopped state. -/
  | ringReset (r : RegReq) (p : Nat) (core : Nat) (ring : Nat)
  /-- R233: A write of a ring base or configuration takes effect only in a stopped state with valid storage, else is
  dropped with ERR_CFG. `which` 0 BASE_LO, 1 BASE_HI, 2 CFG. -/
  | ringCfgWrite (r : RegReq) (p : Nat) (core : Nat) (ring : Nat) (which : Nat) (v : Word)
  /-- R238: The scrubber reads a codeword, writes back a corrected single-bit error unless rewritten, and counts
  column errors. Codeword `w` (0 to 7) of data row `row`. -/
  | scrubRead (c : Nat) (b : Nat) (m : Nat) (row : Nat) (w : Nat) (finds : ScrubFinding)
  /-- R240: A column test reaching its threshold takes a spare, copies rows, steers reads and runs patterns P1 to
  P4. Of a physical column. -/
  | columnTest (c : Nat) (b : Nat) (m : Nat) (col : Nat)
  /-- R242: A column test records its verdict and sets the spare to PERM or FREE. `fails`: the failing rows under P1
  to P4 -/
  | columnTestVerdict (c : Nat) (b : Nat) (m : Nat) (col : Nat) (fails : List (List Nat))
  /-- R244: Setting DBG_CORE_STAT_p.RETIRE_PEND marks a physical core for retirement at the next maintenance reset.
  `v` is the word written to DBG_CORE_STAT_p. -/
  | retirePendSet (r : RegReq) (c : Nat) (v : Word)
  /-- R261: A write of MEM_PSPLIT_n is accepted only while the partition is EMPTY, else dropped with CFG_REJECT. -/
  | psplitWrite (r : RegReq) (p : Nat) (v : Word)
  /-- R270: The stack controller verifies a sector's MAC and ECC, re-reads on failure, and delivers, alarms or
  poisons. The sector at device address `a`, read speculatively or verified. -/
  | sectorVerify (p : Nat) (a : Nat) (spec : Bool) (errs : List ReadErr)
  /-- R277: A requester waiting for a transaction tag on a full pseudo-channel receives one by the fixed priority
  and age order. `wants`: class (0 to 5 in the order of R277) and index of requesters that come to wait. -/
  | tagGrant (k : Nat) (pc : Nat) (wants : List (List Nat)) (load : TagLoad)
  /-- R281: The stack controller refreshes a bank on its 32 ms or 16 ms interval, postponing at most eight
  intervals. `temp` is the hottest die of the stack, in degrees Celsius. -/
  | refresh (k : Nat) (pc : Nat) (bank : Nat) (temp : Nat)
  /-- R282: The patrol reads a sector and writes back corrected ciphertext unless the sector was written meanwhile. -/
  | patrolRead (k : Nat) (sec : Nat) (errs : List ReadErr)
  /-- R283: Three corrected sectors in one row trigger post-package repair that holds the bank up to 2 ms. `row` is
  (pseudo-channel * 64 + bank) * 32768 + row. -/
  | rowRepair (k : Nat) (row : Nat)
  /-- R285: A queued NME command record starts once the previous record's writes are visible and the limiter
  releases it. -/
  | nmeRecordStart (x : NmeStart)
  /-- R288: An NME NOP record does nothing and may write a status record. `ifc`: an interposer frame failed
  authentication twice (R297). -/
  | nmeNop (k : Nat) (ifc : Bool)
  /-- R291: GEMV computes weight-by-vector products in the fixed order on stack-local operands. -/
  | gemv (k : Nat) (errs : List ReadErr) (ifc : Bool)
  /-- R293: COPY re-encrypts sectors from a source KID to a destination KID within each stack. -/
  | nmeCopy (k : Nat) (errs : List ReadErr) (ifc : Bool)
  /-- R293: FILL writes an 8-byte pattern encrypted under the destination KID. -/
  | fill (k : Nat) (ifc : Bool)
  /-- R293: ZERO writes encrypted zeros under the destination KID. -/
  | zero (k : Nat) (ifc : Bool)
  /-- R293: WIPE writes all-zero ciphertext and side-band keylessly. -/
  | wipe (k : Nat) (ifc : Bool)
  /-- R294: GATHER copies indexed table rows to a destination, zero-filling out-of-range indices. -/
  | gather (k : Nat) (errs : List ReadErr) (ifc : Bool)
  /-- R294: SCATTER_ADD adds source rows into indexed table rows in position order. -/
  | scatterAdd (k : Nat) (errs : List ReadErr) (ifc : Bool)
  /-- R287: A stack's part of an XFER NME completes when all its records and results have landed. -/
  | nmePartComplete (k : Nat)
  /-- R310: A write of UPD_BANK_BASE or UPD_BANK_SIZE is dropped if it would place the window beyond the stack-local
  region. `which` 0 UPD_BANK_BASE, 1 UPD_BANK_SIZE. -/
  | updWindowWrite (r : RegReq) (p : Nat) (which : Nat) (v : Word)
  /-- R332: A write to an update table, optimizer entry or step-state register is accepted only in a stopped state,
  else dropped with WR_REJECT. `off` within the UPD block. -/
  | updConfigWrite (r : RegReq) (p : Nat) (off : Nat) (v : Word)
  /-- R329: A TENSOR descriptor streams gradients, applies the optimizer and writes the next view, adding its norm
  to the accumulator. `n` counts the partition's outstanding streams -/
  | updTensor (p : Nat) (n : Nat) (errs : List ReadErr) (bad : SramErrs)
  /-- R323: NORM_OUT waits for earlier descriptors and verifications, then writes the norm record with NF and TAINT. -/
  | normOut (p : Nat)
  /-- R324: NORM_IN reads a reduced norm record, closes G and holds NF and TAINT, recording STEP_MISMATCH on a wrong
  step number. -/
  | normIn (p : Nat) (bad : SramErrs)
  /-- R316: A stack part of an update stream completes and its completion set falls by 1. -/
  | updStreamComplete (p : Nat) (k : Nat)
  /-- R336: Once streams, verifications and NORM_INs are done, the decision COMMITTED, SKIPPED or TAINTED is made,
  flipping the epoch, updating step state, settling rings and writing the state record. -/
  | commitDecision (p : Nat)
  /-- R192: At each tray-bus frame boundary the management controller samples each partition's lateness state and
  places due announcements in its frame. -/
  | announceSample
  /-- R192: A LOST announcement repeats every 1 ms while its episode lasts. -/
  | announceLostRepeat (p : Nat)
  /-- R194: A received or relayed lateness announcement with a matching tag sets or ends the hold for its sender and
  records it in SEQ_PEER_LATE and SEQ_PEER_SRC. -/
  | announcementReceived
  /-- R194: A sender's hold expires 2 ms after its last LOST announcement. -/
  | peerHoldExpire (p : Nat)
  /-- R363: A receiver checks a frame's CRC, sequence, header, source, binding, epochs, counter and tag in order,
  then delivers, drops or discards it. The block as the wire brought it, and the symbols that FEC corrected in it. -/
  | linkFrameReceive (n : Nat) (block : List Byte) (fec : Nat)
  /-- R376: A SCHED frame lands its payload in an armed window's reduction buffer, completing the window when all
  bytes have landed. The oldest accepted frame of the port, being of this type -/
  | schedFrame (n : Nat)
  /-- R427: A CTL frame carrying control-collective traffic is held in a receive place until its launch takes it. -/
  | ctlFrame (n : Nat)
  /-- R375: An ARM frame from the peer enables the sender's matching window. -/
  | armFrame (n : Nat)
  /-- R364: A BULK frame carrying drain traffic is delivered to the partition's checkpoint unit. -/
  | bulkFrame (n : Nat)
  /-- R380: An SPDM frame in entry 0 is delivered to the keeper. -/
  | spdmFrame (x : SpdmArrival)
  /-- R377: An ABORT frame completes the matching armed window as an error with zeros and raises the non-finite
  flag. -/
  | abortFrame (n : Nat)
  /-- R358: An IDLE block carries ACK, NAK and credit returns only. -/
  | idleBlock (n : Nat) (block : List Byte)
  /-- R361: A received NAK makes the sender resend every unacknowledged frame from ACK+1 in order. -/
  | nakReplay (n : Nat)
  /-- R374: In each owned entry the port sends replays, ARM/ABORT, SCHED, CTL and BULK frames in order, else IDLE
  blocks. Entry `e` of the 65 of the cycle. -/
  | frameSend (n : Nat) (e : Nat) (bad : SramErrs)
  /-- R375: An LLTX window starts sending at the later of beat WIN and a matching ARM, or sends ABORT on a length
  mismatch. Port 16 stands for LOOP. -/
  | windowSendStart (p : Nat) (port : Nat) (bad : SramErrs)
  /-- R378: A held LLRX arm proceeds once one of the partition's 16 armed windows on the port completes. -/
  | windowArmRelease (p : Nat) (port : Nat)
  /-- R365: The HOLD action keeps the port at its state until EN or RETRAIN moves it. -/
  | trainHold (n : Nat)
  /-- R365: The DETECT action looks for the peer receiver and signal on at least 4 lanes. -/
  | trainDetect (n : Nat) (mask : Nat)
  /-- R365: The LANES action locks, equalises, deskews and selects 8 lanes or a half. -/
  | trainLanes (n : Nat) (rx : Nat) (tx : Nat)
  /-- R368: The CAPS action exchanges capability blocks and agrees generation and width, failing on mismatch or
  wiring. `b` is the CAPS block that comes in. -/
  | trainCaps (n : Nat) (b : List Byte)
  /-- R365: The QUAL action measures the link for PARAM ms against the error threshold. -/
  | trainQual (n : Nat) (ue : Nat) (corrected : Nat) (symbols : Nat)
  /-- R365: The INIT action starts the link layer with SEQ, ACK and credits reset. -/
  | trainInit (n : Nat) (ready : Bool)
  /-- R381: The AUTH action waits for the keeper to authenticate the peer and load link slots, or refuses the
  session. -/
  | trainAuth (n : Nat) (a : LinkAuth)
  /-- R365: The ACTIVE action carries traffic until a retrain trigger. -/
  | trainActive (n : Nat)
  /-- R365: A training attempt reaching its timeout counts as failed and may take the FAIL successor. -/
  | trainTimeout (n : Nat)
  /-- R369: Loss of lock on an active lane takes an ACTIVE port to RETRAIN. -/
  | laneLockLoss (n : Nat) (lane : Nat)
  /-- R388: A write of LL_PORT_CTRL.EN enables the port or takes it to index 0. -/
  | portEnable (r : RegReq) (n : Nat) (en : Bool)
  /-- R388: LL_PORT_CTRL.RETRAIN takes an ACTIVE port to RETRAIN or a DOWN port to its OK successor. -/
  | portRetrainCmd (r : RegReq) (n : Nat)
  /-- R385: LL_PORT_CTRL.REKEY rekeys both directions of the port. -/
  | portRekeyCmd (r : RegReq) (n : Nat)
  /-- R388: LL_PORT_CTRL.TLOCK locks GEN2_EN, the training table and its version until reset. -/
  | trainLock (r : RegReq) (n : Nat)
  /-- R398: A write to the training table takes effect at the port's next state change unless locked. Words 0 to 31
  of the table, or 32 for the version. -/
  | trainTableWrite (r : RegReq) (n : Nat) (which : Nat) (v : Word)
  /-- R392: A write of LL_SLOT_w is accepted only while every partition is EMPTY, else dropped with CFG_REJECT. -/
  | llSlotWrite (r : RegReq) (n : Nat) (w : Nat) (v : Word)
  /-- R385: A direction's rekey interval expires and the keeper starts a rekey. Direction 0 transmit, 1 receive. -/
  | rekeyTimer (n : Nat) (dir : Nat)
  /-- R386: Keeper A sends SPDM KEY_UPDATE, then loads and swaps its transmit slot and verifies the new key. Direction 1
  asks the peer for its own. The key of the SPDM session, the session's messages, and whether check values agree. -/
  | rekey (n : LinkDir) (key : List Byte) (msg : RekeyMsgs) (ok : Bool)
  /-- R386: Keeper B derives the new key, swaps its receive slot retaining the old epoch, and acknowledges. -/
  | keyUpdateReceived (n : Nat) (key : List Byte) (msg : List Byte) (ok : Bool)
  /-- R438: A write to a COL configuration register is accepted only in a stopped state and within its rules, else
  dropped with WR_REJECT. `off` within the COL block. -/
  | colConfigWrite (r : RegReq) (p : Nat) (off : Nat) (v : Word)
  /-- R426: A channel's request for a dynamic buffer is granted or answered NONE and retried. -/
  | ccBufferGrant (p : Nat) (ch : Nat)
  /-- R423: A SUM_F32 control collective sums binary32 data across the job's stages. -/
  | ccSumF32 (p : Nat) (ch : Nat) (bad : SramErrs)
  /-- R423: A MAX_F32 control collective takes the maximum across the job. -/
  | ccMaxF32 (p : Nat) (ch : Nat) (bad : SramErrs)
  /-- R423: An OR_U32 control collective ORs 32-bit words across the job. -/
  | ccOrU32 (p : Nat) (ch : Nat) (bad : SramErrs)
  /-- R423: A NORMREC control collective sums norm records, ORs flags and checks step numbers. -/
  | ccNormrec (p : Nat) (ch : Nat) (bad : SramErrs)
  /-- R424: When a stage's peer contributions arrive, the collective unit folds them in order and sends the next
  stage's traffic. -/
  | ccStage (p : Nat) (ch : Nat)
  /-- R425: The collective writes its result to DST, signals SIGF and wipes and releases its buffer. -/
  | ccComplete (p : Nat) (ch : Nat)
  /-- R428: A collective step lasting beyond COL_CC_TMO ends with TIMEOUT on SIGF. -/
  | ccTimeout (p : Nat) (ch : Nat)
  /-- R452: CKP_TIMER.SECONDS elapse and the snapshot timer arms. -/
  | snapshotTimer (p : Nat)
  /-- R454: After the copy the tree is formed, the manifest written and the slot set LOCAL. -/
  | snapshotComplete (p : Nat) (errs : List ReadErr)
  /-- R457: The checkpoint unit sends the newest LOCAL slot to the buddy as DATA frames then END, rate-limited. -/
  | drainSend (p : Nat) (turn : DrainTurn)
  /-- R460: A buddy receiving DATA stores sectors raw in a buddy slot or answers SPACE. -/
  | drainDataReceive (p : Nat)
  /-- R461: On END the buddy slot enters READBACK, or on a spare pulling a slot the root is compared to make it
  FETCHED or INVALID. -/
  | drainEndReceive (p : Nat)
  /-- R461: The buddy finishes reading back, compares the tree root and sends RESULT VERIFIED or MISMATCH. -/
  | readbackComplete (p : Nat) (errs : List ReadErr)
  /-- R461: The sender sets its slot VERIFIED on a matching RESULT, or drains again on MISMATCH and fails after two. -/
  | drainResultReceive (p : Nat)
  /-- R471: A buddy receiving PULL serves the VERIFIED copy or answers NOT_HELD. -/
  | drainPullReceive (p : Nat)
  /-- R457: An ABANDON frame ends the buddy's reception of the abandoned snapshot. -/
  | drainAbandonReceive (p : Nat)
  /-- R463: A write of CKP_DRAIN_CFG restarts an interrupted drain from index 0. -/
  | drainCfgWrite (r : RegReq) (p : Nat) (v : Word)
  /-- R466: CKP_CTRL.ABORT stops the partition, discards windows and collectives and drains outstanding work. `v` is
  the word written to CKP_CTRL. -/
  | ckpAbort (r : RegReq) (p : Nat) (v : Word)
  /-- R467: Once the aborted partition has drained and its ports hold no unacknowledged traffic frames, QUIET sets
  and completion sets clear. -/
  | quiet (p : Nat)
  /-- R472: CKP_CTRL.RESTORE checks the slot's manifest and shape, then copies the image back when needed. `v` is
  the word written to CKP_CTRL. -/
  | ckpRestore (r : RegReq) (p : Nat) (v : Word) (errs : List ReadErr)
  /-- R472: The restore loads step state and rings, arms RPC and LOOPS and sets RESTORED. -/
  | restoreComplete (p : Nat) (errs : List ReadErr)
  /-- R471: CKP_CTRL.PULL sends PULL to the buddy for a snapshot to be written raw into a Lake slot. `v` is the word
  written to CKP_CTRL. -/
  | ckpPull (r : RegReq) (p : Nat) (v : Word)
  /-- R464: A write of CKP_HOSTACK sets the matching LOCAL slot VERIFIED. -/
  | ckpHostack (r : RegReq) (p : Nat) (v : Word)
  /-- R465: A write to CKP mode, Lake or buddy configuration is accepted only when stopped and idle, else dropped
  with WR_REJECT. `off` within the CKP block. -/
  | ckpConfigWrite (r : RegReq) (p : Nat) (off : Nat) (v : Word)
  /-- R517: Setting a mailbox's CTRL.GO copies CMD and ARG, zeroes ARG and sets BUSY, or is dropped with REJECT
  while busy. The mailbox: 0 management, 1 KEY, 2 to 5 TKEY of VF1 to VF4. -/
  | mailboxGo (r : RegReq) (b : Nat)
  /-- R519: GET_INFO returns keeper version, layout, caller partition and free KIDs and slots. -/
  | getInfo
  /-- R519: SLOT_STATUS returns a slot's attributes within the caller's visibility. -/
  | slotStatus
  /-- R519: SESSION_KEK loads a WRAP slot from a live SPDM session's export master secret. -/
  | sessionKek
  /-- R501: IMPORT unwraps an AES-KW key into a slot, checking KCV and refusing general ENC slots. -/
  | importKey
  /-- R496: DERIVE loads a slot with a KDF output under a tenant label. -/
  | derive
  /-- R488: DERIVE_PAIR loads a memory KID pair from a DERIVE slot under SZT60-MEM. -/
  | derivePair
  /-- R519: REVOKE returns a slot, or both slots of a pair, to EMPTY. -/
  | revoke
  /-- R823: SET_LIMIT lowers a slot's SOFT and HARD limits, possibly exhausting it. -/
  | setLimit
  /-- R490: PART_REVOKE raises a partition's epoch and starts its removal. -/
  | partRevoke
  /-- R578: MORDANT_SHARE unwraps and holds one owner's share of a job's model key, making the partition joint when
  the count is 2 or more. -/
  | mordantShare
  /-- R520: MORDANT_DERIVE loads the model key from all held shares and zeroes them. -/
  | mordantDerive
  /-- R521: LAKE_BIND records the model-key slot, rank and job identity for the partition's snapshots. -/
  | lakeBind
  /-- R519: LAKE_KEY loads the snapshot pair for a SEQNO from the Lake binding. -/
  | lakeKey
  /-- R519: GET_IDENTITY returns root and identity status and identity certificate digests. -/
  | getIdentity
  /-- R499: An interposer slot reaching its soft limit makes the keeper derive and swap a fresh interface link key
  pair. -/
  | ifcRekey (k : Nat)
  /-- R516: After 2^20 requests the DRBG reseeds from the entropy source. -/
  | drbgReseed
  /-- R516: A health-test failure of the entropy source clears DRBG_OK. -/
  | entropyFail
  /-- R536: A trusted write to a region-table entry is accepted or dropped with a reason, and untrusted writes are
  counted. Word `w` (0 to 3) of entry `n`. -/
  | regionEntryWrite (r : RegReq) (p : Nat) (n : Nat) (w : Nat) (v : Word)
  /-- R544: A VF BAR2 request is admitted only with the T bit on the bound stream in RUN and passing the region
  check. A read of `len` bytes at offset `o`, or a write of `data`. -/
  | bar2Access (p : Nat) (trusted : Bool) (o : Nat) (len : Nat) (data : Option (List Byte)) (errs : List ReadErr)
  /-- R546: A TLP failing IDE integrity is discarded, the stream goes Insecure, the TDI enters ERROR and DMA work of
  the VF ends IDE_FAIL. Stream `k`. -/
  | ideIntegrityFail (k : Nat)
  /-- R542: IDE_KM over a secured SPDM session establishes keys of a selective IDE stream bound to a VF. In session
  `id`: stream `k` is set going with the stream ID `sid`, or stopped. -/
  | ideKm (p : Nat) (id : Nat) (k : Nat) (sid : Nat) (go : Bool)
  /-- R560: A write of PRT_LAYOUT while every partition is EMPTY raises epochs, rewrites maps, link slots and
  dynamic buffers. `v` is the word written to PRT_LAYOUT. -/
  | layoutWrite (r : RegReq) (v : Word)
  /-- R564: PRT_CTRL_n.ASSIGN on an EMPTY partition closes operator paths and wipes its memory and SRAM. -/
  | assign (r : RegReq) (p : Nat)
  /-- R564: After the wipes the partition's VF registers reset and it becomes READY. -/
  | admissionComplete (p : Nat)
  /-- R565: TDISP LOCK_INTERFACE_REQUEST on a READY partition with a secure stream locks the VF configuration and
  makes it LOCKED. -/
  | lockInterfaceRequest (p : Nat)
  /-- R566: TDISP START_INTERFACE_REQUEST with the right nonce makes a LOCKED partition ACTIVE. -/
  | startInterfaceRequest (p : Nat) (nonce : List Byte)
  /-- R570: TDISP STOP_INTERFACE_REQUEST starts removal of the partition. -/
  | stopInterfaceRequest (p : Nat)
  /-- R566: The keeper reports the VF's TEE-owned ranges. -/
  | getDeviceInterfaceReport (p : Nat)
  /-- R515: The keeper returns signed SPDM measurements 1 to 8. `idx` 0 asks for their number, 0xFF for all -/
  | getMeasurements (fn : Nat) (idx : Nat) (sig : Bool) (tr : List Byte)
  /-- R512: The keeper returns its ECDSA or ML-DSA certificate chain, or an SPDM error with the root lost. -/
  | getCertificate (fn : Nat) (slot : Nat)
  /-- R514: SPDM KEY_EXCHANGE with hybrid ECDH and ML-KEM opens a secured session, refusing ECDH alone. The ID of
  the session, whether the request holds the ML-KEM element, the export master secret, and the SHA-384 of the
  requester's leaf certificate or nothing. -/
  | keyExchange (fn : Nat) (id : Nat) (pq : Bool) (secret : List Byte) (cert : List Byte)
  /-- R582: The keeper answers the vendor-defined MORDANT_REPORT with the partition's share state, signed under both
  alias keys. In the session of that ID. -/
  | mordantReport (p : Nat) (id : Nat)
  /-- R684: An FLR of a VF or PF0 starts removals, resets function state and answers CRS until removals reach EMPTY. -/
  | functionLevelReset (fn : Nat)
  /-- R570: Clearing VF Enable in PF0's SR-IOV capability removes every non-EMPTY partition. -/
  | vfEnableClear
  /-- R571: After wipes and peer notice the region table clears, VF registers reset and the partition becomes EMPTY. -/
  | removalComplete (p : Nat)
  /-- R573: A received PARTITION_REMOVED notice clears the bound binding and sets TKEY_PEER_LOST. The sender's
  partition that was removed. -/
  | partitionRemovedNotice (n : Nat) (peer : Nat)
  /-- R601: A write of QUE_q_DB advances the tail or is rejected with DB_REJECT. Partition 0 stands for PF0, here
  and in the queue rows that follow. -/
  | queueDoorbell (r : RegReq) (p : Nat) (q : Nat) (v : Word)
  /-- R602: The command processor fetches the next queue entry and its command buffer, entering ERROR or ending
  FETCH_ERR on failure. The completions of the entry's read and of the command buffer's. -/
  | queueEntryFetch (p : Nat) (q : Nat) (entry : HostRead) (cb : HostRead)
  /-- R618: The command arbiter grants at most one eligible command buffer per PCLK cycle by weighted round robin. -/
  | cbGrant (p : Nat)
  /-- R604: A NOP packet completes at once. The next packet of the command buffer of entry index `seq` -/
  | pktNop (p : Nat) (q : Nat) (seq : Nat)
  /-- R605: A WAIT packet completes when its fence signals, or ends WAIT_ERROR on a fence with an error. -/
  | pktWait (p : Nat) (q : Nat) (seq : Nat)
  /-- R605: A SIGNAL packet signals its fence. -/
  | pktSignal (p : Nat) (q : Nat) (seq : Nat)
  /-- R605: A RESET packet returns its fence to unsignalled with error 0. -/
  | pktReset (p : Nat) (q : Nat) (seq : Nat)
  /-- R608: A DMA packet issues its descriptor to the queue's engine once a descriptor place is free. -/
  | pktDma (p : Nat) (q : Nat) (seq : Nat)
  /-- R615: A SEQ_RUN packet acts as RUN or CONT and completes when the sequencer next stops. -/
  | pktSeqRun (p : Nat) (q : Nat) (seq : Nat) (errs : List ReadErr)
  /-- R616: A REG_WRITE packet writes a ring producer or control register of the partition. -/
  | pktRegWrite (p : Nat) (q : Nat) (seq : Nat)
  /-- R617: A CC_LAUNCH packet hands a control-collective descriptor to the collective unit. -/
  | pktCcLaunch (p : Nat) (q : Nat) (seq : Nat)
  /-- R609: COPY_IN moves plaintext from host to memory under the destination KID. `host` is what host memory
  answers for LEN bytes at HOST. -/
  | dmaCopyIn (e : Nat) (host : HostRead) (errs : List ReadErr)
  /-- R609: COPY_OUT moves plaintext from memory to host. -/
  | dmaCopyOut (e : Nat) (errs : List ReadErr)
  /-- R507: GCM_IN decrypts and verifies host ciphertext into memory, zero-filling on tag failure. `host` is what
  host memory answers: the header, then the ciphertext. -/
  | dmaGcmIn (e : Nat) (host : HostRead) (errs : List ReadErr)
  /-- R506: GCM_OUT encrypts memory to host with a counter IV and returns IV and tag. `host` is the header that host
  memory answers. -/
  | dmaGcmOut (e : Nat) (host : HostRead) (errs : List ReadErr)
  /-- R508: XTS_IN decrypts whole 256-byte units from host into memory. `host` is what host memory answers for LEN
  bytes at HOST. -/
  | dmaXtsIn (e : Nat) (host : HostRead) (errs : List ReadErr)
  /-- R508: XTS_OUT encrypts memory to host in whole units. -/
  | dmaXtsOut (e : Nat) (errs : List ReadErr)
  /-- R611: LAKE_EXPORT copies raw records of a LOCAL or VERIFIED Lake slot to host. -/
  | dmaLakeExport (x : LakeExport)
  /-- R611: LAKE_IMPORT writes raw records into a Lake slot in ascending runs, making it FETCHED at the last. `host`
  is what host memory answers for LEN bytes at HOST. -/
  | dmaLakeImport (e : Nat) (host : HostRead)
  /-- R612: A DMA descriptor ends, writes its completion record and, with CW, the ring producer index. -/
  | dmaDescComplete (e : Nat)
  /-- R619: QUE_CANCEL.GO cancels a not-yet-granted command buffer or reports ALREADY_STARTED or NOT_FOUND. -/
  | queueCancel (r : RegReq) (p : Nat) (q : Nat)
  /-- R620: QUE_CTX_n.KILL disables the context's queues and ends their ungranted command buffers. -/
  | contextKill (r : RegReq) (p : Nat) (n : Nat)
  /-- R620: A write of QUE_q_CFG.EN=1 to an idle DISABLED queue resets head and tail and makes it RUNNING. -/
  | queueEnable (r : RegReq) (p : Nat) (q : Nat) (v : Word)
  /-- R635: A host write of FEN_F_n applies RESET then SIG under R622. -/
  | fenceWrite (r : RegReq) (p : Nat) (n : Nat) (v : Word)
  /-- R640: A feed below 44 V for 10 µs is lost, sets FEED_LOSS and the ideal-diode controller transfers load. Feed
  0 is `PWR_A`, 1 `PWR_B`. -/
  | feedLoss (f : Nat)
  /-- R640: A feed above 61 V for 1 µs is disconnected and sets FEED_OV. Feed 0 is `PWR_A`, 1 `PWR_B`. -/
  | feedOvervoltage (f : Nat)
  /-- R640: A disconnected feed reconnects after 100 ms at or below 59 V. Feed 0 is `PWR_A`, 1 `PWR_B`. -/
  | feedReconnect (f : Nat)
  /-- R644: Input below 45 V for 2 µs asserts SAG_WARN_N, lowers the envelope, taints steps, seals meters and holds
  gates and DMA. -/
  | sagWarn
  /-- R647: Input at or above 46 V for 1 ms ends the sag, releasing gates, DMA and meters. -/
  | sagEnd
  /-- R648: Input below 40 V for 1 µs resets every domain except the battery-backed one. -/
  | brownout
  /-- R649: Once per second VBAT is measured and VBAT_LOW set below 2.5 V. VBAT in mV. -/
  | vbatCheck (mv : Nat)
  /-- R650: Every 100 ms the mean input power is reported and energy accumulated. -/
  | powerReport
  /-- R662: A write of PWR_LIM_CTRL.MODE sets the mode and withdraws program requests unless locked. -/
  | limModeWrite (r : RegReq) (v : Word)
  /-- R662: MODE_LOCK withdraws program requests and fixes MODE until reset. The word written with `MODE_LOCK` 1. -/
  | limModeLock (r : RegReq) (v : Word)
  /-- R659: A write of FF_EN or FF_IDX takes effect as one V/F step at the next beat boundary. -/
  | fixedFreqWrite (r : RegReq) (v : Word)
  /-- R670: A write of PWR_CAP within 680–1,200 W takes effect at the next estimate, else is dropped with
  CAP_REJECT. -/
  | pwrCapWrite (r : RegReq) (v : Word)
  /-- R679: Main power applied starts a cold reset with cause 1. How long main power was absent, in ms. -/
  | powerOn (ms : Nat)
  /-- R679: PERST_N asserted starts a warm reset with cause 3. -/
  | perstAssert
  /-- R679: PCIe Hot Reset or DL_Down starts a warm reset with cause 4. -/
  | hotReset
  /-- R701: A keyed GLB_RST_CTRL.WARM write starts a warm reset with cause 5 or 6. -/
  | warmResetCmd (r : RegReq) (v : Word)
  /-- R701: A keyed GLB_RST_CTRL.MAINT write starts a maintenance reset with cause 9. -/
  | maintResetCmd (r : RegReq) (v : Word)
  /-- R682: Unserviced for 1 s after READY, the keeper watchdog starts a warm reset with cause 7. -/
  | keeperWatchdog
  /-- R688: The DRAM wipe of every READY stack completes and WIPE_DONE sets. `auth`: whether the
  repair store passed its check. -/
  | wipeDone (failed : ResetFailures) (auth : Bool)
  /-- R685: After wipe and image checks firmware starts, identity is derived and the boot ends NORMAL, SERVICE or
  RECOVERY with READY set. -/
  | bootReady
  /-- R691: A configuration request completes with CRS before READY and normally after. Kind 0 reads the dword at
  `v`, 1 writes Memory Space Enable of PF0, 2 writes VF Enable with NumVFs. -/
  | pcieConfigRequest (fn : Nat) (kind : Nat) (v : Nat)
  /-- R700: A PLDM firmware update transfers a component image to the inactive copy and marks it pending after
  verification. Requester `a` has transferred the complete file of a component. -/
  | pldmFwUpdate (a : Nat) (t : Nat) (file : List Byte)
  /-- R700: ActivateFirmware reports that activation needs a reset. -/
  | activateFirmware (a : Nat)
  /-- R713: A keyed LCS_TRANS write starts an accepted transition, stopping PF0 fetch and running the root step. -/
  | lifecycleTransition (r : RegReq) (v : Word)
  /-- R713: The codeword fuses are programmed and verified, then a warm reset with cause 8 follows. -/
  | fuseProgramComplete
  /-- R721: A keyed LCS_DEBUG write requests a debug level and resets the device into it where allowed. -/
  | debugLevelWrite (r : RegReq) (v : Word)
  /-- R723: LCS_CHAL_CTRL.GEN issues an unlock or completion challenge. The word written with `GEN` 1. -/
  | challengeGen (r : RegReq) (v : Word)
  /-- R725: LCS_CHAL_CTRL.SUBMIT verifies a signed response, spends a token and grants the level, or completes an
  INVALID transition. The word written with `SUBMIT` 1. -/
  | responseSubmit (r : RegReq) (v : Word)
  /-- R724: A challenge expires 10 minutes after issue. -/
  | challengeExpire
  /-- R725: The 1 s refusal of GEN after a failed signature ends. -/
  | genLockoutEnd
  /-- R733: A valid sync frame marks the frame boundary, carrying halt, heartbeat, failure, tray time and relay
  fields. The 22-byte body. -/
  | syncFrame (b : List Byte)
  /-- R734: A module frame from another slot is measured for drift and classified, and its drift report and
  announcements applied. In the slot of the module in tray slot `k`, `d` times 5 ns late. -/
  | moduleFrame (k : Nat) (b : List Byte) (d : Int)
  /-- R736: The device transmits its frame in its slot with heartbeat answer, drift report and announcements,
  checking for duplicates. `echo`: what the pair carried, where it differed -/
  | moduleFrameTransmit (echo : Option (List Byte)) (alien : Option (List Byte))
  /-- R736: Three missed sync frames set SYNC_LOSS and stop transmission. -/
  | syncLoss
  /-- R742: After 50 valid sync frames a muted device sends a RESYNC frame and unmutes if unreported. -/
  | resyncAligned
  /-- R742: MGT_TB_CTRL.RESYNC starts the mute and re-align sequence. `v` is the word written to MGT_TB_CTRL. -/
  | tbResyncCmd (r : RegReq) (v : Word)
  /-- R736: A write of MGT_HB_KICK records firmware liveness. -/
  | hbKick (r : RegReq)
  /-- R736: No MGT_HB_KICK for 100 ms stops tray-bus transmission. -/
  | hbKickTimeout
  /-- R750: A write of MGT_TIME_OFS_HI applies the whole global time offset. -/
  | timeOffsetWrite (r : RegReq) (v : Word)
  /-- R751: MGT_TPROBE_CTRL.GO sends TIME_PROBE on a port, latching t1. `v` is the word written to MGT_TPROBE_CTRL. -/
  | timeProbe (r : RegReq) (v : Word)
  /-- R751: A peer port receiving TIME_PROBE sends TIME_REPLY with t2 and t3 inserted. -/
  | timeProbeReceived (n : Nat)
  /-- R751: A received TIME_REPLY latches t4 and writes offset and delay. -/
  | timeReply (n : Nat) (t2 : Nat) (t3 : Nat) (replayed : Bool)
  /-- R751: No reply within 1 ms makes the probe invalid with TIMEOUT. -/
  | timeProbeTimeout
  /-- R753: I3C ENTDAA assigns the device a dynamic address. -/
  | entdaa (a : Nat)
  /-- R753: I3C SETDASA assigns a dynamic address from the static address. From the static address `st`. -/
  | setdasa (st : Nat) (a : Nat)
  /-- R754: A PLDM sensor request returns the named sensor's value or state. `a` is the requester's address. -/
  | getSensorReading (a : Nat) (id : Nat)
  /-- R755: PLDM SetEventReceiver sets where platform events are sent. -/
  | setEventReceiver (a : Nat) (rcv : Nat)
  /-- R755: PollForPlatformEventMessage returns a held platform event. -/
  | pollForPlatformEvent (a : Nat)
  /-- R757: The RTC reaching the period boundary closes the metering period. -/
  | meterCloseSchedule
  /-- R757: MTR_CTRL.CLOSE closes the metering period. `v` is the word written to MTR_CTRL. -/
  | meterCloseOperator (r : RegReq) (v : Word)
  /-- R759: The keeper seals and signs the closed period's record within 20 ms, keeping the last eight. -/
  | recordSeal
  /-- R761: A keyed MTR_RTC_CTRL.SET sets the RTC, logs the set and flags the open period. `v` is the word written
  to MTR_RTC_CTRL. -/
  | rtcSet (r : RegReq) (v : Word)
  /-- R773: A write of TDBG_CNT_CFG_k changes the counted event from the next cycle. -/
  | counterConfigWrite (r : RegReq) (p : Nat) (k : Nat) (v : Word)
  /-- R773: TDBG_CNT_CTRL.CLEAR clears every partition counter. The word written with `CLEAR` 1. -/
  | counterClear (r : RegReq) (p : Nat) (v : Word)
  /-- R779: DBG_SEPIA_CTRL.FREEZE freezes every ring. The word written with `FREEZE` 1. -/
  | deviceFreeze (r : RegReq) (v : Word)
  /-- R779: DBG_SEPIA_CTRL.THAW ends the device freeze. The word written with `THAW` 1. -/
  | deviceThaw (r : RegReq) (v : Word)
  /-- R779: TDBG_SEPIA_CTRL.FREEZE freezes the partition's rings. The word written with `FREEZE` 1. -/
  | partitionFreeze (r : RegReq) (p : Nat) (v : Word)
  /-- R779: TDBG_SEPIA_CTRL.THAW ends the partition freeze. The word written with `THAW` 1. -/
  | partitionThaw (r : RegReq) (p : Nat) (v : Word)
  /-- R782: DBG_DUMP_CTRL.GO writes OWNER 0 entries of frozen rings as plaintext to host. The word written with `GO`
  1. -/
  | operatorDump (r : RegReq) (v : Word)
  /-- R784: DBG_DUMP_CTRL.TENANTS starts sealed dumps of every partition with a valid dump configuration. The word
  written with `TENANTS` 1. -/
  | tenantDumps (r : RegReq) (v : Word)
  /-- R783: TDBG_DUMP_CTRL.GO writes the partition's entries sealed under its GCM slot. -/
  | tenantDump (r : RegReq) (p : Nat) (v : Word)
  /-- R785: A dump finishes writing and reports its outcome on its fence or status register. Dump 0 is the
  operator's -/
  | dumpComplete (n : Nat) (ok : Bool)
  /-- R790: An access to DBG_WIN_DATA reads or writes device memory keylessly or under the diagnostic pair. Dword
  `k` of the window -/
  | debugWindowAccess (r : RegReq) (k : Nat) (write : Bool) (v : Word) (errs : List ReadErr)
  /-- R800: Power-blade contact limits inrush until hold-up is charged and starts regulators after 10 ms at 46 V. -/
  | hotInsert
  /-- R691: Release of PERST_N ends the held warm reset, starts the reset sequence of R685 from t0 and begins PCIe
  link training within 20 ms, with configuration requests answered by CRS until READY. -/
  | perstRelease
  /-- R650: Every 1 ms the input monitor samples input power and the feed voltages, updating PWR_INPUT_V and the
  samples that the 100 ms report and the 10 ms calibration use. Input power in mW, feed voltages in units of 0.1 V. -/
  | inputSample (mw : Nat) (va : Nat) (vb : Nat)
  /-- R756: Every 1 ms the MEM meter of each partition that is not EMPTY rises by the partition's memory size in
  GiB. -/
  | meterMemTick
  /-- R283: A post-package row repair finishes, releasing its bank to the waiting transactions and recording the
  repair in the repair store. -/
  | rowRepairComplete (k : Nat) (row : Nat)
  /-- R755: The event receiver's response to a PlatformEventMessage acknowledges a held event, and MOD_ALERT_N
  deasserts once no held event is unacknowledged. -/
  | platformEventAck (id : Nat)
deriving DecidableEq, Repr

end Sys2Proof
end

