-- ==== Sys2Proof/Config.lean ====
section
/-! DEFINITION. What the spec leaves open: constants without a body. Nothing in Lean can evaluate one, so no statement
rests on its value. Each is named in a log entry. -/

namespace Sys2Proof.Config

/-- R265 fixes a Reed–Solomon code over GF(2^16) with three check symbols and gives no generator polynomial: the six
check bytes of a chunk's data bytes. -/
opaque eccSymbols : List Byte → List Byte

/-- R510: the unique secret *US* of the device's OTP. -/
opaque uniqueSecret : List Byte

/-- R510: the root secret *RS*, while it is intact. -/
opaque rootSecret : List Byte

/-- R516: the output of the keeper's random bit generator for its *n*-th request, as 64 bytes. -/
opaque drbg : Nat → List Byte

/-- R510, R512 and R514: the device's signature over a message under one of its key pairs, seeded by the first
argument, with the algorithm in the second (0 ECDSA P-384, 1 ML-DSA-87). -/
opaque sign : List Byte → Nat → List Byte → List Byte

/-- R512: a certificate of the chain of an algorithm: position in the chain, and the seed it certifies. -/
opaque certificate : Nat → Nat → List Byte → List Byte

/-- R693: the flash copies as the module ships: copy 0 or 1 of an image type, at 2 · type + copy. -/
opaque shipped : Nat → List Byte

/-- R694: whether a signature verifies under the Kilsudal image keys: algorithm (0 ECDSA P-384 over a digest, 1 ML-DSA-87), what is
signed, the signature. -/
opaque imageSig : Nat → List Byte → List Byte → Bool

/-- R724: whether a signature verifies under the Kilsudal service keys: as `imageSig`. -/
opaque serviceSig : Nat → List Byte → List Byte → Bool
/-- R723: the module serial of the OTP, 16 bytes; R595: subsystem vendor and ID. -/
opaque serial : List Byte
opaque subsystem : Word
/-- The version and the measurement of the mask boot ROM, which are fixed per metal revision (R515, R693). -/
opaque romVersion : Word
opaque romDigest : List Byte

/-- The secured form of an SPDM message on a port, and the message that a secured one holds: DSP0277 gives both (R380), the spec no
bytes. -/
opaque securedMessage : Nat → List Byte → List Byte
opaque openedMessage : Nat → List Byte → List Byte

/-- R542: what a message of a VF's IDE stream is on the connector: the stream, a number that no two messages share, and its data. The
spec gives no format of it, and the stream's keys reach the keeper inside a secured session. -/
opaque ideSealed : Nat → Nat → List Byte → List Byte

/-- A value that the spec leaves undefined or does not state: the purpose, and the operands it depends on. -/
opaque openValue : Nat → List Nat → Nat

end Sys2Proof.Config
end

