-- ==== Sys2Proof/Machine/Bits.lean ====
section
/-! DEFINITION. Bit fields, byte order (R12) and the sparse maps' read and write. -/

namespace Sys2Proof.Machine

/-- A field of a word: its lowest bit and its width. -/
structure Fld where
  lo : Nat
  width : Nat
deriving DecidableEq, Repr

/-- The value of bits [lo + width - 1 : lo] of a number. -/
def bitsOf (x lo width : Nat) : Nat := x / 2 ^ lo % 2 ^ width

/-- One bit of a number. -/
def bitOf (x k : Nat) : Bool := x / 2 ^ k % 2 == 1

def Fld.get (f : Fld) (w : Word) : Nat := bitsOf w.toNat f.lo f.width

/-- The word with the field set to `v` modulo its width and every other bit kept. -/
def Fld.put (f : Fld) (w : Word) (v : Nat) : Word :=
  BitVec.ofNat 32 (w.toNat / 2 ^ (f.lo + f.width) * 2 ^ (f.lo + f.width)
    + v % 2 ^ f.width * 2 ^ f.lo + w.toNat % 2 ^ f.lo)

/-- 1 for true, 0 for false. -/
def b2n (b : Bool) : Nat := if b then 1 else 0

/-- A count that holds at the largest value of `width` bits instead of wrapping. -/
def satAdd (width x d : Nat) : Nat := min (x + d) (2 ^ width - 1)

/-- Two's complement value of the low `width` bits of `x`. -/
def signed (width x : Nat) : Int :=
  let y := x % 2 ^ width
  if y < 2 ^ (width - 1) then y else (y : Int) - 2 ^ width

/-- The low `width` bits of an integer's two's complement form. -/
def unsigned (width : Nat) (x : Int) : Nat := (x % (2 ^ width : Int)).toNat

/-- Little-endian value of a list of bytes (R12). -/
def leNat : List Byte → Nat
  | [] => 0
  | b :: t => b.toNat + 256 * leNat t

/-- The `n` lowest bytes of a number, little-endian (R12). -/
def leBytes : Nat → Nat → List Byte
  | 0, _ => []
  | n + 1, x => BitVec.ofNat 8 x :: leBytes n (x / 256)

/-- Big-endian value of a list of bytes. -/
def beNat (l : List Byte) : Nat := leNat l.reverse

/-- The `n` lowest bytes of a number, most significant first. -/
def beBytes (n x : Nat) : List Byte := (leBytes n x).reverse

/-- `n` bytes of a list from position `k`, zero where the list has ended. -/
def sliceB (l : List Byte) (k n : Nat) : List Byte :=
  let x := (l.drop k).take n
  x ++ List.replicate (n - x.length) 0#8

/-- Value of `n` little-endian bytes from position `k` of a list. -/
def leAt (l : List Byte) (k n : Nat) : Nat := leNat ((l.drop k).take n)

/-- `l` with the bytes from position `k` replaced by `v`; its length is kept. -/
def patchB (l : List Byte) (k : Nat) (v : List Byte) : List Byte :=
  (l.take k ++ v ++ l.drop (k + v.length)).take l.length

/-- A list cut into pieces of `n`, at most `fuel` of them. -/
def chunksOf {α : Type} (n : Nat) : Nat → List α → List (List α)
  | 0, _ => []
  | _ + 1, [] => []
  | fuel + 1, l => l.take n :: chunksOf n fuel (l.drop n)

/-! The sparse maps. `d` is what an unlisted index reads as. -/

/-- Read index `k`. -/
def SMap.get {α : Type} (d : Nat → α) (m : SMap α) (k : Nat) : α :=
  match m with
  | [] => d k
  | (k', v) :: t => if k' = k then v else SMap.get d t k

/-- `m` without index `k`. -/
def SMap.erase {α : Type} (m : SMap α) (k : Nat) : SMap α :=
  match m with
  | [] => []
  | (k', v) :: t => if k' = k then SMap.erase t k else (k', v) :: SMap.erase t k

/-- `m`, which does not list `k`, with `k` entered before the first larger index. -/
def SMap.insert {α : Type} (k : Nat) (v : α) (m : SMap α) : SMap α :=
  match m with
  | [] => [(k, v)]
  | (k', v') :: t => if k < k' then (k, v) :: (k', v') :: t else (k', v') :: SMap.insert k v t

/-- Write `v` at index `k`. The value an unlisted index reads as is not listed. -/
def SMap.set {α : Type} [DecidableEq α] (d : Nat → α) (m : SMap α) (k : Nat) (v : α) : SMap α :=
  if v = d k then SMap.erase m k else SMap.insert k v (SMap.erase m k)

/-- Apply `f` to the value at index `k`. -/
def SMap.upd {α : Type} [DecidableEq α] (d : Nat → α) (m : SMap α) (k : Nat) (f : α → α) : SMap α :=
  SMap.set d m k (f (SMap.get d m k))

/-- Write a run of values from index `k` on. -/
def SMap.setRun {α : Type} [DecidableEq α] (d : Nat → α) (m : SMap α) (k : Nat) (l : List α) : SMap α :=
  match l with
  | [] => m
  | v :: t => SMap.setRun d (SMap.set d m k v) (k + 1) t

/-- Read `n` values from index `k` on. -/
def SMap.getRun {α : Type} (d : Nat → α) (m : SMap α) (k n : Nat) : List α :=
  (List.range n).map fun j => SMap.get d m (k + j)

/-- Every index in a window [lo, hi) back to what an unlisted index reads as. -/
def SMap.clear {α : Type} (m : SMap α) (lo hi : Nat) : SMap α :=
  m.filter fun e => e.1 < lo || hi ≤ e.1

/-- The entries whose index meets a test; every other index reads as an unlisted one. -/
def SMap.keep {α : Type} (m : SMap α) (f : Nat → Bool) : SMap α := m.filter fun e => f e.1

/-- The canonical form: strictly rising indices, and no value that an unlisted index reads as. -/
def SMap.wf {α : Type} [DecidableEq α] (d : Nat → α) (m : SMap α) : Bool :=
  match m with
  | [] => true
  | (k, v) :: t => decide (v ≠ d k) && t.all (fun e => decide (k < e.1)) && SMap.wf d t

end Sys2Proof.Machine
end

