-- ==== Sys2Proof/Machine/Crypto.lean ====
section
/-! DEFINITION. The ciphers and hashes the spec names, as functions on bytes: AES-128 and AES-256 (FIPS 197), GHASH and
GCM (SP 800-38D), XTS (IEEE 1619), AES-KW (SP 800-38F), SHA-384 (FIPS 180-4), HMAC and the key derivation of R496. -/

namespace Sys2Proof.Machine.Crypto

open Sys2Proof.Machine

/-- Multiplication by x in GF(2^8) with the AES polynomial. -/
def xtime (a : Nat) : Nat := if a < 128 then 2 * a else (2 * a) ^^^ 0x11B

/-- Product in GF(2^8), over the eight bits of `b`. -/
def gmul8 (a b : Nat) : Nat :=
  ((List.range 8).foldl (fun (acc : Nat × Nat) k =>
    (if bitOf b k then acc.1 ^^^ acc.2 else acc.1, xtime acc.2)) (0, a)).1

/-- The AES substitution box, packed with entry 0 in the lowest byte. -/
def sboxPacked : Nat :=
  0x16BB54B00F2D99416842E6BF0D89A18CDF2855CEE9871E9B948ED9691198F8E19E1DC186B95735610EF6034866B53E708A8BBD4B1F74DDE8C6B4A61C2E2578BA08AE7A65EAF4566CA94ED58D6D37C8E779E4959162ACD3C25C2406490A3A32E0DB0B5EDE14B8EE4688902A22DC4F816073195D643D7EA7C41744975FEC130CCDD2F3FF1021DAB6BCF5389D928F40A351A89F3C507F02F94585334D43FBAAEFD0CF584C4A39BECB6A5BB1FC20ED00D153842FE329B3D63B52A05A6E1B1A2C830975B227EBE28012079A059618C323C7041531D871F1E5A534CCF73F362693FDB7C072A49CAFA2D4ADF04759FA7DC982CA76ABD7FE2B670130C56F6BF27B777C63

/-- The inverse substitution box, packed likewise. -/
def invSboxPacked : Nat :=
  0x7D0C2155631469E126D677BA7E042B17619953833CBBEBC8B0F52AAE4D3BE0A0EF9CC9939F7AE52D0D4AB519A97F51605FEC8027591012B131C7078833A8DD1FF45ACD78FEC0DB9A2079D2C64B3E56FC1BBE18AA0E62B76F89C5291D711AF1476EDF751CE837F9E28535ADE72274AC9673E6B4F0CECFF297EADC674F4111913A6B8A130103BDAFC1020F3FCA8F1E2CD00645B3B80558E4F70AD3BC8C00ABD890849D8DA75746155EDAB9EDFD5048706C92B6655DCC5CA4D41698688664F6F87225D18B6D49A25B76B224D92866A12E084EC3FA420B954CEE3D23C2A632947B54CBE9DEC444438E3487FF2F9B8239E37CFBD7F3819EA340BF38A53630D56A0952

def subByte (b : Nat) : Nat := bitsOf sboxPacked (8 * b) 8
def invSubByte (b : Nat) : Nat := bitsOf invSboxPacked (8 * b) 8

/-- One step of the key schedule: the next word from word i−1 and word i−Nk (words as lists of four bytes). -/
def nextKeyWord (nk i rcon : Nat) (prev back : List Nat) : List Nat :=
  let t :=
    if i % nk = 0 then
      match prev with
      | [a, b, c, d] => [subByte b ^^^ rcon, subByte c, subByte d, subByte a]
      | _ => prev
    else if nk > 6 && i % nk == 4 then prev.map subByte
    else prev
  List.zipWith (· ^^^ ·) t back

/-- The key schedule, newest word first. -/
def expandLoop (nk : Nat) : Nat → Nat → Nat → List (List Nat) → List (List Nat)
  | 0, _, _, ws => ws
  | fuel + 1, i, rcon, ws =>
    let w := nextKeyWord nk i rcon (ws.getD 0 []) (ws.getD (nk - 1) [])
    expandLoop nk fuel (i + 1) (if i % nk = 0 then xtime rcon else rcon) (w :: ws)

/-- The round keys of a 16-byte or 32-byte key, in order, 16 bytes each. -/
def roundKeys (key : List Nat) : List (List Nat) :=
  let nk := key.length / 4
  let words := chunksOf 4 nk key
  let ws := (expandLoop nk (4 * (nk + 7) - nk) nk 1 words.reverse).reverse
  (chunksOf 4 (nk + 7) ws).map List.flatten

def shiftRows (s : List Nat) : List Nat := [0, 5, 10, 15, 4, 9, 14, 3, 8, 13, 2, 7, 12, 1, 6, 11].map fun i => s.getD i 0
def invShiftRows (s : List Nat) : List Nat := [0, 13, 10, 7, 4, 1, 14, 11, 8, 5, 2, 15, 12, 9, 6, 3].map fun i => s.getD i 0

def mixColumn (c : List Nat) : List Nat :=
  match c with
  | [a, b, c, d] =>
    [xtime a ^^^ xtime b ^^^ b ^^^ c ^^^ d, a ^^^ xtime b ^^^ xtime c ^^^ c ^^^ d,
     a ^^^ b ^^^ xtime c ^^^ xtime d ^^^ d, xtime a ^^^ a ^^^ b ^^^ c ^^^ xtime d]
  | _ => c

def invMixColumn (c : List Nat) : List Nat :=
  match c with
  | [a, b, c, d] =>
    [gmul8 a 14 ^^^ gmul8 b 11 ^^^ gmul8 c 13 ^^^ gmul8 d 9, gmul8 a 9 ^^^ gmul8 b 14 ^^^ gmul8 c 11 ^^^ gmul8 d 13,
     gmul8 a 13 ^^^ gmul8 b 9 ^^^ gmul8 c 14 ^^^ gmul8 d 11, gmul8 a 11 ^^^ gmul8 b 13 ^^^ gmul8 c 9 ^^^ gmul8 d 14]
  | _ => c

def mixColumns (f : List Nat → List Nat) (s : List Nat) : List Nat := ((chunksOf 4 4 s).map f).flatten

def addKey (s k : List Nat) : List Nat := List.zipWith (· ^^^ ·) s k

def encRounds : List (List Nat) → List Nat → List Nat
  | [], s => s
  | [k], s => addKey (shiftRows (s.map subByte)) k
  | k :: t, s => encRounds t (addKey (mixColumns mixColumn (shiftRows (s.map subByte))) k)

def decRounds : List (List Nat) → List Nat → List Nat
  | [], s => s
  | [k], s => addKey ((invShiftRows s).map invSubByte) k
  | k :: t, s => decRounds t (mixColumns invMixColumn (addKey ((invShiftRows s).map invSubByte) k))

/-- AES encryption of one block under the round keys of `roundKeys`. -/
def aesEncRK (rk : List (List Nat)) (block : List Nat) : List Nat :=
  match rk with
  | [] => block
  | k :: t => encRounds t (addKey block k)

def aesDecRK (rk : List (List Nat)) (block : List Nat) : List Nat :=
  match rk.reverse with
  | [] => block
  | k :: t => decRounds t (addKey block k)

def toNats (l : List Byte) : List Nat := l.map BitVec.toNat
def toBytes (l : List Nat) : List Byte := l.map (BitVec.ofNat 8)

def aesEnc (key block : List Byte) : List Byte := toBytes (aesEncRK (roundKeys (toNats key)) (toNats block))
def aesDec (key block : List Byte) : List Byte := toBytes (aesDecRK (roundKeys (toNats key)) (toNats block))

/-! GHASH and GCM. A block is a number of 128 bits whose most significant bit is the first bit of the block. -/

/-- Product in GF(2^128) as SP 800-38D defines it. -/
def gf128Loop : Nat → Nat → Nat → Nat → Nat → Nat
  | 0, _, _, _, z => z
  | k + 1, x, v, r, z =>
    gf128Loop k x (if v % 2 = 1 then (v / 2) ^^^ r else v / 2) r (if bitOf x k then z ^^^ v else z)

def gf128Mul (x y : Nat) : Nat := gf128Loop 128 x y (0xE1 * 2 ^ 120) 0

def ghashBlocks (h : Nat) (blocks : List Nat) : Nat := blocks.foldl (fun y b => gf128Mul (y ^^^ b) h) 0

/-- A message cut into 16-byte blocks, the last padded with zeros. -/
def padBlocks (l : List Byte) : List Nat :=
  (chunksOf 16 (l.length / 16 + 1) l).map fun c => beNat (c ++ List.replicate (16 - c.length) 0#8)

/-- GHASH_H(A || C || lengths). -/
def ghash (h : Nat) (aad c : List Byte) : Nat :=
  ghashBlocks h (padBlocks aad ++ padBlocks c ++ [aad.length * 8 * 2 ^ 64 + c.length * 8])

/-- The keystream blocks of GCM's counter mode from counter `ctr` on. -/
def ctrStream (rk : List (List Nat)) (iv : Nat) : Nat → Nat → List Nat
  | 0, _ => []
  | n + 1, ctr => aesEncRK rk (toNats (beBytes 16 (iv * 2 ^ 32 + ctr % 2 ^ 32))) ++ ctrStream rk iv n (ctr + 1)

def xorBytes (a b : List Byte) : List Byte := List.zipWith (· ^^^ ·) a b

/-- GCM's counter-mode part: the same operation encrypts and decrypts. -/
def gcmCrypt (key iv msg : List Byte) : List Byte :=
  xorBytes msg (toBytes (ctrStream (roundKeys (toNats key)) (beNat iv) ((msg.length + 15) / 16) 2))

/-- GCM's 16-byte tag over the additional data and the ciphertext. -/
def gcmTag (key iv aad cipher : List Byte) : List Byte :=
  let rk := roundKeys (toNats key)
  let h := beNat (toBytes (aesEncRK rk (List.replicate 16 0)))
  let e := beNat (toBytes (aesEncRK rk (toNats (beBytes 16 (beNat iv * 2 ^ 32 + 1)))))
  beBytes 16 (ghash h aad cipher ^^^ e)

/-! XTS. -/

/-- Multiplication of the tweak by x (IEEE 1619), the tweak read as a little-endian number. -/
def xtsNext (t : Nat) : Nat := if t < 2 ^ 127 then 2 * t else (2 * t) % 2 ^ 128 ^^^ 0x87

def xtsLoop (f : List Nat → List Nat) (blocks : List (List Byte)) (t : Nat) : List Byte :=
  match blocks with
  | [] => []
  | b :: rest =>
    let m := leBytes 16 t
    xorBytes (toBytes (f (toNats (xorBytes b m)))) m ++ xtsLoop f rest (xtsNext t)

/-- XTS over whole blocks: data key, tweak key, data-unit number (as a 128-bit little-endian value, R266 and R508). -/
def xtsEnc (dataKey tweakKey : List Byte) (unit : Nat) (msg : List Byte) : List Byte :=
  xtsLoop (aesEncRK (roundKeys (toNats dataKey))) (chunksOf 16 (msg.length / 16) msg)
    (leNat (aesEnc tweakKey (leBytes 16 unit)))

def xtsDec (dataKey tweakKey : List Byte) (unit : Nat) (msg : List Byte) : List Byte :=
  xtsLoop (aesDecRK (roundKeys (toNats dataKey))) (chunksOf 16 (msg.length / 16) msg)
    (leNat (aesEnc tweakKey (leBytes 16 unit)))

/-! SHA-384. -/

def m64 : Nat := 18446744073709551616
def rotr64 (x n : Nat) : Nat := x / 2 ^ n + (x % 2 ^ n) * 2 ^ (64 - n)

/-- The 80 round constants of SHA-512. -/
def shaK : List Nat := [
  0x428A2F98D728AE22, 0x7137449123EF65CD, 0xB5C0FBCFEC4D3B2F, 0xE9B5DBA58189DBBC,
  0x3956C25BF348B538, 0x59F111F1B605D019, 0x923F82A4AF194F9B, 0xAB1C5ED5DA6D8118,
  0xD807AA98A3030242, 0x12835B0145706FBE, 0x243185BE4EE4B28C, 0x550C7DC3D5FFB4E2,
  0x72BE5D74F27B896F, 0x80DEB1FE3B1696B1, 0x9BDC06A725C71235, 0xC19BF174CF692694,
  0xE49B69C19EF14AD2, 0xEFBE4786384F25E3, 0x0FC19DC68B8CD5B5, 0x240CA1CC77AC9C65,
  0x2DE92C6F592B0275, 0x4A7484AA6EA6E483, 0x5CB0A9DCBD41FBD4, 0x76F988DA831153B5,
  0x983E5152EE66DFAB, 0xA831C66D2DB43210, 0xB00327C898FB213F, 0xBF597FC7BEEF0EE4,
  0xC6E00BF33DA88FC2, 0xD5A79147930AA725, 0x06CA6351E003826F, 0x142929670A0E6E70,
  0x27B70A8546D22FFC, 0x2E1B21385C26C926, 0x4D2C6DFC5AC42AED, 0x53380D139D95B3DF,
  0x650A73548BAF63DE, 0x766A0ABB3C77B2A8, 0x81C2C92E47EDAEE6, 0x92722C851482353B,
  0xA2BFE8A14CF10364, 0xA81A664BBC423001, 0xC24B8B70D0F89791, 0xC76C51A30654BE30,
  0xD192E819D6EF5218, 0xD69906245565A910, 0xF40E35855771202A, 0x106AA07032BBD1B8,
  0x19A4C116B8D2D0C8, 0x1E376C085141AB53, 0x2748774CDF8EEB99, 0x34B0BCB5E19B48A8,
  0x391C0CB3C5C95A63, 0x4ED8AA4AE3418ACB, 0x5B9CCA4F7763E373, 0x682E6FF3D6B2B8A3,
  0x748F82EE5DEFB2FC, 0x78A5636F43172F60, 0x84C87814A1F0AB72, 0x8CC702081A6439EC,
  0x90BEFFFA23631E28, 0xA4506CEBDE82BDE9, 0xBEF9A3F7B2C67915, 0xC67178F2E372532B,
  0xCA273ECEEA26619C, 0xD186B8C721C0C207, 0xEADA7DD6CDE0EB1E, 0xF57D4F7FEE6ED178,
  0x06F067AA72176FBA, 0x0A637DC5A2C898A6, 0x113F9804BEF90DAE, 0x1B710B35131C471B,
  0x28DB77F523047D84, 0x32CAAB7B40C72493, 0x3C9EBE0A15C9BEBC, 0x431D67C49C100D4C,
  0x4CC5D4BECB3E42B6, 0x597F299CFC657E2A, 0x5FCB6FAB3AD6FAEC, 0x6C44198C4A475817]

def shaInit : List Nat := [
  0xCBBB9D5DC1059ED8, 0x629A292A367CD507, 0x9159015A3070DD17, 0x152FECD8F70E5939,
  0x67332667FFC00B31, 0x8EB44A8768581511, 0xDB0C2E0D64F98FA7, 0x47B5481DBEFA4FA4]

/-- The message schedule, newest word first. -/
def shaSchedule : Nat → List Nat → List Nat
  | 0, ws => ws
  | fuel + 1, ws =>
    let w2 := ws.getD 1 0
    let w7 := ws.getD 6 0
    let w15 := ws.getD 14 0
    let w16 := ws.getD 15 0
    let s0 := rotr64 w15 1 ^^^ rotr64 w15 8 ^^^ w15 / 2 ^ 7
    let s1 := rotr64 w2 19 ^^^ rotr64 w2 61 ^^^ w2 / 2 ^ 6
    shaSchedule fuel ((w16 + s0 + w7 + s1) % m64 :: ws)

def shaRound (st : List Nat) (kw : Nat × Nat) : List Nat :=
  match st with
  | [a, b, c, d, e, f, g, h] =>
    let s1 := rotr64 e 14 ^^^ rotr64 e 18 ^^^ rotr64 e 41
    let ch := (e &&& f) ^^^ ((m64 - 1 - e) &&& g)
    let t1 := h + s1 + ch + kw.1 + kw.2
    let s0 := rotr64 a 28 ^^^ rotr64 a 34 ^^^ rotr64 a 39
    let mj := (a &&& b) ^^^ (a &&& c) ^^^ (b &&& c)
    [(t1 + s0 + mj) % m64, a, b, c, (d + t1) % m64, e, f, g]
  | _ => st

def shaBlock (st : List Nat) (block : List Byte) : List Nat :=
  let w := (chunksOf 8 16 block).map beNat
  let ws := (shaSchedule 64 w.reverse).reverse
  let r := (shaK.zip ws).foldl shaRound st
  List.zipWith (fun x y => (x + y) % m64) st r

/-- SHA-384 of a list of bytes: 48 bytes. -/
def sha384 (msg : List Byte) : List Byte :=
  let n := msg.length
  let pad := (128 - (n + 17) % 128) % 128
  let m := msg ++ 0x80#8 :: (List.replicate pad 0#8 ++ beBytes 16 (8 * n))
  (((chunksOf 128 (m.length / 128) m).foldl shaBlock shaInit).flatMap (beBytes 8)).take 48

/-- HMAC-SHA-384. -/
def hmac384 (key msg : List Byte) : List Byte :=
  let k0 := if key.length > 128 then sha384 key else key
  let k := k0 ++ List.replicate (128 - k0.length) 0#8
  sha384 (k.map (· ^^^ 0x5C#8) ++ sha384 (k.map (· ^^^ 0x36#8) ++ msg))

/-- R496: the derivation of `bits` bits (a multiple of 8) from a source key, a label in ASCII and a context. -/
def kdf (key label context : List Byte) (bits : Nat) : List Byte :=
  let block (i : Nat) := hmac384 key (beBytes 4 i ++ label ++ [0#8] ++ context ++ beBytes 4 bits)
  (((List.range ((bits + 383) / 384)).flatMap fun i => block (i + 1))).take (bits / 8)

/-! AES-KW unwrap (SP 800-38F): six passes over the four registers of a 40-byte ciphertext. -/

/-- One unwrapping step with step number `t`: A and the last register R in, A and the new R out. -/
def kwStep (rk : List (List Nat)) (a r t : Nat) : Nat × Nat :=
  let b := beNat (toBytes (aesDecRK rk (toNats (beBytes 16 ((a ^^^ t) * 2 ^ 64 + r)))))
  (b / 2 ^ 64, b % 2 ^ 64)

/-- Steps t = 4·6 down to 1 over the registers held last-used first. -/
def kwLoop (rk : List (List Nat)) : Nat → Nat → List Nat → Nat × List Nat
  | 0, a, rs => (a, rs)
  | t + 1, a, rs =>
    let last := rs.getLastD 0
    let (a', r') := kwStep rk a last (t + 1)
    kwLoop rk t a' (r' :: rs.dropLast)

/-- R501: the 32-byte key in a 40-byte AES-KW ciphertext, or none where the integrity check fails. -/
def kwUnwrap (kek wrapped : List Byte) : Option (List Byte) :=
  match (chunksOf 8 5 wrapped).map beNat with
  | [a, r1, r2, r3, r4] =>
    let (a', rs) := kwLoop (roundKeys (toNats kek)) 24 a [r1, r2, r3, r4]
    if a' = 0xA6A6A6A6A6A6A6A6 then some (rs.flatMap (beBytes 8)) else none
  | _ => none

/-! CRC-32 of IEEE 802.3 (R357). -/

def crcStep (c : Nat) : Nat := if c % 2 = 1 then c / 2 ^^^ 0xEDB88320 else c / 2
def crcByte (c : Nat) (b : Byte) : Nat :=
  crcStep (crcStep (crcStep (crcStep (crcStep (crcStep (crcStep (crcStep (c ^^^ b.toNat))))))))
def crc32 (l : List Byte) : Nat := l.foldl crcByte 0xFFFFFFFF ^^^ 0xFFFFFFFF

end Sys2Proof.Machine.Crypto
end

