-- ==== Sys2Proof/Machine/Formats.lean ====
section
/-! DEFINITION. The number formats of R63 to R68, rounding (R83 to R85), conversion (R72, R90 to R95) and binary32
arithmetic (R81, R82). Values are computed exactly and rounded once. -/

namespace Sys2Proof.Machine

/-- The value of an encoding: NaN, an infinity, or (−1)^neg · man · 2^exp. -/
inductive FVal where
  | nan
  | inf (neg : Bool)
  | fin (neg : Bool) (man : Nat) (exp : Int)
deriving DecidableEq, Repr

def FVal.zero : FVal := .fin false 0 0

/-- Inf or NaN: what raises the non-finite flag (R93). -/
def FVal.nonFinite : FVal → Bool
  | .fin _ _ _ => false
  | _ => true

/-- The value as an exact dyadic number, 0 where it is not finite. -/
def FVal.dyadic : FVal → Int × Int
  | .fin neg man exp => (if neg then -(man : Int) else man, exp)
  | _ => (0, 0)

/-- How a narrowing rounds: to nearest with ties to even (R84), or stochastically with a 16-bit draw (R85). -/
inductive RMode where
  | rne
  | sr (r : Nat)
deriving DecidableEq, Repr

/-- The exact quotient num/den rounded to an integer. -/
def roundDiv (m : RMode) (num den : Nat) : Nat :=
  let n := num / den
  let rest := num % den
  match m with
  | .rne => if 2 * rest < den then n else if den < 2 * rest then n + 1 else if n % 2 = 0 then n else n + 1
  | .sr r => if r < rest * 65536 / den then n + 1 else n

/-- `x · 2^k` over `2^(−k)`: a numerator and a denominator. -/
def scale2 (num den : Nat) (k : Int) : Nat × Nat :=
  if 0 ≤ k then (num * 2 ^ k.toNat, den) else (num, den * 2 ^ (-k).toNat)

/-- floor(log2(num/den)) for positive num and den. -/
def floorLog2 (num den : Nat) : Int :=
  let l : Int := (Nat.log2 num : Int) - Nat.log2 den
  let (a, b) := scale2 num den (-l)
  if a < b then l - 1 else l

/-- Round the positive value num/den · 2^e to `prec` significant bits, the spacing never below 2^qmin: the integer
count of units, and the unit's exponent. -/
def roundSig (m : RMode) (prec : Nat) (qmin : Int) (num den : Nat) (e : Int) : Nat × Int :=
  let u := max (floorLog2 num den + e - (prec - 1 : Nat)) qmin
  let (a, b) := scale2 num den (e - u)
  (roundDiv m a b, u)

/-- A floating-point element format: fraction width, exponent width, bias. -/
structure FloatFmt where
  mb : Nat
  eb : Nat
  bias : Nat
deriving DecidableEq, Repr

def FloatFmt.qmin (f : FloatFmt) : Int := 1 - (f.bias : Int) - f.mb
def FloatFmt.signBit (f : FloatFmt) : Nat := 2 ^ (f.mb + f.eb)

/-- The exponent and fraction bits of n units of 2^u, as `roundSig` gives them (the carry of a full significand runs
into the exponent field by itself). -/
def FloatFmt.pack (f : FloatFmt) (n : Nat) (u : Int) : Nat :=
  if n < 2 ^ f.mb then n else (u - f.qmin + 1).toNat * 2 ^ f.mb + (n - 2 ^ f.mb)

/-- Exponent field and fraction of a code read as a value with no special encodings. -/
def FloatFmt.finite (f : FloatFmt) (c : Nat) : FVal :=
  let e := c / 2 ^ f.mb % 2 ^ f.eb
  let m := c % 2 ^ f.mb
  let neg := bitOf c (f.mb + f.eb)
  if e = 0 then .fin neg m f.qmin else .fin neg (2 ^ f.mb + m) (f.qmin + e - 1)

/-- An IEEE 754 code: the largest exponent field holds infinities and NaN (R64, and E5M2 of R65). -/
def FloatFmt.ieee (f : FloatFmt) (c : Nat) : FVal :=
  if c / 2 ^ f.mb % 2 ^ f.eb = 2 ^ f.eb - 1 then
    if c % 2 ^ f.mb = 0 then .inf (bitOf c (f.mb + f.eb)) else .nan
  else f.finite c

def fmt32 : FloatFmt := ⟨23, 8, 127⟩
def fmt16 : FloatFmt := ⟨10, 5, 15⟩
def fmtBf16 : FloatFmt := ⟨7, 8, 127⟩
def fmtE4M3 : FloatFmt := ⟨3, 4, 7⟩
def fmtE5M2 : FloatFmt := ⟨2, 5, 15⟩
def fmtE3M2 : FloatFmt := ⟨2, 3, 3⟩
def fmtE2M3 : FloatFmt := ⟨3, 2, 1⟩
def fmtE2M1 : FloatFmt := ⟨1, 2, 1⟩

/-! ## binary32 -/

def qnan32 : Nat := 0x7FC00000
def inf32 (neg : Bool) : Nat := if neg then 0xFF800000 else 0x7F800000
def zero32 (neg : Bool) : Nat := if neg then 0x80000000 else 0

/-- The value of a binary32 code (R64, R67). -/
def val32 (c : Nat) : FVal := fmt32.ieee (c % 2 ^ 32)

/-- rne32 of the positive value num/den · 2^e with a sign. -/
def round32 (neg : Bool) (num den : Nat) (e : Int) : Nat :=
  if num = 0 then zero32 neg else
  let (n, u) := roundSig .rne 24 (-149) num den e
  let c := fmt32.pack n u
  zero32 neg + min c 0x7F800000

/-- rne32 of a value: NaN becomes the canonical NaN (R67). -/
def enc32 (v : FVal) : Nat :=
  match v with
  | .nan => qnan32
  | .inf neg => inf32 neg
  | .fin neg man exp => round32 neg man 1 exp

/-- rne32 of an exact dyadic number; an exact zero is +0 (R81). -/
def encDyadic (d : Int × Int) : Nat :=
  round32 (d.1 < 0) d.1.natAbs 1 d.2

/-- Exact sum of two dyadic numbers. -/
def dyAdd (a b : Int × Int) : Int × Int :=
  let e := min a.2 b.2
  (a.1 * 2 ^ (a.2 - e).toNat + b.1 * 2 ^ (b.2 - e).toNat, e)

/-- The sum of two values before rounding. -/
def FVal.add (a b : FVal) : FVal :=
  match a, b with
  | .nan, _ => .nan
  | _, .nan => .nan
  | .inf x, .inf y => if x = y then .inf x else .nan
  | .inf x, _ => .inf x
  | _, .inf y => .inf y
  | .fin x m e, .fin y k g =>
    if m = 0 ∧ k = 0 then .fin (x && y) 0 0
    else
      let d := dyAdd (FVal.fin x m e).dyadic (FVal.fin y k g).dyadic
      .fin (d.1 < 0) d.1.natAbs d.2

def FVal.neg : FVal → FVal
  | .nan => .nan
  | .inf x => .inf (!x)
  | .fin x m e => .fin (!x) m e

def FVal.sign : FVal → Bool
  | .nan => false
  | .inf x => x
  | .fin x _ _ => x

def FVal.isZero : FVal → Bool
  | .fin _ 0 _ => true
  | _ => false

/-- The product of two values before rounding. An infinity or a NaN times anything is as in R82: NaN with a zero. R75's +0
of a zero operand is a term of an *exact* sum, which has none of these; for an 8-bit class element of Inf or NaN beside a zero
the spec states no product (DESIGN CHOICE, log 42). -/
def FVal.mul (a b : FVal) : FVal :=
  match a, b with
  | .nan, _ => .nan
  | _, .nan => .nan
  | .inf x, y => if y.isZero then .nan else .inf (x != y.sign)
  | x, .inf y => if x.isZero then .nan else .inf (x.sign != y)
  | .fin x m e, .fin y k g => .fin (x != y) (m * k) (e + g)

/-- 2^k times a value. -/
def FVal.shift (a : FVal) (k : Int) : FVal :=
  match a with
  | .fin x m e => .fin x m (e + k)
  | v => v

/-- Exact order of two values that are not NaN: a < b. -/
def FVal.lt (a b : FVal) : Bool :=
  match a, b with
  | .nan, _ => false
  | _, .nan => false
  | .inf x, .inf y => x && !y
  | .inf x, _ => x
  | _, .inf y => !y
  | x, y =>
    let d := dyAdd x.dyadic (y.neg.dyadic)
    d.1 < 0

def add32 (a b : Nat) : Nat := enc32 ((val32 a).add (val32 b))
def sub32 (a b : Nat) : Nat := enc32 ((val32 a).add (val32 b).neg)
def mul32 (a b : Nat) : Nat := enc32 ((val32 a).mul (val32 b))
/-- a · b + c with one rounding (R82). -/
def fma32 (a b c : Nat) : Nat := enc32 (((val32 a).mul (val32 b)).add (val32 c))

/-- Correctly rounded quotient (R82). -/
def div32 (a b : Nat) : Nat :=
  match val32 a, val32 b with
  | .nan, _ => qnan32
  | _, .nan => qnan32
  | .inf _, .inf _ => qnan32
  | .inf x, y => inf32 (x != y.sign)
  | x, .inf y => zero32 (x.sign != y)
  | .fin x m e, .fin y k g =>
    if k = 0 then (if m = 0 then qnan32 else inf32 (x != y))
    else round32 (x != y) m k (e - g)

/-- Correctly rounded square root of the positive value num/den · 2^e: two more bits than binary32 holds, with the
discarded rest kept as a sticky bit. -/
def sqrtRound (num den : Nat) (e : Int) : Nat :=
  let sh : Int := 2 * ((floorLog2 num den + e) / 2 - 30)
  let (a, b) := scale2 num den (e - sh)
  let r := Nat.sqrt (a / b)
  let sticky := if r * r * b = a then 0 else 1
  round32 false (2 * r + sticky) 2 (sh / 2)

/-- Correctly rounded square root (R82). -/
def sqrt32 (a : Nat) : Nat :=
  match val32 a with
  | .nan => qnan32
  | .inf x => if x then qnan32 else inf32 false
  | .fin x m e => if m = 0 then zero32 x else if x then qnan32 else sqrtRound m 1 e

/-- R222: the maximum, −0 below +0, a NaN operand giving the canonical NaN. -/
def max32 (a b : Nat) : Nat :=
  match val32 a, val32 b with
  | .nan, _ => qnan32
  | _, .nan => qnan32
  | x, y => if x.isZero && y.isZero then zero32 (x.sign && y.sign) else if x.lt y then enc32 y else enc32 x

/-- R222: the minimum. -/
def min32 (a b : Nat) : Nat :=
  match val32 a, val32 b with
  | .nan, _ => qnan32
  | _, .nan => qnan32
  | x, y => if x.isZero && y.isZero then zero32 (x.sign || y.sign) else if x.lt y then enc32 x else enc32 y

/-- Whether a binary32 result is Inf or NaN (R93). -/
def nf32 (a : Nat) : Bool := (val32 a).nonFinite

def one32 : Nat := 0x3F800000

/-! ## Format codes (R63) -/

/-- A format table as `FMT_TBL_HDR_n` and `FMT_TBL_ENT_n_w` hold it (R74): its entries' bytes and its exponent
offset. -/
structure FmtTable where
  valid : Bool
  wide : Bool
  xoff : Int
  ents : List Nat
deriving DecidableEq, Repr

/-- An element format, with its table where it is a table format. -/
inductive Fmt where
  | f32 | f16 | bf16 | e4m3 | e5m2 | e3m2 | e2m3 | e2m1 | i8 | i4
  | tbl (t : FmtTable)
deriving DecidableEq, Repr

/-- The format of a code (R63), given the partition's tables; none for an undefined encoding. -/
def fmtOf (tables : Nat → FmtTable) (code : Nat) : Option Fmt :=
  match code with
  | 0 => some .f32 | 1 => some .f16 | 2 => some .bf16 | 3 => some .e4m3 | 4 => some .e5m2 | 5 => some .e3m2
  | 6 => some .e2m3 | 7 => some .e2m1 | 8 => some .i8 | 9 => some .i4
  | c => if 16 ≤ c ∧ c < 32 then some (.tbl (tables (c - 16))) else none

/-- Element width in bits. -/
def Fmt.bits : Fmt → Nat
  | .f32 => 32 | .f16 => 16 | .bf16 => 16 | .e4m3 => 8 | .e5m2 => 8 | .e3m2 => 6 | .e2m3 => 6 | .e2m1 => 4
  | .i8 => 8 | .i4 => 4
  | .tbl t => if t.wide then 6 else 4

/-- Whether the format carries block scales (R63). -/
def Fmt.scaled : Fmt → Bool
  | .e4m3 | .e5m2 | .e3m2 | .e2m3 | .e2m1 | .tbl _ => true
  | _ => false

/-- Magnitude field and sign of a table entry's byte (R74). -/
def entMag (b : Nat) : Nat := b % 64
def entNeg (b : Nat) : Bool := bitOf b 7

/-- The value of a table entry; sign 1 with magnitude 0 decodes as zero (R75). -/
def entVal (t : FmtTable) (b : Nat) : FVal := .fin (entNeg b && entMag b != 0) (entMag b) t.xoff

/-- The value of an element's code, before its block's scale (R65, R66, R74, R78). -/
def Fmt.decode (f : Fmt) (c : Nat) : FVal :=
  match f with
  | .f32 => val32 c
  | .f16 => fmt16.ieee c
  | .bf16 => fmtBf16.ieee c
  | .e4m3 => if c % 128 = 127 then .nan else fmtE4M3.finite c
  | .e5m2 => fmtE5M2.ieee c
  | .e3m2 => fmtE3M2.finite c
  | .e2m3 => fmtE2M3.finite c
  | .e2m1 => fmtE2M1.finite c
  | .i8 => let v := signed 8 c; .fin (v < 0) v.natAbs 0
  | .i4 => let v := signed 4 c; .fin (v < 0) v.natAbs 0
  | .tbl t => if t.valid then entVal t (t.ents.getD c 0) else .zero

/-- The value of an element under its block's scale code (R68). Scale code 0xFF makes the element NaN also where the table is
not valid, though R78 alone would read it as +0 (DESIGN CHOICE, log 42). -/
def Fmt.decodeScaled (f : Fmt) (scale c : Nat) : FVal :=
  if f.scaled then (if scale = 255 then .nan else (f.decode c).shift ((scale : Int) - 127)) else f.decode c

/-! ## Conversion from binary32 -/

/-- What one converted element is, and what it reports: whether it raises the non-finite flag (R93) and whether it
counts as saturated (R95). -/
structure Conv where
  code : Nat
  nf : Bool
  sat : Bool
deriving DecidableEq, Repr

/-- A finite value to a floating-point format, clamped at the code of its largest finite magnitude. -/
def FloatFmt.narrow (f : FloatFmt) (m : RMode) (maxCode : Nat) (neg : Bool) (num den : Nat) (e : Int) : Nat :=
  let s := if neg then f.signBit else 0
  if num = 0 then s else
  let (n, u) := roundSig m (f.mb + 1) f.qmin num den e
  s + min (f.pack n u) maxCode

/-- The floating-point layout and largest finite code of a format. -/
def Fmt.float? : Fmt → Option (FloatFmt × Nat)
  | .f16 => some (fmt16, 0x7C00) | .bf16 => some (fmtBf16, 0x7F80) | .e4m3 => some (fmtE4M3, 0x7E)
  | .e5m2 => some (fmtE5M2, 0x7B) | .e3m2 => some (fmtE3M2, 0x1F) | .e2m3 => some (fmtE2M3, 0x1F)
  | .e2m1 => some (fmtE2M1, 0x7)
  | _ => none

/-- |a − v| for dyadic numbers. -/
def dyDist (a v : Int × Int) : Nat × Int :=
  let d := dyAdd a (-v.1, v.2)
  (d.1.natAbs, d.2)

/-- Order of two non-negative dyadic numbers. -/
def dyLt (a b : Nat × Int) : Bool := (dyAdd ((a.1 : Int), a.2) (-(b.1 : Int), b.2)).1 < 0
def dyEq (a b : Int × Int) : Bool := (dyAdd a (-b.1, b.2)).1 = 0

/-- Whether table entry `x` (code, byte) is the better choice than `y` for the value `v`: nearer in value, then the
smaller magnitude field, then the lower code (R90). -/
def entBetter (t : FmtTable) (v : Int × Int) (x y : Nat × Nat) : Bool :=
  let dx := dyDist (entVal t x.2).dyadic v
  let dy := dyDist (entVal t y.2).dyadic v
  if dyLt dx dy then true else if dyLt dy dx then false
  else if entMag x.2 < entMag y.2 then true else if entMag y.2 < entMag x.2 then false
  else decide (x.1 < y.1)

/-- The entries of a table in use, each with its code: 16 of a table-4, 64 of a table-6. -/
def FmtTable.codes (t : FmtTable) : List (Nat × Nat) :=
  (List.range (if t.wide then 64 else 16)).map fun c => (c, t.ents.getD c 0)

def bestEnt (t : FmtTable) (v : Int × Int) (l : List (Nat × Nat)) : Option (Nat × Nat) :=
  l.foldl (fun b x => match b with
    | none => some x
    | some y => if entBetter t v x y then some x else some y) none

/-- The code of the entry nearest in value (R90). -/
def FmtTable.nearest (t : FmtTable) (v : Int × Int) : Nat :=
  match bestEnt t v t.codes with
  | some x => x.1
  | none => 0

/-- R90: stochastic rounding between the two adjacent entry values that bracket the value. -/
def FmtTable.stochastic (t : FmtTable) (v : Int × Int) (r : Nat) : Nat :=
  let val (x : Nat × Nat) := (entVal t x.2).dyadic
  let le (a b : Int × Int) : Bool := (dyAdd a (-b.1, b.2)).1 ≤ 0
  let below := bestEnt t v (t.codes.filter fun x => le (val x) v)
  let above := bestEnt t v (t.codes.filter fun x => le v (val x))
  match below, above with
  | some x, some y =>
    if dyEq (val x) v then x.1 else
    let swap := entMag y.2 < entMag x.2 || (entMag x.2 == entMag y.2 && decide (y.1 < x.1))
    let a := if swap then y else x
    let b := if swap then x else y
    let u := dyDist (val b) (val a)
    let d := dyDist v (val a)
    let e := min u.2 d.2
    let num := d.1 * 2 ^ (d.2 - e).toNat
    let den := u.1 * 2 ^ (u.2 - e).toNat
    if r < num * 65536 / den then b.1 else a.1
  | _, _ => t.nearest v

/-- An integer format's narrowing of a finite value: rounded, then clamped to [lo, hi]. -/
def narrowInt (m : RMode) (width : Nat) (neg : Bool) (num : Nat) (e : Int) : Conv :=
  let (a, b) := scale2 num 1 e
  let n := roundDiv m a b
  let hi := 2 ^ (width - 1) - 1
  let lo := 2 ^ (width - 1)
  let lim := if neg then lo else hi
  let sat := decide (lim * b < a)
  let n := min n lim
  ⟨unsigned width (if neg then -(n : Int) else n), false, sat⟩

/-- The code of the largest finite magnitude of a sign. -/
def Fmt.maxCode (f : Fmt) (neg : Bool) : Nat :=
  match f with
  | .i8 => if neg then 0x80 else 0x7F
  | .i4 => if neg then 0x8 else 0x7
  | _ =>
    match f.float? with
    | some (ff, mx) => (if neg then ff.signBit else 0) + mx
    | none => 0

/-- Whether the finite magnitude man · 2^exp lies beyond the format's largest finite one (R95). -/
def beyondMax (f : Fmt) (man : Nat) (exp : Int) : Bool :=
  match f.decode (f.maxCode false) with
  | .fin _ m e => dyLt (m, e) (man, exp)
  | _ => false

/-- R90, R91: one element converted with no block scale (binary16, bfloat16, unscaled E4M3 and E5M2, INT8, INT4). Binary32 is no
conversion: its bits pass as they are, a NaN's sign and payload included (R67). -/
def convUnscaled (f : Fmt) (m : RMode) (x : Nat) : Conv :=
  match f, val32 x with
  | .f32, _ => ⟨x % 2 ^ 32, false, false⟩
  | .i8, .nan => ⟨0, true, false⟩
  | .i4, .nan => ⟨0, true, false⟩
  | .f16, .nan => ⟨0x7E00, true, false⟩
  | .bf16, .nan => ⟨0x7FC0, true, false⟩
  | _, .nan => ⟨0x7F, true, false⟩
  | .f16, .inf s => ⟨f.maxCode s, true, false⟩
  | .bf16, .inf s => ⟨f.maxCode s, true, false⟩
  | _, .inf s => ⟨f.maxCode s, true, false⟩
  | .i8, .fin s n e => narrowInt m 8 s n e
  | .i4, .fin s n e => narrowInt m 4 s n e
  | _, .fin s n e =>
    match f.float? with
    | some (ff, mx) =>
      let c := ff.narrow m mx s n 1 e
      let wide := f = .f16 ∨ f = .bf16
      ⟨c, decide (wide ∧ c % ff.signBit = mx), !decide wide && beyondMax f n e⟩
    | none => ⟨0, false, false⟩

/-- R72: emax of a scaled format. -/
def Fmt.emax : Fmt → Int
  | .e4m3 => 8 | .e5m2 => 15 | .e3m2 => 4 | .e2m3 => 2 | .e2m1 => 2
  | .tbl t =>
    let mmax := (t.codes.map fun x => entMag x.2).foldl max 0
    if mmax = 0 then t.xoff else (Nat.log2 mmax : Int) + t.xoff
  | _ => 0

/-- One element of a scaled block after division by the block's scale (R72, R90 "after scaling"). -/
def convScaled (f : Fmt) (m : RMode) (neg : Bool) (man : Nat) (exp : Int) : Nat :=
  match f with
  | .tbl t =>
    let v : Int × Int := (if neg then -(man : Int) else man, exp)
    match m with
    | .rne => t.nearest v
    | .sr r => t.stochastic v r
  | _ =>
    match f.float? with
    | some (ff, mx) => ff.narrow m mx neg man 1 exp
    | none => 0

/-- The unbiased exponent of the largest magnitude of a block, none when all are zero. -/
def blockExp (vs : List FVal) : Option Int :=
  vs.foldl (fun b v => match v with
    | .fin _ n e => if n = 0 then b else
        let k := (Nat.log2 n : Int) + e
        match b with | none => some k | some j => some (max j k)
    | _ => b) none

/-- R72, R78: a block of binary32 values as a scale code and element codes, and whether it raises the non-finite
flag. `ms` gives each element's rounding. -/
def convBlock (f : Fmt) (ms : List RMode) (xs : List Nat) : Nat × List Nat × Bool :=
  let vs := xs.map val32
  let dead := match f with | .tbl t => !t.valid | _ => false
  if dead then (127, xs.map fun _ => 0, true)
  else if vs.any FVal.nonFinite then (255, xs.map fun _ => 0, true)
  else
    let sc : Int := match blockExp vs with
      | none => 127
      | some k => max 0 (min (k - f.emax + 127) 254)
    let el := List.zipWith (fun v m => match v with
      | .fin neg man exp => convScaled f m neg man (exp - (sc - 127))
      | _ => 0) vs ms
    (sc.toNat, el, false)

/-! ## Packing (R71) -/

/-- A list of codes of a width packed little-endian into bytes. -/
def packCodes (width : Nat) (l : List Nat) : List Byte :=
  leBytes (l.length * width / 8) (l.foldr (fun c acc => c % 2 ^ width + 2 ^ width * acc) 0)

/-- The first `n` codes of a width in packed bytes. -/
def unpackCodes (width n : Nat) (l : List Byte) : List Nat :=
  let x := leNat l
  (List.range n).map fun i => bitsOf x (width * i) width

end Sys2Proof.Machine
end

