-- ==== Sys2Proof/Machine/RegMap.lean ====
section
/-! DEFINITION. The register map of R26 and R27: every register's address, every field's place, and the tables of
access codes (R13), undefined encodings (R16) and reset values (R14). A register is named by its address in one space
of Nat: offset in PF0's BAR0, plus `vf n` for the BAR0 of VF*n*. The names are the spec's, without index letters. -/

namespace Sys2Proof.Machine

/-- Where the BAR0 of VF*n* lies in the one space of register addresses (a convention of this model); 0 is PF0. -/
def vf (n : Nat) : Nat := 268435456 * n

/-- The access codes of R13. `cmd` is a W1S bit whose table says that it reads 0: a command that nothing holds. -/
inductive Access where
  | ro | rw | wo | w1c | w1s | cmd | rwl | rc
deriving DecidableEq, Repr

/-- One field of a register: its place, access code, reset value (R14) and the encodings its table defines
(inclusive ranges; none listed means that every encoding is defined, R16). -/
structure FieldDesc where
  fld : Fld
  acc : Access
  reset : Nat
  defined : List (Nat × Nat)
deriving DecidableEq, Repr

/-- One register, or one array of registers: offset of its first instance within its function's BAR0, stride and count
of each index (outermost first), and its fields; bits in no field are reserved (R15). -/
structure RegDesc where
  off : Nat
  dims : List (Nat × Nat)
  fields : List FieldDesc
deriving DecidableEq, Repr

namespace Reg

/-- R9. -/
def GLB_ID : Nat := 0x0
/-- R10. -/
def GLB_UPTIME_LO : Nat := 0x10
/-- R10. -/
def GLB_UPTIME_HI : Nat := 0x14
/-- R701. -/
def GLB_RST_CTRL : Nat := 0x20
/-- R702. -/
def GLB_RST_CAUSE : Nat := 0x24
/-- R702. -/
def GLB_RST_COUNT : Nat := 0x28
/-- R703. -/
def GLB_BOOT_STAT : Nat := 0x30
/-- R704. -/
def GLB_BOOT_TIME : Nat := 0x34
/-- R704. -/
def GLB_UNTESTED : Nat := 0x38
/-- R704. -/
def GLB_FWSET : Nat := 0x3C
/-- R704. -/
def GLB_LIST_VER : Nat := 0x40
/-- R705. -/
def GLB_VER (i : Nat) : Nat := 0x48 + 4 * (i - 1)
/-- R707. -/
def GLB_INT_STATUS : Nat := 0x60
/-- R707. -/
def GLB_INT_EN : Nat := 0x64
/-- R706. -/
def GLB_CLK_STAT : Nat := 0x68
/-- R664. -/
def PWR_FEED : Nat := 0x100000
/-- R664. -/
def PWR_INPUT_V : Nat := 0x100004
/-- R665. -/
def PWR_INPUT_AVG : Nat := 0x100008
/-- R665. -/
def PWR_ENERGY_LO : Nat := 0x100010
/-- R665. -/
def PWR_ENERGY_HI : Nat := 0x100014
/-- R666. -/
def PWR_STAT : Nat := 0x100018
/-- R666. -/
def PWR_SAG_STAT : Nat := 0x10001C
/-- R667. -/
def PWR_INT_STATUS : Nat := 0x100020
/-- R667. -/
def PWR_INT_EN : Nat := 0x100024
/-- R668. -/
def PWR_LIM_CTRL : Nat := 0x100030
/-- R669. -/
def PWR_LIM_STAT : Nat := 0x100034
/-- R670. -/
def PWR_CAP : Nat := 0x100038
/-- R671. -/
def PWR_GAIN : Nat := 0x10003C
/-- R671. -/
def PWR_EST : Nat := 0x100040
/-- R672. -/
def PWR_THR_STAT : Nat := 0x100044
/-- R671. -/
def PWR_ILIM : Nat := 0x100048
/-- R671. -/
def PWR_LIMREQ_IGN : Nat := 0x10004C
/-- R674. -/
def PWR_TEMP : Nat := 0x100050
/-- R673. -/
def PWR_THR_DUR_LO (i : Nat) : Nat := 0x100080 + 8 * i
/-- R673. -/
def PWR_THR_DUR_HI (i : Nat) : Nat := 0x100084 + 8 * i
/-- R675. -/
def PWR_VF (i : Nat) : Nat := 0x100100 + 4 * i
/-- R763. -/
def MGT_TB_CTRL : Nat := 0x200000
/-- R763. -/
def MGT_TB_STAT : Nat := 0x200004
/-- R763. -/
def MGT_NODE : Nat := 0x200008
/-- R763. -/
def MGT_HB_KICK : Nat := 0x20000C
/-- R763. -/
def MGT_FAIL : Nat := 0x200010
/-- R765. -/
def MGT_HALT_CTRL : Nat := 0x200018
/-- R765. -/
def MGT_HALT_STAT : Nat := 0x20001C
/-- R765. -/
def MGT_INT_STATUS : Nat := 0x200020
/-- R765. -/
def MGT_INT_EN : Nat := 0x200024
/-- R764. -/
def MGT_DRIFT (i : Nat) : Nat := 0x200030 + 4 * i
/-- R763. -/
def MGT_TB_CRC : Nat := 0x200060
/-- R763. -/
def MGT_TB_RXVIOL : Nat := 0x200064
/-- R763. -/
def MGT_TB_MUTES : Nat := 0x200068
/-- R766. -/
def MGT_TIME_LO : Nat := 0x200070
/-- R766. -/
def MGT_TIME_HI : Nat := 0x200074
/-- R766. -/
def MGT_FRAME_LO : Nat := 0x200078
/-- R766. -/
def MGT_FRAME_HI : Nat := 0x20007C
/-- R766. -/
def MGT_TIME_OFS_LO : Nat := 0x200080
/-- R766. -/
def MGT_TIME_OFS_HI : Nat := 0x200084
/-- R766. -/
def MGT_TPROBE_CTRL : Nat := 0x200090
/-- R766. -/
def MGT_TPROBE_STAT : Nat := 0x200094
/-- R766. -/
def MGT_TPROBE_OFS_LO : Nat := 0x200098
/-- R766. -/
def MGT_TPROBE_OFS_HI : Nat := 0x20009C
/-- R766. -/
def MGT_TPROBE_DLY : Nat := 0x2000A0
/-- R726. -/
def LCS_CODE : Nat := 0x300000
/-- R726. -/
def LCS_STAT : Nat := 0x300004
/-- R726. -/
def LCS_TOKEN : Nat := 0x300008
/-- R727. -/
def LCS_LAST : Nat := 0x30000C
/-- R728. -/
def LCS_TRANS : Nat := 0x300010
/-- R728. -/
def LCS_DEBUG : Nat := 0x300014
/-- R728. -/
def LCS_CHAL_CTRL : Nat := 0x300018
/-- R729. -/
def LCS_INT_STATUS : Nat := 0x300020
/-- R729. -/
def LCS_INT_EN : Nat := 0x300024
/-- R730. -/
def LCS_CHAL (i : Nat) : Nat := 0x300100 + 4 * i
/-- R730. -/
def LCS_RESP (i : Nat) : Nat := 0x301000 + 4 * i
/-- R524. -/
def KEY_CMD : Nat := 0x400000
/-- R524. -/
def KEY_CTRL : Nat := 0x400004
/-- R524. -/
def KEY_STATUS : Nat := 0x400008
/-- R525. -/
def KEY_INT_EN : Nat := 0x40000C
/-- R525. -/
def KEY_ALERT : Nat := 0x400010
/-- R526. -/
def KEY_ARG (i : Nat) : Nat := 0x400100 + 4 * i
/-- R526. -/
def KEY_RES (i : Nat) : Nat := 0x400200 + 4 * i
/-- R524. -/
def TKEY_CMD (p : Nat) : Nat := vf p + 0x800000
/-- R524. -/
def TKEY_CTRL (p : Nat) : Nat := vf p + 0x800004
/-- R524. -/
def TKEY_STATUS (p : Nat) : Nat := vf p + 0x800008
/-- R525. -/
def TKEY_INT_EN (p : Nat) : Nat := vf p + 0x80000C
/-- R525. -/
def TKEY_ALERT (p : Nat) : Nat := vf p + 0x800010
/-- R526. -/
def TKEY_ARG (p i : Nat) : Nat := vf p + 0x800100 + 4 * i
/-- R526. -/
def TKEY_RES (p i : Nat) : Nat := vf p + 0x800200 + 4 * i
/-- R527. -/
def KEY_ROOT_STAT : Nat := 0x400400
/-- R528. -/
def KEY_PEPOCH (i : Nat) : Nat := 0x400410 + 4 * (i - 1)
/-- R528. -/
def TKEY_PEPOCH (p : Nat) : Nat := vf p + 0x800400
/-- R388. -/
def LL_PORT_CTRL (port : Nat) : Nat := 0x500000 + 65536 * port
/-- R389. -/
def LL_PORT_STAT (port : Nat) : Nat := 0x500004 + 65536 * port
/-- R390. -/
def LL_PEER (port : Nat) : Nat := 0x500008 + 65536 * port
/-- R390. -/
def LL_EXPECT (port : Nat) : Nat := 0x50000C + 65536 * port
/-- R391. -/
def LL_INT_STATUS (port : Nat) : Nat := 0x500010 + 65536 * port
/-- R391. -/
def LL_INT_EN (port : Nat) : Nat := 0x500014 + 65536 * port
/-- R392. -/
def LL_SLOT (port j : Nat) : Nat := 0x500040 + 65536 * port + 4 * j
/-- R393. -/
def LL_BIND (port j : Nat) : Nat := 0x500080 + 65536 * port + 4 * (j - 1)
/-- R394. -/
def LL_TX_KEY (port : Nat) : Nat := 0x5000A0 + 65536 * port
/-- R394. -/
def LL_TX_FCTR_LO (port : Nat) : Nat := 0x5000A8 + 65536 * port
/-- R394. -/
def LL_TX_FCTR_HI (port : Nat) : Nat := 0x5000AC + 65536 * port
/-- R394. -/
def LL_RX_KEY (port : Nat) : Nat := 0x5000B0 + 65536 * port
/-- R394. -/
def LL_REKEY_CFG (port : Nat) : Nat := 0x5000B8 + 65536 * port
/-- R395. -/
def LL_REPLAY (port : Nat) : Nat := 0x5000C0 + 65536 * port
/-- R396. -/
def LL_TX_FRAMES_LO (port : Nat) : Nat := 0x500100 + 65536 * port
/-- R396. -/
def LL_TX_FRAMES_HI (port : Nat) : Nat := 0x500104 + 65536 * port
/-- R396. -/
def LL_RX_FRAMES_LO (port : Nat) : Nat := 0x500108 + 65536 * port
/-- R396. -/
def LL_RX_FRAMES_HI (port : Nat) : Nat := 0x50010C + 65536 * port
/-- R396. -/
def LL_FEC_CORR_LO (port : Nat) : Nat := 0x500110 + 65536 * port
/-- R396. -/
def LL_FEC_CORR_HI (port : Nat) : Nat := 0x500114 + 65536 * port
/-- R397. -/
def LL_CRC_ERR (port : Nat) : Nat := 0x500120 + 65536 * port
/-- R397. -/
def LL_NAK (port : Nat) : Nat := 0x500124 + 65536 * port
/-- R397. -/
def LL_REPLAY_EVT (port : Nat) : Nat := 0x500128 + 65536 * port
/-- R397. -/
def LL_REPLAY_FRM (port : Nat) : Nat := 0x50012C + 65536 * port
/-- R397. -/
def LL_DISCARD (port : Nat) : Nat := 0x500130 + 65536 * port
/-- R397. -/
def LL_AUTH_FAIL (port : Nat) : Nat := 0x500134 + 65536 * port
/-- R397. -/
def LL_EPOCH_DROP (port : Nat) : Nat := 0x500138 + 65536 * port
/-- R397. -/
def LL_OLD_DROP (port : Nat) : Nat := 0x50013C + 65536 * port
/-- R397. -/
def LL_HDR_DROP (port : Nat) : Nat := 0x500140 + 65536 * port
/-- R397. -/
def LL_WIN_ERR (port : Nat) : Nat := 0x500144 + 65536 * port
/-- R397. -/
def LL_RETRAIN (port : Nat) : Nat := 0x500148 + 65536 * port
/-- R397. -/
def LL_DEGRADE (port : Nat) : Nat := 0x50014C + 65536 * port
/-- R398. -/
def LL_TRAIN_0 (port j : Nat) : Nat := 0x500200 + 65536 * port + 8 * j
/-- R398. -/
def LL_TRAIN_1 (port j : Nat) : Nat := 0x500204 + 65536 * port + 8 * j
/-- R398. -/
def LL_TRAIN_VER (port : Nat) : Nat := 0x500280 + 65536 * port
/-- R636. -/
def HST_INT_STATUS : Nat := 0x600000
/-- R636. -/
def HST_INT_EN : Nat := 0x600004
/-- R637. -/
def HST_IDE (i : Nat) : Nat := 0x600100 + 4 * i
/-- R298. -/
def MEM_PSPLIT (i : Nat) : Nat := 0x700000 + 4 * (i - 1)
/-- R299. -/
def MEM_INT_STATUS : Nat := 0x700020
/-- R299. -/
def MEM_INT_EN : Nat := 0x700024
/-- R300. -/
def MEM_ALARM_CAUSE (i : Nat) : Nat := 0x700030 + 4 * (i - 1)
/-- R301. -/
def MEM_STK_STAT (stk : Nat) : Nat := 0x710000 + 65536 * stk
/-- R302. -/
def MEM_STK_CTRL (stk : Nat) : Nat := 0x710004 + 65536 * stk
/-- R303. -/
def MEM_TAG (stk : Nat) : Nat := 0x710008 + 65536 * stk
/-- R304. -/
def MEM_TAG_STALL_LO (stk : Nat) : Nat := 0x710010 + 65536 * stk
/-- R304. -/
def MEM_TAG_STALL_HI (stk : Nat) : Nat := 0x710014 + 65536 * stk
/-- R305. -/
def MEM_CE_COUNT (stk : Nat) : Nat := 0x710020 + 65536 * stk
/-- R305. -/
def MEM_UE_COUNT (stk : Nat) : Nat := 0x710024 + 65536 * stk
/-- R305. -/
def MEM_MAC_FAIL (stk : Nat) : Nat := 0x710028 + 65536 * stk
/-- R305. -/
def MEM_REREAD (stk : Nat) : Nat := 0x71002C + 65536 * stk
/-- R305. -/
def MEM_POISON_COUNT (stk : Nat) : Nat := 0x710030 + 65536 * stk
/-- R305. -/
def MEM_PPR_COUNT (stk : Nat) : Nat := 0x710034 + 65536 * stk
/-- R306. -/
def MEM_ERR_LAST_LO (stk : Nat) : Nat := 0x710040 + 65536 * stk
/-- R306. -/
def MEM_ERR_LAST_HI (stk : Nat) : Nat := 0x710044 + 65536 * stk
/-- R307. -/
def MEM_NME_STAT (stk : Nat) : Nat := 0x710060 + 65536 * stk
/-- R304. -/
def MEM_NME_CMD_LO (stk : Nat) : Nat := 0x710068 + 65536 * stk
/-- R304. -/
def MEM_NME_CMD_HI (stk : Nat) : Nat := 0x71006C + 65536 * stk
/-- R304. -/
def MEM_NME_DELAY_LO (stk : Nat) : Nat := 0x710070 + 65536 * stk
/-- R304. -/
def MEM_NME_DELAY_HI (stk : Nat) : Nat := 0x710074 + 65536 * stk
/-- R587. -/
def PRT_LAYOUT : Nat := 0x800000
/-- R587. -/
def PRT_STATUS : Nat := 0x800004
/-- R588. -/
def PRT_CTRL (i : Nat) : Nat := 0x800010 + 4 * (i - 1)
/-- R589. -/
def PRT_STATE (i : Nat) : Nat := 0x800020 + 4 * (i - 1)
/-- R590. -/
def PRT_MAP (i : Nat) : Nat := 0x800030 + 4 * (i - 1)
/-- R591. -/
def PRT_INT_STATUS : Nat := 0x800040
/-- R591. -/
def PRT_INT_EN : Nat := 0x800044
/-- R592. -/
def PRT_RM_TIME (i : Nat) : Nat := 0x800050 + 4 * (i - 1)
/-- R795. -/
def DBG_SEPIA_CTRL : Nat := 0x900000
/-- R795. -/
def DBG_SEPIA_STAT : Nat := 0x900004
/-- R795. -/
def DBG_DUMP_BASE_LO : Nat := 0x900010
/-- R795. -/
def DBG_DUMP_BASE_HI : Nat := 0x900014
/-- R795. -/
def DBG_DUMP_SIZE : Nat := 0x900018
/-- R795. -/
def DBG_DUMP_CTRL : Nat := 0x90001C
/-- R795. -/
def DBG_DUMP_STAT : Nat := 0x900020
/-- R796. -/
def DBG_STEP_CTRL : Nat := 0x900040
/-- R796. -/
def DBG_STEP_STAT : Nat := 0x900044
/-- R796. -/
def DBG_WIN_CTRL : Nat := 0x900060
/-- R796. -/
def DBG_WIN_ADDR_LO : Nat := 0x900068
/-- R796. -/
def DBG_WIN_ADDR_HI : Nat := 0x90006C
/-- R796. -/
def DBG_WIN_DATA (i : Nat) : Nat := 0x901000 + 4 * i
/-- R797. -/
def DBG_INT_STATUS : Nat := 0x900080
/-- R797. -/
def DBG_INT_EN : Nat := 0x900084
/-- R251. -/
def DBG_SCRUB_CTRL : Nat := 0x980000
/-- R251. -/
def DBG_SRAM_STAT : Nat := 0x980004
/-- R252. -/
def DBG_SRAM_LAST_LO : Nat := 0x980008
/-- R252. -/
def DBG_SRAM_LAST_HI : Nat := 0x98000C
/-- R253. -/
def DBG_COLTEST : Nat := 0x980010
/-- R253. -/
def DBG_COLTEST_ROW : Nat := 0x980014
/-- R254. -/
def DBG_CE_COUNT (i : Nat) : Nat := 0x980400 + 4 * i
/-- R254. -/
def DBG_UE_COUNT (i : Nat) : Nat := 0x980800 + 4 * i
/-- R255. -/
def DBG_CORE_STAT (i : Nat) : Nat := 0x980C00 + 4 * i
/-- R256. -/
def DBG_REPAIR_SEL : Nat := 0x981000
/-- R256. -/
def DBG_REPAIR_DATA (i : Nat) : Nat := 0x981004 + 4 * i
/-- R257. -/
def DBG_QUAD_STAT : Nat := 0x981020
/-- R557. -/
def DBG_PROT_COUNT : Nat := 0x990000
/-- R557. -/
def DBG_PROT_LAST : Nat := 0x990004
/-- R767. -/
def MTR_CTRL : Nat := 0xA00000
/-- R767. -/
def MTR_STAT : Nat := 0xA00004
/-- R767. -/
def MTR_PERIOD : Nat := 0xA00008
/-- R767. -/
def MTR_REC_SEL : Nat := 0xA0000C
/-- R767. -/
def MTR_RTC_LO : Nat := 0xA00010
/-- R767. -/
def MTR_RTC_HI : Nat := 0xA00014
/-- R767. -/
def MTR_RTC_SET_LO : Nat := 0xA00018
/-- R767. -/
def MTR_RTC_SET_HI : Nat := 0xA0001C
/-- R767. -/
def MTR_RTC_CTRL : Nat := 0xA00020
/-- R767. -/
def MTR_MONO_LO : Nat := 0xA00028
/-- R767. -/
def MTR_MONO_HI : Nat := 0xA0002C
/-- R767. -/
def MTR_INT_STATUS : Nat := 0xA00030
/-- R767. -/
def MTR_INT_EN : Nat := 0xA00034
/-- R768. -/
def MTR_P_BEATS_LO (i : Nat) : Nat := 0xA00040 + 32 * (i - 1)
/-- R768. -/
def MTR_P_BEATS_HI (i : Nat) : Nat := 0xA00044 + 32 * (i - 1)
/-- R768. -/
def MTR_P_MEM_LO (i : Nat) : Nat := 0xA00048 + 32 * (i - 1)
/-- R768. -/
def MTR_P_MEM_HI (i : Nat) : Nat := 0xA0004C + 32 * (i - 1)
/-- R768. -/
def MTR_P_TX_LO (i : Nat) : Nat := 0xA00050 + 32 * (i - 1)
/-- R768. -/
def MTR_P_TX_HI (i : Nat) : Nat := 0xA00054 + 32 * (i - 1)
/-- R768. -/
def MTR_P_RX_LO (i : Nat) : Nat := 0xA00058 + 32 * (i - 1)
/-- R768. -/
def MTR_P_RX_HI (i : Nat) : Nat := 0xA0005C + 32 * (i - 1)
/-- R769. -/
def MTR_SETLOG_OLD_LO (i : Nat) : Nat := 0xA00100 + 32 * i
/-- R769. -/
def MTR_SETLOG_OLD_HI (i : Nat) : Nat := 0xA00104 + 32 * i
/-- R769. -/
def MTR_SETLOG_NEW_LO (i : Nat) : Nat := 0xA00108 + 32 * i
/-- R769. -/
def MTR_SETLOG_NEW_HI (i : Nat) : Nat := 0xA0010C + 32 * i
/-- R769. -/
def MTR_SETLOG_MONO_LO (i : Nat) : Nat := 0xA00110 + 32 * i
/-- R769. -/
def MTR_SETLOG_MONO_HI (i : Nat) : Nat := 0xA00114 + 32 * i
/-- R769. -/
def MTR_SETLOG_PERIOD (i : Nat) : Nat := 0xA00118 + 32 * i
/-- R769. -/
def MTR_SETLOG_STAT : Nat := 0xA00300
/-- R769. -/
def MTR_REC (i : Nat) : Nat := 0xA01000 + 4 * i
/-- R630. -/
def QUE_INT_STATUS (p : Nat) : Nat := vf p + 0x0
/-- R630. -/
def QUE_INT_EN (p : Nat) : Nat := vf p + 0x4
/-- R631. -/
def QUE_CANCEL_SEQ (p : Nat) : Nat := vf p + 0x10
/-- R631. -/
def QUE_CANCEL (p : Nat) : Nat := vf p + 0x14
/-- R631. -/
def QUE_CANCEL_STAT (p : Nat) : Nat := vf p + 0x18
/-- R632. -/
def QUE_CTX (p i : Nat) : Nat := vf p + 0x100 + 4 * i
/-- R633. -/
def QUE_BASE_LO (p i : Nat) : Nat := vf p + 0x1000 + 32 * i
/-- R633. -/
def QUE_BASE_HI (p i : Nat) : Nat := vf p + 0x1004 + 32 * i
/-- R633. -/
def QUE_CFG (p i : Nat) : Nat := vf p + 0x1008 + 32 * i
/-- R633. -/
def QUE_DB (p i : Nat) : Nat := vf p + 0x100C + 32 * i
/-- R633. -/
def QUE_HEAD (p i : Nat) : Nat := vf p + 0x1010 + 32 * i
/-- R633. -/
def QUE_DONE (p i : Nat) : Nat := vf p + 0x1014 + 32 * i
/-- R633. -/
def QUE_STAT (p i : Nat) : Nat := vf p + 0x1018 + 32 * i
/-- R634. -/
def FEN_COUNT (p : Nat) : Nat := vf p + 0x100000
/-- R634. -/
def FEN_INT_STATUS (p : Nat) : Nat := vf p + 0x100004
/-- R634. -/
def FEN_INT_EN (p : Nat) : Nat := vf p + 0x100008
/-- R634. -/
def FEN_EVQ_BASE_LO (p : Nat) : Nat := vf p + 0x100010
/-- R634. -/
def FEN_EVQ_BASE_HI (p : Nat) : Nat := vf p + 0x100014
/-- R634. -/
def FEN_EVQ_CFG (p : Nat) : Nat := vf p + 0x100018
/-- R634. -/
def FEN_EVQ_HEAD (p : Nat) : Nat := vf p + 0x10001C
/-- R634. -/
def FEN_EVQ_TAIL (p : Nat) : Nat := vf p + 0x100020
/-- R634. -/
def FEN_EVQ_STAT (p : Nat) : Nat := vf p + 0x100024
/-- R635. -/
def FEN_F (p i : Nat) : Nat := vf p + 0x140000 + 4 * i
/-- R166. -/
def SEQ_CTRL (p : Nat) : Nat := vf p + 0x200000
/-- R167. -/
def SEQ_STATUS (p : Nat) : Nat := vf p + 0x200004
/-- R168. -/
def SEQ_IMG_BASE_LO (p : Nat) : Nat := vf p + 0x200008
/-- R168. -/
def SEQ_IMG_BASE_HI (p : Nat) : Nat := vf p + 0x20000C
/-- R169. -/
def SEQ_PC (p : Nat) : Nat := vf p + 0x200010
/-- R169. -/
def SEQ_BIP (p : Nat) : Nat := vf p + 0x200014
/-- R169. -/
def SEQ_PERIOD (p : Nat) : Nat := vf p + 0x200018
/-- R169. -/
def SEQ_ISRAM (p : Nat) : Nat := vf p + 0x20001C
/-- R170. -/
def SEQ_BEATS_LO (p : Nat) : Nat := vf p + 0x200020
/-- R170. -/
def SEQ_BEATS_HI (p : Nat) : Nat := vf p + 0x200024
/-- R171. -/
def SEQ_ERR (p : Nat) : Nat := vf p + 0x200030
/-- R171. -/
def SEQ_ERR_PC (p : Nat) : Nat := vf p + 0x200034
/-- R172. -/
def SEQ_INT_STATUS (p : Nat) : Nat := vf p + 0x200038
/-- R172. -/
def SEQ_INT_EN (p : Nat) : Nat := vf p + 0x20003C
/-- R173. -/
def SEQ_LOOP (p i : Nat) : Nat := vf p + 0x200040 + 4 * i
/-- R174. -/
def SEQ_CSET (p i : Nat) : Nat := vf p + 0x200080 + 4 * i
/-- R199. -/
def SEQ_LATE (p : Nat) : Nat := vf p + 0x200200
/-- R199. -/
def SEQ_LATE_MAX (p : Nat) : Nat := vf p + 0x200204
/-- R200. -/
def SEQ_CATCHUP_LIMIT (p : Nat) : Nat := vf p + 0x200208
/-- R201. -/
def SEQ_LATE_STAT (p : Nat) : Nat := vf p + 0x20020C
/-- R202. -/
def SEQ_GATE_STAT (p : Nat) : Nat := vf p + 0x200210
/-- R203. -/
def SEQ_WAIT_LO (p : Nat) : Nat := vf p + 0x200218
/-- R203. -/
def SEQ_WAIT_HI (p : Nat) : Nat := vf p + 0x20021C
/-- R203. -/
def SEQ_CONS_LO (p : Nat) : Nat := vf p + 0x200220
/-- R203. -/
def SEQ_CONS_HI (p : Nat) : Nat := vf p + 0x200224
/-- R204. -/
def SEQ_SLOST_COUNT (p : Nat) : Nat := vf p + 0x200228
/-- R205. -/
def SEQ_ANN_TAG (p : Nat) : Nat := vf p + 0x200230
/-- R206. -/
def SEQ_PEER_LATE (p : Nat) : Nat := vf p + 0x200234
/-- R207. -/
def SEQ_PEER_SRC (p : Nat) : Nat := vf p + 0x200238
/-- R175. -/
def SEQ_GRP (p i j : Nat) : Nat := vf p + 0x201000 + 32 * i + 4 * j
/-- R175. -/
def SEQ_GRP_4 (p i : Nat) : Nat := vf p + 0x201010 + 32 * i
/-- R247. -/
def SEQ_RING_BASE_LO (p i : Nat) : Nat := vf p + 0x280000 + 32 * i
/-- R247. -/
def SEQ_RING_BASE_HI (p i : Nat) : Nat := vf p + 0x280004 + 32 * i
/-- R248. -/
def SEQ_RING_CFG (p i : Nat) : Nat := vf p + 0x280008 + 32 * i
/-- R249. -/
def SEQ_RING_PROD (p i : Nat) : Nat := vf p + 0x28000C + 32 * i
/-- R249. -/
def SEQ_RING_CONS (p i : Nat) : Nat := vf p + 0x280010 + 32 * i
/-- R249. -/
def SEQ_RING_CTRL (p i : Nat) : Nat := vf p + 0x280014 + 32 * i
/-- R250. -/
def SEQ_RING_STAT (p i : Nat) : Nat := vf p + 0x280018 + 32 * i
/-- R477. -/
def CKP_CTRL (p : Nat) : Nat := vf p + 0x300000
/-- R478. -/
def CKP_STATUS (p : Nat) : Nat := vf p + 0x300004
/-- R479. -/
def CKP_TRIGGER (p : Nat) : Nat := vf p + 0x300008
/-- R479. -/
def CKP_TIMER (p : Nat) : Nat := vf p + 0x30000C
/-- R479. -/
def CKP_LAKE_BASE (p : Nat) : Nat := vf p + 0x300010
/-- R479. -/
def CKP_KID (p : Nat) : Nat := vf p + 0x300014
/-- R479. -/
def CKP_BUDDY_BASE (p : Nat) : Nat := vf p + 0x300018
/-- R479. -/
def CKP_BUDDY_SIZE (p : Nat) : Nat := vf p + 0x30001C
/-- R479. -/
def CKP_DRAIN_CFG (p : Nat) : Nat := vf p + 0x300020
/-- R479. -/
def CKP_SEQNO (p : Nat) : Nat := vf p + 0x300024
/-- R479. -/
def CKP_SHAPEID_LO (p : Nat) : Nat := vf p + 0x300028
/-- R479. -/
def CKP_SHAPEID_HI (p : Nat) : Nat := vf p + 0x30002C
/-- R480. -/
def CKP_SLOT_STAT (p i : Nat) : Nat := vf p + 0x300040 + 16 * i
/-- R480. -/
def CKP_SLOT_SEQ (p i : Nat) : Nat := vf p + 0x300044 + 16 * i
/-- R480. -/
def CKP_SLOT_STEP_LO (p i : Nat) : Nat := vf p + 0x300048 + 16 * i
/-- R480. -/
def CKP_SLOT_STEP_HI (p i : Nat) : Nat := vf p + 0x30004C + 16 * i
/-- R480. -/
def CKP_BSLOT_STAT (p i : Nat) : Nat := vf p + 0x300060 + 16 * i
/-- R480. -/
def CKP_BSLOT_SEQ (p i : Nat) : Nat := vf p + 0x300064 + 16 * i
/-- R480. -/
def CKP_BSLOT_STEP_LO (p i : Nat) : Nat := vf p + 0x300068 + 16 * i
/-- R480. -/
def CKP_BSLOT_STEP_HI (p i : Nat) : Nat := vf p + 0x30006C + 16 * i
/-- R481. -/
def CKP_INT_STATUS (p : Nat) : Nat := vf p + 0x300080
/-- R481. -/
def CKP_INT_EN (p : Nat) : Nat := vf p + 0x300084
/-- R482. -/
def CKP_ERR (p : Nat) : Nat := vf p + 0x300088
/-- R482. -/
def CKP_ABORT_DROP (p : Nat) : Nat := vf p + 0x30008C
/-- R482. -/
def CKP_DEFER_COUNT (p : Nat) : Nat := vf p + 0x300090
/-- R482. -/
def CKP_DRAIN_BYTES_LO (p : Nat) : Nat := vf p + 0x300098
/-- R482. -/
def CKP_DRAIN_BYTES_HI (p : Nat) : Nat := vf p + 0x30009C
/-- R482. -/
def CKP_PULL_SEQ (p : Nat) : Nat := vf p + 0x3000A0
/-- R482. -/
def CKP_HOSTACK (p : Nat) : Nat := vf p + 0x3000A4
/-- R340. -/
def UPD_CTRL (p : Nat) : Nat := vf p + 0x400000
/-- R340. -/
def UPD_STATUS (p : Nat) : Nat := vf p + 0x400004
/-- R341. -/
def UPD_EPOCH (p : Nat) : Nat := vf p + 0x400008
/-- R341. -/
def UPD_BANK_BASE (p : Nat) : Nat := vf p + 0x40000C
/-- R341. -/
def UPD_BANK_SIZE (p : Nat) : Nat := vf p + 0x400010
/-- R341. -/
def UPD_STEP_LO (p : Nat) : Nat := vf p + 0x400018
/-- R341. -/
def UPD_STEP_HI (p : Nat) : Nat := vf p + 0x40001C
/-- R341. -/
def UPD_TCOUNT (p : Nat) : Nat := vf p + 0x400020
/-- R341. -/
def UPD_SKIP_COUNT (p : Nat) : Nat := vf p + 0x400024
/-- R341. -/
def UPD_LS (p : Nat) : Nat := vf p + 0x400028
/-- R341. -/
def UPD_CLEAN (p : Nat) : Nat := vf p + 0x40002C
/-- R342. -/
def UPD_LS_CFG (p : Nat) : Nat := vf p + 0x400030
/-- R342. -/
def UPD_LS_INTERVAL (p : Nat) : Nat := vf p + 0x400034
/-- R342. -/
def UPD_CLIP_INIT_NORM (p : Nat) : Nat := vf p + 0x400038
/-- R342. -/
def UPD_GNORM_LAG (p : Nat) : Nat := vf p + 0x40003C
/-- R342. -/
def UPD_GNORM_SQ (p : Nat) : Nat := vf p + 0x400040
/-- R342. -/
def UPD_NORM_ACC (p : Nat) : Nat := vf p + 0x400044
/-- R343. -/
def UPD_STATE_BASE_LO (p : Nat) : Nat := vf p + 0x400048
/-- R343. -/
def UPD_STATE_BASE_HI (p : Nat) : Nat := vf p + 0x40004C
/-- R344. -/
def UPD_INT_STATUS (p : Nat) : Nat := vf p + 0x400050
/-- R344. -/
def UPD_INT_EN (p : Nat) : Nat := vf p + 0x400054
/-- R345. -/
def UPD_ERR (p : Nat) : Nat := vf p + 0x400058
/-- R345. -/
def UPD_ERR_TID (p : Nat) : Nat := vf p + 0x40005C
/-- R346. -/
def UPD_OPT_P1 (p i : Nat) : Nat := vf p + 0x400080 + 8 * i
/-- R346. -/
def UPD_OPT_P2 (p i : Nat) : Nat := vf p + 0x400084 + 8 * i
/-- R346. -/
def UPD_OPT_0 (p i : Nat) : Nat := vf p + 0x400100 + 32 * i
/-- R346. -/
def UPD_OPT_1 (p i : Nat) : Nat := vf p + 0x400104 + 32 * i
/-- R346. -/
def UPD_OPT_2 (p i : Nat) : Nat := vf p + 0x400108 + 32 * i
/-- R346. -/
def UPD_OPT_3 (p i : Nat) : Nat := vf p + 0x40010C + 32 * i
/-- R346. -/
def UPD_OPT_4 (p i : Nat) : Nat := vf p + 0x400110 + 32 * i
/-- R346. -/
def UPD_OPT_5 (p i : Nat) : Nat := vf p + 0x400114 + 32 * i
/-- R346. -/
def UPD_OPT_6 (p i : Nat) : Nat := vf p + 0x400118 + 32 * i
/-- R346. -/
def UPD_OPT_7 (p i : Nat) : Nat := vf p + 0x40011C + 32 * i
/-- R347. -/
def UPD_LR_CFG (p : Nat) : Nat := vf p + 0x400200
/-- R347. -/
def UPD_LR_0 (p i : Nat) : Nat := vf p + 0x400400 + 16 * i
/-- R347. -/
def UPD_LR_1 (p i : Nat) : Nat := vf p + 0x400404 + 16 * i
/-- R347. -/
def UPD_LR_2 (p i : Nat) : Nat := vf p + 0x400408 + 16 * i
/-- R347. -/
def UPD_LR_3 (p i : Nat) : Nat := vf p + 0x40040C + 16 * i
/-- R98. -/
def FMT_STATUS (p : Nat) : Nat := vf p + 0x500000
/-- R99. -/
def FMT_NF_STATUS (p : Nat) : Nat := vf p + 0x500004
/-- R99. -/
def FMT_NF_TENSOR (p : Nat) : Nat := vf p + 0x500008
/-- R101. -/
def FMT_SAT_COUNT (p : Nat) : Nat := vf p + 0x50000C
/-- R102. -/
def FMT_SR_SEED (p i : Nat) : Nat := vf p + 0x500010 + 4 * i
/-- R103. -/
def FMT_TBL_HDR (p i : Nat) : Nat := vf p + 0x500100 + 4 * i
/-- R104. -/
def FMT_TBL_ENT (p i j : Nat) : Nat := vf p + 0x500400 + 64 * i + 4 * j
/-- R438. -/
def COL_STAGE_CFG (p : Nat) : Nat := vf p + 0x600000
/-- R439. -/
def COL_POS (p : Nat) : Nat := vf p + 0x600004
/-- R440. -/
def COL_RB_BASE (p : Nat) : Nat := vf p + 0x600008
/-- R440. -/
def COL_XCHG_CF (p : Nat) : Nat := vf p + 0x60000C
/-- R441. -/
def COL_PORTMAP (p i : Nat) : Nat := vf p + 0x600010 + 4 * i
/-- R442. -/
def COL_STATUS (p : Nat) : Nat := vf p + 0x600020
/-- R442. -/
def COL_INT_STATUS (p : Nat) : Nat := vf p + 0x600024
/-- R442. -/
def COL_INT_EN (p : Nat) : Nat := vf p + 0x600028
/-- R443. -/
def COL_WINERR_COUNT (p : Nat) : Nat := vf p + 0x600030
/-- R443. -/
def COL_WINERR_LAST (p : Nat) : Nat := vf p + 0x600034
/-- R444. -/
def COL_DYN_STAT (p : Nat) : Nat := vf p + 0x600038
/-- R444. -/
def COL_DYN_NONE (p : Nat) : Nat := vf p + 0x60003C
/-- R444. -/
def COL_CC_TMO (p : Nat) : Nat := vf p + 0x600040
/-- R444. -/
def COL_CC_ERR (p : Nat) : Nat := vf p + 0x600044
/-- R445. -/
def COL_ROT_0 (p i : Nat) : Nat := vf p + 0x600080 + 16 * i
/-- R445. -/
def COL_ROT_1 (p i : Nat) : Nat := vf p + 0x600084 + 16 * i
/-- R445. -/
def COL_ROT_2 (p i : Nat) : Nat := vf p + 0x600088 + 16 * i
/-- R791. -/
def TDBG_CNT_CTRL (p : Nat) : Nat := vf p + 0x700000
/-- R791. -/
def TDBG_CNT_CFG (p i : Nat) : Nat := vf p + 0x700010 + 4 * i
/-- R792. -/
def TDBG_CNT_LO (p i : Nat) : Nat := vf p + 0x700100 + 8 * i
/-- R792. -/
def TDBG_CNT_HI (p i : Nat) : Nat := vf p + 0x700104 + 8 * i
/-- R793. -/
def TDBG_SEPIA_CTRL (p : Nat) : Nat := vf p + 0x700200
/-- R793. -/
def TDBG_SEPIA_STAT (p : Nat) : Nat := vf p + 0x700204
/-- R794. -/
def TDBG_DUMP_BASE_LO (p : Nat) : Nat := vf p + 0x700210
/-- R794. -/
def TDBG_DUMP_BASE_HI (p : Nat) : Nat := vf p + 0x700214
/-- R794. -/
def TDBG_DUMP_SIZE (p : Nat) : Nat := vf p + 0x700218
/-- R794. -/
def TDBG_DUMP_CFG (p : Nat) : Nat := vf p + 0x70021C
/-- R794. -/
def TDBG_DUMP_CTRL (p : Nat) : Nat := vf p + 0x700220
/-- R794. -/
def TDBG_DUMP_STAT (p : Nat) : Nat := vf p + 0x700224
/-- R553. -/
def TKEY_RGN_STAT (p : Nat) : Nat := vf p + 0x800800
/-- R554. -/
def TKEY_PROT_ERR (p : Nat) : Nat := vf p + 0x800804
/-- R554. -/
def TKEY_PROT_ADDR_LO (p : Nat) : Nat := vf p + 0x800808
/-- R554. -/
def TKEY_PROT_ADDR_HI (p : Nat) : Nat := vf p + 0x80080C
/-- R555. -/
def TKEY_PROT_COUNT (p : Nat) : Nat := vf p + 0x800810
/-- R555. -/
def TKEY_ALARM (p : Nat) : Nat := vf p + 0x800818
/-- R556. -/
def TKEY_PROT_INT_STATUS (p : Nat) : Nat := vf p + 0x800820
/-- R556. -/
def TKEY_PROT_INT_EN (p : Nat) : Nat := vf p + 0x800824
/-- R593. -/
def TKEY_PART (p : Nat) : Nat := vf p + 0x800C00
/-- R594. -/
def TKEY_PEER_LOST (p : Nat) : Nat := vf p + 0x800C04
/-- R594. -/
def TKEY_PEER_LOST_EN (p : Nat) : Nat := vf p + 0x800C08
/-- R552. -/
def TKEY_RGN_0 (p i : Nat) : Nat := vf p + 0x801000 + 16 * i
/-- R552. -/
def TKEY_RGN_1 (p i : Nat) : Nat := vf p + 0x801004 + 16 * i
/-- R552. -/
def TKEY_RGN_2 (p i : Nat) : Nat := vf p + 0x801008 + 16 * i
/-- R552. -/
def TKEY_RGN_3 (p i : Nat) : Nat := vf p + 0x80100C + 16 * i
/-- R638. -/
def HST_Q_BASE_LO (i : Nat) : Nat := 0x601000 + 32 * i
/-- R638. -/
def HST_Q_BASE_HI (i : Nat) : Nat := 0x601004 + 32 * i
/-- R638. -/
def HST_Q_CFG (i : Nat) : Nat := 0x601008 + 32 * i
/-- R638. -/
def HST_Q_DB (i : Nat) : Nat := 0x60100C + 32 * i
/-- R638. -/
def HST_Q_HEAD (i : Nat) : Nat := 0x601010 + 32 * i
/-- R638. -/
def HST_Q_DONE (i : Nat) : Nat := 0x601014 + 32 * i
/-- R638. -/
def HST_Q_STAT (i : Nat) : Nat := 0x601018 + 32 * i

end Reg

namespace Fld

def GLB_ID_PART : Fld := ⟨16, 16⟩
def GLB_ID_STEP : Fld := ⟨12, 4⟩
def GLB_ID_METAL : Fld := ⟨8, 4⟩
def GLB_ID_VARIANT : Fld := ⟨4, 4⟩
def GLB_UPTIME_LO_COUNT_LO : Fld := ⟨0, 32⟩
def GLB_UPTIME_HI_COUNT_HI : Fld := ⟨0, 32⟩
def GLB_RST_CTRL_WARM : Fld := ⟨0, 1⟩
def GLB_RST_CTRL_MAINT : Fld := ⟨1, 1⟩
def GLB_RST_CTRL_KEY : Fld := ⟨16, 16⟩
def GLB_RST_CAUSE_CAUSE : Fld := ⟨0, 4⟩
def GLB_RST_CAUSE_RESTARTED : Fld := ⟨4, 1⟩
def GLB_RST_COUNT_WARM : Fld := ⟨0, 16⟩
def GLB_BOOT_STAT_STAGE : Fld := ⟨0, 3⟩
def GLB_BOOT_STAT_READY : Fld := ⟨3, 1⟩
def GLB_BOOT_STAT_WIPE_DONE : Fld := ⟨4, 1⟩
def GLB_BOOT_STAT_STK_FAIL : Fld := ⟨5, 8⟩
def GLB_BOOT_STAT_SVC_WHY : Fld := ⟨13, 3⟩
def GLB_BOOT_STAT_COPY : Fld := ⟨16, 4⟩
def GLB_BOOT_STAT_REPAIR_AUTH : Fld := ⟨20, 1⟩
def GLB_BOOT_TIME_WIPE_US : Fld := ⟨0, 16⟩
def GLB_BOOT_TIME_READY_US : Fld := ⟨16, 16⟩
def GLB_UNTESTED_UNT_A : Fld := ⟨0, 4⟩
def GLB_UNTESTED_UNT_B : Fld := ⟨4, 4⟩
def GLB_FWSET_SETID : Fld := ⟨0, 32⟩
def GLB_LIST_VER_LISTVER : Fld := ⟨0, 32⟩
def GLB_VER_VERSION : Fld := ⟨0, 32⟩
def GLB_INT_STATUS_BOOT_READY : Fld := ⟨0, 1⟩
def GLB_INT_STATUS_SERVICE : Fld := ⟨1, 1⟩
def GLB_INT_STATUS_STK_FAIL : Fld := ⟨2, 1⟩
def GLB_INT_STATUS_FW_PENDING : Fld := ⟨3, 1⟩
def GLB_INT_STATUS_WDT : Fld := ⟨4, 1⟩
def GLB_INT_EN_BOOT_READY : Fld := ⟨0, 1⟩
def GLB_INT_EN_SERVICE : Fld := ⟨1, 1⟩
def GLB_INT_EN_STK_FAIL : Fld := ⟨2, 1⟩
def GLB_INT_EN_FW_PENDING : Fld := ⟨3, 1⟩
def GLB_INT_EN_WDT : Fld := ⟨4, 1⟩
def GLB_CLK_STAT_CCLK_LOCK : Fld := ⟨0, 1⟩
def GLB_CLK_STAT_MCLK_LOCK : Fld := ⟨1, 8⟩
def GLB_CLK_STAT_LREF_LOCK : Fld := ⟨9, 1⟩
def GLB_CLK_STAT_PCLK_LOCK : Fld := ⟨10, 1⟩
def PWR_FEED_A_OK : Fld := ⟨0, 1⟩
def PWR_FEED_B_OK : Fld := ⟨1, 1⟩
def PWR_FEED_ACTIVE_B : Fld := ⟨2, 1⟩
def PWR_FEED_A_OV : Fld := ⟨3, 1⟩
def PWR_FEED_B_OV : Fld := ⟨4, 1⟩
def PWR_FEED_XFERS : Fld := ⟨16, 16⟩
def PWR_INPUT_V_A_DV : Fld := ⟨0, 16⟩
def PWR_INPUT_V_B_DV : Fld := ⟨16, 16⟩
def PWR_INPUT_AVG_W : Fld := ⟨0, 12⟩
def PWR_INPUT_AVG_WIN : Fld := ⟨12, 20⟩
def PWR_ENERGY_LO_COUNT_LO : Fld := ⟨0, 32⟩
def PWR_ENERGY_HI_COUNT_HI : Fld := ⟨0, 32⟩
def PWR_STAT_VBAT_LOW : Fld := ⟨0, 1⟩
def PWR_STAT_VBAT_MV : Fld := ⟨1, 11⟩
def PWR_SAG_STAT_ACTIVE : Fld := ⟨0, 1⟩
def PWR_SAG_STAT_HOLD : Fld := ⟨1, 1⟩
def PWR_SAG_STAT_COUNT : Fld := ⟨16, 16⟩
def PWR_INT_STATUS_SAG_WARN : Fld := ⟨0, 1⟩
def PWR_INT_STATUS_SAG_END : Fld := ⟨1, 1⟩
def PWR_INT_STATUS_FEED_LOSS : Fld := ⟨2, 1⟩
def PWR_INT_STATUS_FEED_OV : Fld := ⟨3, 1⟩
def PWR_INT_STATUS_THERMAL : Fld := ⟨4, 1⟩
def PWR_INT_STATUS_THERMTRIP : Fld := ⟨5, 1⟩
def PWR_INT_STATUS_VBAT_LOW : Fld := ⟨6, 1⟩
def PWR_INT_STATUS_CAL_READY : Fld := ⟨7, 1⟩
def PWR_INT_STATUS_CAP_REJECT : Fld := ⟨8, 1⟩
def PWR_INT_EN_SAG_WARN : Fld := ⟨0, 1⟩
def PWR_INT_EN_SAG_END : Fld := ⟨1, 1⟩
def PWR_INT_EN_FEED_LOSS : Fld := ⟨2, 1⟩
def PWR_INT_EN_FEED_OV : Fld := ⟨3, 1⟩
def PWR_INT_EN_THERMAL : Fld := ⟨4, 1⟩
def PWR_INT_EN_THERMTRIP : Fld := ⟨5, 1⟩
def PWR_INT_EN_VBAT_LOW : Fld := ⟨6, 1⟩
def PWR_INT_EN_CAL_READY : Fld := ⟨7, 1⟩
def PWR_INT_EN_CAP_REJECT : Fld := ⟨8, 1⟩
def PWR_LIM_CTRL_MODE : Fld := ⟨0, 1⟩
def PWR_LIM_CTRL_MODE_LOCK : Fld := ⟨1, 1⟩
def PWR_LIM_CTRL_BOOST_EN : Fld := ⟨2, 1⟩
def PWR_LIM_CTRL_FF_EN : Fld := ⟨3, 1⟩
def PWR_LIM_CTRL_FF_IDX : Fld := ⟨4, 3⟩
def PWR_LIM_STAT_MODE : Fld := ⟨0, 1⟩
def PWR_LIM_STAT_FIRST_USE : Fld := ⟨1, 1⟩
def PWR_LIM_STAT_CAL_COUNT : Fld := ⟨2, 8⟩
def PWR_LIM_STAT_VF_IDX : Fld := ⟨10, 3⟩
def PWR_LIM_STAT_HOLD : Fld := ⟨13, 6⟩
def PWR_LIM_STAT_CAL_REJ : Fld := ⟨19, 8⟩
def PWR_CAP_W : Fld := ⟨0, 12⟩
def PWR_GAIN_GAIN : Fld := ⟨0, 32⟩
def PWR_EST_W : Fld := ⟨0, 12⟩
def PWR_EST_POOL_W : Fld := ⟨12, 12⟩
def PWR_THR_STAT_ACTIVE : Fld := ⟨0, 5⟩
def PWR_THR_STAT_CHARGED : Fld := ⟨5, 3⟩
def PWR_ILIM_A : Fld := ⟨0, 12⟩
def PWR_LIMREQ_IGN_COUNT : Fld := ⟨0, 32⟩
def PWR_TEMP_TJ : Fld := ⟨0, 8⟩
def PWR_TEMP_TS : Fld := ⟨8, 8⟩
def PWR_TEMP_SENSOR : Fld := ⟨16, 6⟩
def PWR_TEMP_TJ_PEAK : Fld := ⟨24, 8⟩
def PWR_THR_DUR_LO_COUNT_LO : Fld := ⟨0, 32⟩
def PWR_THR_DUR_HI_COUNT_HI : Fld := ⟨0, 32⟩
def PWR_VF_MHZ : Fld := ⟨0, 12⟩
def PWR_VF_VSET_MV : Fld := ⟨12, 10⟩
def MGT_TB_CTRL_EN : Fld := ⟨0, 1⟩
def MGT_TB_CTRL_RESYNC : Fld := ⟨1, 1⟩
def MGT_TB_STAT_SYNC : Fld := ⟨0, 1⟩
def MGT_TB_STAT_MUTED : Fld := ⟨1, 1⟩
def MGT_TB_STAT_VCOUNT : Fld := ⟨2, 2⟩
def MGT_TB_STAT_SLOT : Fld := ⟨4, 4⟩
def MGT_TB_STAT_DUP_SLOT : Fld := ⟨8, 1⟩
def MGT_NODE_NODE : Fld := ⟨0, 20⟩
def MGT_NODE_VALID : Fld := ⟨20, 1⟩
def MGT_HB_KICK_KICK : Fld := ⟨0, 32⟩
def MGT_FAIL_MASK : Fld := ⟨0, 9⟩
def MGT_HALT_CTRL_HALT : Fld := ⟨0, 1⟩
def MGT_HALT_CTRL_KEY : Fld := ⟨16, 16⟩
def MGT_HALT_STAT_HALTED : Fld := ⟨0, 1⟩
def MGT_HALT_STAT_SRC : Fld := ⟨1, 3⟩
def MGT_INT_STATUS_HALT : Fld := ⟨0, 1⟩
def MGT_INT_STATUS_FAIL : Fld := ⟨1, 1⟩
def MGT_INT_STATUS_DRIFT : Fld := ⟨2, 1⟩
def MGT_INT_STATUS_VIOL : Fld := ⟨3, 1⟩
def MGT_INT_STATUS_MUTED : Fld := ⟨4, 1⟩
def MGT_INT_STATUS_SYNC_LOSS : Fld := ⟨5, 1⟩
def MGT_INT_STATUS_PROBE_DONE : Fld := ⟨6, 1⟩
def MGT_INT_STATUS_EVT_LOST : Fld := ⟨7, 1⟩
def MGT_INT_STATUS_DUP_SLOT : Fld := ⟨8, 1⟩
def MGT_INT_EN_HALT : Fld := ⟨0, 1⟩
def MGT_INT_EN_FAIL : Fld := ⟨1, 1⟩
def MGT_INT_EN_DRIFT : Fld := ⟨2, 1⟩
def MGT_INT_EN_VIOL : Fld := ⟨3, 1⟩
def MGT_INT_EN_MUTED : Fld := ⟨4, 1⟩
def MGT_INT_EN_SYNC_LOSS : Fld := ⟨5, 1⟩
def MGT_INT_EN_PROBE_DONE : Fld := ⟨6, 1⟩
def MGT_INT_EN_EVT_LOST : Fld := ⟨7, 1⟩
def MGT_INT_EN_DUP_SLOT : Fld := ⟨8, 1⟩
def MGT_DRIFT_OFFSET : Fld := ⟨0, 8⟩
def MGT_DRIFT_WARN : Fld := ⟨8, 8⟩
def MGT_DRIFT_VIOL : Fld := ⟨16, 8⟩
def MGT_TB_CRC_COUNT : Fld := ⟨0, 32⟩
def MGT_TB_RXVIOL_COUNT : Fld := ⟨0, 32⟩
def MGT_TB_MUTES_COUNT : Fld := ⟨0, 32⟩
def MGT_TIME_LO_NS_LO : Fld := ⟨0, 32⟩
def MGT_TIME_HI_NS_HI : Fld := ⟨0, 32⟩
def MGT_FRAME_LO_FRAME_LO : Fld := ⟨0, 32⟩
def MGT_FRAME_HI_FRAME_HI : Fld := ⟨0, 16⟩
def MGT_TIME_OFS_LO_OFS_LO : Fld := ⟨0, 32⟩
def MGT_TIME_OFS_HI_OFS_HI : Fld := ⟨0, 32⟩
def MGT_TPROBE_CTRL_PORT : Fld := ⟨0, 4⟩
def MGT_TPROBE_CTRL_GO : Fld := ⟨4, 1⟩
def MGT_TPROBE_STAT_BUSY : Fld := ⟨0, 1⟩
def MGT_TPROBE_STAT_VALID : Fld := ⟨1, 1⟩
def MGT_TPROBE_STAT_RETRY : Fld := ⟨2, 1⟩
def MGT_TPROBE_STAT_TIMEOUT : Fld := ⟨3, 1⟩
def MGT_TPROBE_OFS_LO_OFS_LO : Fld := ⟨0, 32⟩
def MGT_TPROBE_OFS_HI_OFS_HI : Fld := ⟨0, 32⟩
def MGT_TPROBE_DLY_NS : Fld := ⟨0, 32⟩
def LCS_CODE_CODEWORD : Fld := ⟨0, 32⟩
def LCS_STAT_STATE : Fld := ⟨0, 3⟩
def LCS_STAT_TARGET : Fld := ⟨3, 3⟩
def LCS_STAT_LEVEL : Fld := ⟨6, 2⟩
def LCS_STAT_TOKENS : Fld := ⟨8, 5⟩
def LCS_STAT_BUSY : Fld := ⟨13, 1⟩
def LCS_STAT_CHAL_VALID : Fld := ⟨14, 1⟩
def LCS_STAT_REJECT : Fld := ⟨15, 1⟩
def LCS_STAT_WHY : Fld := ⟨16, 3⟩
def LCS_TOKEN_RAW : Fld := ⟨0, 16⟩
def LCS_LAST_OP : Fld := ⟨0, 3⟩
def LCS_LAST_FROM : Fld := ⟨3, 3⟩
def LCS_LAST_TO : Fld := ⟨6, 3⟩
def LCS_TRANS_TARGET : Fld := ⟨0, 3⟩
def LCS_TRANS_KEY : Fld := ⟨16, 16⟩
def LCS_DEBUG_LEVEL : Fld := ⟨0, 2⟩
def LCS_DEBUG_KEY : Fld := ⟨16, 16⟩
def LCS_CHAL_CTRL_GEN : Fld := ⟨0, 1⟩
def LCS_CHAL_CTRL_SUBMIT : Fld := ⟨1, 1⟩
def LCS_CHAL_CTRL_REQ : Fld := ⟨2, 2⟩
def LCS_INT_STATUS_REJECT : Fld := ⟨0, 1⟩
def LCS_INT_STATUS_CHAL_READY : Fld := ⟨1, 1⟩
def LCS_INT_EN_REJECT : Fld := ⟨0, 1⟩
def LCS_INT_EN_CHAL_READY : Fld := ⟨1, 1⟩
def LCS_CHAL_DATA : Fld := ⟨0, 32⟩
def LCS_RESP_DATA : Fld := ⟨0, 32⟩
def KEY_CMD_CODE : Fld := ⟨0, 8⟩
def KEY_CMD_TAG : Fld := ⟨8, 8⟩
def KEY_CTRL_GO : Fld := ⟨0, 1⟩
def KEY_STATUS_BUSY : Fld := ⟨0, 1⟩
def KEY_STATUS_DONE : Fld := ⟨1, 1⟩
def KEY_STATUS_REJECT : Fld := ⟨2, 1⟩
def KEY_STATUS_CODE : Fld := ⟨8, 8⟩
def KEY_STATUS_TAG : Fld := ⟨16, 8⟩
def KEY_STATUS_RLEN : Fld := ⟨24, 7⟩
def KEY_INT_EN_DONE : Fld := ⟨0, 1⟩
def KEY_INT_EN_REJECT : Fld := ⟨1, 1⟩
def KEY_INT_EN_ALERT : Fld := ⟨2, 1⟩
def KEY_ALERT_SOFT : Fld := ⟨0, 1⟩
def KEY_ALERT_EXHAUST : Fld := ⟨1, 1⟩
def KEY_ALERT_REVOKED : Fld := ⟨2, 1⟩
def KEY_ARG_DATA : Fld := ⟨0, 32⟩
def KEY_RES_DATA : Fld := ⟨0, 32⟩
def TKEY_CMD_CODE : Fld := ⟨0, 8⟩
def TKEY_CMD_TAG : Fld := ⟨8, 8⟩
def TKEY_CTRL_GO : Fld := ⟨0, 1⟩
def TKEY_STATUS_BUSY : Fld := ⟨0, 1⟩
def TKEY_STATUS_DONE : Fld := ⟨1, 1⟩
def TKEY_STATUS_REJECT : Fld := ⟨2, 1⟩
def TKEY_STATUS_CODE : Fld := ⟨8, 8⟩
def TKEY_STATUS_TAG : Fld := ⟨16, 8⟩
def TKEY_STATUS_RLEN : Fld := ⟨24, 7⟩
def TKEY_INT_EN_DONE : Fld := ⟨0, 1⟩
def TKEY_INT_EN_REJECT : Fld := ⟨1, 1⟩
def TKEY_INT_EN_ALERT : Fld := ⟨2, 1⟩
def TKEY_ALERT_SOFT : Fld := ⟨0, 1⟩
def TKEY_ALERT_EXHAUST : Fld := ⟨1, 1⟩
def TKEY_ALERT_REVOKED : Fld := ⟨2, 1⟩
def TKEY_ARG_DATA : Fld := ⟨0, 32⟩
def TKEY_RES_DATA : Fld := ⟨0, 32⟩
def KEY_ROOT_STAT_ROOT_OK : Fld := ⟨0, 1⟩
def KEY_ROOT_STAT_IDENT_OK : Fld := ⟨1, 1⟩
def KEY_ROOT_STAT_DRBG_OK : Fld := ⟨2, 1⟩
def KEY_ROOT_STAT_CAUSE : Fld := ⟨3, 4⟩
def KEY_PEPOCH_EPOCH : Fld := ⟨0, 32⟩
def TKEY_PEPOCH_EPOCH : Fld := ⟨0, 32⟩
def LL_PORT_CTRL_EN : Fld := ⟨0, 1⟩
def LL_PORT_CTRL_GEN2_EN : Fld := ⟨1, 1⟩
def LL_PORT_CTRL_CHECK : Fld := ⟨2, 1⟩
def LL_PORT_CTRL_RETRAIN : Fld := ⟨3, 1⟩
def LL_PORT_CTRL_REKEY : Fld := ⟨4, 1⟩
def LL_PORT_CTRL_TLOCK : Fld := ⟨8, 1⟩
def LL_PORT_STAT_STATE : Fld := ⟨0, 4⟩
def LL_PORT_STAT_GEN : Fld := ⟨4, 2⟩
def LL_PORT_STAT_WIDTH4 : Fld := ⟨6, 1⟩
def LL_PORT_STAT_HALF : Fld := ⟨7, 1⟩
def LL_PORT_STAT_SECURE : Fld := ⟨8, 1⟩
def LL_PORT_STAT_BARRED : Fld := ⟨9, 1⟩
def LL_PORT_STAT_DOWN_WHY : Fld := ⟨10, 3⟩
def LL_PEER_NODE : Fld := ⟨0, 20⟩
def LL_PEER_PORT : Fld := ⟨20, 4⟩
def LL_EXPECT_NODE : Fld := ⟨0, 20⟩
def LL_INT_STATUS_UP : Fld := ⟨0, 1⟩
def LL_INT_STATUS_DOWN : Fld := ⟨1, 1⟩
def LL_INT_STATUS_DEGRADE : Fld := ⟨2, 1⟩
def LL_INT_STATUS_RETRAIN : Fld := ⟨3, 1⟩
def LL_INT_STATUS_AUTH_FAIL : Fld := ⟨4, 1⟩
def LL_INT_STATUS_REKEY_DUE : Fld := ⟨5, 1⟩
def LL_INT_STATUS_EXHAUST : Fld := ⟨6, 1⟩
def LL_INT_STATUS_WIN_ERR : Fld := ⟨7, 1⟩
def LL_INT_STATUS_CFG_REJECT : Fld := ⟨8, 1⟩
def LL_INT_EN_UP : Fld := ⟨0, 1⟩
def LL_INT_EN_DOWN : Fld := ⟨1, 1⟩
def LL_INT_EN_DEGRADE : Fld := ⟨2, 1⟩
def LL_INT_EN_RETRAIN : Fld := ⟨3, 1⟩
def LL_INT_EN_AUTH_FAIL : Fld := ⟨4, 1⟩
def LL_INT_EN_REKEY_DUE : Fld := ⟨5, 1⟩
def LL_INT_EN_EXHAUST : Fld := ⟨6, 1⟩
def LL_INT_EN_WIN_ERR : Fld := ⟨7, 1⟩
def LL_INT_EN_CFG_REJECT : Fld := ⟨8, 1⟩
def LL_SLOT_OWNER0 : Fld := ⟨0, 4⟩
def LL_SLOT_OWNER1 : Fld := ⟨4, 4⟩
def LL_SLOT_OWNER2 : Fld := ⟨8, 4⟩
def LL_SLOT_OWNER3 : Fld := ⟨12, 4⟩
def LL_SLOT_OWNER4 : Fld := ⟨16, 4⟩
def LL_SLOT_OWNER5 : Fld := ⟨20, 4⟩
def LL_SLOT_OWNER6 : Fld := ⟨24, 4⟩
def LL_SLOT_OWNER7 : Fld := ⟨28, 4⟩
def LL_BIND_VALID : Fld := ⟨0, 1⟩
def LL_BIND_PEER_END : Fld := ⟨1, 3⟩
def LL_BIND_PEPOCH_RX : Fld := ⟨4, 8⟩
def LL_BIND_PEPOCH_TX : Fld := ⟨12, 8⟩
def LL_TX_KEY_EPOCH : Fld := ⟨0, 24⟩
def LL_TX_KEY_LOADED : Fld := ⟨24, 1⟩
def LL_TX_KEY_SOFT : Fld := ⟨25, 1⟩
def LL_TX_KEY_EXHAUSTED : Fld := ⟨26, 1⟩
def LL_TX_FCTR_LO_COUNT_LO : Fld := ⟨0, 32⟩
def LL_TX_FCTR_HI_COUNT_HI : Fld := ⟨0, 32⟩
def LL_RX_KEY_EPOCH : Fld := ⟨0, 24⟩
def LL_RX_KEY_LOADED : Fld := ⟨24, 1⟩
def LL_RX_KEY_RETAIN : Fld := ⟨25, 1⟩
def LL_REKEY_CFG_HOURS : Fld := ⟨0, 5⟩
def LL_REPLAY_USED : Fld := ⟨0, 16⟩
def LL_REPLAY_PEAK : Fld := ⟨16, 16⟩
def LL_TX_FRAMES_LO_COUNT_LO : Fld := ⟨0, 32⟩
def LL_TX_FRAMES_HI_COUNT_HI : Fld := ⟨0, 32⟩
def LL_RX_FRAMES_LO_COUNT_LO : Fld := ⟨0, 32⟩
def LL_RX_FRAMES_HI_COUNT_HI : Fld := ⟨0, 32⟩
def LL_FEC_CORR_LO_COUNT_LO : Fld := ⟨0, 32⟩
def LL_FEC_CORR_HI_COUNT_HI : Fld := ⟨0, 32⟩
def LL_CRC_ERR_COUNT : Fld := ⟨0, 32⟩
def LL_NAK_COUNT : Fld := ⟨0, 32⟩
def LL_REPLAY_EVT_COUNT : Fld := ⟨0, 32⟩
def LL_REPLAY_FRM_COUNT : Fld := ⟨0, 32⟩
def LL_DISCARD_COUNT : Fld := ⟨0, 32⟩
def LL_AUTH_FAIL_COUNT : Fld := ⟨0, 32⟩
def LL_EPOCH_DROP_COUNT : Fld := ⟨0, 32⟩
def LL_OLD_DROP_COUNT : Fld := ⟨0, 32⟩
def LL_HDR_DROP_COUNT : Fld := ⟨0, 32⟩
def LL_WIN_ERR_COUNT : Fld := ⟨0, 32⟩
def LL_RETRAIN_COUNT : Fld := ⟨0, 32⟩
def LL_DEGRADE_COUNT : Fld := ⟨0, 32⟩
def LL_TRAIN_0_ACTION : Fld := ⟨0, 4⟩
def LL_TRAIN_0_NEXT_OK : Fld := ⟨4, 4⟩
def LL_TRAIN_0_NEXT_ALT : Fld := ⟨8, 4⟩
def LL_TRAIN_0_NEXT_FAIL : Fld := ⟨12, 4⟩
def LL_TRAIN_0_TRIES : Fld := ⟨16, 4⟩
def LL_TRAIN_1_TMO : Fld := ⟨0, 24⟩
def LL_TRAIN_1_PARAM : Fld := ⟨24, 8⟩
def LL_TRAIN_VER_VER : Fld := ⟨0, 16⟩
def HST_INT_STATUS_CB_DONE : Fld := ⟨0, 4⟩
def HST_INT_STATUS_Q_ERR : Fld := ⟨4, 4⟩
def HST_INT_STATUS_IDE_INSECURE : Fld := ⟨8, 4⟩
def HST_INT_EN_CB_DONE : Fld := ⟨0, 4⟩
def HST_INT_EN_Q_ERR : Fld := ⟨4, 4⟩
def HST_INT_EN_IDE_INSECURE : Fld := ⟨8, 4⟩
def HST_IDE_SECURE : Fld := ⟨0, 1⟩
def HST_IDE_VF : Fld := ⟨1, 3⟩
def HST_IDE_PCRC : Fld := ⟨4, 1⟩
def HST_IDE_STREAM_ID : Fld := ⟨8, 8⟩
def MEM_PSPLIT_LOCAL_GIB : Fld := ⟨0, 7⟩
def MEM_INT_STATUS_ALARM : Fld := ⟨0, 4⟩
def MEM_INT_STATUS_POISON : Fld := ⟨4, 1⟩
def MEM_INT_STATUS_IFC_AUTH : Fld := ⟨5, 1⟩
def MEM_INT_STATUS_UE : Fld := ⟨6, 1⟩
def MEM_INT_STATUS_CFG_REJECT : Fld := ⟨7, 1⟩
def MEM_INT_STATUS_STK_FAIL : Fld := ⟨8, 1⟩
def MEM_INT_EN_ALARM : Fld := ⟨0, 4⟩
def MEM_INT_EN_POISON : Fld := ⟨4, 1⟩
def MEM_INT_EN_IFC_AUTH : Fld := ⟨5, 1⟩
def MEM_INT_EN_UE : Fld := ⟨6, 1⟩
def MEM_INT_EN_CFG_REJECT : Fld := ⟨7, 1⟩
def MEM_INT_EN_STK_FAIL : Fld := ⟨8, 1⟩
def MEM_ALARM_CAUSE_CAUSE : Fld := ⟨0, 4⟩
def MEM_ALARM_CAUSE_STACK : Fld := ⟨4, 3⟩
def MEM_STK_STAT_STATE : Fld := ⟨0, 2⟩
def MEM_STK_STAT_REF2X : Fld := ⟨2, 1⟩
def MEM_STK_STAT_PATROL_BUSY : Fld := ⟨3, 1⟩
def MEM_STK_STAT_TEMP : Fld := ⟨4, 7⟩
def MEM_STK_CTRL_PATROL_EN : Fld := ⟨0, 1⟩
def MEM_STK_CTRL_PPR_EN : Fld := ⟨1, 1⟩
def MEM_STK_CTRL_PATROL_H : Fld := ⟨8, 8⟩
def MEM_TAG_INUSE : Fld := ⟨0, 12⟩
def MEM_TAG_PEAK : Fld := ⟨16, 12⟩
def MEM_TAG_STALL_LO_COUNT_LO : Fld := ⟨0, 32⟩
def MEM_TAG_STALL_HI_COUNT_HI : Fld := ⟨0, 32⟩
def MEM_CE_COUNT_COUNT : Fld := ⟨0, 32⟩
def MEM_UE_COUNT_COUNT : Fld := ⟨0, 32⟩
def MEM_MAC_FAIL_COUNT : Fld := ⟨0, 32⟩
def MEM_REREAD_COUNT : Fld := ⟨0, 32⟩
def MEM_POISON_COUNT_COUNT : Fld := ⟨0, 11⟩
def MEM_PPR_COUNT_COUNT : Fld := ⟨0, 16⟩
def MEM_ERR_LAST_LO_PC : Fld := ⟨0, 5⟩
def MEM_ERR_LAST_LO_BANK : Fld := ⟨5, 6⟩
def MEM_ERR_LAST_LO_ROW : Fld := ⟨11, 15⟩
def MEM_ERR_LAST_LO_COL : Fld := ⟨26, 2⟩
def MEM_ERR_LAST_HI_KIND : Fld := ⟨0, 3⟩
def MEM_ERR_LAST_HI_PART : Fld := ⟨3, 3⟩
def MEM_ERR_LAST_HI_PERSIST : Fld := ⟨6, 1⟩
def MEM_NME_STAT_QDEPTH : Fld := ⟨0, 9⟩
def MEM_NME_STAT_BUSY : Fld := ⟨9, 1⟩
def MEM_NME_STAT_UPD_BUSY : Fld := ⟨10, 1⟩
def MEM_NME_STAT_LINKKEY : Fld := ⟨11, 1⟩
def MEM_NME_CMD_LO_COUNT_LO : Fld := ⟨0, 32⟩
def MEM_NME_CMD_HI_COUNT_HI : Fld := ⟨0, 32⟩
def MEM_NME_DELAY_LO_COUNT_LO : Fld := ⟨0, 32⟩
def MEM_NME_DELAY_HI_COUNT_HI : Fld := ⟨0, 32⟩
def PRT_LAYOUT_PARTS : Fld := ⟨0, 3⟩
def PRT_STATUS_WR_REJECT : Fld := ⟨0, 1⟩
def PRT_STATUS_LAYOUT_BUSY : Fld := ⟨1, 1⟩
def PRT_STATUS_ASSIGN_REJECT : Fld := ⟨2, 1⟩
def PRT_CTRL_ASSIGN : Fld := ⟨0, 1⟩
def PRT_STATE_STATE : Fld := ⟨0, 3⟩
def PRT_STATE_JOINT : Fld := ⟨3, 1⟩
def PRT_STATE_TDI : Fld := ⟨4, 2⟩
def PRT_STATE_CAUSE : Fld := ⟨6, 4⟩
def PRT_STATE_WIPE_FAIL : Fld := ⟨10, 1⟩
def PRT_MAP_QUAD0 : Fld := ⟨0, 2⟩
def PRT_MAP_NQUAD : Fld := ⟨2, 3⟩
def PRT_MAP_STKMASK : Fld := ⟨5, 8⟩
def PRT_MAP_CORE_BASE : Fld := ⟨13, 7⟩
def PRT_INT_STATUS_EMPTY_n : Fld := ⟨0, 4⟩
def PRT_INT_STATUS_READY_n : Fld := ⟨4, 4⟩
def PRT_INT_STATUS_ACTIVE_n : Fld := ⟨8, 4⟩
def PRT_INT_STATUS_DRAIN_n : Fld := ⟨12, 4⟩
def PRT_INT_EN_EMPTY_n : Fld := ⟨0, 4⟩
def PRT_INT_EN_READY_n : Fld := ⟨4, 4⟩
def PRT_INT_EN_ACTIVE_n : Fld := ⟨8, 4⟩
def PRT_INT_EN_DRAIN_n : Fld := ⟨12, 4⟩
def PRT_RM_TIME_US : Fld := ⟨0, 24⟩
def DBG_SEPIA_CTRL_FREEZE : Fld := ⟨0, 1⟩
def DBG_SEPIA_CTRL_THAW : Fld := ⟨1, 1⟩
def DBG_SEPIA_CTRL_FREEZE_ON_HALT : Fld := ⟨2, 1⟩
def DBG_SEPIA_STAT_FROZEN : Fld := ⟨0, 1⟩
def DBG_SEPIA_STAT_BY_HALT : Fld := ⟨1, 1⟩
def DBG_DUMP_BASE_LO_ADDR_LO : Fld := ⟨12, 20⟩
def DBG_DUMP_BASE_HI_ADDR_HI : Fld := ⟨0, 32⟩
def DBG_DUMP_SIZE_KIB : Fld := ⟨0, 16⟩
def DBG_DUMP_CTRL_GO : Fld := ⟨0, 1⟩
def DBG_DUMP_CTRL_TENANTS : Fld := ⟨1, 1⟩
def DBG_DUMP_STAT_BUSY : Fld := ⟨0, 1⟩
def DBG_DUMP_STAT_DONE : Fld := ⟨1, 1⟩
def DBG_DUMP_STAT_TRUNC : Fld := ⟨2, 1⟩
def DBG_DUMP_STAT_NOT_FROZEN : Fld := ⟨3, 1⟩
def DBG_DUMP_STAT_PART_DONE : Fld := ⟨4, 4⟩
def DBG_STEP_CTRL_HOLD : Fld := ⟨0, 1⟩
def DBG_STEP_CTRL_STEP : Fld := ⟨1, 1⟩
def DBG_STEP_STAT_HELD : Fld := ⟨0, 1⟩
def DBG_STEP_STAT_RELEASED : Fld := ⟨1, 31⟩
def DBG_WIN_CTRL_KEYLESS : Fld := ⟨0, 1⟩
def DBG_WIN_ADDR_LO_ADDR_LO : Fld := ⟨12, 20⟩
def DBG_WIN_ADDR_HI_ADDR_HI : Fld := ⟨0, 7⟩
def DBG_WIN_DATA_DATA : Fld := ⟨0, 32⟩
def DBG_INT_STATUS_DUMP_DONE : Fld := ⟨0, 1⟩
def DBG_INT_STATUS_FROZEN : Fld := ⟨1, 1⟩
def DBG_INT_STATUS_SRAM : Fld := ⟨2, 1⟩
def DBG_INT_STATUS_PROT : Fld := ⟨3, 1⟩
def DBG_INT_EN_DUMP_DONE : Fld := ⟨0, 1⟩
def DBG_INT_EN_FROZEN : Fld := ⟨1, 1⟩
def DBG_INT_EN_SRAM : Fld := ⟨2, 1⟩
def DBG_INT_EN_PROT : Fld := ⟨3, 1⟩
def DBG_SCRUB_CTRL_EN : Fld := ⟨0, 1⟩
def DBG_SCRUB_CTRL_THRESH : Fld := ⟨8, 8⟩
def DBG_SCRUB_CTRL_PERIOD_MS : Fld := ⟨16, 8⟩
def DBG_SRAM_STAT_TEST_BUSY : Fld := ⟨0, 1⟩
def DBG_SRAM_STAT_CE_EVT : Fld := ⟨1, 1⟩
def DBG_SRAM_STAT_UE_EVT : Fld := ⟨2, 1⟩
def DBG_SRAM_STAT_TEST_DONE : Fld := ⟨3, 1⟩
def DBG_SRAM_LAST_LO_PCORE : Fld := ⟨0, 8⟩
def DBG_SRAM_LAST_LO_BANK : Fld := ⟨8, 4⟩
def DBG_SRAM_LAST_LO_MACRO : Fld := ⟨12, 4⟩
def DBG_SRAM_LAST_LO_COL : Fld := ⟨16, 10⟩
def DBG_SRAM_LAST_HI_ROW : Fld := ⟨0, 10⟩
def DBG_SRAM_LAST_HI_UE : Fld := ⟨10, 1⟩
def DBG_SRAM_LAST_HI_PORT : Fld := ⟨11, 2⟩
def DBG_COLTEST_PCORE : Fld := ⟨0, 8⟩
def DBG_COLTEST_BANK : Fld := ⟨8, 4⟩
def DBG_COLTEST_MACRO : Fld := ⟨12, 4⟩
def DBG_COLTEST_COL : Fld := ⟨16, 10⟩
def DBG_COLTEST_VERDICT : Fld := ⟨26, 4⟩
def DBG_COLTEST_ROW_FIRST : Fld := ⟨0, 10⟩
def DBG_COLTEST_ROW_NFAIL : Fld := ⟨10, 10⟩
def DBG_CE_COUNT_COUNT : Fld := ⟨0, 32⟩
def DBG_UE_COUNT_COUNT : Fld := ⟨0, 32⟩
def DBG_CORE_STAT_ROLE : Fld := ⟨0, 2⟩
def DBG_CORE_STAT_LOGICAL : Fld := ⟨2, 8⟩
def DBG_CORE_STAT_RETIRE_PEND : Fld := ⟨10, 1⟩
def DBG_CORE_STAT_HARD_COLS : Fld := ⟨11, 8⟩
def DBG_CORE_STAT_CELL_FAULTS : Fld := ⟨19, 8⟩
def DBG_REPAIR_SEL_PCORE : Fld := ⟨0, 8⟩
def DBG_REPAIR_SEL_BANK : Fld := ⟨8, 4⟩
def DBG_REPAIR_SEL_MACRO : Fld := ⟨12, 4⟩
def DBG_REPAIR_DATA_COL : Fld := ⟨0, 10⟩
def DBG_REPAIR_DATA_STATE : Fld := ⟨10, 2⟩
def DBG_QUAD_STAT_QUAD_FAIL : Fld := ⟨0, 4⟩
def DBG_QUAD_STAT_SPARES_LEFT : Fld := ⟨4, 8⟩
def DBG_PROT_COUNT_COUNT : Fld := ⟨0, 32⟩
def DBG_PROT_LAST_CODE : Fld := ⟨0, 8⟩
def DBG_PROT_LAST_MASTER : Fld := ⟨8, 6⟩
def DBG_PROT_LAST_PART : Fld := ⟨14, 3⟩
def DBG_PROT_LAST_WRITE : Fld := ⟨17, 1⟩
def MTR_CTRL_PERIOD_MIN : Fld := ⟨0, 16⟩
def MTR_CTRL_TENANCY : Fld := ⟨16, 1⟩
def MTR_CTRL_CLOSE : Fld := ⟨17, 1⟩
def MTR_STAT_SEALING : Fld := ⟨0, 1⟩
def MTR_STAT_REC_VALID : Fld := ⟨1, 1⟩
def MTR_STAT_UNSIGNED : Fld := ⟨2, 1⟩
def MTR_STAT_SAG_FROZEN : Fld := ⟨3, 1⟩
def MTR_PERIOD_PERIOD : Fld := ⟨0, 32⟩
def MTR_REC_SEL_INDEX : Fld := ⟨0, 3⟩
def MTR_RTC_LO_MS : Fld := ⟨0, 32⟩
def MTR_RTC_HI_MS : Fld := ⟨0, 32⟩
def MTR_RTC_SET_LO_MS : Fld := ⟨0, 32⟩
def MTR_RTC_SET_HI_MS : Fld := ⟨0, 32⟩
def MTR_RTC_CTRL_SET : Fld := ⟨0, 1⟩
def MTR_RTC_CTRL_KEY : Fld := ⟨16, 16⟩
def MTR_MONO_LO_MS : Fld := ⟨0, 32⟩
def MTR_MONO_HI_MS : Fld := ⟨0, 32⟩
def MTR_INT_STATUS_CLOSED : Fld := ⟨0, 1⟩
def MTR_INT_STATUS_SET : Fld := ⟨1, 1⟩
def MTR_INT_STATUS_SAG_CLOSE : Fld := ⟨2, 1⟩
def MTR_INT_EN_CLOSED : Fld := ⟨0, 1⟩
def MTR_INT_EN_SET : Fld := ⟨1, 1⟩
def MTR_INT_EN_SAG_CLOSE : Fld := ⟨2, 1⟩
def MTR_P_BEATS_LO_COUNT : Fld := ⟨0, 32⟩
def MTR_P_BEATS_HI_COUNT : Fld := ⟨0, 32⟩
def MTR_P_MEM_LO_COUNT : Fld := ⟨0, 32⟩
def MTR_P_MEM_HI_COUNT : Fld := ⟨0, 32⟩
def MTR_P_TX_LO_COUNT : Fld := ⟨0, 32⟩
def MTR_P_TX_HI_COUNT : Fld := ⟨0, 32⟩
def MTR_P_RX_LO_COUNT : Fld := ⟨0, 32⟩
def MTR_P_RX_HI_COUNT : Fld := ⟨0, 32⟩
def MTR_SETLOG_OLD_LO_MS : Fld := ⟨0, 32⟩
def MTR_SETLOG_OLD_HI_MS : Fld := ⟨0, 32⟩
def MTR_SETLOG_NEW_LO_MS : Fld := ⟨0, 32⟩
def MTR_SETLOG_NEW_HI_MS : Fld := ⟨0, 32⟩
def MTR_SETLOG_MONO_LO_MS : Fld := ⟨0, 32⟩
def MTR_SETLOG_MONO_HI_MS : Fld := ⟨0, 32⟩
def MTR_SETLOG_PERIOD_PERIOD : Fld := ⟨0, 32⟩
def MTR_SETLOG_STAT_NEXT : Fld := ⟨0, 4⟩
def MTR_SETLOG_STAT_TOTAL : Fld := ⟨16, 16⟩
def MTR_REC_DATA : Fld := ⟨0, 32⟩
def QUE_INT_STATUS_CB_ERR : Fld := ⟨0, 1⟩
def QUE_INT_STATUS_Q_ERR : Fld := ⟨1, 1⟩
def QUE_INT_STATUS_CANCEL_DONE : Fld := ⟨2, 1⟩
def QUE_INT_STATUS_CANCEL_REJECT : Fld := ⟨3, 1⟩
def QUE_INT_STATUS_DB_REJECT : Fld := ⟨4, 1⟩
def QUE_INT_EN_CB_ERR : Fld := ⟨0, 1⟩
def QUE_INT_EN_Q_ERR : Fld := ⟨1, 1⟩
def QUE_INT_EN_CANCEL_DONE : Fld := ⟨2, 1⟩
def QUE_INT_EN_CANCEL_REJECT : Fld := ⟨3, 1⟩
def QUE_INT_EN_DB_REJECT : Fld := ⟨4, 1⟩
def QUE_CANCEL_SEQ_SEQ : Fld := ⟨0, 32⟩
def QUE_CANCEL_QUEUE : Fld := ⟨0, 6⟩
def QUE_CANCEL_GO : Fld := ⟨8, 1⟩
def QUE_CANCEL_STAT_BUSY : Fld := ⟨0, 1⟩
def QUE_CANCEL_STAT_RESULT : Fld := ⟨1, 2⟩
def QUE_CTX_WEIGHT : Fld := ⟨0, 4⟩
def QUE_CTX_KILL : Fld := ⟨8, 1⟩
def QUE_BASE_LO_ADDR_LO : Fld := ⟨12, 20⟩
def QUE_BASE_HI_ADDR_HI : Fld := ⟨0, 32⟩
def QUE_CFG_EN : Fld := ⟨0, 1⟩
def QUE_CFG_LOG2N : Fld := ⟨1, 5⟩
def QUE_CFG_CTX : Fld := ⟨6, 6⟩
def QUE_DB_TAIL : Fld := ⟨0, 32⟩
def QUE_HEAD_HEAD : Fld := ⟨0, 32⟩
def QUE_DONE_OLDEST : Fld := ⟨0, 32⟩
def QUE_STAT_STATE : Fld := ⟨0, 2⟩
def QUE_STAT_INFLIGHT : Fld := ⟨2, 9⟩
def QUE_STAT_AT_BOUND : Fld := ⟨11, 1⟩
def QUE_STAT_DB_REJECT : Fld := ⟨12, 1⟩
def QUE_STAT_FETCH_ERR : Fld := ⟨13, 1⟩
def FEN_COUNT_COUNT : Fld := ⟨0, 17⟩
def FEN_INT_STATUS_EVT : Fld := ⟨0, 1⟩
def FEN_INT_STATUS_OVF : Fld := ⟨1, 1⟩
def FEN_INT_EN_EVT : Fld := ⟨0, 1⟩
def FEN_INT_EN_OVF : Fld := ⟨1, 1⟩
def FEN_EVQ_BASE_LO_ADDR_LO : Fld := ⟨12, 20⟩
def FEN_EVQ_BASE_HI_ADDR_HI : Fld := ⟨0, 32⟩
def FEN_EVQ_CFG_EN : Fld := ⟨0, 1⟩
def FEN_EVQ_CFG_LOG2N : Fld := ⟨1, 4⟩
def FEN_EVQ_HEAD_HEAD : Fld := ⟨0, 32⟩
def FEN_EVQ_TAIL_TAIL : Fld := ⟨0, 32⟩
def FEN_EVQ_STAT_OVF : Fld := ⟨0, 1⟩
def FEN_EVQ_STAT_LOST : Fld := ⟨16, 16⟩
def FEN_F_SIG : Fld := ⟨0, 1⟩
def FEN_F_RESET : Fld := ⟨1, 1⟩
def FEN_F_NOTIFY : Fld := ⟨2, 1⟩
def FEN_F_ERR : Fld := ⟨8, 8⟩
def SEQ_CTRL_RUN : Fld := ⟨0, 1⟩
def SEQ_CTRL_CONT : Fld := ⟨1, 1⟩
def SEQ_CTRL_STOP : Fld := ⟨2, 1⟩
def SEQ_CTRL_RESUME : Fld := ⟨3, 1⟩
def SEQ_CTRL_BRK_EN : Fld := ⟨8, 1⟩
def SEQ_STATUS_STATE : Fld := ⟨0, 3⟩
def SEQ_IMG_BASE_LO_ADDR_LO : Fld := ⟨6, 26⟩
def SEQ_IMG_BASE_HI_ADDR_HI : Fld := ⟨0, 24⟩
def SEQ_PC_PC : Fld := ⟨0, 32⟩
def SEQ_BIP_BIP : Fld := ⟨0, 20⟩
def SEQ_PERIOD_PID : Fld := ⟨0, 16⟩
def SEQ_ISRAM_PMAX : Fld := ⟨0, 19⟩
def SEQ_BEATS_LO_COUNT_LO : Fld := ⟨0, 32⟩
def SEQ_BEATS_HI_COUNT_HI : Fld := ⟨0, 32⟩
def SEQ_ERR_CODE : Fld := ⟨0, 8⟩
def SEQ_ERR_CORE : Fld := ⟨8, 8⟩
def SEQ_ERR_UNIT : Fld := ⟨16, 4⟩
def SEQ_ERR_PC_PC : Fld := ⟨0, 32⟩
def SEQ_INT_STATUS_END : Fld := ⟨0, 1⟩
def SEQ_INT_STATUS_FAULT : Fld := ⟨1, 1⟩
def SEQ_INT_STATUS_BRK : Fld := ⟨2, 1⟩
def SEQ_INT_STATUS_CMD_REJECT : Fld := ⟨3, 1⟩
def SEQ_INT_STATUS_SCHED_LOST : Fld := ⟨4, 1⟩
def SEQ_INT_EN_END : Fld := ⟨0, 1⟩
def SEQ_INT_EN_FAULT : Fld := ⟨1, 1⟩
def SEQ_INT_EN_BRK : Fld := ⟨2, 1⟩
def SEQ_INT_EN_CMD_REJECT : Fld := ⟨3, 1⟩
def SEQ_INT_EN_SCHED_LOST : Fld := ⟨4, 1⟩
def SEQ_LOOP_COUNT : Fld := ⟨0, 24⟩
def SEQ_CSET_OUT : Fld := ⟨0, 16⟩
def SEQ_LATE_LATE : Fld := ⟨0, 32⟩
def SEQ_LATE_MAX_MAX : Fld := ⟨0, 32⟩
def SEQ_CATCHUP_LIMIT_LIMIT : Fld := ⟨0, 32⟩
def SEQ_LATE_STAT_LOST : Fld := ⟨0, 1⟩
def SEQ_LATE_STAT_PEER_CAUSED : Fld := ⟨1, 1⟩
def SEQ_LATE_STAT_ANN_PEND : Fld := ⟨2, 1⟩
def SEQ_GATE_STAT_FALSE : Fld := ⟨0, 10⟩
def SEQ_GATE_STAT_RESID : Fld := ⟨10, 1⟩
def SEQ_GATE_STAT_COMMIT : Fld := ⟨11, 1⟩
def SEQ_GATE_STAT_HOLD : Fld := ⟨12, 1⟩
def SEQ_GATE_STAT_LAST : Fld := ⟨16, 4⟩
def SEQ_WAIT_LO_COUNT_LO : Fld := ⟨0, 32⟩
def SEQ_WAIT_HI_COUNT_HI : Fld := ⟨0, 32⟩
def SEQ_CONS_LO_COUNT_LO : Fld := ⟨0, 32⟩
def SEQ_CONS_HI_COUNT_HI : Fld := ⟨0, 32⟩
def SEQ_SLOST_COUNT_COUNT : Fld := ⟨0, 32⟩
def SEQ_ANN_TAG_TAG : Fld := ⟨0, 16⟩
def SEQ_PEER_LATE_ACTIVE : Fld := ⟨0, 1⟩
def SEQ_PEER_LATE_LATE_K : Fld := ⟨4, 16⟩
def SEQ_PEER_LATE_SLOT : Fld := ⟨20, 4⟩
def SEQ_PEER_LATE_END : Fld := ⟨24, 3⟩
def SEQ_PEER_SRC_NODE : Fld := ⟨0, 20⟩
def SEQ_PEER_SRC_RELAYED : Fld := ⟨20, 1⟩
def SEQ_GRP_MASK : Fld := ⟨0, 32⟩
def SEQ_GRP_4_SPARE : Fld := ⟨0, 8⟩
def SEQ_RING_BASE_LO_ADDR_LO : Fld := ⟨5, 27⟩
def SEQ_RING_BASE_HI_ADDR_HI : Fld := ⟨0, 24⟩
def SEQ_RING_CFG_TYPE : Fld := ⟨0, 3⟩
def SEQ_RING_CFG_LOG2N : Fld := ⟨4, 4⟩
def SEQ_RING_CFG_RSZM1 : Fld := ⟨8, 11⟩
def SEQ_RING_CFG_PEER_CORE : Fld := ⟨20, 7⟩
def SEQ_RING_CFG_PEER_RING : Fld := ⟨27, 4⟩
def SEQ_RING_PROD_PROD : Fld := ⟨0, 32⟩
def SEQ_RING_CONS_CONS : Fld := ⟨0, 32⟩
def SEQ_RING_CTRL_EOD : Fld := ⟨0, 1⟩
def SEQ_RING_CTRL_RESET : Fld := ⟨1, 1⟩
def SEQ_RING_STAT_SHORT : Fld := ⟨0, 1⟩
def SEQ_RING_STAT_SHORT_CNT : Fld := ⟨1, 12⟩
def SEQ_RING_STAT_ERR_PROD : Fld := ⟨13, 1⟩
def SEQ_RING_STAT_ERR_CONS : Fld := ⟨14, 1⟩
def SEQ_RING_STAT_ERR_CFG : Fld := ⟨15, 1⟩
def CKP_CTRL_MODE : Fld := ⟨0, 2⟩
def CKP_CTRL_DRAIN_EN : Fld := ⟨2, 1⟩
def CKP_CTRL_ACCEPT : Fld := ⟨3, 1⟩
def CKP_CTRL_ABORT : Fld := ⟨4, 1⟩
def CKP_CTRL_RESTORE : Fld := ⟨5, 1⟩
def CKP_CTRL_RESTORE_SLOT : Fld := ⟨6, 1⟩
def CKP_CTRL_PULL : Fld := ⟨7, 1⟩
def CKP_CTRL_PULL_SLOT : Fld := ⟨8, 1⟩
def CKP_STATUS_ABORTED : Fld := ⟨0, 1⟩
def CKP_STATUS_QUIET : Fld := ⟨1, 1⟩
def CKP_STATUS_SNAP_BUSY : Fld := ⟨2, 1⟩
def CKP_STATUS_DRAIN_BUSY : Fld := ⟨3, 1⟩
def CKP_STATUS_PULL_BUSY : Fld := ⟨4, 1⟩
def CKP_STATUS_SERVE_BUSY : Fld := ⟨5, 1⟩
def CKP_STATUS_RESTORE_BUSY : Fld := ⟨6, 1⟩
def CKP_STATUS_RESUME_ARMED : Fld := ⟨7, 1⟩
def CKP_STATUS_WR_REJECT : Fld := ⟨8, 1⟩
def CKP_STATUS_DRAIN_SLOT : Fld := ⟨9, 1⟩
def CKP_TRIGGER_EVERY : Fld := ⟨0, 16⟩
def CKP_TRIGGER_ALIGN : Fld := ⟨16, 16⟩
def CKP_TIMER_SECONDS : Fld := ⟨0, 24⟩
def CKP_LAKE_BASE_MIB : Fld := ⟨0, 17⟩
def CKP_KID_LKID0 : Fld := ⟨0, 6⟩
def CKP_KID_LKID1 : Fld := ⟨8, 6⟩
def CKP_KID_BKID : Fld := ⟨16, 6⟩
def CKP_BUDDY_BASE_MIB : Fld := ⟨0, 17⟩
def CKP_BUDDY_SIZE_MIB : Fld := ⟨0, 17⟩
def CKP_DRAIN_CFG_PORT : Fld := ⟨0, 3⟩
def CKP_DRAIN_CFG_RATE : Fld := ⟨8, 8⟩
def CKP_SEQNO_SEQNO : Fld := ⟨0, 32⟩
def CKP_SHAPEID_LO_ID_LO : Fld := ⟨0, 32⟩
def CKP_SHAPEID_HI_ID_HI : Fld := ⟨0, 32⟩
def CKP_SLOT_STAT_STATE : Fld := ⟨0, 3⟩
def CKP_SLOT_SEQ_SEQNO : Fld := ⟨0, 32⟩
def CKP_SLOT_STEP_LO_STEP_LO : Fld := ⟨0, 32⟩
def CKP_SLOT_STEP_HI_STEP_HI : Fld := ⟨0, 16⟩
def CKP_BSLOT_STAT_STATE : Fld := ⟨0, 3⟩
def CKP_BSLOT_STAT_SRC : Fld := ⟨4, 20⟩
def CKP_BSLOT_STAT_END : Fld := ⟨24, 3⟩
def CKP_BSLOT_SEQ_SEQNO : Fld := ⟨0, 32⟩
def CKP_BSLOT_STEP_LO_STEP_LO : Fld := ⟨0, 32⟩
def CKP_BSLOT_STEP_HI_STEP_HI : Fld := ⟨0, 16⟩
def CKP_INT_STATUS_SNAP : Fld := ⟨0, 1⟩
def CKP_INT_STATUS_VERIFIED : Fld := ⟨1, 1⟩
def CKP_INT_STATUS_DEFER : Fld := ⟨2, 1⟩
def CKP_INT_STATUS_DRAIN_FAIL : Fld := ⟨3, 1⟩
def CKP_INT_STATUS_QUIET : Fld := ⟨4, 1⟩
def CKP_INT_STATUS_FETCHED : Fld := ⟨5, 1⟩
def CKP_INT_STATUS_RESTORED : Fld := ⟨6, 1⟩
def CKP_INT_STATUS_ERR : Fld := ⟨7, 1⟩
def CKP_INT_STATUS_BUDDY_VERIFIED : Fld := ⟨8, 1⟩
def CKP_INT_EN_SNAP : Fld := ⟨0, 1⟩
def CKP_INT_EN_VERIFIED : Fld := ⟨1, 1⟩
def CKP_INT_EN_DEFER : Fld := ⟨2, 1⟩
def CKP_INT_EN_DRAIN_FAIL : Fld := ⟨3, 1⟩
def CKP_INT_EN_QUIET : Fld := ⟨4, 1⟩
def CKP_INT_EN_FETCHED : Fld := ⟨5, 1⟩
def CKP_INT_EN_RESTORED : Fld := ⟨6, 1⟩
def CKP_INT_EN_ERR : Fld := ⟨7, 1⟩
def CKP_INT_EN_BUDDY_VERIFIED : Fld := ⟨8, 1⟩
def CKP_ERR_CODE : Fld := ⟨0, 4⟩
def CKP_ABORT_DROP_COUNT : Fld := ⟨0, 32⟩
def CKP_DEFER_COUNT_COUNT : Fld := ⟨0, 32⟩
def CKP_DRAIN_BYTES_LO_COUNT_LO : Fld := ⟨0, 32⟩
def CKP_DRAIN_BYTES_HI_COUNT_HI : Fld := ⟨0, 32⟩
def CKP_PULL_SEQ_SEQNO : Fld := ⟨0, 32⟩
def CKP_HOSTACK_SEQNO : Fld := ⟨0, 32⟩
def UPD_CTRL_STEP_RINGS : Fld := ⟨0, 1⟩
def UPD_STATUS_LAST : Fld := ⟨0, 2⟩
def UPD_STATUS_PENDING : Fld := ⟨2, 1⟩
def UPD_STATUS_WR_REJECT : Fld := ⟨3, 1⟩
def UPD_STATUS_LS_FLOOR : Fld := ⟨4, 1⟩
def UPD_STATUS_DIVERGE : Fld := ⟨5, 1⟩
def UPD_STATUS_HIST : Fld := ⟨6, 1⟩
def UPD_EPOCH_EPOCH : Fld := ⟨0, 32⟩
def UPD_BANK_BASE_MIB : Fld := ⟨0, 17⟩
def UPD_BANK_SIZE_MIB : Fld := ⟨0, 17⟩
def UPD_STEP_LO_STEP_LO : Fld := ⟨0, 32⟩
def UPD_STEP_HI_STEP_HI : Fld := ⟨0, 16⟩
def UPD_TCOUNT_COUNT : Fld := ⟨0, 32⟩
def UPD_SKIP_COUNT_COUNT : Fld := ⟨0, 32⟩
def UPD_LS_EXP : Fld := ⟨0, 8⟩
def UPD_CLEAN_COUNT : Fld := ⟨0, 24⟩
def UPD_LS_CFG_MIN_EXP : Fld := ⟨0, 8⟩
def UPD_LS_CFG_MAX_EXP : Fld := ⟨8, 8⟩
def UPD_LS_CFG_BACKOFF : Fld := ⟨16, 4⟩
def UPD_LS_CFG_GROW : Fld := ⟨20, 4⟩
def UPD_LS_INTERVAL_INTERVAL : Fld := ⟨0, 24⟩
def UPD_CLIP_INIT_NORM_NORM : Fld := ⟨0, 32⟩
def UPD_GNORM_LAG_NORM : Fld := ⟨0, 32⟩
def UPD_GNORM_SQ_G : Fld := ⟨0, 32⟩
def UPD_NORM_ACC_ACC : Fld := ⟨0, 32⟩
def UPD_STATE_BASE_LO_ADDR_LO : Fld := ⟨8, 24⟩
def UPD_STATE_BASE_HI_ADDR_HI : Fld := ⟨0, 24⟩
def UPD_INT_STATUS_DECIDED : Fld := ⟨0, 1⟩
def UPD_INT_STATUS_SKIP : Fld := ⟨1, 1⟩
def UPD_INT_STATUS_TAINT : Fld := ⟨2, 1⟩
def UPD_INT_STATUS_DIVERGE : Fld := ⟨3, 1⟩
def UPD_INT_STATUS_DESC_ERR : Fld := ⟨4, 1⟩
def UPD_INT_EN_DECIDED : Fld := ⟨0, 1⟩
def UPD_INT_EN_SKIP : Fld := ⟨1, 1⟩
def UPD_INT_EN_TAINT : Fld := ⟨2, 1⟩
def UPD_INT_EN_DIVERGE : Fld := ⟨3, 1⟩
def UPD_INT_EN_DESC_ERR : Fld := ⟨4, 1⟩
def UPD_ERR_CODE : Fld := ⟨0, 4⟩
def UPD_ERR_STACK : Fld := ⟨4, 3⟩
def UPD_ERR_TID_TID : Fld := ⟨0, 32⟩
def UPD_OPT_P1_P : Fld := ⟨0, 32⟩
def UPD_OPT_P2_P : Fld := ⟨0, 32⟩
def UPD_OPT_0_KIND : Fld := ⟨0, 2⟩
def UPD_OPT_0_CLIP : Fld := ⟨2, 2⟩
def UPD_OPT_1_LRMUL : Fld := ⟨0, 32⟩
def UPD_OPT_2_BETA1 : Fld := ⟨0, 32⟩
def UPD_OPT_3_BETA2 : Fld := ⟨0, 32⟩
def UPD_OPT_4_EPS : Fld := ⟨0, 32⟩
def UPD_OPT_5_WD : Fld := ⟨0, 32⟩
def UPD_OPT_6_MU : Fld := ⟨0, 32⟩
def UPD_OPT_7_MAXNORM : Fld := ⟨0, 32⟩
def UPD_LR_CFG_NPTS : Fld := ⟨0, 7⟩
def UPD_LR_0_STEP_LO : Fld := ⟨0, 32⟩
def UPD_LR_1_STEP_HI : Fld := ⟨0, 16⟩
def UPD_LR_2_LR : Fld := ⟨0, 32⟩
def FMT_STATUS_WR_REJECT : Fld := ⟨0, 1⟩
def FMT_STATUS_INVALID_TBL : Fld := ⟨1, 1⟩
def FMT_STATUS_SEQ_STOPPED : Fld := ⟨2, 1⟩
def FMT_NF_STATUS_NAN : Fld := ⟨0, 1⟩
def FMT_NF_STATUS_INF : Fld := ⟨1, 1⟩
def FMT_NF_STATUS_SCALE_NAN : Fld := ⟨2, 1⟩
def FMT_NF_TENSOR_TENSOR : Fld := ⟨0, 32⟩
def FMT_SAT_COUNT_COUNT : Fld := ⟨0, 32⟩
def FMT_SR_SEED_SEED : Fld := ⟨0, 32⟩
def FMT_TBL_HDR_VALID : Fld := ⟨31, 1⟩
def FMT_TBL_HDR_WIDTH : Fld := ⟨24, 1⟩
def FMT_TBL_HDR_XOFF : Fld := ⟨0, 8⟩
def FMT_TBL_ENT_ENT3 : Fld := ⟨24, 8⟩
def FMT_TBL_ENT_ENT2 : Fld := ⟨16, 8⟩
def FMT_TBL_ENT_ENT1 : Fld := ⟨8, 8⟩
def FMT_TBL_ENT_ENT0 : Fld := ⟨0, 8⟩
def COL_STAGE_CFG_TRAY_N : Fld := ⟨0, 4⟩
def COL_STAGE_CFG_RACK_N : Fld := ⟨4, 4⟩
def COL_STAGE_CFG_HALL_N : Fld := ⟨8, 11⟩
def COL_STAGE_CFG_RACK_ALG : Fld := ⟨19, 2⟩
def COL_STAGE_CFG_HALL_ALG : Fld := ⟨21, 2⟩
def COL_STAGE_CFG_XPORT : Fld := ⟨23, 1⟩
def COL_POS_TRAY_POS : Fld := ⟨0, 3⟩
def COL_POS_RACK_POS : Fld := ⟨3, 3⟩
def COL_POS_HALL_POS : Fld := ⟨6, 10⟩
def COL_RB_BASE_UNIT : Fld := ⟨0, 18⟩
def COL_XCHG_CF_CF : Fld := ⟨0, 16⟩
def COL_PORTMAP_TARGET0 : Fld := ⟨0, 5⟩
def COL_PORTMAP_TARGET1 : Fld := ⟨8, 5⟩
def COL_PORTMAP_TARGET2 : Fld := ⟨16, 5⟩
def COL_PORTMAP_TARGET3 : Fld := ⟨24, 5⟩
def COL_STATUS_WR_REJECT : Fld := ⟨0, 1⟩
def COL_INT_STATUS_WIN_ERR : Fld := ⟨0, 1⟩
def COL_INT_STATUS_CC_ERR : Fld := ⟨1, 1⟩
def COL_INT_EN_WIN_ERR : Fld := ⟨0, 1⟩
def COL_INT_EN_CC_ERR : Fld := ⟨1, 1⟩
def COL_WINERR_COUNT_COUNT : Fld := ⟨0, 32⟩
def COL_WINERR_LAST_LPORT : Fld := ⟨0, 4⟩
def COL_WINERR_LAST_ROLE : Fld := ⟨4, 1⟩
def COL_WINERR_LAST_WIN : Fld := ⟨5, 20⟩
def COL_DYN_STAT_OWN : Fld := ⟨0, 5⟩
def COL_DYN_STAT_FREE : Fld := ⟨5, 5⟩
def COL_DYN_NONE_COUNT : Fld := ⟨0, 32⟩
def COL_CC_TMO_US : Fld := ⟨0, 24⟩
def COL_CC_ERR_CODE : Fld := ⟨0, 4⟩
def COL_CC_ERR_CH : Fld := ⟨4, 3⟩
def COL_CC_ERR_CCID : Fld := ⟨8, 16⟩
def COL_ROT_0_BASE : Fld := ⟨0, 20⟩
def COL_ROT_1_LEN : Fld := ⟨0, 20⟩
def COL_ROT_2_N : Fld := ⟨0, 11⟩
def COL_ROT_2_ROT : Fld := ⟨16, 11⟩
def TDBG_CNT_CTRL_EN : Fld := ⟨0, 1⟩
def TDBG_CNT_CTRL_CLEAR : Fld := ⟨1, 1⟩
def TDBG_CNT_CFG_EVENT : Fld := ⟨0, 6⟩
def TDBG_CNT_CFG_CORE : Fld := ⟨6, 8⟩
def TDBG_CNT_CFG_UMASK : Fld := ⟨14, 10⟩
def TDBG_CNT_LO_COUNT_LO : Fld := ⟨0, 32⟩
def TDBG_CNT_HI_COUNT_HI : Fld := ⟨0, 32⟩
def TDBG_SEPIA_CTRL_FREEZE : Fld := ⟨0, 1⟩
def TDBG_SEPIA_CTRL_THAW : Fld := ⟨1, 1⟩
def TDBG_SEPIA_CTRL_FREEZE_ON_FAULT : Fld := ⟨2, 1⟩
def TDBG_SEPIA_STAT_FROZEN : Fld := ⟨0, 1⟩
def TDBG_SEPIA_STAT_DEV_FROZEN : Fld := ⟨1, 1⟩
def TDBG_DUMP_BASE_LO_ADDR_LO : Fld := ⟨12, 20⟩
def TDBG_DUMP_BASE_HI_ADDR_HI : Fld := ⟨0, 32⟩
def TDBG_DUMP_SIZE_KIB : Fld := ⟨0, 16⟩
def TDBG_DUMP_CFG_SLOT : Fld := ⟨0, 8⟩
def TDBG_DUMP_CFG_VALID : Fld := ⟨8, 1⟩
def TDBG_DUMP_CFG_T : Fld := ⟨9, 1⟩
def TDBG_DUMP_CFG_FENCE : Fld := ⟨16, 16⟩
def TDBG_DUMP_CTRL_GO : Fld := ⟨0, 1⟩
def TDBG_DUMP_STAT_BUSY : Fld := ⟨0, 1⟩
def TDBG_DUMP_STAT_TRUNC : Fld := ⟨1, 1⟩
def TDBG_DUMP_STAT_ERR : Fld := ⟨8, 8⟩
def TKEY_RGN_STAT_WR_REJECT : Fld := ⟨0, 1⟩
def TKEY_RGN_STAT_WHY : Fld := ⟨1, 3⟩
def TKEY_RGN_STAT_ENTRY : Fld := ⟨4, 5⟩
def TKEY_RGN_STAT_UNTRUSTED : Fld := ⟨16, 16⟩
def TKEY_PROT_ERR_CODE : Fld := ⟨0, 8⟩
def TKEY_PROT_ERR_MASTER : Fld := ⟨8, 6⟩
def TKEY_PROT_ERR_WRITE : Fld := ⟨14, 1⟩
def TKEY_PROT_ADDR_LO_OFF_LO : Fld := ⟨0, 32⟩
def TKEY_PROT_ADDR_HI_OFF_HI : Fld := ⟨0, 7⟩
def TKEY_PROT_ADDR_HI_KID : Fld := ⟨8, 6⟩
def TKEY_PROT_COUNT_COUNT : Fld := ⟨0, 32⟩
def TKEY_ALARM_CAUSE : Fld := ⟨0, 4⟩
def TKEY_ALARM_STACK : Fld := ⟨4, 3⟩
def TKEY_PROT_INT_STATUS_PROT : Fld := ⟨0, 1⟩
def TKEY_PROT_INT_STATUS_ALARM : Fld := ⟨1, 1⟩
def TKEY_PROT_INT_STATUS_RGN_REJECT : Fld := ⟨2, 1⟩
def TKEY_PROT_INT_EN_PROT : Fld := ⟨0, 1⟩
def TKEY_PROT_INT_EN_ALARM : Fld := ⟨1, 1⟩
def TKEY_PROT_INT_EN_RGN_REJECT : Fld := ⟨2, 1⟩
def TKEY_PART_STATE : Fld := ⟨0, 3⟩
def TKEY_PART_JOINT : Fld := ⟨3, 1⟩
def TKEY_PEER_LOST_PORTS : Fld := ⟨0, 16⟩
def TKEY_PEER_LOST_EN_EN : Fld := ⟨0, 1⟩
def TKEY_RGN_0_BASE : Fld := ⟨0, 27⟩
def TKEY_RGN_1_LIMIT : Fld := ⟨0, 27⟩
def TKEY_RGN_2_VALID : Fld := ⟨0, 1⟩
def TKEY_RGN_2_MODE : Fld := ⟨1, 1⟩
def TKEY_RGN_2_KID : Fld := ⟨2, 6⟩
def TKEY_RGN_2_R : Fld := ⟨8, 1⟩
def TKEY_RGN_2_W : Fld := ⟨9, 1⟩
def TKEY_RGN_2_N : Fld := ⟨10, 1⟩
def TKEY_RGN_2_DI : Fld := ⟨11, 1⟩
def TKEY_RGN_2_DO : Fld := ⟨12, 1⟩
def TKEY_RGN_2_B : Fld := ⟨13, 1⟩
def HST_Q_BASE_LO_ADDR_LO : Fld := ⟨12, 20⟩
def HST_Q_BASE_HI_ADDR_HI : Fld := ⟨0, 32⟩
def HST_Q_CFG_EN : Fld := ⟨0, 1⟩
def HST_Q_CFG_LOG2N : Fld := ⟨1, 5⟩
def HST_Q_DB_TAIL : Fld := ⟨0, 32⟩
def HST_Q_HEAD_HEAD : Fld := ⟨0, 32⟩
def HST_Q_DONE_OLDEST : Fld := ⟨0, 32⟩
def HST_Q_STAT_STATE : Fld := ⟨0, 2⟩
def HST_Q_STAT_INFLIGHT : Fld := ⟨2, 9⟩
def HST_Q_STAT_AT_BOUND : Fld := ⟨11, 1⟩
def HST_Q_STAT_DB_REJECT : Fld := ⟨12, 1⟩
def HST_Q_STAT_FETCH_ERR : Fld := ⟨13, 1⟩

end Fld

def tblGLB0 : List RegDesc := [
  ⟨0x0, [], [⟨Fld.GLB_ID_PART, .ro, 0x60, []⟩, ⟨Fld.GLB_ID_STEP, .ro, 0x2, []⟩, ⟨Fld.GLB_ID_METAL, .ro, 0x0, []⟩, ⟨Fld.GLB_ID_VARIANT, .ro, 0x0, []⟩]⟩,
  ⟨0x10, [], [⟨Fld.GLB_UPTIME_LO_COUNT_LO, .ro, 0x0, []⟩]⟩,
  ⟨0x14, [], [⟨Fld.GLB_UPTIME_HI_COUNT_HI, .ro, 0x0, []⟩]⟩,
  ⟨0x20, [], [⟨Fld.GLB_RST_CTRL_WARM, .cmd, 0x0, []⟩, ⟨Fld.GLB_RST_CTRL_MAINT, .cmd, 0x0, []⟩, ⟨Fld.GLB_RST_CTRL_KEY, .wo, 0x0, []⟩]⟩,
  ⟨0x24, [], [⟨Fld.GLB_RST_CAUSE_CAUSE, .ro, 0x1, []⟩, ⟨Fld.GLB_RST_CAUSE_RESTARTED, .ro, 0x0, []⟩]⟩,
  ⟨0x28, [], [⟨Fld.GLB_RST_COUNT_WARM, .ro, 0x0, []⟩]⟩,
  ⟨0x30, [], [⟨Fld.GLB_BOOT_STAT_STAGE, .ro, 0x1, []⟩, ⟨Fld.GLB_BOOT_STAT_READY, .ro, 0x0, []⟩, ⟨Fld.GLB_BOOT_STAT_WIPE_DONE, .ro, 0x0, []⟩, ⟨Fld.GLB_BOOT_STAT_STK_FAIL, .ro, 0x0, []⟩, ⟨Fld.GLB_BOOT_STAT_SVC_WHY, .ro, 0x0, []⟩, ⟨Fld.GLB_BOOT_STAT_COPY, .ro, 0x0, []⟩, ⟨Fld.GLB_BOOT_STAT_REPAIR_AUTH, .ro, 0x0, []⟩]⟩,
  ⟨0x34, [], [⟨Fld.GLB_BOOT_TIME_WIPE_US, .ro, 0x0, []⟩, ⟨Fld.GLB_BOOT_TIME_READY_US, .ro, 0x0, []⟩]⟩,
  ⟨0x38, [], [⟨Fld.GLB_UNTESTED_UNT_A, .ro, 0x0, []⟩, ⟨Fld.GLB_UNTESTED_UNT_B, .ro, 0x0, []⟩]⟩,
  ⟨0x3C, [], [⟨Fld.GLB_FWSET_SETID, .ro, 0xFFFFFFFF, []⟩]⟩,
  ⟨0x40, [], [⟨Fld.GLB_LIST_VER_LISTVER, .ro, 0x0, []⟩]⟩,
  ⟨0x48, [(4, 5)], [⟨Fld.GLB_VER_VERSION, .ro, 0x0, []⟩]⟩,
  ⟨0x60, [], [⟨Fld.GLB_INT_STATUS_BOOT_READY, .w1c, 0x0, []⟩, ⟨Fld.GLB_INT_STATUS_SERVICE, .w1c, 0x0, []⟩, ⟨Fld.GLB_INT_STATUS_STK_FAIL, .w1c, 0x0, []⟩, ⟨Fld.GLB_INT_STATUS_FW_PENDING, .w1c, 0x0, []⟩, ⟨Fld.GLB_INT_STATUS_WDT, .w1c, 0x0, []⟩]⟩,
  ⟨0x64, [], [⟨Fld.GLB_INT_EN_BOOT_READY, .rw, 0x0, []⟩, ⟨Fld.GLB_INT_EN_SERVICE, .rw, 0x0, []⟩, ⟨Fld.GLB_INT_EN_STK_FAIL, .rw, 0x0, []⟩, ⟨Fld.GLB_INT_EN_FW_PENDING, .rw, 0x0, []⟩, ⟨Fld.GLB_INT_EN_WDT, .rw, 0x0, []⟩]⟩,
  ⟨0x68, [], [⟨Fld.GLB_CLK_STAT_CCLK_LOCK, .ro, 0x0, []⟩, ⟨Fld.GLB_CLK_STAT_MCLK_LOCK, .ro, 0x0, []⟩, ⟨Fld.GLB_CLK_STAT_LREF_LOCK, .ro, 0x0, []⟩, ⟨Fld.GLB_CLK_STAT_PCLK_LOCK, .ro, 0x0, []⟩]⟩]

/-- The registers of the `GLB` block. -/
def tblGLB : List RegDesc := tblGLB0

def tblPWR0 : List RegDesc := [
  ⟨0x100000, [], [⟨Fld.PWR_FEED_A_OK, .ro, 0x0, []⟩, ⟨Fld.PWR_FEED_B_OK, .ro, 0x0, []⟩, ⟨Fld.PWR_FEED_ACTIVE_B, .ro, 0x0, []⟩, ⟨Fld.PWR_FEED_A_OV, .ro, 0x0, []⟩, ⟨Fld.PWR_FEED_B_OV, .ro, 0x0, []⟩, ⟨Fld.PWR_FEED_XFERS, .rc, 0x0, []⟩]⟩,
  ⟨0x100004, [], [⟨Fld.PWR_INPUT_V_A_DV, .ro, 0x0, []⟩, ⟨Fld.PWR_INPUT_V_B_DV, .ro, 0x0, []⟩]⟩,
  ⟨0x100008, [], [⟨Fld.PWR_INPUT_AVG_W, .ro, 0x0, []⟩, ⟨Fld.PWR_INPUT_AVG_WIN, .ro, 0x0, []⟩]⟩,
  ⟨0x100010, [], [⟨Fld.PWR_ENERGY_LO_COUNT_LO, .ro, 0x0, []⟩]⟩,
  ⟨0x100014, [], [⟨Fld.PWR_ENERGY_HI_COUNT_HI, .ro, 0x0, []⟩]⟩,
  ⟨0x100018, [], [⟨Fld.PWR_STAT_VBAT_LOW, .ro, 0x0, []⟩, ⟨Fld.PWR_STAT_VBAT_MV, .ro, 0x0, []⟩]⟩,
  ⟨0x10001C, [], [⟨Fld.PWR_SAG_STAT_ACTIVE, .ro, 0x0, []⟩, ⟨Fld.PWR_SAG_STAT_HOLD, .ro, 0x0, []⟩, ⟨Fld.PWR_SAG_STAT_COUNT, .rc, 0x0, []⟩]⟩,
  ⟨0x100020, [], [⟨Fld.PWR_INT_STATUS_SAG_WARN, .w1c, 0x0, []⟩, ⟨Fld.PWR_INT_STATUS_SAG_END, .w1c, 0x0, []⟩, ⟨Fld.PWR_INT_STATUS_FEED_LOSS, .w1c, 0x0, []⟩, ⟨Fld.PWR_INT_STATUS_FEED_OV, .w1c, 0x0, []⟩, ⟨Fld.PWR_INT_STATUS_THERMAL, .w1c, 0x0, []⟩, ⟨Fld.PWR_INT_STATUS_THERMTRIP, .w1c, 0x0, []⟩, ⟨Fld.PWR_INT_STATUS_VBAT_LOW, .w1c, 0x0, []⟩, ⟨Fld.PWR_INT_STATUS_CAL_READY, .w1c, 0x0, []⟩, ⟨Fld.PWR_INT_STATUS_CAP_REJECT, .w1c, 0x0, []⟩]⟩,
  ⟨0x100024, [], [⟨Fld.PWR_INT_EN_SAG_WARN, .rw, 0x0, []⟩, ⟨Fld.PWR_INT_EN_SAG_END, .rw, 0x0, []⟩, ⟨Fld.PWR_INT_EN_FEED_LOSS, .rw, 0x0, []⟩, ⟨Fld.PWR_INT_EN_FEED_OV, .rw, 0x0, []⟩, ⟨Fld.PWR_INT_EN_THERMAL, .rw, 0x0, []⟩, ⟨Fld.PWR_INT_EN_THERMTRIP, .rw, 0x0, []⟩, ⟨Fld.PWR_INT_EN_VBAT_LOW, .rw, 0x0, []⟩, ⟨Fld.PWR_INT_EN_CAL_READY, .rw, 0x0, []⟩, ⟨Fld.PWR_INT_EN_CAP_REJECT, .rw, 0x0, []⟩]⟩,
  ⟨0x100030, [], [⟨Fld.PWR_LIM_CTRL_MODE, .rwl, 0x0, []⟩, ⟨Fld.PWR_LIM_CTRL_MODE_LOCK, .w1s, 0x0, []⟩, ⟨Fld.PWR_LIM_CTRL_BOOST_EN, .rw, 0x0, []⟩, ⟨Fld.PWR_LIM_CTRL_FF_EN, .rw, 0x0, []⟩, ⟨Fld.PWR_LIM_CTRL_FF_IDX, .rw, 0x2, [(2, 7)]⟩]⟩,
  ⟨0x100034, [], [⟨Fld.PWR_LIM_STAT_MODE, .ro, 0x0, []⟩, ⟨Fld.PWR_LIM_STAT_FIRST_USE, .ro, 0x1, []⟩, ⟨Fld.PWR_LIM_STAT_CAL_COUNT, .ro, 0x0, []⟩, ⟨Fld.PWR_LIM_STAT_VF_IDX, .ro, 0x2, []⟩, ⟨Fld.PWR_LIM_STAT_HOLD, .ro, 0x0, []⟩, ⟨Fld.PWR_LIM_STAT_CAL_REJ, .rc, 0x0, []⟩]⟩,
  ⟨0x100038, [], [⟨Fld.PWR_CAP_W, .rw, 0x4B0, []⟩]⟩,
  ⟨0x10003C, [], [⟨Fld.PWR_GAIN_GAIN, .ro, 0x3F800000, []⟩]⟩,
  ⟨0x100040, [], [⟨Fld.PWR_EST_W, .ro, 0x0, []⟩, ⟨Fld.PWR_EST_POOL_W, .ro, 0x0, []⟩]⟩,
  ⟨0x100044, [], [⟨Fld.PWR_THR_STAT_ACTIVE, .ro, 0x0, []⟩, ⟨Fld.PWR_THR_STAT_CHARGED, .ro, 0x7, []⟩]⟩,
  ⟨0x100048, [], [⟨Fld.PWR_ILIM_A, .ro, 0x352, []⟩]⟩,
  ⟨0x10004C, [], [⟨Fld.PWR_LIMREQ_IGN_COUNT, .rc, 0x0, []⟩]⟩,
  ⟨0x100050, [], [⟨Fld.PWR_TEMP_TJ, .ro, 0x0, []⟩, ⟨Fld.PWR_TEMP_TS, .ro, 0x0, []⟩, ⟨Fld.PWR_TEMP_SENSOR, .ro, 0x0, []⟩, ⟨Fld.PWR_TEMP_TJ_PEAK, .rc, 0x0, []⟩]⟩,
  ⟨0x100080, [(8, 5)], [⟨Fld.PWR_THR_DUR_LO_COUNT_LO, .ro, 0x0, []⟩]⟩,
  ⟨0x100084, [(8, 5)], [⟨Fld.PWR_THR_DUR_HI_COUNT_HI, .ro, 0x0, []⟩]⟩]

def tblPWR1 : List RegDesc := [
  ⟨0x100100, [(4, 8)], [⟨Fld.PWR_VF_MHZ, .ro, 0x0, []⟩, ⟨Fld.PWR_VF_VSET_MV, .ro, 0x0, []⟩]⟩]

/-- The registers of the `PWR` block. -/
def tblPWR : List RegDesc := tblPWR0 ++ tblPWR1

def tblMGT0 : List RegDesc := [
  ⟨0x200000, [], [⟨Fld.MGT_TB_CTRL_EN, .rw, 0x0, []⟩, ⟨Fld.MGT_TB_CTRL_RESYNC, .cmd, 0x0, []⟩]⟩,
  ⟨0x200004, [], [⟨Fld.MGT_TB_STAT_SYNC, .ro, 0x0, []⟩, ⟨Fld.MGT_TB_STAT_MUTED, .ro, 0x0, []⟩, ⟨Fld.MGT_TB_STAT_VCOUNT, .ro, 0x0, []⟩, ⟨Fld.MGT_TB_STAT_SLOT, .ro, 0x0, []⟩, ⟨Fld.MGT_TB_STAT_DUP_SLOT, .ro, 0x0, []⟩]⟩,
  ⟨0x200008, [], [⟨Fld.MGT_NODE_NODE, .ro, 0x0, []⟩, ⟨Fld.MGT_NODE_VALID, .ro, 0x0, []⟩]⟩,
  ⟨0x20000C, [], [⟨Fld.MGT_HB_KICK_KICK, .wo, 0x0, []⟩]⟩,
  ⟨0x200010, [], [⟨Fld.MGT_FAIL_MASK, .ro, 0x0, []⟩]⟩,
  ⟨0x200018, [], [⟨Fld.MGT_HALT_CTRL_HALT, .cmd, 0x0, []⟩, ⟨Fld.MGT_HALT_CTRL_KEY, .wo, 0x0, []⟩]⟩,
  ⟨0x20001C, [], [⟨Fld.MGT_HALT_STAT_HALTED, .ro, 0x0, []⟩, ⟨Fld.MGT_HALT_STAT_SRC, .ro, 0x0, []⟩]⟩,
  ⟨0x200020, [], [⟨Fld.MGT_INT_STATUS_HALT, .w1c, 0x0, []⟩, ⟨Fld.MGT_INT_STATUS_FAIL, .w1c, 0x0, []⟩, ⟨Fld.MGT_INT_STATUS_DRIFT, .w1c, 0x0, []⟩, ⟨Fld.MGT_INT_STATUS_VIOL, .w1c, 0x0, []⟩, ⟨Fld.MGT_INT_STATUS_MUTED, .w1c, 0x0, []⟩, ⟨Fld.MGT_INT_STATUS_SYNC_LOSS, .w1c, 0x0, []⟩, ⟨Fld.MGT_INT_STATUS_PROBE_DONE, .w1c, 0x0, []⟩, ⟨Fld.MGT_INT_STATUS_EVT_LOST, .w1c, 0x0, []⟩, ⟨Fld.MGT_INT_STATUS_DUP_SLOT, .w1c, 0x0, []⟩]⟩,
  ⟨0x200024, [], [⟨Fld.MGT_INT_EN_HALT, .rw, 0x0, []⟩, ⟨Fld.MGT_INT_EN_FAIL, .rw, 0x0, []⟩, ⟨Fld.MGT_INT_EN_DRIFT, .rw, 0x0, []⟩, ⟨Fld.MGT_INT_EN_VIOL, .rw, 0x0, []⟩, ⟨Fld.MGT_INT_EN_MUTED, .rw, 0x0, []⟩, ⟨Fld.MGT_INT_EN_SYNC_LOSS, .rw, 0x0, []⟩, ⟨Fld.MGT_INT_EN_PROBE_DONE, .rw, 0x0, []⟩, ⟨Fld.MGT_INT_EN_EVT_LOST, .rw, 0x0, []⟩, ⟨Fld.MGT_INT_EN_DUP_SLOT, .rw, 0x0, []⟩]⟩,
  ⟨0x200030, [(4, 9)], [⟨Fld.MGT_DRIFT_OFFSET, .ro, 0x0, []⟩, ⟨Fld.MGT_DRIFT_WARN, .rc, 0x0, []⟩, ⟨Fld.MGT_DRIFT_VIOL, .rc, 0x0, []⟩]⟩,
  ⟨0x200060, [], [⟨Fld.MGT_TB_CRC_COUNT, .rc, 0x0, []⟩]⟩,
  ⟨0x200064, [], [⟨Fld.MGT_TB_RXVIOL_COUNT, .rc, 0x0, []⟩]⟩,
  ⟨0x200068, [], [⟨Fld.MGT_TB_MUTES_COUNT, .rc, 0x0, []⟩]⟩,
  ⟨0x200070, [], [⟨Fld.MGT_TIME_LO_NS_LO, .ro, 0x0, []⟩]⟩,
  ⟨0x200074, [], [⟨Fld.MGT_TIME_HI_NS_HI, .ro, 0x0, []⟩]⟩,
  ⟨0x200078, [], [⟨Fld.MGT_FRAME_LO_FRAME_LO, .ro, 0x0, []⟩]⟩,
  ⟨0x20007C, [], [⟨Fld.MGT_FRAME_HI_FRAME_HI, .ro, 0x0, []⟩]⟩,
  ⟨0x200080, [], [⟨Fld.MGT_TIME_OFS_LO_OFS_LO, .rw, 0x0, []⟩]⟩,
  ⟨0x200084, [], [⟨Fld.MGT_TIME_OFS_HI_OFS_HI, .rw, 0x0, []⟩]⟩,
  ⟨0x200090, [], [⟨Fld.MGT_TPROBE_CTRL_PORT, .rw, 0x0, []⟩, ⟨Fld.MGT_TPROBE_CTRL_GO, .cmd, 0x0, []⟩]⟩]

def tblMGT1 : List RegDesc := [
  ⟨0x200094, [], [⟨Fld.MGT_TPROBE_STAT_BUSY, .ro, 0x0, []⟩, ⟨Fld.MGT_TPROBE_STAT_VALID, .ro, 0x0, []⟩, ⟨Fld.MGT_TPROBE_STAT_RETRY, .ro, 0x0, []⟩, ⟨Fld.MGT_TPROBE_STAT_TIMEOUT, .ro, 0x0, []⟩]⟩,
  ⟨0x200098, [], [⟨Fld.MGT_TPROBE_OFS_LO_OFS_LO, .ro, 0x0, []⟩]⟩,
  ⟨0x20009C, [], [⟨Fld.MGT_TPROBE_OFS_HI_OFS_HI, .ro, 0x0, []⟩]⟩,
  ⟨0x2000A0, [], [⟨Fld.MGT_TPROBE_DLY_NS, .ro, 0x0, []⟩]⟩]

/-- The registers of the `MGT` block. -/
def tblMGT : List RegDesc := tblMGT0 ++ tblMGT1

def tblLCS0 : List RegDesc := [
  ⟨0x300000, [], [⟨Fld.LCS_CODE_CODEWORD, .ro, 0xFF00FF0, []⟩]⟩,
  ⟨0x300004, [], [⟨Fld.LCS_STAT_STATE, .ro, 0x2, []⟩, ⟨Fld.LCS_STAT_TARGET, .ro, 0x0, []⟩, ⟨Fld.LCS_STAT_LEVEL, .ro, 0x0, []⟩, ⟨Fld.LCS_STAT_TOKENS, .ro, 0x0, []⟩, ⟨Fld.LCS_STAT_BUSY, .ro, 0x0, []⟩, ⟨Fld.LCS_STAT_CHAL_VALID, .ro, 0x0, []⟩, ⟨Fld.LCS_STAT_REJECT, .w1c, 0x0, []⟩, ⟨Fld.LCS_STAT_WHY, .ro, 0x0, []⟩]⟩,
  ⟨0x300008, [], [⟨Fld.LCS_TOKEN_RAW, .ro, 0x0, []⟩]⟩,
  ⟨0x30000C, [], [⟨Fld.LCS_LAST_OP, .ro, 0x0, []⟩, ⟨Fld.LCS_LAST_FROM, .ro, 0x0, []⟩, ⟨Fld.LCS_LAST_TO, .ro, 0x0, []⟩]⟩,
  ⟨0x300010, [], [⟨Fld.LCS_TRANS_TARGET, .wo, 0x0, []⟩, ⟨Fld.LCS_TRANS_KEY, .wo, 0x0, []⟩]⟩,
  ⟨0x300014, [], [⟨Fld.LCS_DEBUG_LEVEL, .wo, 0x0, []⟩, ⟨Fld.LCS_DEBUG_KEY, .wo, 0x0, []⟩]⟩,
  ⟨0x300018, [], [⟨Fld.LCS_CHAL_CTRL_GEN, .cmd, 0x0, []⟩, ⟨Fld.LCS_CHAL_CTRL_SUBMIT, .cmd, 0x0, []⟩, ⟨Fld.LCS_CHAL_CTRL_REQ, .rw, 0x1, [(1, 3)]⟩]⟩,
  ⟨0x300020, [], [⟨Fld.LCS_INT_STATUS_REJECT, .w1c, 0x0, []⟩, ⟨Fld.LCS_INT_STATUS_CHAL_READY, .w1c, 0x0, []⟩]⟩,
  ⟨0x300024, [], [⟨Fld.LCS_INT_EN_REJECT, .rw, 0x0, []⟩, ⟨Fld.LCS_INT_EN_CHAL_READY, .rw, 0x0, []⟩]⟩,
  ⟨0x300100, [(4, 16)], [⟨Fld.LCS_CHAL_DATA, .ro, 0x0, []⟩]⟩,
  ⟨0x301000, [(4, 1280)], [⟨Fld.LCS_RESP_DATA, .rw, 0x0, []⟩]⟩]

/-- The registers of the `LCS` block. -/
def tblLCS : List RegDesc := tblLCS0

def tblKEY0 : List RegDesc := [
  ⟨0x400000, [], [⟨Fld.KEY_CMD_CODE, .rw, 0x0, []⟩, ⟨Fld.KEY_CMD_TAG, .rw, 0x0, []⟩]⟩,
  ⟨0x400004, [], [⟨Fld.KEY_CTRL_GO, .cmd, 0x0, []⟩]⟩,
  ⟨0x400008, [], [⟨Fld.KEY_STATUS_BUSY, .ro, 0x0, []⟩, ⟨Fld.KEY_STATUS_DONE, .w1c, 0x0, []⟩, ⟨Fld.KEY_STATUS_REJECT, .w1c, 0x0, []⟩, ⟨Fld.KEY_STATUS_CODE, .ro, 0x0, []⟩, ⟨Fld.KEY_STATUS_TAG, .ro, 0x0, []⟩, ⟨Fld.KEY_STATUS_RLEN, .ro, 0x0, []⟩]⟩,
  ⟨0x40000C, [], [⟨Fld.KEY_INT_EN_DONE, .rw, 0x0, []⟩, ⟨Fld.KEY_INT_EN_REJECT, .rw, 0x0, []⟩, ⟨Fld.KEY_INT_EN_ALERT, .rw, 0x0, []⟩]⟩,
  ⟨0x400010, [], [⟨Fld.KEY_ALERT_SOFT, .w1c, 0x0, []⟩, ⟨Fld.KEY_ALERT_EXHAUST, .w1c, 0x0, []⟩, ⟨Fld.KEY_ALERT_REVOKED, .w1c, 0x0, []⟩]⟩,
  ⟨0x400100, [(4, 64)], [⟨Fld.KEY_ARG_DATA, .rw, 0x0, []⟩]⟩,
  ⟨0x400200, [(4, 64)], [⟨Fld.KEY_RES_DATA, .ro, 0x0, []⟩]⟩,
  ⟨0x400400, [], [⟨Fld.KEY_ROOT_STAT_ROOT_OK, .ro, 0x1, []⟩, ⟨Fld.KEY_ROOT_STAT_IDENT_OK, .ro, 0x0, []⟩, ⟨Fld.KEY_ROOT_STAT_DRBG_OK, .ro, 0x0, []⟩, ⟨Fld.KEY_ROOT_STAT_CAUSE, .ro, 0x0, []⟩]⟩,
  ⟨0x400410, [(4, 4)], [⟨Fld.KEY_PEPOCH_EPOCH, .ro, 0x0, []⟩]⟩]

/-- The registers of the `KEY` block. -/
def tblKEY : List RegDesc := tblKEY0

def tblTKEY0 : List RegDesc := [
  ⟨0x800000, [], [⟨Fld.TKEY_CMD_CODE, .rw, 0x0, []⟩, ⟨Fld.TKEY_CMD_TAG, .rw, 0x0, []⟩]⟩,
  ⟨0x800004, [], [⟨Fld.TKEY_CTRL_GO, .cmd, 0x0, []⟩]⟩,
  ⟨0x800008, [], [⟨Fld.TKEY_STATUS_BUSY, .ro, 0x0, []⟩, ⟨Fld.TKEY_STATUS_DONE, .w1c, 0x0, []⟩, ⟨Fld.TKEY_STATUS_REJECT, .w1c, 0x0, []⟩, ⟨Fld.TKEY_STATUS_CODE, .ro, 0x0, []⟩, ⟨Fld.TKEY_STATUS_TAG, .ro, 0x0, []⟩, ⟨Fld.TKEY_STATUS_RLEN, .ro, 0x0, []⟩]⟩,
  ⟨0x80000C, [], [⟨Fld.TKEY_INT_EN_DONE, .rw, 0x0, []⟩, ⟨Fld.TKEY_INT_EN_REJECT, .rw, 0x0, []⟩, ⟨Fld.TKEY_INT_EN_ALERT, .rw, 0x0, []⟩]⟩,
  ⟨0x800010, [], [⟨Fld.TKEY_ALERT_SOFT, .w1c, 0x0, []⟩, ⟨Fld.TKEY_ALERT_EXHAUST, .w1c, 0x0, []⟩, ⟨Fld.TKEY_ALERT_REVOKED, .w1c, 0x0, []⟩]⟩,
  ⟨0x800100, [(4, 64)], [⟨Fld.TKEY_ARG_DATA, .rw, 0x0, []⟩]⟩,
  ⟨0x800200, [(4, 64)], [⟨Fld.TKEY_RES_DATA, .ro, 0x0, []⟩]⟩,
  ⟨0x800400, [], [⟨Fld.TKEY_PEPOCH_EPOCH, .ro, 0x0, []⟩]⟩,
  ⟨0x800800, [], [⟨Fld.TKEY_RGN_STAT_WR_REJECT, .w1c, 0x0, []⟩, ⟨Fld.TKEY_RGN_STAT_WHY, .ro, 0x0, []⟩, ⟨Fld.TKEY_RGN_STAT_ENTRY, .ro, 0x0, []⟩, ⟨Fld.TKEY_RGN_STAT_UNTRUSTED, .rc, 0x0, []⟩]⟩,
  ⟨0x800804, [], [⟨Fld.TKEY_PROT_ERR_CODE, .rc, 0x0, []⟩, ⟨Fld.TKEY_PROT_ERR_MASTER, .ro, 0x0, []⟩, ⟨Fld.TKEY_PROT_ERR_WRITE, .ro, 0x0, []⟩]⟩,
  ⟨0x800808, [], [⟨Fld.TKEY_PROT_ADDR_LO_OFF_LO, .ro, 0x0, []⟩]⟩,
  ⟨0x80080C, [], [⟨Fld.TKEY_PROT_ADDR_HI_OFF_HI, .ro, 0x0, []⟩, ⟨Fld.TKEY_PROT_ADDR_HI_KID, .ro, 0x0, []⟩]⟩,
  ⟨0x800810, [], [⟨Fld.TKEY_PROT_COUNT_COUNT, .rc, 0x0, []⟩]⟩,
  ⟨0x800818, [], [⟨Fld.TKEY_ALARM_CAUSE, .rc, 0x0, []⟩, ⟨Fld.TKEY_ALARM_STACK, .rc, 0x0, []⟩]⟩,
  ⟨0x800820, [], [⟨Fld.TKEY_PROT_INT_STATUS_PROT, .w1c, 0x0, []⟩, ⟨Fld.TKEY_PROT_INT_STATUS_ALARM, .w1c, 0x0, []⟩, ⟨Fld.TKEY_PROT_INT_STATUS_RGN_REJECT, .w1c, 0x0, []⟩]⟩,
  ⟨0x800824, [], [⟨Fld.TKEY_PROT_INT_EN_PROT, .rw, 0x0, []⟩, ⟨Fld.TKEY_PROT_INT_EN_ALARM, .rw, 0x0, []⟩, ⟨Fld.TKEY_PROT_INT_EN_RGN_REJECT, .rw, 0x0, []⟩]⟩,
  ⟨0x800C00, [], [⟨Fld.TKEY_PART_STATE, .ro, 0x0, []⟩, ⟨Fld.TKEY_PART_JOINT, .ro, 0x0, []⟩]⟩,
  ⟨0x800C04, [], [⟨Fld.TKEY_PEER_LOST_PORTS, .w1c, 0x0, []⟩]⟩,
  ⟨0x800C08, [], [⟨Fld.TKEY_PEER_LOST_EN_EN, .rw, 0x0, []⟩]⟩,
  ⟨0x801000, [(16, 32)], [⟨Fld.TKEY_RGN_0_BASE, .rw, 0x0, []⟩]⟩]

def tblTKEY1 : List RegDesc := [
  ⟨0x801004, [(16, 32)], [⟨Fld.TKEY_RGN_1_LIMIT, .rw, 0x0, []⟩]⟩,
  ⟨0x801008, [(16, 32)], [⟨Fld.TKEY_RGN_2_VALID, .rw, 0x0, []⟩, ⟨Fld.TKEY_RGN_2_MODE, .rw, 0x0, []⟩, ⟨Fld.TKEY_RGN_2_KID, .rw, 0x0, []⟩, ⟨Fld.TKEY_RGN_2_R, .rw, 0x0, []⟩, ⟨Fld.TKEY_RGN_2_W, .rw, 0x0, []⟩, ⟨Fld.TKEY_RGN_2_N, .rw, 0x0, []⟩, ⟨Fld.TKEY_RGN_2_DI, .rw, 0x0, []⟩, ⟨Fld.TKEY_RGN_2_DO, .rw, 0x0, []⟩, ⟨Fld.TKEY_RGN_2_B, .rw, 0x0, []⟩]⟩,
  ⟨0x80100C, [(16, 32)], []⟩]

/-- The registers of the `TKEY` block. -/
def tblTKEY : List RegDesc := tblTKEY0 ++ tblTKEY1

def tblLL0 : List RegDesc := [
  ⟨0x500000, [(65536, 16)], [⟨Fld.LL_PORT_CTRL_EN, .rw, 0x0, []⟩, ⟨Fld.LL_PORT_CTRL_GEN2_EN, .rwl, 0x1, []⟩, ⟨Fld.LL_PORT_CTRL_CHECK, .rw, 0x0, []⟩, ⟨Fld.LL_PORT_CTRL_RETRAIN, .cmd, 0x0, []⟩, ⟨Fld.LL_PORT_CTRL_REKEY, .cmd, 0x0, []⟩, ⟨Fld.LL_PORT_CTRL_TLOCK, .w1s, 0x0, []⟩]⟩,
  ⟨0x500004, [(65536, 16)], [⟨Fld.LL_PORT_STAT_STATE, .ro, 0x0, []⟩, ⟨Fld.LL_PORT_STAT_GEN, .ro, 0x0, []⟩, ⟨Fld.LL_PORT_STAT_WIDTH4, .ro, 0x0, []⟩, ⟨Fld.LL_PORT_STAT_HALF, .ro, 0x0, []⟩, ⟨Fld.LL_PORT_STAT_SECURE, .ro, 0x0, []⟩, ⟨Fld.LL_PORT_STAT_BARRED, .ro, 0x0, []⟩, ⟨Fld.LL_PORT_STAT_DOWN_WHY, .ro, 0x0, []⟩]⟩,
  ⟨0x500008, [(65536, 16)], [⟨Fld.LL_PEER_NODE, .ro, 0x0, []⟩, ⟨Fld.LL_PEER_PORT, .ro, 0x0, []⟩]⟩,
  ⟨0x50000C, [(65536, 16)], [⟨Fld.LL_EXPECT_NODE, .rw, 0x0, []⟩]⟩,
  ⟨0x500010, [(65536, 16)], [⟨Fld.LL_INT_STATUS_UP, .w1c, 0x0, []⟩, ⟨Fld.LL_INT_STATUS_DOWN, .w1c, 0x0, []⟩, ⟨Fld.LL_INT_STATUS_DEGRADE, .w1c, 0x0, []⟩, ⟨Fld.LL_INT_STATUS_RETRAIN, .w1c, 0x0, []⟩, ⟨Fld.LL_INT_STATUS_AUTH_FAIL, .w1c, 0x0, []⟩, ⟨Fld.LL_INT_STATUS_REKEY_DUE, .w1c, 0x0, []⟩, ⟨Fld.LL_INT_STATUS_EXHAUST, .w1c, 0x0, []⟩, ⟨Fld.LL_INT_STATUS_WIN_ERR, .w1c, 0x0, []⟩, ⟨Fld.LL_INT_STATUS_CFG_REJECT, .w1c, 0x0, []⟩]⟩,
  ⟨0x500014, [(65536, 16)], [⟨Fld.LL_INT_EN_UP, .rw, 0x0, []⟩, ⟨Fld.LL_INT_EN_DOWN, .rw, 0x0, []⟩, ⟨Fld.LL_INT_EN_DEGRADE, .rw, 0x0, []⟩, ⟨Fld.LL_INT_EN_RETRAIN, .rw, 0x0, []⟩, ⟨Fld.LL_INT_EN_AUTH_FAIL, .rw, 0x0, []⟩, ⟨Fld.LL_INT_EN_REKEY_DUE, .rw, 0x0, []⟩, ⟨Fld.LL_INT_EN_EXHAUST, .rw, 0x0, []⟩, ⟨Fld.LL_INT_EN_WIN_ERR, .rw, 0x0, []⟩, ⟨Fld.LL_INT_EN_CFG_REJECT, .rw, 0x0, []⟩]⟩,
  ⟨0x500040, [(65536, 16), (4, 9)], [⟨Fld.LL_SLOT_OWNER0, .rw, 0x1, [(1, 4)]⟩, ⟨Fld.LL_SLOT_OWNER1, .rw, 0x1, [(1, 4)]⟩, ⟨Fld.LL_SLOT_OWNER2, .rw, 0x1, [(1, 4)]⟩, ⟨Fld.LL_SLOT_OWNER3, .rw, 0x1, [(1, 4)]⟩, ⟨Fld.LL_SLOT_OWNER4, .rw, 0x1, [(1, 4)]⟩, ⟨Fld.LL_SLOT_OWNER5, .rw, 0x1, [(1, 4)]⟩, ⟨Fld.LL_SLOT_OWNER6, .rw, 0x1, [(1, 4)]⟩, ⟨Fld.LL_SLOT_OWNER7, .rw, 0x1, [(1, 4)]⟩]⟩,
  ⟨0x500080, [(65536, 16), (4, 4)], [⟨Fld.LL_BIND_VALID, .ro, 0x0, []⟩, ⟨Fld.LL_BIND_PEER_END, .ro, 0x0, []⟩, ⟨Fld.LL_BIND_PEPOCH_RX, .ro, 0x0, []⟩, ⟨Fld.LL_BIND_PEPOCH_TX, .ro, 0x0, []⟩]⟩,
  ⟨0x5000A0, [(65536, 16)], [⟨Fld.LL_TX_KEY_EPOCH, .ro, 0x0, []⟩, ⟨Fld.LL_TX_KEY_LOADED, .ro, 0x0, []⟩, ⟨Fld.LL_TX_KEY_SOFT, .ro, 0x0, []⟩, ⟨Fld.LL_TX_KEY_EXHAUSTED, .ro, 0x0, []⟩]⟩,
  ⟨0x5000A8, [(65536, 16)], [⟨Fld.LL_TX_FCTR_LO_COUNT_LO, .ro, 0x0, []⟩]⟩,
  ⟨0x5000AC, [(65536, 16)], [⟨Fld.LL_TX_FCTR_HI_COUNT_HI, .ro, 0x0, []⟩]⟩,
  ⟨0x5000B0, [(65536, 16)], [⟨Fld.LL_RX_KEY_EPOCH, .ro, 0x0, []⟩, ⟨Fld.LL_RX_KEY_LOADED, .ro, 0x0, []⟩, ⟨Fld.LL_RX_KEY_RETAIN, .ro, 0x0, []⟩]⟩,
  ⟨0x5000B8, [(65536, 16)], [⟨Fld.LL_REKEY_CFG_HOURS, .rw, 0x18, [(1, 24)]⟩]⟩,
  ⟨0x5000C0, [(65536, 16)], [⟨Fld.LL_REPLAY_USED, .ro, 0x0, []⟩, ⟨Fld.LL_REPLAY_PEAK, .rc, 0x0, []⟩]⟩,
  ⟨0x500100, [(65536, 16)], [⟨Fld.LL_TX_FRAMES_LO_COUNT_LO, .ro, 0x0, []⟩]⟩,
  ⟨0x500104, [(65536, 16)], [⟨Fld.LL_TX_FRAMES_HI_COUNT_HI, .ro, 0x0, []⟩]⟩,
  ⟨0x500108, [(65536, 16)], [⟨Fld.LL_RX_FRAMES_LO_COUNT_LO, .ro, 0x0, []⟩]⟩,
  ⟨0x50010C, [(65536, 16)], [⟨Fld.LL_RX_FRAMES_HI_COUNT_HI, .ro, 0x0, []⟩]⟩,
  ⟨0x500110, [(65536, 16)], [⟨Fld.LL_FEC_CORR_LO_COUNT_LO, .ro, 0x0, []⟩]⟩,
  ⟨0x500114, [(65536, 16)], [⟨Fld.LL_FEC_CORR_HI_COUNT_HI, .ro, 0x0, []⟩]⟩]

def tblLL1 : List RegDesc := [
  ⟨0x500120, [(65536, 16)], [⟨Fld.LL_CRC_ERR_COUNT, .rc, 0x0, []⟩]⟩,
  ⟨0x500124, [(65536, 16)], [⟨Fld.LL_NAK_COUNT, .rc, 0x0, []⟩]⟩,
  ⟨0x500128, [(65536, 16)], [⟨Fld.LL_REPLAY_EVT_COUNT, .rc, 0x0, []⟩]⟩,
  ⟨0x50012C, [(65536, 16)], [⟨Fld.LL_REPLAY_FRM_COUNT, .rc, 0x0, []⟩]⟩,
  ⟨0x500130, [(65536, 16)], [⟨Fld.LL_DISCARD_COUNT, .rc, 0x0, []⟩]⟩,
  ⟨0x500134, [(65536, 16)], [⟨Fld.LL_AUTH_FAIL_COUNT, .rc, 0x0, []⟩]⟩,
  ⟨0x500138, [(65536, 16)], [⟨Fld.LL_EPOCH_DROP_COUNT, .rc, 0x0, []⟩]⟩,
  ⟨0x50013C, [(65536, 16)], [⟨Fld.LL_OLD_DROP_COUNT, .rc, 0x0, []⟩]⟩,
  ⟨0x500140, [(65536, 16)], [⟨Fld.LL_HDR_DROP_COUNT, .rc, 0x0, []⟩]⟩,
  ⟨0x500144, [(65536, 16)], [⟨Fld.LL_WIN_ERR_COUNT, .rc, 0x0, []⟩]⟩,
  ⟨0x500148, [(65536, 16)], [⟨Fld.LL_RETRAIN_COUNT, .rc, 0x0, []⟩]⟩,
  ⟨0x50014C, [(65536, 16)], [⟨Fld.LL_DEGRADE_COUNT, .rc, 0x0, []⟩]⟩,
  ⟨0x500200, [(65536, 16), (8, 16)], [⟨Fld.LL_TRAIN_0_ACTION, .rwl, 0x0, [(0, 7)]⟩, ⟨Fld.LL_TRAIN_0_NEXT_OK, .rwl, 0x0, []⟩, ⟨Fld.LL_TRAIN_0_NEXT_ALT, .rwl, 0x0, []⟩, ⟨Fld.LL_TRAIN_0_NEXT_FAIL, .rwl, 0x0, []⟩, ⟨Fld.LL_TRAIN_0_TRIES, .rwl, 0x0, []⟩]⟩,
  ⟨0x500204, [(65536, 16), (8, 16)], [⟨Fld.LL_TRAIN_1_TMO, .rwl, 0x0, []⟩, ⟨Fld.LL_TRAIN_1_PARAM, .rwl, 0x0, []⟩]⟩,
  ⟨0x500280, [(65536, 16)], [⟨Fld.LL_TRAIN_VER_VER, .rwl, 0x1, []⟩]⟩]

/-- The registers of the `LL` block. -/
def tblLL : List RegDesc := tblLL0 ++ tblLL1

def tblHST0 : List RegDesc := [
  ⟨0x600000, [], [⟨Fld.HST_INT_STATUS_CB_DONE, .w1c, 0x0, []⟩, ⟨Fld.HST_INT_STATUS_Q_ERR, .w1c, 0x0, []⟩, ⟨Fld.HST_INT_STATUS_IDE_INSECURE, .w1c, 0x0, []⟩]⟩,
  ⟨0x600004, [], [⟨Fld.HST_INT_EN_CB_DONE, .rw, 0x0, []⟩, ⟨Fld.HST_INT_EN_Q_ERR, .rw, 0x0, []⟩, ⟨Fld.HST_INT_EN_IDE_INSECURE, .rw, 0x0, []⟩]⟩,
  ⟨0x600100, [(4, 4)], [⟨Fld.HST_IDE_SECURE, .ro, 0x0, []⟩, ⟨Fld.HST_IDE_VF, .ro, 0x0, []⟩, ⟨Fld.HST_IDE_PCRC, .ro, 0x0, []⟩, ⟨Fld.HST_IDE_STREAM_ID, .ro, 0x0, []⟩]⟩,
  ⟨0x601000, [(32, 4)], [⟨Fld.HST_Q_BASE_LO_ADDR_LO, .rw, 0x0, []⟩]⟩,
  ⟨0x601004, [(32, 4)], [⟨Fld.HST_Q_BASE_HI_ADDR_HI, .rw, 0x0, []⟩]⟩,
  ⟨0x601008, [(32, 4)], [⟨Fld.HST_Q_CFG_EN, .rw, 0x0, []⟩, ⟨Fld.HST_Q_CFG_LOG2N, .rw, 0x4, [(4, 16)]⟩]⟩,
  ⟨0x60100C, [(32, 4)], [⟨Fld.HST_Q_DB_TAIL, .rw, 0x0, []⟩]⟩,
  ⟨0x601010, [(32, 4)], [⟨Fld.HST_Q_HEAD_HEAD, .ro, 0x0, []⟩]⟩,
  ⟨0x601014, [(32, 4)], [⟨Fld.HST_Q_DONE_OLDEST, .ro, 0x0, []⟩]⟩,
  ⟨0x601018, [(32, 4)], [⟨Fld.HST_Q_STAT_STATE, .ro, 0x0, []⟩, ⟨Fld.HST_Q_STAT_INFLIGHT, .ro, 0x0, []⟩, ⟨Fld.HST_Q_STAT_AT_BOUND, .ro, 0x0, []⟩, ⟨Fld.HST_Q_STAT_DB_REJECT, .w1c, 0x0, []⟩, ⟨Fld.HST_Q_STAT_FETCH_ERR, .w1c, 0x0, []⟩]⟩]

/-- The registers of the `HST` block. -/
def tblHST : List RegDesc := tblHST0

def tblMEM0 : List RegDesc := [
  ⟨0x700000, [(4, 4)], [⟨Fld.MEM_PSPLIT_LOCAL_GIB, .rw, 0x0, [(0, 64)]⟩]⟩,
  ⟨0x700020, [], [⟨Fld.MEM_INT_STATUS_ALARM, .w1c, 0x0, []⟩, ⟨Fld.MEM_INT_STATUS_POISON, .w1c, 0x0, []⟩, ⟨Fld.MEM_INT_STATUS_IFC_AUTH, .w1c, 0x0, []⟩, ⟨Fld.MEM_INT_STATUS_UE, .w1c, 0x0, []⟩, ⟨Fld.MEM_INT_STATUS_CFG_REJECT, .w1c, 0x0, []⟩, ⟨Fld.MEM_INT_STATUS_STK_FAIL, .w1c, 0x0, []⟩]⟩,
  ⟨0x700024, [], [⟨Fld.MEM_INT_EN_ALARM, .rw, 0x0, []⟩, ⟨Fld.MEM_INT_EN_POISON, .rw, 0x0, []⟩, ⟨Fld.MEM_INT_EN_IFC_AUTH, .rw, 0x0, []⟩, ⟨Fld.MEM_INT_EN_UE, .rw, 0x0, []⟩, ⟨Fld.MEM_INT_EN_CFG_REJECT, .rw, 0x0, []⟩, ⟨Fld.MEM_INT_EN_STK_FAIL, .rw, 0x0, []⟩]⟩,
  ⟨0x700030, [(4, 4)], [⟨Fld.MEM_ALARM_CAUSE_CAUSE, .rc, 0x0, []⟩, ⟨Fld.MEM_ALARM_CAUSE_STACK, .rc, 0x0, []⟩]⟩,
  ⟨0x710000, [(65536, 8)], [⟨Fld.MEM_STK_STAT_STATE, .ro, 0x0, []⟩, ⟨Fld.MEM_STK_STAT_REF2X, .ro, 0x0, []⟩, ⟨Fld.MEM_STK_STAT_PATROL_BUSY, .ro, 0x0, []⟩, ⟨Fld.MEM_STK_STAT_TEMP, .ro, 0x0, []⟩]⟩,
  ⟨0x710004, [(65536, 8)], [⟨Fld.MEM_STK_CTRL_PATROL_EN, .rw, 0x1, []⟩, ⟨Fld.MEM_STK_CTRL_PPR_EN, .rw, 0x1, []⟩, ⟨Fld.MEM_STK_CTRL_PATROL_H, .rw, 0x18, [(1, 255)]⟩]⟩,
  ⟨0x710008, [(65536, 8)], [⟨Fld.MEM_TAG_INUSE, .ro, 0x0, []⟩, ⟨Fld.MEM_TAG_PEAK, .rc, 0x0, []⟩]⟩,
  ⟨0x710010, [(65536, 8)], [⟨Fld.MEM_TAG_STALL_LO_COUNT_LO, .ro, 0x0, []⟩]⟩,
  ⟨0x710014, [(65536, 8)], [⟨Fld.MEM_TAG_STALL_HI_COUNT_HI, .ro, 0x0, []⟩]⟩,
  ⟨0x710020, [(65536, 8)], [⟨Fld.MEM_CE_COUNT_COUNT, .rc, 0x0, []⟩]⟩,
  ⟨0x710024, [(65536, 8)], [⟨Fld.MEM_UE_COUNT_COUNT, .rc, 0x0, []⟩]⟩,
  ⟨0x710028, [(65536, 8)], [⟨Fld.MEM_MAC_FAIL_COUNT, .rc, 0x0, []⟩]⟩,
  ⟨0x71002C, [(65536, 8)], [⟨Fld.MEM_REREAD_COUNT, .rc, 0x0, []⟩]⟩,
  ⟨0x710030, [(65536, 8)], [⟨Fld.MEM_POISON_COUNT_COUNT, .ro, 0x0, []⟩]⟩,
  ⟨0x710034, [(65536, 8)], [⟨Fld.MEM_PPR_COUNT_COUNT, .ro, 0x0, []⟩]⟩,
  ⟨0x710040, [(65536, 8)], [⟨Fld.MEM_ERR_LAST_LO_PC, .ro, 0x0, []⟩, ⟨Fld.MEM_ERR_LAST_LO_BANK, .ro, 0x0, []⟩, ⟨Fld.MEM_ERR_LAST_LO_ROW, .ro, 0x0, []⟩, ⟨Fld.MEM_ERR_LAST_LO_COL, .ro, 0x0, []⟩]⟩,
  ⟨0x710044, [(65536, 8)], [⟨Fld.MEM_ERR_LAST_HI_KIND, .ro, 0x0, []⟩, ⟨Fld.MEM_ERR_LAST_HI_PART, .ro, 0x0, []⟩, ⟨Fld.MEM_ERR_LAST_HI_PERSIST, .ro, 0x0, []⟩]⟩,
  ⟨0x710060, [(65536, 8)], [⟨Fld.MEM_NME_STAT_QDEPTH, .ro, 0x0, []⟩, ⟨Fld.MEM_NME_STAT_BUSY, .ro, 0x0, []⟩, ⟨Fld.MEM_NME_STAT_UPD_BUSY, .ro, 0x0, []⟩, ⟨Fld.MEM_NME_STAT_LINKKEY, .ro, 0x0, []⟩]⟩,
  ⟨0x710068, [(65536, 8)], [⟨Fld.MEM_NME_CMD_LO_COUNT_LO, .ro, 0x0, []⟩]⟩,
  ⟨0x71006C, [(65536, 8)], [⟨Fld.MEM_NME_CMD_HI_COUNT_HI, .ro, 0x0, []⟩]⟩]

def tblMEM1 : List RegDesc := [
  ⟨0x710070, [(65536, 8)], [⟨Fld.MEM_NME_DELAY_LO_COUNT_LO, .ro, 0x0, []⟩]⟩,
  ⟨0x710074, [(65536, 8)], [⟨Fld.MEM_NME_DELAY_HI_COUNT_HI, .ro, 0x0, []⟩]⟩]

/-- The registers of the `MEM` block. -/
def tblMEM : List RegDesc := tblMEM0 ++ tblMEM1

def tblPRT0 : List RegDesc := [
  ⟨0x800000, [], [⟨Fld.PRT_LAYOUT_PARTS, .rw, 0x1, [(1, 2), (4, 4)]⟩]⟩,
  ⟨0x800004, [], [⟨Fld.PRT_STATUS_WR_REJECT, .w1c, 0x0, []⟩, ⟨Fld.PRT_STATUS_LAYOUT_BUSY, .ro, 0x0, []⟩, ⟨Fld.PRT_STATUS_ASSIGN_REJECT, .w1c, 0x0, []⟩]⟩,
  ⟨0x800010, [(4, 4)], [⟨Fld.PRT_CTRL_ASSIGN, .cmd, 0x0, []⟩]⟩,
  ⟨0x800020, [(4, 4)], [⟨Fld.PRT_STATE_STATE, .ro, 0x0, []⟩, ⟨Fld.PRT_STATE_JOINT, .ro, 0x0, []⟩, ⟨Fld.PRT_STATE_TDI, .ro, 0x0, []⟩, ⟨Fld.PRT_STATE_CAUSE, .ro, 0x0, []⟩, ⟨Fld.PRT_STATE_WIPE_FAIL, .ro, 0x0, []⟩]⟩,
  ⟨0x800030, [(4, 4)], [⟨Fld.PRT_MAP_QUAD0, .ro, 0x0, []⟩, ⟨Fld.PRT_MAP_NQUAD, .ro, 0x0, []⟩, ⟨Fld.PRT_MAP_STKMASK, .ro, 0x0, []⟩, ⟨Fld.PRT_MAP_CORE_BASE, .ro, 0x0, []⟩]⟩,
  ⟨0x800040, [], [⟨Fld.PRT_INT_STATUS_EMPTY_n, .w1c, 0x0, []⟩, ⟨Fld.PRT_INT_STATUS_READY_n, .w1c, 0x0, []⟩, ⟨Fld.PRT_INT_STATUS_ACTIVE_n, .w1c, 0x0, []⟩, ⟨Fld.PRT_INT_STATUS_DRAIN_n, .w1c, 0x0, []⟩]⟩,
  ⟨0x800044, [], [⟨Fld.PRT_INT_EN_EMPTY_n, .rw, 0x0, []⟩, ⟨Fld.PRT_INT_EN_READY_n, .rw, 0x0, []⟩, ⟨Fld.PRT_INT_EN_ACTIVE_n, .rw, 0x0, []⟩, ⟨Fld.PRT_INT_EN_DRAIN_n, .rw, 0x0, []⟩]⟩,
  ⟨0x800050, [(4, 4)], [⟨Fld.PRT_RM_TIME_US, .ro, 0x0, []⟩]⟩]

/-- The registers of the `PRT` block. -/
def tblPRT : List RegDesc := tblPRT0

def tblDBG0 : List RegDesc := [
  ⟨0x900000, [], [⟨Fld.DBG_SEPIA_CTRL_FREEZE, .cmd, 0x0, []⟩, ⟨Fld.DBG_SEPIA_CTRL_THAW, .cmd, 0x0, []⟩, ⟨Fld.DBG_SEPIA_CTRL_FREEZE_ON_HALT, .rw, 0x1, []⟩]⟩,
  ⟨0x900004, [], [⟨Fld.DBG_SEPIA_STAT_FROZEN, .ro, 0x0, []⟩, ⟨Fld.DBG_SEPIA_STAT_BY_HALT, .ro, 0x0, []⟩]⟩,
  ⟨0x900010, [], [⟨Fld.DBG_DUMP_BASE_LO_ADDR_LO, .rw, 0x0, []⟩]⟩,
  ⟨0x900014, [], [⟨Fld.DBG_DUMP_BASE_HI_ADDR_HI, .rw, 0x0, []⟩]⟩,
  ⟨0x900018, [], [⟨Fld.DBG_DUMP_SIZE_KIB, .rw, 0x0, []⟩]⟩,
  ⟨0x90001C, [], [⟨Fld.DBG_DUMP_CTRL_GO, .cmd, 0x0, []⟩, ⟨Fld.DBG_DUMP_CTRL_TENANTS, .cmd, 0x0, []⟩]⟩,
  ⟨0x900020, [], [⟨Fld.DBG_DUMP_STAT_BUSY, .ro, 0x0, []⟩, ⟨Fld.DBG_DUMP_STAT_DONE, .w1c, 0x0, []⟩, ⟨Fld.DBG_DUMP_STAT_TRUNC, .ro, 0x0, []⟩, ⟨Fld.DBG_DUMP_STAT_NOT_FROZEN, .w1c, 0x0, []⟩, ⟨Fld.DBG_DUMP_STAT_PART_DONE, .w1c, 0x0, []⟩]⟩,
  ⟨0x900040, [], [⟨Fld.DBG_STEP_CTRL_HOLD, .rw, 0x0, []⟩, ⟨Fld.DBG_STEP_CTRL_STEP, .cmd, 0x0, []⟩]⟩,
  ⟨0x900044, [], [⟨Fld.DBG_STEP_STAT_HELD, .ro, 0x0, []⟩, ⟨Fld.DBG_STEP_STAT_RELEASED, .rc, 0x0, []⟩]⟩,
  ⟨0x900060, [], [⟨Fld.DBG_WIN_CTRL_KEYLESS, .rw, 0x0, []⟩]⟩,
  ⟨0x900068, [], [⟨Fld.DBG_WIN_ADDR_LO_ADDR_LO, .rw, 0x0, []⟩]⟩,
  ⟨0x90006C, [], [⟨Fld.DBG_WIN_ADDR_HI_ADDR_HI, .rw, 0x0, []⟩]⟩,
  ⟨0x901000, [(4, 1024)], [⟨Fld.DBG_WIN_DATA_DATA, .rw, 0x0, []⟩]⟩,
  ⟨0x900080, [], [⟨Fld.DBG_INT_STATUS_DUMP_DONE, .w1c, 0x0, []⟩, ⟨Fld.DBG_INT_STATUS_FROZEN, .w1c, 0x0, []⟩, ⟨Fld.DBG_INT_STATUS_SRAM, .w1c, 0x0, []⟩, ⟨Fld.DBG_INT_STATUS_PROT, .w1c, 0x0, []⟩]⟩,
  ⟨0x900084, [], [⟨Fld.DBG_INT_EN_DUMP_DONE, .rw, 0x0, []⟩, ⟨Fld.DBG_INT_EN_FROZEN, .rw, 0x0, []⟩, ⟨Fld.DBG_INT_EN_SRAM, .rw, 0x0, []⟩, ⟨Fld.DBG_INT_EN_PROT, .rw, 0x0, []⟩]⟩,
  ⟨0x980000, [], [⟨Fld.DBG_SCRUB_CTRL_EN, .rw, 0x1, []⟩, ⟨Fld.DBG_SCRUB_CTRL_THRESH, .rw, 0x4, [(1, 255)]⟩, ⟨Fld.DBG_SCRUB_CTRL_PERIOD_MS, .rw, 0xFA, [(10, 255)]⟩]⟩,
  ⟨0x980004, [], [⟨Fld.DBG_SRAM_STAT_TEST_BUSY, .ro, 0x0, []⟩, ⟨Fld.DBG_SRAM_STAT_CE_EVT, .w1c, 0x0, []⟩, ⟨Fld.DBG_SRAM_STAT_UE_EVT, .w1c, 0x0, []⟩, ⟨Fld.DBG_SRAM_STAT_TEST_DONE, .w1c, 0x0, []⟩]⟩,
  ⟨0x980008, [], [⟨Fld.DBG_SRAM_LAST_LO_PCORE, .ro, 0x0, []⟩, ⟨Fld.DBG_SRAM_LAST_LO_BANK, .ro, 0x0, []⟩, ⟨Fld.DBG_SRAM_LAST_LO_MACRO, .ro, 0x0, []⟩, ⟨Fld.DBG_SRAM_LAST_LO_COL, .ro, 0x0, []⟩]⟩,
  ⟨0x98000C, [], [⟨Fld.DBG_SRAM_LAST_HI_ROW, .ro, 0x0, []⟩, ⟨Fld.DBG_SRAM_LAST_HI_UE, .ro, 0x0, []⟩, ⟨Fld.DBG_SRAM_LAST_HI_PORT, .ro, 0x0, []⟩]⟩,
  ⟨0x980010, [], [⟨Fld.DBG_COLTEST_PCORE, .ro, 0x0, []⟩, ⟨Fld.DBG_COLTEST_BANK, .ro, 0x0, []⟩, ⟨Fld.DBG_COLTEST_MACRO, .ro, 0x0, []⟩, ⟨Fld.DBG_COLTEST_COL, .ro, 0x0, []⟩, ⟨Fld.DBG_COLTEST_VERDICT, .ro, 0xF, []⟩]⟩]

def tblDBG1 : List RegDesc := [
  ⟨0x980014, [], [⟨Fld.DBG_COLTEST_ROW_FIRST, .ro, 0x3FF, []⟩, ⟨Fld.DBG_COLTEST_ROW_NFAIL, .ro, 0x0, []⟩]⟩,
  ⟨0x980400, [(4, 136)], [⟨Fld.DBG_CE_COUNT_COUNT, .rc, 0x0, []⟩]⟩,
  ⟨0x980800, [(4, 136)], [⟨Fld.DBG_UE_COUNT_COUNT, .rc, 0x0, []⟩]⟩,
  ⟨0x980C00, [(4, 136)], [⟨Fld.DBG_CORE_STAT_ROLE, .ro, 0x0, []⟩, ⟨Fld.DBG_CORE_STAT_LOGICAL, .ro, 0x0, []⟩, ⟨Fld.DBG_CORE_STAT_RETIRE_PEND, .w1s, 0x0, []⟩, ⟨Fld.DBG_CORE_STAT_HARD_COLS, .ro, 0x0, []⟩, ⟨Fld.DBG_CORE_STAT_CELL_FAULTS, .ro, 0x0, []⟩]⟩,
  ⟨0x981000, [], [⟨Fld.DBG_REPAIR_SEL_PCORE, .rw, 0x0, [(0, 135)]⟩, ⟨Fld.DBG_REPAIR_SEL_BANK, .rw, 0x0, []⟩, ⟨Fld.DBG_REPAIR_SEL_MACRO, .rw, 0x0, []⟩]⟩,
  ⟨0x981004, [(4, 4)], [⟨Fld.DBG_REPAIR_DATA_COL, .ro, 0x0, []⟩, ⟨Fld.DBG_REPAIR_DATA_STATE, .ro, 0x0, []⟩]⟩,
  ⟨0x981020, [], [⟨Fld.DBG_QUAD_STAT_QUAD_FAIL, .ro, 0x0, []⟩, ⟨Fld.DBG_QUAD_STAT_SPARES_LEFT, .ro, 0x0, []⟩]⟩,
  ⟨0x990000, [], [⟨Fld.DBG_PROT_COUNT_COUNT, .rc, 0x0, []⟩]⟩,
  ⟨0x990004, [], [⟨Fld.DBG_PROT_LAST_CODE, .ro, 0x0, []⟩, ⟨Fld.DBG_PROT_LAST_MASTER, .ro, 0x0, []⟩, ⟨Fld.DBG_PROT_LAST_PART, .ro, 0x0, []⟩, ⟨Fld.DBG_PROT_LAST_WRITE, .ro, 0x0, []⟩]⟩]

/-- The registers of the `DBG` block. -/
def tblDBG : List RegDesc := tblDBG0 ++ tblDBG1

def tblMTR0 : List RegDesc := [
  ⟨0xA00000, [], [⟨Fld.MTR_CTRL_PERIOD_MIN, .rw, 0x3C, []⟩, ⟨Fld.MTR_CTRL_TENANCY, .rw, 0x0, []⟩, ⟨Fld.MTR_CTRL_CLOSE, .cmd, 0x0, []⟩]⟩,
  ⟨0xA00004, [], [⟨Fld.MTR_STAT_SEALING, .ro, 0x0, []⟩, ⟨Fld.MTR_STAT_REC_VALID, .ro, 0x0, []⟩, ⟨Fld.MTR_STAT_UNSIGNED, .ro, 0x0, []⟩, ⟨Fld.MTR_STAT_SAG_FROZEN, .ro, 0x0, []⟩]⟩,
  ⟨0xA00008, [], [⟨Fld.MTR_PERIOD_PERIOD, .ro, 0x0, []⟩]⟩,
  ⟨0xA0000C, [], [⟨Fld.MTR_REC_SEL_INDEX, .rw, 0x0, []⟩]⟩,
  ⟨0xA00010, [], [⟨Fld.MTR_RTC_LO_MS, .ro, 0x0, []⟩]⟩,
  ⟨0xA00014, [], [⟨Fld.MTR_RTC_HI_MS, .ro, 0x0, []⟩]⟩,
  ⟨0xA00018, [], [⟨Fld.MTR_RTC_SET_LO_MS, .rw, 0x0, []⟩]⟩,
  ⟨0xA0001C, [], [⟨Fld.MTR_RTC_SET_HI_MS, .rw, 0x0, []⟩]⟩,
  ⟨0xA00020, [], [⟨Fld.MTR_RTC_CTRL_SET, .cmd, 0x0, []⟩, ⟨Fld.MTR_RTC_CTRL_KEY, .wo, 0x0, []⟩]⟩,
  ⟨0xA00028, [], [⟨Fld.MTR_MONO_LO_MS, .ro, 0x0, []⟩]⟩,
  ⟨0xA0002C, [], [⟨Fld.MTR_MONO_HI_MS, .ro, 0x0, []⟩]⟩,
  ⟨0xA00030, [], [⟨Fld.MTR_INT_STATUS_CLOSED, .w1c, 0x0, []⟩, ⟨Fld.MTR_INT_STATUS_SET, .w1c, 0x0, []⟩, ⟨Fld.MTR_INT_STATUS_SAG_CLOSE, .w1c, 0x0, []⟩]⟩,
  ⟨0xA00034, [], [⟨Fld.MTR_INT_EN_CLOSED, .rw, 0x0, []⟩, ⟨Fld.MTR_INT_EN_SET, .rw, 0x0, []⟩, ⟨Fld.MTR_INT_EN_SAG_CLOSE, .rw, 0x0, []⟩]⟩,
  ⟨0xA00040, [(32, 4)], [⟨Fld.MTR_P_BEATS_LO_COUNT, .ro, 0x0, []⟩]⟩,
  ⟨0xA00044, [(32, 4)], [⟨Fld.MTR_P_BEATS_HI_COUNT, .ro, 0x0, []⟩]⟩,
  ⟨0xA00048, [(32, 4)], [⟨Fld.MTR_P_MEM_LO_COUNT, .ro, 0x0, []⟩]⟩,
  ⟨0xA0004C, [(32, 4)], [⟨Fld.MTR_P_MEM_HI_COUNT, .ro, 0x0, []⟩]⟩,
  ⟨0xA00050, [(32, 4)], [⟨Fld.MTR_P_TX_LO_COUNT, .ro, 0x0, []⟩]⟩,
  ⟨0xA00054, [(32, 4)], [⟨Fld.MTR_P_TX_HI_COUNT, .ro, 0x0, []⟩]⟩,
  ⟨0xA00058, [(32, 4)], [⟨Fld.MTR_P_RX_LO_COUNT, .ro, 0x0, []⟩]⟩]

def tblMTR1 : List RegDesc := [
  ⟨0xA0005C, [(32, 4)], [⟨Fld.MTR_P_RX_HI_COUNT, .ro, 0x0, []⟩]⟩,
  ⟨0xA00100, [(32, 16)], [⟨Fld.MTR_SETLOG_OLD_LO_MS, .ro, 0x0, []⟩]⟩,
  ⟨0xA00104, [(32, 16)], [⟨Fld.MTR_SETLOG_OLD_HI_MS, .ro, 0x0, []⟩]⟩,
  ⟨0xA00108, [(32, 16)], [⟨Fld.MTR_SETLOG_NEW_LO_MS, .ro, 0x0, []⟩]⟩,
  ⟨0xA0010C, [(32, 16)], [⟨Fld.MTR_SETLOG_NEW_HI_MS, .ro, 0x0, []⟩]⟩,
  ⟨0xA00110, [(32, 16)], [⟨Fld.MTR_SETLOG_MONO_LO_MS, .ro, 0x0, []⟩]⟩,
  ⟨0xA00114, [(32, 16)], [⟨Fld.MTR_SETLOG_MONO_HI_MS, .ro, 0x0, []⟩]⟩,
  ⟨0xA00118, [(32, 16)], [⟨Fld.MTR_SETLOG_PERIOD_PERIOD, .ro, 0x0, []⟩]⟩,
  ⟨0xA00300, [], [⟨Fld.MTR_SETLOG_STAT_NEXT, .ro, 0x0, []⟩, ⟨Fld.MTR_SETLOG_STAT_TOTAL, .ro, 0x0, []⟩]⟩,
  ⟨0xA01000, [(4, 1280)], [⟨Fld.MTR_REC_DATA, .ro, 0x0, []⟩]⟩]

/-- The registers of the `MTR` block. -/
def tblMTR : List RegDesc := tblMTR0 ++ tblMTR1

def tblQUE0 : List RegDesc := [
  ⟨0x0, [], [⟨Fld.QUE_INT_STATUS_CB_ERR, .w1c, 0x0, []⟩, ⟨Fld.QUE_INT_STATUS_Q_ERR, .w1c, 0x0, []⟩, ⟨Fld.QUE_INT_STATUS_CANCEL_DONE, .w1c, 0x0, []⟩, ⟨Fld.QUE_INT_STATUS_CANCEL_REJECT, .w1c, 0x0, []⟩, ⟨Fld.QUE_INT_STATUS_DB_REJECT, .w1c, 0x0, []⟩]⟩,
  ⟨0x4, [], [⟨Fld.QUE_INT_EN_CB_ERR, .rw, 0x0, []⟩, ⟨Fld.QUE_INT_EN_Q_ERR, .rw, 0x0, []⟩, ⟨Fld.QUE_INT_EN_CANCEL_DONE, .rw, 0x0, []⟩, ⟨Fld.QUE_INT_EN_CANCEL_REJECT, .rw, 0x0, []⟩, ⟨Fld.QUE_INT_EN_DB_REJECT, .rw, 0x0, []⟩]⟩,
  ⟨0x10, [], [⟨Fld.QUE_CANCEL_SEQ_SEQ, .rw, 0x0, []⟩]⟩,
  ⟨0x14, [], [⟨Fld.QUE_CANCEL_QUEUE, .rw, 0x0, []⟩, ⟨Fld.QUE_CANCEL_GO, .cmd, 0x0, []⟩]⟩,
  ⟨0x18, [], [⟨Fld.QUE_CANCEL_STAT_BUSY, .ro, 0x0, []⟩, ⟨Fld.QUE_CANCEL_STAT_RESULT, .ro, 0x0, []⟩]⟩,
  ⟨0x100, [(4, 64)], [⟨Fld.QUE_CTX_WEIGHT, .rw, 0x1, [(1, 15)]⟩, ⟨Fld.QUE_CTX_KILL, .cmd, 0x0, []⟩]⟩,
  ⟨0x1000, [(32, 64)], [⟨Fld.QUE_BASE_LO_ADDR_LO, .rw, 0x0, []⟩]⟩,
  ⟨0x1004, [(32, 64)], [⟨Fld.QUE_BASE_HI_ADDR_HI, .rw, 0x0, []⟩]⟩,
  ⟨0x1008, [(32, 64)], [⟨Fld.QUE_CFG_EN, .rw, 0x0, []⟩, ⟨Fld.QUE_CFG_LOG2N, .rw, 0x4, [(4, 16)]⟩, ⟨Fld.QUE_CFG_CTX, .rw, 0x0, []⟩]⟩,
  ⟨0x100C, [(32, 64)], [⟨Fld.QUE_DB_TAIL, .rw, 0x0, []⟩]⟩,
  ⟨0x1010, [(32, 64)], [⟨Fld.QUE_HEAD_HEAD, .ro, 0x0, []⟩]⟩,
  ⟨0x1014, [(32, 64)], [⟨Fld.QUE_DONE_OLDEST, .ro, 0x0, []⟩]⟩,
  ⟨0x1018, [(32, 64)], [⟨Fld.QUE_STAT_STATE, .ro, 0x0, []⟩, ⟨Fld.QUE_STAT_INFLIGHT, .ro, 0x0, []⟩, ⟨Fld.QUE_STAT_AT_BOUND, .ro, 0x0, []⟩, ⟨Fld.QUE_STAT_DB_REJECT, .w1c, 0x0, []⟩, ⟨Fld.QUE_STAT_FETCH_ERR, .w1c, 0x0, []⟩]⟩]

/-- The registers of the `QUE` block. -/
def tblQUE : List RegDesc := tblQUE0

def tblFEN0 : List RegDesc := [
  ⟨0x100000, [], [⟨Fld.FEN_COUNT_COUNT, .ro, 0x0, []⟩]⟩,
  ⟨0x100004, [], [⟨Fld.FEN_INT_STATUS_EVT, .w1c, 0x0, []⟩, ⟨Fld.FEN_INT_STATUS_OVF, .w1c, 0x0, []⟩]⟩,
  ⟨0x100008, [], [⟨Fld.FEN_INT_EN_EVT, .rw, 0x0, []⟩, ⟨Fld.FEN_INT_EN_OVF, .rw, 0x0, []⟩]⟩,
  ⟨0x100010, [], [⟨Fld.FEN_EVQ_BASE_LO_ADDR_LO, .rw, 0x0, []⟩]⟩,
  ⟨0x100014, [], [⟨Fld.FEN_EVQ_BASE_HI_ADDR_HI, .rw, 0x0, []⟩]⟩,
  ⟨0x100018, [], [⟨Fld.FEN_EVQ_CFG_EN, .rw, 0x0, []⟩, ⟨Fld.FEN_EVQ_CFG_LOG2N, .rw, 0x6, [(6, 15)]⟩]⟩,
  ⟨0x10001C, [], [⟨Fld.FEN_EVQ_HEAD_HEAD, .rw, 0x0, []⟩]⟩,
  ⟨0x100020, [], [⟨Fld.FEN_EVQ_TAIL_TAIL, .ro, 0x0, []⟩]⟩,
  ⟨0x100024, [], [⟨Fld.FEN_EVQ_STAT_OVF, .w1c, 0x0, []⟩, ⟨Fld.FEN_EVQ_STAT_LOST, .rc, 0x0, []⟩]⟩,
  ⟨0x140000, [(4, 65536)], [⟨Fld.FEN_F_SIG, .w1s, 0x0, []⟩, ⟨Fld.FEN_F_RESET, .cmd, 0x0, []⟩, ⟨Fld.FEN_F_NOTIFY, .rw, 0x0, []⟩, ⟨Fld.FEN_F_ERR, .ro, 0x0, []⟩]⟩]

/-- The registers of the `FEN` block. -/
def tblFEN : List RegDesc := tblFEN0

def tblSEQ0 : List RegDesc := [
  ⟨0x200000, [], [⟨Fld.SEQ_CTRL_RUN, .cmd, 0x0, []⟩, ⟨Fld.SEQ_CTRL_CONT, .cmd, 0x0, []⟩, ⟨Fld.SEQ_CTRL_STOP, .w1s, 0x0, []⟩, ⟨Fld.SEQ_CTRL_RESUME, .cmd, 0x0, []⟩, ⟨Fld.SEQ_CTRL_BRK_EN, .rw, 0x0, []⟩]⟩,
  ⟨0x200004, [], [⟨Fld.SEQ_STATUS_STATE, .ro, 0x0, []⟩]⟩,
  ⟨0x200008, [], [⟨Fld.SEQ_IMG_BASE_LO_ADDR_LO, .rw, 0x0, []⟩]⟩,
  ⟨0x20000C, [], [⟨Fld.SEQ_IMG_BASE_HI_ADDR_HI, .rw, 0x0, []⟩]⟩,
  ⟨0x200010, [], [⟨Fld.SEQ_PC_PC, .ro, 0x0, []⟩]⟩,
  ⟨0x200014, [], [⟨Fld.SEQ_BIP_BIP, .ro, 0x0, []⟩]⟩,
  ⟨0x200018, [], [⟨Fld.SEQ_PERIOD_PID, .ro, 0x0, []⟩]⟩,
  ⟨0x20001C, [], [⟨Fld.SEQ_ISRAM_PMAX, .ro, 0x0, []⟩]⟩,
  ⟨0x200020, [], [⟨Fld.SEQ_BEATS_LO_COUNT_LO, .ro, 0x0, []⟩]⟩,
  ⟨0x200024, [], [⟨Fld.SEQ_BEATS_HI_COUNT_HI, .ro, 0x0, []⟩]⟩,
  ⟨0x200030, [], [⟨Fld.SEQ_ERR_CODE, .ro, 0x0, []⟩, ⟨Fld.SEQ_ERR_CORE, .ro, 0xFF, []⟩, ⟨Fld.SEQ_ERR_UNIT, .ro, 0xF, []⟩]⟩,
  ⟨0x200034, [], [⟨Fld.SEQ_ERR_PC_PC, .ro, 0x0, []⟩]⟩,
  ⟨0x200038, [], [⟨Fld.SEQ_INT_STATUS_END, .w1c, 0x0, []⟩, ⟨Fld.SEQ_INT_STATUS_FAULT, .w1c, 0x0, []⟩, ⟨Fld.SEQ_INT_STATUS_BRK, .w1c, 0x0, []⟩, ⟨Fld.SEQ_INT_STATUS_CMD_REJECT, .w1c, 0x0, []⟩, ⟨Fld.SEQ_INT_STATUS_SCHED_LOST, .w1c, 0x0, []⟩]⟩,
  ⟨0x20003C, [], [⟨Fld.SEQ_INT_EN_END, .rw, 0x0, []⟩, ⟨Fld.SEQ_INT_EN_FAULT, .rw, 0x0, []⟩, ⟨Fld.SEQ_INT_EN_BRK, .rw, 0x0, []⟩, ⟨Fld.SEQ_INT_EN_CMD_REJECT, .rw, 0x0, []⟩, ⟨Fld.SEQ_INT_EN_SCHED_LOST, .rw, 0x0, []⟩]⟩,
  ⟨0x200040, [(4, 4)], [⟨Fld.SEQ_LOOP_COUNT, .ro, 0x0, []⟩]⟩,
  ⟨0x200080, [(4, 32)], [⟨Fld.SEQ_CSET_OUT, .ro, 0x0, []⟩]⟩,
  ⟨0x200200, [], [⟨Fld.SEQ_LATE_LATE, .ro, 0x0, []⟩]⟩,
  ⟨0x200204, [], [⟨Fld.SEQ_LATE_MAX_MAX, .rc, 0x0, []⟩]⟩,
  ⟨0x200208, [], [⟨Fld.SEQ_CATCHUP_LIMIT_LIMIT, .rw, 0x40000, []⟩]⟩,
  ⟨0x20020C, [], [⟨Fld.SEQ_LATE_STAT_LOST, .ro, 0x0, []⟩, ⟨Fld.SEQ_LATE_STAT_PEER_CAUSED, .ro, 0x0, []⟩, ⟨Fld.SEQ_LATE_STAT_ANN_PEND, .ro, 0x0, []⟩]⟩]

def tblSEQ1 : List RegDesc := [
  ⟨0x200210, [], [⟨Fld.SEQ_GATE_STAT_FALSE, .ro, 0x0, []⟩, ⟨Fld.SEQ_GATE_STAT_RESID, .ro, 0x0, []⟩, ⟨Fld.SEQ_GATE_STAT_COMMIT, .ro, 0x0, []⟩, ⟨Fld.SEQ_GATE_STAT_HOLD, .ro, 0x0, []⟩, ⟨Fld.SEQ_GATE_STAT_LAST, .ro, 0xF, []⟩]⟩,
  ⟨0x200218, [], [⟨Fld.SEQ_WAIT_LO_COUNT_LO, .ro, 0x0, []⟩]⟩,
  ⟨0x20021C, [], [⟨Fld.SEQ_WAIT_HI_COUNT_HI, .ro, 0x0, []⟩]⟩,
  ⟨0x200220, [], [⟨Fld.SEQ_CONS_LO_COUNT_LO, .ro, 0x0, []⟩]⟩,
  ⟨0x200224, [], [⟨Fld.SEQ_CONS_HI_COUNT_HI, .ro, 0x0, []⟩]⟩,
  ⟨0x200228, [], [⟨Fld.SEQ_SLOST_COUNT_COUNT, .rc, 0x0, []⟩]⟩,
  ⟨0x200230, [], [⟨Fld.SEQ_ANN_TAG_TAG, .rw, 0x0, []⟩]⟩,
  ⟨0x200234, [], [⟨Fld.SEQ_PEER_LATE_ACTIVE, .ro, 0x0, []⟩, ⟨Fld.SEQ_PEER_LATE_LATE_K, .ro, 0x0, []⟩, ⟨Fld.SEQ_PEER_LATE_SLOT, .ro, 0x0, []⟩, ⟨Fld.SEQ_PEER_LATE_END, .ro, 0x0, []⟩]⟩,
  ⟨0x200238, [], [⟨Fld.SEQ_PEER_SRC_NODE, .ro, 0x0, []⟩, ⟨Fld.SEQ_PEER_SRC_RELAYED, .ro, 0x0, []⟩]⟩,
  ⟨0x201000, [(32, 64), (4, 4)], [⟨Fld.SEQ_GRP_MASK, .ro, 0x0, []⟩]⟩,
  ⟨0x201010, [(32, 64)], [⟨Fld.SEQ_GRP_4_SPARE, .ro, 0x0, []⟩]⟩,
  ⟨0x280000, [(32, 2048)], [⟨Fld.SEQ_RING_BASE_LO_ADDR_LO, .rw, 0x0, []⟩]⟩,
  ⟨0x280004, [(32, 2048)], [⟨Fld.SEQ_RING_BASE_HI_ADDR_HI, .rw, 0x0, []⟩]⟩,
  ⟨0x280008, [(32, 2048)], [⟨Fld.SEQ_RING_CFG_TYPE, .rw, 0x0, [(0, 4)]⟩, ⟨Fld.SEQ_RING_CFG_LOG2N, .rw, 0x0, []⟩, ⟨Fld.SEQ_RING_CFG_RSZM1, .rw, 0x0, []⟩, ⟨Fld.SEQ_RING_CFG_PEER_CORE, .rw, 0x0, []⟩, ⟨Fld.SEQ_RING_CFG_PEER_RING, .rw, 0x0, []⟩]⟩,
  ⟨0x28000C, [(32, 2048)], [⟨Fld.SEQ_RING_PROD_PROD, .rw, 0x0, []⟩]⟩,
  ⟨0x280010, [(32, 2048)], [⟨Fld.SEQ_RING_CONS_CONS, .rw, 0x0, []⟩]⟩,
  ⟨0x280014, [(32, 2048)], [⟨Fld.SEQ_RING_CTRL_EOD, .w1s, 0x0, []⟩, ⟨Fld.SEQ_RING_CTRL_RESET, .cmd, 0x0, []⟩]⟩,
  ⟨0x280018, [(32, 2048)], [⟨Fld.SEQ_RING_STAT_SHORT, .w1c, 0x0, []⟩, ⟨Fld.SEQ_RING_STAT_SHORT_CNT, .ro, 0x0, []⟩, ⟨Fld.SEQ_RING_STAT_ERR_PROD, .w1c, 0x0, []⟩, ⟨Fld.SEQ_RING_STAT_ERR_CONS, .w1c, 0x0, []⟩, ⟨Fld.SEQ_RING_STAT_ERR_CFG, .w1c, 0x0, []⟩]⟩]

/-- The registers of the `SEQ` block. -/
def tblSEQ : List RegDesc := tblSEQ0 ++ tblSEQ1

def tblCKP0 : List RegDesc := [
  ⟨0x300000, [], [⟨Fld.CKP_CTRL_MODE, .rw, 0x0, [(0, 2)]⟩, ⟨Fld.CKP_CTRL_DRAIN_EN, .rw, 0x0, []⟩, ⟨Fld.CKP_CTRL_ACCEPT, .rw, 0x0, []⟩, ⟨Fld.CKP_CTRL_ABORT, .cmd, 0x0, []⟩, ⟨Fld.CKP_CTRL_RESTORE, .cmd, 0x0, []⟩, ⟨Fld.CKP_CTRL_RESTORE_SLOT, .rw, 0x0, []⟩, ⟨Fld.CKP_CTRL_PULL, .cmd, 0x0, []⟩, ⟨Fld.CKP_CTRL_PULL_SLOT, .rw, 0x0, []⟩]⟩,
  ⟨0x300004, [], [⟨Fld.CKP_STATUS_ABORTED, .ro, 0x0, []⟩, ⟨Fld.CKP_STATUS_QUIET, .ro, 0x0, []⟩, ⟨Fld.CKP_STATUS_SNAP_BUSY, .ro, 0x0, []⟩, ⟨Fld.CKP_STATUS_DRAIN_BUSY, .ro, 0x0, []⟩, ⟨Fld.CKP_STATUS_PULL_BUSY, .ro, 0x0, []⟩, ⟨Fld.CKP_STATUS_SERVE_BUSY, .ro, 0x0, []⟩, ⟨Fld.CKP_STATUS_RESTORE_BUSY, .ro, 0x0, []⟩, ⟨Fld.CKP_STATUS_RESUME_ARMED, .ro, 0x0, []⟩, ⟨Fld.CKP_STATUS_WR_REJECT, .w1c, 0x0, []⟩, ⟨Fld.CKP_STATUS_DRAIN_SLOT, .ro, 0x0, []⟩]⟩,
  ⟨0x300008, [], [⟨Fld.CKP_TRIGGER_EVERY, .rw, 0x0, []⟩, ⟨Fld.CKP_TRIGGER_ALIGN, .rw, 0x1, [(1, 65535)]⟩]⟩,
  ⟨0x30000C, [], [⟨Fld.CKP_TIMER_SECONDS, .rw, 0x0, []⟩]⟩,
  ⟨0x300010, [], [⟨Fld.CKP_LAKE_BASE_MIB, .rw, 0x0, []⟩]⟩,
  ⟨0x300014, [], [⟨Fld.CKP_KID_LKID0, .rw, 0x0, []⟩, ⟨Fld.CKP_KID_LKID1, .rw, 0x0, []⟩, ⟨Fld.CKP_KID_BKID, .rw, 0x0, []⟩]⟩,
  ⟨0x300018, [], [⟨Fld.CKP_BUDDY_BASE_MIB, .rw, 0x0, []⟩]⟩,
  ⟨0x30001C, [], [⟨Fld.CKP_BUDDY_SIZE_MIB, .rw, 0x0, []⟩]⟩,
  ⟨0x300020, [], [⟨Fld.CKP_DRAIN_CFG_PORT, .rw, 0x0, []⟩, ⟨Fld.CKP_DRAIN_CFG_RATE, .rw, 0x8, [(1, 200)]⟩]⟩,
  ⟨0x300024, [], [⟨Fld.CKP_SEQNO_SEQNO, .ro, 0x0, []⟩]⟩,
  ⟨0x300028, [], [⟨Fld.CKP_SHAPEID_LO_ID_LO, .rw, 0x0, []⟩]⟩,
  ⟨0x30002C, [], [⟨Fld.CKP_SHAPEID_HI_ID_HI, .rw, 0x0, []⟩]⟩,
  ⟨0x300040, [(16, 2)], [⟨Fld.CKP_SLOT_STAT_STATE, .ro, 0x0, []⟩]⟩,
  ⟨0x300044, [(16, 2)], [⟨Fld.CKP_SLOT_SEQ_SEQNO, .ro, 0x0, []⟩]⟩,
  ⟨0x300048, [(16, 2)], [⟨Fld.CKP_SLOT_STEP_LO_STEP_LO, .ro, 0x0, []⟩]⟩,
  ⟨0x30004C, [(16, 2)], [⟨Fld.CKP_SLOT_STEP_HI_STEP_HI, .ro, 0x0, []⟩]⟩,
  ⟨0x300060, [(16, 2)], [⟨Fld.CKP_BSLOT_STAT_STATE, .ro, 0x0, []⟩, ⟨Fld.CKP_BSLOT_STAT_SRC, .ro, 0x0, []⟩, ⟨Fld.CKP_BSLOT_STAT_END, .ro, 0x0, []⟩]⟩,
  ⟨0x300064, [(16, 2)], [⟨Fld.CKP_BSLOT_SEQ_SEQNO, .ro, 0x0, []⟩]⟩,
  ⟨0x300068, [(16, 2)], [⟨Fld.CKP_BSLOT_STEP_LO_STEP_LO, .ro, 0x0, []⟩]⟩,
  ⟨0x30006C, [(16, 2)], [⟨Fld.CKP_BSLOT_STEP_HI_STEP_HI, .ro, 0x0, []⟩]⟩]

def tblCKP1 : List RegDesc := [
  ⟨0x300080, [], [⟨Fld.CKP_INT_STATUS_SNAP, .w1c, 0x0, []⟩, ⟨Fld.CKP_INT_STATUS_VERIFIED, .w1c, 0x0, []⟩, ⟨Fld.CKP_INT_STATUS_DEFER, .w1c, 0x0, []⟩, ⟨Fld.CKP_INT_STATUS_DRAIN_FAIL, .w1c, 0x0, []⟩, ⟨Fld.CKP_INT_STATUS_QUIET, .w1c, 0x0, []⟩, ⟨Fld.CKP_INT_STATUS_FETCHED, .w1c, 0x0, []⟩, ⟨Fld.CKP_INT_STATUS_RESTORED, .w1c, 0x0, []⟩, ⟨Fld.CKP_INT_STATUS_ERR, .w1c, 0x0, []⟩, ⟨Fld.CKP_INT_STATUS_BUDDY_VERIFIED, .w1c, 0x0, []⟩]⟩,
  ⟨0x300084, [], [⟨Fld.CKP_INT_EN_SNAP, .rw, 0x0, []⟩, ⟨Fld.CKP_INT_EN_VERIFIED, .rw, 0x0, []⟩, ⟨Fld.CKP_INT_EN_DEFER, .rw, 0x0, []⟩, ⟨Fld.CKP_INT_EN_DRAIN_FAIL, .rw, 0x0, []⟩, ⟨Fld.CKP_INT_EN_QUIET, .rw, 0x0, []⟩, ⟨Fld.CKP_INT_EN_FETCHED, .rw, 0x0, []⟩, ⟨Fld.CKP_INT_EN_RESTORED, .rw, 0x0, []⟩, ⟨Fld.CKP_INT_EN_ERR, .rw, 0x0, []⟩, ⟨Fld.CKP_INT_EN_BUDDY_VERIFIED, .rw, 0x0, []⟩]⟩,
  ⟨0x300088, [], [⟨Fld.CKP_ERR_CODE, .rc, 0x0, []⟩]⟩,
  ⟨0x30008C, [], [⟨Fld.CKP_ABORT_DROP_COUNT, .rc, 0x0, []⟩]⟩,
  ⟨0x300090, [], [⟨Fld.CKP_DEFER_COUNT_COUNT, .rc, 0x0, []⟩]⟩,
  ⟨0x300098, [], [⟨Fld.CKP_DRAIN_BYTES_LO_COUNT_LO, .ro, 0x0, []⟩]⟩,
  ⟨0x30009C, [], [⟨Fld.CKP_DRAIN_BYTES_HI_COUNT_HI, .ro, 0x0, []⟩]⟩,
  ⟨0x3000A0, [], [⟨Fld.CKP_PULL_SEQ_SEQNO, .rw, 0x0, []⟩]⟩,
  ⟨0x3000A4, [], [⟨Fld.CKP_HOSTACK_SEQNO, .wo, 0x0, []⟩]⟩]

/-- The registers of the `CKP` block. -/
def tblCKP : List RegDesc := tblCKP0 ++ tblCKP1

def tblUPD0 : List RegDesc := [
  ⟨0x400000, [], [⟨Fld.UPD_CTRL_STEP_RINGS, .rw, 0x0, []⟩]⟩,
  ⟨0x400004, [], [⟨Fld.UPD_STATUS_LAST, .ro, 0x0, []⟩, ⟨Fld.UPD_STATUS_PENDING, .ro, 0x0, []⟩, ⟨Fld.UPD_STATUS_WR_REJECT, .w1c, 0x0, []⟩, ⟨Fld.UPD_STATUS_LS_FLOOR, .w1c, 0x0, []⟩, ⟨Fld.UPD_STATUS_DIVERGE, .w1c, 0x0, []⟩, ⟨Fld.UPD_STATUS_HIST, .rw, 0x0, []⟩]⟩,
  ⟨0x400008, [], [⟨Fld.UPD_EPOCH_EPOCH, .rw, 0x0, []⟩]⟩,
  ⟨0x40000C, [], [⟨Fld.UPD_BANK_BASE_MIB, .rw, 0x0, []⟩]⟩,
  ⟨0x400010, [], [⟨Fld.UPD_BANK_SIZE_MIB, .rw, 0x0, []⟩]⟩,
  ⟨0x400018, [], [⟨Fld.UPD_STEP_LO_STEP_LO, .rw, 0x0, []⟩]⟩,
  ⟨0x40001C, [], [⟨Fld.UPD_STEP_HI_STEP_HI, .rw, 0x0, []⟩]⟩,
  ⟨0x400020, [], [⟨Fld.UPD_TCOUNT_COUNT, .rw, 0x0, []⟩]⟩,
  ⟨0x400024, [], [⟨Fld.UPD_SKIP_COUNT_COUNT, .rw, 0x0, []⟩]⟩,
  ⟨0x400028, [], [⟨Fld.UPD_LS_EXP, .rw, 0x0, []⟩]⟩,
  ⟨0x40002C, [], [⟨Fld.UPD_CLEAN_COUNT, .rw, 0x0, []⟩]⟩,
  ⟨0x400030, [], [⟨Fld.UPD_LS_CFG_MIN_EXP, .rw, 0x0, []⟩, ⟨Fld.UPD_LS_CFG_MAX_EXP, .rw, 0x0, []⟩, ⟨Fld.UPD_LS_CFG_BACKOFF, .rw, 0x1, []⟩, ⟨Fld.UPD_LS_CFG_GROW, .rw, 0x1, []⟩]⟩,
  ⟨0x400034, [], [⟨Fld.UPD_LS_INTERVAL_INTERVAL, .rw, 0x0, []⟩]⟩,
  ⟨0x400038, [], [⟨Fld.UPD_CLIP_INIT_NORM_NORM, .rw, 0x3F800000, []⟩]⟩,
  ⟨0x40003C, [], [⟨Fld.UPD_GNORM_LAG_NORM, .rw, 0x0, []⟩]⟩,
  ⟨0x400040, [], [⟨Fld.UPD_GNORM_SQ_G, .ro, 0x0, []⟩]⟩,
  ⟨0x400044, [], [⟨Fld.UPD_NORM_ACC_ACC, .ro, 0x0, []⟩]⟩,
  ⟨0x400048, [], [⟨Fld.UPD_STATE_BASE_LO_ADDR_LO, .rw, 0x0, []⟩]⟩,
  ⟨0x40004C, [], [⟨Fld.UPD_STATE_BASE_HI_ADDR_HI, .rw, 0x0, []⟩]⟩,
  ⟨0x400050, [], [⟨Fld.UPD_INT_STATUS_DECIDED, .w1c, 0x0, []⟩, ⟨Fld.UPD_INT_STATUS_SKIP, .w1c, 0x0, []⟩, ⟨Fld.UPD_INT_STATUS_TAINT, .w1c, 0x0, []⟩, ⟨Fld.UPD_INT_STATUS_DIVERGE, .w1c, 0x0, []⟩, ⟨Fld.UPD_INT_STATUS_DESC_ERR, .w1c, 0x0, []⟩]⟩]

def tblUPD1 : List RegDesc := [
  ⟨0x400054, [], [⟨Fld.UPD_INT_EN_DECIDED, .rw, 0x0, []⟩, ⟨Fld.UPD_INT_EN_SKIP, .rw, 0x0, []⟩, ⟨Fld.UPD_INT_EN_TAINT, .rw, 0x0, []⟩, ⟨Fld.UPD_INT_EN_DIVERGE, .rw, 0x0, []⟩, ⟨Fld.UPD_INT_EN_DESC_ERR, .rw, 0x0, []⟩]⟩,
  ⟨0x400058, [], [⟨Fld.UPD_ERR_CODE, .rc, 0x0, []⟩, ⟨Fld.UPD_ERR_STACK, .rc, 0x0, []⟩]⟩,
  ⟨0x40005C, [], [⟨Fld.UPD_ERR_TID_TID, .ro, 0x0, []⟩]⟩,
  ⟨0x400080, [(8, 8)], [⟨Fld.UPD_OPT_P1_P, .rw, 0x3F800000, []⟩]⟩,
  ⟨0x400084, [(8, 8)], [⟨Fld.UPD_OPT_P2_P, .rw, 0x3F800000, []⟩]⟩,
  ⟨0x400100, [(32, 8)], [⟨Fld.UPD_OPT_0_KIND, .rw, 0x0, [(0, 2)]⟩, ⟨Fld.UPD_OPT_0_CLIP, .rw, 0x0, []⟩]⟩,
  ⟨0x400104, [(32, 8)], [⟨Fld.UPD_OPT_1_LRMUL, .rw, 0x3F800000, []⟩]⟩,
  ⟨0x400108, [(32, 8)], [⟨Fld.UPD_OPT_2_BETA1, .rw, 0x0, []⟩]⟩,
  ⟨0x40010C, [(32, 8)], [⟨Fld.UPD_OPT_3_BETA2, .rw, 0x0, []⟩]⟩,
  ⟨0x400110, [(32, 8)], [⟨Fld.UPD_OPT_4_EPS, .rw, 0x0, []⟩]⟩,
  ⟨0x400114, [(32, 8)], [⟨Fld.UPD_OPT_5_WD, .rw, 0x0, []⟩]⟩,
  ⟨0x400118, [(32, 8)], [⟨Fld.UPD_OPT_6_MU, .rw, 0x0, []⟩]⟩,
  ⟨0x40011C, [(32, 8)], [⟨Fld.UPD_OPT_7_MAXNORM, .rw, 0x3F800000, []⟩]⟩,
  ⟨0x400200, [], [⟨Fld.UPD_LR_CFG_NPTS, .rw, 0x0, [(0, 64)]⟩]⟩,
  ⟨0x400400, [(16, 64)], [⟨Fld.UPD_LR_0_STEP_LO, .rw, 0x0, []⟩]⟩,
  ⟨0x400404, [(16, 64)], [⟨Fld.UPD_LR_1_STEP_HI, .rw, 0x0, []⟩]⟩,
  ⟨0x400408, [(16, 64)], [⟨Fld.UPD_LR_2_LR, .rw, 0x0, []⟩]⟩,
  ⟨0x40040C, [(16, 64)], []⟩]

/-- The registers of the `UPD` block. -/
def tblUPD : List RegDesc := tblUPD0 ++ tblUPD1

def tblFMT0 : List RegDesc := [
  ⟨0x500000, [], [⟨Fld.FMT_STATUS_WR_REJECT, .w1c, 0x0, []⟩, ⟨Fld.FMT_STATUS_INVALID_TBL, .w1c, 0x0, []⟩, ⟨Fld.FMT_STATUS_SEQ_STOPPED, .ro, 0x1, []⟩]⟩,
  ⟨0x500004, [], [⟨Fld.FMT_NF_STATUS_NAN, .w1c, 0x0, []⟩, ⟨Fld.FMT_NF_STATUS_INF, .w1c, 0x0, []⟩, ⟨Fld.FMT_NF_STATUS_SCALE_NAN, .w1c, 0x0, []⟩]⟩,
  ⟨0x500008, [], [⟨Fld.FMT_NF_TENSOR_TENSOR, .ro, 0x0, []⟩]⟩,
  ⟨0x50000C, [], [⟨Fld.FMT_SAT_COUNT_COUNT, .rc, 0x0, []⟩]⟩,
  ⟨0x500010, [(4, 4)], [⟨Fld.FMT_SR_SEED_SEED, .rw, 0x0, []⟩]⟩,
  ⟨0x500100, [(4, 16)], [⟨Fld.FMT_TBL_HDR_VALID, .rw, 0x0, []⟩, ⟨Fld.FMT_TBL_HDR_WIDTH, .rw, 0x0, []⟩, ⟨Fld.FMT_TBL_HDR_XOFF, .rw, 0x0, [(0, 63), (192, 255)]⟩]⟩,
  -- the sign and magnitude of each entry: bit 6 of an entry is reserved (R105)
  ⟨0x500400, [(64, 16), (4, 16)], [⟨⟨31, 1⟩, .rw, 0x0, []⟩, ⟨⟨24, 6⟩, .rw, 0x0, []⟩, ⟨⟨23, 1⟩, .rw, 0x0, []⟩, ⟨⟨16, 6⟩, .rw, 0x0, []⟩,
    ⟨⟨15, 1⟩, .rw, 0x0, []⟩, ⟨⟨8, 6⟩, .rw, 0x0, []⟩, ⟨⟨7, 1⟩, .rw, 0x0, []⟩, ⟨⟨0, 6⟩, .rw, 0x0, []⟩]⟩]

/-- The registers of the `FMT` block. -/
def tblFMT : List RegDesc := tblFMT0

def tblCOL0 : List RegDesc := [
  ⟨0x600000, [], [⟨Fld.COL_STAGE_CFG_TRAY_N, .rw, 0x1, [(1, 8)]⟩, ⟨Fld.COL_STAGE_CFG_RACK_N, .rw, 0x1, [(1, 8)]⟩, ⟨Fld.COL_STAGE_CFG_HALL_N, .rw, 0x1, [(1, 1024)]⟩, ⟨Fld.COL_STAGE_CFG_RACK_ALG, .rw, 0x0, [(0, 2)]⟩, ⟨Fld.COL_STAGE_CFG_HALL_ALG, .rw, 0x0, [(0, 2)]⟩, ⟨Fld.COL_STAGE_CFG_XPORT, .rw, 0x0, []⟩]⟩,
  ⟨0x600004, [], [⟨Fld.COL_POS_TRAY_POS, .rw, 0x0, []⟩, ⟨Fld.COL_POS_RACK_POS, .rw, 0x0, []⟩, ⟨Fld.COL_POS_HALL_POS, .rw, 0x0, []⟩]⟩,
  ⟨0x600008, [], [⟨Fld.COL_RB_BASE_UNIT, .rw, 0x30000, []⟩]⟩,
  ⟨0x60000C, [], [⟨Fld.COL_XCHG_CF_CF, .rw, 0x100, [(1, 65535)]⟩]⟩,
  ⟨0x600010, [(4, 4)], [⟨Fld.COL_PORTMAP_TARGET0, .rw, 0x0, [(0, 17)]⟩, ⟨Fld.COL_PORTMAP_TARGET1, .rw, 0x0, [(0, 17)]⟩, ⟨Fld.COL_PORTMAP_TARGET2, .rw, 0x0, [(0, 17)]⟩, ⟨Fld.COL_PORTMAP_TARGET3, .rw, 0x0, [(0, 17)]⟩]⟩,
  ⟨0x600020, [], [⟨Fld.COL_STATUS_WR_REJECT, .w1c, 0x0, []⟩]⟩,
  ⟨0x600024, [], [⟨Fld.COL_INT_STATUS_WIN_ERR, .w1c, 0x0, []⟩, ⟨Fld.COL_INT_STATUS_CC_ERR, .w1c, 0x0, []⟩]⟩,
  ⟨0x600028, [], [⟨Fld.COL_INT_EN_WIN_ERR, .rw, 0x0, []⟩, ⟨Fld.COL_INT_EN_CC_ERR, .rw, 0x0, []⟩]⟩,
  ⟨0x600030, [], [⟨Fld.COL_WINERR_COUNT_COUNT, .rc, 0x0, []⟩]⟩,
  ⟨0x600034, [], [⟨Fld.COL_WINERR_LAST_LPORT, .ro, 0x0, []⟩, ⟨Fld.COL_WINERR_LAST_ROLE, .ro, 0x0, []⟩, ⟨Fld.COL_WINERR_LAST_WIN, .ro, 0x0, []⟩]⟩,
  ⟨0x600038, [], [⟨Fld.COL_DYN_STAT_OWN, .ro, 0x0, []⟩, ⟨Fld.COL_DYN_STAT_FREE, .ro, 0x0, []⟩]⟩,
  ⟨0x60003C, [], [⟨Fld.COL_DYN_NONE_COUNT, .rc, 0x0, []⟩]⟩,
  ⟨0x600040, [], [⟨Fld.COL_CC_TMO_US, .rw, 0x2710, [(1, 16777215)]⟩]⟩,
  ⟨0x600044, [], [⟨Fld.COL_CC_ERR_CODE, .rc, 0x0, []⟩, ⟨Fld.COL_CC_ERR_CH, .ro, 0x0, []⟩, ⟨Fld.COL_CC_ERR_CCID, .ro, 0x0, []⟩]⟩,
  ⟨0x600080, [(16, 4)], [⟨Fld.COL_ROT_0_BASE, .rw, 0x0, []⟩]⟩,
  ⟨0x600084, [(16, 4)], [⟨Fld.COL_ROT_1_LEN, .rw, 0x0, []⟩]⟩,
  ⟨0x600088, [(16, 4)], [⟨Fld.COL_ROT_2_N, .rw, 0x1, [(1, 1024)]⟩, ⟨Fld.COL_ROT_2_ROT, .rw, 0x0, []⟩]⟩]

/-- The registers of the `COL` block. -/
def tblCOL : List RegDesc := tblCOL0

def tblTDBG0 : List RegDesc := [
  ⟨0x700000, [], [⟨Fld.TDBG_CNT_CTRL_EN, .rw, 0x0, []⟩, ⟨Fld.TDBG_CNT_CTRL_CLEAR, .cmd, 0x0, []⟩]⟩,
  ⟨0x700010, [(4, 16)], [⟨Fld.TDBG_CNT_CFG_EVENT, .rw, 0x0, [(0, 19)]⟩, ⟨Fld.TDBG_CNT_CFG_CORE, .rw, 0xFF, []⟩, ⟨Fld.TDBG_CNT_CFG_UMASK, .rw, 0x3FF, []⟩]⟩,
  ⟨0x700100, [(8, 16)], [⟨Fld.TDBG_CNT_LO_COUNT_LO, .ro, 0x0, []⟩]⟩,
  ⟨0x700104, [(8, 16)], [⟨Fld.TDBG_CNT_HI_COUNT_HI, .ro, 0x0, []⟩]⟩,
  ⟨0x700200, [], [⟨Fld.TDBG_SEPIA_CTRL_FREEZE, .cmd, 0x0, []⟩, ⟨Fld.TDBG_SEPIA_CTRL_THAW, .cmd, 0x0, []⟩, ⟨Fld.TDBG_SEPIA_CTRL_FREEZE_ON_FAULT, .rw, 0x0, []⟩]⟩,
  ⟨0x700204, [], [⟨Fld.TDBG_SEPIA_STAT_FROZEN, .ro, 0x0, []⟩, ⟨Fld.TDBG_SEPIA_STAT_DEV_FROZEN, .ro, 0x0, []⟩]⟩,
  ⟨0x700210, [], [⟨Fld.TDBG_DUMP_BASE_LO_ADDR_LO, .rw, 0x0, []⟩]⟩,
  ⟨0x700214, [], [⟨Fld.TDBG_DUMP_BASE_HI_ADDR_HI, .rw, 0x0, []⟩]⟩,
  ⟨0x700218, [], [⟨Fld.TDBG_DUMP_SIZE_KIB, .rw, 0x0, []⟩]⟩,
  ⟨0x70021C, [], [⟨Fld.TDBG_DUMP_CFG_SLOT, .rw, 0x0, []⟩, ⟨Fld.TDBG_DUMP_CFG_VALID, .rw, 0x0, []⟩, ⟨Fld.TDBG_DUMP_CFG_T, .rw, 0x0, []⟩, ⟨Fld.TDBG_DUMP_CFG_FENCE, .rw, 0x0, []⟩]⟩,
  ⟨0x700220, [], [⟨Fld.TDBG_DUMP_CTRL_GO, .cmd, 0x0, []⟩]⟩,
  ⟨0x700224, [], [⟨Fld.TDBG_DUMP_STAT_BUSY, .ro, 0x0, []⟩, ⟨Fld.TDBG_DUMP_STAT_TRUNC, .ro, 0x0, []⟩, ⟨Fld.TDBG_DUMP_STAT_ERR, .ro, 0x0, []⟩]⟩]

/-- The registers of the `TDBG` block. -/
def tblTDBG : List RegDesc := tblTDBG0
/-- The instance of an array of registers that lies `rel` bytes after the first: its indices, outermost first. -/
def dimIndex : List (Nat × Nat) → Nat → Option (List Nat)
  | [], rel => if rel = 0 then some [] else none
  | (stride, count) :: t, rel =>
    if rel / stride < count then (dimIndex t (rel % stride)).map (rel / stride :: ·) else none

/-- The description of the register at an offset, with its indices (R18: none where no register lies). -/
def findReg : List RegDesc → Nat → Option (RegDesc × List Nat)
  | [], _ => none
  | r :: t, off =>
    if r.off ≤ off then
      match dimIndex r.dims (off - r.off) with
      | some ix => some (r, ix)
      | none => findReg t off
    else findReg t off

/-- The register table of one 1 MiB window of PF0's BAR0 (R26). -/
def pfTable (blk : Nat) : List RegDesc :=
  match blk with
  | 0 => tblGLB | 1 => tblPWR | 2 => tblMGT | 3 => tblLCS | 4 => tblKEY | 5 => tblLL | 6 => tblHST
  | 7 => tblMEM | 8 => tblPRT | 9 => tblDBG | 10 => tblMTR | _ => []

/-- The register table of one 1 MiB window of a VF's BAR0 (R27). -/
def vfTable (blk : Nat) : List RegDesc :=
  match blk with
  | 0 => tblQUE | 1 => tblFEN | 2 => tblSEQ | 3 => tblCKP | 4 => tblUPD | 5 => tblFMT | 6 => tblCOL
  | 7 => tblTDBG | 8 => tblTKEY | _ => []

/-- The function (0 is PF0) and the offset in its BAR0 of a register address. -/
def regFn (a : Nat) : Nat := a / 268435456
def regOff (a : Nat) : Nat := a % 268435456

/-- The register at an address, with its indices. -/
def regDesc (a : Nat) : Option (RegDesc × List Nat) :=
  findReg (if regFn a = 0 ∨ regFn a = 5 then pfTable (regOff a / 1048576) else vfTable (regOff a / 1048576)) (regOff a)

/-- The reset values of a table's fields, put into one word. -/
def fieldsReset : List FieldDesc → Word → Word
  | [], w => w
  | f :: t, w => fieldsReset t (f.fld.put w f.reset)

/-- R366: the reset contents of the training table, as the two words of each entry. -/
def trainReset0 (i : Nat) : Nat :=
  match i with
  | 0 => 0x00110 | 1 => 0x01221 | 2 => 0x3B332 | 3 => 0x3B743 | 4 => 0x26552 | 5 => 0x16774 | 6 => 0x3B332
  | 7 => 0x3B885 | 8 => 0x1B996 | 9 => 0x0A997 | 10 => 0x3B992 | 11 => 0x0B110 | _ => 0x0BBB0

def trainReset1 (i : Nat) : Nat :=
  match i with
  | 1 => 10000 | 2 => 0x1000000 + 5000 | 3 => 2000 | 4 => 0x2000000 + 20000 | 5 => 0xA000000 + 20000
  | 6 => 0x5000000 + 5000 | 7 => 1000 | 8 => 500000 | 10 => 2000 | _ => 0

/-- R656: CCLK in MHz and set point in mV of each entry of the fused V/F table. -/
def vfTableEntry (i : Nat) : Nat × Nat :=
  match i with
  | 0 => (2000, 815) | 1 => (1900, 785) | 2 => (1800, 755) | 3 => (1600, 715) | 4 => (1400, 680)
  | 5 => (1200, 650) | 6 => (1000, 625) | _ => (800, 605)

/-- Reset values that depend on the index, or on layout 1 (R558, R559), or on a core map in which no core is retired
(R32; DESIGN CHOICE, log entry 4: the shipped map binds the first 32 physical cores of each quadrant). -/
def regResetIdx (off : Nat) (fn : Nat) (ix : List Nat) (w : Word) : Word :=
  if fn = 0 then
    if off = Reg.LL_SLOT 0 0 then
      match ix with
      | [_, 0] => 0x11111110#32
      | [_, 8] => 0x00000001#32
      | _ => w
    else if off = Reg.LL_TRAIN_0 0 0 then BitVec.ofNat 32 (trainReset0 (ix.getD 1 0))
    else if off = Reg.LL_TRAIN_1 0 0 then BitVec.ofNat 32 (trainReset1 (ix.getD 1 0))
    else if off = Reg.PWR_VF 0 then
      Fld.PWR_VF_VSET_MV.put (Fld.PWR_VF_MHZ.put 0 (vfTableEntry (ix.getD 0 0)).1) (vfTableEntry (ix.getD 0 0)).2
    else if off = Reg.PRT_MAP 1 then
      if ix = [0] then Fld.PRT_MAP_STKMASK.put (Fld.PRT_MAP_NQUAD.put 0 4) 0xFF else w
    else if off = Reg.DBG_CORE_STAT 0 then
      let c := ix.getD 0 0
      if c % 34 < 32 then Fld.DBG_CORE_STAT_LOGICAL.put 0 (32 * (c / 34) + c % 34)
      else Fld.DBG_CORE_STAT_ROLE.put (Fld.DBG_CORE_STAT_LOGICAL.put 0 0xFF) 1
    else if off = Reg.DBG_QUAD_STAT then Fld.DBG_QUAD_STAT_SPARES_LEFT.put 0 0xAA
    else w
  else
    if off = 0x600010 then
      let b := 4 * ix.getD 0 0
      BitVec.ofNat 32 (b + 256 * (b + 1) + 65536 * (b + 2) + 16777216 * (b + 3))
    else if fn = 1 then
      if off = 0x100000 then Fld.FEN_COUNT_COUNT.put 0 65536
      else if off = 0x20001C then Fld.SEQ_ISRAM_PMAX.put 0 262144
      else if off = 0x600038 then Fld.COL_DYN_STAT_FREE.put (Fld.COL_DYN_STAT_OWN.put 0 16) 16
      else w
    else w

/-- R14: what a register holds on release from the reset that covers its block. -/
def regReset (a : Nat) : Word :=
  match regDesc a with
  | some (r, ix) => regResetIdx r.off (regFn a) ix (fieldsReset r.fields 0)
  | none => 0

end Sys2Proof.Machine
end

