-- ==== Sys2Proof/Machine/State.lean ====
section
/-! DEFINITION. The state of the block as plain data, the reasons a step can stop, and the state after reset. Every
array is a sparse map (`SMap`) from an index to a value; what an unlisted index holds is said beside each. -/

namespace Sys2Proof.Machine

/-- Reasons a step stops with a fault. No command of this block does so: what the spec calls a fault of a partition is
a state of its sequencer (R160), and every command answers a next state. The one constructor is raised by nobody. -/
inductive Fault where
  /-- Raised by no command (safe: it never occurs). -/
  | none
deriving DecidableEq, Repr

/-- Reasons a step refuses a command. -/
inductive Refusal where
  /-- The dispatcher, for a row of the table that has no meaning yet, by the row's name (safe: the run ends). -/
  | notModelled (mnemonic : String)
deriving DecidableEq, Repr

/-! ## Reports to the outside -/

/-- What the device has put onto its host bus, its fabric ports and its management buses. The list in `State.out` is
this model's record of what the outside sees; nothing of the device reads it back. -/
inductive Output where
  /-- A read of `addr` by requester `req` completed with these dwords (R21, R23). -/
  | readDone (req addr : Nat) (data : List Word)
  /-- A request of function `fn` completed with a status: 0 successful, 1 Unsupported Request, 2 Completer Abort, 3 CRS,
  4 NOT_READY of the management interfaces. -/
  | status (fn code : Nat)
  /-- MSI-X vector `vec` of function `fn` (R596). -/
  | msix (fn vec : Nat)
  /-- Bytes written to host memory by function `fn`, with the T bit, as they cross the connector: those of a VF with the T bit set are
  sealed under its IDE stream (R6, R542). -/
  | hostWrite (fn addr : Nat) (t : Bool) (data : List Byte)
  /-- Payload toward host memory with EP set and every byte 0xFF (R540). -/
  | hostPoison (addr len : Nat)
  /-- A read of BAR2 of function `fn` completed with these bytes, sealed under its IDE stream (R6, R544). -/
  | barRead (fn off : Nat) (data : List Byte)
  /-- A frame or block sent on a Leold port, as the wire carries it (R358). -/
  | link (port : Nat) (bytes : List Byte)
  /-- A configuration read of function `fn` completed with this dword (R691). -/
  | configData (fn off : Nat) (data : Word)
  /-- A frame sent on the tray bus (R734). -/
  | tray (bytes : List Byte)
  /-- A message of the keeper (SPDM kind 1, TDISP kind 3) or of the management controller (kind 2): the function or address that gets it,
  kind, code and content. -/
  | message (dst kind code : Nat) (content : List Byte)
  /-- Management firmware requests the removal of main power through the tray bus (R661). -/
  | powerRemoval
deriving DecidableEq, Repr

/-! ## Traces, keys, memory -/

/-- A Sepia entry (R775); `time` in ns. -/
structure SepiaEntry where
  time : Nat
  pid : Nat
  bip : Nat
  code : Nat
  owner : Nat
  arg : Nat
deriving DecidableEq, Repr

/-- A KEYREG slot (R483). `attr` 0 ENC, 1 DEC, 2 WRAP, 3 DERIVE; `state` 0 EMPTY, 1 LOADED, 2 EXHAUSTED, 3 STALE.
`model` records that MORDANT_DERIVE loaded it (R521); `suffix` is the suffix of R500 kept beside a general ENC slot
(R783); `work` is the copy an engine keeps beside it: the root-MAC key of R498. -/
structure KeySlot where
  key : List Byte := []
  shadow : List Byte := []
  attr : Nat := 0
  state : Nat := 0
  owner : Nat := 0
  pep : List Nat := [0, 0, 0, 0]
  epoch : Nat := 0
  ctr : Nat := 0
  soft : Nat := 0
  hard : Nat := 0
  kcv : List Byte := []
  model : Bool := false
  suffix : List Byte := []
  /-- Of a WRAP slot that SESSION_KEK loaded from an authenticated session: SHA-384 of the requester's leaf certificate
  (R578). -/
  cert : List Byte := []
deriving DecidableEq, Repr

/-- Bytes of device memory: 64 GiB of sector data and 8 GiB of side-band per stack, at stack · 2^37 + offset and
stack · 2^37 + 2^36 + 32 · sector. An unlisted byte is 0, as the wipe at reset leaves it (R268, R688). -/
abbrev Memory := SMap Byte

/-- The canonical form of memory. -/
def Memory.wf (m : Memory) : Bool := SMap.wf (fun _ => 0#8) m

/-- A command record waiting or running in the NME of one stack (R285): the partition, the XFER operation it belongs
to, the bytes as fetched, and whether it has started. -/
structure NmeRec where
  part : Nat
  xfer : Nat
  bytes : List Byte
  started : Bool
deriving DecidableEq, Repr

/-- An XFER NME operation whose parts are outstanding on some stacks (R287). -/
structure NmeXfer where
  id : Nat
  part : Nat
  cset : Nat
  stks : List Nat
deriving DecidableEq, Repr

/-- One stack. A row is `(pseudo-channel · 64 + bank) · 32768 + row`. -/
structure Stack where
  /-- Command records in the NME's queue, at most 256, and those whose forwarding waits while it is full (R285). -/
  queue : List NmeRec := []
  backlog : List NmeRec := []
  /-- Sectors that the record running has processed (R295). -/
  sectors : Nat := 0
  /-- R283: corrected sectors of this patrol pass, each with its row; rows under repair, with the time a repair began; and the rows
  recorded in the repair store. -/
  rowErrs : List (Nat × Nat) := []
  repairs : List (Nat × Nat) := []
  repaired : List Nat := []
  /-- R275, R276: tags held by pseudo-channel, and the requesters that wait for one: pseudo-channel, class of R277 (0 to 5), index within
  the class, time it began to wait. -/
  tags : List Nat := []
  waiting : List (Nat × Nat × Nat × Nat) := []
  /-- When the error of `MEM_ERR_LAST` occurred (R306). -/
  errAt : Option Nat := none
deriving DecidableEq, Repr

/-! ## The instruction stream -/

/-- A period in one half of the instruction SRAM (R109): the index of its MARK bundle, its bundles, and whether every
bundle is resident and verified (R111). -/
structure Period where
  idx : Nat := 0
  bundles : List (BitVec 512) := []
  ready : Bool := false
deriving DecidableEq, Repr

/-- A GRP start that has been issued (R130), with its absolute beat and the bundle that started it. -/
structure Start where
  group : Nat
  umask : Nat
  addr : Nat
  lenm1 : Nat
  tripm1 : Nat
  beat : Nat
  pc : Nat
deriving DecidableEq, Repr

/-- A body running in one unit (R131): its micro-ops, the core's rank, the bundle that started it, the trip, the
micro-op (counted from `addr`), the beat within the micro-op, the absolute beat of its next beat of work, and the
bytes that a load or store has gathered so far. -/
structure Run where
  part : Nat
  core : Nat
  addr : Nat
  lenm1 : Nat
  tripm1 : Nat
  rank : Nat
  pc : Nat
  trip : Nat
  upos : Nat
  mb : Nat
  beat : Nat
  buf : List Byte
deriving DecidableEq, Repr

/-- A weight plane (R141): format, class, block size, and the tile's bytes and scale bytes. After reset it holds a
4-bit tile in INT4 whose elements are all 0, with no scales. -/
structure Plane where
  fmt : Fmt := .i4
  cls : Nat := 0
  bs16 : Bool := false
  data : List Byte := []
  scales : List Byte := []
deriving DecidableEq, Repr

/-- Where a result lands (R219, R220): core SRAM bytes, accumulator words, vector registers or a weight plane, each
by its index in the array that holds it. -/
inductive LandDst where
  | sram (key : Nat) (bytes : List Byte)
  | acc (key : Nat) (words : List Word)
  | vreg (key : Nat) (words : List Word)
  | plane (key : Nat) (p : Plane)
deriving DecidableEq, Repr

/-- A result on its way, with the beat it lands at. -/
structure Land where
  beat : Nat
  dst : LandDst
deriving DecidableEq, Repr

/-- A mesh landing on its way (R148, R402, R408): due beat, whether it was deferred, kind (0 a LOOP window, 1 SCOPY or
RBPUT, 2 RBGET), source partition core, destination physical core, byte address in the destination's SRAM, the bytes,
whether it adds by rne32, the LOOP window it belongs to, with its offset there, and the bundle that started the body (R171). -/
structure MeshLand where
  beat : Nat
  deferred : Bool
  kind : Nat
  src : Nat
  dst : Nat
  addr : Nat
  bytes : List Byte
  add : Bool
  win : Option (Nat × Nat)
  pc : Nat
deriving DecidableEq, Repr

inductive XferKind where
  | memrd | memwr | rload
deriving DecidableEq, Repr

/-- One part of an asynchronous transfer (R156): the number of its operation, its kind, completion set, device address, physical core, byte address
in core SRAM or first replay entry, length in bytes, and units (RLOAD). -/
structure Xfer where
  id : Nat
  kind : XferKind
  cset : Nat
  mem : Nat
  core : Nat
  addr : Nat
  len : Nat
  umask : Nat
  pc : Nat
deriving DecidableEq, Repr

/-- An outstanding RGET or RPUT burst (R229), by partition core; `id` orders it among the partition's operations. -/
structure Burst where
  id : Nat
  put : Bool
  cset : Nat
  core : Nat
  ring : Nat
  addr : Nat
  nrec : Nat
  pc : Nat
deriving DecidableEq, Repr

/-- A hold on a peer's lateness (R194): sender's node ID and END, and when it runs out. -/
structure PeerHold where
  node : Nat
  endp : Nat
  expires : Nat
deriving DecidableEq, Repr

/-- A LOOP and a COMMIT recorded for the current period's end (R123, R124). -/
structure LoopRec where
  lvl : Nat
  tripm1 : Nat
  target : Nat
deriving DecidableEq, Repr

structure CommitRec where
  redo : Nat
  lclr : Nat
deriving DecidableEq, Repr

/-- The sequencer of one partition: what its registers do not hold. -/
structure Seq where
  /-- The beat in progress, counted over all runs of the partition's stream. -/
  beat : Nat := 0
  /-- `NBUNDLE` of the image (R108). -/
  nbundle : Nat := 0
  /-- The period issuing and the one being filled (R109); where a redo or another successor is to be filled. -/
  cur : Period := {}
  nxt : Period := {}
  /-- Position in the period of the bundle that issued last, and the beat at which the next bundle is due. -/
  pos : Nat := 0
  issue : Nat := 0
  /-- First beat of the current period, and gate-wait beats of the gate that opened or waits. -/
  start : Nat := 0
  waited : Nat := 0
  /-- The beat in progress is a gate-wait beat (R185), which `SEQ_BEATS` leaves out (R170). -/
  waitBeat : Bool := false
  /-- Operations of the bundle that issued last which have not been performed. -/
  ctlDue : Bool := false
  grp0Due : Bool := false
  grp1Due : Bool := false
  xferDue : Bool := false
  loopRec : Option LoopRec := none
  commitRec : Option CommitRec := none
  /-- The commit decision a period end waits for (R125): a COMMIT has issued and the period has ended. -/
  afterCommit : Bool := false
  starts : List Start := []
  lands : List Land := []
  mesh : List MeshLand := []
  /-- Compute-port accesses of the current beat (R210): bank, unit. -/
  ports : List (Nat × Nat) := []
  xfers : List Xfer := []
  bursts : List Burst := []
  /-- The limiter request (R121): 0 none, 1 ENGINE_FIRST, 2 NEAR_FIRST. -/
  limreq : Nat := 0
  /-- A STOP waits for the period's end (R163). -/
  stopPend : Bool := false
  /-- The breakpoint of the waiting gate has been released (R165). -/
  resumed : Bool := false
  /-- An END bundle has issued: its fence where `FV` was 1 (R126). -/
  ended : Option (Option Nat) := none
  /-- Lateness announcements (R192): the LOST (true) and CLEAR (false) that await a sample, oldest first; the episode in progress
  is one that is announced; when the last LOST went out. -/
  annQ : List Bool := []
  announced : Bool := false
  annTime : Nat := 0
  /-- The job tag in force: `SEQ_ANN_TAG.TAG` as the last tray-bus frame sample found it (R205). -/
  tag : Nat := 0
  holds : List PeerHold := []
  /-- Conditions seen false at the last closed boundary of the waiting gate, for `SEQ_GATE_STAT.LAST`. -/
  lastFalse : Nat := 0
  /-- What a restore has armed for the next RUN (R472, R473): the bundle index and the loop counters. -/
  rpc : Nat := 0
  loops : List Nat := []
  /-- Beats released under a single-step hold and not yet used (R47, R789). -/
  credit : Nat := 0
  /-- The beat in which the fault that stopped the stream was detected: faults of that beat compete (R161). -/
  faultBeat : Option Nat := none
  /-- What transfer-port writes of the beat in progress have replaced, oldest first: index in the core SRAM array and bytes; and
  the 32-byte words that the compute port has written in it (R158). -/
  before : List (Nat × List Byte) := []
  cwords : List Nat := []
  /-- The engine's event that `FMT_NF_TENSOR` shows: its beat and its place in it (R100). -/
  nfFirst : Option (Nat × Nat) := none
deriving DecidableEq, Repr

/-- The arrays of the 136 physical cores (R208, R140, R144, R236). Indices: SRAM `core · 2^23 + byte`; accumulators
`((core · 8 + engine) · 256 + row) · 128 + output`; planes `(core · 8 + engine) · 2 + (0 active, 1 shadow)`; vector
registers `(core · 64 + register) · 512 + lane`; scale pointers `core · 2 + (0 load, 1 store)`; replay stores
`(core · 16 + unit) · 2048 + entry`; bodies `core · 16 + unit`; fills `core · 8 + engine`. Unlisted entries are 0, a
plane as after reset, no body and no fill. -/
structure Cores where
  sram : SMap Byte := []
  acc : SMap Word := []
  /-- Outputs of the class of the MMA that wrote each accumulator row (R142, R218): `(core · 8 + engine) · 256 + row`. -/
  accCls : SMap Nat := []
  planes : SMap Plane := []
  vreg : SMap Word := []
  /-- Their value at reset is not stated: 0 (DESIGN CHOICE, log 44). -/
  sptr : SMap Nat := []
  replay : SMap (BitVec 64) := []
  runs : SMap (Option Run) := []
  /-- First beat of the last WLOAD fill, and the bank it reads (R141, R210). -/
  fills : SMap (Option (Nat × Nat)) := []
  /-- The spares of each macro (R234, R235): `((core · 16 + bank) · 16 + macro) · 4 + spare`, as column + 1024 · state
  (0 FREE, 1 TEST, 2 PERM). -/
  spares : SMap Nat := []
  /-- Correctable errors in one column of one macro this scrub pass (R239): `(core · 256 + macro) · 1024 + column`. -/
  colErrs : SMap Nat := []
  /-- The scrub pass that `colErrs` belongs to. -/
  scrubPass : Nat := 0
  /-- 64-bit words that the scrubber has found uncorrectable, until they are written (R237): `core · 2^20 + word`. -/
  ueWords : SMap Bool := []
  /-- The error that `DBG_SRAM_LAST` shows, where one beat's reads met it: partition, beat, and 16 · core + bank (R252). -/
  lastErr : Option (Nat × Nat × Nat) := none
  /-- Column tests running (core, bank, macro, column, spare) and deferred (R240). -/
  tests : List (Nat × Nat × Nat × Nat × Nat) := []
  deferred : List (Nat × Nat × Nat × Nat) := []
deriving DecidableEq, Repr

/-! ## The update unit, the host queues, platform events -/

/-- One stack's part of an update stream: device stack, rank among the set bits of `STKMASK`, and once performed its
code of R318 and the elements processed. -/
structure UpdPart where
  stack : Nat
  rank : Nat
  code : Nat
  elems : Nat
deriving DecidableEq, Repr

/-- An update stream that has been issued (R315): its number, completion set, descriptor kind, the descriptor's bytes,
whether a TENSOR has been performed, and its parts that have not completed. -/
structure UpdStream where
  id : Nat
  cset : Nat
  kind : Nat
  desc : List Byte
  ran : Bool
  parts : List UpdPart
deriving DecidableEq, Repr

/-- A norm record that NORM_IN has read (R324). -/
structure NormIn where
  g : Nat
  nf : Bool
  taint : Bool
deriving DecidableEq, Repr

/-- The update control of one partition, beside its registers. -/
structure Upd where
  /-- The step's non-finite flag (R93) and integrity-alarm flag (R271). -/
  nf : Bool := false
  taint : Bool := false
  /-- The alarm flag of the step that follows a pending decision (R271). -/
  taintNext : Bool := false
  streams : List UpdStream := []
  /-- Descriptors that add to the step norm, in issue order, with their `tsq` once formed (R322). -/
  norms : List (Nat × Option Nat) := []
  /-- By optimizer entry, the scalars lr, ob1, ob2, p1, p2, bc1, bc2 and inv (R328) of the step. -/
  scal : List (List Nat) := []
  normIn : Option NormIn := none
  /-- R325: a NORM_IN carried another step number. R327: NORM_OUT has taken effect; an event has come after it. -/
  mismatch : Bool := false
  outDone : Bool := false
  afterOut : Bool := false
  /-- The copy of the partition's format tables that the NME received at RUN (R290). -/
  tables : List FmtTable := []
  /-- Operations issued before the pending COMMIT have smaller numbers (R335). -/
  commitId : Nat := 0
  /-- When the records of `MEM_ALARM_CAUSE`, `TKEY_ALARM` and `UPD_ERR` were made (R300, R345). -/
  alarmAt : Nat := 0
  tkeyAt : Nat := 0
  errAt : Nat := 0
  /-- When the record of `TKEY_PROT_ERR` was made (R554); of partition 0, that of `DBG_PROT_LAST` (R557). -/
  refAt : Option Nat := none
deriving DecidableEq, Repr

/-- A command buffer in flight (R600 to R607): the index of its queue entry, the fence to signal, the bytes fetched,
whether it has been granted, how far its packets have begun, and what of them has not completed: a WAIT by its fence, DMA
packets, a SEQ_RUN, a CC_LAUNCH; and the error that ends it. -/
structure CmdBuf where
  seq : Nat := 0
  fence : Option Nat := none
  bytes : List Byte := []
  granted : Bool := false
  pos : Nat := 0
  waitOn : Option Nat := none
  dmaOpen : Nat := 0
  seqOpen : Bool := false
  ccOpen : Bool := false
  err : Nat := 0
deriving DecidableEq, Repr

/-- One host queue: its command buffers in flight, oldest first, and the indices of entries cancelled before their fetch
(R619). -/
structure Queue where
  bufs : List CmdBuf := []
  gone : List Nat := []
deriving DecidableEq, Repr

/-- The command arbiter of a partition (R618): the context granted last, its grants in a row, and the queue granted last
in each context. -/
structure Arb where
  ctx : Nat := 63
  used : Nat := 0
  last : List (Nat × Nat) := []
deriving DecidableEq, Repr

/-- How a DMA descriptor has gone (R612): status code, bytes moved, IV and tag. -/
structure DmaEnd where
  code : Nat
  moved : Nat
  iv : List Byte
  tag : List Byte
deriving DecidableEq, Repr

/-- A descriptor in a DMA engine (R608, R614): owner (0 PF0), queue, the index of its queue entry, where its completion
record goes, its bytes, and its outcome once it has moved. -/
structure Desc where
  owner : Nat
  queue : Nat
  buf : Nat
  crec : Nat
  bytes : List Byte
  fin : Option DmaEnd
deriving DecidableEq, Repr

/-- A platform event (R755): its number, kind and argument, and whether the receiver has acknowledged it. -/
structure PlatEvent where
  id : Nat
  kind : Nat
  arg : Nat
deriving DecidableEq, Repr

/-! ## Links, collectives, Lake -/

/-- A frame that waits to be sealed (R374): its partition (0 for SPDM), `TYPE`, `WTAG`, `WOFF` and plaintext. -/
structure TxFrame where
  part : Nat
  typ : Nat
  wtag : Nat
  woff : Nat
  payload : List Byte
deriving DecidableEq, Repr

/-- A frame that a port has accepted and that has not been taken: `TYPE`, local and sending partition, `WTAG`, `WOFF`
and plaintext. -/
structure RxFrame where
  typ : Nat
  part : Nat
  peer : Nat
  wtag : Nat
  woff : Nat
  payload : List Byte
deriving DecidableEq, Repr

/-- A frame in a replay buffer (R362): `SEQ`, the owner of its entry, `TYPE`, the bytes from the frame header to the tag
as first sealed, and how often it has been replayed. -/
structure Sealed where
  seq : Nat
  owner : Nat
  typ : Nat
  body : List Byte
  replays : Nat
deriving DecidableEq, Repr

/-- One Leold port, beside its registers. -/
structure Port where
  /-- The training entry in force (R398), its attempts that have failed, when the attempt began, and whether the port
  has come up in its ACTIVE state. -/
  act0 : Word := 0x110
  act1 : Word := 0
  tries : Nat := 0
  began : Nat := 0
  up : Bool := false
  /-- Receive lanes that hold lock (R367). -/
  lanes : Nat := 0
  /-- Frames to send, in submission order. -/
  queue : List TxFrame := []
  /-- Sealed frames that the peer has not acknowledged; the ones of them that a replay has still to resend; a NAK has come
  in and its replay has not begun. -/
  replay : List Sealed := []
  resend : List Nat := []
  nakIn : Bool := false
  /-- `SEQ` of the last frame sent and of the last one received in order. -/
  txSeq : Nat := 0
  rxSeq : Nat := 0
  /-- A NAK leaves in the next block; a gap is open, with the last `SEQ` seen in it; the `SEQ` whose tag failed once. -/
  nakDue : Bool := false
  gap : Bool := false
  gapSeq : Nat := 0
  badTag : Option Nat := none
  /-- Credits held for the peer's partitions 1 to 4, and credits to return for this device's (R364). -/
  ctl : List Nat := [4, 4, 4, 4]
  bulk : List Nat := [4, 4, 4, 4]
  ctlRet : List Nat := [0, 0, 0, 0]
  bulkRet : List Nat := [0, 0, 0, 0]
  inbox : List RxFrame := []
  /-- CTL frames that keep their receive place until a launch takes them (R427). -/
  held : List RxFrame := []
  /-- The SPDM message that the keeper took last, the chunks so far of one that is coming in, and the session (R380): 0 none, 1 with this
  keeper as requester, 2 as responder. -/
  spdm : List Byte := []
  chunks : List Byte := []
  session : Nat := 0
  /-- The least `FCTR` to accept under the current receive key, and the retained key with its epoch and the same for it. -/
  rxNext : Nat := 0
  oldKey : Option (List Byte × Nat × Nat) := none
  /-- The 32-bit epoch of the bound peer partition, for local partitions 1 to 4. -/
  peerEp : List Nat := [0, 0, 0, 0]
  /-- Last swap of each direction, and rekeys that are due (R385): transmit, receive. -/
  txSwap : Nat := 0
  rxSwap : Nat := 0
  txDue : Bool := false
  rxDue : Bool := false
deriving DecidableEq, Repr

/-- A window to send (R375) or to receive (R376): a number, the physical port (16: LOOP), logical port, completion set, `WIN`,
length in bytes, and the first byte's physical core and address there. -/
structure Win where
  id : Nat
  port : Nat
  lport : Nat
  cset : Nat
  win : Nat
  len : Nat
  core : Nat
  addr : Nat
deriving DecidableEq, Repr

/-- A window to send: the absolute beat at which it may start, the number of the armed LOOP window that it meets (R402), bytes sealed,
and the `SEQ` of its last frame. -/
structure TxWin where
  w : Win
  due : Nat
  met : Option Nat
  sent : Nat
  last : Option Nat
deriving DecidableEq, Repr

/-- A window to receive: whether it is armed or held (R378), the runs of bytes that have landed, and for a LOOP window
whose copy has started the sending side's completion set. -/
structure RxWin where
  w : Win
  armed : Bool
  got : List (Nat × Nat)
  peer : Option Nat
deriving DecidableEq, Repr

/-- An ARM frame that has arrived (R375): physical port, `WIN`, length, and the partition's beat and the time at its arrival. -/
structure Arm where
  port : Nat
  win : Nat
  len : Nat
  beat : Nat
  time : Nat
deriving DecidableEq, Repr

/-- The windows of one partition: to send and not started; started, in the order in which they go out; to receive, in
issue order; ARM frames that have arrived. -/
structure Wins where
  tx : List TxWin := []
  sending : List TxWin := []
  rx : List RxWin := []
  arms : List Arm := []
deriving DecidableEq, Repr

/-- A control collective (R425): the command buffer that launched it, its descriptor, its launch number, whether it holds
a dynamic buffer, its step of R425, when the step began, the buffer's content, the stage and the phase in it, and frames that a
LOOP port brought back, by stage, phase and logical port. -/
structure Launch where
  queue : Nat
  buf : Nat
  desc : List Byte
  launch : Nat
  granted : Bool
  step : Nat
  began : Nat
  data : List Byte
  stage : Nat
  phase : Nat
  back : List (Nat × Nat × Nat × List Byte)
deriving DecidableEq, Repr

/-- A run of a slot's sectors being sent as drain frames (R457, R471): whether it serves a PULL, the slot, port, next
sector index, whether END has gone out, when sending began and bytes since. -/
structure Drain where
  serve : Bool
  slot : Nat
  port : Nat
  next : Nat
  ended : Bool
  began : Nat
  bytes : Nat
deriving DecidableEq, Repr

/-- A restore past its checks (R472): slot, whether it copies, and `RPC`, `LOOPS` and `EPOCH` of the manifest. -/
structure Restore where
  slot : Nat
  copy : Bool
  rpc : Nat
  loops : List Nat
  epoch : Nat
deriving DecidableEq, Repr

/-- The checkpoint unit of one partition, beside its registers. -/
structure Lake where
  /-- The slot that a snapshot is writing (R454), and what its manifest records of the decision (R450). -/
  snap : Option Nat := none
  rpc : Nat := 0
  loops : List Nat := []
  step : Nat := 0
  epoch : Nat := 0
  /-- When the last snapshot began or RUN came; the timer has armed (R452). -/
  timer : Nat := 0
  armed : Bool := false
  drain : Option Drain := none
  serve : Option Drain := none
  /-- A MISMATCH has been answered once (R461). -/
  again : Bool := false
  /-- A drain that a port's loss has ended waits for `CKP_DRAIN_CFG` (R463). -/
  broken : Bool := false
  /-- Of each buddy slot: port, the sender's slot, the sectors received and not yet placed (index, ciphertext, MAC; R459 gives the
  *Q* that places them only in END), and `Q` and root announced by END. -/
  bport : List Nat := [0, 0]
  bfrom : List Nat := [0, 0]
  bheld : List (List (Nat × List Byte × List Byte)) := [[], []]
  bq : List Nat := [0, 0]
  broot : List (List Byte) := [[], []]
  /-- Of each Lake slot: the tree root computed, and the leaves of sectors that have come in since its fetch began. -/
  root : List (List Byte) := [[], []]
  leaves : List (List (List Byte)) := [[], []]
  /-- Drain frames delivered and not taken: port, frame. -/
  inbox : List (Nat × RxFrame) := []
  /-- A PULL in progress (R471): port, slot. -/
  pull : Option (Nat × Nat) := none
  restore : Option Restore := none
  /-- Work of an abort has not drained (R467). -/
  aborting : Bool := false
  /-- Next sector index of an import (R611), by Lake slot. -/
  imported : List Nat := [0, 0]
deriving DecidableEq, Repr

/-! ## The keeper -/

/-- What LAKE_BIND recorded for a partition (R519): the model-key slot, rank and job identity. -/
structure LakeBind where
  part : Nat
  slot : Nat
  rank : Nat
  job : List Byte
deriving DecidableEq, Repr

/-- A share in keeper RAM (R520): job identity, index, the job's count, contributor, and the share. -/
structure Share where
  job : List Byte
  index : Nat
  count : Nat
  part : Nat
  bytes : List Byte
deriving DecidableEq, Repr

/-- What the keeper reports of a partition's Mordant exchange (R582): job identity, count, whether the model key has been
derived, its KCV, and the certificate digests by share index. -/
structure Mordant where
  part : Nat
  job : List Byte
  count : Nat
  derived : Bool
  kcv : List Byte
  certs : List (Nat × List Byte)
deriving DecidableEq, Repr

/-- A live secured SPDM session (R577): partition (0: PF0, management), ID, export master secret, and SHA-384 of the
requester's leaf certificate where the requester was authenticated (R578). -/
structure Session where
  part : Nat
  id : Nat
  secret : List Byte
  cert : List Byte
deriving DecidableEq, Repr

/-- A mailbox command that has been accepted and not served (R517): mailbox, code, tag and argument bytes. -/
structure MailCmd where
  box : Nat
  code : Nat
  tag : Nat
  args : List Byte
deriving DecidableEq, Repr

/-- The keeper, beside its registers and slots. Mailboxes: 0 management, 1 `KEY` of PF0, 2 to 5 `TKEY` of VF1 to VF4. -/
structure Keeper where
  waiting : List MailCmd := []
  /-- The mailbox served last (R518). -/
  last : Nat := 5
  /-- The key-generation counter of R500, in battery-backed RAM. -/
  gen : Nat := 0
  shares : List Share := []
  mordant : List Mordant := []
  sessions : List Session := []
  binds : List LakeBind := []
  /-- Requests made of the random bit generator, in all (a model's own count) and since its last seeding (R516). -/
  draws : Nat := 0
  sinceSeed : Nat := 0
deriving DecidableEq, Repr

/-! ## Tenancy and metering -/

/-- A partition's admission and removal (R564 to R571): when the trigger of its removal came, and the start-interface nonce
of its last LOCK_INTERFACE_RESPONSE. -/
structure Tenancy where
  rmAt : Nat := 0
  nonce : List Byte := []
deriving DecidableEq, Repr

/-- Metering (R756 to R762), beside its registers. The RTC and `MTR_MONO` are what these offsets, in ms, and `now` give. -/
structure Meter where
  rtcOfs : Int := 0
  monoOfs : Nat := 0
  /-- The open period: RTC and `MTR_MONO` at its opening, `FLAGS`, `SETCNT`, and the last ms counted in `MEM`. -/
  rtcOpen : Nat := 0
  monoOpen : Nat := 0
  flags : Nat := 0
  setCnt : Nat := 0
  memTick : Nat := 0
  /-- Bytes 0 to 191 of closed records that await sealing, oldest first; the last eight sealed records, newest first; SHA-384 of
  the last. -/
  closed : List (List Byte) := []
  /-- When the newest of them closed (R757). -/
  closeAt : Option Nat := none
  records : List (List Byte) := []
  prev : List Byte := []
  /-- The sag snapshot (R760): the bytes 0 to 191 that a close at the snapshot's time gives, with the reason SAG_RESET. -/
  snap : Option (List Byte) := none
deriving DecidableEq, Repr

/-! ## The tray bus -/

/-- A lateness announcement that has come in (R193, R194): sender, job tag, LOST, `LATE_K`, tray slot (0xF: relayed), and when. -/
structure Ann where
  node : Nat
  endp : Nat
  tag : Nat
  lost : Bool
  lateK : Nat
  slot : Nat
  time : Nat
deriving DecidableEq, Repr

/-- The tray-bus interface, beside its registers (R731 to R751). -/
structure Tray where
  /-- When the latest valid sync frame came, and how many in a row while muted (R742). -/
  sync : Option Nat := none
  align : Nat := 0
  /-- `HBSEQ` of the latest heartbeat request, and when firmware last showed its liveness. -/
  hbSeq : Nat := 0
  /-- When that request came, and the `HBSEQ` before it. -/
  hbAt : Option Nat := none
  hbOld : Nat := 0
  kick : Option Nat := none
  /-- Announcements for the next own frame: partition, `STATE`, `TAG`, `LATE_K`. -/
  anns : List (Nat × Nat × Nat × Nat) := []
  /-- Drift reports to send: slot, VIOL, offset in 5 ns, time of the measurement; and reports about the previous own frame:
  reporting slot, VIOL, `DOFFSET`. -/
  reports : List (Nat × Bool × Int × Nat) := []
  heard : List (Nat × Bool × Int) := []
  /-- The shift of the transmit start in ns, and when the last own frame went out. -/
  shift : Int := 0
  lastTx : Option Nat := none
  /-- R742: 0 not muted, 1 re-aligning, 2 the RESYNC frame is due, 3 it has gone out. Own frames duplicated in a row. -/
  mute : Nat := 0
  dups : Nat := 0
  inAnn : List Ann := []
  /-- A time probe in progress (R751): port, t1, when it began. -/
  probe : Option (Nat × Nat × Nat) := none
deriving DecidableEq, Repr

/-! ## Supplies, reset and fuses -/

/-- The triggers of a reset that arrived in one ACLK cycle (R681): when; the widest type; the lowest cause; `RESTARTED`; a watchdog among
them; the debug level and `LCS_LAST` they carry; and, as they stood before the first, `GLB_RST_COUNT`, the deferred column tests and the
cores to retire. -/
structure ResetTrig where
  time : Nat
  cold : Bool
  maint : Bool
  cause : Nat
  again : Bool
  wdt : Bool
  level : Nat
  last : Nat
  count : Nat
  deferred : List (Nat × Nat × Nat × Nat)
  retire : List Nat
deriving DecidableEq, Repr

/-- The supplies and the limiter, beside the PWR registers (R639 to R663), and what holds the block in reset (R679). -/
structure Power where
  /-- Input samples in mW, newest first, at most 100; whether the feeds have been sampled since main power came. -/
  samples : List Nat := []
  sampled : Bool := false
  /-- Sum (mW) and number of the raw estimates of the open calibration window, and whether the window holds a sag, a feed transfer
  or a reset release (R653). -/
  estSum : Nat := 0
  estN : Nat := 0
  winBad : Bool := false
  /-- The thermal term is active (R660). -/
  thermal : Bool := false
  /-- Since when *h* has stood at 8 or more, and at 0 with room (R657); the reason charged at the last step down. -/
  hiSince : Option Nat := none
  loSince : Option Nat := none
  stepWhy : Nat := 7
  /-- The latest estimate delays NME commands (R61). -/
  nmeDelay : Bool := false
  /-- R661: a thermal trip forbids a restart until *T*j has fallen below 90 °C. -/
  hot : Bool := false
  /-- Main power below 40 V or absent; the regulators have been started (R800); `PERST_N` is asserted. -/
  off : Bool := false
  rails : Bool := false
  perst : Bool := false
  /-- `SLOT_ID[3:0]` as the tray straps it (R805): what the next release samples. -/
  slotId : Nat := 0
  /-- When the latest reset sequence was released (R685), none while a reset is held; a maintenance reset. -/
  relAt : Option Nat := some 0
  maint : Bool := false
  /-- A cold reset holds the always-on domain; when that domain was last released (R10, R680). -/
  aonHeld : Bool := false
  aonAt : Nat := 0
  /-- R244: the physical cores whose engine self-test failed at the reset in progress, from WIPE_DONE until READY. -/
  selfFail : List Nat := []
  /-- When `PWR_LIM_CTRL` was last written (R662). -/
  modeAt : Option Nat := none
  /-- The latest reset trigger (R681). -/
  rst : Option ResetTrig := none
deriving DecidableEq, Repr

/-- A life-cycle operation in progress (R713): `OP`, `FROM` and `TO` of `LCS_LAST`, the debug level that the reset carries, the root
step (0 none, 1 erase, 2 generation), and the codeword bits to program, in order. -/
structure FuseOp where
  kind : Nat
  src : Nat
  dst : Nat
  level : Nat
  root : Nat
  bits : List Nat
deriving DecidableEq, Repr

/-- The fuses (R708, R723) and the unique-secret array (0 blank, 1 programmed, 2 neither, 3 every bit set: R718); the operation in
progress; when the valid challenge was issued, and when a response last failed its signatures (R724, R725). -/
structure Fuses where
  code : Nat := 0x0FF00FF0
  tokens : Nat := 0
  unique : Nat := 1
  op : Option FuseOp := none
  chalAt : Option Nat := none
  sigAt : Option Nat := none
deriving DecidableEq, Repr

/-! ## The whole block -/

structure State where
  /-- ACLK cycles (10 ns) since the always-on domain left reset (R10). -/
  now : Nat := 0
  /-- Every register of R26 and R27, by address; an unlisted one holds its reset value (R14). -/
  regs : SMap Word := []
  /-- Shadows of R21: `16 · address + requester` of a `_LO` register. -/
  shadows : SMap (Option Word) := []
  out : List Output := []
  seqs : SMap Seq := []
  cores : Cores := {}
  dram : Memory := []
  /-- The poison list (R273): `stack · 2^28 + sector`. -/
  poison : SMap Bool := []
  stks : SMap Stack := []
  nmeXfers : List NmeXfer := []
  /-- A counter that numbers XFER NME operations, streams and the like; a model's own field. -/
  serial : Nat := 0
  keys : SMap KeySlot := []
  keeper : Keeper := {}
  /-- Sepia rings (R774), newest entry first, by unit ID; exact counts of the tenant counters (R771), by
  `16 · partition + counter`; the open period's meters (R756), by `4 · partition + (0 BEATS, 1 MEM, 2 TX, 3 RX)`. -/
  sepia : SMap (List SepiaEntry) := []
  counts : SMap Nat := []
  meters : SMap Nat := []
  mtr : Meter := {}
  tenancies : SMap Tenancy := []
  /-- A sag has stopped the meters (R760). -/
  meterHold : Bool := false
  upds : SMap Upd := []
  /-- R338: how far the index that a ring's stream engine advances has gone past the held one that its register shows,
  by `2048 · partition + ring index`. -/
  ringAdv : SMap Nat := []
  /-- The Leold ports; the windows and the checkpoint unit of each partition. -/
  ports : SMap Port := []
  wins : SMap Wins := []
  lakes : SMap Lake := []
  /-- Control collectives in progress, by `8 · partition + channel`, and how many launches of a `CCID` a run has made, by
  `65536 · partition + CCID` (R427). -/
  ccs : SMap (Option Launch) := []
  launches : SMap Nat := []
  /-- The host queues, by `64 · partition + queue`; partition 0 is PF0. -/
  queues : SMap Queue := []
  arbs : SMap Arb := []
  /-- Descriptors of each DMA engine, in issue order. -/
  dmas : SMap (List Desc) := []
  /-- Platform events held and not acknowledged, oldest first (R755), and the receiver's address. -/
  events : List PlatEvent := []
  eventRcv : Option Nat := none
  /-- THERMTRIP keeps MOD_ALERT_N asserted (R661). -/
  thermAlert : Bool := false
  /-- Global time: what tray time had over `10 · now`, in ns, at the time `trayAt`, what the reference has (R749), and the offset in
  force, with whether it was ever written (R750, R781). -/
  trayOfs : Int := 0
  trayRef : Int := 0
  trayAt : Nat := 0
  timeOfs : Nat := 0
  ofsSet : Bool := false
  /-- Logical cores bound otherwise than the shipped map (R32, R33, R245). -/
  coreMap : SMap Nat := []
  /-- Sources that assert the halt path (R746), with their times, until the halt arrives as its own command. -/
  haltReq : List (Nat × Nat) := []
  /-- The data plane is stopped by a halt (R49); the writes issued before it have drained (R748). -/
  halted : Bool := false
  haltDone : Bool := false
  tray : Tray := {}
  power : Power := {}
  fuses : Fuses := {}
  /-- The dynamic address on the I3C bus (R753). -/
  dynAddr : Option Nat := none
  /-- Global time at which the device freeze (0) and the partition freezes came into force (R781). -/
  freezeAt : SMap Nat := []
  /-- Dumps in progress (R784): bit 0 the operator's, bit *n* the one of partition *n*. -/
  dumps : Nat := 0
  /-- PCIe function state: Memory Space Enable of PF0, the number of VFs enabled with their memory space (0 while VF
  Enable is clear), and the removals that a Function Level Reset waits for (R684): bit *p* one of PF0, bit 8 + *p* one of VF*p*. -/
  mse : Bool := false
  vfs : Nat := 0
  crs : Nat := 0
  /-- Flash copies that updates have written, at 2 · type + copy (none: as shipped), and by type, at bit type − 1: which copy is
  active, and whether the other one is marked pending (R695, R700). -/
  flash : SMap (Option (List Byte)) := []
  flashActive : Nat := 0
  flashPending : Nat := 0
  /-- The commands that wait, first in first out. -/
  pending : List Instr := []
deriving DecidableEq, Repr

/-- The block right after a cold reset, before any command: every register at its reset value, every array empty. -/
def State.reset : State := {}

end Sys2Proof.Machine
end

