-- ==== Sys2Proof/Machine/Ops.lean ====
section
/-! DEFINITION. The named operations over registers, interrupts, fences, traces and counters that the meanings share. -/

namespace Sys2Proof.Machine

/-! ## Registers -/

/-- The word a register holds. -/
def State.rd (s : State) (a : Nat) : Word := SMap.get regReset s.regs a

/-- The block with one register's word replaced. -/
def State.wr (s : State) (a : Nat) (w : Word) : State := { s with regs := SMap.set regReset s.regs a w }

/-- A register's word as a number, and its replacement. -/
def State.rn (s : State) (a : Nat) : Nat := (s.rd a).toNat
def State.wn (s : State) (a : Nat) (v : Nat) : State := s.wr a (BitVec.ofNat 32 v)

/-- One field of a register. -/
def State.fget (s : State) (a : Nat) (f : Fld) : Nat := f.get (s.rd a)
def State.fput (s : State) (a : Nat) (f : Fld) (v : Nat) : State := s.wr a (f.put (s.rd a) v)

/-- Whether a one-bit field holds 1. -/
def State.flag (s : State) (a : Nat) (f : Fld) : Bool := s.fget a f == 1

/-- A 64-bit pair: the low half at `a`, the high half at `a + 4`. -/
def State.rd64 (s : State) (a : Nat) : Nat := s.rn a + 4294967296 * s.rn (a + 4)
def State.wr64 (s : State) (a : Nat) (v : Nat) : State := (s.wn a v).wn (a + 4) (v / 4294967296)

/-- A counter that holds at its largest value instead of wrapping. -/
def State.bump (s : State) (a : Nat) (f : Fld) (d : Nat) : State := s.fput a f (satAdd f.width (s.fget a f) d)

/-- A 64-bit counter in a pair of registers. -/
def State.bump64 (s : State) (a : Nat) (d : Nat) : State := s.wr64 a (satAdd 64 (s.rd64 a) d)

/-- Every register of a window [lo, hi) back to its reset value (R14). -/
def State.resetRegs (s : State) (lo hi : Nat) : State := { s with regs := SMap.clear s.regs lo hi }

/-- Set bits of a register, keeping the others. -/
def State.setBits (s : State) (a bits : Nat) : State := s.wr a (s.rd a ||| BitVec.ofNat 32 bits)

/-! ## Reports and interrupts -/

def State.emit (s : State) (o : Output) : State := { s with out := o :: s.out }

/-- R542, R637: the IDE stream bound to a VF; 4 where none is. -/
def State.ideStream (s : State) (p : Nat) : Nat :=
  ((List.range 4).find? fun i => s.flag (Reg.HST_IDE i) Fld.HST_IDE_SECURE && s.fget (Reg.HST_IDE i) Fld.HST_IDE_VF == p).getD 4

/-- R6, R542: data leave for the host on a VF's IDE stream. -/
def State.onIde (s : State) (p : Nat) (v : List Byte) (f : List Byte → Output) : State :=
  ({ s with serial := s.serial + 1 } : State).emit (f (Config.ideSealed (s.ideStream p) s.serial v))

/-- R542, R543: a write of a function to host memory: one of a VF with the T bit set goes on its IDE stream; PF0 uses none. -/
def State.toHost (s : State) (fn addr : Nat) (t : Bool) (v : List Byte) : State :=
  if t && fn != 0 then s.onIde fn v (.hostWrite fn addr true) else s.emit (.hostWrite fn addr t v)

/-- R596: set status bits, and send the vector of the function when one of them is enabled. -/
def State.irq (s : State) (fn vec sta en bits : Nat) : State :=
  let s' := s.setBits sta bits
  if bits &&& s'.rn en = 0 then s' else s'.emit (.msix fn vec)

/-- A bit of a one-bit field, as a number to set. -/
def Fld.mask (f : Fld) : Nat := 2 ^ f.lo

def State.irqSeq (s : State) (p : Nat) (f : Fld) : State :=
  s.irq p 2 (Reg.SEQ_INT_STATUS p) (Reg.SEQ_INT_EN p) f.mask
def State.irqUpd (s : State) (p : Nat) (f : Fld) : State :=
  s.irq p 3 (Reg.UPD_INT_STATUS p) (Reg.UPD_INT_EN p) f.mask
def State.irqProt (s : State) (p : Nat) (f : Fld) : State :=
  s.irq p 6 (Reg.TKEY_PROT_INT_STATUS p) (Reg.TKEY_PROT_INT_EN p) f.mask
def State.irqMem (s : State) (bits : Nat) : State := s.irq 0 7 Reg.MEM_INT_STATUS Reg.MEM_INT_EN bits
def State.irqPwr (s : State) (f : Fld) : State := s.irq 0 1 Reg.PWR_INT_STATUS Reg.PWR_INT_EN f.mask
def State.irqMgt (s : State) (f : Fld) : State := s.irq 0 2 Reg.MGT_INT_STATUS Reg.MGT_INT_EN f.mask
def State.irqGlb (s : State) (f : Fld) : State := s.irq 0 0 Reg.GLB_INT_STATUS Reg.GLB_INT_EN f.mask
def State.irqDbg (s : State) (f : Fld) : State := s.irq 0 9 Reg.DBG_INT_STATUS Reg.DBG_INT_EN f.mask
def State.irqQue (s : State) (p : Nat) (f : Fld) : State := s.irq p 0 (Reg.QUE_INT_STATUS p) (Reg.QUE_INT_EN p) f.mask
def State.irqCol (s : State) (p : Nat) (f : Fld) : State :=
  s.irq p 4 (Reg.COL_INT_STATUS p) (Reg.COL_INT_EN p) f.mask
def State.irqCkp (s : State) (p : Nat) (f : Fld) : State :=
  s.irq p 5 (Reg.CKP_INT_STATUS p) (Reg.CKP_INT_EN p) f.mask
def State.irqFen (s : State) (p : Nat) (f : Fld) : State :=
  s.irq p 1 (Reg.FEN_INT_STATUS p) (Reg.FEN_INT_EN p) f.mask

/-- The base of a mailbox's registers (R517): 0 the management interfaces' own, kept at `vf 5` in the layout of PF0's;
1 `KEY` of PF0; 2 to 5 `TKEY`. -/
def mailBase (b : Nat) : Nat := if b = 0 then vf 5 + 0x400000 else if b = 1 then 0x400000 else vf (b - 1) + 0x800000

/-- R525: set alert bits of a mailbox's owner (0 PF0's and the management interfaces' `KEY` block); the alert raises
the keeper's interrupt when `INT_EN.ALERT` is 1. -/
def State.keyAlert (s : State) (p bits : Nat) : State :=
  let (al, en, vec) := if p = 0 then (Reg.KEY_ALERT, Reg.KEY_INT_EN, 4) else (Reg.TKEY_ALERT p, Reg.TKEY_INT_EN p, 6)
  let s' := (if p = 0 then s.setBits (mailBase 0 + 0x10) bits else s).setBits al bits
  if s'.flag en Fld.KEY_INT_EN_ALERT then s'.emit (.msix p vec) else s'

/-- R755: hold a platform event (of kind 1 halt, 2 `FAIL` bit, 3 SAG_WARN, 4 SAG_END, 5 THERMTRIP, 6 port event, 7 meter close), the oldest giving way when 32 are held, and send it to the receiver if one is set.
MOD_ALERT_N is asserted while `events` is not empty. -/
def State.platEvent (s : State) (kind arg : Nat) : State :=
  let full := decide (32 ≤ s.events.length)
  let s1 := { s with serial := s.serial + 1,
                     events := (if full then s.events.drop 1 else s.events) ++ [(⟨s.serial, kind, arg⟩ : PlatEvent)] }
  let s2 := if full then s1.irqMgt Fld.MGT_INT_STATUS_EVT_LOST else s1
  match s2.eventRcv with
  | some d => s2.emit (.message d 2 0x0A (leBytes 4 s.serial ++ leBytes 2 kind ++ leBytes 4 arg))
  | none => s2

/-- R391: a port event; each is a platform event too (R755). -/
def State.irqLl (s : State) (n : Nat) (f : Fld) : State :=
  (s.irq 0 5 (Reg.LL_INT_STATUS n) (Reg.LL_INT_EN n) f.mask).platEvent 6 (16 * n + f.lo)

/-! ## Partitions -/

/-- The first quadrant and the quadrant count of a partition (R558); a partition the layout lacks has none. -/
def State.quad0 (s : State) (p : Nat) : Nat := s.fget (Reg.PRT_MAP p) Fld.PRT_MAP_QUAD0
def State.nquad (s : State) (p : Nat) : Nat := s.fget (Reg.PRT_MAP p) Fld.PRT_MAP_NQUAD

/-- Logical cores, stacks and first stack of a partition (R559, R259). -/
def State.ncores (s : State) (p : Nat) : Nat := 32 * s.nquad p
def State.nstacks (s : State) (p : Nat) : Nat := 2 * s.nquad p
def State.stack0 (s : State) (p : Nat) : Nat := 2 * s.quad0 p

def allParts : List Nat := [1, 2, 3, 4]

/-- Partition states of R562, as `PRT_STATE_n.STATE` reads them. -/
def State.partState (s : State) (p : Nat) : Nat := s.fget (Reg.PRT_STATE p) Fld.PRT_STATE_STATE

/-- The partition that holds a quadrant, 0 for none. -/
def State.partOfQuad (s : State) (q : Nat) : Nat :=
  match allParts.find? fun p => decide (s.quad0 p ≤ q ∧ q < s.quad0 p + s.nquad p) with
  | some p => p
  | none => 0

def State.partOfStack (s : State) (k : Nat) : Nat := s.partOfQuad (k / 2)

/-- The core map (R32): the physical core that a logical core is bound to. `coreMap` lists the bindings that a
maintenance reset has changed (R245). -/
def coreMap0 (l : Nat) : Nat := 34 * (l / 32) + l % 32
def State.phys (s : State) (logical : Nat) : Nat := SMap.get coreMap0 s.coreMap logical

/-- The physical core of partition core `c` (R128). -/
def State.pcore (s : State) (p c : Nat) : Nat := s.phys (32 * s.quad0 p + c)

/-- The core of a partition that a physical core is. -/
def State.lcore (s : State) (p phys : Nat) : Nat := ((List.range (s.ncores p)).find? fun c => s.pcore p c == phys).getD 0

def State.sq (s : State) (p : Nat) : Seq := SMap.get (fun _ => {}) s.seqs p
def State.setSq (s : State) (p : Nat) (q : Seq) : State :=
  { s with seqs := SMap.set (fun _ => {}) s.seqs p q }
def State.up (s : State) (p : Nat) : Upd := SMap.get (fun _ => {}) s.upds p
def State.setUp (s : State) (p : Nat) (u : Upd) : State :=
  { s with upds := SMap.set (fun _ => {}) s.upds p u }
def State.stk (s : State) (k : Nat) : Stack := SMap.get (fun _ => {}) s.stks k
def State.setStk (s : State) (k : Nat) (x : Stack) : State :=
  { s with stks := SMap.set (fun _ => {}) s.stks k x }
def State.key (s : State) (n : Nat) : KeySlot := SMap.get (fun _ => {}) s.keys n
def State.setKey (s : State) (n : Nat) (x : KeySlot) : State :=
  { s with keys := SMap.set (fun _ => {}) s.keys n x }
def State.queue (s : State) (p q : Nat) : Queue := SMap.get (fun _ => {}) s.queues (64 * p + q)
def State.setQueue (s : State) (p q : Nat) (x : Queue) : State :=
  { s with queues := SMap.set (fun _ => {}) s.queues (64 * p + q) x }

def State.port (s : State) (n : Nat) : Port := SMap.get (fun _ => {}) s.ports n
def State.setPort (s : State) (n : Nat) (x : Port) : State := { s with ports := SMap.set (fun _ => {}) s.ports n x }
def State.win (s : State) (p : Nat) : Wins := SMap.get (fun _ => {}) s.wins p
def State.setWin (s : State) (p : Nat) (x : Wins) : State := { s with wins := SMap.set (fun _ => {}) s.wins p x }
def State.lake (s : State) (p : Nat) : Lake := SMap.get (fun _ => {}) s.lakes p
def State.setLake (s : State) (p : Nat) (x : Lake) : State := { s with lakes := SMap.set (fun _ => {}) s.lakes p x }
def State.cc (s : State) (p ch : Nat) : Option Launch := SMap.get (fun _ => none) s.ccs (8 * p + ch)
def State.setCc (s : State) (p ch : Nat) (x : Option Launch) : State :=
  { s with ccs := SMap.set (fun _ => none) s.ccs (8 * p + ch) x }

/-- States of `SEQ_STATUS` (R167). -/
def seqStopped : Nat := 0
def seqLoading : Nat := 1
def seqGateWait : Nat := 2
def seqRunning : Nat := 3
def seqBrkHold : Nat := 4
def seqStopping : Nat := 5
def seqFaulted : Nat := 6

def State.seqState (s : State) (p : Nat) : Nat := s.fget (Reg.SEQ_STATUS p) Fld.SEQ_STATUS_STATE

/-- R164: STOPPED and FAULT are the stopped states. -/
def State.stopped (s : State) (p : Nat) : Bool := s.seqState p == seqStopped || s.seqState p == seqFaulted

/-- R644, R666: during a sag, `HOLD` reads 1 once no partition runs a period. -/
def State.showHold (s : State) : State :=
  let a := Reg.PWR_SAG_STAT
  if s.flag a Fld.PWR_SAG_STAT_ACTIVE then
    s.fput a Fld.PWR_SAG_STAT_HOLD (b2n ([1, 2, 3, 4].all fun p => s.seqState p != seqRunning))
  else s

/-- Enter a sequencer state; `FMT_STATUS.SEQ_STOPPED` follows it (R164). -/
def State.setSeqState (s : State) (p st : Nat) : State :=
  ((s.fput (Reg.SEQ_STATUS p) Fld.SEQ_STATUS_STATE st).fput (Reg.FMT_STATUS p) Fld.FMT_STATUS_SEQ_STOPPED
    (b2n (st == seqStopped || st == seqFaulted))).showHold

/-! ## Counters, meters and traces -/

/-- R771 to R773: `d` events of a kind in a unit (16: none) of a partition core. -/
def State.count (s : State) (p ev unit core d : Nat) : State :=
  if s.flag (Reg.TDBG_CNT_CTRL p) Fld.TDBG_CNT_CTRL_EN then
    (List.range 16).foldl (fun s k =>
      let c := Reg.TDBG_CNT_CFG p k
      let cc := s.fget c Fld.TDBG_CNT_CFG_CORE
      if s.fget c Fld.TDBG_CNT_CFG_EVENT = ev ∧
          (unit = 16 ∨ (bitOf (s.fget c Fld.TDBG_CNT_CFG_UMASK) unit ∧ (cc = 255 ∨ cc = core))) then
        { s with counts := SMap.upd (fun _ => 0) s.counts (16 * p + k) fun x => satAdd 64 x d }
      else s) s
  else s

/-- R756: raise a meter of a partition (0 BEATS, 1 MEM, 2 TX, 3 RX); a sag stops the meters (R760). -/
def State.meter (s : State) (p kind d : Nat) : State :=
  if s.meterHold then s
  else { s with meters := SMap.upd (fun _ => 0) s.meters (4 * p + kind) fun x => satAdd 64 x d }

/-- Tray time and global time in ns (R749, R750, R787): tray time moves toward the reference by 1 ns per cycle. -/
def slew (a b : Int) (d : Nat) : Int := if a < b then min b (a + d) else max b (a - d)
def State.trayTime (s : State) : Nat := ((10 * s.now : Nat) + slew s.trayOfs s.trayRef (s.now - s.trayAt) : Int).toNat
def State.globalTime (s : State) : Nat :=
  unsigned 64 ((s.trayTime : Int) + signed 64 s.timeOfs)

/-- Unit IDs of R774. -/
def unitMe (core eng : Nat) : Nat := 256 * eng + core
def unitVe (core : Nat) : Nat := 0x1000 + core
def unitSe (core : Nat) : Nat := 0x2000 + core
def unitSeq (p : Nat) : Nat := 0x3000 + p
def unitNme (k : Nat) : Nat := 0x4000 + k
def unitDma (e : Nat) : Nat := 0x5000 + e
def unitPort (n : Nat) : Nat := 0x6000 + n
/-- Unit `u` (0 to 7 ME, 8 VE, 9 SE) of a physical core. -/
def unitOf (core u : Nat) : Nat := if u < 8 then unitMe core u else if u = 8 then unitVe core else unitSe core

/-- The partition whose freeze covers a ring (R779), 0 for none. -/
def State.ringPart (s : State) (unit : Nat) : Nat :=
  let k := unit / 4096
  if k ≤ 2 then s.partOfQuad (unit % 256 / 34) else if k = 3 then unit % 256
  else if k = 4 then s.partOfStack (unit % 256) else 0

/-- R779: a ring is frozen under the device freeze or the freeze of the partition that covers it. -/
def State.frozen (s : State) (unit : Nat) : Bool :=
  s.flag Reg.DBG_SEPIA_STAT Fld.DBG_SEPIA_STAT_FROZEN ||
    (s.ringPart unit != 0 && s.flag (Reg.TDBG_SEPIA_STAT (s.ringPart unit)) Fld.TDBG_SEPIA_STAT_FROZEN)

/-- R777: an entry goes on top of a ring, newest first, or under those of its cycle that have a higher code. Entries of one partition are of
one cycle where time, period and beat agree, others where time does. -/
def sepiaPut (e : SepiaEntry) : List SepiaEntry → List SepiaEntry
  | [] => [e]
  | x :: t =>
    let same := x.time == e.time && (x.owner == 0 || e.owner == 0 || (x.pid == e.pid && x.bip == e.bip))
    if same && decide (e.code < x.code) then x :: sepiaPut e t else e :: x :: t

/-- R775 to R777: record an event in a unit's ring of 64, unless it is frozen. -/
def State.sepiaRec (s : State) (unit code owner arg : Nat) : State :=
  if s.frozen unit then s
  else
    let e : SepiaEntry := {
      time := s.globalTime
      pid := if owner = 0 then 0 else s.fget (Reg.SEQ_PERIOD owner) Fld.SEQ_PERIOD_PID
      bip := if owner = 0 then 0 else s.fget (Reg.SEQ_BIP owner) Fld.SEQ_BIP_BIP
      code := code, owner := owner, arg := arg % 2 ^ 32 }
    { s with sepia := SMap.upd (fun _ => []) s.sepia unit fun l => (sepiaPut e l).take 64 }

/-! ## Fences (R621 to R627) -/

/-- R627: the event entry of a fence with `NOTIFY`, or its loss when the ring is full. -/
def State.fenceNotify (s : State) (p n : Nat) : State :=
  let a := Reg.FEN_F p n
  if s.flag a Fld.FEN_F_NOTIFY && s.flag (Reg.FEN_EVQ_CFG p) Fld.FEN_EVQ_CFG_EN then
    let size := 2 ^ s.fget (Reg.FEN_EVQ_CFG p) Fld.FEN_EVQ_CFG_LOG2N
    let tail := s.rn (Reg.FEN_EVQ_TAIL p)
    if (tail + 4294967296 - s.rn (Reg.FEN_EVQ_HEAD p)) % 4294967296 < size then
      let base := s.rn (Reg.FEN_EVQ_BASE_LO p) + 4294967296 * s.rn (Reg.FEN_EVQ_BASE_HI p)
      let entry := n + 65536 * s.fget a Fld.FEN_F_ERR + 16777216 * s.fget a Fld.FEN_F_SIG
      ((s.toHost p (base + 8 * (tail % size)) true (leBytes 8 entry)).wn (Reg.FEN_EVQ_TAIL p) (tail + 1)).irqFen
        p Fld.FEN_INT_STATUS_EVT
    else
      ((s.setBits (Reg.FEN_EVQ_STAT p) Fld.FEN_EVQ_STAT_OVF.mask).bump (Reg.FEN_EVQ_STAT p) Fld.FEN_EVQ_STAT_LOST 1).irqFen
        p Fld.FEN_INT_STATUS_OVF
  else s

/-- Whether the partition has fence `n` (R621). -/
def State.hasFence (s : State) (p n : Nat) : Bool := decide (n < s.fget (Reg.FEN_COUNT p) Fld.FEN_COUNT_COUNT)

/-- The base of a queue's registers: a VF's (R633) or PF0's (R638). -/
def qbase (p q : Nat) : Nat := if p = 0 then Reg.HST_Q_BASE_LO q else Reg.QUE_BASE_LO p q
def qCfg (p q : Nat) : Nat := qbase p q + 0x08
def qTail (p q : Nat) : Nat := qbase p q + 0x0C
def qHead (p q : Nat) : Nat := qbase p q + 0x10
def qDone (p q : Nat) : Nat := qbase p q + 0x14
def qStat (p q : Nat) : Nat := qbase p q + 0x18

/-- The queues of a function: 64 of a VF, 4 of PF0. -/
def queuesOf (p : Nat) : List Nat := List.range (if p = 0 then 4 else 64)

/-- R601, R603, R633: the counts of a queue that follow what is in flight; a queue with `EN` 0 is DISABLED once empty. -/
def State.showQueue (s : State) (p q : Nat) : State :=
  let l := (s.queue p q).bufs
  let st := qStat p q
  let s1 := s.wn (qDone p q) (match l with | b :: _ => b.seq | [] => s.rn (qHead p q))
  let s2 := (s1.fput st Fld.QUE_STAT_INFLIGHT l.length).fput st Fld.QUE_STAT_AT_BOUND (b2n (decide (256 ≤ l.length)))
  if l.isEmpty ∧ !s.flag (qCfg p q) Fld.QUE_CFG_EN then s2.fput st Fld.QUE_STAT_STATE 0 else s2

/-- Change the command buffers of a partition that wait on fence `n` (R605, R625). -/
def State.markWaits (s : State) (p n : Nat) (f : CmdBuf → CmdBuf) : State :=
  (queuesOf p).foldl (fun s q =>
    if (s.queue p q).bufs.any fun b => b.waitOn == some n then
      s.setQueue p q { s.queue p q with bufs := (s.queue p q).bufs.map fun b => if b.waitOn = some n then f b else b }
    else s) s

/-- R622: a fence signals, and the WAITs on it complete. -/
def State.fenceSet (s : State) (p n : Nat) : State :=
  let a := Reg.FEN_F p n
  if s.hasFence p n && !s.flag a Fld.FEN_F_SIG && s.fget a Fld.FEN_F_ERR == 0 then
    ((s.fput a Fld.FEN_F_SIG 1).fenceNotify p n).markWaits p n fun b => { b with waitOn := none }
  else s

/-- R622, R623, R625: a fence records an error, and the WAITs on it end. -/
def State.fenceFail (s : State) (p n code : Nat) : State :=
  let a := Reg.FEN_F p n
  if s.hasFence p n && !s.flag a Fld.FEN_F_SIG && s.fget a Fld.FEN_F_ERR == 0 then
    ((s.fput a Fld.FEN_F_ERR code).fenceNotify p n).markWaits p n fun b =>
      { b with waitOn := none, err := if b.err = 0 then 0x23 else b.err }
  else s

/-- Every packet of a command buffer has begun and completed (R605). -/
def CmdBuf.complete (b : CmdBuf) : Bool :=
  b.granted && decide (b.bytes.length ≤ b.pos) && b.waitOn.isNone && b.dmaOpen == 0 && !b.seqOpen && !b.ccOpen

/-- A command buffer of a partition that has completed or ended, with its queue. -/
def State.ending (s : State) (p : Nat) : Option (Nat × CmdBuf) :=
  (queuesOf p).findSome? fun q => ((s.queue p q).bufs.find? fun b => b.complete || b.err != 0).map fun b => (q, b)

/-- R605, R607: a command buffer leaves flight; its fence signals or records the error. -/
def State.endBuf (s : State) (p q : Nat) (b : CmdBuf) : State :=
  let s1 := (s.setQueue p q { s.queue p q with bufs := (s.queue p q).bufs.filter fun c => c.seq != b.seq }).showQueue p q
  let s2 := match b.fence with
    | some n => if b.err = 0 then s1.fenceSet p n else s1.fenceFail p n b.err
    | none => s1
  if p = 0 then s2.irq 0 6 Reg.HST_INT_STATUS Reg.HST_INT_EN (2 ^ q)
  else if b.err = 0 then s2
  else s2.irqQue p Fld.QUE_INT_STATUS_CB_ERR

/-- End every command buffer that can end; each end may let others end through its fence. -/
def State.settleLoop (s : State) (p : Nat) : Nat → State
  | 0 => s
  | fuel + 1 =>
    match s.ending p with
    | none => s
    | some (q, b) => (s.endBuf p q b).settleLoop p fuel
def State.settle (s : State) (p : Nat) : State :=
  s.settleLoop p ((queuesOf p).foldl (fun n q => n + (s.queue p q).bufs.length) 0)

/-- R622, the rows "Signal" and "Error recorded". -/
def State.fenceSignal (s : State) (p n : Nat) : State := (s.fenceSet p n).settle p
def State.fenceError (s : State) (p n code : Nat) : State := (s.fenceFail p n code).settle p

/-- R622, the row "Reset". -/
def State.fenceReset (s : State) (p n : Nat) : State :=
  if s.hasFence p n then (s.fput (Reg.FEN_F p n) Fld.FEN_F_SIG 0).fput (Reg.FEN_F p n) Fld.FEN_F_ERR 0 else s

/-- Record an error on a command buffer; the first error stands (R622). -/
def CmdBuf.fail (b : CmdBuf) (code : Nat) : CmdBuf := { b with err := if b.err = 0 then code else b.err }

/-- Change one command buffer. -/
def State.updBuf (s : State) (p q seq : Nat) (f : CmdBuf → CmdBuf) : State :=
  s.setQueue p q { s.queue p q with bufs := (s.queue p q).bufs.map fun b => if b.seq = seq then f b else b }

/-- Change every command buffer of a partition that meets a test, and let those end that can (R626). -/
def State.mapBufs (s : State) (p : Nat) (test : CmdBuf → Bool) (f : CmdBuf → CmdBuf) : State :=
  State.settle ((queuesOf p).foldl (fun (s : State) q =>
    if (s.queue p q).bufs.any test then
      s.setQueue p q { s.queue p q with bufs := (s.queue p q).bufs.map fun b => if test b then f b else b }
    else s) s) p
def State.failBufs (s : State) (p : Nat) (test : CmdBuf → Bool) (code : Nat) : State := s.mapBufs p test fun b => b.fail code

/-! ## Step flags, alarms and refusals -/

/-- R327: an event of the step, noted when it comes after NORM_OUT took effect. -/
def Upd.event (u : Upd) : Upd := { u with afterOut := u.afterOut || u.outDone }

/-- The step's non-finite flag raised without an Inf, a NaN or a scale code (R295, R318). -/
def State.raiseNf (s : State) (p : Nat) : State := (s.setUp p { (s.up p).event with nf := true }).count p 0x0F 16 0 1

/-- R100: the place of an engine's event among those of its beat, lowest first: logical core, then ME0 to ME7, then VE. -/
def nfRank (core unit : Nat) : Nat := 16 * core + unit

/-- R100: an event stands before the one that `FMT_NF_TENSOR` shows: it is the first since the status was 0, or it comes in
the same beat from an engine of a lower place. -/
def Seq.nfBefore (q : Seq) (who : Option Nat) : Bool :=
  match q.nfFirst, who with
  | some (b, r), some r' => b == q.beat && decide (r' < r)
  | _, _ => false

/-- R99, R100: values produced or consumed, in the diagnostic mirror alone. `bits`: 1 NaN, 2 Inf, 4 scale code 0xFF; `who`: the
engine's place in its beat, none for a unit that R100 does not rank. -/
def State.nfSeen (s : State) (p bits tensor : Nat) (who : Option Nat) : State :=
  if bits = 0 then s
  else
    let q := s.sq p
    let s1 := if s.rn (Reg.FMT_NF_STATUS p) % 8 = 0 ∨ q.nfBefore who then
        (s.setSq p { q with nfFirst := who.map fun r => (q.beat, r) }).wn (Reg.FMT_NF_TENSOR p) tensor
      else s
    s1.setBits (Reg.FMT_NF_STATUS p) bits

/-- R93, R99: an event that raises the step's non-finite flag. -/
def State.nonFinite (s : State) (p bits tensor unit core : Nat) : State :=
  if bits = 0 then s
  else ((s.setUp p { (s.up p).event with nf := true }).nfSeen p bits tensor
    (if unit < 16 then some (nfRank core unit) else none)).count p 0x0F unit core 1

/-- R78: an engine met an invalid table. -/
def State.invalidTable (s : State) (p : Nat) : State :=
  (s.setUp p { (s.up p).event with nf := true }).setBits (Reg.FMT_STATUS p) Fld.FMT_STATUS_INVALID_TBL.mask

/-- R271: the step whose COMMIT has not issued is tainted: while a decision is pending, the one after the step that is decided. -/
def State.taintStep (s : State) (p : Nat) : State :=
  let u := (s.up p).event
  s.setUp p (if s.flag (Reg.UPD_STATUS p) Fld.UPD_STATUS_PENDING then { u with taintNext := true } else { u with taint := true })

/-- R271: operation number `id` was issued before the COMMIT whose decision is pending. -/
def State.beforeCommit (s : State) (p id : Nat) : Bool :=
  s.flag (Reg.UPD_STATUS p) Fld.UPD_STATUS_PENDING && decide (id < (s.up p).commitId)

/-- R271: what `f` does belongs to operation number `id`: an alarm of an operation issued before the pending COMMIT taints the step that is
decided. `f` sees the block of `issueView`. -/
def State.issueView (s : State) (p id : Nat) : State :=
  if s.beforeCommit p id then s.setUp p { s.up p with taintNext := false } else s
def State.issuedAs (s : State) (p id : Nat) (f : State → State) : State :=
  let t := f (s.issueView p id)
  if s.beforeCommit p id then
    t.setUp p { t.up p with taint := (t.up p).taint || (t.up p).taintNext, taintNext := (s.up p).taintNext }
  else t

/-- Which of several events a record of the first one shows (R300, R345, R555): none is recorded yet, or the recorded one is of the same
time and has a higher code, or the same code and a higher stack. -/
def stands (code0 stack0 code stack : Nat) (sameTime : Bool) : Bool :=
  code0 == 0 || (sameTime && decide (code < code0 ∨ (code = code0 ∧ stack < stack0)))

/-- R271, R272, R549: an integrity alarm of a partition with a cause and the device stack where it arose. -/
def State.alarm (s : State) (p cause stack : Nat) : State :=
  if p = 0 then s
  else
    let s1 := s.taintStep p
    let a := Reg.MEM_ALARM_CAUSE p
    let s2 := if stands (s1.fget a Fld.MEM_ALARM_CAUSE_CAUSE) (s1.fget a Fld.MEM_ALARM_CAUSE_STACK) cause stack ((s1.up p).alarmAt == s.now) then
      (s1.wr a (Fld.MEM_ALARM_CAUSE_STACK.put (Fld.MEM_ALARM_CAUSE_CAUSE.put 0 cause) stack)).setUp p { s1.up p with alarmAt := s.now } else s1
    let t := Reg.TKEY_ALARM p
    let j := if cause = 6 then 0 else stack - s.stack0 p
    let s3 := if stands (s2.fget t Fld.TKEY_ALARM_CAUSE) (s2.fget t Fld.TKEY_ALARM_STACK) cause j ((s2.up p).tkeyAt == s.now) then
      (s2.wr t (Fld.TKEY_ALARM_STACK.put (Fld.TKEY_ALARM_CAUSE.put 0 cause) j)).setUp p { s2.up p with tkeyAt := s.now } else s2
    (s3.irqMem (2 ^ (p - 1))).irqProt p Fld.TKEY_PROT_INT_STATUS_ALARM

/-- R547, R554, R555: a refused access of a partition's master. The first since the last read is recorded, and of one cycle the one of the
lowest master ID. -/
def State.refuse (s : State) (p code master : Nat) (write : Bool) (off kid : Nat) : State :=
  let e := Reg.TKEY_PROT_ERR p
  let first := s.fget e Fld.TKEY_PROT_ERR_CODE = 0 ∨ ((s.up p).refAt = some s.now ∧ master < s.fget e Fld.TKEY_PROT_ERR_MASTER)
  let s1 := if first then
    ((((s.setUp p { s.up p with refAt := some s.now }).wr e (Fld.TKEY_PROT_ERR_WRITE.put (Fld.TKEY_PROT_ERR_MASTER.put
      (Fld.TKEY_PROT_ERR_CODE.put 0 code) master) (b2n write))).wn (Reg.TKEY_PROT_ADDR_LO p) off).wr
        (Reg.TKEY_PROT_ADDR_HI p) (Fld.TKEY_PROT_ADDR_HI_KID.put
          (Fld.TKEY_PROT_ADDR_HI_OFF_HI.put 0 (off / 4294967296)) kid)) else s
  (s1.bump (Reg.TKEY_PROT_COUNT p) Fld.TKEY_PROT_COUNT_COUNT 1).irqProt p Fld.TKEY_PROT_INT_STATUS_PROT

/-- R779: freeze the partition's rings. -/
def State.freezePart (s : State) (p : Nat) : State :=
  if s.flag (Reg.TDBG_SEPIA_STAT p) Fld.TDBG_SEPIA_STAT_FROZEN then s
  else { s with freezeAt := SMap.set (fun _ => 0) s.freezeAt p s.globalTime }.fput (Reg.TDBG_SEPIA_STAT p) Fld.TDBG_SEPIA_STAT_FROZEN 1

/-- R746: a source asserts the halt path. -/
def State.askHalt (s : State) (src : Nat) : State := { s with haltReq := s.haltReq ++ [(s.now, src)] }

/-- Every unit of a partition, as `16 · physical core + unit` (R131: the units that bodies run in). -/
def State.partRuns (s : State) (p : Nat) : List (Nat × Run) :=
  s.cores.runs.filterMap fun e => match e.2 with
    | some r => if r.part = p then some (e.1, r) else none
    | none => none

/-- R49, R160: the partition's units abandon the micro-ops they have started; results on their way and fills in progress are
dropped. The copies of LOOP windows are no unit's work and land. What is due in beat `keep`, where a fault gives one, is still met
(R161). -/
def State.abandon (s : State) (p : Nat) (keep : Option Nat) : State :=
  let now := keep == some (s.sq p).beat
  let s1 := { s with cores := { s.cores with
    runs := s.cores.runs.filter fun e => match e.2 with | some r => r.part != p || keep == some r.beat | none => true
    fills := s.cores.fills.filter fun e => now || s.partOfQuad (e.1 / 8 / 34) != p } }
  let q := s1.sq p
  s1.setSq p { q with
    starts := q.starts.filter (fun (x : Start) => keep == some x.beat), lands := []
    mesh := q.mesh.filter (fun (l : MeshLand) => l.kind == 0 || keep == some l.beat), ports := if now then q.ports else []
    ctlDue := now && q.ctlDue, grp0Due := now && q.grp0Due, grp1Due := now && q.grp1Due, xferDue := now && q.xferDue }

/-- Fault codes of R161. -/
def fImgHdr : Nat := 0x01
def fImgBound : Nat := 0x02
def fIsramUe : Nat := 0x03
def fBtypeUndef : Nat := 0x04
def fSlotForm : Nat := 0x05
def fPlenRange : Nat := 0x06
def fLoopTarget : Nat := 0x07
def fStartLate : Nat := 0x08
def fUnitConflict : Nat := 0x09
def fBodyOverrun : Nat := 0x0A
def fRange : Nat := 0x0B
def fRplPending : Nat := 0x0C
def fWloadBusy : Nat := 0x0D
def fAccRange : Nat := 0x0E
def fCsetOvf : Nat := 0x0F
def fUndefMicroop : Nat := 0x10

/-- R171: what `SEQ_ERR` and `SEQ_ERR_PC` show of a fault, and its entry in the unit's trace. -/
def State.showErr (s : State) (p code core unit pc : Nat) : State :=
  (s.wr (Reg.SEQ_ERR p) (Fld.SEQ_ERR_UNIT.put (Fld.SEQ_ERR_CORE.put (Fld.SEQ_ERR_CODE.put 0 code) core) unit)).wn (Reg.SEQ_ERR_PC p) pc
def State.faultEntry (s : State) (p code core unit : Nat) : State :=
  s.sepiaRec (if unit = 15 then unitSeq p else unitOf (s.pcore p core) unit) 0x03 p code

/-- R160, R161, R163, R335, R779: a fault stops the partition's stream. `core` 0xFF and `unit` 0xF name the sequencer; `pc`
is the faulting bundle or the one that started the faulting body. What else is due in the same beat is still met, because another
fault of it may be the one to record. -/
def State.seqFault (s : State) (p code core unit pc : Nat) : State :=
  if s.stopped p then s
  else
    let s2 := (s.showErr p code core unit pc).faultEntry p code core unit
    let beat := (s2.sq p).beat
    let s3 := s2.abandon p (some beat)
    let s4 := s3.setSq p { s3.sq p with limreq := 0, stopPend := false, loopRec := none, commitRec := none,
                                        afterCommit := false, ended := none, resumed := false, faultBeat := some beat }
    let s5 := (s4.setSeqState p seqFaulted).sepiaRec (unitSeq p) 0x15 p seqFaulted
    let s6 := s5.fput (Reg.UPD_STATUS p) Fld.UPD_STATUS_PENDING 0
    let s7 := (s6.failBufs p (fun b => b.seqOpen) 0x24).irqSeq p Fld.SEQ_INT_STATUS_FAULT
    if s7.flag (Reg.TDBG_SEPIA_CTRL p) Fld.TDBG_SEPIA_CTRL_FREEZE_ON_FAULT then s7.freezePart p else s7

/-- The stream is in FAULT, and the beat in progress is the one in which the fault was detected. -/
def State.faultIn (s : State) (p : Nat) : Bool := s.seqState p == seqFaulted && (s.sq p).faultBeat == some (s.sq p).beat

/-- Nothing of beat `b` happens any more: the stream is stopped, and its fault came in an earlier beat. -/
def State.dead (s : State) (p b : Nat) : Bool := s.stopped p && !(s.faultIn p && b == (s.sq p).beat)

/-- R161: the place of a fault among those of one cycle: code, then logical core, then ME0 to ME7, VE, SE. -/
def faultRank (code core unit : Nat) : Nat := 4096 * code + 16 * core + unit

/-- R161: a fault that a beat's work meets. Of several in one beat the lowest is the one recorded. -/
def State.beatFault (s : State) (p code core unit pc : Nat) : State :=
  if s.faultIn p then
    let e := Reg.SEQ_ERR p
    let held := faultRank (s.fget e Fld.SEQ_ERR_CODE) (s.fget e Fld.SEQ_ERR_CORE) (s.fget e Fld.SEQ_ERR_UNIT)
    (if faultRank code core unit < held then s.showErr p code core unit pc else s).faultEntry p code core unit
  else s.seqFault p code core unit pc

/-! ## Completion sets (R156) -/

def State.cset (s : State) (p n : Nat) : Nat := s.fget (Reg.SEQ_CSET p n) Fld.SEQ_CSET_OUT

/-- Add `d` parts to a completion set, or none where it would pass 65,535: the fault CSET_OVF. -/
def State.csetAdd (s : State) (p n d : Nat) : Option State :=
  if s.cset p n + d ≤ 65535 then some (s.fput (Reg.SEQ_CSET p n) Fld.SEQ_CSET_OUT (s.cset p n + d)) else none

def State.csetSub (s : State) (p n : Nat) : State :=
  s.fput (Reg.SEQ_CSET p n) Fld.SEQ_CSET_OUT (s.cset p n - 1)

/-! ## Time -/

/-- One ACLK cycle passes (R10). -/
def State.tick (s : State) : State := { s with now := s.now + 1 }

end Sys2Proof.Machine
end

