-- ==== Sys2Proof/Machine/MemOps.lean ====
section
/-! DEFINITION. Device memory: addresses (R258 to R263), the region check (R529 to R534), key slots in use (R502,
R503), sectors and their verification (R264 to R273), and reads and writes of a run of bytes. -/

namespace Sys2Proof.Machine

/-- ASCII bytes of a label. -/
def ascii (t : String) : List Byte := t.toList.map fun c => BitVec.ofNat 8 c.toNat

/-! ## Addresses -/

def gib : Nat := 1073741824

/-- R258: the KID of a device address, and its byte address; none when a bit that must be 0 is set. -/
def addrKid (a : Nat) : Nat := bitsOf a 48 6
def addrByte (a : Nat) : Option Nat := if a / 2 ^ 39 % 512 = 0 ∧ a / 2 ^ 54 = 0 then some (a % 2 ^ 39) else none

/-- R260: *L* of a partition in GiB, and the size *I* of its interleaved window. -/
def State.localGib (s : State) (p : Nat) : Nat := s.fget (Reg.MEM_PSPLIT p) Fld.MEM_PSPLIT_LOCAL_GIB
def State.inter (s : State) (p : Nat) : Nat := gib * (s.nstacks p * (64 - s.localGib p))
def State.memSize (s : State) (p : Nat) : Nat := gib * (64 * s.nstacks p)
def State.memBase (s : State) (p : Nat) : Nat := gib * (64 * s.stack0 p)

/-- R258, R259: the partition-relative offset of a device address. -/
def State.offset (s : State) (p a : Nat) : Option Nat :=
  match addrByte a with
  | some x => if s.memBase p ≤ x ∧ x - s.memBase p < s.memSize p then some (x - s.memBase p) else none
  | none => none

/-- R260: the device stack and the offset inside it of a valid partition-relative offset. -/
def State.place (s : State) (p o : Nat) : Nat × Nat :=
  let k := s.nstacks p
  let i := s.inter p
  if o < i then
    let page := o / 4096
    (s.stack0 p + page % k, page / k * 4096 + o % 4096)
  else
    let l := gib * s.localGib p
    let u := o - i
    (s.stack0 p + u / l, gib * (64 - s.localGib p) + u % l)

/-- R308, R530: the offset of a stack-local place of stack rank `j`. -/
def State.localOff (s : State) (p j u : Nat) : Nat := s.inter p + gib * (j * s.localGib p) + u

/-- R308, R309: the storage position of an offset: inside the bank window, while the epoch is odd, the same position of
the window's other half. -/
def State.bankOff (s : State) (p o : Nat) : Nat :=
  let i := s.inter p
  let w := 1048576 * s.fget (Reg.UPD_BANK_BASE p) Fld.UPD_BANK_BASE_MIB
  let z := 1048576 * s.fget (Reg.UPD_BANK_SIZE p) Fld.UPD_BANK_SIZE_MIB
  let u := (o - i) % (gib * s.localGib p)
  if o < i ∨ s.rn (Reg.UPD_EPOCH p) % 2 = 0 ∨ u < w ∨ w + 2 * z ≤ u then o
  else if u < w + z then o + z else o - z

/-- R263: pseudo-channel, bank, row and column of a sector of a stack. -/
def sectorPlace (sec : Nat) : Nat × Nat × Nat × Nat :=
  (sec % 32 ^^^ bitsOf sec 10 5, bitsOf (sec / 32) 2 6, bitsOf (sec / 32) 8 15, sec / 32 % 4)

/-! ## Key slots -/

/-- R483, R491: a slot that holds a key which an operation may bind. -/
def KeySlot.owned (k : KeySlot) (p : Nat) : Bool := if p = 0 then k.owner == 0 else bitOf k.owner (p - 1)

/-- R503: one use of a slot. EXHAUSTED is reached at 2^HARD, the alert at 2^SOFT. Answers the block and the value of
`CTR` the use took. -/
def State.useKey (s : State) (n : Nat) : State × Nat :=
  let k := s.key n
  let c := k.ctr + 1
  let hit (lim : Nat) : Bool := lim != 0 && c == 2 ^ lim
  let s1 := s.setKey n { k with ctr := c, state := if hit k.hard then 2 else k.state }
  let alert (s : State) (f : Fld) : State :=
    (List.range 5).foldl (fun s p =>
      if (p = 0 ∧ k.owner = 0) ∨ (p ≠ 0 ∧ bitOf k.owner (p - 1)) then s.keyAlert p f.mask else s) s
  let s2 := if hit k.soft then alert s1 Fld.KEY_ALERT_SOFT else s1
  (if hit k.hard then alert s2 Fld.KEY_ALERT_EXHAUST else s2, k.ctr)

/-- R38, R499: frames that a stack's interposer carries in direction `dir` (0 to the base die, 1 from it), encrypted under its link key:
the sending slot's `CTR` rises by one for each (R502, R503). How many frames a value takes is not given: a free value, one at least. -/
def State.ifcSend (s : State) (k dir : Nat) (what : List Nat) : State :=
  let n := 0xA0 + 2 * k + dir
  let x := s.key n
  if x.state ≠ 1 then s
  else
    let c := min (2 ^ 48) (x.ctr + 1 + Config.openValue 21 (k :: dir :: s.now :: what))
    s.setKey n { x with ctr := c, state := if c = 2 ^ 48 then 2 else 1 }

/-- R39: a base die holds a current interface link key. -/
def State.ifcLoaded (s : State) (k : Nat) : Bool := (s.key (0xA0 + 2 * k)).state == 1 && (s.key (0xA1 + 2 * k)).state == 1

/-- R285: command records are forwarded to a stack's NME, whose queue holds 256; the others wait in order. -/
def State.forward (s : State) (k : Nat) (recs : List NmeRec) : State :=
  let x := s.stk k
  let all := x.queue ++ x.backlog ++ recs
  let s1 := s.setStk k { x with queue := all.take 256, backlog := all.drop 256 }
  if x.queue.length = (all.take 256).length then s1 else s1.ifcSend k 0 ((all.take 256).length :: [])

/-- R484: the write slot of a KID's pair; the read slot follows it. KID byte 0xFE names the keeper's diagnostic pair (R790). -/
def memSlot (kid : Nat) : Nat := if kid = 0xFE then 0xB0 else 2 * kid

/-- R498: the XTS data key, the XTS tweak key and KM of a memory slot. -/
def memKeys (key : List Byte) (kid : Nat) : List Byte × List Byte × List Byte :=
  let x := Crypto.kdf key (ascii "SZT60-MEMX") (leBytes 1 kid) 768
  (x.take 32, (x.drop 32).take 32, x.drop 64)

/-- R266: the MAC of a sector's ciphertext at a logical sector number under a KID. -/
def sectorMac (km : List Byte) (lsn kid : Nat) (cipher : List Byte) : List Byte :=
  let h := beNat (Crypto.aesEnc km (List.replicate 16 0#8))
  let g := Crypto.ghash h [] cipher
  let n := Crypto.aesEnc km (leBytes 16 (lsn + kid % 64 * 2 ^ 64))
  (Crypto.xorBytes (beBytes 16 g) n).take 8

/-! ## Sectors of a stack -/

def dramData (stack sec : Nat) : Nat := stack * 2 ^ 37 + 256 * sec
def dramSide (stack sec : Nat) : Nat := stack * 2 ^ 37 + 2 ^ 36 + 32 * sec
def poisonKey (stack sec : Nat) : Nat := stack * 2 ^ 28 + sec

/-- The stored bytes of a sector: 256 of data and 32 of side-band (R264). -/
def State.rawSector (s : State) (stack sec : Nat) : List Byte :=
  SMap.getRun (fun _ => 0#8) s.dram (dramData stack sec) 256 ++ SMap.getRun (fun _ => 0#8) s.dram (dramSide stack sec) 32

/-- Whole-sector writes take a sector off the poison list (R273). -/
def State.unpoison (s : State) (stack sec : Nat) : State :=
  if SMap.get (fun _ => false) s.poison (poisonKey stack sec) then
    { s with poison := SMap.set (fun _ => false) s.poison (poisonKey stack sec) false }.fput
      (Reg.MEM_POISON_COUNT stack) Fld.MEM_POISON_COUNT_COUNT
      (s.fget (Reg.MEM_POISON_COUNT stack) Fld.MEM_POISON_COUNT_COUNT - 1)
  else s

/-- Store a sector's ciphertext and side-band as they are. -/
def State.putRaw (s : State) (stack sec : Nat) (bytes : List Byte) : State :=
  let m := SMap.setRun (fun _ => 0#8) s.dram (dramData stack sec) (sliceB bytes 0 256)
  State.unpoison { s with dram := SMap.setRun (fun _ => 0#8) m (dramSide stack sec) (sliceB bytes 256 32) } stack sec

/-- R265: the check symbols of a sector's four chunks. -/
def eccBytes (cipher mac : List Byte) : List Byte :=
  sliceB (Config.eccSymbols (sliceB cipher 0 64)) 0 6 ++ sliceB (Config.eccSymbols (sliceB cipher 64 64)) 0 6 ++
  sliceB (Config.eccSymbols (sliceB cipher 128 64)) 0 6 ++ sliceB (Config.eccSymbols (sliceB cipher 192 64 ++ mac)) 0 6

/-- R306: the stack's most recent error; of those of one time, the one of the lowest pseudo-channel. -/
def State.errLast (s : State) (stack sec kind part : Nat) (persist : Bool) : State :=
  let (pc, bank, row, col) := sectorPlace sec
  let x := s.stk stack
  if x.errAt = some s.now ∧ s.fget (Reg.MEM_ERR_LAST_LO stack) Fld.MEM_ERR_LAST_LO_PC < pc then s
  else ((s.setStk stack { x with errAt := some s.now }).wr (Reg.MEM_ERR_LAST_LO stack) (Fld.MEM_ERR_LAST_LO_COL.put (Fld.MEM_ERR_LAST_LO_ROW.put
    (Fld.MEM_ERR_LAST_LO_BANK.put (Fld.MEM_ERR_LAST_LO_PC.put 0 pc) bank) row) col)).wr
    (Reg.MEM_ERR_LAST_HI stack) (Fld.MEM_ERR_LAST_HI_PERSIST.put (Fld.MEM_ERR_LAST_HI_PART.put
      (Fld.MEM_ERR_LAST_HI_KIND.put 0 kind) part) (b2n persist))

/-- R273: put a sector on its stack's poison list. A full list fails the stack and asks for a halt. -/
def State.poisonSector (s : State) (stack sec : Nat) : State :=
  if SMap.get (fun _ => false) s.poison (poisonKey stack sec) then s
  else
    let n := s.fget (Reg.MEM_POISON_COUNT stack) Fld.MEM_POISON_COUNT_COUNT
    if n ≥ 1024 then
      ((s.fput (Reg.MEM_STK_STAT stack) Fld.MEM_STK_STAT_STATE 3).askHalt 6).irqMem Fld.MEM_INT_STATUS_STK_FAIL.mask
    else
      (({ s with poison := SMap.set (fun _ => false) s.poison (poisonKey stack sec) true }.fput
        (Reg.MEM_POISON_COUNT stack) Fld.MEM_POISON_COUNT_COUNT (n + 1))).irqMem Fld.MEM_INT_STATUS_POISON.mask

/-- R283: a corrected error counts against its row, in distinct sectors of one pass. -/
def State.rowError (s : State) (stack sec : Nat) : State :=
  let (pc, bank, row, _) := sectorPlace sec
  let key := (pc * 64 + bank) * 32768 + row
  let x := s.stk stack
  if x.rowErrs.contains (key, sec) then s else s.setStk stack { x with rowErrs := (key, sec) :: x.rowErrs }

/-! ### The code over a chunk (R265) -/

/-- R264: the chunk that byte `i` of a stored sector (256 bytes of data, then the side-band) belongs to. -/
def chunkOf (i : Nat) : Nat := if i < 256 then i / 64 else if i < 280 then (i - 256) / 6 else 3

/-- How many 16-bit symbols of chunk `c` a flip changes. -/
def wrongSymbols (flip : List Byte) (c : Nat) : Nat :=
  ((List.range 144).filter fun i => chunkOf (2 * i) == c && sliceB flip (2 * i) 2 != [0#8, 0#8]).length

/-- A chunk of one wrong symbol is corrected; one of two, or of more that the code detects, is uncorrectable. -/
def eccCorrects (e : ReadErr) (c : Nat) : Bool := wrongSymbols e.flip c == 1
def eccBeyond (e : ReadErr) (c : Nat) : Bool := wrongSymbols e.flip c == 2 || (3 ≤ wrongSymbols e.flip c && bitOf e.found c)

/-- What the correction leaves of a flip. -/
def eccLeft (e : ReadErr) : List Byte :=
  (List.range 288).map fun i => if eccCorrects e (chunkOf i) then 0#8 else e.flip.getD i 0#8

/-- What one read of a sector returned (R265, R270): the stored bytes after correction, and whether a chunk was beyond it. -/
structure RawRead where
  bytes : List Byte
  ue : Bool
deriving DecidableEq, Repr

/-- The injected error that the `n`-th read (from 0) of a sector meets. -/
def errOf (errs : List ReadErr) (stack sec n : Nat) : Option ReadErr :=
  errs.find? fun e => e.stack == stack && e.sector == sec && decide (n < e.reads)

/-- One read of a sector on the path of partition `p`: corrected symbols and uncorrectable chunks are counted (R265, R305, R306). -/
def State.readOnce (s : State) (errs : List ReadErr) (p stack sec n : Nat) : State × RawRead :=
  let raw := s.rawSector stack sec
  match errOf errs stack sec n with
  | none => (s, ⟨raw, false⟩)
  | some e =>
    let ces := ((List.range 4).filter (eccCorrects e)).length
    let ues := ((List.range 4).filter (eccBeyond e)).length
    let s1 := if ces = 0 then s else
      ((s.bump (Reg.MEM_CE_COUNT stack) Fld.MEM_CE_COUNT_COUNT ces).errLast stack sec 0 p false).rowError stack sec
    let s2 := if ues = 0 then s1 else
      ((s1.bump (Reg.MEM_UE_COUNT stack) Fld.MEM_UE_COUNT_COUNT ues).errLast stack sec 1 p false).irqMem Fld.MEM_INT_STATUS_UE.mask
    (s2, ⟨Crypto.xorBytes raw (eccLeft e), decide (ues ≠ 0)⟩)

/-- Whether a read passes: no chunk beyond correction, and the MAC of R266. -/
def macPass (km : List Byte) (lsn kid : Nat) (r : RawRead) : Bool :=
  !r.ue && decide (sectorMac km lsn kid (r.bytes.take 256) = sliceB r.bytes 280 8)

/-- A failed read: a MAC failure counts and is recorded; an uncorrectable chunk was counted by the read. `persist`: the re-reads have
failed as well (R306). -/
def State.noteFail (s : State) (p stack sec : Nat) (nme : Bool) (r : RawRead) (persist : Bool) : State :=
  if r.ue then (if persist then s.errLast stack sec 1 p true else s)
  else (s.bump (Reg.MEM_MAC_FAIL stack) Fld.MEM_MAC_FAIL_COUNT 1).errLast stack sec (if nme then 4 else 2) p persist

/-- The outcome of a sector read: its 256 bytes, and whether they verified. -/
structure SectorRead where
  bytes : List Byte
  ok : Bool
deriving DecidableEq, Repr

def ffBytes (n : Nat) : List Byte := List.replicate n 0xFF#8

/-- R270, R273: a keyed read of a sector under the key of a KID. `spec` is a speculative read (R269), `nme` a read in
a base die (R296). `p` is the partition that issued it. -/
def State.readSector (s : State) (errs : List ReadErr) (p : Nat) (spec nme : Bool) (kid lsn stack sec : Nat) :
    State × SectorRead :=
  if SMap.get (fun _ => false) s.poison (poisonKey stack sec) then
    ((s.errLast stack sec 3 p false).alarm p 3 stack, ⟨ffBytes 256, false⟩)
  else
    let (dk, tk, km) := memKeys (s.key (memSlot kid + 1)).key kid
    let s := (s.useKey (memSlot kid + 1)).1
    let dec (r : RawRead) : List Byte := Crypto.xtsDec dk tk lsn (r.bytes.take 256)
    let (s, r0) := s.readOnce errs p stack sec 0
    if macPass km lsn kid r0 then (s, ⟨dec r0, true⟩)
    else
      let cause := if r0.ue then 2 else if nme then 4 else 1
      let first := if r0.ue then ffBytes 256 else dec r0
      let s := (s.noteFail p stack sec nme r0 false).bump (Reg.MEM_REREAD stack) Fld.MEM_REREAD_COUNT 1
      let (s, r1) := s.readOnce errs p stack sec 1
      if macPass km lsn kid r1 then
        if spec then (s.alarm p cause stack, ⟨first, false⟩) else (s, ⟨dec r1, true⟩)
      else
        let s := (s.noteFail p stack sec nme r1 false).bump (Reg.MEM_REREAD stack) Fld.MEM_REREAD_COUNT 1
        let (s, r2) := s.readOnce errs p stack sec 2
        if macPass km lsn kid r2 then
          if spec then (s.alarm p cause stack, ⟨first, false⟩) else (s, ⟨dec r2, true⟩)
        else
          let s := ((s.noteFail p stack sec nme r2 true).alarm p cause stack).poisonSector stack sec
          (s, ⟨if spec then first else ffBytes 256, false⟩)

/-- R266, R267: encrypt and store a whole sector under the write slot of a KID. -/
def State.writeSector (s : State) (kid lsn stack sec : Nat) (plain : List Byte) : State :=
  let (dk, tk, km) := memKeys (s.key (memSlot kid)).key kid
  let cipher := Crypto.xtsEnc dk tk lsn plain
  let mac := sectorMac km lsn kid cipher
  (s.useKey (memSlot kid)).1.putRaw stack sec (cipher ++ eccBytes cipher mac ++ mac)

/-- R276: a requester of partition `p`, by its class in R277 and, where `i` is given, its index, waits for a tag: its transfer does not
complete yet. -/
def State.tagWait (s : State) (p cls : Nat) (i : Option Nat) : Bool :=
  (List.range (s.nstacks p)).any fun j => (s.stk (s.stack0 p + j)).waiting.any fun w => w.2.1 == cls && (i == none || i == some w.2.2.1)

/-! ## The region check (R532) -/

/-- A master's access: its ID (R529), direction, and the permission bit that R531 asks for. -/
structure Master where
  id : Nat
  write : Bool
  perm : Fld
deriving DecidableEq, Repr

/-- Whether entry `n` of the partition's table covers the bytes [o, o + len) (R530). -/
def State.rgnCovers (s : State) (p n o len : Nat) : Bool :=
  let w := Reg.TKEY_RGN_2 p n
  let b := 4096 * s.rn (Reg.TKEY_RGN_0 p n)
  let e := 4096 * s.rn (Reg.TKEY_RGN_1 p n) + 4096
  s.flag w Fld.TKEY_RGN_2_VALID &&
    (if s.flag w Fld.TKEY_RGN_2_MODE then
      (List.range (s.nstacks p)).any fun j => decide (s.localOff p j b ≤ o ∧ o + len ≤ s.localOff p j e)
    else decide (b ≤ o ∧ o + len ≤ e))

def State.rgnEntry (s : State) (p o len : Nat) : Option Nat :=
  (List.range 32).find? fun n => s.rgnCovers p n o len

/-- R491, R532: the code with which the state of a KID's pair refuses a keyed read or write of a partition, 0 where it binds. -/
def State.keyCode (s : State) (p kid : Nat) (write : Bool) : Nat :=
  let k := s.key (2 * kid + b2n (!write))
  if k.state = 2 then (if k.owned p then 0x08 else 0x14)
  else if k.state ≠ 1 then 0x01 else if k.owned p then 0 else 0x14

/-- R532: the code that refuses an access within one sector, 0 where it is admitted. `keyed` is false for WIPE
(R533). A joint partition has no `DO` and no `B` (R581). -/
def State.checkSector (s : State) (p : Nat) (m : Master) (keyed : Bool) (a len : Nat) : Nat :=
  if s.partState p = 5 then 0x19
  else match s.offset p a with
  | none => 0x10
  | some o =>
    if o + len > s.memSize p then 0x10 else
    match s.rgnEntry p o len with
    | none => 0x11
    | some n =>
      let w := Reg.TKEY_RGN_2 p n
      if keyed ∧ s.fget w Fld.TKEY_RGN_2_KID ≠ addrKid a then 0x12
      else if !s.flag w m.perm || (s.flag (Reg.PRT_STATE p) Fld.PRT_STATE_JOINT &&
          (m.perm == Fld.TKEY_RGN_2_DO || m.perm == Fld.TKEY_RGN_2_B)) then 0x13
      else if keyed then s.keyCode p (addrKid a) m.write else 0

/-- The 256-byte pieces of a run of device addresses: address, length (R532). -/
def sectorPieces (a len : Nat) : List (Nat × Nat) :=
  let first := min len (256 - a % 256)
  let rest := len - first
  (if first = 0 then [] else [(a, first)]) ++
    (List.range ((rest + 255) / 256)).map fun i => (a + first + 256 * i, min 256 (rest - 256 * i))

/-- Check every sector of a run; the first refused one is recorded (R547, R554) and decides the code. -/
def State.checkRun (s : State) (p : Nat) (m : Master) (keyed : Bool) (a len : Nat) : State × Nat :=
  match (sectorPieces a len).find? fun x => s.checkSector p m keyed x.1 x.2 != 0 with
  | none => (s, 0)
  | some x =>
    let c := s.checkSector p m keyed x.1 x.2
    (s.refuse p c m.id m.write ((s.offset p x.1).getD 0) (addrKid x.1), c)

/-! ## Runs of bytes -/

/-- Read one piece of a sector through the partition's key. -/
def State.readPiece (s : State) (errs : List ReadErr) (p : Nat) (spec nme : Bool) (a len : Nat) : State × SectorRead :=
  match s.offset p a with
  | none => (s, ⟨ffBytes len, false⟩)
  | some o =>
    let o := s.bankOff p o
    let x := s.place p o
    let y := s.readSector errs p spec nme (addrKid a) (o / 256) x.1 (x.2 / 256)
    (y.1, ⟨sliceB y.2.bytes (o % 256) len, y.2.ok⟩)

/-- Read a run of bytes that has passed the region check. Every sector is delivered; `ok` says whether all verified. -/
def State.readRun (s : State) (errs : List ReadErr) (p : Nat) (spec nme : Bool) (a len : Nat) : State × SectorRead :=
  (sectorPieces a len).foldl (fun (x : State × SectorRead) pc =>
    let y := x.1.readPiece errs p spec nme pc.1 pc.2
    (y.1, ⟨x.2.bytes ++ y.2.bytes, x.2.ok && y.2.ok⟩)) (s, ⟨[], true⟩)

/-- Write one piece of a sector: a whole sector, or a read–merge–write (R267). Answers whether it was performed. -/
def State.writePiece (s : State) (errs : List ReadErr) (p : Nat) (nme : Bool) (a : Nat) (v : List Byte) : State × Bool :=
  match s.offset p a with
  | none => (s, false)
  | some o =>
    let o := s.bankOff p o
    let x := s.place p o
    if v.length = 256 then (s.writeSector (addrKid a) (o / 256) x.1 (x.2 / 256) v, true)
    else
      let y := s.readSector errs p false nme (addrKid a) (o / 256) x.1 (x.2 / 256)
      if y.2.ok then (y.1.writeSector (addrKid a) (o / 256) x.1 (x.2 / 256) (patchB y.2.bytes (o % 256) v), true) else (y.1, false)

/-- Write a run of bytes that has passed the region check, stopping at the first sector whose merge failed when
`stop` is set. Answers whether every piece was performed. -/
def State.writeRun (s : State) (errs : List ReadErr) (p : Nat) (nme stop : Bool) (a : Nat) (v : List Byte) : State × Bool :=
  ((sectorPieces a v.length).foldl (fun (x : State × Bool × Nat) pc =>
    let chunk := (v.drop x.2.2).take pc.2
    if stop && !x.2.1 then x
    else
      let (s, ok) := x.1.writePiece errs p nme pc.1 chunk
      (s, x.2.1 && ok, x.2.2 + pc.2)) (s, true, 0)) |> fun x => (x.1, x.2.1)

/-! ## Masters of R529 and R531 -/

def mFetch : Master := ⟨0x10, false, Fld.TKEY_RGN_2_R⟩
def mCoreRd : Master := ⟨0x11, false, Fld.TKEY_RGN_2_R⟩
def mCoreWr : Master := ⟨0x11, true, Fld.TKEY_RGN_2_W⟩
def mNmeFetch : Master := ⟨0x12, false, Fld.TKEY_RGN_2_R⟩
def mNmeRd : Master := ⟨0x12, false, Fld.TKEY_RGN_2_N⟩
def mNmeWr : Master := ⟨0x12, true, Fld.TKEY_RGN_2_N⟩
def mUpdFetch : Master := ⟨0x13, false, Fld.TKEY_RGN_2_R⟩
def mUpdRec : Master := ⟨0x13, true, Fld.TKEY_RGN_2_W⟩
def mUpdRd : Master := ⟨0x13, false, Fld.TKEY_RGN_2_N⟩
def mUpdWr : Master := ⟨0x13, true, Fld.TKEY_RGN_2_N⟩
def mCkpRd : Master := ⟨0x14, false, Fld.TKEY_RGN_2_N⟩
def mCkpWr : Master := ⟨0x14, true, Fld.TKEY_RGN_2_N⟩
def mBarRd : Master := ⟨0x15, false, Fld.TKEY_RGN_2_B⟩
def mBarWr : Master := ⟨0x15, true, Fld.TKEY_RGN_2_B⟩
def mDmaIn (e : Nat) : Master := ⟨e, true, Fld.TKEY_RGN_2_DI⟩
def mDmaOut (e : Nat) : Master := ⟨e, false, Fld.TKEY_RGN_2_DO⟩

/-! ## Core SRAM -/

/-- Bytes of a physical core's SRAM from a byte address on, within the core's 8 MiB (R136, R208). -/
def sramKey (core b : Nat) : Nat := core * 8388608 + b % 8388608

def State.sramRd (s : State) (core b len : Nat) : List Byte :=
  (List.range len).map fun i => SMap.get (fun _ => 0#8) s.cores.sram (sramKey core (b + i))

/-- Bytes stored in a core's SRAM. A 64-bit word that is written whole is correctable again (R237). -/
def State.sramPut (s : State) (core b : Nat) (v : List Byte) : State :=
  let a := b % 8388608
  let n := 8388608 - a
  let m := SMap.setRun (fun _ => 0#8) s.cores.sram (sramKey core b) (v.take n)
  let w := core * 1048576
  let ue := SMap.clear s.cores.ueWords (w + (a + 7) / 8) (w + (a + (v.take n).length) / 8)
  { s with cores := { s.cores with
    sram := SMap.setRun (fun _ => 0#8) m (core * 8388608) (v.drop n), ueWords := SMap.clear ue w (w + (v.drop n).length / 8) } }

/-- R158: while the stream runs, what a transfer-port write replaces is kept until the beat has passed: the compute port reads it. -/
def State.keepOld (s : State) (core b len : Nat) : State :=
  let p := s.partOfQuad (core / 34)
  if p = 0 ∨ s.stopped p then s
  else s.setSq p { s.sq p with before := (s.sq p).before ++ [(sramKey core b, s.sramRd core b len)] }

/-- R158: a transfer-port write of core SRAM. It takes effect in the beat in progress, in which the compute port's reads return the words
before it and the words that the compute port writes stand. -/
def State.sramWr (s : State) (core b : Nat) (v : List Byte) : State :=
  let p := s.partOfQuad (core / 34)
  let w := if s.stopped p then [] else (s.sq p).cwords
  let v' := if w.isEmpty then v else List.zipWith (fun i x =>
    if w.contains (sramKey core (b + i) / 32) then SMap.get (fun _ => 0#8) s.cores.sram (sramKey core (b + i)) else x) (List.range v.length) v
  (s.keepOld core b v.length).sramPut core b v'

/-- R158: the byte at an index of the SRAM array as the compute port of partition `p` reads it in the beat in progress. -/
def Seq.portByte (q : Seq) (k : Nat) : Option Byte :=
  (q.before.find? fun r => decide (r.1 ≤ k ∧ k < r.1 + r.2.length)).map fun r => r.2.getD (k - r.1) 0#8

end Sys2Proof.Machine
end

