-- ==== Sys2Proof/Machine/Operands.lean ====
section
/-! DEFINITION. The operand forms: bundle headers and slots (R114 to R130, R150), gate conditions (R176, R177),
micro-ops (R139 to R147), format codes in force, and reduction-buffer addresses (R404 to R406). -/

namespace Sys2Proof.Machine

/-! ## Bundles -/

abbrev Bundle := BitVec 512

def bun (b : Bundle) (lo w : Nat) : Nat := bitsOf b.toNat lo w
/-- Bits of the CTL, GRP and XFER slots (R114). -/
def ctlB (b : Bundle) (lo w : Nat) : Nat := bun b (32 + lo) w
def grpB (b : Bundle) (lo w : Nat) : Nat := bun b (192 + lo) w
def xferB (b : Bundle) (lo w : Nat) : Nat := bun b (352 + lo) w

def bType (b : Bundle) : Nat := bun b 0 3
def bExec : Nat := 0
def bMark : Nat := 1
def bSlack : Nat := 2
def bEnd : Nat := 3
def bStepStart (b : Bundle) : Bool := bun b 4 1 == 1
def bTrace (b : Bundle) : Bool := bun b 5 1 == 1
def bBrk (b : Bundle) : Bool := bun b 6 1 == 1
def bGref (b : Bundle) : Nat := bun b 8 6
def bCtlV (b : Bundle) : Bool := bun b 14 1 == 1
def bGrpV (b : Bundle) : Bool := bun b 15 1 == 1
def bXferV (b : Bundle) : Bool := bun b 16 1 == 1

/-- `COP` of an EXEC bundle; NOP where no CTL slot is present. -/
def bCop (b : Bundle) : Nat := ctlB b 0 4
/-- `XOP` of an EXEC bundle. -/
def bXop (b : Bundle) : Nat := xferB b 0 4
def bCset (b : Bundle) : Nat := xferB b 4 5

/-- Beats a bundle occupies at its full length (R118). -/
def bBeats (b : Bundle) : Nat :=
  if bType b = bExec ∧ bCtlV b ∧ bCop b = 1 then ctlB b 4 16 + 1
  else if bType b = bSlack then ctlB b 0 16 + 1 else 1

/-- A start descriptor of R130, as 80 bits. -/
def startBits (b : Bundle) (i : Nat) : Nat := grpB b (80 * i) 80

/-- R116, R130: whether a start's reserved bits are 0, and all of it when `V` is 0. Bits [74:69] are reserved in
start 0. -/
def startForm (x i : Nat) : Bool :=
  if bitsOf x 0 1 = 0 then x == 0 else bitsOf x 75 5 == 0 && (i != 0 || bitsOf x 69 6 == 0)

/-- First reserved bit of the CTL slot by `COP` (R120). -/
def ctlEnd (cop : Nat) : Nat :=
  match cop with | 0 => 4 | 1 => 20 | 2 => 20 | 3 => 62 | 4 => 40 | _ => 160
/-- First reserved bit of the XFER slot by `XOP` (R150). -/
def xferEnd (xop : Nat) : Nat :=
  match xop with | 0 => 4 | 1 => 131 | 2 => 131 | 3 => 85 | 4 => 76 | 5 => 64 | 6 => 127 | 7 => 65 | _ => 160

/-- R177, R178: whether a condition word has a defined type and no reserved bit set. -/
def condForm (w : Nat) : Bool :=
  match bitsOf w 0 4 with
  | 0 => w == 0
  | 1 => w / 512 == 0
  | 2 => w / 33554432 == 0
  | 3 => w / 1048576 == 0
  | 4 => w / 67108864 == 0
  | 5 => w / 67108864 == 0
  | _ => false

/-- The ten condition words of a MARK bundle; those of an absent slot are 0 (R176). -/
def condWord (b : Bundle) (k : Nat) : Nat := if k < 5 then grpB b (32 * k) 32 else xferB b (32 * (k - 5)) 32

/-- R115, R116, R120, R130, R150, R178: the fault that a bundle's form raises, 0 for none. -/
def bundleForm (b : Bundle) : Nat :=
  let t := bType b
  if t > 3 then fBtypeUndef
  else if t = bExec ∧ bCtlV b ∧ bCop b > 4 then fBtypeUndef
  else if t = bExec ∧ bXferV b ∧ bXop b > 7 then fBtypeUndef
  else if t = bMark ∧ ctlB b 34 2 = 3 then fBtypeUndef
  else
    let hdr := bun b 3 1 == 0 && bun b 7 1 == 0 && bun b 17 15 == 0
    let absent := (bCtlV b || ctlB b 0 160 == 0) && (bGrpV b || grpB b 0 160 == 0) && (bXferV b || xferB b 0 160 == 0)
    let slots :=
      if t = bExec then
        !bStepStart b && !bBrk b && (!bCtlV b || ctlB b (ctlEnd (bCop b)) (160 - ctlEnd (bCop b)) == 0) &&
        (!bGrpV b || (startForm (startBits b 0) 0 && startForm (startBits b 1) 1)) &&
        (!bXferV b || xferB b (xferEnd (bXop b)) (160 - xferEnd (bXop b)) == 0)
      else if t = bMark then
        bGref b == 0 && bCtlV b && ctlB b 36 124 == 0 && (List.range 10).all fun k => condForm (condWord b k)
      else
        !bStepStart b && !bBrk b && bGref b == 0 && bCtlV b && !bGrpV b && !bXferV b &&
        ctlB b (if t = bSlack then 16 else 17) (if t = bSlack then 144 else 143) == 0
    if hdr && absent && slots then 0 else fSlotForm

/-- The memory image's bytes as a bundle (R107, R114). -/
def bundleOf (bytes : List Byte) : Bundle := BitVec.ofNat 512 (leNat bytes)

/-! ## Core groups (R127 to R129) -/

/-- Partition cores of group `g`, ascending. -/
def State.group (s : State) (p g : Nat) : List Nat :=
  (List.range (s.ncores p)).filter fun c => bitOf (s.rn (Reg.SEQ_GRP p g (c / 32))) (c % 32)

/-- R129: the number of set mask bits below a core's bit. -/
def State.rank (s : State) (p g c : Nat) : Nat := ((s.group p g).filter fun d => decide (d < c)).length

/-! ## Micro-ops -/

/-- Bits of a micro-op. -/
def mop (m lo w : Nat) : Nat := bitsOf m lo w
def mopOpc (m : Nat) : Nat := bitsOf m 0 6
def mopBeats (m : Nat) : Nat := bitsOf m 6 6 + 1

/-- The micro-op of a replay entry (R131); units 0 to 7 ME, 8 VE, 9 SE. -/
def State.replayAt (s : State) (core u n : Nat) : Nat :=
  (SMap.get (fun _ => 0#64) s.cores.replay ((core * 16 + u) * 2048 + n)).toNat

/-- R135: stride `k` of a unit's stride table. -/
def State.stride (s : State) (core u k : Nat) : Nat :=
  bitsOf (s.replayAt core u 2046 + 2 ^ 64 * s.replayAt core u 2047) (16 * k) 16

/-- R136: the effective value of an address field with its stride selector. -/
def State.effAddr (s : State) (core u trip field sel range : Nat) : Nat :=
  (field + trip * s.stride core u sel) % range

/-- R135, R137: field of tensor-table entry `t` of a vector engine. -/
def State.tensorEnt (s : State) (core t : Nat) : Nat :=
  s.replayAt core 8 (2016 + 2 * t) + 2 ^ 64 * s.replayAt core 8 (2017 + 2 * t)
def State.tensorId (s : State) (core t : Nat) : Nat := bitsOf (s.tensorEnt core t) 0 32
/-- R137: the element index of lane 0. -/
def State.elemBase (s : State) (core t rank trip : Nat) : Nat :=
  let e := s.tensorEnt core t
  (bitsOf e 32 32 + rank * bitsOf e 64 16 + trip * bitsOf e 80 16) * 512

/-! ## Format tables and stochastic draws -/

/-- R103, R104: format table `n` of a partition. -/
def State.fmtTable (s : State) (p n : Nat) : FmtTable where
  valid := s.flag (Reg.FMT_TBL_HDR p n) Fld.FMT_TBL_HDR_VALID
  wide := s.flag (Reg.FMT_TBL_HDR p n) Fld.FMT_TBL_HDR_WIDTH
  xoff := signed 8 (s.fget (Reg.FMT_TBL_HDR p n) Fld.FMT_TBL_HDR_XOFF)
  ents := (List.range 64).map fun k => bitsOf (s.rn (Reg.FMT_TBL_ENT p n (k / 4))) (8 * (k % 4)) 8

/-- R63: the format of a 5-bit code, none where it is undefined. -/
def State.fmt (s : State) (p code : Nat) : Option Fmt := fmtOf (s.fmtTable p) code

/-- R88: the step number. -/
def State.stepNo (s : State) (p : Nat) : Nat := s.rd64 (Reg.UPD_STEP_LO p) % 2 ^ 48

/-- R86: the draw of an element. -/
def State.srDraw (s : State) (p tid elem : Nat) : Nat :=
  let key := (List.range 4).flatMap fun k => leBytes 4 (s.rn (Reg.FMT_SR_SEED p k))
  let c := tid % 2 ^ 32 * 2 ^ 96 + s.stepNo p * 2 ^ 48 + elem % 2 ^ 48 / 8 * 8
  leAt (Crypto.aesEnc key (leBytes 16 c)) (2 * (elem % 8)) 2

/-! ## Reduction buffers (R404 to R406) -/

/-- The rotation region that a unit address lies in: base, chunk length, chunk count, rotation. -/
def State.rotRegion (s : State) (p u : Nat) : Option (Nat × Nat × Nat × Nat) :=
  ((List.range 4).map fun n => (s.fget (Reg.COL_ROT_0 p n) Fld.COL_ROT_0_BASE, s.fget (Reg.COL_ROT_1 p n) Fld.COL_ROT_1_LEN,
    s.fget (Reg.COL_ROT_2 p n) Fld.COL_ROT_2_N, s.fget (Reg.COL_ROT_2 p n) Fld.COL_ROT_2_ROT)).find? fun r =>
      decide (r.1 ≤ u ∧ u < r.1 + r.2.1 * r.2.2.1)

/-- R404, R405: the rotated unit address of an access of `len` units at buffer `rb`, offset `off`; none where it
leaves its chunk or its buffer. -/
def State.rbAddr (s : State) (p rb off len : Nat) : Option Nat :=
  let u := rb * 2048 + off
  match s.rotRegion p u with
  | none => if off + len ≤ 2048 then some u else none
  | some (base, l, n, rot) =>
    let v := base + ((u - base) + rot * l) % (n * l)
    if (u - base) % l + len ≤ l ∧ v % 2048 + len ≤ 2048 then some v else none

/-- R406: the partition core and the SRAM byte address of a unit address. -/
def State.rbPlace (s : State) (p u : Nat) : Nat × Nat :=
  let c := s.ncores p
  let b := u / 2048
  (b % c, (s.fget (Reg.COL_RB_BASE p) Fld.COL_RB_BASE_UNIT + b / c * 2048 + u % 2048) * 32)

/-- R441: the target of a logical port: 0 to 15 a physical port, 16 LOOP, 17 NULL. -/
def State.portMap (s : State) (p l : Nat) : Nat := bitsOf (s.rn (Reg.COL_PORTMAP p (l / 4))) (8 * (l % 4)) 5

end Sys2Proof.Machine
end

