-- ==== Sys2Proof/Machine/SeqOps.lean ====
section
/-! DEFINITION. Time inside one partition's stream. A beat passes when something is due in it: an event may run only
when nothing earlier is outstanding (`canRun`), and `advance` moves the beat counter to it (R159: the beat of every
unit's every micro-op is fixed by the program). -/

namespace Sys2Proof.Machine

def runKey (core u : Nat) : Nat := core * 16 + u

/-- A body whose last trip is over (R131). -/
def Run.done (r : Run) : Bool := decide (r.tripm1 < r.trip)

def State.runOf (s : State) (core u : Nat) : Option Run := SMap.get (fun _ => none) s.cores.runs (runKey core u)
def State.setRun (s : State) (core u : Nat) (r : Option Run) : State :=
  { s with cores := { s.cores with runs := SMap.set (fun _ => none) s.cores.runs (runKey core u) r } }

/-- The sequencer issues or waits at a gate: every state but STOPPED, LOADING and FAULT. -/
def State.live (s : State) (p : Nat) : Bool :=
  let st := s.seqState p
  st == seqGateWait || st == seqRunning || st == seqBrkHold || st == seqStopping

def Seq.opsDue (q : Seq) : Bool := q.ctlDue || q.grp0Due || q.grp1Due || q.xferDue

/-- Every beat at which something of the partition is due, the copy of a LOOP window among it (R402); an episode of lateness that LATE has reached begins at this
boundary (R190). Of a stopped stream, landings and copies alone are left. -/
def State.dueBeats (s : State) (p : Nat) : List Nat :=
  let q := s.sq p
  q.mesh.map (·.beat) ++ (((s.win p).tx.filter fun (x : TxWin) => x.met.isSome).map fun (x : TxWin) => x.due) ++
    if s.stopped p then [] else
      (if q.opsDue then [q.beat] else []) ++ (if s.live p && q.ended.isNone then [q.issue] else []) ++
        q.starts.map (·.beat) ++ (s.partRuns p).map (·.2.beat) ++
        (if s.live p && decide (s.rn (Reg.SEQ_CATCHUP_LIMIT p) < s.rn (Reg.SEQ_LATE p)) &&
            !s.flag (Reg.SEQ_LATE_STAT p) Fld.SEQ_LATE_STAT_LOST then [q.beat] else [])

/-- An event of beat `b` may run: the data plane is not halted, nothing earlier is outstanding, and no single-step
hold stands before it (R47). -/
def State.canRun (s : State) (p b : Nat) : Bool :=
  !s.halted && (s.dueBeats p).all (fun d => decide (b ≤ d)) && decide ((s.sq p).beat ≤ b) &&
    (!s.flag Reg.DBG_STEP_CTRL Fld.DBG_STEP_CTRL_HOLD || decide (b ≤ (s.sq p).beat + (s.sq p).credit))

/-- A result lands (R219, R220). -/
def State.land (s : State) (d : LandDst) : State :=
  match d with
  | .sram k v => s.sramPut (k / 8388608) (k % 8388608) v
  | .acc k w => { s with cores := { s.cores with
      acc := SMap.setRun (fun _ => 0#32) s.cores.acc k (w ++ List.replicate (128 - w.length) 0#32)
      accCls := SMap.set (fun _ => 128) s.cores.accCls (k / 128) w.length } }
  | .vreg k w => { s with cores := { s.cores with vreg := SMap.setRun (fun _ => 0#32) s.cores.vreg k w } }
  | .plane k x => { s with cores := { s.cores with planes := SMap.set (fun _ => {}) s.cores.planes k x } }

/-- The banks that WLOAD fills in progress at beat `b` read (R210), by bank key and filling unit. -/
def State.fillPorts (s : State) (p b : Nat) : List (Nat × Nat) :=
  s.cores.fills.filterMap fun e => match e.2 with
    | some (start, bank) =>
      if s.partOfQuad (e.1 / 8 / 34) = p ∧ start ≤ b ∧ b < start + 16 then
        some (e.1 / 8 * 16 + bank, e.1 / 8 * 32 + 16 + e.1 % 8) else none
    | none => none

/-- Bundles of a period (R117). -/
def Period.len (x : Period) : Nat := ctlB (x.bundles.headD 0#512) 0 18 + 1

/-- The bundle that issues next in the current period, while one does. In the beat in which the stream faults, the bundle of that beat
is still met (R160). -/
def State.nextBundle (s : State) (p : Nat) : Option Bundle :=
  let q := s.sq p
  if (s.seqState p == seqRunning || s.seqState p == seqStopping || (s.faultIn p && q.issue == q.beat)) && q.ended.isNone &&
      decide (q.pos + 1 < q.cur.len) then
    q.cur.bundles[q.pos + 1]?
  else none

def insertBy {α : Type} (le : α → α → Bool) (x : α) : List α → List α
  | [] => [x]
  | y :: t => if le x y then x :: y :: t else y :: insertBy le x t
/-- A stable sort. -/
def sortBy {α : Type} (lt : α → α → Bool) (l : List α) : List α := l.reverse.foldl (fun acc x => insertBy (fun a b => !lt b a) x acc) []

/-- The results due by beat `b` land, each after those that land in earlier beats. -/
def State.landDue (s : State) (p b : Nat) : State :=
  let q := s.sq p
  let s1 := (sortBy (fun (x y : Land) => decide (x.beat < y.beat)) (q.lands.filter fun l => decide (l.beat ≤ b))).foldl
    (fun s l => s.land l.dst) s
  s1.setSq p { s1.sq p with lands := q.lands.filter fun l => decide (b < l.beat) }

/-- The 32-byte words of core SRAM that a result writes. -/
def LandDst.words (d : LandDst) : List Nat :=
  match d with
  | .sram k v => (List.range ((k % 32 + v.length + 31) / 32)).map (k / 32 + ·)
  | _ => []

/-- R118: the beat in period that stands at beat `b`: that of the bundle occupying it, or of the period's last beat. -/
def State.bipAt (s : State) (p b : Nat) : Nat :=
  let q := s.sq p
  (if (s.nextBundle p).isSome then b else min b (q.issue - 1)) - q.start

/-- Move the partition's time to beat `b`: results due by then land, the ports of the new beat are free but for the
fills, the elapsed beats are metered (R756), and those that bundles occupied are counted (R118, R170). A stream in FAULT lets
go of what its last beat left undone. -/
def State.advance (s : State) (p b : Nat) : State :=
  let fresh := b != (s.sq p).beat
  let s := if fresh && s.seqState p == seqFaulted then s.abandon p none else s
  let q := s.sq p
  let s1 := s.landDue p b
  let s2 := s1.setSq p { s1.sq p with
    beat := b, credit := q.credit - (b - q.beat), waitBeat := q.waitBeat && !fresh
    ports := if fresh then s.fillPorts p b else q.ports, before := if fresh then [] else q.before
    cwords := if fresh then (q.lands.filter fun l => l.beat == b).flatMap fun l => l.dst.words else q.cwords }
  let issued := if s.live p then min b q.issue - q.beat - b2n (q.waitBeat && fresh) else 0
  let s3 := ((s2.bump64 (Reg.SEQ_BEATS_LO p) issued).count p 0x01 16 0 issued).meter p 0
    (if s.live p then (b - q.beat) * s.ncores p else 0)
  if s.seqState p = seqRunning ∨ s.seqState p = seqStopping then s3.fput (Reg.SEQ_BIP p) Fld.SEQ_BIP_BIP (s.bipAt p b) else s3

/-- What the pipelines still hold when a stopped stream starts again: its results have landed and its fills have ended. -/
def State.settleStream (s : State) (p : Nat) : State :=
  let s1 := (s.sq p).lands.foldl (fun (s : State) l => s.landDue p l.beat) s
  { s1 with cores := { s1.cores with fills := s1.cores.fills.filter fun e => s1.partOfQuad (e.1 / 8 / 34) != p } }

/-- A result on its way; a stream that has faulted sends none (R160). -/
def State.sched (s : State) (p b : Nat) (d : LandDst) : State :=
  if s.stopped p then s else s.setSq p { s.sq p with lands := (s.sq p).lands ++ [⟨b, d⟩] }

/-- R210: `u` (bit-unique in its core) uses the compute ports of banks of a core in the current beat, or the unit that it meets
there. A fill is 16 + its engine. -/
def State.usePorts (s : State) (p core : Nat) (banks : List Nat) (u : Nat) : Except Nat State :=
  let q := s.sq p
  let me := core * 32 + u
  match (q.ports.filter fun x => x.2 != me && banks.any fun bk => x.1 == core * 16 + bk).map fun x => x.2 % 16 with
  | [] => .ok (s.setSq p { q with ports := banks.map (fun bk => (core * 16 + bk, me)) ++ q.ports })
  | h :: t => .error (t.foldl min h)

/-! ## Bodies -/

/-- R154: an outstanding RLOAD of a unit whose entries meet [a, a + n). -/
def State.rloadMeets (s : State) (p core u a n : Nat) : Bool :=
  (s.sq p).xfers.any fun x => x.kind == .rload && x.core == core && bitOf x.umask u &&
    decide (x.addr < a + n ∧ a < x.addr + x.len / 8)

/-- The units that a start selects, in the order in which faults rank (R161): core ascending, then ME0 to SE. -/
def State.startUnits (s : State) (p : Nat) (x : Start) : List (Nat × Nat) :=
  (s.group p x.group).flatMap fun c => ((List.range 10).filter fun u => bitOf x.umask u).map fun u => (c, u)

/-- R131: whether a body still occupies its unit in beat `b`. -/
def Run.busy (r : Run) (b : Nat) : Bool := !r.done || decide (b < r.beat)

/-- R134: the first beat in which no body of the period may be at work: its first SLACK beat, or the one after its last. -/
def Seq.bodyLimit (q : Seq) : Nat :=
  q.start + ((q.cur.bundles.take q.cur.len).takeWhile fun b => bType b != bSlack).foldl (fun n b => n + bBeats b) 0

/-- R134, R161: of the bodies that have not ended with the beat before `b`, and of the starts that have not begun, the one that ranks
lowest: core, unit and the bundle that started it. -/
def State.unended (s : State) (p b : Nat) : Option (Nat × Nat × Nat) :=
  let runs := ((s.partRuns p).filter fun x => x.2.busy b).map fun x => (x.2.core, x.1 % 16, x.2.pc)
  let waits := (s.sq p).starts.flatMap fun x => (s.startUnits p x).map fun cu => (cu.1, cu.2, x.pc)
  match runs ++ waits with
  | [] => none
  | h :: t => some (t.foldl (fun x y => if 16 * y.1 + y.2.1 < 16 * x.1 + x.2.1 then y else x) h)

/-- R134: at the beat after the last one allowed, a body that has not ended is the fault BODY_OVERRUN. -/
def State.overrun (s : State) (p : Nat) : Option State :=
  (s.unended p (s.sq p).beat).map fun x => s.beatFault p fBodyOverrun x.1 x.2.1 x.2.2

/-! ## Lateness (R183 to R191) -/

/-- R201: the announcements that await a sample. -/
def State.setAnnQ (s : State) (p : Nat) (l : List Bool) (announced : Bool) : State :=
  (s.setSq p { s.sq p with annQ := l, announced := announced }).fput (Reg.SEQ_LATE_STAT p) Fld.SEQ_LATE_STAT_ANN_PEND (b2n !l.isEmpty)

/-- R190 to R192: start or end a schedule-lost episode by LATE and the limit, at a boundary. Whether an episode is announced is settled
as it begins, by the tag in force and the peers' holds: one that begins with TAG 0 is never announced, though a tag comes while it
lasts (DESIGN CHOICE, log 43: the spec does not say). -/
def State.lostCheck (s : State) (p : Nat) : State :=
  let late := s.rn (Reg.SEQ_LATE p)
  let lim := s.rn (Reg.SEQ_CATCHUP_LIMIT p)
  let st := Reg.SEQ_LATE_STAT p
  let q := s.sq p
  if late > lim ∧ !s.flag st Fld.SEQ_LATE_STAT_LOST then
    let peer := s.flag (Reg.SEQ_PEER_LATE p) Fld.SEQ_PEER_LATE_ACTIVE
    let s1 := (s.fput st Fld.SEQ_LATE_STAT_LOST 1).fput st Fld.SEQ_LATE_STAT_PEER_CAUSED (b2n peer)
    let ann := !peer && q.tag != 0
    let s2 := s1.setAnnQ p (if ann then q.annQ ++ [true] else q.annQ) ann
    let s3 := (s2.bump (Reg.SEQ_SLOST_COUNT p) Fld.SEQ_SLOST_COUNT_COUNT 1).irqSeq p Fld.SEQ_INT_STATUS_SCHED_LOST
    s3.sepiaRec (unitSeq p) 0x12 p (s3.rn st % 8)
  else if late ≤ lim ∧ s.flag st Fld.SEQ_LATE_STAT_LOST then
    (s.fput st Fld.SEQ_LATE_STAT_LOST 0).setAnnQ p (if q.announced then q.annQ ++ [false] else q.annQ) false
  else s

/-- R191: at a boundary at which LATE is at most the limit, an episode is over. -/
def State.lostEnd (s : State) (p : Nat) : State :=
  if s.rn (Reg.SEQ_LATE p) ≤ s.rn (Reg.SEQ_CATCHUP_LIMIT p) then s.lostCheck p else s

/-- LATE takes a value (R183, R199). The value that stands when an RC read clears `SEQ_LATE_MAX` is among those since the read (DEDUCED,
log 43): it counts when LATE leaves it, and `State.vfShown` counts the one that stands now. -/
def State.setLate (s : State) (p v : Nat) : State :=
  (s.wn (Reg.SEQ_LATE_MAX p) (max (s.rn (Reg.SEQ_LATE_MAX p)) (max (s.rn (Reg.SEQ_LATE p)) v))).wn (Reg.SEQ_LATE p) v

/-! ## Rings (R224 to R233) -/

/-- The index of ring `r` of partition core `c`. -/
def ringIdx (c r : Nat) : Nat := 16 * c + r

structure Ring where
  kind : Nat
  n : Nat
  rsz : Nat
  base : Nat
  prod : Nat
  cons : Nat
  eod : Bool
  peerCore : Nat
  peerRing : Nat
deriving DecidableEq, Repr

/-- R338: an advancing index past its held one. -/
def ringKey (p i : Nat) : Nat := 2048 * p + i
def State.ringAhead (s : State) (p i : Nat) : Nat := SMap.get (fun _ => 0) s.ringAdv (ringKey p i)
def State.setAhead (s : State) (p i v : Nat) : State :=
  { s with ringAdv := SMap.set (fun _ => 0) s.ringAdv (ringKey p i) v }

/-- A ring with the indices that its stream engine sees (R338). -/
def State.ring (s : State) (p i : Nat) : Ring :=
  let c := Reg.SEQ_RING_CFG p i
  let kind := s.fget c Fld.SEQ_RING_CFG_TYPE
  let d := s.ringAhead p i
  { kind := kind, n := 2 ^ s.fget c Fld.SEQ_RING_CFG_LOG2N,
    rsz := 32 * (s.fget c Fld.SEQ_RING_CFG_RSZM1 + 1), base := s.rd64 (Reg.SEQ_RING_BASE_LO p i),
    prod := (s.rn (Reg.SEQ_RING_PROD p i) + if kind = 2 then d else 0) % 4294967296,
    cons := (s.rn (Reg.SEQ_RING_CONS p i) + if kind = 1 then d else 0) % 4294967296,
    eod := s.flag (Reg.SEQ_RING_CTRL p i) Fld.SEQ_RING_CTRL_EOD,
    peerCore := s.fget c Fld.SEQ_RING_CFG_PEER_CORE, peerRing := s.fget c Fld.SEQ_RING_CFG_PEER_RING }

/-- R225: the fill of a ring. -/
def Ring.fill (r : Ring) : Nat := (r.prod + 4294967296 - r.cons) % 4294967296

/-- The ring that holds the indices: for a QUEUE_OUT slot, the QUEUE_IN slot it names (R226). -/
def State.ringHome (s : State) (p i : Nat) : Nat :=
  let r := s.ring p i
  if r.kind = 4 then ringIdx r.peerCore r.peerRing else i

/-- R177: records in a ring, or end-of-data; free places in a ring. -/
def State.ringFill (s : State) (p c r n : Nat) : Bool :=
  let x := s.ring p (ringIdx c r)
  decide (n ≤ x.fill) || x.eod
def State.ringSpace (s : State) (p c r n : Nat) : Bool :=
  let x := s.ring p (s.ringHome p (ringIdx c r))
  decide (n ≤ x.n - x.fill)

/-! ## Gates (R176 to R181) -/

/-- Whether a condition word is true now. A FENCE condition on a fence at or beyond the partition's count is never true: the spec names
no value and no fault there (DESIGN CHOICE, log 43). -/
def State.condTrue (s : State) (p w : Nat) : Bool :=
  match bitsOf w 0 4 with
  | 1 => s.cset p (bitsOf w 4 5) == 0
  | 2 => decide (s.cset p (bitsOf w 4 5) ≤ bitsOf w 9 16)
  | 3 => let f := Reg.FEN_F p (bitsOf w 4 16)
         s.hasFence p (bitsOf w 4 16) && s.flag f Fld.FEN_F_SIG && s.fget f Fld.FEN_F_ERR == 0
  | 4 => (s.group p (bitsOf w 4 6)).all fun c => s.ringFill p c (bitsOf w 10 4) (bitsOf w 14 12 + 1)
  | 5 => (s.group p (bitsOf w 4 6)).all fun c => s.ringSpace p c (bitsOf w 10 4) (bitsOf w 14 12 + 1)
  | _ => true

/-- The mark of the waiting period. -/
def Seq.mark (q : Seq) : Bundle := q.nxt.bundles.headD 0#512

/-- The explicit conditions that are false, as a mask (R202). -/
def State.condFalse (s : State) (p : Nat) (b : Bundle) : Nat :=
  (List.range 10).foldl (fun m k => if s.condTrue p (condWord b k) then m else m + 2 ^ k) 0

/-- R165: the waiting mark is a breakpoint that has not been released. -/
def State.brkHolds (s : State) (p : Nat) : Bool :=
  let q := s.sq p
  q.nxt.ready && bBrk q.mark && s.flag (Reg.SEQ_CTRL p) Fld.SEQ_CTRL_BRK_EN && !q.resumed

/-- Everything that holds the waiting gate closed, coded as `SEQ_GATE_STAT.LAST`: bits 0 to 9 explicit conditions, 10
residency, 11 the commit decision, 12 a breakpoint or STOP, 13 a sag (R646, which the register does not show). -/
def State.gateFalse (s : State) (p : Nat) : Nat :=
  let q := s.sq p
  (if q.nxt.ready then s.condFalse p q.mark else 0) + (if q.nxt.ready then 0 else 1024) +
    (if q.afterCommit then 2048 else 0) + (if s.brkHolds p || q.stopPend then 4096 else 0) +
    (if s.flag Reg.PWR_SAG_STAT Fld.PWR_SAG_STAT_ACTIVE then 8192 else 0)

/-- R110, R117: the fault that the period behind a mark raises when its gate is evaluated, 0 for none. `pmax` is the
bundle limit. The list holds the period and the bundle after it, where the image has one. -/
def periodFault (l : List Bundle) (pmax : Nat) : Nat :=
  match l with
  | [] => fPlenRange
  | m :: rest =>
    let f := bundleForm m
    if f = fBtypeUndef then f
    else if bType m ≠ bMark then fPlenRange
    else if f ≠ 0 then f
    else
      let n := ctlB m 0 18 + 1
      let body := rest.take (n - 1)
      -- position of each kind: EXEC, then SLACK, then END last; undefined types fault when they issue (R270)
      let order (x : Bundle) : Nat := if bType x = bExec ∨ bType x > 3 then 0 else if bType x = bSlack then 1 else
        if bType x = bEnd then 2 else 3
      let sorted := (List.zip body (body.drop 1)).all fun x => decide (order x.1 ≤ order x.2 ∧ order x.1 < 2)
      let noMark := body.all fun x => bType x != bMark
      let ends := (body.getLast?.map bType) == some bEnd
      let next := ends || (rest.drop (n - 1)).head?.map bType == some bMark
      if n > pmax ∨ body.length < n - 1 ∨ !sorted ∨ !noMark ∨ !next ∨ (l.take n).foldl (fun a b => a + bBeats b) 0 > 1048576
      then fPlenRange else 0

/-- The fault of the waiting period, once resident. -/
def State.gateFault (s : State) (p : Nat) : Nat :=
  let q := s.sq p
  if q.nxt.ready then periodFault q.nxt.bundles (s.fget (Reg.SEQ_ISRAM p) Fld.SEQ_ISRAM_PMAX) else 0

/-! ## Fetching periods (R107, R109, R111) -/

/-- `SEQ_IMG_BASE` as a device address. -/
def State.imgBase (s : State) (p : Nat) : Nat := s.rd64 (Reg.SEQ_IMG_BASE_LO p)

/-- Fetch `n` bundles from index `i`: the code of a refused access (0 none), and the bundles. -/
def State.fetch (s : State) (errs : List ReadErr) (p i n : Nat) : State × Nat × List Bundle :=
  let a := s.imgBase p + 64 * i
  let (s, code) := s.checkRun p mFetch true a (64 * n)
  if code ≠ 0 then (s, code, [])
  else
    let (s, r) := s.readRun errs p false false a (64 * n)
    (s, 0, (chunksOf 64 n r.bytes).map bundleOf)

/-- Fill the other half of the instruction SRAM with the period at `nxt.idx`: its bundles and the one that follows.
A fetch at or beyond `NBUNDLE` faults IMG_BOUND, a refused one RANGE (R161, R547). -/
def State.fillNext (s : State) (errs : List ReadErr) (p : Nat) : State :=
  let q := s.sq p
  let i := q.nxt.idx
  if q.nbundle ≤ i then s.seqFault p fImgBound 0xFF 15 i
  else
    let (s1, c1, l1) := s.fetch errs p i 1
    if c1 ≠ 0 then s1.seqFault p fRange 0xFF 15 i
    else
      let n := if bType (l1.headD 0#512) = bMark then ctlB (l1.headD 0#512) 0 18 + 1 else 1
      if n > s.fget (Reg.SEQ_ISRAM p) Fld.SEQ_ISRAM_PMAX then
        s1.setSq p { s1.sq p with nxt := { idx := i, bundles := l1, ready := true } }
      else if q.nbundle < i + n then s1.seqFault p fImgBound 0xFF 15 (q.nbundle)
      else
        let m := min (n + 1) (q.nbundle - i)
        let (s2, c2, l2) := s1.fetch errs p i m
        if c2 ≠ 0 then s2.seqFault p fRange 0xFF 15 i
        else s2.setSq p { s2.sq p with nxt := { idx := i, bundles := l2, ready := true } }

/-- The operation of the current period's bundles by `COP`, where it has one. -/
def Period.loopOf (x : Period) : Option LoopRec :=
  ((x.bundles.take x.len).find? fun b => bType b == bExec && bCtlV b && bCop b == 3).map fun b =>
    ⟨ctlB b 4 2, ctlB b 6 24, ctlB b 30 32⟩
def Period.ends (x : Period) : Bool := (x.bundles.take x.len).any fun b => bType b == bEnd

def State.loopCnt (s : State) (p l : Nat) : Nat := s.fget (Reg.SEQ_LOOP p l) Fld.SEQ_LOOP_COUNT

/-- R124 without a tainted decision: the successor that the LOOP and its counter give. -/
def State.successor (s : State) (p : Nat) (x : Period) : Nat :=
  match x.loopOf with
  | some l => if s.loopCnt p l.lvl < l.tripm1 then l.target else x.idx + x.len
  | none => x.idx + x.len

end Sys2Proof.Machine
end

