-- ==== Sys2Proof/Machine/VFun.lean ====
section
/-! DEFINITION. The vector engine's functions of R223: tables of correctly rounded binary32 values (64 entries to a
number, entry i in bits [32 (i mod 64) + 31 : 32 (i mod 64)]) and the fixed constructions over them. -/

namespace Sys2Proof.Machine

def exp2Tab0 : Nat :=
  0x3f97ce923f97657d3f96fcb13f96942d3f962bf23f95c3ff3f955c533f94f4f03f948dd43f9426ff3f93c0723f935a2b3f92f42c3f928e723f9229003f91c3d33f915eed3f90fa4d3f9095f23f9031dc3f8fce0c3f8f6a813f8f073b3f8ea43a3f8e417d3f8ddf043f8d7cd03f8d1adf3f8cb9333f8c57ca3f8bf6a43f8b95c23f8b35233f8ad4c63f8a74ad3f8a14d53f89b5413f8955ee3f88f6dd3f88980f3f8839813f87db353f877d2b3f871f623f86c1d93f8664913f86078a3f85aac33f854e3d3f84f1f63f8495f03f843a293f83dea13f8383593f8328503f82cd873f8272fc3f8218af3f81bea13f8164d23f810b413f80b1ed3f8058d83f800000
def exp2Tab1 : Nat :=
  0x3fb487a63fb40aaf3fb38e0e3fb311c43fb295d03fb21a323fb19ee93fb123f63fb0a9573fb02f0e3fafb5193faf3b793faec22d3fae49343fadd0903fad583f3face0413fac68973fabf13f3fab7a3a3fab03873faa8d263faa17183fa9a15b3fa92bef3fa8b6d53fa8420c3fa7cd943fa7596c3fa6e5953fa6720e3fa5fed73fa58bef3fa519583fa4a70f3fa435163fa3c36b3fa3520f3fa2e1023fa270433fa1ffd23fa18faf3fa11fd93fa0b0513fa041163f9fd2283f9f63873f9ef5323f9e872a3f9e196e3f9dabfe3f9d3eda3f9cd2013f9c65733f9bf9313f9b8d3a3f9b218d3f9ab62b3f9a4b133f99e0463f9975c23f990b883f98a1973f9837f0
def exp2Tab2 : Nat :=
  0x3fd6affa3fd61b5e3fd587293fd4f35b3fd45ff33fd3ccf13fd33a543fd2a81e3fd2164c3fd184df3fd0f3d73fd063343fcfd2f43fcf43193fceb3a13fce248c3fcd95da3fcd078c3fcc799f3fcbec153fcb5eed3fcad2263fca45c13fc9b9be3fc92e1b3fc8a2d83fc817f73fc78d753fc703533fc679913fc5f02e3fc5672a3fc4de853fc4563f3fc3ce573fc346cd3fc2bfa13fc238d23fc1b2613fc12c4d3fc0a6953fc0213b3fbf9c3c3fbf179a3fbe93533fbe0f683fbd8bd83fbd08a43fbc85ca3fbc034a3fbb81263fbaff5b3fba7dea3fb9fcd23fb97c143fb8fbaf3fb87ba33fb7fbf03fb77c953fb6fd923fb67ee73fb600943fb582983fb504f3
def exp2Tab3 : Nat :=
  0x3fff4ecb3ffe9e113ffdedd23ffd3e0c3ffc8ec03ffbdfed3ffb31943ffa83b33ff9d64a3ff9295a3ff87ce13ff7d0df3ff725553ff67a413ff5cfa43ff5257d3ff47bcc3ff3d2903ff329c93ff281773ff1d99a3ff132313ff08b3b3fefe4ba3fef3eab3fee99103fedf3e73fed4f303fecaaec3fec07193feb63b73feac0c73fea1e473fe97c383fe8da993fe8396a3fe798ab3fe6f85b3fe658793fe5b9073fe51a033fe47b6d3fe3dd443fe33f893fe2a23c3fe2055b3fe168e73fe0ccdf3fe031433fdf96133fdefb4e3fde60f53fddc7063fdd2d823fdc94683fdbfbb83fdb63713fdacb943fda34213fd99d163fd906733fd870393fd7da673fd744fd
/-- R223: t[i] = rne32(2^(i/256)). -/
def exp2Tab (i : Nat) : Nat :=
  bitsOf (match i / 64 with | 0 => exp2Tab0 | 1 => exp2Tab1 | 2 => exp2Tab2 | _ => exp2Tab3) (32 * (i % 64)) 32

def recTab0 : Nat :=
  0x3f4d71273f4e168a3f4ebcf93f4f64753f500d013f50b6a03f5161543f520d213f52ba083f53680d3f5417333f54c77b3f5578e93f562b813f56df443f5794363f584a5a3f5901b23f59ba423f5a740e3f5b2f173f5beb623f5ca8f13f5d67c93f5e27eb3f5ee95c3f5fac1f3f6070383f6135aa3f61fc783f62c4a73f638e393f6459333f6525983f65f36d3f66c2b43f6793733f6865ac3f6939653f6a0ea13f6ae5643f6bbdb33f6c97913f6d73043f6e500f3f6f2eb73f700f013f70f0f13f71d48c3f72b9d63f73a0d53f74898d3f7574043f76603e3f774e403f783e103f792fb23f7a232d3f7b18853f7c0fc13f7d08e53f7e03f83f7f00ff3f800000
def recTab1 : Nat :=
  0x3f2b1cbe3f2b8f6a3f2c02b03f2c76923f2ceb103f2d602b3f2dd5e63f2e4c413f2ec33e3f2f3ade3f2fb3223f302c0b3f30a59b3f311fd43f319ab63f3216433f32927c3f330f633f338cfa3f340b413f348a3a3f3509e73f358a483f360b613f368d313f370fbb3f3793013f3817033f389bc33f3921443f39a7863f3a2e8c3f3ab6563f3b3ee73f3bc8413f3c52643f3cdd533f3d69103f3df59d3f3e82fa3f3f112b3f3fa0303f40300c3f40c0c13f4152503f41e4bc3f4278063f430c313f43a13e3f4437303f44ce083f4565c83f45fe743f46980c3f4732943f47ce0c3f486a793f4907da3f49a6343f4a45883f4ae5d83f4b87283f4c29783f4ccccd
def recTab2 : Nat :=
  0x3f129cec3f12f1143f13459c3f139a863f13efd23f1445813f149b933f14f2093f1548e53f15a0253f15f7cc3f164fda3f16a8503f17012e3f175a753f17b4263f180e413f1868c83f18c3bb3f191f1a3f197ae73f19d7233f1a33cd3f1a90e83f1aee733f1b4c703f1baadf3f1c09c13f1c69173f1cc8e13f1d29223f1d89d93f1deb073f1e4cad3f1eaecd3f1f11663f1f747a3f1fd80a3f203c173f20a0a13f2105a93f216b313f21d13a3f2237c33f229ecf3f23065e3f236e723f23d70a3f2440293f24a9cf3f2513fd3f257eb53f25e9f73f2655c43f26c21e3f272f053f279c7b3f280a813f2879173f28e83f3f2957fb3f29c84a3f2a392f3f2aaaab
def recTab3 : Nat :=
  0x3f0040203f0080813f00c1223f0102043f0143283f01848e3f01c6363f0208213f024a4e3f028cc03f02cf753f03126f3f0355ad3f0399303f03dcf93f0421083f04655e3f04a9fa3f04eedd3f0534083f05797c3f05bf373f06053c3f064b8a3f0692233f06d9053f0720333f0767ab3f07af703f07f7813f083fde3f0888893f08d1813f091ac73f09645c3f09ae413f09f8743f0a42f83f0a8dcd3f0ad8f33f0b246b3f0b70343f0bbc513f0c08c13f0c55843f0ca29c3f0cf0093f0d3dcb3f0d8be33f0dda523f0e29183f0e78353f0ec7ab3f0f177a3f0f67a23f0fb8243f1009013f105a383f10abcc3f10fdbc3f1150093f11a2b43f11f5bd3f124925
/-- R223: q[i] = rne32(1 / g[i]). -/
def recTab (i : Nat) : Nat :=
  bitsOf (match i / 64 with | 0 => recTab0 | 1 => recTab1 | 2 => recTab2 | _ => recTab3) (32 * (i % 64)) 32

def lnTab0 : Nat :=
  0x3e614b433e5e14343e5ada8d3e579e4a3e545f683e511de13e4dd9b13e4a92d53e4749473e43fd033e40ae053e3d5c483e3a07c83e36b07f3e33566a3e2ff9843e2c99c73e29372f3e25d1b83e22695b3e1efe163e1b8fe13e181eb93e14aa983e1133793e0db9573e0a3c2c3e06bbf43e0338a93dff648a3df851863df1383b3dea189f3de2f2a43ddbc6413dd4936a3dcd5a123dc61a2f3dbed3b33db786943db032c53da8d83a3da176e63d9a0ebd3d929fb13d8b29b73d83acc23d7851863d693b5c3d5a16ec3d4ae4183d3ba2c83d2c52dd3d1cf43e3d0d86cc3cfc14d83cdcfe013cbdc8d83c9e75223c7e05463c3ee23b3bff01533b7f805500000000
def lnTab1 : Nat :=
  0x3ece43583eccecac3ecb951a3eca3ca13ec8e33f3ec788f43ec62dbe3ec4d19c3ec3748d3ec2168f3ec0b7a13ebf57c23ebdf6f03ebc952b3ebb32713eb9cec03eb86a173eb704753eb59dd93eb436413eb2cdac3eb164183eaff9843eae8dee3ead21563eabb3b93eaa45163ea8d56c3ea764ba3ea5f2fd3ea480343ea30c5e3ea197793ea021843e9eaa7d3e9d32633e9bb9333e9a3eed3e98c38e3e9747163e95c9823e944ad13e92cb013e914a103e8fc7fd3e8e44c63e8cc0693e8b3ae53e89b4383e882c603e86a35b3e8519273e838dc33e82012d3e8073623e7dc8c33e7aa8533e77856e3e7460133e71383b3e6e0de53e6ae10b3e67b1aa3e647fbe
def lnTab2 : Nat :=
  0x3f0eb0883f0e1dc13f0d8aa63f0cf7363f0c63703f0bcf563f0b3ae53f0aa61f3f0a11013f097b8d3f08e5c13f084f9d3f07b9213f07224c3f068b1e3f05f3973f055bb63f04c37a3f042ae43f0391f33f02f8a63f025efd3f01c4f73f012a953f008fd63effe9703efeb2793efd7ac43efc42523efb09203ef9cf2e3ef8947b3ef759063ef61ccf3ef4dfd33ef3a2133ef2638d3ef124413eefe42d3eeea3503eed61aa3eec1f393eeadbfd3ee997f43ee8531d3ee70d783ee5c7043ee47fbe3ee337a73ee1eebd3ee0a5003edf5a6d3ede0f043edcc2c53edb75ad3eda27bc3ed8d8f03ed7894a3ed638c63ed4e7653ed395253ed242053ed0ee033ecf991f
def lnTab3 : Nat :=
  0x3f30f1f83f3071983f2ff0f73f2f70153f2eeef33f2e6d8f3f2debea3f2d6a023f2ce7d93f2c656e3f2be2c03f2b5fcf3f2adc9b3f2a59233f29d5683f2951693f28cd263f28489e3f27c3d23f273ec13f26b96a3f2633cd3f25adeb3f2527c33f24a1543f241a9f3f2393a23f230c5e3f2284d33f21fcff3f2174e33f20ec7f3f2063d23f1fdadc3f1f519d3f1ec8133f1e3e403f1db4223f1d29ba3f1c9f073f1c14083f1b88be3f1afd273f1a71453f19e5163f19589a3f18cbd03f183eba3f17b1553f1723a23f1695a03f16074f3f1578b03f14e9c03f145a803f13caf13f133b103f12aade3f121a5b3f1189873f10f8603f1066e73f0fd51a3f0f42fb
/-- R223: l[i] = rne32(ln g[i]). -/
def lnTab (i : Nat) : Nat :=
  bitsOf (match i / 64 with | 0 => lnTab0 | 1 => lnTab1 | 2 => lnTab2 | _ => lnTab3) (32 * (i % 64)) 32

/-- R223: g[i] = 1 + i/256, exact. -/
def gTab (i : Nat) : Nat := enc32 (.fin false (256 + i) (-8))

/-- π · 2^1200, rounded down: enough bits that every reduction below is exact to the last place of binary32. -/
def piBits : Nat :=
  0x3243f6a8885a308d313198a2e03707344a4093822299f31d0082efa98ec4e6c89452821e638d01377be5466cf34e90c6cc0ac29b7c97c50dd3f84d5b5b54709179216d5d98979fb1bd1310ba698dfb5ac2ffd72dbd01adfb7b8e1afed6a267e96ba7c9045f12c7f9924a19947b3916cf70801f2e2858efc16636920d871574e69a458fea3f4933d7e0d95748f728eb658718bcd588215

def cLn1 : Nat := 0x3F317218
def cLn2 : Nat := 0x3E75FDF0
def cLn3 : Nat := 0x3D635847
def cLog2e : Nat := 0x3FB8AA3B
def cGelu1 : Nat := 0x3F4C422A
def cGelu2 : Nat := 0x3D372713

def half32 : Nat := 0x3F000000
def two32 : Nat := 0x40000000
def three32 : Nat := 0x40400000
def neg32 (a : Nat) : Nat := if (val32 a) = .nan then qnan32 else a ^^^ 0x80000000
def abs32 (a : Nat) : Nat := if (val32 a) = .nan then qnan32 else a % 0x80000000

/-- A finite value as a signed integer at scale 2^-k, for k at least its binary places; and its floor at scale 2^0. -/
def floorAt (v : FVal) (k : Nat) : Int :=
  let (m, e) := v.dyadic
  let e' := e + k
  if 0 ≤ e' then m * 2 ^ e'.toNat else m / (2 ^ (-e').toNat : Int)

/-- EXP2 on a finite argument in range (R223): x = n + i/256 + r with exact n, i and r. -/
def exp2Fin (v : FVal) : Nat :=
  let t := floorAt v 8
  let n := t / 256
  let i := (t % 256).toNat
  let r := v.add (FVal.fin (decide (0 < t)) t.natAbs (-8))
  let step (acc c : Nat) : Nat := add32 (enc32 ((val32 acc).mul r)) c
  let p := step (step (step cLn3 cLn2) cLn1) one32
  enc32 ((val32 (mul32 (exp2Tab i) p)).shift n)

/-- Order of two values, false where one is a NaN. -/
def ltv (a b : FVal) : Bool := a.lt b

def vExp2 (x : Nat) : Nat :=
  match val32 x with
  | .nan => qnan32
  | .inf s => if s then 0 else inf32 false
  | v => if !ltv v (.fin false 128 0) then inf32 false else if ltv v (.fin true 150 0) then 0 else exp2Fin v

def vExp (x : Nat) : Nat :=
  let h := mul32 x cLog2e
  match val32 h with
  | .nan => qnan32
  | .inf _ => vExp2 h
  | v =>
    if !ltv v (.fin false 128 0) then inf32 false else if ltv v (.fin true 150 0) then 0
    else mul32 (exp2Fin v) (add32 one32 (mul32 cLn1 (fma32 x cLog2e (neg32 h))))

/-- LOG of R223; the logarithm of +Inf, which R223 does not state, is `opn`. -/
def vLog (opn : Nat) (x : Nat) : Nat :=
  match val32 x with
  | .nan => qnan32
  | .inf s => if s then qnan32 else opn
  | .fin s m e =>
    if m = 0 then inf32 true
    else if s then qnan32
    else
      let k := Nat.log2 m
      let n : Int := e + k
      let i := m * 256 / 2 ^ k % 256
      let mm := FVal.fin false m (-(k : Int))
      let d := mul32 (enc32 (mm.add (FVal.fin true (256 + i) (-8)))) (recTab i)
      let d2 := mul32 d d
      let d3 := mul32 d2 d
      let ser := add32 (sub32 (add32 (lnTab i) d) (div32 d2 two32)) (div32 d3 three32)
      add32 (mul32 (enc32 (.fin (decide (n < 0)) n.natAbs 0)) cLn1) ser

def vRecip (x : Nat) : Nat := div32 one32 x
def vRsqrt (x : Nat) : Nat := div32 one32 (sqrt32 x)

def vTanh (x : Nat) : Nat :=
  match val32 x with
  | .nan => qnan32
  | v =>
    let s := x / 0x80000000 % 2 * 0x80000000
    if !ltv (match v with | .fin _ m e => .fin false (m * 10) e | w => if w.sign then w.neg else w) (.fin false 91 0)
    then one32 + s
    else
      let y := vExp (neg32 (mul32 two32 (abs32 x)))
      mul32 (mul32 (one32 + s) (sub32 one32 y)) (vRecip (add32 one32 y))

def vSigmoid (x : Nat) : Nat := vRecip (add32 one32 (vExp (neg32 x)))

def vGelu (x : Nat) : Nat :=
  let x3 := mul32 (mul32 x x) x
  let t := vTanh (mul32 cGelu1 (add32 x (mul32 cGelu2 x3)))
  mul32 (mul32 half32 x) (add32 one32 t)

/-- R223: k and rne32(x − k·π/2) for a finite x, with k the integer nearest x/(π/2); at scale 2^-1200. -/
def reducePi (v : FVal) : Int × Nat :=
  let (m, e) := v.dyadic
  let e' := e + 1199
  let x : Int := if 0 ≤ e' then m * 2 ^ e'.toNat else m / (2 ^ (-e').toNat : Int)
  -- x is v · 2^1199; π/2 · 2^1199 is piBits / 4
  let hp : Int := (piBits : Int)
  let k := (8 * x + hp) / (2 * hp)
  if k = 0 then (0, enc32 v)
  else
    let r := 4 * x - k * hp
    (k, enc32 (.fin (decide (r < 0)) r.natAbs (-1201)))

def sinPoly (r : Nat) : Nat :=
  let z := mul32 r r
  let f (acc c : Nat) : Nat := add32 (mul32 acc z) c
  mul32 r (f (f (f (f 0x3638EF1D 0xB9500D01) 0x3C088889) 0xBE2AAAAB) one32)

def cosPoly (r : Nat) : Nat :=
  let z := mul32 r r
  let f (acc c : Nat) : Nat := add32 (mul32 acc z) c
  f (f (f (f 0x37D00D01 0xBAB60B61) 0x3D2AAAAB) 0xBF000000) one32

/-- SIN (`q0` 0) and COS (`q0` 1) by quadrant. -/
def vTrig (q0 : Int) (x : Nat) : Nat :=
  match val32 x with
  | .nan => qnan32
  | .inf _ => qnan32
  | v =>
    let (k, r) := reducePi v
    match ((k + q0) % 4).toNat with
    | 0 => sinPoly r
    | 1 => cosPoly r
    | 2 => neg32 (sinPoly r)
    | _ => neg32 (cosPoly r)

def vSin : Nat → Nat := vTrig 0
def vCos : Nat → Nat := vTrig 1

/-! ## VALU and VRED -/

def vSel (a b c : Nat) : Nat :=
  let nz := match val32 c with | .nan => true | .inf _ => true | .fin _ m _ => m != 0
  let v := if nz then a else b
  if val32 v = .nan then qnan32 else v
def vCmpGt (a b : Nat) : Nat := if (val32 b).lt (val32 a) then one32 else 0
def vMov (a : Nat) : Nat := if val32 a = .nan then qnan32 else a

/-- R221: one level of the balanced tree, and the tree of nine levels over 512 lanes. -/
def treeLevel (op : Nat → Nat → Nat) : List Nat → List Nat
  | a :: b :: t => op a b :: treeLevel op t
  | l => l
def treeFold (op : Nat → Nat → Nat) : Nat → List Nat → List Nat
  | 0, l => l
  | n + 1, l => treeFold op n (treeLevel op l)

/-- R79, level 1 of the 16-bit class: sums of pairs of products that come unrounded (R214), rounded once. -/
def pairSums : List FVal → List Nat
  | a :: b :: t => enc32 (a.add b) :: pairSums t
  | [a] => [enc32 a]
  | [] => []
/-- The sum of R79's 16-bit class: a balanced tree over 32 places, those beyond the products given being zero. -/
def treeExact (l : List FVal) : Nat :=
  (treeFold add32 4 (pairSums (l ++ List.replicate (32 - l.length) .zero))).headD 0

/-- The balanced tree over 32 products that are rounded already (R291). -/
def tree32 (l : List Nat) : Nat := (treeFold add32 5 l).headD 0

end Sys2Proof.Machine
end

