-- ==== Sys2Proof/Machine/UnitOps.lean ====
section
/-! DEFINITION. One beat of one engine: finding the micro-op that is due, its undefined forms (R139 to R147), the reads
of core SRAM, accumulators and registers with uncorrectable errors (R237), and stepping the body. -/

namespace Sys2Proof.Machine

/-- One beat of a micro-op: where it runs, the body, the micro-op's bits, its beat `k` of `n`, and the errors met. -/
structure Beat where
  p : Nat
  core : Nat
  phys : Nat
  u : Nat
  run : Run
  m : Nat
  k : Nat
  n : Nat
  err : UnitErr
deriving DecidableEq, Repr

/-- The beat after the micro-op's last one. -/
def Beat.endBeat (x : Beat) : Nat := x.run.beat + (x.n - x.k)

/-- R100: the engine's place among the events of its beat. -/
def Beat.nfWho (x : Beat) : Option Nat := some (nfRank x.core x.u)

/-- What a beat's work gives: a fault of R161 by code and unit, or the block and the bytes gathered so far. -/
abbrev Res := Except (Nat × Nat) (State × List Byte)

/-- The beat's own unit meets a fault. -/
abbrev Beat.fail (x : Beat) (code : Nat) : Res := .error (code, x.u)
/-- R161, R210: it meets unit `v` at a bank's compute port; the first of the two in order is the one recorded. -/
abbrev Beat.clash (x : Beat) (v : Nat) : Res := .error (fUnitConflict, min x.u v)

/-- The body one beat later (R131). -/
def Run.next (r : Run) (n : Nat) (buf : List Byte) : Run :=
  if r.mb + 1 < n then { r with mb := r.mb + 1, beat := r.beat + 1, buf := buf }
  else if r.upos < r.lenm1 then { r with mb := 0, upos := r.upos + 1, beat := r.beat + 1, buf := [] }
  else { r with mb := 0, upos := 0, trip := r.trip + 1, beat := r.beat + 1, buf := [] }

/-! ## Undefined forms -/

/-- The class of a format's width (R141): 0 4-bit, 1 6-bit, 2 8-bit, 3 16-bit. -/
def Fmt.cls (f : Fmt) : Nat :=
  match f.bits with | 4 => 0 | 6 => 1 | 8 => 2 | 16 => 3 | _ => 4

/-- A format that a matrix engine accepts (R141). -/
def meFmt (f : Option Fmt) : Bool := match f with | some .f32 => false | some _ => true | none => false

def State.meBad (s : State) (p m : Nat) : Bool :=
  match mopOpc m with
  | 0 => mop m 12 52 != 0
  | 1 => mop m 56 8 != 0 || !meFmt (s.fmt p (mop m 30 5)) ||
      (match s.fmt p (mop m 30 5) with | some f => decide (mop m 53 3 < f.cls) | none => true) || decide (3 < mop m 53 3)
  | 2 => mop m 54 2 == 3 || !meFmt (s.fmt p (mop m 30 5))
  | 3 => mop m 38 26 != 0
  | _ => true

/-- R220: shortest duration of a load or store of a format. -/
def vldMin (f : Fmt) : Nat := (512 * f.bits + 8191) / 8192

def State.veBad (s : State) (p m : Nat) : Bool :=
  let n := mopBeats m
  match mopOpc m with
  | 0 => mop m 12 52 != 0
  | 1 => mop m 45 19 != 0 || (match s.fmt p (mop m 39 5) with | some f => decide (n < vldMin f) | none => true)
  | 2 => mop m 50 14 != 0 || (match s.fmt p (mop m 39 5) with
      | some f => decide (n < vldMin f) || (mop m 49 1 == 1 && f != .e4m3 && f != .e5m2)
      | none => true)
  | 3 => mop m 42 22 != 0 || decide (0x0C < mop m 36 6)
  | 4 => mop m 28 36 != 0 || decide (9 < mop m 24 4)
  | 5 => mop m 27 37 != 0 || (mop m 26 1 == 0 && decide (n < 2))
  | 6 => mop m 21 43 != 0
  | 7 => mop m 32 32 != 0
  | _ => true

def seBad (m : Nat) : Bool :=
  match mopOpc m with
  | 0 => mop m 12 52 != 0
  | 1 => mop m 61 3 != 0
  | 2 => mop m 55 9 != 0 || decide (1 < mop m 53 2)
  | 3 => mop m 53 11 != 0
  | 4 => mop m 54 10 != 0
  | 5 => mop m 54 10 != 0
  | _ => true

def State.badOp (s : State) (p u m : Nat) : Bool :=
  if u < 8 then s.meBad p m else if u = 8 then s.veBad p m else seBad m

/-! ## Errors of core SRAM and the engines' arrays -/

/-- R234, R235: where a 64-bit word of core SRAM lies: bank, macro, row and codeword. -/
def wordBank (w : Nat) : Nat := w / 65536 % 16
def wordMacro (w : Nat) : Nat := w / 4096 % 16
def wordRow (w : Nat) : Nat := w / 8 % 512

/-- The bank of a byte of core SRAM (R208). -/
def sramBank (b : Nat) : Nat := b % 8388608 / 524288

/-- R234: the spares of a macro, as column + 1024 · state. -/
def spareIdx (c b m k : Nat) : Nat := 4 * (c * 256 + b * 16 + m) + k
def State.spare (s : State) (c b m k : Nat) : Nat := SMap.get (fun _ => 0) s.cores.spares (spareIdx c b m k)

/-- R235, R240: the physical column of bit `j` of codeword `w` of a row: 8j + w, or the spare that this column is steered to. -/
def State.column (s : State) (c b m w j : Nat) : Nat :=
  match (List.range 4).find? fun k => s.spare c b m k / 1024 != 0 && s.spare c b m k % 1024 == 8 * j + w with
  | some k => 576 + k
  | none => 8 * j + w

/-- R252: the most recent error. Of the errors that one beat of a partition meets, the one of lowest physical core, then lowest bank,
stands; `p` 0: the scrubber and the column tests, each a cycle of its own. `port` 0 compute, 1 transfer, 2 scrubber, 3 column test. -/
def State.sramLast (s : State) (p phys bank mac col row port : Nat) (ue : Bool) : State :=
  let key := 16 * phys + bank
  let low := match s.cores.lastErr with
    | some (p0, b0, k0) => p != 0 && p0 == p && b0 == (s.sq p).beat && decide (k0 < key)
    | none => false
  if low then s
  else
    let s1 := { s with cores := { s.cores with lastErr := if p = 0 then none else some (p, (s.sq p).beat, key) } }
    let s2 := s1.wr Reg.DBG_SRAM_LAST_LO (Fld.DBG_SRAM_LAST_LO_COL.put (Fld.DBG_SRAM_LAST_LO_MACRO.put
      (Fld.DBG_SRAM_LAST_LO_BANK.put (Fld.DBG_SRAM_LAST_LO_PCORE.put 0 phys) bank) mac) col)
    s2.wr Reg.DBG_SRAM_LAST_HI (Fld.DBG_SRAM_LAST_HI_PORT.put (Fld.DBG_SRAM_LAST_HI_UE.put
      (Fld.DBG_SRAM_LAST_HI_ROW.put 0 row) (b2n ue)) port)

/-- R237, R252, R254: an uncorrectable error of a physical core is counted and recorded. The column of an uncorrectable error is not
stated. -/
def State.noteUe (s : State) (p phys bank mac row port : Nat) : State :=
  let s1 := (s.bump (Reg.DBG_UE_COUNT phys) Fld.DBG_UE_COUNT_COUNT 1).setBits Reg.DBG_SRAM_STAT Fld.DBG_SRAM_STAT_UE_EVT.mask
  (s1.sramLast p phys bank mac (Config.openValue 1 [phys, bank, mac, row]) row port true).irqDbg Fld.DBG_INT_STATUS_SRAM

/-- R237, R252, R254: a corrected error of a physical core is counted and recorded. -/
def State.noteCe (s : State) (p phys bank mac col row port : Nat) : State :=
  let s1 := (s.bump (Reg.DBG_CE_COUNT phys) Fld.DBG_CE_COUNT_COUNT 1).setBits Reg.DBG_SRAM_STAT Fld.DBG_SRAM_STAT_CE_EVT.mask
  let s2 := s1.sramLast p phys bank mac col row port false
  let n := s2.partOfQuad (phys / 34)
  (if n = 0 then s2 else s2.count n 0x13 16 0 1).irqDbg Fld.DBG_INT_STATUS_SRAM

/-- R239: the scrub pass in progress. -/
def State.scrubPass (s : State) : Nat := s.now / (100000 * max 1 (s.fget Reg.DBG_SCRUB_CTRL Fld.DBG_SCRUB_CTRL_PERIOD_MS))

/-- R239: one more corrected error in a column of a macro in this scrub pass. -/
def State.columnError (s : State) (phys bank mac col : Nat) : State :=
  let c := if s.cores.scrubPass = s.scrubPass then s.cores else { s.cores with scrubPass := s.scrubPass, colErrs := [] }
  { s with cores := { c with
    colErrs := SMap.upd (fun _ => 0) c.colErrs ((phys * 256 + bank * 16 + mac) * 1024 + col) (· + 1) } }

/-- R237, R239: a read of word `w` of a physical core's SRAM corrects bit `j` of its codeword. -/
def State.sramCe (s : State) (p phys w j port : Nat) : State :=
  let col := s.column phys (wordBank w) (wordMacro w) (w % 8) j
  (s.columnError phys (wordBank w) (wordMacro w) col).noteCe p phys (wordBank w) (wordMacro w) col (wordRow w) port

/-- R237: an uncorrectable word read by a unit or transfer of a partition: alarm, count and trace. -/
def State.sramUe (s : State) (p phys u w port : Nat) : State :=
  let s1 := (s.noteUe p phys (wordBank w) (wordMacro w) (wordRow w) port).alarm p 6 0
  if u < 10 then s1.sepiaRec (unitOf phys u) 0x04 p (wordBank w) else s1

/-- The same in an accumulator memory or register file: the place in SRAM terms is not stated. -/
def State.arrayUe (s : State) (p phys u i : Nat) : State :=
  let o (k : Nat) : Nat := Config.openValue k [phys, u, i]
  ((s.noteUe p phys (o 2) (o 3) (o 4) 0).alarm p 6 0).sepiaRec (unitOf phys u) 0x04 p (16 + o 5 % 16)

/-- R236, R237: a corrected error in an accumulator memory, register file or replay store, at a place that is not stated. -/
def State.arrayCe (s : State) (p phys u i : Nat) : State :=
  let o (k : Nat) : Nat := Config.openValue k [phys, u, i]
  s.noteCe p phys (o 2) (o 3) (o 1) (o 4) 0

/-- Words of a core that the scrubber has found uncorrectable (R237). -/
def State.knownUe (s : State) (phys : Nat) : List Nat :=
  s.cores.ueWords.filterMap fun e => if e.2 && e.1 / 1048576 == phys then some (e.1 % 1048576) else none

/-- R158, R237: a read of core SRAM at addresses `f i` through a port. A word that is uncorrectable reads as all ones; the compute port
reads each word as it was before this beat's transfers. -/
def State.sramGet (s : State) (p phys u port : Nat) (bad : SramErrs) (f : Nat → Nat) (len : Nat) : State × List Byte :=
  let addrs := (List.range len).map fun i => f i % 8388608
  let read (w : Nat) : Bool := addrs.any fun a => a / 8 == w
  let hit := ((bad.ue ++ s.knownUe phys).eraseDups).filter read
  let s1 := (bad.ce.filter fun x => read x.1 && !hit.contains x.1).foldl (fun s x => s.sramCe p phys x.1 x.2 port) s
  let byte (k : Nat) : Byte := (if port = 0 then (s.sq p).portByte k else none).getD (SMap.get (fun _ => 0#8) s.cores.sram k)
  (hit.foldl (fun s w => s.sramUe p phys u w port) s1,
    addrs.map fun a => if hit.contains (a / 8) then 0xFF#8 else byte (sramKey phys a))

/-- Compute-port reads of a beat, claiming the banks they touch (R210), or the unit that they meet there. -/
def State.portGet (s : State) (x : Beat) (f : Nat → Nat) (len : Nat) : Except Nat (State × List Byte) :=
  match s.usePorts x.p x.phys ((List.range len).map fun i => sramBank (f i)).eraseDups x.u with
  | .error v => .error v
  | .ok s1 => .ok (s1.sramGet x.p x.phys x.u 0 x.err.sram f len)

/-- Byte `i` of a run at unit `a` of one bank, wrapping within the bank (R136). -/
def bankByte (bank a i : Nat) : Nat := bank * 524288 + (32 * a + i) % 524288

/-! ## Accumulators and vector registers -/

def accKey (phys e row : Nat) : Nat := ((phys * 8 + e) * 256 + row) * 128
/-- Outputs that a row holds (R142). -/
def State.accOuts (s : State) (phys e row : Nat) : Nat := SMap.get (fun _ => 128) s.cores.accCls ((phys * 8 + e) * 256 + row)
def vregKey (phys r : Nat) : Nat := (phys * 64 + r % 64) * 512

def State.accRow (s : State) (x : Beat) (row n : Nat) : State × List Nat :=
  let hit := x.err.acc.filter fun w => decide (w / 64 = row ∧ w % 64 * 2 < n)
  (hit.foldl (fun s w => s.arrayUe x.p x.phys x.u w) s,
    (List.range n).map fun o => if hit.contains (row * 64 + o / 2) then 0xFFFFFFFF
      else (SMap.get (fun _ => 0#32) s.cores.acc (accKey x.phys x.u row + o)).toNat)

def State.vreg (s : State) (x : Beat) (r : Nat) : State × List Nat :=
  let r := r % 64
  let hit := x.err.reg.filter fun w => w / 256 == r
  (hit.foldl (fun s w => s.arrayUe x.p x.phys 8 w) s,
    (List.range 512).map fun l => if hit.contains (r * 256 + l / 2) then 0xFFFFFFFF
      else (SMap.get (fun _ => 0#32) s.cores.vreg (vregKey x.phys r + l)).toNat)

def toWords (l : List Nat) : List Word := l.map (BitVec.ofNat 32)

/-- R93, R99: the kinds of non-finite values: 1 NaN, 2 Inf. -/
def nfVals (l : List FVal) : Nat :=
  b2n (l.any fun v => v == .nan) + 2 * b2n (l.any fun v => match v with | .inf _ => true | _ => false)
/-- The kinds among binary32 values. -/
def nfBits (l : List Nat) : Nat := nfVals (l.map val32)

def Fmt.dead (f : Fmt) : Bool := match f with | .tbl t => !t.valid | _ => false

/-! ## A beat -/

/-- A unit of a stream that has stopped lets its body go (R160). -/
def State.dropRun (s : State) (p phys u : Nat) : State := if s.stopped p then s.setRun phys u none else s

/-- One beat of unit `u` of partition core `core`, if the micro-op due there is one of `pick`'s. An undefined form
raises UNDEF_MICROOP at its first beat whatever command names the unit's beat (R139, R237), and a body that has not ended where it
must have is found there (R134). -/
def State.unitBeat (s : State) (p core u : Nat) (err : UnitErr) (pick : Nat → Bool) (work : State → Beat → Res) : State :=
  let phys := s.pcore p core
  match s.runOf phys u with
  | none => s
  | some r =>
    if r.part ≠ p ∨ r.core ≠ core ∨ r.done ∨ s.dead p r.beat ∨ !s.canRun p r.beat then s
    else
      let m := s.replayAt phys u (r.addr + r.upos)
      let n := mopBeats m
      let s0 := s.advance p r.beat
      if (s.sq p).bodyLimit ≤ r.beat then ((s0.overrun p).getD s0).dropRun p phys u
      else if r.mb = 0 ∧ err.replay then
        ((s0.noteUe p phys (Config.openValue 6 [phys, u]) (Config.openValue 7 [phys, u])
          (Config.openValue 8 [phys, u]) 0).beatFault p fUndefMicroop core u r.pc).dropRun p phys u
      else if r.mb = 0 ∧ s.badOp p u m then (s0.beatFault p fUndefMicroop core u r.pc).dropRun p phys u
      else if !pick m then s
      else
        let s1 := (List.range err.ce).foldl (fun (s : State) i => s.arrayCe p phys u i) s0
        match work s1 ⟨p, core, phys, u, r, m, r.mb, n, err⟩ with
        | .error f => (s1.beatFault p f.1 core f.2 r.pc).dropRun p phys u
        | .ok (s2, buf) => (s2.setRun phys u (some (r.next n buf))).dropRun p phys u

def okRes (s : State) (x : Beat) : Res := .ok (s, x.run.buf)

end Sys2Proof.Machine
end

