-- ==== Sys2Proof/Machine/Nme.lean ====
section
/-! DEFINITION. The near-memory engines: the command record (R285 to R289), its operations (R290 to R294), status and
failure (R295 to R297). -/

namespace Sys2Proof.Machine

/-- The record that a stack's NME runs or will run next. -/
def State.nmeHead (s : State) (k : Nat) : Option NmeRec := (s.stk k).queue.head?

/-- R61, R285, R304: the first record of the queue starts, `delay` MCLK cycles later than it would have where the limiter delays NME
commands. -/
def State.nmeStart (s : State) (k delay : Nat) : State :=
  match (s.stk k).queue with
  | r :: t =>
    if r.started ∨ s.halted then s
    else ((s.setStk k { s.stk k with queue := { r with started := true } :: t }).bump64 (Reg.MEM_NME_DELAY_LO k)
      (if s.power.nmeDelay then delay else 0)).sepiaRec (unitNme k) 0x40 r.part (leAt r.bytes 0 1)
  | [] => s
def execNmeRecordStart (x : NmeStart) (s : State) : Host.Outcome State Fault Refusal := .next (s.nmeStart x.stack x.delay)

/-! ## Record fields (R288, R289) -/

def recN (b : List Byte) (k n : Nat) : Nat := leAt b k n
def recSt (b : List Byte) : Bool := bitOf (recN b 1 1) 0
def recRel (b : List Byte) : Bool := bitOf (recN b 1 1) 1
def recDsram (b : List Byte) : Bool := bitOf (recN b 1 1) 2

/-- R288: the reserved bits of the common bytes are 0. -/
def recForm (b : List Byte) : Bool :=
  recN b 1 1 < 8 && recN b 2 2 == 0 && recN b 8 1 < 128 && recN b 10 2 == 0 && recN b 12 4 < 262144

/-- One run of a record on device stack `k`: the partition, the stack, its partition-relative index, the record and the
injected read errors. -/
structure NmeCtx where
  p : Nat
  k : Nat
  j : Nat
  b : List Byte
  errs : List ReadErr
deriving DecidableEq, Repr

/-- A stack-local address of the record as this stack takes it (R289). -/
def State.nmeAddr (s : State) (x : NmeCtx) (at' : Nat) : Nat :=
  recN x.b at' 8 + (if recRel x.b then gib * (x.j * s.localGib x.p) else 0)

/-- R295: 0 when [a, a + len) lies wholly in the stack-local region of this stack, else NOT_LOCAL or RANGE. -/
def State.nmeLocal (s : State) (x : NmeCtx) (a len : Nat) : Nat :=
  match s.offset x.p a with
  | none => 0x04
  | some o =>
    let lo := s.localOff x.p x.j 0
    if lo ≤ o ∧ o + len ≤ lo + gib * s.localGib x.p then 0 else 0x02

/-- The first status of a list that is not OK; the lowest where several hold is first in the caller's order. -/
def firstBad (l : List Nat) : Nat := (l.find? (· ≠ 0)).getD 0

/-- The status that a refusal code of R551 becomes: KEY for an absent or exhausted key, else RANGE. -/
def nmeCode (c : Nat) : Nat := if c = 0 then 0 else if c = 0x01 ∨ c = 0x08 then 0x08 else 0x04

/-- R295: whether the region table refuses a run, keys apart. A refusal is recorded (R547). -/
def State.nmeRange (s : State) (x : NmeCtx) (m : Master) (keyed : Bool) (a len : Nat) : State × Nat :=
  let l := (sectorPieces a len).map fun pc => (pc, nmeCode (s.checkSector x.p m keyed pc.1 pc.2))
  if l.any fun e => e.2 = 0x04 then ((s.checkRun x.p m keyed a len).1, 0x04) else (s, 0)

/-- R295: the record running has processed one sector more: one that it has read or written. -/
def State.nmeSector (s : State) (k : Nat) : State := s.setStk k { s.stk k with sectors := (s.stk k).sectors + 1 }

/-- Read a run sector by sector, ending at the first that a key or its verification fails. -/
def State.nmeRead (s : State) (x : NmeCtx) (a len : Nat) : State × Nat × List Byte :=
  (sectorPieces a len).foldl (fun (y : State × Nat × List Byte) pc =>
    let (s, st, acc) := y
    if st ≠ 0 then y
    else
      let c := s.checkSector x.p mNmeRd true pc.1 pc.2
      if c ≠ 0 then (s.refuse x.p c 0x12 false ((s.offset x.p pc.1).getD 0) (addrKid pc.1), nmeCode c, acc)
      else
        let y := s.readPiece x.errs x.p false true pc.1 pc.2
        if y.2.ok then (y.1.nmeSector x.k, 0, acc ++ y.2.bytes) else (y.1, 0x06, acc)) (s, 0, [])

/-- Write a run sector by sector in the same way. -/
def State.nmeWrite (s : State) (x : NmeCtx) (a : Nat) (v : List Byte) : State × Nat :=
  ((sectorPieces a v.length).foldl (fun (y : State × Nat × Nat) pc =>
    let (s, st, n) := y
    if st ≠ 0 then y
    else
      let c := s.checkSector x.p mNmeWr true pc.1 pc.2
      if c ≠ 0 then (s.refuse x.p c 0x12 true ((s.offset x.p pc.1).getD 0) (addrKid pc.1), nmeCode c, n)
      else
        let y := s.writePiece x.errs x.p true pc.1 ((v.drop n).take pc.2)
        if y.2 then (y.1.nmeSector x.k, 0, n + pc.2) else (y.1, 0x06, n)) (s, 0, 0)) |> fun y => (y.1, y.2.1)

/-- A destination of a record: device memory, or core SRAM (R289). -/
inductive NmeDst where
  | mem (a : Nat)
  | sram (core b : Nat)
deriving DecidableEq, Repr

/-- The destination at bytes `at'` of the record; none where its form is undefined (UNDEF_OP). -/
def State.nmeDst (s : State) (x : NmeCtx) (at' : Nat) : Option NmeDst :=
  if recDsram x.b then
    let v := recN x.b at' 8
    if v / 2 ^ 25 ≠ 0 then none
    else some (.sram (bitsOf v 18 7 + if recRel x.b then x.j * recN x.b 9 1 else 0) (32 * bitsOf v 0 18))
  else some (.mem (s.nmeAddr x at'))

/-- The check of a destination of `len` bytes. -/
def State.nmeDstBad (s : State) (x : NmeCtx) (d : NmeDst) (len : Nat) : Nat :=
  match d with
  | .mem a => s.nmeLocal x a len
  | .sram c b => if c < s.ncores x.p ∧ b + len ≤ 8388608 then 0 else 0x04

def State.nmePut (s : State) (x : NmeCtx) (d : NmeDst) (off : Nat) (v : List Byte) : State × Nat :=
  match d with
  | .mem a => s.nmeWrite x (a + off) v
  | .sram c b => (s.sramWr (s.pcore x.p c) (b + off) v, 0)

/-- The format of a code in the NME's copy of the tables (R290). -/
def State.nmeFmt (s : State) (p code : Nat) : Option Fmt :=
  fmtOf (fun n => (s.up p).tables.getD n (s.fmtTable p n)) code

/-! ## Ending a record -/

/-- What an operation did: status, COUNT and sectors processed (R295). -/
structure NmeEnd where
  status : Nat
  count : Nat
  sectors : Nat
deriving DecidableEq, Repr

/-- R285, R287, R295, R304: the status record, the events of the status, and the record leaves the queue, which takes in one that waits. -/
def State.nmeFinish (s : State) (x : NmeCtx) (e : NmeEnd) : State :=
  let nf := [0x01, 0x02, 0x03, 0x04, 0x05, 0x08].contains e.status
  let s1 := if nf then s.raiseNf x.p else s
  let stcore := recN x.b 8 1 % 128
  let s2 := if recSt x.b ∧ stcore < s.ncores x.p then
    s1.sramWr (s.pcore x.p stcore) (32 * (recN x.b 12 4 % 262144 + x.j))
      (leBytes 2 (e.status + 256 * recN x.b 0 1) ++ leBytes 2 0 ++ leBytes 4 e.count ++ leBytes 8 e.sectors ++ leBytes 16 0)
    else s1
  let s3 := ((s2.count x.p 0x0A 16 0 1).bump64 (Reg.MEM_NME_CMD_LO x.k) 1).sepiaRec (unitNme x.k) 0x41 x.p e.status
  ((s3.ifcSend x.k 1 [x.p, e.status]).setStk x.k { s3.stk x.k with queue := (s3.stk x.k).queue.drop 1, sectors := 0 }).forward x.k []

/-- A command that runs the record of stack `k` if its operation is `op`; an undefined operation ends UNDEF_OP whichever
command names the stack. `ifc`: a frame failed interposer authentication twice (R297); without a current link key no frame passes (R39).
`work` performs the operation. -/
def State.nmeRun (s : State) (k op : Nat) (ifc : Bool) (errs : List ReadErr) (work : State → NmeCtx → State × NmeEnd) :
    State :=
  match s.nmeHead k with
  | none => s
  | some r =>
    let o := recN r.bytes 0 1
    if !r.started ∨ s.halted ∨ (o ≠ op ∧ o < 8) then s
    else
      let x : NmeCtx := ⟨r.part, k, k - s.stack0 r.part, r.bytes, errs⟩
      s.issuedAs r.part r.xfer fun s =>
      if ifc ∨ !s.ifcLoaded k then ((s.alarm r.part 5 k).irqMem Fld.MEM_INT_STATUS_IFC_AUTH.mask).nmeFinish x ⟨0x09, 0, 0⟩
      else if 8 ≤ o ∨ !recForm r.bytes ∨ (recDsram r.bytes ∧ o ≠ 1 ∧ o ≠ 6) then s.nmeFinish x ⟨0x01, 0, 0⟩
      else
        let (s1, e) := work s x
        s1.nmeFinish x e

/-- A record that is not performed, or ends early, with a status. -/
def nmeBad (s : State) (x : NmeCtx) (st : Nat) : State × NmeEnd := (s, ⟨st, 0, (s.stk x.k).sectors⟩)

def execNmeNop (k : Nat) (ifc : Bool) (s : State) : Host.Outcome State Fault Refusal :=
  .next (s.nmeRun k 0 ifc [] fun s _ => (s, ⟨0, 0, 0⟩))

/-! ## GEMV (R289 to R291) -/

structure Gemv where
  rows : Nat
  cols : Nat
  wf : Fmt
  bs16 : Bool
  xf : Fmt
  yf : Fmt
  nvec : Nat
deriving DecidableEq, Repr

def gemvWf (f : Fmt) : Bool :=
  match f with | .e2m1 | .i4 | .e4m3 | .e5m2 | .i8 => true | .tbl t => !t.wide | _ => false

/-- The record's formats and counts; none where a format or a reserved bit is undefined. -/
def State.gemv (s : State) (x : NmeCtx) : Option Gemv :=
  let b := x.b
  match s.nmeFmt x.p (recN b 56 1 % 32), recN b 57 1, recN b 58 1 with
  | some wf, xc, yc =>
    if gemvWf wf ∧ recN b 56 1 < 64 ∧ (xc = 1 ∨ xc = 2) ∧ (yc = 0 ∨ yc = 2) ∧ recN b 59 1 < 8 ∧ recN b 60 4 = 0 then
      some ⟨recN b 48 4, recN b 52 4, wf, bitOf (recN b 56 1) 5, if xc = 1 then .f16 else .bf16,
        if yc = 0 then .f32 else .bf16, recN b 59 1 + 1⟩
    else none
  | none, _, _ => none

/-- R291: one output. `w` and `sc` are an output's packed weights and its scales, `xs` the activations' values. -/
def gemvDot (g : Gemv) (w : List Byte) (sc : List Byte) (xs : List FVal) : Nat :=
  let codes := unpackCodes g.wf.bits g.cols w
  let blk := if g.bs16 then 16 else 32
  let ws := (List.zip (List.range g.cols) codes).map fun (k, c) =>
    g.wf.decodeScaled (if g.wf.scaled then (sc.getD (k / blk) 0#8).toNat else 127) c
  let ps := List.zipWith (fun w x => enc32 (w.mul x)) ws xs
  (chunksOf 32 (g.cols / 32) ps).foldl (fun acc grp => add32 acc (tree32 grp)) 0

def gemvWork (s : State) (x : NmeCtx) : State × NmeEnd :=
  match s.gemv x, s.nmeDst x 40 with
  | some g, some dst =>
    let wrow := g.cols * g.wf.bits / 8
    let srow := if g.wf.scaled then g.cols / (if g.bs16 then 16 else 32) else 0
    let (wa, sa, xa) := (s.nmeAddr x 16, s.nmeAddr x 24, s.nmeAddr x 32)
    let ylen := g.nvec * g.rows * g.yf.bits / 8
    let locals := [s.nmeLocal x wa (g.rows * wrow), if srow = 0 then 0 else s.nmeLocal x sa (g.rows * srow),
      s.nmeLocal x xa (2 * g.cols * g.nvec), s.nmeDstBad x dst ylen]
    -- R70: the bases of a scaled tensor's two arrays are 32-byte aligned
    let bases := !g.wf.scaled || (wa % 32 == 0 && sa % 32 == 0)
    let shape := if g.rows % 16 = 0 ∧ 16 ≤ g.rows ∧ g.rows ≤ 16777216 ∧ g.cols % 32 = 0 ∧ 32 ≤ g.cols ∧ g.cols ≤ 65536 ∧ bases
      then 0 else 0x05
    let st := firstBad [if locals.contains 2 then 2 else 0, firstBad locals, shape]
    if st ≠ 0 then nmeBad s x st
    else
      let (s1, c1) := s.nmeRange x mNmeRd true wa (g.rows * wrow)
      let (s2, c2) := s1.nmeRange x mNmeRd true sa (g.rows * srow)
      let (s3, c3) := s2.nmeRange x mNmeRd true xa (2 * g.cols * g.nvec)
      let (s4, c4) := match dst with | .mem a => s3.nmeRange x mNmeWr true a ylen | _ => (s3, 0)
      if firstBad [c1, c2, c3, c4] ≠ 0 then nmeBad s4 x 0x04
      else
        let (s5, e1, wb) := s4.nmeRead x wa (g.rows * wrow)
        let (s6, e2, sb) := if e1 ≠ 0 then (s5, e1, []) else s5.nmeRead x sa (g.rows * srow)
        let (s7, e3, xb) := if e2 ≠ 0 then (s6, e2, []) else s6.nmeRead x xa (2 * g.cols * g.nvec)
        if e3 ≠ 0 then nmeBad s7 x e3
        else
          let ws := chunksOf wrow g.rows wb
          let scs := if srow = 0 then ws.map (fun _ => []) else chunksOf srow g.rows sb
          let acc := (List.range g.nvec).flatMap fun v =>
            let xs := (unpackCodes 16 g.cols (sliceB xb (2 * g.cols * v) (2 * g.cols))).map g.xf.decode
            List.zipWith (fun w sc => gemvDot g w sc xs) ws scs
          let ys := acc.map fun a => (convUnscaled g.yf .rne a).code
          let scNan := g.wf.scaled && sb.any (· == 0xFF#8)
          let yInf := g.yf == .bf16 && ys.any fun y => fmtBf16.ieee y != .nan && (fmtBf16.ieee y).nonFinite
          let seen := nfVals ((unpackCodes 16 (g.cols * g.nvec) xb).map g.xf.decode) |||
            nfVals (ws.flatMap fun w => (unpackCodes g.wf.bits g.cols w).map g.wf.decode)
          let s8 := (s7.nfSeen x.p seen (recN x.b 4 4) none).nonFinite x.p (nfBits acc ||| (if yInf then 2 else 0) ||| 4 * b2n scNan) (recN x.b 4 4) 16 0
          let s9 := if g.wf.dead then s8.invalidTable x.p else s8
          let (s10, e4) := s9.nmePut x dst 0 (packCodes g.yf.bits ys)
          (s10, ⟨e4, 0, (s10.stk x.k).sectors⟩)
  | _, _ => nmeBad s x 0x01
def execGemv (k : Nat) (errs : List ReadErr) (ifc : Bool) (s : State) : Host.Outcome State Fault Refusal :=
  .next (s.nmeRun k 1 ifc errs gemvWork)

/-! ## COPY, FILL, ZERO, WIPE (R293) -/

/-- The sectors of a run that stack `k` holds, as indices from the run's start. -/
def State.heldSectors (s : State) (x : NmeCtx) (a len : Nat) : List Nat :=
  (List.range (len / 256)).filter fun i => match s.offset x.p (a + 256 * i) with
    | some o => (s.place x.p o).1 == x.k
    | none => false

/-- R293, R258: alignment and length of a whole-sector operation, then the partition's bounds. -/
def State.blockBad (s : State) (x : NmeCtx) (addrs : List Nat) (len : Nat) : Nat :=
  let out := addrs.any fun a => match s.offset x.p a with
    | none => true
    | some o => decide (s.memSize x.p < o + len)
  if out then 0x04 else if addrs.any (fun a => a % 256 ≠ 0) ∨ len % 256 ≠ 0 ∨ len = 0 then 0x05 else 0

/-- Act on the sectors that the stack holds, ascending, ending at the first that fails. `f` gives the new state and a
status for a sector. -/
def blockLoop (s : State) (l : List Nat) (f : State → Nat → State × Nat) : State × NmeEnd :=
  l.foldl (fun (y : State × NmeEnd) i =>
    if y.2.status ≠ 0 then y
    else
      let (s, st) := f y.1 i
      (s, ⟨st, 0, y.2.sectors + b2n (st == 0)⟩)) (s, ⟨0, 0, 0⟩)

/-- Whether the region table refuses a sector of a list; the first refused one is recorded. -/
def State.blockRange (s : State) (x : NmeCtx) (m : Master) (keyed : Bool) (a : Nat) (l : List Nat) : State × Nat :=
  match l.find? fun i => nmeCode (s.checkSector x.p m keyed (a + 256 * i) 256) = 0x04 with
  | some i => ((s.checkRun x.p m keyed (a + 256 * i) 256).1, 0x04)
  | none => (s, 0)

def copyWork (s : State) (x : NmeCtx) : State × NmeEnd :=
  let (src, dst, len) := (recN x.b 16 8, recN x.b 24 8, recN x.b 32 8)
  let st := s.blockBad x [src, dst] len
  if recN x.b 40 8 ≠ 0 then nmeBad s x 0x01
  else if st ≠ 0 then nmeBad s x st
  else
    let l := s.heldSectors x src len
    let other := l.any fun i => match s.offset x.p (dst + 256 * i) with
      | some o => (s.place x.p o).1 != x.k
      | none => true
    if other then nmeBad s x 0x03
    else
      let (s1, c1) := s.blockRange x mNmeRd true src l
      let (s2, c2) := s1.blockRange x mNmeWr true dst l
      if c1 ≠ 0 ∨ c2 ≠ 0 then nmeBad s2 x 0x04
      else blockLoop s2 l fun s i =>
        let (s, e, v) := s.nmeRead x (src + 256 * i) 256
        if e ≠ 0 then (s, e) else s.nmeWrite x (dst + 256 * i) v
def execNmeCopy (k : Nat) (errs : List ReadErr) (ifc : Bool) (s : State) : Host.Outcome State Fault Refusal :=
  .next (s.nmeRun k 2 ifc errs copyWork)

/-- FILL and ZERO: whole sectors of plaintext under the destination KID. -/
def fillWork (plain : NmeCtx → List Byte) (form : NmeCtx → Bool) (s : State) (x : NmeCtx) : State × NmeEnd :=
  let (dst, len) := (recN x.b 16 8, recN x.b 32 8)
  let st := s.blockBad x [dst] len
  if !form x then nmeBad s x 0x01
  else if st ≠ 0 then nmeBad s x st
  else
    let l := s.heldSectors x dst len
    let (s1, c1) := s.blockRange x mNmeWr true dst l
    if c1 ≠ 0 then nmeBad s1 x 0x04 else blockLoop s1 l fun s i => s.nmeWrite x (dst + 256 * i) (plain x)
def execFill (k : Nat) (ifc : Bool) (s : State) : Host.Outcome State Fault Refusal :=
  .next (s.nmeRun k 3 ifc [] (fillWork (fun x => (List.replicate 32 (sliceB x.b 40 8)).flatten) fun x => recN x.b 24 8 == 0))
def execZero (k : Nat) (ifc : Bool) (s : State) : Host.Outcome State Fault Refusal :=
  .next (s.nmeRun k 4 ifc [] (fillWork (fun _ => List.replicate 256 0#8)
    fun x => recN x.b 24 8 == 0 && recN x.b 40 8 == 0))

/-- The all-zero ciphertext and side-band of a wiped sector (R268, R293). -/
def wipedSector : List Byte := List.replicate 288 0#8

def wipeWork (s : State) (x : NmeCtx) : State × NmeEnd :=
  let (dst, len) := (recN x.b 16 8, recN x.b 32 8)
  let st := s.blockBad x [dst] len
  if recN x.b 24 8 ≠ 0 ∨ recN x.b 40 8 ≠ 0 then nmeBad s x 0x01
  else if st ≠ 0 then nmeBad s x st
  else
    let l := s.heldSectors x dst len
    let (s1, c1) := s.blockRange x mNmeWr false dst l
    if c1 ≠ 0 then nmeBad s1 x 0x04
    else blockLoop s1 l fun s i => match s.offset x.p (dst + 256 * i) with
      | some o => let y := s.place x.p (s.bankOff x.p o); (s.putRaw y.1 (y.2 / 256) wipedSector, 0)
      | none => (s, 0x04)
def execWipe (k : Nat) (ifc : Bool) (s : State) : Host.Outcome State Fault Refusal :=
  .next (s.nmeRun k 5 ifc [] wipeWork)

/-! ## GATHER and SCATTER_ADD (R294) -/

/-- The row of this stack that an index names: `some (some row)` here, `some none` another stack's, none out of range. -/
def State.rowOf (s : State) (x : NmeCtx) (nrows i : Nat) : Option (Option Nat) :=
  if recRel x.b then
    if s.nstacks x.p * nrows ≤ i then none
    else some (if i / nrows = x.j then some (i % nrows) else none)
  else if nrows ≤ i then none else some (some i)

/-- Alignment rules of the two operations. -/
def idxShape (x : NmeCtx) : Nat :=
  let (nidx, rowb) := (recN x.b 40 4, recN x.b 44 4)
  if 1 ≤ nidx ∧ nidx ≤ 16777216 ∧ rowb % 32 = 0 ∧ 32 ≤ rowb ∧ rowb ≤ 65536 then 0 else 0x05

/-- The indices, once their run has been read and checked. -/
def State.readIdx (s : State) (x : NmeCtx) : State × Nat × List Nat :=
  let n := recN x.b 40 4
  let (s, e, v) := s.nmeRead x (s.nmeAddr x 24) (4 * n)
  (s, e, (chunksOf 4 n v).map leNat)

def gatherWork (s : State) (x : NmeCtx) : State × NmeEnd :=
  match s.nmeDst x 32 with
  | none => nmeBad s x 0x01
  | some dst =>
    let (nidx, rowb, nrows) := (recN x.b 40 4, recN x.b 44 4, recN x.b 48 4)
    let table := s.nmeAddr x 16
    let locals := [s.nmeLocal x table (nrows * rowb), s.nmeLocal x (s.nmeAddr x 24) (4 * nidx), s.nmeDstBad x dst (nidx * rowb)]
    let st := firstBad [if locals.contains 2 then 2 else 0, firstBad locals, idxShape x]
    if st ≠ 0 then nmeBad s x st
    else
      let (s1, c1) := s.nmeRange x mNmeRd true table (nrows * rowb)
      let (s2, c2) := s1.nmeRange x mNmeRd true (s.nmeAddr x 24) (4 * nidx)
      let (s3, c3) := match dst with | .mem a => s2.nmeRange x mNmeWr true a (nidx * rowb) | _ => (s2, 0)
      if firstBad [c1, c2, c3] ≠ 0 then nmeBad s3 x 0x04
      else
        let (s4, e, idx) := s3.readIdx x
        if e ≠ 0 then nmeBad s4 x e
        else
          let r := (List.zip (List.range nidx) idx).foldl (fun (y : State × Nat × Nat) (pi : Nat × Nat) =>
            if y.2.1 ≠ 0 then y
            else match s.rowOf x nrows pi.2 with
              | none =>
                if x.j = 0 then
                  let (s, e) := y.1.nmePut x dst (pi.1 * rowb) (List.replicate rowb 0#8)
                  (s, e, y.2.2 + 1)
                else (y.1, 0, y.2.2 + 1)
              | some none => y
              | some (some row) =>
                let (s, e, v) := y.1.nmeRead x (table + row * rowb) rowb
                if e ≠ 0 then (s, e, y.2.2)
                else
                  let (s, e) := s.nmePut x dst (pi.1 * rowb) v
                  (s, e, y.2.2)) (s4, 0, 0)
          (r.1, ⟨if r.2.1 ≠ 0 then r.2.1 else if r.2.2 ≠ 0 then 0x07 else 0, r.2.2 % 2 ^ 32, (r.1.stk x.k).sectors⟩)
def execGather (k : Nat) (errs : List ReadErr) (ifc : Bool) (s : State) : Host.Outcome State Fault Refusal :=
  .next (s.nmeRun k 6 ifc errs gatherWork)

/-- FP32 addition of two rows. -/
def addRows (a b : List Byte) : List Nat :=
  List.zipWith add32 (unpackCodes 32 (a.length / 4) a) (unpackCodes 32 (b.length / 4) b)

def scatterWork (s : State) (x : NmeCtx) : State × NmeEnd :=
  let (nidx, rowb, nrows) := (recN x.b 40 4, recN x.b 44 4, recN x.b 48 4)
  let (table, src) := (s.nmeAddr x 16, s.nmeAddr x 32)
  let locals := [s.nmeLocal x table (nrows * rowb), s.nmeLocal x (s.nmeAddr x 24) (4 * nidx), s.nmeLocal x src (nidx * rowb)]
  let st := firstBad [if locals.contains 2 then 2 else 0, firstBad locals, idxShape x]
  if st ≠ 0 then nmeBad s x st
  else
    let (s1, c1) := s.nmeRange x mNmeWr true table (nrows * rowb)
    let (s2, c2) := s1.nmeRange x mNmeRd true (s.nmeAddr x 24) (4 * nidx)
    let (s3, c3) := s2.nmeRange x mNmeRd true src (nidx * rowb)
    if firstBad [c1, c2, c3] ≠ 0 then nmeBad s3 x 0x04
    else
      let (s4, e, idx) := s3.readIdx x
      if e ≠ 0 then nmeBad s4 x e
      else
        let r := (List.zip (List.range nidx) idx).foldl (fun (y : State × Nat × Nat) (pi : Nat × Nat) =>
          if y.2.1 ≠ 0 then y
          else match s.rowOf x nrows pi.2 with
            | none => (y.1, 0, y.2.2 + 1)
            | some none => y
            | some (some row) =>
              let (s, e1, a) := y.1.nmeRead x (table + row * rowb) rowb
              let (s, e2, b) := if e1 ≠ 0 then (s, e1, []) else s.nmeRead x (src + pi.1 * rowb) rowb
              if e2 ≠ 0 then (s, e2, y.2.2)
              else
                let v := addRows a b
                let s := s.nfSeen x.p (nfBits (unpackCodes 32 (rowb / 4) a ++ unpackCodes 32 (rowb / 4) b)) (recN x.b 4 4) none
                let (s, e) := (s.nonFinite x.p (nfBits v) (recN x.b 4 4) 16 0).nmeWrite x (table + row * rowb) (packCodes 32 v)
                (s, e, y.2.2)) (s4, 0, 0)
        (r.1, ⟨if r.2.1 ≠ 0 then r.2.1 else if r.2.2 ≠ 0 then 0x07 else 0, r.2.2 % 2 ^ 32, (r.1.stk x.k).sectors⟩)
def execScatterAdd (k : Nat) (errs : List ReadErr) (ifc : Bool) (s : State) : Host.Outcome State Fault Refusal :=
  .next (s.nmeRun k 7 ifc errs scatterWork)

/-! ## The end of a stack's part -/

/-- R156, R287: a stack's part of the oldest XFER NME operation it holds completes once none of its records is left. -/
def State.nmePart (s : State) (k : Nat) : State :=
  match s.nmeXfers.find? fun x => x.stks.contains k && !((s.stk k).queue ++ (s.stk k).backlog).any (fun r => r.xfer == x.id) with
  | none => s
  | some x =>
    let x' : NmeXfer := { x with stks := x.stks.erase k }
    let l := s.nmeXfers.map fun (y : NmeXfer) => if y.id = x.id then x' else y
    { s with nmeXfers := l.filter fun y => !y.stks.isEmpty }.csetSub x.part x.cset
def execNmePartComplete (k : Nat) (s : State) : Host.Outcome State Fault Refusal := .next (s.nmePart k)

end Sys2Proof.Machine
end

