-- ==== Sys2Proof/Machine/Matrix.lean ====
section
/-! DEFINITION. The matrix engine's micro-ops: NOP, WLOAD, MMA and MOUT (R140 to R143, R212 to R219). -/

namespace Sys2Proof.Machine

/-- Contraction length and outputs of a class (R142). -/
def clsSize (c : Nat) : Nat := match c with | 2 => 64 | 3 => 32 | _ => 128

/-- Vectors before beat `k` of an MMA (R142): 4, 8 per 3, 8 and 16 a beat. -/
def vecsBefore (c k : Nat) : Nat := match c with | 0 => 4 * k | 1 => 8 * k / 3 | 2 => 8 * k | _ => 16 * k

/-- Block size: 16 or 32 (R69). -/
def blockOf (bs16 : Bool) : Nat := if bs16 then 16 else 32

def planeKey (phys e sh : Nat) : Nat := (phys * 8 + e) * 2 + sh
def State.plane (s : State) (phys e sh : Nat) : Plane := SMap.get (fun _ => {}) s.cores.planes (planeKey phys e sh)
def State.fill (s : State) (phys e : Nat) : Option (Nat × Nat) := SMap.get (fun _ => none) s.cores.fills (phys * 8 + e)

/-- Weight element (k, o): its code in the tile (R215). -/
def Plane.code (x : Plane) (k o : Nat) : Nat :=
  let w := x.fmt.bits
  let bit := (o * clsSize x.cls + k) * w
  bitsOf (leAt x.data (bit / 8) 3) (bit % 8) w

/-- Scale code of output `o`'s block that holds `k`; 127 for an unscaled format (R79, R215). -/
def Plane.scale (x : Plane) (k o : Nat) : Nat :=
  if x.fmt.scaled then leAt x.scales ((o * clsSize x.cls + k) / blockOf x.bs16) 1 else 127

/-- One vector of activations: format, block size, codes and scale codes. -/
structure ActVec where
  fmt : Fmt
  bs16 : Bool
  codes : List Nat
  scales : List Nat
deriving DecidableEq, Repr

def ActVec.scale (a : ActVec) (k : Nat) : Nat := if a.fmt.scaled then a.scales.getD (k / blockOf a.bs16) 0 else 127

/-- R79: products in a group. -/
def groupLen (a : ActVec) (w : Plane) : Nat :=
  if (a.fmt.scaled && a.bs16) || (w.fmt.scaled && w.bs16) then 16 else 32

/-- R79: the group of products from `k0` on for output `o`, rounded to binary32. -/
def groupSum (cls : Nat) (a : ActVec) (w : Plane) (o k0 : Nat) : Nat :=
  let ks := (List.range (groupLen a w)).map (k0 + ·)
  if cls = 3 then
    treeExact (ks.map fun k =>
      (a.fmt.decodeScaled (a.scale k) (a.codes.getD k 0)).mul (w.fmt.decodeScaled (w.scale k o) (w.code k o)))
  else
    let sa := a.scale k0
    let sb := w.scale k0 o
    if sa = 255 ∨ sb = 255 then qnan32
    else
      let e := ks.foldl (fun acc k => acc.add ((a.fmt.decode (a.codes.getD k 0)).mul (w.fmt.decode (w.code k o)))) FVal.zero
      enc32 (e.shift ((sa : Int) + sb - 254))

/-- R79: one output element's accumulator after a vector's groups, ascending. -/
def accumulate (cls : Nat) (a : ActVec) (w : Plane) (o acc : Nat) : Nat :=
  (List.range (clsSize cls / groupLen a w)).foldl (fun x g => add32 x (groupSum cls a w o (g * groupLen a w))) acc

/-- An operand block with scale code 0xFF takes part (R93). -/
def scaleNan (cls : Nat) (a : ActVec) (w : Plane) : Bool :=
  (List.range (clsSize cls)).any fun k => a.scale k == 255 ||
    (w.fmt.scaled && (List.range (clsSize cls)).any fun o => w.scale k o == 255)

def opcIs (n m : Nat) : Bool := mopOpc m == n

/-- R140. -/
def State.meNop (s : State) (p core e : Nat) (err : UnitErr) : State := s.unitBeat p core e err (opcIs 0) okRes
def execMeNop (p core e : Nat) (err : UnitErr) (s : State) : Host.Outcome State Fault Refusal := .next (s.meNop p core e err)

/-- R141, R215, R217: the tile and its scales, read and decoded in the first beat; the plane changes 16 beats later. -/
def wloadWork (s : State) (x : Beat) : Res :=
  if x.k ≠ 0 then okRes s x
  else
    match s.fmt x.p (mop x.m 30 5) with
    | none => x.fail fUndefMicroop
    | some f =>
      let busy := match s.fill x.phys x.u with
        | some (b, _) => decide (x.run.beat < b + 16)
        | none => false
      if busy then x.fail fWloadBusy
      else
        let bank := 2 * x.u + mop x.m 12 1
        let cls := mop x.m 53 3
        let c := clsSize cls
        let bs16 := mop x.m 35 1 == 1
        let wa := s.effAddr x.phys x.u x.run.trip (mop x.m 13 14) (mop x.m 27 3) 16384
        let sa := s.effAddr x.phys x.u x.run.trip (mop x.m 36 14) (mop x.m 50 3) 16384
        match s.usePorts x.p x.phys [bank] (16 + x.u) with
        | .error v => x.clash v
        | .ok s1 =>
          let (s2, d) := s1.sramGet x.p x.phys x.u 0 x.err.sram (bankByte bank wa) (c * c * f.bits / 8)
          let (s3, sc) := s2.sramGet x.p x.phys x.u 0 x.err.sram (bankByte bank sa) (if f.scaled then c * c / blockOf bs16 else 0)
          let s4 := { s3 with cores := { s3.cores with
            fills := SMap.set (fun _ => none) s3.cores.fills (x.phys * 8 + x.u) (some (x.run.beat, bank)) } }
          let s5 := (s4.nfSeen x.p (nfVals ((unpackCodes f.bits (c * c) d).map f.decode)) 0 x.nfWho).nonFinite x.p
            (4 * b2n (sc.any (· == 0xFF#8))) 0 x.u x.core
          let s6 := if f.dead then s5.invalidTable x.p else s5
          okRes ((s6.sched x.p (x.run.beat + 16) (.plane (planeKey x.phys x.u 1) ⟨f, cls, bs16, d, sc⟩)).count
            x.p 0x05 x.u x.core 16) x
def execWload (p core e : Nat) (err : UnitErr) (s : State) : Host.Outcome State Fault Refusal :=
  .next (s.unitBeat p core e err (opcIs 1) wloadWork)

/-- R140, R142: the checks of an MMA's first beat, with the planes swapped where `SWAP` asks for it: the shadow plane becomes active,
and the plane that was active becomes the shadow (DESIGN CHOICE, log 44: the spec does not say what the shadow then holds). -/
def mmaFirst (s : State) (x : Beat) (f : Fmt) : Except Nat State :=
  let swap := mop x.m 53 1 == 1
  let act := s.plane x.phys x.u (b2n swap)
  let cls := max f.cls act.fmt.cls
  let rows := vecsBefore cls x.n
  let early := swap && (match s.fill x.phys x.u with
    | some (b, _) => decide (x.run.beat < b + 16)
    | none => false)
  if early then .error fWloadBusy
  else if mop x.m 56 8 + rows > 256 then .error fAccRange
  else if cls ≠ act.cls ∨ (cls = 1 ∧ x.n % 3 ≠ 0) then .error fUndefMicroop
  else if swap then
    let l := SMap.set (fun _ => {}) s.cores.planes (planeKey x.phys x.u 0) act
    let l := SMap.set (fun _ => {}) l (planeKey x.phys x.u 1) (s.plane x.phys x.u 0)
    .ok { s with cores := { s.cores with planes := l } }
  else .ok s

/-- R142, R216, R218: one beat of vectors through the active plane. The rows land the beat after the last beat. -/
def mmaBeat (s : State) (x : Beat) (f : Fmt) : Res :=
  let w := s.plane x.phys x.u 0
  let cls := w.cls
  let c := clsSize cls
  let bank := 2 * x.u + mop x.m 12 1
  let bs16 := mop x.m 35 1 == 1
  let aa := s.effAddr x.phys x.u x.run.trip (mop x.m 13 14) (mop x.m 27 3) 16384
  let sa := s.effAddr x.phys x.u x.run.trip (mop x.m 36 14) (mop x.m 50 3) 16384
  let init := mop x.m 54 2
  let zero := init == 1 || (init == 2 && x.run.trip == 0)
  let vs := (List.range (vecsBefore cls (x.k + 1) - vecsBefore cls x.k)).map (vecsBefore cls x.k + ·)
  match s.usePorts x.p x.phys [bank] x.u with
  | .error v => x.clash v
  | .ok s1 =>
    let nb := c * f.bits / 8
    let s2 := vs.foldl (fun s v =>
      let (s, d) := s.sramGet x.p x.phys x.u 0 x.err.sram (fun i => bankByte bank aa (v * nb + i)) nb
      let (s, sc) := s.sramGet x.p x.phys x.u 0 x.err.sram (fun i => bankByte bank sa (v * (c / blockOf bs16) + i))
        (if f.scaled then c / blockOf bs16 else 0)
      let a : ActVec := ⟨f, bs16, unpackCodes f.bits c d, sc.map BitVec.toNat⟩
      let (s, old) := if zero then (s, List.replicate c 0) else s.accRow x (mop x.m 56 8 + v) c
      let new := (List.range c).map fun o => accumulate cls a w o (old.getD o 0)
      let s := s.nfSeen x.p (nfVals (a.codes.map f.decode)) 0 x.nfWho
      (s.sched x.p x.endBeat (.acc (accKey x.phys x.u (mop x.m 56 8 + v)) (toWords new))).nonFinite x.p
        (nfBits new + 4 * b2n (scaleNan cls a w)) 0 x.u x.core) s1
    let s3 := if f.dead then s2.invalidTable x.p else s2
    okRes (s3.count x.p 0x04 x.u x.core 1) x

def mmaWork (s : State) (x : Beat) : Res :=
  match s.fmt x.p (mop x.m 30 5) with
  | none => x.fail fUndefMicroop
  | some f =>
    if x.k = 0 then
      match mmaFirst s x f with
      | .error c => x.fail c
      | .ok s1 => mmaBeat s1 x f
    else mmaBeat s x f
def execMma (p core e : Nat) (err : UnitErr) (s : State) : Host.Outcome State Fault Refusal :=
  .next (s.unitBeat p core e err (opcIs 2) mmaWork)

/-- R143, R218, R219: one accumulator row to core SRAM, landing two beats later. Outputs beyond the class of the MMA
that wrote the row are written as +0. -/
def moutWork (s : State) (x : Beat) : Res :=
  if mop x.m 30 8 + x.n > 256 then x.fail fAccRange
  else
    let bank := 2 * x.u + mop x.m 12 1
    let oa := s.effAddr x.phys x.u x.run.trip (mop x.m 13 14) (mop x.m 27 3) 16384
    match s.usePorts x.p x.phys [bank] x.u with
    | .error v => x.clash v
    | .ok s1 =>
      let c := s1.accOuts x.phys x.u (mop x.m 30 8 + x.k)
      let (s2, row) := s1.accRow x (mop x.m 30 8 + x.k) c
      let bytes := (row ++ List.replicate (128 - c) 0).flatMap (leBytes 4)
      -- a row of 16 units that crosses the bank's end continues at its start
      let u0 := (oa + 16 * x.k) % 16384
      let n0 := min 512 ((16384 - u0) * 32)
      let base := x.phys * 8388608 + bank * 524288
      okRes ((s2.sched x.p (x.run.beat + 2) (.sram (base + u0 * 32) (bytes.take n0))).sched x.p (x.run.beat + 2)
        (.sram base (bytes.drop n0))) x
def execMout (p core e : Nat) (err : UnitErr) (s : State) : Host.Outcome State Fault Refusal :=
  .next (s.unitBeat p core e err (opcIs 3) moutWork)

end Sys2Proof.Machine
end

