-- ==== Sys2Proof/Machine/RegOps.lean ====
section
/-! DEFINITION. Register accesses: who reaches which register (R20, R26, R27, R562), byte enables (R17), and the effect
of a write by access code (R13, R15, R16). -/

namespace Sys2Proof.Machine

/-- Whether an encoding is one that the field's table defines (R16). -/
def FieldDesc.isDefined (d : FieldDesc) (v : Nat) : Bool :=
  d.defined.isEmpty || d.defined.any fun x => decide (x.1 ≤ v ∧ v ≤ x.2)

/-- R13, R16: one field of a written register. -/
def FieldDesc.write (d : FieldDesc) (locked : Bool) (v old : Word) : Word :=
  let x := d.fld.get v
  let o := d.fld.get old
  match d.acc with
  | .rw => if d.isDefined x then d.fld.put old x else old
  | .rwl => if !locked && d.isDefined x then d.fld.put old x else old
  | .w1c => d.fld.put old (o - (o &&& x))
  | .w1s => d.fld.put old (o ||| x)
  | _ => old

/-- A field after a read has had its side-effect (R13, the code RC). -/
def FieldDesc.afterRead (d : FieldDesc) (old : Word) : Word :=
  match d.acc with | .rc => d.fld.put old 0 | _ => old

/-- A field as a read returns it: write-only fields and command bits read 0. -/
def FieldDesc.shown (d : FieldDesc) (w acc : Word) : Word :=
  match d.acc with | .wo => acc | .cmd => acc | _ => d.fld.put acc (d.fld.get w)

/-- R13: the lock bit that an RWL field of the register at `a` names (R388, R662). -/
def State.lockOf (s : State) (a : Nat) : Bool :=
  if a = Reg.PWR_LIM_CTRL then s.flag a Fld.PWR_LIM_CTRL_MODE_LOCK
  else if regFn a = 0 ∧ regOff a / 1048576 = 5 then
    (List.range 16).any fun n => decide (Reg.LL_PORT_CTRL n ≤ a ∧ (n = 15 ∨ a < Reg.LL_PORT_CTRL (n + 1))) &&
      s.flag (Reg.LL_PORT_CTRL n) Fld.LL_PORT_CTRL_TLOCK
  else false

/-- The enable registers of PF0 and of a VF, each with its status register and vector (R596). -/
def pfSources : List (Nat × Nat × Nat) :=
  [(Reg.GLB_INT_EN, Reg.GLB_INT_STATUS, 0), (Reg.PWR_INT_EN, Reg.PWR_INT_STATUS, 1), (Reg.MGT_INT_EN, Reg.MGT_INT_STATUS, 2),
   (Reg.LCS_INT_EN, Reg.LCS_INT_STATUS, 3), (Reg.HST_INT_EN, Reg.HST_INT_STATUS, 6), (Reg.MEM_INT_EN, Reg.MEM_INT_STATUS, 7),
   (Reg.PRT_INT_EN, Reg.PRT_INT_STATUS, 8), (Reg.DBG_INT_EN, Reg.DBG_INT_STATUS, 9), (Reg.MTR_INT_EN, Reg.MTR_INT_STATUS, 10)] ++
    (List.range 16).map fun n => (Reg.LL_INT_EN n, Reg.LL_INT_STATUS n, 5)
def vfSources (p : Nat) : List (Nat × Nat × Nat) :=
  [(Reg.QUE_INT_EN p, Reg.QUE_INT_STATUS p, 0), (Reg.FEN_INT_EN p, Reg.FEN_INT_STATUS p, 1), (Reg.SEQ_INT_EN p, Reg.SEQ_INT_STATUS p, 2),
   (Reg.UPD_INT_EN p, Reg.UPD_INT_STATUS p, 3), (Reg.COL_INT_EN p, Reg.COL_INT_STATUS p, 4), (Reg.CKP_INT_EN p, Reg.CKP_INT_STATUS p, 5),
   (Reg.TKEY_PROT_INT_EN p, Reg.TKEY_PROT_INT_STATUS p, 6)]

/-- R525: the bits that a mailbox's enable register stands over: `DONE`, `REJECT` and any bit of `x_ALERT`. -/
def State.keyBits (s : State) (status alert : Nat) : Nat :=
  b2n (s.flag status Fld.KEY_STATUS_DONE) + 2 * b2n (s.flag status Fld.KEY_STATUS_REJECT) + 4 * b2n (s.rn alert != 0)

/-- R525, R594, R596: of an enable register, the function and vector of its source, and the status bits that stand now. -/
def State.intSource (s : State) (a : Nat) : Option (Nat × Nat × Nat) :=
  let p := regFn a
  if a = Reg.KEY_INT_EN then some (0, 4, s.keyBits Reg.KEY_STATUS Reg.KEY_ALERT)
  else if p ≠ 0 ∧ p ≤ 4 ∧ a = Reg.TKEY_PEER_LOST_EN p then some (p, 6, b2n (s.rn (Reg.TKEY_PEER_LOST p) != 0))
  else if p ≠ 0 ∧ p ≤ 4 ∧ a = Reg.TKEY_INT_EN p then some (p, 6, s.keyBits (Reg.TKEY_STATUS p) (Reg.TKEY_ALERT p))
  else ((if p = 0 then pfSources else if p ≤ 4 then vfSources p else []).find? fun e => e.1 == a).map fun e => (p, e.2.2, s.rn e.2.1)

/-- R596: the register at `a` has taken a write, and the vector is raised where an enable has come to stand over a status bit that
is 1 already. `old` is the word before the write. -/
def State.enableIrq (s : State) (a old : Nat) : State :=
  match s.intSource a with
  | none => s
  | some (fn, vec, bits) =>
    if bits &&& s.rn a = bits &&& s.rn a &&& old then s else s.emit (.msix fn vec)

/-- A write by access codes alone; an offset without a register takes none (R18). -/
def State.regWrite (s : State) (a : Nat) (v : Word) : State :=
  match regDesc a with
  | none => s
  | some (d, _) =>
    let locked := s.lockOf a
    (s.wr a (d.fields.foldl (fun w f => f.write locked v w) (s.rd a))).enableIrq a (s.rn a)

/-- The word that a read of a register returns, and the register after the read. -/
def State.regRead (_ : State) (a : Nat) (w : Word) : Word :=
  match regDesc a with
  | none => 0
  | some (d, _) => d.fields.foldl (fun acc f => f.shown w acc) 0
/-- Whether a write can have any effect on a register: some field is neither RO nor RC. -/
def RegDesc.writable (d : RegDesc) : Bool := d.fields.any fun f => !(f.acc == .ro || f.acc == .rc)
/-- A register that takes writes lies at `a`. -/
def writableAt (a : Nat) : Bool := match regDesc a with | some (d, _) => d.writable | none => false

def State.regAfterRead (s : State) (a : Nat) : State :=
  match regDesc a with
  | none => s
  | some (d, _) =>
    if d.fields.any fun f => f.acc == .rc then s.wr a (d.fields.foldl (fun w f => f.afterRead w) (s.rd a)) else s

/-- R29: VF `n` is enabled: it is one of those that the host enables, and its partition exists in the layout. -/
def State.vfEnabled (s : State) (n : Nat) : Bool := decide (n ≤ s.vfs) && s.nquad n != 0

/-- R27, R29, R562: whether the BAR0 of VF `n` accepts a request. -/
def State.vfOpen (s : State) (n : Nat) (trusted : Bool) : Bool :=
  s.vfEnabled n &&
    (let st := s.partState n
     if st ≤ 2 then !trusted
     else st == 4 && trusted && s.fget (Reg.PRT_STATE n) Fld.PRT_STATE_TDI == 2)

/-- Whether a requester reaches the register address: the keeper all of them, the management interfaces the blocks
GLB, PWR, MGT, LCS, KEY and MTR of PF0's map and, for the fabric manager, each port's `LL_PORT_CTRL` and `LL_EXPECT`; a function its own
BAR0. -/
def State.reaches (s : State) (r : RegReq) (a : Nat) : Bool :=
  match r.who with
  | 0 => true
  | 1 => regFn a == 5 || (regFn a == 0 && ([0, 1, 2, 3, 4, 10].contains (regOff a / 1048576) ||
      (regOff a / 1048576 == 5 && [0x0, 0xC].contains (regOff a % 65536))))
  | 2 => regFn a == 0 && s.mse
  | w => regFn a == w - 2 && s.vfOpen (w - 2) r.trusted

/-- The function behind a requester index, where it is one. -/
def fnOf (who : Nat) : Nat := who - 2

/-- R692: management firmware answers the management interfaces. -/
def State.mgmtUp (s : State) : Bool :=
  let g := s.fget Reg.GLB_BOOT_STAT Fld.GLB_BOOT_STAT_STAGE
  g == 3 || g == 4

/-- An access that may have effect `f`: one that a function may not make completes with Unsupported Request. While a reset is held nothing
answers, and before management firmware runs the management interfaces answer ERROR_NOT_READY (R692). -/
def State.access (s : State) (r : RegReq) (a : Nat) (f : State → State) : State :=
  if s.power.relAt.isNone then s
  else if r.who = 1 ∧ !s.mgmtUp then s.emit (.status 0 4)
  else if s.reaches r a then f s
  else if r.who ≥ 2 ∧ regFn a = fnOf r.who then s.emit (.status (fnOf r.who) 1)
  else s

/-- R19, R26, R27, R676: whether the home domain of the register at `a` answers: the always-on domain does, and a port's registers do
whatever its link does (R352); each other domain runs once its clock has locked. -/
def State.domainUp (s : State) (a : Nat) : Bool :=
  let lock (f : Fld) : Bool := s.flag Reg.GLB_CLK_STAT f
  let o := regOff a
  match regFn a, o / 1048576 with
  | 0, 5 => lock Fld.GLB_CLK_STAT_LREF_LOCK
  | 0, 6 => lock Fld.GLB_CLK_STAT_PCLK_LOCK
  | 0, 7 =>
    let m := s.fget Reg.GLB_CLK_STAT Fld.GLB_CLK_STAT_MCLK_LOCK
    if 0x710000 ≤ o then bitOf m ((o - 0x710000) / 65536) else m != 0
  | 0, b => !(b == 8 || b == 9) || lock Fld.GLB_CLK_STAT_CCLK_LOCK
  | 5, _ => true
  | _, b => b == 8 || lock Fld.GLB_CLK_STAT_CCLK_LOCK

/-- A write with effect `f`: dropped whole when a byte enable is missing (R17), and when the home domain does not answer (R19). -/
def State.write (s : State) (r : RegReq) (a : Nat) (f : State → State) : State :=
  s.access r a fun s => if r.be % 16 = 15 ∧ s.domainUp a then f s else s

/-- R17: the dwords that an access of `n` bytes at `a` touches, in ascending order: address, value and byte enables of each. -/
def dwordsOf (a n v be : Nat) : List (Nat × Word × Nat) :=
  (List.range ((a % 4 + n + 3) / 4)).map fun i =>
    (a / 4 * 4 + 4 * i, BitVec.ofNat 32 (v * 2 ^ (8 * (a % 4)) / 2 ^ (32 * i)), be % 2 ^ n * 2 ^ (a % 4) / 2 ^ (4 * i) % 16)

end Sys2Proof.Machine
end

