-- ==== Sys2Proof/Machine/StreamEng.lean ====
section
/-! DEFINITION. The stream engine's micro-ops (R147 to R149, R408), the rings (R224 to R233, R338) and the writes of
their registers (R247 to R250). -/

namespace Sys2Proof.Machine

/-- R140. -/
def execSeNop (p core : Nat) (err : UnitErr) (s : State) : Host.Outcome State Fault Refusal :=
  .next (s.unitBeat p core 9 err (opcIs 0) okRes)

/-! ## Scheduled moves -/

/-- R148, R408: 512 bytes on the mesh, landing 24 beats after the beat that reads them; a stream that has faulted sends none (R160). -/
def State.meshSend (s : State) (x : Beat) (kind src dst addr : Nat) (v : List Byte) (add : Bool) : State :=
  let l : MeshLand := {
    beat := x.run.beat + 24, deferred := false, kind := kind, src := src, dst := dst, addr := addr % 8388608,
    bytes := v, add := add, win := none, pc := x.run.pc }
  if s.stopped x.p then s else (s.setSq x.p { s.sq x.p with mesh := (s.sq x.p).mesh ++ [l] }).count x.p 0x07 9 x.core 512

/-- The byte address that beat `k` of a stream-engine micro-op uses for an address field with its selector. -/
def State.seAddr (s : State) (x : Beat) (lo sel : Nat) : Nat :=
  32 * s.effAddr x.phys 9 x.run.trip (mop x.m lo 18) (mop x.m sel 3) 262144 + 512 * x.k

def scopyWork (s : State) (x : Beat) : Res :=
  let d := mop x.m 33 7
  if s.ncores x.p ≤ d then x.fail fRange
  else
    let src := s.seAddr x 12 30
    match s.portGet x (fun i => (src + i) % 8388608) 512 with
    | .error v => x.clash v
    | .ok (s1, v) => okRes (s1.meshSend x 1 x.core (s.pcore x.p d) (s.seAddr x 40 58) v false) x
def execScopy (p core : Nat) (err : UnitErr) (s : State) : Host.Outcome State Fault Refusal :=
  .next (s.unitBeat p core 9 err (opcIs 1) scopyWork)

def rbputWork (s : State) (x : Beat) : Res :=
  match s.rbAddr x.p (mop x.m 12 9) (mop x.m 21 11) (16 * x.n) with
  | none => x.fail fRange
  | some u =>
    let (home, b) := s.rbPlace x.p u
    let src := s.seAddr x 32 50
    match s.portGet x (fun i => (src + i) % 8388608) 512 with
    | .error v => x.clash v
    | .ok (s1, v) => okRes (s1.meshSend x 1 x.core (s.pcore x.p home) (b + 512 * x.k) v (mop x.m 53 2 == 1)) x
def execRbput (p core : Nat) (err : UnitErr) (s : State) : Host.Outcome State Fault Refusal :=
  .next (s.unitBeat p core 9 err (opcIs 2) rbputWork)

/-- RBGET reads through the transfer port of the home core; `err.sram` names words of that core's SRAM. -/
def rbgetWork (s : State) (x : Beat) : Res :=
  match s.rbAddr x.p (mop x.m 12 9) (mop x.m 21 11) (16 * x.n) with
  | none => x.fail fRange
  | some u =>
    let (home, b) := s.rbPlace x.p u
    let (s1, v) := s.sramGet x.p (s.pcore x.p home) 9 1 x.err.sram (fun i => b + 512 * x.k + i) 512
    okRes (s1.meshSend x 2 home x.phys (s.seAddr x 32 50) v false) x
def execRbget (p core : Nat) (err : UnitErr) (s : State) : Host.Outcome State Fault Refusal :=
  .next (s.unitBeat p core 9 err (opcIs 3) rbgetWork)

/-! ## Ring bursts -/

/-- R149, R228: the first beat of an RGET or RPUT: its checks, one more in its completion set, and the burst becomes
outstanding. -/
def burstWork (put : Bool) (s : State) (x : Beat) : Res :=
  if x.k ≠ 0 then okRes s x
  else
    let i := ringIdx x.core (mop x.m 12 4)
    let r := s.ring x.p i
    let n := mop x.m 37 12 + 1
    let okKind := if put then r.kind == 2 || r.kind == 4 else r.kind == 1 || r.kind == 3
    if !okKind || decide ((s.ring x.p (s.ringHome x.p i)).n < n) then x.fail fRange
    else match s.csetAdd x.p (mop x.m 49 5) 1 with
      | none => x.fail fCsetOvf
      | some s1 =>
        let b : Burst := {
          id := s1.serial, put := put, cset := mop x.m 49 5, core := x.core, ring := mop x.m 12 4
          addr := s.seAddr x 16 34, nrec := n, pc := x.run.pc }
        okRes ({ s1 with serial := s1.serial + 1 }.setSq x.p { s1.sq x.p with bursts := (s1.sq x.p).bursts ++ [b] }) x

def execRget (p core : Nat) (err : UnitErr) (s : State) : Host.Outcome State Fault Refusal :=
  .next (s.unitBeat p core 9 err (opcIs 4) (burstWork false))
def execRput (p core : Nat) (err : UnitErr) (s : State) : Host.Outcome State Fault Refusal :=
  .next (s.unitBeat p core 9 err (opcIs 5) (burstWork true))

/-- R225: the runs of `n` records from index `k` on, as offset from the base and length. -/
def Ring.runs (r : Ring) (k n : Nat) : List (Nat × Nat) :=
  let j := k % r.n
  let n1 := min n (r.n - j)
  ([(j * r.rsz, n1 * r.rsz)] ++ if n1 < n then [(0, (n - n1) * r.rsz)] else []).filter fun x => x.2 != 0

/-- Advance the index of a memory ring that its stream engine owns (R338), or of a queue ring. -/
def State.advCons (s : State) (p i n : Nat) : State :=
  if (s.ring p i).kind = 1 ∧ s.flag (Reg.UPD_CTRL p) Fld.UPD_CTRL_STEP_RINGS then s.setAhead p i (s.ringAhead p i + n)
  else s.wn (Reg.SEQ_RING_CONS p i) (s.rn (Reg.SEQ_RING_CONS p i) + n)
def State.advProd (s : State) (p i n : Nat) : State :=
  if (s.ring p i).kind = 2 ∧ s.flag (Reg.UPD_CTRL p) Fld.UPD_CTRL_STEP_RINGS then s.setAhead p i (s.ringAhead p i + n)
  else s.wn (Reg.SEQ_RING_PROD p i) (s.rn (Reg.SEQ_RING_PROD p i) + n)

/-- The outstanding burst of a ring that moves next (R229). -/
def State.burst (s : State) (p core ring : Nat) (put : Bool) : Option Burst :=
  (s.sq p).bursts.find? fun b => b.core == core && b.ring == ring && b.put == put

/-- A burst has ended: it leaves the list, and its completion set falls by 1 (R156). -/
def State.endBurst (s : State) (p : Nat) (b : Burst) : State :=
  (s.setSq p { s.sq p with bursts := (s.sq p).bursts.erase b }).csetSub p b.cset

/-- Check every run of a burst on a memory ring. -/
def State.checkRuns (s : State) (p : Nat) (m : Master) (base : Nat) (l : List (Nat × Nat)) : State × Nat :=
  l.foldl (fun (x : State × Nat) r => if x.2 ≠ 0 then x else x.1.checkRun p m true (base + r.1) r.2) (s, 0)

/-- The records that an RGET burst delivers, or the code of a refused access. -/
def State.ringRead (s : State) (errs : List ReadErr) (p i : Nat) (b : Burst) (f : Nat) (bad : SramErrs) :
    State × Nat × List Byte :=
  let r := s.ring p i
  let l := r.runs r.cons f
  if r.kind = 1 then
    let (s, c) := s.checkRuns p mCoreRd r.base l
    if c ≠ 0 then (s, c, [])
    else l.foldl (fun (x : State × Nat × List Byte) run =>
      let (s, v) := x.1.readRun errs p true false (r.base + run.1) run.2
      (s, 0, x.2.2 ++ v.bytes)) (s, 0, [])
  else l.foldl (fun (x : State × Nat × List Byte) run =>
      let (s, v) := x.1.sramGet p (s.pcore p b.core) 9 1 bad (fun k => r.base % 8388608 + run.1 + k) run.2
      (s, 0, x.2.2 ++ v)) (s, 0, [])

/-- R228 to R230, R276: an outstanding RGET burst moves whole once the fill is its length, or short after end-of-data. `bad`
names errors of the core's SRAM. -/
def State.rgetMove (s : State) (p core ring : Nat) (errs : List ReadErr) (bad : SramErrs) : State :=
  match s.burst p core ring false with
  | none => s
  | some b =>
    let i := ringIdx core ring
    let r := s.ring p i
    let f := min r.fill b.nrec
    if s.halted ∨ (f < b.nrec ∧ !r.eod) ∨ (r.kind = 1 ∧ s.tagWait p 3 (some core)) then s
    else s.issuedAs p b.id fun s =>
      let (s1, c, v) := s.ringRead errs p i b f bad
      if c ≠ 0 then (s1.endBurst p b).seqFault p fRange core 9 b.pc
      else
        let phys := s.pcore p core
        let s2 := s1.sramWr phys b.addr (v ++ List.replicate ((b.nrec - f) * r.rsz) 0#8)
        let s3 := ((s2.advCons p i f).count p 0x08 16 core (f * r.rsz)).endBurst p b
        if f < b.nrec then
          let t := Reg.SEQ_RING_STAT p i
          (((s3.fput t Fld.SEQ_RING_STAT_SHORT 1).fput t Fld.SEQ_RING_STAT_SHORT_CNT f).count p 0x0E 9 core 1).sepiaRec
            (unitSe phys) 0x20 p (ring + 16 * f)
        else s3
def execRgetBurstMove (p core ring : Nat) (errs : List ReadErr) (bad : SramErrs) (s : State) :
    Host.Outcome State Fault Refusal := .next (s.rgetMove p core ring errs bad)

/-- R226, R228, R229, R276: an outstanding RPUT burst moves whole once the places are free; the producer index advances after
the records have landed. A posted end-of-data has frozen that index (R231). -/
def State.rputMove (s : State) (p core ring : Nat) (errs : List ReadErr) (bad : SramErrs) : State :=
  match s.burst p core ring true with
  | none => s
  | some b =>
    let i := ringIdx core ring
    let h := s.ringHome p i
    let r := s.ring p h
    if s.halted ∨ r.eod ∨ r.n - r.fill < b.nrec ∨ ((s.ring p i).kind = 4 ∧ r.kind ≠ 3) ∨ (r.kind = 2 ∧ s.tagWait p 3 (some core)) then s
    else s.issuedAs p b.id fun s =>
      let l := r.runs r.prod b.nrec
      let len := b.nrec * r.rsz
      let (s1, c) := if r.kind = 2 then s.checkRuns p mCoreWr r.base l else (s, 0)
      if c ≠ 0 then (s1.endBurst p b).seqFault p fRange core 9 b.pc
      else
        let (s2, v) := s1.sramGet p (s.pcore p core) 9 1 bad (fun k => b.addr + k) len
        let s3 := (l.foldl (fun (x : State × Nat) run =>
          let chunk := (v.drop x.2).take run.2
          (if r.kind = 2 then (x.1.writeRun errs p false false (r.base + run.1) chunk).1
            else x.1.sramWr (s.pcore p (s.ring p i).peerCore) (r.base % 8388608 + run.1) chunk, x.2 + run.2)) (s2, 0)).1
        ((s3.advProd p h b.nrec).count p 0x09 16 core len).endBurst p b
def execRputBurstMove (p core ring : Nat) (errs : List ReadErr) (bad : SramErrs) (s : State) :
    Host.Outcome State Fault Refusal := .next (s.rputMove p core ring errs bad)

/-! ## Ring registers -/

/-- R231, R232: a host write of the producer index. -/
def State.ringProdW (s : State) (p i v : Nat) : State :=
  let r := s.ring p i
  let prod := s.rn (Reg.SEQ_RING_PROD p i)
  let fill := (prod + 4294967296 - s.rn (Reg.SEQ_RING_CONS p i)) % 4294967296
  if r.kind ≠ 1 then s
  else if r.eod ∨ r.n < fill + (v + 4294967296 - prod) % 4294967296 then
    s.setBits (Reg.SEQ_RING_STAT p i) Fld.SEQ_RING_STAT_ERR_PROD.mask
  else s.wn (Reg.SEQ_RING_PROD p i) v
def execRingProdWrite (r : RegReq) (p core ring v : Nat) (s : State) : Host.Outcome State Fault Refusal :=
  .next (s.write r (Reg.SEQ_RING_PROD p (ringIdx core ring)) fun s => s.ringProdW p (ringIdx core ring) v)

/-- R232: a host write of the consumer index. -/
def State.ringConsW (s : State) (p i v : Nat) : State :=
  let cons := s.rn (Reg.SEQ_RING_CONS p i)
  let fill := (s.rn (Reg.SEQ_RING_PROD p i) + 4294967296 - cons) % 4294967296
  if (s.ring p i).kind ≠ 2 then s
  else if fill < (v + 4294967296 - cons) % 4294967296 then
    s.setBits (Reg.SEQ_RING_STAT p i) Fld.SEQ_RING_STAT_ERR_CONS.mask
  else s.wn (Reg.SEQ_RING_CONS p i) v
def execRingConsWrite (r : RegReq) (p core ring v : Nat) (s : State) : Host.Outcome State Fault Refusal :=
  .next (s.write r (Reg.SEQ_RING_CONS p (ringIdx core ring)) fun s => s.ringConsW p (ringIdx core ring) v)

/-- R231, R249: end-of-data. -/
def State.ringEod (s : State) (p i : Nat) : State := s.fput (Reg.SEQ_RING_CTRL p i) Fld.SEQ_RING_CTRL_EOD 1
def execRingEod (r : RegReq) (p core ring : Nat) (s : State) : Host.Outcome State Fault Refusal :=
  .next (s.write r (Reg.SEQ_RING_CTRL p (ringIdx core ring)) fun s => s.ringEod p (ringIdx core ring))

def State.ringErrCfg (s : State) (p i : Nat) : State :=
  s.setBits (Reg.SEQ_RING_STAT p i) Fld.SEQ_RING_STAT_ERR_CFG.mask

/-- R233, R249. -/
def State.ringReset (s : State) (p i : Nat) : State :=
  if s.stopped p then
    ((((s.wn (Reg.SEQ_RING_PROD p i) 0).wn (Reg.SEQ_RING_CONS p i) 0).wn (Reg.SEQ_RING_CTRL p i) 0).wn
      (Reg.SEQ_RING_STAT p i) 0).setAhead p i 0
  else s.ringErrCfg p i
def execRingReset (r : RegReq) (p core ring : Nat) (s : State) : Host.Outcome State Fault Refusal :=
  .next (s.write r (Reg.SEQ_RING_CTRL p (ringIdx core ring)) fun s => s.ringReset p (ringIdx core ring))

/-- R233, R248: whether the storage of a ring lies within the partition or the core's SRAM. A QUEUE_OUT slot has no storage: it fits where
its `BASE_HI` is 0 and its peer is a core of the partition, and a write that would leave it otherwise is dropped with ERR_CFG like any
that does not fit (DESIGN CHOICE, log 44: R233 does not list this case). -/
def State.ringFits (s : State) (p i : Nat) : Bool :=
  let r := s.ring p i
  if r.kind = 1 ∨ r.kind = 2 then
    match s.offset p r.base with
    | some o => decide (o + r.n * r.rsz ≤ s.memSize p)
    | none => false
  else if r.kind = 3 then decide (r.base < 8388608 ∧ r.base + r.n * r.rsz ≤ 8388608)
  else if r.kind = 4 then decide (r.base < 4294967296 ∧ r.peerCore < s.ncores p)
  else true

/-- R233: a write of one of a ring's three configuration registers: 0 `BASE_LO`, 1 `BASE_HI`, 2 `CFG`. -/
def ringCfgReg (p i which : Nat) : Nat :=
  if which = 0 then Reg.SEQ_RING_BASE_LO p i else if which = 1 then Reg.SEQ_RING_BASE_HI p i else Reg.SEQ_RING_CFG p i
def State.ringCfgW (s : State) (p i which : Nat) (v : Word) : State :=
  let s1 := s.regWrite (ringCfgReg p i which) v
  if !s.stopped p || (which == 0 && v.toNat % 32 != 0) || !s1.ringFits p i then s.ringErrCfg p i else s1
def execRingCfgWrite (r : RegReq) (p core ring which : Nat) (v : Word) (s : State) : Host.Outcome State Fault Refusal :=
  .next (s.write r (ringCfgReg p (ringIdx core ring) which) fun s => s.ringCfgW p (ringIdx core ring) which v)

end Sys2Proof.Machine
end

