-- ==== Sys2Proof/Machine/Vector.lean ====
section
/-! DEFINITION. The vector engine's micro-ops (R144 to R146, R220 to R223). -/

namespace Sys2Proof.Machine

/-- A result for register `r` that lands `late` beats after the micro-op's last beat. -/
def State.vput (s : State) (x : Beat) (r late : Nat) (v : List Nat) : State :=
  s.sched x.p (x.endBeat - 1 + late) (.vreg (vregKey x.phys r) (toWords v))

def opcFn (n lo w fn m : Nat) : Bool := mopOpc m == n && mop m lo w == fn

def execVeNop (p core : Nat) (err : UnitErr) (s : State) : Host.Outcome State Fault Refusal :=
  .next (s.unitBeat p core 8 err (opcIs 0) okRes)

/-! ## Loads and stores -/

def sptrKey (phys sel : Nat) : Nat := phys * 2 + sel
def State.sptr (s : State) (phys sel : Nat) : Nat := SMap.get (fun _ => 0) s.cores.sptr (sptrKey phys sel)
def State.setSptr (s : State) (phys sel v : Nat) : State :=
  { s with cores := { s.cores with sptr := SMap.set (fun _ => 0) s.cores.sptr (sptrKey phys sel) (v % 524288) } }

/-- Scale bytes of a 512-element micro-op (R145). -/
def scaleBytes (f : Fmt) (bs16 : Bool) : Nat := if f.scaled then 512 / blockOf bs16 else 0

/-- The bytes of core SRAM that a load or store touches in beat `k` (R220): the scale bytes with beat 0, then the
data bytes 1,024 k on. -/
def vmemAddrs (a ptr sc total k : Nat) : List Nat :=
  (if k = 0 then (List.range sc).map fun i => ptr * 16 + i else []) ++
    (List.range (min 1024 (total - 1024 * k))).map fun i => a * 32 + 1024 * k + i

/-- R145, R220: VLD gathers its bytes in its first beats and lands two beats after its last one. The bytes gathered are
the scales, the data, and two bytes of the pointer the scales were read at. -/
def vldWork (s : State) (x : Beat) : Res :=
  match s.fmt x.p (mop x.m 39 5) with
  | none => x.fail fUndefMicroop
  | some f =>
    let bs16 := mop x.m 44 1 == 1
    let sc := scaleBytes f bs16
    let total := 512 * f.bits / 8
    let a := s.effAddr x.phys 8 x.run.trip (mop x.m 18 18) (mop x.m 36 3) 262144
    let s0 := s.count x.p 0x06 8 x.core 1
    let step : Res :=
      if x.k < vldMin f then
        let l := vmemAddrs a (s.sptr x.phys 0) sc total x.k
        match s0.portGet x (fun i => l.getD i 0) l.length with
        | .error v => x.clash v
        | .ok (s1, d) =>
          .ok (if x.k = 0 ∧ sc ≠ 0 then s1.setSptr x.phys 0 (s.sptr x.phys 0 + sc / 16) else s1, x.run.buf ++ d)
      else okRes s0 x
    match step with
    | .error c => .error c
    | .ok (s1, buf) =>
      if x.k + 1 < x.n then .ok (s1, buf)
      else
        let codes := unpackCodes f.bits 512 (buf.drop sc)
        let v := (List.zip (List.range 512) codes).map fun (i, c) =>
          if f = .f32 then c else enc32 (f.decodeScaled ((buf.getD (i / blockOf bs16) 0#8).toNat) c)
        let nan255 := f.scaled && (buf.take sc).any (· == 0xFF#8)
        let s2 := if f = .f32 then s1 else s1.nonFinite x.p (nfBits v + 4 * b2n nan255) 0 8 x.core
        .ok ((if f.dead then s2.invalidTable x.p else s2).vput x (mop x.m 12 6) 2 v, buf)
def execVld (p core : Nat) (err : UnitErr) (s : State) : Host.Outcome State Fault Refusal :=
  .next (s.unitBeat p core 8 err (opcIs 1) vldWork)

/-- The converted bytes of a store: scale bytes, data bytes, saturated elements, and the kinds of non-finite events. -/
structure Stored where
  scales : List Byte
  data : List Byte
  sat : Nat
  nf : Nat
deriving DecidableEq, Repr

/-- R72, R90, R91: 512 binary32 values into a format, each with its rounding. -/
def convert512 (f : Fmt) (bs16 nosc : Bool) (ms : List RMode) (v : List Nat) : Stored :=
  if f.scaled && !nosc then
    let b := blockOf bs16
    let bl := (List.range (512 / b)).map fun i => convBlock f ((ms.drop (b * i)).take b) ((v.drop (b * i)).take b)
    ⟨toBytes' (bl.map (·.1)), packCodes f.bits (bl.flatMap (·.2.1)), 0,
      nfBits v + 4 * b2n (bl.any fun x => x.1 == 255)⟩
  else
    let l := List.zipWith (fun m x => convUnscaled f m x) ms v
    ⟨if f.scaled then List.replicate (512 / blockOf bs16) 127#8 else [], packCodes f.bits (l.map (·.code)),
      (l.filter (·.sat)).length,
      if f = .f32 then 0 else nfBits v ||| (if f = .f16 ∨ f = .bf16 then nfVals (l.map fun c => f.decode c.code) else 0)⟩
where toBytes' (l : List Nat) : List Byte := l.map (BitVec.ofNat 8)

/-- R145, R220: VST reads its register in its first beat, touches core SRAM in its first beats, and its words land two
beats after its last one. -/
def vstWork (s : State) (x : Beat) : Res :=
  match s.fmt x.p (mop x.m 39 5) with
  | none => x.fail fUndefMicroop
  | some f =>
    let bs16 := mop x.m 44 1 == 1
    let sc := scaleBytes f bs16
    let total := 512 * f.bits / 8
    let a := s.effAddr x.phys 8 x.run.trip (mop x.m 18 18) (mop x.m 36 3) 262144
    let s0 := s.count x.p 0x06 8 x.core 1
    let ptr := s.sptr x.phys 1
    if x.k < vldMin f then
      let l := vmemAddrs a ptr sc total x.k
      match s0.usePorts x.p x.phys (l.map sramBank).eraseDups 8 with
      | .error v => x.clash v
      | .ok s1 =>
        if x.k ≠ 0 then okRes s1 x
        else
          let (s2, v) := s1.vreg x (mop x.m 12 6)
          let tid := s.tensorId x.phys (mop x.m 46 3)
          let e0 := s.elemBase x.phys (mop x.m 46 3) x.run.rank x.run.trip
          let ms := (List.range 512).map fun l =>
            if mop x.m 45 1 = 1 ∧ f ≠ .f32 then RMode.sr (s.srDraw x.p tid (e0 + l)) else .rne
          let r := convert512 f bs16 (mop x.m 49 1 == 1) ms v
          let s3 := (if f.dead then s2.invalidTable x.p else s2).nonFinite x.p r.nf tid 8 x.core
          let s4 := s3.bump (Reg.FMT_SAT_COUNT x.p) Fld.FMT_SAT_COUNT_COUNT r.sat
          let s5 := if sc = 0 then s4 else
            (s4.setSptr x.phys 1 (ptr + sc / 16)).sched x.p (x.endBeat + 1) (.sram (sramKey x.phys (ptr * 16)) r.scales)
          okRes (s5.sched x.p (x.endBeat + 1) (.sram (sramKey x.phys (a * 32)) r.data)) x
    else okRes s0 x
def execVst (p core : Nat) (err : UnitErr) (s : State) : Host.Outcome State Fault Refusal :=
  .next (s.unitBeat p core 8 err (opcIs 2) vstWork)

/-- R145: VSPTR. -/
def vsptrWork (s : State) (x : Beat) : Res :=
  okRes ((if x.k = 0 then s.setSptr x.phys (mop x.m 12 1) (mop x.m 13 19) else s).count x.p 0x06 8 x.core 1) x
def execVsptr (p core : Nat) (err : UnitErr) (s : State) : Host.Outcome State Fault Refusal :=
  .next (s.unitBeat p core 8 err (opcIs 7) vsptrWork)

/-- R146: VRND. -/
def vrndWork (s : State) (x : Beat) : Res :=
  let s0 := s.count x.p 0x06 8 x.core 1
  if x.k ≠ 0 then okRes s0 x
  else
    let tid := s.tensorId x.phys (mop x.m 18 3)
    let e0 := s.elemBase x.phys (mop x.m 18 3) x.run.rank x.run.trip
    okRes (s0.vput x (mop x.m 12 6) 1 ((List.range 512).map fun l => enc32 (.fin false (s.srDraw x.p tid (e0 + l)) (-16)))) x
def execVrnd (p core : Nat) (err : UnitErr) (s : State) : Host.Outcome State Fault Refusal :=
  .next (s.unitBeat p core 8 err (opcIs 6) vrndWork)

/-! ## Lane arithmetic -/

/-- A beat of `rate` register sets, lane by lane, landing `late` beats after the last beat (R220). The register fields
are `VD` at 12, `VA` at 18, `VB` at 24 and `VC` at 30; `nb` says how many of the sources the operation reads. -/
def laneWork (rate late nb : Nat) (f : Nat → Nat → Nat → Nat) (s : State) (x : Beat) : Res :=
  let s0 := s.count x.p 0x06 8 x.core 1
  okRes ((List.range rate).foldl (fun s j =>
    let j := rate * x.k + j
    let (s, a) := s.vreg x (mop x.m 18 6 + j)
    let (s, b) := if nb ≥ 2 then s.vreg x (mop x.m 24 6 + j) else (s, a)
    let (s, c) := if nb ≥ 3 then s.vreg x (mop x.m 30 6 + j) else (s, a)
    let v := (List.range 512).map fun l => f (a.getD l 0) (b.getD l 0) (c.getD l 0)
    let s := s.nfSeen x.p (nfBits a ||| nfBits b ||| nfBits c) 0 x.nfWho
    (s.nonFinite x.p (nfBits v) 0 8 x.core).vput x (mop x.m 12 6 + j) late v) s0) x

/-- A VALU micro-op of function `fn` (R144). -/
def State.valu (s : State) (p core : Nat) (err : UnitErr) (fn rate late nb : Nat) (f : Nat → Nat → Nat → Nat) : State :=
  s.unitBeat p core 8 err (opcFn 3 36 6 fn) (laneWork rate late nb f)

def execValuAdd (p core : Nat) (err : UnitErr) (s : State) : Host.Outcome State Fault Refusal :=
  .next (s.valu p core err 0x00 4 1 2 fun a b _ => add32 a b)
def execValuSub (p core : Nat) (err : UnitErr) (s : State) : Host.Outcome State Fault Refusal :=
  .next (s.valu p core err 0x01 4 1 2 fun a b _ => sub32 a b)
def execValuMul (p core : Nat) (err : UnitErr) (s : State) : Host.Outcome State Fault Refusal :=
  .next (s.valu p core err 0x02 4 1 2 fun a b _ => mul32 a b)
def execValuFma (p core : Nat) (err : UnitErr) (s : State) : Host.Outcome State Fault Refusal :=
  .next (s.valu p core err 0x03 4 1 3 fma32)
def execValuMax (p core : Nat) (err : UnitErr) (s : State) : Host.Outcome State Fault Refusal :=
  .next (s.valu p core err 0x04 4 1 2 fun a b _ => max32 a b)
def execValuMin (p core : Nat) (err : UnitErr) (s : State) : Host.Outcome State Fault Refusal :=
  .next (s.valu p core err 0x05 4 1 2 fun a b _ => min32 a b)
def execValuDiv (p core : Nat) (err : UnitErr) (s : State) : Host.Outcome State Fault Refusal :=
  .next (s.valu p core err 0x06 1 3 2 fun a b _ => div32 a b)
def execValuSqrt (p core : Nat) (err : UnitErr) (s : State) : Host.Outcome State Fault Refusal :=
  .next (s.valu p core err 0x07 1 3 1 fun a _ _ => sqrt32 a)
def execValuAbs (p core : Nat) (err : UnitErr) (s : State) : Host.Outcome State Fault Refusal :=
  .next (s.valu p core err 0x08 4 1 1 fun a _ _ => abs32 a)
def execValuNeg (p core : Nat) (err : UnitErr) (s : State) : Host.Outcome State Fault Refusal :=
  .next (s.valu p core err 0x09 4 1 1 fun a _ _ => neg32 a)
def execValuSel (p core : Nat) (err : UnitErr) (s : State) : Host.Outcome State Fault Refusal :=
  .next (s.valu p core err 0x0A 4 1 3 vSel)
def execValuCmpgt (p core : Nat) (err : UnitErr) (s : State) : Host.Outcome State Fault Refusal :=
  .next (s.valu p core err 0x0B 4 1 2 fun a b _ => vCmpGt a b)
def execValuMov (p core : Nat) (err : UnitErr) (s : State) : Host.Outcome State Fault Refusal :=
  .next (s.valu p core err 0x0C 4 1 1 fun a _ _ => vMov a)

/-- A VTR micro-op of function `fn` (R223). -/
def State.vtr (s : State) (p core : Nat) (err : UnitErr) (fn : Nat) (f : Nat → Nat) : State :=
  s.unitBeat p core 8 err (opcFn 4 24 4 fn) (laneWork 1 3 1 fun a _ _ => f a)

def execVtrExp (p core : Nat) (err : UnitErr) (s : State) : Host.Outcome State Fault Refusal := .next (s.vtr p core err 0 vExp)
def execVtrExp2 (p core : Nat) (err : UnitErr) (s : State) : Host.Outcome State Fault Refusal := .next (s.vtr p core err 1 vExp2)
/-- The logarithm of +Inf is an open value (R223 states none). -/
def execVtrLog (p core : Nat) (err : UnitErr) (s : State) : Host.Outcome State Fault Refusal :=
  .next (s.vtr p core err 2 fun a => vLog (Config.openValue 9 [a] % 2 ^ 32) a)
def execVtrRecip (p core : Nat) (err : UnitErr) (s : State) : Host.Outcome State Fault Refusal := .next (s.vtr p core err 3 vRecip)
def execVtrRsqrt (p core : Nat) (err : UnitErr) (s : State) : Host.Outcome State Fault Refusal := .next (s.vtr p core err 4 vRsqrt)
def execVtrTanh (p core : Nat) (err : UnitErr) (s : State) : Host.Outcome State Fault Refusal := .next (s.vtr p core err 5 vTanh)
def execVtrSigmoid (p core : Nat) (err : UnitErr) (s : State) : Host.Outcome State Fault Refusal := .next (s.vtr p core err 6 vSigmoid)
def execVtrGelu (p core : Nat) (err : UnitErr) (s : State) : Host.Outcome State Fault Refusal := .next (s.vtr p core err 7 vGelu)
def execVtrSin (p core : Nat) (err : UnitErr) (s : State) : Host.Outcome State Fault Refusal := .next (s.vtr p core err 8 vSin)
def execVtrCos (p core : Nat) (err : UnitErr) (s : State) : Host.Outcome State Fault Refusal := .next (s.vtr p core err 9 vCos)

/-- R144, R220, R221: a VRED micro-op of function `fn`; `pre` is the square of SUMSQ. In `MODE` 0 the first beat reads `VA` (DESIGN
CHOICE, log 44: the spec does not say which beat does). -/
def vredWork (op : Nat → Nat → Nat) (pre : Nat → Nat) (s : State) (x : Beat) : Res :=
  if mop x.m 26 1 = 1 then
    let s0 := s.count x.p 0x06 8 x.core 1
    okRes ((List.range 4).foldl (fun s j =>
      let j := 4 * x.k + j
      let (s, a) := s.vreg x (mop x.m 18 6 + j)
      let (s, d) := s.vreg x (mop x.m 12 6 + j)
      let v := List.zipWith (fun d a => op d (pre a)) d a
      let s := s.nfSeen x.p (nfBits d ||| nfBits a) 0 x.nfWho
      (s.nonFinite x.p (nfBits v) 0 8 x.core).vput x (mop x.m 12 6 + j) 1 v) s0) x
  else
    let s0 := s.count x.p 0x06 8 x.core 1
    if x.k ≠ 0 then okRes s0 x
    else
      let (s1, a) := s0.vreg x (mop x.m 18 6)
      let r := (treeFold op 9 (a.map pre)).headD 0
      okRes (((s1.nfSeen x.p (nfBits a) 0 x.nfWho).nonFinite x.p (nfBits [r]) 0 8 x.core).vput x (mop x.m 12 6) 4 (r :: List.replicate 511 0)) x
def State.vred (s : State) (p core : Nat) (err : UnitErr) (fn : Nat) (op : Nat → Nat → Nat) (pre : Nat → Nat) : State :=
  s.unitBeat p core 8 err (opcFn 5 24 2 fn) (vredWork op pre)

def execVredSum (p core : Nat) (err : UnitErr) (s : State) : Host.Outcome State Fault Refusal :=
  .next (s.vred p core err 0 add32 fun a => a)
def execVredMax (p core : Nat) (err : UnitErr) (s : State) : Host.Outcome State Fault Refusal :=
  .next (s.vred p core err 1 max32 fun a => a)
def execVredMin (p core : Nat) (err : UnitErr) (s : State) : Host.Outcome State Fault Refusal :=
  .next (s.vred p core err 2 min32 fun a => a)
def execVredSumsq (p core : Nat) (err : UnitErr) (s : State) : Host.Outcome State Fault Refusal :=
  .next (s.vred p core err 3 add32 fun a => mul32 a a)

end Sys2Proof.Machine
end

