-- ==== Sys2Proof/Machine/Update.lean ====
section
/-! DEFINITION. The update unit (R308 to R334), the commit decision (R335 to R338) and the writes of its registers
(R332, R340 to R347). -/

namespace Sys2Proof.Machine

/-- The errors of one core among those of several, whose words are `physical core · 2^20 + 64-bit word`. -/
def badOf (bad : SramErrs) (phys : Nat) : SramErrs where
  ue := (bad.ue.filter fun w => w / 1048576 == phys).map (· % 1048576)
  ce := (bad.ce.filter fun x => x.1 / 1048576 == phys).map fun x => (x.1 % 1048576, x.2)

/-- A transfer-port read of core SRAM by a unit that keeps no trace of its own. -/
def State.sramX (s : State) (p : Nat) (bad : SramErrs) (phys b len : Nat) : State × List Byte :=
  s.sramGet p phys 16 1 (badOf bad phys) (fun i => b + i) len

/-! ## Scalars of a step (R328, R330) -/

/-- An integer as binary32. -/
def fp32 (n : Nat) : Nat := enc32 (.fin false n 0)

/-- R330: the points of the learning-rate table. -/
def State.lrPoints (s : State) (p : Nat) : List (Nat × Nat) :=
  (List.range (s.fget (Reg.UPD_LR_CFG p) Fld.UPD_LR_CFG_NPTS)).map fun i =>
    (s.rn (Reg.UPD_LR_0 p i) + 4294967296 * s.fget (Reg.UPD_LR_1 p i) Fld.UPD_LR_1_STEP_HI, s.rn (Reg.UPD_LR_2 p i))

/-- R330: whether the step values increase strictly. -/
def lrRising (pts : List (Nat × Nat)) : Bool := (List.zip pts (pts.drop 1)).all fun x => decide (x.1.1 < x.2.1)

/-- R330: the learning rate of a step number. -/
def lrTable (pts : List (Nat × Nat)) (step : Nat) : Nat :=
  match pts.head?, pts.getLast? with
    | some a, some z =>
      if step ≤ a.1 then a.2
      else if z.1 ≤ step then z.2
      else match (List.zip pts (pts.drop 1)).find? fun x => decide (x.1.1 ≤ step ∧ step < x.2.1) with
        | some (u, v) =>
          let f := div32 (fp32 (step - u.1)) (fp32 (v.1 - u.1))
          add32 u.2 (mul32 f (sub32 v.2 u.2))
        | none => 0
    | _, _ => 0

/-- R328: the exact power of two that unscales a gradient. -/
def invScale (lsexp : Nat) : Nat := enc32 (.fin false 1 (-(signed 8 lsexp)))

/-- R328, R330: the scalars lr, ob1, ob2, p1, p2, bc1, bc2 and inv of optimizer entry `n`, all NaN where the table's step
values do not increase strictly. -/
def State.scalars (s : State) (p n : Nat) : List Nat :=
  let pts := s.lrPoints p
  if !lrRising pts then List.replicate 8 qnan32
  else
    let lr := mul32 (lrTable pts (s.stepNo p)) (s.rn (Reg.UPD_OPT_1 p n))
    let (b1, b2) := (s.rn (Reg.UPD_OPT_2 p n), s.rn (Reg.UPD_OPT_3 p n))
    let p1 := mul32 (s.rn (Reg.UPD_OPT_P1 p n)) b1
    let p2 := mul32 (s.rn (Reg.UPD_OPT_P2 p n)) b2
    [lr, sub32 one32 b1, sub32 one32 b2, p1, p2, sub32 one32 p1, sub32 one32 p2,
      invScale (s.fget (Reg.UPD_LS p) Fld.UPD_LS_EXP)]

/-- R328: the scalars as the step state stands now. -/
def State.latchScalars (s : State) (p : Nat) : State :=
  s.setUp p { s.up p with scal := (List.range 8).map (s.scalars p) }

/-- A step begins (a mark with `STEP_START`, R322, R328): the norm accumulator clears, the scalars are those of the step
state, and no norm record of the step has been read or written. A descriptor issued before adds its norm when it has formed. A scalar that is Inf or NaN raises the step's non-finite
flag (R93), so an invalid table skips the step (R330). -/
def State.stepStart (s : State) (p : Nat) : State :=
  let s1 := (s.wn (Reg.UPD_NORM_ACC p) 0).latchScalars p
  let s2 := s1.setUp p { s1.up p with normIn := none, mismatch := false, outDone := false, afterOut := false }
  s2.nonFinite p (nfBits (s2.up p).scal.flatten) 0 16 0

/-! ## Descriptors (R315 to R318) -/

def dKind (d : List Byte) : Nat := leAt d 0 1
def dFlag (d : List Byte) (k : Nat) : Bool := bitOf (leAt d 1 1) k
def dOpt (d : List Byte) : Nat := leAt d 2 1 % 8
def dWfmt (d : List Byte) : Nat := leAt d 3 1
def dTid (d : List Byte) : Nat := leAt d 4 4
def dMask (d : List Byte) : Nat := leAt d 8 1
def dKid (d : List Byte) : Nat := leAt d 9 1
def dNper (d : List Byte) : Nat := leAt d 12 4
def dToff (d : List Byte) : Nat := leAt d 16 8
def dGrb (d : List Byte) : Nat := leAt d 24 2
def dStage (d : List Byte) : Nat := leAt d 28 8
def dElem0 (d : List Byte) : Nat := leAt d 36 6
def dNrec (d : List Byte) : Nat := leAt d 44 8

/-- Partition-relative stacks of the descriptor, ascending. -/
def dStacks (d : List Byte) : List Nat := (List.range 8).filter fun j => bitOf (dMask d) j

def State.optKind (s : State) (p n : Nat) : Nat := s.fget (Reg.UPD_OPT_0 p n) Fld.UPD_OPT_0_KIND
def State.optClip (s : State) (p n : Nat) : Nat := s.fget (Reg.UPD_OPT_0 p n) Fld.UPD_OPT_0_CLIP

/-- R315, R333: an EXACT descriptor is a STAGE or an APPLY. -/
def State.isStage (s : State) (p : Nat) (d : List Byte) : Bool := s.optClip p (dOpt d) == 3 && !dFlag d 0
def State.isApply (s : State) (p : Nat) (d : List Byte) : Bool := s.optClip p (dOpt d) == 3 && dFlag d 0

/-- The descriptor's working format, if R315 accepts it. -/
def State.workFmt (s : State) (p : Nat) (d : List Byte) : Option Fmt :=
  match s.fmt p (dWfmt d % 32) with
  | some f => if f.bits ≤ 8 then some f else none
  | none => none

/-- The arrays of a tensor in one stack (R312): lengths in bytes of w, m, v, the working copy and its scales. -/
def tensorArrays (kind n : Nat) (f : Fmt) (bs16 : Bool) : List Nat :=
  [4 * n, if kind ≤ 1 then 4 * n else 0, if kind = 0 then 4 * n else 0, n * f.bits / 8,
    if f.scaled then n / blockOf bs16 else 0]

/-- R318: the code of a descriptor, 0 when it is to be performed. -/
def State.descCode (s : State) (p : Nat) (d : List Byte) : Nat :=
  let tensor := dKind d == 0
  let undef := decide (2 < dKind d) || decide (8 ≤ leAt d 1 1) || decide (8 ≤ leAt d 2 1) || bitOf (dWfmt d) 7 ||
    leAt d 10 2 != 0 || leAt d 26 2 != 0 || leAt d 42 2 != 0 || leNat (d.drop 52) != 0 || decide (512 ≤ dGrb d) ||
    decide (64 ≤ dKid d) || (tensor && (s.workFmt p d).isNone) || s.optKind p (dOpt d) == 3 ||
    ((!tensor || dFlag d 2) && dNrec d / 2 ^ 25 != 0)
  let align := tensor && (dNper d % 8192 != 0 || dToff d % 4096 != 0)
  let z := s.fget (Reg.UPD_BANK_SIZE p) Fld.UPD_BANK_SIZE_MIB * 1048576
  let total := match s.workFmt p d with
    | some f => (tensorArrays (s.optKind p (dOpt d)) (dNper d) f (bitOf (dWfmt d) 5)).foldl (· + ·) 0
    | none => 0
  let n := (dStacks d).length
  let outside := (dStacks d).any fun j => decide (s.nstacks p ≤ j)
  let exact := s.optClip p (dOpt d) == 3
  let stageBad := exact && (List.range n).any fun j =>
    match s.offset p (dStage d + gib * (j * s.localGib p)) with
    | some o => decide (s.memSize p < o + 4 * dNper d)
    | none => true
  let pool := !s.isApply p d && decide (512 < dGrb d + (dNper d * n + 16383) / 16384)
  let nrecBad := (!tensor || dFlag d 2) && decide (s.ncores p ≤ bitsOf (dNrec d) 18 7)
  let range := if tensor then outside || decide (z < dToff d + total) || stageBad || pool || nrecBad else nrecBad
  if undef then 1 else if align then 2 else if range then 3 else 0

/-- R345: the first descriptor error since `UPD_ERR` was read; of those of one time, the lowest code, then the lowest stack. -/
def State.updErr (s : State) (p code stack tid : Nat) : State :=
  let e := Reg.UPD_ERR p
  let s1 := if stands (s.fget e Fld.UPD_ERR_CODE) (s.fget e Fld.UPD_ERR_STACK) code stack ((s.up p).errAt == s.now) then
    ((s.wr e (Fld.UPD_ERR_STACK.put (Fld.UPD_ERR_CODE.put 0 code) stack)).wn (Reg.UPD_ERR_TID p) tid).setUp p { s.up p with errAt := s.now }
    else s
  let s2 := if code = 4 then (s1.setBits (Reg.UPD_STATUS p) Fld.UPD_STATUS_DIVERGE.mask).irqUpd p Fld.UPD_INT_STATUS_DIVERGE
    else s1
  s2.irqUpd p Fld.UPD_INT_STATUS_DESC_ERR

/-- The core SRAM place of `NREC`, `rank` records on. -/
def State.nrecPut (s : State) (p : Nat) (d : List Byte) (rank : Nat) (v : List Byte) : State :=
  s.sramWr (s.pcore p (bitsOf (dNrec d) 18 7)) (32 * (dNrec d % 262144 + rank)) v

/-- R318: the status record of a TENSOR with `ST`. -/
def State.updStatus (s : State) (p : Nat) (d : List Byte) (rank code elems : Nat) : State :=
  if dKind d = 0 ∧ dFlag d 2 ∧ dNrec d / 2 ^ 25 = 0 ∧ bitsOf (dNrec d) 18 7 < s.ncores p then
    s.nrecPut p d rank (leBytes 4 code ++ leBytes 4 elems ++ leBytes 24 0)
  else s

/-- R155, R315: whether a descriptor adds to the step norm (R322). -/
def State.addsNorm (s : State) (p : Nat) (d : List Byte) : Bool := dKind d == 0 && dFlag d 1 && !s.isApply p d

/-- R155: the descriptor at a device address is fetched and its stream started, or found in error (R318). `none` where
the completion set would overflow (R156). -/
def State.updIssue (s : State) (p cset a : Nat) (errs : List ReadErr) : Option State :=
  let (s1, c) := s.checkRun p mUpdFetch true a 64
  if c ≠ 0 then some ((s1.raiseNf p).updErr p 3 0 0)
  else
    let (s2, r) := s1.readRun errs p false false a 64
    let d := r.bytes
    let code := s2.descCode p d
    if code ≠ 0 then
      let s3 := (s2.raiseNf p).updErr p code 0 (dTid d)
      some ((List.range (dStacks d).length).foldl (fun s j => s.updStatus p d j code 0) s3)
    else
      let parts : List UpdPart := if dKind d = 0 then
        (List.zip (List.range 8) (dStacks d)).map fun (rank, j) => ⟨s2.stack0 p + j, rank, 0, 0⟩ else [⟨0, 0, 0, 0⟩]
      match s2.csetAdd p cset parts.length with
      | none => none
      | some s3 =>
        let st : UpdStream := ⟨s3.serial, cset, dKind d, d, false, parts⟩
        let u := s3.up p
        let u' : Upd := { u with
          streams := if parts.isEmpty then u.streams else u.streams ++ [st]
          norms := if s3.addsNorm p d && !parts.isEmpty then u.norms ++ [(st.id, none)] else u.norms }
        some ({ s3 with serial := s3.serial + 1 }.setUp p u')

/-! ## Optimizer arithmetic (R329) -/

structure Opt where
  kind : Nat
  b1 : Nat
  b2 : Nat
  eps : Nat
  wd : Nat
  mu : Nat
  scal : List Nat
deriving DecidableEq, Repr

def State.opt (s : State) (p n : Nat) : Opt :=
  ⟨s.optKind p n, s.rn (Reg.UPD_OPT_2 p n), s.rn (Reg.UPD_OPT_3 p n), s.rn (Reg.UPD_OPT_4 p n), s.rn (Reg.UPD_OPT_5 p n),
    s.rn (Reg.UPD_OPT_6 p n), (s.up p).scal.getD n []⟩

/-- The new w, m and v of an element, and every intermediate value that R329 rounds. -/
def Opt.element (o : Opt) (g w m v : Nat) : Nat × Nat × Nat × List Nat :=
  let sc (i : Nat) : Nat := o.scal.getD i 0
  let (m', v', u, l) :=
    if o.kind = 0 then
      let ma := mul32 o.b1 m
      let mb := mul32 (sc 1) g
      let m' := add32 ma mb
      let va := mul32 o.b2 v
      let gg := mul32 g g
      let vb := mul32 (sc 2) gg
      let v' := add32 va vb
      let mh := div32 m' (sc 5)
      let vh := div32 v' (sc 6)
      let q := sqrt32 vh
      let den := add32 q o.eps
      let u := div32 mh den
      (m', v', u, [ma, mb, m', va, gg, vb, v', mh, vh, q, den, u])
    else if o.kind = 1 then
      let ma := mul32 o.mu m
      let m' := add32 ma g
      (m', v, m', [ma, m'])
    else (m, v, g, [])
  let dw := mul32 o.wd w
  let d := add32 u dw
  let st := mul32 (sc 0) d
  let w' := sub32 w st
  (w', m', v', l ++ [dw, d, st, w'])

/-- R333: the coefficient of a norm. -/
def clipCoef (norm maxNorm : Nat) : Nat :=
  if !(val32 maxNorm).lt (val32 norm) && val32 norm != .nan && val32 maxNorm != .nan then one32 else div32 maxNorm norm

/-- R321: the norm of a stack's unscaled gradients. -/
def partNorm (gs : List Nat) : Nat :=
  (chunksOf 1024 gs.length gs).foldl (fun acc unit => add32 acc ((treeFold add32 10 (unit.map fun g => mul32 g g)).headD 0)) 0

/-! ## Streams -/

/-- The gradients of a part from reduction buffers (R316): binary32 at flat positions `e` on. -/
def State.gradRb (s : State) (p : Nat) (bad : SramErrs) (grb e n : Nat) : State × List Nat :=
  (List.range ((n + 127) / 128)).foldl (fun (y : State × List Nat) i =>
    let pos := e + 128 * i
    let m := min 128 (n - 128 * i)
    let (c, b) := s.rbPlace p ((grb + pos / 16384) * 2048)
    let (s', v) := y.1.sramX p bad (s.pcore p c) (b + 4 * (pos % 16384)) (4 * m)
    (s', y.2 ++ unpackCodes 32 m v)) (s, [])

/-- Read a run for the update unit, ending at the first sector that does not verify; answers the bytes read. -/
def State.updRead (s : State) (errs : List ReadErr) (p a len : Nat) : State × List Byte :=
  ((sectorPieces a len).foldl (fun (y : State × Bool × List Byte) pc =>
    if !y.2.1 then y
    else
      let z := y.1.readPiece errs p false true pc.1 pc.2
      let s := z.1
      let r := z.2
      (s, r.ok, if r.ok then y.2.2 ++ r.bytes else y.2.2)) (s, true, [])) |> fun y => (y.1, y.2.2)

/-- The address of offset `u` of stack rank `j`'s stack-local region under a KID. -/
def State.localAddr (s : State) (p kid j u : Nat) : Nat := kid * 2 ^ 48 + s.memBase p + s.localOff p j u

/-- The starting offsets of arrays that follow each other. -/
def offsetsOf (base : Nat) (l : List Nat) : List Nat := (l.foldl (fun (y : Nat × List Nat) n => (y.1 + n, y.2 ++ [y.1])) (base, [])).2

/-- One part's update: w, m, v of the current view in, all arrays of the next view out (R312, R329). `gs` are the unscaled gradients, of
which fewer than `NPER` have verified where a sector of staging failed. The part ends at a failed sector (R318): of the elements before
it, the whole sectors are written. Answers the code and the elements processed. -/
def State.updPart (s : State) (errs : List ReadErr) (p : Nat) (d : List Byte) (x : UpdPart) (f : Fmt) (gs : List Nat)
    (coef : Nat) : State × Nat × Nat :=
  let n := dNper d
  let j := x.stack - s.stack0 p
  let o := s.opt p (dOpt d)
  let bs16 := bitOf (dWfmt d) 5
  let w0 := s.fget (Reg.UPD_BANK_BASE p) Fld.UPD_BANK_BASE_MIB * 1048576
  let z := s.fget (Reg.UPD_BANK_SIZE p) Fld.UPD_BANK_SIZE_MIB * 1048576
  let arr := tensorArrays o.kind n f bs16
  let offs := offsetsOf (w0 + dToff d) arr
  let at' (i : Nat) : Nat := s.localAddr p (dKid d) j (offs.getD i 0)
  -- R329 in units of 8,192 elements, whose arrays are whole sectors
  (List.range (n / 8192)).foldl (fun (y : State × Nat × Nat) i =>
    if y.2.1 ≠ 0 then y
    else
      let rd (s : State) (k : Nat) : State × List Byte :=
        if arr.getD k 0 = 0 then (s, List.replicate 32768 0#8) else s.updRead errs p (at' k + 32768 * i) 32768
      let (s1, wb) := rd y.1 0
      let (s2, mb) := rd s1 1
      let (s3, vb) := rd s2 2
      let k := min (min wb.length (min mb.length vb.length) / 4) (min 8192 (gs.length - 8192 * i))
      if k = 0 then (s3, 5, y.2.2)
      else
        let ws := unpackCodes 32 k wb
        let ms := unpackCodes 32 k mb
        let vs := unpackCodes 32 k vb
        let es := (List.range k).map fun e =>
          let g := mul32 (gs.getD (8192 * i + e) 0) coef
          let r := o.element g (ws.getD e 0) (ms.getD e 0) (vs.getD e 0)
          (r.1, r.2.1, r.2.2.1, g :: r.2.2.2)
        let bits := es.foldl (fun a e => a ||| nfBits e.2.2.2) 0
        let e0 := dElem0 d + x.rank * n + 8192 * i
        let st := (List.range ((k + 511) / 512)).map fun q =>
          let vals := (es.drop (512 * q)).take 512 |>.map (·.1)
          let rm := (List.range 512).map fun l =>
            if bitOf (dWfmt d) 6 then RMode.sr (s.srDraw p (dTid d) (e0 + 512 * q + l)) else .rne
          convert512 f bs16 false rm vals
        let s3 := s3.nfSeen p (nfBits (ws ++ ms ++ vs)) (dTid d) none
        let s4 := (s3.nonFinite p (bits ||| st.foldl (fun a r => a ||| r.nf) 0) (dTid d) 16 0).bump (Reg.FMT_SAT_COUNT p)
          Fld.FMT_SAT_COUNT_COUNT (st.foldl (fun a r => a + r.sat) 0)
        let wrt (s : State) (k len : Nat) (v : List Byte) : State :=
          if arr.getD k 0 = 0 then s else (s.writeRun errs p true false (at' k + z + len * i) (v.take (v.length / 256 * 256))).1
        let s5 := wrt s4 0 32768 (packCodes 32 (es.map (·.1)))
        let s6 := wrt s5 1 32768 (packCodes 32 (es.map (·.2.1)))
        let s7 := wrt s6 2 32768 (packCodes 32 (es.map (·.2.2.1)))
        let s8 := wrt s7 3 (8192 * f.bits / 8) ((st.flatMap (·.data)).take (k * f.bits / 8))
        let s9 := wrt s8 4 (8192 / blockOf bs16) ((st.flatMap (·.scales)).take (k / blockOf bs16))
        (if f.dead then s9.invalidTable p else s9, if k = 8192 then 0 else 5, y.2.2 + k)) (s, 0, 0)

/-- R322: the accumulator takes the norms of the descriptors at the front of the issue order. -/
def addNorms : List (Nat × Option Nat) → Nat → List (Nat × Option Nat) × Nat
  | (_, some t) :: r, acc => addNorms r (add32 acc t)
  | l, acc => (l, acc)

def State.normFormed (s : State) (p id t tid : Nat) : State :=
  let u := s.up p
  let (l, acc) := addNorms (u.norms.map fun e => if e.1 = id then (e.1, some t) else e) (s.rn (Reg.UPD_NORM_ACC p))
  ((s.setUp p { u with norms := l }).wn (Reg.UPD_NORM_ACC p) acc).nonFinite p (nfBits [acc]) tid 16 0

/-- Whether the region table refuses the tensor's window or staging accesses in one stack (R547). -/
def State.updRefused (s : State) (p : Nat) (d : List Byte) (x : UpdPart) (f : Fmt) : State × Bool :=
  let j := x.stack - s.stack0 p
  let w0 := s.fget (Reg.UPD_BANK_BASE p) Fld.UPD_BANK_BASE_MIB * 1048576
  let z := s.fget (Reg.UPD_BANK_SIZE p) Fld.UPD_BANK_SIZE_MIB * 1048576
  let total := (tensorArrays (s.optKind p (dOpt d)) (dNper d) f (bitOf (dWfmt d) 5)).foldl (· + ·) 0
  let cur := s.localAddr p (dKid d) j (w0 + dToff d)
  let stage := dStage d % 2 ^ 48 + dKid d * 2 ^ 48 + gib * (x.rank * s.localGib p)
  let runs : List (Master × Nat × Nat) :=
    if s.isStage p d then [(mUpdWr, stage, 4 * dNper d)]
    else (if s.isApply p d then [(mUpdRd, stage, 4 * dNper d)] else []) ++ [(mUpdRd, cur, total), (mUpdWr, cur + z, total)]
  runs.foldl (fun (y : State × Bool) r =>
    if y.2 then y else let (s, c) := y.1.checkRun p r.1 true r.2.1 r.2.2; (s, c != 0)) (s, false)

/-- R271, R329, R333: perform a TENSOR descriptor on all its stacks. -/
def State.tensorRun (s : State) (errs : List ReadErr) (bad : SramErrs) (p : Nat) (st : UpdStream) (f : Fmt) : State :=
  let d := st.desc
  let n := dNper d
  let clip := s.optClip p (dOpt d)
  let inv := ((s.up p).scal.getD (dOpt d) []).getD 7 one32
  let s0 := st.parts.foldl (fun s x => s.sepiaRec (unitNme x.stack) 0x42 p (dTid d)) s
  let stageAt (x : UpdPart) : Nat := dStage d % 2 ^ 48 + dKid d * 2 ^ 48 + gib * (x.rank * s.localGib p)
  -- each part's raw gradients, refused parts apart
  let (s1, gr) := st.parts.foldl (fun (y : State × List (UpdPart × Nat × List Nat)) x =>
    let (s, no) := y.1.updRefused p d x f
    if no then (s, y.2 ++ [(x, 3, [])])
    else if s.isApply p d then
      let (s, b) := s.updRead errs p (stageAt x) (4 * n)
      (s, y.2 ++ [(x, if b.length < 4 * n then 5 else 0, unpackCodes 32 (b.length / 4) b)])
    else
      -- the gradients cross to the base die (R38)
      let (s, g) := (s.ifcSend x.stack 0 [p, n]).gradRb p bad (dGrb d) (x.rank * n) n
      (s, y.2 ++ [(x, 0, g)])) (s0, [])
  let un := gr.map fun e => e.2.2.map fun g => mul32 g inv
  let tsq := (List.zip gr un).foldl (fun acc e =>
    add32 acc (if e.1.2.1 = 0 then partNorm e.2 else Config.openValue 11 (e.1.1.stack :: d.map BitVec.toNat) % 2 ^ 32)) 0
  let needNorm := clip == 1 || s.addsNorm p d
  let nfG := (if needNorm then nfBits (tsq :: un.flatMap fun l => l.map fun g => mul32 g g) else 0) ||| nfBits un.flatten
  let s2 := (s1.nfSeen p (nfBits (gr.flatMap fun e => e.2.2)) (dTid d) none).nonFinite p nfG (dTid d) 16 0
  let s3 := if s.addsNorm p d then s2.normFormed p st.id tsq (dTid d) else s2
  let mx := s.rn (Reg.UPD_OPT_7 p (dOpt d))
  let coef := match clip with
    | 0 => one32
    | 1 => clipCoef (sqrt32 tsq) mx
    | 2 => clipCoef (if s.flag (Reg.UPD_STATUS p) Fld.UPD_STATUS_HIST then s.rn (Reg.UPD_GNORM_LAG p)
        else s.rn (Reg.UPD_CLIP_INIT_NORM p)) mx
    | _ => match (s.up p).normIn with | some r => clipCoef (sqrt32 r.g) mx | none => one32
  let (s4, parts) := (List.zip gr un).foldl (fun (y : State × List UpdPart) e =>
    let (x, code, raw) := e.1
    if code = 3 then (((y.1.raiseNf p).updErr p 3 (x.stack - s.stack0 p) (dTid d)), y.2 ++ [{ x with code := 3 }])
    else if s.isStage p d then
      ((y.1.writeRun errs p true false (stageAt x) (packCodes 32 raw)).1, y.2 ++ [{ x with elems := n }])
    else
      let (s, c, k) := y.1.updPart errs p d x f e.2 coef
      (if c ≠ 0 then s.updErr p c (x.stack - s.stack0 p) (dTid d) else s, y.2 ++ [{ x with code := c, elems := k }])) (s3, [])
  let s5 := s4.count p 0x0B 16 0 (parts.foldl (fun a x => a + x.elems) 0)
  s5.setUp p { s5.up p with streams := (s5.up p).streams.map fun y => if y.id = st.id then { y with ran := true, parts := parts } else y }

/-- The `n`-th outstanding stream of a partition is performed, if it is a TENSOR that has not been; an APPLY waits for a
NORM_IN of the step (R334). -/
def State.updTensor (s : State) (p n : Nat) (errs : List ReadErr) (bad : SramErrs) : State :=
  match (s.up p).streams[n]? with
  | none => s
  | some st =>
    if st.kind ≠ 0 ∨ st.ran ∨ s.halted ∨ (s.isApply p st.desc ∧ (s.up p).normIn = none) then s
    else match s.workFmt p st.desc with
      | some f => s.issuedAs p st.id fun s => s.tensorRun errs bad p st f
      | none => s
def execUpdTensor (p n : Nat) (errs : List ReadErr) (bad : SramErrs) (s : State) : Host.Outcome State Fault Refusal :=
  .next (s.updTensor p n errs bad)

/-- R316, R318: a stack's part of the oldest performed stream that has one there completes. -/
def State.updPartDone (s : State) (p k : Nat) : State :=
  match (s.up p).streams.find? fun st => st.ran && st.parts.any fun x => x.stack == k with
  | none => s
  | some st => match st.parts.find? fun x => x.stack == k with
    | none => s
    | some x =>
      let l := (s.up p).streams.map fun (y : UpdStream) => if y.id = st.id then { y with parts := y.parts.erase x } else y
      let s1 := (s.updStatus p st.desc x.rank x.code x.elems).sepiaRec (unitNme k) 0x43 p x.code
      (s1.setUp p { s1.up p with streams := l.filter fun y => !y.parts.isEmpty }).csetSub p st.cset
def execUpdStreamComplete (p k : Nat) (s : State) : Host.Outcome State Fault Refusal := .next (s.updPartDone p k)

/-- Whether every read of the operations issued before number `id` has been verified (R271, R323, R335): transfers, ring bursts and NME
operations have ended, update streams have run. An APPLY that holds its start (R334) has issued no read. -/
def State.earlierDone (s : State) (p id : Nat) : Bool :=
  !(s.sq p).xfers.any (fun x => decide (x.id < id)) && !(s.sq p).bursts.any (fun b => decide (b.id < id)) &&
    !s.nmeXfers.any (fun x => x.part == p && decide (x.id < id)) &&
    !(s.up p).streams.any fun x => decide (x.id < id) && x.kind == 0 && !x.ran && !(s.isApply p x.desc && (s.up p).normIn.isNone)

/-- Remove a stream of one part and count it complete (R156). -/
def State.dropStream (s : State) (p : Nat) (st : UpdStream) : State :=
  (s.setUp p { s.up p with streams := (s.up p).streams.filter fun y => y.id != st.id }).csetSub p st.cset

/-- R323: NORM_OUT. -/
def State.normOut (s : State) (p : Nat) : State :=
  match (s.up p).streams.find? fun st => st.kind == 1 with
  | none => s
  | some st =>
    if s.halted ∨ (s.up p).norms.any (fun e => decide (e.1 < st.id)) ∨ !s.earlierDone p st.id then s
    else
      let u := s.up p
      let rec_ := leBytes 4 (s.rn (Reg.UPD_NORM_ACC p)) ++ leBytes 4 (b2n u.nf + 2 * b2n u.taint) ++
        leBytes 6 (s.stepNo p) ++ leBytes 18 0
      let s1 := s.nrecPut p st.desc 0 rec_
      (s1.setUp p { s1.up p with outDone := true }).dropStream p st
def execNormOut (p : Nat) (s : State) : Host.Outcome State Fault Refusal := .next (s.normOut p)

/-- R324, R325: NORM_IN. -/
def State.normInRd (s : State) (p : Nat) (bad : SramErrs) : State :=
  match (s.up p).streams.find? fun st => st.kind == 2 with
  | none => s
  | some st =>
    if s.halted then s
    else
      let d := st.desc
      let (s1, v) := s.sramX p bad (s.pcore p (bitsOf (dNrec d) 18 7)) (32 * (dNrec d % 262144)) 32
      let other := leAt v 8 6 != s.stepNo p
      let s2 := if other then s1.updErr p 4 0 (dTid d) else s1
      let r : NormIn := ⟨leAt v 0 4, bitOf (leAt v 4 1) 0, bitOf (leAt v 4 1) 1⟩
      (s2.setUp p { s2.up p with normIn := some r, mismatch := (s2.up p).mismatch || other }).dropStream p st
def execNormIn (p : Nat) (bad : SramErrs) (s : State) : Host.Outcome State Fault Refusal := .next (s.normInRd p bad)

/-! ## The commit decision (R335 to R338) -/

/-- R314: the state record's bytes; `dec` 0 at RUN. -/
def State.stateRecord (s : State) (p dec g : Nat) : List Byte :=
  leBytes 8 (s.stepNo p) ++ leBytes 4 (s.rn (Reg.UPD_TCOUNT p)) ++ leBytes 4 (s.rn (Reg.UPD_SKIP_COUNT p)) ++
  leBytes 4 (s.fget (Reg.UPD_CLEAN p) Fld.UPD_CLEAN_COUNT) ++
  leBytes 2 (s.fget (Reg.UPD_LS p) Fld.UPD_LS_EXP + 256 * dec) ++
  leBytes 2 (s.fget (Reg.UPD_STATUS p) Fld.UPD_STATUS_HIST) ++
  leBytes 4 (s.rn (Reg.UPD_EPOCH p)) ++ leBytes 4 (s.rn (Reg.UPD_GNORM_LAG p)) ++ leBytes 8 g ++
  ((List.range 8).flatMap fun n => leBytes 4 (s.rn (Reg.UPD_OPT_P1 p n)) ++ leBytes 4 (s.rn (Reg.UPD_OPT_P2 p n))) ++
  leBytes 152 0

def State.stateBase (s : State) (p : Nat) : Nat := s.rd64 (Reg.UPD_STATE_BASE_LO p)

/-- R314: write the state record; a refused write is reported under R547. -/
def State.writeState (s : State) (p dec g : Nat) : State :=
  let a := s.stateBase p
  let (s1, c) := s.checkRun p mUpdRec true a 256
  if c ≠ 0 then s1.updErr p 3 0 0 else (s1.writeRun [] p false false a (s1.stateRecord p dec g)).1

/-- R338: settle the held indices of the partition's memory ring: kept copies the advancing indices into the held ones. -/
def State.settleRings (s : State) (p : Nat) (keep : Bool) : State :=
  let mine := s.ringAdv.filter fun e => decide (2048 * p ≤ e.1 ∧ e.1 < 2048 * (p + 1))
  let s1 := if keep then mine.foldl (fun s e =>
    let i := e.1 - 2048 * p
    let a := if (s.ring p i).kind = 1 then Reg.SEQ_RING_CONS p i else Reg.SEQ_RING_PROD p i
    s.wn a (s.rn a + e.2)) s else s
  { s1 with ringAdv := SMap.clear s1.ringAdv (2048 * p) (2048 * (p + 1)) }

/-- R331: loss scale and clean-step counter at a decision that is not TAINTED. -/
def State.lossScale (s : State) (p : Nat) (committed : Bool) : State :=
  let c := Reg.UPD_LS_CFG p
  let e := signed 8 (s.fget (Reg.UPD_LS p) Fld.UPD_LS_EXP)
  if committed then
    let n := s.fget (Reg.UPD_CLEAN p) Fld.UPD_CLEAN_COUNT + 1
    let iv := s.fget (Reg.UPD_LS_INTERVAL p) Fld.UPD_LS_INTERVAL_INTERVAL
    let up : Int := min (e + s.fget c Fld.UPD_LS_CFG_GROW) (signed 8 (s.fget c Fld.UPD_LS_CFG_MAX_EXP))
    if iv ≠ 0 ∧ iv ≤ n then
      (s.fput (Reg.UPD_LS p) Fld.UPD_LS_EXP (unsigned 8 up)).fput (Reg.UPD_CLEAN p) Fld.UPD_CLEAN_COUNT (if up > e then 0 else n)
    else s.fput (Reg.UPD_CLEAN p) Fld.UPD_CLEAN_COUNT n
  else
    let lo := signed 8 (s.fget c Fld.UPD_LS_CFG_MIN_EXP)
    let s1 := if e = lo then s.setBits (Reg.UPD_STATUS p) Fld.UPD_STATUS_LS_FLOOR.mask else s
    (s1.fput (Reg.UPD_LS p) Fld.UPD_LS_EXP (unsigned 8 (max (e - s.fget c Fld.UPD_LS_CFG_BACKOFF) lo))).fput (Reg.UPD_CLEAN p)
      Fld.UPD_CLEAN_COUNT 0

/-- R325, R327: the decision diverges. -/
def State.diverges (s : State) (p : Nat) : Bool :=
  let u := s.up p
  u.mismatch || (u.normIn.isSome && u.afterOut)

/-- R336: the decision: 1 COMMITTED, 2 SKIPPED, 3 TAINTED. -/
def State.verdict (s : State) (p : Nat) : Nat :=
  let u := s.up p
  if u.taint || (match u.normIn with | some r => r.taint | none => false) || s.diverges p then 3
  else if u.nf || (match u.normIn with | some r => r.nf | none => false) then 2 else 1

/-- R324: the step's global norm squared. -/
def State.gnorm (s : State) (p : Nat) : Nat :=
  match (s.up p).normIn with | some r => r.g | none => s.rn (Reg.UPD_NORM_ACC p)

/-- R335: whether a pending decision can be made; a snapshot in progress holds it (R455). -/
def State.decisionReady (s : State) (p : Nat) : Bool :=
  s.flag (Reg.UPD_STATUS p) Fld.UPD_STATUS_PENDING && !s.halted && (s.lake p).snap.isNone && s.earlierDone p (s.up p).commitId &&
    !(s.up p).streams.any fun x => decide (x.id < (s.up p).commitId)

def State.setStep (s : State) (p v : Nat) : State :=
  (s.wn (Reg.UPD_STEP_LO p) v).wn (Reg.UPD_STEP_HI p) (v / 4294967296 % 65536)

/-- R336: the effects of a decision on the step state. -/
def State.makeDecision (s : State) (p : Nat) : State :=
  let dec := s.verdict p
  let g := s.gnorm p
  let div := s.diverges p
  let step := s.stepNo p
  let s1 := if dec ≠ 3 then (s.setStep p (step + 1)).lossScale p (dec == 1) else s
  let s2 := if dec = 1 then
      let s2 := ((s1.wn (Reg.UPD_EPOCH p) (s1.rn (Reg.UPD_EPOCH p) + 1)).wn (Reg.UPD_TCOUNT p)
        (s1.rn (Reg.UPD_TCOUNT p) + 1)).wn (Reg.UPD_GNORM_LAG p) (sqrt32 g)
      let s3 := (List.range 8).foldl (fun t n =>
        (t.wn (Reg.UPD_OPT_P1 p n) (((s.up p).scal.getD n []).getD 3 0)).wn (Reg.UPD_OPT_P2 p n)
          (((s.up p).scal.getD n []).getD 4 0)) s2
      s3.fput (Reg.UPD_STATUS p) Fld.UPD_STATUS_HIST 1
    else if dec = 2 then s1.bump (Reg.UPD_SKIP_COUNT p) Fld.UPD_SKIP_COUNT_COUNT 1 else s1
  let s3 := ((s2.wn (Reg.UPD_GNORM_SQ p) g).fput (Reg.UPD_STATUS p) Fld.UPD_STATUS_LAST dec).settleRings p (dec != 3)
  let s4 := if div then (s3.setBits (Reg.UPD_STATUS p) Fld.UPD_STATUS_DIVERGE.mask).irqUpd p Fld.UPD_INT_STATUS_DIVERGE else s3
  let s5 := (s4.sepiaRec (unitSeq p) 0x13 p (dec + 4 * (step % 2 ^ 30))).count p (0x0F + dec) 16 0 1
  let s6 := s5.setUp p { s5.up p with nf := false, taint := (s5.up p).taintNext, taintNext := false, normIn := none, mismatch := false, outDone := false,
                                      afterOut := false }
  let s7 := ((s6.latchScalars p).writeState p dec g).fput (Reg.UPD_STATUS p) Fld.UPD_STATUS_PENDING 0
  let s8 := if dec = 2 then s7.irqUpd p Fld.UPD_INT_STATUS_SKIP else if dec = 3 then s7.irqUpd p Fld.UPD_INT_STATUS_TAINT else s7
  s8.irqUpd p Fld.UPD_INT_STATUS_DECIDED

/-! ## Register writes (R310, R332) -/

def State.updReject (s : State) (p : Nat) : State := s.setBits (Reg.UPD_STATUS p) Fld.UPD_STATUS_WR_REJECT.mask

/-- R446, R464: bytes of a bank half-window, and of a Lake slot in one stack; the Lake's and the buddy area's stack-local
bases; sectors of a slot in one stack. -/
def mib : Nat := 1048576
def State.bankBase (s : State) (p : Nat) : Nat := s.fget (Reg.UPD_BANK_BASE p) Fld.UPD_BANK_BASE_MIB * mib
def State.imgSize (s : State) (p : Nat) : Nat := s.fget (Reg.UPD_BANK_SIZE p) Fld.UPD_BANK_SIZE_MIB * mib
def State.slotSize (s : State) (p : Nat) : Nat := s.imgSize p + mib
def State.lakeBase (s : State) (p : Nat) : Nat := s.fget (Reg.CKP_LAKE_BASE p) Fld.CKP_LAKE_BASE_MIB * mib
def State.buddyBase (s : State) (p : Nat) : Nat := s.fget (Reg.CKP_BUDDY_BASE p) Fld.CKP_BUDDY_BASE_MIB * mib
def State.buddySize (s : State) (p : Nat) : Nat := s.fget (Reg.CKP_BUDDY_SIZE p) Fld.CKP_BUDDY_SIZE_MIB * mib
def State.ckpMode (s : State) (p : Nat) : Nat := s.fget (Reg.CKP_CTRL p) Fld.CKP_CTRL_MODE

/-- R447: a stack-local area lies within the stack-local region and clear of the bank window. -/
def State.areaOk (s : State) (p b e : Nat) : Bool :=
  let (w, we) := (s.bankBase p, s.bankBase p + 2 * s.imgSize p)
  decide (e ≤ gib * s.localGib p) && (decide (e ≤ w) || decide (we ≤ b) || decide (w = we))

/-- R447: the Lake, and the buddy area when it is enabled. -/
def State.lakeOk (s : State) (p : Nat) : Bool := s.areaOk p (s.lakeBase p) (s.lakeBase p + 2 * s.slotSize p)
def State.buddyOk (s : State) (p : Nat) : Bool :=
  s.buddySize p == 0 || s.areaOk p (s.buddyBase p) (s.buddyBase p + 2 * s.buddySize p)

/-- R447 for a bank window: a device without Lake copies (mode OFF) may give its window the Lake's space (R464, log 22). -/
def State.areasOk (s : State) (p : Nat) : Bool := (s.ckpMode p == 0 || s.lakeOk p) && s.buddyOk p
def State.ckpReject (s : State) (p : Nat) : State := s.setBits (Reg.CKP_STATUS p) Fld.CKP_STATUS_WR_REJECT.mask

/-- R310, R332, R447: 0 `UPD_BANK_BASE`, 1 `UPD_BANK_SIZE`. -/
def windowReg (p which : Nat) : Nat := if which = 0 then Reg.UPD_BANK_BASE p else Reg.UPD_BANK_SIZE p
def State.windowW (s : State) (p which : Nat) (v : Word) : State :=
  let s1 := s.regWrite (windowReg p which) v
  let w := s1.fget (Reg.UPD_BANK_BASE p) Fld.UPD_BANK_BASE_MIB
  let z := s1.fget (Reg.UPD_BANK_SIZE p) Fld.UPD_BANK_SIZE_MIB
  if !s.stopped p ∨ s.localGib p * 1024 < w + 2 * z then s.updReject p
  else if which ≠ 0 ∧ !s1.areasOk p then s.ckpReject p else s1
def execUpdWindowWrite (r : RegReq) (p which : Nat) (v : Word) (s : State) : Host.Outcome State Fault Refusal :=
  .next (s.write r (windowReg p which) fun s => s.windowW p which v)

/-- R332: a write of another register of the `UPD` block at an offset. While the sequencer runs, one of `UPD_STATUS` is accepted where it
leaves the history bit as it is, and the interrupt registers follow no such rule. An offset that takes no write drops it. -/
def State.updConfigW (s : State) (p off : Nat) (v : Word) : State :=
  let a := vf p + 0x400000 + off
  if !writableAt a then s
  else if off = 0x0C ∨ off = 0x10 then s.windowW p (if off = 0x0C then 0 else 1) v
  else if 0x50 ≤ off ∧ off < 0x60 then s.regWrite a v
  else if off = 0x04 then
    if s.stopped p ∨ Fld.UPD_STATUS_HIST.get v = s.fget a Fld.UPD_STATUS_HIST then s.regWrite a v else s.updReject p
  else if !s.stopped p then s.updReject p
  else
    let s1 := s.regWrite a v
    if off = 0 ∧ !s1.flag (Reg.UPD_CTRL p) Fld.UPD_CTRL_STEP_RINGS then s1.settleRings p true else s1
def execUpdConfigWrite (r : RegReq) (p off : Nat) (v : Word) (s : State) : Host.Outcome State Fault Refusal :=
  .next (s.write r (vf p + 0x400000 + off) fun s => s.updConfigW p off v)

end Sys2Proof.Machine
end

