-- ==== Sys2Proof/Machine/Sequencer.lean ====
section
/-! DEFINITION. The sequencer: RUN, CONT, STOP and RESUME (R162 to R165), gates (R176 to R191), bundles and their CTL and
GRP slots (R114 to R135), and the end of periods and of the stream (R124 to R126). -/

namespace Sys2Proof.Machine

/-! ## Stopping and starting -/

/-- R615: a SEQ_RUN packet completes when the sequencer enters STOPPED. -/
def State.seqPacketDone (s : State) (p : Nat) : State :=
  s.mapBufs p (fun b => b.seqOpen) fun b => { b with seqOpen := false }

/-- A stream in FAULT lets go of what its last beat left undone. -/
def State.abandonIfFaulted (s : State) (p : Nat) : State := if s.seqState p = seqFaulted then s.abandon p none else s

/-- R163, R169: the partition's stream enters STOPPED at its successor. -/
def State.enterStopped (s : State) (p : Nat) : State :=
  let q := s.sq p
  let s1 := (s.setSq p { q with limreq := 0, stopPend := false, resumed := false, lastFalse := 0, waited := 0,
                                waitBeat := false }).wn (Reg.SEQ_PC p) q.nxt.idx
  (((s1.fput (Reg.SEQ_CTRL p) Fld.SEQ_CTRL_STOP 0).setSeqState p seqStopped).sepiaRec (unitSeq p) 0x15 p seqStopped).seqPacketDone p

/-- R202: `SEQ_GATE_STAT` with what holds the waiting gate closed; none of it is shown when none waits. -/
def State.gateStat (s : State) (p : Nat) (v : Word) : Word :=
  let m := if s.seqState p = seqGateWait ∨ s.seqState p = seqBrkHold then s.gateFalse p else 0
  Fld.SEQ_GATE_STAT_HOLD.put (Fld.SEQ_GATE_STAT_COMMIT.put (Fld.SEQ_GATE_STAT_RESID.put (Fld.SEQ_GATE_STAT_FALSE.put v
    (m % 1024)) (bitsOf m 10 1)) (bitsOf m 11 1)) (bitsOf m 12 1)

def State.cmdReject (s : State) (p : Nat) : State := s.irqSeq p Fld.SEQ_INT_STATUS_CMD_REJECT

/-- R108: whether a header is the partition's: magic, format, `QUADS`, `ENTRY` and reserved bytes. -/
def State.headerOk (s : State) (p : Nat) (h : List Byte) : Bool :=
  leAt h 0 4 == 0x5A533630 && leAt h 4 2 == 1 && leAt h 6 1 == s.nquad p && leAt h 7 1 == 0 &&
    decide (33 ≤ leAt h 8 4 ∧ leAt h 8 4 < leAt h 12 4) && leNat (h.drop 16) == 0

/-- R127, R128: entry `n` of the group table, as 136 bits; the bits that must be 0. -/
def groupBits (t : List Byte) (n : Nat) : Nat := leAt t (32 * n) 17
def State.loadGroups (s : State) (p : Nat) (t : List Byte) : State :=
  (List.range 64).foldl (fun s n => (List.range 5).foldl (fun s w =>
    s.wn (Reg.SEQ_GRP p n w) (bitsOf (groupBits t n) (32 * w) (if w = 4 then 8 else 32))) s) s

/-- What RUN clears (R162, R183, R203, R171, R173, R473) before anything is loaded. A STOP that has not taken effect stays pending
(R166). -/
def State.runClear (s : State) (p : Nat) : State :=
  let s := (s.abandonIfFaulted p).settleStream p
  let e := Reg.SEQ_ERR p
  let s1 := ((s.wr e (regReset e)).wn (Reg.SEQ_ERR_PC p) 0).wn (Reg.SEQ_LATE p) 0
  let s2 := (((s1.wn (Reg.SEQ_LATE_MAX p) 0).wr64 (Reg.SEQ_BEATS_LO p) 0).wr64 (Reg.SEQ_WAIT_LO p) 0).wr64 (Reg.SEQ_CONS_LO p) 0
  let s3 := (List.range 4).foldl (fun s l => s.wn (Reg.SEQ_LOOP p l) 0) s2
  let q := s3.sq p
  let s4 := s3.setSq p { beat := q.beat, issue := q.beat, start := q.beat, mesh := q.mesh, xfers := q.xfers,
                         bursts := q.bursts, credit := q.credit, annQ := q.annQ, announced := q.announced,
                         annTime := q.annTime, tag := q.tag, holds := q.holds, rpc := q.rpc, loops := q.loops,
                         stopPend := s.flag (Reg.SEQ_CTRL p) Fld.SEQ_CTRL_STOP }
  let s5 := s4.fput (Reg.SEQ_GATE_STAT p) Fld.SEQ_GATE_STAT_LAST 15
  let st := Reg.CKP_STATUS p
  let s5 := (((s5.fput st Fld.CKP_STATUS_ABORTED 0).fput st Fld.CKP_STATUS_QUIET 0).fput st Fld.CKP_STATUS_RESUME_ARMED 0).setLake p { s5.lake p with
    timer := s5.now, armed := false, aborting := false }
  let s5 := { s5 with launches := SMap.clear s5.launches (65536 * p) (65536 * (p + 1)) }
  (s5.lostCheck p).setUp p { s5.up p with tables := (List.range 16).map (s5.fmtTable p), normIn := none, mismatch := false,
                                          outDone := false, afterOut := false }

/-- R162: what RUN clears is cleared, and the header and the group table are fetched: the state, the code of a refused access and
33 bundles. -/
def State.runFetch (s : State) (p : Nat) (errs : List ReadErr) : State × Nat × List Bundle :=
  let s1 := ((s.runClear p).setSeqState p seqLoading).settleRings p true
  let s2 := (s1.latchScalars p).writeState p 0 (s1.rn (Reg.UPD_GNORM_SQ p))
  s2.fetch errs p 0 33

/-- The bytes of the header, and those of the group table. -/
def imageHeader (l : List Bundle) : List Byte := leBytes 64 (l.headD 0#512).toNat
def imageGroups (l : List Bundle) : List Byte := (l.drop 1).flatMap fun b => leBytes 64 b.toNat

/-- R127: every group names cores of the partition alone. -/
def State.groupsOk (s : State) (p : Nat) (t : List Byte) : Bool :=
  (List.range 64).all fun n => groupBits t n / 2 ^ s.ncores p == 0

/-- R473: the bundle at which RUN enters the image: with `armed`, the one that a restore has named. -/
def State.runEntry (s : State) (p : Nat) (armed : Bool) (h : List Byte) : Nat := if armed then (s.sq p).rpc else leAt h 8 4

/-- The group table is loaded, and with `armed` the snapshot's loop counters (R473); the first period is filled. -/
def State.runFill (s : State) (p : Nat) (armed : Bool) (errs : List ReadErr) (l : List Bundle) : State :=
  let h := imageHeader l
  let s4 := s.loadGroups p (imageGroups l)
  let s5 := if armed then
      (List.range 4).foldl (fun s n => s.wn (Reg.SEQ_LOOP p n) (((s4.sq p).loops).getD n 0)) s4
    else s4
  let s6 := s5.setSq p { s5.sq p with nbundle := leAt h 12 4, nxt := { idx := s.runEntry p armed h } }
  s6.fillNext errs p

/-- R162: RUN. Loading ends in GATE_WAIT with the first period filled, where a STOP that is pending holds the gate (R163). -/
def State.seqRun (s : State) (p : Nat) (errs : List ReadErr) : State :=
  if !s.stopped p then s.cmdReject p
  else
    let armed := s.flag (Reg.CKP_STATUS p) Fld.CKP_STATUS_RESUME_ARMED
    let x := s.runFetch p errs
    let s3 := x.1
    let c := x.2.1
    let l := x.2.2
    if c ≠ 0 then s3.seqFault p fRange 0xFF 15 0
    else if !s3.headerOk p (imageHeader l) then s3.seqFault p fImgHdr 0xFF 15 0
    else if !s3.groupsOk p (imageGroups l) then s3.seqFault p fRange 0xFF 15 0
    else
      let s7 := s3.runFill p armed errs l
      if s7.stopped p then s7
      else if (s7.sq p).stopPend then s7.enterStopped p
      else (s7.setSeqState p seqGateWait).wn (Reg.SEQ_PC p) (s3.runEntry p armed (imageHeader l))
def execSeqRun (r : RegReq) (p : Nat) (errs : List ReadErr) (s : State) : Host.Outcome State Fault Refusal :=
  .next (s.write r (Reg.SEQ_CTRL p) fun s => s.seqRun p errs)

/-- R163, R184: CONT, from every STOPPED state: after a STOP, after END and after an abort alike. -/
def State.seqCont (s : State) (p : Nat) : State :=
  if s.seqState p ≠ seqStopped then s.cmdReject p
  else
    let s1 := s.settleStream p
    (s1.setSq p { s1.sq p with issue := (s1.sq p).beat, waited := 0, resumed := false }).setSeqState p seqGateWait
def execSeqCont (r : RegReq) (p : Nat) (s : State) : Host.Outcome State Fault Refusal :=
  .next (s.write r (Reg.SEQ_CTRL p) fun s => s.seqCont p)

/-- R163, R166: STOP. A waiting gate has no period to run out, so the stream stops at once, unless a decision is due first. In FAULT the
bit waits for the next RUN. -/
def State.seqStop (s : State) (p : Nat) : State :=
  let st := s.seqState p
  if st = seqGateWait ∨ st = seqBrkHold then
    if (s.sq p).afterCommit then
      (s.setSq p { s.sq p with stopPend := true }).fput (Reg.SEQ_CTRL p) Fld.SEQ_CTRL_STOP 1
    else s.enterStopped p
  else if st = seqRunning then
    ((s.setSq p { s.sq p with stopPend := true }).fput (Reg.SEQ_CTRL p) Fld.SEQ_CTRL_STOP 1).setSeqState p seqStopping
  else if st = seqFaulted then s.fput (Reg.SEQ_CTRL p) Fld.SEQ_CTRL_STOP 1
  else s
def execSeqStop (r : RegReq) (p : Nat) (s : State) : Host.Outcome State Fault Refusal :=
  .next (s.write r (Reg.SEQ_CTRL p) fun s => s.seqStop p)

/-- R165: RESUME. -/
def State.seqResume (s : State) (p : Nat) : State :=
  if s.seqState p = seqBrkHold then (s.setSq p { s.sq p with resumed := true }).setSeqState p seqGateWait else s
def execSeqResume (r : RegReq) (p : Nat) (s : State) : Host.Outcome State Fault Refusal :=
  .next (s.write r (Reg.SEQ_CTRL p) fun s => s.seqResume p)

/-- R163, R168: a write of `SEQ_IMG_BASE_LO` or `_HI`, which takes effect in a stopped state alone. -/
def State.imgBaseW (s : State) (p a : Nat) (v : Word) : State := if s.stopped p then s.regWrite a v else s.cmdReject p

/-! ## Periods and gates -/

/-- R109, R276: the fill of the next period completes. Behind a period that END closes there is none to fill. -/
def State.periodFill (s : State) (p : Nat) (errs : List ReadErr) : State :=
  let last := (s.seqState p == seqRunning || s.seqState p == seqStopping) && (s.sq p).cur.ends
  if s.stopped p ∨ s.halted ∨ (s.sq p).nxt.ready ∨ last ∨ s.tagWait p 0 none then s else s.fillNext errs p
def execPeriodFillComplete (p : Nat) (errs : List ReadErr) (s : State) : Host.Outcome State Fault Refusal :=
  .next (s.periodFill p errs)

/-- A gate waits: GATE_WAIT or BRK_HOLD. -/
def State.gating (s : State) (p : Nat) : Bool := s.seqState p == seqGateWait || s.seqState p == seqBrkHold

/-- R163: a fault of the MARK bundle that waits. -/
def State.markFault (s : State) (p code : Nat) : State :=
  let q := s.sq p
  ((s.advance p q.issue).wn (Reg.SEQ_PC p) q.nxt.idx).seqFault p code 0xFF 15 q.nxt.idx

/-- A boundary of the waiting gate at its beat, or the fault of the period behind it (R110, R117). -/
def State.atGate (s : State) (p : Nat) (f : State → State) : State :=
  let q := s.sq p
  if !s.gating p || !s.canRun p q.issue then s
  else
    let c := s.gateFault p
    if c ≠ 0 then s.markFault p c else f s

/-- R185: a boundary at which the gate is found closed. -/
def State.gateWait (s : State) (p : Nat) : State :=
  s.atGate p fun s =>
    let q := s.sq p
    let m := s.gateFalse p
    if m = 0 then s
    else
      let s1 := s.advance p q.issue
      let s2 := s1.setSq p { s1.sq p with issue := q.issue + 1, waited := q.waited + 1, waitBeat := true, lastFalse := m }
      let s3 := (((s2.setLate p (satAdd 32 (s2.rn (Reg.SEQ_LATE p)) 1)).bump64 (Reg.SEQ_WAIT_LO p) 1).count p 0x02 16 0 1).lostEnd p
      if s.brkHolds p then
        if s.seqState p = seqBrkHold then s3 else (s3.setSeqState p seqBrkHold).irqSeq p Fld.SEQ_INT_STATUS_BRK
      else s3
def execGateWaitBeat (p : Nat) (s : State) : Host.Outcome State Fault Refusal := .next (s.gateWait p)

/-- The lowest set bit of a mask below 13. -/
def lowBit (m : Nat) : Option Nat := (List.range 13).find? fun k => bitOf m k

/-- R179, R185: the gate opens and the mark issues as beat 0, unless it meets an uncorrectable error `ue` (R113). R121, R662: its
`LIMREQ`. R191: an episode that LATE has left is over. -/
def State.gateOpen (s : State) (p : Nat) (ue : Bool) : State :=
  s.atGate p fun s =>
    let q := s.sq p
    if s.gateFalse p ≠ 0 then s
    else if ue then s.markFault p fIsramUe
    else
      let b := q.mark
      let s1 := s.setSq p { q with start := q.issue }
      let s2 := (s1.advance p q.issue).lostEnd p
      let succ := s2.successor p q.nxt
      let s3 := s2.setSq p { s2.sq p with
        cur := q.nxt, nxt := if succ = q.nxt.idx then q.nxt else { idx := succ }, pos := 0, issue := q.issue + 1, waited := 0,
        lastFalse := 0, resumed := false, loopRec := none, commitRec := none
        limreq := if ctlB b 34 2 = 0 ∨ s2.flag Reg.PWR_LIM_CTRL Fld.PWR_LIM_CTRL_MODE_LOCK ∨ s2.power.modeAt = some s2.now then q.limreq
          else ctlB b 34 2 }
      let s4 := (((s3.wn (Reg.SEQ_PC p) q.nxt.idx).fput (Reg.SEQ_BIP p) Fld.SEQ_BIP_BIP 0).fput (Reg.SEQ_PERIOD p)
        Fld.SEQ_PERIOD_PID (ctlB b 18 16)).setSeqState p seqRunning
      let s5 := match if q.waited = 0 then none else lowBit q.lastFalse with
        | some k => s4.fput (Reg.SEQ_GATE_STAT p) Fld.SEQ_GATE_STAT_LAST k
        | none => s4
      let s5 := if ctlB b 34 2 ≠ 0 ∧ s5.flag Reg.PWR_LIM_CTRL Fld.PWR_LIM_CTRL_MODE_LOCK then
        s5.bump Reg.PWR_LIMREQ_IGN Fld.PWR_LIMREQ_IGN_COUNT 1 else s5
      let s6 := if bStepStart b then s5.stepStart p else s5
      let s7 := (s6.sepiaRec (unitSeq p) 0x10 p (s6.rn (Reg.SEQ_LATE p))).sepiaRec (unitSeq p) 0x11 p q.waited
      if bTrace b then s7.sepiaRec (unitSeq p) 0x14 p q.nxt.idx else s7
def execGateOpen (x : GateIssue) (s : State) : Host.Outcome State Fault Refusal := .next (s.gateOpen x.part x.ue)

/-- R190. -/
def State.schedLost (s : State) (p : Nat) : State :=
  if s.stopped p ∨ s.halted ∨ s.rn (Reg.SEQ_LATE p) ≤ s.rn (Reg.SEQ_CATCHUP_LIMIT p) then s else s.lostCheck p
def execSchedLost (p : Nat) (s : State) : Host.Outcome State Fault Refusal := .next (s.schedLost p)

/-- R191, R200. -/
def State.catchupW (s : State) (p : Nat) (v : Word) : State :=
  let s1 := s.wr (Reg.SEQ_CATCHUP_LIMIT p) v
  if s1.stopped p then s1 else s1.lostCheck p
def execCatchupLimitWrite (r : RegReq) (p : Nat) (v : Word) (s : State) : Host.Outcome State Fault Refusal :=
  .next (s.write r (Reg.SEQ_CATCHUP_LIMIT p) fun s => s.catchupW p v)

/-! ## Bundles -/

/-- The bundle that issued last. -/
def Seq.bundle (q : Seq) : Bundle := q.cur.bundles.getD q.pos 0#512
def Seq.pc (q : Seq) : Nat := q.cur.idx + q.pos

/-- A bundle of type `t` issues at its beat; `ue` is an uncorrectable instruction-SRAM error (R113). A fault of the
bundle's form is raised whichever command names it. -/
def State.issueBundle (s : State) (p t : Nat) (ue : Bool) (f : State → Bundle → State) : State :=
  let q := s.sq p
  match s.nextBundle p with
  | none => s
  | some b =>
    if !s.canRun p q.issue then s
    else
      let form := bundleForm b
      if ue ∨ form ≠ 0 then
        ((s.advance p q.issue).wn (Reg.SEQ_PC p) (q.pc + 1)).beatFault p (if ue then fIsramUe else form) 0xFF 15 (q.pc + 1)
      else if bType b ≠ t then s
      else
        let s1 := (s.advance p q.issue).wn (Reg.SEQ_PC p) (q.pc + 1)
        let s2 := s1.setSq p { s1.sq p with pos := q.pos + 1 }
        f (if bTrace b then s2.sepiaRec (unitSeq p) 0x14 p (q.pc + 1) else s2) b

/-- R118: an EXEC bundle. Its CTL operation, GRP starts and XFER operation are then due in its beat. -/
def State.bundleExec (s : State) (p : Nat) (ue : Bool) : State :=
  s.issueBundle p bExec ue fun s b =>
    let q := s.sq p
    s.setSq p { q with
      issue := q.beat + bBeats b, ctlDue := bCtlV b, grp0Due := bGrpV b && bitsOf (startBits b 0) 0 1 == 1
      grp1Due := bGrpV b && bitsOf (startBits b 1) 0 1 == 1, xferDue := bXferV b && bXop b != 0 }
def execBundleExec (p : Nat) (ue : Bool) (s : State) : Host.Outcome State Fault Refusal := .next (s.bundleExec p ue)

/-- A fault of the issuing bundle. -/
def State.bundleFault (s : State) (p code : Nat) : State := s.beatFault p code 0xFF 15 (s.sq p).pc

/-- The CTL operation `cop` of the issued EXEC bundle, once. -/
def State.ctlOp (s : State) (p cop : Nat) (f : State → Bundle → State) : State :=
  let q := s.sq p
  if s.dead p q.beat ∨ s.halted ∨ !q.ctlDue ∨ bCop q.bundle ≠ cop then s
  else f (s.setSq p { q with ctlDue := false }) q.bundle

/-- R120. IDLE's beats are in the bundle's length. -/
def execCtlNop (p : Nat) (s : State) : Host.Outcome State Fault Refusal := .next (s.ctlOp p 0 fun s _ => s)
def execIdle (p : Nat) (s : State) : Host.Outcome State Fault Refusal := .next (s.ctlOp p 1 fun s _ => s)
/-- R122. -/
def execFsig (p : Nat) (s : State) : Host.Outcome State Fault Refusal :=
  .next (s.ctlOp p 2 fun s b => s.fenceSignal p (ctlB b 4 16))

/-- R123: LOOP. The target bundle is read from the image, unless it is the current period's own mark. -/
def State.loopTo (s : State) (p : Nat) (errs : List ReadErr) (b : Bundle) : State :=
  let q := s.sq p
  let t := ctlB b 30 32
  if q.loopRec.isSome then s.bundleFault p fPlenRange
  else
    let (s1, isMark) :=
      if t = q.cur.idx then (s, true)
      else if q.nbundle ≤ t then (s, false)
      else
        let (s, c, l) := s.fetch errs p t 1
        (s, c == 0 && bType (l.headD 0#512) == bMark)
    if !isMark then s1.bundleFault p fLoopTarget
    else s1.setSq p { s1.sq p with loopRec := some ⟨ctlB b 4 2, ctlB b 6 24, t⟩ }
def execLoopOp (p : Nat) (errs : List ReadErr) (s : State) : Host.Outcome State Fault Refusal :=
  .next (s.ctlOp p 3 fun s b => s.loopTo p errs b)

/-- R123, R335: COMMIT makes the step's decision pending. -/
def State.commitOp (s : State) (p : Nat) (b : Bundle) : State :=
  let q := s.sq p
  if q.commitRec.isSome then s.bundleFault p fPlenRange
  else if s.stopped p then s
  else
    let s1 := s.setSq p { q with commitRec := some ⟨ctlB b 4 32, ctlB b 36 4⟩ }
    (s1.setUp p { s1.up p with commitId := s1.serial }).fput (Reg.UPD_STATUS p) Fld.UPD_STATUS_PENDING 1
def execCommit (p : Nat) (s : State) : Host.Outcome State Fault Refusal := .next (s.ctlOp p 4 fun s b => s.commitOp p b)

/-- R134, R186, R191: SLACK. The period's first finds every body ended. -/
def State.slackOp (s : State) (p : Nat) (ue : Bool) : State :=
  let first := bType (s.sq p).bundle ≠ bSlack
  s.issueBundle p bSlack ue fun s b =>
    match if first then s.overrun p else none with
    | some s1 => s1
    | none =>
      if s.stopped p then s
      else
        let n := ctlB b 0 16 + 1
        let late := s.rn (Reg.SEQ_LATE p)
        let c := min late n
        let q := s.sq p
        let s1 := s.setSq p { q with issue := q.beat + (n - c) }
        (((s1.setLate p (late - c)).bump64 (Reg.SEQ_CONS_LO p) c).count p 0x03 16 0 c).lostEnd p
def execSlack (p : Nat) (ue : Bool) (s : State) : Host.Outcome State Fault Refusal := .next (s.slackOp p ue)

/-- R126: END. -/
def State.endOp (s : State) (p : Nat) (ue : Bool) : State :=
  s.issueBundle p bEnd ue fun s b =>
    let q := s.sq p
    if s.stopped p then s
    else s.setSq p { q with issue := q.beat + 1, ended := some (if ctlB b 16 1 = 1 then some (ctlB b 0 16) else none) }
def execEndOp (p : Nat) (ue : Bool) (s : State) : Host.Outcome State Fault Refusal := .next (s.endOp p ue)

/-- R134: the boundary after the last beat of a period without SLACK finds a body that has not ended. -/
def State.endOverrun (s : State) (p : Nat) : Option State :=
  let q := s.sq p
  if (q.cur.bundles.take q.cur.len).any (fun b => bType b == bSlack) then none else s.overrun p

/-- R126, R124: every completion set is empty after END: the stream is over. -/
def State.endDone (s : State) (p : Nat) : State :=
  let q := s.sq p
  match q.ended with
  | none => s
  | some fence =>
    let b := max q.beat q.issue
    if s.stopped p ∨ !s.canRun p b ∨ (List.range 32).any (fun n => s.cset p n != 0) then s
    else
      let s1 := s.advance p b
      let s2 := match fence with | some n => s1.fenceSignal p n | none => s1
      let s3 := s2.setSq p { s2.sq p with ended := none, loopRec := none, commitRec := none,
                                          nxt := { idx := q.cur.idx + q.cur.len } }
      (s1.endOverrun p).getD ((s3.enterStopped p).irqSeq p Fld.SEQ_INT_STATUS_END)
def execEndComplete (p : Nat) (s : State) : Host.Outcome State Fault Refusal := .next (s.endDone p)

/-- R124: choose the successor, knowing whether the step's decision was TAINTED. -/
def State.choose (s : State) (p : Nat) (tainted : Bool) : State :=
  let q := s.sq p
  let (s1, idx) := match q.commitRec, q.loopRec with
    | some c, l =>
      if tainted then
        ((List.range 4).foldl (fun (s : State) n => if bitOf c.lclr n then s.wn (Reg.SEQ_LOOP p n) 0 else s) s, c.redo)
      else pick s q l
    | none, l => pick s q l
  s1.setSq p { s1.sq p with loopRec := none, commitRec := none, afterCommit := false,
                            nxt := if q.nxt.idx = idx then q.nxt else { idx := idx } }
where
  /-- R124, steps 2 to 4. -/
  pick (s : State) (q : Seq) (l : Option LoopRec) : State × Nat :=
    match l with
    | some l =>
      if s.loopCnt p l.lvl < l.tripm1 then (s.wn (Reg.SEQ_LOOP p l.lvl) (s.loopCnt p l.lvl + 1), l.target)
      else (s.wn (Reg.SEQ_LOOP p l.lvl) 0, q.cur.idx + q.cur.len)
    | none => (s, q.cur.idx + q.cur.len)

/-- The successor is known: the gate waits, or a pending STOP takes effect (R163). -/
def State.toGate (s : State) (p : Nat) : State :=
  if (s.sq p).stopPend then s.enterStopped p else s.setSeqState p seqGateWait

/-- R124, R125, R134: a period's end. -/
def State.periodEnd (s : State) (p : Nat) : State :=
  let q := s.sq p
  if !(s.seqState p == seqRunning || s.seqState p == seqStopping) || q.ended.isSome || decide (q.pos + 1 < q.cur.len) ||
      q.opsDue || !s.canRun p q.issue then s
  else
    let s1 := s.advance p q.issue
    let st := Reg.UPD_STATUS p
    let s2 := s1.setSq p { s1.sq p with waited := 0, resumed := false }
    (s1.endOverrun p).getD (if q.commitRec.isSome ∧ s2.flag st Fld.UPD_STATUS_PENDING then
        (s2.setSq p { s2.sq p with afterCommit := true }).setSeqState p seqGateWait
      else (s2.choose p (s2.fget st Fld.UPD_STATUS_LAST == 3)).toGate p)
def execPeriodEnd (p : Nat) (s : State) : Host.Outcome State Fault Refusal := .next (s.periodEnd p)

/-- R125, R335 step 5: the decision that a waiting gate needs has been made. -/
def State.afterDecision (s : State) (p : Nat) : State :=
  if (s.sq p).afterCommit then
    let s1 := s.choose p (s.fget (Reg.UPD_STATUS p) Fld.UPD_STATUS_LAST == 3)
    if (s1.sq p).stopPend then s1.toGate p else s1
  else s

/-! ## Bodies -/

/-- R130 to R132, R135: start `i` of the issued bundle. -/
def State.grpStart (s : State) (p i : Nat) : State :=
  let q := s.sq p
  let due := if i = 0 then q.grp0Due else q.grp1Due
  if s.dead p q.beat ∨ s.halted ∨ !due then s
  else
    let x := startBits q.bundle i
    let s1 := s.setSq p (if i = 0 then { q with grp0Due := false } else { q with grp1Due := false })
    let (addr, lenm1, sbeat) := (bitsOf x 11 11, bitsOf x 22 11, bitsOf x 49 20)
    if sbeat < q.beat - q.start + 6 then s1.bundleFault p fStartLate
    else if 2015 < addr + lenm1 then s1.bundleFault p fRange
    else if s.stopped p then s1
    else
      let st : Start := ⟨if i = 0 then bGref q.bundle else bitsOf x 69 6, bitsOf x 1 10, addr, lenm1, bitsOf x 33 16,
        q.start + sbeat, q.pc⟩
      s1.setSq p { s1.sq p with starts := (s1.sq p).starts ++ [st] }
def execGrpStart (p i : Nat) (s : State) : Host.Outcome State Fault Refusal := .next (s.grpStart p i)

/-- R131: a body's slot is free again. -/
def State.endRun (s : State) (p phys u : Nat) (r : Run) : State :=
  (s.setRun phys u none).sepiaRec (unitOf phys u) 0x02 p r.trip

/-- R131, R161: what a start meets that may not begin: a unit that is busy or that another start selects too, or code still being loaded. -/
def State.startFault (s : State) (p : Nat) (x : Start) (others : List Start) : Option (Nat × Nat × Nat) :=
  let busy (cu : Nat × Nat) : Bool :=
    (match s.runOf (s.pcore p cu.1) cu.2 with | some r => r.busy x.beat | none => false) ||
    others.any fun y => y.beat == x.beat && bitOf y.umask cu.2 && (s.group p y.group).contains cu.1
  match (s.startUnits p x).find? busy with
  | some cu => some (fUnitConflict, cu.1, cu.2)
  | none => ((s.startUnits p x).find? fun cu => s.rloadMeets p (s.pcore p cu.1) cu.2 x.addr (x.lenm1 + 1)).map fun cu =>
      (fRplPending, cu.1, cu.2)

/-- The body begins in unit `cu.2` of core `cu.1`, where one that is done may still stand. -/
def State.startUnit (s : State) (p : Nat) (x : Start) (cu : Nat × Nat) : State :=
  let phys := s.pcore p cu.1
  let s1 := match s.runOf phys cu.2 with | some r => s.endRun p phys cu.2 r | none => s
  let r : Run := ⟨p, cu.1, x.addr, x.lenm1, x.tripm1, s1.rank p x.group cu.1, x.pc, 0, 0, 0, x.beat, []⟩
  (s1.setRun phys cu.2 (some r)).sepiaRec (unitOf phys cu.2) 0x01 p (x.addr + 2048 * x.tripm1)

/-- A start begins in all its units, or faults; a stream that has faulted begins none. -/
def State.startBody (s : State) (p : Nat) (x : Start) (bad : Option (Nat × Nat × Nat)) : State :=
  let s1 := match bad with
    | some cu => s.beatFault p cu.1 cu.2.1 cu.2.2 x.pc
    | none => if s.stopped p then s else (s.startUnits p x).foldl (fun s cu => s.startUnit p x cu) s
  s1.setSq p { s1.sq p with starts := (s1.sq p).starts.erase x }

/-- R131, R133, R134, R154: the earliest start begins in all its units, unless its beat lies beyond the last one that bodies may use. -/
def State.bodyStart (s : State) (p : Nat) : State :=
  match (s.sq p).starts with
  | [] => s
  | h :: t =>
    let x := t.foldl (fun a b => if b.beat < a.beat then b else a) h
    if s.dead p x.beat ∨ !s.canRun p x.beat then s
    else
      let s1 := s.advance p x.beat
      if (s.sq p).bodyLimit ≤ x.beat then
        let s2 := (s1.overrun p).getD s1
        s2.setSq p { s2.sq p with starts := (s2.sq p).starts.erase x }
      else s1.startBody p x (s1.startFault p x ((s.sq p).starts.erase x))
def execBodyStart (p : Nat) (s : State) : Host.Outcome State Fault Refusal := .next (s.bodyStart p)

/-- R131, R134: a body ends, or is found running past the last beat that it may use. -/
def State.bodyEnd (s : State) (p core u : Nat) : State :=
  let phys := s.pcore p core
  match s.runOf phys u with
  | none => s
  | some r =>
    if r.part ≠ p ∨ s.dead p r.beat ∨ !s.canRun p r.beat then s
    else if r.done then (s.advance p r.beat).endRun p phys u r
    else if (s.sq p).bodyLimit ≤ r.beat then
      let s1 := s.advance p r.beat
      ((s1.overrun p).getD s1).dropRun p phys u
    else s
def execBodyEnd (p core u : Nat) (s : State) : Host.Outcome State Fault Refusal := .next (s.bodyEnd p core u)

/-! ## Memory transfers and RLOAD (R151, R154, R156) -/

/-- The XFER operation `xop` of the issued bundle, once. -/
def State.xferOp (s : State) (p xop : Nat) (f : State → Bundle → State) : State :=
  let q := s.sq p
  if s.dead p q.beat ∨ s.halted ∨ !q.xferDue ∨ bXop q.bundle ≠ xop then s
  else f (s.setSq p { q with xferDue := false }) q.bundle

/-- Outstanding parts of one operation, once every part has passed its checks. -/
def State.addXfers (s : State) (p cset : Nat) (l : List Xfer) : State :=
  match s.csetAdd p cset l.length with
  | none => s.bundleFault p fCsetOvf
  | some s1 =>
    let l' := l.map fun x => { x with id := s1.serial }
    { s1.setSq p { s1.sq p with xfers := (s1.sq p).xfers ++ l' } with serial := s1.serial + 1 }

/-- R547: the first part that the region table refuses raises RANGE. -/
def State.checkParts (s : State) (p : Nat) (m : Master) (l : List Xfer) : State × Bool :=
  l.foldl (fun (y : State × Bool) x => if y.2 then y else
    let (s, c) := y.1.checkRun p m true x.mem x.len
    (s, c != 0)) (s, false)

/-- R151: MEMRD and MEMWR. -/
def State.memXfer (s : State) (p : Nat) (b : Bundle) (rd : Bool) : State :=
  let len := 32 * (xferB b 33 18 + 1)
  let sram := 32 * xferB b 15 18
  let l := (List.zip (List.range 128) (s.group p (xferB b 9 6))).map fun (k, c) =>
    (⟨0, if rd then .memrd else .memwr, bCset b, xferB b 51 56 + k * xferB b 107 24 * 32, s.pcore p c, sram, len, 0,
      (s.sq p).pc⟩ : Xfer)
  if 8388608 < sram + len ∨ l.any (fun x => x.mem % 32 != 0) then s.bundleFault p fRange
  else
    let (s1, bad) := s.checkParts p (if rd then mCoreRd else mCoreWr) l
    if bad then s1.bundleFault p fRange else s1.addXfers p (bCset b) l
def execXferMemrd (p : Nat) (s : State) : Host.Outcome State Fault Refusal :=
  .next (s.xferOp p 1 fun s b => s.memXfer p b true)
def execXferMemwr (p : Nat) (s : State) : Host.Outcome State Fault Refusal :=
  .next (s.xferOp p 2 fun s b => s.memXfer p b false)

/-- R154: RLOAD. -/
def State.rloadOp (s : State) (p : Nat) (b : Bundle) : State :=
  let n := xferB b 36 11 + 1
  let didx := xferB b 25 11
  let um := xferB b 15 10
  let l := (List.zip (List.range 128) (s.group p (xferB b 9 6))).map fun (k, c) =>
    (⟨0, .rload, bCset b, xferB b 47 56 + k * xferB b 103 24 * 32, s.pcore p c, didx, 8 * n, um, (s.sq p).pc⟩ : Xfer)
  let meets := (s.partRuns p).find? fun e => e.2.busy (s.sq p).beat && l.any (fun x => x.core == e.1 / 16) && bitOf um (e.1 % 16) &&
    decide (didx < e.2.addr + e.2.lenm1 + 1 ∧ e.2.addr < didx + n)
  if 2047 < didx + (n - 1) then s.bundleFault p fRange
  else
    let (s1, bad) := s.checkParts p mCoreRd l
    if bad then s1.bundleFault p fRange
    else if meets.isSome then s1.bundleFault p fRplPending
    else s1.addXfers p (bCset b) l
def execRload (p : Nat) (s : State) : Host.Outcome State Fault Refusal := .next (s.xferOp p 6 fun s b => s.rloadOp p b)

def State.dropXfer (s : State) (p : Nat) (x : Xfer) : State :=
  (s.setSq p { s.sq p with xfers := (s.sq p).xfers.erase x }).csetSub p x.cset

/-- R48, R491, R547: an outstanding part binds its key as it moves. Where the KID's pair is no longer one that the partition may use,
nothing moves: the part ends, the refusal is recorded, and the stream faults at the bundle that issued it. -/
def State.bound (s : State) (p : Nat) (x : Xfer) (f : State → State) : State :=
  let m := if x.kind = .memwr then mCoreWr else mCoreRd
  let c := s.keyCode p (addrKid x.mem) m.write
  if c = 0 then f s
  else ((s.refuse p c m.id m.write ((s.offset p x.mem).getD 0) (addrKid x.mem)).dropXfer p x).seqFault p fRange 0xFF 15 x.pc

/-- R156, R269, R270, R276: the `n`-th outstanding part of the partition, a MEMRD or MEMWR, completes. `bad` names errors of
core SRAM that a MEMWR meets. -/
def State.xferDone (s : State) (p n : Nat) (errs : List ReadErr) (bad : SramErrs) : State :=
  match (s.sq p).xfers[n]? with
  | none => s
  | some x =>
    if s.tagWait p 2 (some (s.lcore p x.core)) then s
    else s.issuedAs p x.id fun s => s.bound p x fun s => match x.kind with
    | .memrd =>
      let (s1, r) := s.readRun errs p true false x.mem x.len
      ((s1.sramWr x.core x.addr r.bytes).count p 0x08 16 0 x.len).dropXfer p x
    | .memwr =>
      let (s1, v) := s.sramX p bad x.core x.addr x.len
      (((s1.writeRun errs p false false x.mem v).1).count p 0x09 16 0 x.len).dropXfer p x
    | .rload => s
def execMemTransferComplete (p n : Nat) (errs : List ReadErr) (bad : SramErrs) (s : State) :
    Host.Outcome State Fault Refusal := .next (s.xferDone p n errs bad)

/-- R154, R276: the `n`-th outstanding part, an RLOAD, lands. -/
def State.rloadDone (s : State) (p n : Nat) (errs : List ReadErr) : State :=
  match (s.sq p).xfers[n]? with
  | none => s
  | some x =>
    if x.kind ≠ .rload ∨ s.tagWait p 1 none then s
    else s.issuedAs p x.id fun s => s.bound p x fun s =>
      let (s1, r) := s.readRun errs p false false x.mem x.len
      let ops := (chunksOf 8 (x.len / 8) r.bytes).map fun c => BitVec.ofNat 64 (leNat c)
      let m := (List.range 10).foldl (fun m u => if bitOf x.umask u then
        SMap.setRun (fun _ => 0#64) m ((x.core * 16 + u) * 2048 + x.addr) ops else m) s1.cores.replay
      (({ s1 with cores := { s1.cores with replay := m } }).count p 0x08 16 0 x.len).dropXfer p x
def execRloadComplete (p n : Nat) (errs : List ReadErr) (s : State) : Host.Outcome State Fault Refusal :=
  .next (s.rloadDone p n errs)

/-! ## XFER NME and UPD (R152, R155) -/

/-- R152, R285: the command records are fetched and forwarded to each stack of `STKMASK`. -/
def State.nmeOp (s : State) (p : Nat) (b : Bundle) (errs : List ReadErr) : State :=
  let mask := xferB b 9 8
  let a := xferB b 17 56
  let n := xferB b 73 12 + 1
  let js := (List.range 8).filter fun j => bitOf mask j
  if js.any fun j => decide (s.nstacks p ≤ j) then s.bundleFault p fRange
  else
    let (s1, c) := s.checkRun p mNmeFetch true a (64 * n)
    if c ≠ 0 then s1.bundleFault p fRange
    else match s1.csetAdd p (bCset b) js.length with
      | none => s1.bundleFault p fCsetOvf
      | some s2 =>
        let (s3, r) := s2.readRun errs p false false a (64 * n)
        let id := s3.serial
        let recs : List NmeRec := (chunksOf 64 n r.bytes).map fun v => ⟨p, id, v, false⟩
        let ks := js.map (s.stack0 p + ·)
        let s4 := ks.foldl (fun s k => s.forward k recs) s3
        let x : NmeXfer := ⟨id, p, bCset b, ks⟩
        { s4 with serial := id + 1, nmeXfers := if js.isEmpty then s4.nmeXfers else s4.nmeXfers ++ [x] }
def execXferNme (p : Nat) (errs : List ReadErr) (s : State) : Host.Outcome State Fault Refusal :=
  .next (s.xferOp p 3 fun s b => s.nmeOp p b errs)

def State.updOp (s : State) (p : Nat) (b : Bundle) (errs : List ReadErr) : State :=
  match s.updIssue p (bCset b) (xferB b 9 56) errs with
  | some s1 => s1
  | none => s.bundleFault p fCsetOvf
def execXferUpd (p : Nat) (errs : List ReadErr) (s : State) : Host.Outcome State Fault Refusal :=
  .next (s.xferOp p 7 fun s b => s.updOp p b errs)

/-- R77: a write of a format table's header or entries or of the SR seed, at an offset of the `FMT` block. -/
def State.fmtTableW (s : State) (p off : Nat) (v : Word) : State :=
  if s.stopped p then s.regWrite (vf p + 0x500000 + off) v
  else s.setBits (Reg.FMT_STATUS p) Fld.FMT_STATUS_WR_REJECT.mask
def execFmtTableWrite (r : RegReq) (p off : Nat) (v : Word) (s : State) : Host.Outcome State Fault Refusal :=
  .next (s.write r (vf p + 0x500000 + off) fun s => if off < 0x10 then s else s.fmtTableW p off v)

end Sys2Proof.Machine
end

