-- ==== Sys2Proof/Machine/Links.lean ====
section
/-! DEFINITION. The Leold links: blocks on the wire (R357 to R364), training (R365 to R370), the transmit cycle (R372 to
R374), scheduled windows (R375 to R378, R401, R402), peer authentication and link keys (R380 to R387). -/

namespace Sys2Proof.Machine

/-! ## Numbers -/

def seqMod : Nat := 16777216
/-- `a` is at or after `b`, modulo 2^24. -/
def seqGe (a b : Nat) : Bool := decide ((a + seqMod - b) % seqMod < 8388608)

def tHold : Nat := 0
def tDetect : Nat := 1
def tLanes : Nat := 2
def tCaps : Nat := 3
def tQual : Nat := 4
def tInit : Nat := 5
def tAuth : Nat := 6
def tActive : Nat := 7

def Port.action (x : Port) : Nat := Fld.LL_TRAIN_0_ACTION.get x.act0
def Port.param (x : Port) : Nat := Fld.LL_TRAIN_1_PARAM.get x.act1
/-- Frames are exchanged while the keeper authenticates the peer and while the port is ACTIVE. -/
def Port.linked (x : Port) : Bool := x.action == tAuth || x.action == tActive

def State.trainIdx (s : State) (n : Nat) : Nat := s.fget (Reg.LL_PORT_STAT n) Fld.LL_PORT_STAT_STATE

/-- KEYREG slots of a port (R484). -/
def txSlot (n : Nat) : Nat := 0x80 + 2 * n
def rxSlot (n : Nat) : Nat := 0x81 + 2 * n

/-- Replace the `p`-th of four numbers (`p` from 1). -/
def set4 (l : List Nat) (p v : Nat) : List Nat := l.set (p - 1) v
def get4 (l : List Nat) (p : Nat) : Nat := l.getD (p - 1) 0

/-! ## Windows -/

/-- R377, R429, R443: a window error of a partition, in a role (0 receive, 1 send). -/
def State.winError (s : State) (p port lport role win : Nat) : State :=
  let s1 := s.raiseNf p
  let s2 := if port < 16 then
      ((s1.bump (Reg.LL_WIN_ERR port) Fld.LL_WIN_ERR_COUNT 1).irqLl port Fld.LL_INT_STATUS_WIN_ERR).sepiaRec (unitPort port) 0x54 p
        (win + 1048576 * role)
    else s1
  ((s2.bump (Reg.COL_WINERR_COUNT p) Fld.COL_WINERR_COUNT_COUNT 1).wr (Reg.COL_WINERR_LAST p)
    (Fld.COL_WINERR_LAST_WIN.put (Fld.COL_WINERR_LAST_ROLE.put (Fld.COL_WINERR_LAST_LPORT.put 0 lport) role) win)).irqCol p
    Fld.COL_INT_STATUS_WIN_ERR

/-- The lowest logical port of a partition that maps to a physical port. -/
def State.lportOf (s : State) (p port : Nat) : Nat :=
  ((List.range 16).find? fun l => s.portMap p l == port).getD 0

/-- R375, R378: a window is armed; on a physical port its ARM frame waits to go out. -/
def State.armed (s : State) (p : Nat) (w : Win) : State :=
  if 16 ≤ w.port then s
  else
    let f : TxFrame := ⟨p, 3, w.win, w.len, List.replicate 32 0#8⟩
    (s.setPort w.port { s.port w.port with queue := (s.port w.port).queue ++ [f] }).sepiaRec (unitPort w.port) 0x52 p w.win

/-- A window ends: it leaves the list and its completion set falls by 1 (R156). -/
def State.endRx (s : State) (p : Nat) (x : RxWin) : State :=
  let s1 := (s.setWin p { s.win p with rx := (s.win p).rx.filter fun (y : RxWin) => y.w.id != x.w.id }).csetSub p x.w.cset
  let s2 := match x.peer with | some c => s1.csetSub p c | none => s1
  if x.w.port < 16 then s2.sepiaRec (unitPort x.w.port) 0x53 p x.w.win else s2

/-- R377: an armed window completes as an error, its whole region written 0. -/
def State.failRx (s : State) (p : Nat) (x : RxWin) : State :=
  (s.sramWr x.w.core x.w.addr (List.replicate x.w.len 0#8)).endRx p x

/-- Bytes of a window have landed; it completes when all have (R376). -/
def RxWin.full (x : RxWin) : Bool :=
  (List.range x.w.len).all fun i => x.got.any fun r => decide (r.1 ≤ i ∧ i < r.1 + r.2)
def State.landRx (s : State) (p id off len : Nat) : State :=
  match (s.win p).rx.find? fun (x : RxWin) => x.w.id == id with
  | none => s
  | some x =>
    let x' : RxWin := { x with got := x.got ++ [(off, len)] }
    if x'.full then s.endRx p x'
    else s.setWin p { s.win p with rx := (s.win p).rx.map fun (y : RxWin) => if y.w.id = id then x' else y }

/-- R402: an armed LOOP window and a LOOP-mapped window to send of the same `WIN` meet at the current beat: two of one length where there
are such, else any two, which is the error of R377 when the copy starts. Each meets one other alone. -/
def State.loopMeet (s : State) (p win : Nat) : State :=
  let w := s.win p
  let rx := w.rx.filter fun (x : RxWin) => x.w.port == 16 && x.w.win == win && x.peer.isNone &&
    !w.tx.any fun (y : TxWin) => y.met == some x.w.id
  let tx := w.tx.filter fun (x : TxWin) => x.w.port == 16 && x.w.win == win && x.met.isNone
  let pairs := tx.flatMap fun x => rx.map fun y => (x, y)
  match (pairs.find? fun z => z.1.w.len == z.2.w.len).or pairs.head? with
  | some (x, y) =>
    let x' : TxWin := { x with met := some y.w.id, due := max x.due (s.sq p).beat }
    s.setWin p { w with tx := w.tx.map fun (z : TxWin) => if z.w.id = x.w.id then x' else z }
  | none => s

/-- R153, R401, R402, R405: LLTX. -/
def State.lltx (s : State) (p : Nat) (b : Bundle) : State :=
  let len := 32 * (xferB b 45 11 + 1)
  let lports := (List.range 16).filter fun l => bitOf (xferB b 9 16) l
  let phys := (lports.map fun l => s.portMap p l).filter fun t => decide (t < 16)
  match s.rbAddr p (xferB b 25 9) (xferB b 34 11) (xferB b 45 11 + 1) with
  | none => s.bundleFault p fRange
  | some u =>
    if phys.eraseDups.length ≠ phys.length then s.bundleFault p fRange
    else match s.csetAdd p (bCset b) lports.length with
      | none => s.bundleFault p fCsetOvf
      | some s1 =>
        let (home, a) := s1.rbPlace p u
        lports.foldl (fun s l =>
          let t := s.portMap p l
          if t = 17 then s.csetSub p (bCset b)
          else
            let q := s.sq p
            let x : TxWin := ⟨⟨s.serial, t, l, bCset b, xferB b 56 20, len, s.pcore p home, a⟩, q.start + xferB b 56 20, none, 0, none⟩
            let s2 := { s with serial := s.serial + 1 }.setWin p { s.win p with tx := (s.win p).tx ++ [x] }
            if t = 16 then s2.loopMeet p x.w.win else s2) s1
def execLltx (p : Nat) (s : State) : Host.Outcome State Fault Refusal := .next (s.xferOp p 4 fun s b => s.lltx p b)

/-- Armed windows of a partition on a port. -/
def State.armedOn (s : State) (p port : Nat) : Nat :=
  ((s.win p).rx.filter fun (x : RxWin) => x.armed && x.w.port == port).length

/-- R153, R375, R378, R402: LLRX. -/
def State.llrx (s : State) (p : Nat) (b : Bundle) : State :=
  let len := 32 * (xferB b 33 11 + 1)
  let l := xferB b 9 4
  let t := s.portMap p l
  match s.rbAddr p (xferB b 13 9) (xferB b 22 11) (xferB b 33 11 + 1) with
  | none => s.bundleFault p fRange
  | some u =>
    match s.csetAdd p (bCset b) 1 with
    | none => s.bundleFault p fCsetOvf
    | some s1 =>
      let (home, a) := s1.rbPlace p u
      let core := s1.pcore p home
      if t = 17 then (s1.sramWr core a (List.replicate len 0#8)).csetSub p (bCset b)
      else
        let w : Win := ⟨s1.serial, t, l, bCset b, xferB b 44 20, len, core, a⟩
        let now := t = 16 ∨ (s1.armedOn p t < 16 ∧ !(s1.win p).rx.any fun (x : RxWin) => !x.armed && x.w.port == t)
        let s2 := { s1 with serial := s1.serial + 1 }.setWin p { s1.win p with rx := (s1.win p).rx ++ [(⟨w, decide now, [], none⟩ : RxWin)] }
        if t = 16 then s2.loopMeet p w.win else if now then s2.armed p w else s2
def execLlrx (p : Nat) (s : State) : Host.Outcome State Fault Refusal := .next (s.xferOp p 5 fun s b => s.llrx p b)

/-- R378: the oldest held arm of a partition on a port proceeds once fewer than 16 of its windows are armed there. -/
def State.armRelease (s : State) (p port : Nat) : State :=
  match (s.win p).rx.find? fun (x : RxWin) => !x.armed && x.w.port == port with
  | none => s
  | some x =>
    if 16 ≤ s.armedOn p port then s
    else (s.setWin p { s.win p with rx := (s.win p).rx.map fun (y : RxWin) =>
      if y.w.id = x.w.id then { y with armed := true } else y }).armed p x.w
def execWindowArmRelease (p port : Nat) (s : State) : Host.Outcome State Fault Refusal := .next (s.armRelease p port)

/-- R402: a LOOP window's copy starts: its 512-byte parts are on their way, or the lengths differ. -/
def State.loopStart (s : State) (p : Nat) (x : TxWin) (bad : SramErrs) : State :=
  let s0 := (s.advance p x.due).setWin p { s.win p with tx := (s.win p).tx.filter fun (y : TxWin) => y.w.id != x.w.id }
  match (s0.win p).rx.find? fun (y : RxWin) => x.met == some y.w.id with
  | none => s0.csetSub p x.w.cset
  | some y =>
    if y.w.len ≠ x.w.len then
      let fails := (s0.failRx p y).csetSub p x.w.cset
      if x.w.lport < y.w.lport then (fails.winError p 16 y.w.lport 0 y.w.win).winError p 16 x.w.lport 1 x.w.win
      else (fails.winError p 16 x.w.lport 1 x.w.win).winError p 16 y.w.lport 0 y.w.win
    else
      let (s1, v) := s0.sramX p bad x.w.core x.w.addr x.w.len
      let parts := (List.range ((x.w.len + 511) / 512)).map fun i =>
        (⟨x.due + 24 + i, false, 0, s1.lcore p x.w.core, y.w.core, y.w.addr + 512 * i, (v.drop (512 * i)).take 512, false, some (y.w.id, 512 * i),
          0⟩ : MeshLand)
      let s2 := s1.setWin p { s1.win p with rx := (s1.win p).rx.map fun (z : RxWin) =>
        if z.w.id = y.w.id then { z with peer := some x.w.cset } else z }
      s2.setSq p { s2.sq p with mesh := (s2.sq p).mesh ++ parts }

/-- R375, R377: a window whose ARM has come starts, or is answered with an ABORT where the lengths differ. -/
def State.portStart (s : State) (p port : Nat) (x : TxWin) (a : Arm) : State :=
  let w := s.win p
  let w1 : Wins := { w with tx := w.tx.filter (fun (y : TxWin) => y.w.id != x.w.id), arms := w.arms.erase a }
  if a.len = x.w.len then s.setWin p { w1 with sending := w1.sending ++ [x] }
  else
    let f : TxFrame := ⟨p, 6, x.w.win, 0, List.replicate 32 0#8⟩
    let s1 := s.setWin p w1
    ((s1.setPort port { s1.port port with queue := (s1.port port).queue ++ [f] }).csetSub p x.w.cset).winError p port x.w.lport 1 x.w.win

/-- The ARM frame that a window to send has met. -/
def Wins.armOf (w : Wins) (x : TxWin) : Option Arm := w.arms.find? fun a => a.port == x.w.port && a.win == x.w.win

/-- R375: when a window starts, the later of its beat and the arrival of its ARM: the beat, and the time within the beat where the ARM comes
last. -/
def Wins.startKey (w : Wins) (x : TxWin) : Nat × Nat :=
  match w.armOf x with
  | some a => if x.due ≤ a.beat then (a.beat, a.time) else (x.due, 0)
  | none => (x.due, 0)

/-- R375, R402: the next window of a partition on a port (16: LOOP) starts, once its beat has come and its partner is
armed: the one whose start time is first, or that was issued first where several have one start time. -/
def State.windowStart (s : State) (p port : Nat) (bad : SramErrs) : State :=
  let q := s.sq p
  let ready (x : TxWin) : Bool := x.w.port == port &&
    (if port = 16 then x.met.isSome && s.canRun p x.due
     else ((s.win p).armOf x).isSome &&
      (s.stopped p || decide (x.due ≤ q.beat) || s.canRun p x.due))
  match (s.win p).tx.filter ready with
  | [] => s
  | h :: t =>
    let key := (s.win p).startKey
    let before (a b : TxWin) : Bool := decide ((key a).1 < (key b).1 ∨ ((key a).1 = (key b).1 ∧ (key a).2 < (key b).2))
    let x := t.foldl (fun (a b : TxWin) => if before b a then b else a) h
    if port = 16 then s.loopStart p x bad
    else
      let s1 := if s.stopped p ∨ x.due ≤ q.beat then s else s.advance p x.due
      match (s.win p).armOf x with
      | some a => s1.portStart p port x a
      | none => s1
def execWindowSendStart (p port : Nat) (bad : SramErrs) (s : State) : Host.Outcome State Fault Refusal :=
  .next (s.windowStart p port bad)

/-! ## Mesh landings (R148, R402, R408) -/

/-- Landings apply in this order within a cycle: LOOP parts, then by ascending source core (R408). -/
def MeshLand.before (a b : MeshLand) : Bool :=
  decide (a.kind = 0 ∧ b.kind ≠ 0) || ((a.kind == 0) == (b.kind == 0) && decide (a.src < b.src))

/-- The two landings that a core takes: those deferred earlier first, then in ascending source core. -/
def MeshLand.ranks (a b : MeshLand) : Bool :=
  (a.deferred && !b.deferred) || (a.deferred == b.deferred && decide (a.src < b.src))

def addWords (a b : List Byte) : List Byte :=
  (List.range (a.length / 4)).flatMap fun i => leBytes 4 (add32 (leAt a (4 * i) 4) (leAt b (4 * i) 4))

/-- One landing applies at its core, through the transfer port or, for an RBGET, the compute port (R408). `bad` names errors of that
core's SRAM which an add finds. -/
def State.landMesh (s : State) (p : Nat) (bad : SramErrs) (l : MeshLand) : State :=
  let s1 := if l.add then
      let y := s.sramGet p l.dst 9 1 bad (fun i => l.addr + i) l.bytes.length
      y.1.sramWr l.dst l.addr (addWords y.2 l.bytes)
    else if l.kind = 2 then
      let y := s.setSq p { s.sq p with cwords := (LandDst.sram (sramKey l.dst l.addr) l.bytes).words ++ (s.sq p).cwords }
      y.sramPut l.dst l.addr l.bytes
    else s.sramWr l.dst l.addr l.bytes
  match l.win with
  | some (id, off) => s1.landRx p id off l.bytes.length
  | none => s1

/-- R148: the landings due at one core at its earliest beat: two of them land, the others wait a beat. An RBGET landing uses the
stream engine's compute port there (R408, R210). -/
def State.meshLanding (s : State) (p core : Nat) (bad : SramErrs) : State :=
  let phys := s.pcore p core
  match (s.sq p).mesh.filter fun (l : MeshLand) => l.dst == phys with
  | [] => s
  | h :: t =>
    let beat := t.foldl (fun m (l : MeshLand) => min m l.beat) h.beat
    if !s.canRun p beat then s
    else
      let s1 := s.advance p beat
      let due := sortBy MeshLand.ranks ((s1.sq p).mesh.filter fun (l : MeshLand) => l.dst == phys && l.beat == beat)
      let two := sortBy MeshLand.before (due.take 2)
      let late := (due.drop 2).map fun (l : MeshLand) => { l with beat := l.beat + 1, deferred := true }
      let rest := (s1.sq p).mesh.filter fun (l : MeshLand) => !(l.dst == phys && l.beat == beat)
      let s2 := s1.setSq p { s1.sq p with mesh := rest ++ late }
      two.foldl (fun s l =>
        if l.kind = 2 then
          match s.usePorts p phys ((List.range l.bytes.length).map fun i => sramBank (l.addr + i)).eraseDups 9 with
          | .ok s3 => s3.landMesh p bad l
          | .error v => s.beatFault p fUnitConflict core (min 9 v) l.pc
        else s.landMesh p bad l) s2
def execMeshLanding (p core : Nat) (bad : SramErrs) (s : State) : Host.Outcome State Fault Refusal :=
  .next (s.meshLanding p core bad)

end Sys2Proof.Machine
end

