-- ==== Sys2Proof/Machine/Ports.lean ====
section
/-! DEFINITION. The ports of the Leold links: blocks received and sent (R357 to R364, R371 to R374), training (R365 to
R370), link keys (R380 to R387) and the writes of the `LL` registers (R388 to R398). -/

namespace Sys2Proof.Machine

/-! ## Ports going down -/

/-- R478: `DRAIN_BUSY` follows the partition's drain and the read-backs of its buddy slots. -/
def State.showDrain (s : State) (p : Nat) : State :=
  s.fput (Reg.CKP_STATUS p) Fld.CKP_STATUS_DRAIN_BUSY (b2n ((s.lake p).drain.isSome ||
    (List.range 2).any fun b => s.fget (Reg.CKP_BSLOT_STAT p b) Fld.CKP_BSLOT_STAT_STATE == 2))

/-- R463, R574: a port's loss ends the drains, receptions and PULLs on it. -/
def State.endDrains (s : State) (n : Nat) : State :=
  allParts.foldl (fun s p =>
    let l := s.lake p
    let st := Reg.CKP_STATUS p
    let s1 := if (match l.drain with | some d => d.port == n | none => false) then
        (s.setLake p { l with drain := none, broken := true }).showDrain p else s
    let l := s1.lake p
    let s2 := if (match l.serve with | some d => d.port == n | none => false) then
        (s1.setLake p { l with serve := none }).fput st Fld.CKP_STATUS_SERVE_BUSY 0 else s1
    let l := s2.lake p
    let s3 := match l.pull with
      | some (port, slot) => if port = n then
          ((s2.setLake p { l with pull := none }).fput st Fld.CKP_STATUS_PULL_BUSY 0).fput (Reg.CKP_SLOT_STAT p slot)
            Fld.CKP_SLOT_STAT_STATE 5 else s2
      | none => s2
    (List.range 2).foldl (fun s b =>
      if s.fget (Reg.CKP_BSLOT_STAT p b) Fld.CKP_BSLOT_STAT_STATE = 1 ∧ (s.lake p).bport.getD b 0 = n then
        s.fput (Reg.CKP_BSLOT_STAT p b) Fld.CKP_BSLOT_STAT_STATE 4 else s) s3) s

/-- An empty slot keeps its key epoch (R489). -/
def KeySlot.emptied (k : KeySlot) : KeySlot := { epoch := k.epoch }

/-- R382, R370: the keeper revokes a port's slots and bindings. -/
def State.revokeLink (s : State) (n : Nat) : State :=
  let s1 := (s.setKey (txSlot n) (s.key (txSlot n)).emptied).setKey (rxSlot n) (s.key (rxSlot n)).emptied
  allParts.foldl (fun s p => s.fput (Reg.LL_BIND n p) Fld.LL_BIND_VALID 0) s1

/-- R389: a port's link slots are loaded in both directions. -/
def State.linkSecure (s : State) (n : Nat) : Bool := (s.key (txSlot n)).state != 0 && (s.key (rxSlot n)).state != 0

/-- R394: what `LL_TX_KEY` and `LL_RX_KEY` show of the port's slots. -/
def State.txKeyWord (s : State) (n : Nat) : Word :=
  let k := s.key (txSlot n)
  Fld.LL_TX_KEY_EXHAUSTED.put (Fld.LL_TX_KEY_SOFT.put (Fld.LL_TX_KEY_LOADED.put (Fld.LL_TX_KEY_EPOCH.put 0 k.epoch) (b2n (k.state != 0)))
    (b2n (decide (2 ^ 47 ≤ k.ctr)))) (b2n (decide (2 ^ 48 ≤ k.ctr)))
def State.rxKeyWord (s : State) (n : Nat) : Word :=
  let k := s.key (rxSlot n)
  Fld.LL_RX_KEY_RETAIN.put (Fld.LL_RX_KEY_LOADED.put (Fld.LL_RX_KEY_EPOCH.put 0 k.epoch) (b2n (k.state != 0)))
    (b2n (s.port n).oldKey.isSome)

/-- R395: the replay buffer's occupancy; what stood before counts for `PEAK`. -/
def Port.used (x : Port) : Nat := x.replay.foldl (fun a (f : Sealed) => a + (f.body.length + 16) / 32) 0
def State.showUsed (s : State) (n : Nat) : State :=
  let u := (s.port n).used
  let a := Reg.LL_REPLAY n
  (s.fput a Fld.LL_REPLAY_PEAK (max (s.fget a Fld.LL_REPLAY_PEAK) (max (s.fget a Fld.LL_REPLAY_USED) u / 2))).fput a Fld.LL_REPLAY_USED u

/-- R370: the outstanding windows of a port that is lost never complete: they stay in their completion sets, and no frame of theirs comes
or goes any more. -/
def State.strandWindows (s : State) (n : Nat) : State :=
  allParts.foldl (fun s p =>
    let w := s.win p
    s.setWin p { tx := w.tx.filter fun (x : TxWin) => x.w.port != n, sending := w.sending.filter fun (x : TxWin) => x.w.port != n
                 rx := w.rx.filter fun (x : RxWin) => x.w.port != n, arms := w.arms.filter fun (a : Arm) => a.port != n }) s

/-- R370: a port goes DOWN or leaves for index 0. -/
def State.portDrop (s : State) (n : Nat) : State :=
  let x := s.port n
  let ofWin (t : Nat) : Bool := t == 1 || t == 3 || t == 6
  let s1 := s.setPort n { x with
    replay := [], resend := [], nakIn := false, nakDue := false, gap := false, badTag := none, oldKey := none, rxNext := 0, up := false
    txDue := false, rxDue := false, session := 0, chunks := []
    queue := x.queue.filter fun (f : TxFrame) => !ofWin f.typ, inbox := x.inbox.filter fun (f : RxFrame) => !ofWin f.typ }
  let st := Reg.LL_PORT_STAT n
  (((((s1.strandWindows n).showUsed n).revokeLink n).endDrains n).fput st Fld.LL_PORT_STAT_GEN 0).fput st Fld.LL_PORT_STAT_WIDTH4 0

/-! ## Training -/

/-- Enter a state of the training table (R365, R369, R370, R398): its entry is taken as it stands. -/
def State.trainEnter (s : State) (n idx why : Nat) : State :=
  let w0 := s.rd (Reg.LL_TRAIN_0 n idx)
  let w1 := s.rd (Reg.LL_TRAIN_1 n idx)
  let x := { s.port n with act0 := w0, act1 := w1, tries := 0, began := s.now, up := false }
  let st := Reg.LL_PORT_STAT n
  let down := x.action == tHold && idx != 0
  let s1 := ((s.setPort n x).fput st Fld.LL_PORT_STAT_STATE idx).fput st Fld.LL_PORT_STAT_DOWN_WHY (if down then why else 0)
  let s2 := if x.action = tDetect then s1.fput st Fld.LL_PORT_STAT_BARRED 0
    else if x.action = tLanes ∧ bitOf x.param 2 then s1.fput st Fld.LL_PORT_STAT_BARRED 1 else s1
  let s3 := if down then (s2.portDrop n).irqLl n Fld.LL_INT_STATUS_DOWN else if idx = 0 then s2.portDrop n else s2
  s3.sepiaRec (unitPort n) 0x50 0 (idx + 16 * s3.fget st Fld.LL_PORT_STAT_DOWN_WHY)

/-- R743: a tray port that a shared tray slot keeps DOWN. -/
def State.wired (s : State) (n : Nat) : Bool := decide (n < 8) && s.flag Reg.MGT_TB_STAT Fld.MGT_TB_STAT_DUP_SLOT

/-- The state entered on an outcome. -/
def State.trainOk (s : State) (n : Nat) : State :=
  if s.wired n then s else s.trainEnter n (Fld.LL_TRAIN_0_NEXT_OK.get (s.port n).act0) 0
def State.trainAlt (s : State) (n : Nat) : State := s.trainEnter n (Fld.LL_TRAIN_0_NEXT_ALT.get (s.port n).act0) 0

/-- An attempt has failed: another, or after `TRIES` of them the FAIL successor (R365). -/
def State.trainFail (s : State) (n why : Nat) : State :=
  let x := s.port n
  let t := Fld.LL_TRAIN_0_TRIES.get x.act0
  if t ≠ 0 ∧ t ≤ x.tries + 1 then s.trainEnter n (Fld.LL_TRAIN_0_NEXT_FAIL.get x.act0) why
  else s.setPort n { x with tries := x.tries + 1, began := s.now }

/-- An ACTIVE port goes to RETRAIN (R369). -/
def State.retrain (s : State) (n : Nat) : State :=
  let x := s.port n
  if x.action ≠ tActive then s
  else ((s.bump (Reg.LL_RETRAIN n) Fld.LL_RETRAIN_COUNT 1).irqLl n Fld.LL_INT_STATUS_RETRAIN).trainEnter n
    (Fld.LL_TRAIN_0_NEXT_FAIL.get x.act0) 0

/-- The state a port takes when its traffic must stop (R363): the first HOLD state of its table beyond index 0. -/
def State.downIdx (s : State) (n : Nat) : Nat :=
  ((List.range 16).find? fun i => decide (0 < i) && s.fget (Reg.LL_TRAIN_0 n i) Fld.LL_TRAIN_0_ACTION == tHold).getD 0

/-- The action in force is `a`: its step, once. -/
def State.trainStep (s : State) (n a : Nat) (f : State → State) : State :=
  if s.flag (Reg.LL_PORT_CTRL n) Fld.LL_PORT_CTRL_EN ∧ (s.port n).action = a ∧ (a ≠ tHold ∨ s.trainIdx n = 0) then f s else s

/-- R365: HOLD at index 0 with `EN` set moves on; elsewhere it holds. -/
def execTrainHold (n : Nat) (s : State) : Host.Outcome State Fault Refusal :=
  .next (s.trainStep n tHold fun s => s.trainOk n)

/-- R365: `mask` names the lanes on which a peer receiver and signal are found. With fewer than four the attempt goes on to its timeout. -/
def popcount (w x : Nat) : Nat := ((List.range w).filter fun i => bitOf x i).length
def execTrainDetect (n mask : Nat) (s : State) : Host.Outcome State Fault Refusal :=
  .next (s.trainStep n tDetect fun s => if 4 ≤ popcount 8 mask then s.trainOk n else s)

/-- R352, R355, R365: `rx` names the lanes whose receive side has locked, `tx` those whose transmit side the peer has. -/
def State.trainLanes (s : State) (n rx tx : Nat) : State :=
  s.trainStep n tLanes fun s =>
    let x := s.port n
    let g := x.param % 4
    let st := Reg.LL_PORT_STAT n
    let s1 := s.setPort n { x with lanes := rx % 256 }
    let s2 := if g = 0 then s1 else s1.fput st Fld.LL_PORT_STAT_GEN g
    let both := rx &&& tx
    if both % 256 = 255 then (s2.fput st Fld.LL_PORT_STAT_WIDTH4 0).trainOk n
    else if both % 16 = 15 then ((s2.fput st Fld.LL_PORT_STAT_WIDTH4 1).fput st Fld.LL_PORT_STAT_HALF 0).trainAlt n
    else if both / 16 % 16 = 15 then ((s2.fput st Fld.LL_PORT_STAT_WIDTH4 1).fput st Fld.LL_PORT_STAT_HALF 1).trainAlt n
    else s1.trainFail n 1
def execTrainLanes (n rx tx : Nat) (s : State) : Host.Outcome State Fault Refusal := .next (s.trainLanes n rx tx)

def State.node (s : State) : Nat := s.fget Reg.MGT_NODE Fld.MGT_NODE_NODE

/-- R367: the port's capability block. -/
def State.gen2Offer (s : State) (n : Nat) : Bool :=
  s.flag (Reg.LL_PORT_CTRL n) Fld.LL_PORT_CTRL_GEN2_EN && !s.flag (Reg.LL_PORT_STAT n) Fld.LL_PORT_STAT_BARRED
def State.capsBlock (s : State) (n : Nat) : List Byte :=
  leBytes 3 (s.node / 8 * 8) ++ leBytes 1 n ++ leBytes 1 (1 + 2 * b2n (s.gen2Offer n)) ++ leBytes 1 (s.port n).lanes ++
    leBytes 2 1024 ++ leBytes 2 (s.fget (Reg.LL_TRAIN_VER n) Fld.LL_TRAIN_VER_VER) ++ leBytes 54 0

/-- A block of the wire (R358): its link header, what follows, and its trailer. -/
def withCrc (l : List Byte) : List Byte := l ++ leBytes 8 (Crypto.crc32 l)

/-- The link header of the next block: it carries `ACK`, a `NAK` once per gap and at most one credit of each kind to each
partition. -/
def State.header (s : State) (n seq kind : Nat) : State × List Byte :=
  let x := s.port n
  let bits (l : List Nat) : Nat := (List.range 4).foldl (fun a i => if l.getD i 0 = 0 then a else a + 2 ^ i) 0
  let h := seq + x.rxSeq * 2 ^ 24 + bits x.ctlRet * 2 ^ 48 + bits x.bulkRet * 2 ^ 52 + b2n x.nakDue * 2 ^ 56 + kind * 2 ^ 60
  let s1 := if x.nakDue then s.bump (Reg.LL_NAK n) Fld.LL_NAK_COUNT 1 else s
  (s1.setPort n { x with ctlRet := x.ctlRet.map (· - 1), bulkRet := x.bulkRet.map (· - 1), nakDue := false }, leBytes 8 h)

/-- A block's CRC over every byte before its trailer (R357). -/
def crcOk (b : List Byte) : Bool :=
  let k := b.length - 8
  decide (16 ≤ b.length) && leAt b k 4 == Crypto.crc32 (b.take k) && leAt b (k + 4) 4 == 0

/-- A window whose last frame the peer has acknowledged completes (R153). -/
def State.ackWindows (s : State) (n ack : Nat) : State :=
  allParts.foldl (fun s p =>
    let done (x : TxWin) : Bool := x.w.port == n && x.sent == x.w.len &&
      (match x.last with | some q => seqGe ack q | none => false)
    ((s.win p).sending.filter done).foldl (fun s x =>
      ((s.setWin p { s.win p with sending := (s.win p).sending.filter fun (y : TxWin) => y.w.id != x.w.id }).csetSub p
        x.w.cset).sepiaRec (unitPort n) 0x53 p x.w.win) s) s

/-- R358, R361, R362, R364: what the link header of any block carries. -/
def State.takeHeader (s : State) (n h : Nat) : State :=
  let x := s.port n
  let ack := bitsOf h 24 24
  let cred (l : List Nat) (lo : Nat) : List Nat := (List.range 4).map fun i => min 4 (l.getD i 0 + bitsOf h (lo + i) 1)
  let gone := x.replay.any fun (f : Sealed) => seqGe ack f.seq
  let keep := x.replay.filter fun (f : Sealed) => !seqGe ack f.seq
  let s1 := s.setPort n { x with
    replay := keep, resend := x.resend.filter (fun q => keep.any fun (f : Sealed) => f.seq == q)
    ctl := cred x.ctl 48, bulk := cred x.bulk 52, nakIn := x.nakIn || bitOf h 56 }
  if gone then (s1.showUsed n).ackWindows n ack else s1

/-- R358: a CAPS block, whose body is the capability block. -/
def capsOk (b : List Byte) : Bool := b.length == 80 && crcOk b && bitsOf (leAt b 0 8) 60 4 == 3

/-- R358, R368: the capability blocks are exchanged; `b` is the CAPS block that came in, whose header is taken like that of any block. -/
def State.trainCaps (s : State) (n : Nat) (b : List Byte) : State :=
  s.trainStep n tCaps fun s =>
    let own := s.capsBlock n
    let (s1, h) := s.header n 0 3
    let s1 := s1.emit (.link n (withCrc (h ++ own)))
    if !capsOk b then s1 else
    let peer := sliceB b 8 64
    let s2 := s1.takeHeader n (leAt b 0 8)
    let node := leAt peer 0 3 % 1048576
    let port := leAt peer 3 1 % 16
    let s3 := s2.wr (Reg.LL_PEER n) (Fld.LL_PEER_PORT.put (Fld.LL_PEER_NODE.put 0 node) port)
    let st := Reg.LL_PORT_STAT n
    let mine := (s.port n).lanes
    let its := leAt peer 5 1
    let half (k : Nat) : Bool := mine / 2 ^ (4 * k) % 16 == 15 && its / 2 ^ (4 * k) % 16 == 15
    let wiring := (s.flag (Reg.LL_PORT_CTRL n) Fld.LL_PORT_CTRL_CHECK && node != s.fget (Reg.LL_EXPECT n) Fld.LL_EXPECT_NODE) ||
      (decide (n < 8) && port != 7 - n)
    if wiring then s3.trainFail n 3
    else if !(half 0 || half 1) then s3.trainFail n 2
    else
      let s4 := if half 0 && half 1 then s3.fput st Fld.LL_PORT_STAT_WIDTH4 0
        else (s3.fput st Fld.LL_PORT_STAT_WIDTH4 1).fput st Fld.LL_PORT_STAT_HALF (b2n (!half 0))
      if s.gen2Offer n ∧ bitOf (leAt peer 4 1) 1 then s4.trainOk n else s4.trainAlt n
def execTrainCaps (n : Nat) (b : List Byte) (s : State) : Host.Outcome State Fault Refusal := .next (s.trainCaps n b)

/-- R365: the measurement of QUAL: uncorrectable codewords, and corrected symbols among the symbols received. -/
def execTrainQual (n ue corrected symbols : Nat) (s : State) : Host.Outcome State Fault Refusal :=
  .next (s.trainStep n tQual fun s =>
    let s1 := s.bump64 (Reg.LL_FEC_CORR_LO n) corrected
    if ue = 0 ∧ corrected * 100000 ≤ symbols then s1.trainOk n else s1.trainFail n 0)

/-- R365: the link layer starts: sequence numbers and acknowledgements from 0, credits of R364. -/
def State.linkStart (s : State) (n : Nat) : State :=
  (s.setPort n { s.port n with
    txSeq := 0, rxSeq := 0, replay := [], resend := [], nakIn := false, nakDue := false, gap := false, badTag := none
    ctl := [4, 4, 4, 4], bulk := [4, 4, 4, 4], ctlRet := [0, 0, 0, 0], bulkRet := [0, 0, 0, 0], inbox := [], held := [] }).showUsed n
def execTrainInit (n : Nat) (ready : Bool) (s : State) : Host.Outcome State Fault Refusal :=
  .next (s.trainStep n tInit fun s => if ready then (s.linkStart n).trainOk n else s.linkStart n)

/-- R381: whether the keeper may load the port's link slots for the peer that a session has shown. -/
def State.admits (s : State) (a : LinkAuth) : Bool :=
  let own := s.fget Reg.LCS_STAT Fld.LCS_STAT_STATE
  a.chain && !a.service &&
    ((own == 2 && a.state == 2 && a.listed && s.fget Reg.GLB_FWSET Fld.GLB_FWSET_SETID != 0xFFFFFFFF) || (own == 1 && a.state == 1))

/-- A key enters a link slot (R494): `EPOCH` + 1, `CTR` 0, the limits of R502. -/
def State.loadLink (s : State) (slot : Nat) (key : List Byte) (attr soft hard : Nat) : State :=
  let k := s.key slot
  let k' : KeySlot := {
    key := key, attr := attr, state := 1, epoch := k.epoch + 1, soft := soft, hard := hard
    kcv := (Crypto.hmac384 key (ascii "SZT60-KCV")).take 8 }
  s.setKey slot k'

/-- An epoch of 0xFFFFFF takes no further load (R489). -/
def State.canLoad (s : State) (slot : Nat) : Bool := decide ((s.key slot).epoch < 0xFFFFFF)

/-- R382, R393: the bindings that the two keepers agree on: local partition, peer partition, the peer partition's epoch. -/
def State.writeBinds (s : State) (n : Nat) (l : List (Nat × Nat × Nat)) : State :=
  l.foldl (fun (s : State) (b : Nat × Nat × Nat) =>
    let w := Fld.LL_BIND_PEPOCH_TX.put (Fld.LL_BIND_PEPOCH_RX.put (Fld.LL_BIND_PEER_END.put (Fld.LL_BIND_VALID.put 0 1) b.2.1) b.2.2)
      (s.rn (Reg.KEY_PEPOCH b.1))
    (s.wr (Reg.LL_BIND n b.1) w).setPort n { s.port n with peerEp := set4 (s.port n).peerEp b.1 b.2.2 }) s

/-- R380 to R382, R393: the session stands, with the keeper of the lower node ID as its requester; the keeper loads both slots and writes the bindings, or refuses. -/
def State.trainAuth (s : State) (n : Nat) (a : LinkAuth) : State :=
  s.trainStep n tAuth fun s =>
    if !s.admits a || !s.canLoad (txSlot n) || !s.canLoad (rxSlot n) then s.trainFail n 4
    else
      let s1 := ((s.loadLink (txSlot n) a.txKey 0 47 48).loadLink (rxSlot n) a.rxKey 1 0 0)
      let s2 := s1.setPort n { s1.port n with
        rxNext := 0, oldKey := none, txSwap := s.now, rxSwap := s.now, txDue := false, rxDue := false
        session := if s.node / 8 < s.fget (Reg.LL_PEER n) Fld.LL_PEER_NODE / 8 then 1 else 2 }
      (s2.writeBinds n a.binds).trainOk n
def execTrainAuth (n : Nat) (a : LinkAuth) (s : State) : Host.Outcome State Fault Refusal := .next (s.trainAuth n a)

/-- R369, R391: the port comes up: every unacknowledged frame is to be replayed. -/
def State.trainActive (s : State) (n : Nat) : State :=
  s.trainStep n tActive fun s =>
    let x := s.port n
    if x.up then s
    else
      let s1 := s.setPort n { x with
        up := true, resend := x.replay.map (fun (f : Sealed) => f.seq), nakIn := false
        replay := x.replay.map (fun (f : Sealed) => { f with replays := 0 }) }
      let s2 := s1.irqLl n Fld.LL_INT_STATUS_UP
      let s3 := if x.replay.isEmpty then s2 else
        (s2.bump (Reg.LL_REPLAY_EVT n) Fld.LL_REPLAY_EVT_COUNT 1).sepiaRec (unitPort n) 0x51 0 x.replay.length
      if s.flag (Reg.LL_PORT_STAT n) Fld.LL_PORT_STAT_WIDTH4 then
        (s3.bump (Reg.LL_DEGRADE n) Fld.LL_DEGRADE_COUNT 1).irqLl n Fld.LL_INT_STATUS_DEGRADE
      else s3
def execTrainActive (n : Nat) (s : State) : Host.Outcome State Fault Refusal := .next (s.trainActive n)

/-- `DOWN_WHY` of a failing action (R389). -/
def whyOf (action : Nat) : Nat :=
  if action = tLanes ∨ action = tDetect then 1 else if action = tCaps then 2 else if action = tInit then 6
  else if action = tAuth then 4 else 0

/-- R365: an attempt reaches its timeout. -/
def State.trainTimeout (s : State) (n : Nat) : State :=
  let x := s.port n
  let tmo := Fld.LL_TRAIN_1_TMO.get x.act1
  if tmo = 0 ∨ x.action = tHold ∨ x.action = tActive ∨ s.now < x.began + 100 * tmo ∨
      !s.flag (Reg.LL_PORT_CTRL n) Fld.LL_PORT_CTRL_EN then s
  else s.trainFail n (whyOf x.action)
def execTrainTimeout (n : Nat) (s : State) : Host.Outcome State Fault Refusal := .next (s.trainTimeout n)

/-- R352, R369: `lane` of the port loses lock. Only an active lane of an ACTIVE port starts a retraining. -/
def State.laneLoss (s : State) (n lane : Nat) : State :=
  let x := s.port n
  let st := Reg.LL_PORT_STAT n
  let active := !s.flag st Fld.LL_PORT_STAT_WIDTH4 || lane / 4 == s.fget st Fld.LL_PORT_STAT_HALF
  let s1 := s.setPort n { x with lanes := x.lanes - (x.lanes &&& 2 ^ lane) }
  if active then s1.retrain n else s1
def execLaneLockLoss (n lane : Nat) (s : State) : Host.Outcome State Fault Refusal := .next (s.laneLoss n (lane % 8))

/-! ## Registers of a port -/

/-- R388: `EN`. -/
def State.portEnable (s : State) (n : Nat) (en : Bool) : State :=
  let was := s.flag (Reg.LL_PORT_CTRL n) Fld.LL_PORT_CTRL_EN
  let s1 := s.fput (Reg.LL_PORT_CTRL n) Fld.LL_PORT_CTRL_EN (b2n en)
  if en then (if s.trainIdx n = 0 ∧ !was ∧ (s.port n).action = tHold then s1.trainOk n else s1)
  else if s.trainIdx n = 0 then s1 else s1.trainEnter n 0 0
def execPortEnable (r : RegReq) (n : Nat) (en : Bool) (s : State) : Host.Outcome State Fault Refusal :=
  .next (s.write r (Reg.LL_PORT_CTRL n) fun s => s.portEnable n en)

/-- R388: `RETRAIN`: an ACTIVE port retrains, a DOWN port takes its OK successor. -/
def State.portRetrain (s : State) (n : Nat) : State :=
  let x := s.port n
  if !s.flag (Reg.LL_PORT_CTRL n) Fld.LL_PORT_CTRL_EN then s
  else if x.action = tActive then s.retrain n
  else if x.action = tHold ∧ s.trainIdx n ≠ 0 then s.trainOk n else s
def execPortRetrainCmd (r : RegReq) (n : Nat) (s : State) : Host.Outcome State Fault Refusal :=
  .next (s.write r (Reg.LL_PORT_CTRL n) fun s => s.portRetrain n)

/-- R385, R388: `REKEY`: both directions are due. -/
def State.portRekey (s : State) (n : Nat) : State :=
  s.setPort n { s.port n with txDue := true, rxDue := true }
def execPortRekeyCmd (r : RegReq) (n : Nat) (s : State) : Host.Outcome State Fault Refusal :=
  .next (s.write r (Reg.LL_PORT_CTRL n) fun s => s.portRekey n)

/-- R388: `TLOCK`. -/
def execTrainLock (r : RegReq) (n : Nat) (s : State) : Host.Outcome State Fault Refusal :=
  .next (s.write r (Reg.LL_PORT_CTRL n) fun s => s.setBits (Reg.LL_PORT_CTRL n) Fld.LL_PORT_CTRL_TLOCK.mask)

/-- R398: a write of the training table or its version: `which` 0 to 31 the words of entries 0 to 15, 32 the version. -/
def trainReg (n which : Nat) : Nat := if which < 32 then Reg.LL_TRAIN_0 n 0 + 4 * which else Reg.LL_TRAIN_VER n
def execTrainTableWrite (r : RegReq) (n which : Nat) (v : Word) (s : State) : Host.Outcome State Fault Refusal :=
  .next (s.write r (trainReg n which) fun s => s.regWrite (trainReg n which) v)

/-- R392: the writable entries of `LL_SLOT_w`: entry 0 and entries 65 to 71 read 0. -/
def slotMask (w : Nat) : Word := if w = 0 then 0xFFFFFFF0 else if w = 8 then 0x0000000F else 0xFFFFFFFF

/-- R392: a write of `LL_SLOT_w`. -/
def State.slotW (s : State) (n w : Nat) (v : Word) : State :=
  if allParts.all fun p => s.partState p == 0 then s.regWrite (Reg.LL_SLOT n w) (v &&& slotMask w)
  else s.irqLl n Fld.LL_INT_STATUS_CFG_REJECT
def execLlSlotWrite (r : RegReq) (n w : Nat) (v : Word) (s : State) : Host.Outcome State Fault Refusal :=
  .next (s.write r (Reg.LL_SLOT n w) fun s => if w < 9 then s.slotW n w v else s)

/-! ## Rekeying (R385, R386) -/

/-- R385: a direction's interval has passed since its last swap: 0 transmit, 1 receive. -/
def State.rekeyTimer (s : State) (n dir : Nat) : State :=
  let x := s.port n
  let ticks := s.fget (Reg.LL_REKEY_CFG n) Fld.LL_REKEY_CFG_HOURS * 360000000000
  if !s.linkSecure n ∨ s.now < (if dir = 0 then x.txSwap else x.rxSwap) + ticks then s
  else (s.setPort n (if dir = 0 then { x with txDue := true } else { x with rxDue := true })).irqLl n Fld.LL_INT_STATUS_REKEY_DUE
def execRekeyTimer (n dir : Nat) (s : State) : Host.Outcome State Fault Refusal := .next (s.rekeyTimer n dir)

/-- R380: the payload of an SPDM frame. -/
def spdmPayload (m : List Byte) : List Byte :=
  leBytes 4 m.length ++ m ++ List.replicate ((32 - (4 + m.length) % 32) % 32) 0#8

/-- R380: a message longer than 4,092 bytes goes in chunks, each in a CHUNK_SEND of DSP0274 (PRESUMED, log 46: the spec names the
chunking and leaves its messages to that standard). -/
def spdmChunks (m : List Byte) : List (List Byte) :=
  if m.length ≤ 4092 then [m]
  else
    let k := (m.length + 4031) / 4032
    (List.range k).map fun i =>
      let c := (m.drop (4032 * i)).take 4032
      leBytes 1 0x13 ++ leBytes 1 0x85 ++ leBytes 1 (b2n (i + 1 == k)) ++ leBytes 1 0 ++ leBytes 2 i ++ leBytes 2 0 ++ leBytes 4 c.length ++
        (if i = 0 then leBytes 4 m.length else []) ++ c

/-- R380: an SPDM message waits to go out in entry 0. Once the session stands it travels as a secured message, whose bytes DSP0277 gives
and the spec does not (log 46). -/
def State.sendSpdm (s : State) (n : Nat) (m : List Byte) : State :=
  let x := s.port n
  let secure (c : List Byte) : List Byte := if x.session = 0 then c else (Config.securedMessage n c).take 4092
  if m.isEmpty then s
  else s.setPort n { x with queue := x.queue ++ (spdmChunks m).map fun c => (⟨0, 5, 0, 0, spdmPayload (secure c)⟩ : TxFrame) }

/-- R387: a partition's epoch changes: its bindings end on every port, and frames for it that wait there are dropped, whose receive places
are free again (R364). -/
def State.dropBindings (s : State) (p : Nat) : State :=
  (List.range 16).foldl (fun s n =>
    let x := s.port n
    let keep (f : RxFrame) : Bool := f.part != p
    let gone := (x.inbox ++ x.held).filter fun f => !keep f
    let lost := (x.inbox.filter fun f => !keep f).length
    let free (l : List Nat) (t : Nat) : List Nat := set4 l p (get4 l p + (gone.filter fun (f : RxFrame) => f.typ == t).length)
    ((s.fput (Reg.LL_BIND n p) Fld.LL_BIND_VALID 0).setPort n { x with
      inbox := x.inbox.filter keep, held := x.held.filter keep, queue := x.queue.filter (fun (f : TxFrame) => f.part != p)
      ctlRet := free x.ctlRet 2, bulkRet := free x.bulkRet 4 }).bump
      (Reg.LL_EPOCH_DROP n) Fld.LL_EPOCH_DROP_COUNT lost) s

/-! ## Receiving -/

/-- A gap opens: a NAK leaves in the next block (R361). -/
def State.openGap (s : State) (n seq : Nat) : State :=
  s.setPort n { s.port n with gap := true, nakDue := true, gapSeq := seq }

/-- The fixed field and the counter of R383. -/
def linkIv (port : Nat) (below : Bool) (lki epoch fctr : Nat) : List Byte :=
  leBytes 4 (port + 16 * b2n below + 32 * lki + 256 * epoch) ++ leBytes 8 fctr

/-- R382, R498: the working key from sending partition `a` to `b` with the sender's epoch. -/
def linkKey (key : List Byte) (a b epoch : Nat) : List Byte :=
  Crypto.kdf key (ascii "SZT60-LINK") (leBytes 1 a ++ leBytes 1 b ++ leBytes 4 epoch) 256

/-- An accepted frame is acknowledged (R362). -/
def State.consume (s : State) (n seq : Nat) : State :=
  s.setPort n { s.port n with rxSeq := seq, gap := false, badTag := none }

/-- R363 from `TYPE` on, for a frame whose `SEQ` is the expected one. `h` is the frame header. -/
def State.takeFrame (s : State) (n seq : Nat) (b : List Byte) : State :=
  let h := sliceB b 8 32
  let typ := leAt h 0 1
  let lki := bitsOf (leAt h 1 1) 0 3
  let dend := bitsOf (leAt h 1 1) 4 3
  let len := leAt h 2 2
  let drop (a : Nat) (f : Fld) : State := (s.consume n seq).bump a f 1
  let form := decide (1 ≤ typ ∧ typ ≤ 6) && bitsOf (leAt h 1 1) 3 1 == 0 && bitsOf (leAt h 1 1) 7 1 == 0 && len % 32 == 0 &&
    decide (32 ≤ len ∧ len ≤ 4096 ∧ b.length = 64 + len) && leAt h 6 2 == 0 && leAt h 19 1 == 0 && leAt h 23 1 == 0 && leAt h 28 4 == 0 &&
    leAt h 16 3 / 1048576 == 0 && leAt h 20 3 / 1048576 == 0
  if !form then drop (Reg.LL_HDR_DROP n) Fld.LL_HDR_DROP_COUNT
  else if leAt h 16 3 ≠ s.fget (Reg.LL_PEER n) Fld.LL_PEER_NODE / 8 * 8 then drop (Reg.LL_HDR_DROP n) Fld.LL_HDR_DROP_COUNT
  else
    let payload := sliceB b 40 len
    let deliver (s : State) (v : List Byte) : State :=
      s.setPort n { s.port n with inbox := (s.port n).inbox ++ [(⟨typ, dend, lki, leAt h 20 3, leAt h 24 4, v⟩ : RxFrame)] }
    if typ = 5 then deliver (s.consume n seq) payload
    else
      let bind := Reg.LL_BIND n dend
      let x := s.port n
      let k := s.key (rxSlot n)
      let kep := leAt h 4 1
      let epochDrop := drop (Reg.LL_EPOCH_DROP n) Fld.LL_EPOCH_DROP_COUNT
      if dend < 1 ∨ 4 < dend ∨ !s.flag bind Fld.LL_BIND_VALID ∨ s.fget bind Fld.LL_BIND_PEER_END ≠ lki then epochDrop
      else if leAt h 5 1 ≠ s.fget bind Fld.LL_BIND_PEPOCH_RX then epochDrop
      else
        let cur := k.state == 1 && k.epoch % 256 == kep
        let old := match x.oldKey with | some (_, e, _) => !cur && e % 256 == kep | none => false
        if !cur && !old then epochDrop
        else
          let (key, epoch, next) := if cur then (k.key, k.epoch, x.rxNext) else x.oldKey.getD ([], 0, 0)
          let fctr := leAt h 8 8
          if fctr < next then drop (Reg.LL_OLD_DROP n) Fld.LL_OLD_DROP_COUNT
          else
            let wk := linkKey key lki dend (get4 x.peerEp dend)
            let peerNode := s.fget (Reg.LL_PEER n) Fld.LL_PEER_NODE
            let iv := linkIv (s.fget (Reg.LL_PEER n) Fld.LL_PEER_PORT) (decide (peerNode / 8 < s.node / 8)) lki epoch fctr
            if sliceB b (40 + len) 16 ≠ Crypto.gcmTag wk iv h payload then
              let s1 := (s.bump (Reg.LL_AUTH_FAIL n) Fld.LL_AUTH_FAIL_COUNT 1).irqLl n Fld.LL_INT_STATUS_AUTH_FAIL
              if x.badTag = some seq then s1.trainEnter n (s.downIdx n) 5
              else (s1.openGap n seq).setPort n { (s1.openGap n seq).port n with badTag := some seq }
            else
              let s1 := (s.consume n seq).setPort n { (s.consume n seq).port n with
                rxNext := if cur then fctr + 1 else x.rxNext
                oldKey := if cur then none else x.oldKey.map fun o => (o.1, o.2.1, fctr + 1) }
              let s2 := (s1.useKey (rxSlot n)).1.meter dend 3 len
              let s3 := if typ = 1 then s2 else s2.bump64 (Reg.LL_RX_FRAMES_LO n) 1
              deliver s3 (Crypto.gcmCrypt wk iv payload)

/-- R361 to R363: a block of kind FRAME comes in, with the symbols that FEC corrected in it. -/
def State.linkReceive (s : State) (n : Nat) (b : List Byte) (fec : Nat) : State :=
  let x := s.port n
  if !x.linked then s
  else
    let s0 := s.bump64 (Reg.LL_FEC_CORR_LO n) fec
    let h := leAt b 0 8
    if !crcOk b then
      let s1 := s0.bump (Reg.LL_CRC_ERR n) Fld.LL_CRC_ERR_COUNT 1
      if x.gap then s1 else s1.openGap n ((x.rxSeq + 1) % seqMod)
    else if bitsOf h 60 4 ≠ 1 then s0
    else
      let s1 := s0.takeHeader n h
      let seq := bitsOf h 0 24
      let want := (x.rxSeq + 1) % seqMod
      if seq = want then s1.takeFrame n seq b
      else
        let s2 := s1.bump (Reg.LL_DISCARD n) Fld.LL_DISCARD_COUNT 1
        if !seqGe seq want then s2
        else if x.gap ∧ !seqGe x.gapSeq seq then s2.setPort n { s2.port n with gapSeq := seq }
        else s2.openGap n seq
def execLinkFrameReceive (n : Nat) (b : List Byte) (fec : Nat) (s : State) : Host.Outcome State Fault Refusal :=
  .next (s.linkReceive n b fec)

/-- R358: an IDLE block comes in. -/
def State.idleBlock (s : State) (n : Nat) (b : List Byte) : State :=
  if (s.port n).linked ∧ b.length = 32 ∧ crcOk b ∧ bitsOf (leAt b 0 8) 60 4 = 2 then s.takeHeader n (leAt b 0 8) else s
def execIdleBlock (n : Nat) (b : List Byte) (s : State) : Host.Outcome State Fault Refusal := .next (s.idleBlock n b)

/-- R361: a NAK that has come in starts a replay of every unacknowledged frame, or after eight replays a retraining. -/
def State.nakReplay (s : State) (n : Nat) : State :=
  let x := s.port n
  if !x.nakIn then s
  else if x.replay.any fun (f : Sealed) => decide (8 ≤ f.replays) then (s.setPort n { x with nakIn := false }).retrain n
  else if x.replay.isEmpty then s.setPort n { x with nakIn := false }
  else ((s.setPort n { x with nakIn := false, resend := x.replay.map fun (f : Sealed) => f.seq }).bump (Reg.LL_REPLAY_EVT n)
    Fld.LL_REPLAY_EVT_COUNT 1).sepiaRec (unitPort n) 0x51 0 x.replay.length
def execNakReplay (n : Nat) (s : State) : Host.Outcome State Fault Refusal := .next (s.nakReplay n)

/-! ## Accepted frames -/

/-- The oldest accepted frame of a port, when its type is `t`. -/
def State.takeInbox (s : State) (n t : Nat) (f : State → RxFrame → State) : State :=
  match (s.port n).inbox with
  | [] => s
  | x :: rest => if x.typ = t then f (s.setPort n { s.port n with inbox := rest }) x else s

/-- R466: an aborted partition drops its scheduled and control frames. -/
def State.aborted (s : State) (p : Nat) : Bool := s.flag (Reg.CKP_STATUS p) Fld.CKP_STATUS_ABORTED
def State.abortDrop (s : State) (p : Nat) : State := s.bump (Reg.CKP_ABORT_DROP p) Fld.CKP_ABORT_DROP_COUNT 1

/-- A CTL or BULK receive place is free again: its credit goes back (R364). -/
def State.creditCtl (s : State) (n p : Nat) : State :=
  s.setPort n { s.port n with ctlRet := set4 (s.port n).ctlRet p (get4 (s.port n).ctlRet p + 1) }
def State.creditBulk (s : State) (n p : Nat) : State :=
  s.setPort n { s.port n with bulkRet := set4 (s.port n).bulkRet p (get4 (s.port n).bulkRet p + 1) }

/-- R376, R377: SCHED. -/
def State.schedFrame (s : State) (n : Nat) : State :=
  s.takeInbox n 1 fun s f =>
    if s.aborted f.part then s.abortDrop f.part
    else match (s.win f.part).rx.find? fun (x : RxWin) => x.armed && x.w.port == n && x.w.win == f.wtag with
    | some x =>
      if f.woff + f.payload.length ≤ x.w.len then
        (((s.bump64 (Reg.LL_RX_FRAMES_LO n) 1).sramWr x.w.core (x.w.addr + f.woff) f.payload).count f.part 0x0D 16 0
          f.payload.length).landRx f.part x.w.id f.woff f.payload.length
      else (s.failRx f.part x).winError f.part n x.w.lport 0 f.wtag
    | none => s.winError f.part n (s.lportOf f.part n) 0 f.wtag
def execSchedFrame (n : Nat) (s : State) : Host.Outcome State Fault Refusal := .next (s.schedFrame n)

/-- R427: CTL: the frame keeps its receive place. -/
def State.ctlFrame (s : State) (n : Nat) : State :=
  s.takeInbox n 2 fun s f =>
    if s.aborted f.part then (s.abortDrop f.part).creditCtl n f.part
    else s.setPort n { s.port n with held := (s.port n).held ++ [f] }
def execCtlFrame (n : Nat) (s : State) : Host.Outcome State Fault Refusal := .next (s.ctlFrame n)

/-- R375: ARM. -/
def State.armFrame (s : State) (n : Nat) : State :=
  s.takeInbox n 3 fun s f =>
    if s.aborted f.part then s.abortDrop f.part
    else s.setWin f.part { s.win f.part with arms := (s.win f.part).arms ++ [(⟨n, f.wtag, f.woff, (s.sq f.part).beat, s.now⟩ : Arm)] }
def execArmFrame (n : Nat) (s : State) : Host.Outcome State Fault Refusal := .next (s.armFrame n)

/-- R377: ABORT. -/
def State.abortFrame (s : State) (n : Nat) : State :=
  s.takeInbox n 6 fun s f =>
    if s.aborted f.part then s.abortDrop f.part
    else match (s.win f.part).rx.find? fun (x : RxWin) => x.armed && x.w.port == n && x.w.win == f.wtag with
    | some x => (s.failRx f.part x).winError f.part n x.w.lport 0 f.wtag
    | none => s.winError f.part n (s.lportOf f.part n) 0 f.wtag
def execAbortFrame (n : Nat) (s : State) : Host.Outcome State Fault Refusal := .next (s.abortFrame n)

/-- R380, R382: SPDM: the keeper takes the message, or another chunk of one, out of its secured form once the session stands; `binds` are
the bindings that the two keepers agree on with it. -/
def State.spdmFrame (s : State) (n : Nat) (binds : List (Nat × Nat × Nat)) : State :=
  s.takeInbox n 5 fun s f =>
    let x := s.port n
    let m := (f.payload.drop 4).take (leAt f.payload 0 4)
    let v := if x.session = 0 then m else Config.openedMessage n m
    let all := x.chunks ++ v.drop (if leAt v 4 2 = 0 then 16 else 12)
    let s1 := s.setPort n (if leAt v 1 1 ≠ 0x85 then { x with spdm := v }
      else if bitOf (leAt v 2 1) 0 then { x with spdm := all, chunks := [] } else { x with chunks := all })
    if x.session = 0 then s1 else s1.writeBinds n binds
def execSpdmFrame (x : SpdmArrival) (s : State) : Host.Outcome State Fault Refusal := .next (s.spdmFrame x.port x.binds)

/-! ## Sending -/

/-- The owner of an entry of the transmit cycle (R372, R392). -/
def State.entryOwner (s : State) (n e : Nat) : Nat :=
  if e = 0 ∨ 64 < e then 0 else bitsOf (s.rn (Reg.LL_SLOT n (e / 8))) (4 * (e % 8)) 4

/-- The frame header of R359. -/
def frameHeader (typ lki dend len kepoch pepoch fctr src wtag woff : Nat) : List Byte :=
  leBytes 1 typ ++ leBytes 1 (lki + 16 * dend) ++ leBytes 2 len ++ leBytes 1 kepoch ++ leBytes 1 pepoch ++ leBytes 2 0 ++
    leBytes 8 fctr ++ leBytes 4 src ++ leBytes 4 wtag ++ leBytes 4 woff ++ leBytes 4 0

/-- A block of kind FRAME leaves. -/
def State.putBlock (s : State) (n seq : Nat) (body : List Byte) : State :=
  let (s1, h) := s.header n seq 1
  s1.emit (.link n (withCrc (h ++ body)))

/-- A frame goes out for the first time: it enters the replay buffer (R362). -/
def State.firstSend (s : State) (n owner typ : Nat) (body : List Byte) : State :=
  let seq := ((s.port n).txSeq + 1) % seqMod
  let s1 := (s.putBlock n seq body).bump64 (Reg.LL_TX_FRAMES_LO n) 1
  (s1.setPort n { s1.port n with txSeq := seq, replay := (s1.port n).replay ++ [(⟨seq, owner, typ, body, 0⟩ : Sealed)] }).showUsed n

/-- R382 to R384: seal and send a frame of a partition with a valid binding and a usable key. -/
def State.seal (s : State) (n : Nat) (f : TxFrame) : State :=
  let bind := Reg.LL_BIND n f.part
  let m := s.fget bind Fld.LL_BIND_PEER_END
  let k := s.key (txSlot n)
  let (s1, fctr) := s.useKey (txSlot n)
  let h := frameHeader f.typ f.part m f.payload.length (k.epoch % 256) (s.fget bind Fld.LL_BIND_PEPOCH_TX) fctr (s.node / 8 * 8)
    f.wtag f.woff
  let wk := linkKey k.key f.part m (s.rn (Reg.KEY_PEPOCH f.part))
  let iv := linkIv n (decide (s.node / 8 < s.fget (Reg.LL_PEER n) Fld.LL_PEER_NODE / 8)) f.part k.epoch fctr
  let c := Crypto.gcmCrypt wk iv f.payload
  let s2 := s1.firstSend n f.part f.typ (h ++ c ++ Crypto.gcmTag wk iv h c)
  let s3 := if f.typ = 1 ∨ f.typ = 2 ∨ f.typ = 4 then s2.meter f.part 2 f.payload.length else s2
  let s4 := if fctr + 1 = 2 ^ 47 then
      (s3.setPort n { s3.port n with txDue := true }).irqLl n Fld.LL_INT_STATUS_REKEY_DUE else s3
  if fctr + 1 = 2 ^ 48 then s4.irqLl n Fld.LL_INT_STATUS_EXHAUST else s4

/-- Whether the port can seal a frame of a partition, of a type and `len` payload bytes, now. After an abort only BULK frames leave
(R466). -/
def State.canSeal (s : State) (n p typ len room : Nat) : Bool :=
  let x := s.port n
  x.up && !s.halted && (typ == 4 || !s.aborted p) && s.flag (Reg.LL_BIND n p) Fld.LL_BIND_VALID && (s.key (txSlot n)).state == 1 &&
    decide (64 + len ≤ room) && decide (x.used + (64 + len) / 32 ≤ 32768)

/-- The next new frame of a partition on a port (R374): ARM and ABORT, then SCHED, CTL and BULK with a credit, which is held for the
destination partition (R364). -/
def State.sendNew (s : State) (n p room : Nat) (bad : SramErrs) : Option (State × Nat) :=
  let x := s.port n
  let m := s.fget (Reg.LL_BIND n p) Fld.LL_BIND_PEER_END
  let pick (t : Nat → Bool) : Option TxFrame := x.queue.find? fun (f : TxFrame) => f.part == p && t f.typ
  let go (f : TxFrame) (s : State) : Option (State × Nat) :=
    if s.canSeal n p f.typ f.payload.length room then
      some ((s.setPort n { s.port n with queue := (s.port n).queue.erase f }).seal n f, 64 + f.payload.length)
    else none
  match pick fun t => t == 3 || t == 6 with
  | some f => go f s
  | none =>
    match (s.win p).sending.find? fun (w : TxWin) => w.w.port == n && decide (w.sent < w.w.len) with
    | some w =>
      let len := min 4096 (w.w.len - w.sent)
      if s.canSeal n p 1 len room then
        let (s1, v) := s.sramX p bad w.w.core (w.w.addr + w.sent) len
        let s2 := (s1.seal n ⟨p, 1, w.w.win, w.sent, v⟩).count p 0x0C 16 0 len
        let w' : TxWin := { w with sent := w.sent + len, last := some (s2.port n).txSeq }
        some (s2.setWin p { s2.win p with sending := (s2.win p).sending.map fun (y : TxWin) => if y.w.id = w.w.id then w' else y }, 64 + len)
      else none
    | none =>
      match pick (· == 2), decide (0 < get4 x.ctl m) with
      | some f, true => go f (s.setPort n { x with ctl := set4 x.ctl m (get4 x.ctl m - 1) })
      | _, _ =>
        match pick (· == 4), decide (0 < get4 x.bulk m) with
        | some f, true => go f (s.setPort n { x with bulk := set4 x.bulk m (get4 x.bulk m - 1) })
        | _, _ => none

/-- One frame of an entry with this owner and room left: a replay in progress first (R361, R374); entry 0 carries SPDM. -/
def State.sendOne (s : State) (n owner room : Nat) (bad : SramErrs) : Option (State × Nat) :=
  let x := s.port n
  if x.nakIn then none
  else match x.resend with
  | q :: rest =>
    match x.replay.find? fun (f : Sealed) => f.seq == q with
    | none => none
    | some f =>
      if f.owner ≠ owner ∨ room < f.body.length + 16 then none
      else
        let s1 := (s.putBlock n q f.body).bump (Reg.LL_REPLAY_FRM n) Fld.LL_REPLAY_FRM_COUNT 1
        some (s1.setPort n { s1.port n with
          resend := rest, replay := (s1.port n).replay.map fun (g : Sealed) => if g.seq = q then { g with replays := g.replays + 1 } else g },
          f.body.length + 16)
  | [] =>
    if owner = 0 then
      match x.queue.find? fun (f : TxFrame) => f.part == 0 with
      | none => none
      | some f =>
        if room < 64 + f.payload.length ∨ 32768 < x.used + (64 + f.payload.length) / 32 then none
        else
          let h := frameHeader 5 0 0 f.payload.length 0 0 0 (s.node / 8 * 8) 0 0
          some ((s.setPort n { x with queue := x.queue.erase f }).firstSend n 0 5 (h ++ f.payload ++ List.replicate 16 0#8),
            64 + f.payload.length)
    else s.sendNew n owner room bad

/-- Frames of one entry while room is left; a frame starts only where it ends within the entry (R372). -/
def State.sendLoop (s : State) (n owner : Nat) (bad : SramErrs) : Nat → Nat → State × Nat
  | 0, room => (s, room)
  | fuel + 1, room =>
    match s.sendOne n owner room bad with
    | none => (s, room)
    | some (s1, used) => s1.sendLoop n owner bad fuel (room - used)

/-- R371 to R374: an entry of the transmit cycle. What its frames leave of it carries IDLE blocks, of which one is shown.
`bad` names errors of core SRAM that a window's frame reads. -/
def State.frameSend (s : State) (n e : Nat) (bad : SramErrs) : State :=
  if !(s.port n).linked then s
  else
    let (s1, room) := s.sendLoop n (s.entryOwner n e) bad 43 4160
    if room < 32 then s1
    else
      let (s2, h) := s1.header n 0 2
      s2.emit (.link n (withCrc (h ++ List.replicate 16 0#8)))
def execFrameSend (n e : Nat) (bad : SramErrs) (s : State) : Host.Outcome State Fault Refusal := .next (s.frameSend n e bad)

/-! ## Key updates (R385, R386) -/

/-- The SPDM frames that wait go out, each in the next entry 0, as far as they can. -/
def State.spdmOut (s : State) (n : Nat) : State :=
  (List.range (s.port n).queue.length).foldl (fun (s : State) _ => match s.sendOne n 0 4160 {} with | some x => x.1 | none => s) s

/-- R385, R386 for a direction of the port (0 transmit, 1 receive) that is due. As keeper A of the transmit direction: KEY_UPDATE (`msg`)
goes out, the peer acknowledges it, the transmit slot swaps to `key`, and VerifyNewKey (`ver`) goes out; `ok` is whether the peer has
acknowledged and the check value agrees. For the receive direction the keeper asks its peer, in `msg`, for the KEY_UPDATE of which the
peer is keeper A. While a replay or a full buffer holds the message back, nothing happens yet. -/
def State.rekey (s : State) (n dir : Nat) (key msg ver : List Byte) (ok : Bool) : State :=
  let x := s.port n
  if !x.up || !s.linkSecure n then s
  else if dir ≠ 0 then (if x.rxDue then s.sendSpdm n msg else s)
  else if !x.txDue || x.nakIn || !x.resend.isEmpty then s
  else
    let s1 := (s.sendSpdm n msg).spdmOut n
    if (s1.port n).queue.any fun (f : TxFrame) => f.part == 0 then s
    else if !ok || !s.canLoad (txSlot n) then s1
    else
      let s2 := s1.loadLink (txSlot n) key 0 47 48
      let s3 := ((s2.setPort n { s2.port n with txDue := false, txSwap := s.now }).sendSpdm n ver).spdmOut n
      (if x.rxDue then s3 else s3.fput (Reg.LL_INT_STATUS n) Fld.LL_INT_STATUS_REKEY_DUE 0).sepiaRec (unitPort n) 0x55 0
        (2 * (s3.key (txSlot n)).epoch)
def execRekey (n : LinkDir) (key : List Byte) (msg : RekeyMsgs) (ok : Bool) (s : State) : Host.Outcome State Fault Refusal :=
  .next (s.rekey n.port n.dir key msg.update msg.verify ok)

/-- R386 as keeper B: the receive slot swaps to `key` and retains the epoch before; the acknowledgement `msg` goes out. -/
def State.keyUpdate (s : State) (n : Nat) (key msg : List Byte) (ok : Bool) : State :=
  let x := s.port n
  if !x.up || (s.key (rxSlot n)).state == 0 || !ok || !s.canLoad (rxSlot n) then s
  else
    let k := s.key (rxSlot n)
    let s1 := s.loadLink (rxSlot n) key 1 0 0
    let s2 := s1.setPort n { x with oldKey := some (k.key, k.epoch, x.rxNext), rxNext := 0, rxDue := false, rxSwap := s.now }
    let s3 := s2.sendSpdm n msg
    (if x.txDue then s3 else s3.fput (Reg.LL_INT_STATUS n) Fld.LL_INT_STATUS_REKEY_DUE 0).sepiaRec (unitPort n) 0x55 0
      (1 + 2 * (k.epoch + 1))
def execKeyUpdateReceived (n : Nat) (key msg : List Byte) (ok : Bool) (s : State) : Host.Outcome State Fault Refusal :=
  .next (s.keyUpdate n key msg ok)

end Sys2Proof.Machine
end

