-- ==== Sys2Proof/Machine/Queues.lean ====
section
/-! DEFINITION. The host queues (R598 to R603), the grant of command buffers (R606, R618), their packets (R604, R605, R615,
R616), cancel, kill and enable (R619, R620), and the writes of fences (R622, R635). -/

namespace Sys2Proof.Machine

/-! ## Doorbells and fetches -/

def State.qState (s : State) (p q : Nat) : Nat := s.fget (qStat p q) Fld.QUE_STAT_STATE
def State.qSize (s : State) (p q : Nat) : Nat := 2 ^ s.fget (qCfg p q) Fld.QUE_CFG_LOG2N

/-- `b − a` modulo 2^32. -/
def ahead32 (b a : Nat) : Nat := (b + 4294967296 - a) % 4294967296

/-- R601: a doorbell write. -/
def State.queueDb (s : State) (p q v : Nat) : State :=
  let old := s.rn (qTail p q)
  if s.qState p q ≠ 1 ∨ 2147483648 ≤ ahead32 v old ∨ s.qSize p q < ahead32 v (s.rn (qDone p q)) then
    let s1 := s.setBits (qStat p q) Fld.QUE_STAT_DB_REJECT.mask
    if p = 0 then s1 else s1.irqQue p Fld.QUE_INT_STATUS_DB_REJECT
  else s.wn (qTail p q) v
def execQueueDoorbell (r : RegReq) (p q : Nat) (v : Word) (s : State) : Host.Outcome State Fault Refusal :=
  .next (s.write r (qTail p q) fun s => s.queueDb p q v.toNat)

/-- R543, R602: a VF's requests are issued only while its TDI is in RUN. -/
def State.tdiRun (s : State) (p : Nat) : Bool :=
  p == 0 || (s.nquad p != 0 && s.fget (Reg.PRT_STATE p) Fld.PRT_STATE_TDI == 2)

/-- R600: the form of a queue entry: reserved bits, the length's and the address's alignment, the fence. -/
def State.entryOk (s : State) (p : Nat) (e : List Byte) : Bool :=
  let len := leAt e 8 4
  leAt e 0 8 % 16 == 0 && len % 16 == 0 && decide (16 ≤ len ∧ len ≤ 1048576) && leAt e 14 1 / 2 == 0 && leNat (e.drop 15) == 0 &&
    (leAt e 14 1 == 0 || (p != 0 && s.hasFence p (leAt e 12 2)))

/-- R602, R603: the next entry of a queue is fetched, and the command buffer it names. -/
def State.queueFetch (s : State) (p q : Nat) (entry cb : HostRead) : State :=
  let head := s.rn (qHead p q)
  let x := s.queue p q
  if s.halted || s.qState p q != 1 || !s.flag (qCfg p q) Fld.QUE_CFG_EN || s.rn (qTail p q) == head || decide (256 ≤ x.bufs.length) ||
      !s.tdiRun p || !(queuesOf p).contains q then s
  else if entry.status ≠ 0 then
    let s1 := (s.fput (qStat p q) Fld.QUE_STAT_STATE 2).setBits (qStat p q) Fld.QUE_STAT_FETCH_ERR.mask
    if p = 0 then s1.irq 0 6 Reg.HST_INT_STATUS Reg.HST_INT_EN (2 ^ (q + 4)) else s1.irqQue p Fld.QUE_INT_STATUS_Q_ERR
  else
    let e := sliceB entry.data 0 32
    let fv := bitOf (leAt e 14 1) 0 && s.hasFence p (leAt e 12 2)
    let b : CmdBuf := {
      seq := head, fence := if fv then some (leAt e 12 2) else none, bytes := sliceB cb.data 0 (leAt e 8 4)
      err := if x.gone.contains head then 0x20 else if !s.entryOk p e then 0x21 else if cb.status ≠ 0 then 0x22 else 0 }
    let s1 := (s.wn (qHead p q) (head + 1)).setQueue p q { bufs := x.bufs ++ [b], gone := x.gone.erase head }
    let s2 := if b.err = 0x22 then s1.setBits (qStat p q) Fld.QUE_STAT_FETCH_ERR.mask else s1
    (s2.showQueue p q).settle p
def execQueueEntryFetch (p q : Nat) (entry cb : HostRead) (s : State) : Host.Outcome State Fault Refusal :=
  .next (s.queueFetch p q entry cb)

/-! ## Grant -/

/-- The oldest command buffer of a queue that is not granted, when its predecessor's last packet has begun (R606). -/
def nextGrant : List CmdBuf → Option CmdBuf
  | [] => none
  | b :: t => if !b.granted then some b else if b.pos < b.bytes.length then none else nextGrant t

/-- The first element above `x`, or the first of all. -/
def nextAfter (l : List Nat) (x : Nat) : Option Nat :=
  match l.find? fun y => decide (x < y) with
  | some y => some y
  | none => l.head?

/-- R618: weighted round robin among contexts, then the next queue of the context. -/
def State.cbGrant (s : State) (p : Nat) : State :=
  let ctx (q : Nat) : Nat := if p = 0 then 0 else s.fget (qCfg p q) Fld.QUE_CFG_CTX
  let el := (queuesOf p).filter fun q => (nextGrant (s.queue p q).bufs).isSome
  let a := SMap.get (fun _ => {}) s.arbs p
  let ctxs := (List.range 64).filter fun c => el.any fun q => ctx q == c
  let weight := if p = 0 then 1 else s.fget (Reg.QUE_CTX p a.ctx) Fld.QUE_CTX_WEIGHT
  let c := if ctxs.contains a.ctx ∧ a.used < weight then some a.ctx else nextAfter ctxs a.ctx
  if s.halted then s
  else match c with
  | none => s
  | some c =>
    let last := ((a.last.find? fun x => x.1 == c).map (·.2)).getD 63
    match nextAfter (el.filter fun q => ctx q == c) last with
    | none => s
    | some q => match nextGrant (s.queue p q).bufs with
      | none => s
      | some b =>
        let a' : Arb := {
          ctx := c, used := if c = a.ctx ∧ a.used < weight then a.used + 1 else 1
          last := (c, q) :: a.last.filter fun x => x.1 != c }
        { s with arbs := SMap.set (fun _ => {}) s.arbs p a' }.updBuf p q b.seq fun b => { b with granted := true }
def execCbGrant (p : Nat) (s : State) : Host.Outcome State Fault Refusal := .next (s.cbGrant p)

/-! ## Packets -/

/-- The lengths of the packets of R604, in 16-byte units. -/
def pktLen (opc : Nat) : Option Nat :=
  if opc ≤ 3 ∨ opc = 0x20 ∨ opc = 0x21 then some 1 else if opc = 0x10 ∨ opc = 0x30 then some 5 else none

/-- R604, R636: whether the packet that begins at `pos` of a command buffer is well formed. -/
def State.pktOk (s : State) (p : Nat) (b : CmdBuf) : Bool :=
  let k := b.bytes.drop b.pos
  let opc := leAt k 0 1
  let zero (i n : Nat) : Bool := leAt k i n == 0
  match pktLen opc with
  | none => false
  | some n =>
    leAt k 1 1 == n && decide (16 * n ≤ k.length) && (p != 0 || opc == 0 || (opc == 0x10 && decide (leAt k 16 1 ≤ 1))) &&
      (if opc = 0 ∨ opc = 0x30 then zero 2 14
       else if opc ≤ 3 then zero 2 2 && zero 6 10 && s.hasFence p (leAt k 4 2)
       else if opc = 0x10 then zero 2 6
       else if opc = 0x20 then zero 2 2 && leAt k 4 1 / 2 == 0 && zero 5 11
       else zero 2 2 && zero 12 4)

/-- R605, R607: the next packet of a granted command buffer begins, when what it must wait for has completed. A packet that
is not well formed ends its buffer whichever row names it. -/
def State.packet (s : State) (p q seq opc : Nat) (f : State → List Byte → State) : State :=
  match (s.queue p q).bufs.find? fun b => b.seq == seq with
  | none => s
  | some b =>
    let k := b.bytes.drop b.pos
    let op := leAt k 0 1
    if s.halted || !b.granted || b.err != 0 || decide (b.bytes.length ≤ b.pos) ||
        (op != 0x10 && (b.waitOn.isSome || b.dmaOpen != 0 || b.seqOpen || b.ccOpen)) then s
    else if !s.pktOk p b then (s.updBuf p q seq fun b => b.fail 0x21).settle p
    else if op ≠ opc then s
    else f (s.updBuf p q seq fun b => { b with pos := b.pos + 16 * leAt k 1 1 }) k

def execPktNop (p q seq : Nat) (s : State) : Host.Outcome State Fault Refusal :=
  .next (s.packet p q seq 0x00 fun s _ => s.settle p)

/-- R605, R625: WAIT. -/
def State.pktWait (s : State) (p q seq n : Nat) : State :=
  let a := Reg.FEN_F p n
  if s.fget a Fld.FEN_F_ERR ≠ 0 then (s.updBuf p q seq fun b => b.fail 0x23).settle p
  else if s.flag a Fld.FEN_F_SIG then s.settle p
  else s.updBuf p q seq fun b => { b with waitOn := some n }
def execPktWait (p q seq : Nat) (s : State) : Host.Outcome State Fault Refusal :=
  .next (s.packet p q seq 0x01 fun s k => s.pktWait p q seq (leAt k 4 2))
def execPktSignal (p q seq : Nat) (s : State) : Host.Outcome State Fault Refusal :=
  .next (s.packet p q seq 0x02 fun s k => s.fenceSignal p (leAt k 4 2))
def execPktReset (p q seq : Nat) (s : State) : Host.Outcome State Fault Refusal :=
  .next (s.packet p q seq 0x03 fun s k => (s.fenceReset p (leAt k 4 2)).settle p)

/-- R614: the engine on which a queue issues, and its places that the queue may still use. -/
def State.parts (s : State) : Nat := s.fget Reg.PRT_LAYOUT Fld.PRT_LAYOUT_PARTS
def State.engineOf (s : State) (p q : Nat) : Nat :=
  if p = 0 then 4 * q else (p - 1) * (16 / s.parts) + q % (16 / s.parts)
def State.dma (s : State) (e : Nat) : List Desc := SMap.get (fun _ => []) s.dmas e
def State.setDma (s : State) (e : Nat) (l : List Desc) : State := { s with dmas := SMap.set (fun _ => []) s.dmas e l }
def State.placeFree (s : State) (p e : Nat) : Bool :=
  decide ((s.dma e).length < 64) && (p != 0 || decide (((s.dma e).filter fun d => d.owner == 0).length < 8))

/-- R614, R644, R713: whether the engine takes a further descriptor of the queue. -/
def State.dmaOpenFor (s : State) (p e : Nat) : Bool :=
  s.placeFree p e && !s.flag Reg.PWR_SAG_STAT Fld.PWR_SAG_STAT_ACTIVE && (p != 0 || !s.flag Reg.LCS_STAT Fld.LCS_STAT_BUSY)

/-- R605, R608: DMA: the descriptor takes a place of the engine. Outside RUN it ends TDI_STATE (R543). -/
def State.pktDma (s : State) (p q seq : Nat) (k : List Byte) : State :=
  let e := s.engineOf p q
  let d : Desc := ⟨p, q, seq, leAt k 8 8, sliceB k 16 64, if s.tdiRun p then none else some ⟨0x16, 0, [], []⟩⟩
  ((s.setDma e (s.dma e ++ [d])).updBuf p q seq fun b => { b with dmaOpen := b.dmaOpen + 1 }).sepiaRec (unitDma e) 0x30 p
    (q + 64 * (seq % 2 ^ 26))
def execPktDma (p q seq : Nat) (s : State) : Host.Outcome State Fault Refusal :=
  .next (if s.dmaOpenFor p (s.engineOf p q) then s.packet p q seq 0x10 fun s k => s.pktDma p q seq k else s)

/-- R615: SEQ_RUN. -/
def State.pktSeqRun (s : State) (p q seq : Nat) (cont : Bool) (errs : List ReadErr) : State :=
  let busy := (queuesOf p).any fun q => (s.queue p q).bufs.any fun b => b.seqOpen
  let ignored := if cont then s.seqState p != seqStopped else !s.stopped p
  if busy then (s.updBuf p q seq fun b => b.fail 0x25).settle p
  else if ignored then ((s.cmdReject p).updBuf p q seq fun b => b.fail 0x25).settle p
  else
    let s1 := s.updBuf p q seq fun b => { b with seqOpen := true }
    if cont then s1.seqCont p else s1.seqRun p errs
def execPktSeqRun (p q seq : Nat) (errs : List ReadErr) (s : State) : Host.Outcome State Fault Refusal :=
  .next (s.packet p q seq 0x20 fun s k => s.pktSeqRun p q seq (bitOf (leAt k 4 1) 0) errs)

/-- R233, R249: a write of a ring's control register. RESET applies before end-of-data, and where it may not take effect the write is
dropped whole. -/
def State.ringCtrlW (s : State) (p i v : Nat) : State :=
  let s1 := if bitOf v 1 then s.ringReset p i else s
  if bitOf v 0 ∧ !(bitOf v 1 && !s.stopped p) then s1.ringEod p i else s1

/-- R616: REG_WRITE. -/
def State.pktRegWrite (s : State) (p q seq off v : Nat) : State :=
  let i := (off - 0x280000) / 32
  let mine := decide (0x280000 ≤ off ∧ i < 16 * s.ncores p)
  if mine ∧ off % 32 = 0x0C then (s.ringProdW p i v).settle p
  else if mine ∧ off % 32 = 0x14 then (s.ringCtrlW p i v).settle p
  else (s.updBuf p q seq fun b => b.fail 0x21).settle p
def execPktRegWrite (p q seq : Nat) (s : State) : Host.Outcome State Fault Refusal :=
  .next (s.packet p q seq 0x21 fun s k => s.pktRegWrite p q seq (leAt k 4 4) (leAt k 8 4))

/-! ## Cancel, kill, enable -/

/-- R619: a write of `QUE_CANCEL` with `GO`. -/
def State.queueCancel (s : State) (p q : Nat) : State :=
  let seq := s.rn (Reg.QUE_CANCEL_SEQ p)
  let x := s.queue p q
  let waits := decide (ahead32 seq (s.rn (qHead p q)) < ahead32 (s.rn (qTail p q)) (s.rn (qHead p q))) && !x.gone.contains seq
  let (res, s1) := match x.bufs.find? fun b => b.seq == seq with
    | some b => if b.granted then (1, s) else (0, (s.updBuf p q seq fun b => b.fail 0x20).settle p)
    | none => if waits then (0, s.setQueue p q { x with gone := x.gone ++ [seq] }) else (2, s)
  ((s1.fput (Reg.QUE_CANCEL p) Fld.QUE_CANCEL_QUEUE q).fput (Reg.QUE_CANCEL_STAT p) Fld.QUE_CANCEL_STAT_RESULT res).irqQue p
    Fld.QUE_INT_STATUS_CANCEL_DONE
def execQueueCancel (r : RegReq) (p q : Nat) (s : State) : Host.Outcome State Fault Refusal :=
  .next (s.write r (Reg.QUE_CANCEL p) fun s => s.queueCancel p q)

/-- R620: a write of `QUE_CTX_n.KILL`. -/
def State.contextKill (s : State) (p n : Nat) : State :=
  let mine := (queuesOf p).filter fun q => s.fget (qCfg p q) Fld.QUE_CFG_CTX == n && s.qState p q != 0
  let s1 := mine.foldl (fun s q =>
    ((s.fput (qCfg p q) Fld.QUE_CFG_EN 0).fput (qStat p q) Fld.QUE_STAT_STATE 0).setQueue p q { s.queue p q with
      bufs := (s.queue p q).bufs.map fun b => if b.granted then b else b.fail 0x2A }) s
  s1.settle p
def execContextKill (r : RegReq) (p n : Nat) (s : State) : Host.Outcome State Fault Refusal :=
  .next (s.write r (Reg.QUE_CTX p n) fun s => s.contextKill p n)

/-- R620, R633: a write of a queue's `CFG`. -/
def State.queueCfgW (s : State) (p q : Nat) (v : Word) : State :=
  let a := qCfg p q
  let idle := s.qState p q == 0 && (s.queue p q).bufs.isEmpty
  let s1 := if idle then s.regWrite a v else s
  if Fld.QUE_CFG_EN.get v = 1 then
    if idle then
      (((((s1.fput a Fld.QUE_CFG_EN 1).wn (qHead p q) 0).wn (qTail p q) 0).fput (qStat p q) Fld.QUE_STAT_STATE 1).setQueue p q {}).showQueue p q
    else s1
  else (s1.fput a Fld.QUE_CFG_EN 0).showQueue p q
def execQueueEnable (r : RegReq) (p q : Nat) (v : Word) (s : State) : Host.Outcome State Fault Refusal :=
  .next (s.write r (qCfg p q) fun s => s.queueCfgW p q v)

/-- R620: a write of half a queue's base is taken only while the queue is DISABLED and idle. -/
def State.queueBaseW (s : State) (p q half : Nat) (v : Word) : State :=
  if s.qState p q = 0 ∧ (s.queue p q).bufs.isEmpty then s.regWrite (qbase p q + 4 * half) v else s

/-! ## Fences -/

/-- R635: a host write of a fence: RESET, then SIG. -/
def State.fenceW (s : State) (p n v : Nat) : State :=
  if !s.hasFence p n then s
  else
    let s1 := s.fput (Reg.FEN_F p n) Fld.FEN_F_NOTIFY (bitsOf v 2 1)
    let s2 := if bitOf v 1 then s1.fenceReset p n else s1
    if bitOf v 0 then s2.fenceSignal p n else s2
def execFenceWrite (r : RegReq) (p n : Nat) (v : Word) (s : State) : Host.Outcome State Fault Refusal :=
  .next (s.write r (Reg.FEN_F p n) fun s => s.fenceW p n v.toNat)

end Sys2Proof.Machine
end

