-- ==== Sys2Proof/Machine/Collect.lean ====
section
/-! DEFINITION. The collective unit: its configuration (R438 to R445), dynamic buffers (R409, R426) and the control-class
collectives (R422 to R428). -/

namespace Sys2Proof.Machine

/-! ## Configuration writes -/

def State.colReject (s : State) (p : Nat) : State := s.setBits (Reg.COL_STATUS p) Fld.COL_STATUS_WR_REJECT.mask

def isPow2 (n : Nat) : Bool := n == 2 ^ Nat.log2 n

/-- R413, R438: the rules of `COL_STAGE_CFG`. -/
def State.stageOk (s : State) (p : Nat) : Bool :=
  let a := Reg.COL_STAGE_CFG p
  let rn := s.fget a Fld.COL_STAGE_CFG_RACK_N
  let hn := s.fget a Fld.COL_STAGE_CFG_HALL_N
  let ra := s.fget a Fld.COL_STAGE_CFG_RACK_ALG
  let ha := s.fget a Fld.COL_STAGE_CFG_HALL_ALG
  (ra == 0) == (rn == 1) && (ha == 0) == (hn == 1) && (ra != 2 || (isPow2 rn && hn == 1)) && (ha != 2 || isPow2 hn)

/-- R439: positions lie below the sizes. -/
def State.posOk (s : State) (p : Nat) : Bool :=
  let a := Reg.COL_STAGE_CFG p
  let b := Reg.COL_POS p
  decide (s.fget b Fld.COL_POS_TRAY_POS < s.fget a Fld.COL_STAGE_CFG_TRAY_N) &&
    decide (s.fget b Fld.COL_POS_RACK_POS < s.fget a Fld.COL_STAGE_CFG_RACK_N) &&
    decide (s.fget b Fld.COL_POS_HALL_POS < s.fget a Fld.COL_STAGE_CFG_HALL_N)

/-- R440: the buffer region starts at a buffer's unit and ends within the core. -/
def State.rbBaseOk (s : State) (p : Nat) : Bool :=
  let u := s.fget (Reg.COL_RB_BASE p) Fld.COL_RB_BASE_UNIT
  u % 2048 == 0 && decide (u + 512 / s.ncores p * 2048 ≤ 262144)

/-- R445: no two rotation regions overlap, each rotation lies below its count, and each region within the unit addresses. -/
def State.rotOk (s : State) (p : Nat) : Bool :=
  let b (n : Nat) : Nat := s.fget (Reg.COL_ROT_0 p n) Fld.COL_ROT_0_BASE
  let k (n : Nat) : Nat := s.fget (Reg.COL_ROT_2 p n) Fld.COL_ROT_2_N
  let size (n : Nat) : Nat := s.fget (Reg.COL_ROT_1 p n) Fld.COL_ROT_1_LEN * k n
  (List.range 4).all fun n =>
    decide (s.fget (Reg.COL_ROT_2 p n) Fld.COL_ROT_2_ROT < k n) && decide (b n + size n ≤ 1048576) &&
      (List.range 4).all fun m => m == n || size n == 0 || size m == 0 || decide (b n + size n ≤ b m ∨ b m + size m ≤ b n)

/-- The configuration registers of the block, by offset. -/
def colConfig (off : Nat) : Bool :=
  decide (off < 0x20) || off == 0x40 || decide (0x80 ≤ off ∧ off < 0xC0)

/-- A write of a configuration register: only in a stopped state, and dropped whole when it breaks a rule of its table. Where
no register lies it does nothing (R18). -/
def State.colConfigW (s : State) (p off : Nat) (v : Word) : State :=
  if !writableAt (vf p + 0x600000 + off) then s
  else if !s.stopped p then s.colReject p
  else
    let s1 := s.regWrite (vf p + 0x600000 + off) v
    let ok := if off = 0 then s1.stageOk p else if off = 4 then s1.posOk p else if off = 8 then s1.rbBaseOk p
      else if 0x80 ≤ off then s1.rotOk p else true
    if ok then s1 else s.colReject p
def execColConfigWrite (r : RegReq) (p off : Nat) (v : Word) (s : State) : Host.Outcome State Fault Refusal :=
  .next (s.write r (vf p + 0x600000 + off) fun s => if colConfig off ∧ off % 4 = 0 then s.colConfigW p off v else s)

/-! ## Launch -/

def ccOp (d : List Byte) : Nat := leAt d 0 1
def ccId (d : List Byte) : Nat := leAt d 2 2
def ccLen (d : List Byte) : Nat := leAt d 4 2
def ccSig (d : List Byte) : Nat := leAt d 26 2

/-- A core SRAM place (R289): partition core and byte address, when it lies in the partition. -/
def State.sramPlace (s : State) (p n len : Nat) : Option (Nat × Nat) :=
  let core := bitsOf n 18 7
  let a := 32 * bitsOf n 0 18
  if n / 2 ^ 25 = 0 ∧ core < s.ncores p ∧ a + len ≤ 8388608 then some (core, a) else none

/-- R422, R428: a descriptor's form. -/
def State.ccForm (s : State) (p : Nat) (d : List Byte) : Bool :=
  let len := ccLen d
  decide (ccOp d < 4) && leAt d 1 1 / 8 == 0 && leAt d 6 2 == 0 && leAt d 28 1 / 2 == 0 && leNat (d.drop 29) == 0 && len % 32 == 0 &&
    decide (32 ≤ len ∧ len ≤ 4064) && (ccOp d != 3 || len == 32) &&
    (s.sramPlace p (leAt d 8 8) len).isSome && (s.sramPlace p (leAt d 16 8) len).isSome

/-- R409, R425: the dynamic buffer of a launch is wiped and released. -/
def State.ccRelease (s : State) (p ch : Nat) (l : Launch) : State :=
  let a := Reg.COL_DYN_STAT p
  let s1 := s.setCc p ch none
  if l.granted then s1.fput a Fld.COL_DYN_STAT_FREE (s1.fget a Fld.COL_DYN_STAT_FREE + 1) else s1

/-- R428, R444, R617: a launch ends with an error. -/
def State.ccError (s : State) (p ch code : Nat) (l : Launch) : State :=
  let a := Reg.COL_CC_ERR p
  let s1 := if s.fget a Fld.COL_CC_ERR_CODE = 0 then
      s.wr a (Fld.COL_CC_ERR_CCID.put (Fld.COL_CC_ERR_CH.put (Fld.COL_CC_ERR_CODE.put 0 code) ch) (ccId l.desc)) else s
  let s2 := ((s1.ccRelease p ch l).irqCol p Fld.COL_INT_STATUS_CC_ERR).fenceError p (ccSig l.desc) 0x29
  (s2.updBuf p l.queue l.buf fun b => b.fail 0x29).settle p

/-- R427, R617: CC_LAUNCH. A channel whose launch has not ended takes no other: the packet waits. -/
def State.pktCc (s : State) (p q seq : Nat) (d : List Byte) : State :=
  let ch := leAt d 1 1 % 8
  let s1 := s.updBuf p q seq fun b => { b with ccOpen := true }
  let key := 65536 * p + ccId d
  let n := SMap.get (fun _ => 0) s1.launches key
  let l : Launch := ⟨q, seq, d, n, false, 0, s.now, [], 0, 0, []⟩
  if s.ccForm p d then { s1 with launches := SMap.set (fun _ => 0) s1.launches key (n + 1) }.setCc p ch (some l)
  else s1.ccError p ch 4 l
def State.pktCcLaunch (s : State) (p q seq : Nat) : State :=
  match (s.queue p q).bufs.find? fun b => b.seq == seq with
  | none => s
  | some b =>
    if leAt b.bytes b.pos 1 = 0x30 ∧ (s.cc p (leAt b.bytes (b.pos + 17) 1 % 8)).isSome then s
    else s.packet p q seq 0x30 fun s k => s.pktCc p q seq (sliceB k 16 64)
def execPktCcLaunch (p q seq : Nat) (s : State) : Host.Outcome State Fault Refusal := .next (s.pktCcLaunch p q seq)

/-- R426: a channel's request in one cycle: a free buffer, unless channels below it take the last ones, or NONE. -/
def State.ccGrant (s : State) (p ch : Nat) : State :=
  match s.cc p ch with
  | none => s
  | some l =>
    let a := Reg.COL_DYN_STAT p
    let free := s.fget a Fld.COL_DYN_STAT_FREE
    let below := ((List.range ch).filter fun c => match s.cc p c with | some m => !m.granted | none => false).length
    if l.granted then s
    else if free ≤ below then s.bump (Reg.COL_DYN_NONE p) Fld.COL_DYN_NONE_COUNT 1
    else (s.fput a Fld.COL_DYN_STAT_FREE (free - 1)).setCc p ch (some { l with granted := true, step := 1, began := s.now })
def execCcBufferGrant (p ch : Nat) (s : State) : Host.Outcome State Fault Refusal := .next (s.ccGrant p ch)

/-! ## Element operations (R423) -/

/-- R423 on norm records (R323). -/
def foldNorm (a b : List Byte) : List Byte :=
  let step := if sliceB a 8 6 = sliceB b 8 6 then sliceB a 8 6 else List.replicate 6 0xFF#8
  leBytes 4 (add32 (leAt a 0 4) (leAt b 0 4)) ++ leBytes 1 (leAt a 4 1 ||| leAt b 4 1) ++ leBytes 3 0 ++ step ++ leBytes 18 0

def foldData (op : Nat) (a b : List Byte) : List Byte :=
  if op = 3 then foldNorm a b
  else
    let f (x y : Nat) : Nat := if op = 0 then add32 x y else if op = 1 then max32 x y else x ||| y
    (List.range (a.length / 4)).flatMap fun i => leBytes 4 (f (leAt a (4 * i) 4) (leAt b (4 * i) 4))

/-! ## Stages (R403, R417, R424) -/

/-- Size, own position and algorithm (0 the tray's exchange, 1 RING, 2 TREE) of a stage, and its first logical port. -/
def State.stage (s : State) (p st : Nat) : Nat × Nat × Nat × Nat :=
  let a := Reg.COL_STAGE_CFG p
  let b := Reg.COL_POS p
  if st = 0 then (s.fget a Fld.COL_STAGE_CFG_TRAY_N, s.fget b Fld.COL_POS_TRAY_POS, 0, 0)
  else if st = 1 then (s.fget a Fld.COL_STAGE_CFG_RACK_N, s.fget b Fld.COL_POS_RACK_POS, s.fget a Fld.COL_STAGE_CFG_RACK_ALG, 8)
  else (s.fget a Fld.COL_STAGE_CFG_HALL_N, s.fget b Fld.COL_POS_HALL_POS, s.fget a Fld.COL_STAGE_CFG_HALL_ALG, 12)

/-- The first stage from `st` on whose group has more than one member; 3 when none has (R412). -/
def State.nextStage (s : State) (p st : Nat) : Nat :=
  ((List.range 3).find? fun k => decide (st ≤ k ∧ 1 < (s.stage p k).1)).getD 3

/-- The exponent of the lowest set bit of a number. -/
def lowExp (t : Nat) : Nat := ((List.range 12).find? fun k => bitOf t k).getD 0

/-- R417, tree A: whether a member of coordinate `t` is a leaf, and whether it has an upper child. -/
def treeLeaf (t : Nat) : Bool := t % 2 == 1
def treeUpper (t n : Nat) : Bool := decide (t + 2 ^ (lowExp t - 1) ≤ n)

/-- The logical ports on which a launch's stage receives in its present phase. -/
def stageIn (n pos alg base phase : Nat) : List Nat :=
  if alg = 0 then List.range n
  else if alg = 1 then [base + 2]
  else
    let t := pos + 1
    if treeLeaf t then [base + 3]
    else if phase = 0 then (if treeUpper t n then [base + 1, base + 2] else [base + 1]) else [base]

/-- Every logical port that a stage uses. -/
def stagePorts (n pos alg base : Nat) : List Nat :=
  if alg = 0 then List.range n
  else if alg = 1 then [base, base + 2]
  else
    let t := pos + 1
    if treeLeaf t then [base + 3]
    else (if treeUpper t n then [base + 1, base + 2] else [base + 1]) ++ (if t = n then [] else [base])

/-- R428, PORT: a logical port the stage needs maps to NULL, or its physical port is DOWN (a HOLD state other than index 0). -/
def State.ccPortBad (s : State) (p lport : Nat) : Bool :=
  let t := s.portMap p lport
  t == 17 || (decide (t < 16) && (s.port t).action == tHold && s.trainIdx t != 0)

/-- Send a launch's data on a logical port (R427); through LOOP it comes back to the launch. -/
def State.ccSend (s : State) (p ch phase lport : Nat) (v : List Byte) : State :=
  match s.cc p ch with
  | none => s
  | some l =>
    let t := s.portMap p lport
    if t < 16 then
      let h := leBytes 2 (ccId l.desc) ++ leBytes 1 l.stage ++ leBytes 1 phase ++ leBytes 1 (ccOp l.desc) ++ leBytes 1 0 ++
        leBytes 2 (ccLen l.desc) ++ leBytes 8 l.launch ++ leBytes 16 0
      s.setPort t { s.port t with queue := (s.port t).queue ++ [(⟨p, 2, 0, 0, h ++ v⟩ : TxFrame)] }
    else if t = 16 then s.setCc p ch (some { l with back := l.back ++ [(l.stage, phase, lport, v)] })
    else s

/-- A stage begins: its first traffic goes out (R424). Step 5 of R425 holds every stage, so its clock starts at the first. -/
def State.ccEnter (s : State) (p ch st : Nat) : State :=
  match s.cc p ch with
  | none => s
  | some l =>
    if st = 3 then s.setCc p ch (some { l with step := 3, began := s.now })
    else
      let (n, pos, alg, base) := s.stage p st
      if (stagePorts n pos alg base).any (s.ccPortBad p) then s.ccError p ch 3 l
      else
        let first := alg = 1 ∧ pos = 0 ∨ alg = 2 ∧ treeLeaf (pos + 1)
        let t0 := if l.step = 2 then l.began else s.now
        let s1 := s.setCc p ch (some { l with step := 2, began := t0, stage := st, phase := if first then 1 else 0, back := [] })
        if alg = 0 then (List.range n).foldl (fun s k => s.ccSend p ch 0 k l.data) s1
        else if alg = 1 ∧ pos = 0 then s1.ccSend p ch 0 base l.data
        else if alg = 2 ∧ treeLeaf (pos + 1) then s1.ccSend p ch 0 (base + 3) l.data
        else s1

/-- R425, steps 3 and 4: once the fence to wait on has signalled, the source is read and the first stage begins. `bad` names
errors of core SRAM. -/
def State.ccStart (s : State) (p ch op : Nat) (bad : SramErrs) : State :=
  match s.cc p ch with
  | none => s
  | some l =>
    let f := Reg.FEN_F p (leAt l.desc 24 2)
    let held := bitOf (leAt l.desc 28 1) 0 &&
      !(s.hasFence p (leAt l.desc 24 2) && s.flag f Fld.FEN_F_SIG && s.fget f Fld.FEN_F_ERR == 0)
    if l.step ≠ 1 ∨ ccOp l.desc ≠ op ∨ held ∨ s.halted then s
    else match s.sramPlace p (leAt l.desc 8 8) (ccLen l.desc) with
    | none => s
    | some (core, a) =>
      let (s1, v) := s.sramX p bad (s.pcore p core) a (ccLen l.desc)
      (s1.setCc p ch (some { l with data := v })).ccEnter p ch (s1.nextStage p 0)
def execCcSumF32 (p ch : Nat) (bad : SramErrs) (s : State) : Host.Outcome State Fault Refusal := .next (s.ccStart p ch 0 bad)
def execCcMaxF32 (p ch : Nat) (bad : SramErrs) (s : State) : Host.Outcome State Fault Refusal := .next (s.ccStart p ch 1 bad)
def execCcOrU32 (p ch : Nat) (bad : SramErrs) (s : State) : Host.Outcome State Fault Refusal := .next (s.ccStart p ch 2 bad)
def execCcNormrec (p ch : Nat) (bad : SramErrs) (s : State) : Host.Outcome State Fault Refusal := .next (s.ccStart p ch 3 bad)

/-- A frame of a stage's traffic on a logical port, once arrived: its `OP`, `LEN` and data. -/
def ccMatch (p : Nat) (l : Launch) (f : RxFrame) : Bool :=
  f.part == p && leAt f.payload 0 2 == ccId l.desc && leAt f.payload 8 8 == l.launch && leAt f.payload 2 1 == l.stage &&
    leAt f.payload 3 1 == l.phase
def State.ccArrived (s : State) (p : Nat) (l : Launch) (lport : Nat) : Option (Nat × Nat × List Byte) :=
  let t := s.portMap p lport
  if t < 16 then
    ((s.port t).held.find? fun f => ccMatch p l f).map fun f =>
      (leAt f.payload 4 1, leAt f.payload 6 2, sliceB f.payload 32 (ccLen l.desc))
  else (l.back.find? fun b => b.1 == l.stage && b.2.1 == l.phase && b.2.2.1 == lport).map fun b =>
    (ccOp l.desc, ccLen l.desc, b.2.2.2)

/-- The launch takes the frame on a logical port: its receive place and its credit are free (R427). -/
def State.ccTake (s : State) (p : Nat) (l : Launch) (lport : Nat) : State :=
  let t := s.portMap p lport
  if t < 16 then
    match (s.port t).held.find? fun f => ccMatch p l f with
    | some f => (s.setPort t { s.port t with held := (s.port t).held.erase f }).creditCtl t p
    | none => s
  else s

/-- The launch goes on with new data: to another phase, or to the next stage. -/
def State.ccPhase (s : State) (p ch phase : Nat) (v : List Byte) : State :=
  match s.cc p ch with
  | none => s
  | some l => s.setCc p ch (some { l with data := v, phase := phase })
def State.ccLeave (s : State) (p ch : Nat) (v : List Byte) : State :=
  match s.cc p ch with
  | none => s
  | some l => (s.setCc p ch (some { l with data := v, back := [] })).ccEnter p ch (s.nextStage p (l.stage + 1))

/-- What a member does with the contributions `vs` of its present phase, in the order of `stageIn` (R424). -/
def State.ccFold (s : State) (p ch : Nat) (l : Launch) (vs : List (List Byte)) : State :=
  let op := ccOp l.desc
  let (n, pos, alg, base) := s.stage p l.stage
  let v0 := vs.headD []
  if alg = 0 then s.ccLeave p ch ((vs.drop 1).foldl (foldData op) v0)
  else if alg = 1 then
    if l.phase = 0 then
      let v := foldData op v0 l.data
      if pos + 1 = n then (s.ccSend p ch 1 base v).ccLeave p ch v
      else (s.ccSend p ch 0 base v).ccPhase p ch 1 v
    else (if pos + 2 = n then s else s.ccSend p ch 1 base v0).ccLeave p ch v0
  else
    let t := pos + 1
    let down (s : State) (v : List Byte) : State :=
      let s1 := s.ccSend p ch 1 (base + 1) v
      if treeUpper t n then s1.ccSend p ch 1 (base + 2) v else s1
    if treeLeaf t then s.ccLeave p ch v0
    else if l.phase = 0 then
      let v := foldData op v0 l.data
      let v := match vs.drop 1 with
        | hi :: _ => foldData op v hi
        | [] => if op = 0 then foldData 0 v (List.replicate v.length 0#8) else v
      if t = n then (down s v).ccLeave p ch v else (s.ccSend p ch 0 base v).ccPhase p ch 1 v
    else (down s v0).ccLeave p ch v0

/-- R424, R425 step 5, R428: a contribution of the present phase that has arrived ends the launch where its `OP` or `LEN` is
not the launch's; once every one has arrived, they are folded. -/
def State.ccStage (s : State) (p ch : Nat) : State :=
  match s.cc p ch with
  | none => s
  | some l =>
    let (n, pos, alg, base) := s.stage p l.stage
    let ports := stageIn n pos alg base l.phase
    if l.step ≠ 2 ∨ s.halted then s
    else if (stagePorts n pos alg base).any (s.ccPortBad p) then s.ccError p ch 3 l
    else
      let got := ports.filterMap (s.ccArrived p l)
      let taken := ports.foldl (fun s k => s.ccTake p l k) s
      if got.any fun g => g.1 != ccOp l.desc || g.2.1 != ccLen l.desc then taken.ccError p ch 2 l
      else if got.length < ports.length then s else taken.ccFold p ch l (got.map (·.2.2))
def execCcStage (p ch : Nat) (s : State) : Host.Outcome State Fault Refusal := .next (s.ccStage p ch)

/-- R425, step 6. -/
def State.ccComplete (s : State) (p ch : Nat) : State :=
  match s.cc p ch with
  | none => s
  | some l =>
    if l.step ≠ 3 ∨ s.halted then s
    else match s.sramPlace p (leAt l.desc 16 8) (ccLen l.desc) with
    | none => s
    | some (core, a) =>
      let s1 := ((s.sramWr (s.pcore p core) a l.data).ccRelease p ch l).fenceSignal p (ccSig l.desc)
      (s1.updBuf p l.queue l.buf fun b => { b with ccOpen := false }).settle p
def execCcComplete (p ch : Nat) (s : State) : Host.Outcome State Fault Refusal := .next (s.ccComplete p ch)

/-- R428: a step from 3 onward has lasted beyond `COL_CC_TMO`. -/
def State.ccTimeout (s : State) (p ch : Nat) : State :=
  match s.cc p ch with
  | none => s
  | some l =>
    if l.step = 0 ∨ s.now ≤ l.began + 100 * s.fget (Reg.COL_CC_TMO p) Fld.COL_CC_TMO_US then s else s.ccError p ch 1 l
def execCcTimeout (p ch : Nat) (s : State) : Host.Outcome State Fault Refusal := .next (s.ccTimeout p ch)

end Sys2Proof.Machine
end

