-- ==== Sys2Proof/Machine/Fuses.lean ====
section
/-! DEFINITION. The life-cycle fuses: decoding, the transitions of R711, and what an interrupted one leaves (R708 to R718). States: 0 BLANK, 1 TEST, 2 PROD,
3 EOL, 4 INVALID. -/

namespace Sys2Proof.Machine

/-- R708. -/
def lcsCode (st : Nat) : Nat :=
  match st with
  | 0 => 0
  | 1 => 0x0F0000F0
  | 2 => 0x0FF00FF0
  | _ => 0xFFFFFFFF
def lcsState (code : Nat) : Nat := ([0, 1, 2, 3].find? fun st => lcsCode st == code).getD 4

/-- The set bits of a word, in ascending order. -/
def bitsUp (w : Nat) : List Nat := (List.range 32).filter fun i => bitOf w i

/-- R711: the codeword bits of a permitted transition, in order. -/
def lcsBits (src dst : Nat) : Option (List Nat) :=
  match src, dst with
  | 0, 1 => some (bitsUp 0x0F0000F0)
  | 1, 2 => some (bitsUp 0x00F00F00)
  | 1, 3 => some (bitsUp 0xF00FF00F ++ bitsUp 0x00F00F00)
  | 2, 3 => some (bitsUp 0xF00FF00F)
  | _, _ => none

/-- R716: the completion target of a pattern. -/
def lcsTarget (x : Nat) : Nat :=
  if lcsState x ≠ 4 then 0
  else
    let src := ([3, 2, 1, 0].find? fun st => lcsCode st &&& x == lcsCode st).getD 0
    let dst := ([0, 1, 2, 3].find? fun st => lcsCode st &&& x == x).getD 3
    if (lcsBits src dst).isSome then dst else 3

/-- R717: the bits that a completion programs: those of its target that are clear, in the order of R711. -/
def completionBits (x dst : Nat) : List Nat :=
  let order := match dst with
    | 1 => bitsUp 0x0F0000F0
    | 2 => bitsUp 0x00F00F00 ++ bitsUp 0x0F0000F0
    | _ => bitsUp 0xF00FF00F ++ bitsUp 0x00F00F00 ++ bitsUp 0x0F0000F0
  order.filter fun i => !bitOf x i

/-- R723: tokens used. -/
def tokensUsed (raw : Nat) : Nat := ((List.range 17).find? fun n => 2 ^ n - 1 == raw).getD 16

/-- R726: the registers that show the fuses, as a reset loads them (R14). -/
def State.showFuses (s : State) : State :=
  let a := Reg.LCS_STAT
  let s1 := (s.wn Reg.LCS_CODE s.fuses.code).fput Reg.LCS_TOKEN Fld.LCS_TOKEN_RAW s.fuses.tokens
  ((s1.fput a Fld.LCS_STAT_STATE (lcsState s.fuses.code)).fput a Fld.LCS_STAT_TARGET (lcsTarget s.fuses.code)).fput a
    Fld.LCS_STAT_TOKENS (tokensUsed s.fuses.tokens)

def setCodeBits (code : Nat) (l : List Nat) : Nat := l.foldl (fun c i => c ||| 2 ^ i) code

/-- R711, R714: the root step, whole. -/
def State.rootStep (s : State) (root : Nat) : State :=
  match root with
  | 1 => { s.fput Reg.KEY_ROOT_STAT Fld.KEY_ROOT_STAT_ROOT_OK 0 with fuses := { s.fuses with unique := 3 } }
  | 2 => { s.fput Reg.KEY_ROOT_STAT Fld.KEY_ROOT_STAT_ROOT_OK 1 with fuses := { s.fuses with unique := 1 } }
  | _ => s

/-- Programming has got this far: 0 nothing, 1 part 1 of the root step, 2 within the unique-secret array, 3 + *j* the first *j* codeword
bits; without a root step, *j* alone. -/
def State.fuseTo (s : State) (o : FuseOp) (k : Nat) : State :=
  let bitsDone (s : State) (j : Nat) : State := { s with fuses := { s.fuses with code := setCodeBits s.fuses.code (o.bits.take j) } }
  if o.root = 0 then bitsDone s k
  else if k = 0 then s
  else if k < 3 then
    let s1 := s.fput Reg.KEY_ROOT_STAT Fld.KEY_ROOT_STAT_ROOT_OK (o.root - 1)
    if k = 1 then s1 else { s1 with fuses := { s1.fuses with unique := 2 } }
  else bitsDone (s.rootStep o.root) (k - 3)

/-- R715: a reset, a halt or a loss of power stops programming. How far it has come is a free value: the spec gives bounds of time and no
moment. -/
def State.fuseCut (s : State) : State :=
  match s.fuses.op with
  | none => s
  | some o =>
    let n := o.bits.length + (if o.root = 0 then 1 else 4)
    ({ s with fuses := { s.fuses with op := none } }.fuseTo o (Config.openValue 25 [s.now, n] % n)).fput Reg.LCS_STAT Fld.LCS_STAT_BUSY 0

end Sys2Proof.Machine
end

