-- ==== Sys2Proof/Machine/Keys.lean ====
section
/-! DEFINITION. What the keeper does with key slots whoever asks for it: limits (R502), loads (R488, R489, R494),
snapshot keys (R448, R519) and the emptying of slots (R491). -/

namespace Sys2Proof.Machine

/-- R502: default `SOFT` and `HARD` of a slot loaded with an attribute. -/
def limitsOf (slot attr : Nat) : Nat × Nat :=
  if slot < 0x80 then (0, 0)
  else if slot < 0xB0 then (if slot % 2 = 0 then (47, 48) else (0, 0))
  else if slot < 0xB2 then (0, 0)
  else if attr = 0 then (31, 32) else if attr = 3 then (0, 32) else (0, 0)

/-- The mask of one partition in `OWNER` (R483), 0 for the device. -/
def ownerMask (p : Nat) : Nat := if p = 0 then 0 else 2 ^ (p - 1)

/-- The partitions that an `OWNER` names. -/
def ownersOf (mask : Nat) : List Nat := allParts.filter fun p => bitOf mask (p - 1)

/-- R493. -/
def kcvOf (key : List Byte) : List Byte := (Crypto.hmac384 key (ascii "SZT60-KCV")).take 8

/-- R494 step 4: a key enters a slot: `EPOCH` + 1, `CTR` 0, limits as given or the defaults of R502, `PEP` from the current
epochs. -/
def State.loadSlot (s : State) (n : Nat) (key : List Byte) (attr owner soft hard : Nat) (model : Bool) (suffix : List Byte) :
    State :=
  let d := limitsOf n attr
  let k : KeySlot := {
    key := key, attr := attr, state := 1, owner := owner
    pep := allParts.map fun p => if bitOf owner (p - 1) then s.rn (Reg.KEY_PEPOCH p) else 0
    epoch := (s.key n).epoch + 1
    soft := if soft % 64 = 0 then d.1 else soft
    hard := if hard % 64 = 0 then d.2 else hard
    kcv := kcvOf key, model := model, suffix := suffix }
  s.setKey n k

/-- R488: both slots of a pair load together. -/
def State.loadPair (s : State) (kid : Nat) (key : List Byte) (owner soft hard : Nat) : State :=
  (s.loadSlot (2 * kid) key 0 owner soft hard false []).loadSlot (2 * kid + 1) key 1 owner soft hard false []

/-- A slot returns to EMPTY, keeping `EPOCH` (R489). -/
def State.emptySlot (s : State) (n : Nat) : State := s.setKey n (s.key n).emptied

/-- R491: every slot that the epoch of an owning partition has left behind is emptied. -/
def State.dropStale (s : State) (p : Nat) : State :=
  (List.range 256).foldl (fun s n =>
    let k := s.key n
    if k.state ≠ 0 ∧ bitOf k.owner (p - 1) ∧ k.pep.getD (p - 1) 0 ≠ s.rn (Reg.KEY_PEPOCH p) then s.emptySlot n else s) s

/-- R448, R497: the snapshot key of a sequence number under the binding that LAKE_BIND recorded, or the status that refuses
it: no usable model key 0x06, one at its limit 0x0A. -/
def State.snapKey (s : State) (p seqno : Nat) : Except Nat (Nat × List Byte) :=
  match (s.keeper.binds.find? fun (b : LakeBind) => b.part == p) with
  | none => .error 0x06
  | some b =>
    let k := s.key b.slot
    if k.state = 2 then .error 0x0A
    else if k.state ≠ 1 ∨ !k.owned p ∨ !k.model then .error 0x06
    else .ok (b.slot, Crypto.kdf k.key (ascii "SZT60-SNAP") (b.job ++ leBytes 4 b.rank ++ leBytes 4 seqno) 256)

/-- LAKE_KEY's work, also the keeper's own at each snapshot (R519): answers the status of R522. -/
def State.lakeKey (s : State) (p kid seqno : Nat) : State × Nat :=
  match s.snapKey p seqno with
  | .error e => (s, e)
  | .ok (slot, key) =>
    if !s.canLoad (2 * kid) then (s, 0x0A)
    else ((s.useKey slot).1.loadPair kid key (ownerMask p) 0 0, 0)

/-- R498: the root-MAC key beside a Lake slot's pair. -/
def State.rmacKey (s : State) (kid : Nat) : List Byte := Crypto.kdf (s.key (2 * kid)).key (ascii "SZT60-RMAC") [] 384

end Sys2Proof.Machine
end

