-- ==== Sys2Proof/Machine/Lake.lean ====
section
/-! DEFINITION. The checkpoint unit: Lake slots (R446 to R451), snapshots (R452 to R456) at a commit decision (R335), drains,
read-backs and PULLs (R457 to R463, R471), aborts (R466, R467), restores (R472) and the writes of its registers. -/

namespace Sys2Proof.Machine

/-! ## Places and raw sectors -/

/-- Sectors of a slot in one stack: *Q* of R446. -/
def State.slotQ (s : State) (p : Nat) : Nat := s.slotSize p / 256
/-- Sectors of a slot: *KQ*. -/
def State.slotN (s : State) (p : Nat) : Nat := s.nstacks p * s.slotQ p
/-- R446: the stack-local offset of a Lake slot, and of its image area. -/
def State.slotBase (s : State) (p j : Nat) : Nat := s.lakeBase p + j * s.slotSize p
def State.imgBaseOf (s : State) (p j : Nat) : Nat := s.slotBase p j + mib
def State.lakeKid (s : State) (p j : Nat) : Nat :=
  s.fget (Reg.CKP_KID p) (if j = 0 then Fld.CKP_KID_LKID0 else Fld.CKP_KID_LKID1)

/-- The device stack and the sector of a stack-local offset in the stack of a rank. -/
def State.rawPlace (s : State) (p rank u : Nat) : Nat × Nat :=
  let x := s.place p (s.localOff p rank u)
  (x.1, x.2 / 256)
/-- R449, R460: the place of a sector index in a Lake slot, and in a buddy slot whose sectors are placed by `q`. -/
def State.lakePlace (s : State) (p j i : Nat) : Nat × Nat :=
  s.rawPlace p (i / s.slotQ p) (s.slotBase p j + i % s.slotQ p * 256)
def State.buddyPlace (s : State) (p b q i : Nat) : Nat × Nat :=
  s.rawPlace p (i / q) (s.buddyBase p + b * s.buddySize p + i % q * 256)

/-- The stored ciphertext and MAC of a sector, and a keyless write of them (R460). -/
def rawPair (b : List Byte) : List Byte × List Byte := (b.take 256, sliceB b 280 8)
def State.getPair (s : State) (at' : Nat × Nat) : List Byte × List Byte := rawPair (s.rawSector at'.1 at'.2)

/-- R265, R457: keyless reads of stored sectors, corrected and counted. `ok` says whether none was beyond correction. -/
structure PairRead where
  pairs : List (List Byte × List Byte)
  ok : Bool
deriving DecidableEq, Repr
def State.readPairs (s : State) (errs : List ReadErr) (p : Nat) (l : List (Nat × Nat)) : State × PairRead :=
  l.foldl (fun (y : State × PairRead) at' =>
    let z := y.1.readOnce errs p at'.1 at'.2 0
    (z.1, ⟨y.2.pairs ++ [rawPair z.2.bytes], y.2.ok && !z.2.ue⟩)) (s, ⟨[], true⟩)
def State.putPair (s : State) (at' : Nat × Nat) (cipher mac : List Byte) : State :=
  s.putRaw at'.1 at'.2 (cipher ++ eccBytes cipher mac ++ mac)

/-- R451. -/
def slotLeaf (i : Nat) (x : List Byte × List Byte) : List Byte := Crypto.sha384 (leBytes 8 i ++ x.1 ++ x.2)
def treeRoot : Nat → List (List Byte) → List Byte
  | 0, l => l.headD []
  | fuel + 1, l =>
    if l.length ≤ 1 then l.headD []
    else treeRoot fuel ((chunksOf 64 l.length l).map fun c => Crypto.sha384 c.flatten)
def rootOf (leaves : List (List Byte)) : List Byte := treeRoot leaves.length leaves

def State.slotState (s : State) (p j : Nat) : Nat := s.fget (Reg.CKP_SLOT_STAT p j) Fld.CKP_SLOT_STAT_STATE
def State.setSlot (s : State) (p j st : Nat) : State := s.fput (Reg.CKP_SLOT_STAT p j) Fld.CKP_SLOT_STAT_STATE st
def State.setSlotStep (s : State) (p j seq step : Nat) : State :=
  ((s.wn (Reg.CKP_SLOT_SEQ p j) seq).wn (Reg.CKP_SLOT_STEP_LO p j) step).wn (Reg.CKP_SLOT_STEP_HI p j) (step / 4294967296 % 65536)
def State.bslotState (s : State) (p b : Nat) : Nat := s.fget (Reg.CKP_BSLOT_STAT p b) Fld.CKP_BSLOT_STAT_STATE
def State.setBslot (s : State) (p b st : Nat) : State :=
  (s.fput (Reg.CKP_BSLOT_STAT p b) Fld.CKP_BSLOT_STAT_STATE st).showDrain p
def State.bslotStep (s : State) (p b : Nat) : Nat :=
  s.rn (Reg.CKP_BSLOT_STEP_LO p b) + 4294967296 * s.rn (Reg.CKP_BSLOT_STEP_HI p b)

/-- The newer of two slots that a test admits. -/
def newerOf (ok : Nat → Bool) (seq : Nat → Nat) : Option Nat :=
  if ok 0 && ok 1 then some (if seq 0 < seq 1 then 1 else 0) else if ok 0 then some 0 else if ok 1 then some 1 else none

/-- The newest LOCAL or VERIFIED slot. -/
def State.newestSlot (s : State) (p : Nat) : Option Nat :=
  newerOf (fun j => s.slotState p j == 2 || s.slotState p j == 3) fun j => s.rn (Reg.CKP_SLOT_SEQ p j)

/-- The newest VERIFIED buddy slot. -/
def State.newestBuddy (s : State) (p : Nat) : Option Nat :=
  newerOf (fun b => s.bslotState p b == 3) fun b => s.rn (Reg.CKP_BSLOT_SEQ p b)

/-- R482: the first error since `CKP_ERR` was read. -/
def State.ckpErr (s : State) (p code : Nat) : State :=
  let a := Reg.CKP_ERR p
  (if s.fget a Fld.CKP_ERR_CODE = 0 then s.fput a Fld.CKP_ERR_CODE code else s).irqCkp p Fld.CKP_INT_STATUS_ERR

/-- The code of R482 for a refusal of R551: KEY for the key's sake, SLOT for the place's. -/
def ckpCode (c : Nat) : Nat := if c = 0 then 0 else if c = 0x01 ∨ c = 0x08 ∨ c = 0x14 then 4 else 8

/-- Keyed reads and writes of a run of whole sectors by the checkpoint unit, stack-local under a KID. They answer the code
of R482. -/
def State.ckpRead (s : State) (errs : List ReadErr) (p kid rank u len : Nat) : State × Nat × List Byte :=
  let a := s.localAddr p kid rank u
  let (s1, c) := s.checkRun p mCkpRd true a len
  if c ≠ 0 then (s1, ckpCode c, [])
  else
    let (s2, r) := s1.readRun errs p false true a len
    (s2, if r.ok then 0 else 5, r.bytes)
def State.ckpWrite (s : State) (p kid rank u : Nat) (v : List Byte) : State × Nat :=
  let a := s.localAddr p kid rank u
  let (s1, c) := s.checkRun p mCkpWr true a v.length
  if c ≠ 0 then (s1, ckpCode c) else ((s1.writeRun [] p false false a v).1, 0)

/-- What a read of the checkpoint unit delivered is written to another place; a failed read ends the copy with its code. -/
def ckpMove (x : State × Nat × List Byte) (p kid rank u : Nat) : State × Nat :=
  if x.2.1 ≠ 0 then (x.1, x.2.1) else x.1.ckpWrite p kid rank u x.2.2

/-- R454 step 3, R472 step 4: copy `len` bytes in every stack, from one KID and place to another. -/
def State.ckpCopy (s : State) (errs : List ReadErr) (p kid u kid' u' len : Nat) : State × Nat :=
  (List.range (s.nstacks p)).foldl (fun (y : State × Nat) rank =>
    (List.range (len / 256)).foldl (fun (y : State × Nat) t =>
      if y.2 ≠ 0 then y else ckpMove (y.1.ckpRead errs p kid rank (u + 256 * t) 256) p kid' rank (u' + 256 * t)) y) (s, 0)

/-! ## The drain to the buddy -/

/-- R459: the header of a drain frame. -/
def drainHeader (kind slot seq first count verdict step : Nat) : List Byte :=
  leBytes 1 kind ++ leBytes 1 slot ++ leBytes 2 0 ++ leBytes 4 seq ++ leBytes 8 first ++ leBytes 1 count ++ leBytes 1 verdict ++
    leBytes 6 step ++ leBytes 8 0

/-- A BULK frame of the partition joins a port's queue (R458). -/
def State.sendBulk (s : State) (p n : Nat) (payload : List Byte) : State :=
  s.setPort n { s.port n with queue := (s.port n).queue ++ [(⟨p, 4, 0, 0, payload⟩ : TxFrame)] }

def dataFrame (slot seq first step : Nat) (l : List (List Byte × List Byte)) : List Byte :=
  drainHeader 1 slot seq first l.length 0 step ++ sliceB (l.flatMap fun x => x.2) 0 128 ++ l.flatMap fun x => x.1
def endFrame (slot seq step : Nat) (root : List Byte) (q k : Nat) : List Byte :=
  drainHeader 2 slot seq 0 0 0 step ++ sliceB root 0 48 ++ leBytes 8 q ++ leBytes 8 k
def resultFrame (slot seq verdict step : Nat) (root : List Byte) : List Byte :=
  drainHeader 3 slot seq 0 0 verdict step ++ sliceB root 0 48 ++ leBytes 16 0

def State.drainPort (s : State) (p : Nat) : Nat := s.fget (Reg.CKP_DRAIN_CFG p) Fld.CKP_DRAIN_CFG_PORT
def State.drainOn (s : State) (p : Nat) : Bool := s.ckpMode p == 1 && s.flag (Reg.CKP_CTRL p) Fld.CKP_CTRL_DRAIN_EN

/-- R457, R461: the drain of a slot begins at index 0. -/
def State.drainFrom (s : State) (p j : Nat) (again : Bool) : State :=
  let s1 := s.setLake p { s.lake p with drain := some ⟨false, j, s.drainPort p, 0, false, s.now, 0⟩, again := again, broken := false }
  (s1.fput (Reg.CKP_STATUS p) Fld.CKP_STATUS_DRAIN_SLOT j).showDrain p

/-- R457: drain the newest slot when it is LOCAL; a drain of an older one is abandoned. -/
def State.startDrain (s : State) (p : Nat) : State :=
  match s.newestSlot p with
  | none => s
  | some j =>
    if !s.drainOn p ∨ s.slotState p j ≠ 2 then s
    else match (s.lake p).drain with
    | none => s.drainFrom p j false
    | some d =>
      if d.slot = j then s
      else (s.sendBulk p d.port (drainHeader 5 d.slot (s.rn (Reg.CKP_SLOT_SEQ p d.slot)) 0 0 0 0)).drainFrom p j false

/-- Whether a drain frame of the partition waits on a port: the next one follows it. -/
def State.bulkWaits (s : State) (p n : Nat) : Bool := (s.port n).queue.any fun (f : TxFrame) => f.part == p && f.typ == 4

/-- R458: what the limit leaves in the current 100 µs. -/
def State.rateAdmits (s : State) (p : Nat) (d : Drain) (len : Nat) : Bool :=
  decide (10000 ≤ s.now - d.began) || decide (d.bytes + len < s.fget (Reg.CKP_DRAIN_CFG p) Fld.CKP_DRAIN_CFG_RATE * 100000)

/-- R457, R459: the next frame of a drain, from the sectors read for it: DATA, or END after the last. -/
def State.drainFrame (s : State) (p : Nat) (d : Drain) (l : List (List Byte × List Byte)) : List Byte :=
  let seq := s.rn (Reg.CKP_SLOT_SEQ p d.slot)
  let step := s.rn (Reg.CKP_SLOT_STEP_LO p d.slot) + 4294967296 * s.rn (Reg.CKP_SLOT_STEP_HI p d.slot)
  if l = [] then endFrame d.slot seq step ((s.lake p).root.getD d.slot []) (s.slotQ p) (s.nstacks p)
  else dataFrame d.slot seq d.next step l

/-- A frame of a drain leaves: the drain goes on behind its `c` sectors. -/
def State.drainPut (s : State) (p : Nat) (d : Drain) (c : Nat) (frame : List Byte) : State :=
  let fresh := decide (10000 ≤ s.now - d.began)
  let d' : Drain := { d with
    next := d.next + c, ended := c == 0, began := if fresh then s.now else d.began
    bytes := (if fresh then 0 else d.bytes) + frame.length }
  ((s.setLake p { s.lake p with drain := some d' }).sendBulk p d.port frame).bump64 (Reg.CKP_DRAIN_BYTES_LO p) frame.length

/-- R457: the next frame of a drain: 15 sectors, or END. A sector beyond correction goes out as it was read. -/
def State.drainNext (s : State) (p : Nat) (d : Drain) (errs : List ReadErr) : State :=
  let c := min 15 (s.slotN p - d.next)
  let x := s.readPairs errs p ((List.range c).map fun i => s.lakePlace p d.slot (d.next + i))
  let frame := s.drainFrame p d x.2.pairs
  if d.ended || s.bulkWaits p d.port || !s.rateAdmits p d frame.length then s else x.1.drainPut p d c frame

/-- R471: the next frame of a copy that the partition serves. -/
def State.serveNext (s : State) (p : Nat) (d : Drain) (errs : List ReadErr) : State :=
  let l := s.lake p
  let n := s.nstacks p * l.bq.getD d.slot 0
  let seq := s.rn (Reg.CKP_BSLOT_SEQ p d.slot)
  let c := min 15 (n - d.next)
  if s.bulkWaits p d.port then s
  else if c = 0 then
    ((s.setLake p { l with serve := none }).sendBulk p d.port
      (endFrame d.slot seq (s.bslotStep p d.slot) (l.broot.getD d.slot []) (l.bq.getD d.slot 0) (s.nstacks p))).fput
        (Reg.CKP_STATUS p) Fld.CKP_STATUS_SERVE_BUSY 0
  else
    let x := s.readPairs errs p ((List.range c).map fun i => s.buddyPlace p d.slot (l.bq.getD d.slot 0) (d.next + i))
    (x.1.setLake p { x.1.lake p with serve := some { d with next := d.next + c } }).sendBulk p d.port
      (dataFrame d.slot seq d.next (s.bslotStep p d.slot) x.2.pairs)

/-- R457, R458, R471: one frame of the copy being served (`serve`), else of the drain. -/
def State.drainSend (s : State) (p : Nat) (serve : Bool) (errs : List ReadErr) : State :=
  if s.halted then s
  else match (if serve then (s.lake p).serve else (s.lake p).drain) with
  | none => s
  | some d => if serve then s.serveNext p d errs else if s.drainOn p then s.drainNext p d errs else s
def execDrainSend (p : Nat) (turn : DrainTurn) (s : State) : Host.Outcome State Fault Refusal :=
  .next (s.drainSend p turn.serve turn.errs)

/-- R364, R379: BULK: the frame's receive place is free and the checkpoint unit has it. -/
def State.bulkFrame (s : State) (n : Nat) : State :=
  s.takeInbox n 4 fun s f =>
    let k := leAt f.payload 0 1
    let len := if k = 1 then 160 + 256 * leAt f.payload 16 1 else if k = 2 ∨ k = 3 then 96 else 32
    let s1 := s.creditBulk n f.part
    if 1 ≤ k ∧ k ≤ 5 ∧ f.payload.length = len then
      s1.setLake f.part { s1.lake f.part with inbox := (s1.lake f.part).inbox ++ [(n, f)] }
    else s1
def execBulkFrame (n : Nat) (s : State) : Host.Outcome State Fault Refusal := .next (s.bulkFrame n)

/-- The oldest delivered drain frame, when its `DKIND` is `k`. -/
def State.takeDrain (s : State) (p k : Nat) (f : State → Nat → RxFrame → State) : State :=
  match (s.lake p).inbox with
  | [] => s
  | (n, x) :: t => if leAt x.payload 0 1 = k then f (s.setLake p { s.lake p with inbox := t }) n x else s

/-- The frame on a port belongs to a PULL of the partition there. -/
def State.pullOn (s : State) (p n : Nat) : Option Nat :=
  match (s.lake p).pull with
  | some (port, slot) => if port = n then some slot else none
  | none => none

def State.accepts (s : State) (p : Nat) : Bool := s.flag (Reg.CKP_CTRL p) Fld.CKP_CTRL_ACCEPT

/-- A buddy slot was taken for this snapshot of a sender. -/
def State.bslotOf (s : State) (p n peer seq b : Nat) : Bool :=
  let a := Reg.CKP_BSLOT_STAT p b
  s.fget a Fld.CKP_BSLOT_STAT_SRC == s.fget (Reg.LL_PEER n) Fld.LL_PEER_NODE && s.fget a Fld.CKP_BSLOT_STAT_END == peer &&
    s.rn (Reg.CKP_BSLOT_SEQ p b) == seq

/-- The buddy slot that receives a snapshot of a sender (R460): its port, `END` and `SEQNO`. -/
def State.receiving (s : State) (p n peer seq : Nat) : Option Nat :=
  (List.range 2).find? fun b => s.bslotState p b == 1 && s.bslotOf p n peer seq b

/-- The sectors of a DATA frame. -/
def dataSectors (b : List Byte) : List (List Byte × List Byte) :=
  (List.range (leAt b 16 1)).map fun i => (sliceB b (160 + 256 * i) 256, sliceB b (32 + 8 * i) 8)

/-- A list of two with one entry replaced. -/
def put2 {α : Type} (l : List α) (j : Nat) (x : α) : List α := l.set j x

/-- R471: sectors of a PULL, or of an import (R611), enter a Lake slot at their own places, and their leaves join the tree. -/
def State.fetchSectors (s : State) (p j first : Nat) (l : List (List Byte × List Byte)) : State :=
  (List.zip (List.range l.length) l).foldl (fun (s : State) (x : Nat × List Byte × List Byte) =>
    let i := first + x.1
    if s.slotN p ≤ i then s
    else
      let s1 := s.putPair (s.lakePlace p j i) x.2.1 x.2.2
      let k := s1.lake p
      if i = 0 then s1
      else s1.setLake p { k with leaves := put2 k.leaves j (k.leaves.getD j [] ++ [slotLeaf i x.2]) }) s

/-- The buddy slot whose last reception was of this snapshot of a sender, and which has failed. -/
def State.failedFor (s : State) (p n peer seq : Nat) : Bool :=
  (List.range 2).any fun b => s.bslotState p b == 4 && s.bslotOf p n peer seq b

/-- A buddy slot starts to receive a snapshot (R460): the one that does not hold the newest VERIFIED copy. -/
def State.receiveNew (s : State) (p n peer seq slot : Nat) : State × Nat :=
  let d := match s.newestBuddy p with | some k => 1 - k | none => 0
  let a := Reg.CKP_BSLOT_STAT p d
  let s1 := ((s.wr a (Fld.CKP_BSLOT_STAT_END.put (Fld.CKP_BSLOT_STAT_SRC.put 0
    (s.fget (Reg.LL_PEER n) Fld.LL_PEER_NODE)) peer)).wn (Reg.CKP_BSLOT_SEQ p d) seq).setBslot p d 1
  let l := s1.lake p
  (s1.setLake p { l with bport := put2 l.bport d n, bfrom := put2 l.bfrom d slot, bheld := put2 l.bheld d [] }, d)

/-- The snapshot that a buddy slot receives does not fit: SPACE (R460). -/
def State.noSpace (s : State) (p n d slot seq step : Nat) : State :=
  let l := s.lake p
  ((s.setLake p { l with bheld := put2 l.bheld d [] }).setBslot p d 4).sendBulk p n (resultFrame slot seq 2 step [])

/-- R460, R471: DATA. Only END tells the sender's *Q*, by which a sector has its place, so what arrives is held by its index; an index
that no snapshot of this stack count and `CKP_BUDDY_SIZE` has draws SPACE at once, and the rest of that snapshot is consumed. -/
def State.drainData (s : State) (p : Nat) : State :=
  s.takeDrain p 1 fun s n f =>
    let b := f.payload
    let first := leAt b 8 8
    let l := dataSectors b
    let (slot, seq) := (leAt b 1 1, leAt b 4 4)
    match s.pullOn p n with
    | some j => (s.setSlot p j 1).fetchSectors p j first l
    | none =>
      if !s.accepts p ∨ (first ≠ 0 ∧ s.failedFor p n f.peer seq) then s
      else
        let (s1, d) := match s.receiving p n f.peer seq with
          | some d => (s, d)
          | none => s.receiveNew p n f.peer seq slot
        if s.nstacks p * (s.buddySize p / 256) < first + l.length then s1.noSpace p n d slot seq 0
        else
          let k := s1.lake p
          let more := (List.zip (List.range l.length) l).map fun x => (first + x.1, x.2)
          s1.setLake p { k with bheld := put2 k.bheld d (k.bheld.getD d [] ++ more) }
def execDrainDataReceive (p : Nat) (s : State) : Host.Outcome State Fault Refusal := .next (s.drainData p)

/-- R471: a PULL has ended. -/
def State.endPull (s : State) (p : Nat) : State :=
  (s.setLake p { s.lake p with pull := none }).fput (Reg.CKP_STATUS p) Fld.CKP_STATUS_PULL_BUSY 0

/-- R460, R461, R471: END: the snapshot's sectors take their places by its *Q*, and the slot enters READBACK. -/
def State.drainEnd (s : State) (p : Nat) : State :=
  s.takeDrain p 2 fun s n f =>
    let b := f.payload
    let (seq, step, root, q, k) := (leAt b 4 4, leAt b 18 6, sliceB b 32 48, leAt b 80 8, leAt b 88 1)
    match s.pullOn p n with
    | some j =>
      let mine := rootOf ((s.lake p).leaves.getD j [])
      let s1 := s.endPull p
      if mine = root then
        let s2 := s1.setLake p { s1.lake p with root := put2 (s1.lake p).root j mine }
        ((s2.setSlot p j 4).setSlotStep p j seq step).irqCkp p Fld.CKP_INT_STATUS_FETCHED
      else (s1.setSlot p j 5).ckpErr p 3
    | none =>
      if !s.accepts p then s
      else
        match s.receiving p n f.peer seq with
        | none => s
        | some d =>
          if s.buddySize p < q * 256 ∨ k ≠ s.nstacks p then s.noSpace p n d (leAt b 1 1) seq step
          else
            let l := s.lake p
            let s1 := s.setLake p { l with bq := put2 l.bq d q, broot := put2 l.broot d root, bheld := put2 l.bheld d [] }
            ((((l.bheld.getD d []).foldl (fun (s : State) x =>
              if x.1 < k * q then s.putPair (s.buddyPlace p d q x.1) x.2.1 x.2.2 else s) s1).wn (Reg.CKP_BSLOT_STEP_LO p d) step).wn
              (Reg.CKP_BSLOT_STEP_HI p d) (step / 4294967296)).setBslot p d 2
def execDrainEndReceive (p : Nat) (s : State) : Host.Outcome State Fault Refusal := .next (s.drainEnd p)

/-- R461: the read-back of a buddy slot ends. -/
def State.readback (s : State) (p : Nat) (errs : List ReadErr) : State :=
  match (List.range 2).find? fun b => s.bslotState p b == 2 with
  | none => s
  | some d =>
    if s.halted then s
    else
      let l := s.lake p
      let n := s.nstacks p * l.bq.getD d 0
      let (s1, r) := s.readPairs errs p ((List.range (n - 1)).map fun i => s.buddyPlace p d (l.bq.getD d 0) (i + 1))
      let mine := rootOf ((List.zip (List.range (n - 1)) r.pairs).map fun x => slotLeaf (x.1 + 1) x.2)
      let ok := r.ok && decide (mine = l.broot.getD d [])
      let s2 := (s1.setBslot p d (if ok then 3 else 4)).sendBulk p (l.bport.getD d 0)
        (resultFrame (l.bfrom.getD d 0) (s1.rn (Reg.CKP_BSLOT_SEQ p d)) (if ok then 0 else 1) (s1.bslotStep p d) mine)
      if ok then s2.irqCkp p Fld.CKP_INT_STATUS_BUDDY_VERIFIED else s2
def execReadbackComplete (p : Nat) (errs : List ReadErr) (s : State) : Host.Outcome State Fault Refusal := .next (s.readback p errs)

/-- The partition's drain is over. -/
def State.endDrain (s : State) (p : Nat) : State := (s.setLake p { s.lake p with drain := none, again := false }).showDrain p

/-- A drain ends with its slot LOCAL: it starts again at the next write of `CKP_DRAIN_CFG` (R463; log 22). -/
def State.dropDrain (s : State) (p : Nat) : State := (s.endDrain p).setLake p { (s.endDrain p).lake p with broken := true }

/-- R460, R461, R471: RESULT. -/
def State.drainResult (s : State) (p : Nat) : State :=
  s.takeDrain p 3 fun s n f =>
    let b := f.payload
    let v := leAt b 17 1
    if v = 3 then (if (s.pullOn p n).isSome then (s.endPull p).ckpErr p 7 else s)
    else
      match (s.lake p).drain with
      | none => s
      | some d =>
        if d.port ≠ n ∨ leAt b 4 4 ≠ s.rn (Reg.CKP_SLOT_SEQ p d.slot) then s
        else if v = 0 then
          if sliceB b 32 48 = (s.lake p).root.getD d.slot [] then
            ((s.endDrain p).setSlot p d.slot 3).irqCkp p Fld.CKP_INT_STATUS_VERIFIED
          else s
        else if v = 1 then
          if (s.lake p).again then (s.dropDrain p).irqCkp p Fld.CKP_INT_STATUS_DRAIN_FAIL else s.drainFrom p d.slot true
        else if v = 2 then (s.dropDrain p).ckpErr p 6
        else s
def execDrainResultReceive (p : Nat) (s : State) : Host.Outcome State Fault Refusal := .next (s.drainResult p)

/-- R471: PULL. -/
def State.drainPull (s : State) (p : Nat) : State :=
  s.takeDrain p 4 fun s n f =>
    let seq := leAt f.payload 4 4
    if !s.accepts p then s
    else
      let d := if seq = 0 then s.newestBuddy p
        else (List.range 2).find? fun b => s.bslotState p b == 3 && s.rn (Reg.CKP_BSLOT_SEQ p b) == seq
      match d with
      | none => s.sendBulk p n (resultFrame (leAt f.payload 1 1) seq 3 0 [])
      | some d => (s.setLake p { s.lake p with serve := some ⟨true, d, n, 0, false, s.now, 0⟩ }).fput (Reg.CKP_STATUS p)
          Fld.CKP_STATUS_SERVE_BUSY 1
def execDrainPullReceive (p : Nat) (s : State) : Host.Outcome State Fault Refusal := .next (s.drainPull p)

/-- R457: ABANDON: the reception of that snapshot ends. -/
def State.drainAbandon (s : State) (p : Nat) : State :=
  s.takeDrain p 5 fun s n f =>
    match s.receiving p n f.peer (leAt f.payload 4 4) with
    | some d => if s.accepts p then s.setBslot p d 4 else s
    | none => s
def execDrainAbandonReceive (p : Nat) (s : State) : Host.Outcome State Fault Refusal := .next (s.drainAbandon p)

/-- R463: a write of `CKP_DRAIN_CFG`. -/
def State.drainCfgW (s : State) (p : Nat) (v : Word) : State :=
  let s1 := s.regWrite (Reg.CKP_DRAIN_CFG p) v
  let moved := match (s1.lake p).drain with | some d => d.port != s1.drainPort p | none => false
  let s2 := if moved then s1.endDrain p else s1
  (s2.setLake p { s2.lake p with broken := false }).startDrain p
def execDrainCfgWrite (r : RegReq) (p : Nat) (v : Word) (s : State) : Host.Outcome State Fault Refusal :=
  .next (s.write r (Reg.CKP_DRAIN_CFG p) fun s => s.drainCfgW p v)

/-! ## Snapshots -/

/-- R452: `CKP_TIMER.SECONDS` have passed since the last snapshot began, or since RUN. -/
def State.snapTimer (s : State) (p : Nat) : State :=
  let n := s.fget (Reg.CKP_TIMER p) Fld.CKP_TIMER_SECONDS
  let l := s.lake p
  if n = 0 ∨ s.now < l.timer + n * 100000000 then s else s.setLake p { l with armed := true }
def execSnapshotTimer (p : Nat) (s : State) : Host.Outcome State Fault Refusal := .next (s.snapTimer p)

/-- R452, R453: whether a COMMITTED decision takes a snapshot, or defers one. -/
def State.snapDue (s : State) (p : Nat) : Bool :=
  let t := s.rn (Reg.UPD_TCOUNT p)
  let e := s.fget (Reg.CKP_TRIGGER p) Fld.CKP_TRIGGER_EVERY
  ((e != 0 && t % e == 0) || ((s.lake p).armed && t % s.fget (Reg.CKP_TRIGGER p) Fld.CKP_TRIGGER_ALIGN == 0)) &&
    s.ckpMode p != 0 && s.flag (Reg.UPD_CTRL p) Fld.UPD_CTRL_STEP_RINGS && s.imgSize p != 0

/-- A snapshot ends without its slot (R466). -/
def State.snapEnd (s : State) (p : Nat) : State :=
  match (s.lake p).snap with
  | none => s
  | some j => ((s.setLake p { s.lake p with snap := none }).setSlot p j 5).fput (Reg.CKP_STATUS p) Fld.CKP_STATUS_SNAP_BUSY 0

/-- R449: the ring table. -/
def State.ringTable (s : State) (p : Nat) : List Byte :=
  sliceB ((List.range (16 * s.ncores p)).flatMap fun i =>
    let k := (s.ring p i).kind
    leBytes 4 (if k = 1 then s.rn (Reg.SEQ_RING_CONS p i) else if k = 2 then s.rn (Reg.SEQ_RING_PROD p i) else 0) ++
      leBytes 4 k) 0 16384

/-- R454 steps 1 and 2: the slot is chosen, its key derived, and the state record and the ring table written. -/
def State.snapStart (s : State) (p : Nat) : State :=
  let newest := s.newestSlot p
  if (match newest with | some k => s.slotState p k == 2 | none => false) then
    (s.bump (Reg.CKP_DEFER_COUNT p) Fld.CKP_DEFER_COUNT_COUNT 1).irqCkp p Fld.CKP_INT_STATUS_DEFER
  else
    let j := match newest with | some k => 1 - k | none => 0
    let seq := (s.rn (Reg.CKP_SEQNO p) + 1) % 4294967296
    -- R124: the successor that the decision leads to, and the loop counters it leaves
    let c := (s.setSq p { s.sq p with loopRec := (s.sq p).cur.loopOf }).choose p false
    let s1 := s.setLake p { s.lake p with
      snap := some j, rpc := (c.sq p).nxt.idx, loops := (List.range 4).map fun n => c.rn (Reg.SEQ_LOOP p n)
      step := s.stepNo p, epoch := s.rn (Reg.UPD_EPOCH p), timer := s.now, armed := false }
    let s2 := ((s1.wn (Reg.CKP_SEQNO p) seq).setSlot p j 1).fput (Reg.CKP_STATUS p) Fld.CKP_STATUS_SNAP_BUSY 1
    let x := s2.lakeKey p (s2.lakeKid p j) seq
    let s3 := x.1
    if x.2 ≠ 0 then (s3.snapEnd p).ckpErr p 4
    else
      let v := s3.stateRecord p (s3.fget (Reg.UPD_STATUS p) Fld.UPD_STATUS_LAST) (s3.rn (Reg.UPD_GNORM_SQ p)) ++ s3.ringTable p
      let y := s3.ckpWrite p (s3.lakeKid p j) 0 (s3.slotBase p j + 256) v
      if y.2 ≠ 0 then (y.1.snapEnd p).ckpErr p y.2 else y.1

/-- R335 steps 3 to 5: the pending decision is made once what it waits for is done; a due snapshot starts or is deferred. -/
def State.commitDecision (s : State) (p : Nat) : State :=
  if !s.decisionReady p then s
  else
    let s1 := s.makeDecision p
    let s2 := if s1.fget (Reg.UPD_STATUS p) Fld.UPD_STATUS_LAST = 1 ∧ s1.snapDue p then s1.snapStart p else s1
    s2.afterDecision p
def execCommitDecision (p : Nat) (s : State) : Host.Outcome State Fault Refusal := .next (s.commitDecision p)

/-- R450: the manifest up to `ROOT`. -/
def State.layoutCount (s : State) : Nat := (allParts.filter fun p => s.nquad p != 0).length
def State.shape (s : State) (p j : Nat) : List (Nat × List Byte) := [
  (6, leBytes 1 (s.layoutCount + 8 * p)), (7, leBytes 1 (s.nstacks p)), (24, leBytes 4 (s.rn (Reg.COL_STAGE_CFG p))),
  (28, leBytes 4 (s.rn (Reg.COL_XCHG_CF p))), (32, leBytes 4 (s.rn (Reg.COL_POS p))), (36, leBytes 1 (s.localGib p)),
  (37, leBytes 1 (s.fget (Reg.CKP_KID p) Fld.CKP_KID_BKID)), (38, leBytes 1 (s.lakeKid p j)), (39, leBytes 1 j),
  (40, leBytes 4 (s.bankBase p / mib)), (44, leBytes 4 (s.imgSize p / mib)), (48, leBytes 4 (s.lakeBase p / mib)),
  (56, leBytes 8 (s.rd64 (Reg.CKP_SHAPEID_LO p)))]
def State.manifest (s : State) (p j : Nat) (root : List Byte) : List Byte :=
  let l := s.lake p
  let base : List Byte := leBytes 4 0x454B414C ++ leBytes 4 1 ++ leBytes 4 (s.rn (Reg.CKP_SEQNO p)) ++ leBytes 8 l.step ++
    leBytes 4 l.epoch ++ leBytes 28 0 ++ leBytes 4 (s.rn Reg.GLB_FWSET) ++ leBytes 8 0 ++ leBytes 4 l.rpc ++
    l.loops.flatMap (leBytes 4) ++ leBytes 44 0 ++ sliceB root 0 48
  let m := (s.shape p j).foldl (fun m x => patchB m x.1 x.2) base
  m ++ Crypto.hmac384 (s.rmacKey (s.lakeKid p j)) m ++ leBytes 32 0

/-- R449: a zero sector in one place of the Lake slot's first MiB of a stack, where the slot holds nothing else there. -/
def padSector (p kid base rank t : Nat) (y : State × Nat) : State × Nat :=
  if y.2 ≠ 0 ∨ (rank = 0 ∧ t < 66) then y else y.1.ckpWrite p kid rank (base + 256 * t) (leBytes 256 0)
def padRank (p kid base rank : Nat) (l : List Nat) (y : State × Nat) : State × Nat :=
  l.foldl (fun y t => padSector p kid base rank t y) y
def padStack (p kid base : Nat) (y : State × Nat) (rank : Nat) : State × Nat := padRank p kid base rank (List.range 4096) y
def State.snapPad (s : State) (p j : Nat) (x : State × Nat) : State × Nat :=
  (List.range (s.nstacks p)).foldl (padStack p (s.lakeKid p j) (s.slotBase p j)) x

/-- The root over the slot's leaves. -/
def State.snapRoot (s : State) (p j : Nat) : List Byte :=
  rootOf ((List.range (s.slotN p - 1)).map fun i => slotLeaf (i + 1) (s.getPair (s.lakePlace p j (i + 1))))

def withRoot (root : List Byte) (w : State × Nat) : State × Nat × List Byte := (w.1, w.2, root)

/-- The manifest is written last. -/
def snapSeal (p j kid base : Nat) (z : State × Nat) : State × Nat × List Byte :=
  if z.2 ≠ 0 then (z.1, z.2, [])
  else withRoot (z.1.snapRoot p j) (z.1.ckpWrite p kid 0 base (z.1.manifest p j (z.1.snapRoot p j)))

/-- R454 step 3: the image is copied, the rest of the metadata written 0 and the manifest written: the state, the code of R482
that ended it, and the root. -/
def State.snapWrite (s : State) (p j : Nat) (errs : List ReadErr) : State × Nat × List Byte :=
  snapSeal p j (s.lakeKid p j) (s.slotBase p j) (s.snapPad p j
    (s.ckpCopy errs p (s.fget (Reg.CKP_KID p) Fld.CKP_KID_BKID) (s.bankBase p) (s.lakeKid p j) (s.imgBaseOf p j) (s.imgSize p)))

/-- R454 steps 3 and 4. -/
def State.snapComplete (s : State) (p : Nat) (errs : List ReadErr) : State :=
  match (s.lake p).snap with
  | none => s
  | some j =>
    if s.halted then s
    else
      let (s3, c, root) := s.snapWrite p j errs
      if c ≠ 0 then (s3.snapEnd p).ckpErr p c
      else
        let s4 := ((s3.snapEnd p).setSlot p j 2).setSlotStep p j (s3.rn (Reg.CKP_SEQNO p)) (s3.lake p).step
        let s5 := s4.setLake p { s4.lake p with root := put2 (s4.lake p).root j root, broken := false }
        (s5.irqCkp p Fld.CKP_INT_STATUS_SNAP).startDrain p
def execSnapshotComplete (p : Nat) (errs : List ReadErr) (s : State) : Host.Outcome State Fault Refusal :=
  .next (s.snapComplete p errs)

/-! ## Aborts -/

/-- Frames of the scheduled and control classes (R466). -/
def tenantFrame (typ : Nat) : Bool := typ == 1 || typ == 2 || typ == 3 || typ == 6

/-- R466. -/
def State.ckpAbort (s : State) (p : Nat) : State :=
  let s0 := s.abandon p none
  let s1 := s0.setSq p { s0.sq p with mesh := [], loopRec := none, commitRec := none, afterCommit := false, ended := none }
  let s2 := (s1.fput (Reg.UPD_STATUS p) Fld.UPD_STATUS_PENDING 0).setWin p {}
  let s3 := (List.range 8).foldl (fun (s : State) ch => match s.cc p ch with | some l => s.ccRelease p ch l | none => s) s2
  let s4 := (List.range 16).foldl (fun (s : State) n =>
    let x := s.port n
    let mine := (x.held.filter fun (f : RxFrame) => f.part == p).length
    s.setPort n { x with
      queue := x.queue.filter fun (f : TxFrame) => !(f.part == p && tenantFrame f.typ)
      held := x.held.filter fun (f : RxFrame) => f.part != p
      ctlRet := set4 x.ctlRet p (get4 x.ctlRet p + mine) }) s3
  let s5 := (s4.snapEnd p).failBufs p (fun b => b.seqOpen || b.ccOpen) 0x26
  let s6 := s5.enterStopped p
  let st := Reg.CKP_STATUS p
  let s7 := (s6.setLake p { s6.lake p with aborting := true }).wr st
    (Fld.CKP_STATUS_QUIET.put (Fld.CKP_STATUS_ABORTED.put (s6.rd st) 1) 0)
  if s7.flag (Reg.TDBG_SEPIA_CTRL p) Fld.TDBG_SEPIA_CTRL_FREEZE_ON_FAULT then s7.freezePart p else s7

/-- R467: the aborted work has drained, and no port still has to bring one of its frames to the peer. -/
def State.drained (s : State) (p : Nat) : Bool :=
  (s.sq p).xfers.isEmpty && (s.sq p).bursts.isEmpty && (s.up p).streams.isEmpty && !(s.nmeXfers.any fun x => x.part == p) &&
    !((List.range 8).any fun k => ((s.stk k).queue ++ (s.stk k).backlog).any fun r => r.part == p)
def State.quiet (s : State) (p : Nat) : State :=
  let portOk (n : Nat) : Bool := !s.flag (Reg.LL_BIND n p) Fld.LL_BIND_VALID ||
    ((s.port n).action == tHold && s.trainIdx n != 0) ||
    ((s.port n).action == tActive && !(s.port n).replay.any fun (f : Sealed) => f.owner == p && tenantFrame f.typ)
  if !(s.lake p).aborting || !s.drained p || !(List.range 16).all portOk then s
  else
    let s1 := (s.setLake p { s.lake p with aborting := false }).fput (Reg.CKP_STATUS p) Fld.CKP_STATUS_QUIET 1
    ((List.range 32).foldl (fun (s : State) n => s.fput (Reg.SEQ_CSET p n) Fld.SEQ_CSET_OUT 0) s1).irqCkp p Fld.CKP_INT_STATUS_QUIET
def execQuiet (p : Nat) (s : State) : Host.Outcome State Fault Refusal := .next (s.quiet p)

/-! ## Restores -/

/-- R472, R482: the code with which a manifest that was read from a slot is refused, 0 for none, and its bytes. -/
def manifestCheck (p j st kid : Nat) (y : State × Nat × List Byte) : State × Nat × List Byte :=
  let s1 := y.1
  let m := y.2.2
  if y.2.1 ≠ 0 then (s1, if y.2.1 = 4 then 4 else 5, [])
  else if leAt m 0 4 ≠ 0x454B414C ∨ leAt m 4 2 ≠ 1 ∨ Crypto.hmac384 (s1.rmacKey kid) (m.take 176) ≠ sliceB m 176 48 ∨
      (st = 4 ∧ sliceB m 128 48 ≠ (s1.lake p).root.getD j []) then (s1, 3, [])
  else if (s1.shape p j).any fun x => sliceB m x.1 x.2.length != x.2 then (s1, 1, [])
  else if leAt m 52 4 ≠ s1.rn Reg.GLB_FWSET then (s1, 2, [])
  else (s1, 0, m)

/-- R472 steps 1 to 3: the checks of a restore from a slot: the state, the code of R482 that ends it (0 for none), and the
manifest. -/
def State.restoreCheck (s : State) (p j : Nat) (errs : List ReadErr) : State × Nat × List Byte :=
  if ¬ (2 ≤ s.slotState p j ∧ s.slotState p j ≤ 4) then (s, 8, [])
  else manifestCheck p j (s.slotState p j) (s.lakeKid p j) (s.ckpRead errs p (s.lakeKid p j) 0 (s.slotBase p j) 256)

/-- R472 steps 1 to 3. -/
def State.ckpRestore (s : State) (p j : Nat) (errs : List ReadErr) : State :=
  if !s.stopped p ∨ (s.lake p).restore.isSome ∨ s.halted then s
  else
    let (s1, c, m) := s.restoreCheck p j errs
    if c ≠ 0 then s1.ckpErr p c
    else
      let r : Restore := ⟨j, s.slotState p j == 4 || s1.rn (Reg.UPD_EPOCH p) != leAt m 20 4, leAt m 64 4,
        (List.range 4).map fun n => leAt m (68 + 4 * n) 4, leAt m 20 4⟩
      (s1.setLake p { s1.lake p with restore := some r }).fput (Reg.CKP_STATUS p) Fld.CKP_STATUS_RESTORE_BUSY 1

/-- R472 step 4: the current view is undefined after a copy that failed. -/
def State.openView (s : State) (p : Nat) : State :=
  (List.range (s.nstacks p)).foldl (fun (s : State) rank =>
    (List.range (s.imgSize p / 256)).foldl (fun (s : State) t =>
      let x := s.place p (s.bankOff p (s.localOff p rank (s.bankBase p + 256 * t)))
      s.putRaw x.1 (x.2 / 256) ((List.range 288).map fun i =>
        BitVec.ofNat 8 (Config.openValue 20 [s.serial, x.1, x.2 / 256, i]))) s) s

/-- R472 step 5: the step state of a state record. -/
def State.loadStep (s : State) (p : Nat) (m : List Byte) : State :=
  let s1 := ((((s.setStep p (leAt m 0 6)).wn (Reg.UPD_TCOUNT p) (leAt m 8 4)).wn (Reg.UPD_SKIP_COUNT p) (leAt m 12 4)).fput
    (Reg.UPD_CLEAN p) Fld.UPD_CLEAN_COUNT (leAt m 16 4)).fput (Reg.UPD_LS p) Fld.UPD_LS_EXP (leAt m 20 1)
  let s2 := (((s1.fput (Reg.UPD_STATUS p) Fld.UPD_STATUS_HIST (leAt m 22 1 % 2)).wn (Reg.UPD_EPOCH p) (leAt m 24 4)).wn
    (Reg.UPD_GNORM_LAG p) (leAt m 28 4)).wn (Reg.UPD_GNORM_SQ p) (leAt m 32 4)
  (List.range 8).foldl (fun (s : State) n =>
    (s.wn (Reg.UPD_OPT_P1 p n) (leAt m (40 + 8 * n) 4)).wn (Reg.UPD_OPT_P2 p n) (leAt m (44 + 8 * n) 4)) s2

/-- R472 step 5: the rings. -/
def State.loadRings (s : State) (p : Nat) (m : List Byte) : State :=
  (List.range (16 * s.ncores p)).foldl (fun (s : State) i =>
    let k := (s.ring p i).kind
    if k = 1 ∨ k = 2 then
      let s1 := s.ringReset p i
      (s1.wn (Reg.SEQ_RING_PROD p i) (leAt m (8 * i) 4)).wn (Reg.SEQ_RING_CONS p i) (leAt m (8 * i) 4)
    else if k = 0 then s else s.ringReset p i) s

/-- A restore ends; `code` of R482, 0 for a restore that stands. -/
def State.endRestore (s : State) (p code : Nat) : State :=
  let s1 := (s.setLake p { s.lake p with restore := none }).fput (Reg.CKP_STATUS p) Fld.CKP_STATUS_RESTORE_BUSY 0
  if code = 0 then s1.irqCkp p Fld.CKP_INT_STATUS_RESTORED else s1.ckpErr p code

/-- The state record and the ring table, as they were read, take effect. -/
def restoreLoad (p : Nat) (r : Restore) (x : State × Nat × List Byte) : State :=
  if x.2.1 ≠ 0 then x.1.endRestore p x.2.1
  else
    let s3 := (x.1.loadStep p (x.2.2.take 256)).loadRings p (x.2.2.drop 256)
    let s4 := s3.setSq p { s3.sq p with rpc := r.rpc, loops := r.loops }
    (s4.fput (Reg.CKP_STATUS p) Fld.CKP_STATUS_RESUME_ARMED 1).endRestore p 0

/-- The image has been copied, or the copy has failed. -/
def restoreFrom (p : Nat) (r : Restore) (errs : List ReadErr) (y : State × Nat) : State :=
  if y.2 ≠ 0 then (if y.2 = 5 then y.1.openView p else y.1).endRestore p y.2
  else restoreLoad p r (y.1.ckpRead errs p (y.1.lakeKid p r.slot) 0 (y.1.slotBase p r.slot + 256) 16640)

/-- The copy of the image in a slot into the bank. -/
def State.restoreCopy (s : State) (p : Nat) (r : Restore) (errs : List ReadErr) : State × Nat :=
  (s.wn (Reg.UPD_EPOCH p) r.epoch).ckpCopy errs p (s.lakeKid p r.slot) ((s.wn (Reg.UPD_EPOCH p) r.epoch).imgBaseOf p r.slot)
    (s.fget (Reg.CKP_KID p) Fld.CKP_KID_BKID) ((s.wn (Reg.UPD_EPOCH p) r.epoch).bankBase p) (s.imgSize p)

/-- R472 steps 4 and 5. -/
def State.restoreComplete (s : State) (p : Nat) (errs : List ReadErr) : State :=
  match (s.lake p).restore with
  | none => s
  | some r => if !s.stopped p ∨ s.halted then s else restoreFrom p r errs (if r.copy then s.restoreCopy p r errs else (s, 0))
def execRestoreComplete (p : Nat) (errs : List ReadErr) (s : State) : Host.Outcome State Fault Refusal :=
  .next (s.restoreComplete p errs)

/-! ## Register writes -/

/-- R471: a PULL leaves for the buddy. A slot being written, or one of a Lake that does not fit (R447), is unusable. -/
def State.ckpPull (s : State) (p j : Nat) : State :=
  if (s.lake p).pull.isSome then s
  else if s.slotState p j = 1 ∨ !s.lakeOk p then s.ckpErr p 8
  else
    let n := s.drainPort p
    let l := s.lake p
    ((s.setLake p { l with pull := some (n, j), leaves := put2 l.leaves j [] }).fput (Reg.CKP_STATUS p) Fld.CKP_STATUS_PULL_BUSY 1).sendBulk
      p n (drainHeader 4 j (s.rn (Reg.CKP_PULL_SEQ p)) 0 0 0 0)

/-- R465: a stopped sequencer and an idle checkpoint unit. -/
def State.ckpIdle (s : State) (p : Nat) : Bool :=
  let st := Reg.CKP_STATUS p
  s.stopped p && !s.flag st Fld.CKP_STATUS_SNAP_BUSY && !s.flag st Fld.CKP_STATUS_DRAIN_BUSY && !s.flag st Fld.CKP_STATUS_SERVE_BUSY

/-- R465, R477: a write of `CKP_CTRL`. One that would change `MODE` or `ACCEPT` at another time is dropped whole, and so is one
that leaves mode OFF where the Lake would not fit (R447, log 22). `DRAIN_EN` becoming 1 starts a drain that no loss has ended. -/
def State.ckpCtrlW (s : State) (p : Nat) (v : Word) (errs : List ReadErr) : State :=
  let a := Reg.CKP_CTRL p
  let s1 := s.regWrite a v
  if (!s.ckpIdle p && (s1.ckpMode p != s.ckpMode p || s1.accepts p != s.accepts p)) ||
      (s.ckpMode p == 0 && s1.ckpMode p != 0 && !s1.lakeOk p) then s.ckpReject p
  else
    let s2 := if s.drainOn p || (s.lake p).broken then s1 else s1.startDrain p
    let s3 := if Fld.CKP_CTRL_ABORT.get v = 1 then s2.ckpAbort p else s2
    let s4 := if Fld.CKP_CTRL_RESTORE.get v = 1 then s3.ckpRestore p (Fld.CKP_CTRL_RESTORE_SLOT.get v) errs else s3
    if Fld.CKP_CTRL_PULL.get v = 1 then s4.ckpPull p (Fld.CKP_CTRL_PULL_SLOT.get v) else s4

/-- Writes of `CKP_CTRL` with a command bit set, whatever the word says of that bit. -/
def execCkpAbort (r : RegReq) (p : Nat) (v : Word) (s : State) : Host.Outcome State Fault Refusal :=
  .next (s.write r (Reg.CKP_CTRL p) fun s => s.ckpCtrlW p (Fld.CKP_CTRL_ABORT.put v 1) [])
def execCkpRestore (r : RegReq) (p : Nat) (v : Word) (errs : List ReadErr) (s : State) : Host.Outcome State Fault Refusal :=
  .next (s.write r (Reg.CKP_CTRL p) fun s => s.ckpCtrlW p (Fld.CKP_CTRL_RESTORE.put v 1) errs)
def execCkpPull (r : RegReq) (p : Nat) (v : Word) (s : State) : Host.Outcome State Fault Refusal :=
  .next (s.write r (Reg.CKP_CTRL p) fun s => s.ckpCtrlW p (Fld.CKP_CTRL_PULL.put v 1) [])

/-- R464: `CKP_HOSTACK`. -/
def State.hostAck (s : State) (p : Nat) (v : Word) : State :=
  if s.ckpMode p ≠ 2 then s
  else match (List.range 2).find? fun j => s.slotState p j == 2 && s.rn (Reg.CKP_SLOT_SEQ p j) == v.toNat with
  | some j => (s.setSlot p j 3).irqCkp p Fld.CKP_INT_STATUS_VERIFIED
  | none => s
def execCkpHostack (r : RegReq) (p : Nat) (v : Word) (s : State) : Host.Outcome State Fault Refusal :=
  .next (s.write r (Reg.CKP_HOSTACK p) fun s => s.hostAck p v)

/-- R447, R465: a write at an offset of the `CKP` block. -/
def State.ckpConfigW (s : State) (p off : Nat) (v : Word) (errs : List ReadErr) : State :=
  let a := vf p + 0x300000 + off
  if off = 0 then s.ckpCtrlW p v errs
  else if off = 0x20 then s.drainCfgW p v
  else if off = 0xA4 then s.hostAck p v
  else if off = 0x10 then
    let s1 := s.regWrite a v
    if s.ckpIdle p && s1.lakeOk p then s1 else s.ckpReject p
  else if off = 0x18 ∨ off = 0x1C then
    let s1 := s.regWrite a v
    if s.ckpIdle p && s1.buddyOk p then s1 else s.ckpReject p
  else if off = 0x14 ∨ off = 0x28 ∨ off = 0x2C then (if s.ckpIdle p then s.regWrite a v else s.ckpReject p)
  else s.regWrite a v
def execCkpConfigWrite (r : RegReq) (p off : Nat) (v : Word) (s : State) : Host.Outcome State Fault Refusal :=
  .next (s.write r (vf p + 0x300000 + off) fun s => s.ckpConfigW p off v [])

end Sys2Proof.Machine
end

