-- ==== Sys2Proof/Machine/Dma.lean ====
section
/-! DEFINITION. The DMA engines: what a descriptor moves (R505 to R509, R543, R609 to R611), what an operator's descriptor may
not (R539, R540), and how a descriptor ends (R612, R613). -/

namespace Sys2Proof.Machine

/-! ## Descriptors (R608) -/

def xForm (d : List Byte) : Nat := leAt d 0 1
def xT (d : List Byte) : Bool := bitOf (leAt d 1 1) 0
def xCw (d : List Byte) : Bool := bitOf (leAt d 1 1) 1
def xSlot (d : List Byte) : Nat := leAt d 2 1
def xLen (d : List Byte) : Nat := leAt d 4 4
def xHost (d : List Byte) : Nat := leAt d 8 8
def xDev (d : List Byte) : Nat := leAt d 16 8
def xIv (d : List Byte) : List Byte := sliceB d 24 12
def xUnit (d : List Byte) : Nat := leAt d 24 8
def xLakeSlot (d : List Byte) : Nat := leAt d 24 1
def xTag (d : List Byte) : List Byte := sliceB d 36 16
def xGcm (d : List Byte) : Bool := xForm d == 2 || xForm d == 3
def xPlain (d : List Byte) : Bool := decide (xForm d ≤ 1)
def xAadLen (d : List Byte) : Nat := leAt d 52 2 + 65536 * bitsOf (leAt d 55 1) 4 1

/-- R608, R609, R610: 0x21 for an undefined form, no length, or a reserved bit. -/
def descForm (d : List Byte) : Nat :=
  let cipher := decide (2 ≤ xForm d ∧ xForm d ≤ 5)
  if 7 < xForm d ∨ xLen d = 0 ∨ 4 ≤ leAt d 1 1 ∨ leAt d 3 1 ≠ 0 ∨ 32 ≤ leAt d 55 1 ∨ 128 ≤ leAt d 54 1 ∨ leNat (d.drop 60) ≠ 0 ∨
      (!xGcm d ∧ xAadLen d ≠ 0) ∨ (!cipher ∧ xSlot d ≠ 0) then 0x21 else 0

/-- R505, R508, R610: the limits of the cipher forms. -/
def descLimits (d : List Byte) : Nat :=
  if xGcm d then (if 2 ^ 26 < xLen d then 0x04 else if 65536 < xAadLen d then 0x05 else 0)
  else if (xForm d = 4 ∨ xForm d = 5) ∧ (xLen d % 256 ≠ 0 ∨ xDev d % 256 ≠ 0) then 0x06 else 0

/-- R487, R509: whether a descriptor of a partition may bind a key slot for encryption. -/
def State.cipherSlot (s : State) (p n : Nat) (enc : Bool) : Nat :=
  let k := s.key n
  if n < 0xC0 then 0x02
  else if k.state = 0 ∨ k.state = 3 then 0x01
  else if k.attr ≠ (if enc then 0 else 1) then 0x02
  else if !k.owned p then 0x03
  else if k.state = 2 then 0x08 else 0

/-! ## Operator descriptors (R539, R540) -/

/-- R557: an operator access refused under R539. The latest is recorded, and of one cycle the one of the lowest master ID. -/
def State.blocked (s : State) (master part : Nat) (write : Bool) : State :=
  let s1 := s.bump Reg.DBG_PROT_COUNT Fld.DBG_PROT_COUNT_COUNT 1
  let s2 := if (s.up 0).refAt = some s.now ∧ s.fget Reg.DBG_PROT_LAST Fld.DBG_PROT_LAST_MASTER < master then s1
    else (s1.setUp 0 { s1.up 0 with refAt := some s.now }).wr Reg.DBG_PROT_LAST
      (Fld.DBG_PROT_LAST_WRITE.put (Fld.DBG_PROT_LAST_PART.put (Fld.DBG_PROT_LAST_MASTER.put
        (Fld.DBG_PROT_LAST_CODE.put 0 0x15) master) part) (b2n write))
  s2.irqDbg Fld.DBG_INT_STATUS_PROT

/-- The lowest-numbered partition that is not EMPTY whose memory a run of device bytes meets. -/
def State.closedPart (s : State) (x len : Nat) : Option Nat :=
  allParts.find? fun p => s.nquad p != 0 && s.partState p != 0 &&
    decide (x < s.memBase p + s.memSize p ∧ s.memBase p < x + len)

/-- What an owner-0 access to a run under a KID comes to: 0x10, 0x15 with the partition, or the key's code. No command gives
the device a memory pair, so no such access finds a key of its own. -/
def State.ownerZero (s : State) (a len : Nat) : Nat × Nat :=
  match addrByte a with
  | none => (0x10, 0)
  | some x =>
    match s.closedPart x len with
    | some p => (0x15, p)
    | none =>
      if 512 * gib < x + len then (0x10, 0) else
      let k := s.key (2 * addrKid a)
      (if k.state = 1 ∧ k.owner ≠ 0 then 0x14 else 0x01, 0)

/-! ## Moving data -/

/-- The bytes from the start of a run that lie before its first refused sector, and that sector's code (R532). -/
def State.admitted (s : State) (p : Nat) (m : Master) (a len : Nat) : State × Nat × Nat :=
  let (s1, c) := s.checkRun p m true a len
  let l := (sectorPieces a len).takeWhile fun x => s.checkSector p m true x.1 x.2 == 0
  (s1, c, (l.map (·.2)).foldl (· + ·) 0)

/-- Read a run toward the host: what precedes the first sector that does not verify (R628). -/
def State.dmaRead (s : State) (errs : List ReadErr) (p a len : Nat) : State × Nat × List Byte :=
  (sectorPieces a len).foldl (fun (y : State × Nat × List Byte) pc =>
    if y.2.1 ≠ 0 then y
    else
      let z := y.1.readPiece errs p false false pc.1 pc.2
      let s := z.1
      let r := z.2
      if r.ok then (s, 0, y.2.2 ++ r.bytes) else (s, 0x2B, y.2.2)) (s, 0, [])

/-- The descriptor of an engine that moves next: the first without an outcome. -/
def State.nextDesc (s : State) (e : Nat) : Option Desc := (s.dma e).find? fun d => d.fin.isNone

/-- Set an engine's first pending descriptor's outcome. -/
def setFin (x : DmaEnd) : List Desc → List Desc
  | [] => []
  | d :: t => if d.fin.isNone then { d with fin := some x } :: t else d :: setFin x t
def State.finish (s : State) (e : Nat) (x : DmaEnd) : State := s.setDma e (setFin x (s.dma e))
def State.finishCode (s : State) (e code moved : Nat) : State := s.finish e ⟨code, moved, [], []⟩

/-- The next descriptor of engine `e`, if its form is `form` and the engine waits for no tag (R276): the checks that come before any byte
moves, and then `f`. -/
def State.dmaForm (s : State) (e form : Nat) (f : State → Desc → State) : State :=
  match s.nextDesc e with
  | none => s
  | some x =>
    let d := x.bytes
    if s.halted ∨ min 8 (xForm d) ≠ form ∨ (x.owner ≠ 0 ∧ s.tagWait x.owner 4 (some e)) then s
    else if descForm d ≠ 0 then s.finishCode e 0x21 0
    else if x.owner ≠ 0 ∧ xPlain d ∧ !xT d then s.finishCode e 0x17 0
    else if descLimits d ≠ 0 then s.finishCode e (descLimits d) 0
    else f s x

/-- An operator's descriptor of a keyed form (R539, R540). -/
def State.pf0Desc (s : State) (e : Nat) (d : List Byte) (write : Bool) : State :=
  let (c, p) := s.ownerZero (xDev d) (xLen d)
  if c = 0x15 then
    let s1 := s.blocked e p write
    (if write then s1 else s1.emit (.hostPoison (xHost d) (xLen d))).finishCode e c 0
  else s.finishCode e c 0

/-- R609: COPY_IN. `host` is what the host's memory answered. -/
def State.copyIn (s : State) (e : Nat) (host : HostRead) (errs : List ReadErr) : State :=
  s.dmaForm e 0 fun s x =>
    let d := x.bytes
    if x.owner = 0 then s.pf0Desc e d true
    else if host.status ≠ 0 then s.finishCode e 0x22 0
    else
      let (s1, c, m) := s.admitted x.owner (mDmaIn e) (xDev d) (xLen d)
      let (s2, ok) := s1.writeRun errs x.owner false true (xDev d) (sliceB host.data 0 m)
      s2.finishCode e (if !ok then 0x2B else c) m
def execDmaCopyIn (e : Nat) (host : HostRead) (errs : List ReadErr) (s : State) : Host.Outcome State Fault Refusal :=
  .next (s.copyIn e host errs)

/-- R609: COPY_OUT. -/
def State.copyOut (s : State) (e : Nat) (errs : List ReadErr) : State :=
  s.dmaForm e 1 fun s x =>
    let d := x.bytes
    if x.owner = 0 then s.pf0Desc e d false
    else
      let (s1, c, m) := s.admitted x.owner (mDmaOut e) (xDev d) (xLen d)
      let (s2, c2, v) := s1.dmaRead errs x.owner (xDev d) m
      let s3 := if v.isEmpty then s2 else s2.toHost x.owner (xHost d) true v
      s3.finishCode e (if c2 ≠ 0 then c2 else c) v.length
def execDmaCopyOut (e : Nat) (errs : List ReadErr) (s : State) : Host.Outcome State Fault Refusal := .next (s.copyOut e errs)

/-- The checks of a cipher form: its slot, then its whole range. -/
def State.cipherOk (s : State) (e : Nat) (x : Desc) (enc : Bool) : State × Nat :=
  let d := x.bytes
  let c := s.cipherSlot x.owner (xSlot d) enc
  if c ≠ 0 then (s, c)
  else if x.owner = 0 then
    let (c, p) := s.ownerZero (xDev d) (xLen d)
    if c = 0x15 then
      let s1 := s.blocked e p (!enc)
      (if enc then s1.emit (.hostPoison (xHost d) (xLen d)) else s1, c)
    else (s, c)
  else s.checkRun x.owner (if enc then mDmaOut e else mDmaIn e) true (xDev d) (xLen d)

/-- R505, R507: GCM_IN. -/
def State.gcmIn (s : State) (e : Nat) (host : HostRead) (errs : List ReadErr) : State :=
  s.dmaForm e 2 fun s x =>
    let d := x.bytes
    let (s1, c) := s.cipherOk e x false
    if c ≠ 0 then s1.finishCode e c 0
    else if host.status ≠ 0 then s1.finishCode e 0x22 0
    else
      let key := (s1.key (xSlot d)).key
      let (s2, _) := s1.useKey (xSlot d)
      let aad := sliceB host.data 0 (xAadLen d)
      let msg := sliceB host.data (xAadLen d) (xLen d)
      let good := decide (Crypto.gcmTag key (xIv d) aad msg = xTag d)
      let v := if good then Crypto.gcmCrypt key (xIv d) msg else leBytes (xLen d) 0
      let (s3, ok) := s2.writeRun errs x.owner false true (xDev d) v
      s3.finishCode e (if !good then 0x07 else if ok then 0 else 0x2B) (if good then xLen d else 0)
def execDmaGcmIn (e : Nat) (host : HostRead) (errs : List ReadErr) (s : State) : Host.Outcome State Fault Refusal :=
  .next (s.gcmIn e host errs)

/-- R506: the IV of a GCM encryption under a slot, with the value of `CTR` that it takes. -/
def gcmIv (slot : Nat) (k : KeySlot) (ctr : Nat) : List Byte :=
  leBytes 4 (slot + 256 * k.owner + 4096 * (k.epoch % 2 ^ 20)) ++ leBytes 8 ctr

/-- R506: GCM_OUT: the header is read from the host, and the ciphertext written after it. -/
def State.gcmOut (s : State) (e : Nat) (host : HostRead) (errs : List ReadErr) : State :=
  s.dmaForm e 3 fun s x =>
    let d := x.bytes
    let (s1, c) := s.cipherOk e x true
    if c ≠ 0 then s1.finishCode e c 0
    else if xAadLen d ≠ 0 ∧ host.status ≠ 0 then s1.finishCode e 0x22 0
    else
      let k := s1.key (xSlot d)
      let (s2, ctr) := s1.useKey (xSlot d)
      let (s3, c3, v) := s2.dmaRead errs x.owner (xDev d) (xLen d)
      if c3 ≠ 0 then s3.finishCode e c3 0
      else
        let aad := sliceB host.data 0 (xAadLen d)
        let iv := gcmIv (xSlot d) k ctr
        let msg := Crypto.gcmCrypt k.key iv v
        (s3.toHost x.owner (xHost d + xAadLen d) (xT d) msg).finish e
          ⟨0, xLen d, iv, Crypto.gcmTag k.key iv aad msg⟩
def execDmaGcmOut (e : Nat) (host : HostRead) (errs : List ReadErr) (s : State) : Host.Outcome State Fault Refusal :=
  .next (s.gcmOut e host errs)

/-- R508: a run of whole units under the XTS keys of a slot. -/
def xtsRun (f : List Byte → List Byte → Nat → List Byte → List Byte) (key : List Byte) (unit : Nat) (v : List Byte) : List Byte :=
  let x := Crypto.kdf key (ascii "SZT60-MEMX") (leBytes 1 0xFF) 768
  let l := chunksOf 256 v.length v
  (List.zip (List.range l.length) l).flatMap fun y => f (x.take 32) ((x.drop 32).take 32) (unit + y.1) y.2

/-- R508: XTS_IN. -/
def State.xtsIn (s : State) (e : Nat) (host : HostRead) (errs : List ReadErr) : State :=
  s.dmaForm e 4 fun s x =>
    let d := x.bytes
    let (s1, c) := s.cipherOk e x false
    if c ≠ 0 then s1.finishCode e c 0
    else if host.status ≠ 0 then s1.finishCode e 0x22 0
    else
      let key := (s1.key (xSlot d)).key
      let (s2, _) := s1.useKey (xSlot d)
      let (s3, ok) := s2.writeRun errs x.owner false true (xDev d) (xtsRun Crypto.xtsDec key (xUnit d) (sliceB host.data 0 (xLen d)))
      s3.finishCode e (if ok then 0 else 0x2B) (xLen d)
def execDmaXtsIn (e : Nat) (host : HostRead) (errs : List ReadErr) (s : State) : Host.Outcome State Fault Refusal :=
  .next (s.xtsIn e host errs)

/-- R508: XTS_OUT. -/
def State.xtsOut (s : State) (e : Nat) (errs : List ReadErr) : State :=
  s.dmaForm e 5 fun s x =>
    let d := x.bytes
    let (s1, c) := s.cipherOk e x true
    if c ≠ 0 then s1.finishCode e c 0
    else
      let key := (s1.key (xSlot d)).key
      let (s2, _) := s1.useKey (xSlot d)
      let (s3, c3, v) := s2.dmaRead errs x.owner (xDev d) (xLen d)
      if c3 ≠ 0 then s3.finishCode e c3 0
      else (s3.toHost x.owner (xHost d) (xT d) (xtsRun Crypto.xtsEnc key (xUnit d) v)).finishCode e 0 (xLen d)
def execDmaXtsOut (e : Nat) (errs : List ReadErr) (s : State) : Host.Outcome State Fault Refusal := .next (s.xtsOut e errs)

/-! ## Lake forms (R611) -/

/-- Whether a Lake descriptor names a run of records of one of the partition's slots, in a Lake that lies where R447 admits it. -/
def State.lakeRun (s : State) (p : Nat) (d : List Byte) : Bool :=
  p != 0 && decide (xLakeSlot d < 2) && xLen d % 264 == 0 && decide (xDev d + xLen d / 264 ≤ s.slotN p) && s.lakeOk p

def State.lakeExport (s : State) (e : Nat) (errs : List ReadErr) : State :=
  s.dmaForm e 6 fun s x =>
    let (p, d) := (x.owner, x.bytes)
    let j := xLakeSlot d
    if !s.lakeRun p d ∨ (s.slotState p j ≠ 2 ∧ s.slotState p j ≠ 3) then s.finishCode e 0x2C 0
    else
      let (s1, r) := s.readPairs errs p ((List.range (xLen d / 264)).map fun i => s.lakePlace p j (xDev d + i))
      let v := r.pairs.flatMap fun y => y.1 ++ y.2
      (s1.toHost p (xHost d) (xT d) v).finishCode e 0 (xLen d)
def execDmaLakeExport (x : LakeExport) (s : State) : Host.Outcome State Fault Refusal := .next (s.lakeExport x.engine x.errs)

/-- An import that fails after its first descriptor leaves no slot. -/
def State.importFail (s : State) (e p j first code : Nat) : State :=
  (if first = 0 then s else s.setSlot p j 5).finishCode e code 0

def State.lakeImport (s : State) (e : Nat) (host : HostRead) : State :=
  s.dmaForm e 7 fun s x =>
    let (p, d) := (x.owner, x.bytes)
    let j := xLakeSlot d
    let first := xDev d
    if p = 0 ∨ 2 ≤ j then s.finishCode e 0x2C 0
    else if !s.lakeRun p d || !s.ckpIdle p || (first != 0 && (s.slotState p j != 1 || (s.lake p).imported.getD j 0 != first)) then
      s.importFail e p j first 0x2C
    else if host.status ≠ 0 then s.importFail e p j first 0x22
    else
      let l := (List.range (xLen d / 264)).map fun i => (sliceB host.data (264 * i) 256, sliceB host.data (264 * i + 256) 8)
      let s1 := if first = 0 then (s.setLake p { s.lake p with leaves := put2 (s.lake p).leaves j [] }).setSlot p j 1 else s
      let s2 := s1.fetchSectors p j first l
      let next := first + l.length
      let s3 := s2.setLake p { s2.lake p with imported := put2 (s2.lake p).imported j next }
      let s4 := if next = s3.slotN p then
          (s3.setLake p { s3.lake p with root := put2 (s3.lake p).root j (rootOf ((s3.lake p).leaves.getD j [])) }).setSlot p j 4
        else s3
      s4.finishCode e 0 (xLen d)
def execDmaLakeImport (e : Nat) (host : HostRead) (s : State) : Host.Outcome State Fault Refusal := .next (s.lakeImport e host)

/-! ## The end of a descriptor -/

/-- R612: the completion record of a descriptor. -/
def doneRec (d : List Byte) (r : DmaEnd) : List Byte :=
  leBytes 1 r.code ++ leBytes 1 (xForm d) ++ leBytes 2 0 ++ leBytes 4 r.moved ++ sliceB r.iv 0 12 ++ leBytes 12 0 ++ sliceB r.tag 0 16

/-- R612, R613: the oldest descriptor of an engine ends: its completion record, its completion write, its packet. A descriptor
of an undefined form ends here too (R609). -/
def State.descDone (s : State) (e : Nat) : State :=
  let s := s.dmaForm e 8 fun s _ => s
  match s.dma e with
  | [] => s
  | x :: t =>
    match x.fin with
    | none => s
    | some r =>
      if s.halted then s
      else
        let d := x.bytes
        let s1 := (s.setDma e t).sepiaRec (unitDma e) 0x31 x.owner r.code
        let s2 := if x.crec = 0 ∨ (x.owner ≠ 0 ∧ !s1.tdiRun x.owner) then s1 else s1.toHost x.owner x.crec (xT d || xPlain d) (doneRec d r)
        let core := leAt d 54 1 % 128
        let s3 := if r.code = 0 ∧ xCw d ∧ x.owner ≠ 0 ∧ core < s2.ncores x.owner then
          s2.ringProdW x.owner (ringIdx core (leAt d 55 1 % 16)) (leAt d 56 4) else s2
        (s3.updBuf x.owner x.queue x.buf fun b =>
          let b' : CmdBuf := { b with dmaOpen := b.dmaOpen - 1 }
          if r.code = 0 then b' else b'.fail r.code).settle x.owner
def execDmaDescComplete (e : Nat) (s : State) : Host.Outcome State Fault Refusal := .next (s.descDone e)

end Sys2Proof.Machine
end

