-- ==== Sys2Proof/Machine/Images.lean ====
section
/-! DEFINITION. The boot images in flash, the tested list and the running set (R693 to R697). Types: 1 keeper, 2 management, 3 sequencer
microcode, 4 NME firmware, 5 tested list. -/

namespace Sys2Proof.Machine

/-- A flash copy of a type. -/
def State.flashFile (s : State) (t copy : Nat) : List Byte :=
  match SMap.get (fun _ => none) s.flash (2 * t + copy) with
  | some f => f
  | none => Config.shipped (2 * t + copy)

/-- R693: fields of the header, and the payload. -/
def imgType (f : List Byte) : Nat := leAt f 4 1
def imgVersion (f : List Byte) : Nat := leAt f 8 4
def imgDigest (f : List Byte) : List Byte := sliceB f 16 48
def imgPayload (f : List Byte) : List Byte := (f.drop 4864).take (leAt f 12 4)

/-- R694. -/
def imgValid (t : Nat) (f : List Byte) : Bool :=
  leAt f 0 4 == 0x4D495A53 && imgType f == t && leAt f 5 1 == 1 && Crypto.sha384 (imgPayload f) == imgDigest f &&
    Config.imageSig 0 (Crypto.sha384 (f.take 64)) (sliceB f 64 96) && Config.imageSig 1 (f.take 64) (sliceB f 160 4627)

/-- R695: the copy of an image that boots. -/
def State.bootCopy (s : State) (t : Nat) : Option Nat :=
  let act := b2n (bitOf s.flashActive (t - 1))
  if bitOf s.flashPending (t - 1) && imgValid t (s.flashFile t (1 - act)) then some (1 - act)
  else if imgValid t (s.flashFile t act) then some act
  else none

/-- R696: the copy of the tested list in use: the valid one with the higher `LISTVER`. -/
def listVersion (f : List Byte) : Nat := leAt (imgPayload f) 0 4
def State.listCopy (s : State) : Option Nat :=
  let a := s.flashFile 5 0
  let b := s.flashFile 5 1
  if imgValid 5 a then (if imgValid 5 b ∧ listVersion a < listVersion b then some 1 else some 0)
  else if imgValid 5 b then some 1 else none

/-- R696: the entries of a list's payload. -/
def listEntries (payload : List Byte) : List (List Byte) :=
  (List.range (leAt payload 4 4)).map fun i => sliceB payload (8 + 32 * i) 32

/-- R697: component `c` of an entry. -/
def entryComp (e : List Byte) (c : Nat) : Nat := if c = 0 then leAt e 4 2 else leAt e (4 * c + 4) 4

/-- The identifier of the first entry that matches all six components, or the untested pair. -/
def matchSet (comps : List Nat) (l : List (List Byte)) : Except (Nat × Nat) Nat :=
  let hit (e : List Byte) (c : Nat) : Bool := entryComp e c == comps.getD c 0
  match l.find? fun e => (List.range 6).all (hit e) with
  | some e => .ok (leAt e 0 4)
  | none =>
    let pairs := (List.range 6).flatMap fun i => (List.range 6).filterMap fun j => if i < j then some (i, j) else none
    .error ((pairs.find? fun x => !l.any fun e => hit e x.1 && hit e x.2).getD (0xF, 0xF))

/-- The digest of what runs, by type (R515, R698). -/
def State.runDigest (s : State) (t : Nat) : List Byte :=
  imgDigest (s.flashFile t (b2n (bitOf (s.fget Reg.GLB_BOOT_STAT Fld.GLB_BOOT_STAT_COPY) (t - 1))))

end Sys2Proof.Machine
end

