-- ==== Sys2Proof/Machine/Metering.lean ====
section
/-! DEFINITION. The keeper's seeds (R510), and metering: the clocks, closes, sealed records and clock sets of R756 to R762. -/

namespace Sys2Proof.Machine

/-! ## Seeds (R510) -/

def State.rootOk (s : State) : Bool := s.flag Reg.KEY_ROOT_STAT Fld.KEY_ROOT_STAT_ROOT_OK

/-- R510: the identity seed. -/
def identitySeed : List Byte := Crypto.kdf Config.rootSecret (ascii "SZT60-DEVID") Config.uniqueSecret 384

/-- R567: measurement 6. -/
def State.measure6 (s : State) : List Byte :=
  leBytes 4 (s.rn Reg.GLB_FWSET) ++ leBytes 4 (s.rn Reg.GLB_LIST_VER) ++ leBytes 1 (b2n (s.rn Reg.GLB_FWSET != 0xFFFFFFFF)) ++ leBytes 7 0

/-- R510: the alias seed. -/
def State.aliasSeed (s : State) : List Byte := Crypto.kdf identitySeed (ascii "SZT60-ALIAS") (Crypto.sha384 s.measure6) 384

/-- R514: the two signatures over a message under the alias keys, by ECDSA P-384 (over its SHA-384) and ML-DSA-87. -/
def State.aliasSigs (s : State) (m : List Byte) : List Byte × List Byte :=
  (sliceB (Config.sign s.aliasSeed 0 (Crypto.sha384 m)) 0 96, sliceB (Config.sign s.aliasSeed 1 m) 0 4627)

/-- R516: a request of the random bit generator: 64 bytes. -/
def State.draw (s : State) : State × List Byte :=
  ({ s with keeper := { s.keeper with draws := s.keeper.draws + 1, sinceSeed := s.keeper.sinceSeed + 1 } },
    sliceB (Config.drbg s.keeper.draws) 0 64)

/-! ## Clocks -/

/-- R757: the RTC and `MTR_MONO`, in ms. -/
def State.rtc (s : State) : Nat := unsigned 64 (s.mtr.rtcOfs + (s.now / 100000 : Nat))
def State.mono (s : State) : Nat := (s.mtr.monoOfs + s.now / 100000) % 2 ^ 64

def State.irqMtr (s : State) (f : Fld) : State := s.irq 0 10 Reg.MTR_INT_STATUS Reg.MTR_INT_EN f.mask

/-- The open period's meters of partition `p` (R756), in the order BEATS, MEM, TX, RX. -/
def State.meterOf (s : State) (p kind : Nat) : Nat := SMap.get (fun _ => 0) s.meters (4 * p + kind)

/-! ## Closes -/

/-- R758: bytes 0 to 191 of the open period's record, were it closed now. -/
def State.closeRecord (s : State) (reason : Nat) : List Byte :=
  leBytes 4 0x4352544D ++ leBytes 4 (s.rn Reg.MTR_PERIOD) ++ leBytes 8 s.mtr.rtcOpen ++ leBytes 8 s.rtc ++
  leBytes 8 s.mtr.monoOpen ++ leBytes 8 s.mono ++ leBytes 1 reason ++ leBytes 1 s.mtr.flags ++ leBytes 2 s.mtr.setCnt ++
  leBytes 1 (allParts.filter fun p => s.nquad p != 0).length ++ leBytes 3 0 ++
  (allParts.flatMap fun p => (List.range 4).flatMap fun k => leBytes 8 (s.meterOf p k)) ++ leBytes 4 (s.rn Reg.GLB_FWSET) ++
  leBytes 12 0

/-- R757: a record joins those that await sealing, and the next period opens at its `RTC_CLOSE`. -/
def State.closeWith (s : State) (rec_ : List Byte) : State :=
  let s1 := { s with
    mtr := { s.mtr with rtcOpen := leAt rec_ 16 8, monoOpen := leAt rec_ 32 8, flags := 0, setCnt := 0, closed := s.mtr.closed ++ [rec_], snap := none }
    meters := [] }
  ((s1.wn Reg.MTR_PERIOD (s.rn Reg.MTR_PERIOD + 1)).fput Reg.MTR_STAT Fld.MTR_STAT_SEALING 1).platEvent 7 (s.rn Reg.MTR_PERIOD)

/-- R757: the record that a close of this cycle made, with the rest that await sealing. -/
def State.closedNow (s : State) : Option (List (List Byte) × List Byte) :=
  if s.mtr.closeAt = some s.now then s.mtr.closed.getLast?.map fun r => (s.mtr.closed.dropLast, r) else none

/-- R757: a close for a reason. Of several in one cycle one runs, with the lowest code. -/
def State.meterClose (s : State) (reason : Nat) : State :=
  match s.closedNow with
  | some (l, r) => { s with mtr := { s.mtr with closed := l ++ [r.take 40 ++ leBytes 1 (min reason (leAt r 40 1)) ++ r.drop 41] } }
  | none =>
    let s1 := s.closeWith (s.closeRecord reason)
    { s1 with mtr := { s1.mtr with closeAt := some s1.now } }

/-- R757, reason 3. -/
def State.tenancyClose (s : State) : State := if s.flag Reg.MTR_CTRL Fld.MTR_CTRL_TENANCY then s.meterClose 3 else s

/-- R757, reason 1. A period that closed in this cycle had its own opening. -/
def State.scheduleClose (s : State) : State :=
  let m := 60000 * s.fget Reg.MTR_CTRL Fld.MTR_CTRL_PERIOD_MIN
  let opened := match s.closedNow with | some (_, r) => leAt r 8 8 | none => s.mtr.rtcOpen
  if m = 0 ∨ s.rtc < (opened / m + 1) * m then s else s.meterClose 1
def execMeterCloseSchedule (s : State) : Host.Outcome State Fault Refusal := .next s.scheduleClose

/-- R757, reason 2, R767: a write of `MTR_CTRL`. -/
def State.mtrCtrlW (s : State) (v : Word) : State :=
  let s1 := s.regWrite Reg.MTR_CTRL v
  if Fld.MTR_CTRL_CLOSE.get v = 1 then s1.meterClose 2 else s1
def execMeterCloseOperator (r : RegReq) (v : Word) (s : State) : Host.Outcome State Fault Refusal :=
  .next (s.write r Reg.MTR_CTRL fun s => s.mtrCtrlW (Fld.MTR_CTRL_CLOSE.put v 1))

/-- R756: one ms of `MEM`, for every partition that is not EMPTY. -/
def State.memTick (s : State) : State :=
  let t := s.now / 100000
  if t ≤ s.mtr.memTick then s
  else
    let s1 := { s with mtr := { s.mtr with memTick := t } }
    allParts.foldl (fun (s : State) p => if s.partState p = 0 then s else s.meter p 1 (64 * s.nstacks p)) s1
def execMeterMemTick (s : State) : Host.Outcome State Fault Refusal := .next s.memTick

/-! ## Sealing -/

/-- R758, R759: the oldest closed record is sealed. -/
def State.recordSeal (s : State) : State :=
  match s.mtr.closed with
  | [] => s
  | c :: t =>
    let b := sliceB c 0 192 ++ sliceB s.mtr.prev 0 48
    let (ec, pq) := if s.rootOk then s.aliasSigs b else (leBytes 96 0, leBytes 4627 0)
    let r := b ++ ec ++ pq ++ leBytes 157 0
    let s1 := { s with mtr := { s.mtr with closed := t, records := (r :: s.mtr.records).take 8, prev := Crypto.sha384 r } }
    let a := Reg.MTR_STAT
    (((s1.fput a Fld.MTR_STAT_SEALING (b2n !t.isEmpty)).fput a Fld.MTR_STAT_REC_VALID 1).fput a Fld.MTR_STAT_UNSIGNED
      (b2n !s.rootOk)).irqMtr Fld.MTR_INT_STATUS_CLOSED
def execRecordSeal (s : State) : Host.Outcome State Fault Refusal := .next s.recordSeal

/-! ## Clock sets -/

/-- R761: a keyed write of `MTR_RTC_CTRL.SET`. A SCHEDULE close of its cycle takes the old time and comes first. -/
def State.rtcSet (s : State) (v : Word) : State :=
  if Fld.MTR_RTC_CTRL_KEY.get v ≠ 0x5254 ∨ Fld.MTR_RTC_CTRL_SET.get v ≠ 1 then s
  else
    let s := if s.closedNow.isSome then s else s.scheduleClose
    let old := s.rtc
    let new := s.rd64 Reg.MTR_RTC_SET_LO
    let i := s.fget Reg.MTR_SETLOG_STAT Fld.MTR_SETLOG_STAT_NEXT
    let s1 := (((s.wr64 (Reg.MTR_SETLOG_OLD_LO i) old).wr64 (Reg.MTR_SETLOG_NEW_LO i) new).wr64 (Reg.MTR_SETLOG_MONO_LO i) s.mono).wn
      (Reg.MTR_SETLOG_PERIOD i) (s.rn Reg.MTR_PERIOD)
    let s2 := (s1.fput Reg.MTR_SETLOG_STAT Fld.MTR_SETLOG_STAT_NEXT (i + 1)).bump Reg.MTR_SETLOG_STAT Fld.MTR_SETLOG_STAT_TOTAL 1
    { s2 with mtr := { s2.mtr with
        rtcOfs := (new : Int) - (s.now / 100000 : Nat), flags := s2.mtr.flags ||| (if new < old then 1 else 2)
        setCnt := satAdd 16 s2.mtr.setCnt 1 } }.irqMtr Fld.MTR_INT_STATUS_SET
def execRtcSet (r : RegReq) (v : Word) (s : State) : Host.Outcome State Fault Refusal :=
  .next (s.write r Reg.MTR_RTC_CTRL fun s => s.rtcSet v)

end Sys2Proof.Machine
end

