-- ==== Sys2Proof/Machine/Tenancy.lean ====
section
/-! DEFINITION. Partitions: layouts (R558 to R561), admission (R564), removal (R570 to R575), the interface states of TDISP
(R562, R563, R565, R566), attestation (R512 to R515, R567), sessions (R577) and the report of a Mordant exchange (R582). -/

namespace Sys2Proof.Machine

/-! ## Shared steps -/

/-- The state of a partition, in `PRT_STATE_n` and `TKEY_PART` (R589, R593). -/
def State.setPart (s : State) (p st tdi : Nat) : State :=
  let a := Reg.PRT_STATE p
  (s.wr a (Fld.PRT_STATE_TDI.put (Fld.PRT_STATE_STATE.put (s.rd a) st) tdi)).fput (Reg.TKEY_PART p) Fld.TKEY_PART_STATE st
def State.setJoint (s : State) (p v : Nat) : State :=
  (s.fput (Reg.PRT_STATE p) Fld.PRT_STATE_JOINT v).fput (Reg.TKEY_PART p) Fld.TKEY_PART_JOINT v

/-- R591: an event of partition `p` in the group of status bits that begins at `base`. -/
def State.irqPrt (s : State) (base p : Nat) : State := s.irq 0 8 Reg.PRT_INT_STATUS Reg.PRT_INT_EN (2 ^ (base + p - 1))

/-- R490, R525: a partition's epoch rises. -/
def State.raiseEpoch (s : State) (p : Nat) : State :=
  let e := s.rn (Reg.KEY_PEPOCH p) + 1
  (((s.wn (Reg.KEY_PEPOCH p) e).wn (Reg.TKEY_PEPOCH p) e).keyAlert p 4).keyAlert 0 4

/-- R559: the registers of VF `p` that show its share of the layout. -/
def State.showShare (s : State) (p : Nat) : State :=
  let n := if s.nquad p = 0 then 0 else s.parts
  ((s.fput (Reg.FEN_COUNT p) Fld.FEN_COUNT_COUNT (if n = 0 then 0 else 65536 / n)).fput (Reg.SEQ_ISRAM p) Fld.SEQ_ISRAM_PMAX
    (if n = 0 then 0 else 262144 / n)).wr (Reg.COL_DYN_STAT p)
      (Fld.COL_DYN_STAT_FREE.put (Fld.COL_DYN_STAT_OWN.put 0 (if n = 0 then 0 else 16 / n)) (if n = 0 then 0 else 16 / n))

/-- Every VF register of a partition at its reset value, and what the partition's engines hold beside them gone (R564 step 5, R571
step 10). With `keep`, fence records of work that the removal ended stay. The epoch and the state, which `TKEY` only shows,
stand. -/
def State.vfReset (s : State) (p : Nat) (keep : Bool) : State :=
  let rng (n : Nat) (e : Nat) : Bool := decide (n * p ≤ e ∧ e < n * (p + 1))
  let gone (e : Nat × Word) : Bool := rng 268435456 e.1 &&
    !(keep && decide (Reg.FEN_F p 0 ≤ e.1 ∧ e.1 < Reg.FEN_F p 65536) && Fld.FEN_F_ERR.get e.2 == 0x28)
  let s1 := { s with
    regs := s.regs.filter fun e => !gone e
    shadows := s.shadows.filter fun e => !rng 4294967296 e.1
    seqs := SMap.erase s.seqs p
    upds := SMap.erase s.upds p
    lakes := SMap.erase s.lakes p
    wins := SMap.erase s.wins p
    arbs := SMap.erase s.arbs p
    ccs := s.ccs.filter fun e => !rng 8 e.1
    launches := s.launches.filter fun e => !rng 65536 e.1
    queues := s.queues.filter fun e => !rng 64 e.1
    counts := s.counts.filter fun e => !rng 16 e.1
    ringAdv := s.ringAdv.filter fun e => !rng 2048 e.1
    nmeXfers := s.nmeXfers.filter fun x => x.part != p
    keeper := { s.keeper with
      waiting := s.keeper.waiting.filter fun (c : MailCmd) => c.box != p + 1
      binds := s.keeper.binds.filter fun (b : LakeBind) => b.part != p } }
  let s2 := (List.range 8).foldl (fun (s : State) k =>
    s.setStk k { s.stk k with
      queue := (s.stk k).queue.filter fun r => r.part != p, backlog := (s.stk k).backlog.filter fun r => r.part != p }) s1
  (((s2.showShare p).wn (Reg.TKEY_PEPOCH p) (s.rn (Reg.KEY_PEPOCH p))).fput (Reg.TKEY_PART p) Fld.TKEY_PART_STATE (s.partState p)).fput
    (Reg.TKEY_PART p) Fld.TKEY_PART_JOINT (s.fget (Reg.PRT_STATE p) Fld.PRT_STATE_JOINT)

/-- R571 step 9, R687: zero over the arrays of the physical cores from `lo` up to `hi`. -/
def Cores.wipe (c : Cores) (lo hi : Nat) : Cores := { c with
  sram := SMap.clear c.sram (8388608 * lo) (8388608 * hi)
  acc := SMap.clear c.acc (262144 * lo) (262144 * hi)
  accCls := SMap.clear c.accCls (2048 * lo) (2048 * hi)
  planes := SMap.clear c.planes (16 * lo) (16 * hi)
  vreg := SMap.clear c.vreg (32768 * lo) (32768 * hi)
  replay := SMap.clear c.replay (32768 * lo) (32768 * hi)
  runs := SMap.clear c.runs (16 * lo) (16 * hi)
  fills := SMap.clear c.fills (8 * lo) (8 * hi)
  ueWords := SMap.clear c.ueWords (1048576 * lo) (1048576 * hi) }

/-- R564 step 4, R571 step 9, R778: the cores, the Sepia rings of a partition's units, and its entries in every other ring. -/
def State.wipeCores (s : State) (p : Nat) : State := { s with
  cores := s.cores.wipe (34 * s.quad0 p) (34 * (s.quad0 p + s.nquad p))
  sepia := (s.sepia.map fun e => (e.1, e.2.filter fun x => s.ringPart e.1 != p && x.owner != p)).filter fun e => !e.2.isEmpty }

/-- R293, R688: WIPE over every sector of a stack. -/
def State.wipeStack (s : State) (k : Nat) : State :=
  { s with dram := SMap.clear s.dram (k * 2 ^ 37) ((k + 1) * 2 ^ 37), poison := SMap.clear s.poison (k * 2 ^ 28) ((k + 1) * 2 ^ 28) }.fput
    (Reg.MEM_POISON_COUNT k) Fld.MEM_POISON_COUNT_COUNT 0

def State.stacksOf (s : State) (p : Nat) : List Nat := (List.range (s.nstacks p)).map (s.stack0 p + ·)
def State.stkState (s : State) (k : Nat) : Nat := s.fget (Reg.MEM_STK_STAT k) Fld.MEM_STK_STAT_STATE

/-- Whether the partition's memory can be wiped: every stack answers (R575). -/
def State.wipable (s : State) (p : Nat) : Bool := (s.stacksOf p).all fun k => s.stkState k == 2
/-- The wipes of an admission (owner 0) or a removal (owner `p`) finish in memory last (R564, R571, R776). -/
def State.wipePart (s : State) (p owner : Nat) : State :=
  (s.stacksOf p).foldl (fun (s : State) k => s.sepiaRec (unitNme k) 0x41 owner 0) (((s.stacksOf p).foldl State.wipeStack s).wipeCores p)

/-- The streams bound to a VF (R637). -/
def State.streamsOf (s : State) (p : Nat) : List Nat :=
  (List.range 4).filter fun i => s.fget (Reg.HST_IDE i) Fld.HST_IDE_VF == p

/-- A stream of a VF leaves the Secure state (R546, R636). -/
def State.insecure (s : State) (i : Nat) : State :=
  if s.flag (Reg.HST_IDE i) Fld.HST_IDE_SECURE then
    (s.fput (Reg.HST_IDE i) Fld.HST_IDE_SECURE 0).irq 0 6 Reg.HST_INT_STATUS Reg.HST_INT_EN (2 ^ (i + 8))
  else s

/-! ## Layouts -/

/-- R558, R590: what `PRT_MAP_n` shows under layout `P`. -/
def mapWord (parts n : Nat) : Word :=
  if parts < n then 0
  else
    let q := 4 / parts
    let q0 := (n - 1) * q
    Fld.PRT_MAP_CORE_BASE.put (Fld.PRT_MAP_STKMASK.put (Fld.PRT_MAP_NQUAD.put (Fld.PRT_MAP_QUAD0.put 0 q0) q)
      ((2 ^ (2 * q) - 1) * 2 ^ (2 * q0))) (32 * q0)

/-- R373: word `w` of a port's transmit entries under layout `P`; entry 0 belongs to no partition. -/
def slotWord (parts w : Nat) : Nat :=
  (List.range 8).foldl (fun x j =>
    let e := 8 * w + j
    if e = 0 ∨ 64 < e then x else x + ((e - 1) % parts + 1) * 2 ^ (4 * j)) 0

/-- R560: a write of `PRT_LAYOUT`. -/
def State.layoutW (s : State) (v : Word) : State :=
  let n := Fld.PRT_LAYOUT_PARTS.get v
  if !(allParts.all fun p => s.partState p == 0) then s.setBits Reg.PRT_STATUS Fld.PRT_STATUS_WR_REJECT.mask
  else if n = 1 ∨ n = 2 ∨ n = 4 then
    let s1 := s.fput Reg.PRT_LAYOUT Fld.PRT_LAYOUT_PARTS n
    let s2 := allParts.foldl (fun (s : State) p => (s.raiseEpoch p).wr (Reg.PRT_MAP p) (mapWord n p)) s1
    let s3 := allParts.foldl State.showShare (allParts.foldl State.dropBindings (allParts.foldl State.dropStale s2))
    (List.range 16).foldl (fun (s : State) port =>
      (List.range 9).foldl (fun (s : State) w => s.wn (Reg.LL_SLOT port w) (slotWord n w)) s) s3
  else s
def execLayoutWrite (r : RegReq) (v : Word) (s : State) : Host.Outcome State Fault Refusal :=
  .next (s.write r Reg.PRT_LAYOUT fun s => s.layoutW v)

/-! ## Admission -/

def State.tenancy (s : State) (p : Nat) : Tenancy := SMap.get (fun _ => {}) s.tenancies p
def State.setTenancy (s : State) (p : Nat) (t : Tenancy) : State :=
  { s with tenancies := SMap.set (fun _ => {}) s.tenancies p t }

/-- R560, R561, R564, R715: `ASSIGN`. -/
def State.assign (s : State) (p : Nat) : State :=
  if s.flag Reg.PRT_STATUS Fld.PRT_STATUS_LAYOUT_BUSY ∨ s.nquad p = 0 ∨ s.partState p ≠ 0 ∨ s.flag Reg.LCS_STAT Fld.LCS_STAT_BUSY then
    s.setBits Reg.PRT_STATUS Fld.PRT_STATUS_ASSIGN_REJECT.mask
  else (s.setPart p 1 0).tenancyClose
def execAssign (r : RegReq) (p : Nat) (s : State) : Host.Outcome State Fault Refusal :=
  .next (s.write r (Reg.PRT_CTRL p) fun s => s.assign p)

/-- R564, steps 3 to 5. -/
def State.admitted' (s : State) (p : Nat) : State :=
  if s.partState p ≠ 1 ∨ !s.wipable p then s
  else (((s.wipePart p 0).vfReset p false).setPart p 2 0).irqPrt 4 p
def execAdmissionComplete (p : Nat) (s : State) : Host.Outcome State Fault Refusal := .next (s.admitted' p)

/-! ## Removal -/

/-- R573: the notice of a removal; its bytes are the model's. -/
def removedNotice (p epoch : Nat) : List Byte := leBytes 1 p ++ leBytes 4 epoch

/-- R784, R795: a dump (0 the operator's, else of that partition) begins or ends. -/
def State.setDump (s : State) (n : Nat) (on : Bool) : State :=
  let m := 2 ^ n
  let d := if on then s.dumps ||| m else s.dumps - (s.dumps &&& m)
  let s1 := { s with dumps := d }.fput Reg.DBG_DUMP_STAT Fld.DBG_DUMP_STAT_BUSY (b2n (d != 0))
  if n = 0 then s1 else s1.fput (Reg.TDBG_DUMP_STAT n) Fld.TDBG_DUMP_STAT_BUSY (b2n on)

/-- R785, R795: the tenant dump of a partition ends with a code, 0 for success. -/
def State.endDump (s : State) (p code : Nat) (trunc : Bool) : State :=
  let a := Reg.TDBG_DUMP_STAT p
  let s1 := (s.setDump p false).fput Reg.DBG_DUMP_STAT Fld.DBG_DUMP_STAT_PART_DONE
    (s.fget Reg.DBG_DUMP_STAT Fld.DBG_DUMP_STAT_PART_DONE ||| 2 ^ (p - 1))
  let s2 := (s1.fput a Fld.TDBG_DUMP_STAT_ERR code).fput a Fld.TDBG_DUMP_STAT_TRUNC (b2n trunc)
  let f := s.fget (Reg.TDBG_DUMP_CFG p) Fld.TDBG_DUMP_CFG_FENCE
  if code = 0 then s2.fenceSignal p f else s2.fenceError p f code

/-- R786: a removal ends the partition's dump. -/
def State.stopDump (s : State) (p : Nat) : State := if bitOf s.dumps p then s.endDump p 0x28 false else s

/-- R570: a trigger that meets another of the same cycle records the lower cause. -/
def State.lowerCause (s : State) (p cause : Nat) : State :=
  let a := Reg.PRT_STATE p
  if s.partState p = 5 ∧ (s.tenancy p).rmAt = s.now ∧ cause < s.fget a Fld.PRT_STATE_CAUSE then s.fput a Fld.PRT_STATE_CAUSE cause else s

/-- R570, R571: steps 1 to 7 of the removal of a partition, for a cause. -/
def State.startRemoval (s : State) (p cause : Nat) : State :=
  if s.partState p = 0 ∨ s.partState p = 5 then s.lowerCause p cause
  else
    let s1 := (((s.setPart p 5 0).fput (Reg.PRT_STATE p) Fld.PRT_STATE_CAUSE cause).raiseEpoch p).setTenancy p { rmAt := s.now }
    let s2 := { s1 with keeper := { s1.keeper with sessions := s1.keeper.sessions.filter fun (x : Session) => x.part != p } }
    let s3 := (s1.streamsOf p).foldl State.insecure s2
    let ports := (List.range 16).filter fun n => s.flag (Reg.LL_BIND n p) Fld.LL_BIND_VALID
    let s4 := ports.foldl (fun (s : State) n => s.sendSpdm n (removedNotice p (s.rn (Reg.KEY_PEPOCH p)))) s3
    let s5 := (s4.dropStale p).dropBindings p
    let s6 := (List.range 16).foldl (fun (s : State) e => s.setDma e ((s.dma e).filter fun d => d.owner != p)) s5
    let s7 := ((s6.failBufs p (fun _ => true) 0x28).ckpAbort p).stopDump p
    let l := s7.lake p
    let s8 := match l.pull with
      | some (_, j) => s7.setSlot p j 5
      | none => s7
    ((((s8.setLake p { l with drain := none, serve := none, pull := none }).fput (Reg.CKP_STATUS p) Fld.CKP_STATUS_SERVE_BUSY 0).fput
      (Reg.CKP_STATUS p) Fld.CKP_STATUS_PULL_BUSY 0).showDrain p).irqPrt 12 p

/-- R571 steps 8 to 10, R575, R684. -/
def State.removalDone (s : State) (p : Nat) : State :=
  if s.partState p ≠ 5 then s
  else if !s.wipable p then s.fput (Reg.PRT_STATE p) Fld.PRT_STATE_WIPE_FAIL 1
  else
    let s1 := ((s.wipePart p p).setJoint p 0).setPart p 0 0
    let s2 := { s1 with keeper := { s1.keeper with
      shares := s1.keeper.shares.filter fun (x : Share) => x.part != p
      mordant := s1.keeper.mordant.filter fun (x : Mordant) => x.part != p } }
    let s3 := (s2.vfReset p true).irqPrt 0 p
    let s4 := (s3.fput (Reg.PRT_RM_TIME p) Fld.PRT_RM_TIME_US ((s.now - (s.tenancy p).rmAt) / 100)).setTenancy p {}
    let s5 := s4.tenancyClose
    { s5 with crs := s5.crs - (s5.crs &&& (2 ^ p + 2 ^ (8 + p))) }
def execRemovalComplete (p : Nat) (s : State) : Host.Outcome State Fault Refusal := .next (s.removalDone p)

/-- R573: the peer's keeper reports the removal of its partition `peer`. -/
def State.noticeIn (s : State) (n peer : Nat) : State :=
  allParts.foldl (fun (s : State) m =>
    let b := Reg.LL_BIND n m
    if s.flag b Fld.LL_BIND_VALID ∧ s.fget b Fld.LL_BIND_PEER_END = peer then
      let s1 := (s.fput b Fld.LL_BIND_VALID 0).setBits (Reg.TKEY_PEER_LOST m) (2 ^ n)
      if s1.flag (Reg.TKEY_PEER_LOST_EN m) Fld.TKEY_PEER_LOST_EN_EN then s1.emit (.msix m 6) else s1
    else s) s
def execPartitionRemovedNotice (n peer : Nat) (s : State) : Host.Outcome State Fault Refusal := .next (s.noticeIn n peer)

/-- The partitions of the set that are neither EMPTY nor DRAINING, as a mask of bits 1 to 4. -/
def State.removable (s : State) (l : List Nat) : List Nat := l.filter fun p => s.partState p != 0 && s.partState p != 5

/-- R570, R684: Function Level Reset of PF0 (0) or of a VF. -/
def State.flr (s : State) (fn : Nat) : State :=
  if fn = 0 then
    let l := s.removable allParts
    let s1 := allParts.foldl (fun (s : State) p => s.startRemoval p 6) { s with mse := false, vfs := 0 }
    { s1 with crs := l.foldl (fun x p => x ||| 2 ^ p) s1.crs }
  else if s.removable [fn] = [] then s.startRemoval fn 5
  else { s.startRemoval fn 5 with crs := s.crs ||| 2 ^ (8 + fn) }
def execFunctionLevelReset (fn : Nat) (s : State) : Host.Outcome State Fault Refusal := .next (s.flr fn)

/-- R570: a clear of VF Enable. -/
def State.vfDisable (s : State) : State := allParts.foldl (fun (s : State) p => s.startRemoval p 6) { s with vfs := 0 }
def execVfEnableClear (s : State) : Host.Outcome State Fault Refusal := .next s.vfDisable

/-- R684: whether a function answers configuration requests with CRS. -/
def State.crsFor (s : State) (fn : Nat) : Bool := s.crs % 32 != 0 || bitOf s.crs (8 + fn)

/-! ## SPDM and TDISP -/

def State.spdm (s : State) (fn code : Nat) (v : List Byte) : State := s.emit (.message fn 1 code v)
def State.tdisp (s : State) (fn code : Nat) (v : List Byte) : State := s.emit (.message fn 3 code v)
/-- An SPDM ERROR: 3 Busy, 5 unspecified, 10 session limit; a TDISP ERROR. -/
def State.spdmErr (s : State) (fn code : Nat) : State := s.spdm fn 0x7F (leBytes 1 code)
def State.tdispErr (s : State) (fn code : Nat) : State := s.tdisp fn 0x7F (leBytes 4 code)

def State.bootStage (s : State) : Nat := s.fget Reg.GLB_BOOT_STAT Fld.GLB_BOOT_STAT_STAGE
def State.service (s : State) : Bool := s.bootStage == 4

/-- R563, R692: a message on the DOE mailbox of a function (0: PF0 or a management interface) has effect `f` where the keeper
answers it, and is answered Busy elsewhere. -/
def State.doe (s : State) (fn : Nat) (f : State → State) : State :=
  let st := s.partState fn
  if s.bootStage ≠ 3 ∧ s.bootStage ≠ 4 then s.spdmErr fn 3
  else if fn = 0 ∨ st = 2 ∨ st = 3 ∨ st = 4 then f s
  else s.spdmErr fn 3

/-- R516: whether draws are possible. -/
def State.entropy (s : State) : Bool := s.flag Reg.KEY_ROOT_STAT Fld.KEY_ROOT_STAT_DRBG_OK

/-- R565. -/
def State.lockOk (s : State) (p : Nat) : Bool :=
  s.partState p == 2 && (s.streamsOf p).any (fun i => s.flag (Reg.HST_IDE i) Fld.HST_IDE_SECURE) && !s.service &&
    s.fget Reg.DBG_QUAD_STAT Fld.DBG_QUAD_STAT_QUAD_FAIL == 0
def State.lockIfc (s : State) (p : Nat) : State :=
  s.doe p fun s =>
    if !s.lockOk p then s.tdispErr p 4
    else if !s.entropy then s.tdispErr p 0x103
    else
      let (s1, v) := s.draw
      ((s1.setPart p 3 1).setTenancy p { s1.tenancy p with nonce := v.take 32 }).tdisp p 3 (v.take 32)
def execLockInterfaceRequest (p : Nat) (s : State) : Host.Outcome State Fault Refusal := .next (s.lockIfc p)

/-- R566. -/
def State.startIfc (s : State) (p : Nat) (nonce : List Byte) : State :=
  s.doe p fun s =>
    if s.partState p ≠ 3 then s.tdispErr p 4
    else if nonce ≠ (s.tenancy p).nonce then s.tdispErr p 0x102
    else (((s.setPart p 4 2).setTenancy p { s.tenancy p with nonce := [] }).irqPrt 8 p).tdisp p 6 []
def execStartInterfaceRequest (p : Nat) (nonce : List Byte) (s : State) : Host.Outcome State Fault Refusal :=
  .next (s.startIfc p nonce)

/-- R570, cause 4. -/
def State.stopIfc (s : State) (p : Nat) : State := s.doe p fun s => (s.startRemoval p 4).tdisp p 7 []
def execStopInterfaceRequest (p : Nat) (s : State) : Host.Outcome State Fault Refusal := .next (s.stopIfc p)

/-- R566: the ranges that the report lists: BAR number and bytes, then the MSI-X table's 8 entries (R595). -/
def State.ifcReport (s : State) (p : Nat) : State :=
  s.doe p fun s =>
    if s.partState p = 3 ∨ s.partState p = 4 then
      s.tdisp p 4 (leBytes 1 0 ++ leBytes 8 16777216 ++ leBytes 1 2 ++ leBytes 8 (s.memSize p) ++ leBytes 2 8)
    else s.tdispErr p 4
def execGetDeviceInterfaceReport (p : Nat) (s : State) : Host.Outcome State Fault Refusal := .next (s.ifcReport p)

/-! ### Attestation -/

/-- R515, R567: a measurement as function `fn` asks for it. -/
def State.measure (s : State) (fn idx : Nat) : List Byte :=
  if idx = 1 then sliceB Config.romDigest 0 48
  else if idx ≤ 5 then s.runDigest (idx - 1)
  else if idx = 6 then s.measure6
  else if idx = 7 then leBytes 4 (s.rn Reg.LCS_CODE) ++ leBytes 4 (s.rn Reg.KEY_ROOT_STAT)
  else leBytes 1 s.parts ++ leBytes 1 fn ++ leBytes 2 0 ++ leBytes 4 (if fn = 0 then 0 else s.rn (Reg.KEY_PEPOCH fn))

/-- R513: an identity exists. -/
def State.identOk (s : State) : Bool := s.flag Reg.KEY_ROOT_STAT Fld.KEY_ROOT_STAT_IDENT_OK

/-- GET_MEASUREMENTS: `idx` one index, 0 the number of them, 0xFF all; `tr` is the transcript that R514 signs, where asked. -/
def State.getMeas (s : State) (fn idx : Nat) (sig : Bool) (tr : List Byte) : State :=
  s.doe fn fun s =>
    if !s.identOk ∨ !s.rootOk then s.spdmErr fn 5
    else
      let l := if idx = 0xFF then (List.range 8).map (· + 1) else if 1 ≤ idx ∧ idx ≤ 8 then [idx] else []
      let body := if idx = 0 then leBytes 1 8 else l.flatMap fun i =>
        let v := s.measure fn i
        leBytes 1 i ++ leBytes 1 (if i ≤ 5 then 0 else 1) ++ leBytes 2 v.length ++ v
      let (ec, pq) := s.aliasSigs tr
      if l = [] ∧ idx ≠ 0 then s.spdmErr fn 1
      else s.spdm fn 0x60 (body ++ if sig then ec ++ pq else [])
def execGetMeasurements (fn idx : Nat) (sig : Bool) (tr : List Byte) (s : State) : Host.Outcome State Fault Refusal :=
  .next (s.getMeas fn idx sig tr)

/-- R512, R513: the chain of certificate slot 0 or 1. -/
def State.getCert (s : State) (fn slot : Nat) : State :=
  s.doe fn fun s =>
    if !s.identOk ∨ !s.rootOk ∨ 1 < slot then s.spdmErr fn 5
    else s.spdm fn 0x02 ((List.range 4).flatMap fun i =>
      Config.certificate slot i (if i < 2 then [] else if i = 2 then identitySeed else s.aliasSeed))
def execGetCertificate (fn slot : Nat) (s : State) : Host.Outcome State Fault Refusal := .next (s.getCert fn slot)

/-- R514, R577: KEY_EXCHANGE. `pq`: the request holds the ML-KEM element; the exchange gives the session the ID `id`, the export master secret
`secret`, and where the requester was authenticated the SHA-384 `cert` of its leaf certificate. -/
def State.keyExchange (s : State) (fn id : Nat) (pq : Bool) (secret cert : List Byte) : State :=
  s.doe fn fun s =>
    let held := s.keeper.sessions.filter fun (x : Session) => x.part == fn
    if !pq ∨ !s.identOk ∨ !s.rootOk ∨ !s.entropy ∨ (held.any fun x => x.id == id) then s.spdmErr fn 5
    else if fn ≠ 0 ∧ 8 ≤ held.length then s.spdmErr fn 10
    else
      let (s1, _) := s.draw
      { s1 with keeper := { s1.keeper with sessions := s1.keeper.sessions ++ [(⟨fn, id, secret, cert⟩ : Session)] } }.spdm fn 0x64
        (leBytes 4 id)
def execKeyExchange (fn id : Nat) (pq : Bool) (secret cert : List Byte) (s : State) : Host.Outcome State Fault Refusal :=
  .next (s.keyExchange fn id pq secret cert)

/-- What the keeper holds of a partition's Mordant exchange (R582). -/
def State.mordantOf (s : State) (p : Nat) : Mordant :=
  (s.keeper.mordant.find? fun (x : Mordant) => x.part == p).getD ⟨p, leBytes 32 0, 0, false, leBytes 8 0, []⟩
def State.setMordant (s : State) (m : Mordant) : State :=
  { s with keeper := { s.keeper with mordant := s.keeper.mordant.filter (fun (x : Mordant) => x.part != m.part) ++ [m] } }

/-- R582: MORDANT_REPORT in the session `id` of VF `p`. -/
def State.mordantReport (s : State) (p id : Nat) : State :=
  s.doe p fun s =>
    if !(s.keeper.sessions.any fun (x : Session) => x.part == p && x.id == id) ∨ !s.rootOk then s.spdmErr p 5
    else
      let m := s.mordantOf p
      let cert (i : Nat) : List Byte := match m.certs.find? fun c => c.1 == i with
        | some c => sliceB c.2 0 48
        | none => leBytes 48 0
      let v := sliceB m.job 0 32 ++ leBytes 1 m.count ++ leBytes 1 m.certs.length ++ leBytes 1 (b2n m.derived) ++ leBytes 1 0 ++
        sliceB m.kcv 0 8 ++ leBytes 4 (s.rn (Reg.KEY_PEPOCH p)) ++ (List.range 16).flatMap cert
      let (ec, pq) := s.aliasSigs v
      s.spdm p 0x7E (v ++ ec ++ pq)
def execMordantReport (p id : Nat) (s : State) : Host.Outcome State Fault Refusal := .next (s.mordantReport p id)

end Sys2Proof.Machine
end

