-- ==== Sys2Proof/Machine/Halt.lean ====
section
/-! DEFINITION. The halt (R49 to R51, R746, R748, R780) and tamper events (R40, R41, R485). -/

namespace Sys2Proof.Machine

/-- Every unit that has a Sepia ring (R774). -/
def allUnits : List Nat :=
  (List.range 136).flatMap (fun c => (List.range 10).map (unitOf c)) ++ allParts.map unitSeq ++ (List.range 8).map unitNme ++
    (List.range 16).map unitDma ++ (List.range 16).map unitPort

/-- R51: what the host interface has in hand ends HALTED; PF0's descriptors write completion records. -/
def State.haltHost (s : State) : State :=
  let s1 := (List.range 16).foldl (fun (s : State) e =>
    let s' := (s.dma e).foldl (fun (s : State) (d : Desc) =>
      if d.owner = 0 ∧ d.crec ≠ 0 then
        s.toHost 0 d.crec (xT d.bytes || xPlain d.bytes) (doneRec d.bytes ⟨0x27, 0, [], []⟩) else s) s
    s'.setDma e []) s
  [0, 1, 2, 3, 4].foldl (fun (s : State) p => s.failBufs p (fun _ => true) 0x27) s1

/-- R49, R50: the data plane of a partition stops; a pending decision is not made. -/
def State.haltPart (s : State) (p : Nat) : State :=
  let s1 := s.abandon p none
  (s1.setSq p { s1.sq p with mesh := [] }).fput (Reg.UPD_STATUS p) Fld.UPD_STATUS_PENDING 0

/-- R715, R746, R780, R789: the halt of source `src` arrives. -/
def State.haltNow (s : State) (src : Nat) : State :=
  let s1 := allParts.foldl State.haltPart { s.fuseCut with halted := true, haltReq := [] }
  let s2 := s1.haltHost
  let s3 := (s2.wr Reg.MGT_HALT_STAT (Fld.MGT_HALT_STAT_SRC.put (Fld.MGT_HALT_STAT_HALTED.put 0 1) src)).irqMgt Fld.MGT_INT_STATUS_HALT
  let s4 := (s3.fput Reg.DBG_STEP_CTRL Fld.DBG_STEP_CTRL_HOLD 0).fput Reg.DBG_STEP_STAT Fld.DBG_STEP_STAT_HELD 0
  let s5 := (allUnits.foldl (fun (s : State) u => s.sepiaRec u 0x60 0 src) s4).platEvent 1 src
  if s5.flag Reg.DBG_SEPIA_CTRL Fld.DBG_SEPIA_CTRL_FREEZE_ON_HALT ∧ !s5.flag Reg.DBG_SEPIA_STAT Fld.DBG_SEPIA_STAT_FROZEN then
    (({ s5 with freezeAt := SMap.set (fun _ => 0) s5.freezeAt 0 s5.globalTime }.wr Reg.DBG_SEPIA_STAT
      (Fld.DBG_SEPIA_STAT_BY_HALT.put (Fld.DBG_SEPIA_STAT_FROZEN.put 0 1) 1)).irqDbg Fld.DBG_INT_STATUS_FROZEN)
  else s5

/-- The first source; of sources in one ACLK cycle the lowest code (R746). -/
def firstHalt : List (Nat × Nat) → Option (Nat × Nat)
  | [] => none
  | x :: t => match firstHalt t with
    | none => some x
    | some y => some (if y.1 < x.1 ∨ (y.1 = x.1 ∧ y.2 < x.2) then y else x)

/-- R49: an asserted halt arrives; once halted, further sources change nothing. -/
def State.halt (s : State) : State :=
  match firstHalt s.haltReq with
  | none => s
  | some x => if s.halted then { s with haltReq := [] } else s.haltNow x.2
def execHalt (s : State) : Host.Outcome State Fault Refusal := .next s.halt

/-- R49, R748: the memory writes that were issued have drained. -/
def State.haltDrained (s : State) : State :=
  if !s.halted ∨ allParts.any (fun p => (s.sq p).xfers.any (fun x => x.kind == .memwr) || (s.sq p).bursts.any fun b => b.put) then s
  else { s with haltDone := true }
def execHaltStopComplete (s : State) : Host.Outcome State Fault Refusal := .next s.haltDrained

/-- R746, R765: a keyed write of `MGT_HALT_CTRL`. -/
def State.haltCtrlW (s : State) (who : Nat) (v : Word) : State :=
  if Fld.MGT_HALT_CTRL_KEY.get v = 0x484C ∧ Fld.MGT_HALT_CTRL_HALT.get v = 1 then s.askHalt (if who = 1 then 3 else 2) else s
def execHaltCmd (r : RegReq) (v : Word) (s : State) : Host.Outcome State Fault Refusal :=
  .next (s.write r Reg.MGT_HALT_CTRL fun s => s.haltCtrlW r.who v)

/-- R40, R485, R513: the root secret is zeroed, for a cause of R527. -/
def State.zeroRoot (s : State) (cause : Nat) : State :=
  let a := Reg.KEY_ROOT_STAT
  s.wr a (Fld.KEY_ROOT_STAT_CAUSE.put (Fld.KEY_ROOT_STAT_IDENT_OK.put (Fld.KEY_ROOT_STAT_ROOT_OK.put (s.rd a) 0) 0) cause)

/-- R40, R41, R485, R715: a tamper event: 1 mesh, 2 light, 3 temperature, 4 VBAT, which counts while main power is absent; the halt path is
asserted while the device runs. -/
def State.tamper (s : State) (cause : Nat) : State :=
  if cause = 0 ∨ 4 < cause ∨ (cause = 4 ∧ !s.power.off) then s
  else
    let s1 := { s.fuseCut.zeroRoot cause with keys := [] }
    if s.power.off then s1 else s1.askHalt 4
def execTamperEvent (cause : Nat) (s : State) : Host.Outcome State Fault Refusal := .next (s.tamper cause)

end Sys2Proof.Machine
end

