-- ==== Sys2Proof/Machine/Keeper.lean ====
section
/-! DEFINITION. The keeper's mailboxes (R517, R518, R824) and its commands (R519 to R523, R578, R580, R822, R823), the interface link keys
(R499) and the random bit generator (R516). -/

namespace Sys2Proof.Machine

/-! ## Mailboxes -/

/-- The registers of a mailbox, from its base (R524 to R526). -/
def boxCmd (b : Nat) : Nat := mailBase b
def boxCtrl (b : Nat) : Nat := mailBase b + 0x04
def boxStatus (b : Nat) : Nat := mailBase b + 0x08
def boxEn (b : Nat) : Nat := mailBase b + 0x0C
def boxArg (b n : Nat) : Nat := mailBase b + 0x100 + 4 * n
def boxRes (b n : Nat) : Nat := mailBase b + 0x200 + 4 * n

/-- The partition that a mailbox belongs to: 0 for the device's two. -/
def boxPart (b : Nat) : Nat := b - 1

/-- The requester index of a mailbox (R20). -/
def boxReq (b : Nat) : Nat := b + 1

/-- R525: a bit of `x_STATUS` sets, and raises the function's keeper interrupt where its enable bit, one place lower, is set. -/
def State.boxEvent (s : State) (b bit : Nat) : State :=
  let s1 := s.setBits (boxStatus b) (2 ^ bit)
  if b ≠ 0 ∧ bitOf (s1.rn (boxEn b)) (bit - 1) then s1.emit (.msix (boxPart b) (if b = 1 then 4 else 6)) else s1

/-- R517: `RLEN` of a command that ends OK. -/
def rlenOf (code : Nat) : Nat :=
  match code with
  | 0x01 => 2 | 0x02 => 6 | 0x10 => 1 | 0x11 => 1 | 0x12 => 4 | 0x13 => 4 | 0x20 => 1 | 0x21 => 1 | 0x22 => 4 | 0x24 => 4
  | 0x30 => 26 | _ => 0

/-- R517: a command completes. -/
def State.mailDone (s : State) (c : MailCmd) (status : Nat) (res : List Byte) : State :=
  let n := if status = 0 then rlenOf c.code else 0
  let s1 := (List.range 64).foldl (fun (s : State) i => s.wn (boxRes c.box i) (if i < n then leAt res (4 * i) 4 else 0)) s
  let a := boxStatus c.box
  let w := Fld.KEY_STATUS_RLEN.put (Fld.KEY_STATUS_TAG.put (Fld.KEY_STATUS_CODE.put (Fld.KEY_STATUS_BUSY.put (s1.rd a) 0) status) c.tag) n
  (s1.wr a w).boxEvent c.box 1

/-- The codes of R519. -/
def mailCodes : List Nat := [0x01, 0x02, 0x10, 0x11, 0x12, 0x13, 0x18, 0x19, 0x20, 0x21, 0x22, 0x23, 0x24, 0x30]

/-- R517: `GO`. A code outside R519 ends UNDEF_CMD at once. -/
def State.mailGo (s : State) (b : Nat) : State :=
  if s.flag (boxStatus b) Fld.KEY_STATUS_BUSY then s.boxEvent b 2
  else
    let cmd := s.rn (boxCmd b)
    let c : MailCmd := {
      box := b, code := bitsOf cmd 0 8, tag := bitsOf cmd 8 8
      args := (List.range 64).flatMap fun n => leBytes 4 (s.rn (boxArg b n)) }
    let s1 := (List.range 64).foldl (fun (s : State) n => s.wn (boxArg b n) 0) s
    let s2 := { s1 with keeper := { s1.keeper with waiting := s1.keeper.waiting ++ [c] } }.fput (boxStatus b) Fld.KEY_STATUS_BUSY 1
    if mailCodes.contains c.code then s2
    else { s2 with keeper := { s2.keeper with waiting := s1.keeper.waiting } }.mailDone c 0x01 []
def execMailboxGo (r : RegReq) (b : Nat) (s : State) : Host.Outcome State Fault Refusal :=
  .next (s.write r (boxCtrl b) fun s => s.mailGo b)

/-- R518: the mailbox the keeper takes next. -/
def State.nextMail (s : State) : Option MailCmd :=
  ((List.range 6).map fun i => (s.keeper.last + 1 + i) % 6).findSome? fun b => s.keeper.waiting.find? fun (c : MailCmd) => c.box == b

/-- The argument bytes that R519 lists for a command, as spans. -/
def argSpans (code : Nat) : List (Nat × Nat) :=
  match code with
  | 0x02 => [(0, 0)] | 0x10 => [(0, 0), (4, 7)] | 0x11 => [(0, 3), (8, 57)] | 0x12 => [(0, 5), (8, 145)]
  | 0x13 => [(0, 0), (2, 5), (8, 143)] | 0x18 => [(0, 0)] | 0x19 => [(0, 2)] | 0x20 => [(0, 0)]
  | 0x21 => [(0, 2), (8, 79)] | 0x22 => [(0, 0), (48, 79)] | 0x23 => [(0, 0), (4, 7), (48, 79)] | 0x24 => [(0, 0), (4, 7)]
  | _ => []

/-- A reserved argument byte is not 0. -/
def reservedArg (c : MailCmd) : Bool :=
  (List.range 256).any fun i => !((argSpans c.code).any fun x => decide (x.1 ≤ i ∧ i ≤ x.2)) && leAt c.args i 1 != 0

/-- Commands that only a VF may give (R519). -/
def vfOnly (code : Nat) : Bool := decide (0x10 ≤ code ∧ code ≤ 0x24) && code != 0x20

/-- R824, steps 2 to 5 as far as they concern every command. -/
def State.mailCheck (s : State) (c : MailCmd) : Nat :=
  let p := boxPart c.box
  let tenant := decide (0x10 ≤ c.code ∧ c.code ≤ 0x24)
  if p = 0 ∧ vfOnly c.code then 0x03
  else if tenant && s.service then 0x0C
  else if tenant && !s.rootOk then 0x0D
  else if tenant && p != 0 && s.partState p != 4 then (if s.partState p = 0 ∨ s.partState p = 5 then 0x10 else 0x03)
  else if reservedArg c then 0x02
  else 0

/-- The keeper serves the next waiting mailbox when its command has this code: `f` answers the status and the result. -/
def State.serve (s : State) (code : Nat) (f : State → MailCmd → State × Nat × List Byte) : State :=
  match s.nextMail with
  | none => s
  | some c =>
    if c.code ≠ code ∨ (s.bootStage ≠ 3 ∧ s.bootStage ≠ 4) then s
    else
      let s0 := { s with keeper := { s.keeper with waiting := s.keeper.waiting.filter (fun (d : MailCmd) => d.box != c.box), last := c.box } }
      let e := s0.mailCheck c
      if e ≠ 0 then s0.mailDone c e []
      else
        let (s1, st, res) := f s0 c
        s1.mailDone c st res

def MailCmd.arg (c : MailCmd) (i : Nat) : Nat := leAt c.args i 1
def MailCmd.part (c : MailCmd) : Nat := boxPart c.box

/-- A command that ends with a status and no effect. -/
def refuseCmd (s : State) (st : Nat) : State × Nat × List Byte := (s, st, [])

/-! ## Slots as commands name them -/

def State.slotFree (s : State) (n : Nat) : Bool := (s.key n).state == 0
def generalSlots : List Nat := (List.range 64).map (0xC0 + ·)
def State.freeGeneral (s : State) : List Nat := generalSlots.filter s.slotFree

/-- R486: general slots a partition may still take. -/
def State.quotaLeft (s : State) (p : Nat) : Nat :=
  64 / s.parts - (generalSlots.filter fun n => !s.slotFree n && bitOf (s.key n).owner (p - 1)).length

/-- R519, R486, R822: the general slot that a destination byte names, or the status that refuses it. -/
def State.destSlot (s : State) (p d : Nat) (swap : Bool) : Except Nat Nat :=
  if d = 0xFF then
    match s.freeGeneral with
    | n :: _ => if s.quotaLeft p = 0 then .error 0x0F else .ok n
    | [] => .error 0x0F
  else if d < 0xC0 then .error 0x04
  else if s.slotFree d then (if s.quotaLeft p = 0 then .error 0x0F else .ok d)
  else if !(s.key d).owned p then .error 0x03
  else if swap then .ok d else .error 0x05

/-- R522, R487: the status that refuses a source slot, 0 for none. -/
def State.sourceBad (s : State) (p n attr : Nat) : Nat :=
  let k := s.key n
  if k.state = 0 ∨ k.state = 3 then 0x06
  else if !k.owned p then 0x03
  else if k.attr ≠ attr then 0x07
  else if k.state = 2 then 0x0A
  else 0

/-- R502, R823: a limit that lies above the one in force; none, 0, counts as 64. -/
def limitAbove (g lim : Nat) : Bool := g != 0 && decide ((if lim = 0 then 64 else lim) < g)

/-- R502: a limit that a command may not give. -/
def limitsBad (slot attr soft hard : Nat) : Bool :=
  let d := limitsOf slot attr
  limitAbove soft d.1 || limitAbove hard d.2

/-! ## The commands -/

def execGetInfo (s : State) : Host.Outcome State Fault Refusal := .next (s.serve 0x01 fun s c =>
  let gen := s.freeGeneral.length
  (s, 0, leBytes 4 (s.rn (Reg.GLB_VER 2)) ++ leBytes 1 s.parts ++ leBytes 1 c.part ++
    leBytes 1 ((List.range 64).filter fun k => s.slotFree (2 * k)).length ++
    leBytes 1 (if c.part = 0 then gen else min gen (s.quotaLeft c.part))))

def execSlotStatus (s : State) : Host.Outcome State Fault Refusal := .next (s.serve 0x02 fun s c =>
  let n := c.arg 0
  let k := s.key n
  if c.part ≠ 0 ∧ k.state = 0 then (s, 0, leBytes 24 0)
  else if c.part ≠ 0 ∧ !k.owned c.part then refuseCmd s 0x03
  else
    let head := leBytes 1 k.attr ++ leBytes 1 k.state ++ leBytes 1 k.owner
    if c.part = 0 ∧ k.owner ≠ 0 then (s, 0, head)
    else (s, 0, head ++ leBytes 1 k.soft ++ leBytes 1 k.hard ++ leBytes 3 k.epoch ++ leBytes 8 k.ctr ++ sliceB k.kcv 0 8))

def execSessionKek (s : State) : Host.Outcome State Fault Refusal := .next (s.serve 0x10 fun s c =>
  match s.keeper.sessions.find? fun (x : Session) => x.part == c.part && x.id == leAt c.args 4 4 with
  | none => refuseCmd s 0x0B
  | some x =>
    match s.destSlot c.part (c.arg 0) false with
    | .error e => refuseCmd s e
    | .ok n =>
      if !s.canLoad n then refuseCmd s 0x0A
      else
        let s1 := s.loadSlot n (Crypto.kdf x.secret (ascii "SZT60-SKEK") (sliceB c.args 4 4) 256) 2 (ownerMask c.part) 0 0 false []
        (s1.setKey n { s1.key n with cert := x.cert }, 0, leBytes 1 n))

/-- R494 steps 2 to 4 for one general slot, with the check value that the command may carry. -/
def State.loadChecked (s : State) (p n : Nat) (key : List Byte) (attr soft hard : Nat) (suffix : List Byte) (expect : Option (List Byte)) :
    State × Nat × List Byte :=
  if (match expect with | some v => v != kcvOf key | none => false) then refuseCmd s 0x09
  else
    let s1 := s.loadSlot n key attr (ownerMask p) soft hard false suffix
    (s1, 0, leBytes 1 n ++ leBytes 7 0 ++ (s1.key n).kcv)

def execImportKey (s : State) : Host.Outcome State Fault Refusal := .next (s.serve 0x11 fun s c =>
  let d := c.arg 0
  let attr := c.arg 1
  let fl := c.arg 2
  if 3 < attr ∨ 3 < fl ∨ limitsBad 0xC0 attr (c.arg 56) (c.arg 57) then refuseCmd s 0x02
  else if attr = 0 then refuseCmd s 0x07
  else
    match s.destSlot c.part d (bitOf fl 0) with
    | .error e => refuseCmd s e
    | .ok n =>
      let bad := s.sourceBad c.part (c.arg 3) 2
      if bad ≠ 0 then refuseCmd s bad
      else if !s.canLoad n then refuseCmd s 0x0A
      else
        match Crypto.kwUnwrap (s.key (c.arg 3)).key (sliceB c.args 8 40) with
        | none => refuseCmd (s.useKey (c.arg 3)).1 0x08
        | some key => (s.useKey (c.arg 3)).1.loadChecked c.part n key attr (c.arg 56) (c.arg 57) []
            (if bitOf fl 1 then some (sliceB c.args 48 8) else none))

/-- R497: whether a DERIVE may name the label for the attribute; the labels' names. -/
def labelFits (label attr : Nat) : Bool :=
  (label == 3 && decide (attr ≤ 1)) || (label == 4 && attr == 2) || (label == 5 && attr == 3)
def labelInternal (label : Nat) : Bool := label == 1 || decide (6 ≤ label ∧ label ≤ 0x0D)
def labelName (label : Nat) : List Byte :=
  if label = 3 then ascii "SZT60-GCM" else if label = 4 then ascii "SZT60-KEK" else ascii "SZT60-SUB"

def execDerive (s : State) : Host.Outcome State Fault Refusal := .next (s.serve 0x12 fun s c =>
  let attr := c.arg 1
  let fl := c.arg 2
  let src := c.arg 3
  let label := c.arg 4
  if 3 < attr ∨ 3 < fl ∨ 128 < c.arg 5 ∨ !(labelFits label attr || labelInternal label) ∨ limitsBad 0xC0 attr (c.arg 144) (c.arg 145) then
    refuseCmd s 0x02
  else if labelInternal label ∨ (attr = 0 ∧ s.flag (Reg.PRT_STATE c.part) Fld.PRT_STATE_JOINT) then refuseCmd s 0x03
  else
    match s.destSlot c.part (c.arg 0) (bitOf fl 0) with
    | .error e => refuseCmd s e
    | .ok n =>
      let bad := s.sourceBad c.part src 3
      if bad ≠ 0 then refuseCmd s bad
      else if !s.canLoad n then refuseCmd s 0x0A
      else
        let gen := s.keeper.gen + 1
        let suffix := if attr = 0 then leBytes 8 gen ++ leBytes 1 n else []
        let key := Crypto.kdf (s.key src).key (labelName label) (sliceB c.args 16 (c.arg 5) ++ suffix) 256
        let s1 := (s.useKey src).1
        (if attr = 0 then { s1 with keeper := { s1.keeper with gen := gen } } else s1).loadChecked c.part n key attr (c.arg 144) (c.arg 145)
          suffix (if bitOf fl 1 then some (sliceB c.args 8 8) else none))

/-- R486, R488, R822: the KID that a command may load a pair on, or the status that refuses it. -/
def State.destKid (s : State) (p kid : Nat) (swap : Bool) : Except Nat Nat :=
  if s.slotFree (2 * kid) then .ok kid
  else if !(s.key (2 * kid)).owned p then .error 0x03
  else if swap then .ok kid else .error 0x05

def execDerivePair (s : State) : Host.Outcome State Fault Refusal := .next (s.serve 0x13 fun s c =>
  let k := c.arg 0
  let fl := c.arg 2
  let src := c.arg 3
  let label := c.arg 4
  if 3 < fl ∨ 128 < c.arg 5 ∨ (64 ≤ k ∧ k < 0xFF) ∨ !(label == 2 || labelInternal label) then refuseCmd s 0x02
  else if labelInternal label then refuseCmd s 0x03
  else
    match (if k = 0xFF then (List.range 64).find? fun i => s.slotFree (2 * i) else some k) with
    | none => refuseCmd s 0x0F
    | some k =>
      match s.destKid c.part k (bitOf fl 0) with
      | .error e => refuseCmd s e
      | .ok kid =>
        let bad := s.sourceBad c.part src 3
        if bad ≠ 0 then refuseCmd s bad
        else if !s.canLoad (2 * kid) then refuseCmd s 0x0A
        else
          let key := Crypto.kdf (s.key src).key (ascii "SZT60-MEM") (sliceB c.args 16 (c.arg 5)) 256
          let s1 := (s.useKey src).1
          if bitOf fl 1 ∧ sliceB c.args 8 8 ≠ kcvOf key then refuseCmd s1 0x09
          else (s1.loadPair kid key (ownerMask c.part) 0 0, 0, leBytes 1 kid ++ leBytes 7 0 ++ kcvOf key))

/-- R519: REVOKE and SET_LIMIT refuse a slot that is empty or another's. -/
def State.ownBad (s : State) (p n : Nat) : Nat :=
  if s.slotFree n then 0x06 else if !(s.key n).owned p then 0x03 else 0

def execRevoke (s : State) : Host.Outcome State Fault Refusal := .next (s.serve 0x18 fun s c =>
  let n := c.arg 0
  let bad := s.ownBad c.part n
  if bad ≠ 0 then refuseCmd s bad
  else if n < 0x80 then ((s.emptySlot (n / 2 * 2)).emptySlot (n / 2 * 2 + 1), 0, [])
  else (s.emptySlot n, 0, []))

/-- R823. A limit of 64, where none is in force, leaves none in force. -/
def State.setLimit (s : State) (n soft hard : Nat) : State :=
  let k := s.key n
  let sl := if soft % 64 = 0 then k.soft else soft
  let hl := if hard % 64 = 0 then k.hard else hard
  let out := hard % 64 ≠ 0 ∧ 2 ^ hl ≤ k.ctr
  let s1 := s.setKey n { k with soft := sl, hard := hl, state := if out then 2 else k.state }
  let alert (s : State) (bit : Nat) : State := (ownersOf k.owner).foldl (fun (s : State) p => s.keyAlert p bit) s
  let s2 := if soft % 64 ≠ 0 ∧ 2 ^ sl ≤ k.ctr then alert s1 1 else s1
  if out ∧ k.state = 1 then alert s2 2 else s2
def execSetLimit (s : State) : Host.Outcome State Fault Refusal := .next (s.serve 0x19 fun s c =>
  let k := s.key (c.arg 0)
  if limitAbove (c.arg 1) k.soft || limitAbove (c.arg 2) k.hard then refuseCmd s 0x02
  else
    let bad := s.ownBad c.part (c.arg 0)
    if bad ≠ 0 then refuseCmd s bad else (s.setLimit (c.arg 0) (c.arg 1) (c.arg 2), 0, []))

def execPartRevoke (s : State) : Host.Outcome State Fault Refusal := .next (s.serve 0x20 fun s c =>
  let n := c.arg 0
  if n = 0 ∨ 4 < n then refuseCmd s 0x02
  else if c.part ≠ 0 ∧ c.part ≠ n then refuseCmd s 0x03
  else
    let s1 := s.startRemoval n (if c.box = 0 then 2 else if c.box = 1 then 1 else 3)
    if s.partState n = 0 ∨ s.partState n = 5 then refuseCmd s1 0x10
    else (s1, 0, leBytes 4 (s1.rn (Reg.KEY_PEPOCH n))))

/-! ### Mordant and Lake -/

/-- R578, R520: whether a share of index `i` and count `n` fits what is held of the job and of the partition. -/
def State.shareFits (s : State) (p i n : Nat) (job : List Byte) : Bool :=
  let m := s.mordantOf p
  let held := s.keeper.shares.filter fun (x : Share) => x.job == job
  decide (i < n) && decide (n ≤ 16) && held.all (fun x => x.index != i && x.count == n) &&
    (m.count == 0 || m.derived || (m.job == job && m.count == n))

def execMordantShare (s : State) : Host.Outcome State Fault Refusal := .next (s.serve 0x21 fun s c =>
  let p := c.part
  let w := c.arg 0
  let i := c.arg 1
  let n := c.arg 2
  let job := sliceB c.args 48 32
  let bad := s.sourceBad p w 2
  if bad ≠ 0 then refuseCmd s bad
  else if (s.key w).cert = [] ∨ !s.shareFits p i n job then refuseCmd s 0x0E
  else if 2 ≤ n ∧ generalSlots.any (fun j => (s.key j).state == 1 && (s.key j).attr == 0 && (s.key j).owned p) then refuseCmd s 0x03
  else
    let s1 := (s.useKey w).1
    match Crypto.kwUnwrap (s.key w).key (sliceB c.args 8 40) with
    | none => refuseCmd s1 0x08
    | some key =>
      let m := s1.mordantOf p
      let m := if m.count = 0 ∨ m.derived then (⟨p, job, n, false, leBytes 8 0, []⟩ : Mordant) else m
      let m := { m with certs := m.certs ++ [(i, (s.key w).cert)] }
      let s2 := { s1 with keeper := { s1.keeper with shares := s1.keeper.shares ++ [(⟨job, i, n, p, key⟩ : Share)] } }.setMordant m
      (if 2 ≤ n then s2.setJoint p 1 else s2, 0, leBytes 1 m.certs.length))

def execMordantDerive (s : State) : Host.Outcome State Fault Refusal := .next (s.serve 0x22 fun s c =>
  let job := sliceB c.args 48 32
  match s.destSlot c.part (c.arg 0) false with
  | .error e => refuseCmd s e
  | .ok n =>
    let held := s.keeper.shares.filter fun (x : Share) => x.job == job
    let count := match held with | x :: _ => x.count | [] => 0
    let parts := allParts.filter fun p => held.any fun (x : Share) => x.part == p
    if count = 0 ∨ held.length < count ∨ !parts.contains c.part then refuseCmd s 0x0E
    else if parts.any fun p => s.quotaLeft p == 0 then refuseCmd s 0x0F
    else if !s.canLoad n then refuseCmd s 0x0A
    else
      let all := (List.range count).flatMap fun i => match held.find? fun (x : Share) => x.index == i with
        | some x => x.bytes
        | none => []
      let key := Crypto.kdf (Crypto.sha384 all) (ascii "SZT60-MODEL") job 256
      let owner := parts.foldl (fun x p => x + ownerMask p) 0
      let s1 := s.loadSlot n key 3 owner 0 0 true []
      let s2 := { s1 with keeper := { s1.keeper with shares := s1.keeper.shares.filter fun (x : Share) => x.job != job } }
      let s3 := parts.foldl (fun (s : State) p => s.setMordant { s.mordantOf p with derived := true, kcv := kcvOf key }) s2
      (s3, 0, leBytes 1 n ++ leBytes 7 0 ++ kcvOf key))

def execLakeBind (s : State) : Host.Outcome State Fault Refusal := .next (s.serve 0x23 fun s c =>
  let n := c.arg 0
  let bad := s.sourceBad c.part n 3
  if bad ≠ 0 then refuseCmd s bad
  else if !(s.key n).model then refuseCmd s 0x07
  else
    let b : LakeBind := ⟨c.part, n, leAt c.args 4 4, sliceB c.args 48 32⟩
    ({ s with keeper := { s.keeper with binds := s.keeper.binds.filter (fun (x : LakeBind) => x.part != c.part) ++ [b] } }, 0, []))

def execLakeKey (s : State) : Host.Outcome State Fault Refusal := .next (s.serve 0x24 fun s c =>
  if 64 ≤ c.arg 0 then refuseCmd s 0x02
  else
    match s.destKid c.part (c.arg 0) false with
    | .error e => refuseCmd s e
    | .ok kid =>
      let (s1, st) := s.lakeKey c.part kid (leAt c.args 4 4)
      (s1, st, leBytes 8 0 ++ (s1.key (2 * kid)).kcv))

def execGetIdentity (s : State) : Host.Outcome State Fault Refusal := .next (s.serve 0x30 fun s _ =>
  if !s.rootOk then refuseCmd s 0x0D
  else
    (s, 0, leBytes 1 (b2n s.rootOk + 2 * b2n s.identOk) ++ leBytes 7 0 ++ Crypto.sha384 (Config.certificate 0 2 identitySeed) ++
      Crypto.sha384 (Config.certificate 1 2 identitySeed)))

/-! ## Interface link keys and entropy -/

/-- R499: fresh keys of both directions for a stack, where a draw is possible. -/
def State.ifcKeys (s : State) (k : Nat) : State :=
  if !s.entropy ∨ !s.canLoad (0xA0 + 2 * k) then s
  else
    let (s1, v) := s.draw
    let key (d : Nat) : List Byte := Crypto.kdf (v.take 32) (ascii "SZT60-IFC") (leBytes 1 k ++ leBytes 1 d) 256
    (s1.loadSlot (0xA0 + 2 * k) (key 0) 0 0 0 0 false []).loadSlot (0xA1 + 2 * k) (key 1) 1 0 0 0 false []

/-- The soft limit of a stack's interposer slot (R499, R503). -/
def State.ifcRekey (s : State) (k : Nat) : State :=
  if (s.key (0xA0 + 2 * k)).state = 1 then (s.keyAlert 0 1).ifcKeys k else s
def execIfcRekey (k : Nat) (s : State) : Host.Outcome State Fault Refusal := .next (s.ifcRekey k)

/-- R516: the generator reseeds after 2^20 requests. -/
def execDrbgReseed (s : State) : Host.Outcome State Fault Refusal :=
  .next (if s.entropy ∧ 1048576 ≤ s.keeper.sinceSeed then { s with keeper := { s.keeper with sinceSeed := 0 } } else s)

/-- R516: the entropy source fails its health test. -/
def execEntropyFail (s : State) : Host.Outcome State Fault Refusal :=
  .next (s.fput Reg.KEY_ROOT_STAT Fld.KEY_ROOT_STAT_DRBG_OK 0)

end Sys2Proof.Machine
end

