-- ==== Sys2Proof/Machine/Power.lean ====
section
/-! DEFINITION. Supplies, measurement, the limiter and throttle reasons (R639 to R675). Powers are in mW, temperatures
in °C, feed voltages in units of 0.1 V, core-rail currents in mA. -/

namespace Sys2Proof.Machine

/-! ## Feeds and the sag -/

/-- The fields of a feed (0 `PWR_A`, 1 `PWR_B`): its OK bit, its over-voltage bit, its voltage. -/
def feedOk (f : Nat) : Fld := if f = 0 then Fld.PWR_FEED_A_OK else Fld.PWR_FEED_B_OK
def feedOv (f : Nat) : Fld := if f = 0 then Fld.PWR_FEED_A_OV else Fld.PWR_FEED_B_OV
def feedDv (f : Nat) : Fld := if f = 0 then Fld.PWR_INPUT_V_A_DV else Fld.PWR_INPUT_V_B_DV

/-- The voltage that a feed gives the module: 0 while it is disconnected. -/
def State.feedV (s : State) (f : Nat) : Nat :=
  if s.flag Reg.PWR_FEED (feedOv f) then 0 else s.fget Reg.PWR_INPUT_V (feedDv f)

/-- The OR-ed input at the latest sample; none before the first one. -/
def State.inputV (s : State) : Option Nat :=
  if s.power.sampled then some (max (s.feedV 0) (s.feedV 1)) else none

/-- R639, R664: the controller feeds the module from feed `f`; a change is a transfer. -/
def State.feedFrom (s : State) (f : Nat) (counts : Bool) : State :=
  let a := Reg.PWR_FEED
  if s.fget a Fld.PWR_FEED_ACTIVE_B = f then s
  else
    let s1 := s.fput a Fld.PWR_FEED_ACTIVE_B f
    if counts then { s1.bump a Fld.PWR_FEED_XFERS 1 with power := { s1.power with winBad := true } } else s1

/-- R639, R650: the 1 ms sample of input power and feed voltages. -/
def State.inputSample (s : State) (mw va vb : Nat) : State :=
  let s1 := (s.fput Reg.PWR_INPUT_V Fld.PWR_INPUT_V_A_DV va).fput Reg.PWR_INPUT_V Fld.PWR_INPUT_V_B_DV vb
  let ok (f v : Nat) : Nat := b2n (decide (460 ≤ v ∧ v ≤ 600) && !s1.flag Reg.PWR_FEED (feedOv f))
  let s2 := (s1.fput Reg.PWR_FEED Fld.PWR_FEED_A_OK (ok 0 va)).fput Reg.PWR_FEED Fld.PWR_FEED_B_OK (ok 1 vb)
  let a := s2.feedV 0
  let b := s2.feedV 1
  let s3 := if a < b then s2.feedFrom 1 s2.power.sampled else if b < a then s2.feedFrom 0 s2.power.sampled else s2
  { s3 with power := { s3.power with samples := (mw :: s3.power.samples).take 100, sampled := true } }
def execInputSample (mw va vb : Nat) (s : State) : Host.Outcome State Fault Refusal := .next (s.inputSample mw va vb)

/-- The active feed gives way to the other one. -/
def State.feedGone (s : State) (f : Nat) : State :=
  let g := 1 - f
  if s.fget Reg.PWR_FEED Fld.PWR_FEED_ACTIVE_B = f ∧ s.flag Reg.PWR_FEED (feedOk g) then s.feedFrom g true else s

/-- R640: a feed has lain below 44 V for 10 µs. -/
def State.feedLoss (s : State) (f : Nat) : State :=
  (((s.fput Reg.PWR_FEED (feedOk f) 0).feedGone f)).irqPwr Fld.PWR_INT_STATUS_FEED_LOSS
def execFeedLoss (f : Nat) (s : State) : Host.Outcome State Fault Refusal := .next (s.feedLoss (f % 2))

/-- R640: a feed has stood above 61 V for 1 µs. -/
def State.feedOver (s : State) (f : Nat) : State :=
  ((((s.fput Reg.PWR_FEED (feedOk f) 0).fput Reg.PWR_FEED (feedOv f) 1).feedGone f)).irqPwr Fld.PWR_INT_STATUS_FEED_OV
def execFeedOvervoltage (f : Nat) (s : State) : Host.Outcome State Fault Refusal := .next (s.feedOver (f % 2))

/-- R640: a disconnected feed has stayed at or below 59 V for 100 ms. -/
def execFeedReconnect (f : Nat) (s : State) : Host.Outcome State Fault Refusal := .next (s.fput Reg.PWR_FEED (feedOv (f % 2)) 0)

/-- R645: the sag taint of the partition's steps whose decision has not been made: while one is pending, that step and the one after it. -/
def State.sagTaint (s : State) (p : Nat) : State :=
  s.setUp p { (s.up p).event with
    taint := true, taintNext := (s.up p).taintNext || s.flag (Reg.UPD_STATUS p) Fld.UPD_STATUS_PENDING }

/-- R760, step 4 of R644: the sag snapshot, and the meters stop. -/
def State.meterSag (s : State) : State :=
  { s with meterHold := true, mtr := { s.mtr with snap := some (s.closeRecord 4) } }.fput Reg.MTR_STAT Fld.MTR_STAT_SAG_FROZEN 1

/-- R644 to R646: the OR-ed input has stayed below 45 V for 2 µs; a crossing during a sag continues it. -/
def State.sagWarn (s : State) : State :=
  let a := Reg.PWR_SAG_STAT
  if s.flag a Fld.PWR_SAG_STAT_ACTIVE then s
  else
    let s1 := ((s.fput a Fld.PWR_SAG_STAT_ACTIVE 1).bump a Fld.PWR_SAG_STAT_COUNT 1).irqPwr Fld.PWR_INT_STATUS_SAG_WARN
    let s2 := allParts.foldl (fun (s : State) p => if s.nquad p = 0 then s else s.sagTaint p) s1
    ({ s2.meterSag with power := { s2.power with winBad := true } }.showHold).platEvent 3 0
def execSagWarn (s : State) : Host.Outcome State Fault Refusal := .next s.sagWarn

/-- R647, R760: the input has stayed at or above 46 V for 1 ms. -/
def State.sagOver (s : State) : State :=
  let a := Reg.PWR_SAG_STAT
  if s.flag a Fld.PWR_SAG_STAT_ACTIVE then
    let s1 := ((s.fput a Fld.PWR_SAG_STAT_ACTIVE 0).fput a Fld.PWR_SAG_STAT_HOLD 0).irqPwr Fld.PWR_INT_STATUS_SAG_END
    { s1 with
      meterHold := false
      mtr := { s1.mtr with snap := none, flags := s1.mtr.flags ||| 4 } }.fput Reg.MTR_STAT Fld.MTR_STAT_SAG_FROZEN 0 |>.platEvent 4 0
  else s

/-- R649: the check that is made once per second. -/
def State.vbatCheck (s : State) (mv : Nat) : State :=
  let s1 := s.fput Reg.PWR_STAT Fld.PWR_STAT_VBAT_MV (mv / 2)
  if mv < 2500 then (s1.fput Reg.PWR_STAT Fld.PWR_STAT_VBAT_LOW 1).irqPwr Fld.PWR_INT_STATUS_VBAT_LOW else s1
def execVbatCheck (mv : Nat) (s : State) : Host.Outcome State Fault Refusal := .next (s.vbatCheck mv)

/-! ## Measurement -/

/-- R650: the mean of the latest samples to the nearest multiple of 5 W, ties up. -/
def meanW (l : List Nat) : Nat := 5 * ((2 * l.sum + 5000 * l.length) / (10000 * l.length))

/-- R650, R665: the report of every 100 ms. -/
def State.powerReport (s : State) : State :=
  if s.power.samples.isEmpty then s
  else
    let w := meanW s.power.samples
    let a := Reg.PWR_INPUT_AVG
    ((s.fput a Fld.PWR_INPUT_AVG_W w).fput a Fld.PWR_INPUT_AVG_WIN (s.fget a Fld.PWR_INPUT_AVG_WIN + 1)).wr64 Reg.PWR_ENERGY_LO
      (s.rd64 Reg.PWR_ENERGY_LO + w / 5)
def execPowerReport (s : State) : Host.Outcome State Fault Refusal := .next s.powerReport

/-! ## The limiter -/

/-- R653, R671: the gain as a fraction; it lies between 0.85 and 1.15. -/
def State.gainNum (s : State) : Nat := (8388608 + s.rn Reg.PWR_GAIN % 8388608) * 2 ^ (s.rn Reg.PWR_GAIN / 8388608 - 126)
def gainDen : Nat := 16777216

/-- R121, R662: the mode in force: the request of the lowest-numbered partition that holds one, or `PWR_LIM_CTRL.MODE`
(0 ENGINE_FIRST, 1 NEAR_FIRST). -/
def State.modeInForce (s : State) : Nat :=
  match allParts.find? fun p => (s.sq p).limreq != 0 with
  | some p => (s.sq p).limreq - 1
  | none => s.fget Reg.PWR_LIM_CTRL Fld.PWR_LIM_CTRL_MODE

/-- What the limiter estimates the pool consumers to draw in the V/F entry in force, with gain 1: the memory base, the matrix engines and
interface activity without throttle holds, and the NME activity that is asked for (R58, R652). -/
structure Demand where
  base : Nat
  eng : Nat
  nme : Nat

/-- R57, R60: what the limiter keeps for NME activity, in mW / `gainDen`: in ENGINE_FIRST the floor of 32 W, in NEAR_FIRST all that is
asked for, and the floor at least. -/
def nmeShare (mode g : Nat) (d : Demand) : Nat :=
  if mode = 0 then 32000 * gainDen else max (32000 * gainDen) (g * d.nme)

/-- R652, R657: whether the pool estimate with `h` holds lies within a budget in mW; both sides are 64 · `gainDen` times as large. -/
def poolFits (mode g budget h : Nat) (d : Demand) : Bool :=
  decide (g * (64 * d.base + (64 - h) * d.eng) + 64 * nmeShare mode g d ≤ 64 * gainDen * budget)

/-- R657: the smallest number of holds that a test accepts, 63 where none does. -/
def leastHold (fits : Nat → Bool) : Nat :=
  match (List.range 63).find? fits with
  | some h => h
  | none => 63

/-- R652: the pool budget under an envelope, in mW. -/
def poolBudget (env : Nat) : Nat := max 200000 (env - 480000)

/-- R61: NME commands are delayed when what the pool leaves them is less than they ask for. -/
def nmeDelayed (g budget h : Nat) (d : Demand) : Bool :=
  decide (64 * gainDen * budget < g * (64 * d.base + (64 - h) * d.eng + 64 * d.nme))

/-- R652, R660: the envelope that a reason of R663 allows, in mW, none while it sets none. -/
def State.envelope (s : State) (reason : Nat) : Option Nat :=
  match reason with
  | 0 => some (if s.flag Reg.PWR_LIM_STAT Fld.PWR_LIM_STAT_FIRST_USE then 1080000 else 1200000)
  | 2 => if s.power.thermal then
      some (1200000 - 100000 * (s.fget Reg.PWR_TEMP Fld.PWR_TEMP_TJ - 98) - 100000 * (s.fget Reg.PWR_TEMP Fld.PWR_TEMP_TS - 95))
    else none
  | 3 => if s.flag Reg.PWR_SAG_STAT Fld.PWR_SAG_STAT_ACTIVE then some 680000
    else match s.inputV with
      | some v => if v < 480 then some (2500 * v) else none
      | none => none
  | 4 => some (1000 * s.fget Reg.PWR_CAP Fld.PWR_CAP_W)
  | _ => none

/-- R652, R663: the effective envelope and its reason, ties to the lower code. -/
def State.effective (s : State) : Nat × Nat :=
  [0, 2, 3, 4].foldl (fun (b : Nat × Nat) r =>
    match s.envelope r with
    | some e => if e < b.1 then (e, r) else b
    | none => b) (1200001, 7)

/-- The V/F entry that is asked for (R659). -/
def State.wantIdx (s : State) : Nat :=
  if s.flag Reg.PWR_LIM_CTRL Fld.PWR_LIM_CTRL_FF_EN then s.fget Reg.PWR_LIM_CTRL Fld.PWR_LIM_CTRL_FF_IDX else 2

/-- R663, R672, R673: the reasons active in this interval, and the one charged with its microsecond. -/
def State.throttle (s : State) (pool : List Nat) (current : Bool) (why : Nat) : State :=
  let stepped := decide (s.wantIdx < s.fget Reg.PWR_LIM_STAT Fld.PWR_LIM_STAT_VF_IDX)
  let on (r : Nat) : Bool := pool.contains r || (r == 1 && current) || (stepped && s.power.stepWhy == r)
  let act := (List.range 5).foldl (fun m r => if on r then m + 2 ^ r else m) 0
  let charged := if act = 0 then 7 else if act = 2 then 1 else why
  let a := Reg.PWR_THR_STAT
  let s1 := (s.fput a Fld.PWR_THR_STAT_ACTIVE act).fput a Fld.PWR_THR_STAT_CHARGED charged
  if charged < 5 then s1.wr64 (Reg.PWR_THR_DUR_LO charged) (s1.rd64 (Reg.PWR_THR_DUR_LO charged) + 1) else s1

/-- R46, R56, R657, R659: the V/F step that this estimate calls for, if any, and since when its conditions have held. -/
def State.vfStep (s : State) (h : Nat) (room : Bool) (why : Nat) : State :=
  let p := s.power
  let i := s.fget Reg.PWR_LIM_STAT Fld.PWR_LIM_STAT_VF_IDX
  let boost := s.flag Reg.PWR_LIM_CTRL Fld.PWR_LIM_CTRL_BOOST_EN
  let put (j : Nat) : State := { s with power := { p with
    hiSince := none
    loSince := none
    stepWhy := if i < j then why else p.stepWhy } }.fput Reg.PWR_LIM_STAT Fld.PWR_LIM_STAT_VF_IDX j
  if s.flag Reg.PWR_LIM_CTRL Fld.PWR_LIM_CTRL_FF_EN then { s with power := { p with hiSince := none, loSince := none } }
  else
    let hi := if 8 ≤ h then some (p.hiSince.getD s.now) else none
    let lo := if h = 0 ∧ room then some (p.loSince.getD s.now) else none
    let old (t : Option Nat) (d : Nat) : Bool := match t with | some x => decide (x + d ≤ s.now) | none => false
    if i < 2 ∧ (!boost ∨ h ≠ 0) then put (i + 1)
    else if old hi 10000 ∧ i < 7 then put (i + 1)
    else if old lo 100000 ∧ (2 < i ∨ (boost ∧ 0 < i)) then put (i - 1)
    else { s with power := { p with hiSince := hi, loSince := lo } }

/-- R671: a number of mW · `gainDen` as whole watts. The spec does not say how it is rounded: up or down, as a free value says. -/
def State.watts (s : State) (x : Nat) : Nat :=
  let q := 1000 * gainDen
  x / q + if x % q = 0 then 0 else Config.openValue 24 [s.now, x] % 2

/-- R652: one estimate. `tot` and `pool` are the raw estimates of the last µs; `i0` and `i1` the part of the core-rail current that
throttle holds leave and the part that they scale, in the V/F entry in force. -/
def State.estimate (s : State) (tot pool : Nat) (d : Demand) (i0 i1 : Nat) : State :=
  let g := s.gainNum
  let mode := s.modeInForce
  let eff := s.effective
  let holdOf (env : Nat) : Nat := leastHold fun h => poolFits mode g (poolBudget env) h d
  let hc := leastHold fun h => decide (64 * i0 + (64 - h) * i1 ≤ 64000 * s.fget Reg.PWR_ILIM Fld.PWR_ILIM_A)
  let h := max (holdOf eff.1) hc
  let limits (r : Nat) : Bool := match s.envelope r with
    | some e => decide (0 < holdOf e) || nmeDelayed g (poolBudget e) (holdOf e) d
    | none => false
  let why := if 0 < hc ∧ holdOf eff.1 = 0 ∧ !limits eff.2 then 1 else eff.2
  let late := nmeDelayed g (poolBudget eff.1) (holdOf eff.1) d
  let room := decide (g * (d.base + d.eng + d.nme) + 40000 * gainDen < gainDen * poolBudget eff.1)
  let st := Reg.PWR_LIM_STAT
  let s1 := { s with power := { s.power with estSum := s.power.estSum + tot, estN := s.power.estN + 1, nmeDelay := late } }
  let s2 := (s1.fput Reg.PWR_EST Fld.PWR_EST_W (s1.watts (g * tot))).fput Reg.PWR_EST Fld.PWR_EST_POOL_W (s1.watts (g * pool))
  let s3 := ((s2.fput st Fld.PWR_LIM_STAT_MODE mode).fput st Fld.PWR_LIM_STAT_HOLD h).vfStep h room why
  -- R61: a delay of NME commands shows under POWER, whichever reason set the envelope
  s3.throttle ([0, 2, 3, 4].filter fun r => limits r || (r == 0 && late)) (decide (0 < hc)) why
def execLimiterEstimate (tot pool base eng nme i0 i1 : Nat) (s : State) : Host.Outcome State Fault Refusal :=
  .next (s.estimate tot pool ⟨base, eng, nme⟩ i0 i1)

/-- R653, R654: the calibration of every 10 ms, in binary32 operations (R83). -/
def State.calibrate (s : State) : State :=
  let l := s.power.samples.take 10
  let st := Reg.PWR_LIM_STAT
  let g := s.rn Reg.PWR_GAIN
  let r := round32 false (l.sum * s.power.estN) (l.length * s.power.estSum) 0
  let diff := sub32 r g
  let far := (val32 0x3E19999A).lt (val32 (diff % 2147483648))
  let s1 := { s with power := { s.power with
    estSum := 0
    estN := 0
    winBad := s.flag Reg.PWR_SAG_STAT Fld.PWR_SAG_STAT_ACTIVE } }
  if l.isEmpty ∨ s.power.estSum = 0 ∨ s.power.winBad ∨ far then s1.bump st Fld.PWR_LIM_STAT_CAL_REJ 1
  else
    let s2 := (s1.wn Reg.PWR_GAIN (min32 (max32 (add32 g (mul32 diff 0x3E800000)) 0x3F59999A) 0x3F933333)).bump st
      Fld.PWR_LIM_STAT_CAL_COUNT 1
    let s3 := s2.fput st Fld.PWR_LIM_STAT_FIRST_USE (b2n (decide (s2.fget st Fld.PWR_LIM_STAT_CAL_COUNT < 16)))
    if s2.fget st Fld.PWR_LIM_STAT_CAL_COUNT = 16 ∧ s.flag st Fld.PWR_LIM_STAT_FIRST_USE then s3.irqPwr Fld.PWR_INT_STATUS_CAL_READY
    else s3
def execLimiterCalibration (s : State) : Host.Outcome State Fault Refusal := .next s.calibrate

/-! ## Temperature -/

/-- The hottest of the compute-stack sensors, with its index. -/
def hottest (l : List Nat) : Nat × Nat :=
  (l.foldl (fun (b : Nat × Nat × Nat) t => if b.1 < t then (t, b.2.2, b.2.2 + 1) else (b.1, b.2.1, b.2.2 + 1)) (0, 0, 0)) |> fun x =>
    (x.1, x.2.1)

/-- R660, R661, R674: the sensors of the last 100 µs; *T*s is the hottest die that the stack controllers know (R301). -/
def State.thermal (s : State) (tjs : List Nat) : State :=
  let (tj, i) := hottest (tjs.take 64)
  let ts := (List.range 8).foldl (fun m k => max m (s.fget (Reg.MEM_STK_STAT k) Fld.MEM_STK_STAT_TEMP)) 0
  let a := Reg.PWR_TEMP
  let s1 := ((s.fput a Fld.PWR_TEMP_TJ tj).fput a Fld.PWR_TEMP_TS ts).fput a Fld.PWR_TEMP_SENSOR i
  let s2 := s1.fput a Fld.PWR_TEMP_TJ_PEAK (max (s1.fget a Fld.PWR_TEMP_TJ_PEAK) tj)
  let on := decide (98 ≤ tj ∨ 95 ≤ ts) || (s.power.thermal && !decide (tj < 97 ∧ ts < 94))
  let s3 := { s2 with power := { s2.power with thermal := on, hot := s2.power.hot && !decide (tj < 90) } }
  if on ∧ !s.power.thermal then s3.irqPwr Fld.PWR_INT_STATUS_THERMAL else s3

/-- R661: *T*j has stayed at or above 110 °C for 100 µs. -/
def State.thermtrip (s : State) : State :=
  let s1 := (s.askHalt 5).irqPwr Fld.PWR_INT_STATUS_THERMTRIP
  ({ s1 with thermAlert := true, power := { s1.power with hot := true } }.platEvent 5 0).emit .powerRemoval
def execThermtrip (s : State) : Host.Outcome State Fault Refusal := .next s.thermtrip

/-! ## Limiter registers -/

/-- R659, R662, R668: a write of `PWR_LIM_CTRL`. It stands over a `LIMREQ` of its cycle. -/
def State.limCtrlW (s : State) (v : Word) : State :=
  let a := Reg.PWR_LIM_CTRL
  let locked := s.flag a Fld.PWR_LIM_CTRL_MODE_LOCK
  let s1 := s.regWrite a v
  let s1 := { s1 with power := { s1.power with modeAt := some s.now } }
  let s2 := if locked then s1 else allParts.foldl (fun (s : State) p => s.setSq p { s.sq p with limreq := 0 }) s1
  if s2.flag a Fld.PWR_LIM_CTRL_FF_EN then s2.fput Reg.PWR_LIM_STAT Fld.PWR_LIM_STAT_VF_IDX (s2.fget a Fld.PWR_LIM_CTRL_FF_IDX) else s2
def execLimModeWrite (r : RegReq) (v : Word) (s : State) : Host.Outcome State Fault Refusal :=
  .next (s.write r Reg.PWR_LIM_CTRL fun s => s.limCtrlW v)
def execLimModeLock (r : RegReq) (v : Word) (s : State) : Host.Outcome State Fault Refusal :=
  .next (s.write r Reg.PWR_LIM_CTRL fun s => s.limCtrlW (Fld.PWR_LIM_CTRL_MODE_LOCK.put v 1))
def execFixedFreqWrite (r : RegReq) (v : Word) (s : State) : Host.Outcome State Fault Refusal :=
  .next (s.write r Reg.PWR_LIM_CTRL fun s => s.limCtrlW v)

/-- R670: a write of `PWR_CAP`. -/
def State.capW (s : State) (v : Word) : State :=
  let w := Fld.PWR_CAP_W.get v
  if 680 ≤ w ∧ w ≤ 1200 then s.regWrite Reg.PWR_CAP v else s.irqPwr Fld.PWR_INT_STATUS_CAP_REJECT
def execPwrCapWrite (r : RegReq) (v : Word) (s : State) : Host.Outcome State Fault Refusal :=
  .next (s.write r Reg.PWR_CAP fun s => s.capW v)

end Sys2Proof.Machine
end

