-- ==== Sys2Proof/Machine/Sram.lean ====
section
/-! DEFINITION. Scrubbing of core SRAM, column tests and the retirement of cores (R238 to R246). -/

namespace Sys2Proof.Machine

/-- The index of a macro, as the column errors count it. -/
def macroIdx (c b m : Nat) : Nat := c * 256 + b * 16 + m
def State.setSpare (s : State) (c b m k v : Nat) : State :=
  { s with cores := { s.cores with spares := SMap.set (fun _ => 0) s.cores.spares (spareIdx c b m k) v } }

/-- R238: the scrubber reads codeword `w` of a row. A word that it finds uncorrectable stays so until it is written (R237). -/
def State.scrubRead (s : State) (c b m row w : Nat) (finds : ScrubFinding) : State :=
  let word := b * 65536 + m * 4096 + row * 8 + w
  if !s.flag Reg.DBG_SCRUB_CTRL Fld.DBG_SCRUB_CTRL_EN then s
  else match finds with
    | .clean => s
    | .corrected bit => s.sramCe 0 c word bit 2
    | .uncorrectable =>
      let s1 := s.noteUe 0 c b m row 2
      { s1 with cores := { s1.cores with ueWords := SMap.set (fun _ => false) s1.cores.ueWords (c * 1048576 + word) true } }
def execScrubRead (c b m row w : Nat) (finds : ScrubFinding) (s : State) : Host.Outcome State Fault Refusal :=
  .next (s.scrubRead c b m row w finds)

/-- R246: a quadrant has more pending retirements than unbound spares. -/
def State.checkQuad (s : State) (q : Nat) : State :=
  let pend := ((List.range 34).filter fun i =>
    let a := Reg.DBG_CORE_STAT (34 * q + i)
    s.fget a Fld.DBG_CORE_STAT_ROLE == 0 && s.flag a Fld.DBG_CORE_STAT_RETIRE_PEND).length
  let left := bitsOf (s.fget Reg.DBG_QUAD_STAT Fld.DBG_QUAD_STAT_SPARES_LEFT) (2 * q) 2
  if left < pend then s.setBits Reg.DBG_QUAD_STAT (2 ^ q) else s

/-- R244. -/
def State.retirePend (s : State) (c : Nat) : State :=
  (s.fput (Reg.DBG_CORE_STAT c) Fld.DBG_CORE_STAT_RETIRE_PEND 1).checkQuad (c / 34)

/-- The last verdict (R253). -/
def State.showVerdict (s : State) (c b m col verdict first n : Nat) : State :=
  (((s.wr Reg.DBG_COLTEST (Fld.DBG_COLTEST_VERDICT.put (Fld.DBG_COLTEST_COL.put (Fld.DBG_COLTEST_MACRO.put (Fld.DBG_COLTEST_BANK.put
    (Fld.DBG_COLTEST_PCORE.put 0 c) b) m) col) verdict)).wr Reg.DBG_COLTEST_ROW
      (Fld.DBG_COLTEST_ROW_NFAIL.put (Fld.DBG_COLTEST_ROW_FIRST.put 0 first) n)).setBits Reg.DBG_SRAM_STAT
        Fld.DBG_SRAM_STAT_TEST_DONE.mask).irqDbg Fld.DBG_INT_STATUS_SRAM

def State.showTest (s : State) : State :=
  s.fput Reg.DBG_SRAM_STAT Fld.DBG_SRAM_STAT_TEST_BUSY (b2n !s.cores.tests.isEmpty)

/-- R239: a column is due for a test: its errors have reached the threshold, and no spare stands for it. -/
def State.testDue (s : State) (c b m col : Nat) : Bool :=
  s.cores.scrubPass == s.scrubPass &&
    decide (s.fget Reg.DBG_SCRUB_CTRL Fld.DBG_SCRUB_CTRL_THRESH ≤ SMap.get (fun _ => 0) s.cores.colErrs (macroIdx c b m * 1024 + col)) &&
    SMap.get (fun _ => 0) s.cores.colErrs (macroIdx c b m * 1024 + col) != 0 &&
    (List.range 4).all fun k => s.spare c b m k / 1024 == 0 || s.spare c b m k % 1024 != col

/-- R240 steps 1 to 4, R244. -/
def State.columnTest (s : State) (c b m col : Nat) : State :=
  if !s.testDue c b m col then s
  else
    let s1 := { s with cores := { s.cores with colErrs := SMap.erase s.cores.colErrs (macroIdx c b m * 1024 + col) } }
    match (List.range 4).find? fun k => s.spare c b m k / 1024 == 0 with
    | none =>
      ({ s1 with cores := { s1.cores with deferred := s1.cores.deferred ++ [(c, b, m, col)] } }.showVerdict c b m col 7 0x3FF 0).retirePend c
    | some k =>
      let s2 := s1.setSpare c b m k (col + 1024)
      { s2 with cores := { s2.cores with tests := s2.cores.tests ++ [(c, b, m, col, k)] } }.showTest
def execColumnTest (c b m col : Nat) (s : State) : Host.Outcome State Fault Refusal := .next (s.columnTest c b m col)

/-- R242: what each pattern writes to a row of a test; 512 is the near dummy row, 513 the far one. -/
def patBit (pat row : Nat) : Nat :=
  match pat with
  | 0 => 0
  | 1 => 1
  | 2 => if row = 512 then 1 else if row = 513 then 0 else row % 2
  | _ => if row = 512 then 0 else if row = 513 then 1 else 1 - row % 2

/-- R242: the verdict on the failing rows of the four patterns. Where no row of the table fits, the spec gives none. -/
def verdictOf (fails : List (List Nat)) : Nat :=
  let u := (List.range 514).filter fun r => fails.any fun l => l.contains r
  let d := u.filter (· < 512)
  let near := u.contains 512
  let far := u.contains 513
  let first := d.headD 512
  let run := d.length == 512 - first
  let zeros := (List.range 4).all fun p => (fails.getD p []).all fun r => patBit p r == 0
  if u = [] then 0
  else if d = [] ∧ far ∧ !near then 6
  else if d.length = 1 ∧ !far then 4
  else if d ≠ [] ∧ run ∧ far ∧ !near ∧ zeros then 1
  else if d ≠ [] ∧ run ∧ !far ∧ !near then 2
  else if u.length = 514 then 3
  else if 2 ≤ d.length ∧ !(run ∧ far) then 5
  else Config.openValue 22 u % 7

/-- R252, R254: the reads of a column test that fail, each an error of the one bit tested: dummy rows are 0x200 and 0x201. -/
def State.noteFails (s : State) (c b m col : Nat) (fails : List (List Nat)) : State :=
  fails.foldl (fun s l => l.foldl (fun (s : State) row => s.noteCe 0 c b m col row 3) s) s

/-- R240 step 5, R242 to R244, R255 (`HARD_COLS` holds at 0xFF, as the spec says of `CELL_FAULTS` alone: DESIGN CHOICE, log 44): a running test (of a maintenance reset without a spare: spare index 4) ends, with the rows that failed under each pattern. -/
def State.testVerdict (s : State) (c b m col : Nat) (fails : List (List Nat)) : State :=
  match s.cores.tests.find? fun t => t.1 == c && t.2.1 == b && t.2.2.1 == m && t.2.2.2.1 == col with
  | none => s
  | some t =>
    let v := verdictOf fails
    let d := (List.range 512).filter fun r => fails.any fun l => l.contains r
    let keep := v == 1 || v == 2 || v == 3 || v == 5
    let s0 := s.noteFails c b m col fails
    let s1 := { s0 with cores := { s0.cores with tests := s0.cores.tests.filter (· ≠ t) } }.showTest
    let bare := decide (4 ≤ t.2.2.2.2)
    let s2 := if bare then (if keep then s1.retirePend c else s1) else s1.setSpare c b m t.2.2.2.2 (if keep then col + 2048 else 0)
    let a := Reg.DBG_CORE_STAT c
    let s3 := if keep then (if bare then s2 else s2.bump a Fld.DBG_CORE_STAT_HARD_COLS 1) else if v == 4 then s2.bump a Fld.DBG_CORE_STAT_CELL_FAULTS 1 else s2
    let s4 := s3.showVerdict c b m col v (d.headD 0x3FF) d.length
    if v == 4 && Nat.blt 64 (s4.fget a Fld.DBG_CORE_STAT_CELL_FAULTS) then s4.retirePend c else s4
def execColumnTestVerdict (c b m col : Nat) (fails : List (List Nat)) (s : State) : Host.Outcome State Fault Refusal :=
  .next (s.testVerdict c b m col fails)

/-- R244, R255: a write of `DBG_CORE_STAT_p`. -/
def State.coreStatW (s : State) (c : Nat) (v : Word) : State :=
  if Fld.DBG_CORE_STAT_RETIRE_PEND.get v = 1 then s.retirePend c else s
def execRetirePendSet (r : RegReq) (c : Nat) (v : Word) (s : State) : Host.Outcome State Fault Refusal :=
  .next (s.write r (Reg.DBG_CORE_STAT c) fun s => s.coreStatW c v)

/-! ## At a maintenance reset (R245) -/

/-- The first unbound spare of a quadrant. -/
def State.freeSpare (s : State) (q : Nat) : Option Nat :=
  ((List.range 34).map (34 * q + ·)).find? fun c => s.fget (Reg.DBG_CORE_STAT c) Fld.DBG_CORE_STAT_ROLE == 1

/-- One logical index whose core is to retire is bound anew. -/
def State.rebind (s : State) (l : Nat) : State :=
  let c := s.phys l
  let a := Reg.DBG_CORE_STAT c
  if s.fget a Fld.DBG_CORE_STAT_ROLE ≠ 0 ∨ !s.flag a Fld.DBG_CORE_STAT_RETIRE_PEND then s
  else
    match s.freeSpare (l / 32) with
    | none => s
    | some n =>
      let b := Reg.DBG_CORE_STAT n
      let left := s.fget Reg.DBG_QUAD_STAT Fld.DBG_QUAD_STAT_SPARES_LEFT
      let s1 := s.wr a (Fld.DBG_CORE_STAT_RETIRE_PEND.put (Fld.DBG_CORE_STAT_LOGICAL.put (Fld.DBG_CORE_STAT_ROLE.put (s.rd a) 2) 0xFF) 0)
      let s2 := s1.wr b (Fld.DBG_CORE_STAT_LOGICAL.put (Fld.DBG_CORE_STAT_ROLE.put (s1.rd b) 0) l)
      { s2 with coreMap := SMap.set coreMap0 s2.coreMap l n }.fput Reg.DBG_QUAD_STAT Fld.DBG_QUAD_STAT_SPARES_LEFT
        (left - 4 ^ (l / 32))
def State.retire (s : State) : State :=
  [0, 1, 2, 3].foldl State.checkQuad ((List.range 128).foldl State.rebind s)

/-- The deferred tests begin, each with the lowest FREE spare of its macro where there is one. -/
def State.startDeferred (s : State) : State :=
  State.showTest (s.cores.deferred.foldl (fun (s : State) t =>
    let (c, b, m, col) := t
    let k := (([0, 1, 2, 3].find? fun k => s.spare c b m k == 0)).getD 4
    let s1 := if k < 4 then s.setSpare c b m k (col + 1024) else s
    { s1 with cores := { s1.cores with tests := s1.cores.tests ++ [(c, b, m, col, k)] } })
    { s with cores := { s.cores with deferred := [] } })

end Sys2Proof.Machine
end

