-- ==== Sys2Proof/Machine/Boot.lean ====
section
/-! DEFINITION. Resets, the boot sequence, image update and PCIe configuration requests (R676 to R707, R722). -/

namespace Sys2Proof.Machine

/-! ## Resets -/

/-- Registers of the battery-backed domain and of the repair store, which no reset touches (R680, R243). -/
def batteryReg (a : Nat) : Bool :=
  a == Reg.KEY_ROOT_STAT || a == Reg.MTR_PERIOD || (Reg.MTR_SETLOG_OLD_LO 0 ≤ a && a ≤ Reg.MTR_SETLOG_STAT) ||
    (Reg.DBG_CORE_STAT 0 ≤ a && a < Reg.DBG_CORE_STAT 136) || a == Reg.DBG_QUAD_STAT ||
    (List.range 8).any fun k => a == Reg.MEM_PPR_COUNT k

/-- The retention registers of R680 and R762. -/
def retainedReg (a : Nat) : Bool :=
  a == Reg.GLB_RST_COUNT || a == Reg.PWR_GAIN || a == Reg.PWR_LIM_STAT || a == Reg.PWR_INT_STATUS || a == Reg.MTR_CTRL || a == Reg.MTR_STAT ||
    (Reg.PWR_THR_DUR_LO 0 ≤ a && a ≤ Reg.PWR_THR_DUR_HI 4)

/-- The registers that a reset leaves: those above, but for the fields of theirs that are not kept. -/
def State.keptRegs (s : State) (cold maint : Bool) : State :=
  let s1 := { s with regs := SMap.keep s.regs fun a => batteryReg a || (!cold && retainedReg a) }
  let s2 := (s1.fput Reg.KEY_ROOT_STAT Fld.KEY_ROOT_STAT_IDENT_OK 0).fput Reg.KEY_ROOT_STAT Fld.KEY_ROOT_STAT_DRBG_OK 0
  let s3 := s2.fput Reg.DBG_QUAD_STAT Fld.DBG_QUAD_STAT_QUAD_FAIL 0
  let s4 := if maint then s3 else
    (List.range 136).foldl (fun (s : State) c =>
      if s.flag (Reg.DBG_CORE_STAT c) Fld.DBG_CORE_STAT_RETIRE_PEND then s.fput (Reg.DBG_CORE_STAT c) Fld.DBG_CORE_STAT_RETIRE_PEND 0 else s) s3
  if cold then s4
  else
    let st := Reg.PWR_LIM_STAT
    let s5 := (((s4.fput st Fld.PWR_LIM_STAT_MODE 0).fput st Fld.PWR_LIM_STAT_VF_IDX 2).fput st Fld.PWR_LIM_STAT_HOLD 0).fput st
      Fld.PWR_LIM_STAT_CAL_REJ 0
    let i := Reg.PWR_INT_STATUS
    let s6 := s5.wn i (s5.rn i &&& Fld.PWR_INT_STATUS_THERMTRIP.mask)
    (s6.fput Reg.MTR_STAT Fld.MTR_STAT_SAG_FROZEN (b2n s.mtr.snap.isSome)).bump Reg.GLB_RST_COUNT Fld.GLB_RST_COUNT_WARM 1

/-- R49 to R51 do not apply to a reset: everything that is neither kept nor in memory is as after reset. The DRAM holds its contents until
the wipe (R688). -/
def State.resetAll (s : State) (cold maint : Bool) : State :=
  let ms := s.now / 100000
  let k := s.keptRegs cold maint
  { ({} : State) with
    now := if cold then 0 else s.now
    regs := k.regs
    out := s.out
    pending := s.pending
    serial := s.serial
    dram := s.dram
    poison := s.poison
    keeper := { gen := s.keeper.gen, draws := s.keeper.draws }
    cores := { spares := SMap.keep s.cores.spares fun i => 2048 ≤ SMap.get (fun _ => 0) s.cores.spares i, deferred := s.cores.deferred }
    coreMap := s.coreMap
    stks := (List.range 8).foldl (fun m k => SMap.set (fun _ => {}) m k { repaired := (s.stk k).repaired }) []
    fuses := { code := s.fuses.code, tokens := s.fuses.tokens, unique := s.fuses.unique }
    flash := s.flash
    flashActive := s.flashActive
    flashPending := s.flashPending
    meters := if cold then [] else s.meters
    meterHold := s.mtr.snap.isSome
    mtr :=
      if cold then
        { rtcOfs := s.mtr.rtcOfs + ms, monoOfs := s.mtr.monoOfs + ms, rtcOpen := s.mtr.rtcOpen, monoOpen := s.mtr.monoOpen,
          prev := s.mtr.prev, snap := s.mtr.snap }
      else s.mtr
    trayOfs := if cold then 0 else -((10 * s.now : Nat) : Int)
    trayRef := if cold then 0 else -((10 * s.now : Nat) : Int)
    trayAt := if cold then 0 else s.now
    power := { slotId := s.power.slotId, off := s.power.off, perst := s.power.perst, hot := s.power.hot, winBad := !cold, maint := maint, relAt := none,
               aonHeld := cold || s.power.aonHeld, aonAt := if cold then 0 else s.power.aonAt } }

/-- The running sequence is released when nothing holds it (R661, R676, R691): the stacks are initialised (R301) until WIPE_DONE, and the
strapped tray slot is sampled (R805). -/
def State.release (s : State) : State :=
  if s.power.relAt.isSome ∨ s.power.off ∨ s.power.perst ∨ s.power.hot then s
  else
    let s1 := (List.range 8).foldl (fun (s : State) k => s.fput (Reg.MEM_STK_STAT k) Fld.MEM_STK_STAT_STATE 1) s
    { s1.fput Reg.MGT_TB_STAT Fld.MGT_TB_STAT_SLOT s.power.slotId with power := { s.power with relAt := some s.now, aonHeld := false, aonAt := if s.power.aonHeld then s.now else s.power.aonAt } }

def State.bootDone (s : State) : Bool := s.flag Reg.GLB_BOOT_STAT Fld.GLB_BOOT_STAT_READY

/-- R681: the triggers of this cycle before this one, if there are any. -/
def State.resetNow (s : State) : Option ResetTrig :=
  match s.power.rst with
  | some x => if x.time = s.now then some x else none
  | none => none

/-- R681: a trigger joins those of its cycle: the widest type, the lowest cause. -/
def State.joinReset (s : State) (cold maint : Bool) (cause level last : Nat) : ResetTrig :=
  match s.resetNow with
  | some x => { x with
      cold := x.cold || cold, maint := x.maint || maint, cause := min x.cause cause, wdt := x.wdt || cause == 7
      level := max x.level level, last := if last = 0 then x.last else last }
  | none => {
      time := s.now, cold := cold, maint := maint, cause := cause, again := !s.bootDone, wdt := cause == 7, level := level, last := last
      count := s.rn Reg.GLB_RST_COUNT, deferred := s.cores.deferred
      retire := (List.range 136).filter fun c => s.flag (Reg.DBG_CORE_STAT c) Fld.DBG_CORE_STAT_RETIRE_PEND }

/-- R681: what the earlier triggers of the cycle took from what a reset keeps stands again, so that one reset runs. -/
def State.undoReset (s : State) : State :=
  match s.resetNow with
  | some x => { x.retire.foldl (fun (s : State) c => s.fput (Reg.DBG_CORE_STAT c) Fld.DBG_CORE_STAT_RETIRE_PEND 1)
      (s.wn Reg.GLB_RST_COUNT x.count) with cores := { s.cores with deferred := x.deferred } }
  | none => s

/-- R679 to R681, R715, R722: a reset with a cause, of the type given, carrying a debug level and `LCS_LAST`. A trigger before READY restarts the
sequence. -/
def State.reboot (s : State) (cold maint : Bool) (cause level last : Nat) : State :=
  let x := s.joinReset cold maint cause level last
  let maint := x.maint && !x.cold
  let s1 := s.undoReset.fuseCut.resetAll x.cold maint
  let s2 := s1.wr Reg.GLB_RST_CAUSE (Fld.GLB_RST_CAUSE_RESTARTED.put (Fld.GLB_RST_CAUSE_CAUSE.put 0 x.cause)
    (b2n (x.again && x.cause != 1)))
  let s3 := (s2.showFuses.fput Reg.LCS_STAT Fld.LCS_STAT_LEVEL x.level).wn Reg.LCS_LAST x.last
  let s4 := if x.wdt then s3.setBits Reg.GLB_INT_STATUS Fld.GLB_INT_STATUS_WDT.mask else s3
  let s5 := { s4 with power := { s4.power with rst := some { x with time := s4.now } } }
  (if maint then s5.startDeferred else s5).release

/-- R679, cause 1; `ms` is how long main power was absent. The regulators have started (R800). -/
def State.powerOn (s : State) (ms : Nat) : State :=
  if s.power.off ∧ !s.power.rails then s
  else
    let s1 := { s with
      power := { s.power with off := false }
      mtr := { s.mtr with rtcOfs := s.mtr.rtcOfs + ms, monoOfs := s.mtr.monoOfs + ms } }
    s1.reboot true false 1 0 0
def execPowerOn (ms : Nat) (s : State) : Host.Outcome State Fault Refusal := .next (s.powerOn ms)

/-- R648, cause 2: the OR-ed input has stayed below 40 V for 1 µs. -/
def execBrownout (s : State) : Host.Outcome State Fault Refusal :=
  .next ({ s with power := { s.power with off := true } }.reboot true false 2 0 0)

/-- R647; after a reset of R648 it is the recovery of the input, and the sequence is released. -/
def State.sagEnd (s : State) : State :=
  if s.power.off then { s with power := { s.power with off := false } }.release else s.sagOver
def execSagEnd (s : State) : Host.Outcome State Fault Refusal := .next s.sagEnd

/-- R800: the regulators start. -/
def execHotInsert (s : State) : Host.Outcome State Fault Refusal :=
  .next { s with power := { s.power with rails := s.power.off } }

/-- R660, R661: the sensors; a restart that the thermal trip held back may begin. -/
def execThermalEstimate (tjs : List Nat) (s : State) : Host.Outcome State Fault Refusal := .next (s.thermal tjs).release

/-- R679, cause 3: `PERST_N` asserted; R691: released. -/
def execPerstAssert (s : State) : Host.Outcome State Fault Refusal :=
  .next ({ s with power := { s.power with perst := true } }.reboot false false 3 0 0)
def execPerstRelease (s : State) : Host.Outcome State Fault Refusal :=
  .next { s with power := { s.power with perst := false } }.release

/-- R679, cause 4. -/
def execHotReset (s : State) : Host.Outcome State Fault Refusal := .next (s.reboot false false 4 0 0)

/-- R681, R701: a write of `GLB_RST_CTRL`; with both bits the maintenance reset runs under the lower cause. -/
def State.rstCtrlW (s : State) (who : Nat) (v : Word) : State :=
  let warm := Fld.GLB_RST_CTRL_WARM.get v = 1
  let maint := Fld.GLB_RST_CTRL_MAINT.get v = 1
  if Fld.GLB_RST_CTRL_KEY.get v ≠ 0xA5C3 ∨ (!warm ∧ !maint) then s
  else s.reboot false maint (if warm then (if who = 1 then 6 else 5) else 9) 0 0
def execWarmResetCmd (r : RegReq) (v : Word) (s : State) : Host.Outcome State Fault Refusal :=
  .next (s.write r Reg.GLB_RST_CTRL fun s => s.rstCtrlW r.who v)
def execMaintResetCmd (r : RegReq) (v : Word) (s : State) : Host.Outcome State Fault Refusal :=
  .next (s.write r Reg.GLB_RST_CTRL fun s => s.rstCtrlW r.who v)

/-- R682: the watchdog runs while the block is READY, a trigger of this cycle before it or none. -/
def State.watchdogRuns (s : State) : Bool := s.bootDone || (match s.resetNow with | some x => !x.again | none => false)
def execKeeperWatchdog (s : State) : Host.Outcome State Fault Refusal :=
  .next (if s.watchdogRuns then s.reboot false false 7 0 0 else s)

/-! ## The boot sequence (R685) -/

/-- The sequence runs, and step 3 has accepted the unique-secret array (R718). -/
def State.booting (s : State) : Bool := s.power.relAt.isSome && !s.bootDone && s.fuses.unique != 2

/-- R243: the repair store has failed its check; the factory repairs stand alone. -/
def State.dropRepairs (s : State) : State :=
  let s1 := { s with coreMap := [], cores := { s.cores with spares := [] } }
  let s2 := (s1.resetRegs (Reg.DBG_CORE_STAT 0) (Reg.DBG_CORE_STAT 136)).wr Reg.DBG_QUAD_STAT (regReset Reg.DBG_QUAD_STAT)
  ((List.range 8).foldl (fun (s : State) k => (s.setStk k { s.stk k with repaired := [] }).wn (Reg.MEM_PPR_COUNT k) 0) s2).fput Reg.GLB_BOOT_STAT Fld.GLB_BOOT_STAT_REPAIR_AUTH 1

/-- R685 step 5 and 6, R687 to R690, R39: stack `k` trained and wiped, with its interface link keys; or FAILED and left. -/
def State.startStack (s : State) (k : Nat) (failed : Bool) : State :=
  let a := Reg.MEM_STK_STAT k
  if failed then (s.fput a Fld.MEM_STK_STAT_STATE 3).irqMem Fld.MEM_INT_STATUS_STK_FAIL.mask
  else
    let s1 := { s with
      dram := SMap.clear s.dram (k * 2 ^ 37) ((k + 1) * 2 ^ 37)
      poison := SMap.clear s.poison (k * 2 ^ 28) ((k + 1) * 2 ^ 28) }.fput a Fld.MEM_STK_STAT_STATE 2
    if s1.fget Reg.LCS_STAT Fld.LCS_STAT_LEVEL = 0 then s1.ifcKeys k else s1

/-- R685 steps 2 to 9: `failed` has the bits of the stacks that did not answer, `bad` the physical cores whose engine self-test failed;
`auth` says whether the repair store passed its check. -/
def State.wipeDone (s : State) (failed : Nat) (bad : List Nat) (auth : Bool) : State :=
  if !s.booting ∨ s.flag Reg.GLB_BOOT_STAT Fld.GLB_BOOT_STAT_WIPE_DONE then s
  else
    let bs := Reg.GLB_BOOT_STAT
    let s := { s with power := { s.power with selfFail := bad } }
    let s1 := if auth then s else s.dropRepairs
    let s2 := (s1.wn Reg.GLB_CLK_STAT 0x7FF).fput Reg.KEY_ROOT_STAT Fld.KEY_ROOT_STAT_DRBG_OK 1
    let s3 := (List.range 8).foldl (fun (s : State) k => s.startStack k (bitOf failed k)) s2
    let s4 := (s3.fput bs Fld.GLB_BOOT_STAT_STK_FAIL (failed % 256)).fput bs Fld.GLB_BOOT_STAT_WIPE_DONE 1
    let s5 := s4.fput Reg.GLB_BOOT_TIME Fld.GLB_BOOT_TIME_WIPE_US ((s.now - s.power.relAt.getD 0) / 1000)
    let s6 := if (s.bootCopy 1).isSome then s5.fput bs Fld.GLB_BOOT_STAT_STAGE 2 else s5
    if failed % 256 = 0 then s6 else s6.irqGlb Fld.GLB_INT_STATUS_STK_FAIL
def execWipeDone (failed : ResetFailures) (auth : Bool) (s : State) : Host.Outcome State Fault Refusal :=
  .next (s.wipeDone failed.stackMask failed.cores auth)

/-- R695: a copy that booted becomes active, and its pending mark goes; a pending copy that failed is unmarked. -/
def State.settleCopy (s : State) (t : Nat) (booted : Option Nat) : State :=
  let m := 2 ^ (t - 1)
  let act := b2n (bitOf s.flashActive (t - 1))
  let s1 := if bitOf s.flashPending (t - 1) ∧ booted = some (1 - act) then { s with flashActive := s.flashActive ^^^ m } else s
  { s1 with flashPending := s1.flashPending - (s1.flashPending &&& m) }

/-- R695, R705: image type `t` runs from its copy. -/
def State.runImage (s : State) (t : Nat) : State :=
  match s.bootCopy t with
  | none => s.settleCopy t none
  | some c =>
    let bs := Reg.GLB_BOOT_STAT
    let s1 := s.fput bs Fld.GLB_BOOT_STAT_COPY (s.fget bs Fld.GLB_BOOT_STAT_COPY ||| c * 2 ^ (t - 1))
    (s1.wn (Reg.GLB_VER (t + 1)) (imgVersion (s.flashFile t c))).settleCopy t (some c)

/-- R697: the six components of the running set. -/
def State.components (s : State) : List Nat :=
  let v := s.rn Reg.GLB_ID
  (v / 4096 % 16 + 256 * (v / 256 % 16)) :: (List.range 5).map fun i => s.rn (Reg.GLB_VER (i + 1))

/-- R696, R697, R704: the firmware set is matched against the list; answers `SVC_WHY`, 0 for a tested set. -/
def State.matchList (s : State) (whole : Bool) : State × Nat :=
  match s.listCopy with
  | none => (s.settleCopy 5 none, if whole then 3 else 2)
  | some c =>
    let f := s.flashFile 5 c
    let s1 := (s.settleCopy 5 (some c)).wn Reg.GLB_LIST_VER (listVersion f)
    if !whole then (s1, 2)
    else
      match matchSet s.components (listEntries (imgPayload f)) with
      | .ok id => (s1.wn Reg.GLB_FWSET id, 0)
      | .error (a, b) => ((s1.fput Reg.GLB_UNTESTED Fld.GLB_UNTESTED_UNT_A a).fput Reg.GLB_UNTESTED Fld.GLB_UNTESTED_UNT_B b, 1)

/-- R760: management firmware closes the period of a sag that a reset followed. -/
def State.sagClose (s : State) : State :=
  match s.mtr.snap with
  | none => s
  | some r => ({ s with meterHold := false }.closeWith r |>.fput Reg.MTR_STAT Fld.MTR_STAT_SAG_FROZEN 0).irqMtr Fld.MTR_INT_STATUS_SAG_CLOSE

/-- R709, R710, R720: this chapter's service state. -/
def State.lcsService (s : State) : Bool :=
  let st := s.fget Reg.LCS_STAT Fld.LCS_STAT_STATE
  (st != 1 && st != 2) || s.fget Reg.LCS_STAT Fld.LCS_STAT_LEVEL != 0

/-- R511, R685 step 10: the identity is derived where the root, the unique secret and the debug level allow it. -/
def State.deriveIdentity (s : State) : State :=
  s.fput Reg.KEY_ROOT_STAT Fld.KEY_ROOT_STAT_IDENT_OK
    (b2n (s.rootOk && s.fuses.unique == 1 && s.fget Reg.LCS_STAT Fld.LCS_STAT_LEVEL == 0))

/-- R484, R720, R790: the keeper loads the diagnostic pair from a fresh draw; at a debug level every slot stays EMPTY. -/
def State.loadDiag (s : State) : State :=
  if s.fget Reg.LCS_STAT Fld.LCS_STAT_LEVEL ≠ 0 ∨ !s.entropy then s
  else
    let (s1, v) := s.draw
    (s1.loadSlot 0xB0 (v.take 32) 0 0 0 0 false []).loadSlot 0xB1 (v.take 32) 1 0 0 0 false []

/-- Step 11: the stage, READY and its interrupts. -/
def State.reachReady (s : State) (stage why : Nat) : State :=
  let bs := Reg.GLB_BOOT_STAT
  let s1 := ((s.fput bs Fld.GLB_BOOT_STAT_STAGE stage).fput bs Fld.GLB_BOOT_STAT_SVC_WHY why).fput bs Fld.GLB_BOOT_STAT_READY 1
  let s2 := s1.fput Reg.GLB_BOOT_TIME Fld.GLB_BOOT_TIME_READY_US ((s.now - s.power.relAt.getD 0) / 1000)
  let s3 := if stage = 4 then s2.irqGlb Fld.GLB_INT_STATUS_SERVICE else s2
  s3.irqGlb Fld.GLB_INT_STATUS_BOOT_READY

/-- R685 steps 8 to 11, R686, R689, R695 to R699, R709, R710. The cores whose engine self-test failed at this reset are to retire at the
next maintenance reset (R244). -/
def State.bootReady (s : State) : State :=
  if !s.booting ∨ !s.flag Reg.GLB_BOOT_STAT Fld.GLB_BOOT_STAT_WIPE_DONE ∨ (s.power.maint ∧ !s.cores.tests.isEmpty) then s
  else
    let s0 := { (if s.power.maint then s.retire else s) with power := { s.power with maint := false, selfFail := [] } }
    let s1 := (s.power.selfFail.foldl State.retirePend s0).wr (Reg.GLB_VER 1) Config.romVersion
    if (s.bootCopy 1).isNone then (s1.settleCopy 1 none).reachReady 5 0
    else
      let whole := [2, 3, 4].all fun t => (s.bootCopy t).isSome
      let s2 := [1, 2, 3, 4].foldl State.runImage s1
      let (s3, w) := s2.matchList whole
      let why := if s3.lcsService then 0 else if s3.fget Reg.GLB_BOOT_STAT Fld.GLB_BOOT_STAT_STK_FAIL ≠ 0 then 4 else w
      let s3 := s3.loadDiag
      let s4 := if (s.bootCopy 2).isSome then s3.sagClose.fput Reg.MGT_TB_CTRL Fld.MGT_TB_CTRL_EN 1 else s3
      s4.deriveIdentity.reachReady (if s3.lcsService ∨ why ≠ 0 then 4 else 3) why
def execBootReady (s : State) : Host.Outcome State Fault Refusal := .next s.bootReady

/-! ## Image update (R700) -/

/-- What serves an update: management firmware, or the boot ROM in RECOVERY. -/
def State.updates (s : State) (a : Nat) (f : State → State) : State :=
  if s.bootDone then f s else s.emit (.message a 2 4 [])

/-- R700: the complete file of a component has been transferred for requester `a`: VerifyComplete. -/
def State.fwUpdate (s : State) (a t : Nat) (file : List Byte) : State :=
  s.updates a fun s =>
    if t = 0 ∨ 5 < t then s.emit (.message a 2 0x17 (leBytes 1 1))
    else
      let m := 2 ^ (t - 1)
      let c := 1 - b2n (bitOf s.flashActive (t - 1))
      let s1 := { s with flash := SMap.set (fun _ => none) s.flash (2 * t + c) (some file) }
      if imgValid t file then
        ({ s1 with flashPending := s1.flashPending ||| m }.irqGlb Fld.GLB_INT_STATUS_FW_PENDING).emit (.message a 2 0x17 (leBytes 1 0))
      else { s1 with flashPending := s1.flashPending - (s1.flashPending &&& m) }.emit (.message a 2 0x17 (leBytes 1 1))
def execPldmFwUpdate (a t : Nat) (file : List Byte) (s : State) : Host.Outcome State Fault Refusal := .next (s.fwUpdate a t file)

/-- R700: activation needs a reset. -/
def execActivateFirmware (a : Nat) (s : State) : Host.Outcome State Fault Refusal :=
  .next (s.updates a fun s => s.emit (.message a 2 0x1A (leBytes 1 1)))

/-! ## PCIe configuration (R595, R684, R691) -/

/-- R595: a dword of a function's configuration header. What the PCIe specification alone lays out is a free value. -/
def State.configDword (s : State) (fn off : Nat) : Word :=
  match off with
  | 0 => BitVec.ofNat 32 (0x1F3A + 65536 * (if fn = 0 then 0x5A60 else 0x5A61))
  | 8 => BitVec.ofNat 32 (s.rn Reg.GLB_ID / 256 % 256 + 256 * 0x120000)
  | 0x2C => Config.subsystem
  | _ => BitVec.ofNat 32 (Config.openValue 26 [fn, off, s.now])

/-- A configuration request of function `fn`: kind 0 reads the dword at `v`; 1 writes Memory Space Enable of PF0; 2 writes VF Enable and NumVFs
(`v`, 0 for VF Enable clear). -/
def State.configReq (s : State) (fn kind v : Nat) : State :=
  if s.power.relAt.isNone then s
  else if !s.bootDone ∨ s.crsFor fn then s.emit (.status fn 3)
  else if fn ≠ 0 ∧ !s.vfEnabled fn then s.emit (.status fn 1)
  else if kind = 0 then s.emit (.configData fn v (s.configDword fn v))
  else if fn ≠ 0 then s.emit (.status fn 0)
  else if kind = 1 then { s with mse := v % 2 == 1 }.emit (.status fn 0)
  else if kind = 2 then
    (if v = 0 then (if s.vfs = 0 then s else s.vfDisable) else { s with vfs := min v (allParts.filter fun p => s.nquad p != 0).length }).emit (.status fn 0)
  else s.emit (.status fn 0)
def execPcieConfigRequest (fn kind v : Nat) (s : State) : Host.Outcome State Fault Refusal := .next (s.configReq fn kind v)

end Sys2Proof.Machine
end

