-- ==== Sys2Proof/Machine/Debug.lean ====
section
/-! DEFINITION. Partition counters, freezes and dumps of the Sepia rings, single-stepping and the debug memory window (R770 to R797). -/

namespace Sys2Proof.Machine

/-! ## Counters (R771 to R773) -/

def execCounterConfigWrite (r : RegReq) (p k : Nat) (v : Word) (s : State) : Host.Outcome State Fault Refusal :=
  .next (s.write r (Reg.TDBG_CNT_CFG p (k % 16)) fun s => s.regWrite (Reg.TDBG_CNT_CFG p (k % 16)) v)

/-- A write of `TDBG_CNT_CTRL`. -/
def State.cntCtrlW (s : State) (p : Nat) (v : Word) : State :=
  let s1 := s.regWrite (Reg.TDBG_CNT_CTRL p) v
  if Fld.TDBG_CNT_CTRL_CLEAR.get v = 1 then { s1 with counts := SMap.clear s1.counts (16 * p) (16 * p + 16) } else s1
def execCounterClear (r : RegReq) (p : Nat) (v : Word) (s : State) : Host.Outcome State Fault Refusal :=
  .next (s.write r (Reg.TDBG_CNT_CTRL p) fun s => s.cntCtrlW p (Fld.TDBG_CNT_CTRL_CLEAR.put v 1))

/-! ## Freezes (R779) -/

/-- A write of `DBG_SEPIA_CTRL`; of `FREEZE` and `THAW` in one write, the freeze comes first. -/
def State.devFreeze (s : State) : State :=
  if s.flag Reg.DBG_SEPIA_STAT Fld.DBG_SEPIA_STAT_FROZEN then s
  else ({ s with freezeAt := SMap.set (fun _ => 0) s.freezeAt 0 s.globalTime }.fput Reg.DBG_SEPIA_STAT Fld.DBG_SEPIA_STAT_FROZEN 1).irqDbg
    Fld.DBG_INT_STATUS_FROZEN
def State.devThaw (s : State) : State :=
  (s.fput Reg.DBG_SEPIA_STAT Fld.DBG_SEPIA_STAT_FROZEN 0).fput Reg.DBG_SEPIA_STAT Fld.DBG_SEPIA_STAT_BY_HALT 0
def State.sepiaCtrlW (s : State) (v : Word) : State :=
  let s1 := s.regWrite Reg.DBG_SEPIA_CTRL v
  let s2 := if Fld.DBG_SEPIA_CTRL_FREEZE.get v = 1 then s1.devFreeze else s1
  if Fld.DBG_SEPIA_CTRL_THAW.get v = 1 then s2.devThaw else s2
def execDeviceFreeze (r : RegReq) (v : Word) (s : State) : Host.Outcome State Fault Refusal :=
  .next (s.write r Reg.DBG_SEPIA_CTRL fun s => s.sepiaCtrlW (Fld.DBG_SEPIA_CTRL_FREEZE.put v 1))
def execDeviceThaw (r : RegReq) (v : Word) (s : State) : Host.Outcome State Fault Refusal :=
  .next (s.write r Reg.DBG_SEPIA_CTRL fun s => s.sepiaCtrlW (Fld.DBG_SEPIA_CTRL_THAW.put v 1))

/-- A write of `TDBG_SEPIA_CTRL`. -/
def State.partSepiaW (s : State) (p : Nat) (v : Word) : State :=
  let s1 := s.regWrite (Reg.TDBG_SEPIA_CTRL p) v
  let s2 := if Fld.TDBG_SEPIA_CTRL_FREEZE.get v = 1 then s1.freezePart p else s1
  if Fld.TDBG_SEPIA_CTRL_THAW.get v = 1 then s2.fput (Reg.TDBG_SEPIA_STAT p) Fld.TDBG_SEPIA_STAT_FROZEN 0 else s2
def execPartitionFreeze (r : RegReq) (p : Nat) (v : Word) (s : State) : Host.Outcome State Fault Refusal :=
  .next (s.write r (Reg.TDBG_SEPIA_CTRL p) fun s => s.partSepiaW p (Fld.TDBG_SEPIA_CTRL_FREEZE.put v 1))
def execPartitionThaw (r : RegReq) (p : Nat) (v : Word) (s : State) : Host.Outcome State Fault Refusal :=
  .next (s.write r (Reg.TDBG_SEPIA_CTRL p) fun s => s.partSepiaW p (Fld.TDBG_SEPIA_CTRL_THAW.put v 1))

/-! ## Dumps (R781 to R786) -/

/-- The rings in the order of a dump, each with the unit ID that the dump gives it: physical cores for the operator, the partition's logical
cores for a tenant. -/
def State.dumpRings (s : State) (owner : Nat) : List (Nat × Nat) :=
  let cores := if owner = 0 then (List.range 136).map fun c => (c, c) else (List.range (s.ncores owner)).map fun l => (s.pcore owner l, l)
  allParts.map (fun p => (unitSeq p, unitSeq p)) ++
    cores.flatMap (fun c => (List.range 10).map fun u => (unitOf c.1 u, unitOf c.2 u)) ++
    (List.range 8).map (fun k => (unitNme k, unitNme k)) ++ (List.range 16).map (fun e => (unitDma e, unitDma e)) ++
    (List.range 16).map fun n => (unitPort n, unitPort n)

/-- The owner's entries of a ring, oldest first. -/
def State.ringOf (s : State) (owner unit : Nat) : List SepiaEntry :=
  ((SMap.get (fun _ => []) s.sepia unit).filter fun e => e.owner == owner).reverse

/-- R775, R776: an entry as a dump carries it. -/
def entryBytes (tenant : Bool) (e : SepiaEntry) : List Byte :=
  let t := (if tenant then e.time / 1000 else e.time) % 2 ^ 48
  let arg := if tenant && (e.code == 0x10 || e.code == 0x11) then e.arg / 1024 else e.arg
  leBytes 8 (t + 2 ^ 48 * (e.pid % 65536)) ++ leBytes 8 (e.bip % 1048576 + 2 ^ 20 * e.code + 2 ^ 28 * e.owner + 2 ^ 32 * arg)

/-- R781: the sections of a dump. -/
def State.sections (s : State) (owner : Nat) : List (List Byte) :=
  (s.dumpRings owner).filterMap fun u =>
    let l := s.ringOf owner u.1
    if l.isEmpty then none
    else some (leBytes 2 u.2 ++ leBytes 2 l.length ++ leBytes 4 0 ++ l.flatMap (entryBytes (owner != 0)))

/-- R784: the sections that fit into a number of bytes, up to the first that does not. -/
def fitting (room : Nat) : List (List Byte) → List (List Byte)
  | [] => []
  | x :: t => if x.length ≤ room then x :: fitting (room - x.length) t else []

/-- R784: a freeze covers every ring that holds an entry of the owner. -/
def State.dumpFrozen (s : State) (owner : Nat) : Bool :=
  (s.dumpRings owner).all fun u => (s.ringOf owner u.1).isEmpty || s.frozen u.1

/-- R781: the moment of the freeze: the earliest in force. -/
def State.freezeTime (s : State) (owner : Nat) : Nat :=
  let dev := s.flag Reg.DBG_SEPIA_STAT Fld.DBG_SEPIA_STAT_FROZEN
  let part := owner != 0 && s.flag (Reg.TDBG_SEPIA_STAT owner) Fld.TDBG_SEPIA_STAT_FROZEN
  let a := SMap.get (fun _ => 0) s.freezeAt 0
  let b := SMap.get (fun _ => 0) s.freezeAt owner
  if dev && part then min a b else if part then b else a

/-- R781: the header. -/
def State.dumpHeader (s : State) (owner nsec len : Nat) (trunc : Bool) (step : Nat) (suffix iv : List Byte) : List Byte :=
  let ft := s.freezeTime owner
  leBytes 4 0x41495053 ++ leBytes 2 1 ++ leBytes 1 owner ++ leBytes 1 (b2n trunc + 2 * b2n s.ofsSet) ++ leBytes 4 (s.node + owner) ++
    leBytes 4 nsec ++ leBytes 8 (if owner = 0 then ft else ft / 1000) ++ leBytes 6 step ++ leBytes 2 0 ++ sliceB suffix 0 9 ++ leBytes 3 0 ++
    sliceB iv 0 12 ++ leBytes 4 len ++ leBytes 4 0

/-- R784, R785: the dump of a partition begins, or ends at once without its freeze. -/
def State.tenantGo (s : State) (p : Nat) : State :=
  if bitOf s.dumps p then s
  else if s.dumpFrozen p then s.setDump p true
  else s.endDump p 0x2C false

/-- R784: a write of `DBG_DUMP_CTRL`. -/
def State.dumpCtrlW (s : State) (v : Word) : State :=
  let s1 :=
    if Fld.DBG_DUMP_CTRL_GO.get v = 0 ∨ bitOf s.dumps 0 then s
    else if s.dumpFrozen 0 then s.setDump 0 true
    else s.fput Reg.DBG_DUMP_STAT Fld.DBG_DUMP_STAT_NOT_FROZEN 1
  if Fld.DBG_DUMP_CTRL_TENANTS.get v = 0 then s1
  else allParts.foldl (fun (s : State) p =>
    if s.nquad p ≠ 0 ∧ s.flag (Reg.TDBG_DUMP_CFG p) Fld.TDBG_DUMP_CFG_VALID then s.tenantGo p else s) s1
def execOperatorDump (r : RegReq) (v : Word) (s : State) : Host.Outcome State Fault Refusal :=
  .next (s.write r Reg.DBG_DUMP_CTRL fun s => s.dumpCtrlW (Fld.DBG_DUMP_CTRL_GO.put v 1))
def execTenantDumps (r : RegReq) (v : Word) (s : State) : Host.Outcome State Fault Refusal :=
  .next (s.write r Reg.DBG_DUMP_CTRL fun s => s.dumpCtrlW (Fld.DBG_DUMP_CTRL_TENANTS.put v 1))

/-- R784: a write of `TDBG_DUMP_CTRL`. -/
def State.partDumpW (s : State) (p : Nat) (v : Word) : State := if Fld.TDBG_DUMP_CTRL_GO.get v = 1 then s.tenantGo p else s
def execTenantDump (r : RegReq) (p : Nat) (v : Word) (s : State) : Host.Outcome State Fault Refusal :=
  .next (s.write r (Reg.TDBG_DUMP_CTRL p) fun s => s.partDumpW p v)

/-- R782: the operator dump is written. -/
def State.operatorDump (s : State) : State :=
  let all := s.sections 0
  let l := fitting (1024 * s.fget Reg.DBG_DUMP_SIZE Fld.DBG_DUMP_SIZE_KIB - 64) all
  let trunc := decide (l.length < all.length)
  let body := l.flatMap id
  let s1 := s.toHost 0 (s.rd64 Reg.DBG_DUMP_BASE_LO) false (s.dumpHeader 0 l.length body.length trunc 0 [] [] ++ body)
  let a := Reg.DBG_DUMP_STAT
  (((s1.setDump 0 false).fput a Fld.DBG_DUMP_STAT_DONE 1).fput a Fld.DBG_DUMP_STAT_TRUNC (b2n trunc)).irqDbg Fld.DBG_INT_STATUS_DUMP_DONE

/-- R783, R785: the sealed dump of a partition is written; `ok` says whether the host took the writes. -/
def State.tenantDump (s : State) (p : Nat) (ok : Bool) : State :=
  let cfg := Reg.TDBG_DUMP_CFG p
  let slot := s.fget cfg Fld.TDBG_DUMP_CFG_SLOT
  let t := s.flag cfg Fld.TDBG_DUMP_CFG_T
  let c := s.cipherSlot p slot true
  if c ≠ 0 then s.endDump p c false
  else if t ∧ !s.tdiRun p then s.endDump p 0x16 false
  else
    let k := s.key slot
    let all := s.sections p
    let l := fitting (1024 * s.fget (Reg.TDBG_DUMP_SIZE p) Fld.TDBG_DUMP_SIZE_KIB - 80) all
    let trunc := decide (l.length < all.length)
    let body := l.flatMap id
    let (s1, ctr) := s.useKey slot
    let iv := gcmIv slot k ctr
    let h := s.dumpHeader p l.length body.length trunc (s.rd64 (Reg.UPD_STEP_LO p)) k.suffix iv
    let msg := Crypto.gcmCrypt k.key iv body
    if !ok then s1.endDump p 0x22 trunc
    else (s1.toHost p (s.rd64 (Reg.TDBG_DUMP_BASE_LO p)) t (h ++ msg ++ Crypto.gcmTag k.key iv h msg)).endDump p 0 trunc

/-- R784: dump `n` (0 the operator's) finishes. -/
def State.dumpDone (s : State) (n : Nat) (ok : Bool) : State :=
  if 4 < n ∨ !bitOf s.dumps n then s else if n = 0 then s.operatorDump else s.tenantDump n ok
def execDumpComplete (n : Nat) (ok : Bool) (s : State) : Host.Outcome State Fault Refusal := .next (s.dumpDone n ok)

/-! ## Single-stepping (R47, R789) -/

/-- A write of `DBG_STEP_CTRL`: a step releases one beat of every partition while the domain stays held. -/
def State.stepCtrlW (s : State) (v : Word) : State :=
  let held := s.flag Reg.DBG_STEP_CTRL Fld.DBG_STEP_CTRL_HOLD
  let s1 := s.regWrite Reg.DBG_STEP_CTRL v
  let now := s1.flag Reg.DBG_STEP_CTRL Fld.DBG_STEP_CTRL_HOLD
  let s2 := s1.fput Reg.DBG_STEP_STAT Fld.DBG_STEP_STAT_HELD (b2n now)
  let s3 := if held ∧ now then s2 else allParts.foldl (fun (s : State) p => s.setSq p { s.sq p with credit := 0 }) s2
  if held ∧ now ∧ Fld.DBG_STEP_CTRL_STEP.get v = 1 then
    (allParts.foldl (fun (s : State) p => s.setSq p { s.sq p with credit := (s.sq p).credit + 1 }) s3).bump Reg.DBG_STEP_STAT
      Fld.DBG_STEP_STAT_RELEASED 1
  else s3
def execSingleStep (r : RegReq) (v : Word) (s : State) : Host.Outcome State Fault Refusal :=
  .next (s.write r Reg.DBG_STEP_CTRL fun s => s.stepCtrlW (Fld.DBG_STEP_CTRL_STEP.put v 1))
def execStepHoldWrite (r : RegReq) (v : Word) (s : State) : Host.Outcome State Fault Refusal :=
  .next (s.write r Reg.DBG_STEP_CTRL fun s => s.stepCtrlW v)

/-! ## The debug memory window (R790) -/

def winMaster : Nat := 0x20

/-- The device byte of window dword `k`: stack by stack, 64 GiB each. -/
def State.winByte (s : State) (k : Nat) : Nat := s.rd64 Reg.DBG_WIN_ADDR_LO % 2 ^ 39 + 4 * (k % 1024)

/-- R790: keyless mode at a debug level that allows it. -/
def State.winRaw (s : State) : Bool := s.fget Reg.LCS_STAT Fld.LCS_STAT_LEVEL != 0

/-- What refuses a window access, with the state that records it. -/
def State.winRefused (s : State) (a : Nat) (write : Bool) : Option State :=
  match s.closedPart a 4 with
  | some p => some (s.blocked winMaster p write)
  | none =>
    if s.flag Reg.DBG_WIN_CTRL Fld.DBG_WIN_CTRL_KEYLESS ∧ !s.winRaw then
      some (s.wr Reg.DBG_PROT_LAST (Fld.DBG_PROT_LAST_WRITE.put (Fld.DBG_PROT_LAST_MASTER.put
        (Fld.DBG_PROT_LAST_CODE.put 0 0x13) winMaster) (b2n write)))
    else none

/-- The stack and sector of a device byte. -/
def winPlace (a : Nat) : Nat × Nat := (a / 2 ^ 36, a % 2 ^ 36 / 256)

/-- A dword of the window as a read returns it. -/
def State.winRead (s : State) (k : Nat) (errs : List ReadErr) : State × Word :=
  let a := s.winByte k
  let st := (winPlace a).1
  let sec := (winPlace a).2
  let ones : Word := 0xFFFFFFFF
  match s.winRefused a false with
  | some s' => (s', ones)
  | none =>
    if s.flag Reg.DBG_WIN_CTRL Fld.DBG_WIN_CTRL_KEYLESS then
      if SMap.get (fun _ => false) s.poison (poisonKey st sec) then (s, ones)
      else (s, BitVec.ofNat 32 (leAt (s.rawSector st sec) (a % 256) 4))
    else if (s.key 0xB1).state ≠ 1 then (s, ones)
    else
      let y := s.readSector errs 0 false false 0xFE (a / 256) st sec
      let s1 := y.1
      let r := y.2
      (s1, if r.ok then BitVec.ofNat 32 (leAt r.bytes (a % 256) 4) else ones)

/-- A write of a dword of the window: into the ciphertext with its ECC, or by read–merge–write under the diagnostic pair (R267). -/
def State.winWrite (s : State) (k : Nat) (v : Word) (errs : List ReadErr) : State :=
  let a := s.winByte k
  let st := (winPlace a).1
  let sec := (winPlace a).2
  match s.winRefused a true with
  | some s' => s'
  | none =>
    if s.flag Reg.DBG_WIN_CTRL Fld.DBG_WIN_CTRL_KEYLESS then
      if SMap.get (fun _ => false) s.poison (poisonKey st sec) then s
      else
        let raw := s.rawSector st sec
        let c := patchB (raw.take 256) (a % 256) (leBytes 4 v.toNat)
        let mac := sliceB raw 280 8
        s.putRaw st sec (c ++ eccBytes c mac ++ mac)
    else if (s.key 0xB0).state ≠ 1 ∨ (s.key 0xB1).state ≠ 1 then s
    else
      let y := s.readSector errs 0 false false 0xFE (a / 256) st sec
      let s1 := y.1
      let r := y.2
      if r.ok then s1.writeSector 0xFE (a / 256) st sec (patchB r.bytes (a % 256) (leBytes 4 v.toNat)) else s1

def execDebugWindowAccess (r : RegReq) (k : Nat) (write : Bool) (v : Word) (errs : List ReadErr) (s : State) :
    Host.Outcome State Fault Refusal :=
  .next (if write then s.write r (Reg.DBG_WIN_DATA (k % 1024)) fun s => s.winWrite k v errs
    else s.access r (Reg.DBG_WIN_DATA (k % 1024)) fun s =>
      let y := s.winRead k errs
      y.1.emit (.readDone r.who (Reg.DBG_WIN_DATA (k % 1024)) [y.2]))

end Sys2Proof.Machine
end

