-- ==== Sys2Proof/Machine/Lifecycle.lean ====
section
/-! DEFINITION. Life-cycle transitions, debug levels and the signed unlock (R711 to R730). -/

namespace Sys2Proof.Machine

/-- Reasons of `LCS_STAT.WHY`. -/
def whyNotAllowed : Nat := 1
def whyBusy : Nat := 2
def whySupply : Nat := 3
def whyNoChal : Nat := 4
def whySig : Nat := 5
def whyNoToken : Nat := 6

def State.irqLcs (s : State) (f : Fld) : State := s.irq 0 3 Reg.LCS_INT_STATUS Reg.LCS_INT_EN f.mask

/-- R712, R729: a rejection. -/
def State.lcsReject (s : State) (why : Nat) : State :=
  ((s.fput Reg.LCS_STAT Fld.LCS_STAT_REJECT 1).fput Reg.LCS_STAT Fld.LCS_STAT_WHY why).irqLcs Fld.LCS_INT_STATUS_REJECT

def State.lcsNow (s : State) : Nat := s.fget Reg.LCS_STAT Fld.LCS_STAT_STATE

/-- The value of `LCS_LAST` (R727). -/
def lcsLast (kind src dst : Nat) : Nat := kind % 8 + 8 * (src % 8) + 64 * (dst % 8)

/-- R713 step 1: an operation with fuses to program begins. -/
def State.lcsStart (s : State) (o : FuseOp) : State :=
  { s with fuses := { s.fuses with op := some o } }.fput Reg.LCS_STAT Fld.LCS_STAT_BUSY 1

/-- R712: the OR-ed input stands at 48 V or more and no sag is in progress. -/
def State.supplyGood (s : State) : Bool :=
  !s.flag Reg.PWR_SAG_STAT Fld.PWR_SAG_STAT_ACTIVE && decide (480 ≤ s.inputV.getD 480)

/-- R711, R712, R715: a write of `LCS_TRANS`. -/
def State.lcsTransW (s : State) (v : Word) : State :=
  let dst := Fld.LCS_TRANS_TARGET.get v
  if Fld.LCS_TRANS_KEY.get v ≠ 0x4C43 then s
  else if s.fuses.op.isSome then s.lcsReject whyBusy
  else
    match lcsBits s.lcsNow dst with
    | none => s.lcsReject whyNotAllowed
    | some bits =>
      if (allParts.any fun p => s.partState p != 0) ∨ s.flag Reg.PRT_STATUS Fld.PRT_STATUS_LAYOUT_BUSY then s.lcsReject whyBusy
      else if !s.supplyGood then s.lcsReject whySupply
      else s.lcsStart ⟨1, s.lcsNow, dst, 0, if dst = 3 then 1 else if s.lcsNow = 0 then 2 else 0, bits⟩
def execLifecycleTransition (r : RegReq) (v : Word) (s : State) : Host.Outcome State Fault Refusal :=
  .next (s.write r Reg.LCS_TRANS fun s => s.lcsTransW v)

/-- R713 steps 3 to 5: every bit is programmed and verified; the warm reset of cause 8 carries the operation. -/
def State.fuseDone (s : State) : State :=
  match s.fuses.op with
  | none => s
  | some o =>
    let s1 := s.rootStep o.root
    { s1 with fuses := { s1.fuses with op := none, code := setCodeBits s1.fuses.code o.bits } }.reboot false false 8 o.level
      (lcsLast o.kind o.src o.dst)
def execFuseProgramComplete (s : State) : Host.Outcome State Fault Refusal := .next s.fuseDone

/-- R717, R721: a write of `LCS_DEBUG`. -/
def State.lcsDebugW (s : State) (v : Word) : State :=
  let l := Fld.LCS_DEBUG_LEVEL.get v
  let st := s.lcsNow
  if Fld.LCS_DEBUG_KEY.get v ≠ 0x4C44 then s
  else if s.fuses.op.isSome then s.lcsReject whyBusy
  else if st = 4 ∨ l = 3 ∨ (l ≠ 0 ∧ st = 2) then s.lcsReject whyNotAllowed
  else s.reboot false false 8 l (lcsLast 2 st st)
def execDebugLevelWrite (r : RegReq) (v : Word) (s : State) : Host.Outcome State Fault Refusal :=
  .next (s.write r Reg.LCS_DEBUG fun s => s.lcsDebugW v)

/-! ## The signed unlock -/

/-- The bytes that a run of registers holds, and their replacement. -/
def State.regBytes (s : State) (a n : Nat) : List Byte := (List.range n).flatMap fun i => leBytes 4 (s.rn (a + 4 * i))
def State.putBytes (s : State) (a n : Nat) (l : List Byte) : State :=
  (List.range n).foldl (fun (s : State) i => s.wn (a + 4 * i) (leAt l (4 * i) 4)) s

/-- R724: the challenge ends. -/
def State.endChallenge (s : State) : State :=
  ({ s with fuses := { s.fuses with chalAt := none } }.resetRegs (Reg.LCS_CHAL 0) (Reg.LCS_CHAL 16)).fput Reg.LCS_STAT Fld.LCS_STAT_CHAL_VALID 0

/-- R723: `GEN`. During the second after a failed signature it is turned away; the spec gives no `WHY` for that: a free value. -/
def State.chalGen (s : State) (req : Nat) : State :=
  let used := s.fget Reg.LCS_STAT Fld.LCS_STAT_TOKENS
  if s.fuses.op.isSome then s.lcsReject whyBusy
  else if (req = 3 ∧ s.lcsNow ≠ 4) ∨ (req ≠ 3 ∧ s.lcsNow ≠ 2) then s.lcsReject whyNotAllowed
  else if s.fuses.sigAt.isSome then s.lcsReject (Config.openValue 27 [s.now] % 8)
  else if req ≠ 3 ∧ 16 ≤ used then s.lcsReject whyNoToken
  else if !s.entropy then s.lcsReject whyNoChal
  else
    let (s1, v) := s.endChallenge.draw
    let c := leBytes 4 (s.rn Reg.LCS_CODE) ++ leBytes 2 (s.rn Reg.LCS_TOKEN) ++ leBytes 1 req ++ leBytes 1 used ++
      sliceB Config.serial 0 16 ++ v.take 32 ++ leBytes 8 0
    let s2 := { s1 with fuses := { s1.fuses with chalAt := some s.now } }.putBytes (Reg.LCS_CHAL 0) 16 c
    (s2.fput Reg.LCS_STAT Fld.LCS_STAT_CHAL_VALID 1).irqLcs Fld.LCS_INT_STATUS_CHAL_READY

/-- R724, R725: whether a response answers the challenge. -/
def goodResponse (chal resp : List Byte) : Bool :=
  resp.take 64 == chal && Config.serviceSig 0 (Crypto.sha384 chal) (sliceB resp 64 96) && Config.serviceSig 1 chal (sliceB resp 160 4627)

/-- R723, R725: the unlock sets the next token bit, and the reset carries the level. -/
def State.unlock (s : State) (level : Nat) : State :=
  { s with fuses := { s.fuses with tokens := s.fuses.tokens ||| 2 ^ tokensUsed s.fuses.tokens } }.reboot false false 8 level
    (lcsLast 3 s.lcsNow s.lcsNow)

/-- R717, R725: a completion toward `TARGET`. -/
def State.complete (s : State) : State :=
  let dst := s.fget Reg.LCS_STAT Fld.LCS_STAT_TARGET
  s.lcsStart ⟨4, s.lcsNow, dst, 0, if dst = 3 then 1 else 0, completionBits s.fuses.code dst⟩

/-- R724, R725: `SUBMIT`. -/
def State.submit (s : State) : State :=
  let resp := s.regBytes (Reg.LCS_RESP 0) 1280
  let chal := s.regBytes (Reg.LCS_CHAL 0) 16
  let s1 := s.resetRegs (Reg.LCS_RESP 0) (Reg.LCS_RESP 1280)
  if s.fuses.chalAt.isNone then s1.lcsReject whyNoChal
  else
    let s2 := s1.endChallenge
    if !goodResponse chal resp then { s2 with fuses := { s2.fuses with sigAt := some s.now } }.lcsReject whySig
    else if leAt chal 6 1 = 3 then s2.complete
    else s2.unlock (leAt chal 6 1)

/-- R728: a write of `LCS_CHAL_CTRL`. -/
def State.chalCtrlW (s : State) (v : Word) : State :=
  let a := Reg.LCS_CHAL_CTRL
  let s1 := s.regWrite a v
  let s2 := s1.wn a (s1.rn a / 4 * 4)
  let s3 := if Fld.LCS_CHAL_CTRL_GEN.get v = 1 then s2.chalGen (s2.fget a Fld.LCS_CHAL_CTRL_REQ) else s2
  if Fld.LCS_CHAL_CTRL_SUBMIT.get v = 1 then s3.submit else s3
def execChallengeGen (r : RegReq) (v : Word) (s : State) : Host.Outcome State Fault Refusal :=
  .next (s.write r Reg.LCS_CHAL_CTRL fun s => s.chalCtrlW (Fld.LCS_CHAL_CTRL_GEN.put v 1))
def execResponseSubmit (r : RegReq) (v : Word) (s : State) : Host.Outcome State Fault Refusal :=
  .next (s.write r Reg.LCS_CHAL_CTRL fun s => s.chalCtrlW (Fld.LCS_CHAL_CTRL_SUBMIT.put v 1))

/-- R724: ten minutes after its issue the challenge ends. -/
def execChallengeExpire (s : State) : Host.Outcome State Fault Refusal :=
  .next (match s.fuses.chalAt with
    | some t => if t + 60000000000 ≤ s.now then s.endChallenge else s
    | none => s)

/-- R725: one second after a failed signature `GEN` is accepted again. -/
def execGenLockoutEnd (s : State) : Host.Outcome State Fault Refusal :=
  .next (match s.fuses.sigAt with
    | some t => if t + 100000000 ≤ s.now then { s with fuses := { s.fuses with sigAt := none } } else s
    | none => s)

end Sys2Proof.Machine
end

