-- ==== Sys2Proof/Machine/MemCtl.lean ====
section
/-! DEFINITION. What a stack controller and the patrol do beside the transfers: the split of a partition's memory (R261), verification
(R270), tags (R275 to R277), refresh, patrol and row repair (R281 to R283). -/

namespace Sys2Proof.Machine

/-- R261. -/
def State.psplitW (s : State) (p : Nat) (v : Word) : State :=
  if s.partState p = 0 then s.regWrite (Reg.MEM_PSPLIT p) v else s.irqMem Fld.MEM_INT_STATUS_CFG_REJECT.mask
def execPsplitWrite (r : RegReq) (p : Nat) (v : Word) (s : State) : Host.Outcome State Fault Refusal :=
  .next (s.write r (Reg.MEM_PSPLIT p) fun s => s.psplitW p v)

/-- R270: the sector at a device address is read for partition `p`, with what its reads meet; the access has been admitted (R532). -/
def State.verifySector (s : State) (p a : Nat) (spec : Bool) (errs : List ReadErr) : State :=
  let k := s.key (2 * addrKid a + 1)
  match s.offset p a with
  | none => s
  | some o =>
    if k.state ≠ 1 ∨ !k.owned p ∨ s.memSize p < o + 256 ∨ a % 256 ≠ 0 then s
    else (s.readPiece errs p spec false a 256).1
def execSectorVerify (p a : Nat) (spec : Bool) (errs : List ReadErr) (s : State) : Host.Outcome State Fault Refusal :=
  .next (s.verifySector p a spec errs)

/-! ## Tags -/

/-- R277: whether a waiting requester goes before another: more than 2 µs first, oldest of them first; then by class and index. -/
def tagBefore (now : Nat) (x y : Nat × Nat × Nat × Nat) : Bool :=
  let old (z : Nat × Nat × Nat × Nat) : Bool := decide (z.2.2.2 + 200 < now)
  let rank (z : Nat × Nat × Nat × Nat) : Nat := 65536 * z.2.1 + z.2.2.1
  if old x != old y then old x
  else if old x && x.2.2.2 != y.2.2.2 then decide (x.2.2.2 < y.2.2.2)
  else decide (rank x < rank y)

def tagWinner (now : Nat) : List (Nat × Nat × Nat × Nat) → Option (Nat × Nat × Nat × Nat)
  | [] => none
  | x :: t => match tagWinner now t with
    | none => some x
    | some y => some (if tagBefore now y x then y else x)

/-- R275, R303: the tags that a stack holds in its 32 pseudo-channels, 64 in each at most. -/
def Stack.inUse (x : Stack) : Nat := ((x.tags.take 32).map fun n => min n 64).sum

/-- R276, R277, R303, R304: the stack holds these tags; on a full pseudo-channel these requesters (class and index) come to wait, and
`cycles` MCLK cycles in which one waited have passed; then a tag is free, and one of those that wait gets it. -/
def State.tagGrant (s : State) (k pc : Nat) (wants : List (List Nat)) (cycles : Nat) (held : List Nat) : State :=
  let y := { s.stk k with tags := held }
  let a := Reg.MEM_TAG k
  let s := (s.setStk k y).fput a Fld.MEM_TAG_PEAK (max (s.fget a Fld.MEM_TAG_PEAK) (max (s.stk k).inUse y.inUse))
  let x := s.stk k
  let more := wants.map fun w => (pc, w.getD 0 0, w.getD 1 0, s.now)
  let all := x.waiting ++ more.filter fun y => !x.waiting.any fun z => z.1 == y.1 && z.2.1 == y.2.1 && z.2.2.1 == y.2.2.1
  let s1 := s.bump64 (Reg.MEM_TAG_STALL_LO k) cycles
  match tagWinner s.now (all.filter fun y => y.1 == pc) with
  | none => s1.setStk k { x with waiting := all }
  | some y => s1.setStk k { x with waiting := all.filter (· ≠ y) }
def execTagGrant (k pc : Nat) (wants : List (List Nat)) (load : TagLoad) (s : State) : Host.Outcome State Fault Refusal :=
  .next (s.tagGrant k (pc % 32) wants load.cycles load.held)

/-! ## Refresh, patrol, repair -/

/-- R281, R284: a bank is refreshed; the controller knows the hottest die of the stack. -/
def State.refresh (s : State) (k temp : Nat) : State :=
  (s.fput (Reg.MEM_STK_STAT k) Fld.MEM_STK_STAT_TEMP temp).fput (Reg.MEM_STK_STAT k) Fld.MEM_STK_STAT_REF2X (b2n (decide (85 < temp)))
def execRefresh (k _pc _bank temp : Nat) (s : State) : Host.Outcome State Fault Refusal := .next (s.refresh k temp)

/-- R282, R283: the patrol reads a sector. A corrected one is written back as it stands; the pass ends at the last sector. -/
def State.patrolRead (s : State) (k sec : Nat) (errs : List ReadErr) : State :=
  if !s.flag (Reg.MEM_STK_CTRL k) Fld.MEM_STK_CTRL_PATROL_EN then s
  else
    let s1 := if SMap.get (fun _ => false) s.poison (poisonKey k sec) then s else (s.readOnce errs 0 k sec 0).1
    let last := sec == 268435455
    let s2 := s1.fput (Reg.MEM_STK_STAT k) Fld.MEM_STK_STAT_PATROL_BUSY (b2n !last)
    if last then s2.setStk k { s2.stk k with rowErrs := [] } else s2
def execPatrolRead (k sec : Nat) (errs : List ReadErr) (s : State) : Host.Outcome State Fault Refusal := .next (s.patrolRead k sec errs)

/-- R283: three distinct sectors of a row have been corrected: its repair begins. -/
def State.rowRepair (s : State) (k row : Nat) : State :=
  let x := s.stk k
  if !s.flag (Reg.MEM_STK_CTRL k) Fld.MEM_STK_CTRL_PPR_EN ∨ (x.rowErrs.filter fun e => e.1 == row).length < 3 ∨
      x.repairs.any (fun e => e.1 == row) then s
  else s.setStk k { x with repairs := x.repairs ++ [(row, s.now)] }
def execRowRepair (k row : Nat) (s : State) : Host.Outcome State Fault Refusal := .next (s.rowRepair k row)

/-- R283, R305: a repair finishes, at most 2 ms after it began, and is recorded in the repair store. -/
def State.rowRepairDone (s : State) (k row : Nat) : State :=
  let x := s.stk k
  if !x.repairs.any (fun e => e.1 == row) then s
  else (s.setStk k { x with
    repairs := x.repairs.filter fun e => e.1 != row
    rowErrs := x.rowErrs.filter fun e => e.1 != row
    repaired := x.repaired ++ [row] }).bump (Reg.MEM_PPR_COUNT k) Fld.MEM_PPR_COUNT_COUNT 1
def execRowRepairComplete (k row : Nat) (s : State) : Host.Outcome State Fault Refusal := .next (s.rowRepairDone k row)

end Sys2Proof.Machine
end

