-- ==== Sys2Proof/Machine/Protect.lean ====
section
/-! DEFINITION. The region table (R530, R535 to R538, R553), accesses through BAR2 (R544, R545) and the host bus's integrity
(R542, R546). -/

namespace Sys2Proof.Machine

/-! ## Region table -/

/-- The bytes that a partition or stack range covers, as partition-relative intervals (R530). -/
def State.rgnSpans (s : State) (p mode base limit : Nat) : List (Nat × Nat) :=
  if mode = 1 then (List.range (s.nstacks p)).map fun j => (s.localOff p j (4096 * base), s.localOff p j (4096 * limit + 4096))
  else [(4096 * base, 4096 * limit + 4096)]

def State.entrySpans (s : State) (p n : Nat) : List (Nat × Nat) :=
  s.rgnSpans p (s.fget (Reg.TKEY_RGN_2 p n) Fld.TKEY_RGN_2_MODE) (s.rn (Reg.TKEY_RGN_0 p n)) (s.rn (Reg.TKEY_RGN_1 p n))

def spansMeet (a b : List (Nat × Nat)) : Bool := a.any fun x => b.any fun y => decide (x.1 < y.2 ∧ y.1 < x.2)

/-- R536: why a write of `w` to word 2 of entry `n`, whose `VALID` is 0, may not set `VALID`: 0 for no reason. -/
def State.rgnWhy (s : State) (p n : Nat) (w : Word) : Nat :=
  let base := s.rn (Reg.TKEY_RGN_0 p n)
  let limit := s.rn (Reg.TKEY_RGN_1 p n)
  let mode := Fld.TKEY_RGN_2_MODE.get w
  let k := s.key (2 * Fld.TKEY_RGN_2_KID.get w)
  let top := if mode = 1 then gib * s.localGib p else s.memSize p
  if limit < base ∨ top < 4096 * limit + 4096 then 3
  else if (List.range 32).any fun m => m != n && s.flag (Reg.TKEY_RGN_2 p m) Fld.TKEY_RGN_2_VALID &&
      spansMeet (s.rgnSpans p mode base limit) (s.entrySpans p m) then 2
  else if k.state ≠ 0 ∧ k.owner ≠ ownerMask p then 4
  else if s.partState p = 0 ∨ s.partState p = 5 then 5
  else 0

/-- R553, R556: a trusted write is dropped. -/
def State.rgnReject (s : State) (p n why : Nat) : State :=
  let a := Reg.TKEY_RGN_STAT p
  (s.wr a (Fld.TKEY_RGN_STAT_ENTRY.put (Fld.TKEY_RGN_STAT_WHY.put (Fld.TKEY_RGN_STAT_WR_REJECT.put (s.rd a) 1) why) n)).irqProt p
    Fld.TKEY_PROT_INT_STATUS_RGN_REJECT

/-- R536: a trusted write of word `w` of entry `n`. -/
def State.rgnW (s : State) (p n w : Nat) (v : Word) : State :=
  let a := Reg.TKEY_RGN_2 p n
  let valid := s.flag a Fld.TKEY_RGN_2_VALID
  if w = 2 then
    if valid then
      if Fld.TKEY_RGN_2_VALID.get v = 0 then s.fput a Fld.TKEY_RGN_2_VALID 0 else s.rgnReject p n 1
    else
      let why := if Fld.TKEY_RGN_2_VALID.get v = 1 then s.rgnWhy p n v else 0
      if why = 0 then s.regWrite a v else s.rgnReject p n why
  else if 2 < w then s
  else if valid then s.rgnReject p n 1
  else s.regWrite (Reg.TKEY_RGN_0 p n + 4 * w) v

/-- R535: a write of an entry word, from whoever makes it. -/
def State.rgnAccess (s : State) (r : RegReq) (p n w : Nat) (v : Word) : State :=
  let a := Reg.TKEY_RGN_0 p n + 4 * w
  if r.who = p + 2 ∧ r.trusted ∧ s.tdiRun p ∧ s.reaches r a then (if r.be % 16 = 15 then s.rgnW p n w v else s)
  else if r.who = p + 2 ∧ s.vfEnabled p then
    s.access r a fun s => s.bump (Reg.TKEY_RGN_STAT p) Fld.TKEY_RGN_STAT_UNTRUSTED 1
  else s.access r a id
def execRegionEntryWrite (r : RegReq) (p n w : Nat) (v : Word) (s : State) : Host.Outcome State Fault Refusal :=
  .next (s.rgnAccess r p (n % 32) w v)

/-! ## BAR2 -/

/-- R544: the device address of bytes at an offset of a VF's BAR2: the KID is that of the entry that covers them. -/
def State.barAddr (s : State) (p o len : Nat) : Nat :=
  s.memBase p + o + 2 ^ 48 * (match s.rgnEntry p o len with
    | some n => s.fget (Reg.TKEY_RGN_2 p n) Fld.TKEY_RGN_2_KID
    | none => 0)
def State.barPieces (s : State) (p o len : Nat) : List (Nat × Nat) :=
  (sectorPieces o len).map fun x => (s.barAddr p x.1 x.2, x.2)

/-- R28, R544, R545: a request sampled while the TDI runs, for a read of `len` bytes or a write of `data`. What lies at or beyond the
partition's memory size reads as ones and takes no write. -/
def State.bar2 (s : State) (p : Nat) (trusted : Bool) (o len : Nat) (data : Option (List Byte)) (errs : List ReadErr) : State :=
  if !trusted ∨ !s.vfEnabled p ∨ s.partState p ≠ 4 ∨ !s.tdiRun p then s.emit (.status p 1)
  else
    let m := if data.isSome then mBarWr else mBarRd
    let n := match data with | some d => d.length | none => len
    let inside := min n (s.memSize p - o)
    let l := s.barPieces p o inside
    match l.find? fun x => s.checkSector p m true x.1 x.2 != 0 with
    | some x =>
      (s.refuse p (s.checkSector p m true x.1 x.2) m.id m.write ((s.offset p x.1).getD 0) (addrKid x.1)).emit (.status p 2)
    | none =>
      match data with
      | none =>
        let (s1, ok, v) := l.foldl (fun (x : State × Bool × List Byte) pc =>
          let (s2, r) := x.1.readPiece errs p false false pc.1 pc.2
          (s2, x.2.1 && r.ok, x.2.2 ++ r.bytes)) (s, true, [])
        if ok then s1.onIde p (v ++ ffBytes (n - inside)) (.barRead p o) else s1.emit (.hostPoison o len)
      | some d =>
        (l.foldl (fun (x : State × Nat) pc => ((x.1.writePiece errs p false pc.1 ((d.drop x.2).take pc.2)).1, x.2 + pc.2)) (s, 0)).1
def execBar2Access (p : Nat) (trusted : Bool) (o len : Nat) (data : Option (List Byte)) (errs : List ReadErr) (s : State) :
    Host.Outcome State Fault Refusal := .next (s.bar2 p trusted o len data errs)

/-! ## IDE -/

/-- R546, R626: an integrity check fails on stream `i`. -/
def State.ideFail (s : State) (i : Nat) : State :=
  let p := s.fget (Reg.HST_IDE i) Fld.HST_IDE_VF
  if !s.flag (Reg.HST_IDE i) Fld.HST_IDE_SECURE ∨ p = 0 then s
  else
    let s1 := s.insecure i
    let s2 := if s1.partState p = 4 then s1.fput (Reg.PRT_STATE p) Fld.PRT_STATE_TDI 3 else s1
    let s3 := (List.range 16).foldl (fun (s : State) e => s.setDma e ((s.dma e).map fun d =>
      if d.owner = p ∧ d.fin.isNone then { d with fin := some ⟨0x18, 0, [], []⟩ } else d)) s2
    s3.failBufs p (fun _ => true) 0x18
def execIdeIntegrityFail (i : Nat) (s : State) : Host.Outcome State Fault Refusal := .next (s.ideFail (i % 4))

/-- R542, R637: IDE_KM in the session `id` of VF `p` sets stream `i` going with a stream ID, or stops it. -/
def State.ideKm (s : State) (p id i sid : Nat) (go : Bool) : State :=
  s.doe p fun s =>
    let a := Reg.HST_IDE i
    let vf := s.fget a Fld.HST_IDE_VF
    if !(s.keeper.sessions.any fun (x : Session) => x.part == p && x.id == id) ∨
        (vf ≠ p ∧ s.flag a Fld.HST_IDE_SECURE) then s.spdmErr p 5
    else if go then
      s.wr a (Fld.HST_IDE_STREAM_ID.put (Fld.HST_IDE_PCRC.put (Fld.HST_IDE_VF.put (Fld.HST_IDE_SECURE.put 0 1) p) 1) sid)
    else if vf = p then s.insecure i else s
def execIdeKm (p id i sid : Nat) (go : Bool) (s : State) : Host.Outcome State Fault Refusal := .next (s.ideKm p id (i % 4) sid go)

end Sys2Proof.Machine
end

