-- ==== Sys2Proof/Machine/TrayBus.lean ====
section
/-! DEFINITION. The tray bus (R731 to R745), lateness announcements (R192 to R194), time (R749 to R751), and the management
interfaces (R753 to R755). One ACLK cycle stands for one TCLK cycle of 10 ns. -/

namespace Sys2Proof.Machine

/-! ## Frames -/

/-- R735: CRC-16, most significant bit first. -/
def crc16Step (c : Nat) : Nat := if c / 32768 = 1 then (2 * c) % 65536 ^^^ 0x1021 else 2 * c
def crc16 (l : List Byte) : Nat :=
  l.foldl (fun c b => (List.range 8).foldl (fun c _ => crc16Step c) (c ^^^ (256 * b.toNat))) 0xFFFF
def trayOk (b : List Byte) : Bool := b.length == 22 && leAt b 20 2 == crc16 (b.take 20)

def State.traySlot (s : State) : Nat := s.fget Reg.MGT_TB_STAT Fld.MGT_TB_STAT_SLOT

/-- R805: the strap names a tray slot. -/
def State.inTray (s : State) : Bool := decide (s.traySlot ≤ 8)
def State.setTray (s : State) (t : Tray) : State := { s with tray := t }

/-- R735: a frame whose CRC fails. -/
def State.trayCrc (s : State) : State := s.bump Reg.MGT_TB_CRC Fld.MGT_TB_CRC_COUNT 1

/-- The node ID of a tray slot in this tray, `END` 0 (R34). -/
def State.slotNode (s : State) (k : Nat) : Nat := s.node / 128 * 128 + 8 * k

/-- R749: the reference at a valid sync frame. -/
def State.syncTime (s : State) (frame : Nat) : State :=
  let ref : Int := (20000 * frame : Nat) - (10 * s.now : Nat)
  let cur := slew s.trayOfs s.trayRef (s.now - s.trayAt)
  let first := s.tray.sync.isNone
  { s with trayOfs := if first || decide (2000 < ref - cur) then ref else cur, trayRef := ref, trayAt := s.now }

/-- R733, R738, R745, R746, R749: a sync frame. -/
def State.syncFrame (s : State) (b : List Byte) : State :=
  if !trayOk b then s.trayCrc
  else if leAt b 0 1 % 16 ≠ 15 then s
  else
    let w1 := leAt b 1 2
    let w9 := leAt b 9 2
    let w11 := leAt b 11 2
    let hb := bitOf (leAt b 0 1) 5
    let s1 := s.syncTime (leAt b 3 6)
    let t := s1.tray
    let run := match t.sync with | some x => decide (s.now < x + 2100) | none => false
    let s2 := s1.setTray { t with
      sync := some s.now, hbSeq := if hb then bitsOf w1 9 4 else t.hbSeq, hbAt := if hb then some s.now else t.hbAt
      hbOld := if hb then t.hbSeq else t.hbOld, align := if run then t.align + 1 else 1 }
    let s3 := ((s2.fput Reg.MGT_TB_STAT Fld.MGT_TB_STAT_SYNC 1).wn Reg.MGT_FRAME_LO (leAt b 3 4)).wn Reg.MGT_FRAME_HI (leAt b 7 2)
    let node := 1024 * bitsOf w11 0 10 + 128 * bitsOf w11 10 3 + 8 * s.traySlot
    let s4 := if s.inTray then s3.wr Reg.MGT_NODE (Fld.MGT_NODE_VALID.put (Fld.MGT_NODE_NODE.put 0 node) 1) else s3
    let fail := bitsOf w9 0 9
    let old := s4.fget Reg.MGT_FAIL Fld.MGT_FAIL_MASK
    let new := (List.range 9).filter fun k => bitOf fail k && !bitOf old k
    let s5 := s4.fput Reg.MGT_FAIL Fld.MGT_FAIL_MASK fail
    let s6 := if new = [] then s5 else new.foldl (fun (s : State) k => s.platEvent 2 k) (s5.irqMgt Fld.MGT_INT_STATUS_FAIL)
    let src := bitsOf (leAt b 13 3) 0 20
    let s7 := if bitOf w9 9 ∧ src ≠ node then
        s6.setTray { s6.tray with inAnn := s6.tray.inAnn ++
          [(⟨src, bitsOf w9 11 3, leAt b 16 2, bitOf w9 10, leAt b 18 2, 0xF, s6.now⟩ : Ann)] } else s6
    if bitOf (leAt b 0 1) 4 ∧ s.inTray ∧ bitOf w1 s.traySlot then s7.askHalt 1 else s7
def execSyncFrame (b : List Byte) (s : State) : Host.Outcome State Fault Refusal := .next (s.syncFrame b)

/-- A byte as two's complement, and an offset saturated to one. -/
def satOffset (d : Int) : Int := max (-127) (min 127 d)

/-- R739 to R742: a module frame in the slot of the module in tray slot `k`, `d` × 5 ns after the slot's start. -/
def State.moduleFrame (s : State) (k : Nat) (b : List Byte) (d : Int) : State :=
  if !trayOk b then s.trayCrc
  else if k = s.traySlot ∨ s.tray.sync.isNone then s
  else
    let a := Reg.MGT_DRIFT k
    let s1 := s.fput a Fld.MGT_DRIFT_OFFSET (unsigned 8 (satOffset d))
    let viol := decide (40 < d.natAbs)
    let warn := decide (20 < d.natAbs) && !viol
    let s2 := if viol then (s1.bump a Fld.MGT_DRIFT_VIOL 1).bump Reg.MGT_TB_RXVIOL Fld.MGT_TB_RXVIOL_COUNT 1
      else if warn then s1.bump a Fld.MGT_DRIFT_WARN 1 else s1
    let t := s2.tray
    let rest := t.reports.filter fun r => r.1 != k
    let t1 := { t with reports := if viol || warn then rest ++ [(k, viol, satOffset d, s.now)] else rest }
    if viol then s2.setTray t1
    else
      let hdr := leAt b 0 1
      let mine := leAt b 1 1 / 16 == s.traySlot
      let bad := bitOf hdr 7
      let t2 := if mine then
          { t1 with heard := t1.heard.filter (fun (h : Nat × Bool × Int) => h.1 != k) ++ [(k, bad, signed 8 (leAt b 2 1))] } else t1
      let fl := leAt b 3 1
      let anns := allParts.filterMap fun n => if bitOf fl (2 * (n - 1)) then
          some (⟨s.slotNode k, n, leAt b (4 * n) 2, bitOf fl (2 * (n - 1) + 1), leAt b (4 * n + 2) 2, k, s.now⟩ : Ann) else none
      let s3 := s2.setTray { t2 with inAnn := t2.inAnn ++ anns }
      if mine then s3.irqMgt (if bad then Fld.MGT_INT_STATUS_VIOL else Fld.MGT_INT_STATUS_DRIFT) else s3
def execModuleFrame (k : Nat) (b : List Byte) (d : Int) (s : State) : Host.Outcome State Fault Refusal :=
  .next (s.moduleFrame k b d)

/-- R742 step 1. -/
def State.muteNow (s : State) : State :=
  (((s.setTray { s.tray with mute := 1, align := 0, heard := [] }).wr Reg.MGT_TB_STAT
    (Fld.MGT_TB_STAT_VCOUNT.put (Fld.MGT_TB_STAT_MUTED.put (s.rd Reg.MGT_TB_STAT) 1) 0)).bump Reg.MGT_TB_MUTES
      Fld.MGT_TB_MUTES_COUNT 1).irqMgt Fld.MGT_INT_STATUS_MUTED

/-- R736: the device may send in its slot: the frame time puts it there, and firmware is alive. -/
def State.mayTransmit (s : State) : Bool :=
  match s.tray.sync, s.tray.kick with
  | some t, some k =>
    s.inTray && s.flag Reg.MGT_TB_CTRL Fld.MGT_TB_CTRL_EN && decide (s.now < t + 6000) && (s.now - t) % 2000 / 200 == s.traySlot + 1 &&
      decide (s.now ≤ k + 10000000) && !s.flag Reg.MGT_TB_STAT Fld.MGT_TB_STAT_DUP_SLOT && s.tray.mute != 1 &&
      (match s.tray.lastTx with | some x => decide (x + 200 ≤ s.now) | none => true)
  | _, _ => false

/-- R741: the report for the next frame: violations first, then the lowest slot; none older than two frames. -/
def State.nextReport (s : State) : Option (Nat × Bool × Int × Nat) :=
  let l := s.tray.reports.filter fun r => decide (s.now ≤ r.2.2.2 + 4000)
  let pick (v : Bool) : Option (Nat × Bool × Int × Nat) :=
    (List.range 9).findSome? fun k => l.find? fun r => r.1 == k && r.2.1 == v
  match pick true with | some r => some r | none => pick false

/-- R734, R737: the `HBSEQ` that the own frame shows. A slot answers a request when it begins 1 µs or more after the end of the request's sync
frame, which lasts 1.8 µs (R732); slot 0 of the same frame does not. -/
def State.hbShown (s : State) : Nat :=
  match s.tray.hbAt with
  | some t => if s.traySlot = 0 ∧ s.now < t + 400 then s.tray.hbOld else s.tray.hbSeq
  | none => s.tray.hbSeq

/-- R734: the frame the device sends. -/
def State.ownFrame (s : State) : List Byte :=
  let rep := s.nextReport
  let hdr := s.traySlot % 16 + 16 * b2n s.halted + 32 * s.fget Reg.PWR_SAG_STAT Fld.PWR_SAG_STAT_ACTIVE + 64 * b2n (s.tray.mute == 2) +
    128 * b2n (match rep with | some r => r.2.1 | none => false)
  let ann (p : Nat) := s.tray.anns.find? fun a => a.1 == p
  let flags := allParts.foldl (fun x p => match ann p with | some a => x + 4 ^ (p - 1) * (1 + 2 * a.2.1) | none => x) 0
  let body := leBytes 1 hdr ++
    leBytes 1 (s.hbShown + 16 * (match rep with | some r => r.1 | none => 15)) ++
    leBytes 1 (unsigned 8 (match rep with | some r => r.2.2.1 | none => 0)) ++ leBytes 1 flags ++
    allParts.flatMap (fun p => match ann p with | some a => leBytes 2 a.2.2.1 ++ leBytes 2 a.2.2.2 | none => leBytes 4 0)
  body ++ leBytes 2 (crc16 body)

/-- R743: the eighth duplicated frame in a row. -/
def State.sharedSlot (s : State) : State :=
  let s1 := ((s.muteNow.fput Reg.MGT_TB_STAT Fld.MGT_TB_STAT_DUP_SLOT 1).irqMgt Fld.MGT_INT_STATUS_DUP_SLOT).platEvent 8 s.traySlot
  (List.range 8).foldl (fun (s : State) n => s.trainEnter n (s.downIdx n) 3) s1

/-- R736, R741 to R743: the device sends its frame. `echo` is what the pair carried in its place, where it differed; `alien` a frame that
began more than 200 ns apart from it in the same slot. -/
def State.transmit (s : State) (echo alien : Option (List Byte)) : State :=
  if !s.mayTransmit then s
  else
    let t := s.tray
    let viol := t.heard.any fun h => h.2.1
    let vc := if viol then s.fget Reg.MGT_TB_STAT Fld.MGT_TB_STAT_VCOUNT + 1 else 0
    if (t.mute = 3 ∧ viol) ∨ (t.mute = 0 ∧ 3 ≤ vc) then s.muteNow
    else
      let fix : Int := match (List.range 9).findSome? fun k => t.heard.find? fun h => h.1 == k with
        | some h => 5 * h.2.2
        | none => 0
      let s1 := (s.setTray { t with shift := t.shift - fix, mute := if t.mute = 3 then 0 else t.mute }).fput Reg.MGT_TB_STAT
        Fld.MGT_TB_STAT_VCOUNT vc
      let s2 := if t.mute = 3 then s1.fput Reg.MGT_TB_STAT Fld.MGT_TB_STAT_MUTED 0 else s1
      let f := s2.ownFrame
      let dup := (match echo with | some e => e != f | none => false) ||
        (match alien with | some a => trayOk a && leAt a 0 1 % 16 == s.traySlot | none => false)
      let sent := match s2.nextReport with | some r => r.1 | none => 15
      let x := s2.tray
      let s3 := (s2.emit (.tray f)).setTray { x with
        heard := [], anns := [], lastTx := some s.now, mute := if x.mute = 2 then 3 else x.mute
        reports := x.reports.filter fun r => r.1 != sent, dups := if dup then x.dups + 1 else 0 }
      if 8 ≤ s3.tray.dups then s3.sharedSlot else s3
def execModuleFrameTransmit (echo alien : Option (List Byte)) (s : State) : Host.Outcome State Fault Refusal :=
  .next (s.transmit echo alien)

/-- R736: three sync frames in a row have not come. -/
def State.syncLoss (s : State) : State :=
  match s.tray.sync with
  | none => s
  | some t =>
    if s.now < t + 6000 ∨ !s.flag Reg.MGT_TB_STAT Fld.MGT_TB_STAT_SYNC then s
    else (s.fput Reg.MGT_TB_STAT Fld.MGT_TB_STAT_SYNC 0).irqMgt Fld.MGT_INT_STATUS_SYNC_LOSS
def execSyncLoss (s : State) : Host.Outcome State Fault Refusal := .next s.syncLoss

/-- R742 steps 2 and 3: re-aligned on 50 sync frames, the RESYNC frame is due. -/
def State.aligned (s : State) : State :=
  if s.tray.mute ≠ 1 ∨ s.tray.align < 50 ∨ s.flag Reg.MGT_TB_STAT Fld.MGT_TB_STAT_DUP_SLOT then s
  else s.setTray { s.tray with mute := 2, heard := [] }
def execResyncAligned (s : State) : Host.Outcome State Fault Refusal := .next s.aligned

/-- R742, R743, R763: a write of `MGT_TB_CTRL`. -/
def State.trayCtrlW (s : State) (v : Word) : State :=
  let s1 := s.regWrite Reg.MGT_TB_CTRL v
  if Fld.MGT_TB_CTRL_RESYNC.get v = 1 ∧ !s.flag Reg.MGT_TB_STAT Fld.MGT_TB_STAT_DUP_SLOT then s1.muteNow else s1
def execTbResyncCmd (r : RegReq) (v : Word) (s : State) : Host.Outcome State Fault Refusal :=
  .next (s.write r Reg.MGT_TB_CTRL fun s => s.trayCtrlW v)

def State.kick (s : State) : State := s.setTray { s.tray with kick := some s.now }
def execHbKick (r : RegReq) (s : State) : Host.Outcome State Fault Refusal := .next (s.write r Reg.MGT_HB_KICK State.kick)

/-- R736: 100 ms have passed since the last kick. -/
def State.kickTimeout (s : State) : State :=
  match s.tray.kick with
  | some t => if t + 10000000 < s.now then s.setTray { s.tray with kick := none } else s
  | none => s
def execHbKickTimeout (s : State) : Host.Outcome State Fault Refusal := .next s.kickTimeout

/-! ## Lateness announcements (R192 to R194, R744) -/

/-- An announcement joins the next own frame. -/
def State.announce (s : State) (p st : Nat) : State :=
  let a := (p, st, (s.sq p).tag, min 0xFFFF (s.rn (Reg.SEQ_LATE p) / 1024))
  s.setTray { s.tray with anns := s.tray.anns.filter (fun x => x.1 != p) ++ [a] }

/-- R192, R205, R744: the sample of one partition. A tag written since the last one takes effect. Of what awaits the sample a LOST goes
first, and a CLEAR in a later frame. -/
def State.annSample (s : State) (p : Nat) : State :=
  let s1 := s.setSq p { s.sq p with tag := s.fget (Reg.SEQ_ANN_TAG p) Fld.SEQ_ANN_TAG_TAG }
  let q := s1.sq p
  if q.tag = 0 ∨ q.annQ = [] then s1
  else
    let lost := q.annQ.contains true
    let s2 := (s1.announce p (b2n lost)).setAnnQ p (q.annQ.erase lost) q.announced
    if lost then s2.setSq p { s2.sq p with annTime := s.now } else s2
def execAnnounceSample (s : State) : Host.Outcome State Fault Refusal := .next (allParts.foldl State.annSample s)

/-- R192: LOST again, 1 ms after the last one, while the episode lasts. -/
def State.annRepeat (s : State) (p : Nat) : State :=
  let q := s.sq p
  if !q.announced ∨ q.annQ.contains true ∨ !s.flag (Reg.SEQ_LATE_STAT p) Fld.SEQ_LATE_STAT_LOST ∨ s.now < q.annTime + 100000 ∨ q.tag = 0 then s
  else (s.announce p 1).setSq p { q with annTime := s.now }
def execAnnounceLostRepeat (p : Nat) (s : State) : Host.Outcome State Fault Refusal := .next (s.annRepeat p)

/-- `SEQ_PEER_LATE.ACTIVE` follows the holds (R194). A hold runs out, ends or gives way by R194 alone: a change of `SEQ_ANN_TAG.TAG`, to 0
too, leaves those that run (DESIGN CHOICE, log 43: the spec does not say). -/
def State.setHolds (s : State) (p : Nat) (l : List PeerHold) : State :=
  (s.setSq p { s.sq p with holds := l }).fput (Reg.SEQ_PEER_LATE p) Fld.SEQ_PEER_LATE_ACTIVE (b2n !l.isEmpty)

/-- The senders with a hold in any partition, and the one with the least time left. -/
def State.heldSenders (s : State) : List (Nat × Nat) :=
  (allParts.flatMap fun p => (s.sq p).holds.map fun (h : PeerHold) => (h.node, h.endp)).eraseDups
def State.leastHold (s : State) : Option PeerHold :=
  (allParts.flatMap fun p => (s.sq p).holds).foldl (fun b (h : PeerHold) => match b with
    | none => some h
    | some x => if h.expires < x.expires then some h else b) none

/-- R194: an announcement acts on one partition whose tag it bears. -/
def State.applyAnn (s : State) (a : Ann) (p : Nat) : State :=
  if (s.sq p).tag ≠ a.tag ∨ a.tag = 0 then s
  else
    let rest := (s.sq p).holds.filter fun (h : PeerHold) => h.node != a.node || h.endp != a.endp
    if !a.lost ∨ a.time + 200000 ≤ s.now then s.setHolds p rest
    else
      let s1 := s.setHolds p (rest ++ [(⟨a.node, a.endp, a.time + 200000⟩ : PeerHold)])
      let r := Reg.SEQ_PEER_LATE p
      (s1.wr r (Fld.SEQ_PEER_LATE_END.put (Fld.SEQ_PEER_LATE_SLOT.put (Fld.SEQ_PEER_LATE_LATE_K.put (s1.rd r) a.lateK) a.slot) a.endp)).wr
        (Reg.SEQ_PEER_SRC p) (Fld.SEQ_PEER_SRC_RELAYED.put (Fld.SEQ_PEER_SRC_NODE.put 0 a.node) (b2n (a.slot == 0xF)))

/-- R194: the oldest announcement that has come in is applied. A LOST from a 33rd sender takes the place of the hold with the least time
left. -/
def State.annReceived (s : State) : State :=
  match s.tray.inAnn with
  | [] => s
  | a :: t =>
    let s1 := s.setTray { s.tray with inAnn := t }
    let known := s1.heldSenders
    let mine := allParts.any fun p => (s1.sq p).tag == a.tag && a.tag != 0
    let s2 := if a.lost ∧ mine ∧ !known.contains (a.node, a.endp) ∧ 32 ≤ known.length then
        match s1.leastHold with
        | some x => allParts.foldl (fun (s : State) p =>
            if (s.sq p).holds.any fun (h : PeerHold) => h.node == x.node && h.endp == x.endp then
              s.setHolds p ((s.sq p).holds.filter fun (h : PeerHold) => h.node != x.node || h.endp != x.endp) else s) s1
        | none => s1
      else s1
    allParts.foldl (fun (s : State) p => s.applyAnn a p) s2
def execAnnouncementReceived (s : State) : Host.Outcome State Fault Refusal := .next s.annReceived

/-- R194: holds run out. -/
def State.holdExpire (s : State) (p : Nat) : State :=
  if (s.sq p).holds.any fun (h : PeerHold) => decide (h.expires ≤ s.now) then
    s.setHolds p ((s.sq p).holds.filter fun (h : PeerHold) => decide (s.now < h.expires)) else s
def execPeerHoldExpire (p : Nat) (s : State) : Host.Outcome State Fault Refusal := .next (s.holdExpire p)

/-! ## Time -/

/-- R750: a write of `MGT_TIME_OFS_HI`. -/
def State.timeOfsW (s : State) (v : Word) : State :=
  { s.wr Reg.MGT_TIME_OFS_HI v with timeOfs := s.rn Reg.MGT_TIME_OFS_LO + 4294967296 * v.toNat, ofsSet := true }
def execTimeOffsetWrite (r : RegReq) (v : Word) (s : State) : Host.Outcome State Fault Refusal :=
  .next (s.write r Reg.MGT_TIME_OFS_HI fun s => s.timeOfsW v)

/-- The model's bytes of TIME_PROBE and TIME_REPLY (R751). -/
def probeMsg : List Byte := ascii "TIME_PROBE"
def replyMsg (t2 t3 : Nat) : List Byte := ascii "TIME_REPLY" ++ leBytes 8 t2 ++ leBytes 8 t3

/-- R751, R766: a write of `MGT_TPROBE_CTRL`; the probe leaves as it is sent. -/
def State.probeW (s : State) (v : Word) : State :=
  let s1 := s.regWrite Reg.MGT_TPROBE_CTRL v
  if Fld.MGT_TPROBE_CTRL_GO.get v = 0 ∨ s.flag Reg.MGT_TPROBE_STAT Fld.MGT_TPROBE_STAT_BUSY then s1
  else
    let n := s1.fget Reg.MGT_TPROBE_CTRL Fld.MGT_TPROBE_CTRL_PORT
    ((s1.wr Reg.MGT_TPROBE_STAT (Fld.MGT_TPROBE_STAT_BUSY.put 0 1)).setTray { s1.tray with probe := some (n, s.trayTime, s.now) }).sendSpdm n
      probeMsg
def execTimeProbe (r : RegReq) (v : Word) (s : State) : Host.Outcome State Fault Refusal :=
  .next (s.write r Reg.MGT_TPROBE_CTRL fun s => s.probeW v)

def State.probeIn (s : State) (n : Nat) : State := s.sendSpdm n (replyMsg s.trayTime s.trayTime)
def execTimeProbeReceived (n : Nat) (s : State) : Host.Outcome State Fault Refusal := .next (s.probeIn n)

def State.probeEnd (s : State) (w : Word) : State :=
  ((s.setTray { s.tray with probe := none }).wr Reg.MGT_TPROBE_STAT w).irqMgt Fld.MGT_INT_STATUS_PROBE_DONE

/-- R751: the reply comes in, with t2 and t3; `replayed` where either probe frame was. -/
def State.probeReply (s : State) (n t2 t3 : Nat) (replayed : Bool) : State :=
  match s.tray.probe with
  | none => s
  | some (port, t1, _) =>
    if port ≠ n then s
    else if replayed then s.probeEnd (Fld.MGT_TPROBE_STAT_RETRY.put 0 1)
    else
      let a : Int := (t2 : Int) - t1
      let b : Int := (s.trayTime : Int) - t3
      let dly : Int := ((s.trayTime : Int) - t1 - ((t3 : Int) - t2)).fdiv 2
      ((s.wr64 Reg.MGT_TPROBE_OFS_LO (unsigned 64 ((a - b).fdiv 2))).wn Reg.MGT_TPROBE_DLY (unsigned 32 dly)).probeEnd
        (Fld.MGT_TPROBE_STAT_VALID.put 0 1)
def execTimeReply (n t2 t3 : Nat) (replayed : Bool) (s : State) : Host.Outcome State Fault Refusal :=
  .next (s.probeReply n t2 t3 replayed)

def State.probeTimeout (s : State) : State :=
  match s.tray.probe with
  | none => s
  | some (_, _, t) => if s.now < t + 100000 then s else s.probeEnd (Fld.MGT_TPROBE_STAT_TIMEOUT.put 0 1)
def execTimeProbeTimeout (s : State) : Host.Outcome State Fault Refusal := .next s.probeTimeout

/-! ## Management interfaces -/

/-- R743, R753, R805: the static address, while the device answers to it. -/
def State.staticAddr (s : State) : Option Nat :=
  if s.flag Reg.MGT_TB_STAT Fld.MGT_TB_STAT_DUP_SLOT ∨ !s.inTray then none else some (0x50 + s.traySlot)
def execEntdaa (a : Nat) (s : State) : Host.Outcome State Fault Refusal := .next { s with dynAddr := some a }
def execSetdasa (st a : Nat) (s : State) : Host.Outcome State Fault Refusal :=
  .next (if s.staticAddr = some st then { s with dynAddr := some a } else s)

/-- R692: a PLDM request of type `typ` has effect `f` while management firmware runs; its answer goes to the requester. Before that the boot code
answers ERROR_NOT_READY. -/
def State.pldm (s : State) (a : Nat) (f : State → State) : State :=
  if s.bootStage = 3 ∨ s.bootStage = 4 then f s else s.emit (.message a 2 4 [])

/-- R754: the reading of a port's state sensor: 1 ACTIVE, 2 DEGRADED, 3 TRAINING, 4 DOWN. -/
def State.portSensor (s : State) (n : Nat) : Nat :=
  let st := Reg.LL_PORT_STAT n
  let x := s.port n
  if x.up then (if s.flag st Fld.LL_PORT_STAT_WIDTH4 then 2 else 1) else if x.action = tHold then 4 else 3

/-- R754. -/
def State.sensor (s : State) (id : Nat) : Option Nat :=
  match id with
  | 1 => some (s.fget Reg.PWR_INPUT_AVG Fld.PWR_INPUT_AVG_W)
  | 2 => some (s.rd64 Reg.PWR_ENERGY_LO)
  | 3 => some (s.fget Reg.PWR_INPUT_V Fld.PWR_INPUT_V_A_DV)
  | 4 => some (s.fget Reg.PWR_INPUT_V Fld.PWR_INPUT_V_B_DV)
  | 5 => some (s.fget Reg.PWR_TEMP Fld.PWR_TEMP_TJ)
  | 6 => some (s.fget Reg.PWR_TEMP Fld.PWR_TEMP_TS)
  | 7 => some (s.fget Reg.PWR_STAT Fld.PWR_STAT_VBAT_MV)
  | 16 => some s.bootStage
  | 17 => some (s.fget Reg.LCS_STAT Fld.LCS_STAT_STATE)
  | 18 => some (s.rn Reg.MGT_HALT_STAT)
  | 19 => some (s.fget Reg.PWR_THR_STAT Fld.PWR_THR_STAT_CHARGED)
  | _ => if 20 ≤ id ∧ id < 36 then some (s.portSensor (id - 20)) else if 36 ≤ id ∧ id < 40 then some (s.partState (id - 35)) else none

/-- Codes of the answers: 0x11 a sensor reading, 0x04 SetEventReceiver, 0x0B PollForPlatformEventMessage; a sensor that does not exist 0x80. -/
def State.sensorGet (s : State) (a id : Nat) : State :=
  s.pldm a fun s => match s.sensor id with
    | some v => s.emit (.message a 2 0x11 (leBytes 2 id ++ leBytes 8 v))
    | none => s.emit (.message a 2 0x80 (leBytes 2 id))
def execGetSensorReading (a id : Nat) (s : State) : Host.Outcome State Fault Refusal := .next (s.sensorGet a id)

def State.setReceiver (s : State) (a rcv : Nat) : State :=
  s.pldm a fun s => { s with eventRcv := some rcv }.emit (.message a 2 0x04 [])
def execSetEventReceiver (a rcv : Nat) (s : State) : Host.Outcome State Fault Refusal := .next (s.setReceiver a rcv)

/-- R755: the oldest held event. -/
def State.pollEvent (s : State) (a : Nat) : State :=
  s.pldm a fun s => s.emit (.message a 2 0x0B (match s.events with
    | e :: _ => leBytes 4 e.id ++ leBytes 2 e.kind ++ leBytes 4 e.arg
    | [] => []))
def execPollForPlatformEvent (a : Nat) (s : State) : Host.Outcome State Fault Refusal := .next (s.pollEvent a)

def execPlatformEventAck (id : Nat) (s : State) : Host.Outcome State Fault Refusal :=
  .next { s with events := s.events.filter fun (e : PlatEvent) => e.id != id }

/-- R661, R755: MOD_ALERT_N is asserted. -/
def State.modAlert (s : State) : Bool := !s.events.isEmpty || s.thermAlert

end Sys2Proof.Machine
end

