-- ==== Sys2Proof/Machine/Access.lean ====
section
/-! DEFINITION. The plain register accesses of R13 to R25: a write takes the effect that the register's table gives, a read returns
what the register shows at that moment, and the 64-bit pairs have a shadow per pair and requester. -/

namespace Sys2Proof.Machine

/-- The `_LO` halves of the 64-bit pairs of PF0's BAR0, with stride and count of each index, and those of a VF's. -/
def pfPairs : List (Nat × List (Nat × Nat)) :=
  [(0x10, []), (0x100010, []), (0x100080, [(8, 5)]), (0x200070, []), (0x200078, []), (0x200080, []), (0x200098, []),
   (0x5000A8, [(65536, 16)]), (0x500100, [(65536, 16)]), (0x500108, [(65536, 16)]), (0x500110, [(65536, 16)]),
   (0x710010, [(65536, 8)]), (0x710040, [(65536, 8)]), (0x710068, [(65536, 8)]), (0x710070, [(65536, 8)]), (0x900010, []),
   (0x900068, []), (0x980008, []), (0xA00010, []), (0xA00018, []), (0xA00028, []), (0xA00040, [(32, 4)]),
   (0xA00048, [(32, 4)]), (0xA00050, [(32, 4)]), (0xA00058, [(32, 4)]), (0xA00100, [(32, 16)]), (0xA00108, [(32, 16)]),
   (0xA00110, [(32, 16)]), (0x601000, [(32, 4)])]
def vfPairs : List (Nat × List (Nat × Nat)) :=
  [(0x1000, [(32, 64)]), (0x100010, []), (0x200008, []), (0x200020, []), (0x200218, []), (0x200220, []),
   (0x280000, [(32, 2048)]), (0x300028, []), (0x300048, [(16, 2)]), (0x300068, [(16, 2)]), (0x300098, []), (0x400018, []),
   (0x400048, []), (0x700100, [(8, 16)]), (0x700210, []), (0x800808, [])]

/-- Whether the register at `a` is the `_LO` half of a 64-bit pair. -/
def isPairLo (a : Nat) : Bool :=
  (if regFn a = 0 ∨ regFn a = 5 then pfPairs else vfPairs).any fun e =>
    decide (e.1 ≤ regOff a) && (dimIndex e.2 (regOff a - e.1)).isSome

/-- R753: the mailbox of the management interfaces lies where PF0 has its own. -/
def aliasOf (who a : Nat) : Nat := if who = 1 ∧ 0x400000 ≤ a ∧ a < 0x400400 then a - 0x400000 + mailBase 0 else a

/-! ## Reads -/

/-- One half of a value of 64 bits. -/
def halfOf (x h : Nat) : Word := BitVec.ofNat 32 (x / 2 ^ (32 * h))

/-- R771, R772: the codes of `TDBG_CNT_CFG_k.EVENT` that the table marks coarse. -/
def coarseEvent (e : Nat) : Bool := decide (1 ≤ e ∧ e ≤ 6)

/-- A counter of a partition as it reads (R772). -/
def State.countShown (s : State) (p k : Nat) : Nat :=
  let c := SMap.get (fun _ => 0) s.counts (16 * p + k)
  if coarseEvent (s.fget (Reg.TDBG_CNT_CFG p k) Fld.TDBG_CNT_CFG_EVENT) then c / 1024 else c

/-- R10: ACLK cycles since the always-on domain was last released; 0 while it is held. -/
def State.uptime (s : State) : Nat := if s.power.aonHeld then 0 else s.now - s.power.aonAt

/-- Registers of PF0 whose value is not held but computed at the read. -/
def State.pfShown (s : State) (o : Nat) (ix : List Nat) (a : Nat) : Word :=
  let i := ix.getD 0 0
  if o == Reg.GLB_UPTIME_LO then halfOf s.uptime 0
  else if o == Reg.GLB_UPTIME_HI then halfOf s.uptime 1
  else if o == Reg.MGT_TIME_LO then halfOf s.globalTime 0
  else if o == Reg.MGT_TIME_HI then halfOf s.globalTime 1
  else if o == Reg.MTR_RTC_LO then halfOf s.rtc 0
  else if o == Reg.MTR_RTC_HI then halfOf s.rtc 1
  else if o == Reg.MTR_MONO_LO then halfOf s.mono 0
  else if o == Reg.MTR_MONO_HI then halfOf s.mono 1
  else if Reg.MTR_P_BEATS_LO 1 ≤ o ∧ o ≤ Reg.MTR_P_RX_HI 1 then
    halfOf (s.meterOf (i + 1) ((o - Reg.MTR_P_BEATS_LO 1) / 8)) ((o - Reg.MTR_P_BEATS_LO 1) / 4 % 2)
  else if o == Reg.MTR_REC 0 then
    BitVec.ofNat 32 (leAt (s.mtr.records.getD (s.fget Reg.MTR_REC_SEL Fld.MTR_REC_SEL_INDEX) []) (4 * i) 4)
  else if o == Reg.DBG_REPAIR_DATA 0 then
    BitVec.ofNat 32 (s.spare (s.fget Reg.DBG_REPAIR_SEL Fld.DBG_REPAIR_SEL_PCORE) (s.fget Reg.DBG_REPAIR_SEL Fld.DBG_REPAIR_SEL_BANK)
      (s.fget Reg.DBG_REPAIR_SEL Fld.DBG_REPAIR_SEL_MACRO) i)
  else if o == Reg.LL_PORT_STAT 0 then Fld.LL_PORT_STAT_SECURE.put (s.regRead a (s.rd a)) (b2n (s.linkSecure i))
  else if o == Reg.LL_TX_KEY 0 then s.txKeyWord i
  else if o == Reg.LL_TX_FCTR_LO 0 then halfOf (s.key (txSlot i)).ctr 0
  else if o == Reg.LL_TX_FCTR_HI 0 then halfOf (s.key (txSlot i)).ctr 1
  else if o == Reg.LL_RX_KEY 0 then s.rxKeyWord i
  else if o == Reg.LL_REPLAY 0 then
    Fld.LL_REPLAY_PEAK.put (s.regRead a (s.rd a)) (max (s.fget a Fld.LL_REPLAY_PEAK) (s.fget a Fld.LL_REPLAY_USED / 2))
  else if o == Reg.PWR_TEMP then
    Fld.PWR_TEMP_TJ_PEAK.put (s.regRead a (s.rd a)) (max (s.fget a Fld.PWR_TEMP_TJ_PEAK) (s.fget a Fld.PWR_TEMP_TJ))
  else if o == Reg.MEM_TAG 0 then
    Fld.MEM_TAG_PEAK.put (Fld.MEM_TAG_INUSE.put 0 (s.stk i).inUse) (max (s.stk i).inUse (s.fget a Fld.MEM_TAG_PEAK))
  else if o == Reg.MEM_STK_STAT 0 then
    let v := s.regRead a (s.rd a)
    if s.flag (Reg.MEM_STK_CTRL i) Fld.MEM_STK_CTRL_PATROL_EN then v else Fld.MEM_STK_STAT_PATROL_BUSY.put v 0
  else if o == Reg.MEM_NME_STAT 0 then
    let x := s.stk i
    let upd := allParts.any fun p => (s.up p).streams.any fun y => y.kind == 0 && y.parts.any fun z => z.stack == i
    Fld.MEM_NME_STAT_LINKKEY.put (Fld.MEM_NME_STAT_UPD_BUSY.put (Fld.MEM_NME_STAT_BUSY.put (Fld.MEM_NME_STAT_QDEPTH.put 0 x.queue.length)
      (b2n (x.queue.any fun r => r.started))) (b2n upd)) (b2n (s.ifcLoaded i))
  else s.regRead a (s.rd a)

/-- The same for the registers of VF*p*. -/
def State.vfShown (s : State) (p o : Nat) (ix : List Nat) (a : Nat) : Word :=
  let i := ix.getD 0 0
  if o == Reg.TDBG_CNT_LO 0 0 then halfOf (s.countShown p i) 0
  else if o == Reg.TDBG_CNT_HI 0 0 then halfOf (s.countShown p i) 1
  else if o == Reg.TDBG_SEPIA_STAT 0 then
    Fld.TDBG_SEPIA_STAT_DEV_FROZEN.put (s.regRead a (s.rd a)) (s.fget Reg.DBG_SEPIA_STAT Fld.DBG_SEPIA_STAT_FROZEN)
  else if o == regOff (Reg.SEQ_GATE_STAT 0) then s.gateStat p (s.regRead a (s.rd a))
  else if o == regOff (Reg.SEQ_LATE_MAX 0) then BitVec.ofNat 32 (max (s.rn a) (s.rn (Reg.SEQ_LATE p)))
  else s.regRead a (s.rd a)

/-- What a read of the dword at `a` returns (R18: 0 where no register lies), before any side-effect. -/
def State.shown (s : State) (a : Nat) : Word :=
  match regDesc a with
  | none => 0
  | some (d, ix) => if regFn a = 0 then s.pfShown d.off ix a else if regFn a = 5 then s.regRead a (s.rd a) else s.vfShown (regFn a) d.off ix a

/-- The dword read with its side-effects (R13, the code RC; the window of R790). -/
def State.readLive (s : State) (a : Nat) : State × Word :=
  if Reg.DBG_WIN_DATA 0 ≤ a ∧ a < Reg.DBG_WIN_DATA 0 + 4096 ∧ a % 4 = 0 then s.winRead ((a - Reg.DBG_WIN_DATA 0) / 4) []
  else (s.regAfterRead a, s.shown a)

/-- The shadow of a pair's `_HI` half for one requester. -/
def shadowKey (who lo : Nat) : Nat := 16 * lo + who

/-- R19, R21, R22: a 4-byte read. -/
def State.readDword (s : State) (who a : Nat) : State × Word :=
  if !s.domainUp a then (s, 0xFFFFFFFF)
  else if isPairLo a then
    let y := s.readLive a
    let h := s.shown (a + 4)
    ({ y.1 with shadows := SMap.set (fun _ => none) y.1.shadows (shadowKey who a) (some h) }, y.2)
  else if 4 ≤ a ∧ isPairLo (a - 4) then
    match SMap.get (fun _ => none) s.shadows (shadowKey who (a - 4)) with
    | some h => ({ s with shadows := SMap.set (fun _ => none) s.shadows (shadowKey who (a - 4)) none }, h)
    | none => s.readLive a
  else s.readLive a

/-- R17: a read of `n` bytes at `a` by a requester, dword by dword, with its completion. -/
def State.readSplit (s : State) (r : RegReq) (a n : Nat) : State :=
  s.access r (aliasOf r.who (a / 4 * 4)) fun s =>
    let y := (dwordsOf a n 0 0).foldl (fun (x : State × List Word) d =>
      let y := x.1.readDword r.who (aliasOf r.who d.1)
      (y.1, x.2 ++ [y.2])) (s, [])
    y.1.emit (.readDone r.who (aliasOf r.who (a / 4 * 4)) y.2)

/-- A 4-byte read by a requester. -/
def State.read4 (s : State) (r : RegReq) (a : Nat) : State := s.readSplit r a 4

/-- R13: a read of a register with an RC field. -/
def execRcRead (r : RegReq) (a : Nat) (s : State) : Host.Outcome State Fault Refusal := .next (s.read4 r a)
/-- R21: a read of a `_LO` half. -/
def execLoReadLatch (r : RegReq) (a : Nat) (s : State) : Host.Outcome State Fault Refusal := .next (s.read4 r a)
/-- R21: a read of a `_HI` half. -/
def execHiReadShadow (r : RegReq) (a : Nat) (s : State) : Host.Outcome State Fault Refusal := .next (s.read4 r a)

/-- R23: an 8-byte read at a pair's offset: both halves as they stand, no shadow set or released. At an offset that is not 8-byte aligned
it is 4-byte reads (R17). -/
def State.read8 (s : State) (r : RegReq) (a : Nat) : State :=
  if a % 8 ≠ 0 then s.readSplit r a 8
  else
    let a := aliasOf r.who a
    s.access r a fun s =>
      if !s.domainUp a then s.emit (.readDone r.who a [0xFFFFFFFF, 0xFFFFFFFF])
      else
        let x := s.readLive a
        let y := x.1.readLive (a + 4)
        y.1.emit (.readDone r.who a [x.2, y.2])
def execPairRead8byte (r : RegReq) (a : Nat) (s : State) : Host.Outcome State Fault Refusal := .next (s.read8 r a)

/-! ## Writes -/

/-- A command bit of a written word that is set takes its effect. -/
def State.whenBit (s : State) (f : Fld) (v : Word) (g : State → State) : State := if f.get v = 1 then g s else s

/-- A write of `LL_PORT_CTRL` (R388). -/
def State.portCtrlW (s : State) (n : Nat) (v : Word) : State :=
  let a := Reg.LL_PORT_CTRL n
  let en := Fld.LL_PORT_CTRL_EN.get v == 1
  let s1 := s.regWrite a (Fld.LL_PORT_CTRL_TLOCK.put (Fld.LL_PORT_CTRL_EN.put v (s.fget a Fld.LL_PORT_CTRL_EN)) 0)
  let s2 := s1.portEnable n en
  let s3 := s2.whenBit Fld.LL_PORT_CTRL_RETRAIN v fun s => s.portRetrain n
  let s4 := s3.whenBit Fld.LL_PORT_CTRL_REKEY v fun s => s.portRekey n
  s4.whenBit Fld.LL_PORT_CTRL_TLOCK v fun s => s.setBits a Fld.LL_PORT_CTRL_TLOCK.mask

/-- A write of a register of PF0's map, or of the management mailbox (function 5), by register and index. -/
def State.pfPut (s : State) (who fn o : Nat) (ix : List Nat) (a : Nat) (v : Word) (errs : List ReadErr) : State :=
  let i := ix.getD 0 0
  if o == Reg.KEY_CTRL then s.whenBit Fld.KEY_CTRL_GO v fun s => s.mailGo (if fn = 0 then 1 else 0)
  else if fn ≠ 0 then s.regWrite a v
  else if o == Reg.GLB_RST_CTRL then s.rstCtrlW who v
  else if o == Reg.PWR_LIM_CTRL then s.limCtrlW v
  else if o == Reg.PWR_CAP then s.capW v
  else if o == Reg.MGT_TB_CTRL then s.trayCtrlW v
  else if o == Reg.MGT_HB_KICK then s.kick
  else if o == Reg.MGT_HALT_CTRL then s.haltCtrlW who v
  else if o == Reg.MGT_TIME_OFS_HI then s.timeOfsW v
  else if o == Reg.MGT_TPROBE_CTRL then s.probeW v
  else if o == Reg.LCS_TRANS then s.lcsTransW v
  else if o == Reg.LCS_DEBUG then s.lcsDebugW v
  else if o == Reg.LCS_CHAL_CTRL then s.chalCtrlW v
  else if o == Reg.LL_PORT_CTRL 0 then s.portCtrlW i v
  else if o == Reg.LL_SLOT 0 0 then s.slotW i (ix.getD 1 0) v
  else if o == Reg.HST_Q_CFG 0 then s.queueCfgW 0 i v
  else if o == Reg.HST_Q_DB 0 then s.queueDb 0 i v.toNat
  else if o == Reg.MEM_PSPLIT 1 then s.psplitW (i + 1) v
  else if o == Reg.PRT_LAYOUT then s.layoutW v
  else if o == Reg.PRT_CTRL 1 then s.whenBit Fld.PRT_CTRL_ASSIGN v fun s => s.assign (i + 1)
  else if o == Reg.DBG_SEPIA_CTRL then s.sepiaCtrlW v
  else if o == Reg.DBG_DUMP_CTRL then s.dumpCtrlW v
  else if o == Reg.DBG_STEP_CTRL then s.stepCtrlW v
  else if o == Reg.DBG_WIN_DATA 0 then s.winWrite i v errs
  else if o == Reg.DBG_CORE_STAT 0 then s.coreStatW i v
  else if o == Reg.MTR_CTRL then s.mtrCtrlW v
  else if o == Reg.MTR_RTC_CTRL then s.rtcSet v
  else s.regWrite a v

/-- A write of `SEQ_CTRL` (R161 to R165): `BRK_EN`, then each command bit. -/
def State.seqCtrlW (s : State) (p : Nat) (v : Word) (errs : List ReadErr) : State :=
  let a := Reg.SEQ_CTRL p
  let s1 := s.fput a Fld.SEQ_CTRL_BRK_EN (Fld.SEQ_CTRL_BRK_EN.get v)
  let s2 := s1.whenBit Fld.SEQ_CTRL_RUN v fun s => s.seqRun p errs
  let s3 := s2.whenBit Fld.SEQ_CTRL_CONT v fun s => s.seqCont p
  let s4 := s3.whenBit Fld.SEQ_CTRL_STOP v fun s => s.seqStop p
  s4.whenBit Fld.SEQ_CTRL_RESUME v fun s => s.seqResume p

/-- The sequencer block of VF*p* and its rings. -/
def State.seqPut (s : State) (p o i a : Nat) (v : Word) (errs : List ReadErr) : State :=
  if o == regOff (Reg.SEQ_CTRL 0) then s.seqCtrlW p v errs
  else if o == regOff (Reg.SEQ_CATCHUP_LIMIT 0) then s.catchupW p v
  else if o == regOff (Reg.SEQ_IMG_BASE_LO 0) ∨ o == regOff (Reg.SEQ_IMG_BASE_HI 0) then s.imgBaseW p a v
  else if o == 0x280000 then s.ringCfgW p i 0 v
  else if o == 0x280004 then s.ringCfgW p i 1 v
  else if o == 0x280008 then s.ringCfgW p i 2 v
  else if o == 0x28000C then s.ringProdW p i v.toNat
  else if o == 0x280010 then s.ringConsW p i v.toNat
  else if o == 0x280014 then s.ringCtrlW p i v.toNat
  else s.regWrite a v

/-- The queue and fence blocks of VF*p*. -/
def State.quePut (s : State) (p o i a : Nat) (v : Word) : State :=
  if o == regOff (Reg.QUE_CANCEL 0) then
    s.whenBit Fld.QUE_CANCEL_GO v fun s => s.queueCancel p (Fld.QUE_CANCEL_QUEUE.get v)
  else if o == regOff (Reg.QUE_CTX 0 0) then
    let s1 := s.regWrite a (Fld.QUE_CTX_KILL.put v 0)
    s1.whenBit Fld.QUE_CTX_KILL v fun s => s.contextKill p i
  else if o == 0x1008 then s.queueCfgW p i v
  else if o == 0x100C then s.queueDb p i v.toNat
  else if o == 0x140000 then s.fenceW p i v.toNat
  else s.regWrite a v

/-- A write of a register of VF*p*, by register and index. -/
def State.vfPut (s : State) (p o : Nat) (ix : List Nat) (a : Nat) (v : Word) (errs : List ReadErr) : State :=
  let i := ix.getD 0 0
  let rel := regOff a % 1048576
  match regOff a / 1048576 with
  | 0 => s.quePut p o i a v
  | 1 => s.quePut p o i a v
  | 2 => s.seqPut p o i a v errs
  | 3 => s.ckpConfigW p rel v errs
  | 4 => s.updConfigW p rel v
  | 5 => if rel < 0x10 then s.regWrite a v else s.fmtTableW p rel v
  | 6 => if colConfig rel then s.colConfigW p rel v else s.regWrite a v
  | 7 =>
    if o == regOff (Reg.TDBG_CNT_CTRL 0) then s.cntCtrlW p v
    else if o == regOff (Reg.TDBG_SEPIA_CTRL 0) then s.partSepiaW p v
    else if o == regOff (Reg.TDBG_DUMP_CTRL 0) then s.partDumpW p v
    else s.regWrite a v
  | _ => if o == regOff (Reg.TKEY_CTRL 0) then s.whenBit Fld.TKEY_CTRL_GO v fun s => s.mailGo (p + 1) else s.regWrite a v

/-- A whole dword written at `a` takes the effect of the register there (R13, R18). -/
def State.regPut (s : State) (who a : Nat) (v : Word) (errs : List ReadErr) : State :=
  match regDesc a with
  | none => s
  | some (d, ix) =>
    if !d.writable then s
    else if regFn a = 0 ∨ regFn a = 5 then s.pfPut who (regFn a) d.off ix a v errs
    else s.vfPut (regFn a) d.off ix a v errs

/-- R536: the entry word of a region table that lies at `a`: partition, entry, word. -/
def rgnWord (a : Nat) : Option (Nat × Nat × Nat) :=
  if regFn a ≠ 0 ∧ regFn a < 5 ∧ 0x801000 ≤ regOff a ∧ regOff a < 0x801000 + 512 ∧ regOff a % 16 < 12 ∧ a % 4 = 0 then
    some (regFn a, (regOff a - 0x801000) / 16, regOff a % 16 / 4)
  else none

/-- R13, R15 to R18: one dword of a write by a requester. -/
def State.writeDword (s : State) (r : RegReq) (a : Nat) (v : Word) (errs : List ReadErr) : State :=
  let a := aliasOf r.who a
  match rgnWord a with
  | some (p, n, w) => s.rgnAccess r p n w v
  | none => s.write r a fun s => s.regPut r.who a v errs

/-- R17: a write of `n` bytes at `a`, dword by dword. -/
def State.writeSplit (s : State) (r : RegReq) (a n v : Nat) (errs : List ReadErr) : State :=
  (dwordsOf a n v r.be).foldl (fun (s : State) d => s.writeDword { r with be := d.2.2 } d.1 d.2.1 errs) s

/-- A 4-byte write by a requester. -/
def State.write4 (s : State) (r : RegReq) (a : Nat) (v : Word) (errs : List ReadErr) : State := s.writeSplit r a 4 v.toNat errs
def execRegisterWrite (r : RegReq) (a : Nat) (v : Word) (errs : List ReadErr) (s : State) : Host.Outcome State Fault Refusal :=
  .next (s.write4 r a v errs)

/-- Both halves of a ring's base in one cycle (R23, R233). -/
def State.ringBaseW (s : State) (p i : Nat) (lo hi : Word) : State :=
  let s1 := (s.regWrite (Reg.SEQ_RING_BASE_LO p i) lo).regWrite (Reg.SEQ_RING_BASE_HI p i) hi
  if !s.stopped p || lo.toNat % 32 != 0 || !s1.ringFits p i then s.ringErrCfg p i else s1

/-- R23: an 8-byte write at a pair's offset, of both halves at once; a dword with a byte enable missing is dropped (R17). At an offset that is
not 8-byte aligned it is 4-byte writes. -/
def State.write8 (s : State) (r : RegReq) (a : Nat) (lo hi : Word) : State :=
  let b := aliasOf r.who a
  if a % 8 = 0 ∧ r.be % 256 = 255 ∧ regFn b ≠ 0 ∧ regFn b ≠ 5 ∧ 0x280000 ≤ regOff b ∧ regOff b < 0x290000 ∧ regOff b % 32 = 0 then
    s.write r b fun s => s.ringBaseW (regFn b) ((regOff b - 0x280000) / 32) lo hi
  else s.writeSplit r a 8 (lo.toNat + 2 ^ 32 * hi.toNat) []
def execPairWrite8byte (r : RegReq) (a : Nat) (lo hi : Word) (s : State) : Host.Outcome State Fault Refusal :=
  .next (s.write8 r a lo hi)

/-- R19: the home domain has not answered for 4 µs: a read returns ones, a write is dropped. Where the domain answers, no access ends so. -/
def execAccessTimeout (r : RegReq) (a : Nat) (write : Bool) (s : State) : Host.Outcome State Fault Refusal :=
  let a := aliasOf r.who (a / 4 * 4)
  .next (s.access r a fun s => if write ∨ s.domainUp a then s else s.emit (.readDone r.who a [0xFFFFFFFF]))

end Sys2Proof.Machine
end

