-- ==== Sys2Proof/Machine/Dispatch.lean ====
section
/-! DEFINITION. The one match from commands to meanings. -/

namespace Sys2Proof.Machine

def exec (i : Instr) (s : State) : Host.Outcome State Fault Refusal :=
  match i with
  | .registerWrite r a v errs => Sys2Proof.Machine.execRegisterWrite r a v errs s
  | .rcRead r a => Sys2Proof.Machine.execRcRead r a s
  | .loReadLatch r a => Sys2Proof.Machine.execLoReadLatch r a s
  | .hiReadShadow r a => Sys2Proof.Machine.execHiReadShadow r a s
  | .pairRead8byte r a => Sys2Proof.Machine.execPairRead8byte r a s
  | .pairWrite8byte r a lo hi => Sys2Proof.Machine.execPairWrite8byte r a lo hi s
  | .accessTimeout r a write => Sys2Proof.Machine.execAccessTimeout r a write s
  | .tamperEvent cause => Sys2Proof.Machine.execTamperEvent cause s
  | .halt => Sys2Proof.Machine.execHalt s
  | .haltStopComplete => Sys2Proof.Machine.execHaltStopComplete s
  | .haltCmd r v => Sys2Proof.Machine.execHaltCmd r v s
  | .limiterEstimate tot pool base eng nme i0 i1 => Sys2Proof.Machine.execLimiterEstimate tot pool base eng nme i0 i1 s
  | .limiterCalibration => Sys2Proof.Machine.execLimiterCalibration s
  | .thermalEstimate tjs => Sys2Proof.Machine.execThermalEstimate tjs s
  | .thermtrip => Sys2Proof.Machine.execThermtrip s
  | .singleStep r v => Sys2Proof.Machine.execSingleStep r v s
  | .stepHoldWrite r v => Sys2Proof.Machine.execStepHoldWrite r v s
  | .fmtTableWrite r p off v => Sys2Proof.Machine.execFmtTableWrite r p off v s
  | .seqRun r p errs => Sys2Proof.Machine.execSeqRun r p errs s
  | .seqCont r p => Sys2Proof.Machine.execSeqCont r p s
  | .seqStop r p => Sys2Proof.Machine.execSeqStop r p s
  | .seqResume r p => Sys2Proof.Machine.execSeqResume r p s
  | .periodFillComplete p errs => Sys2Proof.Machine.execPeriodFillComplete p errs s
  | .gateWaitBeat p => Sys2Proof.Machine.execGateWaitBeat p s
  | .gateOpen x => Sys2Proof.Machine.execGateOpen x s
  | .schedLost p => Sys2Proof.Machine.execSchedLost p s
  | .catchupLimitWrite r p v => Sys2Proof.Machine.execCatchupLimitWrite r p v s
  | .bundleExec p ue => Sys2Proof.Machine.execBundleExec p ue s
  | .ctlNop p => Sys2Proof.Machine.execCtlNop p s
  | .idle p => Sys2Proof.Machine.execIdle p s
  | .fsig p => Sys2Proof.Machine.execFsig p s
  | .loopOp p errs => Sys2Proof.Machine.execLoopOp p errs s
  | .commit p => Sys2Proof.Machine.execCommit p s
  | .slack p ue => Sys2Proof.Machine.execSlack p ue s
  | .endOp p ue => Sys2Proof.Machine.execEndOp p ue s
  | .endComplete p => Sys2Proof.Machine.execEndComplete p s
  | .periodEnd p => Sys2Proof.Machine.execPeriodEnd p s
  | .grpStart p d => Sys2Proof.Machine.execGrpStart p d s
  | .bodyStart p => Sys2Proof.Machine.execBodyStart p s
  | .bodyEnd p core u => Sys2Proof.Machine.execBodyEnd p core u s
  | .xferMemrd p => Sys2Proof.Machine.execXferMemrd p s
  | .xferMemwr p => Sys2Proof.Machine.execXferMemwr p s
  | .memTransferComplete p n errs bad => Sys2Proof.Machine.execMemTransferComplete p n errs bad s
  | .xferNme p errs => Sys2Proof.Machine.execXferNme p errs s
  | .lltx p => Sys2Proof.Machine.execLltx p s
  | .llrx p => Sys2Proof.Machine.execLlrx p s
  | .rload p => Sys2Proof.Machine.execRload p s
  | .rloadComplete p n errs => Sys2Proof.Machine.execRloadComplete p n errs s
  | .xferUpd p errs => Sys2Proof.Machine.execXferUpd p errs s
  | .meNop p core e err => Sys2Proof.Machine.execMeNop p core e err s
  | .wload p core e err => Sys2Proof.Machine.execWload p core e err s
  | .mma p core e err => Sys2Proof.Machine.execMma p core e err s
  | .mout p core e err => Sys2Proof.Machine.execMout p core e err s
  | .veNop p core err => Sys2Proof.Machine.execVeNop p core err s
  | .vld p core err => Sys2Proof.Machine.execVld p core err s
  | .vst p core err => Sys2Proof.Machine.execVst p core err s
  | .valuAdd p core err => Sys2Proof.Machine.execValuAdd p core err s
  | .valuSub p core err => Sys2Proof.Machine.execValuSub p core err s
  | .valuMul p core err => Sys2Proof.Machine.execValuMul p core err s
  | .valuFma p core err => Sys2Proof.Machine.execValuFma p core err s
  | .valuMax p core err => Sys2Proof.Machine.execValuMax p core err s
  | .valuMin p core err => Sys2Proof.Machine.execValuMin p core err s
  | .valuDiv p core err => Sys2Proof.Machine.execValuDiv p core err s
  | .valuSqrt p core err => Sys2Proof.Machine.execValuSqrt p core err s
  | .valuAbs p core err => Sys2Proof.Machine.execValuAbs p core err s
  | .valuNeg p core err => Sys2Proof.Machine.execValuNeg p core err s
  | .valuSel p core err => Sys2Proof.Machine.execValuSel p core err s
  | .valuCmpgt p core err => Sys2Proof.Machine.execValuCmpgt p core err s
  | .valuMov p core err => Sys2Proof.Machine.execValuMov p core err s
  | .vtrExp p core err => Sys2Proof.Machine.execVtrExp p core err s
  | .vtrExp2 p core err => Sys2Proof.Machine.execVtrExp2 p core err s
  | .vtrLog p core err => Sys2Proof.Machine.execVtrLog p core err s
  | .vtrRecip p core err => Sys2Proof.Machine.execVtrRecip p core err s
  | .vtrRsqrt p core err => Sys2Proof.Machine.execVtrRsqrt p core err s
  | .vtrTanh p core err => Sys2Proof.Machine.execVtrTanh p core err s
  | .vtrSigmoid p core err => Sys2Proof.Machine.execVtrSigmoid p core err s
  | .vtrGelu p core err => Sys2Proof.Machine.execVtrGelu p core err s
  | .vtrSin p core err => Sys2Proof.Machine.execVtrSin p core err s
  | .vtrCos p core err => Sys2Proof.Machine.execVtrCos p core err s
  | .vredSum p core err => Sys2Proof.Machine.execVredSum p core err s
  | .vredMax p core err => Sys2Proof.Machine.execVredMax p core err s
  | .vredMin p core err => Sys2Proof.Machine.execVredMin p core err s
  | .vredSumsq p core err => Sys2Proof.Machine.execVredSumsq p core err s
  | .vrnd p core err => Sys2Proof.Machine.execVrnd p core err s
  | .vsptr p core err => Sys2Proof.Machine.execVsptr p core err s
  | .seNop p core err => Sys2Proof.Machine.execSeNop p core err s
  | .scopy p core err => Sys2Proof.Machine.execScopy p core err s
  | .rbput p core err => Sys2Proof.Machine.execRbput p core err s
  | .rbget p core err => Sys2Proof.Machine.execRbget p core err s
  | .meshLanding p core bad => Sys2Proof.Machine.execMeshLanding p core bad s
  | .rget p core err => Sys2Proof.Machine.execRget p core err s
  | .rput p core err => Sys2Proof.Machine.execRput p core err s
  | .rgetBurstMove p core ring errs bad => Sys2Proof.Machine.execRgetBurstMove p core ring errs bad s
  | .rputBurstMove p core ring errs bad => Sys2Proof.Machine.execRputBurstMove p core ring errs bad s
  | .ringProdWrite r p core ring v => Sys2Proof.Machine.execRingProdWrite r p core ring v s
  | .ringConsWrite r p core ring v => Sys2Proof.Machine.execRingConsWrite r p core ring v s
  | .ringEod r p core ring => Sys2Proof.Machine.execRingEod r p core ring s
  | .ringReset r p core ring => Sys2Proof.Machine.execRingReset r p core ring s
  | .ringCfgWrite r p core ring which v => Sys2Proof.Machine.execRingCfgWrite r p core ring which v s
  | .scrubRead c b m row w finds => Sys2Proof.Machine.execScrubRead c b m row w finds s
  | .columnTest c b m col => Sys2Proof.Machine.execColumnTest c b m col s
  | .columnTestVerdict c b m col fails => Sys2Proof.Machine.execColumnTestVerdict c b m col fails s
  | .retirePendSet r c v => Sys2Proof.Machine.execRetirePendSet r c v s
  | .psplitWrite r p v => Sys2Proof.Machine.execPsplitWrite r p v s
  | .sectorVerify p a spec errs => Sys2Proof.Machine.execSectorVerify p a spec errs s
  | .tagGrant k pc wants load => Sys2Proof.Machine.execTagGrant k pc wants load s
  | .refresh k pc bank temp => Sys2Proof.Machine.execRefresh k pc bank temp s
  | .patrolRead k sec errs => Sys2Proof.Machine.execPatrolRead k sec errs s
  | .rowRepair k row => Sys2Proof.Machine.execRowRepair k row s
  | .nmeRecordStart x => Sys2Proof.Machine.execNmeRecordStart x s
  | .nmeNop k ifc => Sys2Proof.Machine.execNmeNop k ifc s
  | .gemv k errs ifc => Sys2Proof.Machine.execGemv k errs ifc s
  | .nmeCopy k errs ifc => Sys2Proof.Machine.execNmeCopy k errs ifc s
  | .fill k ifc => Sys2Proof.Machine.execFill k ifc s
  | .zero k ifc => Sys2Proof.Machine.execZero k ifc s
  | .wipe k ifc => Sys2Proof.Machine.execWipe k ifc s
  | .gather k errs ifc => Sys2Proof.Machine.execGather k errs ifc s
  | .scatterAdd k errs ifc => Sys2Proof.Machine.execScatterAdd k errs ifc s
  | .nmePartComplete k => Sys2Proof.Machine.execNmePartComplete k s
  | .updWindowWrite r p which v => Sys2Proof.Machine.execUpdWindowWrite r p which v s
  | .updConfigWrite r p off v => Sys2Proof.Machine.execUpdConfigWrite r p off v s
  | .updTensor p n errs bad => Sys2Proof.Machine.execUpdTensor p n errs bad s
  | .normOut p => Sys2Proof.Machine.execNormOut p s
  | .normIn p bad => Sys2Proof.Machine.execNormIn p bad s
  | .updStreamComplete p k => Sys2Proof.Machine.execUpdStreamComplete p k s
  | .commitDecision p => Sys2Proof.Machine.execCommitDecision p s
  | .announceSample => Sys2Proof.Machine.execAnnounceSample s
  | .announceLostRepeat p => Sys2Proof.Machine.execAnnounceLostRepeat p s
  | .announcementReceived => Sys2Proof.Machine.execAnnouncementReceived s
  | .peerHoldExpire p => Sys2Proof.Machine.execPeerHoldExpire p s
  | .linkFrameReceive n block fec => Sys2Proof.Machine.execLinkFrameReceive n block fec s
  | .schedFrame n => Sys2Proof.Machine.execSchedFrame n s
  | .ctlFrame n => Sys2Proof.Machine.execCtlFrame n s
  | .armFrame n => Sys2Proof.Machine.execArmFrame n s
  | .bulkFrame n => Sys2Proof.Machine.execBulkFrame n s
  | .spdmFrame x => Sys2Proof.Machine.execSpdmFrame x s
  | .abortFrame n => Sys2Proof.Machine.execAbortFrame n s
  | .idleBlock n block => Sys2Proof.Machine.execIdleBlock n block s
  | .nakReplay n => Sys2Proof.Machine.execNakReplay n s
  | .frameSend n e bad => Sys2Proof.Machine.execFrameSend n e bad s
  | .windowSendStart p port bad => Sys2Proof.Machine.execWindowSendStart p port bad s
  | .windowArmRelease p port => Sys2Proof.Machine.execWindowArmRelease p port s
  | .trainHold n => Sys2Proof.Machine.execTrainHold n s
  | .trainDetect n mask => Sys2Proof.Machine.execTrainDetect n mask s
  | .trainLanes n rx tx => Sys2Proof.Machine.execTrainLanes n rx tx s
  | .trainCaps n b => Sys2Proof.Machine.execTrainCaps n b s
  | .trainQual n ue corrected symbols => Sys2Proof.Machine.execTrainQual n ue corrected symbols s
  | .trainInit n ready => Sys2Proof.Machine.execTrainInit n ready s
  | .trainAuth n a => Sys2Proof.Machine.execTrainAuth n a s
  | .trainActive n => Sys2Proof.Machine.execTrainActive n s
  | .trainTimeout n => Sys2Proof.Machine.execTrainTimeout n s
  | .laneLockLoss n lane => Sys2Proof.Machine.execLaneLockLoss n lane s
  | .portEnable r n en => Sys2Proof.Machine.execPortEnable r n en s
  | .portRetrainCmd r n => Sys2Proof.Machine.execPortRetrainCmd r n s
  | .portRekeyCmd r n => Sys2Proof.Machine.execPortRekeyCmd r n s
  | .trainLock r n => Sys2Proof.Machine.execTrainLock r n s
  | .trainTableWrite r n which v => Sys2Proof.Machine.execTrainTableWrite r n which v s
  | .llSlotWrite r n w v => Sys2Proof.Machine.execLlSlotWrite r n w v s
  | .rekeyTimer n dir => Sys2Proof.Machine.execRekeyTimer n dir s
  | .rekey n key msg ok => Sys2Proof.Machine.execRekey n key msg ok s
  | .keyUpdateReceived n key msg ok => Sys2Proof.Machine.execKeyUpdateReceived n key msg ok s
  | .colConfigWrite r p off v => Sys2Proof.Machine.execColConfigWrite r p off v s
  | .ccBufferGrant p ch => Sys2Proof.Machine.execCcBufferGrant p ch s
  | .ccSumF32 p ch bad => Sys2Proof.Machine.execCcSumF32 p ch bad s
  | .ccMaxF32 p ch bad => Sys2Proof.Machine.execCcMaxF32 p ch bad s
  | .ccOrU32 p ch bad => Sys2Proof.Machine.execCcOrU32 p ch bad s
  | .ccNormrec p ch bad => Sys2Proof.Machine.execCcNormrec p ch bad s
  | .ccStage p ch => Sys2Proof.Machine.execCcStage p ch s
  | .ccComplete p ch => Sys2Proof.Machine.execCcComplete p ch s
  | .ccTimeout p ch => Sys2Proof.Machine.execCcTimeout p ch s
  | .snapshotTimer p => Sys2Proof.Machine.execSnapshotTimer p s
  | .snapshotComplete p errs => Sys2Proof.Machine.execSnapshotComplete p errs s
  | .drainSend p turn => Sys2Proof.Machine.execDrainSend p turn s
  | .drainDataReceive p => Sys2Proof.Machine.execDrainDataReceive p s
  | .drainEndReceive p => Sys2Proof.Machine.execDrainEndReceive p s
  | .readbackComplete p errs => Sys2Proof.Machine.execReadbackComplete p errs s
  | .drainResultReceive p => Sys2Proof.Machine.execDrainResultReceive p s
  | .drainPullReceive p => Sys2Proof.Machine.execDrainPullReceive p s
  | .drainAbandonReceive p => Sys2Proof.Machine.execDrainAbandonReceive p s
  | .drainCfgWrite r p v => Sys2Proof.Machine.execDrainCfgWrite r p v s
  | .ckpAbort r p v => Sys2Proof.Machine.execCkpAbort r p v s
  | .quiet p => Sys2Proof.Machine.execQuiet p s
  | .ckpRestore r p v errs => Sys2Proof.Machine.execCkpRestore r p v errs s
  | .restoreComplete p errs => Sys2Proof.Machine.execRestoreComplete p errs s
  | .ckpPull r p v => Sys2Proof.Machine.execCkpPull r p v s
  | .ckpHostack r p v => Sys2Proof.Machine.execCkpHostack r p v s
  | .ckpConfigWrite r p off v => Sys2Proof.Machine.execCkpConfigWrite r p off v s
  | .mailboxGo r b => Sys2Proof.Machine.execMailboxGo r b s
  | .getInfo => Sys2Proof.Machine.execGetInfo s
  | .slotStatus => Sys2Proof.Machine.execSlotStatus s
  | .sessionKek => Sys2Proof.Machine.execSessionKek s
  | .importKey => Sys2Proof.Machine.execImportKey s
  | .derive => Sys2Proof.Machine.execDerive s
  | .derivePair => Sys2Proof.Machine.execDerivePair s
  | .revoke => Sys2Proof.Machine.execRevoke s
  | .setLimit => Sys2Proof.Machine.execSetLimit s
  | .partRevoke => Sys2Proof.Machine.execPartRevoke s
  | .mordantShare => Sys2Proof.Machine.execMordantShare s
  | .mordantDerive => Sys2Proof.Machine.execMordantDerive s
  | .lakeBind => Sys2Proof.Machine.execLakeBind s
  | .lakeKey => Sys2Proof.Machine.execLakeKey s
  | .getIdentity => Sys2Proof.Machine.execGetIdentity s
  | .ifcRekey k => Sys2Proof.Machine.execIfcRekey k s
  | .drbgReseed => Sys2Proof.Machine.execDrbgReseed s
  | .entropyFail => Sys2Proof.Machine.execEntropyFail s
  | .regionEntryWrite r p n w v => Sys2Proof.Machine.execRegionEntryWrite r p n w v s
  | .bar2Access p trusted o len data errs => Sys2Proof.Machine.execBar2Access p trusted o len data errs s
  | .ideIntegrityFail k => Sys2Proof.Machine.execIdeIntegrityFail k s
  | .ideKm p id k sid go => Sys2Proof.Machine.execIdeKm p id k sid go s
  | .layoutWrite r v => Sys2Proof.Machine.execLayoutWrite r v s
  | .assign r p => Sys2Proof.Machine.execAssign r p s
  | .admissionComplete p => Sys2Proof.Machine.execAdmissionComplete p s
  | .lockInterfaceRequest p => Sys2Proof.Machine.execLockInterfaceRequest p s
  | .startInterfaceRequest p nonce => Sys2Proof.Machine.execStartInterfaceRequest p nonce s
  | .stopInterfaceRequest p => Sys2Proof.Machine.execStopInterfaceRequest p s
  | .getDeviceInterfaceReport p => Sys2Proof.Machine.execGetDeviceInterfaceReport p s
  | .getMeasurements fn idx sig tr => Sys2Proof.Machine.execGetMeasurements fn idx sig tr s
  | .getCertificate fn slot => Sys2Proof.Machine.execGetCertificate fn slot s
  | .keyExchange fn id pq secret cert => Sys2Proof.Machine.execKeyExchange fn id pq secret cert s
  | .mordantReport p id => Sys2Proof.Machine.execMordantReport p id s
  | .functionLevelReset fn => Sys2Proof.Machine.execFunctionLevelReset fn s
  | .vfEnableClear => Sys2Proof.Machine.execVfEnableClear s
  | .removalComplete p => Sys2Proof.Machine.execRemovalComplete p s
  | .partitionRemovedNotice n peer => Sys2Proof.Machine.execPartitionRemovedNotice n peer s
  | .queueDoorbell r p q v => Sys2Proof.Machine.execQueueDoorbell r p q v s
  | .queueEntryFetch p q entry cb => Sys2Proof.Machine.execQueueEntryFetch p q entry cb s
  | .cbGrant p => Sys2Proof.Machine.execCbGrant p s
  | .pktNop p q seq => Sys2Proof.Machine.execPktNop p q seq s
  | .pktWait p q seq => Sys2Proof.Machine.execPktWait p q seq s
  | .pktSignal p q seq => Sys2Proof.Machine.execPktSignal p q seq s
  | .pktReset p q seq => Sys2Proof.Machine.execPktReset p q seq s
  | .pktDma p q seq => Sys2Proof.Machine.execPktDma p q seq s
  | .pktSeqRun p q seq errs => Sys2Proof.Machine.execPktSeqRun p q seq errs s
  | .pktRegWrite p q seq => Sys2Proof.Machine.execPktRegWrite p q seq s
  | .pktCcLaunch p q seq => Sys2Proof.Machine.execPktCcLaunch p q seq s
  | .dmaCopyIn e host errs => Sys2Proof.Machine.execDmaCopyIn e host errs s
  | .dmaCopyOut e errs => Sys2Proof.Machine.execDmaCopyOut e errs s
  | .dmaGcmIn e host errs => Sys2Proof.Machine.execDmaGcmIn e host errs s
  | .dmaGcmOut e host errs => Sys2Proof.Machine.execDmaGcmOut e host errs s
  | .dmaXtsIn e host errs => Sys2Proof.Machine.execDmaXtsIn e host errs s
  | .dmaXtsOut e errs => Sys2Proof.Machine.execDmaXtsOut e errs s
  | .dmaLakeExport x => Sys2Proof.Machine.execDmaLakeExport x s
  | .dmaLakeImport e host => Sys2Proof.Machine.execDmaLakeImport e host s
  | .dmaDescComplete e => Sys2Proof.Machine.execDmaDescComplete e s
  | .queueCancel r p q => Sys2Proof.Machine.execQueueCancel r p q s
  | .contextKill r p n => Sys2Proof.Machine.execContextKill r p n s
  | .queueEnable r p q v => Sys2Proof.Machine.execQueueEnable r p q v s
  | .fenceWrite r p n v => Sys2Proof.Machine.execFenceWrite r p n v s
  | .feedLoss f => Sys2Proof.Machine.execFeedLoss f s
  | .feedOvervoltage f => Sys2Proof.Machine.execFeedOvervoltage f s
  | .feedReconnect f => Sys2Proof.Machine.execFeedReconnect f s
  | .sagWarn => Sys2Proof.Machine.execSagWarn s
  | .sagEnd => Sys2Proof.Machine.execSagEnd s
  | .brownout => Sys2Proof.Machine.execBrownout s
  | .vbatCheck mv => Sys2Proof.Machine.execVbatCheck mv s
  | .powerReport => Sys2Proof.Machine.execPowerReport s
  | .limModeWrite r v => Sys2Proof.Machine.execLimModeWrite r v s
  | .limModeLock r v => Sys2Proof.Machine.execLimModeLock r v s
  | .fixedFreqWrite r v => Sys2Proof.Machine.execFixedFreqWrite r v s
  | .pwrCapWrite r v => Sys2Proof.Machine.execPwrCapWrite r v s
  | .powerOn ms => Sys2Proof.Machine.execPowerOn ms s
  | .perstAssert => Sys2Proof.Machine.execPerstAssert s
  | .hotReset => Sys2Proof.Machine.execHotReset s
  | .warmResetCmd r v => Sys2Proof.Machine.execWarmResetCmd r v s
  | .maintResetCmd r v => Sys2Proof.Machine.execMaintResetCmd r v s
  | .keeperWatchdog => Sys2Proof.Machine.execKeeperWatchdog s
  | .wipeDone failed auth => Sys2Proof.Machine.execWipeDone failed auth s
  | .bootReady => Sys2Proof.Machine.execBootReady s
  | .pcieConfigRequest fn kind v => Sys2Proof.Machine.execPcieConfigRequest fn kind v s
  | .pldmFwUpdate a t file => Sys2Proof.Machine.execPldmFwUpdate a t file s
  | .activateFirmware a => Sys2Proof.Machine.execActivateFirmware a s
  | .lifecycleTransition r v => Sys2Proof.Machine.execLifecycleTransition r v s
  | .fuseProgramComplete => Sys2Proof.Machine.execFuseProgramComplete s
  | .debugLevelWrite r v => Sys2Proof.Machine.execDebugLevelWrite r v s
  | .challengeGen r v => Sys2Proof.Machine.execChallengeGen r v s
  | .responseSubmit r v => Sys2Proof.Machine.execResponseSubmit r v s
  | .challengeExpire => Sys2Proof.Machine.execChallengeExpire s
  | .genLockoutEnd => Sys2Proof.Machine.execGenLockoutEnd s
  | .syncFrame b => Sys2Proof.Machine.execSyncFrame b s
  | .moduleFrame k b d => Sys2Proof.Machine.execModuleFrame k b d s
  | .moduleFrameTransmit echo alien => Sys2Proof.Machine.execModuleFrameTransmit echo alien s
  | .syncLoss => Sys2Proof.Machine.execSyncLoss s
  | .resyncAligned => Sys2Proof.Machine.execResyncAligned s
  | .tbResyncCmd r v => Sys2Proof.Machine.execTbResyncCmd r v s
  | .hbKick r => Sys2Proof.Machine.execHbKick r s
  | .hbKickTimeout => Sys2Proof.Machine.execHbKickTimeout s
  | .timeOffsetWrite r v => Sys2Proof.Machine.execTimeOffsetWrite r v s
  | .timeProbe r v => Sys2Proof.Machine.execTimeProbe r v s
  | .timeProbeReceived n => Sys2Proof.Machine.execTimeProbeReceived n s
  | .timeReply n t2 t3 replayed => Sys2Proof.Machine.execTimeReply n t2 t3 replayed s
  | .timeProbeTimeout => Sys2Proof.Machine.execTimeProbeTimeout s
  | .entdaa a => Sys2Proof.Machine.execEntdaa a s
  | .setdasa st a => Sys2Proof.Machine.execSetdasa st a s
  | .getSensorReading a id => Sys2Proof.Machine.execGetSensorReading a id s
  | .setEventReceiver a rcv => Sys2Proof.Machine.execSetEventReceiver a rcv s
  | .pollForPlatformEvent a => Sys2Proof.Machine.execPollForPlatformEvent a s
  | .meterCloseSchedule => Sys2Proof.Machine.execMeterCloseSchedule s
  | .meterCloseOperator r v => Sys2Proof.Machine.execMeterCloseOperator r v s
  | .recordSeal => Sys2Proof.Machine.execRecordSeal s
  | .rtcSet r v => Sys2Proof.Machine.execRtcSet r v s
  | .counterConfigWrite r p k v => Sys2Proof.Machine.execCounterConfigWrite r p k v s
  | .counterClear r p v => Sys2Proof.Machine.execCounterClear r p v s
  | .deviceFreeze r v => Sys2Proof.Machine.execDeviceFreeze r v s
  | .deviceThaw r v => Sys2Proof.Machine.execDeviceThaw r v s
  | .partitionFreeze r p v => Sys2Proof.Machine.execPartitionFreeze r p v s
  | .partitionThaw r p v => Sys2Proof.Machine.execPartitionThaw r p v s
  | .operatorDump r v => Sys2Proof.Machine.execOperatorDump r v s
  | .tenantDumps r v => Sys2Proof.Machine.execTenantDumps r v s
  | .tenantDump r p v => Sys2Proof.Machine.execTenantDump r p v s
  | .dumpComplete n ok => Sys2Proof.Machine.execDumpComplete n ok s
  | .debugWindowAccess r k write v errs => Sys2Proof.Machine.execDebugWindowAccess r k write v errs s
  | .hotInsert => Sys2Proof.Machine.execHotInsert s
  | .perstRelease => Sys2Proof.Machine.execPerstRelease s
  | .inputSample mw va vb => Sys2Proof.Machine.execInputSample mw va vb s
  | .meterMemTick => Sys2Proof.Machine.execMeterMemTick s
  | .rowRepairComplete k row => Sys2Proof.Machine.execRowRepairComplete k row s
  | .platformEventAck id => Sys2Proof.Machine.execPlatformEventAck id s

end Sys2Proof.Machine
end

