-- ==== Sys2Proof/Safety.lean ====
section
/-! DEFINITION. The terms in which claims are stated: a command that runs, an access that is admitted, memory in its canonical form. -/

namespace Sys2Proof.Machine

/-- The command answers a next state that has a property. -/
def Gives (c : Instr) (s : State) (P : State → Prop) : Prop := ∃ t, exec c s = .next t ∧ P t

/-- A register access that reaches the register at `a` (R26, R27, R562, R692); and one whose home domain answers (R19). -/
def State.getsTo (s : State) (r : RegReq) (a : Nat) : Bool :=
  s.power.relAt.isSome && (r.who != 1 || s.mgmtUp) && s.reaches r a
def State.answers (s : State) (r : RegReq) (a : Nat) : Bool := s.getsTo r a && s.domainUp a

/-- The same with every byte enable of the dword (R17). -/
def State.grants (s : State) (r : RegReq) (a : Nat) : Bool := s.answers r a && r.be % 16 == 15

/-- Device memory is in its canonical form. -/
def State.memWf (s : State) : Bool := Memory.wf s.dram

/-! ## Commands that meet their event -/

/-- A port whose training table has action `a` in force, with `EN` set (R365). -/
def State.training (s : State) (n a : Nat) : Bool :=
  decide (n < 16) && s.flag (Reg.LL_PORT_CTRL n) Fld.LL_PORT_CTRL_EN && (s.port n).action == a

/-- The issued EXEC bundle's CTL operation is `cop`, and it is due (R118, R120). -/
def State.ctlReady (s : State) (p cop : Nat) : Bool :=
  allParts.contains p && !s.stopped p && !s.halted && (s.sq p).ctlDue && bCop (s.sq p).bundle == cop

/-- The issued EXEC bundle's XFER operation is `xop`, and it is due (R118, R150). -/
def State.xferReady (s : State) (p xop : Nat) : Bool :=
  allParts.contains p && !s.stopped p && !s.halted && (s.sq p).xferDue && bXop (s.sq p).bundle == xop

/-- A bundle `b` of type `t` and of a good form issues now (R114 to R119). -/
def State.issues (s : State) (p t : Nat) (b : Bundle) : Bool :=
  allParts.contains p && s.nextBundle p == some b && s.canRun p (s.sq p).issue && bundleForm b == 0 && bType b == t

/-- The waiting gate of a partition is evaluated now, and the period behind it is in order (R110, R117, R179). -/
def State.atBoundary (s : State) (p : Nat) : Bool :=
  allParts.contains p && s.gating p && s.canRun p (s.sq p).issue && s.gateFault p == 0

/-! ## A beat of a unit (R131, R139) -/

/-- No injected error. -/
def noErr : UnitErr := ⟨{}, [], [], false, 0⟩

/-- The beat of the body `r` that unit `u` of partition core `core` runs. -/
def State.beatOf (s : State) (p core u : Nat) (r : Run) : Beat :=
  let phys := s.pcore p core
  let m := s.replayAt phys u (r.addr + r.upos)
  ⟨p, core, phys, u, r, m, r.mb, mopBeats m, noErr⟩

/-- The body `r` of the unit runs its next beat now, within the beats that R134 leaves it, on a micro-op of a defined form. -/
def State.unitDue (s : State) (p core u : Nat) (r : Run) : Bool :=
  allParts.contains p && s.runOf (s.pcore p core) u == some r && r.part == p && r.core == core && !r.done && !s.stopped p &&
    s.canRun p r.beat && decide (r.beat < (s.sq p).bodyLimit) && !s.badOp p u (s.beatOf p core u r).m

/-- No unit has used a compute port in the beat (R210). -/
def State.portsFree (s : State) (p b : Nat) : Bool := ((s.advance p b).sq p).ports.isEmpty

/-- What a port of a core's SRAM (0 compute, 1 transfer) reads in the beat where no new error is met (R158, R237). -/
def State.reads (s : State) (p phys port : Nat) (f : Nat → Nat) (len : Nat) : List Byte := (s.sramGet p phys 9 port {} f len).2

/-- Lane `l` of a vector register. -/
def State.lane (s : State) (phys r l : Nat) : Nat := (SMap.get (fun _ => 0#32) s.cores.vreg (vregKey phys r + l)).toNat

/-- Element `o` of an accumulator row. -/
def State.accElt (s : State) (phys e row o : Nat) : Nat := (SMap.get (fun _ => 0#32) s.cores.acc (accKey phys e row + o)).toNat

/-- The body has moved one beat on, and these results are on their way. -/
def State.beatDone (s t : State) (p core u : Nat) (r : Run) (buf : List Byte) (l : List Land) : Prop :=
  t.runOf (s.pcore p core) u = some (r.next (s.beatOf p core u r).n buf) ∧
    (t.sq p).lands = ((s.advance p r.beat).sq p).lands ++ l

/-- A lane-by-lane command of the vector engine (R144, R220, R223): `rate` registers a beat, landing `late` beats after the
micro-op's last one, each lane `f` of the lanes of `VA`, `VB` and `VC`. -/
def LaneRow (c : Instr) (s : State) (p core : Nat) (r : Run) (rate late : Nat) (f : Nat → Nat → Nat → Nat) : Prop :=
  Gives c s fun t =>
    let x := s.beatOf p core 8 r
    let s1 := s.advance p r.beat
    s.beatDone t p core 8 r r.buf ((List.range rate).map fun j =>
      let n := rate * r.mb + j
      let v (lo : Nat) : Nat → Nat := s1.lane x.phys (mop x.m lo 6 + n)
      (⟨x.endBeat - 1 + late, .vreg (vregKey x.phys (mop x.m 12 6 + n))
        (toWords ((List.range 512).map fun l => f (v 18 l) (v 24 l) (v 30 l)))⟩ : Land))

/-- A reduction of the vector engine (R144, R220, R221): lane by lane into `VD`, or one lane into the tree's result. -/
def ReduceRow (c : Instr) (s : State) (p core : Nat) (r : Run) (op : Nat → Nat → Nat) (pre : Nat → Nat) : Prop :=
  Gives c s fun t =>
    let x := s.beatOf p core 8 r
    let s1 := s.advance p r.beat
    s.beatDone t p core 8 r r.buf (
      if mop x.m 26 1 = 1 then (List.range 4).map fun j =>
        let n := 4 * r.mb + j
        (⟨x.endBeat - 1 + 1, .vreg (vregKey x.phys (mop x.m 12 6 + n)) (toWords ((List.range 512).map fun l =>
          op (s1.lane x.phys (mop x.m 12 6 + n) l) (pre (s1.lane x.phys (mop x.m 18 6 + n) l))))⟩ : Land)
      else if r.mb = 0 then
        [⟨x.endBeat - 1 + 4, .vreg (vregKey x.phys (mop x.m 12 6)) (toWords ((treeFold op 9 ((List.range 512).map fun l =>
          pre (s1.lane x.phys (mop x.m 18 6) l))).headD 0 :: List.replicate 511 0))⟩]
      else [])

/-- Vector `v` of an MMA's activations (R142): its codes and scales from core SRAM. -/
def State.actVec (s : State) (x : Beat) (f : Fmt) (c v : Nat) : ActVec :=
  let bank := 2 * x.u + mop x.m 12 1
  let bs16 := mop x.m 35 1 == 1
  let at_ (lo sel : Nat) : Nat := s.effAddr x.phys x.u x.run.trip (mop x.m lo 14) (mop x.m sel 3) 16384
  let get (u k n : Nat) : List Byte := s.reads x.p x.phys 0 (fun i => bankByte bank u (k * n + i)) n
  ⟨f, bs16, unpackCodes f.bits c (get (at_ 13 27) v (c * f.bits / 8)),
    if f.scaled then (get (at_ 36 50) v (c / blockOf bs16)).map BitVec.toNat else []⟩

/-! ## Queues, descriptors and collectives -/

/-- The next packet of the granted command buffer `b`, of opcode `opc`, begins now (R604, R605). -/
def State.packetDue (s : State) (p q seq opc : Nat) (b : CmdBuf) : Bool :=
  ((s.queue p q).bufs.find? fun c => c.seq == seq) == some b && !s.halted && b.granted && b.err == 0 &&
    decide (b.pos < b.bytes.length) && s.pktOk p b && leAt (b.bytes.drop b.pos) 0 1 == opc && b.waitOn.isNone &&
    b.dmaOpen == 0 && !b.seqOpen && !b.ccOpen

/-- The command buffer's packet has begun. -/
def State.begun (s : State) (p q seq n : Nat) : State := s.updBuf p q seq fun c => { c with pos := c.pos + 16 * n }

/-- Engine `e` moves a descriptor of a partition, of a form and of limits that R608 to R610 accept, and waits for no tag (R276). -/
def State.descDue (s : State) (e form : Nat) (x : Desc) : Bool :=
  s.nextDesc e == some x && !s.halted && xForm x.bytes == form && decide (form < 8) && descForm x.bytes == 0 && x.owner != 0 &&
    (!xPlain x.bytes || xT x.bytes) && descLimits x.bytes == 0 && !s.tagWait x.owner 4 (some e)

/-- The last thing the block sent is these bytes, written to host memory for a function, under its IDE stream where R542 asks for it. -/
def State.hostGets (t s : State) (fn addr : Nat) (tee : Bool) (v : List Byte) : Prop :=
  ∃ n, t.out.head? = some (.hostWrite fn addr tee (if tee && fn != 0 then Config.ideSealed (s.ideStream fn) n v else v))

/-- A launch that reads its source now (R425). -/
def State.launchDue (s : State) (p ch op : Nat) (l : Launch) : Bool :=
  let n := leAt l.desc 24 2
  s.cc p ch == some l && !s.halted && l.step == 1 && ccOp l.desc == op &&
    (!bitOf (leAt l.desc 28 1) 0 || (s.hasFence p n && s.flag (Reg.FEN_F p n) Fld.FEN_F_SIG && s.fget (Reg.FEN_F p n) Fld.FEN_F_ERR == 0))

/-- A collective of the control class begins (R424, R425): its source is read, and its first stage, if it has one, is entered. -/
def LaunchRow (c : Instr) (s : State) (p ch op : Nat) : Prop :=
  ∀ (l : Launch) (core a : Nat), s.launchDue p ch op l = true → s.sramPlace p (leAt l.desc 8 8) (ccLen l.desc) = some (core, a) →
    let st := s.nextStage p 0
    let g := s.stage p st
    (st ≠ 3 → ∀ k ∈ stagePorts g.1 g.2.1 g.2.2.1 g.2.2.2, s.ccPortBad p k = false) → Gives c s fun t =>
      ∃ l', t.cc p ch = some l' ∧ l'.data = (s.sramX p {} (s.pcore p core) a (ccLen l.desc)).2 ∧
        l'.step = if st = 3 then 3 else 2

/-! ## The keeper's commands (R517, R518, R824) -/

/-- The mailbox command `c` has been taken from its mailbox. -/
def State.taken (s : State) (c : MailCmd) : State :=
  { s with keeper := { s.keeper with waiting := s.keeper.waiting.filter (fun (d : MailCmd) => d.box != c.box), last := c.box } }

/-- The keeper serves the command `c`, of this code, next, and no rule for every command refuses it. -/
def State.mailDue (s : State) (code : Nat) (c : MailCmd) : Bool :=
  s.nextMail == some c && c.code == code && (s.bootStage == 3 || s.bootStage == 4) && s.mailCheck c == 0

/-- What `x_STATUS` and `x_RES_0` show of a command that has ended with a status. -/
def State.mailShows (t : State) (c : MailCmd) (status : Nat) : Prop :=
  t.fget (boxStatus c.box) Fld.KEY_STATUS_CODE = status ∧ t.flag (boxStatus c.box) Fld.KEY_STATUS_BUSY = false ∧
    t.flag (boxStatus c.box) Fld.KEY_STATUS_DONE = true ∧ t.fget (boxStatus c.box) Fld.KEY_STATUS_TAG = c.tag % 256

/-- The keeper's command `i` of code `code` ends with status 0 and has an effect. -/
def Serves (i : Instr) (s : State) (code : Nat) (c : MailCmd) (P : State → Prop) : Prop :=
  s.mailDue code c = true → Gives i s fun t => t.mailShows c 0 ∧ P t

/-! ## Messages, near-memory records and tests -/

/-- The keeper answers SPDM and TDISP messages on the function's DOE mailbox (R563, R692). -/
def State.answersDoe (s : State) (fn : Nat) : Bool :=
  (s.bootStage == 3 || s.bootStage == 4) && (fn == 0 || s.partState fn == 2 || s.partState fn == 3 || s.partState fn == 4)

/-- Partition `p` is admitted or running, so that it can be removed (R570). -/
def State.inUse (s : State) (p : Nat) : Bool := allParts.contains p && s.partState p != 0 && s.partState p != 5

/-- Stack `k` runs the record `r` of operation `op`, of a good form, now, under a current link key (R39, R285, R288). -/
def State.recordDue (s : State) (k op : Nat) (r : NmeRec) : Bool :=
  allParts.contains r.part && (s.stacksOf r.part).contains k && decide (s.stack0 r.part + s.nstacks r.part ≤ 8) &&
    s.nmeHead k == some r && r.started && !s.halted && s.ifcLoaded k && recN r.bytes 0 1 == op && recForm r.bytes &&
    (!recDsram r.bytes || op == 1 || op == 6)

/-- The record as its operation sees it. -/
def State.nmeCtx (s : State) (k : Nat) (r : NmeRec) (errs : List ReadErr) : NmeCtx := ⟨r.part, k, k - s.stack0 r.part, r.bytes, errs⟩

/-- A near-memory operation performs its work on memory, writes its status record where it is asked for, and leaves the queue, which takes
in one that waits (R285, R287, R295). -/
def RecordRow (c : Instr) (s : State) (k op : Nat) (errs : List ReadErr) (work : State → NmeCtx → State × NmeEnd) : Prop :=
  ∀ r : NmeRec, s.recordDue k op r = true → Gives c s fun t =>
    let x := s.nmeCtx k r errs
    let y := work (s.issueView r.part r.xfer) x
    let core := recN r.bytes 8 1 % 128
    t.dram = y.1.dram ∧ (t.stk k).queue ++ (t.stk k).backlog = ((s.stk k).queue ++ (s.stk k).backlog).drop 1 ∧
      t.cores.sram = if recSt r.bytes ∧ core < s.ncores r.part then
        (y.1.sramWr (s.pcore r.part core) (32 * (recN r.bytes 12 4 % 262144 + x.j)) (leBytes 2 (y.2.status + 256 * op) ++ leBytes 2 0 ++
          leBytes 4 y.2.count ++ leBytes 8 y.2.sectors ++ leBytes 16 0)).cores.sram
      else y.1.cores.sram

/-! ## Frames -/

/-- The parts of the block. Together with the queue, and with the serial number that only the model has, they are all of `State`. -/
inductive Part where
  /-- Device memory. -/
  | mem
  /-- Key slots. -/
  | keys
  /-- Core SRAM, vector registers, accumulators, planes and micro-op stores. -/
  | cores
  /-- The map of logical cores. -/
  | coreMap
  /-- Fuses and the life cycle. -/
  | fuses
  /-- Flash. -/
  | flash
  /-- Rails, clocks and sensors. -/
  | power
  /-- The tray links. -/
  | tray
  /-- DMA descriptors. -/
  | dmas
  /-- The registers of R26 and R27. -/
  | regs
  /-- The Leold ports. -/
  | ports
  /-- Checkpoint units. -/
  | lakes
  /-- The meter. -/
  | mtr
  /-- Shadows of `_LO` registers (R21). -/
  | shadows
  /-- What the block has sent and answered. -/
  | out
  /-- Sequencers. -/
  | seqs
  /-- The poison list (R273). -/
  | poison
  /-- Memory stacks and near-memory queues. -/
  | channels
  /-- The keeper. -/
  | keeper
  /-- Counters of use. -/
  | usage
  /-- Tenancies. -/
  | tenancies
  /-- Update engines. -/
  | upds
  /-- Held ring indices (R338). -/
  | ringAdv
  /-- Windows. -/
  | wins
  /-- Collectives. -/
  | ccs
  /-- Host queues. -/
  | queues
  /-- Platform events. -/
  | events
  /-- The I3C bus. -/
  | bus
  /-- Time. -/
  | time
  /-- Sources of a halt. -/
  | haltReq
  /-- The halt. -/
  | halt
  /-- Times of freezes. -/
  | frozen
  /-- Dumps in progress. -/
  | dumps
  /-- PCIe function state. -/
  | pcie
deriving DecidableEq, Repr

/-- A part is the same in two states. -/
def Part.same (x : Part) (s t : State) : Prop :=
  match x with
  | .mem => t.dram = s.dram
  | .keys => t.keys = s.keys
  | .cores => t.cores = s.cores
  | .coreMap => t.coreMap = s.coreMap
  | .fuses => t.fuses = s.fuses
  | .flash => t.flash = s.flash ∧ t.flashActive = s.flashActive ∧ t.flashPending = s.flashPending
  | .power => t.power = s.power
  | .tray => t.tray = s.tray
  | .dmas => t.dmas = s.dmas
  | .regs => t.regs = s.regs
  | .ports => t.ports = s.ports
  | .lakes => t.lakes = s.lakes
  | .mtr => t.mtr = s.mtr
  | .shadows => t.shadows = s.shadows
  | .out => t.out = s.out
  | .seqs => t.seqs = s.seqs
  | .poison => t.poison = s.poison
  | .channels => t.stks = s.stks ∧ t.nmeXfers = s.nmeXfers
  | .keeper => t.keeper = s.keeper
  | .usage => t.sepia = s.sepia ∧ t.counts = s.counts ∧ t.meters = s.meters ∧ t.meterHold = s.meterHold
  | .tenancies => t.tenancies = s.tenancies
  | .upds => t.upds = s.upds
  | .ringAdv => t.ringAdv = s.ringAdv
  | .wins => t.wins = s.wins
  | .ccs => t.ccs = s.ccs ∧ t.launches = s.launches
  | .queues => t.queues = s.queues ∧ t.arbs = s.arbs
  | .events => t.events = s.events
  | .bus => t.eventRcv = s.eventRcv ∧ t.thermAlert = s.thermAlert ∧ t.dynAddr = s.dynAddr
  | .time => t.now = s.now ∧ t.trayOfs = s.trayOfs ∧ t.trayRef = s.trayRef ∧ t.trayAt = s.trayAt ∧ t.timeOfs = s.timeOfs ∧ t.ofsSet = s.ofsSet
  | .haltReq => t.haltReq = s.haltReq
  | .halt => t.halted = s.halted ∧ t.haltDone = s.haltDone
  | .frozen => t.freezeAt = s.freezeAt
  | .dumps => t.dumps = s.dumps
  | .pcie => t.mse = s.mse ∧ t.vfs = s.vfs ∧ t.crs = s.crs

/-- The parts that a command may change: what it names, and what its effect reaches by the rules (an interrupt, a counter, an error
record). Every other part stays. -/
def touched (c : Instr) : List Part :=
  match c with
  | .registerWrite .. | .pairWrite8byte .. =>
    [.mem, .keys, .cores, .fuses, .power, .tray, .dmas, .regs, .ports, .lakes, .mtr, .shadows, .out, .seqs, .poison,
     .channels, .keeper, .usage, .tenancies, .upds, .ringAdv, .wins, .ccs, .queues, .events, .bus, .time, .haltReq,
     .halt, .frozen, .dumps, .pcie]
  | .rcRead .. | .loReadLatch .. | .hiReadShadow .. | .pairRead8byte .. =>
    [.keys, .regs, .shadows, .out, .poison, .channels, .upds, .haltReq]
  | .accessTimeout .. | .getDeviceInterfaceReport .. | .getMeasurements .. | .getCertificate .. | .mordantReport .. |
    .activateFirmware .. | .getSensorReading .. | .pollForPlatformEvent .. =>
    [.out]
  | .tamperEvent .. =>
    [.keys, .fuses, .regs, .haltReq]
  | .halt .. =>
    [.cores, .fuses, .dmas, .regs, .out, .seqs, .usage, .queues, .events, .haltReq, .halt, .frozen]
  | .haltStopComplete .. =>
    [.halt]
  | .haltCmd .. =>
    [.out, .haltReq]
  | .limiterEstimate .. | .perstRelease .. | .inputSample .. =>
    [.power, .regs]
  | .limiterCalibration .. | .thermalEstimate .. | .feedLoss .. | .feedOvervoltage .. =>
    [.power, .regs, .out]
  | .thermtrip .. =>
    [.power, .regs, .out, .events, .bus, .haltReq]
  | .singleStep .. | .stepHoldWrite .. | .seqResume .. =>
    [.regs, .out, .seqs]
  | .fmtTableWrite .. | .ringProdWrite .. | .ringConsWrite .. | .ringEod .. | .ringCfgWrite .. | .retirePendSet .. |
    .psplitWrite .. | .updWindowWrite .. | .trainLock .. | .trainTableWrite .. | .colConfigWrite .. | .ckpHostack .. |
    .regionEntryWrite .. | .ideKm .. | .partitionRemovedNotice .. | .queueDoorbell .. | .vbatCheck .. | .pwrCapWrite
    .. | .syncLoss .. | .counterConfigWrite .. =>
    [.regs, .out]
  | .seqRun .. | .pktSeqRun .. =>
    [.mem, .keys, .cores, .regs, .lakes, .out, .seqs, .poison, .channels, .usage, .upds, .ringAdv, .ccs, .queues,
     .haltReq, .frozen]
  | .seqCont .. =>
    [.cores, .regs, .out, .seqs]
  | .seqStop .. =>
    [.regs, .out, .seqs, .usage, .queues]
  | .periodFillComplete .. | .loopOp .. | .xferNme .. | .rloadComplete .. | .xferUpd .. =>
    [.keys, .cores, .regs, .out, .seqs, .poison, .channels, .usage, .upds, .queues, .haltReq, .frozen]
  | .gateWaitBeat .. | .bundleExec .. | .slack .. | .endOp .. | .endComplete .. | .periodEnd .. | .grpStart .. |
    .bodyStart .. | .bodyEnd .. | .meNop .. | .veNop .. | .vrnd .. | .vsptr .. | .seNop .. | .rget .. | .rput .. =>
    [.cores, .regs, .out, .seqs, .usage, .queues, .frozen]
  | .gateOpen .. | .commit .. | .xferMemrd .. | .xferMemwr .. | .rload .. | .wload .. | .mma .. | .mout .. | .vld .. |
    .vst .. | .valuAdd .. | .valuSub .. | .valuMul .. | .valuFma .. | .valuMax .. | .valuMin .. | .valuDiv .. |
    .valuSqrt .. | .valuAbs .. | .valuNeg .. | .valuSel .. | .valuCmpgt .. | .valuMov .. | .vtrExp .. | .vtrExp2 .. |
    .vtrLog .. | .vtrRecip .. | .vtrRsqrt .. | .vtrTanh .. | .vtrSigmoid .. | .vtrGelu .. | .vtrSin .. | .vtrCos .. |
    .vredSum .. | .vredMax .. | .vredMin .. | .vredSumsq .. | .scopy .. | .rbput .. | .rbget .. =>
    [.cores, .regs, .out, .seqs, .usage, .upds, .queues, .frozen]
  | .schedLost .. | .catchupLimitWrite .. =>
    [.regs, .out, .seqs, .usage]
  | .ctlNop .. | .idle .. =>
    [.seqs]
  | .fsig .. =>
    [.regs, .out, .seqs, .queues]
  | .memTransferComplete .. =>
    [.mem, .keys, .cores, .regs, .out, .seqs, .poison, .channels, .usage, .upds, .queues, .haltReq, .frozen]
  | .lltx .. =>
    [.cores, .regs, .out, .seqs, .usage, .wins, .queues, .frozen]
  | .llrx .. =>
    [.cores, .regs, .ports, .out, .seqs, .usage, .wins, .queues, .frozen]
  | .meshLanding .. =>
    [.cores, .regs, .out, .seqs, .usage, .upds, .wins, .queues, .frozen]
  | .rgetBurstMove .. =>
    [.keys, .cores, .regs, .out, .seqs, .poison, .channels, .usage, .upds, .ringAdv, .queues, .haltReq, .frozen]
  | .rputBurstMove .. =>
    [.mem, .keys, .cores, .regs, .out, .seqs, .poison, .channels, .usage, .upds, .ringAdv, .queues, .haltReq, .frozen]
  | .ringReset .. | .updConfigWrite .. =>
    [.regs, .out, .ringAdv]
  | .scrubRead .. | .columnTestVerdict .. =>
    [.cores, .regs, .out, .usage]
  | .columnTest .. =>
    [.cores, .regs, .out]
  | .sectorVerify .. =>
    [.keys, .regs, .out, .poison, .channels, .upds, .haltReq]
  | .tagGrant .. | .nmePartComplete .. | .rowRepairComplete .. =>
    [.regs, .channels]
  | .refresh .. | .entropyFail .. | .feedReconnect .. | .powerReport .. =>
    [.regs]
  | .patrolRead .. =>
    [.regs, .out, .channels]
  | .rowRepair .. =>
    [.channels]
  | .nmeRecordStart .. =>
    [.regs, .channels, .usage]
  | .nmeNop .. =>
    [.keys, .cores, .regs, .out, .seqs, .channels, .usage, .upds]
  | .gemv .. | .nmeCopy .. | .fill .. | .zero .. | .gather .. | .scatterAdd .. | .updTensor .. =>
    [.mem, .keys, .cores, .regs, .out, .seqs, .poison, .channels, .usage, .upds, .haltReq]
  | .wipe .. =>
    [.mem, .keys, .cores, .regs, .out, .seqs, .poison, .channels, .usage, .upds]
  | .normOut .. =>
    [.cores, .regs, .seqs, .upds]
  | .normIn .. =>
    [.cores, .regs, .out, .usage, .upds]
  | .updStreamComplete .. =>
    [.cores, .regs, .seqs, .usage, .upds]
  | .commitDecision .. =>
    [.mem, .keys, .regs, .lakes, .out, .seqs, .poison, .channels, .usage, .upds, .ringAdv, .queues, .haltReq]
  | .announceSample .. | .announcementReceived .. =>
    [.tray, .regs, .seqs]
  | .announceLostRepeat .. =>
    [.tray, .seqs]
  | .peerHoldExpire .. =>
    [.regs, .seqs]
  | .linkFrameReceive .. | .nakReplay .. | .trainHold .. | .trainDetect .. | .trainLanes .. | .trainCaps .. |
    .trainQual .. | .trainInit .. | .trainAuth .. | .trainTimeout .. | .laneLockLoss .. | .portEnable .. |
    .portRetrainCmd .. =>
    [.keys, .regs, .ports, .lakes, .out, .usage, .wins, .events]
  | .schedFrame .. | .abortFrame .. | .windowSendStart .. =>
    [.cores, .regs, .ports, .out, .seqs, .usage, .upds, .wins, .events]
  | .ctlFrame .. | .spdmFrame .. =>
    [.regs, .ports]
  | .armFrame .. =>
    [.regs, .ports, .wins]
  | .bulkFrame .. =>
    [.ports, .lakes]
  | .idleBlock .. =>
    [.regs, .ports, .usage, .wins]
  | .frameSend .. | .rekey .. =>
    [.keys, .cores, .regs, .ports, .out, .usage, .upds, .wins, .events]
  | .windowArmRelease .. =>
    [.ports, .usage, .wins]
  | .trainActive .. =>
    [.regs, .ports, .out, .usage, .events]
  | .portRekeyCmd .. =>
    [.ports, .out]
  | .llSlotWrite .. =>
    [.regs, .out, .events]
  | .rekeyTimer .. =>
    [.regs, .ports, .out, .events]
  | .keyUpdateReceived .. =>
    [.keys, .regs, .ports, .usage]
  | .ccBufferGrant .. =>
    [.regs, .ccs]
  | .ccSumF32 .. | .ccMaxF32 .. | .ccOrU32 .. | .ccNormrec .. =>
    [.cores, .regs, .ports, .out, .usage, .upds, .ccs, .queues]
  | .ccStage .. =>
    [.regs, .ports, .out, .ccs, .queues]
  | .ccComplete .. =>
    [.cores, .regs, .out, .seqs, .ccs, .queues]
  | .ccTimeout .. | .pktCcLaunch .. =>
    [.regs, .out, .ccs, .queues]
  | .snapshotTimer .. =>
    [.lakes]
  | .snapshotComplete .. =>
    [.mem, .keys, .regs, .ports, .lakes, .out, .poison, .channels, .upds, .haltReq]
  | .drainSend .. =>
    [.regs, .ports, .lakes, .out, .channels]
  | .drainDataReceive .. =>
    [.mem, .regs, .ports, .lakes, .poison]
  | .drainEndReceive .. =>
    [.mem, .regs, .ports, .lakes, .out, .poison]
  | .readbackComplete .. =>
    [.regs, .ports, .out, .channels]
  | .drainResultReceive .. | .quiet .. =>
    [.regs, .lakes, .out]
  | .drainPullReceive .. =>
    [.regs, .ports, .lakes]
  | .drainAbandonReceive .. =>
    [.regs, .lakes]
  | .drainCfgWrite .. =>
    [.regs, .ports, .lakes, .out]
  | .ckpAbort .. | .ckpRestore .. | .ckpPull .. | .ckpConfigWrite .. =>
    [.keys, .cores, .regs, .ports, .lakes, .out, .seqs, .poison, .channels, .usage, .upds, .wins, .ccs, .queues,
     .haltReq, .frozen]
  | .restoreComplete .. =>
    [.mem, .keys, .regs, .lakes, .out, .seqs, .poison, .channels, .upds, .ringAdv, .haltReq]
  | .mailboxGo .. | .getInfo .. | .slotStatus .. | .lakeBind .. | .getIdentity .. =>
    [.regs, .out, .keeper]
  | .sessionKek .. | .importKey .. | .derive .. | .derivePair .. | .revoke .. | .setLimit .. | .mordantShare .. |
    .mordantDerive .. | .lakeKey .. | .ifcRekey .. =>
    [.keys, .regs, .out, .keeper]
  | .partRevoke .. | .stopInterfaceRequest .. =>
    [.keys, .cores, .dmas, .regs, .ports, .lakes, .out, .seqs, .keeper, .usage, .tenancies, .wins, .ccs, .queues,
     .frozen, .dumps]
  | .drbgReseed .. =>
    [.keeper]
  | .bar2Access .. | .debugWindowAccess .. =>
    [.mem, .keys, .regs, .out, .poison, .channels, .upds, .haltReq]
  | .ideIntegrityFail .. =>
    [.dmas, .regs, .out, .queues]
  | .layoutWrite .. =>
    [.keys, .regs, .ports, .out]
  | .assign .. | .meterCloseSchedule .. | .meterCloseOperator .. | .rtcSet .. =>
    [.regs, .mtr, .out, .usage, .events]
  | .admissionComplete .. =>
    [.mem, .cores, .regs, .lakes, .shadows, .out, .seqs, .poison, .channels, .keeper, .usage, .upds, .ringAdv, .wins,
     .ccs, .queues]
  | .lockInterfaceRequest .. =>
    [.regs, .out, .keeper, .tenancies]
  | .startInterfaceRequest .. =>
    [.regs, .out, .tenancies]
  | .keyExchange .. =>
    [.out, .keeper]
  | .functionLevelReset .. | .vfEnableClear .. | .pcieConfigRequest .. =>
    [.keys, .cores, .dmas, .regs, .ports, .lakes, .out, .seqs, .keeper, .usage, .tenancies, .wins, .ccs, .queues,
     .frozen, .dumps, .pcie]
  | .removalComplete .. =>
    [.mem, .cores, .regs, .lakes, .mtr, .shadows, .out, .seqs, .poison, .channels, .keeper, .usage, .tenancies, .upds,
     .ringAdv, .wins, .ccs, .queues, .events, .pcie]
  | .queueEntryFetch .. | .pktNop .. | .pktWait .. | .pktSignal .. | .pktReset .. | .queueCancel .. | .contextKill ..
    | .queueEnable .. | .fenceWrite .. =>
    [.regs, .out, .queues]
  | .cbGrant .. =>
    [.queues]
  | .pktDma .. | .dmaDescComplete .. =>
    [.dmas, .regs, .out, .usage, .queues]
  | .pktRegWrite .. =>
    [.regs, .out, .ringAdv, .queues]
  | .dmaCopyIn .. | .dmaGcmIn .. | .dmaXtsIn .. =>
    [.mem, .keys, .dmas, .regs, .out, .poison, .channels, .upds, .haltReq]
  | .dmaCopyOut .. | .dmaGcmOut .. | .dmaXtsOut .. =>
    [.keys, .dmas, .regs, .out, .poison, .channels, .upds, .haltReq]
  | .dmaLakeExport .. =>
    [.dmas, .regs, .out, .channels]
  | .dmaLakeImport .. =>
    [.mem, .dmas, .regs, .lakes, .poison]
  | .sagWarn .. =>
    [.power, .regs, .mtr, .out, .usage, .upds, .events]
  | .sagEnd .. =>
    [.power, .regs, .mtr, .out, .usage, .events]
  | .brownout .. | .powerOn .. | .perstAssert .. | .hotReset .. | .keeperWatchdog .. | .fuseProgramComplete .. =>
    [.keys, .cores, .fuses, .power, .tray, .dmas, .regs, .ports, .lakes, .mtr, .shadows, .seqs, .channels, .keeper,
     .usage, .tenancies, .upds, .ringAdv, .wins, .ccs, .queues, .events, .bus, .time, .haltReq, .halt, .frozen,
     .dumps, .pcie]
  | .limModeWrite .. | .limModeLock .. | .fixedFreqWrite .. =>
    [.power, .regs, .out, .seqs]
  | .warmResetCmd .. | .maintResetCmd .. | .debugLevelWrite .. | .challengeGen .. | .responseSubmit .. =>
    [.keys, .cores, .fuses, .power, .tray, .dmas, .regs, .ports, .lakes, .mtr, .shadows, .out, .seqs, .channels,
     .keeper, .usage, .tenancies, .upds, .ringAdv, .wins, .ccs, .queues, .events, .bus, .time, .haltReq, .halt,
     .frozen, .dumps, .pcie]
  | .wipeDone .. =>
    [.mem, .keys, .cores, .coreMap, .power, .regs, .out, .poison, .channels, .keeper]
  | .bootReady .. =>
    [.keys, .coreMap, .flash, .power, .regs, .mtr, .out, .keeper, .usage, .events]
  | .pldmFwUpdate .. =>
    [.flash, .regs, .out]
  | .lifecycleTransition .. =>
    [.fuses, .regs, .out]
  | .challengeExpire .. =>
    [.fuses, .regs]
  | .genLockoutEnd .. =>
    [.fuses]
  | .syncFrame .. =>
    [.tray, .regs, .out, .events, .time, .haltReq]
  | .moduleFrame .. | .tbResyncCmd .. | .timeReply .. | .timeProbeTimeout .. =>
    [.tray, .regs, .out]
  | .moduleFrameTransmit .. =>
    [.keys, .tray, .regs, .ports, .lakes, .out, .usage, .wins, .events]
  | .resyncAligned .. | .hbKickTimeout .. =>
    [.tray]
  | .hbKick .. =>
    [.tray, .out]
  | .timeOffsetWrite .. =>
    [.regs, .out, .time]
  | .timeProbe .. =>
    [.tray, .regs, .ports, .out]
  | .timeProbeReceived .. =>
    [.ports]
  | .entdaa .. | .setdasa .. =>
    [.bus]
  | .setEventReceiver .. =>
    [.out, .bus]
  | .recordSeal .. =>
    [.regs, .mtr, .out]
  | .counterClear .. =>
    [.regs, .out, .usage]
  | .deviceFreeze .. | .deviceThaw .. | .partitionFreeze .. | .partitionThaw .. =>
    [.regs, .out, .frozen]
  | .operatorDump .. | .tenantDumps .. | .tenantDump .. =>
    [.regs, .out, .queues, .dumps]
  | .dumpComplete .. =>
    [.keys, .regs, .out, .queues, .dumps]
  | .hotInsert .. =>
    [.power]
  | .meterMemTick .. =>
    [.mtr, .usage]
  | .platformEventAck .. =>
    [.events]

end Sys2Proof.Machine
end

