-- ==== Sys2Proof/Certificates/Slice0/Obligations.lean ====
section
/-! DEFINITION. The statements for the provers, group by group of the commands. -/

open Sys2Proof Sys2Proof.Machine

/-! ## The block as a whole -/

/-- A step runs the command at the front of the queue on the block with the rest of the queue. With no command waiting one ACLK cycle
passes, which is the model's choice (log entry 2). -/
def Obligations.FrontCommandRuns : Prop :=
  (∀ (s : State) (c : Instr) (rest : List Instr), step { s with pending := c :: rest } = exec c { s with pending := rest }) ∧
  (∀ (s : State), s.pending = [] → step s = .next { s with now := s.now + 1 })

/-- No command touches the commands that wait behind it; the queue is the model's (log entries 1, 38). -/
def Obligations.WaitingQueueKept : Prop :=
  ∀ (c : Instr) (s t : State), exec c s = .next t → t.pending = s.pending

/-- Every part of the block that is not among those a command may change is the same after it, for every command and every state. -/
def Obligations.FrameOfEveryCommand : Prop :=
  ∀ (c : Instr) (s t : State), exec c s = .next t → ∀ x : Part, x ∉ touched c → x.same s t

/-- R10, R14, R485, R490, R562, R654, R656, R670, R677: what the block holds right after reset, where the spec gives it. -/
def Obligations.ResetState : Prop :=
  let s := State.reset
  s.pending = [] ∧ s.halted = false ∧ s.now = 0 ∧ s.memWf = true ∧
    s.rd Reg.PWR_GAIN = 0x3F800000 ∧ s.fget Reg.PWR_LIM_STAT Fld.PWR_LIM_STAT_CAL_COUNT = 0 ∧
    s.fget Reg.PWR_LIM_STAT Fld.PWR_LIM_STAT_FIRST_USE = 1 ∧ s.fget Reg.PWR_LIM_STAT Fld.PWR_LIM_STAT_VF_IDX = 2 ∧
    s.fget Reg.PWR_CAP Fld.PWR_CAP_W = 1200 ∧ s.fget Reg.PWR_LIM_CTRL Fld.PWR_LIM_CTRL_FF_EN = 0 ∧
    s.fget Reg.GLB_RST_COUNT Fld.GLB_RST_COUNT_WARM = 0 ∧
    (∀ p, p ∈ allParts → s.partState p = 0 ∧ s.rd (Reg.KEY_PEPOCH p) = 0) ∧
    ∀ n, n < 256 → s.key n = {}

/-- Device memory at reset is in the canonical form of log entry 5. -/
def Obligations.ResetMemoryCanonical : Prop := State.reset.memWf = true

/-- Every step keeps device memory in its canonical form (log entry 5): addresses rise strictly, and none of them lists what an unlisted
one reads as. -/
def Obligations.StepKeepsMemoryCanonical : Prop :=
  ∀ (s t : State), s.memWf = true → step s = .next t → t.memWf = true

/-- R708: no step clears a bit of the life-cycle codeword. -/
def Obligations.LifecycleBitsOneWay : Prop :=
  ∀ (s t : State), step s = .next t → ∀ i, bitOf s.fuses.code i = true → bitOf t.fuses.code i = true

/-- R13, R15 to R17: a whole write of a register without an effect of its own changes each field as its access code says, no other bit of
the register, no other register and no other part of the block, but for the vector that an interrupt enable's write may raise (R596); a
write with a byte enable missing changes nothing. -/
def Obligations.RegisterWriteByAccessCode : Prop :=
  (∀ (s : State) (r : RegReq) (a : Nat) (v : Word) (errs : List ReadErr) (d : RegDesc) (ix : List Nat),
    s.grants r a = true → aliasOf r.who a = a → a % 4 = 0 → rgnWord a = none → regDesc a = some (d, ix) →
    s.regPut r.who a v errs = s.regWrite a v → Gives (.registerWrite r a v errs) s fun t =>
      (∀ f ∈ d.fields, let x := f.fld.get v
        let old := f.fld.get (s.rd a)
        let new := f.fld.get (t.rd a)
        match f.acc with
        | .rw => new = if f.isDefined x = true then x else old
        | .rwl => new = if s.lockOf a = false ∧ f.isDefined x = true then x else old
        | .w1c => ∀ k, k < f.fld.width → bitOf new k = (bitOf old k && !bitOf x k)
        | .w1s => ∀ k, k < f.fld.width → bitOf new k = (bitOf old k || bitOf x k)
        | _ => new = old) ∧
      (∀ k, k < 32 → (∀ f ∈ d.fields, k < f.fld.lo ∨ f.fld.lo + f.fld.width ≤ k) → (t.rd a).getLsbD k = (s.rd a).getLsbD k) ∧
      (∀ b, b ≠ a → t.rd b = s.rd b) ∧ ∀ x : Part, x ≠ .regs → (x = .out → s.intSource a = none) → x.same s t) ∧
  (∀ (s : State) (r : RegReq) (a : Nat) (v : Word) (errs : List ReadErr), s.answers r a = true → aliasOf r.who a = a → a % 4 = 0 →
    rgnWord a = none → r.be % 16 ≠ 15 → Gives (.registerWrite r a v errs) s fun t => t = s) ∧
  (∀ (s : State) (a : Nat) (d : RegDesc) (ix : List Nat), regDesc a = some (d, ix) → ∀ k, k < 32 →
    (∀ f ∈ d.fields, k < f.fld.lo ∨ f.fld.lo + f.fld.width ≤ k) → (s.regRead a (s.rd a)).getLsbD k = false)

/-- R18: an offset that no register occupies reads 0, takes no write and records no error. -/
def Obligations.UnoccupiedOffset : Prop :=
  ∀ (s : State) (r : RegReq) (a : Nat), s.answers r a = true → aliasOf r.who a = a → a % 4 = 0 → regDesc a = none →
    isPairLo a = false → (4 ≤ a → isPairLo (a - 4) = false) → (a < Reg.DBG_WIN_DATA 0 ∨ Reg.DBG_WIN_DATA 0 + 4096 ≤ a) →
    (Gives (.rcRead r a) s fun t => t = s.emit (.readDone r.who a [0])) ∧
    (∀ v errs, rgnWord a = none → Gives (.registerWrite r a v errs) s fun t => t = s)

/-- R27, R562: a function reaches its own BAR0 alone, and that only in the states of its partition, and with the T bit, that the table
of R562 gives: any other access, of one dword or of two, changes nothing. What the device answers is in `out`. -/
def Obligations.FunctionReach : Prop :=
  ∀ (s : State) (r : RegReq) (n a : Nat) (v : Word) (errs : List ReadErr), r.who = n + 2 → 1 ≤ n → n ≤ 4 → rgnWord (a / 4 * 4) = none →
    rgnWord ((a + 3) / 4 * 4) = none → regFn ((a + 3) / 4 * 4) = regFn a →
    (regFn a ≠ n ∨ s.vfs < n ∨ s.partState n = 3 ∨ s.partState n = 5 ∨ (s.partState n ≤ 2 ∧ r.trusted = true) ∨
      (s.partState n = 4 ∧ (r.trusted = false ∨ s.fget (Reg.PRT_STATE n) Fld.PRT_STATE_TDI ≠ 2))) →
    (Gives (.registerWrite r a v errs) s fun t => ∀ x : Part, x ≠ .out → x.same s t) ∧
    (Gives (.rcRead r a) s fun t => ∀ x : Part, x ≠ .out → x.same s t)

/-- R670: `PWR_CAP`: what a write outside 680 to 1,200 W does, what an accepted write sets and what the next estimate takes from it,
and how the register reads. -/
def Obligations.OperatorCap : Prop :=
  (∀ (s : State) (r : RegReq) (v : Word), s.grants r Reg.PWR_CAP = true →
    Gives (.pwrCapWrite r v) s fun t => let w := Fld.PWR_CAP_W.get v
      if 680 ≤ w ∧ w ≤ 1200 then
        t.rd Reg.PWR_CAP = Fld.PWR_CAP_W.put (s.rd Reg.PWR_CAP) w ∧ t.envelope 4 = some (1000 * w) ∧
          ∀ b, b ≠ Reg.PWR_CAP → t.rd b = s.rd b
      else
        t.fget Reg.PWR_INT_STATUS Fld.PWR_INT_STATUS_CAP_REJECT = 1 ∧ ∀ b, b ≠ Reg.PWR_INT_STATUS → t.rd b = s.rd b) ∧
  State.reset.fget Reg.PWR_CAP Fld.PWR_CAP_W = 1200 ∧
  (∀ s : State, (s.shown Reg.PWR_CAP).toNat = s.fget Reg.PWR_CAP Fld.PWR_CAP_W)

/-- R679, R680, R654, R673, R722: the warm resets keep uptime, the gain, its count, `THERMTRIP` and the durations, and count themselves;
the cold ones return them; and every reset but one of cause 8 leaves the debug level NONE. Each is the first trigger of its cycle; a second
one is in `ResetRowsComplete`. -/
def Obligations.ResetsKeepRetention : Prop :=
  let warm (s t : State) : Prop :=
    t.now = s.now ∧ t.rd Reg.PWR_GAIN = s.rd Reg.PWR_GAIN ∧
      t.fget Reg.PWR_LIM_STAT Fld.PWR_LIM_STAT_CAL_COUNT = s.fget Reg.PWR_LIM_STAT Fld.PWR_LIM_STAT_CAL_COUNT ∧
      t.fget Reg.PWR_INT_STATUS Fld.PWR_INT_STATUS_THERMTRIP = s.fget Reg.PWR_INT_STATUS Fld.PWR_INT_STATUS_THERMTRIP ∧
      (∀ r, r < 5 → t.rd (Reg.PWR_THR_DUR_LO r) = s.rd (Reg.PWR_THR_DUR_LO r) ∧ t.rd (Reg.PWR_THR_DUR_HI r) = s.rd (Reg.PWR_THR_DUR_HI r)) ∧
      t.fget Reg.GLB_RST_COUNT Fld.GLB_RST_COUNT_WARM = min (s.fget Reg.GLB_RST_COUNT Fld.GLB_RST_COUNT_WARM + 1) 65535 ∧
      t.fget Reg.LCS_STAT Fld.LCS_STAT_LEVEL = 0 ∧ t.fget Reg.PWR_CAP Fld.PWR_CAP_W = 1200
  let cold (t : State) : Prop :=
    t.now = 0 ∧ t.rd Reg.PWR_GAIN = 0x3F800000 ∧ t.fget Reg.PWR_LIM_STAT Fld.PWR_LIM_STAT_CAL_COUNT = 0 ∧
      t.fget Reg.PWR_INT_STATUS Fld.PWR_INT_STATUS_THERMTRIP = 0 ∧
      (∀ r, r < 5 → t.rd (Reg.PWR_THR_DUR_LO r) = 0 ∧ t.rd (Reg.PWR_THR_DUR_HI r) = 0) ∧
      t.fget Reg.GLB_RST_COUNT Fld.GLB_RST_COUNT_WARM = 0 ∧ t.fget Reg.LCS_STAT Fld.LCS_STAT_LEVEL = 0
  (∀ (s : State), s.resetNow = none → Gives .hotReset s (warm s) ∧ Gives .perstAssert s (warm s) ∧ Gives .brownout s cold) ∧
  (∀ (s : State) (ms : Nat), s.resetNow = none → s.power.off = false ∨ s.power.rails = true → Gives (.powerOn ms) s cold) ∧
  (∀ (s : State), s.resetNow = none → s.bootDone = true → Gives .keeperWatchdog s (warm s)) ∧
  (∀ (s : State) (r : RegReq) (v : Word), s.resetNow = none → s.grants r Reg.GLB_RST_CTRL = true → Fld.GLB_RST_CTRL_KEY.get v = 0xA5C3 →
    Fld.GLB_RST_CTRL_WARM.get v = 1 → Gives (.warmResetCmd r v) s (warm s))

/-- R517, R519: the keeper's reports write no register but the results and the status of the mailbox they answer. -/
def Obligations.KeeperReportsFrame : Prop :=
  ∀ (s t : State) (i : Instr), (i = .getInfo ∨ i = .slotStatus ∨ i = .getIdentity) → exec i s = .next t →
    ∀ a, (∀ c, s.nextMail = some c → a ≠ boxStatus c.box ∧ ∀ n, n < 64 → a ≠ boxRes c.box n) → t.rd a = s.rd a

/-! ## Register accesses -/

/-- R13, R17, R18, R21 to R23, R19: the rows of plain accesses complete. -/
def Obligations.AccessRowsComplete : Prop :=
  (∀ (s : State) (r : RegReq) (a : Nat) (v : Word) (errs : List ReadErr), s.grants r a = true → aliasOf r.who a = a → a % 4 = 0 →
    rgnWord a = none → Gives (.registerWrite r a v errs) s fun t => t = s.regPut r.who a v errs) ∧
  (∀ (s : State) (r : RegReq) (v : Word) (errs : List ReadErr), s.grants r Reg.MTR_REC_SEL = true →
    Gives (.registerWrite r Reg.MTR_REC_SEL v errs) s fun t =>
      t.fget Reg.MTR_REC_SEL Fld.MTR_REC_SEL_INDEX = Fld.MTR_REC_SEL_INDEX.get v) ∧
  (∀ (s : State) (r : RegReq), s.answers r Reg.MGT_TB_CRC = true → Gives (.rcRead r Reg.MGT_TB_CRC) s fun t =>
    t.out.head? = some (.readDone r.who Reg.MGT_TB_CRC [s.rd Reg.MGT_TB_CRC]) ∧ t.rd Reg.MGT_TB_CRC = 0) ∧
  (∀ (s : State) (r : RegReq) (a : Nat), s.answers r a = true → aliasOf r.who a = a → a % 4 = 0 → isPairLo a = true →
    Gives (.loReadLatch r a) s fun t =>
      SMap.get (fun _ => none) t.shadows (shadowKey r.who a) = some (s.shown (a + 4))) ∧
  (∀ (s : State) (r : RegReq) (a : Nat), s.answers r (a + 4) = true → aliasOf r.who (a + 4) = a + 4 → a % 4 = 0 →
    isPairLo a = true → isPairLo (a + 4) = false → Gives (.hiReadShadow r (a + 4)) s fun t =>
      (∀ h, SMap.get (fun _ => none) s.shadows (shadowKey r.who a) = some h →
        t.out.head? = some (.readDone r.who (a + 4) [h]) ∧ SMap.get (fun _ => none) t.shadows (shadowKey r.who a) = none)) ∧
  (∀ (s : State) (r : RegReq), s.answers r Reg.GLB_UPTIME_LO = true → Gives (.pairRead8byte r Reg.GLB_UPTIME_LO) s fun t =>
    let up := if s.power.aonHeld then 0 else s.now - s.power.aonAt
    t.out.head? = some (.readDone r.who Reg.GLB_UPTIME_LO [BitVec.ofNat 32 up, BitVec.ofNat 32 (up / 4294967296)]) ∧
      t.shadows = s.shadows) ∧
  (∀ (s : State) (r : RegReq) (lo hi : Word), s.answers r Reg.MTR_RTC_SET_LO = true → r.be = 255 →
    Gives (.pairWrite8byte r Reg.MTR_RTC_SET_LO lo hi) s fun t =>
      t.rd Reg.MTR_RTC_SET_LO = lo ∧ t.rd Reg.MTR_RTC_SET_HI = hi) ∧
  (∀ (s : State) (r : RegReq) (a : Nat), s.getsTo r a = true → aliasOf r.who a = a → a % 4 = 0 →
    (s.domainUp a = false → Gives (.accessTimeout r a false) s fun t => t = s.emit (.readDone r.who a [0xFFFFFFFF])) ∧
    (s.domainUp a = true → Gives (.accessTimeout r a false) s fun t => t = s) ∧ Gives (.accessTimeout r a true) s fun t => t = s)

/-! ## Supplies and the limiter -/

/-- The rows of feeds, sag and the 1 ms sample complete: R639, R640, R644, R645, R649, R650. -/
def Obligations.SupplyRowsComplete : Prop :=
  (∀ (s : State) (mw va vb : Nat), Gives (.inputSample mw va vb) s fun t =>
    t.power.samples = (mw :: s.power.samples).take 100 ∧ t.power.sampled = true) ∧
  (∀ (s : State) (f : Nat), Gives (.feedLoss f) s fun t => t.fget Reg.PWR_FEED (feedOk (f % 2)) = 0) ∧
  (∀ (s : State) (f : Nat), Gives (.feedOvervoltage f) s fun t =>
    t.fget Reg.PWR_FEED (feedOk (f % 2)) = 0 ∧ t.fget Reg.PWR_FEED (feedOv (f % 2)) = 1) ∧
  (∀ (s : State) (f : Nat), Gives (.feedReconnect f) s fun t =>
    t.fget Reg.PWR_FEED (feedOv (f % 2)) = 0 ∧ t.power = s.power ∧ t.out = s.out) ∧
  (∀ (s : State), s.flag Reg.PWR_SAG_STAT Fld.PWR_SAG_STAT_ACTIVE = false → Gives .sagWarn s fun t =>
    t.flag Reg.PWR_SAG_STAT Fld.PWR_SAG_STAT_ACTIVE = true ∧ t.meterHold = true ∧ t.power.winBad = true ∧
      ∀ p, p ∈ allParts → s.nquad p ≠ 0 → (t.up p).taint = true) ∧
  (∀ (s : State) (mv : Nat), Gives (.vbatCheck mv) s fun t =>
    t.fget Reg.PWR_STAT Fld.PWR_STAT_VBAT_MV = mv / 2 % 2048 ∧
      (mv < 2500 → t.fget Reg.PWR_STAT Fld.PWR_STAT_VBAT_LOW = 1)) ∧
  (∀ (s : State), s.power.samples ≠ [] → Gives .powerReport s fun t =>
    t.fget Reg.PWR_INPUT_AVG Fld.PWR_INPUT_AVG_W = meanW s.power.samples % 4096 ∧
      t.fget Reg.PWR_INPUT_AVG Fld.PWR_INPUT_AVG_WIN = (s.fget Reg.PWR_INPUT_AVG Fld.PWR_INPUT_AVG_WIN + 1) % 1048576 ∧
      t.rd64 Reg.PWR_ENERGY_LO = (s.rd64 Reg.PWR_ENERGY_LO + meanW s.power.samples / 5) % 2 ^ 64)

/-- The rows of the limiter and of its registers complete: R652 to R654, R661, R662, R668, R670. -/
def Obligations.LimiterRowsComplete : Prop :=
  (∀ (s : State) (tot pool base eng nme i0 i1 : Nat), Gives (.limiterEstimate tot pool base eng nme i0 i1) s fun t =>
    t.power.estSum = s.power.estSum + tot ∧ t.power.estN = s.power.estN + 1 ∧
      t.fget Reg.PWR_LIM_STAT Fld.PWR_LIM_STAT_MODE = s.modeInForce % 2) ∧
  (∀ (s : State), s.power.samples ≠ [] → s.power.estSum ≠ 0 → s.power.winBad = false →
    let g := s.rn Reg.PWR_GAIN
    let diff := sub32 (round32 false ((s.power.samples.take 10).sum * s.power.estN) ((s.power.samples.take 10).length * s.power.estSum) 0) g
    (val32 0x3E19999A).lt (val32 (diff % 2147483648)) = false → Gives .limiterCalibration s fun t =>
      t.power.estSum = 0 ∧ t.power.estN = 0 ∧
        t.rn Reg.PWR_GAIN = min32 (max32 (add32 g (mul32 diff 0x3E800000)) 0x3F59999A) 0x3F933333 % 2 ^ 32) ∧
  (∀ (s : State), Gives .thermtrip s fun t =>
    t.thermAlert = true ∧ t.power.hot = true ∧ t.haltReq = s.haltReq ++ [(s.now, 5)] ∧ t.out.head? = some .powerRemoval) ∧
  (∀ (s : State) (r : RegReq) (v : Word), s.grants r Reg.PWR_LIM_CTRL = true →
    s.flag Reg.PWR_LIM_CTRL Fld.PWR_LIM_CTRL_MODE_LOCK = false → Gives (.limModeWrite r v) s fun t =>
      t.fget Reg.PWR_LIM_CTRL Fld.PWR_LIM_CTRL_MODE = Fld.PWR_LIM_CTRL_MODE.get v ∧
        ∀ p, p ∈ allParts → (t.sq p).limreq = 0) ∧
  (∀ (s : State) (r : RegReq) (v : Word), s.grants r Reg.PWR_LIM_CTRL = true → Gives (.limModeLock r v) s fun t =>
    t.flag Reg.PWR_LIM_CTRL Fld.PWR_LIM_CTRL_MODE_LOCK = true) ∧
  (∀ (s : State) (r : RegReq) (v : Word), s.grants r Reg.PWR_LIM_CTRL = true →
    Fld.PWR_LIM_CTRL_FF_EN.get v = 1 → 2 ≤ Fld.PWR_LIM_CTRL_FF_IDX.get v → Gives (.fixedFreqWrite r v) s fun t =>
      t.fget Reg.PWR_LIM_STAT Fld.PWR_LIM_STAT_VF_IDX = Fld.PWR_LIM_CTRL_FF_IDX.get v) ∧
  (∀ (s : State) (r : RegReq) (v : Word), s.grants r Reg.PWR_CAP = true →
    680 ≤ Fld.PWR_CAP_W.get v → Fld.PWR_CAP_W.get v ≤ 1200 → Gives (.pwrCapWrite r v) s fun t =>
      t.fget Reg.PWR_CAP Fld.PWR_CAP_W = Fld.PWR_CAP_W.get v)

/-! ## Halt, tamper, reset and boot -/

/-- R40, R49, R746, R748: the rows of halts and tamper events complete. -/
def Obligations.HaltRowsComplete : Prop :=
  (∀ (s : State) (cause : Nat), 1 ≤ cause → cause ≤ 4 → (cause = 4 → s.power.off = true) → Gives (.tamperEvent cause) s fun t =>
    t.keys = [] ∧ t.fget Reg.KEY_ROOT_STAT Fld.KEY_ROOT_STAT_ROOT_OK = 0 ∧
      (s.power.off = false → t.haltReq = s.haltReq ++ [(s.now, 4)])) ∧
  (∀ (s : State) (at_ src : Nat), firstHalt s.haltReq = some (at_, src) → s.halted = false → Gives .halt s fun t =>
    t.halted = true ∧ t.haltReq = []) ∧
  (∀ (s : State), s.halted = true →
    (∀ p, p ∈ allParts → (∀ x ∈ (s.sq p).xfers, x.kind ≠ .memwr) ∧ ∀ b ∈ (s.sq p).bursts, b.put = false) →
      Gives .haltStopComplete s fun t => t = { s with haltDone := true }) ∧
  (∀ (s : State) (r : RegReq) (v : Word), s.grants r Reg.MGT_HALT_CTRL = true → Fld.MGT_HALT_CTRL_KEY.get v = 0x484C →
    Fld.MGT_HALT_CTRL_HALT.get v = 1 → Gives (.haltCmd r v) s fun t =>
      t = { s with haltReq := s.haltReq ++ [(s.now, if r.who = 1 then 3 else 2)] })

/-- R679 to R682, R701, R800: each reset shows its cause and leaves no sequencer state, no keys and, until the wipe, the memory. A trigger that
joins others of its cycle makes one reset with them. -/
def Obligations.ResetRowsComplete : Prop :=
  let after (s : State) (cause : Nat) (t : State) : Prop :=
    t.fget Reg.GLB_RST_CAUSE Fld.GLB_RST_CAUSE_CAUSE = cause ∧ t.seqs = [] ∧ t.keys = [] ∧ t.dram = s.dram ∧ t.flash = s.flash
  (∀ (s : State) (ms : Nat), s.resetNow = none → s.power.off = false ∨ s.power.rails = true → Gives (.powerOn ms) s (after s 1)) ∧
  (∀ (s : State), s.resetNow = none → Gives .brownout s fun t => after s 2 t ∧ t.power.off = true ∧ t.power.relAt = none) ∧
  (∀ (s : State), s.resetNow = none → Gives .perstAssert s fun t => after s 3 t ∧ t.power.perst = true ∧ t.power.relAt = none) ∧
  (∀ (s : State), s.resetNow = none → Gives .hotReset s (after s 4)) ∧
  (∀ (s : State) (x : ResetTrig), s.resetNow = some x → Gives .hotReset s fun t => after s (min x.cause 4) t ∧
    t.now = (if x.cold then 0 else s.now) ∧ t.power.maint = (x.maint && !x.cold) ∧
    t.fget Reg.GLB_RST_COUNT Fld.GLB_RST_COUNT_WARM = (if x.cold then 0 else min (x.count % 65536 + 1) 65535) ∧
    t.flag Reg.GLB_RST_CAUSE Fld.GLB_RST_CAUSE_RESTARTED = (x.again && decide (x.cause ≠ 1))) ∧
  (∀ (s : State) (x : ResetTrig), s.resetNow = some x → Gives .brownout s fun t => after s (min x.cause 2) t ∧ t.now = 0) ∧
  (∀ (s : State) (r : RegReq) (v : Word), s.resetNow = none → s.grants r Reg.GLB_RST_CTRL = true → Fld.GLB_RST_CTRL_KEY.get v = 0xA5C3 →
    Fld.GLB_RST_CTRL_WARM.get v = 1 → Gives (.warmResetCmd r v) s (after s (if r.who = 1 then 6 else 5))) ∧
  (∀ (s : State) (r : RegReq) (v : Word), s.resetNow = none → s.grants r Reg.GLB_RST_CTRL = true → Fld.GLB_RST_CTRL_KEY.get v = 0xA5C3 →
    Fld.GLB_RST_CTRL_WARM.get v = 0 → Fld.GLB_RST_CTRL_MAINT.get v = 1 → Gives (.maintResetCmd r v) s fun t =>
      after s 9 t ∧ t.power.maint = true) ∧
  (∀ (s : State), s.resetNow = none → s.bootDone = true → Gives .keeperWatchdog s (after s 7)) ∧
  (∀ (s : State), Gives .hotInsert s fun t => t.power.rails = s.power.off ∧ t.regs = s.regs) ∧
  (∀ (s : State), s.power.relAt = none → s.power.off = false → s.power.hot = false → Gives .perstRelease s fun t =>
    t.power.perst = false ∧ t.power.relAt = some s.now ∧ t.fget Reg.MGT_TB_STAT Fld.MGT_TB_STAT_SLOT = s.power.slotId % 16) ∧
  (∀ (s : State), s.power.off = false → s.flag Reg.PWR_SAG_STAT Fld.PWR_SAG_STAT_ACTIVE = true → Gives .sagEnd s fun t =>
    t.flag Reg.PWR_SAG_STAT Fld.PWR_SAG_STAT_ACTIVE = false ∧ t.meterHold = false ∧ t.mtr.snap = none) ∧
  (∀ (s : State), s.power.off = true → Gives .sagEnd s fun t =>
    t.power.off = false ∧ ∀ a, a ≠ Reg.MGT_TB_STAT → (∀ k, k < 8 → a ≠ Reg.MEM_STK_STAT k) → t.rd a = s.rd a)

/-- R660, R685 to R690, R595, R700: the rows of boot, sensors, image update and configuration requests complete. -/
def Obligations.BootRowsComplete : Prop :=
  (∀ (s : State) (tjs : List Nat), Gives (.thermalEstimate tjs) s fun t =>
    t.fget Reg.PWR_TEMP Fld.PWR_TEMP_TJ = (hottest (tjs.take 64)).1 % 256) ∧
  (∀ (s : State) (failed : ResetFailures) (auth : Bool), s.booting = true →
    s.flag Reg.GLB_BOOT_STAT Fld.GLB_BOOT_STAT_WIPE_DONE = false → Gives (.wipeDone failed auth) s fun t =>
      t.flag Reg.GLB_BOOT_STAT Fld.GLB_BOOT_STAT_WIPE_DONE = true ∧
        t.fget Reg.GLB_BOOT_STAT Fld.GLB_BOOT_STAT_STK_FAIL = failed.stackMask % 256 ∧
          ∀ k i, k < 8 → bitOf failed.stackMask k = false → i < 2 ^ 37 → SMap.get (fun _ => 0#8) t.dram (k * 2 ^ 37 + i) = 0#8) ∧
  (∀ (s : State), s.booting = true → s.flag Reg.GLB_BOOT_STAT Fld.GLB_BOOT_STAT_WIPE_DONE = true →
    s.power.maint = false → Gives .bootReady s fun t => t.bootDone = true) ∧
  (∀ (s : State), s.power.relAt.isSome = true → s.bootDone = true → s.crsFor 0 = false →
    Gives (.pcieConfigRequest 0 0 0) s fun t => t.out.head? = some (.configData 0 0 0x5A601F3A)) ∧
  (∀ (s : State) (x : Nat), s.power.relAt.isSome = true → s.bootDone = true → s.crsFor 0 = false →
    Gives (.pcieConfigRequest 0 1 x) s fun t => t.mse = (x % 2 == 1)) ∧
  (∀ (s : State) (a c : Nat) (file : List Byte), s.bootDone = true → 1 ≤ c → c ≤ 5 →
    Gives (.pldmFwUpdate a c file) s fun t => imgValid c file = true →
      bitOf t.flashPending (c - 1) = true ∧
        SMap.get (fun _ => none) t.flash (2 * c + (1 - b2n (bitOf s.flashActive (c - 1)))) = some file) ∧
  (∀ (s : State) (a : Nat), s.bootDone = true → Gives (.activateFirmware a) s fun t =>
    t = s.emit (.message a 2 0x1A [1#8]))

/-! ## Life cycle -/

/-- R711, R713, R721 to R725: the rows of the life cycle complete. -/
def Obligations.LifecycleRowsComplete : Prop :=
  (∀ (s : State) (r : RegReq) (v : Word) (bits : List Nat), s.grants r Reg.LCS_TRANS = true → Fld.LCS_TRANS_KEY.get v = 0x4C43 →
    s.fuses.op = none → lcsBits s.lcsNow (Fld.LCS_TRANS_TARGET.get v) = some bits → (∀ p, p ∈ allParts → s.partState p = 0) →
    s.flag Reg.PRT_STATUS Fld.PRT_STATUS_LAYOUT_BUSY = false → s.supplyGood = true →
    Gives (.lifecycleTransition r v) s fun t =>
      t.flag Reg.LCS_STAT Fld.LCS_STAT_BUSY = true ∧ t.fuses.op.isSome = true ∧ t.fuses.code = s.fuses.code) ∧
  (∀ (s : State) (o : FuseOp), s.fuses.op = some o → Gives .fuseProgramComplete s fun t =>
    t.fuses.code = setCodeBits s.fuses.code o.bits ∧ t.fuses.op = none ∧
      t.fget Reg.GLB_RST_CAUSE Fld.GLB_RST_CAUSE_CAUSE = 8) ∧
  (∀ (s : State) (r : RegReq) (v : Word), s.grants r Reg.LCS_DEBUG = true → Fld.LCS_DEBUG_KEY.get v = 0x4C44 → s.fuses.op = none →
    s.lcsNow = 1 → Fld.LCS_DEBUG_LEVEL.get v ≠ 3 → Gives (.debugLevelWrite r v) s fun t =>
      t.fget Reg.LCS_STAT Fld.LCS_STAT_LEVEL = Fld.LCS_DEBUG_LEVEL.get v ∧
        t.fget Reg.GLB_RST_CAUSE Fld.GLB_RST_CAUSE_CAUSE = 8) ∧
  (∀ (s : State) (r : RegReq) (v : Word), s.grants r Reg.LCS_CHAL_CTRL = true → Fld.LCS_CHAL_CTRL_SUBMIT.get v = 0 →
    s.fuses.op = none → s.fuses.sigAt = none → s.lcsNow = 2 → 1 ≤ Fld.LCS_CHAL_CTRL_REQ.get v → Fld.LCS_CHAL_CTRL_REQ.get v ≤ 2 →
    s.fget Reg.LCS_STAT Fld.LCS_STAT_TOKENS < 16 → s.entropy = true → Gives (.challengeGen r v) s fun t =>
      t.flag Reg.LCS_STAT Fld.LCS_STAT_CHAL_VALID = true ∧ t.fuses.chalAt = some s.now ∧
        t.keeper.draws = s.keeper.draws + 1) ∧
  (∀ (s : State) (r : RegReq) (v : Word), s.grants r Reg.LCS_CHAL_CTRL = true → Fld.LCS_CHAL_CTRL_GEN.get v = 0 →
    s.fuses.chalAt.isSome = true → Gives (.responseSubmit r v) s fun t =>
      t.fuses.chalAt = none ∧ t.flag Reg.LCS_STAT Fld.LCS_STAT_CHAL_VALID = false) ∧
  (∀ (s : State) (at_ : Nat), s.fuses.chalAt = some at_ → at_ + 60000000000 ≤ s.now → Gives .challengeExpire s fun t =>
    t.fuses.chalAt = none ∧ t.flag Reg.LCS_STAT Fld.LCS_STAT_CHAL_VALID = false) ∧
  (∀ (s : State) (at_ : Nat), s.fuses.sigAt = some at_ → at_ + 100000000 ≤ s.now → Gives .genLockoutEnd s fun t =>
    t.fuses.sigAt = none ∧ t.regs = s.regs)

/-! ## Debug -/

/-- R771, R772, R779, R789: the rows of counters, freezes and single steps complete. -/
def Obligations.TraceRowsComplete : Prop :=
  (∀ (s : State) (r : RegReq) (p k : Nat) (v : Word), 1 ≤ p → p ≤ 4 → s.grants r (Reg.TDBG_CNT_CFG p (k % 16)) = true →
    Fld.TDBG_CNT_CFG_EVENT.get v ≤ 0x13 → Gives (.counterConfigWrite r p k v) s fun t =>
      t.fget (Reg.TDBG_CNT_CFG p (k % 16)) Fld.TDBG_CNT_CFG_EVENT = Fld.TDBG_CNT_CFG_EVENT.get v) ∧
  (∀ (s : State) (r : RegReq) (p : Nat) (v : Word), 1 ≤ p → p ≤ 4 → s.grants r (Reg.TDBG_CNT_CTRL p) = true →
    Gives (.counterClear r p v) s fun t =>
      (∀ k, k < 16 → SMap.get (fun _ => 0) t.counts (16 * p + k) = 0) ∧
        ∀ j, j < 16 * p ∨ 16 * p + 16 ≤ j → SMap.get (fun _ => 0) t.counts j = SMap.get (fun _ => 0) s.counts j) ∧
  (∀ (s : State) (r : RegReq) (v : Word), s.grants r Reg.DBG_SEPIA_CTRL = true → Fld.DBG_SEPIA_CTRL_THAW.get v = 0 →
    Gives (.deviceFreeze r v) s fun t => t.flag Reg.DBG_SEPIA_STAT Fld.DBG_SEPIA_STAT_FROZEN = true) ∧
  (∀ (s : State) (r : RegReq) (v : Word), s.grants r Reg.DBG_SEPIA_CTRL = true → Gives (.deviceThaw r v) s fun t =>
    t.flag Reg.DBG_SEPIA_STAT Fld.DBG_SEPIA_STAT_FROZEN = false) ∧
  (∀ (s : State) (r : RegReq) (p : Nat) (v : Word), 1 ≤ p → p ≤ 4 → s.grants r (Reg.TDBG_SEPIA_CTRL p) = true →
    Fld.TDBG_SEPIA_CTRL_THAW.get v = 0 → Gives (.partitionFreeze r p v) s fun t =>
      t.flag (Reg.TDBG_SEPIA_STAT p) Fld.TDBG_SEPIA_STAT_FROZEN = true) ∧
  (∀ (s : State) (r : RegReq) (p : Nat) (v : Word), 1 ≤ p → p ≤ 4 → s.grants r (Reg.TDBG_SEPIA_CTRL p) = true →
    Gives (.partitionThaw r p v) s fun t => t.flag (Reg.TDBG_SEPIA_STAT p) Fld.TDBG_SEPIA_STAT_FROZEN = false) ∧
  (∀ (s : State) (r : RegReq) (v : Word), s.grants r Reg.DBG_STEP_CTRL = true →
    s.flag Reg.DBG_STEP_CTRL Fld.DBG_STEP_CTRL_HOLD = true → Fld.DBG_STEP_CTRL_HOLD.get v = 1 → Gives (.singleStep r v) s fun t =>
      ∀ p, p ∈ allParts → (t.sq p).credit = (s.sq p).credit + 1) ∧
  (∀ (s : State) (r : RegReq) (v : Word), s.grants r Reg.DBG_STEP_CTRL = true → Fld.DBG_STEP_CTRL_HOLD.get v = 0 →
    Gives (.stepHoldWrite r v) s fun t =>
      t.flag Reg.DBG_STEP_STAT Fld.DBG_STEP_STAT_HELD = false ∧ ∀ p, p ∈ allParts → (t.sq p).credit = 0)

/-- R784, R790: the rows of dumps and of the window complete. -/
def Obligations.DumpRowsComplete : Prop :=
  (∀ (s : State) (r : RegReq) (v : Word), s.grants r Reg.DBG_DUMP_CTRL = true → Fld.DBG_DUMP_CTRL_TENANTS.get v = 0 →
    bitOf s.dumps 0 = false → s.dumpFrozen 0 = true → Gives (.operatorDump r v) s fun t => t.dumps = s.dumps ||| 1) ∧
  (∀ (s : State) (r : RegReq) (v : Word) (p : Nat), s.grants r Reg.DBG_DUMP_CTRL = true → Fld.DBG_DUMP_CTRL_GO.get v = 0 →
    p ∈ allParts → (∀ q, q ∈ allParts → q ≠ p → s.nquad q = 0) → s.nquad p ≠ 0 →
    s.flag (Reg.TDBG_DUMP_CFG p) Fld.TDBG_DUMP_CFG_VALID = true → bitOf s.dumps p = false → s.dumpFrozen p = true →
    Gives (.tenantDumps r v) s fun t => t.dumps = s.dumps ||| 2 ^ p) ∧
  (∀ (s : State) (r : RegReq) (p : Nat) (v : Word), p ∈ allParts → s.grants r (Reg.TDBG_DUMP_CTRL p) = true →
    Fld.TDBG_DUMP_CTRL_GO.get v = 1 → bitOf s.dumps p = false → s.dumpFrozen p = true → Gives (.tenantDump r p v) s fun t =>
      t.dumps = s.dumps ||| 2 ^ p ∧ t.flag (Reg.TDBG_DUMP_STAT p) Fld.TDBG_DUMP_STAT_BUSY = true) ∧
  (∀ (s : State) (ok : Bool), bitOf s.dumps 0 = true → Gives (.dumpComplete 0 ok) s fun t =>
    bitOf t.dumps 0 = false ∧ t.flag Reg.DBG_DUMP_STAT Fld.DBG_DUMP_STAT_DONE = true ∧
      ∃ data, Output.hostWrite 0 (s.rd64 Reg.DBG_DUMP_BASE_LO) false data ∈ t.out) ∧
  (∀ (s : State) (r : RegReq) (k : Nat) (v : Word) (errs : List ReadErr), s.grants r (Reg.DBG_WIN_DATA (k % 1024)) = true →
    s.closedPart (s.winByte k) 4 = none → s.flag Reg.DBG_WIN_CTRL Fld.DBG_WIN_CTRL_KEYLESS = true → s.winRaw = true →
    SMap.get (fun _ => false) s.poison (poisonKey (winPlace (s.winByte k)).1 (winPlace (s.winByte k)).2) = false →
    Gives (.debugWindowAccess r k false v errs) s fun t =>
      t = s.emit (.readDone r.who (Reg.DBG_WIN_DATA (k % 1024))
        [BitVec.ofNat 32 (leAt (s.rawSector (winPlace (s.winByte k)).1 (winPlace (s.winByte k)).2) (s.winByte k % 256) 4)]))

/-! ## Metering and the tray bus -/

/-- R756, R757, R758, R761: the rows of metering complete. -/
def Obligations.MeterRowsComplete : Prop :=
  (∀ (s : State), s.closedNow = none → s.fget Reg.MTR_CTRL Fld.MTR_CTRL_PERIOD_MIN ≠ 0 →
    (s.mtr.rtcOpen / (60000 * s.fget Reg.MTR_CTRL Fld.MTR_CTRL_PERIOD_MIN) + 1) *
      (60000 * s.fget Reg.MTR_CTRL Fld.MTR_CTRL_PERIOD_MIN) ≤ s.rtc → Gives .meterCloseSchedule s fun t =>
        t.mtr.closed = s.mtr.closed ++ [s.closeRecord 1] ∧ t.meters = [] ∧ t.rd Reg.MTR_PERIOD = s.rd Reg.MTR_PERIOD + 1) ∧
  (∀ (s : State) (r : RegReq) (v : Word), s.grants r Reg.MTR_CTRL = true → Gives (.meterCloseOperator r v) s fun t =>
    match s.closedNow with
    | none => t.mtr.closed = s.mtr.closed ++ [s.closeRecord 2] ∧ t.meters = [] ∧ t.rd Reg.MTR_PERIOD = s.rd Reg.MTR_PERIOD + 1
    | some (l, x) => t.mtr.closed = l ++ [x.take 40 ++ leBytes 1 (min 2 (leAt x 40 1)) ++ x.drop 41] ∧ t.meters = s.meters) ∧
  (∀ (s : State) (c : List Byte) (rest : List (List Byte)), s.mtr.closed = c :: rest → Gives .recordSeal s fun t =>
    t.mtr.closed = rest ∧ ∃ rec_, t.mtr.records = (rec_ :: s.mtr.records).take 8 ∧ rec_.take 240 = sliceB c 0 192 ++ sliceB s.mtr.prev 0 48 ∧
      t.mtr.prev = Crypto.sha384 rec_) ∧
  (∀ (s : State) (r : RegReq) (v : Word), s.grants r Reg.MTR_RTC_CTRL = true → Fld.MTR_RTC_CTRL_KEY.get v = 0x5254 →
    Fld.MTR_RTC_CTRL_SET.get v = 1 → Gives (.rtcSet r v) s fun t =>
      t.rtc = s.rd64 Reg.MTR_RTC_SET_LO ∧ t.mono = s.mono) ∧
  (∀ (s : State), s.meterHold = false → s.mtr.memTick < s.now / 100000 → Gives .meterMemTick s fun t =>
    ∀ p, p ∈ allParts → t.meterOf p 1 = if s.partState p = 0 then s.meterOf p 1 else satAdd 64 (s.meterOf p 1) (64 * s.nstacks p))

/-- R736 to R743: the rows of the tray bus complete. -/
def Obligations.TrayRowsComplete : Prop :=
  (∀ (s : State) (b : List Byte), trayOk b = true → leAt b 0 1 % 16 = 15 → Gives (.syncFrame b) s fun t =>
    t.tray.sync = some s.now ∧ t.rd Reg.MGT_FRAME_LO = BitVec.ofNat 32 (leAt b 3 4)) ∧
  (∀ (s : State) (k : Nat) (b : List Byte) (d : Int), k < 9 → trayOk b = true → k ≠ s.traySlot → s.tray.sync.isSome = true →
    Gives (.moduleFrame k b d) s fun t =>
      t.fget (Reg.MGT_DRIFT k) Fld.MGT_DRIFT_OFFSET = unsigned 8 (max (-127) (min 127 d))) ∧
  (∀ (s : State), s.mayTransmit = true → s.tray.mute = 0 → s.tray.heard = [] → s.tray.dups = 0 →
    Gives (.moduleFrameTransmit none none) s fun t =>
      (∃ f, t.out.head? = some (.tray f) ∧ trayOk f = true) ∧ t.tray.lastTx = some s.now ∧ t.tray.anns = []) ∧
  (∀ (s : State) (at_ : Nat), s.tray.sync = some at_ → at_ + 6000 ≤ s.now → s.flag Reg.MGT_TB_STAT Fld.MGT_TB_STAT_SYNC = true →
    Gives .syncLoss s fun t => t.flag Reg.MGT_TB_STAT Fld.MGT_TB_STAT_SYNC = false) ∧
  (∀ (s : State), s.tray.mute = 1 → 50 ≤ s.tray.align → s.flag Reg.MGT_TB_STAT Fld.MGT_TB_STAT_DUP_SLOT = false →
    Gives .resyncAligned s fun t => t.tray.mute = 2 ∧ t.regs = s.regs) ∧
  (∀ (s : State) (r : RegReq) (v : Word), s.grants r Reg.MGT_TB_CTRL = true → Fld.MGT_TB_CTRL_RESYNC.get v = 1 →
    s.flag Reg.MGT_TB_STAT Fld.MGT_TB_STAT_DUP_SLOT = false → Gives (.tbResyncCmd r v) s fun t =>
      t.tray.mute = 1 ∧ t.flag Reg.MGT_TB_STAT Fld.MGT_TB_STAT_MUTED = true) ∧
  (∀ (s : State) (r : RegReq), s.grants r Reg.MGT_HB_KICK = true → Gives (.hbKick r) s fun t =>
    t = { s with tray := { s.tray with kick := some s.now } }) ∧
  (∀ (s : State) (at_ : Nat), s.tray.kick = some at_ → at_ + 10000000 < s.now → Gives .hbKickTimeout s fun t =>
    t = { s with tray := { s.tray with kick := none } })

/-- R192 to R194: the rows of lateness announcements complete. -/
def Obligations.AnnouncementRowsComplete : Prop :=
  (∀ (s : State) (p : Nat), p ∈ allParts → s.fget (Reg.SEQ_ANN_TAG p) Fld.SEQ_ANN_TAG_TAG ≠ 0 → (s.sq p).annQ ≠ [] →
    let lost := (s.sq p).annQ.contains true
    let tag := s.fget (Reg.SEQ_ANN_TAG p) Fld.SEQ_ANN_TAG_TAG
    Gives .announceSample s fun t => (t.sq p).tag = tag ∧ (t.sq p).annQ = (s.sq p).annQ.erase lost ∧
      (t.sq p).annTime = (if lost = true then s.now else (s.sq p).annTime) ∧
        (p, b2n lost, tag, min 0xFFFF (s.rn (Reg.SEQ_LATE p) / 1024)) ∈ t.tray.anns) ∧
  (∀ (s : State) (p : Nat), (s.sq p).announced = true → (s.sq p).annQ.contains true = false →
    s.flag (Reg.SEQ_LATE_STAT p) Fld.SEQ_LATE_STAT_LOST = true → (s.sq p).annTime + 100000 ≤ s.now → (s.sq p).tag ≠ 0 →
    Gives (.announceLostRepeat p) s fun t => (t.sq p).annTime = s.now ∧
      (p, 1, (s.sq p).tag, min 0xFFFF (s.rn (Reg.SEQ_LATE p) / 1024)) ∈ t.tray.anns) ∧
  (∀ (s : State) (a : Ann) (rest : List Ann) (p : Nat), s.tray.inAnn = a :: rest → p ∈ allParts → a.lost = true → a.tag ≠ 0 →
    (s.sq p).tag = a.tag → s.now < a.time + 200000 → Gives .announcementReceived s fun t =>
      t.tray.inAnn = rest ∧ (⟨a.node, a.endp, a.time + 200000⟩ : PeerHold) ∈ (t.sq p).holds) ∧
  (∀ (s : State) (p : Nat), Gives (.peerHoldExpire p) s fun t =>
    ∀ h ∈ (t.sq p).holds, s.now < h.expires ∧ h ∈ (s.sq p).holds)

/-- R750, R751: the rows of time complete. -/
def Obligations.TimeRowsComplete : Prop :=
  (∀ (s : State) (r : RegReq) (v : Word), s.grants r Reg.MGT_TIME_OFS_HI = true → Gives (.timeOffsetWrite r v) s fun t =>
    t.timeOfs = s.rn Reg.MGT_TIME_OFS_LO + 4294967296 * v.toNat ∧ t.ofsSet = true) ∧
  (∀ (s : State) (r : RegReq) (v : Word), s.grants r Reg.MGT_TPROBE_CTRL = true → Fld.MGT_TPROBE_CTRL_GO.get v = 1 →
    s.flag Reg.MGT_TPROBE_STAT Fld.MGT_TPROBE_STAT_BUSY = false → Gives (.timeProbe r v) s fun t =>
      t.flag Reg.MGT_TPROBE_STAT Fld.MGT_TPROBE_STAT_BUSY = true ∧
        t.tray.probe = some (Fld.MGT_TPROBE_CTRL_PORT.get v, s.trayTime, s.now)) ∧
  (∀ (s : State) (n : Nat), Gives (.timeProbeReceived n) s fun t => t = s.sendSpdm n (replyMsg s.trayTime s.trayTime)) ∧
  (∀ (s : State) (n t1 at_ t2 t3 : Nat), s.tray.probe = some (n, t1, at_) → Gives (.timeReply n t2 t3 false) s fun t =>
    t.tray.probe = none ∧ t.flag Reg.MGT_TPROBE_STAT Fld.MGT_TPROBE_STAT_VALID = true ∧
      t.rd64 Reg.MGT_TPROBE_OFS_LO =
        unsigned 64 ((((t2 : Int) - t1) - ((s.trayTime : Int) - t3)).fdiv 2)) ∧
  (∀ (s : State) (n t1 at_ : Nat), s.tray.probe = some (n, t1, at_) → at_ + 100000 ≤ s.now → Gives .timeProbeTimeout s fun t =>
    t.tray.probe = none ∧ t.flag Reg.MGT_TPROBE_STAT Fld.MGT_TPROBE_STAT_TIMEOUT = true)

/-- R753 to R755: the rows of the management interfaces complete. -/
def Obligations.ManagementRowsComplete : Prop :=
  (∀ (s : State) (a : Nat), Gives (.entdaa a) s fun t => t = { s with dynAddr := some a }) ∧
  (∀ (s : State) (a : Nat), s.flag Reg.MGT_TB_STAT Fld.MGT_TB_STAT_DUP_SLOT = false → s.traySlot ≤ 8 → Gives (.setdasa (0x50 + s.traySlot) a) s fun t =>
    t = { s with dynAddr := some a }) ∧
  (∀ (s : State) (a : Nat), s.bootStage = 3 → Gives (.getSensorReading a 5) s fun t =>
    t = s.emit (.message a 2 0x11 (leBytes 2 5 ++ leBytes 8 (s.fget Reg.PWR_TEMP Fld.PWR_TEMP_TJ)))) ∧
  (∀ (s : State) (a rcv : Nat), s.bootStage = 3 → Gives (.setEventReceiver a rcv) s fun t => t.eventRcv = some rcv) ∧
  (∀ (s : State) (a : Nat) (e : PlatEvent) (rest : List PlatEvent), s.bootStage = 3 → s.events = e :: rest →
    Gives (.pollForPlatformEvent a) s fun t =>
      t = s.emit (.message a 2 0x0B (leBytes 4 e.id ++ leBytes 2 e.kind ++ leBytes 4 e.arg))) ∧
  (∀ (s : State) (n : Nat), Gives (.platformEventAck n) s fun t =>
    t = { s with events := s.events.filter fun e => e.id != n })

/-! ## The Leold ports -/

/-- R365 to R370: the rows of training complete. -/
def Obligations.TrainingRowsComplete : Prop :=
  (∀ (s : State) (n : Nat), s.training n tHold = true → s.trainIdx n = 0 → s.wired n = false → Gives (.trainHold n) s fun t =>
    t.trainIdx n = Fld.LL_TRAIN_0_NEXT_OK.get (s.port n).act0) ∧
  (∀ (s : State) (n mask : Nat), s.training n tDetect = true → 4 ≤ popcount 8 mask → s.wired n = false →
    Gives (.trainDetect n mask) s fun t => t.trainIdx n = Fld.LL_TRAIN_0_NEXT_OK.get (s.port n).act0) ∧
  (∀ (s : State) (n rx tx : Nat), s.training n tLanes = true →
    ((rx &&& tx) % 256 = 255 → s.wired n = false →
      Gives (.trainLanes n rx tx) s fun t => t.trainIdx n = Fld.LL_TRAIN_0_NEXT_OK.get (s.port n).act0) ∧
    ((rx &&& tx) % 256 ≠ 255 → (rx &&& tx) % 16 = 15 →
      Gives (.trainLanes n rx tx) s fun t => t.trainIdx n = Fld.LL_TRAIN_0_NEXT_ALT.get (s.port n).act0)) ∧
  (∀ (s : State) (n : Nat) (b : List Byte), s.training n tCaps = true → 8 ≤ n → (s.port n).lanes = 255 → capsOk b = true →
    let peer := sliceB b 8 64
    leAt peer 5 1 = 255 → s.flag (Reg.LL_PORT_CTRL n) Fld.LL_PORT_CTRL_CHECK = false → Gives (.trainCaps n b) s fun t =>
      t.fget (Reg.LL_PEER n) Fld.LL_PEER_NODE = leAt peer 0 3 % 1048576 ∧
        t.trainIdx n = if s.gen2Offer n ∧ bitOf (leAt peer 4 1) 1 then Fld.LL_TRAIN_0_NEXT_OK.get (s.port n).act0
          else Fld.LL_TRAIN_0_NEXT_ALT.get (s.port n).act0) ∧
  (∀ (s : State) (n corrected symbols : Nat), s.training n tQual = true → corrected * 100000 ≤ symbols → s.wired n = false →
    Gives (.trainQual n 0 corrected symbols) s fun t => t.trainIdx n = Fld.LL_TRAIN_0_NEXT_OK.get (s.port n).act0) ∧
  (∀ (s : State) (n : Nat), s.training n tInit = true → s.wired n = false → Gives (.trainInit n true) s fun t =>
    t.trainIdx n = Fld.LL_TRAIN_0_NEXT_OK.get (s.port n).act0 ∧ (t.port n).txSeq = 0 ∧ (t.port n).rxSeq = 0) ∧
  (∀ (s : State) (n : Nat) (a : LinkAuth), s.training n tAuth = true → s.wired n = false → s.admits a = true →
    s.canLoad (txSlot n) = true → s.canLoad (rxSlot n) = true → (∀ b ∈ a.binds, b.1 ∈ allParts) →
    Gives (.trainAuth n a) s fun t =>
      let ok := Fld.LL_TRAIN_0_NEXT_OK.get (s.port n).act0
      t.trainIdx n = ok ∧ (Fld.LL_TRAIN_0_ACTION.get (s.rd (Reg.LL_TRAIN_0 n ok)) ≠ tHold → ok ≠ 0 →
        (t.key (txSlot n)).key = a.txKey ∧ (t.key (rxSlot n)).key = a.rxKey)) ∧
  (∀ (s : State) (n : Nat), s.training n tActive = true → (s.port n).up = false → Gives (.trainActive n) s fun t =>
    (t.port n).up = true) ∧
  (∀ (s : State) (n : Nat), s.training n (s.port n).action = true → (s.port n).action ≠ tHold → (s.port n).action ≠ tActive →
    Fld.LL_TRAIN_1_TMO.get (s.port n).act1 ≠ 0 →
    (s.port n).began + 100 * Fld.LL_TRAIN_1_TMO.get (s.port n).act1 ≤ s.now → Gives (.trainTimeout n) s fun t =>
      let tries := Fld.LL_TRAIN_0_TRIES.get (s.port n).act0
      if tries ≠ 0 ∧ tries ≤ (s.port n).tries + 1 then t.trainIdx n = Fld.LL_TRAIN_0_NEXT_FAIL.get (s.port n).act0
      else (t.port n).tries = (s.port n).tries + 1 ∧ (t.port n).began = s.now) ∧
  (∀ (s : State) (n lane : Nat), lane < 8 → Gives (.laneLockLoss n lane) s fun t => bitOf (t.port n).lanes lane = false)

/-- R388, R392, R398: the rows that write a port's registers complete. -/
def Obligations.PortRegisterRowsComplete : Prop :=
  (∀ (s : State) (r : RegReq) (n : Nat), n < 16 → s.grants r (Reg.LL_PORT_CTRL n) = true →
    (Gives (.portEnable r n true) s fun t => t.flag (Reg.LL_PORT_CTRL n) Fld.LL_PORT_CTRL_EN = true) ∧
    (Gives (.portEnable r n false) s fun t =>
      t.flag (Reg.LL_PORT_CTRL n) Fld.LL_PORT_CTRL_EN = false ∧ t.trainIdx n = 0)) ∧
  (∀ (s : State) (r : RegReq) (n : Nat), s.training n tActive = true → s.grants r (Reg.LL_PORT_CTRL n) = true →
    Gives (.portRetrainCmd r n) s fun t => t.trainIdx n = Fld.LL_TRAIN_0_NEXT_FAIL.get (s.port n).act0) ∧
  (∀ (s : State) (r : RegReq) (n : Nat), s.grants r (Reg.LL_PORT_CTRL n) = true → Gives (.portRekeyCmd r n) s fun t =>
    t = s.setPort n { s.port n with txDue := true, rxDue := true }) ∧
  (∀ (s : State) (r : RegReq) (n : Nat), n < 16 → s.grants r (Reg.LL_PORT_CTRL n) = true → Gives (.trainLock r n) s fun t =>
    t.flag (Reg.LL_PORT_CTRL n) Fld.LL_PORT_CTRL_TLOCK = true) ∧
  (∀ (s : State) (r : RegReq) (n i : Nat) (v : Word), n < 16 → i < 16 → s.grants r (Reg.LL_TRAIN_1 n i) = true →
    s.flag (Reg.LL_PORT_CTRL n) Fld.LL_PORT_CTRL_TLOCK = false → Gives (.trainTableWrite r n (2 * i + 1) v) s fun t =>
      t.rd (Reg.LL_TRAIN_1 n i) = v) ∧
  (∀ (s : State) (r : RegReq) (n w : Nat) (v : Word), n < 16 → w < 9 → s.grants r (Reg.LL_SLOT n w) = true →
    (∀ p ∈ allParts, s.partState p = 0) → Gives (.llSlotWrite r n w v) s fun t => ∀ i, i < 8 →
      let x := bitsOf v.toNat (4 * i) 4
      bitsOf (t.rn (Reg.LL_SLOT n w)) (4 * i) 4 =
        if 1 ≤ 8 * w + i ∧ 8 * w + i ≤ 64 ∧ 1 ≤ x ∧ x ≤ 4 then x else bitsOf (s.rn (Reg.LL_SLOT n w)) (4 * i) 4)

/-- R357 to R364, R371 to R380, R427: the rows of frames complete. -/
def Obligations.FrameRowsComplete : Prop :=
  (∀ (s : State) (n fec : Nat) (v : List Byte), n < 16 → (s.port n).linked = true → 32 ≤ v.length → v.length ≤ 4096 →
    v.length % 32 = 0 →
    let seq := ((s.port n).rxSeq + 1) % seqMod
    let src := s.fget (Reg.LL_PEER n) Fld.LL_PEER_NODE / 8 * 8
    Gives (.linkFrameReceive n (withCrc (leBytes 8 (seq + 2 ^ 60) ++ frameHeader 5 0 0 v.length 0 0 0 src 0 0 ++ v ++
        List.replicate 16 0#8)) fec) s fun t =>
      (t.port n).rxSeq = seq ∧ (t.port n).inbox = (s.port n).inbox ++ [(⟨5, 0, 0, 0, 0, v⟩ : RxFrame)]) ∧
  (∀ (s : State) (n : Nat) (f : RxFrame) (rest : List RxFrame) (x : RxWin), (s.port n).inbox = f :: rest → f.typ = 1 →
    s.aborted f.part = false →
    ((s.win f.part).rx.find? fun (x : RxWin) => x.armed && x.w.port == n && x.w.win == f.wtag) = some x →
    f.woff + f.payload.length ≤ x.w.len → Gives (.schedFrame n) s fun t =>
      (t.port n).inbox = rest ∧ t.cores.sram = (s.sramWr x.w.core (x.w.addr + f.woff) f.payload).cores.sram) ∧
  (∀ (s : State) (n : Nat) (f : RxFrame) (rest : List RxFrame), (s.port n).inbox = f :: rest → s.aborted f.part = false →
    (f.typ = 2 → Gives (.ctlFrame n) s fun t =>
      (t.port n).inbox = rest ∧ (t.port n).held = (s.port n).held ++ [f]) ∧
    (f.typ = 3 → Gives (.armFrame n) s fun t =>
      (t.port n).inbox = rest ∧
        (t.win f.part).arms = (s.win f.part).arms ++ [(⟨n, f.wtag, f.woff, (s.sq f.part).beat, s.now⟩ : Arm)]) ∧
    (∀ (binds : List (Nat × Nat × Nat)),
      let m := (f.payload.drop 4).take (leAt f.payload 0 4)
      let v := if (s.port n).session = 0 then m else Config.openedMessage n m
      f.typ = 5 → leAt v 1 1 ≠ 0x85 → Gives (.spdmFrame ⟨n, binds⟩) s fun t => (t.port n).inbox = rest ∧ (t.port n).spdm = v ∧
        ((s.port n).session ≠ 0 → ∀ b ∈ binds, t.flag (Reg.LL_BIND n b.1) Fld.LL_BIND_VALID = true)) ∧
    (f.typ = 6 → ∀ x, ((s.win f.part).rx.find? fun (x : RxWin) => x.armed && x.w.port == n && x.w.win == f.wtag) = some x →
      Gives (.abortFrame n) s fun t => (t.port n).inbox = rest ∧
        (t.win f.part).rx = (s.win f.part).rx.filter fun (y : RxWin) => y.w.id != x.w.id)) ∧
  (∀ (s : State) (n : Nat) (b : List Byte), (s.port n).linked = true → b.length = 32 → crcOk b = true →
    bitsOf (leAt b 0 8) 60 4 = 2 → Gives (.idleBlock n b) s fun t =>
      (t.port n).replay = (s.port n).replay.filter fun (f : Sealed) => !seqGe (bitsOf (leAt b 0 8) 24 24) f.seq) ∧
  (∀ (s : State) (n : Nat), (s.port n).nakIn = true → (s.port n).replay ≠ [] →
    (∀ f ∈ (s.port n).replay, f.replays < 8) → Gives (.nakReplay n) s fun t =>
      (t.port n).nakIn = false ∧ (t.port n).resend = (s.port n).replay.map fun (f : Sealed) => f.seq) ∧
  (∀ (s : State) (n : Nat) (v : List Byte) (bad : SramErrs), (s.port n).linked = true → (s.port n).nakIn = false →
    (s.port n).resend = [] → (s.port n).replay = [] → (s.port n).queue = [(⟨0, 5, 0, 0, v⟩ : TxFrame)] → v.length ≤ 4096 →
    Gives (.frameSend n 0 bad) s fun t =>
      (t.port n).queue = [] ∧ (t.port n).txSeq = ((s.port n).txSeq + 1) % seqMod ∧
        ∃ body, (t.port n).replay = [(⟨(t.port n).txSeq, 0, 5, body, 0⟩ : Sealed)])

/-- R385, R386: the rows of link keys complete. -/
def Obligations.LinkKeyRowsComplete : Prop :=
  (∀ (s : State) (n dir : Nat), s.linkSecure n = true →
    (if dir = 0 then (s.port n).txSwap else (s.port n).rxSwap) +
      s.fget (Reg.LL_REKEY_CFG n) Fld.LL_REKEY_CFG_HOURS * 360000000000 ≤ s.now → Gives (.rekeyTimer n dir) s fun t =>
        if dir = 0 then (t.port n).txDue = true else (t.port n).rxDue = true) ∧
  (∀ (s : State) (n : Nat) (key msg ver : List Byte), (s.port n).up = true → s.linkSecure n = true → (s.port n).txDue = true →
    (s.port n).nakIn = false → (s.port n).resend = [] → s.canLoad (txSlot n) = true →
    (∀ f ∈ (((s.sendSpdm n msg).spdmOut n).port n).queue, f.part ≠ 0) → Gives (.rekey ⟨n, 0⟩ key ⟨msg, ver⟩ true) s fun t =>
      (t.key (txSlot n)).key = key ∧ (t.key (txSlot n)).epoch = (s.key (txSlot n)).epoch + 1 ∧
        (t.key (txSlot n)).ctr = 0 ∧ (t.port n).txDue = false) ∧
  (∀ (s : State) (n : Nat) (key msg ver : List Byte) (ok : Bool), (s.port n).up = true → s.linkSecure n = true →
    (s.port n).rxDue = true → Gives (.rekey ⟨n, 1⟩ key ⟨msg, ver⟩ ok) s fun t => t = s.sendSpdm n msg) ∧
  (∀ (s : State) (n : Nat) (key msg : List Byte), (s.port n).up = true → (s.key (rxSlot n)).state ≠ 0 → s.canLoad (rxSlot n) = true →
    Gives (.keyUpdateReceived n key msg true) s fun t =>
      (t.key (rxSlot n)).key = key ∧
        (t.port n).oldKey = some ((s.key (rxSlot n)).key, (s.key (rxSlot n)).epoch, (s.port n).rxNext) ∧
          (t.port n).rxNext = 0)

/-! ## The sequencer and the links' windows -/

/-- R110, R162 to R165, R183 to R191: the rows of the stream's control complete. -/
def Obligations.StreamRowsComplete : Prop :=
  (∀ (s : State) (r : RegReq) (p : Nat) (errs : List ReadErr), p ∈ allParts → s.grants r (Reg.SEQ_CTRL p) = true →
    s.stopped p = true → Gives (.seqRun r p errs) s fun t =>
      let armed := s.flag (Reg.CKP_STATUS p) Fld.CKP_STATUS_RESUME_ARMED
      let x := s.runFetch p errs
      let s3 := x.1
      let l := x.2.2
      t.seqState p =
        if x.2.1 = 0 ∧ s3.headerOk p (imageHeader l) = true ∧ s3.groupsOk p (imageGroups l) = true ∧
          (s3.runFill p armed errs l).stopped p = false then
          (if s.flag (Reg.SEQ_CTRL p) Fld.SEQ_CTRL_STOP = true then seqStopped else seqGateWait) else seqFaulted) ∧
  (∀ (s : State) (r : RegReq) (p : Nat), p ∈ allParts → s.grants r (Reg.SEQ_CTRL p) = true →
    (s.seqState p = seqStopped → Gives (.seqCont r p) s fun t =>
      t.seqState p = seqGateWait ∧ (t.sq p).issue = (s.sq p).beat ∧ (t.sq p).waited = 0) ∧
    (s.seqState p = seqRunning → Gives (.seqStop r p) s fun t => t.seqState p = seqStopping ∧ (t.sq p).stopPend = true) ∧
    (s.seqState p = seqGateWait → (s.sq p).afterCommit = false → Gives (.seqStop r p) s fun t =>
      t.seqState p = seqStopped ∧ t.rn (Reg.SEQ_PC p) = (s.sq p).nxt.idx % 2 ^ 32) ∧
    (s.seqState p = seqBrkHold → Gives (.seqResume r p) s fun t => t.seqState p = seqGateWait ∧ (t.sq p).resumed = true)) ∧
  (∀ (s : State) (p : Nat) (errs : List ReadErr), p ∈ allParts → s.stopped p = false → s.halted = false →
    (s.sq p).nxt.ready = false → (s.sq p).nxt.idx < (s.sq p).nbundle → (s.sq p).cur.ends = false → s.tagWait p 0 none = false →
    let i := (s.sq p).nxt.idx
    let x := s.fetch errs p i 1
    let b := x.2.2.headD 0#512
    let n := if bType b = bMark then ctlB b 0 18 + 1 else 1
    let m := min (n + 1) ((s.sq p).nbundle - i)
    x.2.1 = 0 → n ≤ s.fget (Reg.SEQ_ISRAM p) Fld.SEQ_ISRAM_PMAX → i + n ≤ (s.sq p).nbundle → (x.1.fetch errs p i m).2.1 = 0 →
    Gives (.periodFillComplete p errs) s fun t =>
      (t.sq p).nxt = { idx := i, bundles := (x.1.fetch errs p i m).2.2, ready := true }) ∧
  (∀ (s : State) (p : Nat), s.atBoundary p = true → s.gateFalse p ≠ 0 → Gives (.gateWaitBeat p) s fun t =>
    t.rn (Reg.SEQ_LATE p) = satAdd 32 (s.rn (Reg.SEQ_LATE p)) 1 ∧ (t.sq p).waited = (s.sq p).waited + 1 ∧
      (t.sq p).issue = (s.sq p).issue + 1) ∧
  (∀ (s : State) (p : Nat), s.atBoundary p = true → s.gateFalse p = 0 → Gives (.gateOpen ⟨p, false⟩) s fun t =>
    t.seqState p = seqRunning ∧ (t.sq p).start = (s.sq p).issue ∧ (t.sq p).cur = (s.sq p).nxt ∧ (t.sq p).pos = 0 ∧
      (t.sq p).issue = (s.sq p).issue + 1 ∧ t.fget (Reg.SEQ_PERIOD p) Fld.SEQ_PERIOD_PID = ctlB (s.sq p).mark 18 16) ∧
  (∀ (s : State) (p : Nat), p ∈ allParts → s.stopped p = false → s.halted = false →
    s.rn (Reg.SEQ_CATCHUP_LIMIT p) < s.rn (Reg.SEQ_LATE p) → s.flag (Reg.SEQ_LATE_STAT p) Fld.SEQ_LATE_STAT_LOST = false →
    Gives (.schedLost p) s fun t => t.flag (Reg.SEQ_LATE_STAT p) Fld.SEQ_LATE_STAT_LOST = true) ∧
  (∀ (s : State) (r : RegReq) (p : Nat) (v : Word), p ∈ allParts → s.grants r (Reg.SEQ_CATCHUP_LIMIT p) = true →
    Gives (.catchupLimitWrite r p v) s fun t => t.rd (Reg.SEQ_CATCHUP_LIMIT p) = v) ∧
  (∀ (s : State) (r : RegReq) (p k : Nat) (v : Word), p ∈ allParts → k < 4 → s.grants r (Reg.FMT_SR_SEED p k) = true →
    s.stopped p = true → Gives (.fmtTableWrite r p (0x10 + 4 * k) v) s fun t => t.rd (Reg.FMT_SR_SEED p k) = v)

/-- R118 to R126, R186: the rows of bundles and of their CTL slots complete. -/
def Obligations.BundleRowsComplete : Prop :=
  (∀ (s : State) (p : Nat) (b : Bundle), s.issues p bExec b = true → Gives (.bundleExec p false) s fun t =>
    (t.sq p).pos = (s.sq p).pos + 1 ∧ (t.sq p).beat = (s.sq p).issue ∧ (t.sq p).issue = (s.sq p).issue + bBeats b ∧
      (t.sq p).ctlDue = bCtlV b ∧ (t.sq p).xferDue = (bXferV b && bXop b != 0)) ∧
  (∀ (s : State) (p : Nat),
    (s.ctlReady p 0 = true → Gives (.ctlNop p) s fun t => t = s.setSq p { s.sq p with ctlDue := false }) ∧
    (s.ctlReady p 1 = true → Gives (.idle p) s fun t => t = s.setSq p { s.sq p with ctlDue := false })) ∧
  (∀ (s : State) (p : Nat), s.ctlReady p 2 = true →
    let n := ctlB (s.sq p).bundle 4 16
    s.hasFence p n = true → s.fget (Reg.FEN_F p n) Fld.FEN_F_ERR = 0 → Gives (.fsig p) s fun t =>
      t.flag (Reg.FEN_F p n) Fld.FEN_F_SIG = true) ∧
  (∀ (s : State) (p : Nat) (errs : List ReadErr), s.ctlReady p 3 = true → (s.sq p).loopRec = none →
    ctlB (s.sq p).bundle 30 32 = (s.sq p).cur.idx → Gives (.loopOp p errs) s fun t =>
      (t.sq p).loopRec = some ⟨ctlB (s.sq p).bundle 4 2, ctlB (s.sq p).bundle 6 24, (s.sq p).cur.idx⟩) ∧
  (∀ (s : State) (p : Nat), s.ctlReady p 4 = true → (s.sq p).commitRec = none → Gives (.commit p) s fun t =>
    (t.sq p).commitRec = some ⟨ctlB (s.sq p).bundle 4 32, ctlB (s.sq p).bundle 36 4⟩ ∧
      t.flag (Reg.UPD_STATUS p) Fld.UPD_STATUS_PENDING = true) ∧
  (∀ (s : State) (p : Nat) (b : Bundle), s.issues p bSlack b = true → s.stopped p = false → (s.sq p).starts = [] →
    s.partRuns p = [] → Gives (.slack p false) s fun t =>
      let n := ctlB b 0 16 + 1
      let late := s.rn (Reg.SEQ_LATE p)
      (t.sq p).issue = (s.sq p).issue + (n - min late n) ∧ t.rn (Reg.SEQ_LATE p) = late - min late n) ∧
  (∀ (s : State) (p : Nat) (b : Bundle), s.issues p bEnd b = true → s.stopped p = false → Gives (.endOp p false) s fun t =>
    (t.sq p).issue = (s.sq p).issue + 1 ∧
      (t.sq p).ended = some (if ctlB b 16 1 = 1 then some (ctlB b 0 16) else none)) ∧
  (∀ (s : State) (p : Nat) (fence : Option Nat), p ∈ allParts → (s.sq p).ended = some fence → s.stopped p = false →
    s.canRun p (max (s.sq p).beat (s.sq p).issue) = true → (∀ n, n < 32 → s.cset p n = 0) → (s.sq p).starts = [] →
    s.partRuns p = [] → Gives (.endComplete p) s fun t =>
      t.seqState p = seqStopped ∧ (t.sq p).ended = none ∧ t.rn (Reg.SEQ_PC p) = ((s.sq p).cur.idx + (s.sq p).cur.len) % 2 ^ 32) ∧
  (∀ (s : State) (p : Nat), p ∈ allParts → s.seqState p = seqRunning → (s.sq p).ended = none →
    (s.sq p).cur.len ≤ (s.sq p).pos + 1 → (s.sq p).opsDue = false → s.canRun p (s.sq p).issue = true → (s.sq p).starts = [] →
    s.partRuns p = [] → (s.sq p).commitRec = none → (s.sq p).stopPend = false → Gives (.periodEnd p) s fun t =>
      t.seqState p = seqGateWait ∧
        ((s.sq p).loopRec = none → (t.sq p).nxt.idx = (s.sq p).cur.idx + (s.sq p).cur.len) ∧
        (∀ l, (s.sq p).loopRec = some l → l.lvl < 4 → s.loopCnt p l.lvl < l.tripm1 →
          (t.sq p).nxt.idx = l.target ∧ t.rn (Reg.SEQ_LOOP p l.lvl) = s.loopCnt p l.lvl + 1))

/-- R130 to R135: the rows of bodies complete. -/
def Obligations.BodyRowsComplete : Prop :=
  (∀ (s : State) (p i : Nat), p ∈ allParts → s.stopped p = false → s.halted = false →
    (if i = 0 then (s.sq p).grp0Due else (s.sq p).grp1Due) = true →
    let x := startBits (s.sq p).bundle i
    (s.sq p).beat - (s.sq p).start + 6 ≤ bitsOf x 49 20 → bitsOf x 11 11 + bitsOf x 22 11 ≤ 2015 →
    Gives (.grpStart p i) s fun t =>
      ∃ st : Start, (t.sq p).starts = (s.sq p).starts ++ [st] ∧ st.umask = bitsOf x 1 10 ∧ st.addr = bitsOf x 11 11 ∧
        st.lenm1 = bitsOf x 22 11 ∧ st.tripm1 = bitsOf x 33 16 ∧ st.beat = (s.sq p).start + bitsOf x 49 20) ∧
  (∀ (s : State) (p : Nat) (x : Start), p ∈ allParts → (s.sq p).starts = [x] → s.stopped p = false →
    s.canRun p x.beat = true → x.beat < (s.sq p).bodyLimit → s.cores.runs = [] → (s.sq p).xfers = [] → Gives (.bodyStart p) s fun t =>
      (t.sq p).starts = [] ∧ ∀ cu ∈ s.startUnits p x, ∃ r : Run, t.runOf (s.pcore p cu.1) cu.2 = some r ∧ r.part = p ∧
        r.addr = x.addr ∧ r.lenm1 = x.lenm1 ∧ r.tripm1 = x.tripm1 ∧ r.beat = x.beat ∧ r.trip = 0) ∧
  (∀ (s : State) (p core u : Nat) (r : Run), s.runOf (s.pcore p core) u = some r → r.part = p → s.stopped p = false →
    r.done = true → s.canRun p r.beat = true → Gives (.bodyEnd p core u) s fun t =>
      t.runOf (s.pcore p core) u = none)

/-- R150 to R156: the rows of transfers complete. -/
def Obligations.TransferRowsComplete : Prop :=
  (∀ (s : State) (p : Nat),
    let b := (s.sq p).bundle
    let len := 32 * (xferB b 33 18 + 1)
    let cores := s.group p (xferB b 9 6)
    let mem (k : Nat) : Nat := xferB b 51 56 + k * xferB b 107 24 * 32
    32 * xferB b 15 18 + len ≤ 8388608 → (∀ k, k < cores.length → mem k % 32 = 0) → s.cset p (bCset b) + 128 ≤ 65535 →
    (s.xferReady p 1 = true → (∀ k, k < cores.length → (s.checkRun p mCoreRd true (mem k) len).2 = 0) →
      Gives (.xferMemrd p) s fun t => ∃ l, (t.sq p).xfers = (s.sq p).xfers ++ l ∧ l.length = min 128 cores.length ∧
        ∀ x ∈ l, x.kind = .memrd ∧ x.len = len ∧ x.addr = 32 * xferB b 15 18) ∧
    (s.xferReady p 2 = true → (∀ k, k < cores.length → (s.checkRun p mCoreWr true (mem k) len).2 = 0) →
      Gives (.xferMemwr p) s fun t => ∃ l, (t.sq p).xfers = (s.sq p).xfers ++ l ∧ l.length = min 128 cores.length ∧
        ∀ x ∈ l, x.kind = .memwr ∧ x.len = len ∧ x.addr = 32 * xferB b 15 18)) ∧
  (∀ (s : State) (p : Nat),
    let b := (s.sq p).bundle
    let n := xferB b 36 11 + 1
    let cores := s.group p (xferB b 9 6)
    s.xferReady p 6 = true → xferB b 25 11 + n ≤ 2048 → s.cset p (bCset b) + 128 ≤ 65535 → s.partRuns p = [] →
    (∀ k, k < cores.length → (s.checkRun p mCoreRd true (xferB b 47 56 + k * xferB b 103 24 * 32) (8 * n)).2 = 0) →
    Gives (.rload p) s fun t => ∃ l, (t.sq p).xfers = (s.sq p).xfers ++ l ∧ l.length = min 128 cores.length ∧
      ∀ x ∈ l, x.kind = .rload ∧ x.len = 8 * n ∧ x.addr = xferB b 25 11) ∧
  (∀ (s : State) (p n : Nat) (errs : List ReadErr) (bad : SramErrs) (x : Xfer), (s.sq p).xfers[n]? = some x →
    s.tagWait p 2 (some (s.lcore p x.core)) = false → s.keyCode p (addrKid x.mem) (x.kind == .memwr) = 0 →
    let v := s.issueView p x.id
    (x.kind = .memrd → Gives (.memTransferComplete p n errs bad) s fun t =>
      let y := v.readRun errs p true false x.mem x.len
      (t.sq p).xfers = (s.sq p).xfers.erase x ∧ t.cores.sram = (y.1.sramWr x.core x.addr y.2.bytes).cores.sram) ∧
    (x.kind = .memwr → Gives (.memTransferComplete p n errs bad) s fun t =>
      let y := v.sramX p bad x.core x.addr x.len
      (t.sq p).xfers = (s.sq p).xfers.erase x ∧ t.dram = (y.1.writeRun errs p false false x.mem y.2).1.dram)) ∧
  (∀ (s : State) (p n : Nat) (errs : List ReadErr) (x : Xfer), (s.sq p).xfers[n]? = some x → x.kind = .rload →
    s.tagWait p 1 none = false → s.keyCode p (addrKid x.mem) false = 0 → x.addr + x.len / 8 ≤ 2048 →
    Gives (.rloadComplete p n errs) s fun t =>
      let v := ((s.issueView p x.id).readRun errs p false false x.mem x.len).2.bytes
      (t.sq p).xfers = (s.sq p).xfers.erase x ∧ ∀ u j, u < 10 → bitOf x.umask u = true → j < x.len / 8 →
        t.replayAt x.core u (x.addr + j) = leNat ((v.drop (8 * j)).take 8)) ∧
  (∀ (s : State) (p : Nat) (errs : List ReadErr), s.xferReady p 3 = true →
    let b := (s.sq p).bundle
    let n := xferB b 73 12 + 1
    (∀ j, j < 8 → bitOf (xferB b 9 8) j = true → j < s.nstacks p) → (s.checkRun p mNmeFetch true (xferB b 17 56) (64 * n)).2 = 0 →
    s.cset p (bCset b) + 8 ≤ 65535 → Gives (.xferNme p errs) s fun t =>
      (t.sq p).xferDue = false ∧ ∀ j, j < 8 → bitOf (xferB b 9 8) j = true →
        let k := s.stack0 p + j
        ∃ recs, (t.stk k).queue ++ (t.stk k).backlog = (s.stk k).queue ++ (s.stk k).backlog ++ recs ∧ recs.length = n) ∧
  (∀ (s : State) (p : Nat) (errs : List ReadErr), s.xferReady p 7 = true →
    let b := (s.sq p).bundle
    let x := (s.checkRun p mUpdFetch true (xferB b 9 56) 64).1.readRun errs p false false (xferB b 9 56) 64
    (s.checkRun p mUpdFetch true (xferB b 9 56) 64).2 = 0 → s.cset p (bCset b) + 8 ≤ 65535 → Gives (.xferUpd p errs) s fun t =>
      (t.sq p).xferDue = false ∧
        (x.1.descCode p x.2.bytes = 0 → dStacks x.2.bytes ≠ [] →
          ∃ st : UpdStream, (t.up p).streams = (x.1.up p).streams ++ [st] ∧ st.desc = x.2.bytes) ∧
        (x.1.descCode p x.2.bytes ≠ 0 → (t.up p).nf = true))

/-- R148, R153, R375 to R378, R401, R402: the rows of windows and mesh landings complete. -/
def Obligations.WindowRowsComplete : Prop :=
  (∀ (s : State) (p l u : Nat), s.xferReady p 4 = true →
    let b := (s.sq p).bundle
    ((List.range 16).filter fun l => bitOf (xferB b 9 16) l) = [l] → s.portMap p l < 16 →
    s.rbAddr p (xferB b 25 9) (xferB b 34 11) (xferB b 45 11 + 1) = some u → s.cset p (bCset b) < 65535 →
    Gives (.lltx p) s fun t => s.cset p (bCset b) + 1 = t.cset p (bCset b) ∧
      ∃ x : TxWin, (t.win p).tx = (s.win p).tx ++ [x] ∧ x.w.port = s.portMap p l ∧ x.w.win = xferB b 56 20 ∧
        x.w.len = 32 * (xferB b 45 11 + 1) ∧ x.due = (s.sq p).start + xferB b 56 20) ∧
  (∀ (s : State) (p u : Nat), s.xferReady p 5 = true →
    let b := (s.sq p).bundle
    s.portMap p (xferB b 9 4) < 16 →
    s.rbAddr p (xferB b 13 9) (xferB b 22 11) (xferB b 33 11 + 1) = some u → s.cset p (bCset b) < 65535 →
    Gives (.llrx p) s fun t => ∃ x : RxWin, (t.win p).rx = (s.win p).rx ++ [x] ∧ x.w.port = s.portMap p (xferB b 9 4) ∧
      x.w.win = xferB b 44 20 ∧ x.w.len = 32 * (xferB b 33 11 + 1) ∧ x.got = []) ∧
  (∀ (s : State) (p core : Nat) (bad : SramErrs) (l : MeshLand), s.seqState p ≠ seqFaulted →
    ((s.sq p).mesh.filter fun (l : MeshLand) => l.dst == s.pcore p core) = [l] → s.canRun p l.beat = true → l.kind ≠ 2 →
    l.add = false → Gives (.meshLanding p core bad) s fun t =>
      t.cores.sram = ((s.advance p l.beat).sramWr l.dst l.addr l.bytes).cores.sram ∧ l ∉ (t.sq p).mesh) ∧
  (∀ (s : State) (p port : Nat) (bad : SramErrs) (x : TxWin) (a : Arm), port < 16 → (s.win p).tx = [x] → x.w.port = port →
    (s.win p).arms = [a] → a.port = port → a.win = x.w.win → a.len = x.w.len → x.due ≤ (s.sq p).beat → Gives (.windowSendStart p port bad) s fun t =>
      (t.win p).tx = [] ∧ (t.win p).arms = [] ∧ (t.win p).sending = (s.win p).sending ++ [x]) ∧
  (∀ (s : State) (p port : Nat) (x : RxWin),
    ((s.win p).rx.find? fun (x : RxWin) => !x.armed && x.w.port == port) = some x → s.armedOn p port < 16 →
    Gives (.windowArmRelease p port) s fun t =>
      (t.win p).rx = (s.win p).rx.map fun (y : RxWin) => if y.w.id = x.w.id then { y with armed := true } else y)

/-! ## Engines -/

/-- R140 to R143, R212 to R219: the rows of the matrix engine complete. -/
def Obligations.MatrixRowsComplete : Prop :=
  ∀ (s : State) (p core e : Nat) (r : Run), e < 8 → s.unitDue p core e r = true →
    let x := s.beatOf p core e r
    let s1 := s.advance p r.beat
    let bank := 2 * e + mop x.m 12 1
    (mopOpc x.m = 0 → Gives (.meNop p core e noErr) s fun t => s.beatDone t p core e r r.buf []) ∧
    (∀ f, mopOpc x.m = 1 → r.mb = 0 → s.fmt p (mop x.m 30 5) = some f → s1.fill x.phys e = none → s.portsFree p r.beat = true →
      Gives (.wload p core e noErr) s fun t =>
        let c := clsSize (mop x.m 53 3)
        let wa := s1.effAddr x.phys e r.trip (mop x.m 13 14) (mop x.m 27 3) 16384
        let d := s1.reads p x.phys 0 (bankByte bank wa) (c * c * f.bits / 8)
        t.fill x.phys e = some (r.beat, bank) ∧
          ∃ sc, s.beatDone t p core e r r.buf [⟨r.beat + 16, .plane (planeKey x.phys e 1) ⟨f, mop x.m 53 3, mop x.m 35 1 == 1, d, sc⟩⟩]) ∧
    (∀ f, mopOpc x.m = 2 → r.mb = 0 → mop x.m 53 1 = 0 → s.fmt p (mop x.m 30 5) = some f → s.portsFree p r.beat = true →
      max f.cls (s1.plane x.phys e 0).fmt.cls = (s1.plane x.phys e 0).cls → mop x.m 56 8 + vecsBefore (s1.plane x.phys e 0).cls x.n ≤ 256 →
      ((s1.plane x.phys e 0).cls = 1 → x.n % 3 = 0) → Gives (.mma p core e noErr) s fun t =>
        let w := s1.plane x.phys e 0
        let c := clsSize w.cls
        let zero := mop x.m 54 2 = 1 ∨ (mop x.m 54 2 = 2 ∧ r.trip = 0)
        s.beatDone t p core e r r.buf ((List.range (vecsBefore w.cls 1)).map fun v =>
          ⟨x.endBeat, .acc (accKey x.phys e (mop x.m 56 8 + v)) (toWords ((List.range c).map fun o =>
            accumulate w.cls (s1.actVec x f c v) w o (if zero then 0 else s1.accElt x.phys e (mop x.m 56 8 + v) o)))⟩)) ∧
    (mopOpc x.m = 3 → mop x.m 30 8 + x.n ≤ 256 → s.portsFree p r.beat = true → Gives (.mout p core e noErr) s fun t =>
      let c := s1.accOuts x.phys e (mop x.m 30 8 + r.mb)
      let oa := (s1.effAddr x.phys e r.trip (mop x.m 13 14) (mop x.m 27 3) 16384 + 16 * r.mb) % 16384
      let base := x.phys * 8388608 + bank * 524288
      ∃ b0 b1, b0 ++ b1 = ((List.range c).map (s1.accElt x.phys e (mop x.m 30 8 + r.mb)) ++ List.replicate (128 - c) 0).flatMap
          (leBytes 4) ∧
        s.beatDone t p core e r r.buf [⟨r.beat + 2, .sram (base + oa * 32) b0⟩, ⟨r.beat + 2, .sram base b1⟩])

/-- R144, R220, R223: the lane-by-lane rows of the vector engine complete with the function the row names. -/
def Obligations.LaneRowsComplete : Prop :=
  ∀ (s : State) (p core : Nat) (r : Run), s.unitDue p core 8 r = true →
    let m := (s.beatOf p core 8 r).m
    (mopOpc m = 3 →
      (mop m 36 6 = 0 → LaneRow (.valuAdd p core noErr) s p core r 4 1 fun a b _ => add32 a b) ∧
      (mop m 36 6 = 1 → LaneRow (.valuSub p core noErr) s p core r 4 1 fun a b _ => sub32 a b) ∧
      (mop m 36 6 = 2 → LaneRow (.valuMul p core noErr) s p core r 4 1 fun a b _ => mul32 a b) ∧
      (mop m 36 6 = 3 → LaneRow (.valuFma p core noErr) s p core r 4 1 fma32) ∧
      (mop m 36 6 = 4 → LaneRow (.valuMax p core noErr) s p core r 4 1 fun a b _ => max32 a b) ∧
      (mop m 36 6 = 5 → LaneRow (.valuMin p core noErr) s p core r 4 1 fun a b _ => min32 a b) ∧
      (mop m 36 6 = 6 → LaneRow (.valuDiv p core noErr) s p core r 1 3 fun a b _ => div32 a b) ∧
      (mop m 36 6 = 7 → LaneRow (.valuSqrt p core noErr) s p core r 1 3 fun a _ _ => sqrt32 a) ∧
      (mop m 36 6 = 8 → LaneRow (.valuAbs p core noErr) s p core r 4 1 fun a _ _ => abs32 a) ∧
      (mop m 36 6 = 9 → LaneRow (.valuNeg p core noErr) s p core r 4 1 fun a _ _ => neg32 a) ∧
      (mop m 36 6 = 10 → LaneRow (.valuSel p core noErr) s p core r 4 1 vSel) ∧
      (mop m 36 6 = 11 → LaneRow (.valuCmpgt p core noErr) s p core r 4 1 fun a b _ => vCmpGt a b) ∧
      (mop m 36 6 = 12 → LaneRow (.valuMov p core noErr) s p core r 4 1 fun a _ _ => vMov a)) ∧
    (mopOpc m = 4 →
      (mop m 24 4 = 0 → LaneRow (.vtrExp p core noErr) s p core r 1 3 fun a _ _ => vExp a) ∧
      (mop m 24 4 = 1 → LaneRow (.vtrExp2 p core noErr) s p core r 1 3 fun a _ _ => vExp2 a) ∧
      (mop m 24 4 = 2 → ∃ open_ : Nat → Nat, LaneRow (.vtrLog p core noErr) s p core r 1 3 fun a _ _ => vLog (open_ a) a) ∧
      (mop m 24 4 = 3 → LaneRow (.vtrRecip p core noErr) s p core r 1 3 fun a _ _ => vRecip a) ∧
      (mop m 24 4 = 4 → LaneRow (.vtrRsqrt p core noErr) s p core r 1 3 fun a _ _ => vRsqrt a) ∧
      (mop m 24 4 = 5 → LaneRow (.vtrTanh p core noErr) s p core r 1 3 fun a _ _ => vTanh a) ∧
      (mop m 24 4 = 6 → LaneRow (.vtrSigmoid p core noErr) s p core r 1 3 fun a _ _ => vSigmoid a) ∧
      (mop m 24 4 = 7 → LaneRow (.vtrGelu p core noErr) s p core r 1 3 fun a _ _ => vGelu a) ∧
      (mop m 24 4 = 8 → LaneRow (.vtrSin p core noErr) s p core r 1 3 fun a _ _ => vSin a) ∧
      (mop m 24 4 = 9 → LaneRow (.vtrCos p core noErr) s p core r 1 3 fun a _ _ => vCos a))

/-- R144, R220, R221: the reductions of the vector engine complete with the operation the row names. -/
def Obligations.ReductionRowsComplete : Prop :=
  ∀ (s : State) (p core : Nat) (r : Run), s.unitDue p core 8 r = true →
    let m := (s.beatOf p core 8 r).m
    mopOpc m = 5 →
      (mop m 24 2 = 0 → ReduceRow (.vredSum p core noErr) s p core r add32 fun a => a) ∧
      (mop m 24 2 = 1 → ReduceRow (.vredMax p core noErr) s p core r max32 fun a => a) ∧
      (mop m 24 2 = 2 → ReduceRow (.vredMin p core noErr) s p core r min32 fun a => a) ∧
      (mop m 24 2 = 3 → ReduceRow (.vredSumsq p core noErr) s p core r add32 fun a => mul32 a a)

/-- R145, R146, R220: the loads, stores and draws of the vector engine complete. -/
def Obligations.VectorMemoryRowsComplete : Prop :=
  ∀ (s : State) (p core : Nat) (r : Run), s.unitDue p core 8 r = true →
    let x := s.beatOf p core 8 r
    let s1 := s.advance p r.beat
    let a := s1.effAddr x.phys 8 r.trip (mop x.m 18 18) (mop x.m 36 3) 262144
    (mopOpc x.m = 0 → Gives (.veNop p core noErr) s fun t => s.beatDone t p core 8 r r.buf []) ∧
    (∀ f, mopOpc x.m = 1 → s.fmt p (mop x.m 39 5) = some f → f.scaled = false → f ≠ .f32 → x.n = 1 → r.mb = 0 →
      s.portsFree p r.beat = true → Gives (.vld p core noErr) s fun t =>
        ∃ buf, s.beatDone t p core 8 r buf [⟨x.endBeat - 1 + 2, .vreg (vregKey x.phys (mop x.m 12 6)) (toWords
          ((unpackCodes f.bits 512 (s1.reads p x.phys 0 (fun i => a * 32 + i) (64 * f.bits))).map fun c => enc32 (f.decode c)))⟩]) ∧
    (∀ f, mopOpc x.m = 2 → s.fmt p (mop x.m 39 5) = some f → f.scaled = false → r.mb = 0 → mop x.m 45 1 = 0 →
      s.portsFree p r.beat = true → Gives (.vst p core noErr) s fun t =>
        s.beatDone t p core 8 r r.buf [⟨x.endBeat + 1, .sram (sramKey x.phys (32 * a)) (convert512 f (mop x.m 44 1 == 1)
          (mop x.m 49 1 == 1) (List.replicate 512 .rne) ((List.range 512).map (s1.lane x.phys (mop x.m 12 6)))).data⟩]) ∧
    (mopOpc x.m = 6 → r.mb = 0 → Gives (.vrnd p core noErr) s fun t =>
      s.beatDone t p core 8 r r.buf [⟨x.endBeat - 1 + 1, .vreg (vregKey x.phys (mop x.m 12 6)) (toWords ((List.range 512).map fun l =>
        enc32 (.fin false (s1.srDraw p (s1.tensorId x.phys (mop x.m 18 3)) (s1.elemBase x.phys (mop x.m 18 3) r.rank r.trip + l))
          (-16))))⟩]) ∧
    (mopOpc x.m = 7 → r.mb = 0 → Gives (.vsptr p core noErr) s fun t =>
      s.beatDone t p core 8 r r.buf [] ∧ t.sptr x.phys (mop x.m 12 1) = mop x.m 13 19)

/-- R147 to R149, R228, R408: the rows of the stream engine's micro-ops complete. -/
def Obligations.StreamEngineRowsComplete : Prop :=
  (∀ (s : State) (p core : Nat) (r : Run), s.unitDue p core 9 r = true →
    let x := s.beatOf p core 9 r
    let s1 := s.advance p r.beat
    let sends (t : State) (kind src dst addr : Nat) (v : List Byte) (add : Bool) : Prop :=
      (t.sq p).mesh = (s.sq p).mesh ++ [⟨r.beat + 24, false, kind, src, dst, addr % 8388608, v, add, none, r.pc⟩]
    let run (src : Nat) : List Byte := s1.reads p x.phys 0 (fun i => (src + i) % 8388608) 512
    (mopOpc x.m = 0 → Gives (.seNop p core noErr) s fun t => s.beatDone t p core 9 r r.buf []) ∧
    (mopOpc x.m = 1 → mop x.m 33 7 < s.ncores p → s.portsFree p r.beat = true → Gives (.scopy p core noErr) s fun t =>
      s.beatDone t p core 9 r r.buf [] ∧
        sends t 1 core (s.pcore p (mop x.m 33 7)) (s1.seAddr x 40 58) (run (s1.seAddr x 12 30)) false) ∧
    (∀ u, mopOpc x.m = 2 → s.rbAddr p (mop x.m 12 9) (mop x.m 21 11) (16 * x.n) = some u → s.portsFree p r.beat = true →
      Gives (.rbput p core noErr) s fun t => s.beatDone t p core 9 r r.buf [] ∧
        sends t 1 core (s.pcore p (s.rbPlace p u).1) ((s.rbPlace p u).2 + 512 * r.mb) (run (s1.seAddr x 32 50)) (mop x.m 53 2 == 1)) ∧
    (∀ u, mopOpc x.m = 3 → s.rbAddr p (mop x.m 12 9) (mop x.m 21 11) (16 * x.n) = some u → Gives (.rbget p core noErr) s fun t =>
      s.beatDone t p core 9 r r.buf [] ∧
        sends t 2 (s.rbPlace p u).1 x.phys (s1.seAddr x 32 50)
          (s1.reads p (s.pcore p (s.rbPlace p u).1) 1 (fun i => (s.rbPlace p u).2 + 512 * r.mb + i) 512) false) ∧
    (r.mb = 0 → s.cset p (mop x.m 49 5) < 65535 →
      let i := ringIdx core (mop x.m 12 4)
      let n := mop x.m 37 12 + 1
      let burst (t : State) (put : Bool) : Prop :=
        (t.sq p).bursts = (s.sq p).bursts ++ [⟨s.serial, put, mop x.m 49 5, core, mop x.m 12 4, s1.seAddr x 16 34, n, r.pc⟩] ∧
          t.cset p (mop x.m 49 5) = s.cset p (mop x.m 49 5) + 1
      n ≤ (s.ring p (s.ringHome p i)).n →
        (mopOpc x.m = 4 → (s.ring p i).kind = 1 ∨ (s.ring p i).kind = 3 → Gives (.rget p core noErr) s fun t => burst t false) ∧
        (mopOpc x.m = 5 → (s.ring p i).kind = 2 ∨ (s.ring p i).kind = 4 → Gives (.rput p core noErr) s fun t => burst t true))) ∧
  (∀ (s : State) (p core ring : Nat) (errs : List ReadErr) (bad : SramErrs) (b : Burst), p ∈ allParts → s.halted = false →
    (s.burst p core ring false = some b →
      let i := ringIdx core ring
      b.nrec ≤ (s.ring p i).fill → ((s.ring p i).kind = 1 → s.tagWait p 3 (some core) = false) →
      let x := (s.issueView p b.id).ringRead errs p i b b.nrec bad
      x.2.1 = 0 → Gives (.rgetBurstMove p core ring errs bad) s fun t =>
        (t.sq p).bursts = (s.sq p).bursts.erase b ∧ t.cores.sram = (x.1.sramWr (s.pcore p core) b.addr x.2.2).cores.sram) ∧
    (s.burst p core ring true = some b →
      let i := ringIdx core ring
      let h := s.ringHome p i
      let d := s.ring p h
      d.kind = 3 → d.eod = false → b.nrec ≤ d.n - d.fill → core < 128 → ring < 16 → h < 2048 → b.cset < 32 →
      Gives (.rputBurstMove p core ring errs {}) s fun t =>
        (t.sq p).bursts = (s.sq p).bursts.erase b ∧ t.rn (Reg.SEQ_RING_PROD p h) = (s.rn (Reg.SEQ_RING_PROD p h) + b.nrec) % 2 ^ 32))

/-- R231 to R233, R247 to R250: the rows of ring registers complete. -/
def Obligations.RingRowsComplete : Prop :=
  ∀ (s : State) (r : RegReq) (p core ring : Nat), p ∈ allParts → core < 128 → ring < 16 →
    let i := ringIdx core ring
    (∀ v, s.grants r (Reg.SEQ_RING_PROD p i) = true → (s.ring p i).kind = 1 → (s.ring p i).eod = false →
      (s.rn (Reg.SEQ_RING_PROD p i) + 4294967296 - s.rn (Reg.SEQ_RING_CONS p i)) % 4294967296 +
        (v + 4294967296 - s.rn (Reg.SEQ_RING_PROD p i)) % 4294967296 ≤ (s.ring p i).n →
      Gives (.ringProdWrite r p core ring v) s fun t => t.rn (Reg.SEQ_RING_PROD p i) = v % 4294967296) ∧
    (∀ v, s.grants r (Reg.SEQ_RING_CONS p i) = true → (s.ring p i).kind = 2 →
      (v + 4294967296 - s.rn (Reg.SEQ_RING_CONS p i)) % 4294967296 ≤
        (s.rn (Reg.SEQ_RING_PROD p i) + 4294967296 - s.rn (Reg.SEQ_RING_CONS p i)) % 4294967296 →
      Gives (.ringConsWrite r p core ring v) s fun t => t.rn (Reg.SEQ_RING_CONS p i) = v % 4294967296) ∧
    (s.grants r (Reg.SEQ_RING_CTRL p i) = true → Gives (.ringEod r p core ring) s fun t =>
      t.flag (Reg.SEQ_RING_CTRL p i) Fld.SEQ_RING_CTRL_EOD = true) ∧
    (s.grants r (Reg.SEQ_RING_CTRL p i) = true → s.stopped p = true → Gives (.ringReset r p core ring) s fun t =>
      t.rn (Reg.SEQ_RING_PROD p i) = 0 ∧ t.rn (Reg.SEQ_RING_CONS p i) = 0 ∧ t.rn (Reg.SEQ_RING_STAT p i) = 0 ∧
        t.flag (Reg.SEQ_RING_CTRL p i) Fld.SEQ_RING_CTRL_EOD = false) ∧
    (∀ v, s.grants r (Reg.SEQ_RING_CFG p i) = true → s.stopped p = true →
      (s.regWrite (Reg.SEQ_RING_CFG p i) v).ringFits p i = true → Gives (.ringCfgWrite r p core ring 2 v) s fun t =>
        t = s.regWrite (Reg.SEQ_RING_CFG p i) v)

/-! ## Host queues, DMA and collectives -/

/-- R598 to R607, R615, R616: the rows of queues and packets complete. -/
def Obligations.QueueRowsComplete : Prop :=
  (∀ (s : State) (r : RegReq) (p q : Nat) (v : Word), p ≤ 4 → q ∈ queuesOf p → s.grants r (qTail p q) = true → s.qState p q = 1 →
    ahead32 v.toNat (s.rn (qTail p q)) < 2147483648 → ahead32 v.toNat (s.rn (qDone p q)) ≤ s.qSize p q →
    Gives (.queueDoorbell r p q v) s fun t => t = s.wn (qTail p q) v.toNat) ∧
  (∀ (s : State) (p q : Nat) (entry cb : HostRead), p ∈ allParts → q < 64 → s.halted = false → s.qState p q = 1 →
    s.flag (qCfg p q) Fld.QUE_CFG_EN = true → s.rn (qTail p q) ≠ s.rn (qHead p q) → s.tdiRun p = true →
    (s.queue p q).bufs = [] → (s.queue p q).gone = [] → entry.status = 0 → cb.status = 0 →
    s.entryOk p (sliceB entry.data 0 32) = true → Gives (.queueEntryFetch p q entry cb) s fun t =>
      t.rn (qHead p q) = (s.rn (qHead p q) + 1) % 2 ^ 32 ∧ ∃ b : CmdBuf, (t.queue p q).bufs = [b] ∧
        b.seq = s.rn (qHead p q) ∧ b.err = 0 ∧ b.pos = 0 ∧ b.granted = false ∧
        b.bytes = sliceB cb.data 0 (leAt (sliceB entry.data 0 32) 8 4)) ∧
  (∀ (s : State) (p q : Nat) (b : CmdBuf), p ≤ 4 → q ∈ queuesOf p → s.halted = false → nextGrant (s.queue p q).bufs = some b →
    (∀ k ∈ queuesOf p, k ≠ q → nextGrant (s.queue p k).bufs = none) → Gives (.cbGrant p) s fun t =>
      (t.queue p q).bufs = (s.queue p q).bufs.map fun c => if c.seq = b.seq then { c with granted := true } else c) ∧
  (∀ (s : State) (p q seq : Nat) (b : CmdBuf),
    let n := leAt (b.bytes.drop b.pos) 4 2
    (s.packetDue p q seq 0 b = true → Gives (.pktNop p q seq) s fun t => t = (s.begun p q seq 1).settle p) ∧
    (s.packetDue p q seq 1 b = true → s.fget (Reg.FEN_F p n) Fld.FEN_F_ERR = 0 → s.flag (Reg.FEN_F p n) Fld.FEN_F_SIG = false →
      Gives (.pktWait p q seq) s fun t => t = (s.begun p q seq 1).updBuf p q seq fun c => { c with waitOn := some n }) ∧
    (p ∈ allParts → s.packetDue p q seq 2 b = true → s.fget (Reg.FEN_F p n) Fld.FEN_F_ERR = 0 →
      Gives (.pktSignal p q seq) s fun t => t.flag (Reg.FEN_F p n) Fld.FEN_F_SIG = true) ∧
    (p ∈ allParts → s.packetDue p q seq 3 b = true → ((s.begun p q seq 1).fenceReset p n).ending p = none →
      Gives (.pktReset p q seq) s fun t =>
        t.flag (Reg.FEN_F p n) Fld.FEN_F_SIG = false ∧ t.fget (Reg.FEN_F p n) Fld.FEN_F_ERR = 0)) ∧
  (∀ (s : State) (p q seq : Nat) (b : CmdBuf), s.packetDue p q seq 0x10 b = true → s.dmaOpenFor p (s.engineOf p q) = true →
    Gives (.pktDma p q seq) s fun t => ∃ d : Desc, t.dma (s.engineOf p q) = s.dma (s.engineOf p q) ++ [d] ∧ d.owner = p ∧
      d.queue = q ∧ d.buf = seq ∧ d.crec = leAt (b.bytes.drop b.pos) 8 8 ∧ d.bytes = sliceB (b.bytes.drop b.pos) 16 64) ∧
  (∀ (s : State) (p q seq : Nat) (b : CmdBuf) (errs : List ReadErr), p ∈ allParts → s.packetDue p q seq 0x20 b = true →
    (∀ k ∈ queuesOf p, ∀ c ∈ (s.queue p k).bufs, c.seqOpen = false) →
    let cont := bitOf (leAt (b.bytes.drop b.pos) 4 1) 0
    (cont = true → s.seqState p = seqStopped → Gives (.pktSeqRun p q seq errs) s fun t =>
      t.seqState p = seqGateWait) ∧
    (cont = false → s.stopped p = true → Gives (.pktSeqRun p q seq errs) s fun t =>
      t = ((s.begun p q seq 1).updBuf p q seq fun c => { c with seqOpen := true }).seqRun p errs)) ∧
  (∀ (s : State) (p q seq i : Nat) (b : CmdBuf), p ∈ allParts → s.packetDue p q seq 0x21 b = true → i < 16 * s.ncores p →
    leAt (b.bytes.drop b.pos) 4 4 = 0x28000C + 32 * i → (s.ring p i).kind = 1 → (s.ring p i).eod = false →
    ahead32 (s.rn (Reg.SEQ_RING_PROD p i)) (s.rn (Reg.SEQ_RING_CONS p i)) +
      ahead32 (leAt (b.bytes.drop b.pos) 8 4) (s.rn (Reg.SEQ_RING_PROD p i)) ≤ (s.ring p i).n →
    Gives (.pktRegWrite p q seq) s fun t => t.rn (Reg.SEQ_RING_PROD p i) = leAt (b.bytes.drop b.pos) 8 4)

/-- R619, R620, R622, R633, R635: the rows of cancel, kill, enable and fence writes complete. -/
def Obligations.QueueControlRowsComplete : Prop :=
  (∀ (s : State) (r : RegReq) (p q : Nat) (b : CmdBuf), p ∈ allParts → q < 64 → s.grants r (Reg.QUE_CANCEL p) = true →
    ((s.queue p q).bufs.find? fun c => c.seq == s.rn (Reg.QUE_CANCEL_SEQ p)) = some b → Gives (.queueCancel r p q) s fun t =>
      t.fget (Reg.QUE_CANCEL_STAT p) Fld.QUE_CANCEL_STAT_RESULT = if b.granted then 1 else 0) ∧
  (∀ (s : State) (r : RegReq) (p n q : Nat), p ∈ allParts → q < 64 → s.grants r (Reg.QUE_CTX p n) = true →
    s.fget (qCfg p q) Fld.QUE_CFG_CTX = n → s.qState p q ≠ 0 → Gives (.contextKill r p n) s fun t =>
      t.flag (qCfg p q) Fld.QUE_CFG_EN = false ∧ t.qState p q = 0) ∧
  (∀ (s : State) (r : RegReq) (p q : Nat) (v : Word), p ≤ 4 → q ∈ queuesOf p → s.grants r (qCfg p q) = true → s.qState p q = 0 →
    (s.queue p q).bufs = [] → Fld.QUE_CFG_EN.get v = 1 → Gives (.queueEnable r p q v) s fun t =>
      t.flag (qCfg p q) Fld.QUE_CFG_EN = true ∧ t.qState p q = 1 ∧ t.rn (qHead p q) = 0 ∧ t.rn (qTail p q) = 0) ∧
  (∀ (s : State) (r : RegReq) (p n : Nat) (v : Word), p ∈ allParts → s.grants r (Reg.FEN_F p n) = true → s.hasFence p n = true →
    bitOf v.toNat 0 = true → (bitOf v.toNat 1 = true ∨ s.fget (Reg.FEN_F p n) Fld.FEN_F_ERR = 0) →
    Gives (.fenceWrite r p n v) s fun t => t.flag (Reg.FEN_F p n) Fld.FEN_F_SIG = true)

/-- R505 to R509, R609 to R613: the rows of DMA descriptors complete. -/
def Obligations.DmaRowsComplete : Prop :=
  (∀ (s : State) (e : Nat) (x : Desc) (host : HostRead) (errs : List ReadErr), s.descDue e 0 x = true → host.status = 0 →
    Gives (.dmaCopyIn e host errs) s fun t =>
      let a := s.admitted x.owner (mDmaIn e) (xDev x.bytes) (xLen x.bytes)
      let w := a.1.writeRun errs x.owner false true (xDev x.bytes) (sliceB host.data 0 a.2.2)
      t.dram = w.1.dram ∧ t.dma e = setFin ⟨if w.2 then a.2.1 else 0x2B, a.2.2, [], []⟩ (s.dma e)) ∧
  (∀ (s : State) (e : Nat) (x : Desc) (errs : List ReadErr), s.descDue e 1 x = true → Gives (.dmaCopyOut e errs) s fun t =>
    let a := s.admitted x.owner (mDmaOut e) (xDev x.bytes) (xLen x.bytes)
    let y := a.1.dmaRead errs x.owner (xDev x.bytes) a.2.2
    t.dma e = setFin ⟨if y.2.1 ≠ 0 then y.2.1 else a.2.1, y.2.2.length, [], []⟩ (s.dma e) ∧
      (y.2.2 ≠ [] → t.hostGets s x.owner (xHost x.bytes) true y.2.2)) ∧
  (∀ (s : State) (e : Nat) (x : Desc) (host : HostRead) (errs : List ReadErr), (s.cipherOk e x false).2 = 0 → host.status = 0 →
    let d := x.bytes
    let key := (s.key (xSlot d)).key
    (s.descDue e 2 x = true → Gives (.dmaGcmIn e host errs) s fun t => ∃ ok : Bool,
      let good := decide (Crypto.gcmTag key (xIv d) (sliceB host.data 0 (xAadLen d)) (sliceB host.data (xAadLen d) (xLen d)) = xTag d)
      t.dma e = setFin ⟨if good then (if ok then 0 else 0x2B) else 0x07, if good then xLen d else 0, [], []⟩ (s.dma e)) ∧
    (s.descDue e 4 x = true → Gives (.dmaXtsIn e host errs) s fun t => ∃ ok : Bool,
      t.dma e = setFin ⟨if ok then 0 else 0x2B, xLen d, [], []⟩ (s.dma e))) ∧
  (∀ (s : State) (e : Nat) (x : Desc) (host : HostRead) (errs : List ReadErr), (s.cipherOk e x true).2 = 0 → host.status = 0 →
    let d := x.bytes
    let k := s.key (xSlot d)
    let y := (((s.cipherOk e x true).1.useKey (xSlot d)).1).dmaRead errs x.owner (xDev d) (xLen d)
    (s.descDue e 3 x = true → Gives (.dmaGcmOut e host errs) s fun t =>
      let aad := sliceB host.data 0 (xAadLen d)
      let iv := gcmIv (xSlot d) k k.ctr
      let msg := Crypto.gcmCrypt k.key iv y.2.2
      if y.2.1 ≠ 0 then t.dma e = setFin ⟨y.2.1, 0, [], []⟩ (s.dma e)
      else t.dma e = setFin ⟨0, xLen d, iv, Crypto.gcmTag k.key iv aad msg⟩ (s.dma e) ∧
        t.hostGets s x.owner (xHost d + xAadLen d) (xT d) msg) ∧
    (s.descDue e 5 x = true → Gives (.dmaXtsOut e errs) s fun t =>
      if y.2.1 ≠ 0 then t.dma e = setFin ⟨y.2.1, 0, [], []⟩ (s.dma e)
      else t.dma e = setFin ⟨0, xLen d, [], []⟩ (s.dma e) ∧
        t.hostGets s x.owner (xHost d) (xT d) (xtsRun Crypto.xtsEnc k.key (xUnit d) y.2.2))) ∧
  (∀ (s : State) (e : Nat) (x : Desc), s.lakeRun x.owner x.bytes = true →
    let p := x.owner
    let d := x.bytes
    (∀ errs : List ReadErr, s.descDue e 6 x = true → s.slotState p (xLakeSlot d) = 2 ∨ s.slotState p (xLakeSlot d) = 3 →
      Gives (.dmaLakeExport ⟨e, errs⟩) s fun t => t.dma e = setFin ⟨0, xLen d, [], []⟩ (s.dma e) ∧
        t.hostGets s p (xHost d) (xT d) ((s.readPairs errs p ((List.range (xLen d / 264)).map fun i =>
          s.lakePlace p (xLakeSlot d) (xDev d + i))).2.pairs.flatMap fun y => y.1 ++ y.2)) ∧
    (∀ host : HostRead, s.descDue e 7 x = true → xDev d = 0 → s.ckpIdle p = true → host.status = 0 →
      Gives (.dmaLakeImport e host) s fun t => t.dma e = setFin ⟨0, xLen d, [], []⟩ (s.dma e))) ∧
  (∀ (s : State) (e : Nat) (x : Desc) (rest : List Desc), s.dma e = x :: rest → s.nextDesc e = none → s.halted = false →
    Gives (.dmaDescComplete e) s fun t => t.dma e = rest)

/-- R403, R409, R417, R422 to R428, R438 to R445: the rows of the collective unit complete. -/
def Obligations.CollectiveRowsComplete : Prop :=
  (∀ (s : State) (r : RegReq) (p off : Nat) (v : Word), s.grants r (vf p + 0x600000 + off) = true → colConfig off = true →
    off % 4 = 0 → writableAt (vf p + 0x600000 + off) = true → s.stopped p = true →
    let s1 := s.regWrite (vf p + 0x600000 + off) v
    s1.stageOk p = true → s1.posOk p = true → s1.rbBaseOk p = true → s1.rotOk p = true →
    Gives (.colConfigWrite r p off v) s fun t => t = s1) ∧
  (∀ (s : State) (p q seq : Nat) (b : CmdBuf), s.packetDue p q seq 0x30 b = true →
    let d := sliceB (b.bytes.drop b.pos) 16 64
    let ch := leAt d 1 1 % 8
    s.cc p ch = none → s.ccForm p d = true → Gives (.pktCcLaunch p q seq) s fun t =>
      ∃ l : Launch, t.cc p ch = some l ∧ l.desc = d ∧ l.step = 0 ∧ l.granted = false) ∧
  (∀ (s : State) (p ch : Nat) (l : Launch), p ∈ allParts → s.cc p ch = some l → l.granted = false →
    let free := s.fget (Reg.COL_DYN_STAT p) Fld.COL_DYN_STAT_FREE
    ((List.range ch).filter fun c => match s.cc p c with | some m => !m.granted | none => false).length < free →
    Gives (.ccBufferGrant p ch) s fun t =>
      t.cc p ch = some { l with granted := true, step := 1, began := s.now } ∧
        t.fget (Reg.COL_DYN_STAT p) Fld.COL_DYN_STAT_FREE = free - 1) ∧
  (∀ (s : State) (p ch : Nat),
    LaunchRow (.ccSumF32 p ch {}) s p ch 0 ∧ LaunchRow (.ccMaxF32 p ch {}) s p ch 1 ∧
      LaunchRow (.ccOrU32 p ch {}) s p ch 2 ∧ LaunchRow (.ccNormrec p ch {}) s p ch 3) ∧
  (∀ (s : State) (p ch : Nat) (l : Launch) (vs : Nat → List Byte), s.cc p ch = some l → s.halted = false → l.step = 2 → l.stage = 0 →
    let n := s.fget (Reg.COL_STAGE_CFG p) Fld.COL_STAGE_CFG_TRAY_N
    (∀ k, k < n → s.ccPortBad p k = false ∧ s.ccArrived p l k = some (ccOp l.desc, ccLen l.desc, vs k)) →
    s.nextStage p 1 = 3 → Gives (.ccStage p ch) s fun t => ∃ l', t.cc p ch = some l' ∧ l'.step = 3 ∧
      l'.data = (((List.range n).map vs).drop 1).foldl (foldData (ccOp l.desc)) (((List.range n).map vs).headD [])) ∧
  (∀ (s : State) (p ch core a : Nat) (l : Launch), p ∈ allParts → s.cc p ch = some l → s.halted = false → l.step = 3 →
    s.sramPlace p (leAt l.desc 16 8) (ccLen l.desc) = some (core, a) → s.hasFence p (ccSig l.desc) = true →
    s.fget (Reg.FEN_F p (ccSig l.desc)) Fld.FEN_F_ERR = 0 → Gives (.ccComplete p ch) s fun t =>
      t.cores.sram = (s.sramWr (s.pcore p core) a l.data).cores.sram ∧ t.cc p ch = none ∧
        t.flag (Reg.FEN_F p (ccSig l.desc)) Fld.FEN_F_SIG = true) ∧
  (∀ (s : State) (p ch : Nat) (l : Launch), p ∈ allParts → s.cc p ch = some l → l.step ≠ 0 →
    l.began + 100 * s.fget (Reg.COL_CC_TMO p) Fld.COL_CC_TMO_US < s.now →
    s.fget (Reg.COL_CC_ERR p) Fld.COL_CC_ERR_CODE = 0 → Gives (.ccTimeout p ch) s fun t =>
      t.cc p ch = none ∧ t.fget (Reg.COL_CC_ERR p) Fld.COL_CC_ERR_CODE = 1)

/-! ## Memory controllers, updates and checkpoints -/

/-- R265: a read of a sector corrects any one wrong 16-bit symbol of each chunk, the check symbols and the MAC's among them, so that it
returns the stored bytes; and finds out any chunk of two wrong symbols. -/
def Obligations.ChunkCorrection : Prop :=
  ∀ (s : State) (errs : List ReadErr) (p stack sec n : Nat) (e : ReadErr), errOf errs stack sec n = some e → e.flip.length = 288 →
    ((∀ c, c < 4 → wrongSymbols e.flip c ≤ 1) → (s.readOnce errs p stack sec n).2.bytes = s.rawSector stack sec ∧
      (s.readOnce errs p stack sec n).2.ue = false) ∧
    ((∃ c, c < 4 ∧ wrongSymbols e.flip c = 2) → (s.readOnce errs p stack sec n).2.ue = true)

/-- R261, R270, R275 to R277, R281 to R283: the rows of the stack controllers complete. -/
def Obligations.MemoryControlRowsComplete : Prop :=
  (∀ (s : State) (r : RegReq) (p : Nat) (v : Word), s.grants r (Reg.MEM_PSPLIT p) = true → s.partState p = 0 →
    Gives (.psplitWrite r p v) s fun t => t = s.regWrite (Reg.MEM_PSPLIT p) v) ∧
  (∀ (s : State) (p a o : Nat) (spec : Bool) (errs : List ReadErr), p ∈ allParts → s.offset p a = some o → a % 256 = 0 →
    (s.key (2 * addrKid a + 1)).state = 1 → (s.key (2 * addrKid a + 1)).owned p = true → o + 256 ≤ s.memSize p →
    Gives (.sectorVerify p a spec errs) s fun t =>
      t = (s.readPiece errs p spec false a 256).1 ∧
        (SMap.get (fun _ => false) s.poison (poisonKey (s.place p (s.bankOff p o)).1 ((s.place p (s.bankOff p o)).2 / 256)) = true →
          (if s.flag (Reg.UPD_STATUS p) Fld.UPD_STATUS_PENDING = true then (t.up p).taintNext = true else (t.up p).taint = true))) ∧
  (∀ (s : State) (k pc cycles : Nat) (held : List Nat) (y : Nat × Nat × Nat × Nat),
    tagWinner s.now ((s.stk k).waiting.filter fun z => z.1 == pc % 32) = some y → Gives (.tagGrant k pc [] ⟨cycles, held⟩) s fun t =>
      (t.stk k).waiting = (s.stk k).waiting.filter (· ≠ y) ∧ (t.stk k).tags = held) ∧
  (∀ (s : State) (k pc bank temp : Nat), Gives (.refresh k pc bank temp) s fun t =>
    t.flag (Reg.MEM_STK_STAT k) Fld.MEM_STK_STAT_REF2X = decide (85 < temp) ∧
      t.fget (Reg.MEM_STK_STAT k) Fld.MEM_STK_STAT_TEMP = temp % 2 ^ Fld.MEM_STK_STAT_TEMP.width) ∧
  (∀ (s : State) (k sec : Nat) (errs : List ReadErr), s.flag (Reg.MEM_STK_CTRL k) Fld.MEM_STK_CTRL_PATROL_EN = true →
    Gives (.patrolRead k sec errs) s fun t =>
      t.flag (Reg.MEM_STK_STAT k) Fld.MEM_STK_STAT_PATROL_BUSY = (sec != 268435455) ∧
        (sec = 268435455 → (t.stk k).rowErrs = [])) ∧
  (∀ (s : State) (k row : Nat), s.flag (Reg.MEM_STK_CTRL k) Fld.MEM_STK_CTRL_PPR_EN = true →
    3 ≤ ((s.stk k).rowErrs.filter fun e => e.1 == row).length → (∀ e ∈ (s.stk k).repairs, e.1 ≠ row) →
    Gives (.rowRepair k row) s fun t => (t.stk k).repairs = (s.stk k).repairs ++ [(row, s.now)]) ∧
  (∀ (s : State) (k row at_ : Nat), (row, at_) ∈ (s.stk k).repairs → Gives (.rowRepairComplete k row) s fun t =>
    (∀ e ∈ (t.stk k).repairs, e.1 ≠ row) ∧ ∀ e ∈ (t.stk k).rowErrs, e.1 ≠ row)

/-- R310, R316 to R325, R329, R332: the rows of the update engine complete. -/
def Obligations.UpdateRowsComplete : Prop :=
  (∀ (s : State) (p n : Nat) (errs : List ReadErr) (bad : SramErrs) (st : UpdStream) (f : Fmt), (s.up p).streams[n]? = some st →
    st.kind = 0 → st.ran = false → s.halted = false → (s.isApply p st.desc = true → (s.up p).normIn ≠ none) →
    s.workFmt p st.desc = some f → Gives (.updTensor p n errs bad) s fun t =>
      ∃ parts : List UpdPart, parts.length = st.parts.length ∧ (t.up p).streams = (s.up p).streams.map fun y =>
        if y.id = st.id then { y with ran := true, parts := parts } else y) ∧
  (∀ (s : State) (p k : Nat) (st : UpdStream) (x : UpdPart), p ∈ allParts → (s.up p).streams = [st] → st.ran = true →
    st.parts = [x] → x.stack = k → st.cset < 32 → Gives (.updStreamComplete p k) s fun t =>
      (t.up p).streams = [] ∧ t.cset p st.cset = s.cset p st.cset - 1) ∧
  (∀ (s : State) (p : Nat) (st : UpdStream), ((s.up p).streams.find? fun y => y.kind == 1) = some st → s.halted = false →
    (∀ e ∈ (s.up p).norms, st.id ≤ e.1) → s.earlierDone p st.id = true → Gives (.normOut p) s fun t =>
      (t.up p).outDone = true ∧ t.cores.sram = (s.nrecPut p st.desc 0 (leBytes 4 (s.rn (Reg.UPD_NORM_ACC p)) ++
        leBytes 4 (b2n (s.up p).nf + 2 * b2n (s.up p).taint) ++ leBytes 6 (s.stepNo p) ++ leBytes 18 0)).cores.sram) ∧
  (∀ (s : State) (p : Nat) (bad : SramErrs) (st : UpdStream), ((s.up p).streams.find? fun y => y.kind == 2) = some st →
    s.halted = false → Gives (.normIn p bad) s fun t =>
      let v := (s.sramX p bad (s.pcore p (bitsOf (dNrec st.desc) 18 7)) (32 * (dNrec st.desc % 262144)) 32).2
      (t.up p).normIn = some ⟨leAt v 0 4, bitOf (leAt v 4 1) 0, bitOf (leAt v 4 1) 1⟩) ∧
  (∀ (s : State) (r : RegReq) (p which : Nat) (v : Word), s.grants r (windowReg p which) = true → s.stopped p = true →
    let s1 := s.regWrite (windowReg p which) v
    s1.fget (Reg.UPD_BANK_BASE p) Fld.UPD_BANK_BASE_MIB + 2 * s1.fget (Reg.UPD_BANK_SIZE p) Fld.UPD_BANK_SIZE_MIB ≤
      s.localGib p * 1024 → (which = 0 ∨ s1.areasOk p = true) → Gives (.updWindowWrite r p which v) s fun t => t = s1) ∧
  (∀ (s : State) (r : RegReq) (p off : Nat) (v : Word), s.grants r (vf p + 0x400000 + off) = true → s.stopped p = true →
    writableAt (vf p + 0x400000 + off) = true → off ∉ [0, 4, 0x0C, 0x10] → Gives (.updConfigWrite r p off v) s fun t => t = s.regWrite (vf p + 0x400000 + off) v)

/-- R335 to R338: a commit decision that can be made is made. -/
def Obligations.CommitDecisionCompletes : Prop :=
  ∀ (s : State) (p : Nat), p ∈ allParts → s.decisionReady p = true → (∀ l, (s.sq p).loopRec = some l → l.lvl < 4) →
    Gives (.commitDecision p) s fun t =>
      t.flag (Reg.UPD_STATUS p) Fld.UPD_STATUS_PENDING = false ∧ t.fget (Reg.UPD_STATUS p) Fld.UPD_STATUS_LAST = s.verdict p ∧
        (s.verdict p ≠ 3 → t.stepNo p = (s.stepNo p + 1) % 2 ^ 48) ∧ (s.verdict p = 3 → t.stepNo p = s.stepNo p)

/-- R379, R457 to R463, R471: the rows of drains complete. -/
def Obligations.DrainRowsComplete : Prop :=
  (∀ (s : State) (p : Nat) (d : Drain) (errs : List ReadErr), s.halted = false → (s.lake p).drain = some d → s.drainOn p = true → d.ended = false →
    s.bulkWaits p d.port = false → d.began + 10000 ≤ s.now → Gives (.drainSend p ⟨false, errs⟩) s fun t =>
      (∃ d' : Drain, (t.lake p).drain = some d' ∧ d'.next = d.next + min 15 (s.slotN p - d.next) ∧ d'.port = d.port) ∧
        ∃ f : TxFrame, (t.port d.port).queue = (s.port d.port).queue ++ [f] ∧ f.part = p ∧ f.typ = 4) ∧
  (∀ (s : State) (n : Nat) (f : RxFrame) (rest : List RxFrame), (s.port n).inbox = f :: rest → f.typ = 4 →
    leAt f.payload 0 1 = 2 → f.payload.length = 96 → Gives (.bulkFrame n) s fun t =>
      (t.port n).inbox = rest ∧ (t.lake f.part).inbox = (s.lake f.part).inbox ++ [(n, f)]) ∧
  (∀ (s : State) (p n : Nat) (f : RxFrame) (rest : List (Nat × RxFrame)), p ∈ allParts → (s.lake p).inbox = (n, f) :: rest →
    s.pullOn p n = none →
    let seq := leAt f.payload 4 4
    let kind := leAt f.payload 0 1
    (kind = 1 → s.accepts p = true → leAt f.payload 8 8 = 0 → s.receiving p n f.peer seq = none →
      leAt f.payload 16 1 ≤ s.nstacks p * (s.buddySize p / 256) → Gives (.drainDataReceive p) s fun t =>
        (t.lake p).inbox = rest ∧ t.bslotState p (match s.newestBuddy p with | some k => 1 - k | none => 0) = 1) ∧
    (∀ d, kind = 2 → s.accepts p = true → s.receiving p n f.peer seq = some d → leAt f.payload 80 8 * 256 ≤ s.buddySize p →
      leAt f.payload 88 1 = s.nstacks p → Gives (.drainEndReceive p) s fun t => (t.lake p).inbox = rest ∧ t.bslotState p d = 2) ∧
    (∀ d : Drain, kind = 3 → (s.lake p).drain = some d → d.port = n → d.slot < 2 → seq = s.rn (Reg.CKP_SLOT_SEQ p d.slot) →
      leAt f.payload 17 1 = 0 → sliceB f.payload 32 48 = (s.lake p).root.getD d.slot [] →
      Gives (.drainResultReceive p) s fun t => (t.lake p).drain = none ∧ t.slotState p d.slot = 3) ∧
    (∀ d, kind = 4 → s.accepts p = true → seq = 0 → s.newestBuddy p = some d → Gives (.drainPullReceive p) s fun t =>
      (t.lake p).serve = some ⟨true, d, n, 0, false, s.now, 0⟩) ∧
    (∀ d, kind = 5 → s.accepts p = true → s.receiving p n f.peer seq = some d → Gives (.drainAbandonReceive p) s fun t =>
      t.bslotState p d = 4)) ∧
  (∀ (s : State) (p d : Nat), p ∈ allParts → s.halted = false →
    ((List.range 2).find? fun b => s.bslotState p b == 2) = some d → Gives (.readbackComplete p []) s fun t =>
      (t.bslotState p d = 3 ∨ t.bslotState p d = 4) ∧
        ∃ f : TxFrame, (t.port ((s.lake p).bport.getD d 0)).queue = (s.port ((s.lake p).bport.getD d 0)).queue ++ [f] ∧
          leAt f.payload 17 1 = t.bslotState p d - 3) ∧
  (∀ (s : State) (r : RegReq) (p : Nat) (v : Word), p ∈ allParts → s.grants r (Reg.CKP_DRAIN_CFG p) = true →
    Gives (.drainCfgWrite r p v) s fun t =>
      t.fget (Reg.CKP_DRAIN_CFG p) Fld.CKP_DRAIN_CFG_PORT = Fld.CKP_DRAIN_CFG_PORT.get v)

/-- R447, R452 to R456, R464 to R467, R472: the rows of snapshots, aborts and restores complete. -/
def Obligations.CheckpointRowsComplete : Prop :=
  (∀ (s : State) (p : Nat), s.fget (Reg.CKP_TIMER p) Fld.CKP_TIMER_SECONDS ≠ 0 →
    (s.lake p).timer + s.fget (Reg.CKP_TIMER p) Fld.CKP_TIMER_SECONDS * 100000000 ≤ s.now → Gives (.snapshotTimer p) s fun t =>
      (t.lake p).armed = true) ∧
  (∀ (s : State) (p j : Nat) (errs : List ReadErr), p ∈ allParts → j < 2 → s.halted = false → (s.lake p).snap = some j →
    Gives (.snapshotComplete p errs) s fun t =>
      (t.lake p).snap = none ∧ t.slotState p j = if (s.snapWrite p j errs).2.1 = 0 then 2 else 5) ∧
  (∀ (s : State) (p : Nat), p ∈ allParts → (s.lake p).aborting = true → s.drained p = true →
    (∀ n, n < 16 → s.flag (Reg.LL_BIND n p) Fld.LL_BIND_VALID = false) → Gives (.quiet p) s fun t =>
      (t.lake p).aborting = false ∧ t.flag (Reg.CKP_STATUS p) Fld.CKP_STATUS_QUIET = true ∧ ∀ n, n < 32 → t.cset p n = 0) ∧
  (∀ (s : State) (p : Nat) (errs : List ReadErr) (x : Restore), p ∈ allParts → (s.lake p).restore = some x → s.stopped p = true →
    s.halted = false → Gives (.restoreComplete p errs) s fun t => (t.lake p).restore = none ∧
      (x.copy = false →
        (s.ckpRead errs p (s.lakeKid p x.slot) 0 (s.slotBase p x.slot + 256) 16640).2.1 = 0 →
        t.flag (Reg.CKP_STATUS p) Fld.CKP_STATUS_RESUME_ARMED = true ∧ (t.sq p).rpc = x.rpc)) ∧
  (∀ (s : State) (r : RegReq) (p : Nat) (v : Word) (errs : List ReadErr), p ∈ allParts → s.grants r (Reg.CKP_CTRL p) = true →
    Fld.CKP_CTRL_MODE.get v = s.ckpMode p → Fld.CKP_CTRL_ACCEPT.get v = b2n (s.accepts p) →
    (Fld.CKP_CTRL_RESTORE.get v = 0 → Fld.CKP_CTRL_PULL.get v = 0 → Gives (.ckpAbort r p v) s fun t =>
      t.seqState p = seqStopped ∧ t.flag (Reg.CKP_STATUS p) Fld.CKP_STATUS_ABORTED = true ∧ (t.lake p).aborting = true) ∧
    (Fld.CKP_CTRL_ABORT.get v = 0 → Fld.CKP_CTRL_PULL.get v = 0 → s.stopped p = true → s.halted = false →
      (s.lake p).restore = none → Gives (.ckpRestore r p v errs) s fun t =>
        let w := s.regWrite (Reg.CKP_CTRL p) (Fld.CKP_CTRL_RESTORE.put v 1)
        let s1 := if s.drainOn p || (s.lake p).broken then w else w.startDrain p
        let y := s1.restoreCheck p (Fld.CKP_CTRL_RESTORE_SLOT.get v) errs
        if y.2.1 = 0 then t.flag (Reg.CKP_STATUS p) Fld.CKP_STATUS_RESTORE_BUSY = true ∧
          ∃ x : Restore, (t.lake p).restore = some x ∧ x.slot = Fld.CKP_CTRL_RESTORE_SLOT.get v ∧ x.rpc = leAt y.2.2 64 4
        else t = y.1.ckpErr p y.2.1) ∧
    (Fld.CKP_CTRL_ABORT.get v = 0 → Fld.CKP_CTRL_RESTORE.get v = 0 → (s.lake p).pull = none →
      s.slotState p (Fld.CKP_CTRL_PULL_SLOT.get v) ≠ 1 → s.lakeOk p = true → Gives (.ckpPull r p v) s fun t =>
        (t.lake p).pull = some (s.drainPort p, Fld.CKP_CTRL_PULL_SLOT.get v) ∧
          t.flag (Reg.CKP_STATUS p) Fld.CKP_STATUS_PULL_BUSY = true)) ∧
  (∀ (s : State) (r : RegReq) (p j : Nat) (v : Word), p ∈ allParts → s.grants r (Reg.CKP_HOSTACK p) = true → s.ckpMode p = 2 →
    ((List.range 2).find? fun j => s.slotState p j == 2 && s.rn (Reg.CKP_SLOT_SEQ p j) == v.toNat) = some j →
    Gives (.ckpHostack r p v) s fun t => t.slotState p j = 3) ∧
  (∀ (s : State) (r : RegReq) (p off : Nat) (v : Word), s.grants r (vf p + 0x300000 + off) = true → off ∈ [0x10, 0x18, 0x1C] →
    s.ckpIdle p = true →
    let s1 := s.regWrite (vf p + 0x300000 + off) v
    (if off = 0x10 then s1.lakeOk p else s1.buddyOk p) = true → Gives (.ckpConfigWrite r p off v) s fun t => t = s1)

/-! ## The keeper -/

/-- R499, R516 to R523, R578, R580, R822 to R824: the rows of the keeper and its mailboxes complete. -/
def Obligations.MailboxRowsComplete : Prop :=
  (∀ (s : State) (r : RegReq) (b : Nat), b < 6 → s.grants r (boxCtrl b) = true → s.flag (boxStatus b) Fld.KEY_STATUS_BUSY = false →
    let cmd := s.rn (boxCmd b)
    mailCodes.contains (bitsOf cmd 0 8) = true → Gives (.mailboxGo r b) s fun t =>
      t.flag (boxStatus b) Fld.KEY_STATUS_BUSY = true ∧ t.keeper.waiting = s.keeper.waiting ++
        [⟨b, bitsOf cmd 0 8, bitsOf cmd 8 8, (List.range 64).flatMap fun n => leBytes 4 (s.rn (boxArg b n))⟩]) ∧
  (∀ (s : State) (c : MailCmd), Serves .getInfo s 0x01 c fun t =>
    t.rn (boxRes c.box 0) = s.rn (Reg.GLB_VER 2) ∧ t.rn (boxRes c.box 1) % 256 = s.parts % 256) ∧
  (∀ (s : State) (c : MailCmd), c.part = 0 → Serves .slotStatus s 0x02 c fun t =>
    let k := s.key (c.arg 0)
    t.rn (boxRes c.box 0) = k.attr % 256 + 256 * (k.state % 256) + 65536 * (k.owner % 256) + (if k.owner = 0 then 2 ^ 24 * (k.soft % 256) else 0)) ∧
  (∀ (s : State), s.rootOk = true → ∀ c : MailCmd, Serves .getIdentity s 0x30 c fun t =>
    t.rn (boxRes c.box 0) = 1 + 2 * b2n s.identOk) ∧
  (∀ (s : State) (c : MailCmd), let n := c.arg 0
    1 ≤ n → n ≤ 4 → (c.part = 0 ∨ c.part = n) → s.inUse n = true → Serves .partRevoke s 0x20 c fun t =>
      t.partState n = 5 ∧ t.rn (Reg.KEY_PEPOCH n) = (s.rn (Reg.KEY_PEPOCH n) + 1) % 2 ^ 32) ∧
  (∀ (s : State) (k : Nat), (s.key (0xA0 + 2 * k)).state = 1 → s.entropy = true → s.canLoad (0xA0 + 2 * k) = true →
    Gives (.ifcRekey k) s fun t => (t.key (0xA0 + 2 * k)).state = 1 ∧ (t.key (0xA1 + 2 * k)).state = 1 ∧
      (t.key (0xA0 + 2 * k)).epoch = (s.key (0xA0 + 2 * k)).epoch + 1 ∧ t.keeper.draws = s.keeper.draws + 1) ∧
  (∀ (s : State), s.entropy = true → 1048576 ≤ s.keeper.sinceSeed → Gives .drbgReseed s fun t =>
    t.keeper.sinceSeed = 0 ∧ t.regs = s.regs) ∧
  (∀ (s : State), Gives .entropyFail s fun t => t.entropy = false)

/-- R519, R486 to R489, R494, R502, R822, R823: the commands that load, limit and revoke slots complete. -/
def Obligations.KeySlotRowsComplete : Prop :=
  (∀ (s : State) (c : MailCmd) (x : Session) (n : Nat),
    (s.keeper.sessions.find? fun (x : Session) => x.part == c.part && x.id == leAt c.args 4 4) = some x →
    s.destSlot c.part (c.arg 0) false = .ok n → s.canLoad n = true → Serves .sessionKek s 0x10 c fun t =>
      (t.key n).attr = 2 ∧ (t.key n).state = 1 ∧ (t.key n).cert = x.cert ∧ (t.key n).owner = ownerMask c.part ∧
        (t.key n).key = Crypto.kdf x.secret (ascii "SZT60-SKEK") (sliceB c.args 4 4) 256) ∧
  (∀ (s : State) (c : MailCmd) (n : Nat), s.mailDue 0x11 c = true → 1 ≤ c.arg 1 → c.arg 1 ≤ 3 → c.arg 2 = 0 →
    limitsBad 0xC0 (c.arg 1) (c.arg 56) (c.arg 57) = false → s.destSlot c.part (c.arg 0) false = .ok n →
    s.sourceBad c.part (c.arg 3) 2 = 0 → s.canLoad n = true → Gives .importKey s fun t =>
      match Crypto.kwUnwrap (s.key (c.arg 3)).key (sliceB c.args 8 40) with
      | some key => t.mailShows c 0 ∧ (t.key n).key = key ∧ (t.key n).attr = c.arg 1 ∧ (t.key n).state = 1 ∧
          (t.key n).owner = ownerMask c.part
      | none => t.mailShows c 8) ∧
  (∀ (s : State) (c : MailCmd) (n : Nat), c.arg 1 ≤ 3 → c.arg 2 = 0 → c.arg 5 ≤ 128 → labelFits (c.arg 4) (c.arg 1) = true →
    limitsBad 0xC0 (c.arg 1) (c.arg 144) (c.arg 145) = false → c.arg 1 ≠ 0 ∨ s.flag (Reg.PRT_STATE c.part) Fld.PRT_STATE_JOINT = false →
    s.destSlot c.part (c.arg 0) false = .ok n → s.sourceBad c.part (c.arg 3) 3 = 0 → s.canLoad n = true →
    Serves .derive s 0x12 c fun t => (t.key n).attr = c.arg 1 ∧ (t.key n).state = 1 ∧ (t.key n).owner = ownerMask c.part ∧
      (c.arg 1 ≠ 0 → (t.key n).key = Crypto.kdf (s.key (c.arg 3)).key (labelName (c.arg 4)) (sliceB c.args 16 (c.arg 5)) 256)) ∧
  (∀ (s : State) (c : MailCmd), let k := c.arg 0
    k < 64 → c.arg 2 = 0 → c.arg 5 ≤ 128 → c.arg 4 = 2 → s.slotFree (2 * k) = true → s.sourceBad c.part (c.arg 3) 3 = 0 →
    s.canLoad (2 * k) = true → Serves .derivePair s 0x13 c fun t =>
      ∀ i, i < 2 → (t.key (2 * k + i)).state = 1 ∧ (t.key (2 * k + i)).attr = i ∧ (t.key (2 * k + i)).owner = ownerMask c.part ∧
        (t.key (2 * k + i)).key = Crypto.kdf (s.key (c.arg 3)).key (ascii "SZT60-MEM") (sliceB c.args 16 (c.arg 5)) 256) ∧
  (∀ (s : State) (c : MailCmd), s.ownBad c.part (c.arg 0) = 0 → Serves .revoke s 0x18 c fun t => (t.key (c.arg 0)).state = 0) ∧
  (∀ (s : State) (c : MailCmd), let k := s.key (c.arg 0)
    s.ownBad c.part (c.arg 0) = 0 → limitAbove (c.arg 1) k.soft = false → limitAbove (c.arg 2) k.hard = false →
    Serves .setLimit s 0x19 c fun t => (t.key (c.arg 0)).soft = (if c.arg 1 % 64 = 0 then k.soft else c.arg 1) ∧
      (t.key (c.arg 0)).hard = (if c.arg 2 % 64 = 0 then k.hard else c.arg 2))

/-- R448, R519, R520, R578, R580: the rows of Mordant and Lake keys complete. -/
def Obligations.JointKeyRowsComplete : Prop :=
  (∀ (s : State) (c : MailCmd), s.mailDue 0x21 c = true → s.sourceBad c.part (c.arg 0) 2 = 0 → (s.key (c.arg 0)).cert ≠ [] →
    let job := sliceB c.args 48 32
    s.shareFits c.part (c.arg 1) (c.arg 2) job = true →
    (2 ≤ c.arg 2 → generalSlots.any (fun j => (s.key j).state == 1 && (s.key j).attr == 0 && (s.key j).owned c.part) = false) → Gives .mordantShare s fun t =>
      match Crypto.kwUnwrap (s.key (c.arg 0)).key (sliceB c.args 8 40) with
      | some key => t.mailShows c 0 ∧ t.keeper.shares = s.keeper.shares ++ [⟨job, c.arg 1, c.arg 2, c.part, key⟩]
      | none => t.mailShows c 8) ∧
  (∀ (s : State) (c : MailCmd) (n : Nat) (x : Share), s.destSlot c.part (c.arg 0) false = .ok n →
    let job := sliceB c.args 48 32
    let held := s.keeper.shares.filter fun (x : Share) => x.job == job
    held.head? = some x → x.count ≠ 0 → x.count ≤ held.length → c.part ∈ allParts → (held.any fun (y : Share) => y.part == c.part) = true →
    (allParts.all fun p => !held.any (fun (y : Share) => y.part == p) || s.quotaLeft p != 0) = true → s.canLoad n = true → Serves .mordantDerive s 0x22 c fun t =>
      (t.key n).attr = 3 ∧ (t.key n).state = 1 ∧ (t.key n).model = true ∧
        t.keeper.shares = s.keeper.shares.filter fun (x : Share) => x.job != job) ∧
  (∀ (s : State) (c : MailCmd), s.sourceBad c.part (c.arg 0) 3 = 0 → (s.key (c.arg 0)).model = true → Serves .lakeBind s 0x23 c fun t =>
    t.keeper.binds = s.keeper.binds.filter (fun (x : LakeBind) => x.part != c.part) ++
      [⟨c.part, c.arg 0, leAt c.args 4 4, sliceB c.args 48 32⟩]) ∧
  (∀ (s : State) (c : MailCmd) (slot : Nat) (key : List Byte), let k := c.arg 0
    k < 64 → s.slotFree (2 * k) = true → s.canLoad (2 * k) = true → s.snapKey c.part (leAt c.args 4 4) = .ok (slot, key) →
    Serves .lakeKey s 0x24 c fun t => ∀ i, i < 2 → (t.key (2 * k + i)).state = 1 ∧ (t.key (2 * k + i)).key = key)

/-! ## Tenancy -/

/-- R490, R558 to R561, R564, R570 to R573, R684: the rows of layouts, admission and removal complete. -/
def Obligations.PartitionRowsComplete : Prop :=
  (∀ (s : State) (r : RegReq) (v : Word), let n := Fld.PRT_LAYOUT_PARTS.get v
    s.grants r Reg.PRT_LAYOUT = true → (∀ p ∈ allParts, s.partState p = 0) → n = 1 ∨ n = 2 ∨ n = 4 →
    Gives (.layoutWrite r v) s fun t => t.parts = n ∧ ∀ p ∈ allParts, t.rd (Reg.PRT_MAP p) = mapWord n p ∧
      t.rn (Reg.KEY_PEPOCH p) = (s.rn (Reg.KEY_PEPOCH p) + 1) % 2 ^ 32) ∧
  (∀ (s : State) (r : RegReq) (p : Nat), p ∈ allParts → s.grants r (Reg.PRT_CTRL p) = true →
    s.flag Reg.PRT_STATUS Fld.PRT_STATUS_LAYOUT_BUSY = false → s.nquad p ≠ 0 → s.partState p = 0 →
    s.flag Reg.LCS_STAT Fld.LCS_STAT_BUSY = false → Gives (.assign r p) s fun t => t.partState p = 1) ∧
  (∀ (s : State) (p : Nat), p ∈ allParts → s.partState p = 1 → s.wipable p = true → Gives (.admissionComplete p) s fun t =>
    t.partState p = 2 ∧ ∀ k ∈ s.stacksOf p, ∀ a, k * 2 ^ 37 ≤ a → a < (k + 1) * 2 ^ 37 → SMap.get (fun _ => 0#8) t.dram a = 0#8) ∧
  (∀ (s : State) (p : Nat), p ∈ allParts → s.partState p = 5 → s.wipable p = true → Gives (.removalComplete p) s fun t =>
    t.partState p = 0 ∧ (∀ x ∈ t.keeper.shares, x.part ≠ p) ∧
      ∀ k ∈ s.stacksOf p, ∀ a, k * 2 ^ 37 ≤ a → a < (k + 1) * 2 ^ 37 → SMap.get (fun _ => 0#8) t.dram a = 0#8) ∧
  (∀ (s : State) (n peer m : Nat), n < 16 → m ∈ allParts → s.flag (Reg.LL_BIND n m) Fld.LL_BIND_VALID = true →
    s.fget (Reg.LL_BIND n m) Fld.LL_BIND_PEER_END = peer → Gives (.partitionRemovedNotice n peer) s fun t =>
      t.flag (Reg.LL_BIND n m) Fld.LL_BIND_VALID = false ∧ bitOf (t.rn (Reg.TKEY_PEER_LOST m)) n = true) ∧
  (∀ (s : State), Gives (.functionLevelReset 0) s fun t => t.mse = false ∧ t.vfs = 0 ∧ ∀ p, s.inUse p = true → t.partState p = 5) ∧
  (∀ (s : State) (p : Nat), s.inUse p = true → Gives (.functionLevelReset p) s fun t =>
    t.partState p = 5 ∧ bitOf t.crs (8 + p) = true) ∧
  (∀ (s : State), Gives .vfEnableClear s fun t => t.vfs = 0 ∧ ∀ p, s.inUse p = true → t.partState p = 5)

/-- R512 to R515, R563, R565 to R567, R570, R577, R582: the rows of SPDM and TDISP messages complete. -/
def Obligations.MessageRowsComplete : Prop :=
  (∀ (s : State) (p : Nat), p ∈ allParts → s.answersDoe p = true → s.lockOk p = true → s.entropy = true →
    Gives (.lockInterfaceRequest p) s fun t => t.partState p = 3 ∧ t.fget (Reg.PRT_STATE p) Fld.PRT_STATE_TDI = 1 ∧
      (t.tenancy p).nonce = s.draw.2.take 32 ∧ t.out = .message p 3 3 (s.draw.2.take 32) :: s.out) ∧
  (∀ (s : State) (p : Nat) (nonce : List Byte), p ∈ allParts → s.answersDoe p = true → s.partState p = 3 → nonce = (s.tenancy p).nonce →
    Gives (.startInterfaceRequest p nonce) s fun t => t.partState p = 4 ∧ t.fget (Reg.PRT_STATE p) Fld.PRT_STATE_TDI = 2 ∧
      t.out.head? = some (.message p 3 6 [])) ∧
  (∀ (s : State) (p : Nat), s.answersDoe p = true → s.inUse p = true → Gives (.stopInterfaceRequest p) s fun t =>
    t.partState p = 5 ∧ t.out.head? = some (.message p 3 7 [])) ∧
  (∀ (s : State) (p : Nat), s.answersDoe p = true → s.partState p = 3 ∨ s.partState p = 4 → Gives (.getDeviceInterfaceReport p) s fun t =>
    t = s.emit (.message p 3 4 (leBytes 1 0 ++ leBytes 8 16777216 ++ leBytes 1 2 ++ leBytes 8 (s.memSize p) ++ leBytes 2 8))) ∧
  (∀ (s : State) (fn idx : Nat) (sig : Bool) (tr : List Byte), s.answersDoe fn = true → s.identOk = true → s.rootOk = true →
    1 ≤ idx → idx ≤ 8 → Gives (.getMeasurements fn idx sig tr) s fun t =>
      let v := s.measure fn idx
      t = s.emit (.message fn 1 0x60 ((leBytes 1 idx ++ leBytes 1 (if idx ≤ 5 then 0 else 1) ++ leBytes 2 v.length ++ v) ++
        if sig then (s.aliasSigs tr).1 ++ (s.aliasSigs tr).2 else []))) ∧
  (∀ (s : State) (fn slot : Nat), s.answersDoe fn = true → s.identOk = true → s.rootOk = true → slot ≤ 1 →
    Gives (.getCertificate fn slot) s fun t => ∃ chain, t = s.emit (.message fn 1 0x02 chain) ∧
      Config.certificate slot 0 [] <+: chain) ∧
  (∀ (s : State) (fn id : Nat) (secret cert : List Byte), s.answersDoe fn = true → s.identOk = true → s.rootOk = true → s.entropy = true →
    let held := s.keeper.sessions.filter fun (x : Session) => x.part == fn
    held.any (fun x => x.id == id) = false → (fn = 0 ∨ held.length < 8) → Gives (.keyExchange fn id true secret cert) s fun t =>
      t.keeper.sessions = s.keeper.sessions ++ [⟨fn, id, secret, cert⟩] ∧ t.keeper.draws = s.keeper.draws + 1 ∧
        t.out = .message fn 1 0x64 (leBytes 4 id) :: s.out) ∧
  (∀ (s : State) (p id : Nat), s.answersDoe p = true → s.rootOk = true →
    s.keeper.sessions.any (fun (x : Session) => x.part == p && x.id == id) = true → Gives (.mordantReport p id) s fun t =>
      ∃ v, t = s.emit (.message p 1 0x7E v) ∧ sliceB (s.mordantOf p).job 0 32 <+: v)

/-! ## Protection -/

/-- R535, R536, R542, R544 to R546: the rows of the region table, of BAR2 and of IDE complete. -/
def Obligations.ProtectionRowsComplete : Prop :=
  (∀ (s : State) (r : RegReq) (p n w : Nat) (v : Word), p ∈ allParts → n < 32 → w < 3 → r.who = p + 2 → r.trusted = true →
    r.be % 16 = 15 → s.tdiRun p = true → s.reaches r (Reg.TKEY_RGN_0 p n + 4 * w) = true →
    let a := Reg.TKEY_RGN_2 p n
    (s.flag a Fld.TKEY_RGN_2_VALID = false → (w = 2 → Fld.TKEY_RGN_2_VALID.get v = 1 → s.rgnWhy p n v = 0) →
      Gives (.regionEntryWrite r p n w v) s fun t => t = s.regWrite (Reg.TKEY_RGN_0 p n + 4 * w) v) ∧
    (s.flag a Fld.TKEY_RGN_2_VALID = true → w = 2 → Fld.TKEY_RGN_2_VALID.get v = 0 →
      Gives (.regionEntryWrite r p n w v) s fun t => t = s.fput a Fld.TKEY_RGN_2_VALID 0)) ∧
  (∀ (s : State) (p o len : Nat) (errs : List ReadErr), s.vfEnabled p = true → s.partState p = 4 → s.tdiRun p = true →
    let inside := min len (s.memSize p - o)
    (∀ x ∈ s.barPieces p o inside, s.checkSector p mBarRd true x.1 x.2 = 0) → Gives (.bar2Access p true o len none errs) s fun t =>
      let y := (s.barPieces p o inside).foldl (fun (x : State × Bool × List Byte) pc =>
        let z := x.1.readPiece errs p false false pc.1 pc.2
        (z.1, x.2.1 && z.2.ok, x.2.2 ++ z.2.bytes)) (s, true, [])
      t.regs = y.1.regs ∧ t.out = (if y.2.1 then
        .barRead p o (Config.ideSealed (y.1.ideStream p) y.1.serial (y.2.2 ++ ffBytes (len - inside))) else .hostPoison o len) :: y.1.out) ∧
  (∀ (s : State) (p o len : Nat) (d : List Byte) (errs : List ReadErr), s.vfEnabled p = true → s.partState p = 4 → s.tdiRun p = true →
    let inside := min d.length (s.memSize p - o)
    (∀ x ∈ s.barPieces p o inside, s.checkSector p mBarWr true x.1 x.2 = 0) → Gives (.bar2Access p true o len (some d) errs) s fun t =>
      t = ((s.barPieces p o inside).foldl (fun (x : State × Nat) pc =>
        ((x.1.writePiece errs p false pc.1 ((d.drop x.2).take pc.2)).1, x.2 + pc.2)) (s, 0)).1) ∧
  (∀ (s : State) (i : Nat), i < 4 →
    let p := s.fget (Reg.HST_IDE i) Fld.HST_IDE_VF
    p ∈ allParts → s.flag (Reg.HST_IDE i) Fld.HST_IDE_SECURE = true → Gives (.ideIntegrityFail i) s fun t =>
      t.flag (Reg.HST_IDE i) Fld.HST_IDE_SECURE = false ∧ (s.partState p = 4 → t.fget (Reg.PRT_STATE p) Fld.PRT_STATE_TDI = 3) ∧
        ∀ e, e < 16 → t.dma e = (s.dma e).map fun d =>
          if d.owner = p ∧ d.fin.isNone then { d with fin := some ⟨0x18, 0, [], []⟩ } else d) ∧
  (∀ (s : State) (p id i sid : Nat), p ∈ allParts → i < 4 → sid < 256 → s.answersDoe p = true →
    s.keeper.sessions.any (fun (x : Session) => x.part == p && x.id == id) = true →
    let a := Reg.HST_IDE i
    (s.fget a Fld.HST_IDE_VF = p ∨ s.flag a Fld.HST_IDE_SECURE = false → Gives (.ideKm p id i sid true) s fun t =>
      t.flag a Fld.HST_IDE_SECURE = true ∧ t.fget a Fld.HST_IDE_VF = p ∧ t.fget a Fld.HST_IDE_STREAM_ID = sid) ∧
    (s.fget a Fld.HST_IDE_VF = p → Gives (.ideKm p id i sid false) s fun t => t.flag a Fld.HST_IDE_SECURE = false))

/-! ## Core SRAM repair and the near-memory engines -/

/-- R238 to R246: the rows of scrubbing, column tests and retirement complete. -/
def Obligations.RepairRowsComplete : Prop :=
  (∀ (s : State) (c b m row w bit : Nat), c < 136 → s.flag Reg.DBG_SCRUB_CTRL Fld.DBG_SCRUB_CTRL_EN = true →
    Gives (.scrubRead c b m row w .clean) s (fun t => t = s) ∧
    Gives (.scrubRead c b m row w (.corrected bit)) s (fun t => t.fget (Reg.DBG_CE_COUNT c) Fld.DBG_CE_COUNT_COUNT =
      satAdd Fld.DBG_CE_COUNT_COUNT.width (s.fget (Reg.DBG_CE_COUNT c) Fld.DBG_CE_COUNT_COUNT) 1) ∧
    Gives (.scrubRead c b m row w .uncorrectable) s (fun t => t.regs = (s.noteUe 0 c b m row 2).regs ∧
      SMap.get (fun _ => false) t.cores.ueWords (c * 1048576 + b * 65536 + m * 4096 + row * 8 + w) = true)) ∧
  (∀ (s : State) (c b m col k : Nat), s.testDue c b m col = true →
    (List.range 4).find? (fun k => s.spare c b m k / 1024 == 0) = some k → Gives (.columnTest c b m col) s fun t =>
      t.spare c b m k = col + 1024 ∧ t.cores.tests = s.cores.tests ++ [(c, b, m, col, k)] ∧
        t.flag Reg.DBG_SRAM_STAT Fld.DBG_SRAM_STAT_TEST_BUSY = true) ∧
  (∀ (s : State) (c b m col : Nat), c < 136 → s.testDue c b m col = true →
    (List.range 4).find? (fun k => s.spare c b m k / 1024 == 0) = none → Gives (.columnTest c b m col) s fun t =>
      t.cores.deferred = s.cores.deferred ++ [(c, b, m, col)] ∧ t.flag (Reg.DBG_CORE_STAT c) Fld.DBG_CORE_STAT_RETIRE_PEND = true) ∧
  (∀ (s : State) (c b m col k : Nat) (fails : List (List Nat)), c < 136 → (c, b, m, col, k) ∈ s.cores.tests →
    (∀ x ∈ s.cores.tests, x.1 = c → x.2.1 = b → x.2.2.1 = m → x.2.2.2.1 = col → x = (c, b, m, col, k)) →
    Gives (.columnTestVerdict c b m col fails) s fun t =>
      t.fget Reg.DBG_COLTEST Fld.DBG_COLTEST_VERDICT = verdictOf fails ∧ t.cores.tests = s.cores.tests.filter (· ≠ (c, b, m, col, k)) ∧
        (k < 4 → t.spare c b m k = if verdictOf fails = 1 ∨ verdictOf fails = 2 ∨ verdictOf fails = 3 ∨ verdictOf fails = 5 then
          col + 2048 else 0)) ∧
  (∀ (s : State) (r : RegReq) (c : Nat) (v : Word), c < 136 → s.grants r (Reg.DBG_CORE_STAT c) = true →
    Fld.DBG_CORE_STAT_RETIRE_PEND.get v = 1 → Gives (.retirePendSet r c v) s fun t =>
      t.flag (Reg.DBG_CORE_STAT c) Fld.DBG_CORE_STAT_RETIRE_PEND = true)

/-- R156, R285 to R295: the rows of the near-memory engines complete. -/
def Obligations.NearMemoryRowsComplete : Prop :=
  (∀ (s : State) (k delay : Nat) (r : NmeRec) (l : List NmeRec), (s.stk k).queue = r :: l → r.started = false → s.halted = false →
    Gives (.nmeRecordStart ⟨k, delay⟩) s fun t => (t.stk k).queue = { r with started := true } :: l) ∧
  (∀ (s : State) (k : Nat) (errs : List ReadErr),
    RecordRow (.nmeNop k false) s k 0 [] (fun s _ => (s, ⟨0, 0, 0⟩)) ∧ RecordRow (.gemv k errs false) s k 1 errs gemvWork ∧
    RecordRow (.nmeCopy k errs false) s k 2 errs copyWork ∧
    RecordRow (.fill k false) s k 3 [] (fillWork (fun x => (List.replicate 32 (sliceB x.b 40 8)).flatten) fun x => recN x.b 24 8 == 0) ∧
    RecordRow (.zero k false) s k 4 [] (fillWork (fun _ => List.replicate 256 0#8) fun x => recN x.b 24 8 == 0 && recN x.b 40 8 == 0) ∧
    RecordRow (.wipe k false) s k 5 [] wipeWork ∧ RecordRow (.gather k errs false) s k 6 errs gatherWork ∧
    RecordRow (.scatterAdd k errs false) s k 7 errs scatterWork) ∧
  (∀ (s : State) (k : Nat) (x : NmeXfer), (s.nmeXfers.find? fun x => x.stks.contains k &&
    !((s.stk k).queue ++ (s.stk k).backlog).any (fun r => r.xfer == x.id)) = some x → x.part ∈ allParts → x.cset < 32 → Gives (.nmePartComplete k) s fun t =>
      t.cset x.part x.cset = s.cset x.part x.cset - 1)
end

