-- ==== Sys2Proof/Laws/Maps.lean ====
section
/-! SUPPORT. The sparse maps: a read after a write, and that every operation keeps the canonical form. -/

namespace Sys2Proof.Machine

variable {α : Type}

theorem SMap.get_erase_same (d : Nat → α) (m : SMap α) (k : Nat) : SMap.get d (SMap.erase m k) k = d k := by
  induction m with
  | nil => rfl
  | cons e t ih =>
    obtain ⟨k', v⟩ := e
    by_cases h : k' = k <;> simp [SMap.erase, h, SMap.get, ih]

theorem SMap.get_erase_ne (d : Nat → α) (m : SMap α) {k j : Nat} (h : j ≠ k) :
    SMap.get d (SMap.erase m k) j = SMap.get d m j := by
  induction m with
  | nil => rfl
  | cons e t ih =>
    obtain ⟨k', v⟩ := e
    by_cases h' : k' = k
    · subst h'
      simp [SMap.erase, SMap.get, ih, Ne.symm h]
    · simp [SMap.erase, h', SMap.get, ih]

theorem SMap.get_insert_ne (d : Nat → α) (m : SMap α) {k j : Nat} (v : α) (h : j ≠ k) :
    SMap.get d (SMap.insert k v m) j = SMap.get d m j := by
  induction m with
  | nil => simp [SMap.insert, SMap.get, Ne.symm h]
  | cons e t ih =>
    obtain ⟨k', v'⟩ := e
    by_cases h' : k < k'
    · simp [SMap.insert, h', SMap.get, Ne.symm h]
    · simp [SMap.insert, h', SMap.get, ih]

theorem SMap.get_insert_erase (d : Nat → α) (m : SMap α) (k : Nat) (v : α) :
    SMap.get d (SMap.insert k v (SMap.erase m k)) k = v := by
  induction m with
  | nil => simp [SMap.erase, SMap.insert, SMap.get]
  | cons e t ih =>
    obtain ⟨k', v'⟩ := e
    by_cases h : k' = k
    · simpa [SMap.erase, h] using ih
    · by_cases h' : k < k' <;> simp [SMap.erase, h, SMap.insert, h', SMap.get, ih]

/-- A read of the index that was written gives the value written. -/
@[simp] theorem SMap.get_set_same [DecidableEq α] (d : Nat → α) (m : SMap α) (k : Nat) (v : α) :
    SMap.get d (SMap.set d m k v) k = v := by
  unfold SMap.set
  split
  · next h => rw [SMap.get_erase_same, h]
  · exact SMap.get_insert_erase d m k v

/-- A write leaves every other index as it was. -/
theorem SMap.get_set_ne [DecidableEq α] (d : Nat → α) (m : SMap α) {k j : Nat} (v : α) (h : j ≠ k) :
    SMap.get d (SMap.set d m k v) j = SMap.get d m j := by
  unfold SMap.set
  split
  · exact SMap.get_erase_ne d m h
  · rw [SMap.get_insert_ne d _ v h, SMap.get_erase_ne d m h]

theorem SMap.mem_erase {m : SMap α} {k : Nat} {e : Nat × α} (h : e ∈ SMap.erase m k) : e ∈ m ∧ e.1 ≠ k := by
  induction m with
  | nil => cases h
  | cons a t ih =>
    obtain ⟨k', v⟩ := a
    by_cases h' : k' = k
    · simp only [SMap.erase, h', if_true] at h
      exact ⟨List.mem_cons_of_mem _ (ih h).1, (ih h).2⟩
    · simp only [SMap.erase, h', if_false, List.mem_cons] at h
      rcases h with rfl | h
      · exact ⟨List.mem_cons_self, h'⟩
      · exact ⟨List.mem_cons_of_mem _ (ih h).1, (ih h).2⟩

theorem SMap.mem_insert {m : SMap α} {k : Nat} {v : α} {e : Nat × α} (h : e ∈ SMap.insert k v m) : e = (k, v) ∨ e ∈ m := by
  induction m with
  | nil => exact .inl (List.mem_singleton.1 h)
  | cons a t ih =>
    obtain ⟨k', v'⟩ := a
    by_cases h' : k < k'
    · simp only [SMap.insert, h', if_true, List.mem_cons] at h
      rcases h with h | h | h <;> simp [h]
    · simp only [SMap.insert, h', if_false, List.mem_cons] at h
      rcases h with h | h
      · simp [h]
      · rcases ih h with h | h <;> simp [h]

theorem SMap.wf_cons [DecidableEq α] (d : Nat → α) (k : Nat) (v : α) (t : SMap α) :
    SMap.wf d ((k, v) :: t) = true ↔ v ≠ d k ∧ (∀ e ∈ t, k < e.1) ∧ SMap.wf d t = true := by
  simp [SMap.wf, and_assoc]

theorem SMap.wf_erase [DecidableEq α] (d : Nat → α) {m : SMap α} (k : Nat) (h : SMap.wf d m = true) :
    SMap.wf d (SMap.erase m k) = true := by
  induction m with
  | nil => rfl
  | cons a t ih =>
    obtain ⟨k', v⟩ := a
    obtain ⟨h1, h2, h3⟩ := (SMap.wf_cons d k' v t).1 h
    by_cases h' : k' = k
    · simpa [SMap.erase, h'] using ih h3
    · simp only [SMap.erase, h', if_false]
      exact (SMap.wf_cons ..).2 ⟨h1, fun e he => h2 e (SMap.mem_erase he).1, ih h3⟩

theorem SMap.wf_insert [DecidableEq α] (d : Nat → α) {m : SMap α} {k : Nat} {v : α} (hv : v ≠ d k) (hk : ∀ e ∈ m, e.1 ≠ k)
    (h : SMap.wf d m = true) : SMap.wf d (SMap.insert k v m) = true := by
  induction m with
  | nil => simp [SMap.insert, SMap.wf, hv]
  | cons a t ih =>
    obtain ⟨k', v'⟩ := a
    obtain ⟨h1, h2, h3⟩ := (SMap.wf_cons d k' v' t).1 h
    have hne : k' ≠ k := hk (k', v') List.mem_cons_self
    by_cases h' : k < k'
    · simp only [SMap.insert, h', if_true]
      refine (SMap.wf_cons ..).2 ⟨hv, fun e he => ?_, h⟩
      rcases List.mem_cons.1 he with rfl | he
      · exact h'
      · exact h'.trans (h2 e he)
    · simp only [SMap.insert, h', if_false]
      refine (SMap.wf_cons ..).2 ⟨h1, fun e he => ?_, ih (fun e he => hk e (List.mem_cons_of_mem _ he)) h3⟩
      rcases SMap.mem_insert he with rfl | he
      · show k' < k
        omega
      · exact h2 e he

/-- A write keeps the canonical form. -/
theorem SMap.wf_set [DecidableEq α] (d : Nat → α) {m : SMap α} (k : Nat) (v : α) (h : SMap.wf d m = true) :
    SMap.wf d (SMap.set d m k v) = true := by
  unfold SMap.set
  split
  · exact SMap.wf_erase d k h
  · next hv => exact SMap.wf_insert d hv (fun e he => (SMap.mem_erase he).2) (SMap.wf_erase d k h)

/-- A filter keeps the canonical form. -/
theorem SMap.wf_filter [DecidableEq α] (d : Nat → α) {m : SMap α} (f : Nat × α → Bool) (h : SMap.wf d m = true) :
    SMap.wf d (m.filter f) = true := by
  induction m with
  | nil => rfl
  | cons a t ih =>
    obtain ⟨k', v⟩ := a
    obtain ⟨h1, h2, h3⟩ := (SMap.wf_cons d k' v t).1 h
    by_cases hf : f (k', v) = true
    · rw [List.filter_cons_of_pos hf]
      exact (SMap.wf_cons ..).2 ⟨h1, fun e he => h2 e (List.mem_of_mem_filter he), ih h3⟩
    · rw [List.filter_cons_of_neg hf]
      exact ih h3

theorem SMap.wf_clear [DecidableEq α] (d : Nat → α) {m : SMap α} (lo hi : Nat) (h : SMap.wf d m = true) :
    SMap.wf d (SMap.clear m lo hi) = true := SMap.wf_filter d _ h

theorem SMap.wf_keep [DecidableEq α] (d : Nat → α) {m : SMap α} (f : Nat → Bool) (h : SMap.wf d m = true) :
    SMap.wf d (SMap.keep m f) = true := SMap.wf_filter d _ h

theorem SMap.wf_upd [DecidableEq α] (d : Nat → α) {m : SMap α} (k : Nat) (f : α → α) (h : SMap.wf d m = true) :
    SMap.wf d (SMap.upd d m k f) = true := SMap.wf_set d k _ h

theorem SMap.wf_setRun [DecidableEq α] (d : Nat → α) (l : List α) {m : SMap α} (k : Nat) (h : SMap.wf d m = true) :
    SMap.wf d (SMap.setRun d m k l) = true := by
  induction l generalizing m k with
  | nil => exact h
  | cons v t ih => exact ih (k + 1) (SMap.wf_set d k v h)

/-- A run of values written leaves every index outside it as it was. -/
theorem SMap.get_setRun_out [DecidableEq α] (d : Nat → α) (l : List α) (m : SMap α) {k j : Nat} (h : j < k ∨ k + l.length ≤ j) :
    SMap.get d (SMap.setRun d m k l) j = SMap.get d m j := by
  induction l generalizing m k with
  | nil => rfl
  | cons v t ih =>
    simp only [List.length_cons] at h
    rw [SMap.setRun, ih _ (by omega), SMap.get_set_ne d m v (by omega)]

/-- A run of values written is read back. -/
theorem SMap.get_setRun_in [DecidableEq α] (d : Nat → α) (l : List α) (m : SMap α) {k j : Nat} (h : j < l.length) :
    SMap.get d (SMap.setRun d m k l) (k + j) = l[j] := by
  induction l generalizing m k j with
  | nil => simp at h
  | cons v t ih =>
    cases j with
    | zero => rw [SMap.setRun, SMap.get_setRun_out d t _ (.inl (by omega))]; simp
    | succ j =>
      have := ih (SMap.set d m k v) (k := k + 1) (j := j) (by simpa using h)
      simpa [SMap.setRun, Nat.add_assoc, Nat.add_comm 1 j] using this

end Sys2Proof.Machine
end

