-- ==== Sys2Proof/Laws/Kept.lean ====
section
/-! SUPPORT. What each operation of the block leaves alone: `Kept φ s t` says that the queue of commands is the same in `t` as in `s`, that
no programmed life-cycle bit is lost, that device memory keeps its canonical form, and that every part with `φ` true is untouched. One
lemma per operation, in the order of the definitions. -/

namespace Sys2Proof.Machine

/-- What holds between the block before and after. -/
structure Kept (φ : Part → Bool) (s t : State) : Prop where
  pending : t.pending = s.pending
  code : ∀ i, bitOf s.fuses.code i = true → bitOf t.fuses.code i = true
  memWf : Memory.wf s.dram = true → Memory.wf t.dram = true
  mem : φ .mem = true → t.dram = s.dram
  keys : φ .keys = true → t.keys = s.keys
  cores : φ .cores = true → t.cores = s.cores
  coreMap : φ .coreMap = true → t.coreMap = s.coreMap
  fuses : φ .fuses = true → t.fuses = s.fuses
  flash : φ .flash = true → t.flash = s.flash ∧ t.flashActive = s.flashActive ∧ t.flashPending = s.flashPending
  power : φ .power = true → t.power = s.power
  tray : φ .tray = true → t.tray = s.tray
  dmas : φ .dmas = true → t.dmas = s.dmas
  regs : φ .regs = true → t.regs = s.regs
  ports : φ .ports = true → t.ports = s.ports
  lakes : φ .lakes = true → t.lakes = s.lakes
  mtr : φ .mtr = true → t.mtr = s.mtr
  shadows : φ .shadows = true → t.shadows = s.shadows
  out : φ .out = true → t.out = s.out
  seqs : φ .seqs = true → t.seqs = s.seqs
  poison : φ .poison = true → t.poison = s.poison
  channels : φ .channels = true → t.stks = s.stks ∧ t.nmeXfers = s.nmeXfers
  keeper : φ .keeper = true → t.keeper = s.keeper
  usage : φ .usage = true → t.sepia = s.sepia ∧ t.counts = s.counts ∧ t.meters = s.meters ∧ t.meterHold = s.meterHold
  tenancies : φ .tenancies = true → t.tenancies = s.tenancies
  upds : φ .upds = true → t.upds = s.upds
  ringAdv : φ .ringAdv = true → t.ringAdv = s.ringAdv
  wins : φ .wins = true → t.wins = s.wins
  ccs : φ .ccs = true → t.ccs = s.ccs ∧ t.launches = s.launches
  queues : φ .queues = true → t.queues = s.queues ∧ t.arbs = s.arbs
  events : φ .events = true → t.events = s.events
  bus : φ .bus = true → t.eventRcv = s.eventRcv ∧ t.thermAlert = s.thermAlert ∧ t.dynAddr = s.dynAddr
  time : φ .time = true → t.now = s.now ∧ t.trayOfs = s.trayOfs ∧ t.trayRef = s.trayRef ∧ t.trayAt = s.trayAt ∧ t.timeOfs = s.timeOfs ∧ t.ofsSet = s.ofsSet
  haltReq : φ .haltReq = true → t.haltReq = s.haltReq
  halt : φ .halt = true → t.halted = s.halted ∧ t.haltDone = s.haltDone
  frozen : φ .frozen = true → t.freezeAt = s.freezeAt
  dumps : φ .dumps = true → t.dumps = s.dumps
  pcie : φ .pcie = true → t.mse = s.mse ∧ t.vfs = s.vfs ∧ t.crs = s.crs

theorem Kept.refl (φ : Part → Bool) (s : State) : Kept φ s s := by
  constructor <;> simp

theorem off {b : Bool} {P : Prop} (h : b = false) (e : b = true) : P := absurd e (by simp [h])

theorem kept_ite {φ : Part → Bool} {s0 a b : State} {c : Prop} [Decidable c] (ha : Kept φ s0 a) (hb : Kept φ s0 b) :
    Kept φ s0 (if c then a else b) := by split <;> assumption

theorem kept_foldl {φ : Part → Bool} {s0 s : State} {α : Type} {l : List α} {g : State → α → State} (h : Kept φ s0 s)
    (hg : ∀ s a, Kept φ s0 s → Kept φ s0 (g s a)) : Kept φ s0 (l.foldl g s) := by
  induction l generalizing s with
  | nil => exact h
  | cons a l ih => exact ih (hg s a h)

theorem kept_foldl_fst {φ : Part → Bool} {s0 : State} {α β : Type} {l : List α} {g : State × β → α → State × β} {x : State × β}
    (h : Kept φ s0 x.1) (hg : ∀ x a, Kept φ s0 x.1 → Kept φ s0 (g x a).1) : Kept φ s0 (l.foldl g x).1 := by
  induction l generalizing x with
  | nil => exact h
  | cons a l ih => exact ih (hg x a h)

theorem kept_ite_fst {φ : Part → Bool} {s0 : State} {β : Type} {a b : State × β} {c : Prop} [Decidable c] (ha : Kept φ s0 a.1)
    (hb : Kept φ s0 b.1) : Kept φ s0 (if c then a else b).1 := by split <;> assumption

theorem kept_mk_fst {φ : Part → Bool} {s0 a : State} {β : Type} {b : β} (ha : Kept φ s0 a) : Kept φ s0 (a, b).1 := ha

theorem kept_of_eq {φ : Part → Bool} {s0 a : State} {β : Type} {x : State × β} {b : β} (e : x = (a, b)) (h : Kept φ s0 x.1) :
    Kept φ s0 a := by rw [e] at h; exact h

/-- The same of results that may hold no state. -/
def KeptO (φ : Part → Bool) (s0 : State) (o : Option State) : Prop := ∀ t, o = some t → Kept φ s0 t
def KeptP {β : Type} (φ : Part → Bool) (s0 : State) (o : Option (State × β)) : Prop := ∀ t, o = some t → Kept φ s0 t.1
def KeptE {ε : Type} (φ : Part → Bool) (s0 : State) (o : Except ε State) : Prop := ∀ t, o = .ok t → Kept φ s0 t
def KeptR {ε β : Type} (φ : Part → Bool) (s0 : State) (o : Except ε (State × β)) : Prop := ∀ t, o = .ok t → Kept φ s0 t.1

theorem keptO_none {φ : Part → Bool} {s0 : State} : KeptO φ s0 none := by intro t e; cases e
theorem keptO_some {φ : Part → Bool} {s0 s : State} (h : Kept φ s0 s) : KeptO φ s0 (some s) := by intro t e; cases e; exact h
theorem keptO_ite {φ : Part → Bool} {s0 : State} {a b : Option State} {c : Prop} [Decidable c] (ha : KeptO φ s0 a)
    (hb : KeptO φ s0 b) : KeptO φ s0 (if c then a else b) := by split <;> assumption
theorem keptO_map {α : Type} {φ : Part → Bool} {s0 : State} {o : Option α} {g : α → State} (hg : ∀ x, Kept φ s0 (g x)) :
    KeptO φ s0 (o.map g) := by
  intro t e
  cases o with
  | none => cases e
  | some a => cases e; exact hg a
theorem keptO_get {φ : Part → Bool} {s0 a : State} {o : Option State} (e : o = some a) (h : KeptO φ s0 o) : Kept φ s0 a := h _ e
theorem kept_getD {φ : Part → Bool} {s0 a : State} {o : Option State} (h : KeptO φ s0 o) (ha : Kept φ s0 a) :
    Kept φ s0 (o.getD a) := by
  cases o with
  | none => exact ha
  | some t => exact h t rfl
theorem keptP_none {β : Type} {φ : Part → Bool} {s0 : State} : KeptP φ s0 (none : Option (State × β)) := by intro t e; cases e
theorem keptP_some' {β : Type} {φ : Part → Bool} {s0 : State} {x : State × β} (h : Kept φ s0 x.1) : KeptP φ s0 (some x) := by
  intro t e; cases e; exact h
theorem keptP_map {β : Type} {φ : Part → Bool} {s0 : State} {o : Option State} {g : State → State × β} (h : KeptO φ s0 o)
    (hg : ∀ s, Kept φ s0 s → Kept φ s0 (g s).1) : KeptP φ s0 (o.map g) := by
  intro t e
  cases o with
  | none => cases e
  | some a => cases e; exact hg a (h a rfl)
theorem keptP_ite {β : Type} {φ : Part → Bool} {s0 : State} {a b : Option (State × β)} {c : Prop} [Decidable c] (ha : KeptP φ s0 a)
    (hb : KeptP φ s0 b) : KeptP φ s0 (if c then a else b) := by split <;> assumption
theorem keptP_get {β : Type} {φ : Part → Bool} {s0 a : State} {b : β} {o : Option (State × β)} (e : o = some (a, b))
    (h : KeptP φ s0 o) : Kept φ s0 a := h _ e
theorem keptE_ok {ε : Type} {φ : Part → Bool} {s0 s : State} (h : Kept φ s0 s) : KeptE φ s0 (.ok s : Except ε State) := by
  intro t e; cases e; exact h
theorem keptE_error {ε : Type} {φ : Part → Bool} {s0 : State} {x : ε} : KeptE φ s0 (.error x) := by intro t e; cases e
theorem keptE_ite {ε : Type} {φ : Part → Bool} {s0 : State} {a b : Except ε State} {c : Prop} [Decidable c] (ha : KeptE φ s0 a)
    (hb : KeptE φ s0 b) : KeptE φ s0 (if c then a else b) := by split <;> assumption
theorem keptE_get {ε : Type} {φ : Part → Bool} {s0 a : State} {o : Except ε State} (e : o = .ok a) (h : KeptE φ s0 o) : Kept φ s0 a := h _ e
theorem keptR_ok' {ε β : Type} {φ : Part → Bool} {s0 : State} {x : State × β} (h : Kept φ s0 x.1) : KeptR φ s0 (.ok x : Except ε (State × β)) := by
  intro t e; cases e; exact h
theorem keptR_error {ε β : Type} {φ : Part → Bool} {s0 : State} {x : ε} : KeptR φ s0 (.error x : Except ε (State × β)) := by intro t e; cases e
theorem keptR_ite {ε β : Type} {φ : Part → Bool} {s0 : State} {a b : Except ε (State × β)} {c : Prop} [Decidable c] (ha : KeptR φ s0 a)
    (hb : KeptR φ s0 b) : KeptR φ s0 (if c then a else b) := by split <;> assumption
theorem keptR_get {ε β : Type} {φ : Part → Bool} {s0 a : State} {b : β} {o : Except ε (State × β)} (e : o = .ok (a, b))
    (h : KeptR φ s0 o) : Kept φ s0 a := h _ e

theorem kept_id {φ : Part → Bool} {s0 s : State} (h : Kept φ s0 s) : Kept φ s0 (id s) := h

theorem bitOf_eq (x k : Nat) : bitOf x k = x.testBit k := by
  simp [bitOf, Nat.testBit_eq_decide_div_mod_eq, beq_eq_decide]

theorem bitOf_setCodeBits {c i : Nat} (l : List Nat) (h : bitOf c i = true) : bitOf (setCodeBits c l) i = true := by
  induction l generalizing c with
  | nil => exact h
  | cons a l ih =>
    refine ih ?_
    rw [bitOf_eq] at h ⊢
    rw [Nat.testBit_or, h, Bool.true_or]

theorem Memory.wf_clear {m : Memory} (lo hi : Nat) (h : m.wf = true) : Memory.wf (SMap.clear m lo hi) = true := SMap.wf_clear _ lo hi h

theorem Memory.wf_setRun {m : Memory} (l : List Byte) (k : Nat) (h : m.wf = true) :
    Memory.wf (SMap.setRun (fun _ => 0#8) m k l) = true := SMap.wf_setRun _ l k h

theorem kept_mk {φ : Part → Bool} {s0 s : State}
    {x_serial : _}
    (h : Kept φ s0 s) :
    Kept φ s0 (State.mk s.now s.regs s.shadows s.out s.seqs s.cores s.dram s.poison s.stks s.nmeXfers x_serial s.keys
    s.keeper s.sepia s.counts s.meters s.mtr s.tenancies s.meterHold s.upds s.ringAdv s.ports s.wins s.lakes s.ccs
    s.launches s.queues s.arbs s.dmas s.events s.eventRcv s.thermAlert s.trayOfs s.trayRef s.trayAt s.timeOfs s.ofsSet
    s.coreMap s.haltReq s.halted s.haltDone s.tray s.power s.fuses s.dynAddr s.freezeAt s.dumps s.mse s.vfs s.crs
    s.flash s.flashActive s.flashPending s.pending) :=
  ⟨h.pending, h.code, h.memWf, h.mem, h.keys, h.cores, h.coreMap, h.fuses, h.flash, h.power, h.tray, h.dmas, h.regs,
    h.ports, h.lakes, h.mtr, h.shadows, h.out, h.seqs, h.poison, h.channels, h.keeper, h.usage, h.tenancies, h.upds,
    h.ringAdv, h.wins, h.ccs, h.queues, h.events, h.bus, h.time, h.haltReq, h.halt, h.frozen, h.dumps, h.pcie⟩

theorem kept_mk_bus {φ : Part → Bool} {s0 s : State}
    {x_serial : _} {x_eventRcv : _} {x_thermAlert : _} {x_dynAddr : _}
    (h : Kept φ s0 s) (hbus : φ .bus = false) :
    Kept φ s0 (State.mk s.now s.regs s.shadows s.out s.seqs s.cores s.dram s.poison s.stks s.nmeXfers x_serial s.keys
    s.keeper s.sepia s.counts s.meters s.mtr s.tenancies s.meterHold s.upds s.ringAdv s.ports s.wins s.lakes s.ccs
    s.launches s.queues s.arbs s.dmas s.events x_eventRcv x_thermAlert s.trayOfs s.trayRef s.trayAt s.timeOfs s.ofsSet
    s.coreMap s.haltReq s.halted s.haltDone s.tray s.power s.fuses x_dynAddr s.freezeAt s.dumps s.mse s.vfs s.crs
    s.flash s.flashActive s.flashPending s.pending) :=
  ⟨h.pending, h.code, h.memWf, h.mem, h.keys, h.cores, h.coreMap, h.fuses, h.flash, h.power, h.tray, h.dmas, h.regs,
    h.ports, h.lakes, h.mtr, h.shadows, h.out, h.seqs, h.poison, h.channels, h.keeper, h.usage, h.tenancies, h.upds,
    h.ringAdv, h.wins, h.ccs, h.queues, h.events, off hbus, h.time, h.haltReq, h.halt, h.frozen, h.dumps, h.pcie⟩

theorem kept_mk_ccs {φ : Part → Bool} {s0 s : State}
    {x_serial : _} {x_ccs : _} {x_launches : _}
    (h : Kept φ s0 s) (hccs : φ .ccs = false) :
    Kept φ s0 (State.mk s.now s.regs s.shadows s.out s.seqs s.cores s.dram s.poison s.stks s.nmeXfers x_serial s.keys
    s.keeper s.sepia s.counts s.meters s.mtr s.tenancies s.meterHold s.upds s.ringAdv s.ports s.wins s.lakes x_ccs
    x_launches s.queues s.arbs s.dmas s.events s.eventRcv s.thermAlert s.trayOfs s.trayRef s.trayAt s.timeOfs s.ofsSet
    s.coreMap s.haltReq s.halted s.haltDone s.tray s.power s.fuses s.dynAddr s.freezeAt s.dumps s.mse s.vfs s.crs
    s.flash s.flashActive s.flashPending s.pending) :=
  ⟨h.pending, h.code, h.memWf, h.mem, h.keys, h.cores, h.coreMap, h.fuses, h.flash, h.power, h.tray, h.dmas, h.regs,
    h.ports, h.lakes, h.mtr, h.shadows, h.out, h.seqs, h.poison, h.channels, h.keeper, h.usage, h.tenancies, h.upds,
    h.ringAdv, h.wins, off hccs, h.queues, h.events, h.bus, h.time, h.haltReq, h.halt, h.frozen, h.dumps, h.pcie⟩

theorem kept_mk_channels {φ : Part → Bool} {s0 s : State}
    {x_stks : _} {x_nmeXfers : _} {x_serial : _}
    (h : Kept φ s0 s) (hchannels : φ .channels = false) :
    Kept φ s0 (State.mk s.now s.regs s.shadows s.out s.seqs s.cores s.dram s.poison x_stks x_nmeXfers x_serial s.keys
    s.keeper s.sepia s.counts s.meters s.mtr s.tenancies s.meterHold s.upds s.ringAdv s.ports s.wins s.lakes s.ccs
    s.launches s.queues s.arbs s.dmas s.events s.eventRcv s.thermAlert s.trayOfs s.trayRef s.trayAt s.timeOfs s.ofsSet
    s.coreMap s.haltReq s.halted s.haltDone s.tray s.power s.fuses s.dynAddr s.freezeAt s.dumps s.mse s.vfs s.crs
    s.flash s.flashActive s.flashPending s.pending) :=
  ⟨h.pending, h.code, h.memWf, h.mem, h.keys, h.cores, h.coreMap, h.fuses, h.flash, h.power, h.tray, h.dmas, h.regs,
    h.ports, h.lakes, h.mtr, h.shadows, h.out, h.seqs, h.poison, off hchannels, h.keeper, h.usage, h.tenancies,
    h.upds, h.ringAdv, h.wins, h.ccs, h.queues, h.events, h.bus, h.time, h.haltReq, h.halt, h.frozen, h.dumps, h.pcie⟩

theorem kept_mk_coreMap {φ : Part → Bool} {s0 s : State}
    {x_serial : _} {x_coreMap : _}
    (h : Kept φ s0 s) (hcoreMap : φ .coreMap = false) :
    Kept φ s0 (State.mk s.now s.regs s.shadows s.out s.seqs s.cores s.dram s.poison s.stks s.nmeXfers x_serial s.keys
    s.keeper s.sepia s.counts s.meters s.mtr s.tenancies s.meterHold s.upds s.ringAdv s.ports s.wins s.lakes s.ccs
    s.launches s.queues s.arbs s.dmas s.events s.eventRcv s.thermAlert s.trayOfs s.trayRef s.trayAt s.timeOfs s.ofsSet
    x_coreMap s.haltReq s.halted s.haltDone s.tray s.power s.fuses s.dynAddr s.freezeAt s.dumps s.mse s.vfs s.crs
    s.flash s.flashActive s.flashPending s.pending) :=
  ⟨h.pending, h.code, h.memWf, h.mem, h.keys, h.cores, off hcoreMap, h.fuses, h.flash, h.power, h.tray, h.dmas,
    h.regs, h.ports, h.lakes, h.mtr, h.shadows, h.out, h.seqs, h.poison, h.channels, h.keeper, h.usage, h.tenancies,
    h.upds, h.ringAdv, h.wins, h.ccs, h.queues, h.events, h.bus, h.time, h.haltReq, h.halt, h.frozen, h.dumps, h.pcie⟩

theorem kept_mk_cores {φ : Part → Bool} {s0 s : State}
    {x_cores : _} {x_serial : _}
    (h : Kept φ s0 s) (hcores : φ .cores = false) :
    Kept φ s0 (State.mk s.now s.regs s.shadows s.out s.seqs x_cores s.dram s.poison s.stks s.nmeXfers x_serial s.keys
    s.keeper s.sepia s.counts s.meters s.mtr s.tenancies s.meterHold s.upds s.ringAdv s.ports s.wins s.lakes s.ccs
    s.launches s.queues s.arbs s.dmas s.events s.eventRcv s.thermAlert s.trayOfs s.trayRef s.trayAt s.timeOfs s.ofsSet
    s.coreMap s.haltReq s.halted s.haltDone s.tray s.power s.fuses s.dynAddr s.freezeAt s.dumps s.mse s.vfs s.crs
    s.flash s.flashActive s.flashPending s.pending) :=
  ⟨h.pending, h.code, h.memWf, h.mem, h.keys, off hcores, h.coreMap, h.fuses, h.flash, h.power, h.tray, h.dmas,
    h.regs, h.ports, h.lakes, h.mtr, h.shadows, h.out, h.seqs, h.poison, h.channels, h.keeper, h.usage, h.tenancies,
    h.upds, h.ringAdv, h.wins, h.ccs, h.queues, h.events, h.bus, h.time, h.haltReq, h.halt, h.frozen, h.dumps, h.pcie⟩

theorem kept_mk_cores_coreMap {φ : Part → Bool} {s0 s : State}
    {x_cores : _} {x_serial : _} {x_coreMap : _}
    (h : Kept φ s0 s) (hcores : φ .cores = false) (hcoreMap : φ .coreMap = false) :
    Kept φ s0 (State.mk s.now s.regs s.shadows s.out s.seqs x_cores s.dram s.poison s.stks s.nmeXfers x_serial s.keys
    s.keeper s.sepia s.counts s.meters s.mtr s.tenancies s.meterHold s.upds s.ringAdv s.ports s.wins s.lakes s.ccs
    s.launches s.queues s.arbs s.dmas s.events s.eventRcv s.thermAlert s.trayOfs s.trayRef s.trayAt s.timeOfs s.ofsSet
    x_coreMap s.haltReq s.halted s.haltDone s.tray s.power s.fuses s.dynAddr s.freezeAt s.dumps s.mse s.vfs s.crs
    s.flash s.flashActive s.flashPending s.pending) :=
  ⟨h.pending, h.code, h.memWf, h.mem, h.keys, off hcores, off hcoreMap, h.fuses, h.flash, h.power, h.tray, h.dmas,
    h.regs, h.ports, h.lakes, h.mtr, h.shadows, h.out, h.seqs, h.poison, h.channels, h.keeper, h.usage, h.tenancies,
    h.upds, h.ringAdv, h.wins, h.ccs, h.queues, h.events, h.bus, h.time, h.haltReq, h.halt, h.frozen, h.dumps, h.pcie⟩

theorem kept_mk_cores_usage {φ : Part → Bool} {s0 s : State}
    {x_cores : _} {x_serial : _} {x_sepia : _} {x_counts : _} {x_meters : _} {x_meterHold : _}
    (h : Kept φ s0 s) (hcores : φ .cores = false) (husage : φ .usage = false) :
    Kept φ s0 (State.mk s.now s.regs s.shadows s.out s.seqs x_cores s.dram s.poison s.stks s.nmeXfers x_serial s.keys
    s.keeper x_sepia x_counts x_meters s.mtr s.tenancies x_meterHold s.upds s.ringAdv s.ports s.wins s.lakes s.ccs
    s.launches s.queues s.arbs s.dmas s.events s.eventRcv s.thermAlert s.trayOfs s.trayRef s.trayAt s.timeOfs s.ofsSet
    s.coreMap s.haltReq s.halted s.haltDone s.tray s.power s.fuses s.dynAddr s.freezeAt s.dumps s.mse s.vfs s.crs
    s.flash s.flashActive s.flashPending s.pending) :=
  ⟨h.pending, h.code, h.memWf, h.mem, h.keys, off hcores, h.coreMap, h.fuses, h.flash, h.power, h.tray, h.dmas,
    h.regs, h.ports, h.lakes, h.mtr, h.shadows, h.out, h.seqs, h.poison, h.channels, h.keeper, off husage,
    h.tenancies, h.upds, h.ringAdv, h.wins, h.ccs, h.queues, h.events, h.bus, h.time, h.haltReq, h.halt, h.frozen,
    h.dumps, h.pcie⟩

theorem kept_mk_dmas {φ : Part → Bool} {s0 s : State}
    {x_serial : _} {x_dmas : _}
    (h : Kept φ s0 s) (hdmas : φ .dmas = false) :
    Kept φ s0 (State.mk s.now s.regs s.shadows s.out s.seqs s.cores s.dram s.poison s.stks s.nmeXfers x_serial s.keys
    s.keeper s.sepia s.counts s.meters s.mtr s.tenancies s.meterHold s.upds s.ringAdv s.ports s.wins s.lakes s.ccs
    s.launches s.queues s.arbs x_dmas s.events s.eventRcv s.thermAlert s.trayOfs s.trayRef s.trayAt s.timeOfs s.ofsSet
    s.coreMap s.haltReq s.halted s.haltDone s.tray s.power s.fuses s.dynAddr s.freezeAt s.dumps s.mse s.vfs s.crs
    s.flash s.flashActive s.flashPending s.pending) :=
  ⟨h.pending, h.code, h.memWf, h.mem, h.keys, h.cores, h.coreMap, h.fuses, h.flash, h.power, h.tray, off hdmas,
    h.regs, h.ports, h.lakes, h.mtr, h.shadows, h.out, h.seqs, h.poison, h.channels, h.keeper, h.usage, h.tenancies,
    h.upds, h.ringAdv, h.wins, h.ccs, h.queues, h.events, h.bus, h.time, h.haltReq, h.halt, h.frozen, h.dumps, h.pcie⟩

theorem kept_mk_dumps {φ : Part → Bool} {s0 s : State}
    {x_serial : _} {x_dumps : _}
    (h : Kept φ s0 s) (hdumps : φ .dumps = false) :
    Kept φ s0 (State.mk s.now s.regs s.shadows s.out s.seqs s.cores s.dram s.poison s.stks s.nmeXfers x_serial s.keys
    s.keeper s.sepia s.counts s.meters s.mtr s.tenancies s.meterHold s.upds s.ringAdv s.ports s.wins s.lakes s.ccs
    s.launches s.queues s.arbs s.dmas s.events s.eventRcv s.thermAlert s.trayOfs s.trayRef s.trayAt s.timeOfs s.ofsSet
    s.coreMap s.haltReq s.halted s.haltDone s.tray s.power s.fuses s.dynAddr s.freezeAt x_dumps s.mse s.vfs s.crs
    s.flash s.flashActive s.flashPending s.pending) :=
  ⟨h.pending, h.code, h.memWf, h.mem, h.keys, h.cores, h.coreMap, h.fuses, h.flash, h.power, h.tray, h.dmas, h.regs,
    h.ports, h.lakes, h.mtr, h.shadows, h.out, h.seqs, h.poison, h.channels, h.keeper, h.usage, h.tenancies, h.upds,
    h.ringAdv, h.wins, h.ccs, h.queues, h.events, h.bus, h.time, h.haltReq, h.halt, h.frozen, off hdumps, h.pcie⟩

theorem kept_mk_events {φ : Part → Bool} {s0 s : State}
    {x_serial : _} {x_events : _}
    (h : Kept φ s0 s) (hevents : φ .events = false) :
    Kept φ s0 (State.mk s.now s.regs s.shadows s.out s.seqs s.cores s.dram s.poison s.stks s.nmeXfers x_serial s.keys
    s.keeper s.sepia s.counts s.meters s.mtr s.tenancies s.meterHold s.upds s.ringAdv s.ports s.wins s.lakes s.ccs
    s.launches s.queues s.arbs s.dmas x_events s.eventRcv s.thermAlert s.trayOfs s.trayRef s.trayAt s.timeOfs s.ofsSet
    s.coreMap s.haltReq s.halted s.haltDone s.tray s.power s.fuses s.dynAddr s.freezeAt s.dumps s.mse s.vfs s.crs
    s.flash s.flashActive s.flashPending s.pending) :=
  ⟨h.pending, h.code, h.memWf, h.mem, h.keys, h.cores, h.coreMap, h.fuses, h.flash, h.power, h.tray, h.dmas, h.regs,
    h.ports, h.lakes, h.mtr, h.shadows, h.out, h.seqs, h.poison, h.channels, h.keeper, h.usage, h.tenancies, h.upds,
    h.ringAdv, h.wins, h.ccs, h.queues, off hevents, h.bus, h.time, h.haltReq, h.halt, h.frozen, h.dumps, h.pcie⟩

theorem kept_mk_flash {φ : Part → Bool} {s0 s : State}
    {x_serial : _} {x_flash : _} {x_flashActive : _} {x_flashPending : _}
    (h : Kept φ s0 s) (hflash : φ .flash = false) :
    Kept φ s0 (State.mk s.now s.regs s.shadows s.out s.seqs s.cores s.dram s.poison s.stks s.nmeXfers x_serial s.keys
    s.keeper s.sepia s.counts s.meters s.mtr s.tenancies s.meterHold s.upds s.ringAdv s.ports s.wins s.lakes s.ccs
    s.launches s.queues s.arbs s.dmas s.events s.eventRcv s.thermAlert s.trayOfs s.trayRef s.trayAt s.timeOfs s.ofsSet
    s.coreMap s.haltReq s.halted s.haltDone s.tray s.power s.fuses s.dynAddr s.freezeAt s.dumps s.mse s.vfs s.crs
    x_flash x_flashActive x_flashPending s.pending) :=
  ⟨h.pending, h.code, h.memWf, h.mem, h.keys, h.cores, h.coreMap, h.fuses, off hflash, h.power, h.tray, h.dmas,
    h.regs, h.ports, h.lakes, h.mtr, h.shadows, h.out, h.seqs, h.poison, h.channels, h.keeper, h.usage, h.tenancies,
    h.upds, h.ringAdv, h.wins, h.ccs, h.queues, h.events, h.bus, h.time, h.haltReq, h.halt, h.frozen, h.dumps, h.pcie⟩

theorem kept_mk_frozen {φ : Part → Bool} {s0 s : State}
    {x_serial : _} {x_freezeAt : _}
    (h : Kept φ s0 s) (hfrozen : φ .frozen = false) :
    Kept φ s0 (State.mk s.now s.regs s.shadows s.out s.seqs s.cores s.dram s.poison s.stks s.nmeXfers x_serial s.keys
    s.keeper s.sepia s.counts s.meters s.mtr s.tenancies s.meterHold s.upds s.ringAdv s.ports s.wins s.lakes s.ccs
    s.launches s.queues s.arbs s.dmas s.events s.eventRcv s.thermAlert s.trayOfs s.trayRef s.trayAt s.timeOfs s.ofsSet
    s.coreMap s.haltReq s.halted s.haltDone s.tray s.power s.fuses s.dynAddr x_freezeAt s.dumps s.mse s.vfs s.crs
    s.flash s.flashActive s.flashPending s.pending) :=
  ⟨h.pending, h.code, h.memWf, h.mem, h.keys, h.cores, h.coreMap, h.fuses, h.flash, h.power, h.tray, h.dmas, h.regs,
    h.ports, h.lakes, h.mtr, h.shadows, h.out, h.seqs, h.poison, h.channels, h.keeper, h.usage, h.tenancies, h.upds,
    h.ringAdv, h.wins, h.ccs, h.queues, h.events, h.bus, h.time, h.haltReq, h.halt, off hfrozen, h.dumps, h.pcie⟩

theorem kept_mk_halt {φ : Part → Bool} {s0 s : State}
    {x_serial : _} {x_halted : _} {x_haltDone : _}
    (h : Kept φ s0 s) (hhalt : φ .halt = false) :
    Kept φ s0 (State.mk s.now s.regs s.shadows s.out s.seqs s.cores s.dram s.poison s.stks s.nmeXfers x_serial s.keys
    s.keeper s.sepia s.counts s.meters s.mtr s.tenancies s.meterHold s.upds s.ringAdv s.ports s.wins s.lakes s.ccs
    s.launches s.queues s.arbs s.dmas s.events s.eventRcv s.thermAlert s.trayOfs s.trayRef s.trayAt s.timeOfs s.ofsSet
    s.coreMap s.haltReq x_halted x_haltDone s.tray s.power s.fuses s.dynAddr s.freezeAt s.dumps s.mse s.vfs s.crs
    s.flash s.flashActive s.flashPending s.pending) :=
  ⟨h.pending, h.code, h.memWf, h.mem, h.keys, h.cores, h.coreMap, h.fuses, h.flash, h.power, h.tray, h.dmas, h.regs,
    h.ports, h.lakes, h.mtr, h.shadows, h.out, h.seqs, h.poison, h.channels, h.keeper, h.usage, h.tenancies, h.upds,
    h.ringAdv, h.wins, h.ccs, h.queues, h.events, h.bus, h.time, h.haltReq, off hhalt, h.frozen, h.dumps, h.pcie⟩

theorem kept_mk_haltReq {φ : Part → Bool} {s0 s : State}
    {x_serial : _} {x_haltReq : _}
    (h : Kept φ s0 s) (hhaltReq : φ .haltReq = false) :
    Kept φ s0 (State.mk s.now s.regs s.shadows s.out s.seqs s.cores s.dram s.poison s.stks s.nmeXfers x_serial s.keys
    s.keeper s.sepia s.counts s.meters s.mtr s.tenancies s.meterHold s.upds s.ringAdv s.ports s.wins s.lakes s.ccs
    s.launches s.queues s.arbs s.dmas s.events s.eventRcv s.thermAlert s.trayOfs s.trayRef s.trayAt s.timeOfs s.ofsSet
    s.coreMap x_haltReq s.halted s.haltDone s.tray s.power s.fuses s.dynAddr s.freezeAt s.dumps s.mse s.vfs s.crs
    s.flash s.flashActive s.flashPending s.pending) :=
  ⟨h.pending, h.code, h.memWf, h.mem, h.keys, h.cores, h.coreMap, h.fuses, h.flash, h.power, h.tray, h.dmas, h.regs,
    h.ports, h.lakes, h.mtr, h.shadows, h.out, h.seqs, h.poison, h.channels, h.keeper, h.usage, h.tenancies, h.upds,
    h.ringAdv, h.wins, h.ccs, h.queues, h.events, h.bus, h.time, off hhaltReq, h.halt, h.frozen, h.dumps, h.pcie⟩

theorem kept_mk_haltReq_halt {φ : Part → Bool} {s0 s : State}
    {x_serial : _} {x_haltReq : _} {x_halted : _} {x_haltDone : _}
    (h : Kept φ s0 s) (hhaltReq : φ .haltReq = false) (hhalt : φ .halt = false) :
    Kept φ s0 (State.mk s.now s.regs s.shadows s.out s.seqs s.cores s.dram s.poison s.stks s.nmeXfers x_serial s.keys
    s.keeper s.sepia s.counts s.meters s.mtr s.tenancies s.meterHold s.upds s.ringAdv s.ports s.wins s.lakes s.ccs
    s.launches s.queues s.arbs s.dmas s.events s.eventRcv s.thermAlert s.trayOfs s.trayRef s.trayAt s.timeOfs s.ofsSet
    s.coreMap x_haltReq x_halted x_haltDone s.tray s.power s.fuses s.dynAddr s.freezeAt s.dumps s.mse s.vfs s.crs
    s.flash s.flashActive s.flashPending s.pending) :=
  ⟨h.pending, h.code, h.memWf, h.mem, h.keys, h.cores, h.coreMap, h.fuses, h.flash, h.power, h.tray, h.dmas, h.regs,
    h.ports, h.lakes, h.mtr, h.shadows, h.out, h.seqs, h.poison, h.channels, h.keeper, h.usage, h.tenancies, h.upds,
    h.ringAdv, h.wins, h.ccs, h.queues, h.events, h.bus, h.time, off hhaltReq, off hhalt, h.frozen, h.dumps, h.pcie⟩

theorem kept_mk_keeper {φ : Part → Bool} {s0 s : State}
    {x_serial : _} {x_keeper : _}
    (h : Kept φ s0 s) (hkeeper : φ .keeper = false) :
    Kept φ s0 (State.mk s.now s.regs s.shadows s.out s.seqs s.cores s.dram s.poison s.stks s.nmeXfers x_serial s.keys
    x_keeper s.sepia s.counts s.meters s.mtr s.tenancies s.meterHold s.upds s.ringAdv s.ports s.wins s.lakes s.ccs
    s.launches s.queues s.arbs s.dmas s.events s.eventRcv s.thermAlert s.trayOfs s.trayRef s.trayAt s.timeOfs s.ofsSet
    s.coreMap s.haltReq s.halted s.haltDone s.tray s.power s.fuses s.dynAddr s.freezeAt s.dumps s.mse s.vfs s.crs
    s.flash s.flashActive s.flashPending s.pending) :=
  ⟨h.pending, h.code, h.memWf, h.mem, h.keys, h.cores, h.coreMap, h.fuses, h.flash, h.power, h.tray, h.dmas, h.regs,
    h.ports, h.lakes, h.mtr, h.shadows, h.out, h.seqs, h.poison, h.channels, off hkeeper, h.usage, h.tenancies,
    h.upds, h.ringAdv, h.wins, h.ccs, h.queues, h.events, h.bus, h.time, h.haltReq, h.halt, h.frozen, h.dumps, h.pcie⟩

theorem kept_mk_keys {φ : Part → Bool} {s0 s : State}
    {x_serial : _} {x_keys : _}
    (h : Kept φ s0 s) (hkeys : φ .keys = false) :
    Kept φ s0 (State.mk s.now s.regs s.shadows s.out s.seqs s.cores s.dram s.poison s.stks s.nmeXfers x_serial x_keys
    s.keeper s.sepia s.counts s.meters s.mtr s.tenancies s.meterHold s.upds s.ringAdv s.ports s.wins s.lakes s.ccs
    s.launches s.queues s.arbs s.dmas s.events s.eventRcv s.thermAlert s.trayOfs s.trayRef s.trayAt s.timeOfs s.ofsSet
    s.coreMap s.haltReq s.halted s.haltDone s.tray s.power s.fuses s.dynAddr s.freezeAt s.dumps s.mse s.vfs s.crs
    s.flash s.flashActive s.flashPending s.pending) :=
  ⟨h.pending, h.code, h.memWf, h.mem, off hkeys, h.cores, h.coreMap, h.fuses, h.flash, h.power, h.tray, h.dmas,
    h.regs, h.ports, h.lakes, h.mtr, h.shadows, h.out, h.seqs, h.poison, h.channels, h.keeper, h.usage, h.tenancies,
    h.upds, h.ringAdv, h.wins, h.ccs, h.queues, h.events, h.bus, h.time, h.haltReq, h.halt, h.frozen, h.dumps, h.pcie⟩

theorem kept_mk_lakes {φ : Part → Bool} {s0 s : State}
    {x_serial : _} {x_lakes : _}
    (h : Kept φ s0 s) (hlakes : φ .lakes = false) :
    Kept φ s0 (State.mk s.now s.regs s.shadows s.out s.seqs s.cores s.dram s.poison s.stks s.nmeXfers x_serial s.keys
    s.keeper s.sepia s.counts s.meters s.mtr s.tenancies s.meterHold s.upds s.ringAdv s.ports s.wins x_lakes s.ccs
    s.launches s.queues s.arbs s.dmas s.events s.eventRcv s.thermAlert s.trayOfs s.trayRef s.trayAt s.timeOfs s.ofsSet
    s.coreMap s.haltReq s.halted s.haltDone s.tray s.power s.fuses s.dynAddr s.freezeAt s.dumps s.mse s.vfs s.crs
    s.flash s.flashActive s.flashPending s.pending) :=
  ⟨h.pending, h.code, h.memWf, h.mem, h.keys, h.cores, h.coreMap, h.fuses, h.flash, h.power, h.tray, h.dmas, h.regs,
    h.ports, off hlakes, h.mtr, h.shadows, h.out, h.seqs, h.poison, h.channels, h.keeper, h.usage, h.tenancies,
    h.upds, h.ringAdv, h.wins, h.ccs, h.queues, h.events, h.bus, h.time, h.haltReq, h.halt, h.frozen, h.dumps, h.pcie⟩

theorem kept_mk_mtr {φ : Part → Bool} {s0 s : State}
    {x_serial : _} {x_mtr : _}
    (h : Kept φ s0 s) (hmtr : φ .mtr = false) :
    Kept φ s0 (State.mk s.now s.regs s.shadows s.out s.seqs s.cores s.dram s.poison s.stks s.nmeXfers x_serial s.keys
    s.keeper s.sepia s.counts s.meters x_mtr s.tenancies s.meterHold s.upds s.ringAdv s.ports s.wins s.lakes s.ccs
    s.launches s.queues s.arbs s.dmas s.events s.eventRcv s.thermAlert s.trayOfs s.trayRef s.trayAt s.timeOfs s.ofsSet
    s.coreMap s.haltReq s.halted s.haltDone s.tray s.power s.fuses s.dynAddr s.freezeAt s.dumps s.mse s.vfs s.crs
    s.flash s.flashActive s.flashPending s.pending) :=
  ⟨h.pending, h.code, h.memWf, h.mem, h.keys, h.cores, h.coreMap, h.fuses, h.flash, h.power, h.tray, h.dmas, h.regs,
    h.ports, h.lakes, off hmtr, h.shadows, h.out, h.seqs, h.poison, h.channels, h.keeper, h.usage, h.tenancies,
    h.upds, h.ringAdv, h.wins, h.ccs, h.queues, h.events, h.bus, h.time, h.haltReq, h.halt, h.frozen, h.dumps, h.pcie⟩

theorem kept_mk_mtr_usage {φ : Part → Bool} {s0 s : State}
    {x_serial : _} {x_sepia : _} {x_counts : _} {x_meters : _} {x_mtr : _} {x_meterHold : _}
    (h : Kept φ s0 s) (hmtr : φ .mtr = false) (husage : φ .usage = false) :
    Kept φ s0 (State.mk s.now s.regs s.shadows s.out s.seqs s.cores s.dram s.poison s.stks s.nmeXfers x_serial s.keys
    s.keeper x_sepia x_counts x_meters x_mtr s.tenancies x_meterHold s.upds s.ringAdv s.ports s.wins s.lakes s.ccs
    s.launches s.queues s.arbs s.dmas s.events s.eventRcv s.thermAlert s.trayOfs s.trayRef s.trayAt s.timeOfs s.ofsSet
    s.coreMap s.haltReq s.halted s.haltDone s.tray s.power s.fuses s.dynAddr s.freezeAt s.dumps s.mse s.vfs s.crs
    s.flash s.flashActive s.flashPending s.pending) :=
  ⟨h.pending, h.code, h.memWf, h.mem, h.keys, h.cores, h.coreMap, h.fuses, h.flash, h.power, h.tray, h.dmas, h.regs,
    h.ports, h.lakes, off hmtr, h.shadows, h.out, h.seqs, h.poison, h.channels, h.keeper, off husage, h.tenancies,
    h.upds, h.ringAdv, h.wins, h.ccs, h.queues, h.events, h.bus, h.time, h.haltReq, h.halt, h.frozen, h.dumps, h.pcie⟩

theorem kept_mk_out {φ : Part → Bool} {s0 s : State}
    {x_out : _} {x_serial : _}
    (h : Kept φ s0 s) (hout : φ .out = false) :
    Kept φ s0 (State.mk s.now s.regs s.shadows x_out s.seqs s.cores s.dram s.poison s.stks s.nmeXfers x_serial s.keys
    s.keeper s.sepia s.counts s.meters s.mtr s.tenancies s.meterHold s.upds s.ringAdv s.ports s.wins s.lakes s.ccs
    s.launches s.queues s.arbs s.dmas s.events s.eventRcv s.thermAlert s.trayOfs s.trayRef s.trayAt s.timeOfs s.ofsSet
    s.coreMap s.haltReq s.halted s.haltDone s.tray s.power s.fuses s.dynAddr s.freezeAt s.dumps s.mse s.vfs s.crs
    s.flash s.flashActive s.flashPending s.pending) :=
  ⟨h.pending, h.code, h.memWf, h.mem, h.keys, h.cores, h.coreMap, h.fuses, h.flash, h.power, h.tray, h.dmas, h.regs,
    h.ports, h.lakes, h.mtr, h.shadows, off hout, h.seqs, h.poison, h.channels, h.keeper, h.usage, h.tenancies,
    h.upds, h.ringAdv, h.wins, h.ccs, h.queues, h.events, h.bus, h.time, h.haltReq, h.halt, h.frozen, h.dumps, h.pcie⟩

theorem kept_mk_pcie {φ : Part → Bool} {s0 s : State}
    {x_serial : _} {x_mse : _} {x_vfs : _} {x_crs : _}
    (h : Kept φ s0 s) (hpcie : φ .pcie = false) :
    Kept φ s0 (State.mk s.now s.regs s.shadows s.out s.seqs s.cores s.dram s.poison s.stks s.nmeXfers x_serial s.keys
    s.keeper s.sepia s.counts s.meters s.mtr s.tenancies s.meterHold s.upds s.ringAdv s.ports s.wins s.lakes s.ccs
    s.launches s.queues s.arbs s.dmas s.events s.eventRcv s.thermAlert s.trayOfs s.trayRef s.trayAt s.timeOfs s.ofsSet
    s.coreMap s.haltReq s.halted s.haltDone s.tray s.power s.fuses s.dynAddr s.freezeAt s.dumps x_mse x_vfs x_crs
    s.flash s.flashActive s.flashPending s.pending) :=
  ⟨h.pending, h.code, h.memWf, h.mem, h.keys, h.cores, h.coreMap, h.fuses, h.flash, h.power, h.tray, h.dmas, h.regs,
    h.ports, h.lakes, h.mtr, h.shadows, h.out, h.seqs, h.poison, h.channels, h.keeper, h.usage, h.tenancies, h.upds,
    h.ringAdv, h.wins, h.ccs, h.queues, h.events, h.bus, h.time, h.haltReq, h.halt, h.frozen, h.dumps, off hpcie⟩

theorem kept_mk_poison {φ : Part → Bool} {s0 s : State}
    {x_poison : _} {x_serial : _}
    (h : Kept φ s0 s) (hpoison : φ .poison = false) :
    Kept φ s0 (State.mk s.now s.regs s.shadows s.out s.seqs s.cores s.dram x_poison s.stks s.nmeXfers x_serial s.keys
    s.keeper s.sepia s.counts s.meters s.mtr s.tenancies s.meterHold s.upds s.ringAdv s.ports s.wins s.lakes s.ccs
    s.launches s.queues s.arbs s.dmas s.events s.eventRcv s.thermAlert s.trayOfs s.trayRef s.trayAt s.timeOfs s.ofsSet
    s.coreMap s.haltReq s.halted s.haltDone s.tray s.power s.fuses s.dynAddr s.freezeAt s.dumps s.mse s.vfs s.crs
    s.flash s.flashActive s.flashPending s.pending) :=
  ⟨h.pending, h.code, h.memWf, h.mem, h.keys, h.cores, h.coreMap, h.fuses, h.flash, h.power, h.tray, h.dmas, h.regs,
    h.ports, h.lakes, h.mtr, h.shadows, h.out, h.seqs, off hpoison, h.channels, h.keeper, h.usage, h.tenancies,
    h.upds, h.ringAdv, h.wins, h.ccs, h.queues, h.events, h.bus, h.time, h.haltReq, h.halt, h.frozen, h.dumps, h.pcie⟩

theorem kept_mk_ports {φ : Part → Bool} {s0 s : State}
    {x_serial : _} {x_ports : _}
    (h : Kept φ s0 s) (hports : φ .ports = false) :
    Kept φ s0 (State.mk s.now s.regs s.shadows s.out s.seqs s.cores s.dram s.poison s.stks s.nmeXfers x_serial s.keys
    s.keeper s.sepia s.counts s.meters s.mtr s.tenancies s.meterHold s.upds s.ringAdv x_ports s.wins s.lakes s.ccs
    s.launches s.queues s.arbs s.dmas s.events s.eventRcv s.thermAlert s.trayOfs s.trayRef s.trayAt s.timeOfs s.ofsSet
    s.coreMap s.haltReq s.halted s.haltDone s.tray s.power s.fuses s.dynAddr s.freezeAt s.dumps s.mse s.vfs s.crs
    s.flash s.flashActive s.flashPending s.pending) :=
  ⟨h.pending, h.code, h.memWf, h.mem, h.keys, h.cores, h.coreMap, h.fuses, h.flash, h.power, h.tray, h.dmas, h.regs,
    off hports, h.lakes, h.mtr, h.shadows, h.out, h.seqs, h.poison, h.channels, h.keeper, h.usage, h.tenancies,
    h.upds, h.ringAdv, h.wins, h.ccs, h.queues, h.events, h.bus, h.time, h.haltReq, h.halt, h.frozen, h.dumps, h.pcie⟩

theorem kept_mk_power {φ : Part → Bool} {s0 s : State}
    {x_serial : _} {x_power : _}
    (h : Kept φ s0 s) (hpower : φ .power = false) :
    Kept φ s0 (State.mk s.now s.regs s.shadows s.out s.seqs s.cores s.dram s.poison s.stks s.nmeXfers x_serial s.keys
    s.keeper s.sepia s.counts s.meters s.mtr s.tenancies s.meterHold s.upds s.ringAdv s.ports s.wins s.lakes s.ccs
    s.launches s.queues s.arbs s.dmas s.events s.eventRcv s.thermAlert s.trayOfs s.trayRef s.trayAt s.timeOfs s.ofsSet
    s.coreMap s.haltReq s.halted s.haltDone s.tray x_power s.fuses s.dynAddr s.freezeAt s.dumps s.mse s.vfs s.crs
    s.flash s.flashActive s.flashPending s.pending) :=
  ⟨h.pending, h.code, h.memWf, h.mem, h.keys, h.cores, h.coreMap, h.fuses, h.flash, off hpower, h.tray, h.dmas,
    h.regs, h.ports, h.lakes, h.mtr, h.shadows, h.out, h.seqs, h.poison, h.channels, h.keeper, h.usage, h.tenancies,
    h.upds, h.ringAdv, h.wins, h.ccs, h.queues, h.events, h.bus, h.time, h.haltReq, h.halt, h.frozen, h.dumps, h.pcie⟩

theorem kept_mk_power_bus {φ : Part → Bool} {s0 s : State}
    {x_serial : _} {x_eventRcv : _} {x_thermAlert : _} {x_power : _} {x_dynAddr : _}
    (h : Kept φ s0 s) (hpower : φ .power = false) (hbus : φ .bus = false) :
    Kept φ s0 (State.mk s.now s.regs s.shadows s.out s.seqs s.cores s.dram s.poison s.stks s.nmeXfers x_serial s.keys
    s.keeper s.sepia s.counts s.meters s.mtr s.tenancies s.meterHold s.upds s.ringAdv s.ports s.wins s.lakes s.ccs
    s.launches s.queues s.arbs s.dmas s.events x_eventRcv x_thermAlert s.trayOfs s.trayRef s.trayAt s.timeOfs s.ofsSet
    s.coreMap s.haltReq s.halted s.haltDone s.tray x_power s.fuses x_dynAddr s.freezeAt s.dumps s.mse s.vfs s.crs
    s.flash s.flashActive s.flashPending s.pending) :=
  ⟨h.pending, h.code, h.memWf, h.mem, h.keys, h.cores, h.coreMap, h.fuses, h.flash, off hpower, h.tray, h.dmas,
    h.regs, h.ports, h.lakes, h.mtr, h.shadows, h.out, h.seqs, h.poison, h.channels, h.keeper, h.usage, h.tenancies,
    h.upds, h.ringAdv, h.wins, h.ccs, h.queues, h.events, off hbus, h.time, h.haltReq, h.halt, h.frozen, h.dumps,
    h.pcie⟩

theorem kept_mk_power_mtr {φ : Part → Bool} {s0 s : State}
    {x_serial : _} {x_mtr : _} {x_power : _}
    (h : Kept φ s0 s) (hpower : φ .power = false) (hmtr : φ .mtr = false) :
    Kept φ s0 (State.mk s.now s.regs s.shadows s.out s.seqs s.cores s.dram s.poison s.stks s.nmeXfers x_serial s.keys
    s.keeper s.sepia s.counts s.meters x_mtr s.tenancies s.meterHold s.upds s.ringAdv s.ports s.wins s.lakes s.ccs
    s.launches s.queues s.arbs s.dmas s.events s.eventRcv s.thermAlert s.trayOfs s.trayRef s.trayAt s.timeOfs s.ofsSet
    s.coreMap s.haltReq s.halted s.haltDone s.tray x_power s.fuses s.dynAddr s.freezeAt s.dumps s.mse s.vfs s.crs
    s.flash s.flashActive s.flashPending s.pending) :=
  ⟨h.pending, h.code, h.memWf, h.mem, h.keys, h.cores, h.coreMap, h.fuses, h.flash, off hpower, h.tray, h.dmas,
    h.regs, h.ports, h.lakes, off hmtr, h.shadows, h.out, h.seqs, h.poison, h.channels, h.keeper, h.usage,
    h.tenancies, h.upds, h.ringAdv, h.wins, h.ccs, h.queues, h.events, h.bus, h.time, h.haltReq, h.halt, h.frozen,
    h.dumps, h.pcie⟩

theorem kept_mk_queues {φ : Part → Bool} {s0 s : State}
    {x_serial : _} {x_queues : _} {x_arbs : _}
    (h : Kept φ s0 s) (hqueues : φ .queues = false) :
    Kept φ s0 (State.mk s.now s.regs s.shadows s.out s.seqs s.cores s.dram s.poison s.stks s.nmeXfers x_serial s.keys
    s.keeper s.sepia s.counts s.meters s.mtr s.tenancies s.meterHold s.upds s.ringAdv s.ports s.wins s.lakes s.ccs
    s.launches x_queues x_arbs s.dmas s.events s.eventRcv s.thermAlert s.trayOfs s.trayRef s.trayAt s.timeOfs s.ofsSet
    s.coreMap s.haltReq s.halted s.haltDone s.tray s.power s.fuses s.dynAddr s.freezeAt s.dumps s.mse s.vfs s.crs
    s.flash s.flashActive s.flashPending s.pending) :=
  ⟨h.pending, h.code, h.memWf, h.mem, h.keys, h.cores, h.coreMap, h.fuses, h.flash, h.power, h.tray, h.dmas, h.regs,
    h.ports, h.lakes, h.mtr, h.shadows, h.out, h.seqs, h.poison, h.channels, h.keeper, h.usage, h.tenancies, h.upds,
    h.ringAdv, h.wins, h.ccs, off hqueues, h.events, h.bus, h.time, h.haltReq, h.halt, h.frozen, h.dumps, h.pcie⟩

theorem kept_mk_regs {φ : Part → Bool} {s0 s : State}
    {x_regs : _} {x_serial : _}
    (h : Kept φ s0 s) (hregs : φ .regs = false) :
    Kept φ s0 (State.mk s.now x_regs s.shadows s.out s.seqs s.cores s.dram s.poison s.stks s.nmeXfers x_serial s.keys
    s.keeper s.sepia s.counts s.meters s.mtr s.tenancies s.meterHold s.upds s.ringAdv s.ports s.wins s.lakes s.ccs
    s.launches s.queues s.arbs s.dmas s.events s.eventRcv s.thermAlert s.trayOfs s.trayRef s.trayAt s.timeOfs s.ofsSet
    s.coreMap s.haltReq s.halted s.haltDone s.tray s.power s.fuses s.dynAddr s.freezeAt s.dumps s.mse s.vfs s.crs
    s.flash s.flashActive s.flashPending s.pending) :=
  ⟨h.pending, h.code, h.memWf, h.mem, h.keys, h.cores, h.coreMap, h.fuses, h.flash, h.power, h.tray, h.dmas, off
    hregs, h.ports, h.lakes, h.mtr, h.shadows, h.out, h.seqs, h.poison, h.channels, h.keeper, h.usage, h.tenancies,
    h.upds, h.ringAdv, h.wins, h.ccs, h.queues, h.events, h.bus, h.time, h.haltReq, h.halt, h.frozen, h.dumps, h.pcie⟩

theorem kept_mk_regs_lakes_shadows_seqs_channels_keeper_usage_upds_ringAdv_wins_ccs_queues {φ : Part → Bool} {s0 s : State}
    {x_regs : _} {x_shadows : _} {x_seqs : _} {x_stks : _} {x_nmeXfers : _} {x_serial : _} {x_keeper : _} {x_sepia :
    _} {x_counts : _} {x_meters : _} {x_meterHold : _} {x_upds : _} {x_ringAdv : _} {x_wins : _} {x_lakes : _} {x_ccs
    : _} {x_launches : _} {x_queues : _} {x_arbs : _}
    (h : Kept φ s0 s) (hregs : φ .regs = false) (hlakes : φ .lakes = false) (hshadows : φ .shadows = false) (hseqs : φ .seqs = false)
    (hchannels : φ .channels = false) (hkeeper : φ .keeper = false) (husage : φ .usage = false) (hupds : φ .upds =
    false) (hringAdv : φ .ringAdv = false) (hwins : φ .wins = false) (hccs : φ .ccs = false) (hqueues : φ .queues =
    false) :
    Kept φ s0 (State.mk s.now x_regs x_shadows s.out x_seqs s.cores s.dram s.poison x_stks x_nmeXfers x_serial s.keys
    x_keeper x_sepia x_counts x_meters s.mtr s.tenancies x_meterHold x_upds x_ringAdv s.ports x_wins x_lakes x_ccs
    x_launches x_queues x_arbs s.dmas s.events s.eventRcv s.thermAlert s.trayOfs s.trayRef s.trayAt s.timeOfs s.ofsSet
    s.coreMap s.haltReq s.halted s.haltDone s.tray s.power s.fuses s.dynAddr s.freezeAt s.dumps s.mse s.vfs s.crs
    s.flash s.flashActive s.flashPending s.pending) :=
  ⟨h.pending, h.code, h.memWf, h.mem, h.keys, h.cores, h.coreMap, h.fuses, h.flash, h.power, h.tray, h.dmas, off
    hregs, h.ports, off hlakes, h.mtr, off hshadows, h.out, off hseqs, h.poison, off hchannels, off hkeeper, off
    husage, h.tenancies, off hupds, off hringAdv, off hwins, off hccs, off hqueues, h.events, h.bus, h.time,
    h.haltReq, h.halt, h.frozen, h.dumps, h.pcie⟩

theorem kept_mk_ringAdv {φ : Part → Bool} {s0 s : State}
    {x_serial : _} {x_ringAdv : _}
    (h : Kept φ s0 s) (hringAdv : φ .ringAdv = false) :
    Kept φ s0 (State.mk s.now s.regs s.shadows s.out s.seqs s.cores s.dram s.poison s.stks s.nmeXfers x_serial s.keys
    s.keeper s.sepia s.counts s.meters s.mtr s.tenancies s.meterHold s.upds x_ringAdv s.ports s.wins s.lakes s.ccs
    s.launches s.queues s.arbs s.dmas s.events s.eventRcv s.thermAlert s.trayOfs s.trayRef s.trayAt s.timeOfs s.ofsSet
    s.coreMap s.haltReq s.halted s.haltDone s.tray s.power s.fuses s.dynAddr s.freezeAt s.dumps s.mse s.vfs s.crs
    s.flash s.flashActive s.flashPending s.pending) :=
  ⟨h.pending, h.code, h.memWf, h.mem, h.keys, h.cores, h.coreMap, h.fuses, h.flash, h.power, h.tray, h.dmas, h.regs,
    h.ports, h.lakes, h.mtr, h.shadows, h.out, h.seqs, h.poison, h.channels, h.keeper, h.usage, h.tenancies, h.upds,
    off hringAdv, h.wins, h.ccs, h.queues, h.events, h.bus, h.time, h.haltReq, h.halt, h.frozen, h.dumps, h.pcie⟩

theorem kept_mk_seqs {φ : Part → Bool} {s0 s : State}
    {x_seqs : _} {x_serial : _}
    (h : Kept φ s0 s) (hseqs : φ .seqs = false) :
    Kept φ s0 (State.mk s.now s.regs s.shadows s.out x_seqs s.cores s.dram s.poison s.stks s.nmeXfers x_serial s.keys
    s.keeper s.sepia s.counts s.meters s.mtr s.tenancies s.meterHold s.upds s.ringAdv s.ports s.wins s.lakes s.ccs
    s.launches s.queues s.arbs s.dmas s.events s.eventRcv s.thermAlert s.trayOfs s.trayRef s.trayAt s.timeOfs s.ofsSet
    s.coreMap s.haltReq s.halted s.haltDone s.tray s.power s.fuses s.dynAddr s.freezeAt s.dumps s.mse s.vfs s.crs
    s.flash s.flashActive s.flashPending s.pending) :=
  ⟨h.pending, h.code, h.memWf, h.mem, h.keys, h.cores, h.coreMap, h.fuses, h.flash, h.power, h.tray, h.dmas, h.regs,
    h.ports, h.lakes, h.mtr, h.shadows, h.out, off hseqs, h.poison, h.channels, h.keeper, h.usage, h.tenancies,
    h.upds, h.ringAdv, h.wins, h.ccs, h.queues, h.events, h.bus, h.time, h.haltReq, h.halt, h.frozen, h.dumps, h.pcie⟩

theorem kept_mk_shadows {φ : Part → Bool} {s0 s : State}
    {x_shadows : _} {x_serial : _}
    (h : Kept φ s0 s) (hshadows : φ .shadows = false) :
    Kept φ s0 (State.mk s.now s.regs x_shadows s.out s.seqs s.cores s.dram s.poison s.stks s.nmeXfers x_serial s.keys
    s.keeper s.sepia s.counts s.meters s.mtr s.tenancies s.meterHold s.upds s.ringAdv s.ports s.wins s.lakes s.ccs
    s.launches s.queues s.arbs s.dmas s.events s.eventRcv s.thermAlert s.trayOfs s.trayRef s.trayAt s.timeOfs s.ofsSet
    s.coreMap s.haltReq s.halted s.haltDone s.tray s.power s.fuses s.dynAddr s.freezeAt s.dumps s.mse s.vfs s.crs
    s.flash s.flashActive s.flashPending s.pending) :=
  ⟨h.pending, h.code, h.memWf, h.mem, h.keys, h.cores, h.coreMap, h.fuses, h.flash, h.power, h.tray, h.dmas, h.regs,
    h.ports, h.lakes, h.mtr, off hshadows, h.out, h.seqs, h.poison, h.channels, h.keeper, h.usage, h.tenancies,
    h.upds, h.ringAdv, h.wins, h.ccs, h.queues, h.events, h.bus, h.time, h.haltReq, h.halt, h.frozen, h.dumps, h.pcie⟩

theorem kept_mk_tenancies {φ : Part → Bool} {s0 s : State}
    {x_serial : _} {x_tenancies : _}
    (h : Kept φ s0 s) (htenancies : φ .tenancies = false) :
    Kept φ s0 (State.mk s.now s.regs s.shadows s.out s.seqs s.cores s.dram s.poison s.stks s.nmeXfers x_serial s.keys
    s.keeper s.sepia s.counts s.meters s.mtr x_tenancies s.meterHold s.upds s.ringAdv s.ports s.wins s.lakes s.ccs
    s.launches s.queues s.arbs s.dmas s.events s.eventRcv s.thermAlert s.trayOfs s.trayRef s.trayAt s.timeOfs s.ofsSet
    s.coreMap s.haltReq s.halted s.haltDone s.tray s.power s.fuses s.dynAddr s.freezeAt s.dumps s.mse s.vfs s.crs
    s.flash s.flashActive s.flashPending s.pending) :=
  ⟨h.pending, h.code, h.memWf, h.mem, h.keys, h.cores, h.coreMap, h.fuses, h.flash, h.power, h.tray, h.dmas, h.regs,
    h.ports, h.lakes, h.mtr, h.shadows, h.out, h.seqs, h.poison, h.channels, h.keeper, h.usage, off htenancies,
    h.upds, h.ringAdv, h.wins, h.ccs, h.queues, h.events, h.bus, h.time, h.haltReq, h.halt, h.frozen, h.dumps, h.pcie⟩

theorem kept_mk_time {φ : Part → Bool} {s0 s : State}
    {x_now : _} {x_serial : _} {x_trayOfs : _} {x_trayRef : _} {x_trayAt : _} {x_timeOfs : _} {x_ofsSet : _}
    (h : Kept φ s0 s) (htime : φ .time = false) :
    Kept φ s0 (State.mk x_now s.regs s.shadows s.out s.seqs s.cores s.dram s.poison s.stks s.nmeXfers x_serial s.keys
    s.keeper s.sepia s.counts s.meters s.mtr s.tenancies s.meterHold s.upds s.ringAdv s.ports s.wins s.lakes s.ccs
    s.launches s.queues s.arbs s.dmas s.events s.eventRcv s.thermAlert x_trayOfs x_trayRef x_trayAt x_timeOfs x_ofsSet
    s.coreMap s.haltReq s.halted s.haltDone s.tray s.power s.fuses s.dynAddr s.freezeAt s.dumps s.mse s.vfs s.crs
    s.flash s.flashActive s.flashPending s.pending) :=
  ⟨h.pending, h.code, h.memWf, h.mem, h.keys, h.cores, h.coreMap, h.fuses, h.flash, h.power, h.tray, h.dmas, h.regs,
    h.ports, h.lakes, h.mtr, h.shadows, h.out, h.seqs, h.poison, h.channels, h.keeper, h.usage, h.tenancies, h.upds,
    h.ringAdv, h.wins, h.ccs, h.queues, h.events, h.bus, off htime, h.haltReq, h.halt, h.frozen, h.dumps, h.pcie⟩

theorem kept_mk_tray {φ : Part → Bool} {s0 s : State}
    {x_serial : _} {x_tray : _}
    (h : Kept φ s0 s) (htray : φ .tray = false) :
    Kept φ s0 (State.mk s.now s.regs s.shadows s.out s.seqs s.cores s.dram s.poison s.stks s.nmeXfers x_serial s.keys
    s.keeper s.sepia s.counts s.meters s.mtr s.tenancies s.meterHold s.upds s.ringAdv s.ports s.wins s.lakes s.ccs
    s.launches s.queues s.arbs s.dmas s.events s.eventRcv s.thermAlert s.trayOfs s.trayRef s.trayAt s.timeOfs s.ofsSet
    s.coreMap s.haltReq s.halted s.haltDone x_tray s.power s.fuses s.dynAddr s.freezeAt s.dumps s.mse s.vfs s.crs
    s.flash s.flashActive s.flashPending s.pending) :=
  ⟨h.pending, h.code, h.memWf, h.mem, h.keys, h.cores, h.coreMap, h.fuses, h.flash, h.power, off htray, h.dmas,
    h.regs, h.ports, h.lakes, h.mtr, h.shadows, h.out, h.seqs, h.poison, h.channels, h.keeper, h.usage, h.tenancies,
    h.upds, h.ringAdv, h.wins, h.ccs, h.queues, h.events, h.bus, h.time, h.haltReq, h.halt, h.frozen, h.dumps, h.pcie⟩

theorem kept_mk_upds {φ : Part → Bool} {s0 s : State}
    {x_serial : _} {x_upds : _}
    (h : Kept φ s0 s) (hupds : φ .upds = false) :
    Kept φ s0 (State.mk s.now s.regs s.shadows s.out s.seqs s.cores s.dram s.poison s.stks s.nmeXfers x_serial s.keys
    s.keeper s.sepia s.counts s.meters s.mtr s.tenancies s.meterHold x_upds s.ringAdv s.ports s.wins s.lakes s.ccs
    s.launches s.queues s.arbs s.dmas s.events s.eventRcv s.thermAlert s.trayOfs s.trayRef s.trayAt s.timeOfs s.ofsSet
    s.coreMap s.haltReq s.halted s.haltDone s.tray s.power s.fuses s.dynAddr s.freezeAt s.dumps s.mse s.vfs s.crs
    s.flash s.flashActive s.flashPending s.pending) :=
  ⟨h.pending, h.code, h.memWf, h.mem, h.keys, h.cores, h.coreMap, h.fuses, h.flash, h.power, h.tray, h.dmas, h.regs,
    h.ports, h.lakes, h.mtr, h.shadows, h.out, h.seqs, h.poison, h.channels, h.keeper, h.usage, h.tenancies, off
    hupds, h.ringAdv, h.wins, h.ccs, h.queues, h.events, h.bus, h.time, h.haltReq, h.halt, h.frozen, h.dumps, h.pcie⟩

theorem kept_mk_usage {φ : Part → Bool} {s0 s : State}
    {x_serial : _} {x_sepia : _} {x_counts : _} {x_meters : _} {x_meterHold : _}
    (h : Kept φ s0 s) (husage : φ .usage = false) :
    Kept φ s0 (State.mk s.now s.regs s.shadows s.out s.seqs s.cores s.dram s.poison s.stks s.nmeXfers x_serial s.keys
    s.keeper x_sepia x_counts x_meters s.mtr s.tenancies x_meterHold s.upds s.ringAdv s.ports s.wins s.lakes s.ccs
    s.launches s.queues s.arbs s.dmas s.events s.eventRcv s.thermAlert s.trayOfs s.trayRef s.trayAt s.timeOfs s.ofsSet
    s.coreMap s.haltReq s.halted s.haltDone s.tray s.power s.fuses s.dynAddr s.freezeAt s.dumps s.mse s.vfs s.crs
    s.flash s.flashActive s.flashPending s.pending) :=
  ⟨h.pending, h.code, h.memWf, h.mem, h.keys, h.cores, h.coreMap, h.fuses, h.flash, h.power, h.tray, h.dmas, h.regs,
    h.ports, h.lakes, h.mtr, h.shadows, h.out, h.seqs, h.poison, h.channels, h.keeper, off husage, h.tenancies,
    h.upds, h.ringAdv, h.wins, h.ccs, h.queues, h.events, h.bus, h.time, h.haltReq, h.halt, h.frozen, h.dumps, h.pcie⟩

theorem kept_mk_wins {φ : Part → Bool} {s0 s : State}
    {x_serial : _} {x_wins : _}
    (h : Kept φ s0 s) (hwins : φ .wins = false) :
    Kept φ s0 (State.mk s.now s.regs s.shadows s.out s.seqs s.cores s.dram s.poison s.stks s.nmeXfers x_serial s.keys
    s.keeper s.sepia s.counts s.meters s.mtr s.tenancies s.meterHold s.upds s.ringAdv s.ports x_wins s.lakes s.ccs
    s.launches s.queues s.arbs s.dmas s.events s.eventRcv s.thermAlert s.trayOfs s.trayRef s.trayAt s.timeOfs s.ofsSet
    s.coreMap s.haltReq s.halted s.haltDone s.tray s.power s.fuses s.dynAddr s.freezeAt s.dumps s.mse s.vfs s.crs
    s.flash s.flashActive s.flashPending s.pending) :=
  ⟨h.pending, h.code, h.memWf, h.mem, h.keys, h.cores, h.coreMap, h.fuses, h.flash, h.power, h.tray, h.dmas, h.regs,
    h.ports, h.lakes, h.mtr, h.shadows, h.out, h.seqs, h.poison, h.channels, h.keeper, h.usage, h.tenancies, h.upds,
    h.ringAdv, off hwins, h.ccs, h.queues, h.events, h.bus, h.time, h.haltReq, h.halt, h.frozen, h.dumps, h.pcie⟩

theorem kept_mk_op {φ : Part → Bool} {s0 s : State}
    {x_serial : _} {x_tokens : _} {x_unique : _} {x_op : _} {x_chalAt : _} {x_sigAt : _}
    (h : Kept φ s0 s) (hfuses : φ .fuses = false) :
    Kept φ s0 (State.mk s.now s.regs s.shadows s.out s.seqs s.cores s.dram s.poison s.stks s.nmeXfers x_serial s.keys
    s.keeper s.sepia s.counts s.meters s.mtr s.tenancies s.meterHold s.upds s.ringAdv s.ports s.wins s.lakes s.ccs
    s.launches s.queues s.arbs s.dmas s.events s.eventRcv s.thermAlert s.trayOfs s.trayRef s.trayAt s.timeOfs s.ofsSet
    s.coreMap s.haltReq s.halted s.haltDone s.tray s.power (Fuses.mk s.fuses.code x_tokens x_unique x_op x_chalAt
    x_sigAt) s.dynAddr s.freezeAt s.dumps s.mse s.vfs s.crs s.flash s.flashActive s.flashPending s.pending) :=
  ⟨h.pending, h.code, h.memWf, h.mem, h.keys, h.cores, h.coreMap, off hfuses, h.flash, h.power, h.tray, h.dmas,
    h.regs, h.ports, h.lakes, h.mtr, h.shadows, h.out, h.seqs, h.poison, h.channels, h.keeper, h.usage, h.tenancies,
    h.upds, h.ringAdv, h.wins, h.ccs, h.queues, h.events, h.bus, h.time, h.haltReq, h.halt, h.frozen, h.dumps, h.pcie⟩

theorem kept_mk_code {φ : Part → Bool} {s0 s : State}
    {x_serial : _} {l : List Nat} {x_tokens : _} {x_unique : _} {x_op : _} {x_chalAt : _} {x_sigAt : _}
    (h : Kept φ s0 s) (hfuses : φ .fuses = false) :
    Kept φ s0 (State.mk s.now s.regs s.shadows s.out s.seqs s.cores s.dram s.poison s.stks s.nmeXfers x_serial s.keys
    s.keeper s.sepia s.counts s.meters s.mtr s.tenancies s.meterHold s.upds s.ringAdv s.ports s.wins s.lakes s.ccs
    s.launches s.queues s.arbs s.dmas s.events s.eventRcv s.thermAlert s.trayOfs s.trayRef s.trayAt s.timeOfs s.ofsSet
    s.coreMap s.haltReq s.halted s.haltDone s.tray s.power (Fuses.mk (setCodeBits s.fuses.code l) x_tokens x_unique
    x_op x_chalAt x_sigAt) s.dynAddr s.freezeAt s.dumps s.mse s.vfs s.crs s.flash s.flashActive s.flashPending
    s.pending) :=
  ⟨h.pending, (fun i e => bitOf_setCodeBits l (h.code i e)), h.memWf, h.mem, h.keys, h.cores, h.coreMap, off hfuses,
    h.flash, h.power, h.tray, h.dmas, h.regs, h.ports, h.lakes, h.mtr, h.shadows, h.out, h.seqs, h.poison, h.channels,
    h.keeper, h.usage, h.tenancies, h.upds, h.ringAdv, h.wins, h.ccs, h.queues, h.events, h.bus, h.time, h.haltReq,
    h.halt, h.frozen, h.dumps, h.pcie⟩

theorem kept_mk_mem {φ : Part → Bool} {s0 s : State}
    {x_dram : Memory} {x_serial : _}
    (h : Kept φ s0 s) (hw : s.dram.wf = true → x_dram.wf = true) (hmem : φ .mem = false) :
    Kept φ s0 (State.mk s.now s.regs s.shadows s.out s.seqs s.cores x_dram s.poison s.stks s.nmeXfers x_serial s.keys
    s.keeper s.sepia s.counts s.meters s.mtr s.tenancies s.meterHold s.upds s.ringAdv s.ports s.wins s.lakes s.ccs
    s.launches s.queues s.arbs s.dmas s.events s.eventRcv s.thermAlert s.trayOfs s.trayRef s.trayAt s.timeOfs s.ofsSet
    s.coreMap s.haltReq s.halted s.haltDone s.tray s.power s.fuses s.dynAddr s.freezeAt s.dumps s.mse s.vfs s.crs
    s.flash s.flashActive s.flashPending s.pending) :=
  ⟨h.pending, h.code, (fun e => hw (h.memWf e)), off hmem, h.keys, h.cores, h.coreMap, h.fuses, h.flash, h.power,
    h.tray, h.dmas, h.regs, h.ports, h.lakes, h.mtr, h.shadows, h.out, h.seqs, h.poison, h.channels, h.keeper,
    h.usage, h.tenancies, h.upds, h.ringAdv, h.wins, h.ccs, h.queues, h.events, h.bus, h.time, h.haltReq, h.halt,
    h.frozen, h.dumps, h.pcie⟩

theorem kept_mk_mem_poison {φ : Part → Bool} {s0 s : State}
    {x_dram : Memory} {x_poison : _} {x_serial : _}
    (h : Kept φ s0 s) (hw : s.dram.wf = true → x_dram.wf = true) (hmem : φ .mem = false) (hpoison : φ .poison = false) :
    Kept φ s0 (State.mk s.now s.regs s.shadows s.out s.seqs s.cores x_dram x_poison s.stks s.nmeXfers x_serial s.keys
    s.keeper s.sepia s.counts s.meters s.mtr s.tenancies s.meterHold s.upds s.ringAdv s.ports s.wins s.lakes s.ccs
    s.launches s.queues s.arbs s.dmas s.events s.eventRcv s.thermAlert s.trayOfs s.trayRef s.trayAt s.timeOfs s.ofsSet
    s.coreMap s.haltReq s.halted s.haltDone s.tray s.power s.fuses s.dynAddr s.freezeAt s.dumps s.mse s.vfs s.crs
    s.flash s.flashActive s.flashPending s.pending) :=
  ⟨h.pending, h.code, (fun e => hw (h.memWf e)), off hmem, h.keys, h.cores, h.coreMap, h.fuses, h.flash, h.power,
    h.tray, h.dmas, h.regs, h.ports, h.lakes, h.mtr, h.shadows, h.out, h.seqs, off hpoison, h.channels, h.keeper,
    h.usage, h.tenancies, h.upds, h.ringAdv, h.wins, h.ccs, h.queues, h.events, h.bus, h.time, h.haltReq, h.halt,
    h.frozen, h.dumps, h.pcie⟩

end Sys2Proof.Machine
end

