-- ==== Sys2Proof/Laws/KeptOps.lean ====
section
/-! SUPPORT. `Kept` for every operation that the meanings share (Sys2Proof/Laws/Kept.lean). -/

namespace Sys2Proof.Machine

set_option linter.unusedTactic false
set_option linter.unreachableTactic false

theorem State.askHalt_kept {φ : Part → Bool} {s0 s : State} (src : Nat) (hk : Kept φ s0 s) (hhaltReq : φ .haltReq =
    false) :
    Kept φ s0 (State.askHalt s src) := by
  unfold State.askHalt
  with_reducible
    repeat'
      first
      | assumption | (intro _) | (apply kept_of_eq; assumption) | dsimp only | apply kept_mk | apply kept_mk_haltReq

theorem State.wr_kept {φ : Part → Bool} {s0 s : State} (a : Nat) (w : Word) (hk : Kept φ s0 s) (hregs : φ .regs =
    false) :
    Kept φ s0 (State.wr s a w) := by
  unfold State.wr
  with_reducible
    repeat'
      first
      | assumption | (intro _) | dsimp only | apply kept_mk | apply kept_mk_regs

theorem State.setBits_kept {φ : Part → Bool} {s0 s : State} (a : Nat) (bits : Nat) (hk : Kept φ s0 s) (hregs : φ .regs
    = false) :
    Kept φ s0 (State.setBits s a bits) := by
  unfold State.setBits
  with_reducible
    repeat'
      first
      | assumption | (intro _) | apply State.wr_kept | dsimp only

theorem State.emit_kept {φ : Part → Bool} {s0 s : State} (o : Output) (hk : Kept φ s0 s) (hout : φ .out = false) :
    Kept φ s0 (State.emit s o) := by
  unfold State.emit
  with_reducible
    repeat'
      first
      | assumption | (intro _) | dsimp only | apply kept_mk | apply kept_mk_out

theorem State.irq_kept {φ : Part → Bool} {s0 s : State} (fn : Nat) (vec : Nat) (sta : Nat) (en : Nat) (bits : Nat) (hk
    : Kept φ s0 s) (hregs : φ .regs = false) (hout : φ .out = false) :
    Kept φ s0 (State.irq s fn vec sta en bits) := by
  unfold State.irq
  with_reducible
    repeat'
      first
      | assumption | (intro _) | apply kept_ite | apply State.setBits_kept | apply State.emit_kept | split
      | dsimp only

theorem State.irqFen_kept {φ : Part → Bool} {s0 s : State} (p : Nat) (f : Fld) (hk : Kept φ s0 s) (hregs : φ .regs =
    false) (hout : φ .out = false) :
    Kept φ s0 (State.irqFen s p f) := by
  unfold State.irqFen
  with_reducible
    repeat'
      first
      | assumption | (intro _) | apply State.irq_kept | dsimp only

theorem State.fput_kept {φ : Part → Bool} {s0 s : State} (a : Nat) (f : Fld) (v : Nat) (hk : Kept φ s0 s) (hregs : φ
    .regs = false) :
    Kept φ s0 (State.fput s a f v) := by
  unfold State.fput
  with_reducible
    repeat'
      first
      | assumption | (intro _) | apply State.wr_kept | dsimp only

theorem State.fenceReset_kept {φ : Part → Bool} {s0 s : State} (p : Nat) (n : Nat) (hk : Kept φ s0 s) (hregs : φ .regs
    = false) :
    Kept φ s0 (State.fenceReset s p n) := by
  unfold State.fenceReset
  with_reducible
    repeat'
      first
      | assumption | (intro _) | apply kept_ite | apply State.fput_kept | split | dsimp only

theorem State.setSq_kept {φ : Part → Bool} {s0 s : State} (p : Nat) (q : Seq) (hk : Kept φ s0 s) (hseqs : φ .seqs =
    false) :
    Kept φ s0 (State.setSq s p q) := by
  unfold State.setSq
  with_reducible
    repeat'
      first
      | assumption | (intro _) | dsimp only | apply kept_mk | apply kept_mk_seqs

theorem State.abandon_kept {φ : Part → Bool} {s0 s : State} (p : Nat) (keep : Option Nat) (hk : Kept φ s0 s) (hcores :
    φ .cores = false) (hseqs : φ .seqs = false) :
    Kept φ s0 (State.abandon s p keep) := by
  unfold State.abandon
  with_reducible
    repeat'
      first
      | assumption | (intro _) | apply kept_ite | apply State.setSq_kept | split | dsimp only | apply kept_mk
      | apply kept_mk_cores

theorem State.wn_kept {φ : Part → Bool} {s0 s : State} (a : Nat) (v : Nat) (hk : Kept φ s0 s) (hregs : φ .regs =
    false) :
    Kept φ s0 (State.wn s a v) := by
  unfold State.wn
  with_reducible
    repeat'
      first
      | assumption | (intro _) | apply State.wr_kept | dsimp only

theorem State.bump_kept {φ : Part → Bool} {s0 s : State} (a : Nat) (f : Fld) (d : Nat) (hk : Kept φ s0 s) (hregs : φ
    .regs = false) :
    Kept φ s0 (State.bump s a f d) := by
  unfold State.bump
  with_reducible
    repeat'
      first
      | assumption | (intro _) | apply State.fput_kept | dsimp only

theorem State.onIde_kept {φ : Part → Bool} {s0 s : State} (p : Nat) (v : List Byte) (f : List Byte → Output) (hk :
    Kept φ s0 s) (hout : φ .out = false) :
    Kept φ s0 (State.onIde s p v f) := by
  unfold State.onIde
  with_reducible
    repeat'
      first
      | assumption | (intro _) | apply State.emit_kept | dsimp only | apply kept_mk

theorem State.toHost_kept {φ : Part → Bool} {s0 s : State} (fn : Nat) (addr : Nat) (t : Bool) (v : List Byte) (hk :
    Kept φ s0 s) (hout : φ .out = false) :
    Kept φ s0 (State.toHost s fn addr t v) := by
  unfold State.toHost
  with_reducible
    repeat'
      first
      | assumption | (intro _) | apply kept_ite | apply State.emit_kept | apply State.onIde_kept | split | dsimp only

theorem State.fenceNotify_kept {φ : Part → Bool} {s0 s : State} (p : Nat) (n : Nat) (hk : Kept φ s0 s) (hregs : φ
    .regs = false) (hout : φ .out = false) :
    Kept φ s0 (State.fenceNotify s p n) := by
  unfold State.fenceNotify
  with_reducible
    repeat'
      first
      | assumption | (intro _) | apply kept_ite | apply State.setBits_kept | apply State.irqFen_kept
      | apply State.wn_kept | apply State.bump_kept | apply State.toHost_kept | split | dsimp only

theorem State.setQueue_kept {φ : Part → Bool} {s0 s : State} (p : Nat) (q : Nat) (x : Queue) (hk : Kept φ s0 s)
    (hqueues : φ .queues = false) :
    Kept φ s0 (State.setQueue s p q x) := by
  unfold State.setQueue
  with_reducible
    repeat'
      first
      | assumption | (intro _) | dsimp only | apply kept_mk | apply kept_mk_queues

theorem State.markWaits_kept {φ : Part → Bool} {s0 s : State} (p : Nat) (n : Nat) (f : CmdBuf → CmdBuf) (hk : Kept φ
    s0 s) (hqueues : φ .queues = false) :
    Kept φ s0 (State.markWaits s p n f) := by
  unfold State.markWaits
  with_reducible
    repeat'
      first
      | assumption | (intro _) | apply kept_ite | apply State.setQueue_kept | apply kept_foldl | split | dsimp only

theorem State.fenceFail_kept {φ : Part → Bool} {s0 s : State} (p : Nat) (n : Nat) (code : Nat) (hk : Kept φ s0 s)
    (hregs : φ .regs = false) (hout : φ .out = false) (hqueues : φ .queues = false) :
    Kept φ s0 (State.fenceFail s p n code) := by
  unfold State.fenceFail
  with_reducible
    repeat'
      first
      | assumption | (intro _) | apply kept_ite | apply State.fput_kept | apply State.fenceNotify_kept
      | apply State.markWaits_kept | split | dsimp only

theorem State.irqQue_kept {φ : Part → Bool} {s0 s : State} (p : Nat) (f : Fld) (hk : Kept φ s0 s) (hregs : φ .regs =
    false) (hout : φ .out = false) :
    Kept φ s0 (State.irqQue s p f) := by
  unfold State.irqQue
  with_reducible
    repeat'
      first
      | assumption | (intro _) | apply State.irq_kept | dsimp only

theorem State.fenceSet_kept {φ : Part → Bool} {s0 s : State} (p : Nat) (n : Nat) (hk : Kept φ s0 s) (hregs : φ .regs =
    false) (hout : φ .out = false) (hqueues : φ .queues = false) :
    Kept φ s0 (State.fenceSet s p n) := by
  unfold State.fenceSet
  with_reducible
    repeat'
      first
      | assumption | (intro _) | apply kept_ite | apply State.fput_kept | apply State.fenceNotify_kept
      | apply State.markWaits_kept | split | dsimp only

theorem State.showQueue_kept {φ : Part → Bool} {s0 s : State} (p : Nat) (q : Nat) (hk : Kept φ s0 s) (hregs : φ .regs
    = false) :
    Kept φ s0 (State.showQueue s p q) := by
  unfold State.showQueue
  with_reducible
    repeat'
      first
      | assumption | (intro _) | apply kept_ite | apply State.fput_kept | apply State.wn_kept | split | dsimp only

theorem State.endBuf_kept {φ : Part → Bool} {s0 s : State} (p : Nat) (q : Nat) (b : CmdBuf) (hk : Kept φ s0 s) (hregs
    : φ .regs = false) (hout : φ .out = false) (hqueues : φ .queues = false) :
    Kept φ s0 (State.endBuf s p q b) := by
  unfold State.endBuf
  with_reducible
    repeat'
      first
      | assumption | (intro _) | apply kept_ite | apply State.irq_kept | apply State.setQueue_kept
      | apply State.fenceFail_kept | apply State.irqQue_kept | apply State.fenceSet_kept | apply State.showQueue_kept
      | split | dsimp only

theorem State.settleLoop_kept {φ : Part → Bool} {s0 s : State} (p : Nat) (u2 : Nat) (hk : Kept φ s0 s) (hregs : φ
    .regs = false) (hout : φ .out = false) (hqueues : φ .queues = false) :
    Kept φ s0 (State.settleLoop s p u2) := by
  induction u2 generalizing s with
  | zero => exact hk
  | succ n ih =>
    unfold State.settleLoop
    split
    · exact hk
    · exact ih (State.endBuf_kept _ _ _ hk ‹_› ‹_› ‹_›)

theorem State.settle_kept {φ : Part → Bool} {s0 s : State} (p : Nat) (hk : Kept φ s0 s) (hregs : φ .regs = false)
    (hout : φ .out = false) (hqueues : φ .queues = false) :
    Kept φ s0 (State.settle s p) := by
  unfold State.settle
  with_reducible
    repeat'
      first
      | assumption | (intro _) | apply State.settleLoop_kept | apply kept_foldl | dsimp only

theorem State.fenceError_kept {φ : Part → Bool} {s0 s : State} (p : Nat) (n : Nat) (code : Nat) (hk : Kept φ s0 s)
    (hregs : φ .regs = false) (hout : φ .out = false) (hqueues : φ .queues = false) :
    Kept φ s0 (State.fenceError s p n code) := by
  unfold State.fenceError
  with_reducible
    repeat'
      first
      | assumption | (intro _) | apply State.fenceFail_kept | apply State.settle_kept | dsimp only

theorem State.sepiaRec_kept {φ : Part → Bool} {s0 s : State} (unit : Nat) (code : Nat) (owner : Nat) (arg : Nat) (hk :
    Kept φ s0 s) (husage : φ .usage = false) :
    Kept φ s0 (State.sepiaRec s unit code owner arg) := by
  unfold State.sepiaRec
  with_reducible
    repeat'
      first
      | assumption | (intro _) | apply kept_ite | split | dsimp only | apply kept_mk | apply kept_mk_usage

theorem State.irqSeq_kept {φ : Part → Bool} {s0 s : State} (p : Nat) (f : Fld) (hk : Kept φ s0 s) (hregs : φ .regs =
    false) (hout : φ .out = false) :
    Kept φ s0 (State.irqSeq s p f) := by
  unfold State.irqSeq
  with_reducible
    repeat'
      first
      | assumption | (intro _) | apply State.irq_kept | dsimp only

theorem State.showHold_kept {φ : Part → Bool} {s0 s : State}  (hk : Kept φ s0 s) (hregs : φ .regs = false) :
    Kept φ s0 (State.showHold s) := by
  unfold State.showHold
  with_reducible
    repeat'
      first
      | assumption | (intro _) | apply kept_ite | apply State.fput_kept | split | dsimp only

theorem State.setSeqState_kept {φ : Part → Bool} {s0 s : State} (p : Nat) (st : Nat) (hk : Kept φ s0 s) (hregs : φ
    .regs = false) :
    Kept φ s0 (State.setSeqState s p st) := by
  unfold State.setSeqState
  with_reducible
    repeat'
      first
      | assumption | (intro _) | apply State.fput_kept | apply State.showHold_kept | dsimp only

theorem State.mapBufs_kept {φ : Part → Bool} {s0 s : State} (p : Nat) (test : CmdBuf → Bool) (f : CmdBuf → CmdBuf) (hk
    : Kept φ s0 s) (hregs : φ .regs = false) (hout : φ .out = false) (hqueues : φ .queues = false) :
    Kept φ s0 (State.mapBufs s p test f) := by
  unfold State.mapBufs
  with_reducible
    repeat'
      first
      | assumption | (intro _) | apply kept_ite | apply State.setQueue_kept | apply State.settle_kept
      | apply kept_foldl | split | dsimp only

theorem State.failBufs_kept {φ : Part → Bool} {s0 s : State} (p : Nat) (test : CmdBuf → Bool) (code : Nat) (hk : Kept
    φ s0 s) (hregs : φ .regs = false) (hout : φ .out = false) (hqueues : φ .queues = false) :
    Kept φ s0 (State.failBufs s p test code) := by
  unfold State.failBufs
  with_reducible
    repeat'
      first
      | assumption | (intro _) | apply State.mapBufs_kept | dsimp only

theorem State.faultEntry_kept {φ : Part → Bool} {s0 s : State} (p : Nat) (code : Nat) (core : Nat) (unit : Nat) (hk :
    Kept φ s0 s) (husage : φ .usage = false) :
    Kept φ s0 (State.faultEntry s p code core unit) := by
  unfold State.faultEntry
  with_reducible
    repeat'
      first
      | assumption | (intro _) | apply kept_ite | apply State.sepiaRec_kept | split | dsimp only

theorem State.showErr_kept {φ : Part → Bool} {s0 s : State} (p : Nat) (code : Nat) (core : Nat) (unit : Nat) (pc :
    Nat) (hk : Kept φ s0 s) (hregs : φ .regs = false) :
    Kept φ s0 (State.showErr s p code core unit pc) := by
  unfold State.showErr
  with_reducible
    repeat'
      first
      | assumption | (intro _) | apply State.wr_kept | apply State.wn_kept | dsimp only

theorem State.freezePart_kept {φ : Part → Bool} {s0 s : State} (p : Nat) (hk : Kept φ s0 s) (hregs : φ .regs = false)
    (hfrozen : φ .frozen = false) :
    Kept φ s0 (State.freezePart s p) := by
  unfold State.freezePart
  with_reducible
    repeat'
      first
      | assumption | (intro _) | apply kept_ite | apply State.fput_kept | split | dsimp only | apply kept_mk
      | apply kept_mk_frozen

theorem State.seqFault_kept {φ : Part → Bool} {s0 s : State} (p : Nat) (code : Nat) (core : Nat) (unit : Nat) (pc :
    Nat) (hk : Kept φ s0 s) (hcores : φ .cores = false) (hregs : φ .regs = false) (hout : φ .out = false) (hseqs : φ
    .seqs = false) (husage : φ .usage = false) (hqueues : φ .queues = false) (hfrozen : φ .frozen = false) :
    Kept φ s0 (State.seqFault s p code core unit pc) := by
  unfold State.seqFault
  with_reducible
    repeat'
      first
      | assumption | (intro _) | apply kept_ite | apply State.fput_kept | apply State.setSq_kept
      | apply State.abandon_kept | apply State.sepiaRec_kept | apply State.irqSeq_kept | apply State.setSeqState_kept
      | apply State.failBufs_kept | apply State.faultEntry_kept | apply State.showErr_kept
      | apply State.freezePart_kept | split | dsimp only

theorem State.nfSeen_kept {φ : Part → Bool} {s0 s : State} (p : Nat) (bits : Nat) (tensor : Nat) (who : Option Nat)
    (hk : Kept φ s0 s) (hregs : φ .regs = false) (hseqs : φ .seqs = false) :
    Kept φ s0 (State.nfSeen s p bits tensor who) := by
  unfold State.nfSeen
  with_reducible
    repeat'
      first
      | assumption | (intro _) | apply kept_ite | apply State.setBits_kept | apply State.setSq_kept
      | apply State.wn_kept | apply kept_ite_fst | (apply kept_of_eq; assumption) | split | dsimp only

theorem State.count_kept {φ : Part → Bool} {s0 s : State} (p : Nat) (ev : Nat) (unit : Nat) (core : Nat) (d : Nat) (hk
    : Kept φ s0 s) (husage : φ .usage = false) :
    Kept φ s0 (State.count s p ev unit core d) := by
  unfold State.count
  with_reducible
    repeat'
      first
      | assumption | (intro _) | apply kept_ite | apply kept_foldl | split | dsimp only | apply kept_mk
      | apply kept_mk_usage

theorem State.setUp_kept {φ : Part → Bool} {s0 s : State} (p : Nat) (u : Upd) (hk : Kept φ s0 s) (hupds : φ .upds =
    false) :
    Kept φ s0 (State.setUp s p u) := by
  unfold State.setUp
  with_reducible
    repeat'
      first
      | assumption | (intro _) | dsimp only | apply kept_mk | apply kept_mk_upds

theorem State.nonFinite_kept {φ : Part → Bool} {s0 s : State} (p : Nat) (bits : Nat) (tensor : Nat) (unit : Nat) (core
    : Nat) (hk : Kept φ s0 s) (hregs : φ .regs = false) (hseqs : φ .seqs = false) (husage : φ .usage = false) (hupds :
    φ .upds = false) :
    Kept φ s0 (State.nonFinite s p bits tensor unit core) := by
  unfold State.nonFinite
  with_reducible
    repeat'
      first
      | assumption | (intro _) | apply kept_ite | apply State.nfSeen_kept | apply State.count_kept
      | apply State.setUp_kept | split | dsimp only

theorem State.irqMgt_kept {φ : Part → Bool} {s0 s : State} (f : Fld) (hk : Kept φ s0 s) (hregs : φ .regs = false)
    (hout : φ .out = false) :
    Kept φ s0 (State.irqMgt s f) := by
  unfold State.irqMgt
  with_reducible
    repeat'
      first
      | assumption | (intro _) | apply State.irq_kept | dsimp only

theorem State.irqDbg_kept {φ : Part → Bool} {s0 s : State} (f : Fld) (hk : Kept φ s0 s) (hregs : φ .regs = false)
    (hout : φ .out = false) :
    Kept φ s0 (State.irqDbg s f) := by
  unfold State.irqDbg
  with_reducible
    repeat'
      first
      | assumption | (intro _) | apply State.irq_kept | dsimp only

theorem State.setPort_kept {φ : Part → Bool} {s0 s : State} (n : Nat) (x : Port) (hk : Kept φ s0 s) (hports : φ .ports
    = false) :
    Kept φ s0 (State.setPort s n x) := by
  unfold State.setPort
  with_reducible
    repeat'
      first
      | assumption | (intro _) | dsimp only | apply kept_mk | apply kept_mk_ports

theorem State.raiseNf_kept {φ : Part → Bool} {s0 s : State} (p : Nat) (hk : Kept φ s0 s) (husage : φ .usage = false)
    (hupds : φ .upds = false) :
    Kept φ s0 (State.raiseNf s p) := by
  unfold State.raiseNf
  with_reducible
    repeat'
      first
      | assumption | (intro _) | apply State.count_kept | apply State.setUp_kept | dsimp only

theorem State.irqProt_kept {φ : Part → Bool} {s0 s : State} (p : Nat) (f : Fld) (hk : Kept φ s0 s) (hregs : φ .regs =
    false) (hout : φ .out = false) :
    Kept φ s0 (State.irqProt s p f) := by
  unfold State.irqProt
  with_reducible
    repeat'
      first
      | assumption | (intro _) | apply State.irq_kept | dsimp only

theorem State.meter_kept {φ : Part → Bool} {s0 s : State} (p : Nat) (kind : Nat) (d : Nat) (hk : Kept φ s0 s) (husage
    : φ .usage = false) :
    Kept φ s0 (State.meter s p kind d) := by
  unfold State.meter
  with_reducible
    repeat'
      first
      | assumption | (intro _) | apply kept_ite | split | dsimp only | apply kept_mk | apply kept_mk_usage

theorem State.platEvent_kept {φ : Part → Bool} {s0 s : State} (kind : Nat) (arg : Nat) (hk : Kept φ s0 s) (hregs : φ
    .regs = false) (hout : φ .out = false) (hevents : φ .events = false) :
    Kept φ s0 (State.platEvent s kind arg) := by
  unfold State.platEvent
  with_reducible
    repeat'
      first
      | assumption | (intro _) | apply kept_ite | apply State.emit_kept | apply State.irqMgt_kept | split | dsimp only
      | apply kept_mk | apply kept_mk_events

theorem State.irqLl_kept {φ : Part → Bool} {s0 s : State} (n : Nat) (f : Fld) (hk : Kept φ s0 s) (hregs : φ .regs =
    false) (hout : φ .out = false) (hevents : φ .events = false) :
    Kept φ s0 (State.irqLl s n f) := by
  unfold State.irqLl
  with_reducible
    repeat'
      first
      | assumption | (intro _) | apply State.irq_kept | apply State.platEvent_kept | dsimp only

theorem State.invalidTable_kept {φ : Part → Bool} {s0 s : State} (p : Nat) (hk : Kept φ s0 s) (hregs : φ .regs =
    false) (hupds : φ .upds = false) :
    Kept φ s0 (State.invalidTable s p) := by
  unfold State.invalidTable
  with_reducible
    repeat'
      first
      | assumption | (intro _) | apply State.setBits_kept | apply State.setUp_kept | dsimp only

theorem State.irqGlb_kept {φ : Part → Bool} {s0 s : State} (f : Fld) (hk : Kept φ s0 s) (hregs : φ .regs = false)
    (hout : φ .out = false) :
    Kept φ s0 (State.irqGlb s f) := by
  unfold State.irqGlb
  with_reducible
    repeat'
      first
      | assumption | (intro _) | apply State.irq_kept | dsimp only

theorem State.wr64_kept {φ : Part → Bool} {s0 s : State} (a : Nat) (v : Nat) (hk : Kept φ s0 s) (hregs : φ .regs =
    false) :
    Kept φ s0 (State.wr64 s a v) := by
  unfold State.wr64
  with_reducible
    repeat'
      first
      | assumption | (intro _) | apply State.wn_kept | dsimp only

theorem State.bump64_kept {φ : Part → Bool} {s0 s : State} (a : Nat) (d : Nat) (hk : Kept φ s0 s) (hregs : φ .regs =
    false) :
    Kept φ s0 (State.bump64 s a d) := by
  unfold State.bump64
  with_reducible
    repeat'
      first
      | assumption | (intro _) | apply State.wr64_kept | dsimp only

theorem State.irqCol_kept {φ : Part → Bool} {s0 s : State} (p : Nat) (f : Fld) (hk : Kept φ s0 s) (hregs : φ .regs =
    false) (hout : φ .out = false) :
    Kept φ s0 (State.irqCol s p f) := by
  unfold State.irqCol
  with_reducible
    repeat'
      first
      | assumption | (intro _) | apply State.irq_kept | dsimp only

theorem State.irqCkp_kept {φ : Part → Bool} {s0 s : State} (p : Nat) (f : Fld) (hk : Kept φ s0 s) (hregs : φ .regs =
    false) (hout : φ .out = false) :
    Kept φ s0 (State.irqCkp s p f) := by
  unfold State.irqCkp
  with_reducible
    repeat'
      first
      | assumption | (intro _) | apply State.irq_kept | dsimp only

theorem State.csetSub_kept {φ : Part → Bool} {s0 s : State} (p : Nat) (n : Nat) (hk : Kept φ s0 s) (hregs : φ .regs =
    false) :
    Kept φ s0 (State.csetSub s p n) := by
  unfold State.csetSub
  with_reducible
    repeat'
      first
      | assumption | (intro _) | apply State.fput_kept | dsimp only

theorem State.setStk_kept {φ : Part → Bool} {s0 s : State} (k : Nat) (x : Stack) (hk : Kept φ s0 s) (hchannels : φ
    .channels = false) :
    Kept φ s0 (State.setStk s k x) := by
  unfold State.setStk
  with_reducible
    repeat'
      first
      | assumption | (intro _) | dsimp only | apply kept_mk | apply kept_mk_channels

theorem State.setKey_kept {φ : Part → Bool} {s0 s : State} (n : Nat) (x : KeySlot) (hk : Kept φ s0 s) (hkeys : φ .keys
    = false) :
    Kept φ s0 (State.setKey s n x) := by
  unfold State.setKey
  with_reducible
    repeat'
      first
      | assumption | (intro _) | dsimp only | apply kept_mk | apply kept_mk_keys

theorem State.updBuf_kept {φ : Part → Bool} {s0 s : State} (p : Nat) (q : Nat) (seq : Nat) (f : CmdBuf → CmdBuf) (hk :
    Kept φ s0 s) (hqueues : φ .queues = false) :
    Kept φ s0 (State.updBuf s p q seq f) := by
  unfold State.updBuf
  with_reducible
    repeat'
      first
      | assumption | (intro _) | apply kept_ite | apply State.setQueue_kept | split | dsimp only

theorem State.taintStep_kept {φ : Part → Bool} {s0 s : State} (p : Nat) (hk : Kept φ s0 s) (hupds : φ .upds = false) :
    Kept φ s0 (State.taintStep s p) := by
  unfold State.taintStep
  with_reducible
    repeat'
      first
      | assumption | (intro _) | apply kept_ite | apply State.setUp_kept | split | dsimp only

theorem State.irqMem_kept {φ : Part → Bool} {s0 s : State} (bits : Nat) (hk : Kept φ s0 s) (hregs : φ .regs = false)
    (hout : φ .out = false) :
    Kept φ s0 (State.irqMem s bits) := by
  unfold State.irqMem
  with_reducible
    repeat'
      first
      | assumption | (intro _) | apply State.irq_kept | dsimp only

theorem State.alarm_kept {φ : Part → Bool} {s0 s : State} (p : Nat) (cause : Nat) (stack : Nat) (hk : Kept φ s0 s)
    (hregs : φ .regs = false) (hout : φ .out = false) (hupds : φ .upds = false) :
    Kept φ s0 (State.alarm s p cause stack) := by
  unfold State.alarm
  with_reducible
    repeat'
      first
      | assumption | (intro _) | apply kept_ite | apply State.wr_kept | apply State.setUp_kept
      | apply State.irqProt_kept | apply State.taintStep_kept | apply State.irqMem_kept | split | dsimp only

theorem State.issueView_kept {φ : Part → Bool} {s0 s : State} (p : Nat) (id : Nat) (hk : Kept φ s0 s) (hupds : φ .upds
    = false) :
    Kept φ s0 (State.issueView s p id) := by
  unfold State.issueView
  with_reducible
    repeat'
      first
      | assumption | (intro _) | apply kept_ite | apply State.setUp_kept | split | dsimp only

theorem State.issuedAs_kept {φ : Part → Bool} {s0 s : State} (p : Nat) (id : Nat) (f : State → State) (hk : Kept φ s0
    s) (h_f : ∀ s, Kept φ s0 s → Kept φ s0 (f s)) (hupds : φ .upds = false) :
    Kept φ s0 (State.issuedAs s p id f) := by
  unfold State.issuedAs
  with_reducible
    repeat'
      first
      | assumption | (intro _) | apply h_f | apply kept_ite | apply State.setUp_kept | apply State.issueView_kept
      | split | dsimp only

theorem State.setLake_kept {φ : Part → Bool} {s0 s : State} (p : Nat) (x : Lake) (hk : Kept φ s0 s) (hlakes : φ .lakes
    = false) :
    Kept φ s0 (State.setLake s p x) := by
  unfold State.setLake
  with_reducible
    repeat'
      first
      | assumption | (intro _) | dsimp only | apply kept_mk | apply kept_mk_lakes

theorem State.fenceSignal_kept {φ : Part → Bool} {s0 s : State} (p : Nat) (n : Nat) (hk : Kept φ s0 s) (hregs : φ
    .regs = false) (hout : φ .out = false) (hqueues : φ .queues = false) :
    Kept φ s0 (State.fenceSignal s p n) := by
  unfold State.fenceSignal
  with_reducible
    repeat'
      first
      | assumption | (intro _) | apply State.fenceSet_kept | apply State.settle_kept | dsimp only

theorem State.setCc_kept {φ : Part → Bool} {s0 s : State} (p : Nat) (ch : Nat) (x : Option Launch) (hk : Kept φ s0 s)
    (hccs : φ .ccs = false) :
    Kept φ s0 (State.setCc s p ch x) := by
  unfold State.setCc
  with_reducible
    repeat'
      first
      | assumption | (intro _) | dsimp only | apply kept_mk | apply kept_mk_ccs

theorem State.irqPwr_kept {φ : Part → Bool} {s0 s : State} (f : Fld) (hk : Kept φ s0 s) (hregs : φ .regs = false)
    (hout : φ .out = false) :
    Kept φ s0 (State.irqPwr s f) := by
  unfold State.irqPwr
  with_reducible
    repeat'
      first
      | assumption | (intro _) | apply State.irq_kept | dsimp only

theorem State.beatFault_kept {φ : Part → Bool} {s0 s : State} (p : Nat) (code : Nat) (core : Nat) (unit : Nat) (pc :
    Nat) (hk : Kept φ s0 s) (hcores : φ .cores = false) (hregs : φ .regs = false) (hout : φ .out = false) (hseqs : φ
    .seqs = false) (husage : φ .usage = false) (hqueues : φ .queues = false) (hfrozen : φ .frozen = false) :
    Kept φ s0 (State.beatFault s p code core unit pc) := by
  unfold State.beatFault
  with_reducible
    repeat'
      first
      | assumption | (intro _) | apply kept_ite | apply State.faultEntry_kept | apply State.showErr_kept
      | apply State.seqFault_kept | split | dsimp only

theorem State.tick_kept {φ : Part → Bool} {s0 s : State}  (hk : Kept φ s0 s) (htime : φ .time = false) :
    Kept φ s0 (State.tick s) := by
  unfold State.tick
  with_reducible
    repeat'
      first
      | assumption | (intro _) | dsimp only | apply kept_mk | apply kept_mk_time

theorem State.keyAlert_kept {φ : Part → Bool} {s0 s : State} (p : Nat) (bits : Nat) (hk : Kept φ s0 s) (hregs : φ
    .regs = false) (hout : φ .out = false) :
    Kept φ s0 (State.keyAlert s p bits) := by
  unfold State.keyAlert
  with_reducible
    repeat'
      first
      | assumption | (intro _) | apply kept_ite | apply State.setBits_kept | apply State.emit_kept
      | apply kept_ite_fst | (apply kept_of_eq; assumption) | split | dsimp only

theorem State.csetAdd_kept {φ : Part → Bool} {s0 s : State} (p : Nat) (n : Nat) (d : Nat) (hk : Kept φ s0 s) (hregs :
    φ .regs = false) :
    KeptO φ s0 (State.csetAdd s p n d) := by
  unfold State.csetAdd
  with_reducible
    repeat'
      first
      | assumption | (intro _) | apply kept_ite | apply State.fput_kept | (apply keptO_get; assumption)
      | apply kept_getD | apply keptO_ite | apply keptO_none | apply keptO_some | split | dsimp only

theorem State.refuse_kept {φ : Part → Bool} {s0 s : State} (p : Nat) (code : Nat) (master : Nat) (write : Bool) (off :
    Nat) (kid : Nat) (hk : Kept φ s0 s) (hregs : φ .regs = false) (hout : φ .out = false) (hupds : φ .upds = false) :
    Kept φ s0 (State.refuse s p code master write off kid) := by
  unfold State.refuse
  with_reducible
    repeat'
      first
      | assumption | (intro _) | apply kept_ite | apply State.wr_kept | apply State.wn_kept | apply State.bump_kept
      | apply State.setUp_kept | apply State.irqProt_kept | split | dsimp only

theorem State.irqUpd_kept {φ : Part → Bool} {s0 s : State} (p : Nat) (f : Fld) (hk : Kept φ s0 s) (hregs : φ .regs =
    false) (hout : φ .out = false) :
    Kept φ s0 (State.irqUpd s p f) := by
  unfold State.irqUpd
  with_reducible
    repeat'
      first
      | assumption | (intro _) | apply State.irq_kept | dsimp only

theorem State.resetRegs_kept {φ : Part → Bool} {s0 s : State} (lo : Nat) (hi : Nat) (hk : Kept φ s0 s) (hregs : φ
    .regs = false) :
    Kept φ s0 (State.resetRegs s lo hi) := by
  unfold State.resetRegs
  with_reducible
    repeat'
      first
      | assumption | (intro _) | dsimp only | apply kept_mk | apply kept_mk_regs

theorem State.setWin_kept {φ : Part → Bool} {s0 s : State} (p : Nat) (x : Wins) (hk : Kept φ s0 s) (hwins : φ .wins =
    false) :
    Kept φ s0 (State.setWin s p x) := by
  unfold State.setWin
  with_reducible
    repeat'
      first
      | assumption | (intro _) | dsimp only | apply kept_mk | apply kept_mk_wins

theorem State.sramPut_kept {φ : Part → Bool} {s0 s : State} (core : Nat) (b : Nat) (v : List Byte) (hk : Kept φ s0 s)
    (hcores : φ .cores = false) :
    Kept φ s0 (State.sramPut s core b v) := by
  unfold State.sramPut
  with_reducible
    repeat'
      first
      | assumption | (intro _) | dsimp only | apply kept_mk | apply kept_mk_cores

theorem State.keepOld_kept {φ : Part → Bool} {s0 s : State} (core : Nat) (b : Nat) (len : Nat) (hk : Kept φ s0 s)
    (hseqs : φ .seqs = false) :
    Kept φ s0 (State.keepOld s core b len) := by
  unfold State.keepOld
  with_reducible
    repeat'
      first
      | assumption | (intro _) | apply kept_ite | apply State.setSq_kept | apply kept_ite_fst
      | (apply kept_of_eq; assumption) | split | dsimp only

theorem State.sramWr_kept {φ : Part → Bool} {s0 s : State} (core : Nat) (b : Nat) (v : List Byte) (hk : Kept φ s0 s)
    (hcores : φ .cores = false) (hseqs : φ .seqs = false) :
    Kept φ s0 (State.sramWr s core b v) := by
  unfold State.sramWr
  with_reducible
    repeat'
      first
      | assumption | (intro _) | apply kept_ite | apply State.sramPut_kept | apply State.keepOld_kept | split
      | dsimp only

theorem State.ifcSend_kept {φ : Part → Bool} {s0 s : State} (k : Nat) (dir : Nat) (what : List Nat) (hk : Kept φ s0 s)
    (hkeys : φ .keys = false) :
    Kept φ s0 (State.ifcSend s k dir what) := by
  unfold State.ifcSend
  with_reducible
    repeat'
      first
      | assumption | (intro _) | apply kept_ite | apply State.setKey_kept | split | dsimp only

theorem State.forward_kept {φ : Part → Bool} {s0 s : State} (k : Nat) (recs : List NmeRec) (hk : Kept φ s0 s) (hkeys :
    φ .keys = false) (hchannels : φ .channels = false) :
    Kept φ s0 (State.forward s k recs) := by
  unfold State.forward
  with_reducible
    repeat'
      first
      | assumption | (intro _) | apply kept_ite | apply State.setStk_kept | apply State.ifcSend_kept | split
      | dsimp only

theorem State.errLast_kept {φ : Part → Bool} {s0 s : State} (stack : Nat) (sec : Nat) (kind : Nat) (part : Nat)
    (persist : Bool) (hk : Kept φ s0 s) (hregs : φ .regs = false) (hchannels : φ .channels = false) :
    Kept φ s0 (State.errLast s stack sec kind part persist) := by
  unfold State.errLast
  with_reducible
    repeat'
      first
      | assumption | (intro _) | apply kept_ite | apply State.wr_kept | apply State.setStk_kept | split | dsimp only

theorem State.noteFail_kept {φ : Part → Bool} {s0 s : State} (p : Nat) (stack : Nat) (sec : Nat) (nme : Bool) (r :
    RawRead) (persist : Bool) (hk : Kept φ s0 s) (hregs : φ .regs = false) (hchannels : φ .channels = false) :
    Kept φ s0 (State.noteFail s p stack sec nme r persist) := by
  unfold State.noteFail
  with_reducible
    repeat'
      first
      | assumption | (intro _) | apply kept_ite | apply State.bump_kept | apply State.errLast_kept | split
      | dsimp only

theorem State.rowError_kept {φ : Part → Bool} {s0 s : State} (stack : Nat) (sec : Nat) (hk : Kept φ s0 s) (hchannels :
    φ .channels = false) :
    Kept φ s0 (State.rowError s stack sec) := by
  unfold State.rowError
  with_reducible
    repeat'
      first
      | assumption | (intro _) | apply kept_ite | apply State.setStk_kept | apply kept_ite_fst
      | (apply kept_of_eq; assumption) | split | dsimp only

theorem State.readOnce_kept {φ : Part → Bool} {s0 s : State} (errs : List ReadErr) (p : Nat) (stack : Nat) (sec : Nat)
    (n : Nat) (hk : Kept φ s0 s) (hregs : φ .regs = false) (hout : φ .out = false) (hchannels : φ .channels = false) :
    Kept φ s0 (State.readOnce s errs p stack sec n).1 := by
  unfold State.readOnce
  with_reducible
    repeat'
      first
      | assumption | (intro _) | apply kept_ite | apply State.bump_kept | apply State.irqMem_kept
      | apply State.errLast_kept | apply State.rowError_kept | apply kept_ite_fst | (apply kept_of_eq; assumption)
      | split | dsimp only

theorem State.useKey_kept {φ : Part → Bool} {s0 s : State} (n : Nat) (hk : Kept φ s0 s) (hkeys : φ .keys = false)
    (hregs : φ .regs = false) (hout : φ .out = false) :
    Kept φ s0 (State.useKey s n).1 := by
  unfold State.useKey
  with_reducible
    repeat'
      first
      | assumption | (intro _) | apply kept_ite | apply State.setKey_kept | apply State.keyAlert_kept
      | apply kept_foldl | apply kept_ite_fst | apply kept_foldl_fst | (apply kept_of_eq; assumption) | split
      | dsimp only

theorem State.unpoison_kept {φ : Part → Bool} {s0 s : State} (stack : Nat) (sec : Nat) (hk : Kept φ s0 s) (hregs : φ
    .regs = false) (hpoison : φ .poison = false) :
    Kept φ s0 (State.unpoison s stack sec) := by
  unfold State.unpoison
  with_reducible
    repeat'
      first
      | assumption | (intro _) | apply kept_ite | apply State.fput_kept | split | dsimp only | apply kept_mk
      | apply kept_mk_poison

theorem State.putRaw_kept {φ : Part → Bool} {s0 s : State} (stack : Nat) (sec : Nat) (bytes : List Byte) (hk : Kept φ
    s0 s) (hmem : φ .mem = false) (hregs : φ .regs = false) (hpoison : φ .poison = false) :
    Kept φ s0 (State.putRaw s stack sec bytes) := by
  unfold State.putRaw
  exact State.unpoison_kept _ _ (kept_mk_mem hk (fun e => Memory.wf_setRun _ _ (Memory.wf_setRun _ _ e)) ‹_›) ‹_› ‹_›

theorem State.writeSector_kept {φ : Part → Bool} {s0 s : State} (kid : Nat) (lsn : Nat) (stack : Nat) (sec : Nat)
    (plain : List Byte) (hk : Kept φ s0 s) (hmem : φ .mem = false) (hkeys : φ .keys = false) (hregs : φ .regs = false)
    (hout : φ .out = false) (hpoison : φ .poison = false) :
    Kept φ s0 (State.writeSector s kid lsn stack sec plain) := by
  unfold State.writeSector
  with_reducible
    repeat'
      first
      | assumption | (intro _) | apply State.useKey_kept | apply State.putRaw_kept | (apply kept_of_eq; assumption)
      | split | dsimp only

theorem State.poisonSector_kept {φ : Part → Bool} {s0 s : State} (stack : Nat) (sec : Nat) (hk : Kept φ s0 s) (hregs :
    φ .regs = false) (hout : φ .out = false) (hpoison : φ .poison = false) (hhaltReq : φ .haltReq = false) :
    Kept φ s0 (State.poisonSector s stack sec) := by
  unfold State.poisonSector
  with_reducible
    repeat'
      first
      | assumption | (intro _) | apply kept_ite | apply State.askHalt_kept | apply State.fput_kept
      | apply State.irqMem_kept | split | dsimp only | apply kept_mk | apply kept_mk_poison

theorem State.readSector_kept {φ : Part → Bool} {s0 s : State} (errs : List ReadErr) (p : Nat) (spec : Bool) (nme :
    Bool) (kid : Nat) (lsn : Nat) (stack : Nat) (sec : Nat) (hk : Kept φ s0 s) (hkeys : φ .keys = false) (hregs : φ
    .regs = false) (hout : φ .out = false) (hpoison : φ .poison = false) (hchannels : φ .channels = false) (hupds : φ
    .upds = false) (hhaltReq : φ .haltReq = false) :
    Kept φ s0 (State.readSector s errs p spec nme kid lsn stack sec).1 := by
  unfold State.readSector
  with_reducible
    repeat'
      first
      | assumption | (intro _) | apply kept_ite | apply State.bump_kept | apply State.alarm_kept
      | apply State.errLast_kept | apply State.noteFail_kept | apply State.readOnce_kept | apply State.useKey_kept
      | apply State.poisonSector_kept | apply kept_ite_fst | (apply kept_of_eq; assumption) | split | dsimp only

theorem State.writePiece_kept {φ : Part → Bool} {s0 s : State} (errs : List ReadErr) (p : Nat) (nme : Bool) (a : Nat)
    (v : List Byte) (hk : Kept φ s0 s) (hmem : φ .mem = false) (hkeys : φ .keys = false) (hregs : φ .regs = false)
    (hout : φ .out = false) (hpoison : φ .poison = false) (hchannels : φ .channels = false) (hupds : φ .upds = false)
    (hhaltReq : φ .haltReq = false) :
    Kept φ s0 (State.writePiece s errs p nme a v).1 := by
  unfold State.writePiece
  with_reducible
    repeat'
      first
      | assumption | (intro _) | apply kept_ite | apply State.writeSector_kept | apply State.readSector_kept
      | apply kept_ite_fst | (apply kept_of_eq; assumption) | split | dsimp only

theorem State.readPiece_kept {φ : Part → Bool} {s0 s : State} (errs : List ReadErr) (p : Nat) (spec : Bool) (nme :
    Bool) (a : Nat) (len : Nat) (hk : Kept φ s0 s) (hkeys : φ .keys = false) (hregs : φ .regs = false) (hout : φ .out
    = false) (hpoison : φ .poison = false) (hchannels : φ .channels = false) (hupds : φ .upds = false) (hhaltReq : φ
    .haltReq = false) :
    Kept φ s0 (State.readPiece s errs p spec nme a len).1 := by
  unfold State.readPiece
  with_reducible
    repeat'
      first
      | assumption | (intro _) | apply State.readSector_kept | (apply kept_of_eq; assumption) | split | dsimp only

theorem State.writeRun_kept {φ : Part → Bool} {s0 s : State} (errs : List ReadErr) (p : Nat) (nme : Bool) (stop :
    Bool) (a : Nat) (v : List Byte) (hk : Kept φ s0 s) (hmem : φ .mem = false) (hkeys : φ .keys = false) (hregs : φ
    .regs = false) (hout : φ .out = false) (hpoison : φ .poison = false) (hchannels : φ .channels = false) (hupds : φ
    .upds = false) (hhaltReq : φ .haltReq = false) :
    Kept φ s0 (State.writeRun s errs p nme stop a v).1 := by
  unfold State.writeRun
  with_reducible
    repeat'
      first
      | assumption | (intro _) | apply kept_ite | apply State.writePiece_kept | apply kept_foldl | apply kept_ite_fst
      | apply kept_foldl_fst | (apply kept_of_eq; assumption) | split | dsimp only

theorem State.readRun_kept {φ : Part → Bool} {s0 s : State} (errs : List ReadErr) (p : Nat) (spec : Bool) (nme : Bool)
    (a : Nat) (len : Nat) (hk : Kept φ s0 s) (hkeys : φ .keys = false) (hregs : φ .regs = false) (hout : φ .out =
    false) (hpoison : φ .poison = false) (hchannels : φ .channels = false) (hupds : φ .upds = false) (hhaltReq : φ
    .haltReq = false) :
    Kept φ s0 (State.readRun s errs p spec nme a len).1 := by
  unfold State.readRun
  with_reducible
    repeat'
      first
      | assumption | (intro _) | apply State.readPiece_kept | apply kept_foldl | apply kept_foldl_fst
      | (apply kept_of_eq; assumption) | dsimp only

theorem State.checkRun_kept {φ : Part → Bool} {s0 s : State} (p : Nat) (m : Master) (keyed : Bool) (a : Nat) (len :
    Nat) (hk : Kept φ s0 s) (hregs : φ .regs = false) (hout : φ .out = false) (hupds : φ .upds = false) :
    Kept φ s0 (State.checkRun s p m keyed a len).1 := by
  unfold State.checkRun
  with_reducible
    repeat'
      first
      | assumption | (intro _) | apply State.refuse_kept | (apply kept_of_eq; assumption) | split | dsimp only

theorem State.access_kept {φ : Part → Bool} {s0 s : State} (r : RegReq) (a : Nat) (f : State → State) (hk : Kept φ s0
    s) (h_f : ∀ s, Kept φ s0 s → Kept φ s0 (f s)) (hout : φ .out = false) :
    Kept φ s0 (State.access s r a f) := by
  unfold State.access
  with_reducible
    repeat'
      first
      | assumption | (intro _) | apply h_f | apply kept_ite | apply State.emit_kept | split | dsimp only

theorem State.enableIrq_kept {φ : Part → Bool} {s0 s : State} (a : Nat) (old : Nat) (hk : Kept φ s0 s) (hout : φ .out
    = false) :
    Kept φ s0 (State.enableIrq s a old) := by
  unfold State.enableIrq
  with_reducible
    repeat'
      first
      | assumption | (intro _) | apply kept_ite | apply State.emit_kept | split | dsimp only

theorem State.regWrite_kept {φ : Part → Bool} {s0 s : State} (a : Nat) (v : Word) (hk : Kept φ s0 s) (hregs : φ .regs
    = false) (hout : φ .out = false) :
    Kept φ s0 (State.regWrite s a v) := by
  unfold State.regWrite
  with_reducible
    repeat'
      first
      | assumption | (intro _) | apply State.wr_kept | apply State.enableIrq_kept | apply kept_foldl | split
      | dsimp only

theorem State.write_kept {φ : Part → Bool} {s0 s : State} (r : RegReq) (a : Nat) (f : State → State) (hk : Kept φ s0
    s) (h_f : ∀ s, Kept φ s0 s → Kept φ s0 (f s)) (hout : φ .out = false) :
    Kept φ s0 (State.write s r a f) := by
  unfold State.write
  with_reducible
    repeat'
      first
      | assumption | (intro _) | apply h_f | apply kept_ite | apply State.access_kept | split | dsimp only

theorem State.regAfterRead_kept {φ : Part → Bool} {s0 s : State} (a : Nat) (hk : Kept φ s0 s) (hregs : φ .regs =
    false) :
    Kept φ s0 (State.regAfterRead s a) := by
  unfold State.regAfterRead
  with_reducible
    repeat'
      first
      | assumption | (intro _) | apply kept_ite | apply State.wr_kept | apply kept_foldl | split | dsimp only

theorem State.closeWith_kept {φ : Part → Bool} {s0 s : State} (rec_ : List Byte) (hk : Kept φ s0 s) (hregs : φ .regs =
    false) (hmtr : φ .mtr = false) (hout : φ .out = false) (husage : φ .usage = false) (hevents : φ .events = false) :
    Kept φ s0 (State.closeWith s rec_) := by
  unfold State.closeWith
  with_reducible
    repeat'
      first
      | assumption | (intro _) | apply State.fput_kept | apply State.wn_kept | apply State.platEvent_kept | dsimp only
      | apply kept_mk | apply kept_mk_mtr_usage

theorem State.meterClose_kept {φ : Part → Bool} {s0 s : State} (reason : Nat) (hk : Kept φ s0 s) (hregs : φ .regs =
    false) (hmtr : φ .mtr = false) (hout : φ .out = false) (husage : φ .usage = false) (hevents : φ .events = false) :
    Kept φ s0 (State.meterClose s reason) := by
  unfold State.meterClose
  with_reducible
    repeat'
      first
      | assumption | (intro _) | apply State.closeWith_kept | split | dsimp only | apply kept_mk | apply kept_mk_mtr

theorem State.mtrCtrlW_kept {φ : Part → Bool} {s0 s : State} (v : Word) (hk : Kept φ s0 s) (hregs : φ .regs = false)
    (hmtr : φ .mtr = false) (hout : φ .out = false) (husage : φ .usage = false) (hevents : φ .events = false) :
    Kept φ s0 (State.mtrCtrlW s v) := by
  unfold State.mtrCtrlW
  with_reducible
    repeat'
      first
      | assumption | (intro _) | apply kept_ite | apply State.regWrite_kept | apply State.meterClose_kept | split
      | dsimp only

theorem State.memTick_kept {φ : Part → Bool} {s0 s : State}  (hk : Kept φ s0 s) (hmtr : φ .mtr = false) (husage : φ
    .usage = false) :
    Kept φ s0 (State.memTick s) := by
  unfold State.memTick
  with_reducible
    repeat'
      first
      | assumption | (intro _) | apply kept_ite | apply State.meter_kept | apply kept_foldl | split | dsimp only
      | apply kept_mk | apply kept_mk_mtr

theorem State.scheduleClose_kept {φ : Part → Bool} {s0 s : State}  (hk : Kept φ s0 s) (hregs : φ .regs = false) (hmtr
    : φ .mtr = false) (hout : φ .out = false) (husage : φ .usage = false) (hevents : φ .events = false) :
    Kept φ s0 (State.scheduleClose s) := by
  unfold State.scheduleClose
  with_reducible
    repeat'
      first
      | assumption | (intro _) | apply kept_ite | apply State.meterClose_kept | split | dsimp only

theorem State.irqMtr_kept {φ : Part → Bool} {s0 s : State} (f : Fld) (hk : Kept φ s0 s) (hregs : φ .regs = false)
    (hout : φ .out = false) :
    Kept φ s0 (State.irqMtr s f) := by
  unfold State.irqMtr
  with_reducible
    repeat'
      first
      | assumption | (intro _) | apply State.irq_kept | dsimp only

theorem State.recordSeal_kept {φ : Part → Bool} {s0 s : State}  (hk : Kept φ s0 s) (hregs : φ .regs = false) (hmtr : φ
    .mtr = false) (hout : φ .out = false) :
    Kept φ s0 (State.recordSeal s) := by
  unfold State.recordSeal
  with_reducible
    repeat'
      first
      | assumption | (intro _) | apply kept_ite | apply State.fput_kept | apply State.irqMtr_kept | apply kept_ite_fst
      | (apply kept_of_eq; assumption) | split | dsimp only | apply kept_mk | apply kept_mk_mtr

theorem State.rtcSet_kept {φ : Part → Bool} {s0 s : State} (v : Word) (hk : Kept φ s0 s) (hregs : φ .regs = false)
    (hmtr : φ .mtr = false) (hout : φ .out = false) (husage : φ .usage = false) (hevents : φ .events = false) :
    Kept φ s0 (State.rtcSet s v) := by
  unfold State.rtcSet
  with_reducible
    repeat'
      first
      | assumption | (intro _) | apply kept_ite | apply State.fput_kept | apply State.wn_kept | apply State.bump_kept
      | apply State.wr64_kept | apply State.scheduleClose_kept | apply State.irqMtr_kept | split | dsimp only
      | apply kept_mk | apply kept_mk_mtr

theorem State.tenancyClose_kept {φ : Part → Bool} {s0 s : State}  (hk : Kept φ s0 s) (hregs : φ .regs = false) (hmtr :
    φ .mtr = false) (hout : φ .out = false) (husage : φ .usage = false) (hevents : φ .events = false) :
    Kept φ s0 (State.tenancyClose s) := by
  unfold State.tenancyClose
  with_reducible
    repeat'
      first
      | assumption | (intro _) | apply kept_ite | apply State.meterClose_kept | split | dsimp only

theorem State.draw_kept {φ : Part → Bool} {s0 s : State}  (hk : Kept φ s0 s) (hkeeper : φ .keeper = false) :
    Kept φ s0 (State.draw s).1 := by
  unfold State.draw
  with_reducible
    repeat'
      first
      | assumption | (intro _) | (apply kept_of_eq; assumption) | dsimp only | apply kept_mk | apply kept_mk_keeper

theorem State.thermal_kept {φ : Part → Bool} {s0 s : State} (tjs : List Nat) (hk : Kept φ s0 s) (hpower : φ .power =
    false) (hregs : φ .regs = false) (hout : φ .out = false) :
    Kept φ s0 (State.thermal s tjs) := by
  unfold State.thermal
  with_reducible
    repeat'
      first
      | assumption | (intro _) | apply kept_ite | apply State.fput_kept | apply State.irqPwr_kept | apply kept_foldl
      | split | dsimp only | apply kept_mk | apply kept_mk_power

theorem State.feedFrom_kept {φ : Part → Bool} {s0 s : State} (f : Nat) (counts : Bool) (hk : Kept φ s0 s) (hpower : φ
    .power = false) (hregs : φ .regs = false) :
    Kept φ s0 (State.feedFrom s f counts) := by
  unfold State.feedFrom
  with_reducible
    repeat'
      first
      | assumption | (intro _) | apply kept_ite | apply State.fput_kept | apply State.bump_kept | split | dsimp only
      | apply kept_mk | apply kept_mk_power

theorem State.feedGone_kept {φ : Part → Bool} {s0 s : State} (f : Nat) (hk : Kept φ s0 s) (hpower : φ .power = false)
    (hregs : φ .regs = false) :
    Kept φ s0 (State.feedGone s f) := by
  unfold State.feedGone
  with_reducible
    repeat'
      first
      | assumption | (intro _) | apply kept_ite | apply State.feedFrom_kept | split | dsimp only

theorem State.inputSample_kept {φ : Part → Bool} {s0 s : State} (mw : Nat) (va : Nat) (vb : Nat) (hk : Kept φ s0 s)
    (hpower : φ .power = false) (hregs : φ .regs = false) :
    Kept φ s0 (State.inputSample s mw va vb) := by
  unfold State.inputSample
  with_reducible
    repeat'
      first
      | assumption | (intro _) | apply kept_ite | apply State.fput_kept | apply State.feedFrom_kept | split
      | dsimp only | apply kept_mk | apply kept_mk_power

theorem State.vfStep_kept {φ : Part → Bool} {s0 s : State} (h : Nat) (room : Bool) (why : Nat) (hk : Kept φ s0 s)
    (hpower : φ .power = false) (hregs : φ .regs = false) :
    Kept φ s0 (State.vfStep s h room why) := by
  unfold State.vfStep
  with_reducible
    repeat'
      first
      | assumption | (intro _) | apply kept_ite | apply State.fput_kept | split | dsimp only | apply kept_mk
      | apply kept_mk_power

theorem State.throttle_kept {φ : Part → Bool} {s0 s : State} (pool : List Nat) (current : Bool) (why : Nat) (hk : Kept
    φ s0 s) (hregs : φ .regs = false) :
    Kept φ s0 (State.throttle s pool current why) := by
  unfold State.throttle
  with_reducible
    repeat'
      first
      | assumption | (intro _) | apply kept_ite | apply State.fput_kept | apply State.wr64_kept | apply kept_foldl
      | split | dsimp only

theorem State.estimate_kept {φ : Part → Bool} {s0 s : State} (tot : Nat) (pool : Nat) (d : Demand) (i0 : Nat) (i1 :
    Nat) (hk : Kept φ s0 s) (hpower : φ .power = false) (hregs : φ .regs = false) :
    Kept φ s0 (State.estimate s tot pool d i0 i1) := by
  unfold State.estimate
  with_reducible
    repeat'
      first
      | assumption | (intro _) | apply kept_ite | apply State.fput_kept | apply State.vfStep_kept
      | apply State.throttle_kept | split | dsimp only | apply kept_mk | apply kept_mk_power

theorem State.meterSag_kept {φ : Part → Bool} {s0 s : State}  (hk : Kept φ s0 s) (hregs : φ .regs = false) (hmtr : φ
    .mtr = false) (husage : φ .usage = false) :
    Kept φ s0 (State.meterSag s) := by
  unfold State.meterSag
  with_reducible
    repeat'
      first
      | assumption | (intro _) | apply State.fput_kept | dsimp only | apply kept_mk | apply kept_mk_mtr_usage

theorem State.feedLoss_kept {φ : Part → Bool} {s0 s : State} (f : Nat) (hk : Kept φ s0 s) (hpower : φ .power = false)
    (hregs : φ .regs = false) (hout : φ .out = false) :
    Kept φ s0 (State.feedLoss s f) := by
  unfold State.feedLoss
  with_reducible
    repeat'
      first
      | assumption | (intro _) | apply State.fput_kept | apply State.irqPwr_kept | apply State.feedGone_kept
      | dsimp only

theorem State.calibrate_kept {φ : Part → Bool} {s0 s : State}  (hk : Kept φ s0 s) (hpower : φ .power = false) (hregs :
    φ .regs = false) (hout : φ .out = false) :
    Kept φ s0 (State.calibrate s) := by
  unfold State.calibrate
  with_reducible
    repeat'
      first
      | assumption | (intro _) | apply kept_ite | apply State.fput_kept | apply State.wn_kept | apply State.bump_kept
      | apply State.irqPwr_kept | split | dsimp only | apply kept_mk | apply kept_mk_power

theorem State.limCtrlW_kept {φ : Part → Bool} {s0 s : State} (v : Word) (hk : Kept φ s0 s) (hpower : φ .power = false)
    (hregs : φ .regs = false) (hout : φ .out = false) (hseqs : φ .seqs = false) :
    Kept φ s0 (State.limCtrlW s v) := by
  unfold State.limCtrlW
  with_reducible
    repeat'
      first
      | assumption | (intro _) | apply kept_ite | apply State.fput_kept | apply State.setSq_kept
      | apply State.regWrite_kept | apply kept_foldl | split | dsimp only | apply kept_mk | apply kept_mk_power

theorem State.feedOver_kept {φ : Part → Bool} {s0 s : State} (f : Nat) (hk : Kept φ s0 s) (hpower : φ .power = false)
    (hregs : φ .regs = false) (hout : φ .out = false) :
    Kept φ s0 (State.feedOver s f) := by
  unfold State.feedOver
  with_reducible
    repeat'
      first
      | assumption | (intro _) | apply State.fput_kept | apply State.irqPwr_kept | apply State.feedGone_kept
      | dsimp only

theorem State.sagTaint_kept {φ : Part → Bool} {s0 s : State} (p : Nat) (hk : Kept φ s0 s) (hupds : φ .upds = false) :
    Kept φ s0 (State.sagTaint s p) := by
  unfold State.sagTaint
  with_reducible
    repeat'
      first
      | assumption | (intro _) | apply State.setUp_kept | dsimp only

theorem State.powerReport_kept {φ : Part → Bool} {s0 s : State}  (hk : Kept φ s0 s) (hregs : φ .regs = false) :
    Kept φ s0 (State.powerReport s) := by
  unfold State.powerReport
  with_reducible
    repeat'
      first
      | assumption | (intro _) | apply kept_ite | apply State.fput_kept | apply State.wr64_kept | split | dsimp only

theorem State.sagWarn_kept {φ : Part → Bool} {s0 s : State}  (hk : Kept φ s0 s) (hpower : φ .power = false) (hregs : φ
    .regs = false) (hmtr : φ .mtr = false) (hout : φ .out = false) (husage : φ .usage = false) (hupds : φ .upds =
    false) (hevents : φ .events = false) :
    Kept φ s0 (State.sagWarn s) := by
  unfold State.sagWarn
  with_reducible
    repeat'
      first
      | assumption | (intro _) | apply kept_ite | apply State.fput_kept | apply State.bump_kept
      | apply State.showHold_kept | apply State.platEvent_kept | apply State.irqPwr_kept | apply State.meterSag_kept
      | apply State.sagTaint_kept | apply kept_foldl | split | dsimp only | apply kept_mk | apply kept_mk_power

theorem State.vbatCheck_kept {φ : Part → Bool} {s0 s : State} (mv : Nat) (hk : Kept φ s0 s) (hregs : φ .regs = false)
    (hout : φ .out = false) :
    Kept φ s0 (State.vbatCheck s mv) := by
  unfold State.vbatCheck
  with_reducible
    repeat'
      first
      | assumption | (intro _) | apply kept_ite | apply State.fput_kept | apply State.irqPwr_kept | split | dsimp only

theorem State.sagOver_kept {φ : Part → Bool} {s0 s : State}  (hk : Kept φ s0 s) (hregs : φ .regs = false) (hmtr : φ
    .mtr = false) (hout : φ .out = false) (husage : φ .usage = false) (hevents : φ .events = false) :
    Kept φ s0 (State.sagOver s) := by
  unfold State.sagOver
  with_reducible
    repeat'
      first
      | assumption | (intro _) | apply kept_ite | apply State.fput_kept | apply State.platEvent_kept
      | apply State.irqPwr_kept | split | dsimp only | apply kept_mk | apply kept_mk_mtr_usage

theorem State.thermtrip_kept {φ : Part → Bool} {s0 s : State}  (hk : Kept φ s0 s) (hpower : φ .power = false) (hregs :
    φ .regs = false) (hout : φ .out = false) (hevents : φ .events = false) (hbus : φ .bus = false) (hhaltReq : φ
    .haltReq = false) :
    Kept φ s0 (State.thermtrip s) := by
  unfold State.thermtrip
  with_reducible
    repeat'
      first
      | assumption | (intro _) | apply State.askHalt_kept | apply State.emit_kept | apply State.platEvent_kept
      | apply State.irqPwr_kept | dsimp only | apply kept_mk | apply kept_mk_power_bus

theorem State.capW_kept {φ : Part → Bool} {s0 s : State} (v : Word) (hk : Kept φ s0 s) (hregs : φ .regs = false) (hout
    : φ .out = false) :
    Kept φ s0 (State.capW s v) := by
  unfold State.capW
  with_reducible
    repeat'
      first
      | assumption | (intro _) | apply kept_ite | apply State.irqPwr_kept | apply State.regWrite_kept | split
      | dsimp only

theorem State.land_kept {φ : Part → Bool} {s0 s : State} (d : LandDst) (hk : Kept φ s0 s) (hcores : φ .cores = false)
    :
    Kept φ s0 (State.land s d) := by
  unfold State.land
  with_reducible
    repeat'
      first
      | assumption | (intro _) | apply State.sramPut_kept | split | dsimp only | apply kept_mk | apply kept_mk_cores

theorem State.setLate_kept {φ : Part → Bool} {s0 s : State} (p : Nat) (v : Nat) (hk : Kept φ s0 s) (hregs : φ .regs =
    false) :
    Kept φ s0 (State.setLate s p v) := by
  unfold State.setLate
  with_reducible
    repeat'
      first
      | assumption | (intro _) | apply State.wn_kept | dsimp only

theorem State.landDue_kept {φ : Part → Bool} {s0 s : State} (p : Nat) (b : Nat) (hk : Kept φ s0 s) (hcores : φ .cores
    = false) (hseqs : φ .seqs = false) :
    Kept φ s0 (State.landDue s p b) := by
  unfold State.landDue
  with_reducible
    repeat'
      first
      | assumption | (intro _) | apply State.setSq_kept | apply State.land_kept | apply kept_foldl | dsimp only

theorem State.setAnnQ_kept {φ : Part → Bool} {s0 s : State} (p : Nat) (l : List Bool) (announced : Bool) (hk : Kept φ
    s0 s) (hregs : φ .regs = false) (hseqs : φ .seqs = false) :
    Kept φ s0 (State.setAnnQ s p l announced) := by
  unfold State.setAnnQ
  with_reducible
    repeat'
      first
      | assumption | (intro _) | apply State.fput_kept | apply State.setSq_kept | dsimp only

theorem State.setAhead_kept {φ : Part → Bool} {s0 s : State} (p : Nat) (i : Nat) (v : Nat) (hk : Kept φ s0 s)
    (hringAdv : φ .ringAdv = false) :
    Kept φ s0 (State.setAhead s p i v) := by
  unfold State.setAhead
  with_reducible
    repeat'
      first
      | assumption | (intro _) | dsimp only | apply kept_mk | apply kept_mk_ringAdv

theorem State.settleStream_kept {φ : Part → Bool} {s0 s : State} (p : Nat) (hk : Kept φ s0 s) (hcores : φ .cores =
    false) (hseqs : φ .seqs = false) :
    Kept φ s0 (State.settleStream s p) := by
  unfold State.settleStream
  with_reducible
    repeat'
      first
      | assumption | (intro _) | apply State.landDue_kept | apply kept_foldl | dsimp only | apply kept_mk
      | apply kept_mk_cores

theorem State.setRun_kept {φ : Part → Bool} {s0 s : State} (core : Nat) (u : Nat) (r : Option Run) (hk : Kept φ s0 s)
    (hcores : φ .cores = false) :
    Kept φ s0 (State.setRun s core u r) := by
  unfold State.setRun
  with_reducible
    repeat'
      first
      | assumption | (intro _) | dsimp only | apply kept_mk | apply kept_mk_cores

theorem State.advance_kept {φ : Part → Bool} {s0 s : State} (p : Nat) (b : Nat) (hk : Kept φ s0 s) (hcores : φ .cores
    = false) (hregs : φ .regs = false) (hseqs : φ .seqs = false) (husage : φ .usage = false) :
    Kept φ s0 (State.advance s p b) := by
  unfold State.advance
  with_reducible
    repeat'
      first
      | assumption | (intro _) | apply kept_ite | apply State.fput_kept | apply State.setSq_kept
      | apply State.abandon_kept | apply State.count_kept | apply State.meter_kept | apply State.bump64_kept
      | apply State.landDue_kept | split | dsimp only

theorem State.lostCheck_kept {φ : Part → Bool} {s0 s : State} (p : Nat) (hk : Kept φ s0 s) (hregs : φ .regs = false)
    (hout : φ .out = false) (hseqs : φ .seqs = false) (husage : φ .usage = false) :
    Kept φ s0 (State.lostCheck s p) := by
  unfold State.lostCheck
  with_reducible
    repeat'
      first
      | assumption | (intro _) | apply kept_ite | apply State.fput_kept | apply State.bump_kept
      | apply State.sepiaRec_kept | apply State.irqSeq_kept | apply State.setAnnQ_kept | split | dsimp only

theorem State.sched_kept {φ : Part → Bool} {s0 s : State} (p : Nat) (b : Nat) (d : LandDst) (hk : Kept φ s0 s) (hseqs
    : φ .seqs = false) :
    Kept φ s0 (State.sched s p b d) := by
  unfold State.sched
  with_reducible
    repeat'
      first
      | assumption | (intro _) | apply kept_ite | apply State.setSq_kept | split | dsimp only

theorem State.fetch_kept {φ : Part → Bool} {s0 s : State} (errs : List ReadErr) (p : Nat) (i : Nat) (n : Nat) (hk :
    Kept φ s0 s) (hkeys : φ .keys = false) (hregs : φ .regs = false) (hout : φ .out = false) (hpoison : φ .poison =
    false) (hchannels : φ .channels = false) (hupds : φ .upds = false) (hhaltReq : φ .haltReq = false) :
    Kept φ s0 (State.fetch s errs p i n).1 := by
  unfold State.fetch
  with_reducible
    repeat'
      first
      | assumption | (intro _) | apply kept_ite | apply State.readRun_kept | apply State.checkRun_kept
      | apply kept_ite_fst | (apply kept_of_eq; assumption) | split | dsimp only

theorem State.fillNext_kept {φ : Part → Bool} {s0 s : State} (errs : List ReadErr) (p : Nat) (hk : Kept φ s0 s) (hkeys
    : φ .keys = false) (hcores : φ .cores = false) (hregs : φ .regs = false) (hout : φ .out = false) (hseqs : φ .seqs
    = false) (hpoison : φ .poison = false) (hchannels : φ .channels = false) (husage : φ .usage = false) (hupds : φ
    .upds = false) (hqueues : φ .queues = false) (hhaltReq : φ .haltReq = false) (hfrozen : φ .frozen = false) :
    Kept φ s0 (State.fillNext s errs p) := by
  unfold State.fillNext
  with_reducible
    repeat'
      first
      | assumption | (intro _) | apply kept_ite | apply State.setSq_kept | apply State.seqFault_kept
      | apply State.fetch_kept | apply kept_ite_fst | (apply kept_of_eq; assumption) | split | dsimp only

theorem State.lostEnd_kept {φ : Part → Bool} {s0 s : State} (p : Nat) (hk : Kept φ s0 s) (hregs : φ .regs = false)
    (hout : φ .out = false) (hseqs : φ .seqs = false) (husage : φ .usage = false) :
    Kept φ s0 (State.lostEnd s p) := by
  unfold State.lostEnd
  with_reducible
    repeat'
      first
      | assumption | (intro _) | apply kept_ite | apply State.lostCheck_kept | split | dsimp only

theorem State.overrun_kept {φ : Part → Bool} {s0 s : State} (p : Nat) (hk : Kept φ s0 s) (hcores : φ .cores = false)
    (hregs : φ .regs = false) (hout : φ .out = false) (hseqs : φ .seqs = false) (husage : φ .usage = false) (hqueues :
    φ .queues = false) (hfrozen : φ .frozen = false) :
    KeptO φ s0 (State.overrun s p) := by
  unfold State.overrun
  with_reducible
    repeat'
      first
      | assumption | (intro _) | apply State.beatFault_kept | (apply keptO_get; assumption) | apply kept_getD
      | apply keptO_ite | apply keptO_none | apply keptO_some | apply keptO_map | dsimp only

theorem State.usePorts_kept {φ : Part → Bool} {s0 s : State} (p : Nat) (core : Nat) (banks : List Nat) (u : Nat) (hk :
    Kept φ s0 s) (hseqs : φ .seqs = false) :
    KeptE φ s0 (State.usePorts s p core banks u) := by
  unfold State.usePorts
  with_reducible
    repeat'
      first
      | assumption | (intro _) | apply State.setSq_kept | apply keptE_ok | apply keptE_error | apply keptE_ite
      | (apply keptE_get; assumption) | apply kept_foldl | apply kept_foldl_fst | (apply kept_of_eq; assumption)
      | split | dsimp only

theorem State.sramLast_kept {φ : Part → Bool} {s0 s : State} (p : Nat) (phys : Nat) (bank : Nat) (mac : Nat) (col :
    Nat) (row : Nat) (port : Nat) (ue : Bool) (hk : Kept φ s0 s) (hcores : φ .cores = false) (hregs : φ .regs = false)
    :
    Kept φ s0 (State.sramLast s p phys bank mac col row port ue) := by
  unfold State.sramLast
  with_reducible
    repeat'
      first
      | assumption | (intro _) | apply kept_ite | apply State.wr_kept | apply kept_ite_fst
      | (apply kept_of_eq; assumption) | split | dsimp only | apply kept_mk | apply kept_mk_cores

theorem State.noteUe_kept {φ : Part → Bool} {s0 s : State} (p : Nat) (phys : Nat) (bank : Nat) (mac : Nat) (row : Nat)
    (port : Nat) (hk : Kept φ s0 s) (hcores : φ .cores = false) (hregs : φ .regs = false) (hout : φ .out = false) :
    Kept φ s0 (State.noteUe s p phys bank mac row port) := by
  unfold State.noteUe
  with_reducible
    repeat'
      first
      | assumption | (intro _) | apply State.setBits_kept | apply State.bump_kept | apply State.irqDbg_kept
      | apply State.sramLast_kept | dsimp only

theorem State.sramUe_kept {φ : Part → Bool} {s0 s : State} (p : Nat) (phys : Nat) (u : Nat) (w : Nat) (port : Nat) (hk
    : Kept φ s0 s) (hcores : φ .cores = false) (hregs : φ .regs = false) (hout : φ .out = false) (husage : φ .usage =
    false) (hupds : φ .upds = false) :
    Kept φ s0 (State.sramUe s p phys u w port) := by
  unfold State.sramUe
  with_reducible
    repeat'
      first
      | assumption | (intro _) | apply kept_ite | apply State.sepiaRec_kept | apply State.alarm_kept
      | apply State.noteUe_kept | split | dsimp only

theorem okRes_kept {φ : Part → Bool} {s0 s : State} (x : Beat) (hk : Kept φ s0 s) :
    KeptR φ s0 (okRes s x) := by
  unfold okRes
  with_reducible
    repeat'
      first
      | assumption | (intro _) | apply keptR_error | apply keptR_ite | apply keptR_ok' | (apply keptR_get; assumption)
      | (apply kept_of_eq; assumption) | dsimp only

theorem State.dropRun_kept {φ : Part → Bool} {s0 s : State} (p : Nat) (phys : Nat) (u : Nat) (hk : Kept φ s0 s)
    (hcores : φ .cores = false) :
    Kept φ s0 (State.dropRun s p phys u) := by
  unfold State.dropRun
  with_reducible
    repeat'
      first
      | assumption | (intro _) | apply kept_ite | apply State.setRun_kept | split | dsimp only

theorem State.noteCe_kept {φ : Part → Bool} {s0 s : State} (p : Nat) (phys : Nat) (bank : Nat) (mac : Nat) (col : Nat)
    (row : Nat) (port : Nat) (hk : Kept φ s0 s) (hcores : φ .cores = false) (hregs : φ .regs = false) (hout : φ .out =
    false) (husage : φ .usage = false) :
    Kept φ s0 (State.noteCe s p phys bank mac col row port) := by
  unfold State.noteCe
  with_reducible
    repeat'
      first
      | assumption | (intro _) | apply kept_ite | apply State.setBits_kept | apply State.bump_kept
      | apply State.count_kept | apply State.irqDbg_kept | apply State.sramLast_kept | split | dsimp only

theorem State.arrayCe_kept {φ : Part → Bool} {s0 s : State} (p : Nat) (phys : Nat) (u : Nat) (i : Nat) (hk : Kept φ s0
    s) (hcores : φ .cores = false) (hregs : φ .regs = false) (hout : φ .out = false) (husage : φ .usage = false) :
    Kept φ s0 (State.arrayCe s p phys u i) := by
  unfold State.arrayCe
  with_reducible
    repeat'
      first
      | assumption | (intro _) | apply State.noteCe_kept | dsimp only

theorem State.unitBeat_kept {φ : Part → Bool} {s0 s : State} (p : Nat) (core : Nat) (u : Nat) (err : UnitErr) (pick :
    Nat → Bool) (work : State → Beat → Res) (hk : Kept φ s0 s) (h_work : ∀ s x, Kept φ s0 s → KeptR φ s0 (work s x))
    (hcores : φ .cores = false) (hregs : φ .regs = false) (hout : φ .out = false) (hseqs : φ .seqs = false) (husage :
    φ .usage = false) (hqueues : φ .queues = false) (hfrozen : φ .frozen = false) :
    Kept φ s0 (State.unitBeat s p core u err pick work) := by
  unfold State.unitBeat
  with_reducible
    repeat'
      first
      | assumption | (intro _) | apply h_work | apply kept_ite | apply State.beatFault_kept | apply State.setRun_kept
      | apply State.advance_kept | apply State.overrun_kept | apply State.noteUe_kept | apply State.dropRun_kept
      | apply State.arrayCe_kept | (apply keptO_get; assumption) | apply kept_getD | apply keptO_ite
      | apply keptO_none | apply keptO_some | apply keptR_error | apply keptR_ite | apply keptR_ok'
      | (apply keptR_get; assumption) | apply kept_foldl | apply kept_ite_fst | apply kept_foldl_fst
      | (apply kept_of_eq; assumption) | split | dsimp only

theorem State.arrayUe_kept {φ : Part → Bool} {s0 s : State} (p : Nat) (phys : Nat) (u : Nat) (i : Nat) (hk : Kept φ s0
    s) (hcores : φ .cores = false) (hregs : φ .regs = false) (hout : φ .out = false) (husage : φ .usage = false)
    (hupds : φ .upds = false) :
    Kept φ s0 (State.arrayUe s p phys u i) := by
  unfold State.arrayUe
  with_reducible
    repeat'
      first
      | assumption | (intro _) | apply State.sepiaRec_kept | apply State.alarm_kept | apply State.noteUe_kept
      | dsimp only

theorem State.accRow_kept {φ : Part → Bool} {s0 s : State} (x : Beat) (row : Nat) (n : Nat) (hk : Kept φ s0 s) (hcores
    : φ .cores = false) (hregs : φ .regs = false) (hout : φ .out = false) (husage : φ .usage = false) (hupds : φ .upds
    = false) :
    Kept φ s0 (State.accRow s x row n).1 := by
  unfold State.accRow
  with_reducible
    repeat'
      first
      | assumption | (intro _) | apply kept_ite | apply State.arrayUe_kept | apply kept_foldl | apply kept_ite_fst
      | apply kept_foldl_fst | (apply kept_of_eq; assumption) | split | dsimp only

theorem State.columnError_kept {φ : Part → Bool} {s0 s : State} (phys : Nat) (bank : Nat) (mac : Nat) (col : Nat) (hk
    : Kept φ s0 s) (hcores : φ .cores = false) :
    Kept φ s0 (State.columnError s phys bank mac col) := by
  unfold State.columnError
  with_reducible
    repeat'
      first
      | assumption | (intro _) | apply kept_ite | split | dsimp only | apply kept_mk | apply kept_mk_cores

theorem State.sramCe_kept {φ : Part → Bool} {s0 s : State} (p : Nat) (phys : Nat) (w : Nat) (j : Nat) (port : Nat) (hk
    : Kept φ s0 s) (hcores : φ .cores = false) (hregs : φ .regs = false) (hout : φ .out = false) (husage : φ .usage =
    false) :
    Kept φ s0 (State.sramCe s p phys w j port) := by
  unfold State.sramCe
  with_reducible
    repeat'
      first
      | assumption | (intro _) | apply State.noteCe_kept | apply State.columnError_kept | dsimp only

theorem State.sramGet_kept {φ : Part → Bool} {s0 s : State} (p : Nat) (phys : Nat) (u : Nat) (port : Nat) (bad :
    SramErrs) (f : Nat → Nat) (len : Nat) (hk : Kept φ s0 s) (hcores : φ .cores = false) (hregs : φ .regs = false)
    (hout : φ .out = false) (husage : φ .usage = false) (hupds : φ .upds = false) :
    Kept φ s0 (State.sramGet s p phys u port bad f len).1 := by
  unfold State.sramGet
  with_reducible
    repeat'
      first
      | assumption | (intro _) | apply kept_ite | apply State.sramUe_kept | apply State.sramCe_kept | apply kept_foldl
      | apply kept_ite_fst | apply kept_foldl_fst | (apply kept_of_eq; assumption) | split | dsimp only

theorem State.vreg_kept {φ : Part → Bool} {s0 s : State} (x : Beat) (r : Nat) (hk : Kept φ s0 s) (hcores : φ .cores =
    false) (hregs : φ .regs = false) (hout : φ .out = false) (husage : φ .usage = false) (hupds : φ .upds = false) :
    Kept φ s0 (State.vreg s x r).1 := by
  unfold State.vreg
  with_reducible
    repeat'
      first
      | assumption | (intro _) | apply kept_ite | apply State.arrayUe_kept | apply kept_foldl | apply kept_ite_fst
      | apply kept_foldl_fst | (apply kept_of_eq; assumption) | split | dsimp only

theorem State.portGet_kept {φ : Part → Bool} {s0 s : State} (x : Beat) (f : Nat → Nat) (len : Nat) (hk : Kept φ s0 s)
    (hcores : φ .cores = false) (hregs : φ .regs = false) (hout : φ .out = false) (hseqs : φ .seqs = false) (husage :
    φ .usage = false) (hupds : φ .upds = false) :
    KeptR φ s0 (State.portGet s x f len) := by
  unfold State.portGet
  with_reducible
    repeat'
      first
      | assumption | (intro _) | apply State.usePorts_kept | apply State.sramGet_kept | apply keptE_ok
      | apply keptE_error | apply keptE_ite | (apply keptE_get; assumption) | apply keptR_error | apply keptR_ite
      | apply keptR_ok' | (apply keptR_get; assumption) | (apply kept_of_eq; assumption) | split | dsimp only

theorem State.nmeSector_kept {φ : Part → Bool} {s0 s : State} (k : Nat) (hk : Kept φ s0 s) (hchannels : φ .channels =
    false) :
    Kept φ s0 (State.nmeSector s k) := by
  unfold State.nmeSector
  with_reducible
    repeat'
      first
      | assumption | (intro _) | apply State.setStk_kept | dsimp only

theorem State.nmeRead_kept {φ : Part → Bool} {s0 s : State} (x : NmeCtx) (a : Nat) (len : Nat) (hk : Kept φ s0 s)
    (hkeys : φ .keys = false) (hregs : φ .regs = false) (hout : φ .out = false) (hpoison : φ .poison = false)
    (hchannels : φ .channels = false) (hupds : φ .upds = false) (hhaltReq : φ .haltReq = false) :
    Kept φ s0 (State.nmeRead s x a len).1 := by
  unfold State.nmeRead
  with_reducible
    repeat'
      first
      | assumption | (intro _) | apply kept_ite | apply State.refuse_kept | apply State.readPiece_kept
      | apply State.nmeSector_kept | apply kept_foldl | apply kept_ite_fst | apply kept_foldl_fst
      | (apply kept_of_eq; assumption) | split | dsimp only

theorem State.readIdx_kept {φ : Part → Bool} {s0 s : State} (x : NmeCtx) (hk : Kept φ s0 s) (hkeys : φ .keys = false)
    (hregs : φ .regs = false) (hout : φ .out = false) (hpoison : φ .poison = false) (hchannels : φ .channels = false)
    (hupds : φ .upds = false) (hhaltReq : φ .haltReq = false) :
    Kept φ s0 (State.readIdx s x).1 := by
  unfold State.readIdx
  with_reducible
    repeat'
      first
      | assumption | (intro _) | apply State.nmeRead_kept | (apply kept_of_eq; assumption) | split | dsimp only

theorem State.nmeRange_kept {φ : Part → Bool} {s0 s : State} (x : NmeCtx) (m : Master) (keyed : Bool) (a : Nat) (len :
    Nat) (hk : Kept φ s0 s) (hregs : φ .regs = false) (hout : φ .out = false) (hupds : φ .upds = false) :
    Kept φ s0 (State.nmeRange s x m keyed a len).1 := by
  unfold State.nmeRange
  with_reducible
    repeat'
      first
      | assumption | (intro _) | apply kept_ite | apply State.checkRun_kept | apply kept_ite_fst
      | (apply kept_of_eq; assumption) | split | dsimp only

theorem nmeBad_kept {φ : Part → Bool} {s0 s : State} (x : NmeCtx) (st : Nat) (hk : Kept φ s0 s) :
    Kept φ s0 (nmeBad s x st).1 := by
  unfold nmeBad
  with_reducible
    repeat'
      first
      | assumption | (intro _) | (apply kept_of_eq; assumption) | dsimp only

theorem State.nmeWrite_kept {φ : Part → Bool} {s0 s : State} (x : NmeCtx) (a : Nat) (v : List Byte) (hk : Kept φ s0 s)
    (hmem : φ .mem = false) (hkeys : φ .keys = false) (hregs : φ .regs = false) (hout : φ .out = false) (hpoison : φ
    .poison = false) (hchannels : φ .channels = false) (hupds : φ .upds = false) (hhaltReq : φ .haltReq = false) :
    Kept φ s0 (State.nmeWrite s x a v).1 := by
  unfold State.nmeWrite
  with_reducible
    repeat'
      first
      | assumption | (intro _) | apply kept_ite | apply State.refuse_kept | apply State.writePiece_kept
      | apply State.nmeSector_kept | apply kept_foldl | apply kept_ite_fst | apply kept_foldl_fst
      | (apply kept_of_eq; assumption) | split | dsimp only

theorem scatterWork_kept {φ : Part → Bool} {s0 s : State} (x : NmeCtx) (hk : Kept φ s0 s) (hmem : φ .mem = false)
    (hkeys : φ .keys = false) (hregs : φ .regs = false) (hout : φ .out = false) (hseqs : φ .seqs = false) (hpoison : φ
    .poison = false) (hchannels : φ .channels = false) (husage : φ .usage = false) (hupds : φ .upds = false) (hhaltReq
    : φ .haltReq = false) :
    Kept φ s0 (scatterWork s x).1 := by
  unfold scatterWork
  with_reducible
    repeat'
      first
      | assumption | (intro _) | apply kept_ite | apply State.nfSeen_kept | apply State.nonFinite_kept
      | apply State.nmeRead_kept | apply State.readIdx_kept | apply State.nmeRange_kept | apply nmeBad_kept
      | apply State.nmeWrite_kept | apply kept_foldl | apply kept_ite_fst | apply kept_foldl_fst
      | (apply kept_of_eq; assumption) | split | dsimp only

theorem State.blockRange_kept {φ : Part → Bool} {s0 s : State} (x : NmeCtx) (m : Master) (keyed : Bool) (a : Nat) (l :
    List Nat) (hk : Kept φ s0 s) (hregs : φ .regs = false) (hout : φ .out = false) (hupds : φ .upds = false) :
    Kept φ s0 (State.blockRange s x m keyed a l).1 := by
  unfold State.blockRange
  with_reducible
    repeat'
      first
      | assumption | (intro _) | apply State.checkRun_kept | (apply kept_of_eq; assumption) | split | dsimp only

theorem blockLoop_kept {φ : Part → Bool} {s0 s : State} (l : List Nat) (f : State → Nat → State × Nat) (hk : Kept φ s0
    s) (h_f : ∀ s a1, Kept φ s0 s → Kept φ s0 (f s a1).1) :
    Kept φ s0 (blockLoop s l f).1 := by
  unfold blockLoop
  with_reducible
    repeat'
      first
      | assumption | (intro _) | apply h_f | apply kept_ite | apply kept_foldl | apply kept_ite_fst
      | apply kept_foldl_fst | (apply kept_of_eq; assumption) | split | dsimp only

theorem fillWork_kept {φ : Part → Bool} {s0 s : State} (plain : NmeCtx → List Byte) (form : NmeCtx → Bool) (x :
    NmeCtx) (hk : Kept φ s0 s) (hmem : φ .mem = false) (hkeys : φ .keys = false) (hregs : φ .regs = false) (hout : φ
    .out = false) (hpoison : φ .poison = false) (hchannels : φ .channels = false) (hupds : φ .upds = false) (hhaltReq
    : φ .haltReq = false) :
    Kept φ s0 (fillWork plain form s x).1 := by
  unfold fillWork
  with_reducible
    repeat'
      first
      | assumption | (intro _) | apply kept_ite | apply nmeBad_kept | apply State.nmeWrite_kept
      | apply State.blockRange_kept | apply blockLoop_kept | apply kept_ite_fst | (apply kept_of_eq; assumption)
      | split | dsimp only

theorem State.nmeFinish_kept {φ : Part → Bool} {s0 s : State} (x : NmeCtx) (e : NmeEnd) (hk : Kept φ s0 s) (hkeys : φ
    .keys = false) (hcores : φ .cores = false) (hregs : φ .regs = false) (hseqs : φ .seqs = false) (hchannels : φ
    .channels = false) (husage : φ .usage = false) (hupds : φ .upds = false) :
    Kept φ s0 (State.nmeFinish s x e) := by
  unfold State.nmeFinish
  with_reducible
    repeat'
      first
      | assumption | (intro _) | apply kept_ite | apply State.sepiaRec_kept | apply State.count_kept
      | apply State.raiseNf_kept | apply State.bump64_kept | apply State.setStk_kept | apply State.sramWr_kept
      | apply State.ifcSend_kept | apply State.forward_kept | split | dsimp only

theorem State.nmeRun_kept {φ : Part → Bool} {s0 s : State} (k : Nat) (op : Nat) (ifc : Bool) (errs : List ReadErr)
    (work : State → NmeCtx → State × NmeEnd) (hk : Kept φ s0 s) (h_work : ∀ s x, Kept φ s0 s → Kept φ s0 (work s x).1)
    (hkeys : φ .keys = false) (hcores : φ .cores = false) (hregs : φ .regs = false) (hout : φ .out = false) (hseqs : φ
    .seqs = false) (hchannels : φ .channels = false) (husage : φ .usage = false) (hupds : φ .upds = false) :
    Kept φ s0 (State.nmeRun s k op ifc errs work) := by
  unfold State.nmeRun
  with_reducible
    repeat'
      first
      | assumption | (intro _) | apply h_work | apply kept_ite | apply State.irqMem_kept | apply State.alarm_kept
      | apply State.issuedAs_kept | apply State.nmeFinish_kept | apply kept_ite_fst | (apply kept_of_eq; assumption)
      | split | dsimp only

theorem wipeWork_kept {φ : Part → Bool} {s0 s : State} (x : NmeCtx) (hk : Kept φ s0 s) (hmem : φ .mem = false) (hregs
    : φ .regs = false) (hout : φ .out = false) (hpoison : φ .poison = false) (hupds : φ .upds = false) :
    Kept φ s0 (wipeWork s x).1 := by
  unfold wipeWork
  with_reducible
    repeat'
      first
      | assumption | (intro _) | apply kept_ite | apply State.putRaw_kept | apply nmeBad_kept
      | apply State.blockRange_kept | apply blockLoop_kept | apply kept_ite_fst | (apply kept_of_eq; assumption)
      | split | dsimp only

theorem State.nmeStart_kept {φ : Part → Bool} {s0 s : State} (k : Nat) (delay : Nat) (hk : Kept φ s0 s) (hregs : φ
    .regs = false) (hchannels : φ .channels = false) (husage : φ .usage = false) :
    Kept φ s0 (State.nmeStart s k delay) := by
  unfold State.nmeStart
  with_reducible
    repeat'
      first
      | assumption | (intro _) | apply kept_ite | apply State.sepiaRec_kept | apply State.bump64_kept
      | apply State.setStk_kept | split | dsimp only

theorem State.nmePut_kept {φ : Part → Bool} {s0 s : State} (x : NmeCtx) (d : NmeDst) (off : Nat) (v : List Byte) (hk :
    Kept φ s0 s) (hmem : φ .mem = false) (hkeys : φ .keys = false) (hcores : φ .cores = false) (hregs : φ .regs =
    false) (hout : φ .out = false) (hseqs : φ .seqs = false) (hpoison : φ .poison = false) (hchannels : φ .channels =
    false) (hupds : φ .upds = false) (hhaltReq : φ .haltReq = false) :
    Kept φ s0 (State.nmePut s x d off v).1 := by
  unfold State.nmePut
  with_reducible
    repeat'
      first
      | assumption | (intro _) | apply State.sramWr_kept | apply State.nmeWrite_kept | (apply kept_of_eq; assumption)
      | split | dsimp only

theorem gatherWork_kept {φ : Part → Bool} {s0 s : State} (x : NmeCtx) (hk : Kept φ s0 s) (hmem : φ .mem = false)
    (hkeys : φ .keys = false) (hcores : φ .cores = false) (hregs : φ .regs = false) (hout : φ .out = false) (hseqs : φ
    .seqs = false) (hpoison : φ .poison = false) (hchannels : φ .channels = false) (hupds : φ .upds = false) (hhaltReq
    : φ .haltReq = false) :
    Kept φ s0 (gatherWork s x).1 := by
  unfold gatherWork
  with_reducible
    repeat'
      first
      | assumption | (intro _) | apply kept_ite | apply State.nmeRead_kept | apply State.readIdx_kept
      | apply State.nmeRange_kept | apply nmeBad_kept | apply State.nmePut_kept | apply kept_foldl
      | apply kept_ite_fst | apply kept_foldl_fst | (apply kept_of_eq; assumption) | split | dsimp only

theorem gemvWork_kept {φ : Part → Bool} {s0 s : State} (x : NmeCtx) (hk : Kept φ s0 s) (hmem : φ .mem = false) (hkeys
    : φ .keys = false) (hcores : φ .cores = false) (hregs : φ .regs = false) (hout : φ .out = false) (hseqs : φ .seqs
    = false) (hpoison : φ .poison = false) (hchannels : φ .channels = false) (husage : φ .usage = false) (hupds : φ
    .upds = false) (hhaltReq : φ .haltReq = false) :
    Kept φ s0 (gemvWork s x).1 := by
  unfold gemvWork
  with_reducible
    repeat'
      first
      | assumption | (intro _) | apply kept_ite | apply State.nfSeen_kept | apply State.nonFinite_kept
      | apply State.invalidTable_kept | apply State.nmeRead_kept | apply State.nmeRange_kept | apply nmeBad_kept
      | apply State.nmePut_kept | apply kept_ite_fst | (apply kept_of_eq; assumption) | split | dsimp only

theorem State.nmePart_kept {φ : Part → Bool} {s0 s : State} (k : Nat) (hk : Kept φ s0 s) (hregs : φ .regs = false)
    (hchannels : φ .channels = false) :
    Kept φ s0 (State.nmePart s k) := by
  unfold State.nmePart
  with_reducible
    repeat'
      first
      | assumption | (intro _) | apply kept_ite | apply State.csetSub_kept | split | dsimp only | apply kept_mk
      | apply kept_mk_channels

theorem copyWork_kept {φ : Part → Bool} {s0 s : State} (x : NmeCtx) (hk : Kept φ s0 s) (hmem : φ .mem = false) (hkeys
    : φ .keys = false) (hregs : φ .regs = false) (hout : φ .out = false) (hpoison : φ .poison = false) (hchannels : φ
    .channels = false) (hupds : φ .upds = false) (hhaltReq : φ .haltReq = false) :
    Kept φ s0 (copyWork s x).1 := by
  unfold copyWork
  with_reducible
    repeat'
      first
      | assumption | (intro _) | apply kept_ite | apply State.nmeRead_kept | apply nmeBad_kept
      | apply State.nmeWrite_kept | apply State.blockRange_kept | apply blockLoop_kept | apply kept_ite_fst
      | (apply kept_of_eq; assumption) | split | dsimp only

theorem wloadWork_kept {φ : Part → Bool} {s0 s : State} (x : Beat) (hk : Kept φ s0 s) (hcores : φ .cores = false)
    (hregs : φ .regs = false) (hout : φ .out = false) (hseqs : φ .seqs = false) (husage : φ .usage = false) (hupds : φ
    .upds = false) :
    KeptR φ s0 (wloadWork s x) := by
  unfold wloadWork
  with_reducible
    repeat'
      first
      | assumption | (intro _) | apply kept_ite | apply State.nfSeen_kept | apply State.count_kept
      | apply State.nonFinite_kept | apply State.invalidTable_kept | apply State.sched_kept
      | apply State.usePorts_kept | apply okRes_kept | apply State.sramGet_kept | apply keptE_ok | apply keptE_error
      | apply keptE_ite | (apply keptE_get; assumption) | apply keptR_error | apply keptR_ite | apply keptR_ok'
      | (apply keptR_get; assumption) | apply kept_ite_fst | (apply kept_of_eq; assumption) | split | dsimp only
      | apply kept_mk | apply kept_mk_cores

theorem mmaBeat_kept {φ : Part → Bool} {s0 s : State} (x : Beat) (f : Fmt) (hk : Kept φ s0 s) (hcores : φ .cores =
    false) (hregs : φ .regs = false) (hout : φ .out = false) (hseqs : φ .seqs = false) (husage : φ .usage = false)
    (hupds : φ .upds = false) :
    KeptR φ s0 (mmaBeat s x f) := by
  unfold mmaBeat
  with_reducible
    repeat'
      first
      | assumption | (intro _) | apply kept_ite | apply State.nfSeen_kept | apply State.count_kept
      | apply State.nonFinite_kept | apply State.invalidTable_kept | apply State.sched_kept
      | apply State.usePorts_kept | apply okRes_kept | apply State.accRow_kept | apply State.sramGet_kept
      | apply keptE_ok | apply keptE_error | apply keptE_ite | (apply keptE_get; assumption) | apply keptR_error
      | apply keptR_ite | apply keptR_ok' | (apply keptR_get; assumption) | apply kept_foldl | apply kept_ite_fst
      | apply kept_foldl_fst | (apply kept_of_eq; assumption) | split | dsimp only

theorem moutWork_kept {φ : Part → Bool} {s0 s : State} (x : Beat) (hk : Kept φ s0 s) (hcores : φ .cores = false)
    (hregs : φ .regs = false) (hout : φ .out = false) (hseqs : φ .seqs = false) (husage : φ .usage = false) (hupds : φ
    .upds = false) :
    KeptR φ s0 (moutWork s x) := by
  unfold moutWork
  with_reducible
    repeat'
      first
      | assumption | (intro _) | apply kept_ite | apply State.sched_kept | apply State.usePorts_kept
      | apply okRes_kept | apply State.accRow_kept | apply keptE_ok | apply keptE_error | apply keptE_ite
      | (apply keptE_get; assumption) | apply keptR_error | apply keptR_ite | apply keptR_ok'
      | (apply keptR_get; assumption) | apply kept_ite_fst | (apply kept_of_eq; assumption) | split | dsimp only

theorem mmaFirst_kept {φ : Part → Bool} {s0 s : State} (x : Beat) (f : Fmt) (hk : Kept φ s0 s) (hcores : φ .cores =
    false) :
    KeptE φ s0 (mmaFirst s x f) := by
  unfold mmaFirst
  with_reducible
    repeat'
      first
      | assumption | (intro _) | apply kept_ite | apply keptE_ok | apply keptE_error | apply keptE_ite
      | (apply keptE_get; assumption) | split | dsimp only | apply kept_mk | apply kept_mk_cores

theorem mmaWork_kept {φ : Part → Bool} {s0 s : State} (x : Beat) (hk : Kept φ s0 s) (hcores : φ .cores = false) (hregs
    : φ .regs = false) (hout : φ .out = false) (hseqs : φ .seqs = false) (husage : φ .usage = false) (hupds : φ .upds
    = false) :
    KeptR φ s0 (mmaWork s x) := by
  unfold mmaWork
  with_reducible
    repeat'
      first
      | assumption | (intro _) | apply kept_ite | apply mmaBeat_kept | apply mmaFirst_kept | apply keptE_ok
      | apply keptE_error | apply keptE_ite | (apply keptE_get; assumption) | apply keptR_error | apply keptR_ite
      | apply keptR_ok' | (apply keptR_get; assumption) | apply kept_ite_fst | (apply kept_of_eq; assumption) | split
      | dsimp only

theorem State.meNop_kept {φ : Part → Bool} {s0 s : State} (p : Nat) (core : Nat) (e : Nat) (err : UnitErr) (hk : Kept
    φ s0 s) (hcores : φ .cores = false) (hregs : φ .regs = false) (hout : φ .out = false) (hseqs : φ .seqs = false)
    (husage : φ .usage = false) (hqueues : φ .queues = false) (hfrozen : φ .frozen = false) :
    Kept φ s0 (State.meNop s p core e err) := by
  unfold State.meNop
  with_reducible
    repeat'
      first
      | assumption | (intro _) | apply okRes_kept | apply State.unitBeat_kept | apply keptR_error | apply keptR_ite
      | apply keptR_ok' | (apply keptR_get; assumption) | (apply kept_of_eq; assumption) | dsimp only

theorem burstWork_kept {φ : Part → Bool} {s0 s : State} (put : Bool) (x : Beat) (hk : Kept φ s0 s) (hregs : φ .regs =
    false) (hseqs : φ .seqs = false) :
    KeptR φ s0 (burstWork put s x) := by
  unfold burstWork
  with_reducible
    repeat'
      first
      | assumption | (intro _) | apply kept_ite | apply State.setSq_kept | apply State.csetAdd_kept | apply okRes_kept
      | (apply keptO_get; assumption) | apply kept_getD | apply keptO_ite | apply keptO_none | apply keptO_some
      | apply keptR_error | apply keptR_ite | apply keptR_ok' | (apply keptR_get; assumption) | apply kept_ite_fst
      | (apply kept_of_eq; assumption) | split | dsimp only | apply kept_mk

theorem State.ringEod_kept {φ : Part → Bool} {s0 s : State} (p : Nat) (i : Nat) (hk : Kept φ s0 s) (hregs : φ .regs =
    false) :
    Kept φ s0 (State.ringEod s p i) := by
  unfold State.ringEod
  with_reducible
    repeat'
      first
      | assumption | (intro _) | apply State.fput_kept | dsimp only

theorem State.advCons_kept {φ : Part → Bool} {s0 s : State} (p : Nat) (i : Nat) (n : Nat) (hk : Kept φ s0 s) (hregs :
    φ .regs = false) (hringAdv : φ .ringAdv = false) :
    Kept φ s0 (State.advCons s p i n) := by
  unfold State.advCons
  with_reducible
    repeat'
      first
      | assumption | (intro _) | apply kept_ite | apply State.wn_kept | apply State.setAhead_kept | split | dsimp only

theorem State.checkRuns_kept {φ : Part → Bool} {s0 s : State} (p : Nat) (m : Master) (base : Nat) (l : List (Nat ×
    Nat)) (hk : Kept φ s0 s) (hregs : φ .regs = false) (hout : φ .out = false) (hupds : φ .upds = false) :
    Kept φ s0 (State.checkRuns s p m base l).1 := by
  unfold State.checkRuns
  with_reducible
    repeat'
      first
      | assumption | (intro _) | apply kept_ite | apply State.checkRun_kept | apply kept_foldl | apply kept_ite_fst
      | apply kept_foldl_fst | (apply kept_of_eq; assumption) | split | dsimp only

theorem State.ringRead_kept {φ : Part → Bool} {s0 s : State} (errs : List ReadErr) (p : Nat) (i : Nat) (b : Burst) (f
    : Nat) (bad : SramErrs) (hk : Kept φ s0 s) (hkeys : φ .keys = false) (hcores : φ .cores = false) (hregs : φ .regs
    = false) (hout : φ .out = false) (hpoison : φ .poison = false) (hchannels : φ .channels = false) (husage : φ
    .usage = false) (hupds : φ .upds = false) (hhaltReq : φ .haltReq = false) :
    Kept φ s0 (State.ringRead s errs p i b f bad).1 := by
  unfold State.ringRead
  with_reducible
    repeat'
      first
      | assumption | (intro _) | apply kept_ite | apply State.readRun_kept | apply State.sramGet_kept
      | apply State.checkRuns_kept | apply kept_foldl | apply kept_ite_fst | apply kept_foldl_fst
      | (apply kept_of_eq; assumption) | split | dsimp only

theorem State.endBurst_kept {φ : Part → Bool} {s0 s : State} (p : Nat) (b : Burst) (hk : Kept φ s0 s) (hregs : φ .regs
    = false) (hseqs : φ .seqs = false) :
    Kept φ s0 (State.endBurst s p b) := by
  unfold State.endBurst
  with_reducible
    repeat'
      first
      | assumption | (intro _) | apply State.setSq_kept | apply State.csetSub_kept | dsimp only

theorem State.rgetMove_kept {φ : Part → Bool} {s0 s : State} (p : Nat) (core : Nat) (ring : Nat) (errs : List ReadErr)
    (bad : SramErrs) (hk : Kept φ s0 s) (hkeys : φ .keys = false) (hcores : φ .cores = false) (hregs : φ .regs =
    false) (hout : φ .out = false) (hseqs : φ .seqs = false) (hpoison : φ .poison = false) (hchannels : φ .channels =
    false) (husage : φ .usage = false) (hupds : φ .upds = false) (hringAdv : φ .ringAdv = false) (hqueues : φ .queues
    = false) (hhaltReq : φ .haltReq = false) (hfrozen : φ .frozen = false) :
    Kept φ s0 (State.rgetMove s p core ring errs bad) := by
  unfold State.rgetMove
  with_reducible
    repeat'
      first
      | assumption | (intro _) | apply kept_ite | apply State.fput_kept | apply State.sepiaRec_kept
      | apply State.seqFault_kept | apply State.count_kept | apply State.issuedAs_kept | apply State.sramWr_kept
      | apply State.advCons_kept | apply State.ringRead_kept | apply State.endBurst_kept | apply kept_ite_fst
      | (apply kept_of_eq; assumption) | split | dsimp only

theorem State.ringErrCfg_kept {φ : Part → Bool} {s0 s : State} (p : Nat) (i : Nat) (hk : Kept φ s0 s) (hregs : φ .regs
    = false) :
    Kept φ s0 (State.ringErrCfg s p i) := by
  unfold State.ringErrCfg
  with_reducible
    repeat'
      first
      | assumption | (intro _) | apply State.setBits_kept | dsimp only

theorem State.ringReset_kept {φ : Part → Bool} {s0 s : State} (p : Nat) (i : Nat) (hk : Kept φ s0 s) (hregs : φ .regs
    = false) (hringAdv : φ .ringAdv = false) :
    Kept φ s0 (State.ringReset s p i) := by
  unfold State.ringReset
  with_reducible
    repeat'
      first
      | assumption | (intro _) | apply kept_ite | apply State.wn_kept | apply State.setAhead_kept
      | apply State.ringErrCfg_kept | split | dsimp only

theorem State.advProd_kept {φ : Part → Bool} {s0 s : State} (p : Nat) (i : Nat) (n : Nat) (hk : Kept φ s0 s) (hregs :
    φ .regs = false) (hringAdv : φ .ringAdv = false) :
    Kept φ s0 (State.advProd s p i n) := by
  unfold State.advProd
  with_reducible
    repeat'
      first
      | assumption | (intro _) | apply kept_ite | apply State.wn_kept | apply State.setAhead_kept | split | dsimp only

theorem State.rputMove_kept {φ : Part → Bool} {s0 s : State} (p : Nat) (core : Nat) (ring : Nat) (errs : List ReadErr)
    (bad : SramErrs) (hk : Kept φ s0 s) (hmem : φ .mem = false) (hkeys : φ .keys = false) (hcores : φ .cores = false)
    (hregs : φ .regs = false) (hout : φ .out = false) (hseqs : φ .seqs = false) (hpoison : φ .poison = false)
    (hchannels : φ .channels = false) (husage : φ .usage = false) (hupds : φ .upds = false) (hringAdv : φ .ringAdv =
    false) (hqueues : φ .queues = false) (hhaltReq : φ .haltReq = false) (hfrozen : φ .frozen = false) :
    Kept φ s0 (State.rputMove s p core ring errs bad) := by
  unfold State.rputMove
  with_reducible
    repeat'
      first
      | assumption | (intro _) | apply kept_ite | apply State.seqFault_kept | apply State.count_kept
      | apply State.issuedAs_kept | apply State.sramWr_kept | apply State.writeRun_kept | apply State.sramGet_kept
      | apply State.checkRuns_kept | apply State.endBurst_kept | apply State.advProd_kept | apply kept_foldl
      | apply kept_ite_fst | apply kept_foldl_fst | (apply kept_of_eq; assumption) | split | dsimp only

theorem State.ringCfgW_kept {φ : Part → Bool} {s0 s : State} (p : Nat) (i : Nat) (which : Nat) (v : Word) (hk : Kept φ
    s0 s) (hregs : φ .regs = false) (hout : φ .out = false) :
    Kept φ s0 (State.ringCfgW s p i which v) := by
  unfold State.ringCfgW
  with_reducible
    repeat'
      first
      | assumption | (intro _) | apply kept_ite | apply State.regWrite_kept | apply State.ringErrCfg_kept | split
      | dsimp only

theorem State.meshSend_kept {φ : Part → Bool} {s0 s : State} (x : Beat) (kind : Nat) (src : Nat) (dst : Nat) (addr :
    Nat) (v : List Byte) (add : Bool) (hk : Kept φ s0 s) (hseqs : φ .seqs = false) (husage : φ .usage = false) :
    Kept φ s0 (State.meshSend s x kind src dst addr v add) := by
  unfold State.meshSend
  with_reducible
    repeat'
      first
      | assumption | (intro _) | apply kept_ite | apply State.setSq_kept | apply State.count_kept | split | dsimp only

theorem rbgetWork_kept {φ : Part → Bool} {s0 s : State} (x : Beat) (hk : Kept φ s0 s) (hcores : φ .cores = false)
    (hregs : φ .regs = false) (hout : φ .out = false) (hseqs : φ .seqs = false) (husage : φ .usage = false) (hupds : φ
    .upds = false) :
    KeptR φ s0 (rbgetWork s x) := by
  unfold rbgetWork
  with_reducible
    repeat'
      first
      | assumption | (intro _) | apply okRes_kept | apply State.sramGet_kept | apply State.meshSend_kept
      | apply keptR_error | apply keptR_ite | apply keptR_ok' | (apply keptR_get; assumption)
      | (apply kept_of_eq; assumption) | split | dsimp only

theorem scopyWork_kept {φ : Part → Bool} {s0 s : State} (x : Beat) (hk : Kept φ s0 s) (hcores : φ .cores = false)
    (hregs : φ .regs = false) (hout : φ .out = false) (hseqs : φ .seqs = false) (husage : φ .usage = false) (hupds : φ
    .upds = false) :
    KeptR φ s0 (scopyWork s x) := by
  unfold scopyWork
  with_reducible
    repeat'
      first
      | assumption | (intro _) | apply kept_ite | apply okRes_kept | apply State.portGet_kept
      | apply State.meshSend_kept | apply keptR_error | apply keptR_ite | apply keptR_ok'
      | (apply keptR_get; assumption) | apply kept_ite_fst | (apply kept_of_eq; assumption) | split | dsimp only

theorem State.ringProdW_kept {φ : Part → Bool} {s0 s : State} (p : Nat) (i : Nat) (v : Nat) (hk : Kept φ s0 s) (hregs
    : φ .regs = false) :
    Kept φ s0 (State.ringProdW s p i v) := by
  unfold State.ringProdW
  with_reducible
    repeat'
      first
      | assumption | (intro _) | apply kept_ite | apply State.setBits_kept | apply State.wn_kept | split | dsimp only

theorem State.ringConsW_kept {φ : Part → Bool} {s0 s : State} (p : Nat) (i : Nat) (v : Nat) (hk : Kept φ s0 s) (hregs
    : φ .regs = false) :
    Kept φ s0 (State.ringConsW s p i v) := by
  unfold State.ringConsW
  with_reducible
    repeat'
      first
      | assumption | (intro _) | apply kept_ite | apply State.setBits_kept | apply State.wn_kept | split | dsimp only

theorem rbputWork_kept {φ : Part → Bool} {s0 s : State} (x : Beat) (hk : Kept φ s0 s) (hcores : φ .cores = false)
    (hregs : φ .regs = false) (hout : φ .out = false) (hseqs : φ .seqs = false) (husage : φ .usage = false) (hupds : φ
    .upds = false) :
    KeptR φ s0 (rbputWork s x) := by
  unfold rbputWork
  with_reducible
    repeat'
      first
      | assumption | (intro _) | apply okRes_kept | apply State.portGet_kept | apply State.meshSend_kept
      | apply keptR_error | apply keptR_ite | apply keptR_ok' | (apply keptR_get; assumption)
      | (apply kept_of_eq; assumption) | split | dsimp only

theorem State.setSptr_kept {φ : Part → Bool} {s0 s : State} (phys : Nat) (sel : Nat) (v : Nat) (hk : Kept φ s0 s)
    (hcores : φ .cores = false) :
    Kept φ s0 (State.setSptr s phys sel v) := by
  unfold State.setSptr
  with_reducible
    repeat'
      first
      | assumption | (intro _) | dsimp only | apply kept_mk | apply kept_mk_cores

theorem vsptrWork_kept {φ : Part → Bool} {s0 s : State} (x : Beat) (hk : Kept φ s0 s) (hcores : φ .cores = false)
    (husage : φ .usage = false) :
    KeptR φ s0 (vsptrWork s x) := by
  unfold vsptrWork
  with_reducible
    repeat'
      first
      | assumption | (intro _) | apply kept_ite | apply State.count_kept | apply okRes_kept | apply State.setSptr_kept
      | apply keptR_error | apply keptR_ite | apply keptR_ok' | (apply keptR_get; assumption) | apply kept_ite_fst
      | (apply kept_of_eq; assumption) | split | dsimp only

theorem vstWork_kept {φ : Part → Bool} {s0 s : State} (x : Beat) (hk : Kept φ s0 s) (hcores : φ .cores = false) (hregs
    : φ .regs = false) (hout : φ .out = false) (hseqs : φ .seqs = false) (husage : φ .usage = false) (hupds : φ .upds
    = false) :
    KeptR φ s0 (vstWork s x) := by
  unfold vstWork
  with_reducible
    repeat'
      first
      | assumption | (intro _) | apply kept_ite | apply State.bump_kept | apply State.count_kept
      | apply State.nonFinite_kept | apply State.invalidTable_kept | apply State.sched_kept
      | apply State.usePorts_kept | apply okRes_kept | apply State.vreg_kept | apply State.setSptr_kept
      | apply keptE_ok | apply keptE_error | apply keptE_ite | (apply keptE_get; assumption) | apply keptR_error
      | apply keptR_ite | apply keptR_ok' | (apply keptR_get; assumption) | apply kept_ite_fst
      | (apply kept_of_eq; assumption) | split | dsimp only

theorem State.vput_kept {φ : Part → Bool} {s0 s : State} (x : Beat) (r : Nat) (late : Nat) (v : List Nat) (hk : Kept φ
    s0 s) (hseqs : φ .seqs = false) :
    Kept φ s0 (State.vput s x r late v) := by
  unfold State.vput
  with_reducible
    repeat'
      first
      | assumption | (intro _) | apply State.sched_kept | dsimp only

theorem laneWork_kept {φ : Part → Bool} {s0 s : State} (rate : Nat) (late : Nat) (nb : Nat) (f : Nat → Nat → Nat →
    Nat) (x : Beat) (hk : Kept φ s0 s) (hcores : φ .cores = false) (hregs : φ .regs = false) (hout : φ .out = false)
    (hseqs : φ .seqs = false) (husage : φ .usage = false) (hupds : φ .upds = false) :
    KeptR φ s0 (laneWork rate late nb f s x) := by
  unfold laneWork
  with_reducible
    repeat'
      first
      | assumption | (intro _) | apply kept_ite | apply State.nfSeen_kept | apply State.count_kept
      | apply State.nonFinite_kept | apply okRes_kept | apply State.vreg_kept | apply State.vput_kept
      | apply keptR_error | apply keptR_ite | apply keptR_ok' | (apply keptR_get; assumption) | apply kept_foldl
      | apply kept_ite_fst | apply kept_foldl_fst | (apply kept_of_eq; assumption) | split | dsimp only

theorem State.vtr_kept {φ : Part → Bool} {s0 s : State} (p : Nat) (core : Nat) (err : UnitErr) (fn : Nat) (f : Nat →
    Nat) (hk : Kept φ s0 s) (hcores : φ .cores = false) (hregs : φ .regs = false) (hout : φ .out = false) (hseqs : φ
    .seqs = false) (husage : φ .usage = false) (hupds : φ .upds = false) (hqueues : φ .queues = false) (hfrozen : φ
    .frozen = false) :
    Kept φ s0 (State.vtr s p core err fn f) := by
  unfold State.vtr
  with_reducible
    repeat'
      first
      | assumption | (intro _) | apply State.unitBeat_kept | apply laneWork_kept | apply keptR_error | apply keptR_ite
      | apply keptR_ok' | (apply keptR_get; assumption) | (apply kept_of_eq; assumption) | dsimp only

theorem vredWork_kept {φ : Part → Bool} {s0 s : State} (op : Nat → Nat → Nat) (pre : Nat → Nat) (x : Beat) (hk : Kept
    φ s0 s) (hcores : φ .cores = false) (hregs : φ .regs = false) (hout : φ .out = false) (hseqs : φ .seqs = false)
    (husage : φ .usage = false) (hupds : φ .upds = false) :
    KeptR φ s0 (vredWork op pre s x) := by
  unfold vredWork
  with_reducible
    repeat'
      first
      | assumption | (intro _) | apply kept_ite | apply State.nfSeen_kept | apply State.count_kept
      | apply State.nonFinite_kept | apply okRes_kept | apply State.vreg_kept | apply State.vput_kept
      | apply keptR_error | apply keptR_ite | apply keptR_ok' | (apply keptR_get; assumption) | apply kept_foldl
      | apply kept_ite_fst | apply kept_foldl_fst | (apply kept_of_eq; assumption) | split | dsimp only

theorem State.vred_kept {φ : Part → Bool} {s0 s : State} (p : Nat) (core : Nat) (err : UnitErr) (fn : Nat) (op : Nat →
    Nat → Nat) (pre : Nat → Nat) (hk : Kept φ s0 s) (hcores : φ .cores = false) (hregs : φ .regs = false) (hout : φ
    .out = false) (hseqs : φ .seqs = false) (husage : φ .usage = false) (hupds : φ .upds = false) (hqueues : φ .queues
    = false) (hfrozen : φ .frozen = false) :
    Kept φ s0 (State.vred s p core err fn op pre) := by
  unfold State.vred
  with_reducible
    repeat'
      first
      | assumption | (intro _) | apply State.unitBeat_kept | apply vredWork_kept | apply keptR_error | apply keptR_ite
      | apply keptR_ok' | (apply keptR_get; assumption) | (apply kept_of_eq; assumption) | dsimp only

theorem vrndWork_kept {φ : Part → Bool} {s0 s : State} (x : Beat) (hk : Kept φ s0 s) (hseqs : φ .seqs = false) (husage
    : φ .usage = false) :
    KeptR φ s0 (vrndWork s x) := by
  unfold vrndWork
  with_reducible
    repeat'
      first
      | assumption | (intro _) | apply kept_ite | apply State.count_kept | apply okRes_kept | apply State.vput_kept
      | apply keptR_error | apply keptR_ite | apply keptR_ok' | (apply keptR_get; assumption) | apply kept_ite_fst
      | (apply kept_of_eq; assumption) | split | dsimp only

theorem State.valu_kept {φ : Part → Bool} {s0 s : State} (p : Nat) (core : Nat) (err : UnitErr) (fn : Nat) (rate :
    Nat) (late : Nat) (nb : Nat) (f : Nat → Nat → Nat → Nat) (hk : Kept φ s0 s) (hcores : φ .cores = false) (hregs : φ
    .regs = false) (hout : φ .out = false) (hseqs : φ .seqs = false) (husage : φ .usage = false) (hupds : φ .upds =
    false) (hqueues : φ .queues = false) (hfrozen : φ .frozen = false) :
    Kept φ s0 (State.valu s p core err fn rate late nb f) := by
  unfold State.valu
  with_reducible
    repeat'
      first
      | assumption | (intro _) | apply State.unitBeat_kept | apply laneWork_kept | apply keptR_error | apply keptR_ite
      | apply keptR_ok' | (apply keptR_get; assumption) | (apply kept_of_eq; assumption) | dsimp only

theorem vldWork_kept {φ : Part → Bool} {s0 s : State} (x : Beat) (hk : Kept φ s0 s) (hcores : φ .cores = false) (hregs
    : φ .regs = false) (hout : φ .out = false) (hseqs : φ .seqs = false) (husage : φ .usage = false) (hupds : φ .upds
    = false) :
    KeptR φ s0 (vldWork s x) := by
  unfold vldWork
  with_reducible
    repeat'
      first
      | assumption | (intro _) | apply kept_ite | apply State.count_kept | apply State.nonFinite_kept
      | apply State.invalidTable_kept | apply okRes_kept | apply State.portGet_kept | apply State.setSptr_kept
      | apply State.vput_kept | apply keptR_error | apply keptR_ite | apply keptR_ok' | (apply keptR_get; assumption)
      | apply kept_ite_fst | (apply kept_of_eq; assumption) | split | dsimp only

theorem State.lossScale_kept {φ : Part → Bool} {s0 s : State} (p : Nat) (committed : Bool) (hk : Kept φ s0 s) (hregs :
    φ .regs = false) :
    Kept φ s0 (State.lossScale s p committed) := by
  unfold State.lossScale
  with_reducible
    repeat'
      first
      | assumption | (intro _) | apply kept_ite | apply State.setBits_kept | apply State.fput_kept | split
      | dsimp only

theorem State.updErr_kept {φ : Part → Bool} {s0 s : State} (p : Nat) (code : Nat) (stack : Nat) (tid : Nat) (hk : Kept
    φ s0 s) (hregs : φ .regs = false) (hout : φ .out = false) (hupds : φ .upds = false) :
    Kept φ s0 (State.updErr s p code stack tid) := by
  unfold State.updErr
  with_reducible
    repeat'
      first
      | assumption | (intro _) | apply kept_ite | apply State.wr_kept | apply State.setBits_kept | apply State.wn_kept
      | apply State.setUp_kept | apply State.irqUpd_kept | split | dsimp only

theorem State.dropStream_kept {φ : Part → Bool} {s0 s : State} (p : Nat) (st : UpdStream) (hk : Kept φ s0 s) (hregs :
    φ .regs = false) (hupds : φ .upds = false) :
    Kept φ s0 (State.dropStream s p st) := by
  unfold State.dropStream
  with_reducible
    repeat'
      first
      | assumption | (intro _) | apply State.setUp_kept | apply State.csetSub_kept | dsimp only

theorem State.sramX_kept {φ : Part → Bool} {s0 s : State} (p : Nat) (bad : SramErrs) (phys : Nat) (b : Nat) (len :
    Nat) (hk : Kept φ s0 s) (hcores : φ .cores = false) (hregs : φ .regs = false) (hout : φ .out = false) (husage : φ
    .usage = false) (hupds : φ .upds = false) :
    Kept φ s0 (State.sramX s p bad phys b len).1 := by
  unfold State.sramX
  with_reducible
    repeat'
      first
      | assumption | (intro _) | apply State.sramGet_kept | (apply kept_of_eq; assumption) | dsimp only

theorem State.normInRd_kept {φ : Part → Bool} {s0 s : State} (p : Nat) (bad : SramErrs) (hk : Kept φ s0 s) (hcores : φ
    .cores = false) (hregs : φ .regs = false) (hout : φ .out = false) (husage : φ .usage = false) (hupds : φ .upds =
    false) :
    Kept φ s0 (State.normInRd s p bad) := by
  unfold State.normInRd
  with_reducible
    repeat'
      first
      | assumption | (intro _) | apply kept_ite | apply State.setUp_kept | apply State.updErr_kept
      | apply State.dropStream_kept | apply State.sramX_kept | apply kept_ite_fst | (apply kept_of_eq; assumption)
      | split | dsimp only

theorem State.normFormed_kept {φ : Part → Bool} {s0 s : State} (p : Nat) (id : Nat) (t : Nat) (tid : Nat) (hk : Kept φ
    s0 s) (hregs : φ .regs = false) (hseqs : φ .seqs = false) (husage : φ .usage = false) (hupds : φ .upds = false) :
    Kept φ s0 (State.normFormed s p id t tid) := by
  unfold State.normFormed
  with_reducible
    repeat'
      first
      | assumption | (intro _) | apply kept_ite | apply State.wn_kept | apply State.setUp_kept
      | apply State.nonFinite_kept | apply kept_ite_fst | (apply kept_of_eq; assumption) | split | dsimp only

theorem State.updRead_kept {φ : Part → Bool} {s0 s : State} (errs : List ReadErr) (p : Nat) (a : Nat) (len : Nat) (hk
    : Kept φ s0 s) (hkeys : φ .keys = false) (hregs : φ .regs = false) (hout : φ .out = false) (hpoison : φ .poison =
    false) (hchannels : φ .channels = false) (hupds : φ .upds = false) (hhaltReq : φ .haltReq = false) :
    Kept φ s0 (State.updRead s errs p a len).1 := by
  unfold State.updRead
  with_reducible
    repeat'
      first
      | assumption | (intro _) | apply kept_ite | apply State.readPiece_kept | apply kept_foldl | apply kept_ite_fst
      | apply kept_foldl_fst | (apply kept_of_eq; assumption) | split | dsimp only

theorem State.updPart_kept {φ : Part → Bool} {s0 s : State} (errs : List ReadErr) (p : Nat) (d : List Byte) (x :
    UpdPart) (f : Fmt) (gs : List Nat) (coef : Nat) (hk : Kept φ s0 s) (hmem : φ .mem = false) (hkeys : φ .keys =
    false) (hregs : φ .regs = false) (hout : φ .out = false) (hseqs : φ .seqs = false) (hpoison : φ .poison = false)
    (hchannels : φ .channels = false) (husage : φ .usage = false) (hupds : φ .upds = false) (hhaltReq : φ .haltReq =
    false) :
    Kept φ s0 (State.updPart s errs p d x f gs coef).1 := by
  unfold State.updPart
  with_reducible
    repeat'
      first
      | assumption | (intro _) | apply kept_ite | apply State.bump_kept | apply State.nfSeen_kept
      | apply State.nonFinite_kept | apply State.invalidTable_kept | apply State.writeRun_kept
      | apply State.updRead_kept | apply kept_foldl | apply kept_ite_fst | apply kept_foldl_fst
      | (apply kept_of_eq; assumption) | split | dsimp only

theorem State.gradRb_kept {φ : Part → Bool} {s0 s : State} (p : Nat) (bad : SramErrs) (grb : Nat) (e : Nat) (n : Nat)
    (hk : Kept φ s0 s) (hcores : φ .cores = false) (hregs : φ .regs = false) (hout : φ .out = false) (husage : φ
    .usage = false) (hupds : φ .upds = false) :
    Kept φ s0 (State.gradRb s p bad grb e n).1 := by
  unfold State.gradRb
  with_reducible
    repeat'
      first
      | assumption | (intro _) | apply State.sramX_kept | apply kept_foldl | apply kept_foldl_fst
      | (apply kept_of_eq; assumption) | split | dsimp only

theorem State.updRefused_kept {φ : Part → Bool} {s0 s : State} (p : Nat) (d : List Byte) (x : UpdPart) (f : Fmt) (hk :
    Kept φ s0 s) (hregs : φ .regs = false) (hout : φ .out = false) (hupds : φ .upds = false) :
    Kept φ s0 (State.updRefused s p d x f).1 := by
  unfold State.updRefused
  with_reducible
    repeat'
      first
      | assumption | (intro _) | apply kept_ite | apply State.checkRun_kept | apply kept_foldl | apply kept_ite_fst
      | apply kept_foldl_fst | (apply kept_of_eq; assumption) | split | dsimp only

theorem State.tensorRun_kept {φ : Part → Bool} {s0 s : State} (errs : List ReadErr) (bad : SramErrs) (p : Nat) (st :
    UpdStream) (f : Fmt) (hk : Kept φ s0 s) (hmem : φ .mem = false) (hkeys : φ .keys = false) (hcores : φ .cores =
    false) (hregs : φ .regs = false) (hout : φ .out = false) (hseqs : φ .seqs = false) (hpoison : φ .poison = false)
    (hchannels : φ .channels = false) (husage : φ .usage = false) (hupds : φ .upds = false) (hhaltReq : φ .haltReq =
    false) :
    Kept φ s0 (State.tensorRun s errs bad p st f) := by
  unfold State.tensorRun
  with_reducible
    repeat'
      first
      | assumption | (intro _) | apply kept_ite | apply State.sepiaRec_kept | apply State.nfSeen_kept
      | apply State.count_kept | apply State.setUp_kept | apply State.nonFinite_kept | apply State.raiseNf_kept
      | apply State.ifcSend_kept | apply State.writeRun_kept | apply State.updErr_kept | apply State.normFormed_kept
      | apply State.updRead_kept | apply State.updPart_kept | apply State.gradRb_kept | apply State.updRefused_kept
      | apply kept_foldl | apply kept_ite_fst | apply kept_foldl_fst | (apply kept_of_eq; assumption) | split
      | dsimp only

theorem State.updTensor_kept {φ : Part → Bool} {s0 s : State} (p : Nat) (n : Nat) (errs : List ReadErr) (bad :
    SramErrs) (hk : Kept φ s0 s) (hmem : φ .mem = false) (hkeys : φ .keys = false) (hcores : φ .cores = false) (hregs
    : φ .regs = false) (hout : φ .out = false) (hseqs : φ .seqs = false) (hpoison : φ .poison = false) (hchannels : φ
    .channels = false) (husage : φ .usage = false) (hupds : φ .upds = false) (hhaltReq : φ .haltReq = false) :
    Kept φ s0 (State.updTensor s p n errs bad) := by
  unfold State.updTensor
  with_reducible
    repeat'
      first
      | assumption | (intro _) | apply kept_ite | apply State.issuedAs_kept | apply State.tensorRun_kept | split
      | dsimp only

theorem State.latchScalars_kept {φ : Part → Bool} {s0 s : State} (p : Nat) (hk : Kept φ s0 s) (hupds : φ .upds =
    false) :
    Kept φ s0 (State.latchScalars s p) := by
  unfold State.latchScalars
  with_reducible
    repeat'
      first
      | assumption | (intro _) | apply State.setUp_kept | dsimp only

theorem State.nrecPut_kept {φ : Part → Bool} {s0 s : State} (p : Nat) (d : List Byte) (rank : Nat) (v : List Byte) (hk
    : Kept φ s0 s) (hcores : φ .cores = false) (hseqs : φ .seqs = false) :
    Kept φ s0 (State.nrecPut s p d rank v) := by
  unfold State.nrecPut
  with_reducible
    repeat'
      first
      | assumption | (intro _) | apply State.sramWr_kept | dsimp only

theorem State.updStatus_kept {φ : Part → Bool} {s0 s : State} (p : Nat) (d : List Byte) (rank : Nat) (code : Nat)
    (elems : Nat) (hk : Kept φ s0 s) (hcores : φ .cores = false) (hseqs : φ .seqs = false) :
    Kept φ s0 (State.updStatus s p d rank code elems) := by
  unfold State.updStatus
  with_reducible
    repeat'
      first
      | assumption | (intro _) | apply kept_ite | apply State.nrecPut_kept | split | dsimp only

theorem State.updIssue_kept {φ : Part → Bool} {s0 s : State} (p : Nat) (cset : Nat) (a : Nat) (errs : List ReadErr)
    (hk : Kept φ s0 s) (hkeys : φ .keys = false) (hcores : φ .cores = false) (hregs : φ .regs = false) (hout : φ .out
    = false) (hseqs : φ .seqs = false) (hpoison : φ .poison = false) (hchannels : φ .channels = false) (husage : φ
    .usage = false) (hupds : φ .upds = false) (hhaltReq : φ .haltReq = false) :
    KeptO φ s0 (State.updIssue s p cset a errs) := by
  unfold State.updIssue
  with_reducible
    repeat'
      first
      | assumption | (intro _) | apply kept_ite | apply State.setUp_kept | apply State.raiseNf_kept
      | apply State.csetAdd_kept | apply State.readRun_kept | apply State.checkRun_kept | apply State.updErr_kept
      | apply State.updStatus_kept | (apply keptO_get; assumption) | apply kept_getD | apply keptO_ite
      | apply keptO_none | apply keptO_some | apply kept_foldl | apply kept_ite_fst | apply kept_foldl_fst
      | (apply kept_of_eq; assumption) | split | dsimp only | apply kept_mk

theorem State.updPartDone_kept {φ : Part → Bool} {s0 s : State} (p : Nat) (k : Nat) (hk : Kept φ s0 s) (hcores : φ
    .cores = false) (hregs : φ .regs = false) (hseqs : φ .seqs = false) (husage : φ .usage = false) (hupds : φ .upds =
    false) :
    Kept φ s0 (State.updPartDone s p k) := by
  unfold State.updPartDone
  with_reducible
    repeat'
      first
      | assumption | (intro _) | apply kept_ite | apply State.sepiaRec_kept | apply State.setUp_kept
      | apply State.csetSub_kept | apply State.updStatus_kept | split | dsimp only

theorem State.writeState_kept {φ : Part → Bool} {s0 s : State} (p : Nat) (dec : Nat) (g : Nat) (hk : Kept φ s0 s)
    (hmem : φ .mem = false) (hkeys : φ .keys = false) (hregs : φ .regs = false) (hout : φ .out = false) (hpoison : φ
    .poison = false) (hchannels : φ .channels = false) (hupds : φ .upds = false) (hhaltReq : φ .haltReq = false) :
    Kept φ s0 (State.writeState s p dec g) := by
  unfold State.writeState
  with_reducible
    repeat'
      first
      | assumption | (intro _) | apply kept_ite | apply State.writeRun_kept | apply State.checkRun_kept
      | apply State.updErr_kept | apply kept_ite_fst | (apply kept_of_eq; assumption) | split | dsimp only

theorem State.normOut_kept {φ : Part → Bool} {s0 s : State} (p : Nat) (hk : Kept φ s0 s) (hcores : φ .cores = false)
    (hregs : φ .regs = false) (hseqs : φ .seqs = false) (hupds : φ .upds = false) :
    Kept φ s0 (State.normOut s p) := by
  unfold State.normOut
  with_reducible
    repeat'
      first
      | assumption | (intro _) | apply kept_ite | apply State.setUp_kept | apply State.dropStream_kept
      | apply State.nrecPut_kept | split | dsimp only

theorem State.stepStart_kept {φ : Part → Bool} {s0 s : State} (p : Nat) (hk : Kept φ s0 s) (hregs : φ .regs = false)
    (hseqs : φ .seqs = false) (husage : φ .usage = false) (hupds : φ .upds = false) :
    Kept φ s0 (State.stepStart s p) := by
  unfold State.stepStart
  with_reducible
    repeat'
      first
      | assumption | (intro _) | apply State.wn_kept | apply State.setUp_kept | apply State.nonFinite_kept
      | apply State.latchScalars_kept | dsimp only

theorem State.updReject_kept {φ : Part → Bool} {s0 s : State} (p : Nat) (hk : Kept φ s0 s) (hregs : φ .regs = false) :
    Kept φ s0 (State.updReject s p) := by
  unfold State.updReject
  with_reducible
    repeat'
      first
      | assumption | (intro _) | apply State.setBits_kept | dsimp only

theorem State.ckpReject_kept {φ : Part → Bool} {s0 s : State} (p : Nat) (hk : Kept φ s0 s) (hregs : φ .regs = false) :
    Kept φ s0 (State.ckpReject s p) := by
  unfold State.ckpReject
  with_reducible
    repeat'
      first
      | assumption | (intro _) | apply State.setBits_kept | dsimp only

theorem State.windowW_kept {φ : Part → Bool} {s0 s : State} (p : Nat) (which : Nat) (v : Word) (hk : Kept φ s0 s)
    (hregs : φ .regs = false) (hout : φ .out = false) :
    Kept φ s0 (State.windowW s p which v) := by
  unfold State.windowW
  with_reducible
    repeat'
      first
      | assumption | (intro _) | apply kept_ite | apply State.regWrite_kept | apply State.updReject_kept
      | apply State.ckpReject_kept | split | dsimp only

theorem State.settleRings_kept {φ : Part → Bool} {s0 s : State} (p : Nat) (keep : Bool) (hk : Kept φ s0 s) (hregs : φ
    .regs = false) (hringAdv : φ .ringAdv = false) :
    Kept φ s0 (State.settleRings s p keep) := by
  unfold State.settleRings
  with_reducible
    repeat'
      first
      | assumption | (intro _) | apply kept_ite | apply State.wn_kept | apply kept_foldl | split | dsimp only
      | apply kept_mk | apply kept_mk_ringAdv

theorem State.updConfigW_kept {φ : Part → Bool} {s0 s : State} (p : Nat) (off : Nat) (v : Word) (hk : Kept φ s0 s)
    (hregs : φ .regs = false) (hout : φ .out = false) (hringAdv : φ .ringAdv = false) :
    Kept φ s0 (State.updConfigW s p off v) := by
  unfold State.updConfigW
  with_reducible
    repeat'
      first
      | assumption | (intro _) | apply kept_ite | apply State.regWrite_kept | apply State.updReject_kept
      | apply State.windowW_kept | apply State.settleRings_kept | split | dsimp only

theorem State.setStep_kept {φ : Part → Bool} {s0 s : State} (p : Nat) (v : Nat) (hk : Kept φ s0 s) (hregs : φ .regs =
    false) :
    Kept φ s0 (State.setStep s p v) := by
  unfold State.setStep
  with_reducible
    repeat'
      first
      | assumption | (intro _) | apply State.wn_kept | dsimp only

theorem State.makeDecision_kept {φ : Part → Bool} {s0 s : State} (p : Nat) (hk : Kept φ s0 s) (hmem : φ .mem = false)
    (hkeys : φ .keys = false) (hregs : φ .regs = false) (hout : φ .out = false) (hpoison : φ .poison = false)
    (hchannels : φ .channels = false) (husage : φ .usage = false) (hupds : φ .upds = false) (hringAdv : φ .ringAdv =
    false) (hhaltReq : φ .haltReq = false) :
    Kept φ s0 (State.makeDecision s p) := by
  unfold State.makeDecision
  with_reducible
    repeat'
      first
      | assumption | (intro _) | apply kept_ite | apply State.setBits_kept | apply State.fput_kept
      | apply State.wn_kept | apply State.bump_kept | apply State.sepiaRec_kept | apply State.count_kept
      | apply State.setUp_kept | apply State.irqUpd_kept | apply State.lossScale_kept | apply State.latchScalars_kept
      | apply State.writeState_kept | apply State.settleRings_kept | apply State.setStep_kept | apply kept_foldl
      | split | dsimp only

theorem State.abandonIfFaulted_kept {φ : Part → Bool} {s0 s : State} (p : Nat) (hk : Kept φ s0 s) (hcores : φ .cores =
    false) (hseqs : φ .seqs = false) :
    Kept φ s0 (State.abandonIfFaulted s p) := by
  unfold State.abandonIfFaulted
  with_reducible
    repeat'
      first
      | assumption | (intro _) | apply kept_ite | apply State.abandon_kept | split | dsimp only

theorem State.runClear_kept {φ : Part → Bool} {s0 s : State} (p : Nat) (hk : Kept φ s0 s) (hcores : φ .cores = false)
    (hregs : φ .regs = false) (hlakes : φ .lakes = false) (hout : φ .out = false) (hseqs : φ .seqs = false) (husage :
    φ .usage = false) (hupds : φ .upds = false) (hccs : φ .ccs = false) :
    Kept φ s0 (State.runClear s p) := by
  unfold State.runClear
  with_reducible
    repeat'
      first
      | assumption | (intro _) | apply State.wr_kept | apply State.fput_kept | apply State.setSq_kept
      | apply State.wn_kept | apply State.setUp_kept | apply State.wr64_kept | apply State.setLake_kept
      | apply State.settleStream_kept | apply State.lostCheck_kept | apply State.abandonIfFaulted_kept
      | apply kept_foldl | dsimp only | apply kept_mk | apply kept_mk_ccs

theorem State.issueBundle_kept {φ : Part → Bool} {s0 s : State} (p : Nat) (t : Nat) (ue : Bool) (f : State → Bundle →
    State) (hk : Kept φ s0 s) (h_f : ∀ s a1, Kept φ s0 s → Kept φ s0 (f s a1)) (hcores : φ .cores = false) (hregs : φ
    .regs = false) (hout : φ .out = false) (hseqs : φ .seqs = false) (husage : φ .usage = false) (hqueues : φ .queues
    = false) (hfrozen : φ .frozen = false) :
    Kept φ s0 (State.issueBundle s p t ue f) := by
  unfold State.issueBundle
  with_reducible
    repeat'
      first
      | assumption | (intro _) | apply h_f | apply kept_ite | apply State.setSq_kept | apply State.wn_kept
      | apply State.sepiaRec_kept | apply State.beatFault_kept | apply State.advance_kept | split | dsimp only

theorem State.slackOp_kept {φ : Part → Bool} {s0 s : State} (p : Nat) (ue : Bool) (hk : Kept φ s0 s) (hcores : φ
    .cores = false) (hregs : φ .regs = false) (hout : φ .out = false) (hseqs : φ .seqs = false) (husage : φ .usage =
    false) (hqueues : φ .queues = false) (hfrozen : φ .frozen = false) :
    Kept φ s0 (State.slackOp s p ue) := by
  unfold State.slackOp
  with_reducible
    repeat'
      first
      | assumption | (intro _) | apply kept_ite | apply State.setSq_kept | apply State.count_kept
      | apply State.bump64_kept | apply State.setLate_kept | apply State.lostEnd_kept | apply State.overrun_kept
      | apply State.issueBundle_kept | (apply keptO_get; assumption) | apply kept_getD | apply keptO_ite
      | apply keptO_none | apply keptO_some | split | dsimp only

theorem State.cmdReject_kept {φ : Part → Bool} {s0 s : State} (p : Nat) (hk : Kept φ s0 s) (hregs : φ .regs = false)
    (hout : φ .out = false) :
    Kept φ s0 (State.cmdReject s p) := by
  unfold State.cmdReject
  with_reducible
    repeat'
      first
      | assumption | (intro _) | apply State.irqSeq_kept | dsimp only

theorem State.imgBaseW_kept {φ : Part → Bool} {s0 s : State} (p : Nat) (a : Nat) (v : Word) (hk : Kept φ s0 s) (hregs
    : φ .regs = false) (hout : φ .out = false) :
    Kept φ s0 (State.imgBaseW s p a v) := by
  unfold State.imgBaseW
  with_reducible
    repeat'
      first
      | assumption | (intro _) | apply kept_ite | apply State.regWrite_kept | apply State.cmdReject_kept | split
      | dsimp only

theorem State.markFault_kept {φ : Part → Bool} {s0 s : State} (p : Nat) (code : Nat) (hk : Kept φ s0 s) (hcores : φ
    .cores = false) (hregs : φ .regs = false) (hout : φ .out = false) (hseqs : φ .seqs = false) (husage : φ .usage =
    false) (hqueues : φ .queues = false) (hfrozen : φ .frozen = false) :
    Kept φ s0 (State.markFault s p code) := by
  unfold State.markFault
  with_reducible
    repeat'
      first
      | assumption | (intro _) | apply State.wn_kept | apply State.seqFault_kept | apply State.advance_kept
      | dsimp only

theorem State.atGate_kept {φ : Part → Bool} {s0 s : State} (p : Nat) (f : State → State) (hk : Kept φ s0 s) (h_f : ∀
    s, Kept φ s0 s → Kept φ s0 (f s)) (hcores : φ .cores = false) (hregs : φ .regs = false) (hout : φ .out = false)
    (hseqs : φ .seqs = false) (husage : φ .usage = false) (hqueues : φ .queues = false) (hfrozen : φ .frozen = false)
    :
    Kept φ s0 (State.atGate s p f) := by
  unfold State.atGate
  with_reducible
    repeat'
      first
      | assumption | (intro _) | apply h_f | apply kept_ite | apply State.markFault_kept | split | dsimp only

theorem State.gateOpen_kept {φ : Part → Bool} {s0 s : State} (p : Nat) (ue : Bool) (hk : Kept φ s0 s) (hcores : φ
    .cores = false) (hregs : φ .regs = false) (hout : φ .out = false) (hseqs : φ .seqs = false) (husage : φ .usage =
    false) (hupds : φ .upds = false) (hqueues : φ .queues = false) (hfrozen : φ .frozen = false) :
    Kept φ s0 (State.gateOpen s p ue) := by
  unfold State.gateOpen
  with_reducible
    repeat'
      first
      | assumption | (intro _) | apply kept_ite | apply State.fput_kept | apply State.setSq_kept | apply State.wn_kept
      | apply State.bump_kept | apply State.sepiaRec_kept | apply State.setSeqState_kept | apply State.advance_kept
      | apply State.lostEnd_kept | apply State.stepStart_kept | apply State.markFault_kept | apply State.atGate_kept
      | split | dsimp only

theorem State.xferOp_kept {φ : Part → Bool} {s0 s : State} (p : Nat) (xop : Nat) (f : State → Bundle → State) (hk :
    Kept φ s0 s) (h_f : ∀ s a1, Kept φ s0 s → Kept φ s0 (f s a1)) (hseqs : φ .seqs = false) :
    Kept φ s0 (State.xferOp s p xop f) := by
  unfold State.xferOp
  with_reducible
    repeat'
      first
      | assumption | (intro _) | apply h_f | apply kept_ite | apply State.setSq_kept | split | dsimp only

theorem State.bundleFault_kept {φ : Part → Bool} {s0 s : State} (p : Nat) (code : Nat) (hk : Kept φ s0 s) (hcores : φ
    .cores = false) (hregs : φ .regs = false) (hout : φ .out = false) (hseqs : φ .seqs = false) (husage : φ .usage =
    false) (hqueues : φ .queues = false) (hfrozen : φ .frozen = false) :
    Kept φ s0 (State.bundleFault s p code) := by
  unfold State.bundleFault
  with_reducible
    repeat'
      first
      | assumption | (intro _) | apply State.beatFault_kept | dsimp only

theorem State.addXfers_kept {φ : Part → Bool} {s0 s : State} (p : Nat) (cset : Nat) (l : List Xfer) (hk : Kept φ s0 s)
    (hcores : φ .cores = false) (hregs : φ .regs = false) (hout : φ .out = false) (hseqs : φ .seqs = false) (husage :
    φ .usage = false) (hqueues : φ .queues = false) (hfrozen : φ .frozen = false) :
    Kept φ s0 (State.addXfers s p cset l) := by
  unfold State.addXfers
  with_reducible
    repeat'
      first
      | assumption | (intro _) | apply State.setSq_kept | apply State.csetAdd_kept | apply State.bundleFault_kept
      | (apply keptO_get; assumption) | apply kept_getD | apply keptO_ite | apply keptO_none | apply keptO_some
      | split | dsimp only | apply kept_mk

theorem State.checkParts_kept {φ : Part → Bool} {s0 s : State} (p : Nat) (m : Master) (l : List Xfer) (hk : Kept φ s0
    s) (hregs : φ .regs = false) (hout : φ .out = false) (hupds : φ .upds = false) :
    Kept φ s0 (State.checkParts s p m l).1 := by
  unfold State.checkParts
  with_reducible
    repeat'
      first
      | assumption | (intro _) | apply kept_ite | apply State.checkRun_kept | apply kept_foldl | apply kept_ite_fst
      | apply kept_foldl_fst | (apply kept_of_eq; assumption) | split | dsimp only

theorem State.memXfer_kept {φ : Part → Bool} {s0 s : State} (p : Nat) (b : Bundle) (rd : Bool) (hk : Kept φ s0 s)
    (hcores : φ .cores = false) (hregs : φ .regs = false) (hout : φ .out = false) (hseqs : φ .seqs = false) (husage :
    φ .usage = false) (hupds : φ .upds = false) (hqueues : φ .queues = false) (hfrozen : φ .frozen = false) :
    Kept φ s0 (State.memXfer s p b rd) := by
  unfold State.memXfer
  with_reducible
    repeat'
      first
      | assumption | (intro _) | apply kept_ite | apply State.bundleFault_kept | apply State.addXfers_kept
      | apply State.checkParts_kept | apply kept_ite_fst | (apply kept_of_eq; assumption) | split | dsimp only

theorem State.commitOp_kept {φ : Part → Bool} {s0 s : State} (p : Nat) (b : Bundle) (hk : Kept φ s0 s) (hcores : φ
    .cores = false) (hregs : φ .regs = false) (hout : φ .out = false) (hseqs : φ .seqs = false) (husage : φ .usage =
    false) (hupds : φ .upds = false) (hqueues : φ .queues = false) (hfrozen : φ .frozen = false) :
    Kept φ s0 (State.commitOp s p b) := by
  unfold State.commitOp
  with_reducible
    repeat'
      first
      | assumption | (intro _) | apply kept_ite | apply State.fput_kept | apply State.setSq_kept
      | apply State.setUp_kept | apply State.bundleFault_kept | split | dsimp only

theorem State.nmeOp_kept {φ : Part → Bool} {s0 s : State} (p : Nat) (b : Bundle) (errs : List ReadErr) (hk : Kept φ s0
    s) (hkeys : φ .keys = false) (hcores : φ .cores = false) (hregs : φ .regs = false) (hout : φ .out = false) (hseqs
    : φ .seqs = false) (hpoison : φ .poison = false) (hchannels : φ .channels = false) (husage : φ .usage = false)
    (hupds : φ .upds = false) (hqueues : φ .queues = false) (hhaltReq : φ .haltReq = false) (hfrozen : φ .frozen =
    false) :
    Kept φ s0 (State.nmeOp s p b errs) := by
  unfold State.nmeOp
  with_reducible
    repeat'
      first
      | assumption | (intro _) | apply kept_ite | apply State.csetAdd_kept | apply State.forward_kept
      | apply State.readRun_kept | apply State.checkRun_kept | apply State.bundleFault_kept
      | (apply keptO_get; assumption) | apply kept_getD | apply keptO_ite | apply keptO_none | apply keptO_some
      | apply kept_foldl | apply kept_ite_fst | apply kept_foldl_fst | (apply kept_of_eq; assumption) | split
      | dsimp only | apply kept_mk | apply kept_mk_channels

theorem State.seqPacketDone_kept {φ : Part → Bool} {s0 s : State} (p : Nat) (hk : Kept φ s0 s) (hregs : φ .regs =
    false) (hout : φ .out = false) (hqueues : φ .queues = false) :
    Kept φ s0 (State.seqPacketDone s p) := by
  unfold State.seqPacketDone
  with_reducible
    repeat'
      first
      | assumption | (intro _) | apply State.mapBufs_kept | dsimp only

theorem State.enterStopped_kept {φ : Part → Bool} {s0 s : State} (p : Nat) (hk : Kept φ s0 s) (hregs : φ .regs =
    false) (hout : φ .out = false) (hseqs : φ .seqs = false) (husage : φ .usage = false) (hqueues : φ .queues = false)
    :
    Kept φ s0 (State.enterStopped s p) := by
  unfold State.enterStopped
  with_reducible
    repeat'
      first
      | assumption | (intro _) | apply State.fput_kept | apply State.setSq_kept | apply State.wn_kept
      | apply State.sepiaRec_kept | apply State.setSeqState_kept | apply State.seqPacketDone_kept | dsimp only

theorem State.loadGroups_kept {φ : Part → Bool} {s0 s : State} (p : Nat) (t : List Byte) (hk : Kept φ s0 s) (hregs : φ
    .regs = false) :
    Kept φ s0 (State.loadGroups s p t) := by
  unfold State.loadGroups
  with_reducible
    repeat'
      first
      | assumption | (intro _) | apply kept_ite | apply State.wn_kept | apply kept_foldl | split | dsimp only

theorem State.toGate_kept {φ : Part → Bool} {s0 s : State} (p : Nat) (hk : Kept φ s0 s) (hregs : φ .regs = false)
    (hout : φ .out = false) (hseqs : φ .seqs = false) (husage : φ .usage = false) (hqueues : φ .queues = false) :
    Kept φ s0 (State.toGate s p) := by
  unfold State.toGate
  with_reducible
    repeat'
      first
      | assumption | (intro _) | apply kept_ite | apply State.setSeqState_kept | apply State.enterStopped_kept | split
      | dsimp only

theorem State.choose.pick_kept {φ : Part → Bool} {s0 s : State} (p : Nat) (q : Seq) (l : Option LoopRec) (hk : Kept φ
    s0 s) (hregs : φ .regs = false) :
    Kept φ s0 (State.choose.pick p s q l).1 := by
  unfold State.choose.pick
  with_reducible
    repeat'
      first
      | assumption | (intro _) | apply kept_ite | apply State.wn_kept | apply kept_ite_fst
      | (apply kept_of_eq; assumption) | split | dsimp only

theorem State.choose_kept {φ : Part → Bool} {s0 s : State} (p : Nat) (tainted : Bool) (hk : Kept φ s0 s) (hregs : φ
    .regs = false) (hseqs : φ .seqs = false) :
    Kept φ s0 (State.choose s p tainted) := by
  unfold State.choose
  with_reducible
    repeat'
      first
      | assumption | (intro _) | apply kept_ite | apply State.setSq_kept | apply State.wn_kept
      | apply State.choose.pick_kept | apply kept_foldl | apply kept_ite_fst | apply kept_foldl_fst
      | (apply kept_of_eq; assumption) | split | dsimp only

theorem State.afterDecision_kept {φ : Part → Bool} {s0 s : State} (p : Nat) (hk : Kept φ s0 s) (hregs : φ .regs =
    false) (hout : φ .out = false) (hseqs : φ .seqs = false) (husage : φ .usage = false) (hqueues : φ .queues = false)
    :
    Kept φ s0 (State.afterDecision s p) := by
  unfold State.afterDecision
  with_reducible
    repeat'
      first
      | assumption | (intro _) | apply kept_ite | apply State.toGate_kept | apply State.choose_kept | split
      | dsimp only

theorem State.runFill_kept {φ : Part → Bool} {s0 s : State} (p : Nat) (armed : Bool) (errs : List ReadErr) (l : List
    Bundle) (hk : Kept φ s0 s) (hkeys : φ .keys = false) (hcores : φ .cores = false) (hregs : φ .regs = false) (hout :
    φ .out = false) (hseqs : φ .seqs = false) (hpoison : φ .poison = false) (hchannels : φ .channels = false) (husage
    : φ .usage = false) (hupds : φ .upds = false) (hqueues : φ .queues = false) (hhaltReq : φ .haltReq = false)
    (hfrozen : φ .frozen = false) :
    Kept φ s0 (State.runFill s p armed errs l) := by
  unfold State.runFill
  with_reducible
    repeat'
      first
      | assumption | (intro _) | apply kept_ite | apply State.setSq_kept | apply State.wn_kept
      | apply State.fillNext_kept | apply State.loadGroups_kept | apply kept_foldl | split | dsimp only

theorem State.fmtTableW_kept {φ : Part → Bool} {s0 s : State} (p : Nat) (off : Nat) (v : Word) (hk : Kept φ s0 s)
    (hregs : φ .regs = false) (hout : φ .out = false) :
    Kept φ s0 (State.fmtTableW s p off v) := by
  unfold State.fmtTableW
  with_reducible
    repeat'
      first
      | assumption | (intro _) | apply kept_ite | apply State.setBits_kept | apply State.regWrite_kept | split
      | dsimp only

theorem State.endOp_kept {φ : Part → Bool} {s0 s : State} (p : Nat) (ue : Bool) (hk : Kept φ s0 s) (hcores : φ .cores
    = false) (hregs : φ .regs = false) (hout : φ .out = false) (hseqs : φ .seqs = false) (husage : φ .usage = false)
    (hqueues : φ .queues = false) (hfrozen : φ .frozen = false) :
    Kept φ s0 (State.endOp s p ue) := by
  unfold State.endOp
  with_reducible
    repeat'
      first
      | assumption | (intro _) | apply kept_ite | apply State.setSq_kept | apply State.issueBundle_kept | split
      | dsimp only

theorem State.bundleExec_kept {φ : Part → Bool} {s0 s : State} (p : Nat) (ue : Bool) (hk : Kept φ s0 s) (hcores : φ
    .cores = false) (hregs : φ .regs = false) (hout : φ .out = false) (hseqs : φ .seqs = false) (husage : φ .usage =
    false) (hqueues : φ .queues = false) (hfrozen : φ .frozen = false) :
    Kept φ s0 (State.bundleExec s p ue) := by
  unfold State.bundleExec
  with_reducible
    repeat'
      first
      | assumption | (intro _) | apply State.setSq_kept | apply State.issueBundle_kept | dsimp only

theorem State.gateWait_kept {φ : Part → Bool} {s0 s : State} (p : Nat) (hk : Kept φ s0 s) (hcores : φ .cores = false)
    (hregs : φ .regs = false) (hout : φ .out = false) (hseqs : φ .seqs = false) (husage : φ .usage = false) (hqueues :
    φ .queues = false) (hfrozen : φ .frozen = false) :
    Kept φ s0 (State.gateWait s p) := by
  unfold State.gateWait
  with_reducible
    repeat'
      first
      | assumption | (intro _) | apply kept_ite | apply State.setSq_kept | apply State.irqSeq_kept
      | apply State.setSeqState_kept | apply State.count_kept | apply State.bump64_kept | apply State.setLate_kept
      | apply State.advance_kept | apply State.lostEnd_kept | apply State.atGate_kept | split | dsimp only

theorem State.endRun_kept {φ : Part → Bool} {s0 s : State} (p : Nat) (phys : Nat) (u : Nat) (r : Run) (hk : Kept φ s0
    s) (hcores : φ .cores = false) (husage : φ .usage = false) :
    Kept φ s0 (State.endRun s p phys u r) := by
  unfold State.endRun
  with_reducible
    repeat'
      first
      | assumption | (intro _) | apply State.sepiaRec_kept | apply State.setRun_kept | dsimp only

theorem State.startUnit_kept {φ : Part → Bool} {s0 s : State} (p : Nat) (x : Start) (cu : Nat × Nat) (hk : Kept φ s0
    s) (hcores : φ .cores = false) (husage : φ .usage = false) :
    Kept φ s0 (State.startUnit s p x cu) := by
  unfold State.startUnit
  with_reducible
    repeat'
      first
      | assumption | (intro _) | apply State.sepiaRec_kept | apply State.setRun_kept | apply State.endRun_kept | split
      | dsimp only

theorem State.startBody_kept {φ : Part → Bool} {s0 s : State} (p : Nat) (x : Start) (bad : Option (Nat × Nat × Nat))
    (hk : Kept φ s0 s) (hcores : φ .cores = false) (hregs : φ .regs = false) (hout : φ .out = false) (hseqs : φ .seqs
    = false) (husage : φ .usage = false) (hqueues : φ .queues = false) (hfrozen : φ .frozen = false) :
    Kept φ s0 (State.startBody s p x bad) := by
  unfold State.startBody
  with_reducible
    repeat'
      first
      | assumption | (intro _) | apply kept_ite | apply State.setSq_kept | apply State.beatFault_kept
      | apply State.startUnit_kept | apply kept_foldl | split | dsimp only

theorem State.dropXfer_kept {φ : Part → Bool} {s0 s : State} (p : Nat) (x : Xfer) (hk : Kept φ s0 s) (hregs : φ .regs
    = false) (hseqs : φ .seqs = false) :
    Kept φ s0 (State.dropXfer s p x) := by
  unfold State.dropXfer
  with_reducible
    repeat'
      first
      | assumption | (intro _) | apply State.setSq_kept | apply State.csetSub_kept | dsimp only

theorem State.bound_kept {φ : Part → Bool} {s0 s : State} (p : Nat) (x : Xfer) (f : State → State) (hk : Kept φ s0 s)
    (h_f : ∀ s, Kept φ s0 s → Kept φ s0 (f s)) (hcores : φ .cores = false) (hregs : φ .regs = false) (hout : φ .out =
    false) (hseqs : φ .seqs = false) (husage : φ .usage = false) (hupds : φ .upds = false) (hqueues : φ .queues =
    false) (hfrozen : φ .frozen = false) :
    Kept φ s0 (State.bound s p x f) := by
  unfold State.bound
  with_reducible
    repeat'
      first
      | assumption | (intro _) | apply h_f | apply kept_ite | apply State.seqFault_kept | apply State.refuse_kept
      | apply State.dropXfer_kept | split | dsimp only

theorem State.rloadDone_kept {φ : Part → Bool} {s0 s : State} (p : Nat) (n : Nat) (errs : List ReadErr) (hk : Kept φ
    s0 s) (hkeys : φ .keys = false) (hcores : φ .cores = false) (hregs : φ .regs = false) (hout : φ .out = false)
    (hseqs : φ .seqs = false) (hpoison : φ .poison = false) (hchannels : φ .channels = false) (husage : φ .usage =
    false) (hupds : φ .upds = false) (hqueues : φ .queues = false) (hhaltReq : φ .haltReq = false) (hfrozen : φ
    .frozen = false) :
    Kept φ s0 (State.rloadDone s p n errs) := by
  unfold State.rloadDone
  with_reducible
    repeat'
      first
      | assumption | (intro _) | apply kept_ite | apply State.count_kept | apply State.issuedAs_kept
      | apply State.readRun_kept | apply State.dropXfer_kept | apply State.bound_kept | apply kept_foldl
      | apply kept_ite_fst | apply kept_foldl_fst | (apply kept_of_eq; assumption) | split | dsimp only
      | apply kept_mk | apply kept_mk_cores

theorem State.rloadOp_kept {φ : Part → Bool} {s0 s : State} (p : Nat) (b : Bundle) (hk : Kept φ s0 s) (hcores : φ
    .cores = false) (hregs : φ .regs = false) (hout : φ .out = false) (hseqs : φ .seqs = false) (husage : φ .usage =
    false) (hupds : φ .upds = false) (hqueues : φ .queues = false) (hfrozen : φ .frozen = false) :
    Kept φ s0 (State.rloadOp s p b) := by
  unfold State.rloadOp
  with_reducible
    repeat'
      first
      | assumption | (intro _) | apply kept_ite | apply State.bundleFault_kept | apply State.addXfers_kept
      | apply State.checkParts_kept | apply kept_ite_fst | (apply kept_of_eq; assumption) | split | dsimp only

theorem State.updOp_kept {φ : Part → Bool} {s0 s : State} (p : Nat) (b : Bundle) (errs : List ReadErr) (hk : Kept φ s0
    s) (hkeys : φ .keys = false) (hcores : φ .cores = false) (hregs : φ .regs = false) (hout : φ .out = false) (hseqs
    : φ .seqs = false) (hpoison : φ .poison = false) (hchannels : φ .channels = false) (husage : φ .usage = false)
    (hupds : φ .upds = false) (hqueues : φ .queues = false) (hhaltReq : φ .haltReq = false) (hfrozen : φ .frozen =
    false) :
    Kept φ s0 (State.updOp s p b errs) := by
  unfold State.updOp
  with_reducible
    repeat'
      first
      | assumption | (intro _) | apply State.updIssue_kept | apply State.bundleFault_kept
      | (apply keptO_get; assumption) | apply kept_getD | apply keptO_ite | apply keptO_none | apply keptO_some
      | split | dsimp only

theorem State.runFetch_kept {φ : Part → Bool} {s0 s : State} (p : Nat) (errs : List ReadErr) (hk : Kept φ s0 s) (hmem
    : φ .mem = false) (hkeys : φ .keys = false) (hcores : φ .cores = false) (hregs : φ .regs = false) (hlakes : φ
    .lakes = false) (hout : φ .out = false) (hseqs : φ .seqs = false) (hpoison : φ .poison = false) (hchannels : φ
    .channels = false) (husage : φ .usage = false) (hupds : φ .upds = false) (hringAdv : φ .ringAdv = false) (hccs : φ
    .ccs = false) (hhaltReq : φ .haltReq = false) :
    Kept φ s0 (State.runFetch s p errs).1 := by
  unfold State.runFetch
  with_reducible
    repeat'
      first
      | assumption | (intro _) | apply State.setSeqState_kept | apply State.fetch_kept | apply State.latchScalars_kept
      | apply State.writeState_kept | apply State.settleRings_kept | apply State.runClear_kept
      | (apply kept_of_eq; assumption) | dsimp only

theorem State.seqRun_kept {φ : Part → Bool} {s0 s : State} (p : Nat) (errs : List ReadErr) (hk : Kept φ s0 s) (hmem :
    φ .mem = false) (hkeys : φ .keys = false) (hcores : φ .cores = false) (hregs : φ .regs = false) (hlakes : φ .lakes
    = false) (hout : φ .out = false) (hseqs : φ .seqs = false) (hpoison : φ .poison = false) (hchannels : φ .channels
    = false) (husage : φ .usage = false) (hupds : φ .upds = false) (hringAdv : φ .ringAdv = false) (hccs : φ .ccs =
    false) (hqueues : φ .queues = false) (hhaltReq : φ .haltReq = false) (hfrozen : φ .frozen = false) :
    Kept φ s0 (State.seqRun s p errs) := by
  unfold State.seqRun
  with_reducible
    repeat'
      first
      | assumption | (intro _) | apply kept_ite | apply State.wn_kept | apply State.setSeqState_kept
      | apply State.seqFault_kept | apply State.cmdReject_kept | apply State.enterStopped_kept
      | apply State.runFill_kept | apply State.runFetch_kept | apply kept_ite_fst | (apply kept_of_eq; assumption)
      | split | dsimp only

theorem State.catchupW_kept {φ : Part → Bool} {s0 s : State} (p : Nat) (v : Word) (hk : Kept φ s0 s) (hregs : φ .regs
    = false) (hout : φ .out = false) (hseqs : φ .seqs = false) (husage : φ .usage = false) :
    Kept φ s0 (State.catchupW s p v) := by
  unfold State.catchupW
  with_reducible
    repeat'
      first
      | assumption | (intro _) | apply kept_ite | apply State.wr_kept | apply State.lostCheck_kept | split
      | dsimp only

theorem State.ctlOp_kept {φ : Part → Bool} {s0 s : State} (p : Nat) (cop : Nat) (f : State → Bundle → State) (hk :
    Kept φ s0 s) (h_f : ∀ s a1, Kept φ s0 s → Kept φ s0 (f s a1)) (hseqs : φ .seqs = false) :
    Kept φ s0 (State.ctlOp s p cop f) := by
  unfold State.ctlOp
  with_reducible
    repeat'
      first
      | assumption | (intro _) | apply h_f | apply kept_ite | apply State.setSq_kept | split | dsimp only

theorem State.bodyStart_kept {φ : Part → Bool} {s0 s : State} (p : Nat) (hk : Kept φ s0 s) (hcores : φ .cores = false)
    (hregs : φ .regs = false) (hout : φ .out = false) (hseqs : φ .seqs = false) (husage : φ .usage = false) (hqueues :
    φ .queues = false) (hfrozen : φ .frozen = false) :
    Kept φ s0 (State.bodyStart s p) := by
  unfold State.bodyStart
  with_reducible
    repeat'
      first
      | assumption | (intro _) | apply kept_ite | apply State.setSq_kept | apply State.advance_kept
      | apply State.overrun_kept | apply State.startBody_kept | (apply keptO_get; assumption) | apply kept_getD
      | apply keptO_ite | apply keptO_none | apply keptO_some | apply kept_foldl | split | dsimp only

theorem State.seqResume_kept {φ : Part → Bool} {s0 s : State} (p : Nat) (hk : Kept φ s0 s) (hregs : φ .regs = false)
    (hseqs : φ .seqs = false) :
    Kept φ s0 (State.seqResume s p) := by
  unfold State.seqResume
  with_reducible
    repeat'
      first
      | assumption | (intro _) | apply kept_ite | apply State.setSq_kept | apply State.setSeqState_kept | split
      | dsimp only

theorem State.endOverrun_kept {φ : Part → Bool} {s0 s : State} (p : Nat) (hk : Kept φ s0 s) (hcores : φ .cores =
    false) (hregs : φ .regs = false) (hout : φ .out = false) (hseqs : φ .seqs = false) (husage : φ .usage = false)
    (hqueues : φ .queues = false) (hfrozen : φ .frozen = false) :
    KeptO φ s0 (State.endOverrun s p) := by
  unfold State.endOverrun
  with_reducible
    repeat'
      first
      | assumption | (intro _) | apply kept_ite | apply State.overrun_kept | (apply keptO_get; assumption)
      | apply kept_getD | apply keptO_ite | apply keptO_none | apply keptO_some | split | dsimp only

theorem State.grpStart_kept {φ : Part → Bool} {s0 s : State} (p : Nat) (i : Nat) (hk : Kept φ s0 s) (hcores : φ .cores
    = false) (hregs : φ .regs = false) (hout : φ .out = false) (hseqs : φ .seqs = false) (husage : φ .usage = false)
    (hqueues : φ .queues = false) (hfrozen : φ .frozen = false) :
    Kept φ s0 (State.grpStart s p i) := by
  unfold State.grpStart
  with_reducible
    repeat'
      first
      | assumption | (intro _) | apply kept_ite | apply State.setSq_kept | apply State.bundleFault_kept
      | apply kept_ite_fst | (apply kept_of_eq; assumption) | split | dsimp only

theorem State.seqCont_kept {φ : Part → Bool} {s0 s : State} (p : Nat) (hk : Kept φ s0 s) (hcores : φ .cores = false)
    (hregs : φ .regs = false) (hout : φ .out = false) (hseqs : φ .seqs = false) :
    Kept φ s0 (State.seqCont s p) := by
  unfold State.seqCont
  with_reducible
    repeat'
      first
      | assumption | (intro _) | apply kept_ite | apply State.setSq_kept | apply State.setSeqState_kept
      | apply State.settleStream_kept | apply State.cmdReject_kept | split | dsimp only

theorem State.periodEnd_kept {φ : Part → Bool} {s0 s : State} (p : Nat) (hk : Kept φ s0 s) (hcores : φ .cores = false)
    (hregs : φ .regs = false) (hout : φ .out = false) (hseqs : φ .seqs = false) (husage : φ .usage = false) (hqueues :
    φ .queues = false) (hfrozen : φ .frozen = false) :
    Kept φ s0 (State.periodEnd s p) := by
  unfold State.periodEnd
  with_reducible
    repeat'
      first
      | assumption | (intro _) | apply kept_ite | apply State.setSq_kept | apply State.setSeqState_kept
      | apply State.advance_kept | apply State.toGate_kept | apply State.choose_kept | apply State.endOverrun_kept
      | (apply keptO_get; assumption) | apply kept_getD | apply keptO_ite | apply keptO_none | apply keptO_some
      | split | dsimp only

theorem State.xferDone_kept {φ : Part → Bool} {s0 s : State} (p : Nat) (n : Nat) (errs : List ReadErr) (bad :
    SramErrs) (hk : Kept φ s0 s) (hmem : φ .mem = false) (hkeys : φ .keys = false) (hcores : φ .cores = false) (hregs
    : φ .regs = false) (hout : φ .out = false) (hseqs : φ .seqs = false) (hpoison : φ .poison = false) (hchannels : φ
    .channels = false) (husage : φ .usage = false) (hupds : φ .upds = false) (hqueues : φ .queues = false) (hhaltReq :
    φ .haltReq = false) (hfrozen : φ .frozen = false) :
    Kept φ s0 (State.xferDone s p n errs bad) := by
  unfold State.xferDone
  with_reducible
    repeat'
      first
      | assumption | (intro _) | apply kept_ite | apply State.count_kept | apply State.issuedAs_kept
      | apply State.sramWr_kept | apply State.writeRun_kept | apply State.readRun_kept | apply State.sramX_kept
      | apply State.dropXfer_kept | apply State.bound_kept | apply kept_ite_fst | (apply kept_of_eq; assumption)
      | split | dsimp only

theorem State.bodyEnd_kept {φ : Part → Bool} {s0 s : State} (p : Nat) (core : Nat) (u : Nat) (hk : Kept φ s0 s)
    (hcores : φ .cores = false) (hregs : φ .regs = false) (hout : φ .out = false) (hseqs : φ .seqs = false) (husage :
    φ .usage = false) (hqueues : φ .queues = false) (hfrozen : φ .frozen = false) :
    Kept φ s0 (State.bodyEnd s p core u) := by
  unfold State.bodyEnd
  with_reducible
    repeat'
      first
      | assumption | (intro _) | apply kept_ite | apply State.advance_kept | apply State.overrun_kept
      | apply State.dropRun_kept | apply State.endRun_kept | (apply keptO_get; assumption) | apply kept_getD
      | apply keptO_ite | apply keptO_none | apply keptO_some | split | dsimp only

theorem State.endDone_kept {φ : Part → Bool} {s0 s : State} (p : Nat) (hk : Kept φ s0 s) (hcores : φ .cores = false)
    (hregs : φ .regs = false) (hout : φ .out = false) (hseqs : φ .seqs = false) (husage : φ .usage = false) (hqueues :
    φ .queues = false) (hfrozen : φ .frozen = false) :
    Kept φ s0 (State.endDone s p) := by
  unfold State.endDone
  with_reducible
    repeat'
      first
      | assumption | (intro _) | apply kept_ite | apply State.setSq_kept | apply State.irqSeq_kept
      | apply State.fenceSignal_kept | apply State.advance_kept | apply State.enterStopped_kept
      | apply State.endOverrun_kept | (apply keptO_get; assumption) | apply kept_getD | apply keptO_ite
      | apply keptO_none | apply keptO_some | split | dsimp only

theorem State.loopTo_kept {φ : Part → Bool} {s0 s : State} (p : Nat) (errs : List ReadErr) (b : Bundle) (hk : Kept φ
    s0 s) (hkeys : φ .keys = false) (hcores : φ .cores = false) (hregs : φ .regs = false) (hout : φ .out = false)
    (hseqs : φ .seqs = false) (hpoison : φ .poison = false) (hchannels : φ .channels = false) (husage : φ .usage =
    false) (hupds : φ .upds = false) (hqueues : φ .queues = false) (hhaltReq : φ .haltReq = false) (hfrozen : φ
    .frozen = false) :
    Kept φ s0 (State.loopTo s p errs b) := by
  unfold State.loopTo
  with_reducible
    repeat'
      first
      | assumption | (intro _) | apply kept_ite | apply State.setSq_kept | apply State.fetch_kept
      | apply State.bundleFault_kept | apply kept_ite_fst | (apply kept_of_eq; assumption) | split | dsimp only

theorem State.periodFill_kept {φ : Part → Bool} {s0 s : State} (p : Nat) (errs : List ReadErr) (hk : Kept φ s0 s)
    (hkeys : φ .keys = false) (hcores : φ .cores = false) (hregs : φ .regs = false) (hout : φ .out = false) (hseqs : φ
    .seqs = false) (hpoison : φ .poison = false) (hchannels : φ .channels = false) (husage : φ .usage = false) (hupds
    : φ .upds = false) (hqueues : φ .queues = false) (hhaltReq : φ .haltReq = false) (hfrozen : φ .frozen = false) :
    Kept φ s0 (State.periodFill s p errs) := by
  unfold State.periodFill
  with_reducible
    repeat'
      first
      | assumption | (intro _) | apply kept_ite | apply State.fillNext_kept | split | dsimp only

theorem State.seqStop_kept {φ : Part → Bool} {s0 s : State} (p : Nat) (hk : Kept φ s0 s) (hregs : φ .regs = false)
    (hout : φ .out = false) (hseqs : φ .seqs = false) (husage : φ .usage = false) (hqueues : φ .queues = false) :
    Kept φ s0 (State.seqStop s p) := by
  unfold State.seqStop
  with_reducible
    repeat'
      first
      | assumption | (intro _) | apply kept_ite | apply State.fput_kept | apply State.setSq_kept
      | apply State.setSeqState_kept | apply State.enterStopped_kept | split | dsimp only

theorem State.schedLost_kept {φ : Part → Bool} {s0 s : State} (p : Nat) (hk : Kept φ s0 s) (hregs : φ .regs = false)
    (hout : φ .out = false) (hseqs : φ .seqs = false) (husage : φ .usage = false) :
    Kept φ s0 (State.schedLost s p) := by
  unfold State.schedLost
  with_reducible
    repeat'
      first
      | assumption | (intro _) | apply kept_ite | apply State.lostCheck_kept | split | dsimp only

theorem State.winError_kept {φ : Part → Bool} {s0 s : State} (p : Nat) (port : Nat) (lport : Nat) (role : Nat) (win :
    Nat) (hk : Kept φ s0 s) (hregs : φ .regs = false) (hout : φ .out = false) (husage : φ .usage = false) (hupds : φ
    .upds = false) (hevents : φ .events = false) :
    Kept φ s0 (State.winError s p port lport role win) := by
  unfold State.winError
  with_reducible
    repeat'
      first
      | assumption | (intro _) | apply kept_ite | apply State.wr_kept | apply State.bump_kept
      | apply State.sepiaRec_kept | apply State.raiseNf_kept | apply State.irqLl_kept | apply State.irqCol_kept
      | split | dsimp only

theorem State.endRx_kept {φ : Part → Bool} {s0 s : State} (p : Nat) (x : RxWin) (hk : Kept φ s0 s) (hregs : φ .regs =
    false) (husage : φ .usage = false) (hwins : φ .wins = false) :
    Kept φ s0 (State.endRx s p x) := by
  unfold State.endRx
  with_reducible
    repeat'
      first
      | assumption | (intro _) | apply kept_ite | apply State.sepiaRec_kept | apply State.csetSub_kept
      | apply State.setWin_kept | split | dsimp only

theorem State.failRx_kept {φ : Part → Bool} {s0 s : State} (p : Nat) (x : RxWin) (hk : Kept φ s0 s) (hcores : φ .cores
    = false) (hregs : φ .regs = false) (hseqs : φ .seqs = false) (husage : φ .usage = false) (hwins : φ .wins = false)
    :
    Kept φ s0 (State.failRx s p x) := by
  unfold State.failRx
  with_reducible
    repeat'
      first
      | assumption | (intro _) | apply State.sramWr_kept | apply State.endRx_kept | dsimp only

theorem State.loopStart_kept {φ : Part → Bool} {s0 s : State} (p : Nat) (x : TxWin) (bad : SramErrs) (hk : Kept φ s0
    s) (hcores : φ .cores = false) (hregs : φ .regs = false) (hout : φ .out = false) (hseqs : φ .seqs = false) (husage
    : φ .usage = false) (hupds : φ .upds = false) (hwins : φ .wins = false) (hevents : φ .events = false) :
    Kept φ s0 (State.loopStart s p x bad) := by
  unfold State.loopStart
  with_reducible
    repeat'
      first
      | assumption | (intro _) | apply kept_ite | apply State.setSq_kept | apply State.csetSub_kept
      | apply State.setWin_kept | apply State.advance_kept | apply State.sramX_kept | apply State.winError_kept
      | apply State.failRx_kept | apply kept_ite_fst | (apply kept_of_eq; assumption) | split | dsimp only

theorem State.portStart_kept {φ : Part → Bool} {s0 s : State} (p : Nat) (port : Nat) (x : TxWin) (a : Arm) (hk : Kept
    φ s0 s) (hregs : φ .regs = false) (hports : φ .ports = false) (hout : φ .out = false) (husage : φ .usage = false)
    (hupds : φ .upds = false) (hwins : φ .wins = false) (hevents : φ .events = false) :
    Kept φ s0 (State.portStart s p port x a) := by
  unfold State.portStart
  with_reducible
    repeat'
      first
      | assumption | (intro _) | apply kept_ite | apply State.setPort_kept | apply State.csetSub_kept
      | apply State.setWin_kept | apply State.winError_kept | split | dsimp only

theorem State.windowStart_kept {φ : Part → Bool} {s0 s : State} (p : Nat) (port : Nat) (bad : SramErrs) (hk : Kept φ
    s0 s) (hcores : φ .cores = false) (hregs : φ .regs = false) (hports : φ .ports = false) (hout : φ .out = false)
    (hseqs : φ .seqs = false) (husage : φ .usage = false) (hupds : φ .upds = false) (hwins : φ .wins = false) (hevents
    : φ .events = false) :
    Kept φ s0 (State.windowStart s p port bad) := by
  unfold State.windowStart
  with_reducible
    repeat'
      first
      | assumption | (intro _) | apply kept_ite | apply State.advance_kept | apply State.loopStart_kept
      | apply State.portStart_kept | apply kept_foldl | split | dsimp only

theorem State.armed_kept {φ : Part → Bool} {s0 s : State} (p : Nat) (w : Win) (hk : Kept φ s0 s) (hports : φ .ports =
    false) (husage : φ .usage = false) :
    Kept φ s0 (State.armed s p w) := by
  unfold State.armed
  with_reducible
    repeat'
      first
      | assumption | (intro _) | apply kept_ite | apply State.sepiaRec_kept | apply State.setPort_kept | split
      | dsimp only

theorem State.armRelease_kept {φ : Part → Bool} {s0 s : State} (p : Nat) (port : Nat) (hk : Kept φ s0 s) (hports : φ
    .ports = false) (husage : φ .usage = false) (hwins : φ .wins = false) :
    Kept φ s0 (State.armRelease s p port) := by
  unfold State.armRelease
  with_reducible
    repeat'
      first
      | assumption | (intro _) | apply kept_ite | apply State.setWin_kept | apply State.armed_kept | split
      | dsimp only

theorem State.landRx_kept {φ : Part → Bool} {s0 s : State} (p : Nat) (id : Nat) (off : Nat) (len : Nat) (hk : Kept φ
    s0 s) (hregs : φ .regs = false) (husage : φ .usage = false) (hwins : φ .wins = false) :
    Kept φ s0 (State.landRx s p id off len) := by
  unfold State.landRx
  with_reducible
    repeat'
      first
      | assumption | (intro _) | apply kept_ite | apply State.setWin_kept | apply State.endRx_kept
      | apply kept_ite_fst | (apply kept_of_eq; assumption) | split | dsimp only

theorem State.landMesh_kept {φ : Part → Bool} {s0 s : State} (p : Nat) (bad : SramErrs) (l : MeshLand) (hk : Kept φ s0
    s) (hcores : φ .cores = false) (hregs : φ .regs = false) (hout : φ .out = false) (hseqs : φ .seqs = false) (husage
    : φ .usage = false) (hupds : φ .upds = false) (hwins : φ .wins = false) :
    Kept φ s0 (State.landMesh s p bad l) := by
  unfold State.landMesh
  with_reducible
    repeat'
      first
      | assumption | (intro _) | apply kept_ite | apply State.setSq_kept | apply State.sramPut_kept
      | apply State.sramWr_kept | apply State.sramGet_kept | apply State.landRx_kept | apply kept_ite_fst
      | (apply kept_of_eq; assumption) | split | dsimp only

theorem State.meshLanding_kept {φ : Part → Bool} {s0 s : State} (p : Nat) (core : Nat) (bad : SramErrs) (hk : Kept φ
    s0 s) (hcores : φ .cores = false) (hregs : φ .regs = false) (hout : φ .out = false) (hseqs : φ .seqs = false)
    (husage : φ .usage = false) (hupds : φ .upds = false) (hwins : φ .wins = false) (hqueues : φ .queues = false)
    (hfrozen : φ .frozen = false) :
    Kept φ s0 (State.meshLanding s p core bad) := by
  unfold State.meshLanding
  with_reducible
    repeat'
      first
      | assumption | (intro _) | apply kept_ite | apply State.setSq_kept | apply State.beatFault_kept
      | apply State.advance_kept | apply State.usePorts_kept | apply State.landMesh_kept | apply keptE_ok
      | apply keptE_error | apply keptE_ite | (apply keptE_get; assumption) | apply kept_foldl | split | dsimp only

theorem State.loopMeet_kept {φ : Part → Bool} {s0 s : State} (p : Nat) (win : Nat) (hk : Kept φ s0 s) (hwins : φ .wins
    = false) :
    Kept φ s0 (State.loopMeet s p win) := by
  unfold State.loopMeet
  with_reducible
    repeat'
      first
      | assumption | (intro _) | apply kept_ite | apply State.setWin_kept | apply kept_ite_fst
      | (apply kept_of_eq; assumption) | split | dsimp only

theorem State.lltx_kept {φ : Part → Bool} {s0 s : State} (p : Nat) (b : Bundle) (hk : Kept φ s0 s) (hcores : φ .cores
    = false) (hregs : φ .regs = false) (hout : φ .out = false) (hseqs : φ .seqs = false) (husage : φ .usage = false)
    (hwins : φ .wins = false) (hqueues : φ .queues = false) (hfrozen : φ .frozen = false) :
    Kept φ s0 (State.lltx s p b) := by
  unfold State.lltx
  with_reducible
    repeat'
      first
      | assumption | (intro _) | apply kept_ite | apply State.csetSub_kept | apply State.csetAdd_kept
      | apply State.setWin_kept | apply State.bundleFault_kept | apply State.loopMeet_kept
      | (apply keptO_get; assumption) | apply kept_getD | apply keptO_ite | apply keptO_none | apply keptO_some
      | apply kept_foldl | split | dsimp only | apply kept_mk

theorem State.llrx_kept {φ : Part → Bool} {s0 s : State} (p : Nat) (b : Bundle) (hk : Kept φ s0 s) (hcores : φ .cores
    = false) (hregs : φ .regs = false) (hports : φ .ports = false) (hout : φ .out = false) (hseqs : φ .seqs = false)
    (husage : φ .usage = false) (hwins : φ .wins = false) (hqueues : φ .queues = false) (hfrozen : φ .frozen = false)
    :
    Kept φ s0 (State.llrx s p b) := by
  unfold State.llrx
  with_reducible
    repeat'
      first
      | assumption | (intro _) | apply kept_ite | apply State.csetSub_kept | apply State.csetAdd_kept
      | apply State.setWin_kept | apply State.sramWr_kept | apply State.bundleFault_kept | apply State.armed_kept
      | apply State.loopMeet_kept | (apply keptO_get; assumption) | apply kept_getD | apply keptO_ite
      | apply keptO_none | apply keptO_some | split | dsimp only | apply kept_mk

theorem State.loadLink_kept {φ : Part → Bool} {s0 s : State} (slot : Nat) (key : List Byte) (attr : Nat) (soft : Nat)
    (hard : Nat) (hk : Kept φ s0 s) (hkeys : φ .keys = false) :
    Kept φ s0 (State.loadLink s slot key attr soft hard) := by
  unfold State.loadLink
  with_reducible
    repeat'
      first
      | assumption | (intro _) | apply State.setKey_kept | dsimp only

theorem State.openGap_kept {φ : Part → Bool} {s0 s : State} (n : Nat) (seq : Nat) (hk : Kept φ s0 s) (hports : φ
    .ports = false) :
    Kept φ s0 (State.openGap s n seq) := by
  unfold State.openGap
  with_reducible
    repeat'
      first
      | assumption | (intro _) | apply State.setPort_kept | dsimp only

theorem State.ackWindows_kept {φ : Part → Bool} {s0 s : State} (n : Nat) (ack : Nat) (hk : Kept φ s0 s) (hregs : φ
    .regs = false) (husage : φ .usage = false) (hwins : φ .wins = false) :
    Kept φ s0 (State.ackWindows s n ack) := by
  unfold State.ackWindows
  with_reducible
    repeat'
      first
      | assumption | (intro _) | apply State.sepiaRec_kept | apply State.csetSub_kept | apply State.setWin_kept
      | apply kept_foldl | split | dsimp only

theorem State.showUsed_kept {φ : Part → Bool} {s0 s : State} (n : Nat) (hk : Kept φ s0 s) (hregs : φ .regs = false) :
    Kept φ s0 (State.showUsed s n) := by
  unfold State.showUsed
  with_reducible
    repeat'
      first
      | assumption | (intro _) | apply State.fput_kept | dsimp only

theorem State.takeHeader_kept {φ : Part → Bool} {s0 s : State} (n : Nat) (h : Nat) (hk : Kept φ s0 s) (hregs : φ .regs
    = false) (hports : φ .ports = false) (husage : φ .usage = false) (hwins : φ .wins = false) :
    Kept φ s0 (State.takeHeader s n h) := by
  unfold State.takeHeader
  with_reducible
    repeat'
      first
      | assumption | (intro _) | apply kept_ite | apply State.setPort_kept | apply State.ackWindows_kept
      | apply State.showUsed_kept | split | dsimp only

theorem State.consume_kept {φ : Part → Bool} {s0 s : State} (n : Nat) (seq : Nat) (hk : Kept φ s0 s) (hports : φ
    .ports = false) :
    Kept φ s0 (State.consume s n seq) := by
  unfold State.consume
  with_reducible
    repeat'
      first
      | assumption | (intro _) | apply State.setPort_kept | dsimp only

theorem State.strandWindows_kept {φ : Part → Bool} {s0 s : State} (n : Nat) (hk : Kept φ s0 s) (hwins : φ .wins =
    false) :
    Kept φ s0 (State.strandWindows s n) := by
  unfold State.strandWindows
  with_reducible
    repeat'
      first
      | assumption | (intro _) | apply State.setWin_kept | apply kept_foldl | dsimp only

theorem State.revokeLink_kept {φ : Part → Bool} {s0 s : State} (n : Nat) (hk : Kept φ s0 s) (hkeys : φ .keys = false)
    (hregs : φ .regs = false) :
    Kept φ s0 (State.revokeLink s n) := by
  unfold State.revokeLink
  with_reducible
    repeat'
      first
      | assumption | (intro _) | apply State.fput_kept | apply State.setKey_kept | apply kept_foldl | dsimp only

theorem State.showDrain_kept {φ : Part → Bool} {s0 s : State} (p : Nat) (hk : Kept φ s0 s) (hregs : φ .regs = false) :
    Kept φ s0 (State.showDrain s p) := by
  unfold State.showDrain
  with_reducible
    repeat'
      first
      | assumption | (intro _) | apply State.fput_kept | dsimp only

theorem State.endDrains_kept {φ : Part → Bool} {s0 s : State} (n : Nat) (hk : Kept φ s0 s) (hregs : φ .regs = false)
    (hlakes : φ .lakes = false) :
    Kept φ s0 (State.endDrains s n) := by
  unfold State.endDrains
  with_reducible
    repeat'
      first
      | assumption | (intro _) | apply kept_ite | apply State.fput_kept | apply State.setLake_kept
      | apply State.showDrain_kept | apply kept_foldl | split | dsimp only

theorem State.portDrop_kept {φ : Part → Bool} {s0 s : State} (n : Nat) (hk : Kept φ s0 s) (hkeys : φ .keys = false)
    (hregs : φ .regs = false) (hports : φ .ports = false) (hlakes : φ .lakes = false) (hwins : φ .wins = false) :
    Kept φ s0 (State.portDrop s n) := by
  unfold State.portDrop
  with_reducible
    repeat'
      first
      | assumption | (intro _) | apply State.fput_kept | apply State.setPort_kept | apply State.showUsed_kept
      | apply State.strandWindows_kept | apply State.revokeLink_kept | apply State.endDrains_kept | dsimp only

theorem State.trainEnter_kept {φ : Part → Bool} {s0 s : State} (n : Nat) (idx : Nat) (why : Nat) (hk : Kept φ s0 s)
    (hkeys : φ .keys = false) (hregs : φ .regs = false) (hports : φ .ports = false) (hlakes : φ .lakes = false) (hout
    : φ .out = false) (husage : φ .usage = false) (hwins : φ .wins = false) (hevents : φ .events = false) :
    Kept φ s0 (State.trainEnter s n idx why) := by
  unfold State.trainEnter
  with_reducible
    repeat'
      first
      | assumption | (intro _) | apply kept_ite | apply State.fput_kept | apply State.sepiaRec_kept
      | apply State.setPort_kept | apply State.irqLl_kept | apply State.portDrop_kept | split | dsimp only

theorem State.takeFrame_kept {φ : Part → Bool} {s0 s : State} (n : Nat) (seq : Nat) (b : List Byte) (hk : Kept φ s0 s)
    (hkeys : φ .keys = false) (hregs : φ .regs = false) (hports : φ .ports = false) (hlakes : φ .lakes = false) (hout
    : φ .out = false) (husage : φ .usage = false) (hwins : φ .wins = false) (hevents : φ .events = false) :
    Kept φ s0 (State.takeFrame s n seq b) := by
  unfold State.takeFrame
  with_reducible
    repeat'
      first
      | assumption | (intro _) | apply kept_ite | apply State.bump_kept | apply State.setPort_kept
      | apply State.meter_kept | apply State.irqLl_kept | apply State.bump64_kept | apply State.useKey_kept
      | apply State.openGap_kept | apply State.consume_kept | apply State.trainEnter_kept | apply kept_ite_fst
      | (apply kept_of_eq; assumption) | split | dsimp only

theorem State.linkReceive_kept {φ : Part → Bool} {s0 s : State} (n : Nat) (b : List Byte) (fec : Nat) (hk : Kept φ s0
    s) (hkeys : φ .keys = false) (hregs : φ .regs = false) (hports : φ .ports = false) (hlakes : φ .lakes = false)
    (hout : φ .out = false) (husage : φ .usage = false) (hwins : φ .wins = false) (hevents : φ .events = false) :
    Kept φ s0 (State.linkReceive s n b fec) := by
  unfold State.linkReceive
  with_reducible
    repeat'
      first
      | assumption | (intro _) | apply kept_ite | apply State.bump_kept | apply State.setPort_kept
      | apply State.bump64_kept | apply State.openGap_kept | apply State.takeHeader_kept | apply State.takeFrame_kept
      | split | dsimp only

theorem State.idleBlock_kept {φ : Part → Bool} {s0 s : State} (n : Nat) (b : List Byte) (hk : Kept φ s0 s) (hregs : φ
    .regs = false) (hports : φ .ports = false) (husage : φ .usage = false) (hwins : φ .wins = false) :
    Kept φ s0 (State.idleBlock s n b) := by
  unfold State.idleBlock
  with_reducible
    repeat'
      first
      | assumption | (intro _) | apply kept_ite | apply State.takeHeader_kept | split | dsimp only

theorem State.slotW_kept {φ : Part → Bool} {s0 s : State} (n : Nat) (w : Nat) (v : Word) (hk : Kept φ s0 s) (hregs : φ
    .regs = false) (hout : φ .out = false) (hevents : φ .events = false) :
    Kept φ s0 (State.slotW s n w v) := by
  unfold State.slotW
  with_reducible
    repeat'
      first
      | assumption | (intro _) | apply kept_ite | apply State.irqLl_kept | apply State.regWrite_kept | split
      | dsimp only

theorem State.rekeyTimer_kept {φ : Part → Bool} {s0 s : State} (n : Nat) (dir : Nat) (hk : Kept φ s0 s) (hregs : φ
    .regs = false) (hports : φ .ports = false) (hout : φ .out = false) (hevents : φ .events = false) :
    Kept φ s0 (State.rekeyTimer s n dir) := by
  unfold State.rekeyTimer
  with_reducible
    repeat'
      first
      | assumption | (intro _) | apply kept_ite | apply State.setPort_kept | apply State.irqLl_kept | split
      | dsimp only

theorem State.header_kept {φ : Part → Bool} {s0 s : State} (n : Nat) (seq : Nat) (kind : Nat) (hk : Kept φ s0 s)
    (hregs : φ .regs = false) (hports : φ .ports = false) :
    Kept φ s0 (State.header s n seq kind).1 := by
  unfold State.header
  with_reducible
    repeat'
      first
      | assumption | (intro _) | apply kept_ite | apply State.bump_kept | apply State.setPort_kept | apply kept_foldl
      | apply kept_ite_fst | apply kept_foldl_fst | (apply kept_of_eq; assumption) | split | dsimp only

theorem State.putBlock_kept {φ : Part → Bool} {s0 s : State} (n : Nat) (seq : Nat) (body : List Byte) (hk : Kept φ s0
    s) (hregs : φ .regs = false) (hports : φ .ports = false) (hout : φ .out = false) :
    Kept φ s0 (State.putBlock s n seq body) := by
  unfold State.putBlock
  with_reducible
    repeat'
      first
      | assumption | (intro _) | apply State.emit_kept | apply State.header_kept | (apply kept_of_eq; assumption)
      | split | dsimp only

theorem State.firstSend_kept {φ : Part → Bool} {s0 s : State} (n : Nat) (owner : Nat) (typ : Nat) (body : List Byte)
    (hk : Kept φ s0 s) (hregs : φ .regs = false) (hports : φ .ports = false) (hout : φ .out = false) :
    Kept φ s0 (State.firstSend s n owner typ body) := by
  unfold State.firstSend
  with_reducible
    repeat'
      first
      | assumption | (intro _) | apply State.setPort_kept | apply State.bump64_kept | apply State.showUsed_kept
      | apply State.putBlock_kept | dsimp only

theorem State.seal_kept {φ : Part → Bool} {s0 s : State} (n : Nat) (f : TxFrame) (hk : Kept φ s0 s) (hkeys : φ .keys =
    false) (hregs : φ .regs = false) (hports : φ .ports = false) (hout : φ .out = false) (husage : φ .usage = false)
    (hevents : φ .events = false) :
    Kept φ s0 (State.seal s n f) := by
  unfold State.seal
  with_reducible
    repeat'
      first
      | assumption | (intro _) | apply kept_ite | apply State.setPort_kept | apply State.meter_kept
      | apply State.irqLl_kept | apply State.useKey_kept | apply State.firstSend_kept | apply kept_ite_fst
      | (apply kept_of_eq; assumption) | split | dsimp only

theorem State.sendSpdm_kept {φ : Part → Bool} {s0 s : State} (n : Nat) (m : List Byte) (hk : Kept φ s0 s) (hports : φ
    .ports = false) :
    Kept φ s0 (State.sendSpdm s n m) := by
  unfold State.sendSpdm
  with_reducible
    repeat'
      first
      | assumption | (intro _) | apply kept_ite | apply State.setPort_kept | split | dsimp only

theorem State.keyUpdate_kept {φ : Part → Bool} {s0 s : State} (n : Nat) (key : List Byte) (msg : List Byte) (ok :
    Bool) (hk : Kept φ s0 s) (hkeys : φ .keys = false) (hregs : φ .regs = false) (hports : φ .ports = false) (husage :
    φ .usage = false) :
    Kept φ s0 (State.keyUpdate s n key msg ok) := by
  unfold State.keyUpdate
  with_reducible
    repeat'
      first
      | assumption | (intro _) | apply kept_ite | apply State.fput_kept | apply State.sepiaRec_kept
      | apply State.setPort_kept | apply State.loadLink_kept | apply State.sendSpdm_kept | apply kept_ite_fst
      | (apply kept_of_eq; assumption) | split | dsimp only

theorem State.trainOk_kept {φ : Part → Bool} {s0 s : State} (n : Nat) (hk : Kept φ s0 s) (hkeys : φ .keys = false)
    (hregs : φ .regs = false) (hports : φ .ports = false) (hlakes : φ .lakes = false) (hout : φ .out = false) (husage
    : φ .usage = false) (hwins : φ .wins = false) (hevents : φ .events = false) :
    Kept φ s0 (State.trainOk s n) := by
  unfold State.trainOk
  with_reducible
    repeat'
      first
      | assumption | (intro _) | apply kept_ite | apply State.trainEnter_kept | split | dsimp only

theorem State.sendNew_kept {φ : Part → Bool} {s0 s : State} (n : Nat) (p : Nat) (room : Nat) (bad : SramErrs) (hk :
    Kept φ s0 s) (hkeys : φ .keys = false) (hcores : φ .cores = false) (hregs : φ .regs = false) (hports : φ .ports =
    false) (hout : φ .out = false) (husage : φ .usage = false) (hupds : φ .upds = false) (hwins : φ .wins = false)
    (hevents : φ .events = false) :
    KeptP φ s0 (State.sendNew s n p room bad) := by
  unfold State.sendNew
  with_reducible
    repeat'
      first
      | assumption | (intro _) | apply kept_ite | apply State.count_kept | apply State.setPort_kept
      | apply State.setWin_kept | apply State.sramX_kept | apply State.seal_kept | apply keptP_none | apply keptP_ite
      | apply keptP_map | apply keptP_some' | (apply keptP_get; assumption) | apply kept_ite_fst
      | (apply kept_of_eq; assumption) | split | dsimp only

theorem State.sendOne_kept {φ : Part → Bool} {s0 s : State} (n : Nat) (owner : Nat) (room : Nat) (bad : SramErrs) (hk
    : Kept φ s0 s) (hkeys : φ .keys = false) (hcores : φ .cores = false) (hregs : φ .regs = false) (hports : φ .ports
    = false) (hout : φ .out = false) (husage : φ .usage = false) (hupds : φ .upds = false) (hwins : φ .wins = false)
    (hevents : φ .events = false) :
    KeptP φ s0 (State.sendOne s n owner room bad) := by
  unfold State.sendOne
  with_reducible
    repeat'
      first
      | assumption | (intro _) | apply kept_ite | apply State.bump_kept | apply State.setPort_kept
      | apply State.putBlock_kept | apply State.firstSend_kept | apply State.sendNew_kept | apply keptP_none
      | apply keptP_ite | apply keptP_map | apply keptP_some' | (apply keptP_get; assumption) | apply kept_ite_fst
      | (apply kept_of_eq; assumption) | split | dsimp only

theorem State.spdmOut_kept {φ : Part → Bool} {s0 s : State} (n : Nat) (hk : Kept φ s0 s) (hkeys : φ .keys = false)
    (hcores : φ .cores = false) (hregs : φ .regs = false) (hports : φ .ports = false) (hout : φ .out = false) (husage
    : φ .usage = false) (hupds : φ .upds = false) (hwins : φ .wins = false) (hevents : φ .events = false) :
    Kept φ s0 (State.spdmOut s n) := by
  unfold State.spdmOut
  with_reducible
    repeat'
      first
      | assumption | (intro _) | apply State.sendOne_kept | apply keptP_none | apply keptP_ite | apply keptP_map
      | apply keptP_some' | (apply keptP_get; assumption) | apply kept_foldl | apply kept_foldl_fst
      | (apply kept_of_eq; assumption) | split | dsimp only

theorem State.retrain_kept {φ : Part → Bool} {s0 s : State} (n : Nat) (hk : Kept φ s0 s) (hkeys : φ .keys = false)
    (hregs : φ .regs = false) (hports : φ .ports = false) (hlakes : φ .lakes = false) (hout : φ .out = false) (husage
    : φ .usage = false) (hwins : φ .wins = false) (hevents : φ .events = false) :
    Kept φ s0 (State.retrain s n) := by
  unfold State.retrain
  with_reducible
    repeat'
      first
      | assumption | (intro _) | apply kept_ite | apply State.bump_kept | apply State.irqLl_kept
      | apply State.trainEnter_kept | split | dsimp only

theorem State.portRetrain_kept {φ : Part → Bool} {s0 s : State} (n : Nat) (hk : Kept φ s0 s) (hkeys : φ .keys = false)
    (hregs : φ .regs = false) (hports : φ .ports = false) (hlakes : φ .lakes = false) (hout : φ .out = false) (husage
    : φ .usage = false) (hwins : φ .wins = false) (hevents : φ .events = false) :
    Kept φ s0 (State.portRetrain s n) := by
  unfold State.portRetrain
  with_reducible
    repeat'
      first
      | assumption | (intro _) | apply kept_ite | apply State.trainOk_kept | apply State.retrain_kept | split
      | dsimp only

theorem State.abortDrop_kept {φ : Part → Bool} {s0 s : State} (p : Nat) (hk : Kept φ s0 s) (hregs : φ .regs = false) :
    Kept φ s0 (State.abortDrop s p) := by
  unfold State.abortDrop
  with_reducible
    repeat'
      first
      | assumption | (intro _) | apply State.bump_kept | dsimp only

theorem State.takeInbox_kept {φ : Part → Bool} {s0 s : State} (n : Nat) (t : Nat) (f : State → RxFrame → State) (hk :
    Kept φ s0 s) (h_f : ∀ s a1, Kept φ s0 s → Kept φ s0 (f s a1)) (hports : φ .ports = false) :
    Kept φ s0 (State.takeInbox s n t f) := by
  unfold State.takeInbox
  with_reducible
    repeat'
      first
      | assumption | (intro _) | apply h_f | apply kept_ite | apply State.setPort_kept | split | dsimp only

theorem State.abortFrame_kept {φ : Part → Bool} {s0 s : State} (n : Nat) (hk : Kept φ s0 s) (hcores : φ .cores =
    false) (hregs : φ .regs = false) (hports : φ .ports = false) (hout : φ .out = false) (hseqs : φ .seqs = false)
    (husage : φ .usage = false) (hupds : φ .upds = false) (hwins : φ .wins = false) (hevents : φ .events = false) :
    Kept φ s0 (State.abortFrame s n) := by
  unfold State.abortFrame
  with_reducible
    repeat'
      first
      | assumption | (intro _) | apply kept_ite | apply State.winError_kept | apply State.failRx_kept
      | apply State.abortDrop_kept | apply State.takeInbox_kept | split | dsimp only

theorem State.armFrame_kept {φ : Part → Bool} {s0 s : State} (n : Nat) (hk : Kept φ s0 s) (hregs : φ .regs = false)
    (hports : φ .ports = false) (hwins : φ .wins = false) :
    Kept φ s0 (State.armFrame s n) := by
  unfold State.armFrame
  with_reducible
    repeat'
      first
      | assumption | (intro _) | apply kept_ite | apply State.setWin_kept | apply State.abortDrop_kept
      | apply State.takeInbox_kept | split | dsimp only

theorem State.nakReplay_kept {φ : Part → Bool} {s0 s : State} (n : Nat) (hk : Kept φ s0 s) (hkeys : φ .keys = false)
    (hregs : φ .regs = false) (hports : φ .ports = false) (hlakes : φ .lakes = false) (hout : φ .out = false) (husage
    : φ .usage = false) (hwins : φ .wins = false) (hevents : φ .events = false) :
    Kept φ s0 (State.nakReplay s n) := by
  unfold State.nakReplay
  with_reducible
    repeat'
      first
      | assumption | (intro _) | apply kept_ite | apply State.bump_kept | apply State.sepiaRec_kept
      | apply State.setPort_kept | apply State.retrain_kept | split | dsimp only

theorem State.dropBindings_kept {φ : Part → Bool} {s0 s : State} (p : Nat) (hk : Kept φ s0 s) (hregs : φ .regs =
    false) (hports : φ .ports = false) :
    Kept φ s0 (State.dropBindings s p) := by
  unfold State.dropBindings
  with_reducible
    repeat'
      first
      | assumption | (intro _) | apply State.fput_kept | apply State.bump_kept | apply State.setPort_kept
      | apply kept_foldl | dsimp only

theorem State.writeBinds_kept {φ : Part → Bool} {s0 s : State} (n : Nat) (l : List (Nat × Nat × Nat)) (hk : Kept φ s0
    s) (hregs : φ .regs = false) (hports : φ .ports = false) :
    Kept φ s0 (State.writeBinds s n l) := by
  unfold State.writeBinds
  with_reducible
    repeat'
      first
      | assumption | (intro _) | apply State.wr_kept | apply State.setPort_kept | apply kept_foldl | dsimp only

theorem State.spdmFrame_kept {φ : Part → Bool} {s0 s : State} (n : Nat) (binds : List (Nat × Nat × Nat)) (hk : Kept φ
    s0 s) (hregs : φ .regs = false) (hports : φ .ports = false) :
    Kept φ s0 (State.spdmFrame s n binds) := by
  unfold State.spdmFrame
  with_reducible
    repeat'
      first
      | assumption | (intro _) | apply kept_ite | apply State.setPort_kept | apply State.takeInbox_kept
      | apply State.writeBinds_kept | split | dsimp only

theorem State.trainFail_kept {φ : Part → Bool} {s0 s : State} (n : Nat) (why : Nat) (hk : Kept φ s0 s) (hkeys : φ
    .keys = false) (hregs : φ .regs = false) (hports : φ .ports = false) (hlakes : φ .lakes = false) (hout : φ .out =
    false) (husage : φ .usage = false) (hwins : φ .wins = false) (hevents : φ .events = false) :
    Kept φ s0 (State.trainFail s n why) := by
  unfold State.trainFail
  with_reducible
    repeat'
      first
      | assumption | (intro _) | apply kept_ite | apply State.setPort_kept | apply State.trainEnter_kept | split
      | dsimp only

theorem State.trainStep_kept {φ : Part → Bool} {s0 s : State} (n : Nat) (a : Nat) (f : State → State) (hk : Kept φ s0
    s) (h_f : ∀ s, Kept φ s0 s → Kept φ s0 (f s)) :
    Kept φ s0 (State.trainStep s n a f) := by
  unfold State.trainStep
  with_reducible
    repeat'
      first
      | assumption | (intro _) | apply h_f | apply kept_ite | split | dsimp only

theorem State.trainAuth_kept {φ : Part → Bool} {s0 s : State} (n : Nat) (a : LinkAuth) (hk : Kept φ s0 s) (hkeys : φ
    .keys = false) (hregs : φ .regs = false) (hports : φ .ports = false) (hlakes : φ .lakes = false) (hout : φ .out =
    false) (husage : φ .usage = false) (hwins : φ .wins = false) (hevents : φ .events = false) :
    Kept φ s0 (State.trainAuth s n a) := by
  unfold State.trainAuth
  with_reducible
    repeat'
      first
      | assumption | (intro _) | apply kept_ite | apply State.setPort_kept | apply State.loadLink_kept
      | apply State.trainOk_kept | apply State.writeBinds_kept | apply State.trainFail_kept
      | apply State.trainStep_kept | split | dsimp only

theorem State.sendLoop_kept {φ : Part → Bool} {s0 s : State} (n : Nat) (owner : Nat) (bad : SramErrs) (u4 : Nat) (u5 :
    Nat) (hk : Kept φ s0 s) (hkeys : φ .keys = false) (hcores : φ .cores = false) (hregs : φ .regs = false) (hports :
    φ .ports = false) (hout : φ .out = false) (husage : φ .usage = false) (hupds : φ .upds = false) (hwins : φ .wins =
    false) (hevents : φ .events = false) :
    Kept φ s0 (State.sendLoop s n owner bad u4 u5).1 := by
  induction u4 generalizing s u5 with
  | zero => exact hk
  | succ n ih =>
    unfold State.sendLoop
    split
    · exact hk
    · rename_i e
      exact ih _ (keptP_get e (State.sendOne_kept _ _ _ _ hk ‹_› ‹_› ‹_› ‹_› ‹_› ‹_› ‹_› ‹_› ‹_›))

theorem State.frameSend_kept {φ : Part → Bool} {s0 s : State} (n : Nat) (e : Nat) (bad : SramErrs) (hk : Kept φ s0 s)
    (hkeys : φ .keys = false) (hcores : φ .cores = false) (hregs : φ .regs = false) (hports : φ .ports = false) (hout
    : φ .out = false) (husage : φ .usage = false) (hupds : φ .upds = false) (hwins : φ .wins = false) (hevents : φ
    .events = false) :
    Kept φ s0 (State.frameSend s n e bad) := by
  unfold State.frameSend
  with_reducible
    repeat'
      first
      | assumption | (intro _) | apply kept_ite | apply State.emit_kept | apply State.header_kept
      | apply State.sendLoop_kept | apply kept_ite_fst | (apply kept_of_eq; assumption) | split | dsimp only

theorem State.creditCtl_kept {φ : Part → Bool} {s0 s : State} (n : Nat) (p : Nat) (hk : Kept φ s0 s) (hports : φ
    .ports = false) :
    Kept φ s0 (State.creditCtl s n p) := by
  unfold State.creditCtl
  with_reducible
    repeat'
      first
      | assumption | (intro _) | apply State.setPort_kept | dsimp only

theorem State.ctlFrame_kept {φ : Part → Bool} {s0 s : State} (n : Nat) (hk : Kept φ s0 s) (hregs : φ .regs = false)
    (hports : φ .ports = false) :
    Kept φ s0 (State.ctlFrame s n) := by
  unfold State.ctlFrame
  with_reducible
    repeat'
      first
      | assumption | (intro _) | apply kept_ite | apply State.setPort_kept | apply State.abortDrop_kept
      | apply State.takeInbox_kept | apply State.creditCtl_kept | split | dsimp only

theorem State.trainTimeout_kept {φ : Part → Bool} {s0 s : State} (n : Nat) (hk : Kept φ s0 s) (hkeys : φ .keys =
    false) (hregs : φ .regs = false) (hports : φ .ports = false) (hlakes : φ .lakes = false) (hout : φ .out = false)
    (husage : φ .usage = false) (hwins : φ .wins = false) (hevents : φ .events = false) :
    Kept φ s0 (State.trainTimeout s n) := by
  unfold State.trainTimeout
  with_reducible
    repeat'
      first
      | assumption | (intro _) | apply kept_ite | apply State.trainFail_kept | split | dsimp only

theorem State.linkStart_kept {φ : Part → Bool} {s0 s : State} (n : Nat) (hk : Kept φ s0 s) (hregs : φ .regs = false)
    (hports : φ .ports = false) :
    Kept φ s0 (State.linkStart s n) := by
  unfold State.linkStart
  with_reducible
    repeat'
      first
      | assumption | (intro _) | apply State.setPort_kept | apply State.showUsed_kept | dsimp only

theorem State.portRekey_kept {φ : Part → Bool} {s0 s : State} (n : Nat) (hk : Kept φ s0 s) (hports : φ .ports = false)
    :
    Kept φ s0 (State.portRekey s n) := by
  unfold State.portRekey
  with_reducible
    repeat'
      first
      | assumption | (intro _) | apply State.setPort_kept | dsimp only

theorem State.rekey_kept {φ : Part → Bool} {s0 s : State} (n : Nat) (dir : Nat) (key : List Byte) (msg : List Byte)
    (ver : List Byte) (ok : Bool) (hk : Kept φ s0 s) (hkeys : φ .keys = false) (hcores : φ .cores = false) (hregs : φ
    .regs = false) (hports : φ .ports = false) (hout : φ .out = false) (husage : φ .usage = false) (hupds : φ .upds =
    false) (hwins : φ .wins = false) (hevents : φ .events = false) :
    Kept φ s0 (State.rekey s n dir key msg ver ok) := by
  unfold State.rekey
  with_reducible
    repeat'
      first
      | assumption | (intro _) | apply kept_ite | apply State.fput_kept | apply State.sepiaRec_kept
      | apply State.setPort_kept | apply State.loadLink_kept | apply State.sendSpdm_kept | apply State.spdmOut_kept
      | split | dsimp only

theorem State.trainAlt_kept {φ : Part → Bool} {s0 s : State} (n : Nat) (hk : Kept φ s0 s) (hkeys : φ .keys = false)
    (hregs : φ .regs = false) (hports : φ .ports = false) (hlakes : φ .lakes = false) (hout : φ .out = false) (husage
    : φ .usage = false) (hwins : φ .wins = false) (hevents : φ .events = false) :
    Kept φ s0 (State.trainAlt s n) := by
  unfold State.trainAlt
  with_reducible
    repeat'
      first
      | assumption | (intro _) | apply State.trainEnter_kept | dsimp only

theorem State.trainCaps_kept {φ : Part → Bool} {s0 s : State} (n : Nat) (b : List Byte) (hk : Kept φ s0 s) (hkeys : φ
    .keys = false) (hregs : φ .regs = false) (hports : φ .ports = false) (hlakes : φ .lakes = false) (hout : φ .out =
    false) (husage : φ .usage = false) (hwins : φ .wins = false) (hevents : φ .events = false) :
    Kept φ s0 (State.trainCaps s n b) := by
  unfold State.trainCaps
  with_reducible
    repeat'
      first
      | assumption | (intro _) | apply kept_ite | apply State.wr_kept | apply State.emit_kept | apply State.fput_kept
      | apply State.takeHeader_kept | apply State.header_kept | apply State.trainOk_kept | apply State.trainFail_kept
      | apply State.trainStep_kept | apply State.trainAlt_kept | apply kept_ite_fst | (apply kept_of_eq; assumption)
      | split | dsimp only

theorem State.creditBulk_kept {φ : Part → Bool} {s0 s : State} (n : Nat) (p : Nat) (hk : Kept φ s0 s) (hports : φ
    .ports = false) :
    Kept φ s0 (State.creditBulk s n p) := by
  unfold State.creditBulk
  with_reducible
    repeat'
      first
      | assumption | (intro _) | apply State.setPort_kept | dsimp only

theorem State.laneLoss_kept {φ : Part → Bool} {s0 s : State} (n : Nat) (lane : Nat) (hk : Kept φ s0 s) (hkeys : φ
    .keys = false) (hregs : φ .regs = false) (hports : φ .ports = false) (hlakes : φ .lakes = false) (hout : φ .out =
    false) (husage : φ .usage = false) (hwins : φ .wins = false) (hevents : φ .events = false) :
    Kept φ s0 (State.laneLoss s n lane) := by
  unfold State.laneLoss
  with_reducible
    repeat'
      first
      | assumption | (intro _) | apply kept_ite | apply State.setPort_kept | apply State.retrain_kept | split
      | dsimp only

theorem State.portEnable_kept {φ : Part → Bool} {s0 s : State} (n : Nat) (en : Bool) (hk : Kept φ s0 s) (hkeys : φ
    .keys = false) (hregs : φ .regs = false) (hports : φ .ports = false) (hlakes : φ .lakes = false) (hout : φ .out =
    false) (husage : φ .usage = false) (hwins : φ .wins = false) (hevents : φ .events = false) :
    Kept φ s0 (State.portEnable s n en) := by
  unfold State.portEnable
  with_reducible
    repeat'
      first
      | assumption | (intro _) | apply kept_ite | apply State.fput_kept | apply State.trainEnter_kept
      | apply State.trainOk_kept | split | dsimp only

theorem State.trainLanes_kept {φ : Part → Bool} {s0 s : State} (n : Nat) (rx : Nat) (tx : Nat) (hk : Kept φ s0 s)
    (hkeys : φ .keys = false) (hregs : φ .regs = false) (hports : φ .ports = false) (hlakes : φ .lakes = false) (hout
    : φ .out = false) (husage : φ .usage = false) (hwins : φ .wins = false) (hevents : φ .events = false) :
    Kept φ s0 (State.trainLanes s n rx tx) := by
  unfold State.trainLanes
  with_reducible
    repeat'
      first
      | assumption | (intro _) | apply kept_ite | apply State.fput_kept | apply State.setPort_kept
      | apply State.trainOk_kept | apply State.trainFail_kept | apply State.trainStep_kept | apply State.trainAlt_kept
      | split | dsimp only

theorem State.schedFrame_kept {φ : Part → Bool} {s0 s : State} (n : Nat) (hk : Kept φ s0 s) (hcores : φ .cores =
    false) (hregs : φ .regs = false) (hports : φ .ports = false) (hout : φ .out = false) (hseqs : φ .seqs = false)
    (husage : φ .usage = false) (hupds : φ .upds = false) (hwins : φ .wins = false) (hevents : φ .events = false) :
    Kept φ s0 (State.schedFrame s n) := by
  unfold State.schedFrame
  with_reducible
    repeat'
      first
      | assumption | (intro _) | apply kept_ite | apply State.count_kept | apply State.bump64_kept
      | apply State.sramWr_kept | apply State.winError_kept | apply State.failRx_kept | apply State.landRx_kept
      | apply State.abortDrop_kept | apply State.takeInbox_kept | split | dsimp only

theorem State.trainActive_kept {φ : Part → Bool} {s0 s : State} (n : Nat) (hk : Kept φ s0 s) (hregs : φ .regs = false)
    (hports : φ .ports = false) (hout : φ .out = false) (husage : φ .usage = false) (hevents : φ .events = false) :
    Kept φ s0 (State.trainActive s n) := by
  unfold State.trainActive
  with_reducible
    repeat'
      first
      | assumption | (intro _) | apply kept_ite | apply State.bump_kept | apply State.sepiaRec_kept
      | apply State.setPort_kept | apply State.irqLl_kept | apply State.trainStep_kept | split | dsimp only

theorem State.emptySlot_kept {φ : Part → Bool} {s0 s : State} (n : Nat) (hk : Kept φ s0 s) (hkeys : φ .keys = false) :
    Kept φ s0 (State.emptySlot s n) := by
  unfold State.emptySlot
  with_reducible
    repeat'
      first
      | assumption | (intro _) | apply State.setKey_kept | dsimp only

theorem State.loadSlot_kept {φ : Part → Bool} {s0 s : State} (n : Nat) (key : List Byte) (attr : Nat) (owner : Nat)
    (soft : Nat) (hard : Nat) (model : Bool) (suffix : List Byte) (hk : Kept φ s0 s) (hkeys : φ .keys = false) :
    Kept φ s0 (State.loadSlot s n key attr owner soft hard model suffix) := by
  unfold State.loadSlot
  with_reducible
    repeat'
      first
      | assumption | (intro _) | apply kept_ite | apply State.setKey_kept | split | dsimp only

theorem State.loadPair_kept {φ : Part → Bool} {s0 s : State} (kid : Nat) (key : List Byte) (owner : Nat) (soft : Nat)
    (hard : Nat) (hk : Kept φ s0 s) (hkeys : φ .keys = false) :
    Kept φ s0 (State.loadPair s kid key owner soft hard) := by
  unfold State.loadPair
  with_reducible
    repeat'
      first
      | assumption | (intro _) | apply State.loadSlot_kept | dsimp only

theorem State.lakeKey_kept {φ : Part → Bool} {s0 s : State} (p : Nat) (kid : Nat) (seqno : Nat) (hk : Kept φ s0 s)
    (hkeys : φ .keys = false) (hregs : φ .regs = false) (hout : φ .out = false) :
    Kept φ s0 (State.lakeKey s p kid seqno).1 := by
  unfold State.lakeKey
  with_reducible
    repeat'
      first
      | assumption | (intro _) | apply kept_ite | apply State.useKey_kept | apply State.loadPair_kept
      | apply kept_ite_fst | (apply kept_of_eq; assumption) | split | dsimp only

theorem State.dropStale_kept {φ : Part → Bool} {s0 s : State} (p : Nat) (hk : Kept φ s0 s) (hkeys : φ .keys = false) :
    Kept φ s0 (State.dropStale s p) := by
  unfold State.dropStale
  with_reducible
    repeat'
      first
      | assumption | (intro _) | apply kept_ite | apply State.emptySlot_kept | apply kept_foldl | split | dsimp only

theorem State.cbGrant_kept {φ : Part → Bool} {s0 s : State} (p : Nat) (hk : Kept φ s0 s) (hqueues : φ .queues = false)
    :
    Kept φ s0 (State.cbGrant s p) := by
  unfold State.cbGrant
  with_reducible
    repeat'
      first
      | assumption | (intro _) | apply kept_ite | apply State.updBuf_kept | apply kept_ite_fst
      | (apply kept_of_eq; assumption) | split | dsimp only | apply kept_mk | apply kept_mk_queues

theorem State.queueCfgW_kept {φ : Part → Bool} {s0 s : State} (p : Nat) (q : Nat) (v : Word) (hk : Kept φ s0 s) (hregs
    : φ .regs = false) (hout : φ .out = false) (hqueues : φ .queues = false) :
    Kept φ s0 (State.queueCfgW s p q v) := by
  unfold State.queueCfgW
  with_reducible
    repeat'
      first
      | assumption | (intro _) | apply kept_ite | apply State.fput_kept | apply State.wn_kept
      | apply State.setQueue_kept | apply State.showQueue_kept | apply State.regWrite_kept | split | dsimp only

theorem State.packet_kept {φ : Part → Bool} {s0 s : State} (p : Nat) (q : Nat) (seq : Nat) (opc : Nat) (f : State →
    List Byte → State) (hk : Kept φ s0 s) (h_f : ∀ s a1, Kept φ s0 s → Kept φ s0 (f s a1)) (hregs : φ .regs = false)
    (hout : φ .out = false) (hqueues : φ .queues = false) :
    Kept φ s0 (State.packet s p q seq opc f) := by
  unfold State.packet
  with_reducible
    repeat'
      first
      | assumption | (intro _) | apply h_f | apply kept_ite | apply State.settle_kept | apply State.updBuf_kept
      | split | dsimp only

theorem State.setDma_kept {φ : Part → Bool} {s0 s : State} (e : Nat) (l : List Desc) (hk : Kept φ s0 s) (hdmas : φ
    .dmas = false) :
    Kept φ s0 (State.setDma s e l) := by
  unfold State.setDma
  with_reducible
    repeat'
      first
      | assumption | (intro _) | dsimp only | apply kept_mk | apply kept_mk_dmas

theorem State.pktDma_kept {φ : Part → Bool} {s0 s : State} (p : Nat) (q : Nat) (seq : Nat) (k : List Byte) (hk : Kept
    φ s0 s) (hdmas : φ .dmas = false) (husage : φ .usage = false) (hqueues : φ .queues = false) :
    Kept φ s0 (State.pktDma s p q seq k) := by
  unfold State.pktDma
  with_reducible
    repeat'
      first
      | assumption | (intro _) | apply kept_ite | apply State.sepiaRec_kept | apply State.updBuf_kept
      | apply State.setDma_kept | split | dsimp only

theorem State.pktWait_kept {φ : Part → Bool} {s0 s : State} (p : Nat) (q : Nat) (seq : Nat) (n : Nat) (hk : Kept φ s0
    s) (hregs : φ .regs = false) (hout : φ .out = false) (hqueues : φ .queues = false) :
    Kept φ s0 (State.pktWait s p q seq n) := by
  unfold State.pktWait
  with_reducible
    repeat'
      first
      | assumption | (intro _) | apply kept_ite | apply State.settle_kept | apply State.updBuf_kept | split
      | dsimp only

theorem State.queueCancel_kept {φ : Part → Bool} {s0 s : State} (p : Nat) (q : Nat) (hk : Kept φ s0 s) (hregs : φ
    .regs = false) (hout : φ .out = false) (hqueues : φ .queues = false) :
    Kept φ s0 (State.queueCancel s p q) := by
  unfold State.queueCancel
  with_reducible
    repeat'
      first
      | assumption | (intro _) | apply kept_ite | apply State.fput_kept | apply State.setQueue_kept
      | apply State.irqQue_kept | apply State.settle_kept | apply State.updBuf_kept | apply kept_ite_fst
      | (apply kept_of_eq; assumption) | split | dsimp only

theorem State.ringCtrlW_kept {φ : Part → Bool} {s0 s : State} (p : Nat) (i : Nat) (v : Nat) (hk : Kept φ s0 s) (hregs
    : φ .regs = false) (hringAdv : φ .ringAdv = false) :
    Kept φ s0 (State.ringCtrlW s p i v) := by
  unfold State.ringCtrlW
  with_reducible
    repeat'
      first
      | assumption | (intro _) | apply kept_ite | apply State.ringEod_kept | apply State.ringReset_kept | split
      | dsimp only

theorem State.pktRegWrite_kept {φ : Part → Bool} {s0 s : State} (p : Nat) (q : Nat) (seq : Nat) (off : Nat) (v : Nat)
    (hk : Kept φ s0 s) (hregs : φ .regs = false) (hout : φ .out = false) (hringAdv : φ .ringAdv = false) (hqueues : φ
    .queues = false) :
    Kept φ s0 (State.pktRegWrite s p q seq off v) := by
  unfold State.pktRegWrite
  with_reducible
    repeat'
      first
      | assumption | (intro _) | apply kept_ite | apply State.settle_kept | apply State.updBuf_kept
      | apply State.ringProdW_kept | apply State.ringCtrlW_kept | split | dsimp only

theorem State.queueDb_kept {φ : Part → Bool} {s0 s : State} (p : Nat) (q : Nat) (v : Nat) (hk : Kept φ s0 s) (hregs :
    φ .regs = false) (hout : φ .out = false) :
    Kept φ s0 (State.queueDb s p q v) := by
  unfold State.queueDb
  with_reducible
    repeat'
      first
      | assumption | (intro _) | apply kept_ite | apply State.setBits_kept | apply State.wn_kept
      | apply State.irqQue_kept | split | dsimp only

theorem State.queueBaseW_kept {φ : Part → Bool} {s0 s : State} (p : Nat) (q : Nat) (half : Nat) (v : Word) (hk : Kept
    φ s0 s) (hregs : φ .regs = false) (hout : φ .out = false) :
    Kept φ s0 (State.queueBaseW s p q half v) := by
  unfold State.queueBaseW
  with_reducible
    repeat'
      first
      | assumption | (intro _) | apply kept_ite | apply State.regWrite_kept | split | dsimp only

theorem State.pktSeqRun_kept {φ : Part → Bool} {s0 s : State} (p : Nat) (q : Nat) (seq : Nat) (cont : Bool) (errs :
    List ReadErr) (hk : Kept φ s0 s) (hmem : φ .mem = false) (hkeys : φ .keys = false) (hcores : φ .cores = false)
    (hregs : φ .regs = false) (hlakes : φ .lakes = false) (hout : φ .out = false) (hseqs : φ .seqs = false) (hpoison :
    φ .poison = false) (hchannels : φ .channels = false) (husage : φ .usage = false) (hupds : φ .upds = false)
    (hringAdv : φ .ringAdv = false) (hccs : φ .ccs = false) (hqueues : φ .queues = false) (hhaltReq : φ .haltReq =
    false) (hfrozen : φ .frozen = false) :
    Kept φ s0 (State.pktSeqRun s p q seq cont errs) := by
  unfold State.pktSeqRun
  with_reducible
    repeat'
      first
      | assumption | (intro _) | apply kept_ite | apply State.settle_kept | apply State.updBuf_kept
      | apply State.cmdReject_kept | apply State.seqRun_kept | apply State.seqCont_kept | split | dsimp only

theorem State.queueFetch_kept {φ : Part → Bool} {s0 s : State} (p : Nat) (q : Nat) (entry : HostRead) (cb : HostRead)
    (hk : Kept φ s0 s) (hregs : φ .regs = false) (hout : φ .out = false) (hqueues : φ .queues = false) :
    Kept φ s0 (State.queueFetch s p q entry cb) := by
  unfold State.queueFetch
  with_reducible
    repeat'
      first
      | assumption | (intro _) | apply kept_ite | apply State.setBits_kept | apply State.irq_kept
      | apply State.fput_kept | apply State.wn_kept | apply State.setQueue_kept | apply State.irqQue_kept
      | apply State.showQueue_kept | apply State.settle_kept | split | dsimp only

theorem State.contextKill_kept {φ : Part → Bool} {s0 s : State} (p : Nat) (n : Nat) (hk : Kept φ s0 s) (hregs : φ
    .regs = false) (hout : φ .out = false) (hqueues : φ .queues = false) :
    Kept φ s0 (State.contextKill s p n) := by
  unfold State.contextKill
  with_reducible
    repeat'
      first
      | assumption | (intro _) | apply kept_ite | apply State.fput_kept | apply State.setQueue_kept
      | apply State.settle_kept | apply kept_foldl | split | dsimp only

theorem State.fenceW_kept {φ : Part → Bool} {s0 s : State} (p : Nat) (n : Nat) (v : Nat) (hk : Kept φ s0 s) (hregs : φ
    .regs = false) (hout : φ .out = false) (hqueues : φ .queues = false) :
    Kept φ s0 (State.fenceW s p n v) := by
  unfold State.fenceW
  with_reducible
    repeat'
      first
      | assumption | (intro _) | apply kept_ite | apply State.fput_kept | apply State.fenceReset_kept
      | apply State.fenceSignal_kept | split | dsimp only

theorem State.colReject_kept {φ : Part → Bool} {s0 s : State} (p : Nat) (hk : Kept φ s0 s) (hregs : φ .regs = false) :
    Kept φ s0 (State.colReject s p) := by
  unfold State.colReject
  with_reducible
    repeat'
      first
      | assumption | (intro _) | apply State.setBits_kept | dsimp only

theorem State.colConfigW_kept {φ : Part → Bool} {s0 s : State} (p : Nat) (off : Nat) (v : Word) (hk : Kept φ s0 s)
    (hregs : φ .regs = false) (hout : φ .out = false) :
    Kept φ s0 (State.colConfigW s p off v) := by
  unfold State.colConfigW
  with_reducible
    repeat'
      first
      | assumption | (intro _) | apply kept_ite | apply State.regWrite_kept | apply State.colReject_kept | split
      | dsimp only

theorem State.ccRelease_kept {φ : Part → Bool} {s0 s : State} (p : Nat) (ch : Nat) (l : Launch) (hk : Kept φ s0 s)
    (hregs : φ .regs = false) (hccs : φ .ccs = false) :
    Kept φ s0 (State.ccRelease s p ch l) := by
  unfold State.ccRelease
  with_reducible
    repeat'
      first
      | assumption | (intro _) | apply kept_ite | apply State.fput_kept | apply State.setCc_kept | split | dsimp only

theorem State.ccError_kept {φ : Part → Bool} {s0 s : State} (p : Nat) (ch : Nat) (code : Nat) (l : Launch) (hk : Kept
    φ s0 s) (hregs : φ .regs = false) (hout : φ .out = false) (hccs : φ .ccs = false) (hqueues : φ .queues = false) :
    Kept φ s0 (State.ccError s p ch code l) := by
  unfold State.ccError
  with_reducible
    repeat'
      first
      | assumption | (intro _) | apply kept_ite | apply State.wr_kept | apply State.settle_kept
      | apply State.fenceError_kept | apply State.irqCol_kept | apply State.updBuf_kept | apply State.ccRelease_kept
      | split | dsimp only

theorem State.ccSend_kept {φ : Part → Bool} {s0 s : State} (p : Nat) (ch : Nat) (phase : Nat) (lport : Nat) (v : List
    Byte) (hk : Kept φ s0 s) (hports : φ .ports = false) (hccs : φ .ccs = false) :
    Kept φ s0 (State.ccSend s p ch phase lport v) := by
  unfold State.ccSend
  with_reducible
    repeat'
      first
      | assumption | (intro _) | apply kept_ite | apply State.setPort_kept | apply State.setCc_kept
      | apply kept_ite_fst | (apply kept_of_eq; assumption) | split | dsimp only

theorem State.ccEnter_kept {φ : Part → Bool} {s0 s : State} (p : Nat) (ch : Nat) (st : Nat) (hk : Kept φ s0 s) (hregs
    : φ .regs = false) (hports : φ .ports = false) (hout : φ .out = false) (hccs : φ .ccs = false) (hqueues : φ
    .queues = false) :
    Kept φ s0 (State.ccEnter s p ch st) := by
  unfold State.ccEnter
  with_reducible
    repeat'
      first
      | assumption | (intro _) | apply kept_ite | apply State.setCc_kept | apply State.ccError_kept
      | apply State.ccSend_kept | apply kept_foldl | split | dsimp only

theorem State.ccStart_kept {φ : Part → Bool} {s0 s : State} (p : Nat) (ch : Nat) (op : Nat) (bad : SramErrs) (hk :
    Kept φ s0 s) (hcores : φ .cores = false) (hregs : φ .regs = false) (hports : φ .ports = false) (hout : φ .out =
    false) (husage : φ .usage = false) (hupds : φ .upds = false) (hccs : φ .ccs = false) (hqueues : φ .queues = false)
    :
    Kept φ s0 (State.ccStart s p ch op bad) := by
  unfold State.ccStart
  with_reducible
    repeat'
      first
      | assumption | (intro _) | apply kept_ite | apply State.setCc_kept | apply State.sramX_kept
      | apply State.ccEnter_kept | apply kept_ite_fst | (apply kept_of_eq; assumption) | split | dsimp only

theorem State.ccPhase_kept {φ : Part → Bool} {s0 s : State} (p : Nat) (ch : Nat) (phase : Nat) (v : List Byte) (hk :
    Kept φ s0 s) (hccs : φ .ccs = false) :
    Kept φ s0 (State.ccPhase s p ch phase v) := by
  unfold State.ccPhase
  with_reducible
    repeat'
      first
      | assumption | (intro _) | apply State.setCc_kept | split | dsimp only

theorem State.ccComplete_kept {φ : Part → Bool} {s0 s : State} (p : Nat) (ch : Nat) (hk : Kept φ s0 s) (hcores : φ
    .cores = false) (hregs : φ .regs = false) (hout : φ .out = false) (hseqs : φ .seqs = false) (hccs : φ .ccs =
    false) (hqueues : φ .queues = false) :
    Kept φ s0 (State.ccComplete s p ch) := by
  unfold State.ccComplete
  with_reducible
    repeat'
      first
      | assumption | (intro _) | apply kept_ite | apply State.settle_kept | apply State.updBuf_kept
      | apply State.fenceSignal_kept | apply State.sramWr_kept | apply State.ccRelease_kept | split | dsimp only

theorem State.ccLeave_kept {φ : Part → Bool} {s0 s : State} (p : Nat) (ch : Nat) (v : List Byte) (hk : Kept φ s0 s)
    (hregs : φ .regs = false) (hports : φ .ports = false) (hout : φ .out = false) (hccs : φ .ccs = false) (hqueues : φ
    .queues = false) :
    Kept φ s0 (State.ccLeave s p ch v) := by
  unfold State.ccLeave
  with_reducible
    repeat'
      first
      | assumption | (intro _) | apply State.setCc_kept | apply State.ccEnter_kept | split | dsimp only

theorem State.ccFold_kept {φ : Part → Bool} {s0 s : State} (p : Nat) (ch : Nat) (l : Launch) (vs : List (List Byte))
    (hk : Kept φ s0 s) (hregs : φ .regs = false) (hports : φ .ports = false) (hout : φ .out = false) (hccs : φ .ccs =
    false) (hqueues : φ .queues = false) :
    Kept φ s0 (State.ccFold s p ch l vs) := by
  unfold State.ccFold
  with_reducible
    repeat'
      first
      | assumption | (intro _) | apply kept_ite | apply State.ccSend_kept | apply State.ccPhase_kept
      | apply State.ccLeave_kept | apply kept_foldl | split | dsimp only

theorem State.ccGrant_kept {φ : Part → Bool} {s0 s : State} (p : Nat) (ch : Nat) (hk : Kept φ s0 s) (hregs : φ .regs =
    false) (hccs : φ .ccs = false) :
    Kept φ s0 (State.ccGrant s p ch) := by
  unfold State.ccGrant
  with_reducible
    repeat'
      first
      | assumption | (intro _) | apply kept_ite | apply State.fput_kept | apply State.bump_kept
      | apply State.setCc_kept | split | dsimp only

theorem State.pktCc_kept {φ : Part → Bool} {s0 s : State} (p : Nat) (q : Nat) (seq : Nat) (d : List Byte) (hk : Kept φ
    s0 s) (hregs : φ .regs = false) (hout : φ .out = false) (hccs : φ .ccs = false) (hqueues : φ .queues = false) :
    Kept φ s0 (State.pktCc s p q seq d) := by
  unfold State.pktCc
  with_reducible
    repeat'
      first
      | assumption | (intro _) | apply kept_ite | apply State.updBuf_kept | apply State.setCc_kept
      | apply State.ccError_kept | split | dsimp only | apply kept_mk | apply kept_mk_ccs

theorem State.pktCcLaunch_kept {φ : Part → Bool} {s0 s : State} (p : Nat) (q : Nat) (seq : Nat) (hk : Kept φ s0 s)
    (hregs : φ .regs = false) (hout : φ .out = false) (hccs : φ .ccs = false) (hqueues : φ .queues = false) :
    Kept φ s0 (State.pktCcLaunch s p q seq) := by
  unfold State.pktCcLaunch
  with_reducible
    repeat'
      first
      | assumption | (intro _) | apply kept_ite | apply State.packet_kept | apply State.pktCc_kept | split
      | dsimp only

theorem State.ccTake_kept {φ : Part → Bool} {s0 s : State} (p : Nat) (l : Launch) (lport : Nat) (hk : Kept φ s0 s)
    (hports : φ .ports = false) :
    Kept φ s0 (State.ccTake s p l lport) := by
  unfold State.ccTake
  with_reducible
    repeat'
      first
      | assumption | (intro _) | apply kept_ite | apply State.setPort_kept | apply State.creditCtl_kept | split
      | dsimp only

theorem State.ccStage_kept {φ : Part → Bool} {s0 s : State} (p : Nat) (ch : Nat) (hk : Kept φ s0 s) (hregs : φ .regs =
    false) (hports : φ .ports = false) (hout : φ .out = false) (hccs : φ .ccs = false) (hqueues : φ .queues = false) :
    Kept φ s0 (State.ccStage s p ch) := by
  unfold State.ccStage
  with_reducible
    repeat'
      first
      | assumption | (intro _) | apply kept_ite | apply State.ccError_kept | apply State.ccFold_kept
      | apply State.ccTake_kept | apply kept_foldl | split | dsimp only

theorem State.ccTimeout_kept {φ : Part → Bool} {s0 s : State} (p : Nat) (ch : Nat) (hk : Kept φ s0 s) (hregs : φ .regs
    = false) (hout : φ .out = false) (hccs : φ .ccs = false) (hqueues : φ .queues = false) :
    Kept φ s0 (State.ccTimeout s p ch) := by
  unfold State.ccTimeout
  with_reducible
    repeat'
      first
      | assumption | (intro _) | apply kept_ite | apply State.ccError_kept | split | dsimp only

theorem State.setSlot_kept {φ : Part → Bool} {s0 s : State} (p : Nat) (j : Nat) (st : Nat) (hk : Kept φ s0 s) (hregs :
    φ .regs = false) :
    Kept φ s0 (State.setSlot s p j st) := by
  unfold State.setSlot
  with_reducible
    repeat'
      first
      | assumption | (intro _) | apply State.fput_kept | dsimp only

theorem State.snapEnd_kept {φ : Part → Bool} {s0 s : State} (p : Nat) (hk : Kept φ s0 s) (hregs : φ .regs = false)
    (hlakes : φ .lakes = false) :
    Kept φ s0 (State.snapEnd s p) := by
  unfold State.snapEnd
  with_reducible
    repeat'
      first
      | assumption | (intro _) | apply State.fput_kept | apply State.setLake_kept | apply State.setSlot_kept | split
      | dsimp only

theorem State.ckpAbort_kept {φ : Part → Bool} {s0 s : State} (p : Nat) (hk : Kept φ s0 s) (hcores : φ .cores = false)
    (hregs : φ .regs = false) (hports : φ .ports = false) (hlakes : φ .lakes = false) (hout : φ .out = false) (hseqs :
    φ .seqs = false) (husage : φ .usage = false) (hwins : φ .wins = false) (hccs : φ .ccs = false) (hqueues : φ
    .queues = false) (hfrozen : φ .frozen = false) :
    Kept φ s0 (State.ckpAbort s p) := by
  unfold State.ckpAbort
  with_reducible
    repeat'
      first
      | assumption | (intro _) | apply kept_ite | apply State.wr_kept | apply State.fput_kept | apply State.setSq_kept
      | apply State.abandon_kept | apply State.failBufs_kept | apply State.freezePart_kept | apply State.setPort_kept
      | apply State.setLake_kept | apply State.setWin_kept | apply State.enterStopped_kept
      | apply State.ccRelease_kept | apply State.snapEnd_kept | apply kept_foldl | split | dsimp only

theorem State.ckpErr_kept {φ : Part → Bool} {s0 s : State} (p : Nat) (code : Nat) (hk : Kept φ s0 s) (hregs : φ .regs
    = false) (hout : φ .out = false) :
    Kept φ s0 (State.ckpErr s p code) := by
  unfold State.ckpErr
  with_reducible
    repeat'
      first
      | assumption | (intro _) | apply kept_ite | apply State.fput_kept | apply State.irqCkp_kept | split | dsimp only

theorem State.ckpRead_kept {φ : Part → Bool} {s0 s : State} (errs : List ReadErr) (p : Nat) (kid : Nat) (rank : Nat)
    (u : Nat) (len : Nat) (hk : Kept φ s0 s) (hkeys : φ .keys = false) (hregs : φ .regs = false) (hout : φ .out =
    false) (hpoison : φ .poison = false) (hchannels : φ .channels = false) (hupds : φ .upds = false) (hhaltReq : φ
    .haltReq = false) :
    Kept φ s0 (State.ckpRead s errs p kid rank u len).1 := by
  unfold State.ckpRead
  with_reducible
    repeat'
      first
      | assumption | (intro _) | apply kept_ite | apply State.readRun_kept | apply State.checkRun_kept
      | apply kept_ite_fst | (apply kept_of_eq; assumption) | split | dsimp only

theorem manifestCheck_kept {φ : Part → Bool} {s0 : State} (p : Nat) (j : Nat) (st : Nat) (kid : Nat) (y : State × Nat
    × List Byte) (hk : Kept φ s0 y.1) :
    Kept φ s0 (manifestCheck p j st kid y).1 := by
  unfold manifestCheck
  with_reducible
    repeat'
      first
      | assumption | (intro _) | apply kept_ite | apply kept_ite_fst | (apply kept_of_eq; assumption) | split
      | dsimp only

theorem State.restoreCheck_kept {φ : Part → Bool} {s0 s : State} (p : Nat) (j : Nat) (errs : List ReadErr) (hk : Kept
    φ s0 s) (hkeys : φ .keys = false) (hregs : φ .regs = false) (hout : φ .out = false) (hpoison : φ .poison = false)
    (hchannels : φ .channels = false) (hupds : φ .upds = false) (hhaltReq : φ .haltReq = false) :
    Kept φ s0 (State.restoreCheck s p j errs).1 := by
  unfold State.restoreCheck
  with_reducible
    repeat'
      first
      | assumption | (intro _) | apply kept_ite | apply State.ckpRead_kept | apply manifestCheck_kept
      | apply kept_ite_fst | (apply kept_of_eq; assumption) | split | dsimp only

theorem State.ckpRestore_kept {φ : Part → Bool} {s0 s : State} (p : Nat) (j : Nat) (errs : List ReadErr) (hk : Kept φ
    s0 s) (hkeys : φ .keys = false) (hregs : φ .regs = false) (hlakes : φ .lakes = false) (hout : φ .out = false)
    (hpoison : φ .poison = false) (hchannels : φ .channels = false) (hupds : φ .upds = false) (hhaltReq : φ .haltReq =
    false) :
    Kept φ s0 (State.ckpRestore s p j errs) := by
  unfold State.ckpRestore
  with_reducible
    repeat'
      first
      | assumption | (intro _) | apply kept_ite | apply State.fput_kept | apply State.setLake_kept
      | apply State.ckpErr_kept | apply State.restoreCheck_kept | apply kept_ite_fst | (apply kept_of_eq; assumption)
      | split | dsimp only

theorem State.sendBulk_kept {φ : Part → Bool} {s0 s : State} (p : Nat) (n : Nat) (payload : List Byte) (hk : Kept φ s0
    s) (hports : φ .ports = false) :
    Kept φ s0 (State.sendBulk s p n payload) := by
  unfold State.sendBulk
  with_reducible
    repeat'
      first
      | assumption | (intro _) | apply State.setPort_kept | dsimp only

theorem State.drainFrom_kept {φ : Part → Bool} {s0 s : State} (p : Nat) (j : Nat) (again : Bool) (hk : Kept φ s0 s)
    (hregs : φ .regs = false) (hlakes : φ .lakes = false) :
    Kept φ s0 (State.drainFrom s p j again) := by
  unfold State.drainFrom
  with_reducible
    repeat'
      first
      | assumption | (intro _) | apply State.fput_kept | apply State.setLake_kept | apply State.showDrain_kept
      | dsimp only

theorem State.startDrain_kept {φ : Part → Bool} {s0 s : State} (p : Nat) (hk : Kept φ s0 s) (hregs : φ .regs = false)
    (hports : φ .ports = false) (hlakes : φ .lakes = false) :
    Kept φ s0 (State.startDrain s p) := by
  unfold State.startDrain
  with_reducible
    repeat'
      first
      | assumption | (intro _) | apply kept_ite | apply State.sendBulk_kept | apply State.drainFrom_kept | split
      | dsimp only

theorem State.ckpPull_kept {φ : Part → Bool} {s0 s : State} (p : Nat) (j : Nat) (hk : Kept φ s0 s) (hregs : φ .regs =
    false) (hports : φ .ports = false) (hlakes : φ .lakes = false) (hout : φ .out = false) :
    Kept φ s0 (State.ckpPull s p j) := by
  unfold State.ckpPull
  with_reducible
    repeat'
      first
      | assumption | (intro _) | apply kept_ite | apply State.fput_kept | apply State.setLake_kept
      | apply State.ckpErr_kept | apply State.sendBulk_kept | apply kept_ite_fst | (apply kept_of_eq; assumption)
      | split | dsimp only

theorem State.ckpCtrlW_kept {φ : Part → Bool} {s0 s : State} (p : Nat) (v : Word) (errs : List ReadErr) (hk : Kept φ
    s0 s) (hkeys : φ .keys = false) (hcores : φ .cores = false) (hregs : φ .regs = false) (hports : φ .ports = false)
    (hlakes : φ .lakes = false) (hout : φ .out = false) (hseqs : φ .seqs = false) (hpoison : φ .poison = false)
    (hchannels : φ .channels = false) (husage : φ .usage = false) (hupds : φ .upds = false) (hwins : φ .wins = false)
    (hccs : φ .ccs = false) (hqueues : φ .queues = false) (hhaltReq : φ .haltReq = false) (hfrozen : φ .frozen =
    false) :
    Kept φ s0 (State.ckpCtrlW s p v errs) := by
  unfold State.ckpCtrlW
  with_reducible
    repeat'
      first
      | assumption | (intro _) | apply kept_ite | apply State.regWrite_kept | apply State.ckpReject_kept
      | apply State.ckpAbort_kept | apply State.ckpRestore_kept | apply State.startDrain_kept
      | apply State.ckpPull_kept | split | dsimp only

theorem State.endDrain_kept {φ : Part → Bool} {s0 s : State} (p : Nat) (hk : Kept φ s0 s) (hregs : φ .regs = false)
    (hlakes : φ .lakes = false) :
    Kept φ s0 (State.endDrain s p) := by
  unfold State.endDrain
  with_reducible
    repeat'
      first
      | assumption | (intro _) | apply State.setLake_kept | apply State.showDrain_kept | dsimp only

theorem State.drainCfgW_kept {φ : Part → Bool} {s0 s : State} (p : Nat) (v : Word) (hk : Kept φ s0 s) (hregs : φ .regs
    = false) (hports : φ .ports = false) (hlakes : φ .lakes = false) (hout : φ .out = false) :
    Kept φ s0 (State.drainCfgW s p v) := by
  unfold State.drainCfgW
  with_reducible
    repeat'
      first
      | assumption | (intro _) | apply kept_ite | apply State.setLake_kept | apply State.regWrite_kept
      | apply State.startDrain_kept | apply State.endDrain_kept | split | dsimp only

theorem State.hostAck_kept {φ : Part → Bool} {s0 s : State} (p : Nat) (v : Word) (hk : Kept φ s0 s) (hregs : φ .regs =
    false) (hout : φ .out = false) :
    Kept φ s0 (State.hostAck s p v) := by
  unfold State.hostAck
  with_reducible
    repeat'
      first
      | assumption | (intro _) | apply kept_ite | apply State.irqCkp_kept | apply State.setSlot_kept | split
      | dsimp only

theorem State.ckpConfigW_kept {φ : Part → Bool} {s0 s : State} (p : Nat) (off : Nat) (v : Word) (errs : List ReadErr)
    (hk : Kept φ s0 s) (hkeys : φ .keys = false) (hcores : φ .cores = false) (hregs : φ .regs = false) (hports : φ
    .ports = false) (hlakes : φ .lakes = false) (hout : φ .out = false) (hseqs : φ .seqs = false) (hpoison : φ .poison
    = false) (hchannels : φ .channels = false) (husage : φ .usage = false) (hupds : φ .upds = false) (hwins : φ .wins
    = false) (hccs : φ .ccs = false) (hqueues : φ .queues = false) (hhaltReq : φ .haltReq = false) (hfrozen : φ
    .frozen = false) :
    Kept φ s0 (State.ckpConfigW s p off v errs) := by
  unfold State.ckpConfigW
  with_reducible
    repeat'
      first
      | assumption | (intro _) | apply kept_ite | apply State.regWrite_kept | apply State.ckpReject_kept
      | apply State.ckpCtrlW_kept | apply State.drainCfgW_kept | apply State.hostAck_kept | split | dsimp only

theorem State.dropDrain_kept {φ : Part → Bool} {s0 s : State} (p : Nat) (hk : Kept φ s0 s) (hregs : φ .regs = false)
    (hlakes : φ .lakes = false) :
    Kept φ s0 (State.dropDrain s p) := by
  unfold State.dropDrain
  with_reducible
    repeat'
      first
      | assumption | (intro _) | apply State.setLake_kept | apply State.endDrain_kept | dsimp only

theorem State.takeDrain_kept {φ : Part → Bool} {s0 s : State} (p : Nat) (k : Nat) (f : State → Nat → RxFrame → State)
    (hk : Kept φ s0 s) (h_f : ∀ s a1 a2, Kept φ s0 s → Kept φ s0 (f s a1 a2)) (hlakes : φ .lakes = false) :
    Kept φ s0 (State.takeDrain s p k f) := by
  unfold State.takeDrain
  with_reducible
    repeat'
      first
      | assumption | (intro _) | apply h_f | apply kept_ite | apply State.setLake_kept | split | dsimp only

theorem State.quiet_kept {φ : Part → Bool} {s0 s : State} (p : Nat) (hk : Kept φ s0 s) (hregs : φ .regs = false)
    (hlakes : φ .lakes = false) (hout : φ .out = false) :
    Kept φ s0 (State.quiet s p) := by
  unfold State.quiet
  with_reducible
    repeat'
      first
      | assumption | (intro _) | apply kept_ite | apply State.fput_kept | apply State.irqCkp_kept
      | apply State.setLake_kept | apply kept_foldl | split | dsimp only

theorem State.ckpWrite_kept {φ : Part → Bool} {s0 s : State} (p : Nat) (kid : Nat) (rank : Nat) (u : Nat) (v : List
    Byte) (hk : Kept φ s0 s) (hmem : φ .mem = false) (hkeys : φ .keys = false) (hregs : φ .regs = false) (hout : φ
    .out = false) (hpoison : φ .poison = false) (hchannels : φ .channels = false) (hupds : φ .upds = false) (hhaltReq
    : φ .haltReq = false) :
    Kept φ s0 (State.ckpWrite s p kid rank u v).1 := by
  unfold State.ckpWrite
  with_reducible
    repeat'
      first
      | assumption | (intro _) | apply kept_ite | apply State.writeRun_kept | apply State.checkRun_kept
      | apply kept_ite_fst | (apply kept_of_eq; assumption) | split | dsimp only

theorem State.snapStart_kept {φ : Part → Bool} {s0 s : State} (p : Nat) (hk : Kept φ s0 s) (hmem : φ .mem = false)
    (hkeys : φ .keys = false) (hregs : φ .regs = false) (hlakes : φ .lakes = false) (hout : φ .out = false) (hseqs : φ
    .seqs = false) (hpoison : φ .poison = false) (hchannels : φ .channels = false) (hupds : φ .upds = false) (hhaltReq
    : φ .haltReq = false) :
    Kept φ s0 (State.snapStart s p) := by
  unfold State.snapStart
  with_reducible
    repeat'
      first
      | assumption | (intro _) | apply kept_ite | apply State.fput_kept | apply State.setSq_kept | apply State.wn_kept
      | apply State.bump_kept | apply State.irqCkp_kept | apply State.setLake_kept | apply State.choose_kept
      | apply State.lakeKey_kept | apply State.setSlot_kept | apply State.snapEnd_kept | apply State.ckpErr_kept
      | apply State.ckpWrite_kept | apply kept_ite_fst | (apply kept_of_eq; assumption) | split | dsimp only

theorem State.commitDecision_kept {φ : Part → Bool} {s0 s : State} (p : Nat) (hk : Kept φ s0 s) (hmem : φ .mem =
    false) (hkeys : φ .keys = false) (hregs : φ .regs = false) (hlakes : φ .lakes = false) (hout : φ .out = false)
    (hseqs : φ .seqs = false) (hpoison : φ .poison = false) (hchannels : φ .channels = false) (husage : φ .usage =
    false) (hupds : φ .upds = false) (hringAdv : φ .ringAdv = false) (hqueues : φ .queues = false) (hhaltReq : φ
    .haltReq = false) :
    Kept φ s0 (State.commitDecision s p) := by
  unfold State.commitDecision
  with_reducible
    repeat'
      first
      | assumption | (intro _) | apply kept_ite | apply State.makeDecision_kept | apply State.afterDecision_kept
      | apply State.snapStart_kept | split | dsimp only

theorem State.setSlotStep_kept {φ : Part → Bool} {s0 s : State} (p : Nat) (j : Nat) (seq : Nat) (step : Nat) (hk :
    Kept φ s0 s) (hregs : φ .regs = false) :
    Kept φ s0 (State.setSlotStep s p j seq step) := by
  unfold State.setSlotStep
  with_reducible
    repeat'
      first
      | assumption | (intro _) | apply State.wn_kept | dsimp only

theorem State.snapTimer_kept {φ : Part → Bool} {s0 s : State} (p : Nat) (hk : Kept φ s0 s) (hlakes : φ .lakes = false)
    :
    Kept φ s0 (State.snapTimer s p) := by
  unfold State.snapTimer
  with_reducible
    repeat'
      first
      | assumption | (intro _) | apply kept_ite | apply State.setLake_kept | split | dsimp only

theorem State.openView_kept {φ : Part → Bool} {s0 s : State} (p : Nat) (hk : Kept φ s0 s) (hmem : φ .mem = false)
    (hregs : φ .regs = false) (hpoison : φ .poison = false) :
    Kept φ s0 (State.openView s p) := by
  unfold State.openView
  with_reducible
    repeat'
      first
      | assumption | (intro _) | apply State.putRaw_kept | apply kept_foldl | dsimp only

theorem State.bulkFrame_kept {φ : Part → Bool} {s0 s : State} (n : Nat) (hk : Kept φ s0 s) (hports : φ .ports = false)
    (hlakes : φ .lakes = false) :
    Kept φ s0 (State.bulkFrame s n) := by
  unfold State.bulkFrame
  with_reducible
    repeat'
      first
      | assumption | (intro _) | apply kept_ite | apply State.setLake_kept | apply State.takeInbox_kept
      | apply State.creditBulk_kept | apply kept_ite_fst | (apply kept_of_eq; assumption) | split | dsimp only

theorem State.setBslot_kept {φ : Part → Bool} {s0 s : State} (p : Nat) (b : Nat) (st : Nat) (hk : Kept φ s0 s) (hregs
    : φ .regs = false) :
    Kept φ s0 (State.setBslot s p b st) := by
  unfold State.setBslot
  with_reducible
    repeat'
      first
      | assumption | (intro _) | apply State.fput_kept | apply State.showDrain_kept | dsimp only

theorem State.noSpace_kept {φ : Part → Bool} {s0 s : State} (p : Nat) (n : Nat) (d : Nat) (slot : Nat) (seq : Nat)
    (step : Nat) (hk : Kept φ s0 s) (hregs : φ .regs = false) (hports : φ .ports = false) (hlakes : φ .lakes = false)
    :
    Kept φ s0 (State.noSpace s p n d slot seq step) := by
  unfold State.noSpace
  with_reducible
    repeat'
      first
      | assumption | (intro _) | apply State.setLake_kept | apply State.sendBulk_kept | apply State.setBslot_kept
      | dsimp only

theorem State.putPair_kept {φ : Part → Bool} {s0 s : State} (at' : Nat × Nat) (cipher : List Byte) (mac : List Byte)
    (hk : Kept φ s0 s) (hmem : φ .mem = false) (hregs : φ .regs = false) (hpoison : φ .poison = false) :
    Kept φ s0 (State.putPair s at' cipher mac) := by
  unfold State.putPair
  with_reducible
    repeat'
      first
      | assumption | (intro _) | apply State.putRaw_kept | dsimp only

theorem State.endPull_kept {φ : Part → Bool} {s0 s : State} (p : Nat) (hk : Kept φ s0 s) (hregs : φ .regs = false)
    (hlakes : φ .lakes = false) :
    Kept φ s0 (State.endPull s p) := by
  unfold State.endPull
  with_reducible
    repeat'
      first
      | assumption | (intro _) | apply State.fput_kept | apply State.setLake_kept | dsimp only

theorem State.drainEnd_kept {φ : Part → Bool} {s0 s : State} (p : Nat) (hk : Kept φ s0 s) (hmem : φ .mem = false)
    (hregs : φ .regs = false) (hports : φ .ports = false) (hlakes : φ .lakes = false) (hout : φ .out = false) (hpoison
    : φ .poison = false) :
    Kept φ s0 (State.drainEnd s p) := by
  unfold State.drainEnd
  with_reducible
    repeat'
      first
      | assumption | (intro _) | apply kept_ite | apply State.wn_kept | apply State.irqCkp_kept
      | apply State.setLake_kept | apply State.setSlot_kept | apply State.ckpErr_kept | apply State.takeDrain_kept
      | apply State.setSlotStep_kept | apply State.setBslot_kept | apply State.noSpace_kept | apply State.putPair_kept
      | apply State.endPull_kept | apply kept_foldl | apply kept_ite_fst | apply kept_foldl_fst
      | (apply kept_of_eq; assumption) | split | dsimp only

theorem padSector_kept {φ : Part → Bool} {s0 : State} (p : Nat) (kid : Nat) (base : Nat) (rank : Nat) (t : Nat) (y :
    State × Nat) (hk : Kept φ s0 y.1) (hmem : φ .mem = false) (hkeys : φ .keys = false) (hregs : φ .regs = false)
    (hout : φ .out = false) (hpoison : φ .poison = false) (hchannels : φ .channels = false) (hupds : φ .upds = false)
    (hhaltReq : φ .haltReq = false) :
    Kept φ s0 (padSector p kid base rank t y).1 := by
  unfold padSector
  with_reducible
    repeat'
      first
      | assumption | (intro _) | apply kept_ite | apply State.ckpWrite_kept | apply kept_ite_fst
      | (apply kept_of_eq; assumption) | split | dsimp only

theorem padRank_kept {φ : Part → Bool} {s0 : State} (p : Nat) (kid : Nat) (base : Nat) (rank : Nat) (l : List Nat) (y
    : State × Nat) (hk : Kept φ s0 y.1) (hmem : φ .mem = false) (hkeys : φ .keys = false) (hregs : φ .regs = false)
    (hout : φ .out = false) (hpoison : φ .poison = false) (hchannels : φ .channels = false) (hupds : φ .upds = false)
    (hhaltReq : φ .haltReq = false) :
    Kept φ s0 (padRank p kid base rank l y).1 := by
  unfold padRank
  with_reducible
    repeat'
      first
      | assumption | (intro _) | apply padSector_kept | apply kept_foldl | apply kept_foldl_fst
      | (apply kept_of_eq; assumption) | dsimp only

theorem State.drainAbandon_kept {φ : Part → Bool} {s0 s : State} (p : Nat) (hk : Kept φ s0 s) (hregs : φ .regs =
    false) (hlakes : φ .lakes = false) :
    Kept φ s0 (State.drainAbandon s p) := by
  unfold State.drainAbandon
  with_reducible
    repeat'
      first
      | assumption | (intro _) | apply kept_ite | apply State.takeDrain_kept | apply State.setBslot_kept | split
      | dsimp only

theorem State.drainPut_kept {φ : Part → Bool} {s0 s : State} (p : Nat) (d : Drain) (c : Nat) (frame : List Byte) (hk :
    Kept φ s0 s) (hregs : φ .regs = false) (hports : φ .ports = false) (hlakes : φ .lakes = false) :
    Kept φ s0 (State.drainPut s p d c frame) := by
  unfold State.drainPut
  with_reducible
    repeat'
      first
      | assumption | (intro _) | apply kept_ite | apply State.bump64_kept | apply State.setLake_kept
      | apply State.sendBulk_kept | split | dsimp only

theorem ckpMove_kept {φ : Part → Bool} {s0 : State} (x : State × Nat × List Byte) (p : Nat) (kid : Nat) (rank : Nat)
    (u : Nat) (hk : Kept φ s0 x.1) (hmem : φ .mem = false) (hkeys : φ .keys = false) (hregs : φ .regs = false) (hout :
    φ .out = false) (hpoison : φ .poison = false) (hchannels : φ .channels = false) (hupds : φ .upds = false)
    (hhaltReq : φ .haltReq = false) :
    Kept φ s0 (ckpMove x p kid rank u).1 := by
  unfold ckpMove
  with_reducible
    repeat'
      first
      | assumption | (intro _) | apply kept_ite | apply State.ckpWrite_kept | apply kept_ite_fst
      | (apply kept_of_eq; assumption) | split | dsimp only

theorem State.ckpCopy_kept {φ : Part → Bool} {s0 s : State} (errs : List ReadErr) (p : Nat) (kid : Nat) (u : Nat)
    (kid' : Nat) (u' : Nat) (len : Nat) (hk : Kept φ s0 s) (hmem : φ .mem = false) (hkeys : φ .keys = false) (hregs :
    φ .regs = false) (hout : φ .out = false) (hpoison : φ .poison = false) (hchannels : φ .channels = false) (hupds :
    φ .upds = false) (hhaltReq : φ .haltReq = false) :
    Kept φ s0 (State.ckpCopy s errs p kid u kid' u' len).1 := by
  unfold State.ckpCopy
  with_reducible
    repeat'
      first
      | assumption | (intro _) | apply kept_ite | apply State.ckpRead_kept | apply ckpMove_kept | apply kept_foldl
      | apply kept_ite_fst | apply kept_foldl_fst | (apply kept_of_eq; assumption) | split | dsimp only

theorem padStack_kept {φ : Part → Bool} {s0 : State} (p : Nat) (kid : Nat) (base : Nat) (y : State × Nat) (rank : Nat)
    (hk : Kept φ s0 y.1) (hmem : φ .mem = false) (hkeys : φ .keys = false) (hregs : φ .regs = false) (hout : φ .out =
    false) (hpoison : φ .poison = false) (hchannels : φ .channels = false) (hupds : φ .upds = false) (hhaltReq : φ
    .haltReq = false) :
    Kept φ s0 (padStack p kid base y rank).1 := by
  unfold padStack
  with_reducible
    repeat'
      first
      | assumption | (intro _) | apply padRank_kept | (apply kept_of_eq; assumption) | dsimp only

theorem State.snapPad_kept {φ : Part → Bool} {s0 : State} (s : State) (p : Nat) (j : Nat) (x : State × Nat) (hk : Kept
    φ s0 x.1) (hmem : φ .mem = false) (hkeys : φ .keys = false) (hregs : φ .regs = false) (hout : φ .out = false)
    (hpoison : φ .poison = false) (hchannels : φ .channels = false) (hupds : φ .upds = false) (hhaltReq : φ .haltReq =
    false) :
    Kept φ s0 (State.snapPad s p j x).1 := by
  unfold State.snapPad
  with_reducible
    repeat'
      first
      | assumption | (intro _) | apply padStack_kept | apply kept_foldl | apply kept_foldl_fst
      | (apply kept_of_eq; assumption) | dsimp only

theorem withRoot_kept {φ : Part → Bool} {s0 : State} (root : List Byte) (w : State × Nat) (hk : Kept φ s0 w.1) :
    Kept φ s0 (withRoot root w).1 := by
  unfold withRoot
  with_reducible
    repeat'
      first
      | assumption | (intro _) | (apply kept_of_eq; assumption) | dsimp only

theorem snapSeal_kept {φ : Part → Bool} {s0 : State} (p : Nat) (j : Nat) (kid : Nat) (base : Nat) (z : State × Nat)
    (hk : Kept φ s0 z.1) (hmem : φ .mem = false) (hkeys : φ .keys = false) (hregs : φ .regs = false) (hout : φ .out =
    false) (hpoison : φ .poison = false) (hchannels : φ .channels = false) (hupds : φ .upds = false) (hhaltReq : φ
    .haltReq = false) :
    Kept φ s0 (snapSeal p j kid base z).1 := by
  unfold snapSeal
  with_reducible
    repeat'
      first
      | assumption | (intro _) | apply kept_ite | apply State.ckpWrite_kept | apply withRoot_kept | apply kept_ite_fst
      | (apply kept_of_eq; assumption) | split | dsimp only

theorem State.snapWrite_kept {φ : Part → Bool} {s0 s : State} (p : Nat) (j : Nat) (errs : List ReadErr) (hk : Kept φ
    s0 s) (hmem : φ .mem = false) (hkeys : φ .keys = false) (hregs : φ .regs = false) (hout : φ .out = false) (hpoison
    : φ .poison = false) (hchannels : φ .channels = false) (hupds : φ .upds = false) (hhaltReq : φ .haltReq = false) :
    Kept φ s0 (State.snapWrite s p j errs).1 := by
  unfold State.snapWrite
  with_reducible
    repeat'
      first
      | assumption | (intro _) | apply State.ckpCopy_kept | apply State.snapPad_kept | apply snapSeal_kept
      | (apply kept_of_eq; assumption) | dsimp only

theorem State.snapComplete_kept {φ : Part → Bool} {s0 s : State} (p : Nat) (errs : List ReadErr) (hk : Kept φ s0 s)
    (hmem : φ .mem = false) (hkeys : φ .keys = false) (hregs : φ .regs = false) (hports : φ .ports = false) (hlakes :
    φ .lakes = false) (hout : φ .out = false) (hpoison : φ .poison = false) (hchannels : φ .channels = false) (hupds :
    φ .upds = false) (hhaltReq : φ .haltReq = false) :
    Kept φ s0 (State.snapComplete s p errs) := by
  unfold State.snapComplete
  with_reducible
    repeat'
      first
      | assumption | (intro _) | apply kept_ite | apply State.irqCkp_kept | apply State.setLake_kept
      | apply State.setSlot_kept | apply State.snapEnd_kept | apply State.ckpErr_kept | apply State.startDrain_kept
      | apply State.setSlotStep_kept | apply State.snapWrite_kept | apply kept_ite_fst
      | (apply kept_of_eq; assumption) | split | dsimp only

theorem State.readPairs_kept {φ : Part → Bool} {s0 s : State} (errs : List ReadErr) (p : Nat) (l : List (Nat × Nat))
    (hk : Kept φ s0 s) (hregs : φ .regs = false) (hout : φ .out = false) (hchannels : φ .channels = false) :
    Kept φ s0 (State.readPairs s errs p l).1 := by
  unfold State.readPairs
  with_reducible
    repeat'
      first
      | assumption | (intro _) | apply State.readOnce_kept | apply kept_foldl | apply kept_foldl_fst
      | (apply kept_of_eq; assumption) | dsimp only

theorem State.drainNext_kept {φ : Part → Bool} {s0 s : State} (p : Nat) (d : Drain) (errs : List ReadErr) (hk : Kept φ
    s0 s) (hregs : φ .regs = false) (hports : φ .ports = false) (hlakes : φ .lakes = false) (hout : φ .out = false)
    (hchannels : φ .channels = false) :
    Kept φ s0 (State.drainNext s p d errs) := by
  unfold State.drainNext
  with_reducible
    repeat'
      first
      | assumption | (intro _) | apply kept_ite | apply State.drainPut_kept | apply State.readPairs_kept
      | apply kept_ite_fst | (apply kept_of_eq; assumption) | split | dsimp only

theorem State.serveNext_kept {φ : Part → Bool} {s0 s : State} (p : Nat) (d : Drain) (errs : List ReadErr) (hk : Kept φ
    s0 s) (hregs : φ .regs = false) (hports : φ .ports = false) (hlakes : φ .lakes = false) (hout : φ .out = false)
    (hchannels : φ .channels = false) :
    Kept φ s0 (State.serveNext s p d errs) := by
  unfold State.serveNext
  with_reducible
    repeat'
      first
      | assumption | (intro _) | apply kept_ite | apply State.fput_kept | apply State.setLake_kept
      | apply State.sendBulk_kept | apply State.readPairs_kept | apply kept_ite_fst | (apply kept_of_eq; assumption)
      | split | dsimp only

theorem State.drainSend_kept {φ : Part → Bool} {s0 s : State} (p : Nat) (serve : Bool) (errs : List ReadErr) (hk :
    Kept φ s0 s) (hregs : φ .regs = false) (hports : φ .ports = false) (hlakes : φ .lakes = false) (hout : φ .out =
    false) (hchannels : φ .channels = false) :
    Kept φ s0 (State.drainSend s p serve errs) := by
  unfold State.drainSend
  with_reducible
    repeat'
      first
      | assumption | (intro _) | apply kept_ite | apply State.drainNext_kept | apply State.serveNext_kept | split
      | dsimp only

theorem State.readback_kept {φ : Part → Bool} {s0 s : State} (p : Nat) (errs : List ReadErr) (hk : Kept φ s0 s) (hregs
    : φ .regs = false) (hports : φ .ports = false) (hout : φ .out = false) (hchannels : φ .channels = false) :
    Kept φ s0 (State.readback s p errs) := by
  unfold State.readback
  with_reducible
    repeat'
      first
      | assumption | (intro _) | apply kept_ite | apply State.irqCkp_kept | apply State.sendBulk_kept
      | apply State.setBslot_kept | apply State.readPairs_kept | apply kept_ite_fst | (apply kept_of_eq; assumption)
      | split | dsimp only

theorem State.loadRings_kept {φ : Part → Bool} {s0 s : State} (p : Nat) (m : List Byte) (hk : Kept φ s0 s) (hregs : φ
    .regs = false) (hringAdv : φ .ringAdv = false) :
    Kept φ s0 (State.loadRings s p m) := by
  unfold State.loadRings
  with_reducible
    repeat'
      first
      | assumption | (intro _) | apply kept_ite | apply State.wn_kept | apply State.ringReset_kept | apply kept_foldl
      | split | dsimp only

theorem State.drainResult_kept {φ : Part → Bool} {s0 s : State} (p : Nat) (hk : Kept φ s0 s) (hregs : φ .regs = false)
    (hlakes : φ .lakes = false) (hout : φ .out = false) :
    Kept φ s0 (State.drainResult s p) := by
  unfold State.drainResult
  with_reducible
    repeat'
      first
      | assumption | (intro _) | apply kept_ite | apply State.irqCkp_kept | apply State.setSlot_kept
      | apply State.ckpErr_kept | apply State.drainFrom_kept | apply State.endDrain_kept | apply State.dropDrain_kept
      | apply State.takeDrain_kept | apply State.endPull_kept | split | dsimp only

theorem State.drainPull_kept {φ : Part → Bool} {s0 s : State} (p : Nat) (hk : Kept φ s0 s) (hregs : φ .regs = false)
    (hports : φ .ports = false) (hlakes : φ .lakes = false) :
    Kept φ s0 (State.drainPull s p) := by
  unfold State.drainPull
  with_reducible
    repeat'
      first
      | assumption | (intro _) | apply kept_ite | apply State.fput_kept | apply State.setLake_kept
      | apply State.sendBulk_kept | apply State.takeDrain_kept | split | dsimp only

theorem State.restoreCopy_kept {φ : Part → Bool} {s0 s : State} (p : Nat) (r : Restore) (errs : List ReadErr) (hk :
    Kept φ s0 s) (hmem : φ .mem = false) (hkeys : φ .keys = false) (hregs : φ .regs = false) (hout : φ .out = false)
    (hpoison : φ .poison = false) (hchannels : φ .channels = false) (hupds : φ .upds = false) (hhaltReq : φ .haltReq =
    false) :
    Kept φ s0 (State.restoreCopy s p r errs).1 := by
  unfold State.restoreCopy
  with_reducible
    repeat'
      first
      | assumption | (intro _) | apply State.wn_kept | apply State.ckpCopy_kept | (apply kept_of_eq; assumption)
      | dsimp only

theorem State.endRestore_kept {φ : Part → Bool} {s0 s : State} (p : Nat) (code : Nat) (hk : Kept φ s0 s) (hregs : φ
    .regs = false) (hlakes : φ .lakes = false) (hout : φ .out = false) :
    Kept φ s0 (State.endRestore s p code) := by
  unfold State.endRestore
  with_reducible
    repeat'
      first
      | assumption | (intro _) | apply kept_ite | apply State.fput_kept | apply State.irqCkp_kept
      | apply State.setLake_kept | apply State.ckpErr_kept | split | dsimp only

theorem State.loadStep_kept {φ : Part → Bool} {s0 s : State} (p : Nat) (m : List Byte) (hk : Kept φ s0 s) (hregs : φ
    .regs = false) :
    Kept φ s0 (State.loadStep s p m) := by
  unfold State.loadStep
  with_reducible
    repeat'
      first
      | assumption | (intro _) | apply State.fput_kept | apply State.wn_kept | apply State.setStep_kept
      | apply kept_foldl | dsimp only

theorem restoreLoad_kept {φ : Part → Bool} {s0 : State} (p : Nat) (r : Restore) (x : State × Nat × List Byte) (hk :
    Kept φ s0 x.1) (hregs : φ .regs = false) (hlakes : φ .lakes = false) (hout : φ .out = false) (hseqs : φ .seqs =
    false) (hringAdv : φ .ringAdv = false) :
    Kept φ s0 (restoreLoad p r x) := by
  unfold restoreLoad
  with_reducible
    repeat'
      first
      | assumption | (intro _) | apply kept_ite | apply State.fput_kept | apply State.setSq_kept
      | apply State.loadRings_kept | apply State.endRestore_kept | apply State.loadStep_kept | apply kept_ite_fst
      | (apply kept_of_eq; assumption) | split | dsimp only

theorem State.receiveNew_kept {φ : Part → Bool} {s0 s : State} (p : Nat) (n : Nat) (peer : Nat) (seq : Nat) (slot :
    Nat) (hk : Kept φ s0 s) (hregs : φ .regs = false) (hlakes : φ .lakes = false) :
    Kept φ s0 (State.receiveNew s p n peer seq slot).1 := by
  unfold State.receiveNew
  with_reducible
    repeat'
      first
      | assumption | (intro _) | apply State.wr_kept | apply State.wn_kept | apply State.setLake_kept
      | apply State.setBslot_kept | (apply kept_of_eq; assumption) | split | dsimp only

theorem restoreFrom_kept {φ : Part → Bool} {s0 : State} (p : Nat) (r : Restore) (errs : List ReadErr) (y : State ×
    Nat) (hk : Kept φ s0 y.1) (hmem : φ .mem = false) (hkeys : φ .keys = false) (hregs : φ .regs = false) (hlakes : φ
    .lakes = false) (hout : φ .out = false) (hseqs : φ .seqs = false) (hpoison : φ .poison = false) (hchannels : φ
    .channels = false) (hupds : φ .upds = false) (hringAdv : φ .ringAdv = false) (hhaltReq : φ .haltReq = false) :
    Kept φ s0 (restoreFrom p r errs y) := by
  unfold restoreFrom
  with_reducible
    repeat'
      first
      | assumption | (intro _) | apply kept_ite | apply State.ckpRead_kept | apply State.openView_kept
      | apply State.endRestore_kept | apply restoreLoad_kept | apply kept_ite_fst | (apply kept_of_eq; assumption)
      | split | dsimp only

theorem State.restoreComplete_kept {φ : Part → Bool} {s0 s : State} (p : Nat) (errs : List ReadErr) (hk : Kept φ s0 s)
    (hmem : φ .mem = false) (hkeys : φ .keys = false) (hregs : φ .regs = false) (hlakes : φ .lakes = false) (hout : φ
    .out = false) (hseqs : φ .seqs = false) (hpoison : φ .poison = false) (hchannels : φ .channels = false) (hupds : φ
    .upds = false) (hringAdv : φ .ringAdv = false) (hhaltReq : φ .haltReq = false) :
    Kept φ s0 (State.restoreComplete s p errs) := by
  unfold State.restoreComplete
  with_reducible
    repeat'
      first
      | assumption | (intro _) | apply kept_ite | apply State.restoreCopy_kept | apply restoreFrom_kept
      | apply kept_ite_fst | (apply kept_of_eq; assumption) | split | dsimp only

theorem State.fetchSectors_kept {φ : Part → Bool} {s0 s : State} (p : Nat) (j : Nat) (first : Nat) (l : List (List
    Byte × List Byte)) (hk : Kept φ s0 s) (hmem : φ .mem = false) (hregs : φ .regs = false) (hlakes : φ .lakes =
    false) (hpoison : φ .poison = false) :
    Kept φ s0 (State.fetchSectors s p j first l) := by
  unfold State.fetchSectors
  with_reducible
    repeat'
      first
      | assumption | (intro _) | apply kept_ite | apply State.setLake_kept | apply State.putPair_kept
      | apply kept_foldl | split | dsimp only

theorem State.drainData_kept {φ : Part → Bool} {s0 s : State} (p : Nat) (hk : Kept φ s0 s) (hmem : φ .mem = false)
    (hregs : φ .regs = false) (hports : φ .ports = false) (hlakes : φ .lakes = false) (hpoison : φ .poison = false) :
    Kept φ s0 (State.drainData s p) := by
  unfold State.drainData
  with_reducible
    repeat'
      first
      | assumption | (intro _) | apply kept_ite | apply State.setLake_kept | apply State.setSlot_kept
      | apply State.takeDrain_kept | apply State.noSpace_kept | apply State.receiveNew_kept
      | apply State.fetchSectors_kept | apply kept_ite_fst | (apply kept_of_eq; assumption) | split | dsimp only

theorem State.dmaRead_kept {φ : Part → Bool} {s0 s : State} (errs : List ReadErr) (p : Nat) (a : Nat) (len : Nat) (hk
    : Kept φ s0 s) (hkeys : φ .keys = false) (hregs : φ .regs = false) (hout : φ .out = false) (hpoison : φ .poison =
    false) (hchannels : φ .channels = false) (hupds : φ .upds = false) (hhaltReq : φ .haltReq = false) :
    Kept φ s0 (State.dmaRead s errs p a len).1 := by
  unfold State.dmaRead
  with_reducible
    repeat'
      first
      | assumption | (intro _) | apply kept_ite | apply State.readPiece_kept | apply kept_foldl | apply kept_ite_fst
      | apply kept_foldl_fst | (apply kept_of_eq; assumption) | split | dsimp only

theorem State.finish_kept {φ : Part → Bool} {s0 s : State} (e : Nat) (x : DmaEnd) (hk : Kept φ s0 s) (hdmas : φ .dmas
    = false) :
    Kept φ s0 (State.finish s e x) := by
  unfold State.finish
  with_reducible
    repeat'
      first
      | assumption | (intro _) | apply State.setDma_kept | dsimp only

theorem State.finishCode_kept {φ : Part → Bool} {s0 s : State} (e : Nat) (code : Nat) (moved : Nat) (hk : Kept φ s0 s)
    (hdmas : φ .dmas = false) :
    Kept φ s0 (State.finishCode s e code moved) := by
  unfold State.finishCode
  with_reducible
    repeat'
      first
      | assumption | (intro _) | apply State.finish_kept | dsimp only

theorem State.dmaForm_kept {φ : Part → Bool} {s0 s : State} (e : Nat) (form : Nat) (f : State → Desc → State) (hk :
    Kept φ s0 s) (h_f : ∀ s a1, Kept φ s0 s → Kept φ s0 (f s a1)) (hdmas : φ .dmas = false) :
    Kept φ s0 (State.dmaForm s e form f) := by
  unfold State.dmaForm
  with_reducible
    repeat'
      first
      | assumption | (intro _) | apply h_f | apply kept_ite | apply State.finishCode_kept | split | dsimp only

theorem State.importFail_kept {φ : Part → Bool} {s0 s : State} (e : Nat) (p : Nat) (j : Nat) (first : Nat) (code :
    Nat) (hk : Kept φ s0 s) (hdmas : φ .dmas = false) (hregs : φ .regs = false) :
    Kept φ s0 (State.importFail s e p j first code) := by
  unfold State.importFail
  with_reducible
    repeat'
      first
      | assumption | (intro _) | apply kept_ite | apply State.setSlot_kept | apply State.finishCode_kept | split
      | dsimp only

theorem State.lakeImport_kept {φ : Part → Bool} {s0 s : State} (e : Nat) (host : HostRead) (hk : Kept φ s0 s) (hmem :
    φ .mem = false) (hdmas : φ .dmas = false) (hregs : φ .regs = false) (hlakes : φ .lakes = false) (hpoison : φ
    .poison = false) :
    Kept φ s0 (State.lakeImport s e host) := by
  unfold State.lakeImport
  with_reducible
    repeat'
      first
      | assumption | (intro _) | apply kept_ite | apply State.setLake_kept | apply State.setSlot_kept
      | apply State.fetchSectors_kept | apply State.finishCode_kept | apply State.dmaForm_kept
      | apply State.importFail_kept | apply kept_ite_fst | (apply kept_of_eq; assumption) | split | dsimp only

theorem State.blocked_kept {φ : Part → Bool} {s0 s : State} (master : Nat) (part : Nat) (write : Bool) (hk : Kept φ s0
    s) (hregs : φ .regs = false) (hout : φ .out = false) (hupds : φ .upds = false) :
    Kept φ s0 (State.blocked s master part write) := by
  unfold State.blocked
  with_reducible
    repeat'
      first
      | assumption | (intro _) | apply kept_ite | apply State.wr_kept | apply State.bump_kept | apply State.setUp_kept
      | apply State.irqDbg_kept | split | dsimp only

theorem State.cipherOk_kept {φ : Part → Bool} {s0 s : State} (e : Nat) (x : Desc) (enc : Bool) (hk : Kept φ s0 s)
    (hregs : φ .regs = false) (hout : φ .out = false) (hupds : φ .upds = false) :
    Kept φ s0 (State.cipherOk s e x enc).1 := by
  unfold State.cipherOk
  with_reducible
    repeat'
      first
      | assumption | (intro _) | apply kept_ite | apply State.emit_kept | apply State.checkRun_kept
      | apply State.blocked_kept | apply kept_ite_fst | (apply kept_of_eq; assumption) | split | dsimp only

theorem State.gcmOut_kept {φ : Part → Bool} {s0 s : State} (e : Nat) (host : HostRead) (errs : List ReadErr) (hk :
    Kept φ s0 s) (hkeys : φ .keys = false) (hdmas : φ .dmas = false) (hregs : φ .regs = false) (hout : φ .out = false)
    (hpoison : φ .poison = false) (hchannels : φ .channels = false) (hupds : φ .upds = false) (hhaltReq : φ .haltReq =
    false) :
    Kept φ s0 (State.gcmOut s e host errs) := by
  unfold State.gcmOut
  with_reducible
    repeat'
      first
      | assumption | (intro _) | apply kept_ite | apply State.toHost_kept | apply State.useKey_kept
      | apply State.dmaRead_kept | apply State.finish_kept | apply State.finishCode_kept | apply State.dmaForm_kept
      | apply State.cipherOk_kept | apply kept_ite_fst | (apply kept_of_eq; assumption) | split | dsimp only

theorem State.pf0Desc_kept {φ : Part → Bool} {s0 s : State} (e : Nat) (d : List Byte) (write : Bool) (hk : Kept φ s0
    s) (hdmas : φ .dmas = false) (hregs : φ .regs = false) (hout : φ .out = false) (hupds : φ .upds = false) :
    Kept φ s0 (State.pf0Desc s e d write) := by
  unfold State.pf0Desc
  with_reducible
    repeat'
      first
      | assumption | (intro _) | apply kept_ite | apply State.emit_kept | apply State.finishCode_kept
      | apply State.blocked_kept | split | dsimp only

theorem State.admitted_kept {φ : Part → Bool} {s0 s : State} (p : Nat) (m : Master) (a : Nat) (len : Nat) (hk : Kept φ
    s0 s) (hregs : φ .regs = false) (hout : φ .out = false) (hupds : φ .upds = false) :
    Kept φ s0 (State.admitted s p m a len).1 := by
  unfold State.admitted
  with_reducible
    repeat'
      first
      | assumption | (intro _) | apply State.checkRun_kept | apply kept_foldl | apply kept_foldl_fst
      | (apply kept_of_eq; assumption) | split | dsimp only

theorem State.copyOut_kept {φ : Part → Bool} {s0 s : State} (e : Nat) (errs : List ReadErr) (hk : Kept φ s0 s) (hkeys
    : φ .keys = false) (hdmas : φ .dmas = false) (hregs : φ .regs = false) (hout : φ .out = false) (hpoison : φ
    .poison = false) (hchannels : φ .channels = false) (hupds : φ .upds = false) (hhaltReq : φ .haltReq = false) :
    Kept φ s0 (State.copyOut s e errs) := by
  unfold State.copyOut
  with_reducible
    repeat'
      first
      | assumption | (intro _) | apply kept_ite | apply State.toHost_kept | apply State.dmaRead_kept
      | apply State.finishCode_kept | apply State.dmaForm_kept | apply State.pf0Desc_kept | apply State.admitted_kept
      | apply kept_ite_fst | (apply kept_of_eq; assumption) | split | dsimp only

theorem State.gcmIn_kept {φ : Part → Bool} {s0 s : State} (e : Nat) (host : HostRead) (errs : List ReadErr) (hk : Kept
    φ s0 s) (hmem : φ .mem = false) (hkeys : φ .keys = false) (hdmas : φ .dmas = false) (hregs : φ .regs = false)
    (hout : φ .out = false) (hpoison : φ .poison = false) (hchannels : φ .channels = false) (hupds : φ .upds = false)
    (hhaltReq : φ .haltReq = false) :
    Kept φ s0 (State.gcmIn s e host errs) := by
  unfold State.gcmIn
  with_reducible
    repeat'
      first
      | assumption | (intro _) | apply kept_ite | apply State.useKey_kept | apply State.writeRun_kept
      | apply State.finishCode_kept | apply State.dmaForm_kept | apply State.cipherOk_kept | apply kept_ite_fst
      | (apply kept_of_eq; assumption) | split | dsimp only

theorem State.copyIn_kept {φ : Part → Bool} {s0 s : State} (e : Nat) (host : HostRead) (errs : List ReadErr) (hk :
    Kept φ s0 s) (hmem : φ .mem = false) (hkeys : φ .keys = false) (hdmas : φ .dmas = false) (hregs : φ .regs = false)
    (hout : φ .out = false) (hpoison : φ .poison = false) (hchannels : φ .channels = false) (hupds : φ .upds = false)
    (hhaltReq : φ .haltReq = false) :
    Kept φ s0 (State.copyIn s e host errs) := by
  unfold State.copyIn
  with_reducible
    repeat'
      first
      | assumption | (intro _) | apply kept_ite | apply State.writeRun_kept | apply State.finishCode_kept
      | apply State.dmaForm_kept | apply State.pf0Desc_kept | apply State.admitted_kept | apply kept_ite_fst
      | (apply kept_of_eq; assumption) | split | dsimp only

theorem State.xtsOut_kept {φ : Part → Bool} {s0 s : State} (e : Nat) (errs : List ReadErr) (hk : Kept φ s0 s) (hkeys :
    φ .keys = false) (hdmas : φ .dmas = false) (hregs : φ .regs = false) (hout : φ .out = false) (hpoison : φ .poison
    = false) (hchannels : φ .channels = false) (hupds : φ .upds = false) (hhaltReq : φ .haltReq = false) :
    Kept φ s0 (State.xtsOut s e errs) := by
  unfold State.xtsOut
  with_reducible
    repeat'
      first
      | assumption | (intro _) | apply kept_ite | apply State.toHost_kept | apply State.useKey_kept
      | apply State.dmaRead_kept | apply State.finishCode_kept | apply State.dmaForm_kept | apply State.cipherOk_kept
      | apply kept_ite_fst | (apply kept_of_eq; assumption) | split | dsimp only

theorem State.xtsIn_kept {φ : Part → Bool} {s0 s : State} (e : Nat) (host : HostRead) (errs : List ReadErr) (hk : Kept
    φ s0 s) (hmem : φ .mem = false) (hkeys : φ .keys = false) (hdmas : φ .dmas = false) (hregs : φ .regs = false)
    (hout : φ .out = false) (hpoison : φ .poison = false) (hchannels : φ .channels = false) (hupds : φ .upds = false)
    (hhaltReq : φ .haltReq = false) :
    Kept φ s0 (State.xtsIn s e host errs) := by
  unfold State.xtsIn
  with_reducible
    repeat'
      first
      | assumption | (intro _) | apply kept_ite | apply State.useKey_kept | apply State.writeRun_kept
      | apply State.finishCode_kept | apply State.dmaForm_kept | apply State.cipherOk_kept | apply kept_ite_fst
      | (apply kept_of_eq; assumption) | split | dsimp only

theorem State.lakeExport_kept {φ : Part → Bool} {s0 s : State} (e : Nat) (errs : List ReadErr) (hk : Kept φ s0 s)
    (hdmas : φ .dmas = false) (hregs : φ .regs = false) (hout : φ .out = false) (hchannels : φ .channels = false) :
    Kept φ s0 (State.lakeExport s e errs) := by
  unfold State.lakeExport
  with_reducible
    repeat'
      first
      | assumption | (intro _) | apply kept_ite | apply State.toHost_kept | apply State.readPairs_kept
      | apply State.finishCode_kept | apply State.dmaForm_kept | apply kept_ite_fst | (apply kept_of_eq; assumption)
      | split | dsimp only

theorem State.descDone_kept {φ : Part → Bool} {s0 s : State} (e : Nat) (hk : Kept φ s0 s) (hdmas : φ .dmas = false)
    (hregs : φ .regs = false) (hout : φ .out = false) (husage : φ .usage = false) (hqueues : φ .queues = false) :
    Kept φ s0 (State.descDone s e) := by
  unfold State.descDone
  with_reducible
    repeat'
      first
      | assumption | (intro _) | apply kept_ite | apply State.toHost_kept | apply State.settle_kept
      | apply State.sepiaRec_kept | apply State.updBuf_kept | apply State.ringProdW_kept | apply State.setDma_kept
      | apply State.dmaForm_kept | split | dsimp only

theorem State.setTenancy_kept {φ : Part → Bool} {s0 s : State} (p : Nat) (t : Tenancy) (hk : Kept φ s0 s) (htenancies
    : φ .tenancies = false) :
    Kept φ s0 (State.setTenancy s p t) := by
  unfold State.setTenancy
  with_reducible
    repeat'
      first
      | assumption | (intro _) | dsimp only | apply kept_mk | apply kept_mk_tenancies

theorem State.setDump_kept {φ : Part → Bool} {s0 s : State} (n : Nat) (on : Bool) (hk : Kept φ s0 s) (hregs : φ .regs
    = false) (hdumps : φ .dumps = false) :
    Kept φ s0 (State.setDump s n on) := by
  unfold State.setDump
  with_reducible
    repeat'
      first
      | assumption | (intro _) | apply kept_ite | apply State.fput_kept | split | dsimp only | apply kept_mk
      | apply kept_mk_dumps

theorem State.endDump_kept {φ : Part → Bool} {s0 s : State} (p : Nat) (code : Nat) (trunc : Bool) (hk : Kept φ s0 s)
    (hregs : φ .regs = false) (hout : φ .out = false) (hqueues : φ .queues = false) (hdumps : φ .dumps = false) :
    Kept φ s0 (State.endDump s p code trunc) := by
  unfold State.endDump
  with_reducible
    repeat'
      first
      | assumption | (intro _) | apply kept_ite | apply State.fput_kept | apply State.fenceError_kept
      | apply State.fenceSignal_kept | apply State.setDump_kept | split | dsimp only

theorem State.stopDump_kept {φ : Part → Bool} {s0 s : State} (p : Nat) (hk : Kept φ s0 s) (hregs : φ .regs = false)
    (hout : φ .out = false) (hqueues : φ .queues = false) (hdumps : φ .dumps = false) :
    Kept φ s0 (State.stopDump s p) := by
  unfold State.stopDump
  with_reducible
    repeat'
      first
      | assumption | (intro _) | apply kept_ite | apply State.endDump_kept | split | dsimp only

theorem State.setPart_kept {φ : Part → Bool} {s0 s : State} (p : Nat) (st : Nat) (tdi : Nat) (hk : Kept φ s0 s) (hregs
    : φ .regs = false) :
    Kept φ s0 (State.setPart s p st tdi) := by
  unfold State.setPart
  with_reducible
    repeat'
      first
      | assumption | (intro _) | apply State.wr_kept | apply State.fput_kept | dsimp only

theorem State.raiseEpoch_kept {φ : Part → Bool} {s0 s : State} (p : Nat) (hk : Kept φ s0 s) (hregs : φ .regs = false)
    (hout : φ .out = false) :
    Kept φ s0 (State.raiseEpoch s p) := by
  unfold State.raiseEpoch
  with_reducible
    repeat'
      first
      | assumption | (intro _) | apply State.wn_kept | apply State.keyAlert_kept | dsimp only

theorem State.irqPrt_kept {φ : Part → Bool} {s0 s : State} (base : Nat) (p : Nat) (hk : Kept φ s0 s) (hregs : φ .regs
    = false) (hout : φ .out = false) :
    Kept φ s0 (State.irqPrt s base p) := by
  unfold State.irqPrt
  with_reducible
    repeat'
      first
      | assumption | (intro _) | apply State.irq_kept | dsimp only

theorem State.insecure_kept {φ : Part → Bool} {s0 s : State} (i : Nat) (hk : Kept φ s0 s) (hregs : φ .regs = false)
    (hout : φ .out = false) :
    Kept φ s0 (State.insecure s i) := by
  unfold State.insecure
  with_reducible
    repeat'
      first
      | assumption | (intro _) | apply kept_ite | apply State.irq_kept | apply State.fput_kept | split | dsimp only

theorem State.lowerCause_kept {φ : Part → Bool} {s0 s : State} (p : Nat) (cause : Nat) (hk : Kept φ s0 s) (hregs : φ
    .regs = false) :
    Kept φ s0 (State.lowerCause s p cause) := by
  unfold State.lowerCause
  with_reducible
    repeat'
      first
      | assumption | (intro _) | apply kept_ite | apply State.fput_kept | split | dsimp only

theorem State.startRemoval_kept {φ : Part → Bool} {s0 s : State} (p : Nat) (cause : Nat) (hk : Kept φ s0 s) (hkeys : φ
    .keys = false) (hcores : φ .cores = false) (hdmas : φ .dmas = false) (hregs : φ .regs = false) (hports : φ .ports
    = false) (hlakes : φ .lakes = false) (hout : φ .out = false) (hseqs : φ .seqs = false) (hkeeper : φ .keeper =
    false) (husage : φ .usage = false) (htenancies : φ .tenancies = false) (hwins : φ .wins = false) (hccs : φ .ccs =
    false) (hqueues : φ .queues = false) (hfrozen : φ .frozen = false) (hdumps : φ .dumps = false) :
    Kept φ s0 (State.startRemoval s p cause) := by
  unfold State.startRemoval
  with_reducible
    repeat'
      first
      | assumption | (intro _) | apply kept_ite | apply State.fput_kept | apply State.failBufs_kept
      | apply State.setLake_kept | apply State.showDrain_kept | apply State.sendSpdm_kept
      | apply State.dropBindings_kept | apply State.dropStale_kept | apply State.setDma_kept
      | apply State.setSlot_kept | apply State.ckpAbort_kept | apply State.setTenancy_kept | apply State.stopDump_kept
      | apply State.setPart_kept | apply State.raiseEpoch_kept | apply State.irqPrt_kept | apply State.insecure_kept
      | apply State.lowerCause_kept | apply kept_foldl | split | dsimp only | apply kept_mk | apply kept_mk_keeper

theorem State.vfDisable_kept {φ : Part → Bool} {s0 s : State}  (hk : Kept φ s0 s) (hkeys : φ .keys = false) (hcores :
    φ .cores = false) (hdmas : φ .dmas = false) (hregs : φ .regs = false) (hports : φ .ports = false) (hlakes : φ
    .lakes = false) (hout : φ .out = false) (hseqs : φ .seqs = false) (hkeeper : φ .keeper = false) (husage : φ .usage
    = false) (htenancies : φ .tenancies = false) (hwins : φ .wins = false) (hccs : φ .ccs = false) (hqueues : φ
    .queues = false) (hfrozen : φ .frozen = false) (hdumps : φ .dumps = false) (hpcie : φ .pcie = false) :
    Kept φ s0 (State.vfDisable s) := by
  unfold State.vfDisable
  with_reducible
    repeat'
      first
      | assumption | (intro _) | apply State.startRemoval_kept | apply kept_foldl | dsimp only | apply kept_mk
      | apply kept_mk_pcie

theorem State.tdisp_kept {φ : Part → Bool} {s0 s : State} (fn : Nat) (code : Nat) (v : List Byte) (hk : Kept φ s0 s)
    (hout : φ .out = false) :
    Kept φ s0 (State.tdisp s fn code v) := by
  unfold State.tdisp
  with_reducible
    repeat'
      first
      | assumption | (intro _) | apply State.emit_kept | dsimp only

theorem State.tdispErr_kept {φ : Part → Bool} {s0 s : State} (fn : Nat) (code : Nat) (hk : Kept φ s0 s) (hout : φ .out
    = false) :
    Kept φ s0 (State.tdispErr s fn code) := by
  unfold State.tdispErr
  with_reducible
    repeat'
      first
      | assumption | (intro _) | apply State.tdisp_kept | dsimp only

theorem State.spdm_kept {φ : Part → Bool} {s0 s : State} (fn : Nat) (code : Nat) (v : List Byte) (hk : Kept φ s0 s)
    (hout : φ .out = false) :
    Kept φ s0 (State.spdm s fn code v) := by
  unfold State.spdm
  with_reducible
    repeat'
      first
      | assumption | (intro _) | apply State.emit_kept | dsimp only

theorem State.spdmErr_kept {φ : Part → Bool} {s0 s : State} (fn : Nat) (code : Nat) (hk : Kept φ s0 s) (hout : φ .out
    = false) :
    Kept φ s0 (State.spdmErr s fn code) := by
  unfold State.spdmErr
  with_reducible
    repeat'
      first
      | assumption | (intro _) | apply State.spdm_kept | dsimp only

theorem State.doe_kept {φ : Part → Bool} {s0 s : State} (fn : Nat) (f : State → State) (hk : Kept φ s0 s) (h_f : ∀ s,
    Kept φ s0 s → Kept φ s0 (f s)) (hout : φ .out = false) :
    Kept φ s0 (State.doe s fn f) := by
  unfold State.doe
  with_reducible
    repeat'
      first
      | assumption | (intro _) | apply h_f | apply kept_ite | apply State.spdmErr_kept | split | dsimp only

theorem State.lockIfc_kept {φ : Part → Bool} {s0 s : State} (p : Nat) (hk : Kept φ s0 s) (hregs : φ .regs = false)
    (hout : φ .out = false) (hkeeper : φ .keeper = false) (htenancies : φ .tenancies = false) :
    Kept φ s0 (State.lockIfc s p) := by
  unfold State.lockIfc
  with_reducible
    repeat'
      first
      | assumption | (intro _) | apply kept_ite | apply State.draw_kept | apply State.setTenancy_kept
      | apply State.setPart_kept | apply State.tdisp_kept | apply State.tdispErr_kept | apply State.doe_kept
      | apply kept_ite_fst | (apply kept_of_eq; assumption) | split | dsimp only

theorem State.setJoint_kept {φ : Part → Bool} {s0 s : State} (p : Nat) (v : Nat) (hk : Kept φ s0 s) (hregs : φ .regs =
    false) :
    Kept φ s0 (State.setJoint s p v) := by
  unfold State.setJoint
  with_reducible
    repeat'
      first
      | assumption | (intro _) | apply State.fput_kept | dsimp only

theorem State.wipeCores_kept {φ : Part → Bool} {s0 s : State} (p : Nat) (hk : Kept φ s0 s) (hcores : φ .cores = false)
    (husage : φ .usage = false) :
    Kept φ s0 (State.wipeCores s p) := by
  unfold State.wipeCores
  with_reducible
    repeat'
      first
      | assumption | (intro _) | (apply kept_of_eq; assumption) | dsimp only | apply kept_mk
      | apply kept_mk_cores_usage

theorem State.wipeStack_kept {φ : Part → Bool} {s0 s : State} (k : Nat) (hk : Kept φ s0 s) (hmem : φ .mem = false)
    (hregs : φ .regs = false) (hpoison : φ .poison = false) :
    Kept φ s0 (State.wipeStack s k) := by
  unfold State.wipeStack
  exact State.fput_kept _ _ _ (kept_mk_mem_poison hk (Memory.wf_clear _ _) hmem hpoison) hregs

theorem State.wipePart_kept {φ : Part → Bool} {s0 s : State} (p : Nat) (owner : Nat) (hk : Kept φ s0 s) (hmem : φ .mem
    = false) (hcores : φ .cores = false) (hregs : φ .regs = false) (hpoison : φ .poison = false) (husage : φ .usage =
    false) :
    Kept φ s0 (State.wipePart s p owner) := by
  unfold State.wipePart
  with_reducible
    repeat'
      first
      | assumption | (intro _) | apply State.sepiaRec_kept | apply State.wipeCores_kept | apply State.wipeStack_kept
      | apply kept_foldl | dsimp only

theorem State.showShare_kept {φ : Part → Bool} {s0 s : State} (p : Nat) (hk : Kept φ s0 s) (hregs : φ .regs = false) :
    Kept φ s0 (State.showShare s p) := by
  unfold State.showShare
  with_reducible
    repeat'
      first
      | assumption | (intro _) | apply kept_ite | apply State.wr_kept | apply State.fput_kept | split | dsimp only

theorem State.vfReset_kept {φ : Part → Bool} {s0 s : State} (p : Nat) (keep : Bool) (hk : Kept φ s0 s) (hregs : φ
    .regs = false) (hlakes : φ .lakes = false) (hshadows : φ .shadows = false) (hseqs : φ .seqs = false) (hchannels :
    φ .channels = false) (hkeeper : φ .keeper = false) (husage : φ .usage = false) (hupds : φ .upds = false) (hringAdv
    : φ .ringAdv = false) (hwins : φ .wins = false) (hccs : φ .ccs = false) (hqueues : φ .queues = false) :
    Kept φ s0 (State.vfReset s p keep) := by
  unfold State.vfReset
  with_reducible
    repeat'
      first
      | assumption | (intro _) | apply State.fput_kept | apply State.wn_kept | apply State.setStk_kept
      | apply State.showShare_kept | apply kept_foldl | dsimp only | apply kept_mk
      | apply kept_mk_regs_lakes_shadows_seqs_channels_keeper_usage_upds_ringAdv_wins_ccs_queues

theorem State.removalDone_kept {φ : Part → Bool} {s0 s : State} (p : Nat) (hk : Kept φ s0 s) (hmem : φ .mem = false)
    (hcores : φ .cores = false) (hregs : φ .regs = false) (hlakes : φ .lakes = false) (hmtr : φ .mtr = false)
    (hshadows : φ .shadows = false) (hout : φ .out = false) (hseqs : φ .seqs = false) (hpoison : φ .poison = false)
    (hchannels : φ .channels = false) (hkeeper : φ .keeper = false) (husage : φ .usage = false) (htenancies : φ
    .tenancies = false) (hupds : φ .upds = false) (hringAdv : φ .ringAdv = false) (hwins : φ .wins = false) (hccs : φ
    .ccs = false) (hqueues : φ .queues = false) (hevents : φ .events = false) (hpcie : φ .pcie = false) :
    Kept φ s0 (State.removalDone s p) := by
  unfold State.removalDone
  with_reducible
    repeat'
      first
      | assumption | (intro _) | apply kept_ite | apply State.fput_kept | apply State.tenancyClose_kept
      | apply State.setTenancy_kept | apply State.setPart_kept | apply State.irqPrt_kept | apply State.setJoint_kept
      | apply State.wipePart_kept | apply State.vfReset_kept | split | dsimp only | apply kept_mk
      | apply kept_mk_keeper | apply kept_mk_pcie

theorem State.setMordant_kept {φ : Part → Bool} {s0 s : State} (m : Mordant) (hk : Kept φ s0 s) (hkeeper : φ .keeper =
    false) :
    Kept φ s0 (State.setMordant s m) := by
  unfold State.setMordant
  with_reducible
    repeat'
      first
      | assumption | (intro _) | dsimp only | apply kept_mk | apply kept_mk_keeper

theorem State.getMeas_kept {φ : Part → Bool} {s0 s : State} (fn : Nat) (idx : Nat) (sig : Bool) (tr : List Byte) (hk :
    Kept φ s0 s) (hout : φ .out = false) :
    Kept φ s0 (State.getMeas s fn idx sig tr) := by
  unfold State.getMeas
  with_reducible
    repeat'
      first
      | assumption | (intro _) | apply kept_ite | apply State.spdm_kept | apply State.spdmErr_kept
      | apply State.doe_kept | split | dsimp only

theorem State.layoutW_kept {φ : Part → Bool} {s0 s : State} (v : Word) (hk : Kept φ s0 s) (hkeys : φ .keys = false)
    (hregs : φ .regs = false) (hports : φ .ports = false) (hout : φ .out = false) :
    Kept φ s0 (State.layoutW s v) := by
  unfold State.layoutW
  with_reducible
    repeat'
      first
      | assumption | (intro _) | apply kept_ite | apply State.wr_kept | apply State.setBits_kept
      | apply State.fput_kept | apply State.wn_kept | apply State.dropBindings_kept | apply State.dropStale_kept
      | apply State.raiseEpoch_kept | apply State.showShare_kept | apply kept_foldl | split | dsimp only

theorem State.ifcReport_kept {φ : Part → Bool} {s0 s : State} (p : Nat) (hk : Kept φ s0 s) (hout : φ .out = false) :
    Kept φ s0 (State.ifcReport s p) := by
  unfold State.ifcReport
  with_reducible
    repeat'
      first
      | assumption | (intro _) | apply kept_ite | apply State.tdisp_kept | apply State.tdispErr_kept
      | apply State.doe_kept | split | dsimp only

theorem State.noticeIn_kept {φ : Part → Bool} {s0 s : State} (n : Nat) (peer : Nat) (hk : Kept φ s0 s) (hregs : φ
    .regs = false) (hout : φ .out = false) :
    Kept φ s0 (State.noticeIn s n peer) := by
  unfold State.noticeIn
  with_reducible
    repeat'
      first
      | assumption | (intro _) | apply kept_ite | apply State.setBits_kept | apply State.emit_kept
      | apply State.fput_kept | apply kept_foldl | split | dsimp only

theorem State.mordantReport_kept {φ : Part → Bool} {s0 s : State} (p : Nat) (id : Nat) (hk : Kept φ s0 s) (hout : φ
    .out = false) :
    Kept φ s0 (State.mordantReport s p id) := by
  unfold State.mordantReport
  with_reducible
    repeat'
      first
      | assumption | (intro _) | apply kept_ite | apply State.spdm_kept | apply State.spdmErr_kept
      | apply State.doe_kept | split | dsimp only

theorem State.admitted'_kept {φ : Part → Bool} {s0 s : State} (p : Nat) (hk : Kept φ s0 s) (hmem : φ .mem = false)
    (hcores : φ .cores = false) (hregs : φ .regs = false) (hlakes : φ .lakes = false) (hshadows : φ .shadows = false)
    (hout : φ .out = false) (hseqs : φ .seqs = false) (hpoison : φ .poison = false) (hchannels : φ .channels = false)
    (hkeeper : φ .keeper = false) (husage : φ .usage = false) (hupds : φ .upds = false) (hringAdv : φ .ringAdv =
    false) (hwins : φ .wins = false) (hccs : φ .ccs = false) (hqueues : φ .queues = false) :
    Kept φ s0 (State.admitted' s p) := by
  unfold State.admitted'
  with_reducible
    repeat'
      first
      | assumption | (intro _) | apply kept_ite | apply State.setPart_kept | apply State.irqPrt_kept
      | apply State.wipePart_kept | apply State.vfReset_kept | split | dsimp only

theorem State.startIfc_kept {φ : Part → Bool} {s0 s : State} (p : Nat) (nonce : List Byte) (hk : Kept φ s0 s) (hregs :
    φ .regs = false) (hout : φ .out = false) (htenancies : φ .tenancies = false) :
    Kept φ s0 (State.startIfc s p nonce) := by
  unfold State.startIfc
  with_reducible
    repeat'
      first
      | assumption | (intro _) | apply kept_ite | apply State.setTenancy_kept | apply State.setPart_kept
      | apply State.irqPrt_kept | apply State.tdisp_kept | apply State.tdispErr_kept | apply State.doe_kept | split
      | dsimp only

theorem State.flr_kept {φ : Part → Bool} {s0 s : State} (fn : Nat) (hk : Kept φ s0 s) (hkeys : φ .keys = false)
    (hcores : φ .cores = false) (hdmas : φ .dmas = false) (hregs : φ .regs = false) (hports : φ .ports = false)
    (hlakes : φ .lakes = false) (hout : φ .out = false) (hseqs : φ .seqs = false) (hkeeper : φ .keeper = false)
    (husage : φ .usage = false) (htenancies : φ .tenancies = false) (hwins : φ .wins = false) (hccs : φ .ccs = false)
    (hqueues : φ .queues = false) (hfrozen : φ .frozen = false) (hdumps : φ .dumps = false) (hpcie : φ .pcie = false)
    :
    Kept φ s0 (State.flr s fn) := by
  unfold State.flr
  with_reducible
    repeat'
      first
      | assumption | (intro _) | apply kept_ite | apply State.startRemoval_kept | apply kept_foldl | split
      | dsimp only | apply kept_mk | apply kept_mk_pcie

theorem State.stopIfc_kept {φ : Part → Bool} {s0 s : State} (p : Nat) (hk : Kept φ s0 s) (hkeys : φ .keys = false)
    (hcores : φ .cores = false) (hdmas : φ .dmas = false) (hregs : φ .regs = false) (hports : φ .ports = false)
    (hlakes : φ .lakes = false) (hout : φ .out = false) (hseqs : φ .seqs = false) (hkeeper : φ .keeper = false)
    (husage : φ .usage = false) (htenancies : φ .tenancies = false) (hwins : φ .wins = false) (hccs : φ .ccs = false)
    (hqueues : φ .queues = false) (hfrozen : φ .frozen = false) (hdumps : φ .dumps = false) :
    Kept φ s0 (State.stopIfc s p) := by
  unfold State.stopIfc
  with_reducible
    repeat'
      first
      | assumption | (intro _) | apply State.startRemoval_kept | apply State.tdisp_kept | apply State.doe_kept
      | dsimp only

theorem State.keyExchange_kept {φ : Part → Bool} {s0 s : State} (fn : Nat) (id : Nat) (pq : Bool) (secret : List Byte)
    (cert : List Byte) (hk : Kept φ s0 s) (hout : φ .out = false) (hkeeper : φ .keeper = false) :
    Kept φ s0 (State.keyExchange s fn id pq secret cert) := by
  unfold State.keyExchange
  with_reducible
    repeat'
      first
      | assumption | (intro _) | apply kept_ite | apply State.draw_kept | apply State.spdm_kept
      | apply State.spdmErr_kept | apply State.doe_kept | apply kept_ite_fst | (apply kept_of_eq; assumption) | split
      | dsimp only | apply kept_mk | apply kept_mk_keeper

theorem State.assign_kept {φ : Part → Bool} {s0 s : State} (p : Nat) (hk : Kept φ s0 s) (hregs : φ .regs = false)
    (hmtr : φ .mtr = false) (hout : φ .out = false) (husage : φ .usage = false) (hevents : φ .events = false) :
    Kept φ s0 (State.assign s p) := by
  unfold State.assign
  with_reducible
    repeat'
      first
      | assumption | (intro _) | apply kept_ite | apply State.setBits_kept | apply State.tenancyClose_kept
      | apply State.setPart_kept | split | dsimp only

theorem State.getCert_kept {φ : Part → Bool} {s0 s : State} (fn : Nat) (slot : Nat) (hk : Kept φ s0 s) (hout : φ .out
    = false) :
    Kept φ s0 (State.getCert s fn slot) := by
  unfold State.getCert
  with_reducible
    repeat'
      first
      | assumption | (intro _) | apply kept_ite | apply State.spdm_kept | apply State.spdmErr_kept
      | apply State.doe_kept | split | dsimp only

theorem State.rootStep_kept {φ : Part → Bool} {s0 s : State} (root : Nat) (hk : Kept φ s0 s) (hfuses : φ .fuses =
    false) (hregs : φ .regs = false) :
    Kept φ s0 (State.rootStep s root) := by
  unfold State.rootStep
  split
  · exact kept_mk_op (State.fput_kept _ _ _ hk hregs) hfuses
  · exact kept_mk_op (State.fput_kept _ _ _ hk hregs) hfuses
  · exact hk

theorem State.fuseTo_kept {φ : Part → Bool} {s0 s : State} (o : FuseOp) (k : Nat) (hk : Kept φ s0 s) (hfuses : φ
    .fuses = false) (hregs : φ .regs = false) :
    Kept φ s0 (State.fuseTo s o k) := by
  unfold State.fuseTo
  with_reducible
    repeat'
      first
      | assumption | (intro _) | apply kept_ite | apply State.fput_kept | apply State.rootStep_kept | split
      | dsimp only | apply kept_mk_op | apply kept_mk_code | apply kept_mk

theorem State.fuseCut_kept {φ : Part → Bool} {s0 s : State}  (hk : Kept φ s0 s) (hfuses : φ .fuses = false) (hregs : φ
    .regs = false) :
    Kept φ s0 (State.fuseCut s) := by
  unfold State.fuseCut
  with_reducible
    repeat'
      first
      | assumption | (intro _) | apply kept_ite | apply State.fput_kept | apply State.fuseTo_kept | split | dsimp only
      | apply kept_mk_op | apply kept_mk_code | apply kept_mk

theorem State.showFuses_kept {φ : Part → Bool} {s0 s : State}  (hk : Kept φ s0 s) (hregs : φ .regs = false) :
    Kept φ s0 (State.showFuses s) := by
  unfold State.showFuses
  with_reducible
    repeat'
      first
      | assumption | (intro _) | apply State.fput_kept | apply State.wn_kept | dsimp only

theorem State.haltHost_kept {φ : Part → Bool} {s0 s : State}  (hk : Kept φ s0 s) (hdmas : φ .dmas = false) (hregs : φ
    .regs = false) (hout : φ .out = false) (hqueues : φ .queues = false) :
    Kept φ s0 (State.haltHost s) := by
  unfold State.haltHost
  with_reducible
    repeat'
      first
      | assumption | (intro _) | apply kept_ite | apply State.toHost_kept | apply State.failBufs_kept
      | apply State.setDma_kept | apply kept_foldl | split | dsimp only

theorem State.haltPart_kept {φ : Part → Bool} {s0 s : State} (p : Nat) (hk : Kept φ s0 s) (hcores : φ .cores = false)
    (hregs : φ .regs = false) (hseqs : φ .seqs = false) :
    Kept φ s0 (State.haltPart s p) := by
  unfold State.haltPart
  with_reducible
    repeat'
      first
      | assumption | (intro _) | apply State.fput_kept | apply State.setSq_kept | apply State.abandon_kept
      | dsimp only

theorem State.haltNow_kept {φ : Part → Bool} {s0 s : State} (src : Nat) (hk : Kept φ s0 s) (hcores : φ .cores = false)
    (hfuses : φ .fuses = false) (hdmas : φ .dmas = false) (hregs : φ .regs = false) (hout : φ .out = false) (hseqs : φ
    .seqs = false) (husage : φ .usage = false) (hqueues : φ .queues = false) (hevents : φ .events = false) (hhaltReq :
    φ .haltReq = false) (hhalt : φ .halt = false) (hfrozen : φ .frozen = false) :
    Kept φ s0 (State.haltNow s src) := by
  unfold State.haltNow
  with_reducible
    repeat'
      first
      | assumption | (intro _) | apply kept_ite | apply State.wr_kept | apply State.fput_kept
      | apply State.sepiaRec_kept | apply State.irqMgt_kept | apply State.irqDbg_kept | apply State.platEvent_kept
      | apply State.fuseCut_kept | apply State.haltHost_kept | apply State.haltPart_kept | apply kept_foldl | split
      | dsimp only | apply kept_mk | apply kept_mk_frozen | apply kept_mk_haltReq_halt

theorem State.halt_kept {φ : Part → Bool} {s0 s : State}  (hk : Kept φ s0 s) (hcores : φ .cores = false) (hfuses : φ
    .fuses = false) (hdmas : φ .dmas = false) (hregs : φ .regs = false) (hout : φ .out = false) (hseqs : φ .seqs =
    false) (husage : φ .usage = false) (hqueues : φ .queues = false) (hevents : φ .events = false) (hhaltReq : φ
    .haltReq = false) (hhalt : φ .halt = false) (hfrozen : φ .frozen = false) :
    Kept φ s0 (State.halt s) := by
  unfold State.halt
  with_reducible
    repeat'
      first
      | assumption | (intro _) | apply kept_ite | apply State.haltNow_kept | split | dsimp only | apply kept_mk
      | apply kept_mk_haltReq

theorem State.haltDrained_kept {φ : Part → Bool} {s0 s : State}  (hk : Kept φ s0 s) (hhalt : φ .halt = false) :
    Kept φ s0 (State.haltDrained s) := by
  unfold State.haltDrained
  with_reducible
    repeat'
      first
      | assumption | (intro _) | apply kept_ite | split | dsimp only | apply kept_mk | apply kept_mk_halt

theorem State.haltCtrlW_kept {φ : Part → Bool} {s0 s : State} (who : Nat) (v : Word) (hk : Kept φ s0 s) (hhaltReq : φ
    .haltReq = false) :
    Kept φ s0 (State.haltCtrlW s who v) := by
  unfold State.haltCtrlW
  with_reducible
    repeat'
      first
      | assumption | (intro _) | apply kept_ite | apply State.askHalt_kept | split | dsimp only

theorem State.zeroRoot_kept {φ : Part → Bool} {s0 s : State} (cause : Nat) (hk : Kept φ s0 s) (hregs : φ .regs =
    false) :
    Kept φ s0 (State.zeroRoot s cause) := by
  unfold State.zeroRoot
  with_reducible
    repeat'
      first
      | assumption | (intro _) | apply State.wr_kept | dsimp only

theorem State.tamper_kept {φ : Part → Bool} {s0 s : State} (cause : Nat) (hk : Kept φ s0 s) (hkeys : φ .keys = false)
    (hfuses : φ .fuses = false) (hregs : φ .regs = false) (hhaltReq : φ .haltReq = false) :
    Kept φ s0 (State.tamper s cause) := by
  unfold State.tamper
  with_reducible
    repeat'
      first
      | assumption | (intro _) | apply kept_ite | apply State.askHalt_kept | apply State.fuseCut_kept
      | apply State.zeroRoot_kept | split | dsimp only | apply kept_mk | apply kept_mk_keys

theorem refuseCmd_kept {φ : Part → Bool} {s0 s : State} (st : Nat) (hk : Kept φ s0 s) :
    Kept φ s0 (refuseCmd s st).1 := by
  unfold refuseCmd
  with_reducible
    repeat'
      first
      | assumption | (intro _) | (apply kept_of_eq; assumption) | dsimp only

theorem State.boxEvent_kept {φ : Part → Bool} {s0 s : State} (b : Nat) (bit : Nat) (hk : Kept φ s0 s) (hregs : φ .regs
    = false) (hout : φ .out = false) :
    Kept φ s0 (State.boxEvent s b bit) := by
  unfold State.boxEvent
  with_reducible
    repeat'
      first
      | assumption | (intro _) | apply kept_ite | apply State.setBits_kept | apply State.emit_kept | split
      | dsimp only

theorem State.mailDone_kept {φ : Part → Bool} {s0 s : State} (c : MailCmd) (status : Nat) (res : List Byte) (hk : Kept
    φ s0 s) (hregs : φ .regs = false) (hout : φ .out = false) :
    Kept φ s0 (State.mailDone s c status res) := by
  unfold State.mailDone
  with_reducible
    repeat'
      first
      | assumption | (intro _) | apply kept_ite | apply State.wr_kept | apply State.wn_kept
      | apply State.boxEvent_kept | apply kept_foldl | split | dsimp only

theorem State.serve_kept {φ : Part → Bool} {s0 s : State} (code : Nat) (f : State → MailCmd → State × Nat × List Byte)
    (hk : Kept φ s0 s) (h_f : ∀ s a1, Kept φ s0 s → Kept φ s0 (f s a1).1) (hregs : φ .regs = false) (hout : φ .out =
    false) (hkeeper : φ .keeper = false) :
    Kept φ s0 (State.serve s code f) := by
  unfold State.serve
  with_reducible
    repeat'
      first
      | assumption | (intro _) | apply h_f | apply kept_ite | apply State.mailDone_kept | apply kept_ite_fst
      | (apply kept_of_eq; assumption) | split | dsimp only | apply kept_mk | apply kept_mk_keeper

theorem State.ifcKeys_kept {φ : Part → Bool} {s0 s : State} (k : Nat) (hk : Kept φ s0 s) (hkeys : φ .keys = false)
    (hkeeper : φ .keeper = false) :
    Kept φ s0 (State.ifcKeys s k) := by
  unfold State.ifcKeys
  with_reducible
    repeat'
      first
      | assumption | (intro _) | apply kept_ite | apply State.draw_kept | apply State.loadSlot_kept
      | apply kept_ite_fst | (apply kept_of_eq; assumption) | split | dsimp only

theorem State.ifcRekey_kept {φ : Part → Bool} {s0 s : State} (k : Nat) (hk : Kept φ s0 s) (hkeys : φ .keys = false)
    (hregs : φ .regs = false) (hout : φ .out = false) (hkeeper : φ .keeper = false) :
    Kept φ s0 (State.ifcRekey s k) := by
  unfold State.ifcRekey
  with_reducible
    repeat'
      first
      | assumption | (intro _) | apply kept_ite | apply State.keyAlert_kept | apply State.ifcKeys_kept | split
      | dsimp only

theorem State.mailGo_kept {φ : Part → Bool} {s0 s : State} (b : Nat) (hk : Kept φ s0 s) (hregs : φ .regs = false)
    (hout : φ .out = false) (hkeeper : φ .keeper = false) :
    Kept φ s0 (State.mailGo s b) := by
  unfold State.mailGo
  with_reducible
    repeat'
      first
      | assumption | (intro _) | apply kept_ite | apply State.fput_kept | apply State.wn_kept
      | apply State.boxEvent_kept | apply State.mailDone_kept | apply kept_foldl | split | dsimp only | apply kept_mk
      | apply kept_mk_keeper

theorem State.loadChecked_kept {φ : Part → Bool} {s0 s : State} (p : Nat) (n : Nat) (key : List Byte) (attr : Nat)
    (soft : Nat) (hard : Nat) (suffix : List Byte) (expect : Option (List Byte)) (hk : Kept φ s0 s) (hkeys : φ .keys =
    false) :
    Kept φ s0 (State.loadChecked s p n key attr soft hard suffix expect).1 := by
  unfold State.loadChecked
  with_reducible
    repeat'
      first
      | assumption | (intro _) | apply kept_ite | apply State.loadSlot_kept | apply refuseCmd_kept
      | apply kept_ite_fst | (apply kept_of_eq; assumption) | split | dsimp only

theorem State.setLimit_kept {φ : Part → Bool} {s0 s : State} (n : Nat) (soft : Nat) (hard : Nat) (hk : Kept φ s0 s)
    (hkeys : φ .keys = false) (hregs : φ .regs = false) (hout : φ .out = false) :
    Kept φ s0 (State.setLimit s n soft hard) := by
  unfold State.setLimit
  with_reducible
    repeat'
      first
      | assumption | (intro _) | apply kept_ite | apply State.setKey_kept | apply State.keyAlert_kept
      | apply kept_foldl | split | dsimp only

theorem State.showVerdict_kept {φ : Part → Bool} {s0 s : State} (c : Nat) (b : Nat) (m : Nat) (col : Nat) (verdict :
    Nat) (first : Nat) (n : Nat) (hk : Kept φ s0 s) (hregs : φ .regs = false) (hout : φ .out = false) :
    Kept φ s0 (State.showVerdict s c b m col verdict first n) := by
  unfold State.showVerdict
  with_reducible
    repeat'
      first
      | assumption | (intro _) | apply State.wr_kept | apply State.setBits_kept | apply State.irqDbg_kept | dsimp only

theorem State.checkQuad_kept {φ : Part → Bool} {s0 s : State} (q : Nat) (hk : Kept φ s0 s) (hregs : φ .regs = false) :
    Kept φ s0 (State.checkQuad s q) := by
  unfold State.checkQuad
  with_reducible
    repeat'
      first
      | assumption | (intro _) | apply kept_ite | apply State.setBits_kept | split | dsimp only

theorem State.retirePend_kept {φ : Part → Bool} {s0 s : State} (c : Nat) (hk : Kept φ s0 s) (hregs : φ .regs = false)
    :
    Kept φ s0 (State.retirePend s c) := by
  unfold State.retirePend
  with_reducible
    repeat'
      first
      | assumption | (intro _) | apply State.fput_kept | apply State.checkQuad_kept | dsimp only

theorem State.noteFails_kept {φ : Part → Bool} {s0 s : State} (c : Nat) (b : Nat) (m : Nat) (col : Nat) (fails : List
    (List Nat)) (hk : Kept φ s0 s) (hcores : φ .cores = false) (hregs : φ .regs = false) (hout : φ .out = false)
    (husage : φ .usage = false) :
    Kept φ s0 (State.noteFails s c b m col fails) := by
  unfold State.noteFails
  with_reducible
    repeat'
      first
      | assumption | (intro _) | apply State.noteCe_kept | apply kept_foldl | dsimp only

theorem State.setSpare_kept {φ : Part → Bool} {s0 s : State} (c : Nat) (b : Nat) (m : Nat) (k : Nat) (v : Nat) (hk :
    Kept φ s0 s) (hcores : φ .cores = false) :
    Kept φ s0 (State.setSpare s c b m k v) := by
  unfold State.setSpare
  with_reducible
    repeat'
      first
      | assumption | (intro _) | dsimp only | apply kept_mk | apply kept_mk_cores

theorem State.showTest_kept {φ : Part → Bool} {s0 s : State}  (hk : Kept φ s0 s) (hregs : φ .regs = false) :
    Kept φ s0 (State.showTest s) := by
  unfold State.showTest
  with_reducible
    repeat'
      first
      | assumption | (intro _) | apply State.fput_kept | dsimp only

theorem State.testVerdict_kept {φ : Part → Bool} {s0 s : State} (c : Nat) (b : Nat) (m : Nat) (col : Nat) (fails :
    List (List Nat)) (hk : Kept φ s0 s) (hcores : φ .cores = false) (hregs : φ .regs = false) (hout : φ .out = false)
    (husage : φ .usage = false) :
    Kept φ s0 (State.testVerdict s c b m col fails) := by
  unfold State.testVerdict
  with_reducible
    repeat'
      first
      | assumption | (intro _) | apply kept_ite | apply State.bump_kept | apply State.showVerdict_kept
      | apply State.retirePend_kept | apply State.noteFails_kept | apply State.setSpare_kept
      | apply State.showTest_kept | split | dsimp only | apply kept_mk | apply kept_mk_cores

theorem State.columnTest_kept {φ : Part → Bool} {s0 s : State} (c : Nat) (b : Nat) (m : Nat) (col : Nat) (hk : Kept φ
    s0 s) (hcores : φ .cores = false) (hregs : φ .regs = false) (hout : φ .out = false) :
    Kept φ s0 (State.columnTest s c b m col) := by
  unfold State.columnTest
  with_reducible
    repeat'
      first
      | assumption | (intro _) | apply kept_ite | apply State.showVerdict_kept | apply State.retirePend_kept
      | apply State.setSpare_kept | apply State.showTest_kept | apply kept_ite_fst | (apply kept_of_eq; assumption)
      | split | dsimp only | apply kept_mk | apply kept_mk_cores

theorem State.rebind_kept {φ : Part → Bool} {s0 s : State} (l : Nat) (hk : Kept φ s0 s) (hcoreMap : φ .coreMap =
    false) (hregs : φ .regs = false) :
    Kept φ s0 (State.rebind s l) := by
  unfold State.rebind
  with_reducible
    repeat'
      first
      | assumption | (intro _) | apply kept_ite | apply State.wr_kept | apply State.fput_kept | split | dsimp only
      | apply kept_mk | apply kept_mk_coreMap

theorem State.retire_kept {φ : Part → Bool} {s0 s : State}  (hk : Kept φ s0 s) (hcoreMap : φ .coreMap = false) (hregs
    : φ .regs = false) :
    Kept φ s0 (State.retire s) := by
  unfold State.retire
  with_reducible
    repeat'
      first
      | assumption | (intro _) | apply State.checkQuad_kept | apply State.rebind_kept | apply kept_foldl | dsimp only

theorem State.coreStatW_kept {φ : Part → Bool} {s0 s : State} (c : Nat) (v : Word) (hk : Kept φ s0 s) (hregs : φ .regs
    = false) :
    Kept φ s0 (State.coreStatW s c v) := by
  unfold State.coreStatW
  with_reducible
    repeat'
      first
      | assumption | (intro _) | apply kept_ite | apply State.retirePend_kept | split | dsimp only

theorem State.startDeferred_kept {φ : Part → Bool} {s0 s : State}  (hk : Kept φ s0 s) (hcores : φ .cores = false)
    (hregs : φ .regs = false) :
    Kept φ s0 (State.startDeferred s) := by
  unfold State.startDeferred
  with_reducible
    repeat'
      first
      | assumption | (intro _) | apply kept_ite | apply State.setSpare_kept | apply State.showTest_kept
      | apply kept_foldl | apply kept_ite_fst | apply kept_foldl_fst | (apply kept_of_eq; assumption) | split
      | dsimp only | apply kept_mk | apply kept_mk_cores

theorem State.scrubRead_kept {φ : Part → Bool} {s0 s : State} (c : Nat) (b : Nat) (m : Nat) (row : Nat) (w : Nat)
    (finds : ScrubFinding) (hk : Kept φ s0 s) (hcores : φ .cores = false) (hregs : φ .regs = false) (hout : φ .out =
    false) (husage : φ .usage = false) :
    Kept φ s0 (State.scrubRead s c b m row w finds) := by
  unfold State.scrubRead
  with_reducible
    repeat'
      first
      | assumption | (intro _) | apply kept_ite | apply State.noteUe_kept | apply State.sramCe_kept | split
      | dsimp only | apply kept_mk | apply kept_mk_cores

theorem State.startStack_kept {φ : Part → Bool} {s0 s : State} (k : Nat) (failed : Bool) (hk : Kept φ s0 s) (hmem : φ
    .mem = false) (hkeys : φ .keys = false) (hregs : φ .regs = false) (hout : φ .out = false) (hpoison : φ .poison =
    false) (hkeeper : φ .keeper = false) :
    Kept φ s0 (State.startStack s k failed) := by
  unfold State.startStack
  with_reducible
    repeat'
      first
      | assumption | (intro _) | apply kept_ite | apply State.fput_kept | apply State.irqMem_kept
      | apply State.ifcKeys_kept | split | dsimp only | apply kept_mk | apply Memory.wf_clear | apply Memory.wf_setRun
      | apply kept_mk_mem_poison

theorem State.undoReset_kept {φ : Part → Bool} {s0 s : State}  (hk : Kept φ s0 s) (hcores : φ .cores = false) (hregs :
    φ .regs = false) :
    Kept φ s0 (State.undoReset s) := by
  unfold State.undoReset
  with_reducible
    repeat'
      first
      | assumption | (intro _) | apply State.fput_kept | apply State.wn_kept | apply kept_foldl | split | dsimp only
      | apply kept_mk | apply kept_mk_cores

theorem State.release_kept {φ : Part → Bool} {s0 s : State}  (hk : Kept φ s0 s) (hpower : φ .power = false) (hregs : φ
    .regs = false) :
    Kept φ s0 (State.release s) := by
  unfold State.release
  with_reducible
    repeat'
      first
      | assumption | (intro _) | apply kept_ite | apply State.fput_kept | apply kept_foldl | split | dsimp only
      | apply kept_mk | apply kept_mk_power

theorem State.keptRegs_kept {φ : Part → Bool} {s0 s : State} (cold : Bool) (maint : Bool) (hk : Kept φ s0 s) (hregs :
    φ .regs = false) :
    Kept φ s0 (State.keptRegs s cold maint) := by
  unfold State.keptRegs
  with_reducible
    repeat'
      first
      | assumption | (intro _) | apply kept_ite | apply State.fput_kept | apply State.wn_kept | apply State.bump_kept
      | apply kept_foldl | split | dsimp only | apply kept_mk | apply kept_mk_regs

theorem State.resetAll_kept {φ : Part → Bool} {s0 s : State} (cold : Bool) (maint : Bool) (hk : Kept φ s0 s) (hkeys :
    φ .keys = false) (hcores : φ .cores = false) (hfuses : φ .fuses = false) (hpower : φ .power = false) (htray : φ
    .tray = false) (hdmas : φ .dmas = false) (hregs : φ .regs = false) (hports : φ .ports = false) (hlakes : φ .lakes
    = false) (hmtr : φ .mtr = false) (hshadows : φ .shadows = false) (hseqs : φ .seqs = false) (hchannels : φ
    .channels = false) (hkeeper : φ .keeper = false) (husage : φ .usage = false) (htenancies : φ .tenancies = false)
    (hupds : φ .upds = false) (hringAdv : φ .ringAdv = false) (hwins : φ .wins = false) (hccs : φ .ccs = false)
    (hqueues : φ .queues = false) (hevents : φ .events = false) (hbus : φ .bus = false) (htime : φ .time = false)
    (hhaltReq : φ .haltReq = false) (hhalt : φ .halt = false) (hfrozen : φ .frozen = false) (hdumps : φ .dumps =
    false) (hpcie : φ .pcie = false) :
    Kept φ s0 (State.resetAll s cold maint) := by
  exact {
    pending := hk.pending, code := hk.code, memWf := hk.memWf, mem := hk.mem, coreMap := hk.coreMap, flash := hk.flash, out := hk.out, poison := hk.poison
    keys := fun e => absurd e (by simp [hkeys])
    cores := fun e => absurd e (by simp [hcores])
    fuses := fun e => absurd e (by simp [hfuses])
    power := fun e => absurd e (by simp [hpower])
    tray := fun e => absurd e (by simp [htray])
    dmas := fun e => absurd e (by simp [hdmas])
    regs := fun e => absurd e (by simp [hregs])
    ports := fun e => absurd e (by simp [hports])
    lakes := fun e => absurd e (by simp [hlakes])
    mtr := fun e => absurd e (by simp [hmtr])
    shadows := fun e => absurd e (by simp [hshadows])
    seqs := fun e => absurd e (by simp [hseqs])
    channels := fun e => absurd e (by simp [hchannels])
    keeper := fun e => absurd e (by simp [hkeeper])
    usage := fun e => absurd e (by simp [husage])
    tenancies := fun e => absurd e (by simp [htenancies])
    upds := fun e => absurd e (by simp [hupds])
    ringAdv := fun e => absurd e (by simp [hringAdv])
    wins := fun e => absurd e (by simp [hwins])
    ccs := fun e => absurd e (by simp [hccs])
    queues := fun e => absurd e (by simp [hqueues])
    events := fun e => absurd e (by simp [hevents])
    bus := fun e => absurd e (by simp [hbus])
    time := fun e => absurd e (by simp [htime])
    haltReq := fun e => absurd e (by simp [hhaltReq])
    halt := fun e => absurd e (by simp [hhalt])
    frozen := fun e => absurd e (by simp [hfrozen])
    dumps := fun e => absurd e (by simp [hdumps])
    pcie := fun e => absurd e (by simp [hpcie]) }

theorem State.reboot_kept {φ : Part → Bool} {s0 s : State} (cold : Bool) (maint : Bool) (cause : Nat) (level : Nat)
    (last : Nat) (hk : Kept φ s0 s) (hkeys : φ .keys = false) (hcores : φ .cores = false) (hfuses : φ .fuses = false)
    (hpower : φ .power = false) (htray : φ .tray = false) (hdmas : φ .dmas = false) (hregs : φ .regs = false) (hports
    : φ .ports = false) (hlakes : φ .lakes = false) (hmtr : φ .mtr = false) (hshadows : φ .shadows = false) (hseqs : φ
    .seqs = false) (hchannels : φ .channels = false) (hkeeper : φ .keeper = false) (husage : φ .usage = false)
    (htenancies : φ .tenancies = false) (hupds : φ .upds = false) (hringAdv : φ .ringAdv = false) (hwins : φ .wins =
    false) (hccs : φ .ccs = false) (hqueues : φ .queues = false) (hevents : φ .events = false) (hbus : φ .bus = false)
    (htime : φ .time = false) (hhaltReq : φ .haltReq = false) (hhalt : φ .halt = false) (hfrozen : φ .frozen = false)
    (hdumps : φ .dumps = false) (hpcie : φ .pcie = false) :
    Kept φ s0 (State.reboot s cold maint cause level last) := by
  unfold State.reboot
  with_reducible
    repeat'
      first
      | assumption | (intro _) | apply kept_ite | apply State.wr_kept | apply State.setBits_kept
      | apply State.fput_kept | apply State.wn_kept | apply State.fuseCut_kept | apply State.showFuses_kept
      | apply State.startDeferred_kept | apply State.undoReset_kept | apply State.release_kept
      | apply State.resetAll_kept | split | dsimp only | apply kept_mk | apply kept_mk_power

theorem State.updates_kept {φ : Part → Bool} {s0 s : State} (a : Nat) (f : State → State) (hk : Kept φ s0 s) (h_f : ∀
    s, Kept φ s0 s → Kept φ s0 (f s)) (hout : φ .out = false) :
    Kept φ s0 (State.updates s a f) := by
  unfold State.updates
  with_reducible
    repeat'
      first
      | assumption | (intro _) | apply h_f | apply kept_ite | apply State.emit_kept | split | dsimp only

theorem State.fwUpdate_kept {φ : Part → Bool} {s0 s : State} (a : Nat) (t : Nat) (file : List Byte) (hk : Kept φ s0 s)
    (hflash : φ .flash = false) (hregs : φ .regs = false) (hout : φ .out = false) :
    Kept φ s0 (State.fwUpdate s a t file) := by
  unfold State.fwUpdate
  with_reducible
    repeat'
      first
      | assumption | (intro _) | apply kept_ite | apply State.emit_kept | apply State.irqGlb_kept
      | apply State.updates_kept | split | dsimp only | apply kept_mk | apply kept_mk_flash

theorem State.configReq_kept {φ : Part → Bool} {s0 s : State} (fn : Nat) (kind : Nat) (v : Nat) (hk : Kept φ s0 s)
    (hkeys : φ .keys = false) (hcores : φ .cores = false) (hdmas : φ .dmas = false) (hregs : φ .regs = false) (hports
    : φ .ports = false) (hlakes : φ .lakes = false) (hout : φ .out = false) (hseqs : φ .seqs = false) (hkeeper : φ
    .keeper = false) (husage : φ .usage = false) (htenancies : φ .tenancies = false) (hwins : φ .wins = false) (hccs :
    φ .ccs = false) (hqueues : φ .queues = false) (hfrozen : φ .frozen = false) (hdumps : φ .dumps = false) (hpcie : φ
    .pcie = false) :
    Kept φ s0 (State.configReq s fn kind v) := by
  unfold State.configReq
  with_reducible
    repeat'
      first
      | assumption | (intro _) | apply kept_ite | apply State.emit_kept | apply State.vfDisable_kept | split
      | dsimp only | apply kept_mk | apply kept_mk_pcie

theorem State.reachReady_kept {φ : Part → Bool} {s0 s : State} (stage : Nat) (why : Nat) (hk : Kept φ s0 s) (hregs : φ
    .regs = false) (hout : φ .out = false) :
    Kept φ s0 (State.reachReady s stage why) := by
  unfold State.reachReady
  with_reducible
    repeat'
      first
      | assumption | (intro _) | apply kept_ite | apply State.fput_kept | apply State.irqGlb_kept | split | dsimp only

theorem State.deriveIdentity_kept {φ : Part → Bool} {s0 s : State}  (hk : Kept φ s0 s) (hregs : φ .regs = false) :
    Kept φ s0 (State.deriveIdentity s) := by
  unfold State.deriveIdentity
  with_reducible
    repeat'
      first
      | assumption | (intro _) | apply State.fput_kept | dsimp only

theorem State.settleCopy_kept {φ : Part → Bool} {s0 s : State} (t : Nat) (booted : Option Nat) (hk : Kept φ s0 s)
    (hflash : φ .flash = false) :
    Kept φ s0 (State.settleCopy s t booted) := by
  unfold State.settleCopy
  with_reducible
    repeat'
      first
      | assumption | (intro _) | apply kept_ite | split | dsimp only | apply kept_mk | apply kept_mk_flash

theorem State.runImage_kept {φ : Part → Bool} {s0 s : State} (t : Nat) (hk : Kept φ s0 s) (hflash : φ .flash = false)
    (hregs : φ .regs = false) :
    Kept φ s0 (State.runImage s t) := by
  unfold State.runImage
  with_reducible
    repeat'
      first
      | assumption | (intro _) | apply State.fput_kept | apply State.wn_kept | apply State.settleCopy_kept | split
      | dsimp only

theorem State.matchList_kept {φ : Part → Bool} {s0 s : State} (whole : Bool) (hk : Kept φ s0 s) (hflash : φ .flash =
    false) (hregs : φ .regs = false) :
    Kept φ s0 (State.matchList s whole).1 := by
  unfold State.matchList
  with_reducible
    repeat'
      first
      | assumption | (intro _) | apply kept_ite | apply State.fput_kept | apply State.wn_kept
      | apply State.settleCopy_kept | apply kept_ite_fst | (apply kept_of_eq; assumption) | split | dsimp only

theorem State.sagClose_kept {φ : Part → Bool} {s0 s : State}  (hk : Kept φ s0 s) (hregs : φ .regs = false) (hmtr : φ
    .mtr = false) (hout : φ .out = false) (husage : φ .usage = false) (hevents : φ .events = false) :
    Kept φ s0 (State.sagClose s) := by
  unfold State.sagClose
  with_reducible
    repeat'
      first
      | assumption | (intro _) | apply State.fput_kept | apply State.closeWith_kept | apply State.irqMtr_kept | split
      | dsimp only | apply kept_mk | apply kept_mk_usage

theorem State.loadDiag_kept {φ : Part → Bool} {s0 s : State}  (hk : Kept φ s0 s) (hkeys : φ .keys = false) (hkeeper :
    φ .keeper = false) :
    Kept φ s0 (State.loadDiag s) := by
  unfold State.loadDiag
  with_reducible
    repeat'
      first
      | assumption | (intro _) | apply kept_ite | apply State.draw_kept | apply State.loadSlot_kept
      | apply kept_ite_fst | (apply kept_of_eq; assumption) | split | dsimp only

theorem State.bootReady_kept {φ : Part → Bool} {s0 s : State}  (hk : Kept φ s0 s) (hkeys : φ .keys = false) (hcoreMap
    : φ .coreMap = false) (hflash : φ .flash = false) (hpower : φ .power = false) (hregs : φ .regs = false) (hmtr : φ
    .mtr = false) (hout : φ .out = false) (hkeeper : φ .keeper = false) (husage : φ .usage = false) (hevents : φ
    .events = false) :
    Kept φ s0 (State.bootReady s) := by
  unfold State.bootReady
  with_reducible
    repeat'
      first
      | assumption | (intro _) | apply kept_ite | apply State.wr_kept | apply State.fput_kept
      | apply State.retirePend_kept | apply State.retire_kept | apply State.reachReady_kept
      | apply State.deriveIdentity_kept | apply State.settleCopy_kept | apply State.runImage_kept
      | apply State.matchList_kept | apply State.sagClose_kept | apply State.loadDiag_kept | apply kept_foldl
      | apply kept_ite_fst | apply kept_foldl_fst | (apply kept_of_eq; assumption) | split | dsimp only
      | apply kept_mk | apply kept_mk_power

theorem State.powerOn_kept {φ : Part → Bool} {s0 s : State} (ms : Nat) (hk : Kept φ s0 s) (hkeys : φ .keys = false)
    (hcores : φ .cores = false) (hfuses : φ .fuses = false) (hpower : φ .power = false) (htray : φ .tray = false)
    (hdmas : φ .dmas = false) (hregs : φ .regs = false) (hports : φ .ports = false) (hlakes : φ .lakes = false) (hmtr
    : φ .mtr = false) (hshadows : φ .shadows = false) (hseqs : φ .seqs = false) (hchannels : φ .channels = false)
    (hkeeper : φ .keeper = false) (husage : φ .usage = false) (htenancies : φ .tenancies = false) (hupds : φ .upds =
    false) (hringAdv : φ .ringAdv = false) (hwins : φ .wins = false) (hccs : φ .ccs = false) (hqueues : φ .queues =
    false) (hevents : φ .events = false) (hbus : φ .bus = false) (htime : φ .time = false) (hhaltReq : φ .haltReq =
    false) (hhalt : φ .halt = false) (hfrozen : φ .frozen = false) (hdumps : φ .dumps = false) (hpcie : φ .pcie =
    false) :
    Kept φ s0 (State.powerOn s ms) := by
  unfold State.powerOn
  with_reducible
    repeat'
      first
      | assumption | (intro _) | apply kept_ite | apply State.reboot_kept | split | dsimp only | apply kept_mk
      | apply kept_mk_power_mtr

theorem State.sagEnd_kept {φ : Part → Bool} {s0 s : State}  (hk : Kept φ s0 s) (hpower : φ .power = false) (hregs : φ
    .regs = false) (hmtr : φ .mtr = false) (hout : φ .out = false) (husage : φ .usage = false) (hevents : φ .events =
    false) :
    Kept φ s0 (State.sagEnd s) := by
  unfold State.sagEnd
  with_reducible
    repeat'
      first
      | assumption | (intro _) | apply kept_ite | apply State.sagOver_kept | apply State.release_kept | split
      | dsimp only | apply kept_mk | apply kept_mk_power

theorem State.rstCtrlW_kept {φ : Part → Bool} {s0 s : State} (who : Nat) (v : Word) (hk : Kept φ s0 s) (hkeys : φ
    .keys = false) (hcores : φ .cores = false) (hfuses : φ .fuses = false) (hpower : φ .power = false) (htray : φ
    .tray = false) (hdmas : φ .dmas = false) (hregs : φ .regs = false) (hports : φ .ports = false) (hlakes : φ .lakes
    = false) (hmtr : φ .mtr = false) (hshadows : φ .shadows = false) (hseqs : φ .seqs = false) (hchannels : φ
    .channels = false) (hkeeper : φ .keeper = false) (husage : φ .usage = false) (htenancies : φ .tenancies = false)
    (hupds : φ .upds = false) (hringAdv : φ .ringAdv = false) (hwins : φ .wins = false) (hccs : φ .ccs = false)
    (hqueues : φ .queues = false) (hevents : φ .events = false) (hbus : φ .bus = false) (htime : φ .time = false)
    (hhaltReq : φ .haltReq = false) (hhalt : φ .halt = false) (hfrozen : φ .frozen = false) (hdumps : φ .dumps =
    false) (hpcie : φ .pcie = false) :
    Kept φ s0 (State.rstCtrlW s who v) := by
  unfold State.rstCtrlW
  with_reducible
    repeat'
      first
      | assumption | (intro _) | apply kept_ite | apply State.reboot_kept | split | dsimp only

theorem State.dropRepairs_kept {φ : Part → Bool} {s0 s : State}  (hk : Kept φ s0 s) (hcores : φ .cores = false)
    (hcoreMap : φ .coreMap = false) (hregs : φ .regs = false) (hchannels : φ .channels = false) :
    Kept φ s0 (State.dropRepairs s) := by
  unfold State.dropRepairs
  with_reducible
    repeat'
      first
      | assumption | (intro _) | apply State.wr_kept | apply State.fput_kept | apply State.wn_kept
      | apply State.setStk_kept | apply State.resetRegs_kept | apply kept_foldl | dsimp only | apply kept_mk
      | apply kept_mk_cores_coreMap

theorem State.wipeDone_kept {φ : Part → Bool} {s0 s : State} (failed : Nat) (bad : List Nat) (auth : Bool) (hk : Kept
    φ s0 s) (hmem : φ .mem = false) (hkeys : φ .keys = false) (hcores : φ .cores = false) (hcoreMap : φ .coreMap =
    false) (hpower : φ .power = false) (hregs : φ .regs = false) (hout : φ .out = false) (hpoison : φ .poison = false)
    (hchannels : φ .channels = false) (hkeeper : φ .keeper = false) :
    Kept φ s0 (State.wipeDone s failed bad auth) := by
  unfold State.wipeDone
  with_reducible
    repeat'
      first
      | assumption | (intro _) | apply kept_ite | apply State.fput_kept | apply State.wn_kept
      | apply State.irqGlb_kept | apply State.startStack_kept | apply State.dropRepairs_kept | apply kept_foldl
      | split | dsimp only | apply kept_mk | apply kept_mk_power

theorem State.unlock_kept {φ : Part → Bool} {s0 s : State} (level : Nat) (hk : Kept φ s0 s) (hkeys : φ .keys = false)
    (hcores : φ .cores = false) (hfuses : φ .fuses = false) (hpower : φ .power = false) (htray : φ .tray = false)
    (hdmas : φ .dmas = false) (hregs : φ .regs = false) (hports : φ .ports = false) (hlakes : φ .lakes = false) (hmtr
    : φ .mtr = false) (hshadows : φ .shadows = false) (hseqs : φ .seqs = false) (hchannels : φ .channels = false)
    (hkeeper : φ .keeper = false) (husage : φ .usage = false) (htenancies : φ .tenancies = false) (hupds : φ .upds =
    false) (hringAdv : φ .ringAdv = false) (hwins : φ .wins = false) (hccs : φ .ccs = false) (hqueues : φ .queues =
    false) (hevents : φ .events = false) (hbus : φ .bus = false) (htime : φ .time = false) (hhaltReq : φ .haltReq =
    false) (hhalt : φ .halt = false) (hfrozen : φ .frozen = false) (hdumps : φ .dumps = false) (hpcie : φ .pcie =
    false) :
    Kept φ s0 (State.unlock s level) := by
  unfold State.unlock
  with_reducible
    repeat'
      first
      | assumption | (intro _) | apply State.reboot_kept | dsimp only | apply kept_mk_op | apply kept_mk_code
      | apply kept_mk

theorem State.endChallenge_kept {φ : Part → Bool} {s0 s : State}  (hk : Kept φ s0 s) (hfuses : φ .fuses = false)
    (hregs : φ .regs = false) :
    Kept φ s0 (State.endChallenge s) := by
  unfold State.endChallenge
  with_reducible
    repeat'
      first
      | assumption | (intro _) | apply State.fput_kept | apply State.resetRegs_kept | dsimp only | apply kept_mk_op
      | apply kept_mk_code | apply kept_mk

theorem State.putBytes_kept {φ : Part → Bool} {s0 s : State} (a : Nat) (n : Nat) (l : List Byte) (hk : Kept φ s0 s)
    (hregs : φ .regs = false) :
    Kept φ s0 (State.putBytes s a n l) := by
  unfold State.putBytes
  with_reducible
    repeat'
      first
      | assumption | (intro _) | apply State.wn_kept | apply kept_foldl | dsimp only

theorem State.irqLcs_kept {φ : Part → Bool} {s0 s : State} (f : Fld) (hk : Kept φ s0 s) (hregs : φ .regs = false)
    (hout : φ .out = false) :
    Kept φ s0 (State.irqLcs s f) := by
  unfold State.irqLcs
  with_reducible
    repeat'
      first
      | assumption | (intro _) | apply State.irq_kept | dsimp only

theorem State.lcsReject_kept {φ : Part → Bool} {s0 s : State} (why : Nat) (hk : Kept φ s0 s) (hregs : φ .regs = false)
    (hout : φ .out = false) :
    Kept φ s0 (State.lcsReject s why) := by
  unfold State.lcsReject
  with_reducible
    repeat'
      first
      | assumption | (intro _) | apply State.fput_kept | apply State.irqLcs_kept | dsimp only

theorem State.chalGen_kept {φ : Part → Bool} {s0 s : State} (req : Nat) (hk : Kept φ s0 s) (hfuses : φ .fuses = false)
    (hregs : φ .regs = false) (hout : φ .out = false) (hkeeper : φ .keeper = false) :
    Kept φ s0 (State.chalGen s req) := by
  unfold State.chalGen
  with_reducible
    repeat'
      first
      | assumption | (intro _) | apply kept_ite | apply State.fput_kept | apply State.draw_kept
      | apply State.endChallenge_kept | apply State.putBytes_kept | apply State.irqLcs_kept
      | apply State.lcsReject_kept | apply kept_ite_fst | (apply kept_of_eq; assumption) | split | dsimp only
      | apply kept_mk_op | apply kept_mk_code | apply kept_mk

theorem State.lcsStart_kept {φ : Part → Bool} {s0 s : State} (o : FuseOp) (hk : Kept φ s0 s) (hfuses : φ .fuses =
    false) (hregs : φ .regs = false) :
    Kept φ s0 (State.lcsStart s o) := by
  unfold State.lcsStart
  with_reducible
    repeat'
      first
      | assumption | (intro _) | apply State.fput_kept | dsimp only | apply kept_mk_op | apply kept_mk_code
      | apply kept_mk

theorem State.complete_kept {φ : Part → Bool} {s0 s : State}  (hk : Kept φ s0 s) (hfuses : φ .fuses = false) (hregs :
    φ .regs = false) :
    Kept φ s0 (State.complete s) := by
  unfold State.complete
  with_reducible
    repeat'
      first
      | assumption | (intro _) | apply kept_ite | apply State.lcsStart_kept | split | dsimp only

theorem State.submit_kept {φ : Part → Bool} {s0 s : State}  (hk : Kept φ s0 s) (hkeys : φ .keys = false) (hcores : φ
    .cores = false) (hfuses : φ .fuses = false) (hpower : φ .power = false) (htray : φ .tray = false) (hdmas : φ .dmas
    = false) (hregs : φ .regs = false) (hports : φ .ports = false) (hlakes : φ .lakes = false) (hmtr : φ .mtr = false)
    (hshadows : φ .shadows = false) (hout : φ .out = false) (hseqs : φ .seqs = false) (hchannels : φ .channels =
    false) (hkeeper : φ .keeper = false) (husage : φ .usage = false) (htenancies : φ .tenancies = false) (hupds : φ
    .upds = false) (hringAdv : φ .ringAdv = false) (hwins : φ .wins = false) (hccs : φ .ccs = false) (hqueues : φ
    .queues = false) (hevents : φ .events = false) (hbus : φ .bus = false) (htime : φ .time = false) (hhaltReq : φ
    .haltReq = false) (hhalt : φ .halt = false) (hfrozen : φ .frozen = false) (hdumps : φ .dumps = false) (hpcie : φ
    .pcie = false) :
    Kept φ s0 (State.submit s) := by
  unfold State.submit
  with_reducible
    repeat'
      first
      | assumption | (intro _) | apply kept_ite | apply State.resetRegs_kept | apply State.unlock_kept
      | apply State.endChallenge_kept | apply State.lcsReject_kept | apply State.complete_kept | split | dsimp only
      | apply kept_mk_op | apply kept_mk_code | apply kept_mk

theorem State.chalCtrlW_kept {φ : Part → Bool} {s0 s : State} (v : Word) (hk : Kept φ s0 s) (hkeys : φ .keys = false)
    (hcores : φ .cores = false) (hfuses : φ .fuses = false) (hpower : φ .power = false) (htray : φ .tray = false)
    (hdmas : φ .dmas = false) (hregs : φ .regs = false) (hports : φ .ports = false) (hlakes : φ .lakes = false) (hmtr
    : φ .mtr = false) (hshadows : φ .shadows = false) (hout : φ .out = false) (hseqs : φ .seqs = false) (hchannels : φ
    .channels = false) (hkeeper : φ .keeper = false) (husage : φ .usage = false) (htenancies : φ .tenancies = false)
    (hupds : φ .upds = false) (hringAdv : φ .ringAdv = false) (hwins : φ .wins = false) (hccs : φ .ccs = false)
    (hqueues : φ .queues = false) (hevents : φ .events = false) (hbus : φ .bus = false) (htime : φ .time = false)
    (hhaltReq : φ .haltReq = false) (hhalt : φ .halt = false) (hfrozen : φ .frozen = false) (hdumps : φ .dumps =
    false) (hpcie : φ .pcie = false) :
    Kept φ s0 (State.chalCtrlW s v) := by
  unfold State.chalCtrlW
  with_reducible
    repeat'
      first
      | assumption | (intro _) | apply kept_ite | apply State.wn_kept | apply State.regWrite_kept
      | apply State.chalGen_kept | apply State.submit_kept | split | dsimp only

theorem State.lcsTransW_kept {φ : Part → Bool} {s0 s : State} (v : Word) (hk : Kept φ s0 s) (hfuses : φ .fuses =
    false) (hregs : φ .regs = false) (hout : φ .out = false) :
    Kept φ s0 (State.lcsTransW s v) := by
  unfold State.lcsTransW
  with_reducible
    repeat'
      first
      | assumption | (intro _) | apply kept_ite | apply State.lcsReject_kept | apply State.lcsStart_kept | split
      | dsimp only

theorem State.lcsDebugW_kept {φ : Part → Bool} {s0 s : State} (v : Word) (hk : Kept φ s0 s) (hkeys : φ .keys = false)
    (hcores : φ .cores = false) (hfuses : φ .fuses = false) (hpower : φ .power = false) (htray : φ .tray = false)
    (hdmas : φ .dmas = false) (hregs : φ .regs = false) (hports : φ .ports = false) (hlakes : φ .lakes = false) (hmtr
    : φ .mtr = false) (hshadows : φ .shadows = false) (hout : φ .out = false) (hseqs : φ .seqs = false) (hchannels : φ
    .channels = false) (hkeeper : φ .keeper = false) (husage : φ .usage = false) (htenancies : φ .tenancies = false)
    (hupds : φ .upds = false) (hringAdv : φ .ringAdv = false) (hwins : φ .wins = false) (hccs : φ .ccs = false)
    (hqueues : φ .queues = false) (hevents : φ .events = false) (hbus : φ .bus = false) (htime : φ .time = false)
    (hhaltReq : φ .haltReq = false) (hhalt : φ .halt = false) (hfrozen : φ .frozen = false) (hdumps : φ .dumps =
    false) (hpcie : φ .pcie = false) :
    Kept φ s0 (State.lcsDebugW s v) := by
  unfold State.lcsDebugW
  with_reducible
    repeat'
      first
      | assumption | (intro _) | apply kept_ite | apply State.reboot_kept | apply State.lcsReject_kept | split
      | dsimp only

theorem State.fuseDone_kept {φ : Part → Bool} {s0 s : State}  (hk : Kept φ s0 s) (hkeys : φ .keys = false) (hcores : φ
    .cores = false) (hfuses : φ .fuses = false) (hpower : φ .power = false) (htray : φ .tray = false) (hdmas : φ .dmas
    = false) (hregs : φ .regs = false) (hports : φ .ports = false) (hlakes : φ .lakes = false) (hmtr : φ .mtr = false)
    (hshadows : φ .shadows = false) (hseqs : φ .seqs = false) (hchannels : φ .channels = false) (hkeeper : φ .keeper =
    false) (husage : φ .usage = false) (htenancies : φ .tenancies = false) (hupds : φ .upds = false) (hringAdv : φ
    .ringAdv = false) (hwins : φ .wins = false) (hccs : φ .ccs = false) (hqueues : φ .queues = false) (hevents : φ
    .events = false) (hbus : φ .bus = false) (htime : φ .time = false) (hhaltReq : φ .haltReq = false) (hhalt : φ
    .halt = false) (hfrozen : φ .frozen = false) (hdumps : φ .dumps = false) (hpcie : φ .pcie = false) :
    Kept φ s0 (State.fuseDone s) := by
  unfold State.fuseDone
  with_reducible
    repeat'
      first
      | assumption | (intro _) | apply State.rootStep_kept | apply State.reboot_kept | split | dsimp only
      | apply kept_mk_op | apply kept_mk_code | apply kept_mk

theorem State.devFreeze_kept {φ : Part → Bool} {s0 s : State}  (hk : Kept φ s0 s) (hregs : φ .regs = false) (hout : φ
    .out = false) (hfrozen : φ .frozen = false) :
    Kept φ s0 (State.devFreeze s) := by
  unfold State.devFreeze
  with_reducible
    repeat'
      first
      | assumption | (intro _) | apply kept_ite | apply State.fput_kept | apply State.irqDbg_kept | split | dsimp only
      | apply kept_mk | apply kept_mk_frozen

theorem State.tenantDump_kept {φ : Part → Bool} {s0 s : State} (p : Nat) (ok : Bool) (hk : Kept φ s0 s) (hkeys : φ
    .keys = false) (hregs : φ .regs = false) (hout : φ .out = false) (hqueues : φ .queues = false) (hdumps : φ .dumps
    = false) :
    Kept φ s0 (State.tenantDump s p ok) := by
  unfold State.tenantDump
  with_reducible
    repeat'
      first
      | assumption | (intro _) | apply kept_ite | apply State.toHost_kept | apply State.useKey_kept
      | apply State.endDump_kept | apply kept_ite_fst | apply kept_id | (apply kept_of_eq; assumption) | split
      | dsimp only

theorem State.stepCtrlW_kept {φ : Part → Bool} {s0 s : State} (v : Word) (hk : Kept φ s0 s) (hregs : φ .regs = false)
    (hout : φ .out = false) (hseqs : φ .seqs = false) :
    Kept φ s0 (State.stepCtrlW s v) := by
  unfold State.stepCtrlW
  with_reducible
    repeat'
      first
      | assumption | (intro _) | apply kept_ite | apply State.fput_kept | apply State.setSq_kept
      | apply State.bump_kept | apply State.regWrite_kept | apply kept_foldl | split | dsimp only

theorem State.cntCtrlW_kept {φ : Part → Bool} {s0 s : State} (p : Nat) (v : Word) (hk : Kept φ s0 s) (hregs : φ .regs
    = false) (hout : φ .out = false) (husage : φ .usage = false) :
    Kept φ s0 (State.cntCtrlW s p v) := by
  unfold State.cntCtrlW
  with_reducible
    repeat'
      first
      | assumption | (intro _) | apply kept_ite | apply State.regWrite_kept | split | dsimp only | apply kept_mk
      | apply kept_mk_usage

theorem State.tenantGo_kept {φ : Part → Bool} {s0 s : State} (p : Nat) (hk : Kept φ s0 s) (hregs : φ .regs = false)
    (hout : φ .out = false) (hqueues : φ .queues = false) (hdumps : φ .dumps = false) :
    Kept φ s0 (State.tenantGo s p) := by
  unfold State.tenantGo
  with_reducible
    repeat'
      first
      | assumption | (intro _) | apply kept_ite | apply State.setDump_kept | apply State.endDump_kept | split
      | dsimp only

theorem State.dumpCtrlW_kept {φ : Part → Bool} {s0 s : State} (v : Word) (hk : Kept φ s0 s) (hregs : φ .regs = false)
    (hout : φ .out = false) (hqueues : φ .queues = false) (hdumps : φ .dumps = false) :
    Kept φ s0 (State.dumpCtrlW s v) := by
  unfold State.dumpCtrlW
  with_reducible
    repeat'
      first
      | assumption | (intro _) | apply kept_ite | apply State.fput_kept | apply State.setDump_kept
      | apply State.tenantGo_kept | apply kept_foldl | split | dsimp only

theorem State.devThaw_kept {φ : Part → Bool} {s0 s : State}  (hk : Kept φ s0 s) (hregs : φ .regs = false) :
    Kept φ s0 (State.devThaw s) := by
  unfold State.devThaw
  with_reducible
    repeat'
      first
      | assumption | (intro _) | apply State.fput_kept | dsimp only

theorem State.sepiaCtrlW_kept {φ : Part → Bool} {s0 s : State} (v : Word) (hk : Kept φ s0 s) (hregs : φ .regs = false)
    (hout : φ .out = false) (hfrozen : φ .frozen = false) :
    Kept φ s0 (State.sepiaCtrlW s v) := by
  unfold State.sepiaCtrlW
  with_reducible
    repeat'
      first
      | assumption | (intro _) | apply kept_ite | apply State.regWrite_kept | apply State.devFreeze_kept
      | apply State.devThaw_kept | split | dsimp only

theorem State.winRefused_kept {φ : Part → Bool} {s0 s : State} (a : Nat) (write : Bool) (hk : Kept φ s0 s) (hregs : φ
    .regs = false) (hout : φ .out = false) (hupds : φ .upds = false) :
    KeptO φ s0 (State.winRefused s a write) := by
  unfold State.winRefused
  with_reducible
    repeat'
      first
      | assumption | (intro _) | apply kept_ite | apply State.wr_kept | apply State.blocked_kept
      | (apply keptO_get; assumption) | apply kept_getD | apply keptO_ite | apply keptO_none | apply keptO_some
      | split | dsimp only

theorem State.winWrite_kept {φ : Part → Bool} {s0 s : State} (k : Nat) (v : Word) (errs : List ReadErr) (hk : Kept φ
    s0 s) (hmem : φ .mem = false) (hkeys : φ .keys = false) (hregs : φ .regs = false) (hout : φ .out = false) (hpoison
    : φ .poison = false) (hchannels : φ .channels = false) (hupds : φ .upds = false) (hhaltReq : φ .haltReq = false) :
    Kept φ s0 (State.winWrite s k v errs) := by
  unfold State.winWrite
  with_reducible
    repeat'
      first
      | assumption | (intro _) | apply kept_ite | apply State.putRaw_kept | apply State.writeSector_kept
      | apply State.readSector_kept | apply State.winRefused_kept | (apply keptO_get; assumption) | apply kept_getD
      | apply keptO_ite | apply keptO_none | apply keptO_some | apply kept_ite_fst | (apply kept_of_eq; assumption)
      | split | dsimp only

theorem State.winRead_kept {φ : Part → Bool} {s0 s : State} (k : Nat) (errs : List ReadErr) (hk : Kept φ s0 s) (hkeys
    : φ .keys = false) (hregs : φ .regs = false) (hout : φ .out = false) (hpoison : φ .poison = false) (hchannels : φ
    .channels = false) (hupds : φ .upds = false) (hhaltReq : φ .haltReq = false) :
    Kept φ s0 (State.winRead s k errs).1 := by
  unfold State.winRead
  with_reducible
    repeat'
      first
      | assumption | (intro _) | apply kept_ite | apply State.readSector_kept | apply State.winRefused_kept
      | (apply keptO_get; assumption) | apply kept_getD | apply keptO_ite | apply keptO_none | apply keptO_some
      | apply kept_ite_fst | (apply kept_of_eq; assumption) | split | dsimp only

theorem State.operatorDump_kept {φ : Part → Bool} {s0 s : State}  (hk : Kept φ s0 s) (hregs : φ .regs = false) (hout :
    φ .out = false) (hdumps : φ .dumps = false) :
    Kept φ s0 (State.operatorDump s) := by
  unfold State.operatorDump
  with_reducible
    repeat'
      first
      | assumption | (intro _) | apply State.fput_kept | apply State.toHost_kept | apply State.irqDbg_kept
      | apply State.setDump_kept | apply kept_id | dsimp only

theorem State.dumpDone_kept {φ : Part → Bool} {s0 s : State} (n : Nat) (ok : Bool) (hk : Kept φ s0 s) (hkeys : φ .keys
    = false) (hregs : φ .regs = false) (hout : φ .out = false) (hqueues : φ .queues = false) (hdumps : φ .dumps =
    false) :
    Kept φ s0 (State.dumpDone s n ok) := by
  unfold State.dumpDone
  with_reducible
    repeat'
      first
      | assumption | (intro _) | apply kept_ite | apply State.tenantDump_kept | apply State.operatorDump_kept | split
      | dsimp only

theorem State.partSepiaW_kept {φ : Part → Bool} {s0 s : State} (p : Nat) (v : Word) (hk : Kept φ s0 s) (hregs : φ
    .regs = false) (hout : φ .out = false) (hfrozen : φ .frozen = false) :
    Kept φ s0 (State.partSepiaW s p v) := by
  unfold State.partSepiaW
  with_reducible
    repeat'
      first
      | assumption | (intro _) | apply kept_ite | apply State.fput_kept | apply State.freezePart_kept
      | apply State.regWrite_kept | split | dsimp only

theorem State.partDumpW_kept {φ : Part → Bool} {s0 s : State} (p : Nat) (v : Word) (hk : Kept φ s0 s) (hregs : φ .regs
    = false) (hout : φ .out = false) (hqueues : φ .queues = false) (hdumps : φ .dumps = false) :
    Kept φ s0 (State.partDumpW s p v) := by
  unfold State.partDumpW
  with_reducible
    repeat'
      first
      | assumption | (intro _) | apply kept_ite | apply State.tenantGo_kept | split | dsimp only

theorem State.ideFail_kept {φ : Part → Bool} {s0 s : State} (i : Nat) (hk : Kept φ s0 s) (hdmas : φ .dmas = false)
    (hregs : φ .regs = false) (hout : φ .out = false) (hqueues : φ .queues = false) :
    Kept φ s0 (State.ideFail s i) := by
  unfold State.ideFail
  with_reducible
    repeat'
      first
      | assumption | (intro _) | apply kept_ite | apply State.fput_kept | apply State.failBufs_kept
      | apply State.setDma_kept | apply State.insecure_kept | apply kept_foldl | split | dsimp only

theorem State.ideKm_kept {φ : Part → Bool} {s0 s : State} (p : Nat) (id : Nat) (i : Nat) (sid : Nat) (go : Bool) (hk :
    Kept φ s0 s) (hregs : φ .regs = false) (hout : φ .out = false) :
    Kept φ s0 (State.ideKm s p id i sid go) := by
  unfold State.ideKm
  with_reducible
    repeat'
      first
      | assumption | (intro _) | apply kept_ite | apply State.wr_kept | apply State.insecure_kept
      | apply State.spdmErr_kept | apply State.doe_kept | split | dsimp only

theorem State.rgnReject_kept {φ : Part → Bool} {s0 s : State} (p : Nat) (n : Nat) (why : Nat) (hk : Kept φ s0 s)
    (hregs : φ .regs = false) (hout : φ .out = false) :
    Kept φ s0 (State.rgnReject s p n why) := by
  unfold State.rgnReject
  with_reducible
    repeat'
      first
      | assumption | (intro _) | apply State.wr_kept | apply State.irqProt_kept | dsimp only

theorem State.rgnW_kept {φ : Part → Bool} {s0 s : State} (p : Nat) (n : Nat) (w : Nat) (v : Word) (hk : Kept φ s0 s)
    (hregs : φ .regs = false) (hout : φ .out = false) :
    Kept φ s0 (State.rgnW s p n w v) := by
  unfold State.rgnW
  with_reducible
    repeat'
      first
      | assumption | (intro _) | apply kept_ite | apply State.fput_kept | apply State.regWrite_kept
      | apply State.rgnReject_kept | split | dsimp only

theorem State.rgnAccess_kept {φ : Part → Bool} {s0 s : State} (r : RegReq) (p : Nat) (n : Nat) (w : Nat) (v : Word)
    (hk : Kept φ s0 s) (hregs : φ .regs = false) (hout : φ .out = false) :
    Kept φ s0 (State.rgnAccess s r p n w v) := by
  unfold State.rgnAccess
  with_reducible
    repeat'
      first
      | assumption | (intro _) | apply kept_ite | apply State.bump_kept | apply State.access_kept
      | apply State.rgnW_kept | apply kept_id | split | dsimp only

theorem State.bar2_kept {φ : Part → Bool} {s0 s : State} (p : Nat) (trusted : Bool) (o : Nat) (len : Nat) (data :
    Option (List Byte)) (errs : List ReadErr) (hk : Kept φ s0 s) (hmem : φ .mem = false) (hkeys : φ .keys = false)
    (hregs : φ .regs = false) (hout : φ .out = false) (hpoison : φ .poison = false) (hchannels : φ .channels = false)
    (hupds : φ .upds = false) (hhaltReq : φ .haltReq = false) :
    Kept φ s0 (State.bar2 s p trusted o len data errs) := by
  unfold State.bar2
  with_reducible
    repeat'
      first
      | assumption | (intro _) | apply kept_ite | apply State.emit_kept | apply State.onIde_kept
      | apply State.refuse_kept | apply State.writePiece_kept | apply State.readPiece_kept | apply kept_foldl
      | apply kept_ite_fst | apply kept_foldl_fst | (apply kept_of_eq; assumption) | split | dsimp only

theorem State.refresh_kept {φ : Part → Bool} {s0 s : State} (k : Nat) (temp : Nat) (hk : Kept φ s0 s) (hregs : φ .regs
    = false) :
    Kept φ s0 (State.refresh s k temp) := by
  unfold State.refresh
  with_reducible
    repeat'
      first
      | assumption | (intro _) | apply State.fput_kept | dsimp only

theorem State.psplitW_kept {φ : Part → Bool} {s0 s : State} (p : Nat) (v : Word) (hk : Kept φ s0 s) (hregs : φ .regs =
    false) (hout : φ .out = false) :
    Kept φ s0 (State.psplitW s p v) := by
  unfold State.psplitW
  with_reducible
    repeat'
      first
      | assumption | (intro _) | apply kept_ite | apply State.irqMem_kept | apply State.regWrite_kept | split
      | dsimp only

theorem State.rowRepairDone_kept {φ : Part → Bool} {s0 s : State} (k : Nat) (row : Nat) (hk : Kept φ s0 s) (hregs : φ
    .regs = false) (hchannels : φ .channels = false) :
    Kept φ s0 (State.rowRepairDone s k row) := by
  unfold State.rowRepairDone
  with_reducible
    repeat'
      first
      | assumption | (intro _) | apply kept_ite | apply State.bump_kept | apply State.setStk_kept | split | dsimp only

theorem State.verifySector_kept {φ : Part → Bool} {s0 s : State} (p : Nat) (a : Nat) (spec : Bool) (errs : List
    ReadErr) (hk : Kept φ s0 s) (hkeys : φ .keys = false) (hregs : φ .regs = false) (hout : φ .out = false) (hpoison :
    φ .poison = false) (hchannels : φ .channels = false) (hupds : φ .upds = false) (hhaltReq : φ .haltReq = false) :
    Kept φ s0 (State.verifySector s p a spec errs) := by
  unfold State.verifySector
  with_reducible
    repeat'
      first
      | assumption | (intro _) | apply kept_ite | apply State.readPiece_kept | apply kept_ite_fst
      | (apply kept_of_eq; assumption) | split | dsimp only

theorem State.patrolRead_kept {φ : Part → Bool} {s0 s : State} (k : Nat) (sec : Nat) (errs : List ReadErr) (hk : Kept
    φ s0 s) (hregs : φ .regs = false) (hout : φ .out = false) (hchannels : φ .channels = false) :
    Kept φ s0 (State.patrolRead s k sec errs) := by
  unfold State.patrolRead
  with_reducible
    repeat'
      first
      | assumption | (intro _) | apply kept_ite | apply State.fput_kept | apply State.setStk_kept
      | apply State.readOnce_kept | apply kept_ite_fst | (apply kept_of_eq; assumption) | split | dsimp only

theorem State.rowRepair_kept {φ : Part → Bool} {s0 s : State} (k : Nat) (row : Nat) (hk : Kept φ s0 s) (hchannels : φ
    .channels = false) :
    Kept φ s0 (State.rowRepair s k row) := by
  unfold State.rowRepair
  with_reducible
    repeat'
      first
      | assumption | (intro _) | apply kept_ite | apply State.setStk_kept | apply kept_ite_fst
      | (apply kept_of_eq; assumption) | split | dsimp only

theorem State.tagGrant_kept {φ : Part → Bool} {s0 s : State} (k : Nat) (pc : Nat) (wants : List (List Nat)) (cycles :
    Nat) (held : List Nat) (hk : Kept φ s0 s) (hregs : φ .regs = false) (hchannels : φ .channels = false) :
    Kept φ s0 (State.tagGrant s k pc wants cycles held) := by
  unfold State.tagGrant
  with_reducible
    repeat'
      first
      | assumption | (intro _) | apply State.fput_kept | apply State.bump64_kept | apply State.setStk_kept
      | (apply kept_of_eq; assumption) | split | dsimp only

theorem State.setTray_kept {φ : Part → Bool} {s0 s : State} (t : Tray) (hk : Kept φ s0 s) (htray : φ .tray = false) :
    Kept φ s0 (State.setTray s t) := by
  unfold State.setTray
  with_reducible
    repeat'
      first
      | assumption | (intro _) | dsimp only | apply kept_mk | apply kept_mk_tray

theorem State.muteNow_kept {φ : Part → Bool} {s0 s : State}  (hk : Kept φ s0 s) (htray : φ .tray = false) (hregs : φ
    .regs = false) (hout : φ .out = false) :
    Kept φ s0 (State.muteNow s) := by
  unfold State.muteNow
  with_reducible
    repeat'
      first
      | assumption | (intro _) | apply State.wr_kept | apply State.bump_kept | apply State.irqMgt_kept
      | apply State.setTray_kept | dsimp only

theorem State.trayCtrlW_kept {φ : Part → Bool} {s0 s : State} (v : Word) (hk : Kept φ s0 s) (htray : φ .tray = false)
    (hregs : φ .regs = false) (hout : φ .out = false) :
    Kept φ s0 (State.trayCtrlW s v) := by
  unfold State.trayCtrlW
  with_reducible
    repeat'
      first
      | assumption | (intro _) | apply kept_ite | apply State.regWrite_kept | apply State.muteNow_kept | split
      | dsimp only

theorem State.setHolds_kept {φ : Part → Bool} {s0 s : State} (p : Nat) (l : List PeerHold) (hk : Kept φ s0 s) (hregs :
    φ .regs = false) (hseqs : φ .seqs = false) :
    Kept φ s0 (State.setHolds s p l) := by
  unfold State.setHolds
  with_reducible
    repeat'
      first
      | assumption | (intro _) | apply State.fput_kept | apply State.setSq_kept | dsimp only

theorem State.holdExpire_kept {φ : Part → Bool} {s0 s : State} (p : Nat) (hk : Kept φ s0 s) (hregs : φ .regs = false)
    (hseqs : φ .seqs = false) :
    Kept φ s0 (State.holdExpire s p) := by
  unfold State.holdExpire
  with_reducible
    repeat'
      first
      | assumption | (intro _) | apply kept_ite | apply State.setHolds_kept | split | dsimp only

theorem State.aligned_kept {φ : Part → Bool} {s0 s : State}  (hk : Kept φ s0 s) (htray : φ .tray = false) :
    Kept φ s0 (State.aligned s) := by
  unfold State.aligned
  with_reducible
    repeat'
      first
      | assumption | (intro _) | apply kept_ite | apply State.setTray_kept | split | dsimp only

theorem State.pldm_kept {φ : Part → Bool} {s0 s : State} (a : Nat) (f : State → State) (hk : Kept φ s0 s) (h_f : ∀ s,
    Kept φ s0 s → Kept φ s0 (f s)) (hout : φ .out = false) :
    Kept φ s0 (State.pldm s a f) := by
  unfold State.pldm
  with_reducible
    repeat'
      first
      | assumption | (intro _) | apply h_f | apply kept_ite | apply State.emit_kept | split | dsimp only

theorem State.pollEvent_kept {φ : Part → Bool} {s0 s : State} (a : Nat) (hk : Kept φ s0 s) (hout : φ .out = false) :
    Kept φ s0 (State.pollEvent s a) := by
  unfold State.pollEvent
  with_reducible
    repeat'
      first
      | assumption | (intro _) | apply State.emit_kept | apply State.pldm_kept | split | dsimp only

theorem State.announce_kept {φ : Part → Bool} {s0 s : State} (p : Nat) (st : Nat) (hk : Kept φ s0 s) (htray : φ .tray
    = false) :
    Kept φ s0 (State.announce s p st) := by
  unfold State.announce
  with_reducible
    repeat'
      first
      | assumption | (intro _) | apply State.setTray_kept | (apply kept_of_eq; assumption) | dsimp only

theorem State.annRepeat_kept {φ : Part → Bool} {s0 s : State} (p : Nat) (hk : Kept φ s0 s) (htray : φ .tray = false)
    (hseqs : φ .seqs = false) :
    Kept φ s0 (State.annRepeat s p) := by
  unfold State.annRepeat
  with_reducible
    repeat'
      first
      | assumption | (intro _) | apply kept_ite | apply State.setSq_kept | apply State.announce_kept | split
      | dsimp only

theorem State.probeEnd_kept {φ : Part → Bool} {s0 s : State} (w : Word) (hk : Kept φ s0 s) (htray : φ .tray = false)
    (hregs : φ .regs = false) (hout : φ .out = false) :
    Kept φ s0 (State.probeEnd s w) := by
  unfold State.probeEnd
  with_reducible
    repeat'
      first
      | assumption | (intro _) | apply State.wr_kept | apply State.irqMgt_kept | apply State.setTray_kept | dsimp only

theorem State.probeTimeout_kept {φ : Part → Bool} {s0 s : State}  (hk : Kept φ s0 s) (htray : φ .tray = false) (hregs
    : φ .regs = false) (hout : φ .out = false) :
    Kept φ s0 (State.probeTimeout s) := by
  unfold State.probeTimeout
  with_reducible
    repeat'
      first
      | assumption | (intro _) | apply kept_ite | apply State.probeEnd_kept | split | dsimp only

theorem State.sharedSlot_kept {φ : Part → Bool} {s0 s : State}  (hk : Kept φ s0 s) (hkeys : φ .keys = false) (htray :
    φ .tray = false) (hregs : φ .regs = false) (hports : φ .ports = false) (hlakes : φ .lakes = false) (hout : φ .out
    = false) (husage : φ .usage = false) (hwins : φ .wins = false) (hevents : φ .events = false) :
    Kept φ s0 (State.sharedSlot s) := by
  unfold State.sharedSlot
  with_reducible
    repeat'
      first
      | assumption | (intro _) | apply State.fput_kept | apply State.irqMgt_kept | apply State.platEvent_kept
      | apply State.trainEnter_kept | apply State.muteNow_kept | apply kept_foldl | dsimp only

theorem State.transmit_kept {φ : Part → Bool} {s0 s : State} (echo : Option (List Byte)) (alien : Option (List Byte))
    (hk : Kept φ s0 s) (hkeys : φ .keys = false) (htray : φ .tray = false) (hregs : φ .regs = false) (hports : φ
    .ports = false) (hlakes : φ .lakes = false) (hout : φ .out = false) (husage : φ .usage = false) (hwins : φ .wins =
    false) (hevents : φ .events = false) :
    Kept φ s0 (State.transmit s echo alien) := by
  unfold State.transmit
  with_reducible
    repeat'
      first
      | assumption | (intro _) | apply kept_ite | apply State.emit_kept | apply State.fput_kept
      | apply State.setTray_kept | apply State.muteNow_kept | apply State.sharedSlot_kept | split | dsimp only

theorem State.annSample_kept {φ : Part → Bool} {s0 s : State} (p : Nat) (hk : Kept φ s0 s) (htray : φ .tray = false)
    (hregs : φ .regs = false) (hseqs : φ .seqs = false) :
    Kept φ s0 (State.annSample s p) := by
  unfold State.annSample
  with_reducible
    repeat'
      first
      | assumption | (intro _) | apply kept_ite | apply State.setSq_kept | apply State.setAnnQ_kept
      | apply State.announce_kept | split | dsimp only

theorem State.trayCrc_kept {φ : Part → Bool} {s0 s : State}  (hk : Kept φ s0 s) (hregs : φ .regs = false) :
    Kept φ s0 (State.trayCrc s) := by
  unfold State.trayCrc
  with_reducible
    repeat'
      first
      | assumption | (intro _) | apply State.bump_kept | dsimp only

theorem State.syncTime_kept {φ : Part → Bool} {s0 s : State} (frame : Nat) (hk : Kept φ s0 s) (htime : φ .time =
    false) :
    Kept φ s0 (State.syncTime s frame) := by
  unfold State.syncTime
  with_reducible
    repeat'
      first
      | assumption | (intro _) | apply kept_ite | split | dsimp only | apply kept_mk | apply kept_mk_time

theorem State.syncFrame_kept {φ : Part → Bool} {s0 s : State} (b : List Byte) (hk : Kept φ s0 s) (htray : φ .tray =
    false) (hregs : φ .regs = false) (hout : φ .out = false) (hevents : φ .events = false) (htime : φ .time = false)
    (hhaltReq : φ .haltReq = false) :
    Kept φ s0 (State.syncFrame s b) := by
  unfold State.syncFrame
  with_reducible
    repeat'
      first
      | assumption | (intro _) | apply kept_ite | apply State.askHalt_kept | apply State.wr_kept
      | apply State.fput_kept | apply State.wn_kept | apply State.irqMgt_kept | apply State.platEvent_kept
      | apply State.setTray_kept | apply State.trayCrc_kept | apply State.syncTime_kept | apply kept_foldl | split
      | dsimp only

theorem State.timeOfsW_kept {φ : Part → Bool} {s0 s : State} (v : Word) (hk : Kept φ s0 s) (hregs : φ .regs = false)
    (htime : φ .time = false) :
    Kept φ s0 (State.timeOfsW s v) := by
  unfold State.timeOfsW
  with_reducible
    repeat'
      first
      | assumption | (intro _) | apply State.wr_kept | dsimp only | apply kept_mk | apply kept_mk_time

theorem State.syncLoss_kept {φ : Part → Bool} {s0 s : State}  (hk : Kept φ s0 s) (hregs : φ .regs = false) (hout : φ
    .out = false) :
    Kept φ s0 (State.syncLoss s) := by
  unfold State.syncLoss
  with_reducible
    repeat'
      first
      | assumption | (intro _) | apply kept_ite | apply State.fput_kept | apply State.irqMgt_kept | split | dsimp only

theorem State.kick_kept {φ : Part → Bool} {s0 s : State}  (hk : Kept φ s0 s) (htray : φ .tray = false) :
    Kept φ s0 (State.kick s) := by
  unfold State.kick
  with_reducible
    repeat'
      first
      | assumption | (intro _) | apply State.setTray_kept | dsimp only

theorem State.probeIn_kept {φ : Part → Bool} {s0 s : State} (n : Nat) (hk : Kept φ s0 s) (hports : φ .ports = false) :
    Kept φ s0 (State.probeIn s n) := by
  unfold State.probeIn
  with_reducible
    repeat'
      first
      | assumption | (intro _) | apply State.sendSpdm_kept | dsimp only

theorem State.probeW_kept {φ : Part → Bool} {s0 s : State} (v : Word) (hk : Kept φ s0 s) (htray : φ .tray = false)
    (hregs : φ .regs = false) (hports : φ .ports = false) (hout : φ .out = false) :
    Kept φ s0 (State.probeW s v) := by
  unfold State.probeW
  with_reducible
    repeat'
      first
      | assumption | (intro _) | apply kept_ite | apply State.wr_kept | apply State.regWrite_kept
      | apply State.sendSpdm_kept | apply State.setTray_kept | apply kept_ite_fst | (apply kept_of_eq; assumption)
      | split | dsimp only

theorem State.applyAnn_kept {φ : Part → Bool} {s0 s : State} (a : Ann) (p : Nat) (hk : Kept φ s0 s) (hregs : φ .regs =
    false) (hseqs : φ .seqs = false) :
    Kept φ s0 (State.applyAnn s a p) := by
  unfold State.applyAnn
  with_reducible
    repeat'
      first
      | assumption | (intro _) | apply kept_ite | apply State.wr_kept | apply State.setHolds_kept | split | dsimp only

theorem State.kickTimeout_kept {φ : Part → Bool} {s0 s : State}  (hk : Kept φ s0 s) (htray : φ .tray = false) :
    Kept φ s0 (State.kickTimeout s) := by
  unfold State.kickTimeout
  with_reducible
    repeat'
      first
      | assumption | (intro _) | apply kept_ite | apply State.setTray_kept | split | dsimp only

theorem State.moduleFrame_kept {φ : Part → Bool} {s0 s : State} (k : Nat) (b : List Byte) (d : Int) (hk : Kept φ s0 s)
    (htray : φ .tray = false) (hregs : φ .regs = false) (hout : φ .out = false) :
    Kept φ s0 (State.moduleFrame s k b d) := by
  unfold State.moduleFrame
  with_reducible
    repeat'
      first
      | assumption | (intro _) | apply kept_ite | apply State.fput_kept | apply State.bump_kept
      | apply State.irqMgt_kept | apply State.setTray_kept | apply State.trayCrc_kept | apply kept_ite_fst
      | (apply kept_of_eq; assumption) | split | dsimp only

theorem State.sensorGet_kept {φ : Part → Bool} {s0 s : State} (a : Nat) (id : Nat) (hk : Kept φ s0 s) (hout : φ .out =
    false) :
    Kept φ s0 (State.sensorGet s a id) := by
  unfold State.sensorGet
  with_reducible
    repeat'
      first
      | assumption | (intro _) | apply State.emit_kept | apply State.pldm_kept | split | dsimp only

theorem State.probeReply_kept {φ : Part → Bool} {s0 s : State} (n : Nat) (t2 : Nat) (t3 : Nat) (replayed : Bool) (hk :
    Kept φ s0 s) (htray : φ .tray = false) (hregs : φ .regs = false) (hout : φ .out = false) :
    Kept φ s0 (State.probeReply s n t2 t3 replayed) := by
  unfold State.probeReply
  with_reducible
    repeat'
      first
      | assumption | (intro _) | apply kept_ite | apply State.wn_kept | apply State.wr64_kept
      | apply State.probeEnd_kept | split | dsimp only

theorem State.annReceived_kept {φ : Part → Bool} {s0 s : State}  (hk : Kept φ s0 s) (htray : φ .tray = false) (hregs :
    φ .regs = false) (hseqs : φ .seqs = false) :
    Kept φ s0 (State.annReceived s) := by
  unfold State.annReceived
  with_reducible
    repeat'
      first
      | assumption | (intro _) | apply kept_ite | apply State.setTray_kept | apply State.setHolds_kept
      | apply State.applyAnn_kept | apply kept_foldl | apply kept_ite_fst | apply kept_foldl_fst
      | (apply kept_of_eq; assumption) | split | dsimp only

theorem State.setReceiver_kept {φ : Part → Bool} {s0 s : State} (a : Nat) (rcv : Nat) (hk : Kept φ s0 s) (hout : φ
    .out = false) (hbus : φ .bus = false) :
    Kept φ s0 (State.setReceiver s a rcv) := by
  unfold State.setReceiver
  with_reducible
    repeat'
      first
      | assumption | (intro _) | apply State.emit_kept | apply State.pldm_kept | dsimp only | apply kept_mk
      | apply kept_mk_bus

theorem State.readLive_kept {φ : Part → Bool} {s0 s : State} (a : Nat) (hk : Kept φ s0 s) (hkeys : φ .keys = false)
    (hregs : φ .regs = false) (hout : φ .out = false) (hpoison : φ .poison = false) (hchannels : φ .channels = false)
    (hupds : φ .upds = false) (hhaltReq : φ .haltReq = false) :
    Kept φ s0 (State.readLive s a).1 := by
  unfold State.readLive
  with_reducible
    repeat'
      first
      | assumption | (intro _) | apply kept_ite | apply State.regAfterRead_kept | apply State.winRead_kept
      | apply kept_ite_fst | (apply kept_of_eq; assumption) | split | dsimp only

theorem State.readDword_kept {φ : Part → Bool} {s0 s : State} (who : Nat) (a : Nat) (hk : Kept φ s0 s) (hkeys : φ
    .keys = false) (hregs : φ .regs = false) (hshadows : φ .shadows = false) (hout : φ .out = false) (hpoison : φ
    .poison = false) (hchannels : φ .channels = false) (hupds : φ .upds = false) (hhaltReq : φ .haltReq = false) :
    Kept φ s0 (State.readDword s who a).1 := by
  unfold State.readDword
  with_reducible
    repeat'
      first
      | assumption | (intro _) | apply kept_ite | apply State.readLive_kept | apply kept_ite_fst
      | (apply kept_of_eq; assumption) | split | dsimp only | apply kept_mk | apply kept_mk_shadows

theorem State.readSplit_kept {φ : Part → Bool} {s0 s : State} (r : RegReq) (a : Nat) (n : Nat) (hk : Kept φ s0 s)
    (hkeys : φ .keys = false) (hregs : φ .regs = false) (hshadows : φ .shadows = false) (hout : φ .out = false)
    (hpoison : φ .poison = false) (hchannels : φ .channels = false) (hupds : φ .upds = false) (hhaltReq : φ .haltReq =
    false) :
    Kept φ s0 (State.readSplit s r a n) := by
  unfold State.readSplit
  with_reducible
    repeat'
      first
      | assumption | (intro _) | apply State.emit_kept | apply State.access_kept | apply State.readDword_kept
      | apply kept_foldl | apply kept_foldl_fst | (apply kept_of_eq; assumption) | dsimp only

theorem State.read4_kept {φ : Part → Bool} {s0 s : State} (r : RegReq) (a : Nat) (hk : Kept φ s0 s) (hkeys : φ .keys =
    false) (hregs : φ .regs = false) (hshadows : φ .shadows = false) (hout : φ .out = false) (hpoison : φ .poison =
    false) (hchannels : φ .channels = false) (hupds : φ .upds = false) (hhaltReq : φ .haltReq = false) :
    Kept φ s0 (State.read4 s r a) := by
  unfold State.read4
  with_reducible
    repeat'
      first
      | assumption | (intro _) | apply State.readSplit_kept | dsimp only

theorem State.whenBit_kept {φ : Part → Bool} {s0 s : State} (f : Fld) (v : Word) (g : State → State) (hk : Kept φ s0
    s) (h_g : ∀ s, Kept φ s0 s → Kept φ s0 (g s)) :
    Kept φ s0 (State.whenBit s f v g) := by
  unfold State.whenBit
  with_reducible
    repeat'
      first
      | assumption | (intro _) | apply h_g | apply kept_ite | split | dsimp only

theorem State.seqCtrlW_kept {φ : Part → Bool} {s0 s : State} (p : Nat) (v : Word) (errs : List ReadErr) (hk : Kept φ
    s0 s) (hmem : φ .mem = false) (hkeys : φ .keys = false) (hcores : φ .cores = false) (hregs : φ .regs = false)
    (hlakes : φ .lakes = false) (hout : φ .out = false) (hseqs : φ .seqs = false) (hpoison : φ .poison = false)
    (hchannels : φ .channels = false) (husage : φ .usage = false) (hupds : φ .upds = false) (hringAdv : φ .ringAdv =
    false) (hccs : φ .ccs = false) (hqueues : φ .queues = false) (hhaltReq : φ .haltReq = false) (hfrozen : φ .frozen
    = false) :
    Kept φ s0 (State.seqCtrlW s p v errs) := by
  unfold State.seqCtrlW
  with_reducible
    repeat'
      first
      | assumption | (intro _) | apply State.fput_kept | apply State.seqRun_kept | apply State.seqResume_kept
      | apply State.seqCont_kept | apply State.seqStop_kept | apply State.whenBit_kept | dsimp only

theorem State.seqPut_kept {φ : Part → Bool} {s0 s : State} (p : Nat) (o : Nat) (i : Nat) (a : Nat) (v : Word) (errs :
    List ReadErr) (hk : Kept φ s0 s) (hmem : φ .mem = false) (hkeys : φ .keys = false) (hcores : φ .cores = false)
    (hregs : φ .regs = false) (hlakes : φ .lakes = false) (hout : φ .out = false) (hseqs : φ .seqs = false) (hpoison :
    φ .poison = false) (hchannels : φ .channels = false) (husage : φ .usage = false) (hupds : φ .upds = false)
    (hringAdv : φ .ringAdv = false) (hccs : φ .ccs = false) (hqueues : φ .queues = false) (hhaltReq : φ .haltReq =
    false) (hfrozen : φ .frozen = false) :
    Kept φ s0 (State.seqPut s p o i a v errs) := by
  unfold State.seqPut
  with_reducible
    repeat'
      first
      | assumption | (intro _) | apply kept_ite | apply State.regWrite_kept | apply State.ringCfgW_kept
      | apply State.ringProdW_kept | apply State.ringConsW_kept | apply State.imgBaseW_kept
      | apply State.catchupW_kept | apply State.ringCtrlW_kept | apply State.seqCtrlW_kept | split | dsimp only

theorem State.quePut_kept {φ : Part → Bool} {s0 s : State} (p : Nat) (o : Nat) (i : Nat) (a : Nat) (v : Word) (hk :
    Kept φ s0 s) (hregs : φ .regs = false) (hout : φ .out = false) (hqueues : φ .queues = false) :
    Kept φ s0 (State.quePut s p o i a v) := by
  unfold State.quePut
  with_reducible
    repeat'
      first
      | assumption | (intro _) | apply kept_ite | apply State.regWrite_kept | apply State.queueCfgW_kept
      | apply State.queueCancel_kept | apply State.queueDb_kept | apply State.contextKill_kept
      | apply State.fenceW_kept | apply State.whenBit_kept | split | dsimp only

theorem State.vfPut_kept {φ : Part → Bool} {s0 s : State} (p : Nat) (o : Nat) (ix : List Nat) (a : Nat) (v : Word)
    (errs : List ReadErr) (hk : Kept φ s0 s) (hmem : φ .mem = false) (hkeys : φ .keys = false) (hcores : φ .cores =
    false) (hregs : φ .regs = false) (hports : φ .ports = false) (hlakes : φ .lakes = false) (hout : φ .out = false)
    (hseqs : φ .seqs = false) (hpoison : φ .poison = false) (hchannels : φ .channels = false) (hkeeper : φ .keeper =
    false) (husage : φ .usage = false) (hupds : φ .upds = false) (hringAdv : φ .ringAdv = false) (hwins : φ .wins =
    false) (hccs : φ .ccs = false) (hqueues : φ .queues = false) (hhaltReq : φ .haltReq = false) (hfrozen : φ .frozen
    = false) (hdumps : φ .dumps = false) :
    Kept φ s0 (State.vfPut s p o ix a v errs) := by
  unfold State.vfPut
  with_reducible
    repeat'
      first
      | assumption | (intro _) | apply kept_ite | apply State.regWrite_kept | apply State.updConfigW_kept
      | apply State.fmtTableW_kept | apply State.colConfigW_kept | apply State.ckpConfigW_kept
      | apply State.mailGo_kept | apply State.cntCtrlW_kept | apply State.partSepiaW_kept | apply State.partDumpW_kept
      | apply State.whenBit_kept | apply State.seqPut_kept | apply State.quePut_kept | split | dsimp only

theorem State.ringBaseW_kept {φ : Part → Bool} {s0 s : State} (p : Nat) (i : Nat) (lo : Word) (hi : Word) (hk : Kept φ
    s0 s) (hregs : φ .regs = false) (hout : φ .out = false) :
    Kept φ s0 (State.ringBaseW s p i lo hi) := by
  unfold State.ringBaseW
  with_reducible
    repeat'
      first
      | assumption | (intro _) | apply kept_ite | apply State.regWrite_kept | apply State.ringErrCfg_kept | split
      | dsimp only

theorem State.portCtrlW_kept {φ : Part → Bool} {s0 s : State} (n : Nat) (v : Word) (hk : Kept φ s0 s) (hkeys : φ .keys
    = false) (hregs : φ .regs = false) (hports : φ .ports = false) (hlakes : φ .lakes = false) (hout : φ .out = false)
    (husage : φ .usage = false) (hwins : φ .wins = false) (hevents : φ .events = false) :
    Kept φ s0 (State.portCtrlW s n v) := by
  unfold State.portCtrlW
  with_reducible
    repeat'
      first
      | assumption | (intro _) | apply State.setBits_kept | apply State.regWrite_kept | apply State.portRetrain_kept
      | apply State.portRekey_kept | apply State.portEnable_kept | apply State.whenBit_kept | dsimp only

theorem State.pfPut_kept {φ : Part → Bool} {s0 s : State} (who : Nat) (fn : Nat) (o : Nat) (ix : List Nat) (a : Nat)
    (v : Word) (errs : List ReadErr) (hk : Kept φ s0 s) (hmem : φ .mem = false) (hkeys : φ .keys = false) (hcores : φ
    .cores = false) (hfuses : φ .fuses = false) (hpower : φ .power = false) (htray : φ .tray = false) (hdmas : φ .dmas
    = false) (hregs : φ .regs = false) (hports : φ .ports = false) (hlakes : φ .lakes = false) (hmtr : φ .mtr = false)
    (hshadows : φ .shadows = false) (hout : φ .out = false) (hseqs : φ .seqs = false) (hpoison : φ .poison = false)
    (hchannels : φ .channels = false) (hkeeper : φ .keeper = false) (husage : φ .usage = false) (htenancies : φ
    .tenancies = false) (hupds : φ .upds = false) (hringAdv : φ .ringAdv = false) (hwins : φ .wins = false) (hccs : φ
    .ccs = false) (hqueues : φ .queues = false) (hevents : φ .events = false) (hbus : φ .bus = false) (htime : φ .time
    = false) (hhaltReq : φ .haltReq = false) (hhalt : φ .halt = false) (hfrozen : φ .frozen = false) (hdumps : φ
    .dumps = false) (hpcie : φ .pcie = false) :
    Kept φ s0 (State.pfPut s who fn o ix a v errs) := by
  unfold State.pfPut
  with_reducible
    repeat'
      first
      | assumption | (intro _) | apply kept_ite | apply State.regWrite_kept | apply State.mtrCtrlW_kept
      | apply State.rtcSet_kept | apply State.limCtrlW_kept | apply State.capW_kept | apply State.slotW_kept
      | apply State.queueCfgW_kept | apply State.queueDb_kept | apply State.layoutW_kept | apply State.assign_kept
      | apply State.haltCtrlW_kept | apply State.mailGo_kept | apply State.coreStatW_kept | apply State.rstCtrlW_kept
      | apply State.chalCtrlW_kept | apply State.lcsTransW_kept | apply State.lcsDebugW_kept
      | apply State.stepCtrlW_kept | apply State.dumpCtrlW_kept | apply State.sepiaCtrlW_kept
      | apply State.winWrite_kept | apply State.psplitW_kept | apply State.trayCtrlW_kept | apply State.timeOfsW_kept
      | apply State.kick_kept | apply State.probeW_kept | apply State.whenBit_kept | apply State.portCtrlW_kept
      | split | dsimp only

theorem State.regPut_kept {φ : Part → Bool} {s0 s : State} (who : Nat) (a : Nat) (v : Word) (errs : List ReadErr) (hk
    : Kept φ s0 s) (hmem : φ .mem = false) (hkeys : φ .keys = false) (hcores : φ .cores = false) (hfuses : φ .fuses =
    false) (hpower : φ .power = false) (htray : φ .tray = false) (hdmas : φ .dmas = false) (hregs : φ .regs = false)
    (hports : φ .ports = false) (hlakes : φ .lakes = false) (hmtr : φ .mtr = false) (hshadows : φ .shadows = false)
    (hout : φ .out = false) (hseqs : φ .seqs = false) (hpoison : φ .poison = false) (hchannels : φ .channels = false)
    (hkeeper : φ .keeper = false) (husage : φ .usage = false) (htenancies : φ .tenancies = false) (hupds : φ .upds =
    false) (hringAdv : φ .ringAdv = false) (hwins : φ .wins = false) (hccs : φ .ccs = false) (hqueues : φ .queues =
    false) (hevents : φ .events = false) (hbus : φ .bus = false) (htime : φ .time = false) (hhaltReq : φ .haltReq =
    false) (hhalt : φ .halt = false) (hfrozen : φ .frozen = false) (hdumps : φ .dumps = false) (hpcie : φ .pcie =
    false) :
    Kept φ s0 (State.regPut s who a v errs) := by
  unfold State.regPut
  with_reducible
    repeat'
      first
      | assumption | (intro _) | apply kept_ite | apply State.vfPut_kept | apply State.pfPut_kept | split | dsimp only

theorem State.writeDword_kept {φ : Part → Bool} {s0 s : State} (r : RegReq) (a : Nat) (v : Word) (errs : List ReadErr)
    (hk : Kept φ s0 s) (hmem : φ .mem = false) (hkeys : φ .keys = false) (hcores : φ .cores = false) (hfuses : φ
    .fuses = false) (hpower : φ .power = false) (htray : φ .tray = false) (hdmas : φ .dmas = false) (hregs : φ .regs =
    false) (hports : φ .ports = false) (hlakes : φ .lakes = false) (hmtr : φ .mtr = false) (hshadows : φ .shadows =
    false) (hout : φ .out = false) (hseqs : φ .seqs = false) (hpoison : φ .poison = false) (hchannels : φ .channels =
    false) (hkeeper : φ .keeper = false) (husage : φ .usage = false) (htenancies : φ .tenancies = false) (hupds : φ
    .upds = false) (hringAdv : φ .ringAdv = false) (hwins : φ .wins = false) (hccs : φ .ccs = false) (hqueues : φ
    .queues = false) (hevents : φ .events = false) (hbus : φ .bus = false) (htime : φ .time = false) (hhaltReq : φ
    .haltReq = false) (hhalt : φ .halt = false) (hfrozen : φ .frozen = false) (hdumps : φ .dumps = false) (hpcie : φ
    .pcie = false) :
    Kept φ s0 (State.writeDword s r a v errs) := by
  unfold State.writeDword
  with_reducible
    repeat'
      first
      | assumption | (intro _) | apply State.write_kept | apply State.rgnAccess_kept | apply State.regPut_kept | split
      | dsimp only

theorem State.writeSplit_kept {φ : Part → Bool} {s0 s : State} (r : RegReq) (a : Nat) (n : Nat) (v : Nat) (errs : List
    ReadErr) (hk : Kept φ s0 s) (hmem : φ .mem = false) (hkeys : φ .keys = false) (hcores : φ .cores = false) (hfuses
    : φ .fuses = false) (hpower : φ .power = false) (htray : φ .tray = false) (hdmas : φ .dmas = false) (hregs : φ
    .regs = false) (hports : φ .ports = false) (hlakes : φ .lakes = false) (hmtr : φ .mtr = false) (hshadows : φ
    .shadows = false) (hout : φ .out = false) (hseqs : φ .seqs = false) (hpoison : φ .poison = false) (hchannels : φ
    .channels = false) (hkeeper : φ .keeper = false) (husage : φ .usage = false) (htenancies : φ .tenancies = false)
    (hupds : φ .upds = false) (hringAdv : φ .ringAdv = false) (hwins : φ .wins = false) (hccs : φ .ccs = false)
    (hqueues : φ .queues = false) (hevents : φ .events = false) (hbus : φ .bus = false) (htime : φ .time = false)
    (hhaltReq : φ .haltReq = false) (hhalt : φ .halt = false) (hfrozen : φ .frozen = false) (hdumps : φ .dumps =
    false) (hpcie : φ .pcie = false) :
    Kept φ s0 (State.writeSplit s r a n v errs) := by
  unfold State.writeSplit
  with_reducible
    repeat'
      first
      | assumption | (intro _) | apply State.writeDword_kept | apply kept_foldl | dsimp only

theorem State.write8_kept {φ : Part → Bool} {s0 s : State} (r : RegReq) (a : Nat) (lo : Word) (hi : Word) (hk : Kept φ
    s0 s) (hmem : φ .mem = false) (hkeys : φ .keys = false) (hcores : φ .cores = false) (hfuses : φ .fuses = false)
    (hpower : φ .power = false) (htray : φ .tray = false) (hdmas : φ .dmas = false) (hregs : φ .regs = false) (hports
    : φ .ports = false) (hlakes : φ .lakes = false) (hmtr : φ .mtr = false) (hshadows : φ .shadows = false) (hout : φ
    .out = false) (hseqs : φ .seqs = false) (hpoison : φ .poison = false) (hchannels : φ .channels = false) (hkeeper :
    φ .keeper = false) (husage : φ .usage = false) (htenancies : φ .tenancies = false) (hupds : φ .upds = false)
    (hringAdv : φ .ringAdv = false) (hwins : φ .wins = false) (hccs : φ .ccs = false) (hqueues : φ .queues = false)
    (hevents : φ .events = false) (hbus : φ .bus = false) (htime : φ .time = false) (hhaltReq : φ .haltReq = false)
    (hhalt : φ .halt = false) (hfrozen : φ .frozen = false) (hdumps : φ .dumps = false) (hpcie : φ .pcie = false) :
    Kept φ s0 (State.write8 s r a lo hi) := by
  unfold State.write8
  with_reducible
    repeat'
      first
      | assumption | (intro _) | apply kept_ite | apply State.write_kept | apply State.ringBaseW_kept
      | apply State.writeSplit_kept | split | dsimp only

theorem State.read8_kept {φ : Part → Bool} {s0 s : State} (r : RegReq) (a : Nat) (hk : Kept φ s0 s) (hkeys : φ .keys =
    false) (hregs : φ .regs = false) (hshadows : φ .shadows = false) (hout : φ .out = false) (hpoison : φ .poison =
    false) (hchannels : φ .channels = false) (hupds : φ .upds = false) (hhaltReq : φ .haltReq = false) :
    Kept φ s0 (State.read8 s r a) := by
  unfold State.read8
  with_reducible
    repeat'
      first
      | assumption | (intro _) | apply kept_ite | apply State.emit_kept | apply State.access_kept
      | apply State.readLive_kept | apply State.readSplit_kept | apply kept_ite_fst | (apply kept_of_eq; assumption)
      | split | dsimp only

theorem State.write4_kept {φ : Part → Bool} {s0 s : State} (r : RegReq) (a : Nat) (v : Word) (errs : List ReadErr) (hk
    : Kept φ s0 s) (hmem : φ .mem = false) (hkeys : φ .keys = false) (hcores : φ .cores = false) (hfuses : φ .fuses =
    false) (hpower : φ .power = false) (htray : φ .tray = false) (hdmas : φ .dmas = false) (hregs : φ .regs = false)
    (hports : φ .ports = false) (hlakes : φ .lakes = false) (hmtr : φ .mtr = false) (hshadows : φ .shadows = false)
    (hout : φ .out = false) (hseqs : φ .seqs = false) (hpoison : φ .poison = false) (hchannels : φ .channels = false)
    (hkeeper : φ .keeper = false) (husage : φ .usage = false) (htenancies : φ .tenancies = false) (hupds : φ .upds =
    false) (hringAdv : φ .ringAdv = false) (hwins : φ .wins = false) (hccs : φ .ccs = false) (hqueues : φ .queues =
    false) (hevents : φ .events = false) (hbus : φ .bus = false) (htime : φ .time = false) (hhaltReq : φ .haltReq =
    false) (hhalt : φ .halt = false) (hfrozen : φ .frozen = false) (hdumps : φ .dumps = false) (hpcie : φ .pcie =
    false) :
    Kept φ s0 (State.write4 s r a v errs) := by
  unfold State.write4
  with_reducible
    repeat'
      first
      | assumption | (intro _) | apply State.writeSplit_kept | dsimp only

end Sys2Proof.Machine
end

