-- ==== Sys2Proof/Laws/KeptExec.lean ====
section
/-! SUPPORT. `Kept` for the meaning of every command (Sys2Proof/Laws/Kept.lean). -/

namespace Sys2Proof.Machine

set_option linter.unusedTactic false
set_option linter.unreachableTactic false

theorem execRegisterWrite_kept {φ : Part → Bool} {s0 s : State} {t1 : State} (r : RegReq) (a : Nat) (v : Word) (errs :
    List ReadErr) (hk : Kept φ s0 s) (hmem : φ .mem = false) (hkeys : φ .keys = false) (hcores : φ .cores = false)
    (hfuses : φ .fuses = false) (hpower : φ .power = false) (htray : φ .tray = false) (hdmas : φ .dmas = false) (hregs
    : φ .regs = false) (hports : φ .ports = false) (hlakes : φ .lakes = false) (hmtr : φ .mtr = false) (hshadows : φ
    .shadows = false) (hout : φ .out = false) (hseqs : φ .seqs = false) (hpoison : φ .poison = false) (hchannels : φ
    .channels = false) (hkeeper : φ .keeper = false) (husage : φ .usage = false) (htenancies : φ .tenancies = false)
    (hupds : φ .upds = false) (hringAdv : φ .ringAdv = false) (hwins : φ .wins = false) (hccs : φ .ccs = false)
    (hqueues : φ .queues = false) (hevents : φ .events = false) (hbus : φ .bus = false) (htime : φ .time = false)
    (hhaltReq : φ .haltReq = false) (hhalt : φ .halt = false) (hfrozen : φ .frozen = false) (hdumps : φ .dumps =
    false) (hpcie : φ .pcie = false) (e : execRegisterWrite r a v errs s = .next t1) :
    Kept φ s0 t1 := by
  unfold execRegisterWrite at e
  injection e with e
  subst e
  with_reducible
    repeat'
      first
      | assumption | (intro _) | apply State.write4_kept | dsimp only

theorem execRcRead_kept {φ : Part → Bool} {s0 s : State} {t1 : State} (r : RegReq) (a : Nat) (hk : Kept φ s0 s) (hkeys
    : φ .keys = false) (hregs : φ .regs = false) (hshadows : φ .shadows = false) (hout : φ .out = false) (hpoison : φ
    .poison = false) (hchannels : φ .channels = false) (hupds : φ .upds = false) (hhaltReq : φ .haltReq = false) (e :
    execRcRead r a s = .next t1) :
    Kept φ s0 t1 := by
  unfold execRcRead at e
  injection e with e
  subst e
  with_reducible
    repeat'
      first
      | assumption | (intro _) | apply State.read4_kept | dsimp only

theorem execLoReadLatch_kept {φ : Part → Bool} {s0 s : State} {t1 : State} (r : RegReq) (a : Nat) (hk : Kept φ s0 s)
    (hkeys : φ .keys = false) (hregs : φ .regs = false) (hshadows : φ .shadows = false) (hout : φ .out = false)
    (hpoison : φ .poison = false) (hchannels : φ .channels = false) (hupds : φ .upds = false) (hhaltReq : φ .haltReq =
    false) (e : execLoReadLatch r a s = .next t1) :
    Kept φ s0 t1 := by
  unfold execLoReadLatch at e
  injection e with e
  subst e
  with_reducible
    repeat'
      first
      | assumption | (intro _) | apply State.read4_kept | dsimp only

theorem execHiReadShadow_kept {φ : Part → Bool} {s0 s : State} {t1 : State} (r : RegReq) (a : Nat) (hk : Kept φ s0 s)
    (hkeys : φ .keys = false) (hregs : φ .regs = false) (hshadows : φ .shadows = false) (hout : φ .out = false)
    (hpoison : φ .poison = false) (hchannels : φ .channels = false) (hupds : φ .upds = false) (hhaltReq : φ .haltReq =
    false) (e : execHiReadShadow r a s = .next t1) :
    Kept φ s0 t1 := by
  unfold execHiReadShadow at e
  injection e with e
  subst e
  with_reducible
    repeat'
      first
      | assumption | (intro _) | apply State.read4_kept | dsimp only

theorem execPairRead8byte_kept {φ : Part → Bool} {s0 s : State} {t1 : State} (r : RegReq) (a : Nat) (hk : Kept φ s0 s)
    (hkeys : φ .keys = false) (hregs : φ .regs = false) (hshadows : φ .shadows = false) (hout : φ .out = false)
    (hpoison : φ .poison = false) (hchannels : φ .channels = false) (hupds : φ .upds = false) (hhaltReq : φ .haltReq =
    false) (e : execPairRead8byte r a s = .next t1) :
    Kept φ s0 t1 := by
  unfold execPairRead8byte at e
  injection e with e
  subst e
  with_reducible
    repeat'
      first
      | assumption | (intro _) | apply State.read8_kept | dsimp only

theorem execPairWrite8byte_kept {φ : Part → Bool} {s0 s : State} {t1 : State} (r : RegReq) (a : Nat) (lo : Word) (hi :
    Word) (hk : Kept φ s0 s) (hmem : φ .mem = false) (hkeys : φ .keys = false) (hcores : φ .cores = false) (hfuses : φ
    .fuses = false) (hpower : φ .power = false) (htray : φ .tray = false) (hdmas : φ .dmas = false) (hregs : φ .regs =
    false) (hports : φ .ports = false) (hlakes : φ .lakes = false) (hmtr : φ .mtr = false) (hshadows : φ .shadows =
    false) (hout : φ .out = false) (hseqs : φ .seqs = false) (hpoison : φ .poison = false) (hchannels : φ .channels =
    false) (hkeeper : φ .keeper = false) (husage : φ .usage = false) (htenancies : φ .tenancies = false) (hupds : φ
    .upds = false) (hringAdv : φ .ringAdv = false) (hwins : φ .wins = false) (hccs : φ .ccs = false) (hqueues : φ
    .queues = false) (hevents : φ .events = false) (hbus : φ .bus = false) (htime : φ .time = false) (hhaltReq : φ
    .haltReq = false) (hhalt : φ .halt = false) (hfrozen : φ .frozen = false) (hdumps : φ .dumps = false) (hpcie : φ
    .pcie = false) (e : execPairWrite8byte r a lo hi s = .next t1) :
    Kept φ s0 t1 := by
  unfold execPairWrite8byte at e
  injection e with e
  subst e
  with_reducible
    repeat'
      first
      | assumption | (intro _) | apply State.write8_kept | dsimp only

theorem execAccessTimeout_kept {φ : Part → Bool} {s0 s : State} {t1 : State} (r : RegReq) (a : Nat) (write : Bool) (hk
    : Kept φ s0 s) (hout : φ .out = false) (e : execAccessTimeout r a write s = .next t1) :
    Kept φ s0 t1 := by
  unfold execAccessTimeout at e
  injection e with e
  subst e
  with_reducible
    repeat'
      first
      | assumption | (intro _) | apply kept_ite | apply State.emit_kept | apply State.access_kept | split | dsimp only

theorem execTamperEvent_kept {φ : Part → Bool} {s0 s : State} {t1 : State} (cause : Nat) (hk : Kept φ s0 s) (hkeys : φ
    .keys = false) (hfuses : φ .fuses = false) (hregs : φ .regs = false) (hhaltReq : φ .haltReq = false) (e :
    execTamperEvent cause s = .next t1) :
    Kept φ s0 t1 := by
  unfold execTamperEvent at e
  injection e with e
  subst e
  with_reducible
    repeat'
      first
      | assumption | (intro _) | apply State.tamper_kept | dsimp only

theorem execHalt_kept {φ : Part → Bool} {s0 s : State} {t1 : State}  (hk : Kept φ s0 s) (hcores : φ .cores = false)
    (hfuses : φ .fuses = false) (hdmas : φ .dmas = false) (hregs : φ .regs = false) (hout : φ .out = false) (hseqs : φ
    .seqs = false) (husage : φ .usage = false) (hqueues : φ .queues = false) (hevents : φ .events = false) (hhaltReq :
    φ .haltReq = false) (hhalt : φ .halt = false) (hfrozen : φ .frozen = false) (e : execHalt s = .next t1) :
    Kept φ s0 t1 := by
  unfold execHalt at e
  injection e with e
  subst e
  with_reducible
    repeat'
      first
      | assumption | (intro _) | apply State.halt_kept | dsimp only

theorem execHaltStopComplete_kept {φ : Part → Bool} {s0 s : State} {t1 : State}  (hk : Kept φ s0 s) (hhalt : φ .halt =
    false) (e : execHaltStopComplete s = .next t1) :
    Kept φ s0 t1 := by
  unfold execHaltStopComplete at e
  injection e with e
  subst e
  with_reducible
    repeat'
      first
      | assumption | (intro _) | apply State.haltDrained_kept | dsimp only

theorem execHaltCmd_kept {φ : Part → Bool} {s0 s : State} {t1 : State} (r : RegReq) (v : Word) (hk : Kept φ s0 s)
    (hout : φ .out = false) (hhaltReq : φ .haltReq = false) (e : execHaltCmd r v s = .next t1) :
    Kept φ s0 t1 := by
  unfold execHaltCmd at e
  injection e with e
  subst e
  with_reducible
    repeat'
      first
      | assumption | (intro _) | apply State.write_kept | apply State.haltCtrlW_kept | dsimp only

theorem execLimiterEstimate_kept {φ : Part → Bool} {s0 s : State} {t1 : State} (tot : Nat) (pool : Nat) (base : Nat)
    (eng : Nat) (nme : Nat) (i0 : Nat) (i1 : Nat) (hk : Kept φ s0 s) (hpower : φ .power = false) (hregs : φ .regs =
    false) (e : execLimiterEstimate tot pool base eng nme i0 i1 s = .next t1) :
    Kept φ s0 t1 := by
  unfold execLimiterEstimate at e
  injection e with e
  subst e
  with_reducible
    repeat'
      first
      | assumption | (intro _) | apply State.estimate_kept | dsimp only

theorem execLimiterCalibration_kept {φ : Part → Bool} {s0 s : State} {t1 : State}  (hk : Kept φ s0 s) (hpower : φ
    .power = false) (hregs : φ .regs = false) (hout : φ .out = false) (e : execLimiterCalibration s = .next t1) :
    Kept φ s0 t1 := by
  unfold execLimiterCalibration at e
  injection e with e
  subst e
  with_reducible
    repeat'
      first
      | assumption | (intro _) | apply State.calibrate_kept | dsimp only

theorem execThermalEstimate_kept {φ : Part → Bool} {s0 s : State} {t1 : State} (tjs : List Nat) (hk : Kept φ s0 s)
    (hpower : φ .power = false) (hregs : φ .regs = false) (hout : φ .out = false) (e : execThermalEstimate tjs s =
    .next t1) :
    Kept φ s0 t1 := by
  unfold execThermalEstimate at e
  injection e with e
  subst e
  with_reducible
    repeat'
      first
      | assumption | (intro _) | apply State.thermal_kept | apply State.release_kept | dsimp only

theorem execThermtrip_kept {φ : Part → Bool} {s0 s : State} {t1 : State}  (hk : Kept φ s0 s) (hpower : φ .power =
    false) (hregs : φ .regs = false) (hout : φ .out = false) (hevents : φ .events = false) (hbus : φ .bus = false)
    (hhaltReq : φ .haltReq = false) (e : execThermtrip s = .next t1) :
    Kept φ s0 t1 := by
  unfold execThermtrip at e
  injection e with e
  subst e
  with_reducible
    repeat'
      first
      | assumption | (intro _) | apply State.thermtrip_kept | dsimp only

theorem execSingleStep_kept {φ : Part → Bool} {s0 s : State} {t1 : State} (r : RegReq) (v : Word) (hk : Kept φ s0 s)
    (hregs : φ .regs = false) (hout : φ .out = false) (hseqs : φ .seqs = false) (e : execSingleStep r v s = .next t1)
    :
    Kept φ s0 t1 := by
  unfold execSingleStep at e
  injection e with e
  subst e
  with_reducible
    repeat'
      first
      | assumption | (intro _) | apply State.write_kept | apply State.stepCtrlW_kept | dsimp only

theorem execStepHoldWrite_kept {φ : Part → Bool} {s0 s : State} {t1 : State} (r : RegReq) (v : Word) (hk : Kept φ s0
    s) (hregs : φ .regs = false) (hout : φ .out = false) (hseqs : φ .seqs = false) (e : execStepHoldWrite r v s =
    .next t1) :
    Kept φ s0 t1 := by
  unfold execStepHoldWrite at e
  injection e with e
  subst e
  with_reducible
    repeat'
      first
      | assumption | (intro _) | apply State.write_kept | apply State.stepCtrlW_kept | dsimp only

theorem execFmtTableWrite_kept {φ : Part → Bool} {s0 s : State} {t1 : State} (r : RegReq) (p : Nat) (off : Nat) (v :
    Word) (hk : Kept φ s0 s) (hregs : φ .regs = false) (hout : φ .out = false) (e : execFmtTableWrite r p off v s =
    .next t1) :
    Kept φ s0 t1 := by
  unfold execFmtTableWrite at e
  injection e with e
  subst e
  with_reducible
    repeat'
      first
      | assumption | (intro _) | apply kept_ite | apply State.write_kept | apply State.fmtTableW_kept | split
      | dsimp only

theorem execSeqRun_kept {φ : Part → Bool} {s0 s : State} {t1 : State} (r : RegReq) (p : Nat) (errs : List ReadErr) (hk
    : Kept φ s0 s) (hmem : φ .mem = false) (hkeys : φ .keys = false) (hcores : φ .cores = false) (hregs : φ .regs =
    false) (hlakes : φ .lakes = false) (hout : φ .out = false) (hseqs : φ .seqs = false) (hpoison : φ .poison = false)
    (hchannels : φ .channels = false) (husage : φ .usage = false) (hupds : φ .upds = false) (hringAdv : φ .ringAdv =
    false) (hccs : φ .ccs = false) (hqueues : φ .queues = false) (hhaltReq : φ .haltReq = false) (hfrozen : φ .frozen
    = false) (e : execSeqRun r p errs s = .next t1) :
    Kept φ s0 t1 := by
  unfold execSeqRun at e
  injection e with e
  subst e
  with_reducible
    repeat'
      first
      | assumption | (intro _) | apply State.write_kept | apply State.seqRun_kept | dsimp only

theorem execSeqCont_kept {φ : Part → Bool} {s0 s : State} {t1 : State} (r : RegReq) (p : Nat) (hk : Kept φ s0 s)
    (hcores : φ .cores = false) (hregs : φ .regs = false) (hout : φ .out = false) (hseqs : φ .seqs = false) (e :
    execSeqCont r p s = .next t1) :
    Kept φ s0 t1 := by
  unfold execSeqCont at e
  injection e with e
  subst e
  with_reducible
    repeat'
      first
      | assumption | (intro _) | apply State.write_kept | apply State.seqCont_kept | dsimp only

theorem execSeqStop_kept {φ : Part → Bool} {s0 s : State} {t1 : State} (r : RegReq) (p : Nat) (hk : Kept φ s0 s)
    (hregs : φ .regs = false) (hout : φ .out = false) (hseqs : φ .seqs = false) (husage : φ .usage = false) (hqueues :
    φ .queues = false) (e : execSeqStop r p s = .next t1) :
    Kept φ s0 t1 := by
  unfold execSeqStop at e
  injection e with e
  subst e
  with_reducible
    repeat'
      first
      | assumption | (intro _) | apply State.write_kept | apply State.seqStop_kept | dsimp only

theorem execSeqResume_kept {φ : Part → Bool} {s0 s : State} {t1 : State} (r : RegReq) (p : Nat) (hk : Kept φ s0 s)
    (hregs : φ .regs = false) (hout : φ .out = false) (hseqs : φ .seqs = false) (e : execSeqResume r p s = .next t1) :
    Kept φ s0 t1 := by
  unfold execSeqResume at e
  injection e with e
  subst e
  with_reducible
    repeat'
      first
      | assumption | (intro _) | apply State.write_kept | apply State.seqResume_kept | dsimp only

theorem execPeriodFillComplete_kept {φ : Part → Bool} {s0 s : State} {t1 : State} (p : Nat) (errs : List ReadErr) (hk
    : Kept φ s0 s) (hkeys : φ .keys = false) (hcores : φ .cores = false) (hregs : φ .regs = false) (hout : φ .out =
    false) (hseqs : φ .seqs = false) (hpoison : φ .poison = false) (hchannels : φ .channels = false) (husage : φ
    .usage = false) (hupds : φ .upds = false) (hqueues : φ .queues = false) (hhaltReq : φ .haltReq = false) (hfrozen :
    φ .frozen = false) (e : execPeriodFillComplete p errs s = .next t1) :
    Kept φ s0 t1 := by
  unfold execPeriodFillComplete at e
  injection e with e
  subst e
  with_reducible
    repeat'
      first
      | assumption | (intro _) | apply State.periodFill_kept | dsimp only

theorem execGateWaitBeat_kept {φ : Part → Bool} {s0 s : State} {t1 : State} (p : Nat) (hk : Kept φ s0 s) (hcores : φ
    .cores = false) (hregs : φ .regs = false) (hout : φ .out = false) (hseqs : φ .seqs = false) (husage : φ .usage =
    false) (hqueues : φ .queues = false) (hfrozen : φ .frozen = false) (e : execGateWaitBeat p s = .next t1) :
    Kept φ s0 t1 := by
  unfold execGateWaitBeat at e
  injection e with e
  subst e
  with_reducible
    repeat'
      first
      | assumption | (intro _) | apply State.gateWait_kept | dsimp only

theorem execGateOpen_kept {φ : Part → Bool} {s0 s : State} {t1 : State} (x : GateIssue) (hk : Kept φ s0 s) (hcores : φ
    .cores = false) (hregs : φ .regs = false) (hout : φ .out = false) (hseqs : φ .seqs = false) (husage : φ .usage =
    false) (hupds : φ .upds = false) (hqueues : φ .queues = false) (hfrozen : φ .frozen = false) (e : execGateOpen x s
    = .next t1) :
    Kept φ s0 t1 := by
  unfold execGateOpen at e
  injection e with e
  subst e
  with_reducible
    repeat'
      first
      | assumption | (intro _) | apply State.gateOpen_kept | dsimp only

theorem execSchedLost_kept {φ : Part → Bool} {s0 s : State} {t1 : State} (p : Nat) (hk : Kept φ s0 s) (hregs : φ .regs
    = false) (hout : φ .out = false) (hseqs : φ .seqs = false) (husage : φ .usage = false) (e : execSchedLost p s =
    .next t1) :
    Kept φ s0 t1 := by
  unfold execSchedLost at e
  injection e with e
  subst e
  with_reducible
    repeat'
      first
      | assumption | (intro _) | apply State.schedLost_kept | dsimp only

theorem execCatchupLimitWrite_kept {φ : Part → Bool} {s0 s : State} {t1 : State} (r : RegReq) (p : Nat) (v : Word) (hk
    : Kept φ s0 s) (hregs : φ .regs = false) (hout : φ .out = false) (hseqs : φ .seqs = false) (husage : φ .usage =
    false) (e : execCatchupLimitWrite r p v s = .next t1) :
    Kept φ s0 t1 := by
  unfold execCatchupLimitWrite at e
  injection e with e
  subst e
  with_reducible
    repeat'
      first
      | assumption | (intro _) | apply State.write_kept | apply State.catchupW_kept | dsimp only

theorem execBundleExec_kept {φ : Part → Bool} {s0 s : State} {t1 : State} (p : Nat) (ue : Bool) (hk : Kept φ s0 s)
    (hcores : φ .cores = false) (hregs : φ .regs = false) (hout : φ .out = false) (hseqs : φ .seqs = false) (husage :
    φ .usage = false) (hqueues : φ .queues = false) (hfrozen : φ .frozen = false) (e : execBundleExec p ue s = .next
    t1) :
    Kept φ s0 t1 := by
  unfold execBundleExec at e
  injection e with e
  subst e
  with_reducible
    repeat'
      first
      | assumption | (intro _) | apply State.bundleExec_kept | dsimp only

theorem execCtlNop_kept {φ : Part → Bool} {s0 s : State} {t1 : State} (p : Nat) (hk : Kept φ s0 s) (hseqs : φ .seqs =
    false) (e : execCtlNop p s = .next t1) :
    Kept φ s0 t1 := by
  unfold execCtlNop at e
  injection e with e
  subst e
  with_reducible
    repeat'
      first
      | assumption | (intro _) | apply State.ctlOp_kept | dsimp only

theorem execIdle_kept {φ : Part → Bool} {s0 s : State} {t1 : State} (p : Nat) (hk : Kept φ s0 s) (hseqs : φ .seqs =
    false) (e : execIdle p s = .next t1) :
    Kept φ s0 t1 := by
  unfold execIdle at e
  injection e with e
  subst e
  with_reducible
    repeat'
      first
      | assumption | (intro _) | apply State.ctlOp_kept | dsimp only

theorem execFsig_kept {φ : Part → Bool} {s0 s : State} {t1 : State} (p : Nat) (hk : Kept φ s0 s) (hregs : φ .regs =
    false) (hout : φ .out = false) (hseqs : φ .seqs = false) (hqueues : φ .queues = false) (e : execFsig p s = .next
    t1) :
    Kept φ s0 t1 := by
  unfold execFsig at e
  injection e with e
  subst e
  with_reducible
    repeat'
      first
      | assumption | (intro _) | apply State.fenceSignal_kept | apply State.ctlOp_kept | dsimp only

theorem execLoopOp_kept {φ : Part → Bool} {s0 s : State} {t1 : State} (p : Nat) (errs : List ReadErr) (hk : Kept φ s0
    s) (hkeys : φ .keys = false) (hcores : φ .cores = false) (hregs : φ .regs = false) (hout : φ .out = false) (hseqs
    : φ .seqs = false) (hpoison : φ .poison = false) (hchannels : φ .channels = false) (husage : φ .usage = false)
    (hupds : φ .upds = false) (hqueues : φ .queues = false) (hhaltReq : φ .haltReq = false) (hfrozen : φ .frozen =
    false) (e : execLoopOp p errs s = .next t1) :
    Kept φ s0 t1 := by
  unfold execLoopOp at e
  injection e with e
  subst e
  with_reducible
    repeat'
      first
      | assumption | (intro _) | apply State.ctlOp_kept | apply State.loopTo_kept | dsimp only

theorem execCommit_kept {φ : Part → Bool} {s0 s : State} {t1 : State} (p : Nat) (hk : Kept φ s0 s) (hcores : φ .cores
    = false) (hregs : φ .regs = false) (hout : φ .out = false) (hseqs : φ .seqs = false) (husage : φ .usage = false)
    (hupds : φ .upds = false) (hqueues : φ .queues = false) (hfrozen : φ .frozen = false) (e : execCommit p s = .next
    t1) :
    Kept φ s0 t1 := by
  unfold execCommit at e
  injection e with e
  subst e
  with_reducible
    repeat'
      first
      | assumption | (intro _) | apply State.commitOp_kept | apply State.ctlOp_kept | dsimp only

theorem execSlack_kept {φ : Part → Bool} {s0 s : State} {t1 : State} (p : Nat) (ue : Bool) (hk : Kept φ s0 s) (hcores
    : φ .cores = false) (hregs : φ .regs = false) (hout : φ .out = false) (hseqs : φ .seqs = false) (husage : φ .usage
    = false) (hqueues : φ .queues = false) (hfrozen : φ .frozen = false) (e : execSlack p ue s = .next t1) :
    Kept φ s0 t1 := by
  unfold execSlack at e
  injection e with e
  subst e
  with_reducible
    repeat'
      first
      | assumption | (intro _) | apply State.slackOp_kept | dsimp only

theorem execEndOp_kept {φ : Part → Bool} {s0 s : State} {t1 : State} (p : Nat) (ue : Bool) (hk : Kept φ s0 s) (hcores
    : φ .cores = false) (hregs : φ .regs = false) (hout : φ .out = false) (hseqs : φ .seqs = false) (husage : φ .usage
    = false) (hqueues : φ .queues = false) (hfrozen : φ .frozen = false) (e : execEndOp p ue s = .next t1) :
    Kept φ s0 t1 := by
  unfold execEndOp at e
  injection e with e
  subst e
  with_reducible
    repeat'
      first
      | assumption | (intro _) | apply State.endOp_kept | dsimp only

theorem execEndComplete_kept {φ : Part → Bool} {s0 s : State} {t1 : State} (p : Nat) (hk : Kept φ s0 s) (hcores : φ
    .cores = false) (hregs : φ .regs = false) (hout : φ .out = false) (hseqs : φ .seqs = false) (husage : φ .usage =
    false) (hqueues : φ .queues = false) (hfrozen : φ .frozen = false) (e : execEndComplete p s = .next t1) :
    Kept φ s0 t1 := by
  unfold execEndComplete at e
  injection e with e
  subst e
  with_reducible
    repeat'
      first
      | assumption | (intro _) | apply State.endDone_kept | dsimp only

theorem execPeriodEnd_kept {φ : Part → Bool} {s0 s : State} {t1 : State} (p : Nat) (hk : Kept φ s0 s) (hcores : φ
    .cores = false) (hregs : φ .regs = false) (hout : φ .out = false) (hseqs : φ .seqs = false) (husage : φ .usage =
    false) (hqueues : φ .queues = false) (hfrozen : φ .frozen = false) (e : execPeriodEnd p s = .next t1) :
    Kept φ s0 t1 := by
  unfold execPeriodEnd at e
  injection e with e
  subst e
  with_reducible
    repeat'
      first
      | assumption | (intro _) | apply State.periodEnd_kept | dsimp only

theorem execGrpStart_kept {φ : Part → Bool} {s0 s : State} {t1 : State} (p : Nat) (i : Nat) (hk : Kept φ s0 s) (hcores
    : φ .cores = false) (hregs : φ .regs = false) (hout : φ .out = false) (hseqs : φ .seqs = false) (husage : φ .usage
    = false) (hqueues : φ .queues = false) (hfrozen : φ .frozen = false) (e : execGrpStart p i s = .next t1) :
    Kept φ s0 t1 := by
  unfold execGrpStart at e
  injection e with e
  subst e
  with_reducible
    repeat'
      first
      | assumption | (intro _) | apply State.grpStart_kept | dsimp only

theorem execBodyStart_kept {φ : Part → Bool} {s0 s : State} {t1 : State} (p : Nat) (hk : Kept φ s0 s) (hcores : φ
    .cores = false) (hregs : φ .regs = false) (hout : φ .out = false) (hseqs : φ .seqs = false) (husage : φ .usage =
    false) (hqueues : φ .queues = false) (hfrozen : φ .frozen = false) (e : execBodyStart p s = .next t1) :
    Kept φ s0 t1 := by
  unfold execBodyStart at e
  injection e with e
  subst e
  with_reducible
    repeat'
      first
      | assumption | (intro _) | apply State.bodyStart_kept | dsimp only

theorem execBodyEnd_kept {φ : Part → Bool} {s0 s : State} {t1 : State} (p : Nat) (core : Nat) (u : Nat) (hk : Kept φ
    s0 s) (hcores : φ .cores = false) (hregs : φ .regs = false) (hout : φ .out = false) (hseqs : φ .seqs = false)
    (husage : φ .usage = false) (hqueues : φ .queues = false) (hfrozen : φ .frozen = false) (e : execBodyEnd p core u
    s = .next t1) :
    Kept φ s0 t1 := by
  unfold execBodyEnd at e
  injection e with e
  subst e
  with_reducible
    repeat'
      first
      | assumption | (intro _) | apply State.bodyEnd_kept | dsimp only

theorem execXferMemrd_kept {φ : Part → Bool} {s0 s : State} {t1 : State} (p : Nat) (hk : Kept φ s0 s) (hcores : φ
    .cores = false) (hregs : φ .regs = false) (hout : φ .out = false) (hseqs : φ .seqs = false) (husage : φ .usage =
    false) (hupds : φ .upds = false) (hqueues : φ .queues = false) (hfrozen : φ .frozen = false) (e : execXferMemrd p
    s = .next t1) :
    Kept φ s0 t1 := by
  unfold execXferMemrd at e
  injection e with e
  subst e
  with_reducible
    repeat'
      first
      | assumption | (intro _) | apply State.xferOp_kept | apply State.memXfer_kept | dsimp only

theorem execXferMemwr_kept {φ : Part → Bool} {s0 s : State} {t1 : State} (p : Nat) (hk : Kept φ s0 s) (hcores : φ
    .cores = false) (hregs : φ .regs = false) (hout : φ .out = false) (hseqs : φ .seqs = false) (husage : φ .usage =
    false) (hupds : φ .upds = false) (hqueues : φ .queues = false) (hfrozen : φ .frozen = false) (e : execXferMemwr p
    s = .next t1) :
    Kept φ s0 t1 := by
  unfold execXferMemwr at e
  injection e with e
  subst e
  with_reducible
    repeat'
      first
      | assumption | (intro _) | apply State.xferOp_kept | apply State.memXfer_kept | dsimp only

theorem execMemTransferComplete_kept {φ : Part → Bool} {s0 s : State} {t1 : State} (p : Nat) (n : Nat) (errs : List
    ReadErr) (bad : SramErrs) (hk : Kept φ s0 s) (hmem : φ .mem = false) (hkeys : φ .keys = false) (hcores : φ .cores
    = false) (hregs : φ .regs = false) (hout : φ .out = false) (hseqs : φ .seqs = false) (hpoison : φ .poison = false)
    (hchannels : φ .channels = false) (husage : φ .usage = false) (hupds : φ .upds = false) (hqueues : φ .queues =
    false) (hhaltReq : φ .haltReq = false) (hfrozen : φ .frozen = false) (e : execMemTransferComplete p n errs bad s =
    .next t1) :
    Kept φ s0 t1 := by
  unfold execMemTransferComplete at e
  injection e with e
  subst e
  with_reducible
    repeat'
      first
      | assumption | (intro _) | apply State.xferDone_kept | dsimp only

theorem execXferNme_kept {φ : Part → Bool} {s0 s : State} {t1 : State} (p : Nat) (errs : List ReadErr) (hk : Kept φ s0
    s) (hkeys : φ .keys = false) (hcores : φ .cores = false) (hregs : φ .regs = false) (hout : φ .out = false) (hseqs
    : φ .seqs = false) (hpoison : φ .poison = false) (hchannels : φ .channels = false) (husage : φ .usage = false)
    (hupds : φ .upds = false) (hqueues : φ .queues = false) (hhaltReq : φ .haltReq = false) (hfrozen : φ .frozen =
    false) (e : execXferNme p errs s = .next t1) :
    Kept φ s0 t1 := by
  unfold execXferNme at e
  injection e with e
  subst e
  with_reducible
    repeat'
      first
      | assumption | (intro _) | apply State.xferOp_kept | apply State.nmeOp_kept | dsimp only

theorem execLltx_kept {φ : Part → Bool} {s0 s : State} {t1 : State} (p : Nat) (hk : Kept φ s0 s) (hcores : φ .cores =
    false) (hregs : φ .regs = false) (hout : φ .out = false) (hseqs : φ .seqs = false) (husage : φ .usage = false)
    (hwins : φ .wins = false) (hqueues : φ .queues = false) (hfrozen : φ .frozen = false) (e : execLltx p s = .next
    t1) :
    Kept φ s0 t1 := by
  unfold execLltx at e
  injection e with e
  subst e
  with_reducible
    repeat'
      first
      | assumption | (intro _) | apply State.xferOp_kept | apply State.lltx_kept | dsimp only

theorem execLlrx_kept {φ : Part → Bool} {s0 s : State} {t1 : State} (p : Nat) (hk : Kept φ s0 s) (hcores : φ .cores =
    false) (hregs : φ .regs = false) (hports : φ .ports = false) (hout : φ .out = false) (hseqs : φ .seqs = false)
    (husage : φ .usage = false) (hwins : φ .wins = false) (hqueues : φ .queues = false) (hfrozen : φ .frozen = false)
    (e : execLlrx p s = .next t1) :
    Kept φ s0 t1 := by
  unfold execLlrx at e
  injection e with e
  subst e
  with_reducible
    repeat'
      first
      | assumption | (intro _) | apply State.xferOp_kept | apply State.llrx_kept | dsimp only

theorem execRload_kept {φ : Part → Bool} {s0 s : State} {t1 : State} (p : Nat) (hk : Kept φ s0 s) (hcores : φ .cores =
    false) (hregs : φ .regs = false) (hout : φ .out = false) (hseqs : φ .seqs = false) (husage : φ .usage = false)
    (hupds : φ .upds = false) (hqueues : φ .queues = false) (hfrozen : φ .frozen = false) (e : execRload p s = .next
    t1) :
    Kept φ s0 t1 := by
  unfold execRload at e
  injection e with e
  subst e
  with_reducible
    repeat'
      first
      | assumption | (intro _) | apply State.xferOp_kept | apply State.rloadOp_kept | dsimp only

theorem execRloadComplete_kept {φ : Part → Bool} {s0 s : State} {t1 : State} (p : Nat) (n : Nat) (errs : List ReadErr)
    (hk : Kept φ s0 s) (hkeys : φ .keys = false) (hcores : φ .cores = false) (hregs : φ .regs = false) (hout : φ .out
    = false) (hseqs : φ .seqs = false) (hpoison : φ .poison = false) (hchannels : φ .channels = false) (husage : φ
    .usage = false) (hupds : φ .upds = false) (hqueues : φ .queues = false) (hhaltReq : φ .haltReq = false) (hfrozen :
    φ .frozen = false) (e : execRloadComplete p n errs s = .next t1) :
    Kept φ s0 t1 := by
  unfold execRloadComplete at e
  injection e with e
  subst e
  with_reducible
    repeat'
      first
      | assumption | (intro _) | apply State.rloadDone_kept | dsimp only

theorem execXferUpd_kept {φ : Part → Bool} {s0 s : State} {t1 : State} (p : Nat) (errs : List ReadErr) (hk : Kept φ s0
    s) (hkeys : φ .keys = false) (hcores : φ .cores = false) (hregs : φ .regs = false) (hout : φ .out = false) (hseqs
    : φ .seqs = false) (hpoison : φ .poison = false) (hchannels : φ .channels = false) (husage : φ .usage = false)
    (hupds : φ .upds = false) (hqueues : φ .queues = false) (hhaltReq : φ .haltReq = false) (hfrozen : φ .frozen =
    false) (e : execXferUpd p errs s = .next t1) :
    Kept φ s0 t1 := by
  unfold execXferUpd at e
  injection e with e
  subst e
  with_reducible
    repeat'
      first
      | assumption | (intro _) | apply State.xferOp_kept | apply State.updOp_kept | dsimp only

theorem execMeNop_kept {φ : Part → Bool} {s0 s : State} {t1 : State} (p : Nat) (core : Nat) (e : Nat) (err : UnitErr)
    (hk : Kept φ s0 s) (hcores : φ .cores = false) (hregs : φ .regs = false) (hout : φ .out = false) (hseqs : φ .seqs
    = false) (husage : φ .usage = false) (hqueues : φ .queues = false) (hfrozen : φ .frozen = false) (e : execMeNop p
    core e err s = .next t1) :
    Kept φ s0 t1 := by
  unfold execMeNop at e
  injection e with e
  subst e
  with_reducible
    repeat'
      first
      | assumption | (intro _) | apply State.meNop_kept | dsimp only

theorem execWload_kept {φ : Part → Bool} {s0 s : State} {t1 : State} (p : Nat) (core : Nat) (e : Nat) (err : UnitErr)
    (hk : Kept φ s0 s) (hcores : φ .cores = false) (hregs : φ .regs = false) (hout : φ .out = false) (hseqs : φ .seqs
    = false) (husage : φ .usage = false) (hupds : φ .upds = false) (hqueues : φ .queues = false) (hfrozen : φ .frozen
    = false) (e : execWload p core e err s = .next t1) :
    Kept φ s0 t1 := by
  unfold execWload at e
  injection e with e
  subst e
  with_reducible
    repeat'
      first
      | assumption | (intro _) | apply State.unitBeat_kept | apply wloadWork_kept | apply keptR_error
      | apply keptR_ite | apply keptR_ok' | (apply keptR_get; assumption) | (apply kept_of_eq; assumption)
      | dsimp only

theorem execMma_kept {φ : Part → Bool} {s0 s : State} {t1 : State} (p : Nat) (core : Nat) (e : Nat) (err : UnitErr)
    (hk : Kept φ s0 s) (hcores : φ .cores = false) (hregs : φ .regs = false) (hout : φ .out = false) (hseqs : φ .seqs
    = false) (husage : φ .usage = false) (hupds : φ .upds = false) (hqueues : φ .queues = false) (hfrozen : φ .frozen
    = false) (e : execMma p core e err s = .next t1) :
    Kept φ s0 t1 := by
  unfold execMma at e
  injection e with e
  subst e
  with_reducible
    repeat'
      first
      | assumption | (intro _) | apply State.unitBeat_kept | apply mmaWork_kept | apply keptR_error | apply keptR_ite
      | apply keptR_ok' | (apply keptR_get; assumption) | (apply kept_of_eq; assumption) | dsimp only

theorem execMout_kept {φ : Part → Bool} {s0 s : State} {t1 : State} (p : Nat) (core : Nat) (e : Nat) (err : UnitErr)
    (hk : Kept φ s0 s) (hcores : φ .cores = false) (hregs : φ .regs = false) (hout : φ .out = false) (hseqs : φ .seqs
    = false) (husage : φ .usage = false) (hupds : φ .upds = false) (hqueues : φ .queues = false) (hfrozen : φ .frozen
    = false) (e : execMout p core e err s = .next t1) :
    Kept φ s0 t1 := by
  unfold execMout at e
  injection e with e
  subst e
  with_reducible
    repeat'
      first
      | assumption | (intro _) | apply State.unitBeat_kept | apply moutWork_kept | apply keptR_error | apply keptR_ite
      | apply keptR_ok' | (apply keptR_get; assumption) | (apply kept_of_eq; assumption) | dsimp only

theorem execVeNop_kept {φ : Part → Bool} {s0 s : State} {t1 : State} (p : Nat) (core : Nat) (err : UnitErr) (hk : Kept
    φ s0 s) (hcores : φ .cores = false) (hregs : φ .regs = false) (hout : φ .out = false) (hseqs : φ .seqs = false)
    (husage : φ .usage = false) (hqueues : φ .queues = false) (hfrozen : φ .frozen = false) (e : execVeNop p core err
    s = .next t1) :
    Kept φ s0 t1 := by
  unfold execVeNop at e
  injection e with e
  subst e
  with_reducible
    repeat'
      first
      | assumption | (intro _) | apply okRes_kept | apply State.unitBeat_kept | apply keptR_error | apply keptR_ite
      | apply keptR_ok' | (apply keptR_get; assumption) | (apply kept_of_eq; assumption) | dsimp only

theorem execVld_kept {φ : Part → Bool} {s0 s : State} {t1 : State} (p : Nat) (core : Nat) (err : UnitErr) (hk : Kept φ
    s0 s) (hcores : φ .cores = false) (hregs : φ .regs = false) (hout : φ .out = false) (hseqs : φ .seqs = false)
    (husage : φ .usage = false) (hupds : φ .upds = false) (hqueues : φ .queues = false) (hfrozen : φ .frozen = false)
    (e : execVld p core err s = .next t1) :
    Kept φ s0 t1 := by
  unfold execVld at e
  injection e with e
  subst e
  with_reducible
    repeat'
      first
      | assumption | (intro _) | apply State.unitBeat_kept | apply vldWork_kept | apply keptR_error | apply keptR_ite
      | apply keptR_ok' | (apply keptR_get; assumption) | (apply kept_of_eq; assumption) | dsimp only

theorem execVst_kept {φ : Part → Bool} {s0 s : State} {t1 : State} (p : Nat) (core : Nat) (err : UnitErr) (hk : Kept φ
    s0 s) (hcores : φ .cores = false) (hregs : φ .regs = false) (hout : φ .out = false) (hseqs : φ .seqs = false)
    (husage : φ .usage = false) (hupds : φ .upds = false) (hqueues : φ .queues = false) (hfrozen : φ .frozen = false)
    (e : execVst p core err s = .next t1) :
    Kept φ s0 t1 := by
  unfold execVst at e
  injection e with e
  subst e
  with_reducible
    repeat'
      first
      | assumption | (intro _) | apply State.unitBeat_kept | apply vstWork_kept | apply keptR_error | apply keptR_ite
      | apply keptR_ok' | (apply keptR_get; assumption) | (apply kept_of_eq; assumption) | dsimp only

theorem execValuAdd_kept {φ : Part → Bool} {s0 s : State} {t1 : State} (p : Nat) (core : Nat) (err : UnitErr) (hk :
    Kept φ s0 s) (hcores : φ .cores = false) (hregs : φ .regs = false) (hout : φ .out = false) (hseqs : φ .seqs =
    false) (husage : φ .usage = false) (hupds : φ .upds = false) (hqueues : φ .queues = false) (hfrozen : φ .frozen =
    false) (e : execValuAdd p core err s = .next t1) :
    Kept φ s0 t1 := by
  unfold execValuAdd at e
  injection e with e
  subst e
  with_reducible
    repeat'
      first
      | assumption | (intro _) | apply State.valu_kept | dsimp only

theorem execValuSub_kept {φ : Part → Bool} {s0 s : State} {t1 : State} (p : Nat) (core : Nat) (err : UnitErr) (hk :
    Kept φ s0 s) (hcores : φ .cores = false) (hregs : φ .regs = false) (hout : φ .out = false) (hseqs : φ .seqs =
    false) (husage : φ .usage = false) (hupds : φ .upds = false) (hqueues : φ .queues = false) (hfrozen : φ .frozen =
    false) (e : execValuSub p core err s = .next t1) :
    Kept φ s0 t1 := by
  unfold execValuSub at e
  injection e with e
  subst e
  with_reducible
    repeat'
      first
      | assumption | (intro _) | apply State.valu_kept | dsimp only

theorem execValuMul_kept {φ : Part → Bool} {s0 s : State} {t1 : State} (p : Nat) (core : Nat) (err : UnitErr) (hk :
    Kept φ s0 s) (hcores : φ .cores = false) (hregs : φ .regs = false) (hout : φ .out = false) (hseqs : φ .seqs =
    false) (husage : φ .usage = false) (hupds : φ .upds = false) (hqueues : φ .queues = false) (hfrozen : φ .frozen =
    false) (e : execValuMul p core err s = .next t1) :
    Kept φ s0 t1 := by
  unfold execValuMul at e
  injection e with e
  subst e
  with_reducible
    repeat'
      first
      | assumption | (intro _) | apply State.valu_kept | dsimp only

theorem execValuFma_kept {φ : Part → Bool} {s0 s : State} {t1 : State} (p : Nat) (core : Nat) (err : UnitErr) (hk :
    Kept φ s0 s) (hcores : φ .cores = false) (hregs : φ .regs = false) (hout : φ .out = false) (hseqs : φ .seqs =
    false) (husage : φ .usage = false) (hupds : φ .upds = false) (hqueues : φ .queues = false) (hfrozen : φ .frozen =
    false) (e : execValuFma p core err s = .next t1) :
    Kept φ s0 t1 := by
  unfold execValuFma at e
  injection e with e
  subst e
  with_reducible
    repeat'
      first
      | assumption | (intro _) | apply State.valu_kept | dsimp only

theorem execValuMax_kept {φ : Part → Bool} {s0 s : State} {t1 : State} (p : Nat) (core : Nat) (err : UnitErr) (hk :
    Kept φ s0 s) (hcores : φ .cores = false) (hregs : φ .regs = false) (hout : φ .out = false) (hseqs : φ .seqs =
    false) (husage : φ .usage = false) (hupds : φ .upds = false) (hqueues : φ .queues = false) (hfrozen : φ .frozen =
    false) (e : execValuMax p core err s = .next t1) :
    Kept φ s0 t1 := by
  unfold execValuMax at e
  injection e with e
  subst e
  with_reducible
    repeat'
      first
      | assumption | (intro _) | apply State.valu_kept | dsimp only

theorem execValuMin_kept {φ : Part → Bool} {s0 s : State} {t1 : State} (p : Nat) (core : Nat) (err : UnitErr) (hk :
    Kept φ s0 s) (hcores : φ .cores = false) (hregs : φ .regs = false) (hout : φ .out = false) (hseqs : φ .seqs =
    false) (husage : φ .usage = false) (hupds : φ .upds = false) (hqueues : φ .queues = false) (hfrozen : φ .frozen =
    false) (e : execValuMin p core err s = .next t1) :
    Kept φ s0 t1 := by
  unfold execValuMin at e
  injection e with e
  subst e
  with_reducible
    repeat'
      first
      | assumption | (intro _) | apply State.valu_kept | dsimp only

theorem execValuDiv_kept {φ : Part → Bool} {s0 s : State} {t1 : State} (p : Nat) (core : Nat) (err : UnitErr) (hk :
    Kept φ s0 s) (hcores : φ .cores = false) (hregs : φ .regs = false) (hout : φ .out = false) (hseqs : φ .seqs =
    false) (husage : φ .usage = false) (hupds : φ .upds = false) (hqueues : φ .queues = false) (hfrozen : φ .frozen =
    false) (e : execValuDiv p core err s = .next t1) :
    Kept φ s0 t1 := by
  unfold execValuDiv at e
  injection e with e
  subst e
  with_reducible
    repeat'
      first
      | assumption | (intro _) | apply State.valu_kept | dsimp only

theorem execValuSqrt_kept {φ : Part → Bool} {s0 s : State} {t1 : State} (p : Nat) (core : Nat) (err : UnitErr) (hk :
    Kept φ s0 s) (hcores : φ .cores = false) (hregs : φ .regs = false) (hout : φ .out = false) (hseqs : φ .seqs =
    false) (husage : φ .usage = false) (hupds : φ .upds = false) (hqueues : φ .queues = false) (hfrozen : φ .frozen =
    false) (e : execValuSqrt p core err s = .next t1) :
    Kept φ s0 t1 := by
  unfold execValuSqrt at e
  injection e with e
  subst e
  with_reducible
    repeat'
      first
      | assumption | (intro _) | apply State.valu_kept | dsimp only

theorem execValuAbs_kept {φ : Part → Bool} {s0 s : State} {t1 : State} (p : Nat) (core : Nat) (err : UnitErr) (hk :
    Kept φ s0 s) (hcores : φ .cores = false) (hregs : φ .regs = false) (hout : φ .out = false) (hseqs : φ .seqs =
    false) (husage : φ .usage = false) (hupds : φ .upds = false) (hqueues : φ .queues = false) (hfrozen : φ .frozen =
    false) (e : execValuAbs p core err s = .next t1) :
    Kept φ s0 t1 := by
  unfold execValuAbs at e
  injection e with e
  subst e
  with_reducible
    repeat'
      first
      | assumption | (intro _) | apply State.valu_kept | dsimp only

theorem execValuNeg_kept {φ : Part → Bool} {s0 s : State} {t1 : State} (p : Nat) (core : Nat) (err : UnitErr) (hk :
    Kept φ s0 s) (hcores : φ .cores = false) (hregs : φ .regs = false) (hout : φ .out = false) (hseqs : φ .seqs =
    false) (husage : φ .usage = false) (hupds : φ .upds = false) (hqueues : φ .queues = false) (hfrozen : φ .frozen =
    false) (e : execValuNeg p core err s = .next t1) :
    Kept φ s0 t1 := by
  unfold execValuNeg at e
  injection e with e
  subst e
  with_reducible
    repeat'
      first
      | assumption | (intro _) | apply State.valu_kept | dsimp only

theorem execValuSel_kept {φ : Part → Bool} {s0 s : State} {t1 : State} (p : Nat) (core : Nat) (err : UnitErr) (hk :
    Kept φ s0 s) (hcores : φ .cores = false) (hregs : φ .regs = false) (hout : φ .out = false) (hseqs : φ .seqs =
    false) (husage : φ .usage = false) (hupds : φ .upds = false) (hqueues : φ .queues = false) (hfrozen : φ .frozen =
    false) (e : execValuSel p core err s = .next t1) :
    Kept φ s0 t1 := by
  unfold execValuSel at e
  injection e with e
  subst e
  with_reducible
    repeat'
      first
      | assumption | (intro _) | apply State.valu_kept | dsimp only

theorem execValuCmpgt_kept {φ : Part → Bool} {s0 s : State} {t1 : State} (p : Nat) (core : Nat) (err : UnitErr) (hk :
    Kept φ s0 s) (hcores : φ .cores = false) (hregs : φ .regs = false) (hout : φ .out = false) (hseqs : φ .seqs =
    false) (husage : φ .usage = false) (hupds : φ .upds = false) (hqueues : φ .queues = false) (hfrozen : φ .frozen =
    false) (e : execValuCmpgt p core err s = .next t1) :
    Kept φ s0 t1 := by
  unfold execValuCmpgt at e
  injection e with e
  subst e
  with_reducible
    repeat'
      first
      | assumption | (intro _) | apply State.valu_kept | dsimp only

theorem execValuMov_kept {φ : Part → Bool} {s0 s : State} {t1 : State} (p : Nat) (core : Nat) (err : UnitErr) (hk :
    Kept φ s0 s) (hcores : φ .cores = false) (hregs : φ .regs = false) (hout : φ .out = false) (hseqs : φ .seqs =
    false) (husage : φ .usage = false) (hupds : φ .upds = false) (hqueues : φ .queues = false) (hfrozen : φ .frozen =
    false) (e : execValuMov p core err s = .next t1) :
    Kept φ s0 t1 := by
  unfold execValuMov at e
  injection e with e
  subst e
  with_reducible
    repeat'
      first
      | assumption | (intro _) | apply State.valu_kept | dsimp only

theorem execVtrExp_kept {φ : Part → Bool} {s0 s : State} {t1 : State} (p : Nat) (core : Nat) (err : UnitErr) (hk :
    Kept φ s0 s) (hcores : φ .cores = false) (hregs : φ .regs = false) (hout : φ .out = false) (hseqs : φ .seqs =
    false) (husage : φ .usage = false) (hupds : φ .upds = false) (hqueues : φ .queues = false) (hfrozen : φ .frozen =
    false) (e : execVtrExp p core err s = .next t1) :
    Kept φ s0 t1 := by
  unfold execVtrExp at e
  injection e with e
  subst e
  with_reducible
    repeat'
      first
      | assumption | (intro _) | apply State.vtr_kept | dsimp only

theorem execVtrExp2_kept {φ : Part → Bool} {s0 s : State} {t1 : State} (p : Nat) (core : Nat) (err : UnitErr) (hk :
    Kept φ s0 s) (hcores : φ .cores = false) (hregs : φ .regs = false) (hout : φ .out = false) (hseqs : φ .seqs =
    false) (husage : φ .usage = false) (hupds : φ .upds = false) (hqueues : φ .queues = false) (hfrozen : φ .frozen =
    false) (e : execVtrExp2 p core err s = .next t1) :
    Kept φ s0 t1 := by
  unfold execVtrExp2 at e
  injection e with e
  subst e
  with_reducible
    repeat'
      first
      | assumption | (intro _) | apply State.vtr_kept | dsimp only

theorem execVtrLog_kept {φ : Part → Bool} {s0 s : State} {t1 : State} (p : Nat) (core : Nat) (err : UnitErr) (hk :
    Kept φ s0 s) (hcores : φ .cores = false) (hregs : φ .regs = false) (hout : φ .out = false) (hseqs : φ .seqs =
    false) (husage : φ .usage = false) (hupds : φ .upds = false) (hqueues : φ .queues = false) (hfrozen : φ .frozen =
    false) (e : execVtrLog p core err s = .next t1) :
    Kept φ s0 t1 := by
  unfold execVtrLog at e
  injection e with e
  subst e
  with_reducible
    repeat'
      first
      | assumption | (intro _) | apply State.vtr_kept | dsimp only

theorem execVtrRecip_kept {φ : Part → Bool} {s0 s : State} {t1 : State} (p : Nat) (core : Nat) (err : UnitErr) (hk :
    Kept φ s0 s) (hcores : φ .cores = false) (hregs : φ .regs = false) (hout : φ .out = false) (hseqs : φ .seqs =
    false) (husage : φ .usage = false) (hupds : φ .upds = false) (hqueues : φ .queues = false) (hfrozen : φ .frozen =
    false) (e : execVtrRecip p core err s = .next t1) :
    Kept φ s0 t1 := by
  unfold execVtrRecip at e
  injection e with e
  subst e
  with_reducible
    repeat'
      first
      | assumption | (intro _) | apply State.vtr_kept | dsimp only

theorem execVtrRsqrt_kept {φ : Part → Bool} {s0 s : State} {t1 : State} (p : Nat) (core : Nat) (err : UnitErr) (hk :
    Kept φ s0 s) (hcores : φ .cores = false) (hregs : φ .regs = false) (hout : φ .out = false) (hseqs : φ .seqs =
    false) (husage : φ .usage = false) (hupds : φ .upds = false) (hqueues : φ .queues = false) (hfrozen : φ .frozen =
    false) (e : execVtrRsqrt p core err s = .next t1) :
    Kept φ s0 t1 := by
  unfold execVtrRsqrt at e
  injection e with e
  subst e
  with_reducible
    repeat'
      first
      | assumption | (intro _) | apply State.vtr_kept | dsimp only

theorem execVtrTanh_kept {φ : Part → Bool} {s0 s : State} {t1 : State} (p : Nat) (core : Nat) (err : UnitErr) (hk :
    Kept φ s0 s) (hcores : φ .cores = false) (hregs : φ .regs = false) (hout : φ .out = false) (hseqs : φ .seqs =
    false) (husage : φ .usage = false) (hupds : φ .upds = false) (hqueues : φ .queues = false) (hfrozen : φ .frozen =
    false) (e : execVtrTanh p core err s = .next t1) :
    Kept φ s0 t1 := by
  unfold execVtrTanh at e
  injection e with e
  subst e
  with_reducible
    repeat'
      first
      | assumption | (intro _) | apply State.vtr_kept | dsimp only

theorem execVtrSigmoid_kept {φ : Part → Bool} {s0 s : State} {t1 : State} (p : Nat) (core : Nat) (err : UnitErr) (hk :
    Kept φ s0 s) (hcores : φ .cores = false) (hregs : φ .regs = false) (hout : φ .out = false) (hseqs : φ .seqs =
    false) (husage : φ .usage = false) (hupds : φ .upds = false) (hqueues : φ .queues = false) (hfrozen : φ .frozen =
    false) (e : execVtrSigmoid p core err s = .next t1) :
    Kept φ s0 t1 := by
  unfold execVtrSigmoid at e
  injection e with e
  subst e
  with_reducible
    repeat'
      first
      | assumption | (intro _) | apply State.vtr_kept | dsimp only

theorem execVtrGelu_kept {φ : Part → Bool} {s0 s : State} {t1 : State} (p : Nat) (core : Nat) (err : UnitErr) (hk :
    Kept φ s0 s) (hcores : φ .cores = false) (hregs : φ .regs = false) (hout : φ .out = false) (hseqs : φ .seqs =
    false) (husage : φ .usage = false) (hupds : φ .upds = false) (hqueues : φ .queues = false) (hfrozen : φ .frozen =
    false) (e : execVtrGelu p core err s = .next t1) :
    Kept φ s0 t1 := by
  unfold execVtrGelu at e
  injection e with e
  subst e
  with_reducible
    repeat'
      first
      | assumption | (intro _) | apply State.vtr_kept | dsimp only

theorem execVtrSin_kept {φ : Part → Bool} {s0 s : State} {t1 : State} (p : Nat) (core : Nat) (err : UnitErr) (hk :
    Kept φ s0 s) (hcores : φ .cores = false) (hregs : φ .regs = false) (hout : φ .out = false) (hseqs : φ .seqs =
    false) (husage : φ .usage = false) (hupds : φ .upds = false) (hqueues : φ .queues = false) (hfrozen : φ .frozen =
    false) (e : execVtrSin p core err s = .next t1) :
    Kept φ s0 t1 := by
  unfold execVtrSin at e
  injection e with e
  subst e
  with_reducible
    repeat'
      first
      | assumption | (intro _) | apply State.vtr_kept | dsimp only

theorem execVtrCos_kept {φ : Part → Bool} {s0 s : State} {t1 : State} (p : Nat) (core : Nat) (err : UnitErr) (hk :
    Kept φ s0 s) (hcores : φ .cores = false) (hregs : φ .regs = false) (hout : φ .out = false) (hseqs : φ .seqs =
    false) (husage : φ .usage = false) (hupds : φ .upds = false) (hqueues : φ .queues = false) (hfrozen : φ .frozen =
    false) (e : execVtrCos p core err s = .next t1) :
    Kept φ s0 t1 := by
  unfold execVtrCos at e
  injection e with e
  subst e
  with_reducible
    repeat'
      first
      | assumption | (intro _) | apply State.vtr_kept | dsimp only

theorem execVredSum_kept {φ : Part → Bool} {s0 s : State} {t1 : State} (p : Nat) (core : Nat) (err : UnitErr) (hk :
    Kept φ s0 s) (hcores : φ .cores = false) (hregs : φ .regs = false) (hout : φ .out = false) (hseqs : φ .seqs =
    false) (husage : φ .usage = false) (hupds : φ .upds = false) (hqueues : φ .queues = false) (hfrozen : φ .frozen =
    false) (e : execVredSum p core err s = .next t1) :
    Kept φ s0 t1 := by
  unfold execVredSum at e
  injection e with e
  subst e
  with_reducible
    repeat'
      first
      | assumption | (intro _) | apply State.vred_kept | dsimp only

theorem execVredMax_kept {φ : Part → Bool} {s0 s : State} {t1 : State} (p : Nat) (core : Nat) (err : UnitErr) (hk :
    Kept φ s0 s) (hcores : φ .cores = false) (hregs : φ .regs = false) (hout : φ .out = false) (hseqs : φ .seqs =
    false) (husage : φ .usage = false) (hupds : φ .upds = false) (hqueues : φ .queues = false) (hfrozen : φ .frozen =
    false) (e : execVredMax p core err s = .next t1) :
    Kept φ s0 t1 := by
  unfold execVredMax at e
  injection e with e
  subst e
  with_reducible
    repeat'
      first
      | assumption | (intro _) | apply State.vred_kept | dsimp only

theorem execVredMin_kept {φ : Part → Bool} {s0 s : State} {t1 : State} (p : Nat) (core : Nat) (err : UnitErr) (hk :
    Kept φ s0 s) (hcores : φ .cores = false) (hregs : φ .regs = false) (hout : φ .out = false) (hseqs : φ .seqs =
    false) (husage : φ .usage = false) (hupds : φ .upds = false) (hqueues : φ .queues = false) (hfrozen : φ .frozen =
    false) (e : execVredMin p core err s = .next t1) :
    Kept φ s0 t1 := by
  unfold execVredMin at e
  injection e with e
  subst e
  with_reducible
    repeat'
      first
      | assumption | (intro _) | apply State.vred_kept | dsimp only

theorem execVredSumsq_kept {φ : Part → Bool} {s0 s : State} {t1 : State} (p : Nat) (core : Nat) (err : UnitErr) (hk :
    Kept φ s0 s) (hcores : φ .cores = false) (hregs : φ .regs = false) (hout : φ .out = false) (hseqs : φ .seqs =
    false) (husage : φ .usage = false) (hupds : φ .upds = false) (hqueues : φ .queues = false) (hfrozen : φ .frozen =
    false) (e : execVredSumsq p core err s = .next t1) :
    Kept φ s0 t1 := by
  unfold execVredSumsq at e
  injection e with e
  subst e
  with_reducible
    repeat'
      first
      | assumption | (intro _) | apply State.vred_kept | dsimp only

theorem execVrnd_kept {φ : Part → Bool} {s0 s : State} {t1 : State} (p : Nat) (core : Nat) (err : UnitErr) (hk : Kept
    φ s0 s) (hcores : φ .cores = false) (hregs : φ .regs = false) (hout : φ .out = false) (hseqs : φ .seqs = false)
    (husage : φ .usage = false) (hqueues : φ .queues = false) (hfrozen : φ .frozen = false) (e : execVrnd p core err s
    = .next t1) :
    Kept φ s0 t1 := by
  unfold execVrnd at e
  injection e with e
  subst e
  with_reducible
    repeat'
      first
      | assumption | (intro _) | apply State.unitBeat_kept | apply vrndWork_kept | apply keptR_error | apply keptR_ite
      | apply keptR_ok' | (apply keptR_get; assumption) | (apply kept_of_eq; assumption) | dsimp only

theorem execVsptr_kept {φ : Part → Bool} {s0 s : State} {t1 : State} (p : Nat) (core : Nat) (err : UnitErr) (hk : Kept
    φ s0 s) (hcores : φ .cores = false) (hregs : φ .regs = false) (hout : φ .out = false) (hseqs : φ .seqs = false)
    (husage : φ .usage = false) (hqueues : φ .queues = false) (hfrozen : φ .frozen = false) (e : execVsptr p core err
    s = .next t1) :
    Kept φ s0 t1 := by
  unfold execVsptr at e
  injection e with e
  subst e
  with_reducible
    repeat'
      first
      | assumption | (intro _) | apply State.unitBeat_kept | apply vsptrWork_kept | apply keptR_error
      | apply keptR_ite | apply keptR_ok' | (apply keptR_get; assumption) | (apply kept_of_eq; assumption)
      | dsimp only

theorem execSeNop_kept {φ : Part → Bool} {s0 s : State} {t1 : State} (p : Nat) (core : Nat) (err : UnitErr) (hk : Kept
    φ s0 s) (hcores : φ .cores = false) (hregs : φ .regs = false) (hout : φ .out = false) (hseqs : φ .seqs = false)
    (husage : φ .usage = false) (hqueues : φ .queues = false) (hfrozen : φ .frozen = false) (e : execSeNop p core err
    s = .next t1) :
    Kept φ s0 t1 := by
  unfold execSeNop at e
  injection e with e
  subst e
  with_reducible
    repeat'
      first
      | assumption | (intro _) | apply okRes_kept | apply State.unitBeat_kept | apply keptR_error | apply keptR_ite
      | apply keptR_ok' | (apply keptR_get; assumption) | (apply kept_of_eq; assumption) | dsimp only

theorem execScopy_kept {φ : Part → Bool} {s0 s : State} {t1 : State} (p : Nat) (core : Nat) (err : UnitErr) (hk : Kept
    φ s0 s) (hcores : φ .cores = false) (hregs : φ .regs = false) (hout : φ .out = false) (hseqs : φ .seqs = false)
    (husage : φ .usage = false) (hupds : φ .upds = false) (hqueues : φ .queues = false) (hfrozen : φ .frozen = false)
    (e : execScopy p core err s = .next t1) :
    Kept φ s0 t1 := by
  unfold execScopy at e
  injection e with e
  subst e
  with_reducible
    repeat'
      first
      | assumption | (intro _) | apply State.unitBeat_kept | apply scopyWork_kept | apply keptR_error
      | apply keptR_ite | apply keptR_ok' | (apply keptR_get; assumption) | (apply kept_of_eq; assumption)
      | dsimp only

theorem execRbput_kept {φ : Part → Bool} {s0 s : State} {t1 : State} (p : Nat) (core : Nat) (err : UnitErr) (hk : Kept
    φ s0 s) (hcores : φ .cores = false) (hregs : φ .regs = false) (hout : φ .out = false) (hseqs : φ .seqs = false)
    (husage : φ .usage = false) (hupds : φ .upds = false) (hqueues : φ .queues = false) (hfrozen : φ .frozen = false)
    (e : execRbput p core err s = .next t1) :
    Kept φ s0 t1 := by
  unfold execRbput at e
  injection e with e
  subst e
  with_reducible
    repeat'
      first
      | assumption | (intro _) | apply State.unitBeat_kept | apply rbputWork_kept | apply keptR_error
      | apply keptR_ite | apply keptR_ok' | (apply keptR_get; assumption) | (apply kept_of_eq; assumption)
      | dsimp only

theorem execRbget_kept {φ : Part → Bool} {s0 s : State} {t1 : State} (p : Nat) (core : Nat) (err : UnitErr) (hk : Kept
    φ s0 s) (hcores : φ .cores = false) (hregs : φ .regs = false) (hout : φ .out = false) (hseqs : φ .seqs = false)
    (husage : φ .usage = false) (hupds : φ .upds = false) (hqueues : φ .queues = false) (hfrozen : φ .frozen = false)
    (e : execRbget p core err s = .next t1) :
    Kept φ s0 t1 := by
  unfold execRbget at e
  injection e with e
  subst e
  with_reducible
    repeat'
      first
      | assumption | (intro _) | apply State.unitBeat_kept | apply rbgetWork_kept | apply keptR_error
      | apply keptR_ite | apply keptR_ok' | (apply keptR_get; assumption) | (apply kept_of_eq; assumption)
      | dsimp only

theorem execMeshLanding_kept {φ : Part → Bool} {s0 s : State} {t1 : State} (p : Nat) (core : Nat) (bad : SramErrs) (hk
    : Kept φ s0 s) (hcores : φ .cores = false) (hregs : φ .regs = false) (hout : φ .out = false) (hseqs : φ .seqs =
    false) (husage : φ .usage = false) (hupds : φ .upds = false) (hwins : φ .wins = false) (hqueues : φ .queues =
    false) (hfrozen : φ .frozen = false) (e : execMeshLanding p core bad s = .next t1) :
    Kept φ s0 t1 := by
  unfold execMeshLanding at e
  injection e with e
  subst e
  with_reducible
    repeat'
      first
      | assumption | (intro _) | apply State.meshLanding_kept | dsimp only

theorem execRget_kept {φ : Part → Bool} {s0 s : State} {t1 : State} (p : Nat) (core : Nat) (err : UnitErr) (hk : Kept
    φ s0 s) (hcores : φ .cores = false) (hregs : φ .regs = false) (hout : φ .out = false) (hseqs : φ .seqs = false)
    (husage : φ .usage = false) (hqueues : φ .queues = false) (hfrozen : φ .frozen = false) (e : execRget p core err s
    = .next t1) :
    Kept φ s0 t1 := by
  unfold execRget at e
  injection e with e
  subst e
  with_reducible
    repeat'
      first
      | assumption | (intro _) | apply State.unitBeat_kept | apply burstWork_kept | apply keptR_error
      | apply keptR_ite | apply keptR_ok' | (apply keptR_get; assumption) | (apply kept_of_eq; assumption)
      | dsimp only

theorem execRput_kept {φ : Part → Bool} {s0 s : State} {t1 : State} (p : Nat) (core : Nat) (err : UnitErr) (hk : Kept
    φ s0 s) (hcores : φ .cores = false) (hregs : φ .regs = false) (hout : φ .out = false) (hseqs : φ .seqs = false)
    (husage : φ .usage = false) (hqueues : φ .queues = false) (hfrozen : φ .frozen = false) (e : execRput p core err s
    = .next t1) :
    Kept φ s0 t1 := by
  unfold execRput at e
  injection e with e
  subst e
  with_reducible
    repeat'
      first
      | assumption | (intro _) | apply State.unitBeat_kept | apply burstWork_kept | apply keptR_error
      | apply keptR_ite | apply keptR_ok' | (apply keptR_get; assumption) | (apply kept_of_eq; assumption)
      | dsimp only

theorem execRgetBurstMove_kept {φ : Part → Bool} {s0 s : State} {t1 : State} (p : Nat) (core : Nat) (ring : Nat) (errs
    : List ReadErr) (bad : SramErrs) (hk : Kept φ s0 s) (hkeys : φ .keys = false) (hcores : φ .cores = false) (hregs :
    φ .regs = false) (hout : φ .out = false) (hseqs : φ .seqs = false) (hpoison : φ .poison = false) (hchannels : φ
    .channels = false) (husage : φ .usage = false) (hupds : φ .upds = false) (hringAdv : φ .ringAdv = false) (hqueues
    : φ .queues = false) (hhaltReq : φ .haltReq = false) (hfrozen : φ .frozen = false) (e : execRgetBurstMove p core
    ring errs bad s = .next t1) :
    Kept φ s0 t1 := by
  unfold execRgetBurstMove at e
  injection e with e
  subst e
  with_reducible
    repeat'
      first
      | assumption | (intro _) | apply State.rgetMove_kept | dsimp only

theorem execRputBurstMove_kept {φ : Part → Bool} {s0 s : State} {t1 : State} (p : Nat) (core : Nat) (ring : Nat) (errs
    : List ReadErr) (bad : SramErrs) (hk : Kept φ s0 s) (hmem : φ .mem = false) (hkeys : φ .keys = false) (hcores : φ
    .cores = false) (hregs : φ .regs = false) (hout : φ .out = false) (hseqs : φ .seqs = false) (hpoison : φ .poison =
    false) (hchannels : φ .channels = false) (husage : φ .usage = false) (hupds : φ .upds = false) (hringAdv : φ
    .ringAdv = false) (hqueues : φ .queues = false) (hhaltReq : φ .haltReq = false) (hfrozen : φ .frozen = false) (e :
    execRputBurstMove p core ring errs bad s = .next t1) :
    Kept φ s0 t1 := by
  unfold execRputBurstMove at e
  injection e with e
  subst e
  with_reducible
    repeat'
      first
      | assumption | (intro _) | apply State.rputMove_kept | dsimp only

theorem execRingProdWrite_kept {φ : Part → Bool} {s0 s : State} {t1 : State} (r : RegReq) (p : Nat) (core : Nat) (ring
    : Nat) (v : Nat) (hk : Kept φ s0 s) (hregs : φ .regs = false) (hout : φ .out = false) (e : execRingProdWrite r p
    core ring v s = .next t1) :
    Kept φ s0 t1 := by
  unfold execRingProdWrite at e
  injection e with e
  subst e
  with_reducible
    repeat'
      first
      | assumption | (intro _) | apply State.write_kept | apply State.ringProdW_kept | dsimp only

theorem execRingConsWrite_kept {φ : Part → Bool} {s0 s : State} {t1 : State} (r : RegReq) (p : Nat) (core : Nat) (ring
    : Nat) (v : Nat) (hk : Kept φ s0 s) (hregs : φ .regs = false) (hout : φ .out = false) (e : execRingConsWrite r p
    core ring v s = .next t1) :
    Kept φ s0 t1 := by
  unfold execRingConsWrite at e
  injection e with e
  subst e
  with_reducible
    repeat'
      first
      | assumption | (intro _) | apply State.write_kept | apply State.ringConsW_kept | dsimp only

theorem execRingEod_kept {φ : Part → Bool} {s0 s : State} {t1 : State} (r : RegReq) (p : Nat) (core : Nat) (ring :
    Nat) (hk : Kept φ s0 s) (hregs : φ .regs = false) (hout : φ .out = false) (e : execRingEod r p core ring s = .next
    t1) :
    Kept φ s0 t1 := by
  unfold execRingEod at e
  injection e with e
  subst e
  with_reducible
    repeat'
      first
      | assumption | (intro _) | apply State.write_kept | apply State.ringEod_kept | dsimp only

theorem execRingReset_kept {φ : Part → Bool} {s0 s : State} {t1 : State} (r : RegReq) (p : Nat) (core : Nat) (ring :
    Nat) (hk : Kept φ s0 s) (hregs : φ .regs = false) (hout : φ .out = false) (hringAdv : φ .ringAdv = false) (e :
    execRingReset r p core ring s = .next t1) :
    Kept φ s0 t1 := by
  unfold execRingReset at e
  injection e with e
  subst e
  with_reducible
    repeat'
      first
      | assumption | (intro _) | apply State.write_kept | apply State.ringReset_kept | dsimp only

theorem execRingCfgWrite_kept {φ : Part → Bool} {s0 s : State} {t1 : State} (r : RegReq) (p : Nat) (core : Nat) (ring
    : Nat) (which : Nat) (v : Word) (hk : Kept φ s0 s) (hregs : φ .regs = false) (hout : φ .out = false) (e :
    execRingCfgWrite r p core ring which v s = .next t1) :
    Kept φ s0 t1 := by
  unfold execRingCfgWrite at e
  injection e with e
  subst e
  with_reducible
    repeat'
      first
      | assumption | (intro _) | apply State.write_kept | apply State.ringCfgW_kept | dsimp only

theorem execScrubRead_kept {φ : Part → Bool} {s0 s : State} {t1 : State} (c : Nat) (b : Nat) (m : Nat) (row : Nat) (w
    : Nat) (finds : ScrubFinding) (hk : Kept φ s0 s) (hcores : φ .cores = false) (hregs : φ .regs = false) (hout : φ
    .out = false) (husage : φ .usage = false) (e : execScrubRead c b m row w finds s = .next t1) :
    Kept φ s0 t1 := by
  unfold execScrubRead at e
  injection e with e
  subst e
  with_reducible
    repeat'
      first
      | assumption | (intro _) | apply State.scrubRead_kept | dsimp only

theorem execColumnTest_kept {φ : Part → Bool} {s0 s : State} {t1 : State} (c : Nat) (b : Nat) (m : Nat) (col : Nat)
    (hk : Kept φ s0 s) (hcores : φ .cores = false) (hregs : φ .regs = false) (hout : φ .out = false) (e :
    execColumnTest c b m col s = .next t1) :
    Kept φ s0 t1 := by
  unfold execColumnTest at e
  injection e with e
  subst e
  with_reducible
    repeat'
      first
      | assumption | (intro _) | apply State.columnTest_kept | dsimp only

theorem execColumnTestVerdict_kept {φ : Part → Bool} {s0 s : State} {t1 : State} (c : Nat) (b : Nat) (m : Nat) (col :
    Nat) (fails : List (List Nat)) (hk : Kept φ s0 s) (hcores : φ .cores = false) (hregs : φ .regs = false) (hout : φ
    .out = false) (husage : φ .usage = false) (e : execColumnTestVerdict c b m col fails s = .next t1) :
    Kept φ s0 t1 := by
  unfold execColumnTestVerdict at e
  injection e with e
  subst e
  with_reducible
    repeat'
      first
      | assumption | (intro _) | apply State.testVerdict_kept | dsimp only

theorem execRetirePendSet_kept {φ : Part → Bool} {s0 s : State} {t1 : State} (r : RegReq) (c : Nat) (v : Word) (hk :
    Kept φ s0 s) (hregs : φ .regs = false) (hout : φ .out = false) (e : execRetirePendSet r c v s = .next t1) :
    Kept φ s0 t1 := by
  unfold execRetirePendSet at e
  injection e with e
  subst e
  with_reducible
    repeat'
      first
      | assumption | (intro _) | apply State.write_kept | apply State.coreStatW_kept | dsimp only

theorem execPsplitWrite_kept {φ : Part → Bool} {s0 s : State} {t1 : State} (r : RegReq) (p : Nat) (v : Word) (hk :
    Kept φ s0 s) (hregs : φ .regs = false) (hout : φ .out = false) (e : execPsplitWrite r p v s = .next t1) :
    Kept φ s0 t1 := by
  unfold execPsplitWrite at e
  injection e with e
  subst e
  with_reducible
    repeat'
      first
      | assumption | (intro _) | apply State.write_kept | apply State.psplitW_kept | dsimp only

theorem execSectorVerify_kept {φ : Part → Bool} {s0 s : State} {t1 : State} (p : Nat) (a : Nat) (spec : Bool) (errs :
    List ReadErr) (hk : Kept φ s0 s) (hkeys : φ .keys = false) (hregs : φ .regs = false) (hout : φ .out = false)
    (hpoison : φ .poison = false) (hchannels : φ .channels = false) (hupds : φ .upds = false) (hhaltReq : φ .haltReq =
    false) (e : execSectorVerify p a spec errs s = .next t1) :
    Kept φ s0 t1 := by
  unfold execSectorVerify at e
  injection e with e
  subst e
  with_reducible
    repeat'
      first
      | assumption | (intro _) | apply State.verifySector_kept | dsimp only

theorem execTagGrant_kept {φ : Part → Bool} {s0 s : State} {t1 : State} (k : Nat) (pc : Nat) (wants : List (List Nat))
    (load : TagLoad) (hk : Kept φ s0 s) (hregs : φ .regs = false) (hchannels : φ .channels = false) (e : execTagGrant
    k pc wants load s = .next t1) :
    Kept φ s0 t1 := by
  unfold execTagGrant at e
  injection e with e
  subst e
  with_reducible
    repeat'
      first
      | assumption | (intro _) | apply State.tagGrant_kept | dsimp only

theorem execRefresh_kept {φ : Part → Bool} {s0 s : State} {t1 : State} (k : Nat) (_pc : Nat) (_bank : Nat) (temp :
    Nat) (hk : Kept φ s0 s) (hregs : φ .regs = false) (e : execRefresh k _pc _bank temp s = .next t1) :
    Kept φ s0 t1 := by
  unfold execRefresh at e
  injection e with e
  subst e
  with_reducible
    repeat'
      first
      | assumption | (intro _) | apply State.refresh_kept | dsimp only

theorem execPatrolRead_kept {φ : Part → Bool} {s0 s : State} {t1 : State} (k : Nat) (sec : Nat) (errs : List ReadErr)
    (hk : Kept φ s0 s) (hregs : φ .regs = false) (hout : φ .out = false) (hchannels : φ .channels = false) (e :
    execPatrolRead k sec errs s = .next t1) :
    Kept φ s0 t1 := by
  unfold execPatrolRead at e
  injection e with e
  subst e
  with_reducible
    repeat'
      first
      | assumption | (intro _) | apply State.patrolRead_kept | dsimp only

theorem execRowRepair_kept {φ : Part → Bool} {s0 s : State} {t1 : State} (k : Nat) (row : Nat) (hk : Kept φ s0 s)
    (hchannels : φ .channels = false) (e : execRowRepair k row s = .next t1) :
    Kept φ s0 t1 := by
  unfold execRowRepair at e
  injection e with e
  subst e
  with_reducible
    repeat'
      first
      | assumption | (intro _) | apply State.rowRepair_kept | dsimp only

theorem execNmeRecordStart_kept {φ : Part → Bool} {s0 s : State} {t1 : State} (x : NmeStart) (hk : Kept φ s0 s) (hregs
    : φ .regs = false) (hchannels : φ .channels = false) (husage : φ .usage = false) (e : execNmeRecordStart x s =
    .next t1) :
    Kept φ s0 t1 := by
  unfold execNmeRecordStart at e
  injection e with e
  subst e
  with_reducible
    repeat'
      first
      | assumption | (intro _) | apply State.nmeStart_kept | dsimp only

theorem execNmeNop_kept {φ : Part → Bool} {s0 s : State} {t1 : State} (k : Nat) (ifc : Bool) (hk : Kept φ s0 s) (hkeys
    : φ .keys = false) (hcores : φ .cores = false) (hregs : φ .regs = false) (hout : φ .out = false) (hseqs : φ .seqs
    = false) (hchannels : φ .channels = false) (husage : φ .usage = false) (hupds : φ .upds = false) (e : execNmeNop k
    ifc s = .next t1) :
    Kept φ s0 t1 := by
  unfold execNmeNop at e
  injection e with e
  subst e
  with_reducible
    repeat'
      first
      | assumption | (intro _) | apply State.nmeRun_kept | (apply kept_of_eq; assumption) | dsimp only

theorem execGemv_kept {φ : Part → Bool} {s0 s : State} {t1 : State} (k : Nat) (errs : List ReadErr) (ifc : Bool) (hk :
    Kept φ s0 s) (hmem : φ .mem = false) (hkeys : φ .keys = false) (hcores : φ .cores = false) (hregs : φ .regs =
    false) (hout : φ .out = false) (hseqs : φ .seqs = false) (hpoison : φ .poison = false) (hchannels : φ .channels =
    false) (husage : φ .usage = false) (hupds : φ .upds = false) (hhaltReq : φ .haltReq = false) (e : execGemv k errs
    ifc s = .next t1) :
    Kept φ s0 t1 := by
  unfold execGemv at e
  injection e with e
  subst e
  with_reducible
    repeat'
      first
      | assumption | (intro _) | apply State.nmeRun_kept | apply gemvWork_kept | (apply kept_of_eq; assumption)
      | dsimp only

theorem execNmeCopy_kept {φ : Part → Bool} {s0 s : State} {t1 : State} (k : Nat) (errs : List ReadErr) (ifc : Bool)
    (hk : Kept φ s0 s) (hmem : φ .mem = false) (hkeys : φ .keys = false) (hcores : φ .cores = false) (hregs : φ .regs
    = false) (hout : φ .out = false) (hseqs : φ .seqs = false) (hpoison : φ .poison = false) (hchannels : φ .channels
    = false) (husage : φ .usage = false) (hupds : φ .upds = false) (hhaltReq : φ .haltReq = false) (e : execNmeCopy k
    errs ifc s = .next t1) :
    Kept φ s0 t1 := by
  unfold execNmeCopy at e
  injection e with e
  subst e
  with_reducible
    repeat'
      first
      | assumption | (intro _) | apply State.nmeRun_kept | apply copyWork_kept | (apply kept_of_eq; assumption)
      | dsimp only

theorem execFill_kept {φ : Part → Bool} {s0 s : State} {t1 : State} (k : Nat) (ifc : Bool) (hk : Kept φ s0 s) (hmem :
    φ .mem = false) (hkeys : φ .keys = false) (hcores : φ .cores = false) (hregs : φ .regs = false) (hout : φ .out =
    false) (hseqs : φ .seqs = false) (hpoison : φ .poison = false) (hchannels : φ .channels = false) (husage : φ
    .usage = false) (hupds : φ .upds = false) (hhaltReq : φ .haltReq = false) (e : execFill k ifc s = .next t1) :
    Kept φ s0 t1 := by
  unfold execFill at e
  injection e with e
  subst e
  with_reducible
    repeat'
      first
      | assumption | (intro _) | apply fillWork_kept | apply State.nmeRun_kept | (apply kept_of_eq; assumption)
      | dsimp only

theorem execZero_kept {φ : Part → Bool} {s0 s : State} {t1 : State} (k : Nat) (ifc : Bool) (hk : Kept φ s0 s) (hmem :
    φ .mem = false) (hkeys : φ .keys = false) (hcores : φ .cores = false) (hregs : φ .regs = false) (hout : φ .out =
    false) (hseqs : φ .seqs = false) (hpoison : φ .poison = false) (hchannels : φ .channels = false) (husage : φ
    .usage = false) (hupds : φ .upds = false) (hhaltReq : φ .haltReq = false) (e : execZero k ifc s = .next t1) :
    Kept φ s0 t1 := by
  unfold execZero at e
  injection e with e
  subst e
  with_reducible
    repeat'
      first
      | assumption | (intro _) | apply fillWork_kept | apply State.nmeRun_kept | (apply kept_of_eq; assumption)
      | dsimp only

theorem execWipe_kept {φ : Part → Bool} {s0 s : State} {t1 : State} (k : Nat) (ifc : Bool) (hk : Kept φ s0 s) (hmem :
    φ .mem = false) (hkeys : φ .keys = false) (hcores : φ .cores = false) (hregs : φ .regs = false) (hout : φ .out =
    false) (hseqs : φ .seqs = false) (hpoison : φ .poison = false) (hchannels : φ .channels = false) (husage : φ
    .usage = false) (hupds : φ .upds = false) (e : execWipe k ifc s = .next t1) :
    Kept φ s0 t1 := by
  unfold execWipe at e
  injection e with e
  subst e
  with_reducible
    repeat'
      first
      | assumption | (intro _) | apply State.nmeRun_kept | apply wipeWork_kept | (apply kept_of_eq; assumption)
      | dsimp only

theorem execGather_kept {φ : Part → Bool} {s0 s : State} {t1 : State} (k : Nat) (errs : List ReadErr) (ifc : Bool) (hk
    : Kept φ s0 s) (hmem : φ .mem = false) (hkeys : φ .keys = false) (hcores : φ .cores = false) (hregs : φ .regs =
    false) (hout : φ .out = false) (hseqs : φ .seqs = false) (hpoison : φ .poison = false) (hchannels : φ .channels =
    false) (husage : φ .usage = false) (hupds : φ .upds = false) (hhaltReq : φ .haltReq = false) (e : execGather k
    errs ifc s = .next t1) :
    Kept φ s0 t1 := by
  unfold execGather at e
  injection e with e
  subst e
  with_reducible
    repeat'
      first
      | assumption | (intro _) | apply State.nmeRun_kept | apply gatherWork_kept | (apply kept_of_eq; assumption)
      | dsimp only

theorem execScatterAdd_kept {φ : Part → Bool} {s0 s : State} {t1 : State} (k : Nat) (errs : List ReadErr) (ifc : Bool)
    (hk : Kept φ s0 s) (hmem : φ .mem = false) (hkeys : φ .keys = false) (hcores : φ .cores = false) (hregs : φ .regs
    = false) (hout : φ .out = false) (hseqs : φ .seqs = false) (hpoison : φ .poison = false) (hchannels : φ .channels
    = false) (husage : φ .usage = false) (hupds : φ .upds = false) (hhaltReq : φ .haltReq = false) (e : execScatterAdd
    k errs ifc s = .next t1) :
    Kept φ s0 t1 := by
  unfold execScatterAdd at e
  injection e with e
  subst e
  with_reducible
    repeat'
      first
      | assumption | (intro _) | apply scatterWork_kept | apply State.nmeRun_kept | (apply kept_of_eq; assumption)
      | dsimp only

theorem execNmePartComplete_kept {φ : Part → Bool} {s0 s : State} {t1 : State} (k : Nat) (hk : Kept φ s0 s) (hregs : φ
    .regs = false) (hchannels : φ .channels = false) (e : execNmePartComplete k s = .next t1) :
    Kept φ s0 t1 := by
  unfold execNmePartComplete at e
  injection e with e
  subst e
  with_reducible
    repeat'
      first
      | assumption | (intro _) | apply State.nmePart_kept | dsimp only

theorem execUpdWindowWrite_kept {φ : Part → Bool} {s0 s : State} {t1 : State} (r : RegReq) (p : Nat) (which : Nat) (v
    : Word) (hk : Kept φ s0 s) (hregs : φ .regs = false) (hout : φ .out = false) (e : execUpdWindowWrite r p which v s
    = .next t1) :
    Kept φ s0 t1 := by
  unfold execUpdWindowWrite at e
  injection e with e
  subst e
  with_reducible
    repeat'
      first
      | assumption | (intro _) | apply State.write_kept | apply State.windowW_kept | dsimp only

theorem execUpdConfigWrite_kept {φ : Part → Bool} {s0 s : State} {t1 : State} (r : RegReq) (p : Nat) (off : Nat) (v :
    Word) (hk : Kept φ s0 s) (hregs : φ .regs = false) (hout : φ .out = false) (hringAdv : φ .ringAdv = false) (e :
    execUpdConfigWrite r p off v s = .next t1) :
    Kept φ s0 t1 := by
  unfold execUpdConfigWrite at e
  injection e with e
  subst e
  with_reducible
    repeat'
      first
      | assumption | (intro _) | apply State.write_kept | apply State.updConfigW_kept | dsimp only

theorem execUpdTensor_kept {φ : Part → Bool} {s0 s : State} {t1 : State} (p : Nat) (n : Nat) (errs : List ReadErr)
    (bad : SramErrs) (hk : Kept φ s0 s) (hmem : φ .mem = false) (hkeys : φ .keys = false) (hcores : φ .cores = false)
    (hregs : φ .regs = false) (hout : φ .out = false) (hseqs : φ .seqs = false) (hpoison : φ .poison = false)
    (hchannels : φ .channels = false) (husage : φ .usage = false) (hupds : φ .upds = false) (hhaltReq : φ .haltReq =
    false) (e : execUpdTensor p n errs bad s = .next t1) :
    Kept φ s0 t1 := by
  unfold execUpdTensor at e
  injection e with e
  subst e
  with_reducible
    repeat'
      first
      | assumption | (intro _) | apply State.updTensor_kept | dsimp only

theorem execNormOut_kept {φ : Part → Bool} {s0 s : State} {t1 : State} (p : Nat) (hk : Kept φ s0 s) (hcores : φ .cores
    = false) (hregs : φ .regs = false) (hseqs : φ .seqs = false) (hupds : φ .upds = false) (e : execNormOut p s =
    .next t1) :
    Kept φ s0 t1 := by
  unfold execNormOut at e
  injection e with e
  subst e
  with_reducible
    repeat'
      first
      | assumption | (intro _) | apply State.normOut_kept | dsimp only

theorem execNormIn_kept {φ : Part → Bool} {s0 s : State} {t1 : State} (p : Nat) (bad : SramErrs) (hk : Kept φ s0 s)
    (hcores : φ .cores = false) (hregs : φ .regs = false) (hout : φ .out = false) (husage : φ .usage = false) (hupds :
    φ .upds = false) (e : execNormIn p bad s = .next t1) :
    Kept φ s0 t1 := by
  unfold execNormIn at e
  injection e with e
  subst e
  with_reducible
    repeat'
      first
      | assumption | (intro _) | apply State.normInRd_kept | dsimp only

theorem execUpdStreamComplete_kept {φ : Part → Bool} {s0 s : State} {t1 : State} (p : Nat) (k : Nat) (hk : Kept φ s0
    s) (hcores : φ .cores = false) (hregs : φ .regs = false) (hseqs : φ .seqs = false) (husage : φ .usage = false)
    (hupds : φ .upds = false) (e : execUpdStreamComplete p k s = .next t1) :
    Kept φ s0 t1 := by
  unfold execUpdStreamComplete at e
  injection e with e
  subst e
  with_reducible
    repeat'
      first
      | assumption | (intro _) | apply State.updPartDone_kept | dsimp only

theorem execCommitDecision_kept {φ : Part → Bool} {s0 s : State} {t1 : State} (p : Nat) (hk : Kept φ s0 s) (hmem : φ
    .mem = false) (hkeys : φ .keys = false) (hregs : φ .regs = false) (hlakes : φ .lakes = false) (hout : φ .out =
    false) (hseqs : φ .seqs = false) (hpoison : φ .poison = false) (hchannels : φ .channels = false) (husage : φ
    .usage = false) (hupds : φ .upds = false) (hringAdv : φ .ringAdv = false) (hqueues : φ .queues = false) (hhaltReq
    : φ .haltReq = false) (e : execCommitDecision p s = .next t1) :
    Kept φ s0 t1 := by
  unfold execCommitDecision at e
  injection e with e
  subst e
  with_reducible
    repeat'
      first
      | assumption | (intro _) | apply State.commitDecision_kept | dsimp only

theorem execAnnounceSample_kept {φ : Part → Bool} {s0 s : State} {t1 : State}  (hk : Kept φ s0 s) (htray : φ .tray =
    false) (hregs : φ .regs = false) (hseqs : φ .seqs = false) (e : execAnnounceSample s = .next t1) :
    Kept φ s0 t1 := by
  unfold execAnnounceSample at e
  injection e with e
  subst e
  with_reducible
    repeat'
      first
      | assumption | (intro _) | apply State.annSample_kept | apply kept_foldl | dsimp only

theorem execAnnounceLostRepeat_kept {φ : Part → Bool} {s0 s : State} {t1 : State} (p : Nat) (hk : Kept φ s0 s) (htray
    : φ .tray = false) (hseqs : φ .seqs = false) (e : execAnnounceLostRepeat p s = .next t1) :
    Kept φ s0 t1 := by
  unfold execAnnounceLostRepeat at e
  injection e with e
  subst e
  with_reducible
    repeat'
      first
      | assumption | (intro _) | apply State.annRepeat_kept | dsimp only

theorem execAnnouncementReceived_kept {φ : Part → Bool} {s0 s : State} {t1 : State}  (hk : Kept φ s0 s) (htray : φ
    .tray = false) (hregs : φ .regs = false) (hseqs : φ .seqs = false) (e : execAnnouncementReceived s = .next t1) :
    Kept φ s0 t1 := by
  unfold execAnnouncementReceived at e
  injection e with e
  subst e
  with_reducible
    repeat'
      first
      | assumption | (intro _) | apply State.annReceived_kept | dsimp only

theorem execPeerHoldExpire_kept {φ : Part → Bool} {s0 s : State} {t1 : State} (p : Nat) (hk : Kept φ s0 s) (hregs : φ
    .regs = false) (hseqs : φ .seqs = false) (e : execPeerHoldExpire p s = .next t1) :
    Kept φ s0 t1 := by
  unfold execPeerHoldExpire at e
  injection e with e
  subst e
  with_reducible
    repeat'
      first
      | assumption | (intro _) | apply State.holdExpire_kept | dsimp only

theorem execLinkFrameReceive_kept {φ : Part → Bool} {s0 s : State} {t1 : State} (n : Nat) (b : List Byte) (fec : Nat)
    (hk : Kept φ s0 s) (hkeys : φ .keys = false) (hregs : φ .regs = false) (hports : φ .ports = false) (hlakes : φ
    .lakes = false) (hout : φ .out = false) (husage : φ .usage = false) (hwins : φ .wins = false) (hevents : φ .events
    = false) (e : execLinkFrameReceive n b fec s = .next t1) :
    Kept φ s0 t1 := by
  unfold execLinkFrameReceive at e
  injection e with e
  subst e
  with_reducible
    repeat'
      first
      | assumption | (intro _) | apply State.linkReceive_kept | dsimp only

theorem execSchedFrame_kept {φ : Part → Bool} {s0 s : State} {t1 : State} (n : Nat) (hk : Kept φ s0 s) (hcores : φ
    .cores = false) (hregs : φ .regs = false) (hports : φ .ports = false) (hout : φ .out = false) (hseqs : φ .seqs =
    false) (husage : φ .usage = false) (hupds : φ .upds = false) (hwins : φ .wins = false) (hevents : φ .events =
    false) (e : execSchedFrame n s = .next t1) :
    Kept φ s0 t1 := by
  unfold execSchedFrame at e
  injection e with e
  subst e
  with_reducible
    repeat'
      first
      | assumption | (intro _) | apply State.schedFrame_kept | dsimp only

theorem execCtlFrame_kept {φ : Part → Bool} {s0 s : State} {t1 : State} (n : Nat) (hk : Kept φ s0 s) (hregs : φ .regs
    = false) (hports : φ .ports = false) (e : execCtlFrame n s = .next t1) :
    Kept φ s0 t1 := by
  unfold execCtlFrame at e
  injection e with e
  subst e
  with_reducible
    repeat'
      first
      | assumption | (intro _) | apply State.ctlFrame_kept | dsimp only

theorem execArmFrame_kept {φ : Part → Bool} {s0 s : State} {t1 : State} (n : Nat) (hk : Kept φ s0 s) (hregs : φ .regs
    = false) (hports : φ .ports = false) (hwins : φ .wins = false) (e : execArmFrame n s = .next t1) :
    Kept φ s0 t1 := by
  unfold execArmFrame at e
  injection e with e
  subst e
  with_reducible
    repeat'
      first
      | assumption | (intro _) | apply State.armFrame_kept | dsimp only

theorem execBulkFrame_kept {φ : Part → Bool} {s0 s : State} {t1 : State} (n : Nat) (hk : Kept φ s0 s) (hports : φ
    .ports = false) (hlakes : φ .lakes = false) (e : execBulkFrame n s = .next t1) :
    Kept φ s0 t1 := by
  unfold execBulkFrame at e
  injection e with e
  subst e
  with_reducible
    repeat'
      first
      | assumption | (intro _) | apply State.bulkFrame_kept | dsimp only

theorem execSpdmFrame_kept {φ : Part → Bool} {s0 s : State} {t1 : State} (x : SpdmArrival) (hk : Kept φ s0 s) (hregs :
    φ .regs = false) (hports : φ .ports = false) (e : execSpdmFrame x s = .next t1) :
    Kept φ s0 t1 := by
  unfold execSpdmFrame at e
  injection e with e
  subst e
  with_reducible
    repeat'
      first
      | assumption | (intro _) | apply State.spdmFrame_kept | dsimp only

theorem execAbortFrame_kept {φ : Part → Bool} {s0 s : State} {t1 : State} (n : Nat) (hk : Kept φ s0 s) (hcores : φ
    .cores = false) (hregs : φ .regs = false) (hports : φ .ports = false) (hout : φ .out = false) (hseqs : φ .seqs =
    false) (husage : φ .usage = false) (hupds : φ .upds = false) (hwins : φ .wins = false) (hevents : φ .events =
    false) (e : execAbortFrame n s = .next t1) :
    Kept φ s0 t1 := by
  unfold execAbortFrame at e
  injection e with e
  subst e
  with_reducible
    repeat'
      first
      | assumption | (intro _) | apply State.abortFrame_kept | dsimp only

theorem execIdleBlock_kept {φ : Part → Bool} {s0 s : State} {t1 : State} (n : Nat) (b : List Byte) (hk : Kept φ s0 s)
    (hregs : φ .regs = false) (hports : φ .ports = false) (husage : φ .usage = false) (hwins : φ .wins = false) (e :
    execIdleBlock n b s = .next t1) :
    Kept φ s0 t1 := by
  unfold execIdleBlock at e
  injection e with e
  subst e
  with_reducible
    repeat'
      first
      | assumption | (intro _) | apply State.idleBlock_kept | dsimp only

theorem execNakReplay_kept {φ : Part → Bool} {s0 s : State} {t1 : State} (n : Nat) (hk : Kept φ s0 s) (hkeys : φ .keys
    = false) (hregs : φ .regs = false) (hports : φ .ports = false) (hlakes : φ .lakes = false) (hout : φ .out = false)
    (husage : φ .usage = false) (hwins : φ .wins = false) (hevents : φ .events = false) (e : execNakReplay n s = .next
    t1) :
    Kept φ s0 t1 := by
  unfold execNakReplay at e
  injection e with e
  subst e
  with_reducible
    repeat'
      first
      | assumption | (intro _) | apply State.nakReplay_kept | dsimp only

theorem execFrameSend_kept {φ : Part → Bool} {s0 s : State} {t1 : State} (n : Nat) (e : Nat) (bad : SramErrs) (hk :
    Kept φ s0 s) (hkeys : φ .keys = false) (hcores : φ .cores = false) (hregs : φ .regs = false) (hports : φ .ports =
    false) (hout : φ .out = false) (husage : φ .usage = false) (hupds : φ .upds = false) (hwins : φ .wins = false)
    (hevents : φ .events = false) (e : execFrameSend n e bad s = .next t1) :
    Kept φ s0 t1 := by
  unfold execFrameSend at e
  injection e with e
  subst e
  with_reducible
    repeat'
      first
      | assumption | (intro _) | apply State.frameSend_kept | dsimp only

theorem execWindowSendStart_kept {φ : Part → Bool} {s0 s : State} {t1 : State} (p : Nat) (port : Nat) (bad : SramErrs)
    (hk : Kept φ s0 s) (hcores : φ .cores = false) (hregs : φ .regs = false) (hports : φ .ports = false) (hout : φ
    .out = false) (hseqs : φ .seqs = false) (husage : φ .usage = false) (hupds : φ .upds = false) (hwins : φ .wins =
    false) (hevents : φ .events = false) (e : execWindowSendStart p port bad s = .next t1) :
    Kept φ s0 t1 := by
  unfold execWindowSendStart at e
  injection e with e
  subst e
  with_reducible
    repeat'
      first
      | assumption | (intro _) | apply State.windowStart_kept | dsimp only

theorem execWindowArmRelease_kept {φ : Part → Bool} {s0 s : State} {t1 : State} (p : Nat) (port : Nat) (hk : Kept φ s0
    s) (hports : φ .ports = false) (husage : φ .usage = false) (hwins : φ .wins = false) (e : execWindowArmRelease p
    port s = .next t1) :
    Kept φ s0 t1 := by
  unfold execWindowArmRelease at e
  injection e with e
  subst e
  with_reducible
    repeat'
      first
      | assumption | (intro _) | apply State.armRelease_kept | dsimp only

theorem execTrainHold_kept {φ : Part → Bool} {s0 s : State} {t1 : State} (n : Nat) (hk : Kept φ s0 s) (hkeys : φ .keys
    = false) (hregs : φ .regs = false) (hports : φ .ports = false) (hlakes : φ .lakes = false) (hout : φ .out = false)
    (husage : φ .usage = false) (hwins : φ .wins = false) (hevents : φ .events = false) (e : execTrainHold n s = .next
    t1) :
    Kept φ s0 t1 := by
  unfold execTrainHold at e
  injection e with e
  subst e
  with_reducible
    repeat'
      first
      | assumption | (intro _) | apply State.trainOk_kept | apply State.trainStep_kept | dsimp only

theorem execTrainDetect_kept {φ : Part → Bool} {s0 s : State} {t1 : State} (n : Nat) (mask : Nat) (hk : Kept φ s0 s)
    (hkeys : φ .keys = false) (hregs : φ .regs = false) (hports : φ .ports = false) (hlakes : φ .lakes = false) (hout
    : φ .out = false) (husage : φ .usage = false) (hwins : φ .wins = false) (hevents : φ .events = false) (e :
    execTrainDetect n mask s = .next t1) :
    Kept φ s0 t1 := by
  unfold execTrainDetect at e
  injection e with e
  subst e
  with_reducible
    repeat'
      first
      | assumption | (intro _) | apply kept_ite | apply State.trainOk_kept | apply State.trainStep_kept | split
      | dsimp only

theorem execTrainLanes_kept {φ : Part → Bool} {s0 s : State} {t1 : State} (n : Nat) (rx : Nat) (tx : Nat) (hk : Kept φ
    s0 s) (hkeys : φ .keys = false) (hregs : φ .regs = false) (hports : φ .ports = false) (hlakes : φ .lakes = false)
    (hout : φ .out = false) (husage : φ .usage = false) (hwins : φ .wins = false) (hevents : φ .events = false) (e :
    execTrainLanes n rx tx s = .next t1) :
    Kept φ s0 t1 := by
  unfold execTrainLanes at e
  injection e with e
  subst e
  with_reducible
    repeat'
      first
      | assumption | (intro _) | apply State.trainLanes_kept | dsimp only

theorem execTrainCaps_kept {φ : Part → Bool} {s0 s : State} {t1 : State} (n : Nat) (b : List Byte) (hk : Kept φ s0 s)
    (hkeys : φ .keys = false) (hregs : φ .regs = false) (hports : φ .ports = false) (hlakes : φ .lakes = false) (hout
    : φ .out = false) (husage : φ .usage = false) (hwins : φ .wins = false) (hevents : φ .events = false) (e :
    execTrainCaps n b s = .next t1) :
    Kept φ s0 t1 := by
  unfold execTrainCaps at e
  injection e with e
  subst e
  with_reducible
    repeat'
      first
      | assumption | (intro _) | apply State.trainCaps_kept | dsimp only

theorem execTrainQual_kept {φ : Part → Bool} {s0 s : State} {t1 : State} (n : Nat) (ue : Nat) (corrected : Nat)
    (symbols : Nat) (hk : Kept φ s0 s) (hkeys : φ .keys = false) (hregs : φ .regs = false) (hports : φ .ports = false)
    (hlakes : φ .lakes = false) (hout : φ .out = false) (husage : φ .usage = false) (hwins : φ .wins = false) (hevents
    : φ .events = false) (e : execTrainQual n ue corrected symbols s = .next t1) :
    Kept φ s0 t1 := by
  unfold execTrainQual at e
  injection e with e
  subst e
  with_reducible
    repeat'
      first
      | assumption | (intro _) | apply kept_ite | apply State.bump64_kept | apply State.trainOk_kept
      | apply State.trainFail_kept | apply State.trainStep_kept | split | dsimp only

theorem execTrainInit_kept {φ : Part → Bool} {s0 s : State} {t1 : State} (n : Nat) (ready : Bool) (hk : Kept φ s0 s)
    (hkeys : φ .keys = false) (hregs : φ .regs = false) (hports : φ .ports = false) (hlakes : φ .lakes = false) (hout
    : φ .out = false) (husage : φ .usage = false) (hwins : φ .wins = false) (hevents : φ .events = false) (e :
    execTrainInit n ready s = .next t1) :
    Kept φ s0 t1 := by
  unfold execTrainInit at e
  injection e with e
  subst e
  with_reducible
    repeat'
      first
      | assumption | (intro _) | apply kept_ite | apply State.trainOk_kept | apply State.trainStep_kept
      | apply State.linkStart_kept | split | dsimp only

theorem execTrainAuth_kept {φ : Part → Bool} {s0 s : State} {t1 : State} (n : Nat) (a : LinkAuth) (hk : Kept φ s0 s)
    (hkeys : φ .keys = false) (hregs : φ .regs = false) (hports : φ .ports = false) (hlakes : φ .lakes = false) (hout
    : φ .out = false) (husage : φ .usage = false) (hwins : φ .wins = false) (hevents : φ .events = false) (e :
    execTrainAuth n a s = .next t1) :
    Kept φ s0 t1 := by
  unfold execTrainAuth at e
  injection e with e
  subst e
  with_reducible
    repeat'
      first
      | assumption | (intro _) | apply State.trainAuth_kept | dsimp only

theorem execTrainActive_kept {φ : Part → Bool} {s0 s : State} {t1 : State} (n : Nat) (hk : Kept φ s0 s) (hregs : φ
    .regs = false) (hports : φ .ports = false) (hout : φ .out = false) (husage : φ .usage = false) (hevents : φ
    .events = false) (e : execTrainActive n s = .next t1) :
    Kept φ s0 t1 := by
  unfold execTrainActive at e
  injection e with e
  subst e
  with_reducible
    repeat'
      first
      | assumption | (intro _) | apply State.trainActive_kept | dsimp only

theorem execTrainTimeout_kept {φ : Part → Bool} {s0 s : State} {t1 : State} (n : Nat) (hk : Kept φ s0 s) (hkeys : φ
    .keys = false) (hregs : φ .regs = false) (hports : φ .ports = false) (hlakes : φ .lakes = false) (hout : φ .out =
    false) (husage : φ .usage = false) (hwins : φ .wins = false) (hevents : φ .events = false) (e : execTrainTimeout n
    s = .next t1) :
    Kept φ s0 t1 := by
  unfold execTrainTimeout at e
  injection e with e
  subst e
  with_reducible
    repeat'
      first
      | assumption | (intro _) | apply State.trainTimeout_kept | dsimp only

theorem execLaneLockLoss_kept {φ : Part → Bool} {s0 s : State} {t1 : State} (n : Nat) (lane : Nat) (hk : Kept φ s0 s)
    (hkeys : φ .keys = false) (hregs : φ .regs = false) (hports : φ .ports = false) (hlakes : φ .lakes = false) (hout
    : φ .out = false) (husage : φ .usage = false) (hwins : φ .wins = false) (hevents : φ .events = false) (e :
    execLaneLockLoss n lane s = .next t1) :
    Kept φ s0 t1 := by
  unfold execLaneLockLoss at e
  injection e with e
  subst e
  with_reducible
    repeat'
      first
      | assumption | (intro _) | apply State.laneLoss_kept | dsimp only

theorem execPortEnable_kept {φ : Part → Bool} {s0 s : State} {t1 : State} (r : RegReq) (n : Nat) (en : Bool) (hk :
    Kept φ s0 s) (hkeys : φ .keys = false) (hregs : φ .regs = false) (hports : φ .ports = false) (hlakes : φ .lakes =
    false) (hout : φ .out = false) (husage : φ .usage = false) (hwins : φ .wins = false) (hevents : φ .events = false)
    (e : execPortEnable r n en s = .next t1) :
    Kept φ s0 t1 := by
  unfold execPortEnable at e
  injection e with e
  subst e
  with_reducible
    repeat'
      first
      | assumption | (intro _) | apply State.write_kept | apply State.portEnable_kept | dsimp only

theorem execPortRetrainCmd_kept {φ : Part → Bool} {s0 s : State} {t1 : State} (r : RegReq) (n : Nat) (hk : Kept φ s0
    s) (hkeys : φ .keys = false) (hregs : φ .regs = false) (hports : φ .ports = false) (hlakes : φ .lakes = false)
    (hout : φ .out = false) (husage : φ .usage = false) (hwins : φ .wins = false) (hevents : φ .events = false) (e :
    execPortRetrainCmd r n s = .next t1) :
    Kept φ s0 t1 := by
  unfold execPortRetrainCmd at e
  injection e with e
  subst e
  with_reducible
    repeat'
      first
      | assumption | (intro _) | apply State.write_kept | apply State.portRetrain_kept | dsimp only

theorem execPortRekeyCmd_kept {φ : Part → Bool} {s0 s : State} {t1 : State} (r : RegReq) (n : Nat) (hk : Kept φ s0 s)
    (hports : φ .ports = false) (hout : φ .out = false) (e : execPortRekeyCmd r n s = .next t1) :
    Kept φ s0 t1 := by
  unfold execPortRekeyCmd at e
  injection e with e
  subst e
  with_reducible
    repeat'
      first
      | assumption | (intro _) | apply State.write_kept | apply State.portRekey_kept | dsimp only

theorem execTrainLock_kept {φ : Part → Bool} {s0 s : State} {t1 : State} (r : RegReq) (n : Nat) (hk : Kept φ s0 s)
    (hregs : φ .regs = false) (hout : φ .out = false) (e : execTrainLock r n s = .next t1) :
    Kept φ s0 t1 := by
  unfold execTrainLock at e
  injection e with e
  subst e
  with_reducible
    repeat'
      first
      | assumption | (intro _) | apply State.setBits_kept | apply State.write_kept | dsimp only

theorem execTrainTableWrite_kept {φ : Part → Bool} {s0 s : State} {t1 : State} (r : RegReq) (n : Nat) (which : Nat) (v
    : Word) (hk : Kept φ s0 s) (hregs : φ .regs = false) (hout : φ .out = false) (e : execTrainTableWrite r n which v
    s = .next t1) :
    Kept φ s0 t1 := by
  unfold execTrainTableWrite at e
  injection e with e
  subst e
  with_reducible
    repeat'
      first
      | assumption | (intro _) | apply State.regWrite_kept | apply State.write_kept | dsimp only

theorem execLlSlotWrite_kept {φ : Part → Bool} {s0 s : State} {t1 : State} (r : RegReq) (n : Nat) (w : Nat) (v : Word)
    (hk : Kept φ s0 s) (hregs : φ .regs = false) (hout : φ .out = false) (hevents : φ .events = false) (e :
    execLlSlotWrite r n w v s = .next t1) :
    Kept φ s0 t1 := by
  unfold execLlSlotWrite at e
  injection e with e
  subst e
  with_reducible
    repeat'
      first
      | assumption | (intro _) | apply kept_ite | apply State.write_kept | apply State.slotW_kept | split | dsimp only

theorem execRekeyTimer_kept {φ : Part → Bool} {s0 s : State} {t1 : State} (n : Nat) (dir : Nat) (hk : Kept φ s0 s)
    (hregs : φ .regs = false) (hports : φ .ports = false) (hout : φ .out = false) (hevents : φ .events = false) (e :
    execRekeyTimer n dir s = .next t1) :
    Kept φ s0 t1 := by
  unfold execRekeyTimer at e
  injection e with e
  subst e
  with_reducible
    repeat'
      first
      | assumption | (intro _) | apply State.rekeyTimer_kept | dsimp only

theorem execRekey_kept {φ : Part → Bool} {s0 s : State} {t1 : State} (n : LinkDir) (key : List Byte) (msg : RekeyMsgs)
    (ok : Bool) (hk : Kept φ s0 s) (hkeys : φ .keys = false) (hcores : φ .cores = false) (hregs : φ .regs = false)
    (hports : φ .ports = false) (hout : φ .out = false) (husage : φ .usage = false) (hupds : φ .upds = false) (hwins :
    φ .wins = false) (hevents : φ .events = false) (e : execRekey n key msg ok s = .next t1) :
    Kept φ s0 t1 := by
  unfold execRekey at e
  injection e with e
  subst e
  with_reducible
    repeat'
      first
      | assumption | (intro _) | apply State.rekey_kept | dsimp only

theorem execKeyUpdateReceived_kept {φ : Part → Bool} {s0 s : State} {t1 : State} (n : Nat) (key : List Byte) (msg :
    List Byte) (ok : Bool) (hk : Kept φ s0 s) (hkeys : φ .keys = false) (hregs : φ .regs = false) (hports : φ .ports =
    false) (husage : φ .usage = false) (e : execKeyUpdateReceived n key msg ok s = .next t1) :
    Kept φ s0 t1 := by
  unfold execKeyUpdateReceived at e
  injection e with e
  subst e
  with_reducible
    repeat'
      first
      | assumption | (intro _) | apply State.keyUpdate_kept | dsimp only

theorem execColConfigWrite_kept {φ : Part → Bool} {s0 s : State} {t1 : State} (r : RegReq) (p : Nat) (off : Nat) (v :
    Word) (hk : Kept φ s0 s) (hregs : φ .regs = false) (hout : φ .out = false) (e : execColConfigWrite r p off v s =
    .next t1) :
    Kept φ s0 t1 := by
  unfold execColConfigWrite at e
  injection e with e
  subst e
  with_reducible
    repeat'
      first
      | assumption | (intro _) | apply kept_ite | apply State.write_kept | apply State.colConfigW_kept | split
      | dsimp only

theorem execCcBufferGrant_kept {φ : Part → Bool} {s0 s : State} {t1 : State} (p : Nat) (ch : Nat) (hk : Kept φ s0 s)
    (hregs : φ .regs = false) (hccs : φ .ccs = false) (e : execCcBufferGrant p ch s = .next t1) :
    Kept φ s0 t1 := by
  unfold execCcBufferGrant at e
  injection e with e
  subst e
  with_reducible
    repeat'
      first
      | assumption | (intro _) | apply State.ccGrant_kept | dsimp only

theorem execCcSumF32_kept {φ : Part → Bool} {s0 s : State} {t1 : State} (p : Nat) (ch : Nat) (bad : SramErrs) (hk :
    Kept φ s0 s) (hcores : φ .cores = false) (hregs : φ .regs = false) (hports : φ .ports = false) (hout : φ .out =
    false) (husage : φ .usage = false) (hupds : φ .upds = false) (hccs : φ .ccs = false) (hqueues : φ .queues = false)
    (e : execCcSumF32 p ch bad s = .next t1) :
    Kept φ s0 t1 := by
  unfold execCcSumF32 at e
  injection e with e
  subst e
  with_reducible
    repeat'
      first
      | assumption | (intro _) | apply State.ccStart_kept | dsimp only

theorem execCcMaxF32_kept {φ : Part → Bool} {s0 s : State} {t1 : State} (p : Nat) (ch : Nat) (bad : SramErrs) (hk :
    Kept φ s0 s) (hcores : φ .cores = false) (hregs : φ .regs = false) (hports : φ .ports = false) (hout : φ .out =
    false) (husage : φ .usage = false) (hupds : φ .upds = false) (hccs : φ .ccs = false) (hqueues : φ .queues = false)
    (e : execCcMaxF32 p ch bad s = .next t1) :
    Kept φ s0 t1 := by
  unfold execCcMaxF32 at e
  injection e with e
  subst e
  with_reducible
    repeat'
      first
      | assumption | (intro _) | apply State.ccStart_kept | dsimp only

theorem execCcOrU32_kept {φ : Part → Bool} {s0 s : State} {t1 : State} (p : Nat) (ch : Nat) (bad : SramErrs) (hk :
    Kept φ s0 s) (hcores : φ .cores = false) (hregs : φ .regs = false) (hports : φ .ports = false) (hout : φ .out =
    false) (husage : φ .usage = false) (hupds : φ .upds = false) (hccs : φ .ccs = false) (hqueues : φ .queues = false)
    (e : execCcOrU32 p ch bad s = .next t1) :
    Kept φ s0 t1 := by
  unfold execCcOrU32 at e
  injection e with e
  subst e
  with_reducible
    repeat'
      first
      | assumption | (intro _) | apply State.ccStart_kept | dsimp only

theorem execCcNormrec_kept {φ : Part → Bool} {s0 s : State} {t1 : State} (p : Nat) (ch : Nat) (bad : SramErrs) (hk :
    Kept φ s0 s) (hcores : φ .cores = false) (hregs : φ .regs = false) (hports : φ .ports = false) (hout : φ .out =
    false) (husage : φ .usage = false) (hupds : φ .upds = false) (hccs : φ .ccs = false) (hqueues : φ .queues = false)
    (e : execCcNormrec p ch bad s = .next t1) :
    Kept φ s0 t1 := by
  unfold execCcNormrec at e
  injection e with e
  subst e
  with_reducible
    repeat'
      first
      | assumption | (intro _) | apply State.ccStart_kept | dsimp only

theorem execCcStage_kept {φ : Part → Bool} {s0 s : State} {t1 : State} (p : Nat) (ch : Nat) (hk : Kept φ s0 s) (hregs
    : φ .regs = false) (hports : φ .ports = false) (hout : φ .out = false) (hccs : φ .ccs = false) (hqueues : φ
    .queues = false) (e : execCcStage p ch s = .next t1) :
    Kept φ s0 t1 := by
  unfold execCcStage at e
  injection e with e
  subst e
  with_reducible
    repeat'
      first
      | assumption | (intro _) | apply State.ccStage_kept | dsimp only

theorem execCcComplete_kept {φ : Part → Bool} {s0 s : State} {t1 : State} (p : Nat) (ch : Nat) (hk : Kept φ s0 s)
    (hcores : φ .cores = false) (hregs : φ .regs = false) (hout : φ .out = false) (hseqs : φ .seqs = false) (hccs : φ
    .ccs = false) (hqueues : φ .queues = false) (e : execCcComplete p ch s = .next t1) :
    Kept φ s0 t1 := by
  unfold execCcComplete at e
  injection e with e
  subst e
  with_reducible
    repeat'
      first
      | assumption | (intro _) | apply State.ccComplete_kept | dsimp only

theorem execCcTimeout_kept {φ : Part → Bool} {s0 s : State} {t1 : State} (p : Nat) (ch : Nat) (hk : Kept φ s0 s)
    (hregs : φ .regs = false) (hout : φ .out = false) (hccs : φ .ccs = false) (hqueues : φ .queues = false) (e :
    execCcTimeout p ch s = .next t1) :
    Kept φ s0 t1 := by
  unfold execCcTimeout at e
  injection e with e
  subst e
  with_reducible
    repeat'
      first
      | assumption | (intro _) | apply State.ccTimeout_kept | dsimp only

theorem execSnapshotTimer_kept {φ : Part → Bool} {s0 s : State} {t1 : State} (p : Nat) (hk : Kept φ s0 s) (hlakes : φ
    .lakes = false) (e : execSnapshotTimer p s = .next t1) :
    Kept φ s0 t1 := by
  unfold execSnapshotTimer at e
  injection e with e
  subst e
  with_reducible
    repeat'
      first
      | assumption | (intro _) | apply State.snapTimer_kept | dsimp only

theorem execSnapshotComplete_kept {φ : Part → Bool} {s0 s : State} {t1 : State} (p : Nat) (errs : List ReadErr) (hk :
    Kept φ s0 s) (hmem : φ .mem = false) (hkeys : φ .keys = false) (hregs : φ .regs = false) (hports : φ .ports =
    false) (hlakes : φ .lakes = false) (hout : φ .out = false) (hpoison : φ .poison = false) (hchannels : φ .channels
    = false) (hupds : φ .upds = false) (hhaltReq : φ .haltReq = false) (e : execSnapshotComplete p errs s = .next t1)
    :
    Kept φ s0 t1 := by
  unfold execSnapshotComplete at e
  injection e with e
  subst e
  with_reducible
    repeat'
      first
      | assumption | (intro _) | apply State.snapComplete_kept | dsimp only

theorem execDrainSend_kept {φ : Part → Bool} {s0 s : State} {t1 : State} (p : Nat) (turn : DrainTurn) (hk : Kept φ s0
    s) (hregs : φ .regs = false) (hports : φ .ports = false) (hlakes : φ .lakes = false) (hout : φ .out = false)
    (hchannels : φ .channels = false) (e : execDrainSend p turn s = .next t1) :
    Kept φ s0 t1 := by
  unfold execDrainSend at e
  injection e with e
  subst e
  with_reducible
    repeat'
      first
      | assumption | (intro _) | apply State.drainSend_kept | dsimp only

theorem execDrainDataReceive_kept {φ : Part → Bool} {s0 s : State} {t1 : State} (p : Nat) (hk : Kept φ s0 s) (hmem : φ
    .mem = false) (hregs : φ .regs = false) (hports : φ .ports = false) (hlakes : φ .lakes = false) (hpoison : φ
    .poison = false) (e : execDrainDataReceive p s = .next t1) :
    Kept φ s0 t1 := by
  unfold execDrainDataReceive at e
  injection e with e
  subst e
  with_reducible
    repeat'
      first
      | assumption | (intro _) | apply State.drainData_kept | dsimp only

theorem execDrainEndReceive_kept {φ : Part → Bool} {s0 s : State} {t1 : State} (p : Nat) (hk : Kept φ s0 s) (hmem : φ
    .mem = false) (hregs : φ .regs = false) (hports : φ .ports = false) (hlakes : φ .lakes = false) (hout : φ .out =
    false) (hpoison : φ .poison = false) (e : execDrainEndReceive p s = .next t1) :
    Kept φ s0 t1 := by
  unfold execDrainEndReceive at e
  injection e with e
  subst e
  with_reducible
    repeat'
      first
      | assumption | (intro _) | apply State.drainEnd_kept | dsimp only

theorem execReadbackComplete_kept {φ : Part → Bool} {s0 s : State} {t1 : State} (p : Nat) (errs : List ReadErr) (hk :
    Kept φ s0 s) (hregs : φ .regs = false) (hports : φ .ports = false) (hout : φ .out = false) (hchannels : φ
    .channels = false) (e : execReadbackComplete p errs s = .next t1) :
    Kept φ s0 t1 := by
  unfold execReadbackComplete at e
  injection e with e
  subst e
  with_reducible
    repeat'
      first
      | assumption | (intro _) | apply State.readback_kept | dsimp only

theorem execDrainResultReceive_kept {φ : Part → Bool} {s0 s : State} {t1 : State} (p : Nat) (hk : Kept φ s0 s) (hregs
    : φ .regs = false) (hlakes : φ .lakes = false) (hout : φ .out = false) (e : execDrainResultReceive p s = .next t1)
    :
    Kept φ s0 t1 := by
  unfold execDrainResultReceive at e
  injection e with e
  subst e
  with_reducible
    repeat'
      first
      | assumption | (intro _) | apply State.drainResult_kept | dsimp only

theorem execDrainPullReceive_kept {φ : Part → Bool} {s0 s : State} {t1 : State} (p : Nat) (hk : Kept φ s0 s) (hregs :
    φ .regs = false) (hports : φ .ports = false) (hlakes : φ .lakes = false) (e : execDrainPullReceive p s = .next t1)
    :
    Kept φ s0 t1 := by
  unfold execDrainPullReceive at e
  injection e with e
  subst e
  with_reducible
    repeat'
      first
      | assumption | (intro _) | apply State.drainPull_kept | dsimp only

theorem execDrainAbandonReceive_kept {φ : Part → Bool} {s0 s : State} {t1 : State} (p : Nat) (hk : Kept φ s0 s) (hregs
    : φ .regs = false) (hlakes : φ .lakes = false) (e : execDrainAbandonReceive p s = .next t1) :
    Kept φ s0 t1 := by
  unfold execDrainAbandonReceive at e
  injection e with e
  subst e
  with_reducible
    repeat'
      first
      | assumption | (intro _) | apply State.drainAbandon_kept | dsimp only

theorem execDrainCfgWrite_kept {φ : Part → Bool} {s0 s : State} {t1 : State} (r : RegReq) (p : Nat) (v : Word) (hk :
    Kept φ s0 s) (hregs : φ .regs = false) (hports : φ .ports = false) (hlakes : φ .lakes = false) (hout : φ .out =
    false) (e : execDrainCfgWrite r p v s = .next t1) :
    Kept φ s0 t1 := by
  unfold execDrainCfgWrite at e
  injection e with e
  subst e
  with_reducible
    repeat'
      first
      | assumption | (intro _) | apply State.write_kept | apply State.drainCfgW_kept | dsimp only

theorem execCkpAbort_kept {φ : Part → Bool} {s0 s : State} {t1 : State} (r : RegReq) (p : Nat) (v : Word) (hk : Kept φ
    s0 s) (hkeys : φ .keys = false) (hcores : φ .cores = false) (hregs : φ .regs = false) (hports : φ .ports = false)
    (hlakes : φ .lakes = false) (hout : φ .out = false) (hseqs : φ .seqs = false) (hpoison : φ .poison = false)
    (hchannels : φ .channels = false) (husage : φ .usage = false) (hupds : φ .upds = false) (hwins : φ .wins = false)
    (hccs : φ .ccs = false) (hqueues : φ .queues = false) (hhaltReq : φ .haltReq = false) (hfrozen : φ .frozen =
    false) (e : execCkpAbort r p v s = .next t1) :
    Kept φ s0 t1 := by
  unfold execCkpAbort at e
  injection e with e
  subst e
  with_reducible
    repeat'
      first
      | assumption | (intro _) | apply State.write_kept | apply State.ckpCtrlW_kept | dsimp only

theorem execQuiet_kept {φ : Part → Bool} {s0 s : State} {t1 : State} (p : Nat) (hk : Kept φ s0 s) (hregs : φ .regs =
    false) (hlakes : φ .lakes = false) (hout : φ .out = false) (e : execQuiet p s = .next t1) :
    Kept φ s0 t1 := by
  unfold execQuiet at e
  injection e with e
  subst e
  with_reducible
    repeat'
      first
      | assumption | (intro _) | apply State.quiet_kept | dsimp only

theorem execCkpRestore_kept {φ : Part → Bool} {s0 s : State} {t1 : State} (r : RegReq) (p : Nat) (v : Word) (errs :
    List ReadErr) (hk : Kept φ s0 s) (hkeys : φ .keys = false) (hcores : φ .cores = false) (hregs : φ .regs = false)
    (hports : φ .ports = false) (hlakes : φ .lakes = false) (hout : φ .out = false) (hseqs : φ .seqs = false) (hpoison
    : φ .poison = false) (hchannels : φ .channels = false) (husage : φ .usage = false) (hupds : φ .upds = false)
    (hwins : φ .wins = false) (hccs : φ .ccs = false) (hqueues : φ .queues = false) (hhaltReq : φ .haltReq = false)
    (hfrozen : φ .frozen = false) (e : execCkpRestore r p v errs s = .next t1) :
    Kept φ s0 t1 := by
  unfold execCkpRestore at e
  injection e with e
  subst e
  with_reducible
    repeat'
      first
      | assumption | (intro _) | apply State.write_kept | apply State.ckpCtrlW_kept | dsimp only

theorem execRestoreComplete_kept {φ : Part → Bool} {s0 s : State} {t1 : State} (p : Nat) (errs : List ReadErr) (hk :
    Kept φ s0 s) (hmem : φ .mem = false) (hkeys : φ .keys = false) (hregs : φ .regs = false) (hlakes : φ .lakes =
    false) (hout : φ .out = false) (hseqs : φ .seqs = false) (hpoison : φ .poison = false) (hchannels : φ .channels =
    false) (hupds : φ .upds = false) (hringAdv : φ .ringAdv = false) (hhaltReq : φ .haltReq = false) (e :
    execRestoreComplete p errs s = .next t1) :
    Kept φ s0 t1 := by
  unfold execRestoreComplete at e
  injection e with e
  subst e
  with_reducible
    repeat'
      first
      | assumption | (intro _) | apply State.restoreComplete_kept | dsimp only

theorem execCkpPull_kept {φ : Part → Bool} {s0 s : State} {t1 : State} (r : RegReq) (p : Nat) (v : Word) (hk : Kept φ
    s0 s) (hkeys : φ .keys = false) (hcores : φ .cores = false) (hregs : φ .regs = false) (hports : φ .ports = false)
    (hlakes : φ .lakes = false) (hout : φ .out = false) (hseqs : φ .seqs = false) (hpoison : φ .poison = false)
    (hchannels : φ .channels = false) (husage : φ .usage = false) (hupds : φ .upds = false) (hwins : φ .wins = false)
    (hccs : φ .ccs = false) (hqueues : φ .queues = false) (hhaltReq : φ .haltReq = false) (hfrozen : φ .frozen =
    false) (e : execCkpPull r p v s = .next t1) :
    Kept φ s0 t1 := by
  unfold execCkpPull at e
  injection e with e
  subst e
  with_reducible
    repeat'
      first
      | assumption | (intro _) | apply State.write_kept | apply State.ckpCtrlW_kept | dsimp only

theorem execCkpHostack_kept {φ : Part → Bool} {s0 s : State} {t1 : State} (r : RegReq) (p : Nat) (v : Word) (hk : Kept
    φ s0 s) (hregs : φ .regs = false) (hout : φ .out = false) (e : execCkpHostack r p v s = .next t1) :
    Kept φ s0 t1 := by
  unfold execCkpHostack at e
  injection e with e
  subst e
  with_reducible
    repeat'
      first
      | assumption | (intro _) | apply State.write_kept | apply State.hostAck_kept | dsimp only

theorem execCkpConfigWrite_kept {φ : Part → Bool} {s0 s : State} {t1 : State} (r : RegReq) (p : Nat) (off : Nat) (v :
    Word) (hk : Kept φ s0 s) (hkeys : φ .keys = false) (hcores : φ .cores = false) (hregs : φ .regs = false) (hports :
    φ .ports = false) (hlakes : φ .lakes = false) (hout : φ .out = false) (hseqs : φ .seqs = false) (hpoison : φ
    .poison = false) (hchannels : φ .channels = false) (husage : φ .usage = false) (hupds : φ .upds = false) (hwins :
    φ .wins = false) (hccs : φ .ccs = false) (hqueues : φ .queues = false) (hhaltReq : φ .haltReq = false) (hfrozen :
    φ .frozen = false) (e : execCkpConfigWrite r p off v s = .next t1) :
    Kept φ s0 t1 := by
  unfold execCkpConfigWrite at e
  injection e with e
  subst e
  with_reducible
    repeat'
      first
      | assumption | (intro _) | apply State.write_kept | apply State.ckpConfigW_kept | dsimp only

theorem execMailboxGo_kept {φ : Part → Bool} {s0 s : State} {t1 : State} (r : RegReq) (b : Nat) (hk : Kept φ s0 s)
    (hregs : φ .regs = false) (hout : φ .out = false) (hkeeper : φ .keeper = false) (e : execMailboxGo r b s = .next
    t1) :
    Kept φ s0 t1 := by
  unfold execMailboxGo at e
  injection e with e
  subst e
  with_reducible
    repeat'
      first
      | assumption | (intro _) | apply State.write_kept | apply State.mailGo_kept | dsimp only

theorem execGetInfo_kept {φ : Part → Bool} {s0 s : State} {t1 : State}  (hk : Kept φ s0 s) (hregs : φ .regs = false)
    (hout : φ .out = false) (hkeeper : φ .keeper = false) (e : execGetInfo s = .next t1) :
    Kept φ s0 t1 := by
  unfold execGetInfo at e
  injection e with e
  subst e
  with_reducible
    repeat'
      first
      | assumption | (intro _) | apply kept_ite | apply State.serve_kept | apply kept_ite_fst
      | (apply kept_of_eq; assumption) | split | dsimp only

theorem execSlotStatus_kept {φ : Part → Bool} {s0 s : State} {t1 : State}  (hk : Kept φ s0 s) (hregs : φ .regs =
    false) (hout : φ .out = false) (hkeeper : φ .keeper = false) (e : execSlotStatus s = .next t1) :
    Kept φ s0 t1 := by
  unfold execSlotStatus at e
  injection e with e
  subst e
  with_reducible
    repeat'
      first
      | assumption | (intro _) | apply kept_ite | apply refuseCmd_kept | apply State.serve_kept | apply kept_ite_fst
      | (apply kept_of_eq; assumption) | split | dsimp only

theorem execSessionKek_kept {φ : Part → Bool} {s0 s : State} {t1 : State}  (hk : Kept φ s0 s) (hkeys : φ .keys =
    false) (hregs : φ .regs = false) (hout : φ .out = false) (hkeeper : φ .keeper = false) (e : execSessionKek s =
    .next t1) :
    Kept φ s0 t1 := by
  unfold execSessionKek at e
  injection e with e
  subst e
  with_reducible
    repeat'
      first
      | assumption | (intro _) | apply kept_ite | apply State.setKey_kept | apply State.loadSlot_kept
      | apply refuseCmd_kept | apply State.serve_kept | apply kept_ite_fst | (apply kept_of_eq; assumption) | split
      | dsimp only

theorem execImportKey_kept {φ : Part → Bool} {s0 s : State} {t1 : State}  (hk : Kept φ s0 s) (hkeys : φ .keys = false)
    (hregs : φ .regs = false) (hout : φ .out = false) (hkeeper : φ .keeper = false) (e : execImportKey s = .next t1) :
    Kept φ s0 t1 := by
  unfold execImportKey at e
  injection e with e
  subst e
  with_reducible
    repeat'
      first
      | assumption | (intro _) | apply kept_ite | apply State.useKey_kept | apply refuseCmd_kept
      | apply State.serve_kept | apply State.loadChecked_kept | apply kept_ite_fst | (apply kept_of_eq; assumption)
      | split | dsimp only

theorem execDerive_kept {φ : Part → Bool} {s0 s : State} {t1 : State}  (hk : Kept φ s0 s) (hkeys : φ .keys = false)
    (hregs : φ .regs = false) (hout : φ .out = false) (hkeeper : φ .keeper = false) (e : execDerive s = .next t1) :
    Kept φ s0 t1 := by
  unfold execDerive at e
  injection e with e
  subst e
  with_reducible
    repeat'
      first
      | assumption | (intro _) | apply kept_ite | apply State.useKey_kept | apply refuseCmd_kept
      | apply State.serve_kept | apply State.loadChecked_kept | apply kept_ite_fst | (apply kept_of_eq; assumption)
      | split | dsimp only | apply kept_mk | apply kept_mk_keeper

theorem execDerivePair_kept {φ : Part → Bool} {s0 s : State} {t1 : State}  (hk : Kept φ s0 s) (hkeys : φ .keys =
    false) (hregs : φ .regs = false) (hout : φ .out = false) (hkeeper : φ .keeper = false) (e : execDerivePair s =
    .next t1) :
    Kept φ s0 t1 := by
  unfold execDerivePair at e
  injection e with e
  subst e
  with_reducible
    repeat'
      first
      | assumption | (intro _) | apply kept_ite | apply State.useKey_kept | apply State.loadPair_kept
      | apply refuseCmd_kept | apply State.serve_kept | apply kept_ite_fst | (apply kept_of_eq; assumption) | split
      | dsimp only

theorem execRevoke_kept {φ : Part → Bool} {s0 s : State} {t1 : State}  (hk : Kept φ s0 s) (hkeys : φ .keys = false)
    (hregs : φ .regs = false) (hout : φ .out = false) (hkeeper : φ .keeper = false) (e : execRevoke s = .next t1) :
    Kept φ s0 t1 := by
  unfold execRevoke at e
  injection e with e
  subst e
  with_reducible
    repeat'
      first
      | assumption | (intro _) | apply kept_ite | apply State.emptySlot_kept | apply refuseCmd_kept
      | apply State.serve_kept | apply kept_ite_fst | (apply kept_of_eq; assumption) | split | dsimp only

theorem execSetLimit_kept {φ : Part → Bool} {s0 s : State} {t1 : State}  (hk : Kept φ s0 s) (hkeys : φ .keys = false)
    (hregs : φ .regs = false) (hout : φ .out = false) (hkeeper : φ .keeper = false) (e : execSetLimit s = .next t1) :
    Kept φ s0 t1 := by
  unfold execSetLimit at e
  injection e with e
  subst e
  with_reducible
    repeat'
      first
      | assumption | (intro _) | apply kept_ite | apply refuseCmd_kept | apply State.serve_kept
      | apply State.setLimit_kept | apply kept_ite_fst | (apply kept_of_eq; assumption) | split | dsimp only

theorem execPartRevoke_kept {φ : Part → Bool} {s0 s : State} {t1 : State}  (hk : Kept φ s0 s) (hkeys : φ .keys =
    false) (hcores : φ .cores = false) (hdmas : φ .dmas = false) (hregs : φ .regs = false) (hports : φ .ports = false)
    (hlakes : φ .lakes = false) (hout : φ .out = false) (hseqs : φ .seqs = false) (hkeeper : φ .keeper = false)
    (husage : φ .usage = false) (htenancies : φ .tenancies = false) (hwins : φ .wins = false) (hccs : φ .ccs = false)
    (hqueues : φ .queues = false) (hfrozen : φ .frozen = false) (hdumps : φ .dumps = false) (e : execPartRevoke s =
    .next t1) :
    Kept φ s0 t1 := by
  unfold execPartRevoke at e
  injection e with e
  subst e
  with_reducible
    repeat'
      first
      | assumption | (intro _) | apply kept_ite | apply State.startRemoval_kept | apply refuseCmd_kept
      | apply State.serve_kept | apply kept_ite_fst | (apply kept_of_eq; assumption) | split | dsimp only

theorem execMordantShare_kept {φ : Part → Bool} {s0 s : State} {t1 : State}  (hk : Kept φ s0 s) (hkeys : φ .keys =
    false) (hregs : φ .regs = false) (hout : φ .out = false) (hkeeper : φ .keeper = false) (e : execMordantShare s =
    .next t1) :
    Kept φ s0 t1 := by
  unfold execMordantShare at e
  injection e with e
  subst e
  with_reducible
    repeat'
      first
      | assumption | (intro _) | apply kept_ite | apply State.useKey_kept | apply State.setJoint_kept
      | apply State.setMordant_kept | apply refuseCmd_kept | apply State.serve_kept | apply kept_ite_fst
      | (apply kept_of_eq; assumption) | split | dsimp only | apply kept_mk | apply kept_mk_keeper

theorem execMordantDerive_kept {φ : Part → Bool} {s0 s : State} {t1 : State}  (hk : Kept φ s0 s) (hkeys : φ .keys =
    false) (hregs : φ .regs = false) (hout : φ .out = false) (hkeeper : φ .keeper = false) (e : execMordantDerive s =
    .next t1) :
    Kept φ s0 t1 := by
  unfold execMordantDerive at e
  injection e with e
  subst e
  with_reducible
    repeat'
      first
      | assumption | (intro _) | apply kept_ite | apply State.loadSlot_kept | apply State.setMordant_kept
      | apply refuseCmd_kept | apply State.serve_kept | apply kept_foldl | apply kept_ite_fst | apply kept_foldl_fst
      | (apply kept_of_eq; assumption) | split | dsimp only | apply kept_mk | apply kept_mk_keeper

theorem execLakeBind_kept {φ : Part → Bool} {s0 s : State} {t1 : State}  (hk : Kept φ s0 s) (hregs : φ .regs = false)
    (hout : φ .out = false) (hkeeper : φ .keeper = false) (e : execLakeBind s = .next t1) :
    Kept φ s0 t1 := by
  unfold execLakeBind at e
  injection e with e
  subst e
  with_reducible
    repeat'
      first
      | assumption | (intro _) | apply kept_ite | apply refuseCmd_kept | apply State.serve_kept | apply kept_ite_fst
      | (apply kept_of_eq; assumption) | split | dsimp only | apply kept_mk | apply kept_mk_keeper

theorem execLakeKey_kept {φ : Part → Bool} {s0 s : State} {t1 : State}  (hk : Kept φ s0 s) (hkeys : φ .keys = false)
    (hregs : φ .regs = false) (hout : φ .out = false) (hkeeper : φ .keeper = false) (e : execLakeKey s = .next t1) :
    Kept φ s0 t1 := by
  unfold execLakeKey at e
  injection e with e
  subst e
  with_reducible
    repeat'
      first
      | assumption | (intro _) | apply kept_ite | apply State.lakeKey_kept | apply refuseCmd_kept
      | apply State.serve_kept | apply kept_ite_fst | (apply kept_of_eq; assumption) | split | dsimp only

theorem execGetIdentity_kept {φ : Part → Bool} {s0 s : State} {t1 : State}  (hk : Kept φ s0 s) (hregs : φ .regs =
    false) (hout : φ .out = false) (hkeeper : φ .keeper = false) (e : execGetIdentity s = .next t1) :
    Kept φ s0 t1 := by
  unfold execGetIdentity at e
  injection e with e
  subst e
  with_reducible
    repeat'
      first
      | assumption | (intro _) | apply kept_ite | apply refuseCmd_kept | apply State.serve_kept | apply kept_ite_fst
      | (apply kept_of_eq; assumption) | split | dsimp only

theorem execIfcRekey_kept {φ : Part → Bool} {s0 s : State} {t1 : State} (k : Nat) (hk : Kept φ s0 s) (hkeys : φ .keys
    = false) (hregs : φ .regs = false) (hout : φ .out = false) (hkeeper : φ .keeper = false) (e : execIfcRekey k s =
    .next t1) :
    Kept φ s0 t1 := by
  unfold execIfcRekey at e
  injection e with e
  subst e
  with_reducible
    repeat'
      first
      | assumption | (intro _) | apply State.ifcRekey_kept | dsimp only

theorem execDrbgReseed_kept {φ : Part → Bool} {s0 s : State} {t1 : State}  (hk : Kept φ s0 s) (hkeeper : φ .keeper =
    false) (e : execDrbgReseed s = .next t1) :
    Kept φ s0 t1 := by
  unfold execDrbgReseed at e
  injection e with e
  subst e
  with_reducible
    repeat'
      first
      | assumption | (intro _) | apply kept_ite | split | dsimp only | apply kept_mk | apply kept_mk_keeper

theorem execEntropyFail_kept {φ : Part → Bool} {s0 s : State} {t1 : State}  (hk : Kept φ s0 s) (hregs : φ .regs =
    false) (e : execEntropyFail s = .next t1) :
    Kept φ s0 t1 := by
  unfold execEntropyFail at e
  injection e with e
  subst e
  with_reducible
    repeat'
      first
      | assumption | (intro _) | apply State.fput_kept | dsimp only

theorem execRegionEntryWrite_kept {φ : Part → Bool} {s0 s : State} {t1 : State} (r : RegReq) (p : Nat) (n : Nat) (w :
    Nat) (v : Word) (hk : Kept φ s0 s) (hregs : φ .regs = false) (hout : φ .out = false) (e : execRegionEntryWrite r p
    n w v s = .next t1) :
    Kept φ s0 t1 := by
  unfold execRegionEntryWrite at e
  injection e with e
  subst e
  with_reducible
    repeat'
      first
      | assumption | (intro _) | apply State.rgnAccess_kept | dsimp only

theorem execBar2Access_kept {φ : Part → Bool} {s0 s : State} {t1 : State} (p : Nat) (trusted : Bool) (o : Nat) (len :
    Nat) (data : Option (List Byte)) (errs : List ReadErr) (hk : Kept φ s0 s) (hmem : φ .mem = false) (hkeys : φ .keys
    = false) (hregs : φ .regs = false) (hout : φ .out = false) (hpoison : φ .poison = false) (hchannels : φ .channels
    = false) (hupds : φ .upds = false) (hhaltReq : φ .haltReq = false) (e : execBar2Access p trusted o len data errs s
    = .next t1) :
    Kept φ s0 t1 := by
  unfold execBar2Access at e
  injection e with e
  subst e
  with_reducible
    repeat'
      first
      | assumption | (intro _) | apply State.bar2_kept | dsimp only

theorem execIdeIntegrityFail_kept {φ : Part → Bool} {s0 s : State} {t1 : State} (i : Nat) (hk : Kept φ s0 s) (hdmas :
    φ .dmas = false) (hregs : φ .regs = false) (hout : φ .out = false) (hqueues : φ .queues = false) (e :
    execIdeIntegrityFail i s = .next t1) :
    Kept φ s0 t1 := by
  unfold execIdeIntegrityFail at e
  injection e with e
  subst e
  with_reducible
    repeat'
      first
      | assumption | (intro _) | apply State.ideFail_kept | dsimp only

theorem execIdeKm_kept {φ : Part → Bool} {s0 s : State} {t1 : State} (p : Nat) (id : Nat) (i : Nat) (sid : Nat) (go :
    Bool) (hk : Kept φ s0 s) (hregs : φ .regs = false) (hout : φ .out = false) (e : execIdeKm p id i sid go s = .next
    t1) :
    Kept φ s0 t1 := by
  unfold execIdeKm at e
  injection e with e
  subst e
  with_reducible
    repeat'
      first
      | assumption | (intro _) | apply State.ideKm_kept | dsimp only

theorem execLayoutWrite_kept {φ : Part → Bool} {s0 s : State} {t1 : State} (r : RegReq) (v : Word) (hk : Kept φ s0 s)
    (hkeys : φ .keys = false) (hregs : φ .regs = false) (hports : φ .ports = false) (hout : φ .out = false) (e :
    execLayoutWrite r v s = .next t1) :
    Kept φ s0 t1 := by
  unfold execLayoutWrite at e
  injection e with e
  subst e
  with_reducible
    repeat'
      first
      | assumption | (intro _) | apply State.write_kept | apply State.layoutW_kept | dsimp only

theorem execAssign_kept {φ : Part → Bool} {s0 s : State} {t1 : State} (r : RegReq) (p : Nat) (hk : Kept φ s0 s) (hregs
    : φ .regs = false) (hmtr : φ .mtr = false) (hout : φ .out = false) (husage : φ .usage = false) (hevents : φ
    .events = false) (e : execAssign r p s = .next t1) :
    Kept φ s0 t1 := by
  unfold execAssign at e
  injection e with e
  subst e
  with_reducible
    repeat'
      first
      | assumption | (intro _) | apply State.write_kept | apply State.assign_kept | dsimp only

theorem execAdmissionComplete_kept {φ : Part → Bool} {s0 s : State} {t1 : State} (p : Nat) (hk : Kept φ s0 s) (hmem :
    φ .mem = false) (hcores : φ .cores = false) (hregs : φ .regs = false) (hlakes : φ .lakes = false) (hshadows : φ
    .shadows = false) (hout : φ .out = false) (hseqs : φ .seqs = false) (hpoison : φ .poison = false) (hchannels : φ
    .channels = false) (hkeeper : φ .keeper = false) (husage : φ .usage = false) (hupds : φ .upds = false) (hringAdv :
    φ .ringAdv = false) (hwins : φ .wins = false) (hccs : φ .ccs = false) (hqueues : φ .queues = false) (e :
    execAdmissionComplete p s = .next t1) :
    Kept φ s0 t1 := by
  unfold execAdmissionComplete at e
  injection e with e
  subst e
  with_reducible
    repeat'
      first
      | assumption | (intro _) | apply State.admitted'_kept | dsimp only

theorem execLockInterfaceRequest_kept {φ : Part → Bool} {s0 s : State} {t1 : State} (p : Nat) (hk : Kept φ s0 s)
    (hregs : φ .regs = false) (hout : φ .out = false) (hkeeper : φ .keeper = false) (htenancies : φ .tenancies =
    false) (e : execLockInterfaceRequest p s = .next t1) :
    Kept φ s0 t1 := by
  unfold execLockInterfaceRequest at e
  injection e with e
  subst e
  with_reducible
    repeat'
      first
      | assumption | (intro _) | apply State.lockIfc_kept | dsimp only

theorem execStartInterfaceRequest_kept {φ : Part → Bool} {s0 s : State} {t1 : State} (p : Nat) (nonce : List Byte) (hk
    : Kept φ s0 s) (hregs : φ .regs = false) (hout : φ .out = false) (htenancies : φ .tenancies = false) (e :
    execStartInterfaceRequest p nonce s = .next t1) :
    Kept φ s0 t1 := by
  unfold execStartInterfaceRequest at e
  injection e with e
  subst e
  with_reducible
    repeat'
      first
      | assumption | (intro _) | apply State.startIfc_kept | dsimp only

theorem execStopInterfaceRequest_kept {φ : Part → Bool} {s0 s : State} {t1 : State} (p : Nat) (hk : Kept φ s0 s)
    (hkeys : φ .keys = false) (hcores : φ .cores = false) (hdmas : φ .dmas = false) (hregs : φ .regs = false) (hports
    : φ .ports = false) (hlakes : φ .lakes = false) (hout : φ .out = false) (hseqs : φ .seqs = false) (hkeeper : φ
    .keeper = false) (husage : φ .usage = false) (htenancies : φ .tenancies = false) (hwins : φ .wins = false) (hccs :
    φ .ccs = false) (hqueues : φ .queues = false) (hfrozen : φ .frozen = false) (hdumps : φ .dumps = false) (e :
    execStopInterfaceRequest p s = .next t1) :
    Kept φ s0 t1 := by
  unfold execStopInterfaceRequest at e
  injection e with e
  subst e
  with_reducible
    repeat'
      first
      | assumption | (intro _) | apply State.stopIfc_kept | dsimp only

theorem execGetDeviceInterfaceReport_kept {φ : Part → Bool} {s0 s : State} {t1 : State} (p : Nat) (hk : Kept φ s0 s)
    (hout : φ .out = false) (e : execGetDeviceInterfaceReport p s = .next t1) :
    Kept φ s0 t1 := by
  unfold execGetDeviceInterfaceReport at e
  injection e with e
  subst e
  with_reducible
    repeat'
      first
      | assumption | (intro _) | apply State.ifcReport_kept | dsimp only

theorem execGetMeasurements_kept {φ : Part → Bool} {s0 s : State} {t1 : State} (fn : Nat) (idx : Nat) (sig : Bool) (tr
    : List Byte) (hk : Kept φ s0 s) (hout : φ .out = false) (e : execGetMeasurements fn idx sig tr s = .next t1) :
    Kept φ s0 t1 := by
  unfold execGetMeasurements at e
  injection e with e
  subst e
  with_reducible
    repeat'
      first
      | assumption | (intro _) | apply State.getMeas_kept | dsimp only

theorem execGetCertificate_kept {φ : Part → Bool} {s0 s : State} {t1 : State} (fn : Nat) (slot : Nat) (hk : Kept φ s0
    s) (hout : φ .out = false) (e : execGetCertificate fn slot s = .next t1) :
    Kept φ s0 t1 := by
  unfold execGetCertificate at e
  injection e with e
  subst e
  with_reducible
    repeat'
      first
      | assumption | (intro _) | apply State.getCert_kept | dsimp only

theorem execKeyExchange_kept {φ : Part → Bool} {s0 s : State} {t1 : State} (fn : Nat) (id : Nat) (pq : Bool) (secret :
    List Byte) (cert : List Byte) (hk : Kept φ s0 s) (hout : φ .out = false) (hkeeper : φ .keeper = false) (e :
    execKeyExchange fn id pq secret cert s = .next t1) :
    Kept φ s0 t1 := by
  unfold execKeyExchange at e
  injection e with e
  subst e
  with_reducible
    repeat'
      first
      | assumption | (intro _) | apply State.keyExchange_kept | dsimp only

theorem execMordantReport_kept {φ : Part → Bool} {s0 s : State} {t1 : State} (p : Nat) (id : Nat) (hk : Kept φ s0 s)
    (hout : φ .out = false) (e : execMordantReport p id s = .next t1) :
    Kept φ s0 t1 := by
  unfold execMordantReport at e
  injection e with e
  subst e
  with_reducible
    repeat'
      first
      | assumption | (intro _) | apply State.mordantReport_kept | dsimp only

theorem execFunctionLevelReset_kept {φ : Part → Bool} {s0 s : State} {t1 : State} (fn : Nat) (hk : Kept φ s0 s) (hkeys
    : φ .keys = false) (hcores : φ .cores = false) (hdmas : φ .dmas = false) (hregs : φ .regs = false) (hports : φ
    .ports = false) (hlakes : φ .lakes = false) (hout : φ .out = false) (hseqs : φ .seqs = false) (hkeeper : φ .keeper
    = false) (husage : φ .usage = false) (htenancies : φ .tenancies = false) (hwins : φ .wins = false) (hccs : φ .ccs
    = false) (hqueues : φ .queues = false) (hfrozen : φ .frozen = false) (hdumps : φ .dumps = false) (hpcie : φ .pcie
    = false) (e : execFunctionLevelReset fn s = .next t1) :
    Kept φ s0 t1 := by
  unfold execFunctionLevelReset at e
  injection e with e
  subst e
  with_reducible
    repeat'
      first
      | assumption | (intro _) | apply State.flr_kept | dsimp only

theorem execVfEnableClear_kept {φ : Part → Bool} {s0 s : State} {t1 : State}  (hk : Kept φ s0 s) (hkeys : φ .keys =
    false) (hcores : φ .cores = false) (hdmas : φ .dmas = false) (hregs : φ .regs = false) (hports : φ .ports = false)
    (hlakes : φ .lakes = false) (hout : φ .out = false) (hseqs : φ .seqs = false) (hkeeper : φ .keeper = false)
    (husage : φ .usage = false) (htenancies : φ .tenancies = false) (hwins : φ .wins = false) (hccs : φ .ccs = false)
    (hqueues : φ .queues = false) (hfrozen : φ .frozen = false) (hdumps : φ .dumps = false) (hpcie : φ .pcie = false)
    (e : execVfEnableClear s = .next t1) :
    Kept φ s0 t1 := by
  unfold execVfEnableClear at e
  injection e with e
  subst e
  with_reducible
    repeat'
      first
      | assumption | (intro _) | apply State.vfDisable_kept | dsimp only

theorem execRemovalComplete_kept {φ : Part → Bool} {s0 s : State} {t1 : State} (p : Nat) (hk : Kept φ s0 s) (hmem : φ
    .mem = false) (hcores : φ .cores = false) (hregs : φ .regs = false) (hlakes : φ .lakes = false) (hmtr : φ .mtr =
    false) (hshadows : φ .shadows = false) (hout : φ .out = false) (hseqs : φ .seqs = false) (hpoison : φ .poison =
    false) (hchannels : φ .channels = false) (hkeeper : φ .keeper = false) (husage : φ .usage = false) (htenancies : φ
    .tenancies = false) (hupds : φ .upds = false) (hringAdv : φ .ringAdv = false) (hwins : φ .wins = false) (hccs : φ
    .ccs = false) (hqueues : φ .queues = false) (hevents : φ .events = false) (hpcie : φ .pcie = false) (e :
    execRemovalComplete p s = .next t1) :
    Kept φ s0 t1 := by
  unfold execRemovalComplete at e
  injection e with e
  subst e
  with_reducible
    repeat'
      first
      | assumption | (intro _) | apply State.removalDone_kept | dsimp only

theorem execPartitionRemovedNotice_kept {φ : Part → Bool} {s0 s : State} {t1 : State} (n : Nat) (peer : Nat) (hk :
    Kept φ s0 s) (hregs : φ .regs = false) (hout : φ .out = false) (e : execPartitionRemovedNotice n peer s = .next
    t1) :
    Kept φ s0 t1 := by
  unfold execPartitionRemovedNotice at e
  injection e with e
  subst e
  with_reducible
    repeat'
      first
      | assumption | (intro _) | apply State.noticeIn_kept | dsimp only

theorem execQueueDoorbell_kept {φ : Part → Bool} {s0 s : State} {t1 : State} (r : RegReq) (p : Nat) (q : Nat) (v :
    Word) (hk : Kept φ s0 s) (hregs : φ .regs = false) (hout : φ .out = false) (e : execQueueDoorbell r p q v s =
    .next t1) :
    Kept φ s0 t1 := by
  unfold execQueueDoorbell at e
  injection e with e
  subst e
  with_reducible
    repeat'
      first
      | assumption | (intro _) | apply State.write_kept | apply State.queueDb_kept | dsimp only

theorem execQueueEntryFetch_kept {φ : Part → Bool} {s0 s : State} {t1 : State} (p : Nat) (q : Nat) (entry : HostRead)
    (cb : HostRead) (hk : Kept φ s0 s) (hregs : φ .regs = false) (hout : φ .out = false) (hqueues : φ .queues = false)
    (e : execQueueEntryFetch p q entry cb s = .next t1) :
    Kept φ s0 t1 := by
  unfold execQueueEntryFetch at e
  injection e with e
  subst e
  with_reducible
    repeat'
      first
      | assumption | (intro _) | apply State.queueFetch_kept | dsimp only

theorem execCbGrant_kept {φ : Part → Bool} {s0 s : State} {t1 : State} (p : Nat) (hk : Kept φ s0 s) (hqueues : φ
    .queues = false) (e : execCbGrant p s = .next t1) :
    Kept φ s0 t1 := by
  unfold execCbGrant at e
  injection e with e
  subst e
  with_reducible
    repeat'
      first
      | assumption | (intro _) | apply State.cbGrant_kept | dsimp only

theorem execPktNop_kept {φ : Part → Bool} {s0 s : State} {t1 : State} (p : Nat) (q : Nat) (seq : Nat) (hk : Kept φ s0
    s) (hregs : φ .regs = false) (hout : φ .out = false) (hqueues : φ .queues = false) (e : execPktNop p q seq s =
    .next t1) :
    Kept φ s0 t1 := by
  unfold execPktNop at e
  injection e with e
  subst e
  with_reducible
    repeat'
      first
      | assumption | (intro _) | apply State.settle_kept | apply State.packet_kept | dsimp only

theorem execPktWait_kept {φ : Part → Bool} {s0 s : State} {t1 : State} (p : Nat) (q : Nat) (seq : Nat) (hk : Kept φ s0
    s) (hregs : φ .regs = false) (hout : φ .out = false) (hqueues : φ .queues = false) (e : execPktWait p q seq s =
    .next t1) :
    Kept φ s0 t1 := by
  unfold execPktWait at e
  injection e with e
  subst e
  with_reducible
    repeat'
      first
      | assumption | (intro _) | apply State.packet_kept | apply State.pktWait_kept | dsimp only

theorem execPktSignal_kept {φ : Part → Bool} {s0 s : State} {t1 : State} (p : Nat) (q : Nat) (seq : Nat) (hk : Kept φ
    s0 s) (hregs : φ .regs = false) (hout : φ .out = false) (hqueues : φ .queues = false) (e : execPktSignal p q seq s
    = .next t1) :
    Kept φ s0 t1 := by
  unfold execPktSignal at e
  injection e with e
  subst e
  with_reducible
    repeat'
      first
      | assumption | (intro _) | apply State.fenceSignal_kept | apply State.packet_kept | dsimp only

theorem execPktReset_kept {φ : Part → Bool} {s0 s : State} {t1 : State} (p : Nat) (q : Nat) (seq : Nat) (hk : Kept φ
    s0 s) (hregs : φ .regs = false) (hout : φ .out = false) (hqueues : φ .queues = false) (e : execPktReset p q seq s
    = .next t1) :
    Kept φ s0 t1 := by
  unfold execPktReset at e
  injection e with e
  subst e
  with_reducible
    repeat'
      first
      | assumption | (intro _) | apply State.fenceReset_kept | apply State.settle_kept | apply State.packet_kept
      | dsimp only

theorem execPktDma_kept {φ : Part → Bool} {s0 s : State} {t1 : State} (p : Nat) (q : Nat) (seq : Nat) (hk : Kept φ s0
    s) (hdmas : φ .dmas = false) (hregs : φ .regs = false) (hout : φ .out = false) (husage : φ .usage = false)
    (hqueues : φ .queues = false) (e : execPktDma p q seq s = .next t1) :
    Kept φ s0 t1 := by
  unfold execPktDma at e
  injection e with e
  subst e
  with_reducible
    repeat'
      first
      | assumption | (intro _) | apply kept_ite | apply State.packet_kept | apply State.pktDma_kept | split
      | dsimp only

theorem execPktSeqRun_kept {φ : Part → Bool} {s0 s : State} {t1 : State} (p : Nat) (q : Nat) (seq : Nat) (errs : List
    ReadErr) (hk : Kept φ s0 s) (hmem : φ .mem = false) (hkeys : φ .keys = false) (hcores : φ .cores = false) (hregs :
    φ .regs = false) (hlakes : φ .lakes = false) (hout : φ .out = false) (hseqs : φ .seqs = false) (hpoison : φ
    .poison = false) (hchannels : φ .channels = false) (husage : φ .usage = false) (hupds : φ .upds = false) (hringAdv
    : φ .ringAdv = false) (hccs : φ .ccs = false) (hqueues : φ .queues = false) (hhaltReq : φ .haltReq = false)
    (hfrozen : φ .frozen = false) (e : execPktSeqRun p q seq errs s = .next t1) :
    Kept φ s0 t1 := by
  unfold execPktSeqRun at e
  injection e with e
  subst e
  with_reducible
    repeat'
      first
      | assumption | (intro _) | apply State.packet_kept | apply State.pktSeqRun_kept | dsimp only

theorem execPktRegWrite_kept {φ : Part → Bool} {s0 s : State} {t1 : State} (p : Nat) (q : Nat) (seq : Nat) (hk : Kept
    φ s0 s) (hregs : φ .regs = false) (hout : φ .out = false) (hringAdv : φ .ringAdv = false) (hqueues : φ .queues =
    false) (e : execPktRegWrite p q seq s = .next t1) :
    Kept φ s0 t1 := by
  unfold execPktRegWrite at e
  injection e with e
  subst e
  with_reducible
    repeat'
      first
      | assumption | (intro _) | apply State.packet_kept | apply State.pktRegWrite_kept | dsimp only

theorem execPktCcLaunch_kept {φ : Part → Bool} {s0 s : State} {t1 : State} (p : Nat) (q : Nat) (seq : Nat) (hk : Kept
    φ s0 s) (hregs : φ .regs = false) (hout : φ .out = false) (hccs : φ .ccs = false) (hqueues : φ .queues = false) (e
    : execPktCcLaunch p q seq s = .next t1) :
    Kept φ s0 t1 := by
  unfold execPktCcLaunch at e
  injection e with e
  subst e
  with_reducible
    repeat'
      first
      | assumption | (intro _) | apply State.pktCcLaunch_kept | dsimp only

theorem execDmaCopyIn_kept {φ : Part → Bool} {s0 s : State} {t1 : State} (e : Nat) (host : HostRead) (errs : List
    ReadErr) (hk : Kept φ s0 s) (hmem : φ .mem = false) (hkeys : φ .keys = false) (hdmas : φ .dmas = false) (hregs : φ
    .regs = false) (hout : φ .out = false) (hpoison : φ .poison = false) (hchannels : φ .channels = false) (hupds : φ
    .upds = false) (hhaltReq : φ .haltReq = false) (e : execDmaCopyIn e host errs s = .next t1) :
    Kept φ s0 t1 := by
  unfold execDmaCopyIn at e
  injection e with e
  subst e
  with_reducible
    repeat'
      first
      | assumption | (intro _) | apply State.copyIn_kept | dsimp only

theorem execDmaCopyOut_kept {φ : Part → Bool} {s0 s : State} {t1 : State} (e : Nat) (errs : List ReadErr) (hk : Kept φ
    s0 s) (hkeys : φ .keys = false) (hdmas : φ .dmas = false) (hregs : φ .regs = false) (hout : φ .out = false)
    (hpoison : φ .poison = false) (hchannels : φ .channels = false) (hupds : φ .upds = false) (hhaltReq : φ .haltReq =
    false) (e : execDmaCopyOut e errs s = .next t1) :
    Kept φ s0 t1 := by
  unfold execDmaCopyOut at e
  injection e with e
  subst e
  with_reducible
    repeat'
      first
      | assumption | (intro _) | apply State.copyOut_kept | dsimp only

theorem execDmaGcmIn_kept {φ : Part → Bool} {s0 s : State} {t1 : State} (e : Nat) (host : HostRead) (errs : List
    ReadErr) (hk : Kept φ s0 s) (hmem : φ .mem = false) (hkeys : φ .keys = false) (hdmas : φ .dmas = false) (hregs : φ
    .regs = false) (hout : φ .out = false) (hpoison : φ .poison = false) (hchannels : φ .channels = false) (hupds : φ
    .upds = false) (hhaltReq : φ .haltReq = false) (e : execDmaGcmIn e host errs s = .next t1) :
    Kept φ s0 t1 := by
  unfold execDmaGcmIn at e
  injection e with e
  subst e
  with_reducible
    repeat'
      first
      | assumption | (intro _) | apply State.gcmIn_kept | dsimp only

theorem execDmaGcmOut_kept {φ : Part → Bool} {s0 s : State} {t1 : State} (e : Nat) (host : HostRead) (errs : List
    ReadErr) (hk : Kept φ s0 s) (hkeys : φ .keys = false) (hdmas : φ .dmas = false) (hregs : φ .regs = false) (hout :
    φ .out = false) (hpoison : φ .poison = false) (hchannels : φ .channels = false) (hupds : φ .upds = false)
    (hhaltReq : φ .haltReq = false) (e : execDmaGcmOut e host errs s = .next t1) :
    Kept φ s0 t1 := by
  unfold execDmaGcmOut at e
  injection e with e
  subst e
  with_reducible
    repeat'
      first
      | assumption | (intro _) | apply State.gcmOut_kept | dsimp only

theorem execDmaXtsIn_kept {φ : Part → Bool} {s0 s : State} {t1 : State} (e : Nat) (host : HostRead) (errs : List
    ReadErr) (hk : Kept φ s0 s) (hmem : φ .mem = false) (hkeys : φ .keys = false) (hdmas : φ .dmas = false) (hregs : φ
    .regs = false) (hout : φ .out = false) (hpoison : φ .poison = false) (hchannels : φ .channels = false) (hupds : φ
    .upds = false) (hhaltReq : φ .haltReq = false) (e : execDmaXtsIn e host errs s = .next t1) :
    Kept φ s0 t1 := by
  unfold execDmaXtsIn at e
  injection e with e
  subst e
  with_reducible
    repeat'
      first
      | assumption | (intro _) | apply State.xtsIn_kept | dsimp only

theorem execDmaXtsOut_kept {φ : Part → Bool} {s0 s : State} {t1 : State} (e : Nat) (errs : List ReadErr) (hk : Kept φ
    s0 s) (hkeys : φ .keys = false) (hdmas : φ .dmas = false) (hregs : φ .regs = false) (hout : φ .out = false)
    (hpoison : φ .poison = false) (hchannels : φ .channels = false) (hupds : φ .upds = false) (hhaltReq : φ .haltReq =
    false) (e : execDmaXtsOut e errs s = .next t1) :
    Kept φ s0 t1 := by
  unfold execDmaXtsOut at e
  injection e with e
  subst e
  with_reducible
    repeat'
      first
      | assumption | (intro _) | apply State.xtsOut_kept | dsimp only

theorem execDmaLakeExport_kept {φ : Part → Bool} {s0 s : State} {t1 : State} (x : LakeExport) (hk : Kept φ s0 s)
    (hdmas : φ .dmas = false) (hregs : φ .regs = false) (hout : φ .out = false) (hchannels : φ .channels = false) (e :
    execDmaLakeExport x s = .next t1) :
    Kept φ s0 t1 := by
  unfold execDmaLakeExport at e
  injection e with e
  subst e
  with_reducible
    repeat'
      first
      | assumption | (intro _) | apply State.lakeExport_kept | dsimp only

theorem execDmaLakeImport_kept {φ : Part → Bool} {s0 s : State} {t1 : State} (e : Nat) (host : HostRead) (hk : Kept φ
    s0 s) (hmem : φ .mem = false) (hdmas : φ .dmas = false) (hregs : φ .regs = false) (hlakes : φ .lakes = false)
    (hpoison : φ .poison = false) (e : execDmaLakeImport e host s = .next t1) :
    Kept φ s0 t1 := by
  unfold execDmaLakeImport at e
  injection e with e
  subst e
  with_reducible
    repeat'
      first
      | assumption | (intro _) | apply State.lakeImport_kept | dsimp only

theorem execDmaDescComplete_kept {φ : Part → Bool} {s0 s : State} {t1 : State} (e : Nat) (hk : Kept φ s0 s) (hdmas : φ
    .dmas = false) (hregs : φ .regs = false) (hout : φ .out = false) (husage : φ .usage = false) (hqueues : φ .queues
    = false) (e : execDmaDescComplete e s = .next t1) :
    Kept φ s0 t1 := by
  unfold execDmaDescComplete at e
  injection e with e
  subst e
  with_reducible
    repeat'
      first
      | assumption | (intro _) | apply State.descDone_kept | dsimp only

theorem execQueueCancel_kept {φ : Part → Bool} {s0 s : State} {t1 : State} (r : RegReq) (p : Nat) (q : Nat) (hk : Kept
    φ s0 s) (hregs : φ .regs = false) (hout : φ .out = false) (hqueues : φ .queues = false) (e : execQueueCancel r p q
    s = .next t1) :
    Kept φ s0 t1 := by
  unfold execQueueCancel at e
  injection e with e
  subst e
  with_reducible
    repeat'
      first
      | assumption | (intro _) | apply State.write_kept | apply State.queueCancel_kept | dsimp only

theorem execContextKill_kept {φ : Part → Bool} {s0 s : State} {t1 : State} (r : RegReq) (p : Nat) (n : Nat) (hk : Kept
    φ s0 s) (hregs : φ .regs = false) (hout : φ .out = false) (hqueues : φ .queues = false) (e : execContextKill r p n
    s = .next t1) :
    Kept φ s0 t1 := by
  unfold execContextKill at e
  injection e with e
  subst e
  with_reducible
    repeat'
      first
      | assumption | (intro _) | apply State.write_kept | apply State.contextKill_kept | dsimp only

theorem execQueueEnable_kept {φ : Part → Bool} {s0 s : State} {t1 : State} (r : RegReq) (p : Nat) (q : Nat) (v : Word)
    (hk : Kept φ s0 s) (hregs : φ .regs = false) (hout : φ .out = false) (hqueues : φ .queues = false) (e :
    execQueueEnable r p q v s = .next t1) :
    Kept φ s0 t1 := by
  unfold execQueueEnable at e
  injection e with e
  subst e
  with_reducible
    repeat'
      first
      | assumption | (intro _) | apply State.write_kept | apply State.queueCfgW_kept | dsimp only

theorem execFenceWrite_kept {φ : Part → Bool} {s0 s : State} {t1 : State} (r : RegReq) (p : Nat) (n : Nat) (v : Word)
    (hk : Kept φ s0 s) (hregs : φ .regs = false) (hout : φ .out = false) (hqueues : φ .queues = false) (e :
    execFenceWrite r p n v s = .next t1) :
    Kept φ s0 t1 := by
  unfold execFenceWrite at e
  injection e with e
  subst e
  with_reducible
    repeat'
      first
      | assumption | (intro _) | apply State.write_kept | apply State.fenceW_kept | dsimp only

theorem execFeedLoss_kept {φ : Part → Bool} {s0 s : State} {t1 : State} (f : Nat) (hk : Kept φ s0 s) (hpower : φ
    .power = false) (hregs : φ .regs = false) (hout : φ .out = false) (e : execFeedLoss f s = .next t1) :
    Kept φ s0 t1 := by
  unfold execFeedLoss at e
  injection e with e
  subst e
  with_reducible
    repeat'
      first
      | assumption | (intro _) | apply State.feedLoss_kept | dsimp only

theorem execFeedOvervoltage_kept {φ : Part → Bool} {s0 s : State} {t1 : State} (f : Nat) (hk : Kept φ s0 s) (hpower :
    φ .power = false) (hregs : φ .regs = false) (hout : φ .out = false) (e : execFeedOvervoltage f s = .next t1) :
    Kept φ s0 t1 := by
  unfold execFeedOvervoltage at e
  injection e with e
  subst e
  with_reducible
    repeat'
      first
      | assumption | (intro _) | apply State.feedOver_kept | dsimp only

theorem execFeedReconnect_kept {φ : Part → Bool} {s0 s : State} {t1 : State} (f : Nat) (hk : Kept φ s0 s) (hregs : φ
    .regs = false) (e : execFeedReconnect f s = .next t1) :
    Kept φ s0 t1 := by
  unfold execFeedReconnect at e
  injection e with e
  subst e
  with_reducible
    repeat'
      first
      | assumption | (intro _) | apply State.fput_kept | dsimp only

theorem execSagWarn_kept {φ : Part → Bool} {s0 s : State} {t1 : State}  (hk : Kept φ s0 s) (hpower : φ .power = false)
    (hregs : φ .regs = false) (hmtr : φ .mtr = false) (hout : φ .out = false) (husage : φ .usage = false) (hupds : φ
    .upds = false) (hevents : φ .events = false) (e : execSagWarn s = .next t1) :
    Kept φ s0 t1 := by
  unfold execSagWarn at e
  injection e with e
  subst e
  with_reducible
    repeat'
      first
      | assumption | (intro _) | apply State.sagWarn_kept | dsimp only

theorem execSagEnd_kept {φ : Part → Bool} {s0 s : State} {t1 : State}  (hk : Kept φ s0 s) (hpower : φ .power = false)
    (hregs : φ .regs = false) (hmtr : φ .mtr = false) (hout : φ .out = false) (husage : φ .usage = false) (hevents : φ
    .events = false) (e : execSagEnd s = .next t1) :
    Kept φ s0 t1 := by
  unfold execSagEnd at e
  injection e with e
  subst e
  with_reducible
    repeat'
      first
      | assumption | (intro _) | apply State.sagEnd_kept | dsimp only

theorem execBrownout_kept {φ : Part → Bool} {s0 s : State} {t1 : State}  (hk : Kept φ s0 s) (hkeys : φ .keys = false)
    (hcores : φ .cores = false) (hfuses : φ .fuses = false) (hpower : φ .power = false) (htray : φ .tray = false)
    (hdmas : φ .dmas = false) (hregs : φ .regs = false) (hports : φ .ports = false) (hlakes : φ .lakes = false) (hmtr
    : φ .mtr = false) (hshadows : φ .shadows = false) (hseqs : φ .seqs = false) (hchannels : φ .channels = false)
    (hkeeper : φ .keeper = false) (husage : φ .usage = false) (htenancies : φ .tenancies = false) (hupds : φ .upds =
    false) (hringAdv : φ .ringAdv = false) (hwins : φ .wins = false) (hccs : φ .ccs = false) (hqueues : φ .queues =
    false) (hevents : φ .events = false) (hbus : φ .bus = false) (htime : φ .time = false) (hhaltReq : φ .haltReq =
    false) (hhalt : φ .halt = false) (hfrozen : φ .frozen = false) (hdumps : φ .dumps = false) (hpcie : φ .pcie =
    false) (e : execBrownout s = .next t1) :
    Kept φ s0 t1 := by
  unfold execBrownout at e
  injection e with e
  subst e
  with_reducible
    repeat'
      first
      | assumption | (intro _) | apply State.reboot_kept | dsimp only | apply kept_mk | apply kept_mk_power

theorem execVbatCheck_kept {φ : Part → Bool} {s0 s : State} {t1 : State} (mv : Nat) (hk : Kept φ s0 s) (hregs : φ
    .regs = false) (hout : φ .out = false) (e : execVbatCheck mv s = .next t1) :
    Kept φ s0 t1 := by
  unfold execVbatCheck at e
  injection e with e
  subst e
  with_reducible
    repeat'
      first
      | assumption | (intro _) | apply State.vbatCheck_kept | dsimp only

theorem execPowerReport_kept {φ : Part → Bool} {s0 s : State} {t1 : State}  (hk : Kept φ s0 s) (hregs : φ .regs =
    false) (e : execPowerReport s = .next t1) :
    Kept φ s0 t1 := by
  unfold execPowerReport at e
  injection e with e
  subst e
  with_reducible
    repeat'
      first
      | assumption | (intro _) | apply State.powerReport_kept | dsimp only

theorem execLimModeWrite_kept {φ : Part → Bool} {s0 s : State} {t1 : State} (r : RegReq) (v : Word) (hk : Kept φ s0 s)
    (hpower : φ .power = false) (hregs : φ .regs = false) (hout : φ .out = false) (hseqs : φ .seqs = false) (e :
    execLimModeWrite r v s = .next t1) :
    Kept φ s0 t1 := by
  unfold execLimModeWrite at e
  injection e with e
  subst e
  with_reducible
    repeat'
      first
      | assumption | (intro _) | apply State.write_kept | apply State.limCtrlW_kept | dsimp only

theorem execLimModeLock_kept {φ : Part → Bool} {s0 s : State} {t1 : State} (r : RegReq) (v : Word) (hk : Kept φ s0 s)
    (hpower : φ .power = false) (hregs : φ .regs = false) (hout : φ .out = false) (hseqs : φ .seqs = false) (e :
    execLimModeLock r v s = .next t1) :
    Kept φ s0 t1 := by
  unfold execLimModeLock at e
  injection e with e
  subst e
  with_reducible
    repeat'
      first
      | assumption | (intro _) | apply State.write_kept | apply State.limCtrlW_kept | dsimp only

theorem execFixedFreqWrite_kept {φ : Part → Bool} {s0 s : State} {t1 : State} (r : RegReq) (v : Word) (hk : Kept φ s0
    s) (hpower : φ .power = false) (hregs : φ .regs = false) (hout : φ .out = false) (hseqs : φ .seqs = false) (e :
    execFixedFreqWrite r v s = .next t1) :
    Kept φ s0 t1 := by
  unfold execFixedFreqWrite at e
  injection e with e
  subst e
  with_reducible
    repeat'
      first
      | assumption | (intro _) | apply State.write_kept | apply State.limCtrlW_kept | dsimp only

theorem execPwrCapWrite_kept {φ : Part → Bool} {s0 s : State} {t1 : State} (r : RegReq) (v : Word) (hk : Kept φ s0 s)
    (hregs : φ .regs = false) (hout : φ .out = false) (e : execPwrCapWrite r v s = .next t1) :
    Kept φ s0 t1 := by
  unfold execPwrCapWrite at e
  injection e with e
  subst e
  with_reducible
    repeat'
      first
      | assumption | (intro _) | apply State.write_kept | apply State.capW_kept | dsimp only

theorem execPowerOn_kept {φ : Part → Bool} {s0 s : State} {t1 : State} (ms : Nat) (hk : Kept φ s0 s) (hkeys : φ .keys
    = false) (hcores : φ .cores = false) (hfuses : φ .fuses = false) (hpower : φ .power = false) (htray : φ .tray =
    false) (hdmas : φ .dmas = false) (hregs : φ .regs = false) (hports : φ .ports = false) (hlakes : φ .lakes = false)
    (hmtr : φ .mtr = false) (hshadows : φ .shadows = false) (hseqs : φ .seqs = false) (hchannels : φ .channels =
    false) (hkeeper : φ .keeper = false) (husage : φ .usage = false) (htenancies : φ .tenancies = false) (hupds : φ
    .upds = false) (hringAdv : φ .ringAdv = false) (hwins : φ .wins = false) (hccs : φ .ccs = false) (hqueues : φ
    .queues = false) (hevents : φ .events = false) (hbus : φ .bus = false) (htime : φ .time = false) (hhaltReq : φ
    .haltReq = false) (hhalt : φ .halt = false) (hfrozen : φ .frozen = false) (hdumps : φ .dumps = false) (hpcie : φ
    .pcie = false) (e : execPowerOn ms s = .next t1) :
    Kept φ s0 t1 := by
  unfold execPowerOn at e
  injection e with e
  subst e
  with_reducible
    repeat'
      first
      | assumption | (intro _) | apply State.powerOn_kept | dsimp only

theorem execPerstAssert_kept {φ : Part → Bool} {s0 s : State} {t1 : State}  (hk : Kept φ s0 s) (hkeys : φ .keys =
    false) (hcores : φ .cores = false) (hfuses : φ .fuses = false) (hpower : φ .power = false) (htray : φ .tray =
    false) (hdmas : φ .dmas = false) (hregs : φ .regs = false) (hports : φ .ports = false) (hlakes : φ .lakes = false)
    (hmtr : φ .mtr = false) (hshadows : φ .shadows = false) (hseqs : φ .seqs = false) (hchannels : φ .channels =
    false) (hkeeper : φ .keeper = false) (husage : φ .usage = false) (htenancies : φ .tenancies = false) (hupds : φ
    .upds = false) (hringAdv : φ .ringAdv = false) (hwins : φ .wins = false) (hccs : φ .ccs = false) (hqueues : φ
    .queues = false) (hevents : φ .events = false) (hbus : φ .bus = false) (htime : φ .time = false) (hhaltReq : φ
    .haltReq = false) (hhalt : φ .halt = false) (hfrozen : φ .frozen = false) (hdumps : φ .dumps = false) (hpcie : φ
    .pcie = false) (e : execPerstAssert s = .next t1) :
    Kept φ s0 t1 := by
  unfold execPerstAssert at e
  injection e with e
  subst e
  with_reducible
    repeat'
      first
      | assumption | (intro _) | apply State.reboot_kept | dsimp only | apply kept_mk | apply kept_mk_power

theorem execHotReset_kept {φ : Part → Bool} {s0 s : State} {t1 : State}  (hk : Kept φ s0 s) (hkeys : φ .keys = false)
    (hcores : φ .cores = false) (hfuses : φ .fuses = false) (hpower : φ .power = false) (htray : φ .tray = false)
    (hdmas : φ .dmas = false) (hregs : φ .regs = false) (hports : φ .ports = false) (hlakes : φ .lakes = false) (hmtr
    : φ .mtr = false) (hshadows : φ .shadows = false) (hseqs : φ .seqs = false) (hchannels : φ .channels = false)
    (hkeeper : φ .keeper = false) (husage : φ .usage = false) (htenancies : φ .tenancies = false) (hupds : φ .upds =
    false) (hringAdv : φ .ringAdv = false) (hwins : φ .wins = false) (hccs : φ .ccs = false) (hqueues : φ .queues =
    false) (hevents : φ .events = false) (hbus : φ .bus = false) (htime : φ .time = false) (hhaltReq : φ .haltReq =
    false) (hhalt : φ .halt = false) (hfrozen : φ .frozen = false) (hdumps : φ .dumps = false) (hpcie : φ .pcie =
    false) (e : execHotReset s = .next t1) :
    Kept φ s0 t1 := by
  unfold execHotReset at e
  injection e with e
  subst e
  with_reducible
    repeat'
      first
      | assumption | (intro _) | apply State.reboot_kept | dsimp only

theorem execWarmResetCmd_kept {φ : Part → Bool} {s0 s : State} {t1 : State} (r : RegReq) (v : Word) (hk : Kept φ s0 s)
    (hkeys : φ .keys = false) (hcores : φ .cores = false) (hfuses : φ .fuses = false) (hpower : φ .power = false)
    (htray : φ .tray = false) (hdmas : φ .dmas = false) (hregs : φ .regs = false) (hports : φ .ports = false) (hlakes
    : φ .lakes = false) (hmtr : φ .mtr = false) (hshadows : φ .shadows = false) (hout : φ .out = false) (hseqs : φ
    .seqs = false) (hchannels : φ .channels = false) (hkeeper : φ .keeper = false) (husage : φ .usage = false)
    (htenancies : φ .tenancies = false) (hupds : φ .upds = false) (hringAdv : φ .ringAdv = false) (hwins : φ .wins =
    false) (hccs : φ .ccs = false) (hqueues : φ .queues = false) (hevents : φ .events = false) (hbus : φ .bus = false)
    (htime : φ .time = false) (hhaltReq : φ .haltReq = false) (hhalt : φ .halt = false) (hfrozen : φ .frozen = false)
    (hdumps : φ .dumps = false) (hpcie : φ .pcie = false) (e : execWarmResetCmd r v s = .next t1) :
    Kept φ s0 t1 := by
  unfold execWarmResetCmd at e
  injection e with e
  subst e
  with_reducible
    repeat'
      first
      | assumption | (intro _) | apply State.write_kept | apply State.rstCtrlW_kept | dsimp only

theorem execMaintResetCmd_kept {φ : Part → Bool} {s0 s : State} {t1 : State} (r : RegReq) (v : Word) (hk : Kept φ s0
    s) (hkeys : φ .keys = false) (hcores : φ .cores = false) (hfuses : φ .fuses = false) (hpower : φ .power = false)
    (htray : φ .tray = false) (hdmas : φ .dmas = false) (hregs : φ .regs = false) (hports : φ .ports = false) (hlakes
    : φ .lakes = false) (hmtr : φ .mtr = false) (hshadows : φ .shadows = false) (hout : φ .out = false) (hseqs : φ
    .seqs = false) (hchannels : φ .channels = false) (hkeeper : φ .keeper = false) (husage : φ .usage = false)
    (htenancies : φ .tenancies = false) (hupds : φ .upds = false) (hringAdv : φ .ringAdv = false) (hwins : φ .wins =
    false) (hccs : φ .ccs = false) (hqueues : φ .queues = false) (hevents : φ .events = false) (hbus : φ .bus = false)
    (htime : φ .time = false) (hhaltReq : φ .haltReq = false) (hhalt : φ .halt = false) (hfrozen : φ .frozen = false)
    (hdumps : φ .dumps = false) (hpcie : φ .pcie = false) (e : execMaintResetCmd r v s = .next t1) :
    Kept φ s0 t1 := by
  unfold execMaintResetCmd at e
  injection e with e
  subst e
  with_reducible
    repeat'
      first
      | assumption | (intro _) | apply State.write_kept | apply State.rstCtrlW_kept | dsimp only

theorem execKeeperWatchdog_kept {φ : Part → Bool} {s0 s : State} {t1 : State}  (hk : Kept φ s0 s) (hkeys : φ .keys =
    false) (hcores : φ .cores = false) (hfuses : φ .fuses = false) (hpower : φ .power = false) (htray : φ .tray =
    false) (hdmas : φ .dmas = false) (hregs : φ .regs = false) (hports : φ .ports = false) (hlakes : φ .lakes = false)
    (hmtr : φ .mtr = false) (hshadows : φ .shadows = false) (hseqs : φ .seqs = false) (hchannels : φ .channels =
    false) (hkeeper : φ .keeper = false) (husage : φ .usage = false) (htenancies : φ .tenancies = false) (hupds : φ
    .upds = false) (hringAdv : φ .ringAdv = false) (hwins : φ .wins = false) (hccs : φ .ccs = false) (hqueues : φ
    .queues = false) (hevents : φ .events = false) (hbus : φ .bus = false) (htime : φ .time = false) (hhaltReq : φ
    .haltReq = false) (hhalt : φ .halt = false) (hfrozen : φ .frozen = false) (hdumps : φ .dumps = false) (hpcie : φ
    .pcie = false) (e : execKeeperWatchdog s = .next t1) :
    Kept φ s0 t1 := by
  unfold execKeeperWatchdog at e
  injection e with e
  subst e
  with_reducible
    repeat'
      first
      | assumption | (intro _) | apply kept_ite | apply State.reboot_kept | split | dsimp only

theorem execWipeDone_kept {φ : Part → Bool} {s0 s : State} {t1 : State} (failed : ResetFailures) (auth : Bool) (hk :
    Kept φ s0 s) (hmem : φ .mem = false) (hkeys : φ .keys = false) (hcores : φ .cores = false) (hcoreMap : φ .coreMap
    = false) (hpower : φ .power = false) (hregs : φ .regs = false) (hout : φ .out = false) (hpoison : φ .poison =
    false) (hchannels : φ .channels = false) (hkeeper : φ .keeper = false) (e : execWipeDone failed auth s = .next t1)
    :
    Kept φ s0 t1 := by
  unfold execWipeDone at e
  injection e with e
  subst e
  with_reducible
    repeat'
      first
      | assumption | (intro _) | apply State.wipeDone_kept | dsimp only

theorem execBootReady_kept {φ : Part → Bool} {s0 s : State} {t1 : State}  (hk : Kept φ s0 s) (hkeys : φ .keys = false)
    (hcoreMap : φ .coreMap = false) (hflash : φ .flash = false) (hpower : φ .power = false) (hregs : φ .regs = false)
    (hmtr : φ .mtr = false) (hout : φ .out = false) (hkeeper : φ .keeper = false) (husage : φ .usage = false) (hevents
    : φ .events = false) (e : execBootReady s = .next t1) :
    Kept φ s0 t1 := by
  unfold execBootReady at e
  injection e with e
  subst e
  with_reducible
    repeat'
      first
      | assumption | (intro _) | apply State.bootReady_kept | dsimp only

theorem execPcieConfigRequest_kept {φ : Part → Bool} {s0 s : State} {t1 : State} (fn : Nat) (kind : Nat) (v : Nat) (hk
    : Kept φ s0 s) (hkeys : φ .keys = false) (hcores : φ .cores = false) (hdmas : φ .dmas = false) (hregs : φ .regs =
    false) (hports : φ .ports = false) (hlakes : φ .lakes = false) (hout : φ .out = false) (hseqs : φ .seqs = false)
    (hkeeper : φ .keeper = false) (husage : φ .usage = false) (htenancies : φ .tenancies = false) (hwins : φ .wins =
    false) (hccs : φ .ccs = false) (hqueues : φ .queues = false) (hfrozen : φ .frozen = false) (hdumps : φ .dumps =
    false) (hpcie : φ .pcie = false) (e : execPcieConfigRequest fn kind v s = .next t1) :
    Kept φ s0 t1 := by
  unfold execPcieConfigRequest at e
  injection e with e
  subst e
  with_reducible
    repeat'
      first
      | assumption | (intro _) | apply State.configReq_kept | dsimp only

theorem execPldmFwUpdate_kept {φ : Part → Bool} {s0 s : State} {t1 : State} (a : Nat) (t : Nat) (file : List Byte) (hk
    : Kept φ s0 s) (hflash : φ .flash = false) (hregs : φ .regs = false) (hout : φ .out = false) (e : execPldmFwUpdate
    a t file s = .next t1) :
    Kept φ s0 t1 := by
  unfold execPldmFwUpdate at e
  injection e with e
  subst e
  with_reducible
    repeat'
      first
      | assumption | (intro _) | apply State.fwUpdate_kept | dsimp only

theorem execActivateFirmware_kept {φ : Part → Bool} {s0 s : State} {t1 : State} (a : Nat) (hk : Kept φ s0 s) (hout : φ
    .out = false) (e : execActivateFirmware a s = .next t1) :
    Kept φ s0 t1 := by
  unfold execActivateFirmware at e
  injection e with e
  subst e
  with_reducible
    repeat'
      first
      | assumption | (intro _) | apply State.emit_kept | apply State.updates_kept | dsimp only

theorem execLifecycleTransition_kept {φ : Part → Bool} {s0 s : State} {t1 : State} (r : RegReq) (v : Word) (hk : Kept
    φ s0 s) (hfuses : φ .fuses = false) (hregs : φ .regs = false) (hout : φ .out = false) (e : execLifecycleTransition
    r v s = .next t1) :
    Kept φ s0 t1 := by
  unfold execLifecycleTransition at e
  injection e with e
  subst e
  with_reducible
    repeat'
      first
      | assumption | (intro _) | apply State.write_kept | apply State.lcsTransW_kept | dsimp only

theorem execFuseProgramComplete_kept {φ : Part → Bool} {s0 s : State} {t1 : State}  (hk : Kept φ s0 s) (hkeys : φ
    .keys = false) (hcores : φ .cores = false) (hfuses : φ .fuses = false) (hpower : φ .power = false) (htray : φ
    .tray = false) (hdmas : φ .dmas = false) (hregs : φ .regs = false) (hports : φ .ports = false) (hlakes : φ .lakes
    = false) (hmtr : φ .mtr = false) (hshadows : φ .shadows = false) (hseqs : φ .seqs = false) (hchannels : φ
    .channels = false) (hkeeper : φ .keeper = false) (husage : φ .usage = false) (htenancies : φ .tenancies = false)
    (hupds : φ .upds = false) (hringAdv : φ .ringAdv = false) (hwins : φ .wins = false) (hccs : φ .ccs = false)
    (hqueues : φ .queues = false) (hevents : φ .events = false) (hbus : φ .bus = false) (htime : φ .time = false)
    (hhaltReq : φ .haltReq = false) (hhalt : φ .halt = false) (hfrozen : φ .frozen = false) (hdumps : φ .dumps =
    false) (hpcie : φ .pcie = false) (e : execFuseProgramComplete s = .next t1) :
    Kept φ s0 t1 := by
  unfold execFuseProgramComplete at e
  injection e with e
  subst e
  with_reducible
    repeat'
      first
      | assumption | (intro _) | apply State.fuseDone_kept | dsimp only

theorem execDebugLevelWrite_kept {φ : Part → Bool} {s0 s : State} {t1 : State} (r : RegReq) (v : Word) (hk : Kept φ s0
    s) (hkeys : φ .keys = false) (hcores : φ .cores = false) (hfuses : φ .fuses = false) (hpower : φ .power = false)
    (htray : φ .tray = false) (hdmas : φ .dmas = false) (hregs : φ .regs = false) (hports : φ .ports = false) (hlakes
    : φ .lakes = false) (hmtr : φ .mtr = false) (hshadows : φ .shadows = false) (hout : φ .out = false) (hseqs : φ
    .seqs = false) (hchannels : φ .channels = false) (hkeeper : φ .keeper = false) (husage : φ .usage = false)
    (htenancies : φ .tenancies = false) (hupds : φ .upds = false) (hringAdv : φ .ringAdv = false) (hwins : φ .wins =
    false) (hccs : φ .ccs = false) (hqueues : φ .queues = false) (hevents : φ .events = false) (hbus : φ .bus = false)
    (htime : φ .time = false) (hhaltReq : φ .haltReq = false) (hhalt : φ .halt = false) (hfrozen : φ .frozen = false)
    (hdumps : φ .dumps = false) (hpcie : φ .pcie = false) (e : execDebugLevelWrite r v s = .next t1) :
    Kept φ s0 t1 := by
  unfold execDebugLevelWrite at e
  injection e with e
  subst e
  with_reducible
    repeat'
      first
      | assumption | (intro _) | apply State.write_kept | apply State.lcsDebugW_kept | dsimp only

theorem execChallengeGen_kept {φ : Part → Bool} {s0 s : State} {t1 : State} (r : RegReq) (v : Word) (hk : Kept φ s0 s)
    (hkeys : φ .keys = false) (hcores : φ .cores = false) (hfuses : φ .fuses = false) (hpower : φ .power = false)
    (htray : φ .tray = false) (hdmas : φ .dmas = false) (hregs : φ .regs = false) (hports : φ .ports = false) (hlakes
    : φ .lakes = false) (hmtr : φ .mtr = false) (hshadows : φ .shadows = false) (hout : φ .out = false) (hseqs : φ
    .seqs = false) (hchannels : φ .channels = false) (hkeeper : φ .keeper = false) (husage : φ .usage = false)
    (htenancies : φ .tenancies = false) (hupds : φ .upds = false) (hringAdv : φ .ringAdv = false) (hwins : φ .wins =
    false) (hccs : φ .ccs = false) (hqueues : φ .queues = false) (hevents : φ .events = false) (hbus : φ .bus = false)
    (htime : φ .time = false) (hhaltReq : φ .haltReq = false) (hhalt : φ .halt = false) (hfrozen : φ .frozen = false)
    (hdumps : φ .dumps = false) (hpcie : φ .pcie = false) (e : execChallengeGen r v s = .next t1) :
    Kept φ s0 t1 := by
  unfold execChallengeGen at e
  injection e with e
  subst e
  with_reducible
    repeat'
      first
      | assumption | (intro _) | apply State.write_kept | apply State.chalCtrlW_kept | dsimp only

theorem execResponseSubmit_kept {φ : Part → Bool} {s0 s : State} {t1 : State} (r : RegReq) (v : Word) (hk : Kept φ s0
    s) (hkeys : φ .keys = false) (hcores : φ .cores = false) (hfuses : φ .fuses = false) (hpower : φ .power = false)
    (htray : φ .tray = false) (hdmas : φ .dmas = false) (hregs : φ .regs = false) (hports : φ .ports = false) (hlakes
    : φ .lakes = false) (hmtr : φ .mtr = false) (hshadows : φ .shadows = false) (hout : φ .out = false) (hseqs : φ
    .seqs = false) (hchannels : φ .channels = false) (hkeeper : φ .keeper = false) (husage : φ .usage = false)
    (htenancies : φ .tenancies = false) (hupds : φ .upds = false) (hringAdv : φ .ringAdv = false) (hwins : φ .wins =
    false) (hccs : φ .ccs = false) (hqueues : φ .queues = false) (hevents : φ .events = false) (hbus : φ .bus = false)
    (htime : φ .time = false) (hhaltReq : φ .haltReq = false) (hhalt : φ .halt = false) (hfrozen : φ .frozen = false)
    (hdumps : φ .dumps = false) (hpcie : φ .pcie = false) (e : execResponseSubmit r v s = .next t1) :
    Kept φ s0 t1 := by
  unfold execResponseSubmit at e
  injection e with e
  subst e
  with_reducible
    repeat'
      first
      | assumption | (intro _) | apply State.write_kept | apply State.chalCtrlW_kept | dsimp only

theorem execChallengeExpire_kept {φ : Part → Bool} {s0 s : State} {t1 : State}  (hk : Kept φ s0 s) (hfuses : φ .fuses
    = false) (hregs : φ .regs = false) (e : execChallengeExpire s = .next t1) :
    Kept φ s0 t1 := by
  unfold execChallengeExpire at e
  injection e with e
  subst e
  with_reducible
    repeat'
      first
      | assumption | (intro _) | apply kept_ite | apply State.endChallenge_kept | split | dsimp only

theorem execGenLockoutEnd_kept {φ : Part → Bool} {s0 s : State} {t1 : State}  (hk : Kept φ s0 s) (hfuses : φ .fuses =
    false) (e : execGenLockoutEnd s = .next t1) :
    Kept φ s0 t1 := by
  unfold execGenLockoutEnd at e
  injection e with e
  subst e
  with_reducible
    repeat'
      first
      | assumption | (intro _) | apply kept_ite | split | dsimp only | apply kept_mk_op | apply kept_mk_code
      | apply kept_mk

theorem execSyncFrame_kept {φ : Part → Bool} {s0 s : State} {t1 : State} (b : List Byte) (hk : Kept φ s0 s) (htray : φ
    .tray = false) (hregs : φ .regs = false) (hout : φ .out = false) (hevents : φ .events = false) (htime : φ .time =
    false) (hhaltReq : φ .haltReq = false) (e : execSyncFrame b s = .next t1) :
    Kept φ s0 t1 := by
  unfold execSyncFrame at e
  injection e with e
  subst e
  with_reducible
    repeat'
      first
      | assumption | (intro _) | apply State.syncFrame_kept | dsimp only

theorem execModuleFrame_kept {φ : Part → Bool} {s0 s : State} {t1 : State} (k : Nat) (b : List Byte) (d : Int) (hk :
    Kept φ s0 s) (htray : φ .tray = false) (hregs : φ .regs = false) (hout : φ .out = false) (e : execModuleFrame k b
    d s = .next t1) :
    Kept φ s0 t1 := by
  unfold execModuleFrame at e
  injection e with e
  subst e
  with_reducible
    repeat'
      first
      | assumption | (intro _) | apply State.moduleFrame_kept | dsimp only

theorem execModuleFrameTransmit_kept {φ : Part → Bool} {s0 s : State} {t1 : State} (echo : Option (List Byte)) (alien
    : Option (List Byte)) (hk : Kept φ s0 s) (hkeys : φ .keys = false) (htray : φ .tray = false) (hregs : φ .regs =
    false) (hports : φ .ports = false) (hlakes : φ .lakes = false) (hout : φ .out = false) (husage : φ .usage = false)
    (hwins : φ .wins = false) (hevents : φ .events = false) (e : execModuleFrameTransmit echo alien s = .next t1) :
    Kept φ s0 t1 := by
  unfold execModuleFrameTransmit at e
  injection e with e
  subst e
  with_reducible
    repeat'
      first
      | assumption | (intro _) | apply State.transmit_kept | dsimp only

theorem execSyncLoss_kept {φ : Part → Bool} {s0 s : State} {t1 : State}  (hk : Kept φ s0 s) (hregs : φ .regs = false)
    (hout : φ .out = false) (e : execSyncLoss s = .next t1) :
    Kept φ s0 t1 := by
  unfold execSyncLoss at e
  injection e with e
  subst e
  with_reducible
    repeat'
      first
      | assumption | (intro _) | apply State.syncLoss_kept | dsimp only

theorem execResyncAligned_kept {φ : Part → Bool} {s0 s : State} {t1 : State}  (hk : Kept φ s0 s) (htray : φ .tray =
    false) (e : execResyncAligned s = .next t1) :
    Kept φ s0 t1 := by
  unfold execResyncAligned at e
  injection e with e
  subst e
  with_reducible
    repeat'
      first
      | assumption | (intro _) | apply State.aligned_kept | dsimp only

theorem execTbResyncCmd_kept {φ : Part → Bool} {s0 s : State} {t1 : State} (r : RegReq) (v : Word) (hk : Kept φ s0 s)
    (htray : φ .tray = false) (hregs : φ .regs = false) (hout : φ .out = false) (e : execTbResyncCmd r v s = .next t1)
    :
    Kept φ s0 t1 := by
  unfold execTbResyncCmd at e
  injection e with e
  subst e
  with_reducible
    repeat'
      first
      | assumption | (intro _) | apply State.write_kept | apply State.trayCtrlW_kept | dsimp only

theorem execHbKick_kept {φ : Part → Bool} {s0 s : State} {t1 : State} (r : RegReq) (hk : Kept φ s0 s) (htray : φ .tray
    = false) (hout : φ .out = false) (e : execHbKick r s = .next t1) :
    Kept φ s0 t1 := by
  unfold execHbKick at e
  injection e with e
  subst e
  with_reducible
    repeat'
      first
      | assumption | (intro _) | apply State.write_kept | apply State.kick_kept | dsimp only

theorem execHbKickTimeout_kept {φ : Part → Bool} {s0 s : State} {t1 : State}  (hk : Kept φ s0 s) (htray : φ .tray =
    false) (e : execHbKickTimeout s = .next t1) :
    Kept φ s0 t1 := by
  unfold execHbKickTimeout at e
  injection e with e
  subst e
  with_reducible
    repeat'
      first
      | assumption | (intro _) | apply State.kickTimeout_kept | dsimp only

theorem execTimeOffsetWrite_kept {φ : Part → Bool} {s0 s : State} {t1 : State} (r : RegReq) (v : Word) (hk : Kept φ s0
    s) (hregs : φ .regs = false) (hout : φ .out = false) (htime : φ .time = false) (e : execTimeOffsetWrite r v s =
    .next t1) :
    Kept φ s0 t1 := by
  unfold execTimeOffsetWrite at e
  injection e with e
  subst e
  with_reducible
    repeat'
      first
      | assumption | (intro _) | apply State.write_kept | apply State.timeOfsW_kept | dsimp only

theorem execTimeProbe_kept {φ : Part → Bool} {s0 s : State} {t1 : State} (r : RegReq) (v : Word) (hk : Kept φ s0 s)
    (htray : φ .tray = false) (hregs : φ .regs = false) (hports : φ .ports = false) (hout : φ .out = false) (e :
    execTimeProbe r v s = .next t1) :
    Kept φ s0 t1 := by
  unfold execTimeProbe at e
  injection e with e
  subst e
  with_reducible
    repeat'
      first
      | assumption | (intro _) | apply State.write_kept | apply State.probeW_kept | dsimp only

theorem execTimeProbeReceived_kept {φ : Part → Bool} {s0 s : State} {t1 : State} (n : Nat) (hk : Kept φ s0 s) (hports
    : φ .ports = false) (e : execTimeProbeReceived n s = .next t1) :
    Kept φ s0 t1 := by
  unfold execTimeProbeReceived at e
  injection e with e
  subst e
  with_reducible
    repeat'
      first
      | assumption | (intro _) | apply State.probeIn_kept | dsimp only

theorem execTimeReply_kept {φ : Part → Bool} {s0 s : State} {t1 : State} (n : Nat) (t2 : Nat) (t3 : Nat) (replayed :
    Bool) (hk : Kept φ s0 s) (htray : φ .tray = false) (hregs : φ .regs = false) (hout : φ .out = false) (e :
    execTimeReply n t2 t3 replayed s = .next t1) :
    Kept φ s0 t1 := by
  unfold execTimeReply at e
  injection e with e
  subst e
  with_reducible
    repeat'
      first
      | assumption | (intro _) | apply State.probeReply_kept | dsimp only

theorem execTimeProbeTimeout_kept {φ : Part → Bool} {s0 s : State} {t1 : State}  (hk : Kept φ s0 s) (htray : φ .tray =
    false) (hregs : φ .regs = false) (hout : φ .out = false) (e : execTimeProbeTimeout s = .next t1) :
    Kept φ s0 t1 := by
  unfold execTimeProbeTimeout at e
  injection e with e
  subst e
  with_reducible
    repeat'
      first
      | assumption | (intro _) | apply State.probeTimeout_kept | dsimp only

theorem execEntdaa_kept {φ : Part → Bool} {s0 s : State} {t1 : State} (a : Nat) (hk : Kept φ s0 s) (hbus : φ .bus =
    false) (e : execEntdaa a s = .next t1) :
    Kept φ s0 t1 := by
  unfold execEntdaa at e
  injection e with e
  subst e
  with_reducible
    repeat'
      first
      | assumption | (intro _) | dsimp only | apply kept_mk | apply kept_mk_bus

theorem execSetdasa_kept {φ : Part → Bool} {s0 s : State} {t1 : State} (st : Nat) (a : Nat) (hk : Kept φ s0 s) (hbus :
    φ .bus = false) (e : execSetdasa st a s = .next t1) :
    Kept φ s0 t1 := by
  unfold execSetdasa at e
  injection e with e
  subst e
  with_reducible
    repeat'
      first
      | assumption | (intro _) | apply kept_ite | split | dsimp only | apply kept_mk | apply kept_mk_bus

theorem execGetSensorReading_kept {φ : Part → Bool} {s0 s : State} {t1 : State} (a : Nat) (id : Nat) (hk : Kept φ s0
    s) (hout : φ .out = false) (e : execGetSensorReading a id s = .next t1) :
    Kept φ s0 t1 := by
  unfold execGetSensorReading at e
  injection e with e
  subst e
  with_reducible
    repeat'
      first
      | assumption | (intro _) | apply State.sensorGet_kept | dsimp only

theorem execSetEventReceiver_kept {φ : Part → Bool} {s0 s : State} {t1 : State} (a : Nat) (rcv : Nat) (hk : Kept φ s0
    s) (hout : φ .out = false) (hbus : φ .bus = false) (e : execSetEventReceiver a rcv s = .next t1) :
    Kept φ s0 t1 := by
  unfold execSetEventReceiver at e
  injection e with e
  subst e
  with_reducible
    repeat'
      first
      | assumption | (intro _) | apply State.setReceiver_kept | dsimp only

theorem execPollForPlatformEvent_kept {φ : Part → Bool} {s0 s : State} {t1 : State} (a : Nat) (hk : Kept φ s0 s) (hout
    : φ .out = false) (e : execPollForPlatformEvent a s = .next t1) :
    Kept φ s0 t1 := by
  unfold execPollForPlatformEvent at e
  injection e with e
  subst e
  with_reducible
    repeat'
      first
      | assumption | (intro _) | apply State.pollEvent_kept | dsimp only

theorem execMeterCloseSchedule_kept {φ : Part → Bool} {s0 s : State} {t1 : State}  (hk : Kept φ s0 s) (hregs : φ .regs
    = false) (hmtr : φ .mtr = false) (hout : φ .out = false) (husage : φ .usage = false) (hevents : φ .events = false)
    (e : execMeterCloseSchedule s = .next t1) :
    Kept φ s0 t1 := by
  unfold execMeterCloseSchedule at e
  injection e with e
  subst e
  with_reducible
    repeat'
      first
      | assumption | (intro _) | apply State.scheduleClose_kept | dsimp only

theorem execMeterCloseOperator_kept {φ : Part → Bool} {s0 s : State} {t1 : State} (r : RegReq) (v : Word) (hk : Kept φ
    s0 s) (hregs : φ .regs = false) (hmtr : φ .mtr = false) (hout : φ .out = false) (husage : φ .usage = false)
    (hevents : φ .events = false) (e : execMeterCloseOperator r v s = .next t1) :
    Kept φ s0 t1 := by
  unfold execMeterCloseOperator at e
  injection e with e
  subst e
  with_reducible
    repeat'
      first
      | assumption | (intro _) | apply State.write_kept | apply State.mtrCtrlW_kept | dsimp only

theorem execRecordSeal_kept {φ : Part → Bool} {s0 s : State} {t1 : State}  (hk : Kept φ s0 s) (hregs : φ .regs =
    false) (hmtr : φ .mtr = false) (hout : φ .out = false) (e : execRecordSeal s = .next t1) :
    Kept φ s0 t1 := by
  unfold execRecordSeal at e
  injection e with e
  subst e
  with_reducible
    repeat'
      first
      | assumption | (intro _) | apply State.recordSeal_kept | dsimp only

theorem execRtcSet_kept {φ : Part → Bool} {s0 s : State} {t1 : State} (r : RegReq) (v : Word) (hk : Kept φ s0 s)
    (hregs : φ .regs = false) (hmtr : φ .mtr = false) (hout : φ .out = false) (husage : φ .usage = false) (hevents : φ
    .events = false) (e : execRtcSet r v s = .next t1) :
    Kept φ s0 t1 := by
  unfold execRtcSet at e
  injection e with e
  subst e
  with_reducible
    repeat'
      first
      | assumption | (intro _) | apply State.write_kept | apply State.rtcSet_kept | dsimp only

theorem execCounterConfigWrite_kept {φ : Part → Bool} {s0 s : State} {t1 : State} (r : RegReq) (p : Nat) (k : Nat) (v
    : Word) (hk : Kept φ s0 s) (hregs : φ .regs = false) (hout : φ .out = false) (e : execCounterConfigWrite r p k v s
    = .next t1) :
    Kept φ s0 t1 := by
  unfold execCounterConfigWrite at e
  injection e with e
  subst e
  with_reducible
    repeat'
      first
      | assumption | (intro _) | apply State.regWrite_kept | apply State.write_kept | dsimp only

theorem execCounterClear_kept {φ : Part → Bool} {s0 s : State} {t1 : State} (r : RegReq) (p : Nat) (v : Word) (hk :
    Kept φ s0 s) (hregs : φ .regs = false) (hout : φ .out = false) (husage : φ .usage = false) (e : execCounterClear r
    p v s = .next t1) :
    Kept φ s0 t1 := by
  unfold execCounterClear at e
  injection e with e
  subst e
  with_reducible
    repeat'
      first
      | assumption | (intro _) | apply State.write_kept | apply State.cntCtrlW_kept | dsimp only

theorem execDeviceFreeze_kept {φ : Part → Bool} {s0 s : State} {t1 : State} (r : RegReq) (v : Word) (hk : Kept φ s0 s)
    (hregs : φ .regs = false) (hout : φ .out = false) (hfrozen : φ .frozen = false) (e : execDeviceFreeze r v s =
    .next t1) :
    Kept φ s0 t1 := by
  unfold execDeviceFreeze at e
  injection e with e
  subst e
  with_reducible
    repeat'
      first
      | assumption | (intro _) | apply State.write_kept | apply State.sepiaCtrlW_kept | dsimp only

theorem execDeviceThaw_kept {φ : Part → Bool} {s0 s : State} {t1 : State} (r : RegReq) (v : Word) (hk : Kept φ s0 s)
    (hregs : φ .regs = false) (hout : φ .out = false) (hfrozen : φ .frozen = false) (e : execDeviceThaw r v s = .next
    t1) :
    Kept φ s0 t1 := by
  unfold execDeviceThaw at e
  injection e with e
  subst e
  with_reducible
    repeat'
      first
      | assumption | (intro _) | apply State.write_kept | apply State.sepiaCtrlW_kept | dsimp only

theorem execPartitionFreeze_kept {φ : Part → Bool} {s0 s : State} {t1 : State} (r : RegReq) (p : Nat) (v : Word) (hk :
    Kept φ s0 s) (hregs : φ .regs = false) (hout : φ .out = false) (hfrozen : φ .frozen = false) (e :
    execPartitionFreeze r p v s = .next t1) :
    Kept φ s0 t1 := by
  unfold execPartitionFreeze at e
  injection e with e
  subst e
  with_reducible
    repeat'
      first
      | assumption | (intro _) | apply State.write_kept | apply State.partSepiaW_kept | dsimp only

theorem execPartitionThaw_kept {φ : Part → Bool} {s0 s : State} {t1 : State} (r : RegReq) (p : Nat) (v : Word) (hk :
    Kept φ s0 s) (hregs : φ .regs = false) (hout : φ .out = false) (hfrozen : φ .frozen = false) (e :
    execPartitionThaw r p v s = .next t1) :
    Kept φ s0 t1 := by
  unfold execPartitionThaw at e
  injection e with e
  subst e
  with_reducible
    repeat'
      first
      | assumption | (intro _) | apply State.write_kept | apply State.partSepiaW_kept | dsimp only

theorem execOperatorDump_kept {φ : Part → Bool} {s0 s : State} {t1 : State} (r : RegReq) (v : Word) (hk : Kept φ s0 s)
    (hregs : φ .regs = false) (hout : φ .out = false) (hqueues : φ .queues = false) (hdumps : φ .dumps = false) (e :
    execOperatorDump r v s = .next t1) :
    Kept φ s0 t1 := by
  unfold execOperatorDump at e
  injection e with e
  subst e
  with_reducible
    repeat'
      first
      | assumption | (intro _) | apply State.write_kept | apply State.dumpCtrlW_kept | dsimp only

theorem execTenantDumps_kept {φ : Part → Bool} {s0 s : State} {t1 : State} (r : RegReq) (v : Word) (hk : Kept φ s0 s)
    (hregs : φ .regs = false) (hout : φ .out = false) (hqueues : φ .queues = false) (hdumps : φ .dumps = false) (e :
    execTenantDumps r v s = .next t1) :
    Kept φ s0 t1 := by
  unfold execTenantDumps at e
  injection e with e
  subst e
  with_reducible
    repeat'
      first
      | assumption | (intro _) | apply State.write_kept | apply State.dumpCtrlW_kept | dsimp only

theorem execTenantDump_kept {φ : Part → Bool} {s0 s : State} {t1 : State} (r : RegReq) (p : Nat) (v : Word) (hk : Kept
    φ s0 s) (hregs : φ .regs = false) (hout : φ .out = false) (hqueues : φ .queues = false) (hdumps : φ .dumps =
    false) (e : execTenantDump r p v s = .next t1) :
    Kept φ s0 t1 := by
  unfold execTenantDump at e
  injection e with e
  subst e
  with_reducible
    repeat'
      first
      | assumption | (intro _) | apply State.write_kept | apply State.partDumpW_kept | dsimp only

theorem execDumpComplete_kept {φ : Part → Bool} {s0 s : State} {t1 : State} (n : Nat) (ok : Bool) (hk : Kept φ s0 s)
    (hkeys : φ .keys = false) (hregs : φ .regs = false) (hout : φ .out = false) (hqueues : φ .queues = false) (hdumps
    : φ .dumps = false) (e : execDumpComplete n ok s = .next t1) :
    Kept φ s0 t1 := by
  unfold execDumpComplete at e
  injection e with e
  subst e
  with_reducible
    repeat'
      first
      | assumption | (intro _) | apply State.dumpDone_kept | dsimp only

theorem execDebugWindowAccess_kept {φ : Part → Bool} {s0 s : State} {t1 : State} (r : RegReq) (k : Nat) (write : Bool)
    (v : Word) (errs : List ReadErr) (hk : Kept φ s0 s) (hmem : φ .mem = false) (hkeys : φ .keys = false) (hregs : φ
    .regs = false) (hout : φ .out = false) (hpoison : φ .poison = false) (hchannels : φ .channels = false) (hupds : φ
    .upds = false) (hhaltReq : φ .haltReq = false) (e : execDebugWindowAccess r k write v errs s = .next t1) :
    Kept φ s0 t1 := by
  unfold execDebugWindowAccess at e
  injection e with e
  subst e
  with_reducible
    repeat'
      first
      | assumption | (intro _) | apply kept_ite | apply State.emit_kept | apply State.access_kept
      | apply State.write_kept | apply State.winWrite_kept | apply State.winRead_kept | apply kept_ite_fst
      | (apply kept_of_eq; assumption) | split | dsimp only

theorem execHotInsert_kept {φ : Part → Bool} {s0 s : State} {t1 : State}  (hk : Kept φ s0 s) (hpower : φ .power =
    false) (e : execHotInsert s = .next t1) :
    Kept φ s0 t1 := by
  unfold execHotInsert at e
  injection e with e
  subst e
  with_reducible
    repeat'
      first
      | assumption | (intro _) | dsimp only | apply kept_mk | apply kept_mk_power

theorem execPerstRelease_kept {φ : Part → Bool} {s0 s : State} {t1 : State}  (hk : Kept φ s0 s) (hpower : φ .power =
    false) (hregs : φ .regs = false) (e : execPerstRelease s = .next t1) :
    Kept φ s0 t1 := by
  unfold execPerstRelease at e
  injection e with e
  subst e
  with_reducible
    repeat'
      first
      | assumption | (intro _) | apply State.release_kept | dsimp only | apply kept_mk | apply kept_mk_power

theorem execInputSample_kept {φ : Part → Bool} {s0 s : State} {t1 : State} (mw : Nat) (va : Nat) (vb : Nat) (hk : Kept
    φ s0 s) (hpower : φ .power = false) (hregs : φ .regs = false) (e : execInputSample mw va vb s = .next t1) :
    Kept φ s0 t1 := by
  unfold execInputSample at e
  injection e with e
  subst e
  with_reducible
    repeat'
      first
      | assumption | (intro _) | apply State.inputSample_kept | dsimp only

theorem execMeterMemTick_kept {φ : Part → Bool} {s0 s : State} {t1 : State}  (hk : Kept φ s0 s) (hmtr : φ .mtr =
    false) (husage : φ .usage = false) (e : execMeterMemTick s = .next t1) :
    Kept φ s0 t1 := by
  unfold execMeterMemTick at e
  injection e with e
  subst e
  with_reducible
    repeat'
      first
      | assumption | (intro _) | apply State.memTick_kept | dsimp only

theorem execRowRepairComplete_kept {φ : Part → Bool} {s0 s : State} {t1 : State} (k : Nat) (row : Nat) (hk : Kept φ s0
    s) (hregs : φ .regs = false) (hchannels : φ .channels = false) (e : execRowRepairComplete k row s = .next t1) :
    Kept φ s0 t1 := by
  unfold execRowRepairComplete at e
  injection e with e
  subst e
  with_reducible
    repeat'
      first
      | assumption | (intro _) | apply State.rowRepairDone_kept | dsimp only

theorem execPlatformEventAck_kept {φ : Part → Bool} {s0 s : State} {t1 : State} (id : Nat) (hk : Kept φ s0 s) (hevents
    : φ .events = false) (e : execPlatformEventAck id s = .next t1) :
    Kept φ s0 t1 := by
  unfold execPlatformEventAck at e
  injection e with e
  subst e
  with_reducible
    repeat'
      first
      | assumption | (intro _) | dsimp only | apply kept_mk | apply kept_mk_events

end Sys2Proof.Machine
end

