-- ==== Sys2Proof/Laws/State.lean ====
section
/-! SUPPORT. What each update of State leaves alone, one lemma per update and field, and what its own array reads afterwards. -/

namespace Sys2Proof.Machine

variable (s : State)

/-! `State.wr` writes `regs` alone. -/

@[simp] theorem State.wr_now (a : Nat) (w : Word) : (s.wr a w).now = s.now := rfl
@[simp] theorem State.wr_shadows (a : Nat) (w : Word) : (s.wr a w).shadows = s.shadows := rfl
@[simp] theorem State.wr_out (a : Nat) (w : Word) : (s.wr a w).out = s.out := rfl
@[simp] theorem State.wr_seqs (a : Nat) (w : Word) : (s.wr a w).seqs = s.seqs := rfl
@[simp] theorem State.wr_cores (a : Nat) (w : Word) : (s.wr a w).cores = s.cores := rfl
@[simp] theorem State.wr_dram (a : Nat) (w : Word) : (s.wr a w).dram = s.dram := rfl
@[simp] theorem State.wr_poison (a : Nat) (w : Word) : (s.wr a w).poison = s.poison := rfl
@[simp] theorem State.wr_stks (a : Nat) (w : Word) : (s.wr a w).stks = s.stks := rfl
@[simp] theorem State.wr_nmeXfers (a : Nat) (w : Word) : (s.wr a w).nmeXfers = s.nmeXfers := rfl
@[simp] theorem State.wr_serial (a : Nat) (w : Word) : (s.wr a w).serial = s.serial := rfl
@[simp] theorem State.wr_keys (a : Nat) (w : Word) : (s.wr a w).keys = s.keys := rfl
@[simp] theorem State.wr_keeper (a : Nat) (w : Word) : (s.wr a w).keeper = s.keeper := rfl
@[simp] theorem State.wr_sepia (a : Nat) (w : Word) : (s.wr a w).sepia = s.sepia := rfl
@[simp] theorem State.wr_counts (a : Nat) (w : Word) : (s.wr a w).counts = s.counts := rfl
@[simp] theorem State.wr_meters (a : Nat) (w : Word) : (s.wr a w).meters = s.meters := rfl
@[simp] theorem State.wr_mtr (a : Nat) (w : Word) : (s.wr a w).mtr = s.mtr := rfl
@[simp] theorem State.wr_tenancies (a : Nat) (w : Word) : (s.wr a w).tenancies = s.tenancies := rfl
@[simp] theorem State.wr_meterHold (a : Nat) (w : Word) : (s.wr a w).meterHold = s.meterHold := rfl
@[simp] theorem State.wr_upds (a : Nat) (w : Word) : (s.wr a w).upds = s.upds := rfl
@[simp] theorem State.wr_ringAdv (a : Nat) (w : Word) : (s.wr a w).ringAdv = s.ringAdv := rfl
@[simp] theorem State.wr_ports (a : Nat) (w : Word) : (s.wr a w).ports = s.ports := rfl
@[simp] theorem State.wr_wins (a : Nat) (w : Word) : (s.wr a w).wins = s.wins := rfl
@[simp] theorem State.wr_lakes (a : Nat) (w : Word) : (s.wr a w).lakes = s.lakes := rfl
@[simp] theorem State.wr_ccs (a : Nat) (w : Word) : (s.wr a w).ccs = s.ccs := rfl
@[simp] theorem State.wr_launches (a : Nat) (w : Word) : (s.wr a w).launches = s.launches := rfl
@[simp] theorem State.wr_queues (a : Nat) (w : Word) : (s.wr a w).queues = s.queues := rfl
@[simp] theorem State.wr_arbs (a : Nat) (w : Word) : (s.wr a w).arbs = s.arbs := rfl
@[simp] theorem State.wr_dmas (a : Nat) (w : Word) : (s.wr a w).dmas = s.dmas := rfl
@[simp] theorem State.wr_events (a : Nat) (w : Word) : (s.wr a w).events = s.events := rfl
@[simp] theorem State.wr_eventRcv (a : Nat) (w : Word) : (s.wr a w).eventRcv = s.eventRcv := rfl
@[simp] theorem State.wr_thermAlert (a : Nat) (w : Word) : (s.wr a w).thermAlert = s.thermAlert := rfl
@[simp] theorem State.wr_trayOfs (a : Nat) (w : Word) : (s.wr a w).trayOfs = s.trayOfs := rfl
@[simp] theorem State.wr_trayRef (a : Nat) (w : Word) : (s.wr a w).trayRef = s.trayRef := rfl
@[simp] theorem State.wr_trayAt (a : Nat) (w : Word) : (s.wr a w).trayAt = s.trayAt := rfl
@[simp] theorem State.wr_timeOfs (a : Nat) (w : Word) : (s.wr a w).timeOfs = s.timeOfs := rfl
@[simp] theorem State.wr_ofsSet (a : Nat) (w : Word) : (s.wr a w).ofsSet = s.ofsSet := rfl
@[simp] theorem State.wr_coreMap (a : Nat) (w : Word) : (s.wr a w).coreMap = s.coreMap := rfl
@[simp] theorem State.wr_haltReq (a : Nat) (w : Word) : (s.wr a w).haltReq = s.haltReq := rfl
@[simp] theorem State.wr_halted (a : Nat) (w : Word) : (s.wr a w).halted = s.halted := rfl
@[simp] theorem State.wr_haltDone (a : Nat) (w : Word) : (s.wr a w).haltDone = s.haltDone := rfl
@[simp] theorem State.wr_tray (a : Nat) (w : Word) : (s.wr a w).tray = s.tray := rfl
@[simp] theorem State.wr_power (a : Nat) (w : Word) : (s.wr a w).power = s.power := rfl
@[simp] theorem State.wr_fuses (a : Nat) (w : Word) : (s.wr a w).fuses = s.fuses := rfl
@[simp] theorem State.wr_dynAddr (a : Nat) (w : Word) : (s.wr a w).dynAddr = s.dynAddr := rfl
@[simp] theorem State.wr_freezeAt (a : Nat) (w : Word) : (s.wr a w).freezeAt = s.freezeAt := rfl
@[simp] theorem State.wr_dumps (a : Nat) (w : Word) : (s.wr a w).dumps = s.dumps := rfl
@[simp] theorem State.wr_mse (a : Nat) (w : Word) : (s.wr a w).mse = s.mse := rfl
@[simp] theorem State.wr_vfs (a : Nat) (w : Word) : (s.wr a w).vfs = s.vfs := rfl
@[simp] theorem State.wr_crs (a : Nat) (w : Word) : (s.wr a w).crs = s.crs := rfl
@[simp] theorem State.wr_flash (a : Nat) (w : Word) : (s.wr a w).flash = s.flash := rfl
@[simp] theorem State.wr_flashActive (a : Nat) (w : Word) : (s.wr a w).flashActive = s.flashActive := rfl
@[simp] theorem State.wr_flashPending (a : Nat) (w : Word) : (s.wr a w).flashPending = s.flashPending := rfl
@[simp] theorem State.wr_pending (a : Nat) (w : Word) : (s.wr a w).pending = s.pending := rfl

/-! `State.fput` writes `regs` alone. -/

@[simp] theorem State.fput_now (a : Nat) (f : Fld) (v : Nat) : (s.fput a f v).now = s.now := rfl
@[simp] theorem State.fput_shadows (a : Nat) (f : Fld) (v : Nat) : (s.fput a f v).shadows = s.shadows := rfl
@[simp] theorem State.fput_out (a : Nat) (f : Fld) (v : Nat) : (s.fput a f v).out = s.out := rfl
@[simp] theorem State.fput_seqs (a : Nat) (f : Fld) (v : Nat) : (s.fput a f v).seqs = s.seqs := rfl
@[simp] theorem State.fput_cores (a : Nat) (f : Fld) (v : Nat) : (s.fput a f v).cores = s.cores := rfl
@[simp] theorem State.fput_dram (a : Nat) (f : Fld) (v : Nat) : (s.fput a f v).dram = s.dram := rfl
@[simp] theorem State.fput_poison (a : Nat) (f : Fld) (v : Nat) : (s.fput a f v).poison = s.poison := rfl
@[simp] theorem State.fput_stks (a : Nat) (f : Fld) (v : Nat) : (s.fput a f v).stks = s.stks := rfl
@[simp] theorem State.fput_nmeXfers (a : Nat) (f : Fld) (v : Nat) : (s.fput a f v).nmeXfers = s.nmeXfers := rfl
@[simp] theorem State.fput_serial (a : Nat) (f : Fld) (v : Nat) : (s.fput a f v).serial = s.serial := rfl
@[simp] theorem State.fput_keys (a : Nat) (f : Fld) (v : Nat) : (s.fput a f v).keys = s.keys := rfl
@[simp] theorem State.fput_keeper (a : Nat) (f : Fld) (v : Nat) : (s.fput a f v).keeper = s.keeper := rfl
@[simp] theorem State.fput_sepia (a : Nat) (f : Fld) (v : Nat) : (s.fput a f v).sepia = s.sepia := rfl
@[simp] theorem State.fput_counts (a : Nat) (f : Fld) (v : Nat) : (s.fput a f v).counts = s.counts := rfl
@[simp] theorem State.fput_meters (a : Nat) (f : Fld) (v : Nat) : (s.fput a f v).meters = s.meters := rfl
@[simp] theorem State.fput_mtr (a : Nat) (f : Fld) (v : Nat) : (s.fput a f v).mtr = s.mtr := rfl
@[simp] theorem State.fput_tenancies (a : Nat) (f : Fld) (v : Nat) : (s.fput a f v).tenancies = s.tenancies := rfl
@[simp] theorem State.fput_meterHold (a : Nat) (f : Fld) (v : Nat) : (s.fput a f v).meterHold = s.meterHold := rfl
@[simp] theorem State.fput_upds (a : Nat) (f : Fld) (v : Nat) : (s.fput a f v).upds = s.upds := rfl
@[simp] theorem State.fput_ringAdv (a : Nat) (f : Fld) (v : Nat) : (s.fput a f v).ringAdv = s.ringAdv := rfl
@[simp] theorem State.fput_ports (a : Nat) (f : Fld) (v : Nat) : (s.fput a f v).ports = s.ports := rfl
@[simp] theorem State.fput_wins (a : Nat) (f : Fld) (v : Nat) : (s.fput a f v).wins = s.wins := rfl
@[simp] theorem State.fput_lakes (a : Nat) (f : Fld) (v : Nat) : (s.fput a f v).lakes = s.lakes := rfl
@[simp] theorem State.fput_ccs (a : Nat) (f : Fld) (v : Nat) : (s.fput a f v).ccs = s.ccs := rfl
@[simp] theorem State.fput_launches (a : Nat) (f : Fld) (v : Nat) : (s.fput a f v).launches = s.launches := rfl
@[simp] theorem State.fput_queues (a : Nat) (f : Fld) (v : Nat) : (s.fput a f v).queues = s.queues := rfl
@[simp] theorem State.fput_arbs (a : Nat) (f : Fld) (v : Nat) : (s.fput a f v).arbs = s.arbs := rfl
@[simp] theorem State.fput_dmas (a : Nat) (f : Fld) (v : Nat) : (s.fput a f v).dmas = s.dmas := rfl
@[simp] theorem State.fput_events (a : Nat) (f : Fld) (v : Nat) : (s.fput a f v).events = s.events := rfl
@[simp] theorem State.fput_eventRcv (a : Nat) (f : Fld) (v : Nat) : (s.fput a f v).eventRcv = s.eventRcv := rfl
@[simp] theorem State.fput_thermAlert (a : Nat) (f : Fld) (v : Nat) : (s.fput a f v).thermAlert = s.thermAlert := rfl
@[simp] theorem State.fput_trayOfs (a : Nat) (f : Fld) (v : Nat) : (s.fput a f v).trayOfs = s.trayOfs := rfl
@[simp] theorem State.fput_trayRef (a : Nat) (f : Fld) (v : Nat) : (s.fput a f v).trayRef = s.trayRef := rfl
@[simp] theorem State.fput_trayAt (a : Nat) (f : Fld) (v : Nat) : (s.fput a f v).trayAt = s.trayAt := rfl
@[simp] theorem State.fput_timeOfs (a : Nat) (f : Fld) (v : Nat) : (s.fput a f v).timeOfs = s.timeOfs := rfl
@[simp] theorem State.fput_ofsSet (a : Nat) (f : Fld) (v : Nat) : (s.fput a f v).ofsSet = s.ofsSet := rfl
@[simp] theorem State.fput_coreMap (a : Nat) (f : Fld) (v : Nat) : (s.fput a f v).coreMap = s.coreMap := rfl
@[simp] theorem State.fput_haltReq (a : Nat) (f : Fld) (v : Nat) : (s.fput a f v).haltReq = s.haltReq := rfl
@[simp] theorem State.fput_halted (a : Nat) (f : Fld) (v : Nat) : (s.fput a f v).halted = s.halted := rfl
@[simp] theorem State.fput_haltDone (a : Nat) (f : Fld) (v : Nat) : (s.fput a f v).haltDone = s.haltDone := rfl
@[simp] theorem State.fput_tray (a : Nat) (f : Fld) (v : Nat) : (s.fput a f v).tray = s.tray := rfl
@[simp] theorem State.fput_power (a : Nat) (f : Fld) (v : Nat) : (s.fput a f v).power = s.power := rfl
@[simp] theorem State.fput_fuses (a : Nat) (f : Fld) (v : Nat) : (s.fput a f v).fuses = s.fuses := rfl
@[simp] theorem State.fput_dynAddr (a : Nat) (f : Fld) (v : Nat) : (s.fput a f v).dynAddr = s.dynAddr := rfl
@[simp] theorem State.fput_freezeAt (a : Nat) (f : Fld) (v : Nat) : (s.fput a f v).freezeAt = s.freezeAt := rfl
@[simp] theorem State.fput_dumps (a : Nat) (f : Fld) (v : Nat) : (s.fput a f v).dumps = s.dumps := rfl
@[simp] theorem State.fput_mse (a : Nat) (f : Fld) (v : Nat) : (s.fput a f v).mse = s.mse := rfl
@[simp] theorem State.fput_vfs (a : Nat) (f : Fld) (v : Nat) : (s.fput a f v).vfs = s.vfs := rfl
@[simp] theorem State.fput_crs (a : Nat) (f : Fld) (v : Nat) : (s.fput a f v).crs = s.crs := rfl
@[simp] theorem State.fput_flash (a : Nat) (f : Fld) (v : Nat) : (s.fput a f v).flash = s.flash := rfl
@[simp] theorem State.fput_flashActive (a : Nat) (f : Fld) (v : Nat) : (s.fput a f v).flashActive = s.flashActive := rfl
@[simp] theorem State.fput_flashPending (a : Nat) (f : Fld) (v : Nat) : (s.fput a f v).flashPending = s.flashPending := rfl
@[simp] theorem State.fput_pending (a : Nat) (f : Fld) (v : Nat) : (s.fput a f v).pending = s.pending := rfl

/-! `State.emit` writes `out` alone. -/

@[simp] theorem State.emit_now (o : Output) : (s.emit o).now = s.now := rfl
@[simp] theorem State.emit_regs (o : Output) : (s.emit o).regs = s.regs := rfl
@[simp] theorem State.emit_shadows (o : Output) : (s.emit o).shadows = s.shadows := rfl
@[simp] theorem State.emit_seqs (o : Output) : (s.emit o).seqs = s.seqs := rfl
@[simp] theorem State.emit_cores (o : Output) : (s.emit o).cores = s.cores := rfl
@[simp] theorem State.emit_dram (o : Output) : (s.emit o).dram = s.dram := rfl
@[simp] theorem State.emit_poison (o : Output) : (s.emit o).poison = s.poison := rfl
@[simp] theorem State.emit_stks (o : Output) : (s.emit o).stks = s.stks := rfl
@[simp] theorem State.emit_nmeXfers (o : Output) : (s.emit o).nmeXfers = s.nmeXfers := rfl
@[simp] theorem State.emit_serial (o : Output) : (s.emit o).serial = s.serial := rfl
@[simp] theorem State.emit_keys (o : Output) : (s.emit o).keys = s.keys := rfl
@[simp] theorem State.emit_keeper (o : Output) : (s.emit o).keeper = s.keeper := rfl
@[simp] theorem State.emit_sepia (o : Output) : (s.emit o).sepia = s.sepia := rfl
@[simp] theorem State.emit_counts (o : Output) : (s.emit o).counts = s.counts := rfl
@[simp] theorem State.emit_meters (o : Output) : (s.emit o).meters = s.meters := rfl
@[simp] theorem State.emit_mtr (o : Output) : (s.emit o).mtr = s.mtr := rfl
@[simp] theorem State.emit_tenancies (o : Output) : (s.emit o).tenancies = s.tenancies := rfl
@[simp] theorem State.emit_meterHold (o : Output) : (s.emit o).meterHold = s.meterHold := rfl
@[simp] theorem State.emit_upds (o : Output) : (s.emit o).upds = s.upds := rfl
@[simp] theorem State.emit_ringAdv (o : Output) : (s.emit o).ringAdv = s.ringAdv := rfl
@[simp] theorem State.emit_ports (o : Output) : (s.emit o).ports = s.ports := rfl
@[simp] theorem State.emit_wins (o : Output) : (s.emit o).wins = s.wins := rfl
@[simp] theorem State.emit_lakes (o : Output) : (s.emit o).lakes = s.lakes := rfl
@[simp] theorem State.emit_ccs (o : Output) : (s.emit o).ccs = s.ccs := rfl
@[simp] theorem State.emit_launches (o : Output) : (s.emit o).launches = s.launches := rfl
@[simp] theorem State.emit_queues (o : Output) : (s.emit o).queues = s.queues := rfl
@[simp] theorem State.emit_arbs (o : Output) : (s.emit o).arbs = s.arbs := rfl
@[simp] theorem State.emit_dmas (o : Output) : (s.emit o).dmas = s.dmas := rfl
@[simp] theorem State.emit_events (o : Output) : (s.emit o).events = s.events := rfl
@[simp] theorem State.emit_eventRcv (o : Output) : (s.emit o).eventRcv = s.eventRcv := rfl
@[simp] theorem State.emit_thermAlert (o : Output) : (s.emit o).thermAlert = s.thermAlert := rfl
@[simp] theorem State.emit_trayOfs (o : Output) : (s.emit o).trayOfs = s.trayOfs := rfl
@[simp] theorem State.emit_trayRef (o : Output) : (s.emit o).trayRef = s.trayRef := rfl
@[simp] theorem State.emit_trayAt (o : Output) : (s.emit o).trayAt = s.trayAt := rfl
@[simp] theorem State.emit_timeOfs (o : Output) : (s.emit o).timeOfs = s.timeOfs := rfl
@[simp] theorem State.emit_ofsSet (o : Output) : (s.emit o).ofsSet = s.ofsSet := rfl
@[simp] theorem State.emit_coreMap (o : Output) : (s.emit o).coreMap = s.coreMap := rfl
@[simp] theorem State.emit_haltReq (o : Output) : (s.emit o).haltReq = s.haltReq := rfl
@[simp] theorem State.emit_halted (o : Output) : (s.emit o).halted = s.halted := rfl
@[simp] theorem State.emit_haltDone (o : Output) : (s.emit o).haltDone = s.haltDone := rfl
@[simp] theorem State.emit_tray (o : Output) : (s.emit o).tray = s.tray := rfl
@[simp] theorem State.emit_power (o : Output) : (s.emit o).power = s.power := rfl
@[simp] theorem State.emit_fuses (o : Output) : (s.emit o).fuses = s.fuses := rfl
@[simp] theorem State.emit_dynAddr (o : Output) : (s.emit o).dynAddr = s.dynAddr := rfl
@[simp] theorem State.emit_freezeAt (o : Output) : (s.emit o).freezeAt = s.freezeAt := rfl
@[simp] theorem State.emit_dumps (o : Output) : (s.emit o).dumps = s.dumps := rfl
@[simp] theorem State.emit_mse (o : Output) : (s.emit o).mse = s.mse := rfl
@[simp] theorem State.emit_vfs (o : Output) : (s.emit o).vfs = s.vfs := rfl
@[simp] theorem State.emit_crs (o : Output) : (s.emit o).crs = s.crs := rfl
@[simp] theorem State.emit_flash (o : Output) : (s.emit o).flash = s.flash := rfl
@[simp] theorem State.emit_flashActive (o : Output) : (s.emit o).flashActive = s.flashActive := rfl
@[simp] theorem State.emit_flashPending (o : Output) : (s.emit o).flashPending = s.flashPending := rfl
@[simp] theorem State.emit_pending (o : Output) : (s.emit o).pending = s.pending := rfl

/-! `State.setSq` writes `seqs` alone. -/

@[simp] theorem State.setSq_now (p : Nat) (x : Seq) : (s.setSq p x).now = s.now := rfl
@[simp] theorem State.setSq_regs (p : Nat) (x : Seq) : (s.setSq p x).regs = s.regs := rfl
@[simp] theorem State.setSq_shadows (p : Nat) (x : Seq) : (s.setSq p x).shadows = s.shadows := rfl
@[simp] theorem State.setSq_out (p : Nat) (x : Seq) : (s.setSq p x).out = s.out := rfl
@[simp] theorem State.setSq_cores (p : Nat) (x : Seq) : (s.setSq p x).cores = s.cores := rfl
@[simp] theorem State.setSq_dram (p : Nat) (x : Seq) : (s.setSq p x).dram = s.dram := rfl
@[simp] theorem State.setSq_poison (p : Nat) (x : Seq) : (s.setSq p x).poison = s.poison := rfl
@[simp] theorem State.setSq_stks (p : Nat) (x : Seq) : (s.setSq p x).stks = s.stks := rfl
@[simp] theorem State.setSq_nmeXfers (p : Nat) (x : Seq) : (s.setSq p x).nmeXfers = s.nmeXfers := rfl
@[simp] theorem State.setSq_serial (p : Nat) (x : Seq) : (s.setSq p x).serial = s.serial := rfl
@[simp] theorem State.setSq_keys (p : Nat) (x : Seq) : (s.setSq p x).keys = s.keys := rfl
@[simp] theorem State.setSq_keeper (p : Nat) (x : Seq) : (s.setSq p x).keeper = s.keeper := rfl
@[simp] theorem State.setSq_sepia (p : Nat) (x : Seq) : (s.setSq p x).sepia = s.sepia := rfl
@[simp] theorem State.setSq_counts (p : Nat) (x : Seq) : (s.setSq p x).counts = s.counts := rfl
@[simp] theorem State.setSq_meters (p : Nat) (x : Seq) : (s.setSq p x).meters = s.meters := rfl
@[simp] theorem State.setSq_mtr (p : Nat) (x : Seq) : (s.setSq p x).mtr = s.mtr := rfl
@[simp] theorem State.setSq_tenancies (p : Nat) (x : Seq) : (s.setSq p x).tenancies = s.tenancies := rfl
@[simp] theorem State.setSq_meterHold (p : Nat) (x : Seq) : (s.setSq p x).meterHold = s.meterHold := rfl
@[simp] theorem State.setSq_upds (p : Nat) (x : Seq) : (s.setSq p x).upds = s.upds := rfl
@[simp] theorem State.setSq_ringAdv (p : Nat) (x : Seq) : (s.setSq p x).ringAdv = s.ringAdv := rfl
@[simp] theorem State.setSq_ports (p : Nat) (x : Seq) : (s.setSq p x).ports = s.ports := rfl
@[simp] theorem State.setSq_wins (p : Nat) (x : Seq) : (s.setSq p x).wins = s.wins := rfl
@[simp] theorem State.setSq_lakes (p : Nat) (x : Seq) : (s.setSq p x).lakes = s.lakes := rfl
@[simp] theorem State.setSq_ccs (p : Nat) (x : Seq) : (s.setSq p x).ccs = s.ccs := rfl
@[simp] theorem State.setSq_launches (p : Nat) (x : Seq) : (s.setSq p x).launches = s.launches := rfl
@[simp] theorem State.setSq_queues (p : Nat) (x : Seq) : (s.setSq p x).queues = s.queues := rfl
@[simp] theorem State.setSq_arbs (p : Nat) (x : Seq) : (s.setSq p x).arbs = s.arbs := rfl
@[simp] theorem State.setSq_dmas (p : Nat) (x : Seq) : (s.setSq p x).dmas = s.dmas := rfl
@[simp] theorem State.setSq_events (p : Nat) (x : Seq) : (s.setSq p x).events = s.events := rfl
@[simp] theorem State.setSq_eventRcv (p : Nat) (x : Seq) : (s.setSq p x).eventRcv = s.eventRcv := rfl
@[simp] theorem State.setSq_thermAlert (p : Nat) (x : Seq) : (s.setSq p x).thermAlert = s.thermAlert := rfl
@[simp] theorem State.setSq_trayOfs (p : Nat) (x : Seq) : (s.setSq p x).trayOfs = s.trayOfs := rfl
@[simp] theorem State.setSq_trayRef (p : Nat) (x : Seq) : (s.setSq p x).trayRef = s.trayRef := rfl
@[simp] theorem State.setSq_trayAt (p : Nat) (x : Seq) : (s.setSq p x).trayAt = s.trayAt := rfl
@[simp] theorem State.setSq_timeOfs (p : Nat) (x : Seq) : (s.setSq p x).timeOfs = s.timeOfs := rfl
@[simp] theorem State.setSq_ofsSet (p : Nat) (x : Seq) : (s.setSq p x).ofsSet = s.ofsSet := rfl
@[simp] theorem State.setSq_coreMap (p : Nat) (x : Seq) : (s.setSq p x).coreMap = s.coreMap := rfl
@[simp] theorem State.setSq_haltReq (p : Nat) (x : Seq) : (s.setSq p x).haltReq = s.haltReq := rfl
@[simp] theorem State.setSq_halted (p : Nat) (x : Seq) : (s.setSq p x).halted = s.halted := rfl
@[simp] theorem State.setSq_haltDone (p : Nat) (x : Seq) : (s.setSq p x).haltDone = s.haltDone := rfl
@[simp] theorem State.setSq_tray (p : Nat) (x : Seq) : (s.setSq p x).tray = s.tray := rfl
@[simp] theorem State.setSq_power (p : Nat) (x : Seq) : (s.setSq p x).power = s.power := rfl
@[simp] theorem State.setSq_fuses (p : Nat) (x : Seq) : (s.setSq p x).fuses = s.fuses := rfl
@[simp] theorem State.setSq_dynAddr (p : Nat) (x : Seq) : (s.setSq p x).dynAddr = s.dynAddr := rfl
@[simp] theorem State.setSq_freezeAt (p : Nat) (x : Seq) : (s.setSq p x).freezeAt = s.freezeAt := rfl
@[simp] theorem State.setSq_dumps (p : Nat) (x : Seq) : (s.setSq p x).dumps = s.dumps := rfl
@[simp] theorem State.setSq_mse (p : Nat) (x : Seq) : (s.setSq p x).mse = s.mse := rfl
@[simp] theorem State.setSq_vfs (p : Nat) (x : Seq) : (s.setSq p x).vfs = s.vfs := rfl
@[simp] theorem State.setSq_crs (p : Nat) (x : Seq) : (s.setSq p x).crs = s.crs := rfl
@[simp] theorem State.setSq_flash (p : Nat) (x : Seq) : (s.setSq p x).flash = s.flash := rfl
@[simp] theorem State.setSq_flashActive (p : Nat) (x : Seq) : (s.setSq p x).flashActive = s.flashActive := rfl
@[simp] theorem State.setSq_flashPending (p : Nat) (x : Seq) : (s.setSq p x).flashPending = s.flashPending := rfl
@[simp] theorem State.setSq_pending (p : Nat) (x : Seq) : (s.setSq p x).pending = s.pending := rfl

/-! `State.setUp` writes `upds` alone. -/

@[simp] theorem State.setUp_now (p : Nat) (x : Upd) : (s.setUp p x).now = s.now := rfl
@[simp] theorem State.setUp_regs (p : Nat) (x : Upd) : (s.setUp p x).regs = s.regs := rfl
@[simp] theorem State.setUp_shadows (p : Nat) (x : Upd) : (s.setUp p x).shadows = s.shadows := rfl
@[simp] theorem State.setUp_out (p : Nat) (x : Upd) : (s.setUp p x).out = s.out := rfl
@[simp] theorem State.setUp_seqs (p : Nat) (x : Upd) : (s.setUp p x).seqs = s.seqs := rfl
@[simp] theorem State.setUp_cores (p : Nat) (x : Upd) : (s.setUp p x).cores = s.cores := rfl
@[simp] theorem State.setUp_dram (p : Nat) (x : Upd) : (s.setUp p x).dram = s.dram := rfl
@[simp] theorem State.setUp_poison (p : Nat) (x : Upd) : (s.setUp p x).poison = s.poison := rfl
@[simp] theorem State.setUp_stks (p : Nat) (x : Upd) : (s.setUp p x).stks = s.stks := rfl
@[simp] theorem State.setUp_nmeXfers (p : Nat) (x : Upd) : (s.setUp p x).nmeXfers = s.nmeXfers := rfl
@[simp] theorem State.setUp_serial (p : Nat) (x : Upd) : (s.setUp p x).serial = s.serial := rfl
@[simp] theorem State.setUp_keys (p : Nat) (x : Upd) : (s.setUp p x).keys = s.keys := rfl
@[simp] theorem State.setUp_keeper (p : Nat) (x : Upd) : (s.setUp p x).keeper = s.keeper := rfl
@[simp] theorem State.setUp_sepia (p : Nat) (x : Upd) : (s.setUp p x).sepia = s.sepia := rfl
@[simp] theorem State.setUp_counts (p : Nat) (x : Upd) : (s.setUp p x).counts = s.counts := rfl
@[simp] theorem State.setUp_meters (p : Nat) (x : Upd) : (s.setUp p x).meters = s.meters := rfl
@[simp] theorem State.setUp_mtr (p : Nat) (x : Upd) : (s.setUp p x).mtr = s.mtr := rfl
@[simp] theorem State.setUp_tenancies (p : Nat) (x : Upd) : (s.setUp p x).tenancies = s.tenancies := rfl
@[simp] theorem State.setUp_meterHold (p : Nat) (x : Upd) : (s.setUp p x).meterHold = s.meterHold := rfl
@[simp] theorem State.setUp_ringAdv (p : Nat) (x : Upd) : (s.setUp p x).ringAdv = s.ringAdv := rfl
@[simp] theorem State.setUp_ports (p : Nat) (x : Upd) : (s.setUp p x).ports = s.ports := rfl
@[simp] theorem State.setUp_wins (p : Nat) (x : Upd) : (s.setUp p x).wins = s.wins := rfl
@[simp] theorem State.setUp_lakes (p : Nat) (x : Upd) : (s.setUp p x).lakes = s.lakes := rfl
@[simp] theorem State.setUp_ccs (p : Nat) (x : Upd) : (s.setUp p x).ccs = s.ccs := rfl
@[simp] theorem State.setUp_launches (p : Nat) (x : Upd) : (s.setUp p x).launches = s.launches := rfl
@[simp] theorem State.setUp_queues (p : Nat) (x : Upd) : (s.setUp p x).queues = s.queues := rfl
@[simp] theorem State.setUp_arbs (p : Nat) (x : Upd) : (s.setUp p x).arbs = s.arbs := rfl
@[simp] theorem State.setUp_dmas (p : Nat) (x : Upd) : (s.setUp p x).dmas = s.dmas := rfl
@[simp] theorem State.setUp_events (p : Nat) (x : Upd) : (s.setUp p x).events = s.events := rfl
@[simp] theorem State.setUp_eventRcv (p : Nat) (x : Upd) : (s.setUp p x).eventRcv = s.eventRcv := rfl
@[simp] theorem State.setUp_thermAlert (p : Nat) (x : Upd) : (s.setUp p x).thermAlert = s.thermAlert := rfl
@[simp] theorem State.setUp_trayOfs (p : Nat) (x : Upd) : (s.setUp p x).trayOfs = s.trayOfs := rfl
@[simp] theorem State.setUp_trayRef (p : Nat) (x : Upd) : (s.setUp p x).trayRef = s.trayRef := rfl
@[simp] theorem State.setUp_trayAt (p : Nat) (x : Upd) : (s.setUp p x).trayAt = s.trayAt := rfl
@[simp] theorem State.setUp_timeOfs (p : Nat) (x : Upd) : (s.setUp p x).timeOfs = s.timeOfs := rfl
@[simp] theorem State.setUp_ofsSet (p : Nat) (x : Upd) : (s.setUp p x).ofsSet = s.ofsSet := rfl
@[simp] theorem State.setUp_coreMap (p : Nat) (x : Upd) : (s.setUp p x).coreMap = s.coreMap := rfl
@[simp] theorem State.setUp_haltReq (p : Nat) (x : Upd) : (s.setUp p x).haltReq = s.haltReq := rfl
@[simp] theorem State.setUp_halted (p : Nat) (x : Upd) : (s.setUp p x).halted = s.halted := rfl
@[simp] theorem State.setUp_haltDone (p : Nat) (x : Upd) : (s.setUp p x).haltDone = s.haltDone := rfl
@[simp] theorem State.setUp_tray (p : Nat) (x : Upd) : (s.setUp p x).tray = s.tray := rfl
@[simp] theorem State.setUp_power (p : Nat) (x : Upd) : (s.setUp p x).power = s.power := rfl
@[simp] theorem State.setUp_fuses (p : Nat) (x : Upd) : (s.setUp p x).fuses = s.fuses := rfl
@[simp] theorem State.setUp_dynAddr (p : Nat) (x : Upd) : (s.setUp p x).dynAddr = s.dynAddr := rfl
@[simp] theorem State.setUp_freezeAt (p : Nat) (x : Upd) : (s.setUp p x).freezeAt = s.freezeAt := rfl
@[simp] theorem State.setUp_dumps (p : Nat) (x : Upd) : (s.setUp p x).dumps = s.dumps := rfl
@[simp] theorem State.setUp_mse (p : Nat) (x : Upd) : (s.setUp p x).mse = s.mse := rfl
@[simp] theorem State.setUp_vfs (p : Nat) (x : Upd) : (s.setUp p x).vfs = s.vfs := rfl
@[simp] theorem State.setUp_crs (p : Nat) (x : Upd) : (s.setUp p x).crs = s.crs := rfl
@[simp] theorem State.setUp_flash (p : Nat) (x : Upd) : (s.setUp p x).flash = s.flash := rfl
@[simp] theorem State.setUp_flashActive (p : Nat) (x : Upd) : (s.setUp p x).flashActive = s.flashActive := rfl
@[simp] theorem State.setUp_flashPending (p : Nat) (x : Upd) : (s.setUp p x).flashPending = s.flashPending := rfl
@[simp] theorem State.setUp_pending (p : Nat) (x : Upd) : (s.setUp p x).pending = s.pending := rfl

/-! `State.setStk` writes `stks` alone. -/

@[simp] theorem State.setStk_now (k : Nat) (x : Stack) : (s.setStk k x).now = s.now := rfl
@[simp] theorem State.setStk_regs (k : Nat) (x : Stack) : (s.setStk k x).regs = s.regs := rfl
@[simp] theorem State.setStk_shadows (k : Nat) (x : Stack) : (s.setStk k x).shadows = s.shadows := rfl
@[simp] theorem State.setStk_out (k : Nat) (x : Stack) : (s.setStk k x).out = s.out := rfl
@[simp] theorem State.setStk_seqs (k : Nat) (x : Stack) : (s.setStk k x).seqs = s.seqs := rfl
@[simp] theorem State.setStk_cores (k : Nat) (x : Stack) : (s.setStk k x).cores = s.cores := rfl
@[simp] theorem State.setStk_dram (k : Nat) (x : Stack) : (s.setStk k x).dram = s.dram := rfl
@[simp] theorem State.setStk_poison (k : Nat) (x : Stack) : (s.setStk k x).poison = s.poison := rfl
@[simp] theorem State.setStk_nmeXfers (k : Nat) (x : Stack) : (s.setStk k x).nmeXfers = s.nmeXfers := rfl
@[simp] theorem State.setStk_serial (k : Nat) (x : Stack) : (s.setStk k x).serial = s.serial := rfl
@[simp] theorem State.setStk_keys (k : Nat) (x : Stack) : (s.setStk k x).keys = s.keys := rfl
@[simp] theorem State.setStk_keeper (k : Nat) (x : Stack) : (s.setStk k x).keeper = s.keeper := rfl
@[simp] theorem State.setStk_sepia (k : Nat) (x : Stack) : (s.setStk k x).sepia = s.sepia := rfl
@[simp] theorem State.setStk_counts (k : Nat) (x : Stack) : (s.setStk k x).counts = s.counts := rfl
@[simp] theorem State.setStk_meters (k : Nat) (x : Stack) : (s.setStk k x).meters = s.meters := rfl
@[simp] theorem State.setStk_mtr (k : Nat) (x : Stack) : (s.setStk k x).mtr = s.mtr := rfl
@[simp] theorem State.setStk_tenancies (k : Nat) (x : Stack) : (s.setStk k x).tenancies = s.tenancies := rfl
@[simp] theorem State.setStk_meterHold (k : Nat) (x : Stack) : (s.setStk k x).meterHold = s.meterHold := rfl
@[simp] theorem State.setStk_upds (k : Nat) (x : Stack) : (s.setStk k x).upds = s.upds := rfl
@[simp] theorem State.setStk_ringAdv (k : Nat) (x : Stack) : (s.setStk k x).ringAdv = s.ringAdv := rfl
@[simp] theorem State.setStk_ports (k : Nat) (x : Stack) : (s.setStk k x).ports = s.ports := rfl
@[simp] theorem State.setStk_wins (k : Nat) (x : Stack) : (s.setStk k x).wins = s.wins := rfl
@[simp] theorem State.setStk_lakes (k : Nat) (x : Stack) : (s.setStk k x).lakes = s.lakes := rfl
@[simp] theorem State.setStk_ccs (k : Nat) (x : Stack) : (s.setStk k x).ccs = s.ccs := rfl
@[simp] theorem State.setStk_launches (k : Nat) (x : Stack) : (s.setStk k x).launches = s.launches := rfl
@[simp] theorem State.setStk_queues (k : Nat) (x : Stack) : (s.setStk k x).queues = s.queues := rfl
@[simp] theorem State.setStk_arbs (k : Nat) (x : Stack) : (s.setStk k x).arbs = s.arbs := rfl
@[simp] theorem State.setStk_dmas (k : Nat) (x : Stack) : (s.setStk k x).dmas = s.dmas := rfl
@[simp] theorem State.setStk_events (k : Nat) (x : Stack) : (s.setStk k x).events = s.events := rfl
@[simp] theorem State.setStk_eventRcv (k : Nat) (x : Stack) : (s.setStk k x).eventRcv = s.eventRcv := rfl
@[simp] theorem State.setStk_thermAlert (k : Nat) (x : Stack) : (s.setStk k x).thermAlert = s.thermAlert := rfl
@[simp] theorem State.setStk_trayOfs (k : Nat) (x : Stack) : (s.setStk k x).trayOfs = s.trayOfs := rfl
@[simp] theorem State.setStk_trayRef (k : Nat) (x : Stack) : (s.setStk k x).trayRef = s.trayRef := rfl
@[simp] theorem State.setStk_trayAt (k : Nat) (x : Stack) : (s.setStk k x).trayAt = s.trayAt := rfl
@[simp] theorem State.setStk_timeOfs (k : Nat) (x : Stack) : (s.setStk k x).timeOfs = s.timeOfs := rfl
@[simp] theorem State.setStk_ofsSet (k : Nat) (x : Stack) : (s.setStk k x).ofsSet = s.ofsSet := rfl
@[simp] theorem State.setStk_coreMap (k : Nat) (x : Stack) : (s.setStk k x).coreMap = s.coreMap := rfl
@[simp] theorem State.setStk_haltReq (k : Nat) (x : Stack) : (s.setStk k x).haltReq = s.haltReq := rfl
@[simp] theorem State.setStk_halted (k : Nat) (x : Stack) : (s.setStk k x).halted = s.halted := rfl
@[simp] theorem State.setStk_haltDone (k : Nat) (x : Stack) : (s.setStk k x).haltDone = s.haltDone := rfl
@[simp] theorem State.setStk_tray (k : Nat) (x : Stack) : (s.setStk k x).tray = s.tray := rfl
@[simp] theorem State.setStk_power (k : Nat) (x : Stack) : (s.setStk k x).power = s.power := rfl
@[simp] theorem State.setStk_fuses (k : Nat) (x : Stack) : (s.setStk k x).fuses = s.fuses := rfl
@[simp] theorem State.setStk_dynAddr (k : Nat) (x : Stack) : (s.setStk k x).dynAddr = s.dynAddr := rfl
@[simp] theorem State.setStk_freezeAt (k : Nat) (x : Stack) : (s.setStk k x).freezeAt = s.freezeAt := rfl
@[simp] theorem State.setStk_dumps (k : Nat) (x : Stack) : (s.setStk k x).dumps = s.dumps := rfl
@[simp] theorem State.setStk_mse (k : Nat) (x : Stack) : (s.setStk k x).mse = s.mse := rfl
@[simp] theorem State.setStk_vfs (k : Nat) (x : Stack) : (s.setStk k x).vfs = s.vfs := rfl
@[simp] theorem State.setStk_crs (k : Nat) (x : Stack) : (s.setStk k x).crs = s.crs := rfl
@[simp] theorem State.setStk_flash (k : Nat) (x : Stack) : (s.setStk k x).flash = s.flash := rfl
@[simp] theorem State.setStk_flashActive (k : Nat) (x : Stack) : (s.setStk k x).flashActive = s.flashActive := rfl
@[simp] theorem State.setStk_flashPending (k : Nat) (x : Stack) : (s.setStk k x).flashPending = s.flashPending := rfl
@[simp] theorem State.setStk_pending (k : Nat) (x : Stack) : (s.setStk k x).pending = s.pending := rfl

/-! `State.setKey` writes `keys` alone. -/

@[simp] theorem State.setKey_now (n : Nat) (x : KeySlot) : (s.setKey n x).now = s.now := rfl
@[simp] theorem State.setKey_regs (n : Nat) (x : KeySlot) : (s.setKey n x).regs = s.regs := rfl
@[simp] theorem State.setKey_shadows (n : Nat) (x : KeySlot) : (s.setKey n x).shadows = s.shadows := rfl
@[simp] theorem State.setKey_out (n : Nat) (x : KeySlot) : (s.setKey n x).out = s.out := rfl
@[simp] theorem State.setKey_seqs (n : Nat) (x : KeySlot) : (s.setKey n x).seqs = s.seqs := rfl
@[simp] theorem State.setKey_cores (n : Nat) (x : KeySlot) : (s.setKey n x).cores = s.cores := rfl
@[simp] theorem State.setKey_dram (n : Nat) (x : KeySlot) : (s.setKey n x).dram = s.dram := rfl
@[simp] theorem State.setKey_poison (n : Nat) (x : KeySlot) : (s.setKey n x).poison = s.poison := rfl
@[simp] theorem State.setKey_stks (n : Nat) (x : KeySlot) : (s.setKey n x).stks = s.stks := rfl
@[simp] theorem State.setKey_nmeXfers (n : Nat) (x : KeySlot) : (s.setKey n x).nmeXfers = s.nmeXfers := rfl
@[simp] theorem State.setKey_serial (n : Nat) (x : KeySlot) : (s.setKey n x).serial = s.serial := rfl
@[simp] theorem State.setKey_keeper (n : Nat) (x : KeySlot) : (s.setKey n x).keeper = s.keeper := rfl
@[simp] theorem State.setKey_sepia (n : Nat) (x : KeySlot) : (s.setKey n x).sepia = s.sepia := rfl
@[simp] theorem State.setKey_counts (n : Nat) (x : KeySlot) : (s.setKey n x).counts = s.counts := rfl
@[simp] theorem State.setKey_meters (n : Nat) (x : KeySlot) : (s.setKey n x).meters = s.meters := rfl
@[simp] theorem State.setKey_mtr (n : Nat) (x : KeySlot) : (s.setKey n x).mtr = s.mtr := rfl
@[simp] theorem State.setKey_tenancies (n : Nat) (x : KeySlot) : (s.setKey n x).tenancies = s.tenancies := rfl
@[simp] theorem State.setKey_meterHold (n : Nat) (x : KeySlot) : (s.setKey n x).meterHold = s.meterHold := rfl
@[simp] theorem State.setKey_upds (n : Nat) (x : KeySlot) : (s.setKey n x).upds = s.upds := rfl
@[simp] theorem State.setKey_ringAdv (n : Nat) (x : KeySlot) : (s.setKey n x).ringAdv = s.ringAdv := rfl
@[simp] theorem State.setKey_ports (n : Nat) (x : KeySlot) : (s.setKey n x).ports = s.ports := rfl
@[simp] theorem State.setKey_wins (n : Nat) (x : KeySlot) : (s.setKey n x).wins = s.wins := rfl
@[simp] theorem State.setKey_lakes (n : Nat) (x : KeySlot) : (s.setKey n x).lakes = s.lakes := rfl
@[simp] theorem State.setKey_ccs (n : Nat) (x : KeySlot) : (s.setKey n x).ccs = s.ccs := rfl
@[simp] theorem State.setKey_launches (n : Nat) (x : KeySlot) : (s.setKey n x).launches = s.launches := rfl
@[simp] theorem State.setKey_queues (n : Nat) (x : KeySlot) : (s.setKey n x).queues = s.queues := rfl
@[simp] theorem State.setKey_arbs (n : Nat) (x : KeySlot) : (s.setKey n x).arbs = s.arbs := rfl
@[simp] theorem State.setKey_dmas (n : Nat) (x : KeySlot) : (s.setKey n x).dmas = s.dmas := rfl
@[simp] theorem State.setKey_events (n : Nat) (x : KeySlot) : (s.setKey n x).events = s.events := rfl
@[simp] theorem State.setKey_eventRcv (n : Nat) (x : KeySlot) : (s.setKey n x).eventRcv = s.eventRcv := rfl
@[simp] theorem State.setKey_thermAlert (n : Nat) (x : KeySlot) : (s.setKey n x).thermAlert = s.thermAlert := rfl
@[simp] theorem State.setKey_trayOfs (n : Nat) (x : KeySlot) : (s.setKey n x).trayOfs = s.trayOfs := rfl
@[simp] theorem State.setKey_trayRef (n : Nat) (x : KeySlot) : (s.setKey n x).trayRef = s.trayRef := rfl
@[simp] theorem State.setKey_trayAt (n : Nat) (x : KeySlot) : (s.setKey n x).trayAt = s.trayAt := rfl
@[simp] theorem State.setKey_timeOfs (n : Nat) (x : KeySlot) : (s.setKey n x).timeOfs = s.timeOfs := rfl
@[simp] theorem State.setKey_ofsSet (n : Nat) (x : KeySlot) : (s.setKey n x).ofsSet = s.ofsSet := rfl
@[simp] theorem State.setKey_coreMap (n : Nat) (x : KeySlot) : (s.setKey n x).coreMap = s.coreMap := rfl
@[simp] theorem State.setKey_haltReq (n : Nat) (x : KeySlot) : (s.setKey n x).haltReq = s.haltReq := rfl
@[simp] theorem State.setKey_halted (n : Nat) (x : KeySlot) : (s.setKey n x).halted = s.halted := rfl
@[simp] theorem State.setKey_haltDone (n : Nat) (x : KeySlot) : (s.setKey n x).haltDone = s.haltDone := rfl
@[simp] theorem State.setKey_tray (n : Nat) (x : KeySlot) : (s.setKey n x).tray = s.tray := rfl
@[simp] theorem State.setKey_power (n : Nat) (x : KeySlot) : (s.setKey n x).power = s.power := rfl
@[simp] theorem State.setKey_fuses (n : Nat) (x : KeySlot) : (s.setKey n x).fuses = s.fuses := rfl
@[simp] theorem State.setKey_dynAddr (n : Nat) (x : KeySlot) : (s.setKey n x).dynAddr = s.dynAddr := rfl
@[simp] theorem State.setKey_freezeAt (n : Nat) (x : KeySlot) : (s.setKey n x).freezeAt = s.freezeAt := rfl
@[simp] theorem State.setKey_dumps (n : Nat) (x : KeySlot) : (s.setKey n x).dumps = s.dumps := rfl
@[simp] theorem State.setKey_mse (n : Nat) (x : KeySlot) : (s.setKey n x).mse = s.mse := rfl
@[simp] theorem State.setKey_vfs (n : Nat) (x : KeySlot) : (s.setKey n x).vfs = s.vfs := rfl
@[simp] theorem State.setKey_crs (n : Nat) (x : KeySlot) : (s.setKey n x).crs = s.crs := rfl
@[simp] theorem State.setKey_flash (n : Nat) (x : KeySlot) : (s.setKey n x).flash = s.flash := rfl
@[simp] theorem State.setKey_flashActive (n : Nat) (x : KeySlot) : (s.setKey n x).flashActive = s.flashActive := rfl
@[simp] theorem State.setKey_flashPending (n : Nat) (x : KeySlot) : (s.setKey n x).flashPending = s.flashPending := rfl
@[simp] theorem State.setKey_pending (n : Nat) (x : KeySlot) : (s.setKey n x).pending = s.pending := rfl

/-! `State.setQueue` writes `queues` alone. -/

@[simp] theorem State.setQueue_now (p q : Nat) (x : Queue) : (s.setQueue p q x).now = s.now := rfl
@[simp] theorem State.setQueue_regs (p q : Nat) (x : Queue) : (s.setQueue p q x).regs = s.regs := rfl
@[simp] theorem State.setQueue_shadows (p q : Nat) (x : Queue) : (s.setQueue p q x).shadows = s.shadows := rfl
@[simp] theorem State.setQueue_out (p q : Nat) (x : Queue) : (s.setQueue p q x).out = s.out := rfl
@[simp] theorem State.setQueue_seqs (p q : Nat) (x : Queue) : (s.setQueue p q x).seqs = s.seqs := rfl
@[simp] theorem State.setQueue_cores (p q : Nat) (x : Queue) : (s.setQueue p q x).cores = s.cores := rfl
@[simp] theorem State.setQueue_dram (p q : Nat) (x : Queue) : (s.setQueue p q x).dram = s.dram := rfl
@[simp] theorem State.setQueue_poison (p q : Nat) (x : Queue) : (s.setQueue p q x).poison = s.poison := rfl
@[simp] theorem State.setQueue_stks (p q : Nat) (x : Queue) : (s.setQueue p q x).stks = s.stks := rfl
@[simp] theorem State.setQueue_nmeXfers (p q : Nat) (x : Queue) : (s.setQueue p q x).nmeXfers = s.nmeXfers := rfl
@[simp] theorem State.setQueue_serial (p q : Nat) (x : Queue) : (s.setQueue p q x).serial = s.serial := rfl
@[simp] theorem State.setQueue_keys (p q : Nat) (x : Queue) : (s.setQueue p q x).keys = s.keys := rfl
@[simp] theorem State.setQueue_keeper (p q : Nat) (x : Queue) : (s.setQueue p q x).keeper = s.keeper := rfl
@[simp] theorem State.setQueue_sepia (p q : Nat) (x : Queue) : (s.setQueue p q x).sepia = s.sepia := rfl
@[simp] theorem State.setQueue_counts (p q : Nat) (x : Queue) : (s.setQueue p q x).counts = s.counts := rfl
@[simp] theorem State.setQueue_meters (p q : Nat) (x : Queue) : (s.setQueue p q x).meters = s.meters := rfl
@[simp] theorem State.setQueue_mtr (p q : Nat) (x : Queue) : (s.setQueue p q x).mtr = s.mtr := rfl
@[simp] theorem State.setQueue_tenancies (p q : Nat) (x : Queue) : (s.setQueue p q x).tenancies = s.tenancies := rfl
@[simp] theorem State.setQueue_meterHold (p q : Nat) (x : Queue) : (s.setQueue p q x).meterHold = s.meterHold := rfl
@[simp] theorem State.setQueue_upds (p q : Nat) (x : Queue) : (s.setQueue p q x).upds = s.upds := rfl
@[simp] theorem State.setQueue_ringAdv (p q : Nat) (x : Queue) : (s.setQueue p q x).ringAdv = s.ringAdv := rfl
@[simp] theorem State.setQueue_ports (p q : Nat) (x : Queue) : (s.setQueue p q x).ports = s.ports := rfl
@[simp] theorem State.setQueue_wins (p q : Nat) (x : Queue) : (s.setQueue p q x).wins = s.wins := rfl
@[simp] theorem State.setQueue_lakes (p q : Nat) (x : Queue) : (s.setQueue p q x).lakes = s.lakes := rfl
@[simp] theorem State.setQueue_ccs (p q : Nat) (x : Queue) : (s.setQueue p q x).ccs = s.ccs := rfl
@[simp] theorem State.setQueue_launches (p q : Nat) (x : Queue) : (s.setQueue p q x).launches = s.launches := rfl
@[simp] theorem State.setQueue_arbs (p q : Nat) (x : Queue) : (s.setQueue p q x).arbs = s.arbs := rfl
@[simp] theorem State.setQueue_dmas (p q : Nat) (x : Queue) : (s.setQueue p q x).dmas = s.dmas := rfl
@[simp] theorem State.setQueue_events (p q : Nat) (x : Queue) : (s.setQueue p q x).events = s.events := rfl
@[simp] theorem State.setQueue_eventRcv (p q : Nat) (x : Queue) : (s.setQueue p q x).eventRcv = s.eventRcv := rfl
@[simp] theorem State.setQueue_thermAlert (p q : Nat) (x : Queue) : (s.setQueue p q x).thermAlert = s.thermAlert := rfl
@[simp] theorem State.setQueue_trayOfs (p q : Nat) (x : Queue) : (s.setQueue p q x).trayOfs = s.trayOfs := rfl
@[simp] theorem State.setQueue_trayRef (p q : Nat) (x : Queue) : (s.setQueue p q x).trayRef = s.trayRef := rfl
@[simp] theorem State.setQueue_trayAt (p q : Nat) (x : Queue) : (s.setQueue p q x).trayAt = s.trayAt := rfl
@[simp] theorem State.setQueue_timeOfs (p q : Nat) (x : Queue) : (s.setQueue p q x).timeOfs = s.timeOfs := rfl
@[simp] theorem State.setQueue_ofsSet (p q : Nat) (x : Queue) : (s.setQueue p q x).ofsSet = s.ofsSet := rfl
@[simp] theorem State.setQueue_coreMap (p q : Nat) (x : Queue) : (s.setQueue p q x).coreMap = s.coreMap := rfl
@[simp] theorem State.setQueue_haltReq (p q : Nat) (x : Queue) : (s.setQueue p q x).haltReq = s.haltReq := rfl
@[simp] theorem State.setQueue_halted (p q : Nat) (x : Queue) : (s.setQueue p q x).halted = s.halted := rfl
@[simp] theorem State.setQueue_haltDone (p q : Nat) (x : Queue) : (s.setQueue p q x).haltDone = s.haltDone := rfl
@[simp] theorem State.setQueue_tray (p q : Nat) (x : Queue) : (s.setQueue p q x).tray = s.tray := rfl
@[simp] theorem State.setQueue_power (p q : Nat) (x : Queue) : (s.setQueue p q x).power = s.power := rfl
@[simp] theorem State.setQueue_fuses (p q : Nat) (x : Queue) : (s.setQueue p q x).fuses = s.fuses := rfl
@[simp] theorem State.setQueue_dynAddr (p q : Nat) (x : Queue) : (s.setQueue p q x).dynAddr = s.dynAddr := rfl
@[simp] theorem State.setQueue_freezeAt (p q : Nat) (x : Queue) : (s.setQueue p q x).freezeAt = s.freezeAt := rfl
@[simp] theorem State.setQueue_dumps (p q : Nat) (x : Queue) : (s.setQueue p q x).dumps = s.dumps := rfl
@[simp] theorem State.setQueue_mse (p q : Nat) (x : Queue) : (s.setQueue p q x).mse = s.mse := rfl
@[simp] theorem State.setQueue_vfs (p q : Nat) (x : Queue) : (s.setQueue p q x).vfs = s.vfs := rfl
@[simp] theorem State.setQueue_crs (p q : Nat) (x : Queue) : (s.setQueue p q x).crs = s.crs := rfl
@[simp] theorem State.setQueue_flash (p q : Nat) (x : Queue) : (s.setQueue p q x).flash = s.flash := rfl
@[simp] theorem State.setQueue_flashActive (p q : Nat) (x : Queue) : (s.setQueue p q x).flashActive = s.flashActive := rfl
@[simp] theorem State.setQueue_flashPending (p q : Nat) (x : Queue) : (s.setQueue p q x).flashPending = s.flashPending := rfl
@[simp] theorem State.setQueue_pending (p q : Nat) (x : Queue) : (s.setQueue p q x).pending = s.pending := rfl

/-! `State.setPort` writes `ports` alone. -/

@[simp] theorem State.setPort_now (n : Nat) (x : Port) : (s.setPort n x).now = s.now := rfl
@[simp] theorem State.setPort_regs (n : Nat) (x : Port) : (s.setPort n x).regs = s.regs := rfl
@[simp] theorem State.setPort_shadows (n : Nat) (x : Port) : (s.setPort n x).shadows = s.shadows := rfl
@[simp] theorem State.setPort_out (n : Nat) (x : Port) : (s.setPort n x).out = s.out := rfl
@[simp] theorem State.setPort_seqs (n : Nat) (x : Port) : (s.setPort n x).seqs = s.seqs := rfl
@[simp] theorem State.setPort_cores (n : Nat) (x : Port) : (s.setPort n x).cores = s.cores := rfl
@[simp] theorem State.setPort_dram (n : Nat) (x : Port) : (s.setPort n x).dram = s.dram := rfl
@[simp] theorem State.setPort_poison (n : Nat) (x : Port) : (s.setPort n x).poison = s.poison := rfl
@[simp] theorem State.setPort_stks (n : Nat) (x : Port) : (s.setPort n x).stks = s.stks := rfl
@[simp] theorem State.setPort_nmeXfers (n : Nat) (x : Port) : (s.setPort n x).nmeXfers = s.nmeXfers := rfl
@[simp] theorem State.setPort_serial (n : Nat) (x : Port) : (s.setPort n x).serial = s.serial := rfl
@[simp] theorem State.setPort_keys (n : Nat) (x : Port) : (s.setPort n x).keys = s.keys := rfl
@[simp] theorem State.setPort_keeper (n : Nat) (x : Port) : (s.setPort n x).keeper = s.keeper := rfl
@[simp] theorem State.setPort_sepia (n : Nat) (x : Port) : (s.setPort n x).sepia = s.sepia := rfl
@[simp] theorem State.setPort_counts (n : Nat) (x : Port) : (s.setPort n x).counts = s.counts := rfl
@[simp] theorem State.setPort_meters (n : Nat) (x : Port) : (s.setPort n x).meters = s.meters := rfl
@[simp] theorem State.setPort_mtr (n : Nat) (x : Port) : (s.setPort n x).mtr = s.mtr := rfl
@[simp] theorem State.setPort_tenancies (n : Nat) (x : Port) : (s.setPort n x).tenancies = s.tenancies := rfl
@[simp] theorem State.setPort_meterHold (n : Nat) (x : Port) : (s.setPort n x).meterHold = s.meterHold := rfl
@[simp] theorem State.setPort_upds (n : Nat) (x : Port) : (s.setPort n x).upds = s.upds := rfl
@[simp] theorem State.setPort_ringAdv (n : Nat) (x : Port) : (s.setPort n x).ringAdv = s.ringAdv := rfl
@[simp] theorem State.setPort_wins (n : Nat) (x : Port) : (s.setPort n x).wins = s.wins := rfl
@[simp] theorem State.setPort_lakes (n : Nat) (x : Port) : (s.setPort n x).lakes = s.lakes := rfl
@[simp] theorem State.setPort_ccs (n : Nat) (x : Port) : (s.setPort n x).ccs = s.ccs := rfl
@[simp] theorem State.setPort_launches (n : Nat) (x : Port) : (s.setPort n x).launches = s.launches := rfl
@[simp] theorem State.setPort_queues (n : Nat) (x : Port) : (s.setPort n x).queues = s.queues := rfl
@[simp] theorem State.setPort_arbs (n : Nat) (x : Port) : (s.setPort n x).arbs = s.arbs := rfl
@[simp] theorem State.setPort_dmas (n : Nat) (x : Port) : (s.setPort n x).dmas = s.dmas := rfl
@[simp] theorem State.setPort_events (n : Nat) (x : Port) : (s.setPort n x).events = s.events := rfl
@[simp] theorem State.setPort_eventRcv (n : Nat) (x : Port) : (s.setPort n x).eventRcv = s.eventRcv := rfl
@[simp] theorem State.setPort_thermAlert (n : Nat) (x : Port) : (s.setPort n x).thermAlert = s.thermAlert := rfl
@[simp] theorem State.setPort_trayOfs (n : Nat) (x : Port) : (s.setPort n x).trayOfs = s.trayOfs := rfl
@[simp] theorem State.setPort_trayRef (n : Nat) (x : Port) : (s.setPort n x).trayRef = s.trayRef := rfl
@[simp] theorem State.setPort_trayAt (n : Nat) (x : Port) : (s.setPort n x).trayAt = s.trayAt := rfl
@[simp] theorem State.setPort_timeOfs (n : Nat) (x : Port) : (s.setPort n x).timeOfs = s.timeOfs := rfl
@[simp] theorem State.setPort_ofsSet (n : Nat) (x : Port) : (s.setPort n x).ofsSet = s.ofsSet := rfl
@[simp] theorem State.setPort_coreMap (n : Nat) (x : Port) : (s.setPort n x).coreMap = s.coreMap := rfl
@[simp] theorem State.setPort_haltReq (n : Nat) (x : Port) : (s.setPort n x).haltReq = s.haltReq := rfl
@[simp] theorem State.setPort_halted (n : Nat) (x : Port) : (s.setPort n x).halted = s.halted := rfl
@[simp] theorem State.setPort_haltDone (n : Nat) (x : Port) : (s.setPort n x).haltDone = s.haltDone := rfl
@[simp] theorem State.setPort_tray (n : Nat) (x : Port) : (s.setPort n x).tray = s.tray := rfl
@[simp] theorem State.setPort_power (n : Nat) (x : Port) : (s.setPort n x).power = s.power := rfl
@[simp] theorem State.setPort_fuses (n : Nat) (x : Port) : (s.setPort n x).fuses = s.fuses := rfl
@[simp] theorem State.setPort_dynAddr (n : Nat) (x : Port) : (s.setPort n x).dynAddr = s.dynAddr := rfl
@[simp] theorem State.setPort_freezeAt (n : Nat) (x : Port) : (s.setPort n x).freezeAt = s.freezeAt := rfl
@[simp] theorem State.setPort_dumps (n : Nat) (x : Port) : (s.setPort n x).dumps = s.dumps := rfl
@[simp] theorem State.setPort_mse (n : Nat) (x : Port) : (s.setPort n x).mse = s.mse := rfl
@[simp] theorem State.setPort_vfs (n : Nat) (x : Port) : (s.setPort n x).vfs = s.vfs := rfl
@[simp] theorem State.setPort_crs (n : Nat) (x : Port) : (s.setPort n x).crs = s.crs := rfl
@[simp] theorem State.setPort_flash (n : Nat) (x : Port) : (s.setPort n x).flash = s.flash := rfl
@[simp] theorem State.setPort_flashActive (n : Nat) (x : Port) : (s.setPort n x).flashActive = s.flashActive := rfl
@[simp] theorem State.setPort_flashPending (n : Nat) (x : Port) : (s.setPort n x).flashPending = s.flashPending := rfl
@[simp] theorem State.setPort_pending (n : Nat) (x : Port) : (s.setPort n x).pending = s.pending := rfl

/-! `State.setWin` writes `wins` alone. -/

@[simp] theorem State.setWin_now (p : Nat) (x : Wins) : (s.setWin p x).now = s.now := rfl
@[simp] theorem State.setWin_regs (p : Nat) (x : Wins) : (s.setWin p x).regs = s.regs := rfl
@[simp] theorem State.setWin_shadows (p : Nat) (x : Wins) : (s.setWin p x).shadows = s.shadows := rfl
@[simp] theorem State.setWin_out (p : Nat) (x : Wins) : (s.setWin p x).out = s.out := rfl
@[simp] theorem State.setWin_seqs (p : Nat) (x : Wins) : (s.setWin p x).seqs = s.seqs := rfl
@[simp] theorem State.setWin_cores (p : Nat) (x : Wins) : (s.setWin p x).cores = s.cores := rfl
@[simp] theorem State.setWin_dram (p : Nat) (x : Wins) : (s.setWin p x).dram = s.dram := rfl
@[simp] theorem State.setWin_poison (p : Nat) (x : Wins) : (s.setWin p x).poison = s.poison := rfl
@[simp] theorem State.setWin_stks (p : Nat) (x : Wins) : (s.setWin p x).stks = s.stks := rfl
@[simp] theorem State.setWin_nmeXfers (p : Nat) (x : Wins) : (s.setWin p x).nmeXfers = s.nmeXfers := rfl
@[simp] theorem State.setWin_serial (p : Nat) (x : Wins) : (s.setWin p x).serial = s.serial := rfl
@[simp] theorem State.setWin_keys (p : Nat) (x : Wins) : (s.setWin p x).keys = s.keys := rfl
@[simp] theorem State.setWin_keeper (p : Nat) (x : Wins) : (s.setWin p x).keeper = s.keeper := rfl
@[simp] theorem State.setWin_sepia (p : Nat) (x : Wins) : (s.setWin p x).sepia = s.sepia := rfl
@[simp] theorem State.setWin_counts (p : Nat) (x : Wins) : (s.setWin p x).counts = s.counts := rfl
@[simp] theorem State.setWin_meters (p : Nat) (x : Wins) : (s.setWin p x).meters = s.meters := rfl
@[simp] theorem State.setWin_mtr (p : Nat) (x : Wins) : (s.setWin p x).mtr = s.mtr := rfl
@[simp] theorem State.setWin_tenancies (p : Nat) (x : Wins) : (s.setWin p x).tenancies = s.tenancies := rfl
@[simp] theorem State.setWin_meterHold (p : Nat) (x : Wins) : (s.setWin p x).meterHold = s.meterHold := rfl
@[simp] theorem State.setWin_upds (p : Nat) (x : Wins) : (s.setWin p x).upds = s.upds := rfl
@[simp] theorem State.setWin_ringAdv (p : Nat) (x : Wins) : (s.setWin p x).ringAdv = s.ringAdv := rfl
@[simp] theorem State.setWin_ports (p : Nat) (x : Wins) : (s.setWin p x).ports = s.ports := rfl
@[simp] theorem State.setWin_lakes (p : Nat) (x : Wins) : (s.setWin p x).lakes = s.lakes := rfl
@[simp] theorem State.setWin_ccs (p : Nat) (x : Wins) : (s.setWin p x).ccs = s.ccs := rfl
@[simp] theorem State.setWin_launches (p : Nat) (x : Wins) : (s.setWin p x).launches = s.launches := rfl
@[simp] theorem State.setWin_queues (p : Nat) (x : Wins) : (s.setWin p x).queues = s.queues := rfl
@[simp] theorem State.setWin_arbs (p : Nat) (x : Wins) : (s.setWin p x).arbs = s.arbs := rfl
@[simp] theorem State.setWin_dmas (p : Nat) (x : Wins) : (s.setWin p x).dmas = s.dmas := rfl
@[simp] theorem State.setWin_events (p : Nat) (x : Wins) : (s.setWin p x).events = s.events := rfl
@[simp] theorem State.setWin_eventRcv (p : Nat) (x : Wins) : (s.setWin p x).eventRcv = s.eventRcv := rfl
@[simp] theorem State.setWin_thermAlert (p : Nat) (x : Wins) : (s.setWin p x).thermAlert = s.thermAlert := rfl
@[simp] theorem State.setWin_trayOfs (p : Nat) (x : Wins) : (s.setWin p x).trayOfs = s.trayOfs := rfl
@[simp] theorem State.setWin_trayRef (p : Nat) (x : Wins) : (s.setWin p x).trayRef = s.trayRef := rfl
@[simp] theorem State.setWin_trayAt (p : Nat) (x : Wins) : (s.setWin p x).trayAt = s.trayAt := rfl
@[simp] theorem State.setWin_timeOfs (p : Nat) (x : Wins) : (s.setWin p x).timeOfs = s.timeOfs := rfl
@[simp] theorem State.setWin_ofsSet (p : Nat) (x : Wins) : (s.setWin p x).ofsSet = s.ofsSet := rfl
@[simp] theorem State.setWin_coreMap (p : Nat) (x : Wins) : (s.setWin p x).coreMap = s.coreMap := rfl
@[simp] theorem State.setWin_haltReq (p : Nat) (x : Wins) : (s.setWin p x).haltReq = s.haltReq := rfl
@[simp] theorem State.setWin_halted (p : Nat) (x : Wins) : (s.setWin p x).halted = s.halted := rfl
@[simp] theorem State.setWin_haltDone (p : Nat) (x : Wins) : (s.setWin p x).haltDone = s.haltDone := rfl
@[simp] theorem State.setWin_tray (p : Nat) (x : Wins) : (s.setWin p x).tray = s.tray := rfl
@[simp] theorem State.setWin_power (p : Nat) (x : Wins) : (s.setWin p x).power = s.power := rfl
@[simp] theorem State.setWin_fuses (p : Nat) (x : Wins) : (s.setWin p x).fuses = s.fuses := rfl
@[simp] theorem State.setWin_dynAddr (p : Nat) (x : Wins) : (s.setWin p x).dynAddr = s.dynAddr := rfl
@[simp] theorem State.setWin_freezeAt (p : Nat) (x : Wins) : (s.setWin p x).freezeAt = s.freezeAt := rfl
@[simp] theorem State.setWin_dumps (p : Nat) (x : Wins) : (s.setWin p x).dumps = s.dumps := rfl
@[simp] theorem State.setWin_mse (p : Nat) (x : Wins) : (s.setWin p x).mse = s.mse := rfl
@[simp] theorem State.setWin_vfs (p : Nat) (x : Wins) : (s.setWin p x).vfs = s.vfs := rfl
@[simp] theorem State.setWin_crs (p : Nat) (x : Wins) : (s.setWin p x).crs = s.crs := rfl
@[simp] theorem State.setWin_flash (p : Nat) (x : Wins) : (s.setWin p x).flash = s.flash := rfl
@[simp] theorem State.setWin_flashActive (p : Nat) (x : Wins) : (s.setWin p x).flashActive = s.flashActive := rfl
@[simp] theorem State.setWin_flashPending (p : Nat) (x : Wins) : (s.setWin p x).flashPending = s.flashPending := rfl
@[simp] theorem State.setWin_pending (p : Nat) (x : Wins) : (s.setWin p x).pending = s.pending := rfl

/-! `State.setLake` writes `lakes` alone. -/

@[simp] theorem State.setLake_now (p : Nat) (x : Lake) : (s.setLake p x).now = s.now := rfl
@[simp] theorem State.setLake_regs (p : Nat) (x : Lake) : (s.setLake p x).regs = s.regs := rfl
@[simp] theorem State.setLake_shadows (p : Nat) (x : Lake) : (s.setLake p x).shadows = s.shadows := rfl
@[simp] theorem State.setLake_out (p : Nat) (x : Lake) : (s.setLake p x).out = s.out := rfl
@[simp] theorem State.setLake_seqs (p : Nat) (x : Lake) : (s.setLake p x).seqs = s.seqs := rfl
@[simp] theorem State.setLake_cores (p : Nat) (x : Lake) : (s.setLake p x).cores = s.cores := rfl
@[simp] theorem State.setLake_dram (p : Nat) (x : Lake) : (s.setLake p x).dram = s.dram := rfl
@[simp] theorem State.setLake_poison (p : Nat) (x : Lake) : (s.setLake p x).poison = s.poison := rfl
@[simp] theorem State.setLake_stks (p : Nat) (x : Lake) : (s.setLake p x).stks = s.stks := rfl
@[simp] theorem State.setLake_nmeXfers (p : Nat) (x : Lake) : (s.setLake p x).nmeXfers = s.nmeXfers := rfl
@[simp] theorem State.setLake_serial (p : Nat) (x : Lake) : (s.setLake p x).serial = s.serial := rfl
@[simp] theorem State.setLake_keys (p : Nat) (x : Lake) : (s.setLake p x).keys = s.keys := rfl
@[simp] theorem State.setLake_keeper (p : Nat) (x : Lake) : (s.setLake p x).keeper = s.keeper := rfl
@[simp] theorem State.setLake_sepia (p : Nat) (x : Lake) : (s.setLake p x).sepia = s.sepia := rfl
@[simp] theorem State.setLake_counts (p : Nat) (x : Lake) : (s.setLake p x).counts = s.counts := rfl
@[simp] theorem State.setLake_meters (p : Nat) (x : Lake) : (s.setLake p x).meters = s.meters := rfl
@[simp] theorem State.setLake_mtr (p : Nat) (x : Lake) : (s.setLake p x).mtr = s.mtr := rfl
@[simp] theorem State.setLake_tenancies (p : Nat) (x : Lake) : (s.setLake p x).tenancies = s.tenancies := rfl
@[simp] theorem State.setLake_meterHold (p : Nat) (x : Lake) : (s.setLake p x).meterHold = s.meterHold := rfl
@[simp] theorem State.setLake_upds (p : Nat) (x : Lake) : (s.setLake p x).upds = s.upds := rfl
@[simp] theorem State.setLake_ringAdv (p : Nat) (x : Lake) : (s.setLake p x).ringAdv = s.ringAdv := rfl
@[simp] theorem State.setLake_ports (p : Nat) (x : Lake) : (s.setLake p x).ports = s.ports := rfl
@[simp] theorem State.setLake_wins (p : Nat) (x : Lake) : (s.setLake p x).wins = s.wins := rfl
@[simp] theorem State.setLake_ccs (p : Nat) (x : Lake) : (s.setLake p x).ccs = s.ccs := rfl
@[simp] theorem State.setLake_launches (p : Nat) (x : Lake) : (s.setLake p x).launches = s.launches := rfl
@[simp] theorem State.setLake_queues (p : Nat) (x : Lake) : (s.setLake p x).queues = s.queues := rfl
@[simp] theorem State.setLake_arbs (p : Nat) (x : Lake) : (s.setLake p x).arbs = s.arbs := rfl
@[simp] theorem State.setLake_dmas (p : Nat) (x : Lake) : (s.setLake p x).dmas = s.dmas := rfl
@[simp] theorem State.setLake_events (p : Nat) (x : Lake) : (s.setLake p x).events = s.events := rfl
@[simp] theorem State.setLake_eventRcv (p : Nat) (x : Lake) : (s.setLake p x).eventRcv = s.eventRcv := rfl
@[simp] theorem State.setLake_thermAlert (p : Nat) (x : Lake) : (s.setLake p x).thermAlert = s.thermAlert := rfl
@[simp] theorem State.setLake_trayOfs (p : Nat) (x : Lake) : (s.setLake p x).trayOfs = s.trayOfs := rfl
@[simp] theorem State.setLake_trayRef (p : Nat) (x : Lake) : (s.setLake p x).trayRef = s.trayRef := rfl
@[simp] theorem State.setLake_trayAt (p : Nat) (x : Lake) : (s.setLake p x).trayAt = s.trayAt := rfl
@[simp] theorem State.setLake_timeOfs (p : Nat) (x : Lake) : (s.setLake p x).timeOfs = s.timeOfs := rfl
@[simp] theorem State.setLake_ofsSet (p : Nat) (x : Lake) : (s.setLake p x).ofsSet = s.ofsSet := rfl
@[simp] theorem State.setLake_coreMap (p : Nat) (x : Lake) : (s.setLake p x).coreMap = s.coreMap := rfl
@[simp] theorem State.setLake_haltReq (p : Nat) (x : Lake) : (s.setLake p x).haltReq = s.haltReq := rfl
@[simp] theorem State.setLake_halted (p : Nat) (x : Lake) : (s.setLake p x).halted = s.halted := rfl
@[simp] theorem State.setLake_haltDone (p : Nat) (x : Lake) : (s.setLake p x).haltDone = s.haltDone := rfl
@[simp] theorem State.setLake_tray (p : Nat) (x : Lake) : (s.setLake p x).tray = s.tray := rfl
@[simp] theorem State.setLake_power (p : Nat) (x : Lake) : (s.setLake p x).power = s.power := rfl
@[simp] theorem State.setLake_fuses (p : Nat) (x : Lake) : (s.setLake p x).fuses = s.fuses := rfl
@[simp] theorem State.setLake_dynAddr (p : Nat) (x : Lake) : (s.setLake p x).dynAddr = s.dynAddr := rfl
@[simp] theorem State.setLake_freezeAt (p : Nat) (x : Lake) : (s.setLake p x).freezeAt = s.freezeAt := rfl
@[simp] theorem State.setLake_dumps (p : Nat) (x : Lake) : (s.setLake p x).dumps = s.dumps := rfl
@[simp] theorem State.setLake_mse (p : Nat) (x : Lake) : (s.setLake p x).mse = s.mse := rfl
@[simp] theorem State.setLake_vfs (p : Nat) (x : Lake) : (s.setLake p x).vfs = s.vfs := rfl
@[simp] theorem State.setLake_crs (p : Nat) (x : Lake) : (s.setLake p x).crs = s.crs := rfl
@[simp] theorem State.setLake_flash (p : Nat) (x : Lake) : (s.setLake p x).flash = s.flash := rfl
@[simp] theorem State.setLake_flashActive (p : Nat) (x : Lake) : (s.setLake p x).flashActive = s.flashActive := rfl
@[simp] theorem State.setLake_flashPending (p : Nat) (x : Lake) : (s.setLake p x).flashPending = s.flashPending := rfl
@[simp] theorem State.setLake_pending (p : Nat) (x : Lake) : (s.setLake p x).pending = s.pending := rfl

/-! `State.setCc` writes `ccs` alone. -/

@[simp] theorem State.setCc_now (p ch : Nat) (x : Option Launch) : (s.setCc p ch x).now = s.now := rfl
@[simp] theorem State.setCc_regs (p ch : Nat) (x : Option Launch) : (s.setCc p ch x).regs = s.regs := rfl
@[simp] theorem State.setCc_shadows (p ch : Nat) (x : Option Launch) : (s.setCc p ch x).shadows = s.shadows := rfl
@[simp] theorem State.setCc_out (p ch : Nat) (x : Option Launch) : (s.setCc p ch x).out = s.out := rfl
@[simp] theorem State.setCc_seqs (p ch : Nat) (x : Option Launch) : (s.setCc p ch x).seqs = s.seqs := rfl
@[simp] theorem State.setCc_cores (p ch : Nat) (x : Option Launch) : (s.setCc p ch x).cores = s.cores := rfl
@[simp] theorem State.setCc_dram (p ch : Nat) (x : Option Launch) : (s.setCc p ch x).dram = s.dram := rfl
@[simp] theorem State.setCc_poison (p ch : Nat) (x : Option Launch) : (s.setCc p ch x).poison = s.poison := rfl
@[simp] theorem State.setCc_stks (p ch : Nat) (x : Option Launch) : (s.setCc p ch x).stks = s.stks := rfl
@[simp] theorem State.setCc_nmeXfers (p ch : Nat) (x : Option Launch) : (s.setCc p ch x).nmeXfers = s.nmeXfers := rfl
@[simp] theorem State.setCc_serial (p ch : Nat) (x : Option Launch) : (s.setCc p ch x).serial = s.serial := rfl
@[simp] theorem State.setCc_keys (p ch : Nat) (x : Option Launch) : (s.setCc p ch x).keys = s.keys := rfl
@[simp] theorem State.setCc_keeper (p ch : Nat) (x : Option Launch) : (s.setCc p ch x).keeper = s.keeper := rfl
@[simp] theorem State.setCc_sepia (p ch : Nat) (x : Option Launch) : (s.setCc p ch x).sepia = s.sepia := rfl
@[simp] theorem State.setCc_counts (p ch : Nat) (x : Option Launch) : (s.setCc p ch x).counts = s.counts := rfl
@[simp] theorem State.setCc_meters (p ch : Nat) (x : Option Launch) : (s.setCc p ch x).meters = s.meters := rfl
@[simp] theorem State.setCc_mtr (p ch : Nat) (x : Option Launch) : (s.setCc p ch x).mtr = s.mtr := rfl
@[simp] theorem State.setCc_tenancies (p ch : Nat) (x : Option Launch) : (s.setCc p ch x).tenancies = s.tenancies := rfl
@[simp] theorem State.setCc_meterHold (p ch : Nat) (x : Option Launch) : (s.setCc p ch x).meterHold = s.meterHold := rfl
@[simp] theorem State.setCc_upds (p ch : Nat) (x : Option Launch) : (s.setCc p ch x).upds = s.upds := rfl
@[simp] theorem State.setCc_ringAdv (p ch : Nat) (x : Option Launch) : (s.setCc p ch x).ringAdv = s.ringAdv := rfl
@[simp] theorem State.setCc_ports (p ch : Nat) (x : Option Launch) : (s.setCc p ch x).ports = s.ports := rfl
@[simp] theorem State.setCc_wins (p ch : Nat) (x : Option Launch) : (s.setCc p ch x).wins = s.wins := rfl
@[simp] theorem State.setCc_lakes (p ch : Nat) (x : Option Launch) : (s.setCc p ch x).lakes = s.lakes := rfl
@[simp] theorem State.setCc_launches (p ch : Nat) (x : Option Launch) : (s.setCc p ch x).launches = s.launches := rfl
@[simp] theorem State.setCc_queues (p ch : Nat) (x : Option Launch) : (s.setCc p ch x).queues = s.queues := rfl
@[simp] theorem State.setCc_arbs (p ch : Nat) (x : Option Launch) : (s.setCc p ch x).arbs = s.arbs := rfl
@[simp] theorem State.setCc_dmas (p ch : Nat) (x : Option Launch) : (s.setCc p ch x).dmas = s.dmas := rfl
@[simp] theorem State.setCc_events (p ch : Nat) (x : Option Launch) : (s.setCc p ch x).events = s.events := rfl
@[simp] theorem State.setCc_eventRcv (p ch : Nat) (x : Option Launch) : (s.setCc p ch x).eventRcv = s.eventRcv := rfl
@[simp] theorem State.setCc_thermAlert (p ch : Nat) (x : Option Launch) : (s.setCc p ch x).thermAlert = s.thermAlert := rfl
@[simp] theorem State.setCc_trayOfs (p ch : Nat) (x : Option Launch) : (s.setCc p ch x).trayOfs = s.trayOfs := rfl
@[simp] theorem State.setCc_trayRef (p ch : Nat) (x : Option Launch) : (s.setCc p ch x).trayRef = s.trayRef := rfl
@[simp] theorem State.setCc_trayAt (p ch : Nat) (x : Option Launch) : (s.setCc p ch x).trayAt = s.trayAt := rfl
@[simp] theorem State.setCc_timeOfs (p ch : Nat) (x : Option Launch) : (s.setCc p ch x).timeOfs = s.timeOfs := rfl
@[simp] theorem State.setCc_ofsSet (p ch : Nat) (x : Option Launch) : (s.setCc p ch x).ofsSet = s.ofsSet := rfl
@[simp] theorem State.setCc_coreMap (p ch : Nat) (x : Option Launch) : (s.setCc p ch x).coreMap = s.coreMap := rfl
@[simp] theorem State.setCc_haltReq (p ch : Nat) (x : Option Launch) : (s.setCc p ch x).haltReq = s.haltReq := rfl
@[simp] theorem State.setCc_halted (p ch : Nat) (x : Option Launch) : (s.setCc p ch x).halted = s.halted := rfl
@[simp] theorem State.setCc_haltDone (p ch : Nat) (x : Option Launch) : (s.setCc p ch x).haltDone = s.haltDone := rfl
@[simp] theorem State.setCc_tray (p ch : Nat) (x : Option Launch) : (s.setCc p ch x).tray = s.tray := rfl
@[simp] theorem State.setCc_power (p ch : Nat) (x : Option Launch) : (s.setCc p ch x).power = s.power := rfl
@[simp] theorem State.setCc_fuses (p ch : Nat) (x : Option Launch) : (s.setCc p ch x).fuses = s.fuses := rfl
@[simp] theorem State.setCc_dynAddr (p ch : Nat) (x : Option Launch) : (s.setCc p ch x).dynAddr = s.dynAddr := rfl
@[simp] theorem State.setCc_freezeAt (p ch : Nat) (x : Option Launch) : (s.setCc p ch x).freezeAt = s.freezeAt := rfl
@[simp] theorem State.setCc_dumps (p ch : Nat) (x : Option Launch) : (s.setCc p ch x).dumps = s.dumps := rfl
@[simp] theorem State.setCc_mse (p ch : Nat) (x : Option Launch) : (s.setCc p ch x).mse = s.mse := rfl
@[simp] theorem State.setCc_vfs (p ch : Nat) (x : Option Launch) : (s.setCc p ch x).vfs = s.vfs := rfl
@[simp] theorem State.setCc_crs (p ch : Nat) (x : Option Launch) : (s.setCc p ch x).crs = s.crs := rfl
@[simp] theorem State.setCc_flash (p ch : Nat) (x : Option Launch) : (s.setCc p ch x).flash = s.flash := rfl
@[simp] theorem State.setCc_flashActive (p ch : Nat) (x : Option Launch) : (s.setCc p ch x).flashActive = s.flashActive := rfl
@[simp] theorem State.setCc_flashPending (p ch : Nat) (x : Option Launch) : (s.setCc p ch x).flashPending = s.flashPending := rfl
@[simp] theorem State.setCc_pending (p ch : Nat) (x : Option Launch) : (s.setCc p ch x).pending = s.pending := rfl

/-! Reads after writes of the arrays. -/

@[simp] theorem State.emit_out (o : Output) : (s.emit o).out = o :: s.out := rfl
@[simp] theorem State.sq_setSq (p : Nat) (x : Seq) : (s.setSq p x).sq p = x := SMap.get_set_same ..
theorem State.sq_setSq_ne {p j : Nat} (x : Seq) (h : j ≠ p) : (s.setSq p x).sq j = s.sq j := SMap.get_set_ne _ _ x h
@[simp] theorem State.up_setUp (p : Nat) (x : Upd) : (s.setUp p x).up p = x := SMap.get_set_same ..
theorem State.up_setUp_ne {p j : Nat} (x : Upd) (h : j ≠ p) : (s.setUp p x).up j = s.up j := SMap.get_set_ne _ _ x h
@[simp] theorem State.stk_setStk (k : Nat) (x : Stack) : (s.setStk k x).stk k = x := SMap.get_set_same ..
theorem State.stk_setStk_ne {k j : Nat} (x : Stack) (h : j ≠ k) : (s.setStk k x).stk j = s.stk j := SMap.get_set_ne _ _ x h
@[simp] theorem State.key_setKey (n : Nat) (x : KeySlot) : (s.setKey n x).key n = x := SMap.get_set_same ..
theorem State.key_setKey_ne {n j : Nat} (x : KeySlot) (h : j ≠ n) : (s.setKey n x).key j = s.key j := SMap.get_set_ne _ _ x h
@[simp] theorem State.queue_setQueue (p q : Nat) (x : Queue) : (s.setQueue p q x).queue p q = x := SMap.get_set_same ..
@[simp] theorem State.port_setPort (n : Nat) (x : Port) : (s.setPort n x).port n = x := SMap.get_set_same ..
theorem State.port_setPort_ne {n j : Nat} (x : Port) (h : j ≠ n) : (s.setPort n x).port j = s.port j := SMap.get_set_ne _ _ x h
@[simp] theorem State.win_setWin (p : Nat) (x : Wins) : (s.setWin p x).win p = x := SMap.get_set_same ..
theorem State.win_setWin_ne {p j : Nat} (x : Wins) (h : j ≠ p) : (s.setWin p x).win j = s.win j := SMap.get_set_ne _ _ x h
@[simp] theorem State.lake_setLake (p : Nat) (x : Lake) : (s.setLake p x).lake p = x := SMap.get_set_same ..
theorem State.lake_setLake_ne {p j : Nat} (x : Lake) (h : j ≠ p) : (s.setLake p x).lake j = s.lake j := SMap.get_set_ne _ _ x h
@[simp] theorem State.cc_setCc (p ch : Nat) (x : Option Launch) : (s.setCc p ch x).cc p ch = x := SMap.get_set_same ..

end Sys2Proof.Machine
end

