-- ==== Sys2Proof/Laws/Regs.lean ====
section
/-! SUPPORT. Fields of words, registers, interrupts and the guard of a register access. -/

namespace Sys2Proof.Machine

/-! ## Fields -/

/-- What a field reads after it was put. -/
theorem Fld.get_put_same (f : Fld) (w : Word) (v : Nat) (h : f.lo + f.width ≤ 32) : f.get (f.put w v) = v % 2 ^ f.width := by
  obtain ⟨lo, n⟩ := f
  simp only [Fld.get, Fld.put, bitsOf, BitVec.toNat_ofNat] at *
  have hw := w.isLt
  have h1 : w.toNat / 2 ^ (lo + n) * 2 ^ (lo + n) + v % 2 ^ n * 2 ^ lo + w.toNat % 2 ^ lo
      = 2 ^ lo * (2 ^ n * (w.toNat / 2 ^ (lo + n)) + v % 2 ^ n) + w.toNat % 2 ^ lo := by rw [pow_add]; ring
  have h3 : w.toNat % 2 ^ lo < 2 ^ lo := Nat.mod_lt _ (by positivity)
  have h4 : v % 2 ^ n < 2 ^ n := Nat.mod_lt _ (by positivity)
  have hlt : w.toNat / 2 ^ (lo + n) * 2 ^ (lo + n) + v % 2 ^ n * 2 ^ lo + w.toNat % 2 ^ lo < 2 ^ 32 := by
    have e : (2 : Nat) ^ 32 = 2 ^ (32 - (lo + n)) * 2 ^ (lo + n) := by rw [← pow_add]; congr 1; omega
    have a : w.toNat / 2 ^ (lo + n) + 1 ≤ 2 ^ (32 - (lo + n)) := by
      rw [Nat.succ_le_iff, Nat.div_lt_iff_lt_mul (by positivity), ← e]; exact hw
    have b : v % 2 ^ n * 2 ^ lo + w.toNat % 2 ^ lo < 2 ^ (lo + n) := by
      have e2 : (2 : Nat) ^ (lo + n) = 2 ^ n * 2 ^ lo := by rw [pow_add]; ring
      have := Nat.mul_le_mul_right (2 ^ lo) (Nat.succ_le_of_lt h4)
      rw [Nat.succ_mul] at this
      omega
    have c := Nat.mul_le_mul_right (2 ^ (lo + n)) a
    rw [Nat.succ_mul] at c
    omega
  rw [Nat.mod_eq_of_lt hlt, h1, Nat.mul_add_div (by positivity), Nat.div_eq_of_lt h3, Nat.add_zero, Nat.mul_add_mod,
    Nat.mod_eq_of_lt h4]

theorem Nat.div_pow_mod_eq_testBit (x lo n k : Nat) : (x / 2 ^ lo % 2 ^ n).testBit k = (decide (k < n) && x.testBit (lo + k)) := by
  rw [Nat.testBit_mod_two_pow, Nat.testBit_div_two_pow, Nat.add_comm]

/-- The bits of a word after a field was put. -/
theorem Fld.testBit_put (f : Fld) (w : Word) (v k : Nat) (h : f.lo + f.width ≤ 32) :
    (f.put w v).toNat.testBit k =
      if f.lo ≤ k ∧ k < f.lo + f.width then v.testBit (k - f.lo) else w.toNat.testBit k := by
  obtain ⟨lo, n⟩ := f
  simp only [Fld.put, BitVec.toNat_ofNat] at *
  have hw := w.isLt
  have h3 : w.toNat % 2 ^ lo < 2 ^ lo := Nat.mod_lt _ (by positivity)
  have h4 : v % 2 ^ n < 2 ^ n := Nat.mod_lt _ (by positivity)
  have e1 : v % 2 ^ n * 2 ^ lo + w.toNat % 2 ^ lo < 2 ^ (lo + n) := by
    have e2 : (2 : Nat) ^ (lo + n) = 2 ^ n * 2 ^ lo := by rw [pow_add]; ring
    have := Nat.mul_le_mul_right (2 ^ lo) (Nat.succ_le_of_lt h4)
    rw [Nat.succ_mul] at this
    omega
  rw [Nat.testBit_mod_two_pow, Nat.add_assoc, Nat.mul_comm (w.toNat / _), Nat.testBit_two_pow_mul_add _ e1,
    Nat.mul_comm (v % _), Nat.testBit_two_pow_mul_add _ h3]
  by_cases hk : k < lo
  · have : ¬ lo ≤ k := by omega
    have h32 : k < 32 := by omega
    simp [hk, this, h32, show k < lo + n by omega]
  · have hk' : lo ≤ k := by omega
    by_cases hk2 : k < lo + n
    · have : k - lo < n := by omega
      simp [hk, hk2, hk', this, show k < 32 by omega]
    · simp only [hk2, and_false, if_false]
      rw [Nat.testBit_div_two_pow]
      have : lo + n + (k - (lo + n)) = k := by omega
      rw [show k - (lo + n) + (lo + n) = k by omega]
      by_cases h32 : k < 32
      · simp [h32]
      · simp only [h32, decide_false, Bool.false_and]
        symm
        exact Nat.testBit_lt_two_pow (lt_of_lt_of_le hw (Nat.pow_le_pow_right (by omega) (by omega)))

/-- A field that does not overlap the one put keeps its value. -/
theorem Fld.get_put_ne (f g : Fld) (w : Word) (v : Nat) (h : f.lo + f.width ≤ 32)
    (hd : g.lo + g.width ≤ f.lo ∨ f.lo + f.width ≤ g.lo) : g.get (f.put w v) = g.get w := by
  apply Nat.eq_of_testBit_eq
  intro k
  simp only [Fld.get, bitsOf, Nat.div_pow_mod_eq_testBit, Fld.testBit_put f w v _ h]
  by_cases hk : k < g.width
  · have : ¬ (f.lo ≤ g.lo + k ∧ g.lo + k < f.lo + f.width) := by omega
    simp [hk, this]
  · simp [hk]

/-! ## Registers -/

variable (s : State)

@[simp] theorem State.rd_wr (a : Nat) (w : Word) : (s.wr a w).rd a = w := SMap.get_set_same ..
theorem State.rd_wr_ne {a b : Nat} (w : Word) (h : b ≠ a) : (s.wr a w).rd b = s.rd b := SMap.get_set_ne _ _ w h
@[simp] theorem State.rd_emit (o : Output) (a : Nat) : (s.emit o).rd a = s.rd a := rfl
@[simp] theorem State.rd_fput (a : Nat) (f : Fld) (v : Nat) : (s.fput a f v).rd a = f.put (s.rd a) v := State.rd_wr ..
theorem State.rd_fput_ne {a b : Nat} (f : Fld) (v : Nat) (h : b ≠ a) : (s.fput a f v).rd b = s.rd b := State.rd_wr_ne _ _ h
theorem State.fget_fput (a : Nat) (f : Fld) (v : Nat) (h : f.lo + f.width ≤ 32) : (s.fput a f v).fget a f = v % 2 ^ f.width := by
  simp [State.fget, Fld.get_put_same f _ v h]
theorem State.fget_fput_ne {a b : Nat} (f g : Fld) (v : Nat) (h : b ≠ a) : (s.fput a f v).fget b g = s.fget b g := by
  simp [State.fget, State.rd_fput_ne s f v h]
theorem State.fget_fput_field (a : Nat) (f g : Fld) (v : Nat) (h : f.lo + f.width ≤ 32)
    (hd : g.lo + g.width ≤ f.lo ∨ f.lo + f.width ≤ g.lo) : (s.fput a f v).fget a g = s.fget a g := by
  simp [State.fget, Fld.get_put_ne f g _ v h hd]

/-- An interrupt sets bits of one register and may send one message; every other register keeps its word. -/
theorem State.rd_irq_ne (fn vec sta en bits : Nat) {b : Nat} (h : b ≠ sta) : (s.irq fn vec sta en bits).rd b = s.rd b := by
  unfold State.irq
  dsimp only
  split
  · exact State.rd_wr_ne _ _ h
  · exact State.rd_wr_ne _ _ h
theorem State.rd_irq (fn vec sta en bits : Nat) : (s.irq fn vec sta en bits).rd sta = s.rd sta ||| BitVec.ofNat 32 bits := by
  unfold State.irq
  dsimp only
  split
  · exact State.rd_wr ..
  · exact State.rd_wr ..
theorem State.fget_irq_ne (fn vec sta en bits : Nat) (g : Fld) {b : Nat} (h : b ≠ sta) :
    (s.irq fn vec sta en bits).fget b g = s.fget b g := by simp [State.fget, State.rd_irq_ne s fn vec sta en bits h]

/-! ## The guard of an access -/

/-- An access that reaches its register has its effect. -/
theorem State.access_of_getsTo {s : State} {r : RegReq} {a : Nat} (f : State → State) (h : s.getsTo r a = true) :
    s.access r a f = f s := by
  simp only [State.getsTo, Bool.and_eq_true, Bool.or_eq_true, bne_iff_ne] at h
  obtain ⟨⟨h1, h2⟩, h3⟩ := h
  have h1' : ¬ (s.power.relAt.isNone = true) := by simpa [Option.isSome_iff_ne_none] using h1
  have h2' : ¬ (r.who = 1 ∧ (!s.mgmtUp) = true) := by
    rintro ⟨a, b⟩
    rcases h2 with h2 | h2
    · exact h2 a
    · simp [h2] at b
  rw [State.access, if_neg h1', if_neg h2', if_pos h3]
theorem State.answers_iff {s : State} {r : RegReq} {a : Nat} :
    s.answers r a = true ↔ s.getsTo r a = true ∧ s.domainUp a = true := by simp [State.answers]
theorem State.access_of_answers {s : State} {r : RegReq} {a : Nat} (f : State → State) (h : s.answers r a = true) :
    s.access r a f = f s := State.access_of_getsTo f (State.answers_iff.1 h).1
theorem State.write_of_grants {s : State} {r : RegReq} {a : Nat} (f : State → State) (h : s.grants r a = true) :
    s.write r a f = f s := by
  simp only [State.grants, Bool.and_eq_true, beq_iff_eq] at h
  rw [State.write, State.access_of_answers _ h.1, if_pos ⟨h.2, (State.answers_iff.1 h.1).2⟩]

/-- A write with a byte enable missing changes nothing but that it may be answered. -/
theorem State.write_partial (r : RegReq) (a : Nat) (f : State → State) (h : r.be % 16 ≠ 15) :
    s.write r a f = s ∨ ∃ fn code, s.write r a f = s.emit (.status fn code) := by
  simp only [State.write, State.access, h, if_false]
  split
  · exact .inl rfl
  · split
    · exact .inr ⟨_, _, rfl⟩
    · split
      · exact .inl rfl
      · split
        · exact .inr ⟨_, _, rfl⟩
        · exact .inl rfl

end Sys2Proof.Machine
end

