-- ==== Sys2Proof/WellFormed.lean ====
section
/-! DEFINITION. Which terms of `Instr` are commands: every index within the counts that the spec gives. -/

namespace Sys2Proof

/-- A partition number (R27). -/
def wfPart (p : Nat) : Bool := decide (1 ≤ p ∧ p ≤ 4)
/-- A partition number, or 0 for the device. -/
def wfPart0 (p : Nat) : Bool := decide (p ≤ 4)
/-- A partition-relative logical core (R128). -/
def wfCore (c : Nat) : Bool := decide (c < 128)
/-- A physical core (R251). -/
def wfPcore (c : Nat) : Bool := decide (c < 136)
/-- A matrix engine of a core. -/
def wfMe (e : Nat) : Bool := decide (e < 8)
/-- A Leold port. -/
def wfPort (p : Nat) : Bool := decide (p < 16)
/-- A memory stack. -/
def wfStack (k : Nat) : Bool := decide (k < 8)
/-- A bank of a core's SRAM. -/
def wfBank (b : Nat) : Bool := decide (b < 16)
/-- A macro of a bank (R234). -/
def wfMacro (m : Nat) : Bool := decide (m < 16)
/-- A requester index (R20). -/
def wfReq (r : Nat) : Bool := decide (r < 7)
/-- A PCIe function: 0 PF0, 1 to 4 the VFs. -/
def wfFn (f : Nat) : Bool := decide (f < 5)
/-- A tray slot (R34). -/
def wfTraySlot (k : Nat) : Bool := decide (k < 9)
/-- A ring slot of a core (R224). -/
def wfRing (r : Nat) : Bool := decide (r < 16)
/-- A queue of a partition (R559). -/
def wfQueue (q : Nat) : Bool := decide (q < 64)
/-- A DMA engine (R529). -/
def wfDma (d : Nat) : Bool := decide (d < 16)
/-- A keeper mailbox: 0 management, 1 PF0, 2 to 5 the VFs (R517). -/
def wfBox (b : Nat) : Bool := decide (b < 6)
/-- Byte enables of a dword, and of the high dword of an 8-byte access above them (R17). -/
def wfByteEn (b : Nat) : Bool := decide (b < 256)
def wfU8 (x : Nat) : Bool := decide (x < 256)
def wfU16 (x : Nat) : Bool := decide (x < 65536)
def wfU32 (x : Nat) : Bool := decide (x < 4294967296)
def wfU64 (x : Nat) : Bool := decide (x < 18446744073709551616)
/-- Read errors name a stack, a sector of it (R263) and a kind. -/
def wfReadErrs (l : List ReadErr) : Bool :=
  l.all fun e => wfStack e.stack && decide (e.sector < 268435456 ∧ e.flip.length ≤ 288 ∧ e.found < 16)
/-- Errors of core SRAM name 64-bit words of `n` cores and bits of a codeword (R234). -/
def wfSram (e : SramErrs) (n : Nat) : Bool :=
  e.ue.all (fun a => decide (a < n * 1048576)) && e.ce.all (fun x => decide (x.1 < n * 1048576 ∧ x.2 < 72))
/-- Engine errors name 64-bit words of the core's SRAM, an accumulator memory and the register file (R236). -/
def wfUnitErr (e : UnitErr) : Bool :=
  wfSram e.sram 1 && e.acc.all (fun r => decide (r < 16384)) && e.reg.all (fun r => decide (r < 16384))
/-- A completion status of the host bus. -/
def wfHostRead (h : HostRead) : Bool := decide (h.status < 4)
def wfHostReads (l : List HostRead) : Bool := l.all wfHostRead
/-- A register access by one of the seven requesters. -/
def wfRegReq (r : RegReq) : Bool := wfReq r.who && wfByteEn r.be
/-- A start descriptor of a bundle (R130), a feed (R640) or a direction of a link; a unit of a core. -/
def wfTwo (i : Nat) : Bool := decide (i < 2)
def wfUnit (u : Nat) : Bool := decide (u < 10)
/-- A port of a window: 16 stands for LOOP (R402). -/
def wfWinPort (p : Nat) : Bool := decide (p ≤ 16)
/-- A session's keys are 32 bytes long, and its bindings name partitions (R382). -/
def wfBinds (l : List (Nat × Nat × Nat)) : Bool := l.all fun b => wfPart b.1 && wfPart b.2.1
def wfLinkAuth (a : LinkAuth) : Bool := a.txKey.length == 32 && a.rxKey.length == 32 && wfBinds a.binds

/-- A channel of the collective unit (R422). -/
def wfChan (c : Nat) : Bool := decide (c < 8)

/-- What a row tells apart by number: three kinds; four streams of IDE (R546), four words of a region entry. -/
def wfThree (k : Nat) : Bool := decide (k < 3)
def wfFour (k : Nat) : Bool := decide (k < 4)
/-- An entry of a port's cycle (R372), and a lane of a port. -/
def wfEntry (e : Nat) : Bool := decide (e < 65)
def wfLane (l : Nat) : Bool := decide (l < 8)
/-- A word of a training table, or its version (R366); a word of a slot table. -/
def wfTrainWord (w : Nat) : Bool := decide (w ≤ 32)
def wfSlotWord (w : Nat) : Bool := decide (w < 9)
/-- An entry of the region table (R535). -/
def wfRegion (n : Nat) : Bool := decide (n < 32)
/-- A data row and a physical column of an SRAM macro (R234). -/
def wfRow (r : Nat) : Bool := decide (r < 512)
def wfColumn (c : Nat) : Bool := decide (c < 580)
/-- A codeword of a row and a bit of it (R235). -/
def wfCodeword (w : Nat) : ScrubFinding → Bool
  | .corrected bit => decide (w < 8 ∧ bit < 72)
  | .clean | .uncorrectable => decide (w < 8)
/-- A pseudo-channel of a stack, a bank of it, a sector and a row of the stack (R258, R263). -/
def wfChannel (c : Nat) : Bool := decide (c < 32)
def wfMemBank (b : Nat) : Bool := decide (b < 64)
def wfSector (s : Nat) : Bool := decide (s < 268435456)
def wfMemRow (r : Nat) : Bool := decide (r < 67108864)
/-- A tamper condition (R40): mesh, light, temperature, VBAT. -/
def wfTamper (c : Nat) : Bool := decide (1 ≤ c ∧ c ≤ 4)
/-- A counter of a partition (R771). -/
def wfCounter (k : Nat) : Bool := decide (k < 16)

/-- Every operand lies in the range that its row gives it. -/
def Instr.wellFormed (i : Instr) : Bool :=
  match i with
  | .registerWrite r _ _ errs => wfRegReq r && wfReadErrs errs
  | .rcRead r _ => wfRegReq r
  | .loReadLatch r _ => wfRegReq r
  | .hiReadShadow r _ => wfRegReq r
  | .pairRead8byte r _ => wfRegReq r
  | .pairWrite8byte r _ _ _ => wfRegReq r
  | .accessTimeout r _ _ => wfRegReq r
  | .tamperEvent cause => wfTamper cause
  | .halt => true
  | .haltStopComplete => true
  | .haltCmd r _ => wfRegReq r
  | .limiterEstimate _ _ _ _ _ _ _ => true
  | .limiterCalibration => true
  | .thermalEstimate _ => true
  | .thermtrip => true
  | .singleStep r _ => wfRegReq r
  | .stepHoldWrite r _ => wfRegReq r
  | .fmtTableWrite r p off _ => wfRegReq r && wfPart p && wfU16 off
  | .seqRun r p errs => wfRegReq r && wfPart p && wfReadErrs errs
  | .seqCont r p => wfRegReq r && wfPart p
  | .seqStop r p => wfRegReq r && wfPart p
  | .seqResume r p => wfRegReq r && wfPart p
  | .periodFillComplete p errs => wfPart p && wfReadErrs errs
  | .gateWaitBeat p => wfPart p
  | .gateOpen x => wfPart x.part
  | .schedLost p => wfPart p
  | .catchupLimitWrite r p _ => wfRegReq r && wfPart p
  | .bundleExec p _ => wfPart p
  | .ctlNop p => wfPart p
  | .idle p => wfPart p
  | .fsig p => wfPart p
  | .loopOp p errs => wfPart p && wfReadErrs errs
  | .commit p => wfPart p
  | .slack p _ => wfPart p
  | .endOp p _ => wfPart p
  | .endComplete p => wfPart p
  | .periodEnd p => wfPart p
  | .grpStart p d => wfPart p && wfTwo d
  | .bodyStart p => wfPart p
  | .bodyEnd p core u => wfPart p && wfCore core && wfUnit u
  | .xferMemrd p => wfPart p
  | .xferMemwr p => wfPart p
  | .memTransferComplete p _ errs _ => wfPart p && wfReadErrs errs
  | .xferNme p errs => wfPart p && wfReadErrs errs
  | .lltx p => wfPart p
  | .llrx p => wfPart p
  | .rload p => wfPart p
  | .rloadComplete p _ errs => wfPart p && wfReadErrs errs
  | .xferUpd p errs => wfPart p && wfReadErrs errs
  | .meNop p core e err => wfPart p && wfCore core && wfMe e && wfUnitErr err
  | .wload p core e err => wfPart p && wfCore core && wfMe e && wfUnitErr err
  | .mma p core e err => wfPart p && wfCore core && wfMe e && wfUnitErr err
  | .mout p core e err => wfPart p && wfCore core && wfMe e && wfUnitErr err
  | .veNop p core err => wfPart p && wfCore core && wfUnitErr err
  | .vld p core err => wfPart p && wfCore core && wfUnitErr err
  | .vst p core err => wfPart p && wfCore core && wfUnitErr err
  | .valuAdd p core err => wfPart p && wfCore core && wfUnitErr err
  | .valuSub p core err => wfPart p && wfCore core && wfUnitErr err
  | .valuMul p core err => wfPart p && wfCore core && wfUnitErr err
  | .valuFma p core err => wfPart p && wfCore core && wfUnitErr err
  | .valuMax p core err => wfPart p && wfCore core && wfUnitErr err
  | .valuMin p core err => wfPart p && wfCore core && wfUnitErr err
  | .valuDiv p core err => wfPart p && wfCore core && wfUnitErr err
  | .valuSqrt p core err => wfPart p && wfCore core && wfUnitErr err
  | .valuAbs p core err => wfPart p && wfCore core && wfUnitErr err
  | .valuNeg p core err => wfPart p && wfCore core && wfUnitErr err
  | .valuSel p core err => wfPart p && wfCore core && wfUnitErr err
  | .valuCmpgt p core err => wfPart p && wfCore core && wfUnitErr err
  | .valuMov p core err => wfPart p && wfCore core && wfUnitErr err
  | .vtrExp p core err => wfPart p && wfCore core && wfUnitErr err
  | .vtrExp2 p core err => wfPart p && wfCore core && wfUnitErr err
  | .vtrLog p core err => wfPart p && wfCore core && wfUnitErr err
  | .vtrRecip p core err => wfPart p && wfCore core && wfUnitErr err
  | .vtrRsqrt p core err => wfPart p && wfCore core && wfUnitErr err
  | .vtrTanh p core err => wfPart p && wfCore core && wfUnitErr err
  | .vtrSigmoid p core err => wfPart p && wfCore core && wfUnitErr err
  | .vtrGelu p core err => wfPart p && wfCore core && wfUnitErr err
  | .vtrSin p core err => wfPart p && wfCore core && wfUnitErr err
  | .vtrCos p core err => wfPart p && wfCore core && wfUnitErr err
  | .vredSum p core err => wfPart p && wfCore core && wfUnitErr err
  | .vredMax p core err => wfPart p && wfCore core && wfUnitErr err
  | .vredMin p core err => wfPart p && wfCore core && wfUnitErr err
  | .vredSumsq p core err => wfPart p && wfCore core && wfUnitErr err
  | .vrnd p core err => wfPart p && wfCore core && wfUnitErr err
  | .vsptr p core err => wfPart p && wfCore core && wfUnitErr err
  | .seNop p core err => wfPart p && wfCore core && wfUnitErr err
  | .scopy p core err => wfPart p && wfCore core && wfUnitErr err
  | .rbput p core err => wfPart p && wfCore core && wfUnitErr err
  | .rbget p core err => wfPart p && wfCore core && wfUnitErr err
  | .meshLanding p core _ => wfPart p && wfCore core
  | .rget p core err => wfPart p && wfCore core && wfUnitErr err
  | .rput p core err => wfPart p && wfCore core && wfUnitErr err
  | .rgetBurstMove p core ring errs _ => wfPart p && wfCore core && wfRing ring && wfReadErrs errs
  | .rputBurstMove p core ring errs _ => wfPart p && wfCore core && wfRing ring && wfReadErrs errs
  | .ringProdWrite r p core ring v => wfRegReq r && wfPart p && wfCore core && wfRing ring && wfU32 v
  | .ringConsWrite r p core ring v => wfRegReq r && wfPart p && wfCore core && wfRing ring && wfU32 v
  | .ringEod r p core ring => wfRegReq r && wfPart p && wfCore core && wfRing ring
  | .ringReset r p core ring => wfRegReq r && wfPart p && wfCore core && wfRing ring
  | .ringCfgWrite r p core ring which _ => wfRegReq r && wfPart p && wfCore core && wfRing ring && wfU8 which
  | .scrubRead c b m row w finds => wfPcore c && wfBank b && wfMacro m && wfRow row && wfCodeword w finds
  | .columnTest c b m col => wfPcore c && wfBank b && wfMacro m && wfColumn col
  | .columnTestVerdict c b m col _ => wfPcore c && wfBank b && wfMacro m && wfColumn col
  | .retirePendSet r c _ => wfRegReq r && wfPcore c
  | .psplitWrite r p _ => wfRegReq r && wfPart p
  | .sectorVerify p _ _ errs => wfPart p && wfReadErrs errs
  | .tagGrant k pc _ x => x.held.all (fun n => decide (n ≤ 64)) && x.held.length ≤ 32 && wfStack k && wfChannel pc
  | .refresh k pc bank _ => wfStack k && wfChannel pc && wfMemBank bank
  | .patrolRead k sec errs => wfStack k && wfSector sec && wfReadErrs errs
  | .rowRepair k row => wfStack k && wfMemRow row
  | .nmeRecordStart x => wfStack x.stack
  | .nmeNop k _ => wfStack k
  | .gemv k errs _ => wfStack k && wfReadErrs errs
  | .nmeCopy k errs _ => wfStack k && wfReadErrs errs
  | .fill k _ => wfStack k
  | .zero k _ => wfStack k
  | .wipe k _ => wfStack k
  | .gather k errs _ => wfStack k && wfReadErrs errs
  | .scatterAdd k errs _ => wfStack k && wfReadErrs errs
  | .nmePartComplete k => wfStack k
  | .updWindowWrite r p which _ => wfRegReq r && wfPart p && wfU8 which
  | .updConfigWrite r p off _ => wfRegReq r && wfPart p && wfU16 off
  | .updTensor p _ errs _ => wfPart p && wfReadErrs errs
  | .normOut p => wfPart p
  | .normIn p _ => wfPart p
  | .updStreamComplete p k => wfPart p && wfStack k
  | .commitDecision p => wfPart p
  | .announceSample => true
  | .announceLostRepeat p => wfPart p
  | .announcementReceived => true
  | .peerHoldExpire p => wfPart p
  | .linkFrameReceive n _ _ => wfPort n
  | .schedFrame n => wfPort n
  | .ctlFrame n => wfPort n
  | .armFrame n => wfPort n
  | .bulkFrame n => wfPort n
  | .spdmFrame x => wfPort x.port && wfBinds x.binds
  | .abortFrame n => wfPort n
  | .idleBlock n _ => wfPort n
  | .nakReplay n => wfPort n
  | .frameSend n e _ => wfPort n && wfEntry e
  | .windowSendStart p port _ => wfPart p && wfWinPort port
  | .windowArmRelease p port => wfPart p && wfPort port
  | .trainHold n => wfPort n
  | .trainDetect n mask => wfPort n && wfU8 mask
  | .trainLanes n rx tx => wfPort n && wfU8 rx && wfU8 tx
  | .trainCaps n _ => wfPort n
  | .trainQual n _ _ _ => wfPort n
  | .trainInit n _ => wfPort n
  | .trainAuth n a => wfPort n && wfLinkAuth a
  | .trainActive n => wfPort n
  | .trainTimeout n => wfPort n
  | .laneLockLoss n lane => wfPort n && wfLane lane
  | .portEnable r n _ => wfRegReq r && wfPort n
  | .portRetrainCmd r n => wfRegReq r && wfPort n
  | .portRekeyCmd r n => wfRegReq r && wfPort n
  | .trainLock r n => wfRegReq r && wfPort n
  | .trainTableWrite r n which _ => wfRegReq r && wfPort n && wfTrainWord which
  | .llSlotWrite r n w _ => wfRegReq r && wfPort n && wfSlotWord w
  | .rekeyTimer n dir => wfPort n && wfTwo dir
  | .rekey n _ _ _ => wfPort n.port && wfTwo n.dir
  | .keyUpdateReceived n _ _ _ => wfPort n
  | .colConfigWrite r p off _ => wfRegReq r && wfPart p && wfU16 off
  | .ccBufferGrant p ch => wfPart p && wfChan ch
  | .ccSumF32 p ch _ => wfPart p && wfChan ch
  | .ccMaxF32 p ch _ => wfPart p && wfChan ch
  | .ccOrU32 p ch _ => wfPart p && wfChan ch
  | .ccNormrec p ch _ => wfPart p && wfChan ch
  | .ccStage p ch => wfPart p && wfChan ch
  | .ccComplete p ch => wfPart p && wfChan ch
  | .ccTimeout p ch => wfPart p && wfChan ch
  | .snapshotTimer p => wfPart p
  | .snapshotComplete p errs => wfPart p && wfReadErrs errs
  | .drainSend p x => wfPart p && wfReadErrs x.errs
  | .drainDataReceive p => wfPart p
  | .drainEndReceive p => wfPart p
  | .readbackComplete p errs => wfPart p && wfReadErrs errs
  | .drainResultReceive p => wfPart p
  | .drainPullReceive p => wfPart p
  | .drainAbandonReceive p => wfPart p
  | .drainCfgWrite r p _ => wfRegReq r && wfPart p
  | .ckpAbort r p _ => wfRegReq r && wfPart p
  | .quiet p => wfPart p
  | .ckpRestore r p _ errs => wfRegReq r && wfPart p && wfReadErrs errs
  | .restoreComplete p errs => wfPart p && wfReadErrs errs
  | .ckpPull r p _ => wfRegReq r && wfPart p
  | .ckpHostack r p _ => wfRegReq r && wfPart p
  | .ckpConfigWrite r p off _ => wfRegReq r && wfPart p && wfU16 off
  | .mailboxGo r b => wfRegReq r && wfBox b
  | .getInfo => true
  | .slotStatus => true
  | .sessionKek => true
  | .importKey => true
  | .derive => true
  | .derivePair => true
  | .revoke => true
  | .setLimit => true
  | .partRevoke => true
  | .mordantShare => true
  | .mordantDerive => true
  | .lakeBind => true
  | .lakeKey => true
  | .getIdentity => true
  | .ifcRekey k => wfStack k
  | .drbgReseed => true
  | .entropyFail => true
  | .regionEntryWrite r p n w _ => wfRegReq r && wfPart p && wfRegion n && wfFour w
  | .bar2Access p _ _ _ _ errs => wfPart p && wfReadErrs errs
  | .ideIntegrityFail k => wfFour k
  | .ideKm p id k sid _ => wfPart p && wfU32 id && wfFour k && wfU8 sid
  | .layoutWrite r _ => wfRegReq r
  | .assign r p => wfRegReq r && wfPart p
  | .admissionComplete p => wfPart p
  | .lockInterfaceRequest p => wfPart p
  | .startInterfaceRequest p _ => wfPart p
  | .stopInterfaceRequest p => wfPart p
  | .getDeviceInterfaceReport p => wfPart p
  | .getMeasurements fn idx _ _ => wfFn fn && wfU8 idx
  | .getCertificate fn slot => wfFn fn && wfU8 slot
  | .keyExchange fn id _ _ _ => wfFn fn && wfU32 id
  | .mordantReport p id => wfPart p && wfU32 id
  | .functionLevelReset fn => wfFn fn
  | .vfEnableClear => true
  | .removalComplete p => wfPart p
  | .partitionRemovedNotice n peer => wfPort n && wfPart peer
  | .queueDoorbell r p q _ => wfRegReq r && wfPart0 p && wfQueue q
  | .queueEntryFetch p q entry cb => wfPart0 p && wfQueue q && wfHostRead entry && wfHostRead cb
  | .cbGrant p => wfPart0 p
  | .pktNop p q seq => wfPart0 p && wfQueue q && wfU32 seq
  | .pktWait p q seq => wfPart p && wfQueue q && wfU32 seq
  | .pktSignal p q seq => wfPart p && wfQueue q && wfU32 seq
  | .pktReset p q seq => wfPart p && wfQueue q && wfU32 seq
  | .pktDma p q seq => wfPart0 p && wfQueue q && wfU32 seq
  | .pktSeqRun p q seq errs => wfPart p && wfQueue q && wfU32 seq && wfReadErrs errs
  | .pktRegWrite p q seq => wfPart p && wfQueue q && wfU32 seq
  | .pktCcLaunch p q seq => wfPart p && wfQueue q && wfU32 seq
  | .dmaCopyIn e host errs => wfDma e && wfHostRead host && wfReadErrs errs
  | .dmaCopyOut e errs => wfDma e && wfReadErrs errs
  | .dmaGcmIn e host errs => wfDma e && wfHostRead host && wfReadErrs errs
  | .dmaGcmOut e host errs => wfDma e && wfHostRead host && wfReadErrs errs
  | .dmaXtsIn e host errs => wfDma e && wfHostRead host && wfReadErrs errs
  | .dmaXtsOut e errs => wfDma e && wfReadErrs errs
  | .dmaLakeExport x => wfDma x.engine && wfReadErrs x.errs
  | .dmaLakeImport e host => wfDma e && wfHostRead host
  | .dmaDescComplete e => wfDma e
  | .queueCancel r p q => wfRegReq r && wfPart p && wfQueue q
  | .contextKill r p n => wfRegReq r && wfPart p && wfQueue n
  | .queueEnable r p q _ => wfRegReq r && wfPart0 p && wfQueue q
  | .fenceWrite r p n _ => wfRegReq r && wfPart p && wfU16 n
  | .feedLoss f => wfTwo f
  | .feedOvervoltage f => wfTwo f
  | .feedReconnect f => wfTwo f
  | .sagWarn => true
  | .sagEnd => true
  | .brownout => true
  | .vbatCheck _ => true
  | .powerReport => true
  | .limModeWrite r _ => wfRegReq r
  | .limModeLock r _ => wfRegReq r
  | .fixedFreqWrite r _ => wfRegReq r
  | .pwrCapWrite r _ => wfRegReq r
  | .powerOn _ => true
  | .perstAssert => true
  | .hotReset => true
  | .warmResetCmd r _ => wfRegReq r
  | .maintResetCmd r _ => wfRegReq r
  | .keeperWatchdog => true
  | .wipeDone x _ => wfU8 x.stackMask && x.cores.all wfPcore
  | .bootReady => true
  | .pcieConfigRequest fn kind _ => wfFn fn && wfThree kind
  | .pldmFwUpdate a _ _ => wfU8 a
  | .activateFirmware a => wfU8 a
  | .lifecycleTransition r _ => wfRegReq r
  | .fuseProgramComplete => true
  | .debugLevelWrite r _ => wfRegReq r
  | .challengeGen r _ => wfRegReq r
  | .responseSubmit r _ => wfRegReq r
  | .challengeExpire => true
  | .genLockoutEnd => true
  | .syncFrame _ => true
  | .moduleFrame k _ _ => wfTraySlot k
  | .moduleFrameTransmit _ _ => true
  | .syncLoss => true
  | .resyncAligned => true
  | .tbResyncCmd r _ => wfRegReq r
  | .hbKick r => wfRegReq r
  | .hbKickTimeout => true
  | .timeOffsetWrite r _ => wfRegReq r
  | .timeProbe r _ => wfRegReq r
  | .timeProbeReceived n => wfPort n
  | .timeReply n t2 t3 _ => wfPort n && wfU64 t2 && wfU64 t3
  | .timeProbeTimeout => true
  | .entdaa a => wfU8 a
  | .setdasa st a => wfU8 st && wfU8 a
  | .getSensorReading a id => wfU8 a && wfU16 id
  | .setEventReceiver a rcv => wfU8 a && wfU8 rcv
  | .pollForPlatformEvent a => wfU8 a
  | .meterCloseSchedule => true
  | .meterCloseOperator r _ => wfRegReq r
  | .recordSeal => true
  | .rtcSet r _ => wfRegReq r
  | .counterConfigWrite r p k _ => wfRegReq r && wfPart p && wfCounter k
  | .counterClear r p _ => wfRegReq r && wfPart p
  | .deviceFreeze r _ => wfRegReq r
  | .deviceThaw r _ => wfRegReq r
  | .partitionFreeze r p _ => wfRegReq r && wfPart p
  | .partitionThaw r p _ => wfRegReq r && wfPart p
  | .operatorDump r _ => wfRegReq r
  | .tenantDumps r _ => wfRegReq r
  | .tenantDump r p _ => wfRegReq r && wfPart p
  | .dumpComplete n _ => wfPart0 n
  | .debugWindowAccess r _ _ _ errs => wfRegReq r && wfReadErrs errs
  | .hotInsert => true
  | .perstRelease => true
  | .inputSample _ va vb => wfU16 va && wfU16 vb
  | .meterMemTick => true
  | .rowRepairComplete k row => wfStack k && wfMemRow row
  | .platformEventAck _ => true

end Sys2Proof
end

