-- ==== Sys2Proof/Tests/Slice0.lean ====
section
/-! SUPPORT. Tests: ill-formed terms, worked examples of the spec, and states and operands that meet the conditions of each statement. -/

namespace Sys2Proof.Tests
open Sys2Proof Sys2Proof.Machine

-- one theorem at a time: several kernel evaluations at once need too many threads
set_option Elab.async false

/-! ## Ill-formed terms -/

def okReq : RegReq := ⟨2, false, 15⟩
def okErr : UnitErr := ⟨{}, [], [], false, 0⟩

/-- One term, at least, that each check of well-formedness refuses. -/
theorem test_illFormed : ([
    .fsig 0, .fsig 5, .dumpComplete 5 true, .queueDoorbell okReq 5 0 0, .bodyEnd 1 128 0, .scrubRead 136 0 0 0 0 .clean,
    .meNop 1 0 8 okErr, .linkFrameReceive 16 [] 0, .refresh 8 0 0 0, .scrubRead 0 16 0 0 0 .clean, .scrubRead 0 0 16 0 0 .clean,
    .registerWrite ⟨7, false, 15⟩ 0 0 [], .registerWrite ⟨2, false, 256⟩ 0 0 [], .getMeasurements 5 0 false [],
    .getMeasurements 0 256 false [], .moduleFrame 9 [] 0, .rgetBurstMove 1 0 16 [] {}, .queueDoorbell okReq 1 64 0,
    .dmaCopyIn 16 ⟨0, []⟩ [], .dmaCopyIn 0 ⟨4, []⟩ [], .mailboxGo okReq 6, .fmtTableWrite okReq 1 65536 0,
    .ringProdWrite okReq 1 0 0 4294967296, .timeReply 0 18446744073709551616 0 false,
    .registerWrite okReq 0 0 [⟨8, 0, 0, [], 0⟩], .registerWrite okReq 0 0 [⟨0, 268435456, 0, [], 0⟩],
    .meNop 1 0 0 ⟨⟨[1048576], []⟩, [], [], false, 0⟩, .meNop 1 0 0 ⟨⟨[], [(0, 72)]⟩, [], [], false, 0⟩,
    .grpStart 1 2, .bodyEnd 1 0 10, .windowSendStart 1 17 {},
    .trainAuth 0 ⟨true, 2, true, false, [], List.replicate 32 0#8, []⟩, .ccBufferGrant 1 8,
    .frameSend 0 65 {}, .laneLockLoss 0 8, .trainTableWrite okReq 0 33 0, .llSlotWrite okReq 0 9 0, .rekeyTimer 0 2, .feedLoss 2,
    .regionEntryWrite okReq 1 32 0 0, .regionEntryWrite okReq 1 0 4 0, .ideIntegrityFail 4, .scrubRead 0 0 0 512 0 .clean,
    .scrubRead 0 0 0 0 8 .clean, .scrubRead 0 0 0 0 0 (.corrected 72), .rekey ⟨0, 2⟩ [] ⟨[], []⟩ true, .wipeDone ⟨0, [136]⟩ true,
    .refresh 0 32 0 0, .refresh 0 0 64 0, .patrolRead 0 268435456 [],
    .rowRepair 0 67108864, .tamperEvent 0, .tamperEvent 5, .counterConfigWrite okReq 1 16 0] : List Instr).all
      (fun i => !i.wellFormed) = true := by decide

/-- Their neighbours within the ranges are accepted. -/
theorem test_wellFormed : ([
    .fsig 4, .dumpComplete 0 true, .queueDoorbell okReq 4 63 0, .bodyEnd 1 127 9, .scrubRead 135 15 15 0 7 (.corrected 71), .meNop 1 0 7 okErr,
    .linkFrameReceive 15 [] 0, .refresh 7 0 0 0, .moduleFrame 8 [] 0, .rgetBurstMove 1 0 15 [] {}, .dmaCopyIn 15 ⟨3, []⟩ [],
    .mailboxGo okReq 5, .windowSendStart 1 16 {}, .ccBufferGrant 1 7] : List Instr).all (fun i => i.wellFormed) = true := by decide

/-! ## Worked examples of the spec -/

/-- 00_scope.md, the uptime example: the read of the low half returns it and stores the high half for requester 2. -/
theorem test_uptimeLow :
    let s : State := { State.reset with now := 0x1FFFFFFF8 }
    let t := s.read4 ⟨0, false, 15⟩ Reg.GLB_UPTIME_LO
    t.out.head? = some (.readDone 0 Reg.GLB_UPTIME_LO [0xFFFFFFF8]) ∧
      SMap.get (fun _ => none) t.shadows (shadowKey 0 Reg.GLB_UPTIME_LO) = some 1 := by decide +kernel
/-- The read of the high half returns the stored value when the counter has passed 0x2_0000_0000, and releases it. -/
theorem test_uptimeHigh :
    let s : State := { State.reset with now := 0x200000010, shadows := [(shadowKey 0 Reg.GLB_UPTIME_LO, some 1)] }
    let t := s.read4 ⟨0, false, 15⟩ Reg.GLB_UPTIME_HI
    t.out.head? = some (.readDone 0 Reg.GLB_UPTIME_HI [1]) ∧
      SMap.get (fun _ => none) t.shadows (shadowKey 0 Reg.GLB_UPTIME_LO) = none := by decide +kernel

/-- 02_numeric_formats.md, the block of Madder-V7: 0.31, 1.5, -2.9, 5.2 and 13.7 in MXFP4 E2M1. -/
theorem test_mxfp4Block : convBlock .e2m1 (List.replicate 5 .rne) [0x3E9EB852, 0x3FC00000, 0xC039999A, 0x40A66666, 0x415B3333] =
    (128, [0x0, 0x2, 0xB, 0x5, 0x7], false) := by decide +kernel
/-- The same element -2.9 under SR with r = 0x9C41 rounds up in magnitude. -/
theorem test_mxfp4SrUp : (convBlock .e2m1 [.sr 0x9C41, .rne] [0xC039999A, 0x415B3333]).2.1.head? = some 0xB := by decide +kernel
/-- With r = 0xF000 it rounds down. -/
theorem test_mxfp4SrDown : (convBlock .e2m1 [.sr 0xF000, .rne] [0xC039999A, 0x415B3333]).2.1.head? = some 0xA := by decide +kernel

/-- 06_memory_stks.md, half partition 2 with 48 GiB of each stack local. -/
def half2 : State :=
  let s := State.reset
  ((s.wr (Reg.PRT_MAP 1) (mapWord 2 1)).wr (Reg.PRT_MAP 2) (mapWord 2 2)).wr (Reg.MEM_PSPLIT 2) (Fld.MEM_PSPLIT_LOCAL_GIB.put 0 48)
theorem test_interleavedAddress :
    (half2.offset 2 0x0009004000005A40).map (half2.place 2) = some (5, 0x1A40) ∧ sectorPlace (0x1A40 / 256) = (26, 0, 0, 0) := by
  decide +kernel
theorem test_localAddress :
    (half2.offset 2 0x0009006812345600).map (half2.place 2) = some (6, 0x412345600) ∧
      sectorPlace (0x412345600 / 256) = (27, 40, 8337, 2) := by decide +kernel

/-- R242, on the pattern of the broken bitline of core 37 with the break four rows from the end: the failing rows under P1 to P4. -/
theorem test_brokenBitline :
    verdictOf [[508, 509, 510, 511, 513], [], [508, 510, 513], [509, 511]] = 1 := by decide +kernel

/-! ## Published check values of the algorithms the spec names -/

/-- FIPS 197, appendix C.3: AES-256. -/
theorem test_aes256 : beNat (Crypto.aesEnc ((List.range 32).map (BitVec.ofNat 8)) ((List.range 16).map fun i => BitVec.ofNat 8 (17 * i))) =
    0x8EA2B7CA516745BFEAFC49904B496089 := by decide +kernel
/-- The keeper's own accesses, with every byte enable. -/
def rq : RegReq := ⟨0, false, 255⟩
/-- The block after reset, with every clock locked (R676). -/
def sUp : State := State.reset.wr Reg.GLB_CLK_STAT 0xFFFFFFFF
/-- The block after reset with registers written. -/
def st (l : List (Nat × Word)) : State := l.foldl (fun (s : State) x => s.wr x.1 x.2) sUp
/-- The block after boot, with management firmware and the keeper running. -/
def sReady : State := st [(Reg.GLB_BOOT_STAT, Fld.GLB_BOOT_STAT_STAGE.put (Fld.GLB_BOOT_STAT_READY.put 0 1) 3)]
/-- The block with one part of its state replaced. -/
def withSq (s : State) (p : Nat) (x : Seq) : State := s.setSq p x
/-- Fields at their offsets. -/
def packed (l : List (Nat × Nat)) : Nat := l.foldl (fun a x => a + x.2 * 2 ^ x.1) 0
/-- Partition 1 holds quadrant 0, runs as an active tenant, and its region 0 lets every master reach all its memory under KID 1, whose
slots hold keys. -/
def sPart : State :=
  { st [(Reg.PRT_MAP 1, Fld.PRT_MAP_NQUAD.put 0 1), (Reg.PRT_MAP 2, 0), (Reg.PRT_MAP 3, 0), (Reg.PRT_MAP 4, 0),
      (Reg.PRT_STATE 1, Fld.PRT_STATE_TDI.put (Fld.PRT_STATE_STATE.put 0 4) 2), (Reg.TKEY_RGN_1 1 0, 0xFFFFF),
      (Reg.TKEY_RGN_2 1 0, BitVec.ofNat 32 (packed [(0, 1), (2, 1), (8, 63)])), (Reg.SEQ_GRP 1 0 0, 1),
      (Reg.FEN_COUNT 1, Fld.FEN_COUNT_COUNT.put 0 4)] with
    keys := [(2, { state := 1, owner := 1, key := List.replicate 32 3#8 }), (3, { state := 1, owner := 1, key := List.replicate 32 3#8 })] }
/-- The address of a byte of partition 1's memory under KID 1. -/
def addr1 (o : Nat) : Nat := 2 ^ 48 + o
def seqIn (state : Nat) (q : Seq) : State := (sPart.setSeqState 1 state).setSq 1 q
/-- Bundles: a MARK of a period of `n` bundles, and one with a CTL, a GRP or an XFER slot. -/
def aMark (n : Nat) : Bundle := BitVec.ofNat 512 (packed [(0, 1), (14, 1), (32, n - 1)])
def anExec (ctl grp xfer : Nat) : Bundle :=
  BitVec.ofNat 512 (packed [(14, if ctl = 0 then 0 else 1), (15, if grp = 0 then 0 else 1), (16, if xfer = 0 then 0 else 1),
    (32, ctl), (192, grp), (352, xfer)])
def aPeriod (b : Bundle) : Period := { bundles := [aMark 2, b], ready := true }
/-- The bundle issues now; it has issued and its operations are due. -/
def issuing (b : Bundle) : State := seqIn seqRunning { cur := aPeriod b }
def issued (b : Bundle) : State :=
  seqIn seqRunning { cur := aPeriod b, pos := 1, issue := 1, ctlDue := true, grp0Due := true, grp1Due := true, xferDue := true }
def poisoned (s : State) : State := { s with poison := [(poisonKey 0 0, true)] }

/-! ## Register accesses -/

/-- A shadow that the keeper holds of one pair. -/
def sShadow : State := { sUp with shadows := [(shadowKey 0 Reg.MTR_RTC_LO, some 5)] }
/-- States and operands that meet the conditions of `AccessRowsComplete`, clause by clause: registerWrite, registerWrite2, rcRead,
loReadLatch, hiReadShadow, pairRead8byte, pairWrite8byte, accessTimeout. -/
theorem test_premises_AccessRowsComplete :
    (sUp.grants rq Reg.MTR_REC_SEL = true ∧ aliasOf rq.who Reg.MTR_REC_SEL = Reg.MTR_REC_SEL ∧ Reg.MTR_REC_SEL % 4 = 0 ∧ rgnWord
      Reg.MTR_REC_SEL = none) ∧
    (sUp.grants rq Reg.MTR_REC_SEL = true) ∧
    ((st [(Reg.MGT_TB_CRC, 9)]).answers rq Reg.MGT_TB_CRC = true) ∧
    (sUp.answers rq Reg.MTR_RTC_LO = true ∧ aliasOf rq.who Reg.MTR_RTC_LO = Reg.MTR_RTC_LO ∧ Reg.MTR_RTC_LO % 4 = 0 ∧ isPairLo
      Reg.MTR_RTC_LO = true) ∧
    (sShadow.answers rq (Reg.MTR_RTC_LO + 4) = true ∧ aliasOf rq.who (Reg.MTR_RTC_LO + 4) = Reg.MTR_RTC_LO + 4 ∧ Reg.MTR_RTC_LO % 4 = 0
      ∧ isPairLo Reg.MTR_RTC_LO = true ∧ isPairLo (Reg.MTR_RTC_LO + 4) = false) ∧
    (sUp.answers rq Reg.GLB_UPTIME_LO = true) ∧
    (sUp.answers rq Reg.MTR_RTC_SET_LO = true ∧ rq.be = 255) ∧
    (sUp.answers rq 0 = true ∧ aliasOf rq.who 0 = 0 ∧ 0 % 4 = 0) := by
  iterate 7 refine ⟨by decide +kernel, ?_⟩
  decide +kernel


/-! ## Supplies and the limiter -/

/-- Ten samples of 600 W and estimates that agree with them. -/
def sPow : State := { sUp with power := { sUp.power with samples := List.replicate 10 600, estSum := 600, estN := 1 } }
/-- States and operands that meet the conditions of `SupplyRowsComplete`, clause by clause: sagWarn, powerReport. -/
theorem test_premises_SupplyRowsComplete :
    (sUp.flag Reg.PWR_SAG_STAT Fld.PWR_SAG_STAT_ACTIVE = false) ∧
    (sPow.power.samples ≠ []) := by
  refine ⟨?_, ?_⟩ <;> decide +kernel

/-- States and operands that meet the conditions of `LimiterRowsComplete`, clause by clause: limiterCalibration, limModeWrite,
limModeLock, fixedFreqWrite, pwrCapWrite. -/
theorem test_premises_LimiterRowsComplete :
    (sPow.power.samples ≠ [] ∧ sPow.power.estSum ≠ 0 ∧ sPow.power.winBad = false ∧ (val32 1041865114).lt (val32 (sub32 (round32 false
      ((List.take 10 sPow.power.samples).sum * sPow.power.estN) ((List.take 10 sPow.power.samples).length * sPow.power.estSum) 0) (sPow.rn
      Reg.PWR_GAIN) % 2147483648)) = false) ∧
    (sUp.grants rq Reg.PWR_LIM_CTRL = true ∧ sUp.flag Reg.PWR_LIM_CTRL Fld.PWR_LIM_CTRL_MODE_LOCK = false) ∧
    (sUp.grants rq Reg.PWR_LIM_CTRL = true) ∧
    (sUp.grants rq Reg.PWR_LIM_CTRL = true ∧ Fld.PWR_LIM_CTRL_FF_EN.get (Fld.PWR_LIM_CTRL_FF_IDX.put (Fld.PWR_LIM_CTRL_FF_EN.put
      0 1) 2) = 1 ∧ 2 ≤ Fld.PWR_LIM_CTRL_FF_IDX.get (Fld.PWR_LIM_CTRL_FF_IDX.put (Fld.PWR_LIM_CTRL_FF_EN.put 0 1) 2)) ∧
    (sUp.grants rq Reg.PWR_CAP = true ∧ 680 ≤ Fld.PWR_CAP_W.get 680 ∧ Fld.PWR_CAP_W.get 680 ≤ 1200) := by
  iterate 4 refine ⟨by decide +kernel, ?_⟩
  decide +kernel


/-! ## Halt, reset and boot -/

def sHaltReq : State := { sUp with haltReq := [(0, 3)] }
def sHalted : State := { sUp with halted := true }
def sPerst : State := { sUp with power := { sUp.power with perst := true, relAt := none } }
def sSag : State := st [(Reg.PWR_SAG_STAT, Fld.PWR_SAG_STAT_ACTIVE.put 0 1)]
def sOff : State := { sUp with power := { sUp.power with off := true, relAt := none } }
def sWiped : State := st [(Reg.GLB_BOOT_STAT, Fld.GLB_BOOT_STAT_WIPE_DONE.put 0 1)]
/-- States and operands that meet the conditions of `HaltRowsComplete`, clause by clause: tamperEvent, halt, haltStopComplete, haltCmd. -/
theorem test_premises_HaltRowsComplete :
    (1 ≤ 4 ∧ 4 ≤ 4 ∧ (4 = 4 → sOff.power.off = true)) ∧
    (firstHalt sHaltReq.haltReq = some (0, 3) ∧ sHaltReq.halted = false) ∧
    (sHalted.halted = true ∧ (∀ p ∈ allParts, (∀ x ∈ (sHalted.sq p).xfers, x.kind ≠ XferKind.memwr) ∧ ∀ b ∈ (sHalted.sq p).bursts, b.put
      = false)) ∧
    (sUp.grants rq Reg.MGT_HALT_CTRL = true ∧ Fld.MGT_HALT_CTRL_KEY.get 1212940289 = 18508 ∧ Fld.MGT_HALT_CTRL_HALT.get
      1212940289 = 1) := by
  iterate 3 refine ⟨by decide +kernel, ?_⟩
  decide +kernel

/-- R681: a maintenance trigger with cause 9 has come in this cycle. -/
def aTrig : ResetTrig := ⟨0, false, true, 9, false, false, 0, 0, 1, [], []⟩
def sTrig : State := { sUp with power := { sUp.power with rst := some { aTrig with time := sUp.now } } }

/-- States and operands that meet the conditions of `ResetRowsComplete`, clause by clause: powerOn, brownout with perstAssert and hotReset,
hotReset and brownout in the cycle of another trigger, warmResetCmd, maintResetCmd, keeperWatchdog, perstRelease, sagEnd, sagEnd2. -/
theorem test_premises_ResetRowsComplete :
    (sUp.resetNow = none ∧ (sUp.power.off = false ∨ sUp.power.rails = true)) ∧
    (sTrig.resetNow = some { aTrig with time := sUp.now }) ∧
    (sUp.grants rq Reg.GLB_RST_CTRL = true ∧ Fld.GLB_RST_CTRL_KEY.get 2781020161 = 42435 ∧ Fld.GLB_RST_CTRL_WARM.get 2781020161
      = 1) ∧
    (sUp.grants rq Reg.GLB_RST_CTRL = true ∧ Fld.GLB_RST_CTRL_KEY.get 2781020162 = 42435 ∧ Fld.GLB_RST_CTRL_WARM.get 2781020162
      = 0 ∧ Fld.GLB_RST_CTRL_MAINT.get 2781020162 = 1) ∧
    (sReady.resetNow = none ∧ sReady.bootDone = true) ∧
    (sPerst.power.relAt = none ∧ sPerst.power.off = false ∧ sPerst.power.hot = false) ∧
    (sSag.power.off = false ∧ sSag.flag Reg.PWR_SAG_STAT Fld.PWR_SAG_STAT_ACTIVE = true) ∧
    (sOff.power.off = true) := by
  iterate 7 refine ⟨by decide +kernel, ?_⟩
  decide +kernel

/-- States and operands that meet the conditions of `BootRowsComplete`, clause by clause: wipeDone, bootReady, pcieConfigRequest,
pcieConfigRequest2, pldmFwUpdate, activateFirmware. -/
theorem test_premises_BootRowsComplete :
    (sUp.booting = true ∧ sUp.flag Reg.GLB_BOOT_STAT Fld.GLB_BOOT_STAT_WIPE_DONE = false) ∧
    (sWiped.booting = true ∧ sWiped.flag Reg.GLB_BOOT_STAT Fld.GLB_BOOT_STAT_WIPE_DONE = true ∧ sWiped.power.maint = false) ∧
    (sReady.power.relAt.isSome = true ∧ sReady.bootDone = true ∧ sReady.crsFor 0 = false) ∧
    (sReady.power.relAt.isSome = true ∧ sReady.bootDone = true ∧ sReady.crsFor 0 = false) ∧
    (sReady.bootDone = true ∧ 1 ≤ 1 ∧ 1 ≤ 5) ∧
    (sReady.bootDone = true) := by
  iterate 5 refine ⟨by decide +kernel, ?_⟩
  decide +kernel


/-! ## Life cycle -/

/-- The block with a life-cycle codeword that its registers show. -/
def sFuse (x : Nat) : State :=
  let s : State := { sUp with fuses := { sUp.fuses with code := x } }
  (s.showFuses.fput Reg.KEY_ROOT_STAT Fld.KEY_ROOT_STAT_DRBG_OK 1).fput Reg.PWR_SAG_STAT Fld.PWR_SAG_STAT_ACTIVE 0
/-- Programming one more bit. -/
def aFuseOp : FuseOp := ⟨1, 0, 1, 0, 0, [5]⟩
def sOp : State := { sFuse 0 with fuses := { (sFuse 0).fuses with op := some aFuseOp } }
/-- A challenge drawn ten minutes ago, a signature check a second ago. -/
def sChal : State := { sFuse 0x0FF00FF0 with now := 60000000000, fuses := { sUp.fuses with chalAt := some 0 } }
def sSig : State := { sFuse 0x0FF00FF0 with now := 100000000, fuses := { sUp.fuses with sigAt := some 0 } }
/-- A word of `LCS_TRANS` that asks for a target. -/
def lcsWord (t : Nat) : Word := BitVec.ofNat 32 (0x4C430000 + t)
/-- States and operands that meet the conditions of `LifecycleRowsComplete`, clause by clause: lifecycleTransition, fuseProgramComplete,
debugLevelWrite, challengeGen, responseSubmit, challengeExpire, genLockoutEnd. -/
theorem test_premises_LifecycleRowsComplete :
    ((sFuse 0).grants rq Reg.LCS_TRANS = true ∧ Fld.LCS_TRANS_KEY.get (lcsWord 1) = 19523 ∧ (sFuse 0).fuses.op = none ∧ lcsBits (sFuse
      0).lcsNow (Fld.LCS_TRANS_TARGET.get (lcsWord 1)) = some [4, 5, 6, 7, 24, 25, 26, 27] ∧ (∀ p ∈ allParts, (sFuse 0).partState p = 0) ∧
      (sFuse 0).flag Reg.PRT_STATUS Fld.PRT_STATUS_LAYOUT_BUSY = false ∧ (sFuse 0).supplyGood = true) ∧
    (sOp.fuses.op = some aFuseOp) ∧
    ((sFuse 251658480).grants rq Reg.LCS_DEBUG = true ∧ Fld.LCS_DEBUG_KEY.get 1279524865 = 19524 ∧ (sFuse 251658480).fuses.op = none ∧
      (sFuse 251658480).lcsNow = 1 ∧ Fld.LCS_DEBUG_LEVEL.get 1279524865 ≠ 3) ∧
    ((sFuse 267390960).grants rq Reg.LCS_CHAL_CTRL = true ∧ Fld.LCS_CHAL_CTRL_SUBMIT.get 5 = 0 ∧ (sFuse 267390960).fuses.op = none ∧
      (sFuse 267390960).fuses.sigAt = none ∧ (sFuse 267390960).lcsNow = 2 ∧ 1 ≤ Fld.LCS_CHAL_CTRL_REQ.get 5 ∧ Fld.LCS_CHAL_CTRL_REQ.get 5
      ≤ 2 ∧ (sFuse 267390960).fget Reg.LCS_STAT Fld.LCS_STAT_TOKENS < 16 ∧ (sFuse 267390960).entropy = true) ∧
    (sChal.grants rq Reg.LCS_CHAL_CTRL = true ∧ Fld.LCS_CHAL_CTRL_GEN.get 0 = 0 ∧ sChal.fuses.chalAt.isSome = true) ∧
    (sChal.fuses.chalAt = some 0 ∧ 0 + 60000000000 ≤ sChal.now) ∧
    (sSig.fuses.sigAt = some 0 ∧ 0 + 100000000 ≤ sSig.now) := by
  iterate 6 refine ⟨by decide +kernel, ?_⟩
  decide +kernel


/-! ## Debug -/

def sHold : State := st [(Reg.DBG_STEP_CTRL, Fld.DBG_STEP_CTRL_HOLD.put 0 1)]
/-- Partition 1 has a dump ring. -/
def sDump : State := st [(Reg.PRT_MAP 1, Fld.PRT_MAP_NQUAD.put 0 1), (Reg.PRT_MAP 2, 0), (Reg.PRT_MAP 3, 0), (Reg.PRT_MAP 4, 0), (Reg.TDBG_DUMP_CFG 1, Fld.TDBG_DUMP_CFG_VALID.put 0 1)]
def sDumping : State := { sUp with dumps := 1 }
def sWindow : State := st [(Reg.DBG_WIN_CTRL, Fld.DBG_WIN_CTRL_KEYLESS.put 0 1), (Reg.LCS_STAT, Fld.LCS_STAT_LEVEL.put 0 1)]
def sCount : State := { sUp with counts := [(16, 5)] }
/-- States and operands that meet the conditions of `TraceRowsComplete`, clause by clause: counterConfigWrite, counterClear, deviceFreeze,
deviceThaw, partitionFreeze, partitionThaw, singleStep, stepHoldWrite. -/
theorem test_premises_TraceRowsComplete :
    (1 ≤ 1 ∧ 1 ≤ 4 ∧ sUp.grants rq (Reg.TDBG_CNT_CFG 1 (15 % 16)) = true ∧ Fld.TDBG_CNT_CFG_EVENT.get 19 ≤ 19) ∧
    (1 ≤ 1 ∧ 1 ≤ 4 ∧ sCount.grants rq (Reg.TDBG_CNT_CTRL 1) = true) ∧
    (sUp.grants rq Reg.DBG_SEPIA_CTRL = true ∧ Fld.DBG_SEPIA_CTRL_THAW.get 1 = 0) ∧
    (sUp.grants rq Reg.DBG_SEPIA_CTRL = true) ∧
    (1 ≤ 4 ∧ 4 ≤ 4 ∧ sUp.grants rq (Reg.TDBG_SEPIA_CTRL 4) = true ∧ Fld.TDBG_SEPIA_CTRL_THAW.get 1 = 0) ∧
    (1 ≤ 4 ∧ 4 ≤ 4 ∧ sUp.grants rq (Reg.TDBG_SEPIA_CTRL 4) = true) ∧
    (sHold.grants rq Reg.DBG_STEP_CTRL = true ∧ sHold.flag Reg.DBG_STEP_CTRL Fld.DBG_STEP_CTRL_HOLD = true ∧ Fld.DBG_STEP_CTRL_HOLD.get
      (Fld.DBG_STEP_CTRL_HOLD.put 0 1) = 1) ∧
    (sHold.grants rq Reg.DBG_STEP_CTRL = true ∧ Fld.DBG_STEP_CTRL_HOLD.get 0 = 0) := by
  iterate 7 refine ⟨by decide +kernel, ?_⟩
  decide +kernel

/-- States and operands that meet the conditions of `DumpRowsComplete`, clause by clause: operatorDump, tenantDumps, tenantDump,
dumpComplete, debugWindowAccess. -/
theorem test_premises_DumpRowsComplete :
    (sUp.grants rq Reg.DBG_DUMP_CTRL = true ∧ Fld.DBG_DUMP_CTRL_TENANTS.get 1 = 0 ∧ bitOf sUp.dumps 0 = false ∧
      sUp.dumpFrozen 0 = true) ∧
    (sDump.grants rq Reg.DBG_DUMP_CTRL = true ∧ Fld.DBG_DUMP_CTRL_GO.get 2 = 0 ∧ 1 ∈ allParts ∧ (∀ q ∈ allParts, q ≠ 1 → sDump.nquad q =
      0) ∧ sDump.nquad 1 ≠ 0 ∧ sDump.flag (Reg.TDBG_DUMP_CFG 1) Fld.TDBG_DUMP_CFG_VALID = true ∧ bitOf sDump.dumps 1 = false ∧
      sDump.dumpFrozen 1 = true) ∧
    (1 ∈ allParts ∧ sUp.grants rq (Reg.TDBG_DUMP_CTRL 1) = true ∧ Fld.TDBG_DUMP_CTRL_GO.get 1 = 1 ∧ bitOf sUp.dumps 1 =
      false ∧ sUp.dumpFrozen 1 = true) ∧
    (bitOf sDumping.dumps 0 = true) ∧
    (sWindow.grants rq (Reg.DBG_WIN_DATA (3 % 1024)) = true ∧ sWindow.closedPart (sWindow.winByte 3) 4 = none ∧ sWindow.flag
      Reg.DBG_WIN_CTRL Fld.DBG_WIN_CTRL_KEYLESS = true ∧ sWindow.winRaw = true ∧ (SMap.get (fun _ => false) sWindow.poison (poisonKey
      (winPlace (sWindow.winByte 3)).1 (winPlace (sWindow.winByte 3)).2) = false)) := by
  iterate 4 refine ⟨by decide +kernel, ?_⟩
  decide +kernel


/-! ## Metering, tray bus, time, management -/

/-- Half an hour of the schedule has passed. -/
def sMeter : State := { st [(Reg.MTR_CTRL, Fld.MTR_CTRL_PERIOD_MIN.put 0 1)] with now := 6000000000 }
def sClosed : State := { sUp with mtr := { sUp.mtr with closed := [List.replicate 192 0] } }
def withTray (s : State) (t : Tray) : State := { s with tray := t }
/-- A frame of the tray bus with a good CRC; its first byte names the sender's slot. -/
def aFrame (slot : Nat) : List Byte :=
  let b : List Byte := leBytes 1 slot ++ leBytes 19 7
  b ++ leBytes 2 (crc16 b)
def sSync : State := withTray sUp { sync := some 0 }
def sTx : State :=
  { withTray (st [(Reg.MGT_TB_CTRL, Fld.MGT_TB_CTRL_EN.put 0 1), (Reg.MGT_TB_STAT, 0)]) { sync := some 0, kick := some 0 } with now := 200 + 200 * (st [(Reg.MGT_TB_STAT, 0)]).traySlot }
def sLost : State := { withTray (st [(Reg.MGT_TB_STAT, Fld.MGT_TB_STAT_SYNC.put 0 1)]) { sync := some 0 } with now := 6000 }
def sAligned : State := withTray sUp { mute := 1, align := 50 }
def sKick : State := { withTray sUp { kick := some 0 } with now := 10000001 }
def sAnn : State := withSq (st [(Reg.SEQ_ANN_TAG 1, Fld.SEQ_ANN_TAG_TAG.put 0 9)]) 1 { annQ := [false, true] }
def sRepeat : State :=
  { withSq (st [(Reg.SEQ_ANN_TAG 1, Fld.SEQ_ANN_TAG_TAG.put 0 9), (Reg.SEQ_LATE_STAT 1, Fld.SEQ_LATE_STAT_LOST.put 0 1)]) 1 { announced := true, tag := 9 }
    with now := 100000 }
def anAnn : Ann := ⟨8, 0, 9, true, 3, 1, 0⟩
def sPeer : State := withTray (withSq sUp 1 { tag := 9 }) { inAnn := [anAnn] }
def sPeerHold : State := withSq sUp 1 { holds := [⟨8, 0, 0⟩, ⟨9, 0, 5⟩] }
def sProbe : State := { withTray sUp { probe := some (2, 7, 0) } with now := 100000 }
def sEvent : State := { sReady with events := [⟨3, 1, 0⟩] }
def sMilli : State := { sUp with now := 100000 }
/-- States and operands that meet the conditions of `MeterRowsComplete`, clause by clause: meterCloseSchedule, meterCloseOperator,
recordSeal, rtcSet, meterMemTick; and a state in which a period has closed in this cycle. -/
theorem test_premises_MeterRowsComplete :
    (sMeter.closedNow = none ∧ sMeter.fget Reg.MTR_CTRL Fld.MTR_CTRL_PERIOD_MIN ≠ 0 ∧ (sMeter.mtr.rtcOpen / (60000 * sMeter.fget Reg.MTR_CTRL
      Fld.MTR_CTRL_PERIOD_MIN) + 1) * (60000 * sMeter.fget Reg.MTR_CTRL Fld.MTR_CTRL_PERIOD_MIN) ≤ sMeter.rtc) ∧
    (sUp.grants rq Reg.MTR_CTRL = true) ∧
    (sClosed.mtr.closed = [List.replicate 192 0]) ∧
    ({ sClosed with mtr := { sClosed.mtr with closeAt := some sClosed.now } }.closedNow = some ([], List.replicate 192 0)) ∧
    (sUp.grants rq Reg.MTR_RTC_CTRL = true ∧ Fld.MTR_RTC_CTRL_KEY.get 1381236737 = 21076 ∧ Fld.MTR_RTC_CTRL_SET.get 1381236737 =
      1) ∧
    (sMilli.meterHold = false ∧ sMilli.mtr.memTick < sMilli.now / 100000) := by
  iterate 5 refine ⟨by decide +kernel, ?_⟩
  decide +kernel

/-- States and operands that meet the conditions of `TrayRowsComplete`, clause by clause: syncFrame, moduleFrame, moduleFrameTransmit,
syncLoss, resyncAligned, tbResyncCmd, hbKick, hbKickTimeout. -/
theorem test_premises_TrayRowsComplete :
    (trayOk (aFrame 15) = true ∧ leAt (aFrame 15) 0 1 % 16 = 15) ∧
    (8 < 9 ∧ trayOk (aFrame 8) = true ∧ 8 ≠ sSync.traySlot ∧ sSync.tray.sync.isSome = true) ∧
    (sTx.mayTransmit = true ∧ sTx.tray.mute = 0 ∧ sTx.tray.heard = [] ∧ sTx.tray.dups = 0) ∧
    (sLost.tray.sync = some 0 ∧ 0 + 6000 ≤ sLost.now ∧ sLost.flag Reg.MGT_TB_STAT Fld.MGT_TB_STAT_SYNC = true) ∧
    (sAligned.tray.mute = 1 ∧ 50 ≤ sAligned.tray.align ∧ sAligned.flag Reg.MGT_TB_STAT Fld.MGT_TB_STAT_DUP_SLOT = false) ∧
    (sUp.grants rq Reg.MGT_TB_CTRL = true ∧ Fld.MGT_TB_CTRL_RESYNC.get (Fld.MGT_TB_CTRL_RESYNC.put 0 1) = 1 ∧ sUp.flag
      Reg.MGT_TB_STAT Fld.MGT_TB_STAT_DUP_SLOT = false) ∧
    (sUp.grants rq Reg.MGT_HB_KICK = true) ∧
    (sKick.tray.kick = some 0 ∧ 0 + 10000000 < sKick.now) := by
  iterate 7 refine ⟨by decide +kernel, ?_⟩
  decide +kernel

/-- States and operands that meet the conditions of `AnnouncementRowsComplete`, clause by clause: announceSample, announceLostRepeat,
announcementReceived. -/
theorem test_premises_AnnouncementRowsComplete :
    (1 ∈ allParts ∧ sAnn.fget (Reg.SEQ_ANN_TAG 1) Fld.SEQ_ANN_TAG_TAG ≠ 0 ∧ (sAnn.sq 1).annQ ≠ []) ∧
    ((sRepeat.sq 1).announced = true ∧ (sRepeat.sq 1).annQ.contains true = false ∧ sRepeat.flag (Reg.SEQ_LATE_STAT 1) Fld.SEQ_LATE_STAT_LOST =
      true ∧ (sRepeat.sq 1).annTime + 100000 ≤ sRepeat.now ∧ (sRepeat.sq 1).tag ≠ 0) ∧
    (sPeer.tray.inAnn = [anAnn] ∧ 1 ∈ allParts ∧ anAnn.lost = true ∧ anAnn.tag ≠ 0 ∧ (sPeer.sq 1).tag = anAnn.tag ∧ sPeer.now < anAnn.time + 200000) := by
  refine ⟨?_, ?_, ?_⟩ <;> decide +kernel

/-- States and operands that meet the conditions of `TimeRowsComplete`, clause by clause: timeOffsetWrite, timeProbe, timeReply,
timeProbeTimeout. -/
theorem test_premises_TimeRowsComplete :
    (sUp.grants rq Reg.MGT_TIME_OFS_HI = true) ∧
    (sUp.grants rq Reg.MGT_TPROBE_CTRL = true ∧ Fld.MGT_TPROBE_CTRL_GO.get (Fld.MGT_TPROBE_CTRL_GO.put 0 1) = 1 ∧
      sUp.flag Reg.MGT_TPROBE_STAT Fld.MGT_TPROBE_STAT_BUSY = false) ∧
    (sProbe.tray.probe = some (2, 7, 0)) ∧
    (sProbe.tray.probe = some (2, 7, 0) ∧ 0 + 100000 ≤ sProbe.now) := by
  iterate 3 refine ⟨by decide +kernel, ?_⟩
  decide +kernel

/-- States and operands that meet the conditions of `ManagementRowsComplete`, clause by clause: setdasa, getSensorReading,
setEventReceiver, pollForPlatformEvent. -/
theorem test_premises_ManagementRowsComplete :
    (sUp.flag Reg.MGT_TB_STAT Fld.MGT_TB_STAT_DUP_SLOT = false ∧ sUp.traySlot ≤ 8) ∧
    (sReady.bootStage = 3) ∧
    (sReady.bootStage = 3) ∧
    (sEvent.bootStage = 3 ∧ sEvent.events = [{ id := 3, kind := 1, arg := 0 }]) := by
  iterate 3 refine ⟨by decide +kernel, ?_⟩
  decide +kernel


/-! ## Leold ports -/

/-- An enabled port in the training state `i` of the reset table. -/
def portAt (n i : Nat) : State :=
  (st [(Reg.LL_PORT_CTRL n, Fld.LL_PORT_CTRL_EN.put 0 1), (Reg.LL_PORT_STAT n, Fld.LL_PORT_STAT_STATE.put 0 i)]).setPort n
    { act0 := BitVec.ofNat 32 (trainReset0 i), act1 := BitVec.ofNat 32 (trainReset1 i) }
/-- An active port. -/
def upPort : Port := { act0 := BitVec.ofNat 32 (trainReset0 9), up := true, lanes := 255 }
def withPort (n : Nat) (x : Port) : State := sUp.setPort n x
def sCaps : State := (portAt 8 3).setPort 8 { (portAt 8 3).port 8 with lanes := 255 }
/-- A CAPS block with a peer's capabilities: node 0x208, second generation, all lanes. -/
def aCaps : List Byte := withCrc (leBytes 8 (3 * 2 ^ 60) ++ leBytes 3 0x208 ++ leBytes 1 0 ++ leBytes 1 2 ++ leBytes 1 255 ++ leBytes 58 0)
def sSlow : State := { portAt 8 1 with now := 1000000 }
def sKeyed : State :=
  { (st [(Reg.LL_PORT_STAT 8, Fld.LL_PORT_STAT_SECURE.put 0 1)]).setPort 8 { upPort with txDue := true, rxDue := true } with
    keys := [(txSlot 8, { state := 1, key := List.replicate 32 3#8 }), (rxSlot 8, { state := 1, key := List.replicate 32 3#8 })] }
def sOld : State := { sKeyed with now := 2 ^ 60 }
def aRx : RxWin := ⟨⟨0, 8, 0, 0, 5, 64, 2, 128⟩, true, [], none⟩
def aFrameOf (typ : Nat) : RxFrame := ⟨typ, 1, 1, 5, 0, List.replicate 32 1#8⟩
def withFrame (f : RxFrame) : State := (withPort 8 { upPort with inbox := [f] }).setWin 1 { rx := [aRx] }
def aSealed : Sealed := ⟨3, 0, 5, [], 0⟩
def sealedPort : Port := { upPort with replay := [aSealed] }
def sNak : State := withPort 8 { upPort with nakIn := true, replay := [aSealed] }
def sSend : State := withPort 8 { upPort with queue := [⟨0, 5, 0, 0, List.replicate 32 1#8⟩] }
def anIdle : List Byte := withCrc (leBytes 8 (2 * 2 ^ 60 + 5 * 2 ^ 24) ++ List.replicate 16 0#8)
def anAuth : LinkAuth := ⟨true, 2, true, false, List.replicate 32 1#8, List.replicate 32 2#8, [(1, 1, 7)]⟩
/-- States and operands that meet the conditions of `TrainingRowsComplete`, clause by clause: trainHold, trainDetect, trainLanes,
trainLanes2, trainCaps, trainQual, trainInit, trainAuth, trainActive, trainTimeout, laneLockLoss. -/
theorem test_premises_TrainingRowsComplete :
    ((portAt 8 0).training 8 tHold = true ∧ (portAt 8 0).trainIdx 8 = 0 ∧ (portAt 8 0).wired 8 = false) ∧
    ((portAt 15 1).training 15 tDetect = true ∧ 4 ≤ popcount 8 15 ∧ (portAt 15 1).wired 15 = false) ∧
    ((portAt 8 2).training 8 tLanes = true ∧ (255 &&& 255) % 256 = 255 ∧ (portAt 8 2).wired 8 = false) ∧
    ((portAt 8 2).training 8 tLanes = true ∧ (15 &&& 255) % 256 ≠ 255 ∧ (15 &&& 255) % 16 = 15) ∧
    (sCaps.training 8 tCaps = true ∧ 8 ≤ 8 ∧ (sCaps.port 8).lanes = 255 ∧ capsOk aCaps = true ∧ leAt (sliceB aCaps 8 64) 5 1 = 255 ∧ sCaps.flag (Reg.LL_PORT_CTRL 8)
      Fld.LL_PORT_CTRL_CHECK = false) ∧
    ((portAt 8 5).training 8 tQual = true ∧ 1 * 100000 ≤ 100000 ∧ (portAt 8 5).wired 8 = false) ∧
    ((portAt 8 7).training 8 tInit = true ∧ (portAt 8 7).wired 8 = false) ∧
    (((portAt 8 8).wr Reg.GLB_FWSET 1).training 8 tAuth = true ∧ ((portAt 8 8).wr Reg.GLB_FWSET 1).wired 8 = false ∧ ((portAt 8 8).wr
      Reg.GLB_FWSET 1).admits anAuth = true ∧ ((portAt 8 8).wr Reg.GLB_FWSET 1).canLoad (txSlot 8) = true ∧ ((portAt 8 8).wr Reg.GLB_FWSET
      1).canLoad (rxSlot 8) = true ∧ (∀ b ∈ anAuth.binds, b.1 ∈ allParts)) ∧
    ((portAt 8 9).training 8 tActive = true ∧ ((portAt 8 9).port 8).up = false) ∧
    (sSlow.training 8 (sSlow.port 8).action = true ∧ (sSlow.port 8).action ≠ tHold ∧ (sSlow.port 8).action ≠ tActive ∧
      Fld.LL_TRAIN_1_TMO.get (sSlow.port 8).act1 ≠ 0 ∧ (sSlow.port 8).began + 100 * Fld.LL_TRAIN_1_TMO.get (sSlow.port 8).act1 ≤
      sSlow.now) ∧
    (7 < 8) := by
  iterate 10 refine ⟨by decide +kernel, ?_⟩
  decide +kernel

/-- States and operands that meet the conditions of `PortRegisterRowsComplete`, clause by clause: portEnable, portDisable, portRetrainCmd,
portRekeyCmd, trainLock, trainTableWrite, llSlotWrite. -/
theorem test_premises_PortRegisterRowsComplete :
    (15 < 16 ∧ sUp.grants rq (Reg.LL_PORT_CTRL 15) = true) ∧
    (15 < 16 ∧ sUp.grants rq (Reg.LL_PORT_CTRL 15) = true) ∧
    ((portAt 8 9).training 8 tActive = true ∧ (portAt 8 9).grants rq (Reg.LL_PORT_CTRL 8) = true) ∧
    (sUp.grants rq (Reg.LL_PORT_CTRL 8) = true) ∧
    (15 < 16 ∧ sUp.grants rq (Reg.LL_PORT_CTRL 15) = true) ∧
    (15 < 16 ∧ 15 < 16 ∧ sUp.grants rq (Reg.LL_TRAIN_1 15 15) = true ∧ sUp.flag (Reg.LL_PORT_CTRL 15)
      Fld.LL_PORT_CTRL_TLOCK = false) ∧
    (15 < 16 ∧ 8 < 9 ∧ sUp.grants rq (Reg.LL_SLOT 15 8) = true ∧ (∀ p ∈ allParts, sUp.partState p = 0)) := by
  iterate 6 refine ⟨by decide +kernel, ?_⟩
  decide +kernel

/-- States and operands that meet the conditions of `FrameRowsComplete`, clause by clause: linkFrameReceive, schedFrame, ctlFrame,
armFrame, spdmFrame, abortFrame, idleBlock, nakReplay, frameSend. -/
theorem test_premises_FrameRowsComplete :
    (8 < 16 ∧ ((withPort 8 upPort).port 8).linked = true ∧ 32 ≤ (List.replicate 32 1#8).length ∧ (List.replicate 32 1#8).length ≤ 4096 ∧
      (List.replicate 32 1#8).length % 32 = 0) ∧
    (((withFrame (aFrameOf 1)).port 8).inbox = [aFrameOf 1] ∧ (aFrameOf 1).typ = 1 ∧ (withFrame (aFrameOf 1)).aborted (aFrameOf 1).part
      = false ∧ (List.find? (fun x => x.armed && x.w.port == 8 && x.w.win == (aFrameOf 1).wtag) ((withFrame (aFrameOf 1)).win (aFrameOf
      1).part).rx = some aRx) ∧ (aFrameOf 1).woff + (aFrameOf 1).payload.length ≤ aRx.w.len) ∧
    (((withFrame (aFrameOf 2)).port 8).inbox = [aFrameOf 2] ∧ (withFrame (aFrameOf 2)).aborted (aFrameOf 2).part = false ∧ (aFrameOf
      2).typ = 2) ∧
    (((withFrame (aFrameOf 3)).port 8).inbox = [aFrameOf 3] ∧ (withFrame (aFrameOf 3)).aborted (aFrameOf 3).part = false ∧ (aFrameOf
      3).typ = 3) ∧
    (((withFrame (aFrameOf 5)).port 8).inbox = [aFrameOf 5] ∧ (withFrame (aFrameOf 5)).aborted (aFrameOf 5).part = false ∧ (aFrameOf
      5).typ = 5 ∧ leAt (((aFrameOf 5).payload.drop 4).take (leAt (aFrameOf 5).payload 0 4)) 1 1 ≠ 0x85) ∧
    (((withFrame (aFrameOf 6)).port 8).inbox = [aFrameOf 6] ∧ (withFrame (aFrameOf 6)).aborted (aFrameOf 6).part = false ∧ (aFrameOf
      6).typ = 6 ∧ (List.find? (fun x => x.armed && x.w.port == 8 && x.w.win == (aFrameOf 6).wtag) ((withFrame (aFrameOf 6)).win (aFrameOf
      6).part).rx = some aRx)) ∧
    (((withPort 8 sealedPort).port 8).linked = true ∧ anIdle.length = 32 ∧ crcOk anIdle = true ∧ bitsOf (leAt anIdle 0 8) 60 4 = 2) ∧
    ((sNak.port 8).nakIn = true ∧ (sNak.port 8).replay ≠ [] ∧ (∀ f ∈ (sNak.port 8).replay, f.replays < 8)) ∧
    ((sSend.port 8).linked = true ∧ (sSend.port 8).nakIn = false ∧ (sSend.port 8).resend = [] ∧ (sSend.port 8).replay = [] ∧ (sSend.port
      8).queue = [{ part := 0, typ := 5, wtag := 0, woff := 0, payload := List.replicate 32 1#8 }] ∧ (List.replicate 32 1#8).length ≤
      4096) := by
  iterate 8 refine ⟨by decide +kernel, ?_⟩
  decide +kernel

/-- States and operands that meet the conditions of `LinkKeyRowsComplete`, clause by clause: rekeyTimer, rekey, rekeyAsk, keyUpdateReceived. -/
theorem test_premises_LinkKeyRowsComplete :
    (sOld.linkSecure 8 = true ∧ (if 0 = 0 then (sOld.port 8).txSwap else (sOld.port 8).rxSwap) +
      sOld.fget (Reg.LL_REKEY_CFG 8) Fld.LL_REKEY_CFG_HOURS * 360000000000 ≤ sOld.now) ∧
    ((sKeyed.port 8).up = true ∧ sKeyed.linkSecure 8 = true ∧ (sKeyed.port 8).txDue = true ∧ (sKeyed.port 8).nakIn = false ∧
      (sKeyed.port 8).resend = [] ∧ sKeyed.canLoad (txSlot 8) = true ∧
        (∀ f ∈ (((sKeyed.sendSpdm 8 [1#8]).spdmOut 8).port 8).queue, f.part ≠ 0)) ∧
    ((sKeyed.port 8).up = true ∧ sKeyed.linkSecure 8 = true ∧ (sKeyed.port 8).rxDue = true) ∧
    ((sKeyed.port 8).up = true ∧ (sKeyed.key (rxSlot 8)).state ≠ 0 ∧ sKeyed.canLoad (rxSlot 8) = true) := by
  refine ⟨?_, ?_, ?_⟩ <;> decide +kernel


/-! ## The sequencer -/

def sGateWait (q : Seq) : State := seqIn seqGateWait q
/-- The image's first bundle lies in a poisoned sector, so the period that comes in is one bundle of ones. -/
def sFill : State :=
  { seqIn seqGateWait { nbundle := 4 } with poison := [(poisonKey 0 0, true)] }.wr64 (Reg.SEQ_IMG_BASE_LO 1) (addr1 0)
def waitMark : Bundle := BitVec.ofNat 512 (packed [(0, 1), (14, 1), (15, 1), (192, 0x03)])
def sWait : State := sGateWait { nxt := { bundles := [BitVec.ofNat 512 (packed [(0, 1), (14, 1), (15, 1), (32, 1), (192, 3)]), anExec 0 0 0, aMark 1], ready := true } }
def sOpen : State := sGateWait { nxt := { bundles := [aMark 2, anExec 0 0 0, aMark 1], ready := true } }
def sLate : State := (sGateWait {}).wn (Reg.SEQ_LATE 1) 0xFFFFFFFF
def anEnd : Bundle := BitVec.ofNat 512 (packed [(0, 3), (14, 1), (32, 2), (48, 1)])
def aSlack : Bundle := BitVec.ofNat 512 (packed [(0, 2), (14, 1), (32, 9)])
def sEnded : State := seqIn seqRunning { cur := aPeriod anEnd, pos := 1, ended := some none }
def sPeriodEnd : State := seqIn seqRunning { cur := aPeriod (anExec 0 0 0), pos := 1 }
/-- A start of unit 9 of group 0 at beat 6. -/
def aStartBits : Nat := packed [(0, 1), (1, 512), (11, 4), (22, 1), (33, 1), (49, 6)]
def aStart : Start := ⟨0, 512, 4, 1, 1, 0, 0⟩
def sStart : State := seqIn seqRunning { cur := aPeriod (anExec 0 aStartBits 0), pos := 1, issue := 1, starts := [aStart] }
def aRun : Run := ⟨1, 0, 4, 1, 1, 0, 0, 2, 0, 0, 0, []⟩
def sRunDone : State := (seqIn seqRunning {}).setRun 0 9 (some aRun)
def xMem (op : Nat) : Bundle := anExec 0 0 (packed [(0, op), (51, addr1 0), (4, 1), (33, 3)])
def xRload : Bundle := anExec 0 0 (packed [(0, 6), (47, addr1 0), (4, 1), (15, 1), (36, 3)])
def xNme : Bundle := anExec 0 0 (packed [(0, 3), (4, 1), (9, 1), (17, addr1 0), (73, 0)])
def xUpd : Bundle := anExec 0 0 (packed [(0, 7), (4, 1), (9, addr1 0)])
def xTx : Bundle := anExec 0 0 (packed [(0, 4), (4, 1), (9, 1), (45, 1), (56, 7)])
def xRx : Bundle := anExec 0 0 (packed [(0, 5), (4, 1), (9, 0), (33, 1), (44, 7)])
def aXfer (k : XferKind) : Xfer := ⟨0, k, 1, addr1 0, 0, 64, 64, 3, 0⟩
def sXfer (k : XferKind) : State := poisoned (seqIn seqRunning { xfers := [aXfer k] })
def aLand : MeshLand := ⟨0, false, 0, 1, 0, 64, [1#8], false, none, 0⟩
def sMesh : State := seqIn seqRunning { mesh := [aLand] }
def aTx : TxWin := ⟨⟨0, 8, 0, 1, 5, 64, 0, 64⟩, 0, none, 0, none⟩
def anArm : Arm := ⟨8, 5, 64, 0, 0⟩
def sTxWin : State := sPart.setWin 1 { tx := [aTx], arms := [anArm] }
def freshRx : RxWin := ⟨⟨0, 8, 0, 1, 5, 64, 0, 64⟩, false, [], none⟩
def sRxWin : State := sPart.setWin 1 { rx := [freshRx] }
/-- States and operands that meet the conditions of `StreamRowsComplete`, clause by clause: seqRun, seqCont, seqStop, seqResume,
periodFillComplete, gateWaitBeat, gateOpen, schedLost, catchupLimitWrite, fmtTableWrite. -/
theorem test_premises_StreamRowsComplete :
    (1 ∈ allParts ∧ sPart.grants rq (Reg.SEQ_CTRL 1) = true ∧ sPart.stopped 1 = true) ∧
    (1 ∈ allParts ∧ sPart.grants rq (Reg.SEQ_CTRL 1) = true ∧ sPart.seqState 1 = seqStopped) ∧
    (1 ∈ allParts ∧ (seqIn seqRunning { }).grants rq (Reg.SEQ_CTRL 1) = true ∧ (seqIn seqRunning { }).seqState 1 = seqRunning) ∧
    (1 ∈ allParts ∧ (seqIn seqBrkHold { }).grants rq (Reg.SEQ_CTRL 1) = true ∧ (seqIn seqBrkHold { }).seqState 1 = seqBrkHold) ∧
    (1 ∈ allParts ∧ sFill.stopped 1 = false ∧ sFill.halted = false ∧ (sFill.sq 1).nxt.ready = false ∧ (sFill.sq 1).nxt.idx < (sFill.sq
      1).nbundle ∧ (sFill.sq 1).cur.ends = false ∧ sFill.tagWait 1 0 none = false ∧ (sFill.fetch [] 1 (sFill.sq 1).nxt.idx 1).2.1 = 0 ∧ (if bType ((sFill.fetch [] 1 (sFill.sq 1).nxt.idx 1).2.2.headD
      0#512) = bMark then ctlB ((sFill.fetch [] 1 (sFill.sq 1).nxt.idx 1).2.2.headD 0#512) 0 18 + 1 else 1) ≤ sFill.fget (Reg.SEQ_ISRAM 1)
      Fld.SEQ_ISRAM_PMAX ∧ ((sFill.sq 1).nxt.idx + if bType ((sFill.fetch [] 1 (sFill.sq 1).nxt.idx 1).2.2.headD 0#512) = bMark then ctlB
      ((sFill.fetch [] 1 (sFill.sq 1).nxt.idx 1).2.2.headD 0#512) 0 18 + 1 else 1) ≤ (sFill.sq 1).nbundle ∧ ((sFill.fetch [] 1 (sFill.sq
      1).nxt.idx 1).1.fetch [] 1 (sFill.sq 1).nxt.idx (min ((if bType ((sFill.fetch [] 1 (sFill.sq 1).nxt.idx 1).2.2.headD 0#512) = bMark
      then ctlB ((sFill.fetch [] 1 (sFill.sq 1).nxt.idx 1).2.2.headD 0#512) 0 18 + 1 else 1) + 1) ((sFill.sq 1).nbundle - (sFill.sq
      1).nxt.idx))).2.1 = 0) ∧
    (sWait.atBoundary 1 = true ∧ sWait.gateFalse 1 ≠ 0) ∧
    (sOpen.atBoundary 1 = true ∧ sOpen.gateFalse 1 = 0) ∧
    (1 ∈ allParts ∧ sLate.stopped 1 = false ∧ sLate.halted = false ∧ sLate.rn (Reg.SEQ_CATCHUP_LIMIT 1) < sLate.rn (Reg.SEQ_LATE 1) ∧
      sLate.flag (Reg.SEQ_LATE_STAT 1) Fld.SEQ_LATE_STAT_LOST = false) ∧
    (1 ∈ allParts ∧ sPart.grants rq (Reg.SEQ_CATCHUP_LIMIT 1) = true) ∧
    (1 ∈ allParts ∧ 3 < 4 ∧ sPart.grants rq (Reg.FMT_SR_SEED 1 3) = true ∧ sPart.stopped 1 = true) := by
  iterate 9 refine ⟨by decide +kernel, ?_⟩
  decide +kernel

/-- States and operands that meet the conditions of `BundleRowsComplete`, clause by clause: bundleExec, ctlNop, idle, fsig, loopOp,
commit, slack, endOp, endComplete, periodEnd. -/
theorem test_premises_BundleRowsComplete :
    ((issuing (anExec 1 0 1)).issues 1 bExec (anExec 1 0 1) = true) ∧
    ((issued (anExec 0 0 1)).ctlReady 1 0 = true) ∧
    ((issued (anExec 1 0 1)).ctlReady 1 1 = true) ∧
    ((issued (anExec (packed [(0, 2), (4, 3)]) 0 0)).ctlReady 1 2 = true ∧ (issued (anExec (packed [(0, 2), (4, 3)]) 0 0)).hasFence 1
      (ctlB ((issued (anExec (packed [(0, 2), (4, 3)]) 0 0)).sq 1).bundle 4 16) = true ∧ (issued (anExec (packed [(0, 2), (4, 3)]) 0
      0)).fget (Reg.FEN_F 1 (ctlB ((issued (anExec (packed [(0, 2), (4, 3)]) 0 0)).sq 1).bundle 4 16)) Fld.FEN_F_ERR = 0) ∧
    ((issued (anExec (packed [(0, 3), (6, 5)]) 0 0)).ctlReady 1 3 = true ∧ ((issued (anExec (packed [(0, 3), (6, 5)]) 0 0)).sq
      1).loopRec = none ∧ ctlB ((issued (anExec (packed [(0, 3), (6, 5)]) 0 0)).sq 1).bundle 30 32 = ((issued (anExec (packed [(0, 3), (6,
      5)]) 0 0)).sq 1).cur.idx) ∧
    ((issued (anExec (packed [(0, 4), (4, 9)]) 0 0)).ctlReady 1 4 = true ∧ ((issued (anExec (packed [(0, 4), (4, 9)]) 0 0)).sq
      1).commitRec = none) ∧
    ((issuing aSlack).issues 1 bSlack aSlack = true ∧ (issuing aSlack).stopped 1 = false ∧ ((issuing aSlack).sq 1).starts = [] ∧ (issuing aSlack).partRuns 1 = []) ∧
    ((issuing anEnd).issues 1 bEnd anEnd = true ∧ (issuing anEnd).stopped 1 = false) ∧
    (1 ∈ allParts ∧ (sEnded.sq 1).ended = some none ∧ sEnded.stopped 1 = false ∧ sEnded.canRun 1 (max (sEnded.sq 1).beat (sEnded.sq 1).issue) = true ∧ (∀ n < 32,
      sEnded.cset 1 n = 0) ∧ (sEnded.sq 1).starts = [] ∧ sEnded.partRuns 1 = []) ∧
    (1 ∈ allParts ∧ sPeriodEnd.seqState 1 = seqRunning ∧ (sPeriodEnd.sq 1).ended = none ∧ (sPeriodEnd.sq 1).cur.len ≤ (sPeriodEnd.sq
      1).pos + 1 ∧ (sPeriodEnd.sq 1).opsDue = false ∧ sPeriodEnd.canRun 1 (sPeriodEnd.sq 1).issue = true ∧ (sPeriodEnd.sq 1).starts = [] ∧
      sPeriodEnd.partRuns 1 = [] ∧ (sPeriodEnd.sq 1).commitRec = none ∧ (sPeriodEnd.sq 1).stopPend = false) := by
  iterate 9 refine ⟨by decide +kernel, ?_⟩
  decide +kernel

/-- States and operands that meet the conditions of `BodyRowsComplete`, clause by clause: grpStart, bodyStart, bodyEnd. -/
theorem test_premises_BodyRowsComplete :
    (1 ∈ allParts ∧ (issued (anExec 0 aStartBits 0)).stopped 1 = false ∧ (issued (anExec 0 aStartBits 0)).halted = false ∧ (if 0 = 0
      then ((issued (anExec 0 aStartBits 0)).sq 1).grp0Due else ((issued (anExec 0 aStartBits 0)).sq 1).grp1Due) = true ∧ ((issued (anExec
      0 aStartBits 0)).sq 1).beat - ((issued (anExec 0 aStartBits 0)).sq 1).start + 6 ≤ bitsOf (startBits ((issued (anExec 0 aStartBits
      0)).sq 1).bundle 0) 49 20 ∧ bitsOf (startBits ((issued (anExec 0 aStartBits 0)).sq 1).bundle 0) 11 11 + bitsOf (startBits ((issued
      (anExec 0 aStartBits 0)).sq 1).bundle 0) 22 11 ≤ 2015) ∧
    (1 ∈ allParts ∧ (sStart.sq 1).starts = [aStart] ∧ sStart.stopped 1 = false ∧ sStart.canRun 1 aStart.beat = true ∧ aStart.beat < (sStart.sq 1).bodyLimit ∧ sStart.cores.runs
      = [] ∧ (sStart.sq 1).xfers = []) ∧
    (sRunDone.runOf (sRunDone.pcore 1 0) 9 = some aRun ∧ aRun.part = 1 ∧ sRunDone.stopped 1 = false ∧ aRun.done = true ∧ sRunDone.canRun
      1 aRun.beat = true) := by
  refine ⟨?_, ?_, ?_⟩ <;> decide +kernel

/-- States and operands that meet the conditions of `TransferRowsComplete`, clause by clause: xferMemrd, xferMemwr, rload,
memTransferComplete, memTransferComplete2, rloadComplete, xferNme, xferUpd. -/
theorem test_premises_TransferRowsComplete :
    (32 * xferB ((issued (xMem 1)).sq 1).bundle 15 18 + 32 * (xferB ((issued (xMem 1)).sq 1).bundle 33 18 + 1) ≤ 8388608 ∧ (∀ k <
      ((issued (xMem 1)).group 1 (xferB ((issued (xMem 1)).sq 1).bundle 9 6)).length, (fun k => xferB ((issued (xMem 1)).sq 1).bundle 51
      56 + k * xferB ((issued (xMem 1)).sq 1).bundle 107 24 * 32) k % 32 = 0) ∧ (issued (xMem 1)).cset 1 (bCset ((issued (xMem 1)).sq
      1).bundle) + 128 ≤ 65535 ∧ (issued (xMem 1)).xferReady 1 1 = true ∧ (∀ k < ((issued (xMem 1)).group 1 (xferB ((issued (xMem 1)).sq
      1).bundle 9 6)).length, ((issued (xMem 1)).checkRun 1 mCoreRd true ((fun k => xferB ((issued (xMem 1)).sq 1).bundle 51 56 + k *
      xferB ((issued (xMem 1)).sq 1).bundle 107 24 * 32) k) (32 * (xferB ((issued (xMem 1)).sq 1).bundle 33 18 + 1))).2 = 0)) ∧
    (32 * xferB ((issued (xMem 2)).sq 1).bundle 15 18 + 32 * (xferB ((issued (xMem 2)).sq 1).bundle 33 18 + 1) ≤ 8388608 ∧ (∀ k <
      ((issued (xMem 2)).group 1 (xferB ((issued (xMem 2)).sq 1).bundle 9 6)).length, (fun k => xferB ((issued (xMem 2)).sq 1).bundle 51
      56 + k * xferB ((issued (xMem 2)).sq 1).bundle 107 24 * 32) k % 32 = 0) ∧ (issued (xMem 2)).cset 1 (bCset ((issued (xMem 2)).sq
      1).bundle) + 128 ≤ 65535 ∧ (issued (xMem 2)).xferReady 1 2 = true ∧ (∀ k < ((issued (xMem 2)).group 1 (xferB ((issued (xMem 2)).sq
      1).bundle 9 6)).length, ((issued (xMem 2)).checkRun 1 mCoreWr true ((fun k => xferB ((issued (xMem 2)).sq 1).bundle 51 56 + k *
      xferB ((issued (xMem 2)).sq 1).bundle 107 24 * 32) k) (32 * (xferB ((issued (xMem 2)).sq 1).bundle 33 18 + 1))).2 = 0)) ∧
    ((issued xRload).xferReady 1 6 = true ∧ xferB ((issued xRload).sq 1).bundle 25 11 + (xferB ((issued xRload).sq 1).bundle 36 11 + 1)
      ≤ 2048 ∧ (issued xRload).cset 1 (bCset ((issued xRload).sq 1).bundle) + 128 ≤ 65535 ∧ (issued xRload).partRuns 1 = [] ∧ (∀ k <
      ((issued xRload).group 1 (xferB ((issued xRload).sq 1).bundle 9 6)).length, ((issued xRload).checkRun 1 mCoreRd true (xferB ((issued
      xRload).sq 1).bundle 47 56 + k * xferB ((issued xRload).sq 1).bundle 103 24 * 32) (8 * (xferB ((issued xRload).sq 1).bundle 36 11 +
      1))).2 = 0)) ∧
    (((sXfer XferKind.memrd).sq 1).xfers[0]? = some (aXfer XferKind.memrd) ∧ (aXfer XferKind.memrd).kind = XferKind.memrd ∧ (sXfer XferKind.memrd).tagWait 1 2 (some ((sXfer XferKind.memrd).lcore 1 (aXfer
      XferKind.memrd).core)) = false ∧ (sXfer XferKind.memrd).keyCode 1 (addrKid (aXfer XferKind.memrd).mem) false = 0) ∧
    (((sXfer XferKind.memwr).sq 1).xfers[0]? = some (aXfer XferKind.memwr) ∧ (aXfer XferKind.memwr).kind = XferKind.memwr ∧ (sXfer XferKind.memwr).tagWait 1 2 (some ((sXfer XferKind.memwr).lcore 1 (aXfer
      XferKind.memwr).core)) = false ∧ (sXfer XferKind.memwr).keyCode 1 (addrKid (aXfer XferKind.memwr).mem) true = 0) ∧
    (((sXfer XferKind.rload).sq 1).xfers[0]? = some (aXfer XferKind.rload) ∧ (aXfer XferKind.rload).kind = XferKind.rload ∧ (sXfer XferKind.rload).tagWait 1 1 none = false ∧
      (sXfer XferKind.rload).keyCode 1 (addrKid (aXfer XferKind.rload).mem) false = 0 ∧ (aXfer
      XferKind.rload).addr + (aXfer XferKind.rload).len / 8 ≤ 2048) ∧
    ((poisoned (issued xNme)).xferReady 1 3 = true ∧ (∀ j < 8, bitOf (xferB ((poisoned (issued xNme)).sq 1).bundle 9 8) j = true → j <
      (poisoned (issued xNme)).nstacks 1) ∧ ((poisoned (issued xNme)).checkRun 1 mNmeFetch true (xferB ((poisoned (issued xNme)).sq
      1).bundle 17 56) (64 * (xferB ((poisoned (issued xNme)).sq 1).bundle 73 12 + 1))).2 = 0 ∧ (poisoned (issued xNme)).cset 1 (bCset
      ((poisoned (issued xNme)).sq 1).bundle) + 8 ≤ 65535) ∧
    ((poisoned (issued xUpd)).xferReady 1 7 = true ∧ ((poisoned (issued xUpd)).checkRun 1 mUpdFetch true (xferB ((poisoned (issued
      xUpd)).sq 1).bundle 9 56) 64).2 = 0 ∧ (poisoned (issued xUpd)).cset 1 (bCset ((poisoned (issued xUpd)).sq 1).bundle) + 8 ≤ 65535) := by
  iterate 7 refine ⟨by decide +kernel, ?_⟩
  decide +kernel

/-- States and operands that meet the conditions of `WindowRowsComplete`, clause by clause: lltx, llrx, meshLanding, windowSendStart,
windowArmRelease. -/
theorem test_premises_WindowRowsComplete :
    ((issued xTx).xferReady 1 4 = true ∧ (List.filter (fun l => bitOf (xferB ((issued xTx).sq 1).bundle 9 16) l) (List.range 16) = [0])
      ∧ (issued xTx).portMap 1 0 < 16 ∧ (issued xTx).rbAddr 1 (xferB ((issued xTx).sq 1).bundle 25 9) (xferB ((issued xTx).sq 1).bundle 34
      11) (xferB ((issued xTx).sq 1).bundle 45 11 + 1) = some 0 ∧ (issued xTx).cset 1 (bCset ((issued xTx).sq 1).bundle) < 65535) ∧
    ((issued xRx).xferReady 1 5 = true ∧ (issued xRx).portMap 1 (xferB ((issued xRx).sq 1).bundle 9 4) < 16 ∧ (issued xRx).rbAddr 1
      (xferB ((issued xRx).sq 1).bundle 13 9) (xferB ((issued xRx).sq 1).bundle 22 11) (xferB ((issued xRx).sq 1).bundle 33 11 + 1) = some
      0 ∧ (issued xRx).cset 1 (bCset ((issued xRx).sq 1).bundle) < 65535) ∧
    (sMesh.seqState 1 ≠ seqFaulted ∧ (List.filter (fun l => l.dst == sMesh.pcore 1 0) (sMesh.sq 1).mesh = [aLand]) ∧ sMesh.canRun 1 aLand.beat = true ∧ aLand.kind ≠ 2 ∧
      aLand.add = false) ∧
    (8 < 16 ∧ (sTxWin.win 1).tx = [aTx] ∧ aTx.w.port = 8 ∧ (sTxWin.win 1).arms = [anArm] ∧ anArm.port = 8 ∧ anArm.win = aTx.w.win ∧ anArm.len = aTx.w.len ∧ aTx.due ≤ (sTxWin.sq
      1).beat) ∧
    ((List.find? (fun x => !x.armed && x.w.port == 8) (sRxWin.win 1).rx = some freshRx) ∧ sRxWin.armedOn 1 8 < 16) := by
  iterate 4 refine ⟨by decide +kernel, ?_⟩
  decide +kernel


/-! ## Engines -/

/-- The body `aBody` runs in unit `u` of partition core 0, and its micro-op is due now. -/
def aBody : Run := ⟨1, 0, 4, 0, 0, 0, 0, 0, 0, 0, 0, []⟩
/-- A MARK and a bundle with an IDLE of 2,048 beats. -/
def longPeriod : Period := aPeriod (anExec (packed [(0, 1), (4, 2047)]) 0 0)
def unitRuns (u m : Nat) : State :=
  let s := (seqIn seqRunning { cur := longPeriod, pos := 1, issue := 99 }).setRun 0 u (some aBody)
  { s with cores := { s.cores with replay := [(u * 2048 + 4, BitVec.ofNat 64 m)], vreg := [(2, 0x3F800000), (514, 0x40000000)], sram := [(0, 7#8)] } }
def veOp (op : Nat) : State := unitRuns 8 (packed [(0, 3), (12, 5), (18, 0), (24, 1), (30, 2), (36, op)])
def vtrOp (op : Nat) : State := unitRuns 8 (packed [(0, 4), (12, 5), (24, op)])
def vredOp (op : Nat) : State := unitRuns 8 (packed [(0, 5), (6, 1), (12, 5), (18, 1), (24, op)])
def ringRegs (kind : Nat) : State :=
  let s := unitRuns 9 (packed [(0, if kind = 1 then 4 else 5), (12, 2), (37, 0), (49, 3)])
  s.wr (Reg.SEQ_RING_CFG 1 2) (BitVec.ofNat 32 (packed [(0, kind), (4, 3), (8, 1)]))
def aBurst (put : Bool) : Burst := ⟨0, put, 3, 0, 2, 64, 1, 0⟩
def sBurst (put : Bool) : State :=
  (((seqIn seqRunning { bursts := [aBurst put] }).wr (Reg.SEQ_RING_CFG 1 2) (BitVec.ofNat 32 (packed [(0, 3), (4, 3)])))).wn
    (Reg.SEQ_RING_PROD 1 2) (if put then 0 else 2)
def sRing (kind : Nat) : State := sPart.wr (Reg.SEQ_RING_CFG 1 2047) (BitVec.ofNat 32 (packed [(0, kind), (4, 3)]))
/-- States and operands that meet the conditions of `MatrixRowsComplete`, clause by clause: meNop, wload, mma, mout. -/
theorem test_premises_MatrixRowsComplete :
    (7 < 8 ∧ (unitRuns 7 0).unitDue 1 0 7 aBody = true ∧ mopOpc ((unitRuns 7 0).beatOf 1 0 7 aBody).m = 0) ∧
    (7 < 8 ∧ (unitRuns 7 (packed [(0, 1), (30, 9)])).unitDue 1 0 7 aBody = true ∧ mopOpc ((unitRuns 7 (packed [(0, 1), (30, 9)])).beatOf
      1 0 7 aBody).m = 1 ∧ aBody.mb = 0 ∧ (unitRuns 7 (packed [(0, 1), (30, 9)])).fmt 1 (mop ((unitRuns 7 (packed [(0, 1), (30,
      9)])).beatOf 1 0 7 aBody).m 30 5) = some Fmt.i4 ∧ ((unitRuns 7 (packed [(0, 1), (30, 9)])).advance 1 aBody.beat).fill ((unitRuns 7
      (packed [(0, 1), (30, 9)])).beatOf 1 0 7 aBody).phys 7 = none ∧ (unitRuns 7 (packed [(0, 1), (30, 9)])).portsFree 1 aBody.beat =
      true) ∧
    (7 < 8 ∧ (unitRuns 7 (packed [(0, 2), (30, 9)])).unitDue 1 0 7 aBody = true ∧ mopOpc ((unitRuns 7 (packed [(0, 2), (30, 9)])).beatOf
      1 0 7 aBody).m = 2 ∧ aBody.mb = 0 ∧ mop ((unitRuns 7 (packed [(0, 2), (30, 9)])).beatOf 1 0 7 aBody).m 53 1 = 0 ∧ (unitRuns 7
      (packed [(0, 2), (30, 9)])).fmt 1 (mop ((unitRuns 7 (packed [(0, 2), (30, 9)])).beatOf 1 0 7 aBody).m 30 5) = some Fmt.i4 ∧
      (unitRuns 7 (packed [(0, 2), (30, 9)])).portsFree 1 aBody.beat = true ∧ max Fmt.i4.cls (((unitRuns 7 (packed [(0, 2), (30,
      9)])).advance 1 aBody.beat).plane ((unitRuns 7 (packed [(0, 2), (30, 9)])).beatOf 1 0 7 aBody).phys 7 0).fmt.cls = (((unitRuns 7
      (packed [(0, 2), (30, 9)])).advance 1 aBody.beat).plane ((unitRuns 7 (packed [(0, 2), (30, 9)])).beatOf 1 0 7 aBody).phys 7 0).cls ∧
      mop ((unitRuns 7 (packed [(0, 2), (30, 9)])).beatOf 1 0 7 aBody).m 56 8 + vecsBefore (((unitRuns 7 (packed [(0, 2), (30,
      9)])).advance 1 aBody.beat).plane ((unitRuns 7 (packed [(0, 2), (30, 9)])).beatOf 1 0 7 aBody).phys 7 0).cls ((unitRuns 7 (packed
      [(0, 2), (30, 9)])).beatOf 1 0 7 aBody).n ≤ 256 ∧ ((((unitRuns 7 (packed [(0, 2), (30, 9)])).advance 1 aBody.beat).plane ((unitRuns
      7 (packed [(0, 2), (30, 9)])).beatOf 1 0 7 aBody).phys 7 0).cls = 1 → ((unitRuns 7 (packed [(0, 2), (30, 9)])).beatOf 1 0 7 aBody).n
      % 3 = 0)) ∧
    (7 < 8 ∧ (unitRuns 7 (packed [(0, 3), (30, 255)])).unitDue 1 0 7 aBody = true ∧ mopOpc ((unitRuns 7 (packed [(0, 3), (30,
      255)])).beatOf 1 0 7 aBody).m = 3 ∧ mop ((unitRuns 7 (packed [(0, 3), (30, 255)])).beatOf 1 0 7 aBody).m 30 8 + ((unitRuns 7 (packed
      [(0, 3), (30, 255)])).beatOf 1 0 7 aBody).n ≤ 256 ∧ (unitRuns 7 (packed [(0, 3), (30, 255)])).portsFree 1 aBody.beat = true) := by
  iterate 3 refine ⟨by decide +kernel, ?_⟩
  decide +kernel

/-- States and operands that meet the conditions of `LaneRowsComplete`, clause by clause: valuAdd, valuSub, valuMul, valuFma, valuMax,
valuMin, valuDiv, valuSqrt, valuAbs, valuNeg, valuSel, valuCmpgt, valuMov, vtrExp, vtrExp2, vtrLog, vtrRecip, vtrRsqrt, vtrTanh,
vtrSigmoid, vtrGelu, vtrSin, vtrCos. -/
theorem test_premises_LaneRowsComplete :
    ((veOp 0).unitDue 1 0 8 aBody = true ∧ mopOpc ((veOp 0).beatOf 1 0 8 aBody).m = 3 ∧ mop ((veOp 0).beatOf 1 0 8 aBody).m 36 6 = 0) ∧
    ((veOp 1).unitDue 1 0 8 aBody = true ∧ mopOpc ((veOp 1).beatOf 1 0 8 aBody).m = 3 ∧ mop ((veOp 1).beatOf 1 0 8 aBody).m 36 6 = 1) ∧
    ((veOp 2).unitDue 1 0 8 aBody = true ∧ mopOpc ((veOp 2).beatOf 1 0 8 aBody).m = 3 ∧ mop ((veOp 2).beatOf 1 0 8 aBody).m 36 6 = 2) ∧
    ((veOp 3).unitDue 1 0 8 aBody = true ∧ mopOpc ((veOp 3).beatOf 1 0 8 aBody).m = 3 ∧ mop ((veOp 3).beatOf 1 0 8 aBody).m 36 6 = 3) ∧
    ((veOp 4).unitDue 1 0 8 aBody = true ∧ mopOpc ((veOp 4).beatOf 1 0 8 aBody).m = 3 ∧ mop ((veOp 4).beatOf 1 0 8 aBody).m 36 6 = 4) ∧
    ((veOp 5).unitDue 1 0 8 aBody = true ∧ mopOpc ((veOp 5).beatOf 1 0 8 aBody).m = 3 ∧ mop ((veOp 5).beatOf 1 0 8 aBody).m 36 6 = 5) ∧
    ((veOp 6).unitDue 1 0 8 aBody = true ∧ mopOpc ((veOp 6).beatOf 1 0 8 aBody).m = 3 ∧ mop ((veOp 6).beatOf 1 0 8 aBody).m 36 6 = 6) ∧
    ((veOp 7).unitDue 1 0 8 aBody = true ∧ mopOpc ((veOp 7).beatOf 1 0 8 aBody).m = 3 ∧ mop ((veOp 7).beatOf 1 0 8 aBody).m 36 6 = 7) ∧
    ((veOp 8).unitDue 1 0 8 aBody = true ∧ mopOpc ((veOp 8).beatOf 1 0 8 aBody).m = 3 ∧ mop ((veOp 8).beatOf 1 0 8 aBody).m 36 6 = 8) ∧
    ((veOp 9).unitDue 1 0 8 aBody = true ∧ mopOpc ((veOp 9).beatOf 1 0 8 aBody).m = 3 ∧ mop ((veOp 9).beatOf 1 0 8 aBody).m 36 6 = 9) ∧
    ((veOp 10).unitDue 1 0 8 aBody = true ∧ mopOpc ((veOp 10).beatOf 1 0 8 aBody).m = 3 ∧ mop ((veOp 10).beatOf 1 0 8 aBody).m 36 6 =
      10) ∧
    ((veOp 11).unitDue 1 0 8 aBody = true ∧ mopOpc ((veOp 11).beatOf 1 0 8 aBody).m = 3 ∧ mop ((veOp 11).beatOf 1 0 8 aBody).m 36 6 =
      11) ∧
    ((veOp 12).unitDue 1 0 8 aBody = true ∧ mopOpc ((veOp 12).beatOf 1 0 8 aBody).m = 3 ∧ mop ((veOp 12).beatOf 1 0 8 aBody).m 36 6 =
      12) ∧
    ((vtrOp 0).unitDue 1 0 8 aBody = true ∧ mopOpc ((vtrOp 0).beatOf 1 0 8 aBody).m = 4 ∧ mop ((vtrOp 0).beatOf 1 0 8 aBody).m 24 4 = 0)
      ∧
    ((vtrOp 1).unitDue 1 0 8 aBody = true ∧ mopOpc ((vtrOp 1).beatOf 1 0 8 aBody).m = 4 ∧ mop ((vtrOp 1).beatOf 1 0 8 aBody).m 24 4 = 1)
      ∧
    ((vtrOp 2).unitDue 1 0 8 aBody = true ∧ mopOpc ((vtrOp 2).beatOf 1 0 8 aBody).m = 4 ∧ mop ((vtrOp 2).beatOf 1 0 8 aBody).m 24 4 = 2)
      ∧
    ((vtrOp 3).unitDue 1 0 8 aBody = true ∧ mopOpc ((vtrOp 3).beatOf 1 0 8 aBody).m = 4 ∧ mop ((vtrOp 3).beatOf 1 0 8 aBody).m 24 4 = 3)
      ∧
    ((vtrOp 4).unitDue 1 0 8 aBody = true ∧ mopOpc ((vtrOp 4).beatOf 1 0 8 aBody).m = 4 ∧ mop ((vtrOp 4).beatOf 1 0 8 aBody).m 24 4 = 4)
      ∧
    ((vtrOp 5).unitDue 1 0 8 aBody = true ∧ mopOpc ((vtrOp 5).beatOf 1 0 8 aBody).m = 4 ∧ mop ((vtrOp 5).beatOf 1 0 8 aBody).m 24 4 = 5)
      ∧
    ((vtrOp 6).unitDue 1 0 8 aBody = true ∧ mopOpc ((vtrOp 6).beatOf 1 0 8 aBody).m = 4 ∧ mop ((vtrOp 6).beatOf 1 0 8 aBody).m 24 4 = 6)
      ∧
    ((vtrOp 7).unitDue 1 0 8 aBody = true ∧ mopOpc ((vtrOp 7).beatOf 1 0 8 aBody).m = 4 ∧ mop ((vtrOp 7).beatOf 1 0 8 aBody).m 24 4 = 7)
      ∧
    ((vtrOp 8).unitDue 1 0 8 aBody = true ∧ mopOpc ((vtrOp 8).beatOf 1 0 8 aBody).m = 4 ∧ mop ((vtrOp 8).beatOf 1 0 8 aBody).m 24 4 = 8)
      ∧
    ((vtrOp 9).unitDue 1 0 8 aBody = true ∧ mopOpc ((vtrOp 9).beatOf 1 0 8 aBody).m = 4 ∧ mop ((vtrOp 9).beatOf 1 0 8 aBody).m 24 4 = 9)
      := by
  iterate 22 refine ⟨by decide +kernel, ?_⟩
  decide +kernel

/-- States and operands that meet the conditions of `ReductionRowsComplete`, clause by clause: vredSum, vredMax, vredMin, vredSumsq. -/
theorem test_premises_ReductionRowsComplete :
    ((vredOp 0).unitDue 1 0 8 aBody = true ∧ mopOpc ((vredOp 0).beatOf 1 0 8 aBody).m = 5 ∧ mop ((vredOp 0).beatOf 1 0 8 aBody).m 24 2 =
      0) ∧
    ((vredOp 1).unitDue 1 0 8 aBody = true ∧ mopOpc ((vredOp 1).beatOf 1 0 8 aBody).m = 5 ∧ mop ((vredOp 1).beatOf 1 0 8 aBody).m 24 2 =
      1) ∧
    ((vredOp 2).unitDue 1 0 8 aBody = true ∧ mopOpc ((vredOp 2).beatOf 1 0 8 aBody).m = 5 ∧ mop ((vredOp 2).beatOf 1 0 8 aBody).m 24 2 =
      2) ∧
    ((vredOp 3).unitDue 1 0 8 aBody = true ∧ mopOpc ((vredOp 3).beatOf 1 0 8 aBody).m = 5 ∧ mop ((vredOp 3).beatOf 1 0 8 aBody).m 24 2 =
      3) := by
  iterate 3 refine ⟨by decide +kernel, ?_⟩
  decide +kernel

/-- States and operands that meet the conditions of `VectorMemoryRowsComplete`, clause by clause: veNop, vld, vst, vrnd, vsptr. -/
theorem test_premises_VectorMemoryRowsComplete :
    ((unitRuns 8 0).unitDue 1 0 8 aBody = true ∧ mopOpc ((unitRuns 8 0).beatOf 1 0 8 aBody).m = 0) ∧
    ((unitRuns 8 (packed [(0, 1), (12, 5), (39, 1)])).unitDue 1 0 8 aBody = true ∧ mopOpc ((unitRuns 8 (packed [(0, 1), (12, 5), (39,
      1)])).beatOf 1 0 8 aBody).m = 1 ∧ (unitRuns 8 (packed [(0, 1), (12, 5), (39, 1)])).fmt 1 (mop ((unitRuns 8 (packed [(0, 1), (12, 5),
      (39, 1)])).beatOf 1 0 8 aBody).m 39 5) = some Fmt.f16 ∧ Fmt.f16.scaled = false ∧ Fmt.f16 ≠ Fmt.f32 ∧ ((unitRuns 8 (packed [(0, 1),
      (12, 5), (39, 1)])).beatOf 1 0 8 aBody).n = 1 ∧ aBody.mb = 0 ∧ (unitRuns 8 (packed [(0, 1), (12, 5), (39, 1)])).portsFree 1
      aBody.beat = true) ∧
    ((unitRuns 8 (packed [(0, 2), (39, 1)])).unitDue 1 0 8 aBody = true ∧ mopOpc ((unitRuns 8 (packed [(0, 2), (39, 1)])).beatOf 1 0 8
      aBody).m = 2 ∧ (unitRuns 8 (packed [(0, 2), (39, 1)])).fmt 1 (mop ((unitRuns 8 (packed [(0, 2), (39, 1)])).beatOf 1 0 8 aBody).m 39
      5) = some Fmt.f16 ∧ Fmt.f16.scaled = false ∧ aBody.mb = 0 ∧ mop ((unitRuns 8 (packed [(0, 2), (39, 1)])).beatOf 1 0 8 aBody).m 45 1
      = 0 ∧ (unitRuns 8 (packed [(0, 2), (39, 1)])).portsFree 1 aBody.beat = true) ∧
    ((unitRuns 8 6).unitDue 1 0 8 aBody = true ∧ mopOpc ((unitRuns 8 6).beatOf 1 0 8 aBody).m = 6 ∧ aBody.mb = 0) ∧
    ((unitRuns 8 (packed [(0, 7), (12, 1), (13, 77)])).unitDue 1 0 8 aBody = true ∧ mopOpc ((unitRuns 8 (packed [(0, 7), (12, 1), (13,
      77)])).beatOf 1 0 8 aBody).m = 7 ∧ aBody.mb = 0) := by
  iterate 4 refine ⟨by decide +kernel, ?_⟩
  decide +kernel

/-- States and operands that meet the conditions of `StreamEngineRowsComplete`, clause by clause: seNop, scopy, rbput, rbget, rget, rput,
rgetBurstMove, rputBurstMove. -/
theorem test_premises_StreamEngineRowsComplete :
    ((unitRuns 9 0).unitDue 1 0 9 aBody = true ∧ mopOpc ((unitRuns 9 0).beatOf 1 0 9 aBody).m = 0) ∧
    ((unitRuns 9 (packed [(0, 1), (33, 31)])).unitDue 1 0 9 aBody = true ∧ mopOpc ((unitRuns 9 (packed [(0, 1), (33, 31)])).beatOf 1 0 9
      aBody).m = 1 ∧ mop ((unitRuns 9 (packed [(0, 1), (33, 31)])).beatOf 1 0 9 aBody).m 33 7 < (unitRuns 9 (packed [(0, 1), (33,
      31)])).ncores 1 ∧ (unitRuns 9 (packed [(0, 1), (33, 31)])).portsFree 1 aBody.beat = true) ∧
    ((unitRuns 9 (packed [(0, 2), (53, 1)])).unitDue 1 0 9 aBody = true ∧ mopOpc ((unitRuns 9 (packed [(0, 2), (53, 1)])).beatOf 1 0 9
      aBody).m = 2 ∧ (unitRuns 9 (packed [(0, 2), (53, 1)])).rbAddr 1 (mop ((unitRuns 9 (packed [(0, 2), (53, 1)])).beatOf 1 0 9 aBody).m
      12 9) (mop ((unitRuns 9 (packed [(0, 2), (53, 1)])).beatOf 1 0 9 aBody).m 21 11) (16 * ((unitRuns 9 (packed [(0, 2), (53,
      1)])).beatOf 1 0 9 aBody).n) = some 0 ∧ (unitRuns 9 (packed [(0, 2), (53, 1)])).portsFree 1 aBody.beat = true) ∧
    ((unitRuns 9 3).unitDue 1 0 9 aBody = true ∧ mopOpc ((unitRuns 9 3).beatOf 1 0 9 aBody).m = 3 ∧ (unitRuns 9 3).rbAddr 1 (mop
      ((unitRuns 9 3).beatOf 1 0 9 aBody).m 12 9) (mop ((unitRuns 9 3).beatOf 1 0 9 aBody).m 21 11) (16 * ((unitRuns 9 3).beatOf 1 0 9
      aBody).n) = some 0) ∧
    ((ringRegs 1).unitDue 1 0 9 aBody = true ∧ aBody.mb = 0 ∧ (ringRegs 1).cset 1 (mop ((ringRegs 1).beatOf 1 0 9 aBody).m 49 5) < 65535
      ∧ mop ((ringRegs 1).beatOf 1 0 9 aBody).m 37 12 + 1 ≤ ((ringRegs 1).ring 1 ((ringRegs 1).ringHome 1 (ringIdx 0 (mop ((ringRegs
      1).beatOf 1 0 9 aBody).m 12 4)))).n ∧ mopOpc ((ringRegs 1).beatOf 1 0 9 aBody).m = 4 ∧ (((ringRegs 1).ring 1 (ringIdx 0 (mop
      ((ringRegs 1).beatOf 1 0 9 aBody).m 12 4))).kind = 1 ∨ ((ringRegs 1).ring 1 (ringIdx 0 (mop ((ringRegs 1).beatOf 1 0 9 aBody).m 12
      4))).kind = 3)) ∧
    ((ringRegs 2).unitDue 1 0 9 aBody = true ∧ aBody.mb = 0 ∧ (ringRegs 2).cset 1 (mop ((ringRegs 2).beatOf 1 0 9 aBody).m 49 5) < 65535
      ∧ mop ((ringRegs 2).beatOf 1 0 9 aBody).m 37 12 + 1 ≤ ((ringRegs 2).ring 1 ((ringRegs 2).ringHome 1 (ringIdx 0 (mop ((ringRegs
      2).beatOf 1 0 9 aBody).m 12 4)))).n ∧ mopOpc ((ringRegs 2).beatOf 1 0 9 aBody).m = 5 ∧ (((ringRegs 2).ring 1 (ringIdx 0 (mop
      ((ringRegs 2).beatOf 1 0 9 aBody).m 12 4))).kind = 2 ∨ ((ringRegs 2).ring 1 (ringIdx 0 (mop ((ringRegs 2).beatOf 1 0 9 aBody).m 12
      4))).kind = 4)) ∧
    (1 ∈ allParts ∧ (sBurst false).halted = false ∧ (sBurst false).burst 1 0 2 false = some (aBurst false) ∧ (aBurst false).nrec ≤
      ((sBurst false).ring 1 (ringIdx 0 2)).fill ∧ (((sBurst false).ring 1 (ringIdx 0 2)).kind = 1 → (sBurst false).tagWait 1 3 (some 0) =
      false) ∧ (((sBurst false).issueView 1 (aBurst false).id).ringRead [] 1 (ringIdx 0 2) (aBurst false) (aBurst false).nrec {}).2.1
      = 0) ∧
    (1 ∈ allParts ∧ (sBurst true).halted = false ∧ (sBurst true).burst 1 0 2 true = some (aBurst true) ∧ ((sBurst true).ring 1 ((sBurst
      true).ringHome 1 (ringIdx 0 2))).kind = 3 ∧ ((sBurst true).ring 1 ((sBurst true).ringHome 1 (ringIdx 0 2))).eod = false ∧ (aBurst
      true).nrec ≤ ((sBurst true).ring 1 ((sBurst true).ringHome 1 (ringIdx 0 2))).n - ((sBurst true).ring 1 ((sBurst true).ringHome 1
      (ringIdx 0 2))).fill ∧ 0 < 128 ∧ 2 < 16 ∧ (sBurst true).ringHome 1 (ringIdx 0 2) < 2048 ∧ (aBurst true).cset < 32) := by
  iterate 7 refine ⟨by decide +kernel, ?_⟩
  decide +kernel

/-- States and operands that meet the conditions of `RingRowsComplete`, clause by clause: ringProdWrite, ringConsWrite, ringEod,
ringReset, ringCfgWrite. -/
theorem test_premises_RingRowsComplete :
    (1 ∈ allParts ∧ 127 < 128 ∧ 15 < 16 ∧ (sRing 1).grants rq (Reg.SEQ_RING_PROD 1 (ringIdx 127 15)) = true ∧ ((sRing 1).ring 1 (ringIdx
      127 15)).kind = 1 ∧ ((sRing 1).ring 1 (ringIdx 127 15)).eod = false ∧ ((sRing 1).rn (Reg.SEQ_RING_PROD 1 (ringIdx 127 15)) +
      4294967296 - (sRing 1).rn (Reg.SEQ_RING_CONS 1 (ringIdx 127 15))) % 4294967296 + (8 + 4294967296 - (sRing 1).rn (Reg.SEQ_RING_PROD 1
      (ringIdx 127 15))) % 4294967296 ≤ ((sRing 1).ring 1 (ringIdx 127 15)).n) ∧
    (1 ∈ allParts ∧ 127 < 128 ∧ 15 < 16 ∧ ((sRing 2).wn (Reg.SEQ_RING_PROD 1 2047) 5).grants rq (Reg.SEQ_RING_CONS 1 (ringIdx 127 15)) =
      true ∧ (((sRing 2).wn (Reg.SEQ_RING_PROD 1 2047) 5).ring 1 (ringIdx 127 15)).kind = 2 ∧ (5 + 4294967296 - ((sRing 2).wn
      (Reg.SEQ_RING_PROD 1 2047) 5).rn (Reg.SEQ_RING_CONS 1 (ringIdx 127 15))) % 4294967296 ≤ (((sRing 2).wn (Reg.SEQ_RING_PROD 1 2047)
      5).rn (Reg.SEQ_RING_PROD 1 (ringIdx 127 15)) + 4294967296 - ((sRing 2).wn (Reg.SEQ_RING_PROD 1 2047) 5).rn (Reg.SEQ_RING_CONS 1
      (ringIdx 127 15))) % 4294967296) ∧
    (1 ∈ allParts ∧ 127 < 128 ∧ 15 < 16 ∧ (sRing 1).grants rq (Reg.SEQ_RING_CTRL 1 (ringIdx 127 15)) = true) ∧
    (1 ∈ allParts ∧ 127 < 128 ∧ 15 < 16 ∧ (sRing 1).grants rq (Reg.SEQ_RING_CTRL 1 (ringIdx 127 15)) = true ∧ (sRing 1).stopped 1 =
      true) ∧
    (1 ∈ allParts ∧ 127 < 128 ∧ 15 < 16 ∧ ((sRing 1).wr64 (Reg.SEQ_RING_BASE_LO 1 2047) (addr1 0)).grants rq (Reg.SEQ_RING_CFG 1
      (ringIdx 127 15)) = true ∧ ((sRing 1).wr64 (Reg.SEQ_RING_BASE_LO 1 2047) (addr1 0)).stopped 1 = true ∧ (((sRing 1).wr64
      (Reg.SEQ_RING_BASE_LO 1 2047) (addr1 0)).regWrite (Reg.SEQ_RING_CFG 1 (ringIdx 127 15)) 49).ringFits 1 (ringIdx 127 15) = true) := by
  iterate 4 refine ⟨by decide +kernel, ?_⟩
  decide +kernel


/-! ## Queues, DMA, collectives -/

def withQ (x : Queue) : State := (sPart.wr (qStat 1 0) (Fld.QUE_STAT_STATE.put 0 1)).setQueue 1 0 x
def sDoor : State := (sPart.wr (qStat 1 63) (Fld.QUE_STAT_STATE.put 0 1)).wr (qCfg 1 63) (Fld.QUE_CFG_LOG2N.put 0 8)
def anEntry : List Byte := leBytes 32 (packed [(64, 16)])
def entryRead : HostRead := ⟨0, anEntry⟩
def sFetch : State :=
  (((sPart.wr (qStat 1 63) (Fld.QUE_STAT_STATE.put 0 1)).wr (qCfg 1 63) (Fld.QUE_CFG_EN.put 0 1)).wn (qTail 1 63) 1)
/-- A granted command buffer of one packet of `n` 16-byte units. -/
def aBuf (op n : Nat) (l : List (Nat × Nat)) : CmdBuf :=
  { seq := 0, granted := true, bytes := leBytes (16 * n) (packed ([(0, op), (8, n)] ++ l)) }
def sPkt (b : CmdBuf) : State := withQ { bufs := [b] }
def resetBuf : CmdBuf := { aBuf 3 2 [(32, 3), (8, 255)] with bytes := leBytes 32 (packed [(0, 3), (8, 1), (32, 3), (128, 0), (136, 1)]) }
def newBuf : CmdBuf := { seq := 0, bytes := leBytes 16 0 }
/-- A descriptor of form `f` of partition 1, with the T bit. -/
def aDesc (f : Nat) (l : List (Nat × Nat)) : Desc := ⟨1, 0, 0, 0, leBytes 64 (packed ([(0, f), (8, 1)] ++ l)), none⟩
def copyDesc (f : Nat) : Desc := aDesc f [(32, 256), (128, addr1 0)]
def gcmDesc (f slot : Nat) : Desc := aDesc f [(16, slot), (32, 256), (128, addr1 0)]
def withDesc (x : Desc) : State :=
  ((({ sPart with poison := [(poisonKey 0 0, true)] }).setKey 0xC0 { state := 1, owner := 1, attr := 0, key := List.replicate 32 3#8 }).setKey 0xC1
    { state := 1, owner := 1, attr := 1, key := List.replicate 32 3#8 }).setDma 3 [x]
def okRead (n : Nat) : HostRead := ⟨0, List.replicate n 5#8⟩
def lakeDesc (f : Nat) : Desc := aDesc f [(32, 264)]
/-- One GiB of each stack of partition 1 is stack local, so that its Lake fits. -/
def withLocal (s : State) : State := s.wr (Reg.MEM_PSPLIT 1) (Fld.MEM_PSPLIT_LOCAL_GIB.put 0 1)
def sLakeDma (x : Desc) : State := (withLocal (withDesc x)).wr (Reg.CKP_SLOT_STAT 1 0) (Fld.CKP_SLOT_STAT_STATE.put 0 2)
def doneDesc : Desc := { copyDesc 0 with fin := some ⟨0, 0, [], []⟩ }
def sDone : State := withDesc doneDesc
def ccDesc (op : Nat) : List Byte := leBytes 64 (packed [(0, op), (32, 32), (64, 2), (128, 4), (208, 1)])
def aLaunch (op step : Nat) (g : Bool) : Launch := ⟨0, 0, ccDesc op, 0, g, step, 0, List.replicate 32 9#8, 0, 0, []⟩
def withCc (l : Launch) (n : Nat) : State :=
  (((sPart.setCc 1 7 (some l)).wr (Reg.COL_STAGE_CFG 1) (BitVec.ofNat 32 (packed [(0, n), (4, 1), (8, 1)]))).wr
    (Reg.COL_PORTMAP 1 0) 0x10101010)
def stageLaunch : Launch := { aLaunch 0 2 true with back := [(0, 0, 0, List.replicate 32 1#8), (0, 0, 1, List.replicate 32 1#8)] }
def sStage : State := withCc stageLaunch 2
def sTmo : State := { withCc (aLaunch 0 2 true) 1 with now := 2 ^ 40 }
/-- States and operands that meet the conditions of `QueueRowsComplete`, clause by clause: queueDoorbell, queueEntryFetch, cbGrant,
pktNop, pktWait, pktSignal, pktReset, pktDma, pktSeqRun, pktSeqRun2, pktRegWrite. -/
theorem test_premises_QueueRowsComplete :
    (1 ≤ 4 ∧ 63 ∈ queuesOf 1 ∧ sDoor.grants rq (qTail 1 63) = true ∧ sDoor.qState 1 63 = 1 ∧ ahead32 (BitVec.toNat (256 : Word))
      (sDoor.rn (qTail 1 63)) < 2147483648 ∧ ahead32 (BitVec.toNat (256 : Word)) (sDoor.rn (qDone 1 63)) ≤ sDoor.qSize 1 63) ∧
    (1 ∈ allParts ∧ 63 < 64 ∧ sFetch.halted = false ∧ sFetch.qState 1 63 = 1 ∧ sFetch.flag (qCfg 1 63) Fld.QUE_CFG_EN = true ∧ sFetch.rn
      (qTail 1 63) ≠ sFetch.rn (qHead 1 63) ∧ sFetch.tdiRun 1 = true ∧ (sFetch.queue 1 63).bufs = [] ∧ (sFetch.queue 1 63).gone = [] ∧
      entryRead.status = 0 ∧ (okRead 16).status = 0 ∧ sFetch.entryOk 1 (sliceB entryRead.data 0 32) = true) ∧
    (1 ≤ 4 ∧ 0 ∈ queuesOf 1 ∧ (withQ { bufs := [newBuf] }).halted = false ∧ nextGrant ((withQ { bufs := [newBuf] }).queue 1 0).bufs =
      some newBuf ∧ (∀ k ∈ queuesOf 1, k ≠ 0 → nextGrant ((withQ { bufs := [newBuf] }).queue 1 k).bufs = none)) ∧
    ((sPkt (aBuf 0 1 [])).packetDue 1 0 0 0 (aBuf 0 1 []) = true) ∧
    ((sPkt (aBuf 1 1 [(32, 3)])).packetDue 1 0 0 1 (aBuf 1 1 [(32, 3)]) = true ∧ (sPkt (aBuf 1 1 [(32, 3)])).fget (Reg.FEN_F 1 (leAt
      (List.drop (aBuf 1 1 [(32, 3)]).pos (aBuf 1 1 [(32, 3)]).bytes) 4 2)) Fld.FEN_F_ERR = 0 ∧ (sPkt (aBuf 1 1 [(32, 3)])).flag
      (Reg.FEN_F 1 (leAt (List.drop (aBuf 1 1 [(32, 3)]).pos (aBuf 1 1 [(32, 3)]).bytes) 4 2)) Fld.FEN_F_SIG = false) ∧
    (1 ∈ allParts ∧ (sPkt (aBuf 2 1 [(32, 3)])).packetDue 1 0 0 2 (aBuf 2 1 [(32, 3)]) = true ∧ (sPkt (aBuf 2 1 [(32, 3)])).fget
      (Reg.FEN_F 1 (leAt (List.drop (aBuf 2 1 [(32, 3)]).pos (aBuf 2 1 [(32, 3)]).bytes) 4 2)) Fld.FEN_F_ERR = 0) ∧
    (1 ∈ allParts ∧ (sPkt resetBuf).packetDue 1 0 0 3 resetBuf = true ∧ (((sPkt resetBuf).begun 1 0 0 1).fenceReset 1 (leAt (List.drop
      resetBuf.pos resetBuf.bytes) 4 2)).ending 1 = none) ∧
    ((sPkt (aBuf 16 5 [])).packetDue 1 0 0 16 (aBuf 16 5 []) = true ∧ (sPkt (aBuf 16 5 [])).dmaOpenFor 1 ((sPkt (aBuf 16 5 [])).engineOf
      1 0) = true) ∧
    (1 ∈ allParts ∧ (sPkt (aBuf 32 1 [(32, 1)])).packetDue 1 0 0 32 (aBuf 32 1 [(32, 1)]) = true ∧ (∀ k ∈ queuesOf 1, ∀ c ∈ ((sPkt (aBuf
      32 1 [(32, 1)])).queue 1 k).bufs, c.seqOpen = false) ∧ bitOf (leAt (List.drop (aBuf 32 1 [(32, 1)]).pos (aBuf 32 1 [(32, 1)]).bytes)
      4 1) 0 = true ∧ (sPkt (aBuf 32 1 [(32, 1)])).seqState 1 = seqStopped) ∧
    (1 ∈ allParts ∧ (sPkt (aBuf 32 1 [])).packetDue 1 0 0 32 (aBuf 32 1 []) = true ∧ (∀ k ∈ queuesOf 1, ∀ c ∈ ((sPkt (aBuf 32 1
      [])).queue 1 k).bufs, c.seqOpen = false) ∧ bitOf (leAt (List.drop (aBuf 32 1 []).pos (aBuf 32 1 []).bytes) 4 1) 0 = false ∧ (sPkt
      (aBuf 32 1 [])).stopped 1 = true) ∧
    (1 ∈ allParts ∧ ((sPkt (aBuf 33 1 [(32, 2621452 + 64), (64, 8)])).wr (Reg.SEQ_RING_CFG 1 2) 49).packetDue 1 0 0 33 (aBuf 33 1 [(32,
      2621452 + 64), (64, 8)]) = true ∧ 2 < 16 * ((sPkt (aBuf 33 1 [(32, 2621452 + 64), (64, 8)])).wr (Reg.SEQ_RING_CFG 1 2) 49).ncores 1
      ∧ leAt (List.drop (aBuf 33 1 [(32, 2621452 + 64), (64, 8)]).pos (aBuf 33 1 [(32, 2621452 + 64), (64, 8)]).bytes) 4 4 = 2621452 + 32
      * 2 ∧ (((sPkt (aBuf 33 1 [(32, 2621452 + 64), (64, 8)])).wr (Reg.SEQ_RING_CFG 1 2) 49).ring 1 2).kind = 1 ∧ (((sPkt (aBuf 33 1 [(32,
      2621452 + 64), (64, 8)])).wr (Reg.SEQ_RING_CFG 1 2) 49).ring 1 2).eod = false ∧ ahead32 (((sPkt (aBuf 33 1 [(32, 2621452 + 64), (64,
      8)])).wr (Reg.SEQ_RING_CFG 1 2) 49).rn (Reg.SEQ_RING_PROD 1 2)) (((sPkt (aBuf 33 1 [(32, 2621452 + 64), (64, 8)])).wr
      (Reg.SEQ_RING_CFG 1 2) 49).rn (Reg.SEQ_RING_CONS 1 2)) + ahead32 (leAt (List.drop (aBuf 33 1 [(32, 2621452 + 64), (64, 8)]).pos
      (aBuf 33 1 [(32, 2621452 + 64), (64, 8)]).bytes) 8 4) (((sPkt (aBuf 33 1 [(32, 2621452 + 64), (64, 8)])).wr (Reg.SEQ_RING_CFG 1 2)
      49).rn (Reg.SEQ_RING_PROD 1 2)) ≤ (((sPkt (aBuf 33 1 [(32, 2621452 + 64), (64, 8)])).wr (Reg.SEQ_RING_CFG 1 2) 49).ring 1 2).n) := by
  iterate 10 refine ⟨by decide +kernel, ?_⟩
  decide +kernel

/-- States and operands that meet the conditions of `QueueControlRowsComplete`, clause by clause: queueCancel, contextKill, queueEnable,
fenceWrite. -/
theorem test_premises_QueueControlRowsComplete :
    (1 ∈ allParts ∧ 0 < 64 ∧ (withQ { bufs := [newBuf] }).grants rq (Reg.QUE_CANCEL 1) = true ∧ (List.find? (fun c => c.seq == (withQ {
      bufs := [newBuf] }).rn (Reg.QUE_CANCEL_SEQ 1)) ((withQ { bufs := [newBuf] }).queue 1 0).bufs = some newBuf)) ∧
    (1 ∈ allParts ∧ 0 < 64 ∧ (withQ { }).grants rq (Reg.QUE_CTX 1 0) = true ∧ (withQ { }).fget (qCfg 1 0) Fld.QUE_CFG_CTX = 0 ∧ (withQ {
      }).qState 1 0 ≠ 0) ∧
    (1 ≤ 4 ∧ 63 ∈ queuesOf 1 ∧ sPart.grants rq (qCfg 1 63) = true ∧ sPart.qState 1 63 = 0 ∧ (sPart.queue 1 63).bufs = [] ∧
      Fld.QUE_CFG_EN.get 1 = 1) ∧
    (1 ∈ allParts ∧ sPart.grants rq (Reg.FEN_F 1 3) = true ∧ sPart.hasFence 1 3 = true ∧ bitOf (BitVec.toNat (1 : Word)) 0 = true ∧
      (bitOf (BitVec.toNat (1 : Word)) 1 = true ∨ sPart.fget (Reg.FEN_F 1 3) Fld.FEN_F_ERR = 0)) := by
  iterate 3 refine ⟨by decide +kernel, ?_⟩
  decide +kernel

/-- States and operands that meet the conditions of `DmaRowsComplete`, clause by clause: dmaCopyIn, dmaCopyOut, dmaGcmIn, dmaXtsIn,
dmaGcmOut, dmaXtsOut, dmaLakeExport, dmaLakeImport, dmaDescComplete. -/
theorem test_premises_DmaRowsComplete :
    ((withDesc (copyDesc 0)).descDue 3 0 (copyDesc 0) = true ∧ (okRead 256).status = 0) ∧
    ((withDesc (copyDesc 1)).descDue 3 1 (copyDesc 1) = true) ∧
    (((withDesc (gcmDesc 2 193)).cipherOk 3 (gcmDesc 2 193) false).2 = 0 ∧ (okRead 256).status = 0 ∧ (withDesc (gcmDesc 2 193)).descDue
      3 2 (gcmDesc 2 193) = true) ∧
    (((withDesc (gcmDesc 4 193)).cipherOk 3 (gcmDesc 4 193) false).2 = 0 ∧ (okRead 256).status = 0 ∧ (withDesc (gcmDesc 4 193)).descDue
      3 4 (gcmDesc 4 193) = true) ∧
    (((withDesc (gcmDesc 3 192)).cipherOk 3 (gcmDesc 3 192) true).2 = 0 ∧ (okRead 256).status = 0 ∧ (withDesc (gcmDesc 3 192)).descDue 3
      3 (gcmDesc 3 192) = true) ∧
    (((withDesc (gcmDesc 5 192)).cipherOk 3 (gcmDesc 5 192) true).2 = 0 ∧ (okRead 256).status = 0 ∧ (withDesc (gcmDesc 5 192)).descDue 3
      5 (gcmDesc 5 192) = true) ∧
    ((sLakeDma (lakeDesc 6)).lakeRun (lakeDesc 6).owner (lakeDesc 6).bytes = true ∧ (sLakeDma (lakeDesc 6)).descDue 3 6 (lakeDesc 6) =
      true ∧ ((sLakeDma (lakeDesc 6)).slotState (lakeDesc 6).owner (xLakeSlot (lakeDesc 6).bytes) = 2 ∨ (sLakeDma (lakeDesc 6)).slotState
      (lakeDesc 6).owner (xLakeSlot (lakeDesc 6).bytes) = 3)) ∧
    ((sLakeDma (lakeDesc 7)).lakeRun (lakeDesc 7).owner (lakeDesc 7).bytes = true ∧ (sLakeDma (lakeDesc 7)).descDue 3 7 (lakeDesc 7) =
      true ∧ xDev (lakeDesc 7).bytes = 0 ∧ (sLakeDma (lakeDesc 7)).ckpIdle (lakeDesc 7).owner = true ∧ (okRead 264).status = 0) ∧
    (sDone.dma 3 = [doneDesc] ∧ sDone.nextDesc 3 = none ∧ sDone.halted = false) := by
  iterate 8 refine ⟨by decide +kernel, ?_⟩
  decide +kernel

/-- States and operands that meet the conditions of `CollectiveRowsComplete`, clause by clause: colConfigWrite, pktCcLaunch,
ccBufferGrant, ccSumF32, ccMaxF32, ccOrU32, ccNormrec, ccStage, ccComplete, ccTimeout. -/
theorem test_premises_CollectiveRowsComplete :
    (sPart.grants rq (vf 1 + 6291456 + 64) = true ∧ colConfig 64 = true ∧ 64 % 4 = 0 ∧ writableAt (vf 1 + 6291456 + 64) = true ∧ sPart.stopped 1 = true ∧ (sPart.regWrite (vf 1 +
      6291456 + 64) 3).stageOk 1 = true ∧ (sPart.regWrite (vf 1 + 6291456 + 64) 3).posOk 1 = true ∧ (sPart.regWrite (vf 1 + 6291456 + 64)
      3).rbBaseOk 1 = true ∧ (sPart.regWrite (vf 1 + 6291456 + 64) 3).rotOk 1 = true) ∧
    ((sPkt (aBuf 48 5 [(128, 0), (128 + 32, 32), (128 + 64, 2), (128 + 128, 4), (128 + 208, 1)])).packetDue 1 0 0 48 (aBuf 48 5 [(128,
      0), (128 + 32, 32), (128 + 64, 2), (128 + 128, 4), (128 + 208, 1)]) = true ∧ (sPkt (aBuf 48 5 [(128, 0), (128 + 32, 32), (128 + 64,
      2), (128 + 128, 4), (128 + 208, 1)])).cc 1 (leAt (sliceB (List.drop (aBuf 48 5 [(128, 0), (128 + 32, 32), (128 + 64, 2), (128 + 128,
      4), (128 + 208, 1)]).pos (aBuf 48 5 [(128, 0), (128 + 32, 32), (128 + 64, 2), (128 + 128, 4), (128 + 208, 1)]).bytes) 16 64) 1 1 %
      8) = none ∧ (sPkt (aBuf 48 5 [(128, 0), (128 + 32, 32), (128 + 64, 2), (128 + 128, 4), (128 + 208, 1)])).ccForm 1 (sliceB (List.drop
      (aBuf 48 5 [(128, 0), (128 + 32, 32), (128 + 64, 2), (128 + 128, 4), (128 + 208, 1)]).pos (aBuf 48 5 [(128, 0), (128 + 32, 32), (128
      + 64, 2), (128 + 128, 4), (128 + 208, 1)]).bytes) 16 64) = true) ∧
    (1 ∈ allParts ∧ (withCc (aLaunch 0 0 false) 1).cc 1 7 = some (aLaunch 0 0 false) ∧ (aLaunch 0 0 false).granted = false ∧
      ((List.filter (fun c => match (withCc (aLaunch 0 0 false) 1).cc 1 c with | some m => !m.granted | none => false) (List.range
      7)).length < (withCc (aLaunch 0 0 false) 1).fget (Reg.COL_DYN_STAT 1) Fld.COL_DYN_STAT_FREE)) ∧
    ((withCc (aLaunch 0 1 true) 2).launchDue 1 7 0 (aLaunch 0 1 true) = true ∧ (withCc (aLaunch 0 1 true) 2).sramPlace 1 (leAt (aLaunch
      0 1 true).desc 8 8) (ccLen (aLaunch 0 1 true).desc) = some (0, 64) ∧ ((withCc (aLaunch 0 1 true) 2).nextStage 1 0 ≠ 3 → ∀ k ∈
      stagePorts ((withCc (aLaunch 0 1 true) 2).stage 1 ((withCc (aLaunch 0 1 true) 2).nextStage 1 0)).1 ((withCc (aLaunch 0 1 true)
      2).stage 1 ((withCc (aLaunch 0 1 true) 2).nextStage 1 0)).2.1 ((withCc (aLaunch 0 1 true) 2).stage 1 ((withCc (aLaunch 0 1 true)
      2).nextStage 1 0)).2.2.1 ((withCc (aLaunch 0 1 true) 2).stage 1 ((withCc (aLaunch 0 1 true) 2).nextStage 1 0)).2.2.2, (withCc
      (aLaunch 0 1 true) 2).ccPortBad 1 k = false)) ∧
    ((withCc (aLaunch 1 1 true) 2).launchDue 1 7 1 (aLaunch 1 1 true) = true ∧ (withCc (aLaunch 1 1 true) 2).sramPlace 1 (leAt (aLaunch
      1 1 true).desc 8 8) (ccLen (aLaunch 1 1 true).desc) = some (0, 64) ∧ ((withCc (aLaunch 1 1 true) 2).nextStage 1 0 ≠ 3 → ∀ k ∈
      stagePorts ((withCc (aLaunch 1 1 true) 2).stage 1 ((withCc (aLaunch 1 1 true) 2).nextStage 1 0)).1 ((withCc (aLaunch 1 1 true)
      2).stage 1 ((withCc (aLaunch 1 1 true) 2).nextStage 1 0)).2.1 ((withCc (aLaunch 1 1 true) 2).stage 1 ((withCc (aLaunch 1 1 true)
      2).nextStage 1 0)).2.2.1 ((withCc (aLaunch 1 1 true) 2).stage 1 ((withCc (aLaunch 1 1 true) 2).nextStage 1 0)).2.2.2, (withCc
      (aLaunch 1 1 true) 2).ccPortBad 1 k = false)) ∧
    ((withCc (aLaunch 2 1 true) 2).launchDue 1 7 2 (aLaunch 2 1 true) = true ∧ (withCc (aLaunch 2 1 true) 2).sramPlace 1 (leAt (aLaunch
      2 1 true).desc 8 8) (ccLen (aLaunch 2 1 true).desc) = some (0, 64) ∧ ((withCc (aLaunch 2 1 true) 2).nextStage 1 0 ≠ 3 → ∀ k ∈
      stagePorts ((withCc (aLaunch 2 1 true) 2).stage 1 ((withCc (aLaunch 2 1 true) 2).nextStage 1 0)).1 ((withCc (aLaunch 2 1 true)
      2).stage 1 ((withCc (aLaunch 2 1 true) 2).nextStage 1 0)).2.1 ((withCc (aLaunch 2 1 true) 2).stage 1 ((withCc (aLaunch 2 1 true)
      2).nextStage 1 0)).2.2.1 ((withCc (aLaunch 2 1 true) 2).stage 1 ((withCc (aLaunch 2 1 true) 2).nextStage 1 0)).2.2.2, (withCc
      (aLaunch 2 1 true) 2).ccPortBad 1 k = false)) ∧
    ((withCc (aLaunch 3 1 true) 2).launchDue 1 7 3 (aLaunch 3 1 true) = true ∧ (withCc (aLaunch 3 1 true) 2).sramPlace 1 (leAt (aLaunch
      3 1 true).desc 8 8) (ccLen (aLaunch 3 1 true).desc) = some (0, 64) ∧ ((withCc (aLaunch 3 1 true) 2).nextStage 1 0 ≠ 3 → ∀ k ∈
      stagePorts ((withCc (aLaunch 3 1 true) 2).stage 1 ((withCc (aLaunch 3 1 true) 2).nextStage 1 0)).1 ((withCc (aLaunch 3 1 true)
      2).stage 1 ((withCc (aLaunch 3 1 true) 2).nextStage 1 0)).2.1 ((withCc (aLaunch 3 1 true) 2).stage 1 ((withCc (aLaunch 3 1 true)
      2).nextStage 1 0)).2.2.1 ((withCc (aLaunch 3 1 true) 2).stage 1 ((withCc (aLaunch 3 1 true) 2).nextStage 1 0)).2.2.2, (withCc
      (aLaunch 3 1 true) 2).ccPortBad 1 k = false)) ∧
    (sStage.cc 1 7 = some stageLaunch ∧ sStage.halted = false ∧ stageLaunch.step = 2 ∧ stageLaunch.stage = 0 ∧ (∀ k < sStage.fget
      (Reg.COL_STAGE_CFG 1) Fld.COL_STAGE_CFG_TRAY_N, sStage.ccPortBad 1 k = false ∧ sStage.ccArrived 1 stageLaunch k = some (ccOp
      stageLaunch.desc, ccLen stageLaunch.desc, (fun _ => List.replicate 32 1#8) k)) ∧ sStage.nextStage 1 1 = 3) ∧
    (1 ∈ allParts ∧ (withCc (aLaunch 0 3 true) 1).cc 1 7 = some (aLaunch 0 3 true) ∧ (withCc (aLaunch 0 3 true) 1).halted = false ∧
      (aLaunch 0 3 true).step = 3 ∧ (withCc (aLaunch 0 3 true) 1).sramPlace 1 (leAt (aLaunch 0 3 true).desc 16 8) (ccLen (aLaunch 0 3
      true).desc) = some (0, 128) ∧ (withCc (aLaunch 0 3 true) 1).hasFence 1 (ccSig (aLaunch 0 3 true).desc) = true ∧ (withCc (aLaunch 0 3
      true) 1).fget (Reg.FEN_F 1 (ccSig (aLaunch 0 3 true).desc)) Fld.FEN_F_ERR = 0) ∧
    (1 ∈ allParts ∧ sTmo.cc 1 7 = some (aLaunch 0 2 true) ∧ (aLaunch 0 2 true).step ≠ 0 ∧ (aLaunch 0 2 true).began + 100 * sTmo.fget
      (Reg.COL_CC_TMO 1) Fld.COL_CC_TMO_US < sTmo.now ∧ sTmo.fget (Reg.COL_CC_ERR 1) Fld.COL_CC_ERR_CODE = 0) := by
  iterate 9 refine ⟨by decide +kernel, ?_⟩
  decide +kernel


/-! ## Memory controllers, updates, checkpoints -/

def sWaits : State := sUp.setStk 0 { waiting := [(5, 0, 1, 0)] }
def sPatrol : State := st [(Reg.MEM_STK_CTRL 0, Fld.MEM_STK_CTRL_PATROL_EN.put 0 1)]
def sRows : State := (st [(Reg.MEM_STK_CTRL 0, Fld.MEM_STK_CTRL_PPR_EN.put 0 1)]).setStk 0 { rowErrs := [(9, 1), (9, 2), (9, 3)] }
def sRepair : State := sUp.setStk 0 { rowErrs := [(9, 1)], repairs := [(9, 0)] }
def aPiece : UpdPart := ⟨0, 0, 0, 0⟩
def aStream (kind : Nat) (ran : Bool) : UpdStream := ⟨4, 3, kind, leBytes 64 (packed [(0, kind)]), ran, [aPiece]⟩
def tStream : UpdStream := ⟨4, 3, 0, leBytes 64 (packed [(24, 3)]), false, [aPiece]⟩
def withUp (u : Upd) : State := seqIn seqRunning {} |>.setUp 1 u
def tensorDesc : List Byte := leBytes 64 (packed [(24, 3)])
def sDecide : State := (seqIn seqRunning { cur := aPeriod (anExec 0 0 0), pos := 1 }).wr (Reg.UPD_STATUS 1) (Fld.UPD_STATUS_PENDING.put 0 1)
def withLake (l : Lake) : State := sPart.setLake 1 l
def aDrain : Drain := ⟨false, 0, 8, 0, false, 0, 0⟩
def sDrain : State :=
  { (withLake { drain := some aDrain }).wr (Reg.CKP_CTRL 1) (Fld.CKP_CTRL_DRAIN_EN.put (Fld.CKP_CTRL_MODE.put 0 1) 1) with now := 10000 }
def aBulk (l : List (Nat × Nat)) : RxFrame := ⟨4, 1, 2, 0, 0, leBytes 96 (packed l)⟩
def sBulk : State := sPart.setPort 8 { inbox := [aBulk [(0, 2)]] }
def bulkIn (kind : Nat) (l : List (Nat × Nat)) : State :=
  (((withLake { inbox := [(8, aBulk ((0, kind) :: l))], bheld := [[], []] }).wr (Reg.CKP_CTRL 1) (Fld.CKP_CTRL_ACCEPT.put 0 1)).wr
    (Reg.CKP_BUDDY_SIZE 1) 0xFFFF).wr (Reg.LL_PEER 8) 0
def receivingIn (kind : Nat) (l : List (Nat × Nat)) : State :=
  (bulkIn kind l).wr (Reg.CKP_BSLOT_STAT 1 0) (Fld.CKP_BSLOT_STAT_END.put (Fld.CKP_BSLOT_STAT_STATE.put 0 1) 2)
def sResult : State := withLake { inbox := [(8, aBulk [(0, 3)])], drain := some aDrain, root := [List.replicate 48 0#8, []] }
def sPull : State := (bulkIn 4 []).wr (Reg.CKP_BSLOT_STAT 1 1) (Fld.CKP_BSLOT_STAT_STATE.put 0 3)
def sReadback : State := sPart.wr (Reg.CKP_BSLOT_STAT 1 1) (Fld.CKP_BSLOT_STAT_STATE.put 0 2)
def sTimer : State := { sPart.wr (Reg.CKP_TIMER 1) 1 with now := 100000000 }
def sAbort : State := withLake { aborting := true }
def aRestore : Restore := ⟨0, false, 5, [0, 0, 0, 0], 0⟩
def sLocalLake : State := withLocal sPart
def sRestore : State := withLake { restore := some aRestore }
def sLocal : State := (sPart.wr (Reg.CKP_SLOT_STAT 1 1) (Fld.CKP_SLOT_STAT_STATE.put 0 2)).wr (Reg.CKP_CTRL 1) (Fld.CKP_CTRL_MODE.put 0 2)
/-- States and operands that meet the conditions of `MemoryControlRowsComplete`, clause by clause: psplitWrite, sectorVerify, tagGrant,
patrolRead, rowRepair, rowRepairComplete. -/
theorem test_premises_MemoryControlRowsComplete :
    (sUp.grants rq (Reg.MEM_PSPLIT 1) = true ∧ sUp.partState 1 = 0) ∧
    (1 ∈ allParts ∧ (poisoned sPart).offset 1 (addr1 0) = some 0 ∧ addr1 0 % 256 = 0 ∧ ((poisoned sPart).key (2 * addrKid (addr1 0) +
      1)).state = 1 ∧ ((poisoned sPart).key (2 * addrKid (addr1 0) + 1)).owned 1 = true ∧ 0 + 256 ≤ (poisoned sPart).memSize 1) ∧
    ((tagWinner sWaits.now (List.filter (fun z => z.1 == 5 % 32) (sWaits.stk 0).waiting) = some (5, 0, 1, 0))) ∧
    (sPatrol.flag (Reg.MEM_STK_CTRL 0) Fld.MEM_STK_CTRL_PATROL_EN = true) ∧
    (sRows.flag (Reg.MEM_STK_CTRL 0) Fld.MEM_STK_CTRL_PPR_EN = true ∧ (3 ≤ (List.filter (fun e => e.1 == 9) (sRows.stk
      0).rowErrs).length) ∧ (∀ e ∈ (sRows.stk 0).repairs, e.1 ≠ 9)) ∧
    ((9, 0) ∈ (sRepair.stk 0).repairs) := by
  iterate 5 refine ⟨by decide +kernel, ?_⟩
  decide +kernel

/-- States and operands that meet the conditions of `UpdateRowsComplete`, clause by clause: updTensor, updStreamComplete, normOut, normIn,
updWindowWrite, updConfigWrite. -/
theorem test_premises_UpdateRowsComplete :
    (((withUp { streams := [tStream] }).up 1).streams[0]? = some tStream ∧ tStream.kind = 0 ∧ tStream.ran = false ∧ (withUp { streams :=
      [tStream] }).halted = false ∧ ((withUp { streams := [tStream] }).isApply 1 tStream.desc = true → ((withUp { streams := [tStream]
      }).up 1).normIn ≠ none) ∧ (withUp { streams := [tStream] }).workFmt 1 tStream.desc = some Fmt.e4m3) ∧
    (1 ∈ allParts ∧ ((withUp { streams := [aStream 0 true] }).up 1).streams = [aStream 0 true] ∧ (aStream 0 true).ran = true ∧ (aStream
      0 true).parts = [aPiece] ∧ aPiece.stack = 0 ∧ (aStream 0 true).cset < 32) ∧
    ((List.find? (fun y => y.kind == 1) ((withUp { streams := [aStream 1 false] }).up 1).streams = some (aStream 1 false)) ∧ (withUp {
      streams := [aStream 1 false] }).halted = false ∧ (∀ e ∈ ((withUp { streams := [aStream 1 false] }).up 1).norms, (aStream 1 false).id
      ≤ e.1) ∧ (withUp { streams := [aStream 1 false] }).earlierDone 1 (aStream 1 false).id = true) ∧
    ((List.find? (fun y => y.kind == 2) ((withUp { streams := [aStream 2 false] }).up 1).streams = some (aStream 2 false)) ∧ (withUp {
      streams := [aStream 2 false] }).halted = false) ∧
    (sPart.grants rq (windowReg 1 0) = true ∧ sPart.stopped 1 = true ∧ (sPart.regWrite (windowReg 1 0) 0).fget (Reg.UPD_BANK_BASE 1)
      Fld.UPD_BANK_BASE_MIB + 2 * (sPart.regWrite (windowReg 1 0) 0).fget (Reg.UPD_BANK_SIZE 1) Fld.UPD_BANK_SIZE_MIB ≤ sPart.localGib 1 *
      1024 ∧ (0 = 0 ∨ (sPart.regWrite (windowReg 1 0) 0).areasOk 1 = true)) ∧
    (sPart.grants rq (vf 1 + 4194304 + 32) = true ∧ sPart.stopped 1 = true ∧ writableAt (vf 1 + 4194304 + 32) = true ∧ 32 ∉ [0, 4, 12, 16]) := by
  iterate 5 refine ⟨by decide +kernel, ?_⟩
  decide +kernel

/-- States and operands that meet the conditions of `CommitDecisionCompletes`, clause by clause: commitDecision. -/
theorem test_premises_CommitDecisionCompletes :
    (1 ∈ allParts ∧ sDecide.decisionReady 1 = true ∧ (∀ (l : LoopRec), (sDecide.sq 1).loopRec = some l → l.lvl < 4)) :=
  by decide +kernel

/-- States and operands that meet the conditions of `DrainRowsComplete`, clause by clause: drainSend, bulkFrame, drainDataReceive,
drainEndReceive, drainResultReceive, drainPullReceive, drainAbandonReceive, readbackComplete, drainCfgWrite. -/
theorem test_premises_DrainRowsComplete :
    (sDrain.halted = false ∧ (sDrain.lake 1).drain = some aDrain ∧ sDrain.drainOn 1 = true ∧ aDrain.ended = false ∧ sDrain.bulkWaits 1
      aDrain.port = false ∧ aDrain.began + 10000 ≤ sDrain.now) ∧
    ((sBulk.port 8).inbox = [aBulk [(0, 2)]] ∧ (aBulk [(0, 2)]).typ = 4 ∧ leAt (aBulk [(0, 2)]).payload 0 1 = 2 ∧ (aBulk [(0,
      2)]).payload.length = 96) ∧
    (1 ∈ allParts ∧ ((bulkIn 1 []).lake 1).inbox = [(8, aBulk [(0, 1)])] ∧ (bulkIn 1 []).pullOn 1 8 = none ∧ leAt (aBulk [(0,
      1)]).payload 0 1 = 1 ∧ (bulkIn 1 []).accepts 1 = true ∧ leAt (aBulk [(0, 1)]).payload 8 8 = 0 ∧ (bulkIn 1
      []).receiving 1 8 (aBulk [(0, 1)]).peer (leAt (aBulk [(0, 1)]).payload 4 4) = none ∧ leAt (aBulk [(0, 1)]).payload 16 1 ≤
      (bulkIn 1 []).nstacks 1 * ((bulkIn 1 []).buddySize 1 / 256)) ∧
    (1 ∈ allParts ∧ ((receivingIn 2 [(704, 2)]).lake 1).inbox = [(8, aBulk [(0, 2), (704, 2)])] ∧ (receivingIn 2 [(704, 2)]).pullOn 1 8
      = none ∧ leAt (aBulk [(0, 2), (704, 2)]).payload 0 1 = 2 ∧ (receivingIn 2 [(704, 2)]).accepts 1 = true ∧ (receivingIn 2 [(704,
      2)]).receiving 1 8 (aBulk [(0, 2), (704, 2)]).peer (leAt (aBulk [(0, 2), (704, 2)]).payload 4 4) = some 0 ∧ leAt (aBulk [(0, 2),
      (704, 2)]).payload 80 8 * 256 ≤ (receivingIn 2 [(704, 2)]).buddySize 1 ∧ leAt (aBulk [(0, 2), (704, 2)]).payload 88 1 = (receivingIn
      2 [(704, 2)]).nstacks 1) ∧
    (1 ∈ allParts ∧ (sResult.lake 1).inbox = [(8, aBulk [(0, 3)])] ∧ sResult.pullOn 1 8 = none ∧ leAt (aBulk [(0, 3)]).payload 0 1 = 3 ∧
      (sResult.lake 1).drain = some aDrain ∧ aDrain.port = 8 ∧ aDrain.slot < 2 ∧ leAt (aBulk [(0, 3)]).payload 4 4 = sResult.rn
      (Reg.CKP_SLOT_SEQ 1 aDrain.slot) ∧ leAt (aBulk [(0, 3)]).payload 17 1 = 0 ∧ sliceB (aBulk [(0, 3)]).payload 32 48 = (sResult.lake
      1).root.getD aDrain.slot []) ∧
    (1 ∈ allParts ∧ (sPull.lake 1).inbox = [(8, aBulk [(0, 4)])] ∧ sPull.pullOn 1 8 = none ∧ leAt (aBulk [(0, 4)]).payload 0 1 = 4 ∧
      sPull.accepts 1 = true ∧ leAt (aBulk [(0, 4)]).payload 4 4 = 0 ∧ sPull.newestBuddy 1 = some 1) ∧
    (1 ∈ allParts ∧ ((receivingIn 5 []).lake 1).inbox = [(8, aBulk [(0, 5)])] ∧ (receivingIn 5 []).pullOn 1 8 = none ∧ leAt (aBulk [(0,
      5)]).payload 0 1 = 5 ∧ (receivingIn 5 []).accepts 1 = true ∧ (receivingIn 5 []).receiving 1 8 (aBulk [(0, 5)]).peer (leAt (aBulk
      [(0, 5)]).payload 4 4) = some 0) ∧
    (1 ∈ allParts ∧ sReadback.halted = false ∧ (List.find? (fun b => sReadback.bslotState 1 b == 2) (List.range 2) = some 1)) ∧
    (1 ∈ allParts ∧ sPart.grants rq (Reg.CKP_DRAIN_CFG 1) = true) := by
  iterate 8 refine ⟨by decide +kernel, ?_⟩
  decide +kernel

/-- States and operands that meet the conditions of `CheckpointRowsComplete`, clause by clause: snapshotTimer, snapshotComplete, quiet,
restoreComplete, ckpAbort, ckpRestore, ckpPull, ckpHostack, ckpConfigWrite. -/
theorem test_premises_CheckpointRowsComplete :
    (sTimer.fget (Reg.CKP_TIMER 1) Fld.CKP_TIMER_SECONDS ≠ 0 ∧ (sTimer.lake 1).timer + sTimer.fget (Reg.CKP_TIMER 1)
      Fld.CKP_TIMER_SECONDS * 100000000 ≤ sTimer.now) ∧
    (1 ∈ allParts ∧ 1 < 2 ∧ (withLake { snap := some 1 }).halted = false ∧ ((withLake { snap := some 1 }).lake 1).snap = some 1) ∧
    (1 ∈ allParts ∧ (sAbort.lake 1).aborting = true ∧ sAbort.drained 1 = true ∧ (∀ n < 16, sAbort.flag (Reg.LL_BIND n 1)
      Fld.LL_BIND_VALID = false)) ∧
    (1 ∈ allParts ∧ (sRestore.lake 1).restore = some aRestore ∧ sRestore.stopped 1 = true ∧ sRestore.halted = false) ∧
    (1 ∈ allParts ∧ sPart.grants rq (Reg.CKP_CTRL 1) = true ∧ Fld.CKP_CTRL_MODE.get 0 = sPart.ckpMode 1 ∧ Fld.CKP_CTRL_ACCEPT.get 0 =
      b2n (sPart.accepts 1) ∧ Fld.CKP_CTRL_RESTORE.get 0 = 0 ∧ Fld.CKP_CTRL_PULL.get 0 = 0) ∧
    (1 ∈ allParts ∧ sPart.grants rq (Reg.CKP_CTRL 1) = true ∧ Fld.CKP_CTRL_MODE.get 0 = sPart.ckpMode 1 ∧ Fld.CKP_CTRL_ACCEPT.get 0 =
      b2n (sPart.accepts 1) ∧ Fld.CKP_CTRL_ABORT.get 0 = 0 ∧ Fld.CKP_CTRL_PULL.get 0 = 0 ∧ sPart.stopped 1 = true ∧ sPart.halted = false ∧
      (sPart.lake 1).restore = none) ∧
    (1 ∈ allParts ∧ sLocalLake.grants rq (Reg.CKP_CTRL 1) = true ∧ Fld.CKP_CTRL_MODE.get 0 = sLocalLake.ckpMode 1 ∧ Fld.CKP_CTRL_ACCEPT.get 0 =
      b2n (sLocalLake.accepts 1) ∧ Fld.CKP_CTRL_ABORT.get 0 = 0 ∧ Fld.CKP_CTRL_RESTORE.get 0 = 0 ∧ (sLocalLake.lake 1).pull = none ∧ sLocalLake.slotState
      1 (Fld.CKP_CTRL_PULL_SLOT.get 0) ≠ 1 ∧ sLocalLake.lakeOk 1 = true) ∧
    (1 ∈ allParts ∧ sLocal.grants rq (Reg.CKP_HOSTACK 1) = true ∧ sLocal.ckpMode 1 = 2 ∧ (List.find? (fun j => sLocal.slotState 1 j == 2
      && sLocal.rn (Reg.CKP_SLOT_SEQ 1 j) == BitVec.toNat (0 : Word)) (List.range 2) = some 1)) ∧
    (sPart.grants rq (vf 1 + 3145728 + 24) = true ∧ 24 ∈ [16, 24, 28] ∧ sPart.ckpIdle 1 = true ∧ (if 24 = 16 then (sPart.regWrite (vf 1 + 3145728 + 24)
      0).lakeOk 1 else (sPart.regWrite (vf 1 + 3145728 + 24) 0).buddyOk 1) = true) := by
  iterate 8 refine ⟨by decide +kernel, ?_⟩
  decide +kernel


/-! ## The keeper -/

/-- The keeper runs with its root key, its identity and its bit generator; partition 1 is an active tenant. -/
def sKeep : State :=
  (sPart.wr Reg.GLB_BOOT_STAT (Fld.GLB_BOOT_STAT_STAGE.put (Fld.GLB_BOOT_STAT_READY.put 0 1) 3)).wr Reg.KEY_ROOT_STAT 7
/-- A command of partition 1 on its mailbox, with argument bytes at their offsets. -/
def aMail (code : Nat) (l : List (Nat × Nat)) : MailCmd :=
  ⟨2, code, 9, leBytes 256 (packed (l.map fun x => (8 * x.1, x.2)))⟩
/-- A command of the device on the mailbox of PF0. -/
def devMail (code : Nat) (l : List (Nat × Nat)) : MailCmd := ⟨1, code, 9, (aMail code l).args⟩
def withKeeper (s : State) (k : Keeper) : State := { s with keeper := k }
def mailIn (s : State) (code : Nat) (l : List (Nat × Nat)) : State := withKeeper s { waiting := [aMail code l] }
def kSlot (attr : Nat) : KeySlot := { state := 1, owner := 1, attr := attr, key := List.replicate 32 3#8, cert := List.replicate 48 4#8 }
/-- Slot 0xC0 holds a key of an attribute. -/
def sSlot (attr : Nat) : State := sKeep.setKey 0xC0 (kSlot attr)
def aSession : Session := ⟨1, 7, List.replicate 48 5#8, List.replicate 48 6#8⟩
def sSession : State := withKeeper sKeep { waiting := [aMail 0x10 [(0, 0xC1), (4, 7)]], sessions := [aSession] }
def aShare : Share := ⟨leBytes 32 0, 0, 1, 1, List.replicate 32 7#8⟩
def sShares : State := withKeeper sKeep { waiting := [aMail 0x22 [(0, 0xC1)]], shares := [aShare] }
def sModel : State := sKeep.setKey 0xC0 { kSlot 3 with model := true }
def sBound : State := withKeeper sModel { waiting := [aMail 0x24 [(0, 9), (4, 5)]], binds := [⟨1, 0xC0, 2, leBytes 32 0⟩] }
def sGo : State := sKeep.wr (boxCmd 2) 0x0901
def sInterposer : State := sKeep.setKey 0xA0 (kSlot 0)
def sSeed : State := withKeeper sKeep { sinceSeed := 1048576 }
def aSnap : List Byte := Crypto.kdf (kSlot 3).key (ascii "SZT60-SNAP") (leBytes 32 0 ++ leBytes 4 2 ++ leBytes 4 5) 256
/-- States and operands that meet the conditions of `MailboxRowsComplete`, clause by clause: mailboxGo, getInfo, slotStatus, getIdentity,
partRevoke, ifcRekey, drbgReseed. -/
theorem test_premises_MailboxRowsComplete :
    (2 < 6 ∧ sGo.grants rq (boxCtrl 2) = true ∧ sGo.flag (boxStatus 2) Fld.KEY_STATUS_BUSY = false ∧ mailCodes.contains (bitsOf (sGo.rn
      (boxCmd 2)) 0 8) = true) ∧
    ((mailIn sKeep 1 []).mailDue 1 (aMail 1 []) = true) ∧
    ((devMail 2 []).part = 0 ∧ (withKeeper sKeep { waiting := [devMail 2 []] }).mailDue 2 (devMail 2 []) = true) ∧
    ((mailIn sKeep 48 []).rootOk = true ∧ (mailIn sKeep 48 []).mailDue 48 (aMail 48 []) = true) ∧
    (1 ≤ (devMail 32 [(0, 1)]).arg 0 ∧ (devMail 32 [(0, 1)]).arg 0 ≤ 4 ∧ ((devMail 32 [(0, 1)]).part = 0 ∨ (devMail 32 [(0, 1)]).part =
      (devMail 32 [(0, 1)]).arg 0) ∧ (withKeeper sKeep { waiting := [devMail 32 [(0, 1)]] }).inUse ((devMail 32 [(0, 1)]).arg 0) = true ∧
      (withKeeper sKeep { waiting := [devMail 32 [(0, 1)]] }).mailDue 32 (devMail 32 [(0, 1)]) = true) ∧
    ((sInterposer.key (160 + 2 * 0)).state = 1 ∧ sInterposer.entropy = true ∧ sInterposer.canLoad (160 + 2 * 0) = true) ∧
    (sSeed.entropy = true ∧ 1048576 ≤ sSeed.keeper.sinceSeed) := by
  iterate 6 refine ⟨by decide +kernel, ?_⟩
  decide +kernel

/-- States and operands that meet the conditions of `KeySlotRowsComplete`, clause by clause: sessionKek, importKey, derive, derivePair,
revoke, setLimit. -/
theorem test_premises_KeySlotRowsComplete :
    ((List.find? (fun x => x.part == (aMail 16 [(0, 193), (4, 7)]).part && x.id == leAt (aMail 16 [(0, 193), (4, 7)]).args 4 4)
      sSession.keeper.sessions = some aSession) ∧ sSession.destSlot (aMail 16 [(0, 193), (4, 7)]).part ((aMail 16 [(0, 193), (4, 7)]).arg
      0) false = Except.ok 193 ∧ sSession.canLoad 193 = true ∧ sSession.mailDue 16 (aMail 16 [(0, 193), (4, 7)]) = true) ∧
    ((mailIn (sSlot 2) 17 [(0, 193), (1, 1), (3, 192)]).mailDue 17 (aMail 17 [(0, 193), (1, 1), (3, 192)]) = true ∧ 1 ≤ (aMail 17 [(0,
      193), (1, 1), (3, 192)]).arg 1 ∧ (aMail 17 [(0, 193), (1, 1), (3, 192)]).arg 1 ≤ 3 ∧ (aMail 17 [(0, 193), (1, 1), (3, 192)]).arg 2 =
      0 ∧ limitsBad 192 ((aMail 17 [(0, 193), (1, 1), (3, 192)]).arg 1) ((aMail 17 [(0, 193), (1, 1), (3, 192)]).arg 56) ((aMail 17 [(0,
      193), (1, 1), (3, 192)]).arg 57) = false ∧ (mailIn (sSlot 2) 17 [(0, 193), (1, 1), (3, 192)]).destSlot (aMail 17 [(0, 193), (1, 1),
      (3, 192)]).part ((aMail 17 [(0, 193), (1, 1), (3, 192)]).arg 0) false = Except.ok 193 ∧ (mailIn (sSlot 2) 17 [(0, 193), (1, 1), (3,
      192)]).sourceBad (aMail 17 [(0, 193), (1, 1), (3, 192)]).part ((aMail 17 [(0, 193), (1, 1), (3, 192)]).arg 3) 2 = 0 ∧ (mailIn (sSlot
      2) 17 [(0, 193), (1, 1), (3, 192)]).canLoad 193 = true) ∧
    ((aMail 18 [(0, 193), (1, 1), (3, 192), (4, 3)]).arg 1 ≤ 3 ∧ (aMail 18 [(0, 193), (1, 1), (3, 192), (4, 3)]).arg 2 = 0 ∧ (aMail 18
      [(0, 193), (1, 1), (3, 192), (4, 3)]).arg 5 ≤ 128 ∧ labelFits ((aMail 18 [(0, 193), (1, 1), (3, 192), (4, 3)]).arg 4) ((aMail 18
      [(0, 193), (1, 1), (3, 192), (4, 3)]).arg 1) = true ∧ limitsBad 192 ((aMail 18 [(0, 193), (1, 1), (3, 192), (4, 3)]).arg 1) ((aMail
      18 [(0, 193), (1, 1), (3, 192), (4, 3)]).arg 144) ((aMail 18 [(0, 193), (1, 1), (3, 192), (4, 3)]).arg 145) = false ∧ ((aMail 18
      [(0, 193), (1, 1), (3, 192), (4, 3)]).arg 1 ≠ 0 ∨ (mailIn (sSlot 3) 18 [(0, 193), (1, 1), (3, 192), (4, 3)]).flag (Reg.PRT_STATE
      (aMail 18 [(0, 193), (1, 1), (3, 192), (4, 3)]).part) Fld.PRT_STATE_JOINT = false) ∧ (mailIn (sSlot 3) 18 [(0, 193), (1, 1), (3,
      192), (4, 3)]).destSlot (aMail 18 [(0, 193), (1, 1), (3, 192), (4, 3)]).part ((aMail 18 [(0, 193), (1, 1), (3, 192), (4, 3)]).arg 0)
      false = Except.ok 193 ∧ (mailIn (sSlot 3) 18 [(0, 193), (1, 1), (3, 192), (4, 3)]).sourceBad (aMail 18 [(0, 193), (1, 1), (3, 192),
      (4, 3)]).part ((aMail 18 [(0, 193), (1, 1), (3, 192), (4, 3)]).arg 3) 3 = 0 ∧ (mailIn (sSlot 3) 18 [(0, 193), (1, 1), (3, 192), (4,
      3)]).canLoad 193 = true ∧ (mailIn (sSlot 3) 18 [(0, 193), (1, 1), (3, 192), (4, 3)]).mailDue 18 (aMail 18 [(0, 193), (1, 1), (3,
      192), (4, 3)]) = true) ∧
    ((aMail 19 [(0, 9), (3, 192), (4, 2)]).arg 0 < 64 ∧ (aMail 19 [(0, 9), (3, 192), (4, 2)]).arg 2 = 0 ∧ (aMail 19 [(0, 9), (3, 192),
      (4, 2)]).arg 5 ≤ 128 ∧ (aMail 19 [(0, 9), (3, 192), (4, 2)]).arg 4 = 2 ∧ (mailIn (sSlot 3) 19 [(0, 9), (3, 192), (4, 2)]).slotFree
      (2 * (aMail 19 [(0, 9), (3, 192), (4, 2)]).arg 0) = true ∧ (mailIn (sSlot 3) 19 [(0, 9), (3, 192), (4, 2)]).sourceBad (aMail 19 [(0,
      9), (3, 192), (4, 2)]).part ((aMail 19 [(0, 9), (3, 192), (4, 2)]).arg 3) 3 = 0 ∧ (mailIn (sSlot 3) 19 [(0, 9), (3, 192), (4,
      2)]).canLoad (2 * (aMail 19 [(0, 9), (3, 192), (4, 2)]).arg 0) = true ∧ (mailIn (sSlot 3) 19 [(0, 9), (3, 192), (4, 2)]).mailDue 19
      (aMail 19 [(0, 9), (3, 192), (4, 2)]) = true) ∧
    ((mailIn (sSlot 3) 24 [(0, 192)]).ownBad (aMail 24 [(0, 192)]).part ((aMail 24 [(0, 192)]).arg 0) = 0 ∧ (mailIn (sSlot 3) 24 [(0,
      192)]).mailDue 24 (aMail 24 [(0, 192)]) = true) ∧
    ((mailIn (sSlot 3) 25 [(0, 192), (1, 9), (2, 10)]).ownBad (aMail 25 [(0, 192), (1, 9), (2, 10)]).part ((aMail 25 [(0, 192), (1, 9),
      (2, 10)]).arg 0) = 0 ∧ limitAbove ((aMail 25 [(0, 192), (1, 9), (2, 10)]).arg 1) ((mailIn (sSlot 3) 25 [(0, 192), (1, 9), (2,
      10)]).key ((aMail 25 [(0, 192), (1, 9), (2, 10)]).arg 0)).soft = false ∧ limitAbove ((aMail 25 [(0, 192), (1, 9), (2, 10)]).arg 2)
      ((mailIn (sSlot 3) 25 [(0, 192), (1, 9), (2, 10)]).key ((aMail 25 [(0, 192), (1, 9), (2, 10)]).arg 0)).hard = false ∧ (mailIn (sSlot 3) 25 [(0, 192), (1, 9), (2, 10)]).mailDue 25 (aMail 25 [(0, 192), (1, 9), (2, 10)]) =
      true) := by
  and_intros <;> first | decide +kernel | rfl

/-- States and operands that meet the conditions of `JointKeyRowsComplete`, clause by clause: mordantShare, mordantDerive, lakeBind,
lakeKey. -/
theorem test_premises_JointKeyRowsComplete :
    ((mailIn (sSlot 2) 33 [(0, 192), (2, 1)]).mailDue 33 (aMail 33 [(0, 192), (2, 1)]) = true ∧ (mailIn (sSlot 2) 33 [(0, 192), (2,
      1)]).sourceBad (aMail 33 [(0, 192), (2, 1)]).part ((aMail 33 [(0, 192), (2, 1)]).arg 0) 2 = 0 ∧ ((mailIn (sSlot 2) 33 [(0, 192), (2,
      1)]).key ((aMail 33 [(0, 192), (2, 1)]).arg 0)).cert ≠ [] ∧ (mailIn (sSlot 2) 33 [(0, 192), (2, 1)]).shareFits (aMail 33 [(0, 192),
      (2, 1)]).part ((aMail 33 [(0, 192), (2, 1)]).arg 1) ((aMail 33 [(0, 192), (2, 1)]).arg 2) (sliceB (aMail 33 [(0, 192), (2, 1)]).args
      48 32) = true ∧ (2 ≤ (aMail 33 [(0, 192), (2, 1)]).arg 2 → (generalSlots.any fun j => ((mailIn (sSlot 2) 33 [(0, 192), (2, 1)]).key
      j).state == 1 && ((mailIn (sSlot 2) 33 [(0, 192), (2, 1)]).key j).attr == 0 && ((mailIn (sSlot 2) 33 [(0, 192), (2, 1)]).key
      j).owned (aMail 33 [(0, 192), (2, 1)]).part) = false)) ∧
    (sShares.destSlot (aMail 34 [(0, 193)]).part ((aMail 34 [(0, 193)]).arg 0) false = Except.ok 193 ∧ ((List.filter (fun x => x.job ==
      sliceB (aMail 34 [(0, 193)]).args 48 32) sShares.keeper.shares).head? = some aShare) ∧ aShare.count ≠ 0 ∧ (aShare.count ≤
      (List.filter (fun x => x.job == sliceB (aMail 34 [(0, 193)]).args 48 32) sShares.keeper.shares).length) ∧ (aMail 34 [(0, 193)]).part
      ∈ allParts ∧ (((List.filter (fun x => x.job == sliceB (aMail 34 [(0, 193)]).args 48 32) sShares.keeper.shares).any fun y => y.part
      == (aMail 34 [(0, 193)]).part) = true) ∧ (allParts.all fun p => !(List.filter (fun x => x.job == sliceB (aMail 34 [(0, 193)]).args 48 32)
      sShares.keeper.shares).any (fun y => y.part == p) || sShares.quotaLeft p != 0) = true ∧ sShares.canLoad 193 = true ∧ sShares.mailDue 34 (aMail 34 [(0, 193)]) = true) ∧
    ((mailIn sModel 35 [(0, 192), (4, 7)]).sourceBad (aMail 35 [(0, 192), (4, 7)]).part ((aMail 35 [(0, 192), (4, 7)]).arg 0) 3 = 0 ∧
      ((mailIn sModel 35 [(0, 192), (4, 7)]).key ((aMail 35 [(0, 192), (4, 7)]).arg 0)).model = true ∧ (mailIn sModel 35 [(0, 192), (4,
      7)]).mailDue 35 (aMail 35 [(0, 192), (4, 7)]) = true) ∧
    ((aMail 36 [(0, 9), (4, 5)]).arg 0 < 64 ∧ sBound.slotFree (2 * (aMail 36 [(0, 9), (4, 5)]).arg 0) = true ∧ sBound.canLoad (2 *
      (aMail 36 [(0, 9), (4, 5)]).arg 0) = true ∧ sBound.snapKey (aMail 36 [(0, 9), (4, 5)]).part (leAt (aMail 36 [(0, 9), (4, 5)]).args 4
      4) = Except.ok (192, aSnap) ∧ sBound.mailDue 36 (aMail 36 [(0, 9), (4, 5)]) = true) := by
  and_intros <;> first | decide +kernel | rfl


/-! ## Tenancy -/

def inState (s : State) (i tdi : Nat) : State := s.wr (Reg.PRT_STATE 1) (Fld.PRT_STATE_TDI.put (Fld.PRT_STATE_STATE.put 0 i) tdi)
def memUp (s : State) : State :=
  (s.wr (Reg.MEM_STK_STAT 0) (Fld.MEM_STK_STAT_STATE.put 0 2)).wr (Reg.MEM_STK_STAT 1) (Fld.MEM_STK_STAT_STATE.put 0 2)
def sAdmit : State := memUp (inState sKeep 1 0)
def sRemove : State := memUp (inState sKeep 5 0)
def sLockable : State :=
  (inState sKeep 2 0).wr (Reg.HST_IDE 0) (Fld.HST_IDE_SECURE.put (Fld.HST_IDE_VF.put 0 1) 1)
def sSecure : State := sKeep.wr (Reg.HST_IDE 0) (Fld.HST_IDE_SECURE.put (Fld.HST_IDE_VF.put 0 1) 1)
def sBindOf : State := sPart.wr (Reg.LL_BIND 3 1) (Fld.LL_BIND_PEER_END.put (Fld.LL_BIND_VALID.put 0 1) 7)
def withSession (s : State) : State :=
  { s with keeper := { s.keeper with sessions := [⟨1, 7, List.replicate 48 5#8, List.replicate 48 6#8⟩] } }
def sVf : State := { sKeep with mse := true, vfs := 4 }
def newRegion : Word := BitVec.ofNat 32 (packed [(0, 1), (2, 1), (8, 63)])
def sRegion : State :=
  { ((sVf.wr (Reg.TKEY_RGN_2 1 0) 0).wr (Reg.TKEY_RGN_1 1 0) 0xFFFFF) with vfs := 4 }
def rv : RegReq := ⟨3, true, 255⟩
def sScrub : State := st [(Reg.DBG_SCRUB_CTRL, Fld.DBG_SCRUB_CTRL_THRESH.put (Fld.DBG_SCRUB_CTRL_EN.put 0 1) 3)]
def sErrs : State := { sScrub with cores := { sScrub.cores with colErrs := [(macroIdx 5 2 3 * 1024 + 7, 4)], scrubPass := sScrub.scrubPass } }
def sSpent : State := { sErrs with cores := { sErrs.cores with spares := [0, 1, 2, 3].map fun k => (spareIdx 5 2 3 k, 2048 + 100 + k) } }
def sTesting : State := { sErrs with cores := { sErrs.cores with tests := [(5, 2, 3, 7, 0)] } }
/-- A record of an operation on a stack's queue. -/
def aRec (op : Nat) (started : Bool) (l : List (Nat × Nat)) : NmeRec := ⟨1, 0, leBytes 64 (packed ((0, op) :: l)), started⟩
def withRec (r : NmeRec) : State :=
  { ((sPart.setStk 0 { queue := [r] }).setKey 0xA0 { state := 1 }).setKey 0xA1 { state := 1 } with poison := [(poisonKey 0 0, true)] }
def aParts : NmeXfer := ⟨4, 1, 2, [0, 1]⟩
def sParts : State := { (sPart.wr (Reg.SEQ_GRP 1 0 0) 1).setStk 0 {} with nmeXfers := [aParts] }
/-- States and operands that meet the conditions of `PartitionRowsComplete`, clause by clause: layoutWrite, assign, admissionComplete,
removalComplete, partitionRemovedNotice, functionLevelReset. -/
theorem test_premises_PartitionRowsComplete :
    (sUp.grants rq Reg.PRT_LAYOUT = true ∧ (∀ p ∈ allParts, sUp.partState p = 0) ∧ (Fld.PRT_LAYOUT_PARTS.get 2 = 1 ∨
      Fld.PRT_LAYOUT_PARTS.get 2 = 2 ∨ Fld.PRT_LAYOUT_PARTS.get 2 = 4)) ∧
    (1 ∈ allParts ∧ (inState sPart 0 0).grants rq (Reg.PRT_CTRL 1) = true ∧ (inState sPart 0 0).flag Reg.PRT_STATUS
      Fld.PRT_STATUS_LAYOUT_BUSY = false ∧ (inState sPart 0 0).nquad 1 ≠ 0 ∧ (inState sPart 0 0).partState 1 = 0 ∧ (inState sPart 0
      0).flag Reg.LCS_STAT Fld.LCS_STAT_BUSY = false) ∧
    (1 ∈ allParts ∧ sAdmit.partState 1 = 1 ∧ sAdmit.wipable 1 = true) ∧
    (1 ∈ allParts ∧ sRemove.partState 1 = 5 ∧ sRemove.wipable 1 = true) ∧
    (3 < 16 ∧ 1 ∈ allParts ∧ sBindOf.flag (Reg.LL_BIND 3 1) Fld.LL_BIND_VALID = true ∧ sBindOf.fget (Reg.LL_BIND 3 1)
      Fld.LL_BIND_PEER_END = 7) ∧
    (sPart.inUse 1 = true) := by
  iterate 5 refine ⟨by decide +kernel, ?_⟩
  decide +kernel

/-- States and operands that meet the conditions of `MessageRowsComplete`, clause by clause: lockInterfaceRequest, startInterfaceRequest,
stopInterfaceRequest, getDeviceInterfaceReport, getMeasurements, getCertificate, keyExchange, mordantReport. -/
theorem test_premises_MessageRowsComplete :
    (1 ∈ allParts ∧ sLockable.answersDoe 1 = true ∧ sLockable.lockOk 1 = true ∧ sLockable.entropy = true) ∧
    (1 ∈ allParts ∧ (inState sKeep 3 1).answersDoe 1 = true ∧ (inState sKeep 3 1).partState 1 = 3 ∧ [] = ((inState sKeep 3 1).tenancy
      1).nonce) ∧
    (sKeep.answersDoe 1 = true ∧ sKeep.inUse 1 = true) ∧
    (sKeep.answersDoe 1 = true ∧ (sKeep.partState 1 = 3 ∨ sKeep.partState 1 = 4)) ∧
    (sKeep.answersDoe 1 = true ∧ sKeep.identOk = true ∧ sKeep.rootOk = true ∧ 1 ≤ 2 ∧ 2 ≤ 8) ∧
    (sKeep.answersDoe 1 = true ∧ sKeep.identOk = true ∧ sKeep.rootOk = true ∧ 0 ≤ 1) ∧
    (sKeep.answersDoe 1 = true ∧ sKeep.identOk = true ∧ sKeep.rootOk = true ∧ sKeep.entropy = true ∧ (((List.filter (fun x => x.part ==
      1) sKeep.keeper.sessions).any fun x => x.id == 7) = false) ∧ (1 = 0 ∨ (List.filter (fun x => x.part == 1)
      sKeep.keeper.sessions).length < 8)) ∧
    ((withSession sKeep).answersDoe 1 = true ∧ (withSession sKeep).rootOk = true ∧ (((withSession sKeep).keeper.sessions.any fun x =>
      x.part == 1 && x.id == 7) = true)) := by
  iterate 7 refine ⟨by decide +kernel, ?_⟩
  decide +kernel

/-- States and operands that meet the conditions of `ProtectionRowsComplete`, clause by clause: regionEntryWrite, regionEntryClear,
bar2Read, bar2Write, ideIntegrityFail, ideKm, ideKmDown. -/
theorem test_premises_ProtectionRowsComplete :
    (1 ∈ allParts ∧ 0 < 32 ∧ 2 < 3 ∧ rv.who = 1 + 2 ∧ rv.trusted = true ∧ rv.be % 16 = 15 ∧ sRegion.tdiRun 1 = true ∧ sRegion.reaches rv
      (Reg.TKEY_RGN_0 1 0 + 4 * 2) = true ∧ sRegion.flag (Reg.TKEY_RGN_2 1 0) Fld.TKEY_RGN_2_VALID = false ∧ (2 = 2 →
      Fld.TKEY_RGN_2_VALID.get newRegion = 1 → sRegion.rgnWhy 1 0 newRegion = 0)) ∧
    (1 ∈ allParts ∧ 0 < 32 ∧ 2 < 3 ∧ rv.who = 1 + 2 ∧ rv.trusted = true ∧ rv.be % 16 = 15 ∧ sVf.tdiRun 1 = true ∧ sVf.reaches rv
      (Reg.TKEY_RGN_0 1 0 + 4 * 2) = true ∧ sVf.flag (Reg.TKEY_RGN_2 1 0) Fld.TKEY_RGN_2_VALID = true ∧ 2 = 2 ∧ Fld.TKEY_RGN_2_VALID.get 0
      = 0) ∧
    (sVf.vfEnabled 1 = true ∧ sVf.partState 1 = 4 ∧ sVf.tdiRun 1 = true ∧ (∀ x ∈ sVf.barPieces 1 64 (min 32 (sVf.memSize 1 - 64)), sVf.checkSector 1 mBarRd true x.1 x.2 = 0))
      ∧
    (sVf.vfEnabled 1 = true ∧ sVf.partState 1 = 4 ∧ sVf.tdiRun 1 = true ∧ (∀ x ∈ sVf.barPieces 1 64 (min (List.replicate 32 1#8).length
      (sVf.memSize 1 - 64)), sVf.checkSector
      1 mBarWr true x.1 x.2 = 0)) ∧
    (0 < 4 ∧ sSecure.fget (Reg.HST_IDE 0) Fld.HST_IDE_VF ∈ allParts ∧ sSecure.flag (Reg.HST_IDE 0) Fld.HST_IDE_SECURE = true) ∧
    (1 ∈ allParts ∧ 0 < 4 ∧ 9 < 256 ∧ (withSession sKeep).answersDoe 1 = true ∧ (((withSession sKeep).keeper.sessions.any fun x =>
      x.part == 1 && x.id == 7) = true) ∧ ((withSession sKeep).fget (Reg.HST_IDE 0) Fld.HST_IDE_VF = 1 ∨ (withSession sKeep).flag
      (Reg.HST_IDE 0) Fld.HST_IDE_SECURE = false)) ∧
    (1 ∈ allParts ∧ 0 < 4 ∧ 9 < 256 ∧ (withSession sSecure).answersDoe 1 = true ∧ (((withSession sSecure).keeper.sessions.any fun x =>
      x.part == 1 && x.id == 7) = true) ∧ (withSession sSecure).fget (Reg.HST_IDE 0) Fld.HST_IDE_VF = 1) := by
  iterate 6 refine ⟨by decide +kernel, ?_⟩
  decide +kernel

/-- States and operands that meet the conditions of `RepairRowsComplete`, clause by clause: scrubRead, columnTest, columnTestDeferred,
columnTestVerdict, retirePendSet. -/
theorem test_premises_RepairRowsComplete :
    (5 < 136 ∧ sScrub.flag Reg.DBG_SCRUB_CTRL Fld.DBG_SCRUB_CTRL_EN = true) ∧
    (sErrs.testDue 5 2 3 7 = true ∧ (List.find? (fun k => sErrs.spare 5 2 3 k / 1024 == 0) (List.range 4) = some 0)) ∧
    (5 < 136 ∧ sSpent.testDue 5 2 3 7 = true ∧ (List.find? (fun k => sSpent.spare 5 2 3 k / 1024 == 0) (List.range 4) = none)) ∧
    (5 < 136 ∧ (5, 2, 3, 7, 0) ∈ sTesting.cores.tests ∧ (∀ x ∈ sTesting.cores.tests, x.1 = 5 → x.2.1 = 2 → x.2.2.1 = 3 → x.2.2.2.1 = 7 →
      x = (5, 2, 3, 7, 0))) ∧
    (5 < 136 ∧ sUp.grants rq (Reg.DBG_CORE_STAT 5) = true ∧ Fld.DBG_CORE_STAT_RETIRE_PEND.get (Fld.DBG_CORE_STAT_RETIRE_PEND.put
      0 1) = 1) := by
  iterate 4 refine ⟨by decide +kernel, ?_⟩
  decide +kernel

/-- States and operands that meet the conditions of `NearMemoryRowsComplete`, clause by clause: nmeRecordStart, nmeNop, gemv, nmeCopy,
fill, zero, wipe, gather, scatterAdd, nmePartComplete. -/
theorem test_premises_NearMemoryRowsComplete :
    (((withRec (aRec 0 false [])).stk 0).queue = [aRec 0 false []] ∧ (aRec 0 false []).started = false ∧ (withRec (aRec 0 false
      [])).halted = false) ∧
    ((withRec (aRec 0 true [])).recordDue 0 0 (aRec 0 true []) = true) ∧
    ((withRec (aRec 1 true [])).recordDue 0 1 (aRec 1 true []) = true) ∧
    ((withRec (aRec 2 true [])).recordDue 0 2 (aRec 2 true []) = true) ∧
    ((withRec (aRec 3 true [])).recordDue 0 3 (aRec 3 true []) = true) ∧
    ((withRec (aRec 4 true [])).recordDue 0 4 (aRec 4 true []) = true) ∧
    ((withRec (aRec 5 true [])).recordDue 0 5 (aRec 5 true []) = true) ∧
    ((withRec (aRec 6 true [])).recordDue 0 6 (aRec 6 true []) = true) ∧
    ((withRec (aRec 7 true [])).recordDue 0 7 (aRec 7 true []) = true) ∧
    ((List.find? (fun x => x.stks.contains 0 && !((sParts.stk 0).queue ++ (sParts.stk 0).backlog).any fun r => r.xfer == x.id) sParts.nmeXfers = some aParts) ∧
      aParts.part ∈ allParts ∧ aParts.cset < 32) := by
  iterate 9 refine ⟨by decide +kernel, ?_⟩
  decide +kernel


/-! ## The block as a whole -/

def rvf : RegReq := ⟨3, false, 255⟩
def rnb : RegReq := ⟨0, false, 7⟩
def sIdle : State := { sPart with vfs := 4 }
def sWaiting : State := { sPart with pending := [.thermtrip] }
def sBooted : State := st [(Reg.GLB_BOOT_STAT, Fld.GLB_BOOT_STAT_READY.put 0 1)]
def sRails : State := sUp
def resetWord : Word := Fld.GLB_RST_CTRL_WARM.put (Fld.GLB_RST_CTRL_KEY.put 0 0xA5C3) 1
def aReport : MailCmd := ⟨2, 1, 9, leBytes 256 0⟩
def sReport : State :=
  { sPart.wr Reg.GLB_BOOT_STAT (Fld.GLB_BOOT_STAT_STAGE.put (Fld.GLB_BOOT_STAT_READY.put 0 1) 3) with keeper := { waiting := [aReport] } }
/-- A register with fields alone. -/
def aReg : RegDesc × List Nat := (regDesc Reg.MTR_REC_SEL).getD (⟨0, [], []⟩, [])
/-- States and operands that meet the conditions of `RegisterWriteByAccessCode`, clause by clause: registerWriteWhole,
registerWriteMissing, registerReadReserved. -/
theorem test_premises_RegisterWriteByAccessCode :
    (sUp.grants rq Reg.MTR_REC_SEL = true ∧ aliasOf rq.who Reg.MTR_REC_SEL = Reg.MTR_REC_SEL ∧ Reg.MTR_REC_SEL % 4 = 0 ∧ rgnWord
      Reg.MTR_REC_SEL = none ∧ regDesc Reg.MTR_REC_SEL = some (aReg.1, aReg.2) ∧ sUp.regPut rq.who Reg.MTR_REC_SEL 5 [] =
      sUp.regWrite Reg.MTR_REC_SEL 5) ∧
    (sUp.answers rnb Reg.MTR_REC_SEL = true ∧ aliasOf rnb.who Reg.MTR_REC_SEL = Reg.MTR_REC_SEL ∧ Reg.MTR_REC_SEL % 4 = 0 ∧
      rgnWord Reg.MTR_REC_SEL = none ∧ rnb.be % 16 ≠ 15) ∧
    (regDesc Reg.MTR_REC_SEL = some (aReg.1, aReg.2) ∧ 31 < 32 ∧ (∀ f ∈ aReg.1.fields, 31 < f.fld.lo ∨ f.fld.lo + f.fld.width ≤ 31)) := by
  refine ⟨?_, ?_, ?_⟩ <;> decide +kernel

/-- States and operands that meet the conditions of `UnoccupiedOffset`, clause by clause: unoccupied. -/
theorem test_premises_UnoccupiedOffset :
    (sUp.answers rq 11534336 = true ∧ aliasOf rq.who 11534336 = 11534336 ∧ 11534336 % 4 = 0 ∧ regDesc 11534336 = none ∧ isPairLo
      11534336 = false ∧ (4 ≤ 11534336 → isPairLo (11534336 - 4) = false) ∧ (11534336 < Reg.DBG_WIN_DATA 0 ∨ Reg.DBG_WIN_DATA 0 + 4096 ≤
      11534336)) :=
  by decide +kernel

/-- States and operands that meet the conditions of `FunctionReach`, clause by clause: functionReach. -/
theorem test_premises_FunctionReach :
    (rvf.who = 1 + 2 ∧ 1 ≤ 1 ∧ 1 ≤ 4 ∧ rgnWord (268435456 / 4 * 4) = none ∧ rgnWord ((268435456 + 3) / 4 * 4) = none ∧
      regFn ((268435456 + 3) / 4 * 4) = regFn 268435456 ∧ (regFn 268435456 ≠ 1 ∨ sIdle.vfs < 1 ∨ sIdle.partState 1 = 3
      ∨ sIdle.partState 1 = 5 ∨ sIdle.partState 1 ≤ 2 ∧ rvf.trusted = true ∨ sIdle.partState 1 = 4 ∧ (rvf.trusted = false ∨ sIdle.fget
      (Reg.PRT_STATE 1) Fld.PRT_STATE_TDI ≠ 2))) :=
  by decide +kernel

/-- States and operands that meet the conditions of `OperatorCap`, clause by clause: operatorCap, operatorCapReject. -/
theorem test_premises_OperatorCap :
    (sUp.grants rq Reg.PWR_CAP = true) ∧
    (sUp.grants rq Reg.PWR_CAP = true) := by
  refine ⟨?_, ?_⟩ <;> decide +kernel

/-- States and operands that meet the conditions of `ResetsKeepRetention`, clause by clause: powerOn, keeperWatchdog, warmResetCmd. -/
theorem test_premises_ResetsKeepRetention :
    (sUp.resetNow = none ∧ (sUp.power.off = false ∨ sUp.power.rails = true)) ∧
    (sBooted.resetNow = none ∧ sBooted.bootDone = true) ∧
    (sUp.grants rq Reg.GLB_RST_CTRL = true ∧ Fld.GLB_RST_CTRL_KEY.get resetWord = 42435 ∧ Fld.GLB_RST_CTRL_WARM.get resetWord =
      1) := by
  refine ⟨?_, ?_, ?_⟩ <;> decide +kernel


/-! ## Conditions of clauses beside those above -/

/-- A read error that flips the top bit of the symbols at the offsets named. -/
def flipAt (l : List Nat) : ReadErr := ⟨2, 5, 1, (List.range 288).map fun i => if l.contains (i / 2) then 0x80#8 else 0#8, 0⟩
/-- The conditions of `ChunkCorrection`: one wrong symbol in each chunk, the last of them in the MAC; two in the third. -/
theorem test_premises_ChunkCorrection :
    (errOf [flipAt [0, 63, 64, 143]] 2 5 0 = some (flipAt [0, 63, 64, 143]) ∧ (flipAt [0, 63, 64, 143]).flip.length = 288 ∧
      ∀ c, c < 4 → wrongSymbols (flipAt [0, 63, 64, 143]).flip c ≤ 1) ∧
    (errOf [flipAt [64, 134]] 2 5 0 = some (flipAt [64, 134]) ∧ (flipAt [64, 134]).flip.length = 288 ∧
      ∃ c, c < 4 ∧ wrongSymbols (flipAt [64, 134]).flip c = 2) := by
  refine ⟨?_, ?_, ?_, 2, ?_⟩ <;> decide +kernel
/-- R681: a hot reset that joins a maintenance trigger makes one maintenance reset of cause 4. -/
theorem test_joinedReset : (sTrig.joinReset false false 4 0 0).cause = 4 ∧ (sTrig.joinReset false false 4 0 0).maint = true ∧
    (sTrig.joinReset true false 2 0 0).cold = true := by decide +kernel
/-- R777: of two events of one beat the one of lower code is the older. -/
theorem test_sepiaOrder : (sepiaPut ⟨5, 1, 7, 0x10, 1, 0⟩ [⟨5, 1, 7, 0x12, 1, 0⟩]).map SepiaEntry.code = [0x12, 0x10] := by decide
/-- Registers of a domain whose clock has not locked, which `AccessRowsComplete` speaks of (R19). -/
theorem test_domainDown : State.reset.getsTo rq (Reg.SEQ_CTRL 1) = true ∧ State.reset.domainUp (Reg.SEQ_CTRL 1) = false := by decide +kernel
/-- STOP in GATE_WAIT, with an image loaded, stops at the period to come (`StreamRowsComplete`). -/
theorem test_stopAtGate : (sGateWait {}).seqState 1 = seqGateWait ∧ ((sGateWait {}).sq 1).afterCommit = false ∧
    (sGateWait {}).grants rq (Reg.SEQ_CTRL 1) = true := by decide +kernel
/-- R491: a transfer whose key was revoked after its bundle issued is refused by name of the key, not moved. -/
theorem test_revokedKey : ((sXfer .memrd).setKey 3 {}).keyCode 1 (addrKid (aXfer .memrd).mem) false = 0x01 := by decide +kernel
/-- R28: a write beyond the partition's memory is dropped, with no refusal. -/
theorem test_beyondMemory : (match execBar2Access 1 true (2 ^ 38) 4 (some [1#8, 2#8]) [] sVf with
    | .next t => decide (t.dram = sVf.dram ∧ t.regs = sVf.regs ∧ t.out = sVf.out) | _ => false) = true := by decide +kernel

/-! ## Conditions that are about a step -/

/-- The conditions of `StepKeepsMemoryCanonical`, of `LifecycleBitsOneWay` and of the second clause of `FrontCommandRuns` are met. -/
theorem test_premises_step : State.reset.pending = [] ∧ State.reset.memWf = true ∧ ∃ t, step State.reset = .next t :=
  ⟨rfl, by decide +kernel, _, rfl⟩
/-- So are they with a command in front; with it, those of `WaitingQueueKept` and of `FrameOfEveryCommand`. -/
theorem test_premises_command : sWaiting.memWf = true ∧ (∃ t, step sWaiting = .next t) ∧ ∃ t, exec .thermtrip sWaiting = .next t :=
  ⟨by decide +kernel, ⟨_, rfl⟩, _, rfl⟩
/-- The conditions of `KeeperReportsFrame`: the keeper answers a GET_INFO that waits. -/
theorem test_premises_KeeperReportsFrame : sReport.nextMail = some aReport ∧ ∃ t, exec .getInfo sReport = .next t :=
  ⟨by decide +kernel, _, rfl⟩
/-- THERMTRIP may change the registers and not the key slots. -/
theorem test_touched : Part.keys ∉ touched .thermtrip ∧ Part.regs ∈ touched .thermtrip := by decide

end Sys2Proof.Tests
end

/-! The plain register accesses: what a write by access codes makes of each field, which accesses are reached, and the statements
about them (spec, chapter 00). -/

namespace Sys2Proof.Machine

/-! ## Parts that an operation keeps -/

/-- A part that `Kept` covers is the same. -/
theorem Kept.same {φ : Part → Bool} {s t : State} (h : Kept φ s t) {x : Part} (hx : φ x = true) : x.same s t :=
  match x with
  | .mem => h.mem hx
  | .keys => h.keys hx
  | .cores => h.cores hx
  | .coreMap => h.coreMap hx
  | .fuses => h.fuses hx
  | .flash => h.flash hx
  | .power => h.power hx
  | .tray => h.tray hx
  | .dmas => h.dmas hx
  | .regs => h.regs hx
  | .ports => h.ports hx
  | .lakes => h.lakes hx
  | .mtr => h.mtr hx
  | .shadows => h.shadows hx
  | .out => h.out hx
  | .seqs => h.seqs hx
  | .poison => h.poison hx
  | .channels => h.channels hx
  | .keeper => h.keeper hx
  | .usage => h.usage hx
  | .tenancies => h.tenancies hx
  | .upds => h.upds hx
  | .ringAdv => h.ringAdv hx
  | .wins => h.wins hx
  | .ccs => h.ccs hx
  | .queues => h.queues hx
  | .events => h.events hx
  | .bus => h.bus hx
  | .time => h.time hx
  | .haltReq => h.haltReq hx
  | .halt => h.halt hx
  | .frozen => h.frozen hx
  | .dumps => h.dumps hx
  | .pcie => h.pcie hx

/-- Every part but those listed. -/
def allBut (l : List Part) (x : Part) : Bool := !l.contains x

theorem allBut_eq_true {l : List Part} {x : Part} : allBut l x = true ↔ x ∉ l := by simp [allBut]

/-! ## Fields that lie apart -/

/-- Two fields share no bit. -/
def Fld.apart (f g : Fld) : Prop := f.lo + f.width ≤ g.lo ∨ g.lo + g.width ≤ f.lo

theorem Fld.get_lt (f : Fld) (w : Word) : f.get w < 2 ^ f.width := Nat.mod_lt _ (by positivity)

/-- The bit `k` of a word, as a field of its own. -/
def Fld.bit (k : Nat) : Fld := ⟨k, 1⟩

theorem bitOf_eq_testBit (x k : Nat) : bitOf x k = x.testBit k := by
  rw [bitOf, Nat.testBit_eq_decide_div_mod_eq]
  exact beq_eq_decide ..

theorem getLsbD_eq_of_get_bit {v w : Word} {k : Nat} (h : (Fld.bit k).get v = (Fld.bit k).get w) :
    v.getLsbD k = w.getLsbD k := by
  simp only [Fld.get, Fld.bit, bitsOf, pow_one] at h
  simp only [BitVec.getLsbD, Nat.testBit_eq_decide_div_mod_eq, h]

theorem Fld.bit_apart_iff {f : Fld} {k : Nat} : f.apart (Fld.bit k) ↔ k < f.lo ∨ f.lo + f.width ≤ k := by
  simp only [Fld.apart, Fld.bit]
  omega

/-- The whole word as one field. -/
theorem Fld.get_whole (w : Word) : (⟨0, 32⟩ : Fld).get w = w.toNat := by
  simp [Fld.get, bitsOf, Nat.mod_eq_of_lt w.isLt]
theorem Fld.put_whole (w : Word) (v : Nat) : (⟨0, 32⟩ : Fld).put w v = BitVec.ofNat 32 v := by
  apply BitVec.eq_of_toNat_eq
  rw [← Fld.get_whole, Fld.get_put_same _ _ _ (by decide), BitVec.toNat_ofNat]

/-- A field of one description lies in the word and shares no bit with another one of it. -/
def RegDesc.wf (d : RegDesc) : Prop :=
  (∀ f ∈ d.fields, f.fld.lo + f.fld.width ≤ 32) ∧ d.fields.Pairwise fun f g => f.fld.apart g.fld

/-- `RegDesc.wf` as a test. -/
def RegDesc.wfTest (d : RegDesc) : Bool :=
  decide (∀ f ∈ d.fields, f.fld.lo + f.fld.width ≤ 32) &&
    decide (d.fields.Pairwise fun f g => f.fld.lo + f.fld.width ≤ g.fld.lo ∨ g.fld.lo + g.fld.width ≤ f.fld.lo)

theorem RegDesc.wf_of_wfTest {d : RegDesc} (h : d.wfTest = true) : d.wf := by
  simp only [RegDesc.wfTest, Bool.and_eq_true, decide_eq_true_eq] at h
  exact h

theorem findReg_mem {l : List RegDesc} {off : Nat} {d : RegDesc} {ix : List Nat} (h : findReg l off = some (d, ix)) : d ∈ l := by
  induction l with
  | nil => cases h
  | cons r t ih =>
    rw [findReg] at h
    split at h
    · split at h
      · cases h
        exact List.mem_cons_self
      · exact List.mem_cons_of_mem _ (ih h)
    · exact List.mem_cons_of_mem _ (ih h)

theorem pfTable_of_le {blk : Nat} (h : 11 ≤ blk) : pfTable blk = [] :=
  match blk, h with | _ + 11, _ => rfl
theorem vfTable_of_le {blk : Nat} (h : 9 ≤ blk) : vfTable blk = [] :=
  match blk, h with | _ + 9, _ => rfl
theorem pfTable_wfTest : ∀ blk, blk < 11 → ∀ d ∈ pfTable blk, d.wfTest = true := by decide +kernel
theorem vfTable_wfTest : ∀ blk, blk < 9 → ∀ d ∈ vfTable blk, d.wfTest = true := by decide +kernel

theorem pfTable_wf {blk : Nat} {d : RegDesc} (h : d ∈ pfTable blk) : d.wf := by
  rcases Nat.lt_or_ge blk 11 with hb | hb
  · exact RegDesc.wf_of_wfTest (pfTable_wfTest blk hb d h)
  · rw [pfTable_of_le hb] at h
    cases h
theorem vfTable_wf {blk : Nat} {d : RegDesc} (h : d ∈ vfTable blk) : d.wf := by
  rcases Nat.lt_or_ge blk 9 with hb | hb
  · exact RegDesc.wf_of_wfTest (vfTable_wfTest blk hb d h)
  · rw [vfTable_of_le hb] at h
    cases h

/-- R26, R27: the fields of every register lie in its word and apart from each other. -/
theorem regDesc_wf {a : Nat} {d : RegDesc} {ix : List Nat} (h : regDesc a = some (d, ix)) : d.wf := by
  have hm := findReg_mem h
  split at hm
  · exact pfTable_wf hm
  · exact vfTable_wf hm

/-! ## A field after a write, by access code (R13, R16) -/

/-- What a write of `x` makes of a field that holds `old`. -/
def FieldDesc.written (d : FieldDesc) (locked : Bool) (x old : Nat) : Nat :=
  match d.acc with
  | .rw => if d.isDefined x = true then x else old
  | .rwl => if locked = false ∧ d.isDefined x = true then x else old
  | .w1c => old - (old &&& x)
  | .w1s => old ||| x
  | _ => old

theorem FieldDesc.get_write_same (d : FieldDesc) (locked : Bool) (v w : Word) (h : d.fld.lo + d.fld.width ≤ 32) :
    d.fld.get (d.write locked v w) = d.written locked (d.fld.get v) (d.fld.get w) := by
  have hx := d.fld.get_lt v
  have ho := d.fld.get_lt w
  have put (n : Nat) (hn : n < 2 ^ d.fld.width) : d.fld.get (d.fld.put w n) = n := by
    rw [Fld.get_put_same _ _ _ h, Nat.mod_eq_of_lt hn]
  unfold FieldDesc.write FieldDesc.written
  cases d.acc with
  | rw => dsimp only; split <;> simp only [put _ hx]
  | rwl => cases locked <;> dsimp only <;> split <;> simp_all
  | w1c => exact put _ (by omega)
  | w1s => exact put _ (Nat.or_lt_two_pow ho hx)
  | ro | wo | cmd | rc => rfl

/-- A write of a field is a put of that field, or nothing. -/
theorem FieldDesc.write_eq_put (d : FieldDesc) (locked : Bool) (v w : Word) :
    d.write locked v w = w ∨ ∃ n, d.write locked v w = d.fld.put w n := by
  unfold FieldDesc.write
  cases d.acc with
  | rw | rwl => dsimp only; split; exacts [.inr ⟨_, rfl⟩, .inl rfl]
  | w1c | w1s => exact .inr ⟨_, rfl⟩
  | ro | wo | cmd | rc => exact .inl rfl

theorem FieldDesc.get_write_apart (d : FieldDesc) (locked : Bool) (v w : Word) {g : Fld} (h : d.fld.lo + d.fld.width ≤ 32)
    (hg : d.fld.apart g) : g.get (d.write locked v w) = g.get w := by
  obtain hw | ⟨n, hw⟩ := d.write_eq_put locked v w
  · rw [hw]
  · rw [hw, Fld.get_put_ne _ _ _ _ h hg.symm]

/-- A read gathers a field and leaves the others as gathered. -/
theorem FieldDesc.get_shown_apart (d : FieldDesc) (w acc : Word) {g : Fld} (h : d.fld.lo + d.fld.width ≤ 32)
    (hg : d.fld.apart g) : g.get (d.shown w acc) = g.get acc := by
  unfold FieldDesc.shown
  split
  · rfl
  · rfl
  · exact Fld.get_put_ne _ _ _ _ h hg.symm

/-! ## A word after a write of all its fields -/

/-- A fold of operations that each leave field `g` alone leaves it alone. -/
theorem get_foldl_apart {l : List FieldDesc} {step : Word → FieldDesc → Word} {g : Fld} (w : Word)
    (h : ∀ f ∈ l, ∀ w, g.get (step w f) = g.get w) : g.get (l.foldl step w) = g.get w := by
  induction l generalizing w with
  | nil => rfl
  | cons f t ih =>
    rw [List.foldl_cons, ih _ fun f' hf' => h f' (List.mem_cons_of_mem _ hf'), h f List.mem_cons_self]

/-- The word of a register after a write of `v` by access codes. -/
def writtenWord (l : List FieldDesc) (locked : Bool) (v w : Word) : Word := l.foldl (fun w f => f.write locked v w) w

theorem get_writtenWord_apart {l : List FieldDesc} (locked : Bool) (v w : Word) {g : Fld}
    (hfit : ∀ f ∈ l, f.fld.lo + f.fld.width ≤ 32) (hg : ∀ f ∈ l, f.fld.apart g) :
    g.get (writtenWord l locked v w) = g.get w :=
  get_foldl_apart w fun f hf _ => f.get_write_apart locked v _ (hfit f hf) (hg f hf)

theorem get_writtenWord {l : List FieldDesc} (locked : Bool) (v w : Word) (hfit : ∀ f ∈ l, f.fld.lo + f.fld.width ≤ 32)
    (hap : l.Pairwise fun f g => f.fld.apart g.fld) {f : FieldDesc} (hf : f ∈ l) :
    f.fld.get (writtenWord l locked v w) = f.written locked (f.fld.get v) (f.fld.get w) := by
  induction l generalizing w with
  | nil => cases hf
  | cons e t ih =>
    obtain ⟨he, ht⟩ := List.pairwise_cons.1 hap
    have hfit' : ∀ f ∈ t, f.fld.lo + f.fld.width ≤ 32 := fun f hf => hfit f (List.mem_cons_of_mem _ hf)
    have hcons : writtenWord (e :: t) locked v w = writtenWord t locked v (e.write locked v w) := rfl
    have hefit := hfit e List.mem_cons_self
    rw [hcons]
    rcases List.mem_cons.1 hf with rfl | hft
    · rw [get_writtenWord_apart _ _ _ hfit' fun g hg => (he g hg).symm, f.get_write_same _ _ _ hefit]
    · rw [ih _ hfit' ht hft, e.get_write_apart _ _ _ hefit (he f hft)]

/-- Taking from `x` the bits it shares with `y` leaves the bits of `x` that `y` lacks. -/
theorem testBit_sub_and (x y k : Nat) : (x - (x &&& y)).testBit k = (x.testBit k && !y.testBit k) := by
  have hle : x &&& y ≤ x := Nat.and_le_left
  have hodd : (x &&& y) % 2 = 1 ↔ x % 2 = 1 ∧ y % 2 = 1 := Nat.and_mod_two_eq_one
  induction k generalizing x y with
  | zero =>
    have low : (x - (x &&& y)) % 2 = 1 ↔ x % 2 = 1 ∧ ¬ y % 2 = 1 := by omega
    simp only [Nat.testBit_zero, low, Bool.decide_and, decide_not]
  | succ k ih =>
    have half : (x - (x &&& y)) / 2 = x / 2 - (x / 2 &&& y / 2) := by
      rw [← Nat.and_div_two]
      omega
    rw [Nat.testBit_succ, Nat.testBit_succ, Nat.testBit_succ, half]
    exact ih _ _ Nat.and_le_left Nat.and_mod_two_eq_one

/-! ## A register after a write, and as it reads -/

section
variable (s : State)

@[simp] theorem State.rd_enableIrq (a old b : Nat) : (s.enableIrq a old).rd b = s.rd b := by
  unfold State.enableIrq
  split
  · rfl
  · split <;> rfl
/-- Whether a register is an enable of R596 depends on its address alone. -/
theorem State.intSource_eq_none {s : State} {a : Nat} (t : State) (h : s.intSource a = none) : t.intSource a = none := by
  unfold State.intSource at h ⊢
  dsimp only at h ⊢
  split_ifs at h ⊢
  · simpa using h
  · simpa using h
  · rfl
theorem State.enableIrq_of_none {a : Nat} (old : Nat) (h : s.intSource a = none) : s.enableIrq a old = s := by
  rw [State.enableIrq, h]

theorem State.regWrite_eq {a : Nat} {d : RegDesc} {ix : List Nat} (v : Word) (h : regDesc a = some (d, ix)) :
    s.regWrite a v = (s.wr a (writtenWord d.fields (s.lockOf a) v (s.rd a))).enableIrq a (s.rn a) := by
  rw [State.regWrite, h]
  rfl
theorem State.rd_regWrite {a : Nat} {d : RegDesc} {ix : List Nat} (v : Word) (h : regDesc a = some (d, ix)) :
    (s.regWrite a v).rd a = writtenWord d.fields (s.lockOf a) v (s.rd a) := by
  rw [s.regWrite_eq v h, State.rd_enableIrq, State.rd_wr]
theorem State.rd_regWrite_ne {a b : Nat} (v : Word) (h : b ≠ a) : (s.regWrite a v).rd b = s.rd b := by
  unfold State.regWrite
  split
  · rfl
  · rw [State.rd_enableIrq, State.rd_wr_ne _ _ h]

/-- R13: each field of a register that a write finds. -/
theorem State.get_rd_regWrite {a : Nat} {d : RegDesc} {ix : List Nat} (v : Word) (h : regDesc a = some (d, ix)) {f : FieldDesc}
    (hf : f ∈ d.fields) :
    f.fld.get ((s.regWrite a v).rd a) = f.written (s.lockOf a) (f.fld.get v) (f.fld.get (s.rd a)) := by
  obtain ⟨hfit, hap⟩ := regDesc_wf h
  rw [s.rd_regWrite v h, get_writtenWord _ _ _ hfit hap hf]

/-- R15: a bit in no field of the register. -/
theorem State.bit_rd_regWrite {a : Nat} {d : RegDesc} {ix : List Nat} (v : Word) (h : regDesc a = some (d, ix)) {k : Nat}
    (hk : ∀ f ∈ d.fields, k < f.fld.lo ∨ f.fld.lo + f.fld.width ≤ k) :
    ((s.regWrite a v).rd a).getLsbD k = (s.rd a).getLsbD k := by
  rw [s.rd_regWrite v h]
  exact getLsbD_eq_of_get_bit (get_writtenWord_apart _ _ _ (regDesc_wf h).1 fun f hf => Fld.bit_apart_iff.2 (hk f hf))

/-- A write by access codes changes the registers alone, and sends a vector at most where the register is an
enable (R596). -/
theorem State.regWrite_same (a : Nat) (v : Word) {x : Part} (hregs : x ≠ .regs) (hout : x = .out → s.intSource a = none) :
    x.same s (s.regWrite a v) := by
  by_cases hx : x = .out
  · subst hx
    cases hd : regDesc a with
    | none =>
      rw [State.regWrite, hd]
      rfl
    | some e =>
      rw [s.regWrite_eq v hd, State.enableIrq_of_none _ _ (State.intSource_eq_none _ (hout rfl))]
      rfl
  · exact (State.regWrite_kept (φ := allBut [.regs, .out]) a v (Kept.refl _ s) rfl rfl).same
      (allBut_eq_true.2 (by simp [hregs, hx]))

/-- R15: a bit in no field reads 0. -/
theorem State.bit_regRead {a : Nat} {d : RegDesc} {ix : List Nat} (w : Word) (h : regDesc a = some (d, ix)) {k : Nat}
    (hk : ∀ f ∈ d.fields, k < f.fld.lo ∨ f.fld.lo + f.fld.width ≤ k) : (s.regRead a w).getLsbD k = false := by
  have e : s.regRead a w = d.fields.foldl (fun acc f => f.shown w acc) 0 := by rw [State.regRead, h]
  rw [e, getLsbD_eq_of_get_bit (w := 0)]
  · simp
  · exact get_foldl_apart _ fun f hf acc => f.get_shown_apart w acc ((regDesc_wf h).1 f hf) (Fld.bit_apart_iff.2 (hk f hf))

end

/-! ## What the access commands run -/

section
variable {s : State} {r : RegReq} {a : Nat} {P : State → Prop}

theorem gives_registerWrite {v : Word} {errs : List ReadErr} (h : P (s.write4 r a v errs)) :
    Gives (.registerWrite r a v errs) s P := ⟨_, rfl, h⟩
theorem gives_rcRead (h : P (s.read4 r a)) : Gives (.rcRead r a) s P := ⟨_, rfl, h⟩
theorem gives_loReadLatch (h : P (s.read4 r a)) : Gives (.loReadLatch r a) s P := ⟨_, rfl, h⟩
theorem gives_hiReadShadow (h : P (s.read4 r a)) : Gives (.hiReadShadow r a) s P := ⟨_, rfl, h⟩
theorem gives_pairRead8byte (h : P (s.read8 r a)) : Gives (.pairRead8byte r a) s P := ⟨_, rfl, h⟩
theorem gives_pairWrite8byte {lo hi : Word} (h : P (s.write8 r a lo hi)) : Gives (.pairWrite8byte r a lo hi) s P := ⟨_, rfl, h⟩

end

/-! ## One dword of an access (R17) -/

theorem dwordsOf_four {a : Nat} (h : a % 4 = 0) (v be : Nat) : dwordsOf a 4 v be = [(a, BitVec.ofNat 32 v, be % 16)] := by
  have ha : a / 4 * 4 = a := by omega
  simp [dwordsOf, h, ha, List.range_succ]

theorem dwordsOf_eight {a : Nat} (h : a % 4 = 0) (v be : Nat) :
    dwordsOf a 8 v be =
      [(a, BitVec.ofNat 32 v, be % 256 % 16), (a + 4, BitVec.ofNat 32 (v / 2 ^ 32), be % 256 / 16 % 16)] := by
  have ha : a / 4 * 4 = a := by omega
  simp [dwordsOf, h, ha, List.range_succ]

theorem mem_dwordsOf_four {a v be : Nat} {d : Nat × Word × Nat} (h : d ∈ dwordsOf a 4 v be) :
    d.1 = a / 4 * 4 ∨ d.1 = (a + 3) / 4 * 4 := by
  simp only [dwordsOf, List.mem_map, List.mem_range] at h
  obtain ⟨i, hi, rfl⟩ := h
  dsimp only
  omega

theorem aliasOf_of_out {a : Nat} (who : Nat) (h : a < 0x400000 ∨ 0x400400 ≤ a) : aliasOf who a = a := by
  rw [aliasOf, if_neg]
  omega
theorem aliasOf_of_ne {who a : Nat} (h : who ≠ 1) : aliasOf who a = a := by simp [aliasOf, h]

section
variable {s : State} {r : RegReq} {a : Nat}

/-- A dword that lies in no region table. -/
theorem State.writeDword_eq (hal : aliasOf r.who a = a) (hrgn : rgnWord a = none) (v : Word) (errs : List ReadErr) :
    s.writeDword r a v errs = s.write r a fun s => s.regPut r.who a v errs := by
  rw [State.writeDword, hal, hrgn]
theorem State.writeDword_of_grants (hg : s.grants r a = true) (hal : aliasOf r.who a = a) (hrgn : rgnWord a = none) (v : Word)
    (errs : List ReadErr) : s.writeDword r a v errs = s.regPut r.who a v errs := by
  rw [State.writeDword_eq hal hrgn, State.write_of_grants _ hg]

/-- A write of one aligned dword. -/
theorem State.write4_eq (hal : aliasOf r.who a = a) (h4 : a % 4 = 0) (hrgn : rgnWord a = none) (v : Word)
    (errs : List ReadErr) :
    s.write4 r a v errs = s.write { r with be := r.be % 16 } a fun s => s.regPut r.who a v errs := by
  simp only [State.write4, State.writeSplit, dwordsOf_four h4, List.foldl_cons, List.foldl_nil, BitVec.ofNat_toNat,
    BitVec.setWidth_eq]
  exact State.writeDword_eq (r := { r with be := r.be % 16 }) hal hrgn v errs

theorem State.write4_of_grants (hg : s.grants r a = true) (hal : aliasOf r.who a = a) (h4 : a % 4 = 0)
    (hrgn : rgnWord a = none) (v : Word) (errs : List ReadErr) : s.write4 r a v errs = s.regPut r.who a v errs := by
  have hg' : s.grants { r with be := r.be % 16 } a = true := by
    simp only [State.grants, Nat.mod_mod] at hg ⊢
    exact hg
  rw [State.write4_eq hal h4 hrgn, State.write_of_grants _ hg']

/-- R17: a write with a byte enable missing is dropped. -/
theorem State.write4_partial (ha : s.answers r a = true) (hal : aliasOf r.who a = a) (h4 : a % 4 = 0)
    (hrgn : rgnWord a = none) (hbe : r.be % 16 ≠ 15) (v : Word) (errs : List ReadErr) : s.write4 r a v errs = s := by
  have ha' : s.answers { r with be := r.be % 16 } a = true := ha
  rw [State.write4_eq hal h4 hrgn, State.write, State.access_of_answers _ ha', if_neg]
  simp [hbe]

end

/-! ## Reads -/

section
variable {s : State} {r : RegReq} {a : Nat}

/-- A read of one aligned dword whose home domain answers. -/
theorem State.read4_of_answers (ha : s.answers r a = true) (hal : aliasOf r.who a = a) (h4 : a % 4 = 0) :
    s.read4 r a = (s.readDword r.who a).1.emit (.readDone r.who a [(s.readDword r.who a).2]) := by
  have e : a / 4 * 4 = a := by omega
  simp only [State.read4, State.readSplit, dwordsOf_four h4, e, hal, State.access_of_answers _ ha, List.foldl_cons,
    List.foldl_nil, List.nil_append]

/-- R21: the dword read is in no pair that latches. -/
theorem State.readDword_plain (who : Nat) (hd : s.domainUp a = true) (hlo : isPairLo a = false)
    (hhi : 4 ≤ a → isPairLo (a - 4) = false) : s.readDword who a = s.readLive a := by
  have hhi' : ¬ (4 ≤ a ∧ isPairLo (a - 4) = true) := fun ⟨h, e⟩ => by simp [hhi h] at e
  simp [State.readDword, hd, hlo, hhi']

/-- R21: a read of a `_LO` half latches the other half. -/
theorem State.readDword_lo_shadow (who : Nat) (hd : s.domainUp a = true) (hlo : isPairLo a = true) :
    SMap.get (fun _ => none) (s.readDword who a).1.shadows (shadowKey who a) = some (s.shown (a + 4)) := by
  simp [State.readDword, hd, hlo]

/-- R21: a read of a `_HI` half takes what is latched. -/
theorem State.readDword_hi {who : Nat} {h : Word} (hd : s.domainUp (a + 4) = true) (hlo : isPairLo a = true)
    (hhi : isPairLo (a + 4) = false) (hs : SMap.get (fun _ => none) s.shadows (shadowKey who a) = some h) :
    s.readDword who (a + 4) = ({ s with shadows := SMap.set (fun _ => none) s.shadows (shadowKey who a) none }, h) := by
  simp [State.readDword, hd, hlo, hhi, hs]

/-- A dword outside the debug window. -/
theorem State.readLive_of_out (h : a < Reg.DBG_WIN_DATA 0 ∨ Reg.DBG_WIN_DATA 0 + 4096 ≤ a) :
    s.readLive a = (s.regAfterRead a, s.shown a) := by
  rw [State.readLive, if_neg]
  omega

/-- R18: no register lies there. -/
theorem State.readLive_of_none (h : a < Reg.DBG_WIN_DATA 0 ∨ Reg.DBG_WIN_DATA 0 + 4096 ≤ a) (hd : regDesc a = none) :
    s.readLive a = (s, 0) := by
  simp [State.readLive_of_out h, State.regAfterRead, State.shown, hd]
theorem State.regPut_of_none (who : Nat) (v : Word) (errs : List ReadErr) (hd : regDesc a = none) :
    s.regPut who a v errs = s := by rw [State.regPut, hd]
theorem State.write_of_effectless {f : State → State} (ha : s.answers r a = true) (hf : f s = s) : s.write r a f = s := by
  rw [State.write, State.access_of_answers _ ha]
  split
  · exact hf
  · rfl

end

/-! ## Accesses that a function may not make (R27, R562) -/

section
variable {s t : State} {r : RegReq} {a n : Nat}

theorem State.access_kept_of_not_reaches {φ : Part → Bool} (f : State → State) (hk : Kept φ s t) (hout : φ .out = false)
    (h : t.reaches r a = false) : Kept φ s (t.access r a f) := by
  simp only [State.access, h]
  split
  · exact hk
  · split
    · exact State.emit_kept _ hk hout
    · split
      · contradiction
      · split
        · exact State.emit_kept _ hk hout
        · exact hk

/-- What a requester reaches is a matter of the registers and of the PCIe functions' state. -/
theorem State.reaches_of_kept {φ : Part → Bool} (hk : Kept φ s t) (hregs : φ .regs = true) (hpcie : φ .pcie = true) :
    t.reaches r a = s.reaches r a := by
  obtain ⟨hmse, hvfs, -⟩ := hk.pcie hpcie
  have hget (b : Nat) (f : Fld) : t.fget b f = s.fget b f := by rw [State.fget, State.fget, State.rd, State.rd, hk.regs hregs]
  have hstate (p : Nat) : t.partState p = s.partState p := hget ..
  have hquad (p : Nat) : t.nquad p = s.nquad p := hget ..
  have hopen (p : Nat) (b : Bool) : t.vfOpen p b = s.vfOpen p b := by
    simp only [State.vfOpen, State.vfEnabled, hvfs, hstate, hquad, hget]
  simp only [State.reaches, hmse, hopen]

/-- R27, R562: the function of partition `n` does not reach a register outside its BAR0, nor one of its own in a state that does not
admit it. -/
theorem State.not_reaches_of_function (hw : r.who = n + 2) (h1 : 1 ≤ n)
    (h : regFn a ≠ n ∨ s.vfs < n ∨ s.partState n = 3 ∨ s.partState n = 5 ∨ (s.partState n ≤ 2 ∧ r.trusted = true) ∨
      (s.partState n = 4 ∧ (r.trusted = false ∨ s.fget (Reg.PRT_STATE n) Fld.PRT_STATE_TDI ≠ 2))) :
    s.reaches r a = false := by
  obtain ⟨m, rfl⟩ : ∃ m, n = m + 1 := ⟨n - 1, by omega⟩
  have e : s.reaches r a = (regFn a == m + 1 && s.vfOpen (m + 1) r.trusted) := by
    rw [State.reaches, hw]
    rfl
  rw [e, Bool.and_eq_false_iff]
  rcases h with h | h | h | h | ⟨h, ht⟩ | ⟨h, ht | ht⟩
  · exact .inl (by simpa using h)
  · have hn : ¬ m + 1 ≤ s.vfs := by omega
    exact .inr (by simp [State.vfOpen, State.vfEnabled, hn])
  · exact .inr (by simp [State.vfOpen, h])
  · exact .inr (by simp [State.vfOpen, h])
  · exact .inr (by simp [State.vfOpen, h, ht])
  · exact .inr (by simp [State.vfOpen, h, ht])
  · exact .inr (by simp [State.vfOpen, h, ht])

/-- A split write none of whose dwords the requester reaches. -/
theorem State.writeSplit_kept_of_not_reaches (m v : Nat) (errs : List ReadErr)
    (h : ∀ d ∈ dwordsOf a m v r.be, rgnWord (aliasOf r.who d.1) = none ∧ s.reaches r (aliasOf r.who d.1) = false) :
    Kept (allBut [.out]) s (s.writeSplit r a m v errs) := by
  refine List.foldlRecOn (motive := Kept (allBut [.out]) s) _ _ (Kept.refl _ s) fun t ht d hd => ?_
  obtain ⟨hrgn, hr⟩ := h d hd
  rw [State.writeDword, hrgn]
  exact State.access_kept_of_not_reaches _ ht rfl ((State.reaches_of_kept ht rfl rfl).trans hr)

/-- A split read whose first dword the requester does not reach. -/
theorem State.readSplit_kept_of_not_reaches (m : Nat) (h : s.reaches r (aliasOf r.who (a / 4 * 4)) = false) :
    Kept (allBut [.out]) s (s.readSplit r a m) :=
  State.access_kept_of_not_reaches _ (Kept.refl _ s) rfl h

end

/-! ## Single registers that the access rows name -/

section
variable {s t : State} {r : RegReq} {a b : Nat}

theorem State.grants_of_answers {be : Nat} (ha : s.answers r a = true) (hbe : be % 16 = 15) :
    s.grants { r with be := be } a = true := by
  have ha' : s.answers { r with be := be } a = true := ha
  simp [State.grants, ha', hbe]

/-- A register that is one whole field of code RW takes the word written. -/
theorem State.rd_regWrite_whole {d : RegDesc} {ix : List Nat} {n : Nat} (v : Word) (h : regDesc a = some (d, ix))
    (hf : d.fields = [⟨⟨0, 32⟩, .rw, n, []⟩]) : (s.regWrite a v).rd a = v := by
  have e := s.get_rd_regWrite v h (f := ⟨⟨0, 32⟩, .rw, n, []⟩) (by simp [hf])
  simp only [FieldDesc.written, FieldDesc.isDefined, Fld.get_whole] at e
  exact BitVec.eq_of_toNat_eq e

/-- R20: the registers of one block of PF0, the ports' apart, are reached alike. -/
theorem State.reaches_block (ha : regFn a = 0) (hb : regFn b = 0) (hblk : regOff a / 1048576 = regOff b / 1048576)
    (h5 : regOff b / 1048576 ≠ 5) : s.reaches r a = s.reaches r b := by
  have h5' : (regOff b / 1048576 == 5) = false := beq_eq_false_iff_ne.2 h5
  simp only [State.reaches, ha, hb, hblk, h5', Bool.false_and]

theorem State.getsTo_block (ha : regFn a = 0) (hb : regFn b = 0) (hblk : regOff a / 1048576 = regOff b / 1048576)
    (h5 : regOff b / 1048576 ≠ 5) : s.getsTo r a = s.getsTo r b := by
  rw [State.getsTo, State.getsTo, State.reaches_block ha hb hblk h5]

/-- A register of PF0 is reached by whom it was. -/
theorem State.reaches_pf (ha : regFn a = 0) (hmse : t.mse = s.mse) : t.reaches r a = s.reaches r a := by
  obtain ⟨who, trusted, be⟩ := r
  match who with
  | 0 | 1 => rfl
  | 2 => simp only [State.reaches, hmse]
  | w + 3 => simp [State.reaches, ha]

/-- A write by access codes of a register other than `GLB_BOOT_STAT` leaves a register of PF0 as open as it was. -/
theorem State.getsTo_regWrite (v : Word) (ha : regFn a = 0) (hb : Reg.GLB_BOOT_STAT ≠ b) :
    (s.regWrite b v).getsTo r a = s.getsTo r a := by
  have hpower : (s.regWrite b v).power = s.power := s.regWrite_same b v (x := .power) (by decide) (by simp)
  obtain ⟨hmse, -⟩ := s.regWrite_same b v (x := .pcie) (by decide) (by simp)
  have hup : (s.regWrite b v).mgmtUp = s.mgmtUp := by simp only [State.mgmtUp, State.fget, s.rd_regWrite_ne v hb]
  simp only [State.getsTo, hpower, hup, State.reaches_pf ha hmse]

variable (s)

theorem State.regPut_MTR_REC_SEL (who : Nat) (v : Word) (errs : List ReadErr) :
    s.regPut who Reg.MTR_REC_SEL v errs = s.regWrite Reg.MTR_REC_SEL v := rfl
theorem State.regPut_MTR_RTC_SET_LO (who : Nat) (v : Word) (errs : List ReadErr) :
    s.regPut who Reg.MTR_RTC_SET_LO v errs = s.regWrite Reg.MTR_RTC_SET_LO v := rfl
theorem State.regPut_MTR_RTC_SET_HI (who : Nat) (v : Word) (errs : List ReadErr) :
    s.regPut who Reg.MTR_RTC_SET_HI v errs = s.regWrite Reg.MTR_RTC_SET_HI v := rfl

theorem State.shown_GLB_UPTIME_LO : s.shown Reg.GLB_UPTIME_LO = halfOf s.uptime 0 := rfl
theorem State.shown_GLB_UPTIME_HI : s.shown Reg.GLB_UPTIME_HI = halfOf s.uptime 1 := rfl
theorem State.regAfterRead_GLB_UPTIME_LO : s.regAfterRead Reg.GLB_UPTIME_LO = s := rfl
theorem State.regAfterRead_GLB_UPTIME_HI : s.regAfterRead Reg.GLB_UPTIME_HI = s := rfl

theorem State.shown_MGT_TB_CRC : s.shown Reg.MGT_TB_CRC = s.rd Reg.MGT_TB_CRC := by
  have e : s.shown Reg.MGT_TB_CRC = (⟨0, 32⟩ : Fld).put 0 ((⟨0, 32⟩ : Fld).get (s.rd Reg.MGT_TB_CRC)) := rfl
  rw [e, Fld.put_whole, Fld.get_whole, BitVec.ofNat_toNat, BitVec.setWidth_eq]
theorem State.rd_regAfterRead_MGT_TB_CRC : (s.regAfterRead Reg.MGT_TB_CRC).rd Reg.MGT_TB_CRC = 0 := by
  have e : s.regAfterRead Reg.MGT_TB_CRC = s.wr Reg.MGT_TB_CRC ((⟨0, 32⟩ : Fld).put (s.rd Reg.MGT_TB_CRC) 0) := rfl
  rw [e, State.rd_wr, Fld.put_whole]
  rfl

end

/-! ## Pairs read and written whole (R23) -/

section
variable {s : State} {r : RegReq} {a : Nat}

/-- An 8-byte read at an offset that is 8-byte aligned, of a pair whose low half a read leaves as it is. -/
theorem State.read8_of_answers (ha : s.answers r a = true) (hal : aliasOf r.who a = a) (h8 : a % 8 = 0)
    (hlo : (s.readLive a).1 = s) :
    s.read8 r a = (s.readLive (a + 4)).1.emit (.readDone r.who a [(s.readLive a).2, (s.readLive (a + 4)).2]) := by
  have h8' : ¬ a % 8 ≠ 0 := by omega
  simp only [State.read8, if_neg h8', hal, State.access_of_answers _ ha, (State.answers_iff.1 ha).2, Bool.not_true,
    Bool.false_eq_true, if_false, hlo]

/-- R17, R23: a whole 8-byte write that is no ring's base is the two dwords in ascending order. -/
theorem State.write8_eq (h8 : a % 8 = 0) (hal : aliasOf r.who a = a) (hfn : regFn a = 0) (hbe : r.be = 255) (lo hi : Word) :
    s.write8 r a lo hi = (s.writeDword { r with be := 15 } a lo []).writeDword { r with be := 15 } (a + 4) hi [] := by
  have h4 : a % 4 = 0 := by omega
  have hlo : BitVec.ofNat 32 (lo.toNat + 2 ^ 32 * hi.toNat) = lo := by
    apply BitVec.eq_of_toNat_eq
    rw [BitVec.toNat_ofNat]
    omega
  have hhi : BitVec.ofNat 32 ((lo.toNat + 2 ^ 32 * hi.toNat) / 2 ^ 32) = hi := by
    apply BitVec.eq_of_toNat_eq
    rw [BitVec.toNat_ofNat]
    omega
  simp only [State.write8, hal, hfn, ne_eq, not_true, false_and, and_false, if_false, State.writeSplit, dwordsOf_eight h4,
    List.foldl_cons, List.foldl_nil, hlo, hhi, hbe]

end

/-! ## The access rows -/

section
variable {s : State} {r : RegReq}

/-- A write of `MTR_REC_SEL` sets `INDEX`, which every encoding defines. -/
theorem State.fget_write4_MTR_REC_SEL (hg : s.grants r Reg.MTR_REC_SEL = true) (v : Word) (errs : List ReadErr) :
    (s.write4 r Reg.MTR_REC_SEL v errs).fget Reg.MTR_REC_SEL Fld.MTR_REC_SEL_INDEX = Fld.MTR_REC_SEL_INDEX.get v := by
  rw [State.write4_of_grants hg (aliasOf_of_out _ (by decide)) rfl rfl, State.regPut_MTR_REC_SEL]
  exact s.get_rd_regWrite v (f := ⟨Fld.MTR_REC_SEL_INDEX, .rw, 0x0, []⟩) rfl List.mem_cons_self

/-- R13: a read of a counter of code RC returns it and leaves 0. -/
theorem State.read4_MGT_TB_CRC (ha : s.answers r Reg.MGT_TB_CRC = true) :
    s.read4 r Reg.MGT_TB_CRC =
      (s.regAfterRead Reg.MGT_TB_CRC).emit (.readDone r.who Reg.MGT_TB_CRC [s.rd Reg.MGT_TB_CRC]) := by
  rw [State.read4_of_answers ha (aliasOf_of_out _ (by decide)) rfl,
    State.readDword_plain _ (State.answers_iff.1 ha).2 rfl fun _ => rfl, State.readLive_of_out (.inl (by decide)),
    State.shown_MGT_TB_CRC]

/-- R10, R23: uptime read whole. -/
theorem State.read8_GLB_UPTIME_LO (ha : s.answers r Reg.GLB_UPTIME_LO = true) :
    s.read8 r Reg.GLB_UPTIME_LO =
      s.emit (.readDone r.who Reg.GLB_UPTIME_LO [halfOf s.uptime 0, halfOf s.uptime 1]) := by
  have hlo : s.readLive Reg.GLB_UPTIME_LO = (s, halfOf s.uptime 0) := by
    rw [State.readLive_of_out (.inl (by decide)), s.regAfterRead_GLB_UPTIME_LO, s.shown_GLB_UPTIME_LO]
  have hhi : s.readLive Reg.GLB_UPTIME_HI = (s, halfOf s.uptime 1) := by
    rw [State.readLive_of_out (.inl (by decide)), s.regAfterRead_GLB_UPTIME_HI, s.shown_GLB_UPTIME_HI]
  have hadd : Reg.GLB_UPTIME_LO + 4 = Reg.GLB_UPTIME_HI := rfl
  rw [State.read8_of_answers ha (aliasOf_of_out _ (by decide)) rfl (by rw [hlo]), hadd, hlo, hhi]

/-- R23: both halves of the clock to be set, written whole. -/
theorem State.write8_MTR_RTC_SET_LO (ha : s.answers r Reg.MTR_RTC_SET_LO = true) (hbe : r.be = 255) (lo hi : Word) :
    s.write8 r Reg.MTR_RTC_SET_LO lo hi = (s.regWrite Reg.MTR_RTC_SET_LO lo).regWrite Reg.MTR_RTC_SET_HI hi := by
  have hlo : s.grants { r with be := 15 } Reg.MTR_RTC_SET_LO = true := State.grants_of_answers ha rfl
  have hhi : (s.regWrite Reg.MTR_RTC_SET_LO lo).grants { r with be := 15 } Reg.MTR_RTC_SET_HI = true := by
    refine State.grants_of_answers (State.answers_iff.2 ⟨?_, rfl⟩) rfl
    rw [State.getsTo_regWrite _ rfl (by decide), ← State.getsTo_block (a := Reg.MTR_RTC_SET_LO)]
    exacts [(State.answers_iff.1 ha).1, rfl, rfl, rfl, by decide]
  have hadd : Reg.MTR_RTC_SET_LO + 4 = Reg.MTR_RTC_SET_HI := rfl
  rw [State.write8_eq rfl (aliasOf_of_out _ (by decide)) rfl hbe, hadd,
    State.writeDword_of_grants hlo (aliasOf_of_out _ (by decide)) rfl, State.regPut_MTR_RTC_SET_LO,
    State.writeDword_of_grants hhi (aliasOf_of_out _ (by decide)) rfl, State.regPut_MTR_RTC_SET_HI]

/-- R19: an access that ends in a timeout is a read, answered with ones, where the home domain does not answer; else nothing. -/
theorem gives_accessTimeout {a : Nat} (hto : s.getsTo r a = true) (hal : aliasOf r.who a = a) (h4 : a % 4 = 0) (w : Bool) :
    Gives (.accessTimeout r a w) s fun t =>
      t = if w = true ∨ s.domainUp a = true then s else s.emit (.readDone r.who a [0xFFFFFFFF]) := by
  have e : a / 4 * 4 = a := by omega
  refine ⟨_, rfl, ?_⟩
  rw [e, hal, State.access_of_getsTo _ hto]

end

/-! ## The statements settled -/

/-- Settles O8: each field by `State.get_rd_regWrite`, the bits between the fields by `State.bit_rd_regWrite`. -/
theorem registerWriteByAccessCode : Obligations.RegisterWriteByAccessCode := by
  unfold Obligations.RegisterWriteByAccessCode
  refine ⟨?_, ?_, ?_⟩
  · intro s r a v errs d ix hg hal h4 hrgn hd hput
    apply gives_registerWrite
    rw [State.write4_of_grants hg hal h4 hrgn, hput]
    refine ⟨?_, fun k _ hk => s.bit_rd_regWrite v hd hk, fun b hb => s.rd_regWrite_ne v hb,
      fun x => s.regWrite_same a v⟩
    intro f hf
    dsimp only
    rw [s.get_rd_regWrite v hd hf]
    unfold FieldDesc.written
    cases f.acc with
    | rw | rwl | ro | wo | cmd | rc => rfl
    | w1c =>
      intro k _
      simp only [bitOf_eq_testBit, testBit_sub_and]
    | w1s =>
      intro k _
      simp only [bitOf_eq_testBit, Nat.testBit_or]
  · intro s r a v errs ha hal h4 hrgn hbe
    exact gives_registerWrite (State.write4_partial ha hal h4 hrgn hbe v errs)
  · intro s a d ix hd k _ hk
    exact s.bit_regRead _ hd hk

/-- Settles O10: no dword of the access is reached (`State.not_reaches_of_function`), so it is answered at most. -/
theorem functionReach : Obligations.FunctionReach := by
  unfold Obligations.FunctionReach
  intro s r n a v errs hw h1 _ hrgn hrgn' hfn h
  have hal (b : Nat) : aliasOf r.who b = b := aliasOf_of_ne (by omega)
  have hfn0 : regFn (a / 4 * 4) = regFn a := by unfold regFn; omega
  have hlo : s.reaches r (a / 4 * 4) = false := State.not_reaches_of_function hw h1 (by rwa [hfn0])
  have hhi : s.reaches r ((a + 3) / 4 * 4) = false := State.not_reaches_of_function hw h1 (by rwa [hfn])
  have same {t : State} (ht : Kept (allBut [.out]) s t) (x : Part) (hx : x ≠ .out) : x.same s t :=
    ht.same (allBut_eq_true.2 (by simpa using hx))
  refine ⟨gives_registerWrite (same (State.writeSplit_kept_of_not_reaches _ _ _ fun d hd => ?_)),
    gives_rcRead (same (State.readSplit_kept_of_not_reaches _ (by rwa [hal])))⟩
  rw [hal]
  rcases mem_dwordsOf_four hd with e | e
  · rw [e]
    exact ⟨hrgn, hlo⟩
  · rw [e]
    exact ⟨hrgn', hhi⟩

/-- Settles O14, row by row. -/
theorem accessRowsComplete : Obligations.AccessRowsComplete := by
  unfold Obligations.AccessRowsComplete
  refine ⟨?registerWrite, ?recSelWrite, ?rcRead, ?loReadLatch, ?hiReadShadow, ?pairRead, ?pairWrite, ?accessTimeout⟩
  case registerWrite =>
    intro s r a v errs hg hal h4 hrgn
    exact gives_registerWrite (State.write4_of_grants hg hal h4 hrgn v errs)
  case recSelWrite =>
    intro s r v errs hg
    exact gives_registerWrite (State.fget_write4_MTR_REC_SEL hg v errs)
  case rcRead =>
    intro s r ha
    apply gives_rcRead
    rw [State.read4_MGT_TB_CRC ha]
    exact ⟨by rw [State.emit_out, List.head?_cons], by rw [State.rd_emit, State.rd_regAfterRead_MGT_TB_CRC]⟩
  case loReadLatch =>
    intro s r a ha hal h4 hlo
    apply gives_loReadLatch
    rw [State.read4_of_answers ha hal h4, State.emit_shadows]
    exact State.readDword_lo_shadow _ (State.answers_iff.1 ha).2 hlo
  case hiReadShadow =>
    intro s r a ha hal h4 hlo hhi
    refine gives_hiReadShadow fun h hs => ?_
    rw [State.read4_of_answers ha hal (by omega), State.readDword_hi (State.answers_iff.1 ha).2 hlo hhi hs]
    simp
  case pairRead =>
    intro s r ha
    apply gives_pairRead8byte
    rw [State.read8_GLB_UPTIME_LO ha]
    simp [halfOf, State.uptime]
  case pairWrite =>
    intro s r lo hi ha hbe
    apply gives_pairWrite8byte
    rw [State.write8_MTR_RTC_SET_LO ha hbe]
    exact ⟨(State.rd_regWrite_ne _ hi (by decide)).trans (State.rd_regWrite_whole lo rfl rfl), State.rd_regWrite_whole hi rfl rfl⟩
  case accessTimeout =>
    intro s r a hto hal h4
    refine ⟨fun hd => ?_, fun hd => ?_, ?_⟩
    · simpa [hd] using gives_accessTimeout hto hal h4 false
    · simpa [hd] using gives_accessTimeout hto hal h4 false
    · simpa using gives_accessTimeout hto hal h4 true

/-- Settles O4: each value is read off `State.reset`. -/
theorem resetState : Obligations.ResetState := by
  unfold Obligations.ResetState
  refine ⟨rfl, rfl, rfl, rfl, ?_, ?_, ?_, ?_, ?_, ?_, ?_, ?_, fun _ _ => rfl⟩ <;> decide +kernel

/-- Settles O9: a read there is `State.readLive_of_none`, a write `State.regPut_of_none`. -/
theorem unoccupiedOffset : Obligations.UnoccupiedOffset := by
  unfold Obligations.UnoccupiedOffset
  intro s r a ha hal h4 hd hlo hhi hwin
  refine ⟨gives_rcRead ?_, fun v errs hrgn => gives_registerWrite ?_⟩
  · rw [State.read4_of_answers ha hal h4, State.readDword_plain _ (State.answers_iff.1 ha).2 hlo hhi,
      State.readLive_of_none hwin hd]
  · rw [State.write4_eq hal h4 hrgn]
    exact State.write_of_effectless (r := { r with be := r.be % 16 }) ha (State.regPut_of_none _ v errs hd)

end Sys2Proof.Machine

/-! The rows of halts and tamper events: what a halt that arrives leaves set, what a tamper event leaves of the keys, when a halt is
done (spec, chapter 01). -/

namespace Sys2Proof.Machine

/-! ## A halt that arrives (R49) -/

section
variable (s : State)

/-- What a halt leaves once it has set the halt and dropped its sources: those two parts among them. -/
def keptByHalt : Part → Bool := allBut [.cores, .dmas, .regs, .out, .seqs, .usage, .queues, .events, .frozen]

/-- Stopping the data plane and reporting the halt touch neither the halt nor its sources, once both are set. -/
theorem State.haltNow_kept_halt (src : Nat) :
    Kept keptByHalt { s.fuseCut with halted := true, haltReq := [] } (s.haltNow src) := by
  have parts := kept_foldl (l := allParts) (Kept.refl keptByHalt { s.fuseCut with halted := true, haltReq := [] }) fun _ p h =>
    State.haltPart_kept p h rfl rfl rfl
  have host := State.haltHost_kept parts rfl rfl rfl rfl
  have shown := State.irqMgt_kept Fld.MGT_INT_STATUS_HALT (State.wr_kept Reg.MGT_HALT_STAT
    (Fld.MGT_HALT_STAT_SRC.put (Fld.MGT_HALT_STAT_HALTED.put 0 1) src) host rfl) rfl rfl
  have held := State.fput_kept Reg.DBG_STEP_STAT Fld.DBG_STEP_STAT_HELD 0
    (State.fput_kept Reg.DBG_STEP_CTRL Fld.DBG_STEP_CTRL_HOLD 0 shown rfl) rfl
  have reported := State.platEvent_kept 1 src
    (kept_foldl (l := allUnits) held fun _ u h => State.sepiaRec_kept u 0x60 0 src h rfl) rfl rfl rfl
  exact kept_ite (State.irqDbg_kept _ (State.wr_kept _ _ (kept_mk_frozen reported rfl) rfl) rfl rfl) reported

@[simp] theorem State.haltNow_halted (src : Nat) : (s.haltNow src).halted = true := ((s.haltNow_kept_halt src).halt rfl).1
@[simp] theorem State.haltNow_haltReq (src : Nat) : (s.haltNow src).haltReq = [] := (s.haltNow_kept_halt src).haltReq rfl

variable {s}

theorem State.halt_of_firstHalt {x : Nat × Nat} (h : firstHalt s.haltReq = some x) (hs : s.halted = false) :
    s.halt = s.haltNow x.2 := by
  simp [State.halt, h, hs]

/-- R748: the halt is done where no memory write of a sequencer and no put is outstanding. -/
theorem State.haltDrained_of_drained (hs : s.halted = true)
    (h : ∀ p, p ∈ allParts → (∀ x ∈ (s.sq p).xfers, x.kind ≠ .memwr) ∧ ∀ b ∈ (s.sq p).bursts, b.put = false) :
    s.haltDrained = { s with haltDone := true } := by
  have hnone : (allParts.any fun p =>
      ((s.sq p).xfers.any fun x => x.kind == .memwr) || (s.sq p).bursts.any fun b => b.put) = false := by
    simpa using h
  rw [State.haltDrained, if_neg]
  simp [hs, hnone]

theorem State.haltCtrlW_of_keyed {v : Word} (who : Nat) (hk : Fld.MGT_HALT_CTRL_KEY.get v = 0x484C)
    (hv : Fld.MGT_HALT_CTRL_HALT.get v = 1) : s.haltCtrlW who v = s.askHalt (if who = 1 then 3 else 2) :=
  if_pos ⟨hk, hv⟩

end

/-! ## A tamper event (R40) -/

section
variable (s : State)

/-- R40, R485: what a tamper event empties, whether or not the device runs. -/
def State.tampered (cause : Nat) : State := { s.fuseCut.zeroRoot cause with keys := [] }

theorem State.tamper_eq {s : State} {cause : Nat} (h1 : 1 ≤ cause) (h4 : cause ≤ 4) (hb : cause = 4 → s.power.off = true) :
    s.tamper cause = if s.power.off then s.tampered cause else (s.tampered cause).askHalt 4 := by
  rw [State.tamper, if_neg]
  · rfl
  · rintro (h | h | ⟨h, hoff⟩)
    · omega
    · omega
    · simp [hb h] at hoff

theorem State.tampered_kept (cause : Nat) : Kept (allBut [.keys, .fuses, .regs]) s (s.tampered cause) :=
  kept_mk_keys (State.zeroRoot_kept cause (State.fuseCut_kept (Kept.refl _ s) rfl rfl) rfl) rfl

/-- R485: zeroing the root secret clears `ROOT_OK`, and neither field put after it overlaps it. -/
theorem State.fget_zeroRoot_ROOT_OK (cause : Nat) :
    (s.zeroRoot cause).fget Reg.KEY_ROOT_STAT Fld.KEY_ROOT_STAT_ROOT_OK = 0 := by
  rw [State.fget, State.zeroRoot, State.rd_wr, Fld.get_put_ne _ _ _ _ (by decide) (by decide),
    Fld.get_put_ne _ _ _ _ (by decide) (by decide), Fld.get_put_same _ _ _ (by decide), Nat.zero_mod]

theorem State.tampered_haltReq_askHalt (cause : Nat) :
    ((s.tampered cause).askHalt 4).haltReq = s.haltReq ++ [(s.now, 4)] := by
  have hreq : (s.tampered cause).haltReq = s.haltReq := (s.tampered_kept cause).haltReq rfl
  obtain ⟨hnow, -⟩ := (s.tampered_kept cause).time rfl
  rw [State.askHalt, hreq, hnow]

end

/-! ## The halt and tamper rows -/

/-- Settles O17: a tamper event by `State.tamper_eq`, the halt by `State.haltNow_kept_halt`, its completion by
`State.haltDrained_of_drained`, its command by `State.haltCtrlW_of_keyed`. -/
theorem haltRowsComplete : Obligations.HaltRowsComplete := by
  unfold Obligations.HaltRowsComplete
  refine ⟨?tamperEvent, ?halt, ?haltStopComplete, ?haltCmd⟩
  case tamperEvent =>
    intro s cause h1 h4 hb
    refine ⟨_, rfl, ?_⟩
    rw [State.tamper_eq h1 h4 hb]
    cases hoff : s.power.off with
    | true => exact ⟨rfl, s.fuseCut.fget_zeroRoot_ROOT_OK cause, fun h => nomatch h⟩
    | false => exact ⟨rfl, s.fuseCut.fget_zeroRoot_ROOT_OK cause, fun _ => s.tampered_haltReq_askHalt cause⟩
  case halt =>
    intro s at_ src h hs
    refine ⟨_, rfl, ?_⟩
    rw [State.halt_of_firstHalt h hs]
    exact ⟨s.haltNow_halted src, s.haltNow_haltReq src⟩
  case haltStopComplete =>
    intro s hs h
    exact ⟨_, rfl, State.haltDrained_of_drained hs h⟩
  case haltCmd =>
    intro s r v hg hk hv
    refine ⟨_, rfl, ?_⟩
    rw [State.write_of_grants _ hg, State.haltCtrlW_of_keyed _ hk hv]
    rfl

end Sys2Proof.Machine

/-! The lane-by-lane micro-ops and the reductions of the vector engine: what a stream's step to a beat leaves alone, what one beat of a
unit comes to where its micro-op is due, and the statements settled with them. -/

namespace Sys2Proof.Machine

/-! ## Registers that an operation leaves alone -/

section
variable {s : State}

theorem State.rd_of_kept {φ : Part → Bool} {t : State} (h : Kept φ s t) (hr : φ .regs = true) (a : Nat) : t.rd a = s.rd a := by
  unfold State.rd; rw [h.regs hr]

theorem State.sq_of_kept {φ : Part → Bool} {t : State} (h : Kept φ s t) (hr : φ .seqs = true) (p : Nat) : t.sq p = s.sq p := by
  unfold State.sq; rw [h.seqs hr]

@[simp] theorem State.rd_setSq (p : Nat) (q : Seq) (a : Nat) : (s.setSq p q).rd a = s.rd a := (rfl)
@[simp] theorem State.rd_setUp (p : Nat) (u : Upd) (a : Nat) : (s.setUp p u).rd a = s.rd a := (rfl)
@[simp] theorem State.sq_fput (a : Nat) (f : Fld) (v : Nat) (p : Nat) : (s.fput a f v).sq p = s.sq p := (rfl)
@[simp] theorem State.sq_wr (a : Nat) (w : Word) (p : Nat) : (s.wr a w).sq p = s.sq p := (rfl)
@[simp] theorem State.sq_setUp (p : Nat) (u : Upd) (j : Nat) : (s.setUp p u).sq j = s.sq j := (rfl)

/-- A counter is no register and no part of a stream. -/
theorem State.count_keeps (p ev unit core d : Nat) : Kept (allBut [.usage]) s (s.count p ev unit core d) :=
  State.count_kept p ev unit core d (Kept.refl _ _) rfl
theorem State.meter_keeps (p kind d : Nat) : Kept (allBut [.usage]) s (s.meter p kind d) :=
  State.meter_kept p kind d (Kept.refl _ _) rfl

@[simp] theorem State.rd_count (p ev unit core d a : Nat) : (s.count p ev unit core d).rd a = s.rd a :=
  State.rd_of_kept (State.count_keeps ..) rfl a
@[simp] theorem State.sq_count (p ev unit core d j : Nat) : (s.count p ev unit core d).sq j = s.sq j :=
  State.sq_of_kept (State.count_keeps ..) rfl j
@[simp] theorem State.cores_count (p ev unit core d : Nat) : (s.count p ev unit core d).cores = s.cores :=
  (State.count_keeps ..).cores rfl
@[simp] theorem State.rd_meter (p kind d a : Nat) : (s.meter p kind d).rd a = s.rd a :=
  State.rd_of_kept (State.meter_keeps ..) rfl a
@[simp] theorem State.sq_meter (p kind d j : Nat) : (s.meter p kind d).sq j = s.sq j :=
  State.sq_of_kept (State.meter_keeps ..) rfl j
@[simp] theorem State.cores_meter (p kind d : Nat) : (s.meter p kind d).cores = s.cores :=
  (State.meter_keeps ..).cores rfl

theorem State.rd_wn_ne {a b : Nat} (v : Nat) (h : b ≠ a) : (s.wn a v).rd b = s.rd b := State.rd_wr_ne _ _ h
@[simp] theorem State.sq_wn (a v p : Nat) : (s.wn a v).sq p = s.sq p := (rfl)
@[simp] theorem State.cores_wn (a v : Nat) : (s.wn a v).cores = s.cores := (rfl)

theorem State.rd_bump64_ne {a b : Nat} (d : Nat) (h : b ≠ a) (h' : b ≠ a + 4) : (s.bump64 a d).rd b = s.rd b := by
  unfold State.bump64 State.wr64
  rw [State.rd_wn_ne _ h', State.rd_wn_ne _ h]
@[simp] theorem State.sq_bump64 (a d p : Nat) : (s.bump64 a d).sq p = s.sq p := (rfl)
@[simp] theorem State.cores_bump64 (a d : Nat) : (s.bump64 a d).cores = s.cores := (rfl)

/-- A stream's state rests on its status register alone. -/
theorem State.seqState_of_rd {t : State} {p : Nat} (h : t.rd (Reg.SEQ_STATUS p) = s.rd (Reg.SEQ_STATUS p)) :
    t.seqState p = s.seqState p := by
  unfold State.seqState State.fget; rw [h]
theorem State.stopped_of_rd {t : State} {p : Nat} (h : t.rd (Reg.SEQ_STATUS p) = s.rd (Reg.SEQ_STATUS p)) :
    t.stopped p = s.stopped p := by
  unfold State.stopped; rw [State.seqState_of_rd h]

@[simp] theorem State.seqState_setSq (p : Nat) (q : Seq) (j : Nat) : (s.setSq p q).seqState j = s.seqState j := (rfl)
@[simp] theorem State.stopped_setSq (p : Nat) (q : Seq) (j : Nat) : (s.setSq p q).stopped j = s.stopped j := (rfl)

theorem State.not_faulted_of_not_stopped {p : Nat} (h : s.stopped p = false) : s.seqState p ≠ seqFaulted := by
  intro e
  simp [State.stopped, e] at h

/-! ## A step to a beat (R159) -/

/-- Results land in memories of the cores, not in what the units run or hold. -/
def Cores.sameBodies (c d : Cores) : Prop := d.runs = c.runs ∧ d.replay = c.replay ∧ d.fills = c.fills ∧ d.sptr = c.sptr

theorem State.land_sameBodies (d : LandDst) : s.cores.sameBodies (s.land d).cores := by
  cases d <;> exact ⟨rfl, rfl, rfl, rfl⟩

theorem State.foldl_land_seqs (l : List Land) : (l.foldl (fun s l => s.land l.dst) s).seqs = s.seqs :=
  (kept_foldl (φ := allBut [.cores]) (Kept.refl _ _) fun _ d h => State.land_kept d.dst h rfl).seqs rfl

theorem State.foldl_land_sameBodies (l : List Land) :
    s.cores.sameBodies (l.foldl (fun (s : State) l => s.land l.dst) s).cores := by
  induction l generalizing s with
  | nil => exact ⟨rfl, rfl, rfl, rfl⟩
  | cons d l ih =>
    obtain ⟨hr, hp, hf, hs⟩ := ih (s := s.land d.dst)
    obtain ⟨hr', hp', hf', hs'⟩ := s.land_sameBodies d.dst
    exact ⟨hr.trans hr', hp.trans hp', hf.trans hf', hs.trans hs'⟩

theorem State.sq_landDue (p b : Nat) :
    (s.landDue p b).sq p = { s.sq p with lands := (s.sq p).lands.filter fun l => decide (b < l.beat) } := by
  simp [State.landDue, State.sq, State.foldl_land_seqs, State.setSq]

theorem State.landDue_sameBodies (p b : Nat) : s.cores.sameBodies (s.landDue p b).cores := s.foldl_land_sameBodies _

theorem State.rd_landDue (p b a : Nat) : (s.landDue p b).rd a = s.rd a :=
  State.rd_of_kept (φ := allBut [.cores, .seqs]) (State.landDue_kept p b (Kept.refl _ _) rfl rfl) rfl a

/-- The registers that a step to a beat writes: the beats counted and the beat in period. -/
def beatRegs (p : Nat) : List Nat := [Reg.SEQ_BEATS_LO p, Reg.SEQ_BEATS_LO p + 4, Reg.SEQ_BIP p]

theorem State.rd_advance {p a : Nat} (b : Nat) (h : a ∉ beatRegs p) : (s.advance p b).rd a = s.rd a := by
  obtain ⟨h1, h2, h3⟩ : a ≠ Reg.SEQ_BEATS_LO p ∧ a ≠ Reg.SEQ_BEATS_LO p + 4 ∧ a ≠ Reg.SEQ_BIP p := by
    simpa [beatRegs] using h
  have hab : (s.abandon p none).rd a = s.rd a :=
    State.rd_of_kept (φ := allBut [.cores, .seqs]) (State.abandon_kept p none (Kept.refl _ _) rfl rfl) rfl a
  unfold State.advance
  dsimp only
  generalize hx : (if (b != (s.sq p).beat && s.seqState p == seqFaulted) = true then s.abandon p none else s) = x
  have hxa : x.rd a = s.rd a := by rw [← hx]; split <;> simp [hab]
  split <;> simp [State.rd_fput_ne, State.rd_bump64_ne, State.rd_landDue, h1, h2, h3, hxa]

theorem SEQ_STATUS_not_mem_beatRegs (p : Nat) : Reg.SEQ_STATUS p ∉ beatRegs p := by
  simp only [beatRegs, List.mem_cons, List.not_mem_nil, or_false, Reg.SEQ_STATUS, Reg.SEQ_BEATS_LO, Reg.SEQ_BIP]
  omega

@[simp] theorem State.seqState_advance (p b : Nat) : (s.advance p b).seqState p = s.seqState p :=
  State.seqState_of_rd (State.rd_advance b (SEQ_STATUS_not_mem_beatRegs p))
@[simp] theorem State.stopped_advance (p b : Nat) : (s.advance p b).stopped p = s.stopped p :=
  State.stopped_of_rd (State.rd_advance b (SEQ_STATUS_not_mem_beatRegs p))

/-- A step to beat `b` lets go of nothing: the stream has not faulted, or has in this very beat. -/
def State.keepsBeat (s : State) (p b : Nat) : Prop := s.seqState p = seqFaulted → b = (s.sq p).beat

theorem State.keepsBeat_of_not_stopped {p : Nat} (h : s.stopped p = false) (b : Nat) : s.keepsBeat p b :=
  fun e => absurd e (State.not_faulted_of_not_stopped h)

theorem State.keepsBeat.fresh_and {p b : Nat} (h : s.keepsBeat p b) :
    (b != (s.sq p).beat && s.seqState p == seqFaulted) = false := by
  by_cases e : s.seqState p = seqFaulted
  · simp [h e]
  · simp [e]

/-- The stream at beat `b`, where the step lets go of nothing: its time and its ports are those of the beat, what is due has landed, and
everything else stands. -/
theorem State.sq_advance {p b : Nat} (h : s.keepsBeat p b) :
    (s.advance p b).sq p =
      let fresh := b != (s.sq p).beat
      { s.sq p with
        beat := b, credit := (s.sq p).credit - (b - (s.sq p).beat), waitBeat := (s.sq p).waitBeat && !fresh
        lands := (s.sq p).lands.filter fun l => decide (b < l.beat)
        ports := if fresh then s.fillPorts p b else (s.sq p).ports, before := if fresh then [] else (s.sq p).before
        cwords := if fresh then ((s.sq p).lands.filter fun l => l.beat == b).flatMap fun l => l.dst.words else (s.sq p).cwords } := by
  unfold State.advance
  simp only [h.fresh_and, Bool.false_eq_true, if_false]
  split <;> simp only [State.sq_fput, State.sq_meter, State.sq_count, State.sq_bump64, State.sq_setSq, State.sq_landDue]

theorem State.advance_sameBodies {p b : Nat} (h : s.keepsBeat p b) :
    s.cores.sameBodies (s.advance p b).cores := by
  unfold State.advance
  simp only [h.fresh_and, Bool.false_eq_true, if_false]
  split
  · rw [State.fput_cores, State.cores_meter, State.cores_count, State.cores_bump64, State.setSq_cores]
    exact s.landDue_sameBodies p b
  · rw [State.cores_meter, State.cores_count, State.cores_bump64, State.setSq_cores]
    exact s.landDue_sameBodies p b

/-! ## Results that a beat sends on their way -/

/-- The cores and the stream's state stand, and these results are on their way. -/
structure Sends (p : Nat) (s t : State) (l : List Land) : Prop where
  cores : t.cores = s.cores
  status : t.rd (Reg.SEQ_STATUS p) = s.rd (Reg.SEQ_STATUS p)
  lands : (t.sq p).lands = (s.sq p).lands ++ l

variable {p : Nat} {t u : State} {l l' : List Land}

theorem Sends.refl (p : Nat) (s : State) : Sends p s s [] := ⟨rfl, rfl, (List.append_nil _).symm⟩

theorem Sends.trans (h : Sends p s t l) (h' : Sends p t u l') : Sends p s u (l ++ l') :=
  ⟨h'.cores.trans h.cores, h'.status.trans h.status, by rw [h'.lands, h.lands, List.append_assoc]⟩

theorem Sends.stopped (h : Sends p s t l) : t.stopped p = s.stopped p := State.stopped_of_rd h.status

theorem Sends.count (h : Sends p s t l) (j ev unit core d : Nat) : Sends p s (t.count j ev unit core d) l :=
  ⟨by rw [State.cores_count, h.cores], by rw [State.rd_count, h.status], by rw [State.sq_count, h.lands]⟩

theorem Sends.setUp (h : Sends p s t l) (j : Nat) (x : Upd) : Sends p s (t.setUp j x) l := ⟨h.cores, h.status, h.lands⟩

theorem Sends.wr {a : Nat} (h : Sends p s t l) (w : Word) (ha : Reg.SEQ_STATUS p ≠ a) : Sends p s (t.wr a w) l :=
  ⟨h.cores, by rw [State.rd_wr_ne _ _ ha, h.status], h.lands⟩

theorem Sends.nfFirst (h : Sends p s t l) (x : Option (Nat × Nat)) : Sends p s (t.setSq p { t.sq p with nfFirst := x }) l :=
  ⟨h.cores, h.status, by rw [State.sq_setSq]; exact h.lands⟩

theorem Sends.nfSeen (h : Sends p s t l) (bits tensor : Nat) (who : Option Nat) : Sends p s (t.nfSeen p bits tensor who) l := by
  unfold State.nfSeen State.wn State.setBits
  split
  · exact h
  · refine Sends.wr ?_ _ (by unfold Reg.SEQ_STATUS Reg.FMT_NF_STATUS; omega)
    split
    · exact (h.nfFirst _).wr _ (by unfold Reg.SEQ_STATUS Reg.FMT_NF_TENSOR; omega)
    · exact h

theorem Sends.nonFinite (h : Sends p s t l) (bits tensor unit core : Nat) : Sends p s (t.nonFinite p bits tensor unit core) l := by
  unfold State.nonFinite
  split
  · exact h
  · exact ((h.setUp _ _).nfSeen _ _ _).count _ _ _ _ _

theorem Sends.sched (h : Sends p s t l) (hs : s.stopped p = false) (b : Nat) (d : LandDst) :
    Sends p s (t.sched p b d) (l ++ [⟨b, d⟩]) := by
  unfold State.sched
  rw [if_neg (by simp [h.stopped, hs])]
  exact ⟨h.cores, h.status, by rw [State.sq_setSq, ← List.append_assoc, ← h.lands]⟩

/-- Steps that each send one result, which the cores fix, send all of them. -/
theorem Sends.foldl {g : State → Nat → State} {f : Nat → Land} (js : List Nat) (hs : s.stopped p = false)
    (hg : ∀ t j, t.cores = s.cores → t.stopped p = false → Sends p t (g t j) [f j]) :
    Sends p s (js.foldl g s) (js.map f) := by
  suffices H : ∀ t l, Sends p s t l → Sends p s (js.foldl g t) (l ++ js.map f) from H s [] (Sends.refl p s)
  induction js with
  | nil => intro t l h; simpa using h
  | cons j js ih =>
    intro t l h
    have hj := h.trans (hg t j h.cores (h.stopped.trans hs))
    simpa using ih _ _ hj

/-! ## One beat of a unit -/

@[simp] theorem State.runOf_setRun (c u : Nat) (r : Option Run) : (s.setRun c u r).runOf c u = r := SMap.get_set_same ..

theorem State.dropRun_of_not_stopped {c u : Nat} (h : s.stopped p = false) : s.dropRun p c u = s := by
  simp [State.dropRun, h]

/-- What `unitDue` asks for. -/
theorem State.unitDue_iff {core u : Nat} {r : Run} : s.unitDue p core u r = true ↔
    p ∈ allParts ∧ s.runOf (s.pcore p core) u = some r ∧ r.part = p ∧ r.core = core ∧ r.done = false ∧ s.stopped p = false ∧
      s.canRun p r.beat = true ∧ r.beat < (s.sq p).bodyLimit ∧ s.badOp p u (s.beatOf p core u r).m = false := by
  simp [State.unitDue, and_assoc]

/-- A unit whose micro-op is due performs its work at the beat, and its body moves on. -/
theorem State.unitBeat_of_due {core u : Nat} {r : Run} {pick : Nat → Bool} {work : State → Beat → Res} {s2 : State} {buf : List Byte}
    (h : s.unitDue p core u r = true) (hp : pick (s.beatOf p core u r).m = true)
    (hw : work (s.advance p r.beat) (s.beatOf p core u r) = .ok (s2, buf)) (hs : s2.stopped p = false) :
    s.unitBeat p core u noErr pick work = s2.setRun (s.pcore p core) u (some (r.next (s.beatOf p core u r).n buf)) := by
  obtain ⟨-, hrun, hpart, hcore, hdone, hstop, hcan, hlim, hbad⟩ := State.unitDue_iff.mp h
  have hbad' : s.badOp p u (s.replayAt (s.pcore p core) u (r.addr + r.upos)) = false := hbad
  have hp' : pick (s.replayAt (s.pcore p core) u (r.addr + r.upos)) = true := hp
  have hw' : work (s.advance p r.beat) ⟨p, core, s.pcore p core, u, r, s.replayAt (s.pcore p core) u (r.addr + r.upos), r.mb,
    mopBeats (s.replayAt (s.pcore p core) u (r.addr + r.upos)), noErr⟩ = .ok (s2, buf) := hw
  have hdead : s.dead p r.beat = false := by simp [State.dead, hstop]
  unfold State.unitBeat
  simp only [hrun, hpart, hcore, hdone, hdead, hcan, ne_eq, not_true, Bool.not_true, Bool.false_eq_true, or_self, if_false,
    Nat.not_le.mpr hlim, hbad', and_false, hp']
  simp only [noErr, Bool.false_eq_true, and_false, if_false, List.range_zero, List.foldl_nil] at hw' ⊢
  rw [hw']
  exact State.dropRun_of_not_stopped (s := s2.setRun _ _ _) ((State.stopped_of_rd (s := s2) rfl).trans hs)

/-- The same, of work that sends results. -/
theorem State.beatDone_of_sends {core u : Nat} {r : Run} {pick : Nat → Bool} {work : State → Beat → Res} {s2 : State} {buf : List Byte}
    (h : s.unitDue p core u r = true) (hp : pick (s.beatOf p core u r).m = true)
    (hw : work (s.advance p r.beat) (s.beatOf p core u r) = .ok (s2, buf)) (hl : Sends p (s.advance p r.beat) s2 l) :
    s.beatDone (s.unitBeat p core u noErr pick work) p core u r buf l := by
  have hstop : s.stopped p = false := (State.unitDue_iff.mp h).2.2.2.2.2.1
  rw [State.unitBeat_of_due h hp hw (by rw [hl.stopped, State.stopped_advance, hstop])]
  exact ⟨State.runOf_setRun .., hl.lands⟩

/-! ## The vector engine's lanes -/

/-- A register as it reads where no error is met. -/
theorem State.vreg_of_noErr {x : Beat} (hx : x.err = noErr) (r : Nat) : s.vreg x r = (s, (List.range 512).map (s.lane x.phys r)) := by
  have hkey : vregKey x.phys (r % 64) = vregKey x.phys r := by simp [vregKey]
  simp [State.vreg, hx, noErr, State.lane, hkey]

/-- A lane of one of two registers, by which of them is read. -/
theorem getD_ite_map_range {c : Prop} [Decidable c] {n i : Nat} (f g : Nat → Nat) (h : i < n) :
    (if c then (List.range n).map f else (List.range n).map g).getD i 0 = if c then f i else g i := by
  split <;> simp [h]

/-- The result that lands in register `j` of a beat of `laneWork`. -/
def laneLand (s : State) (x : Beat) (rate late : Nat) (f : Nat → Nat → Nat → Nat) (j : Nat) : Land :=
  let n := rate * x.k + j
  let v (lo : Nat) : Nat → Nat := s.lane x.phys (mop x.m lo 6 + n)
  ⟨x.endBeat - 1 + late, .vreg (vregKey x.phys (mop x.m 12 6 + n)) (toWords ((List.range 512).map fun l => f (v 18 l) (v 24 l) (v 30 l)))⟩

theorem State.lane_of_cores (h : t.cores = s.cores) : t.lane = s.lane := by
  unfold State.lane; rw [h]

/-- A beat of lane arithmetic sends the function of its operands, of which it reads `nb`. -/
theorem laneWork_sends {x : Beat} (hx : x.err = noErr) (hs : s.stopped x.p = false) (rate late nb : Nat) (f : Nat → Nat → Nat → Nat)
    (hf : ∀ a b c, f a (if nb ≥ 2 then b else a) (if nb ≥ 3 then c else a) = f a b c) :
    ∃ s2, laneWork rate late nb f s x = .ok (s2, x.run.buf) ∧ Sends x.p s s2 ((List.range rate).map (laneLand s x rate late f)) := by
  refine ⟨_, rfl, ?_⟩
  rw [← List.nil_append ((List.range rate).map _)]
  refine ((Sends.refl x.p s).count x.p 0x06 8 x.core 1).trans ?_
  refine Sends.foldl _ ((State.stopped_of_rd (State.rd_count ..)).trans hs) fun t j ht htop => ?_
  have hl : t.lane = s.lane := State.lane_of_cores (ht.trans (State.cores_count ..))
  have hv : ∀ lo, t.vreg x (mop x.m lo 6 + (rate * x.k + j)) =
      (t, (List.range 512).map (s.lane x.phys (mop x.m lo 6 + (rate * x.k + j)))) := fun lo => by
    rw [State.vreg_of_noErr hx, hl]
  have hsend (bits : Nat) (w : List Nat) (b : Nat) (d : LandDst) : Sends x.p t
      ((((t.nfSeen x.p bits 0 x.nfWho).nonFinite x.p (nfBits w) 0 8 x.core)).sched x.p b d) [⟨b, d⟩] :=
    (((Sends.refl x.p t).nfSeen bits 0 x.nfWho).nonFinite _ 0 8 x.core).sched htop b d
  have hite (c : Prop) [Decidable c] (m m' : List Nat) : (if c then (t, m) else (t, m')) = (t, if c then m else m') := by
    split <;> rfl
  simp only [hv, hite, State.vput]
  refine Eq.mp (congrArg (Sends x.p t _) ?_) (hsend _ _ _ _)
  simp only [laneLand, List.cons.injEq, Land.mk.injEq, LandDst.vreg.injEq, true_and, and_true]
  refine congrArg toWords (List.map_congr_left fun l hl => ?_)
  have hl := List.mem_range.mp hl
  rw [getD_ite_map_range _ _ hl, getD_ite_map_range _ _ hl]
  simp [hl, hf]

/-- A command that is one beat of `laneWork` in a unit whose micro-op it is. -/
theorem LaneRow.of_exec {c : Instr} {core : Nat} {r : Run} {pick : Nat → Bool} {rate late nb : Nat} {f : Nat → Nat → Nat → Nat}
    (he : exec c s = .next (s.unitBeat p core 8 noErr pick (laneWork rate late nb f))) (h : s.unitDue p core 8 r = true)
    (hp : pick (s.beatOf p core 8 r).m = true)
    (hf : ∀ a b c, f a (if nb ≥ 2 then b else a) (if nb ≥ 3 then c else a) = f a b c) : LaneRow c s p core r rate late f := by
  have hstop : s.stopped p = false := (State.unitDue_iff.mp h).2.2.2.2.2.1
  obtain ⟨s2, hw, hl⟩ := laneWork_sends (s := s.advance p r.beat) (x := s.beatOf p core 8 r) rfl
    ((State.stopped_advance ..).trans hstop) rate late nb f hf
  exact ⟨_, he, State.beatDone_of_sends h hp hw hl⟩

/-! ## The vector engine's reductions -/

/-- The result that lands in register `j` of a beat of a reduction lane by lane. -/
def reduceLand (s : State) (x : Beat) (op : Nat → Nat → Nat) (pre : Nat → Nat) (j : Nat) : Land :=
  let n := 4 * x.k + j
  ⟨x.endBeat - 1 + 1, .vreg (vregKey x.phys (mop x.m 12 6 + n)) (toWords ((List.range 512).map fun l =>
    op (s.lane x.phys (mop x.m 12 6 + n) l) (pre (s.lane x.phys (mop x.m 18 6 + n) l))))⟩

/-- The result of a reduction of one register to a lane. -/
def treeLand (s : State) (x : Beat) (op : Nat → Nat → Nat) (pre : Nat → Nat) : Land :=
  ⟨x.endBeat - 1 + 4, .vreg (vregKey x.phys (mop x.m 12 6)) (toWords ((treeFold op 9 ((List.range 512).map fun l =>
    pre (s.lane x.phys (mop x.m 18 6) l))).headD 0 :: List.replicate 511 0))⟩

/-- What one beat of a reduction sends. -/
def reduceLands (s : State) (x : Beat) (op : Nat → Nat → Nat) (pre : Nat → Nat) : List Land :=
  if mop x.m 26 1 = 1 then (List.range 4).map (reduceLand s x op pre) else if x.k = 0 then [treeLand s x op pre] else []

theorem vredWork_sends {x : Beat} (hx : x.err = noErr) (hs : s.stopped x.p = false) (op : Nat → Nat → Nat) (pre : Nat → Nat) :
    ∃ s2, vredWork op pre s x = .ok (s2, x.run.buf) ∧ Sends x.p s s2 (reduceLands s x op pre) := by
  have hcount := (Sends.refl x.p s).count x.p 0x06 8 x.core 1
  have hs' := hcount.stopped.trans hs
  have hres {t : State} (ht : t.stopped x.p = false) (bits : Nat) (w : List Nat) (b : Nat) (d : LandDst) : Sends x.p t
      ((((t.nfSeen x.p bits 0 x.nfWho).nonFinite x.p (nfBits w) 0 8 x.core)).sched x.p b d) [⟨b, d⟩] :=
    (((Sends.refl x.p t).nfSeen bits 0 x.nfWho).nonFinite _ 0 8 x.core).sched ht b d
  unfold vredWork reduceLands
  split
  case isTrue =>
    refine ⟨_, rfl, hcount.trans (Sends.foldl _ hs' fun t j ht htop => ?_)⟩
    have hl : t.lane = s.lane := State.lane_of_cores (ht.trans (State.cores_count ..))
    simp only [State.vreg_of_noErr hx, hl, List.zipWith_map_left, List.zipWith_map_right, List.zipWith_self, State.vput]
    exact hres htop _ _ _ _
  case isFalse =>
    dsimp only
    split
    case isTrue hk => exact ⟨_, rfl, hcount⟩
    case isFalse hk =>
      have hl : (s.count x.p 0x06 8 x.core 1).lane = s.lane := State.lane_of_cores (State.cores_count ..)
      refine ⟨_, rfl, ?_⟩
      simp only [State.vreg_of_noErr hx, hl, List.map_map, State.vput]
      rw [if_pos (not_not.mp hk), treeLand, ← List.nil_append [_]]
      exact hcount.trans (hres hs' _ _ _ _)

/-- A command that is one beat of `vredWork` in a unit whose micro-op it is. -/
theorem ReduceRow.of_exec {c : Instr} {core : Nat} {r : Run} {pick : Nat → Bool} {op : Nat → Nat → Nat} {pre : Nat → Nat}
    (he : exec c s = .next (s.unitBeat p core 8 noErr pick (vredWork op pre))) (h : s.unitDue p core 8 r = true)
    (hp : pick (s.beatOf p core 8 r).m = true) : ReduceRow c s p core r op pre := by
  have hstop : s.stopped p = false := (State.unitDue_iff.mp h).2.2.2.2.2.1
  obtain ⟨s2, hw, hl⟩ := vredWork_sends (s := s.advance p r.beat) (x := s.beatOf p core 8 r) rfl
    ((State.stopped_advance ..).trans hstop) op pre
  exact ⟨_, he, State.beatDone_of_sends h hp hw hl⟩

end

/-! ## The statements settled -/

/-- Settles O38: each row is one beat of `laneWork`, of which the row's function reads no more operands than the beat does. -/
theorem laneRowsComplete : Obligations.LaneRowsComplete := by
  intro s p core r h
  have valu (fn : Nat) (h3 : mopOpc (s.beatOf p core 8 r).m = 3) (hfn : mop (s.beatOf p core 8 r).m 36 6 = fn) :
      opcFn 3 36 6 fn (s.beatOf p core 8 r).m = true := by simp [opcFn, h3, hfn]
  have vtr (fn : Nat) (h4 : mopOpc (s.beatOf p core 8 r).m = 4) (hfn : mop (s.beatOf p core 8 r).m 24 4 = fn) :
      opcFn 4 24 4 fn (s.beatOf p core 8 r).m = true := by simp [opcFn, h4, hfn]
  refine ⟨fun h3 => ?_, fun h4 => ?_⟩
  · refine ⟨?_, ?_, ?_, ?_, ?_, ?_, ?_, ?_, ?_, ?_, ?_, ?_, ?_⟩ <;>
      exact fun hfn => .of_exec rfl h (valu _ h3 hfn) fun _ _ _ => rfl
  · refine ⟨?_, ?_, fun hfn => ⟨_, .of_exec rfl h (vtr _ h4 hfn) fun _ _ _ => rfl⟩, ?_, ?_, ?_, ?_, ?_, ?_, ?_⟩ <;>
      exact fun hfn => .of_exec rfl h (vtr _ h4 hfn) fun _ _ _ => rfl

/-- Settles O39: each row is one beat of `vredWork`. -/
theorem reductionRowsComplete : Obligations.ReductionRowsComplete := by
  intro s p core r h m h5
  have pick (fn : Nat) (hfn : mop m 24 2 = fn) : opcFn 5 24 2 fn m = true := by simp [opcFn, h5, hfn]
  exact ⟨fun e => .of_exec rfl h (pick 0 e), fun e => .of_exec rfl h (pick 1 e), fun e => .of_exec rfl h (pick 2 e),
    fun e => .of_exec rfl h (pick 3 e)⟩

end Sys2Proof.Machine

/-! The rows of bodies: which units a start selects, what stands in a unit after it, and the statement settled with them. -/

namespace Sys2Proof.Machine

section
variable {s t : State} {p : Nat}

/-! ## Units of a partition -/

theorem not_mem_beatRegs {a : Nat}
    (h : a < vf p + 0x200014 ∨ (vf p + 0x200014 < a ∧ a < vf p + 0x200020) ∨ vf p + 0x200024 < a) : a ∉ beatRegs p := by
  simp only [beatRegs, List.mem_cons, List.not_mem_nil, or_false, Reg.SEQ_BEATS_LO, Reg.SEQ_BIP]
  omega

theorem pos_and_le_four_of_mem_allParts (hp : p ∈ allParts) : 1 ≤ p ∧ p ≤ 4 := by
  simp only [allParts, List.mem_cons, List.not_mem_nil, or_false] at hp
  omega

/-- What tells where a partition's cores are: the core map and every register but those that the beats move. -/
structure SameMap (p : Nat) (s t : State) : Prop where
  rd : ∀ a, a ∉ beatRegs p → t.rd a = s.rd a
  coreMap : t.coreMap = s.coreMap

theorem SameMap.refl (p : Nat) (s : State) : SameMap p s s := ⟨fun _ _ => rfl, rfl⟩
theorem SameMap.trans {u : State} (h : SameMap p s t) (h' : SameMap p t u) : SameMap p s u :=
  ⟨fun a ha => (h'.rd a ha).trans (h.rd a ha), h'.coreMap.trans h.coreMap⟩
theorem SameMap.of_kept {φ : Part → Bool} (h : Kept φ s t) (hr : φ .regs = true) (hm : φ .coreMap = true) : SameMap p s t :=
  ⟨fun a _ => State.rd_of_kept h hr a, h.coreMap hm⟩

theorem sameMap_advance (s : State) (p b : Nat) : SameMap p s (s.advance p b) :=
  ⟨fun _ ha => State.rd_advance b ha,
    (State.advance_kept (φ := allBut [.cores, .regs, .seqs, .usage]) p b (Kept.refl _ _) rfl rfl rfl rfl).coreMap rfl⟩

theorem SameMap.prtMap (h : SameMap p s t) (hp : p ∈ allParts) : t.rd (Reg.PRT_MAP p) = s.rd (Reg.PRT_MAP p) := by
  have := pos_and_le_four_of_mem_allParts hp
  exact h.rd _ (not_mem_beatRegs (by unfold vf Reg.PRT_MAP; omega))

theorem SameMap.pcore (h : SameMap p s t) (hp : p ∈ allParts) (c : Nat) : t.pcore p c = s.pcore p c := by
  unfold State.pcore State.phys State.quad0 State.fget
  rw [h.coreMap, h.prtMap hp]

theorem SameMap.ncores (h : SameMap p s t) (hp : p ∈ allParts) : t.ncores p = s.ncores p := by
  unfold State.ncores State.nquad State.fget
  rw [h.prtMap hp]

theorem SameMap.group (h : SameMap p s t) (hp : p ∈ allParts) (g : Nat) : t.group p g = s.group p g := by
  have hg (w : Nat) : t.rd (Reg.SEQ_GRP p g w) = s.rd (Reg.SEQ_GRP p g w) :=
    h.rd _ (not_mem_beatRegs (by unfold Reg.SEQ_GRP; omega))
  unfold State.group State.rn
  simp only [h.ncores hp, hg]

theorem SameMap.startUnits (h : SameMap p s t) (hp : p ∈ allParts) (x : Start) : t.startUnits p x = s.startUnits p x := by
  unfold State.startUnits
  rw [h.group hp]

@[simp] theorem State.runOf_sepiaRec (unit code owner arg c u : Nat) : (s.sepiaRec unit code owner arg).runOf c u = s.runOf c u := by
  have h := (State.sepiaRec_kept (φ := allBut [.usage]) unit code owner arg (Kept.refl _ s) rfl).cores rfl
  unfold State.runOf; rw [h]

@[simp] theorem State.sq_sepiaRec (unit code owner arg j : Nat) : (s.sepiaRec unit code owner arg).sq j = s.sq j :=
  State.sq_of_kept (State.sepiaRec_kept (φ := allBut [.usage]) unit code owner arg (Kept.refl _ s) rfl) rfl j

theorem State.runOf_setRun_of_ne {c u c' u' : Nat} (r : Option Run) (h : runKey c' u' ≠ runKey c u) :
    (s.setRun c u r).runOf c' u' = s.runOf c' u' := SMap.get_set_ne _ _ _ h

/-! ## Starts -/

/-- A unit holds a body that a start has begun. -/
def Began (s : State) (p : Nat) (x : Start) (c u : Nat) : Prop :=
  ∃ r : Run, s.runOf c u = some r ∧ r.part = p ∧ r.addr = x.addr ∧ r.lenm1 = x.lenm1 ∧ r.tripm1 = x.tripm1 ∧ r.beat = x.beat ∧
    r.trip = 0

theorem State.endRun_eq (c u : Nat) (r : Run) : s.endRun p c u r = (s.setRun c u none).sepiaRec (unitOf c u) 0x02 p r.trip := rfl

theorem sameMap_startUnit (s : State) (p : Nat) (x : Start) (cu : Nat × Nat) : SameMap p s (s.startUnit p x cu) :=
  .of_kept (φ := allBut [.cores, .usage]) (State.startUnit_kept p x cu (Kept.refl _ _) rfl rfl) rfl rfl

/-- The unit that a start selects holds its body. -/
theorem began_startUnit (x : Start) (cu : Nat × Nat) : Began (s.startUnit p x cu) p x (s.pcore p cu.1) cu.2 := by
  unfold State.startUnit
  exact ⟨_, by rw [State.runOf_sepiaRec, State.runOf_setRun], rfl, rfl, rfl, rfl, rfl, rfl⟩

/-- A body that the start has begun in another unit stands. -/
theorem Began.startUnit {x : Start} {c u : Nat} (h : Began s p x c u) (cu : Nat × Nat) : Began (s.startUnit p x cu) p x c u := by
  by_cases hk : runKey c u = runKey (s.pcore p cu.1) cu.2
  · obtain ⟨r, hr, hx⟩ := began_startUnit (s := s) (p := p) x cu
    exact ⟨r, by rw [← hr]; unfold State.runOf; rw [hk], hx⟩
  · obtain ⟨r, hr, hx⟩ := h
    refine ⟨r, ?_, hx⟩
    unfold State.startUnit
    rw [State.runOf_sepiaRec, State.runOf_setRun_of_ne _ hk]
    split
    · rw [State.endRun_eq, State.runOf_sepiaRec, State.runOf_setRun_of_ne _ hk, hr]
    · exact hr

theorem began_foldl_startUnit (hp : p ∈ allParts) (x : Start) (l : List (Nat × Nat)) :
    ∀ cu ∈ l, Began (l.foldl (fun s cu => s.startUnit p x cu) s) p x (s.pcore p cu.1) cu.2 := by
  have keep (l : List (Nat × Nat)) {c u : Nat} {s : State} (h : Began s p x c u) :
      Began (l.foldl (fun s cu => s.startUnit p x cu) s) p x c u := by
    induction l generalizing s with
    | nil => exact h
    | cons a l ih => exact ih (h.startUnit a)
  induction l generalizing s with
  | nil => simp
  | cons a l ih =>
    intro cu hcu
    rcases List.mem_cons.mp hcu with rfl | hcu
    · exact keep l (began_startUnit x cu)
    · have := ih (s := s.startUnit p x a) cu hcu
      rwa [(sameMap_startUnit s p x a).pcore hp] at this

theorem Began.setSq {x : Start} {c u : Nat} (h : Began s p x c u) (j : Nat) (q : Seq) : Began (s.setSq j q) p x c u := h

theorem State.sq_foldl_startUnit (x : Start) (l : List (Nat × Nat)) (j : Nat) :
    (l.foldl (fun s cu => s.startUnit p x cu) s).sq j = s.sq j :=
  State.sq_of_kept (φ := allBut [.cores, .usage])
    (kept_foldl (Kept.refl _ _) fun _ cu h => State.startUnit_kept p x cu h rfl rfl) rfl j

/-- No body and no transfer stands in the way of a start that is alone. -/
theorem State.startFault_eq_none (x : Start) (hr : s.cores.runs = []) (hx : (s.sq p).xfers = []) : s.startFault p x [] = none := by
  have hrun (c u : Nat) : s.runOf c u = none := by unfold State.runOf; rw [hr]; rfl
  unfold State.startFault
  have hnone {α : Type} (l : List α) : l.find? (fun _ => false) = none := List.find?_eq_none.mpr (by simp)
  simp [hrun, State.rloadMeets, hx, hnone]

theorem State.dead_of_not_stopped (h : s.stopped p = false) (b : Nat) : s.dead p b = false := by simp [State.dead, h]

/-- R131, R133: a start that is alone begins in its units. -/
theorem State.bodyStart_of_alone {x : Start} (hx : (s.sq p).starts = [x]) (hs : s.stopped p = false) (hc : s.canRun p x.beat = true)
    (hl : x.beat < (s.sq p).bodyLimit) (hr : s.cores.runs = []) (hxf : (s.sq p).xfers = []) :
    s.bodyStart p =
      let t := (((s.advance p x.beat).startUnits p x).foldl (fun s cu => s.startUnit p x cu) (s.advance p x.beat))
      t.setSq p { t.sq p with starts := [] } := by
  have hk := State.keepsBeat_of_not_stopped hs x.beat
  have hsq := State.sq_advance hk
  have hf : (s.advance p x.beat).startFault p x ([x].erase x) = none := by
    rw [List.erase_cons_head]
    exact State.startFault_eq_none x ((State.advance_sameBodies hk).1.trans hr)
      (by rw [hsq]; exact hxf)
  have hst : ((s.advance p x.beat).sq p).starts = [x] := by rw [hsq]; exact hx
  unfold State.bodyStart
  simp only [hx, List.foldl_nil, State.dead_of_not_stopped hs, hc, Bool.false_eq_true, Bool.not_true, or_self, if_false,
    Nat.not_le.mpr hl]
  rw [hf]
  unfold State.startBody
  simp only [State.stopped_advance, hs, Bool.false_eq_true, if_false, State.sq_foldl_startUnit, hst, List.erase_cons_head]

end

/-! ## The statement settled -/

/-- Settles O34: a start in time joins those that wait; one that is alone begins in its units (`State.bodyStart_of_alone`); a body that is
done leaves its unit. -/
theorem bodyRowsComplete : Obligations.BodyRowsComplete := by
  refine ⟨?start, ?body, ?done⟩
  case start =>
    intro s p i hp hs hh hdue x hlate hrange
    refine ⟨_, rfl, ?_⟩
    have hl : ¬ bitsOf x 49 20 < (s.sq p).beat - (s.sq p).start + 6 := by omega
    have hr : ¬ 2015 < bitsOf x 11 11 + bitsOf x 22 11 := by omega
    unfold State.grpStart
    simp only [State.dead_of_not_stopped hs, hh, hdue, Bool.not_true, Bool.false_eq_true, or_self, if_false, hl, hr, hs, x]
    rw [State.sq_setSq]
    refine ⟨_, congrArg (· ++ [_]) ?_, rfl, rfl, rfl, rfl, rfl⟩
    rw [State.sq_setSq]
    split <;> rfl
  case body =>
    intro s p x hp hx hs hc hl hr hxf
    refine ⟨_, rfl, ?_⟩
    have hm := sameMap_advance s p x.beat
    rw [State.bodyStart_of_alone hx hs hc hl hr hxf]
    refine ⟨by rw [State.sq_setSq], fun cu hcu => ?_⟩
    have hb := (began_foldl_startUnit hp x ((s.advance p x.beat).startUnits p x) cu (by rwa [hm.startUnits hp])).setSq p
      (s := (((s.advance p x.beat).startUnits p x).foldl (fun s cu => s.startUnit p x cu) (s.advance p x.beat)))
    rw [hm.pcore hp] at hb
    exact hb _
  case done =>
    intro s p core u r hrun hpart hs hdone hc
    refine ⟨_, rfl, ?_⟩
    have : s.bodyEnd p core u = (s.advance p r.beat).endRun p (s.pcore p core) u r := by
      unfold State.bodyEnd
      simp [hrun, hpart, State.dead_of_not_stopped hs, hc, hdone]
    change (s.bodyEnd p core u).runOf _ _ = none
    rw [this, State.endRun_eq, State.runOf_sepiaRec, State.runOf_setRun]

end Sys2Proof.Machine

/-! The rows of bundles and of their CTL slots: the registers that fences, command buffers and lateness move, what an issue of a bundle
comes to, and the statement settled with them. -/

namespace Sys2Proof.Machine

/-! ## Fences and command buffers -/

section
variable {s t : State} {p : Nat}

theorem State.setBits_eq (a bits : Nat) : s.setBits a bits = s.wr a (s.rd a ||| BitVec.ofNat 32 bits) := rfl

theorem State.regs_of_rd (h : t.regs = s.regs) (a : Nat) : t.rd a = s.rd a := by unfold State.rd; rw [h]
theorem State.flag_of_rd {a : Nat} {f : Fld} (h : t.rd a = s.rd a) : t.flag a f = s.flag a f := by
  unfold State.flag State.fget; rw [h]
theorem State.fget_of_rd {a : Nat} {f : Fld} (h : t.rd a = s.rd a) : t.fget a f = s.fget a f := by unfold State.fget; rw [h]
theorem State.rn_of_rd {a : Nat} (h : t.rd a = s.rd a) : t.rn a = s.rn a := by unfold State.rn; rw [h]

theorem State.lt_of_ending {q : Nat} {b : CmdBuf} (hp : p ≠ 0) (he : s.ending p = some (q, b)) : q < 64 := by
  obtain ⟨q', hq', hb⟩ := List.exists_of_findSome?_eq_some he
  obtain ⟨c, -, hc⟩ := Option.map_eq_some_iff.mp hb
  obtain rfl : q' = q := congrArg Prod.fst hc
  simpa [queuesOf, hp] using hq'

/-- A property of the registers that outlasts all that a signal of a fence, an error of one and the end of a command buffer do: writes of
the queue and fence blocks of the partition, of which a fence's own word changes only while it has not signalled. -/
structure FenceSafe (p : Nat) (P : State → Prop) : Prop where
  regs : ∀ {s t : State}, P s → t.regs = s.regs → P t
  wr : ∀ {s : State} {a : Nat} (w : Word), P s → vf p ≤ a → a < vf p + 0x140000 → P (s.wr a w)
  fence : ∀ {s : State} {n : Nat} (f : Fld) (v : Nat), P s → n < 131072 → s.flag (Reg.FEN_F p n) Fld.FEN_F_SIG = false →
    P (s.fput (Reg.FEN_F p n) f v)

namespace FenceSafe
variable {P : State → Prop} (h : FenceSafe p P)
include h

theorem irq (fn vec sta en bits : Nat) (hs : P s) (hlo : vf p ≤ sta) (hhi : sta < vf p + 0x140000) : P (s.irq fn vec sta en bits) := by
  unfold State.irq
  dsimp only
  split
  · exact h.wr _ hs hlo hhi
  · exact h.regs (h.wr _ hs hlo hhi) rfl

theorem toHost (fn addr : Nat) (b : Bool) (v : List Byte) (hs : P s) : P (s.toHost fn addr b v) := by
  unfold State.toHost State.onIde
  split <;> exact h.regs hs rfl

theorem fenceNotify (n : Nat) (hs : P s) : P (s.fenceNotify p n) := by
  unfold State.fenceNotify State.irqFen State.wn State.bump State.fput
  dsimp only
  split
  · split
    · exact h.irq _ _ _ _ _ (h.wr _ (h.toHost _ _ _ _ hs) (by unfold Reg.FEN_EVQ_TAIL; omega) (by unfold Reg.FEN_EVQ_TAIL; omega))
        (by unfold Reg.FEN_INT_STATUS; omega) (by unfold Reg.FEN_INT_STATUS; omega)
    · rw [State.setBits_eq]
      have hst : vf p ≤ Reg.FEN_EVQ_STAT p ∧ Reg.FEN_EVQ_STAT p < vf p + 0x140000 := by unfold Reg.FEN_EVQ_STAT; omega
      exact h.irq _ _ _ _ _ (h.wr _ (h.wr _ hs hst.1 hst.2) hst.1 hst.2)
        (by unfold Reg.FEN_INT_STATUS; omega) (by unfold Reg.FEN_INT_STATUS; omega)
  · exact hs

theorem markWaits (n : Nat) (f : CmdBuf → CmdBuf) (hs : P s) : P (s.markWaits p n f) :=
  h.regs hs ((State.markWaits_kept (φ := allBut [.queues]) p n f (Kept.refl _ _) rfl).regs rfl)

theorem fenceSet (n : Nat) (hs : P s) : P (s.fenceSet p n) := by
  unfold State.fenceSet
  dsimp only
  split
  case isTrue hc =>
    simp only [State.hasFence, Bool.and_eq_true, decide_eq_true_eq, Bool.not_eq_true'] at hc
    exact h.markWaits _ _ (h.fenceNotify _ (h.fence _ _ hs (hc.1.1.trans (Fld.get_lt _ _)) hc.1.2))
  case isFalse => exact hs

theorem fenceFail (n code : Nat) (hs : P s) : P (s.fenceFail p n code) := by
  unfold State.fenceFail
  dsimp only
  split
  case isTrue hc =>
    simp only [State.hasFence, Bool.and_eq_true, decide_eq_true_eq, Bool.not_eq_true'] at hc
    exact h.markWaits _ _ (h.fenceNotify _ (h.fence _ _ hs (hc.1.1.trans (Fld.get_lt _ _)) hc.1.2))
  case isFalse => exact hs

variable (hp : p ≠ 0)
include hp

theorem showQueue {q : Nat} (hq : q < 64) (hs : P s) : P (s.showQueue p q) := by
  have hd : vf p ≤ qDone p q ∧ qDone p q < vf p + 0x140000 := by unfold qDone qbase Reg.QUE_BASE_LO; rw [if_neg hp]; omega
  have hst : vf p ≤ qStat p q ∧ qStat p q < vf p + 0x140000 := by unfold qStat qbase Reg.QUE_BASE_LO; rw [if_neg hp]; omega
  have h2 (v w x : Nat) : P (((s.wn (qDone p q) v).fput (qStat p q) Fld.QUE_STAT_INFLIGHT w).fput (qStat p q) Fld.QUE_STAT_AT_BOUND x) :=
    h.wr _ (h.wr _ (h.wr _ hs hd.1 hd.2) hst.1 hst.2) hst.1 hst.2
  unfold State.showQueue
  dsimp only
  split
  · exact h.wr _ (h2 _ _ _) hst.1 hst.2
  · exact h2 _ _ _

theorem endBuf {q : Nat} (hq : q < 64) (b : CmdBuf) (hs : P s) : P (s.endBuf p q b) := by
  have h1 : P ((s.setQueue p q { s.queue p q with bufs := (s.queue p q).bufs.filter fun c => c.seq != b.seq }).showQueue p q) :=
    h.showQueue hp hq (h.regs hs rfl)
  have hirq {t : State} (ht : P t) : P (t.irqQue p Fld.QUE_INT_STATUS_CB_ERR) :=
    h.irq _ _ _ _ _ ht (by unfold Reg.QUE_INT_STATUS; omega) (by unfold Reg.QUE_INT_STATUS; omega)
  unfold State.endBuf
  cases b.fence with
  | none =>
    dsimp only
    rw [if_neg hp]
    split
    · exact h1
    · exact hirq h1
  | some n =>
    dsimp only
    rw [if_neg hp]
    split
    · exact h.fenceSet _ h1
    · exact hirq (h.fenceFail _ _ h1)

theorem settle (hs : P s) : P (s.settle p) := by
  unfold State.settle
  generalize (queuesOf p).foldl _ 0 = fuel
  induction fuel generalizing s with
  | zero => exact hs
  | succ n ih =>
    unfold State.settleLoop
    split
    next => exact hs
    next q b he => exact ih (h.endBuf hp (State.lt_of_ending hp he) b hs)

theorem fenceSignal (n : Nat) (hs : P s) : P (s.fenceSignal p n) := h.settle hp (h.fenceSet n hs)

theorem mapBufs (test : CmdBuf → Bool) (f : CmdBuf → CmdBuf) (hs : P s) : P (s.mapBufs p test f) := by
  unfold State.mapBufs
  refine h.settle hp (h.regs hs ?_)
  exact (kept_foldl (φ := allBut [.queues]) (Kept.refl _ _) fun t q ht => kept_ite (State.setQueue_kept p q _ ht rfl) ht).regs rfl

end FenceSafe
theorem fenceSafe_rd (s : State) {a : Nat} (h : a < vf p ∨ vf p + 0x1C0000 ≤ a) : FenceSafe p fun t => t.rd a = s.rd a where
  regs hs e := (State.regs_of_rd e a).trans hs
  wr _ hs hlo hhi := (State.rd_wr_ne _ _ (by omega)).trans hs
  fence _ _ hs hn _ := (State.rd_fput_ne _ _ _ (by unfold Reg.FEN_F; omega)).trans hs

theorem State.rd_mapBufs (hp : p ≠ 0) {a : Nat} (test : CmdBuf → Bool) (f : CmdBuf → CmdBuf) (h : a < vf p ∨ vf p + 0x1C0000 ≤ a) :
    (s.mapBufs p test f).rd a = s.rd a := (fenceSafe_rd s h).mapBufs hp test f rfl

/-- A fence that has signalled stays so. -/
theorem fenceSafe_sig (p n : Nat) : FenceSafe p fun t => t.flag (Reg.FEN_F p n) Fld.FEN_F_SIG = true where
  regs hs e := (State.flag_of_rd (State.regs_of_rd e _)).trans hs
  wr _ hs _ hhi := (State.flag_of_rd (State.rd_wr_ne _ _ (by unfold Reg.FEN_F; omega))).trans hs
  fence {s m} f v hs _ hm := by
    have hne : Reg.FEN_F p n ≠ Reg.FEN_F p m := fun e => by rw [← e, hs] at hm; exact absurd hm (by decide)
    exact (State.flag_of_rd (State.rd_fput_ne _ _ _ hne)).trans hs

theorem State.flag_fput_one {a : Nat} {f : Fld} (hw : f.width = 1) (h : f.lo + f.width ≤ 32) : (s.fput a f 1).flag a f = true := by
  unfold State.flag
  rw [State.fget_fput _ _ _ _ h, hw]
  rfl

/-- R622, R625: a fence without an error has signalled. -/
theorem State.flag_fenceSignal (hp : p ≠ 0) {n : Nat} (hn : s.hasFence p n = true) (he : s.fget (Reg.FEN_F p n) Fld.FEN_F_ERR = 0) :
    (s.fenceSignal p n).flag (Reg.FEN_F p n) Fld.FEN_F_SIG = true := by
  refine (fenceSafe_sig p n).settle hp ?_
  unfold State.fenceSet
  by_cases hsig : s.flag (Reg.FEN_F p n) Fld.FEN_F_SIG = true
  · simp [hn, he, hsig]
  · simp only [hn, he, Bool.not_eq_true _ ▸ hsig, Bool.not_false, Bool.and_self, beq_self_eq_true, if_true]
    exact (fenceSafe_sig p n).markWaits _ _ ((fenceSafe_sig p n).fenceNotify _ (State.flag_fput_one rfl (by decide)))

/-! ## The stream's state and its lateness -/

/-- What entering a state of the stream writes. -/
theorem State.rd_setSeqState {a : Nat} (st : Nat) (h1 : a ≠ Reg.SEQ_STATUS p) (h2 : a ≠ Reg.FMT_STATUS p) (h3 : a ≠ Reg.PWR_SAG_STAT) :
    (s.setSeqState p st).rd a = s.rd a := by
  unfold State.setSeqState State.showHold
  dsimp only
  split <;> simp [State.rd_fput_ne, h1, h2, h3]

theorem SEQ_STATUS_ne_PWR_SAG_STAT (hp : p ∈ allParts) : Reg.SEQ_STATUS p ≠ Reg.PWR_SAG_STAT := by
  have := pos_and_le_four_of_mem_allParts hp
  unfold Reg.SEQ_STATUS Reg.PWR_SAG_STAT vf; omega

theorem State.seqState_setSeqState (hp : p ∈ allParts) {st : Nat} (h : st < 8) : (s.setSeqState p st).seqState p = st := by
  have hne : Reg.SEQ_STATUS p ≠ Reg.FMT_STATUS p := by unfold Reg.SEQ_STATUS Reg.FMT_STATUS; omega
  have hput : ((s.fput (Reg.SEQ_STATUS p) Fld.SEQ_STATUS_STATE st).fput (Reg.FMT_STATUS p) Fld.FMT_STATUS_SEQ_STOPPED
      (b2n (st == seqStopped || st == seqFaulted))).seqState p = st := by
    rw [State.seqState_of_rd (State.rd_fput_ne _ _ _ hne)]
    exact (State.fget_fput _ _ _ _ (by decide)).trans (Nat.mod_eq_of_lt h)
  unfold State.setSeqState State.showHold
  dsimp only
  split
  · exact (State.seqState_of_rd (State.rd_fput_ne _ _ _ (SEQ_STATUS_ne_PWR_SAG_STAT hp))).trans hput
  · exact hput

@[simp] theorem State.sq_setSeqState (st j : Nat) : (s.setSeqState p st).sq j = s.sq j :=
  State.sq_of_kept (State.setSeqState_kept (φ := allBut [.regs]) p st (Kept.refl _ s) rfl) rfl j

@[simp] theorem State.rd_sepiaRec (unit code owner arg a : Nat) : (s.sepiaRec unit code owner arg).rd a = s.rd a :=
  State.rd_of_kept (State.sepiaRec_kept (φ := allBut [.usage]) unit code owner arg (Kept.refl _ s) rfl) rfl a

@[simp] theorem State.cores_sepiaRec (unit code owner arg : Nat) : (s.sepiaRec unit code owner arg).cores = s.cores :=
  (State.sepiaRec_kept (φ := allBut [.usage]) unit code owner arg (Kept.refl _ s) rfl).cores rfl

/-- A register of the stream that a boundary's check of lateness leaves alone: all but the episode's own. -/
def lostRegs (p : Nat) : List Nat := [Reg.SEQ_LATE_STAT p, Reg.SEQ_SLOST_COUNT p, Reg.SEQ_INT_STATUS p]

theorem State.rd_lostCheck {a : Nat} (h : a ∉ lostRegs p) : (s.lostCheck p).rd a = s.rd a := by
  obtain ⟨h1, h2, h3⟩ : a ≠ Reg.SEQ_LATE_STAT p ∧ a ≠ Reg.SEQ_SLOST_COUNT p ∧ a ≠ Reg.SEQ_INT_STATUS p := by
    simpa [lostRegs] using h
  unfold State.lostCheck State.setAnnQ State.irqSeq State.bump
  dsimp only
  split
  · simp [State.rd_irq_ne, State.rd_fput_ne, h1, h2, h3]
  · split
    · simp [State.rd_fput_ne, h1]
    · rfl

theorem State.rd_lostEnd {a : Nat} (h : a ∉ lostRegs p) : (s.lostEnd p).rd a = s.rd a := by
  unfold State.lostEnd
  split
  · exact State.rd_lostCheck h
  · rfl

@[simp] theorem State.sq_irq (fn vec sta en bits j : Nat) : (s.irq fn vec sta en bits).sq j = s.sq j :=
  State.sq_of_kept (State.irq_kept (φ := allBut [.regs, .out]) fn vec sta en bits (Kept.refl _ s) rfl rfl) rfl j

theorem State.sq_setAnnQ (l : List Bool) (b : Bool) : (s.setAnnQ p l b).sq p = { s.sq p with annQ := l, announced := b } := by
  unfold State.setAnnQ
  rw [State.sq_fput, State.sq_setSq]

/-- A check of lateness moves the announcements of a stream alone. -/
theorem State.sq_lostCheck (p : Nat) :
    { (s.lostCheck p).sq p with annQ := (s.sq p).annQ, announced := (s.sq p).announced } = s.sq p := by
  unfold State.lostCheck State.irqSeq State.bump
  dsimp only
  split
  · rw [State.sq_sepiaRec, State.sq_irq, State.sq_fput, State.sq_setAnnQ, State.sq_fput, State.sq_fput]
  · split
    · rw [State.sq_setAnnQ, State.sq_fput]
    · rfl

theorem State.sq_lostEnd (p : Nat) :
    { (s.lostEnd p).sq p with annQ := (s.sq p).annQ, announced := (s.sq p).announced } = s.sq p := by
  unfold State.lostEnd
  split
  · exact s.sq_lostCheck p
  · rfl

/-- What a check of lateness leaves of a stream. -/
theorem Seq.issue_of_quiet {q q' : Seq} {l : List Bool} {b : Bool} (h : { q with annQ := l, announced := b } = q') : q.issue = q'.issue := by
  rw [← h]

@[simp] theorem State.sq_setLate (v j : Nat) : (s.setLate p v).sq j = s.sq j := by
  unfold State.setLate; rw [State.sq_wn, State.sq_wn]

theorem State.rn_wn (a v : Nat) : (s.wn a v).rn a = v % 2 ^ 32 := by
  unfold State.rn State.wn
  rw [State.rd_wr, BitVec.toNat_ofNat]

theorem State.rn_setLate (v : Nat) : (s.setLate p v).rn (Reg.SEQ_LATE p) = v % 2 ^ 32 := State.rn_wn ..

/-! ## The end of a stream -/

/-- R163: a stream that enters STOPPED, with the rest of it as it was. -/
theorem State.sq_enterStopped (p : Nat) : (s.enterStopped p).sq p =
    { s.sq p with limreq := 0, stopPend := false, resumed := false, lastFalse := 0, waited := 0, waitBeat := false } := by
  unfold State.enterStopped State.seqPacketDone
  rw [State.sq_of_kept (State.mapBufs_kept (φ := allBut [.regs, .out, .queues]) p _ _ (Kept.refl _ _) rfl rfl rfl) rfl]
  simp only [State.sq_sepiaRec, State.sq_setSeqState, State.sq_fput, State.sq_wn, State.sq_setSq]

theorem State.seqState_enterStopped (hp : p ∈ allParts) : (s.enterStopped p).seqState p = seqStopped := by
  have h0 : p ≠ 0 := Nat.one_le_iff_ne_zero.mp (pos_and_le_four_of_mem_allParts hp).1
  unfold State.enterStopped State.seqPacketDone
  rw [State.seqState_of_rd (State.rd_mapBufs h0 _ _ (by unfold Reg.SEQ_STATUS; omega)), State.seqState_of_rd (State.rd_sepiaRec ..)]
  exact State.seqState_setSeqState hp (by decide)

theorem State.rn_SEQ_PC_enterStopped (hp : p ∈ allParts) : (s.enterStopped p).rn (Reg.SEQ_PC p) = (s.sq p).nxt.idx % 2 ^ 32 := by
  have h4 := pos_and_le_four_of_mem_allParts hp
  unfold State.enterStopped State.seqPacketDone
  rw [State.rn_of_rd (State.rd_mapBufs (by omega) _ _ (by unfold Reg.SEQ_PC; omega)), State.rn_of_rd (State.rd_sepiaRec ..),
    State.rn_of_rd (State.rd_setSeqState _ (by unfold Reg.SEQ_PC Reg.SEQ_STATUS; omega) (by unfold Reg.SEQ_PC Reg.FMT_STATUS; omega)
      (by unfold Reg.SEQ_PC Reg.PWR_SAG_STAT vf; omega)),
    State.rn_of_rd (State.rd_fput_ne _ _ _ (by unfold Reg.SEQ_PC Reg.SEQ_CTRL; omega)), State.rn_wn]

/-! ## Bodies that have not ended -/

theorem State.partRuns_of_sameBodies (h : s.cores.sameBodies t.cores) (p : Nat) : t.partRuns p = s.partRuns p := by
  unfold State.partRuns; rw [h.1]

/-- R134: nothing overruns where no body runs and no start waits. -/
theorem State.overrun_eq_none (hr : s.partRuns p = []) (hs : (s.sq p).starts = []) : s.overrun p = none := by
  simp [State.overrun, State.unended, hr, hs]

theorem State.endOverrun_eq_none (hr : s.partRuns p = []) (hs : (s.sq p).starts = []) : s.endOverrun p = none := by
  unfold State.endOverrun
  dsimp only
  split
  · rfl
  · exact State.overrun_eq_none hr hs

/-! ## Bundles -/

theorem State.keepsBeat_of_nextBundle {b : Bundle} (h : s.nextBundle p = some b) : s.keepsBeat p (s.sq p).issue := by
  intro hf
  unfold State.nextBundle at h
  dsimp only at h
  split at h
  next hc =>
    simp only [hf, Bool.and_eq_true, Bool.or_eq_true, beq_iff_eq] at hc
    obtain ⟨⟨hc, -⟩, -⟩ := hc
    rcases hc with (hc | hc) | hc
    · exact absurd hc (by decide)
    · exact absurd hc (by decide)
    · exact hc.2
  next => cases h

/-- The stream after a bundle has issued (R118), its trace apart. -/
def State.bundleIssued (s : State) (p : Nat) (b : Bundle) : State :=
  let s1 := (s.advance p (s.sq p).issue).wn (Reg.SEQ_PC p) ((s.sq p).pc + 1)
  let s2 := s1.setSq p { s1.sq p with pos := (s.sq p).pos + 1 }
  if bTrace b then s2.sepiaRec (unitSeq p) 0x14 p ((s.sq p).pc + 1) else s2

theorem State.issues_iff {ty : Nat} {b : Bundle} : s.issues p ty b = true ↔
    p ∈ allParts ∧ s.nextBundle p = some b ∧ s.canRun p (s.sq p).issue = true ∧ bundleForm b = 0 ∧ bType b = ty := by
  simp [State.issues, and_assoc]

theorem State.issueBundle_of_issues {ty : Nat} {b : Bundle} (f : State → Bundle → State) (h : s.issues p ty b = true) :
    s.issueBundle p ty false f = f (s.bundleIssued p b) b := by
  obtain ⟨-, hb, hc, hf, hty⟩ := State.issues_iff.mp h
  unfold State.issueBundle
  simp [hb, hc, hf, hty, State.bundleIssued]

theorem State.sq_bundleIssued (b : Bundle) :
    (s.bundleIssued p b).sq p = { (s.advance p (s.sq p).issue).sq p with pos := (s.sq p).pos + 1 } := by
  unfold State.bundleIssued
  dsimp only
  split <;> simp only [State.sq_sepiaRec, State.sq_setSq, State.sq_wn]

theorem State.rd_bundleIssued {a : Nat} (b : Bundle) (h : a ∉ beatRegs p) (h' : a ≠ Reg.SEQ_PC p) : (s.bundleIssued p b).rd a = s.rd a := by
  unfold State.bundleIssued
  dsimp only
  split <;> simp only [State.rd_sepiaRec, State.rd_setSq, State.rd_wn_ne _ h', State.rd_advance _ h]

theorem State.bundleIssued_sameBodies {b : Bundle} (h : s.keepsBeat p (s.sq p).issue) : s.cores.sameBodies (s.bundleIssued p b).cores := by
  have hc : (s.bundleIssued p b).cores = (s.advance p (s.sq p).issue).cores := by
    unfold State.bundleIssued
    dsimp only
    split
    · rw [State.cores_sepiaRec, State.setSq_cores, State.cores_wn]
    · rw [State.setSq_cores, State.cores_wn]
  rw [hc]
  exact State.advance_sameBodies h

/-! ## CTL slots -/

theorem State.ctlReady_iff {cop : Nat} : s.ctlReady p cop = true ↔
    p ∈ allParts ∧ s.stopped p = false ∧ s.halted = false ∧ (s.sq p).ctlDue = true ∧ bCop (s.sq p).bundle = cop := by
  simp [State.ctlReady, and_assoc]

theorem State.ctlOp_of_ready {cop : Nat} (f : State → Bundle → State) (h : s.ctlReady p cop = true) :
    s.ctlOp p cop f = f (s.setSq p { s.sq p with ctlDue := false }) (s.sq p).bundle := by
  obtain ⟨-, hs, hh, hdue, hcop⟩ := State.ctlReady_iff.mp h
  unfold State.ctlOp
  simp [State.dead_of_not_stopped hs, hh, hdue, hcop]

/-! ## The rows -/

theorem State.sq_bundleExec {b : Bundle} (h : s.issues p bExec b = true) : (s.bundleExec p false).sq p =
    { (s.bundleIssued p b).sq p with
      issue := ((s.bundleIssued p b).sq p).beat + bBeats b, ctlDue := bCtlV b, grp0Due := bGrpV b && bitsOf (startBits b 0) 0 1 == 1
      grp1Due := bGrpV b && bitsOf (startBits b 1) 0 1 == 1, xferDue := bXferV b && bXop b != 0 } := by
  unfold State.bundleExec
  rw [State.issueBundle_of_issues _ h, State.sq_setSq]

theorem bundleExec_gives {b : Bundle} (h : s.issues p bExec b = true) : Gives (.bundleExec p false) s fun t =>
    (t.sq p).pos = (s.sq p).pos + 1 ∧ (t.sq p).beat = (s.sq p).issue ∧ (t.sq p).issue = (s.sq p).issue + bBeats b ∧
      (t.sq p).ctlDue = bCtlV b ∧ (t.sq p).xferDue = (bXferV b && bXop b != 0) := by
  have hq := State.sq_bundleExec h
  rw [State.sq_bundleIssued, State.sq_advance (State.keepsBeat_of_nextBundle (State.issues_iff.mp h).2.1)] at hq
  exact ⟨_, rfl, by rw [hq], by rw [hq], by rw [hq], by rw [hq], by rw [hq]⟩

theorem fsig_gives (h : s.ctlReady p 2 = true) (hn : s.hasFence p (ctlB (s.sq p).bundle 4 16) = true)
    (he : s.fget (Reg.FEN_F p (ctlB (s.sq p).bundle 4 16)) Fld.FEN_F_ERR = 0) : Gives (.fsig p) s fun t =>
      t.flag (Reg.FEN_F p (ctlB (s.sq p).bundle 4 16)) Fld.FEN_F_SIG = true := by
  refine ⟨_, rfl, ?_⟩
  rw [State.ctlOp_of_ready _ h]
  exact State.flag_fenceSignal (Nat.one_le_iff_ne_zero.mp (pos_and_le_four_of_mem_allParts (State.ctlReady_iff.mp h).1).1) hn he

theorem commit_gives (h : s.ctlReady p 4 = true) (hc : (s.sq p).commitRec = none) : Gives (.commit p) s fun t =>
    (t.sq p).commitRec = some ⟨ctlB (s.sq p).bundle 4 32, ctlB (s.sq p).bundle 36 4⟩ ∧
      t.flag (Reg.UPD_STATUS p) Fld.UPD_STATUS_PENDING = true := by
  have hs : s.stopped p = false := (State.ctlReady_iff.mp h).2.1
  refine ⟨_, rfl, ?_⟩
  rw [State.ctlOp_of_ready _ h]
  unfold State.commitOp
  simp only [State.sq_setSq, hc, Option.isSome_none, Bool.false_eq_true, if_false, State.stopped_setSq, hs]
  exact ⟨by rw [State.sq_fput, State.sq_setUp, State.sq_setSq], State.flag_fput_one rfl (by decide)⟩

theorem loopOp_gives (errs : List ReadErr) (h : s.ctlReady p 3 = true) (hl : (s.sq p).loopRec = none)
    (ht : ctlB (s.sq p).bundle 30 32 = (s.sq p).cur.idx) : Gives (.loopOp p errs) s fun t =>
      (t.sq p).loopRec = some ⟨ctlB (s.sq p).bundle 4 2, ctlB (s.sq p).bundle 6 24, (s.sq p).cur.idx⟩ := by
  refine ⟨_, rfl, ?_⟩
  rw [State.ctlOp_of_ready _ h]
  unfold State.loopTo
  simp only [State.sq_setSq, hl, ht, Option.isSome_none, Bool.false_eq_true, if_false, if_true, Bool.not_true]

theorem State.stopped_bundleIssued (b : Bundle) : (s.bundleIssued p b).stopped p = s.stopped p :=
  State.stopped_of_rd (State.rd_bundleIssued b (SEQ_STATUS_not_mem_beatRegs p) (by unfold Reg.SEQ_STATUS Reg.SEQ_PC; omega))

/-- R186: what is left of a SLACK bundle, once lateness has taken its part, in a stream where no body runs. -/
theorem State.slackOp_of_issues {b : Bundle} (h : s.issues p bSlack b = true) (hs : s.stopped p = false) (hst : (s.sq p).starts = [])
    (hr : s.partRuns p = []) : ∃ t : State, s.slackOp p false = (((t.setLate p (s.rn (Reg.SEQ_LATE p) - min (s.rn (Reg.SEQ_LATE p))
        (ctlB b 0 16 + 1))).bump64 (Reg.SEQ_CONS_LO p) (min (s.rn (Reg.SEQ_LATE p)) (ctlB b 0 16 + 1))).count p 0x03 16 0
        (min (s.rn (Reg.SEQ_LATE p)) (ctlB b 0 16 + 1))).lostEnd p ∧
      (t.sq p).issue = (s.sq p).issue + (ctlB b 0 16 + 1 - min (s.rn (Reg.SEQ_LATE p)) (ctlB b 0 16 + 1)) := by
  have hk := State.keepsBeat_of_not_stopped hs (s.sq p).issue
  have hsq := s.sq_bundleIssued (p := p) b
  rw [State.sq_advance hk] at hsq
  have ho : (s.bundleIssued p b).overrun p = none := State.overrun_eq_none
    ((State.partRuns_of_sameBodies (State.bundleIssued_sameBodies hk) p).trans hr) (by rw [hsq, hst])
  have hlate : (s.bundleIssued p b).rn (Reg.SEQ_LATE p) = s.rn (Reg.SEQ_LATE p) := State.rn_of_rd (State.rd_bundleIssued b
    (not_mem_beatRegs (by unfold Reg.SEQ_LATE; omega)) (by unfold Reg.SEQ_LATE Reg.SEQ_PC; omega))
  unfold State.slackOp
  simp only [State.issueBundle_of_issues _ h, ho, ite_self, State.stopped_bundleIssued, hs, Bool.false_eq_true, if_false, hlate]
  exact ⟨_, rfl, by rw [State.sq_setSq, hsq]⟩

theorem slack_gives {b : Bundle} (h : s.issues p bSlack b = true) (hs : s.stopped p = false) (hst : (s.sq p).starts = [])
    (hr : s.partRuns p = []) : Gives (.slack p false) s fun t =>
      let n := ctlB b 0 16 + 1
      let late := s.rn (Reg.SEQ_LATE p)
      (t.sq p).issue = (s.sq p).issue + (n - min late n) ∧ t.rn (Reg.SEQ_LATE p) = late - min late n := by
  obtain ⟨t, ht, hissue⟩ := State.slackOp_of_issues h hs hst hr
  have hlost : Reg.SEQ_LATE p ∉ lostRegs p := by
    simp only [lostRegs, List.mem_cons, List.not_mem_nil, or_false, Reg.SEQ_LATE, Reg.SEQ_LATE_STAT, Reg.SEQ_SLOST_COUNT,
      Reg.SEQ_INT_STATUS]
    omega
  refine ⟨_, rfl, ?_⟩
  rw [ht]
  constructor
  · rw [Seq.issue_of_quiet (State.sq_lostEnd p), State.sq_count, State.sq_bump64, State.sq_setLate, hissue]
  · rw [State.rn_of_rd (State.rd_lostEnd hlost), State.rn_of_rd (State.rd_count ..), State.rn_of_rd (State.rd_bump64_ne _
      (by unfold Reg.SEQ_LATE Reg.SEQ_CONS_LO; omega) (by unfold Reg.SEQ_LATE Reg.SEQ_CONS_LO; omega)), State.rn_setLate]
    exact Nat.mod_eq_of_lt (lt_of_le_of_lt (Nat.sub_le ..) (s.rd (Reg.SEQ_LATE p)).isLt)

theorem endOp_gives {b : Bundle} (h : s.issues p bEnd b = true) (hs : s.stopped p = false) : Gives (.endOp p false) s fun t =>
    (t.sq p).issue = (s.sq p).issue + 1 ∧ (t.sq p).ended = some (if ctlB b 16 1 = 1 then some (ctlB b 0 16) else none) := by
  have hsq := s.sq_bundleIssued (p := p) b
  rw [State.sq_advance (State.keepsBeat_of_not_stopped hs _)] at hsq
  refine ⟨_, rfl, ?_⟩
  unfold State.endOp
  simp only [State.issueBundle_of_issues _ h, State.stopped_bundleIssued, hs, Bool.false_eq_true, if_false, State.sq_setSq, hsq,
    and_self]

/-- R126: the stream is over, once its fence has signalled. -/
theorem State.endDone_of_empty {fence : Option Nat} (he : (s.sq p).ended = some fence) (hs : s.stopped p = false)
    (hc : s.canRun p (max (s.sq p).beat (s.sq p).issue) = true) (hcs : ∀ n, n < 32 → s.cset p n = 0) (hst : (s.sq p).starts = [])
    (hr : s.partRuns p = []) : ∃ t : State, s.endDone p = (t.enterStopped p).irqSeq p Fld.SEQ_INT_STATUS_END ∧ (t.sq p).ended = none ∧
      (t.sq p).nxt.idx = (s.sq p).cur.idx + (s.sq p).cur.len := by
  have hk := State.keepsBeat_of_not_stopped hs (max (s.sq p).beat (s.sq p).issue)
  have ho : (s.advance p (max (s.sq p).beat (s.sq p).issue)).endOverrun p = none := State.endOverrun_eq_none
    ((State.partRuns_of_sameBodies (State.advance_sameBodies hk) p).trans hr) (by rw [State.sq_advance hk, hst])
  have hcs' : (List.range 32).any (fun n => s.cset p n != 0) = false := by simpa using hcs
  unfold State.endDone
  simp only [he, hs, hc, hcs', ho, Bool.false_eq_true, Bool.not_true, or_self, if_false]
  rw [Option.getD_none]
  exact ⟨_, rfl, by rw [State.sq_setSq], by rw [State.sq_setSq]⟩

theorem endComplete_gives {fence : Option Nat} (hp : p ∈ allParts) (he : (s.sq p).ended = some fence) (hs : s.stopped p = false)
    (hc : s.canRun p (max (s.sq p).beat (s.sq p).issue) = true) (hcs : ∀ n, n < 32 → s.cset p n = 0) (hst : (s.sq p).starts = [])
    (hr : s.partRuns p = []) : Gives (.endComplete p) s fun t =>
      t.seqState p = seqStopped ∧ (t.sq p).ended = none ∧ t.rn (Reg.SEQ_PC p) = ((s.sq p).cur.idx + (s.sq p).cur.len) % 2 ^ 32 := by
  obtain ⟨t, ht, hend, hnxt⟩ := State.endDone_of_empty he hs hc hcs hst hr
  have hirq {a : Nat} (ha : a ≠ Reg.SEQ_INT_STATUS p) (t : State) : (t.irqSeq p Fld.SEQ_INT_STATUS_END).rd a = t.rd a :=
    State.rd_irq_ne _ _ _ _ _ _ ha
  refine ⟨_, rfl, ?_⟩
  rw [ht]
  refine ⟨?_, ?_, ?_⟩
  · rw [State.seqState_of_rd (hirq (by unfold Reg.SEQ_STATUS Reg.SEQ_INT_STATUS; omega) _), State.seqState_enterStopped hp]
  · rw [State.irqSeq, State.sq_irq, State.sq_enterStopped, hend]
  · rw [State.rn_of_rd (hirq (by unfold Reg.SEQ_PC Reg.SEQ_INT_STATUS; omega) _), State.rn_SEQ_PC_enterStopped hp, hnxt]

/-- R124: the successor of a period without a COMMIT. -/
theorem State.choose_of_no_commit (tainted : Bool) (hc : (s.sq p).commitRec = none) :
    ((s.sq p).loopRec = none → ((s.choose p tainted).sq p).nxt.idx = (s.sq p).cur.idx + (s.sq p).cur.len) ∧
      ∀ l, (s.sq p).loopRec = some l → s.loopCnt p l.lvl < l.tripm1 → ((s.choose p tainted).sq p).nxt.idx = l.target ∧
        (s.choose p tainted).rn (Reg.SEQ_LOOP p l.lvl) = (s.loopCnt p l.lvl + 1) % 2 ^ 32 := by
  have hidx (q : Period) (i : Nat) : (if q.idx = i then q else { idx := i }).idx = i := by split <;> [assumption; rfl]
  refine ⟨fun hl => ?_, fun l hl hcnt => ⟨?_, ?_⟩⟩
  · simp only [State.choose, hc, hl, State.choose.pick, State.sq_setSq, hidx]
  · simp only [State.choose, hc, hl, State.choose.pick, hcnt, if_true, State.sq_setSq, hidx]
  · simp only [State.choose, hc, hl, State.choose.pick, hcnt, if_true]
    rw [State.rn_of_rd (State.rd_setSq ..), State.rn_wn]

theorem State.choose_stopPend (tainted : Bool) (hc : (s.sq p).commitRec = none) :
    ((s.choose p tainted).sq p).stopPend = (s.sq p).stopPend := by
  have hp : (State.choose.pick p s (s.sq p) (s.sq p).loopRec).1.sq p = s.sq p := by
    unfold State.choose.pick
    split
    · split <;> rw [State.sq_wn]
    · rfl
  simp only [State.choose, hc, State.sq_setSq, hp]

/-- R124, R134: a period that ends without a COMMIT, in a stream where no body runs, chooses its successor. -/
theorem State.periodEnd_of_ended (hs : s.stopped p = false) (hrun : s.seqState p = seqRunning ∨ s.seqState p = seqStopping)
    (he : (s.sq p).ended = none) (hpos : (s.sq p).cur.len ≤ (s.sq p).pos + 1) (hops : (s.sq p).opsDue = false)
    (hc : s.canRun p (s.sq p).issue = true) (hst : (s.sq p).starts = []) (hr : s.partRuns p = []) (hcom : (s.sq p).commitRec = none) :
    ∃ t : State, s.periodEnd p = (t.choose p (t.fget (Reg.UPD_STATUS p) Fld.UPD_STATUS_LAST == 3)).toGate p ∧
      (t.sq p).commitRec = none ∧ (t.sq p).loopRec = (s.sq p).loopRec ∧ (t.sq p).cur = (s.sq p).cur ∧
      (t.sq p).stopPend = (s.sq p).stopPend ∧ ∀ a, a ∉ beatRegs p → t.rd a = s.rd a := by
  have hk := State.keepsBeat_of_not_stopped hs (s.sq p).issue
  have ho : (s.advance p (s.sq p).issue).endOverrun p = none := State.endOverrun_eq_none
    ((State.partRuns_of_sameBodies (State.advance_sameBodies hk) p).trans hr) (by rw [State.sq_advance hk, hst])
  have hrun' : (s.seqState p == seqRunning || s.seqState p == seqStopping) = true := by simpa using hrun
  unfold State.periodEnd
  simp only [he, hrun', Nat.not_lt.mpr hpos, hops, hc, hcom, ho, Bool.not_true, Option.isSome_none, Bool.false_eq_true, Bool.or_self,
    decide_false, false_and, if_false]
  rw [Option.getD_none]
  exact ⟨_, rfl, by rw [State.sq_setSq, State.sq_advance hk, hcom], by rw [State.sq_setSq, State.sq_advance hk],
    by rw [State.sq_setSq, State.sq_advance hk], by rw [State.sq_setSq, State.sq_advance hk],
    fun a ha => (State.rd_setSq ..).trans (State.rd_advance _ ha)⟩

theorem periodEnd_gives (hp : p ∈ allParts) (hrun : s.seqState p = seqRunning) (he : (s.sq p).ended = none)
    (hpos : (s.sq p).cur.len ≤ (s.sq p).pos + 1) (hops : (s.sq p).opsDue = false) (hc : s.canRun p (s.sq p).issue = true)
    (hst : (s.sq p).starts = []) (hr : s.partRuns p = []) (hcom : (s.sq p).commitRec = none) (hstop : (s.sq p).stopPend = false) :
    Gives (.periodEnd p) s fun t => t.seqState p = seqGateWait ∧
        ((s.sq p).loopRec = none → (t.sq p).nxt.idx = (s.sq p).cur.idx + (s.sq p).cur.len) ∧
        (∀ l, (s.sq p).loopRec = some l → l.lvl < 4 → s.loopCnt p l.lvl < l.tripm1 →
          (t.sq p).nxt.idx = l.target ∧ t.rn (Reg.SEQ_LOOP p l.lvl) = s.loopCnt p l.lvl + 1) := by
  have hs : s.stopped p = false := by simp [State.stopped, hrun, seqRunning, seqStopped, seqFaulted]
  obtain ⟨t, ht, htc, hloop, hcur, htop, hrd⟩ := State.periodEnd_of_ended hs (Or.inl hrun) he hpos hops hc hst hr hcom
  have hcnt {l : Nat} (hl : l < 4) : t.loopCnt p l = s.loopCnt p l :=
    State.fget_of_rd (hrd _ (not_mem_beatRegs (by unfold Reg.SEQ_LOOP; omega)))
  obtain ⟨hnone, hsome⟩ := State.choose_of_no_commit (t.fget (Reg.UPD_STATUS p) Fld.UPD_STATUS_LAST == 3) htc
  rw [hloop, hcur] at hnone
  rw [hloop] at hsome
  refine ⟨_, rfl, ?_⟩
  rw [ht, State.toGate, State.choose_stopPend _ htc, htop, hstop, if_neg Bool.false_ne_true]
  refine ⟨State.seqState_setSeqState hp (by decide), fun hl => ?_, fun l hl hlvl hlt => ?_⟩
  · rw [State.sq_setSeqState, hnone hl]
  · obtain ⟨hidx, hrn⟩ := hsome l hl (by rwa [hcnt hlvl])
    have h4 := pos_and_le_four_of_mem_allParts hp
    rw [State.sq_setSeqState, hidx, State.rn_of_rd (State.rd_setSeqState _ (by unfold Reg.SEQ_LOOP Reg.SEQ_STATUS; omega)
      (by unfold Reg.SEQ_LOOP Reg.FMT_STATUS; omega) (by unfold Reg.SEQ_LOOP Reg.PWR_SAG_STAT vf; omega)), hrn, hcnt hlvl]
    exact ⟨rfl, Nat.mod_eq_of_lt (by have : s.loopCnt p l.lvl < 2 ^ 24 := Fld.get_lt _ _; omega)⟩

end

/-! ## The statement settled -/

/-- Settles O33: an issue by `State.issueBundle_of_issues`, a CTL slot by `State.ctlOp_of_ready`, and the ends of a stream and of a period
by what they come to where no body is left. -/
theorem bundleRowsComplete : Obligations.BundleRowsComplete := by
  refine ⟨fun s p b h => bundleExec_gives h,
    fun s p => ⟨fun h => ⟨_, rfl, State.ctlOp_of_ready _ h⟩, fun h => ⟨_, rfl, State.ctlOp_of_ready _ h⟩⟩,
    fun s p h hn he => fsig_gives h hn he, fun s p errs h hl ht => loopOp_gives errs h hl ht, fun s p h hc => commit_gives h hc,
    fun s p b h hs hst hr => slack_gives h hs hst hr, fun s p b h hs => endOp_gives h hs,
    fun s p fence hp he hs hc hcs hst hr => endComplete_gives hp he hs hc hcs hst hr,
    fun s p hp hrun he hpos hops hc hst hr hcom hstop => periodEnd_gives hp hrun he hpos hops hc hst hr hcom hstop⟩

end Sys2Proof.Machine

/-! The rows of windows and mesh landings: what a transfer-port write of core SRAM rests on, what a window's issue leaves, and the
statement settled with them. -/

namespace Sys2Proof.Machine

section
variable {s t : State} {p : Nat}

/-! ## XFER slots -/

theorem State.xferReady_iff {xop : Nat} : s.xferReady p xop = true ↔
    p ∈ allParts ∧ s.stopped p = false ∧ s.halted = false ∧ (s.sq p).xferDue = true ∧ bXop (s.sq p).bundle = xop := by
  simp [State.xferReady, and_assoc]

/-- The XFER operation of the issued bundle has been taken up. -/
def State.xferTaken (s : State) (p : Nat) : State := s.setSq p { s.sq p with xferDue := false }

theorem State.xferOp_of_ready {xop : Nat} (f : State → Bundle → State) (h : s.xferReady p xop = true) :
    s.xferOp p xop f = f (s.xferTaken p) (s.sq p).bundle := by
  obtain ⟨-, hs, hh, hdue, hxop⟩ := State.xferReady_iff.mp h
  unfold State.xferOp
  simp [State.dead_of_not_stopped hs, hh, hdue, hxop, State.xferTaken]

theorem State.sq_xferTaken (p : Nat) : (s.xferTaken p).sq p = { s.sq p with xferDue := false } := State.sq_setSq ..
theorem State.xferTaken_regs (p : Nat) : (s.xferTaken p).regs = s.regs := rfl

theorem State.cset_of_regs (h : t.regs = s.regs) : t.cset = s.cset := by
  unfold State.cset State.fget State.rd
  rw [h]

theorem State.portMap_of_rd (h : ∀ i, t.rd (Reg.COL_PORTMAP p i) = s.rd (Reg.COL_PORTMAP p i)) (l : Nat) :
    t.portMap p l = s.portMap p l := by
  unfold State.portMap State.rn
  rw [h]

/-! ## Completion sets -/

theorem State.csetAdd_of_le {n d : Nat} (h : s.cset p n + d ≤ 65535) :
    s.csetAdd p n d = some (s.fput (Reg.SEQ_CSET p n) Fld.SEQ_CSET_OUT (s.cset p n + d)) := if_pos h

theorem State.cset_fput {n v : Nat} (h : v ≤ 65535) : (s.fput (Reg.SEQ_CSET p n) Fld.SEQ_CSET_OUT v).cset p n = v :=
  (State.fget_fput _ _ _ _ (by decide)).trans (Nat.mod_eq_of_lt (Nat.lt_succ_of_le h))

theorem State.cset_of_rd {n : Nat} (h : t.rd (Reg.SEQ_CSET p n) = s.rd (Reg.SEQ_CSET p n)) : t.cset p n = s.cset p n := State.fget_of_rd h

@[simp] theorem State.cset_serial (k n : Nat) : ({ s with serial := k } : State).cset p n = s.cset p n := (rfl)

/-! ## Transfer-port writes of core SRAM (R158) -/

/-- What a write of core SRAM makes of the cores rests on them, the registers, and the words that the compute port has written. -/
theorem State.sramWr_cores_congr (hc : t.cores = s.cores) (hr : t.regs = s.regs) (hw : ∀ j, (t.sq j).cwords = (s.sq j).cwords)
    (c b : Nat) (v : List Byte) : (t.sramWr c b v).cores = (s.sramWr c b v).cores := by
  have hq : t.partOfQuad (c / 34) = s.partOfQuad (c / 34) := by
    unfold State.partOfQuad State.quad0 State.nquad State.fget State.rd
    rw [hr]
  have hst (j : Nat) : t.stopped j = s.stopped j := State.stopped_of_rd (State.regs_of_rd hr _)
  have hkeep (u : State) (n : Nat) : (u.keepOld c b n).cores = u.cores :=
    (State.keepOld_kept (φ := allBut [.seqs]) c b n (Kept.refl _ u) rfl).cores rfl
  unfold State.sramWr State.sramPut
  simp only [hq, hst, hw, hkeep, hc]

/-- A write of core SRAM keeps what it replaces, and moves nothing else of a stream. -/
theorem State.sq_sramWr (c b : Nat) (v : List Byte) (j : Nat) : { (s.sramWr c b v).sq j with before := (s.sq j).before } = s.sq j := by
  have hput (u : State) (w : List Byte) : (u.sramPut c b w).sq j = u.sq j :=
    State.sq_of_kept (State.sramPut_kept (φ := allBut [.cores]) c b w (Kept.refl _ u) rfl) rfl j
  unfold State.sramWr State.keepOld
  dsimp only
  rw [hput]
  split
  · rfl
  · by_cases hj : j = s.partOfQuad (c / 34)
    · subst hj
      rw [State.sq_setSq]
    · rw [State.sq_setSq_ne _ _ hj]

theorem Seq.mesh_of_before {q q' : Seq} {l : List (Nat × List Byte)} (h : { q with before := l } = q') : q.mesh = q'.mesh := by
  rw [← h]

theorem State.landRx_cores (id off len : Nat) : (s.landRx p id off len).cores = s.cores :=
  (State.landRx_kept (φ := allBut [.regs, .usage, .wins]) p id off len (Kept.refl _ s) rfl rfl rfl).cores rfl
theorem State.sq_landRx (id off len j : Nat) : (s.landRx p id off len).sq j = s.sq j :=
  State.sq_of_kept (State.landRx_kept (φ := allBut [.regs, .usage, .wins]) p id off len (Kept.refl _ s) rfl rfl rfl) rfl j

/-! ## Mesh landings -/

/-- R148: a landing that writes goes through the transfer port. -/
theorem State.landMesh_of_write (bad : SramErrs) {l : MeshLand} (ha : l.add = false) (hk : l.kind ≠ 2) :
    (s.landMesh p bad l).cores = (s.sramWr l.dst l.addr l.bytes).cores ∧
      ((s.landMesh p bad l).sq p).mesh = (s.sq p).mesh := by
  have hm := Seq.mesh_of_before (s.sq_sramWr l.dst l.addr l.bytes p)
  unfold State.landMesh
  simp only [ha, hk, Bool.false_eq_true, if_false]
  split
  · exact ⟨State.landRx_cores .., by rw [State.sq_landRx, hm]⟩
  · exact ⟨rfl, hm⟩

theorem sortBy_singleton {α : Type} (lt : α → α → Bool) (x : α) : sortBy lt [x] = [x] := rfl

/-- The landing that a core takes alone. -/
theorem State.meshLanding_of_alone {core : Nat} (bad : SramErrs) {l : MeshLand} (hf : s.seqState p ≠ seqFaulted)
    (hl : (s.sq p).mesh.filter (fun (l : MeshLand) => l.dst == s.pcore p core) = [l]) (hc : s.canRun p l.beat = true) (hk : l.kind ≠ 2) :
    s.meshLanding p core bad = ((s.advance p l.beat).setSq p { (s.advance p l.beat).sq p with
      mesh := (s.sq p).mesh.filter fun (x : MeshLand) => !(x.dst == s.pcore p core && x.beat == l.beat) }).landMesh p bad l := by
  have hm : ((s.advance p l.beat).sq p).mesh = (s.sq p).mesh := by
    rw [State.sq_advance fun e => absurd e hf]
  have hdue : (s.sq p).mesh.filter (fun (x : MeshLand) => x.dst == s.pcore p core && x.beat == l.beat) = [l] := by
    have hand : (fun x : MeshLand => x.dst == s.pcore p core && x.beat == l.beat) = fun x => (x.beat == l.beat) && (x.dst == s.pcore p core) :=
      funext fun _ => Bool.and_comm ..
    rw [hand, ← List.filter_filter, hl]
    simp
  unfold State.meshLanding
  simp only [hl, List.foldl_nil, hc, Bool.not_true, Bool.false_eq_true, if_false, hm, hdue, sortBy_singleton, List.take_succ_cons,
    List.take_nil, List.drop_succ_cons, List.drop_nil, List.map_nil, List.append_nil, List.foldl_cons, hk]

theorem meshLanding_gives {core : Nat} (bad : SramErrs) {l : MeshLand} (hf : s.seqState p ≠ seqFaulted)
    (hl : (s.sq p).mesh.filter (fun (l : MeshLand) => l.dst == s.pcore p core) = [l]) (hc : s.canRun p l.beat = true) (hk : l.kind ≠ 2)
    (ha : l.add = false) : Gives (.meshLanding p core bad) s fun t =>
      t.cores.sram = ((s.advance p l.beat).sramWr l.dst l.addr l.bytes).cores.sram ∧ l ∉ (t.sq p).mesh := by
  have hdst : l.dst = s.pcore p core := by
    have : l ∈ (s.sq p).mesh.filter (fun (l : MeshLand) => l.dst == s.pcore p core) := by rw [hl]; exact List.mem_singleton_self l
    simpa using (List.mem_filter.mp this).2
  refine ⟨_, rfl, ?_⟩
  rw [State.meshLanding_of_alone bad hf hl hc hk]
  obtain ⟨hcores, hmesh⟩ := State.landMesh_of_write (p := p) (s := (s.advance p l.beat).setSq p { (s.advance p l.beat).sq p with
      mesh := (s.sq p).mesh.filter fun (x : MeshLand) => !(x.dst == s.pcore p core && x.beat == l.beat) }) bad ha hk
  refine ⟨?_, ?_⟩
  · rw [hcores, State.sramWr_cores_congr (s := s.advance p l.beat) (State.setSq_cores ..) (State.setSq_regs ..)]
    intro j
    by_cases hj : j = p
    · subst hj
      rw [State.sq_setSq]
    · rw [State.sq_setSq_ne _ _ hj]
  · rw [hmesh, State.sq_setSq]
    simp [hdst]

/-! ## Windows -/

@[simp] theorem State.win_fput (a : Nat) (f : Fld) (v j : Nat) : (s.fput a f v).win j = s.win j := (rfl)

@[simp] theorem State.win_armed (w : Win) (j : Nat) : (s.armed p w).win j = s.win j := by
  have h := (State.armed_kept (φ := allBut [.ports, .usage]) p w (Kept.refl _ s) rfl rfl).wins rfl
  unfold State.win
  rw [h]

/-- R153: the window that an LLTX to one physical port sends. -/
theorem State.lltx_of_port {b : Bundle} {l u : Nat} (hl : ((List.range 16).filter fun l => bitOf (xferB b 9 16) l) = [l])
    (ht : s.portMap p l < 16) (hu : s.rbAddr p (xferB b 25 9) (xferB b 34 11) (xferB b 45 11 + 1) = some u)
    (hc : s.cset p (bCset b) < 65535) :
    ∃ (x : TxWin) (t : State), s.lltx p b = t.setWin p { s.win p with tx := (s.win p).tx ++ [x] } ∧
      t.cset p (bCset b) = s.cset p (bCset b) + 1 ∧ x.w.port = s.portMap p l ∧ x.w.win = xferB b 56 20 ∧
        x.w.len = 32 * (xferB b 45 11 + 1) ∧ x.due = (s.sq p).start + xferB b 56 20 := by
  have hmap : (s.fput (Reg.SEQ_CSET p (bCset b)) Fld.SEQ_CSET_OUT (s.cset p (bCset b) + 1)).portMap p l = s.portMap p l :=
    State.portMap_of_rd (fun i => State.rd_fput_ne _ _ _ (by
      have : bCset b < 2 ^ 5 := Nat.mod_lt _ (by decide)
      unfold Reg.COL_PORTMAP Reg.SEQ_CSET; omega)) l
  have h16 : ¬ s.portMap p l = 16 := by omega
  have h17 : ¬ s.portMap p l = 17 := by omega
  have hdup (n : Nat) : [n].eraseDups = [n] := rfl
  unfold State.lltx
  simp only [hl, hu, List.map_cons, List.map_nil, ht, decide_true, List.filter_cons_of_pos, List.filter_nil, hdup, ne_eq,
    not_true_eq_false, if_false, List.length_cons, List.length_nil, Nat.zero_add,
    State.csetAdd_of_le (show s.cset p (bCset b) + 1 ≤ 65535 from hc), List.foldl_cons, List.foldl_nil, hmap, h16, h17,
    State.win_fput, State.sq_fput]
  refine ⟨_, _, rfl, ?_, rfl, rfl, rfl, rfl⟩
  rw [State.cset_serial, State.cset_fput hc]

theorem lltx_gives {l u : Nat} (h : s.xferReady p 4 = true) (hl : ((List.range 16).filter fun l => bitOf (xferB (s.sq p).bundle 9 16) l) = [l])
    (ht : s.portMap p l < 16)
    (hu : s.rbAddr p (xferB (s.sq p).bundle 25 9) (xferB (s.sq p).bundle 34 11) (xferB (s.sq p).bundle 45 11 + 1) = some u)
    (hc : s.cset p (bCset (s.sq p).bundle) < 65535) : Gives (.lltx p) s fun t =>
      let b := (s.sq p).bundle
      s.cset p (bCset b) + 1 = t.cset p (bCset b) ∧
        ∃ x : TxWin, (t.win p).tx = (s.win p).tx ++ [x] ∧ x.w.port = s.portMap p l ∧ x.w.win = xferB b 56 20 ∧
          x.w.len = 32 * (xferB b 45 11 + 1) ∧ x.due = (s.sq p).start + xferB b 56 20 := by
  obtain ⟨x, t, ht, hcset, hport, hwin, hlen, hdue⟩ := State.lltx_of_port (s := s.xferTaken p) hl ht hu hc
  refine ⟨_, rfl, ?_⟩
  rw [State.xferOp_of_ready _ h, ht]
  refine ⟨?_, x, by rw [State.win_setWin]; rfl, hport, hwin, hlen, ?_⟩
  · exact (State.cset_of_regs (t := s.xferTaken p) rfl ▸ hcset).symm
  · rw [hdue, State.sq_xferTaken]

/-- R153, R375: the window that an LLRX on a physical port receives. -/
theorem State.llrx_of_port {b : Bundle} {u : Nat} (ht : s.portMap p (xferB b 9 4) < 16)
    (hu : s.rbAddr p (xferB b 13 9) (xferB b 22 11) (xferB b 33 11 + 1) = some u) (hc : s.cset p (bCset b) < 65535) :
    ∃ x : RxWin, ((s.llrx p b).win p).rx = (s.win p).rx ++ [x] ∧ x.w.port = s.portMap p (xferB b 9 4) ∧
      x.w.win = xferB b 44 20 ∧ x.w.len = 32 * (xferB b 33 11 + 1) ∧ x.got = [] := by
  have h16 : ¬ s.portMap p (xferB b 9 4) = 16 := by omega
  have h17 : ¬ s.portMap p (xferB b 9 4) = 17 := by omega
  unfold State.llrx
  simp only [hu, State.csetAdd_of_le (show s.cset p (bCset b) + 1 ≤ 65535 from hc), h16, h17, if_false, State.win_fput]
  split
  · rw [State.win_armed, State.win_setWin]
    exact ⟨_, rfl, rfl, rfl, rfl, rfl⟩
  · rw [State.win_setWin]
    exact ⟨_, rfl, rfl, rfl, rfl, rfl⟩

theorem llrx_gives {u : Nat} (h : s.xferReady p 5 = true) (ht : s.portMap p (xferB (s.sq p).bundle 9 4) < 16)
    (hu : s.rbAddr p (xferB (s.sq p).bundle 13 9) (xferB (s.sq p).bundle 22 11) (xferB (s.sq p).bundle 33 11 + 1) = some u)
    (hc : s.cset p (bCset (s.sq p).bundle) < 65535) : Gives (.llrx p) s fun t =>
      let b := (s.sq p).bundle
      ∃ x : RxWin, (t.win p).rx = (s.win p).rx ++ [x] ∧ x.w.port = s.portMap p (xferB b 9 4) ∧
        x.w.win = xferB b 44 20 ∧ x.w.len = 32 * (xferB b 33 11 + 1) ∧ x.got = [] := by
  refine ⟨_, rfl, ?_⟩
  rw [State.xferOp_of_ready _ h]
  exact State.llrx_of_port (s := s.xferTaken p) ht hu hc

/-- R375: the window that meets its ARM in good time. -/
theorem windowSendStart_gives {port : Nat} (bad : SramErrs) {x : TxWin} {a : Arm} (hport : port < 16) (htx : (s.win p).tx = [x])
    (hx : x.w.port = port) (harms : (s.win p).arms = [a]) (hap : a.port = port) (haw : a.win = x.w.win) (hal : a.len = x.w.len)
    (hdue : x.due ≤ (s.sq p).beat) : Gives (.windowSendStart p port bad) s fun t =>
      (t.win p).tx = [] ∧ (t.win p).arms = [] ∧ (t.win p).sending = (s.win p).sending ++ [x] := by
  have harm : (s.win p).armOf x = some a := by simp [Wins.armOf, harms, hap, hx, haw]
  have h16 : port ≠ 16 := by omega
  have hgo : s.windowStart p port bad = s.portStart p port x a := by
    unfold State.windowStart
    simp [htx, hx, harm, h16, hdue]
  refine ⟨_, rfl, ?_⟩
  rw [hgo]
  unfold State.portStart
  simp [htx, harms, hal]

/-- R378: the oldest held arm proceeds. -/
theorem windowArmRelease_gives {port : Nat} {x : RxWin}
    (hx : ((s.win p).rx.find? fun (x : RxWin) => !x.armed && x.w.port == port) = some x) (hn : s.armedOn p port < 16) :
    Gives (.windowArmRelease p port) s fun t =>
      (t.win p).rx = (s.win p).rx.map fun (y : RxWin) => if y.w.id = x.w.id then { y with armed := true } else y := by
  refine ⟨_, rfl, ?_⟩
  unfold State.armRelease
  simp only [hx, Nat.not_le.mpr hn, if_false]
  rw [State.win_armed, State.win_setWin]

end

/-! ## The statement settled -/

/-- Settles O36: each window row by the list that it leaves, a landing by `State.meshLanding_of_alone`. -/
theorem windowRowsComplete : Obligations.WindowRowsComplete :=
  ⟨fun _ _ _ _ h hl ht hu hc => lltx_gives h hl ht hu hc, fun _ _ _ h ht hu hc => llrx_gives h ht hu hc,
    fun _ _ _ bad _ hf hl hc hk ha => meshLanding_gives bad hf hl hc hk ha,
    fun _ _ _ bad _ _ hport htx hx harms hap haw hal hdue => windowSendStart_gives bad hport htx hx harms hap haw hal hdue,
    fun _ _ _ _ hx hn => windowArmRelease_gives hx hn⟩

end Sys2Proof.Machine

/-! Three statements that fail, each at one state: what the statement leaves open there, and what the model makes of it. -/

namespace Sys2Proof.Machine

/-- Bit fields of a word, by offset and value. -/
def fieldsAt (l : List (Nat × Nat)) : Nat := l.foldl (fun a x => a + x.2 * 2 ^ x.1) 0

/-! ## A load whose body has gathered bytes already -/

/-- A body of one VLD of one beat, which holds two bytes in its first beat. -/
def gatheredRun : Run where
  part := 1
  core := 0
  addr := 0
  lenm1 := 0
  tripm1 := 0
  rank := 0
  pc := 0
  trip := 0
  upos := 0
  mb := 0
  beat := 0
  buf := [0xFF#8, 0x3B#8]

/-- Partition 1 runs, and the vector engine of its core 0 is at that load: one beat, F16, into register 0 from unit 0 of an SRAM
that holds zeros. -/
def gatheredState : State :=
  let s := (State.reset.fput (Reg.SEQ_STATUS 1) Fld.SEQ_STATUS_STATE seqRunning).setSq 1 { start := 1 }
  { s with cores := { s.cores with
    runs := [(runKey 0 8, some gatheredRun)]
    replay := [((0 * 16 + 8) * 2048, BitVec.ofNat 64 (fieldsAt [(0, 1), (39, 1)]))] } }

/-- The first lane of the first result on its way. -/
def firstLane (l : List Land) : Option Word :=
  match l.head? with
  | some ⟨_, .vreg _ w⟩ => w.head?
  | _ => none


theorem gatheredState_unitDue : gatheredState.unitDue 1 0 8 gatheredRun = true := by decide +kernel

theorem firstLane_vld_gatheredState :
    firstLane ((gatheredState.unitBeat 1 0 8 noErr (opcIs 1) vldWork).sq 1).lands = some 0x3F7FE000#32 := by decide +kernel

/-- Refutes O40: the VLD clause asks for no empty buffer in the first beat, and a load puts the bytes that it reads after those that the
body holds (`gatheredState`). -/
theorem not_vectorMemoryRowsComplete : ¬ Obligations.VectorMemoryRowsComplete := by
  intro h
  obtain ⟨-, hvld, -⟩ := h gatheredState 1 0 gatheredRun gatheredState_unitDue
  obtain ⟨t, ht, buf, -, hlands⟩ := hvld .f16 (by decide +kernel) (by decide +kernel) rfl (by decide) (by decide +kernel) rfl
    (by decide +kernel)
  obtain rfl : gatheredState.unitBeat 1 0 8 noErr (opcIs 1) vldWork = t := Host.Outcome.next.inj ht
  have hlane := firstLane_vld_gatheredState
  rw [hlands] at hlane
  exact absurd hlane (by decide +kernel)

/-! ## A burst whose read meets an error where a core map that is not one of the chip's puts its counter -/

/-- A physical core so high that its error counter would lie at the producer index of ring 2 of partition 1. -/
def strayCore : Nat := (Reg.SEQ_RING_PROD 1 2 - Reg.DBG_UE_COUNT 0) / 4

/-- An RPUT burst of one record from byte 64 of core 0 to its ring 2. -/
def strayBurst : Burst where
  id := 0
  put := true
  cset := 3
  core := 0
  ring := 2
  addr := 64
  nrec := 1
  pc := 0

/-- Core 0 is mapped to the stray core, whose word at byte 64 is uncorrectable; ring 2 is an empty QUEUE_IN of eight records. An error of
core 0 stands in `DBG_SRAM_LAST`, so that the place of this one, which is not stated, is not shown. -/
def strayState : State :=
  let s := (State.reset.wr (Reg.SEQ_RING_CFG 1 2) (BitVec.ofNat 32 (fieldsAt [(0, 3), (4, 3)]))).setSq 1 { bursts := [strayBurst] }
  { s with coreMap := [(0, strayCore)], cores := { s.cores with ueWords := [(strayCore * 1048576 + 8, true)], lastErr := some (1, 0, 0) } }

theorem rn_rputMove_strayState : (strayState.rputMove 1 0 2 [] {}).rn (Reg.SEQ_RING_PROD 1 2) = 2 := by decide +kernel

/-- Refutes O41: the RPUT_BURST_MOVE clause bounds no entry of the core map, and where the core's error counter is the ring's producer
index (`strayState`), the error that the burst's read counts moves the index too. -/
theorem not_streamEngineRowsComplete : ¬ Obligations.StreamEngineRowsComplete := by
  intro h
  obtain ⟨-, hput⟩ := h.2 strayState 1 0 2 [] {} strayBurst (by decide) (by decide +kernel)
  obtain ⟨t, ht, -, hprod⟩ := hput (by decide +kernel) (by decide +kernel) (by decide +kernel) (by decide +kernel) (by decide) (by decide)
    (by decide +kernel) (by decide)
  obtain rfl : strayState.rputMove 1 0 2 [] {} = t := Host.Outcome.next.inj ht
  have hone : (strayState.rputMove 1 0 2 [] {}).rn (Reg.SEQ_RING_PROD 1 2) = 1 := hprod.trans (by decide +kernel)
  rw [rn_rputMove_strayState] at hone
  exact absurd hone (by decide)

/-! ## A wipe of units that lie beyond their stack -/

/-- A WIPE of the first sector of stack 7's local memory, with a status record for core 0. -/
def beyondRecord : NmeRec where
  part := 1
  xfer := 0
  bytes := leBytes 8 (5 + 256) ++ leBytes 8 0 ++ leBytes 8 (2 ^ 48 + 8 * 63 * gib + 7 * gib) ++ leBytes 8 0 ++ leBytes 8 256 ++ leBytes 24 0
  started := true

/-- Partition 1 holds every quadrant, with 1 GiB of each stack local, and the second of its update banks is current. The banks are so large
that this bank of stack 7's local memory lies on a stack 15, which the chip has not, and its first sector is poisoned. -/
def beyondState : State :=
  let w (l : List (Nat × Nat)) : Word := BitVec.ofNat 32 (fieldsAt l)
  let s : State := [(Reg.PRT_MAP 1, w [(2, 4)]), (Reg.PRT_STATE 1, Fld.PRT_STATE_STATE.put 0 4), (Reg.TKEY_RGN_1 1 0, 0x7FFFFFF),
      (Reg.TKEY_RGN_2 1 0, w [(0, 1), (2, 1), (8, 63)]), (Reg.MEM_PSPLIT 1, 1), (Reg.UPD_BANK_SIZE 1, 8192),
      (Reg.UPD_EPOCH 1, 1)].foldl (fun (s : State) x => s.wr x.1 x.2) State.reset
  { s with
    keys := [(0xAE, { state := 1 }), (0xAF, { state := 1 })]
    poison := [(poisonKey 15 (63 * 4 * 1024 * 1024), true)]
    stks := [(7, { queue := [beyondRecord] })] }

/-- A byte of core SRAM. -/
def sramByte (s : State) (k : Nat) : Byte := SMap.get (fun _ => 0#8) s.cores.sram k

/-- The status byte is not where the record's core 0 has it: the write of the poisoned sector reaches the registers by
`MEM_POISON_COUNT`, and the core is sought after that. -/
theorem sramByte_wipe_beyondState : sramByte (beyondState.nmeRun 7 5 false [] wipeWork) 225 = 0#8 := by decide +kernel

theorem beyondState_recordDue : beyondState.recordDue 7 5 beyondRecord = true := by decide +kernel

/-- Refutes O59: the WIPE clause places the status record by the core map as it stood before the work, and the work may move it, where a bank
window reaches past the chip's stacks (`beyondState`). -/
theorem not_nearMemoryRowsComplete : ¬ Obligations.NearMemoryRowsComplete := by
  intro h
  obtain ⟨-, -, -, -, -, hwipe, -⟩ := h.2.1 beyondState 7 []
  obtain ⟨t, ht, -, -, hsram⟩ := hwipe beyondRecord beyondState_recordDue
  obtain rfl : beyondState.nmeRun 7 5 false [] wipeWork = t := Host.Outcome.next.inj ht
  have hbyte := sramByte_wipe_beyondState
  rw [sramByte, hsram] at hbyte
  exact absurd hbyte (by decide +kernel)

end Sys2Proof.Machine

/-! Reads and writes of device memory under a partition's key: the registers of a stream that they leave alone, and the streams that they
do not look at. -/

namespace Sys2Proof.Machine

section
variable {s : State} {a : Nat}

/-! ## Registers of the streams -/

/-- A register of a partition's stream, checkpoint, event counters, or update unit. -/
def streamReg (a : Nat) : Prop := ∃ q, 1 ≤ q ∧ q ≤ 4 ∧ vf q + 0x200000 ≤ a ∧ a < vf q + 0x800000

theorem streamReg.lo (h : streamReg a) : 0x10000000 ≤ a := by
  obtain ⟨q, h1, -, h3, -⟩ := h
  unfold vf at h3
  omega

/-- The key and protection blocks of the partitions lie elsewhere. -/
theorem streamReg.ne_tkey (h : streamReg a) (p : Nat) {k : Nat} (hk : 0x800000 ≤ k) (hk' : k < 0x10000000) : a ≠ vf p + k := by
  obtain ⟨q, h1, h2, h3, h4⟩ := h
  unfold vf at h3 h4 ⊢
  omega

/-- The registers of a stack lie in the physical function. -/
theorem streamReg.ne_stk (h : streamReg a) {k n : Nat} (hk : k < 0x720000) (hn : n < 3000) : a ≠ k + 65536 * n := by
  have := h.lo
  omega

theorem State.rd_irqMem (h : streamReg a) (bits : Nat) : (s.irqMem bits).rd a = s.rd a :=
  State.rd_irq_ne _ _ _ _ _ _ (by have := h.lo; unfold Reg.MEM_INT_STATUS; omega)
theorem State.rd_irqProt (h : streamReg a) (p : Nat) (f : Fld) : (s.irqProt p f).rd a = s.rd a :=
  State.rd_irq_ne _ _ _ _ _ _ (h.ne_tkey p (by decide) (by decide))
theorem State.rd_bump_ne {b : Nat} (f : Fld) (d : Nat) (h : a ≠ b) : (s.bump b f d).rd a = s.rd a := State.rd_fput_ne _ _ _ h

theorem State.rd_setBits_ne {b : Nat} (bits : Nat) (h : a ≠ b) : (s.setBits b bits).rd a = s.rd a := State.rd_wr_ne _ _ h

theorem State.rd_emit_if (c : Prop) [Decidable c] (o : Output) : (if c then s.emit o else s).rd a = s.rd a := by split <;> rfl

theorem streamReg.ne_mailBox (h : streamReg a) : a ≠ mailBase 0 + 0x10 := by
  obtain ⟨q, h1, h2, h3, h4⟩ := h
  rw [mailBase, if_pos rfl]
  unfold vf at h4 ⊢
  omega

theorem State.rd_keyAlert (h : streamReg a) (p bits : Nat) : (s.keyAlert p bits).rd a = s.rd a := by
  have hlo := h.lo
  unfold State.keyAlert
  by_cases hp : p = 0
  · simp only [if_pos hp]
    rw [State.rd_emit_if, State.rd_setBits_ne _ (by unfold Reg.KEY_ALERT; omega), State.rd_setBits_ne _ h.ne_mailBox]
  · simp only [if_neg hp]
    rw [State.rd_emit_if, State.rd_setBits_ne _ (show a ≠ Reg.TKEY_ALERT p from h.ne_tkey p (by decide) (by decide))]

theorem State.rd_foldl {α : Type} {g : State → α → State} (hg : ∀ t x, (g t x).rd a = t.rd a) (l : List α) :
    (l.foldl g s).rd a = s.rd a := by
  induction l generalizing s with
  | nil => rfl
  | cons x l ih => rw [List.foldl_cons, ih, hg]

theorem State.rd_useKey (h : streamReg a) (n : Nat) : (s.useKey n).1.rd a = s.rd a := by
  have hfold (x : State) (k : KeySlot) (bits : Nat) : ((List.range 5).foldl (fun (s : State) p =>
      if (p = 0 ∧ k.owner = 0) ∨ (p ≠ 0 ∧ bitOf k.owner (p - 1)) then s.keyAlert p bits else s) x).rd a = x.rd a :=
    State.rd_foldl (fun t p => by split; exacts [State.rd_keyAlert h p bits, rfl]) _
  unfold State.useKey
  dsimp only
  split
  · rw [hfold]
    split
    · rw [hfold]; rfl
    · rfl
  · split
    · rw [hfold]; rfl
    · rfl

theorem State.rd_errLast (h : streamReg a) {n : Nat} (hn : n < 3000) (sec kind part : Nat) (persist : Bool) :
    (s.errLast n sec kind part persist).rd a = s.rd a := by
  unfold State.errLast
  dsimp only
  split
  · rfl
  · rw [State.rd_wr_ne _ _ (show a ≠ Reg.MEM_ERR_LAST_HI n from h.ne_stk (by decide) hn),
      State.rd_wr_ne _ _ (show a ≠ Reg.MEM_ERR_LAST_LO n from h.ne_stk (by decide) hn)]
    rfl

theorem State.rd_rowError (n sec : Nat) : (s.rowError n sec).rd a = s.rd a := by
  unfold State.rowError
  dsimp only
  split <;> rfl

theorem State.rd_readOnce (h : streamReg a) {n : Nat} (hn : n < 3000) (errs : List ReadErr) (p sec i : Nat) :
    (s.readOnce errs p n sec i).1.rd a = s.rd a := by
  unfold State.readOnce
  dsimp only
  split
  · rfl
  · rw [show ∀ (c : Prop) [Decidable c] (x y : State), (if c then x else y).rd a = if c then x.rd a else y.rd a from
        fun c _ x y => apply_ite (State.rd · a) c x y, State.rd_irqMem h, State.rd_errLast h hn,
      State.rd_bump_ne _ _ (show a ≠ Reg.MEM_UE_COUNT n from h.ne_stk (by decide) hn), ite_self]
    split
    · rfl
    · rw [State.rd_rowError, State.rd_errLast h hn, State.rd_bump_ne _ _ (show a ≠ Reg.MEM_CE_COUNT n from h.ne_stk (by decide) hn)]

theorem State.rd_noteFail (h : streamReg a) {n : Nat} (hn : n < 3000) (p sec : Nat) (nme : Bool) (r : RawRead) (persist : Bool) :
    (s.noteFail p n sec nme r persist).rd a = s.rd a := by
  unfold State.noteFail
  split
  · split
    · exact State.rd_errLast h hn ..
    · rfl
  · rw [State.rd_errLast h hn, State.rd_bump_ne _ _ (show a ≠ Reg.MEM_MAC_FAIL n from h.ne_stk (by decide) hn)]

theorem State.rd_taintStep (p : Nat) : (s.taintStep p).rd a = s.rd a := rfl

theorem State.rd_noted (c : Prop) [Decidable c] {b : Nat} (w : Word) (p : Nat) (u : Upd) (h : a ≠ b) :
    (if c then (s.wr b w).setUp p u else s).rd a = s.rd a := by
  split
  · exact State.rd_wr_ne _ _ h
  · rfl

theorem State.rd_alarm (h : streamReg a) {p : Nat} (hp : p ∈ allParts) (cause n : Nat) : (s.alarm p cause n).rd a = s.rd a := by
  obtain ⟨hp1, hp4⟩ := pos_and_le_four_of_mem_allParts hp
  have hlo := h.lo
  unfold State.alarm
  dsimp only
  rw [if_neg (by omega), State.rd_irqProt h, State.rd_irqMem h,
    State.rd_noted _ _ _ _ (show a ≠ Reg.TKEY_ALARM p from h.ne_tkey p (by decide) (by decide)),
    State.rd_noted _ _ _ _ (by unfold Reg.MEM_ALARM_CAUSE; omega), State.rd_taintStep]

theorem State.rd_askHalt (src : Nat) : (s.askHalt src).rd a = s.rd a := rfl
theorem State.rd_poison (m : SMap Bool) : ({ s with poison := m } : State).rd a = s.rd a := rfl

theorem State.rd_poisonSector (h : streamReg a) {n : Nat} (hn : n < 3000) (sec : Nat) : (s.poisonSector n sec).rd a = s.rd a := by
  unfold State.poisonSector
  dsimp only
  split
  · rfl
  · split
    · rw [State.rd_irqMem h, State.rd_askHalt, State.rd_fput_ne _ _ _ (show a ≠ Reg.MEM_STK_STAT n from h.ne_stk (by decide) hn)]
    · rw [State.rd_irqMem h, State.rd_fput_ne _ _ _ (show a ≠ Reg.MEM_POISON_COUNT n from h.ne_stk (by decide) hn), State.rd_poison]

theorem State.rd_readSector (h : streamReg a) {p n : Nat} (hp : p ∈ allParts) (hn : n < 3000) (errs : List ReadErr) (spec nme : Bool)
    (kid lsn sec : Nat) : (s.readSector errs p spec nme kid lsn n sec).1.rd a = s.rd a := by
  have hre (t : State) : (t.bump (Reg.MEM_REREAD n) Fld.MEM_REREAD_COUNT 1).rd a = t.rd a :=
    State.rd_bump_ne _ _ (h.ne_stk (by decide) hn)
  unfold State.readSector
  split
  · rw [State.rd_alarm h hp, State.rd_errLast h hn]
  · dsimp only
    split_ifs <;>
      simp only [State.rd_poisonSector h hn, State.rd_alarm h hp, State.rd_noteFail h hn, State.rd_readOnce h hn, hre, State.rd_useKey h]

theorem State.rd_unpoison (h : streamReg a) {n : Nat} (hn : n < 3000) (sec : Nat) : (s.unpoison n sec).rd a = s.rd a := by
  unfold State.unpoison
  split
  · exact State.rd_fput_ne _ _ _ (show a ≠ Reg.MEM_POISON_COUNT n from h.ne_stk (by decide) hn)
  · rfl

theorem State.rd_writeSector (h : streamReg a) {n : Nat} (hn : n < 3000) (kid lsn sec : Nat) (v : List Byte) :
    (s.writeSector kid lsn n sec v).rd a = s.rd a := by
  unfold State.writeSector State.putRaw
  dsimp only
  rw [State.rd_unpoison h hn]
  exact State.rd_useKey h _

theorem State.bankOff_lt (p o : Nat) : s.bankOff p o < o + 128 * gib := by
  have hz := Fld.get_lt Fld.UPD_BANK_SIZE_MIB (s.rd (Reg.UPD_BANK_SIZE p))
  have hw : (2 : Nat) ^ Fld.UPD_BANK_SIZE_MIB.width = 131072 := rfl
  rw [hw] at hz
  unfold State.bankOff State.fget gib
  dsimp only
  split_ifs <;> omega

theorem State.stack0_lt (p : Nat) : s.stack0 p < 8 := by
  have h := Fld.get_lt Fld.PRT_MAP_QUAD0 (s.rd (Reg.PRT_MAP p))
  have hw : (2 : Nat) ^ Fld.PRT_MAP_QUAD0.width = 4 := rfl
  unfold State.stack0 State.quad0 State.fget
  omega

theorem State.nstacks_lt (p : Nat) : s.nstacks p < 16 := by
  have h := Fld.get_lt Fld.PRT_MAP_NQUAD (s.rd (Reg.PRT_MAP p))
  have hw : (2 : Nat) ^ Fld.PRT_MAP_NQUAD.width = 8 := rfl
  unfold State.nstacks State.nquad State.fget
  omega

theorem State.offset_lt {p b o : Nat} (ho : s.offset p b = some o) : o < gib * (64 * s.nstacks p) := by
  unfold State.offset at ho
  split at ho
  · split_ifs at ho with hc
    cases ho
    exact hc.2
  · cases ho

/-- The stack that holds an offset of a partition, in either half of the bank window, is one of few. -/
theorem State.place_bankOff_lt {p b o : Nat} (ho : s.offset p b = some o) : (s.place p (s.bankOff p o)).1 < 3000 := by
  have hk := s.nstacks_lt p
  have h0 := s.stack0_lt p
  have hb := s.bankOff_lt p o
  have hlt := State.offset_lt ho
  unfold State.place
  dsimp only
  split
  · have hpos : 0 < s.nstacks p := by by_contra hn; simp [Nat.eq_zero_of_not_pos hn] at hlt
    have := Nat.mod_lt (s.bankOff p o / 4096) hpos
    dsimp only
    omega
  · have hsmall : s.bankOff p o < gib * 1152 := by unfold gib at *; omega
    have hdiv (l : Nat) : (s.bankOff p o - s.inter p) / (gib * l) < 1152 := by
      rcases Nat.eq_zero_or_pos l with rfl | hl
      · simp
      · rw [← Nat.div_div_eq_div_mul]
        refine lt_of_le_of_lt (Nat.div_le_self _ _) (Nat.div_lt_of_lt_mul ?_)
        omega
    have := hdiv (s.localGib p)
    dsimp only
    omega

theorem State.rd_readPiece (h : streamReg a) {p : Nat} (hp : p ∈ allParts) (errs : List ReadErr) (spec nme : Bool) (b len : Nat) :
    (s.readPiece errs p spec nme b len).1.rd a = s.rd a := by
  unfold State.readPiece
  split
  · rfl
  · exact State.rd_readSector h hp (State.place_bankOff_lt ‹_›) ..

theorem State.rd_readRun (h : streamReg a) {p : Nat} (hp : p ∈ allParts) (errs : List ReadErr) (spec nme : Bool) (b len : Nat) :
    (s.readRun errs p spec nme b len).1.rd a = s.rd a := by
  have hfold (l : List (Nat × Nat)) (x : State × SectorRead) : (l.foldl (fun (x : State × SectorRead) pc =>
      let y := x.1.readPiece errs p spec nme pc.1 pc.2
      (y.1, ⟨x.2.bytes ++ y.2.bytes, x.2.ok && y.2.ok⟩)) x).1.rd a = x.1.rd a := by
    induction l generalizing x with
    | nil => rfl
    | cons c l ih => rw [List.foldl_cons, ih]; exact State.rd_readPiece h hp ..
  exact hfold _ (s, ⟨[], true⟩)

theorem State.rd_writePiece (h : streamReg a) {p : Nat} (hp : p ∈ allParts) (errs : List ReadErr) (nme : Bool) (b : Nat) (v : List Byte) :
    (s.writePiece errs p nme b v).1.rd a = s.rd a := by
  unfold State.writePiece
  split
  · rfl
  · have hn := State.place_bankOff_lt ‹_›
    dsimp only
    split_ifs
    · exact State.rd_writeSector h hn ..
    · rw [State.rd_writeSector h hn, State.rd_readSector h hp hn]
    · exact State.rd_readSector h hp hn ..

theorem State.rd_writeRun (h : streamReg a) {p : Nat} (hp : p ∈ allParts) (errs : List ReadErr) (nme stop : Bool) (b : Nat)
    (v : List Byte) :
    (s.writeRun errs p nme stop b v).1.rd a = s.rd a := by
  have hfold (l : List (Nat × Nat)) (x : State × Bool × Nat) : (l.foldl (fun (x : State × Bool × Nat) pc =>
      let chunk := (v.drop x.2.2).take pc.2
      if stop && !x.2.1 then x
      else
        let (s, ok) := x.1.writePiece errs p nme pc.1 chunk
        (s, x.2.1 && ok, x.2.2 + pc.2)) x).1.rd a = x.1.rd a := by
    induction l generalizing x with
    | nil => rfl
    | cons c l ih =>
      rw [List.foldl_cons, ih]
      dsimp only
      split
      · rfl
      · exact State.rd_writePiece h hp ..
  exact hfold _ (s, true, 0)

end

/-! ## Reads and the streams -/

section
variable {s : State} {j : Nat} {q : Seq}

@[simp] theorem State.fget_setSq (a : Nat) (f : Fld) : (s.setSq j q).fget a f = s.fget a f := (rfl)
@[simp] theorem State.flag_setSq (a : Nat) (f : Fld) : (s.setSq j q).flag a f = s.flag a f := (rfl)
theorem State.wr_setSq (a : Nat) (w : Word) : (s.setSq j q).wr a w = (s.wr a w).setSq j q := (rfl)
theorem State.fput_setSq (a : Nat) (f : Fld) (v : Nat) : (s.setSq j q).fput a f v = (s.fput a f v).setSq j q := (rfl)
theorem State.bump_setSq (a : Nat) (f : Fld) (v : Nat) : (s.setSq j q).bump a f v = (s.bump a f v).setSq j q := (rfl)
theorem State.ite_setSq {c c' : Prop} [Decidable c] [Decidable c'] {x x' y y' : State} (hc : c' ↔ c) (hx : x' = x.setSq j q)
    (hy : y' = y.setSq j q) : (if c' then x' else y') = (if c then x else y).setSq j q := by
  rw [hx, hy]
  split_ifs <;> tauto

theorem State.irq_setSq (fn vec sta en bits : Nat) : (s.setSq j q).irq fn vec sta en bits = (s.irq fn vec sta en bits).setSq j q :=
  State.ite_setSq Iff.rfl rfl rfl

theorem State.setBits_setSq (a bits : Nat) : (s.setSq j q).setBits a bits = (s.setBits a bits).setSq j q := (rfl)
theorem State.emit_if_setSq {c : Prop} [Decidable c] (o : Output) :
    (if c then (s.setSq j q).emit o else s.setSq j q) = (if c then s.emit o else s).setSq j q := State.ite_setSq Iff.rfl rfl rfl

theorem State.keyAlert_setSq (s : State) (p bits : Nat) : (s.setSq j q).keyAlert p bits = (s.keyAlert p bits).setSq j q := by
  unfold State.keyAlert
  by_cases hp : p = 0
  · simp only [if_pos hp]
    rw [State.setBits_setSq, State.setBits_setSq, State.flag_setSq, State.emit_if_setSq]
  · simp only [if_neg hp]
    rw [State.setBits_setSq, State.flag_setSq, State.emit_if_setSq]

theorem State.foldl_setSq {α : Type} {g : State → α → State} (hg : ∀ t x, g (t.setSq j q) x = (g t x).setSq j q) (l : List α) :
    l.foldl g (s.setSq j q) = (l.foldl g s).setSq j q := by
  induction l generalizing s with
  | nil => rfl
  | cons x l ih => rw [List.foldl_cons, hg, ih, List.foldl_cons]

theorem State.useKey_setSq (n : Nat) : (s.setSq j q).useKey n = ((s.useKey n).1.setSq j q, (s.useKey n).2) := by
  have hfold (x : State) (k : KeySlot) (bits : Nat) : ((List.range 5).foldl (fun (s : State) p =>
      if (p = 0 ∧ k.owner = 0) ∨ (p ≠ 0 ∧ bitOf k.owner (p - 1)) then s.keyAlert p bits else s) (x.setSq j q)) =
      ((List.range 5).foldl (fun (s : State) p =>
      if (p = 0 ∧ k.owner = 0) ∨ (p ≠ 0 ∧ bitOf k.owner (p - 1)) then s.keyAlert p bits else s) x).setSq j q := by
    apply State.foldl_setSq
    intro t p
    exact State.ite_setSq Iff.rfl (t.keyAlert_setSq p bits) rfl
  have hk : (s.setSq j q).key n = s.key n := rfl
  have hs (k : KeySlot) : (s.setSq j q).setKey n k = (s.setKey n k).setSq j q := rfl
  unfold State.useKey
  dsimp only
  rw [hk, hs]
  split_ifs <;> simp only [hfold]

theorem State.setStk_setSq (k : Nat) (x : Stack) : (s.setSq j q).setStk k x = (s.setStk k x).setSq j q := (rfl)
theorem State.stk_setSq (k : Nat) : (s.setSq j q).stk k = s.stk k := (rfl)

theorem State.errLast_setSq (n sec kind part : Nat) (persist : Bool) :
    (s.setSq j q).errLast n sec kind part persist = (s.errLast n sec kind part persist).setSq j q := by
  have hnow : (s.setSq j q).now = s.now := rfl
  unfold State.errLast
  dsimp only
  rw [State.stk_setSq, State.fget_setSq, hnow]
  refine State.ite_setSq Iff.rfl rfl ?_
  rw [State.setStk_setSq, State.wr_setSq, State.wr_setSq]

theorem State.rowError_setSq (n sec : Nat) : (s.setSq j q).rowError n sec = (s.rowError n sec).setSq j q :=
  State.ite_setSq Iff.rfl rfl rfl

theorem State.readOnce_setSq (errs : List ReadErr) (p n sec i : Nat) :
    (s.setSq j q).readOnce errs p n sec i = ((s.readOnce errs p n sec i).1.setSq j q, (s.readOnce errs p n sec i).2) := by
  have hr : (s.setSq j q).rawSector n sec = s.rawSector n sec := rfl
  unfold State.readOnce
  rw [hr]
  split
  · rfl
  · refine Prod.ext ?_ rfl
    dsimp only
    have hce (c : Prop) [Decidable c] (d : Nat) : (if c then s.setSq j q else
        (((s.setSq j q).bump (Reg.MEM_CE_COUNT n) Fld.MEM_CE_COUNT_COUNT d).errLast n sec 0 p false).rowError n sec) = _ :=
      State.ite_setSq Iff.rfl rfl (by rw [State.bump_setSq, State.errLast_setSq, State.rowError_setSq])
    rw [hce]
    refine State.ite_setSq Iff.rfl rfl ?_
    rw [State.bump_setSq, State.errLast_setSq]
    exact State.irq_setSq ..

theorem State.noteFail_setSq (p n sec : Nat) (nme : Bool) (r : RawRead) (persist : Bool) :
    (s.setSq j q).noteFail p n sec nme r persist = (s.noteFail p n sec nme r persist).setSq j q := by
  unfold State.noteFail
  rw [State.bump_setSq, State.errLast_setSq, State.errLast_setSq]
  exact State.ite_setSq Iff.rfl (State.ite_setSq Iff.rfl rfl rfl) rfl

theorem State.taintStep_setSq (p : Nat) : (s.setSq j q).taintStep p = (s.taintStep p).setSq j q := rfl

theorem State.alarm_setSq (p cause n : Nat) : (s.setSq j q).alarm p cause n = (s.alarm p cause n).setSq j q := by
  unfold State.alarm
  refine State.ite_setSq Iff.rfl rfl ?_
  dsimp only
  have hnote (x : State) (b : Nat) (w : Word) (u : Upd) (c : Prop) [Decidable c] :
      (if c then ((x.setSq j q).wr b w).setUp p u else x.setSq j q) = (if c then (x.wr b w).setUp p u else x).setSq j q :=
    State.ite_setSq Iff.rfl rfl rfl
  have hup (x : State) : (x.setSq j q).up p = x.up p := rfl
  have hst : (s.setSq j q).stack0 p = s.stack0 p := rfl
  have hnow : (s.setSq j q).now = s.now := rfl
  simp only [State.taintStep_setSq, State.fget_setSq, hup, hst, hnow, hnote]
  rw [State.irqMem, State.irq_setSq, State.irqProt, State.irq_setSq]
  rfl

theorem State.askHalt_setSq (src : Nat) : (s.setSq j q).askHalt src = (s.askHalt src).setSq j q := (rfl)
theorem State.irqMem_setSq (bits : Nat) : (s.setSq j q).irqMem bits = (s.irqMem bits).setSq j q := State.irq_setSq ..
theorem State.poison_setSq (m : SMap Bool) :
    ({ s.setSq j q with poison := m } : State) = ({ s with poison := m } : State).setSq j q := (rfl)

theorem State.poisonSector_setSq (n sec : Nat) : (s.setSq j q).poisonSector n sec = (s.poisonSector n sec).setSq j q := by
  have hpo : (s.setSq j q).poison = s.poison := rfl
  unfold State.poisonSector
  dsimp only
  rw [hpo, State.fget_setSq, State.fput_setSq, State.askHalt_setSq, State.irqMem_setSq, State.poison_setSq, State.fput_setSq,
    State.irqMem_setSq]
  exact State.ite_setSq Iff.rfl rfl (State.ite_setSq Iff.rfl rfl rfl)

theorem State.readSector_setSq (errs : List ReadErr) (p : Nat) (spec nme : Bool) (kid lsn n sec : Nat) :
    (s.setSq j q).readSector errs p spec nme kid lsn n sec =
      ((s.readSector errs p spec nme kid lsn n sec).1.setSq j q, (s.readSector errs p spec nme kid lsn n sec).2) := by
  have hpo : (s.setSq j q).poison = s.poison := rfl
  have hk (i : Nat) : (s.setSq j q).key i = s.key i := rfl
  unfold State.readSector
  rw [hpo, hk]
  split
  · rw [State.errLast_setSq, State.alarm_setSq]
  · dsimp only
    simp only [State.useKey_setSq, State.readOnce_setSq, State.noteFail_setSq, State.bump_setSq, State.alarm_setSq,
      State.poisonSector_setSq]
    split_ifs <;> rfl

theorem State.readPiece_setSq (errs : List ReadErr) (p : Nat) (spec nme : Bool) (b len : Nat) :
    (s.setSq j q).readPiece errs p spec nme b len =
      ((s.readPiece errs p spec nme b len).1.setSq j q, (s.readPiece errs p spec nme b len).2) := by
  have ho : (s.setSq j q).offset p b = s.offset p b := rfl
  have hb (o : Nat) : (s.setSq j q).bankOff p o = s.bankOff p o := rfl
  have hp (o : Nat) : (s.setSq j q).place p o = s.place p o := rfl
  unfold State.readPiece
  rw [ho]
  split
  · rfl
  · simp only [hb, hp, State.readSector_setSq]

/-- A read of memory does not look at the streams, and leaves them. -/
theorem State.readRun_setSq (errs : List ReadErr) (p : Nat) (spec nme : Bool) (b len : Nat) :
    (s.setSq j q).readRun errs p spec nme b len =
      ((s.readRun errs p spec nme b len).1.setSq j q, (s.readRun errs p spec nme b len).2) := by
  have hfold (l : List (Nat × Nat)) (x : State) (r : SectorRead) :
      let g := fun (x : State × SectorRead) (pc : Nat × Nat) =>
        let y := x.1.readPiece errs p spec nme pc.1 pc.2
        ((y.1, ⟨x.2.bytes ++ y.2.bytes, x.2.ok && y.2.ok⟩) : State × SectorRead)
      l.foldl g (x.setSq j q, r) = ((l.foldl g (x, r)).1.setSq j q, (l.foldl g (x, r)).2) := by
    induction l generalizing x r with
    | nil => rfl
    | cons c l ih =>
      dsimp only at ih ⊢
      rw [List.foldl_cons, List.foldl_cons, State.readPiece_setSq, ih]
  exact hfold ..
end

/-! ## Checks that pass (R532) -/

section
variable {s : State} {p : Nat} {m : Master} {b len : Nat} {keyed : Bool}

theorem State.checkRun_eq_zero_iff :
    (s.checkRun p m keyed b len).2 = 0 ↔ ∀ x ∈ sectorPieces b len, s.checkSector p m keyed x.1 x.2 = 0 := by
  unfold State.checkRun
  split
  case h_1 hn => simpa using hn
  case h_2 x hx =>
    have hne : s.checkSector p m keyed x.1 x.2 ≠ 0 := by simpa using List.find?_some hx
    exact ⟨fun h => absurd h hne, fun h => absurd (h x (List.mem_of_find?_eq_some hx)) hne⟩

/-- A check that passes leaves no trace. -/
theorem State.checkRun_of_zero (h : (s.checkRun p m keyed b len).2 = 0) : s.checkRun p m keyed b len = (s, 0) := by
  have hn : (sectorPieces b len).find? (fun x => s.checkSector p m keyed x.1 x.2 != 0) = none :=
    List.find?_eq_none.mpr fun x hx => by simp [State.checkRun_eq_zero_iff.mp h x hx]
  unfold State.checkRun
  rw [hn]

/-- A check does not look at the streams. -/
theorem State.checkRun_setSq_of_zero (j : Nat) (q : Seq) (h : (s.checkRun p m keyed b len).2 = 0) :
    (s.setSq j q).checkRun p m keyed b len = (s.setSq j q, 0) :=
  State.checkRun_of_zero (State.checkRun_eq_zero_iff.mpr fun x hx => (State.checkRun_eq_zero_iff (s := s)).mp h x hx)

theorem State.checkParts_of_zero {l : List Xfer} (h : ∀ x ∈ l, (s.checkRun p m true x.mem x.len).2 = 0) :
    s.checkParts p m l = (s, false) := by
  unfold State.checkParts
  induction l with
  | nil => rfl
  | cons x l ih =>
    rw [List.foldl_cons, if_neg (by simp), State.checkRun_of_zero (h x (List.mem_cons_self ..))]
    exact ih fun y hy => h y (List.mem_cons_of_mem _ hy)

end

/-! ## Lengths of what is read -/

theorem length_sliceB (l : List Byte) (k n : Nat) : (sliceB l k n).length = n := by
  unfold sliceB
  simp only [List.length_append, List.length_replicate, List.length_take, List.length_drop]
  omega

theorem sum_pieces (rest n : Nat) : ((List.range n).map fun i => min 256 (rest - 256 * i)).sum = min rest (256 * n) := by
  induction n with
  | zero => simp
  | succ n ih => rw [List.range_succ, List.map_append, List.sum_append, ih]; simp; omega

/-- The pieces of a run are the run. -/
theorem sum_sectorPieces (b len : Nat) : ((sectorPieces b len).map Prod.snd).sum = len := by
  have hall := sum_pieces (len - min len (256 - b % 256)) ((len - min len (256 - b % 256) + 255) / 256)
  unfold sectorPieces
  dsimp only
  simp only [List.map_append, List.sum_append, List.map_map, Function.comp_def, hall]
  split
  · simp; omega
  · simp; omega

section
variable {s : State} {p : Nat}

theorem State.length_readPiece (errs : List ReadErr) (spec nme : Bool) (b len : Nat) :
    (s.readPiece errs p spec nme b len).2.bytes.length = len := by
  unfold State.readPiece
  split
  · simp [ffBytes]
  · exact length_sliceB ..

/-- A run that is read has as many bytes as were asked for. -/
theorem State.length_readRun (errs : List ReadErr) (spec nme : Bool) (b len : Nat) :
    (s.readRun errs p spec nme b len).2.bytes.length = len := by
  have hfold (l : List (Nat × Nat)) (x : State × SectorRead) : (l.foldl (fun (x : State × SectorRead) pc =>
      let y := x.1.readPiece errs p spec nme pc.1 pc.2
      (y.1, ⟨x.2.bytes ++ y.2.bytes, x.2.ok && y.2.ok⟩)) x).2.bytes.length = x.2.bytes.length + (l.map Prod.snd).sum := by
    induction l generalizing x with
    | nil => simp
    | cons c l ih => rw [List.foldl_cons, ih]; simp [State.length_readPiece, Nat.add_assoc]
  exact (hfold _ (s, ⟨[], true⟩)).trans (by simp [sum_sectorPieces])

end

/-- Whole chunks of a list that holds them. -/
theorem length_chunksOf {α : Type} {k n : Nat} (hk : 0 < k) {l : List α} (h : k * n ≤ l.length) : (chunksOf k n l).length = n := by
  induction n generalizing l with
  | zero => rfl
  | succ n ih =>
    rw [Nat.mul_succ] at h
    obtain ⟨x, l, rfl⟩ := List.exists_cons_of_length_pos (l := l) (by omega)
    rw [chunksOf, List.length_cons, ih (by rw [List.length_drop]; omega)]
    exact fun e => by cases e

theorem getElem_chunksOf {α : Type} {k n i : Nat} (hk : 0 < k) {l : List α} (h : k * n ≤ l.length) (hi : i < (chunksOf k n l).length) :
    (chunksOf k n l)[i] = (l.drop (k * i)).take k := by
  induction n generalizing l i with
  | zero => exact absurd hi (Nat.not_lt_zero _)
  | succ n ih =>
    rw [Nat.mul_succ] at h
    obtain ⟨x, l, rfl⟩ := List.exists_cons_of_length_pos (l := l) (by omega)
    cases i with
    | zero => rfl
    | succ i =>
      have hd : k * n ≤ ((x :: l).drop k).length := by rw [List.length_drop]; omega
      have hi' : i < (chunksOf k n ((x :: l).drop k)).length := by
        rw [length_chunksOf hk hd]
        rw [length_chunksOf hk (by omega)] at hi
        omega
      exact (ih hd hi').trans (by rw [List.drop_drop, Nat.mul_succ, Nat.add_comm])

theorem leNat_lt (l : List Byte) : leNat l < 256 ^ l.length := by
  induction l with
  | nil => decide
  | cons b l ih =>
    have := b.isLt
    rw [leNat, List.length_cons, Nat.pow_succ]
    omega

end Sys2Proof.Machine

/-! The rows of XFER slots that move memory: what an issue leaves outstanding, what a completion moves, the command records of the
near-memory engines, the descriptors of the update unit, and the statement settled with them. -/

namespace Sys2Proof.Machine

section
variable {s t : State} {p : Nat}

/-! ## Outstanding parts (R151, R154, R156) -/

/-- The parts of an operation over a group of cores, at most 128 of them. -/
theorem length_parts (cores : List Nat) (f : Nat × Nat → Xfer) :
    ((List.zip (List.range 128) cores).map f).length = min 128 cores.length := by simp

theorem exists_of_mem_parts {cores : List Nat} {f : Nat × Nat → Xfer} {x : Xfer} (h : x ∈ (List.zip (List.range 128) cores).map f) :
    ∃ k c, k < cores.length ∧ x = f (k, c) := by
  obtain ⟨y, hy, rfl⟩ := List.mem_map.mp h
  obtain ⟨i, hi, rfl⟩ := List.getElem_of_mem hy
  simp only [List.length_zip, List.length_range] at hi
  exact ⟨i, cores[i], by omega, by simp⟩

theorem State.sq_serial (n j : Nat) : ({ s with serial := n } : State).sq j = s.sq j := rfl
theorem State.serial_fput (a : Nat) (f : Fld) (v : Nat) : (s.fput a f v).serial = s.serial := rfl

theorem State.addXfers_of_le {c : Nat} {l : List Xfer} (h : s.cset p c + l.length ≤ 65535) :
    ((s.addXfers p c l).sq p).xfers = (s.sq p).xfers ++ l.map fun x => { x with id := s.serial } := by
  unfold State.addXfers
  rw [State.csetAdd_of_le h]
  dsimp only
  rw [State.sq_serial, State.sq_setSq, State.sq_fput, State.serial_fput]

/-- Parts that pass their checks are outstanding. -/
theorem State.addXfers_taken {c : Nat} {cores : List Nat} {f : Nat × Nat → Xfer} {P : Xfer → Prop} (hc : s.cset p c + 128 ≤ 65535)
    (hP : ∀ y i, P { f y with id := i }) :
    ∃ l, (((s.xferTaken p).addXfers p c ((List.zip (List.range 128) cores).map f)).sq p).xfers = (s.sq p).xfers ++ l ∧
      l.length = min 128 cores.length ∧ ∀ x ∈ l, P x := by
  have hle : (s.xferTaken p).cset p c + ((List.zip (List.range 128) cores).map f).length ≤ 65535 := by
    rw [State.cset_of_regs (State.xferTaken_regs p), length_parts]
    omega
  refine ⟨((List.zip (List.range 128) cores).map f).map fun x => { x with id := (s.xferTaken p).serial }, ?_, ?_, ?_⟩
  · rw [State.addXfers_of_le hle, State.sq_xferTaken]
  · rw [List.length_map, length_parts]
  · intro x hx
    obtain ⟨y, hy, rfl⟩ := List.mem_map.mp hx
    obtain ⟨z, -, rfl⟩ := List.mem_map.mp hy
    exact hP z _

theorem State.checkRun_taken {m : Master} {b len : Nat} (h : (s.checkRun p m true b len).2 = 0) :
    ((s.xferTaken p).checkRun p m true b len).2 = 0 := by
  unfold State.xferTaken
  rw [State.checkRun_setSq_of_zero _ _ h]

theorem memXfer_gives {rd : Bool} {cmd : Instr} (hcmd : exec cmd s = .next (s.xferOp p (if rd then 1 else 2) fun s b => s.memXfer p b rd))
    (h : s.xferReady p (if rd then 1 else 2) = true) :
    let b := (s.sq p).bundle
    let len := 32 * (xferB b 33 18 + 1)
    let cores := s.group p (xferB b 9 6)
    let mem (k : Nat) : Nat := xferB b 51 56 + k * xferB b 107 24 * 32
    32 * xferB b 15 18 + len ≤ 8388608 → (∀ k, k < cores.length → mem k % 32 = 0) → s.cset p (bCset b) + 128 ≤ 65535 →
    (∀ k, k < cores.length → (s.checkRun p (if rd then mCoreRd else mCoreWr) true (mem k) len).2 = 0) →
    Gives cmd s fun t => ∃ l, (t.sq p).xfers = (s.sq p).xfers ++ l ∧ l.length = min 128 cores.length ∧
      ∀ x ∈ l, x.kind = (if rd then .memrd else .memwr) ∧ x.len = len ∧ x.addr = 32 * xferB b 15 18 := by
  intro b len cores mem hsram halign hcset hchk
  refine ⟨_, hcmd, ?_⟩
  rw [State.xferOp_of_ready _ h]
  unfold State.memXfer
  dsimp only
  rw [if_neg, State.checkParts_of_zero]
  · simp only [Bool.false_eq_true, if_false]
    exact State.addXfers_taken hcset fun _ _ => ⟨rfl, rfl, rfl⟩
  · intro x hx
    obtain ⟨k, c, hk, rfl⟩ := exists_of_mem_parts hx
    exact State.checkRun_taken (hchk k hk)
  · rw [not_or]
    refine ⟨Nat.not_lt.mpr hsram, ?_⟩
    rw [List.any_eq_true]
    rintro ⟨x, hx, hne⟩
    obtain ⟨k, c, hk, rfl⟩ := exists_of_mem_parts hx
    exact bne_iff_ne.mp hne (halign k hk)

theorem State.partRuns_xferTaken (j : Nat) : (s.xferTaken p).partRuns j = s.partRuns j := rfl

theorem rload_gives (h : s.xferReady p 6 = true) :
    let b := (s.sq p).bundle
    let n := xferB b 36 11 + 1
    let cores := s.group p (xferB b 9 6)
    xferB b 25 11 + n ≤ 2048 → s.cset p (bCset b) + 128 ≤ 65535 → s.partRuns p = [] →
    (∀ k, k < cores.length → (s.checkRun p mCoreRd true (xferB b 47 56 + k * xferB b 103 24 * 32) (8 * n)).2 = 0) →
    Gives (.rload p) s fun t => ∃ l, (t.sq p).xfers = (s.sq p).xfers ++ l ∧ l.length = min 128 cores.length ∧
      ∀ x ∈ l, x.kind = .rload ∧ x.len = 8 * n ∧ x.addr = xferB b 25 11 := by
  intro b n cores hrange hcset hruns hchk
  refine ⟨_, rfl, ?_⟩
  rw [State.xferOp_of_ready _ h]
  unfold State.rloadOp
  dsimp only
  have hr : xferB (s.sq p).bundle 25 11 + (xferB (s.sq p).bundle 36 11 + 1) ≤ 2048 := hrange
  rw [if_neg (by omega), State.checkParts_of_zero, State.partRuns_xferTaken, hruns,
    List.find?_nil]
  · simp only [Bool.false_eq_true, if_false, Option.isSome_none]
    exact State.addXfers_taken hcset fun _ _ => ⟨rfl, rfl, rfl⟩
  · intro x hx
    obtain ⟨k, c, hk, rfl⟩ := exists_of_mem_parts hx
    exact State.checkRun_taken (hchk k hk)

/-! ## Completions of parts (R151, R154, R271) -/

theorem State.sq_issueView (id j : Nat) : (s.issueView p id).sq j = s.sq j := by unfold State.issueView; split <;> rfl
theorem State.keyCode_issueView (id j kid : Nat) (w : Bool) : (s.issueView p id).keyCode j kid w = s.keyCode j kid w := by
  unfold State.issueView; split <;> rfl

theorem State.sq_cores (c : Cores) (j : Nat) : ({ s with cores := c } : State).sq j = s.sq j := rfl
theorem State.cores_setUp (j : Nat) (u : Upd) : (s.setUp j u).cores = s.cores := rfl
theorem State.dram_setUp (j : Nat) (u : Upd) : (s.setUp j u).dram = s.dram := rfl

theorem State.sq_issuedAs (id : Nat) (f : State → State) (j : Nat) : (s.issuedAs p id f).sq j = (f (s.issueView p id)).sq j := by
  unfold State.issuedAs
  dsimp only
  split
  · rw [State.sq_setUp]
  · rfl
theorem State.cores_issuedAs (id : Nat) (f : State → State) : (s.issuedAs p id f).cores = (f (s.issueView p id)).cores := by
  unfold State.issuedAs
  dsimp only
  split
  · rw [State.cores_setUp]
  · rfl
theorem State.dram_issuedAs (id : Nat) (f : State → State) : (s.issuedAs p id f).dram = (f (s.issueView p id)).dram := by
  unfold State.issuedAs
  dsimp only
  split
  · rw [State.dram_setUp]
  · rfl

/-- A part whose key it may still use moves. -/
theorem State.bound_of_zero {x : Xfer} (f : State → State) (h : s.keyCode p (addrKid x.mem) (x.kind == .memwr) = 0) :
    s.bound p x f = f s := by
  have hw : (if x.kind = .memwr then mCoreWr else mCoreRd).write = (x.kind == .memwr) := by cases x.kind <;> rfl
  unfold State.bound
  dsimp only
  rw [hw, h, if_pos rfl]

theorem State.xfers_dropXfer (x : Xfer) : ((s.dropXfer p x).sq p).xfers = (s.sq p).xfers.erase x := by
  unfold State.dropXfer State.csetSub
  rw [State.sq_fput, State.sq_setSq]
theorem State.dropXfer_keeps (x : Xfer) : Kept (allBut [.regs, .seqs]) s (s.dropXfer p x) :=
  State.dropXfer_kept _ _ (Kept.refl _ _) rfl rfl
theorem State.cores_dropXfer (x : Xfer) : (s.dropXfer p x).cores = s.cores := (State.dropXfer_keeps x).cores rfl
theorem State.dram_dropXfer (x : Xfer) : (s.dropXfer p x).dram = s.dram := (State.dropXfer_keeps x).mem rfl
theorem State.dram_count (ev unit core d : Nat) : (s.count p ev unit core d).dram = s.dram := (State.count_keeps ..).mem rfl

/-- A read of memory moves registers, keys, channels and alarms. -/
theorem State.readRun_keeps (errs : List ReadErr) (spec nme : Bool) (b len : Nat) :
    Kept (allBut [.keys, .regs, .out, .poison, .channels, .upds, .haltReq]) s (s.readRun errs p spec nme b len).1 :=
  State.readRun_kept _ _ _ _ _ _ (Kept.refl _ _) rfl rfl rfl rfl rfl rfl rfl
theorem State.writeRun_keeps (errs : List ReadErr) (nme stop : Bool) (b : Nat) (v : List Byte) :
    Kept (allBut [.mem, .keys, .regs, .out, .poison, .channels, .upds, .haltReq]) s (s.writeRun errs p nme stop b v).1 :=
  State.writeRun_kept _ _ _ _ _ _ (Kept.refl _ _) rfl rfl rfl rfl rfl rfl rfl rfl
theorem State.sramX_keeps (bad : SramErrs) (phys b len : Nat) :
    Kept (allBut [.cores, .regs, .out, .usage, .upds]) s (s.sramX p bad phys b len).1 :=
  State.sramX_kept _ _ _ _ _ (Kept.refl _ _) rfl rfl rfl rfl rfl

@[simp] theorem State.sq_readRun (errs : List ReadErr) (spec nme : Bool) (b len j : Nat) :
    (s.readRun errs p spec nme b len).1.sq j = s.sq j :=
  State.sq_of_kept (State.readRun_keeps ..) rfl j
@[simp] theorem State.sq_writeRun (errs : List ReadErr) (nme stop : Bool) (b : Nat) (v : List Byte) (j : Nat) :
    (s.writeRun errs p nme stop b v).1.sq j = s.sq j := State.sq_of_kept (State.writeRun_keeps ..) rfl j
@[simp] theorem State.sq_sramX (bad : SramErrs) (phys b len j : Nat) : (s.sramX p bad phys b len).1.sq j = s.sq j :=
  State.sq_of_kept (State.sramX_keeps ..) rfl j

theorem Seq.xfers_of_before {q q' : Seq} {l : List (Nat × List Byte)} (h : { q with before := l } = q') : q.xfers = q'.xfers := by
  rw [← h]
theorem State.xfers_sramWr (c b : Nat) (v : List Byte) (j : Nat) : ((s.sramWr c b v).sq j).xfers = (s.sq j).xfers :=
  Seq.xfers_of_before (State.sq_sramWr ..)

section
variable {n : Nat} {x : Xfer} (hx : (s.sq p).xfers[n]? = some x) (hkey : s.keyCode p (addrKid x.mem) (x.kind == .memwr) = 0)
  (errs : List ReadErr)
include hx hkey

theorem memrd_gives (bad : SramErrs) (htag : s.tagWait p 2 (some (s.lcore p x.core)) = false) (hk : x.kind = .memrd) :
    Gives (.memTransferComplete p n errs bad) s fun t =>
      let y := (s.issueView p x.id).readRun errs p true false x.mem x.len
      (t.sq p).xfers = (s.sq p).xfers.erase x ∧ t.cores.sram = (y.1.sramWr x.core x.addr y.2.bytes).cores.sram := by
  have hkey' : (s.issueView p x.id).keyCode p (addrKid x.mem) (x.kind == .memwr) = 0 := (State.keyCode_issueView ..).trans hkey
  refine ⟨_, rfl, ?_⟩
  unfold State.xferDone
  rw [hx]
  dsimp only
  rw [if_neg (by simp [htag]), State.sq_issuedAs, State.cores_issuedAs, State.bound_of_zero _ hkey', hk]
  dsimp only
  rw [State.xfers_dropXfer, State.cores_dropXfer, State.sq_count, State.cores_count, State.xfers_sramWr, State.sq_readRun,
    State.sq_issueView]
  exact ⟨rfl, rfl⟩

theorem memwr_gives (bad : SramErrs) (htag : s.tagWait p 2 (some (s.lcore p x.core)) = false) (hk : x.kind = .memwr) :
    Gives (.memTransferComplete p n errs bad) s fun t =>
      let y := (s.issueView p x.id).sramX p bad x.core x.addr x.len
      (t.sq p).xfers = (s.sq p).xfers.erase x ∧ t.dram = (y.1.writeRun errs p false false x.mem y.2).1.dram := by
  have hkey' : (s.issueView p x.id).keyCode p (addrKid x.mem) (x.kind == .memwr) = 0 := (State.keyCode_issueView ..).trans hkey
  refine ⟨_, rfl, ?_⟩
  unfold State.xferDone
  rw [hx]
  dsimp only
  rw [if_neg (by simp [htag]), State.sq_issuedAs, State.dram_issuedAs, State.bound_of_zero _ hkey', hk]
  dsimp only
  rw [State.xfers_dropXfer, State.dram_dropXfer, State.sq_count, State.dram_count, State.sq_writeRun, State.sq_sramX, State.sq_issueView]
  exact ⟨rfl, rfl⟩

end

/-! ## Micro-ops that land in replay memories (R154) -/

/-- The words `ops` at an address of the replay memory of every unit of a mask. -/
def fillUnits (core addr um : Nat) (ops : List (BitVec 64)) (m : SMap (BitVec 64)) (u : Nat) : SMap (BitVec 64) :=
  if bitOf um u then SMap.setRun (fun _ => 0#64) m ((core * 16 + u) * 2048 + addr) ops else m

variable {core addr um u j : Nat} {ops : List (BitVec 64)}

theorem get_fillUnits_other (hfit : addr + ops.length ≤ 2048) (hj : j < ops.length) (m : SMap (BitVec 64)) {v : Nat}
    (hne : v ≠ u) :
    SMap.get (fun _ => 0#64) (fillUnits core addr um ops m v) ((core * 16 + u) * 2048 + (addr + j)) =
      SMap.get (fun _ => 0#64) m ((core * 16 + u) * 2048 + (addr + j)) := by
  unfold fillUnits
  split
  · exact SMap.get_setRun_out _ _ _ (by omega)
  · rfl

theorem get_fillUnits_same (hb : bitOf um u = true) (hj : j < ops.length) (m : SMap (BitVec 64)) :
    SMap.get (fun _ => 0#64) (fillUnits core addr um ops m u) ((core * 16 + u) * 2048 + (addr + j)) = ops[j] := by
  unfold fillUnits
  rw [if_pos hb, ← Nat.add_assoc]
  exact SMap.get_setRun_in _ _ _ hj

theorem get_foldl_fillUnits_other (hfit : addr + ops.length ≤ 2048) (hj : j < ops.length) {l : List Nat}
    (hn : u ∉ l) (m : SMap (BitVec 64)) :
    SMap.get (fun _ => 0#64) (l.foldl (fillUnits core addr um ops) m) ((core * 16 + u) * 2048 + (addr + j)) =
      SMap.get (fun _ => 0#64) m ((core * 16 + u) * 2048 + (addr + j)) := by
  induction l generalizing m with
  | nil => rfl
  | cons v l ih =>
    obtain ⟨hne, hn⟩ := not_or.mp (mt List.mem_cons.mpr hn)
    rw [List.foldl_cons, ih hn, get_fillUnits_other hfit hj m (Ne.symm hne)]

/-- Each unit's replay memory holds the words: those of another unit lie elsewhere. -/
theorem get_foldl_fillUnits (hb : bitOf um u = true) (hfit : addr + ops.length ≤ 2048) (hj : j < ops.length) {l : List Nat}
    (hm : u ∈ l) (m : SMap (BitVec 64)) :
    SMap.get (fun _ => 0#64) (l.foldl (fillUnits core addr um ops) m) ((core * 16 + u) * 2048 + (addr + j)) = ops[j] := by
  induction l generalizing m with
  | nil => cases hm
  | cons v l ih =>
    rw [List.foldl_cons]
    by_cases hml : u ∈ l
    · exact ih hml _
    · obtain rfl : u = v := (List.mem_cons.mp hm).resolve_right hml
      rw [get_foldl_fillUnits_other hfit hj hml, get_fillUnits_same hb hj]

/-- The micro-ops of a run of bytes. -/
theorem getElem_microOps {n : Nat} {v : List Byte} (hv : 8 * n ≤ v.length)
    (hj : j < ((chunksOf 8 n v).map fun c => BitVec.ofNat 64 (leNat c)).length) :
    (((chunksOf 8 n v).map fun c => BitVec.ofNat 64 (leNat c))[j]).toNat = leNat ((v.drop (8 * j)).take 8) := by
  have hlt : leNat ((v.drop (8 * j)).take 8) < 2 ^ 64 :=
    lt_of_lt_of_le (leNat_lt _) (Nat.pow_le_pow_right (by decide) (List.length_take_le ..) : _ ≤ 256 ^ 8)
  rw [List.getElem_map, getElem_chunksOf (by decide) hv, BitVec.toNat_ofNat, Nat.mod_eq_of_lt hlt]

theorem rloadComplete_gives {n : Nat} (errs : List ReadErr) {x : Xfer} (hx : (s.sq p).xfers[n]? = some x) (hk : x.kind = .rload)
    (htag : s.tagWait p 1 none = false) (hkey : s.keyCode p (addrKid x.mem) false = 0) (hfit : x.addr + x.len / 8 ≤ 2048) :
    Gives (.rloadComplete p n errs) s fun t =>
      let v := ((s.issueView p x.id).readRun errs p false false x.mem x.len).2.bytes
      (t.sq p).xfers = (s.sq p).xfers.erase x ∧ ∀ u j, u < 10 → bitOf x.umask u = true → j < x.len / 8 →
        t.replayAt x.core u (x.addr + j) = leNat ((v.drop (8 * j)).take 8) := by
  have hkey' : (s.issueView p x.id).keyCode p (addrKid x.mem) (x.kind == .memwr) = 0 := by
    rw [hk]; exact (State.keyCode_issueView ..).trans hkey
  have hlen := State.length_readRun (s := s.issueView p x.id) (p := p) errs false false x.mem x.len
  refine ⟨_, rfl, ?_⟩
  unfold State.rloadDone State.replayAt
  rw [hx]
  dsimp only
  rw [if_neg (by simp [hk, htag]), State.sq_issuedAs, State.cores_issuedAs, State.bound_of_zero _ hkey']
  rw [State.xfers_dropXfer, State.cores_dropXfer, State.sq_count, State.cores_count]
  refine ⟨by rw [State.sq_cores, State.sq_readRun, State.sq_issueView], fun u j hu hb hj => ?_⟩
  generalize ((s.issueView p x.id).readRun errs p false false x.mem x.len).2.bytes = v at hlen ⊢
  have h8 : 8 * (x.len / 8) ≤ v.length := by omega
  have hops : ((chunksOf 8 (x.len / 8) v).map fun c => BitVec.ofNat 64 (leNat c)).length = x.len / 8 := by
    rw [List.length_map, length_chunksOf (by decide) h8]
  rw [← getElem_microOps h8 (by rw [hops]; exact hj)]
  exact congrArg BitVec.toNat (get_foldl_fillUnits hb (by rw [hops]; exact hfit) (by rw [hops]; exact hj)
    (List.mem_range.mpr hu) _)

/-! ## Command records for the near-memory engines (R152, R285) -/

/-- The command records that a stack's engine has been forwarded, in order. -/
def State.nmeWaits (s : State) (k : Nat) : List NmeRec := (s.stk k).queue ++ (s.stk k).backlog

theorem State.nmeWaits_of_kept {φ : Part → Bool} (h : Kept φ s t) (hc : φ .channels = true) (k : Nat) : t.nmeWaits k = s.nmeWaits k := by
  unfold State.nmeWaits State.stk
  rw [(h.channels hc).1]

theorem State.nmeWaits_setStk {n : Nat} {x : Stack} (hq : x.queue = (s.stk n).queue) (hb : x.backlog = (s.stk n).backlog) (k : Nat) :
    (s.setStk n x).nmeWaits k = s.nmeWaits k := by
  unfold State.nmeWaits
  by_cases hk : k = n
  · subst hk
    rw [State.stk_setStk, hq, hb]
  · rw [State.stk_setStk_ne _ _ hk]

theorem State.nmeWaits_wr (a : Nat) (w : Word) (k : Nat) : (s.wr a w).nmeWaits k = s.nmeWaits k := rfl

theorem State.nmeWaits_fput (a : Nat) (f : Fld) (v k : Nat) : (s.fput a f v).nmeWaits k = s.nmeWaits k := rfl

theorem State.nmeWaits_errLast (n sec kind part : Nat) (persist : Bool) (k : Nat) :
    (s.errLast n sec kind part persist).nmeWaits k = s.nmeWaits k := by
  unfold State.errLast
  dsimp only
  split
  · rfl
  · rw [State.nmeWaits_wr, State.nmeWaits_wr]
    exact State.nmeWaits_setStk (by rfl) (by rfl) k

theorem State.nmeWaits_rowError (n sec k : Nat) : (s.rowError n sec).nmeWaits k = s.nmeWaits k := by
  unfold State.rowError
  dsimp only
  split
  · rfl
  · exact State.nmeWaits_setStk (by rfl) (by rfl) k

theorem State.nmeWaits_bump (a : Nat) (f : Fld) (d k : Nat) : (s.bump a f d).nmeWaits k = s.nmeWaits k := (rfl)
theorem State.nmeWaits_irqMem (bits k : Nat) : (s.irqMem bits).nmeWaits k = s.nmeWaits k :=
  State.nmeWaits_of_kept (φ := allBut [.regs, .out]) (State.irqMem_kept _ (Kept.refl _ _) rfl rfl) rfl k
theorem State.nmeWaits_alarm (cause n k : Nat) : (s.alarm p cause n).nmeWaits k = s.nmeWaits k :=
  State.nmeWaits_of_kept (φ := allBut [.regs, .out, .upds]) (State.alarm_kept _ _ _ (Kept.refl _ _) rfl rfl rfl) rfl k
theorem State.nmeWaits_useKey (n k : Nat) : (s.useKey n).1.nmeWaits k = s.nmeWaits k :=
  State.nmeWaits_of_kept (φ := allBut [.keys, .regs, .out]) (State.useKey_kept _ (Kept.refl _ _) rfl rfl rfl) rfl k
theorem State.nmeWaits_poisonSector (n sec k : Nat) : (s.poisonSector n sec).nmeWaits k = s.nmeWaits k :=
  State.nmeWaits_of_kept (φ := allBut [.regs, .out, .poison, .haltReq]) (State.poisonSector_kept _ _ (Kept.refl _ _) rfl rfl rfl rfl) rfl k

theorem State.nmeWaits_readOnce (errs : List ReadErr) (n sec i k : Nat) : (s.readOnce errs p n sec i).1.nmeWaits k = s.nmeWaits k := by
  unfold State.readOnce
  dsimp only
  split
  · rfl
  · split_ifs <;> simp only [State.nmeWaits_irqMem, State.nmeWaits_errLast, State.nmeWaits_rowError, State.nmeWaits_bump]

theorem State.nmeWaits_noteFail (n sec : Nat) (nme : Bool) (r : RawRead) (persist : Bool) (k : Nat) :
    (s.noteFail p n sec nme r persist).nmeWaits k = s.nmeWaits k := by
  unfold State.noteFail
  split_ifs <;> simp only [State.nmeWaits_errLast, State.nmeWaits_bump]

theorem State.nmeWaits_readSector (errs : List ReadErr) (spec nme : Bool) (kid lsn n sec k : Nat) :
    (s.readSector errs p spec nme kid lsn n sec).1.nmeWaits k = s.nmeWaits k := by
  unfold State.readSector
  split
  · rw [State.nmeWaits_alarm, State.nmeWaits_errLast]
  · dsimp only
    split_ifs <;>
      simp only [State.nmeWaits_poisonSector, State.nmeWaits_alarm, State.nmeWaits_noteFail, State.nmeWaits_readOnce,
        State.nmeWaits_bump, State.nmeWaits_useKey]

/-- A read of memory forwards no record. -/
theorem State.nmeWaits_readRun (errs : List ReadErr) (spec nme : Bool) (b len k : Nat) :
    (s.readRun errs p spec nme b len).1.nmeWaits k = s.nmeWaits k := by
  have hpiece (t : State) (c : Nat × Nat) : (t.readPiece errs p spec nme c.1 c.2).1.nmeWaits k = t.nmeWaits k := by
    unfold State.readPiece
    split
    · rfl
    · exact State.nmeWaits_readSector ..
  have hfold (l : List (Nat × Nat)) (x : State × SectorRead) : (l.foldl (fun (x : State × SectorRead) pc =>
      let y := x.1.readPiece errs p spec nme pc.1 pc.2
      (y.1, ⟨x.2.bytes ++ y.2.bytes, x.2.ok && y.2.ok⟩)) x).1.nmeWaits k = x.1.nmeWaits k := by
    induction l generalizing x with
    | nil => rfl
    | cons c l ih => rw [List.foldl_cons, ih]; exact hpiece x.1 c
  exact hfold _ (s, ⟨[], true⟩)

theorem State.nmeWaits_ifcSend (i dir : Nat) (what : List Nat) (k : Nat) : (s.ifcSend i dir what).nmeWaits k = s.nmeWaits k :=
  State.nmeWaits_of_kept (φ := allBut [.keys]) (State.ifcSend_kept _ _ _ (Kept.refl _ _) rfl) rfl k

theorem State.nmeWaits_forward (i : Nat) (recs : List NmeRec) (k : Nat) :
    (s.forward i recs).nmeWaits k = if k = i then s.nmeWaits k ++ recs else s.nmeWaits k := by
  have hset (x : Stack) (hx : x.queue ++ x.backlog = s.nmeWaits i ++ recs) :
      (s.setStk i x).nmeWaits k = if k = i then s.nmeWaits k ++ recs else s.nmeWaits k := by
    unfold State.nmeWaits at hx ⊢
    split
    case isTrue hk => subst hk; rw [State.stk_setStk, hx]
    case isFalse hk => rw [State.stk_setStk_ne _ _ hk]
  unfold State.forward
  dsimp only
  split
  · exact hset _ (List.take_append_drop ..)
  · rw [State.nmeWaits_ifcSend]
    exact hset _ (List.take_append_drop ..)

/-- Records forwarded to different stacks wait once in each. -/
theorem State.nmeWaits_foldl_forward {ks : List Nat} (hn : ks.Nodup) (recs : List NmeRec) (k : Nat) :
    (ks.foldl (fun (s : State) k => s.forward k recs) s).nmeWaits k = if k ∈ ks then s.nmeWaits k ++ recs else s.nmeWaits k := by
  induction ks generalizing s with
  | nil => rfl
  | cons i ks ih =>
    obtain ⟨hi, hn⟩ := List.nodup_cons.mp hn
    rw [List.foldl_cons, ih hn, State.nmeWaits_forward]
    by_cases hk : k = i
    · subst hk; simp [hi]
    · simp [hk]

theorem State.sq_foldl_forward (ks : List Nat) (recs : List NmeRec) (j : Nat) :
    (ks.foldl (fun (s : State) k => s.forward k recs) s).sq j = s.sq j :=
  State.sq_of_kept (φ := allBut [.keys, .channels])
    (kept_foldl (Kept.refl _ s) fun _ k h => State.forward_kept k recs h rfl rfl) rfl j

/-- The stacks of a mask. -/
theorem length_maskBits (mask : Nat) : ((List.range 8).filter fun j => bitOf mask j).length ≤ 8 :=
  (List.length_filter_le ..).trans (by simp)

/-- What an NME operation leaves, once its records are fetched. -/
theorem State.nmeOp_of_ok {b : Bundle} (errs : List ReadErr)
    (hk : ∀ j, j < 8 → bitOf (xferB b 9 8) j = true → j < s.nstacks p)
    (hchk : (s.checkRun p mNmeFetch true (xferB b 17 56) (64 * (xferB b 73 12 + 1))).2 = 0) (hc : s.cset p (bCset b) + 8 ≤ 65535) :
    ((s.nmeOp p b errs).sq p) = s.sq p ∧ ∃ recs : List NmeRec, recs.length = xferB b 73 12 + 1 ∧
      ∀ j, j < 8 → bitOf (xferB b 9 8) j = true → (s.nmeOp p b errs).nmeWaits (s.stack0 p + j) = s.nmeWaits (s.stack0 p + j) ++ recs := by
  have hser (x : State) (n j : Nat) (l : List NmeXfer) : ({ x with serial := n, nmeXfers := l } : State).sq j = x.sq j := rfl
  have hser' (x : State) (n j : Nat) (l : List NmeXfer) : ({ x with serial := n, nmeXfers := l } : State).nmeWaits j = x.nmeWaits j := rfl
  have hread (v : Nat) (r : State × SectorRead) (hr : (s.fput (Reg.SEQ_CSET p (bCset b)) Fld.SEQ_CSET_OUT v).readRun errs p false false
        (xferB b 17 56) (64 * (xferB b 73 12 + 1)) = r) :
      r.1.sq p = s.sq p ∧ (∀ k, r.1.nmeWaits k = s.nmeWaits k) ∧ r.2.bytes.length = 64 * (xferB b 73 12 + 1) := by
    subst hr
    exact ⟨by rw [State.sq_readRun, State.sq_fput], fun k => by rw [State.nmeWaits_readRun, State.nmeWaits_fput], State.length_readRun ..⟩
  have hle : s.cset p (bCset b) + ((List.range 8).filter fun j => bitOf (xferB b 9 8) j).length ≤ 65535 := by
    have := length_maskBits (xferB b 9 8)
    omega
  unfold State.nmeOp
  dsimp only
  rw [if_neg, State.checkRun_of_zero hchk]
  · dsimp only
    rw [if_neg (by simp), State.csetAdd_of_le hle]
    dsimp only
    generalize hr : (s.fput _ _ _).readRun errs p false false (xferB b 17 56) (64 * (xferB b 73 12 + 1)) = r
    obtain ⟨hsq, hw, hl⟩ := hread _ r hr
    rw [hser, State.sq_foldl_forward, hsq]
    refine ⟨rfl, (chunksOf 64 (xferB b 73 12 + 1) r.2.bytes).map fun v => ⟨p, r.1.serial, v, false⟩, ?_, fun j hj hb => ?_⟩
    · rw [List.length_map, length_chunksOf (by decide) hl.ge]
    · rw [hser', State.nmeWaits_foldl_forward, if_pos, hw]
      · exact List.mem_map_of_mem (List.mem_filter.mpr ⟨List.mem_range.mpr hj, hb⟩)
      · exact (List.nodup_range.filter _).map fun _ _ => Nat.add_left_cancel
  · rw [List.any_eq_true]
    rintro ⟨j, hj, hlt⟩
    obtain ⟨hr, hb⟩ := List.mem_filter.mp hj
    exact absurd (hk j (List.mem_range.mp hr) hb) (Nat.not_lt.mpr (of_decide_eq_true hlt))

theorem xferNme_gives (errs : List ReadErr) (h : s.xferReady p 3 = true) :
    let b := (s.sq p).bundle
    let n := xferB b 73 12 + 1
    (∀ j, j < 8 → bitOf (xferB b 9 8) j = true → j < s.nstacks p) → (s.checkRun p mNmeFetch true (xferB b 17 56) (64 * n)).2 = 0 →
    s.cset p (bCset b) + 8 ≤ 65535 → Gives (.xferNme p errs) s fun t =>
      (t.sq p).xferDue = false ∧ ∀ j, j < 8 → bitOf (xferB b 9 8) j = true →
        let k := s.stack0 p + j
        ∃ recs, (t.stk k).queue ++ (t.stk k).backlog = (s.stk k).queue ++ (s.stk k).backlog ++ recs ∧ recs.length = n := by
  intro b n hk hchk hc
  obtain ⟨hsq, recs, hlen, hrecs⟩ := State.nmeOp_of_ok (s := s.xferTaken p) errs hk (State.checkRun_taken hchk)
    (by rw [State.cset_of_regs (State.xferTaken_regs p)]; exact hc)
  refine ⟨_, rfl, ?_⟩
  rw [State.xferOp_of_ready _ h]
  exact ⟨congrArg Seq.xferDue (hsq.trans (State.sq_xferTaken p)), fun j hj hb => ⟨recs, hrecs j hj hb, hlen⟩⟩

/-! ## Descriptors for the update unit (R155, R318) -/

theorem State.up_of_kept {φ : Part → Bool} (h : Kept φ s t) (hu : φ .upds = true) (j : Nat) : t.up j = s.up j := by
  unfold State.up; rw [h.upds hu]

theorem State.nf_raiseNf : ((s.raiseNf p).up p).nf = true := by
  unfold State.raiseNf
  rw [State.up_of_kept (State.count_keeps ..) rfl, State.up_setUp]

theorem State.up_irqUpd (i : Nat) (f : Fld) (j : Nat) : (s.irqUpd i f).up j = s.up j :=
  State.up_of_kept (φ := allBut [.regs, .out]) (State.irqUpd_kept _ _ (Kept.refl _ _) rfl rfl) rfl j
theorem State.up_setBits (a bits j : Nat) : (s.setBits a bits).up j = s.up j := rfl

/-- An error that is recorded leaves the step's flag. -/
theorem State.nf_updErr (code stack tid : Nat) : ((s.updErr p code stack tid).up p).nf = (s.up p).nf := by
  have hnote (c : Prop) [Decidable c] (a b : Nat) (w : Word) : ((if c then (((s.wr a w).wn b tid).setUp p { s.up p with errAt := s.now })
      else s).up p).nf = (s.up p).nf := by
    split
    · rw [State.up_setUp]
    · rfl
  unfold State.updErr
  dsimp only
  rw [State.up_irqUpd]
  split
  · rw [State.up_irqUpd, State.up_setBits, hnote]
  · rw [hnote]

theorem State.sq_raiseNf (i j : Nat) : (s.raiseNf i).sq j = s.sq j :=
  State.sq_of_kept (φ := allBut [.usage, .upds]) (State.raiseNf_kept _ (Kept.refl _ _) rfl rfl) rfl j
theorem State.sq_updErr (i code stack tid j : Nat) : (s.updErr i code stack tid).sq j = s.sq j :=
  State.sq_of_kept (φ := allBut [.regs, .out, .upds]) (State.updErr_kept _ _ _ _ (Kept.refl _ _) rfl rfl rfl) rfl j

theorem Seq.xferDue_of_before {q q' : Seq} {l : List (Nat × List Byte)} (h : { q with before := l } = q') : q.xferDue = q'.xferDue := by
  rw [← h]

theorem State.xferDue_updStatus (d : List Byte) (rank code elems j : Nat) :
    ((s.updStatus p d rank code elems).sq j).xferDue = (s.sq j).xferDue := by
  unfold State.updStatus State.nrecPut
  split
  · exact Seq.xferDue_of_before (State.sq_sramWr ..)
  · rfl

theorem State.xferDue_foldl_updStatus (d : List Byte) (code j : Nat) (l : List Nat) :
    (((l.foldl (fun (s : State) j => s.updStatus p d j code 0) s).sq j)).xferDue = (s.sq j).xferDue := by
  induction l generalizing s with
  | nil => rfl
  | cons i l ih => rw [List.foldl_cons, ih, State.xferDue_updStatus]

theorem State.up_foldl_updStatus (d : List Byte) (code j : Nat) (l : List Nat) :
    (l.foldl (fun (s : State) j => s.updStatus p d j code 0) s).up j = s.up j :=
  State.up_of_kept (φ := allBut [.cores, .seqs]) (kept_foldl (Kept.refl _ s) fun _ _ h => State.updStatus_kept _ _ _ _ _ h rfl rfl) rfl j

theorem streamReg_SEQ_CSET (hp : p ∈ allParts) {n : Nat} (hn : n < 64) : streamReg (Reg.SEQ_CSET p n) := by
  obtain ⟨h1, h4⟩ := pos_and_le_four_of_mem_allParts hp
  exact ⟨p, h1, h4, by unfold Reg.SEQ_CSET; omega, by unfold Reg.SEQ_CSET; omega⟩

/-- The stacks that a descriptor's parts run in. -/
def descParts (s : State) (p : Nat) (d : List Byte) : List UpdPart :=
  if dKind d = 0 then (List.zip (List.range 8) (dStacks d)).map fun (rank, j) => ⟨s.stack0 p + j, rank, 0, 0⟩ else [⟨0, 0, 0, 0⟩]

theorem length_descParts (d : List Byte) : (descParts s p d).length ≤ 8 := by
  unfold descParts
  split
  · simp
  · simp

theorem descParts_ne_nil {d : List Byte} (h : dStacks d ≠ []) : (descParts s p d).isEmpty = false := by
  unfold descParts
  split
  · cases hd : dStacks d with
    | nil => exact absurd hd h
    | cons j l => simp [List.range_succ_eq_map]
  · rfl

/-- A descriptor in error raises the step's flag and is recorded (R318). -/
def State.descFailed (s : State) (p : Nat) (d : List Byte) : State :=
  let code := s.descCode p d
  (List.range (dStacks d).length).foldl (fun s j => s.updStatus p d j code 0) ((s.raiseNf p).updErr p code 0 (dTid d))

/-- The stream of a descriptor that is in order starts (R155). -/
def State.descStarted (s : State) (p cset : Nat) (d : List Byte) (parts : List UpdPart) : State :=
  let st : UpdStream := ⟨s.serial, cset, dKind d, d, false, parts⟩
  let u := s.up p
  let u' : Upd := { u with
    streams := if parts.isEmpty then u.streams else u.streams ++ [st]
    norms := if s.addsNorm p d && !parts.isEmpty then u.norms ++ [(st.id, none)] else u.norms }
  { s with serial := s.serial + 1 }.setUp p u'

/-- A descriptor's issue, once its check has passed: the descriptor is in error, or its stream starts. -/
theorem State.updIssue_of_checked {cset a : Nat} (errs : List ReadErr) (h : (s.checkRun p mUpdFetch true a 64).2 = 0) :
    s.updIssue p cset a errs =
      let x := s.readRun errs p false false a 64
      let parts := descParts x.1 p x.2.bytes
      if x.1.descCode p x.2.bytes ≠ 0 then some (x.1.descFailed p x.2.bytes)
      else match x.1.csetAdd p cset parts.length with
        | none => none
        | some y => some (y.descStarted p cset x.2.bytes parts) := by
  unfold State.updIssue
  rw [State.checkRun_of_zero h]
  rfl

theorem State.xferDue_descFailed (d : List Byte) (j : Nat) : ((s.descFailed p d).sq j).xferDue = (s.sq j).xferDue := by
  unfold State.descFailed
  dsimp only
  rw [State.xferDue_foldl_updStatus, State.sq_updErr, State.sq_raiseNf]

theorem State.nf_descFailed (d : List Byte) : ((s.descFailed p d).up p).nf = true := by
  unfold State.descFailed
  dsimp only
  rw [State.up_foldl_updStatus, State.nf_updErr, State.nf_raiseNf]

theorem State.sq_descStarted (cset : Nat) (d : List Byte) (parts : List UpdPart) (j : Nat) :
    (s.descStarted p cset d parts).sq j = s.sq j := by
  unfold State.descStarted
  dsimp only
  rw [State.sq_setUp, State.sq_serial]

theorem State.streams_descStarted (cset : Nat) (d : List Byte) {parts : List UpdPart} (h : parts.isEmpty = false) :
    ((s.descStarted p cset d parts).up p).streams = (s.up p).streams ++ [⟨s.serial, cset, dKind d, d, false, parts⟩] := by
  unfold State.descStarted
  dsimp only
  rw [State.up_setUp, h]
  rfl

theorem State.up_fput (a : Nat) (f : Fld) (v j : Nat) : (s.fput a f v).up j = s.up j := rfl
theorem State.up_setSq (i : Nat) (q : Seq) (j : Nat) : (s.setSq i q).up j = s.up j := rfl
theorem State.descCode_setSq (i : Nat) (q : Seq) (d : List Byte) : (s.setSq i q).descCode p d = s.descCode p d := rfl

theorem xferUpd_gives (errs : List ReadErr) (h : s.xferReady p 7 = true) :
    let b := (s.sq p).bundle
    let x := (s.checkRun p mUpdFetch true (xferB b 9 56) 64).1.readRun errs p false false (xferB b 9 56) 64
    (s.checkRun p mUpdFetch true (xferB b 9 56) 64).2 = 0 → s.cset p (bCset b) + 8 ≤ 65535 → Gives (.xferUpd p errs) s fun t =>
      (t.sq p).xferDue = false ∧
        (x.1.descCode p x.2.bytes = 0 → dStacks x.2.bytes ≠ [] →
          ∃ st : UpdStream, (t.up p).streams = (x.1.up p).streams ++ [st] ∧ st.desc = x.2.bytes) ∧
        (x.1.descCode p x.2.bytes ≠ 0 → (t.up p).nf = true) := by
  intro b x hchk hc
  have hp := (State.xferReady_iff.mp h).1
  have hx : x = s.readRun errs p false false (xferB b 9 56) 64 := by unfold x; rw [State.checkRun_of_zero hchk]
  have hreg : streamReg (Reg.SEQ_CSET p (bCset b)) := streamReg_SEQ_CSET hp (lt_of_lt_of_le (Nat.mod_lt _ (by decide)) (by decide))
  have hcset (q : Seq) : (x.1.setSq p q).cset p (bCset b) = s.cset p (bCset b) := by
    rw [State.cset_of_rd (State.rd_setSq ..), hx, State.cset_of_rd (State.rd_readRun hreg hp ..)]
  refine ⟨_, rfl, ?_⟩
  rw [State.xferOp_of_ready _ h]
  unfold State.updOp
  rw [State.updIssue_of_checked errs (State.checkRun_taken hchk)]
  unfold State.xferTaken
  rw [State.readRun_setSq, ← hx]
  clear_value x
  dsimp only
  rw [State.descCode_setSq]
  have hdue (y : State) (hy : (y.sq p).xferDue = ((x.1.setSq p { s.sq p with xferDue := false }).sq p).xferDue) :
      (y.sq p).xferDue = false := by rw [hy, State.sq_setSq]
  by_cases hcode : x.1.descCode p x.2.bytes = 0
  · rw [if_neg (not_not.mpr hcode), State.csetAdd_of_le (by rw [hcset]; exact (Nat.add_le_add_left (length_descParts _) _).trans hc)]
    dsimp only
    refine ⟨hdue _ (by rw [State.sq_descStarted, State.sq_fput]), fun _ hd => ?_, fun hn => absurd hcode hn⟩
    exact ⟨_, (State.streams_descStarted _ _ (descParts_ne_nil hd)).trans (by rw [State.up_fput, State.up_setSq]), rfl⟩
  · rw [if_pos hcode]
    exact ⟨hdue _ (State.xferDue_descFailed ..), fun hz => absurd hz hcode, fun _ => State.nf_descFailed _⟩

end

/-- Settles O35: each row by its own lemma. The parts of an operation pass their checks and are outstanding; a completion moves its part
and takes it off; records and descriptors are forwarded once. -/
theorem transferRowsComplete : Obligations.TransferRowsComplete := by
  refine ⟨?_, ?_, ?_, ?_, ?_, ?_⟩
  · intro s p b len cores mem hsram halign hcset
    exact ⟨fun h hchk => memXfer_gives (rd := true) rfl h hsram halign hcset hchk,
      fun h hchk => memXfer_gives (rd := false) rfl h hsram halign hcset hchk⟩
  · intro s p b n cores h
    exact rload_gives h
  · intro s p n errs bad x hx htag hkey v
    exact ⟨memrd_gives hx hkey errs bad htag, memwr_gives hx hkey errs bad htag⟩
  · intro s p n errs x hx hk htag hkey hfit
    exact rloadComplete_gives errs hx hk htag hkey hfit
  · intro s p errs h
    exact xferNme_gives errs h
  · intro s p errs h
    exact xferUpd_gives errs h

end Sys2Proof.Machine

/-! The rows of the stream's control: RUN, CONT, STOP and RESUME, the fill of a period, the waiting gate and its opening, lateness, the
tables that a stopped stream may write, and the statement settled with them. -/

namespace Sys2Proof.Machine

section
variable {s t : State} {p a : Nat}

/-! ## Commands to a stream (R163, R165) -/

theorem State.fget_setSeqState {b : Nat} {f : Fld} (st : Nat) (h1 : b ≠ Reg.SEQ_STATUS p) (h2 : b ≠ Reg.FMT_STATUS p)
    (h3 : b ≠ Reg.PWR_SAG_STAT) : (s.setSeqState p st).fget b f = s.fget b f := State.fget_of_rd (State.rd_setSeqState st h1 h2 h3)

theorem State.landDue_beat (p b j : Nat) : ((s.landDue p b).sq j).beat = (s.sq j).beat := by
  by_cases h : j = p
  · subst h; rw [State.sq_landDue]
  · unfold State.landDue
    dsimp only
    rw [State.sq_setSq_ne _ _ h]
    unfold State.sq
    rw [State.foldl_land_seqs]

/-- What a stopped stream's pipelines held lands, and its time stands. -/
theorem State.beat_settleStream (p : Nat) : ((s.settleStream p).sq p).beat = (s.sq p).beat := by
  have hfold (l : List Land) (x : State) : ((l.foldl (fun (s : State) l => s.landDue p l.beat) x).sq p).beat = (x.sq p).beat := by
    induction l generalizing x with
    | nil => rfl
    | cons d l ih => rw [List.foldl_cons, ih, State.landDue_beat]
  unfold State.settleStream
  dsimp only
  rw [State.sq_cores, hfold]

section
variable {r : RegReq} (hp : p ∈ allParts) (hg : s.grants r (Reg.SEQ_CTRL p) = true)
include hp hg

theorem seqCont_gives (hs : s.seqState p = seqStopped) : Gives (.seqCont r p) s fun t =>
    t.seqState p = seqGateWait ∧ (t.sq p).issue = (s.sq p).beat ∧ (t.sq p).waited = 0 := by
  refine ⟨_, rfl, ?_⟩
  rw [State.write_of_grants _ hg]
  unfold State.seqCont
  rw [if_neg (not_not.mpr hs)]
  dsimp only
  rw [State.seqState_setSeqState hp (by decide), State.sq_setSeqState, State.sq_setSq]
  exact ⟨rfl, State.beat_settleStream p, rfl⟩

theorem seqStop_running (hs : s.seqState p = seqRunning) : Gives (.seqStop r p) s fun t =>
    t.seqState p = seqStopping ∧ (t.sq p).stopPend = true := by
  refine ⟨_, rfl, ?_⟩
  rw [State.write_of_grants _ hg]
  unfold State.seqStop
  dsimp only
  rw [if_neg (by rw [hs]; decide), if_pos hs, State.seqState_setSeqState hp (by decide), State.sq_setSeqState, State.sq_fput,
    State.sq_setSq]
  exact ⟨rfl, rfl⟩

theorem seqStop_gateWait (hs : s.seqState p = seqGateWait) (hc : (s.sq p).afterCommit = false) : Gives (.seqStop r p) s fun t =>
    t.seqState p = seqStopped ∧ t.rn (Reg.SEQ_PC p) = (s.sq p).nxt.idx % 2 ^ 32 := by
  refine ⟨_, rfl, ?_⟩
  rw [State.write_of_grants _ hg]
  unfold State.seqStop
  dsimp only
  rw [if_pos (.inl hs), hc, if_neg (by decide)]
  exact ⟨State.seqState_enterStopped hp, State.rn_SEQ_PC_enterStopped hp⟩

theorem seqResume_gives (hs : s.seqState p = seqBrkHold) : Gives (.seqResume r p) s fun t =>
    t.seqState p = seqGateWait ∧ (t.sq p).resumed = true := by
  refine ⟨_, rfl, ?_⟩
  rw [State.write_of_grants _ hg]
  unfold State.seqResume
  rw [if_pos hs]
  dsimp only
  rw [State.seqState_setSeqState hp (by decide), State.sq_setSeqState, State.sq_setSq]
  exact ⟨rfl, rfl⟩

end

/-! ## The fill of a period (R109, R117) -/

/-- A period that lies in the image fills the other half of the instruction SRAM. -/
theorem State.fillNext_of_ok {errs : List ReadErr} (hi : (s.sq p).nxt.idx < (s.sq p).nbundle) :
    let i := (s.sq p).nxt.idx
    let x := s.fetch errs p i 1
    let b := x.2.2.headD 0#512
    let n := if bType b = bMark then ctlB b 0 18 + 1 else 1
    let m := min (n + 1) ((s.sq p).nbundle - i)
    let y := x.1.fetch errs p i m
    x.2.1 = 0 → n ≤ s.fget (Reg.SEQ_ISRAM p) Fld.SEQ_ISRAM_PMAX → i + n ≤ (s.sq p).nbundle → y.2.1 = 0 →
      s.fillNext errs p = y.1.setSq p { y.1.sq p with nxt := { idx := i, bundles := y.2.2, ready := true } } := by
  intro i x b n m y hx hn hin hy
  unfold State.fillNext
  dsimp only
  rw [if_neg (Nat.not_le.mpr hi), if_neg (not_not.mpr hx), if_neg (Nat.not_lt.mpr hn), if_neg (Nat.not_lt.mpr hin), if_neg (not_not.mpr hy)]

theorem periodFill_gives (errs : List ReadErr) (hs : s.stopped p = false) (hh : s.halted = false)
    (hready : (s.sq p).nxt.ready = false) (hi : (s.sq p).nxt.idx < (s.sq p).nbundle) (hends : (s.sq p).cur.ends = false)
    (htag : s.tagWait p 0 none = false) :
    let i := (s.sq p).nxt.idx
    let x := s.fetch errs p i 1
    let b := x.2.2.headD 0#512
    let n := if bType b = bMark then ctlB b 0 18 + 1 else 1
    let m := min (n + 1) ((s.sq p).nbundle - i)
    x.2.1 = 0 → n ≤ s.fget (Reg.SEQ_ISRAM p) Fld.SEQ_ISRAM_PMAX → i + n ≤ (s.sq p).nbundle → (x.1.fetch errs p i m).2.1 = 0 →
    Gives (.periodFillComplete p errs) s fun t =>
      (t.sq p).nxt = { idx := i, bundles := (x.1.fetch errs p i m).2.2, ready := true } := by
  intro i x b n m hx hn hin hy
  refine ⟨_, rfl, ?_⟩
  unfold State.periodFill
  dsimp only
  rw [if_neg (by simp [hs, hh, hready, hends, htag]), State.fillNext_of_ok hi hx hn hin hy, State.sq_setSq]

/-! ## Lateness (R183, R190, R191) -/

/-- A flag that another field of its register is put beside. -/
theorem State.flag_fput_field {f g : Fld} (v : Nat) (h : f.lo + f.width ≤ 32) (hd : g.lo + g.width ≤ f.lo ∨ f.lo + f.width ≤ g.lo) :
    (s.fput a f v).flag a g = s.flag a g := by unfold State.flag; rw [State.fget_fput_field _ _ _ _ _ h hd]

/-- R190: an episode begins where LATE has passed the limit. -/
theorem State.lost_lostCheck (hlate : s.rn (Reg.SEQ_CATCHUP_LIMIT p) < s.rn (Reg.SEQ_LATE p))
    (hl : s.flag (Reg.SEQ_LATE_STAT p) Fld.SEQ_LATE_STAT_LOST = false) :
    (s.lostCheck p).flag (Reg.SEQ_LATE_STAT p) Fld.SEQ_LATE_STAT_LOST = true := by
  unfold State.lostCheck State.setAnnQ State.irqSeq
  dsimp only
  rw [if_pos ⟨hlate, by simp [hl]⟩, State.flag_of_rd (State.rd_sepiaRec ..),
    State.flag_of_rd (State.rd_irq_ne _ _ _ _ _ _ (by unfold Reg.SEQ_LATE_STAT Reg.SEQ_INT_STATUS; omega)),
    State.flag_of_rd (State.rd_bump_ne _ _ (by unfold Reg.SEQ_LATE_STAT Reg.SEQ_SLOST_COUNT; omega)),
    State.flag_fput_field _ (by decide) (by decide), State.flag_of_rd (State.rd_setSq ..),
    State.flag_fput_field _ (by decide) (by decide), State.flag_fput_one rfl (by decide)]

theorem schedLost_gives (hs : s.stopped p = false) (hh : s.halted = false)
    (hlate : s.rn (Reg.SEQ_CATCHUP_LIMIT p) < s.rn (Reg.SEQ_LATE p)) (hl : s.flag (Reg.SEQ_LATE_STAT p) Fld.SEQ_LATE_STAT_LOST = false) :
    Gives (.schedLost p) s fun t => t.flag (Reg.SEQ_LATE_STAT p) Fld.SEQ_LATE_STAT_LOST = true := by
  refine ⟨_, rfl, ?_⟩
  unfold State.schedLost
  rw [if_neg (by simp [hs, hh, hlate])]
  exact State.lost_lostCheck hlate hl

theorem catchupLimitWrite_gives {r : RegReq} (v : Word) (hg : s.grants r (Reg.SEQ_CATCHUP_LIMIT p) = true) :
    Gives (.catchupLimitWrite r p v) s fun t => t.rd (Reg.SEQ_CATCHUP_LIMIT p) = v := by
  refine ⟨_, rfl, ?_⟩
  rw [State.write_of_grants _ hg]
  unfold State.catchupW
  dsimp only
  split
  · exact State.rd_wr ..
  · rw [State.rd_lostCheck, State.rd_wr]
    simp only [lostRegs, List.mem_cons, List.not_mem_nil, or_false, Reg.SEQ_CATCHUP_LIMIT, Reg.SEQ_LATE_STAT, Reg.SEQ_SLOST_COUNT,
      Reg.SEQ_INT_STATUS]
    omega

/-- The words of the stochastic-rounding seed are whole fields. -/
theorem regDesc_FMT_SR_SEED {k : Nat} (hp : p ∈ allParts) (hk : k < 4) :
    ∃ d ix, regDesc (Reg.FMT_SR_SEED p k) = some (d, ix) ∧ d.fields = [⟨⟨0, 32⟩, .rw, 0, []⟩] := by
  obtain ⟨h1, h4⟩ := pos_and_le_four_of_mem_allParts hp
  interval_cases p <;> interval_cases k <;> exact ⟨_, _, rfl, rfl⟩

theorem fmtTableWrite_gives {r : RegReq} {k : Nat} (v : Word) (hp : p ∈ allParts) (hk : k < 4)
    (hg : s.grants r (Reg.FMT_SR_SEED p k) = true)
    (hs : s.stopped p = true) : Gives (.fmtTableWrite r p (0x10 + 4 * k) v) s fun t => t.rd (Reg.FMT_SR_SEED p k) = v := by
  have ha : vf p + 0x500000 + (0x10 + 4 * k) = Reg.FMT_SR_SEED p k := by unfold Reg.FMT_SR_SEED; omega
  refine ⟨_, rfl, ?_⟩
  rw [ha, State.write_of_grants _ hg, if_neg (by omega)]
  unfold State.fmtTableW
  rw [if_pos hs, ha]
  obtain ⟨d, ix, hd, hf⟩ := regDesc_FMT_SR_SEED hp hk
  exact State.rd_regWrite_whole v hd hf

/-! ## The waiting gate (R110, R176, R185) -/

theorem State.atGate_of_atBoundary (f : State → State) (h : s.atBoundary p = true) : s.atGate p f = f s := by
  simp only [State.atBoundary, Bool.and_eq_true, beq_iff_eq] at h
  obtain ⟨⟨⟨-, hg⟩, hc⟩, hf⟩ := h
  unfold State.atGate
  simp [hg, hc, hf]

theorem State.mem_allParts_of_atBoundary (h : s.atBoundary p = true) : p ∈ allParts := by
  simp only [State.atBoundary, Bool.and_eq_true] at h
  exact List.contains_iff_mem.mp h.1.1.1

/-- A stream whose gate waits has not faulted. -/
theorem State.not_faulted_of_atBoundary (h : s.atBoundary p = true) : s.seqState p ≠ seqFaulted := by
  simp only [State.atBoundary, Bool.and_eq_true, State.gating, Bool.or_eq_true, beq_iff_eq] at h
  rcases h.1.1.2 with hs | hs <;> rw [hs] <;> decide

/-- What a closed gate leaves at a boundary, but for a breakpoint's hold. -/
def State.gateWaited (s : State) (p : Nat) : State :=
  let q := s.sq p
  let s1 := s.advance p q.issue
  let s2 := s1.setSq p { s1.sq p with issue := q.issue + 1, waited := q.waited + 1, waitBeat := true, lastFalse := s.gateFalse p }
  (((s2.setLate p (satAdd 32 (s2.rn (Reg.SEQ_LATE p)) 1)).bump64 (Reg.SEQ_WAIT_LO p) 1).count p 0x02 16 0 1).lostEnd p

theorem State.gateWait_of_closed (h : s.atBoundary p = true) (hm : s.gateFalse p ≠ 0) :
    s.gateWait p = if s.brkHolds p then
      if s.seqState p = seqBrkHold then s.gateWaited p else ((s.gateWaited p).setSeqState p seqBrkHold).irqSeq p Fld.SEQ_INT_STATUS_BRK
    else s.gateWaited p := by
  unfold State.gateWait
  rw [State.atGate_of_atBoundary _ h]
  exact if_neg hm

theorem SEQ_LATE_not_mem_lostRegs : Reg.SEQ_LATE p ∉ lostRegs p := by
  simp only [lostRegs, List.mem_cons, List.not_mem_nil, or_false, Reg.SEQ_LATE, Reg.SEQ_LATE_STAT, Reg.SEQ_SLOST_COUNT, Reg.SEQ_INT_STATUS]
  omega

theorem SEQ_LATE_not_mem_beatRegs : Reg.SEQ_LATE p ∉ beatRegs p := not_mem_beatRegs (by unfold Reg.SEQ_LATE; omega)

theorem State.rn_SEQ_LATE_gateWaited : (s.gateWaited p).rn (Reg.SEQ_LATE p) = satAdd 32 (s.rn (Reg.SEQ_LATE p)) 1 := by
  have hlt (x : Nat) : satAdd 32 x 1 % 2 ^ 32 = satAdd 32 x 1 := Nat.mod_eq_of_lt (by unfold satAdd; omega)
  unfold State.gateWaited
  dsimp only
  rw [State.rn_of_rd (State.rd_lostEnd SEQ_LATE_not_mem_lostRegs), State.rn_of_rd (State.rd_count ..),
    State.rn_of_rd (State.rd_bump64_ne _ (by unfold Reg.SEQ_LATE Reg.SEQ_WAIT_LO; omega) (by unfold Reg.SEQ_LATE Reg.SEQ_WAIT_LO; omega)),
    State.rn_setLate, hlt, State.rn_of_rd (State.rd_setSq ..), State.rn_of_rd (State.rd_advance _ SEQ_LATE_not_mem_beatRegs)]

theorem Seq.waited_of_quiet {q q' : Seq} {l : List Bool} {b : Bool} (h : { q with annQ := l, announced := b } = q') :
    q.waited = q'.waited := by
  rw [← h]

theorem State.sq_gateWaited :
    ((s.gateWaited p).sq p).waited = (s.sq p).waited + 1 ∧ ((s.gateWaited p).sq p).issue = (s.sq p).issue + 1 := by
  unfold State.gateWaited
  dsimp only
  rw [Seq.waited_of_quiet (State.sq_lostEnd p), Seq.issue_of_quiet (State.sq_lostEnd p), State.sq_count, State.sq_bump64, State.sq_setLate,
    State.sq_setSq]
  exact ⟨rfl, rfl⟩

theorem State.rd_irqSeq_ne {f : Fld} (h : a ≠ Reg.SEQ_INT_STATUS p) : (s.irqSeq p f).rd a = s.rd a := State.rd_irq_ne _ _ _ _ _ _ h

theorem gateWait_gives (h : s.atBoundary p = true) (hm : s.gateFalse p ≠ 0) : Gives (.gateWaitBeat p) s fun t =>
    t.rn (Reg.SEQ_LATE p) = satAdd 32 (s.rn (Reg.SEQ_LATE p)) 1 ∧ (t.sq p).waited = (s.sq p).waited + 1 ∧
      (t.sq p).issue = (s.sq p).issue + 1 := by
  obtain ⟨h1, h4⟩ := pos_and_le_four_of_mem_allParts (State.mem_allParts_of_atBoundary h)
  have hheld : (((s.gateWaited p).setSeqState p seqBrkHold).irqSeq p Fld.SEQ_INT_STATUS_BRK).rn (Reg.SEQ_LATE p) =
      (s.gateWaited p).rn (Reg.SEQ_LATE p) := by
    rw [State.rn_of_rd (State.rd_irqSeq_ne (by unfold Reg.SEQ_LATE Reg.SEQ_INT_STATUS; omega)),
      State.rn_of_rd (State.rd_setSeqState _ (by unfold Reg.SEQ_LATE Reg.SEQ_STATUS; omega) (by unfold Reg.SEQ_LATE Reg.FMT_STATUS; omega)
        (by unfold Reg.SEQ_LATE Reg.PWR_SAG_STAT vf; omega))]
  have hsq : (((s.gateWaited p).setSeqState p seqBrkHold).irqSeq p Fld.SEQ_INT_STATUS_BRK).sq p = (s.gateWaited p).sq p := by
    unfold State.irqSeq
    rw [State.sq_irq, State.sq_setSeqState]
  refine ⟨_, rfl, ?_⟩
  rw [State.gateWait_of_closed h hm]
  split
  · split
    · exact ⟨State.rn_SEQ_LATE_gateWaited, State.sq_gateWaited⟩
    · rw [hheld, hsq]
      exact ⟨State.rn_SEQ_LATE_gateWaited, State.sq_gateWaited⟩
  · exact ⟨State.rn_SEQ_LATE_gateWaited, State.sq_gateWaited⟩

/-! ## The gate opens (R179, R185) -/

/-- The gate opens: the mark issues as beat 0 of the period that waited. -/
def State.opened (s : State) (p : Nat) : State :=
  let q := s.sq p
  let b := q.mark
  let s1 := s.setSq p { q with start := q.issue }
  let s2 := (s1.advance p q.issue).lostEnd p
  let succ := s2.successor p q.nxt
  let s3 := s2.setSq p { s2.sq p with
    cur := q.nxt, nxt := if succ = q.nxt.idx then q.nxt else { idx := succ }, pos := 0, issue := q.issue + 1, waited := 0,
    lastFalse := 0, resumed := false, loopRec := none, commitRec := none
    limreq := if ctlB b 34 2 = 0 ∨ s2.flag Reg.PWR_LIM_CTRL Fld.PWR_LIM_CTRL_MODE_LOCK ∨ s2.power.modeAt = some s2.now then q.limreq
      else ctlB b 34 2 }
  (((s3.wn (Reg.SEQ_PC p) q.nxt.idx).fput (Reg.SEQ_BIP p) Fld.SEQ_BIP_BIP 0).fput (Reg.SEQ_PERIOD p)
    Fld.SEQ_PERIOD_PID (ctlB b 18 16)).setSeqState p seqRunning

/-- What the opening of a gate records, and the step that its mark begins. -/
def State.openRecorded (s : State) (p : Nat) (q : Seq) : State :=
  let b := q.mark
  let s1 := match if q.waited = 0 then none else lowBit q.lastFalse with
    | some k => s.fput (Reg.SEQ_GATE_STAT p) Fld.SEQ_GATE_STAT_LAST k
    | none => s
  let s2 := if ctlB b 34 2 ≠ 0 ∧ s1.flag Reg.PWR_LIM_CTRL Fld.PWR_LIM_CTRL_MODE_LOCK then
    s1.bump Reg.PWR_LIMREQ_IGN Fld.PWR_LIMREQ_IGN_COUNT 1 else s1
  let s3 := if bStepStart b then s2.stepStart p else s2
  let s4 := (s3.sepiaRec (unitSeq p) 0x10 p (s3.rn (Reg.SEQ_LATE p))).sepiaRec (unitSeq p) 0x11 p q.waited
  if bTrace b then s4.sepiaRec (unitSeq p) 0x14 p q.nxt.idx else s4

theorem State.gateOpen_of_open (h : s.atBoundary p = true) (hm : s.gateFalse p = 0) :
    s.gateOpen p false = (s.opened p).openRecorded p (s.sq p) := by
  unfold State.gateOpen
  rw [State.atGate_of_atBoundary _ h]
  dsimp only
  rw [if_neg (not_not.mpr hm), if_neg (by decide)]
  rfl

theorem Seq.start_of_quiet {q q' : Seq} {l : List Bool} {b : Bool} (h : { q with annQ := l, announced := b } = q') :
    q.start = q'.start := by
  rw [← h]

theorem State.sq_opened (h : s.atBoundary p = true) : ((s.opened p).sq p).start = (s.sq p).issue ∧ ((s.opened p).sq p).cur = (s.sq p).nxt ∧
    ((s.opened p).sq p).pos = 0 ∧ ((s.opened p).sq p).issue = (s.sq p).issue + 1 := by
  have hk : (s.setSq p { s.sq p with start := (s.sq p).issue }).keepsBeat p (s.sq p).issue :=
    fun e => absurd ((State.seqState_setSq ..).symm.trans e) (State.not_faulted_of_atBoundary h)
  unfold State.opened
  dsimp only
  rw [State.sq_setSeqState, State.sq_fput, State.sq_fput, State.sq_wn, State.sq_setSq]
  refine ⟨?_, rfl, rfl, rfl⟩
  dsimp only
  rw [Seq.start_of_quiet (State.sq_lostEnd p), State.sq_advance hk]
  dsimp only
  rw [State.sq_setSq]

theorem State.seqState_opened (hp : p ∈ allParts) : (s.opened p).seqState p = seqRunning := State.seqState_setSeqState hp (by decide)

theorem State.pid_opened (hp : p ∈ allParts) : (s.opened p).fget (Reg.SEQ_PERIOD p) Fld.SEQ_PERIOD_PID = ctlB (s.sq p).mark 18 16 := by
  obtain ⟨h1, h4⟩ := pos_and_le_four_of_mem_allParts hp
  unfold State.opened
  dsimp only
  rw [State.fget_setSeqState _ (by unfold Reg.SEQ_PERIOD Reg.SEQ_STATUS; omega) (by unfold Reg.SEQ_PERIOD Reg.FMT_STATUS; omega)
    (by unfold Reg.SEQ_PERIOD Reg.PWR_SAG_STAT vf; omega), State.fget_fput _ _ _ _ (by decide)]
  exact Nat.mod_eq_of_lt (Nat.mod_lt _ (by decide))

/-- Nothing of a period's opening moves: the stream's state, the period's number, and the stream but for its first non-finite event. -/
structure KeepsOpening (p : Nat) (s t : State) : Prop where
  status : t.rd (Reg.SEQ_STATUS p) = s.rd (Reg.SEQ_STATUS p)
  period : t.rd (Reg.SEQ_PERIOD p) = s.rd (Reg.SEQ_PERIOD p)
  seq : { t.sq p with nfFirst := (s.sq p).nfFirst } = s.sq p

theorem KeepsOpening.refl (p : Nat) (s : State) : KeepsOpening p s s := ⟨rfl, rfl, rfl⟩

theorem Seq.nfFirst_trans {q q' q'' : Seq} (h : { q' with nfFirst := q.nfFirst } = q) (h' : { q'' with nfFirst := q'.nfFirst } = q') :
    { q'' with nfFirst := q.nfFirst } = q := by rw [← h, ← h']

theorem KeepsOpening.trans {u : State} (h : KeepsOpening p s t) (h' : KeepsOpening p t u) : KeepsOpening p s u :=
  ⟨h'.status.trans h.status, h'.period.trans h.period, Seq.nfFirst_trans h.seq h'.seq⟩

theorem KeepsOpening.ite {c : Prop} [Decidable c] {u : State} (h : KeepsOpening p s t) (h' : KeepsOpening p s u) :
    KeepsOpening p s (if c then t else u) := by split <;> assumption

theorem KeepsOpening.of_eq (hs : t.rd (Reg.SEQ_STATUS p) = s.rd (Reg.SEQ_STATUS p)) (hp : t.rd (Reg.SEQ_PERIOD p) = s.rd (Reg.SEQ_PERIOD p))
    (hq : t.sq p = s.sq p) : KeepsOpening p s t := ⟨hs, hp, by rw [hq]⟩

theorem KeepsOpening.wr (h : KeepsOpening p s t) (w : Word) (h1 : Reg.SEQ_STATUS p ≠ a) (h2 : Reg.SEQ_PERIOD p ≠ a) :
    KeepsOpening p s (t.wr a w) :=
  h.trans (.of_eq (State.rd_wr_ne _ _ h1) (State.rd_wr_ne _ _ h2) (State.sq_wr ..))

theorem KeepsOpening.setUp (h : KeepsOpening p s t) (j : Nat) (u : Upd) : KeepsOpening p s (t.setUp j u) :=
  h.trans (.of_eq (State.rd_setUp ..) (State.rd_setUp ..) (State.sq_setUp ..))

theorem KeepsOpening.sepiaRec (h : KeepsOpening p s t) (unit code owner arg : Nat) : KeepsOpening p s (t.sepiaRec unit code owner arg) :=
  h.trans (.of_eq (State.rd_sepiaRec ..) (State.rd_sepiaRec ..) (State.sq_sepiaRec ..))

theorem KeepsOpening.count (h : KeepsOpening p s t) (j ev unit core d : Nat) : KeepsOpening p s (t.count j ev unit core d) :=
  h.trans (.of_eq (State.rd_count ..) (State.rd_count ..) (State.sq_count ..))

theorem KeepsOpening.nfFirst (h : KeepsOpening p s t) (x : Option (Nat × Nat)) : KeepsOpening p s
    (t.setSq p { t.sq p with nfFirst := x }) :=
  h.trans ⟨State.rd_setSq .., State.rd_setSq .., by rw [State.sq_setSq]⟩

theorem KeepsOpening.nfSeen (h : KeepsOpening p s t) (bits tensor : Nat) (who : Option Nat) :
    KeepsOpening p s (t.nfSeen p bits tensor who) := by
  have hreg (k : Nat) (hk : 0x200020 ≤ k) : Reg.SEQ_STATUS p ≠ vf p + k ∧ Reg.SEQ_PERIOD p ≠ vf p + k := by
    unfold Reg.SEQ_STATUS Reg.SEQ_PERIOD; omega
  unfold State.nfSeen
  dsimp only
  split
  · exact h
  · refine KeepsOpening.wr ?_ _ (hreg _ (by decide)).1 (hreg _ (by decide)).2
    split
    · exact (h.nfFirst _).wr _ (hreg _ (by decide)).1 (hreg _ (by decide)).2
    · exact h

theorem KeepsOpening.stepStart (h : KeepsOpening p s t) : KeepsOpening p s (t.stepStart p) := by
  unfold State.stepStart State.latchScalars State.nonFinite
  dsimp only
  have hset := ((h.wr (a := Reg.UPD_NORM_ACC p) (BitVec.ofNat 32 0) (by unfold Reg.SEQ_STATUS Reg.UPD_NORM_ACC; omega)
    (by unfold Reg.SEQ_PERIOD Reg.UPD_NORM_ACC; omega)).setUp p)
  split
  · exact (hset _).setUp _ _
  · exact (KeepsOpening.nfSeen (((hset _).setUp _ _).setUp _ _) _ _ _).count _ _ _ _ _

theorem keepsOpening_openRecorded (hp : p ∈ allParts) (q : Seq) : KeepsOpening p s (s.openRecorded p q) := by
  obtain ⟨h1, h4⟩ := pos_and_le_four_of_mem_allParts hp
  unfold State.openRecorded
  dsimp only
  generalize hx : (match (if q.waited = 0 then none else lowBit q.lastFalse) with
    | some k => s.fput (Reg.SEQ_GATE_STAT p) Fld.SEQ_GATE_STAT_LAST k
    | none => s) = x
  have hgate : KeepsOpening p s x := by
    subst hx
    split
    · exact (KeepsOpening.refl p s).wr _ (by unfold Reg.SEQ_STATUS Reg.SEQ_GATE_STAT; omega)
        (by unfold Reg.SEQ_PERIOD Reg.SEQ_GATE_STAT; omega)
    · exact .refl p s
  have hlim (c : Prop) [Decidable c] : KeepsOpening p s (if c then x.bump Reg.PWR_LIMREQ_IGN Fld.PWR_LIMREQ_IGN_COUNT 1 else x) :=
    .ite (hgate.wr _ (by unfold Reg.SEQ_STATUS Reg.PWR_LIMREQ_IGN vf; omega) (by unfold Reg.SEQ_PERIOD Reg.PWR_LIMREQ_IGN vf; omega)) hgate
  have hstep (c : Prop) [Decidable c] (y : State) (hy : KeepsOpening p s y) : KeepsOpening p s (if c then y.stepStart p else y) :=
    .ite hy.stepStart hy
  have hrec (n : Nat) := ((hstep (bStepStart q.mark = true) _
    (hlim (ctlB q.mark 34 2 ≠ 0 ∧ x.flag Reg.PWR_LIM_CTRL Fld.PWR_LIM_CTRL_MODE_LOCK = true))).sepiaRec (unitSeq p) 0x10 p n).sepiaRec
      (unitSeq p) 0x11 p q.waited
  exact .ite ((hrec _).sepiaRec ..) (hrec _)

theorem gateOpen_gives (h : s.atBoundary p = true) (hm : s.gateFalse p = 0) : Gives (.gateOpen ⟨p, false⟩) s fun t =>
    t.seqState p = seqRunning ∧ (t.sq p).start = (s.sq p).issue ∧ (t.sq p).cur = (s.sq p).nxt ∧ (t.sq p).pos = 0 ∧
      (t.sq p).issue = (s.sq p).issue + 1 ∧ t.fget (Reg.SEQ_PERIOD p) Fld.SEQ_PERIOD_PID = ctlB (s.sq p).mark 18 16 := by
  have hp := State.mem_allParts_of_atBoundary h
  obtain ⟨hst, hper, hseq⟩ := keepsOpening_openRecorded (s := s.opened p) hp (s.sq p)
  obtain ⟨hstart, hcur, hpos, hissue⟩ := State.sq_opened h
  refine ⟨_, rfl, ?_⟩
  rw [State.gateOpen_of_open h hm]
  dsimp only
  rw [State.seqState_of_rd hst, State.seqState_opened hp, State.fget_of_rd hper, State.pid_opened hp]
  rw [← hseq] at hstart hcur hpos hissue
  exact ⟨rfl, hstart, hcur, hpos, hissue, rfl⟩

/-! ## RUN (R162, R163) -/

theorem streamReg_SEQ_STATUS (hp : p ∈ allParts) : streamReg (Reg.SEQ_STATUS p) := by
  obtain ⟨h1, h4⟩ := pos_and_le_four_of_mem_allParts hp
  exact ⟨p, h1, h4, by unfold Reg.SEQ_STATUS; omega, by unfold Reg.SEQ_STATUS; omega⟩

theorem State.rd_refuse (h : streamReg a) (j code master : Nat) (write : Bool) (off kid : Nat) :
    (s.refuse j code master write off kid).rd a = s.rd a := by
  have hfirst (c : Prop) [Decidable c] (u : Upd) (w w' : Word) : (if c then ((((s.setUp j u).wr (Reg.TKEY_PROT_ERR j) w).wn
      (Reg.TKEY_PROT_ADDR_LO j) off).wr (Reg.TKEY_PROT_ADDR_HI j) w') else s).rd a = s.rd a := by
    split
    · rw [State.rd_wr_ne _ _ (show a ≠ Reg.TKEY_PROT_ADDR_HI j from h.ne_tkey j (by decide) (by decide)),
        State.rd_wn_ne _ (show a ≠ Reg.TKEY_PROT_ADDR_LO j from h.ne_tkey j (by decide) (by decide)),
        State.rd_wr_ne _ _ (show a ≠ Reg.TKEY_PROT_ERR j from h.ne_tkey j (by decide) (by decide)), State.rd_setUp]
    · rfl
  unfold State.refuse
  dsimp only
  rw [State.rd_irqProt h, State.rd_bump_ne _ _ (show a ≠ Reg.TKEY_PROT_COUNT j from h.ne_tkey j (by decide) (by decide)), hfirst]

theorem State.rd_checkRun (h : streamReg a) (j : Nat) (m : Master) (keyed : Bool) (b len : Nat) :
    (s.checkRun j m keyed b len).1.rd a = s.rd a := by
  unfold State.checkRun
  split
  · rfl
  · exact State.rd_refuse h ..

theorem State.rd_fetch (h : streamReg a) (hp : p ∈ allParts) (errs : List ReadErr) (i n : Nat) : (s.fetch errs p i n).1.rd a = s.rd a := by
  unfold State.fetch
  dsimp only
  split
  · exact State.rd_checkRun h ..
  · exact (State.rd_readRun h hp ..).trans (State.rd_checkRun h ..)

theorem State.sq_fetch (errs : List ReadErr) (i n j : Nat) : (s.fetch errs p i n).1.sq j = s.sq j :=
  State.sq_of_kept (φ := allBut [.keys, .regs, .out, .poison, .channels, .upds, .haltReq])
    (State.fetch_kept _ _ _ _ (Kept.refl _ _) rfl rfl rfl rfl rfl rfl rfl) rfl j

/-- A recorded descriptor error is shown in the update unit's registers alone. -/
theorem State.rd_updErr (h : a < vf p + 0x400000) (code stack tid : Nat) : (s.updErr p code stack tid).rd a = s.rd a := by
  have hne {k : Nat} (hk : 0x400000 ≤ k) : a ≠ vf p + k := by omega
  have hnote (c : Prop) [Decidable c] (u : Upd) (w : Word) :
      (if c then (((s.wr (Reg.UPD_ERR p) w).wn (Reg.UPD_ERR_TID p) tid).setUp p u) else s).rd a = s.rd a := by
    split
    · rw [State.rd_setUp, State.rd_wn_ne _ (show a ≠ Reg.UPD_ERR_TID p from hne (by decide)),
        State.rd_wr_ne _ _ (show a ≠ Reg.UPD_ERR p from hne (by decide))]
    · rfl
  have hirq (x : State) (f : Fld) : (x.irqUpd p f).rd a = x.rd a :=
    State.rd_irq_ne _ _ _ _ _ _ (show a ≠ Reg.UPD_INT_STATUS p from hne (by decide))
  unfold State.updErr
  dsimp only
  rw [hirq]
  split
  · rw [hirq, State.rd_setBits_ne _ (show a ≠ Reg.UPD_STATUS p from hne (by decide)), hnote]
  · rw [hnote]

theorem State.rd_writeState (h : streamReg a) (ha : a < vf p + 0x400000) (hp : p ∈ allParts) (dec g : Nat) :
    (s.writeState p dec g).rd a = s.rd a := by
  unfold State.writeState
  dsimp only
  split
  · exact (State.rd_updErr ha ..).trans (State.rd_checkRun h ..)
  · exact (State.rd_writeRun h hp ..).trans (State.rd_checkRun h ..)

theorem State.rd_settleRings (ha : a < vf p + 0x280000) (keep : Bool) : (s.settleRings p keep).rd a = s.rd a := by
  have hstep (x : State) (e : Nat × Nat) : (let i := e.1 - 2048 * p
      let b := if (x.ring p i).kind = 1 then Reg.SEQ_RING_CONS p i else Reg.SEQ_RING_PROD p i
      x.wn b (x.rn b + e.2)).rd a = x.rd a := by
    dsimp only
    exact State.rd_wn_ne _ (by split <;> (simp only [Reg.SEQ_RING_CONS, Reg.SEQ_RING_PROD]; omega))
  have hadv (x : State) (m : SMap Nat) : ({ x with ringAdv := m } : State).rd a = x.rd a := rfl
  unfold State.settleRings
  dsimp only
  rw [hadv]
  split
  · exact State.rd_foldl hstep _
  · rfl

theorem State.seqState_loadGroups (g : List Byte) : (s.loadGroups p g).seqState p = s.seqState p := by
  unfold State.loadGroups
  refine State.seqState_of_rd (State.rd_foldl (fun x n => State.rd_foldl (fun y w => State.rd_wn_ne _ ?_) _) _)
  unfold Reg.SEQ_STATUS Reg.SEQ_GRP
  omega

/-- R160: a fault stops a stream that runs. -/
theorem State.seqState_seqFault (hp : p ∈ allParts) (hs : s.stopped p = false) (code core unit pc : Nat) :
    (s.seqFault p code core unit pc).seqState p = seqFaulted := by
  obtain ⟨h1, h4⟩ := pos_and_le_four_of_mem_allParts hp
  have hirq (x : State) (f : Fld) : (x.irqSeq p f).seqState p = x.seqState p :=
    State.seqState_of_rd (State.rd_irqSeq_ne (by unfold Reg.SEQ_STATUS Reg.SEQ_INT_STATUS; omega))
  have hbufs (x : State) (test : CmdBuf → Bool) (n : Nat) : (x.failBufs p test n).seqState p = x.seqState p :=
    State.seqState_of_rd (State.rd_mapBufs (by omega) _ _ (by unfold Reg.SEQ_STATUS; omega))
  have hpend (x : State) : (x.fput (Reg.UPD_STATUS p) Fld.UPD_STATUS_PENDING 0).seqState p = x.seqState p :=
    State.seqState_of_rd (State.rd_fput_ne _ _ _ (by unfold Reg.SEQ_STATUS Reg.UPD_STATUS; omega))
  have hrec (x : State) (unit code owner arg : Nat) : (x.sepiaRec unit code owner arg).seqState p = x.seqState p :=
    State.seqState_of_rd (State.rd_sepiaRec ..)
  have hfreeze (x : State) : (x.freezePart p).seqState p = x.seqState p := by
    unfold State.freezePart
    split
    · rfl
    · exact State.seqState_of_rd (State.rd_fput_ne _ _ _ (by unfold Reg.SEQ_STATUS Reg.TDBG_SEPIA_STAT; omega))
  unfold State.seqFault
  rw [if_neg (by simp [hs])]
  dsimp only
  split
  · rw [hfreeze, hirq, hbufs, hpend, hrec, State.seqState_setSeqState hp (by decide)]
  · rw [hirq, hbufs, hpend, hrec, State.seqState_setSeqState hp (by decide)]

/-- The fill of a period faults the stream, or leaves its state and its pending STOP. -/
theorem State.fillNext_cases (hp : p ∈ allParts) (hs : s.stopped p = false) (errs : List ReadErr) :
    (s.fillNext errs p).seqState p = seqFaulted ∨
      (s.fillNext errs p).seqState p = s.seqState p ∧ ((s.fillNext errs p).sq p).stopPend = (s.sq p).stopPend := by
  have hst (x : State) (i n : Nat) : (x.fetch errs p i n).1.seqState p = x.seqState p :=
    State.seqState_of_rd (State.rd_fetch (streamReg_SEQ_STATUS hp) hp ..)
  have hstop (x : State) (i n : Nat) : (x.fetch errs p i n).1.stopped p = x.stopped p :=
    State.stopped_of_rd (State.rd_fetch (streamReg_SEQ_STATUS hp) hp ..)
  unfold State.fillNext
  dsimp only
  generalize (if bType ((s.fetch errs p (s.sq p).nxt.idx 1).2.2.headD 0#512) = bMark then
    ctlB ((s.fetch errs p (s.sq p).nxt.idx 1).2.2.headD 0#512) 0 18 + 1 else 1) = n
  split_ifs
  · exact .inl (State.seqState_seqFault hp hs ..)
  · exact .inl (State.seqState_seqFault hp (by rw [hstop, hs]) ..)
  · exact .inr ⟨by rw [State.seqState_setSq, hst], by rw [State.sq_setSq, State.sq_fetch]⟩
  · exact .inl (State.seqState_seqFault hp (by rw [hstop, hs]) ..)
  · exact .inl (State.seqState_seqFault hp (by rw [hstop, hstop, hs]) ..)
  · exact .inr ⟨by rw [State.seqState_setSq, hst, hst], by rw [State.sq_setSq, State.sq_fetch, State.sq_fetch]⟩

theorem Seq.stopPend_of_quiet {q q' : Seq} {l : List Bool} {b : Bool} (h : { q with annQ := l, announced := b } = q') :
    q.stopPend = q'.stopPend := by rw [← h]

theorem State.sq_launches (m : SMap Nat) (j : Nat) : ({ s with launches := m } : State).sq j = s.sq j := rfl
theorem State.sq_setLake (i : Nat) (x : Lake) (j : Nat) : (s.setLake i x).sq j = s.sq j := rfl

/-- R166: a STOP that has not taken effect stays pending. -/
theorem State.stopPend_runClear (p : Nat) : ((s.runClear p).sq p).stopPend = s.flag (Reg.SEQ_CTRL p) Fld.SEQ_CTRL_STOP := by
  have hreg : ((s.abandonIfFaulted p).settleStream p).rd (Reg.SEQ_CTRL p) = s.rd (Reg.SEQ_CTRL p) :=
    State.rd_of_kept (φ := allBut [.cores, .seqs])
      (State.settleStream_kept _ (State.abandonIfFaulted_kept _ (Kept.refl _ _) rfl rfl) rfl rfl) rfl _
  unfold State.runClear
  dsimp only
  rw [State.sq_setUp, Seq.stopPend_of_quiet (State.sq_lostCheck p), State.sq_launches, State.sq_setLake, State.sq_fput, State.sq_fput,
    State.sq_fput, State.sq_fput, State.sq_setSq, State.flag_of_rd hreg]

theorem State.rd_latchScalars (j b : Nat) : (s.latchScalars j).rd b = s.rd b := rfl
theorem State.sq_latchScalars (i j : Nat) : (s.latchScalars i).sq j = s.sq j := rfl

/-- RUN at its state's record: what it clears is cleared, and the stream is loading. -/
def State.runCleared (s : State) (p : Nat) : State := (((s.runClear p).setSeqState p seqLoading).settleRings p true).latchScalars p

theorem State.runFetch_eq (errs : List ReadErr) : s.runFetch p errs =
    ((s.runCleared p).writeState p 0 ((((s.runClear p).setSeqState p seqLoading).settleRings p true).rn (Reg.UPD_GNORM_SQ p))).fetch
      errs p 0 33 := by
  unfold State.runFetch State.runCleared
  dsimp only

theorem State.seqState_runCleared (hp : p ∈ allParts) : (s.runCleared p).seqState p = seqLoading := by
  unfold State.runCleared
  rw [State.seqState_of_rd (State.rd_latchScalars ..), State.seqState_of_rd (State.rd_settleRings (by unfold Reg.SEQ_STATUS; omega) _),
    State.seqState_setSeqState hp (by decide)]

theorem State.sq_settleRings (keep : Bool) (j : Nat) : (s.settleRings p keep).sq j = s.sq j :=
  State.sq_of_kept (φ := allBut [.regs, .ringAdv]) (State.settleRings_kept _ _ (Kept.refl _ _) rfl rfl) rfl j
theorem State.sq_writeState (dec g j : Nat) : (s.writeState p dec g).sq j = s.sq j :=
  State.sq_of_kept (φ := allBut [.mem, .keys, .regs, .out, .poison, .channels, .upds, .haltReq])
    (State.writeState_kept _ _ _ (Kept.refl _ _) rfl rfl rfl rfl rfl rfl rfl rfl) rfl j

theorem State.sq_runCleared (p : Nat) : (s.runCleared p).sq p = (s.runClear p).sq p := by
  unfold State.runCleared
  rw [State.sq_latchScalars, State.sq_settleRings, State.sq_setSeqState]

/-- A record and a fetch leave a stream's state. -/
theorem State.seqState_writeState_fetch (hp : p ∈ allParts) (errs : List ReadErr) (g n : Nat) :
    ((s.writeState p 0 g).fetch errs p 0 n).1.seqState p = s.seqState p := by
  have hst := streamReg_SEQ_STATUS hp
  rw [State.seqState_of_rd (State.rd_fetch hst hp ..),
    State.seqState_of_rd (State.rd_writeState hst (by unfold Reg.SEQ_STATUS; omega) hp ..)]

/-- RUN before its first period is filled: the stream is loading, and the STOP that is pending stays. -/
theorem State.seqState_runFetch (hp : p ∈ allParts) (errs : List ReadErr) : (s.runFetch p errs).1.seqState p = seqLoading := by
  rw [State.runFetch_eq, State.seqState_writeState_fetch hp, State.seqState_runCleared hp]
theorem State.stopPend_runFetch (errs : List ReadErr) :
    ((s.runFetch p errs).1.sq p).stopPend = s.flag (Reg.SEQ_CTRL p) Fld.SEQ_CTRL_STOP := by
  rw [State.runFetch_eq, State.sq_fetch, State.sq_writeState, State.sq_runCleared, State.stopPend_runClear]

theorem State.sq_loadGroups (g : List Byte) (j : Nat) : (s.loadGroups p g).sq j = s.sq j :=
  State.sq_of_kept (φ := allBut [.regs]) (State.loadGroups_kept _ _ (Kept.refl _ _) rfl) rfl j

theorem State.not_stopped_of_loading (h : s.seqState p = seqLoading) : s.stopped p = false := by
  unfold State.stopped
  rw [h]
  rfl

/-- The loop counters of a snapshot are put into their registers. -/
theorem State.keeps_loops (x : State) (v : Nat → Nat) :
    ((List.range 4).foldl (fun s n => s.wn (Reg.SEQ_LOOP p n) (v n)) x).seqState p = x.seqState p ∧
      ((List.range 4).foldl (fun s n => s.wn (Reg.SEQ_LOOP p n) (v n)) x).sq p = x.sq p :=
  ⟨State.seqState_of_rd (State.rd_foldl (fun y n => State.rd_wn_ne _ (by unfold Reg.SEQ_STATUS Reg.SEQ_LOOP; omega)) _),
    State.sq_of_kept (φ := allBut [.regs]) (kept_foldl (Kept.refl _ x) fun _ _ h => State.wn_kept _ _ h rfl) rfl p⟩

/-- The first period's fill faults the stream, or leaves it loading. -/
theorem State.runFill_cases (hp : p ∈ allParts) (hs : s.seqState p = seqLoading) (armed : Bool) (errs : List ReadErr) (l : List Bundle) :
    (s.runFill p armed errs l).seqState p = seqFaulted ∨
      (s.runFill p armed errs l).seqState p = seqLoading ∧ ((s.runFill p armed errs l).sq p).stopPend = (s.sq p).stopPend := by
  unfold State.runFill
  dsimp only
  generalize hx : (if armed = true then _ else s.loadGroups p (imageGroups l)) = x
  have hxs : x.seqState p = seqLoading ∧ x.sq p = s.sq p := by
    have hload : (s.loadGroups p (imageGroups l)).seqState p = seqLoading := by rw [State.seqState_loadGroups, hs]
    subst hx
    split
    · exact ⟨(State.keeps_loops ..).1.trans hload, (State.keeps_loops ..).2.trans (State.sq_loadGroups ..)⟩
    · exact ⟨hload, State.sq_loadGroups ..⟩
  obtain ⟨hst, hsq⟩ := hxs
  have hfill (q : Seq) := State.fillNext_cases (s := x.setSq p q) hp
    (State.not_stopped_of_loading ((State.seqState_setSq ..).trans hst)) errs
  refine (hfill _).imp_right fun ⟨h1, h2⟩ => ⟨h1.trans ((State.seqState_setSq ..).trans hst), h2.trans ?_⟩
  rw [State.sq_setSq, hsq]

theorem seqRun_gives {r : RegReq} (errs : List ReadErr) (hp : p ∈ allParts) (hg : s.grants r (Reg.SEQ_CTRL p) = true)
    (hs : s.stopped p = true) : Gives (.seqRun r p errs) s fun t =>
      let armed := s.flag (Reg.CKP_STATUS p) Fld.CKP_STATUS_RESUME_ARMED
      let x := s.runFetch p errs
      let s3 := x.1
      let l := x.2.2
      t.seqState p =
        if x.2.1 = 0 ∧ s3.headerOk p (imageHeader l) = true ∧ s3.groupsOk p (imageGroups l) = true ∧
          (s3.runFill p armed errs l).stopped p = false then
          (if s.flag (Reg.SEQ_CTRL p) Fld.SEQ_CTRL_STOP = true then seqStopped else seqGateWait) else seqFaulted := by
  have hload := State.seqState_runFetch (s := s) hp errs
  have hpend := State.stopPend_runFetch (s := s) (p := p) errs
  have hfault := fun (code : Nat) => State.seqState_seqFault hp (State.not_stopped_of_loading hload) code 0xFF 15 0
  have hfill := State.runFill_cases hp hload (s.flag (Reg.CKP_STATUS p) Fld.CKP_STATUS_RESUME_ARMED) errs (s.runFetch p errs).2.2
  refine ⟨_, rfl, ?_⟩
  rw [State.write_of_grants _ hg]
  unfold State.seqRun
  rw [if_neg (show ¬ (!s.stopped p) = true by simp [hs])]
  dsimp only
  generalize s.runFetch p errs = x at hload hpend hfault hfill ⊢
  generalize x.1.runFill p _ errs x.2.2 = s7 at hfill ⊢
  by_cases hc : x.2.1 = 0
  · rw [if_neg (show ¬ x.2.1 ≠ 0 from not_not.mpr hc)]
    by_cases hh : x.1.headerOk p (imageHeader x.2.2) = true
    · rw [if_neg (show ¬ (!x.1.headerOk p (imageHeader x.2.2)) = true by simp [hh])]
      by_cases hgr : x.1.groupsOk p (imageGroups x.2.2) = true
      · rw [if_neg (show ¬ (!x.1.groupsOk p (imageGroups x.2.2)) = true by simp [hgr])]
        rcases hfill with hf | ⟨hl, hst⟩
        · have hs7 : s7.stopped p = true := by simp [State.stopped, hf]
          rw [if_pos hs7, hf]
          exact (if_neg (by simp [hs7])).symm
        · have hs7 := State.not_stopped_of_loading hl
          rw [if_neg (show ¬ s7.stopped p = true by simp [hs7]), hst, hpend]
          refine Eq.trans ?_ (if_pos ⟨hc, hh, hgr, hs7⟩).symm
          split
          · exact State.seqState_enterStopped hp
          · rw [State.seqState_of_rd (State.rd_wn_ne _ (by unfold Reg.SEQ_STATUS Reg.SEQ_PC; omega)),
              State.seqState_setSeqState hp (by decide)]
      · rw [if_pos (show (!x.1.groupsOk p (imageGroups x.2.2)) = true by simp [hgr]), hfault]
        exact (if_neg fun h => hgr h.2.2.1).symm
    · rw [if_pos (show (!x.1.headerOk p (imageHeader x.2.2)) = true by simp [hh]), hfault]
      exact (if_neg fun h => hh h.2.1).symm
  · rw [if_pos (show x.2.1 ≠ 0 from hc), hfault]
    exact (if_neg fun h => hc h.1).symm

end

/-- Settles O32: each row by its own lemma. RUN loads or faults, and its last state is that of its fill; the other rows are one step of the
stream's control. -/
theorem streamRowsComplete : Obligations.StreamRowsComplete := by
  refine ⟨?_, ?_, ?_, ?_, ?_, ?_, ?_, ?_⟩
  · intro s r p errs hp hg hs
    exact seqRun_gives errs hp hg hs
  · intro s r p hp hg
    exact ⟨seqCont_gives hp hg, seqStop_running hp hg, seqStop_gateWait hp hg, seqResume_gives hp hg⟩
  · intro s p errs _ hs hh hready hi hends htag
    exact periodFill_gives errs hs hh hready hi hends htag
  · intro s p h hm
    exact gateWait_gives h hm
  · intro s p h hm
    exact gateOpen_gives h hm
  · intro s p _ hs hh hlate hl
    exact schedLost_gives hs hh hlate hl
  · intro s r p v _ hg
    exact catchupLimitWrite_gives v hg
  · intro s r p k v hp hk hg hs
    exact fmtTableWrite_gives v hp hk hg hs

end Sys2Proof.Machine

/-! The rows of lateness announcements: the sample of a tray-bus frame, the LOST that repeats, an announcement that has come in and the
holds that run out, and the statement settled with them. A row that goes through the partitions does so one after another; what it does to
one of them is read off the step of that partition, which the steps of the others neither reach nor feed. -/

namespace Sys2Proof.Machine

section
variable {s t : State} {p j : Nat}

/-- A pass over partitions, one step each: what holds before the step of `p` (`B`) and what that step brings about (`A`), where the steps of
the others keep both. -/
theorem foldl_part {g : State → Nat → State} {l : List Nat} {B A : State → Prop} (hl : l.Nodup) (hp : p ∈ l)
    (hB : ∀ t j, j ≠ p → B t → B (g t j)) (hstep : ∀ t, B t → A (g t p)) (hA : ∀ t j, j ≠ p → A t → A (g t j)) (h : B s) :
    A (l.foldl g s) := by
  obtain ⟨before, after, rfl⟩ := List.append_of_mem hp
  have hn : p ∉ before ++ after := (List.nodup_middle.mp hl).notMem
  have hother : ∀ j ∈ before ++ after, j ≠ p := fun j hj e => hn (e ▸ hj)
  rw [List.foldl_append, List.foldl_cons]
  have hbefore : B (before.foldl g s) := List.foldlRecOn (motive := B) before g h fun t ht j hj =>
    hB t j (hother j (List.mem_append_left _ hj)) ht
  exact List.foldlRecOn (motive := A) after g (hstep _ hbefore) fun t ht j hj => hA t j (hother j (List.mem_append_right _ hj)) ht

theorem allParts_nodup : allParts.Nodup := by decide

/-! ## The sample of a frame (R192, R205, R744) -/

@[simp] theorem State.sq_setTray (x : Tray) : (s.setTray x).sq p = s.sq p := (rfl)
@[simp] theorem State.rd_setTray (x : Tray) (a : Nat) : (s.setTray x).rd a = s.rd a := (rfl)
@[simp] theorem State.now_setTray (x : Tray) : (s.setTray x).now = s.now := rfl
@[simp] theorem State.tray_setTray (x : Tray) : (s.setTray x).tray = x := rfl

/-- The entry of partition `p` in the next own frame, with `STATE` `st` (R193). -/
def State.annEntry (s : State) (p st tag : Nat) : Nat × Nat × Nat × Nat := (p, st, tag, min 0xFFFF (s.rn (Reg.SEQ_LATE p) / 1024))

@[simp] theorem State.sq_announce (st : Nat) : (s.announce p st).sq j = s.sq j := State.sq_setTray _
@[simp] theorem State.rd_announce (st a : Nat) : (s.announce p st).rd a = s.rd a := State.rd_setTray ..
@[simp] theorem State.now_announce (st : Nat) : (s.announce p st).now = s.now := State.now_setTray _

theorem State.annEntry_of_late (h : t.rd (Reg.SEQ_LATE p) = s.rd (Reg.SEQ_LATE p)) (st tag : Nat) :
    t.annEntry p st tag = s.annEntry p st tag := by unfold State.annEntry; rw [State.rn_of_rd h]
theorem State.annEntry_setSq (q : Seq) (st tag : Nat) : (s.setSq j q).annEntry p st tag = s.annEntry p st tag :=
  State.annEntry_of_late (State.rd_setSq ..) st tag

theorem State.mem_anns_announce (st : Nat) : s.annEntry p st (s.sq p).tag ∈ (s.announce p st).tray.anns :=
  List.mem_append_right _ (List.mem_singleton.mpr rfl)

/-- An announcement takes the place of one of its own partition alone. -/
theorem State.mem_anns_announce_of_ne {x : Nat × Nat × Nat × Nat} (st : Nat) (hx : x.1 ≠ j) (h : x ∈ s.tray.anns) :
    x ∈ (s.announce j st).tray.anns :=
  List.mem_append_left _ (List.mem_filter.mpr ⟨h, by simpa using hx⟩)

theorem State.sq_setAnnQ_ne (l : List Bool) (b : Bool) (h : p ≠ j) : (s.setAnnQ j l b).sq p = s.sq p := by
  unfold State.setAnnQ
  rw [State.sq_fput, State.sq_setSq_ne _ _ h]
theorem State.rd_setAnnQ {a : Nat} (l : List Bool) (b : Bool) (h : a ≠ Reg.SEQ_LATE_STAT j) : (s.setAnnQ j l b).rd a = s.rd a := by
  unfold State.setAnnQ
  rw [State.rd_fput_ne (h := h), State.rd_setSq]
@[simp] theorem State.now_setAnnQ (l : List Bool) (b : Bool) : (s.setAnnQ j l b).now = s.now := by
  unfold State.setAnnQ; rw [State.fput_now, State.setSq_now]
@[simp] theorem State.tray_setAnnQ (l : List Bool) (b : Bool) : (s.setAnnQ j l b).tray = s.tray := by
  unfold State.setAnnQ; rw [State.fput_tray, State.setSq_tray]

/-- `t` differs from `s` by nothing that the sample of `p` reads. -/
structure State.SampleAlike (s t : State) (p : Nat) : Prop where
  now : t.now = s.now
  sq : t.sq p = s.sq p
  tag : t.rd (Reg.SEQ_ANN_TAG p) = s.rd (Reg.SEQ_ANN_TAG p)
  late : t.rd (Reg.SEQ_LATE p) = s.rd (Reg.SEQ_LATE p)

theorem State.SampleAlike.refl : s.SampleAlike s p := ⟨Eq.refl _, Eq.refl _, Eq.refl _, Eq.refl _⟩

/-- The sample of another partition moves nothing that the sample of `p` reads, and none of its announcements. -/
theorem State.annSample_other (h : j ≠ p) :
    s.SampleAlike (s.annSample j) p ∧ ∀ x ∈ s.tray.anns, x.1 = p → x ∈ (s.annSample j).tray.anns := by
  have hsq : ∀ (u : State) (q : Seq), (u.setSq j q).sq p = u.sq p := fun u q => State.sq_setSq_ne _ q h.symm
  have htag : Reg.SEQ_ANN_TAG p ≠ Reg.SEQ_LATE_STAT j := by unfold Reg.SEQ_ANN_TAG Reg.SEQ_LATE_STAT vf; omega
  have hlate : Reg.SEQ_LATE p ≠ Reg.SEQ_LATE_STAT j := by unfold Reg.SEQ_LATE Reg.SEQ_LATE_STAT vf; omega
  unfold State.annSample
  dsimp only
  split
  · exact ⟨⟨State.setSq_now .., hsq .., State.rd_setSq .., State.rd_setSq ..⟩, fun x hx _ => by rwa [State.setSq_tray]⟩
  · constructor
    · split <;> constructor <;> simp [hsq, State.sq_setAnnQ_ne _ _ h.symm, State.rd_setAnnQ, htag, hlate]
    · intro x hx hxp
      have hin := State.mem_anns_announce_of_ne
        (s := s.setSq j { s.sq j with tag := s.fget (Reg.SEQ_ANN_TAG j) Fld.SEQ_ANN_TAG_TAG }) (j := j)
        (b2n ((s.sq j).annQ.contains true)) (fun e => h (e.symm.trans hxp)) (by rwa [State.setSq_tray])
      split <;> simpa using hin

/-- What the sample of a partition with a tag and announcements that wait (`q`) leaves: the first LOST, or else the first CLEAR, is in the
next own frame and waits no more. -/
structure State.Sampled (s t : State) (p : Nat) (q : Seq) (job : Nat) : Prop where
  tag : (t.sq p).tag = job
  annQ : (t.sq p).annQ = q.annQ.erase (q.annQ.contains true)
  annTime : (t.sq p).annTime = if q.annQ.contains true = true then s.now else q.annTime
  anns : s.annEntry p (b2n (q.annQ.contains true)) job ∈ t.tray.anns

theorem State.annSample_due (htag : s.fget (Reg.SEQ_ANN_TAG p) Fld.SEQ_ANN_TAG_TAG ≠ 0) (hq : (s.sq p).annQ ≠ []) :
    s.Sampled (s.annSample p) p (s.sq p) (s.fget (Reg.SEQ_ANN_TAG p) Fld.SEQ_ANN_TAG_TAG) := by
  have hin := State.mem_anns_announce (s := s.setSq p { s.sq p with tag := s.fget (Reg.SEQ_ANN_TAG p) Fld.SEQ_ANN_TAG_TAG }) (p := p)
    (b2n ((s.sq p).annQ.contains true))
  rw [State.annEntry_setSq, State.sq_setSq] at hin
  unfold State.annSample
  simp only [State.sq_setSq, htag, hq, or_self, if_false]
  split
  · next hlost =>
    exact ⟨by simp [State.sq_setAnnQ], by simp [State.sq_setAnnQ], by rw [State.sq_setSq, if_pos hlost],
      by rwa [State.setSq_tray, State.tray_setAnnQ]⟩
  · next hlost =>
    exact ⟨by simp [State.sq_setAnnQ], by simp [State.sq_setAnnQ],
      by rw [State.sq_setAnnQ, State.sq_announce, State.sq_setSq, if_neg hlost], by rwa [State.tray_setAnnQ]⟩

theorem State.Sampled.of_alike {u : State} {q : Seq} {tag : Nat} (h : u.Sampled t p q tag) (ha : s.SampleAlike u p) :
    s.Sampled t p q tag :=
  ⟨h.tag, h.annQ, ha.now ▸ h.annTime, State.annEntry_of_late ha.late .. ▸ h.anns⟩

theorem State.Sampled.annSample_other {q : Seq} {tag : Nat} (h : s.Sampled t p q tag) (hj : j ≠ p) :
    s.Sampled (t.annSample j) p q tag := by
  obtain ⟨ha, hanns⟩ := State.annSample_other (s := t) hj
  exact ⟨ha.sq ▸ h.tag, ha.sq ▸ h.annQ, ha.sq ▸ h.annTime, hanns _ h.anns rfl⟩

theorem State.SampleAlike.annSample_other (h : s.SampleAlike t p) (hj : j ≠ p) : s.SampleAlike (t.annSample j) p := by
  obtain ⟨ha, -⟩ := State.annSample_other (s := t) hj
  exact ⟨ha.now.trans h.now, ha.sq.trans h.sq, ha.tag.trans h.tag, ha.late.trans h.late⟩

theorem State.annSamples_due (hp : p ∈ allParts) (htag : s.fget (Reg.SEQ_ANN_TAG p) Fld.SEQ_ANN_TAG_TAG ≠ 0)
    (hq : (s.sq p).annQ ≠ []) :
    s.Sampled (allParts.foldl State.annSample s) p (s.sq p) (s.fget (Reg.SEQ_ANN_TAG p) Fld.SEQ_ANN_TAG_TAG) := by
  refine foldl_part (B := fun t => s.SampleAlike t p)
    (A := fun t => s.Sampled t p (s.sq p) (s.fget (Reg.SEQ_ANN_TAG p) Fld.SEQ_ANN_TAG_TAG)) allParts_nodup hp
    (fun t j hj h => h.annSample_other hj) ?_ (fun t j hj h => h.annSample_other hj) State.SampleAlike.refl
  intro t h
  have ht : t.fget (Reg.SEQ_ANN_TAG p) Fld.SEQ_ANN_TAG_TAG = s.fget (Reg.SEQ_ANN_TAG p) Fld.SEQ_ANN_TAG_TAG := State.fget_of_rd h.tag
  have hdue := State.annSample_due (ht ▸ htag) (h.sq ▸ hq)
  rw [ht, h.sq] at hdue
  exact hdue.of_alike h

/-! ## The LOST that repeats (R192) -/

theorem State.annRepeat_due (hann : (s.sq p).announced = true) (hq : (s.sq p).annQ.contains true = false)
    (hlost : s.flag (Reg.SEQ_LATE_STAT p) Fld.SEQ_LATE_STAT_LOST = true) (htime : (s.sq p).annTime + 100000 ≤ s.now)
    (htag : (s.sq p).tag ≠ 0) : s.annRepeat p = (s.announce p 1).setSq p { s.sq p with annTime := s.now } := by
  unfold State.annRepeat
  dsimp only
  rw [if_neg (by simp [hann, hlost, htag, Nat.not_lt.mpr htime, -List.contains_eq_mem, hq])]

/-! ## Holds on a peer's lateness (R194) -/

@[simp] theorem State.holds_setHolds (l : List PeerHold) : ((s.setHolds p l).sq p).holds = l := by
  unfold State.setHolds
  rw [State.sq_fput, State.sq_setSq]
theorem State.sq_setHolds_ne (l : List PeerHold) (h : p ≠ j) : (s.setHolds j l).sq p = s.sq p := by
  unfold State.setHolds
  rw [State.sq_fput, State.sq_setSq_ne _ _ h]
theorem State.tag_setHolds (l : List PeerHold) : ((s.setHolds j l).sq p).tag = (s.sq p).tag := by
  by_cases h : p = j
  · subst h; unfold State.setHolds; rw [State.sq_fput, State.sq_setSq]
  · rw [State.sq_setHolds_ne _ h]

/-- `t` differs from `s` in holds and in what its registers show of them: the time, the tray bus and the tags in force are the same. -/
structure State.HoldsAlike (s t : State) : Prop where
  now : t.now = s.now
  tray : t.tray = s.tray
  tag : ∀ p, (t.sq p).tag = (s.sq p).tag

theorem State.HoldsAlike.refl : s.HoldsAlike s := ⟨Eq.refl _, Eq.refl _, fun _ => Eq.refl _⟩
theorem State.HoldsAlike.trans {u : State} (h : s.HoldsAlike t) (h' : t.HoldsAlike u) : s.HoldsAlike u :=
  ⟨h'.now.trans h.now, h'.tray.trans h.tray, fun p => (h'.tag p).trans (h.tag p)⟩
theorem State.setHolds_alike (l : List PeerHold) : s.HoldsAlike (s.setHolds j l) := by
  unfold State.setHolds
  exact ⟨by rw [State.fput_now, State.setSq_now], by rw [State.fput_tray, State.setSq_tray], fun _ => State.tag_setHolds l⟩
theorem State.wr_alike (a : Nat) (w : Word) : s.HoldsAlike (s.wr a w) :=
  ⟨State.wr_now .., State.wr_tray .., fun _ => by rw [State.sq_wr]⟩
theorem State.HoldsAlike.foldl {g : State → Nat → State} (hg : ∀ (t : State) (j : Nat), t.HoldsAlike (g t j)) (l : List Nat) :
    s.HoldsAlike (l.foldl g s) :=
  List.foldlRecOn (motive := s.HoldsAlike) l g State.HoldsAlike.refl fun t h j _ => h.trans (hg t j)

theorem State.applyAnn_alike (a : Ann) : s.HoldsAlike (s.applyAnn a j) := by
  unfold State.applyAnn
  dsimp only
  split
  · exact State.HoldsAlike.refl
  · split
    · exact State.setHolds_alike _
    · exact ((State.setHolds_alike _).trans (State.wr_alike ..)).trans (State.wr_alike ..)

/-- An announcement acts on the holds of its own partition alone. -/
theorem State.sq_applyAnn_ne (a : Ann) (h : p ≠ j) : (s.applyAnn a j).sq p = s.sq p := by
  unfold State.applyAnn
  dsimp only
  split
  · rfl
  · split
    · exact State.sq_setHolds_ne _ h
    · rw [State.sq_wr, State.sq_wr, State.sq_setHolds_ne _ h]

/-- A LOST that bears the partition's tag, and whose 2 ms have not passed, holds. -/
theorem State.mem_holds_applyAnn {a : Ann} (hlost : a.lost = true) (ha : a.tag ≠ 0) (htag : (s.sq p).tag = a.tag)
    (htime : s.now < a.time + 200000) : (⟨a.node, a.endp, a.time + 200000⟩ : PeerHold) ∈ ((s.applyAnn a p).sq p).holds := by
  unfold State.applyAnn
  dsimp only
  rw [if_neg (by simp [htag, ha]), if_neg (by simp [hlost, htime]), State.sq_wr, State.sq_wr, State.holds_setHolds]
  exact List.mem_append_right _ (List.mem_singleton.mpr rfl)

/-- An announcement that has come in is applied to each partition in turn, once it is off the list and a hold of another sender may have
given way. -/
theorem State.annReceived_cons {a : Ann} {rest : List Ann} (h : s.tray.inAnn = a :: rest) :
    ∃ u, (s.setTray { s.tray with inAnn := rest }).HoldsAlike u ∧
      s.annReceived = allParts.foldl (fun (s : State) p => s.applyAnn a p) u := by
  unfold State.annReceived
  rw [h]
  refine ⟨_, ?_, rfl⟩
  split
  · split
    · refine State.HoldsAlike.foldl (fun t j => ?_) allParts
      split
      · exact State.setHolds_alike _
      · exact State.HoldsAlike.refl
    · exact State.HoldsAlike.refl
  · exact State.HoldsAlike.refl

theorem State.mem_holds_foldl_applyAnn {a : Ann} (hp : p ∈ allParts) (hlost : a.lost = true) (ha : a.tag ≠ 0)
    (htag : (s.sq p).tag = a.tag) (htime : s.now < a.time + 200000) :
    (⟨a.node, a.endp, a.time + 200000⟩ : PeerHold) ∈ ((allParts.foldl (fun (s : State) p => s.applyAnn a p) s).sq p).holds :=
  foldl_part (B := s.HoldsAlike) (A := fun t => (⟨a.node, a.endp, a.time + 200000⟩ : PeerHold) ∈ (t.sq p).holds) allParts_nodup hp
    (fun _ _ _ h => h.trans (State.applyAnn_alike a))
    (fun _ h => State.mem_holds_applyAnn hlost ha ((h.tag p).trans htag) (h.now.symm ▸ htime))
    (fun _ _ hj h => by rwa [State.sq_applyAnn_ne a hj.symm]) State.HoldsAlike.refl

/-- A hold that is left has time left. -/
theorem State.mem_holds_holdExpire {h : PeerHold} (hm : h ∈ ((s.holdExpire p).sq p).holds) : s.now < h.expires ∧ h ∈ (s.sq p).holds := by
  unfold State.holdExpire at hm
  split at hm
  · rw [State.holds_setHolds, List.mem_filter] at hm
    exact ⟨of_decide_eq_true hm.2, hm.1⟩
  · next hnone =>
    simp only [List.any_eq_true, decide_eq_true_eq, not_exists, not_and, Nat.not_le] at hnone
    exact ⟨hnone h hm, hm⟩

end

/-- Settles O25: the sample by `State.annSamples_due`, the repeat by `State.annRepeat_due`, an announcement that has come in by
`State.annReceived_cons`, and the holds that are left by `State.mem_holds_holdExpire`. A LOST goes before each CLEAR that waits (R744), also
before one of an earlier episode (log entry 43). -/
theorem announcementRowsComplete : Obligations.AnnouncementRowsComplete := by
  refine ⟨?_, ?_, ?_, ?_⟩
  · intro s p hp htag hq
    obtain ⟨htag', hannQ, hannTime, hanns⟩ := State.annSamples_due hp htag hq
    exact ⟨_, rfl, htag', hannQ, hannTime, hanns⟩
  · intro s p hann hq hlost htime htag
    refine ⟨_, rfl, ?_⟩
    rw [State.annRepeat_due hann hq hlost htime htag]
    exact ⟨by rw [State.sq_setSq], by rw [State.setSq_tray]; exact State.mem_anns_announce 1⟩
  · intro s a rest p hin hp hlost ha htag htime
    obtain ⟨u, hu, hrec⟩ := State.annReceived_cons hin
    refine ⟨_, rfl, ?_⟩
    rw [hrec]
    constructor
    · rw [(State.HoldsAlike.foldl (fun _ _ => State.applyAnn_alike a) allParts).tray, hu.tray, State.tray_setTray]
    · exact State.mem_holds_foldl_applyAnn hp hlost ha ((hu.tag p).trans (by rwa [State.sq_setTray])) (hu.now.symm ▸ htime)
  · intro s p
    exact ⟨_, rfl, fun _ hm => State.mem_holds_holdExpire hm⟩

end Sys2Proof.Machine

/-! The rows of ring registers: what a write of an index that fits, of the control register and of a configuration that fits leaves, and
the statement settled with them (R231 to R233, R247 to R250). -/

namespace Sys2Proof.Machine

section
variable {s : State} {p i v : Nat}

theorem State.rd_wn (a b v : Nat) : (s.wn b v).rd a = if a = b then BitVec.ofNat 32 v else s.rd a := by
  split
  · next h => rw [h]; exact State.rd_wr ..
  · next h => exact State.rd_wn_ne _ h

/-- R231, R232: a producer index of a ring of the host that leaves the ring no fuller than its size. -/
theorem State.ringProdW_of_fits (hk : (s.ring p i).kind = 1) (he : (s.ring p i).eod = false)
    (hf : (s.rn (Reg.SEQ_RING_PROD p i) + 4294967296 - s.rn (Reg.SEQ_RING_CONS p i)) % 4294967296 +
      (v + 4294967296 - s.rn (Reg.SEQ_RING_PROD p i)) % 4294967296 ≤ (s.ring p i).n) :
    s.ringProdW p i v = s.wn (Reg.SEQ_RING_PROD p i) v := by
  unfold State.ringProdW
  dsimp only
  rw [if_neg (not_not.mpr hk), if_neg]
  rintro (h | h)
  · simp [he] at h
  · exact absurd hf (Nat.not_le.mpr h)

/-- R232: a consumer index of a ring to the host that takes no more than the ring holds. -/
theorem State.ringConsW_of_fits (hk : (s.ring p i).kind = 2)
    (hf : (v + 4294967296 - s.rn (Reg.SEQ_RING_CONS p i)) % 4294967296 ≤
      (s.rn (Reg.SEQ_RING_PROD p i) + 4294967296 - s.rn (Reg.SEQ_RING_CONS p i)) % 4294967296) :
    s.ringConsW p i v = s.wn (Reg.SEQ_RING_CONS p i) v := by
  unfold State.ringConsW
  dsimp only
  rw [if_neg (not_not.mpr hk), if_neg (Nat.not_lt.mpr hf)]

theorem State.flag_ringEod : (s.ringEod p i).flag (Reg.SEQ_RING_CTRL p i) Fld.SEQ_RING_CTRL_EOD = true :=
  State.flag_fput_one rfl (by decide)

/-- The registers of a ring that its reset clears. -/
def ringStateRegs (p i : Nat) : List Nat :=
  [Reg.SEQ_RING_PROD p i, Reg.SEQ_RING_CONS p i, Reg.SEQ_RING_CTRL p i, Reg.SEQ_RING_STAT p i]

/-- R233, R249: a reset of a ring whose stream has stopped. -/
theorem State.rd_ringReset (hs : s.stopped p = true) {a : Nat} (ha : a ∈ ringStateRegs p i) : (s.ringReset p i).rd a = 0 := by
  have hahead (t : State) : (t.setAhead p i 0).rd a = t.rd a := rfl
  rw [State.ringReset, if_pos hs, hahead]
  simp only [ringStateRegs, List.mem_cons, List.not_mem_nil, or_false] at ha
  simp only [State.rd_wn]
  rcases ha with h | h | h | h <;> simp [h]

/-- R233, R248: a configuration of a ring that fits, at a stream that has stopped, is a write by access codes. -/
theorem State.ringCfgW_of_fits {v : Word} (hs : s.stopped p = true) (hf : (s.regWrite (Reg.SEQ_RING_CFG p i) v).ringFits p i = true) :
    s.ringCfgW p i 2 v = s.regWrite (Reg.SEQ_RING_CFG p i) v := by
  have hreg : ringCfgReg p i 2 = Reg.SEQ_RING_CFG p i := rfl
  unfold State.ringCfgW
  dsimp only
  rw [hreg, if_neg (by simp [hs, hf])]

end

/-- Settles O42: the index writes by `State.ringProdW_of_fits` and `State.ringConsW_of_fits`, the control register by `State.flag_ringEod`
and `State.rd_ringReset`, the configuration by `State.ringCfgW_of_fits`. -/
theorem ringRowsComplete : Obligations.RingRowsComplete := by
  unfold Obligations.RingRowsComplete
  intro s r p core ring _ _ _
  refine ⟨?prodWrite, ?consWrite, ?eod, ?reset, ?cfgWrite⟩
  case prodWrite =>
    intro v hg hk he hf
    refine ⟨_, rfl, ?_⟩
    rw [State.write_of_grants _ hg, State.ringProdW_of_fits hk he hf]
    exact State.rn_wn ..
  case consWrite =>
    intro v hg hk hf
    refine ⟨_, rfl, ?_⟩
    rw [State.write_of_grants _ hg, State.ringConsW_of_fits hk hf]
    exact State.rn_wn ..
  case eod =>
    intro hg
    refine ⟨_, rfl, ?_⟩
    rw [State.write_of_grants _ hg]
    exact State.flag_ringEod
  case reset =>
    intro hg hs
    refine ⟨_, rfl, ?_⟩
    rw [State.write_of_grants _ hg]
    have hrd {a : Nat} (ha : a ∈ ringStateRegs p (ringIdx core ring)) := State.rd_ringReset hs ha
    simp only [State.rn, State.flag, State.fget]
    rw [hrd (a := Reg.SEQ_RING_PROD p _) (by simp [ringStateRegs]), hrd (a := Reg.SEQ_RING_CONS p _) (by simp [ringStateRegs]),
      hrd (a := Reg.SEQ_RING_STAT p _) (by simp [ringStateRegs]), hrd (a := Reg.SEQ_RING_CTRL p _) (by simp [ringStateRegs])]
    decide
  case cfgWrite =>
    intro v hg hs hf
    exact ⟨_, rfl, (State.write_of_grants _ hg).trans (State.ringCfgW_of_fits hs hf)⟩

end Sys2Proof.Machine

/-! The rows of core SRAM repair: what a scrub read counts, which spare a column test takes or whom it retires, what a verdict leaves of its
spare, and the statement settled with them (R238 to R246). -/

namespace Sys2Proof.Machine

section
variable {s t : State} {a c b m col k : Nat}

/-! ## Errors that are noted (R252, R254) -/

@[simp] theorem State.cores_bump (a : Nat) (f : Fld) (d : Nat) : (s.bump a f d).cores = s.cores := State.fput_cores ..
@[simp] theorem State.cores_setBits (a bits : Nat) : (s.setBits a bits).cores = s.cores := State.wr_cores ..
@[simp] theorem State.cores_irqDbg (f : Fld) : (s.irqDbg f).cores = s.cores :=
  (State.irqDbg_kept f (Kept.refl (allBut [.regs, .out]) s) rfl rfl).cores rfl

/-- A count for a partition, none where there is no partition, is no register and no part of the cores. -/
theorem State.count_unless_keeps (n ev unit core d : Nat) :
    Kept (allBut [.usage]) s (if n = 0 then s else s.count n ev unit core d) := by
  split
  · exact Kept.refl _ _
  · exact State.count_keeps ..

theorem State.rd_irqDbg_ne (f : Fld) (h : a ≠ Reg.DBG_INT_STATUS) : (s.irqDbg f).rd a = s.rd a := State.rd_irq_ne _ _ _ _ _ _ h

/-- R252: the most recent error stays as it was, or the two registers that show it and the note of its place are written. -/
theorem State.sramLast_cases (p phys bank mac col row port : Nat) (ue : Bool) :
    s.sramLast p phys bank mac col row port ue = s ∨ ∃ e lo hi, s.sramLast p phys bank mac col row port ue =
      (({ s with cores := { s.cores with lastErr := e } } : State).wr Reg.DBG_SRAM_LAST_LO lo).wr Reg.DBG_SRAM_LAST_HI hi :=
  (ite_eq_or_eq _ _ _).imp id fun h => ⟨_, _, _, h⟩

theorem State.rd_sramLast_ne (p phys bank mac col row port : Nat) (ue : Bool) (hlo : a ≠ Reg.DBG_SRAM_LAST_LO)
    (hhi : a ≠ Reg.DBG_SRAM_LAST_HI) : (s.sramLast p phys bank mac col row port ue).rd a = s.rd a := by
  obtain h | ⟨e, lo, hi, h⟩ := s.sramLast_cases p phys bank mac col row port ue
  · rw [h]
  · rw [h, State.rd_wr_ne _ _ hhi, State.rd_wr_ne _ _ hlo]
    rfl

theorem satAdd_lt (width x d : Nat) : satAdd width x d < 2 ^ width := by
  have hpos : 0 < 2 ^ width := Nat.two_pow_pos width
  unfold satAdd
  omega

theorem State.fget_bump (f : Fld) (d : Nat) (h : f.lo + f.width ≤ 32) :
    (s.bump a f d).fget a f = satAdd f.width (s.fget a f) d := by
  rw [State.bump, State.fget_fput _ _ _ _ h, Nat.mod_eq_of_lt (satAdd_lt ..)]

/-- The registers that show a corrected error, the count of its core apart. -/
def ceRegs : List Nat := [Reg.DBG_SRAM_STAT, Reg.DBG_SRAM_LAST_LO, Reg.DBG_SRAM_LAST_HI, Reg.DBG_INT_STATUS]

theorem State.rd_noteCe_ne (h : a ∉ ceRegs) (p phys bank mac col row port : Nat) :
    (s.noteCe p phys bank mac col row port).rd a = (s.bump (Reg.DBG_CE_COUNT phys) Fld.DBG_CE_COUNT_COUNT 1).rd a := by
  obtain ⟨hstat, hlo, hhi, hint⟩ : a ≠ Reg.DBG_SRAM_STAT ∧ a ≠ Reg.DBG_SRAM_LAST_LO ∧ a ≠ Reg.DBG_SRAM_LAST_HI ∧
    a ≠ Reg.DBG_INT_STATUS := by simpa [ceRegs] using h
  unfold State.noteCe
  dsimp only
  rw [State.rd_irqDbg_ne _ hint, State.rd_of_kept (State.count_unless_keeps ..) rfl,
    State.rd_sramLast_ne _ _ _ _ _ _ _ _ hlo hhi, State.rd_setBits_ne _ hstat]

theorem DBG_CE_COUNT_not_mem_ceRegs (hc : c < 136) : Reg.DBG_CE_COUNT c ∉ ceRegs := by
  simp only [ceRegs, List.mem_cons, List.not_mem_nil, or_false, Reg.DBG_CE_COUNT, Reg.DBG_SRAM_STAT, Reg.DBG_SRAM_LAST_LO,
    Reg.DBG_SRAM_LAST_HI, Reg.DBG_INT_STATUS]
  omega

/-- R237, R254: a corrected error counts in its core's counter, which no other record of it touches. -/
theorem State.fget_DBG_CE_COUNT_noteCe (hc : c < 136) (p bank mac col row port : Nat) :
    (s.noteCe p c bank mac col row port).fget (Reg.DBG_CE_COUNT c) Fld.DBG_CE_COUNT_COUNT =
      satAdd Fld.DBG_CE_COUNT_COUNT.width (s.fget (Reg.DBG_CE_COUNT c) Fld.DBG_CE_COUNT_COUNT) 1 := by
  rw [State.fget_of_rd (State.rd_noteCe_ne (DBG_CE_COUNT_not_mem_ceRegs hc) ..)]
  exact State.fget_bump _ _ (by decide)

theorem State.rd_columnError (phys bank mac col : Nat) : (s.columnError phys bank mac col).rd a = s.rd a := rfl

/-- A corrected error leaves the tests that run as they are. -/
theorem State.tests_sramLast (p phys bank mac col row port : Nat) (ue : Bool) :
    (s.sramLast p phys bank mac col row port ue).cores.tests = s.cores.tests := by
  obtain h | ⟨e, lo, hi, h⟩ := s.sramLast_cases p phys bank mac col row port ue
  · rw [h]
  · rw [h]
    rfl

theorem State.tests_noteCe (p phys bank mac col row port : Nat) :
    (s.noteCe p phys bank mac col row port).cores.tests = s.cores.tests := by
  unfold State.noteCe
  dsimp only
  rw [State.cores_irqDbg, (State.count_unless_keeps ..).cores rfl, State.tests_sramLast, State.cores_setBits, State.cores_bump]

theorem State.tests_noteFails (fails : List (List Nat)) : (s.noteFails c b m col fails).cores.tests = s.cores.tests := by
  have hrow (t : State) (l : List Nat) :
      (l.foldl (fun (s : State) row => s.noteCe 0 c b m col row 3) t).cores.tests = t.cores.tests := by
    induction l generalizing t with
    | nil => rfl
    | cons row l ih => rw [List.foldl_cons, ih, State.tests_noteCe]
  unfold State.noteFails
  induction fails generalizing s with
  | nil => rfl
  | cons l fails ih => rw [List.foldl_cons, ih, hrow]

/-! ## A scrub read (R238) -/

theorem State.scrubRead_clean (row w : Nat) : s.scrubRead c b m row w .clean = s := by
  unfold State.scrubRead
  exact ite_self _

/-- R237, R254: a bit that a scrub read corrects counts in its core's counter. -/
theorem State.fget_DBG_CE_COUNT_scrubRead (hc : c < 136) (h : s.flag Reg.DBG_SCRUB_CTRL Fld.DBG_SCRUB_CTRL_EN = true)
    (row w bit : Nat) : (s.scrubRead c b m row w (.corrected bit)).fget (Reg.DBG_CE_COUNT c) Fld.DBG_CE_COUNT_COUNT =
      satAdd Fld.DBG_CE_COUNT_COUNT.width (s.fget (Reg.DBG_CE_COUNT c) Fld.DBG_CE_COUNT_COUNT) 1 := by
  simp only [State.scrubRead, h, Bool.not_true, Bool.false_eq_true, if_false]
  rw [State.sramCe, State.fget_DBG_CE_COUNT_noteCe hc, State.fget_of_rd (State.rd_columnError ..)]

/-- R237: a word of a physical core stands as uncorrectable until it is written. -/
def State.markUe (s : State) (n : Nat) : State :=
  { s with cores := { s.cores with ueWords := SMap.set (fun _ => false) s.cores.ueWords n true } }

theorem State.regs_markUe (n : Nat) : (s.markUe n).regs = s.regs := rfl
theorem State.ueWords_markUe (n : Nat) : SMap.get (fun _ => false) (s.markUe n).cores.ueWords n = true :=
  SMap.get_set_same (fun _ => false) s.cores.ueWords n true

/-- R237: the word that a scrub read finds uncorrectable is noted as an error of its core, and stays so. -/
theorem State.scrubRead_uncorrectable (h : s.flag Reg.DBG_SCRUB_CTRL Fld.DBG_SCRUB_CTRL_EN = true) (row w : Nat) :
    s.scrubRead c b m row w .uncorrectable =
      (s.noteUe 0 c b m row 2).markUe (c * 1048576 + b * 65536 + m * 4096 + row * 8 + w) := by
  have e : c * 1048576 + b * 65536 + m * 4096 + row * 8 + w = c * 1048576 + (b * 65536 + m * 4096 + row * 8 + w) := by omega
  rw [e]
  exact if_neg (by simp [h])

/-! ## Retirement (R244, R246) -/

theorem State.rd_checkQuad_ne (q : Nat) (h : a ≠ Reg.DBG_QUAD_STAT) : (s.checkQuad q).rd a = s.rd a := by
  unfold State.checkQuad
  dsimp only
  split
  · exact State.rd_setBits_ne _ h
  · rfl

theorem State.flag_retirePend (hc : c < 136) : (s.retirePend c).flag (Reg.DBG_CORE_STAT c) Fld.DBG_CORE_STAT_RETIRE_PEND = true := by
  unfold State.retirePend
  rw [State.flag_of_rd (State.rd_checkQuad_ne _ (by unfold Reg.DBG_CORE_STAT Reg.DBG_QUAD_STAT; omega))]
  exact State.flag_fput_one rfl (by decide)

theorem State.rd_retirePend_ne (hs : a ≠ Reg.DBG_CORE_STAT c) (hq : a ≠ Reg.DBG_QUAD_STAT) : (s.retirePend c).rd a = s.rd a :=
  (State.rd_checkQuad_ne _ hq).trans (State.rd_fput_ne _ _ _ hs)

@[simp] theorem State.cores_retirePend (c : Nat) : (s.retirePend c).cores = s.cores :=
  (State.retirePend_kept c (Kept.refl (allBut [.regs]) s) rfl).cores rfl

theorem State.coreStatW_of_set {v : Word} (hv : Fld.DBG_CORE_STAT_RETIRE_PEND.get v = 1) : s.coreStatW c v = s.retirePend c := if_pos hv

/-! ## Spares and tests (R234, R240) -/

@[simp] theorem State.spare_setSpare (c b m k v : Nat) : (s.setSpare c b m k v).spare c b m k = v := SMap.get_set_same ..
theorem State.spare_of_spares (h : t.cores.spares = s.cores.spares) : t.spare c b m k = s.spare c b m k := by unfold State.spare; rw [h]

@[simp] theorem State.cores_showTest : s.showTest.cores = s.cores := State.fput_cores ..
@[simp] theorem State.cores_showVerdict (c b m col v first n : Nat) : (s.showVerdict c b m col v first n).cores = s.cores :=
  (State.showVerdict_kept c b m col v first n (Kept.refl (allBut [.regs, .out]) s) rfl rfl).cores rfl

/-- R251: a test that runs shows as one. -/
theorem State.flag_showTest (h : s.cores.tests ≠ []) : s.showTest.flag Reg.DBG_SRAM_STAT Fld.DBG_SRAM_STAT_TEST_BUSY = true := by
  have hrun : b2n (!s.cores.tests.isEmpty) = 1 := by simp [h, b2n]
  rw [State.showTest, hrun]
  exact State.flag_fput_one rfl (by decide)

/-- R239: the errors counted in a column are forgotten. -/
def State.forgetErrs (s : State) (c b m col : Nat) : State :=
  { s with cores := { s.cores with colErrs := SMap.erase s.cores.colErrs (macroIdx c b m * 1024 + col) } }
/-- R240, R245: a test runs, or waits for a maintenance reset. -/
def State.addTest (s : State) (x : Nat × Nat × Nat × Nat × Nat) : State :=
  { s with cores := { s.cores with tests := s.cores.tests ++ [x] } }
def State.deferTest (s : State) (x : Nat × Nat × Nat × Nat) : State :=
  { s with cores := { s.cores with deferred := s.cores.deferred ++ [x] } }

theorem State.tests_addTest (x : Nat × Nat × Nat × Nat × Nat) : (s.addTest x).cores.tests = s.cores.tests ++ [x] := rfl
theorem State.spares_addTest (x : Nat × Nat × Nat × Nat × Nat) : (s.addTest x).cores.spares = s.cores.spares := rfl
theorem State.tests_setSpare (v : Nat) : (s.setSpare c b m k v).cores.tests = s.cores.tests := rfl
theorem State.tests_forgetErrs : (s.forgetErrs c b m col).cores.tests = s.cores.tests := rfl
theorem State.deferred_deferTest (x : Nat × Nat × Nat × Nat) : (s.deferTest x).cores.deferred = s.cores.deferred ++ [x] := rfl
theorem State.deferred_forgetErrs : (s.forgetErrs c b m col).cores.deferred = s.cores.deferred := rfl

/-- R240: a column that is due is steered to the first spare that stands for none, and its test runs. -/
theorem State.columnTest_of_spare (hd : s.testDue c b m col = true)
    (hk : (List.range 4).find? (fun k => s.spare c b m k / 1024 == 0) = some k) : s.columnTest c b m col =
      (((s.forgetErrs c b m col).setSpare c b m k (col + 1024)).addTest (c, b, m, col, k)).showTest := by
  rw [State.columnTest, if_neg (by simp [hd]), hk]
  rfl

/-- R244: a column that is due where every spare stands for one is deferred, and its core is to retire. -/
theorem State.columnTest_of_spent (hd : s.testDue c b m col = true)
    (hk : (List.range 4).find? (fun k => s.spare c b m k / 1024 == 0) = none) : s.columnTest c b m col =
      (((s.forgetErrs c b m col).deferTest (c, b, m, col)).showVerdict c b m col 7 0x3FF 0).retirePend c := by
  rw [State.columnTest, if_neg (by simp [hd]), hk]
  rfl

/-! ## A verdict (R242, R243) -/

theorem verdictOf_le_six (fails : List (List Nat)) : verdictOf fails ≤ 6 := by
  unfold verdictOf
  dsimp only
  split_ifs <;> omega

theorem State.fget_DBG_COLTEST_VERDICT_showVerdict {v : Nat} (hv : v < 16) (first n : Nat) :
    (s.showVerdict c b m col v first n).fget Reg.DBG_COLTEST Fld.DBG_COLTEST_VERDICT = v := by
  unfold State.showVerdict
  rw [State.fget_of_rd (State.rd_irqDbg_ne _ (by decide)), State.fget_of_rd (State.rd_setBits_ne _ (by decide)),
    State.fget_of_rd (State.rd_wr_ne _ _ (by decide)), State.fget, State.rd_wr, Fld.get_put_same _ _ _ (by decide)]
  exact Nat.mod_eq_of_lt hv

/-- A test that runs is found by its column where no other test runs on that column. -/
theorem find?_test {l : List (Nat × Nat × Nat × Nat × Nat)} (hm : (c, b, m, col, k) ∈ l)
    (hu : ∀ x ∈ l, x.1 = c → x.2.1 = b → x.2.2.1 = m → x.2.2.2.1 = col → x = (c, b, m, col, k)) :
    l.find? (fun t => t.1 == c && t.2.1 == b && t.2.2.1 == m && t.2.2.2.1 == col) = some (c, b, m, col, k) := by
  cases hx : l.find? (fun t => t.1 == c && t.2.1 == b && t.2.2.1 == m && t.2.2.2.1 == col) with
  | none => simpa using List.find?_eq_none.mp hx _ hm
  | some x =>
    have hp := List.find?_some hx
    simp only [Bool.and_eq_true, beq_iff_eq] at hp
    obtain ⟨⟨⟨hc, hb⟩, hmac⟩, hcol⟩ := hp
    rw [hu x (List.mem_of_find?_eq_some hx) hc hb hmac hcol]

/-- R240 step 5, R242: a test that ends with verdict `v` is off the list, and the spare that stands for its column is permanent or
free again; a test with spare index 4 has no spare. -/
def State.testClosed (s : State) (c b m col k v : Nat) : State :=
  let s1 := { s with cores := { s.cores with tests := s.cores.tests.filter (· ≠ (c, b, m, col, k)) } }
  if 4 ≤ k then s1 else s1.setSpare c b m k (if v = 1 ∨ v = 2 ∨ v = 3 ∨ v = 5 then col + 2048 else 0)

theorem State.tests_testClosed (v : Nat) : (s.testClosed c b m col k v).cores.tests = s.cores.tests.filter (· ≠ (c, b, m, col, k)) := by
  unfold State.testClosed
  dsimp only
  split <;> rfl

theorem State.spare_testClosed (v : Nat) (hk : k < 4) :
    (s.testClosed c b m col k v).spare c b m k = if v = 1 ∨ v = 2 ∨ v = 3 ∨ v = 5 then col + 2048 else 0 := by
  unfold State.testClosed
  dsimp only
  rw [if_neg (Nat.not_le.mpr hk), State.spare_setSpare]

section
variable {fails : List (List Nat)}
  (hf : (s.cores.tests.find? fun t => t.1 == c && t.2.1 == b && t.2.2.1 == m && t.2.2.2.1 == col) = some (c, b, m, col, k))
include hf

/-- Of the cores, a verdict changes what its noted errors change, its test and its spare. -/
theorem State.cores_testVerdict : (s.testVerdict c b m col fails).cores =
    ((s.noteFails c b m col fails).testClosed c b m col k (verdictOf fails)).cores := by
  unfold State.testVerdict State.testClosed
  rw [hf]
  dsimp only
  by_cases hk : 4 ≤ k
  · simp only [hk, decide_true, if_true, apply_ite State.cores, State.cores_retirePend, State.cores_showVerdict, State.cores_bump,
      State.cores_showTest, ite_self]
  · simp only [hk, decide_false, Bool.false_eq_true, if_false, apply_ite State.cores, State.cores_retirePend, State.cores_showVerdict,
      State.cores_bump, State.setSpare, State.cores_showTest, ite_self, Bool.or_eq_true, beq_iff_eq, or_assoc]

/-- R253: the verdict of a test that ends is the one shown. -/
theorem State.fget_DBG_COLTEST_VERDICT_testVerdict (hc : c < 136) :
    (s.testVerdict c b m col fails).fget Reg.DBG_COLTEST Fld.DBG_COLTEST_VERDICT = verdictOf fails := by
  have hretire (x : State) (e : Bool) : (if e = true then x.retirePend c else x).rd Reg.DBG_COLTEST = x.rd Reg.DBG_COLTEST := by
    split
    · exact State.rd_retirePend_ne (by unfold Reg.DBG_COLTEST Reg.DBG_CORE_STAT; omega) (by decide)
    · rfl
  unfold State.testVerdict
  rw [hf]
  dsimp only
  rw [State.fget_of_rd (hretire ..)]
  exact State.fget_DBG_COLTEST_VERDICT_showVerdict (Nat.lt_of_le_of_lt (verdictOf_le_six fails) (by decide)) _ _

end

end

/-- Settles O58: a scrub read by `State.scrubRead_clean` and its like, a column test by `State.columnTest_of_spare` and
`State.columnTest_of_spent`, a verdict by `State.cores_testVerdict`, a retirement by `State.flag_retirePend`. The verdict is `verdictOf`,
which is open where no row of R242's table fits (log entry 34) and takes the near dummy row as log entry 44 says. -/
theorem repairRowsComplete : Obligations.RepairRowsComplete := by
  unfold Obligations.RepairRowsComplete
  refine ⟨?scrubRead, ?columnTest, ?columnTestDeferred, ?columnTestVerdict, ?retirePendSet⟩
  case scrubRead =>
    intro s c b m row w bit hc hen
    refine ⟨⟨_, rfl, State.scrubRead_clean row w⟩, ⟨_, rfl, State.fget_DBG_CE_COUNT_scrubRead hc hen row w bit⟩, ⟨_, rfl, ?_⟩⟩
    rw [State.scrubRead_uncorrectable hen row w]
    exact ⟨State.regs_markUe _, State.ueWords_markUe _⟩
  case columnTest =>
    intro s c b m col k hd hk
    refine ⟨_, rfl, ?_⟩
    rw [State.columnTest_of_spare hd hk]
    refine ⟨?_, ?_, State.flag_showTest (by rw [State.tests_addTest]; simp)⟩
    · rw [State.spare_of_spares (congrArg Cores.spares State.cores_showTest), State.spare_of_spares (State.spares_addTest _),
        State.spare_setSpare]
    · rw [State.cores_showTest, State.tests_addTest, State.tests_setSpare, State.tests_forgetErrs]
  case columnTestDeferred =>
    intro s c b m col hc hd hk
    refine ⟨_, rfl, ?_⟩
    rw [State.columnTest_of_spent hd hk]
    exact ⟨by rw [State.cores_retirePend, State.cores_showVerdict, State.deferred_deferTest, State.deferred_forgetErrs],
      State.flag_retirePend hc⟩
  case columnTestVerdict =>
    intro s c b m col k fails hc hm hu
    have hf := find?_test hm hu
    have hcores := State.cores_testVerdict (fails := fails) hf
    refine ⟨_, rfl, State.fget_DBG_COLTEST_VERDICT_testVerdict hf hc, ?_, fun hk => ?_⟩
    · rw [hcores, State.tests_testClosed, State.tests_noteFails]
    · rw [State.spare_of_spares (congrArg Cores.spares hcores), State.spare_testClosed _ hk]
  case retirePendSet =>
    intro s r c v hc hg hv
    refine ⟨_, rfl, ?_⟩
    rw [State.write_of_grants _ hg, State.coreStatW_of_set hv]
    exact State.flag_retirePend hc

end Sys2Proof.Machine

/-! The code over the chunks of a sector: what the correction leaves of a flip, and what one read of a sector then returns (spec,
chapter 06). -/

namespace Sys2Proof.Machine

/-! ## Symbols of a chunk (R264, R265) -/

theorem chunkOf_lt {i : Nat} (h : i < 288) : chunkOf i < 4 := by
  unfold chunkOf
  split_ifs <;> omega

/-- Both bytes of a symbol lie in one chunk. -/
theorem chunkOf_symbol (i : Nat) : chunkOf (2 * (i / 2)) = chunkOf i := by
  unfold chunkOf
  split_ifs <;> omega

theorem sliceB_two (l : List Byte) (k : Nat) : sliceB l k 2 = [l.getD k 0#8, l.getD (k + 1) 0#8] := by
  have hk : l.getD k 0#8 = (l.drop k).getD 0 0#8 := by simp [List.getD_eq_getElem?_getD]
  have hk' : l.getD (k + 1) 0#8 = (l.drop k).getD 1 0#8 := by simp [List.getD_eq_getElem?_getD]
  rw [hk, hk', sliceB]
  match l.drop k with
  | [] => rfl
  | [_] => rfl
  | _ :: _ :: _ => rfl

/-- A symbol that is not wrong has no flipped byte. -/
theorem getD_eq_zero_of_sliceB {l : List Byte} {i : Nat} (h : sliceB l (2 * (i / 2)) 2 = [0#8, 0#8]) : l.getD i 0#8 = 0#8 := by
  rw [sliceB_two] at h
  obtain ⟨hlo, hhi⟩ : l.getD (2 * (i / 2)) 0#8 = 0#8 ∧ l.getD (2 * (i / 2) + 1) 0#8 = 0#8 := by simpa using h
  rcases Nat.mod_two_eq_zero_or_one i with hi | hi
  · rwa [show 2 * (i / 2) = i by omega] at hlo
  · rwa [show 2 * (i / 2) + 1 = i by omega] at hhi

/-- A chunk without a wrong symbol has no flipped byte. -/
theorem getD_eq_zero_of_wrongSymbols {flip : List Byte} {i : Nat} (hi : i < 288) (h : wrongSymbols flip (chunkOf i) = 0) :
    flip.getD i 0#8 = 0#8 := by
  have hright := List.filter_eq_nil_iff.1 (List.length_eq_zero_iff.1 h) (i / 2) (List.mem_range.2 (by omega))
  rw [chunkOf_symbol] at hright
  exact getD_eq_zero_of_sliceB (by simpa using hright)

/-! ## The correction (R265) -/

section
variable {e : ReadErr}

/-- Where no chunk has more than one wrong symbol, the correction leaves nothing of the flip. -/
theorem eccLeft_eq_zeros (h : ∀ c, c < 4 → wrongSymbols e.flip c ≤ 1) : eccLeft e = List.replicate 288 0#8 := by
  refine List.eq_replicate_iff.2 ⟨by simp [eccLeft], fun b hb => ?_⟩
  obtain ⟨i, hi, rfl⟩ := List.mem_map.1 hb
  have hi' := List.mem_range.1 hi
  split
  next => rfl
  next hc =>
    have hne : wrongSymbols e.flip (chunkOf i) ≠ 1 := by simpa [eccCorrects] using hc
    have hle := h _ (chunkOf_lt hi')
    exact getD_eq_zero_of_wrongSymbols hi' (by omega)

theorem eccBeyond_of_le_one {c : Nat} (h : wrongSymbols e.flip c ≤ 1) : eccBeyond e c = false := by
  have h2 : wrongSymbols e.flip c ≠ 2 := by omega
  have h3 : ¬ 3 ≤ wrongSymbols e.flip c := by omega
  simp [eccBeyond, h2, h3]

theorem eccBeyond_of_two {c : Nat} (h : wrongSymbols e.flip c = 2) : eccBeyond e c = true := by simp [eccBeyond, h]

end

theorem xorBytes_zeros (l : List Byte) : Crypto.xorBytes l (List.replicate l.length 0#8) = l := by
  apply List.ext_getElem <;> simp [Crypto.xorBytes]

/-! ## One read of a sector -/

section
variable {s : State} {errs : List ReadErr} {p stack sec n : Nat} {e : ReadErr}

theorem State.length_rawSector (stack sec : Nat) : (s.rawSector stack sec).length = 288 := by
  simp [State.rawSector, SMap.getRun]

/-- A read that meets an error returns the stored bytes with what the correction leaves of the flip. -/
theorem State.bytes_readOnce_of_errOf (h : errOf errs stack sec n = some e) :
    (s.readOnce errs p stack sec n).2.bytes = Crypto.xorBytes (s.rawSector stack sec) (eccLeft e) := by
  rw [State.readOnce, h]

/-- It reports a chunk that is beyond the correction. -/
theorem State.ue_readOnce_of_errOf (h : errOf errs stack sec n = some e) :
    (s.readOnce errs p stack sec n).2.ue = true ↔ ∃ c, c < 4 ∧ eccBeyond e c = true := by
  rw [State.readOnce, h]
  simp

end

/-- Settles O60: of a flip of one symbol in each chunk the correction leaves nothing (`eccLeft_eq_zeros`), and a chunk of two is beyond it
(`eccBeyond_of_two`). -/
theorem chunkCorrection : Obligations.ChunkCorrection := by
  unfold Obligations.ChunkCorrection
  intro s errs p stack sec n e he _
  refine ⟨fun hone => ⟨?_, ?_⟩, fun ⟨c, hc, htwo⟩ => (State.ue_readOnce_of_errOf he).2 ⟨c, hc, eccBeyond_of_two htwo⟩⟩
  · rw [State.bytes_readOnce_of_errOf he, eccLeft_eq_zeros hone, ← s.length_rawSector stack sec, xorBytes_zeros]
  · rw [← Bool.not_eq_true, State.ue_readOnce_of_errOf he]
    rintro ⟨c, hc, hbeyond⟩
    rw [eccBeyond_of_le_one (hone c hc)] at hbeyond
    contradiction

end Sys2Proof.Machine

/-! The rows of the stack controllers: the split of a partition's memory, the verification of a sector, tags, refresh, patrol and row
repair (spec, chapter 06). -/

namespace Sys2Proof.Machine

section
variable {s : State} {p k n : Nat}

@[simp] theorem State.stk_fput (a : Nat) (f : Fld) (v k : Nat) : (s.fput a f v).stk k = s.stk k := (rfl)
@[simp] theorem State.stk_bump (a : Nat) (f : Fld) (d k : Nat) : (s.bump a f d).stk k = s.stk k := (rfl)
theorem State.flag_setStk (x : Stack) (a : Nat) (f : Fld) : (s.setStk k x).flag a f = s.flag a f := (rfl)

/-- A flag takes a truth value that is put in it. -/
theorem State.flag_fput_b2n {a : Nat} {f : Fld} (b : Bool) (hw : f.width = 1) (h : f.lo + f.width ≤ 32) :
    (s.fput a f (b2n b)).flag a f = b := by
  unfold State.flag
  rw [State.fget_fput _ _ _ _ h, hw]
  cases b <;> rfl

/-! ## The split of a partition's memory (R261) -/

theorem State.psplitW_of_empty (v : Word) (h : s.partState p = 0) : s.psplitW p v = s.regWrite (Reg.MEM_PSPLIT p) v := if_pos h

/-! ## The step that an alarm taints (R271) -/

/-- The alarm flags of the step in progress and of the one after it. -/
def Upd.taints (u : Upd) : Bool × Bool := (u.taint, u.taintNext)

/-- A record of an alarm is no alarm flag. -/
theorem State.taints_noted (c : Prop) [Decidable c] (a : Nat) (w : Word) {u : Upd} (h : u.taints = (s.up p).taints) :
    ((if c then (s.wr a w).setUp p u else s).up p).taints = (s.up p).taints := by
  split
  · rw [State.up_setUp, h]
  · rfl

theorem State.up_irqMem (bits j : Nat) : (s.irqMem bits).up j = s.up j :=
  State.up_of_kept (φ := allBut [.regs, .out]) (State.irqMem_kept _ (Kept.refl _ s) rfl rfl) rfl j
theorem State.up_irqProt (i : Nat) (f : Fld) (j : Nat) : (s.irqProt i f).up j = s.up j :=
  State.up_of_kept (φ := allBut [.regs, .out]) (State.irqProt_kept _ _ (Kept.refl _ s) rfl rfl) rfl j

theorem State.taints_alarm (hp : p ≠ 0) (cause stack : Nat) :
    ((s.alarm p cause stack).up p).taints = ((s.taintStep p).up p).taints := by
  unfold State.alarm
  dsimp only
  rw [if_neg hp, State.up_irqProt, State.up_irqMem, State.taints_noted, State.taints_noted]
  · rfl
  · rfl

/-- The step whose COMMIT has not issued carries an alarm. -/
def State.stepTainted (s : State) (p : Nat) (u : Upd) : Prop :=
  if s.flag (Reg.UPD_STATUS p) Fld.UPD_STATUS_PENDING = true then u.taintNext = true else u.taint = true

theorem State.stepTainted_of_taints {u v : Upd} (h : u.taints = v.taints) : s.stepTainted p u ↔ s.stepTainted p v := by
  obtain ⟨ht, hn⟩ := Prod.mk.inj h
  rw [State.stepTainted, State.stepTainted, ht, hn]

theorem State.stepTainted_taintStep : s.stepTainted p ((s.taintStep p).up p) := by
  rw [State.stepTainted, State.taintStep, State.up_setUp]
  split <;> rfl

theorem State.stepTainted_alarm (hp : p ≠ 0) (cause stack : Nat) : s.stepTainted p ((s.alarm p cause stack).up p) :=
  (State.stepTainted_of_taints (State.taints_alarm hp cause stack)).2 State.stepTainted_taintStep

/-! ## The verification of a sector (R270, R273) -/

theorem State.verifySector_of_ready {a o : Nat} (spec : Bool) (errs : List ReadErr) (ho : s.offset p a = some o) (ha : a % 256 = 0)
    (hk : (s.key (2 * addrKid a + 1)).state = 1) (hown : (s.key (2 * addrKid a + 1)).owned p = true) (hm : o + 256 ≤ s.memSize p) :
    s.verifySector p a spec errs = (s.readPiece errs p spec false a 256).1 := by
  have hm' : ¬ s.memSize p < o + 256 := by omega
  simp [State.verifySector, ho, ha, hk, hown, hm']

theorem State.readPiece_of_offset {a o : Nat} (errs : List ReadErr) (spec nme : Bool) (len : Nat) (ho : s.offset p a = some o) :
    (s.readPiece errs p spec nme a len).1 = (s.readSector errs p spec nme (addrKid a) (s.bankOff p o / 256)
      (s.place p (s.bankOff p o)).1 ((s.place p (s.bankOff p o)).2 / 256)).1 := by
  rw [State.readPiece, ho]

theorem State.readSector_of_poison {stack sec : Nat} (errs : List ReadErr) (spec nme : Bool) (kid lsn : Nat)
    (h : SMap.get (fun _ => false) s.poison (poisonKey stack sec) = true) :
    (s.readSector errs p spec nme kid lsn stack sec).1 = (s.errLast stack sec 3 p false).alarm p 3 stack := by
  rw [State.readSector, if_pos h]

theorem streamReg_UPD_STATUS (hp : p ∈ allParts) : streamReg (Reg.UPD_STATUS p) := by
  obtain ⟨h1, h4⟩ := pos_and_le_four_of_mem_allParts hp
  exact ⟨p, h1, h4, by unfold Reg.UPD_STATUS; omega, by unfold Reg.UPD_STATUS; omega⟩

/-- R271, R273: a read of a poisoned sector taints the step. -/
theorem State.stepTainted_readPiece {a o : Nat} (hp : p ∈ allParts) (errs : List ReadErr) (spec nme : Bool) (len : Nat)
    (ho : s.offset p a = some o) (h : SMap.get (fun _ => false) s.poison
      (poisonKey (s.place p (s.bankOff p o)).1 ((s.place p (s.bankOff p o)).2 / 256)) = true) :
    s.stepTainted p ((s.readPiece errs p spec nme a len).1.up p) := by
  obtain ⟨hp1, -⟩ := pos_and_le_four_of_mem_allParts hp
  rw [State.readPiece_of_offset errs spec nme len ho, State.readSector_of_poison _ _ _ _ _ h, State.stepTainted,
    ← State.flag_of_rd (State.rd_errLast (streamReg_UPD_STATUS hp) (State.place_bankOff_lt ho) _ 3 p false)]
  exact State.stepTainted_alarm (by omega) ..

/-! ## Tags (R276, R277) -/

/-- Where nobody else comes to wait, the one who goes first of those that wait for a tag gets it. -/
theorem State.stk_tagGrant {pc cycles : Nat} {held : List Nat} {y : Nat × Nat × Nat × Nat}
    (h : tagWinner s.now ((s.stk k).waiting.filter fun z => z.1 == pc) = some y) :
    (s.tagGrant k pc [] cycles held).stk k =
      { s.stk k with tags := held, waiting := (s.stk k).waiting.filter (· ≠ y) } := by
  unfold State.tagGrant
  dsimp only
  rw [State.stk_fput, State.stk_setStk, List.map_nil, List.filter_nil, List.append_nil, State.fput_now, State.setStk_now]
  dsimp only
  rw [h]
  dsimp only
  rw [State.stk_setStk]

/-! ## Refresh and patrol (R281, R282) -/

theorem State.flag_refresh (temp : Nat) :
    (s.refresh k temp).flag (Reg.MEM_STK_STAT k) Fld.MEM_STK_STAT_REF2X = decide (85 < temp) :=
  State.flag_fput_b2n _ rfl (by decide)
theorem State.fget_refresh (temp : Nat) :
    (s.refresh k temp).fget (Reg.MEM_STK_STAT k) Fld.MEM_STK_STAT_TEMP = temp % 2 ^ Fld.MEM_STK_STAT_TEMP.width := by
  rw [State.refresh, State.fget_fput_field _ _ _ _ _ (by decide) (by decide), State.fget_fput _ _ _ _ (by decide)]

theorem State.flag_patrolRead {sec : Nat} (errs : List ReadErr) (h : s.flag (Reg.MEM_STK_CTRL k) Fld.MEM_STK_CTRL_PATROL_EN = true) :
    (s.patrolRead k sec errs).flag (Reg.MEM_STK_STAT k) Fld.MEM_STK_STAT_PATROL_BUSY = (sec != 268435455) := by
  unfold State.patrolRead
  rw [if_neg (by simp [h])]
  dsimp only
  split
  · rw [State.flag_setStk, State.flag_fput_b2n _ rfl (by decide), bne]
  · rw [State.flag_fput_b2n _ rfl (by decide), bne]

/-- R283: the last sector ends the pass, and with it the count of corrected sectors. -/
theorem State.rowErrs_patrolRead_last (errs : List ReadErr) (h : s.flag (Reg.MEM_STK_CTRL k) Fld.MEM_STK_CTRL_PATROL_EN = true) :
    ((s.patrolRead k 268435455 errs).stk k).rowErrs = [] := by
  unfold State.patrolRead
  rw [if_neg (by simp [h])]
  dsimp only
  rw [if_pos (beq_self_eq_true _), State.stk_setStk]

/-! ## Row repair (R283) -/

theorem State.rowRepair_of_due {row : Nat} (hen : s.flag (Reg.MEM_STK_CTRL k) Fld.MEM_STK_CTRL_PPR_EN = true)
    (hthree : 3 ≤ ((s.stk k).rowErrs.filter fun e => e.1 == row).length) (hnew : ∀ e ∈ (s.stk k).repairs, e.1 ≠ row) :
    s.rowRepair k row = s.setStk k { s.stk k with repairs := (s.stk k).repairs ++ [(row, s.now)] } := by
  have hany : ¬ (s.stk k).repairs.any (fun e => e.1 == row) = true := by simpa using fun t ht => hnew (row, t) ht rfl
  have hlt : ¬ ((s.stk k).rowErrs.filter fun e => e.1 == row).length < 3 := by omega
  unfold State.rowRepair
  dsimp only
  rw [if_neg (by simp only [hen, hany, hlt]; decide)]

/-- A repair that is done is no longer under way, and the errors of its row are forgotten. -/
theorem State.stk_rowRepairDone {row t0 : Nat} (h : (row, t0) ∈ (s.stk k).repairs) :
    (s.rowRepairDone k row).stk k = { s.stk k with
      repairs := (s.stk k).repairs.filter fun e => e.1 != row
      rowErrs := (s.stk k).rowErrs.filter fun e => e.1 != row
      repaired := (s.stk k).repaired ++ [row] } := by
  have hany : (s.stk k).repairs.any (fun e => e.1 == row) = true := List.any_eq_true.2 ⟨_, h, by simp⟩
  unfold State.rowRepairDone
  dsimp only
  rw [if_neg (by simp [hany]), State.stk_bump, State.stk_setStk]

theorem fst_ne_of_mem_filter {l : List (Nat × Nat)} {row : Nat} {e : Nat × Nat} (h : e ∈ l.filter fun e => e.1 != row) : e.1 ≠ row := by
  simpa using (List.mem_filter.1 h).2

end

/-- Settles O47, row by row. The tags that TAG_GRANT finds held are an operand, as log entry 13 says, and the alarm of a sector that is
verified while a decision is pending taints the step to come (`State.stepTainted_alarm`, log entry 32). -/
theorem memoryControlRowsComplete : Obligations.MemoryControlRowsComplete := by
  unfold Obligations.MemoryControlRowsComplete
  refine ⟨?psplitWrite, ?sectorVerify, ?tagGrant, ?refresh, ?patrolRead, ?rowRepair, ?rowRepairComplete⟩
  case psplitWrite =>
    intro s r p v hg he
    exact ⟨_, rfl, (State.write_of_grants _ hg).trans (State.psplitW_of_empty v he)⟩
  case sectorVerify =>
    intro s p a o spec errs hp ho ha hk hown hm
    refine ⟨_, rfl, ?_⟩
    rw [State.verifySector_of_ready spec errs ho ha hk hown hm]
    exact ⟨rfl, State.stepTainted_readPiece hp errs spec false 256 ho⟩
  case tagGrant =>
    intro s k pc cycles held y hy
    refine ⟨_, rfl, ?_⟩
    dsimp only
    rw [State.stk_tagGrant hy]
    exact ⟨rfl, rfl⟩
  case refresh =>
    intro s k pc bank temp
    exact ⟨_, rfl, State.flag_refresh temp, State.fget_refresh temp⟩
  case patrolRead =>
    intro s k sec errs hen
    refine ⟨_, rfl, State.flag_patrolRead errs hen, ?_⟩
    rintro rfl
    exact State.rowErrs_patrolRead_last errs hen
  case rowRepair =>
    intro s k row hen hthree hnew
    refine ⟨_, rfl, ?_⟩
    dsimp only
    rw [State.rowRepair_of_due hen hthree hnew, State.stk_setStk]
  case rowRepairComplete =>
    intro s k row t0 h
    refine ⟨_, rfl, ?_⟩
    dsimp only
    rw [State.stk_rowRepairDone h]
    exact ⟨fun _ => fst_ne_of_mem_filter, fun _ => fst_ne_of_mem_filter⟩

end Sys2Proof.Machine

/-! The rows of the update engine: which operations leave the streams of the update unit alone, what a TENSOR leaves of its stream when it
is performed, how norm records and parts complete, and the writes of the unit's registers (spec, chapter 07). -/

namespace Sys2Proof.Machine

/-! ## What leaves the update streams alone -/

section
variable {s t : State} {p j : Nat}

/-- The outstanding streams of a partition's update unit. -/
def State.streams (s : State) (p : Nat) : List UpdStream := (s.up p).streams

theorem State.streams_of_kept {φ : Part → Bool} (h : Kept φ s t) (hu : φ .upds = true) : t.streams j = s.streams j :=
  congrArg Upd.streams (State.up_of_kept h hu j)

theorem State.streams_setUp {u : Upd} (h : u.streams = s.streams p) : (s.setUp p u).streams j = s.streams j := by
  unfold State.streams
  by_cases hj : j = p
  · subst hj; rw [State.up_setUp, h]; rfl
  · rw [State.up_setUp_ne _ _ hj]

theorem State.streams_foldl {α : Type} {g : State → α → State} (hg : ∀ t x, (g t x).streams j = t.streams j) (l : List α) :
    (l.foldl g s).streams j = s.streams j := by
  induction l generalizing s with
  | nil => rfl
  | cons x l ih => rw [List.foldl_cons, ih, hg]

theorem State.streams_foldl_fst {α β : Type} {g : State × β → α → State × β} (hg : ∀ y x, (g y x).1.streams j = y.1.streams j)
    (l : List α) (y : State × β) : (l.foldl g y).1.streams j = y.1.streams j := by
  induction l generalizing y with
  | nil => rfl
  | cons x l ih => rw [List.foldl_cons, ih, hg]

theorem State.streams_wr (a : Nat) (w : Word) : (s.wr a w).streams j = s.streams j := (rfl)
theorem State.streams_wn (a v : Nat) : (s.wn a v).streams j = s.streams j := (rfl)
theorem State.streams_bump (a : Nat) (f : Fld) (d : Nat) : (s.bump a f d).streams j = s.streams j := (rfl)
theorem State.streams_setBits (a bits : Nat) : (s.setBits a bits).streams j = s.streams j := (rfl)
theorem State.streams_irq (fn vec sta en bits : Nat) : (s.irq fn vec sta en bits).streams j = s.streams j :=
  State.streams_of_kept (φ := allBut [.regs, .out]) (State.irq_kept _ _ _ _ _ (Kept.refl _ s) rfl rfl) rfl
theorem State.streams_count (i ev unit core d : Nat) : (s.count i ev unit core d).streams j = s.streams j :=
  State.streams_of_kept (State.count_keeps ..) rfl
theorem State.streams_sepiaRec (unit code owner arg : Nat) : (s.sepiaRec unit code owner arg).streams j = s.streams j :=
  State.streams_of_kept (φ := allBut [.usage]) (State.sepiaRec_kept _ _ _ _ (Kept.refl _ s) rfl) rfl
theorem State.streams_ifcSend (k dir : Nat) (what : List Nat) : (s.ifcSend k dir what).streams j = s.streams j :=
  State.streams_of_kept (φ := allBut [.keys]) (State.ifcSend_kept _ _ _ (Kept.refl _ s) rfl) rfl
theorem State.streams_nfSeen (i bits tensor : Nat) (who : Option Nat) : (s.nfSeen i bits tensor who).streams j = s.streams j :=
  State.streams_of_kept (φ := allBut [.regs, .seqs]) (State.nfSeen_kept _ _ _ _ (Kept.refl _ s) rfl rfl) rfl

/-! ### Flags, alarms and refusals -/

theorem State.streams_nonFinite (bits tensor unit core : Nat) : (s.nonFinite p bits tensor unit core).streams j = s.streams j := by
  unfold State.nonFinite
  split
  · rfl
  · rw [State.streams_count, State.streams_nfSeen, State.streams_setUp]
    rfl

theorem State.streams_raiseNf : (s.raiseNf p).streams j = s.streams j := by
  rw [State.raiseNf, State.streams_count, State.streams_setUp]
  rfl

theorem State.streams_invalidTable : (s.invalidTable p).streams j = s.streams j := by
  rw [State.invalidTable, State.streams_setBits, State.streams_setUp]
  rfl

theorem State.streams_taintStep : (s.taintStep p).streams j = s.streams j := State.streams_setUp (by split <;> rfl)

/-- A record that is made where it is due, with its time, leaves the streams. -/
theorem State.streams_noted (c : Prop) [Decidable c] (a : Nat) (w : Word) {u : Upd} (hu : u.streams = s.streams p) :
    (if c then (s.wr a w).setUp p u else s).streams j = s.streams j := by
  split
  · rw [State.streams_setUp (by rw [State.streams_wr, hu]), State.streams_wr]
  · rfl

theorem State.streams_alarm (cause stack : Nat) : (s.alarm p cause stack).streams j = s.streams j := by
  unfold State.alarm
  split
  · rfl
  · dsimp only
    rw [State.irqProt, State.streams_irq, State.irqMem, State.streams_irq, State.streams_noted, State.streams_noted,
      State.streams_taintStep]
    · rfl
    · rfl

theorem State.streams_refuse (code master : Nat) (write : Bool) (off kid : Nat) :
    (s.refuse p code master write off kid).streams j = s.streams j := by
  unfold State.refuse
  dsimp only
  rw [State.irqProt, State.streams_irq, State.streams_bump]
  split
  · rw [State.streams_wr, State.streams_wn, State.streams_wr, State.streams_setUp]
    rfl
  · rfl

theorem State.streams_updErr (code stack tid : Nat) : (s.updErr p code stack tid).streams j = s.streams j := by
  have hnote {c : Prop} [Decidable c] {a b : Nat} {w : Word} {u : Upd} (hu : u.streams = s.streams p) :
      (if c then (((s.wr a w).wn b tid).setUp p u) else s).streams j = s.streams j := by
    split
    · rw [State.streams_setUp (by rw [State.streams_wn, State.streams_wr, hu]), State.streams_wn, State.streams_wr]
    · rfl
  unfold State.updErr
  dsimp only
  rw [State.irqUpd, State.streams_irq]
  split
  · rw [State.irqUpd, State.streams_irq, State.streams_setBits, hnote]
    rfl
  · exact hnote rfl

/-! ### Device memory -/

theorem State.streams_checkRun (m : Master) (keyed : Bool) (b len : Nat) :
    (s.checkRun p m keyed b len).1.streams j = s.streams j := by
  unfold State.checkRun
  split
  · rfl
  · exact State.streams_refuse ..

theorem State.streams_useKey (n : Nat) : (s.useKey n).1.streams j = s.streams j :=
  State.streams_of_kept (φ := allBut [.keys, .regs, .out]) (State.useKey_kept _ (Kept.refl _ s) rfl rfl rfl) rfl
theorem State.streams_errLast (k sec kind part : Nat) (persist : Bool) : (s.errLast k sec kind part persist).streams j = s.streams j :=
  State.streams_of_kept (φ := allBut [.regs, .channels]) (State.errLast_kept _ _ _ _ _ (Kept.refl _ s) rfl rfl) rfl
theorem State.streams_readOnce (errs : List ReadErr) (k sec n : Nat) : (s.readOnce errs p k sec n).1.streams j = s.streams j :=
  State.streams_of_kept (φ := allBut [.regs, .out, .channels]) (State.readOnce_kept _ _ _ _ _ (Kept.refl _ s) rfl rfl rfl) rfl
theorem State.streams_noteFail (k sec : Nat) (nme : Bool) (r : RawRead) (persist : Bool) :
    (s.noteFail p k sec nme r persist).streams j = s.streams j :=
  State.streams_of_kept (φ := allBut [.regs, .channels]) (State.noteFail_kept _ _ _ _ _ _ (Kept.refl _ s) rfl rfl) rfl
theorem State.streams_poisonSector (k sec : Nat) : (s.poisonSector k sec).streams j = s.streams j :=
  State.streams_of_kept (φ := allBut [.regs, .out, .poison, .haltReq]) (State.poisonSector_kept _ _ (Kept.refl _ s) rfl rfl rfl rfl) rfl
theorem State.streams_writeSector (kid lsn k sec : Nat) (v : List Byte) : (s.writeSector kid lsn k sec v).streams j = s.streams j :=
  State.streams_of_kept (φ := allBut [.mem, .keys, .regs, .out, .poison])
    (State.writeSector_kept _ _ _ _ _ (Kept.refl _ s) rfl rfl rfl rfl rfl) rfl

theorem State.streams_readSector (errs : List ReadErr) (spec nme : Bool) (kid lsn k sec : Nat) :
    (s.readSector errs p spec nme kid lsn k sec).1.streams j = s.streams j := by
  unfold State.readSector
  split
  · rw [State.streams_alarm, State.streams_errLast]
  · dsimp only
    split_ifs <;>
      simp only [State.streams_poisonSector, State.streams_alarm, State.streams_noteFail, State.streams_readOnce, State.streams_bump,
        State.streams_useKey]

theorem State.streams_readPiece (errs : List ReadErr) (spec nme : Bool) (b len : Nat) :
    (s.readPiece errs p spec nme b len).1.streams j = s.streams j := by
  unfold State.readPiece
  split
  · rfl
  · exact State.streams_readSector ..

theorem State.streams_writePiece (errs : List ReadErr) (nme : Bool) (b : Nat) (v : List Byte) :
    (s.writePiece errs p nme b v).1.streams j = s.streams j := by
  unfold State.writePiece
  split
  · rfl
  · dsimp only
    split_ifs <;> simp only [State.streams_writeSector, State.streams_readSector]

theorem State.streams_writeRun (errs : List ReadErr) (nme stop : Bool) (b : Nat) (v : List Byte) :
    (s.writeRun errs p nme stop b v).1.streams j = s.streams j := by
  refine State.streams_foldl_fst (fun y x => ?_) _ _
  dsimp only
  split
  · rfl
  · exact State.streams_writePiece ..

theorem State.streams_updRead (errs : List ReadErr) (b len : Nat) : (s.updRead errs p b len).1.streams j = s.streams j := by
  refine State.streams_foldl_fst (fun y x => ?_) _ _
  dsimp only
  split
  · rfl
  · exact State.streams_readPiece ..

/-! ### Core SRAM -/

theorem State.streams_sramCe (phys w i port : Nat) : (s.sramCe p phys w i port).streams j = s.streams j :=
  State.streams_of_kept (φ := allBut [.cores, .regs, .out, .usage]) (State.sramCe_kept _ _ _ _ _ (Kept.refl _ s) rfl rfl rfl rfl) rfl
theorem State.streams_noteUe (phys bank mac row port : Nat) : (s.noteUe p phys bank mac row port).streams j = s.streams j :=
  State.streams_of_kept (φ := allBut [.cores, .regs, .out]) (State.noteUe_kept _ _ _ _ _ _ (Kept.refl _ s) rfl rfl rfl) rfl

theorem State.streams_sramUe (phys u w port : Nat) : (s.sramUe p phys u w port).streams j = s.streams j := by
  unfold State.sramUe
  dsimp only
  split
  · rw [State.streams_sepiaRec, State.streams_alarm, State.streams_noteUe]
  · rw [State.streams_alarm, State.streams_noteUe]

theorem State.streams_sramX (bad : SramErrs) (phys b len : Nat) : (s.sramX p bad phys b len).1.streams j = s.streams j := by
  unfold State.sramX State.sramGet
  dsimp only
  rw [State.streams_foldl fun _ _ => State.streams_sramUe .., State.streams_foldl fun _ _ => State.streams_sramCe ..]

theorem State.streams_gradRb (bad : SramErrs) (grb e n : Nat) : (s.gradRb p bad grb e n).1.streams j = s.streams j :=
  State.streams_foldl_fst (fun y i => by exact State.streams_sramX ..) (List.range ((n + 127) / 128)) (s, [])

/-! ## A TENSOR is performed (R312 to R334) -/

theorem State.streams_normFormed (id n tid : Nat) : (s.normFormed p id n tid).streams j = s.streams j := by
  unfold State.normFormed
  dsimp only
  rw [State.streams_nonFinite, State.streams_wn, State.streams_setUp]
  rfl

theorem State.streams_updRefused (d : List Byte) (x : UpdPart) (f : Fmt) : (s.updRefused p d x f).1.streams j = s.streams j := by
  refine State.streams_foldl_fst (fun y r => ?_) _ _
  dsimp only
  split
  · rfl
  · exact State.streams_checkRun ..

theorem State.streams_updRead_if (c : Prop) [Decidable c] (errs : List ReadErr) (b len : Nat) (l : List Byte) :
    (if c then (s, l) else s.updRead errs p b len).1.streams j = s.streams j := by
  split
  · rfl
  · exact State.streams_updRead ..
theorem State.streams_writeRun_if (c : Prop) [Decidable c] (errs : List ReadErr) (nme stop : Bool) (b : Nat) (v : List Byte) :
    (if c then s else (s.writeRun errs p nme stop b v).1).streams j = s.streams j := by
  split
  · rfl
  · exact State.streams_writeRun ..
theorem State.streams_invalidTable_if (c : Prop) [Decidable c] : (if c then s.invalidTable p else s).streams j = s.streams j := by
  split
  · exact State.streams_invalidTable
  · rfl

theorem State.streams_updPart (errs : List ReadErr) (d : List Byte) (x : UpdPart) (f : Fmt) (gs : List Nat) (coef : Nat) :
    (s.updPart errs p d x f gs coef).1.streams j = s.streams j := by
  unfold State.updPart
  extract_lets n i o bs16 w0 z arr offs at'
  refine State.streams_foldl_fst (fun y i => ?_) _ _
  extract_lets rd e0 wrt
  have hrd (x : State) (k : Nat) : (rd x k).1.streams j = x.streams j := State.streams_updRead_if ..
  split
  · rfl
  · split
    next s1 wb h1 =>
    split
    next s2 mb h2 =>
    split
    next s3 vb h3 =>
    extract_lets k ws ms vs es bits st s4 s5 s6 s7 s8 s9 s10
    have hs3 : s3.streams j = y.1.streams j := by
      have e1 := hrd y.1 0
      have e2 := hrd s1 1
      have e3 := hrd s2 2
      rw [h1] at e1
      rw [h2] at e2
      rw [h3] at e3
      exact e3.trans (e2.trans e1)
    rw [← hs3]
    split
    · rfl
    · have hwrt (x : State) (k len : Nat) (v : List Byte) : (wrt x k len v).streams j = x.streams j := State.streams_writeRun_if ..
      have hs10 : s10.streams j = s3.streams j := by
        rw [hwrt, hwrt, hwrt, hwrt, hwrt, State.streams_bump, State.streams_nonFinite, State.streams_nfSeen]
      exact (State.streams_invalidTable_if _).trans hs10

/-- A fold that gives one outcome for each element, and leaves the streams at each, does so as a whole. -/
theorem State.outcomes_foldl {α γ : Type} {g : State × List γ → α → State × List γ} {l : List α} {y z : State × List γ}
    (hg : ∀ y x, (g y x).1.streams j = y.1.streams j ∧ (g y x).2.length = y.2.length + 1) (h : l.foldl g y = z) :
    z.1.streams j = y.1.streams j ∧ z.2.length = y.2.length + l.length := by
  induction l generalizing y with
  | nil => rw [← h]; exact ⟨rfl, rfl⟩
  | cons x l ih =>
    obtain ⟨hs, hl⟩ := ih h
    obtain ⟨hs', hl'⟩ := hg y x
    exact ⟨hs.trans hs', by rw [hl, hl', List.length_cons]; omega⟩

/-- R312, R318: a TENSOR that is performed has an outcome for each of its parts, and leaves the other streams alone. -/
theorem State.streams_tensorRun (errs : List ReadErr) (bad : SramErrs) (st : UpdStream) (f : Fmt) :
    ∃ parts : List UpdPart, parts.length = st.parts.length ∧ (s.tensorRun errs bad p st f).streams p =
      (s.streams p).map fun y => if y.id = st.id then { y with ran := true, parts := parts } else y := by
  unfold State.tensorRun
  extract_lets d n clip inv s0 stageAt adds mx
  have hs0 : s0.streams p = s.streams p := State.streams_foldl (fun _ _ => State.streams_sepiaRec ..) _
  split
  next s1 gr h1 =>
  have hgr : s1.streams p = s0.streams p ∧ gr.length = 0 + st.parts.length := by
    refine State.outcomes_foldl (fun y x => ?_) h1
    have href : (y.1.updRefused p d x f).1.streams p = y.1.streams p := State.streams_updRefused ..
    dsimp only
    split
    · exact ⟨href, by simp⟩
    · split
      · exact ⟨(State.streams_updRead ..).trans href, by simp⟩
      · exact ⟨(State.streams_gradRb ..).trans ((State.streams_ifcSend ..).trans href), by simp⟩
  obtain ⟨hs1, hgr⟩ := hgr
  extract_lets un tsq nfG s2 s3 coef
  have hs2 : s2.streams p = s1.streams p := by rw [State.streams_nonFinite, State.streams_nfSeen]
  have hs3 : s3.streams p = s2.streams p := by
    unfold s3
    split
    · exact State.streams_normFormed ..
    · rfl
  split
  next s4 parts h4 =>
  have hparts : s4.streams p = s3.streams p ∧ parts.length = 0 + (gr.zip un).length := by
    refine State.outcomes_foldl (fun y x => ?_) h4
    have hpart : (y.1.updPart errs p d x.1.1 f x.2 coef).1.streams p = y.1.streams p := State.streams_updPart ..
    dsimp only
    split
    · exact ⟨by rw [State.streams_updErr, State.streams_raiseNf], by simp⟩
    · split
      · exact ⟨State.streams_writeRun .., by simp⟩
      · refine ⟨?_, by simp⟩
        split
        · exact (State.streams_updErr ..).trans hpart
        · exact hpart
  obtain ⟨hs4, hparts⟩ := hparts
  have hs5 : (s4.count p 0x0B 16 0 (parts.foldl (fun a x => a + x.elems) 0)).streams p = s.streams p := by
    rw [State.streams_count, hs4, hs3, hs2, hs1, hs0]
  refine ⟨parts, by simpa [un, hgr] using hparts, ?_⟩
  rw [← hs5]
  exact congrArg Upd.streams (State.up_setUp ..)

theorem State.streams_issuedAs (id : Nat) (g : State → State) (j : Nat) :
    (s.issuedAs p id g).streams j = (g (s.issueView p id)).streams j := by
  unfold State.issuedAs
  dsimp only
  split
  · exact State.streams_setUp rfl
  · rfl

theorem State.streams_issueView (id j : Nat) : (s.issueView p id).streams j = s.streams j := by
  unfold State.issueView
  split
  · exact State.streams_setUp rfl
  · rfl

theorem updTensor_gives {n : Nat} (errs : List ReadErr) (bad : SramErrs) {st : UpdStream} {f : Fmt} (hst : (s.up p).streams[n]? = some st)
    (hkind : st.kind = 0) (hran : st.ran = false) (hh : s.halted = false)
    (happly : s.isApply p st.desc = true → (s.up p).normIn ≠ none) (hf : s.workFmt p st.desc = some f) :
    Gives (.updTensor p n errs bad) s fun t => ∃ parts : List UpdPart, parts.length = st.parts.length ∧
      (t.up p).streams = (s.up p).streams.map fun y => if y.id = st.id then { y with ran := true, parts := parts } else y := by
  have hdue : ¬ (st.kind ≠ 0 ∨ st.ran = true ∨ s.halted = true ∨ (s.isApply p st.desc = true ∧ (s.up p).normIn = none)) := by
    simpa [hkind, hran, hh] using happly
  refine ⟨_, rfl, ?_⟩
  unfold State.updTensor
  rw [hst]
  dsimp only
  rw [if_neg hdue, hf]
  obtain ⟨parts, hlen, hs⟩ := (s.issueView p st.id).streams_tensorRun (p := p) errs bad st f
  exact ⟨parts, hlen, (State.streams_issuedAs ..).trans (hs.trans (by rw [State.streams_issueView]; rfl))⟩

/-! ## Parts and records complete (R316, R318, R323, R324) -/

theorem State.regs_updStatus (d : List Byte) (rank code elems : Nat) : (s.updStatus p d rank code elems).regs = s.regs :=
  (State.updStatus_kept (φ := allBut [.cores, .seqs]) _ _ _ _ _ (Kept.refl _ s) rfl rfl).regs rfl

/-- R156: a part that completes lowers its completion set. -/
theorem State.cset_csetSub (n : Nat) : (s.csetSub p n).cset p n = s.cset p n - 1 := by
  have hlt : s.cset p n < 2 ^ 16 := Fld.get_lt Fld.SEQ_CSET_OUT _
  exact State.cset_fput (by omega)

/-- A stack's part of a stream is recorded as complete. -/
def State.partRecorded (s : State) (p : Nat) (st : UpdStream) (x : UpdPart) : State :=
  (s.updStatus p st.desc x.rank x.code x.elems).sepiaRec (unitNme x.stack) 0x43 p x.code

theorem State.regs_partRecorded (st : UpdStream) (x : UpdPart) : (s.partRecorded p st x).regs = s.regs :=
  (State.sepiaRec_kept (φ := allBut [.cores, .seqs, .usage]) _ _ _ _
    (State.updStatus_kept _ _ _ _ _ (Kept.refl _ s) rfl rfl) rfl).regs rfl

/-- With its last part the only stream ends. -/
theorem State.updPartDone_of_last {st : UpdStream} {x : UpdPart} (hs : (s.up p).streams = [st]) (hran : st.ran = true)
    (hx : st.parts = [x]) : s.updPartDone p x.stack =
      ((s.partRecorded p st x).setUp p { (s.partRecorded p st x).up p with streams := [] }).csetSub p st.cset := by
  have hfind : (s.up p).streams.find? (fun y => y.ran && y.parts.any fun z => z.stack == x.stack) = some st := by simp [hs, hran, hx]
  have hpart : st.parts.find? (fun z => z.stack == x.stack) = some x := by simp [hx]
  have hrest : (((s.up p).streams.map fun y => if y.id = st.id then { y with parts := y.parts.erase x } else y).filter fun y =>
      !y.parts.isEmpty) = [] := by simp [hs, hx]
  unfold State.updPartDone
  rw [hfind]
  dsimp only
  rw [hpart]
  dsimp only
  rw [hrest]
  rfl

theorem updStreamComplete_gives {st : UpdStream} {x : UpdPart} (hs : (s.up p).streams = [st]) (hran : st.ran = true) (hx : st.parts = [x]) :
    Gives (.updStreamComplete p x.stack) s fun t => (t.up p).streams = [] ∧ t.cset p st.cset = s.cset p st.cset - 1 := by
  refine ⟨_, rfl, ?_⟩
  dsimp only
  rw [State.updPartDone_of_last hs hran hx, State.cset_csetSub]
  constructor
  · rw [State.csetSub, State.up_fput, State.up_setUp]
  · rw [State.cset_of_rd ((State.rd_setUp ..).trans (State.regs_of_rd (State.regs_partRecorded ..) _))]

/-- A stream of one part that is dropped counts complete, and leaves the rest of the step's record. -/
theorem State.up_dropStream (st : UpdStream) : (s.dropStream p st).up p =
    { s.up p with streams := (s.up p).streams.filter fun y => y.id != st.id } := by
  rw [State.dropStream, State.csetSub, State.up_fput, State.up_setUp]

theorem normOut_gives {st : UpdStream} (hst : ((s.up p).streams.find? fun y => y.kind == 1) = some st) (hh : s.halted = false)
    (hn : ∀ e ∈ (s.up p).norms, st.id ≤ e.1) (hd : s.earlierDone p st.id = true) :
    Gives (.normOut p) s fun t => (t.up p).outDone = true ∧ t.cores.sram = (s.nrecPut p st.desc 0 (leBytes 4 (s.rn (Reg.UPD_NORM_ACC p)) ++
        leBytes 4 (b2n (s.up p).nf + 2 * b2n (s.up p).taint) ++ leBytes 6 (s.stepNo p) ++ leBytes 18 0)).cores.sram := by
  have hdue : ¬ (s.halted = true ∨ ((s.up p).norms.any fun e => decide (e.1 < st.id)) = true ∨ (!s.earlierDone p st.id) = true) := by
    simpa [hh, hd] using fun a b hab => hn (a, b) hab
  refine ⟨_, rfl, ?_⟩
  unfold State.normOut
  rw [hst]
  dsimp only
  rw [if_neg hdue, State.up_dropStream, State.up_setUp]
  exact ⟨rfl, rfl⟩

theorem normIn_gives (bad : SramErrs) {st : UpdStream} (hst : ((s.up p).streams.find? fun y => y.kind == 2) = some st)
    (hh : s.halted = false) : Gives (.normIn p bad) s fun t =>
      let v := (s.sramX p bad (s.pcore p (bitsOf (dNrec st.desc) 18 7)) (32 * (dNrec st.desc % 262144)) 32).2
      (t.up p).normIn = some ⟨leAt v 0 4, bitOf (leAt v 4 1) 0, bitOf (leAt v 4 1) 1⟩ := by
  refine ⟨_, rfl, ?_⟩
  unfold State.normInRd
  rw [hst]
  dsimp only
  rw [if_neg (by simp [hh]), State.up_dropStream, State.up_setUp]

/-! ## Writes of the unit's registers (R310, R332) -/

theorem State.windowW_of_fits {which : Nat} {v : Word} (hs : s.stopped p = true)
    (hz : (s.regWrite (windowReg p which) v).fget (Reg.UPD_BANK_BASE p) Fld.UPD_BANK_BASE_MIB +
      2 * (s.regWrite (windowReg p which) v).fget (Reg.UPD_BANK_SIZE p) Fld.UPD_BANK_SIZE_MIB ≤ s.localGib p * 1024)
    (ha : which = 0 ∨ (s.regWrite (windowReg p which) v).areasOk p = true) : s.windowW p which v = s.regWrite (windowReg p which) v := by
  have hz' := Nat.not_lt.2 hz
  unfold State.windowW
  dsimp only
  rw [if_neg (by simp [hs, hz']), if_neg (by rcases ha with h | h <;> simp [h])]

theorem State.updConfigW_of_plain {off : Nat} (v : Word) (hs : s.stopped p = true) (hw : writableAt (vf p + 0x400000 + off) = true)
    (hoff : off ∉ [0, 4, 0x0C, 0x10]) : s.updConfigW p off v = s.regWrite (vf p + 0x400000 + off) v := by
  simp only [List.mem_cons, List.not_mem_nil, or_false, not_or] at hoff
  obtain ⟨h0, h4, hC, h10⟩ := hoff
  simp [State.updConfigW, hw, hs, h0, h4, hC, h10]

end

/-- Settles O48, row by row. -/
theorem updateRowsComplete : Obligations.UpdateRowsComplete := by
  unfold Obligations.UpdateRowsComplete
  refine ⟨?updTensor, ?updStreamComplete, ?normOut, ?normIn, ?updWindowWrite, ?updConfigWrite⟩
  case updTensor =>
    intro s p n errs bad st f hst hkind hran hh happly hf
    exact updTensor_gives errs bad hst hkind hran hh happly hf
  case updStreamComplete =>
    rintro s p k st x - hs hran hx rfl -
    exact updStreamComplete_gives hs hran hx
  case normOut =>
    intro s p st hst hh hn hd
    exact normOut_gives hst hh hn hd
  case normIn =>
    intro s p bad st hst hh
    exact normIn_gives bad hst hh
  case updWindowWrite =>
    intro s r p which v hg hs s1 hz ha
    exact ⟨_, rfl, (State.write_of_grants _ hg).trans (State.windowW_of_fits hs hz ha)⟩
  case updConfigWrite =>
    intro s r p off v hg hs hw hoff
    exact ⟨_, rfl, (State.write_of_grants _ hg).trans (State.updConfigW_of_plain v hs hw hoff)⟩

end Sys2Proof.Machine

/-! The commit decision: the registers of the step that the operations beside it leave alone, what a decision leaves in them, and that a
snapshot and the end of the period's wait keep it (spec, chapter 07). -/

namespace Sys2Proof.Machine

section
variable {s t : State} {p a : Nat}

/-! ## The registers of the step (R335, R336) -/

/-- The registers that show the decision and the step number. -/
def stepRegs (p : Nat) : List Nat := [Reg.UPD_STATUS p, Reg.UPD_STEP_LO p, Reg.UPD_STEP_HI p]

theorem stepRegs_bounds (h : a ∈ stepRegs p) : vf p + 0x400004 ≤ a ∧ a < vf p + 0x400020 := by
  simp only [stepRegs, Reg.UPD_STATUS, Reg.UPD_STEP_LO, Reg.UPD_STEP_HI, List.mem_cons, List.not_mem_nil, or_false] at h
  omega

theorem ne_of_mem_stepRegs {b : Nat} (h : a ∈ stepRegs p) (hb : b < vf p + 0x400004 ∨ vf p + 0x400020 ≤ b) : a ≠ b := by
  have := stepRegs_bounds h
  omega

theorem streamReg_of_mem_stepRegs (hp : p ∈ allParts) (h : a ∈ stepRegs p) : streamReg a := by
  obtain ⟨h1, h4⟩ := pos_and_le_four_of_mem_allParts hp
  have := stepRegs_bounds h
  exact ⟨p, h1, h4, by omega, by omega⟩

theorem State.rd_irqUpd_step (h : a ∈ stepRegs p) (f : Fld) : (s.irqUpd p f).rd a = s.rd a :=
  State.rd_irq_ne _ _ _ _ _ _ (ne_of_mem_stepRegs h (by unfold Reg.UPD_INT_STATUS; omega))
theorem State.rd_irqCkp_step (h : a ∈ stepRegs p) (f : Fld) : (s.irqCkp p f).rd a = s.rd a :=
  State.rd_irq_ne _ _ _ _ _ _ (ne_of_mem_stepRegs h (by unfold Reg.CKP_INT_STATUS; omega))

/-- A descriptor error other than a divergence is no matter of the step's registers. -/
theorem State.rd_updErr_step (h : a ∈ stepRegs p) {code : Nat} (hc : code ≠ 4) (stack tid : Nat) :
    (s.updErr p code stack tid).rd a = s.rd a := by
  unfold State.updErr
  dsimp only
  rw [State.rd_irqUpd_step h, if_neg hc]
  split
  · rw [State.rd_setUp, State.rd_wn_ne _ (ne_of_mem_stepRegs h (by unfold Reg.UPD_ERR_TID; omega)),
      State.rd_wr_ne _ _ (ne_of_mem_stepRegs h (by unfold Reg.UPD_ERR; omega))]
  · rfl

theorem State.rd_writeState_step (hp : p ∈ allParts) (h : a ∈ stepRegs p) (dec g : Nat) : (s.writeState p dec g).rd a = s.rd a := by
  have hst := streamReg_of_mem_stepRegs hp h
  unfold State.writeState
  dsimp only
  split
  · exact (State.rd_updErr_step h (by decide) ..).trans (State.rd_checkRun hst ..)
  · exact (State.rd_writeRun hst hp ..).trans (State.rd_checkRun hst ..)

theorem State.rd_foldl_of_mem {α : Type} {g : State → α → State} {l : List α} (hg : ∀ t, ∀ x ∈ l, (g t x).rd a = t.rd a) :
    (l.foldl g s).rd a = s.rd a := by
  induction l generalizing s with
  | nil => rfl
  | cons x l ih => rw [List.foldl_cons, ih fun t y hy => hg t y (List.mem_cons_of_mem _ hy), hg s x List.mem_cons_self]

/-- R338: the indices that settle are those of the partition's own rings. -/
theorem State.rd_settleRings_step (h : a ∈ stepRegs p) (keep : Bool) : (s.settleRings p keep).rd a = s.rd a := by
  have hadv (x : State) (m : SMap Nat) : ({ x with ringAdv := m } : State).rd a = x.rd a := rfl
  unfold State.settleRings
  dsimp only
  rw [hadv]
  split
  · refine State.rd_foldl_of_mem fun t e he => State.rd_wn_ne _ (ne_of_mem_stepRegs h ?_)
    have hring := of_decide_eq_true (List.mem_filter.1 he).2
    split <;> (simp only [Reg.SEQ_RING_CONS, Reg.SEQ_RING_PROD]; omega)
  · rfl

/-! ## The decision (R331, R336) -/

theorem State.verdict_le_three : s.verdict p ≤ 3 := by
  unfold State.verdict
  dsimp only
  split_ifs <;> decide

theorem State.stepNo_of_rd (hlo : t.rd (Reg.UPD_STEP_LO p) = s.rd (Reg.UPD_STEP_LO p))
    (hhi : t.rd (Reg.UPD_STEP_HI p) = s.rd (Reg.UPD_STEP_HI p)) : t.stepNo p = s.stepNo p := by
  unfold State.stepNo State.rd64
  rw [State.rn_of_rd hlo, State.rn_of_rd (show t.rd (Reg.UPD_STEP_LO p + 4) = s.rd (Reg.UPD_STEP_LO p + 4) from hhi)]

theorem State.stepNo_setStep (v : Nat) : (s.setStep p v).stepNo p = v % 2 ^ 48 := by
  have hlo : (s.setStep p v).rn (Reg.UPD_STEP_LO p) = v % 2 ^ 32 := by
    rw [State.setStep, State.rn_of_rd (State.rd_wn_ne _ (by unfold Reg.UPD_STEP_LO Reg.UPD_STEP_HI; omega)), State.rn_wn]
  have hhi : (s.setStep p v).rn (Reg.UPD_STEP_LO p + 4) = v / 4294967296 % 65536 % 2 ^ 32 := State.rn_wn ..
  unfold State.stepNo State.rd64
  rw [hlo, hhi]
  omega

/-- R331: the loss scale has registers of its own, beside the floor that the status shows. -/
theorem State.rd_lossScale_step (h : a ∈ stepRegs p) (hst : a ≠ Reg.UPD_STATUS p) (committed : Bool) : (s.lossScale p committed).rd a = s.rd a := by
  have hls (x : State) (v : Nat) : (x.fput (Reg.UPD_LS p) Fld.UPD_LS_EXP v).rd a = x.rd a :=
    State.rd_fput_ne _ _ _ (ne_of_mem_stepRegs h (by unfold Reg.UPD_LS; omega))
  have hclean (x : State) (v : Nat) : (x.fput (Reg.UPD_CLEAN p) Fld.UPD_CLEAN_COUNT v).rd a = x.rd a :=
    State.rd_fput_ne _ _ _ (ne_of_mem_stepRegs h (by unfold Reg.UPD_CLEAN; omega))
  have hfloor (x : State) (bits : Nat) : (x.setBits (Reg.UPD_STATUS p) bits).rd a = x.rd a := State.rd_setBits_ne _ hst
  unfold State.lossScale
  dsimp only
  split_ifs <;> simp only [hls, hclean, hfloor]

/-- A bit outside a field that is set leaves the field. -/
theorem Fld.get_or_apart (f : Fld) (w : Word) {k : Nat} (h : k < f.lo ∨ f.lo + f.width ≤ k) :
    f.get (w ||| BitVec.ofNat 32 (2 ^ k)) = f.get w := by
  have hbit (i : Nat) (hi : i < f.width) : (w ||| BitVec.ofNat 32 (2 ^ k)).toNat.testBit (f.lo + i) = w.toNat.testBit (f.lo + i) := by
    have hk : k ≠ f.lo + i := by omega
    rw [BitVec.toNat_or, BitVec.toNat_ofNat, Nat.testBit_or, Nat.testBit_mod_two_pow, Nat.testBit_two_pow, decide_eq_false hk,
      Bool.and_false, Bool.or_false]
  refine Nat.eq_of_testBit_eq fun i => ?_
  simp only [Fld.get, bitsOf, Nat.testBit_mod_two_pow, Nat.testBit_div_two_pow]
  by_cases hi : i < f.width
  · rw [Nat.add_comm i, hbit i hi]
  · simp [hi]

theorem State.fget_setBits_apart (b : Nat) (f g : Fld) (h : g.lo < f.lo ∨ f.lo + f.width ≤ g.lo) :
    (s.setBits b g.mask).fget b f = s.fget b f := by
  rw [State.setBits_eq, State.fget, State.rd_wr]
  exact Fld.get_or_apart f _ h

/-- R331, R336: the step number and the loss scale that a decision leads to. -/
def State.stepDecided (s : State) (p : Nat) : State :=
  if s.verdict p ≠ 3 then (s.setStep p (s.stepNo p + 1)).lossScale p (s.verdict p == 1) else s

/-- R336: what a committed step, and a skipped one, counts and keeps, in the state `x` that the step number has reached. -/
def State.stepCounted (s x : State) (p : Nat) : State :=
  if s.verdict p = 1 then
    ((List.range 8).foldl (fun t n =>
      (t.wn (Reg.UPD_OPT_P1 p n) (((s.up p).scal.getD n []).getD 3 0)).wn (Reg.UPD_OPT_P2 p n) (((s.up p).scal.getD n []).getD 4 0))
      (((x.wn (Reg.UPD_EPOCH p) (x.rn (Reg.UPD_EPOCH p) + 1)).wn (Reg.UPD_TCOUNT p) (x.rn (Reg.UPD_TCOUNT p) + 1)).wn
        (Reg.UPD_GNORM_LAG p) (sqrt32 (s.gnorm p)))).fput (Reg.UPD_STATUS p) Fld.UPD_STATUS_HIST 1
  else if s.verdict p = 2 then x.bump (Reg.UPD_SKIP_COUNT p) Fld.UPD_SKIP_COUNT_COUNT 1 else x

/-- R324, R338: the decision and the norm are shown, and the rings settle. -/
def State.decisionShown (s x : State) (p : Nat) : State :=
  ((x.wn (Reg.UPD_GNORM_SQ p) (s.gnorm p)).fput (Reg.UPD_STATUS p) Fld.UPD_STATUS_LAST (s.verdict p)).settleRings p (s.verdict p != 3)

/-- R325, R327: a divergence is shown. -/
def State.divergenceShown (s x : State) (p : Nat) : State :=
  if s.diverges p then (x.setBits (Reg.UPD_STATUS p) Fld.UPD_STATUS_DIVERGE.mask).irqUpd p Fld.UPD_INT_STATUS_DIVERGE else x

/-- R314, R337: the decision is traced, the next step's control begins, and the state record is written. -/
def State.decisionRecorded (s x : State) (p : Nat) : State :=
  let y := (x.sepiaRec (unitSeq p) 0x13 p (s.verdict p + 4 * (s.stepNo p % 2 ^ 30))).count p (0x0F + s.verdict p) 16 0 1
  let u := y.up p
  ((y.setUp p { u with nf := false, taint := u.taintNext, taintNext := false, normIn := none, mismatch := false, outDone := false,
                       afterOut := false }).latchScalars p).writeState p (s.verdict p) (s.gnorm p)

/-- R335: a decision is reported (DECIDED, with SKIP or TAINT by the verdict). -/
def State.decisionReported (s x : State) (p : Nat) : State :=
  (if s.verdict p = 2 then x.irqUpd p Fld.UPD_INT_STATUS_SKIP else if s.verdict p = 3 then x.irqUpd p Fld.UPD_INT_STATUS_TAINT else x).irqUpd
    p Fld.UPD_INT_STATUS_DECIDED

/-- R335 to R338: a decision, part by part. -/
theorem State.makeDecision_eq (s : State) (p : Nat) : s.makeDecision p =
    let x := s.decisionRecorded (s.divergenceShown (s.decisionShown (s.stepCounted (s.stepDecided p) p) p) p) p
    s.decisionReported (x.fput (Reg.UPD_STATUS p) Fld.UPD_STATUS_PENDING 0) p := rfl

theorem State.rd_stepCounted (x : State) (ha : a ∈ stepRegs p) (hst : a ≠ Reg.UPD_STATUS p) : (s.stepCounted x p).rd a = x.rd a := by
  have he : a ≠ Reg.UPD_EPOCH p := by
    simp only [stepRegs, Reg.UPD_STATUS, Reg.UPD_STEP_LO, Reg.UPD_STEP_HI, List.mem_cons, List.not_mem_nil, or_false] at ha hst
    unfold Reg.UPD_EPOCH
    omega
  have hopt (y : State) (n v w : Nat) : ((y.wn (Reg.UPD_OPT_P1 p n) v).wn (Reg.UPD_OPT_P2 p n) w).rd a = y.rd a := by
    rw [State.rd_wn_ne _ (ne_of_mem_stepRegs ha (by unfold Reg.UPD_OPT_P2; omega)),
      State.rd_wn_ne _ (ne_of_mem_stepRegs ha (by unfold Reg.UPD_OPT_P1; omega))]
  unfold State.stepCounted
  split_ifs
  · rw [State.rd_fput_ne _ _ _ hst, State.rd_foldl fun y n => hopt y n _ _,
      State.rd_wn_ne _ (ne_of_mem_stepRegs ha (by unfold Reg.UPD_GNORM_LAG; omega)),
      State.rd_wn_ne _ (ne_of_mem_stepRegs ha (by unfold Reg.UPD_TCOUNT; omega)), State.rd_wn_ne _ he]
  · exact State.rd_bump_ne _ _ (ne_of_mem_stepRegs ha (by unfold Reg.UPD_SKIP_COUNT; omega))
  · rfl

theorem State.rd_decisionShown (x : State) (ha : a ∈ stepRegs p) (hst : a ≠ Reg.UPD_STATUS p) : (s.decisionShown x p).rd a = x.rd a := by
  rw [State.decisionShown, State.rd_settleRings_step ha, State.rd_fput_ne _ _ _ hst,
    State.rd_wn_ne _ (ne_of_mem_stepRegs ha (by unfold Reg.UPD_GNORM_SQ; omega))]

theorem UPD_STATUS_mem_stepRegs (p : Nat) : Reg.UPD_STATUS p ∈ stepRegs p := List.mem_cons_self

theorem State.fget_LAST_decisionShown (x : State) :
    (s.decisionShown x p).fget (Reg.UPD_STATUS p) Fld.UPD_STATUS_LAST = s.verdict p := by
  rw [State.decisionShown, State.fget_of_rd (State.rd_settleRings_step (UPD_STATUS_mem_stepRegs p) _), State.fget_fput _ _ _ _ (by decide)]
  exact Nat.mod_eq_of_lt (lt_of_le_of_lt State.verdict_le_three (by decide))

theorem State.rd_divergenceShown (x : State) (ha : a ∈ stepRegs p) (hst : a ≠ Reg.UPD_STATUS p) :
    (s.divergenceShown x p).rd a = x.rd a := by
  unfold State.divergenceShown
  split
  · rw [State.rd_irqUpd_step ha, State.rd_setBits_ne _ hst]
  · rfl

theorem State.fget_LAST_divergenceShown (x : State) :
    (s.divergenceShown x p).fget (Reg.UPD_STATUS p) Fld.UPD_STATUS_LAST = x.fget (Reg.UPD_STATUS p) Fld.UPD_STATUS_LAST := by
  unfold State.divergenceShown
  split
  · rw [State.fget_of_rd (State.rd_irqUpd_step (UPD_STATUS_mem_stepRegs p) _), State.fget_setBits_apart _ _ _ (by decide)]
  · rfl

theorem State.rd_decisionRecorded (x : State) (hp : p ∈ allParts) (ha : a ∈ stepRegs p) : (s.decisionRecorded x p).rd a = x.rd a := by
  unfold State.decisionRecorded
  dsimp only
  rw [State.rd_writeState_step hp ha, State.rd_latchScalars, State.rd_setUp, State.rd_count, State.rd_sepiaRec]

theorem State.rd_decisionReported (x : State) (ha : a ∈ stepRegs p) : (s.decisionReported x p).rd a = x.rd a := by
  unfold State.decisionReported
  rw [State.rd_irqUpd_step ha]
  split_ifs
  · exact State.rd_irqUpd_step ha _
  · exact State.rd_irqUpd_step ha _
  · rfl

theorem State.rd_makeDecision_step (hp : p ∈ allParts) (ha : a ∈ stepRegs p) (hst : a ≠ Reg.UPD_STATUS p) :
    (s.makeDecision p).rd a = (s.stepDecided p).rd a := by
  rw [State.makeDecision_eq]
  dsimp only
  rw [State.rd_decisionReported _ ha, State.rd_fput_ne _ _ _ hst, State.rd_decisionRecorded _ hp ha, State.rd_divergenceShown _ ha hst,
    State.rd_decisionShown _ ha hst, State.rd_stepCounted _ ha hst]

theorem State.flag_PENDING_makeDecision : (s.makeDecision p).flag (Reg.UPD_STATUS p) Fld.UPD_STATUS_PENDING = false := by
  rw [State.makeDecision_eq]
  dsimp only
  rw [State.flag_of_rd (State.rd_decisionReported _ (UPD_STATUS_mem_stepRegs p))]
  exact State.flag_fput_b2n false rfl (by decide)

theorem State.fget_LAST_makeDecision (hp : p ∈ allParts) :
    (s.makeDecision p).fget (Reg.UPD_STATUS p) Fld.UPD_STATUS_LAST = s.verdict p := by
  rw [State.makeDecision_eq]
  dsimp only
  rw [State.fget_of_rd (State.rd_decisionReported _ (UPD_STATUS_mem_stepRegs p)),
    State.fget_fput_field _ _ _ _ _ (by decide) (by decide),
    State.fget_of_rd (State.rd_decisionRecorded _ hp (UPD_STATUS_mem_stepRegs p)), State.fget_LAST_divergenceShown,
    State.fget_LAST_decisionShown]

theorem State.stepNo_of_step (h : ∀ a ∈ stepRegs p, a ≠ Reg.UPD_STATUS p → t.rd a = s.rd a) : t.stepNo p = s.stepNo p :=
  State.stepNo_of_rd (h _ (by simp [stepRegs]) (by unfold Reg.UPD_STEP_LO Reg.UPD_STATUS; omega))
    (h _ (by simp [stepRegs]) (by unfold Reg.UPD_STEP_HI Reg.UPD_STATUS; omega))

theorem State.stepNo_makeDecision (hp : p ∈ allParts) :
    (s.makeDecision p).stepNo p = if s.verdict p ≠ 3 then (s.stepNo p + 1) % 2 ^ 48 else s.stepNo p := by
  rw [State.stepNo_of_step fun a ha hst => State.rd_makeDecision_step hp ha hst, State.stepDecided]
  split
  · rw [State.stepNo_of_step fun a ha hst => State.rd_lossScale_step ha hst _, State.stepNo_setStep]
  · rfl

theorem State.sq_makeDecision (j : Nat) : (s.makeDecision p).sq j = s.sq j :=
  State.sq_of_kept (φ := allBut [.mem, .keys, .regs, .out, .poison, .channels, .usage, .upds, .ringAdv, .haltReq])
    (State.makeDecision_kept _ (Kept.refl _ _) rfl rfl rfl rfl rfl rfl rfl rfl rfl rfl) rfl j

/-! ## What follows a decision (R124, R125, R454) -/

theorem State.rd_setSlot_step (ha : a ∈ stepRegs p) (i st : Nat) (hi : i < 2) : (s.setSlot p i st).rd a = s.rd a :=
  State.rd_fput_ne _ _ _ (ne_of_mem_stepRegs ha (by unfold Reg.CKP_SLOT_STAT; omega))

theorem State.rd_fput_CKP_STATUS_step (ha : a ∈ stepRegs p) (f : Fld) (v : Nat) : (s.fput (Reg.CKP_STATUS p) f v).rd a = s.rd a :=
  State.rd_fput_ne _ _ _ (ne_of_mem_stepRegs ha (by unfold Reg.CKP_STATUS; omega))

theorem State.rd_ckpErr_step (ha : a ∈ stepRegs p) (code : Nat) : (s.ckpErr p code).rd a = s.rd a := by
  unfold State.ckpErr
  dsimp only
  rw [State.rd_irqCkp_step ha]
  split
  · exact State.rd_fput_ne _ _ _ (ne_of_mem_stepRegs ha (by unfold Reg.CKP_ERR; omega))
  · rfl

theorem State.lake_of_kept {φ : Part → Bool} (h : Kept φ s t) (hl : φ .lakes = true) (j : Nat) : t.lake j = s.lake j := by
  unfold State.lake; rw [h.lakes hl]

/-- A key of a snapshot is loaded with use of another: key slots, and the alert of one that reaches its limit. -/
theorem State.lakeKey_keeps (kid seqno : Nat) : Kept (allBut [.keys, .regs, .out]) s (s.lakeKey p kid seqno).1 :=
  State.lakeKey_kept _ _ _ (Kept.refl _ s) rfl rfl rfl

theorem State.ckpWrite_keeps (kid rank u : Nat) (v : List Byte) :
    Kept (allBut [.mem, .keys, .regs, .out, .poison, .channels, .upds, .haltReq]) s (s.ckpWrite p kid rank u v).1 :=
  State.ckpWrite_kept _ _ _ _ _ (Kept.refl _ s) rfl rfl rfl rfl rfl rfl rfl rfl

theorem State.rd_lakeKey (h : streamReg a) (kid seqno : Nat) : (s.lakeKey p kid seqno).1.rd a = s.rd a := by
  unfold State.lakeKey
  split
  · rfl
  · split
    · rfl
    · rw [State.rd_of_kept (State.loadPair_kept (φ := allBut [.keys]) _ _ _ _ _ (Kept.refl _ _) rfl) rfl, State.rd_useKey h]

theorem State.rd_ckpWrite (h : streamReg a) (hp : p ∈ allParts) (kid rank u : Nat) (v : List Byte) :
    (s.ckpWrite p kid rank u v).1.rd a = s.rd a := by
  unfold State.ckpWrite
  dsimp only
  split
  · exact State.rd_checkRun h ..
  · exact (State.rd_writeRun h hp ..).trans (State.rd_checkRun h ..)

theorem State.rd_snapEnd_step (ha : a ∈ stepRegs p) (hj : ∀ j, (s.lake p).snap = some j → j < 2) : (s.snapEnd p).rd a = s.rd a := by
  unfold State.snapEnd
  split
  · rfl
  next j hs =>
    rw [State.rd_fput_CKP_STATUS_step ha, State.rd_setSlot_step ha _ _ (hj j hs)]
    rfl

theorem State.sq_ckpErr (code j : Nat) : (s.ckpErr p code).sq j = s.sq j :=
  State.sq_of_kept (φ := allBut [.regs, .out]) (State.ckpErr_kept _ _ (Kept.refl _ s) rfl rfl) rfl j
theorem State.sq_snapEnd (j : Nat) : (s.snapEnd p).sq j = s.sq j :=
  State.sq_of_kept (φ := allBut [.regs, .lakes]) (State.snapEnd_kept _ (Kept.refl _ s) rfl rfl) rfl j

/-- A register and a partition's stream are as they were. -/
structure StepKept (s t : State) (p a : Nat) : Prop where
  rd : t.rd a = s.rd a
  sq : t.sq p = s.sq p

theorem StepKept.ite {c : Prop} [Decidable c] {u : State} (h : StepKept s t p a) (h' : StepKept s u p a) :
    StepKept s (if c then t else u) p a := by split <;> assumption

/-- A snapshot from `s` is in progress in `t`, and its slot is one of two. -/
structure SnapFrom (s t : State) (p a : Nat) : Prop extends StepKept s t p a where
  slot : ∀ j, (t.lake p).snap = some j → j < 2

theorem SnapFrom.kept {φ : Part → Bool} {u : State} (h : SnapFrom s t p a) (hk : Kept φ t u) (hs : φ .seqs = true) (hl : φ .lakes = true)
    (hr : u.rd a = t.rd a) : SnapFrom s u p a where
  rd := hr.trans h.rd
  sq := (State.sq_of_kept hk hs p).trans h.sq
  slot j hj := h.slot j (by rw [← State.lake_of_kept hk hl]; exact hj)

theorem SnapFrom.fails (h : SnapFrom s t p a) (ha : a ∈ stepRegs p) (code : Nat) :
    StepKept s ((t.snapEnd p).ckpErr p code) p a :=
  ⟨by rw [State.rd_ckpErr_step ha, State.rd_snapEnd_step ha h.slot, h.rd], by rw [State.sq_ckpErr, State.sq_snapEnd, h.sq]⟩

/-- R454: the first steps of a snapshot of a slot. -/
theorem snapFrom_begun (ha : a ∈ stepRegs p) {x : Lake} {i seq : Nat} (hx : x.snap = some i) (hi : i < 2) :
    SnapFrom s ((((s.setLake p x).wn (Reg.CKP_SEQNO p) seq).setSlot p i 1).fput (Reg.CKP_STATUS p) Fld.CKP_STATUS_SNAP_BUSY 1) p a where
  rd := by
    rw [State.rd_fput_CKP_STATUS_step ha, State.rd_setSlot_step ha _ _ hi, State.rd_wn_ne _ (ne_of_mem_stepRegs ha (by unfold Reg.CKP_SEQNO; omega))]
    rfl
  sq := by rw [State.sq_fput, State.setSlot, State.sq_fput, State.sq_wn, State.sq_setLake]
  slot j hj := by
    have hl : ((((s.setLake p x).wn (Reg.CKP_SEQNO p) seq).setSlot p i 1).fput (Reg.CKP_STATUS p) Fld.CKP_STATUS_SNAP_BUSY 1).lake p = x :=
      (State.lake_of_kept (φ := allBut [.regs]) (State.fput_kept _ _ _ (State.setSlot_kept _ _ _
        (State.wn_kept _ _ (Kept.refl _ _) rfl) rfl) rfl) rfl p).trans (State.lake_setLake ..)
    rw [hl, hx] at hj
    exact Option.some.inj hj ▸ hi

/-- R453: a snapshot that is deferred is counted. -/
theorem stepKept_deferred (ha : a ∈ stepRegs p) : StepKept s
    ((s.bump (Reg.CKP_DEFER_COUNT p) Fld.CKP_DEFER_COUNT_COUNT 1).irqCkp p Fld.CKP_INT_STATUS_DEFER) p a where
  rd := by rw [State.rd_irqCkp_step ha, State.rd_bump_ne _ _ (ne_of_mem_stepRegs ha (by unfold Reg.CKP_DEFER_COUNT; omega))]
  sq := by rw [State.irqCkp, State.sq_irq, State.bump, State.sq_fput]

/-- The slot that is not the newest is one of two. -/
theorem otherSlot_lt_two : ∀ newest : Option Nat, (match newest with | some k => 1 - k | none => 0) < 2
  | none => by decide
  | some k => by dsimp only; omega

/-- R453, R454: a snapshot that starts or is deferred is no matter of the decision. -/
theorem State.snapStart_keeps (hp : p ∈ allParts) (ha : a ∈ stepRegs p) :
    StepKept s (s.snapStart p) p a := by
  have hst := streamReg_of_mem_stepRegs hp ha
  unfold State.snapStart
  extract_lets newest j seq q c l s1 s2 x s3 v y
  have hj : j < 2 := otherSlot_lt_two newest
  have h2 : SnapFrom s s2 p a := snapFrom_begun ha rfl hj
  have h3 : SnapFrom s s3 p a := h2.kept (State.lakeKey_keeps ..) rfl rfl (State.rd_lakeKey hst ..)
  -- the kernel is not to compute the state the key was loaded in
  clear_value s3 v
  have h4 : SnapFrom s y.1 p a := h3.kept (State.ckpWrite_keeps ..) rfl rfl (State.rd_ckpWrite hst hp ..)
  exact StepKept.ite (stepKept_deferred ha) (StepKept.ite (h3.fails ha 4) (StepKept.ite (h4.fails ha y.2) h4.toStepKept))

/-- R124: the successor is chosen by the loop counters. -/
theorem State.rd_choose_step (ha : a ∈ stepRegs p) (tainted : Bool) (hl : ∀ l, (s.sq p).loopRec = some l → l.lvl < 4) :
    (s.choose p tainted).rd a = s.rd a := by
  have hloop (x : State) {n : Nat} (hn : n < 4) (v : Nat) : (x.wn (Reg.SEQ_LOOP p n) v).rd a = x.rd a :=
    State.rd_wn_ne _ (ne_of_mem_stepRegs ha (by unfold Reg.SEQ_LOOP; omega))
  have hpick : (State.choose.pick p s (s.sq p) (s.sq p).loopRec).1.rd a = s.rd a := by
    unfold State.choose.pick
    split
    next l h =>
      split
      · exact hloop s (hl l h) _
      · exact hloop s (hl l h) _
    · rfl
  unfold State.choose
  dsimp only
  rw [State.rd_setSq]
  split
  · split
    · refine State.rd_foldl_of_mem fun x n hn => ?_
      split
      · exact hloop x (List.mem_range.1 hn) 0
      · rfl
    · exact hpick
  · exact hpick

theorem State.rd_enterStopped_step (hp : p ∈ allParts) (ha : a ∈ stepRegs p) : (s.enterStopped p).rd a = s.rd a := by
  obtain ⟨h1, -⟩ := pos_and_le_four_of_mem_allParts hp
  have hlo := (streamReg_of_mem_stepRegs hp ha).lo
  have hb := stepRegs_bounds ha
  unfold State.enterStopped State.seqPacketDone
  rw [State.rd_mapBufs (by omega) _ _ (by omega), State.rd_sepiaRec,
    State.rd_setSeqState _ (ne_of_mem_stepRegs ha (by unfold Reg.SEQ_STATUS; omega)) (ne_of_mem_stepRegs ha (by unfold Reg.FMT_STATUS; omega))
      (by unfold Reg.PWR_SAG_STAT; omega),
    State.rd_fput_ne _ _ _ (ne_of_mem_stepRegs ha (by unfold Reg.SEQ_CTRL; omega)),
    State.rd_wn_ne _ (ne_of_mem_stepRegs ha (by unfold Reg.SEQ_PC; omega)), State.rd_setSq]

/-- R125: the gate that waits goes on, or a pending STOP takes effect. -/
theorem State.rd_afterDecision_step (hp : p ∈ allParts) (ha : a ∈ stepRegs p) (hl : ∀ l, (s.sq p).loopRec = some l → l.lvl < 4) :
    (s.afterDecision p).rd a = s.rd a := by
  unfold State.afterDecision
  split
  · dsimp only
    split
    next hstop => rw [State.toGate, if_pos hstop, State.rd_enterStopped_step hp ha, State.rd_choose_step ha _ hl]
    · exact State.rd_choose_step ha _ hl
  · rfl

/-- R335: a decision that can be made is made, and what follows it keeps the registers of the step. -/
theorem State.rd_commitDecision_step (hp : p ∈ allParts) (hr : s.decisionReady p = true) (hl : ∀ l, (s.sq p).loopRec = some l → l.lvl < 4)
    (ha : a ∈ stepRegs p) : (s.commitDecision p).rd a = (s.makeDecision p).rd a := by
  have hloop {x : State} (hx : x.sq p = (s.makeDecision p).sq p) : ∀ l, (x.sq p).loopRec = some l → l.lvl < 4 := by
    rw [hx, State.sq_makeDecision]
    exact hl
  unfold State.commitDecision
  rw [if_neg (by simp [hr])]
  dsimp only
  split
  · obtain ⟨hrd, hsq⟩ := (s.makeDecision p).snapStart_keeps hp ha
    exact (State.rd_afterDecision_step hp ha (hloop hsq)).trans hrd
  · exact State.rd_afterDecision_step hp ha (hloop rfl)

end

/-- Settles O49: the decision leaves its verdict and the step number, and neither a snapshot nor the end of the wait changes them. -/
theorem commitDecisionCompletes : Obligations.CommitDecisionCompletes := by
  unfold Obligations.CommitDecisionCompletes
  intro s p hp hr hl
  have hrd {a : Nat} (ha : a ∈ stepRegs p) := State.rd_commitDecision_step hp hr hl ha
  have hstep : (s.commitDecision p).stepNo p = if s.verdict p ≠ 3 then (s.stepNo p + 1) % 2 ^ 48 else s.stepNo p :=
    (State.stepNo_of_step fun a ha _ => hrd ha).trans (State.stepNo_makeDecision hp)
  refine ⟨_, rfl, ?_, ?_, fun hv => ?_, fun hv => ?_⟩
  · exact (State.flag_of_rd (hrd (UPD_STATUS_mem_stepRegs p))).trans State.flag_PENDING_makeDecision
  · exact (State.fget_of_rd (hrd (UPD_STATUS_mem_stepRegs p))).trans (State.fget_LAST_makeDecision hp)
  · rw [hstep, if_pos hv]
  · rw [hstep, if_neg (not_not.2 hv)]

end Sys2Proof.Machine

/-! The rows of the Leold ports' training and registers: what entering a state of the training table writes and what it leaves alone,
and the statements settled with them (spec, chapter 08). -/

namespace Sys2Proof.Machine

section
variable {s t : State} {n a : Nat}

/-! ## Ports, keys and windows that an operation leaves alone -/

theorem State.port_of_kept {φ : Part → Bool} (h : Kept φ s t) (hp : φ .ports = true) (j : Nat) : t.port j = s.port j := by
  unfold State.port; rw [h.ports hp]

theorem State.key_of_kept {φ : Part → Bool} (h : Kept φ s t) (hk : φ .keys = true) (j : Nat) : t.key j = s.key j := by
  unfold State.key; rw [h.keys hk]

@[simp] theorem State.port_wr (w : Word) (j : Nat) : (s.wr a w).port j = s.port j := (rfl)
@[simp] theorem State.port_fput (f : Fld) (v j : Nat) : (s.fput a f v).port j = s.port j := (rfl)
@[simp] theorem State.port_bump (f : Fld) (d j : Nat) : (s.bump a f d).port j = s.port j := (rfl)
@[simp] theorem State.port_bump64 (d j : Nat) : (s.bump64 a d).port j = s.port j :=
  State.port_of_kept (State.bump64_kept (φ := allBut [.regs]) a d (Kept.refl _ s) rfl) rfl j
@[simp] theorem State.port_emit (o : Output) (j : Nat) : (s.emit o).port j = s.port j := (rfl)
@[simp] theorem State.port_showUsed (j : Nat) : (s.showUsed n).port j = s.port j :=
  State.port_of_kept (State.showUsed_kept (φ := allBut [.regs]) n (Kept.refl _ s) rfl) rfl j
@[simp] theorem State.port_sepiaRec (unit code owner arg j : Nat) : (s.sepiaRec unit code owner arg).port j = s.port j :=
  State.port_of_kept (State.sepiaRec_kept (φ := allBut [.usage]) unit code owner arg (Kept.refl _ s) rfl) rfl j
@[simp] theorem State.port_irqLl (i : Nat) (f : Fld) (j : Nat) : (s.irqLl i f).port j = s.port j :=
  State.port_of_kept (State.irqLl_kept (φ := allBut [.regs, .out, .events]) i f (Kept.refl _ s) rfl rfl rfl) rfl j

@[simp] theorem State.key_setPort (x : Port) (j : Nat) : (s.setPort n x).key j = s.key j := (rfl)
@[simp] theorem State.key_fput (f : Fld) (v j : Nat) : (s.fput a f v).key j = s.key j := (rfl)
@[simp] theorem State.key_sepiaRec (unit code owner arg j : Nat) : (s.sepiaRec unit code owner arg).key j = s.key j :=
  State.key_of_kept (State.sepiaRec_kept (φ := allBut [.usage]) unit code owner arg (Kept.refl _ s) rfl) rfl j

@[simp] theorem State.rd_setPort (x : Port) (b : Nat) : (s.setPort n x).rd b = s.rd b := (rfl)
@[simp] theorem State.rd_setWin (p : Nat) (x : Wins) (b : Nat) : (s.setWin p x).rd b = s.rd b := (rfl)
@[simp] theorem State.rd_setLake (p : Nat) (x : Lake) (b : Nat) : (s.setLake p x).rd b = s.rd b := (rfl)

/-! ## Registers that a port's training leaves alone -/

/-- A register of the physical function that neither a port's events nor its loss write, but for its own status register. -/
structure LinkSafe (n a : Nat) : Prop where
  pf : a < 0x10000000
  mgt : a ≠ Reg.MGT_INT_STATUS
  int : a ≠ Reg.LL_INT_STATUS n
  used : a ≠ Reg.LL_REPLAY n
  bind : ∀ p ∈ allParts, a ≠ Reg.LL_BIND n p

/-- The first registers of a port, and its training table. -/
theorem linkSafe_of_bounds (hn : n < 16) (h : 0x500000 + 65536 * n ≤ a ∧ a < 0x500010 + 65536 * n ∨
    0x500200 + 65536 * n ≤ a ∧ a < 0x510000 + 65536 * n) : LinkSafe n a where
  pf := by omega
  mgt := by unfold Reg.MGT_INT_STATUS; omega
  int := by unfold Reg.LL_INT_STATUS; omega
  used := by unfold Reg.LL_REPLAY; omega
  bind p hp := by
    obtain ⟨h1, h4⟩ := pos_and_le_four_of_mem_allParts hp
    unfold Reg.LL_BIND; omega

theorem linkSafe_LL_PORT_CTRL (hn : n < 16) : LinkSafe n (Reg.LL_PORT_CTRL n) :=
  linkSafe_of_bounds hn (by unfold Reg.LL_PORT_CTRL; omega)
theorem linkSafe_LL_PORT_STAT (hn : n < 16) : LinkSafe n (Reg.LL_PORT_STAT n) :=
  linkSafe_of_bounds hn (by unfold Reg.LL_PORT_STAT; omega)
theorem linkSafe_LL_PEER (hn : n < 16) : LinkSafe n (Reg.LL_PEER n) := linkSafe_of_bounds hn (by unfold Reg.LL_PEER; omega)
theorem linkSafe_LL_TRAIN_0 (hn : n < 16) {i : Nat} (hi : i < 16) : LinkSafe n (Reg.LL_TRAIN_0 n i) :=
  linkSafe_of_bounds hn (by unfold Reg.LL_TRAIN_0; omega)
theorem LL_PORT_CTRL_ne_LL_PORT_STAT : Reg.LL_PORT_CTRL n ≠ Reg.LL_PORT_STAT n := by
  unfold Reg.LL_PORT_CTRL Reg.LL_PORT_STAT; omega
theorem LL_PEER_ne_LL_PORT_STAT : Reg.LL_PEER n ≠ Reg.LL_PORT_STAT n := by unfold Reg.LL_PEER Reg.LL_PORT_STAT; omega

theorem State.rd_platEvent (kind arg : Nat) (h : a ≠ Reg.MGT_INT_STATUS) : (s.platEvent kind arg).rd a = s.rd a := by
  unfold State.platEvent State.irqMgt
  extract_lets full s1 s2
  have h2 : s2.rd a = s.rd a := by
    by_cases hf : full = true
    · exact (congrArg (State.rd · a) (if_pos hf)).trans (State.rd_irq_ne s1 _ _ _ _ _ h)
    · exact (congrArg (State.rd · a) (if_neg hf)).trans (rfl : s1.rd a = s.rd a)
  split <;> exact h2

/-- R391: a port event is shown in the port's interrupt status, and to the platform. -/
theorem State.rd_irqLl (f : Fld) (h : a ≠ Reg.LL_INT_STATUS n) (h' : a ≠ Reg.MGT_INT_STATUS) : (s.irqLl n f).rd a = s.rd a := by
  unfold State.irqLl
  rw [State.rd_platEvent _ _ h', State.rd_irq_ne _ _ _ _ _ _ h]

theorem State.rd_showUsed (h : a ≠ Reg.LL_REPLAY n) : (s.showUsed n).rd a = s.rd a := by
  unfold State.showUsed
  dsimp only
  rw [State.rd_fput_ne _ _ _ h, State.rd_fput_ne _ _ _ h]

theorem State.rd_strandWindows : (s.strandWindows n).rd a = s.rd a :=
  State.rd_of_kept (State.strandWindows_kept (φ := allBut [.wins]) n (Kept.refl _ s) rfl) rfl a

theorem State.rd_revokeLink (h : ∀ p ∈ allParts, a ≠ Reg.LL_BIND n p) : (s.revokeLink n).rd a = s.rd a :=
  State.rd_foldl_of_mem fun _ p hp => State.rd_fput_ne _ _ _ (h p hp)

theorem State.rd_showDrain {p : Nat} (h : a ≠ Reg.CKP_STATUS p) : (s.showDrain p).rd a = s.rd a := State.rd_fput_ne _ _ _ h

/-- R463: what a port's loss ends of the drains is shown in the partitions' own registers. -/
theorem State.rd_endDrains (h : a < 0x10000000) : (s.endDrains n).rd a = s.rd a := by
  unfold State.endDrains
  refine State.rd_foldl_of_mem fun x p hp => ?_
  obtain ⟨h1, -⟩ := pos_and_le_four_of_mem_allParts hp
  have hvf : a < vf p := by unfold vf; omega
  have hst : a ≠ Reg.CKP_STATUS p := by unfold Reg.CKP_STATUS; omega
  have hslot (j : Nat) : a ≠ Reg.CKP_SLOT_STAT p j := by unfold Reg.CKP_SLOT_STAT; omega
  have hbslot (j : Nat) : a ≠ Reg.CKP_BSLOT_STAT p j := by unfold Reg.CKP_BSLOT_STAT; omega
  dsimp only
  rw [State.rd_foldl fun y b => by split; exacts [State.rd_fput_ne _ _ _ (hbslot b), rfl]]
  have hdrain {c : Prop} [Decidable c] (y : State) (l : Lake) : (if c then (y.setLake p l).showDrain p else y).rd a = y.rd a := by
    split; exacts [State.rd_showDrain hst, rfl]
  have hserve {c : Prop} [Decidable c] (y : State) (l : Lake) :
      (if c then (y.setLake p l).fput (Reg.CKP_STATUS p) Fld.CKP_STATUS_SERVE_BUSY 0 else y).rd a = y.rd a := by
    split; exacts [State.rd_fput_ne _ _ _ hst, rfl]
  split
  · split
    · rw [State.rd_fput_ne _ _ _ (hslot _), State.rd_fput_ne _ _ _ hst, State.rd_setLake, hserve, hdrain]
    · rw [hserve, hdrain]
  · rw [hserve, hdrain]

/-! ## A port goes down (R370) -/

/-- What a port that goes down loses of its link. -/
def Port.dropped (x : Port) : Port :=
  let ofWin (t : Nat) : Bool := t == 1 || t == 3 || t == 6
  { x with
    replay := [], resend := [], nakIn := false, nakDue := false, gap := false, badTag := none, oldKey := none, rxNext := 0, up := false
    txDue := false, rxDue := false, session := 0, chunks := []
    queue := x.queue.filter fun (f : TxFrame) => !ofWin f.typ, inbox := x.inbox.filter fun (f : RxFrame) => !ofWin f.typ }

/-- The port is down, but for the two fields of its status that say how it was linked. -/
def State.unlinked (s : State) (n : Nat) : State :=
  ((((s.setPort n (s.port n).dropped).strandWindows n).showUsed n).revokeLink n).endDrains n

theorem State.portDrop_eq : s.portDrop n = ((s.unlinked n).fput (Reg.LL_PORT_STAT n) Fld.LL_PORT_STAT_GEN 0).fput
    (Reg.LL_PORT_STAT n) Fld.LL_PORT_STAT_WIDTH4 0 := rfl

theorem State.port_unlinked : (s.unlinked n).port n = (s.port n).dropped :=
  (State.port_of_kept (State.endDrains_kept (φ := allBut [.regs, .lakes, .keys, .wins]) n (State.revokeLink_kept n
    (State.showUsed_kept n (State.strandWindows_kept n (Kept.refl _ (s.setPort n (s.port n).dropped)) rfl) rfl) rfl rfl) rfl rfl)
    rfl n).trans (State.port_setPort ..)

theorem State.rd_unlinked (h : LinkSafe n a) : (s.unlinked n).rd a = s.rd a := by
  unfold State.unlinked
  rw [State.rd_endDrains h.pf, State.rd_revokeLink h.bind, State.rd_showUsed h.used, State.rd_strandWindows, State.rd_setPort]

theorem State.rd_portDrop (h : LinkSafe n a) (hst : a ≠ Reg.LL_PORT_STAT n) : (s.portDrop n).rd a = s.rd a := by
  rw [State.portDrop_eq, State.rd_fput_ne _ _ _ hst, State.rd_fput_ne _ _ _ hst, State.rd_unlinked h]

theorem State.trainIdx_fput (f : Fld) (v : Nat) (h : f.lo + f.width ≤ 32) (hf : 4 ≤ f.lo) :
    (s.fput (Reg.LL_PORT_STAT n) f v).trainIdx n = s.trainIdx n := State.fget_fput_field _ _ _ _ _ h (.inl hf)

theorem State.trainIdx_portDrop (hn : n < 16) : (s.portDrop n).trainIdx n = s.trainIdx n := by
  rw [State.portDrop_eq, State.trainIdx_fput _ _ (by decide) (by decide), State.trainIdx_fput _ _ (by decide) (by decide)]
  exact State.fget_of_rd (State.rd_unlinked (linkSafe_LL_PORT_STAT hn))

/-! ## A state of the training table is entered (R365, R369, R370) -/

/-- The port in the state at `idx`: its entry in force. -/
def State.entered (s : State) (n idx : Nat) : Port :=
  { s.port n with act0 := s.rd (Reg.LL_TRAIN_0 n idx), act1 := s.rd (Reg.LL_TRAIN_1 n idx), tries := 0, began := s.now, up := false }

/-- The state at `idx` holds the port down. -/
def State.holdsDown (s : State) (n idx : Nat) : Bool := (s.entered n idx).action == tHold && idx != 0

/-- The port's status register shows the state entered. -/
def State.trainShown (s : State) (n idx why : Nat) : State :=
  let st := Reg.LL_PORT_STAT n
  let s1 := ((s.setPort n (s.entered n idx)).fput st Fld.LL_PORT_STAT_STATE idx).fput st Fld.LL_PORT_STAT_DOWN_WHY
    (if s.holdsDown n idx then why else 0)
  if (s.entered n idx).action = tDetect then s1.fput st Fld.LL_PORT_STAT_BARRED 0
  else if (s.entered n idx).action = tLanes ∧ bitOf (s.entered n idx).param 2 then s1.fput st Fld.LL_PORT_STAT_BARRED 1 else s1

/-- What the state entered makes of the link. -/
def State.trainTaken (s : State) (n idx why : Nat) : State :=
  if s.holdsDown n idx then ((s.trainShown n idx why).portDrop n).irqLl n Fld.LL_INT_STATUS_DOWN
  else if idx = 0 then (s.trainShown n idx why).portDrop n else s.trainShown n idx why

theorem State.trainEnter_eq (idx why : Nat) : s.trainEnter n idx why = (s.trainTaken n idx why).sepiaRec (unitPort n) 0x50 0
    (idx + 16 * (s.trainTaken n idx why).fget (Reg.LL_PORT_STAT n) Fld.LL_PORT_STAT_DOWN_WHY) := rfl

theorem State.trainShown_kept (idx why : Nat) : Kept (allBut [.regs]) (s.setPort n (s.entered n idx)) (s.trainShown n idx why) := by
  have h1 (f : Fld) (v : Nat) {x : State} (h : Kept (allBut [.regs]) (s.setPort n (s.entered n idx)) x) :
      Kept (allBut [.regs]) (s.setPort n (s.entered n idx)) (x.fput (Reg.LL_PORT_STAT n) f v) := State.fput_kept _ _ _ h rfl
  unfold State.trainShown
  exact kept_ite (h1 _ _ (h1 _ _ (h1 _ _ (Kept.refl _ _)))) (kept_ite (h1 _ _ (h1 _ _ (h1 _ _ (Kept.refl _ _))))
    (h1 _ _ (h1 _ _ (Kept.refl _ _))))

theorem State.port_trainShown (idx why : Nat) : (s.trainShown n idx why).port n = s.entered n idx :=
  (State.port_of_kept (State.trainShown_kept idx why) rfl n).trans (State.port_setPort ..)

theorem State.rd_trainShown (idx why : Nat) (h : a ≠ Reg.LL_PORT_STAT n) : (s.trainShown n idx why).rd a = s.rd a := by
  unfold State.trainShown
  dsimp only
  split
  · simp [State.rd_fput_ne, h]
  · split <;> simp [State.rd_fput_ne, h]

theorem State.trainIdx_trainShown (idx why : Nat) : (s.trainShown n idx why).trainIdx n = idx % 16 := by
  have hput (x : State) (v : Nat) : (x.fput (Reg.LL_PORT_STAT n) Fld.LL_PORT_STAT_BARRED v).trainIdx n = x.trainIdx n :=
    State.trainIdx_fput _ _ (by decide) (by decide)
  have hwhy (x : State) (v : Nat) : (x.fput (Reg.LL_PORT_STAT n) Fld.LL_PORT_STAT_DOWN_WHY v).trainIdx n = x.trainIdx n :=
    State.trainIdx_fput _ _ (by decide) (by decide)
  have hstate (x : State) : (x.fput (Reg.LL_PORT_STAT n) Fld.LL_PORT_STAT_STATE idx).trainIdx n = idx % 16 :=
    State.fget_fput _ _ _ _ (by decide)
  unfold State.trainShown
  dsimp only
  split
  · rw [hput, hwhy, hstate]
  · split
    · rw [hput, hwhy, hstate]
    · rw [hwhy, hstate]

/-- A state that is entered shows its index. -/
theorem State.trainIdx_trainEnter (hn : n < 16) (idx why : Nat) : (s.trainEnter n idx why).trainIdx n = idx % 16 := by
  have hsafe := linkSafe_LL_PORT_STAT hn
  have htaken : (s.trainTaken n idx why).trainIdx n = idx % 16 := by
    unfold State.trainTaken
    split
    · exact (State.fget_of_rd (State.rd_irqLl _ hsafe.int hsafe.mgt)).trans
        ((State.trainIdx_portDrop hn).trans (State.trainIdx_trainShown idx why))
    · split
      · exact (State.trainIdx_portDrop hn).trans (State.trainIdx_trainShown idx why)
      · exact State.trainIdx_trainShown idx why
  rw [State.trainEnter_eq]
  exact (State.fget_of_rd (State.rd_sepiaRec ..)).trans htaken

theorem State.rd_trainEnter (h : LinkSafe n a) (hst : a ≠ Reg.LL_PORT_STAT n) (idx why : Nat) :
    (s.trainEnter n idx why).rd a = s.rd a := by
  rw [State.trainEnter_eq, State.rd_sepiaRec]
  unfold State.trainTaken
  split
  · rw [State.rd_irqLl _ h.int h.mgt, State.rd_portDrop h hst, State.rd_trainShown _ _ hst]
  · split
    · rw [State.rd_portDrop h hst, State.rd_trainShown _ _ hst]
    · exact State.rd_trainShown _ _ hst

/-- A state that is entered takes its entry, and from a port that it leaves down what the port loses. -/
theorem State.port_trainEnter (idx why : Nat) :
    (s.trainEnter n idx why).port n = s.entered n idx ∨ (s.trainEnter n idx why).port n = (s.entered n idx).dropped := by
  have hdrop : ((s.trainShown n idx why).portDrop n).port n = (s.entered n idx).dropped := by
    rw [State.portDrop_eq, State.port_fput, State.port_fput, State.port_unlinked, State.port_trainShown]
  rw [State.trainEnter_eq, State.port_sepiaRec]
  unfold State.trainTaken
  split
  · exact .inr ((State.port_irqLl ..).trans hdrop)
  · split
    · exact .inr hdrop
    · exact .inl (State.port_trainShown ..)

theorem State.lanes_trainEnter (idx why : Nat) : ((s.trainEnter n idx why).port n).lanes = (s.port n).lanes := by
  rcases s.port_trainEnter (n := n) idx why with h | h <;> rw [h] <;> rfl
theorem State.txSeq_trainEnter (idx why : Nat) : ((s.trainEnter n idx why).port n).txSeq = (s.port n).txSeq := by
  rcases s.port_trainEnter (n := n) idx why with h | h <;> rw [h] <;> rfl
theorem State.rxSeq_trainEnter (idx why : Nat) : ((s.trainEnter n idx why).port n).rxSeq = (s.port n).rxSeq := by
  rcases s.port_trainEnter (n := n) idx why with h | h <;> rw [h] <;> rfl

/-- A state other than HOLD and index 0 keeps the link keys. -/
theorem State.key_trainEnter {idx : Nat} (why : Nat) (h : Fld.LL_TRAIN_0_ACTION.get (s.rd (Reg.LL_TRAIN_0 n idx)) ≠ tHold)
    (h0 : idx ≠ 0) (j : Nat) : (s.trainEnter n idx why).key j = s.key j := by
  have hdown : s.holdsDown n idx = false := by simp [State.holdsDown, State.entered, Port.action, h]
  rw [State.trainEnter_eq, State.key_sepiaRec, State.trainTaken, hdown, if_neg Bool.false_ne_true, if_neg h0]
  exact (State.key_of_kept (State.trainShown_kept idx why) rfl j).trans (State.key_setPort ..)

/-! ## The outcomes of an action (R365) -/

theorem State.trainStep_of_training {act : Nat} (f : State → State) (h : s.training n act = true) (h0 : act = tHold → s.trainIdx n = 0) :
    s.trainStep n act f = f s := by
  simp only [State.training, Bool.and_eq_true, decide_eq_true_eq, beq_iff_eq] at h
  obtain ⟨⟨-, hen⟩, hact⟩ := h
  exact if_pos ⟨hen, hact, (em (act = tHold)).symm.imp_right h0⟩

theorem State.trainStep_of_ne_hold {act : Nat} (f : State → State) (h : s.training n act = true) (hact : act ≠ tHold) :
    s.trainStep n act f = f s := State.trainStep_of_training f h fun e => absurd e hact

theorem State.lt_of_training {act : Nat} (h : s.training n act = true) : n < 16 := by
  simp only [State.training, Bool.and_eq_true, decide_eq_true_eq] at h
  exact h.1.1

theorem State.wired_of_rd (h : t.rd Reg.MGT_TB_STAT = s.rd Reg.MGT_TB_STAT) : t.wired n = s.wired n := by
  unfold State.wired; rw [State.flag_of_rd h]
theorem State.wired_of_ge (h : 8 ≤ n) : s.wired n = false := by simp [State.wired, Nat.not_lt.2 h]

theorem State.trainOk_of_not_wired (h : s.wired n = false) :
    s.trainOk n = s.trainEnter n (Fld.LL_TRAIN_0_NEXT_OK.get (s.port n).act0) 0 := if_neg (by simp [h])

theorem Fld.get_mod (f : Fld) (w : Word) : f.get w % 2 ^ f.width = f.get w := Nat.mod_eq_of_lt (f.get_lt w)

theorem State.trainIdx_trainOk (hn : n < 16) (h : s.wired n = false) :
    (s.trainOk n).trainIdx n = Fld.LL_TRAIN_0_NEXT_OK.get (s.port n).act0 := by
  rw [State.trainOk_of_not_wired h, State.trainIdx_trainEnter hn]
  exact Fld.get_mod ..
theorem State.trainIdx_trainAlt (hn : n < 16) : (s.trainAlt n).trainIdx n = Fld.LL_TRAIN_0_NEXT_ALT.get (s.port n).act0 :=
  (State.trainIdx_trainEnter hn ..).trans (Fld.get_mod ..)

end

end Sys2Proof.Machine

namespace Sys2Proof.Machine

section
variable {s t : State} {n a : Nat}

/-! ## Headers that come and go (R358, R361, R364) -/

theorem State.port_header (seq kind : Nat) : (s.header n seq kind).1.port n = { s.port n with
    ctlRet := (s.port n).ctlRet.map (· - 1), bulkRet := (s.port n).bulkRet.map (· - 1), nakDue := false } :=
  State.port_setPort ..

/-- A header takes frames out of the replay buffer, and may add credits and a NAK. -/
theorem State.port_takeHeader (h : Nat) : ∃ (resend ctl bulk : List Nat) (nak : Bool), (s.takeHeader n h).port n = { s.port n with
    replay := (s.port n).replay.filter fun (f : Sealed) => !seqGe (bitsOf h 24 24) f.seq
    resend := resend, ctl := ctl, bulk := bulk, nakIn := nak } := by
  have hack (x : State) (k : Nat) : ((x.showUsed n).ackWindows n k).port n = x.port n :=
    State.port_of_kept (State.ackWindows_kept (φ := allBut [.regs, .usage, .wins]) n k (State.showUsed_kept n (Kept.refl _ x) rfl)
      rfl rfl rfl) rfl n
  unfold State.takeHeader
  dsimp only
  split
  · rw [hack, State.port_setPort]
    exact ⟨_, _, _, _, rfl⟩
  · rw [State.port_setPort]
    exact ⟨_, _, _, _, rfl⟩

/-- R153: an acknowledgement moves the completion sets of the partitions. -/
theorem State.rd_ackWindows (ack : Nat) (h : a < 0x10000000) : (s.ackWindows n ack).rd a = s.rd a := by
  refine State.rd_foldl_of_mem fun x p hp => State.rd_foldl (fun y w => ?_) _
  obtain ⟨h1, -⟩ := pos_and_le_four_of_mem_allParts hp
  have hne : a ≠ Reg.SEQ_CSET p w.w.cset := by unfold Reg.SEQ_CSET vf; omega
  dsimp only
  rw [State.rd_sepiaRec, State.csetSub, State.rd_fput_ne _ _ _ hne, State.rd_setWin]

theorem State.rd_takeHeader (h : Nat) (hpf : a < 0x10000000) (hused : a ≠ Reg.LL_REPLAY n) :
    (s.takeHeader n h).rd a = s.rd a := by
  unfold State.takeHeader
  dsimp only
  split
  · rw [State.rd_ackWindows _ hpf, State.rd_showUsed hused, State.rd_setPort]
  · exact State.rd_setPort ..

/-! ## The rows of training -/

theorem trainHold_gives (h : s.training n tHold = true) (h0 : s.trainIdx n = 0) (hw : s.wired n = false) :
    Gives (.trainHold n) s fun t => t.trainIdx n = Fld.LL_TRAIN_0_NEXT_OK.get (s.port n).act0 := by
  refine ⟨_, rfl, ?_⟩
  rw [State.trainStep_of_training _ h fun _ => h0]
  exact State.trainIdx_trainOk (State.lt_of_training h) hw

theorem trainDetect_gives {mask : Nat} (h : s.training n tDetect = true) (hm : 4 ≤ popcount 8 mask) (hw : s.wired n = false) :
    Gives (.trainDetect n mask) s fun t => t.trainIdx n = Fld.LL_TRAIN_0_NEXT_OK.get (s.port n).act0 := by
  refine ⟨_, rfl, ?_⟩
  rw [State.trainStep_of_ne_hold _ h (by decide), if_pos hm]
  exact State.trainIdx_trainOk (State.lt_of_training h) hw

theorem MGT_TB_STAT_ne_LL_PORT_STAT : Reg.MGT_TB_STAT ≠ Reg.LL_PORT_STAT n := by unfold Reg.MGT_TB_STAT Reg.LL_PORT_STAT; omega

/-- R352: the lanes that lock, and the generation in which they do. -/
def State.lanesShown (s : State) (n rx : Nat) : State :=
  let x := s.setPort n { s.port n with lanes := rx % 256 }
  if (s.port n).param % 4 = 0 then x else x.fput (Reg.LL_PORT_STAT n) Fld.LL_PORT_STAT_GEN ((s.port n).param % 4)

theorem State.port_lanesShown (rx : Nat) : (s.lanesShown n rx).port n = { s.port n with lanes := rx % 256 } := by
  unfold State.lanesShown
  dsimp only
  split
  · exact State.port_setPort ..
  · exact State.port_setPort ..

theorem State.rd_lanesShown (rx : Nat) (h : a ≠ Reg.LL_PORT_STAT n) : (s.lanesShown n rx).rd a = s.rd a := by
  unfold State.lanesShown
  dsimp only
  split
  · rfl
  · exact State.rd_fput_ne _ _ _ h

theorem trainLanes_gives_all {rx tx : Nat} (h : s.training n tLanes = true) (hall : (rx &&& tx) % 256 = 255) (hw : s.wired n = false) :
    Gives (.trainLanes n rx tx) s fun t => t.trainIdx n = Fld.LL_TRAIN_0_NEXT_OK.get (s.port n).act0 := by
  refine ⟨_, rfl, ?_⟩
  rw [State.trainLanes, State.trainStep_of_ne_hold _ h (by decide)]
  dsimp only
  rw [if_pos hall]
  have hgo : ((s.lanesShown n rx).fput (Reg.LL_PORT_STAT n) Fld.LL_PORT_STAT_WIDTH4 0).wired n = false :=
    (State.wired_of_rd ((State.rd_fput_ne _ _ _ MGT_TB_STAT_ne_LL_PORT_STAT).trans
      (State.rd_lanesShown rx MGT_TB_STAT_ne_LL_PORT_STAT))).trans hw
  refine (State.trainIdx_trainOk (State.lt_of_training h) hgo).trans ?_
  rw [State.port_fput, State.port_lanesShown]

theorem trainLanes_gives_half {rx tx : Nat} (h : s.training n tLanes = true) (hall : (rx &&& tx) % 256 ≠ 255)
    (hhalf : (rx &&& tx) % 16 = 15) :
    Gives (.trainLanes n rx tx) s fun t => t.trainIdx n = Fld.LL_TRAIN_0_NEXT_ALT.get (s.port n).act0 := by
  refine ⟨_, rfl, ?_⟩
  rw [State.trainLanes, State.trainStep_of_ne_hold _ h (by decide)]
  dsimp only
  rw [if_neg hall, if_pos hhalf]
  refine (State.trainIdx_trainAlt (s := ((s.lanesShown n rx).fput (Reg.LL_PORT_STAT n) Fld.LL_PORT_STAT_WIDTH4 1).fput
    (Reg.LL_PORT_STAT n) Fld.LL_PORT_STAT_HALF 0) (State.lt_of_training h)).trans ?_
  rw [State.port_fput, State.port_fput, State.port_lanesShown]

/-- R367, R368: the port after an exchange of capabilities in which every lane of both ends stands. -/
def State.capsTaken (s : State) (n : Nat) (b : List Byte) : State :=
  ((((s.header n 0 3).1.emit (.link n (withCrc ((s.header n 0 3).2 ++ s.capsBlock n)))).takeHeader n (leAt b 0 8)).wr (Reg.LL_PEER n)
    (Fld.LL_PEER_PORT.put (Fld.LL_PEER_NODE.put 0 (leAt (sliceB b 8 64) 0 3 % 1048576)) (leAt (sliceB b 8 64) 3 1 % 16))).fput
      (Reg.LL_PORT_STAT n) Fld.LL_PORT_STAT_WIDTH4 0

theorem State.act0_capsTaken (b : List Byte) : ((s.capsTaken n b).port n).act0 = (s.port n).act0 := by
  unfold State.capsTaken
  rw [State.port_fput, State.port_wr]
  obtain ⟨_, _, _, _, e⟩ := State.port_takeHeader (s := (s.header n 0 3).1.emit (.link n (withCrc ((s.header n 0 3).2 ++ s.capsBlock n))))
    (n := n) (leAt b 0 8)
  rw [e, State.port_emit, State.port_header]

theorem State.node_capsTaken (b : List Byte) :
    (s.capsTaken n b).fget (Reg.LL_PEER n) Fld.LL_PEER_NODE = leAt (sliceB b 8 64) 0 3 % 1048576 := by
  unfold State.capsTaken State.fget
  rw [State.rd_fput_ne _ _ _ LL_PEER_ne_LL_PORT_STAT, State.rd_wr, Fld.get_put_ne _ _ _ _ (by decide) (.inl (by decide)),
    Fld.get_put_same _ _ _ (by decide)]
  exact Nat.mod_mod ..

theorem State.trainCaps_of_wide {b : List Byte} (h : s.training n tCaps = true) (h8 : 8 ≤ n) (hl : (s.port n).lanes = 255)
    (hb : capsOk b = true) (hpeer : leAt (sliceB b 8 64) 5 1 = 255)
    (hcheck : s.flag (Reg.LL_PORT_CTRL n) Fld.LL_PORT_CTRL_CHECK = false) : s.trainCaps n b =
      if s.gen2Offer n ∧ bitOf (leAt (sliceB b 8 64) 4 1) 1 then (s.capsTaken n b).trainOk n else (s.capsTaken n b).trainAlt n := by
  have hn : ¬ n < 8 := Nat.not_lt.2 h8
  have h0 : (255 / 2 ^ (4 * 0) % 16 == 15) = true := by decide
  have h1 : (255 / 2 ^ (4 * 1) % 16 == 15) = true := by decide
  rw [State.trainCaps, State.trainStep_of_ne_hold _ h (by decide)]
  simp only [hb, hl, hpeer, hcheck, hn, h0, h1, decide_false, Bool.false_and, Bool.and_self, Bool.not_true, Bool.or_self,
    Bool.false_eq_true, if_false, if_true]
  rfl

theorem trainCaps_gives {b : List Byte} (h : s.training n tCaps = true) (h8 : 8 ≤ n) (hl : (s.port n).lanes = 255)
    (hb : capsOk b = true) (hpeer : leAt (sliceB b 8 64) 5 1 = 255)
    (hcheck : s.flag (Reg.LL_PORT_CTRL n) Fld.LL_PORT_CTRL_CHECK = false) : Gives (.trainCaps n b) s fun t =>
      t.fget (Reg.LL_PEER n) Fld.LL_PEER_NODE = leAt (sliceB b 8 64) 0 3 % 1048576 ∧
        t.trainIdx n = if s.gen2Offer n ∧ bitOf (leAt (sliceB b 8 64) 4 1) 1 then Fld.LL_TRAIN_0_NEXT_OK.get (s.port n).act0
          else Fld.LL_TRAIN_0_NEXT_ALT.get (s.port n).act0 := by
  have hn := State.lt_of_training h
  have hw := State.wired_of_ge (s := s.capsTaken n b) h8
  have hnode (idx why : Nat) : ((s.capsTaken n b).trainEnter n idx why).fget (Reg.LL_PEER n) Fld.LL_PEER_NODE =
      leAt (sliceB b 8 64) 0 3 % 1048576 :=
    (State.fget_of_rd (State.rd_trainEnter (linkSafe_LL_PEER hn) LL_PEER_ne_LL_PORT_STAT idx why)).trans (State.node_capsTaken b)
  refine ⟨_, rfl, ?_⟩
  rw [State.trainCaps_of_wide h h8 hl hb hpeer hcheck]
  by_cases hg : s.gen2Offer n ∧ bitOf (leAt (sliceB b 8 64) 4 1) 1
  · rw [if_pos hg, if_pos hg, ← State.act0_capsTaken b]
    exact ⟨by rw [State.trainOk_of_not_wired hw]; exact hnode _ _, State.trainIdx_trainOk hn hw⟩
  · rw [if_neg hg, if_neg hg, ← State.act0_capsTaken b]
    exact ⟨hnode _ _, State.trainIdx_trainAlt hn⟩

theorem trainQual_gives {corrected symbols : Nat} (h : s.training n tQual = true) (hc : corrected * 100000 ≤ symbols)
    (hw : s.wired n = false) : Gives (.trainQual n 0 corrected symbols) s fun t =>
      t.trainIdx n = Fld.LL_TRAIN_0_NEXT_OK.get (s.port n).act0 := by
  refine ⟨_, rfl, ?_⟩
  rw [State.trainStep_of_ne_hold _ h (by decide)]
  dsimp only
  rw [if_pos ⟨rfl, hc⟩]
  have hgo : (s.bump64 (Reg.LL_FEC_CORR_LO n) corrected).wired n = false :=
    (State.wired_of_rd (State.rd_bump64_ne _ (by unfold Reg.MGT_TB_STAT Reg.LL_FEC_CORR_LO; omega)
      (by unfold Reg.MGT_TB_STAT Reg.LL_FEC_CORR_LO; omega))).trans hw
  refine (State.trainIdx_trainOk (State.lt_of_training h) hgo).trans ?_
  rw [State.port_bump64]

theorem State.rd_linkStart (h : a ≠ Reg.LL_REPLAY n) : (s.linkStart n).rd a = s.rd a :=
  (State.rd_showUsed h).trans (State.rd_setPort ..)

theorem trainInit_gives (h : s.training n tInit = true) (hw : s.wired n = false) : Gives (.trainInit n true) s fun t =>
    t.trainIdx n = Fld.LL_TRAIN_0_NEXT_OK.get (s.port n).act0 ∧ (t.port n).txSeq = 0 ∧ (t.port n).rxSeq = 0 := by
  have hgo : (s.linkStart n).wired n = false :=
    (State.wired_of_rd (State.rd_linkStart (by unfold Reg.MGT_TB_STAT Reg.LL_REPLAY; omega))).trans hw
  have hport : (s.linkStart n).port n = { s.port n with
      txSeq := 0, rxSeq := 0, replay := [], resend := [], nakIn := false, nakDue := false, gap := false, badTag := none
      ctl := [4, 4, 4, 4], bulk := [4, 4, 4, 4], ctlRet := [0, 0, 0, 0], bulkRet := [0, 0, 0, 0], inbox := [], held := [] } := by
    rw [State.linkStart, State.port_showUsed, State.port_setPort]
  refine ⟨_, rfl, ?_⟩
  rw [State.trainStep_of_ne_hold _ h (by decide), if_pos rfl]
  dsimp only
  rw [State.trainIdx_trainOk (State.lt_of_training h) hgo,
    State.trainOk_of_not_wired hgo, State.txSeq_trainEnter, State.rxSeq_trainEnter, hport]
  exact ⟨rfl, rfl, rfl⟩

/-! ### The session stands (R381, R382) -/

theorem State.key_loadLink (slot : Nat) (key : List Byte) (attr soft hard : Nat) :
    (s.loadLink slot key attr soft hard).key slot = {
      key := key, attr := attr, state := 1, epoch := (s.key slot).epoch + 1, soft := soft, hard := hard
      kcv := (Crypto.hmac384 key (ascii "SZT60-KCV")).take 8 } := State.key_setKey ..
theorem State.key_loadLink_ne {slot j : Nat} (key : List Byte) (attr soft hard : Nat) (h : j ≠ slot) :
    (s.loadLink slot key attr soft hard).key j = s.key j := State.key_setKey_ne _ _ h

theorem State.rd_writeBinds {l : List (Nat × Nat × Nat)} (h : ∀ b ∈ l, a ≠ Reg.LL_BIND n b.1) : (s.writeBinds n l).rd a = s.rd a :=
  State.rd_foldl_of_mem fun _ b hb => (State.rd_setPort ..).trans (State.rd_wr_ne _ _ (h b hb))

theorem State.key_writeBinds (l : List (Nat × Nat × Nat)) (j : Nat) : (s.writeBinds n l).key j = s.key j :=
  State.key_of_kept (State.writeBinds_kept (φ := allBut [.regs, .ports]) n l (Kept.refl _ s) rfl rfl) rfl j

/-- R393: bindings bring the epochs of the peer's partitions. -/
theorem State.port_writeBinds (l : List (Nat × Nat × Nat)) :
    ∃ ep, (s.writeBinds n l).port n = { s.port n with peerEp := ep } := by
  unfold State.writeBinds
  induction l generalizing s with
  | nil => exact ⟨_, rfl⟩
  | cons b l ih =>
    obtain ⟨ep, e⟩ := ih (s := (s.wr (Reg.LL_BIND n b.1) (Fld.LL_BIND_PEPOCH_TX.put (Fld.LL_BIND_PEPOCH_RX.put (Fld.LL_BIND_PEER_END.put
      (Fld.LL_BIND_VALID.put 0 1) b.2.1) b.2.2) (s.rn (Reg.KEY_PEPOCH b.1)))).setPort n
        { s.port n with peerEp := set4 (s.port n).peerEp b.1 b.2.2 })
    exact ⟨ep, by rw [List.foldl_cons, e, State.port_setPort]⟩

/-- R381, R382: the port with both keys and its bindings. -/
def State.authed (s : State) (n : Nat) (x : LinkAuth) : State :=
  let s1 := ((s.loadLink (txSlot n) x.txKey 0 47 48).loadLink (rxSlot n) x.rxKey 1 0 0)
  (s1.setPort n { s1.port n with
    rxNext := 0, oldKey := none, txSwap := s.now, rxSwap := s.now, txDue := false, rxDue := false
    session := if s.node / 8 < s.fget (Reg.LL_PEER n) Fld.LL_PEER_NODE / 8 then 1 else 2 }).writeBinds n x.binds

theorem txSlot_ne_rxSlot : txSlot n ≠ rxSlot n := by unfold txSlot rxSlot; omega

theorem State.key_authed (x : LinkAuth) :
    ((s.authed n x).key (txSlot n)).key = x.txKey ∧ ((s.authed n x).key (rxSlot n)).key = x.rxKey := by
  unfold State.authed
  dsimp only
  rw [State.key_writeBinds, State.key_writeBinds, State.key_setPort, State.key_setPort, State.key_loadLink_ne _ _ _ _ txSlot_ne_rxSlot,
    State.key_loadLink, State.key_loadLink]
  exact ⟨rfl, rfl⟩

theorem State.act0_authed (x : LinkAuth) : ((s.authed n x).port n).act0 = (s.port n).act0 := by
  unfold State.authed
  dsimp only
  obtain ⟨ep, e⟩ := State.port_writeBinds (n := n) x.binds (s := _)
  rw [e, State.port_setPort]
  rfl

theorem State.rd_authed {x : LinkAuth} (h : ∀ b ∈ x.binds, a ≠ Reg.LL_BIND n b.1) : (s.authed n x).rd a = s.rd a :=
  State.rd_writeBinds h

theorem trainAuth_gives {x : LinkAuth} (h : s.training n tAuth = true) (hw : s.wired n = false) (ha : s.admits x = true)
    (htx : s.canLoad (txSlot n) = true) (hrx : s.canLoad (rxSlot n) = true) (hb : ∀ b ∈ x.binds, b.1 ∈ allParts) :
    Gives (.trainAuth n x) s fun t =>
      let ok := Fld.LL_TRAIN_0_NEXT_OK.get (s.port n).act0
      t.trainIdx n = ok ∧ (Fld.LL_TRAIN_0_ACTION.get (s.rd (Reg.LL_TRAIN_0 n ok)) ≠ tHold → ok ≠ 0 →
        (t.key (txSlot n)).key = x.txKey ∧ (t.key (rxSlot n)).key = x.rxKey) := by
  have hn := State.lt_of_training h
  have hgo : (s.authed n x).wired n = false :=
    (State.wired_of_rd (State.rd_authed fun b _ => by unfold Reg.MGT_TB_STAT Reg.LL_BIND; omega)).trans hw
  have hrun : s.trainAuth n x = (s.authed n x).trainOk n := by
    rw [State.trainAuth, State.trainStep_of_ne_hold _ h (by decide)]
    exact if_neg (by simp [ha, htx, hrx])
  refine ⟨_, rfl, ?_⟩
  rw [hrun]
  dsimp only
  rw [State.trainIdx_trainOk hn hgo, State.trainOk_of_not_wired hgo, State.act0_authed]
  refine ⟨rfl, fun hact h0 => ?_⟩
  have htrain : (s.authed n x).rd (Reg.LL_TRAIN_0 n (Fld.LL_TRAIN_0_NEXT_OK.get (s.port n).act0)) =
      s.rd (Reg.LL_TRAIN_0 n (Fld.LL_TRAIN_0_NEXT_OK.get (s.port n).act0)) :=
    State.rd_authed fun b hm => (linkSafe_LL_TRAIN_0 hn (Fld.get_lt ..)).bind _ (hb b hm)
  rw [State.key_trainEnter _ (htrain ▸ hact) h0, State.key_trainEnter _ (htrain ▸ hact) h0]
  exact State.key_authed x

/-! ### The link in use, and what ends it -/

theorem trainActive_gives (h : s.training n tActive = true) (hup : (s.port n).up = false) : Gives (.trainActive n) s fun t =>
    (t.port n).up = true := by
  refine ⟨_, rfl, ?_⟩
  rw [State.trainActive, State.trainStep_of_ne_hold _ h (by decide)]
  dsimp only
  rw [if_neg (by simp [hup])]
  have hreplay {c : Prop} [Decidable c] (x : State) (k : Nat) :
      (if c then x else (x.bump (Reg.LL_REPLAY_EVT n) Fld.LL_REPLAY_EVT_COUNT 1).sepiaRec (unitPort n) 0x51 0 k).port n = x.port n := by
    split <;> simp
  split
  · rw [State.port_irqLl, State.port_bump, hreplay, State.port_irqLl, State.port_setPort]
  · rw [hreplay, State.port_irqLl, State.port_setPort]

theorem trainTimeout_gives (h : s.training n (s.port n).action = true) (hhold : (s.port n).action ≠ tHold)
    (hact : (s.port n).action ≠ tActive) (h0 : Fld.LL_TRAIN_1_TMO.get (s.port n).act1 ≠ 0)
    (htime : (s.port n).began + 100 * Fld.LL_TRAIN_1_TMO.get (s.port n).act1 ≤ s.now) : Gives (.trainTimeout n) s fun t =>
      let tries := Fld.LL_TRAIN_0_TRIES.get (s.port n).act0
      if tries ≠ 0 ∧ tries ≤ (s.port n).tries + 1 then t.trainIdx n = Fld.LL_TRAIN_0_NEXT_FAIL.get (s.port n).act0
      else (t.port n).tries = (s.port n).tries + 1 ∧ (t.port n).began = s.now := by
  have hen : s.flag (Reg.LL_PORT_CTRL n) Fld.LL_PORT_CTRL_EN = true := by
    simp only [State.training, Bool.and_eq_true] at h
    exact h.1.2
  have hrun : s.trainTimeout n = s.trainFail n (whyOf (s.port n).action) := by
    unfold State.trainTimeout
    exact if_neg (by simp [hhold, hact, h0, hen, htime])
  refine ⟨_, rfl, ?_⟩
  rw [hrun]
  unfold State.trainFail
  dsimp only
  split
  · exact (State.trainIdx_trainEnter (State.lt_of_training h) ..).trans (Fld.get_mod ..)
  · rw [State.port_setPort]
    exact ⟨rfl, rfl⟩

theorem State.lanes_retrain : ((s.retrain n).port n).lanes = (s.port n).lanes := by
  unfold State.retrain
  dsimp only
  split
  · rfl
  · rw [State.lanes_trainEnter, State.port_irqLl, State.port_bump]

theorem laneLockLoss_gives {lane : Nat} (h : lane < 8) : Gives (.laneLockLoss n lane) s fun t => bitOf (t.port n).lanes lane = false := by
  have hbit (x : Nat) : bitOf (x - (x &&& 2 ^ lane)) lane = false := by
    rw [bitOf_eq_testBit, testBit_sub_and, Nat.testBit_two_pow_self, Bool.not_true, Bool.and_false]
  refine ⟨_, rfl, ?_⟩
  rw [Nat.mod_eq_of_lt h]
  unfold State.laneLoss
  dsimp only
  split
  · rw [State.lanes_retrain, State.port_setPort]
    exact hbit _
  · rw [State.port_setPort]
    exact hbit _

end

/-- Settles O28, row by row. The successor is read from the entry that the port took when it entered its state, as log entry 17 says. -/
theorem trainingRowsComplete : Obligations.TrainingRowsComplete :=
  ⟨fun _ _ h h0 hw => trainHold_gives h h0 hw, fun _ _ _ h hm hw => trainDetect_gives h hm hw,
    fun _ _ _ _ h => ⟨fun hall hw => trainLanes_gives_all h hall hw, fun hall hhalf => trainLanes_gives_half h hall hhalf⟩,
    fun _ _ _ h h8 hl hb hpeer hcheck => trainCaps_gives h h8 hl hb hpeer hcheck, fun _ _ _ _ h hc hw => trainQual_gives h hc hw,
    fun _ _ h hw => trainInit_gives h hw, fun _ _ _ h hw ha htx hrx hb => trainAuth_gives h hw ha htx hrx hb,
    fun _ _ h hup => trainActive_gives h hup, fun _ _ h hhold hact h0 htime => trainTimeout_gives h hhold hact h0 htime,
    fun _ _ _ h => laneLockLoss_gives h⟩

end Sys2Proof.Machine

namespace Sys2Proof.Machine

section
variable {s t : State} {n a : Nat} {r : RegReq}

/-! ## Writes of a port's control register (R388) -/

theorem State.rd_trainOk (h : LinkSafe n a) (hst : a ≠ Reg.LL_PORT_STAT n) : (s.trainOk n).rd a = s.rd a := by
  unfold State.trainOk
  split
  · rfl
  · exact State.rd_trainEnter h hst ..

theorem portEnable_gives_enabled (hn : n < 16) (hg : s.grants r (Reg.LL_PORT_CTRL n) = true) : Gives (.portEnable r n true) s fun t =>
    t.flag (Reg.LL_PORT_CTRL n) Fld.LL_PORT_CTRL_EN = true := by
  have hput : (s.fput (Reg.LL_PORT_CTRL n) Fld.LL_PORT_CTRL_EN (b2n true)).flag (Reg.LL_PORT_CTRL n) Fld.LL_PORT_CTRL_EN = true :=
    State.flag_fput_one rfl (by decide)
  refine ⟨_, rfl, ?_⟩
  rw [State.write_of_grants _ hg]
  unfold State.portEnable
  dsimp only
  rw [if_pos rfl]
  split
  · exact (State.flag_of_rd (State.rd_trainOk (linkSafe_LL_PORT_CTRL hn) LL_PORT_CTRL_ne_LL_PORT_STAT)).trans hput
  · exact hput

theorem portEnable_gives_disabled (hn : n < 16) (hg : s.grants r (Reg.LL_PORT_CTRL n) = true) : Gives (.portEnable r n false) s fun t =>
    t.flag (Reg.LL_PORT_CTRL n) Fld.LL_PORT_CTRL_EN = false ∧ t.trainIdx n = 0 := by
  have hput : (s.fput (Reg.LL_PORT_CTRL n) Fld.LL_PORT_CTRL_EN (b2n false)).flag (Reg.LL_PORT_CTRL n) Fld.LL_PORT_CTRL_EN = false :=
    State.flag_fput_b2n false rfl (by decide)
  refine ⟨_, rfl, ?_⟩
  rw [State.write_of_grants _ hg]
  unfold State.portEnable
  dsimp only
  rw [if_neg Bool.false_ne_true]
  split
  case isTrue h0 => exact ⟨hput, (State.fget_of_rd (State.rd_fput_ne _ _ _ LL_PORT_CTRL_ne_LL_PORT_STAT.symm)).trans h0⟩
  case isFalse =>
    exact ⟨(State.flag_of_rd (State.rd_trainEnter (linkSafe_LL_PORT_CTRL hn) LL_PORT_CTRL_ne_LL_PORT_STAT ..)).trans hput,
      State.trainIdx_trainEnter hn ..⟩

theorem State.trainIdx_retrain (hn : n < 16) (h : (s.port n).action = tActive) :
    (s.retrain n).trainIdx n = Fld.LL_TRAIN_0_NEXT_FAIL.get (s.port n).act0 := by
  unfold State.retrain
  dsimp only
  rw [if_neg (not_not.2 h), State.trainIdx_trainEnter hn]
  exact Fld.get_mod ..

theorem portRetrainCmd_gives (h : s.training n tActive = true) (hg : s.grants r (Reg.LL_PORT_CTRL n) = true) :
    Gives (.portRetrainCmd r n) s fun t => t.trainIdx n = Fld.LL_TRAIN_0_NEXT_FAIL.get (s.port n).act0 := by
  simp only [State.training, Bool.and_eq_true, decide_eq_true_eq, beq_iff_eq] at h
  obtain ⟨⟨hn, hen⟩, hact⟩ := h
  refine ⟨_, rfl, ?_⟩
  rw [State.write_of_grants _ hg]
  unfold State.portRetrain
  dsimp only
  rw [if_neg (by simp [hen]), if_pos hact]
  exact State.trainIdx_retrain hn hact

theorem portRekeyCmd_gives (hg : s.grants r (Reg.LL_PORT_CTRL n) = true) : Gives (.portRekeyCmd r n) s fun t =>
    t = s.setPort n { s.port n with txDue := true, rxDue := true } := ⟨_, rfl, State.write_of_grants _ hg⟩

/-- A one-bit field whose bit is set reads 1. -/
theorem State.flag_setBits_mask (f : Fld) (hw : f.width = 1) (h : f.lo + f.width ≤ 32) : (s.setBits a f.mask).flag a f = true := by
  have hlo : f.lo < 32 := by omega
  have hbit : (s.rd a ||| BitVec.ofNat 32 f.mask).toNat.testBit f.lo = true := by
    rw [BitVec.toNat_or, Nat.testBit_or, BitVec.toNat_ofNat, Nat.testBit_mod_two_pow, Fld.mask, Nat.testBit_two_pow_self]
    simp [hlo]
  rw [Nat.testBit_eq_decide_div_mod_eq] at hbit
  unfold State.flag State.fget
  rw [State.setBits_eq, State.rd_wr, Fld.get, bitsOf, hw]
  exact beq_iff_eq.2 (of_decide_eq_true hbit)

theorem trainLock_gives (hg : s.grants r (Reg.LL_PORT_CTRL n) = true) : Gives (.trainLock r n) s fun t =>
    t.flag (Reg.LL_PORT_CTRL n) Fld.LL_PORT_CTRL_TLOCK = true := by
  refine ⟨_, rfl, ?_⟩
  rw [State.write_of_grants _ hg]
  exact State.flag_setBits_mask _ rfl (by decide)

/-! ## Writes of the training table and of the transmit cycle (R392, R398) -/

theorem fields_LL_TRAIN_1 : ∀ n < 16, ∀ i < 16, (regDesc (Reg.LL_TRAIN_1 n i)).map (fun x => x.1.fields) =
    some [⟨Fld.LL_TRAIN_1_TMO, .rwl, 0, []⟩, ⟨Fld.LL_TRAIN_1_PARAM, .rwl, 0, []⟩] := by decide +kernel

/-- The entry `i` of a word of the transmit cycle. -/
def slotEntry (i : Nat) : FieldDesc := ⟨⟨4 * i, 4⟩, .rw, 1, [(1, 4)]⟩

theorem fields_LL_SLOT : ∀ n < 16, ∀ w < 9, (regDesc (Reg.LL_SLOT n w)).map (fun x => x.1.fields) =
    some ((List.range 8).map slotEntry) := by decide +kernel

/-- R388: `TLOCK` of a port locks the port's own registers. -/
theorem State.lockOf_LL_TRAIN_1 {i : Nat} (hn : n < 16) (hi : i < 16)
    (h : s.flag (Reg.LL_PORT_CTRL n) Fld.LL_PORT_CTRL_TLOCK = false) : s.lockOf (Reg.LL_TRAIN_1 n i) = false := by
  have hpwr : Reg.LL_TRAIN_1 n i ≠ Reg.PWR_LIM_CTRL := by unfold Reg.LL_TRAIN_1 Reg.PWR_LIM_CTRL; omega
  unfold State.lockOf
  rw [if_neg hpwr]
  split
  · refine List.any_eq_false.2 fun m hm => ?_
    rw [Bool.and_eq_true, decide_eq_true_eq]
    rintro ⟨⟨hlo, hhi⟩, hm'⟩
    have hmn : m = n := by
      have := List.mem_range.1 hm
      simp only [Reg.LL_TRAIN_1, Reg.LL_PORT_CTRL] at hlo hhi
      omega
    exact Bool.false_ne_true ((hmn ▸ h).symm.trans hm')
  · rfl

theorem State.rd_regWrite_LL_TRAIN_1 {i : Nat} (v : Word) (hn : n < 16) (hi : i < 16)
    (h : s.flag (Reg.LL_PORT_CTRL n) Fld.LL_PORT_CTRL_TLOCK = false) :
    (s.regWrite (Reg.LL_TRAIN_1 n i) v).rd (Reg.LL_TRAIN_1 n i) = v := by
  obtain ⟨⟨d, ix⟩, hd, hf⟩ := Option.map_eq_some_iff.1 (fields_LL_TRAIN_1 n hn i hi)
  have hfield (f : Fld) (hm : (⟨f, .rwl, 0, []⟩ : FieldDesc) ∈ d.fields) :
      f.get ((s.regWrite (Reg.LL_TRAIN_1 n i) v).rd (Reg.LL_TRAIN_1 n i)) = f.get v := by
    rw [State.get_rd_regWrite s v hd hm, State.lockOf_LL_TRAIN_1 hn hi h]
    rfl
  have htmo := hfield Fld.LL_TRAIN_1_TMO (by rw [hf]; exact List.mem_cons_self)
  have hparam := hfield Fld.LL_TRAIN_1_PARAM (by rw [hf]; exact List.mem_cons_of_mem _ List.mem_cons_self)
  simp only [Fld.get, bitsOf, Fld.LL_TRAIN_1_TMO, Fld.LL_TRAIN_1_PARAM] at htmo hparam
  exact BitVec.eq_of_toNat_eq (by omega)

theorem trainTableWrite_gives {i : Nat} (v : Word) (hn : n < 16) (hi : i < 16) (hg : s.grants r (Reg.LL_TRAIN_1 n i) = true)
    (h : s.flag (Reg.LL_PORT_CTRL n) Fld.LL_PORT_CTRL_TLOCK = false) : Gives (.trainTableWrite r n (2 * i + 1) v) s fun t =>
      t.rd (Reg.LL_TRAIN_1 n i) = v := by
  have ha : trainReg n (2 * i + 1) = Reg.LL_TRAIN_1 n i := by
    rw [trainReg, if_pos (by omega)]
    unfold Reg.LL_TRAIN_0 Reg.LL_TRAIN_1
    omega
  refine ⟨_, rfl, ?_⟩
  rw [ha, State.write_of_grants _ hg]
  exact State.rd_regWrite_LL_TRAIN_1 v hn hi h

/-- R392: entry 0 and those after entry 64 take no owner. -/
theorem testBit_slotMask : ∀ w < 9, ∀ i < 8, ∀ k < 4,
    (slotMask w).toNat.testBit (4 * i + k) = decide (1 ≤ 8 * w + i ∧ 8 * w + i ≤ 64) := by decide

theorem bitsOf_and_slotMask (v : Word) {w i : Nat} (hw : w < 9) (hi : i < 8) :
    bitsOf (v &&& slotMask w).toNat (4 * i) 4 = if 1 ≤ 8 * w + i ∧ 8 * w + i ≤ 64 then bitsOf v.toNat (4 * i) 4 else 0 := by
  refine Nat.eq_of_testBit_eq fun k => ?_
  rw [apply_ite (Nat.testBit · k)]
  simp only [bitsOf, Nat.div_pow_mod_eq_testBit, BitVec.toNat_and, Nat.testBit_and, Nat.zero_testBit]
  by_cases hk : k < 4
  · rw [testBit_slotMask w hw i hi k hk]
    split <;> simp [*]
  · simp [hk]

theorem llSlotWrite_gives {w : Nat} (v : Word) (hn : n < 16) (hw : w < 9) (hg : s.grants r (Reg.LL_SLOT n w) = true)
    (hp : ∀ p ∈ allParts, s.partState p = 0) : Gives (.llSlotWrite r n w v) s fun t => ∀ i, i < 8 →
      let x := bitsOf v.toNat (4 * i) 4
      bitsOf (t.rn (Reg.LL_SLOT n w)) (4 * i) 4 =
        if 1 ≤ 8 * w + i ∧ 8 * w + i ≤ 64 ∧ 1 ≤ x ∧ x ≤ 4 then x else bitsOf (s.rn (Reg.LL_SLOT n w)) (4 * i) 4 := by
  have hall : (allParts.all fun p => s.partState p == 0) = true := List.all_eq_true.2 fun p hm => beq_iff_eq.2 (hp p hm)
  refine ⟨_, rfl, fun i hi => ?_⟩
  rw [State.write_of_grants _ hg, if_pos hw, State.slotW, if_pos hall]
  obtain ⟨⟨d, ix⟩, hd, hf⟩ := Option.map_eq_some_iff.1 (fields_LL_SLOT n hn w hw)
  have hm : slotEntry i ∈ d.fields := by rw [hf]; exact List.mem_map_of_mem (List.mem_range.2 hi)
  have hwritten : bitsOf ((s.regWrite (Reg.LL_SLOT n w) (v &&& slotMask w)).rn (Reg.LL_SLOT n w)) (4 * i) 4 =
      (slotEntry i).written (s.lockOf (Reg.LL_SLOT n w)) (bitsOf (v &&& slotMask w).toNat (4 * i) 4)
        (bitsOf (s.rn (Reg.LL_SLOT n w)) (4 * i) 4) := State.get_rd_regWrite s _ hd hm
  rw [hwritten, bitsOf_and_slotMask v hw hi]
  simp only [FieldDesc.written, FieldDesc.isDefined, slotEntry, List.isEmpty_cons, Bool.false_or, List.any_cons, List.any_nil,
    Bool.or_false, decide_eq_true_eq]
  by_cases hrange : 1 ≤ 8 * w + i ∧ 8 * w + i ≤ 64
  · simp [hrange]
  · rw [if_neg hrange, if_neg (by omega), if_neg fun h => hrange ⟨h.1, h.2.1⟩]

end

/-- Settles O29, row by row. RETRAIN takes the successor from the entry that the port took when it entered its state (log entry 17). -/
theorem portRegisterRowsComplete : Obligations.PortRegisterRowsComplete :=
  ⟨fun _ _ _ hn hg => ⟨portEnable_gives_enabled hn hg, portEnable_gives_disabled hn hg⟩, fun _ _ _ h hg => portRetrainCmd_gives h hg,
    fun _ _ _ hg => portRekeyCmd_gives hg, fun _ _ _ _ hg => trainLock_gives hg,
    fun _ _ _ _ v hn hi hg h => trainTableWrite_gives v hn hi hg h, fun _ _ _ _ v hn hw hg hp => llSlotWrite_gives v hn hw hg hp⟩

end Sys2Proof.Machine

/-! The rows of frames on the Leold ports: the bytes of a block, what comes in, what goes out, and the statement settled with them
(spec, chapter 08). -/

namespace Sys2Proof.Machine

/-! ## The bytes of a number -/

theorem length_leBytes (n x : Nat) : (leBytes n x).length = n := by
  induction n generalizing x with
  | zero => rfl
  | succ n ih => rw [leBytes, List.length_cons, ih]

theorem leNat_leBytes (n x : Nat) : leNat (leBytes n x) = x % 256 ^ n := by
  induction n generalizing x with
  | zero => rw [Nat.pow_zero, Nat.mod_one]; rfl
  | succ n ih => exact ((congrArg (_ + 256 * ·) (ih _)).trans (Nat.mod_mul (a := 256)).symm).trans (by rw [Nat.pow_succ'])

theorem take_leBytes {k n : Nat} (x : Nat) (h : k ≤ n) : (leBytes n x).take k = leBytes k x := by
  induction k generalizing n x with
  | zero => rfl
  | succ k ih =>
    obtain ⟨m, rfl⟩ : ∃ m, n = m + 1 := ⟨n - 1, by omega⟩
    rw [leBytes, List.take_succ_cons, ih _ (by omega), leBytes]

theorem drop_leBytes (k n x : Nat) : (leBytes n x).drop k = leBytes (n - k) (x / 256 ^ k) := by
  induction k generalizing n x with
  | zero => rw [Nat.pow_zero, Nat.div_one]; rfl
  | succ k ih =>
    cases n with
    | zero => simp [leBytes]
    | succ n => rw [leBytes, List.drop_succ_cons, ih, Nat.add_sub_add_right, Nat.div_div_eq_div_mul, Nat.pow_succ, Nat.mul_comm]

theorem leAt_leBytes {k m n : Nat} (x : Nat) (h : k + m ≤ n) : leAt (leBytes n x) k m = x / 256 ^ k % 256 ^ m := by
  rw [leAt, drop_leBytes, take_leBytes _ (by omega), leNat_leBytes]

theorem leAt_append_left {a : List Byte} (b : List Byte) {k n : Nat} (h : k + n ≤ a.length) : leAt (a ++ b) k n = leAt a k n := by
  rw [leAt, leAt, List.drop_append_of_le_length (by omega), List.take_append_of_le_length (by rw [List.length_drop]; omega)]

theorem leAt_append_right {a : List Byte} (b : List Byte) {k n : Nat} (h : a.length ≤ k) :
    leAt (a ++ b) k n = leAt b (k - a.length) n := by
  rw [leAt, leAt, List.drop_append, List.drop_of_length_le h, List.nil_append]

theorem sliceB_append {a b : List Byte} (c : List Byte) {k n : Nat} (ha : a.length = k) (hb : b.length = n) :
    sliceB (a ++ (b ++ c)) k n = b := by
  subst ha hb
  simp [sliceB]

/-! ## A block's header, frame header and trailer (R357 to R359) -/

theorem crcStep_lt {c : Nat} (h : c < 2 ^ 32) : Crypto.crcStep c < 2 ^ 32 := by
  unfold Crypto.crcStep
  split
  · exact Nat.xor_lt_two_pow (by omega) (by decide)
  · omega

theorem crc32_lt (l : List Byte) : Crypto.crc32 l < 2 ^ 32 := by
  have hbyte (c : Nat) (b : Byte) (h : c < 2 ^ 32) : Crypto.crcByte c b < 2 ^ 32 := by
    have hx : c ^^^ b.toNat < 2 ^ 32 := Nat.xor_lt_two_pow h (by have := b.isLt; omega)
    unfold Crypto.crcByte
    iterate 8 refine crcStep_lt ?_
    exact hx
  have hfold (c : Nat) (h : c < 2 ^ 32) : l.foldl Crypto.crcByte c < 2 ^ 32 := by
    induction l generalizing c with
    | nil => exact h
    | cons b l ih => exact ih _ (hbyte c b h)
  exact Nat.xor_lt_two_pow (hfold _ (by decide)) (by decide)

/-- The trailer that a block is given is the one that its check asks for. -/
theorem crcOk_withCrc {l : List Byte} (h : 8 ≤ l.length) : crcOk (withCrc l) = true := by
  have hcrc := crc32_lt l
  have hlen : (withCrc l).length = l.length + 8 := by rw [withCrc, List.length_append, length_leBytes]
  have hk : (withCrc l).length - 8 = l.length := by omega
  have hlow : leAt (withCrc l) l.length 4 = Crypto.crc32 l := by
    rw [withCrc, leAt_append_right _ le_rfl, Nat.sub_self, leAt_leBytes _ (by omega)]
    omega
  have hhigh : leAt (withCrc l) (l.length + 4) 4 = 0 := by
    rw [withCrc, leAt_append_right _ (by omega), Nat.add_sub_cancel_left, leAt_leBytes _ (by omega)]
    omega
  have htake : (withCrc l).take l.length = l := List.take_left
  simp only [crcOk, hk, hlow, hhigh, htake, beq_self_eq_true, Bool.and_true, decide_eq_true_eq]
  omega

section
variable (typ lki dend len kepoch pepoch fctr src wtag woff : Nat)

theorem length_frameHeader : (frameHeader typ lki dend len kepoch pepoch fctr src wtag woff).length = 32 := by
  simp [frameHeader, length_leBytes]

/-- R359: the fields of a frame header, those that are 0 with the rest. -/
theorem leAt_frameHeader :
    let h := frameHeader typ lki dend len kepoch pepoch fctr src wtag woff
    leAt h 0 1 = typ % 256 ∧ leAt h 1 1 = (lki + 16 * dend) % 256 ∧ leAt h 2 2 = len % 65536 ∧ leAt h 6 2 = 0 ∧
      leAt h 16 3 = src % 2 ^ 24 ∧ leAt h 19 1 = src / 2 ^ 24 % 256 ∧ leAt h 20 3 = wtag % 2 ^ 24 ∧
      leAt h 23 1 = wtag / 2 ^ 24 % 256 ∧ leAt h 24 4 = woff % 2 ^ 32 ∧ leAt h 28 4 = 0 := by
  simp [frameHeader, leAt_append_left, leAt_append_right, length_leBytes, leAt_leBytes]

end
end Sys2Proof.Machine

namespace Sys2Proof.Machine

section
variable {s t : State} {n a : Nat}

/-! ## A frame comes in (R361 to R363) -/

/-- A frame of SPDM, sealed by nothing: its header, its payload and a tag of zeros. -/
def spdmBlock (seq src : Nat) (v : List Byte) : List Byte :=
  withCrc (leBytes 8 (seq + 2 ^ 60) ++ frameHeader 5 0 0 v.length 0 0 0 src 0 0 ++ v ++ List.replicate 16 0#8)

/-- A frame of SPDM that its header admits waits in the inbox. -/
theorem State.takeFrame_spdmBlock {seq sq src : Nat} {v : List Byte} (hsrc : src < 2 ^ 20)
    (hpeer : src = s.fget (Reg.LL_PEER n) Fld.LL_PEER_NODE / 8 * 8) (h32 : 32 ≤ v.length) (hle : v.length ≤ 4096)
    (hmod : v.length % 32 = 0) : s.takeFrame n seq (spdmBlock sq src v) = (s.consume n seq).setPort n { (s.consume n seq).port n with
      inbox := ((s.consume n seq).port n).inbox ++ [(⟨5, 0, 0, 0, 0, v⟩ : RxFrame)] } := by
  have hh : sliceB (spdmBlock sq src v) 8 32 = frameHeader 5 0 0 v.length 0 0 0 src 0 0 := by
    rw [spdmBlock, withCrc, List.append_assoc, List.append_assoc, List.append_assoc]
    exact sliceB_append _ (length_leBytes ..) (length_frameHeader ..)
  have hv : sliceB (spdmBlock sq src v) 40 v.length = v := by
    rw [spdmBlock, withCrc, List.append_assoc, List.append_assoc]
    exact sliceB_append _ (by rw [List.length_append, length_leBytes, length_frameHeader]) rfl
  have hlen : (spdmBlock sq src v).length = 64 + v.length := by
    simp only [spdmBlock, withCrc, List.length_append, length_leBytes, length_frameHeader, List.length_replicate]
    omega
  obtain ⟨h0, h1, h2, h6, h16, h19, h20, h23, h24, h28⟩ := leAt_frameHeader 5 0 0 v.length 0 0 0 src 0 0
  have hl : v.length % 65536 = v.length := Nat.mod_eq_of_lt (by omega)
  have hs : src % 2 ^ 24 = src := Nat.mod_eq_of_lt (by omega)
  have hs0 : src / 2 ^ 24 % 256 = 0 := by omega
  have hs1 : src / 1048576 = 0 := by omega
  have hform : 1 ≤ 5 ∧ 5 ≤ 6 := by decide
  unfold State.takeFrame
  simp only [hh, h0, h1, h2, h6, h16, h19, h20, h23, h24, h28, hl, hs, hs0, hs1, hv, hlen, hmod, hpeer.symm]
  simp [bitsOf, h32, hle]

theorem State.inbox_takeHeader (h : Nat) : ((s.takeHeader n h).port n).inbox = (s.port n).inbox := by
  obtain ⟨_, _, _, _, e⟩ := s.port_takeHeader (n := n) h
  rw [e]

theorem leAt_spdmBlock {seq : Nat} (src : Nat) (v : List Byte) (h : seq < seqMod) : leAt (spdmBlock seq src v) 0 8 = seq + 2 ^ 60 := by
  have hs : seq < 16777216 := h
  rw [spdmBlock, withCrc, List.append_assoc, List.append_assoc, List.append_assoc, leAt_append_left _ (by rw [length_leBytes]),
    leAt_leBytes _ (Nat.le_of_eq (Nat.zero_add 8))]
  omega

theorem linkFrameReceive_gives {v : List Byte} (fec : Nat) (hn : n < 16) (hl : (s.port n).linked = true) (h32 : 32 ≤ v.length)
    (hle : v.length ≤ 4096) (hmod : v.length % 32 = 0) :
    let seq := ((s.port n).rxSeq + 1) % seqMod
    let src := s.fget (Reg.LL_PEER n) Fld.LL_PEER_NODE / 8 * 8
    Gives (.linkFrameReceive n (spdmBlock seq src v) fec) s fun t =>
      (t.port n).rxSeq = seq ∧ (t.port n).inbox = (s.port n).inbox ++ [(⟨5, 0, 0, 0, 0, v⟩ : RxFrame)] := by
  intro seq src
  have hseq : seq < seqMod := Nat.mod_lt _ (by decide)
  have hseq' : seq < 16777216 := hseq
  have hcrc : crcOk (spdmBlock seq src v) = true := crcOk_withCrc (by simp only [List.length_append, length_leBytes]; omega)
  have hkind : bitsOf (seq + 2 ^ 60) 60 4 = 1 := by unfold bitsOf; omega
  have hnum : bitsOf (seq + 2 ^ 60) 0 24 = seq := by unfold bitsOf; omega
  have hpeer (h : Nat) : ((s.bump64 (Reg.LL_FEC_CORR_LO n) fec).takeHeader n h).fget (Reg.LL_PEER n) Fld.LL_PEER_NODE =
      s.fget (Reg.LL_PEER n) Fld.LL_PEER_NODE :=
    State.fget_of_rd ((State.rd_takeHeader h (linkSafe_LL_PEER hn).pf (linkSafe_LL_PEER hn).used).trans
      (State.rd_bump64_ne _ (by unfold Reg.LL_PEER Reg.LL_FEC_CORR_LO; omega) (by unfold Reg.LL_PEER Reg.LL_FEC_CORR_LO; omega)))
  have hsrc : src < 2 ^ 20 := by
    have hnode : s.fget (Reg.LL_PEER n) Fld.LL_PEER_NODE < 2 ^ 20 := Fld.get_lt ..
    omega
  refine ⟨_, rfl, ?_⟩
  have hrun : s.linkReceive n (spdmBlock seq src v) fec =
      ((s.bump64 (Reg.LL_FEC_CORR_LO n) fec).takeHeader n (seq + 2 ^ 60)).takeFrame n seq (spdmBlock seq src v) := by
    simp only [State.linkReceive, hl, hcrc, leAt_spdmBlock src v hseq, hkind, hnum, Bool.not_true, Bool.false_eq_true, if_false, ne_eq,
      not_true_eq_false]
    exact if_pos rfl
  rw [hrun, State.takeFrame_spdmBlock hsrc (by rw [hpeer]) h32 hle hmod]
  dsimp only
  rw [State.port_setPort, State.consume, State.port_setPort]
  exact ⟨rfl, by rw [State.inbox_takeHeader, State.port_bump64]⟩

/-! ## Accepted frames leave the inbox -/

/-- The oldest accepted frame has left the inbox, `rest` of which stays. -/
def State.took (s : State) (n : Nat) (rest : List RxFrame) : State := s.setPort n { s.port n with inbox := rest }

@[simp] theorem State.port_took (rest : List RxFrame) : (s.took n rest).port n = { s.port n with inbox := rest } := State.port_setPort ..
@[simp] theorem State.rd_took (rest : List RxFrame) (b : Nat) : (s.took n rest).rd b = s.rd b := (rfl)
@[simp] theorem State.aborted_took (rest : List RxFrame) (p : Nat) : (s.took n rest).aborted p = s.aborted p := (rfl)
@[simp] theorem State.win_took (rest : List RxFrame) (p : Nat) : (s.took n rest).win p = s.win p := (rfl)
@[simp] theorem State.sq_took (rest : List RxFrame) (p : Nat) : (s.took n rest).sq p = s.sq p := (rfl)

theorem State.takeInbox_of_cons {f : RxFrame} {rest : List RxFrame} {typ : Nat} (g : State → RxFrame → State)
    (h : (s.port n).inbox = f :: rest) (ht : f.typ = typ) : s.takeInbox n typ g = g (s.took n rest) f := by
  simp only [State.takeInbox, h, ht, if_true]
  rfl

/-! ### SCHED (R376) -/

theorem State.partOfQuad_of_rd (h : ∀ p ∈ allParts, t.rd (Reg.PRT_MAP p) = s.rd (Reg.PRT_MAP p)) (q : Nat) :
    t.partOfQuad q = s.partOfQuad q := by
  unfold State.partOfQuad
  rw [List.find?_congr fun p hp => ?_]
  unfold State.quad0 State.nquad State.fget
  rw [h p hp]

/-- What a write of core SRAM makes of the cores rests on them, the layout, and what the streams do. -/
theorem State.cores_sramWr_of_rd (hc : t.cores = s.cores) (hmap : ∀ p ∈ allParts, t.rd (Reg.PRT_MAP p) = s.rd (Reg.PRT_MAP p))
    (hst : ∀ p, t.rd (Reg.SEQ_STATUS p) = s.rd (Reg.SEQ_STATUS p)) (hw : ∀ p, (t.sq p).cwords = (s.sq p).cwords)
    (c b : Nat) (v : List Byte) : (t.sramWr c b v).cores = (s.sramWr c b v).cores := by
  have hkeep (u : State) (k : Nat) : (u.keepOld c b k).cores = u.cores :=
    (State.keepOld_kept (φ := allBut [.seqs]) c b k (Kept.refl _ u) rfl).cores rfl
  unfold State.sramWr State.sramPut
  simp only [State.partOfQuad_of_rd hmap, State.stopped_of_rd (hst _), hw, hkeep, hc]

theorem schedFrame_gives {f : RxFrame} {rest : List RxFrame} {x : RxWin} (h : (s.port n).inbox = f :: rest) (ht : f.typ = 1)
    (ha : s.aborted f.part = false)
    (hx : ((s.win f.part).rx.find? fun (x : RxWin) => x.armed && x.w.port == n && x.w.win == f.wtag) = some x)
    (hlen : f.woff + f.payload.length ≤ x.w.len) : Gives (.schedFrame n) s fun t =>
      (t.port n).inbox = rest ∧ t.cores.sram = (s.sramWr x.w.core (x.w.addr + f.woff) f.payload).cores.sram := by
  have hrun : s.schedFrame n = (((((s.took n rest).bump64 (Reg.LL_RX_FRAMES_LO n) 1).sramWr x.w.core (x.w.addr + f.woff)
      f.payload).count f.part 0x0D 16 0 f.payload.length).landRx f.part x.w.id f.woff f.payload.length) := by
    rw [State.schedFrame, State.takeInbox_of_cons _ h ht, State.aborted_took, ha, if_neg Bool.false_ne_true, State.win_took, hx]
    exact if_pos hlen
  have hkept (u : State) (c b id off len : Nat) (v : List Byte) :
      Kept (allBut [.regs, .cores, .seqs, .usage, .wins]) u (((u.sramWr c b v).count f.part 0x0D 16 0 len).landRx f.part id off len) :=
    State.landRx_kept _ _ _ _ (State.count_kept _ _ _ _ _ (State.sramWr_kept _ _ _ (Kept.refl _ u) rfl rfl) rfl) rfl rfl rfl
  have hrd (r : Nat) (h : r % 65536 ≠ 0x108) (h' : r % 65536 ≠ 0x10C) :
      ((s.took n rest).bump64 (Reg.LL_RX_FRAMES_LO n) 1).rd r = s.rd r :=
    (State.rd_bump64_ne _ (by unfold Reg.LL_RX_FRAMES_LO; omega) (by unfold Reg.LL_RX_FRAMES_LO; omega)).trans (State.rd_took ..)
  refine ⟨_, rfl, ?_⟩
  rw [hrun]
  constructor
  · rw [State.port_of_kept (hkept ..) rfl, State.port_bump64, State.port_took]
  · rw [State.landRx_cores, State.cores_count]
    have hmap (p : Nat) (hp : p ∈ allParts) : Reg.PRT_MAP p % 65536 ≠ 0x108 ∧ Reg.PRT_MAP p % 65536 ≠ 0x10C := by
      obtain ⟨-, h4⟩ := pos_and_le_four_of_mem_allParts hp
      unfold Reg.PRT_MAP
      omega
    have hst (p : Nat) : Reg.SEQ_STATUS p % 65536 ≠ 0x108 ∧ Reg.SEQ_STATUS p % 65536 ≠ 0x10C := by
      unfold Reg.SEQ_STATUS vf
      omega
    exact congrArg Cores.sram (State.cores_sramWr_of_rd (s := s)
      (State.cores_bump64 (s := s.took n rest) ..) (fun p hp => hrd _ (hmap p hp).1 (hmap p hp).2)
      (fun p => hrd _ (hst p).1 (hst p).2) (fun p => by rw [State.sq_bump64, State.sq_took]) ..)

/-! ### CTL, ARM and ABORT (R375, R377, R427) -/

theorem ctlFrame_gives {f : RxFrame} {rest : List RxFrame} (h : (s.port n).inbox = f :: rest) (ha : s.aborted f.part = false)
    (ht : f.typ = 2) : Gives (.ctlFrame n) s fun t =>
      (t.port n).inbox = rest ∧ (t.port n).held = (s.port n).held ++ [f] := by
  refine ⟨_, rfl, ?_⟩
  rw [State.ctlFrame, State.takeInbox_of_cons _ h ht, State.aborted_took, ha, if_neg Bool.false_ne_true]
  dsimp only
  rw [State.port_setPort, State.port_took]
  exact ⟨rfl, rfl⟩

theorem armFrame_gives {f : RxFrame} {rest : List RxFrame} (h : (s.port n).inbox = f :: rest) (ha : s.aborted f.part = false)
    (ht : f.typ = 3) : Gives (.armFrame n) s fun t =>
      (t.port n).inbox = rest ∧
        (t.win f.part).arms = (s.win f.part).arms ++ [(⟨n, f.wtag, f.woff, (s.sq f.part).beat, s.now⟩ : Arm)] := by
  refine ⟨_, rfl, ?_⟩
  rw [State.armFrame, State.takeInbox_of_cons _ h ht, State.aborted_took, ha, if_neg Bool.false_ne_true]
  dsimp only
  rw [State.win_setWin, State.win_took, State.sq_took]
  exact ⟨congrArg Port.inbox (State.port_took ..), rfl⟩

theorem State.win_of_kept {φ : Part → Bool} (h : Kept φ s t) (hw : φ .wins = true) (j : Nat) : t.win j = s.win j := by
  unfold State.win; rw [h.wins hw]

/-- A window that ends leaves the list. -/
theorem State.rx_endRx (p : Nat) (x : RxWin) :
    ((s.endRx p x).win p).rx = (s.win p).rx.filter fun (y : RxWin) => y.w.id != x.w.id := by
  have hend : Kept (allBut [.regs, .usage])
      (s.setWin p { s.win p with rx := (s.win p).rx.filter fun (y : RxWin) => y.w.id != x.w.id }) (s.endRx p x) := by
    have hsub (c : Nat) {u : State} (h : Kept (allBut [.regs, .usage])
        (s.setWin p { s.win p with rx := (s.win p).rx.filter fun (y : RxWin) => y.w.id != x.w.id }) u) :
        Kept (allBut [.regs, .usage])
          (s.setWin p { s.win p with rx := (s.win p).rx.filter fun (y : RxWin) => y.w.id != x.w.id }) (u.csetSub p c) :=
      State.csetSub_kept _ _ h rfl
    unfold State.endRx
    dsimp only
    cases x.peer with
    | none => exact kept_ite (State.sepiaRec_kept _ _ _ _ (hsub _ (Kept.refl _ _)) rfl) (hsub _ (Kept.refl _ _))
    | some c => exact kept_ite (State.sepiaRec_kept _ _ _ _ (hsub _ (hsub _ (Kept.refl _ _))) rfl) (hsub _ (hsub _ (Kept.refl _ _)))
  rw [State.win_of_kept hend rfl, State.win_setWin]

/-- R377: a window that fails leaves the list. -/
theorem State.rx_failRx (p : Nat) (x : RxWin) :
    ((s.failRx p x).win p).rx = (s.win p).rx.filter fun (y : RxWin) => y.w.id != x.w.id := by
  rw [State.failRx, State.rx_endRx,
    State.win_of_kept (State.sramWr_kept (φ := allBut [.cores, .seqs]) _ _ _ (Kept.refl _ s) rfl rfl) rfl]

theorem abortFrame_gives {f : RxFrame} {rest : List RxFrame} {x : RxWin} (h : (s.port n).inbox = f :: rest)
    (ha : s.aborted f.part = false) (ht : f.typ = 6)
    (hx : ((s.win f.part).rx.find? fun (x : RxWin) => x.armed && x.w.port == n && x.w.win == f.wtag) = some x) :
    Gives (.abortFrame n) s fun t => (t.port n).inbox = rest ∧
      (t.win f.part).rx = (s.win f.part).rx.filter fun (y : RxWin) => y.w.id != x.w.id := by
  have hrun : s.abortFrame n = ((s.took n rest).failRx f.part x).winError f.part n x.w.lport 0 f.wtag := by
    rw [State.abortFrame, State.takeInbox_of_cons _ h ht, State.aborted_took, ha, if_neg Bool.false_ne_true, State.win_took, hx]
  have herr (u : State) : Kept (allBut [.regs, .out, .usage, .upds, .events]) u (u.winError f.part n x.w.lport 0 f.wtag) :=
    State.winError_kept _ _ _ _ _ (Kept.refl _ u) rfl rfl rfl rfl rfl
  have hfail (u : State) : Kept (allBut [.cores, .regs, .seqs, .usage, .wins]) u (u.failRx f.part x) :=
    State.failRx_kept _ _ (Kept.refl _ u) rfl rfl rfl rfl rfl
  refine ⟨_, rfl, ?_⟩
  rw [hrun]
  constructor
  · rw [State.port_of_kept (herr _) rfl, State.port_of_kept (hfail _) rfl, State.port_took]
  · rw [State.win_of_kept (herr _) rfl, State.rx_failRx, State.win_took]

/-! ### SPDM (R380, R382) -/

/-- Bindings that are written are valid. -/
theorem State.valid_writeBinds (l : List (Nat × Nat × Nat)) {p : Nat}
    (h : s.flag (Reg.LL_BIND n p) Fld.LL_BIND_VALID = true ∨ ∃ b ∈ l, b.1 = p) :
    (s.writeBinds n l).flag (Reg.LL_BIND n p) Fld.LL_BIND_VALID = true := by
  unfold State.writeBinds
  induction l generalizing s with
  | nil => exact h.resolve_right (by simp)
  | cons b l ih =>
    refine ih ?_
    by_cases hbp : Reg.LL_BIND n p = Reg.LL_BIND n b.1
    · left
      rw [hbp]
      simp only [State.flag, State.fget, State.rd_setPort, State.rd_wr]
      rw [Fld.get_put_ne _ _ _ _ (by decide) (by decide), Fld.get_put_ne _ _ _ _ (by decide) (by decide),
        Fld.get_put_ne _ _ _ _ (by decide) (by decide), Fld.get_put_same _ _ _ (by decide)]
      rfl
    · have hne : b.1 ≠ p := fun e => hbp (by rw [e])
      refine h.imp (fun hv => (State.flag_of_rd ((State.rd_setPort ..).trans (State.rd_wr_ne _ _ hbp))).trans hv) ?_
      rintro ⟨x, hx, rfl⟩
      exact ⟨x, (List.mem_cons.1 hx).resolve_left fun e => hne (congrArg Prod.fst e).symm, rfl⟩

theorem spdmFrame_gives {f : RxFrame} {rest : List RxFrame} (binds : List (Nat × Nat × Nat)) (h : (s.port n).inbox = f :: rest)
    (ht : f.typ = 5) :
    let m := (f.payload.drop 4).take (leAt f.payload 0 4)
    let v := if (s.port n).session = 0 then m else Config.openedMessage n m
    leAt v 1 1 ≠ 0x85 → Gives (.spdmFrame ⟨n, binds⟩) s fun t => (t.port n).inbox = rest ∧ (t.port n).spdm = v ∧
      ((s.port n).session ≠ 0 → ∀ b ∈ binds, t.flag (Reg.LL_BIND n b.1) Fld.LL_BIND_VALID = true) := by
  intro m v hv
  have hrun : s.spdmFrame n binds =
      let s1 := (s.took n rest).setPort n { s.port n with inbox := rest, spdm := v }
      if (s.port n).session = 0 then s1 else s1.writeBinds n binds := by
    rw [State.spdmFrame, State.takeInbox_of_cons _ h ht, State.port_took]
    dsimp only
    rw [if_pos hv]
  refine ⟨_, rfl, ?_⟩
  rw [hrun]
  dsimp only
  split
  · rw [State.port_setPort]
    exact ⟨rfl, rfl, fun h0 => absurd ‹_› h0⟩
  · obtain ⟨ep, e⟩ := State.port_writeBinds (s := (s.took n rest).setPort n { s.port n with inbox := rest, spdm := v }) (n := n) binds
    rw [e, State.port_setPort]
    exact ⟨rfl, rfl, fun _ b hb => State.valid_writeBinds _ (.inr ⟨b, hb, rfl⟩)⟩

/-! ## IDLE blocks and NAKs (R358, R361) -/

theorem idleBlock_gives {b : List Byte} (hl : (s.port n).linked = true) (hb : b.length = 32) (hc : crcOk b = true)
    (hk : bitsOf (leAt b 0 8) 60 4 = 2) : Gives (.idleBlock n b) s fun t =>
      (t.port n).replay = (s.port n).replay.filter fun (f : Sealed) => !seqGe (bitsOf (leAt b 0 8) 24 24) f.seq := by
  obtain ⟨_, _, _, _, e⟩ := s.port_takeHeader (n := n) (leAt b 0 8)
  have hrun : s.idleBlock n b = s.takeHeader n (leAt b 0 8) := if_pos ⟨hl, hb, hc, hk⟩
  exact ⟨_, rfl, by rw [hrun]; exact congrArg Port.replay e⟩

theorem nakReplay_gives (hnak : (s.port n).nakIn = true) (hr : (s.port n).replay ≠ []) (h8 : ∀ f ∈ (s.port n).replay, f.replays < 8) :
    Gives (.nakReplay n) s fun t =>
      (t.port n).nakIn = false ∧ (t.port n).resend = (s.port n).replay.map fun (f : Sealed) => f.seq := by
  have hany : ((s.port n).replay.any fun (f : Sealed) => decide (8 ≤ f.replays)) = false :=
    List.any_eq_false.2 fun f hf => by simpa using h8 f hf
  have hempty : (s.port n).replay.isEmpty = false := by simpa using hr
  refine ⟨_, rfl, ?_⟩
  simp only [State.nakReplay, hnak, hany, hempty, Bool.not_true, Bool.false_eq_true, if_false, State.port_sepiaRec, State.port_bump,
    State.port_setPort, and_self]

end
end Sys2Proof.Machine

namespace Sys2Proof.Machine

section
variable {s t : State} {n a : Nat}

/-! ## A frame goes out (R362, R371 to R374) -/

theorem State.port_putBlock (seq : Nat) (body : List Byte) : (s.putBlock n seq body).port n = { s.port n with
    ctlRet := (s.port n).ctlRet.map (· - 1), bulkRet := (s.port n).bulkRet.map (· - 1), nakDue := false } := State.port_header seq 1

/-- The port after a frame that went out for the first time. -/
def Port.sent (x : Port) (owner typ : Nat) (body : List Byte) : Port :=
  let seq := (x.txSeq + 1) % seqMod
  { x with
    ctlRet := x.ctlRet.map (· - 1), bulkRet := x.bulkRet.map (· - 1), nakDue := false, txSeq := seq
    replay := x.replay ++ [(⟨seq, owner, typ, body, 0⟩ : Sealed)] }

theorem State.port_firstSend (owner typ : Nat) (body : List Byte) :
    (s.firstSend n owner typ body).port n = (s.port n).sent owner typ body := by
  unfold State.firstSend
  dsimp only
  rw [State.port_showUsed, State.port_setPort, State.port_bump64, State.port_putBlock]
  rfl

/-- R359, R380: the body of a frame of SPDM that goes out. -/
def State.spdmBody (s : State) (f : TxFrame) : List Byte :=
  frameHeader 5 0 0 f.payload.length 0 0 0 (s.node / 8 * 8) 0 0 ++ f.payload ++ List.replicate 16 0#8

/-- An SPDM frame that waited has gone out. -/
def State.spdmSent (s : State) (n : Nat) (f : TxFrame) : State :=
  (s.setPort n { s.port n with queue := (s.port n).queue.erase f }).firstSend n 0 5 (s.spdmBody f)

theorem State.port_spdmSent (f : TxFrame) : (s.spdmSent n f).port n =
    Port.sent { s.port n with queue := (s.port n).queue.erase f } 0 5 (s.spdmBody f) := by
  rw [State.spdmSent, State.port_firstSend, State.port_setPort]

/-- Entry 0 outside a replay: the oldest frame of SPDM goes out, or nothing does. -/
theorem State.sendOne_zero {room : Nat} {bad : SramErrs} (hnak : (s.port n).nakIn = false) (hres : (s.port n).resend = []) :
    s.sendOne n 0 room bad = match (s.port n).queue.find? fun (f : TxFrame) => f.part == 0 with
      | none => none
      | some f => if room < 64 + f.payload.length ∨ 32768 < (s.port n).used + (64 + f.payload.length) / 32 then none
        else some (s.spdmSent n f, 64 + f.payload.length) := by
  unfold State.sendOne
  dsimp only
  rw [if_neg (by simp [hnak])]
  split
  case h_1 q rest hq => simp [hres] at hq
  case h_2 => rfl

theorem State.sendOne_zero_of_empty {room : Nat} {bad : SramErrs} (hnak : (s.port n).nakIn = false) (hres : (s.port n).resend = [])
    (hq : (s.port n).queue = []) : s.sendOne n 0 room bad = none := by
  rw [State.sendOne_zero hnak hres, hq]
  rfl

/-- R373: the header of an IDLE block takes nothing of the queue and the replay buffer. -/
theorem State.port_idleSent (o : Output) : (((s.header n 0 2).1.emit o).port n).queue = (s.port n).queue ∧
    (((s.header n 0 2).1.emit o).port n).txSeq = (s.port n).txSeq ∧
    (((s.header n 0 2).1.emit o).port n).replay = (s.port n).replay := by
  rw [State.port_emit, State.port_header]
  exact ⟨rfl, rfl, rfl⟩

theorem frameSend_gives {f : TxFrame} {bad : SramErrs} (hl : (s.port n).linked = true) (hnak : (s.port n).nakIn = false)
    (hres : (s.port n).resend = []) (hrep : (s.port n).replay = []) (hq : (s.port n).queue = [f]) (hp : f.part = 0)
    (hlen : f.payload.length ≤ 4096) : Gives (.frameSend n 0 bad) s fun t =>
      (t.port n).queue = [] ∧ (t.port n).txSeq = ((s.port n).txSeq + 1) % seqMod ∧
        ∃ body, (t.port n).replay = [(⟨(t.port n).txSeq, 0, 5, body, 0⟩ : Sealed)] := by
  have hused : (s.port n).used = 0 := by rw [Port.used, hrep]; rfl
  have hone : s.sendOne n 0 4160 bad = some (s.spdmSent n f, 64 + f.payload.length) := by
    rw [State.sendOne_zero hnak hres, hq, List.find?_cons_of_pos (by simp [hp])]
    exact if_neg (by omega)
  have hport := s.port_spdmSent (n := n) f
  have hqueue : ((s.spdmSent n f).port n).queue = [] := by rw [hport]; simp [Port.sent, hq]
  have hseq : ((s.spdmSent n f).port n).txSeq = ((s.port n).txSeq + 1) % seqMod := by rw [hport]; rfl
  have hreplay : ((s.spdmSent n f).port n).replay = [(⟨((s.port n).txSeq + 1) % seqMod, 0, 5, s.spdmBody f, 0⟩ : Sealed)] := by
    rw [hport]; simp [Port.sent, hrep]
  have hnone : (s.spdmSent n f).sendOne n 0 (4160 - (64 + f.payload.length)) bad = none :=
    State.sendOne_zero_of_empty (by rw [hport]; exact hnak) (by rw [hport]; exact hres) hqueue
  have hloop : s.sendLoop n (s.entryOwner n 0) bad 43 4160 = (s.spdmSent n f, 4160 - (64 + f.payload.length)) := by
    have howner : s.entryOwner n 0 = 0 := if_pos (.inl rfl)
    rw [howner, State.sendLoop, hone]
    dsimp only
    rw [State.sendLoop, hnone]
  refine ⟨_, rfl, ?_⟩
  rw [State.frameSend, hl, hloop]
  dsimp only
  rw [Bool.not_true, if_neg Bool.false_ne_true]
  split
  · rw [hqueue, hseq, hreplay]
    exact ⟨rfl, rfl, _, rfl⟩
  · obtain ⟨h1, h2, h3⟩ := (s.spdmSent n f).port_idleSent (n := n)
      (.link n (withCrc (((s.spdmSent n f).header n 0 2).2 ++ List.replicate 16 0#8)))
    rw [h1, h2, h3, hqueue, hseq, hreplay]
    exact ⟨rfl, rfl, _, rfl⟩

end

/-- Settles O30, row by row. The messages, the bindings that come with a frame of SPDM, and the chunks of a long message are as log
entry 46 says. -/
theorem frameRowsComplete : Obligations.FrameRowsComplete :=
  ⟨fun _ _ fec _ hn hl h32 hle hmod => linkFrameReceive_gives fec hn hl h32 hle hmod,
    fun _ _ _ _ _ h ht ha hx hlen => schedFrame_gives h ht ha hx hlen,
    fun _ _ _ _ h ha => ⟨fun ht => ctlFrame_gives h ha ht, fun ht => armFrame_gives h ha ht,
      fun binds ht hv => spdmFrame_gives binds h ht hv, fun ht _ hx => abortFrame_gives h ha ht hx⟩,
    fun _ _ _ hl hb hc hk => idleBlock_gives hl hb hc hk, fun _ _ hnak hr h8 => nakReplay_gives hnak hr h8,
    fun _ _ _ _ hl hnak hres hrep hq hv => frameSend_gives hl hnak hres hrep hq rfl hv⟩

end Sys2Proof.Machine

/-! The rows that renew the link keys: what SPDM messages on entry 0 leave alone, and the statement settled with them (spec, chapter 08). -/

namespace Sys2Proof.Machine

section
variable {s t u : State} {n : Nat}

/-! ## What SPDM messages leave alone -/

/-- The keys stand as they did, and so do a port's replay and what is due of its transmit key. -/
structure LinkKept (n : Nat) (s t : State) : Prop where
  key : ∀ k, t.key k = s.key k
  nakIn : (t.port n).nakIn = (s.port n).nakIn
  resend : (t.port n).resend = (s.port n).resend
  txDue : (t.port n).txDue = (s.port n).txDue

theorem LinkKept.refl (n : Nat) (s : State) : LinkKept n s s := ⟨fun _ => rfl, rfl, rfl, rfl⟩

theorem LinkKept.trans (h : LinkKept n s t) (h' : LinkKept n t u) : LinkKept n s u :=
  ⟨fun k => (h'.key k).trans (h.key k), h'.nakIn.trans h.nakIn, h'.resend.trans h.resend, h'.txDue.trans h.txDue⟩

/-- R380: messages that wait are added to the queue. -/
theorem State.port_sendSpdm (m : List Byte) : ∃ q, (s.sendSpdm n m).port n = { s.port n with queue := q } := by
  unfold State.sendSpdm
  dsimp only
  split
  · exact ⟨_, rfl⟩
  · exact ⟨_, State.port_setPort ..⟩

theorem State.key_sendSpdm (m : List Byte) (k : Nat) : (s.sendSpdm n m).key k = s.key k :=
  State.key_of_kept (State.sendSpdm_kept (φ := allBut [.ports]) n m (Kept.refl _ s) rfl) rfl k

theorem linkKept_sendSpdm (m : List Byte) : LinkKept n s (s.sendSpdm n m) := by
  obtain ⟨q, e⟩ := s.port_sendSpdm (n := n) m
  exact ⟨State.key_sendSpdm m, by rw [e], by rw [e], by rw [e]⟩

theorem linkKept_spdmSent (f : TxFrame) : LinkKept n s (s.spdmSent n f) where
  key k := (State.key_of_kept (State.firstSend_kept (φ := allBut [.regs, .ports, .out]) _ _ _ _ (Kept.refl _ _) rfl rfl rfl) rfl k).trans
    (State.key_setPort ..)
  nakIn := by rw [State.port_spdmSent]; rfl
  resend := by rw [State.port_spdmSent]; rfl
  txDue := by rw [State.port_spdmSent]; rfl

/-- Outside a replay entry 0 carries SPDM alone. -/
theorem linkKept_spdmOut (hnak : (s.port n).nakIn = false) (hres : (s.port n).resend = []) : LinkKept n s (s.spdmOut n) := by
  have hstep (u : State) (h : LinkKept n s u) :
      LinkKept n s (match u.sendOne n 0 4160 {} with | some x => x.1 | none => u) := by
    rw [State.sendOne_zero (h.nakIn.trans hnak) (h.resend.trans hres)]
    cases (u.port n).queue.find? fun (f : TxFrame) => f.part == 0 with
    | none => exact h
    | some f =>
      dsimp only
      split
      next hsome =>
        split at hsome
        · exact absurd hsome (by simp)
        · rw [← (Option.some.inj hsome)]
          exact h.trans (linkKept_spdmSent f)
      next => exact h
  have hloop (l : List Nat) (u : State) (h : LinkKept n s u) : LinkKept n s
      (l.foldl (fun (x : State) _ => match x.sendOne n 0 4160 {} with | some y => y.1 | none => x) u) := by
    induction l generalizing u with
    | nil => exact h
    | cons _ l ih => exact ih _ (hstep u h)
  exact hloop _ s (LinkKept.refl n s)

/-! ## The rows of link keys (R385, R386) -/

theorem rekeyTimer_gives {dir : Nat} (hsec : s.linkSecure n = true)
    (htime : (if dir = 0 then (s.port n).txSwap else (s.port n).rxSwap) +
      s.fget (Reg.LL_REKEY_CFG n) Fld.LL_REKEY_CFG_HOURS * 360000000000 ≤ s.now) : Gives (.rekeyTimer n dir) s fun t =>
        if dir = 0 then (t.port n).txDue = true else (t.port n).rxDue = true := by
  have hrun : s.rekeyTimer n dir = (s.setPort n (if dir = 0 then { s.port n with txDue := true }
      else { s.port n with rxDue := true })).irqLl n Fld.LL_INT_STATUS_REKEY_DUE := if_neg (by simp [hsec, htime])
  refine ⟨_, rfl, ?_⟩
  rw [hrun]
  dsimp only
  rw [State.port_irqLl, State.port_setPort]
  by_cases hd : dir = 0
  · simp only [if_pos hd]
  · simp only [if_neg hd]

/-- What shows that a key is due leaves the keys and the ports. -/
theorem State.key_ite_fput {c : Prop} [Decidable c] (a : Nat) (f : Fld) (v k : Nat) : (if c then s else s.fput a f v).key k = s.key k := by
  split
  · rfl
  · exact State.key_fput ..
theorem State.port_ite_fput {c : Prop} [Decidable c] (a : Nat) (f : Fld) (v j : Nat) :
    (if c then s else s.fput a f v).port j = s.port j := by
  split
  · rfl
  · exact State.port_fput ..

/-- The transmit slot is loaded, and the key is no longer due. -/
def State.txRekeyed (s : State) (n : Nat) (key : List Byte) (now : Nat) : State :=
  let s1 := s.loadLink (txSlot n) key 0 47 48
  s1.setPort n { s1.port n with txDue := false, txSwap := now }

theorem rekey_gives_transmit {key msg ver : List Byte} (hup : (s.port n).up = true) (hsec : s.linkSecure n = true)
    (hdue : (s.port n).txDue = true) (hnak : (s.port n).nakIn = false) (hres : (s.port n).resend = [])
    (hload : s.canLoad (txSlot n) = true) (hq : ∀ f ∈ (((s.sendSpdm n msg).spdmOut n).port n).queue, f.part ≠ 0) :
    Gives (.rekey ⟨n, 0⟩ key ⟨msg, ver⟩ true) s fun t =>
      (t.key (txSlot n)).key = key ∧ (t.key (txSlot n)).epoch = (s.key (txSlot n)).epoch + 1 ∧
        (t.key (txSlot n)).ctr = 0 ∧ (t.port n).txDue = false := by
  have hask := linkKept_sendSpdm (s := s) (n := n) msg
  have hsent : LinkKept n s ((s.sendSpdm n msg).spdmOut n) :=
    hask.trans (linkKept_spdmOut (hask.nakIn.trans hnak) (hask.resend.trans hres))
  have hany : ((((s.sendSpdm n msg).spdmOut n).port n).queue.any fun (f : TxFrame) => f.part == 0) = false :=
    List.any_eq_false.2 fun f hf => by simpa using hq f hf
  set x := (s.sendSpdm n msg).spdmOut n with hx
  have hrun : s.rekey n 0 key msg ver true =
      let y := ((x.txRekeyed n key s.now).sendSpdm n ver).spdmOut n
      (if (s.port n).rxDue then y else y.fput (Reg.LL_INT_STATUS n) Fld.LL_INT_STATUS_REKEY_DUE 0).sepiaRec (unitPort n) 0x55 0
        (2 * (y.key (txSlot n)).epoch) := by
    unfold State.rekey
    dsimp only
    rw [if_neg (by simp [hup, hsec]), if_neg (by simp), if_neg (by simp [hdue, hnak, hres]), ← hx, if_neg (by simp [hany]),
      if_neg (by simp [hload])]
    rfl
  have hport : (x.txRekeyed n key s.now).port n = { x.port n with txDue := false, txSwap := s.now } := State.port_setPort ..
  have hver := linkKept_sendSpdm (s := x.txRekeyed n key s.now) (n := n) ver
  have hout := hver.trans (linkKept_spdmOut (hver.nakIn.trans (by rw [hport]; exact hsent.nakIn.trans hnak))
    (hver.resend.trans (by rw [hport]; exact hsent.resend.trans hres)))
  refine ⟨_, rfl, ?_⟩
  rw [hrun]
  dsimp only
  rw [State.key_sepiaRec, State.port_sepiaRec, State.key_ite_fput, State.port_ite_fput, hout.key, hout.txDue, hport, State.txRekeyed,
    State.key_setPort, State.key_loadLink, hsent.key]
  exact ⟨rfl, rfl, rfl, rfl⟩

theorem rekey_gives_receive {key msg ver : List Byte} {ok : Bool} (hup : (s.port n).up = true) (hsec : s.linkSecure n = true)
    (hdue : (s.port n).rxDue = true) : Gives (.rekey ⟨n, 1⟩ key ⟨msg, ver⟩ ok) s fun t => t = s.sendSpdm n msg := by
  refine ⟨_, rfl, ?_⟩
  simp [State.rekey, hup, hsec, hdue]

/-- The receive slot is loaded, and what it held before is kept beside it. -/
def State.rxRekeyed (s : State) (n : Nat) (key : List Byte) : State :=
  (s.loadLink (rxSlot n) key 1 0 0).setPort n { s.port n with
    oldKey := some ((s.key (rxSlot n)).key, (s.key (rxSlot n)).epoch, (s.port n).rxNext), rxNext := 0, rxDue := false, rxSwap := s.now }

theorem keyUpdateReceived_gives {key msg : List Byte} (hup : (s.port n).up = true) (hst : (s.key (rxSlot n)).state ≠ 0)
    (hload : s.canLoad (rxSlot n) = true) : Gives (.keyUpdateReceived n key msg true) s fun t =>
      (t.key (rxSlot n)).key = key ∧
        (t.port n).oldKey = some ((s.key (rxSlot n)).key, (s.key (rxSlot n)).epoch, (s.port n).rxNext) ∧ (t.port n).rxNext = 0 := by
  have hrun : s.keyUpdate n key msg true =
      let y := (s.rxRekeyed n key).sendSpdm n msg
      (if (s.port n).txDue then y else y.fput (Reg.LL_INT_STATUS n) Fld.LL_INT_STATUS_REKEY_DUE 0).sepiaRec (unitPort n) 0x55 0
        (1 + 2 * ((s.key (rxSlot n)).epoch + 1)) := if_neg (by simp [hup, hst, hload])
  obtain ⟨q, e⟩ := (s.rxRekeyed n key).port_sendSpdm (n := n) msg
  refine ⟨_, rfl, ?_⟩
  rw [hrun]
  dsimp only
  rw [State.key_sepiaRec, State.port_sepiaRec, State.key_ite_fput, State.port_ite_fput, State.key_sendSpdm, e, State.rxRekeyed,
    State.key_setPort, State.key_loadLink, State.port_setPort]
  exact ⟨rfl, rfl, rfl⟩

end

/-- Settles O31, row by row. Both directions are served in the one row, and the receive direction asks the peer for its KEY_UPDATE, as
log entries 17 and 46 say. -/
theorem linkKeyRowsComplete : Obligations.LinkKeyRowsComplete :=
  ⟨fun _ _ _ hsec htime => rekeyTimer_gives hsec htime,
    fun _ _ _ _ _ hup hsec hdue hnak hres hload hq => rekey_gives_transmit hup hsec hdue hnak hres hload hq,
    fun _ _ _ _ _ _ hup hsec hdue => rekey_gives_receive hup hsec hdue,
    fun _ _ _ _ hup hst hload => keyUpdateReceived_gives hup hst hload⟩

end Sys2Proof.Machine

/-! The rows of drains between buddies: what a slot's state and the delivered frames are after them, and the statement settled with them
(spec, chapter 10). -/

namespace Sys2Proof.Machine

section
variable {s t : State} {p n a : Nat} {r : RegReq}

/-! ## The registers of slots -/

theorem CKP_BSLOT_STAT_ne_CKP_STATUS (b : Nat) : Reg.CKP_BSLOT_STAT p b ≠ Reg.CKP_STATUS p := by
  unfold Reg.CKP_BSLOT_STAT Reg.CKP_STATUS; omega

theorem State.rd_irqCkp (f : Fld) (h : a ≠ Reg.CKP_INT_STATUS p) : (s.irqCkp p f).rd a = s.rd a := State.rd_irq_ne _ _ _ _ _ _ h

theorem State.slotState_of_rd {j : Nat} (h : t.rd (Reg.CKP_SLOT_STAT p j) = s.rd (Reg.CKP_SLOT_STAT p j)) :
    t.slotState p j = s.slotState p j := State.fget_of_rd h
theorem State.bslotState_of_rd {b : Nat} (h : t.rd (Reg.CKP_BSLOT_STAT p b) = s.rd (Reg.CKP_BSLOT_STAT p b)) :
    t.bslotState p b = s.bslotState p b := State.fget_of_rd h

theorem State.slotState_setSlot {st : Nat} (j : Nat) (h : st < 8) : (s.setSlot p j st).slotState p j = st :=
  (State.fget_fput _ _ _ _ (by decide)).trans (Nat.mod_eq_of_lt h)

theorem State.bslotState_setBslot {st : Nat} (b : Nat) (h : st < 8) : (s.setBslot p b st).bslotState p b = st :=
  (State.bslotState_of_rd (State.rd_showDrain (CKP_BSLOT_STAT_ne_CKP_STATUS b))).trans
    ((State.fget_fput _ _ _ _ (by decide)).trans (Nat.mod_eq_of_lt h))

@[simp] theorem State.bslotState_setLake (x : Lake) (j b : Nat) : (s.setLake p x).bslotState j b = s.bslotState j b := (rfl)

/-! ## What moves registers and ports leaves the Lake -/

@[simp] theorem State.lake_fput (f : Fld) (v j : Nat) : (s.fput a f v).lake j = s.lake j := (rfl)
@[simp] theorem State.lake_setSlot (j st k : Nat) : (s.setSlot p j st).lake k = s.lake k := State.lake_fput ..
@[simp] theorem State.lake_setBslot (b st k : Nat) : (s.setBslot p b st).lake k = s.lake k :=
  State.lake_of_kept (State.setBslot_kept (φ := allBut [.regs]) p b st (Kept.refl _ s) rfl) rfl k
@[simp] theorem State.lake_sendBulk (v : List Byte) (k : Nat) : (s.sendBulk p n v).lake k = s.lake k := (rfl)
@[simp] theorem State.lake_bump64 (d j : Nat) : (s.bump64 a d).lake j = s.lake j :=
  State.lake_of_kept (State.bump64_kept (φ := allBut [.regs]) a d (Kept.refl _ s) rfl) rfl j
@[simp] theorem State.lake_irqCkp (f : Fld) (j : Nat) : (s.irqCkp p f).lake j = s.lake j :=
  State.lake_of_kept (State.irqCkp_kept (φ := allBut [.regs, .out]) p f (Kept.refl _ s) rfl rfl) rfl j
theorem State.port_readPairs (errs : List ReadErr) (l : List (Nat × Nat)) (j : Nat) : (s.readPairs errs p l).1.port j = s.port j :=
  State.port_of_kept (State.readPairs_kept (φ := allBut [.regs, .out, .channels]) errs p l (Kept.refl _ s) rfl rfl rfl) rfl j

@[simp] theorem State.port_setLake (x : Lake) (j : Nat) : (s.setLake p x).port j = s.port j := (rfl)

/-- R458: a BULK frame waits on its port. -/
theorem State.queue_sendBulk (v : List Byte) :
    ((s.sendBulk p n v).port n).queue = (s.port n).queue ++ [(⟨p, 4, 0, 0, v⟩ : TxFrame)] :=
  congrArg Port.queue (State.port_setPort ..)

/-! ## A frame of the drain goes out (R457, R458) -/

theorem State.drain_drainPut (d : Drain) (c : Nat) (v : List Byte) : ∃ d' : Drain, ((s.drainPut p d c v).lake p).drain = some d' ∧
    d'.next = d.next + c ∧ d'.port = d.port := by
  unfold State.drainPut
  dsimp only
  rw [State.lake_bump64, State.lake_sendBulk, State.lake_setLake]
  exact ⟨_, rfl, rfl, rfl⟩

theorem State.queue_drainPut (d : Drain) (c : Nat) (v : List Byte) :
    ((s.drainPut p d c v).port d.port).queue = (s.port d.port).queue ++ [(⟨p, 4, 0, 0, v⟩ : TxFrame)] := by
  unfold State.drainPut
  dsimp only
  rw [State.port_bump64, State.queue_sendBulk, State.port_setLake]

/-- R457: the drain goes on behind the sectors whose frame is on its way. -/
theorem State.drainSend_eq {d : Drain} {errs : List ReadErr} (hh : s.halted = false) (hd : (s.lake p).drain = some d)
    (hon : s.drainOn p = true) (he : d.ended = false) (hw : s.bulkWaits p d.port = false) (ht : d.began + 10000 ≤ s.now) :
    let x := s.readPairs errs p ((List.range (min 15 (s.slotN p - d.next))).map fun i => s.lakePlace p d.slot (d.next + i))
    s.drainSend p false errs = x.1.drainPut p d (min 15 (s.slotN p - d.next)) (s.drainFrame p d x.2.pairs) := by
  have hrate (len : Nat) : s.rateAdmits p d len = true := by
    rw [State.rateAdmits, decide_eq_true (show 10000 ≤ s.now - d.began by omega), Bool.true_or]
  have hnext : s.drainSend p false errs = s.drainNext p d errs := by simp [State.drainSend, hh, hd, hon]
  rw [hnext]
  exact if_neg (by simp [he, hw, hrate])

theorem drainSend_gives {d : Drain} {errs : List ReadErr} (hh : s.halted = false) (hd : (s.lake p).drain = some d)
    (hon : s.drainOn p = true) (he : d.ended = false) (hw : s.bulkWaits p d.port = false) (ht : d.began + 10000 ≤ s.now) :
    Gives (.drainSend p ⟨false, errs⟩) s fun t =>
      (∃ d' : Drain, (t.lake p).drain = some d' ∧ d'.next = d.next + min 15 (s.slotN p - d.next) ∧ d'.port = d.port) ∧
        ∃ f : TxFrame, (t.port d.port).queue = (s.port d.port).queue ++ [f] ∧ f.part = p ∧ f.typ = 4 := by
  refine ⟨_, rfl, ?_⟩
  rw [State.drainSend_eq hh hd hon he hw ht]
  exact ⟨State.drain_drainPut .., _, (State.queue_drainPut ..).trans (by rw [State.port_readPairs]), rfl, rfl⟩

/-! ## Drain frames come in (R379) -/

theorem bulkFrame_gives {f : RxFrame} {rest : List RxFrame} (h : (s.port n).inbox = f :: rest) (ht : f.typ = 4)
    (hk : leAt f.payload 0 1 = 2) (hl : f.payload.length = 96) : Gives (.bulkFrame n) s fun t =>
      (t.port n).inbox = rest ∧ (t.lake f.part).inbox = (s.lake f.part).inbox ++ [(n, f)] := by
  have hrun : s.bulkFrame n = let s1 := (s.took n rest).creditBulk n f.part
      s1.setLake f.part { s1.lake f.part with inbox := (s1.lake f.part).inbox ++ [(n, f)] } := by
    rw [State.bulkFrame, State.takeInbox_of_cons _ h ht]
    exact if_pos (by simp [hk, hl])
  refine ⟨_, rfl, ?_⟩
  rw [hrun]
  dsimp only
  rw [State.lake_setLake, State.port_setLake, State.creditBulk, State.port_setPort, State.port_took]
  exact ⟨rfl, rfl⟩

/-! ## Delivered drain frames leave the Lake's inbox -/

/-- The oldest delivered drain frame has left, `rest` of which stays. -/
def State.tookDrain (s : State) (p : Nat) (rest : List (Nat × RxFrame)) : State := s.setLake p { s.lake p with inbox := rest }

section
variable {f : RxFrame} {rest : List (Nat × RxFrame)} {d : Nat}

@[simp] theorem State.lake_tookDrain : (s.tookDrain p rest).lake p = { s.lake p with inbox := rest } := State.lake_setLake ..
@[simp] theorem State.accepts_tookDrain : (s.tookDrain p rest).accepts p = s.accepts p := (rfl)
@[simp] theorem State.newestBuddy_tookDrain : (s.tookDrain p rest).newestBuddy p = s.newestBuddy p := (rfl)
@[simp] theorem State.receiving_tookDrain (peer seq : Nat) :
    (s.tookDrain p rest).receiving p n peer seq = s.receiving p n peer seq := (rfl)
@[simp] theorem State.pullOn_tookDrain : (s.tookDrain p rest).pullOn p n = s.pullOn p n := by
  unfold State.pullOn
  rw [State.lake_tookDrain]

theorem State.takeDrain_of_cons {k : Nat} (g : State → Nat → RxFrame → State) (h : (s.lake p).inbox = (n, f) :: rest)
    (hk : leAt f.payload 0 1 = k) : s.takeDrain p k g = g (s.tookDrain p rest) n f := by
  simp only [State.takeDrain, h, hk, if_true]
  rfl

/-! ### DATA (R460) -/

/-- R460: the buddy slot that does not hold the newest VERIFIED copy. -/
def State.freeBuddy (s : State) (p : Nat) : Nat := match s.newestBuddy p with | some k => 1 - k | none => 0

@[simp] theorem State.freeBuddy_tookDrain : (s.tookDrain p rest).freeBuddy p = s.freeBuddy p := (rfl)

/-- A buddy slot `d` takes a snapshot of a sender. -/
def State.buddyTaken (s : State) (p n peer seq d : Nat) : State :=
  ((s.wr (Reg.CKP_BSLOT_STAT p d) (Fld.CKP_BSLOT_STAT_END.put (Fld.CKP_BSLOT_STAT_SRC.put 0
    (s.fget (Reg.LL_PEER n) Fld.LL_PEER_NODE)) peer)).wn (Reg.CKP_BSLOT_SEQ p d) seq).setBslot p d 1

theorem State.receiveNew_eq (peer seq slot : Nat) : s.receiveNew p n peer seq slot =
    let s1 := s.buddyTaken p n peer seq (s.freeBuddy p)
    let l := s1.lake p
    (s1.setLake p { l with
      bport := put2 l.bport (s.freeBuddy p) n, bfrom := put2 l.bfrom (s.freeBuddy p) slot, bheld := put2 l.bheld (s.freeBuddy p) [] },
      s.freeBuddy p) := rfl

theorem State.lake_buddyTaken (peer seq d : Nat) : (s.buddyTaken p n peer seq d).lake p = s.lake p :=
  State.lake_of_kept (φ := allBut [.regs]) (State.setBslot_kept _ _ _ (State.wn_kept _ _ (State.wr_kept _ _ (Kept.refl _ s) rfl) rfl)
    rfl) rfl p

theorem State.bslotState_buddyTaken (peer seq d : Nat) : (s.buddyTaken p n peer seq d).bslotState p d = 1 :=
  State.bslotState_setBslot d (by decide)

theorem drainDataReceive_gives (h : (s.lake p).inbox = (n, f) :: rest) (hpull : s.pullOn p n = none)
    (hk : leAt f.payload 0 1 = 1) (ha : s.accepts p = true) (hfirst : leAt f.payload 8 8 = 0)
    (hrec : s.receiving p n f.peer (leAt f.payload 4 4) = none)
    (hfit : leAt f.payload 16 1 ≤ s.nstacks p * (s.buddySize p / 256)) : Gives (.drainDataReceive p) s fun t =>
      (t.lake p).inbox = rest ∧ t.bslotState p (s.freeBuddy p) = 1 := by
  have hlen : (dataSectors f.payload).length = leAt f.payload 16 1 := by rw [dataSectors, List.length_map, List.length_range]
  have hroom : ¬ s.nstacks p * (s.buddySize p / 256) < leAt f.payload 8 8 + (dataSectors f.payload).length := by omega
  have hrun : ∃ k : Lake, k.inbox = rest ∧ s.drainData p =
      ((s.tookDrain p rest).receiveNew p n f.peer (leAt f.payload 4 4) (leAt f.payload 1 1)).1.setLake p k := by
    rw [State.drainData, State.takeDrain_of_cons _ h hk]
    dsimp only
    rw [State.pullOn_tookDrain, hpull]
    dsimp only
    rw [State.accepts_tookDrain, State.receiving_tookDrain, hrec, if_neg (by simp [ha, hfirst])]
    dsimp only
    refine ⟨_, ?_, if_neg hroom⟩
    simp only [State.receiveNew_eq, State.lake_setLake, State.lake_buddyTaken, State.lake_tookDrain]
  obtain ⟨k, hinbox, hk⟩ := hrun
  refine ⟨_, rfl, ?_⟩
  rw [hk]
  dsimp only
  rw [State.lake_setLake, State.receiveNew_eq, State.bslotState_setLake]
  dsimp only
  rw [State.bslotState_setLake, State.freeBuddy_tookDrain, State.bslotState_buddyTaken]
  exact ⟨hinbox, rfl⟩

/-! ### END, RESULT, PULL and ABANDON (R457, R460, R461, R471) -/

/-- The sectors that a buddy slot holds are stored: the Lake stands. -/
theorem State.lake_foldl_putPair (c : Nat) (at' : Nat → State → Nat × Nat) (l : List (Nat × List Byte × List Byte)) :
    (l.foldl (fun (x : State) y => if y.1 < c then x.putPair (at' y.1 x) y.2.1 y.2.2 else x) s).lake p = s.lake p :=
  State.lake_of_kept (φ := allBut [.mem, .regs, .poison]) (kept_foldl (Kept.refl _ s) fun _ _ hx =>
    kept_ite (State.putPair_kept _ _ _ hx rfl rfl rfl) hx) rfl p

theorem drainEndReceive_gives (h : (s.lake p).inbox = (n, f) :: rest) (hpull : s.pullOn p n = none)
    (hk : leAt f.payload 0 1 = 2) (ha : s.accepts p = true) (hrec : s.receiving p n f.peer (leAt f.payload 4 4) = some d)
    (hq : leAt f.payload 80 8 * 256 ≤ s.buddySize p) (hst : leAt f.payload 88 1 = s.nstacks p) :
    Gives (.drainEndReceive p) s fun t => (t.lake p).inbox = rest ∧ t.bslotState p d = 2 := by
  have hfit : ¬ (s.buddySize p < leAt f.payload 80 8 * 256 ∨ leAt f.payload 88 1 ≠ s.nstacks p) := by omega
  have hrun : ∃ u : State, (u.lake p).inbox = rest ∧ s.drainEnd p = u.setBslot p d 2 := by
    rw [State.drainEnd, State.takeDrain_of_cons _ h hk]
    dsimp only
    rw [State.pullOn_tookDrain, hpull]
    dsimp only
    rw [State.accepts_tookDrain, State.receiving_tookDrain, hrec, if_neg (by simp [ha])]
    dsimp only
    refine ⟨_, ?_, if_neg hfit⟩
    have hwn (x : State) (b v : Nat) : (x.wn b v).lake p = x.lake p :=
      State.lake_of_kept (State.wn_kept (φ := allBut [.regs]) b v (Kept.refl _ x) rfl) rfl p
    rw [hwn, hwn, State.lake_foldl_putPair _ fun i x => x.buddyPlace p d (leAt f.payload 80 8) i, State.lake_setLake,
      State.lake_tookDrain]
  obtain ⟨u, hinbox, hk⟩ := hrun
  refine ⟨_, rfl, ?_⟩
  rw [hk]
  dsimp only
  rw [State.lake_setBslot, State.bslotState_setBslot _ (by decide)]
  exact ⟨hinbox, rfl⟩

theorem CKP_SLOT_STAT_ne_CKP_INT_STATUS {j : Nat} (h : j < 2) : Reg.CKP_SLOT_STAT p j ≠ Reg.CKP_INT_STATUS p := by
  unfold Reg.CKP_SLOT_STAT Reg.CKP_INT_STATUS; omega
theorem CKP_BSLOT_STAT_ne_CKP_INT_STATUS {b : Nat} (h : b < 2) : Reg.CKP_BSLOT_STAT p b ≠ Reg.CKP_INT_STATUS p := by
  unfold Reg.CKP_BSLOT_STAT Reg.CKP_INT_STATUS; omega

theorem State.drain_endDrain : ((s.endDrain p).lake p).drain = none := by
  rw [State.endDrain, State.showDrain, State.lake_fput, State.lake_setLake]

theorem drainResultReceive_gives {d : Drain} (h : (s.lake p).inbox = (n, f) :: rest) (hk : leAt f.payload 0 1 = 3)
    (hd : (s.lake p).drain = some d) (hport : d.port = n) (hslot : d.slot < 2)
    (hseq : leAt f.payload 4 4 = s.rn (Reg.CKP_SLOT_SEQ p d.slot)) (hv : leAt f.payload 17 1 = 0)
    (hroot : sliceB f.payload 32 48 = (s.lake p).root.getD d.slot []) :
    Gives (.drainResultReceive p) s fun t => (t.lake p).drain = none ∧ t.slotState p d.slot = 3 := by
  have hrun : s.drainResult p =
      (((s.tookDrain p rest).endDrain p).setSlot p d.slot 3).irqCkp p Fld.CKP_INT_STATUS_VERIFIED := by
    have hmine : ¬ (d.port ≠ n ∨ leAt f.payload 4 4 ≠ (s.tookDrain p rest).rn (Reg.CKP_SLOT_SEQ p d.slot)) :=
      fun e => e.elim (fun e => e hport) fun e => e hseq
    rw [State.drainResult, State.takeDrain_of_cons _ h hk]
    dsimp only
    rw [if_neg (by rw [hv]; decide), State.lake_tookDrain]
    dsimp only
    rw [hd]
    dsimp only
    rw [if_neg hmine, if_pos hv, if_pos hroot]
  refine ⟨_, rfl, ?_⟩
  rw [hrun]
  dsimp only
  rw [State.lake_irqCkp, State.lake_setSlot, State.slotState_of_rd (State.rd_irqCkp _ (CKP_SLOT_STAT_ne_CKP_INT_STATUS hslot)),
    State.slotState_setSlot _ (by decide)]
  exact ⟨State.drain_endDrain, rfl⟩

theorem drainPullReceive_gives (h : (s.lake p).inbox = (n, f) :: rest) (hk : leAt f.payload 0 1 = 4) (ha : s.accepts p = true)
    (hseq : leAt f.payload 4 4 = 0) (hd : s.newestBuddy p = some d) : Gives (.drainPullReceive p) s fun t =>
      (t.lake p).serve = some ⟨true, d, n, 0, false, s.now, 0⟩ := by
  refine ⟨_, rfl, ?_⟩
  rw [State.drainPull, State.takeDrain_of_cons _ h hk]
  dsimp only
  rw [State.accepts_tookDrain, State.newestBuddy_tookDrain, if_neg (by simp [ha]), if_pos hseq, hd]
  dsimp only
  rw [State.lake_fput, State.lake_setLake]
  rfl

theorem drainAbandonReceive_gives (h : (s.lake p).inbox = (n, f) :: rest) (hk : leAt f.payload 0 1 = 5) (ha : s.accepts p = true)
    (hrec : s.receiving p n f.peer (leAt f.payload 4 4) = some d) : Gives (.drainAbandonReceive p) s fun t =>
      t.bslotState p d = 4 := by
  refine ⟨_, rfl, ?_⟩
  rw [State.drainAbandon, State.takeDrain_of_cons _ h hk]
  dsimp only
  rw [State.receiving_tookDrain, hrec]
  dsimp only
  rw [State.accepts_tookDrain, if_pos ha, State.bslotState_setBslot _ (by decide)]

end

/-! ## The read-back ends (R461) -/

/-- R459: the verdict of a RESULT. -/
theorem leAt_resultFrame (slot seq verdict step : Nat) (root : List Byte) :
    leAt (resultFrame slot seq verdict step root) 17 1 = verdict % 256 := by
  simp [resultFrame, drainHeader, leAt_append_left, leAt_append_right, length_leBytes, leAt_leBytes]

theorem State.port_setBslot (b st j : Nat) : (s.setBslot p b st).port j = s.port j :=
  State.port_of_kept (State.setBslot_kept (φ := allBut [.regs]) p b st (Kept.refl _ s) rfl) rfl j

@[simp] theorem State.bslotState_sendBulk (v : List Byte) (j b : Nat) : (s.sendBulk p n v).bslotState j b = s.bslotState j b := (rfl)

/-- The verdict of a read-back is shown, and the RESULT `v` that says it waits on the port. -/
def State.verdictShown (s : State) (p d n : Nat) (ok : Bool) (v : List Byte) : State :=
  let y := (s.setBslot p d (if ok then 3 else 4)).sendBulk p n v
  if ok then y.irqCkp p Fld.CKP_INT_STATUS_BUDDY_VERIFIED else y

theorem State.bslotState_verdictShown {d : Nat} (hd : d < 2) (ok : Bool) (v : List Byte) :
    (s.verdictShown p d n ok v).bslotState p d = if ok then 3 else 4 := by
  unfold State.verdictShown
  dsimp only
  cases ok with
  | true =>
    rw [if_pos rfl, if_pos rfl, State.bslotState_of_rd (State.rd_irqCkp _ (CKP_BSLOT_STAT_ne_CKP_INT_STATUS hd)),
      State.bslotState_sendBulk, State.bslotState_setBslot _ (by decide)]
  | false =>
    rw [if_neg Bool.false_ne_true, if_neg Bool.false_ne_true, State.bslotState_sendBulk, State.bslotState_setBslot _ (by decide)]

theorem State.port_irqCkp (f : Fld) (j : Nat) : (s.irqCkp p f).port j = s.port j :=
  State.port_of_kept (State.irqCkp_kept (φ := allBut [.regs, .out]) p f (Kept.refl _ s) rfl rfl) rfl j

theorem State.queue_verdictShown {d : Nat} (ok : Bool) (v : List Byte) :
    ((s.verdictShown p d n ok v).port n).queue = (s.port n).queue ++ [(⟨p, 4, 0, 0, v⟩ : TxFrame)] := by
  unfold State.verdictShown
  dsimp only
  split
  · rw [State.port_irqCkp, State.queue_sendBulk, State.port_setBslot]
  · rw [State.queue_sendBulk, State.port_setBslot]

theorem readbackComplete_gives {d : Nat} (hh : s.halted = false)
    (hd : ((List.range 2).find? fun b => s.bslotState p b == 2) = some d) : Gives (.readbackComplete p []) s fun t =>
      (t.bslotState p d = 3 ∨ t.bslotState p d = 4) ∧
        ∃ f : TxFrame, (t.port ((s.lake p).bport.getD d 0)).queue = (s.port ((s.lake p).bport.getD d 0)).queue ++ [f] ∧
          leAt f.payload 17 1 = t.bslotState p d - 3 := by
  have hd2 : d < 2 := List.mem_range.1 (List.mem_of_find?_eq_some hd)
  have hrun : ∃ (ok : Bool) (l : List (Nat × Nat)) (slot seq step : Nat) (root : List Byte), s.readback p [] =
      (s.readPairs [] p l).1.verdictShown p d ((s.lake p).bport.getD d 0) ok (resultFrame slot seq (if ok then 0 else 1) step root) := by
    unfold State.readback
    rw [hd]
    dsimp only
    rw [if_neg (by simp [hh])]
    exact ⟨_, _, _, _, _, _, rfl⟩
  obtain ⟨ok, l, slot, seq, step, root, hrun⟩ := hrun
  refine ⟨_, rfl, ?_⟩
  rw [hrun]
  dsimp only
  rw [State.bslotState_verdictShown hd2, State.queue_verdictShown, State.port_readPairs]
  refine ⟨?_, _, rfl, ?_⟩
  · cases ok with
    | true => exact .inl rfl
    | false => exact .inr rfl
  · rw [leAt_resultFrame]
    cases ok with
    | true => rfl
    | false => rfl

/-! ## A write of the drain's configuration (R463) -/

theorem fields_CKP_DRAIN_CFG : ∀ p ∈ allParts, ((regDesc (Reg.CKP_DRAIN_CFG p)).map fun x => x.1.fields.head?) =
    some (some ⟨Fld.CKP_DRAIN_CFG_PORT, .rw, 0, []⟩) := by decide +kernel

theorem CKP_DRAIN_CFG_ne_CKP_STATUS : Reg.CKP_DRAIN_CFG p ≠ Reg.CKP_STATUS p := by
  unfold Reg.CKP_DRAIN_CFG Reg.CKP_STATUS; omega

theorem State.rd_drainFrom (j : Nat) (again : Bool) (h : a ≠ Reg.CKP_STATUS p) : (s.drainFrom p j again).rd a = s.rd a := by
  unfold State.drainFrom
  dsimp only
  rw [State.rd_showDrain h, State.rd_fput_ne _ _ _ h, State.rd_setLake]

theorem State.rd_endDrain (h : a ≠ Reg.CKP_STATUS p) : (s.endDrain p).rd a = s.rd a := by
  rw [State.endDrain, State.rd_showDrain h, State.rd_setLake]

@[simp] theorem State.rd_sendBulk (v : List Byte) (b : Nat) : (s.sendBulk p n v).rd b = s.rd b := (rfl)

theorem State.rd_startDrain (h : a ≠ Reg.CKP_STATUS p) : (s.startDrain p).rd a = s.rd a := by
  unfold State.startDrain
  split
  · rfl
  · split
    · rfl
    · split
      · exact State.rd_drainFrom _ _ h
      · split
        · rfl
        · exact (State.rd_drainFrom _ _ h).trans (State.rd_sendBulk ..)

theorem State.rd_drainCfgW (v : Word) (h : a ≠ Reg.CKP_STATUS p) :
    (s.drainCfgW p v).rd a = (s.regWrite (Reg.CKP_DRAIN_CFG p) v).rd a := by
  have hmoved (x : State) {c : Prop} [Decidable c] : (if c then x.endDrain p else x).rd a = x.rd a := by
    split
    · exact State.rd_endDrain h
    · rfl
  unfold State.drainCfgW
  dsimp only
  rw [State.rd_startDrain h, State.rd_setLake, hmoved]

theorem drainCfgWrite_gives (v : Word) (hp : p ∈ allParts) (hg : s.grants r (Reg.CKP_DRAIN_CFG p) = true) :
    Gives (.drainCfgWrite r p v) s fun t =>
      t.fget (Reg.CKP_DRAIN_CFG p) Fld.CKP_DRAIN_CFG_PORT = Fld.CKP_DRAIN_CFG_PORT.get v := by
  obtain ⟨⟨d, ix⟩, hd, hf⟩ := Option.map_eq_some_iff.1 (fields_CKP_DRAIN_CFG p hp)
  refine ⟨_, rfl, ?_⟩
  rw [State.write_of_grants _ hg]
  exact (State.fget_of_rd (State.rd_drainCfgW v CKP_DRAIN_CFG_ne_CKP_STATUS)).trans
    (State.get_rd_regWrite s v hd (List.mem_of_head? hf))

end

/-- Settles O50, row by row. An ABANDON fails the buddy slot, and the 100 µs of the rate limit run from the drain's start, as log entry
22 says. -/
theorem drainRowsComplete : Obligations.DrainRowsComplete :=
  ⟨fun _ _ _ _ hh hd hon he hw ht => drainSend_gives hh hd hon he hw ht, fun _ _ _ _ h ht hk hl => bulkFrame_gives h ht hk hl,
    fun _ _ _ _ _ _ h hpull => ⟨fun hk ha hfirst hrec hfit => drainDataReceive_gives h hpull hk ha hfirst hrec hfit,
      fun _ hk ha hrec hq hst => drainEndReceive_gives h hpull hk ha hrec hq hst,
      fun _ hk hd hport hslot hseq hv hroot => drainResultReceive_gives h hk hd hport hslot hseq hv hroot,
      fun _ hk ha hseq hd => drainPullReceive_gives h hk ha hseq hd, fun _ hk ha hrec => drainAbandonReceive_gives h hk ha hrec⟩,
    fun _ _ _ _ hh hd => readbackComplete_gives hh hd, fun _ _ _ v hp hg => drainCfgWrite_gives v hp hg⟩

end Sys2Proof.Machine

/-! A statement on the collectives that fails: the read of a launch's source may move the register that says what its stages are. -/

namespace Sys2Proof.Machine

/-- A physical core so high that its error counter would lie at `COL_STAGE_CFG` of partition 1. -/
def stageCfgCore : Nat := (Reg.COL_STAGE_CFG 1 - Reg.DBG_UE_COUNT 0) / 4

/-- A sum of the 32 bytes at the start of core 0, with its dynamic buffer and no fence to wait on. -/
def sumLaunch : Launch where
  queue := 0
  buf := 0
  desc := leBytes 64 (fieldsAt [(32, 32)])
  launch := 0
  granted := true
  step := 1
  began := 0
  data := []
  stage := 0
  phase := 0
  back := []

/-- Channel 0 of partition 1, whose stages are those of reset, all of size 1, holds that launch. Core 0 is mapped to the core beyond the
chip, and the first word there is uncorrectable. An error of core 0 in the same beat stands in `DBG_SRAM_LAST`, so that the column of this
one, which is not stated (R252), is not shown. -/
def miscountState : State :=
  let s := State.reset.setCc 1 0 (some sumLaunch)
  { s with coreMap := [(0, stageCfgCore)], cores := { s.cores with ueWords := [(stageCfgCore * 1048576, true)], lastErr := some (1, 0, 0) } }

theorem miscountState_launchDue : miscountState.launchDue 1 0 0 sumLaunch = true := by decide +kernel

theorem miscountState_sramPlace : miscountState.sramPlace 1 (leAt sumLaunch.desc 8 8) (ccLen sumLaunch.desc) = some (0, 0) := by
  decide +kernel

/-- Before the read no stage has more than one member. -/
theorem miscountState_nextStage : miscountState.nextStage 1 0 = 3 := by decide +kernel

/-- The error that the read counts makes two members of the tray's one (R424), so that the launch enters that stage. -/
theorem step_ccStart_miscountState : ((miscountState.ccStart 1 0 0 {}).cc 1 0).map Launch.step = some 2 := by decide +kernel

/-- Refutes O46: the clauses of the element operations bound no entry of the core map, and take the first stage from the state before the
source is read. Where the core's error counter is `COL_STAGE_CFG` (`miscountState`), the error that the read counts adds a member to the
tray's stage, and a launch that had no stage to enter enters that one. -/
theorem not_collectiveRowsComplete : ¬ Obligations.CollectiveRowsComplete := by
  intro h
  obtain ⟨-, -, -, hlaunch, -⟩ := h
  obtain ⟨hsum, -⟩ := hlaunch miscountState 1 0
  obtain ⟨t, ht, l, hcc, -, hstep⟩ := hsum sumLaunch 0 0 miscountState_launchDue miscountState_sramPlace
    fun hst => absurd miscountState_nextStage hst
  obtain rfl : miscountState.ccStart 1 0 0 {} = t := Host.Outcome.next.inj ht
  rw [if_pos miscountState_nextStage] at hstep
  have hentered := step_ccStart_miscountState
  rw [hcc, Option.map_some, hstep] at hentered
  exact absurd hentered (by decide)

end Sys2Proof.Machine

/-! The rows of snapshots, aborts, restores and PULLs: what a slot's state, the Lake and `CKP_STATUS` are after them, and the statement
settled with them (spec, chapter 10). -/

namespace Sys2Proof.Machine

section
variable {s : State} {p j a : Nat} {r : RegReq} {errs : List ReadErr}

/-! ## Registers that the checkpoint unit's reports leave alone -/

theorem State.rd_ckpErr (code : Nat) (h : a ≠ Reg.CKP_ERR p) (h' : a ≠ Reg.CKP_INT_STATUS p) : (s.ckpErr p code).rd a = s.rd a := by
  unfold State.ckpErr
  dsimp only
  rw [State.rd_irqCkp _ h']
  split
  · exact State.rd_fput_ne _ _ _ h
  · rfl

theorem CKP_STATUS_ne_CKP_INT_STATUS : Reg.CKP_STATUS p ≠ Reg.CKP_INT_STATUS p := by
  unfold Reg.CKP_STATUS Reg.CKP_INT_STATUS; omega
theorem CKP_SLOT_STAT_ne_CKP_STATUS : Reg.CKP_SLOT_STAT p j ≠ Reg.CKP_STATUS p := by
  unfold Reg.CKP_SLOT_STAT Reg.CKP_STATUS; omega
theorem CKP_SLOT_STAT_ne_CKP_ERR : Reg.CKP_SLOT_STAT p j ≠ Reg.CKP_ERR p := by
  unfold Reg.CKP_SLOT_STAT Reg.CKP_ERR; omega

@[simp] theorem State.lake_wr (w : Word) (k : Nat) : (s.wr a w).lake k = s.lake k := (rfl)
@[simp] theorem State.lake_setSlotStep (seq step k : Nat) : (s.setSlotStep p j seq step).lake k = s.lake k :=
  State.lake_of_kept (State.setSlotStep_kept (φ := allBut [.regs]) p j seq step (Kept.refl _ s) rfl) rfl k
@[simp] theorem State.lake_ckpErr (code k : Nat) : (s.ckpErr p code).lake k = s.lake k :=
  State.lake_of_kept (State.ckpErr_kept (φ := allBut [.regs, .out]) p code (Kept.refl _ s) rfl rfl) rfl k

/-! ## Slots (R446, R454) -/

@[simp] theorem State.slotState_setLake (x : Lake) (q k : Nat) : (s.setLake p x).slotState q k = s.slotState q k := (rfl)

theorem State.slotState_irqCkp (f : Fld) (hj : j < 2) : (s.irqCkp p f).slotState p j = s.slotState p j :=
  State.slotState_of_rd (State.rd_irqCkp f (CKP_SLOT_STAT_ne_CKP_INT_STATUS hj))

theorem State.slotState_ckpErr (code : Nat) (hj : j < 2) : (s.ckpErr p code).slotState p j = s.slotState p j :=
  State.slotState_of_rd (State.rd_ckpErr code CKP_SLOT_STAT_ne_CKP_ERR (CKP_SLOT_STAT_ne_CKP_INT_STATUS hj))

theorem State.slotState_startDrain : (s.startDrain p).slotState p j = s.slotState p j :=
  State.slotState_of_rd (State.rd_startDrain CKP_SLOT_STAT_ne_CKP_STATUS)

theorem State.slotState_setSlotStep (seq step : Nat) : (s.setSlotStep p j seq step).slotState p j = s.slotState p j := by
  refine State.slotState_of_rd ?_
  unfold State.setSlotStep
  rw [State.rd_wn_ne _ (by unfold Reg.CKP_SLOT_STAT Reg.CKP_SLOT_STEP_HI; omega),
    State.rd_wn_ne _ (by unfold Reg.CKP_SLOT_STAT Reg.CKP_SLOT_STEP_LO; omega),
    State.rd_wn_ne _ (by unfold Reg.CKP_SLOT_STAT Reg.CKP_SLOT_SEQ; omega)]

theorem State.slotState_snapEnd (h : (s.lake p).snap = some j) : (s.snapEnd p).slotState p j = 5 := by
  unfold State.snapEnd
  rw [h]
  dsimp only
  rw [State.slotState_of_rd (State.rd_fput_ne _ _ _ CKP_SLOT_STAT_ne_CKP_STATUS), State.slotState_setSlot j (by decide)]

theorem State.snap_snapEnd : ((s.snapEnd p).lake p).snap = none := by
  unfold State.snapEnd
  split
  next h => exact h
  · rw [State.lake_fput, State.lake_setSlot, State.lake_setLake]

/-- R457: a drain that starts is all that changes in the Lake. -/
theorem State.lake_startDrain : ∃ (d : Option Drain) (again broken : Bool),
    (s.startDrain p).lake p = { s.lake p with drain := d, again := again, broken := broken } := by
  have hfrom (x : State) (k : Nat) : (x.drainFrom p k false).lake p =
      { x.lake p with drain := some ⟨false, k, x.drainPort p, 0, false, x.now, 0⟩, again := false, broken := false } := by
    rw [State.drainFrom, State.showDrain, State.lake_fput, State.lake_fput, State.lake_setLake]
  unfold State.startDrain
  split
  · exact ⟨_, _, _, rfl⟩
  · split
    · exact ⟨_, _, _, rfl⟩
    · split
      · exact ⟨_, _, _, hfrom ..⟩
      · split
        · exact ⟨_, _, _, rfl⟩
        · exact ⟨_, _, _, hfrom ..⟩

theorem State.snap_startDrain : ((s.startDrain p).lake p).snap = (s.lake p).snap := by
  obtain ⟨d, again, broken, h⟩ := s.lake_startDrain (p := p)
  rw [h]

/-! ## Snapshots (R452, R454) -/

theorem snapshotTimer_gives (hn : s.fget (Reg.CKP_TIMER p) Fld.CKP_TIMER_SECONDS ≠ 0)
    (hdue : (s.lake p).timer + s.fget (Reg.CKP_TIMER p) Fld.CKP_TIMER_SECONDS * 100000000 ≤ s.now) :
    Gives (.snapshotTimer p) s fun t => (t.lake p).armed = true := by
  refine ⟨_, rfl, ?_⟩
  unfold State.snapTimer
  dsimp only
  rw [if_neg (by omega), State.lake_setLake]

theorem State.lake_snapWrite (k : Nat) : (s.snapWrite p j errs).1.lake k = s.lake k :=
  State.lake_of_kept (φ := allBut [.mem, .keys, .regs, .out, .poison, .channels, .upds, .haltReq])
    (State.snapWrite_kept p j errs (Kept.refl _ s) rfl rfl rfl rfl rfl rfl rfl rfl) rfl k

/-- R454: a snapshot whose image, metadata and manifest are written, with this root, leaves its slot LOCAL. -/
def State.snapLocal (s : State) (p j : Nat) (root : List Byte) : State :=
  let s1 := ((s.snapEnd p).setSlot p j 2).setSlotStep p j (s.rn (Reg.CKP_SEQNO p)) (s.lake p).step
  (s1.setLake p { s1.lake p with root := put2 (s1.lake p).root j root, broken := false }).irqCkp p Fld.CKP_INT_STATUS_SNAP

theorem State.slotState_snapLocal (root : List Byte) (hj : j < 2) : (s.snapLocal p j root).slotState p j = 2 := by
  unfold State.snapLocal
  dsimp only
  rw [State.slotState_irqCkp _ hj, State.slotState_setLake, State.slotState_setSlotStep, State.slotState_setSlot j (by decide)]

theorem State.snap_snapLocal (root : List Byte) : ((s.snapLocal p j root).lake p).snap = none := by
  unfold State.snapLocal
  dsimp only
  rw [State.lake_irqCkp, State.lake_setLake, State.lake_setSlotStep, State.lake_setSlot, State.snap_snapEnd]

/-- R454 steps 3 and 4, by the code that ended the writing. -/
theorem State.snapComplete_eq {s3 : State} {c : Nat} {root : List Byte} (hh : s.halted = false) (h : (s.lake p).snap = some j)
    (hw : s.snapWrite p j errs = (s3, c, root)) : s.snapComplete p errs =
    if c = 0 then (s3.snapLocal p j root).startDrain p else (s3.snapEnd p).ckpErr p c := by
  unfold State.snapComplete
  split
  next hn => exact absurd (hn.symm.trans h) (by simp)
  next k hk =>
    obtain rfl : k = j := Option.some.inj (hk.symm.trans h)
    rw [if_neg (by simp [hh]), hw]
    exact ite_not ..

theorem snapshotComplete_gives (hj : j < 2) (hh : s.halted = false) (h : (s.lake p).snap = some j) :
    Gives (.snapshotComplete p errs) s fun t =>
      (t.lake p).snap = none ∧ t.slotState p j = if (s.snapWrite p j errs).2.1 = 0 then 2 else 5 := by
  have hsnap : ((s.snapWrite p j errs).1.lake p).snap = some j := by rw [State.lake_snapWrite, h]
  rcases hw : s.snapWrite p j errs with ⟨s3, c, root⟩
  rw [hw] at hsnap
  refine ⟨_, rfl, ?_⟩
  rw [State.snapComplete_eq hh h hw]
  dsimp only
  split
  · rw [State.snap_startDrain, State.slotState_startDrain, State.slotState_snapLocal _ hj]
    exact ⟨State.snap_snapLocal _, rfl⟩
  · rw [State.lake_ckpErr, State.slotState_ckpErr _ hj, State.slotState_snapEnd hsnap]
    exact ⟨State.snap_snapEnd, rfl⟩

/-! ## Aborted work has drained (R467) -/

theorem SEQ_CSET_inj {m n : Nat} (h : Reg.SEQ_CSET p m = Reg.SEQ_CSET p n) : m = n := by
  unfold Reg.SEQ_CSET at h; omega

/-- R467: the completion sets return to 0. -/
def State.clearCsets (s : State) (p : Nat) : State :=
  (List.range 32).foldl (fun (s : State) n => s.fput (Reg.SEQ_CSET p n) Fld.SEQ_CSET_OUT 0) s

theorem State.cset_foldl_clear {n : Nat} (l : List Nat) (h : n ∈ l ∨ s.cset p n = 0) :
    (l.foldl (fun (s : State) n => s.fput (Reg.SEQ_CSET p n) Fld.SEQ_CSET_OUT 0) s).cset p n = 0 := by
  induction l generalizing s with
  | nil => exact h.resolve_left List.not_mem_nil
  | cons m l ih =>
    refine ih ?_
    by_cases hm : n = m
    · rw [hm]
      exact .inr (State.fget_fput _ _ _ _ (by decide))
    · refine h.imp (fun hl => (List.mem_cons.1 hl).resolve_left hm) fun h0 => ?_
      exact (State.cset_of_rd (State.rd_fput_ne _ _ _ fun e => hm (SEQ_CSET_inj e))).trans h0

theorem State.cset_clearCsets {n : Nat} (hn : n < 32) : (s.clearCsets p).cset p n = 0 :=
  State.cset_foldl_clear _ (.inl (List.mem_range.2 hn))

theorem State.rd_clearCsets (h : ∀ n, n < 32 → a ≠ Reg.SEQ_CSET p n) : (s.clearCsets p).rd a = s.rd a :=
  State.rd_foldl_of_mem fun _ n hn => State.rd_fput_ne _ _ _ (h n (List.mem_range.1 hn))

theorem State.lake_clearCsets (k : Nat) : (s.clearCsets p).lake k = s.lake k :=
  State.lake_of_kept (φ := allBut [.regs]) (kept_foldl (Kept.refl _ s) fun _ _ hx => State.fput_kept _ _ _ hx rfl) rfl k

/-- R467: where no port is bound to the partition, its frames hold up nothing. -/
theorem State.quiet_eq (ha : (s.lake p).aborting = true) (hd : s.drained p = true)
    (hb : ∀ n, n < 16 → s.flag (Reg.LL_BIND n p) Fld.LL_BIND_VALID = false) : s.quiet p =
    (((s.setLake p { s.lake p with aborting := false }).fput (Reg.CKP_STATUS p) Fld.CKP_STATUS_QUIET 1).clearCsets p).irqCkp p
      Fld.CKP_INT_STATUS_QUIET := by
  unfold State.quiet
  dsimp only
  refine if_neg ?_
  simp only [ha, hd, Bool.not_true, Bool.false_or, Bool.or_false, Bool.not_eq_true', Bool.not_eq_false, List.all_eq_true, List.mem_range]
  intro n hn
  rw [hb n hn]
  rfl

theorem quiet_gives (ha : (s.lake p).aborting = true) (hd : s.drained p = true)
    (hb : ∀ n, n < 16 → s.flag (Reg.LL_BIND n p) Fld.LL_BIND_VALID = false) : Gives (.quiet p) s fun t =>
      (t.lake p).aborting = false ∧ t.flag (Reg.CKP_STATUS p) Fld.CKP_STATUS_QUIET = true ∧ ∀ n, n < 32 → t.cset p n = 0 := by
  refine ⟨_, rfl, ?_⟩
  rw [State.quiet_eq ha hd hb]
  refine ⟨?_, ?_, fun n hn => ?_⟩
  · rw [State.lake_irqCkp, State.lake_clearCsets, State.lake_fput, State.lake_setLake]
  · rw [State.flag_of_rd (State.rd_irqCkp _ CKP_STATUS_ne_CKP_INT_STATUS),
      State.flag_of_rd (State.rd_clearCsets fun n hn => by unfold Reg.CKP_STATUS Reg.SEQ_CSET; omega), State.flag_fput_one rfl (by decide)]
  · rw [State.cset_of_rd (State.rd_irqCkp _ (by unfold Reg.SEQ_CSET Reg.CKP_INT_STATUS; omega)), State.cset_clearCsets hn]

/-! ## Restores (R472) -/

theorem State.restore_endRestore (code : Nat) : ((s.endRestore p code).lake p).restore = none := by
  unfold State.endRestore
  dsimp only
  split
  · rw [State.lake_irqCkp, State.lake_fput, State.lake_setLake]
  · rw [State.lake_ckpErr, State.lake_fput, State.lake_setLake]

/-- R472: a restore ends, whatever the copy of the image and the read of the records came to. -/
theorem restore_restoreFrom (x : Restore) (y : State × Nat) : ((restoreFrom p x errs y).lake p).restore = none := by
  unfold restoreFrom
  split
  · exact State.restore_endRestore _
  · unfold restoreLoad
    split
    · exact State.restore_endRestore _
    · exact State.restore_endRestore _

theorem State.flag_RESUME_ARMED_endRestore_zero :
    (s.endRestore p 0).flag (Reg.CKP_STATUS p) Fld.CKP_STATUS_RESUME_ARMED = s.flag (Reg.CKP_STATUS p) Fld.CKP_STATUS_RESUME_ARMED := by
  unfold State.endRestore
  dsimp only
  rw [if_pos rfl, State.flag_of_rd (State.rd_irqCkp _ CKP_STATUS_ne_CKP_INT_STATUS), State.flag_fput_field _ (by decide) (by decide)]
  rfl

theorem State.sq_endRestore (code k : Nat) : (s.endRestore p code).sq k = s.sq k :=
  State.sq_of_kept (φ := allBut [.regs, .lakes, .out]) (State.endRestore_kept _ _ (Kept.refl _ s) rfl rfl rfl) rfl k

/-- R472 step 5: records that were read arm the sequencer at the record's successor. -/
theorem restoreLoad_armed (x : Restore) (y : State × Nat × List Byte) (h : y.2.1 = 0) :
    (restoreLoad p x y).flag (Reg.CKP_STATUS p) Fld.CKP_STATUS_RESUME_ARMED = true ∧ ((restoreLoad p x y).sq p).rpc = x.rpc := by
  unfold restoreLoad
  rw [if_neg (not_not.2 h)]
  dsimp only
  constructor
  · rw [State.flag_RESUME_ARMED_endRestore_zero, State.flag_fput_one rfl (by decide)]
  · rw [State.sq_endRestore, State.sq_fput, State.sq_setSq]

/-- R472 step 4: where the image is in the bank, the records alone are read. -/
theorem restoreFrom_of_copied (x : Restore) : restoreFrom p x errs (s, 0) =
    restoreLoad p x (s.ckpRead errs p (s.lakeKid p x.slot) 0 (s.slotBase p x.slot + 256) 16640) := by
  unfold restoreFrom
  exact if_neg (not_not.2 rfl)

theorem restoreComplete_gives {x : Restore} (h : (s.lake p).restore = some x) (hs : s.stopped p = true) (hh : s.halted = false) :
    Gives (.restoreComplete p errs) s fun t => (t.lake p).restore = none ∧
      (x.copy = false → (s.ckpRead errs p (s.lakeKid p x.slot) 0 (s.slotBase p x.slot + 256) 16640).2.1 = 0 →
        t.flag (Reg.CKP_STATUS p) Fld.CKP_STATUS_RESUME_ARMED = true ∧ (t.sq p).rpc = x.rpc) := by
  have hrun : s.restoreComplete p errs = restoreFrom p x errs (if x.copy then s.restoreCopy p x errs else (s, 0)) := by
    unfold State.restoreComplete
    rw [h]
    exact if_neg (by simp [hs, hh])
  refine ⟨_, rfl, ?_⟩
  rw [hrun]
  refine ⟨restore_restoreFrom .., fun hc hread => ?_⟩
  rw [hc, if_neg Bool.false_ne_true, restoreFrom_of_copied]
  exact restoreLoad_armed x _ hread

/-! ## A write of `CKP_CTRL` (R465) -/

theorem fields_CKP_CTRL : ∀ p ∈ allParts, ∃ x, regDesc (Reg.CKP_CTRL p) = some x ∧
    ⟨Fld.CKP_CTRL_MODE, .rw, 0, [(0, 2)]⟩ ∈ x.1.fields ∧ ⟨Fld.CKP_CTRL_ACCEPT, .rw, 0, []⟩ ∈ x.1.fields := by
  have h : ∀ p ∈ allParts, ((regDesc (Reg.CKP_CTRL p)).any fun x => decide (⟨Fld.CKP_CTRL_MODE, .rw, 0, [(0, 2)]⟩ ∈ x.1.fields ∧
    ⟨Fld.CKP_CTRL_ACCEPT, .rw, 0, []⟩ ∈ x.1.fields)) = true := by decide +kernel
  intro p hp
  obtain ⟨x, hx, hf⟩ := (Option.any_eq_true ..).1 (h p hp)
  exact ⟨x, hx, of_decide_eq_true hf⟩

/-- A field of code RW that a write finds as it is stays so. -/
theorem State.fget_regWrite_of_get {d : RegDesc} {ix : List Nat} {f : FieldDesc} (v : Word) (hd : regDesc a = some (d, ix))
    (hf : f ∈ d.fields) (hrw : f.acc = .rw) (hv : f.fld.get v = s.fget a f.fld) : (s.regWrite a v).fget a f.fld = s.fget a f.fld := by
  refine (s.get_rd_regWrite v hd hf).trans ?_
  rw [hv, FieldDesc.written, hrw]
  exact ite_self _

theorem State.ckpMode_regWrite {v : Word} (hp : p ∈ allParts) (hv : Fld.CKP_CTRL_MODE.get v = s.ckpMode p) :
    (s.regWrite (Reg.CKP_CTRL p) v).ckpMode p = s.ckpMode p := by
  obtain ⟨⟨d, ix⟩, hd, hmode, -⟩ := fields_CKP_CTRL p hp
  exact State.fget_regWrite_of_get v hd hmode rfl hv

/-- A one-bit field in which 1 was put. -/
theorem Fld.get_put_one {f : Fld} (w : Word) (hw : f.width = 1) (h : f.lo + f.width ≤ 32) : f.get (f.put w 1) = 1 := by
  rw [Fld.get_put_same _ _ _ h, hw]
  rfl

/-- A one-bit field is its flag. -/
theorem State.fget_eq_b2n_flag {f : Fld} (hw : f.width = 1) : s.fget a f = b2n (s.flag a f) := by
  have hlt : s.fget a f < 2 ^ f.width := Fld.get_lt ..
  rw [hw] at hlt
  unfold State.flag
  interval_cases s.fget a f
  · rfl
  · rfl

theorem State.accepts_regWrite {v : Word} (hp : p ∈ allParts) (hv : Fld.CKP_CTRL_ACCEPT.get v = b2n (s.accepts p)) :
    (s.regWrite (Reg.CKP_CTRL p) v).accepts p = s.accepts p := by
  obtain ⟨⟨d, ix⟩, hd, -, hacc⟩ := fields_CKP_CTRL p hp
  exact congrArg (· == 1) (State.fget_regWrite_of_get v hd hacc rfl (hv.trans (State.fget_eq_b2n_flag rfl).symm))

/-- R457, R465: what a write of `CKP_CTRL` has written when its command bits take effect, with the drain that it starts. -/
def State.ckpCtrlWritten (s : State) (p : Nat) (v : Word) : State :=
  let w := s.regWrite (Reg.CKP_CTRL p) v
  if s.drainOn p || (s.lake p).broken then w else w.startDrain p

/-- R465: a write that leaves `MODE` and `ACCEPT` as they are is never dropped. -/
theorem State.ckpCtrlW_eq {v : Word} (hp : p ∈ allParts) (hm : Fld.CKP_CTRL_MODE.get v = s.ckpMode p)
    (ha : Fld.CKP_CTRL_ACCEPT.get v = b2n (s.accepts p)) : s.ckpCtrlW p v errs =
    let s2 := s.ckpCtrlWritten p v
    let s3 := if Fld.CKP_CTRL_ABORT.get v = 1 then s2.ckpAbort p else s2
    let s4 := if Fld.CKP_CTRL_RESTORE.get v = 1 then s3.ckpRestore p (Fld.CKP_CTRL_RESTORE_SLOT.get v) errs else s3
    if Fld.CKP_CTRL_PULL.get v = 1 then s4.ckpPull p (Fld.CKP_CTRL_PULL_SLOT.get v) else s4 := by
  have hmode := State.ckpMode_regWrite hp hm
  have hacc := State.accepts_regWrite hp ha
  unfold State.ckpCtrlW
  dsimp only
  refine if_neg ?_
  rw [hmode, hacc]
  cases h : s.ckpMode p == 0 <;> simp [h, bne]

theorem State.rd_ckpCtrlWritten {v : Word} (h : a ≠ Reg.CKP_CTRL p) (h' : a ≠ Reg.CKP_STATUS p) :
    (s.ckpCtrlWritten p v).rd a = s.rd a := by
  unfold State.ckpCtrlWritten
  dsimp only
  split
  · exact s.rd_regWrite_ne v h
  · exact (State.rd_startDrain h').trans (s.rd_regWrite_ne v h)

theorem State.lake_regWrite (v : Word) (k : Nat) : (s.regWrite a v).lake k = s.lake k :=
  State.lake_of_kept (State.regWrite_kept (φ := allBut [.regs, .out]) a v (Kept.refl _ s) rfl rfl) rfl k

theorem State.lake_ckpCtrlWritten (v : Word) : ∃ (d : Option Drain) (again broken : Bool),
    (s.ckpCtrlWritten p v).lake p = { s.lake p with drain := d, again := again, broken := broken } := by
  unfold State.ckpCtrlWritten
  dsimp only
  split
  · exact ⟨_, _, _, State.lake_regWrite ..⟩
  · obtain ⟨d, again, broken, h⟩ := (s.regWrite (Reg.CKP_CTRL p) v).lake_startDrain (p := p)
    exact ⟨d, again, broken, by rw [h, State.lake_regWrite]⟩

theorem State.halted_ckpCtrlWritten (v : Word) : (s.ckpCtrlWritten p v).halted = s.halted := by
  have hk : Kept (allBut [.regs, .out, .ports, .lakes]) s (s.ckpCtrlWritten p v) :=
    kept_ite (State.regWrite_kept _ _ (Kept.refl _ s) rfl rfl)
      (State.startDrain_kept _ (State.regWrite_kept _ _ (Kept.refl _ s) rfl rfl) rfl rfl rfl)
  exact (hk.halt rfl).1

theorem State.slotState_ckpCtrlWritten (v : Word) : (s.ckpCtrlWritten p v).slotState p j = s.slotState p j :=
  State.slotState_of_rd (State.rd_ckpCtrlWritten (by unfold Reg.CKP_SLOT_STAT Reg.CKP_CTRL; omega) CKP_SLOT_STAT_ne_CKP_STATUS)

theorem State.stopped_ckpCtrlWritten (v : Word) : (s.ckpCtrlWritten p v).stopped p = s.stopped p :=
  State.stopped_of_rd (State.rd_ckpCtrlWritten (by unfold Reg.SEQ_STATUS Reg.CKP_CTRL; omega)
    (by unfold Reg.SEQ_STATUS Reg.CKP_STATUS; omega))

theorem State.drainPort_ckpCtrlWritten (v : Word) : (s.ckpCtrlWritten p v).drainPort p = s.drainPort p :=
  State.fget_of_rd (State.rd_ckpCtrlWritten (by unfold Reg.CKP_DRAIN_CFG Reg.CKP_CTRL; omega) CKP_DRAIN_CFG_ne_CKP_STATUS)

/-- R447: whether the Lake fits rests on its base, the bank window and the memory's split. -/
theorem State.lakeOk_ckpCtrlWritten (v : Word) : (s.ckpCtrlWritten p v).lakeOk p = s.lakeOk p := by
  have hrd (b : Nat) (h : b ≠ Reg.CKP_CTRL p) (h' : b ≠ Reg.CKP_STATUS p) (f : Fld) :
      (s.ckpCtrlWritten p v).fget b f = s.fget b f := State.fget_of_rd (State.rd_ckpCtrlWritten h h')
  unfold State.lakeOk State.areaOk State.slotSize State.lakeBase State.bankBase State.imgSize State.localGib
  rw [hrd (Reg.CKP_LAKE_BASE p) (by unfold Reg.CKP_LAKE_BASE Reg.CKP_CTRL; omega) (by unfold Reg.CKP_LAKE_BASE Reg.CKP_STATUS; omega),
    hrd (Reg.UPD_BANK_BASE p) (by unfold Reg.UPD_BANK_BASE Reg.CKP_CTRL; omega) (by unfold Reg.UPD_BANK_BASE Reg.CKP_STATUS; omega),
    hrd (Reg.UPD_BANK_SIZE p) (by unfold Reg.UPD_BANK_SIZE Reg.CKP_CTRL; omega) (by unfold Reg.UPD_BANK_SIZE Reg.CKP_STATUS; omega),
    hrd (Reg.MEM_PSPLIT p) (by unfold Reg.MEM_PSPLIT Reg.CKP_CTRL vf; omega) (by unfold Reg.MEM_PSPLIT Reg.CKP_STATUS vf; omega)]

/-! ### ABORT (R466) -/

theorem State.rd_freezePart (h : a ≠ Reg.TDBG_SEPIA_STAT p) : (s.freezePart p).rd a = s.rd a := by
  unfold State.freezePart
  split
  · rfl
  · exact State.rd_fput_ne _ _ _ h

theorem State.lake_freezePart (k : Nat) : (s.freezePart p).lake k = s.lake k :=
  State.lake_of_kept (φ := allBut [.regs, .frozen]) (State.freezePart_kept p (Kept.refl _ s) rfl rfl) rfl k

/-- R466, R467: an abort is shown, and its work has not drained. -/
def State.abortShown (s : State) (p : Nat) : State :=
  let s1 := (s.setLake p { s.lake p with aborting := true }).wr (Reg.CKP_STATUS p)
    (Fld.CKP_STATUS_QUIET.put (Fld.CKP_STATUS_ABORTED.put (s.rd (Reg.CKP_STATUS p)) 1) 0)
  if s1.flag (Reg.TDBG_SEPIA_CTRL p) Fld.TDBG_SEPIA_CTRL_FREEZE_ON_FAULT then s1.freezePart p else s1

theorem State.seqState_abortShown : (s.abortShown p).seqState p = s.seqState p := by
  have hput : Reg.SEQ_STATUS p ≠ Reg.CKP_STATUS p := by unfold Reg.SEQ_STATUS Reg.CKP_STATUS; omega
  refine State.seqState_of_rd ?_
  unfold State.abortShown
  dsimp only
  split
  · rw [State.rd_freezePart (by unfold Reg.SEQ_STATUS Reg.TDBG_SEPIA_STAT; omega), State.rd_wr_ne _ _ hput, State.rd_setLake]
  · rw [State.rd_wr_ne _ _ hput, State.rd_setLake]

theorem State.ABORTED_abortShown : (s.abortShown p).flag (Reg.CKP_STATUS p) Fld.CKP_STATUS_ABORTED = true := by
  have hput (x : State) (w : Word) : (x.wr (Reg.CKP_STATUS p) (Fld.CKP_STATUS_QUIET.put (Fld.CKP_STATUS_ABORTED.put w 1) 0)).flag
      (Reg.CKP_STATUS p) Fld.CKP_STATUS_ABORTED = true := by
    rw [State.flag, State.fget, State.rd_wr, Fld.get_put_ne _ _ _ _ (by decide) (by decide), Fld.get_put_one _ rfl (by decide)]
    rfl
  unfold State.abortShown
  dsimp only
  split
  · rw [State.flag_of_rd (State.rd_freezePart (by unfold Reg.CKP_STATUS Reg.TDBG_SEPIA_STAT; omega)), hput]
  · exact hput ..

theorem State.aborting_abortShown : ((s.abortShown p).lake p).aborting = true := by
  unfold State.abortShown
  dsimp only
  split
  · rw [State.lake_freezePart, State.lake_wr, State.lake_setLake]
  · rw [State.lake_wr, State.lake_setLake]

/-- R466: an abort ends with the sequencer STOPPED. -/
theorem State.ckpAbort_eq : ∃ u : State, s.ckpAbort p = (u.enterStopped p).abortShown p := by
  unfold State.ckpAbort
  extract_lets s0 q s1 s2 s3 s4 s5 s6 st src s7
  have h6 : s6 = s5.enterStopped p := rfl
  -- the kernel is not to compute the state that the abort is shown in
  clear_value s6
  refine ⟨s5, ?_⟩
  rw [← h6]
  rfl

theorem ckpAbort_gives {v : Word} (hp : p ∈ allParts) (hg : s.grants r (Reg.CKP_CTRL p) = true)
    (hm : Fld.CKP_CTRL_MODE.get v = s.ckpMode p) (ha : Fld.CKP_CTRL_ACCEPT.get v = b2n (s.accepts p))
    (hr : Fld.CKP_CTRL_RESTORE.get v = 0) (hl : Fld.CKP_CTRL_PULL.get v = 0) : Gives (.ckpAbort r p v) s fun t =>
      t.seqState p = seqStopped ∧ t.flag (Reg.CKP_STATUS p) Fld.CKP_STATUS_ABORTED = true ∧ (t.lake p).aborting = true := by
  have hput (f : Fld) (h : f.lo + f.width ≤ 4 ∨ 5 ≤ f.lo) : f.get (Fld.CKP_CTRL_ABORT.put v 1) = f.get v :=
    Fld.get_put_ne _ _ _ _ (by decide) h
  have hrun : s.ckpCtrlW p (Fld.CKP_CTRL_ABORT.put v 1) [] = (s.ckpCtrlWritten p (Fld.CKP_CTRL_ABORT.put v 1)).ckpAbort p := by
    rw [State.ckpCtrlW_eq hp ((hput _ (by decide)).trans hm) ((hput _ (by decide)).trans ha)]
    dsimp only
    rw [if_pos (Fld.get_put_one v rfl (by decide)), hput Fld.CKP_CTRL_RESTORE (by decide), hput Fld.CKP_CTRL_PULL (by decide), hr, hl,
      if_neg Nat.zero_ne_one, if_neg Nat.zero_ne_one]
  refine ⟨_, rfl, ?_⟩
  rw [State.write_of_grants _ hg, hrun]
  obtain ⟨u, hu⟩ := (s.ckpCtrlWritten p (Fld.CKP_CTRL_ABORT.put v 1)).ckpAbort_eq (p := p)
  rw [hu]
  exact ⟨State.seqState_abortShown.trans (State.seqState_enterStopped hp), State.ABORTED_abortShown, State.aborting_abortShown⟩

/-! ### RESTORE (R472) -/

/-- R472 steps 1 to 3: a slot that passes the checks is being restored; another is refused with the code of R482. -/
theorem State.ckpRestore_of_stopped {k : Nat} (hs : s.stopped p = true) (hn : (s.lake p).restore = none) (hh : s.halted = false) :
    let y := s.restoreCheck p k errs
    if y.2.1 = 0 then (s.ckpRestore p k errs).flag (Reg.CKP_STATUS p) Fld.CKP_STATUS_RESTORE_BUSY = true ∧
      ∃ x : Restore, ((s.ckpRestore p k errs).lake p).restore = some x ∧ x.slot = k ∧ x.rpc = leAt y.2.2 64 4
    else s.ckpRestore p k errs = y.1.ckpErr p y.2.1 := by
  have hrun : ∃ x : Restore, x.slot = k ∧ x.rpc = leAt (s.restoreCheck p k errs).2.2 64 4 ∧ s.ckpRestore p k errs =
      if (s.restoreCheck p k errs).2.1 ≠ 0 then (s.restoreCheck p k errs).1.ckpErr p (s.restoreCheck p k errs).2.1
      else ((s.restoreCheck p k errs).1.setLake p { (s.restoreCheck p k errs).1.lake p with restore := some x }).fput
        (Reg.CKP_STATUS p) Fld.CKP_STATUS_RESTORE_BUSY 1 := by
    unfold State.ckpRestore
    rw [if_neg (by simp [hs, hn, hh])]
    generalize s.restoreCheck p k errs = y
    obtain ⟨s1, c, m⟩ := y
    exact ⟨_, rfl, rfl, rfl⟩
  obtain ⟨x, hslot, hrpc, hrun⟩ := hrun
  dsimp only
  rw [hrun]
  by_cases hc : (s.restoreCheck p k errs).2.1 = 0
  · rw [if_pos hc, if_neg (not_not.2 hc)]
    exact ⟨State.flag_fput_one rfl (by decide), x, by rw [State.lake_fput, State.lake_setLake], hslot, hrpc⟩
  · rw [if_neg hc, if_pos hc]

theorem ckpRestore_gives {v : Word} (hp : p ∈ allParts) (hg : s.grants r (Reg.CKP_CTRL p) = true)
    (hm : Fld.CKP_CTRL_MODE.get v = s.ckpMode p) (hacc : Fld.CKP_CTRL_ACCEPT.get v = b2n (s.accepts p))
    (ha : Fld.CKP_CTRL_ABORT.get v = 0) (hl : Fld.CKP_CTRL_PULL.get v = 0) (hs : s.stopped p = true) (hh : s.halted = false)
    (hn : (s.lake p).restore = none) : Gives (.ckpRestore r p v errs) s fun t =>
      let y := (s.ckpCtrlWritten p (Fld.CKP_CTRL_RESTORE.put v 1)).restoreCheck p (Fld.CKP_CTRL_RESTORE_SLOT.get v) errs
      if y.2.1 = 0 then t.flag (Reg.CKP_STATUS p) Fld.CKP_STATUS_RESTORE_BUSY = true ∧
        ∃ x : Restore, (t.lake p).restore = some x ∧ x.slot = Fld.CKP_CTRL_RESTORE_SLOT.get v ∧ x.rpc = leAt y.2.2 64 4
      else t = y.1.ckpErr p y.2.1 := by
  have hput (f : Fld) (h : f.lo + f.width ≤ 5 ∨ 6 ≤ f.lo) : f.get (Fld.CKP_CTRL_RESTORE.put v 1) = f.get v :=
    Fld.get_put_ne _ _ _ _ (by decide) h
  have hrun : s.ckpCtrlW p (Fld.CKP_CTRL_RESTORE.put v 1) errs =
      (s.ckpCtrlWritten p (Fld.CKP_CTRL_RESTORE.put v 1)).ckpRestore p (Fld.CKP_CTRL_RESTORE_SLOT.get v) errs := by
    rw [State.ckpCtrlW_eq hp ((hput _ (by decide)).trans hm) ((hput _ (by decide)).trans hacc)]
    dsimp only
    rw [if_pos (Fld.get_put_one v rfl (by decide)), hput Fld.CKP_CTRL_ABORT (by decide), hput Fld.CKP_CTRL_PULL (by decide),
      hput Fld.CKP_CTRL_RESTORE_SLOT (by decide), ha, hl, if_neg Nat.zero_ne_one, if_neg Nat.zero_ne_one]
  obtain ⟨d, again, broken, hlake⟩ := s.lake_ckpCtrlWritten (p := p) (Fld.CKP_CTRL_RESTORE.put v 1)
  refine ⟨_, rfl, ?_⟩
  rw [State.write_of_grants _ hg, hrun]
  exact State.ckpRestore_of_stopped ((State.stopped_ckpCtrlWritten _).trans hs) ((congrArg Lake.restore hlake).trans hn)
    ((State.halted_ckpCtrlWritten _).trans hh)

/-! ### PULL (R471) -/

theorem ckpPull_gives {v : Word} (hp : p ∈ allParts) (hg : s.grants r (Reg.CKP_CTRL p) = true)
    (hm : Fld.CKP_CTRL_MODE.get v = s.ckpMode p) (hacc : Fld.CKP_CTRL_ACCEPT.get v = b2n (s.accepts p))
    (ha : Fld.CKP_CTRL_ABORT.get v = 0) (hr : Fld.CKP_CTRL_RESTORE.get v = 0) (hn : (s.lake p).pull = none)
    (hw : s.slotState p (Fld.CKP_CTRL_PULL_SLOT.get v) ≠ 1) (hok : s.lakeOk p = true) : Gives (.ckpPull r p v) s fun t =>
      (t.lake p).pull = some (s.drainPort p, Fld.CKP_CTRL_PULL_SLOT.get v) ∧
        t.flag (Reg.CKP_STATUS p) Fld.CKP_STATUS_PULL_BUSY = true := by
  have hput (f : Fld) (h : f.lo + f.width ≤ 7 ∨ 8 ≤ f.lo) : f.get (Fld.CKP_CTRL_PULL.put v 1) = f.get v :=
    Fld.get_put_ne _ _ _ _ (by decide) h
  have hrun : s.ckpCtrlW p (Fld.CKP_CTRL_PULL.put v 1) [] =
      (s.ckpCtrlWritten p (Fld.CKP_CTRL_PULL.put v 1)).ckpPull p (Fld.CKP_CTRL_PULL_SLOT.get v) := by
    rw [State.ckpCtrlW_eq hp ((hput _ (by decide)).trans hm) ((hput _ (by decide)).trans hacc)]
    dsimp only
    rw [if_pos (Fld.get_put_one v rfl (by decide)), hput Fld.CKP_CTRL_ABORT (by decide), hput Fld.CKP_CTRL_RESTORE (by decide),
      hput Fld.CKP_CTRL_PULL_SLOT (by decide), ha, hr, if_neg Nat.zero_ne_one, if_neg Nat.zero_ne_one]
  obtain ⟨d, again, broken, hlake⟩ := s.lake_ckpCtrlWritten (p := p) (Fld.CKP_CTRL_PULL.put v 1)
  have hfree : ((s.ckpCtrlWritten p (Fld.CKP_CTRL_PULL.put v 1)).lake p).pull = none := (congrArg Lake.pull hlake).trans hn
  refine ⟨_, rfl, ?_⟩
  rw [State.write_of_grants _ hg, hrun, State.ckpPull, hfree, if_neg (by decide),
    if_neg (by simp [State.slotState_ckpCtrlWritten, State.lakeOk_ckpCtrlWritten, hw, hok])]
  dsimp only
  rw [State.lake_sendBulk, State.lake_fput, State.lake_setLake, State.drainPort_ckpCtrlWritten]
  exact ⟨rfl, (State.flag_of_rd (State.rd_sendBulk ..)).trans (State.flag_fput_one rfl (by decide))⟩

/-! ## Writes of the unit's other registers (R447, R464, R465) -/

theorem ckpHostack_gives {v : Word} (hg : s.grants r (Reg.CKP_HOSTACK p) = true) (hm : s.ckpMode p = 2)
    (hj : ((List.range 2).find? fun j => s.slotState p j == 2 && s.rn (Reg.CKP_SLOT_SEQ p j) == v.toNat) = some j) :
    Gives (.ckpHostack r p v) s fun t => t.slotState p j = 3 := by
  have hrun : s.hostAck p v = (s.setSlot p j 3).irqCkp p Fld.CKP_INT_STATUS_VERIFIED := by
    unfold State.hostAck
    rw [if_neg (not_not.2 hm), hj]
  refine ⟨_, rfl, ?_⟩
  rw [State.write_of_grants _ hg, hrun]
  exact (State.slotState_irqCkp _ (List.mem_range.1 (List.mem_of_find?_eq_some hj))).trans (State.slotState_setSlot j (by decide))

/-- R447, R465: a base or a size whose area fits is taken while the unit is idle. -/
theorem State.ckpConfigW_of_fits {off : Nat} {v : Word} (hoff : off ∈ [0x10, 0x18, 0x1C]) (hi : s.ckpIdle p = true)
    (hok : (if off = 0x10 then (s.regWrite (vf p + 0x300000 + off) v).lakeOk p
      else (s.regWrite (vf p + 0x300000 + off) v).buddyOk p) = true) :
    s.ckpConfigW p off v errs = s.regWrite (vf p + 0x300000 + off) v := by
  have htake {b : Bool} (x y : State) (h : b = true) : (if (s.ckpIdle p && b) = true then x else y) = x := if_pos (by rw [hi, h]; rfl)
  simp only [List.mem_cons, List.not_mem_nil, or_false] at hoff
  obtain rfl | rfl | rfl := hoff
  · exact htake _ _ hok
  · exact htake _ _ hok
  · exact htake _ _ hok

theorem ckpConfigWrite_gives {off : Nat} {v : Word} (hg : s.grants r (vf p + 0x300000 + off) = true) (hoff : off ∈ [0x10, 0x18, 0x1C])
    (hi : s.ckpIdle p = true) (hok : (if off = 0x10 then (s.regWrite (vf p + 0x300000 + off) v).lakeOk p
      else (s.regWrite (vf p + 0x300000 + off) v).buddyOk p) = true) :
    Gives (.ckpConfigWrite r p off v) s fun t => t = s.regWrite (vf p + 0x300000 + off) v :=
  ⟨_, rfl, (State.write_of_grants _ hg).trans (State.ckpConfigW_of_fits hoff hi hok)⟩

end

/-- Settles O51, row by row. A snapshot that fails leaves its slot INVALID (5), and a write of `CKP_CTRL` that turns `DRAIN_EN` on starts
a drain before its command bits take effect, as log entry 22 says. -/
theorem checkpointRowsComplete : Obligations.CheckpointRowsComplete :=
  ⟨fun _ _ hn hdue => snapshotTimer_gives hn hdue, fun _ _ _ _ _ hj hh h => snapshotComplete_gives hj hh h,
    fun _ _ _ ha hd hb => quiet_gives ha hd hb, fun _ _ _ _ _ h hs hh => restoreComplete_gives h hs hh,
    fun _ _ _ _ _ hp hg hm hacc => ⟨fun hr hl => ckpAbort_gives hp hg hm hacc hr hl,
      fun ha hl hs hh hn => ckpRestore_gives hp hg hm hacc ha hl hs hh hn,
      fun ha hr hn hw hok => ckpPull_gives hp hg hm hacc ha hr hn hw hok⟩,
    fun _ _ _ _ _ _ hg hm hj => ckpHostack_gives hg hm hj,
    fun _ _ _ _ _ hg hoff hi => fun hok => ckpConfigWrite_gives hg hoff hi hok⟩

end Sys2Proof.Machine

/-! The keeper's commands on Mordant and Lake keys: what a command that the keeper serves shows in its mailbox and leaves of slots and of
the keeper's memory, and the statement settled with them (spec, chapters 10, 11 and 13). -/

namespace Sys2Proof.Machine

section
variable {s : State} {c : MailCmd} {a n : Nat}

/-! ## A command ends (R517) -/

/-- What `x_STATUS` holds of a command that has ended, but for `DONE`. -/
def endedStatus (w : Word) (c : MailCmd) (status n : Nat) : Word :=
  Fld.KEY_STATUS_RLEN.put (Fld.KEY_STATUS_TAG.put (Fld.KEY_STATUS_CODE.put (Fld.KEY_STATUS_BUSY.put w 0) status) c.tag) n

theorem get_CODE_endedStatus (w : Word) (status n : Nat) :
    Fld.KEY_STATUS_CODE.get (endedStatus w c status n) = status % 256 := by
  unfold endedStatus
  rw [Fld.get_put_ne _ _ _ _ (by decide) (by decide), Fld.get_put_ne _ _ _ _ (by decide) (by decide), Fld.get_put_same _ _ _ (by decide)]
  rfl

theorem get_BUSY_endedStatus (w : Word) (status n : Nat) : Fld.KEY_STATUS_BUSY.get (endedStatus w c status n) = 0 := by
  unfold endedStatus
  rw [Fld.get_put_ne _ _ _ _ (by decide) (by decide), Fld.get_put_ne _ _ _ _ (by decide) (by decide),
    Fld.get_put_ne _ _ _ _ (by decide) (by decide), Fld.get_put_same _ _ _ (by decide), Nat.zero_mod]

theorem get_TAG_endedStatus (w : Word) (status n : Nat) : Fld.KEY_STATUS_TAG.get (endedStatus w c status n) = c.tag % 256 := by
  unfold endedStatus
  rw [Fld.get_put_ne _ _ _ _ (by decide) (by decide), Fld.get_put_same _ _ _ (by decide)]
  rfl

/-- R525: an event of a mailbox sets its bit, whether or not it raises the interrupt. -/
theorem State.rd_boxEvent (b bit : Nat) : (s.boxEvent b bit).rd a = (s.setBits (boxStatus b) (2 ^ bit)).rd a := by
  unfold State.boxEvent
  dsimp only
  split
  · exact State.rd_emit ..
  · rfl

theorem State.mailDone_shows {status : Nat} (res : List Byte) (h : status < 256) : (s.mailDone c status res).mailShows c status := by
  obtain ⟨x, w, k, hx⟩ : ∃ (x : State) (w : Word) (k : Nat), s.mailDone c status res =
    (x.wr (boxStatus c.box) (endedStatus w c status k)).boxEvent c.box 1 := ⟨_, _, _, rfl⟩
  have hget {f : Fld} (hf : Fld.KEY_STATUS_DONE.lo < f.lo ∨ f.lo + f.width ≤ Fld.KEY_STATUS_DONE.lo) :
      (s.mailDone c status res).fget (boxStatus c.box) f = f.get (endedStatus w c status k) := by
    rw [hx, State.fget_of_rd (State.rd_boxEvent ..)]
    refine (State.fget_setBits_apart _ _ Fld.KEY_STATUS_DONE hf).trans ?_
    rw [State.fget, State.rd_wr]
  refine ⟨?_, ?_, ?_, ?_⟩
  · rw [hget (by decide), get_CODE_endedStatus, Nat.mod_eq_of_lt h]
  · rw [State.flag, hget (by decide), get_BUSY_endedStatus]
    rfl
  · rw [hx, State.flag_of_rd (State.rd_boxEvent ..)]
    exact State.flag_setBits_mask Fld.KEY_STATUS_DONE rfl (by decide)
  · rw [hget (by decide), get_TAG_endedStatus]

theorem State.mailDone_keeps (status : Nat) (res : List Byte) : Kept (allBut [.regs, .out]) s (s.mailDone c status res) :=
  State.mailDone_kept c status res (Kept.refl _ s) rfl rfl

theorem State.keeper_mailDone (status : Nat) (res : List Byte) : (s.mailDone c status res).keeper = s.keeper :=
  (State.mailDone_keeps status res).keeper rfl
theorem State.key_mailDone (status : Nat) (res : List Byte) (k : Nat) : (s.mailDone c status res).key k = s.key k :=
  State.key_of_kept (State.mailDone_keeps status res) rfl k

/-! ## A command is served (R518, R824) -/

/-- What the command of a mailbox answers, it shows; its effect stands. -/
theorem State.serve_of_due {code status : Nat} {t : State} {res : List Byte} {f : State → MailCmd → State × Nat × List Byte}
    (h : s.mailDue code c = true) (hf : f (s.taken c) c = (t, status, res)) : s.serve code f = t.mailDone c status res := by
  simp only [State.mailDue, Bool.and_eq_true, Bool.or_eq_true, beq_iff_eq] at h
  obtain ⟨⟨⟨hnext, hcode⟩, hstage⟩, hcheck⟩ := h
  have hgo : ¬ (c.code ≠ code ∨ (s.bootStage ≠ 3 ∧ s.bootStage ≠ 4)) := by omega
  have hok : ¬ (s.taken c).mailCheck c ≠ 0 := not_not.2 hcheck
  unfold State.serve
  rw [hnext]
  refine (if_neg hgo).trans ((if_neg hok).trans ?_)
  show (match f (s.taken c) c with | (t, status, res) => t.mailDone c status res) = _
  rw [hf]

/-- A row of the keeper that is due ends with the answer of its command, and with the slots and the memory that the command leaves. -/
theorem gives_of_serve {i : Instr} {code : Nat} {P : State → Prop} {f : State → MailCmd → State × Nat × List Byte} (status : Nat)
    (hi : exec i s = .next (s.serve code f)) (h : s.mailDue code c = true) (hs : status < 256)
    (hf : ∃ t res, f (s.taken c) c = (t, status, res) ∧
      ∀ u : State, u.mailShows c status → u.keeper = t.keeper → (∀ k, u.key k = t.key k) → P u) : Gives i s P := by
  obtain ⟨t, res, hrun, hP⟩ := hf
  exact ⟨_, hi.trans (congrArg _ (State.serve_of_due h hrun)),
    hP _ (State.mailDone_shows res hs) (State.keeper_mailDone ..) (State.key_mailDone status res)⟩

/-! ## Slots and the keeper's memory (R494, R520) -/

theorem State.key_loadSlot (key : List Byte) (attr owner soft hard : Nat) (model : Bool) (suffix : List Byte) :
    ((s.loadSlot n key attr owner soft hard model suffix).key n).attr = attr ∧
      ((s.loadSlot n key attr owner soft hard model suffix).key n).state = 1 ∧
      ((s.loadSlot n key attr owner soft hard model suffix).key n).model = model ∧
      ((s.loadSlot n key attr owner soft hard model suffix).key n).key = key := by
  unfold State.loadSlot
  dsimp only
  rw [State.key_setKey]
  exact ⟨rfl, rfl, rfl, rfl⟩

theorem State.key_loadSlot_ne {k : Nat} (key : List Byte) (attr owner soft hard : Nat) (model : Bool) (suffix : List Byte) (h : k ≠ n) :
    (s.loadSlot n key attr owner soft hard model suffix).key k = s.key k := State.key_setKey_ne _ _ h

/-- R488: both slots of a pair hold the key. -/
theorem State.key_loadPair (kid : Nat) (key : List Byte) (owner soft hard : Nat) {i : Nat} (hi : i < 2) :
    ((s.loadPair kid key owner soft hard).key (2 * kid + i)).state = 1 ∧
      ((s.loadPair kid key owner soft hard).key (2 * kid + i)).key = key := by
  unfold State.loadPair
  obtain rfl | rfl : i = 0 ∨ i = 1 := by omega
  · obtain ⟨-, hstate, -, hkey⟩ := s.key_loadSlot (n := 2 * kid + 0) key 0 owner soft hard false []
    rw [State.key_loadSlot_ne _ _ _ _ _ _ _ (by omega)]
    exact ⟨hstate, hkey⟩
  · obtain ⟨-, hstate, -, hkey⟩ := (s.loadSlot (2 * kid) key 0 owner soft hard false []).key_loadSlot (n := 2 * kid + 1) key 1 owner soft
      hard false []
    exact ⟨hstate, hkey⟩

theorem State.keeper_useKey : (s.useKey n).1.keeper = s.keeper :=
  (State.useKey_kept (φ := allBut [.keys, .regs, .out]) n (Kept.refl _ s) rfl rfl rfl).keeper rfl
theorem State.keeper_setJoint (p v : Nat) : (s.setJoint p v).keeper = s.keeper :=
  (State.setJoint_kept (φ := allBut [.regs]) p v (Kept.refl _ s) rfl).keeper rfl

theorem State.shares_setMordant (m : Mordant) : (s.setMordant m).keeper.shares = s.keeper.shares := (rfl)

/-- R582: the model key of these partitions' exchanges has been derived. -/
def State.derivedBy (s : State) (l : List Nat) (kcv : List Byte) : State :=
  l.foldl (fun (s : State) p => s.setMordant { s.mordantOf p with derived := true, kcv := kcv }) s

theorem State.shares_derivedBy (l : List Nat) (kcv : List Byte) : (s.derivedBy l kcv).keeper.shares = s.keeper.shares := by
  unfold State.derivedBy
  induction l generalizing s with
  | nil => rfl
  | cons p l ih => rw [List.foldl_cons, ih, State.shares_setMordant]

theorem State.key_derivedBy (l : List Nat) (kcv : List Byte) (k : Nat) : (s.derivedBy l kcv).key k = s.key k :=
  State.key_of_kept (φ := allBut [.keeper]) (kept_foldl (Kept.refl _ s) fun _ _ h => State.setMordant_kept _ h rfl) rfl k

/-! ## Mordant shares and model keys (R520, R578) -/

/-- A share is held, and the report of its contributor goes on. -/
def State.shareAdded (s : State) (x : Share) (m : Mordant) : State :=
  { s with keeper := { s.keeper with shares := s.keeper.shares ++ [x] } }.setMordant m

/-- R580: more than one share makes the contributor a joint partition. -/
def State.shareTaken (s : State) (x : Share) (m : Mordant) : State :=
  if 2 ≤ x.count then (s.shareAdded x m).setJoint x.part 1 else s.shareAdded x m

theorem State.shares_shareTaken (x : Share) (m : Mordant) : (s.shareTaken x m).keeper.shares = s.keeper.shares ++ [x] := by
  have hadd : (s.shareAdded x m).keeper.shares = s.keeper.shares ++ [x] := State.shares_setMordant m
  unfold State.shareTaken
  split
  · rw [State.keeper_setJoint, hadd]
  · exact hadd

theorem mordantShare_gives (h : s.mailDue 0x21 c = true) (hsrc : s.sourceBad c.part (c.arg 0) 2 = 0) (hcert : (s.key (c.arg 0)).cert ≠ [])
    (hfit : s.shareFits c.part (c.arg 1) (c.arg 2) (sliceB c.args 48 32) = true)
    (hgcm : 2 ≤ c.arg 2 → generalSlots.any (fun j => (s.key j).state == 1 && (s.key j).attr == 0 && (s.key j).owned c.part) = false) :
    Gives .mordantShare s fun t => match Crypto.kwUnwrap (s.key (c.arg 0)).key (sliceB c.args 8 40) with
      | some key => t.mailShows c 0 ∧ t.keeper.shares = s.keeper.shares ++ [⟨sliceB c.args 48 32, c.arg 1, c.arg 2, c.part, key⟩]
      | none => t.mailShows c 8 := by
  have hsrc' : ¬ (s.taken c).sourceBad c.part (c.arg 0) 2 ≠ 0 := not_not.2 hsrc
  have hfit' : ¬ (((s.taken c).key (c.arg 0)).cert = [] ∨
      (!(s.taken c).shareFits c.part (c.arg 1) (c.arg 2) (sliceB c.args 48 32)) = true) := by
    rw [not_or, Bool.not_eq_true', Bool.not_eq_false]
    exact ⟨hcert, hfit⟩
  have hgcm' : ¬ (2 ≤ c.arg 2 ∧ generalSlots.any (fun j => ((s.taken c).key j).state == 1 && ((s.taken c).key j).attr == 0 &&
      ((s.taken c).key j).owned c.part) = true) := fun e => absurd ((hgcm e.1).symm.trans e.2) Bool.false_ne_true
  cases hkey : Crypto.kwUnwrap (s.key (c.arg 0)).key (sliceB c.args 8 40) with
  | none =>
    have hkey' : Crypto.kwUnwrap ((s.taken c).key (c.arg 0)).key (sliceB c.args 8 40) = none := hkey
    refine gives_of_serve 8 rfl h (by decide) ⟨((s.taken c).useKey (c.arg 0)).1, [],
      (if_neg hsrc').trans ((if_neg hfit').trans ((if_neg hgcm').trans ?_)), fun _ hshow _ _ => hshow⟩
    rw [hkey']
    rfl
  | some key =>
    have hkey' : Crypto.kwUnwrap ((s.taken c).key (c.arg 0)).key (sliceB c.args 8 40) = some key := hkey
    refine gives_of_serve 0 rfl h (by decide) ⟨((s.taken c).useKey (c.arg 0)).1.shareTaken
      ⟨sliceB c.args 48 32, c.arg 1, c.arg 2, c.part, key⟩ ?_, ?_,
      (if_neg hsrc').trans ((if_neg hfit').trans ((if_neg hgcm').trans ?_)), fun u hshow hkeeper _ => ⟨hshow, ?_⟩⟩
    rotate_left 2
    · rw [hkey']
      rfl
    · rw [hkeeper, State.shares_shareTaken, State.keeper_useKey]
      rfl

/-- R520: the contributors of the shares held. -/
def contributors (held : List Share) : List Nat := allParts.filter fun p => held.any fun (x : Share) => x.part == p

/-- R520: a model key is loaded, and the job's shares leave the keeper. -/
def State.modelLoaded (s : State) (n : Nat) (job key : List Byte) (owner : Nat) : State :=
  let s1 := s.loadSlot n key 3 owner 0 0 true []
  { s1 with keeper := { s1.keeper with shares := s1.keeper.shares.filter fun (x : Share) => x.job != job } }

theorem State.key_modelLoaded (job key : List Byte) (owner : Nat) : ((s.modelLoaded n job key owner).key n).attr = 3 ∧
    ((s.modelLoaded n job key owner).key n).state = 1 ∧ ((s.modelLoaded n job key owner).key n).model = true := by
  have hkey : (s.modelLoaded n job key owner).key n = (s.loadSlot n key 3 owner 0 0 true []).key n := rfl
  obtain ⟨hattr, hstate, hmodel, -⟩ := s.key_loadSlot (n := n) key 3 owner 0 0 true []
  rw [hkey]
  exact ⟨hattr, hstate, hmodel⟩

theorem State.shares_modelLoaded (job key : List Byte) (owner : Nat) :
    (s.modelLoaded n job key owner).keeper.shares = s.keeper.shares.filter fun (x : Share) => x.job != job := rfl

theorem mordantDerive_gives {x : Share} (hdst : s.destSlot c.part (c.arg 0) false = .ok n)
    (hx : (s.keeper.shares.filter fun (x : Share) => x.job == sliceB c.args 48 32).head? = some x) (h0 : x.count ≠ 0)
    (hall : x.count ≤ (s.keeper.shares.filter fun (x : Share) => x.job == sliceB c.args 48 32).length) (hp : c.part ∈ allParts)
    (hmine : ((s.keeper.shares.filter fun (x : Share) => x.job == sliceB c.args 48 32).any fun (y : Share) => y.part == c.part) = true)
    (hquota : (allParts.all fun p => !(s.keeper.shares.filter fun (x : Share) => x.job == sliceB c.args 48 32).any
      (fun (y : Share) => y.part == p) || s.quotaLeft p != 0) = true) (hload : s.canLoad n = true) (h : s.mailDue 0x22 c = true) :
    Gives .mordantDerive s fun t => t.mailShows c 0 ∧ (t.key n).attr = 3 ∧ (t.key n).state = 1 ∧ (t.key n).model = true ∧
      t.keeper.shares = s.keeper.shares.filter fun (x : Share) => x.job != sliceB c.args 48 32 := by
  have hdst' : (s.taken c).destSlot c.part (c.arg 0) false = .ok n := hdst
  have hheld : (s.taken c).keeper.shares = s.keeper.shares := rfl
  generalize hjob : sliceB c.args 48 32 = job at *
  obtain ⟨rest, hcons⟩ : ∃ rest, (s.keeper.shares.filter fun (x : Share) => x.job == job) = x :: rest := List.head?_eq_some_iff.1 hx
  have hfit : ¬ (x.count = 0 ∨ (x :: rest).length < x.count ∨ (!(contributors (x :: rest)).contains c.part) = true) := by
    rw [hcons] at hall hmine
    have hin : c.part ∈ contributors (x :: rest) := List.mem_filter.2 ⟨hp, hmine⟩
    simpa [h0] using And.intro hall hin
  have hroom : ¬ ((contributors (x :: rest)).any fun p => (s.taken c).quotaLeft p == 0) = true := by
    rw [hcons] at hquota
    rw [List.any_eq_true]
    rintro ⟨q, hq, hz⟩
    obtain ⟨hq, hmem⟩ := List.mem_filter.1 hq
    have hleft := List.all_eq_true.1 hquota q hq
    rw [hmem] at hleft
    exact absurd (beq_iff_eq.1 hz) (bne_iff_ne.1 hleft)
  have hload' : ¬ (!(s.taken c).canLoad n) = true := by
    rw [show (s.taken c).canLoad n = true from hload]
    decide
  refine gives_of_serve 0 rfl h (by decide) ?_
  dsimp only
  rw [hjob, hdst', hheld, hcons]
  generalize Crypto.kdf _ (ascii "SZT60-MODEL") _ _ = key
  generalize List.foldl (fun x p => x + ownerMask p) 0 _ = owner
  refine ⟨((s.taken c).modelLoaded n job key owner).derivedBy (contributors (x :: rest)) (kcvOf key), _,
    (if_neg hfit).trans ((if_neg hroom).trans ((if_neg hload').trans rfl)), fun u hshow hkeeper hkeys => ⟨hshow, ?_⟩⟩
  obtain ⟨hattr, hstate, hmodel⟩ := (s.taken c).key_modelLoaded (n := n) job key owner
  rw [hkeys, State.key_derivedBy, hkeeper, State.shares_derivedBy, State.shares_modelLoaded]
  exact ⟨hattr, hstate, hmodel, rfl⟩

/-! ## Lake keys (R448, R519) -/

/-- R519: a partition has one binding, its last. -/
def State.lakeBound (s : State) (b : LakeBind) : State :=
  { s with keeper := { s.keeper with binds := s.keeper.binds.filter (fun (x : LakeBind) => x.part != b.part) ++ [b] } }

theorem lakeBind_gives (hsrc : s.sourceBad c.part (c.arg 0) 3 = 0) (hmodel : (s.key (c.arg 0)).model = true) (h : s.mailDue 0x23 c = true) :
    Gives .lakeBind s fun t => t.mailShows c 0 ∧ t.keeper.binds = s.keeper.binds.filter (fun (x : LakeBind) => x.part != c.part) ++
      [⟨c.part, c.arg 0, leAt c.args 4 4, sliceB c.args 48 32⟩] := by
  have hsrc' : ¬ (s.taken c).sourceBad c.part (c.arg 0) 3 ≠ 0 := not_not.2 hsrc
  have hmodel' : ¬ (!((s.taken c).key (c.arg 0)).model) = true := by
    rw [show ((s.taken c).key (c.arg 0)).model = true from hmodel]
    decide
  refine gives_of_serve 0 rfl h (by decide) ⟨(s.taken c).lakeBound ⟨c.part, c.arg 0, leAt c.args 4 4, sliceB c.args 48 32⟩, [],
    (if_neg hsrc').trans (if_neg hmodel'), fun u hshow hkeeper _ => ⟨hshow, ?_⟩⟩
  rw [hkeeper]
  rfl

/-- R519: a snapshot key is loaded with use of the model key. -/
theorem State.lakeKey_of_snapKey {p kid seqno slot : Nat} {key : List Byte} (h : s.snapKey p seqno = .ok (slot, key))
    (hl : s.canLoad (2 * kid) = true) : s.lakeKey p kid seqno = ((s.useKey slot).1.loadPair kid key (ownerMask p) 0 0, 0) := by
  unfold State.lakeKey
  rw [h]
  exact if_neg (by simp [hl])

theorem lakeKey_gives {slot : Nat} {key : List Byte} (hk : c.arg 0 < 64) (hfree : s.slotFree (2 * c.arg 0) = true)
    (hload : s.canLoad (2 * c.arg 0) = true) (hsnap : s.snapKey c.part (leAt c.args 4 4) = .ok (slot, key)) (h : s.mailDue 0x24 c = true) :
    Gives .lakeKey s fun t => t.mailShows c 0 ∧
      ∀ i, i < 2 → (t.key (2 * c.arg 0 + i)).state = 1 ∧ (t.key (2 * c.arg 0 + i)).key = key := by
  have hdst : (s.taken c).destKid c.part (c.arg 0) false = .ok (c.arg 0) := if_pos hfree
  refine gives_of_serve 0 rfl h (by decide) ⟨((s.taken c).useKey slot).1.loadPair (c.arg 0) key (ownerMask c.part) 0 0, ?_,
    (if_neg (Nat.not_le.2 hk)).trans ?_, fun u hshow _ hkeys => ⟨hshow, fun i hi => ?_⟩⟩
  rotate_left
  · rw [hdst]
    dsimp only
    rw [State.lakeKey_of_snapKey (s := s.taken c) hsnap hload]
  · rw [hkeys]
    exact State.key_loadPair _ _ _ _ _ hi

end

/-- Settles O54, row by row. LAKE_BIND is served for every job identity, as log entry 23 says. -/
theorem jointKeyRowsComplete : Obligations.JointKeyRowsComplete :=
  ⟨fun _ _ h hsrc hcert hfit hgcm => mordantShare_gives h hsrc hcert hfit hgcm,
    fun _ _ _ _ hdst hx h0 hall hp hmine hquota hload h => mordantDerive_gives hdst hx h0 hall hp hmine hquota hload h,
    fun _ _ hsrc hmodel h => lakeBind_gives hsrc hmodel h,
    fun _ _ _ _ hk hfree hload hsnap h => lakeKey_gives hk hfree hload hsnap h⟩

end Sys2Proof.Machine

/-! The keeper's mailboxes and its commands on slots: the registers of a mailbox, what a command that loads, limits or empties slots leaves
of them, and the statements settled with them (spec, chapter 11). -/

namespace Sys2Proof.Machine

section
variable {s : State} {c : MailCmd} {a n : Nat}

/-! ## The registers of a mailbox (R517, R525) -/

theorem boxRes_inj {b m : Nat} (h : boxRes b m = boxRes b n) : m = n := by
  unfold boxRes at h
  omega
theorem boxRes_ne_boxStatus (b : Nat) : boxRes b n ≠ boxStatus b := by
  unfold boxRes boxStatus
  omega

/-- R517: the result registers of a mailbox hold these words. -/
def State.resShown (s : State) (b : Nat) (v : Nat → Nat) : State :=
  (List.range 64).foldl (fun (s : State) i => s.wn (boxRes b i) (v i)) s

theorem State.rd_resShown_ne {b : Nat} (v : Nat → Nat) (h : ∀ n, n < 64 → a ≠ boxRes b n) : (s.resShown b v).rd a = s.rd a :=
  State.rd_foldl_of_mem fun _ i hi => State.rd_wn_ne _ (h i (List.mem_range.1 hi))

theorem State.rn_resShown {b : Nat} (v : Nat → Nat) (hn : n < 64) : (s.resShown b v).rn (boxRes b n) = v n % 2 ^ 32 :=
  foldl_part (B := fun _ => True) (A := fun t => t.rn (boxRes b n) = v n % 2 ^ 32) List.nodup_range (List.mem_range.2 hn)
    (fun _ _ _ _ => trivial) (fun _ _ => State.rn_wn ..)
    (fun _ _ hj ht => (State.rn_of_rd (State.rd_wn_ne _ fun e => hj (boxRes_inj e).symm)).trans ht) trivial

/-- The words that a command's answer puts into the result registers. -/
def resWords (c : MailCmd) (status : Nat) (res : List Byte) (i : Nat) : Nat :=
  if i < (if status = 0 then rlenOf c.code else 0) then leAt res (4 * i) 4 else 0

theorem resWords_of_lt {res : List Byte} (h : n < rlenOf c.code) : resWords c 0 res n = leAt res (4 * n) 4 := if_pos h

theorem State.mailDone_eq (status : Nat) (res : List Byte) : ∃ w, s.mailDone c status res =
    ((s.resShown c.box (resWords c status res)).wr (boxStatus c.box) w).boxEvent c.box 1 := ⟨_, rfl⟩

/-- R525: an event of a mailbox writes its status alone. -/
theorem State.rd_boxEvent_ne {b bit : Nat} (h : a ≠ boxStatus b) : (s.boxEvent b bit).rd a = s.rd a :=
  (State.rd_boxEvent b bit).trans (State.rd_setBits_ne _ h)

/-- R517: the end of a command writes the status and the results of its mailbox. -/
theorem State.rd_mailDone_ne (status : Nat) (res : List Byte) (h : a ≠ boxStatus c.box) (h' : ∀ n, n < 64 → a ≠ boxRes c.box n) :
    (s.mailDone c status res).rd a = s.rd a := by
  obtain ⟨w, hw⟩ := s.mailDone_eq (c := c) status res
  rw [hw, State.rd_boxEvent_ne h, State.rd_wr_ne _ _ h, State.rd_resShown_ne _ h']

theorem State.rn_boxRes_mailDone {res : List Byte} (hn : n < 64) (hlen : n < rlenOf c.code) :
    (s.mailDone c 0 res).rn (boxRes c.box n) = leAt res (4 * n) 4 % 2 ^ 32 := by
  obtain ⟨w, hw⟩ := s.mailDone_eq (c := c) 0 res
  have hst : boxRes c.box n ≠ boxStatus c.box := boxRes_ne_boxStatus _
  rw [hw, State.rn_of_rd (State.rd_boxEvent_ne hst), State.rn_of_rd (State.rd_wr_ne _ _ hst), State.rn_resShown _ hn, resWords_of_lt hlen]

/-! ## The keeper's reports (R519) -/

/-- A command that leaves the block as it is changes the registers of its mailbox alone. -/
theorem State.rd_serve_of_report {code : Nat} {f : State → MailCmd → State × Nat × List Byte} (hf : ∀ t d, (f t d).1 = t)
    (ha : ∀ c, s.nextMail = some c → a ≠ boxStatus c.box ∧ ∀ n, n < 64 → a ≠ boxRes c.box n) : (s.serve code f).rd a = s.rd a := by
  unfold State.serve
  split
  · rfl
  · next c hc =>
    obtain ⟨hst, hres⟩ := ha c hc
    dsimp only
    split_ifs
    · rfl
    · exact State.rd_mailDone_ne _ _ hst hres
    · refine (State.rd_mailDone_ne _ _ hst hres).trans ?_
      rw [hf]
      rfl

end

/-- Settles O13: none of the three commands has an effect, so the end of the command (`State.rd_mailDone_ne`) is all that writes. -/
theorem keeperReportsFrame : Obligations.KeeperReportsFrame := by
  unfold Obligations.KeeperReportsFrame
  rintro s t i hi he a ha
  rcases hi with rfl | rfl | rfl
  · cases he
    exact State.rd_serve_of_report (fun _ _ => rfl) ha
  · cases he
    refine State.rd_serve_of_report (fun t d => ?_) ha
    dsimp only [refuseCmd]
    split_ifs <;> rfl
  · cases he
    refine State.rd_serve_of_report (fun t d => ?_) ha
    dsimp only [refuseCmd]
    split_ifs <;> rfl

section
variable {s : State} {c : MailCmd} {a n : Nat}

/-! ## Commands that load a slot (R494, R519) -/

theorem State.owner_loadSlot (key : List Byte) (attr owner soft hard : Nat) (model : Bool) (suffix : List Byte) :
    ((s.loadSlot n key attr owner soft hard model suffix).key n).owner = owner := by
  unfold State.loadSlot
  dsimp only
  rw [State.key_setKey]

/-- R494: a load that carries no check value takes place. -/
theorem State.loadChecked_unchecked (p : Nat) (key : List Byte) (attr soft hard : Nat) (suffix : List Byte) : ∃ res,
    s.loadChecked p n key attr soft hard suffix none = (s.loadSlot n key attr (ownerMask p) soft hard false suffix, 0, res) := ⟨_, rfl⟩

/-- A command that is served when it is due, and leaves the slots in which a property holds. -/
theorem serves_of_serve {i : Instr} {code : Nat} {P : State → Prop} {f : State → MailCmd → State × Nat × List Byte}
    (hi : exec i s = .next (s.serve code f))
    (hf : ∃ t res, f (s.taken c) c = (t, 0, res) ∧ ∀ u : State, (∀ k, u.key k = t.key k) → P u) : Serves i s code c P := by
  intro h
  obtain ⟨t, res, hrun, hP⟩ := hf
  exact gives_of_serve 0 hi h (by decide) ⟨t, res, hrun, fun u hshow _ hkeys => ⟨hshow, hP u hkeys⟩⟩

theorem bitOf_zero (k : Nat) : bitOf 0 k = false := by simp [bitOf]

theorem not_not_of_eq_true {b : Bool} (h : b = true) : ¬ (!b) = true := by simp [h]

/-- R519: what SESSION_KEK loads. -/
def State.kekLoaded (s : State) (n p : Nat) (key cert : List Byte) : State :=
  let s1 := s.loadSlot n key 2 (ownerMask p) 0 0 false []
  s1.setKey n { s1.key n with cert := cert }

theorem State.key_kekLoaded (p : Nat) (key cert : List Byte) :
    let k := (s.kekLoaded n p key cert).key n
    k.attr = 2 ∧ k.state = 1 ∧ k.cert = cert ∧ k.owner = ownerMask p ∧ k.key = key := by
  obtain ⟨hattr, hstate, -, hkey⟩ := s.key_loadSlot (n := n) key 2 (ownerMask p) 0 0 false []
  unfold State.kekLoaded
  dsimp only
  rw [State.key_setKey]
  exact ⟨hattr, hstate, rfl, State.owner_loadSlot .., hkey⟩

theorem sessionKek_serves {x : Session}
    (hx : (s.keeper.sessions.find? fun (x : Session) => x.part == c.part && x.id == leAt c.args 4 4) = some x)
    (hdst : s.destSlot c.part (c.arg 0) false = .ok n) (hload : s.canLoad n = true) : Serves .sessionKek s 0x10 c fun t =>
      (t.key n).attr = 2 ∧ (t.key n).state = 1 ∧ (t.key n).cert = x.cert ∧ (t.key n).owner = ownerMask c.part ∧
        (t.key n).key = Crypto.kdf x.secret (ascii "SZT60-SKEK") (sliceB c.args 4 4) 256 := by
  have hx' : ((s.taken c).keeper.sessions.find? fun (x : Session) => x.part == c.part && x.id == leAt c.args 4 4) = some x := hx
  have hdst' : (s.taken c).destSlot c.part (c.arg 0) false = .ok n := hdst
  have hload' : ¬ (!(s.taken c).canLoad n) = true := not_not_of_eq_true hload
  refine serves_of_serve rfl ?_
  dsimp only
  rw [hx', hdst']
  refine ⟨(s.taken c).kekLoaded n c.part _ x.cert, _, (if_neg hload').trans rfl, fun u hkeys => ?_⟩
  rw [hkeys]
  exact State.key_kekLoaded ..

theorem importKey_gives (h : s.mailDue 0x11 c = true) (h1 : 1 ≤ c.arg 1) (h3 : c.arg 1 ≤ 3) (hfl : c.arg 2 = 0)
    (hlim : limitsBad 0xC0 (c.arg 1) (c.arg 56) (c.arg 57) = false) (hdst : s.destSlot c.part (c.arg 0) false = .ok n)
    (hsrc : s.sourceBad c.part (c.arg 3) 2 = 0) (hload : s.canLoad n = true) : Gives .importKey s fun t =>
      match Crypto.kwUnwrap (s.key (c.arg 3)).key (sliceB c.args 8 40) with
      | some key => t.mailShows c 0 ∧ (t.key n).key = key ∧ (t.key n).attr = c.arg 1 ∧ (t.key n).state = 1 ∧
          (t.key n).owner = ownerMask c.part
      | none => t.mailShows c 8 := by
  have hargs : ¬ (3 < c.arg 1 ∨ 3 < c.arg 2 ∨ limitsBad 0xC0 (c.arg 1) (c.arg 56) (c.arg 57) = true) := by
    simp only [hlim, Bool.false_eq_true, or_false]
    omega
  have hattr : ¬ c.arg 1 = 0 := by omega
  have hdst' : (s.taken c).destSlot c.part (c.arg 0) (bitOf (c.arg 2) 0) = .ok n := by
    rw [hfl, bitOf_zero]
    exact hdst
  have hsrc' : ¬ (s.taken c).sourceBad c.part (c.arg 3) 2 ≠ 0 := not_not.2 hsrc
  have hload' : ¬ (!(s.taken c).canLoad n) = true := not_not_of_eq_true hload
  cases hkey : Crypto.kwUnwrap (s.key (c.arg 3)).key (sliceB c.args 8 40) with
  | none =>
    have hkey' : Crypto.kwUnwrap ((s.taken c).key (c.arg 3)).key (sliceB c.args 8 40) = none := hkey
    refine gives_of_serve 8 rfl h (by decide) ?_
    dsimp only
    rw [hdst', hkey']
    exact ⟨_, _, (if_neg hargs).trans ((if_neg hattr).trans ((if_neg hsrc').trans ((if_neg hload').trans rfl))), fun _ hshow _ _ => hshow⟩
  | some key =>
    have hkey' : Crypto.kwUnwrap ((s.taken c).key (c.arg 3)).key (sliceB c.args 8 40) = some key := hkey
    refine gives_of_serve 0 rfl h (by decide) ?_
    dsimp only
    rw [hdst', hkey', hfl, bitOf_zero, if_neg Bool.false_ne_true]
    rw [hfl] at hargs
    obtain ⟨res, hrun⟩ := ((s.taken c).useKey (c.arg 3)).1.loadChecked_unchecked (n := n) c.part key (c.arg 1) (c.arg 56) (c.arg 57) []
    refine ⟨_, _, (if_neg hargs).trans ((if_neg hattr).trans ((if_neg hsrc').trans ((if_neg hload').trans hrun))),
      fun u hshow _ hkeys => ⟨hshow, ?_⟩⟩
    obtain ⟨hattr, hstate, -, hkey⟩ := ((s.taken c).useKey (c.arg 3)).1.key_loadSlot (n := n) key (c.arg 1) (ownerMask c.part) (c.arg 56)
      (c.arg 57) false []
    rw [hkeys]
    exact ⟨hkey, hattr, hstate, State.owner_loadSlot ..⟩

/-! ## Keys that are derived (R497, R519) -/

/-- R500: the key-generation counter takes a value where a key for encryption is derived. -/
def State.genTaken (s : State) (attr gen : Nat) : State :=
  if attr = 0 then { s with keeper := { s.keeper with gen := gen } } else s

/-- R500: the suffix that a key for encryption is derived with. -/
def genSuffix (attr gen n : Nat) : List Byte := if attr = 0 then leBytes 8 gen ++ leBytes 1 n else []

theorem labelInternal_of_labelFits {label attr : Nat} (h : labelFits label attr = true) : labelInternal label = false := by
  simp only [labelFits, Bool.or_eq_true, Bool.and_eq_true, beq_iff_eq, decide_eq_true_eq] at h
  simp only [labelInternal, Bool.or_eq_false_iff, beq_eq_false_iff_ne, decide_eq_false_iff_not]
  omega

theorem derive_serves (hattr : c.arg 1 ≤ 3) (hfl : c.arg 2 = 0) (hlen : c.arg 5 ≤ 128) (hlab : labelFits (c.arg 4) (c.arg 1) = true)
    (hlim : limitsBad 0xC0 (c.arg 1) (c.arg 144) (c.arg 145) = false)
    (hjoint : c.arg 1 ≠ 0 ∨ s.flag (Reg.PRT_STATE c.part) Fld.PRT_STATE_JOINT = false)
    (hdst : s.destSlot c.part (c.arg 0) false = .ok n) (hsrc : s.sourceBad c.part (c.arg 3) 3 = 0) (hload : s.canLoad n = true) :
    Serves .derive s 0x12 c fun t => (t.key n).attr = c.arg 1 ∧ (t.key n).state = 1 ∧ (t.key n).owner = ownerMask c.part ∧
      (c.arg 1 ≠ 0 → (t.key n).key = Crypto.kdf (s.key (c.arg 3)).key (labelName (c.arg 4)) (sliceB c.args 16 (c.arg 5)) 256) := by
  have hargs : ¬ (3 < c.arg 1 ∨ 3 < c.arg 2 ∨ 128 < c.arg 5 ∨ (!(labelFits (c.arg 4) (c.arg 1) || labelInternal (c.arg 4))) = true ∨
      limitsBad 0xC0 (c.arg 1) (c.arg 144) (c.arg 145) = true) := by
    simp only [hlim, hlab, Bool.true_or, Bool.not_true, Bool.false_eq_true, or_false]
    omega
  have hplain : ¬ (labelInternal (c.arg 4) = true ∨
      (c.arg 1 = 0 ∧ (s.taken c).flag (Reg.PRT_STATE c.part) Fld.PRT_STATE_JOINT = true)) := by
    rintro (hin | ⟨h0, hj⟩)
    · exact absurd ((labelInternal_of_labelFits hlab).symm.trans hin) Bool.false_ne_true
    · rcases hjoint with hne | hj'
      · exact hne h0
      · exact absurd (hj'.symm.trans hj) Bool.false_ne_true
  have hdst' : (s.taken c).destSlot c.part (c.arg 0) (bitOf (c.arg 2) 0) = .ok n := by
    rw [hfl, bitOf_zero]
    exact hdst
  have hsrc' : ¬ (s.taken c).sourceBad c.part (c.arg 3) 3 ≠ 0 := not_not.2 hsrc
  have hload' : ¬ (!(s.taken c).canLoad n) = true := not_not_of_eq_true hload
  refine serves_of_serve rfl ?_
  dsimp only
  rw [hdst']
  rw [hfl] at hargs
  rw [hfl, bitOf_zero, if_neg Bool.false_ne_true]
  let suffix := genSuffix (c.arg 1) (s.keeper.gen + 1) n
  let key := Crypto.kdf (s.key (c.arg 3)).key (labelName (c.arg 4)) (sliceB c.args 16 (c.arg 5) ++ suffix) 256
  let x := ((s.taken c).useKey (c.arg 3)).1.genTaken (c.arg 1) (s.keeper.gen + 1)
  obtain ⟨res, hrun⟩ := x.loadChecked_unchecked (n := n) c.part key (c.arg 1) (c.arg 144) (c.arg 145) suffix
  refine ⟨_, res, (if_neg hargs).trans ((if_neg hplain).trans ((if_neg hsrc').trans ((if_neg hload').trans hrun))),
    fun u hkeys => ?_⟩
  obtain ⟨hattr, hstate, -, hkey⟩ := x.key_loadSlot (n := n) key (c.arg 1) (ownerMask c.part) (c.arg 144) (c.arg 145) false suffix
  rw [hkeys]
  refine ⟨hattr, hstate, State.owner_loadSlot .., fun hne => hkey.trans ?_⟩
  have hnil : suffix = [] := if_neg hne
  simp only [key, hnil, List.append_nil]

/-! ## Pairs (R488) -/

theorem State.slot_loadPair (kid : Nat) (key : List Byte) (owner soft hard : Nat) {i : Nat} (hi : i < 2) :
    let k := (s.loadPair kid key owner soft hard).key (2 * kid + i)
    k.state = 1 ∧ k.attr = i ∧ k.owner = owner ∧ k.key = key := by
  unfold State.loadPair
  obtain rfl | rfl : i = 0 ∨ i = 1 := by omega
  · obtain ⟨hattr, hstate, -, hkey⟩ := s.key_loadSlot (n := 2 * kid) key 0 owner soft hard false []
    dsimp only
    rw [State.key_loadSlot_ne _ _ _ _ _ _ _ (by omega)]
    exact ⟨hstate, hattr, State.owner_loadSlot .., hkey⟩
  · obtain ⟨hattr, hstate, -, hkey⟩ := (s.loadSlot (2 * kid) key 0 owner soft hard false []).key_loadSlot (n := 2 * kid + 1) key 1 owner
      soft hard false []
    exact ⟨hstate, hattr, State.owner_loadSlot .., hkey⟩

theorem derivePair_serves (hk : c.arg 0 < 64) (hfl : c.arg 2 = 0) (hlen : c.arg 5 ≤ 128) (hlab : c.arg 4 = 2)
    (hfree : s.slotFree (2 * c.arg 0) = true) (hsrc : s.sourceBad c.part (c.arg 3) 3 = 0) (hload : s.canLoad (2 * c.arg 0) = true) :
    Serves .derivePair s 0x13 c fun t => ∀ i, i < 2 → (t.key (2 * c.arg 0 + i)).state = 1 ∧ (t.key (2 * c.arg 0 + i)).attr = i ∧
      (t.key (2 * c.arg 0 + i)).owner = ownerMask c.part ∧ (t.key (2 * c.arg 0 + i)).key =
        Crypto.kdf (s.key (c.arg 3)).key (ascii "SZT60-MEM") (sliceB c.args 16 (c.arg 5)) 256 := by
  have hargs : ¬ (3 < c.arg 2 ∨ 128 < c.arg 5 ∨ (64 ≤ c.arg 0 ∧ c.arg 0 < 0xFF) ∨ (!(c.arg 4 == 2 || labelInternal (c.arg 4))) = true) := by
    simp only [hlab, beq_self_eq_true, Bool.true_or, Bool.not_true, Bool.false_eq_true, or_false]
    omega
  have hplain : ¬ labelInternal (c.arg 4) = true := by
    rw [hlab]
    decide
  have hkid : ¬ c.arg 0 = 0xFF := by omega
  have hdst : (s.taken c).destKid c.part (c.arg 0) (bitOf (c.arg 2) 0) = .ok (c.arg 0) := if_pos hfree
  have hsrc' : ¬ (s.taken c).sourceBad c.part (c.arg 3) 3 ≠ 0 := not_not.2 hsrc
  have hload' : ¬ (!(s.taken c).canLoad (2 * c.arg 0)) = true := not_not_of_eq_true hload
  have hkcv (P : Prop) : ¬ (bitOf (c.arg 2) 1 = true ∧ P) := by
    rw [hfl, bitOf_zero]
    exact fun e => Bool.false_ne_true e.1
  refine serves_of_serve rfl ?_
  dsimp only
  rw [if_neg hkid]
  dsimp only
  rw [hdst]
  refine ⟨_, _, (if_neg hargs).trans ((if_neg hplain).trans ((if_neg hsrc').trans ((if_neg hload').trans (if_neg (hkcv _))))),
    fun u hkeys i hi => ?_⟩
  rw [hkeys]
  exact State.slot_loadPair _ _ _ _ _ hi

/-! ## Slots that are emptied or limited (R489, R502, R823) -/

theorem State.state_emptySlot : ((s.emptySlot n).key n).state = 0 := by
  unfold State.emptySlot
  rw [State.key_setKey]
  rfl

theorem State.state_emptySlot_of_empty (k : Nat) (h : (s.key n).state = 0) : ((s.emptySlot k).key n).state = 0 := by
  by_cases hk : n = k
  · rw [hk]
    exact State.state_emptySlot
  · unfold State.emptySlot
    rw [State.key_setKey_ne _ _ hk]
    exact h

/-- R488: both slots of the pair that a slot belongs to. -/
theorem State.state_emptyPair (n : Nat) : ((((s.emptySlot (n / 2 * 2)).emptySlot (n / 2 * 2 + 1)).key n).state = 0) := by
  obtain hn | hn : n = n / 2 * 2 ∨ n = n / 2 * 2 + 1 := by omega
  · refine State.state_emptySlot_of_empty _ ?_
    rw [← hn]
    exact State.state_emptySlot
  · rw [← hn]
    exact State.state_emptySlot

theorem revoke_serves (hown : s.ownBad c.part (c.arg 0) = 0) : Serves .revoke s 0x18 c fun t => (t.key (c.arg 0)).state = 0 := by
  have hown' : ¬ (s.taken c).ownBad c.part (c.arg 0) ≠ 0 := not_not.2 hown
  by_cases hn : c.arg 0 < 0x80
  · refine serves_of_serve rfl ⟨_, [], (if_neg hown').trans (if_pos hn), fun u hkeys => ?_⟩
    rw [hkeys]
    exact State.state_emptyPair _
  · refine serves_of_serve rfl ⟨_, [], (if_neg hown').trans (if_neg hn), fun u hkeys => ?_⟩
    rw [hkeys]
    exact State.state_emptySlot

theorem State.key_keyAlert (p bits k : Nat) : (s.keyAlert p bits).key k = s.key k :=
  State.key_of_kept (φ := allBut [.regs, .out]) (State.keyAlert_kept p bits (Kept.refl _ s) rfl rfl) rfl k

theorem State.key_foldl_keyAlert (l : List Nat) (bits k : Nat) :
    (l.foldl (fun (s : State) p => s.keyAlert p bits) s).key k = s.key k := by
  induction l generalizing s with
  | nil => rfl
  | cons p l ih => rw [List.foldl_cons, ih, State.key_keyAlert]

theorem State.key_ite_foldl_keyAlert {q : Prop} [Decidable q] (l : List Nat) (bits k : Nat) :
    (if q then l.foldl (fun (s : State) p => s.keyAlert p bits) s else s).key k = s.key k := by
  split
  · exact State.key_foldl_keyAlert l bits k
  · rfl

theorem State.key_setLimit (soft hard : Nat) : ((s.setLimit n soft hard).key n).soft = (if soft % 64 = 0 then (s.key n).soft else soft) ∧
    ((s.setLimit n soft hard).key n).hard = (if hard % 64 = 0 then (s.key n).hard else hard) := by
  unfold State.setLimit
  dsimp only
  rw [State.key_ite_foldl_keyAlert, State.key_ite_foldl_keyAlert, State.key_setKey]
  exact ⟨rfl, rfl⟩

theorem setLimit_serves (hown : s.ownBad c.part (c.arg 0) = 0) (hsoft : limitAbove (c.arg 1) (s.key (c.arg 0)).soft = false)
    (hhard : limitAbove (c.arg 2) (s.key (c.arg 0)).hard = false) : Serves .setLimit s 0x19 c fun t =>
      (t.key (c.arg 0)).soft = (if c.arg 1 % 64 = 0 then (s.key (c.arg 0)).soft else c.arg 1) ∧
        (t.key (c.arg 0)).hard = (if c.arg 2 % 64 = 0 then (s.key (c.arg 0)).hard else c.arg 2) := by
  have hlim : ¬ (limitAbove (c.arg 1) ((s.taken c).key (c.arg 0)).soft || limitAbove (c.arg 2) ((s.taken c).key (c.arg 0)).hard) = true := by
    rw [show ((s.taken c).key (c.arg 0)) = s.key (c.arg 0) from rfl, hsoft, hhard]
    decide
  have hown' : ¬ (s.taken c).ownBad c.part (c.arg 0) ≠ 0 := not_not.2 hown
  refine serves_of_serve rfl ⟨_, [], (if_neg hlim).trans (if_neg hown'), fun u hkeys => ?_⟩
  rw [hkeys]
  exact State.key_setLimit ..

end

/-- Settles O53, row by row. A limit of 64, or none, in SET_LIMIT leaves the slot's limit as it was, as log entry 23 says. -/
theorem keySlotRowsComplete : Obligations.KeySlotRowsComplete :=
  ⟨fun _ _ _ _ hx hdst hload => sessionKek_serves hx hdst hload,
    fun _ _ _ h h1 h3 hfl hlim hdst hsrc hload => importKey_gives h h1 h3 hfl hlim hdst hsrc hload,
    fun _ _ _ hattr hfl hlen hlab hlim hjoint hdst hsrc hload => derive_serves hattr hfl hlen hlab hlim hjoint hdst hsrc hload,
    fun _ _ hk hfl hlen hlab hfree hsrc hload => derivePair_serves hk hfl hlen hlab hfree hsrc hload,
    fun _ _ hown => revoke_serves hown,
    fun _ _ hown hsoft hhard => setLimit_serves hown hsoft hhard⟩

end Sys2Proof.Machine

/-! The registers of PF0 that show the partitions and their epochs, and what the removal of a partition leaves of them (spec, chapters 11
and 13). -/

namespace Sys2Proof.Machine

section
variable {s : State} {a n p : Nat}

/-! ## The registers that show the partitions (R490, R524, R589) -/

/-- A register of PF0 is no register of a VF. -/
theorem ne_vf_of_lt (h : a < 0x10000000) (hp : p ≠ 0) (k : Nat) : a ≠ vf p + k := by
  unfold vf
  omega

/-- A register of the root secret, of an epoch, of a partition's state or share, or of the layout. -/
def keeperReg (a : Nat) : Prop := (0x400400 ≤ a ∧ a < 0x400420) ∨ (0x800020 ≤ a ∧ a < 0x800040) ∨ a = 0x800000

theorem keeperReg_KEY_ROOT_STAT : keeperReg Reg.KEY_ROOT_STAT := by
  unfold keeperReg Reg.KEY_ROOT_STAT
  omega
theorem keeperReg_KEY_PEPOCH (hp : p ∈ allParts) : keeperReg (Reg.KEY_PEPOCH p) := by
  have := pos_and_le_four_of_mem_allParts hp
  unfold keeperReg Reg.KEY_PEPOCH
  omega
theorem keeperReg_PRT_STATE (hp : p ∈ allParts) : keeperReg (Reg.PRT_STATE p) := by
  have := pos_and_le_four_of_mem_allParts hp
  unfold keeperReg Reg.PRT_STATE
  omega
theorem keeperReg_PRT_MAP (hp : p ∈ allParts) : keeperReg (Reg.PRT_MAP p) := by
  have := pos_and_le_four_of_mem_allParts hp
  unfold keeperReg Reg.PRT_MAP
  omega

theorem keeperReg_PRT_LAYOUT : keeperReg Reg.PRT_LAYOUT := by
  unfold keeperReg Reg.PRT_LAYOUT
  omega

theorem keeperReg.lt (h : keeperReg a) : a < 0x10000000 := by
  unfold keeperReg at h
  omega

theorem keeperReg.ne_vf (h : keeperReg a) (hp : p ≠ 0) (k : Nat) : a ≠ vf p + k := ne_vf_of_lt h.lt hp k

/-- R525: of PF0's registers an alert is shown in one. -/
theorem State.rd_keyAlert_pf (hlt : a < 0x10000000) (hal : a ≠ Reg.KEY_ALERT) (p bits : Nat) : (s.keyAlert p bits).rd a = s.rd a := by
  unfold State.keyAlert
  by_cases hp : p = 0
  · have hbox : a ≠ mailBase 0 + 0x10 := ne_vf_of_lt hlt (p := 5) (by decide) (0x400000 + 0x10)
    simp only [if_pos hp]
    rw [State.rd_emit_if, State.rd_setBits_ne _ hal, State.rd_setBits_ne _ hbox]
  · simp only [if_neg hp]
    rw [State.rd_emit_if, State.rd_setBits_ne _ (show a ≠ Reg.TKEY_ALERT p from ne_vf_of_lt hlt hp _)]

theorem State.rd_keyAlert_keeper (h : keeperReg a) (p bits : Nat) : (s.keyAlert p bits).rd a = s.rd a :=
  State.rd_keyAlert_pf h.lt (by unfold keeperReg at h; unfold Reg.KEY_ALERT; omega) p bits

theorem State.rd_irqPrt_keeper (h : keeperReg a) (base p : Nat) : (s.irqPrt base p).rd a = s.rd a :=
  State.rd_irq_ne _ _ _ _ _ _ (by unfold keeperReg at h; unfold Reg.PRT_INT_STATUS; omega)

theorem State.rd_insecure (h : keeperReg a) (i : Nat) (hi : i < 4) : (s.insecure i).rd a = s.rd a := by
  unfold State.insecure
  split
  · rw [State.rd_irq_ne _ _ _ _ _ _ (by unfold keeperReg at h; unfold Reg.HST_INT_STATUS; omega),
      State.rd_fput_ne _ _ _ (by unfold keeperReg at h; unfold Reg.HST_IDE; omega)]
  · rfl

theorem State.rd_sendSpdm (m : List Byte) : (s.sendSpdm n m).rd a = s.rd a :=
  State.rd_of_kept (φ := allBut [.ports]) (State.sendSpdm_kept n m (Kept.refl _ s) rfl) rfl a
theorem State.rd_dropStale : (s.dropStale p).rd a = s.rd a :=
  State.rd_of_kept (φ := allBut [.keys]) (State.dropStale_kept p (Kept.refl _ s) rfl) rfl a

/-- R387: the bindings of a partition end in the ports' registers. -/
theorem State.rd_dropBindings (h : keeperReg a) (hp : p ∈ allParts) : (s.dropBindings p).rd a = s.rd a := by
  have hp4 := pos_and_le_four_of_mem_allParts hp
  refine State.rd_foldl_of_mem fun t n hn => ?_
  have hn16 := List.mem_range.1 hn
  have hbind : a ≠ Reg.LL_BIND n p := by unfold keeperReg at h; unfold Reg.LL_BIND; omega
  have hdrop : a ≠ Reg.LL_EPOCH_DROP n := by unfold keeperReg at h; unfold Reg.LL_EPOCH_DROP; omega
  dsimp only
  rw [State.rd_bump_ne _ _ hdrop, State.rd_setPort, State.rd_fput_ne _ _ _ hbind]

/-! ## What a removal ends (R571) -/

theorem State.rd_mapBufs_keeper (h : keeperReg a) (hp : p ≠ 0) (test : CmdBuf → Bool) (f : CmdBuf → CmdBuf) :
    (s.mapBufs p test f).rd a = s.rd a :=
  State.rd_mapBufs hp test f (.inl (by have := h.lt; unfold vf; omega))
theorem State.rd_failBufs (h : keeperReg a) (hp : p ≠ 0) (test : CmdBuf → Bool) (code : Nat) : (s.failBufs p test code).rd a = s.rd a :=
  State.rd_mapBufs_keeper h hp test _

theorem State.rd_enterStopped (h : keeperReg a) (hp : p ≠ 0) : (s.enterStopped p).rd a = s.rd a := by
  unfold State.enterStopped State.seqPacketDone
  rw [State.rd_mapBufs_keeper h hp, State.rd_sepiaRec, State.rd_setSeqState _ (h.ne_vf hp _) (h.ne_vf hp _)
      (by unfold keeperReg at h; unfold Reg.PWR_SAG_STAT; omega),
    State.rd_fput_ne _ _ _ (show a ≠ Reg.SEQ_CTRL p from h.ne_vf hp _), State.rd_wn_ne _ (show a ≠ Reg.SEQ_PC p from h.ne_vf hp _), State.rd_setSq]

theorem State.rd_abandon (keep : Option Nat) : (s.abandon p keep).rd a = s.rd a := rfl
theorem State.rd_setCc (ch : Nat) (l : Option Launch) : (s.setCc p ch l).rd a = s.rd a := rfl

theorem State.rd_ccRelease (h : keeperReg a) (hp : p ≠ 0) (ch : Nat) (l : Launch) : (s.ccRelease p ch l).rd a = s.rd a := by
  unfold State.ccRelease
  dsimp only
  split
  · rw [State.rd_fput_ne _ _ _ (show a ≠ Reg.COL_DYN_STAT p from h.ne_vf hp _), State.rd_setCc]
  · rfl

theorem State.rd_setSlot (h : keeperReg a) (hp : p ≠ 0) (j st : Nat) : (s.setSlot p j st).rd a = s.rd a :=
  State.rd_fput_ne _ _ _ (by unfold Reg.CKP_SLOT_STAT; rw [Nat.add_assoc]; exact h.ne_vf hp _)

theorem State.rd_snapEnd (h : keeperReg a) (hp : p ≠ 0) : (s.snapEnd p).rd a = s.rd a := by
  unfold State.snapEnd
  split
  · rfl
  · rw [State.rd_fput_ne _ _ _ (show a ≠ Reg.CKP_STATUS p from h.ne_vf hp _), State.rd_setSlot h hp, State.rd_setLake]

theorem State.rd_abortShown (h : keeperReg a) (hp : p ≠ 0) : (s.abortShown p).rd a = s.rd a := by
  have hst (w : Word) (x : Lake) : ((s.setLake p x).wr (Reg.CKP_STATUS p) w).rd a = s.rd a :=
    State.rd_wr_ne _ _ (show a ≠ Reg.CKP_STATUS p from h.ne_vf hp _)
  unfold State.abortShown
  dsimp only
  split
  · rw [State.rd_freezePart (show a ≠ Reg.TDBG_SEPIA_STAT p from h.ne_vf hp _), hst]
  · exact hst ..

/-- R466: an abort changes the partition's own registers. -/
theorem State.rd_ckpAbort (h : keeperReg a) (hp : p ≠ 0) : (s.ckpAbort p).rd a = s.rd a := by
  unfold State.ckpAbort
  extract_lets s0 q s1 s2 s3 s4 s5 s6 st src s7
  have h2 : s2.rd a = s.rd a := by
    rw [State.rd_setWin, State.rd_fput_ne _ _ _ (show a ≠ Reg.UPD_STATUS p from h.ne_vf hp _), State.rd_setSq, State.rd_abandon]
  have h3 : s3.rd a = s2.rd a := by
    refine State.rd_foldl (fun t ch => ?_) _
    split
    · exact State.rd_ccRelease h hp ..
    · rfl
  have h4 : s4.rd a = s3.rd a := State.rd_foldl (fun _ _ => State.rd_setPort ..) _
  have h6 : s6.rd a = s4.rd a := by rw [State.rd_enterStopped h hp, State.rd_failBufs h hp, State.rd_snapEnd h hp]
  have hshown : (s6.abortShown p).rd a = s6.rd a := State.rd_abortShown h hp
  -- the kernel is not to compute the state that the abort is shown in
  clear_value s6
  exact hshown.trans (h6.trans (h4.trans (h3.trans h2)))

theorem State.rd_setDump (h : keeperReg a) (n : Nat) (on : Bool) : (s.setDump n on).rd a = s.rd a := by
  have hstat (x : State) (v : Nat) : (x.fput Reg.DBG_DUMP_STAT Fld.DBG_DUMP_STAT_BUSY v).rd a = x.rd a :=
    State.rd_fput_ne _ _ _ (by unfold keeperReg at h; unfold Reg.DBG_DUMP_STAT; omega)
  unfold State.setDump
  dsimp only
  split
  · exact hstat ..
  next hn => exact (State.rd_fput_ne _ _ _ (show a ≠ Reg.TDBG_DUMP_STAT n from h.ne_vf hn _)).trans (hstat ..)

theorem State.rd_fenceError (h : keeperReg a) (hp : p ≠ 0) (n code : Nat) : (s.fenceError p n code).rd a = s.rd a :=
  have hsafe := fenceSafe_rd (p := p) s (.inl (by have := h.lt; unfold vf; omega))
  hsafe.settle hp (hsafe.fenceFail n code rfl)

theorem State.rd_stopDump (h : keeperReg a) (hp : p ≠ 0) : (s.stopDump p).rd a = s.rd a := by
  have hst (x : State) (f : Fld) (v : Nat) : (x.fput (Reg.TDBG_DUMP_STAT p) f v).rd a = x.rd a :=
    State.rd_fput_ne _ _ _ (show a ≠ Reg.TDBG_DUMP_STAT p from h.ne_vf hp _)
  unfold State.stopDump State.endDump
  split
  · dsimp only
    rw [if_neg (by decide), State.rd_fenceError h hp, hst, hst,
      State.rd_fput_ne _ _ _ (by unfold keeperReg at h; unfold Reg.DBG_DUMP_STAT; omega), State.rd_setDump h]
  · rfl

/-! ## The removal of a partition (R490, R570, R571) -/

/-- R589, R593: the state of a partition is shown in two registers. -/
theorem State.rd_setPart (h : keeperReg a) (hp : p ≠ 0) (hne : a ≠ Reg.PRT_STATE p) (st tdi : Nat) : (s.setPart p st tdi).rd a = s.rd a := by
  unfold State.setPart
  dsimp only
  rw [State.rd_fput_ne _ _ _ (show a ≠ Reg.TKEY_PART p from h.ne_vf hp _), State.rd_wr_ne _ _ hne]

theorem State.rd_setPart_state (hp : p ∈ allParts) (st tdi : Nat) : (s.setPart p st tdi).rd (Reg.PRT_STATE p) =
    Fld.PRT_STATE_TDI.put (Fld.PRT_STATE_STATE.put (s.rd (Reg.PRT_STATE p)) st) tdi := by
  have hp0 : p ≠ 0 := Nat.ne_of_gt (pos_and_le_four_of_mem_allParts hp).1
  unfold State.setPart
  dsimp only
  rw [State.rd_fput_ne _ _ _ (show Reg.PRT_STATE p ≠ Reg.TKEY_PART p from (keeperReg_PRT_STATE hp).ne_vf hp0 _), State.rd_wr]

theorem State.partState_setPart (hp : p ∈ allParts) {st : Nat} (hst : st < 8) (tdi : Nat) : (s.setPart p st tdi).partState p = st := by
  unfold State.partState State.fget
  rw [State.rd_setPart_state hp, Fld.get_put_ne _ _ _ _ (by decide) (by decide), Fld.get_put_same _ _ _ (by decide)]
  exact Nat.mod_eq_of_lt hst

theorem State.tdi_setPart (hp : p ∈ allParts) (st : Nat) {tdi : Nat} (ht : tdi < 4) :
    (s.setPart p st tdi).fget (Reg.PRT_STATE p) Fld.PRT_STATE_TDI = tdi := by
  unfold State.fget
  rw [State.rd_setPart_state hp, Fld.get_put_same _ _ _ (by decide)]
  exact Nat.mod_eq_of_lt ht

theorem State.rd_raiseEpoch (h : keeperReg a) (hp : p ≠ 0) (hne : a ≠ Reg.KEY_PEPOCH p) : (s.raiseEpoch p).rd a = s.rd a := by
  unfold State.raiseEpoch
  rw [State.rd_keyAlert_keeper h, State.rd_keyAlert_keeper h, State.rd_wn_ne _ (show a ≠ Reg.TKEY_PEPOCH p from h.ne_vf hp _),
    State.rd_wn_ne _ hne]

/-- R490: the epoch rises by one, in the bits of its register. -/
theorem State.rn_raiseEpoch (hp : p ∈ allParts) : (s.raiseEpoch p).rn (Reg.KEY_PEPOCH p) = (s.rn (Reg.KEY_PEPOCH p) + 1) % 2 ^ 32 := by
  have hp0 : p ≠ 0 := Nat.ne_of_gt (pos_and_le_four_of_mem_allParts hp).1
  have h := keeperReg_KEY_PEPOCH hp
  unfold State.raiseEpoch
  rw [State.rn_of_rd (State.rd_keyAlert_keeper h ..), State.rn_of_rd (State.rd_keyAlert_keeper h ..),
    State.rn_of_rd (State.rd_wn_ne _ (show Reg.KEY_PEPOCH p ≠ Reg.TKEY_PEPOCH p from h.ne_vf hp0 _)), State.rn_wn]

/-- R571 step 1: the partition is DRAINING, with its cause, and its epoch has risen. -/
def State.removalShown (s : State) (p cause : Nat) : State :=
  ((s.setPart p 5 0).fput (Reg.PRT_STATE p) Fld.PRT_STATE_CAUSE cause).raiseEpoch p

theorem State.rd_setDma (e : Nat) (l : List Desc) : (s.setDma e l).rd a = s.rd a := rfl

/-- A state, share or epoch changes in the first step of a removal alone. -/
theorem State.rd_startRemoval (h : keeperReg a) (hp : p ∈ allParts) (cause : Nat) (hu : ¬ (s.partState p = 0 ∨ s.partState p = 5)) :
    (s.startRemoval p cause).rd a = (s.removalShown p cause).rd a := by
  have hp0 : p ≠ 0 := Nat.ne_of_gt (pos_and_le_four_of_mem_allParts hp).1
  have hck (x : State) (f : Fld) (v : Nat) : (x.fput (Reg.CKP_STATUS p) f v).rd a = x.rd a :=
    State.rd_fput_ne _ _ _ (show a ≠ Reg.CKP_STATUS p from h.ne_vf hp0 _)
  unfold State.startRemoval
  rw [if_neg hu]
  extract_lets s1 keeper s2 s3 ports s4 s5 s6 s7 l s8
  have h1 : s2.rd a = (s.removalShown p cause).rd a := rfl
  have h3 : s3.rd a = s2.rd a := State.rd_foldl_of_mem fun _ i hi => State.rd_insecure h i (List.mem_range.1 (List.mem_of_mem_filter hi))
  have h4 : s4.rd a = s3.rd a := State.rd_foldl (fun _ _ => State.rd_sendSpdm _) _
  have h5 : s5.rd a = s4.rd a := (State.rd_dropBindings h hp).trans State.rd_dropStale
  have h6 : s6.rd a = s5.rd a := State.rd_foldl (fun _ _ => State.rd_setDma ..) _
  have h7 : s7.rd a = s6.rd a := by rw [State.rd_stopDump h hp0, State.rd_ckpAbort h hp0, State.rd_failBufs h hp0]
  have h8 : s8.rd a = s7.rd a := by
    dsimp only [s8]
    split
    · exact State.rd_setSlot h hp0 ..
    · rfl
  clear_value s8 s7
  rw [State.rd_irqPrt_keeper h, State.rd_showDrain (show a ≠ Reg.CKP_STATUS p from h.ne_vf hp0 _), hck, hck, State.rd_setLake]
  exact h8.trans (h7.trans (h6.trans (h5.trans (h4.trans (h3.trans h1)))))

theorem State.partState_lowerCause (q cause : Nat) : (s.lowerCause q cause).partState p = s.partState p := by
  unfold State.lowerCause State.partState
  dsimp only
  split
  · by_cases hq : Reg.PRT_STATE p = Reg.PRT_STATE q
    · rw [hq]
      exact State.fget_fput_field _ _ _ _ _ (by decide) (.inl (by decide))
    · exact State.fget_of_rd (State.rd_fput_ne _ _ _ hq)
  · rfl

theorem PRT_STATE_inj {p q : Nat} (hp : p ∈ allParts) (hq : q ∈ allParts) (h : Reg.PRT_STATE p = Reg.PRT_STATE q) : p = q := by
  have := pos_and_le_four_of_mem_allParts hp
  have := pos_and_le_four_of_mem_allParts hq
  unfold Reg.PRT_STATE at h
  omega
theorem KEY_PEPOCH_ne_PRT_STATE (p : Nat) {q : Nat} (hp : p ∈ allParts) : Reg.KEY_PEPOCH p ≠ Reg.PRT_STATE q := by
  have := pos_and_le_four_of_mem_allParts hp
  unfold Reg.PRT_STATE Reg.KEY_PEPOCH
  omega

/-- Only its own removal changes the state of a partition. -/
theorem State.partState_startRemoval_ne {q : Nat} (hp : p ∈ allParts) (hq : q ∈ allParts) (hne : q ≠ p) (cause : Nat) :
    (s.startRemoval q cause).partState p = s.partState p := by
  by_cases hu : s.partState q = 0 ∨ s.partState q = 5
  · unfold State.startRemoval
    rw [if_pos hu, State.partState_lowerCause]
  · have h := keeperReg_PRT_STATE hp
    have hq0 : q ≠ 0 := Nat.ne_of_gt (pos_and_le_four_of_mem_allParts hq).1
    have hst : Reg.PRT_STATE p ≠ Reg.PRT_STATE q := fun e => hne (PRT_STATE_inj hp hq e).symm
    refine State.fget_of_rd ((State.rd_startRemoval h hq cause hu).trans ?_)
    unfold State.removalShown
    rw [State.rd_raiseEpoch h hq0 (KEY_PEPOCH_ne_PRT_STATE q hq).symm, State.rd_fput_ne _ _ _ hst, State.rd_setPart h hq0 hst]

theorem State.not_empty_of_inUse (hu : s.inUse p = true) : p ∈ allParts ∧ ¬ (s.partState p = 0 ∨ s.partState p = 5) := by
  simp only [State.inUse, Bool.and_eq_true, bne_iff_ne, List.contains_iff_mem] at hu
  obtain ⟨⟨hp, h0⟩, h5⟩ := hu
  exact ⟨hp, not_or.2 ⟨h0, h5⟩⟩

/-- R570: the removal of a partition in use makes it DRAINING. -/
theorem State.partState_startRemoval (hu : s.inUse p = true) (cause : Nat) : (s.startRemoval p cause).partState p = 5 := by
  obtain ⟨hp, hn⟩ := State.not_empty_of_inUse hu
  have hp0 : p ≠ 0 := Nat.ne_of_gt (pos_and_le_four_of_mem_allParts hp).1
  have h := keeperReg_PRT_STATE hp
  have hshown : (s.removalShown p cause).partState p = (s.setPart p 5 0).partState p :=
    (State.fget_of_rd (State.rd_raiseEpoch h hp0 (KEY_PEPOCH_ne_PRT_STATE p hp).symm)).trans
      (State.fget_fput_field _ _ _ _ _ (by decide) (.inl (by decide)))
  exact (State.fget_of_rd (State.rd_startRemoval h hp cause hn)).trans (hshown.trans (State.partState_setPart hp (by decide) 0))

theorem State.rn_startRemoval (hu : s.inUse p = true) (cause : Nat) :
    (s.startRemoval p cause).rn (Reg.KEY_PEPOCH p) = (s.rn (Reg.KEY_PEPOCH p) + 1) % 2 ^ 32 := by
  obtain ⟨hp, hn⟩ := State.not_empty_of_inUse hu
  have hp0 : p ≠ 0 := Nat.ne_of_gt (pos_and_le_four_of_mem_allParts hp).1
  have h := keeperReg_KEY_PEPOCH hp
  have hst := KEY_PEPOCH_ne_PRT_STATE p (q := p) hp
  refine (State.rn_of_rd (State.rd_startRemoval h hp cause hn)).trans ((State.rn_raiseEpoch hp).trans ?_)
  rw [State.rn_of_rd (State.rd_fput_ne _ _ _ hst), State.rn_of_rd (State.rd_setPart h hp0 hst ..)]

end

end Sys2Proof.Machine

/-! Layouts, admission, removal and the resets of functions: what each row of partitions leaves, and the statement settled with them
(spec, chapter 13). -/

namespace Sys2Proof.Machine
section
variable {s : State} {a n p : Nat} {r : RegReq}

/-- A pass over partitions, as `foldl_part`, where only the steps of the pass keep what holds. -/
theorem foldl_part_of_mem {g : State → Nat → State} {l : List Nat} {B A : State → Prop} (hl : l.Nodup) (hp : p ∈ l)
    (hB : ∀ t, ∀ j ∈ l, j ≠ p → B t → B (g t j)) (hstep : ∀ t, B t → A (g t p)) (hA : ∀ t, ∀ j ∈ l, j ≠ p → A t → A (g t j)) (h : B s) :
    A (l.foldl g s) := by
  have hext : l.foldl g s = l.foldl (fun t j => if j ∈ l then g t j else t) s :=
    List.foldl_ext _ _ _ fun t j hj => (if_pos hj).symm
  have hkeep {P : State → Prop} (hP : ∀ t, ∀ j ∈ l, j ≠ p → P t → P (g t j)) (t : State) (j : Nat) (hne : j ≠ p) (ht : P t) :
      P (if j ∈ l then g t j else t) := by
    split
    next hj => exact hP t j hj hne ht
    next => exact ht
  rw [hext]
  exact foldl_part hl hp (hkeep hB) (fun t ht => by rw [if_pos hp]; exact hstep t ht) (hkeep hA) h

/-! ## Functions that are reset (R570, R684) -/

theorem State.pcie_startRemoval (cause : Nat) : (s.startRemoval p cause).mse = s.mse ∧ (s.startRemoval p cause).vfs = s.vfs ∧
    (s.startRemoval p cause).crs = s.crs :=
  (State.startRemoval_kept (φ := allBut [.keys, .cores, .dmas, .regs, .ports, .lakes, .out, .seqs, .keeper, .usage, .tenancies, .wins, .ccs,
    .queues, .frozen, .dumps]) p cause (Kept.refl _ s) rfl rfl rfl rfl rfl rfl rfl rfl rfl rfl rfl rfl rfl rfl rfl rfl).pcie rfl

/-- R570: the removal of every partition. -/
def State.removeAll (s : State) (cause : Nat) : State := allParts.foldl (fun (s : State) p => s.startRemoval p cause) s

theorem State.pcie_removeAll (cause : Nat) : (s.removeAll cause).mse = s.mse ∧ (s.removeAll cause).vfs = s.vfs :=
  List.foldlRecOn (motive := fun t : State => t.mse = s.mse ∧ t.vfs = s.vfs) allParts _ ⟨rfl, rfl⟩ fun t ⟨hm, hv⟩ q _ => by
    obtain ⟨hmse, hvfs, -⟩ := t.pcie_startRemoval (p := q) cause
    exact ⟨hmse.trans hm, hvfs.trans hv⟩

theorem State.inUse_startRemoval_ne {q : Nat} (hp : p ∈ allParts) (hq : q ∈ allParts) (hne : q ≠ p) (cause : Nat)
    (h : s.inUse p = true) : (s.startRemoval q cause).inUse p = true := by
  unfold State.inUse
  rw [State.partState_startRemoval_ne hp hq hne]
  exact h

theorem State.partState_removeAll (cause : Nat) (h : s.inUse p = true) : (s.removeAll cause).partState p = 5 := by
  have hp := (State.not_empty_of_inUse h).1
  exact foldl_part_of_mem (B := fun t => t.inUse p = true) (A := fun t => t.partState p = 5) allParts_nodup hp
    (fun _ _ hj hne => State.inUse_startRemoval_ne hp hj hne cause) (fun _ ht => State.partState_startRemoval ht cause)
    (fun _ _ hj hne ht => (State.partState_startRemoval_ne hp hj hne cause).trans ht) h

theorem vfEnableClear_gives : Gives .vfEnableClear s fun t => t.vfs = 0 ∧ ∀ p, s.inUse p = true → t.partState p = 5 :=
  ⟨_, rfl, (State.pcie_removeAll (s := { s with vfs := 0 }) 6).2, fun _ h => State.partState_removeAll (s := { s with vfs := 0 }) 6 h⟩

theorem functionLevelReset_pf0_gives : Gives (.functionLevelReset 0) s fun t =>
    t.mse = false ∧ t.vfs = 0 ∧ ∀ p, s.inUse p = true → t.partState p = 5 := by
  obtain ⟨hm, hv⟩ := State.pcie_removeAll (s := { s with mse := false, vfs := 0 }) 6
  exact ⟨_, rfl, hm, hv, fun _ h => State.partState_removeAll (s := { s with mse := false, vfs := 0 }) 6 h⟩

theorem bitOf_or_two_pow (x k : Nat) : bitOf (x ||| 2 ^ k) k = true := by
  rw [bitOf_eq, Nat.testBit_or, Nat.testBit_two_pow_self, Bool.or_true]

/-- R684: a VF that is reset answers with CRS until its removal ends. -/
theorem functionLevelReset_vf_gives (h : s.inUse p = true) : Gives (.functionLevelReset p) s fun t =>
    t.partState p = 5 ∧ bitOf t.crs (8 + p) = true := by
  obtain ⟨hp, hn⟩ := State.not_empty_of_inUse h
  have hp0 : ¬ p = 0 := Nat.ne_of_gt (pos_and_le_four_of_mem_allParts hp).1
  have hrem : ¬ s.removable [p] = [] := by
    simp only [State.removable, List.filter_eq_nil_iff, List.mem_singleton, forall_eq, Bool.and_eq_true, bne_iff_ne]
    exact fun e => e (not_or.1 hn)
  refine ⟨_, rfl, ?_⟩
  unfold State.flr
  rw [if_neg hp0, if_neg hrem]
  exact ⟨State.partState_startRemoval h 5, bitOf_or_two_pow ..⟩

/-! ## The notice of a peer's removal (R573) -/

theorem State.bitOf_setBits {k : Nat} (hk : k < 32) : bitOf ((s.setBits a (2 ^ k)).rn a) k = true := by
  have hrd : (s.setBits a (2 ^ k)).rn a = (s.rd a).toNat ||| 2 ^ k := by
    rw [State.rn, State.setBits, State.rd_wr, BitVec.toNat_or, BitVec.toNat_ofNat, Nat.mod_eq_of_lt (Nat.pow_lt_pow_right (by decide) hk)]
  rw [hrd, bitOf_or_two_pow]

/-- R573: what the notice does to the binding of partition `m`, where it is bound to `peer`. -/
def State.bindingLost (s : State) (n peer m : Nat) : State :=
  let b := Reg.LL_BIND n m
  if s.flag b Fld.LL_BIND_VALID ∧ s.fget b Fld.LL_BIND_PEER_END = peer then
    let s1 := (s.fput b Fld.LL_BIND_VALID 0).setBits (Reg.TKEY_PEER_LOST m) (2 ^ n)
    if s1.flag (Reg.TKEY_PEER_LOST_EN m) Fld.TKEY_PEER_LOST_EN_EN then s1.emit (.msix m 6) else s1
  else s

theorem State.rd_bindingLost {peer m : Nat} (h : a ≠ Reg.LL_BIND n m) (h' : a ≠ Reg.TKEY_PEER_LOST m) :
    (s.bindingLost n peer m).rd a = s.rd a := by
  unfold State.bindingLost
  dsimp only
  split
  · rw [State.rd_emit_if, State.rd_setBits_ne _ h', State.rd_fput_ne _ _ _ h]
  · rfl

/-- R573: the binding ends, and the tenant is told. -/
theorem State.bindingLost_shows {peer m : Nat} (hn : n < 16) (hm : m ∈ allParts) (hv : s.flag (Reg.LL_BIND n m) Fld.LL_BIND_VALID = true)
    (hpeer : s.fget (Reg.LL_BIND n m) Fld.LL_BIND_PEER_END = peer) :
    (s.bindingLost n peer m).flag (Reg.LL_BIND n m) Fld.LL_BIND_VALID = false ∧
      bitOf ((s.bindingLost n peer m).rn (Reg.TKEY_PEER_LOST m)) n = true := by
  have hm4 := pos_and_le_four_of_mem_allParts hm
  have hne : Reg.LL_BIND n m ≠ Reg.TKEY_PEER_LOST m := by unfold Reg.LL_BIND Reg.TKEY_PEER_LOST vf; omega
  unfold State.bindingLost
  dsimp only
  rw [if_pos ⟨hv, hpeer⟩]
  constructor
  · rw [State.flag_of_rd ((State.rd_emit_if ..).trans (State.rd_setBits_ne _ hne)), State.flag, State.fget_fput _ _ _ _ (by decide)]
    rfl
  · rw [State.rn_of_rd (State.rd_emit_if ..)]
    exact State.bitOf_setBits (by omega)

theorem partitionRemovedNotice_gives {peer m : Nat} (hn : n < 16) (hm : m ∈ allParts) (hv : s.flag (Reg.LL_BIND n m) Fld.LL_BIND_VALID = true)
    (hpeer : s.fget (Reg.LL_BIND n m) Fld.LL_BIND_PEER_END = peer) : Gives (.partitionRemovedNotice n peer) s fun t =>
      t.flag (Reg.LL_BIND n m) Fld.LL_BIND_VALID = false ∧ bitOf (t.rn (Reg.TKEY_PEER_LOST m)) n = true := by
  have hm4 := pos_and_le_four_of_mem_allParts hm
  have hbind (t : State) (j : Nat) (hj : j ∈ allParts) (hne : j ≠ m) : (t.bindingLost n peer j).rd (Reg.LL_BIND n m) = t.rd (Reg.LL_BIND n m) := by
    have hj4 := pos_and_le_four_of_mem_allParts hj
    exact State.rd_bindingLost (by unfold Reg.LL_BIND; omega) (by unfold Reg.LL_BIND Reg.TKEY_PEER_LOST vf; omega)
  have hlost (t : State) (j : Nat) (hj : j ∈ allParts) (hne : j ≠ m) :
      (t.bindingLost n peer j).rd (Reg.TKEY_PEER_LOST m) = t.rd (Reg.TKEY_PEER_LOST m) := by
    have hj4 := pos_and_le_four_of_mem_allParts hj
    exact State.rd_bindingLost (by unfold Reg.LL_BIND Reg.TKEY_PEER_LOST vf; omega) (by unfold Reg.TKEY_PEER_LOST vf; omega)
  exact ⟨_, rfl, foldl_part_of_mem (g := fun t j => t.bindingLost n peer j)
    (B := fun t => t.flag (Reg.LL_BIND n m) Fld.LL_BIND_VALID = true ∧ t.fget (Reg.LL_BIND n m) Fld.LL_BIND_PEER_END = peer)
    (A := fun t => t.flag (Reg.LL_BIND n m) Fld.LL_BIND_VALID = false ∧ bitOf (t.rn (Reg.TKEY_PEER_LOST m)) n = true) allParts_nodup hm
    (fun t j hj hne ⟨hv, hpeer⟩ => ⟨(State.flag_of_rd (hbind t j hj hne)).trans hv, (State.fget_of_rd (hbind t j hj hne)).trans hpeer⟩)
    (fun _ ⟨hv, hpeer⟩ => State.bindingLost_shows hn hm hv hpeer)
    (fun t j hj hne ⟨hv, hbit⟩ => ⟨(State.flag_of_rd (hbind t j hj hne)).trans hv, by rw [State.rn_of_rd (hlost t j hj hne), hbit]⟩)
    ⟨hv, hpeer⟩⟩

/-! ## A layout (R490, R558 to R560) -/

theorem State.rd_showShare (h : keeperReg a) (hp : p ≠ 0) : (s.showShare p).rd a = s.rd a := by
  unfold State.showShare
  dsimp only
  rw [State.rd_wr_ne _ _ (show a ≠ Reg.COL_DYN_STAT p from h.ne_vf hp _), State.rd_fput_ne _ _ _ (show a ≠ Reg.SEQ_ISRAM p from h.ne_vf hp _),
    State.rd_fput_ne _ _ _ (show a ≠ Reg.FEN_COUNT p from h.ne_vf hp _)]

/-- R490, R558: a layout of `n` partitions gives partition `p` its share, and a new epoch. -/
def State.sharePut (s : State) (n p : Nat) : State := (s.raiseEpoch p).wr (Reg.PRT_MAP p) (mapWord n p)

theorem State.rd_sharePut (h : keeperReg a) (hp : p ≠ 0) (hep : a ≠ Reg.KEY_PEPOCH p) (hmap : a ≠ Reg.PRT_MAP p) :
    (s.sharePut n p).rd a = s.rd a := by
  unfold State.sharePut
  rw [State.rd_wr_ne _ _ hmap, State.rd_raiseEpoch h hp hep]

theorem State.rn_sharePut (hp : p ∈ allParts) : (s.sharePut n p).rn (Reg.KEY_PEPOCH p) = (s.rn (Reg.KEY_PEPOCH p) + 1) % 2 ^ 32 := by
  have := pos_and_le_four_of_mem_allParts hp
  unfold State.sharePut
  rw [State.rn_of_rd (State.rd_wr_ne _ _ (by unfold Reg.KEY_PEPOCH Reg.PRT_MAP; omega)), State.rn_raiseEpoch hp]

theorem State.sharesPut (hp : p ∈ allParts) : (allParts.foldl (fun (s : State) p => s.sharePut n p) s).rd (Reg.PRT_MAP p) = mapWord n p ∧
    (allParts.foldl (fun (s : State) p => s.sharePut n p) s).rn (Reg.KEY_PEPOCH p) = (s.rn (Reg.KEY_PEPOCH p) + 1) % 2 ^ 32 := by
  have hp4 := pos_and_le_four_of_mem_allParts hp
  have hother (t : State) (j : Nat) (hj : j ∈ allParts) (hne : j ≠ p) :
      (t.sharePut n j).rd (Reg.PRT_MAP p) = t.rd (Reg.PRT_MAP p) ∧ (t.sharePut n j).rd (Reg.KEY_PEPOCH p) = t.rd (Reg.KEY_PEPOCH p) := by
    have hj4 := pos_and_le_four_of_mem_allParts hj
    constructor
    · exact State.rd_sharePut (keeperReg_PRT_MAP hp) (by omega) (by unfold Reg.PRT_MAP Reg.KEY_PEPOCH; omega) (by unfold Reg.PRT_MAP; omega)
    · exact State.rd_sharePut (keeperReg_KEY_PEPOCH hp) (by omega) (by unfold Reg.KEY_PEPOCH; omega)
        (by unfold Reg.PRT_MAP Reg.KEY_PEPOCH; omega)
  exact foldl_part_of_mem (B := fun t => t.rn (Reg.KEY_PEPOCH p) = s.rn (Reg.KEY_PEPOCH p))
    (A := fun t => t.rd (Reg.PRT_MAP p) = mapWord n p ∧ t.rn (Reg.KEY_PEPOCH p) = (s.rn (Reg.KEY_PEPOCH p) + 1) % 2 ^ 32) allParts_nodup hp
    (fun t j hj hne ht => (State.rn_of_rd (hother t j hj hne).2).trans ht)
    (fun t ht => ⟨State.rd_wr .., by rw [State.rn_sharePut hp, ht]⟩)
    (fun t j hj hne ⟨hmap, hep⟩ => ⟨(hother t j hj hne).1.trans hmap, (State.rn_of_rd (hother t j hj hne).2).trans hep⟩) rfl

/-- R560, steps 1 and 2. -/
def State.layoutPut (s : State) (n : Nat) : State :=
  allParts.foldl (fun (s : State) p => s.sharePut n p) (s.fput Reg.PRT_LAYOUT Fld.PRT_LAYOUT_PARTS n)

/-- What follows the shares of a layout leaves the states, shares and epochs alone. -/
theorem State.rd_layoutW {v : Word} (h : keeperReg a) (hall : ∀ p ∈ allParts, s.partState p = 0)
    (hn : Fld.PRT_LAYOUT_PARTS.get v = n) (hn' : n = 1 ∨ n = 2 ∨ n = 4) : (s.layoutW v).rd a = (s.layoutPut n).rd a := by
  have hempty : ¬ (!(allParts.all fun p => s.partState p == 0)) = true :=
    not_not_of_eq_true (List.all_eq_true.2 fun p hp => beq_iff_eq.2 (hall p hp))
  unfold State.layoutW
  dsimp only
  rw [if_neg hempty, hn, if_pos hn']
  have hslot (t : State) (port : Nat) (hport : port ∈ List.range 16) :
      ((List.range 9).foldl (fun (s : State) w => s.wn (Reg.LL_SLOT port w) (slotWord n w)) t).rd a = t.rd a := by
    refine State.rd_foldl_of_mem fun t w hw => State.rd_wn_ne _ ?_
    have := List.mem_range.1 hw
    have := List.mem_range.1 hport
    unfold keeperReg at h
    unfold Reg.LL_SLOT
    omega
  rw [State.rd_foldl_of_mem hslot,
    State.rd_foldl_of_mem fun t p hp => State.rd_showShare h (Nat.ne_of_gt (pos_and_le_four_of_mem_allParts hp).1),
    State.rd_foldl_of_mem fun t p hp => State.rd_dropBindings h hp, State.rd_foldl fun t p => State.rd_dropStale]
  rfl

theorem layoutWrite_gives {v : Word} (hg : s.grants r Reg.PRT_LAYOUT = true) (hall : ∀ p ∈ allParts, s.partState p = 0)
    (hn : Fld.PRT_LAYOUT_PARTS.get v = n) (hn' : n = 1 ∨ n = 2 ∨ n = 4) : Gives (.layoutWrite r v) s fun t =>
      t.parts = n ∧ ∀ p ∈ allParts, t.rd (Reg.PRT_MAP p) = mapWord n p ∧
        t.rn (Reg.KEY_PEPOCH p) = (s.rn (Reg.KEY_PEPOCH p) + 1) % 2 ^ 32 := by
  refine ⟨_, rfl, ?_⟩
  rw [State.write_of_grants _ hg]
  constructor
  · have hput : (s.layoutPut n).rd Reg.PRT_LAYOUT = (s.fput Reg.PRT_LAYOUT Fld.PRT_LAYOUT_PARTS n).rd Reg.PRT_LAYOUT :=
      State.rd_foldl_of_mem fun t p hp => by
        have hp4 := pos_and_le_four_of_mem_allParts hp
        exact State.rd_sharePut keeperReg_PRT_LAYOUT (by omega) (by unfold Reg.PRT_LAYOUT Reg.KEY_PEPOCH; omega)
          (by unfold Reg.PRT_LAYOUT Reg.PRT_MAP; omega)
    refine (State.fget_of_rd ((State.rd_layoutW keeperReg_PRT_LAYOUT hall hn hn').trans hput)).trans ?_
    rw [State.fget_fput _ _ _ _ (by decide)]
    rcases hn' with rfl | rfl | rfl <;> rfl
  · intro p hp
    obtain ⟨hmap, hep⟩ := State.sharesPut (s := s.fput Reg.PRT_LAYOUT Fld.PRT_LAYOUT_PARTS n) (n := n) hp
    have hlay : (s.fput Reg.PRT_LAYOUT Fld.PRT_LAYOUT_PARTS n).rd (Reg.KEY_PEPOCH p) = s.rd (Reg.KEY_PEPOCH p) := by
      have := pos_and_le_four_of_mem_allParts hp
      exact State.rd_fput_ne _ _ _ (by unfold Reg.KEY_PEPOCH Reg.PRT_LAYOUT; omega)
    refine ⟨(State.rd_layoutW (keeperReg_PRT_MAP hp) hall hn hn').trans hmap, ?_⟩
    rw [State.rn_of_rd (State.rd_layoutW (keeperReg_KEY_PEPOCH hp) hall hn hn')]
    exact hep.trans (by rw [State.rn_of_rd hlay])

/-! ## Admission and removal (R564, R571) -/

/-- R757: the close of a meter period is no change of a partition. -/
theorem State.rd_tenancyClose (h : keeperReg a) : s.tenancyClose.rd a = s.rd a := by
  have hne {b : Nat} (hb : 0x900000 ≤ b) : a ≠ b := by
    unfold keeperReg at h
    omega
  unfold State.tenancyClose State.meterClose
  split
  · split
    · rfl
    · refine (State.rd_platEvent (s := State.fput _ _ _ _) _ _ (by unfold keeperReg at h; unfold Reg.MGT_INT_STATUS; omega)).trans ?_
      rw [State.rd_fput_ne _ _ _ (hne (by decide)), State.rd_wn_ne _ (hne (by decide))]
      rfl
  · rfl

theorem assign_gives (hp : p ∈ allParts) (hg : s.grants r (Reg.PRT_CTRL p) = true)
    (hbusy : s.flag Reg.PRT_STATUS Fld.PRT_STATUS_LAYOUT_BUSY = false) (hquad : s.nquad p ≠ 0) (hst : s.partState p = 0)
    (hlcs : s.flag Reg.LCS_STAT Fld.LCS_STAT_BUSY = false) : Gives (.assign r p) s fun t => t.partState p = 1 := by
  have hok : ¬ (s.flag Reg.PRT_STATUS Fld.PRT_STATUS_LAYOUT_BUSY = true ∨ s.nquad p = 0 ∨ s.partState p ≠ 0 ∨
      s.flag Reg.LCS_STAT Fld.LCS_STAT_BUSY = true) := by
    simp [hbusy, hquad, hst, hlcs]
  refine ⟨_, rfl, ?_⟩
  rw [State.write_of_grants _ hg, State.assign, if_neg hok]
  exact (State.fget_of_rd (State.rd_tenancyClose (keeperReg_PRT_STATE hp))).trans (State.partState_setPart hp (by decide) 0)

theorem SMap.get_clear_of_mem {α : Type} (d : Nat → α) (m : SMap α) {lo hi k : Nat} (h : lo ≤ k) (h' : k < hi) :
    SMap.get d (SMap.clear m lo hi) k = d k := by
  induction m with
  | nil => rfl
  | cons e m ih =>
    unfold SMap.clear at ih ⊢
    rw [List.filter_cons]
    split
    next hkeep =>
      have hne : ¬ e.1 = k := by
        simp only [Bool.or_eq_true, decide_eq_true_eq] at hkeep
        omega
      exact (if_neg hne).trans ih
    next => exact ih

/-- What is dropped from a map is read nowhere that all of an index's entries stay. -/
theorem SMap.get_filter_of_kept {α : Type} (d : Nat → α) (m : SMap α) {f : Nat × α → Bool} {k : Nat} (h : ∀ v, f (k, v) = true) :
    SMap.get d (m.filter f) k = SMap.get d m k := by
  induction m with
  | nil => rfl
  | cons e m ih =>
    obtain ⟨j, v⟩ := e
    by_cases hj : j = k
    · subst hj
      rw [List.filter_cons_of_pos (h v)]
      simp only [SMap.get, if_true]
    · by_cases hf : f (j, v) = true
      · rw [List.filter_cons_of_pos hf]
        simp only [SMap.get, if_neg hj, ih]
      · rw [List.filter_cons_of_neg hf]
        simp only [SMap.get, if_neg hj, ih]

theorem SMap.get_clear_of_default {α : Type} (d : Nat → α) (m : SMap α) {lo hi k : Nat} (h : SMap.get d m k = d k) :
    SMap.get d (SMap.clear m lo hi) k = d k := by
  by_cases hk : lo ≤ k ∧ k < hi
  · exact SMap.get_clear_of_mem d m hk.1 hk.2
  · refine (SMap.get_filter_of_kept d m fun v => ?_).trans h
    simp only [Bool.or_eq_true, decide_eq_true_eq]
    omega

/-- R293, R688: the byte at `a` of device memory is zero. -/
def State.zeroAt (s : State) (a : Nat) : Prop := SMap.get (fun _ => 0#8) s.dram a = 0#8

theorem State.zeroAt_wipeStack (k : Nat) (h : s.zeroAt a) : (s.wipeStack k).zeroAt a := SMap.get_clear_of_default (fun _ => 0#8) s.dram h

/-- R564, R571: every byte of a partition's stacks is zero after its wipe. -/
theorem State.zeroAt_wipePart (owner : Nat) {k : Nat} (hk : k ∈ s.stacksOf p) (hlo : k * 2 ^ 37 ≤ a) (hhi : a < (k + 1) * 2 ^ 37) :
    (s.wipePart p owner).zeroAt a := by
  have hwipe : ((s.stacksOf p).foldl State.wipeStack s).zeroAt a := by
    obtain ⟨before, after, hl⟩ := List.append_of_mem hk
    rw [hl, List.foldl_append, List.foldl_cons]
    exact List.foldlRecOn (motive := fun t : State => t.zeroAt a) after _ (SMap.get_clear_of_mem (fun _ => 0#8) _ hlo hhi)
      fun t ht j _ => State.zeroAt_wipeStack j ht
  unfold State.wipePart
  exact List.foldlRecOn (motive := fun t : State => t.zeroAt a) (s.stacksOf p) _ hwipe fun t ht j _ =>
    (congrArg (fun m => SMap.get (fun _ => 0#8) m a)
      ((State.sepiaRec_kept (φ := allBut [.usage]) (unitNme j) 0x41 owner 0 (Kept.refl _ t) rfl).mem rfl)).trans ht

theorem State.vfReset_keeps (keep : Bool) : Kept (allBut [.regs, .lakes, .shadows, .seqs, .channels, .keeper, .usage, .upds, .ringAdv, .wins,
    .ccs, .queues]) s (s.vfReset p keep) :=
  State.vfReset_kept p keep (Kept.refl _ s) rfl rfl rfl rfl rfl rfl rfl rfl rfl rfl rfl rfl

theorem State.rd_setStk (k : Nat) (x : Stack) : (s.setStk k x).rd a = s.rd a := rfl

/-- R564 step 5: a VF's reset leaves PF0's registers alone. -/
theorem State.rd_vfReset (h : keeperReg a) (hp : p ≠ 0) (keep : Bool) : (s.vfReset p keep).rd a = s.rd a := by
  unfold State.vfReset
  extract_lets rng gone keeper s1 s2
  have h1 : s1.rd a = s.rd a := by
    refine SMap.get_filter_of_kept _ _ fun v => ?_
    have hlt := h.lt
    have hrng : rng 268435456 a = false := decide_eq_false (by omega)
    simp only [gone, hrng, Bool.false_and, Bool.not_false]
  have h2 : s2.rd a = s1.rd a := State.rd_foldl (fun _ _ => State.rd_setStk ..) _
  rw [State.rd_fput_ne _ _ _ (show a ≠ Reg.TKEY_PART p from h.ne_vf hp _), State.rd_fput_ne _ _ _ (show a ≠ Reg.TKEY_PART p from h.ne_vf hp _),
    State.rd_wn_ne _ (show a ≠ Reg.TKEY_PEPOCH p from h.ne_vf hp _), State.rd_showShare h hp, h2, h1]

theorem State.shares_vfReset (keep : Bool) : (s.vfReset p keep).keeper.shares = s.keeper.shares := by
  unfold State.vfReset
  extract_lets rng gone keeper s1 s2
  have h2 : Kept (allBut [.channels]) s1 s2 := kept_foldl (Kept.refl _ s1) fun t k ht => State.setStk_kept k _ ht rfl
  have h3 := State.fput_kept (φ := allBut [.regs]) (Reg.TKEY_PART p) Fld.TKEY_PART_JOINT (s.fget (Reg.PRT_STATE p) Fld.PRT_STATE_JOINT)
    (State.fput_kept (Reg.TKEY_PART p) Fld.TKEY_PART_STATE (s.partState p) (State.wn_kept (Reg.TKEY_PEPOCH p) (s.rn (Reg.KEY_PEPOCH p))
      (State.showShare_kept p (Kept.refl _ s2) rfl) rfl) rfl) rfl
  have hshares := congrArg Keeper.shares (h2.keeper rfl)
  exact (congrArg Keeper.shares (h3.keeper rfl)).trans hshares

theorem admissionComplete_gives (hp : p ∈ allParts) (hst : s.partState p = 1) (hwipe : s.wipable p = true) :
    Gives (.admissionComplete p) s fun t => t.partState p = 2 ∧
      ∀ k ∈ s.stacksOf p, ∀ a, k * 2 ^ 37 ≤ a → a < (k + 1) * 2 ^ 37 → SMap.get (fun _ => 0#8) t.dram a = 0#8 := by
  have hrun : ¬ (s.partState p ≠ 1 ∨ (!s.wipable p) = true) := by simp [hst, hwipe]
  refine ⟨_, rfl, ?_⟩
  unfold State.admitted'
  rw [if_neg hrun]
  refine ⟨(State.fget_of_rd (State.rd_irqPrt_keeper (keeperReg_PRT_STATE hp) ..)).trans (State.partState_setPart hp (by decide) 0),
    fun k hk a hlo hhi => ?_⟩
  have hmem : (((((s.wipePart p 0).vfReset p false).setPart p 2 0).irqPrt 4 p)).dram = (s.wipePart p 0).dram :=
    (State.irqPrt_kept (φ := allBut [.regs, .out]) 4 p (State.setPart_kept p 2 0 (Kept.refl _ _) rfl) rfl rfl).mem rfl |>.trans
      ((State.vfReset_keeps false).mem rfl)
  rw [hmem]
  exact State.zeroAt_wipePart 0 hk hlo hhi

theorem State.rd_setTenancy (x : Tenancy) : (s.setTenancy p x).rd a = s.rd a := rfl

/-- R571: the keeper holds no shares and no exchange of a partition. -/
def State.tenantForgotten (s : State) (p : Nat) : State :=
  { s with keeper := { s.keeper with
      shares := s.keeper.shares.filter fun (x : Share) => x.part != p
      mordant := s.keeper.mordant.filter fun (x : Mordant) => x.part != p } }

theorem State.rd_tenantForgotten : (s.tenantForgotten p).rd a = s.rd a := rfl
theorem State.dram_tenantForgotten : (s.tenantForgotten p).dram = s.dram := rfl

/-- R571 step 10: what follows the wipe `x` of a removal that began in `s`, but for CRS. -/
def State.removalEnded (s x : State) (p : Nat) : State :=
  (((((x.tenantForgotten p).vfReset p true).irqPrt 0 p).fput (Reg.PRT_RM_TIME p) Fld.PRT_RM_TIME_US
    ((s.now - (s.tenancy p).rmAt) / 100)).setTenancy p {}).tenancyClose

theorem State.rd_removalEnded (x : State) (h : keeperReg a) (hp : p ≠ 0) : (s.removalEnded x p).rd a = x.rd a := by
  have htime : a ≠ Reg.PRT_RM_TIME p := by unfold keeperReg at h; unfold Reg.PRT_RM_TIME; omega
  unfold State.removalEnded
  rw [State.rd_tenancyClose h, State.rd_setTenancy, State.rd_fput_ne _ _ _ htime, State.rd_irqPrt_keeper h, State.rd_vfReset h hp,
    State.rd_tenantForgotten]

theorem State.removalEnded_keeps (x : State) :
    Kept (allBut [.regs, .mtr, .out, .usage, .events, .tenancies]) ((x.tenantForgotten p).vfReset p true) (s.removalEnded x p) :=
  State.tenancyClose_kept (State.setTenancy_kept p _ (State.fput_kept _ _ _ (State.irqPrt_kept 0 p (Kept.refl _ _) rfl rfl) rfl) rfl)
    rfl rfl rfl rfl rfl

theorem State.shares_removalEnded (x : State) : (s.removalEnded x p).keeper.shares = x.keeper.shares.filter fun (y : Share) => y.part != p :=
  (congrArg Keeper.shares ((State.removalEnded_keeps x).keeper rfl)).trans ((State.shares_vfReset true).trans rfl)

theorem State.dram_removalEnded (x : State) : (s.removalEnded x p).dram = x.dram := by
  rw [(State.removalEnded_keeps x).mem rfl, (State.vfReset_keeps true).mem rfl, State.dram_tenantForgotten]

/-- R571 step 9: the wipe of a removal shows the partition EMPTY. -/
def State.removalWiped (s : State) (p : Nat) : State := ((s.wipePart p p).setJoint p 0).setPart p 0 0

theorem State.dram_removalWiped : (s.removalWiped p).dram = (s.wipePart p p).dram :=
  (State.setPart_kept (φ := allBut [.regs]) p 0 0 (State.setJoint_kept p 0 (Kept.refl _ (s.wipePart p p)) rfl) rfl).mem rfl

theorem State.partState_removalWiped (hp : p ∈ allParts) : (s.removalWiped p).partState p = 0 := by
  unfold State.removalWiped
  exact State.partState_setPart hp (by decide) 0

/-- R684: what answers with CRS. -/
def State.withCrs (s : State) (crs : Nat) : State := { s with crs := crs }

theorem State.partState_withCrs (crs : Nat) : (s.withCrs crs).partState p = s.partState p := rfl
theorem State.keeper_withCrs (crs : Nat) : (s.withCrs crs).keeper = s.keeper := rfl
theorem State.dram_withCrs (crs : Nat) : (s.withCrs crs).dram = s.dram := rfl

theorem State.removalDone_eq (hst : s.partState p = 5) (hwipe : s.wipable p = true) : ∃ crs,
    s.removalDone p = (s.removalEnded (s.removalWiped p) p).withCrs crs :=
  ⟨_, (if_neg (not_not.2 hst)).trans (if_neg (not_not_of_eq_true hwipe))⟩

theorem removalComplete_gives (hp : p ∈ allParts) (hst : s.partState p = 5) (hwipe : s.wipable p = true) :
    Gives (.removalComplete p) s fun t => t.partState p = 0 ∧ (∀ x ∈ t.keeper.shares, x.part ≠ p) ∧
      ∀ k ∈ s.stacksOf p, ∀ a, k * 2 ^ 37 ≤ a → a < (k + 1) * 2 ^ 37 → SMap.get (fun _ => 0#8) t.dram a = 0#8 := by
  have hp0 : p ≠ 0 := Nat.ne_of_gt (pos_and_le_four_of_mem_allParts hp).1
  obtain ⟨crs, hrun⟩ := State.removalDone_eq hst hwipe
  refine ⟨_, congrArg Host.Outcome.next hrun, ?_, fun x hx => ?_, fun k hk a hlo hhi => ?_⟩
  · rw [State.partState_withCrs]
    exact (State.fget_of_rd (State.rd_removalEnded _ (keeperReg_PRT_STATE hp) hp0)).trans (State.partState_removalWiped hp)
  · rw [State.keeper_withCrs, State.shares_removalEnded] at hx
    exact bne_iff_ne.1 (List.mem_filter.1 hx).2
  · rw [State.dram_withCrs, State.dram_removalEnded, State.dram_removalWiped]
    exact State.zeroAt_wipePart p hk hlo hhi

end

/-- Settles O55, row by row. As log entry 25 says, the write of a layout performs steps 1 to 3 of R560 at once, and a VF answers with CRS
from its reset until its removal ends. -/
theorem partitionRowsComplete : Obligations.PartitionRowsComplete :=
  ⟨fun _ _ _ hg hall hn => layoutWrite_gives hg hall rfl hn,
    fun _ _ _ hp hg hbusy hquad hst hlcs => assign_gives hp hg hbusy hquad hst hlcs,
    fun _ _ hp hst hwipe => admissionComplete_gives hp hst hwipe,
    fun _ _ hp hst hwipe => removalComplete_gives hp hst hwipe,
    fun _ _ _ _ hn hm hv hpeer => partitionRemovedNotice_gives hn hm hv hpeer,
    fun _ => functionLevelReset_pf0_gives,
    fun _ _ h => functionLevelReset_vf_gives h,
    fun _ => vfEnableClear_gives⟩

end Sys2Proof.Machine

/-! The messages of SPDM and TDISP: what the keeper answers each with and what it leaves, and the statement settled with them (spec,
chapters 11 and 13). -/

namespace Sys2Proof.Machine

section
variable {s : State} {a n p : Nat}

/-! ## Messages that the keeper answers (R563, R692) -/

theorem State.doe_of_answersDoe {fn : Nat} (f : State → State) (h : s.answersDoe fn = true) : s.doe fn f = f s := by
  simp only [State.answersDoe, Bool.and_eq_true, Bool.or_eq_true, beq_iff_eq] at h
  obtain ⟨hstage, hst⟩ := h
  unfold State.doe
  dsimp only
  rw [if_neg (by rintro ⟨h3, h4⟩; exact hstage.elim h3 h4), if_pos (by omega)]

theorem State.rd_tdisp (fn code : Nat) (v : List Byte) : (s.tdisp fn code v).rd a = s.rd a := rfl
theorem State.out_tdisp (fn code : Nat) (v : List Byte) : (s.tdisp fn code v).out = .message fn 3 code v :: s.out := rfl
theorem State.tenancy_tdisp (fn code : Nat) (v : List Byte) (p : Nat) : (s.tdisp fn code v).tenancy p = s.tenancy p := rfl
theorem State.tenancy_setTenancy (x : Tenancy) : (s.setTenancy p x).tenancy p = x := SMap.get_set_same ..

theorem State.out_setPart (st tdi : Nat) : (s.setPart p st tdi).out = s.out :=
  (State.setPart_kept (φ := allBut [.regs]) p st tdi (Kept.refl _ s) rfl).out rfl
theorem State.out_setTenancy (x : Tenancy) : (s.setTenancy p x).out = s.out := rfl
theorem State.out_draw : s.draw.1.out = s.out := rfl

theorem State.partState_of_rd {t : State} (h : t.rd (Reg.PRT_STATE p) = s.rd (Reg.PRT_STATE p)) : t.partState p = s.partState p :=
  State.fget_of_rd h

/-! ## The interface of a tenant (R565, R566, R570) -/

/-- R565: what LOCK_INTERFACE_REQUEST leaves, with the nonce drawn. -/
def State.locked (s : State) (p : Nat) : State :=
  ((s.draw.1.setPart p 3 1).setTenancy p { s.draw.1.tenancy p with nonce := s.draw.2.take 32 }).tdisp p 3 (s.draw.2.take 32)

theorem State.rd_locked : (s.locked p).rd a = (s.draw.1.setPart p 3 1).rd a := (State.rd_tdisp ..).trans (State.rd_setTenancy _)

theorem State.out_locked : (s.locked p).out = .message p 3 3 (s.draw.2.take 32) :: s.out := by
  unfold State.locked
  rw [State.out_tdisp, State.out_setTenancy, State.out_setPart, State.out_draw]

theorem State.nonce_locked : ((s.locked p).tenancy p).nonce = s.draw.2.take 32 := by
  unfold State.locked
  rw [State.tenancy_tdisp, State.tenancy_setTenancy]

theorem lockInterface_gives (hp : p ∈ allParts) (hdoe : s.answersDoe p = true) (hlock : s.lockOk p = true) (hent : s.entropy = true) :
    Gives (.lockInterfaceRequest p) s fun t => t.partState p = 3 ∧ t.fget (Reg.PRT_STATE p) Fld.PRT_STATE_TDI = 1 ∧
      (t.tenancy p).nonce = s.draw.2.take 32 ∧ t.out = .message p 3 3 (s.draw.2.take 32) :: s.out := by
  have hrun : s.lockIfc p = s.locked p :=
    (State.doe_of_answersDoe _ hdoe).trans ((if_neg (not_not_of_eq_true hlock)).trans (if_neg (not_not_of_eq_true hent)))
  refine ⟨_, congrArg Host.Outcome.next hrun, ?_, ?_, State.nonce_locked, State.out_locked⟩
  · exact (State.partState_of_rd State.rd_locked).trans (State.partState_setPart hp (by decide) 1)
  · exact (State.fget_of_rd State.rd_locked).trans (State.tdi_setPart hp 3 (by decide))

/-- R566: what START_INTERFACE_REQUEST leaves. -/
def State.started (s : State) (p : Nat) : State :=
  (((s.setPart p 4 2).setTenancy p { s.tenancy p with nonce := [] }).irqPrt 8 p).tdisp p 6 []

theorem State.rd_started (h : keeperReg a) : (s.started p).rd a = (s.setPart p 4 2).rd a := by
  unfold State.started
  rw [State.rd_tdisp, State.rd_irqPrt_keeper h, State.rd_setTenancy]

theorem startInterface_gives {nonce : List Byte} (hp : p ∈ allParts) (hdoe : s.answersDoe p = true) (hst : s.partState p = 3)
    (hnonce : nonce = (s.tenancy p).nonce) : Gives (.startInterfaceRequest p nonce) s fun t =>
      t.partState p = 4 ∧ t.fget (Reg.PRT_STATE p) Fld.PRT_STATE_TDI = 2 ∧ t.out.head? = some (.message p 3 6 []) := by
  have hrun : s.startIfc p nonce = s.started p :=
    (State.doe_of_answersDoe _ hdoe).trans ((if_neg (not_not.2 hst)).trans (if_neg (not_not.2 hnonce)))
  have hrd := State.rd_started (s := s) (p := p) (keeperReg_PRT_STATE hp)
  refine ⟨_, congrArg Host.Outcome.next hrun, ?_, ?_, ?_⟩
  · exact (State.partState_of_rd hrd).trans (State.partState_setPart hp (by decide) 2)
  · exact (State.fget_of_rd hrd).trans (State.tdi_setPart hp 4 (by decide))
  · exact congrArg List.head? (State.out_tdisp p 6 [])

theorem stopInterface_gives (hdoe : s.answersDoe p = true) (hu : s.inUse p = true) : Gives (.stopInterfaceRequest p) s fun t =>
    t.partState p = 5 ∧ t.out.head? = some (.message p 3 7 []) := by
  refine ⟨_, congrArg Host.Outcome.next (State.doe_of_answersDoe _ hdoe), ?_, congrArg List.head? (State.out_tdisp p 7 [])⟩
  exact (State.partState_of_rd (State.rd_tdisp ..)).trans (State.partState_startRemoval hu 4)

theorem interfaceReport_gives (hdoe : s.answersDoe p = true) (hst : s.partState p = 3 ∨ s.partState p = 4) :
    Gives (.getDeviceInterfaceReport p) s fun t =>
      t = s.emit (.message p 3 4 (leBytes 1 0 ++ leBytes 8 16777216 ++ leBytes 1 2 ++ leBytes 8 (s.memSize p) ++ leBytes 2 8)) :=
  ⟨_, congrArg Host.Outcome.next (State.doe_of_answersDoe _ hdoe), if_pos hst⟩

/-! ## Attestation (R512 to R515, R567) -/

theorem getMeasurements_gives {fn idx : Nat} {sig : Bool} {tr : List Byte} (hdoe : s.answersDoe fn = true) (hid : s.identOk = true)
    (hroot : s.rootOk = true) (h1 : 1 ≤ idx) (h8 : idx ≤ 8) : Gives (.getMeasurements fn idx sig tr) s fun t =>
      let v := s.measure fn idx
      t = s.emit (.message fn 1 0x60 ((leBytes 1 idx ++ leBytes 1 (if idx ≤ 5 then 0 else 1) ++ leBytes 2 v.length ++ v) ++
        if sig then (s.aliasSigs tr).1 ++ (s.aliasSigs tr).2 else [])) := by
  have hok : ¬ ((!s.identOk) = true ∨ (!s.rootOk) = true) := by simp [hid, hroot]
  refine ⟨_, congrArg Host.Outcome.next (State.doe_of_answersDoe _ hdoe), ?_⟩
  dsimp only
  rw [if_neg hok, if_neg (by omega : ¬ idx = 0xFF), if_pos (⟨h1, h8⟩ : 1 ≤ idx ∧ idx ≤ 8), if_neg (by omega : ¬ idx = 0), if_neg (by simp),
    List.flatMap_singleton]
  rfl

theorem getCertificate_gives {fn slot : Nat} (hdoe : s.answersDoe fn = true) (hid : s.identOk = true) (hroot : s.rootOk = true)
    (hslot : slot ≤ 1) : Gives (.getCertificate fn slot) s fun t => ∃ chain, t = s.emit (.message fn 1 0x02 chain) ∧
      Config.certificate slot 0 [] <+: chain := by
  have hok : ¬ ((!s.identOk) = true ∨ (!s.rootOk) = true ∨ 1 < slot) := by
    simp only [hid, hroot, Bool.not_true, Bool.false_eq_true, false_or]
    omega
  exact ⟨_, congrArg Host.Outcome.next (State.doe_of_answersDoe _ hdoe), _, if_neg hok, List.prefix_append _ _⟩

/-! ## Sessions (R514, R577, R582) -/

theorem keyExchange_gives {fn id : Nat} {secret cert : List Byte} (hdoe : s.answersDoe fn = true) (hid : s.identOk = true)
    (hroot : s.rootOk = true) (hent : s.entropy = true)
    (hnew : (s.keeper.sessions.filter fun (x : Session) => x.part == fn).any (fun x => x.id == id) = false)
    (hlen : fn = 0 ∨ (s.keeper.sessions.filter fun (x : Session) => x.part == fn).length < 8) :
    Gives (.keyExchange fn id true secret cert) s fun t =>
      t.keeper.sessions = s.keeper.sessions ++ [⟨fn, id, secret, cert⟩] ∧ t.keeper.draws = s.keeper.draws + 1 ∧
        t.out = .message fn 1 0x64 (leBytes 4 id) :: s.out := by
  refine ⟨_, congrArg Host.Outcome.next (State.doe_of_answersDoe _ hdoe), ?_⟩
  dsimp only
  rw [if_neg (by simp only [hid, hroot, hent, hnew]; decide), if_neg (by omega)]
  exact ⟨rfl, rfl, rfl⟩

theorem mordantReport_gives {id : Nat} (hdoe : s.answersDoe p = true) (hroot : s.rootOk = true)
    (hses : s.keeper.sessions.any (fun (x : Session) => x.part == p && x.id == id) = true) : Gives (.mordantReport p id) s fun t =>
      ∃ v, t = s.emit (.message p 1 0x7E v) ∧ sliceB (s.mordantOf p).job 0 32 <+: v := by
  refine ⟨_, congrArg Host.Outcome.next (State.doe_of_answersDoe _ hdoe), ?_⟩
  dsimp only
  rw [if_neg (by simp only [hses, hroot]; decide)]
  refine ⟨_, rfl, ?_⟩
  simp only [List.append_assoc]
  exact List.prefix_append _ _

end

/-- Settles O56, row by row. The codes of the messages (3, 4, 6, 7, 0x60, 0x02, 0x64 and 0x7E) and the form of the interface report are log
entry 24's. -/
theorem messageRowsComplete : Obligations.MessageRowsComplete :=
  ⟨fun _ _ hp hdoe hlock hent => lockInterface_gives hp hdoe hlock hent,
    fun _ _ _ hp hdoe hst hnonce => startInterface_gives hp hdoe hst hnonce,
    fun _ _ hdoe hu => stopInterface_gives hdoe hu,
    fun _ _ hdoe hst => interfaceReport_gives hdoe hst,
    fun _ _ _ _ _ hdoe hid hroot h1 h8 => getMeasurements_gives hdoe hid hroot h1 h8,
    fun _ _ _ hdoe hid hroot hslot => getCertificate_gives hdoe hid hroot hslot,
    fun _ _ _ _ _ hdoe hid hroot hent hnew hlen => keyExchange_gives hdoe hid hroot hent hnew hlen,
    fun _ _ _ hdoe hroot hses => mordantReport_gives hdoe hroot hses⟩

end Sys2Proof.Machine

/-! The keeper's mailboxes, its reports, PART_REVOKE and the interposer keys: what the end of each shows, and the statement settled with
them (spec, chapter 11). -/

namespace Sys2Proof.Machine

section
variable {s : State} {c : MailCmd} {a n : Nat}

/-! ## What the end of a command shows (R517) -/

/-- A command that is served when it is due, and ends in a state in which a property holds. -/
theorem serves_of_run {i : Instr} {code : Nat} {P : State → Prop} {f : State → MailCmd → State × Nat × List Byte}
    (hi : exec i s = .next (s.serve code f))
    (hf : ∃ t res, f (s.taken c) c = (t, 0, res) ∧ (c.code = code → P (t.mailDone c 0 res))) : Serves i s code c P := by
  intro h
  obtain ⟨t, res, hrun, hP⟩ := hf
  have hcode : c.code = code := by
    simp only [State.mailDue, Bool.and_eq_true, beq_iff_eq] at h
    exact h.1.1.2
  exact ⟨_, hi.trans (congrArg _ (State.serve_of_due h hrun)), State.mailDone_shows res (by decide), hP hcode⟩

/-- R517: the mailboxes hold no state, share or epoch. -/
theorem State.rd_mailDone_keeper (h : keeperReg a) (status : Nat) (res : List Byte) : (s.mailDone c status res).rd a = s.rd a := by
  have hbase (k : Nat) (hk : k < 0x400) : a ≠ mailBase c.box + k := by
    have hvf := h.lt
    unfold keeperReg at h
    unfold mailBase vf
    split_ifs <;> omega
  refine State.rd_mailDone_ne _ _ (hbase 0x08 (by decide)) fun n hn => ?_
  unfold boxRes
  rw [Nat.add_assoc]
  exact hbase _ (by omega)

/-! ## GO (R517, R525) -/

/-- R517: the argument registers of a mailbox are cleared when its command is taken. -/
def State.argsCleared (s : State) (b : Nat) : State := (List.range 64).foldl (fun (s : State) n => s.wn (boxArg b n) 0) s

theorem State.keeper_argsCleared (b : Nat) : (s.argsCleared b).keeper = s.keeper :=
  (kept_foldl (φ := allBut [.regs]) (Kept.refl _ s) fun _ _ ht => State.wn_kept _ _ ht rfl).keeper rfl

/-- The command that a mailbox holds. -/
def State.boxCommand (s : State) (b : Nat) : MailCmd :=
  let cmd := s.rn (boxCmd b)
  ⟨b, bitsOf cmd 0 8, bitsOf cmd 8 8, (List.range 64).flatMap fun n => leBytes 4 (s.rn (boxArg b n))⟩

theorem mailboxGo_gives {r : RegReq} {b : Nat} (hg : s.grants r (boxCtrl b) = true)
    (hbusy : s.flag (boxStatus b) Fld.KEY_STATUS_BUSY = false) (hcode : mailCodes.contains (bitsOf (s.rn (boxCmd b)) 0 8) = true) :
    Gives (.mailboxGo r b) s fun t => t.flag (boxStatus b) Fld.KEY_STATUS_BUSY = true ∧
      t.keeper.waiting = s.keeper.waiting ++ [s.boxCommand b] := by
  refine ⟨_, congrArg Host.Outcome.next (State.write_of_grants _ hg), ?_⟩
  unfold State.mailGo
  rw [if_neg (by rw [hbusy]; decide)]
  dsimp only
  rw [if_pos hcode]
  exact ⟨State.flag_fput_one rfl (by decide), congrArg (fun k : Keeper => k.waiting ++ [s.boxCommand b]) (State.keeper_argsCleared b)⟩

/-! ## The reports (R519, R522) -/

theorem leAt_four_bytes (w x y z : Nat) (l : List Byte) : leAt (leBytes 1 w ++ leBytes 1 x ++ leBytes 1 y ++ leBytes 1 z ++ l) 0 4 =
    w % 256 + 256 * (x % 256) + 65536 * (y % 256) + 2 ^ 24 * (z % 256) := by
  simp only [leAt, leBytes, leNat, List.cons_append, List.nil_append, List.drop_zero, List.take_succ_cons, List.take_zero, BitVec.toNat_ofNat]
  omega

theorem leAt_three_bytes (w x y : Nat) : leAt (leBytes 1 w ++ leBytes 1 x ++ leBytes 1 y) 0 4 =
    w % 256 + 256 * (x % 256) + 65536 * (y % 256) := by
  simp only [leAt, leBytes, leNat, List.cons_append, List.nil_append, List.drop_zero, List.take_succ_cons, List.take_nil, BitVec.toNat_ofNat]
  omega

theorem State.rn_mod (a : Nat) : s.rn a % 2 ^ 32 = s.rn a := Nat.mod_eq_of_lt (s.rd a).isLt

theorem getInfo_serves : Serves .getInfo s 0x01 c fun t =>
    t.rn (boxRes c.box 0) = s.rn (Reg.GLB_VER 2) ∧ t.rn (boxRes c.box 1) % 256 = s.parts % 256 := by
  refine serves_of_run rfl ⟨_, _, rfl, fun hcode => ?_⟩
  have hlen : rlenOf c.code = 2 := by rw [hcode]; rfl
  rw [State.rn_boxRes_mailDone (by decide) (by rw [hlen]; decide), State.rn_boxRes_mailDone (by decide) (by rw [hlen]; decide)]
  constructor
  · simp only [List.append_assoc]
    rw [leAt_append_left _ (by rw [length_leBytes]), leAt_leBytes _ (by decide), Nat.mul_zero, Nat.pow_zero, Nat.div_one,
      show 256 ^ 4 = 2 ^ 32 from rfl, Nat.mod_mod]
    exact State.rn_mod _
  · have hword := leAt_four_bytes (s.taken c).parts c.part ((List.range 64).filter fun k => (s.taken c).slotFree (2 * k)).length
      (if c.part = 0 then (s.taken c).freeGeneral.length else min (s.taken c).freeGeneral.length ((s.taken c).quotaLeft c.part)) []
    simp only [List.append_assoc, List.append_nil] at hword ⊢
    rw [leAt_append_right _ (by rw [length_leBytes]), length_leBytes]
    refine (congrArg (· % 2 ^ 32 % 256) hword).trans ?_
    show _ = (s.taken c).parts % 256
    omega

theorem State.key_taken (k : Nat) : (s.taken c).key k = s.key k := rfl

theorem slotStatus_serves (hpart : c.part = 0) : Serves .slotStatus s 0x02 c fun t =>
    let k := s.key (c.arg 0)
    t.rn (boxRes c.box 0) = k.attr % 256 + 256 * (k.state % 256) + 65536 * (k.owner % 256) +
      (if k.owner = 0 then 2 ^ 24 * (k.soft % 256) else 0) := by
  have hmine (q : Prop) : ¬ (c.part ≠ 0 ∧ q) := fun h => h.1 hpart
  by_cases hown : (s.key (c.arg 0)).owner = 0
  · have hall : ¬ (c.part = 0 ∧ (s.key (c.arg 0)).owner ≠ 0) := fun h => h.2 hown
    refine serves_of_run rfl ⟨_, _, (if_neg (hmine _)).trans ((if_neg (hmine _)).trans (if_neg hall)), fun hcode => ?_⟩
    rw [State.rn_boxRes_mailDone (by decide) (by rw [hcode]; decide)]
    have hword := leAt_four_bytes (s.key (c.arg 0)).attr (s.key (c.arg 0)).state (s.key (c.arg 0)).owner (s.key (c.arg 0)).soft
      (leBytes 1 (s.key (c.arg 0)).hard ++ leBytes 3 (s.key (c.arg 0)).epoch ++ leBytes 8 (s.key (c.arg 0)).ctr ++
        sliceB (s.key (c.arg 0)).kcv 0 8)
    simp only [List.append_assoc] at hword ⊢
    refine (congrArg (· % 2 ^ 32) hword).trans ?_
    rw [if_pos hown]
    omega
  · refine serves_of_run rfl ⟨_, _, (if_neg (hmine _)).trans ((if_neg (hmine _)).trans (if_pos ⟨hpart, hown⟩)), fun hcode => ?_⟩
    rw [State.rn_boxRes_mailDone (by decide) (by rw [hcode]; decide)]
    dsimp only
    rw [if_neg hown, Nat.mul_zero, leAt_three_bytes, State.key_taken]
    omega

theorem getIdentity_serves (hroot : s.rootOk = true) : Serves .getIdentity s 0x30 c fun t =>
    t.rn (boxRes c.box 0) = 1 + 2 * b2n s.identOk := by
  have hroot' : (s.taken c).rootOk = true := hroot
  refine serves_of_run rfl ⟨_, _, if_neg (not_not_of_eq_true hroot'), fun hcode => ?_⟩
  rw [State.rn_boxRes_mailDone (by decide) (by rw [hcode]; decide), hroot', Nat.mul_zero, List.append_assoc,
    leAt_append_left _ (by rw [List.length_append, length_leBytes, length_leBytes]; decide)]
  show _ = 1 + 2 * b2n (s.taken c).identOk
  cases (s.taken c).identOk <;> rfl

/-! ## PART_REVOKE (R490, R571) -/

theorem partRevoke_serves (h1 : 1 ≤ c.arg 0) (h4 : c.arg 0 ≤ 4) (hpart : c.part = 0 ∨ c.part = c.arg 0) (hu : s.inUse (c.arg 0) = true) :
    Serves .partRevoke s 0x20 c fun t => t.partState (c.arg 0) = 5 ∧
      t.rn (Reg.KEY_PEPOCH (c.arg 0)) = (s.rn (Reg.KEY_PEPOCH (c.arg 0)) + 1) % 2 ^ 32 := by
  obtain ⟨hp, hn⟩ := State.not_empty_of_inUse hu
  have hu' : (s.taken c).inUse (c.arg 0) = true := hu
  have hn' : ¬ ((s.taken c).partState (c.arg 0) = 0 ∨ (s.taken c).partState (c.arg 0) = 5) := hn
  refine serves_of_run rfl ⟨_, _, (if_neg (by omega)).trans ((if_neg (by omega)).trans (if_neg hn')), fun _ => ⟨?_, ?_⟩⟩
  · exact (State.partState_of_rd (State.rd_mailDone_keeper (keeperReg_PRT_STATE hp) ..)).trans (State.partState_startRemoval hu' _)
  · exact (State.rn_of_rd (State.rd_mailDone_keeper (keeperReg_KEY_PEPOCH hp) ..)).trans (State.rn_startRemoval hu' _)

/-! ## Interposer keys and the generator (R499, R516) -/

theorem State.epoch_loadSlot (key : List Byte) (attr owner soft hard : Nat) (model : Bool) (suffix : List Byte) :
    ((s.loadSlot n key attr owner soft hard model suffix).key n).epoch = (s.key n).epoch + 1 := by
  unfold State.loadSlot
  dsimp only
  rw [State.key_setKey]

theorem State.keeper_loadSlot (key : List Byte) (attr owner soft hard : Nat) (model : Bool) (suffix : List Byte) :
    (s.loadSlot n key attr owner soft hard model suffix).keeper = s.keeper := rfl

theorem ifcRekey_gives {k : Nat} (hst : (s.key (0xA0 + 2 * k)).state = 1) (hent : s.entropy = true) (hload : s.canLoad (0xA0 + 2 * k) = true) :
    Gives (.ifcRekey k) s fun t => (t.key (0xA0 + 2 * k)).state = 1 ∧ (t.key (0xA1 + 2 * k)).state = 1 ∧
      (t.key (0xA0 + 2 * k)).epoch = (s.key (0xA0 + 2 * k)).epoch + 1 ∧ t.keeper.draws = s.keeper.draws + 1 := by
  have hkey (j : Nat) : (s.keyAlert 0 1).key j = s.key j := State.key_keyAlert 0 1 j
  have hent' : (s.keyAlert 0 1).entropy = true := (State.flag_of_rd (State.rd_keyAlert_keeper keeperReg_KEY_ROOT_STAT 0 1)).trans hent
  have hload' : (s.keyAlert 0 1).canLoad (0xA0 + 2 * k) = true := by
    unfold State.canLoad
    rw [hkey]
    exact hload
  have hdraws : (s.keyAlert 0 1).keeper = s.keeper := (State.keyAlert_kept (φ := allBut [.regs, .out]) 0 1 (Kept.refl _ s) rfl rfl).keeper rfl
  have hrun : ¬ ((!(s.keyAlert 0 1).entropy) = true ∨ (!(s.keyAlert 0 1).canLoad (0xA0 + 2 * k)) = true) := by simp [hent', hload']
  refine ⟨_, congrArg Host.Outcome.next ((if_pos hst).trans (if_neg hrun)), ?_⟩
  dsimp only
  have hne : 0xA0 + 2 * k ≠ 0xA1 + 2 * k := by omega
  refine ⟨?_, (State.key_loadSlot ..).2.1, ?_, ?_⟩
  · rw [State.key_loadSlot_ne _ _ _ _ _ _ _ hne]
    exact (State.key_loadSlot ..).2.1
  · rw [State.key_loadSlot_ne _ _ _ _ _ _ _ hne, State.epoch_loadSlot]
    exact congrArg (fun x : KeySlot => x.epoch + 1) (hkey _)
  · rw [State.keeper_loadSlot, State.keeper_loadSlot]
    exact congrArg (fun x : Keeper => x.draws + 1) hdraws

theorem drbgReseed_gives (hent : s.entropy = true) (hseed : 1048576 ≤ s.keeper.sinceSeed) : Gives .drbgReseed s fun t =>
    t.keeper.sinceSeed = 0 ∧ t.regs = s.regs :=
  ⟨_, congrArg Host.Outcome.next (if_pos ⟨hent, hseed⟩), rfl, rfl⟩

theorem entropyFail_gives : Gives .entropyFail s fun t => t.entropy = false := by
  refine ⟨_, rfl, ?_⟩
  show (s.fput Reg.KEY_ROOT_STAT Fld.KEY_ROOT_STAT_DRBG_OK 0).flag Reg.KEY_ROOT_STAT Fld.KEY_ROOT_STAT_DRBG_OK = false
  rw [State.flag, State.fget_fput _ _ _ _ (by decide)]
  rfl

end

/-- Settles O52, row by row. -/
theorem mailboxRowsComplete : Obligations.MailboxRowsComplete :=
  ⟨fun _ _ _ _ hg hbusy hcode => mailboxGo_gives hg hbusy hcode,
    fun _ _ => getInfo_serves,
    fun _ _ hpart => slotStatus_serves hpart,
    fun _ hroot _ => getIdentity_serves hroot,
    fun _ _ h1 h4 hpart hu => partRevoke_serves h1 h4 hpart hu,
    fun _ _ hst hent hload => ifcRekey_gives hst hent hload,
    fun _ hent hseed => drbgReseed_gives hent hseed,
    fun _ => entropyFail_gives⟩

end Sys2Proof.Machine

/-! The moves of DMA descriptors: what reads and writes of device memory leave of the IDE streams, what each form of a descriptor comes to,
and the statement settled with them (spec, chapters 11 and 14). -/
namespace Sys2Proof.Machine

section
variable {s t : State} {a n p : Nat}

/-! ## The registers of the IDE streams (R542, R637) -/

/-- A register of an IDE stream. -/
def ideReg (a : Nat) : Prop := 0x600100 ≤ a ∧ a < 0x600110

theorem ideReg_HST_IDE {i : Nat} (hi : i < 4) : ideReg (Reg.HST_IDE i) := by
  unfold ideReg Reg.HST_IDE
  omega

/-- No register of the memory stacks or of a VF is one of them. -/
theorem ideReg.ne_of_ge (h : ideReg a) {b : Nat} (hb : 0x700000 ≤ b) : a ≠ b := by
  unfold ideReg at h
  omega
theorem ideReg.ne_vf (h : ideReg a) (hp : p ≠ 0) (k : Nat) : a ≠ vf p + k := h.ne_of_ge (by unfold vf; omega)
theorem ideReg.ne_stk (h : ideReg a) {k : Nat} (hk : 0x700000 ≤ k) (n : Nat) : a ≠ k + 65536 * n := h.ne_of_ge (by omega)

theorem State.ideStream_of_rd (h : ∀ a, ideReg a → t.rd a = s.rd a) (fn : Nat) : t.ideStream fn = s.ideStream fn := by
  unfold State.ideStream
  refine congrArg (Option.getD · 4) (List.find?_congr fun i hi => ?_)
  have hrd := h _ (ideReg_HST_IDE (List.mem_range.1 hi))
  rw [State.flag_of_rd hrd, State.fget_of_rd hrd]

theorem State.rd_keyAlert_ide (h : ideReg a) (p bits : Nat) : (s.keyAlert p bits).rd a = s.rd a :=
  State.rd_keyAlert_pf (by unfold ideReg at h; omega) (by unfold ideReg at h; unfold Reg.KEY_ALERT; omega) p bits

theorem State.rd_useKey_ide (h : ideReg a) (n : Nat) : (s.useKey n).1.rd a = s.rd a := by
  have halert (q : Prop) [Decidable q] (x : State) (k : KeySlot) (bits : Nat) : (if q then (List.range 5).foldl (fun (s : State) p =>
      if (p = 0 ∧ k.owner = 0) ∨ (p ≠ 0 ∧ bitOf k.owner (p - 1)) then s.keyAlert p bits else s) x else x).rd a = x.rd a := by
    split
    · exact State.rd_foldl (fun t p => by split; exacts [State.rd_keyAlert_ide h p bits, rfl]) _
    · rfl
  unfold State.useKey
  dsimp only
  rw [halert, halert]
  rfl

/-! ## Reads of device memory (R265, R270, R272, R273) -/

theorem State.rd_irqMem_ide (h : ideReg a) (bits : Nat) : (s.irqMem bits).rd a = s.rd a :=
  State.rd_irq_ne _ _ _ _ _ _ (h.ne_of_ge (by decide))
theorem State.rd_irqProt_ide (h : ideReg a) (hp : p ≠ 0) (f : Fld) : (s.irqProt p f).rd a = s.rd a :=
  State.rd_irq_ne _ _ _ _ _ _ (show a ≠ Reg.TKEY_PROT_INT_STATUS p from h.ne_vf hp _)

theorem State.rd_errLast_ide (h : ideReg a) (n sec kind part : Nat) (persist : Bool) : (s.errLast n sec kind part persist).rd a = s.rd a := by
  unfold State.errLast
  dsimp only
  split
  · rfl
  · rw [State.rd_wr_ne _ _ (show a ≠ Reg.MEM_ERR_LAST_HI n from h.ne_stk (by decide) n),
      State.rd_wr_ne _ _ (show a ≠ Reg.MEM_ERR_LAST_LO n from h.ne_stk (by decide) n), State.rd_setStk]

theorem State.rd_readOnce_ide (h : ideReg a) (errs : List ReadErr) (p n sec i : Nat) : (s.readOnce errs p n sec i).1.rd a = s.rd a := by
  unfold State.readOnce
  split
  · rfl
  · extract_lets raw ces ues s1 s2
    have h1 : s1.rd a = s.rd a := by
      dsimp only [s1]
      split
      · rfl
      · rw [State.rd_rowError, State.rd_errLast_ide h, State.rd_bump_ne _ _ (show a ≠ Reg.MEM_CE_COUNT n from h.ne_stk (by decide) n)]
    dsimp only [s2]
    split
    · exact h1
    · rw [State.rd_irqMem_ide h, State.rd_errLast_ide h, State.rd_bump_ne _ _ (show a ≠ Reg.MEM_UE_COUNT n from h.ne_stk (by decide) n), h1]

theorem State.rd_noteFail_ide (h : ideReg a) (p n sec : Nat) (nme : Bool) (r : RawRead) (persist : Bool) :
    (s.noteFail p n sec nme r persist).rd a = s.rd a := by
  unfold State.noteFail
  split
  · split
    · exact State.rd_errLast_ide h ..
    · rfl
  · rw [State.rd_errLast_ide h, State.rd_bump_ne _ _ (show a ≠ Reg.MEM_MAC_FAIL n from h.ne_stk (by decide) n)]

theorem State.rd_alarm_ide (h : ideReg a) (p cause n : Nat) : (s.alarm p cause n).rd a = s.rd a := by
  unfold State.alarm
  dsimp only
  split
  · rfl
  next hp =>
    rw [State.rd_irqProt_ide h hp, State.rd_irqMem_ide h, State.rd_noted _ _ _ _ (show a ≠ Reg.TKEY_ALARM p from h.ne_vf hp _),
      State.rd_noted _ _ _ _ (show a ≠ Reg.MEM_ALARM_CAUSE p from h.ne_of_ge (by unfold Reg.MEM_ALARM_CAUSE; omega)), State.rd_taintStep]

theorem State.rd_poisonSector_ide (h : ideReg a) (n sec : Nat) : (s.poisonSector n sec).rd a = s.rd a := by
  unfold State.poisonSector
  dsimp only
  split
  · rfl
  · split
    · rw [State.rd_irqMem_ide h, State.rd_askHalt, State.rd_fput_ne _ _ _ (show a ≠ Reg.MEM_STK_STAT n from h.ne_stk (by decide) n)]
    · rw [State.rd_irqMem_ide h, State.rd_fput_ne _ _ _ (show a ≠ Reg.MEM_POISON_COUNT n from h.ne_stk (by decide) n), State.rd_poison]

theorem State.rd_readSector_ide (h : ideReg a) (errs : List ReadErr) (p : Nat) (spec nme : Bool) (kid lsn n sec : Nat) :
    (s.readSector errs p spec nme kid lsn n sec).1.rd a = s.rd a := by
  have hre (t : State) : (t.bump (Reg.MEM_REREAD n) Fld.MEM_REREAD_COUNT 1).rd a = t.rd a :=
    State.rd_bump_ne _ _ (show a ≠ Reg.MEM_REREAD n from h.ne_stk (by decide) n)
  unfold State.readSector
  split
  · rw [State.rd_alarm_ide h, State.rd_errLast_ide h]
  · dsimp only
    split_ifs <;>
      simp only [State.rd_poisonSector_ide h, State.rd_alarm_ide h, State.rd_noteFail_ide h, State.rd_readOnce_ide h, hre, State.rd_useKey_ide h]

theorem State.rd_readPiece_ide (h : ideReg a) (errs : List ReadErr) (p : Nat) (spec nme : Bool) (b len : Nat) :
    (s.readPiece errs p spec nme b len).1.rd a = s.rd a := by
  unfold State.readPiece
  split
  · rfl
  · exact State.rd_readSector_ide h ..

theorem State.rd_dmaRead_ide (h : ideReg a) (errs : List ReadErr) (p b len : Nat) : (s.dmaRead errs p b len).1.rd a = s.rd a := by
  unfold State.dmaRead
  refine List.foldlRecOn (motive := fun y : State × Nat × List Byte => y.1.rd a = s.rd a) _ _ rfl fun y hy pc _ => ?_
  dsimp only
  have hpiece := (State.rd_readPiece_ide (s := y.1) h errs p false false pc.1 pc.2).trans hy
  split_ifs
  exacts [hy, hpiece, hpiece]

theorem State.rd_readPairs_ide (h : ideReg a) (errs : List ReadErr) (p : Nat) (l : List (Nat × Nat)) :
    (s.readPairs errs p l).1.rd a = s.rd a :=
  List.foldlRecOn (motive := fun y : State × PairRead => y.1.rd a = s.rd a) l _ rfl fun _ hy _ _ => (State.rd_readOnce_ide h ..).trans hy

/-! ## Refused accesses (R547) -/

theorem State.rd_refuse_ide (h : ideReg a) (hp : p ≠ 0) (code master : Nat) (write : Bool) (off kid : Nat) :
    (s.refuse p code master write off kid).rd a = s.rd a := by
  have hfirst (c : Prop) [Decidable c] (u : Upd) (w w' : Word) : (if c then ((((s.setUp p u).wr (Reg.TKEY_PROT_ERR p) w).wn
      (Reg.TKEY_PROT_ADDR_LO p) off).wr (Reg.TKEY_PROT_ADDR_HI p) w') else s).rd a = s.rd a := by
    split
    · rw [State.rd_wr_ne _ _ (show a ≠ Reg.TKEY_PROT_ADDR_HI p from h.ne_vf hp _),
        State.rd_wn_ne _ (show a ≠ Reg.TKEY_PROT_ADDR_LO p from h.ne_vf hp _),
        State.rd_wr_ne _ _ (show a ≠ Reg.TKEY_PROT_ERR p from h.ne_vf hp _), State.rd_setUp]
    · rfl
  unfold State.refuse
  dsimp only
  rw [State.rd_irqProt_ide h hp, State.rd_bump_ne _ _ (show a ≠ Reg.TKEY_PROT_COUNT p from h.ne_vf hp _), hfirst]

theorem State.fst_admitted (m : Master) (b len : Nat) : (s.admitted p m b len).1 = (s.checkRun p m true b len).1 := rfl

theorem State.rd_admitted_ide (h : ideReg a) (hp : p ≠ 0) (m : Master) (b len : Nat) : (s.admitted p m b len).1.rd a = s.rd a := by
  rw [State.fst_admitted]
  unfold State.checkRun
  split
  · rfl
  · exact State.rd_refuse_ide h hp ..

/-! ## What moving bytes leaves alone (R609) -/

/-- What the engine that moves a descriptor's bytes does not touch. -/
def besideMoves : Part → Bool := allBut [.mem, .keys, .regs, .out, .poison, .channels, .upds, .haltReq]

theorem State.dma_of_kept {φ : Part → Bool} (h : Kept φ s t) (hd : φ .dmas = true) (e : Nat) : t.dma e = s.dma e := by
  unfold State.dma
  rw [h.dmas hd]

/-- Bytes have moved from `s` to `t`: the descriptors and the IDE streams are as they were. -/
structure Moved (s t : State) : Prop where
  kept : Kept besideMoves s t
  ide : ∀ a, ideReg a → t.rd a = s.rd a

theorem Moved.refl (s : State) : Moved s s := ⟨Kept.refl _ s, fun _ _ => rfl⟩

theorem Moved.dma (h : Moved s t) (e : Nat) : t.dma e = s.dma e := State.dma_of_kept h.kept rfl e

theorem Moved.admitted (h : Moved s t) (hp : p ≠ 0) (m : Master) (b len : Nat) : Moved s (t.admitted p m b len).1 :=
  ⟨State.admitted_kept p m b len h.kept rfl rfl rfl, fun a ha => (State.rd_admitted_ide ha hp m b len).trans (h.ide a ha)⟩
theorem Moved.useKey (h : Moved s t) (n : Nat) : Moved s (t.useKey n).1 :=
  ⟨State.useKey_kept n h.kept rfl rfl rfl, fun a ha => (State.rd_useKey_ide ha n).trans (h.ide a ha)⟩
theorem Moved.dmaRead (h : Moved s t) (errs : List ReadErr) (p b len : Nat) : Moved s (t.dmaRead errs p b len).1 :=
  ⟨State.dmaRead_kept errs p b len h.kept rfl rfl rfl rfl rfl rfl rfl, fun a ha => (State.rd_dmaRead_ide ha errs p b len).trans (h.ide a ha)⟩
theorem Moved.readPairs (h : Moved s t) (errs : List ReadErr) (p : Nat) (l : List (Nat × Nat)) : Moved s (t.readPairs errs p l).1 :=
  ⟨State.readPairs_kept errs p l h.kept rfl rfl rfl, fun a ha => (State.rd_readPairs_ide ha errs p l).trans (h.ide a ha)⟩

/-! ## The outcome of a descriptor (R609, R612) -/

theorem State.dma_finish (e : Nat) (x : DmaEnd) : (s.finish e x).dma e = setFin x (s.dma e) := SMap.get_set_same ..
theorem State.out_finish (e : Nat) (x : DmaEnd) : (s.finish e x).out = s.out := rfl
theorem State.dram_finish (e : Nat) (x : DmaEnd) : (s.finish e x).dram = s.dram := rfl

theorem State.dma_finish_of_kept {φ : Part → Bool} (h : Kept φ s t) (hd : φ .dmas = true) (e : Nat) (x : DmaEnd) :
    (t.finish e x).dma e = setFin x (s.dma e) := by
  rw [State.dma_finish, State.dma_of_kept h hd]

/-- R542: what leaves for the host after bytes have moved goes on the stream that the function had before. -/
theorem Moved.hostGets_toHost (h : Moved s t) (fn addr : Nat) (tee : Bool) (v : List Byte) (e : Nat) (x : DmaEnd) :
    ((t.toHost fn addr tee v).finish e x).hostGets s fn addr tee v := by
  refine ⟨t.serial, ?_⟩
  rw [State.out_finish]
  unfold State.toHost
  split
  next htee =>
    have htrue : tee = true := (Bool.and_eq_true_iff.1 htee).1
    rw [htrue]
    unfold State.onIde
    rw [State.ideStream_of_rd h.ide]
    rfl
  next => rfl

theorem Moved.dma_toHost (h : Moved s t) (fn addr : Nat) (tee : Bool) (v : List Byte) (e : Nat) (x : DmaEnd) :
    ((t.toHost fn addr tee v).finish e x).dma e = setFin x (s.dma e) :=
  State.dma_finish_of_kept (State.toHost_kept fn addr tee v h.kept rfl) rfl e x

/-! ## A descriptor that is due (R276, R608 to R610) -/

theorem State.dmaForm_of_descDue {e form : Nat} {x : Desc} (h : s.descDue e form x = true) : x.owner ≠ 0 ∧
    ∀ f : State → Desc → State, s.dmaForm e form f = f s x := by
  simp only [State.descDue, Bool.and_eq_true, Bool.or_eq_true, Bool.not_eq_true', beq_iff_eq, bne_iff_ne, decide_eq_true_eq] at h
  obtain ⟨⟨⟨⟨⟨⟨⟨⟨hnext, hhalt⟩, hform⟩, hlt⟩, hok⟩, hown⟩, htee⟩, hlim⟩, htag⟩ := h
  refine ⟨hown, fun f => ?_⟩
  have hgo : ¬ (s.halted = true ∨ min 8 (xForm x.bytes) ≠ form ∨ (x.owner ≠ 0 ∧ s.tagWait x.owner 4 (some e) = true)) := by
    simp only [hhalt, htag, hform, Bool.false_eq_true, and_false, or_false, false_or]
    omega
  have hplain : ¬ (x.owner ≠ 0 ∧ xPlain x.bytes = true ∧ (!xT x.bytes) = true) := by
    rintro ⟨-, hp, ht⟩
    rcases htee with hp' | ht'
    · exact absurd (hp'.symm.trans hp) Bool.false_ne_true
    · exact absurd ht (not_not_of_eq_true ht')
  unfold State.dmaForm
  rw [hnext]
  exact (if_neg hgo).trans ((if_neg (not_not.2 hok)).trans ((if_neg hplain).trans (if_neg (not_not.2 hlim))))

end

section
variable {s : State} {e : Nat} {x : Desc} {host : HostRead} {errs : List ReadErr}

/-! ## COPY_IN and COPY_OUT (R609) -/

theorem ite_bnot {α : Type} (b : Bool) (x y : α) : (if (!b) = true then x else y) = if b = true then y else x := by cases b <;> rfl

/-- R609: what COPY_IN moves: the state, the code of the region check and the bytes that it admits, and whether all were written. -/
theorem State.copyIn_of_due (h : s.descDue e 0 x = true) (hhost : host.status = 0) :
    let a := s.admitted x.owner (mDmaIn e) (xDev x.bytes) (xLen x.bytes)
    let w := a.1.writeRun errs x.owner false true (xDev x.bytes) (sliceB host.data 0 a.2.2)
    s.copyIn e host errs = w.1.finish e ⟨if w.2 then a.2.1 else 0x2B, a.2.2, [], []⟩ := by
  obtain ⟨hown, hrun⟩ := State.dmaForm_of_descDue h
  unfold State.copyIn
  rw [hrun]
  dsimp only
  rw [if_neg hown, if_neg (not_not.2 hhost), ite_bnot]
  rfl

theorem Moved.kept_writeRun {t : State} (h : Moved s t) (p : Nat) (b : Nat) (v : List Byte) :
    Kept besideMoves s (t.writeRun errs p false true b v).1 :=
  State.writeRun_kept errs p false true b v h.kept rfl rfl rfl rfl rfl rfl rfl rfl

theorem dmaCopyIn_gives (h : s.descDue e 0 x = true) (hhost : host.status = 0) : Gives (.dmaCopyIn e host errs) s fun t =>
    let a := s.admitted x.owner (mDmaIn e) (xDev x.bytes) (xLen x.bytes)
    let w := a.1.writeRun errs x.owner false true (xDev x.bytes) (sliceB host.data 0 a.2.2)
    t.dram = w.1.dram ∧ t.dma e = setFin ⟨if w.2 then a.2.1 else 0x2B, a.2.2, [], []⟩ (s.dma e) := by
  have hown := (State.dmaForm_of_descDue h).1
  have hkept := ((Moved.refl s).admitted hown (mDmaIn e) (xDev x.bytes) (xLen x.bytes)).kept_writeRun (errs := errs) x.owner (xDev x.bytes)
    (sliceB host.data 0 (s.admitted x.owner (mDmaIn e) (xDev x.bytes) (xLen x.bytes)).2.2)
  refine ⟨_, congrArg Host.Outcome.next (State.copyIn_of_due h hhost), ?_⟩
  dsimp only
  exact ⟨State.dram_finish .., State.dma_finish_of_kept hkept rfl e _⟩

/-- R609: what COPY_OUT moves: the code of the region check, and what was read of the bytes that it admits. -/
theorem State.copyOut_of_due (h : s.descDue e 1 x = true) :
    let a := s.admitted x.owner (mDmaOut e) (xDev x.bytes) (xLen x.bytes)
    let y := a.1.dmaRead errs x.owner (xDev x.bytes) a.2.2
    s.copyOut e errs = (if y.2.2.isEmpty then y.1 else y.1.toHost x.owner (xHost x.bytes) true y.2.2).finish e
      ⟨if y.2.1 ≠ 0 then y.2.1 else a.2.1, y.2.2.length, [], []⟩ := by
  obtain ⟨hown, hrun⟩ := State.dmaForm_of_descDue h
  unfold State.copyOut
  rw [hrun]
  dsimp only
  rw [if_neg hown]
  generalize State.dmaRead _ errs x.owner (xDev x.bytes) _ = y
  rfl

theorem dmaCopyOut_gives (h : s.descDue e 1 x = true) : Gives (.dmaCopyOut e errs) s fun t =>
    let a := s.admitted x.owner (mDmaOut e) (xDev x.bytes) (xLen x.bytes)
    let y := a.1.dmaRead errs x.owner (xDev x.bytes) a.2.2
    t.dma e = setFin ⟨if y.2.1 ≠ 0 then y.2.1 else a.2.1, y.2.2.length, [], []⟩ (s.dma e) ∧
      (y.2.2 ≠ [] → t.hostGets s x.owner (xHost x.bytes) true y.2.2) := by
  have hown := (State.dmaForm_of_descDue h).1
  have hmoved := ((Moved.refl s).admitted hown (mDmaOut e) (xDev x.bytes) (xLen x.bytes)).dmaRead errs x.owner (xDev x.bytes)
    (s.admitted x.owner (mDmaOut e) (xDev x.bytes) (xLen x.bytes)).2.2
  refine ⟨_, congrArg Host.Outcome.next (State.copyOut_of_due h), ?_⟩
  dsimp only
  generalize State.dmaRead _ errs x.owner (xDev x.bytes) _ = y at hmoved ⊢
  by_cases hv : y.2.2 = []
  · rw [if_pos (by rw [hv]; rfl)]
    exact ⟨State.dma_finish_of_kept hmoved.kept rfl e _, fun hne => absurd hv hne⟩
  · rw [if_neg (by rw [List.isEmpty_iff]; exact hv)]
    exact ⟨hmoved.dma_toHost .., fun _ => hmoved.hostGets_toHost ..⟩

/-! ## GCM and XTS forms (R505 to R508) -/

/-- A cipher form of a partition that its checks accept begins in the state it found. -/
theorem State.cipherOk_of_zero {enc : Bool} (hown : x.owner ≠ 0) (h : (s.cipherOk e x enc).2 = 0) : s.cipherOk e x enc = (s, 0) := by
  unfold State.cipherOk at h ⊢
  dsimp only at h ⊢
  by_cases hc : s.cipherSlot x.owner (xSlot x.bytes) enc = 0
  · rw [if_neg (not_not.2 hc), if_neg hown] at h ⊢
    exact State.checkRun_of_zero h
  · rw [if_pos hc] at h
    exact absurd h hc

theorem State.gcmIn_of_due (h : s.descDue e 2 x = true) (hok : (s.cipherOk e x false).2 = 0) (hhost : host.status = 0) :
    let d := x.bytes
    let key := (s.key (xSlot d)).key
    let msg := sliceB host.data (xAadLen d) (xLen d)
    let good := decide (Crypto.gcmTag key (xIv d) (sliceB host.data 0 (xAadLen d)) msg = xTag d)
    let w := (s.useKey (xSlot d)).1.writeRun errs x.owner false true (xDev d)
      (if good then Crypto.gcmCrypt key (xIv d) msg else leBytes (xLen d) 0)
    s.gcmIn e host errs = w.1.finish e ⟨if good then (if w.2 then 0 else 0x2B) else 0x07, if good then xLen d else 0, [], []⟩ := by
  obtain ⟨hown, hrun⟩ := State.dmaForm_of_descDue h
  unfold State.gcmIn
  rw [hrun]
  dsimp only
  rw [State.cipherOk_of_zero hown hok]
  dsimp only
  rw [if_neg (by decide), if_neg (not_not.2 hhost), ite_bnot]
  rfl

theorem State.xtsIn_of_due (h : s.descDue e 4 x = true) (hok : (s.cipherOk e x false).2 = 0) (hhost : host.status = 0) :
    let d := x.bytes
    let w := (s.useKey (xSlot d)).1.writeRun errs x.owner false true (xDev d)
      (xtsRun Crypto.xtsDec (s.key (xSlot d)).key (xUnit d) (sliceB host.data 0 (xLen d)))
    s.xtsIn e host errs = w.1.finish e ⟨if w.2 then 0 else 0x2B, xLen d, [], []⟩ := by
  obtain ⟨hown, hrun⟩ := State.dmaForm_of_descDue h
  unfold State.xtsIn
  rw [hrun]
  dsimp only
  rw [State.cipherOk_of_zero hown hok]
  dsimp only
  rw [if_neg (by decide), if_neg (not_not.2 hhost)]
  rfl

theorem dmaGcmIn_gives (hok : (s.cipherOk e x false).2 = 0) (hhost : host.status = 0) (h : s.descDue e 2 x = true) :
    Gives (.dmaGcmIn e host errs) s fun t => ∃ ok : Bool,
      let d := x.bytes
      let good := decide (Crypto.gcmTag (s.key (xSlot d)).key (xIv d) (sliceB host.data 0 (xAadLen d))
        (sliceB host.data (xAadLen d) (xLen d)) = xTag d)
      t.dma e = setFin ⟨if good then (if ok then 0 else 0x2B) else 0x07, if good then xLen d else 0, [], []⟩ (s.dma e) :=
  ⟨_, congrArg Host.Outcome.next (State.gcmIn_of_due h hok hhost), _,
    State.dma_finish_of_kept (((Moved.refl s).useKey _).kept_writeRun ..) rfl e _⟩

theorem dmaXtsIn_gives (hok : (s.cipherOk e x false).2 = 0) (hhost : host.status = 0) (h : s.descDue e 4 x = true) :
    Gives (.dmaXtsIn e host errs) s fun t => ∃ ok : Bool, t.dma e = setFin ⟨if ok then 0 else 0x2B, xLen x.bytes, [], []⟩ (s.dma e) :=
  ⟨_, congrArg Host.Outcome.next (State.xtsIn_of_due h hok hhost), _,
    State.dma_finish_of_kept (((Moved.refl s).useKey _).kept_writeRun ..) rfl e _⟩

theorem State.gcmOut_of_due (h : s.descDue e 3 x = true) (hok : (s.cipherOk e x true).2 = 0) (hhost : host.status = 0) :
    let d := x.bytes
    let k := s.key (xSlot d)
    let y := (s.useKey (xSlot d)).1.dmaRead errs x.owner (xDev d) (xLen d)
    let aad := sliceB host.data 0 (xAadLen d)
    let iv := gcmIv (xSlot d) k k.ctr
    let msg := Crypto.gcmCrypt k.key iv y.2.2
    s.gcmOut e host errs = if y.2.1 ≠ 0 then y.1.finish e ⟨y.2.1, 0, [], []⟩
      else (y.1.toHost x.owner (xHost d + xAadLen d) (xT d) msg).finish e ⟨0, xLen d, iv, Crypto.gcmTag k.key iv aad msg⟩ := by
  obtain ⟨hown, hrun⟩ := State.dmaForm_of_descDue h
  unfold State.gcmOut
  rw [hrun]
  dsimp only
  rw [State.cipherOk_of_zero hown hok]
  dsimp only
  rw [if_neg (by decide), if_neg (fun hbad => hbad.2 hhost)]
  rfl

theorem State.xtsOut_of_due (h : s.descDue e 5 x = true) (hok : (s.cipherOk e x true).2 = 0) :
    let d := x.bytes
    let y := (s.useKey (xSlot d)).1.dmaRead errs x.owner (xDev d) (xLen d)
    s.xtsOut e errs = if y.2.1 ≠ 0 then y.1.finish e ⟨y.2.1, 0, [], []⟩
      else (y.1.toHost x.owner (xHost d) (xT d) (xtsRun Crypto.xtsEnc (s.key (xSlot d)).key (xUnit d) y.2.2)).finish e ⟨0, xLen d, [], []⟩ := by
  obtain ⟨hown, hrun⟩ := State.dmaForm_of_descDue h
  unfold State.xtsOut
  rw [hrun]
  dsimp only
  rw [State.cipherOk_of_zero hown hok]
  dsimp only
  rw [if_neg (by decide)]
  rfl

theorem dmaGcmOut_gives (hok : (s.cipherOk e x true).2 = 0) (hhost : host.status = 0) (h : s.descDue e 3 x = true) :
    let d := x.bytes
    let k := s.key (xSlot d)
    let y := (((s.cipherOk e x true).1.useKey (xSlot d)).1).dmaRead errs x.owner (xDev d) (xLen d)
    Gives (.dmaGcmOut e host errs) s fun t =>
      let aad := sliceB host.data 0 (xAadLen d)
      let iv := gcmIv (xSlot d) k k.ctr
      let msg := Crypto.gcmCrypt k.key iv y.2.2
      if y.2.1 ≠ 0 then t.dma e = setFin ⟨y.2.1, 0, [], []⟩ (s.dma e)
      else t.dma e = setFin ⟨0, xLen d, iv, Crypto.gcmTag k.key iv aad msg⟩ (s.dma e) ∧
        t.hostGets s x.owner (xHost d + xAadLen d) (xT d) msg := by
  have hmoved := ((Moved.refl s).useKey (xSlot x.bytes)).dmaRead errs x.owner (xDev x.bytes) (xLen x.bytes)
  have hrun := State.gcmOut_of_due (errs := errs) h hok hhost
  rw [State.cipherOk_of_zero (State.dmaForm_of_descDue h).1 hok]
  dsimp only at hrun ⊢
  generalize State.dmaRead _ errs x.owner (xDev x.bytes) _ = y at hmoved hrun ⊢
  refine ⟨_, congrArg Host.Outcome.next hrun, ?_⟩
  dsimp only
  split
  · exact State.dma_finish_of_kept hmoved.kept rfl e _
  · exact ⟨hmoved.dma_toHost .., hmoved.hostGets_toHost ..⟩

theorem dmaXtsOut_gives (hok : (s.cipherOk e x true).2 = 0) (h : s.descDue e 5 x = true) :
    let d := x.bytes
    let y := (((s.cipherOk e x true).1.useKey (xSlot d)).1).dmaRead errs x.owner (xDev d) (xLen d)
    Gives (.dmaXtsOut e errs) s fun t =>
      if y.2.1 ≠ 0 then t.dma e = setFin ⟨y.2.1, 0, [], []⟩ (s.dma e)
      else t.dma e = setFin ⟨0, xLen d, [], []⟩ (s.dma e) ∧
        t.hostGets s x.owner (xHost d) (xT d) (xtsRun Crypto.xtsEnc (s.key (xSlot d)).key (xUnit d) y.2.2) := by
  have hmoved := ((Moved.refl s).useKey (xSlot x.bytes)).dmaRead errs x.owner (xDev x.bytes) (xLen x.bytes)
  have hrun := State.xtsOut_of_due (errs := errs) h hok
  rw [State.cipherOk_of_zero (State.dmaForm_of_descDue h).1 hok]
  dsimp only at hrun ⊢
  generalize State.dmaRead _ errs x.owner (xDev x.bytes) _ = y at hmoved hrun ⊢
  refine ⟨_, congrArg Host.Outcome.next hrun, ?_⟩
  split
  · exact State.dma_finish_of_kept hmoved.kept rfl e _
  · exact ⟨hmoved.dma_toHost .., hmoved.hostGets_toHost ..⟩

/-! ## Lake forms (R611) -/

theorem State.lakeExport_of_due (h : s.descDue e 6 x = true) (hlake : s.lakeRun x.owner x.bytes = true)
    (hslot : s.slotState x.owner (xLakeSlot x.bytes) = 2 ∨ s.slotState x.owner (xLakeSlot x.bytes) = 3) :
    let p := x.owner
    let d := x.bytes
    let y := s.readPairs errs p ((List.range (xLen d / 264)).map fun i => s.lakePlace p (xLakeSlot d) (xDev d + i))
    s.lakeExport e errs = (y.1.toHost p (xHost d) (xT d) (y.2.pairs.flatMap fun y => y.1 ++ y.2)).finish e ⟨0, xLen d, [], []⟩ := by
  obtain ⟨-, hrun⟩ := State.dmaForm_of_descDue h
  have hok : ¬ ((!s.lakeRun x.owner x.bytes) = true ∨
      (s.slotState x.owner (xLakeSlot x.bytes) ≠ 2 ∧ s.slotState x.owner (xLakeSlot x.bytes) ≠ 3)) := by
    rw [hlake]
    rintro (hf | ⟨h2, h3⟩)
    · exact Bool.false_ne_true hf
    · exact hslot.elim h2 h3
  unfold State.lakeExport
  rw [hrun]
  exact if_neg hok

theorem dmaLakeExport_gives (hlake : s.lakeRun x.owner x.bytes = true) (h : s.descDue e 6 x = true)
    (hslot : s.slotState x.owner (xLakeSlot x.bytes) = 2 ∨ s.slotState x.owner (xLakeSlot x.bytes) = 3) :
    let p := x.owner
    let d := x.bytes
    Gives (.dmaLakeExport ⟨e, errs⟩) s fun t => t.dma e = setFin ⟨0, xLen d, [], []⟩ (s.dma e) ∧
      t.hostGets s p (xHost d) (xT d) ((s.readPairs errs p ((List.range (xLen d / 264)).map fun i =>
        s.lakePlace p (xLakeSlot d) (xDev d + i))).2.pairs.flatMap fun y => y.1 ++ y.2) := by
  have hmoved := (Moved.refl s).readPairs errs x.owner
    ((List.range (xLen x.bytes / 264)).map fun i => s.lakePlace x.owner (xLakeSlot x.bytes) (xDev x.bytes + i))
  exact ⟨_, congrArg Host.Outcome.next (State.lakeExport_of_due h hlake hslot), hmoved.dma_toHost .., hmoved.hostGets_toHost ..⟩

/-- R611: the state in which the last descriptor of an import leaves its slot. -/
def State.importEnded (s : State) (p j : Nat) : State :=
  (s.setLake p { s.lake p with root := put2 (s.lake p).root j (rootOf ((s.lake p).leaves.getD j [])) }).setSlot p j 4

/-- R611: what the first descriptor of an import does with the records `l` that it brings. -/
def State.importBegun (s : State) (p j : Nat) (l : List (List Byte × List Byte)) : State :=
  let s2 := ((s.setLake p { s.lake p with leaves := put2 (s.lake p).leaves j [] }).setSlot p j 1).fetchSectors p j 0 l
  s2.setLake p { s2.lake p with imported := put2 (s2.lake p).imported j (0 + l.length) }

/-- What an import does not touch. -/
def besideImports : Part → Bool := allBut [.mem, .regs, .lakes, .poison]

theorem State.importEnded_keeps {u : State} (h : Kept besideImports s u) (p j : Nat) : Kept besideImports s (u.importEnded p j) :=
  State.setSlot_kept p j 4 (State.setLake_kept p _ h rfl) rfl

theorem State.importBegun_keeps (p j : Nat) (l : List (List Byte × List Byte)) : Kept besideImports s (s.importBegun p j l) :=
  State.setLake_kept p _ (State.fetchSectors_kept p j 0 l (State.setSlot_kept p j 1 (State.setLake_kept p _ (Kept.refl _ s) rfl) rfl)
    rfl rfl rfl rfl) rfl

theorem State.bounds_of_lakeRun {p : Nat} {d : List Byte} (h : s.lakeRun p d = true) : p ≠ 0 ∧ xLakeSlot d < 2 := by
  simp only [State.lakeRun, Bool.and_eq_true, bne_iff_ne, decide_eq_true_eq] at h
  exact ⟨h.1.1.1.1, h.1.1.1.2⟩

theorem State.lakeImport_of_due (h : s.descDue e 7 x = true) (hlake : s.lakeRun x.owner x.bytes = true) (hdev : xDev x.bytes = 0)
    (hidle : s.ckpIdle x.owner = true) (hhost : host.status = 0) :
    ∃ u, Kept besideImports s u ∧ s.lakeImport e host = u.finish e ⟨0, xLen x.bytes, [], []⟩ := by
  obtain ⟨-, hrun⟩ := State.dmaForm_of_descDue h
  obtain ⟨hown, hslot⟩ := State.bounds_of_lakeRun hlake
  have hform : ¬ (x.owner = 0 ∨ 2 ≤ xLakeSlot x.bytes) := by omega
  let l := (List.range (xLen x.bytes / 264)).map fun i => (sliceB host.data (264 * i) 256, sliceB host.data (264 * i + 256) 8)
  let u := s.importBegun x.owner (xLakeSlot x.bytes) l
  have hu : Kept besideImports s u := State.importBegun_keeps ..
  refine ⟨if 0 + l.length = u.slotN x.owner then u.importEnded x.owner (xLakeSlot x.bytes) else u, ?_, ?_⟩
  · exact kept_ite (State.importEnded_keeps hu ..) hu
  · unfold State.lakeImport
    rw [hrun]
    dsimp only
    rw [if_neg hform, hdev, hlake, hidle, if_neg (by exact Bool.false_ne_true), if_neg (not_not.2 hhost), if_pos rfl]
    rfl

theorem dmaLakeImport_gives (hlake : s.lakeRun x.owner x.bytes = true) (h : s.descDue e 7 x = true) (hdev : xDev x.bytes = 0)
    (hidle : s.ckpIdle x.owner = true) (hhost : host.status = 0) : Gives (.dmaLakeImport e host) s fun t =>
      t.dma e = setFin ⟨0, xLen x.bytes, [], []⟩ (s.dma e) := by
  obtain ⟨u, hkept, hrun⟩ := State.lakeImport_of_due h hlake hdev hidle hhost
  exact ⟨_, congrArg Host.Outcome.next hrun, State.dma_finish_of_kept hkept rfl e _⟩

/-! ## The end of a descriptor (R612, R613) -/

theorem State.dma_setDma (l : List Desc) : (s.setDma e l).dma e = l := SMap.get_set_same ..

theorem State.fin_of_nextDesc_none {rest : List Desc} (hdma : s.dma e = x :: rest) (hnext : s.nextDesc e = none) : ∃ r, x.fin = some r := by
  unfold State.nextDesc at hnext
  rw [hdma, List.find?_eq_none] at hnext
  exact Option.ne_none_iff_exists'.1 (by simpa using hnext x List.mem_cons_self)

/-- What the end of a descriptor does not touch, once it has left its engine. -/
def besideEnds : Part → Bool := allBut [.regs, .out, .queues, .usage]

/-- R612, R613: what follows the end of a descriptor is no descriptor of the engine. -/
theorem State.descDone_keeps {rest : List Desc} (hdma : s.dma e = x :: rest) (hnext : s.nextDesc e = none) (hhalt : s.halted = false) :
    Kept besideEnds (s.setDma e rest) (s.descDone e) := by
  obtain ⟨r, hr⟩ := State.fin_of_nextDesc_none hdma hnext
  have hform : (s.dmaForm e 8 fun s _ => s) = s := by
    unfold State.dmaForm
    rw [hnext]
  unfold State.descDone
  rw [hform]
  dsimp only
  rw [hdma]
  dsimp only
  rw [hr]
  dsimp only
  rw [if_neg (by rw [hhalt]; exact Bool.false_ne_true)]
  have h1 : Kept besideEnds (s.setDma e rest) ((s.setDma e rest).sepiaRec (unitDma e) 0x31 x.owner r.code) :=
    State.sepiaRec_kept _ _ _ _ (Kept.refl _ _) rfl
  have h2 {c : Prop} [Decidable c] := kept_ite (c := c) h1
    (State.toHost_kept x.owner x.crec (xT x.bytes || xPlain x.bytes) (doneRec x.bytes r) h1 rfl)
  exact State.settle_kept _ (State.updBuf_kept _ _ _ _ (kept_ite (State.ringProdW_kept _ _ _ h2 rfl) h2) rfl) rfl rfl rfl

theorem dmaDescComplete_gives {rest : List Desc} (hdma : s.dma e = x :: rest) (hnext : s.nextDesc e = none) (hhalt : s.halted = false) :
    Gives (.dmaDescComplete e) s fun t => t.dma e = rest :=
  ⟨_, rfl, (State.dma_of_kept (State.descDone_keeps hdma hnext hhalt) rfl e).trans (State.dma_setDma rest)⟩

end

/-- Settles O45, row by row. The bytes that leave on an IDE stream are sealed as log entry 20 says (`Config.ideSealed`), and a COPY form moves
the leading bytes that log entry 20 admits. -/
theorem dmaRowsComplete : Obligations.DmaRowsComplete :=
  ⟨fun _ _ _ _ _ h hhost => dmaCopyIn_gives h hhost,
    fun _ _ _ _ h => dmaCopyOut_gives h,
    fun _ _ _ _ _ hok hhost => ⟨dmaGcmIn_gives hok hhost, dmaXtsIn_gives hok hhost⟩,
    fun _ _ _ _ _ hok hhost => ⟨dmaGcmOut_gives hok hhost, dmaXtsOut_gives hok⟩,
    fun _ _ _ hlake => ⟨fun _ h hslot => dmaLakeExport_gives hlake h hslot,
      fun _ h hdev hidle hhost => dmaLakeImport_gives hlake h hdev hidle hhost⟩,
    fun _ _ _ _ hdma hnext hhalt => dmaDescComplete_gives hdma hnext hhalt⟩

end Sys2Proof.Machine

/-! The block as a whole: what every command keeps, what a step runs, and the statements on queue, frame, memory and life cycle that
follow (spec, chapters 00, 06, 17 and 95). -/

namespace Sys2Proof.Machine

section
variable {c : Instr} {s t : State}

/-- The parts that a command may not change. -/
def untouched (c : Instr) : Part → Bool := allBut (touched c)

/-- Every command keeps the commands that wait, the programmed bits of the life cycle, memory's canonical form and each part that is not
named for it. -/
theorem exec_kept (h : exec c s = .next t) : Kept (untouched c) s t := by
  have hk := Kept.refl (untouched c) s
  cases c with
  | registerWrite =>
    exact execRegisterWrite_kept _ _ _ _ hk rfl rfl rfl rfl rfl rfl rfl rfl rfl rfl rfl rfl rfl rfl rfl rfl rfl rfl rfl rfl rfl rfl rfl rfl
      rfl rfl rfl rfl rfl rfl rfl rfl h
  | rcRead => exact execRcRead_kept _ _ hk rfl rfl rfl rfl rfl rfl rfl rfl h
  | loReadLatch => exact execLoReadLatch_kept _ _ hk rfl rfl rfl rfl rfl rfl rfl rfl h
  | hiReadShadow => exact execHiReadShadow_kept _ _ hk rfl rfl rfl rfl rfl rfl rfl rfl h
  | pairRead8byte => exact execPairRead8byte_kept _ _ hk rfl rfl rfl rfl rfl rfl rfl rfl h
  | pairWrite8byte =>
    exact execPairWrite8byte_kept _ _ _ _ hk rfl rfl rfl rfl rfl rfl rfl rfl rfl rfl rfl rfl rfl rfl rfl rfl rfl rfl rfl rfl rfl rfl rfl rfl
      rfl rfl rfl rfl rfl rfl rfl rfl h
  | accessTimeout => exact execAccessTimeout_kept _ _ _ hk rfl h
  | tamperEvent => exact execTamperEvent_kept _ hk rfl rfl rfl rfl h
  | halt => exact execHalt_kept hk rfl rfl rfl rfl rfl rfl rfl rfl rfl rfl rfl rfl h
  | haltStopComplete => exact execHaltStopComplete_kept hk rfl h
  | haltCmd => exact execHaltCmd_kept _ _ hk rfl rfl h
  | limiterEstimate => exact execLimiterEstimate_kept _ _ _ _ _ _ _ hk rfl rfl h
  | limiterCalibration => exact execLimiterCalibration_kept hk rfl rfl rfl h
  | thermalEstimate => exact execThermalEstimate_kept _ hk rfl rfl rfl h
  | thermtrip => exact execThermtrip_kept hk rfl rfl rfl rfl rfl rfl h
  | singleStep => exact execSingleStep_kept _ _ hk rfl rfl rfl h
  | stepHoldWrite => exact execStepHoldWrite_kept _ _ hk rfl rfl rfl h
  | fmtTableWrite => exact execFmtTableWrite_kept _ _ _ _ hk rfl rfl h
  | seqRun => exact execSeqRun_kept _ _ _ hk rfl rfl rfl rfl rfl rfl rfl rfl rfl rfl rfl rfl rfl rfl rfl rfl h
  | seqCont => exact execSeqCont_kept _ _ hk rfl rfl rfl rfl h
  | seqStop => exact execSeqStop_kept _ _ hk rfl rfl rfl rfl rfl h
  | seqResume => exact execSeqResume_kept _ _ hk rfl rfl rfl h
  | periodFillComplete => exact execPeriodFillComplete_kept _ _ hk rfl rfl rfl rfl rfl rfl rfl rfl rfl rfl rfl rfl h
  | gateWaitBeat => exact execGateWaitBeat_kept _ hk rfl rfl rfl rfl rfl rfl rfl h
  | gateOpen => exact execGateOpen_kept _ hk rfl rfl rfl rfl rfl rfl rfl rfl h
  | schedLost => exact execSchedLost_kept _ hk rfl rfl rfl rfl h
  | catchupLimitWrite => exact execCatchupLimitWrite_kept _ _ _ hk rfl rfl rfl rfl h
  | bundleExec => exact execBundleExec_kept _ _ hk rfl rfl rfl rfl rfl rfl rfl h
  | ctlNop => exact execCtlNop_kept _ hk rfl h
  | idle => exact execIdle_kept _ hk rfl h
  | fsig => exact execFsig_kept _ hk rfl rfl rfl rfl h
  | loopOp => exact execLoopOp_kept _ _ hk rfl rfl rfl rfl rfl rfl rfl rfl rfl rfl rfl rfl h
  | commit => exact execCommit_kept _ hk rfl rfl rfl rfl rfl rfl rfl rfl h
  | slack => exact execSlack_kept _ _ hk rfl rfl rfl rfl rfl rfl rfl h
  | endOp => exact execEndOp_kept _ _ hk rfl rfl rfl rfl rfl rfl rfl h
  | endComplete => exact execEndComplete_kept _ hk rfl rfl rfl rfl rfl rfl rfl h
  | periodEnd => exact execPeriodEnd_kept _ hk rfl rfl rfl rfl rfl rfl rfl h
  | grpStart => exact execGrpStart_kept _ _ hk rfl rfl rfl rfl rfl rfl rfl h
  | bodyStart => exact execBodyStart_kept _ hk rfl rfl rfl rfl rfl rfl rfl h
  | bodyEnd => exact execBodyEnd_kept _ _ _ hk rfl rfl rfl rfl rfl rfl rfl h
  | xferMemrd => exact execXferMemrd_kept _ hk rfl rfl rfl rfl rfl rfl rfl rfl h
  | xferMemwr => exact execXferMemwr_kept _ hk rfl rfl rfl rfl rfl rfl rfl rfl h
  | memTransferComplete => exact execMemTransferComplete_kept _ _ _ _ hk rfl rfl rfl rfl rfl rfl rfl rfl rfl rfl rfl rfl rfl h
  | xferNme => exact execXferNme_kept _ _ hk rfl rfl rfl rfl rfl rfl rfl rfl rfl rfl rfl rfl h
  | lltx => exact execLltx_kept _ hk rfl rfl rfl rfl rfl rfl rfl rfl h
  | llrx => exact execLlrx_kept _ hk rfl rfl rfl rfl rfl rfl rfl rfl rfl h
  | rload => exact execRload_kept _ hk rfl rfl rfl rfl rfl rfl rfl rfl h
  | rloadComplete => exact execRloadComplete_kept _ _ _ hk rfl rfl rfl rfl rfl rfl rfl rfl rfl rfl rfl rfl h
  | xferUpd => exact execXferUpd_kept _ _ hk rfl rfl rfl rfl rfl rfl rfl rfl rfl rfl rfl rfl h
  | meNop => exact execMeNop_kept _ _ _ _ hk rfl rfl rfl rfl rfl rfl rfl h
  | wload => exact execWload_kept _ _ _ _ hk rfl rfl rfl rfl rfl rfl rfl rfl h
  | mma => exact execMma_kept _ _ _ _ hk rfl rfl rfl rfl rfl rfl rfl rfl h
  | mout => exact execMout_kept _ _ _ _ hk rfl rfl rfl rfl rfl rfl rfl rfl h
  | veNop => exact execVeNop_kept _ _ _ hk rfl rfl rfl rfl rfl rfl rfl h
  | vld => exact execVld_kept _ _ _ hk rfl rfl rfl rfl rfl rfl rfl rfl h
  | vst => exact execVst_kept _ _ _ hk rfl rfl rfl rfl rfl rfl rfl rfl h
  | valuAdd => exact execValuAdd_kept _ _ _ hk rfl rfl rfl rfl rfl rfl rfl rfl h
  | valuSub => exact execValuSub_kept _ _ _ hk rfl rfl rfl rfl rfl rfl rfl rfl h
  | valuMul => exact execValuMul_kept _ _ _ hk rfl rfl rfl rfl rfl rfl rfl rfl h
  | valuFma => exact execValuFma_kept _ _ _ hk rfl rfl rfl rfl rfl rfl rfl rfl h
  | valuMax => exact execValuMax_kept _ _ _ hk rfl rfl rfl rfl rfl rfl rfl rfl h
  | valuMin => exact execValuMin_kept _ _ _ hk rfl rfl rfl rfl rfl rfl rfl rfl h
  | valuDiv => exact execValuDiv_kept _ _ _ hk rfl rfl rfl rfl rfl rfl rfl rfl h
  | valuSqrt => exact execValuSqrt_kept _ _ _ hk rfl rfl rfl rfl rfl rfl rfl rfl h
  | valuAbs => exact execValuAbs_kept _ _ _ hk rfl rfl rfl rfl rfl rfl rfl rfl h
  | valuNeg => exact execValuNeg_kept _ _ _ hk rfl rfl rfl rfl rfl rfl rfl rfl h
  | valuSel => exact execValuSel_kept _ _ _ hk rfl rfl rfl rfl rfl rfl rfl rfl h
  | valuCmpgt => exact execValuCmpgt_kept _ _ _ hk rfl rfl rfl rfl rfl rfl rfl rfl h
  | valuMov => exact execValuMov_kept _ _ _ hk rfl rfl rfl rfl rfl rfl rfl rfl h
  | vtrExp => exact execVtrExp_kept _ _ _ hk rfl rfl rfl rfl rfl rfl rfl rfl h
  | vtrExp2 => exact execVtrExp2_kept _ _ _ hk rfl rfl rfl rfl rfl rfl rfl rfl h
  | vtrLog => exact execVtrLog_kept _ _ _ hk rfl rfl rfl rfl rfl rfl rfl rfl h
  | vtrRecip => exact execVtrRecip_kept _ _ _ hk rfl rfl rfl rfl rfl rfl rfl rfl h
  | vtrRsqrt => exact execVtrRsqrt_kept _ _ _ hk rfl rfl rfl rfl rfl rfl rfl rfl h
  | vtrTanh => exact execVtrTanh_kept _ _ _ hk rfl rfl rfl rfl rfl rfl rfl rfl h
  | vtrSigmoid => exact execVtrSigmoid_kept _ _ _ hk rfl rfl rfl rfl rfl rfl rfl rfl h
  | vtrGelu => exact execVtrGelu_kept _ _ _ hk rfl rfl rfl rfl rfl rfl rfl rfl h
  | vtrSin => exact execVtrSin_kept _ _ _ hk rfl rfl rfl rfl rfl rfl rfl rfl h
  | vtrCos => exact execVtrCos_kept _ _ _ hk rfl rfl rfl rfl rfl rfl rfl rfl h
  | vredSum => exact execVredSum_kept _ _ _ hk rfl rfl rfl rfl rfl rfl rfl rfl h
  | vredMax => exact execVredMax_kept _ _ _ hk rfl rfl rfl rfl rfl rfl rfl rfl h
  | vredMin => exact execVredMin_kept _ _ _ hk rfl rfl rfl rfl rfl rfl rfl rfl h
  | vredSumsq => exact execVredSumsq_kept _ _ _ hk rfl rfl rfl rfl rfl rfl rfl rfl h
  | vrnd => exact execVrnd_kept _ _ _ hk rfl rfl rfl rfl rfl rfl rfl h
  | vsptr => exact execVsptr_kept _ _ _ hk rfl rfl rfl rfl rfl rfl rfl h
  | seNop => exact execSeNop_kept _ _ _ hk rfl rfl rfl rfl rfl rfl rfl h
  | scopy => exact execScopy_kept _ _ _ hk rfl rfl rfl rfl rfl rfl rfl rfl h
  | rbput => exact execRbput_kept _ _ _ hk rfl rfl rfl rfl rfl rfl rfl rfl h
  | rbget => exact execRbget_kept _ _ _ hk rfl rfl rfl rfl rfl rfl rfl rfl h
  | meshLanding => exact execMeshLanding_kept _ _ _ hk rfl rfl rfl rfl rfl rfl rfl rfl rfl h
  | rget => exact execRget_kept _ _ _ hk rfl rfl rfl rfl rfl rfl rfl h
  | rput => exact execRput_kept _ _ _ hk rfl rfl rfl rfl rfl rfl rfl h
  | rgetBurstMove => exact execRgetBurstMove_kept _ _ _ _ _ hk rfl rfl rfl rfl rfl rfl rfl rfl rfl rfl rfl rfl rfl h
  | rputBurstMove => exact execRputBurstMove_kept _ _ _ _ _ hk rfl rfl rfl rfl rfl rfl rfl rfl rfl rfl rfl rfl rfl rfl h
  | ringProdWrite => exact execRingProdWrite_kept _ _ _ _ _ hk rfl rfl h
  | ringConsWrite => exact execRingConsWrite_kept _ _ _ _ _ hk rfl rfl h
  | ringEod => exact execRingEod_kept _ _ _ _ hk rfl rfl h
  | ringReset => exact execRingReset_kept _ _ _ _ hk rfl rfl rfl h
  | ringCfgWrite => exact execRingCfgWrite_kept _ _ _ _ _ _ hk rfl rfl h
  | scrubRead => exact execScrubRead_kept _ _ _ _ _ _ hk rfl rfl rfl rfl h
  | columnTest => exact execColumnTest_kept _ _ _ _ hk rfl rfl rfl h
  | columnTestVerdict => exact execColumnTestVerdict_kept _ _ _ _ _ hk rfl rfl rfl rfl h
  | retirePendSet => exact execRetirePendSet_kept _ _ _ hk rfl rfl h
  | psplitWrite => exact execPsplitWrite_kept _ _ _ hk rfl rfl h
  | sectorVerify => exact execSectorVerify_kept _ _ _ _ hk rfl rfl rfl rfl rfl rfl rfl h
  | tagGrant => exact execTagGrant_kept _ _ _ _ hk rfl rfl h
  | refresh n pc bank temp => exact execRefresh_kept n pc bank temp hk rfl h
  | patrolRead => exact execPatrolRead_kept _ _ _ hk rfl rfl rfl h
  | rowRepair => exact execRowRepair_kept _ _ hk rfl h
  | nmeRecordStart => exact execNmeRecordStart_kept _ hk rfl rfl rfl h
  | nmeNop => exact execNmeNop_kept _ _ hk rfl rfl rfl rfl rfl rfl rfl rfl h
  | gemv => exact execGemv_kept _ _ _ hk rfl rfl rfl rfl rfl rfl rfl rfl rfl rfl rfl h
  | nmeCopy => exact execNmeCopy_kept _ _ _ hk rfl rfl rfl rfl rfl rfl rfl rfl rfl rfl rfl h
  | fill => exact execFill_kept _ _ hk rfl rfl rfl rfl rfl rfl rfl rfl rfl rfl rfl h
  | zero => exact execZero_kept _ _ hk rfl rfl rfl rfl rfl rfl rfl rfl rfl rfl rfl h
  | wipe => exact execWipe_kept _ _ hk rfl rfl rfl rfl rfl rfl rfl rfl rfl rfl h
  | gather => exact execGather_kept _ _ _ hk rfl rfl rfl rfl rfl rfl rfl rfl rfl rfl rfl h
  | scatterAdd => exact execScatterAdd_kept _ _ _ hk rfl rfl rfl rfl rfl rfl rfl rfl rfl rfl rfl h
  | nmePartComplete => exact execNmePartComplete_kept _ hk rfl rfl h
  | updWindowWrite => exact execUpdWindowWrite_kept _ _ _ _ hk rfl rfl h
  | updConfigWrite => exact execUpdConfigWrite_kept _ _ _ _ hk rfl rfl rfl h
  | updTensor => exact execUpdTensor_kept _ _ _ _ hk rfl rfl rfl rfl rfl rfl rfl rfl rfl rfl rfl h
  | normOut => exact execNormOut_kept _ hk rfl rfl rfl rfl h
  | normIn => exact execNormIn_kept _ _ hk rfl rfl rfl rfl rfl h
  | updStreamComplete => exact execUpdStreamComplete_kept _ _ hk rfl rfl rfl rfl rfl h
  | commitDecision => exact execCommitDecision_kept _ hk rfl rfl rfl rfl rfl rfl rfl rfl rfl rfl rfl rfl rfl h
  | announceSample => exact execAnnounceSample_kept hk rfl rfl rfl h
  | announceLostRepeat => exact execAnnounceLostRepeat_kept _ hk rfl rfl h
  | announcementReceived => exact execAnnouncementReceived_kept hk rfl rfl rfl h
  | peerHoldExpire => exact execPeerHoldExpire_kept _ hk rfl rfl h
  | linkFrameReceive => exact execLinkFrameReceive_kept _ _ _ hk rfl rfl rfl rfl rfl rfl rfl rfl h
  | schedFrame => exact execSchedFrame_kept _ hk rfl rfl rfl rfl rfl rfl rfl rfl rfl h
  | ctlFrame => exact execCtlFrame_kept _ hk rfl rfl h
  | armFrame => exact execArmFrame_kept _ hk rfl rfl rfl h
  | bulkFrame => exact execBulkFrame_kept _ hk rfl rfl h
  | spdmFrame => exact execSpdmFrame_kept _ hk rfl rfl h
  | abortFrame => exact execAbortFrame_kept _ hk rfl rfl rfl rfl rfl rfl rfl rfl rfl h
  | idleBlock => exact execIdleBlock_kept _ _ hk rfl rfl rfl rfl h
  | nakReplay => exact execNakReplay_kept _ hk rfl rfl rfl rfl rfl rfl rfl rfl h
  | frameSend => exact execFrameSend_kept _ _ _ hk rfl rfl rfl rfl rfl rfl rfl rfl rfl h
  | windowSendStart => exact execWindowSendStart_kept _ _ _ hk rfl rfl rfl rfl rfl rfl rfl rfl rfl h
  | windowArmRelease => exact execWindowArmRelease_kept _ _ hk rfl rfl rfl h
  | trainHold => exact execTrainHold_kept _ hk rfl rfl rfl rfl rfl rfl rfl rfl h
  | trainDetect => exact execTrainDetect_kept _ _ hk rfl rfl rfl rfl rfl rfl rfl rfl h
  | trainLanes => exact execTrainLanes_kept _ _ _ hk rfl rfl rfl rfl rfl rfl rfl rfl h
  | trainCaps => exact execTrainCaps_kept _ _ hk rfl rfl rfl rfl rfl rfl rfl rfl h
  | trainQual => exact execTrainQual_kept _ _ _ _ hk rfl rfl rfl rfl rfl rfl rfl rfl h
  | trainInit => exact execTrainInit_kept _ _ hk rfl rfl rfl rfl rfl rfl rfl rfl h
  | trainAuth => exact execTrainAuth_kept _ _ hk rfl rfl rfl rfl rfl rfl rfl rfl h
  | trainActive => exact execTrainActive_kept _ hk rfl rfl rfl rfl rfl h
  | trainTimeout => exact execTrainTimeout_kept _ hk rfl rfl rfl rfl rfl rfl rfl rfl h
  | laneLockLoss => exact execLaneLockLoss_kept _ _ hk rfl rfl rfl rfl rfl rfl rfl rfl h
  | portEnable => exact execPortEnable_kept _ _ _ hk rfl rfl rfl rfl rfl rfl rfl rfl h
  | portRetrainCmd => exact execPortRetrainCmd_kept _ _ hk rfl rfl rfl rfl rfl rfl rfl rfl h
  | portRekeyCmd => exact execPortRekeyCmd_kept _ _ hk rfl rfl h
  | trainLock => exact execTrainLock_kept _ _ hk rfl rfl h
  | trainTableWrite => exact execTrainTableWrite_kept _ _ _ _ hk rfl rfl h
  | llSlotWrite => exact execLlSlotWrite_kept _ _ _ _ hk rfl rfl rfl h
  | rekeyTimer => exact execRekeyTimer_kept _ _ hk rfl rfl rfl rfl h
  | rekey => exact execRekey_kept _ _ _ _ hk rfl rfl rfl rfl rfl rfl rfl rfl rfl h
  | keyUpdateReceived => exact execKeyUpdateReceived_kept _ _ _ _ hk rfl rfl rfl rfl h
  | colConfigWrite => exact execColConfigWrite_kept _ _ _ _ hk rfl rfl h
  | ccBufferGrant => exact execCcBufferGrant_kept _ _ hk rfl rfl h
  | ccSumF32 => exact execCcSumF32_kept _ _ _ hk rfl rfl rfl rfl rfl rfl rfl rfl h
  | ccMaxF32 => exact execCcMaxF32_kept _ _ _ hk rfl rfl rfl rfl rfl rfl rfl rfl h
  | ccOrU32 => exact execCcOrU32_kept _ _ _ hk rfl rfl rfl rfl rfl rfl rfl rfl h
  | ccNormrec => exact execCcNormrec_kept _ _ _ hk rfl rfl rfl rfl rfl rfl rfl rfl h
  | ccStage => exact execCcStage_kept _ _ hk rfl rfl rfl rfl rfl h
  | ccComplete => exact execCcComplete_kept _ _ hk rfl rfl rfl rfl rfl rfl h
  | ccTimeout => exact execCcTimeout_kept _ _ hk rfl rfl rfl rfl h
  | snapshotTimer => exact execSnapshotTimer_kept _ hk rfl h
  | snapshotComplete => exact execSnapshotComplete_kept _ _ hk rfl rfl rfl rfl rfl rfl rfl rfl rfl rfl h
  | drainSend => exact execDrainSend_kept _ _ hk rfl rfl rfl rfl rfl h
  | drainDataReceive => exact execDrainDataReceive_kept _ hk rfl rfl rfl rfl rfl h
  | drainEndReceive => exact execDrainEndReceive_kept _ hk rfl rfl rfl rfl rfl rfl h
  | readbackComplete => exact execReadbackComplete_kept _ _ hk rfl rfl rfl rfl h
  | drainResultReceive => exact execDrainResultReceive_kept _ hk rfl rfl rfl h
  | drainPullReceive => exact execDrainPullReceive_kept _ hk rfl rfl rfl h
  | drainAbandonReceive => exact execDrainAbandonReceive_kept _ hk rfl rfl h
  | drainCfgWrite => exact execDrainCfgWrite_kept _ _ _ hk rfl rfl rfl rfl h
  | ckpAbort => exact execCkpAbort_kept _ _ _ hk rfl rfl rfl rfl rfl rfl rfl rfl rfl rfl rfl rfl rfl rfl rfl rfl h
  | quiet => exact execQuiet_kept _ hk rfl rfl rfl h
  | ckpRestore => exact execCkpRestore_kept _ _ _ _ hk rfl rfl rfl rfl rfl rfl rfl rfl rfl rfl rfl rfl rfl rfl rfl rfl h
  | restoreComplete => exact execRestoreComplete_kept _ _ hk rfl rfl rfl rfl rfl rfl rfl rfl rfl rfl rfl h
  | ckpPull => exact execCkpPull_kept _ _ _ hk rfl rfl rfl rfl rfl rfl rfl rfl rfl rfl rfl rfl rfl rfl rfl rfl h
  | ckpHostack => exact execCkpHostack_kept _ _ _ hk rfl rfl h
  | ckpConfigWrite => exact execCkpConfigWrite_kept _ _ _ _ hk rfl rfl rfl rfl rfl rfl rfl rfl rfl rfl rfl rfl rfl rfl rfl rfl h
  | mailboxGo => exact execMailboxGo_kept _ _ hk rfl rfl rfl h
  | getInfo => exact execGetInfo_kept hk rfl rfl rfl h
  | slotStatus => exact execSlotStatus_kept hk rfl rfl rfl h
  | sessionKek => exact execSessionKek_kept hk rfl rfl rfl rfl h
  | importKey => exact execImportKey_kept hk rfl rfl rfl rfl h
  | derive => exact execDerive_kept hk rfl rfl rfl rfl h
  | derivePair => exact execDerivePair_kept hk rfl rfl rfl rfl h
  | revoke => exact execRevoke_kept hk rfl rfl rfl rfl h
  | setLimit => exact execSetLimit_kept hk rfl rfl rfl rfl h
  | partRevoke => exact execPartRevoke_kept hk rfl rfl rfl rfl rfl rfl rfl rfl rfl rfl rfl rfl rfl rfl rfl rfl h
  | mordantShare => exact execMordantShare_kept hk rfl rfl rfl rfl h
  | mordantDerive => exact execMordantDerive_kept hk rfl rfl rfl rfl h
  | lakeBind => exact execLakeBind_kept hk rfl rfl rfl h
  | lakeKey => exact execLakeKey_kept hk rfl rfl rfl rfl h
  | getIdentity => exact execGetIdentity_kept hk rfl rfl rfl h
  | ifcRekey => exact execIfcRekey_kept _ hk rfl rfl rfl rfl h
  | drbgReseed => exact execDrbgReseed_kept hk rfl h
  | entropyFail => exact execEntropyFail_kept hk rfl h
  | regionEntryWrite => exact execRegionEntryWrite_kept _ _ _ _ _ hk rfl rfl h
  | bar2Access => exact execBar2Access_kept _ _ _ _ _ _ hk rfl rfl rfl rfl rfl rfl rfl rfl h
  | ideIntegrityFail => exact execIdeIntegrityFail_kept _ hk rfl rfl rfl rfl h
  | ideKm => exact execIdeKm_kept _ _ _ _ _ hk rfl rfl h
  | layoutWrite => exact execLayoutWrite_kept _ _ hk rfl rfl rfl rfl h
  | assign => exact execAssign_kept _ _ hk rfl rfl rfl rfl rfl h
  | admissionComplete => exact execAdmissionComplete_kept _ hk rfl rfl rfl rfl rfl rfl rfl rfl rfl rfl rfl rfl rfl rfl rfl rfl h
  | lockInterfaceRequest => exact execLockInterfaceRequest_kept _ hk rfl rfl rfl rfl h
  | startInterfaceRequest => exact execStartInterfaceRequest_kept _ _ hk rfl rfl rfl h
  | stopInterfaceRequest => exact execStopInterfaceRequest_kept _ hk rfl rfl rfl rfl rfl rfl rfl rfl rfl rfl rfl rfl rfl rfl rfl rfl h
  | getDeviceInterfaceReport => exact execGetDeviceInterfaceReport_kept _ hk rfl h
  | getMeasurements => exact execGetMeasurements_kept _ _ _ _ hk rfl h
  | getCertificate => exact execGetCertificate_kept _ _ hk rfl h
  | keyExchange => exact execKeyExchange_kept _ _ _ _ _ hk rfl rfl h
  | mordantReport => exact execMordantReport_kept _ _ hk rfl h
  | functionLevelReset => exact execFunctionLevelReset_kept _ hk rfl rfl rfl rfl rfl rfl rfl rfl rfl rfl rfl rfl rfl rfl rfl rfl rfl h
  | vfEnableClear => exact execVfEnableClear_kept hk rfl rfl rfl rfl rfl rfl rfl rfl rfl rfl rfl rfl rfl rfl rfl rfl rfl h
  | removalComplete => exact execRemovalComplete_kept _ hk rfl rfl rfl rfl rfl rfl rfl rfl rfl rfl rfl rfl rfl rfl rfl rfl rfl rfl rfl rfl h
  | partitionRemovedNotice => exact execPartitionRemovedNotice_kept _ _ hk rfl rfl h
  | queueDoorbell => exact execQueueDoorbell_kept _ _ _ _ hk rfl rfl h
  | queueEntryFetch => exact execQueueEntryFetch_kept _ _ _ _ hk rfl rfl rfl h
  | cbGrant => exact execCbGrant_kept _ hk rfl h
  | pktNop => exact execPktNop_kept _ _ _ hk rfl rfl rfl h
  | pktWait => exact execPktWait_kept _ _ _ hk rfl rfl rfl h
  | pktSignal => exact execPktSignal_kept _ _ _ hk rfl rfl rfl h
  | pktReset => exact execPktReset_kept _ _ _ hk rfl rfl rfl h
  | pktDma => exact execPktDma_kept _ _ _ hk rfl rfl rfl rfl rfl h
  | pktSeqRun => exact execPktSeqRun_kept _ _ _ _ hk rfl rfl rfl rfl rfl rfl rfl rfl rfl rfl rfl rfl rfl rfl rfl rfl h
  | pktRegWrite => exact execPktRegWrite_kept _ _ _ hk rfl rfl rfl rfl h
  | pktCcLaunch => exact execPktCcLaunch_kept _ _ _ hk rfl rfl rfl rfl h
  | dmaCopyIn => exact execDmaCopyIn_kept _ _ _ hk rfl rfl rfl rfl rfl rfl rfl rfl rfl h
  | dmaCopyOut => exact execDmaCopyOut_kept _ _ hk rfl rfl rfl rfl rfl rfl rfl rfl h
  | dmaGcmIn => exact execDmaGcmIn_kept _ _ _ hk rfl rfl rfl rfl rfl rfl rfl rfl rfl h
  | dmaGcmOut => exact execDmaGcmOut_kept _ _ _ hk rfl rfl rfl rfl rfl rfl rfl rfl h
  | dmaXtsIn => exact execDmaXtsIn_kept _ _ _ hk rfl rfl rfl rfl rfl rfl rfl rfl rfl h
  | dmaXtsOut => exact execDmaXtsOut_kept _ _ hk rfl rfl rfl rfl rfl rfl rfl rfl h
  | dmaLakeExport => exact execDmaLakeExport_kept _ hk rfl rfl rfl rfl h
  | dmaLakeImport => exact execDmaLakeImport_kept _ _ hk rfl rfl rfl rfl rfl h
  | dmaDescComplete => exact execDmaDescComplete_kept _ hk rfl rfl rfl rfl rfl h
  | queueCancel => exact execQueueCancel_kept _ _ _ hk rfl rfl rfl h
  | contextKill => exact execContextKill_kept _ _ _ hk rfl rfl rfl h
  | queueEnable => exact execQueueEnable_kept _ _ _ _ hk rfl rfl rfl h
  | fenceWrite => exact execFenceWrite_kept _ _ _ _ hk rfl rfl rfl h
  | feedLoss => exact execFeedLoss_kept _ hk rfl rfl rfl h
  | feedOvervoltage => exact execFeedOvervoltage_kept _ hk rfl rfl rfl h
  | feedReconnect => exact execFeedReconnect_kept _ hk rfl h
  | sagWarn => exact execSagWarn_kept hk rfl rfl rfl rfl rfl rfl rfl h
  | sagEnd => exact execSagEnd_kept hk rfl rfl rfl rfl rfl rfl h
  | brownout =>
    exact execBrownout_kept hk rfl rfl rfl rfl rfl rfl rfl rfl rfl rfl rfl rfl rfl rfl rfl rfl rfl rfl rfl rfl rfl rfl rfl rfl rfl rfl rfl
      rfl rfl h
  | vbatCheck => exact execVbatCheck_kept _ hk rfl rfl h
  | powerReport => exact execPowerReport_kept hk rfl h
  | limModeWrite => exact execLimModeWrite_kept _ _ hk rfl rfl rfl rfl h
  | limModeLock => exact execLimModeLock_kept _ _ hk rfl rfl rfl rfl h
  | fixedFreqWrite => exact execFixedFreqWrite_kept _ _ hk rfl rfl rfl rfl h
  | pwrCapWrite => exact execPwrCapWrite_kept _ _ hk rfl rfl h
  | powerOn =>
    exact execPowerOn_kept _ hk rfl rfl rfl rfl rfl rfl rfl rfl rfl rfl rfl rfl rfl rfl rfl rfl rfl rfl rfl rfl rfl rfl rfl rfl rfl rfl rfl
      rfl rfl h
  | perstAssert =>
    exact execPerstAssert_kept hk rfl rfl rfl rfl rfl rfl rfl rfl rfl rfl rfl rfl rfl rfl rfl rfl rfl rfl rfl rfl rfl rfl rfl rfl rfl rfl rfl
      rfl rfl h
  | hotReset =>
    exact execHotReset_kept hk rfl rfl rfl rfl rfl rfl rfl rfl rfl rfl rfl rfl rfl rfl rfl rfl rfl rfl rfl rfl rfl rfl rfl rfl rfl rfl rfl
      rfl rfl h
  | warmResetCmd =>
    exact execWarmResetCmd_kept _ _ hk rfl rfl rfl rfl rfl rfl rfl rfl rfl rfl rfl rfl rfl rfl rfl rfl rfl rfl rfl rfl rfl rfl rfl rfl rfl
      rfl rfl rfl rfl rfl h
  | maintResetCmd =>
    exact execMaintResetCmd_kept _ _ hk rfl rfl rfl rfl rfl rfl rfl rfl rfl rfl rfl rfl rfl rfl rfl rfl rfl rfl rfl rfl rfl rfl rfl rfl rfl
      rfl rfl rfl rfl rfl h
  | keeperWatchdog =>
    exact execKeeperWatchdog_kept hk rfl rfl rfl rfl rfl rfl rfl rfl rfl rfl rfl rfl rfl rfl rfl rfl rfl rfl rfl rfl rfl rfl rfl rfl rfl rfl
      rfl rfl rfl h
  | wipeDone => exact execWipeDone_kept _ _ hk rfl rfl rfl rfl rfl rfl rfl rfl rfl rfl h
  | bootReady => exact execBootReady_kept hk rfl rfl rfl rfl rfl rfl rfl rfl rfl rfl h
  | pcieConfigRequest => exact execPcieConfigRequest_kept _ _ _ hk rfl rfl rfl rfl rfl rfl rfl rfl rfl rfl rfl rfl rfl rfl rfl rfl rfl h
  | pldmFwUpdate => exact execPldmFwUpdate_kept _ _ _ hk rfl rfl rfl h
  | activateFirmware => exact execActivateFirmware_kept _ hk rfl h
  | lifecycleTransition => exact execLifecycleTransition_kept _ _ hk rfl rfl rfl h
  | fuseProgramComplete =>
    exact execFuseProgramComplete_kept hk rfl rfl rfl rfl rfl rfl rfl rfl rfl rfl rfl rfl rfl rfl rfl rfl rfl rfl rfl rfl rfl rfl rfl rfl rfl
      rfl rfl rfl rfl h
  | debugLevelWrite =>
    exact execDebugLevelWrite_kept _ _ hk rfl rfl rfl rfl rfl rfl rfl rfl rfl rfl rfl rfl rfl rfl rfl rfl rfl rfl rfl rfl rfl rfl rfl rfl rfl
      rfl rfl rfl rfl rfl h
  | challengeGen =>
    exact execChallengeGen_kept _ _ hk rfl rfl rfl rfl rfl rfl rfl rfl rfl rfl rfl rfl rfl rfl rfl rfl rfl rfl rfl rfl rfl rfl rfl rfl rfl
      rfl rfl rfl rfl rfl h
  | responseSubmit =>
    exact execResponseSubmit_kept _ _ hk rfl rfl rfl rfl rfl rfl rfl rfl rfl rfl rfl rfl rfl rfl rfl rfl rfl rfl rfl rfl rfl rfl rfl rfl rfl
      rfl rfl rfl rfl rfl h
  | challengeExpire => exact execChallengeExpire_kept hk rfl rfl h
  | genLockoutEnd => exact execGenLockoutEnd_kept hk rfl h
  | syncFrame => exact execSyncFrame_kept _ hk rfl rfl rfl rfl rfl rfl h
  | moduleFrame => exact execModuleFrame_kept _ _ _ hk rfl rfl rfl h
  | moduleFrameTransmit => exact execModuleFrameTransmit_kept _ _ hk rfl rfl rfl rfl rfl rfl rfl rfl rfl h
  | syncLoss => exact execSyncLoss_kept hk rfl rfl h
  | resyncAligned => exact execResyncAligned_kept hk rfl h
  | tbResyncCmd => exact execTbResyncCmd_kept _ _ hk rfl rfl rfl h
  | hbKick => exact execHbKick_kept _ hk rfl rfl h
  | hbKickTimeout => exact execHbKickTimeout_kept hk rfl h
  | timeOffsetWrite => exact execTimeOffsetWrite_kept _ _ hk rfl rfl rfl h
  | timeProbe => exact execTimeProbe_kept _ _ hk rfl rfl rfl rfl h
  | timeProbeReceived => exact execTimeProbeReceived_kept _ hk rfl h
  | timeReply => exact execTimeReply_kept _ _ _ _ hk rfl rfl rfl h
  | timeProbeTimeout => exact execTimeProbeTimeout_kept hk rfl rfl rfl h
  | entdaa => exact execEntdaa_kept _ hk rfl h
  | setdasa => exact execSetdasa_kept _ _ hk rfl h
  | getSensorReading => exact execGetSensorReading_kept _ _ hk rfl h
  | setEventReceiver => exact execSetEventReceiver_kept _ _ hk rfl rfl h
  | pollForPlatformEvent => exact execPollForPlatformEvent_kept _ hk rfl h
  | meterCloseSchedule => exact execMeterCloseSchedule_kept hk rfl rfl rfl rfl rfl h
  | meterCloseOperator => exact execMeterCloseOperator_kept _ _ hk rfl rfl rfl rfl rfl h
  | recordSeal => exact execRecordSeal_kept hk rfl rfl rfl h
  | rtcSet => exact execRtcSet_kept _ _ hk rfl rfl rfl rfl rfl h
  | counterConfigWrite => exact execCounterConfigWrite_kept _ _ _ _ hk rfl rfl h
  | counterClear => exact execCounterClear_kept _ _ _ hk rfl rfl rfl h
  | deviceFreeze => exact execDeviceFreeze_kept _ _ hk rfl rfl rfl h
  | deviceThaw => exact execDeviceThaw_kept _ _ hk rfl rfl rfl h
  | partitionFreeze => exact execPartitionFreeze_kept _ _ _ hk rfl rfl rfl h
  | partitionThaw => exact execPartitionThaw_kept _ _ _ hk rfl rfl rfl h
  | operatorDump => exact execOperatorDump_kept _ _ hk rfl rfl rfl rfl h
  | tenantDumps => exact execTenantDumps_kept _ _ hk rfl rfl rfl rfl h
  | tenantDump => exact execTenantDump_kept _ _ _ hk rfl rfl rfl rfl h
  | dumpComplete => exact execDumpComplete_kept _ _ hk rfl rfl rfl rfl rfl h
  | debugWindowAccess => exact execDebugWindowAccess_kept _ _ _ _ _ hk rfl rfl rfl rfl rfl rfl rfl rfl h
  | hotInsert => exact execHotInsert_kept hk rfl h
  | perstRelease => exact execPerstRelease_kept hk rfl rfl h
  | inputSample => exact execInputSample_kept _ _ _ hk rfl rfl h
  | meterMemTick => exact execMeterMemTick_kept hk rfl rfl h
  | rowRepairComplete => exact execRowRepairComplete_kept _ _ hk rfl rfl h
  | platformEventAck => exact execPlatformEventAck_kept _ hk rfl h

/-- What a step runs: one ACLK cycle where no command waits, and otherwise the front command on the rest of the queue. -/
theorem step_cases (h : step s = .next t) :
    t = s.tick ∨ ∃ c rest, s.pending = c :: rest ∧ exec c { s with pending := rest } = .next t := by
  unfold step at h
  split at h
  · injection h with h
    exact .inl h.symm
  · next c rest hp => exact .inr ⟨c, rest, hp, h⟩

theorem step_of_cons (c : Instr) (rest : List Instr) :
    step { s with pending := c :: rest } = exec c { s with pending := rest } := rfl
theorem step_of_nil (h : s.pending = []) : step s = .next s.tick := by unfold step; rw [h]

/-- What every step keeps of the fuses and of memory. -/
theorem step_keeps (h : step s = .next t) :
    (∀ i, bitOf s.fuses.code i = true → bitOf t.fuses.code i = true) ∧ (s.memWf = true → t.memWf = true) := by
  obtain rfl | ⟨c, rest, -, he⟩ := step_cases h
  · exact ⟨fun _ hi => hi, id⟩
  · exact ⟨(exec_kept he).code, (exec_kept he).memWf⟩

end

/-- Settles O3: the parts that `exec_kept` covers are those outside `touched`. -/
theorem frameOfEveryCommand : Obligations.FrameOfEveryCommand :=
  fun _ _ _ h _ hx => (exec_kept h).same (allBut_eq_true.2 hx)

/-- Settles O6. -/
theorem stepKeepsMemoryCanonical : Obligations.StepKeepsMemoryCanonical := fun _ _ hwf h => (step_keeps h).2 hwf

/-- Settles O7. -/
theorem lifecycleBitsOneWay : Obligations.LifecycleBitsOneWay := fun _ _ h => (step_keeps h).1

/-- Settles O2. -/
theorem waitingQueueKept : Obligations.WaitingQueueKept := fun _ _ _ h => (exec_kept h).pending

/-- Settles O1. -/
theorem frontCommandRuns : Obligations.FrontCommandRuns := ⟨fun _ c rest => step_of_cons c rest, fun _ h => step_of_nil h⟩

/-- Settles O5: the memory of `State.reset` lists no byte. -/
theorem resetMemoryCanonical : Obligations.ResetMemoryCanonical := by
  unfold Obligations.ResetMemoryCanonical
  rfl

end Sys2Proof.Machine

/-! Registers as the rows of supplies, resets, management and debug need them: one field after a write by access codes, the bit that an
interrupt sets, a 64-bit pair, and a pass over the partitions that leaves a register alone. -/

namespace Sys2Proof.Machine

section
variable {s t : State} {a b : Nat} {f g : Fld}

/-- A command that is a write of a register, once the write is granted (R17). -/
theorem gives_of_write {c : Instr} {r : RegReq} {w : State → State} {P : State → Prop} (he : exec c s = .next (s.write r a w))
    (hg : s.grants r a = true) (h : P (w s)) : Gives c s P :=
  ⟨_, he, (State.write_of_grants w hg).symm ▸ h⟩

/-! ## One field of a written register -/

/-- The field `f` of the register at `a`, as the register tables describe it. -/
def fieldAt (a : Nat) (f : Fld) : Option FieldDesc := (regDesc a).bind fun x => x.1.fields.find? fun d => d.fld == f

theorem State.fget_regWrite {d : FieldDesc} (v : Word) (h : fieldAt a f = some d) :
    (s.regWrite a v).fget a f = d.written (s.lockOf a) (f.get v) (s.fget a f) := by
  obtain ⟨x, hx, hd⟩ := Option.bind_eq_some_iff.1 h
  have hf : d.fld = f := by simpa using List.find?_some hd
  subst hf
  exact s.get_rd_regWrite v hx (List.mem_of_find?_eq_some hd)

theorem State.fget_regWrite_rw {n : Nat} (v : Word) (h : fieldAt a f = some ⟨f, .rw, n, []⟩) : (s.regWrite a v).fget a f = f.get v :=
  State.fget_regWrite v h

theorem State.flag_regWrite_rw {n : Nat} (v : Word) (h : fieldAt a f = some ⟨f, .rw, n, []⟩) :
    (s.regWrite a v).flag a f = (f.get v == 1) := by
  unfold State.flag
  rw [State.fget_regWrite_rw v h]

/-- A read-only field and a command bit keep what they hold. -/
theorem State.fget_regWrite_fixed {d : FieldDesc} (v : Word) (h : fieldAt a f = some d) (hd : d.acc = .ro ∨ d.acc = .cmd) :
    (s.regWrite a v).fget a f = s.fget a f := by
  rw [State.fget_regWrite v h]
  rcases hd with hd | hd <;> simp [FieldDesc.written, hd]

/-- A word whose one field took what it held before is the word with the field put. -/
theorem State.rd_regWrite_single {d : RegDesc} {ix : List Nat} {x : FieldDesc} (v : Word) (h : regDesc a = some (d, ix))
    (hf : d.fields = [x]) : (s.regWrite a v).rd a = x.write (s.lockOf a) v (s.rd a) := by
  rw [s.rd_regWrite v h, hf]
  rfl

theorem State.fget_regWrite_ne (v : Word) (h : b ≠ a) : (s.regWrite a v).fget b f = s.fget b f :=
  State.fget_of_rd (s.rd_regWrite_ne v h)

theorem State.flag_fput_zero (h : f.lo + f.width ≤ 32) : (s.fput a f 0).flag a f = false := by
  rw [State.flag, s.fget_fput _ _ _ h, Nat.zero_mod]
  rfl

/-! ## Interrupts -/

/-- The status bit of a one-bit field is set by the interrupt of its mask. -/
theorem State.fget_irq_mask (fn vec en : Nat) (hw : f.width = 1) (h : f.lo < 32) : (s.irq fn vec a en f.mask).fget a f = 1 := by
  have hlt : 2 ^ f.lo < 2 ^ 32 := Nat.pow_lt_pow_right (by omega) h
  have hbit : ((s.rd a ||| BitVec.ofNat 32 (2 ^ f.lo)).toNat).testBit f.lo = true := by
    rw [BitVec.toNat_or, BitVec.toNat_ofNat, Nat.mod_eq_of_lt hlt, Nat.testBit_or, Nat.testBit_two_pow_self, Bool.or_true]
  have h1 : (s.rd a ||| BitVec.ofNat 32 (2 ^ f.lo)).toNat / 2 ^ f.lo % 2 = 1 := by
    simpa [Nat.testBit, Nat.shiftRight_eq_div_pow, Nat.one_and_eq_mod_two, Nat.and_one_is_mod] using hbit
  simp only [State.fget, s.rd_irq, Fld.get, bitsOf, Fld.mask, hw]
  exact h1

theorem State.rd_irqPwr (f : Fld) (h : a ≠ Reg.PWR_INT_STATUS) : (s.irqPwr f).rd a = s.rd a := State.rd_irq_ne _ _ _ _ _ _ h
theorem State.fget_irqPwr (g : Fld) (h : a ≠ Reg.PWR_INT_STATUS) : (s.irqPwr g).fget a f = s.fget a f :=
  State.fget_of_rd (State.rd_irqPwr g h)
theorem State.irqPwr_keeps (f : Fld) : Kept (allBut [.regs, .out]) s (s.irqPwr f) :=
  State.irqPwr_kept f (Kept.refl _ s) rfl rfl
@[simp] theorem State.power_irqPwr (f : Fld) : (s.irqPwr f).power = s.power := (State.irqPwr_keeps f).power rfl

theorem State.platEvent_keeps (kind arg : Nat) : Kept (allBut [.regs, .out, .events]) s (s.platEvent kind arg) :=
  State.platEvent_kept kind arg (Kept.refl _ s) rfl rfl rfl
theorem State.fget_platEvent (kind arg : Nat) (h : a ≠ Reg.MGT_INT_STATUS) : (s.platEvent kind arg).fget a f = s.fget a f :=
  State.fget_of_rd (State.rd_platEvent kind arg h)
@[simp] theorem State.power_platEvent (kind arg : Nat) : (s.platEvent kind arg).power = s.power :=
  (State.platEvent_keeps kind arg).power rfl

/-! ## Parts beside the registers -/

@[simp] theorem State.rd_setPower (x : Power) : ({ s with power := x } : State).rd a = s.rd a := (rfl)
@[simp] theorem State.fget_setPower (x : Power) : ({ s with power := x } : State).fget a f = s.fget a f := (rfl)
@[simp] theorem State.power_bump (v : Nat) : (s.bump a f v).power = s.power := (rfl)

/-! ## Pairs of 64 bits -/

theorem State.rd64_wr64 (v : Nat) : (s.wr64 a v).rd64 a = v % 2 ^ 64 := by
  have hlo : (s.wr64 a v).rn a = v % 2 ^ 32 := by
    unfold State.wr64
    rw [State.rn_of_rd (State.rd_wn_ne _ (by omega)), State.rn_wn]
  have hhi : (s.wr64 a v).rn (a + 4) = v / 4294967296 % 2 ^ 32 := State.rn_wn ..
  unfold State.rd64
  rw [hlo, hhi]
  omega

theorem State.rd_wr64_ne (v : Nat) (h : b ≠ a) (h' : b ≠ a + 4) : (s.wr64 a v).rd b = s.rd b := by
  unfold State.wr64
  rw [State.rd_wn_ne _ h', State.rd_wn_ne _ h]

theorem State.rd64_of_rd (h : t.rd a = s.rd a) (h' : t.rd (a + 4) = s.rd (a + 4)) : t.rd64 a = s.rd64 a := by
  unfold State.rd64
  rw [State.rn_of_rd h, State.rn_of_rd h']

end

end Sys2Proof.Machine

/-! The rows of supplies and of the limiter: feeds and samples, sags, the report of power, estimate and calibration, and the limiter's
registers. -/

namespace Sys2Proof.Machine

section
variable {s t : State} {a f : Nat}

/-! ## Feeds (R639, R640) -/

/-- A field of `PWR_FEED` that a transfer to a feed does not touch. -/
def feedKept (g : Fld) : Prop := Fld.PWR_FEED_ACTIVE_B.apart g ∧ Fld.PWR_FEED_XFERS.apart g

theorem feedKept_ok (f : Nat) : feedKept (feedOk f) := by
  unfold feedKept feedOk Fld.apart
  split <;> decide
theorem feedKept_ov (f : Nat) : feedKept (feedOv f) := by
  unfold feedKept feedOv Fld.apart
  split <;> decide
theorem feedOk_fits (f : Nat) : (feedOk f).width = 1 ∧ (feedOk f).lo + (feedOk f).width ≤ 32 := by
  unfold feedOk
  split <;> decide
theorem feedOv_fits (f : Nat) : (feedOv f).width = 1 ∧ (feedOv f).lo + (feedOv f).width ≤ 32 := by
  unfold feedOv
  split <;> decide
theorem feedOk_apart_feedOv (f g : Nat) : (feedOv g).apart (feedOk f) := by
  unfold feedOk feedOv Fld.apart
  split <;> split <;> decide

theorem State.fget_fput_apart {f g : Fld} (v : Nat) (hf : f.lo + f.width ≤ 32) (h : f.apart g) :
    (s.fput a f v).fget a g = s.fget a g := s.fget_fput_field a f g v hf h.symm

/-- What a change of the active feed can be: nothing, the bit alone, or the bit and a counted transfer. -/
theorem State.feedFrom_cases (counts : Bool) : ∃ (x : State) (w : Power), s.feedFrom f counts = { x with power := w } ∧
    w.samples = s.power.samples ∧ (x = s ∨ x = s.fput Reg.PWR_FEED Fld.PWR_FEED_ACTIVE_B f ∨
      x = (s.fput Reg.PWR_FEED Fld.PWR_FEED_ACTIVE_B f).bump Reg.PWR_FEED Fld.PWR_FEED_XFERS 1) := by
  unfold State.feedFrom
  extract_lets a s1
  split
  · exact ⟨s, s.power, rfl, rfl, .inl rfl⟩
  · split
    · exact ⟨_, _, rfl, rfl, .inr (.inr rfl)⟩
    · exact ⟨_, _, rfl, rfl, .inr (.inl rfl)⟩

theorem State.samples_feedFrom (counts : Bool) : (s.feedFrom f counts).power.samples = s.power.samples := by
  obtain ⟨x, w, e, hw, -⟩ := s.feedFrom_cases (f := f) counts
  rw [e]
  exact hw

theorem State.fget_feedFrom {g : Fld} (hg : feedKept g) (counts : Bool) :
    (s.feedFrom f counts).fget Reg.PWR_FEED g = s.fget Reg.PWR_FEED g := by
  obtain ⟨ha, hx⟩ := hg
  have h1 : (s.fput Reg.PWR_FEED Fld.PWR_FEED_ACTIVE_B f).fget Reg.PWR_FEED g = s.fget Reg.PWR_FEED g :=
    State.fget_fput_apart f (by decide) ha
  obtain ⟨x, w, e, -, rfl | rfl | rfl⟩ := s.feedFrom_cases (f := f) counts
  · rw [e, State.fget_setPower]
  · rw [e, State.fget_setPower, h1]
  · rw [e, State.fget_setPower, State.bump, State.fget_fput_apart _ (by decide) hx, h1]

theorem State.fget_feedGone {g : Fld} (hg : feedKept g) : (s.feedGone f).fget Reg.PWR_FEED g = s.fget Reg.PWR_FEED g := by
  unfold State.feedGone
  dsimp only
  split
  · exact State.fget_feedFrom hg true
  · rfl

/-- The feed of the higher voltage becomes the active one. -/
theorem State.samples_feedFrom_higher (a b : Nat) (c : Bool) : (if a < b then s.feedFrom 1 c else if b < a then s.feedFrom 0 c
    else s).power.samples = s.power.samples := by
  split
  · exact State.samples_feedFrom _
  · split
    · exact State.samples_feedFrom _
    · rfl

/-- The sample is put before those that were there, whatever the feeds show. -/
theorem State.inputSample_eq (mw va vb : Nat) : ∃ x : State, x.power.samples = s.power.samples ∧ s.inputSample mw va vb =
    { x with power := { x.power with samples := (mw :: x.power.samples).take 100, sampled := true } } := by
  unfold State.inputSample
  dsimp only
  refine ⟨_, ?_, rfl⟩
  rw [State.samples_feedFrom_higher, State.fput_power, State.fput_power, State.fput_power, State.fput_power]

theorem inputSample_gives (mw va vb : Nat) : Gives (.inputSample mw va vb) s fun t =>
    t.power.samples = (mw :: s.power.samples).take 100 ∧ t.power.sampled = true := by
  obtain ⟨x, hx, e⟩ := s.inputSample_eq mw va vb
  refine ⟨_, rfl, ?_⟩
  rw [e, ← hx]
  exact ⟨rfl, rfl⟩

theorem feedLoss_gives (f : Nat) : Gives (.feedLoss f) s fun t => t.fget Reg.PWR_FEED (feedOk (f % 2)) = 0 := by
  refine ⟨_, rfl, ?_⟩
  show (s.feedLoss (f % 2)).fget _ _ = 0
  unfold State.feedLoss
  rw [State.fget_irqPwr _ (by decide), State.fget_feedGone (feedKept_ok _), s.fget_fput _ _ _ (feedOk_fits _).2, Nat.zero_mod]

theorem feedOvervoltage_gives (f : Nat) : Gives (.feedOvervoltage f) s fun t =>
    t.fget Reg.PWR_FEED (feedOk (f % 2)) = 0 ∧ t.fget Reg.PWR_FEED (feedOv (f % 2)) = 1 := by
  refine ⟨_, rfl, ?_, ?_⟩
  · unfold State.feedOver
    rw [State.fget_irqPwr _ (by decide), State.fget_feedGone (feedKept_ok _),
      State.fget_fput_apart _ (feedOv_fits _).2 (feedOk_apart_feedOv _ _), s.fget_fput _ _ _ (feedOk_fits _).2, Nat.zero_mod]
  · unfold State.feedOver
    rw [State.fget_irqPwr _ (by decide), State.fget_feedGone (feedKept_ov _), State.fget_fput _ _ _ _ (feedOv_fits _).2,
      (feedOv_fits _).1]
    rfl

theorem feedReconnect_gives (f : Nat) : Gives (.feedReconnect f) s fun t =>
    t.fget Reg.PWR_FEED (feedOv (f % 2)) = 0 ∧ t.power = s.power ∧ t.out = s.out :=
  ⟨_, rfl, (s.fget_fput _ _ _ (feedOv_fits _).2).trans (Nat.zero_mod _), rfl, rfl⟩

/-! ## Sags (R644, R645) -/

theorem State.sagTaint_keeps (p : Nat) : Kept (allBut [.upds]) s (s.sagTaint p) := State.sagTaint_kept p (Kept.refl _ s) rfl

theorem State.taint_sagTaint (p : Nat) : ((s.sagTaint p).up p).taint = true := by
  unfold State.sagTaint
  rw [State.up_setUp]

theorem State.up_sagTaint_ne {p j : Nat} (h : p ≠ j) : (s.sagTaint j).up p = s.up p := State.up_setUp_ne _ _ h

/-- The pass of a sag over the partitions that the layout has. -/
def State.sagTaints (s : State) : State := allParts.foldl (fun (s : State) p => if s.nquad p = 0 then s else s.sagTaint p) s

theorem State.sagTaints_keeps : Kept (allBut [.upds]) s s.sagTaints := by
  refine List.foldlRecOn (motive := fun t => Kept (allBut [.upds]) s t) allParts _ (Kept.refl _ s) fun t ht p _ => ?_
  split
  · exact ht
  · exact State.sagTaint_kept p ht rfl

theorem State.taint_sagTaints {p : Nat} (hp : p ∈ allParts) (hn : s.nquad p ≠ 0) : (s.sagTaints.up p).taint = true := by
  refine foldl_part (B := fun t => t.nquad p ≠ 0) (A := fun t => (t.up p).taint = true) allParts_nodup hp ?_ ?_ ?_ hn
  · intro t j _ ht
    split
    · exact ht
    · exact ht
  · intro t ht
    rw [if_neg ht]
    exact State.taint_sagTaint p
  · intro t j hj ht
    split
    · exact ht
    · rwa [State.up_sagTaint_ne (Ne.symm hj)]

theorem State.flag_ACTIVE_showHold :
    s.showHold.flag Reg.PWR_SAG_STAT Fld.PWR_SAG_STAT_ACTIVE = s.flag Reg.PWR_SAG_STAT Fld.PWR_SAG_STAT_ACTIVE := by
  unfold State.showHold
  dsimp only
  split
  · exact State.flag_fput_field _ (by decide) (by decide)
  · rfl

/-- What a sag shows in `PWR_SAG_STAT`, before the partitions are tainted. -/
def State.sagShown (s : State) : State :=
  ((s.fput Reg.PWR_SAG_STAT Fld.PWR_SAG_STAT_ACTIVE 1).bump Reg.PWR_SAG_STAT Fld.PWR_SAG_STAT_COUNT 1).irqPwr Fld.PWR_INT_STATUS_SAG_WARN

theorem State.flag_ACTIVE_sagShown : s.sagShown.flag Reg.PWR_SAG_STAT Fld.PWR_SAG_STAT_ACTIVE = true := by
  unfold State.sagShown
  rw [State.flag_of_rd (State.rd_irqPwr _ (by decide))]
  exact (State.flag_fput_field _ (by decide) (by decide)).trans (State.flag_fput_one rfl (by decide))

theorem State.nquad_sagShown {p : Nat} (hp : p ∈ allParts) : s.sagShown.nquad p = s.nquad p := by
  have h1 : Reg.PRT_MAP p ≠ Reg.PWR_INT_STATUS := by
    revert p
    decide
  have h2 : Reg.PRT_MAP p ≠ Reg.PWR_SAG_STAT := by
    revert p
    decide
  unfold State.sagShown State.nquad
  rw [State.fget_irqPwr _ h1]
  exact (State.fget_fput_ne _ _ _ _ h2).trans (State.fget_fput_ne _ _ _ _ h2)

theorem State.sagWarn_eq (h : s.flag Reg.PWR_SAG_STAT Fld.PWR_SAG_STAT_ACTIVE = false) :
    s.sagWarn = ({ s.sagShown.sagTaints.meterSag with
      power := { s.sagShown.sagTaints.power with winBad := true } } : State).showHold.platEvent 3 0 := by
  unfold State.sagWarn
  dsimp only
  rw [if_neg (by simp [h])]
  rfl

/-- What a sag leaves before the registers that show it: the meters hold, and the power window is spoilt. -/
theorem State.meterSag_spoilt (x : State) (w : Power) : let t : State := { x.meterSag with power := w }
    t.meterHold = true ∧ t.power = w ∧ (∀ p, t.up p = x.up p) ∧ ∀ a, a ≠ Reg.MTR_STAT → t.rd a = x.rd a := by
  refine ⟨rfl, rfl, fun p => ?_, fun a h => ?_⟩
  · unfold State.up
    rfl
  · rw [State.rd_setPower, State.meterSag, State.rd_fput_ne _ _ _ h]
    exact State.regs_of_rd rfl a

theorem State.showHold_keeps : Kept (allBut [.regs]) s s.showHold := State.showHold_kept (Kept.refl _ s) rfl

theorem sagWarn_gives (h : s.flag Reg.PWR_SAG_STAT Fld.PWR_SAG_STAT_ACTIVE = false) : Gives .sagWarn s fun t =>
    t.flag Reg.PWR_SAG_STAT Fld.PWR_SAG_STAT_ACTIVE = true ∧ t.meterHold = true ∧ t.power.winBad = true ∧
      ∀ p, p ∈ allParts → s.nquad p ≠ 0 → (t.up p).taint = true := by
  obtain ⟨hm, hw, hu, hr⟩ := s.sagShown.sagTaints.meterSag_spoilt { s.sagShown.sagTaints.power with winBad := true }
  refine ⟨_, rfl, ?_⟩
  rw [State.sagWarn_eq h]
  generalize ({ s.sagShown.sagTaints.meterSag with
    power := { s.sagShown.sagTaints.power with winBad := true } } : State) = x at hm hw hu hr
  have hk : Kept (allBut [.regs, .out, .events]) x (x.showHold.platEvent 3 0) :=
    State.platEvent_kept 3 0 (State.showHold_kept (Kept.refl _ x) rfl) rfl rfl rfl
  refine ⟨?_, ?_, ?_, fun p hp hn => ?_⟩
  · rw [State.flag_of_rd (State.rd_platEvent _ _ (by decide)), State.flag_ACTIVE_showHold, State.flag_of_rd (hr _ (by decide)),
      State.flag_of_rd (State.regs_of_rd (State.sagTaints_keeps.regs rfl) _), State.flag_ACTIVE_sagShown]
  · obtain ⟨-, -, -, hhold⟩ := hk.usage rfl
    rw [hhold, hm]
  · rw [hk.power rfl, hw]
  · have e : (x.showHold.platEvent 3 0).up p = x.up p := by
      unfold State.up
      rw [hk.upds rfl]
    rw [e, hu]
    exact State.taint_sagTaints hp (by rwa [State.nquad_sagShown hp])

/-! ## Checks and reports (R649, R650) -/

theorem vbatCheck_gives (mv : Nat) : Gives (.vbatCheck mv) s fun t =>
    t.fget Reg.PWR_STAT Fld.PWR_STAT_VBAT_MV = mv / 2 % 2048 ∧ (mv < 2500 → t.fget Reg.PWR_STAT Fld.PWR_STAT_VBAT_LOW = 1) := by
  have hmv : (s.fput Reg.PWR_STAT Fld.PWR_STAT_VBAT_MV (mv / 2)).fget Reg.PWR_STAT Fld.PWR_STAT_VBAT_MV = mv / 2 % 2048 :=
    s.fget_fput _ _ _ (by decide)
  refine ⟨_, rfl, ?_⟩
  unfold State.vbatCheck
  dsimp only
  split
  · rw [State.fget_irqPwr _ (by decide), State.fget_irqPwr _ (by decide)]
    exact ⟨(State.fget_fput_field _ _ _ _ _ (by decide) (by decide)).trans hmv, fun _ => State.fget_fput _ _ _ _ (by decide)⟩
  · exact ⟨hmv, fun h => absurd h ‹_›⟩

theorem powerReport_gives (h : s.power.samples ≠ []) : Gives .powerReport s fun t =>
    t.fget Reg.PWR_INPUT_AVG Fld.PWR_INPUT_AVG_W = meanW s.power.samples % 4096 ∧
      t.fget Reg.PWR_INPUT_AVG Fld.PWR_INPUT_AVG_WIN = (s.fget Reg.PWR_INPUT_AVG Fld.PWR_INPUT_AVG_WIN + 1) % 1048576 ∧
      t.rd64 Reg.PWR_ENERGY_LO = (s.rd64 Reg.PWR_ENERGY_LO + meanW s.power.samples / 5) % 2 ^ 64 := by
  refine ⟨_, rfl, ?_⟩
  unfold State.powerReport
  rw [if_neg (by simpa using h)]
  dsimp only
  have hrd : ∀ (x : State) (v : Nat), (x.wr64 Reg.PWR_ENERGY_LO v).rd Reg.PWR_INPUT_AVG = x.rd Reg.PWR_INPUT_AVG := fun x v =>
    State.rd_wr64_ne v (by decide) (by decide)
  refine ⟨?_, ?_, State.rd64_wr64 _⟩
  · rw [State.fget_of_rd (hrd _ _), State.fget_fput_field _ _ _ _ _ (by decide) (by decide)]
    exact s.fget_fput _ _ _ (by decide)
  · rw [State.fget_of_rd (hrd _ _)]
    exact State.fget_fput _ _ _ _ (by decide)

/-! ## The limiter's estimate (R652, R657) -/

/-- What a V/F step can be: it notes since when its conditions hold, and may put another entry. -/
theorem State.vfStep_cases (h : Nat) (room : Bool) (why : Nat) : ∃ w : Power, w.estSum = s.power.estSum ∧ w.estN = s.power.estN ∧
    (s.vfStep h room why = { s with power := w } ∨
      ∃ j, s.vfStep h room why = ({ s with power := w } : State).fput Reg.PWR_LIM_STAT Fld.PWR_LIM_STAT_VF_IDX j) := by
  unfold State.vfStep
  extract_lets p i boost put hi lo old
  have hput (j : Nat) : ∃ w : Power, w.estSum = s.power.estSum ∧ w.estN = s.power.estN ∧ (put j = { s with power := w } ∨
      ∃ k, put j = ({ s with power := w } : State).fput Reg.PWR_LIM_STAT Fld.PWR_LIM_STAT_VF_IDX k) :=
    ⟨{ p with hiSince := none, loSince := none, stepWhy := if i < j then why else p.stepWhy }, rfl, rfl, .inr ⟨j, rfl⟩⟩
  split
  · exact ⟨{ p with hiSince := none, loSince := none }, rfl, rfl, .inl rfl⟩
  · split
    · exact hput _
    · split
      · exact hput _
      · split
        · exact hput _
        · exact ⟨{ p with hiSince := hi, loSince := lo }, rfl, rfl, .inl rfl⟩

theorem State.fget_MODE_vfStep (h : Nat) (room : Bool) (why : Nat) :
    (s.vfStep h room why).fget Reg.PWR_LIM_STAT Fld.PWR_LIM_STAT_MODE = s.fget Reg.PWR_LIM_STAT Fld.PWR_LIM_STAT_MODE := by
  obtain ⟨w, -, -, e | ⟨j, e⟩⟩ := s.vfStep_cases h room why
  · rw [e, State.fget_setPower]
  · rw [e, State.fget_fput_field _ _ _ _ _ (by decide) (by decide), State.fget_setPower]

/-- The sums of the calibration period, which a V/F step leaves. -/
theorem State.sums_vfStep (h : Nat) (room : Bool) (why : Nat) :
    (s.vfStep h room why).power.estSum = s.power.estSum ∧ (s.vfStep h room why).power.estN = s.power.estN := by
  obtain ⟨w, h1, h2, e | ⟨j, e⟩⟩ := s.vfStep_cases h room why
  · rw [e]
    exact ⟨h1, h2⟩
  · rw [e, State.fput_power]
    exact ⟨h1, h2⟩

theorem State.throttle_keeps (pool : List Nat) (current : Bool) (why : Nat) : Kept (allBut [.regs]) s (s.throttle pool current why) :=
  State.throttle_kept pool current why (Kept.refl _ s) rfl

theorem State.rd_throttle (pool : List Nat) (current : Bool) (why : Nat) :
    (s.throttle pool current why).rd Reg.PWR_LIM_STAT = s.rd Reg.PWR_LIM_STAT := by
  unfold State.throttle
  extract_lets stepped on act charged a s1
  have hstat (x : State) (v w : Nat) : ((x.fput Reg.PWR_THR_STAT Fld.PWR_THR_STAT_ACTIVE v).fput Reg.PWR_THR_STAT
      Fld.PWR_THR_STAT_CHARGED w).rd Reg.PWR_LIM_STAT = x.rd Reg.PWR_LIM_STAT := by
    rw [State.rd_fput_ne _ _ _ (by decide), State.rd_fput_ne _ _ _ (by decide)]
  have hdur (n : Nat) : Reg.PWR_LIM_STAT ≠ Reg.PWR_THR_DUR_LO n ∧ Reg.PWR_LIM_STAT ≠ Reg.PWR_THR_DUR_LO n + 4 := by
    unfold Reg.PWR_LIM_STAT Reg.PWR_THR_DUR_LO
    omega
  split
  · rw [State.rd_wr64_ne _ (hdur _).1 (hdur _).2]
    exact hstat _ _ _
  · exact hstat _ _ _

theorem limiterEstimate_gives (tot pool base eng nme i0 i1 : Nat) : Gives (.limiterEstimate tot pool base eng nme i0 i1) s fun t =>
    t.power.estSum = s.power.estSum + tot ∧ t.power.estN = s.power.estN + 1 ∧
      t.fget Reg.PWR_LIM_STAT Fld.PWR_LIM_STAT_MODE = s.modeInForce % 2 := by
  refine ⟨_, rfl, ?_⟩
  unfold State.estimate
  dsimp only
  rw [(State.throttle_keeps ..).power rfl, (State.sums_vfStep ..).1, (State.sums_vfStep ..).2, State.fget_of_rd (State.rd_throttle ..),
    State.fget_MODE_vfStep, State.fget_fput_field _ _ _ _ _ (by decide) (by decide)]
  exact ⟨rfl, rfl, State.fget_fput _ _ _ _ (by decide)⟩

/-! ## Calibration and trip (R653, R654, R661) -/

theorem limiterCalibration_gives (hs : s.power.samples ≠ []) (he : s.power.estSum ≠ 0) (hw : s.power.winBad = false) :
    let g := s.rn Reg.PWR_GAIN
    let diff := sub32 (round32 false ((s.power.samples.take 10).sum * s.power.estN) ((s.power.samples.take 10).length * s.power.estSum) 0) g
    (val32 0x3E19999A).lt (val32 (diff % 2147483648)) = false → Gives .limiterCalibration s fun t =>
      t.power.estSum = 0 ∧ t.power.estN = 0 ∧
        t.rn Reg.PWR_GAIN = min32 (max32 (add32 g (mul32 diff 0x3E800000)) 0x3F59999A) 0x3F933333 % 2 ^ 32 := by
  intro g diff hd
  refine ⟨_, rfl, ?_⟩
  unfold State.calibrate
  dsimp only
  rw [if_neg (by simp_all [g, diff])]
  have hgain (x y : State) (v w : Nat) (hx : x.regs = y.regs) : ((x.bump Reg.PWR_LIM_STAT Fld.PWR_LIM_STAT_CAL_COUNT w).fput
      Reg.PWR_LIM_STAT Fld.PWR_LIM_STAT_FIRST_USE v).rd Reg.PWR_GAIN = y.rd Reg.PWR_GAIN := by
    rw [State.rd_fput_ne _ _ _ (by decide), State.rd_bump_ne _ _ (by decide), State.regs_of_rd hx]
  split
  · rw [State.power_irqPwr, State.rn_of_rd (State.rd_irqPwr _ (by decide)), State.rn_of_rd (hgain _ _ _ _ rfl)]
    exact ⟨rfl, rfl, State.rn_wn ..⟩
  · rw [State.rn_of_rd (hgain _ _ _ _ rfl)]
    exact ⟨rfl, rfl, State.rn_wn ..⟩

theorem thermtrip_gives : Gives .thermtrip s fun t =>
    t.thermAlert = true ∧ t.power.hot = true ∧ t.haltReq = s.haltReq ++ [(s.now, 5)] ∧ t.out.head? = some .powerRemoval := by
  refine ⟨_, rfl, ?_⟩
  unfold State.thermtrip
  dsimp only
  generalize hx : ({ (s.askHalt 5).irqPwr Fld.PWR_INT_STATUS_THERMTRIP with
    thermAlert := true
    power := { ((s.askHalt 5).irqPwr Fld.PWR_INT_STATUS_THERMTRIP).power with hot := true } } : State) = x
  have hk : Kept (allBut [.regs, .out, .events]) x (x.platEvent 5 0) := State.platEvent_keeps 5 0
  refine ⟨?_, ?_, ?_, rfl⟩
  · show (x.platEvent 5 0).thermAlert = true
    obtain ⟨-, ht, -⟩ := hk.bus rfl
    rw [ht, ← hx]
  · show (x.platEvent 5 0).power.hot = true
    rw [hk.power rfl, ← hx]
  · show (x.platEvent 5 0).haltReq = _
    rw [hk.haltReq rfl, ← hx]
    exact (State.irqPwr_keeps _).haltReq rfl

/-! ## The limiter's registers (R659, R662, R668, R670) -/

/-- A write of `PWR_LIM_CTRL`, before the partitions' requests and the fixed entry. -/
def State.limCtrlSet (s : State) (v : Word) : State :=
  { s.regWrite Reg.PWR_LIM_CTRL v with power := { (s.regWrite Reg.PWR_LIM_CTRL v).power with modeAt := some s.now } }

/-- Every request of a partition for a mode, withdrawn. -/
def State.dropLimreq (s : State) : State := allParts.foldl (fun (s : State) p => s.setSq p { s.sq p with limreq := 0 }) s

theorem State.regs_dropLimreq : s.dropLimreq.regs = s.regs :=
  List.foldlRecOn (motive := fun t : State => t.regs = s.regs) allParts _ rfl fun _ ht _ _ => ht

theorem State.limreq_dropLimreq {p : Nat} (hp : p ∈ allParts) : (s.dropLimreq.sq p).limreq = 0 := by
  refine foldl_part (B := fun _ => True) (A := fun t => (t.sq p).limreq = 0) allParts_nodup hp (fun _ _ _ _ => trivial) ?_ ?_ trivial
  · intro t _
    rw [State.sq_setSq]
  · intro t j hj ht
    rwa [State.sq_setSq_ne _ _ (Ne.symm hj)]

/-- A write of `PWR_LIM_CTRL` before the fixed entry: unless locked, it withdraws every request. -/
def State.limCtrlPut (s : State) (v : Word) : State :=
  if s.flag Reg.PWR_LIM_CTRL Fld.PWR_LIM_CTRL_MODE_LOCK then s.limCtrlSet v else (s.limCtrlSet v).dropLimreq

theorem State.regs_limCtrlPut (v : Word) : (s.limCtrlPut v).regs = (s.regWrite Reg.PWR_LIM_CTRL v).regs := by
  unfold State.limCtrlPut
  split
  · rfl
  · exact State.regs_dropLimreq

theorem State.limCtrlW_eq (v : Word) : s.limCtrlW v =
    if (s.limCtrlPut v).flag Reg.PWR_LIM_CTRL Fld.PWR_LIM_CTRL_FF_EN then
      (s.limCtrlPut v).fput Reg.PWR_LIM_STAT Fld.PWR_LIM_STAT_VF_IDX ((s.limCtrlPut v).fget Reg.PWR_LIM_CTRL Fld.PWR_LIM_CTRL_FF_IDX)
    else s.limCtrlPut v := rfl

/-- The register itself takes the write by its access codes. -/
theorem State.rd_limCtrlW (v : Word) : (s.limCtrlW v).rd Reg.PWR_LIM_CTRL = (s.regWrite Reg.PWR_LIM_CTRL v).rd Reg.PWR_LIM_CTRL := by
  have h := State.regs_of_rd (s.regs_limCtrlPut v) Reg.PWR_LIM_CTRL
  rw [State.limCtrlW_eq]
  split
  · rw [State.rd_fput_ne _ _ _ (by decide), h]
  · rw [h]

theorem State.limreq_limCtrlW {p : Nat} (hp : p ∈ allParts) (h : s.flag Reg.PWR_LIM_CTRL Fld.PWR_LIM_CTRL_MODE_LOCK = false) (v : Word) :
    ((s.limCtrlW v).sq p).limreq = 0 := by
  have e : s.limCtrlPut v = (s.limCtrlSet v).dropLimreq := if_neg (by simp [h])
  rw [State.limCtrlW_eq, e]
  split
  · rw [State.sq_fput]
    exact State.limreq_dropLimreq hp
  · exact State.limreq_dropLimreq hp

theorem State.fget_VF_IDX_limCtrlW {v : Word} (h : ((s.regWrite Reg.PWR_LIM_CTRL v).flag Reg.PWR_LIM_CTRL Fld.PWR_LIM_CTRL_FF_EN) = true) :
    (s.limCtrlW v).fget Reg.PWR_LIM_STAT Fld.PWR_LIM_STAT_VF_IDX
      = (s.regWrite Reg.PWR_LIM_CTRL v).fget Reg.PWR_LIM_CTRL Fld.PWR_LIM_CTRL_FF_IDX % 8 := by
  have hrd := State.regs_of_rd (s.regs_limCtrlPut v) Reg.PWR_LIM_CTRL
  rw [State.limCtrlW_eq, if_pos ((State.flag_of_rd hrd).trans h), State.fget_fput _ _ _ _ (by decide), State.fget_of_rd hrd]
  rfl

theorem limModeWrite_gives {r : RegReq} {v : Word} (hg : s.grants r Reg.PWR_LIM_CTRL = true)
    (hl : s.flag Reg.PWR_LIM_CTRL Fld.PWR_LIM_CTRL_MODE_LOCK = false) : Gives (.limModeWrite r v) s fun t =>
      t.fget Reg.PWR_LIM_CTRL Fld.PWR_LIM_CTRL_MODE = Fld.PWR_LIM_CTRL_MODE.get v ∧ ∀ p, p ∈ allParts → (t.sq p).limreq = 0 := by
  refine gives_of_write (w := fun s => s.limCtrlW v) rfl hg ⟨?_, fun p hp => State.limreq_limCtrlW hp hl v⟩
  rw [State.fget_of_rd (State.rd_limCtrlW v),
    State.fget_regWrite (d := ⟨Fld.PWR_LIM_CTRL_MODE, .rwl, 0, []⟩) v (by decide +kernel)]
  have hlock : s.lockOf Reg.PWR_LIM_CTRL = false := (if_pos rfl).trans hl
  rw [hlock]
  rfl

theorem limModeLock_gives {r : RegReq} {v : Word} (hg : s.grants r Reg.PWR_LIM_CTRL = true) : Gives (.limModeLock r v) s fun t =>
    t.flag Reg.PWR_LIM_CTRL Fld.PWR_LIM_CTRL_MODE_LOCK = true := by
  refine gives_of_write (w := fun s => s.limCtrlW (Fld.PWR_LIM_CTRL_MODE_LOCK.put v 1)) rfl hg ?_
  have hold := Fld.PWR_LIM_CTRL_MODE_LOCK.get_lt (s.rd Reg.PWR_LIM_CTRL)
  rw [State.flag_of_rd (State.rd_limCtrlW _), State.flag,
    State.fget_regWrite (d := ⟨Fld.PWR_LIM_CTRL_MODE_LOCK, .w1s, 0, []⟩) _ (by decide +kernel),
    Fld.get_put_one _ rfl (by decide)]
  change s.fget _ _ < 2 at hold
  generalize s.fget Reg.PWR_LIM_CTRL Fld.PWR_LIM_CTRL_MODE_LOCK = x at hold
  simp only [FieldDesc.written]
  interval_cases x <;> rfl

theorem fixedFreqWrite_gives {r : RegReq} {v : Word} (hg : s.grants r Reg.PWR_LIM_CTRL = true)
    (he : Fld.PWR_LIM_CTRL_FF_EN.get v = 1) (hi : 2 ≤ Fld.PWR_LIM_CTRL_FF_IDX.get v) : Gives (.fixedFreqWrite r v) s fun t =>
      t.fget Reg.PWR_LIM_STAT Fld.PWR_LIM_STAT_VF_IDX = Fld.PWR_LIM_CTRL_FF_IDX.get v := by
  refine gives_of_write (w := fun s => s.limCtrlW v) rfl hg ?_
  have hlt : Fld.PWR_LIM_CTRL_FF_IDX.get v < 8 := Fld.PWR_LIM_CTRL_FF_IDX.get_lt v
  have hdef : FieldDesc.isDefined ⟨Fld.PWR_LIM_CTRL_FF_IDX, .rw, 2, [(2, 7)]⟩ (Fld.PWR_LIM_CTRL_FF_IDX.get v) = true := by
    simp [FieldDesc.isDefined, hi]
    omega
  rw [State.fget_VF_IDX_limCtrlW,
    State.fget_regWrite (d := ⟨Fld.PWR_LIM_CTRL_FF_IDX, .rw, 2, [(2, 7)]⟩) v (by decide +kernel)]
  · simp only [FieldDesc.written, hdef, if_true]
    exact Nat.mod_eq_of_lt hlt
  · rw [State.flag_regWrite_rw (n := 0) v (by decide +kernel), he]
    rfl

theorem regDesc_PWR_CAP : regDesc Reg.PWR_CAP = some (⟨0x100038, [], [⟨Fld.PWR_CAP_W, .rw, 1200, []⟩]⟩, []) := by decide +kernel

theorem State.rd_PWR_CAP_capW {v : Word} (h : 680 ≤ Fld.PWR_CAP_W.get v ∧ Fld.PWR_CAP_W.get v ≤ 1200) :
    (s.capW v).rd Reg.PWR_CAP = Fld.PWR_CAP_W.put (s.rd Reg.PWR_CAP) (Fld.PWR_CAP_W.get v) := by
  unfold State.capW
  dsimp only
  rw [if_pos h, State.rd_regWrite_single v regDesc_PWR_CAP rfl]
  rfl

theorem State.fget_PWR_CAP_capW {v : Word} (h : 680 ≤ Fld.PWR_CAP_W.get v ∧ Fld.PWR_CAP_W.get v ≤ 1200) :
    (s.capW v).fget Reg.PWR_CAP Fld.PWR_CAP_W = Fld.PWR_CAP_W.get v := by
  rw [State.fget, State.rd_PWR_CAP_capW h, Fld.get_put_same _ _ _ (by decide), Nat.mod_eq_of_lt (Fld.get_lt _ _)]

theorem pwrCapWrite_gives {r : RegReq} {v : Word} (hg : s.grants r Reg.PWR_CAP = true) : Gives (.pwrCapWrite r v) s fun t =>
    t = s.capW v := ⟨_, rfl, State.write_of_grants _ hg⟩

end

/-! ## The statements settled -/

/-- Settles O11: a write within the range is the write by access codes, one outside is an interrupt alone, and the register has the one field. -/
theorem operatorCap : Obligations.OperatorCap := by
  refine ⟨fun s r v hg => ⟨_, (pwrCapWrite_gives hg).choose_spec.1, ?_⟩, by decide +kernel, fun s => ?_⟩
  · rw [(pwrCapWrite_gives hg).choose_spec.2]
    dsimp only
    split
    · rename_i h
      refine ⟨State.rd_PWR_CAP_capW h, ?_, fun b hb => ?_⟩
      · show some (1000 * (s.capW v).fget _ _) = _
        rw [State.fget_PWR_CAP_capW h]
      · unfold State.capW
        dsimp only
        rw [if_pos h, s.rd_regWrite_ne v hb]
    · rename_i h
      unfold State.capW
      dsimp only
      rw [if_neg h]
      exact ⟨State.fget_irq_mask _ _ _ rfl (by decide), fun b hb => State.rd_irqPwr _ hb⟩
  · have e : s.shown Reg.PWR_CAP = Fld.PWR_CAP_W.put 0 (s.fget Reg.PWR_CAP Fld.PWR_CAP_W) := by
      unfold State.shown
      rw [regDesc_PWR_CAP]
      show s.regRead Reg.PWR_CAP _ = _
      unfold State.regRead
      rw [regDesc_PWR_CAP]
      rfl
    have hlt : s.fget Reg.PWR_CAP Fld.PWR_CAP_W < 4096 := Fld.get_lt _ _
    rw [e]
    generalize s.fget Reg.PWR_CAP Fld.PWR_CAP_W = x at hlt
    simp [Fld.put, Fld.PWR_CAP_W]
    omega

/-- Settles O15, row by row. -/
theorem supplyRowsComplete : Obligations.SupplyRowsComplete :=
  ⟨fun _ mw va vb => inputSample_gives mw va vb, fun _ f => feedLoss_gives f, fun _ f => feedOvervoltage_gives f,
    fun _ f => feedReconnect_gives f, fun _ h => sagWarn_gives h, fun _ mv => vbatCheck_gives mv, fun _ h => powerReport_gives h⟩

/-- Settles O16, row by row; a write of `FF_EN` steps to its entry at once and the calibration rounds in binary32, as log entry 28 has it. -/
theorem limiterRowsComplete : Obligations.LimiterRowsComplete :=
  ⟨fun _ tot pool base eng nme i0 i1 => limiterEstimate_gives tot pool base eng nme i0 i1,
    fun _ hs he hw => limiterCalibration_gives hs he hw, fun _ => thermtrip_gives, fun _ _ _ hg hl => limModeWrite_gives hg hl,
    fun _ _ _ hg => limModeLock_gives hg, fun _ _ _ hg he hi => fixedFreqWrite_gives hg he hi, fun s r v hg h1 h2 => by
      obtain ⟨t, he, rfl⟩ := pwrCapWrite_gives (v := v) hg
      exact ⟨_, he, State.fget_PWR_CAP_capW ⟨h1, h2⟩⟩⟩

end Sys2Proof.Machine

/-! The rows of metering: what a close leaves, in its own cycle and after another close of it, what the sealing of a record, a set of the
clock and the tick of `MEM` leave. -/

namespace Sys2Proof.Machine

section
variable {s t : State} {a : Nat}

/-! ## Closes (R757, R758) -/

/-- The registers that a close changes. -/
def closeRegs : List Nat := [Reg.MTR_PERIOD, Reg.MTR_STAT, Reg.MGT_INT_STATUS]

/-- What a close keeps: the time, the offset of `MTR_MONO` and every register but its own. -/
structure State.ClosedFrom (s t : State) : Prop where
  now : t.now = s.now
  monoOfs : t.mtr.monoOfs = s.mtr.monoOfs
  rd : ∀ a, a ∉ closeRegs → t.rd a = s.rd a

theorem State.ClosedFrom.refl : s.ClosedFrom s := ⟨Eq.refl _, Eq.refl _, fun _ _ => Eq.refl _⟩

/-- What a close puts into the state before the registers show it. -/
def State.closedMtr (s : State) (rec_ : List Byte) : State :=
  { s with
    mtr := { s.mtr with rtcOpen := leAt rec_ 16 8, monoOpen := leAt rec_ 32 8, flags := 0, setCnt := 0, closed := s.mtr.closed ++ [rec_], snap := none }
    meters := [] }

theorem State.closeWith_eq (rec_ : List Byte) : s.closeWith rec_ =
    (((s.closedMtr rec_).wn Reg.MTR_PERIOD (s.rn Reg.MTR_PERIOD + 1)).fput Reg.MTR_STAT Fld.MTR_STAT_SEALING 1).platEvent 7
      (s.rn Reg.MTR_PERIOD) := rfl

theorem State.mtr_closeWith (rec_ : List Byte) : (s.closeWith rec_).mtr = (s.closedMtr rec_).mtr := by
  rw [State.closeWith_eq, (State.platEvent_keeps ..).mtr rfl]
  rfl

theorem State.closed_closeWith (rec_ : List Byte) : (s.closeWith rec_).mtr.closed = s.mtr.closed ++ [rec_] := by
  rw [State.mtr_closeWith]
  rfl
theorem State.monoOfs_closeWith (rec_ : List Byte) : (s.closeWith rec_).mtr.monoOfs = s.mtr.monoOfs := by
  rw [State.mtr_closeWith]
  rfl

theorem State.meters_closeWith (rec_ : List Byte) : (s.closeWith rec_).meters = [] := by
  obtain ⟨-, -, hm, -⟩ := (State.platEvent_keeps 7 (s.rn Reg.MTR_PERIOD) (s := ((s.closedMtr rec_).wn Reg.MTR_PERIOD
    (s.rn Reg.MTR_PERIOD + 1)).fput Reg.MTR_STAT Fld.MTR_STAT_SEALING 1)).usage rfl
  rw [State.closeWith_eq, hm]
  rfl

theorem State.now_closeWith (rec_ : List Byte) : (s.closeWith rec_).now = s.now := by
  obtain ⟨hn, -⟩ := (State.closeWith_kept (φ := allBut [.regs, .mtr, .out, .usage, .events]) rec_ (Kept.refl _ s) rfl rfl rfl rfl rfl).time rfl
  exact hn

theorem State.rd_closedMtr (rec_ : List Byte) : (s.closedMtr rec_).rd a = s.rd a := (rfl)

theorem State.rd_closeWith (rec_ : List Byte) (h : a ∉ closeRegs) : (s.closeWith rec_).rd a = s.rd a := by
  simp only [closeRegs, List.mem_cons, List.not_mem_nil, not_or, or_false] at h
  obtain ⟨hp, hs, hm⟩ := h
  rw [State.closeWith_eq, State.rd_platEvent _ _ hm, State.rd_fput_ne _ _ _ hs, State.rd_wn_ne _ hp, State.rd_closedMtr]

theorem State.rd_MTR_PERIOD_closeWith (rec_ : List Byte) : (s.closeWith rec_).rd Reg.MTR_PERIOD = s.rd Reg.MTR_PERIOD + 1 := by
  rw [State.closeWith_eq, State.rd_platEvent _ _ (by decide), State.rd_fput_ne _ _ _ (by decide), State.rd_wn, if_pos rfl, State.rn]
  simp [BitVec.ofNat_add]

/-- The cycle of a close is kept with it. -/
def State.stampClose (s : State) : State := { s with mtr := { s.mtr with closeAt := some s.now } }

@[simp] theorem State.now_stampClose : s.stampClose.now = s.now := rfl
@[simp] theorem State.closed_stampClose : s.stampClose.mtr.closed = s.mtr.closed := rfl
@[simp] theorem State.monoOfs_stampClose : s.stampClose.mtr.monoOfs = s.mtr.monoOfs := rfl
@[simp] theorem State.meters_stampClose : s.stampClose.meters = s.meters := rfl
@[simp] theorem State.rd_stampClose : s.stampClose.rd a = s.rd a := (rfl)

/-- A close while none of this cycle stands. -/
theorem State.meterClose_of_none (h : s.closedNow = none) (reason : Nat) :
    s.meterClose reason = (s.closeWith (s.closeRecord reason)).stampClose := by
  unfold State.meterClose
  rw [h]
  rfl

/-- A close that meets one of its cycle leaves that one, with the lower code. -/
theorem State.meterClose_of_some {l : List (List Byte)} {x : List Byte} (h : s.closedNow = some (l, x)) (reason : Nat) :
    s.meterClose reason =
      { s with mtr := { s.mtr with closed := l ++ [x.take 40 ++ leBytes 1 (min reason (leAt x 40 1)) ++ x.drop 41] } } := by
  unfold State.meterClose
  rw [h]

theorem State.rd_setMtr (m : Meter) : ({ s with mtr := m } : State).rd a = s.rd a := (rfl)

theorem State.meterClose_opens (h : s.closedNow = none) (reason : Nat) :
    (s.meterClose reason).mtr.closed = s.mtr.closed ++ [s.closeRecord reason] ∧ (s.meterClose reason).meters = [] ∧
      (s.meterClose reason).rd Reg.MTR_PERIOD = s.rd Reg.MTR_PERIOD + 1 := by
  rw [State.meterClose_of_none h]
  rw [State.closed_stampClose, State.meters_stampClose, State.rd_stampClose, State.closed_closeWith, State.meters_closeWith,
    State.rd_MTR_PERIOD_closeWith]
  exact ⟨rfl, rfl, rfl⟩

theorem State.meterClose_closedFrom (reason : Nat) : s.ClosedFrom (s.meterClose reason) := by
  cases h : s.closedNow with
  | none =>
    rw [State.meterClose_of_none h]
    refine ⟨?_, ?_, fun a ha => ?_⟩
    · rw [State.now_stampClose, State.now_closeWith]
    · rw [State.monoOfs_stampClose, State.monoOfs_closeWith]
    · rw [State.rd_stampClose, State.rd_closeWith _ ha]
  | some x =>
    rw [State.meterClose_of_some h]
    exact ⟨rfl, rfl, fun a _ => State.rd_setMtr _⟩

theorem State.scheduleClose_closedFrom : s.ClosedFrom s.scheduleClose := by
  have h : s.scheduleClose = s ∨ s.scheduleClose = s.meterClose 1 := ite_eq_or_eq ..
  rcases h with h | h
  · rw [h]
    exact .refl
  · rw [h]
    exact State.meterClose_closedFrom 1

theorem meterCloseSchedule_gives (hc : s.closedNow = none) (hm : s.fget Reg.MTR_CTRL Fld.MTR_CTRL_PERIOD_MIN ≠ 0)
    (ht : (s.mtr.rtcOpen / (60000 * s.fget Reg.MTR_CTRL Fld.MTR_CTRL_PERIOD_MIN) + 1) *
      (60000 * s.fget Reg.MTR_CTRL Fld.MTR_CTRL_PERIOD_MIN) ≤ s.rtc) : Gives .meterCloseSchedule s fun t =>
        t.mtr.closed = s.mtr.closed ++ [s.closeRecord 1] ∧ t.meters = [] ∧ t.rd Reg.MTR_PERIOD = s.rd Reg.MTR_PERIOD + 1 := by
  refine ⟨_, rfl, ?_⟩
  have e : s.scheduleClose = s.meterClose 1 := by
    unfold State.scheduleClose
    rw [hc]
    dsimp only
    exact if_neg (by omega)
  rw [e]
  exact State.meterClose_opens hc 1

/-! ## A close by the operator (R757, R767) -/

/-- The record that a close makes, in states alike in meters, time and all registers but `MTR_CTRL`. -/
theorem State.closeRecord_congr (hm : t.mtr = s.mtr) (hu : t.meters = s.meters) (hn : t.now = s.now)
    (hr : ∀ b, b ≠ Reg.MTR_CTRL → t.rd b = s.rd b) (reason : Nat) : t.closeRecord reason = s.closeRecord reason := by
  have hq : allParts.filter (fun p => t.nquad p != 0) = allParts.filter fun p => s.nquad p != 0 :=
    List.filter_congr fun p hp => by
      have hne : Reg.PRT_MAP p ≠ Reg.MTR_CTRL := by
        revert p
        decide
      unfold State.nquad
      rw [State.fget_of_rd (hr _ hne)]
  have hk : t.meterOf = s.meterOf := by
    unfold State.meterOf
    rw [hu]
  unfold State.closeRecord State.rtc State.mono
  rw [hq, hk, hm, hn, State.rn_of_rd (hr _ (by decide)), State.rn_of_rd (hr Reg.GLB_FWSET (by decide))]

theorem State.closedNow_congr (hm : t.mtr = s.mtr) (hn : t.now = s.now) : t.closedNow = s.closedNow := by
  unfold State.closedNow
  rw [hm, hn]

theorem State.regWrite_keeps (b : Nat) (v : Word) : Kept (allBut [.regs, .out]) s (s.regWrite b v) :=
  State.regWrite_kept b v (Kept.refl _ s) rfl rfl

/-- The state that a close by the operator finds, after the write by access codes. -/
theorem State.mtrCtrlW_close (v : Word) : ∃ u : State, s.mtrCtrlW (Fld.MTR_CTRL_CLOSE.put v 1) = u.meterClose 2 ∧ u.closedNow = s.closedNow ∧
    u.closeRecord 2 = s.closeRecord 2 ∧ u.mtr.closed = s.mtr.closed ∧ u.meters = s.meters ∧ u.rd Reg.MTR_PERIOD = s.rd Reg.MTR_PERIOD := by
  have e : s.mtrCtrlW (Fld.MTR_CTRL_CLOSE.put v 1) = (s.regWrite Reg.MTR_CTRL (Fld.MTR_CTRL_CLOSE.put v 1)).meterClose 2 :=
    if_pos (Fld.get_put_one _ rfl (by decide))
  have hrd : ∀ b, b ≠ Reg.MTR_CTRL → (s.regWrite Reg.MTR_CTRL (Fld.MTR_CTRL_CLOSE.put v 1)).rd b = s.rd b :=
    fun b hb => s.rd_regWrite_ne _ hb
  have hk := s.regWrite_keeps Reg.MTR_CTRL (Fld.MTR_CTRL_CLOSE.put v 1)
  have hm := hk.mtr rfl
  obtain ⟨hn, -⟩ := hk.time rfl
  obtain ⟨-, -, hu, -⟩ := hk.usage rfl
  exact ⟨_, e, State.closedNow_congr hm hn, State.closeRecord_congr hm hu hn hrd 2, by rw [hm], hu, hrd _ (by decide)⟩

theorem State.closed_setClosed (l : List (List Byte)) : ({ s with mtr := { s.mtr with closed := l } } : State).mtr.closed = l := rfl
theorem State.meters_setMtr (m : Meter) : ({ s with mtr := m } : State).meters = s.meters := rfl

theorem meterCloseOperator_gives {r : RegReq} {v : Word} (hg : s.grants r Reg.MTR_CTRL = true) : Gives (.meterCloseOperator r v) s fun t =>
    match s.closedNow with
    | none => t.mtr.closed = s.mtr.closed ++ [s.closeRecord 2] ∧ t.meters = [] ∧ t.rd Reg.MTR_PERIOD = s.rd Reg.MTR_PERIOD + 1
    | some (l, x) => t.mtr.closed = l ++ [x.take 40 ++ leBytes 1 (min 2 (leAt x 40 1)) ++ x.drop 41] ∧ t.meters = s.meters := by
  obtain ⟨u, e, hnow, hrec, hclosed, hmet, hper⟩ := s.mtrCtrlW_close v
  refine ⟨u.meterClose 2, ?_, ?_⟩
  · rw [← e]
    exact congrArg _ (State.write_of_grants (fun s => s.mtrCtrlW (Fld.MTR_CTRL_CLOSE.put v 1)) hg)
  · rcases h : s.closedNow with _ | ⟨l, x⟩
    · dsimp only
      obtain ⟨h1, h2, h3⟩ := State.meterClose_opens (hnow.trans h) 2
      rw [h1, h2, h3, hrec, hclosed, hper]
      exact ⟨rfl, rfl, rfl⟩
    · dsimp only
      rw [State.meterClose_of_some (hnow.trans h), State.closed_setClosed, State.meters_setMtr, hmet]
      exact ⟨rfl, rfl⟩

/-! ## Sealing (R758, R759) -/

theorem recordSeal_gives {c : List Byte} {rest : List (List Byte)} (h : s.mtr.closed = c :: rest) : Gives .recordSeal s fun t =>
    t.mtr.closed = rest ∧ ∃ rec_, t.mtr.records = (rec_ :: s.mtr.records).take 8 ∧ rec_.take 240 = sliceB c 0 192 ++ sliceB s.mtr.prev 0 48 ∧
      t.mtr.prev = Crypto.sha384 rec_ := by
  have htake (x y z : List Byte) : (sliceB c 0 192 ++ sliceB s.mtr.prev 0 48 ++ x ++ y ++ z).take 240 = sliceB c 0 192 ++ sliceB s.mtr.prev 0 48 := by
    rw [List.append_assoc, List.append_assoc]
    exact List.take_left' (by rw [List.length_append, length_sliceB, length_sliceB])
  have hmtr (x : State) (v w u : Nat) : ((((x.fput Reg.MTR_STAT Fld.MTR_STAT_SEALING v).fput Reg.MTR_STAT Fld.MTR_STAT_REC_VALID w).fput Reg.MTR_STAT
      Fld.MTR_STAT_UNSIGNED u).irqMtr Fld.MTR_INT_STATUS_CLOSED).mtr = x.mtr :=
    (State.irqMtr_kept (φ := allBut [.regs, .out]) _ (State.fput_kept _ _ _ (State.fput_kept _ _ _ (State.fput_kept _ _ _ (Kept.refl _ x) rfl)
      rfl) rfl) rfl rfl).mtr rfl
  refine ⟨_, rfl, ?_⟩
  unfold State.recordSeal
  rw [h]
  dsimp only
  generalize (if s.rootOk = true then _ else _ : List Byte × List Byte) = sigs
  obtain ⟨ec, pq⟩ := sigs
  dsimp only
  rw [hmtr]
  exact ⟨rfl, _, rfl, htake _ _ _, rfl⟩

/-! ## The clock set (R761) -/

/-- The registers of the log of clock sets, and what they leave. -/
def State.logSet (s : State) (old new i : Nat) : State :=
  (((((s.wr64 (Reg.MTR_SETLOG_OLD_LO i) old).wr64 (Reg.MTR_SETLOG_NEW_LO i) new).wr64 (Reg.MTR_SETLOG_MONO_LO i) s.mono).wn
    (Reg.MTR_SETLOG_PERIOD i) (s.rn Reg.MTR_PERIOD)).fput Reg.MTR_SETLOG_STAT Fld.MTR_SETLOG_STAT_NEXT (i + 1)).bump Reg.MTR_SETLOG_STAT
      Fld.MTR_SETLOG_STAT_TOTAL 1

theorem State.logSet_keeps (old new i : Nat) : Kept (allBut [.regs]) s (s.logSet old new i) :=
  State.bump_kept _ _ _ (State.fput_kept _ _ _ (State.wn_kept _ _ (State.wr64_kept _ _ (State.wr64_kept _ _ (State.wr64_kept _ _
    (Kept.refl _ s) rfl) rfl) rfl) rfl) rfl) rfl

/-- The clock moves to `new`; the period notes that it was set, backward or forward. -/
def State.moveClock (s : State) (old new now : Nat) : State :=
  { s with mtr := { s.mtr with
      rtcOfs := (new : Int) - (now / 100000 : Nat), flags := s.mtr.flags ||| (if new < old then 1 else 2)
      setCnt := satAdd 16 s.mtr.setCnt 1 } }

theorem State.now_moveClock (old new now : Nat) : (s.moveClock old new now).now = s.now := rfl
theorem State.monoOfs_moveClock (old new now : Nat) : (s.moveClock old new now).mtr.monoOfs = s.mtr.monoOfs := rfl
theorem State.rtcOfs_moveClock (old new now : Nat) : (s.moveClock old new now).mtr.rtcOfs = (new : Int) - (now / 100000 : Nat) := rfl

/-- The state that a set of the clock finds: after the schedule's close, unless the cycle has its close. -/
def State.beforeSet (s : State) : State := if s.closedNow.isSome then s else s.scheduleClose

theorem State.beforeSet_closedFrom : s.ClosedFrom s.beforeSet := by
  unfold State.beforeSet
  split
  · exact .refl
  · exact State.scheduleClose_closedFrom

theorem State.rtcSet_of_keyed {v : Word} (hk : Fld.MTR_RTC_CTRL_KEY.get v = 0x5254) (hs : Fld.MTR_RTC_CTRL_SET.get v = 1) :
    ∃ old i, s.rtcSet v = ((s.beforeSet.logSet old (s.beforeSet.rd64 Reg.MTR_RTC_SET_LO) i).moveClock old
      (s.beforeSet.rd64 Reg.MTR_RTC_SET_LO) s.beforeSet.now).irqMtr Fld.MTR_INT_STATUS_SET := by
  unfold State.rtcSet
  rw [if_neg (by simp [hk, hs])]
  have hu : (if s.closedNow.isSome then s else s.scheduleClose) = s.beforeSet := rfl
  rw [hu]
  generalize s.beforeSet = u
  refine ⟨u.rtc, u.fget Reg.MTR_SETLOG_STAT Fld.MTR_SETLOG_STAT_NEXT, ?_⟩
  dsimp only [State.logSet, State.moveClock]

theorem State.rtcSet_facts {v : Word} (hk : Fld.MTR_RTC_CTRL_KEY.get v = 0x5254) (hs : Fld.MTR_RTC_CTRL_SET.get v = 1) :
    (s.rtcSet v).now = s.now ∧ (s.rtcSet v).mtr.monoOfs = s.mtr.monoOfs ∧
      (s.rtcSet v).mtr.rtcOfs = (s.rd64 Reg.MTR_RTC_SET_LO : Int) - (s.now / 100000 : Nat) := by
  obtain ⟨old, i, e⟩ := s.rtcSet_of_keyed hk hs
  have hu := s.beforeSet_closedFrom
  have hset : s.beforeSet.rd64 Reg.MTR_RTC_SET_LO = s.rd64 Reg.MTR_RTC_SET_LO := State.rd64_of_rd (hu.rd _ (by decide)) (hu.rd _ (by decide))
  have hl := s.beforeSet.logSet_keeps old (s.beforeSet.rd64 Reg.MTR_RTC_SET_LO) i
  rw [e]
  generalize s.beforeSet.logSet old (s.beforeSet.rd64 Reg.MTR_RTC_SET_LO) i = x at hl
  have hk := State.irqMtr_kept (φ := allBut [.regs, .out]) Fld.MTR_INT_STATUS_SET (Kept.refl _
    (x.moveClock old (s.beforeSet.rd64 Reg.MTR_RTC_SET_LO) s.beforeSet.now)) rfl rfl
  rw [hk.mtr rfl, (hk.time rfl).1, State.now_moveClock, State.monoOfs_moveClock, State.rtcOfs_moveClock, (hl.time rfl).1, hl.mtr rfl,
    hu.now, hu.monoOfs, hset]
  exact ⟨rfl, rfl, rfl⟩

theorem rtcSet_gives {r : RegReq} {v : Word} (hg : s.grants r Reg.MTR_RTC_CTRL = true) (hk : Fld.MTR_RTC_CTRL_KEY.get v = 0x5254)
    (hs : Fld.MTR_RTC_CTRL_SET.get v = 1) : Gives (.rtcSet r v) s fun t => t.rtc = s.rd64 Reg.MTR_RTC_SET_LO ∧ t.mono = s.mono := by
  refine gives_of_write (w := fun s => s.rtcSet v) rfl hg ?_
  obtain ⟨hnow, hmono, hrtc⟩ := s.rtcSet_facts hk hs
  have hlt : s.rd64 Reg.MTR_RTC_SET_LO < 2 ^ 64 := by
    have h1 := (s.rd Reg.MTR_RTC_SET_LO).isLt
    have h2 := (s.rd (Reg.MTR_RTC_SET_LO + 4)).isLt
    unfold State.rd64 State.rn
    omega
  constructor
  · unfold State.rtc unsigned
    rw [hrtc, hnow]
    omega
  · unfold State.mono
    rw [hmono, hnow]

/-! ## The tick of `MEM` (R756) -/

theorem State.meterOf_meter (p kind d q k : Nat) (h : s.meterHold = false) : (s.meter p kind d).meterOf q k =
    if 4 * q + k = 4 * p + kind then satAdd 64 (s.meterOf q k) d else s.meterOf q k := by
  have e : s.meter p kind d = { s with meters := SMap.upd (fun _ => 0) s.meters (4 * p + kind) fun x => satAdd 64 x d } :=
    if_neg (by simp [h])
  rw [e]
  unfold State.meterOf SMap.upd
  split
  · rename_i hq
    rw [hq, SMap.get_set_same]
  · rename_i hq
    rw [SMap.get_set_ne _ _ _ hq]

theorem State.meter_alike (p kind d : Nat) : (s.meter p kind d).regs = s.regs ∧ (s.meter p kind d).meterHold = s.meterHold := by
  unfold State.meter
  split <;> exact ⟨rfl, rfl⟩

/-- One ms of `MEM` of a partition. -/
def State.memTickOf (s : State) (p : Nat) : State := if s.partState p = 0 then s else s.meter p 1 (64 * s.nstacks p)

theorem State.memTickOf_alike (p : Nat) : (s.memTickOf p).regs = s.regs ∧ (s.memTickOf p).meterHold = s.meterHold := by
  unfold State.memTickOf
  split
  · exact ⟨rfl, rfl⟩
  · exact State.meter_alike ..

theorem State.meterOf_memTickOf (p q : Nat) (h : s.meterHold = false) : (s.memTickOf p).meterOf q 1 =
    if q = p ∧ s.partState p ≠ 0 then satAdd 64 (s.meterOf q 1) (64 * s.nstacks p) else s.meterOf q 1 := by
  unfold State.memTickOf
  by_cases hp : s.partState p = 0
  · simp [hp]
  · rw [if_neg hp, State.meterOf_meter _ _ _ _ _ h]
    simp [hp]

/-- What the other partitions' ticks leave of one partition. -/
structure State.MemAlike (s t : State) (p : Nat) : Prop where
  regs : t.regs = s.regs
  hold : t.meterHold = false
  mem : t.meterOf p 1 = s.meterOf p 1

theorem State.partState_of_regs (h : t.regs = s.regs) (p : Nat) : t.partState p = s.partState p := State.fget_of_rd (State.regs_of_rd h _)
theorem State.nstacks_of_regs (h : t.regs = s.regs) (p : Nat) : t.nstacks p = s.nstacks p := by
  unfold State.nstacks State.nquad
  rw [State.fget_of_rd (State.regs_of_rd h _)]

theorem State.meterOf_memTicks {p : Nat} (hp : p ∈ allParts) (hh : s.meterHold = false) : (allParts.foldl State.memTickOf s).meterOf p 1 =
    if s.partState p = 0 then s.meterOf p 1 else satAdd 64 (s.meterOf p 1) (64 * s.nstacks p) := by
  refine (foldl_part (B := fun t => s.MemAlike t p) (A := fun t => t.meterHold = false ∧ t.meterOf p 1 =
    if s.partState p = 0 then s.meterOf p 1 else satAdd 64 (s.meterOf p 1) (64 * s.nstacks p)) allParts_nodup hp ?_ ?_ ?_ ?_).2
  · intro t j hj ht
    obtain ⟨hr, hm⟩ := t.memTickOf_alike j
    exact ⟨hr.trans ht.regs, hm.trans ht.hold, by rw [State.meterOf_memTickOf _ _ ht.hold, if_neg (fun h => hj h.1.symm), ht.mem]⟩
  · intro t ht
    obtain ⟨-, hm⟩ := t.memTickOf_alike p
    refine ⟨hm.trans ht.hold, ?_⟩
    rw [State.meterOf_memTickOf _ _ ht.hold, State.partState_of_regs ht.regs, State.nstacks_of_regs ht.regs, ht.mem]
    by_cases h : s.partState p = 0 <;> simp [h]
  · intro t j hj ht
    obtain ⟨-, hm⟩ := t.memTickOf_alike j
    exact ⟨hm.trans ht.1, by rw [State.meterOf_memTickOf _ _ ht.1, if_neg (fun h => hj h.1.symm), ht.2]⟩
  · exact ⟨rfl, hh, rfl⟩

theorem meterMemTick_gives (hh : s.meterHold = false) (ht : s.mtr.memTick < s.now / 100000) : Gives .meterMemTick s fun t =>
    ∀ p, p ∈ allParts → t.meterOf p 1 = if s.partState p = 0 then s.meterOf p 1 else satAdd 64 (s.meterOf p 1) (64 * s.nstacks p) := by
  refine ⟨_, rfl, fun p hp => ?_⟩
  have e : s.memTick = allParts.foldl State.memTickOf { s with mtr := { s.mtr with memTick := s.now / 100000 } } := if_neg (by omega)
  rw [e]
  exact State.meterOf_memTicks hp hh

end

/-! ## The statement settled -/

/-- Settles O23, row by row. -/
theorem meterRowsComplete : Obligations.MeterRowsComplete :=
  ⟨fun _ hc hm ht => meterCloseSchedule_gives hc hm ht, fun _ _ _ hg => meterCloseOperator_gives hg, fun _ _ _ h => recordSeal_gives h,
    fun _ _ _ hg hk hs => rtcSet_gives hg hk hs, fun _ hh ht => meterMemTick_gives hh ht⟩

end Sys2Proof.Machine

/-! The rows of the tray bus, of time and of the management interfaces: what a sync frame and a module frame leave, the frame that the device
sends and its CRC, mutes, probes and replies, and the answers of the management interfaces. -/

namespace Sys2Proof.Machine

section
variable {s t : State} {a : Nat}

theorem State.rd_irqMgt (f : Fld) (h : a ≠ Reg.MGT_INT_STATUS) : (s.irqMgt f).rd a = s.rd a := State.rd_irq_ne _ _ _ _ _ _ h
@[simp] theorem State.tray_irqMgt (f : Fld) : (s.irqMgt f).tray = s.tray :=
  (State.irqMgt_kept (φ := allBut [.regs, .out]) f (Kept.refl _ s) rfl rfl).tray rfl
@[simp] theorem State.tray_platEvent (kind arg : Nat) : (s.platEvent kind arg).tray = s.tray := (State.platEvent_keeps kind arg).tray rfl

/-! ## A sync frame (R733, R749) -/

/-- The time of the last sync frame and the low word of the frame number. -/
structure State.Synced (s : State) (n : Nat) (w : Word) : Prop where
  sync : s.tray.sync = some n
  frame : s.rd Reg.MGT_FRAME_LO = w

section
variable {n : Nat} {w : Word} (h : s.Synced n w)
include h

theorem State.Synced.setTray {x : Tray} (hx : x.sync = s.tray.sync) : (s.setTray x).Synced n w := ⟨hx.trans h.sync, h.frame⟩
theorem State.Synced.fput {b : Nat} (f : Fld) (v : Nat) (hb : Reg.MGT_FRAME_LO ≠ b) : (s.fput b f v).Synced n w :=
  ⟨h.sync, (State.rd_fput_ne _ _ _ hb).trans h.frame⟩
theorem State.Synced.wr {b : Nat} (v : Word) (hb : Reg.MGT_FRAME_LO ≠ b) : (s.wr b v).Synced n w :=
  ⟨h.sync, (State.rd_wr_ne _ _ hb).trans h.frame⟩
theorem State.Synced.irqMgt (f : Fld) : (s.irqMgt f).Synced n w :=
  ⟨by rw [State.tray_irqMgt, h.sync], (State.rd_irqMgt _ (by decide)).trans h.frame⟩
theorem State.Synced.platEvent (kind arg : Nat) : (s.platEvent kind arg).Synced n w :=
  ⟨by rw [State.tray_platEvent, h.sync], (State.rd_platEvent _ _ (by decide)).trans h.frame⟩
theorem State.Synced.askHalt (src : Nat) : (s.askHalt src).Synced n w := ⟨h.sync, h.frame⟩
theorem State.Synced.failed (l : List Nat) :
    (if l = [] then s else l.foldl (fun (s : State) k => s.platEvent 2 k) (s.irqMgt Fld.MGT_INT_STATUS_FAIL)).Synced n w := by
  split
  · exact h
  · exact List.foldlRecOn (motive := fun t : State => t.Synced n w) l _ (h.irqMgt _) fun _ ht k _ => ht.platEvent 2 k

end

/-- A sync frame sets the two before all that follows on it. -/
theorem State.synced_frame (x : Tray) (n : Nat) (hx : x.sync = some n) (v w : Nat) :
    ((((s.setTray x).fput Reg.MGT_TB_STAT Fld.MGT_TB_STAT_SYNC 1).wn Reg.MGT_FRAME_LO v).wn Reg.MGT_FRAME_HI w).Synced n (BitVec.ofNat 32 v) :=
  ⟨hx, by rw [State.rd_wn_ne _ (by decide), State.rd_wn, if_pos rfl]⟩

theorem State.synced_syncFrame {b : List Byte} (hb : trayOk b = true) (ht : leAt b 0 1 % 16 = 15) :
    (s.syncFrame b).Synced s.now (BitVec.ofNat 32 (leAt b 3 4)) := by
  unfold State.syncFrame
  rw [if_neg (by simp [hb]), if_neg (by simp [ht])]
  extract_lets w1 w9 w11 hb s1 t run s2 s3 node s4 fail old new s5 s6 src tr s7
  have h3 : s3.Synced s.now (BitVec.ofNat 32 (leAt b 3 4)) := State.synced_frame _ _ rfl _ _
  clear_value s3
  have h4 : s4.Synced s.now (BitVec.ofNat 32 (leAt b 3 4)) := by
    unfold s4
    split
    · exact h3.wr _ (by decide)
    · exact h3
  clear_value s4
  have h6 : s6.Synced s.now (BitVec.ofNat 32 (leAt b 3 4)) := (h4.fput _ _ (by decide)).failed new
  clear_value s6
  have h7 : s7.Synced s.now (BitVec.ofNat 32 (leAt b 3 4)) := by
    unfold s7
    split
    · exact h6.setTray rfl
    · exact h6
  clear_value s7
  split
  · exact h7.askHalt 1
  · exact h7

theorem syncFrame_gives {b : List Byte} (hb : trayOk b = true) (ht : leAt b 0 1 % 16 = 15) : Gives (.syncFrame b) s fun t =>
    t.tray.sync = some s.now ∧ t.rd Reg.MGT_FRAME_LO = BitVec.ofNat 32 (leAt b 3 4) :=
  ⟨_, rfl, (State.synced_syncFrame hb ht).sync, (State.synced_syncFrame hb ht).frame⟩

/-! ## A module frame (R739, R740) -/

theorem unsigned_lt (n : Nat) (d : Int) : unsigned n d < 2 ^ n := by
  have h := Int.emod_lt_of_pos d (b := 2 ^ n) (by positivity)
  unfold unsigned
  have h0 := Int.emod_nonneg d (b := 2 ^ n) (by positivity)
  zify
  omega

/-- What a frame of another module counts on its drift. -/
def State.driftCounted (s : State) (k : Nat) (viol warn : Bool) : State :=
  if viol then (s.bump (Reg.MGT_DRIFT k) Fld.MGT_DRIFT_VIOL 1).bump Reg.MGT_TB_RXVIOL Fld.MGT_TB_RXVIOL_COUNT 1
  else if warn then s.bump (Reg.MGT_DRIFT k) Fld.MGT_DRIFT_WARN 1 else s

theorem State.fget_OFFSET_driftCounted {k : Nat} (hk : k < 9) (viol warn : Bool) :
    (s.driftCounted k viol warn).fget (Reg.MGT_DRIFT k) Fld.MGT_DRIFT_OFFSET = s.fget (Reg.MGT_DRIFT k) Fld.MGT_DRIFT_OFFSET := by
  have hne : Reg.MGT_DRIFT k ≠ Reg.MGT_TB_RXVIOL := by
    unfold Reg.MGT_DRIFT Reg.MGT_TB_RXVIOL
    omega
  unfold State.driftCounted
  split
  · rw [State.fget_of_rd (State.rd_bump_ne _ _ hne), State.bump, State.fget_fput_field _ _ _ _ _ (by decide) (by decide)]
  · split
    · rw [State.bump, State.fget_fput_field _ _ _ _ _ (by decide) (by decide)]
    · rfl

theorem State.fget_moduleFrame {k : Nat} {b : List Byte} (d : Int) (hk : k < 9) (hb : trayOk b = true) (hs : k ≠ s.traySlot)
    (hy : s.tray.sync.isSome = true) :
    (s.moduleFrame k b d).fget (Reg.MGT_DRIFT k) Fld.MGT_DRIFT_OFFSET = unsigned 8 (max (-127) (min 127 d)) := by
  have hne : Reg.MGT_DRIFT k ≠ Reg.MGT_INT_STATUS := by
    unfold Reg.MGT_DRIFT Reg.MGT_INT_STATUS
    omega
  unfold State.moduleFrame
  rw [if_neg (by simp [hb]), if_neg (by simp [hs, Option.isSome_iff_ne_none.1 hy])]
  extract_lets a s1 viol warn s2 t rest t1 hdr mine bad t2 fl anns s3
  have h2 : s2.fget (Reg.MGT_DRIFT k) Fld.MGT_DRIFT_OFFSET = unsigned 8 (max (-127) (min 127 d)) :=
    (State.fget_OFFSET_driftCounted hk viol warn).trans
      ((State.fget_fput _ _ _ _ (by decide)).trans (Nat.mod_eq_of_lt (unsigned_lt 8 _)))
  clear_value s2
  split
  · exact h2
  · split
    · rw [State.fget_of_rd (State.rd_irqMgt _ hne)]
      exact h2
    · exact h2

theorem moduleFrame_gives {k : Nat} {b : List Byte} (d : Int) (hk : k < 9) (hb : trayOk b = true) (hs : k ≠ s.traySlot)
    (hy : s.tray.sync.isSome = true) : Gives (.moduleFrame k b d) s fun t =>
      t.fget (Reg.MGT_DRIFT k) Fld.MGT_DRIFT_OFFSET = unsigned 8 (max (-127) (min 127 d)) :=
  ⟨_, rfl, State.fget_moduleFrame d hk hb hs hy⟩

/-! ## The own frame (R734 to R736) -/

theorem crc16Step_lt {c : Nat} (h : c < 65536) : crc16Step c < 65536 := by
  unfold crc16Step
  split
  · exact Nat.xor_lt_two_pow (n := 16) (Nat.mod_lt _ (by decide)) (by decide)
  · omega

theorem crc16_lt (l : List Byte) : crc16 l < 65536 := by
  refine List.foldlRecOn (motive := (· < 65536)) l _ (by decide) fun c hc b _ => ?_
  refine List.foldlRecOn (motive := (· < 65536)) (List.range 8) _ ?_ fun c hc _ _ => crc16Step_lt hc
  have hb := b.isLt
  exact Nat.xor_lt_two_pow (n := 16) hc (by omega)

/-- A body of 20 bytes with its CRC behind it is a good frame. -/
theorem trayOk_crc {l : List Byte} (h : l.length = 20) : trayOk (l ++ leBytes 2 (crc16 l)) = true := by
  have hlt := crc16_lt l
  have hcrc : leAt (l ++ leBytes 2 (crc16 l)) 20 2 = crc16 l := by
    rw [leAt_append_right _ (by omega), h, leAt_leBytes _ (by decide), Nat.pow_zero, Nat.div_one]
    exact Nat.mod_eq_of_lt hlt
  have htake : (l ++ leBytes 2 (crc16 l)).take 20 = l := List.take_left' h
  simp [trayOk, hcrc, htake, h, length_leBytes]

theorem length_flatMap_of_const {α β : Type} {l : List α} {f : α → List β} {n : Nat} (h : ∀ x ∈ l, (f x).length = n) :
    (l.flatMap f).length = l.length * n := by
  rw [List.length_flatMap, List.map_congr_left h, List.map_const', List.sum_replicate, smul_eq_mul]

theorem State.trayOk_ownFrame : trayOk s.ownFrame = true := by
  unfold State.ownFrame
  refine trayOk_crc ?_
  simp only [List.length_append, length_leBytes]
  rw [length_flatMap_of_const (n := 4)]
  · rfl
  · intro p _
    split <;> simp [length_leBytes]

/-- A transmission that nothing disturbs: nothing heard, no duplicate in the slot. -/
theorem State.transmit_quiet (hm : s.mayTransmit = true) (hh : s.tray.heard = []) :
    (∃ f, (s.transmit none none).out.head? = some (.tray f) ∧ trayOk f = true) ∧ (s.transmit none none).tray.lastTx = some s.now ∧
      (s.transmit none none).tray.anns = [] := by
  unfold State.transmit
  rw [if_neg (by simp [hm])]
  extract_lets t viol vc fix s1 s2 f dup sent x s3
  have hcond : ¬ ((t.mute = 3 ∧ viol = true) ∨ t.mute = 0 ∧ 3 ≤ vc) := by
    have hv : viol = false := by simp [viol, t, hh]
    simp [vc, hv]
  have hdup : dup = false := rfl
  have hdups : s3.tray.dups = 0 := by
    show (if dup = true then x.dups + 1 else 0) = 0
    rw [hdup]
    rfl
  rw [if_neg hcond, if_neg (by simp [hdups])]
  clear_value s2
  exact ⟨⟨_, rfl, State.trayOk_ownFrame⟩, rfl, rfl⟩

theorem moduleFrameTransmit_gives (hm : s.mayTransmit = true) (hh : s.tray.heard = []) :
    Gives (.moduleFrameTransmit none none) s fun t =>
      (∃ f, t.out.head? = some (.tray f) ∧ trayOk f = true) ∧ t.tray.lastTx = some s.now ∧ t.tray.anns = [] :=
  ⟨_, rfl, State.transmit_quiet hm hh⟩

/-! ## Loss, mute and kicks (R736, R742) -/

theorem syncLoss_gives {at_ : Nat} (hs : s.tray.sync = some at_) (ht : at_ + 6000 ≤ s.now)
    (hf : s.flag Reg.MGT_TB_STAT Fld.MGT_TB_STAT_SYNC = true) : Gives .syncLoss s fun t =>
      t.flag Reg.MGT_TB_STAT Fld.MGT_TB_STAT_SYNC = false := by
  refine ⟨_, rfl, ?_⟩
  show s.syncLoss.flag _ _ = false
  have e : s.syncLoss = (s.fput Reg.MGT_TB_STAT Fld.MGT_TB_STAT_SYNC 0).irqMgt Fld.MGT_INT_STATUS_SYNC_LOSS := by
    unfold State.syncLoss
    rw [hs]
    exact if_neg (by simp [hf]; omega)
  rw [e, State.flag_of_rd (State.rd_irqMgt _ (by decide)), State.flag_fput_zero (by decide)]

theorem resyncAligned_gives (hm : s.tray.mute = 1) (ha : 50 ≤ s.tray.align) (hd : s.flag Reg.MGT_TB_STAT Fld.MGT_TB_STAT_DUP_SLOT = false) :
    Gives .resyncAligned s fun t => t.tray.mute = 2 ∧ t.regs = s.regs := by
  have e : s.aligned = s.setTray { s.tray with mute := 2, heard := [] } := if_neg (by simp [hm, hd]; omega)
  refine ⟨_, rfl, ?_⟩
  rw [e]
  exact ⟨rfl, rfl⟩

theorem State.mute_muteNow : s.muteNow.tray.mute = 1 := by
  unfold State.muteNow
  rw [State.tray_irqMgt]
  rfl

theorem State.flag_MUTED_muteNow : s.muteNow.flag Reg.MGT_TB_STAT Fld.MGT_TB_STAT_MUTED = true := by
  unfold State.muteNow
  rw [State.flag_of_rd (State.rd_irqMgt _ (by decide)), State.flag_of_rd (State.rd_bump_ne _ _ (by decide)), State.flag, State.fget,
    State.rd_wr, Fld.get_put_ne _ _ _ _ (by decide) (by decide), Fld.get_put_one _ rfl (by decide)]
  rfl

theorem tbResyncCmd_gives {r : RegReq} {v : Word} (hg : s.grants r Reg.MGT_TB_CTRL = true) (hv : Fld.MGT_TB_CTRL_RESYNC.get v = 1)
    (hd : s.flag Reg.MGT_TB_STAT Fld.MGT_TB_STAT_DUP_SLOT = false) : Gives (.tbResyncCmd r v) s fun t =>
      t.tray.mute = 1 ∧ t.flag Reg.MGT_TB_STAT Fld.MGT_TB_STAT_MUTED = true := by
  refine gives_of_write (w := fun s => s.trayCtrlW v) rfl hg ?_
  have e : s.trayCtrlW v = (s.regWrite Reg.MGT_TB_CTRL v).muteNow := if_pos ⟨hv, by simp [hd]⟩
  rw [e]
  exact ⟨State.mute_muteNow, State.flag_MUTED_muteNow⟩

theorem hbKick_gives {r : RegReq} (hg : s.grants r Reg.MGT_HB_KICK = true) : Gives (.hbKick r) s fun t =>
    t = { s with tray := { s.tray with kick := some s.now } } := ⟨_, rfl, State.write_of_grants State.kick hg⟩

theorem hbKickTimeout_gives {at_ : Nat} (hk : s.tray.kick = some at_) (ht : at_ + 10000000 < s.now) : Gives .hbKickTimeout s fun t =>
    t = { s with tray := { s.tray with kick := none } } := by
  refine ⟨_, rfl, ?_⟩
  unfold State.kickTimeout
  rw [hk]
  exact if_pos ht

/-! ## Time (R750, R751) -/

theorem timeOffsetWrite_gives {r : RegReq} {v : Word} (hg : s.grants r Reg.MGT_TIME_OFS_HI = true) : Gives (.timeOffsetWrite r v) s fun t =>
    t.timeOfs = s.rn Reg.MGT_TIME_OFS_LO + 4294967296 * v.toNat ∧ t.ofsSet = true :=
  gives_of_write (w := fun s => s.timeOfsW v) rfl hg ⟨rfl, rfl⟩

@[simp] theorem State.tray_sendSpdm (n : Nat) (m : List Byte) : (s.sendSpdm n m).tray = s.tray :=
  (State.sendSpdm_kept (φ := allBut [.ports]) n m (Kept.refl _ s) rfl).tray rfl

theorem timeProbe_gives {r : RegReq} {v : Word} (hg : s.grants r Reg.MGT_TPROBE_CTRL = true) (hv : Fld.MGT_TPROBE_CTRL_GO.get v = 1)
    (hb : s.flag Reg.MGT_TPROBE_STAT Fld.MGT_TPROBE_STAT_BUSY = false) : Gives (.timeProbe r v) s fun t =>
      t.flag Reg.MGT_TPROBE_STAT Fld.MGT_TPROBE_STAT_BUSY = true ∧
        t.tray.probe = some (Fld.MGT_TPROBE_CTRL_PORT.get v, s.trayTime, s.now) := by
  refine gives_of_write (w := fun s => s.probeW v) rfl hg ?_
  unfold State.probeW
  rw [if_neg (by simp [hv, hb])]
  dsimp only
  rw [State.tray_sendSpdm, State.tray_setTray, State.fget_regWrite_rw (n := 0) v (by decide +kernel)]
  refine ⟨?_, rfl⟩
  rw [State.flag_of_rd (State.rd_sendSpdm _), State.flag_of_rd (State.rd_setTray _ _), State.flag, State.fget, State.rd_wr,
    Fld.get_put_one _ rfl (by decide)]
  rfl

theorem State.probe_probeEnd (w : Word) : (s.probeEnd w).tray.probe = none := by
  unfold State.probeEnd
  rw [State.tray_irqMgt]
  rfl

theorem State.rd_MGT_TPROBE_STAT_probeEnd (w : Word) : (s.probeEnd w).rd Reg.MGT_TPROBE_STAT = w := by
  unfold State.probeEnd
  rw [State.rd_irqMgt _ (by decide), State.rd_wr]

theorem State.rd_probeEnd_ne (w : Word) (h : a ≠ Reg.MGT_TPROBE_STAT) (h' : a ≠ Reg.MGT_INT_STATUS) : (s.probeEnd w).rd a = s.rd a := by
  unfold State.probeEnd
  rw [State.rd_irqMgt _ h', State.rd_wr_ne _ _ h, State.rd_setTray]

theorem State.flag_probeEnd {f : Fld} (hw : f.width = 1) (hf : f.lo + f.width ≤ 32) :
    (s.probeEnd (f.put 0 1)).flag Reg.MGT_TPROBE_STAT f = true := by
  rw [State.flag, State.fget, State.rd_MGT_TPROBE_STAT_probeEnd, Fld.get_put_one _ hw hf]
  rfl

theorem timeReply_gives {n t1 at_ : Nat} (t2 t3 : Nat) (h : s.tray.probe = some (n, t1, at_)) : Gives (.timeReply n t2 t3 false) s fun t =>
    t.tray.probe = none ∧ t.flag Reg.MGT_TPROBE_STAT Fld.MGT_TPROBE_STAT_VALID = true ∧
      t.rd64 Reg.MGT_TPROBE_OFS_LO = unsigned 64 ((((t2 : Int) - t1) - ((s.trayTime : Int) - t3)).fdiv 2) := by
  refine ⟨_, rfl, ?_⟩
  unfold State.probeReply
  rw [h]
  dsimp only
  rw [if_neg (by simp), if_neg (by simp), State.rd64_of_rd (State.rd_probeEnd_ne _ (by decide) (by decide))
    (State.rd_probeEnd_ne _ (by decide) (by decide)), State.rd64_of_rd (State.rd_wn_ne _ (by decide)) (State.rd_wn_ne _ (by decide)),
    State.rd64_wr64]
  exact ⟨State.probe_probeEnd _, State.flag_probeEnd rfl (by decide), Nat.mod_eq_of_lt (unsigned_lt 64 _)⟩

theorem timeProbeTimeout_gives {n t1 at_ : Nat} (h : s.tray.probe = some (n, t1, at_)) (ht : at_ + 100000 ≤ s.now) :
    Gives .timeProbeTimeout s fun t =>
      t.tray.probe = none ∧ t.flag Reg.MGT_TPROBE_STAT Fld.MGT_TPROBE_STAT_TIMEOUT = true := by
  have e : s.probeTimeout = s.probeEnd (Fld.MGT_TPROBE_STAT_TIMEOUT.put 0 1) := by
    unfold State.probeTimeout
    rw [h]
    exact if_neg (by omega)
  refine ⟨_, rfl, ?_⟩
  rw [e]
  exact ⟨State.probe_probeEnd _, State.flag_probeEnd rfl (by decide)⟩

/-! ## Management interfaces (R753 to R755) -/

/-- R692: management firmware answers its requests once it runs. -/
theorem State.pldm_of_up (h : s.bootStage = 3) (a : Nat) (f : State → State) : s.pldm a f = f s := if_pos (.inl h)

theorem setdasa_gives (hd : s.flag Reg.MGT_TB_STAT Fld.MGT_TB_STAT_DUP_SLOT = false) (hs : s.traySlot ≤ 8) (a : Nat) :
    Gives (.setdasa (0x50 + s.traySlot) a) s fun t => t = { s with dynAddr := some a } := by
  have e : s.staticAddr = some (0x50 + s.traySlot) := if_neg (by simp [hd, State.inTray, hs])
  exact ⟨_, rfl, if_pos e⟩

theorem getSensorReading_gives (h : s.bootStage = 3) (a : Nat) : Gives (.getSensorReading a 5) s fun t =>
    t = s.emit (.message a 2 0x11 (leBytes 2 5 ++ leBytes 8 (s.fget Reg.PWR_TEMP Fld.PWR_TEMP_TJ))) :=
  ⟨_, rfl, State.pldm_of_up h a _⟩

theorem setEventReceiver_gives (h : s.bootStage = 3) (a rcv : Nat) : Gives (.setEventReceiver a rcv) s fun t =>
    t.eventRcv = some rcv := by
  refine ⟨_, rfl, ?_⟩
  unfold State.setReceiver
  rw [State.pldm_of_up h]
  rfl

theorem pollForPlatformEvent_gives {e : PlatEvent} {rest : List PlatEvent} (h : s.bootStage = 3) (he : s.events = e :: rest) (a : Nat) :
    Gives (.pollForPlatformEvent a) s fun t =>
      t = s.emit (.message a 2 0x0B (leBytes 4 e.id ++ leBytes 2 e.kind ++ leBytes 4 e.arg)) := by
  refine ⟨_, rfl, ?_⟩
  unfold State.pollEvent
  rw [State.pldm_of_up h, he]

end

/-! ## The statements settled -/

/-- Settles O24, row by row. -/
theorem trayRowsComplete : Obligations.TrayRowsComplete :=
  ⟨fun _ _ hb ht => syncFrame_gives hb ht, fun _ _ _ d hk hb hs hy => moduleFrame_gives d hk hb hs hy,
    fun _ hm _ hh _ => moduleFrameTransmit_gives hm hh, fun _ _ hs ht hf => syncLoss_gives hs ht hf,
    fun _ hm ha hd => resyncAligned_gives hm ha hd, fun _ _ _ hg hv hd => tbResyncCmd_gives hg hv hd, fun _ _ hg => hbKick_gives hg,
    fun _ _ hk ht => hbKickTimeout_gives hk ht⟩

/-- Settles O26, row by row; the bytes of the probe's reply are those of log entry 24. -/
theorem timeRowsComplete : Obligations.TimeRowsComplete :=
  ⟨fun _ _ _ hg => timeOffsetWrite_gives hg, fun _ _ _ hg hv hb => timeProbe_gives hg hv hb, fun _ _ => ⟨_, rfl, rfl⟩,
    fun _ _ _ _ t2 t3 h => timeReply_gives t2 t3 h, fun _ _ _ _ h ht => timeProbeTimeout_gives h ht⟩

/-- Settles O27, row by row; the codes of the messages are those of log entries 24 and 27. -/
theorem managementRowsComplete : Obligations.ManagementRowsComplete :=
  ⟨fun _ _ => ⟨_, rfl, rfl⟩, fun _ a hd hs => setdasa_gives hd hs a, fun _ a h => getSensorReading_gives h a,
    fun _ a rcv h => setEventReceiver_gives h a rcv, fun _ a _ _ h he => pollForPlatformEvent_gives h he a, fun _ _ => ⟨_, rfl, rfl⟩⟩

end Sys2Proof.Machine

/-! The rows of counters, freezes, single steps, dumps and the debug window. -/

namespace Sys2Proof.Machine

section
variable {s t : State} {a p : Nat} {r : RegReq} {v : Word}

theorem State.flag_irqDbg {f : Fld} (g : Fld) (h : a ≠ Reg.DBG_INT_STATUS) : (s.irqDbg g).flag a f = s.flag a f :=
  State.flag_of_rd (State.rd_irqDbg_ne g h)

theorem mem_allParts_of_le (h1 : 1 ≤ p) (h4 : p ≤ 4) : p ∈ allParts := by
  interval_cases p <;> decide

/-! ## Counters (R771, R772) -/

theorem fieldAt_TDBG_CNT_CFG_EVENT : ∀ p ∈ allParts, ∀ k < 16,
    fieldAt (Reg.TDBG_CNT_CFG p k) Fld.TDBG_CNT_CFG_EVENT = some ⟨Fld.TDBG_CNT_CFG_EVENT, .rw, 0, [(0, 19)]⟩ := by decide +kernel

theorem counterConfigWrite_gives {k : Nat} (hp : p ∈ allParts) (hg : s.grants r (Reg.TDBG_CNT_CFG p (k % 16)) = true)
    (hv : Fld.TDBG_CNT_CFG_EVENT.get v ≤ 0x13) : Gives (.counterConfigWrite r p k v) s fun t =>
      t.fget (Reg.TDBG_CNT_CFG p (k % 16)) Fld.TDBG_CNT_CFG_EVENT = Fld.TDBG_CNT_CFG_EVENT.get v := by
  refine gives_of_write (w := fun s => s.regWrite (Reg.TDBG_CNT_CFG p (k % 16)) v) rfl hg ?_
  rw [State.fget_regWrite v (fieldAt_TDBG_CNT_CFG_EVENT p hp _ (Nat.mod_lt _ (by decide)))]
  exact if_pos (by simpa [FieldDesc.isDefined] using hv)

/-- The counters of partition `p`, cleared. -/
theorem State.counts_cntCtrlW (p : Nat) (v : Word) :
    (s.cntCtrlW p (Fld.TDBG_CNT_CTRL_CLEAR.put v 1)).counts = SMap.clear s.counts (16 * p) (16 * p + 16) := by
  obtain ⟨-, hc, -, -⟩ := (s.regWrite_keeps (Reg.TDBG_CNT_CTRL p) (Fld.TDBG_CNT_CTRL_CLEAR.put v 1)).usage rfl
  unfold State.cntCtrlW
  dsimp only
  rw [if_pos (Fld.get_put_one _ rfl (by decide)), hc]

theorem counterClear_gives (hg : s.grants r (Reg.TDBG_CNT_CTRL p) = true) : Gives (.counterClear r p v) s fun t =>
    (∀ k, k < 16 → SMap.get (fun _ => 0) t.counts (16 * p + k) = 0) ∧
      ∀ j, j < 16 * p ∨ 16 * p + 16 ≤ j → SMap.get (fun _ => 0) t.counts j = SMap.get (fun _ => 0) s.counts j := by
  refine gives_of_write (w := fun s => s.cntCtrlW p (Fld.TDBG_CNT_CTRL_CLEAR.put v 1)) rfl hg ?_
  rw [State.counts_cntCtrlW]
  refine ⟨fun k hk => SMap.get_clear_of_mem _ _ (by omega) (by omega), fun j hj => ?_⟩
  refine SMap.get_filter_of_kept _ _ fun v => ?_
  simpa using hj

/-! ## Freezes (R779) -/

theorem State.flag_FROZEN_devFreeze : s.devFreeze.flag Reg.DBG_SEPIA_STAT Fld.DBG_SEPIA_STAT_FROZEN = true := by
  unfold State.devFreeze
  split
  · assumption
  · rw [State.flag_irqDbg _ (by decide)]
    exact State.flag_fput_one rfl (by decide)

theorem State.flag_FROZEN_devThaw : s.devThaw.flag Reg.DBG_SEPIA_STAT Fld.DBG_SEPIA_STAT_FROZEN = false :=
  (State.flag_fput_field _ (by decide) (by decide)).trans (State.flag_fput_zero (by decide))

theorem deviceFreeze_gives (hg : s.grants r Reg.DBG_SEPIA_CTRL = true) (hv : Fld.DBG_SEPIA_CTRL_THAW.get v = 0) :
    Gives (.deviceFreeze r v) s fun t => t.flag Reg.DBG_SEPIA_STAT Fld.DBG_SEPIA_STAT_FROZEN = true := by
  refine gives_of_write (w := fun s => s.sepiaCtrlW (Fld.DBG_SEPIA_CTRL_FREEZE.put v 1)) rfl hg ?_
  have hthaw : Fld.DBG_SEPIA_CTRL_THAW.get (Fld.DBG_SEPIA_CTRL_FREEZE.put v 1) = 0 :=
    (Fld.get_put_ne _ _ _ _ (by decide) (by decide)).trans hv
  unfold State.sepiaCtrlW
  dsimp only
  rw [if_neg (by omega), if_pos (Fld.get_put_one _ rfl (by decide))]
  exact State.flag_FROZEN_devFreeze

theorem deviceThaw_gives (hg : s.grants r Reg.DBG_SEPIA_CTRL = true) : Gives (.deviceThaw r v) s fun t =>
    t.flag Reg.DBG_SEPIA_STAT Fld.DBG_SEPIA_STAT_FROZEN = false := by
  refine gives_of_write (w := fun s => s.sepiaCtrlW (Fld.DBG_SEPIA_CTRL_THAW.put v 1)) rfl hg ?_
  unfold State.sepiaCtrlW
  dsimp only
  rw [if_pos (Fld.get_put_one v rfl (by decide) (f := Fld.DBG_SEPIA_CTRL_THAW))]
  exact State.flag_FROZEN_devThaw

theorem State.flag_FROZEN_freezePart : (s.freezePart p).flag (Reg.TDBG_SEPIA_STAT p) Fld.TDBG_SEPIA_STAT_FROZEN = true := by
  unfold State.freezePart
  split
  · assumption
  · exact State.flag_fput_one rfl (by decide)

theorem partitionFreeze_gives (hg : s.grants r (Reg.TDBG_SEPIA_CTRL p) = true) (hv : Fld.TDBG_SEPIA_CTRL_THAW.get v = 0) :
    Gives (.partitionFreeze r p v) s fun t => t.flag (Reg.TDBG_SEPIA_STAT p) Fld.TDBG_SEPIA_STAT_FROZEN = true := by
  refine gives_of_write (w := fun s => s.partSepiaW p (Fld.TDBG_SEPIA_CTRL_FREEZE.put v 1)) rfl hg ?_
  have hthaw : Fld.TDBG_SEPIA_CTRL_THAW.get (Fld.TDBG_SEPIA_CTRL_FREEZE.put v 1) = 0 :=
    (Fld.get_put_ne _ _ _ _ (by decide) (by decide)).trans hv
  unfold State.partSepiaW
  dsimp only
  rw [if_neg (by omega), if_pos (Fld.get_put_one _ rfl (by decide))]
  exact State.flag_FROZEN_freezePart

theorem partitionThaw_gives (hg : s.grants r (Reg.TDBG_SEPIA_CTRL p) = true) : Gives (.partitionThaw r p v) s fun t =>
    t.flag (Reg.TDBG_SEPIA_STAT p) Fld.TDBG_SEPIA_STAT_FROZEN = false := by
  refine gives_of_write (w := fun s => s.partSepiaW p (Fld.TDBG_SEPIA_CTRL_THAW.put v 1)) rfl hg ?_
  unfold State.partSepiaW
  dsimp only
  rw [if_pos (Fld.get_put_one v rfl (by decide) (f := Fld.TDBG_SEPIA_CTRL_THAW))]
  exact State.flag_fput_zero (by decide)

/-! ## Single steps (R789) -/

/-- Every partition's credit, as `g` changes it. -/
def State.mapCredit (s : State) (g : Nat → Nat) : State :=
  allParts.foldl (fun (s : State) p => s.setSq p { s.sq p with credit := g (s.sq p).credit }) s

theorem State.regs_mapCredit (g : Nat → Nat) : (s.mapCredit g).regs = s.regs :=
  List.foldlRecOn (motive := fun t : State => t.regs = s.regs) allParts _ rfl fun _ ht _ _ => ht

theorem State.credit_mapCredit (g : Nat → Nat) (hp : p ∈ allParts) : ((s.mapCredit g).sq p).credit = g (s.sq p).credit := by
  refine foldl_part (B := fun t => t.sq p = s.sq p) (A := fun t => (t.sq p).credit = g (s.sq p).credit) allParts_nodup hp ?_ ?_ ?_ rfl
  · intro t j hj ht
    rwa [State.sq_setSq_ne _ _ (Ne.symm hj)]
  · intro t ht
    rw [State.sq_setSq, ht]
  · intro t j hj ht
    rwa [State.sq_setSq_ne _ _ (Ne.symm hj)]

/-- What a write of `DBG_STEP_CTRL` shows before it moves credits. -/
def State.stepShown (s : State) (v : Word) : State :=
  (s.regWrite Reg.DBG_STEP_CTRL v).fput Reg.DBG_STEP_STAT Fld.DBG_STEP_STAT_HELD (b2n (Fld.DBG_STEP_CTRL_HOLD.get v == 1))

theorem State.stepCtrlW_eq (v : Word) : s.stepCtrlW v =
    if s.flag Reg.DBG_STEP_CTRL Fld.DBG_STEP_CTRL_HOLD = true ∧ (Fld.DBG_STEP_CTRL_HOLD.get v == 1) = true then
      if Fld.DBG_STEP_CTRL_STEP.get v = 1 then ((s.stepShown v).mapCredit (· + 1)).bump Reg.DBG_STEP_STAT Fld.DBG_STEP_STAT_RELEASED 1
      else s.stepShown v
    else (s.stepShown v).mapCredit fun _ => 0 := by
  have hnow : (s.regWrite Reg.DBG_STEP_CTRL v).flag Reg.DBG_STEP_CTRL Fld.DBG_STEP_CTRL_HOLD = (Fld.DBG_STEP_CTRL_HOLD.get v == 1) :=
    State.flag_regWrite_rw (n := 0) v (by decide +kernel)
  unfold State.stepCtrlW
  dsimp only
  rw [hnow]
  by_cases h : s.flag Reg.DBG_STEP_CTRL Fld.DBG_STEP_CTRL_HOLD = true ∧ (Fld.DBG_STEP_CTRL_HOLD.get v == 1) = true
  · rw [if_pos h, if_pos h]
    by_cases hs : Fld.DBG_STEP_CTRL_STEP.get v = 1
    · rw [if_pos ⟨h.1, h.2, hs⟩, if_pos hs]
      rfl
    · rw [if_neg fun c => hs c.2.2, if_neg hs]
      rfl
  · rw [if_neg h, if_neg fun c => h ⟨c.1, c.2.1⟩, if_neg h]
    rfl

theorem State.sq_stepShown (v : Word) : (s.stepShown v).sq p = s.sq p := by
  unfold State.stepShown
  rw [State.sq_fput]
  exact State.sq_of_kept (s.regWrite_keeps _ _) rfl p

theorem singleStep_gives (hg : s.grants r Reg.DBG_STEP_CTRL = true) (hh : s.flag Reg.DBG_STEP_CTRL Fld.DBG_STEP_CTRL_HOLD = true)
    (hv : Fld.DBG_STEP_CTRL_HOLD.get v = 1) : Gives (.singleStep r v) s fun t =>
      ∀ p, p ∈ allParts → (t.sq p).credit = (s.sq p).credit + 1 := by
  refine gives_of_write (w := fun s => s.stepCtrlW (Fld.DBG_STEP_CTRL_STEP.put v 1)) rfl hg fun p hp => ?_
  have hhold : Fld.DBG_STEP_CTRL_HOLD.get (Fld.DBG_STEP_CTRL_STEP.put v 1) = 1 :=
    (Fld.get_put_ne _ _ _ _ (by decide) (by decide)).trans hv
  rw [State.stepCtrlW_eq, if_pos ⟨hh, by simp [hhold]⟩, if_pos (Fld.get_put_one _ rfl (by decide)), State.bump, State.sq_fput,
    State.credit_mapCredit _ hp, State.sq_stepShown]

theorem stepHoldWrite_gives (hg : s.grants r Reg.DBG_STEP_CTRL = true) (hv : Fld.DBG_STEP_CTRL_HOLD.get v = 0) :
    Gives (.stepHoldWrite r v) s fun t =>
      t.flag Reg.DBG_STEP_STAT Fld.DBG_STEP_STAT_HELD = false ∧ ∀ p, p ∈ allParts → (t.sq p).credit = 0 := by
  refine gives_of_write (w := fun s => s.stepCtrlW v) rfl hg ?_
  have hnow : (Fld.DBG_STEP_CTRL_HOLD.get v == 1) = false := by simp [hv]
  rw [State.stepCtrlW_eq, if_neg (by simp [hnow])]
  refine ⟨?_, fun p hp => State.credit_mapCredit _ hp⟩
  rw [State.flag_of_rd (State.regs_of_rd (State.regs_mapCredit _) _), State.stepShown, State.flag_fput_b2n _ rfl (by decide), hnow]

/-! ## Dumps (R784) -/

@[simp] theorem State.dumps_setDump (n : Nat) (on : Bool) :
    (s.setDump n on).dumps = if on then s.dumps ||| 2 ^ n else s.dumps - (s.dumps &&& 2 ^ n) := by
  unfold State.setDump
  dsimp only
  split
  · rw [State.fput_dumps]
  · rw [State.fput_dumps, State.fput_dumps]

theorem State.rd_setDumps (d : Nat) : ({ s with dumps := d } : State).rd a = s.rd a := (rfl)

theorem State.rd_setDump_ne (n : Nat) (on : Bool) (h : a ≠ Reg.DBG_DUMP_STAT) (h' : a ≠ Reg.TDBG_DUMP_STAT n) :
    (s.setDump n on).rd a = s.rd a := by
  unfold State.setDump
  dsimp only
  split
  · rw [State.rd_fput_ne _ _ _ h, State.rd_setDumps]
  · rw [State.rd_fput_ne _ _ _ h', State.rd_fput_ne _ _ _ h, State.rd_setDumps]

theorem State.flag_BUSY_setDump (hp : p ≠ 0) : (s.setDump p true).flag (Reg.TDBG_DUMP_STAT p) Fld.TDBG_DUMP_STAT_BUSY = true := by
  unfold State.setDump
  dsimp only
  rw [if_neg hp]
  exact State.flag_fput_b2n true rfl (by decide)

theorem State.tenantGo_of_frozen (hd : bitOf s.dumps p = false) (hf : s.dumpFrozen p = true) : s.tenantGo p = s.setDump p true := by
  unfold State.tenantGo
  rw [if_neg (by simp [hd]), if_pos hf]

theorem operatorDump_gives (hg : s.grants r Reg.DBG_DUMP_CTRL = true) (hv : Fld.DBG_DUMP_CTRL_TENANTS.get v = 0)
    (hd : bitOf s.dumps 0 = false) (hf : s.dumpFrozen 0 = true) : Gives (.operatorDump r v) s fun t => t.dumps = s.dumps ||| 1 := by
  refine gives_of_write (w := fun s => s.dumpCtrlW (Fld.DBG_DUMP_CTRL_GO.put v 1)) rfl hg ?_
  have hgo : Fld.DBG_DUMP_CTRL_GO.get (Fld.DBG_DUMP_CTRL_GO.put v 1) = 1 := Fld.get_put_one _ rfl (by decide)
  have htenants : Fld.DBG_DUMP_CTRL_TENANTS.get (Fld.DBG_DUMP_CTRL_GO.put v 1) = 0 :=
    (Fld.get_put_ne _ _ _ _ (by decide) (by decide)).trans hv
  unfold State.dumpCtrlW
  dsimp only
  rw [if_pos htenants, if_neg (by simp [hgo, hd]), if_pos hf, State.dumps_setDump]
  rfl

/-- One step of the pass over the tenants' dumps. -/
def State.tenantGoes (s : State) (p : Nat) : State :=
  if s.nquad p ≠ 0 ∧ s.flag (Reg.TDBG_DUMP_CFG p) Fld.TDBG_DUMP_CFG_VALID then s.tenantGo p else s

theorem State.tenantGoes_of_none {j : Nat} (h : s.nquad j = 0) : s.tenantGoes j = s := if_neg (by simp [h])

/-- A pass in which the steps of all but one change nothing, before and after that one. -/
theorem foldl_eq_of_fixed {g : State → Nat → State} {l : List Nat} (hp : p ∈ l) (hs : ∀ j ∈ l, j ≠ p → g s j = s)
    (ht : ∀ j ∈ l, j ≠ p → g (g s p) j = g s p) (hl : l.Nodup) : l.foldl g s = g s p := by
  obtain ⟨before, after, rfl⟩ := List.append_of_mem hp
  have hn : p ∉ before ++ after := (List.nodup_middle.mp hl).notMem
  have hbefore : before.foldl g s = s := List.foldlRecOn (motive := fun t => t = s) before g rfl fun t e j hj => by
    rw [e]
    exact hs j (by simp [hj]) fun c => hn (by simp [← c, hj])
  have hafter : after.foldl g (g s p) = g s p := List.foldlRecOn (motive := fun t => t = g s p) after g rfl fun t e j hj => by
    rw [e]
    exact ht j (by simp [hj]) fun c => hn (by simp [← c, hj])
  rw [List.foldl_append, List.foldl_cons, hbefore, hafter]

theorem PRT_MAP_ne_dumpStat : ∀ j ∈ allParts, ∀ p ∈ allParts, Reg.PRT_MAP j ≠ Reg.DBG_DUMP_STAT ∧ Reg.PRT_MAP j ≠ Reg.TDBG_DUMP_STAT p := by
  decide

theorem tenantDumps_gives (hg : s.grants r Reg.DBG_DUMP_CTRL = true) (hv : Fld.DBG_DUMP_CTRL_GO.get v = 0) (hp : p ∈ allParts)
    (hother : ∀ q, q ∈ allParts → q ≠ p → s.nquad q = 0) (hn : s.nquad p ≠ 0)
    (hvalid : s.flag (Reg.TDBG_DUMP_CFG p) Fld.TDBG_DUMP_CFG_VALID = true) (hd : bitOf s.dumps p = false) (hf : s.dumpFrozen p = true) :
    Gives (.tenantDumps r v) s fun t => t.dumps = s.dumps ||| 2 ^ p := by
  refine gives_of_write (w := fun s => s.dumpCtrlW (Fld.DBG_DUMP_CTRL_TENANTS.put v 1)) rfl hg ?_
  have hgo : Fld.DBG_DUMP_CTRL_GO.get (Fld.DBG_DUMP_CTRL_TENANTS.put v 1) = 0 :=
    (Fld.get_put_ne _ _ _ _ (by decide) (by decide)).trans hv
  have htenants : Fld.DBG_DUMP_CTRL_TENANTS.get (Fld.DBG_DUMP_CTRL_TENANTS.put v 1) = 1 := Fld.get_put_one _ rfl (by decide)
  have hgoes : s.tenantGoes p = s.setDump p true := (if_pos ⟨hn, hvalid⟩).trans (State.tenantGo_of_frozen hd hf)
  have hpass : allParts.foldl State.tenantGoes s = s.tenantGoes p := by
    refine foldl_eq_of_fixed hp (fun j hj hne => State.tenantGoes_of_none (hother j hj hne)) (fun j hj hne => ?_) allParts_nodup
    obtain ⟨h1, h2⟩ := PRT_MAP_ne_dumpStat j hj p hp
    rw [hgoes]
    exact State.tenantGoes_of_none ((State.fget_of_rd (State.rd_setDump_ne p true h1 h2)).trans (hother j hj hne))
  have e : s.dumpCtrlW (Fld.DBG_DUMP_CTRL_TENANTS.put v 1) = allParts.foldl State.tenantGoes s := by
    unfold State.dumpCtrlW
    dsimp only
    rw [if_neg (by omega), if_pos (.inl hgo)]
    rfl
  rw [e, hpass, hgoes, State.dumps_setDump]
  rfl

theorem tenantDump_gives (hp : p ∈ allParts) (hg : s.grants r (Reg.TDBG_DUMP_CTRL p) = true) (hv : Fld.TDBG_DUMP_CTRL_GO.get v = 1)
    (hd : bitOf s.dumps p = false) (hf : s.dumpFrozen p = true) : Gives (.tenantDump r p v) s fun t =>
      t.dumps = s.dumps ||| 2 ^ p ∧ t.flag (Reg.TDBG_DUMP_STAT p) Fld.TDBG_DUMP_STAT_BUSY = true := by
  refine gives_of_write (w := fun s => s.partDumpW p v) rfl hg ?_
  have e : s.partDumpW p v = s.setDump p true := (if_pos hv).trans (State.tenantGo_of_frozen hd hf)
  have hp0 : p ≠ 0 := by
    have := pos_and_le_four_of_mem_allParts hp
    omega
  rw [e, State.dumps_setDump]
  exact ⟨rfl, State.flag_BUSY_setDump hp0⟩

/-- What was sent stays sent, whatever an interrupt adds. -/
theorem State.mem_out_irqDbg {o : Output} (f : Fld) (h : o ∈ s.out) : o ∈ (s.irqDbg f).out := by
  unfold State.irqDbg State.irq
  dsimp only
  split
  · exact h
  · exact List.mem_cons_of_mem _ h

theorem State.toHost_untrusted (fn addr : Nat) (data : List Byte) :
    s.toHost fn addr false data = s.emit (.hostWrite fn addr false data) := rfl

/-- The operator's dump: its bytes leave in one write, and the registers show its end. -/
theorem State.operatorDump_eq : ∃ data trunc, s.operatorDump =
    ((((s.emit (.hostWrite 0 (s.rd64 Reg.DBG_DUMP_BASE_LO) false data)).setDump 0 false).fput Reg.DBG_DUMP_STAT Fld.DBG_DUMP_STAT_DONE 1).fput
      Reg.DBG_DUMP_STAT Fld.DBG_DUMP_STAT_TRUNC trunc).irqDbg Fld.DBG_INT_STATUS_DUMP_DONE := by
  unfold State.operatorDump
  dsimp only
  rw [State.toHost_untrusted]
  exact ⟨_, _, rfl⟩

theorem State.out_setDump (n : Nat) (on : Bool) : (s.setDump n on).out = s.out := by
  unfold State.setDump
  dsimp only
  split
  · rw [State.fput_out]
  · rw [State.fput_out, State.fput_out]

theorem bitOf_sub_and_two_pow (x k : Nat) : bitOf (x - (x &&& 2 ^ k)) k = false := by
  have h := testBit_sub_and x (2 ^ k) k
  rw [Nat.testBit_two_pow_self, Bool.not_true, Bool.and_false, Nat.testBit_eq_decide_div_mod_eq] at h
  simpa [bitOf] using h

theorem dumpComplete_gives (ok : Bool) (h : bitOf s.dumps 0 = true) : Gives (.dumpComplete 0 ok) s fun t =>
    bitOf t.dumps 0 = false ∧ t.flag Reg.DBG_DUMP_STAT Fld.DBG_DUMP_STAT_DONE = true ∧
      ∃ data, Output.hostWrite 0 (s.rd64 Reg.DBG_DUMP_BASE_LO) false data ∈ t.out := by
  obtain ⟨data, trunc, e⟩ := s.operatorDump_eq
  have hdone : s.dumpDone 0 ok = s.operatorDump := by
    unfold State.dumpDone
    rw [if_neg (by simp [h]), if_pos rfl]
  refine ⟨_, rfl, ?_⟩
  rw [hdone, e]
  refine ⟨?_, ?_, data, ?_⟩
  · rw [(State.irqDbg_kept (φ := allBut [.regs, .out]) _ (Kept.refl _ _) rfl rfl).dumps rfl, State.fput_dumps, State.fput_dumps,
      State.dumps_setDump]
    exact bitOf_sub_and_two_pow _ 0
  · rw [State.flag_irqDbg _ (by decide), State.flag_fput_field _ (by decide) (by decide), State.flag_fput_one rfl (by decide)]
  · refine State.mem_out_irqDbg _ ?_
    rw [State.fput_out, State.fput_out, State.out_setDump]
    exact List.mem_cons_self

/-! ## The debug window (R790) -/

theorem State.winRead_keyless {k : Nat} (errs : List ReadErr) (hc : s.closedPart (s.winByte k) 4 = none)
    (hk : s.flag Reg.DBG_WIN_CTRL Fld.DBG_WIN_CTRL_KEYLESS = true) (hraw : s.winRaw = true)
    (hpoison : SMap.get (fun _ => false) s.poison (poisonKey (winPlace (s.winByte k)).1 (winPlace (s.winByte k)).2) = false) :
    s.winRead k errs = (s, BitVec.ofNat 32
      (leAt (s.rawSector (winPlace (s.winByte k)).1 (winPlace (s.winByte k)).2) (s.winByte k % 256) 4)) := by
  have hopen : s.winRefused (s.winByte k) false = none := by
    unfold State.winRefused
    rw [hc]
    exact if_neg (by simp [hraw])
  unfold State.winRead
  dsimp only
  rw [hopen]
  dsimp only
  rw [if_pos hk, if_neg (by simp [hpoison])]

theorem debugWindowAccess_gives {k : Nat} (errs : List ReadErr) (hg : s.grants r (Reg.DBG_WIN_DATA (k % 1024)) = true)
    (hc : s.closedPart (s.winByte k) 4 = none) (hk : s.flag Reg.DBG_WIN_CTRL Fld.DBG_WIN_CTRL_KEYLESS = true) (hraw : s.winRaw = true)
    (hpoison : SMap.get (fun _ => false) s.poison (poisonKey (winPlace (s.winByte k)).1 (winPlace (s.winByte k)).2) = false) :
    Gives (.debugWindowAccess r k false v errs) s fun t =>
      t = s.emit (.readDone r.who (Reg.DBG_WIN_DATA (k % 1024))
        [BitVec.ofNat 32 (leAt (s.rawSector (winPlace (s.winByte k)).1 (winPlace (s.winByte k)).2) (s.winByte k % 256) 4)]) := by
  have ha : s.answers r (Reg.DBG_WIN_DATA (k % 1024)) = true := by
    simp only [State.grants, Bool.and_eq_true] at hg
    exact hg.1
  refine ⟨_, rfl, ?_⟩
  rw [if_neg (by decide), State.access_of_answers _ ha]
  dsimp only
  rw [State.winRead_keyless errs hc hk hraw hpoison]

end

/-! ## The statements settled -/

/-- Settles O21, row by row; of `FREEZE` and `THAW` in one write the freeze comes first (log entries 14 and 31). -/
theorem traceRowsComplete : Obligations.TraceRowsComplete :=
  ⟨fun _ _ _ _ _ h1 h4 hg hv => counterConfigWrite_gives (mem_allParts_of_le h1 h4) hg hv, fun _ _ _ _ _ _ hg => counterClear_gives hg,
    fun _ _ _ hg hv => deviceFreeze_gives hg hv, fun _ _ _ hg => deviceThaw_gives hg,
    fun _ _ _ _ _ _ hg hv => partitionFreeze_gives hg hv, fun _ _ _ _ _ _ hg => partitionThaw_gives hg,
    fun _ _ _ hg hh hv => singleStep_gives hg hh hv, fun _ _ _ hg hv => stepHoldWrite_gives hg hv⟩

/-- Settles O22, row by row; that a dump needs the freeze of the rings with the owner's entries alone, and its header whatever the size, is
log entry 31. -/
theorem dumpRowsComplete : Obligations.DumpRowsComplete :=
  ⟨fun _ _ _ hg hv hd hf => operatorDump_gives hg hv hd hf,
    fun _ _ _ _ hg hv hp hother hn hvalid hd hf => tenantDumps_gives hg hv hp hother hn hvalid hd hf,
    fun _ _ _ _ hp hg hv hd hf => tenantDump_gives hp hg hv hd hf, fun _ ok h => dumpComplete_gives ok h,
    fun _ _ _ _ errs hg hc hk hraw hpoison => debugWindowAccess_gives errs hg hc hk hraw hpoison⟩

end Sys2Proof.Machine

/-! Resets (O18): a reset shows its cause and leaves the memory and the flash, and no sequencer state and no keys. The states that a reset
passes through are named; `State.resetBy` is the block after it, before deferred tests begin and the sequence is released. -/

namespace Sys2Proof.Machine

section
variable {s t : State} {a : Nat} {f : Fld}

/-! ## Registers that a reset keeps -/

theorem SMap.get_keep {α : Type} (d : Nat → α) (m : SMap α) (p : Nat → Bool) (k : Nat) :
    SMap.get d (SMap.keep m p) k = if p k = true then SMap.get d m k else d k := by
  unfold SMap.keep
  induction m with
  | nil => simp [SMap.get]
  | cons e m ih =>
    obtain ⟨k', v⟩ := e
    rw [List.filter_cons]
    by_cases hk : k' = k
    · subst hk
      by_cases hp : p k' = true <;> simp [hp, SMap.get, ih]
    · by_cases hp : p k' = true <;> simp [hp, SMap.get, hk, ih]

theorem State.rd_setRegs (m : SMap Word) : ({ s with regs := m } : State).rd a = SMap.get regReset m a := (rfl)

/-- The registers of the cores lie above those of resets, power and the life cycle. -/
theorem ne_coreStat (h : a < 0x980C00) (c : Nat) : a ≠ Reg.DBG_CORE_STAT c := by
  unfold Reg.DBG_CORE_STAT
  omega

/-- The words kept, with the fields that no reset keeps at 0: what a cold reset leaves of the registers. -/
def State.keptWords (s : State) (cold maint : Bool) : State :=
  let s1 := { s with regs := SMap.keep s.regs fun a => batteryReg a || (!cold && retainedReg a) }
  let s2 := (s1.fput Reg.KEY_ROOT_STAT Fld.KEY_ROOT_STAT_IDENT_OK 0).fput Reg.KEY_ROOT_STAT Fld.KEY_ROOT_STAT_DRBG_OK 0
  let s3 := s2.fput Reg.DBG_QUAD_STAT Fld.DBG_QUAD_STAT_QUAD_FAIL 0
  if maint then s3 else
    (List.range 136).foldl (fun (s : State) c =>
      if s.flag (Reg.DBG_CORE_STAT c) Fld.DBG_CORE_STAT_RETIRE_PEND then s.fput (Reg.DBG_CORE_STAT c) Fld.DBG_CORE_STAT_RETIRE_PEND 0 else s) s3

/-- The fields of the limiter that a warm reset does not keep. -/
def State.limiterKept (s : State) : State :=
  let st := Reg.PWR_LIM_STAT
  let s5 := (((s.fput st Fld.PWR_LIM_STAT_MODE 0).fput st Fld.PWR_LIM_STAT_VF_IDX 2).fput st Fld.PWR_LIM_STAT_HOLD 0).fput st
    Fld.PWR_LIM_STAT_CAL_REJ 0
  s5.wn Reg.PWR_INT_STATUS (s5.rn Reg.PWR_INT_STATUS &&& Fld.PWR_INT_STATUS_THERMTRIP.mask)

theorem State.keptRegs_cold (maint : Bool) : s.keptRegs true maint = s.keptWords true maint := (rfl)

theorem State.keptRegs_warm (maint : Bool) : s.keptRegs false maint =
    (((s.keptWords false maint).limiterKept).fput Reg.MTR_STAT Fld.MTR_STAT_SAG_FROZEN (b2n s.mtr.snap.isSome)).bump
      Reg.GLB_RST_COUNT Fld.GLB_RST_COUNT_WARM 1 := (rfl)

theorem State.rd_clearPend (l : List Nat) (h : a < 0x980C00) : (l.foldl (fun (s : State) c =>
    if s.flag (Reg.DBG_CORE_STAT c) Fld.DBG_CORE_STAT_RETIRE_PEND then s.fput (Reg.DBG_CORE_STAT c) Fld.DBG_CORE_STAT_RETIRE_PEND 0 else s)
      s).rd a = s.rd a :=
  State.rd_foldl (fun t c => by split; exacts [State.rd_fput_ne _ _ _ (ne_coreStat h c), rfl]) l

theorem State.rd_keptWords (cold maint : Bool) (h : a < 0x980C00) (hk : a ≠ Reg.KEY_ROOT_STAT) :
    (s.keptWords cold maint).rd a = if (batteryReg a || (!cold && retainedReg a)) = true then s.rd a else regReset a := by
  have hq : a ≠ Reg.DBG_QUAD_STAT := by
    unfold Reg.DBG_QUAD_STAT
    omega
  have hkeep : ({ s with regs := SMap.keep s.regs fun a => batteryReg a || (!cold && retainedReg a) } : State).rd a =
      if (batteryReg a || (!cold && retainedReg a)) = true then s.rd a else regReset a :=
    (State.rd_setRegs _).trans (SMap.get_keep ..)
  rw [← hkeep]
  unfold State.keptWords
  dsimp only
  split
  · rw [State.rd_fput_ne _ _ _ hq, State.rd_fput_ne _ _ _ hk, State.rd_fput_ne _ _ _ hk]
  · rw [State.rd_clearPend _ h, State.rd_fput_ne _ _ _ hq, State.rd_fput_ne _ _ _ hk, State.rd_fput_ne _ _ _ hk]

theorem State.rd_limiterKept (h : a ≠ Reg.PWR_LIM_STAT) (h' : a ≠ Reg.PWR_INT_STATUS) : s.limiterKept.rd a = s.rd a := by
  unfold State.limiterKept
  dsimp only
  rw [State.rd_wn_ne _ h', State.rd_fput_ne _ _ _ h, State.rd_fput_ne _ _ _ h, State.rd_fput_ne _ _ _ h, State.rd_fput_ne _ _ _ h]

/-- R679, R680: the count of warm resets; a cold reset clears it. -/
theorem State.fget_WARM_keptRegs (cold maint : Bool) : (s.keptRegs cold maint).fget Reg.GLB_RST_COUNT Fld.GLB_RST_COUNT_WARM =
    if cold then 0 else satAdd 16 (s.fget Reg.GLB_RST_COUNT Fld.GLB_RST_COUNT_WARM) 1 := by
  have hb : batteryReg Reg.GLB_RST_COUNT = false := by decide
  have hr : retainedReg Reg.GLB_RST_COUNT = true := by decide
  cases cold with
  | true =>
    have hw := State.rd_keptWords (s := s) (a := Reg.GLB_RST_COUNT) true maint (by decide) (by decide)
    rw [State.keptRegs_cold, State.fget, hw, hb, hr, if_neg (by simp), if_pos rfl]
    decide
  | false =>
    have hw := State.rd_keptWords (s := s) (a := Reg.GLB_RST_COUNT) false maint (by decide) (by decide)
    rw [State.keptRegs_warm, State.fget_bump _ _ (by decide), State.fget_fput_ne _ _ _ _ (by decide),
      State.fget_of_rd (State.rd_limiterKept (by decide) (by decide)), State.fget, hw, hb, hr, if_pos (by simp), if_neg (by simp)]
    rfl

/-! ## Steps of a reset -/

/-- R681: the block that the reset starts from, the earlier triggers of its cycle undone and programming stopped. -/
def State.cut (s : State) : State := s.undoReset.fuseCut

theorem State.cut_keeps : Kept (allBut [.cores, .regs, .fuses]) s s.cut :=
  State.fuseCut_kept (State.undoReset_kept (Kept.refl _ s) rfl rfl) rfl rfl

theorem State.rd_rootStep (root : Nat) (h : a ≠ Reg.KEY_ROOT_STAT) : (s.rootStep root).rd a = s.rd a := by
  unfold State.rootStep
  split
  · exact State.rd_fput_ne s _ _ h
  · exact State.rd_fput_ne s _ _ h
  · rfl

theorem State.rd_fuseTo (o : FuseOp) (k : Nat) (h : a ≠ Reg.KEY_ROOT_STAT) : (s.fuseTo o k).rd a = s.rd a := by
  unfold State.fuseTo
  dsimp only
  split_ifs
  · rfl
  · rfl
  · exact State.rd_fput_ne s _ _ h
  · exact State.rd_fput_ne s _ _ h
  · exact State.rd_rootStep o.root h

theorem State.rd_fuseCut (h : a ≠ Reg.KEY_ROOT_STAT) (h' : a ≠ Reg.LCS_STAT) : s.fuseCut.rd a = s.rd a := by
  unfold State.fuseCut
  split
  · rfl
  · exact (State.rd_fput_ne _ _ _ h').trans (State.rd_fuseTo _ _ h)

/-- R681: the count of resets stands again as it was before the first trigger of the cycle. -/
theorem State.rn_COUNT_cut {x : ResetTrig} (h : s.resetNow = some x) : s.cut.rn Reg.GLB_RST_COUNT = x.count % 2 ^ 32 := by
  have hu : s.undoReset.rd Reg.GLB_RST_COUNT = (s.wn Reg.GLB_RST_COUNT x.count).rd Reg.GLB_RST_COUNT := by
    unfold State.undoReset
    rw [h]
    exact State.rd_foldl (fun t c => State.rd_fput_ne t _ _ (ne_coreStat (by decide) c)) _
  show s.undoReset.fuseCut.rn Reg.GLB_RST_COUNT = _
  rw [State.rn_of_rd ((State.rd_fuseCut (by decide) (by decide)).trans hu), State.rn_wn]

/-- The block with the registers that show the reset `x` written. -/
def State.resetShown (s : State) (x : ResetTrig) : State :=
  let s1 := s.cut.resetAll x.cold (x.maint && !x.cold)
  let s2 := s1.wr Reg.GLB_RST_CAUSE (Fld.GLB_RST_CAUSE_RESTARTED.put (Fld.GLB_RST_CAUSE_CAUSE.put 0 x.cause)
    (b2n (x.again && x.cause != 1)))
  let s3 := (s2.showFuses.fput Reg.LCS_STAT Fld.LCS_STAT_LEVEL x.level).wn Reg.LCS_LAST x.last
  if x.wdt then s3.setBits Reg.GLB_INT_STATUS Fld.GLB_INT_STATUS_WDT.mask else s3

/-- The block after the reset `x`, before deferred column tests begin and the sequence is released. -/
def State.resetBy (s : State) (x : ResetTrig) : State :=
  { s.resetShown x with power := { (s.resetShown x).power with rst := some { x with time := (s.resetShown x).now } } }

/-- What comes after the words of `resetAll` touches the registers and the record of the triggers. -/
theorem State.resetShown_keeps (x : ResetTrig) :
    Kept (allBut [.regs]) (s.cut.resetAll x.cold (x.maint && !x.cold)) (s.resetShown x) :=
  have h := State.wn_kept (φ := allBut [.regs]) Reg.LCS_LAST x.last (State.fput_kept Reg.LCS_STAT Fld.LCS_STAT_LEVEL x.level
    (State.showFuses_kept (State.wr_kept _ _ (Kept.refl _ _) rfl) rfl) rfl) rfl
  kept_ite (State.setBits_kept _ _ h rfl) h

theorem State.resetBy_keeps (x : ResetTrig) : Kept (allBut [.power]) (s.resetShown x) (s.resetBy x) :=
  kept_mk_power (Kept.refl _ _) rfl

/-- The registers that a reset writes last: the fuses' shadows, the last command of the life cycle and the watchdog's interrupt. -/
def lateRegs : List Nat := [Reg.LCS_CODE, Reg.LCS_TOKEN, Reg.LCS_STAT, Reg.LCS_LAST, Reg.GLB_INT_STATUS]

theorem State.rd_showFuses (hc : a ≠ Reg.LCS_CODE) (ht : a ≠ Reg.LCS_TOKEN) (hs : a ≠ Reg.LCS_STAT) : s.showFuses.rd a = s.rd a := by
  unfold State.showFuses
  dsimp only
  rw [State.rd_fput_ne _ _ _ hs, State.rd_fput_ne _ _ _ hs, State.rd_fput_ne _ _ _ hs, State.rd_fput_ne _ _ _ ht, State.rd_wn_ne _ hc]

theorem State.rd_resetBy (x : ResetTrig) (h : a ∉ lateRegs) : (s.resetBy x).rd a =
    ((s.cut.resetAll x.cold (x.maint && !x.cold)).wr Reg.GLB_RST_CAUSE (Fld.GLB_RST_CAUSE_RESTARTED.put
      (Fld.GLB_RST_CAUSE_CAUSE.put 0 x.cause) (b2n (x.again && x.cause != 1)))).rd a := by
  simp only [lateRegs, List.mem_cons, List.not_mem_nil, or_false, not_or] at h
  obtain ⟨hc, ht, hs, hl, hi⟩ := h
  have hwdt (y : State) : (if x.wdt then y.setBits Reg.GLB_INT_STATUS Fld.GLB_INT_STATUS_WDT.mask else y).rd a = y.rd a := by
    split
    · exact State.rd_setBits_ne _ hi
    · rfl
  unfold State.resetBy State.resetShown
  dsimp only
  rw [State.rd_setPower, hwdt, State.rd_wn_ne _ hl, State.rd_fput_ne _ _ _ hs, State.rd_showFuses hc ht hs]

theorem State.fget_CAUSE_resetBy (x : ResetTrig) :
    (s.resetBy x).fget Reg.GLB_RST_CAUSE Fld.GLB_RST_CAUSE_CAUSE = x.cause % 16 := by
  rw [State.fget, State.rd_resetBy x (by decide), State.rd_wr, Fld.get_put_ne _ _ _ _ (by decide) (by decide),
    Fld.get_put_same _ _ _ (by decide)]
  rfl

theorem State.flag_RESTARTED_resetBy (x : ResetTrig) :
    (s.resetBy x).flag Reg.GLB_RST_CAUSE Fld.GLB_RST_CAUSE_RESTARTED = (x.again && x.cause != 1) := by
  rw [State.flag, State.fget, State.rd_resetBy x (by decide), State.rd_wr, Fld.get_put_same _ _ _ (by decide)]
  cases (x.again && x.cause != 1) <;> rfl

theorem State.rd_resetAll (cold maint : Bool) : (s.resetAll cold maint).rd a = (s.keptRegs cold maint).rd a := (rfl)

theorem State.fget_WARM_resetBy (x : ResetTrig) : (s.resetBy x).fget Reg.GLB_RST_COUNT Fld.GLB_RST_COUNT_WARM =
    if x.cold then 0 else satAdd 16 (s.cut.fget Reg.GLB_RST_COUNT Fld.GLB_RST_COUNT_WARM) 1 := by
  rw [State.fget_of_rd ((State.rd_resetBy x (by decide)).trans (State.rd_wr_ne _ _ (by decide))),
    State.fget_of_rd (State.rd_resetAll ..), State.fget_WARM_keptRegs]

/-- What is the same in every reset: memory and flash stand, sequencers and keys are gone. -/
theorem State.resetBy_clears (x : ResetTrig) : (s.resetBy x).seqs = [] ∧ (s.resetBy x).keys = [] ∧ (s.resetBy x).dram = s.dram ∧
    (s.resetBy x).flash = s.flash := by
  have hk := s.resetBy_keeps x
  have hs := s.resetShown_keeps x
  exact ⟨(hk.seqs rfl).trans (hs.seqs rfl), (hk.keys rfl).trans (hs.keys rfl),
    (hk.mem rfl).trans ((hs.mem rfl).trans (State.cut_keeps.mem rfl)),
    (hk.flash rfl).1.trans ((hs.flash rfl).1.trans (State.cut_keeps.flash rfl).1)⟩

theorem State.now_resetBy (x : ResetTrig) : (s.resetBy x).now = if x.cold then 0 else s.now := by
  have hn : (s.resetShown x).now = if x.cold then 0 else s.cut.now := ((s.resetShown_keeps x).time rfl).1
  rw [((s.resetBy_keeps x).time rfl).1, hn, (State.cut_keeps.time rfl).1]

theorem State.power_resetAll (cold maint : Bool) : (s.resetAll cold maint).power =
    { slotId := s.power.slotId, off := s.power.off, perst := s.power.perst, hot := s.power.hot, winBad := !cold, maint := maint,
      relAt := none, aonHeld := cold || s.power.aonHeld, aonAt := if cold then 0 else s.power.aonAt } := (rfl)

/-- What holds the block in reset stays; the sequence is not released. -/
theorem State.power_resetBy (x : ResetTrig) : (s.resetBy x).power.off = s.power.off ∧ (s.resetBy x).power.perst = s.power.perst ∧
    (s.resetBy x).power.relAt = none ∧ (s.resetBy x).power.maint = (x.maint && !x.cold) := by
  have hp : (s.resetBy x).power = { (s.resetShown x).power with rst := some { x with time := (s.resetShown x).now } } := (rfl)
  rw [hp, (s.resetShown_keeps x).power rfl, State.power_resetAll, State.cut_keeps.power rfl]
  exact ⟨rfl, rfl, rfl, rfl⟩

/-! ## The release of the sequence -/

theorem State.rd_startDeferred (h : a ≠ Reg.DBG_SRAM_STAT) : s.startDeferred.rd a = s.rd a := by
  unfold State.startDeferred State.showTest
  rw [State.rd_fput_ne _ _ _ h]
  refine (State.rd_foldl (fun t x => ?_) _).trans rfl
  dsimp only
  split <;> rfl

theorem State.startDeferred_keeps : Kept (allBut [.regs, .cores]) s s.startDeferred := State.startDeferred_kept (Kept.refl _ s) rfl rfl

/-- R661, R676, R691: the sequence starts. -/
def State.released (s : State) : State :=
  let s1 := (List.range 8).foldl (fun (s : State) k => s.fput (Reg.MEM_STK_STAT k) Fld.MEM_STK_STAT_STATE 1) s
  { s1.fput Reg.MGT_TB_STAT Fld.MGT_TB_STAT_SLOT s.power.slotId with
    power := { s.power with relAt := some s.now, aonHeld := false, aonAt := if s.power.aonHeld then s.now else s.power.aonAt } }

theorem State.release_of_held (h : s.power.relAt.isSome ∨ s.power.off ∨ s.power.perst ∨ s.power.hot) : s.release = s := if_pos h
theorem State.release_of_free (h : ¬ (s.power.relAt.isSome ∨ s.power.off ∨ s.power.perst ∨ s.power.hot)) :
    s.release = s.released := if_neg h

theorem State.rd_released (h : a ≠ Reg.MGT_TB_STAT) (hk : ∀ k, k < 8 → a ≠ Reg.MEM_STK_STAT k) : s.released.rd a = s.rd a := by
  unfold State.released
  dsimp only
  rw [State.rd_setPower, State.rd_fput_ne _ _ _ h]
  exact State.rd_foldl_of_mem fun t k hm => State.rd_fput_ne t _ _ (hk k (List.mem_range.1 hm))

theorem State.rd_release (h : a ≠ Reg.MGT_TB_STAT) (hk : ∀ k, k < 8 → a ≠ Reg.MEM_STK_STAT k) : s.release.rd a = s.rd a := by
  by_cases hh : s.power.relAt.isSome ∨ s.power.off ∨ s.power.perst ∨ s.power.hot
  · rw [State.release_of_held hh]
  · rw [State.release_of_free hh, State.rd_released h hk]

theorem ne_stkStat (h : a < 0x710000) (k : Nat) : a ≠ Reg.MEM_STK_STAT k := by
  unfold Reg.MEM_STK_STAT
  omega

theorem State.power_release : s.release.power.off = s.power.off ∧ s.release.power.perst = s.power.perst ∧
    s.release.power.maint = s.power.maint := by
  by_cases hh : s.power.relAt.isSome ∨ s.power.off ∨ s.power.perst ∨ s.power.hot
  · rw [State.release_of_held hh]
    exact ⟨rfl, rfl, rfl⟩
  · rw [State.release_of_free hh]
    exact ⟨rfl, rfl, rfl⟩

theorem State.release_keeps : Kept (allBut [.regs, .power]) s s.release := State.release_kept (Kept.refl _ s) rfl rfl

/-! ## The rows -/

/-- The block after the reset `x`, the deferred column tests of a maintenance reset begun (R245). -/
def State.resetDone (s : State) (x : ResetTrig) : State :=
  if (x.maint && !x.cold) = true then (s.resetBy x).startDeferred else s.resetBy x

theorem State.reboot_eq (cold maint : Bool) (cause level last : Nat) :
    s.reboot cold maint cause level last = (s.resetDone (s.joinReset cold maint cause level last)).release := (rfl)

theorem State.resetDone_keeps (x : ResetTrig) : Kept (allBut [.regs, .cores]) (s.resetBy x) (s.resetDone x) :=
  kept_ite State.startDeferred_keeps (Kept.refl _ _)

theorem State.rd_resetDone (x : ResetTrig) (h : a ≠ Reg.DBG_SRAM_STAT) : (s.resetDone x).rd a = (s.resetBy x).rd a := by
  unfold State.resetDone
  split
  · exact State.rd_startDeferred h
  · rfl

theorem State.rd_release_resetDone (x : ResetTrig) (h : a < 0x100000) : (s.resetDone x).release.rd a = (s.resetBy x).rd a := by
  have ht : a ≠ Reg.MGT_TB_STAT := by
    unfold Reg.MGT_TB_STAT
    omega
  have hd : a ≠ Reg.DBG_SRAM_STAT := by
    unfold Reg.DBG_SRAM_STAT
    omega
  rw [State.rd_release ht fun k _ => ne_stkStat (by omega) k, State.rd_resetDone x hd]

/-- What every reset shows and leaves (R679 to R681, R688). -/
def ShowsReset (s : State) (cause : Nat) (t : State) : Prop :=
  t.fget Reg.GLB_RST_CAUSE Fld.GLB_RST_CAUSE_CAUSE = cause ∧ t.seqs = [] ∧ t.keys = [] ∧ t.dram = s.dram ∧ t.flash = s.flash

theorem State.showsReset_release_resetDone {x : ResetTrig} (hx : x.cause < 16) : ShowsReset s x.cause (s.resetDone x).release := by
  obtain ⟨hseqs, hkeys, hdram, hflash⟩ := s.resetBy_clears x
  have hd := s.resetDone_keeps x
  have hr := (s.resetDone x).release_keeps
  refine ⟨?_, (hr.seqs rfl).trans ((hd.seqs rfl).trans hseqs), (hr.keys rfl).trans ((hd.keys rfl).trans hkeys),
    (hr.mem rfl).trans ((hd.mem rfl).trans hdram), (hr.flash rfl).1.trans ((hd.flash rfl).1.trans hflash)⟩
  rw [State.fget_of_rd (State.rd_release_resetDone x (by decide)), State.fget_CAUSE_resetBy, Nat.mod_eq_of_lt hx]

theorem State.power_resetDone (x : ResetTrig) : (s.resetDone x).power.off = s.power.off ∧ (s.resetDone x).power.perst = s.power.perst ∧
    (s.resetDone x).power.relAt = none ∧ (s.resetDone x).power.maint = (x.maint && !x.cold) := by
  rw [(s.resetDone_keeps x).power rfl]
  exact s.power_resetBy x

theorem State.now_release_resetDone (x : ResetTrig) : (s.resetDone x).release.now = if x.cold then 0 else s.now := by
  rw [((s.resetDone x).release_keeps.time rfl).1, ((s.resetDone_keeps x).time rfl).1, State.now_resetBy]

/-- R681: with no trigger before it in its cycle, a trigger is the reset. -/
theorem State.joinReset_of_none (cold maint : Bool) (cause level last : Nat) (h : s.resetNow = none) :
    (s.joinReset cold maint cause level last).cold = cold ∧ (s.joinReset cold maint cause level last).maint = maint ∧
      (s.joinReset cold maint cause level last).cause = cause := by
  unfold State.joinReset
  rw [h]
  exact ⟨rfl, rfl, rfl⟩

theorem State.joinReset_of_some {x : ResetTrig} (cold maint : Bool) (cause level last : Nat) (h : s.resetNow = some x) :
    s.joinReset cold maint cause level last = { x with
      cold := x.cold || cold, maint := x.maint || maint, cause := min x.cause cause, wdt := x.wdt || cause == 7
      level := max x.level level, last := if last = 0 then x.last else last } := by
  unfold State.joinReset
  rw [h]

theorem State.reboot_shows (cold maint : Bool) {cause : Nat} (level last : Nat) (h : s.resetNow = none) (hc : cause < 16) :
    ShowsReset s cause (s.reboot cold maint cause level last) := by
  obtain ⟨-, -, hcause⟩ := s.joinReset_of_none cold maint cause level last h
  have hr := s.showsReset_release_resetDone (x := s.joinReset cold maint cause level last) (by omega)
  rwa [hcause, ← State.reboot_eq] at hr

/-- The input or `PERST_N` holds the block in reset. -/
theorem State.reboot_of_held (cold maint : Bool) (cause level last : Nat) (h : s.power.off = true ∨ s.power.perst = true) :
    (s.reboot cold maint cause level last).power.off = s.power.off ∧ (s.reboot cold maint cause level last).power.perst = s.power.perst ∧
      (s.reboot cold maint cause level last).power.relAt = none := by
  obtain ⟨hoff, hperst, hrel, -⟩ := s.power_resetDone (s.joinReset cold maint cause level last)
  rw [State.reboot_eq, State.release_of_held (.inr (by rw [hoff, hperst]; tauto))]
  exact ⟨hoff, hperst, hrel⟩

theorem State.reboot_maint (cold maint : Bool) (cause level last : Nat) : (s.reboot cold maint cause level last).power.maint =
    ((s.joinReset cold maint cause level last).maint && !(s.joinReset cold maint cause level last).cold) := by
  obtain ⟨-, -, -, hm⟩ := s.power_resetDone (s.joinReset cold maint cause level last)
  rw [State.reboot_eq, State.power_release.2.2, hm]

theorem powerOn_gives (ms : Nat) (h : s.resetNow = none) (hp : s.power.off = false ∨ s.power.rails = true) :
    Gives (.powerOn ms) s (ShowsReset s 1) := by
  have e : s.powerOn ms = ({ s with
      power := { s.power with off := false }
      mtr := { s.mtr with rtcOfs := s.mtr.rtcOfs + ms, monoOfs := s.mtr.monoOfs + ms } } : State).reboot true false 1 0 0 :=
    if_neg (by rcases hp with hp | hp <;> simp [hp])
  refine ⟨_, rfl, ?_⟩
  rw [e]
  exact State.reboot_shows true false 0 0 h (by decide)

theorem brownout_gives (h : s.resetNow = none) :
    Gives .brownout s fun t => ShowsReset s 2 t ∧ t.power.off = true ∧ t.power.relAt = none := by
  obtain ⟨hoff, -, hrel⟩ := State.reboot_of_held (s := { s with power := { s.power with off := true } }) true false 2 0 0 (.inl rfl)
  exact ⟨_, rfl, State.reboot_shows (s := { s with power := { s.power with off := true } }) true false 0 0 h (by decide), hoff, hrel⟩

theorem perstAssert_gives (h : s.resetNow = none) :
    Gives .perstAssert s fun t => ShowsReset s 3 t ∧ t.power.perst = true ∧ t.power.relAt = none := by
  obtain ⟨-, hperst, hrel⟩ := State.reboot_of_held (s := { s with power := { s.power with perst := true } }) false false 3 0 0 (.inr rfl)
  exact ⟨_, rfl, State.reboot_shows (s := { s with power := { s.power with perst := true } }) false false 0 0 h (by decide), hperst, hrel⟩

theorem hotReset_gives (h : s.resetNow = none) : Gives .hotReset s (ShowsReset s 4) :=
  ⟨_, rfl, State.reboot_shows false false 0 0 h (by decide)⟩

/-- The count of warm resets after one reset for all triggers of a cycle (R681). -/
theorem State.fget_WARM_joined {x : ResetTrig} (h : s.resetNow = some x) (y : ResetTrig) :
    (s.resetBy y).fget Reg.GLB_RST_COUNT Fld.GLB_RST_COUNT_WARM = if y.cold then 0 else min (x.count % 65536 + 1) 65535 := by
  have hw : s.cut.fget Reg.GLB_RST_COUNT Fld.GLB_RST_COUNT_WARM = s.cut.rn Reg.GLB_RST_COUNT / 2 ^ 0 % 2 ^ 16 := (rfl)
  have hs : satAdd 16 (x.count % 65536) 1 = min (x.count % 65536 + 1) 65535 := rfl
  rw [State.fget_WARM_resetBy, hw, State.rn_COUNT_cut h, Nat.pow_zero, Nat.div_one,
    Nat.mod_mod_of_dvd _ (show 2 ^ 16 ∣ 2 ^ 32 by decide), ← hs, show (2 : Nat) ^ 16 = 65536 by rfl]

theorem hotReset_joined_gives {x : ResetTrig} (h : s.resetNow = some x) : Gives .hotReset s fun t => ShowsReset s (min x.cause 4) t ∧
    t.now = (if x.cold then 0 else s.now) ∧ t.power.maint = (x.maint && !x.cold) ∧
    t.fget Reg.GLB_RST_COUNT Fld.GLB_RST_COUNT_WARM = (if x.cold then 0 else min (x.count % 65536 + 1) 65535) ∧
    t.flag Reg.GLB_RST_CAUSE Fld.GLB_RST_CAUSE_RESTARTED = (x.again && decide (x.cause ≠ 1)) := by
  have hx := s.joinReset_of_some false false 4 0 0 h
  refine ⟨_, rfl, ?_⟩
  rw [State.reboot_eq, hx, Bool.or_false, Bool.or_false]
  refine ⟨State.showsReset_release_resetDone (by dsimp only; omega), State.now_release_resetDone _, ?_, ?_, ?_⟩
  · rw [State.power_release.2.2]
    exact (s.power_resetDone _).2.2.2
  · rw [State.fget_of_rd (State.rd_release_resetDone _ (by decide)), State.fget_WARM_joined h]
  · rw [State.flag_of_rd (State.rd_release_resetDone _ (by decide)), State.flag_RESTARTED_resetBy]
    congr 1
    rw [Bool.eq_iff_iff, bne_iff_ne, decide_eq_true_iff]
    dsimp only
    omega

theorem brownout_joined_gives {x : ResetTrig} (h : s.resetNow = some x) :
    Gives .brownout s fun t => ShowsReset s (min x.cause 2) t ∧ t.now = 0 := by
  have hx := State.joinReset_of_some (s := { s with power := { s.power with off := true } }) true false 2 0 0 h
  refine ⟨_, rfl, ?_⟩
  rw [State.reboot_eq, hx, Bool.or_true]
  exact ⟨State.showsReset_release_resetDone (s := { s with power := { s.power with off := true } }) (by dsimp only; omega),
    State.now_release_resetDone _⟩

/-- R681, R701: what a granted write of `GLB_RST_CTRL` with the key does. -/
theorem State.rstCtrlW_of_key (who : Nat) {v : Word} (hk : Fld.GLB_RST_CTRL_KEY.get v = 0xA5C3)
    (h : Fld.GLB_RST_CTRL_WARM.get v = 1 ∨ Fld.GLB_RST_CTRL_MAINT.get v = 1) : s.rstCtrlW who v =
      s.reboot false (decide (Fld.GLB_RST_CTRL_MAINT.get v = 1))
        (if Fld.GLB_RST_CTRL_WARM.get v = 1 then (if who = 1 then 6 else 5) else 9) 0 0 := by
  unfold State.rstCtrlW
  dsimp only
  rw [if_neg (by rintro (hn | hn) <;> [exact hn hk; (rcases h with h | h <;> simp [h] at hn)])]

theorem warmResetCmd_gives {r : RegReq} {v : Word} (h : s.resetNow = none) (hg : s.grants r Reg.GLB_RST_CTRL = true)
    (hk : Fld.GLB_RST_CTRL_KEY.get v = 0xA5C3) (hw : Fld.GLB_RST_CTRL_WARM.get v = 1) :
    Gives (.warmResetCmd r v) s (ShowsReset s (if r.who = 1 then 6 else 5)) := by
  refine gives_of_write (w := fun s => s.rstCtrlW r.who v) rfl hg ?_
  rw [State.rstCtrlW_of_key _ hk (.inl hw), if_pos hw]
  exact State.reboot_shows _ _ 0 0 h (by split <;> decide)

theorem maintResetCmd_gives {r : RegReq} {v : Word} (h : s.resetNow = none) (hg : s.grants r Reg.GLB_RST_CTRL = true)
    (hk : Fld.GLB_RST_CTRL_KEY.get v = 0xA5C3) (hw : Fld.GLB_RST_CTRL_WARM.get v = 0) (hm : Fld.GLB_RST_CTRL_MAINT.get v = 1) :
    Gives (.maintResetCmd r v) s fun t => ShowsReset s 9 t ∧ t.power.maint = true := by
  refine gives_of_write (w := fun s => s.rstCtrlW r.who v) rfl hg ?_
  obtain ⟨hcold, hmaint, -⟩ := s.joinReset_of_none false true 9 0 0 h
  rw [State.rstCtrlW_of_key _ hk (.inr hm), if_neg (by omega), decide_eq_true hm]
  refine ⟨State.reboot_shows _ _ 0 0 h (by decide), ?_⟩
  rw [State.reboot_maint, hcold, hmaint]
  rfl

theorem keeperWatchdog_gives (h : s.resetNow = none) (hb : s.bootDone = true) : Gives .keeperWatchdog s (ShowsReset s 7) := by
  have e : s.watchdogRuns = true := by rw [State.watchdogRuns, hb, Bool.true_or]
  refine ⟨_, rfl, ?_⟩
  rw [if_pos e]
  exact State.reboot_shows false false 0 0 h (by decide)

theorem perstRelease_gives (hr : s.power.relAt = none) (ho : s.power.off = false) (hh : s.power.hot = false) :
    Gives .perstRelease s fun t => t.power.perst = false ∧ t.power.relAt = some s.now ∧
      t.fget Reg.MGT_TB_STAT Fld.MGT_TB_STAT_SLOT = s.power.slotId % 16 := by
  have e := State.release_of_free (s := { s with power := { s.power with perst := false } }) (by simp [hr, ho, hh])
  refine ⟨_, rfl, ?_⟩
  rw [e]
  refine ⟨rfl, rfl, ?_⟩
  unfold State.released
  dsimp only
  rw [State.fget_setPower, State.fget_fput _ _ _ _ (by decide)]
  rfl

/-- R647: the sag's registers cleared and its interrupt raised. -/
def State.sagCleared (s : State) : State :=
  ((s.fput Reg.PWR_SAG_STAT Fld.PWR_SAG_STAT_ACTIVE 0).fput Reg.PWR_SAG_STAT Fld.PWR_SAG_STAT_HOLD 0).irqPwr Fld.PWR_INT_STATUS_SAG_END

/-- R760: the meters run again, and the snapshot is gone. -/
def State.metersResumed (s : State) : State :=
  { s with meterHold := false, mtr := { s.mtr with snap := none, flags := s.mtr.flags ||| 4 } }

theorem State.sagOver_of_active (h : s.flag Reg.PWR_SAG_STAT Fld.PWR_SAG_STAT_ACTIVE = true) :
    s.sagOver = (s.sagCleared.metersResumed.fput Reg.MTR_STAT Fld.MTR_STAT_SAG_FROZEN 0).platEvent 4 0 := if_pos h

theorem State.fget_metersResumed : s.metersResumed.fget a f = s.fget a f := (rfl)

theorem sagEnd_of_active_gives (ho : s.power.off = false) (ha : s.flag Reg.PWR_SAG_STAT Fld.PWR_SAG_STAT_ACTIVE = true) :
    Gives .sagEnd s fun t => t.flag Reg.PWR_SAG_STAT Fld.PWR_SAG_STAT_ACTIVE = false ∧ t.meterHold = false ∧ t.mtr.snap = none := by
  have e : s.sagEnd = s.sagOver := if_neg (by simp [ho])
  refine ⟨_, rfl, ?_⟩
  rw [e, State.sagOver_of_active ha]
  have hk : Kept (allBut [.regs, .out, .events]) s.sagCleared.metersResumed
      ((s.sagCleared.metersResumed.fput Reg.MTR_STAT Fld.MTR_STAT_SAG_FROZEN 0).platEvent 4 0) :=
    State.platEvent_kept _ _ (State.fput_kept _ _ _ (Kept.refl _ _) rfl) rfl rfl rfl
  obtain ⟨-, -, -, hhold⟩ := hk.usage rfl
  refine ⟨?_, hhold, congrArg Meter.snap (hk.mtr rfl)⟩
  rw [State.flag, State.fget_platEvent _ _ (by decide), State.fget_fput_ne _ _ _ _ (by decide), State.fget_metersResumed,
    State.sagCleared, State.fget_irqPwr _ (by decide), State.fget_fput_field _ _ _ _ _ (by decide) (by decide),
    State.fget_fput _ _ _ _ (by decide)]
  rfl

theorem sagEnd_of_off_gives (ho : s.power.off = true) : Gives .sagEnd s fun t =>
    t.power.off = false ∧ ∀ a, a ≠ Reg.MGT_TB_STAT → (∀ k, k < 8 → a ≠ Reg.MEM_STK_STAT k) → t.rd a = s.rd a := by
  have e : s.sagEnd = ({ s with power := { s.power with off := false } } : State).release := if_pos ho
  refine ⟨_, rfl, ?_⟩
  rw [e]
  exact ⟨State.power_release.1, fun a ht hk => (State.rd_release ht hk).trans (State.rd_setPower _)⟩

end

/-- Settles O18: every reset is `reboot`, and `reboot` is the words of one reset followed by the release of the sequence; the rows differ in
the cause, the type and what holds the block. That memory and flash stand until the wipe, that joined triggers show `RESTARTED` as the first
one found the block, and that a brownout takes power off until the input recovers are log entry 29. -/
theorem resetRowsComplete : Obligations.ResetRowsComplete :=
  ⟨fun _ ms h hp => powerOn_gives ms h hp, fun _ h => brownout_gives h, fun _ h => perstAssert_gives h, fun _ h => hotReset_gives h,
    fun _ _ h => hotReset_joined_gives h, fun _ _ h => brownout_joined_gives h, fun _ _ _ h hg hk hw => warmResetCmd_gives h hg hk hw,
    fun _ _ _ h hg hk hw hm => maintResetCmd_gives h hg hk hw hm, fun _ h hb => keeperWatchdog_gives h hb, fun _ => ⟨_, rfl, rfl, rfl⟩,
    fun _ hr ho hh => perstRelease_gives hr ho hh, fun _ ho ha => sagEnd_of_active_gives ho ha, fun _ ho => sagEnd_of_off_gives ho⟩

end Sys2Proof.Machine

/-! Sensors, the boot sequence, image update and configuration requests (O19). -/

namespace Sys2Proof.Machine

section
variable {s t : State} {a : Nat} {f : Fld}

theorem State.irqGlb_keeps (f : Fld) : Kept (allBut [.regs, .out]) s (s.irqGlb f) := State.irqGlb_kept f (Kept.refl _ s) rfl rfl
theorem State.rd_irqGlb (f : Fld) (h : a ≠ Reg.GLB_INT_STATUS) : (s.irqGlb f).rd a = s.rd a := State.rd_irq_ne _ _ _ _ _ _ h

/-! ## R660: the sensors -/

theorem State.fget_TJ_thermal (tjs : List Nat) :
    (s.thermal tjs).fget Reg.PWR_TEMP Fld.PWR_TEMP_TJ = (hottest (tjs.take 64)).1 % 256 := by
  have hirq (c : Prop) [Decidable c] (x : State) (g : Fld) :
      (if c then x.irqPwr g else x).fget Reg.PWR_TEMP Fld.PWR_TEMP_TJ = x.fget Reg.PWR_TEMP Fld.PWR_TEMP_TJ := by
    split
    · exact State.fget_irqPwr g (by decide)
    · rfl
  unfold State.thermal
  dsimp only
  rw [hirq, State.fget_setPower, State.fget_fput_field _ _ _ _ _ (by decide) (by decide),
    State.fget_fput_field _ _ _ _ _ (by decide) (by decide), State.fget_fput_field _ _ _ _ _ (by decide) (by decide),
    State.fget_fput _ _ _ _ (by decide)]
  rfl

theorem thermalEstimate_gives (tjs : List Nat) : Gives (.thermalEstimate tjs) s fun t =>
    t.fget Reg.PWR_TEMP Fld.PWR_TEMP_TJ = (hottest (tjs.take 64)).1 % 256 :=
  ⟨_, rfl, (State.fget_of_rd (State.rd_release (by decide) fun k _ => ne_stkStat (by decide) k)).trans (State.fget_TJ_thermal tjs)⟩

/-! ## R685 to R688: the wipe -/

/-- R685 steps 2 to 4: the block before its stacks start. -/
def State.beforeStacks (s : State) (bad : List Nat) (auth : Bool) : State :=
  let s := { s with power := { s.power with selfFail := bad } }
  ((if auth then s else s.dropRepairs).wn Reg.GLB_CLK_STAT 0x7FF).fput Reg.KEY_ROOT_STAT Fld.KEY_ROOT_STAT_DRBG_OK 1

/-- R685 steps 5 and 6: every stack starts, or is left where it failed. -/
def State.stacksStarted (s : State) (failed : Nat) : State :=
  (List.range 8).foldl (fun (s : State) k => s.startStack k (bitOf failed k)) s

/-- R685: the registers that show the end of the wipe. -/
def State.wipeShown (s : State) (failed us : Nat) (stage : Bool) : State :=
  let bs := Reg.GLB_BOOT_STAT
  let s4 := (s.fput bs Fld.GLB_BOOT_STAT_STK_FAIL (failed % 256)).fput bs Fld.GLB_BOOT_STAT_WIPE_DONE 1
  let s5 := s4.fput Reg.GLB_BOOT_TIME Fld.GLB_BOOT_TIME_WIPE_US us
  let s6 := if stage then s5.fput bs Fld.GLB_BOOT_STAT_STAGE 2 else s5
  if failed % 256 = 0 then s6 else s6.irqGlb Fld.GLB_INT_STATUS_STK_FAIL

theorem State.wipeDone_eq {failed : Nat} {bad : List Nat} {auth : Bool} (hb : s.booting = true)
    (hw : s.flag Reg.GLB_BOOT_STAT Fld.GLB_BOOT_STAT_WIPE_DONE = false) : ∃ us stage, s.wipeDone failed bad auth =
      ((s.beforeStacks bad auth).stacksStarted failed).wipeShown failed us stage := by
  unfold State.wipeDone
  rw [if_neg (by simp [hb, hw])]
  exact ⟨_, _, rfl⟩

theorem State.rd_wipeShown (failed us : Nat) (stage : Bool) (hs : f.lo + f.width ≤ Fld.GLB_BOOT_STAT_STAGE.lo ∨
    Fld.GLB_BOOT_STAT_STAGE.lo + Fld.GLB_BOOT_STAT_STAGE.width ≤ f.lo) : (s.wipeShown failed us stage).fget Reg.GLB_BOOT_STAT f =
      ((s.fput Reg.GLB_BOOT_STAT Fld.GLB_BOOT_STAT_STK_FAIL (failed % 256)).fput Reg.GLB_BOOT_STAT Fld.GLB_BOOT_STAT_WIPE_DONE 1).fget
        Reg.GLB_BOOT_STAT f := by
  have hstage (x : State) : (if stage then x.fput Reg.GLB_BOOT_STAT Fld.GLB_BOOT_STAT_STAGE 2 else x).fget Reg.GLB_BOOT_STAT f =
      x.fget Reg.GLB_BOOT_STAT f := by
    split
    · exact State.fget_fput_field _ _ _ _ _ (by decide) hs
    · rfl
  have hirq (x : State) : (if failed % 256 = 0 then x else x.irqGlb Fld.GLB_INT_STATUS_STK_FAIL).fget Reg.GLB_BOOT_STAT f =
      x.fget Reg.GLB_BOOT_STAT f := by
    split
    · rfl
    · exact State.fget_of_rd (State.rd_irqGlb _ (by decide))
  unfold State.wipeShown
  dsimp only
  rw [hirq, hstage, State.fget_fput_ne _ _ _ _ (by decide)]

theorem State.wipeShown_keeps (failed us : Nat) (stage : Bool) : Kept (allBut [.regs, .out]) s (s.wipeShown failed us stage) := by
  have h4 := State.fput_kept (φ := allBut [.regs, .out]) Reg.GLB_BOOT_TIME Fld.GLB_BOOT_TIME_WIPE_US us (State.fput_kept Reg.GLB_BOOT_STAT
    Fld.GLB_BOOT_STAT_WIPE_DONE 1 (State.fput_kept Reg.GLB_BOOT_STAT Fld.GLB_BOOT_STAT_STK_FAIL (failed % 256) (Kept.refl _ s) rfl) rfl) rfl
  have h6 := kept_ite (c := stage = true) (State.fput_kept Reg.GLB_BOOT_STAT Fld.GLB_BOOT_STAT_STAGE 2 h4 rfl) h4
  exact kept_ite h6 (State.irqGlb_kept _ h6 rfl rfl)

theorem State.ifcKeys_keeps (k : Nat) : Kept (allBut [.keys, .keeper]) s (s.ifcKeys k) := State.ifcKeys_kept k (Kept.refl _ s) rfl rfl

/-- R688: a stack that starts has its window of memory cleared. -/
theorem State.dram_startStack_of_ok (k : Nat) :
    (s.startStack k false).dram = SMap.clear s.dram (k * 2 ^ 37) ((k + 1) * 2 ^ 37) := by
  unfold State.startStack
  dsimp only
  rw [if_neg (by decide)]
  split
  · exact State.ifcKeys_keeps k |>.mem rfl
  · rfl

theorem State.dram_startStack_of_failed (k : Nat) : (s.startStack k true).dram = s.dram := by
  have h := State.irqMem_kept (φ := allBut [.regs, .out]) Fld.MEM_INT_STATUS_STK_FAIL.mask
    (State.fput_kept (Reg.MEM_STK_STAT k) Fld.MEM_STK_STAT_STATE 3 (Kept.refl _ s) rfl) rfl rfl
  exact h.mem rfl

theorem State.zeroAt_startStack (k : Nat) (failed : Bool) (h : s.zeroAt a) : (s.startStack k failed).zeroAt a := by
  unfold State.zeroAt
  cases failed with
  | true => rwa [State.dram_startStack_of_failed]
  | false =>
    rw [State.dram_startStack_of_ok]
    exact SMap.get_clear_of_default (fun _ => 0#8) s.dram h

/-- R688: the memory of every stack that answered is zero. -/
theorem State.zeroAt_stacksStarted {failed k : Nat} (hk : k < 8) (hf : bitOf failed k = false) (hlo : k * 2 ^ 37 ≤ a)
    (hhi : a < (k + 1) * 2 ^ 37) : (s.stacksStarted failed).zeroAt a := by
  obtain ⟨before, after, hl⟩ := List.append_of_mem (List.mem_range.2 hk)
  unfold State.stacksStarted
  rw [hl, List.foldl_append, List.foldl_cons, hf]
  refine List.foldlRecOn (motive := fun t : State => t.zeroAt a) after _ ?_ fun t ht j _ => State.zeroAt_startStack j _ ht
  unfold State.zeroAt
  rw [State.dram_startStack_of_ok]
  exact SMap.get_clear_of_mem (fun _ => 0#8) _ hlo hhi

theorem wipeDone_gives (failed : ResetFailures) (auth : Bool) (hb : s.booting = true)
    (hw : s.flag Reg.GLB_BOOT_STAT Fld.GLB_BOOT_STAT_WIPE_DONE = false) : Gives (.wipeDone failed auth) s fun t =>
      t.flag Reg.GLB_BOOT_STAT Fld.GLB_BOOT_STAT_WIPE_DONE = true ∧
        t.fget Reg.GLB_BOOT_STAT Fld.GLB_BOOT_STAT_STK_FAIL = failed.stackMask % 256 ∧
          ∀ k i, k < 8 → bitOf failed.stackMask k = false → i < 2 ^ 37 → SMap.get (fun _ => 0#8) t.dram (k * 2 ^ 37 + i) = 0#8 := by
  obtain ⟨us, stage, e⟩ := State.wipeDone_eq (failed := failed.stackMask) (bad := failed.cores) (auth := auth) hb hw
  refine ⟨_, rfl, ?_⟩
  rw [e]
  refine ⟨?_, ?_, fun k i hk hf hi => ?_⟩
  · rw [State.flag, State.rd_wipeShown _ _ _ (by decide), State.fget_fput _ _ _ _ (by decide)]
    rfl
  · rw [State.rd_wipeShown _ _ _ (by decide), State.fget_fput_field _ _ _ _ _ (by decide) (by decide),
      State.fget_fput _ _ _ _ (by decide)]
    exact Nat.mod_mod _ _
  · rw [(State.wipeShown_keeps ..).mem rfl]
    exact State.zeroAt_stacksStarted hk hf (by omega) (by omega)

/-! ## R685 step 11: READY -/

theorem State.bootDone_reachReady (stage why : Nat) : (s.reachReady stage why).bootDone = true := by
  have hirq (x : State) : (if stage = 4 then x.irqGlb Fld.GLB_INT_STATUS_SERVICE else x).rd Reg.GLB_BOOT_STAT = x.rd Reg.GLB_BOOT_STAT := by
    split
    · exact State.rd_irqGlb _ (by decide)
    · rfl
  unfold State.reachReady State.bootDone
  dsimp only
  rw [State.flag_of_rd ((State.rd_irqGlb _ (by decide)).trans ((hirq _).trans (State.rd_fput_ne _ _ _ (by decide)))), State.flag,
    State.fget_fput _ _ _ _ (by decide)]
  rfl

theorem bootReady_gives (hb : s.booting = true) (hw : s.flag Reg.GLB_BOOT_STAT Fld.GLB_BOOT_STAT_WIPE_DONE = true)
    (hm : s.power.maint = false) : Gives .bootReady s fun t => t.bootDone = true := by
  refine ⟨_, rfl, ?_⟩
  unfold State.bootReady
  rw [if_neg (by simp [hb, hw, hm])]
  dsimp only
  split
  · exact State.bootDone_reachReady ..
  · exact State.bootDone_reachReady ..

/-! ## R595, R700: configuration requests and image update -/

theorem State.configReq_PF0 {kind v : Nat} (hr : s.power.relAt.isSome = true) (hb : s.bootDone = true) (hc : s.crsFor 0 = false) :
    s.configReq 0 kind v =
      if kind = 0 then s.emit (.configData 0 v (s.configDword 0 v))
      else if kind = 1 then { s with mse := v % 2 == 1 }.emit (.status 0 0)
      else if kind = 2 then
        (if v = 0 then (if s.vfs = 0 then s else s.vfDisable) else { s with vfs := min v (allParts.filter fun p => s.nquad p != 0).length }).emit
          (.status 0 0)
      else s.emit (.status 0 0) := by
  have hn : s.power.relAt ≠ none := fun h => by simp [h] at hr
  unfold State.configReq
  rw [if_neg (by simp [hn]), if_neg (by simp [hb, hc]), if_neg (by simp)]
  simp only [ne_eq, not_true_eq_false, if_false]

theorem configRead_gives (hr : s.power.relAt.isSome = true) (hb : s.bootDone = true) (hc : s.crsFor 0 = false) :
    Gives (.pcieConfigRequest 0 0 0) s fun t => t.out.head? = some (.configData 0 0 0x5A601F3A) := by
  refine ⟨_, rfl, ?_⟩
  rw [State.configReq_PF0 hr hb hc, if_pos rfl]
  rfl

theorem configWrite_gives (x : Nat) (hr : s.power.relAt.isSome = true) (hb : s.bootDone = true) (hc : s.crsFor 0 = false) :
    Gives (.pcieConfigRequest 0 1 x) s fun t => t.mse = (x % 2 == 1) := by
  refine ⟨_, rfl, ?_⟩
  rw [State.configReq_PF0 hr hb hc, if_neg (by decide), if_pos rfl]
  rfl

theorem State.updates_of_bootDone (a : Nat) (w : State → State) (h : s.bootDone = true) : s.updates a w = w s := if_pos h

/-- R700: the copy of a component that does not run takes the file. -/
def State.flashed (s : State) (c : Nat) (file : List Byte) : State :=
  { s with flash := SMap.set (fun _ => none) s.flash (2 * c + (1 - b2n (bitOf s.flashActive (c - 1)))) (some file) }

theorem State.get_flash_flashed (c : Nat) (file : List Byte) :
    SMap.get (fun _ => none) (s.flashed c file).flash (2 * c + (1 - b2n (bitOf s.flashActive (c - 1)))) = some file :=
  SMap.get_set_same (fun _ => none) s.flash (2 * c + (1 - b2n (bitOf s.flashActive (c - 1)))) (some file)

theorem State.fwUpdate_of_valid {a c : Nat} {file : List Byte} (hb : s.bootDone = true) (h1 : 1 ≤ c) (h5 : c ≤ 5)
    (hv : imgValid c file = true) : s.fwUpdate a c file =
      ({ s.flashed c file with flashPending := (s.flashed c file).flashPending ||| 2 ^ (c - 1) }.irqGlb Fld.GLB_INT_STATUS_FW_PENDING).emit
        (.message a 2 0x17 (leBytes 1 0)) := by
  unfold State.fwUpdate
  rw [State.updates_of_bootDone _ _ hb, if_neg (by omega)]
  dsimp only
  rw [if_pos hv]
  rfl

theorem pldmFwUpdate_gives (a : Nat) {c : Nat} (file : List Byte) (hb : s.bootDone = true) (h1 : 1 ≤ c) (h5 : c ≤ 5) :
    Gives (.pldmFwUpdate a c file) s fun t => imgValid c file = true →
      bitOf t.flashPending (c - 1) = true ∧
        SMap.get (fun _ => none) t.flash (2 * c + (1 - b2n (bitOf s.flashActive (c - 1)))) = some file := by
  refine ⟨_, rfl, fun hv => ?_⟩
  rw [State.fwUpdate_of_valid hb h1 h5 hv]
  have hk := State.emit_kept (φ := allBut [.regs, .out]) (.message a 2 0x17 (leBytes 1 0))
    (State.irqGlb_keeps (s := { s.flashed c file with flashPending := (s.flashed c file).flashPending ||| 2 ^ (c - 1) })
      Fld.GLB_INT_STATUS_FW_PENDING) rfl
  obtain ⟨hflash, -, hpending⟩ := hk.flash rfl
  rw [hpending, hflash]
  exact ⟨bitOf_or_two_pow _ _, s.get_flash_flashed c file⟩

theorem activateFirmware_gives (a : Nat) (hb : s.bootDone = true) : Gives (.activateFirmware a) s fun t =>
    t = s.emit (.message a 2 0x1A [1#8]) :=
  ⟨_, rfl, State.updates_of_bootDone a _ hb⟩

end

/-- Settles O19: the wipe clears the window of every stack that starts and the later stacks leave it, every path of the boot sequence ends at
READY, and a valid file goes to the copy that does not run. The code and the byte that answer ACTIVATE_FIRMWARE are log entry 24. -/
theorem bootRowsComplete : Obligations.BootRowsComplete :=
  ⟨fun _ tjs => thermalEstimate_gives tjs, fun _ failed auth hb hw => wipeDone_gives failed auth hb hw,
    fun _ hb hw hm => bootReady_gives hb hw hm, fun _ hr hb hc => configRead_gives hr hb hc,
    fun _ x hr hb hc => configWrite_gives x hr hb hc, fun _ a _ file hb h1 h5 => pldmFwUpdate_gives a file hb h1 h5,
    fun _ a hb => activateFirmware_gives a hb⟩

end Sys2Proof.Machine

/-! Cancel, kill, enable and fence writes (O44). Command buffers that can end do so after most rows of the queues (`settle`); `SettleSafe` is a
property that outlasts it, where `FenceSafe` is about the fences' own words. -/

namespace Sys2Proof.Machine

section
variable {s t : State} {p q a : Nat}

/-! ## The words of one queue -/

theorem lt_of_mem_queuesOf (h : q ∈ queuesOf p) : q < 64 := by
  have hlt : q < if p = 0 then 4 else 64 := List.mem_range.1 h
  split at hlt <;> omega

theorem mem_queuesOf (hp : p ∈ allParts) (hq : q < 64) : q ∈ queuesOf p := by
  have h0 : p ≠ 0 := by
    have := pos_and_le_four_of_mem_allParts hp
    omega
  unfold queuesOf
  rw [if_neg h0]
  exact List.mem_range.2 hq

theorem qbase_of_part (hp : p ∈ allParts) : qbase p q = vf p + 0x1000 + 32 * q := by
  have h0 : p ≠ 0 := by
    have := pos_and_le_four_of_mem_allParts hp
    omega
  exact if_neg h0

/-- The words of the queues of a partition are apart: one queue's word is another queue's only where the queue is the same. -/
theorem qbase_apart {k i j : Nat} (hp : p ∈ allParts) (hi : i < 32) (hj : j < 32) (h : i ≠ j ∨ q ≠ k) : qbase p q + i ≠ qbase p k + j := by
  rw [qbase_of_part hp, qbase_of_part hp]
  omega

theorem State.queue_setQueue_ne {k : Nat} (x : Queue) (h : k ≠ q) : (s.setQueue p q x).queue p k = s.queue p k :=
  SMap.get_set_ne _ _ x (by omega)

theorem State.rd_setQueue (x : Queue) : (s.setQueue p q x).rd a = s.rd a := (rfl)

theorem State.rd_showQueue (hd : a ≠ qDone p q) (hst : a ≠ qStat p q) : (s.showQueue p q).rd a = s.rd a := by
  unfold State.showQueue
  dsimp only
  split
  · rw [State.rd_fput_ne _ _ _ hst, State.rd_fput_ne _ _ _ hst, State.rd_fput_ne _ _ _ hst, State.rd_wn_ne _ hd]
  · rw [State.rd_fput_ne _ _ _ hst, State.rd_fput_ne _ _ _ hst, State.rd_wn_ne _ hd]

theorem State.showQueue_keeps (p q : Nat) : Kept (allBut [.regs]) s (s.showQueue p q) := State.showQueue_kept p q (Kept.refl _ s) rfl

theorem State.queue_of_queues (h : t.queues = s.queues) (p k : Nat) : t.queue p k = s.queue p k := by
  unfold State.queue
  rw [h]

theorem State.queue_showQueue (q k : Nat) : (s.showQueue p q).queue p k = s.queue p k :=
  State.queue_of_queues ((s.showQueue_keeps p q).queues rfl).1 p k

theorem qStat_ne_qDone : qStat p q ≠ qDone p q := by
  unfold qStat qDone
  omega

/-- R633: the queue is DISABLED where its `EN` is 0 and nothing is in flight; else its state stands. -/
theorem State.qState_showQueue : (s.showQueue p q).qState p q =
    if (s.queue p q).bufs.isEmpty ∧ !s.flag (qCfg p q) Fld.QUE_CFG_EN then 0 else s.qState p q := by
  unfold State.showQueue State.qState
  dsimp only
  split
  · rw [State.fget_fput _ _ _ _ (by decide)]
    rfl
  · rw [State.fget_fput_field _ _ _ _ _ (by decide) (by decide), State.fget_fput_field _ _ _ _ _ (by decide) (by decide),
      State.fget_of_rd (State.rd_wn_ne _ qStat_ne_qDone)]

/-! ## What outlasts the end of command buffers -/

/-- Nothing of a queue ends: no buffer waits on a fence, has completed or has an error. -/
def Queue.Quiet (x : Queue) : Prop := ∀ b ∈ x.bufs, b.waitOn = none ∧ b.complete = false ∧ b.err = 0

/-- A property that outlasts `settle`: writes of the fences' registers and of the queues' interrupts, a queue's own words shown anew, and a
change of a queue in which something ends. -/
structure SettleSafe (p : Nat) (P : State → Prop) : Prop where
  regs : ∀ {s t : State}, P s → t.regs = s.regs → t.queues = s.queues → P t
  wr : ∀ {s : State} {a : Nat} (w : Word), P s → (a = Reg.QUE_INT_STATUS p ∨ vf p + 0x100000 ≤ a) → P (s.wr a w)
  shown : ∀ {s : State} {k : Nat}, P s → k < 64 → P (s.showQueue p k)
  queue : ∀ {s : State} {k : Nat} {x : Queue}, P s → k < 64 → ((s.queue p k).Quiet → x.bufs = (s.queue p k).bufs) → P (s.setQueue p k x)

namespace SettleSafe
variable {P : State → Prop} (h : SettleSafe p P)
include h

theorem irq (fn vec sta en bits : Nat) (hs : P s) (ha : sta = Reg.QUE_INT_STATUS p ∨ vf p + 0x100000 ≤ sta) :
    P (s.irq fn vec sta en bits) := by
  unfold State.irq
  dsimp only
  split
  · exact h.wr _ hs ha
  · exact h.regs (h.wr _ hs ha) rfl rfl

theorem toHost (fn addr : Nat) (b : Bool) (v : List Byte) (hs : P s) : P (s.toHost fn addr b v) := by
  have hk := State.toHost_kept (φ := allBut [.out]) fn addr b v (Kept.refl _ s) rfl
  exact h.regs hs (hk.regs rfl) (hk.queues rfl).1

theorem fenceNotify (n : Nat) (hs : P s) : P (s.fenceNotify p n) := by
  have hst : vf p + 0x100000 ≤ Reg.FEN_EVQ_STAT p := by
    unfold Reg.FEN_EVQ_STAT
    omega
  have hirq {t : State} (f : Fld) (ht : P t) : P (t.irqFen p f) := h.irq _ _ _ _ _ ht (.inr (by unfold Reg.FEN_INT_STATUS; omega))
  unfold State.fenceNotify
  dsimp only
  split
  · split
    · exact hirq _ (h.wr _ (h.toHost _ _ _ _ hs) (.inr (by unfold Reg.FEN_EVQ_TAIL; omega)))
    · exact hirq _ (h.wr _ (h.wr _ hs (.inr hst)) (.inr hst))
  · exact hs

/-- A WAIT that completes or ends is in a queue that is not quiet. -/
theorem markWaits (n : Nat) (f : CmdBuf → CmdBuf) (hs : P s) : P (s.markWaits p n f) := by
  unfold State.markWaits
  refine List.foldlRecOn (motive := P) (queuesOf p) _ hs fun t ht k hk => ?_
  split
  · refine h.queue ht (lt_of_mem_queuesOf hk) fun hquiet => (List.map_congr_left fun b hb => ?_).trans (List.map_id _)
    obtain ⟨hwait, -, -⟩ := hquiet b hb
    rw [hwait, if_neg (by simp)]
    rfl
  · exact ht

theorem fence (n : Nat) (f : Fld) (v : Nat) (g : CmdBuf → CmdBuf) (hs : P s) :
    P (((s.fput (Reg.FEN_F p n) f v).fenceNotify p n).markWaits p n g) :=
  h.markWaits _ _ (h.fenceNotify _ (h.wr _ hs (.inr (by unfold Reg.FEN_F; omega))))

theorem fenceSet (n : Nat) (hs : P s) : P (s.fenceSet p n) := by
  unfold State.fenceSet
  dsimp only
  split
  · exact h.fence _ _ _ _ hs
  · exact hs

theorem fenceFail (n code : Nat) (hs : P s) : P (s.fenceFail p n code) := by
  unfold State.fenceFail
  dsimp only
  split
  · exact h.fence _ _ _ _ hs
  · exact hs

variable (hp : p ≠ 0)
include hp

theorem endBuf {b : CmdBuf} (he : s.ending p = some (q, b)) (hs : P s) : P (s.endBuf p q b) := by
  have hq := State.lt_of_ending hp he
  have hnot : ¬ (s.queue p q).Quiet := by
    obtain ⟨k, -, hb⟩ := List.exists_of_findSome?_eq_some he
    obtain ⟨c, hc, hpair⟩ := Option.map_eq_some_iff.mp hb
    obtain ⟨rfl, rfl⟩ := Prod.mk.inj hpair
    intro hquiet
    obtain ⟨-, hcomplete, herr⟩ := hquiet c (List.mem_of_find?_eq_some hc)
    simpa [hcomplete, herr] using List.find?_some hc
  have h1 : P ((s.setQueue p q { s.queue p q with bufs := (s.queue p q).bufs.filter fun c => c.seq != b.seq }).showQueue p q) :=
    h.shown (h.queue hs hq fun hquiet => absurd hquiet hnot) hq
  have hirq {t : State} (ht : P t) : P (t.irqQue p Fld.QUE_INT_STATUS_CB_ERR) := h.irq _ _ _ _ _ ht (.inl rfl)
  unfold State.endBuf
  cases b.fence with
  | none =>
    dsimp only
    rw [if_neg hp]
    split
    · exact h1
    · exact hirq h1
  | some n =>
    dsimp only
    rw [if_neg hp]
    split
    · exact h.fenceSet _ h1
    · exact hirq (h.fenceFail _ _ h1)

theorem settle (hs : P s) : P (s.settle p) := by
  unfold State.settle
  generalize (queuesOf p).foldl _ 0 = fuel
  induction fuel generalizing s with
  | zero => exact hs
  | succ n ih =>
    unfold State.settleLoop
    split
    next => exact hs
    next q b he => exact ih (h.endBuf hp he hs)

end SettleSafe

theorem queueWord_ne {i : Nat} (hp : p ∈ allParts) (hq : q < 64) (hi : i < 32) (ha : a = Reg.QUE_INT_STATUS p ∨ vf p + 0x100000 ≤ a) :
    qbase p q + i ≠ a := by
  rw [qbase_of_part hp]
  unfold Reg.QUE_INT_STATUS at ha
  omega

/-- The words of a queue below DONE are written by no end of a buffer. -/
theorem settleSafe_rd {i : Nat} (hp : p ∈ allParts) (hq : q < 64) (hi : i < 20) (w : Word) :
    SettleSafe p fun t => t.rd (qbase p q + i) = w where
  regs hs e _ := (State.regs_of_rd e _).trans hs
  wr _ hs ha := (State.rd_wr_ne _ _ (queueWord_ne hp hq (by omega) ha)).trans hs
  shown hs _ := (State.rd_showQueue (qbase_apart hp (by omega) (by decide) (.inl (by omega)))
    (qbase_apart hp (by omega) (by decide) (.inl (by omega)))).trans hs
  queue hs _ _ := (State.rd_setQueue _).trans hs

/-- A queue that is DISABLED stays so. -/
theorem settleSafe_disabled (hp : p ∈ allParts) (hq : q < 64) : SettleSafe p fun t => t.qState p q = 0 where
  regs hs e _ := (State.fget_of_rd (State.regs_of_rd e _)).trans hs
  wr _ hs ha := (State.fget_of_rd (State.rd_wr_ne _ _ (queueWord_ne hp hq (by decide) ha))).trans hs
  shown {s k} hs _ := by
    by_cases hk : k = q
    · subst hk
      rw [State.qState_showQueue]
      split
      · rfl
      · exact hs
    · exact (State.fget_of_rd (State.rd_showQueue (qbase_apart hp (by decide) (by decide) (.inr (Ne.symm hk)))
        (qbase_apart hp (by decide) (by decide) (.inr (Ne.symm hk))))).trans hs
  queue hs _ _ := (State.fget_of_rd (State.rd_setQueue _)).trans hs

/-! ## The rows -/

variable {r : RegReq} {v : Word}

theorem ne_zero_of_part (hp : p ∈ allParts) : p ≠ 0 := by
  have := pos_and_le_four_of_mem_allParts hp
  omega

theorem queueCancel_gives {b : CmdBuf} (hg : s.grants r (Reg.QUE_CANCEL p) = true)
    (hf : ((s.queue p q).bufs.find? fun c => c.seq == s.rn (Reg.QUE_CANCEL_SEQ p)) = some b) : Gives (.queueCancel r p q) s fun t =>
      t.fget (Reg.QUE_CANCEL_STAT p) Fld.QUE_CANCEL_STAT_RESULT = if b.granted then 1 else 0 := by
  have hne : Reg.QUE_CANCEL_STAT p ≠ Reg.QUE_INT_STATUS p := by
    unfold Reg.QUE_CANCEL_STAT Reg.QUE_INT_STATUS
    omega
  have hres (x : State) (n : Nat) : (((x.fput (Reg.QUE_CANCEL p) Fld.QUE_CANCEL_QUEUE q).fput (Reg.QUE_CANCEL_STAT p)
      Fld.QUE_CANCEL_STAT_RESULT n).irqQue p Fld.QUE_INT_STATUS_CANCEL_DONE).fget (Reg.QUE_CANCEL_STAT p) Fld.QUE_CANCEL_STAT_RESULT = n % 4 := by
    rw [State.irqQue, State.fget_irq_ne _ _ _ _ _ _ _ hne, State.fget_fput _ _ _ _ (by decide)]
    rfl
  refine gives_of_write (w := fun s => s.queueCancel p q) rfl hg ?_
  unfold State.queueCancel
  dsimp only
  rw [hf]
  dsimp only
  rw [hres]
  split <;> rfl

/-- R620: one queue of the context, its grants withdrawn. -/
def State.killQueue (s : State) (p q : Nat) : State :=
  ((s.fput (qCfg p q) Fld.QUE_CFG_EN 0).fput (qStat p q) Fld.QUE_STAT_STATE 0).setQueue p q { s.queue p q with
    bufs := (s.queue p q).bufs.map fun b => if b.granted then b else b.fail 0x2A }

theorem State.contextKill_eq (p n : Nat) : s.contextKill p n = (((queuesOf p).filter fun q =>
    s.fget (qCfg p q) Fld.QUE_CFG_CTX == n && s.qState p q != 0).foldl (fun s q => s.killQueue p q) s).settle p := (rfl)

theorem State.EN_killQueue : (s.killQueue p q).flag (qCfg p q) Fld.QUE_CFG_EN = false := by
  have hne : qCfg p q ≠ qStat p q := by
    unfold qCfg qStat
    omega
  unfold State.killQueue
  rw [State.flag_of_rd (State.rd_setQueue _), State.flag_of_rd (State.rd_fput_ne _ _ _ hne)]
  exact State.flag_fput_zero (by decide)

theorem State.qState_killQueue : (s.killQueue p q).qState p q = 0 := by
  unfold State.killQueue State.qState
  rw [State.fget_of_rd (State.rd_setQueue _), State.fget_fput _ _ _ _ (by decide)]
  rfl

theorem State.rd_killQueue {k i : Nat} (hp : p ∈ allParts) (hi : i < 32) (hk : k ≠ q) : (s.killQueue p k).rd (qbase p q + i) = s.rd (qbase p q + i) := by
  have hcfg : qbase p q + i ≠ qCfg p k := qbase_apart hp hi (by decide) (.inr (Ne.symm hk))
  have hstat : qbase p q + i ≠ qStat p k := qbase_apart hp hi (by decide) (.inr (Ne.symm hk))
  unfold State.killQueue
  rw [State.rd_setQueue, State.rd_fput_ne _ _ _ hstat, State.rd_fput_ne _ _ _ hcfg]

/-- Of a pass over the queues, what it did to one stands. -/
theorem State.killed_of_mem {l : List Nat} (hp : p ∈ allParts) (h : q ∈ l) :
    (l.foldl (fun s q => s.killQueue p q) s).flag (qCfg p q) Fld.QUE_CFG_EN = false ∧
      (l.foldl (fun s q => s.killQueue p q) s).qState p q = 0 := by
  obtain ⟨before, after, rfl⟩ := List.append_of_mem h
  rw [List.foldl_append, List.foldl_cons]
  refine List.foldlRecOn (motive := fun t : State => t.flag (qCfg p q) Fld.QUE_CFG_EN = false ∧ t.qState p q = 0) after _
    ⟨State.EN_killQueue, State.qState_killQueue⟩ fun t ht k _ => ?_
  by_cases hk : k = q
  · subst hk
    exact ⟨State.EN_killQueue, State.qState_killQueue⟩
  · obtain ⟨hen, hst⟩ := ht
    exact ⟨(State.flag_of_rd (State.rd_killQueue hp (by decide) hk)).trans hen, (State.fget_of_rd (State.rd_killQueue hp (by decide) hk)).trans hst⟩

theorem contextKill_gives {n : Nat} (hp : p ∈ allParts) (hq : q < 64) (hg : s.grants r (Reg.QUE_CTX p n) = true)
    (hc : s.fget (qCfg p q) Fld.QUE_CFG_CTX = n) (hs : s.qState p q ≠ 0) : Gives (.contextKill r p n) s fun t =>
      t.flag (qCfg p q) Fld.QUE_CFG_EN = false ∧ t.qState p q = 0 := by
  refine gives_of_write (w := fun s => s.contextKill p n) rfl hg ?_
  obtain ⟨hen, hst⟩ := State.killed_of_mem (s := s) (l := (queuesOf p).filter fun q =>
    s.fget (qCfg p q) Fld.QUE_CFG_CTX == n && s.qState p q != 0) hp (List.mem_filter.2 ⟨mem_queuesOf hp hq, by simp [hc, hs]⟩)
  have h0 := ne_zero_of_part hp
  rw [State.contextKill_eq]
  exact ⟨(State.flag_of_rd ((settleSafe_rd hp hq (i := 8) (by decide) _).settle h0 rfl)).trans hen, (settleSafe_disabled hp hq).settle h0 hst⟩

/-- R620, R633: a queue that is enabled starts empty. -/
theorem State.queueCfgW_of_enable (hs : s.qState p q = 0) (hb : (s.queue p q).bufs = []) (hv : Fld.QUE_CFG_EN.get v = 1) :
    s.queueCfgW p q v = ((((((s.regWrite (qCfg p q) v).fput (qCfg p q) Fld.QUE_CFG_EN 1).wn (qHead p q) 0).wn (qTail p q) 0).fput (qStat p q)
      Fld.QUE_STAT_STATE 1).setQueue p q {}).showQueue p q := by
  have hidle : (s.qState p q == 0 && (s.queue p q).bufs.isEmpty) = true := by simp [hs, hb]
  unfold State.queueCfgW
  dsimp only
  rw [if_pos hv, if_pos hidle, if_pos hidle]

/-- The words of a queue that enabling it writes are apart. -/
theorem queueWords_apart (p q : Nat) : qCfg p q ≠ qHead p q ∧ qCfg p q ≠ qTail p q ∧ qCfg p q ≠ qStat p q ∧ qCfg p q ≠ qDone p q ∧
    qHead p q ≠ qTail p q ∧ qHead p q ≠ qStat p q ∧ qHead p q ≠ qDone p q ∧ qTail p q ≠ qStat p q ∧ qTail p q ≠ qDone p q := by
  unfold qCfg qHead qTail qStat qDone
  omega

theorem queueEnable_gives (hg : s.grants r (qCfg p q) = true) (hs : s.qState p q = 0) (hb : (s.queue p q).bufs = [])
    (hv : Fld.QUE_CFG_EN.get v = 1) : Gives (.queueEnable r p q v) s fun t =>
      t.flag (qCfg p q) Fld.QUE_CFG_EN = true ∧ t.qState p q = 1 ∧ t.rn (qHead p q) = 0 ∧ t.rn (qTail p q) = 0 := by
  obtain ⟨hch, hct, hcs, hcd, hht, hhs, hhd, hts, htd⟩ := queueWords_apart p q
  refine gives_of_write (w := fun s => s.queueCfgW p q v) rfl hg ?_
  rw [State.queueCfgW_of_enable hs hb hv]
  have hen : (((((s.regWrite (qCfg p q) v).fput (qCfg p q) Fld.QUE_CFG_EN 1).wn (qHead p q) 0).wn (qTail p q) 0).fput (qStat p q)
      Fld.QUE_STAT_STATE 1).flag (qCfg p q) Fld.QUE_CFG_EN = true := by
    rw [State.flag_of_rd ((State.rd_fput_ne _ _ _ hcs).trans ((State.rd_wn_ne _ hct).trans (State.rd_wn_ne _ hch)))]
    exact State.flag_fput_one rfl (by decide)
  refine ⟨?_, ?_, ?_, ?_⟩
  · rw [State.flag_of_rd ((State.rd_showQueue hcd hcs).trans (State.rd_setQueue _)), hen]
  · rw [State.qState_showQueue, State.flag_of_rd (State.rd_setQueue _), hen, if_neg (by simp), State.qState,
      State.fget_of_rd (State.rd_setQueue _), State.fget_fput _ _ _ _ (by decide)]
    rfl
  · rw [State.rn_of_rd ((State.rd_showQueue hhd hhs).trans ((State.rd_setQueue _).trans ((State.rd_fput_ne _ _ _ hhs).trans
      (State.rd_wn_ne _ hht)))), State.rn_wn]
    rfl
  · rw [State.rn_of_rd ((State.rd_showQueue htd hts).trans ((State.rd_setQueue _).trans (State.rd_fput_ne _ _ _ hts))), State.rn_wn]
    rfl

theorem State.rd_fenceReset {n : Nat} (h : a ≠ Reg.FEN_F p n) : (s.fenceReset p n).rd a = s.rd a := by
  unfold State.fenceReset
  split
  · rw [State.rd_fput_ne _ _ _ h, State.rd_fput_ne _ _ _ h]
  · rfl

theorem State.fget_fenceReset {n : Nat} (h : s.hasFence p n = true) : (s.fenceReset p n).flag (Reg.FEN_F p n) Fld.FEN_F_SIG = false ∧
    (s.fenceReset p n).fget (Reg.FEN_F p n) Fld.FEN_F_ERR = 0 := by
  unfold State.fenceReset
  rw [if_pos h, State.flag, State.fget_fput_field _ _ _ _ _ (by decide) (by decide), State.fget_fput _ _ _ _ (by decide),
    State.fget_fput _ _ _ _ (by decide)]
  exact ⟨rfl, rfl⟩

theorem FEN_COUNT_ne (p n : Nat) : Reg.FEN_COUNT p ≠ Reg.FEN_F p n := by
  unfold Reg.FEN_COUNT Reg.FEN_F
  omega

theorem State.hasFence_of_rd {n : Nat} (h : t.rd (Reg.FEN_COUNT p) = s.rd (Reg.FEN_COUNT p)) : t.hasFence p n = s.hasFence p n := by
  unfold State.hasFence
  rw [State.fget_of_rd h]

theorem fenceWrite_gives {n : Nat} (hp : p ∈ allParts) (hg : s.grants r (Reg.FEN_F p n) = true) (hf : s.hasFence p n = true)
    (hsig : bitOf v.toNat 0 = true) (he : bitOf v.toNat 1 = true ∨ s.fget (Reg.FEN_F p n) Fld.FEN_F_ERR = 0) :
    Gives (.fenceWrite r p n v) s fun t => t.flag (Reg.FEN_F p n) Fld.FEN_F_SIG = true := by
  refine gives_of_write (w := fun s => s.fenceW p n v.toNat) rfl hg ?_
  have hf1 : (s.fput (Reg.FEN_F p n) Fld.FEN_F_NOTIFY (bitsOf v.toNat 2 1)).hasFence p n = true :=
    (State.hasFence_of_rd (State.rd_fput_ne _ _ _ (FEN_COUNT_ne p n))).trans hf
  unfold State.fenceW
  dsimp only
  rw [if_neg (by simp [hf]), if_pos hsig]
  split
  · next hreset =>
    exact State.flag_fenceSignal (ne_zero_of_part hp) ((State.hasFence_of_rd (State.rd_fenceReset (FEN_COUNT_ne p n))).trans hf1)
      (State.fget_fenceReset hf1).2
  · next hreset =>
    refine State.flag_fenceSignal (ne_zero_of_part hp) hf1 ?_
    rw [State.fget_fput_field _ _ _ _ _ (by decide) (by decide)]
    exact he.resolve_left hreset

end

/-- Settles O44: the result, the registers and the fence that each write leaves; what ends beside them (`settle`) writes neither the CFG of a
queue nor the state of one that is DISABLED, and no fence that has signalled. -/
theorem queueControlRowsComplete : Obligations.QueueControlRowsComplete :=
  ⟨fun _ _ _ _ _ _ _ hg hf => queueCancel_gives hg hf, fun _ _ _ _ _ hp hq hg hc hs => contextKill_gives hp hq hg hc hs,
    fun _ _ _ _ _ _ _ hg hs hb hv => queueEnable_gives hg hs hb hv, fun _ _ _ _ _ hp hg hf hsig he => fenceWrite_gives hp hg hf hsig he⟩

end Sys2Proof.Machine

/-! Doorbells, fetches, grants and packets (O43). -/

namespace Sys2Proof.Machine

section
variable {s t : State} {p q seq opc a : Nat} {b : CmdBuf}

/-! ## Doorbells and fetches -/

theorem queueDoorbell_gives {r : RegReq} {v : Word} (hg : s.grants r (qTail p q) = true) (hs : s.qState p q = 1)
    (hnew : ahead32 v.toNat (s.rn (qTail p q)) < 2147483648) (hsize : ahead32 v.toNat (s.rn (qDone p q)) ≤ s.qSize p q) :
    Gives (.queueDoorbell r p q v) s fun t => t = s.wn (qTail p q) v.toNat := by
  refine gives_of_write (w := fun s => s.queueDb p q v.toNat) rfl hg ?_
  unfold State.queueDb
  dsimp only
  rw [if_neg (by omega)]

/-- The command buffers of a queue outlast `settle` where nothing of them ends. -/
theorem settleSafe_bufs {l : List CmdBuf} (hl : Queue.Quiet { bufs := l }) : SettleSafe p fun t => (t.queue p q).bufs = l where
  regs hs _ e := (congrArg Queue.bufs (State.queue_of_queues e p q)).trans hs
  wr _ hs _ := hs
  shown hs _ := (congrArg Queue.bufs (State.queue_showQueue _ q)).trans hs
  queue {s k x} hs _ hx := by
    by_cases hk : q = k
    · subst hk
      rw [State.queue_setQueue]
      refine (hx fun b hb => ?_).trans hs
      rw [hs] at hb
      exact hl b hb
    · rw [State.queue_setQueue_ne x hk]
      exact hs

theorem State.rd_qHead_settle (hp : p ∈ allParts) (hq : q < 64) : (s.settle p).rd (qHead p q) = s.rd (qHead p q) :=
  (settleSafe_rd hp hq (i := 0x10) (by decide) (s.rd (qHead p q))).settle (ne_zero_of_part hp) rfl

/-- R603: the command buffer that a good entry and a good fetch give. -/
def State.fetched (s : State) (p q : Nat) (entry cb : HostRead) : CmdBuf :=
  let e := sliceB entry.data 0 32
  { seq := s.rn (qHead p q)
    fence := if (bitOf (leAt e 14 1) 0 && s.hasFence p (leAt e 12 2)) = true then some (leAt e 12 2) else none
    bytes := sliceB cb.data 0 (leAt e 8 4) }

theorem State.queueFetch_of_good {entry cb : HostRead} (hp : p ∈ allParts) (hq : q < 64) (hh : s.halted = false) (hs : s.qState p q = 1)
    (hen : s.flag (qCfg p q) Fld.QUE_CFG_EN = true) (hne : s.rn (qTail p q) ≠ s.rn (qHead p q)) (hrun : s.tdiRun p = true)
    (hb : (s.queue p q).bufs = []) (hgone : (s.queue p q).gone = []) (he : entry.status = 0) (hc : cb.status = 0)
    (hok : s.entryOk p (sliceB entry.data 0 32) = true) : s.queueFetch p q entry cb =
      (((s.wn (qHead p q) (s.rn (qHead p q) + 1)).setQueue p q { bufs := [s.fetched p q entry cb], gone := [] }).showQueue p q).settle p := by
  unfold State.queueFetch
  dsimp only
  rw [if_neg (by simp [hh, hs, hen, hne, hrun, hb, mem_queuesOf hp hq]), if_neg (by simp [he]), hgone, hb, hok, hc]
  rfl

theorem queueEntryFetch_gives {entry cb : HostRead} (hp : p ∈ allParts) (hq : q < 64) (hh : s.halted = false) (hs : s.qState p q = 1)
    (hen : s.flag (qCfg p q) Fld.QUE_CFG_EN = true) (hne : s.rn (qTail p q) ≠ s.rn (qHead p q)) (hrun : s.tdiRun p = true)
    (hb : (s.queue p q).bufs = []) (hgone : (s.queue p q).gone = []) (he : entry.status = 0) (hc : cb.status = 0)
    (hok : s.entryOk p (sliceB entry.data 0 32) = true) : Gives (.queueEntryFetch p q entry cb) s fun t =>
      t.rn (qHead p q) = (s.rn (qHead p q) + 1) % 2 ^ 32 ∧ ∃ b : CmdBuf, (t.queue p q).bufs = [b] ∧
        b.seq = s.rn (qHead p q) ∧ b.err = 0 ∧ b.pos = 0 ∧ b.granted = false ∧
        b.bytes = sliceB cb.data 0 (leAt (sliceB entry.data 0 32) 8 4) := by
  obtain ⟨-, -, -, -, -, hhs, hhd, -, -⟩ := queueWords_apart p q
  have h0 := ne_zero_of_part hp
  refine ⟨_, rfl, ?_⟩
  rw [State.queueFetch_of_good hp hq hh hs hen hne hrun hb hgone he hc hok]
  refine ⟨?_, s.fetched p q entry cb, ?_, rfl, rfl, rfl, rfl, rfl⟩
  · rw [State.rn_of_rd (State.rd_qHead_settle hp hq), State.rn_of_rd ((State.rd_showQueue hhd hhs).trans (State.rd_setQueue _)), State.rn_wn]
  · have hquiet : Queue.Quiet { bufs := [s.fetched p q entry cb] } := fun b hb => by
      rw [List.mem_singleton.1 hb]
      exact ⟨rfl, rfl, rfl⟩
    refine (settleSafe_bufs hquiet).settle h0 ?_
    rw [State.queue_showQueue, State.queue_setQueue]

/-! ## The grant (R606, R618) -/

theorem nextAfter_singleton (x y : Nat) : nextAfter [y] x = some y := by
  unfold nextAfter
  by_cases h : x < y <;> simp [h]

/-- A test that one element of a list without repeats meets picks that element. -/
theorem filter_eq_singleton {l : List Nat} {f : Nat → Bool} {x : Nat} (hn : l.Nodup) (hx : x ∈ l) (hf : f x = true)
    (ho : ∀ k ∈ l, k ≠ x → f k = false) : l.filter f = [x] := by
  have hcongr : l.filter f = l.filter (· == x) := List.filter_congr fun k hk => by
    by_cases h : k = x
    · subst h
      simp [hf]
    · simp [ho k hk h, h]
  rw [hcongr, List.filter_beq, List.count_eq_one_of_mem hn hx]
  rfl

/-- The context that the arbiter charges a queue's grants to. -/
def State.ctxOf (s : State) (p q : Nat) : Nat := if p = 0 then 0 else s.fget (qCfg p q) Fld.QUE_CFG_CTX

theorem State.ctxOf_lt (p q : Nat) : s.ctxOf p q < 64 := by
  unfold State.ctxOf
  split
  · decide
  · exact Fld.get_lt Fld.QUE_CFG_CTX (s.rd (qCfg p q))

/-- Of one eligible queue, the round robin picks its context and then the queue. -/
theorem State.cbGrant_of_single (hq : q ∈ queuesOf p) (hh : s.halted = false) (hb : nextGrant (s.queue p q).bufs = some b)
    (ho : ∀ k ∈ queuesOf p, k ≠ q → nextGrant (s.queue p k).bufs = none) : ∃ arb : Arb, s.cbGrant p =
      ({ s with arbs := SMap.set (fun _ => {}) s.arbs p arb } : State).updBuf p q b.seq fun b => { b with granted := true } := by
  have hel : (queuesOf p).filter (fun q => (nextGrant (s.queue p q).bufs).isSome) = [q] :=
    filter_eq_singleton List.nodup_range hq (by rw [hb]; rfl) fun k hk hne => by rw [ho k hk hne]; rfl
  have hctx : (List.range 64).filter (fun c => [q].any fun q => s.ctxOf p q == c) = [s.ctxOf p q] :=
    filter_eq_singleton List.nodup_range (List.mem_range.2 (s.ctxOf_lt p q)) (by simp) fun k _ hne => by simpa using Ne.symm hne
  have hpick (arb : Arb) (w : Nat) :
      (if [s.ctxOf p q].contains arb.ctx ∧ arb.used < w then some arb.ctx else nextAfter [s.ctxOf p q] arb.ctx) = some (s.ctxOf p q) := by
    split
    · next h => exact congrArg some (by simpa using h.1)
    · exact nextAfter_singleton ..
  have hone : [q].filter (fun k => s.ctxOf p k == s.ctxOf p q) = [q] := by simp
  unfold State.cbGrant
  simp only [show ∀ k, (if p = 0 then 0 else s.fget (qCfg p k) Fld.QUE_CFG_CTX) = s.ctxOf p k from fun _ => rfl]
  rw [if_neg (by simp [hh]), hel, hctx, hpick]
  dsimp only
  rw [hone, nextAfter_singleton]
  dsimp only
  rw [hb]
  exact ⟨_, rfl⟩

theorem State.bufs_updBuf (f : CmdBuf → CmdBuf) :
    ((s.updBuf p q seq f).queue p q).bufs = (s.queue p q).bufs.map fun b => if b.seq = seq then f b else b := by
  rw [State.updBuf, State.queue_setQueue]

theorem cbGrant_gives (hq : q ∈ queuesOf p) (hh : s.halted = false) (hb : nextGrant (s.queue p q).bufs = some b)
    (ho : ∀ k ∈ queuesOf p, k ≠ q → nextGrant (s.queue p k).bufs = none) : Gives (.cbGrant p) s fun t =>
      (t.queue p q).bufs = (s.queue p q).bufs.map fun c => if c.seq = b.seq then { c with granted := true } else c := by
  obtain ⟨arb, e⟩ := State.cbGrant_of_single hq hh hb ho
  refine ⟨_, rfl, ?_⟩
  rw [e]
  exact State.bufs_updBuf _

/-! ## Packets (R604, R605) -/

/-- A packet of the row's opcode that is due begins. -/
theorem State.packet_of_due (f : State → List Byte → State) (h : s.packetDue p q seq opc b = true) : s.packet p q seq opc f =
    f (s.begun p q seq (leAt (b.bytes.drop b.pos) 1 1)) (b.bytes.drop b.pos) := by
  simp only [State.packetDue, Bool.and_eq_true, beq_iff_eq, Bool.not_eq_true', decide_eq_true_eq, Option.isNone_iff_eq_none] at h
  obtain ⟨⟨⟨⟨⟨⟨⟨⟨⟨⟨hfind, hhalt⟩, hgrant⟩, herr⟩, hpos⟩, hok⟩, hop⟩, hwait⟩, hdma⟩, hseq⟩, hcc⟩ := h
  unfold State.packet
  rw [hfind]
  dsimp only
  rw [if_neg (by simp [hhalt, hgrant, herr, hpos, hwait, hdma, hseq, hcc]), if_neg (by simp [hok]), if_neg (by simp [hop])]
  rfl

theorem State.pktOk_of_due (h : s.packetDue p q seq opc b = true) : s.pktOk p b = true ∧ leAt (b.bytes.drop b.pos) 0 1 = opc := by
  simp only [State.packetDue, Bool.and_eq_true, beq_iff_eq] at h
  obtain ⟨⟨⟨⟨⟨⟨_, hok⟩, hop⟩, _⟩, _⟩, _⟩, _⟩ := h
  exact ⟨hok, hop⟩

/-- R604: the length that a packet states is its opcode's. -/
theorem State.length_of_due {n : Nat} (h : s.packetDue p q seq opc b = true) (hn : pktLen opc = some n) :
    leAt (b.bytes.drop b.pos) 1 1 = n := by
  obtain ⟨hok, hop⟩ := State.pktOk_of_due h
  unfold State.pktOk at hok
  dsimp only at hok
  rw [hop, hn] at hok
  simp only [Bool.and_eq_true, beq_iff_eq] at hok
  exact hok.1.1.1

/-- R604: a packet of one unit that is due begins. -/
theorem State.packet_of_due_one (f : State → List Byte → State) (h : s.packetDue p q seq opc b = true) (hn : pktLen opc = some 1) :
    s.packet p q seq opc f = f (s.begun p q seq 1) (b.bytes.drop b.pos) := by
  rw [State.packet_of_due f h, State.length_of_due h hn]

/-- R604: a packet of a fence names one that the partition has. -/
theorem State.hasFence_of_due (h : s.packetDue p q seq opc b = true) (h1 : 1 ≤ opc) (h3 : opc ≤ 3) :
    s.hasFence p (leAt (b.bytes.drop b.pos) 4 2) = true := by
  obtain ⟨hok, hop⟩ := State.pktOk_of_due h
  have hn : pktLen opc = some 1 := if_pos (.inl h3)
  unfold State.pktOk at hok
  dsimp only at hok
  rw [hop, hn, if_neg (by omega), if_pos h3] at hok
  simp only [Bool.and_eq_true] at hok
  exact hok.2.2

theorem State.rd_updBuf (f : CmdBuf → CmdBuf) : (s.updBuf p q seq f).rd a = s.rd a := (rfl)
theorem State.rd_begun (n : Nat) : (s.begun p q seq n).rd a = s.rd a := (rfl)

theorem pktNop_gives (h : s.packetDue p q seq 0 b = true) : Gives (.pktNop p q seq) s fun t => t = (s.begun p q seq 1).settle p :=
  ⟨_, rfl, State.packet_of_due_one _ h rfl⟩

theorem pktWait_gives (h : s.packetDue p q seq 1 b = true)
    (he : s.fget (Reg.FEN_F p (leAt (b.bytes.drop b.pos) 4 2)) Fld.FEN_F_ERR = 0)
    (hs : s.flag (Reg.FEN_F p (leAt (b.bytes.drop b.pos) 4 2)) Fld.FEN_F_SIG = false) : Gives (.pktWait p q seq) s fun t =>
      t = (s.begun p q seq 1).updBuf p q seq fun c => { c with waitOn := some (leAt (b.bytes.drop b.pos) 4 2) } := by
  refine ⟨_, rfl, ?_⟩
  rw [State.packet_of_due_one _ h rfl]
  unfold State.pktWait
  dsimp only
  rw [State.fget_of_rd (State.rd_begun _), State.flag_of_rd (State.rd_begun _), if_neg (by simp [he]), if_neg (by simp [hs])]

theorem pktSignal_gives (hp : p ∈ allParts) (h : s.packetDue p q seq 2 b = true)
    (he : s.fget (Reg.FEN_F p (leAt (b.bytes.drop b.pos) 4 2)) Fld.FEN_F_ERR = 0) : Gives (.pktSignal p q seq) s fun t =>
      t.flag (Reg.FEN_F p (leAt (b.bytes.drop b.pos) 4 2)) Fld.FEN_F_SIG = true := by
  refine ⟨_, rfl, ?_⟩
  rw [State.packet_of_due_one _ h rfl]
  exact State.flag_fenceSignal (ne_zero_of_part hp)
    ((State.hasFence_of_rd (State.rd_begun _)).trans (State.hasFence_of_due h (by decide) (by decide)))
    ((State.fget_of_rd (State.rd_begun _)).trans he)

theorem State.settle_of_none (h : s.ending p = none) : s.settle p = s := by
  unfold State.settle
  generalize (queuesOf p).foldl _ 0 = fuel
  cases fuel with
  | zero => rfl
  | succ n =>
    unfold State.settleLoop
    rw [h]

theorem pktReset_gives (h : s.packetDue p q seq 3 b = true)
    (hend : ((s.begun p q seq 1).fenceReset p (leAt (b.bytes.drop b.pos) 4 2)).ending p = none) : Gives (.pktReset p q seq) s fun t =>
      t.flag (Reg.FEN_F p (leAt (b.bytes.drop b.pos) 4 2)) Fld.FEN_F_SIG = false ∧
        t.fget (Reg.FEN_F p (leAt (b.bytes.drop b.pos) 4 2)) Fld.FEN_F_ERR = 0 := by
  refine ⟨_, rfl, ?_⟩
  rw [State.packet_of_due_one _ h rfl, State.settle_of_none hend]
  exact State.fget_fenceReset ((State.hasFence_of_rd (State.rd_begun _)).trans (State.hasFence_of_due h (by decide) (by decide)))

theorem State.dma_sepiaRec (unit code owner arg e : Nat) : (s.sepiaRec unit code owner arg).dma e = s.dma e :=
  congrArg (fun m => SMap.get (fun _ => []) m e)
    ((State.sepiaRec_kept (φ := allBut [.usage]) unit code owner arg (Kept.refl _ s) rfl).dmas rfl)

theorem State.dma_updBuf (f : CmdBuf → CmdBuf) (e : Nat) : (s.updBuf p q seq f).dma e = s.dma e := (rfl)

theorem State.engineOf_begun (n : Nat) : (s.begun p q seq n).engineOf p q = s.engineOf p q := (rfl)

theorem pktDma_gives (h : s.packetDue p q seq 0x10 b = true) (hopen : s.dmaOpenFor p (s.engineOf p q) = true) :
    Gives (.pktDma p q seq) s fun t => ∃ d : Desc, t.dma (s.engineOf p q) = s.dma (s.engineOf p q) ++ [d] ∧ d.owner = p ∧
      d.queue = q ∧ d.buf = seq ∧ d.crec = leAt (b.bytes.drop b.pos) 8 8 ∧ d.bytes = sliceB (b.bytes.drop b.pos) 16 64 := by
  refine ⟨_, rfl, ?_⟩
  rw [if_pos hopen, State.packet_of_due _ h]
  unfold State.pktDma
  dsimp only
  rw [State.engineOf_begun, State.dma_sepiaRec, State.dma_updBuf, State.dma_setDma]
  exact ⟨_, rfl, rfl, rfl, rfl, rfl, rfl⟩

/-! ## R615: SEQ_RUN -/

theorem State.bufs_begun (n k : Nat) (c : CmdBuf) (hc : c ∈ ((s.begun p q seq n).queue p k).bufs) :
    ∃ c0 ∈ (s.queue p k).bufs, c.seqOpen = c0.seqOpen := by
  by_cases hk : k = q
  · subst hk
    rw [State.begun, State.updBuf, State.queue_setQueue] at hc
    obtain ⟨c0, h0, rfl⟩ := List.mem_map.1 hc
    exact ⟨c0, h0, by split <;> rfl⟩
  · rw [State.begun, State.updBuf, State.queue_setQueue_ne _ hk] at hc
    exact ⟨c, hc, rfl⟩

/-- R615: no SEQ_RUN of the partition is open once the packet has begun. -/
theorem State.notBusy_begun (n : Nat) (h : ∀ k ∈ queuesOf p, ∀ c ∈ (s.queue p k).bufs, c.seqOpen = false) :
    ((queuesOf p).any fun k => ((s.begun p q seq n).queue p k).bufs.any fun b => b.seqOpen) = false := by
  rw [List.any_eq_false]
  intro k hk
  rw [Bool.not_eq_true, List.any_eq_false]
  intro c hc
  obtain ⟨c0, h0, e⟩ := State.bufs_begun n k c hc
  rw [e, h k hk c0 h0]
  decide

theorem State.seqState_seqCont (hp : p ∈ allParts) (h : s.seqState p = seqStopped) : (s.seqCont p).seqState p = seqGateWait := by
  unfold State.seqCont
  rw [if_neg (not_not.mpr h)]
  dsimp only
  rw [State.seqState_setSeqState hp (by decide)]

theorem pktSeqRun_cont_gives {errs : List ReadErr} (hp : p ∈ allParts) (h : s.packetDue p q seq 0x20 b = true)
    (hopen : ∀ k ∈ queuesOf p, ∀ c ∈ (s.queue p k).bufs, c.seqOpen = false)
    (hc : bitOf (leAt (b.bytes.drop b.pos) 4 1) 0 = true) (hs : s.seqState p = seqStopped) : Gives (.pktSeqRun p q seq errs) s fun t =>
      t.seqState p = seqGateWait := by
  have hst : (s.begun p q seq 1).seqState p = seqStopped := (State.seqState_of_rd (State.rd_begun _)).trans hs
  refine ⟨_, rfl, ?_⟩
  rw [State.packet_of_due_one _ h rfl, hc]
  unfold State.pktSeqRun
  dsimp only
  rw [State.notBusy_begun 1 hopen, if_neg (by decide), if_pos rfl, hst, if_neg (by decide), if_pos rfl]
  exact State.seqState_seqCont hp ((State.seqState_of_rd (State.rd_updBuf _)).trans hst)

theorem State.stopped_begun (n : Nat) : (s.begun p q seq n).stopped p = s.stopped p := (rfl)

theorem pktSeqRun_run_gives {errs : List ReadErr} (h : s.packetDue p q seq 0x20 b = true)
    (hopen : ∀ k ∈ queuesOf p, ∀ c ∈ (s.queue p k).bufs, c.seqOpen = false)
    (hc : bitOf (leAt (b.bytes.drop b.pos) 4 1) 0 = false) (hs : s.stopped p = true) : Gives (.pktSeqRun p q seq errs) s fun t =>
      t = ((s.begun p q seq 1).updBuf p q seq fun c => { c with seqOpen := true }).seqRun p errs := by
  refine ⟨_, rfl, ?_⟩
  rw [State.packet_of_due_one _ h rfl, hc]
  unfold State.pktSeqRun
  dsimp only
  rw [State.notBusy_begun 1 hopen, if_neg (by decide), if_neg (by simp [State.stopped_begun, hs]), if_neg (by decide)]

/-! ## R616: REG_WRITE -/

/-- The packet's word for a ring's producer index is the ring's own register. -/
theorem State.pktRegWrite_prod {i v : Nat} (hi : i < 16 * s.ncores p) :
    s.pktRegWrite p q seq (0x28000C + 32 * i) v = (s.ringProdW p i v).settle p := by
  have hidx : (0x28000C + 32 * i - 0x280000) / 32 = i := by omega
  unfold State.pktRegWrite
  dsimp only
  rw [hidx, if_pos ⟨decide_eq_true ⟨by omega, hi⟩, by omega⟩]

theorem State.ring_begun (n i : Nat) : (s.begun p q seq n).ring p i = s.ring p i := (rfl)
theorem State.ncores_begun (n : Nat) : (s.begun p q seq n).ncores p = s.ncores p := (rfl)

theorem leAt_four_lt (l : List Byte) (k : Nat) : leAt l k 4 < 2 ^ 32 :=
  calc leAt l k 4 < 256 ^ ((l.drop k).take 4).length := leNat_lt _
    _ ≤ 256 ^ 4 := Nat.pow_le_pow_right (by decide) (List.length_take_le ..)

theorem pktRegWrite_gives {i : Nat} (hp : p ∈ allParts) (h : s.packetDue p q seq 0x21 b = true) (hi : i < 16 * s.ncores p)
    (hoff : leAt (b.bytes.drop b.pos) 4 4 = 0x28000C + 32 * i) (hk : (s.ring p i).kind = 1) (he : (s.ring p i).eod = false)
    (hf : ahead32 (s.rn (Reg.SEQ_RING_PROD p i)) (s.rn (Reg.SEQ_RING_CONS p i)) +
      ahead32 (leAt (b.bytes.drop b.pos) 8 4) (s.rn (Reg.SEQ_RING_PROD p i)) ≤ (s.ring p i).n) :
    Gives (.pktRegWrite p q seq) s fun t => t.rn (Reg.SEQ_RING_PROD p i) = leAt (b.bytes.drop b.pos) 8 4 := by
  have hw : (s.begun p q seq 1).ringProdW p i (leAt (b.bytes.drop b.pos) 8 4) =
      (s.begun p q seq 1).wn (Reg.SEQ_RING_PROD p i) (leAt (b.bytes.drop b.pos) 8 4) := by
    refine State.ringProdW_of_fits (by rw [State.ring_begun, hk]) (by rw [State.ring_begun, he]) ?_
    rw [State.rn_of_rd (State.rd_begun _), State.rn_of_rd (State.rd_begun _), State.ring_begun]
    exact hf
  have hsafe (x : State) : (x.settle p).rd (Reg.SEQ_RING_PROD p i) = x.rd (Reg.SEQ_RING_PROD p i) :=
    (fenceSafe_rd x (.inr (by unfold Reg.SEQ_RING_PROD; omega))).settle (ne_zero_of_part hp) rfl
  refine ⟨_, rfl, ?_⟩
  rw [State.packet_of_due_one _ h rfl, hoff, State.pktRegWrite_prod (by rw [State.ncores_begun]; exact hi), hw]
  exact (State.rn_of_rd (hsafe _)).trans ((State.rn_wn ..).trans (Nat.mod_eq_of_lt (leAt_four_lt _ _)))

end

/-- Settles O43: a doorbell writes the tail; the buffer of a good entry outlasts what else ends, since nothing of it does; the round robin over
one eligible queue picks it; and a packet that is due runs on the buffer with its length passed. -/
theorem queueRowsComplete : Obligations.QueueRowsComplete :=
  ⟨fun _ _ _ _ _ _ _ hg hs hnew hsize => queueDoorbell_gives hg hs hnew hsize,
    fun _ _ _ _ _ hp hq hh hs hen hne hrun hb hgone he hc hok => queueEntryFetch_gives hp hq hh hs hen hne hrun hb hgone he hc hok,
    fun _ _ _ _ _ hq hh hb ho => cbGrant_gives hq hh hb ho,
    fun _ _ _ _ _ => ⟨fun h => pktNop_gives h, fun h he hs => pktWait_gives h he hs, fun hp h he => pktSignal_gives hp h he,
      fun _ h hend => pktReset_gives h hend⟩,
    fun _ _ _ _ _ h hopen => pktDma_gives h hopen,
    fun _ _ _ _ _ _ hp h hopen => ⟨fun hc hs => pktSeqRun_cont_gives hp h hopen hc hs, fun hc hs => pktSeqRun_run_gives h hopen hc hs⟩,
    fun _ _ _ _ _ _ hp h hi hoff hk he hf => pktRegWrite_gives hp h hi hoff hk he hf⟩

end Sys2Proof.Machine

/-! The region table, accesses through BAR2 and IDE (O57). -/

namespace Sys2Proof.Machine

section
variable {s t : State} {p n w i e a : Nat}

/-! ## R535, R536: the region table -/

theorem regionEntryWrite_eq {r : RegReq} {v : Word} (hn : n < 32) (hwho : r.who = p + 2) (ht : r.trusted = true) (hbe : r.be % 16 = 15)
    (hrun : s.tdiRun p = true) (hr : s.reaches r (Reg.TKEY_RGN_0 p n + 4 * w) = true) :
    exec (.regionEntryWrite r p n w v) s = .next (s.rgnW p n w v) := by
  have hacc : s.rgnAccess r p n w v = s.rgnW p n w v := by
    unfold State.rgnAccess
    dsimp only
    rw [if_pos ⟨hwho, ht, hrun, hr⟩, if_pos hbe]
  show Host.Outcome.next (s.rgnAccess r p (n % 32) w v) = _
  rw [Nat.mod_eq_of_lt hn, hacc]

theorem State.rgnW_of_open {v : Word} (hw : w < 3) (hv : s.flag (Reg.TKEY_RGN_2 p n) Fld.TKEY_RGN_2_VALID = false)
    (hwhy : w = 2 → Fld.TKEY_RGN_2_VALID.get v = 1 → s.rgnWhy p n v = 0) :
    s.rgnW p n w v = s.regWrite (Reg.TKEY_RGN_0 p n + 4 * w) v := by
  unfold State.rgnW
  dsimp only
  rw [hv]
  by_cases h2 : w = 2
  · have hno : (if Fld.TKEY_RGN_2_VALID.get v = 1 then s.rgnWhy p n v else 0) = 0 := by
      split
      · next hvalid => exact hwhy h2 hvalid
      · rfl
    have ha : Reg.TKEY_RGN_2 p n = Reg.TKEY_RGN_0 p n + 4 * w := by
      unfold Reg.TKEY_RGN_2 Reg.TKEY_RGN_0
      omega
    rw [if_pos h2, if_neg (by decide), if_pos hno, ha]
  · rw [if_neg h2, if_neg (by omega), if_neg (by decide)]

theorem State.rgnW_of_valid {v : Word} (hv : s.flag (Reg.TKEY_RGN_2 p n) Fld.TKEY_RGN_2_VALID = true) (h0 : Fld.TKEY_RGN_2_VALID.get v = 0) :
    s.rgnW p n 2 v = s.fput (Reg.TKEY_RGN_2 p n) Fld.TKEY_RGN_2_VALID 0 := by
  unfold State.rgnW
  dsimp only
  rw [if_pos rfl, if_pos hv, if_pos h0]

/-! ## R544, R545: BAR2 -/

theorem find?_checkSector_eq_none {l : List (Nat × Nat)} {m : Master} (h : ∀ x ∈ l, s.checkSector p m true x.1 x.2 = 0) :
    l.find? (fun x => s.checkSector p m true x.1 x.2 != 0) = none :=
  List.find?_eq_none.2 fun x hx => by simp [h x hx]

/-- The pieces of a BAR2 read, one after another: the block, whether every piece was good, and the bytes. -/
def State.barRead (s : State) (p o inside : Nat) (errs : List ReadErr) : State × Bool × List Byte :=
  (s.barPieces p o inside).foldl (fun (x : State × Bool × List Byte) pc =>
    let z := x.1.readPiece errs p false false pc.1 pc.2
    (z.1, x.2.1 && z.2.ok, x.2.2 ++ z.2.bytes)) (s, true, [])

theorem State.bar2_read {o len : Nat} {errs : List ReadErr} (hvf : s.vfEnabled p = true) (hst : s.partState p = 4) (hrun : s.tdiRun p = true)
    (h : ∀ x ∈ s.barPieces p o (min len (s.memSize p - o)), s.checkSector p mBarRd true x.1 x.2 = 0) :
    s.bar2 p true o len none errs = if (s.barRead p o (min len (s.memSize p - o)) errs).2.1 = true
      then (s.barRead p o (min len (s.memSize p - o)) errs).1.onIde p
        ((s.barRead p o (min len (s.memSize p - o)) errs).2.2 ++ ffBytes (len - min len (s.memSize p - o))) (.barRead p o)
      else (s.barRead p o (min len (s.memSize p - o)) errs).1.emit (.hostPoison o len) := by
  unfold State.bar2
  dsimp only
  rw [if_neg (by simp [hvf, hst, hrun])]
  simp only [Option.isSome_none, Bool.false_eq_true, if_false]
  rw [find?_checkSector_eq_none h]
  rfl

theorem bar2Read_gives {o len : Nat} {errs : List ReadErr} (hvf : s.vfEnabled p = true) (hst : s.partState p = 4) (hrun : s.tdiRun p = true)
    (h : ∀ x ∈ s.barPieces p o (min len (s.memSize p - o)), s.checkSector p mBarRd true x.1 x.2 = 0) :
    Gives (.bar2Access p true o len none errs) s fun t =>
      let y := s.barRead p o (min len (s.memSize p - o)) errs
      t.regs = y.1.regs ∧ t.out = (if y.2.1 then
        .barRead p o (Config.ideSealed (y.1.ideStream p) y.1.serial (y.2.2 ++ ffBytes (len - min len (s.memSize p - o)))) else .hostPoison o len) ::
          y.1.out := by
  refine ⟨_, congrArg Host.Outcome.next (State.bar2_read hvf hst hrun h), ?_⟩
  dsimp only
  split
  · exact ⟨rfl, rfl⟩
  · exact ⟨rfl, rfl⟩

theorem bar2Write_gives {o len : Nat} {d : List Byte} {errs : List ReadErr} (hvf : s.vfEnabled p = true) (hst : s.partState p = 4)
    (hrun : s.tdiRun p = true) (h : ∀ x ∈ s.barPieces p o (min d.length (s.memSize p - o)), s.checkSector p mBarWr true x.1 x.2 = 0) :
    Gives (.bar2Access p true o len (some d) errs) s fun t =>
      t = ((s.barPieces p o (min d.length (s.memSize p - o))).foldl (fun (x : State × Nat) pc =>
        ((x.1.writePiece errs p false pc.1 ((d.drop x.2).take pc.2)).1, x.2 + pc.2)) (s, 0)).1 := by
  refine ⟨_, rfl, ?_⟩
  unfold State.bar2
  dsimp only
  rw [if_neg (by simp [hvf, hst, hrun])]
  simp only [Option.isSome_some, if_true]
  rw [find?_checkSector_eq_none h]

/-! ## R542, R546: IDE -/

theorem State.insecure_of_secure (h : s.flag (Reg.HST_IDE i) Fld.HST_IDE_SECURE = true) :
    s.insecure i = (s.fput (Reg.HST_IDE i) Fld.HST_IDE_SECURE 0).irq 0 6 Reg.HST_INT_STATUS Reg.HST_INT_EN (2 ^ (i + 8)) := if_pos h

theorem HST_IDE_ne_HST_INT_STATUS (i : Nat) : Reg.HST_IDE i ≠ Reg.HST_INT_STATUS := by
  unfold Reg.HST_IDE Reg.HST_INT_STATUS
  omega

/-- A stream that leaves the Secure state, or was not in it, is not secure. -/
theorem State.SECURE_insecure (i : Nat) : (s.insecure i).flag (Reg.HST_IDE i) Fld.HST_IDE_SECURE = false := by
  by_cases h : s.flag (Reg.HST_IDE i) Fld.HST_IDE_SECURE = true
  · rw [State.insecure_of_secure h, State.flag_of_rd (State.rd_irq_ne _ _ _ _ _ _ (HST_IDE_ne_HST_INT_STATUS i))]
    exact State.flag_fput_zero (by decide)
  · rw [State.insecure, if_neg h]
    exact Bool.not_eq_true _ ▸ h

theorem State.insecure_keeps (i : Nat) : Kept (allBut [.regs, .out]) s (s.insecure i) :=
  kept_ite (State.irq_kept _ _ _ _ _ (State.fput_kept _ _ _ (Kept.refl _ s) rfl) rfl rfl) (Kept.refl _ s)

/-- R546: a descriptor in flight of the VF ends with the integrity error. -/
def endIde (p : Nat) (d : Desc) : Desc := if d.owner = p ∧ d.fin.isNone then { d with fin := some ⟨0x18, 0, [], []⟩ } else d

/-- The TDI of a partition that is ACTIVE goes to ERROR. -/
def State.tdiError (s : State) (p : Nat) : State := if s.partState p = 4 then s.fput (Reg.PRT_STATE p) Fld.PRT_STATE_TDI 3 else s

/-- Every engine's descriptors of the VF end. -/
def State.endDescs (s : State) (p : Nat) (l : List Nat) : State := l.foldl (fun (s : State) e => s.setDma e ((s.dma e).map (endIde p))) s

theorem State.ideFail_eq (hp : s.fget (Reg.HST_IDE i) Fld.HST_IDE_VF = p) (h0 : p ≠ 0)
    (hs : s.flag (Reg.HST_IDE i) Fld.HST_IDE_SECURE = true) :
    s.ideFail i = (((s.insecure i).tdiError p).endDescs p (List.range 16)).failBufs p (fun _ => true) 0x18 := by
  unfold State.ideFail
  dsimp only
  rw [hp, if_neg (by simp [hs, h0])]
  rfl

theorem State.dma_setDma_ne {k : Nat} (l : List Desc) (h : k ≠ e) : (s.setDma e l).dma k = s.dma k := SMap.get_set_ne _ _ l h

theorem State.rd_endDescs (l : List Nat) : (s.endDescs p l).rd a = s.rd a := State.rd_foldl (fun t k => State.rd_setDma k ((t.dma k).map (endIde p))) l

theorem State.dma_endDescs_of_not_mem {l : List Nat} (h : e ∉ l) : (s.endDescs p l).dma e = s.dma e := by
  induction l generalizing s with
  | nil => rfl
  | cons k l ih =>
    rw [List.mem_cons, not_or] at h
    exact ih h.2 |>.trans (State.dma_setDma_ne _ h.1)

theorem State.dma_endDescs {l : List Nat} (hl : l.Nodup) (h : e ∈ l) : (s.endDescs p l).dma e = (s.dma e).map (endIde p) := by
  obtain ⟨before, after, rfl⟩ := List.append_of_mem h
  have hnd := List.nodup_append.1 hl
  have hafter : e ∉ after := (List.nodup_cons.1 hnd.2.1).1
  have hbefore : e ∉ before := fun hm => hnd.2.2 e hm e List.mem_cons_self rfl
  have hsplit : s.endDescs p (before ++ e :: after) = ((s.endDescs p before).setDma e (((s.endDescs p before).dma e).map (endIde p))).endDescs p after := by
    unfold State.endDescs
    rw [List.foldl_append, List.foldl_cons]
  rw [hsplit, State.dma_endDescs_of_not_mem hafter, State.dma_setDma, State.dma_endDescs_of_not_mem hbefore]

theorem State.rd_tdiError (h : a ≠ Reg.PRT_STATE p) : (s.tdiError p).rd a = s.rd a := by
  unfold State.tdiError
  split
  · exact State.rd_fput_ne s _ _ h
  · rfl

theorem State.tdiError_keeps : Kept (allBut [.regs]) s (s.tdiError p) := kept_ite (State.fput_kept _ _ _ (Kept.refl _ s) rfl) (Kept.refl _ s)

theorem State.TDI_tdiError (h : s.partState p = 4) : (s.tdiError p).fget (Reg.PRT_STATE p) Fld.PRT_STATE_TDI = 3 := by
  unfold State.tdiError
  rw [if_pos h, State.fget_fput _ _ _ _ (by decide)]
  rfl

theorem ideIntegrityFail_gives (hi : i < 4) (hp : s.fget (Reg.HST_IDE i) Fld.HST_IDE_VF ∈ allParts)
    (hs : s.flag (Reg.HST_IDE i) Fld.HST_IDE_SECURE = true) : Gives (.ideIntegrityFail i) s fun t =>
      t.flag (Reg.HST_IDE i) Fld.HST_IDE_SECURE = false ∧
        (s.partState (s.fget (Reg.HST_IDE i) Fld.HST_IDE_VF) = 4 →
          t.fget (Reg.PRT_STATE (s.fget (Reg.HST_IDE i) Fld.HST_IDE_VF)) Fld.PRT_STATE_TDI = 3) ∧
        ∀ e, e < 16 → t.dma e = (s.dma e).map (endIde (s.fget (Reg.HST_IDE i) Fld.HST_IDE_VF)) := by
  generalize hvf : s.fget (Reg.HST_IDE i) Fld.HST_IDE_VF = p at hp ⊢
  obtain ⟨h1, h4⟩ := pos_and_le_four_of_mem_allParts hp
  have h0 : p ≠ 0 := by omega
  have hide : Reg.HST_IDE i ≠ Reg.PRT_STATE p := by
    unfold Reg.HST_IDE Reg.PRT_STATE
    omega
  have hprt : Reg.PRT_STATE p ≠ Reg.HST_INT_STATUS := by
    unfold Reg.PRT_STATE Reg.HST_INT_STATUS
    omega
  have hrd {a : Nat} (x : State) (ha : a < 0x1000000) : (x.failBufs p (fun _ => true) 0x18).rd a = x.rd a :=
    State.rd_mapBufs h0 _ _ (.inl (by unfold vf; omega))
  have hpart : (s.insecure i).partState p = s.partState p := by
    rw [State.insecure_of_secure hs]
    exact State.partState_of_rd ((State.rd_irq_ne _ _ _ _ _ _ hprt).trans (State.rd_fput_ne _ _ _ (Ne.symm hide)))
  refine ⟨_, rfl, ?_⟩
  rw [Nat.mod_eq_of_lt hi, State.ideFail_eq hvf h0 hs]
  refine ⟨?_, fun hact => ?_, fun e he => ?_⟩
  · rw [State.flag_of_rd ((hrd _ (by unfold Reg.HST_IDE; omega)).trans ((State.rd_endDescs _).trans (State.rd_tdiError hide))),
      State.SECURE_insecure]
  · rw [State.fget_of_rd ((hrd _ (by unfold Reg.PRT_STATE; omega)).trans (State.rd_endDescs _)), State.TDI_tdiError (hpart.trans hact)]
  · have hfail := State.failBufs_kept (φ := allBut [.regs, .out, .queues]) p (fun _ => true) 0x18
      (Kept.refl _ (((s.insecure i).tdiError p).endDescs p (List.range 16))) rfl rfl rfl
    rw [State.dma_of_kept hfail rfl, State.dma_endDescs List.nodup_range (List.mem_range.2 he), State.dma_of_kept State.tdiError_keeps rfl,
      State.dma_of_kept (State.insecure_keeps i) rfl]

/-! ## R542: IDE_KM -/

theorem State.ideKm_of_session {id sid : Nat} {go : Bool} (h : s.answersDoe p = true)
    (hsess : s.keeper.sessions.any (fun (x : Session) => x.part == p && x.id == id) = true)
    (hfree : s.fget (Reg.HST_IDE i) Fld.HST_IDE_VF = p ∨ s.flag (Reg.HST_IDE i) Fld.HST_IDE_SECURE = false) : s.ideKm p id i sid go =
      if go = true then s.wr (Reg.HST_IDE i) (Fld.HST_IDE_STREAM_ID.put (Fld.HST_IDE_PCRC.put (Fld.HST_IDE_VF.put
        (Fld.HST_IDE_SECURE.put 0 1) p) 1) sid)
      else if s.fget (Reg.HST_IDE i) Fld.HST_IDE_VF = p then s.insecure i else s := by
  have hno : ¬ ((!(s.keeper.sessions.any fun (x : Session) => x.part == p && x.id == id)) = true ∨
      (s.fget (Reg.HST_IDE i) Fld.HST_IDE_VF ≠ p ∧ s.flag (Reg.HST_IDE i) Fld.HST_IDE_SECURE = true)) := by
    rw [hsess]
    rintro (hn | ⟨hne, hsec⟩)
    · exact absurd hn (by decide)
    · rcases hfree with hf | hf
      · exact hne hf
      · exact absurd (hf.symm.trans hsec) (by decide)
  unfold State.ideKm
  rw [State.doe_of_answersDoe _ h]
  dsimp only
  rw [if_neg hno]

theorem ideKmGo_gives {id sid : Nat} (hp : p ∈ allParts) (hi : i < 4) (hsid : sid < 256) (h : s.answersDoe p = true)
    (hsess : s.keeper.sessions.any (fun (x : Session) => x.part == p && x.id == id) = true)
    (hfree : s.fget (Reg.HST_IDE i) Fld.HST_IDE_VF = p ∨ s.flag (Reg.HST_IDE i) Fld.HST_IDE_SECURE = false) :
    Gives (.ideKm p id i sid true) s fun t => t.flag (Reg.HST_IDE i) Fld.HST_IDE_SECURE = true ∧
      t.fget (Reg.HST_IDE i) Fld.HST_IDE_VF = p ∧ t.fget (Reg.HST_IDE i) Fld.HST_IDE_STREAM_ID = sid := by
  obtain ⟨-, h4⟩ := pos_and_le_four_of_mem_allParts hp
  refine ⟨_, rfl, ?_⟩
  rw [Nat.mod_eq_of_lt hi, State.ideKm_of_session h hsess hfree, if_pos rfl]
  refine ⟨?_, ?_, ?_⟩
  · rw [State.flag, State.fget, State.rd_wr, Fld.get_put_ne _ _ _ _ (by decide) (by decide), Fld.get_put_ne _ _ _ _ (by decide) (by decide),
      Fld.get_put_ne _ _ _ _ (by decide) (by decide), Fld.get_put_same _ _ _ (by decide)]
    rfl
  · rw [State.fget, State.rd_wr, Fld.get_put_ne _ _ _ _ (by decide) (by decide), Fld.get_put_ne _ _ _ _ (by decide) (by decide),
      Fld.get_put_same _ _ _ (by decide)]
    exact Nat.mod_eq_of_lt (by show p < 8; omega)
  · rw [State.fget, State.rd_wr, Fld.get_put_same _ _ _ (by decide)]
    exact Nat.mod_eq_of_lt hsid

theorem ideKmStop_gives {id sid : Nat} (hi : i < 4) (h : s.answersDoe p = true)
    (hsess : s.keeper.sessions.any (fun (x : Session) => x.part == p && x.id == id) = true)
    (hvf : s.fget (Reg.HST_IDE i) Fld.HST_IDE_VF = p) : Gives (.ideKm p id i sid false) s fun t =>
      t.flag (Reg.HST_IDE i) Fld.HST_IDE_SECURE = false := by
  refine ⟨_, rfl, ?_⟩
  rw [Nat.mod_eq_of_lt hi, State.ideKm_of_session h hsess (.inl hvf), if_neg (by decide), if_pos hvf]
  exact State.SECURE_insecure i

end

/-- Settles O57: a trusted write reaches the region entry's rule, a BAR2 access whose every sector passes the check moves its pieces, and a
stream's failure ends the descriptors and the buffers of its VF and no register below them. What a BAR2 read shows is sealed for the stream
(log entry 20), and the TDI goes to ERROR in ACTIVE alone (log entry 25). -/
theorem protectionRowsComplete : Obligations.ProtectionRowsComplete :=
  ⟨fun _ _ _ _ _ _ _ hn hw hwho ht hbe hrun hr => ⟨
      fun hv hwhy => ⟨_, regionEntryWrite_eq hn hwho ht hbe hrun hr, State.rgnW_of_open hw hv hwhy⟩,
      fun hv h2 h0 => ⟨_, regionEntryWrite_eq hn hwho ht hbe hrun hr, by rw [h2]; exact State.rgnW_of_valid hv h0⟩⟩,
    fun _ _ _ _ _ hvf hst hrun h => bar2Read_gives hvf hst hrun h, fun _ _ _ _ _ _ hvf hst hrun h => bar2Write_gives hvf hst hrun h,
    fun _ _ hi hp hs => ideIntegrityFail_gives hi hp hs,
    fun _ _ _ _ _ hp hi hsid h hsess => ⟨fun hfree => ideKmGo_gives hp hi hsid h hsess hfree, fun hvf => ideKmStop_gives hi h hsess hvf⟩⟩

end Sys2Proof.Machine
